-- ==== Sys2Proof/Word.lean ====
section
/-! DEFINITION. The word types: a register is 32 bits (R7), a memory cell one byte, an instant of network time a
natural number of units of 2^-32 ns. -/

namespace Sys2Proof

/-- A 32-bit register word. -/
abbrev Word := BitVec 32

/-- A byte of memory or of a frame. -/
abbrev Byte := BitVec 8

/-- A 64-bit pattern, among them the binary64 numbers of the engines. -/
abbrev DWord := BitVec 64

/-- A 128-bit key or tag of the crypto engine. -/
abbrev Key := BitVec 128

end Sys2Proof
end

