-- ==== Sys2Proof/Syntax.lean ====
section
/-! DEFINITION. The commands of the block: one constructor per row of the table of operations and events, and the
data they carry. Each constructor cites the requirement of its row. -/

namespace Sys2Proof

/-- One reading of ROLE against the bands of R36. -/
inductive RoleBand where
  | low | mid | high | none
  deriving DecidableEq, Repr

/-- The paths to the register space, R81. A tree management access carries the presence mark of R92 and the seal mark
of R176, which its frame's tag covers. -/
inductive Path where
  | debug
  | supervisor
  | station
  | host
  | remote (presence : Bool) (sealMark : Bool)
  deriving DecidableEq, Repr

/-- The causes of holdover, R238. -/
inductive HoldCause where
  | tclk | twin | forced | frames
  deriving DecidableEq, Repr

/-- What starts a babbler search, R325: a write of BERTH_SRCHp.GO, or LTHR rounds of light. -/
inductive SearchStart where
  | register (path : Path)
  | automatic
  deriving DecidableEq, Repr

/-- An access in flight at a block's port, R119: its path, the register's byte address, the data of a write. -/
structure InFlight where
  path : Path
  addr : Nat
  data : Option Word
  deriving DecidableEq, Repr

/-- The block inputs of a hub and the contacts of its permissive loop, R32, R33. -/
inductive BlockPin where
  | trip0 | trip1 | safeA | safeB
  deriving DecidableEq, Repr

/-- What a gate that does not answer ends with, R119: the page, the access that waited at it. -/
structure GateWait where
  page : Nat
  access : Option InFlight
  deriving DecidableEq, Repr

/-- A burst received in a boarding or ranging zone, R285: whether the sync word was found and the code sound, its bytes. -/
structure ZoneBurst where
  syncFound : Bool
  codeOk : Bool
  bytes : List Byte
  deriving DecidableEq, Repr

/-- The sampling phase and the comma position that a port's receiver settled on in a burst, R212. -/
structure Sampled where
  phase : Nat
  align : Nat
  deriving DecidableEq, Repr

/-- A fault source of a cell, R470, and for TRIP0 and TRIP1 the time in ns that the input has been low. -/
structure FaultInput where
  source : Nat
  low : Nat
  deriving DecidableEq, Repr

/-- A fast comparator and the latest sinc2 codes of its channel, oldest first, R499. -/
structure CompRun where
  f : Nat
  codes : List Int
  deriving DecidableEq, Repr

/-- A fast comparator and one sinc2 code of its channel, R499. -/
structure CompBack where
  f : Nat
  code : Int
  deriving DecidableEq, Repr

/-- A block input of a hub and the time in ns that it has been low, R509. -/
structure BlockInput where
  pin : BlockPin
  low : Nat
  deriving DecidableEq, Repr

/-- Why the gate block stops, R475. -/
inductive StopCause where
  | tclk | debug | page
  deriving DecidableEq, Repr

/-- A state-memory access waiting at the arbiter (R601, R605): requester, time waited in ns, first byte address, the
bytes written or the number of bytes read, all within one aligned 64-byte line, lock and unlock flags. -/
structure ArbReq where
  r : Nat
  wait : Nat
  addr : Nat
  read : Nat
  data : List Byte
  lock : Bool
  unlock : Bool
  deriving DecidableEq, Repr

/-- A frame received at a station port (R650): port 0 for L6, 1 for L7, addresses as 48-bit numbers, EtherType, what
follows it, whether FCS and code were sound, the sequence number of a PRP trailer, and the time at the end of its start
delimiter in 2^-32 ns. -/
structure EthRx where
  port : Nat
  dst : Nat
  src : Nat
  etype : Nat
  body : List Byte
  fcsOk : Bool
  codeOk : Bool
  rct : Option Nat
  time : Nat
  deriving DecidableEq, Repr

/-- Light that the loss-of-signal detector of a tree port saw in the round that ends (R323): slot, first and last code group
from the slot's start. -/
structure LightRun where
  slot : Nat
  first : Nat
  last : Nat
  deriving DecidableEq, Repr

/-- A command: a register access with a row of its own, a pin event, the end of a timer, a frame that arrives or leaves,
a stage of the pipeline. -/
inductive Instr where
  /-- A supply monitor finds a rail below its threshold and holds the whole part in reset, clearing the reset cause record. R132 -/
  | powerOnReset
  /-- VDDIO falls below 1.2 V and every output of the part becomes undriven. R686 -/
  | vddioBelow1v2
  /-- VDDIO rises above 1.2 V and the VDDIO clamp holds GATE0 to GATE5 low. R40 -/
  | vddioAbove1v2
  /-- nRST is held low, the part enters reset and the terminals take their reset states. R130 -/
  | nrstAssert
  /-- nRST is released and the 100 kOhm pull-up phase of the ROLE reading starts. R37 -/
  | nrstRelease
  /-- After 40 us of pull-up the part reads ROLE and applies the pull-down. R37 -/
  | rolePullupRead (band : RoleBand)
  /-- After 40 us of pull-down the part reads ROLE again and decodes the strap. R37 -/
  | rolePulldownRead (band : RoleBand) (flashAnswers : Bool) (healthFailures : Nat)
  /-- Once a container has been loaded and hashed, the ROM checks it in order and records the first failure in BOOT_REJ. R142 -/
  | containerCheck
  /-- BOOT_CTL.RETRY starts a fresh boot from ROM recovery. R143 -/
  | bootRetry
  /-- A cell holds every image block of the tree container and checks it. R292 -/
  | treeContainerComplete
  /-- Once a presence window opens, an unowned part finds the first slot that verifies under its own key record and programs that owner hash. R173 -/
  | firstOwnership
  /-- 20 ms after nRST release, with PRESENCE held and the seal open, the ROM enters the owner change. R175 -/
  | ownerChangeEntry
  /-- After 10 s of unbroken press with the seal open, the ROM revokes the active owner slot and opens the presence window. R175 -/
  | ownerRevoke
  /-- A read of CPU_ECLAIM returns the highest-priority pending line and masks it. R153 -/
  | cpuEclaimClaim
  /-- Writing a line number back to CPU_ECLAIM unmasks that line. R153 -/
  | cpuEclaimComplete (data : Word)
  /-- CPU_NMI.RET restores the current level and enters the next pending NMI. R154 -/
  | nmiRet
  /-- A word written to CPU_WDT_KICK advances, completes or breaks the kick sequence. R155 -/
  | wdtKick (data : Word)
  /-- TO expires without a kick; the watchdog raises its NMI, logs an error and starts GRACE. R155 -/
  | wdtFirstStage
  /-- GRACE expires without a kick and the part resets with cause WDT. R155 -/
  | wdtSecondStage
  /-- The key written to CPU_SWRST resets the part with cause SWRST. R157 -/
  | softwareReset (data : Word)
  /-- IRC leaves its band or stops and the part resets with cause clock failure. R116 -/
  | clockFailureReset
  /-- A write of CLK_DOMn starts a source or divider change of the domain, or is latched behind a running ramp. R106 -/
  | clkDomWrite (path : Path) (dom : Nat) (data : Word)
  /-- Each CLK_STEP period the domain divider is lowered by one until the target is reached. R106 -/
  | rampStep (dom : Nat)
  /-- With no old-clock edge within CLK_SWTO, the switch is forced behind a one-period guard. R109 -/
  | forcedSwitch (dom : Nat)
  /-- At the end of a monitor window, the count of a source is compared with EXPECT and TOL. R113 -/
  | clockMonitorWindow (m : Nat) (count : Nat)
  /-- A source gives no edge for 1 us of IRC time and fails. R113 -/
  | sourceNoEdge (m : Nat)
  /-- The SPLL or a lane PLL reports loss of lock and its source fails. R113 -/
  | spllUnlock (m : Nat)
  /-- An IRC measurement against the reference completes, updates CLK_IRC_MEAS and trims IRC by one step. R110 -/
  | ircMeasurement (ppb : Int)
  /-- Each 100 us ring count refreshes SYS_SPEED. R98 -/
  | speedCount (rings : List Nat)
  /-- The OTP start-up delay ends and the XOSC monitor starts judging. R117 -/
  | xoscStartupEnd (count : Nat)
  /-- The SPLL achieves lock after being enabled or reconfigured. R102 -/
  | spllLock
  /-- Once a disabled block's bus port is quiescent, its clock stops or it parks, and GATED is set. R119 -/
  | gateHandshake (page : Nat)
  /-- An access still unserved at CLK_GATETO ends with ABORTED and the gate closes. R119 -/
  | gateTimeout (wait : GateWait)
  /-- An ungate or unpark request resumes the block within 2 us. R120 -/
  | ungate (page : Nat)
  /-- A write to a register without a row of its own is tested in order and applied field by field by kind. R77 -/
  | registerWrite (path : Path) (bytes : Nat) (addr : Nat) (data : Word)
  /-- A masked write reads, merges and writes one word as an indivisible access. R82 -/
  | maskedWrite (path : Path) (addr : Nat) (mask : Word) (data : Word)
  /-- PG_COMMIT.COMMIT requests a shadow transfer, merging with one already pending. R72 -/
  | pgCommitRequest (path : Path) (page : Nat)
  /-- PG_CTRL.SRST returns the page and its block to reset. R69 -/
  | pageSrst (path : Path) (page : Nat)
  /-- PG_CTRL.HOLD is written, asking the block to stop at its next work boundary. R70 -/
  | pageHold (path : Path) (page : Nat) (on : Bool)
  /-- The block reaches its work boundary with its state kept and sets HELD. R70 -/
  | pageHeld (page : Nat)
  /-- PG_CTRL.EN is written; a non-infrastructure block starts or is parked at its next work boundary. R68 -/
  | pageEnable (path : Path) (page : Nat) (on : Bool)
  /-- PG_EVT_SET forces event flags and interrupts without the block action. R67 -/
  | pgEvtSet (path : Path) (page : Nat) (bits : Word)
  /-- PG_GUARD.LOCK locks every GD field of the page until device reset. R66 -/
  | guardLock (path : Path) (page : Nat)
  /-- HOST_CTRL.HOST completes any flash access in progress and sends 0xB9 to the flash. R44 -/
  | hostEnable (path : Path)
  /-- 10 us after 0xB9 the QSPI terminals become inputs and the host slave starts. R44 -/
  | hostBusReleased
  /-- Host opcode 0x5A reads N consecutive words. R84 -/
  | hostRd (addr : Nat) (count : Nat) (crc : Nat) (ready : Bool)
  /-- Host opcode 0xA5 writes N consecutive words. R84 -/
  | hostWr (addr : Nat) (words : List Word) (crc : Nat) (ready : Bool)
  /-- Host opcode 0x3C performs a masked write. R84 -/
  | hostMwr (addr : Nat) (mask : Word) (data : Word) (crc : Nat) (ready : Bool)
  /-- Host opcode 0xC3 reports the status of the last RD, WR or MWR. R87 -/
  | hostStat (crc : Nat) (ready : Bool)
  /-- A write of HOST_REL.DUR raises a bus release request that is reported in a response. R46 -/
  | releaseRequest (path : Path) (ms : Nat)
  /-- QSPI_CS_N high for 1 us after the edge lets the part drive its own flash. R46 -/
  | busReclaim (csStayedHigh : Bool)
  /-- By D - 20 us the part powers the flash down and releases the terminals. R46 -/
  | busReturn
  /-- TREE_RA_CMD.GO queues a remote record to one berth through the port mailbox. R291 -/
  | treeRaGo (path : Path) (port : Nat) (data : Word)
  /-- No response within four timetable rounds answers REMOTE. R91 -/
  | remoteTimeout (port : Nat) (tid : Nat)
  /-- GPIO_FNn changes a terminal's function or is refused. R50 -/
  | gpioFnWrite (path : Path) (n : Nat) (data : Word)
  /-- An edge on an input terminal sets GPIO_EDGE and raises EDGE. R51 -/
  | gpioEdge (n : Nat) (level : Bool)
  /-- A write of GPIO_UTX queues a byte, or drops it when the queue is full. R53 -/
  | uartTxWrite (path : Path) (data : Word)
  /-- The cell UART completes a byte and takes the next from the transmit queue. R53 -/
  | uartByteSent
  /-- The cell UART receives a byte into its queue, counting framing errors and overflow. R53 -/
  | uartByteRx (byte : Byte) (framingOk : Bool)
  /-- A read of GPIO_URX pops the oldest received byte. R53 -/
  | urxRead (path : Path)
  /-- The status LED toggles at its period in modes 2 and 3. R52 -/
  | ledToggle
  /-- PRESENCE low for 20 ms is a press and opens or restarts the presence window. R162 -/
  | presencePress
  /-- PRESENCE high for 20 ms is a release. R162 -/
  | presenceRelease
  /-- The presence window reaches the end of SEC_PRES.WIN and closes. R163 -/
  | presenceWindowExpire
  /-- SEC_PRES.CLOSE closes the presence window. R163 -/
  | presenceClose (path : Path)
  /-- A press longer than 30 s closes the window and sets STUCK. R165 -/
  | pressStuck
  /-- PRESENCE released for 1 s clears STUCK. R165 -/
  | stuckClear
  /-- SEAL_OUT moves to the next pseudo-random value every 1 ms. R35 -/
  | sealSequenceChange (level : Bool)
  /-- 0.5 ms after each sequence change, SEAL_IN is compared and the seal judged open or closed. R166 -/
  | sealSample (sealIn : Bool)
  /-- 0x7E55 in SEC_OWN.REVOKE with both marks revokes a cell's owner slot and resets it. R176 -/
  | secOwnRevoke (path : Path) (data : Word)
  /-- SEC_ATT_CTL.GO starts generation of a signed attestation report. R189 -/
  | attestationGo (path : Path)
  /-- The report and signature are placed in SEC_ATT_BUF. R189 -/
  | attDone
  /-- SEC_REC_CMD.EXPORT writes a device-bound record to state memory. R180 -/
  | recordExport (path : Path)
  /-- SEC_REC_CMD.RESTORE loads a record whose tag and owner slot verify. R181 -/
  | recordRestore (path : Path)
  /-- An export or restore completes with its result in SEC_REC_STAT. R181 -/
  | recDone
  /-- OTP_CMD.PROG starts programming one OTP word, or is denied. R193 -/
  | otpProgram (path : Path)
  /-- Programming ends and the word is read back to set FAIL. R193 -/
  | otpProgramDone
  /-- DBG_CTL.UNLOCK under presence opens the debug port and logs it. R187 -/
  | debugUnlock (path : Path)
  /-- DBG_CTL.RELOCK closes the debug port. R187 -/
  | debugRelock (path : Path)
  /-- After 2^LIFE cycles the hub fixes K_sw and starts sending KEY records for a port. R185 -/
  | groupKeyRenewal (port : Nat)
  /-- After 2^SLIFE rounds the hub renews a berth's session key by a fresh exchange. R186 -/
  | sessionKeyRenewal (berth : Nat)
  /-- Three aligned K28.5 give a continuous lane sync. R197 -/
  | syncGained (lane : Nat)
  /-- The error count reaches 4; sync is lost and the search restarts. R197 -/
  | syncLost (lane : Nat) (codeErrors : Nat)
  /-- A cell uplink without sync switches its hunt rate every 2 ms. R196 -/
  | rateHuntSwitch (lane : Nat)
  /-- Eight inverted idle sets or sync words toggle RXINV. R198 -/
  | polFlip (lane : Nat)
  /-- Both twin lanes have 16 consistent training sets; the link bonds and may be reversed. R201 -/
  | bondUp (lidL4 : Nat) (lidL5 : Nat) (node : Nat) (skew : Nat)
  /-- Equal LIDs, a 10 ms sync timeout, excess skew or unequal rates prevent the bond. R201 -/
  | bondErr (why : Nat) (skew : Nat)
  /-- The loss-of-signal detector finds no light on a lane. R215 -/
  | lossOfSignal (lane : Nat)
  /-- A cell receiver locks to arriving light. R195 -/
  | cdrLock (lane : Nat)
  /-- LANE_PWR.REQ starts a power-state transition, or is latched or refused. R216 -/
  | lanePwrRequest (path : Path) (lane : Nat) (req : Nat)
  /-- A lane reaches its requested power state and applies any latched request. R216 -/
  | pstateDone (lane : Nat)
  /-- LANE_ES_CTL.GO starts an eye scan at the given offsets. R206 -/
  | eyeScanGo (path : Path) (lane : Nat)
  /-- The scan has compared its bits and sets DONE. R206 -/
  | esDone (lane : Nat) (errors : Nat)
  /-- Sync loss, rate change, power state or a disabled page aborts the scan. R207 -/
  | eyeScanAbort (lane : Nat) (errors : Nat) (bits : Nat)
  /-- INJ inverts bit 0 of the next transmitted word. R210 -/
  | prbsInject (path : Path) (lane : Nat)
  /-- CLR clears PRBS_ERR. R211 -/
  | prbsClear (path : Path) (lane : Nat)
  /-- The checker locks after 64 correct bits. R210 -/
  | prbsLock (lane : Nat)
  /-- Over 32 errors in 256 bits drops lock and reseeds the checker. R210 -/
  | prbsRelock (lane : Nat) (errors : Nat)
  /-- Before each upstream slot, the hub drives BRSTp for BRST_W code groups. R214 -/
  | brstPulse (port : Nat) (slot : Nat)
  /-- A hub tree port receives a burst and checks sync, code, CRC, format and tag. R285 -/
  | upstreamBurstRx (port : Nat) (slot : Nat) (syncFound : Bool) (codeOk : Bool) (burst : List Byte) (phase : Nat) (align : Nat)
  /-- A write of TIME_INC_FRAC applies the increment pair from the next tick. R222 -/
  | timeIncWrite (path : Path) (frac : Word)
  /-- TIME_CMD.STEP requests a signed offset at the next tick, or is refused. R223 -/
  | timeCmdStep (path : Path)
  /-- TIME_CMD.SET requests a load of the time at the next tick, or is refused. R223 -/
  | timeCmdSet (path : Path)
  /-- At the next tick the waiting step or load is applied. R223 -/
  | stepDone
  /-- A read of TIME_NOW_NS latches the seconds and fraction of the same tick. R224 -/
  | timeNowRead (path : Path)
  /-- Network time reaches t_k and cycle k begins. R226 -/
  | meridian
  /-- The hub drives PPS at each whole second of network time. R240 -/
  | ppsPulse
  /-- A PTP event message at a station port is timestamped and queued. R232 -/
  | ptpTimestamp (port : Nat) (seq : Nat) (msgType : Nat) (sent : Bool) (corr : Nat) (t3 : Nat)
  /-- A read of TIME_TSQp_ID pops the head timestamp entry. R244 -/
  | tsqPop (path : Path) (port : Nat)
  /-- Every 4,096 code groups the twins exchange time words and the standby servo steers. R234 -/
  | twinTimeExchange (offset : Int)
  /-- A cause of holdover, such as 4 T_cyc without a correcting frame, puts the time unit in holdover. R238 -/
  | holdoverEnter (cause : HoldCause)
  /-- At t_(k+1) - 100 ns each tree port tests whether frame k+1 is ready. R338 -/
  | readyTest
  /-- A cell receives a cycle frame on an uplink and checks it. R260 -/
  | cycleFrameRx (uplink : Nat) (codeOk : Bool) (frame : List Byte) (stamp : Nat) (queuedAt : Nat)
  /-- A management grant entry lets the berth send one management burst in slot m. R258 -/
  | mgrant (uplink : Nat) (berth : Nat) (slot : Nat) (round : Nat)
  /-- A report slot entry moves the berth's report from the named round. R278 -/
  | rslot (uplink : Nat) (berth : Nat) (slot : Nat) (round : Nat)
  /-- A LASER_KILL entry cuts and holds dark the berth's laser on that uplink. R279 -/
  | laserKill (uplink : Nat) (berth : Nat) (all : Bool)
  /-- An RD record reads cell registers and queues the response. R286 -/
  | mgmtRdRecord (uplink : Nat) (berth : Nat) (tid : Nat) (addr : Nat) (words : Nat)
  /-- A WR record writes cell registers and queues the response. R286 -/
  | mgmtWrRecord (uplink : Nat) (berth : Nat) (tid : Nat) (presence : Bool) (sealMark : Bool) (addr : Nat) (words : List Word)
  /-- An MWR record does a masked write on the cell. R286 -/
  | mgmtMwrRecord (uplink : Nat) (berth : Nat) (tid : Nat) (presence : Bool) (sealMark : Bool) (addr : Nat) (mask : Word) (data : Word)
  /-- A WRP record writes to every admitted berth of the port without response. R93 -/
  | mgmtWrpRecord (uplink : Nat) (presence : Bool) (sealMark : Bool) (addr : Nat) (words : List Word)
  /-- A KEY record delivers a wrapped group key and K_sw to the cell. R185 -/
  | keyRecord (uplink : Nat) (berth : Nat) (tid : Nat) (body : List Byte)
  /-- A DELAY record sets d_down and d_up of the uplink from the next slot and frame. R288 -/
  | delayRecord (uplink : Nat) (berth : Nat) (tid : Nat) (down : Nat) (up : Nat)
  /-- A TBASE record gives the cell the timebase of a TBG generation. R287 -/
  | tbaseRecord (uplink : Nat) (body : List Byte)
  /-- A BEACON tells cells the hub identity, RTT_NOM, zone and window kind. R300 -/
  | beaconRecord (uplink : Nat) (body : List Byte)
  /-- An OFFER names a berth, K_R and T_turn for ranging. R308 -/
  | offerRecord (uplink : Nat) (body : List Byte)
  /-- A KXH record carries the hub's exchange keys; the cell checks and anchors them. R312 -/
  | kxhRecord (uplink : Nat) (berth : Nat) (tid : Nat) (body : List Byte)
  /-- A REFUSE stops or backs off the cell's boarding by reason. R317 -/
  | refuseRecord (uplink : Nat) (body : List Byte)
  /-- A RESTORE mask clears KILLED for the named berths. R324 -/
  | restoreRecord (uplink : Nat) (body : List Byte)
  /-- At its own meridian the cell compares its state with the bitmap entry of the target cycle. R268 -/
  | cellMeridian
  /-- HLIM passes without an obeyed frame; the cell blocks and stops its meridians. R270 -/
  | holdLimit
  /-- 1 us before the round's first report, the cell builds the report payload. R284 -/
  | payloadBuild
  /-- The slot timer launches a report burst at slot instant - d_up. R275 -/
  | reportBurstTx (uplink : Nat)
  /-- The cell sends one management response burst in a granted slot. R277 -/
  | mgmtBurstTx (uplink : Nat)
  /-- The hub takes a management response and matches it to an awaited TID. R290 -/
  | mgmtBurstRx (port : Nat) (berth : Nat) (payload : List Byte)
  /-- At its launch instant a BYP event moves the cell to bypass. R255 -/
  | eventByp
  /-- At its launch instant INS_POS inserts the cell positive. R255 -/
  | eventInsPos
  /-- At its launch instant INS_NEG inserts a FULL cell negative. R255 -/
  | eventInsNeg
  /-- At its launch instant BLOCK_CELL blocks the cell. R255 -/
  | eventBlockCell
  /-- A TRIM pair moves the berth to its on-state at the launch instant. R256 -/
  | eventTrim
  /-- After W the trim pulse returns the berth to its prior state. R256 -/
  | trimEnd
  /-- FIRE_THY starts the GATE4 pulse train. R476 -/
  | eventFireThy
  /-- PERM_BYPASS starts the permanent bypass sequence. R477 -/
  | eventPermBypass
  /-- A checked SWAP_HEAD pair switches two cells at one instant. R257 -/
  | eventSwapHead
  /-- At e + TDEAD the rising outputs of an edge turn on. R463 -/
  | deadTimeTurnOn
  /-- A guarded 1 in BERTH_BOARD.OPEN opens or restarts a port's enrolment window. R296 -/
  | enrolmentWindowOpen (path : Path) (port : Nat)
  /-- A 0 in BERTH_BOARD.OPEN closes the window. R296 -/
  | enrolmentWindowClose (path : Path) (port : Nat)
  /-- The enrolment window reaches BERTH_BWIN.SEC and closes. R296 -/
  | enrolmentWindowExpire (port : Nat)
  /-- In an even round's zone an unadmitted cell sends one boarding burst. R302 -/
  | boardingBurstTx (uplink : Nat)
  /-- Two rounds without an OFFER fail the attempt and start a random backoff. R304 -/
  | boardingBackoff (uplink : Nat)
  /-- The hub decides on a valid boarding burst: OFFER, REFUSE or stranger. R306 -/
  | boardingBurstRx (port : Nat) (burst : ZoneBurst) (arrival : Nat)
  /-- A zone with light but no valid burst is counted at the zone end. R305 -/
  | collision (port : Nat)
  /-- T_turn after frame K_R arrives, the cell sends its ranging burst. R309 -/
  | rangingBurstTx (uplink : Nat)
  /-- The hub measures RTT, computes delays, stores the phase word and sends DELAY. R310 -/
  | rangingBurstRx (port : Nat) (syncFound : Bool) (codeOk : Bool) (burst : List Byte) (arrival : Nat) (sampled : Sampled)
  /-- No ranging burst in zone n_R; the hub offers again or abandons after RTRY. R311 -/
  | rangingTimeout (port : Nat) (berth : Nat)
  /-- Two rounds of tag failures make the cell discard the uplink's keys and board again. R318 -/
  | rejoinTrigger (uplink : Nat)
  /-- A new timetable round begins at n * T_round. R273 -/
  | roundBoundary (light : List (List LightRun))
  /-- BERTH_SRCHp.GO, or LTHR rounds of light with AUTO, starts a babbler search. R325 -/
  | babblerSearchGo (start : SearchStart) (port : Nat)
  /-- Each search step kills all lasers, restores a half, and observes light for a round. R325 -/
  | searchStep (port : Nat) (light : Bool)
  /-- BERTH_CMD.RD copies entry INDEX into the window. R328 -/
  | berthCmdRd (path : Path)
  /-- BERTH_CMD.WR writes the window to entry INDEX with guard and capacity checks. R330 -/
  | berthCmdWr (path : Path)
  /-- BERTH_CMD.CLRCNT clears the entry's counters. R328 -/
  | berthCmdClrcnt (path : Path)
  /-- After stage A the observer advances, applies reports and updates availability. R370 -/
  | stageB (ns : Nat)
  /-- After stage A the control engine runs its program once. R407 -/
  | stageC (ns lat : Nat)
  /-- After stage B the rank engine orders each arm's berths and proposes swaps. R383 -/
  | stageD (ns : Nat)
  /-- After C and D the modulation step computes levels, trims and edges for both arms. R343 -/
  | stageE (ns : Nat)
  /-- After stage E the hub builds and tags frame k+1 for each port. R251 -/
  | stageF (ns : Nat)
  /-- MOD_PCMD.GO places one BLOCK_CELL, FIRE_THY or PERM_BYPASS word and excludes the berth. R359 -/
  | protectiveCommand (path : Path) (data : Word)
  /-- MOD_MSW_HI.GO schedules a mode change at cycle j, or is refused. R361 -/
  | modeChangeGo (path : Path) (data : Word)
  /-- At t_E the cell applies its pending MOD commit and restarts its carriers. R360 -/
  | carrierEpoch
  /-- At each carrier trough and peak an INTERLEAVE cell samples its duty and places an edge. R356 -/
  | carrierSample (peak : Bool)
  /-- The cell engine writes SIG[0] to SIG[7] and runs its program. R408 -/
  | cellEngineRun (peak : Bool) (lat : Nat)
  /-- RANK_CMD.RD copies an observer entry into the window. R389 -/
  | rankCmdRd (path : Path)
  /-- RANK_CMD.WR latches EXCL and ISEL for the next stage B. R389 -/
  | rankCmdWr (path : Path)
  /-- RANK_CMD.SETC latches a capacitance for the next stage B. R389 -/
  | rankCmdSetc (path : Path)
  /-- RANK_CMD.SETV latches a voltage estimate for the next stage B. R389 -/
  | rankCmdSetv (path : Path)
  /-- CTL_PGM_CMD.LOAD starts the check of a program slot. R403 -/
  | programLoad (path : Path) (sl : Nat)
  /-- The slot check ends with VALID set or WHY recorded. R403 -/
  | loadDone (sl : Nat)
  /-- CTL_HO_CTL.GO requests a handover to the other slot. R414 -/
  | handoverGo (path : Path) (data : Word)
  /-- CTL_HO_CTL.ABORT ends a pending or blending handover. R418 -/
  | handoverAbort (path : Path) (data : Word)
  /-- A write of CTL_SIGDATA queues a signal-table write. R398 -/
  | sigdataWrite (path : Path) (data : Word)
  /-- A write of CHAIN_DHI queues a coefficient, limit, flags or state write. R413 -/
  | chainQueueWrite (path : Path) (data : Word)
  /-- CHAIN_CMD.RD copies the selected field to CHAIN_RLO and CHAIN_RHI. R422 -/
  | chainCmdRd (path : Path)
  /-- RCU_CMD.CLR starts a background clear of a unit's table. R436 -/
  | rcuClear (path : Path) (u : Nat)
  /-- The background clear of a table finishes. R436 -/
  | rcuClearDone (u : Nat)
  /-- SUP_IiCTL.GO arms an injector to start. R447 -/
  | injectorGo (path : Path) (inj : Nat)
  /-- SUP_IiCTL.STOP stops an injector at the next execution. R447 -/
  | injectorStop (path : Path) (inj : Nat)
  /-- SUP_FRCTL.GO starts a stepped-sine frequency-response run. R451 -/
  | freqResponseGo (path : Path)
  /-- An enabled fault source latches, forces safe levels and flushes queued requests. R471 -/
  | faultAssert (input : FaultInput)
  /-- After the fault logic's delay, GATE_SAFE outputs turn on. R471 -/
  | safeLevelTurnOn
  /-- GATE_FCLR.CLR clears the fault latches, or is refused while a source asserts. R474 -/
  | gateFclr (path : Path)
  /-- TCLK loss, a debug halt or EN = 0 puts the gate block in STOP. R475 -/
  | gateStopEnter (cause : StopCause)
  /-- STOP ends once TCLK, debug and EN are all restored. R475 -/
  | gateStopExit (cause : StopCause)
  /-- The GATE4 pulse train ends after N pulses. R476 -/
  | thyDone
  /-- After W x 10 ms GATE5 is driven low and the sequence ends. R477 -/
  | gate5Release
  /-- Once per microsecond the replica line is counted and TAPS updated. R467 -/
  | delayLineCal (taps : Nat)
  /-- TEVn_CTL.ARM arms a hub timed output, or is refused as late. R480 -/
  | tevArm (path : Path) (n : Nat) (data : Word)
  /-- TEVn_CTL.DISARM clears ARM with the level kept. R481 -/
  | tevDisarm (path : Path) (n : Nat)
  /-- A TEV output reaches its instant and acts. R480 -/
  | tevFired (n : Nat)
  /-- A kept sinc3 result with its instant enters the window accumulators. R490 -/
  | adcResult (m : Nat) (ch : Nat) (x : Int) (sampled : Nat)
  /-- CNT codes beyond a threshold assert a fast comparator. R499 -/
  | comparatorAssert (run : CompRun)
  /-- A code within the hysteresis band deasserts the comparator. R499 -/
  | comparatorDeassert (back : CompBack)
  /-- A hub TRIP or SAFE source asserts after its filter and latches. R509 -/
  | alatch (input : BlockInput)
  /-- SAFE_A and SAFE_B differ for 50 ms; DISC latches and the start-up test restarts. R509 -/
  | disc
  /-- SAFE_HCMD 0x0DB1 is tested and starts the deblock sequencer. R515 -/
  | hubDeblock (path : Path)
  /-- SAFE_HCMD 0x0AC1 clears ALATCH when no source asserts. R509 -/
  | hubAclr (path : Path)
  /-- SAFE_HCMD 0x0B51 sets BREQ. R511 -/
  | hubBset (path : Path)
  /-- SAFE_HCMD 0x0BC1 clears BREQ and its sources. R511 -/
  | hubBclr (path : Path)
  /-- As room appears, the sequencer queues the next deblock record. R516 -/
  | deblockSequenceQueue
  /-- SAFE_A and SAFE_B low together for 10 us set STARTUP to 1. R514 -/
  | startupTestOpen
  /-- Both high for 100 ms set STARTUP to 2. R514 -/
  | startupPass
  /-- SAFE_HDBB.GO queues a deblock record for one berth. R517 -/
  | singleBerthDeblock (path : Path) (berth : Nat)
  /-- SAFE_CCMD 0x0DB1 is tested and sets DB, or is refused. R518 -/
  | cellDeblock (path : Path)
  /-- SAFE_CCMD 0x0BB1 clears DB and blocks the cell. R519 -/
  | cellBlock (path : Path)
  /-- SAFE_CCMD 0x9B55 starts the permanent bypass sequence. R522 -/
  | cellPermBypass (path : Path)
  /-- Four consecutive BLOCK ordered sets force block levels and clear DB. R520 -/
  | blkos (lane : Nat) (reaction : Nat)
  /-- 4 T_cyc without a further detection clears BLKSEEN. R520 -/
  | blkseenClear
  /-- A KX frame on the twin link carries the key exchange. R536 -/
  | twinKxFrame (frame : List Byte)
  /-- A HELLO frame decides warm or cold standby. R147 -/
  | twinHelloFrame (frame : List Byte)
  /-- A STATUS frame updates watch, health and witness, and a warm standby adopts the active's plan. R535 -/
  | twinStatusRx (frame : List Byte)
  /-- The standby stages SLICE data. R543 -/
  | twinSliceRx (frame : List Byte)
  /-- A COMMIT with matching CRC marks a generation to apply, or flags the slice. R543 -/
  | twinCommitRx (frame : List Byte)
  /-- Each HB_T the hub sends an HB frame to its referee. R551 -/
  | heartbeatTx
  /-- Each HB_T the referee sends RST, TAKE or YIELD to each hub. R551 -/
  | refereeFrameTx (pair : Nat)
  /-- The referee receives a valid HB and resets the link's miss count. R553 -/
  | refHbRx (link : Nat) (frame : List Byte)
  /-- An HB_T interval with no valid HB counts a miss. R553 -/
  | linkMiss (link : Nat)
  /-- After (NMISS + 1) HB_T the referee adopts the active or starts one. R557 -/
  | refereeListenEnd (pair : Nat)
  /-- A KX frame on a referee link carries a key exchange chunk. R550 -/
  | refereeKx (link : Nat) (frame : List Byte)
  /-- A hub accepts a newer TAKE and sets OWN, or ignores it as stale. R558 -/
  | takeRx (frame : List Byte)
  /-- A hub accepts a newer YIELD and becomes standby. R558 -/
  | yieldRx (frame : List Byte)
  /-- A hub receives a referee status frame. R550 -/
  | rstRx (frame : List Byte)
  /-- No referee frame for NMISS HB_T; the hub may enter self-arbitration. R564 -/
  | refLost
  /-- In self-arbitration the standby takes control on twin failure or missing twin. R565 -/
  | selfTakeover
  /-- A preferred standby takes control after HEAL seconds of good conditions. R566 -/
  | preferredReclaim
  /-- SCHG_SUBCMD.GO submits a firmware item, or refuses it. R575 -/
  | schedSubmit (path : Path) (data : Word)
  /-- A hardware source places an item on queues 0 to 7. R576 -/
  | hwArrival (queue flow arg : Nat)
  /-- With inputs waiting the scheduler handles completions, cancels, submissions, releases and dispatch. R577 -/
  | schedulerStep
  /-- A read of SCHG_TAKE pops the oldest mailbox item. R580 -/
  | schgTake (path : Path)
  /-- A handle written to SCHG_DONE completes a supervisor item. R580 -/
  | schgDone (path : Path) (handle : Nat)
  /-- At each tick every due item is released into its queue. R582 -/
  | delayRelease
  /-- A handle written to SCHG_CANCEL cancels an item and reports the result. R585 -/
  | schgCancel (path : Path) (handle : Nat)
  /-- SCHQ_qCMD.FLUSH cancels every waiting item of a queue. R586 -/
  | schqFlush (path : Path) (q : Nat)
  /-- A supervisor item in service beyond STUCK ms is reported. R581 -/
  | itemStuck (slot : Nat)
  /-- The scrubber reads, corrects and writes back one word. R599 -/
  | scrubVisit (upset : List Nat)
  /-- The arbiter grants one state-memory access by credit, age or lock. R602 -/
  | arbiterGrant (waiting : List ArbReq)
  /-- MEM_SLOCK.OPEN opens a supervisor lock at its next data access. R606 -/
  | memLockOpen (path : Path)
  /-- MEM_SLOCK.CLOSE closes the supervisor lock. R606 -/
  | memLockClose (path : Path)
  /-- Reset, LOCKMAX or LOCKTO breaks a lock and records it. R607 -/
  | lockBreak (cause : Nat)
  /-- ERR_CMD.POP removes the oldest log entry. R612 -/
  | errPop (path : Path)
  /-- ERR_CMD.ACK ends handling of the top class and signals pending ones. R614 -/
  | errAck (path : Path) (cls : Nat)
  /-- A write of ERR_SWLOG appends a firmware log entry. R616 -/
  | errSwlog (path : Path) (data : Word)
  /-- The recorder DMA stores the chunk and frees the buffer. R634 -/
  | chunkStored
  /-- The hold-off period ends and the recorder fills again. R627 -/
  | holdOffEnd
  /-- REC_CMD.FORCE triggers a capture. R627 -/
  | recForce (path : Path)
  /-- REC_CMD.REL frees a held segment. R629 -/
  | recRel (path : Path) (seg : Nat)
  /-- REC_CMD.RELALL frees every held segment. R629 -/
  | recRelall (path : Path)
  /-- REC_BBCMD.REARM resumes a frozen black box. R639 -/
  | bbRearm (path : Path)
  /-- MON_SNAP.GO copies a unit into the snapshot window, optionally clearing it. R643 -/
  | monSnap (path : Path) (page : Nat) (data : Word)
  /-- LT_CMD.GO adds the addend to a lifetime counter while unlocked. R645 -/
  | ltAdd (path : Path) (data : Word)
  /-- LT_CTL.LOCK ends all lifetime counter loading. R645 -/
  | ltLock (path : Path)
  /-- Each IRC second adds to the temperature bin counter. R644 -/
  | lifetimeSecond
  /-- Each IRC hour adds LT_CAPIN to CAPS and counts CAPN. R644 -/
  | lifetimeHour
  /-- A station port link comes up and the authenticated exchange starts. R654 -/
  | stationLinkUp (port : Nat)
  /-- A KX frame from the station controller advances the key exchange. R654 -/
  | stationKxRx (frame : EthRx)
  /-- STN_CMD.REKEY starts a new station key exchange. R654 -/
  | stnRekey (path : Path)
  /-- STN_CMD.CLRCNT clears the station counters. R666 -/
  | stnClrcnt (path : Path)
  /-- A SETPOINT frame is checked and becomes pending. R657 -/
  | setpointRx (frame : EthRx)
  /-- No set-point frame active for TMO ms clears SPF. R657 -/
  | spStale
  /-- A MGMT request frame's records are executed locally or queued to cells. R659 -/
  | mgmtRequestRx (frame : EthRx)
  /-- Once every record is answered the hub sends one MGMT response frame. R659 -/
  | mgmtResponseTx (req : Nat)
  /-- A sampled-value frame is matched and its samples kept. R661 -/
  | svFrameRx (frame : EthRx)
  /-- An enabled stream delivers no sample for 10 ms. R661 -/
  | svLost (c : Nat)
  /-- A descriptor index written to STN_TXPOST queues a frame. R662 -/
  | txPost (path : Path) (data : Word)
  /-- A TIMED entry's frame leaves at its instant. R662 -/
  | timedTx
  /-- An unconsumed frame goes to the receive ring. R663 -/
  | rxToRing (frame : EthRx)
  /-- A recorder chunk is sent as four STREAM frames. R664 -/
  | streamTx
  /-- Every LCI ms a PRP supervision frame is sent. R651 -/
  | prpSupervisionTx
  /-- Every rail returns above its supply-monitor threshold and the part is no longer held in reset. R132 -/
  | supplyMonitorRelease
  /-- A cell fault source such as TRIP0 or TRIP1 returns high and stops asserting, clearing its GATE_FLT.LIVE bit. R474 -/
  | faultSourceRelease (source : Nat)
  /-- A hub TRIP or SAFE input returns to its healthy level and its channel A source stops asserting. R509 -/
  | hubSourceRelease (pin : BlockPin)
  /-- A 1000BASE-X station port loses its link, raising LINK_CHG and stopping keyed traffic and streaming on it. R665 -/
  | stationLinkDown (port : Nat)
  /-- The debug port halts the hub supervisor, which sets BREQ when DBGBLK = 1 and pauses the watchdog when DBGSTOP = 1. R511 -/
  | supervisorDebugHalt
  /-- TIME_PPS.W ms after a whole second, the hub drives PPS low again. R240 -/
  | ppsPulseEnd
  /-- TIME_MARK.W TCLK ticks after a marked meridian, the cycle mark pulse on GPIO5 ends. R240 -/
  | cycleMarkEnd
  /-- W x 10 ns after a TEV pulse starts, the TEV output returns low. R480 -/
  | tevPulseEnd (n : Nat)
  /-- Each PW and PER expiry within a FIRE_THY pulse train moves GATE4 high or low for the next of its N pulses. R476 -/
  | thyristorPulse
  deriving DecidableEq, Repr

end Sys2Proof
end

