-- ==== Sys2Proof/Decode.lean ====
section
/-! DEFINITION. The spec's table of operations gives its rows no bits: no command of this block is spelled by a word. -/

namespace Sys2Proof

/-- The command that a word spells: none, since no row of the table has an encoding. -/
def decodeTableWord (_nbits _w : Nat) : Option Instr := none

end Sys2Proof
end

