-- ==== Sys2Proof/Machine/RegNames.lean ====
section
/-! DEFINITION. The names of the registers and of their fields: each register's byte address in the 64 KiB register
space of R62 (page * 0x400 + offset; an array's index and a page's instance are arguments), each field's place in its
register. Written out from the register and field tables of the chapters; each page's heading cites the rules. -/

namespace Sys2Proof.Machine

/-- A field of a register: the register's address, the field's lowest bit, its width in bits. -/
structure Fld where
  addr : Nat
  lo : Nat
  w : Nat
  deriving DecidableEq, Repr


/-! Page 0x00 SYS: R25, R26, R27, R99, R128, R159 (01_system_roles.md). -/

def R.SYS_CHIP_ID : Nat := 0x0040
def F.SYS_CHIP_ID_PART : Fld := ⟨R.SYS_CHIP_ID, 0, 16⟩
def F.SYS_CHIP_ID_STEP : Fld := ⟨R.SYS_CHIP_ID, 16, 4⟩
def R.SYS_GRADE : Nat := 0x0044
def F.SYS_GRADE_EN_CELL : Fld := ⟨R.SYS_GRADE, 0, 1⟩
def F.SYS_GRADE_EN_HUB : Fld := ⟨R.SYS_GRADE, 1, 1⟩
def F.SYS_GRADE_EN_REF : Fld := ⟨R.SYS_GRADE, 2, 1⟩
def R.SYS_ROLE : Nat := 0x0048
def F.SYS_ROLE_STRAP : Fld := ⟨R.SYS_ROLE, 0, 2⟩
def F.SYS_ROLE_ROLE : Fld := ⟨R.SYS_ROLE, 4, 2⟩
def F.SYS_ROLE_FAULT : Fld := ⟨R.SYS_ROLE, 8, 1⟩
def R.SYS_NODE : Nat := 0x004C
def F.SYS_NODE_HUB : Fld := ⟨R.SYS_NODE, 0, 6⟩
def F.SYS_NODE_SIDE : Fld := ⟨R.SYS_NODE, 8, 1⟩
def F.SYS_NODE_REFNO : Fld := ⟨R.SYS_NODE, 9, 5⟩
def F.SYS_NODE_BIDX : Fld := ⟨R.SYS_NODE, 16, 10⟩
def F.SYS_NODE_NOADM : Fld := ⟨R.SYS_NODE, 31, 1⟩
def R.SYS_TOPO : Nat := 0x0050
def F.SYS_TOPO_ARMS : Fld := ⟨R.SYS_TOPO, 0, 2⟩
def F.SYS_TOPO_TWIN : Fld := ⟨R.SYS_TOPO, 4, 1⟩
def F.SYS_TOPO_TWIN_ERR : Fld := ⟨R.SYS_TOPO, 5, 1⟩
def F.SYS_TOPO_CAP_REFUSED : Fld := ⟨R.SYS_TOPO, 16, 16⟩
def R.SYS_RST_CAUSE : Nat := 0x0054
def F.SYS_RST_CAUSE_POR : Fld := ⟨R.SYS_RST_CAUSE, 0, 1⟩
def F.SYS_RST_CAUSE_NRST : Fld := ⟨R.SYS_RST_CAUSE, 1, 1⟩
def F.SYS_RST_CAUSE_WDT : Fld := ⟨R.SYS_RST_CAUSE, 2, 1⟩
def F.SYS_RST_CAUSE_ROLEF : Fld := ⟨R.SYS_RST_CAUSE, 3, 1⟩
def F.SYS_RST_CAUSE_CLKF : Fld := ⟨R.SYS_RST_CAUSE, 4, 1⟩
def F.SYS_RST_CAUSE_SWRST : Fld := ⟨R.SYS_RST_CAUSE, 5, 1⟩
def F.SYS_RST_CAUSE_LAST : Fld := ⟨R.SYS_RST_CAUSE, 8, 3⟩
def F.SYS_RST_CAUSE_COUNT : Fld := ⟨R.SYS_RST_CAUSE, 16, 16⟩
def R.SYS_SPEED : Nat := 0x0058
def F.SYS_SPEED_IDX : Fld := ⟨R.SYS_SPEED, 0, 12⟩
def F.SYS_SPEED_SLOW : Fld := ⟨R.SYS_SPEED, 12, 12⟩
def F.SYS_SPEED_RING : Fld := ⟨R.SYS_SPEED, 24, 3⟩
def R.SYS_ALARM : Nat := 0x005C
def F.SYS_ALARM_PIN : Fld := ⟨R.SYS_ALARM, 0, 1⟩
def F.SYS_ALARM_BOOT : Fld := ⟨R.SYS_ALARM, 8, 1⟩
def F.SYS_ALARM_ROLEF : Fld := ⟨R.SYS_ALARM, 9, 1⟩
def F.SYS_ALARM_RECOVERY : Fld := ⟨R.SYS_ALARM, 10, 1⟩
def F.SYS_ALARM_FWREQ : Fld := ⟨R.SYS_ALARM, 11, 1⟩
def R.SYS_UID0 : Nat := 0x0060
def R.SYS_UID1 : Nat := 0x0064

/-! Page 0x01 CLK: R121, R122 (04_core_clocks.md). -/

def R.CLK_SRC : Nat := 0x0440
def F.CLK_SRC_XOSC_EN : Fld := ⟨R.CLK_SRC, 0, 1⟩
def F.CLK_SRC_REFC_EN : Fld := ⟨R.CLK_SRC, 1, 1⟩
def F.CLK_SRC_SPLL_EN : Fld := ⟨R.CLK_SRC, 2, 1⟩
def F.CLK_SRC_RCSEL : Fld := ⟨R.CLK_SRC, 4, 1⟩
def F.CLK_SRC_AUTORET : Fld := ⟨R.CLK_SRC, 8, 1⟩
def R.CLK_SPLL : Nat := 0x0444
def F.CLK_SPLL_REFSEL : Fld := ⟨R.CLK_SPLL, 0, 2⟩
def F.CLK_SPLL_PREDIV : Fld := ⟨R.CLK_SPLL, 2, 6⟩
def F.CLK_SPLL_MULT : Fld := ⟨R.CLK_SPLL, 8, 8⟩
def R.CLK_SPLL_FRAC : Nat := 0x0448
def F.CLK_SPLL_FRAC_FRAC : Fld := ⟨R.CLK_SPLL_FRAC, 0, 20⟩
def R.CLK_SPLL_STAT : Nat := 0x044C
def F.CLK_SPLL_STAT_LOCK : Fld := ⟨R.CLK_SPLL_STAT, 0, 1⟩
def F.CLK_SPLL_STAT_UNLOCKS : Fld := ⟨R.CLK_SPLL_STAT, 16, 16⟩
def R.CLK_DOM (i : Nat) : Nat := 0x0450 + 0x4 * i
def F.CLK_DOM_SRC (i : Nat) : Fld := ⟨R.CLK_DOM i, 0, 2⟩
def F.CLK_DOM_DIV (i : Nat) : Fld := ⟨R.CLK_DOM i, 8, 8⟩
def F.CLK_DOM_CUR (i : Nat) : Fld := ⟨R.CLK_DOM i, 16, 8⟩
def F.CLK_DOM_RAMP (i : Nat) : Fld := ⟨R.CLK_DOM i, 24, 1⟩
def F.CLK_DOM_LATCHED (i : Nat) : Fld := ⟨R.CLK_DOM i, 25, 1⟩
def F.CLK_DOM_CURSRC (i : Nat) : Fld := ⟨R.CLK_DOM i, 26, 2⟩
def R.CLK_STEP : Nat := 0x0460
def F.CLK_STEP_STEP : Fld := ⟨R.CLK_STEP, 0, 6⟩
def R.CLK_SWTO : Nat := 0x0464
def F.CLK_SWTO_TO : Fld := ⟨R.CLK_SWTO, 0, 10⟩
def R.CLK_GATETO : Nat := 0x0468
def F.CLK_GATETO_TO : Fld := ⟨R.CLK_GATETO, 0, 8⟩
def R.CLK_IRC : Nat := 0x046C
def F.CLK_IRC_TRIM : Fld := ⟨R.CLK_IRC, 0, 8⟩
def F.CLK_IRC_AUTO : Fld := ⟨R.CLK_IRC, 8, 1⟩
def R.CLK_IRC_MEAS : Nat := 0x0470
def R.CLK_XDLY : Nat := 0x0474
def F.CLK_XDLY_DLY : Fld := ⟨R.CLK_XDLY, 0, 8⟩
def F.CLK_XDLY_DEFAULT : Fld := ⟨R.CLK_XDLY, 8, 1⟩
def R.CLK_SPDLIM : Nat := 0x0478
def F.CLK_SPDLIM_LIMIT : Fld := ⟨R.CLK_SPDLIM, 0, 12⟩
def F.CLK_SPDLIM_HYST : Fld := ⟨R.CLK_SPDLIM, 16, 8⟩
def R.CLK_FAIL : Nat := 0x047C
def F.CLK_FAIL_SRCF : Fld := ⟨R.CLK_FAIL, 0, 5⟩
def F.CLK_FAIL_IRCD : Fld := ⟨R.CLK_FAIL, 5, 1⟩
def F.CLK_FAIL_FORCED : Fld := ⟨R.CLK_FAIL, 8, 4⟩
def R.CLK_MON_CTL (i : Nat) : Nat := 0x0480 + 0x8 * i
def F.CLK_MON_CTL_WIN (i : Nat) : Fld := ⟨R.CLK_MON_CTL i, 0, 12⟩
def F.CLK_MON_CTL_EXPECT (i : Nat) : Fld := ⟨R.CLK_MON_CTL i, 12, 12⟩
def F.CLK_MON_CTL_TOL (i : Nat) : Fld := ⟨R.CLK_MON_CTL i, 24, 8⟩
def R.CLK_MON_STAT (i : Nat) : Nat := 0x0484 + 0x8 * i
def F.CLK_MON_STAT_COUNT (i : Nat) : Fld := ⟨R.CLK_MON_STAT i, 0, 12⟩
def F.CLK_MON_STAT_FAIL (i : Nat) : Fld := ⟨R.CLK_MON_STAT i, 16, 1⟩
def F.CLK_MON_STAT_GOOD (i : Nat) : Fld := ⟨R.CLK_MON_STAT i, 20, 4⟩

/-! Page 0x02 PWR: R134, R135 (05_reset_boot.md). -/

def R.PWR_LANES : Nat := 0x0840
def F.PWR_LANES_ROLEM : Fld := ⟨R.PWR_LANES, 16, 8⟩
def F.PWR_LANES_CUR0 : Fld := ⟨R.PWR_LANES, 0, 2⟩
def F.PWR_LANES_CUR1 : Fld := ⟨R.PWR_LANES, 2, 2⟩
def F.PWR_LANES_CUR2 : Fld := ⟨R.PWR_LANES, 4, 2⟩
def F.PWR_LANES_CUR3 : Fld := ⟨R.PWR_LANES, 6, 2⟩
def F.PWR_LANES_CUR4 : Fld := ⟨R.PWR_LANES, 8, 2⟩
def F.PWR_LANES_CUR5 : Fld := ⟨R.PWR_LANES, 10, 2⟩
def F.PWR_LANES_CUR6 : Fld := ⟨R.PWR_LANES, 12, 2⟩
def F.PWR_LANES_CUR7 : Fld := ⟨R.PWR_LANES, 14, 2⟩
def R.PWR_WCTL : Nat := 0x0844
def F.PWR_WCTL_EN : Fld := ⟨R.PWR_WCTL, 0, 3⟩
def R.PWR_WLIM (i : Nat) : Nat := 0x0848 + 0x4 * i
def F.PWR_WLIM_LO (i : Nat) : Fld := ⟨R.PWR_WLIM i, 0, 16⟩
def F.PWR_WLIM_HI (i : Nat) : Fld := ⟨R.PWR_WLIM i, 16, 16⟩
def R.PWR_WSTAT : Nat := 0x0854
def F.PWR_WSTAT_LIVE : Fld := ⟨R.PWR_WSTAT, 0, 3⟩
def F.PWR_WSTAT_CNT0 : Fld := ⟨R.PWR_WSTAT, 8, 8⟩
def F.PWR_WSTAT_CNT1 : Fld := ⟨R.PWR_WSTAT, 16, 8⟩
def F.PWR_WSTAT_CNT2 : Fld := ⟨R.PWR_WSTAT, 24, 8⟩

/-! Page 0x03 SEC: R191, R192 (06_presence_security.md). -/

def R.SEC_PRES : Nat := 0x0C40
def F.SEC_PRES_WIN : Fld := ⟨R.SEC_PRES, 0, 10⟩
def F.SEC_PRES_CLOSE : Fld := ⟨R.SEC_PRES, 12, 1⟩
def F.SEC_PRES_OPEN : Fld := ⟨R.SEC_PRES, 16, 1⟩
def F.SEC_PRES_STUCK : Fld := ⟨R.SEC_PRES, 17, 1⟩
def F.SEC_PRES_LEFT : Fld := ⟨R.SEC_PRES, 22, 10⟩
def R.SEC_SEAL : Nat := 0x0C44
def F.SEC_SEAL_OPEN : Fld := ⟨R.SEC_SEAL, 0, 1⟩
def F.SEC_SEAL_COUNT : Fld := ⟨R.SEC_SEAL, 8, 7⟩
def R.SEC_SEAL_S : Nat := 0x0C48
def R.SEC_SEAL_NS : Nat := 0x0C4C
def R.SEC_ID : Nat := 0x0C50
def F.SEC_ID_STATE : Fld := ⟨R.SEC_ID, 0, 2⟩
def F.SEC_ID_REC : Fld := ⟨R.SEC_ID, 4, 1⟩
def R.SEC_IDKEY_LO : Nat := 0x0C54
def R.SEC_IDKEY_HI : Nat := 0x0C58
def R.SEC_IDPUB (i : Nat) : Nat := 0x0C60 + 0x4 * i
def R.SEC_OWN : Nat := 0x0CA0
def F.SEC_OWN_SLOT : Fld := ⟨R.SEC_OWN, 0, 3⟩
def F.SEC_OWN_STATE : Fld := ⟨R.SEC_OWN, 4, 2⟩
def F.SEC_OWN_REVOKED : Fld := ⟨R.SEC_OWN, 8, 8⟩
def F.SEC_OWN_REVOKE : Fld := ⟨R.SEC_OWN, 16, 16⟩
def R.SEC_KEYCTL : Nat := 0x0CA4
def F.SEC_KEYCTL_LIFE : Fld := ⟨R.SEC_KEYCTL, 0, 6⟩
def F.SEC_KEYCTL_SLIFE : Fld := ⟨R.SEC_KEYCTL, 8, 6⟩
def R.SEC_KEYSTAT : Nat := 0x0CA8
def F.SEC_KEYSTAT_REKEYS : Fld := ⟨R.SEC_KEYSTAT, 0, 16⟩
def F.SEC_KEYSTAT_PEERREF : Fld := ⟨R.SEC_KEYSTAT, 16, 16⟩
def R.SEC_ATT_CTL : Nat := 0x0CB0
def F.SEC_ATT_CTL_GO : Fld := ⟨R.SEC_ATT_CTL, 0, 1⟩
def F.SEC_ATT_CTL_BUSY : Fld := ⟨R.SEC_ATT_CTL, 1, 1⟩
def R.SEC_ATT_CHAL (i : Nat) : Nat := 0x0CB4 + 0x4 * i
def R.SEC_REC_ADDR : Nat := 0x0CC4
def R.SEC_REC_CMD : Nat := 0x0CC8
def F.SEC_REC_CMD_EXPORT : Fld := ⟨R.SEC_REC_CMD, 0, 1⟩
def F.SEC_REC_CMD_RESTORE : Fld := ⟨R.SEC_REC_CMD, 1, 1⟩
def R.SEC_REC_STAT : Nat := 0x0CCC
def F.SEC_REC_STAT_BUSY : Fld := ⟨R.SEC_REC_STAT, 0, 1⟩
def F.SEC_REC_STAT_RESULT : Fld := ⟨R.SEC_REC_STAT, 8, 4⟩
def R.SEC_ATT_BUF (i : Nat) : Nat := 0x0D00 + 0x4 * i
def R.SEC_PEER_LO (i : Nat) : Nat := 0x0E00 + 0x10 * i
def R.SEC_PEER_HI (i : Nat) : Nat := 0x0E04 + 0x10 * i
def R.SEC_PEER_CTL (i : Nat) : Nat := 0x0E08 + 0x10 * i
def F.SEC_PEER_CTL_TYPE (i : Nat) : Fld := ⟨R.SEC_PEER_CTL i, 0, 2⟩

/-! Page 0x04 OTP: R193 (06_presence_security.md). -/

def R.OTP_ADDR : Nat := 0x1040
def R.OTP_DATA : Nat := 0x1044
def R.OTP_CMD : Nat := 0x1048
def F.OTP_CMD_PROG : Fld := ⟨R.OTP_CMD, 0, 1⟩
def R.OTP_STAT : Nat := 0x104C
def F.OTP_STAT_BUSY : Fld := ⟨R.OTP_STAT, 0, 1⟩
def F.OTP_STAT_FAIL : Fld := ⟨R.OTP_STAT, 1, 1⟩
def F.OTP_STAT_DENIED : Fld := ⟨R.OTP_STAT, 2, 1⟩

/-! Page 0x05 BOOT: R160, R161 (05_reset_boot.md). -/

def R.BOOT_STAT : Nat := 0x1440
def F.BOOT_STAT_SRC : Fld := ⟨R.BOOT_STAT, 0, 3⟩
def R.BOOT_REJ : Nat := 0x1444
def F.BOOT_REJ_REJA : Fld := ⟨R.BOOT_REJ, 0, 4⟩
def F.BOOT_REJ_REJB : Fld := ⟨R.BOOT_REJ, 8, 4⟩
def R.BOOT_NEXT : Nat := 0x1448
def F.BOOT_NEXT_SLOT : Fld := ⟨R.BOOT_NEXT, 0, 1⟩
def F.BOOT_NEXT_ONCE : Fld := ⟨R.BOOT_NEXT, 1, 1⟩
def R.BOOT_CTL : Nat := 0x144C
def F.BOOT_CTL_RETRY : Fld := ⟨R.BOOT_CTL, 0, 1⟩
def R.BOOT_ARB : Nat := 0x1450
def F.BOOT_ARB_CNT : Fld := ⟨R.BOOT_ARB, 0, 6⟩
def F.BOOT_ARB_SET : Fld := ⟨R.BOOT_ARB, 8, 6⟩
def R.BOOT_RUN : Nat := 0x1454
def F.BOOT_RUN_SV : Fld := ⟨R.BOOT_RUN, 0, 6⟩
def F.BOOT_RUN_LINK : Fld := ⟨R.BOOT_RUN, 16, 16⟩
def R.BOOT_BUILD : Nat := 0x1458
def R.BOOT_FEAT : Nat := 0x145C
def R.BOOT_ID_LO : Nat := 0x1460
def R.BOOT_ID_HI : Nat := 0x1464
def R.BOOT_TWIN : Nat := 0x1468
def F.BOOT_TWIN_WARM : Fld := ⟨R.BOOT_TWIN, 0, 1⟩
def F.BOOT_TWIN_COLD : Fld := ⟨R.BOOT_TWIN, 1, 1⟩
def F.BOOT_TWIN_WHY : Fld := ⟨R.BOOT_TWIN, 8, 8⟩
def R.BOOT_MIRV : Nat := 0x146C
def F.BOOT_MIRV_MIRV : Fld := ⟨R.BOOT_MIRV, 0, 16⟩
def R.BOOT_ACPT_LO (i : Nat) : Nat := 0x1480 + 0x8 * i
def R.BOOT_ACPT_HI (i : Nat) : Nat := 0x1484 + 0x8 * i

/-! Page 0x06 CPU: R157, R158 (05_reset_boot.md). -/

def R.CPU_NMIVEC : Nat := 0x1840
def R.CPU_NMI : Nat := 0x1844
def F.CPU_NMI_CAUSE : Fld := ⟨R.CPU_NMI, 0, 4⟩
def F.CPU_NMI_PEND : Fld := ⟨R.CPU_NMI, 8, 4⟩
def F.CPU_NMI_LEVEL : Fld := ⟨R.CPU_NMI, 16, 2⟩
def F.CPU_NMI_RET : Fld := ⟨R.CPU_NMI, 24, 1⟩
def R.CPU_NMIEPC (i : Nat) : Nat := 0x1848 + 0x4 * i
def R.CPU_NMIST (i : Nat) : Nat := 0x1850 + 0x4 * i
def R.CPU_NMICAUSE (i : Nat) : Nat := 0x1858 + 0x4 * i
def R.CPU_FAULT : Nat := 0x1860
def F.CPU_FAULT_CODE : Fld := ⟨R.CPU_FAULT, 0, 8⟩
def F.CPU_FAULT_STORE : Fld := ⟨R.CPU_FAULT, 8, 1⟩
def F.CPU_FAULT_OVF : Fld := ⟨R.CPU_FAULT, 30, 1⟩
def F.CPU_FAULT_VALID : Fld := ⟨R.CPU_FAULT, 31, 1⟩
def R.CPU_FAULT_ADDR : Nat := 0x1864
def R.CPU_WDT_CTL : Nat := 0x1868
def F.CPU_WDT_CTL_TO : Fld := ⟨R.CPU_WDT_CTL, 0, 16⟩
def F.CPU_WDT_CTL_GRACE : Fld := ⟨R.CPU_WDT_CTL, 16, 8⟩
def F.CPU_WDT_CTL_DBGSTOP : Fld := ⟨R.CPU_WDT_CTL, 30, 1⟩
def F.CPU_WDT_CTL_EN : Fld := ⟨R.CPU_WDT_CTL, 31, 1⟩
def R.CPU_WDT_KICK : Nat := 0x186C
def R.CPU_WDT_STAT : Nat := 0x1870
def F.CPU_WDT_STAT_LEFT : Fld := ⟨R.CPU_WDT_STAT, 0, 16⟩
def F.CPU_WDT_STAT_STAGE2 : Fld := ⟨R.CPU_WDT_STAT, 16, 1⟩
def F.CPU_WDT_STAT_BADKICK : Fld := ⟨R.CPU_WDT_STAT, 24, 8⟩
def R.CPU_SWRST : Nat := 0x1874
def R.CPU_ALARM : Nat := 0x1878
def F.CPU_ALARM_REQ : Fld := ⟨R.CPU_ALARM, 0, 1⟩
def R.CPU_EIE (i : Nat) : Nat := 0x1880 + 0x4 * i
def R.CPU_EIP (i : Nat) : Nat := 0x1888 + 0x4 * i
def R.CPU_EPRI (i : Nat) : Nat := 0x1890 + 0x4 * i
def F.CPU_EPRI_P0 (i : Nat) : Fld := ⟨R.CPU_EPRI i, 0, 3⟩
def F.CPU_EPRI_P1 (i : Nat) : Fld := ⟨R.CPU_EPRI i, 4, 3⟩
def F.CPU_EPRI_P2 (i : Nat) : Fld := ⟨R.CPU_EPRI i, 8, 3⟩
def F.CPU_EPRI_P3 (i : Nat) : Fld := ⟨R.CPU_EPRI i, 12, 3⟩
def F.CPU_EPRI_P4 (i : Nat) : Fld := ⟨R.CPU_EPRI i, 16, 3⟩
def F.CPU_EPRI_P5 (i : Nat) : Fld := ⟨R.CPU_EPRI i, 20, 3⟩
def F.CPU_EPRI_P6 (i : Nat) : Fld := ⟨R.CPU_EPRI i, 24, 3⟩
def F.CPU_EPRI_P7 (i : Nat) : Fld := ⟨R.CPU_EPRI i, 28, 3⟩
def R.CPU_ECLAIM : Nat := 0x18B0
def F.CPU_ECLAIM_LINE : Fld := ⟨R.CPU_ECLAIM, 0, 8⟩

/-! Page 0x07 ERR: R619, R620 (20_memory_arbiter_errors.md). -/

def R.ERR_CFG : Nat := 0x1C40
def F.ERR_CFG_SCRUB : Fld := ⟨R.ERR_CFG, 0, 1⟩
def F.ERR_CFG_PERIOD : Fld := ⟨R.ERR_CFG, 4, 12⟩
def R.ERR_SCRUB : Nat := 0x1C44
def F.ERR_SCRUB_SWEEPS : Fld := ⟨R.ERR_SCRUB, 0, 16⟩
def R.ERR_STAT : Nat := 0x1C48
def F.ERR_STAT_LEVEL : Fld := ⟨R.ERR_STAT, 0, 6⟩
def F.ERR_STAT_HCLS : Fld := ⟨R.ERR_STAT, 8, 3⟩
def F.ERR_STAT_PEND : Fld := ⟨R.ERR_STAT, 12, 4⟩
def F.ERR_STAT_DEFER : Fld := ⟨R.ERR_STAT, 16, 16⟩
def R.ERR_CMD : Nat := 0x1C4C
def F.ERR_CMD_POP : Fld := ⟨R.ERR_CMD, 0, 1⟩
def F.ERR_CMD_ACK : Fld := ⟨R.ERR_CMD, 1, 1⟩
def F.ERR_CMD_CLS : Fld := ⟨R.ERR_CMD, 4, 2⟩
def R.ERR_CNT : Nat := 0x1C50
def F.ERR_CNT_INFO : Fld := ⟨R.ERR_CNT, 0, 8⟩
def F.ERR_CNT_CORR : Fld := ⟨R.ERR_CNT, 8, 8⟩
def F.ERR_CNT_UNC : Fld := ⟨R.ERR_CNT, 16, 8⟩
def F.ERR_CNT_SAFE : Fld := ⟨R.ERR_CNT, 24, 8⟩
def R.ERR_OVF : Nat := 0x1C54
def F.ERR_OVF_INFO : Fld := ⟨R.ERR_OVF, 0, 8⟩
def F.ERR_OVF_CORR : Fld := ⟨R.ERR_OVF, 8, 8⟩
def F.ERR_OVF_UNC : Fld := ⟨R.ERR_OVF, 16, 8⟩
def F.ERR_OVF_SAFE : Fld := ⟨R.ERR_OVF, 24, 8⟩
def R.ERR_SWLOG : Nat := 0x1C58
def F.ERR_SWLOG_CLS : Fld := ⟨R.ERR_SWLOG, 0, 2⟩
def F.ERR_SWLOG_CODE : Fld := ⟨R.ERR_SWLOG, 8, 8⟩
def R.ERR_SWADDR : Nat := 0x1C5C
def F.ERR_SWADDR_ADDR : Fld := ⟨R.ERR_SWADDR, 0, 32⟩
def R.ERR_INJ : Nat := 0x1C60
def F.ERR_INJ_NBIT : Fld := ⟨R.ERR_INJ, 0, 2⟩
def F.ERR_INJ_ARMED : Fld := ⟨R.ERR_INJ, 8, 1⟩
def R.ERR_INJA : Nat := 0x1C64
def F.ERR_INJA_ADDR : Fld := ⟨R.ERR_INJA, 3, 29⟩
def R.ERR_POIS : Nat := 0x1C68
def F.ERR_POIS_RD : Fld := ⟨R.ERR_POIS, 0, 16⟩
def F.ERR_POIS_MADE : Fld := ⟨R.ERR_POIS, 16, 16⟩
def R.ERR_E (i : Nat) : Nat := 0x1C80 + 0x4 * i

/-! Page 0x08 MEM: R617, R618 (20_memory_arbiter_errors.md). -/

def R.MEM_CFG : Nat := 0x2040
def F.MEM_CFG_N : Fld := ⟨R.MEM_CFG, 0, 7⟩
def F.MEM_CFG_LOCKMAX : Fld := ⟨R.MEM_CFG, 8, 7⟩
def F.MEM_CFG_LOCKTO : Fld := ⟨R.MEM_CFG, 16, 8⟩
def R.MEM_STAT : Nat := 0x2044
def F.MEM_STAT_OWNER : Fld := ⟨R.MEM_STAT, 0, 4⟩
def F.MEM_STAT_LOCKED : Fld := ⟨R.MEM_STAT, 4, 1⟩
def F.MEM_STAT_WIN : Fld := ⟨R.MEM_STAT, 8, 8⟩
def F.MEM_STAT_AGEC : Fld := ⟨R.MEM_STAT, 16, 7⟩
def F.MEM_STAT_EARLY : Fld := ⟨R.MEM_STAT, 24, 8⟩
def R.MEM_SLOCK : Nat := 0x2048
def F.MEM_SLOCK_OPEN : Fld := ⟨R.MEM_SLOCK, 0, 1⟩
def F.MEM_SLOCK_CLOSE : Fld := ⟨R.MEM_SLOCK, 1, 1⟩
def F.MEM_SLOCK_HELD : Fld := ⟨R.MEM_SLOCK, 8, 1⟩
def R.MEM_LBCNT : Nat := 0x204C
def F.MEM_LBCNT_RESET : Fld := ⟨R.MEM_LBCNT, 0, 16⟩
def F.MEM_LBCNT_LONG : Fld := ⟨R.MEM_LBCNT, 16, 8⟩
def F.MEM_LBCNT_TIMEOUT : Fld := ⟨R.MEM_LBCNT, 24, 8⟩
def R.MEM_LB : Nat := 0x2050
def F.MEM_LB_OWNER : Fld := ⟨R.MEM_LB, 0, 4⟩
def F.MEM_LB_CAUSE : Fld := ⟨R.MEM_LB, 8, 2⟩
def F.MEM_LB_WORDS : Fld := ⟨R.MEM_LB, 16, 8⟩
def R.MEM_LBA (i : Nat) : Nat := 0x2060 + 0x4 * i
def F.MEM_LBA_ADDR (i : Nat) : Fld := ⟨R.MEM_LBA i, 0, 32⟩
def R.MEM_RCFG (i : Nat) : Nat := 0x2080 + 0x10 * i
def F.MEM_RCFG_WEIGHT (i : Nat) : Fld := ⟨R.MEM_RCFG i, 0, 8⟩
def R.MEM_RSTAT (i : Nat) : Nat := 0x2084 + 0x10 * i
def F.MEM_RSTAT_CREDIT (i : Nat) : Fld := ⟨R.MEM_RSTAT i, 0, 8⟩
def F.MEM_RSTAT_WAIT (i : Nat) : Fld := ⟨R.MEM_RSTAT i, 8, 1⟩
def F.MEM_RSTAT_MASK (i : Nat) : Fld := ⟨R.MEM_RSTAT i, 9, 1⟩
def F.MEM_RSTAT_HOLD (i : Nat) : Fld := ⟨R.MEM_RSTAT i, 10, 1⟩
def R.MEM_RCNT (i : Nat) : Nat := 0x2088 + 0x10 * i
def F.MEM_RCNT_GRANTS (i : Nat) : Fld := ⟨R.MEM_RCNT i, 0, 32⟩
def R.MEM_RLAT (i : Nat) : Nat := 0x208C + 0x10 * i
def F.MEM_RLAT_LAST (i : Nat) : Fld := ⟨R.MEM_RLAT i, 0, 16⟩
def F.MEM_RLAT_WORST (i : Nat) : Fld := ⟨R.MEM_RLAT i, 16, 16⟩

/-! Page 0x09 SCHG: R589, R590 (19_scheduler.md). -/

def R.SCHG_CTL : Nat := 0x2440
def F.SCHG_CTL_AGEN : Fld := ⟨R.SCHG_CTL, 0, 1⟩
def F.SCHG_CTL_AGEN_N : Fld := ⟨R.SCHG_CTL, 8, 6⟩
def F.SCHG_CTL_STUCK : Fld := ⟨R.SCHG_CTL, 16, 8⟩
def R.SCHG_STAT : Nat := 0x2444
def F.SCHG_STAT_FREE : Fld := ⟨R.SCHG_STAT, 0, 11⟩
def F.SCHG_STAT_INSVC : Fld := ⟨R.SCHG_STAT, 16, 11⟩
def R.SCHG_SUB0 : Nat := 0x2448
def F.SCHG_SUB0_FLOW : Fld := ⟨R.SCHG_SUB0, 0, 16⟩
def F.SCHG_SUB0_TYPE : Fld := ⟨R.SCHG_SUB0, 16, 8⟩
def R.SCHG_SUB1 : Nat := 0x244C
def R.SCHG_SUB2 : Nat := 0x2450
def R.SCHG_SUB3 : Nat := 0x2454
def F.SCHG_SUB3_RELHI : Fld := ⟨R.SCHG_SUB3, 0, 8⟩
def F.SCHG_SUB3_PER : Fld := ⟨R.SCHG_SUB3, 8, 24⟩
def R.SCHG_SUBCMD : Nat := 0x2458
def F.SCHG_SUBCMD_QUEUE : Fld := ⟨R.SCHG_SUBCMD, 0, 5⟩
def F.SCHG_SUBCMD_LIST : Fld := ⟨R.SCHG_SUBCMD, 8, 2⟩
def F.SCHG_SUBCMD_TIMED : Fld := ⟨R.SCHG_SUBCMD, 12, 1⟩
def F.SCHG_SUBCMD_GO : Fld := ⟨R.SCHG_SUBCMD, 31, 1⟩
def R.SCHG_SUBRES : Nat := 0x245C
def F.SCHG_SUBRES_HANDLE : Fld := ⟨R.SCHG_SUBRES, 0, 16⟩
def F.SCHG_SUBRES_CODE : Fld := ⟨R.SCHG_SUBRES, 16, 4⟩
def F.SCHG_SUBRES_BUSY : Fld := ⟨R.SCHG_SUBRES, 30, 1⟩
def F.SCHG_SUBRES_VALID : Fld := ⟨R.SCHG_SUBRES, 31, 1⟩
def R.SCHG_CANCEL : Nat := 0x2460
def F.SCHG_CANCEL_HANDLE : Fld := ⟨R.SCHG_CANCEL, 0, 16⟩
def R.SCHG_CANRES : Nat := 0x2464
def F.SCHG_CANRES_CODE : Fld := ⟨R.SCHG_CANRES, 0, 2⟩
def F.SCHG_CANRES_BUSY : Fld := ⟨R.SCHG_CANRES, 30, 1⟩
def F.SCHG_CANRES_VALID : Fld := ⟨R.SCHG_CANRES, 31, 1⟩
def R.SCHG_TAKE : Nat := 0x2468
def R.SCHG_TW (i : Nat) : Nat := 0x246C + 0x4 * i
def R.SCHG_DONE : Nat := 0x247C
def F.SCHG_DONE_HANDLE : Fld := ⟨R.SCHG_DONE, 0, 16⟩
def R.SCHG_NOW_LO : Nat := 0x2480
def R.SCHG_NOW_HI : Nat := 0x2484
def R.SCHG_DL (i : Nat) : Nat := 0x2490 + 0x4 * i
def F.SCHG_DL_LEVEL (i : Nat) : Fld := ⟨R.SCHG_DL i, 0, 9⟩
def F.SCHG_DL_LATE (i : Nat) : Fld := ⟨R.SCHG_DL i, 16, 8⟩
def F.SCHG_DL_WAIT (i : Nat) : Fld := ⟨R.SCHG_DL i, 24, 8⟩
def R.SCHG_CNT : Nat := 0x24A0
def F.SCHG_CNT_OVERRUN : Fld := ⟨R.SCHG_CNT, 0, 16⟩
def F.SCHG_CNT_STUCKS : Fld := ⟨R.SCHG_CNT, 16, 8⟩
def F.SCHG_CNT_BADDONE : Fld := ⟨R.SCHG_CNT, 24, 8⟩
def R.SCHG_LAT : Nat := 0x24A4
def F.SCHG_LAT_LAST : Fld := ⟨R.SCHG_LAT, 0, 16⟩
def F.SCHG_LAT_WORST : Fld := ⟨R.SCHG_LAT, 16, 16⟩

/-! Page 0x0A SCHQ: R591, R592 (19_scheduler.md). -/

def R.SCHQ_CFG (i : Nat) : Nat := 0x2840 + 0x10 * i
def F.SCHQ_CFG_EN (i : Nat) : Fld := ⟨R.SCHQ_CFG i, 0, 1⟩
def F.SCHQ_CFG_CLASS (i : Nat) : Fld := ⟨R.SCHQ_CFG i, 4, 2⟩
def F.SCHQ_CFG_WEIGHT (i : Nat) : Fld := ⟨R.SCHQ_CFG i, 8, 8⟩
def F.SCHQ_CFG_DEPTH (i : Nat) : Fld := ⟨R.SCHQ_CFG i, 16, 11⟩
def R.SCHQ_STAT (i : Nat) : Nat := 0x2844 + 0x10 * i
def F.SCHQ_STAT_LEVEL (i : Nat) : Fld := ⟨R.SCHQ_STAT i, 0, 11⟩
def F.SCHQ_STAT_HEADWAIT (i : Nat) : Fld := ⟨R.SCHQ_STAT i, 12, 1⟩
def F.SCHQ_STAT_CREDIT (i : Nat) : Fld := ⟨R.SCHQ_STAT i, 16, 8⟩
def R.SCHQ_CNT (i : Nat) : Nat := 0x2848 + 0x10 * i
def F.SCHQ_CNT_DISP (i : Nat) : Fld := ⟨R.SCHQ_CNT i, 0, 16⟩
def F.SCHQ_CNT_DROP (i : Nat) : Fld := ⟨R.SCHQ_CNT i, 16, 16⟩
def R.SCHQ_CMD (i : Nat) : Nat := 0x284C + 0x10 * i
def F.SCHQ_CMD_FLUSH (i : Nat) : Fld := ⟨R.SCHQ_CMD i, 0, 1⟩
def R.SCHQ_FULL : Nat := 0x2A40

/-! Page 0x0B TIME: R242, R243 (08_time.md). -/

def R.TIME_CTL : Nat := 0x2C40
def F.TIME_CTL_SRC : Fld := ⟨R.TIME_CTL, 0, 2⟩
def F.TIME_CTL_HOLD : Fld := ⟨R.TIME_CTL, 4, 1⟩
def R.TIME_STAT : Nat := 0x2C44
def F.TIME_STAT_HOLDOVER : Fld := ⟨R.TIME_STAT, 0, 1⟩
def F.TIME_STAT_LOCK : Fld := ⟨R.TIME_STAT, 1, 1⟩
def F.TIME_STAT_SRCUSED : Fld := ⟨R.TIME_STAT, 4, 2⟩
def F.TIME_STAT_TBG : Fld := ⟨R.TIME_STAT, 8, 8⟩
def R.TIME_NOW_NS : Nat := 0x2C48
def F.TIME_NOW_NS_NS : Fld := ⟨R.TIME_NOW_NS, 0, 30⟩
def R.TIME_NOW_FR : Nat := 0x2C4C
def R.TIME_NOW_SL : Nat := 0x2C50
def R.TIME_NOW_SH : Nat := 0x2C54
def R.TIME_INC : Nat := 0x2C58
def F.TIME_INC_NS : Fld := ⟨R.TIME_INC, 0, 4⟩
def R.TIME_INC_FRAC : Nat := 0x2C5C
def F.TIME_INC_FRAC_FRAC : Fld := ⟨R.TIME_INC_FRAC, 0, 32⟩
def R.TIME_OFS_NS : Nat := 0x2C60
def R.TIME_OFS_FR : Nat := 0x2C64
def R.TIME_SET_NS : Nat := 0x2C68
def F.TIME_SET_NS_NS : Fld := ⟨R.TIME_SET_NS, 0, 30⟩
def R.TIME_SET_SL : Nat := 0x2C6C
def R.TIME_SET_SH : Nat := 0x2C70
def R.TIME_CMD : Nat := 0x2C74
def F.TIME_CMD_STEP : Fld := ⟨R.TIME_CMD, 0, 1⟩
def F.TIME_CMD_SET : Fld := ⟨R.TIME_CMD, 1, 1⟩
def R.TIME_MER : Nat := 0x2C78
def F.TIME_MER_TCYC : Fld := ⟨R.TIME_MER, 0, 7⟩
def F.TIME_MER_RUN : Fld := ⟨R.TIME_MER, 8, 1⟩
def R.TIME_EPOCH_NS : Nat := 0x2C7C
def F.TIME_EPOCH_NS_NS : Fld := ⟨R.TIME_EPOCH_NS, 0, 30⟩
def R.TIME_EPOCH_SL : Nat := 0x2C80
def R.TIME_EPOCH_SH : Nat := 0x2C84
def R.TIME_KBASE_LO : Nat := 0x2C88
def R.TIME_KBASE_HI : Nat := 0x2C8C
def F.TIME_KBASE_HI_KB : Fld := ⟨R.TIME_KBASE_HI, 0, 16⟩
def R.TIME_K_LO : Nat := 0x2C90
def R.TIME_K_HI : Nat := 0x2C94
def F.TIME_K_HI_K : Fld := ⟨R.TIME_K_HI, 0, 16⟩
def R.TIME_ALPHA (i : Nat) : Nat := 0x2C98 + 0x4 * i
def F.TIME_ALPHA_ALPHA (i : Nat) : Fld := ⟨R.TIME_ALPHA i, 0, 32⟩
def R.TIME_CELL : Nat := 0x2CA8
def F.TIME_CELL_SHIFT : Fld := ⟨R.TIME_CELL, 0, 3⟩
def F.TIME_CELL_LIM : Fld := ⟨R.TIME_CELL, 8, 8⟩
def F.TIME_CELL_DISC : Fld := ⟨R.TIME_CELL, 16, 16⟩
def R.TIME_CELL_DLY : Nat := 0x2CAC
def F.TIME_CELL_DLY_DLY : Fld := ⟨R.TIME_CELL_DLY, 0, 24⟩
def R.TIME_CELL_ERR : Nat := 0x2CB0
def R.TIME_PPS : Nat := 0x2CB4
def F.TIME_PPS_W : Fld := ⟨R.TIME_PPS, 0, 10⟩
def F.TIME_PPS_HOLDOFF : Fld := ⟨R.TIME_PPS, 16, 1⟩
def R.TIME_MARK : Nat := 0x2CB8
def F.TIME_MARK_W : Fld := ⟨R.TIME_MARK, 0, 8⟩
def F.TIME_MARK_N : Fld := ⟨R.TIME_MARK, 16, 8⟩
def R.TIME_PTP : Nat := 0x2CBC
def F.TIME_PTP_CORR : Fld := ⟨R.TIME_PTP, 0, 1⟩
def F.TIME_PTP_ONESTEP : Fld := ⟨R.TIME_PTP, 1, 1⟩
def R.TIME_TSQ_ID (i : Nat) : Nat := 0x2CC0 + 0x10 * i
def F.TIME_TSQ_ID_SEQ (i : Nat) : Fld := ⟨R.TIME_TSQ_ID i, 0, 16⟩
def F.TIME_TSQ_ID_TYPE (i : Nat) : Fld := ⟨R.TIME_TSQ_ID i, 16, 4⟩
def F.TIME_TSQ_ID_DIR (i : Nat) : Fld := ⟨R.TIME_TSQ_ID i, 20, 1⟩
def F.TIME_TSQ_ID_VALID (i : Nat) : Fld := ⟨R.TIME_TSQ_ID i, 31, 1⟩
def R.TIME_TSQ_NS (i : Nat) : Nat := 0x2CC4 + 0x10 * i
def R.TIME_TSQ_SL (i : Nat) : Nat := 0x2CC8 + 0x10 * i
def R.TIME_TSQ_STAT (i : Nat) : Nat := 0x2CCC + 0x10 * i
def F.TIME_TSQ_STAT_LEVEL (i : Nat) : Fld := ⟨R.TIME_TSQ_STAT i, 0, 5⟩
def F.TIME_TSQ_STAT_OVF (i : Nat) : Fld := ⟨R.TIME_TSQ_STAT i, 16, 16⟩
def R.TIME_TWIN : Nat := 0x2CE0
def R.TIME_HOLD : Nat := 0x2CE4
def F.TIME_HOLD_ENTRIES : Fld := ⟨R.TIME_HOLD, 0, 16⟩
def F.TIME_HOLD_MS : Fld := ⟨R.TIME_HOLD, 16, 16⟩

/-! Page 0x0C STN: R665, R666 (22_station_interface.md). -/

def R.STN_CFG : Nat := 0x3040
def F.STN_CFG_PRP : Fld := ⟨R.STN_CFG, 0, 1⟩
def F.STN_CFG_VLANEN : Fld := ⟨R.STN_CFG, 1, 1⟩
def F.STN_CFG_ETYPE : Fld := ⟨R.STN_CFG, 16, 16⟩
def R.STN_MACL : Nat := 0x3044
def R.STN_MACH : Nat := 0x3048
def F.STN_MACH_MAC : Fld := ⟨R.STN_MACH, 0, 16⟩
def R.STN_GRPL : Nat := 0x304C
def R.STN_GRPH : Nat := 0x3050
def R.STN_DSTL : Nat := 0x3054
def R.STN_DSTH : Nat := 0x3058
def R.STN_VLAN : Nat := 0x305C
def F.STN_VLAN_VID : Fld := ⟨R.STN_VLAN, 0, 12⟩
def F.STN_VLAN_PCP : Fld := ⟨R.STN_VLAN, 13, 3⟩
def R.STN_PRP : Nat := 0x3060
def F.STN_PRP_LCI : Fld := ⟨R.STN_PRP, 0, 16⟩
def F.STN_PRP_FORGET : Fld := ⟨R.STN_PRP, 16, 16⟩
def R.STN_STAT : Nat := 0x3064
def F.STN_STAT_LINK : Fld := ⟨R.STN_STAT, 0, 2⟩
def F.STN_STAT_KEYED : Fld := ⟨R.STN_STAT, 2, 1⟩
def F.STN_STAT_SPF : Fld := ⟨R.STN_STAT, 3, 1⟩
def F.STN_STAT_ANGV : Fld := ⟨R.STN_STAT, 4, 1⟩
def F.STN_STAT_PEND : Fld := ⟨R.STN_STAT, 5, 1⟩
def F.STN_STAT_NW : Fld := ⟨R.STN_STAT, 8, 6⟩
def R.STN_CMD : Nat := 0x3068
def F.STN_CMD_REKEY : Fld := ⟨R.STN_CMD, 0, 1⟩
def F.STN_CMD_CLRCNT : Fld := ⟨R.STN_CMD, 1, 1⟩
def R.STN_SP : Nat := 0x306C
def F.STN_SP_TMO : Fld := ⟨R.STN_SP, 0, 16⟩
def R.STN_ANG : Nat := 0x3070
def F.STN_ANG_TMO : Fld := ⟨R.STN_ANG, 0, 16⟩
def F.STN_ANG_FNOM : Fld := ⟨R.STN_ANG, 16, 16⟩
def R.STN_ANGAGE : Nat := 0x3074
def F.STN_ANGAGE_TAU : Fld := ⟨R.STN_ANGAGE, 0, 32⟩
def R.STN_TXBASE : Nat := 0x3078
def R.STN_TXPOST : Nat := 0x307C
def F.STN_TXPOST_IDX : Fld := ⟨R.STN_TXPOST, 0, 5⟩
def F.STN_TXPOST_HEAD : Fld := ⟨R.STN_TXPOST, 8, 5⟩
def R.STN_RXBASE : Nat := 0x3080
def R.STN_RXPTR : Nat := 0x3084
def F.STN_RXPTR_TAIL : Fld := ⟨R.STN_RXPTR, 0, 5⟩
def F.STN_RXPTR_HEAD : Fld := ⟨R.STN_RXPTR, 8, 5⟩
def R.STN_STRM : Nat := 0x3088
def F.STN_STRM_WAIT : Fld := ⟨R.STN_STRM, 0, 8⟩
def F.STN_STRM_STRDROP : Fld := ⟨R.STN_STRM, 16, 16⟩
def R.STN_SVCFG (i : Nat) : Nat := 0x3090 + 0x10 * i
def F.STN_SVCFG_EN (i : Nat) : Fld := ⟨R.STN_SVCFG i, 0, 1⟩
def F.STN_SVCFG_TESTOK (i : Nat) : Fld := ⟨R.STN_SVCFG i, 1, 1⟩
def F.STN_SVCFG_APPID (i : Nat) : Fld := ⟨R.STN_SVCFG i, 16, 16⟩
def R.STN_SVSRCL (i : Nat) : Nat := 0x3094 + 0x10 * i
def R.STN_SVSRCH (i : Nat) : Nat := 0x3098 + 0x10 * i
def R.STN_SVPER (i : Nat) : Nat := 0x309C + 0x10 * i
def F.STN_SVPER_PER (i : Nat) : Fld := ⟨R.STN_SVPER i, 0, 32⟩
def R.STN_PRX (i : Nat) : Nat := 0x30D0 + 0x10 * i
def F.STN_PRX_COUNT (i : Nat) : Fld := ⟨R.STN_PRX i, 0, 32⟩
def R.STN_PERR (i : Nat) : Nat := 0x30D4 + 0x10 * i
def F.STN_PERR_FCS (i : Nat) : Fld := ⟨R.STN_PERR i, 0, 16⟩
def F.STN_PERR_CODE (i : Nat) : Fld := ⟨R.STN_PERR i, 16, 8⟩
def F.STN_PERR_ADDR (i : Nat) : Fld := ⟨R.STN_PERR i, 24, 8⟩
def R.STN_PTX (i : Nat) : Nat := 0x30D8 + 0x10 * i
def F.STN_PTX_COUNT (i : Nat) : Fld := ⟨R.STN_PTX i, 0, 32⟩
def R.STN_PDUP (i : Nat) : Nat := 0x30DC + 0x10 * i
def F.STN_PDUP_COUNT (i : Nat) : Fld := ⟨R.STN_PDUP i, 0, 32⟩
def R.STN_FCNT : Nat := 0x30F0
def F.STN_FCNT_SPOK : Fld := ⟨R.STN_FCNT, 0, 16⟩
def F.STN_FCNT_TAG : Fld := ⟨R.STN_FCNT, 16, 8⟩
def F.STN_FCNT_REPLAY : Fld := ⟨R.STN_FCNT, 24, 8⟩
def R.STN_FCNT2 : Nat := 0x30F4
def F.STN_FCNT2_MG : Fld := ⟨R.STN_FCNT2, 0, 16⟩
def F.STN_FCNT2_MGDROP : Fld := ⟨R.STN_FCNT2, 16, 8⟩
def F.STN_FCNT2_FMT : Fld := ⟨R.STN_FCNT2, 24, 8⟩
def R.STN_SVCNT : Nat := 0x30F8
def F.STN_SVCNT_OK : Fld := ⟨R.STN_SVCNT, 0, 16⟩
def F.STN_SVCNT_UNMATCH : Fld := ⟨R.STN_SVCNT, 16, 8⟩
def F.STN_SVCNT_LOST : Fld := ⟨R.STN_SVCNT, 24, 8⟩
def R.STN_TXCNT : Nat := 0x30FC
def F.STN_TXCNT_LATE : Fld := ⟨R.STN_TXCNT, 0, 16⟩
def F.STN_TXCNT_RXDROP : Fld := ⟨R.STN_TXCNT, 16, 16⟩
def R.STN_SPW (i : Nat) : Nat := 0x3100 + 0x4 * i
def F.STN_SPW_WORD (i : Nat) : Fld := ⟨R.STN_SPW i, 0, 32⟩

/-! Page 0x0D TWIN: R570, R571 (18_twins_referee.md). -/

def R.TWIN_CFG : Nat := 0x3440
def F.TWIN_CFG_MEN : Fld := ⟨R.TWIN_CFG, 0, 1⟩
def F.TWIN_CFG_NSLICE : Fld := ⟨R.TWIN_CFG, 8, 6⟩
def F.TWIN_CFG_TSYNC : Fld := ⟨R.TWIN_CFG, 16, 1⟩
def R.TWIN_STAT : Nat := 0x3444
def F.TWIN_STAT_BOND : Fld := ⟨R.TWIN_STAT, 0, 1⟩
def F.TWIN_STAT_KEYED : Fld := ⟨R.TWIN_STAT, 1, 1⟩
def F.TWIN_STAT_HELLO : Fld := ⟨R.TWIN_STAT, 2, 1⟩
def F.TWIN_STAT_ROLE : Fld := ⟨R.TWIN_STAT, 4, 2⟩
def F.TWIN_STAT_READY : Fld := ⟨R.TWIN_STAT, 8, 1⟩
def F.TWIN_STAT_COLD : Fld := ⟨R.TWIN_STAT, 9, 1⟩
def F.TWIN_STAT_SELF : Fld := ⟨R.TWIN_STAT, 10, 1⟩
def F.TWIN_STAT_TWINVB : Fld := ⟨R.TWIN_STAT, 11, 1⟩
def F.TWIN_STAT_TLOCK : Fld := ⟨R.TWIN_STAT, 12, 1⟩
def R.TWIN_WATCH : Nat := 0x3448
def F.TWIN_WATCH_OWN : Fld := ⟨R.TWIN_WATCH, 0, 16⟩
def F.TWIN_WATCH_SEEN : Fld := ⟨R.TWIN_WATCH, 16, 16⟩
def R.TWIN_ARB : Nat := 0x344C
def F.TWIN_ARB_SELFEN : Fld := ⟨R.TWIN_ARB, 0, 1⟩
def F.TWIN_ARB_PREF : Fld := ⟨R.TWIN_ARB, 1, 1⟩
def F.TWIN_ARB_HEAL : Fld := ⟨R.TWIN_ARB, 4, 12⟩
def F.TWIN_ARB_WPCT : Fld := ⟨R.TWIN_ARB, 16, 8⟩
def F.TWIN_ARB_WCOL : Fld := ⟨R.TWIN_ARB, 24, 4⟩
def R.TWIN_MX : Nat := 0x3450
def F.TWIN_MX_X : Fld := ⟨R.TWIN_MX, 0, 32⟩
def R.TWIN_MSIZE : Nat := 0x3454
def F.TWIN_MSIZE_SIZE : Fld := ⟨R.TWIN_MSIZE, 0, 24⟩
def F.TWIN_MSIZE_NUSE : Fld := ⟨R.TWIN_MSIZE, 24, 7⟩
def R.TWIN_MCNT : Nat := 0x3458
def F.TWIN_MCNT_APPLIED : Fld := ⟨R.TWIN_MCNT, 0, 16⟩
def F.TWIN_MCNT_DISCARD : Fld := ⟨R.TWIN_MCNT, 16, 16⟩
def R.TWIN_SHADOW_LO : Nat := 0x345C
def R.TWIN_SHADOW_HI : Nat := 0x3460
def R.TWIN_TKCNT : Nat := 0x3464
def F.TWIN_TKCNT_TAKEOVERS : Fld := ⟨R.TWIN_TKCNT, 0, 16⟩
def F.TWIN_TKCNT_YIELDS : Fld := ⟨R.TWIN_TKCNT, 16, 16⟩
def R.TWIN_TKLAST : Nat := 0x3468
def F.TWIN_TKLAST_WHY : Fld := ⟨R.TWIN_TKLAST, 0, 3⟩
def F.TWIN_TKLAST_COLD : Fld := ⟨R.TWIN_TKLAST, 8, 1⟩
def F.TWIN_TKLAST_VBKEEP : Fld := ⟨R.TWIN_TKLAST, 9, 1⟩
def R.TWIN_SLACK : Nat := 0x346C
def F.TWIN_SLACK_GAP : Fld := ⟨R.TWIN_SLACK, 0, 24⟩
def R.TWIN_LERR : Nat := 0x3470
def F.TWIN_LERR_CRC : Fld := ⟨R.TWIN_LERR, 0, 8⟩
def F.TWIN_LERR_TAG : Fld := ⟨R.TWIN_LERR, 8, 8⟩
def F.TWIN_LERR_SEQ : Fld := ⟨R.TWIN_LERR, 16, 8⟩
def F.TWIN_LERR_FMT : Fld := ⟨R.TWIN_LERR, 24, 8⟩
def R.TWIN_MGEN : Nat := 0x3474
def F.TWIN_MGEN_G : Fld := ⟨R.TWIN_MGEN, 0, 8⟩
def R.TWIN_MR_BASE (i : Nat) : Nat := 0x3480 + 0x8 * i
def F.TWIN_MR_BASE_BASE (i : Nat) : Fld := ⟨R.TWIN_MR_BASE i, 0, 32⟩
def R.TWIN_MR_LEN (i : Nat) : Nat := 0x3484 + 0x8 * i
def F.TWIN_MR_LEN_LEN (i : Nat) : Fld := ⟨R.TWIN_MR_LEN i, 0, 21⟩

/-! Page 0x0E REF: R572, R573 (18_twins_referee.md). -/

def R.REF_HCFG : Nat := 0x3840
def F.REF_HCFG_HBT : Fld := ⟨R.REF_HCFG, 0, 6⟩
def F.REF_HCFG_NMISS : Fld := ⟨R.REF_HCFG, 8, 5⟩
def R.REF_HSTAT : Nat := 0x3844
def F.REF_HSTAT_OK : Fld := ⟨R.REF_HSTAT, 0, 1⟩
def F.REF_HSTAT_KEYED : Fld := ⟨R.REF_HSTAT, 1, 1⟩
def F.REF_HSTAT_LASTW : Fld := ⟨R.REF_HSTAT, 16, 16⟩
def R.REF_HFAIL : Nat := 0x3848
def F.REF_HFAIL_FWFAIL : Fld := ⟨R.REF_HFAIL, 0, 1⟩
def F.REF_HFAIL_HW : Fld := ⟨R.REF_HFAIL, 8, 4⟩
def R.REF_HCNT : Nat := 0x384C
def F.REF_HCNT_RXOK : Fld := ⟨R.REF_HCNT, 0, 16⟩
def F.REF_HCNT_RXERR : Fld := ⟨R.REF_HCNT, 16, 8⟩
def F.REF_HCNT_STALE : Fld := ⟨R.REF_HCNT, 24, 8⟩
def R.REF_PCFG (i : Nat) : Nat := 0x3900 + 0x20 * i
def F.REF_PCFG_EN (i : Nat) : Fld := ⟨R.REF_PCFG i, 0, 1⟩
def F.REF_PCFG_PREF (i : Nat) : Fld := ⟨R.REF_PCFG i, 1, 1⟩
def F.REF_PCFG_UNREADY (i : Nat) : Fld := ⟨R.REF_PCFG i, 2, 1⟩
def F.REF_PCFG_HBT (i : Nat) : Fld := ⟨R.REF_PCFG i, 8, 6⟩
def F.REF_PCFG_NMISS (i : Nat) : Fld := ⟨R.REF_PCFG i, 16, 5⟩
def R.REF_PWIT (i : Nat) : Nat := 0x3904 + 0x20 * i
def F.REF_PWIT_WPCT (i : Nat) : Fld := ⟨R.REF_PWIT i, 0, 8⟩
def F.REF_PWIT_WCOL (i : Nat) : Fld := ⟨R.REF_PWIT i, 8, 4⟩
def F.REF_PWIT_WEN (i : Nat) : Fld := ⟨R.REF_PWIT i, 16, 1⟩
def R.REF_PSTAT (i : Nat) : Nat := 0x3908 + 0x20 * i
def F.REF_PSTAT_WATCH (i : Nat) : Fld := ⟨R.REF_PSTAT i, 0, 16⟩
def F.REF_PSTAT_ACT (i : Nat) : Fld := ⟨R.REF_PSTAT i, 16, 2⟩
def F.REF_PSTAT_STATE (i : Nat) : Fld := ⟨R.REF_PSTAT i, 18, 2⟩
def R.REF_PCNT (i : Nat) : Nat := 0x390C + 0x20 * i
def F.REF_PCNT_TAKES (i : Nat) : Fld := ⟨R.REF_PCNT i, 0, 16⟩
def F.REF_PCNT_REWATCH (i : Nat) : Fld := ⟨R.REF_PCNT i, 16, 8⟩
def F.REF_PCNT_NOSTBY (i : Nat) : Fld := ⟨R.REF_PCNT i, 24, 8⟩
def R.REF_PLAST (i : Nat) : Nat := 0x3910 + 0x20 * i
def F.REF_PLAST_WHY (i : Nat) : Fld := ⟨R.REF_PLAST i, 0, 3⟩
def F.REF_PLAST_CYC16 (i : Nat) : Fld := ⟨R.REF_PLAST i, 16, 16⟩
def R.REF_LSTAT (i : Nat) : Nat := 0x3980 + 0x10 * i
def F.REF_LSTAT_HEALTH (i : Nat) : Fld := ⟨R.REF_LSTAT i, 0, 8⟩
def F.REF_LSTAT_MISS (i : Nat) : Fld := ⟨R.REF_LSTAT i, 8, 8⟩
def F.REF_LSTAT_VALID (i : Nat) : Fld := ⟨R.REF_LSTAT i, 16, 1⟩
def F.REF_LSTAT_KEYED (i : Nat) : Fld := ⟨R.REF_LSTAT i, 17, 1⟩
def R.REF_LWIT (i : Nat) : Nat := 0x3984 + 0x10 * i
def F.REF_LWIT_WIT (i : Nat) : Fld := ⟨R.REF_LWIT i, 0, 32⟩
def R.REF_LCNT (i : Nat) : Nat := 0x3988 + 0x10 * i
def F.REF_LCNT_OK (i : Nat) : Fld := ⟨R.REF_LCNT i, 0, 16⟩
def F.REF_LCNT_CRC (i : Nat) : Fld := ⟨R.REF_LCNT i, 16, 8⟩
def F.REF_LCNT_TAG (i : Nat) : Fld := ⟨R.REF_LCNT i, 24, 8⟩
def R.REF_LW (i : Nat) : Nat := 0x398C + 0x10 * i
def F.REF_LW_WATCH (i : Nat) : Fld := ⟨R.REF_LW i, 0, 16⟩
def F.REF_LW_CYC16 (i : Nat) : Fld := ⟨R.REF_LW i, 16, 16⟩

/-! Page 0x0F HOST: R88, R89, R188 (03_register_pages.md, 06_presence_security.md). -/

def R.HOST_CTRL : Nat := 0x3C40
def F.HOST_CTRL_HOST : Fld := ⟨R.HOST_CTRL, 0, 1⟩
def F.HOST_CTRL_DUMMY : Fld := ⟨R.HOST_CTRL, 8, 4⟩
def R.HOST_REL : Nat := 0x3C44
def F.HOST_REL_DUR : Fld := ⟨R.HOST_REL, 0, 12⟩
def F.HOST_REL_PEND : Fld := ⟨R.HOST_REL, 31, 1⟩
def R.HOST_CNT : Nat := 0x3C48
def F.HOST_CNT_SERVED : Fld := ⟨R.HOST_CNT, 0, 16⟩
def F.HOST_CNT_CRCFAIL : Fld := ⟨R.HOST_CNT, 16, 16⟩
def R.DBG_CTL : Nat := 0x3C80
def F.DBG_CTL_UNLOCK : Fld := ⟨R.DBG_CTL, 0, 1⟩
def F.DBG_CTL_RELOCK : Fld := ⟨R.DBG_CTL, 1, 1⟩
def R.DBG_STAT : Nat := 0x3C84
def F.DBG_STAT_OPEN : Fld := ⟨R.DBG_STAT, 0, 1⟩
def F.DBG_STAT_SINCE : Fld := ⟨R.DBG_STAT, 1, 1⟩
def F.DBG_STAT_UNLOCKS : Fld := ⟨R.DBG_STAT, 16, 16⟩

/-! Page 0x10 LANE: R218, R219 (07_lanes.md). -/

def R.LANE_CFG (p : Nat) : Nat := 0x4040 + 0x400 * p
def F.LANE_CFG_RATE (p : Nat) : Fld := ⟨R.LANE_CFG p, 0, 2⟩
def F.LANE_CFG_AUTOPOL (p : Nat) : Fld := ⟨R.LANE_CFG p, 4, 1⟩
def F.LANE_CFG_RXINV (p : Nat) : Fld := ⟨R.LANE_CFG p, 5, 1⟩
def F.LANE_CFG_TXINV (p : Nat) : Fld := ⟨R.LANE_CFG p, 6, 1⟩
def F.LANE_CFG_LB (p : Nat) : Fld := ⟨R.LANE_CFG p, 8, 3⟩
def F.LANE_CFG_BURST (p : Nat) : Fld := ⟨R.LANE_CFG p, 12, 1⟩
def R.LANE_PWR (p : Nat) : Nat := 0x4044 + 0x400 * p
def F.LANE_PWR_REQ (p : Nat) : Fld := ⟨R.LANE_PWR p, 0, 2⟩
def F.LANE_PWR_CUR (p : Nat) : Fld := ⟨R.LANE_PWR p, 4, 2⟩
def F.LANE_PWR_BUSY (p : Nat) : Fld := ⟨R.LANE_PWR p, 8, 1⟩
def F.LANE_PWR_LATCHED (p : Nat) : Fld := ⟨R.LANE_PWR p, 9, 1⟩
def R.LANE_STAT (p : Nat) : Nat := 0x4048 + 0x400 * p
def F.LANE_STAT_PLL_LOCK (p : Nat) : Fld := ⟨R.LANE_STAT p, 0, 1⟩
def F.LANE_STAT_CDR_LOCK (p : Nat) : Fld := ⟨R.LANE_STAT p, 1, 1⟩
def F.LANE_STAT_SYNC (p : Nat) : Fld := ⟨R.LANE_STAT p, 2, 1⟩
def F.LANE_STAT_LOS (p : Nat) : Fld := ⟨R.LANE_STAT p, 3, 1⟩
def F.LANE_STAT_REVERSED (p : Nat) : Fld := ⟨R.LANE_STAT p, 8, 1⟩
def F.LANE_STAT_BONDED (p : Nat) : Fld := ⟨R.LANE_STAT p, 9, 1⟩
def F.LANE_STAT_BOARD_DFLT (p : Nat) : Fld := ⟨R.LANE_STAT p, 12, 1⟩
def F.LANE_STAT_HUNT (p : Nat) : Fld := ⟨R.LANE_STAT p, 13, 1⟩
def R.LANE_EQ (p : Nat) (i : Nat) : Nat := 0x404C + 0x400 * p + 0x4 * i
def F.LANE_EQ_PRE (p : Nat) (i : Nat) : Fld := ⟨R.LANE_EQ p i, 0, 3⟩
def F.LANE_EQ_MAIN (p : Nat) (i : Nat) : Fld := ⟨R.LANE_EQ p i, 8, 6⟩
def F.LANE_EQ_POST (p : Nat) (i : Nat) : Fld := ⟨R.LANE_EQ p i, 16, 4⟩
def F.LANE_EQ_CTLE (p : Nat) (i : Nat) : Fld := ⟨R.LANE_EQ p i, 24, 4⟩
def R.LANE_CNT (p : Nat) : Nat := 0x4058 + 0x400 * p
def F.LANE_CNT_CODEERR (p : Nat) : Fld := ⟨R.LANE_CNT p, 0, 16⟩
def F.LANE_CNT_SYNCLOSS (p : Nat) : Fld := ⟨R.LANE_CNT p, 16, 8⟩
def F.LANE_CNT_POLFLIP (p : Nat) : Fld := ⟨R.LANE_CNT p, 24, 8⟩
def R.LANE_BCNT (p : Nat) : Nat := 0x405C + 0x400 * p
def F.LANE_BCNT_PHJUMP (p : Nat) : Fld := ⟨R.LANE_BCNT p, 0, 16⟩
def R.LANE_BRST (p : Nat) : Nat := 0x4060 + 0x400 * p
def F.LANE_BRST_W (p : Nat) : Fld := ⟨R.LANE_BRST p, 0, 3⟩
def F.LANE_BRST_LEAD (p : Nat) : Fld := ⟨R.LANE_BRST p, 4, 2⟩
def R.LANE_ES_CTL (p : Nat) : Nat := 0x4064 + 0x400 * p
def F.LANE_ES_CTL_H (p : Nat) : Fld := ⟨R.LANE_ES_CTL p, 0, 6⟩
def F.LANE_ES_CTL_V (p : Nat) : Fld := ⟨R.LANE_ES_CTL p, 8, 7⟩
def F.LANE_ES_CTL_DWELL (p : Nat) : Fld := ⟨R.LANE_ES_CTL p, 16, 4⟩
def F.LANE_ES_CTL_GO (p : Nat) : Fld := ⟨R.LANE_ES_CTL p, 31, 1⟩
def R.LANE_ES_BERTH (p : Nat) : Nat := 0x4068 + 0x400 * p
def F.LANE_ES_BERTH_BERTH (p : Nat) : Fld := ⟨R.LANE_ES_BERTH p, 0, 8⟩
def F.LANE_ES_BERTH_EN (p : Nat) : Fld := ⟨R.LANE_ES_BERTH p, 8, 1⟩
def R.LANE_ES_ERR (p : Nat) : Nat := 0x406C + 0x400 * p
def R.LANE_ES_STAT (p : Nat) : Nat := 0x4070 + 0x400 * p
def F.LANE_ES_STAT_BUSY (p : Nat) : Fld := ⟨R.LANE_ES_STAT p, 0, 1⟩
def F.LANE_ES_STAT_DONE (p : Nat) : Fld := ⟨R.LANE_ES_STAT p, 1, 1⟩
def F.LANE_ES_STAT_ABORT (p : Nat) : Fld := ⟨R.LANE_ES_STAT p, 2, 1⟩
def F.LANE_ES_STAT_BITS (p : Nat) : Fld := ⟨R.LANE_ES_STAT p, 16, 16⟩
def R.LANE_PRBS_CTL (p : Nat) : Nat := 0x4074 + 0x400 * p
def F.LANE_PRBS_CTL_GEN (p : Nat) : Fld := ⟨R.LANE_PRBS_CTL p, 0, 1⟩
def F.LANE_PRBS_CTL_CHK (p : Nat) : Fld := ⟨R.LANE_PRBS_CTL p, 1, 1⟩
def F.LANE_PRBS_CTL_POLY (p : Nat) : Fld := ⟨R.LANE_PRBS_CTL p, 4, 2⟩
def F.LANE_PRBS_CTL_CLRRD (p : Nat) : Fld := ⟨R.LANE_PRBS_CTL p, 7, 1⟩
def F.LANE_PRBS_CTL_INJ (p : Nat) : Fld := ⟨R.LANE_PRBS_CTL p, 8, 1⟩
def F.LANE_PRBS_CTL_CLR (p : Nat) : Fld := ⟨R.LANE_PRBS_CTL p, 9, 1⟩
def R.LANE_PRBS_ERR (p : Nat) : Nat := 0x4078 + 0x400 * p
def R.LANE_PRBS_STAT (p : Nat) : Nat := 0x407C + 0x400 * p
def F.LANE_PRBS_STAT_LOCK (p : Nat) : Fld := ⟨R.LANE_PRBS_STAT p, 0, 1⟩
def F.LANE_PRBS_STAT_RELOCKS (p : Nat) : Fld := ⟨R.LANE_PRBS_STAT p, 8, 8⟩
def F.LANE_PRBS_STAT_INJ_CNT (p : Nat) : Fld := ⟨R.LANE_PRBS_STAT p, 16, 16⟩
def R.LANE_BOND (p : Nat) : Nat := 0x4080 + 0x400 * p
def F.LANE_BOND_SKEW (p : Nat) : Fld := ⟨R.LANE_BOND p, 0, 5⟩
def F.LANE_BOND_NODE (p : Nat) : Fld := ⟨R.LANE_BOND p, 8, 8⟩
def F.LANE_BOND_WHY (p : Nat) : Fld := ⟨R.LANE_BOND p, 16, 4⟩

/-! Page 0x18 TREE: R293, R294 (09_tree_frames.md). -/

def R.TREE_CTL (p : Nat) : Nat := 0x6040 + 0x400 * p
def F.TREE_CTL_LEXEC (p : Nat) : Fld := ⟨R.TREE_CTL p, 0, 3⟩
def F.TREE_CTL_REPEAT (p : Nat) : Fld := ⟨R.TREE_CTL p, 4, 1⟩
def F.TREE_CTL_IMG (p : Nat) : Fld := ⟨R.TREE_CTL p, 8, 1⟩
def R.TREE_STAT (p : Nat) : Nat := 0x6044 + 0x400 * p
def F.TREE_STAT_LEXEC_USE (p : Nat) : Fld := ⟨R.TREE_STAT p, 0, 3⟩
def F.TREE_STAT_REPEAT_USE (p : Nat) : Fld := ⟨R.TREE_STAT p, 4, 1⟩
def F.TREE_STAT_READY (p : Nat) : Fld := ⟨R.TREE_STAT p, 8, 1⟩
def F.TREE_STAT_LEN (p : Nat) : Fld := ⟨R.TREE_STAT p, 16, 11⟩
def R.TREE_ROUND_LO (p : Nat) : Nat := 0x6048 + 0x400 * p
def R.TREE_ROUND_HI (p : Nat) : Nat := 0x604C + 0x400 * p
def F.TREE_ROUND_HI_ROUND (p : Nat) : Fld := ⟨R.TREE_ROUND_HI p, 0, 16⟩
def R.TREE_FRAMES (p : Nat) : Nat := 0x6050 + 0x400 * p
def R.TREE_NOMAN (p : Nat) : Nat := 0x6054 + 0x400 * p
def R.TREE_RXOK (p : Nat) : Nat := 0x6058 + 0x400 * p
def R.TREE_RXERR (p : Nat) : Nat := 0x605C + 0x400 * p
def F.TREE_RXERR_CRC (p : Nat) : Fld := ⟨R.TREE_RXERR p, 0, 16⟩
def F.TREE_RXERR_TAG (p : Nat) : Fld := ⟨R.TREE_RXERR p, 16, 16⟩
def R.TREE_RXERR2 (p : Nat) : Nat := 0x6060 + 0x400 * p
def F.TREE_RXERR2_FORMAT (p : Nat) : Fld := ⟨R.TREE_RXERR2 p, 0, 16⟩
def F.TREE_RXERR2_CODE (p : Nat) : Fld := ⟨R.TREE_RXERR2 p, 16, 16⟩
def R.TREE_MQ (p : Nat) : Nat := 0x6064 + 0x400 * p
def F.TREE_MQ_QUEUED (p : Nat) : Fld := ⟨R.TREE_MQ p, 0, 7⟩
def F.TREE_MQ_OPEN (p : Nat) : Fld := ⟨R.TREE_MQ p, 8, 7⟩
def F.TREE_MQ_TIMEOUT (p : Nat) : Fld := ⟨R.TREE_MQ p, 16, 16⟩
def R.TREE_IMG (p : Nat) : Nat := 0x6068 + 0x400 * p
def F.TREE_IMG_PASSES (p : Nat) : Fld := ⟨R.TREE_IMG p, 0, 16⟩
def F.TREE_IMG_NEED (p : Nat) : Fld := ⟨R.TREE_IMG p, 16, 9⟩
def R.TREE_RA_CMD (p : Nat) : Nat := 0x6070 + 0x400 * p
def F.TREE_RA_CMD_BERTH (p : Nat) : Fld := ⟨R.TREE_RA_CMD p, 0, 8⟩
def F.TREE_RA_CMD_OP (p : Nat) : Fld := ⟨R.TREE_RA_CMD p, 8, 3⟩
def F.TREE_RA_CMD_NW (p : Nat) : Fld := ⟨R.TREE_RA_CMD p, 11, 4⟩
def F.TREE_RA_CMD_GO (p : Nat) : Fld := ⟨R.TREE_RA_CMD p, 15, 1⟩
def F.TREE_RA_CMD_ADDR (p : Nat) : Fld := ⟨R.TREE_RA_CMD p, 16, 16⟩
def R.TREE_RA_STAT (p : Nat) : Nat := 0x6074 + 0x400 * p
def F.TREE_RA_STAT_BUSY (p : Nat) : Fld := ⟨R.TREE_RA_STAT p, 0, 1⟩
def F.TREE_RA_STAT_CODE (p : Nat) : Fld := ⟨R.TREE_RA_STAT p, 8, 8⟩
def F.TREE_RA_STAT_INDEX (p : Nat) : Fld := ⟨R.TREE_RA_STAT p, 16, 4⟩
def F.TREE_RA_STAT_TID (p : Nat) : Fld := ⟨R.TREE_RA_STAT p, 24, 8⟩
def R.TREE_RA_MASK (p : Nat) : Nat := 0x6078 + 0x400 * p
def R.TREE_RA_DATA (p : Nat) (i : Nat) : Nat := 0x6080 + 0x400 * p + 0x4 * i
def R.TREE_CELL_CTL (p : Nat) : Nat := 0x6100 + 0x400 * p
def F.TREE_CELL_CTL_HLIM (p : Nat) : Fld := ⟨R.TREE_CELL_CTL p, 0, 9⟩
def R.TREE_CELL_STAT (p : Nat) : Nat := 0x6104 + 0x400 * p
def F.TREE_CELL_STAT_STATE (p : Nat) : Fld := ⟨R.TREE_CELL_STAT p, 0, 2⟩
def F.TREE_CELL_STAT_LEXEC (p : Nat) : Fld := ⟨R.TREE_CELL_STAT p, 4, 3⟩
def F.TREE_CELL_STAT_REPEAT (p : Nat) : Fld := ⟨R.TREE_CELL_STAT p, 7, 1⟩
def F.TREE_CELL_STAT_LANE (p : Nat) : Fld := ⟨R.TREE_CELL_STAT p, 8, 1⟩
def F.TREE_CELL_STAT_W (p : Nat) : Fld := ⟨R.TREE_CELL_STAT p, 16, 16⟩
def R.TREE_CELL_K_LO (p : Nat) : Nat := 0x6108 + 0x400 * p
def R.TREE_CELL_K_HI (p : Nat) : Nat := 0x610C + 0x400 * p
def R.TREE_CELL_DN (p : Nat) : Nat := 0x6110 + 0x400 * p
def F.TREE_CELL_DN_DLY (p : Nat) : Fld := ⟨R.TREE_CELL_DN p, 0, 24⟩
def R.TREE_CELL_UP (p : Nat) : Nat := 0x6114 + 0x400 * p
def F.TREE_CELL_UP_DLY (p : Nat) : Fld := ⟨R.TREE_CELL_UP p, 0, 24⟩
def R.TREE_CELL_SLOT (p : Nat) : Nat := 0x6118 + 0x400 * p
def F.TREE_CELL_SLOT_RSLOT (p : Nat) : Fld := ⟨R.TREE_CELL_SLOT p, 0, 8⟩
def F.TREE_CELL_SLOT_VALID (p : Nat) : Fld := ⟨R.TREE_CELL_SLOT p, 8, 1⟩
def F.TREE_CELL_SLOT_KILLED (p : Nat) : Fld := ⟨R.TREE_CELL_SLOT p, 9, 1⟩
def F.TREE_CELL_SLOT_GRANTS (p : Nat) : Fld := ⟨R.TREE_CELL_SLOT p, 16, 16⟩
def R.TREE_CELL_RX (p : Nat) : Nat := 0x611C + 0x400 * p
def F.TREE_CELL_RX_VALID (p : Nat) : Fld := ⟨R.TREE_CELL_RX p, 0, 16⟩
def F.TREE_CELL_RX_OBEYED (p : Nat) : Fld := ⟨R.TREE_CELL_RX p, 16, 16⟩
def R.TREE_CELL_ERR (p : Nat) : Nat := 0x6120 + 0x400 * p
def F.TREE_CELL_ERR_CODE (p : Nat) : Fld := ⟨R.TREE_CELL_ERR p, 0, 8⟩
def F.TREE_CELL_ERR_CRC (p : Nat) : Fld := ⟨R.TREE_CELL_ERR p, 8, 8⟩
def F.TREE_CELL_ERR_TAG (p : Nat) : Fld := ⟨R.TREE_CELL_ERR p, 16, 8⟩
def F.TREE_CELL_ERR_FORMAT (p : Nat) : Fld := ⟨R.TREE_CELL_ERR p, 24, 8⟩
def R.TREE_CELL_FENCE (p : Nat) : Nat := 0x6124 + 0x400 * p
def F.TREE_CELL_FENCE_FENCED (p : Nat) : Fld := ⟨R.TREE_CELL_FENCE p, 0, 16⟩
def F.TREE_CELL_FENCE_STALE (p : Nat) : Fld := ⟨R.TREE_CELL_FENCE p, 16, 8⟩
def F.TREE_CELL_FENCE_DUAL (p : Nat) : Fld := ⟨R.TREE_CELL_FENCE p, 24, 8⟩
def R.TREE_CELL_LOST (p : Nat) : Nat := 0x6128 + 0x400 * p
def R.TREE_CELL_EVCNT (p : Nat) : Nat := 0x612C + 0x400 * p
def F.TREE_CELL_EVCNT_LATE (p : Nat) : Fld := ⟨R.TREE_CELL_EVCNT p, 0, 8⟩
def F.TREE_CELL_EVCNT_REJECT (p : Nat) : Fld := ⟨R.TREE_CELL_EVCNT p, 8, 8⟩
def F.TREE_CELL_EVCNT_OVERFLOW (p : Nat) : Fld := ⟨R.TREE_CELL_EVCNT p, 16, 8⟩
def F.TREE_CELL_EVCNT_SUPERSEDED (p : Nat) : Fld := ⟨R.TREE_CELL_EVCNT p, 24, 4⟩
def F.TREE_CELL_EVCNT_SWAPERR (p : Nat) : Fld := ⟨R.TREE_CELL_EVCNT p, 28, 4⟩
def R.TREE_CELL_DUPS (p : Nat) : Nat := 0x6130 + 0x400 * p
def R.TREE_CELL_BMAP (p : Nat) : Nat := 0x6134 + 0x400 * p
def F.TREE_CELL_BMAP_CORR (p : Nat) : Fld := ⟨R.TREE_CELL_BMAP p, 0, 16⟩
def F.TREE_CELL_BMAP_MISMATCH (p : Nat) : Fld := ⟨R.TREE_CELL_BMAP p, 16, 16⟩
def R.TREE_CELL_MQ (p : Nat) : Nat := 0x6138 + 0x400 * p
def F.TREE_CELL_MQ_WAIT (p : Nat) : Fld := ⟨R.TREE_CELL_MQ p, 0, 3⟩
def F.TREE_CELL_MQ_DROP (p : Nat) : Fld := ⟨R.TREE_CELL_MQ p, 16, 16⟩
def R.TREE_CELL_REF (p : Nat) (i : Nat) : Nat := 0x6140 + 0x400 * p + 0x4 * i

/-! Page 0x1C BERTH: R327, R328 (10_tree_admission.md). -/

def R.BERTH_SEL : Nat := 0x7040
def F.BERTH_SEL_INDEX : Fld := ⟨R.BERTH_SEL, 0, 10⟩
def R.BERTH_CMD : Nat := 0x7044
def F.BERTH_CMD_RD : Fld := ⟨R.BERTH_CMD, 0, 1⟩
def F.BERTH_CMD_WR : Fld := ⟨R.BERTH_CMD, 1, 1⟩
def F.BERTH_CMD_CLRCNT : Fld := ⟨R.BERTH_CMD, 2, 1⟩
def R.BERTH_COUNT : Nat := 0x7048
def F.BERTH_COUNT_ASSIGNED : Fld := ⟨R.BERTH_COUNT, 0, 11⟩
def F.BERTH_COUNT_ADMITTED : Fld := ⟨R.BERTH_COUNT, 16, 11⟩
def R.BERTH_BOARD : Nat := 0x704C
def F.BERTH_BOARD_OPEN : Fld := ⟨R.BERTH_BOARD, 0, 4⟩
def F.BERTH_BOARD_AUTO : Fld := ⟨R.BERTH_BOARD, 8, 1⟩
def F.BERTH_BOARD_LEFT : Fld := ⟨R.BERTH_BOARD, 16, 16⟩
def R.BERTH_BWIN : Nat := 0x7050
def F.BERTH_BWIN_SEC : Fld := ⟨R.BERTH_BWIN, 0, 12⟩
def R.BERTH_ZONE : Nat := 0x7054
def F.BERTH_ZONE_Z0 : Fld := ⟨R.BERTH_ZONE, 0, 5⟩
def F.BERTH_ZONE_Z1 : Fld := ⟨R.BERTH_ZONE, 8, 5⟩
def F.BERTH_ZONE_Z2 : Fld := ⟨R.BERTH_ZONE, 16, 5⟩
def F.BERTH_ZONE_Z3 : Fld := ⟨R.BERTH_ZONE, 24, 5⟩
def R.BERTH_CFG : Nat := 0x7058
def F.BERTH_CFG_SILENT_R : Fld := ⟨R.BERTH_CFG, 0, 8⟩
def F.BERTH_CFG_RTRY : Fld := ⟨R.BERTH_CFG, 8, 4⟩
def F.BERTH_CFG_PROVMAX : Fld := ⟨R.BERTH_CFG, 12, 4⟩
def F.BERTH_CFG_BEXP : Fld := ⟨R.BERTH_CFG, 16, 4⟩
def F.BERTH_CFG_LTHR : Fld := ⟨R.BERTH_CFG, 20, 4⟩
def F.BERTH_CFG_AUTO : Fld := ⟨R.BERTH_CFG, 24, 1⟩
def F.BERTH_CFG_DRIFTLIM : Fld := ⟨R.BERTH_CFG, 25, 4⟩
def R.BERTH_PORTARM : Nat := 0x705C
def F.BERTH_PORTARM_ARM : Fld := ⟨R.BERTH_PORTARM, 0, 4⟩
def R.BERTH_RTTNOM (i : Nat) : Nat := 0x7060 + 0x4 * i
def F.BERTH_RTTNOM_RTT (i : Nat) : Fld := ⟨R.BERTH_RTTNOM i, 0, 24⟩
def R.BERTH_STR (i : Nat) : Nat := 0x7070 + 0x4 * i
def F.BERTH_STR_UNKNOWN (i : Nat) : Fld := ⟨R.BERTH_STR i, 0, 16⟩
def F.BERTH_STR_SLOT (i : Nat) : Fld := ⟨R.BERTH_STR i, 16, 8⟩
def F.BERTH_STR_DUPID (i : Nat) : Fld := ⟨R.BERTH_STR i, 24, 8⟩
def R.BERTH_BRD (i : Nat) : Nat := 0x7080 + 0x4 * i
def F.BERTH_BRD_COLL (i : Nat) : Fld := ⟨R.BERTH_BRD i, 0, 16⟩
def F.BERTH_BRD_REFUSED (i : Nat) : Fld := ⟨R.BERTH_BRD i, 16, 8⟩
def F.BERTH_BRD_FAILED (i : Nat) : Fld := ⟨R.BERTH_BRD i, 24, 8⟩
def R.BERTH_LIGHT (i : Nat) : Nat := 0x7090 + 0x4 * i
def F.BERTH_LIGHT_ROUNDS (i : Nat) : Fld := ⟨R.BERTH_LIGHT i, 0, 16⟩
def F.BERTH_LIGHT_SEARCHES (i : Nat) : Fld := ⟨R.BERTH_LIGHT i, 16, 8⟩
def F.BERTH_LIGHT_LIGHT (i : Nat) : Fld := ⟨R.BERTH_LIGHT i, 24, 1⟩
def R.BERTH_SRCH (i : Nat) : Nat := 0x70A0 + 0x4 * i
def F.BERTH_SRCH_GO (i : Nat) : Fld := ⟨R.BERTH_SRCH i, 0, 1⟩
def F.BERTH_SRCH_RUN (i : Nat) : Fld := ⟨R.BERTH_SRCH i, 1, 1⟩
def F.BERTH_SRCH_RESULT (i : Nat) : Fld := ⟨R.BERTH_SRCH i, 4, 2⟩
def F.BERTH_SRCH_STEP (i : Nat) : Fld := ⟨R.BERTH_SRCH i, 8, 4⟩
def F.BERTH_SRCH_BERTH (i : Nat) : Fld := ⟨R.BERTH_SRCH i, 16, 8⟩
def R.BERTH_E (i : Nat) : Nat := 0x70C0 + 0x4 * i

/-! Page 0x20 CTL: R419, R420 (13_control_engine.md). -/

def R.CTL_CFG : Nat := 0x8040
def F.CTL_CFG_TRIG : Fld := ⟨R.CTL_CFG, 0, 1⟩
def R.CTL_BASE : Nat := 0x8044
def F.CTL_BASE_BASE : Fld := ⟨R.CTL_BASE, 0, 32⟩
def R.CTL_STAT : Nat := 0x8048
def F.CTL_STAT_ACT : Fld := ⟨R.CTL_STAT, 0, 1⟩
def F.CTL_STAT_VALA : Fld := ⟨R.CTL_STAT, 4, 1⟩
def F.CTL_STAT_VALB : Fld := ⟨R.CTL_STAT, 5, 1⟩
def F.CTL_STAT_HO : Fld := ⟨R.CTL_STAT, 8, 2⟩
def F.CTL_STAT_INVALID : Fld := ⟨R.CTL_STAT, 12, 1⟩
def R.CTL_PGM_CMD : Nat := 0x804C
def F.CTL_PGM_CMD_LOAD : Fld := ⟨R.CTL_PGM_CMD, 0, 1⟩
def F.CTL_PGM_CMD_SLOT : Fld := ⟨R.CTL_PGM_CMD, 4, 1⟩
def R.CTL_PGM_STAT (i : Nat) : Nat := 0x8050 + 0x4 * i
def F.CTL_PGM_STAT_VALID (i : Nat) : Fld := ⟨R.CTL_PGM_STAT i, 0, 1⟩
def F.CTL_PGM_STAT_BUSY (i : Nat) : Fld := ⟨R.CTL_PGM_STAT i, 1, 1⟩
def F.CTL_PGM_STAT_WHY (i : Nat) : Fld := ⟨R.CTL_PGM_STAT i, 4, 4⟩
def F.CTL_PGM_STAT_NCH (i : Nat) : Fld := ⟨R.CTL_PGM_STAT i, 8, 7⟩
def F.CTL_PGM_STAT_NSEC (i : Nat) : Fld := ⟨R.CTL_PGM_STAT i, 16, 10⟩
def R.CTL_HO_CTL : Nat := 0x8058
def F.CTL_HO_CTL_SLOT : Fld := ⟨R.CTL_HO_CTL, 0, 1⟩
def F.CTL_HO_CTL_AT : Fld := ⟨R.CTL_HO_CTL, 1, 1⟩
def F.CTL_HO_CTL_NB : Fld := ⟨R.CTL_HO_CTL, 8, 7⟩
def F.CTL_HO_CTL_GO : Fld := ⟨R.CTL_HO_CTL, 30, 1⟩
def F.CTL_HO_CTL_ABORT : Fld := ⟨R.CTL_HO_CTL, 31, 1⟩
def R.CTL_HO_CYC_LO : Nat := 0x805C
def R.CTL_HO_CYC_HI : Nat := 0x8060
def F.CTL_HO_CYC_HI_CYC : Fld := ⟨R.CTL_HO_CYC_HI, 0, 16⟩
def R.CTL_HO_TOL : Nat := 0x8064
def F.CTL_HO_TOL_TOL : Fld := ⟨R.CTL_HO_TOL, 0, 32⟩
def R.CTL_HO_STAT : Nat := 0x8068
def F.CTL_HO_STAT_STATE : Fld := ⟨R.CTL_HO_STAT, 0, 2⟩
def F.CTL_HO_STAT_C : Fld := ⟨R.CTL_HO_STAT, 8, 7⟩
def F.CTL_HO_STAT_LAST : Fld := ⟨R.CTL_HO_STAT, 16, 2⟩
def F.CTL_HO_STAT_NBC : Fld := ⟨R.CTL_HO_STAT, 24, 8⟩
def R.CTL_LAT : Nat := 0x806C
def F.CTL_LAT_LAST : Fld := ⟨R.CTL_LAT, 0, 16⟩
def F.CTL_LAT_WORST : Fld := ⟨R.CTL_LAT, 16, 16⟩
def R.CTL_CNT : Nat := 0x8070
def F.CTL_CNT_NAN : Fld := ⟨R.CTL_CNT, 0, 8⟩
def F.CTL_CNT_OVF : Fld := ⟨R.CTL_CNT, 8, 8⟩
def F.CTL_CNT_POISON : Fld := ⟨R.CTL_CNT, 16, 8⟩
def F.CTL_CNT_WPROT : Fld := ⟨R.CTL_CNT, 24, 8⟩
def R.CTL_SIGIDX : Nat := 0x8074
def F.CTL_SIGIDX_INDEX : Fld := ⟨R.CTL_SIGIDX, 0, 8⟩
def R.CTL_SIGDATA : Nat := 0x8078
def F.CTL_SIGDATA_DATA : Fld := ⟨R.CTL_SIGDATA, 0, 32⟩
def R.CTL_SIGQ : Nat := 0x807C
def F.CTL_SIGQ_LEVEL : Fld := ⟨R.CTL_SIGQ, 0, 5⟩
def F.CTL_SIGQ_DROP : Fld := ⟨R.CTL_SIGQ, 16, 16⟩
def R.CTL_ANGSIG : Nat := 0x8080
def F.CTL_ANGSIG_ANG : Fld := ⟨R.CTL_ANGSIG, 0, 8⟩
def F.CTL_ANGSIG_FRQ : Fld := ⟨R.CTL_ANGSIG, 8, 8⟩
def F.CTL_ANGSIG_ANGEN : Fld := ⟨R.CTL_ANGSIG, 16, 1⟩
def F.CTL_ANGSIG_FRQEN : Fld := ⟨R.CTL_ANGSIG, 17, 1⟩
def R.CTL_HOCNT : Nat := 0x8084
def F.CTL_HOCNT_HANDOVERS : Fld := ⟨R.CTL_HOCNT, 0, 16⟩
def F.CTL_HOCNT_BACKCALCS : Fld := ⟨R.CTL_HOCNT, 16, 16⟩

/-! Page 0x21 CHAIN: R421, R422 (13_control_engine.md). -/

def R.CHAIN_SEL : Nat := 0x8440
def F.CHAIN_SEL_SEC : Fld := ⟨R.CHAIN_SEL, 0, 9⟩
def F.CHAIN_SEL_BANK : Fld := ⟨R.CHAIN_SEL, 12, 3⟩
def F.CHAIN_SEL_FIELD : Fld := ⟨R.CHAIN_SEL, 16, 4⟩
def F.CHAIN_SEL_SLOT : Fld := ⟨R.CHAIN_SEL, 24, 1⟩
def R.CHAIN_DLO : Nat := 0x8444
def R.CHAIN_DHI : Nat := 0x8448
def R.CHAIN_CMD : Nat := 0x844C
def F.CHAIN_CMD_RD : Fld := ⟨R.CHAIN_CMD, 0, 1⟩
def R.CHAIN_RLO : Nat := 0x8450
def R.CHAIN_RHI : Nat := 0x8454
def R.CHAIN_QSTAT : Nat := 0x8458
def F.CHAIN_QSTAT_LEVEL : Fld := ⟨R.CHAIN_QSTAT, 0, 7⟩
def F.CHAIN_QSTAT_DROP : Fld := ⟨R.CHAIN_QSTAT, 16, 8⟩
def F.CHAIN_QSTAT_REJ : Fld := ⟨R.CHAIN_QSTAT, 24, 8⟩
def R.CHAIN_CTL (i : Nat) : Nat := 0x8500 + 0x4 * i
def F.CHAIN_CTL_FEN (i : Nat) : Fld := ⟨R.CHAIN_CTL i, 0, 1⟩
def F.CHAIN_CTL_FBANK (i : Nat) : Fld := ⟨R.CHAIN_CTL i, 4, 3⟩
def F.CHAIN_CTL_HOLD (i : Nat) : Fld := ⟨R.CHAIN_CTL i, 8, 1⟩
def F.CHAIN_CTL_RST (i : Nat) : Fld := ⟨R.CHAIN_CTL i, 12, 1⟩
def R.CHAIN_STAT (i : Nat) : Nat := 0x8600 + 0x4 * i
def F.CHAIN_STAT_BANK (i : Nat) : Fld := ⟨R.CHAIN_STAT i, 0, 3⟩
def F.CHAIN_STAT_REGION (i : Nat) : Fld := ⟨R.CHAIN_STAT i, 4, 3⟩
def F.CHAIN_STAT_CLAMPED (i : Nat) : Fld := ⟨R.CHAIN_STAT i, 8, 1⟩
def F.CHAIN_STAT_HELD (i : Nat) : Fld := ⟨R.CHAIN_STAT i, 9, 1⟩
def F.CHAIN_STAT_CLAMPS (i : Nat) : Fld := ⟨R.CHAIN_STAT i, 16, 16⟩

/-! Page 0x22 SCHD: R423, R424 (13_control_engine.md). -/

def R.SCHD_CFG (i : Nat) : Nat := 0x8840 + 0x40 * i
def F.SCHD_CFG_SIG (i : Nat) : Fld := ⟨R.SCHD_CFG i, 0, 8⟩
def F.SCHD_CFG_NREG (i : Nat) : Fld := ⟨R.SCHD_CFG i, 8, 3⟩
def F.SCHD_CFG_EN (i : Nat) : Fld := ⟨R.SCHD_CFG i, 12, 1⟩
def R.SCHD_HYS (i : Nat) : Nat := 0x8844 + 0x40 * i
def F.SCHD_HYS_H (i : Nat) : Fld := ⟨R.SCHD_HYS i, 0, 32⟩
def R.SCHD_THR (i : Nat) (j : Nat) : Nat := 0x8848 + 0x40 * i + 0x4 * j
def F.SCHD_THR_T (i : Nat) (j : Nat) : Fld := ⟨R.SCHD_THR i j, 0, 32⟩
def R.SCHD_STAT (i : Nat) : Nat := 0x8864 + 0x40 * i
def F.SCHD_STAT_REGION (i : Nat) : Fld := ⟨R.SCHD_STAT i, 0, 3⟩
def F.SCHD_STAT_ERRCFG (i : Nat) : Fld := ⟨R.SCHD_STAT i, 4, 1⟩
def F.SCHD_STAT_NANS (i : Nat) : Fld := ⟨R.SCHD_STAT i, 8, 8⟩
def F.SCHD_STAT_CHANGES (i : Nat) : Fld := ⟨R.SCHD_STAT i, 16, 16⟩

/-! Page 0x23 RCU: R454, R455 (14_compensation_supervision.md). -/

def R.RCU_BASE : Nat := 0x8C40
def F.RCU_BASE_BASE : Fld := ⟨R.RCU_BASE, 0, 32⟩
def R.RCU_STAT : Nat := 0x8C44
def F.RCU_STAT_OVLP : Fld := ⟨R.RCU_STAT, 0, 1⟩
def F.RCU_STAT_CLR : Fld := ⟨R.RCU_STAT, 16, 16⟩
def R.RCU_CMD : Nat := 0x8C48
def F.RCU_CMD_UNIT : Fld := ⟨R.RCU_CMD, 0, 4⟩
def F.RCU_CMD_CLR : Fld := ⟨R.RCU_CMD, 8, 1⟩
def R.RCU_CFG (i : Nat) : Nat := 0x8C80 + 0x20 * i
def F.RCU_CFG_NPTS (i : Nat) : Fld := ⟨R.RCU_CFG i, 0, 3⟩
def F.RCU_CFG_SMOOTH (i : Nat) : Fld := ⟨R.RCU_CFG i, 4, 1⟩
def F.RCU_CFG_LMODE (i : Nat) : Fld := ⟨R.RCU_CFG i, 5, 1⟩
def F.RCU_CFG_CLAMPFRZ (i : Nat) : Fld := ⟨R.RCU_CFG i, 6, 1⟩
def F.RCU_CFG_ENLRN (i : Nat) : Fld := ⟨R.RCU_CFG i, 8, 1⟩
def F.RCU_CFG_ENOUT (i : Nat) : Fld := ⟨R.RCU_CFG i, 9, 1⟩
def F.RCU_CFG_F (i : Nat) : Fld := ⟨R.RCU_CFG i, 16, 5⟩
def R.RCU_KL (i : Nat) : Nat := 0x8C84 + 0x20 * i
def F.RCU_KL_KL (i : Nat) : Fld := ⟨R.RCU_KL i, 0, 32⟩
def R.RCU_LEAD (i : Nat) : Nat := 0x8C88 + 0x20 * i
def F.RCU_LEAD_LEAD (i : Nat) : Fld := ⟨R.RCU_LEAD i, 0, 12⟩
def F.RCU_LEAD_JTOL (i : Nat) : Fld := ⟨R.RCU_LEAD i, 12, 4⟩
def F.RCU_LEAD_LEADNS (i : Nat) : Fld := ⟨R.RCU_LEAD i, 16, 16⟩
def R.RCU_TLIM (i : Nat) : Nat := 0x8C8C + 0x20 * i
def F.RCU_TLIM_TLIM (i : Nat) : Fld := ⟨R.RCU_TLIM i, 0, 32⟩
def R.RCU_USTAT (i : Nat) : Nat := 0x8C90 + 0x20 * i
def F.RCU_USTAT_WHY (i : Nat) : Fld := ⟨R.RCU_USTAT i, 0, 5⟩
def F.RCU_USTAT_IDX (i : Nat) : Fld := ⟨R.RCU_USTAT i, 16, 12⟩
def R.RCU_CNT (i : Nat) : Nat := 0x8C94 + 0x20 * i
def F.RCU_CNT_JUMPS (i : Nat) : Fld := ⟨R.RCU_CNT i, 0, 16⟩
def F.RCU_CNT_CLAMPS (i : Nat) : Fld := ⟨R.RCU_CNT i, 16, 8⟩
def F.RCU_CNT_LINKDUP (i : Nat) : Fld := ⟨R.RCU_CNT i, 24, 8⟩
def R.RCU_OUT (i : Nat) : Nat := 0x8C98 + 0x20 * i

/-! Page 0x24 ANG: R456, R457 (14_compensation_supervision.md). -/

def R.ANG_COPY : Nat := 0x9040
def F.ANG_COPY_COPY : Fld := ⟨R.ANG_COPY, 0, 8⟩
def R.ANG_CNT : Nat := 0x9044
def F.ANG_CNT_TNAN : Fld := ⟨R.ANG_CNT, 0, 16⟩
def F.ANG_CNT_GNAN : Fld := ⟨R.ANG_CNT, 16, 16⟩
def R.ANG_CFG (i : Nat) : Nat := 0x9080 + 0x10 * i
def F.ANG_CFG_H (i : Nat) : Fld := ⟨R.ANG_CFG i, 0, 6⟩
def F.ANG_CFG_GSEL (i : Nat) : Fld := ⟨R.ANG_CFG i, 8, 1⟩
def F.ANG_CFG_GIDX (i : Nat) : Fld := ⟨R.ANG_CFG i, 16, 8⟩
def R.ANG_PHI (i : Nat) : Nat := 0x9084 + 0x10 * i
def F.ANG_PHI_PHI (i : Nat) : Fld := ⟨R.ANG_PHI i, 0, 32⟩
def R.ANG_GAIN (i : Nat) : Nat := 0x9088 + 0x10 * i
def F.ANG_GAIN_GAIN (i : Nat) : Fld := ⟨R.ANG_GAIN i, 0, 32⟩
def R.ANG_OUT (i : Nat) : Nat := 0x908C + 0x10 * i

/-! Page 0x25 SUP: R458, R459 (14_compensation_supervision.md). -/

def R.SUP_RSTAT : Nat := 0x9440
def F.SUP_RSTAT_ACTIVE : Fld := ⟨R.SUP_RSTAT, 0, 16⟩
def F.SUP_RSTAT_NANS : Fld := ⟨R.SUP_RSTAT, 16, 16⟩
def R.SUP_FESEL : Nat := 0x9444
def F.SUP_FESEL_CHAIN : Fld := ⟨R.SUP_FESEL, 0, 6⟩
def R.SUP_FECFG : Nat := 0x9448
def F.SUP_FECFG_EN : Fld := ⟨R.SUP_FECFG, 0, 1⟩
def F.SUP_FECFG_ACT : Fld := ⟨R.SUP_FECFG, 4, 2⟩
def F.SUP_FECFG_TIME : Fld := ⟨R.SUP_FECFG, 16, 16⟩
def R.SUP_FELIM : Nat := 0x944C
def R.SUP_FEHYS : Nat := 0x9450
def R.SUP_FESTAT : Nat := 0x9454
def F.SUP_FESTAT_TRIPPED : Fld := ⟨R.SUP_FESTAT, 0, 1⟩
def F.SUP_FESTAT_ABOVE : Fld := ⟨R.SUP_FESTAT, 1, 1⟩
def F.SUP_FESTAT_TRIPS : Fld := ⟨R.SUP_FESTAT, 8, 8⟩
def F.SUP_FESTAT_TIMER : Fld := ⟨R.SUP_FESTAT, 16, 16⟩
def R.SUP_FEACT0 : Nat := 0x9458
def R.SUP_FEACT1 : Nat := 0x945C
def R.SUP_RCFG (i : Nat) : Nat := 0x9480 + 0x10 * i
def F.SUP_RCFG_IN (i : Nat) : Fld := ⟨R.SUP_RCFG i, 0, 8⟩
def F.SUP_RCFG_OUT (i : Nat) : Fld := ⟨R.SUP_RCFG i, 8, 8⟩
def F.SUP_RCFG_EN (i : Nat) : Fld := ⟨R.SUP_RCFG i, 16, 1⟩
def F.SUP_RCFG_HOLD (i : Nat) : Fld := ⟨R.SUP_RCFG i, 17, 1⟩
def F.SUP_RCFG_SRC (i : Nat) : Fld := ⟨R.SUP_RCFG i, 18, 1⟩
def F.SUP_RCFG_INIT (i : Nat) : Fld := ⟨R.SUP_RCFG i, 19, 1⟩
def R.SUP_RUP (i : Nat) : Nat := 0x9484 + 0x10 * i
def R.SUP_RDN (i : Nat) : Nat := 0x9488 + 0x10 * i
def R.SUP_RINIT (i : Nat) : Nat := 0x948C + 0x10 * i
def R.SUP_ICTL (i : Nat) : Nat := 0x9580 + 0x40 * i
def F.SUP_ICTL_TYPE (i : Nat) : Fld := ⟨R.SUP_ICTL i, 0, 2⟩
def F.SUP_ICTL_POINT (i : Nat) : Fld := ⟨R.SUP_ICTL i, 2, 1⟩
def F.SUP_ICTL_AT (i : Nat) : Fld := ⟨R.SUP_ICTL i, 3, 1⟩
def F.SUP_ICTL_FEINH (i : Nat) : Fld := ⟨R.SUP_ICTL i, 4, 1⟩
def F.SUP_ICTL_MONEN (i : Nat) : Fld := ⟨R.SUP_ICTL i, 5, 1⟩
def F.SUP_ICTL_CHAIN (i : Nat) : Fld := ⟨R.SUP_ICTL i, 8, 6⟩
def F.SUP_ICTL_MON (i : Nat) : Fld := ⟨R.SUP_ICTL i, 16, 8⟩
def F.SUP_ICTL_STOP (i : Nat) : Fld := ⟨R.SUP_ICTL i, 30, 1⟩
def F.SUP_ICTL_GO (i : Nat) : Fld := ⟨R.SUP_ICTL i, 31, 1⟩
def R.SUP_IAMP (i : Nat) : Nat := 0x9584 + 0x40 * i
def R.SUP_IF0 (i : Nat) : Nat := 0x9588 + 0x40 * i
def R.SUP_IF1 (i : Nat) : Nat := 0x958C + 0x40 * i
def R.SUP_IDUR (i : Nat) : Nat := 0x9590 + 0x40 * i
def F.SUP_IDUR_DUR (i : Nat) : Fld := ⟨R.SUP_IDUR i, 0, 32⟩
def R.SUP_IPRBS (i : Nat) : Nat := 0x9594 + 0x40 * i
def F.SUP_IPRBS_NPRBS (i : Nat) : Fld := ⟨R.SUP_IPRBS i, 0, 4⟩
def F.SUP_IPRBS_BITLEN (i : Nat) : Fld := ⟨R.SUP_IPRBS i, 8, 8⟩
def R.SUP_IPHI (i : Nat) : Nat := 0x9598 + 0x40 * i
def R.SUP_ICYC_LO (i : Nat) : Nat := 0x959C + 0x40 * i
def R.SUP_ICYC_HI (i : Nat) : Nat := 0x95A0 + 0x40 * i
def R.SUP_ISTAT (i : Nat) : Nat := 0x95A4 + 0x40 * i
def F.SUP_ISTAT_RUN (i : Nat) : Fld := ⟨R.SUP_ISTAT i, 0, 1⟩
def F.SUP_ISTAT_DONE (i : Nat) : Fld := ⟨R.SUP_ISTAT i, 8, 24⟩
def R.SUP_FRCTL : Nat := 0x9600
def F.SUP_FRCTL_INJ : Fld := ⟨R.SUP_FRCTL, 0, 1⟩
def F.SUP_FRCTL_NPT : Fld := ⟨R.SUP_FRCTL, 4, 4⟩
def F.SUP_FRCTL_UIDX : Fld := ⟨R.SUP_FRCTL, 8, 8⟩
def F.SUP_FRCTL_YIDX : Fld := ⟨R.SUP_FRCTL, 16, 8⟩
def F.SUP_FRCTL_GO : Fld := ⟨R.SUP_FRCTL, 31, 1⟩
def R.SUP_FRSET : Nat := 0x9604
def F.SUP_FRSET_SETTLE : Fld := ⟨R.SUP_FRSET, 0, 16⟩
def F.SUP_FRSET_P : Fld := ⟨R.SUP_FRSET, 16, 8⟩
def R.SUP_FRSTAT : Nat := 0x9608
def F.SUP_FRSTAT_BUSY : Fld := ⟨R.SUP_FRSTAT, 0, 1⟩
def F.SUP_FRSTAT_DONE : Fld := ⟨R.SUP_FRSTAT, 1, 1⟩
def F.SUP_FRSTAT_POINT : Fld := ⟨R.SUP_FRSTAT, 4, 4⟩
def R.SUP_FRSEL : Nat := 0x960C
def F.SUP_FRSEL_POINT : Fld := ⟨R.SUP_FRSEL, 0, 4⟩
def R.SUP_FRR (i : Nat) : Nat := 0x9620 + 0x4 * i
def R.SUP_FRQ (i : Nat) : Nat := 0x9680 + 0x4 * i

/-! Page 0x26 MOD: R365, R366 (11_modulation_edges.md). -/

def R.MOD_MODE : Nat := 0x9840
def F.MOD_MODE_MODE : Fld := ⟨R.MOD_MODE, 0, 2⟩
def F.MOD_MODE_NEXT : Fld := ⟨R.MOD_MODE, 4, 2⟩
def F.MOD_MODE_PEND : Fld := ⟨R.MOD_MODE, 8, 1⟩
def R.MOD_MSW_LO : Nat := 0x9844
def F.MOD_MSW_LO_TARGET : Fld := ⟨R.MOD_MSW_LO, 0, 32⟩
def R.MOD_MSW_HI : Nat := 0x9848
def F.MOD_MSW_HI_TARGET : Fld := ⟨R.MOD_MSW_HI, 0, 16⟩
def F.MOD_MSW_HI_NEWMODE : Fld := ⟨R.MOD_MSW_HI, 16, 2⟩
def F.MOD_MSW_HI_CRST : Fld := ⟨R.MOD_MSW_HI, 20, 1⟩
def F.MOD_MSW_HI_GO : Fld := ⟨R.MOD_MSW_HI, 31, 1⟩
def R.MOD_CEPOCH : Nat := 0x984C
def F.MOD_CEPOCH_CEPOCH : Fld := ⟨R.MOD_CEPOCH, 0, 32⟩
def R.MOD_PROF : Nat := 0x9850
def F.MOD_PROF_PROF : Fld := ⟨R.MOD_PROF, 0, 2⟩
def F.MOD_PROF_RATE : Fld := ⟨R.MOD_PROF, 4, 1⟩
def F.MOD_PROF_REP : Fld := ⟨R.MOD_PROF, 5, 1⟩
def F.MOD_PROF_MISMATCH : Fld := ⟨R.MOD_PROF, 8, 4⟩
def F.MOD_PROF_CAP : Fld := ⟨R.MOD_PROF, 16, 11⟩
def R.MOD_PROF_REJ : Nat := 0x9854
def F.MOD_PROF_REJ_WHY : Fld := ⟨R.MOD_PROF_REJ, 0, 4⟩
def F.MOD_PROF_REJ_COUNT : Fld := ⟨R.MOD_PROF_REJ, 16, 16⟩
def R.MOD_LEAD : Nat := 0x9858
def F.MOD_LEAD_LMIN : Fld := ⟨R.MOD_LEAD, 0, 4⟩
def F.MOD_LEAD_SHORT : Fld := ⟨R.MOD_LEAD, 4, 1⟩
def F.MOD_LEAD_DDMAX : Fld := ⟨R.MOD_LEAD, 8, 24⟩
def R.MOD_EDGE : Nat := 0x985C
def F.MOD_EDGE_STAG : Fld := ⟨R.MOD_EDGE, 0, 12⟩
def F.MOD_EDGE_STAGSW : Fld := ⟨R.MOD_EDGE, 16, 12⟩
def R.MOD_OFS : Nat := 0x9860
def F.MOD_OFS_OFS0 : Fld := ⟨R.MOD_OFS, 0, 12⟩
def F.MOD_OFS_TAIL : Fld := ⟨R.MOD_OFS, 16, 12⟩
def R.MOD_BUDGET : Nat := 0x9864
def F.MOD_BUDGET_NEWMAX : Fld := ⟨R.MOD_BUDGET, 0, 8⟩
def R.MOD_TRIM : Nat := 0x9868
def F.MOD_TRIM_WMIN : Fld := ⟨R.MOD_TRIM, 0, 13⟩
def F.MOD_TRIM_ALIGN : Fld := ⟨R.MOD_TRIM, 16, 2⟩
def F.MOD_TRIM_TLIM : Fld := ⟨R.MOD_TRIM, 24, 8⟩
def R.MOD_TRIM_ROT : Nat := 0x986C
def F.MOD_TRIM_ROT_ROT : Fld := ⟨R.MOD_TRIM_ROT, 0, 16⟩
def R.MOD_DL_CFG : Nat := 0x9870
def F.MOD_DL_CFG_MISSLIM : Fld := ⟨R.MOD_DL_CFG, 0, 8⟩
def F.MOD_DL_CFG_ACT : Fld := ⟨R.MOD_DL_CFG, 8, 2⟩
def F.MOD_DL_CFG_RUN : Fld := ⟨R.MOD_DL_CFG, 16, 8⟩
def R.MOD_DL_CNT : Nat := 0x9874
def F.MOD_DL_CNT_MISS : Fld := ⟨R.MOD_DL_CNT, 0, 16⟩
def F.MOD_DL_CNT_SKIP : Fld := ⟨R.MOD_DL_CNT, 16, 16⟩
def R.MOD_DL_T : Nat := 0x9878
def F.MOD_DL_T_LAST : Fld := ⟨R.MOD_DL_T, 0, 16⟩
def F.MOD_DL_T_WORST : Fld := ⟨R.MOD_DL_T, 16, 16⟩
def R.MOD_PCMD : Nat := 0x987C
def F.MOD_PCMD_BERTH : Fld := ⟨R.MOD_PCMD, 0, 10⟩
def F.MOD_PCMD_ACTION : Fld := ⟨R.MOD_PCMD, 10, 4⟩
def F.MOD_PCMD_BUSY : Fld := ⟨R.MOD_PCMD, 30, 1⟩
def F.MOD_PCMD_GO : Fld := ⟨R.MOD_PCMD, 31, 1⟩
def R.MOD_ARM_SIG (i : Nat) : Nat := 0x9880 + 0x20 * i
def F.MOD_ARM_SIG_REF (i : Nat) : Fld := ⟨R.MOD_ARM_SIG i, 0, 8⟩
def F.MOD_ARM_SIG_OUT (i : Nat) : Fld := ⟨R.MOD_ARM_SIG i, 8, 8⟩
def F.MOD_ARM_SIG_OUTEN (i : Nat) : Fld := ⟨R.MOD_ARM_SIG i, 16, 1⟩
def R.MOD_ARM_LVL (i : Nat) : Nat := 0x9884 + 0x20 * i
def F.MOD_ARM_LVL_HYST (i : Nat) : Fld := ⟨R.MOD_ARM_LVL i, 0, 6⟩
def F.MOD_ARM_LVL_DNMAX (i : Nat) : Fld := ⟨R.MOD_ARM_LVL i, 8, 8⟩
def R.MOD_ARM_STAT (i : Nat) : Nat := 0x9888 + 0x20 * i
def F.MOD_ARM_STAT_N (i : Nat) : Fld := ⟨R.MOD_ARM_STAT i, 0, 11⟩
def F.MOD_ARM_STAT_NAVAIL (i : Nat) : Fld := ⟨R.MOD_ARM_STAT i, 16, 11⟩
def R.MOD_ARM_TRIM (i : Nat) : Nat := 0x988C + 0x20 * i
def F.MOD_ARM_TRIM_BERTH (i : Nat) : Fld := ⟨R.MOD_ARM_TRIM i, 0, 10⟩
def F.MOD_ARM_TRIM_VALID (i : Nat) : Fld := ⟨R.MOD_ARM_TRIM i, 15, 1⟩
def F.MOD_ARM_TRIM_ROTS (i : Nat) : Fld := ⟨R.MOD_ARM_TRIM i, 16, 16⟩
def R.MOD_ARM_CNT (i : Nat) : Nat := 0x9890 + 0x20 * i
def F.MOD_ARM_CNT_CLAMP (i : Nat) : Fld := ⟨R.MOD_ARM_CNT i, 0, 8⟩
def F.MOD_ARM_CNT_DEFER (i : Nat) : Fld := ⟨R.MOD_ARM_CNT i, 8, 8⟩
def F.MOD_ARM_CNT_PORTFULL (i : Nat) : Fld := ⟨R.MOD_ARM_CNT i, 16, 8⟩
def F.MOD_ARM_CNT_STAGCOMP (i : Nat) : Fld := ⟨R.MOD_ARM_CNT i, 24, 8⟩
def R.MOD_ARM_NSTAR (i : Nat) : Nat := 0x9894 + 0x20 * i
def F.MOD_ARM_NSTAR_NSTAR (i : Nat) : Fld := ⟨R.MOD_ARM_NSTAR i, 0, 32⟩
def R.MOD_CELL_CFG : Nat := 0x9A00
def F.MOD_CELL_CFG_MODE : Fld := ⟨R.MOD_CELL_CFG, 0, 1⟩
def F.MOD_CELL_CFG_ARM : Fld := ⟨R.MOD_CELL_CFG, 4, 1⟩
def F.MOD_CELL_CFG_LAW : Fld := ⟨R.MOD_CELL_CFG, 8, 1⟩
def R.MOD_CELL_CAR : Nat := 0x9A04
def F.MOD_CELL_CAR_PER : Fld := ⟨R.MOD_CELL_CAR, 0, 16⟩
def F.MOD_CELL_CAR_CIDX : Fld := ⟨R.MOD_CELL_CAR, 16, 10⟩
def R.MOD_CELL_NCAR : Nat := 0x9A08
def F.MOD_CELL_NCAR_NCAR : Fld := ⟨R.MOD_CELL_NCAR, 0, 11⟩
def R.MOD_CELL_BAL : Nat := 0x9A0C
def F.MOD_CELL_BAL_G : Fld := ⟨R.MOD_CELL_BAL, 0, 16⟩
def F.MOD_CELL_BAL_DMAX : Fld := ⟨R.MOD_CELL_BAL, 16, 8⟩
def F.MOD_CELL_BAL_SIGI : Fld := ⟨R.MOD_CELL_BAL, 24, 8⟩
def R.MOD_CELL_IDB : Nat := 0x9A10
def F.MOD_CELL_IDB_IDB : Fld := ⟨R.MOD_CELL_IDB, 0, 16⟩
def R.MOD_CELL_STAT : Nat := 0x9A14
def F.MOD_CELL_STAT_DUTY : Fld := ⟨R.MOD_CELL_STAT, 0, 16⟩
def F.MOD_CELL_STAT_CMODE : Fld := ⟨R.MOD_CELL_STAT, 16, 1⟩
def F.MOD_CELL_STAT_PEND : Fld := ⟨R.MOD_CELL_STAT, 17, 1⟩
def R.MOD_CELL_CNT : Nat := 0x9A18
def F.MOD_CELL_CNT_CLAMP : Fld := ⟨R.MOD_CELL_CNT, 0, 16⟩
def F.MOD_CELL_CNT_LATEEPOCH : Fld := ⟨R.MOD_CELL_CNT, 16, 8⟩
def F.MOD_CELL_CNT_EPOCHS : Fld := ⟨R.MOD_CELL_CNT, 24, 8⟩
def R.MOD_CELL_EPOCH : Nat := 0x9A1C
def F.MOD_CELL_EPOCH_E : Fld := ⟨R.MOD_CELL_EPOCH, 0, 32⟩

/-! Page 0x27 RANK: R387, R388 (12_rank_observer.md). -/

def R.RANK_CTL : Nat := 0x9C40
def F.RANK_CTL_OBSEN : Fld := ⟨R.RANK_CTL, 0, 1⟩
def F.RANK_CTL_LEARN : Fld := ⟨R.RANK_CTL, 1, 1⟩
def F.RANK_CTL_SIGEN : Fld := ⟨R.RANK_CTL, 4, 2⟩
def R.RANK_OBS : Nat := 0x9C44
def F.RANK_OBS_GAIN : Fld := ⟨R.RANK_OBS, 0, 8⟩
def F.RANK_OBS_AGEMAX : Fld := ⟨R.RANK_OBS, 8, 6⟩
def F.RANK_OBS_UNOBS_R : Fld := ⟨R.RANK_OBS, 16, 4⟩
def R.RANK_CNOM : Nat := 0x9C48
def F.RANK_CNOM_CNOM : Fld := ⟨R.RANK_CNOM, 0, 24⟩
def R.RANK_CLIM : Nat := 0x9C4C
def F.RANK_CLIM_CMIN : Fld := ⟨R.RANK_CLIM, 0, 8⟩
def F.RANK_CLIM_CMAX : Fld := ⟨R.RANK_CLIM, 8, 8⟩
def R.RANK_LEARN : Nat := 0x9C50
def F.RANK_LEARN_FORGET : Fld := ⟨R.RANK_LEARN, 0, 5⟩
def F.RANK_LEARN_QMIN : Fld := ⟨R.RANK_LEARN, 16, 16⟩
def R.RANK_VLIM : Nat := 0x9C54
def F.RANK_VLIM_VLO : Fld := ⟨R.RANK_VLIM, 0, 16⟩
def F.RANK_VLIM_VHI : Fld := ⟨R.RANK_VLIM, 16, 16⟩
def R.RANK_FUS : Nat := 0x9C58
def F.RANK_FUS_K : Fld := ⟨R.RANK_FUS, 0, 4⟩
def F.RANK_FUS_FAGE : Fld := ⟨R.RANK_FUS, 8, 8⟩
def F.RANK_FUS_EXTRAP : Fld := ⟨R.RANK_FUS, 16, 1⟩
def R.RANK_IOUT : Nat := 0x9C5C
def F.RANK_IOUT_IOUT : Fld := ⟨R.RANK_IOUT, 0, 16⟩
def R.RANK_SORT : Nat := 0x9C60
def F.RANK_SORT_MOVEMAX : Fld := ⟨R.RANK_SORT, 0, 11⟩
def F.RANK_SORT_SETMAX : Fld := ⟨R.RANK_SORT, 16, 8⟩
def R.RANK_STAT : Nat := 0x9C64
def F.RANK_STAT_FULL : Fld := ⟨R.RANK_STAT, 0, 1⟩
def F.RANK_STAT_MOVES : Fld := ⟨R.RANK_STAT, 16, 11⟩
def R.RANK_SORTS : Nat := 0x9C68
def F.RANK_SORTS_FULLSORTS : Fld := ⟨R.RANK_SORTS, 0, 16⟩
def F.RANK_SORTS_MOVEFB : Fld := ⟨R.RANK_SORTS, 16, 16⟩
def R.RANK_SEL : Nat := 0x9C6C
def F.RANK_SEL_INDEX : Fld := ⟨R.RANK_SEL, 0, 10⟩
def R.RANK_CMD : Nat := 0x9C70
def F.RANK_CMD_RD : Fld := ⟨R.RANK_CMD, 0, 1⟩
def F.RANK_CMD_WR : Fld := ⟨R.RANK_CMD, 1, 1⟩
def F.RANK_CMD_SETC : Fld := ⟨R.RANK_CMD, 2, 1⟩
def F.RANK_CMD_SETV : Fld := ⟨R.RANK_CMD, 3, 1⟩
def R.RANK_ARM_SIG (i : Nat) : Nat := 0x9C80 + 0x40 * i
def F.RANK_ARM_SIG_IARM (i : Nat) : Fld := ⟨R.RANK_ARM_SIG i, 0, 8⟩
def F.RANK_ARM_SIG_IAGE (i : Nat) : Fld := ⟨R.RANK_ARM_SIG i, 8, 8⟩
def F.RANK_ARM_SIG_VAVG (i : Nat) : Fld := ⟨R.RANK_ARM_SIG i, 16, 8⟩
def F.RANK_ARM_SIG_ESUM (i : Nat) : Fld := ⟨R.RANK_ARM_SIG i, 24, 8⟩
def R.RANK_ARM_BAND (i : Nat) : Nat := 0x9C84 + 0x40 * i
def F.RANK_ARM_BAND_BAND (i : Nat) : Fld := ⟨R.RANK_ARM_BAND i, 0, 16⟩
def F.RANK_ARM_BAND_SWMAX (i : Nat) : Fld := ⟨R.RANK_ARM_BAND i, 16, 8⟩
def R.RANK_ARM_DWELL (i : Nat) : Nat := 0x9C88 + 0x40 * i
def F.RANK_ARM_DWELL_DWELL (i : Nat) : Fld := ⟨R.RANK_ARM_DWELL i, 0, 16⟩
def F.RANK_ARM_DWELL_IDB (i : Nat) : Fld := ⟨R.RANK_ARM_DWELL i, 16, 16⟩
def R.RANK_ARM_REDUN (i : Nat) : Nat := 0x9C8C + 0x40 * i
def F.RANK_ARM_REDUN_NREQ (i : Nat) : Fld := ⟨R.RANK_ARM_REDUN i, 0, 11⟩
def F.RANK_ARM_REDUN_RLOW (i : Nat) : Fld := ⟨R.RANK_ARM_REDUN i, 16, 8⟩
def F.RANK_ARM_REDUN_ACT (i : Nat) : Fld := ⟨R.RANK_ARM_REDUN i, 24, 2⟩
def R.RANK_ARM_IPL (i : Nat) : Nat := 0x9C90 + 0x40 * i
def F.RANK_ARM_IPL_EN (i : Nat) : Fld := ⟨R.RANK_ARM_IPL i, 0, 1⟩
def F.RANK_ARM_IPL_STREAM (i : Nat) : Fld := ⟨R.RANK_ARM_IPL i, 4, 2⟩
def F.RANK_ARM_IPL_CHAN (i : Nat) : Fld := ⟨R.RANK_ARM_IPL i, 8, 3⟩
def F.RANK_ARM_IPL_ACT (i : Nat) : Fld := ⟨R.RANK_ARM_IPL i, 12, 2⟩
def F.RANK_ARM_IPL_TIME (i : Nat) : Fld := ⟨R.RANK_ARM_IPL i, 16, 16⟩
def R.RANK_ARM_IPLTOL (i : Nat) : Nat := 0x9C94 + 0x40 * i
def F.RANK_ARM_IPLTOL_ABS (i : Nat) : Fld := ⟨R.RANK_ARM_IPLTOL i, 0, 16⟩
def F.RANK_ARM_IPLTOL_REL (i : Nat) : Fld := ⟨R.RANK_ARM_IPLTOL i, 16, 8⟩
def R.RANK_ARM_IPLSC (i : Nat) : Nat := 0x9C98 + 0x40 * i
def F.RANK_ARM_IPLSC_SCALE (i : Nat) : Fld := ⟨R.RANK_ARM_IPLSC i, 0, 32⟩
def R.RANK_ARM_STAT (i : Nat) : Nat := 0x9C9C + 0x40 * i
def F.RANK_ARM_STAT_NAVAIL (i : Nat) : Fld := ⟨R.RANK_ARM_STAT i, 0, 11⟩
def F.RANK_ARM_STAT_REDUN (i : Nat) : Fld := ⟨R.RANK_ARM_STAT i, 16, 11⟩
def F.RANK_ARM_STAT_DIR (i : Nat) : Fld := ⟨R.RANK_ARM_STAT i, 31, 1⟩
def R.RANK_ARM_OUT (i : Nat) : Nat := 0x9CA0 + 0x40 * i
def F.RANK_ARM_OUT_PERM (i : Nat) : Fld := ⟨R.RANK_ARM_OUT i, 0, 11⟩
def F.RANK_ARM_OUT_UNAV (i : Nat) : Fld := ⟨R.RANK_ARM_OUT i, 16, 11⟩
def R.RANK_ARM_IFUS (i : Nat) : Nat := 0x9CA4 + 0x40 * i
def R.RANK_ARM_IAGE (i : Nat) : Nat := 0x9CA8 + 0x40 * i
def F.RANK_ARM_IAGE_AGE (i : Nat) : Fld := ⟨R.RANK_ARM_IAGE i, 0, 24⟩
def F.RANK_ARM_IAGE_VALID (i : Nat) : Fld := ⟨R.RANK_ARM_IAGE i, 31, 1⟩
def R.RANK_ARM_VAVG (i : Nat) : Nat := 0x9CAC + 0x40 * i
def R.RANK_ARM_ISV (i : Nat) : Nat := 0x9CB0 + 0x40 * i
def R.RANK_ARM_SWP (i : Nat) : Nat := 0x9CB4 + 0x40 * i
def F.RANK_ARM_SWP_SWAPS (i : Nat) : Fld := ⟨R.RANK_ARM_SWP i, 0, 16⟩
def F.RANK_ARM_SWP_DWELLOVR (i : Nat) : Fld := ⟨R.RANK_ARM_SWP i, 16, 16⟩
def R.RANK_ARM_FCNT (i : Nat) : Nat := 0x9CB8 + 0x40 * i
def F.RANK_ARM_FCNT_INVALID (i : Nat) : Fld := ⟨R.RANK_ARM_FCNT i, 0, 16⟩
def F.RANK_ARM_FCNT_IPLFAIL (i : Nat) : Fld := ⟨R.RANK_ARM_FCNT i, 16, 16⟩
def R.RANK_E (i : Nat) : Nat := 0x9D00 + 0x4 * i

/-! Page 0x28 REC: R646, R647 (21_recorder_monitors.md). -/

def R.REC_CFG : Nat := 0xA040
def F.REC_CFG_DEC : Fld := ⟨R.REC_CFG, 0, 16⟩
def F.REC_CFG_AUTORED : Fld := ⟨R.REC_CFG, 16, 1⟩
def F.REC_CFG_NSEG : Fld := ⟨R.REC_CFG, 20, 4⟩
def F.REC_CFG_OVWR : Fld := ⟨R.REC_CFG, 24, 1⟩
def F.REC_CFG_STRM : Fld := ⟨R.REC_CFG, 25, 1⟩
def R.REC_LEN : Nat := 0xA044
def F.REC_LEN_PRE : Fld := ⟨R.REC_LEN, 0, 16⟩
def F.REC_LEN_POST : Fld := ⟨R.REC_LEN, 16, 16⟩
def R.REC_HOLD : Nat := 0xA048
def F.REC_HOLD_MODE : Fld := ⟨R.REC_HOLD, 0, 2⟩
def F.REC_HOLD_VAL : Fld := ⟨R.REC_HOLD, 16, 16⟩
def R.REC_RED : Nat := 0xA04C
def F.REC_RED_HMAX : Fld := ⟨R.REC_RED, 0, 3⟩
def F.REC_RED_RESTORE : Fld := ⟨R.REC_RED, 8, 8⟩
def F.REC_RED_STRMHI : Fld := ⟨R.REC_RED, 16, 8⟩
def R.REC_SNAPCFG : Nat := 0xA050
def F.REC_SNAPCFG_FIRST : Fld := ⟨R.REC_SNAPCFG, 0, 10⟩
def F.REC_SNAPCFG_COUNT : Fld := ⟨R.REC_SNAPCFG, 16, 11⟩
def F.REC_SNAPCFG_SDEC : Fld := ⟨R.REC_SNAPCFG, 28, 4⟩
def R.REC_STAT : Nat := 0xA054
def F.REC_STAT_STATE : Fld := ⟨R.REC_STAT, 0, 3⟩
def F.REC_STAT_LVL : Fld := ⟨R.REC_STAT, 4, 3⟩
def F.REC_STAT_LIVE : Fld := ⟨R.REC_STAT, 8, 4⟩
def F.REC_STAT_HELD : Fld := ⟨R.REC_STAT, 16, 16⟩
def R.REC_CMD : Nat := 0xA058
def F.REC_CMD_FORCE : Fld := ⟨R.REC_CMD, 0, 1⟩
def F.REC_CMD_REL : Fld := ⟨R.REC_CMD, 1, 1⟩
def F.REC_CMD_RELALL : Fld := ⟨R.REC_CMD, 2, 1⟩
def F.REC_CMD_SEG : Fld := ⟨R.REC_CMD, 8, 4⟩
def R.REC_CNT : Nat := 0xA05C
def F.REC_CNT_TRIGS : Fld := ⟨R.REC_CNT, 0, 16⟩
def F.REC_CNT_IGNORED : Fld := ⟨R.REC_CNT, 16, 8⟩
def F.REC_CNT_DROPS : Fld := ⟨R.REC_CNT, 24, 8⟩
def R.REC_RCNT : Nat := 0xA060
def F.REC_RCNT_REDS : Fld := ⟨R.REC_RCNT, 0, 16⟩
def F.REC_RCNT_RESTS : Fld := ⟨R.REC_RCNT, 16, 16⟩
def R.REC_MBASE : Nat := 0xA064
def F.REC_MBASE_BASE : Fld := ⟨R.REC_MBASE, 0, 32⟩
def R.REC_GEOM : Nat := 0xA068
def F.REC_GEOM_CHUNKS : Fld := ⟨R.REC_GEOM, 0, 10⟩
def F.REC_GEOM_RLEN : Fld := ⟨R.REC_GEOM, 16, 12⟩
def R.REC_CH (i : Nat) : Nat := 0xA080 + 0x4 * i
def F.REC_CH_SIG (i : Nat) : Fld := ⟨R.REC_CH i, 0, 8⟩
def F.REC_CH_EN (i : Nat) : Fld := ⟨R.REC_CH i, 8, 1⟩
def R.REC_TCFG (i : Nat) : Nat := 0xA180 + 0x10 * i
def F.REC_TCFG_TYPE (i : Nat) : Fld := ⟨R.REC_TCFG i, 0, 4⟩
def F.REC_TCFG_DIR (i : Nat) : Fld := ⟨R.REC_TCFG i, 4, 2⟩
def F.REC_TCFG_SRC (i : Nat) : Fld := ⟨R.REC_TCFG i, 8, 8⟩
def F.REC_TCFG_BIT (i : Nat) : Fld := ⟨R.REC_TCFG i, 16, 5⟩
def R.REC_TA (i : Nat) : Nat := 0xA184 + 0x10 * i
def R.REC_TB (i : Nat) : Nat := 0xA188 + 0x10 * i
def R.REC_TSTAT (i : Nat) : Nat := 0xA18C + 0x10 * i
def F.REC_TSTAT_HITS (i : Nat) : Fld := ⟨R.REC_TSTAT i, 0, 16⟩
def F.REC_TSTAT_COND (i : Nat) : Fld := ⟨R.REC_TSTAT i, 16, 1⟩
def R.REC_MCFG (i : Nat) : Nat := 0xA280 + 0x8 * i
def F.REC_MCFG_EN (i : Nat) : Fld := ⟨R.REC_MCFG i, 0, 1⟩
def F.REC_MCFG_MODE (i : Nat) : Fld := ⟨R.REC_MCFG i, 1, 1⟩
def F.REC_MCFG_CH (i : Nat) : Fld := ⟨R.REC_MCFG i, 8, 6⟩
def F.REC_MCFG_STEP (i : Nat) : Fld := ⟨R.REC_MCFG i, 16, 16⟩
def R.REC_MSTAT (i : Nat) : Nat := 0xA284 + 0x8 * i
def F.REC_MSTAT_VIOL (i : Nat) : Fld := ⟨R.REC_MSTAT i, 0, 16⟩
def F.REC_MSTAT_POINT (i : Nat) : Fld := ⟨R.REC_MSTAT i, 16, 8⟩
def R.REC_BB : Nat := 0xA300
def F.REC_BB_RDEC : Fld := ⟨R.REC_BB, 0, 8⟩
def F.REC_BB_FRZSEL : Fld := ⟨R.REC_BB, 8, 8⟩
def F.REC_BB_POSTN : Fld := ⟨R.REC_BB, 16, 16⟩
def R.REC_BBSTAT : Nat := 0xA304
def F.REC_BBSTAT_FROZEN : Fld := ⟨R.REC_BBSTAT, 0, 1⟩
def F.REC_BBSTAT_WHY : Fld := ⟨R.REC_BBSTAT, 8, 4⟩
def F.REC_BBSTAT_NEXT : Fld := ⟨R.REC_BBSTAT, 16, 16⟩
def R.REC_BBCMD : Nat := 0xA308
def F.REC_BBCMD_REARM : Fld := ⟨R.REC_BBCMD, 0, 1⟩
def R.REC_BBIDX : Nat := 0xA30C
def F.REC_BBIDX_INDEX : Fld := ⟨R.REC_BBIDX, 0, 13⟩
def R.REC_BBD (i : Nat) : Nat := 0xA310 + 0x4 * i

/-! Page 0x29 MON: R648, R649 (21_recorder_monitors.md). -/

def R.MON_SNAP (p : Nat) : Nat := 0xA440 + 0x400 * p
def F.MON_SNAP_UNIT (p : Nat) : Fld := ⟨R.MON_SNAP p, 0, 5⟩
def F.MON_SNAP_CLR (p : Nat) : Fld := ⟨R.MON_SNAP p, 8, 1⟩
def F.MON_SNAP_GO (p : Nat) : Fld := ⟨R.MON_SNAP p, 31, 1⟩
def R.MON_SMIN (p : Nat) : Nat := 0xA444 + 0x400 * p
def R.MON_SMAX (p : Nat) : Nat := 0xA448 + 0x400 * p
def R.MON_SCNT (p : Nat) : Nat := 0xA44C + 0x400 * p
def F.MON_SCNT_COUNT (p : Nat) : Fld := ⟨R.MON_SCNT p, 0, 32⟩
def R.MON_SSUM_LO (p : Nat) : Nat := 0xA450 + 0x400 * p
def F.MON_SSUM_LO_SUM (p : Nat) : Fld := ⟨R.MON_SSUM_LO p, 0, 32⟩
def R.MON_SSUM_HI (p : Nat) : Nat := 0xA454 + 0x400 * p
def F.MON_SSUM_HI_SUM (p : Nat) : Fld := ⟨R.MON_SSUM_HI p, 0, 32⟩
def R.MON_SINFO (p : Nat) : Nat := 0xA458 + 0x400 * p
def F.MON_SINFO_UNIT (p : Nat) : Fld := ⟨R.MON_SINFO p, 0, 5⟩
def F.MON_SINFO_VALID (p : Nat) : Fld := ⟨R.MON_SINFO p, 8, 1⟩
def F.MON_SINFO_SRC (p : Nat) : Fld := ⟨R.MON_SINFO p, 16, 5⟩
def F.MON_SINFO_SEQ (p : Nat) : Fld := ⟨R.MON_SINFO p, 24, 8⟩
def R.MON_CFG (p : Nat) (i : Nat) : Nat := 0xA500 + 0x400 * p + 0x8 * i
def F.MON_CFG_SRC (p : Nat) (i : Nat) : Fld := ⟨R.MON_CFG p i, 0, 5⟩
def F.MON_CFG_LOG (p : Nat) (i : Nat) : Fld := ⟨R.MON_CFG p i, 5, 1⟩
def F.MON_CFG_EN (p : Nat) (i : Nat) : Fld := ⟨R.MON_CFG p i, 7, 1⟩
def F.MON_CFG_SEL (p : Nat) (i : Nat) : Fld := ⟨R.MON_CFG p i, 8, 10⟩
def F.MON_CFG_WSH (p : Nat) (i : Nat) : Fld := ⟨R.MON_CFG p i, 24, 5⟩
def R.MON_ORG (p : Nat) (i : Nat) : Nat := 0xA504 + 0x400 * p + 0x8 * i
def F.MON_ORG_ORG (p : Nat) (i : Nat) : Fld := ⟨R.MON_ORG p i, 0, 32⟩
def R.MON_SBIN (p : Nat) (i : Nat) : Nat := 0xA600 + 0x400 * p + 0x4 * i
def F.MON_SBIN_BIN (p : Nat) (i : Nat) : Fld := ⟨R.MON_SBIN p i, 0, 32⟩
def R.LT_CNT_LO (p : Nat) (i : Nat) : Nat := 0xA700 + 0x400 * p + 0x8 * i
def R.LT_CNT_HI (p : Nat) (i : Nat) : Nat := 0xA704 + 0x400 * p + 0x8 * i
def F.LT_CNT_HI_CNT (p : Nat) (i : Nat) : Fld := ⟨R.LT_CNT_HI p i, 0, 16⟩
def R.LT_CAPIN (p : Nat) : Nat := 0xA760 + 0x400 * p
def R.LT_CTL (p : Nat) : Nat := 0xA764 + 0x400 * p
def F.LT_CTL_LOCK (p : Nat) : Fld := ⟨R.LT_CTL p, 0, 1⟩
def R.LT_ADDLO (p : Nat) : Nat := 0xA768 + 0x400 * p
def R.LT_ADDHI (p : Nat) : Nat := 0xA76C + 0x400 * p
def F.LT_ADDHI_ADD (p : Nat) : Fld := ⟨R.LT_ADDHI p, 0, 16⟩
def R.LT_CMD (p : Nat) : Nat := 0xA770 + 0x400 * p
def F.LT_CMD_IDX (p : Nat) : Fld := ⟨R.LT_CMD p, 0, 4⟩
def F.LT_CMD_GO (p : Nat) : Fld := ⟨R.LT_CMD p, 31, 1⟩

/-! Page 0x2B ADC: R502, R503 (16_measurement.md). -/

def R.ADC_CTL : Nat := 0xAC40
def F.ADC_CTL_M0EN : Fld := ⟨R.ADC_CTL, 0, 1⟩
def F.ADC_CTL_M1EN : Fld := ⟨R.ADC_CTL, 1, 1⟩
def F.ADC_CTL_M2EN : Fld := ⟨R.ADC_CTL, 2, 1⟩
def F.ADC_CTL_LP : Fld := ⟨R.ADC_CTL, 4, 1⟩
def R.ADC_OSR : Nat := 0xAC44
def F.ADC_OSR_OSR0 : Fld := ⟨R.ADC_OSR, 0, 3⟩
def F.ADC_OSR_OSR1 : Fld := ⟨R.ADC_OSR, 4, 3⟩
def F.ADC_OSR_OSR2 : Fld := ⟨R.ADC_OSR, 8, 3⟩
def R.ADC_SCAN : Nat := 0xAC48
def F.ADC_SCAN_MASK : Fld := ⟨R.ADC_SCAN, 0, 8⟩
def R.ADC_FC (i : Nat) : Nat := 0xAC4C + 0x4 * i
def F.ADC_FC_LO (i : Nat) : Fld := ⟨R.ADC_FC i, 0, 16⟩
def F.ADC_FC_HI (i : Nat) : Fld := ⟨R.ADC_FC i, 16, 16⟩
def R.ADC_FCNT : Nat := 0xAC5C
def F.ADC_FCNT_HYS : Fld := ⟨R.ADC_FCNT, 16, 16⟩
def F.ADC_FCNT_CNT0 : Fld := ⟨R.ADC_FCNT, 0, 4⟩
def F.ADC_FCNT_CNT1 : Fld := ⟨R.ADC_FCNT, 4, 4⟩
def F.ADC_FCNT_CNT2 : Fld := ⟨R.ADC_FCNT, 8, 4⟩
def F.ADC_FCNT_CNT3 : Fld := ⟨R.ADC_FCNT, 12, 4⟩
def R.ADC_FSTAT : Nat := 0xAC60
def F.ADC_FSTAT_LIVE : Fld := ⟨R.ADC_FSTAT, 0, 4⟩
def F.ADC_FSTAT_HIT : Fld := ⟨R.ADC_FSTAT, 8, 4⟩
def R.ADC_OVL : Nat := 0xAC64
def F.ADC_OVL_OVL0 : Fld := ⟨R.ADC_OVL, 0, 8⟩
def F.ADC_OVL_OVL1 : Fld := ⟨R.ADC_OVL, 8, 8⟩
def F.ADC_OVL_OVL2 : Fld := ⟨R.ADC_OVL, 16, 8⟩

/-! Page 0x2C ACC: R504, R505 (16_measurement.md). -/

def R.ACC_CTL : Nat := 0xB040
def F.ACC_CTL_AUXT : Fld := ⟨R.ACC_CTL, 0, 1⟩
def R.ACC_WIN : Nat := 0xB044
def F.ACC_WIN_FREE : Fld := ⟨R.ACC_WIN, 0, 16⟩
def F.ACC_WIN_MODE : Fld := ⟨R.ACC_WIN, 16, 1⟩
def F.ACC_WIN_TCLOSE : Fld := ⟨R.ACC_WIN, 20, 12⟩
def R.ACC_PLW : Nat := 0xB048
def F.ACC_PLW_N : Fld := ⟨R.ACC_PLW, 0, 4⟩
def R.ACC_PLTOL : Nat := 0xB04C
def F.ACC_PLTOL_ABS : Fld := ⟨R.ACC_PLTOL, 0, 16⟩
def F.ACC_PLTOL_REL : Fld := ⟨R.ACC_PLTOL, 16, 8⟩
def F.ACC_PLTOL_CNT : Fld := ⟨R.ACC_PLTOL, 24, 8⟩
def R.ACC_PLSTAT : Nat := 0xB050
def F.ACC_PLSTAT_LIVE : Fld := ⟨R.ACC_PLSTAT, 0, 1⟩
def F.ACC_PLSTAT_OFF : Fld := ⟨R.ACC_PLSTAT, 1, 1⟩
def F.ACC_PLSTAT_RUN : Fld := ⟨R.ACC_PLSTAT, 8, 8⟩
def F.ACC_PLSTAT_FAILS : Fld := ⟨R.ACC_PLSTAT, 16, 16⟩
def R.ACC_WS : Nat := 0xB054
def F.ACC_WS_WSTART : Fld := ⟨R.ACC_WS, 0, 32⟩
def R.ACC_WL : Nat := 0xB058
def F.ACC_WL_WLEN : Fld := ⟨R.ACC_WL, 0, 16⟩
def R.ACC_GAIN (i : Nat) : Nat := 0xB060 + 0x8 * i
def R.ACC_OFS (i : Nat) : Nat := 0xB064 + 0x8 * i
def R.ACC_MEAN (i : Nat) : Nat := 0xB100 + 0x10 * i
def R.ACC_MIN (i : Nat) : Nat := 0xB104 + 0x10 * i
def R.ACC_MAX (i : Nat) : Nat := 0xB108 + 0x10 * i
def R.ACC_CNT (i : Nat) : Nat := 0xB10C + 0x10 * i
def F.ACC_CNT_COUNT (i : Nat) : Fld := ⟨R.ACC_CNT i, 0, 16⟩
def F.ACC_CNT_WINS (i : Nat) : Fld := ⟨R.ACC_CNT i, 16, 16⟩

/-! Page 0x2D GATE: R482, R483 (15_cell_power_stage.md). -/

def R.GATE_CFG : Nat := 0xB440
def F.GATE_CFG_TOPO : Fld := ⟨R.GATE_CFG, 0, 1⟩
def F.GATE_CFG_BYPSEL : Fld := ⟨R.GATE_CFG, 4, 2⟩
def F.GATE_CFG_FEN : Fld := ⟨R.GATE_CFG, 8, 4⟩
def F.GATE_CFG_DTC : Fld := ⟨R.GATE_CFG, 12, 1⟩
def R.GATE_TIME : Nat := 0xB444
def F.GATE_TIME_DEAD : Fld := ⟨R.GATE_TIME, 0, 11⟩
def F.GATE_TIME_MINP : Fld := ⟨R.GATE_TIME, 16, 13⟩
def R.GATE_SAFE : Nat := 0xB448
def F.GATE_SAFE_SAFE : Fld := ⟨R.GATE_SAFE, 0, 4⟩
def R.GATE_TRIPF : Nat := 0xB44C
def F.GATE_TRIPF_TF0 : Fld := ⟨R.GATE_TRIPF, 0, 3⟩
def F.GATE_TRIPF_TF1 : Fld := ⟨R.GATE_TRIPF, 4, 3⟩
def R.GATE_PBY : Nat := 0xB450
def F.GATE_PBY_OV2EN : Fld := ⟨R.GATE_PBY, 0, 1⟩
def F.GATE_PBY_DSEN : Fld := ⟨R.GATE_PBY, 1, 1⟩
def F.GATE_PBY_DSWIN : Fld := ⟨R.GATE_PBY, 8, 8⟩
def F.GATE_PBY_W : Fld := ⟨R.GATE_PBY, 16, 8⟩
def F.GATE_PBY_THY : Fld := ⟨R.GATE_PBY, 24, 1⟩
def R.GATE_THY : Nat := 0xB454
def F.GATE_THY_PW : Fld := ⟨R.GATE_THY, 0, 8⟩
def F.GATE_THY_PER : Fld := ⟨R.GATE_THY, 8, 8⟩
def F.GATE_THY_N : Fld := ⟨R.GATE_THY, 16, 16⟩
def R.GATE_DTC : Nat := 0xB458
def F.GATE_DTC_IDB : Fld := ⟨R.GATE_DTC, 0, 16⟩
def R.GATE_STATE : Nat := 0xB45C
def F.GATE_STATE_STATE : Fld := ⟨R.GATE_STATE, 0, 2⟩
def F.GATE_STATE_PINS : Fld := ⟨R.GATE_STATE, 8, 6⟩
def F.GATE_STATE_DT : Fld := ⟨R.GATE_STATE, 16, 1⟩
def F.GATE_STATE_STOP : Fld := ⟨R.GATE_STATE, 17, 1⟩
def F.GATE_STATE_PBYP : Fld := ⟨R.GATE_STATE, 18, 1⟩
def F.GATE_STATE_THYRUN : Fld := ⟨R.GATE_STATE, 19, 1⟩
def F.GATE_STATE_FLAT : Fld := ⟨R.GATE_STATE, 20, 1⟩
def F.GATE_STATE_BLK : Fld := ⟨R.GATE_STATE, 21, 1⟩
def R.GATE_FLT : Nat := 0xB460
def F.GATE_FLT_LATCH : Fld := ⟨R.GATE_FLT, 0, 4⟩
def F.GATE_FLT_LIVE : Fld := ⟨R.GATE_FLT, 8, 4⟩
def R.GATE_FCLR : Nat := 0xB464
def F.GATE_FCLR_CLR : Fld := ⟨R.GATE_FCLR, 0, 1⟩
def R.GATE_CNT : Nat := 0xB468
def F.GATE_CNT_SHORT : Fld := ⟨R.GATE_CNT, 0, 16⟩
def F.GATE_CNT_LATEP : Fld := ⟨R.GATE_CNT, 16, 8⟩
def F.GATE_CNT_REFCLR : Fld := ⟨R.GATE_CNT, 24, 8⟩
def R.GATE_CNT2 : Nat := 0xB46C
def F.GATE_CNT2_DISC : Fld := ⟨R.GATE_CNT2, 0, 16⟩
def F.GATE_CNT2_FLUSH : Fld := ⟨R.GATE_CNT2, 16, 8⟩
def F.GATE_CNT2_DESAT : Fld := ⟨R.GATE_CNT2, 24, 4⟩
def F.GATE_CNT2_NOCOMP : Fld := ⟨R.GATE_CNT2, 28, 4⟩
def R.GATE_DLCAL : Nat := 0xB470
def F.GATE_DLCAL_TAPS : Fld := ⟨R.GATE_DLCAL, 0, 10⟩
def F.GATE_DLCAL_VALID : Fld := ⟨R.GATE_DLCAL, 16, 1⟩
def F.GATE_DLCAL_FAULT : Fld := ⟨R.GATE_DLCAL, 17, 1⟩
def R.GATE_LAT : Nat := 0xB474
def F.GATE_LAT_LAT : Fld := ⟨R.GATE_LAT, 0, 16⟩
def R.TEV_CTL (i : Nat) : Nat := 0xB500 + 0x10 * i
def F.TEV_CTL_ACT (i : Nat) : Fld := ⟨R.TEV_CTL i, 0, 2⟩
def F.TEV_CTL_ARM (i : Nat) : Fld := ⟨R.TEV_CTL i, 4, 1⟩
def F.TEV_CTL_DISARM (i : Nat) : Fld := ⟨R.TEV_CTL i, 5, 1⟩
def F.TEV_CTL_FR (i : Nat) : Fld := ⟨R.TEV_CTL i, 8, 6⟩
def R.TEV_NS (i : Nat) : Nat := 0xB504 + 0x10 * i
def F.TEV_NS_NS (i : Nat) : Fld := ⟨R.TEV_NS i, 0, 30⟩
def R.TEV_SL (i : Nat) : Nat := 0xB508 + 0x10 * i
def R.TEV_W (i : Nat) : Nat := 0xB50C + 0x10 * i
def F.TEV_W_W (i : Nat) : Fld := ⟨R.TEV_W i, 0, 16⟩
def F.TEV_W_PER (i : Nat) : Fld := ⟨R.TEV_W i, 16, 16⟩

/-! Page 0x2E SAFE: R527, R528 (17_safety.md). -/

def R.SAFE_HCFG : Nat := 0xB840
def F.SAFE_HCFG_TF0 : Fld := ⟨R.SAFE_HCFG, 0, 3⟩
def F.SAFE_HCFG_TF1 : Fld := ⟨R.SAFE_HCFG, 4, 3⟩
def F.SAFE_HCFG_DBGBLK : Fld := ⟨R.SAFE_HCFG, 12, 1⟩
def F.SAFE_HCFG_AUTODB : Fld := ⟨R.SAFE_HCFG, 13, 1⟩
def R.SAFE_HCMD : Nat := 0xB844
def F.SAFE_HCMD_CODE : Fld := ⟨R.SAFE_HCMD, 0, 16⟩
def R.SAFE_HSTAT : Nat := 0xB848
def F.SAFE_HSTAT_VB : Fld := ⟨R.SAFE_HSTAT, 0, 1⟩
def F.SAFE_HSTAT_STARTUP : Fld := ⟨R.SAFE_HSTAT, 4, 2⟩
def F.SAFE_HSTAT_ALATCH : Fld := ⟨R.SAFE_HSTAT, 8, 4⟩
def F.SAFE_HSTAT_LIVE : Fld := ⟨R.SAFE_HSTAT, 12, 4⟩
def F.SAFE_HSTAT_INJ : Fld := ⟨R.SAFE_HSTAT, 16, 1⟩
def R.SAFE_HBREQ : Nat := 0xB84C
def F.SAFE_HBREQ_BREQ : Fld := ⟨R.SAFE_HBREQ, 0, 1⟩
def F.SAFE_HBREQ_SRC : Fld := ⟨R.SAFE_HBREQ, 8, 6⟩
def R.SAFE_HDBB : Nat := 0xB850
def F.SAFE_HDBB_BERTH : Fld := ⟨R.SAFE_HDBB, 0, 10⟩
def F.SAFE_HDBB_GO : Fld := ⟨R.SAFE_HDBB, 31, 1⟩
def R.SAFE_HDBLK : Nat := 0xB854
def F.SAFE_HDBLK_WHY : Fld := ⟨R.SAFE_HDBLK, 0, 4⟩
def F.SAFE_HDBLK_SEQ : Fld := ⟨R.SAFE_HDBLK, 4, 1⟩
def F.SAFE_HDBLK_REFUSED : Fld := ⟨R.SAFE_HDBLK, 8, 8⟩
def F.SAFE_HDBLK_FAILED : Fld := ⟨R.SAFE_HDBLK, 16, 16⟩
def R.SAFE_HCNT : Nat := 0xB858
def F.SAFE_HCNT_ACLRREF : Fld := ⟨R.SAFE_HCNT, 0, 8⟩
def F.SAFE_HCNT_DISCS : Fld := ⟨R.SAFE_HCNT, 8, 8⟩
def F.SAFE_HCNT_LATCHES : Fld := ⟨R.SAFE_HCNT, 16, 16⟩
def R.SAFE_HREACT : Nat := 0xB85C
def F.SAFE_HREACT_A : Fld := ⟨R.SAFE_HREACT, 0, 16⟩
def F.SAFE_HREACT_B : Fld := ⟨R.SAFE_HREACT, 16, 16⟩
def R.SAFE_CCFG : Nat := 0xB880
def F.SAFE_CCFG_PLACT : Fld := ⟨R.SAFE_CCFG, 0, 1⟩
def R.SAFE_CCMD : Nat := 0xB884
def F.SAFE_CCMD_CODE : Fld := ⟨R.SAFE_CCMD, 0, 16⟩
def R.SAFE_CSTAT : Nat := 0xB888
def F.SAFE_CSTAT_DB : Fld := ⟨R.SAFE_CSTAT, 0, 1⟩
def F.SAFE_CSTAT_BLKSEEN : Fld := ⟨R.SAFE_CSTAT, 1, 1⟩
def F.SAFE_CSTAT_PLIVE : Fld := ⟨R.SAFE_CSTAT, 2, 1⟩
def F.SAFE_CSTAT_BREQF : Fld := ⟨R.SAFE_CSTAT, 3, 1⟩
def F.SAFE_CSTAT_WHY : Fld := ⟨R.SAFE_CSTAT, 8, 4⟩
def R.SAFE_CCNT : Nat := 0xB88C
def F.SAFE_CCNT_BLKOS : Fld := ⟨R.SAFE_CCNT, 0, 16⟩
def F.SAFE_CCNT_DEBLOCKS : Fld := ⟨R.SAFE_CCNT, 16, 8⟩
def F.SAFE_CCNT_REFUSED : Fld := ⟨R.SAFE_CCNT, 24, 8⟩
def R.SAFE_CREACT : Nat := 0xB890
def F.SAFE_CREACT_LAST : Fld := ⟨R.SAFE_CREACT, 0, 16⟩
def F.SAFE_CREACT_WORST : Fld := ⟨R.SAFE_CREACT, 16, 16⟩

/-! Page 0x2F GPIO: R49, R54 (02_pins_package.md). -/

def R.GPIO_FN (i : Nat) : Nat := 0xBC40 + 0x4 * i
def F.GPIO_FN_FN (i : Nat) : Fld := ⟨R.GPIO_FN i, 0, 3⟩
def R.GPIO_OUT : Nat := 0xBC60
def F.GPIO_OUT_OUT : Fld := ⟨R.GPIO_OUT, 0, 8⟩
def R.GPIO_IN : Nat := 0xBC64
def F.GPIO_IN_IN : Fld := ⟨R.GPIO_IN, 0, 8⟩
def R.GPIO_EDGE : Nat := 0xBC68
def F.GPIO_EDGE_RISE : Fld := ⟨R.GPIO_EDGE, 0, 8⟩
def F.GPIO_EDGE_FALL : Fld := ⟨R.GPIO_EDGE, 8, 8⟩
def R.GPIO_LED : Nat := 0xBC6C
def F.GPIO_LED_MODE : Fld := ⟨R.GPIO_LED, 0, 2⟩
def R.GPIO_UCFG : Nat := 0xBC70
def F.GPIO_UCFG_DIV : Fld := ⟨R.GPIO_UCFG, 0, 16⟩
def F.GPIO_UCFG_EN : Fld := ⟨R.GPIO_UCFG, 16, 1⟩
def R.GPIO_UTX : Nat := 0xBC74
def F.GPIO_UTX_DATA : Fld := ⟨R.GPIO_UTX, 0, 8⟩
def R.GPIO_URX : Nat := 0xBC78
def F.GPIO_URX_DATA : Fld := ⟨R.GPIO_URX, 0, 8⟩
def F.GPIO_URX_VALID : Fld := ⟨R.GPIO_URX, 8, 1⟩
def R.GPIO_USTAT : Nat := 0xBC7C
def F.GPIO_USTAT_TXLVL : Fld := ⟨R.GPIO_USTAT, 0, 5⟩
def F.GPIO_USTAT_RXLVL : Fld := ⟨R.GPIO_USTAT, 8, 5⟩
def F.GPIO_USTAT_FRAME : Fld := ⟨R.GPIO_USTAT, 16, 8⟩
def F.GPIO_USTAT_OVF : Fld := ⟨R.GPIO_USTAT, 24, 8⟩

/-! The page header, R65 and R66 (03_register_pages.md), of page `pg`. -/

def R.PG_ID (pg : Nat) : Nat := 0x400 * pg + 0x0
def F.PG_ID_CODE (pg : Nat) : Fld := ⟨R.PG_ID pg, 0, 16⟩
def F.PG_ID_VER (pg : Nat) : Fld := ⟨R.PG_ID pg, 16, 8⟩
def F.PG_ID_INST (pg : Nat) : Fld := ⟨R.PG_ID pg, 24, 8⟩
def R.PG_CAPS (pg : Nat) : Nat := 0x400 * pg + 0x4
def F.PG_CAPS_HAS_SH (pg : Nat) : Fld := ⟨R.PG_CAPS pg, 0, 1⟩
def F.PG_CAPS_HAS_ST (pg : Nat) : Fld := ⟨R.PG_CAPS pg, 1, 1⟩
def F.PG_CAPS_HAS_GD (pg : Nat) : Fld := ⟨R.PG_CAPS pg, 2, 1⟩
def F.PG_CAPS_MIRRORABLE (pg : Nat) : Fld := ⟨R.PG_CAPS pg, 3, 1⟩
def F.PG_CAPS_BLOCK (pg : Nat) : Fld := ⟨R.PG_CAPS pg, 16, 16⟩
def R.PG_CTRL (pg : Nat) : Nat := 0x400 * pg + 0x8
def F.PG_CTRL_EN (pg : Nat) : Fld := ⟨R.PG_CTRL pg, 0, 1⟩
def F.PG_CTRL_SRST (pg : Nat) : Fld := ⟨R.PG_CTRL pg, 1, 1⟩
def F.PG_CTRL_HOLD (pg : Nat) : Fld := ⟨R.PG_CTRL pg, 2, 1⟩
def F.PG_CTRL_MIRROR (pg : Nat) : Fld := ⟨R.PG_CTRL pg, 3, 1⟩
def F.PG_CTRL_RDACT (pg : Nat) : Fld := ⟨R.PG_CTRL pg, 4, 1⟩
def R.PG_STAT (pg : Nat) : Nat := 0x400 * pg + 0xC
def F.PG_STAT_RUN (pg : Nat) : Fld := ⟨R.PG_STAT pg, 0, 1⟩
def F.PG_STAT_BUSY (pg : Nat) : Fld := ⟨R.PG_STAT pg, 1, 1⟩
def F.PG_STAT_ERR (pg : Nat) : Fld := ⟨R.PG_STAT pg, 2, 1⟩
def F.PG_STAT_HELD (pg : Nat) : Fld := ⟨R.PG_STAT pg, 3, 1⟩
def F.PG_STAT_GATED (pg : Nat) : Fld := ⟨R.PG_STAT pg, 4, 1⟩
def R.PG_EVT (pg : Nat) : Nat := 0x400 * pg + 0x10
def R.PG_EVT_EN (pg : Nat) : Nat := 0x400 * pg + 0x14
def R.PG_EVT_SET (pg : Nat) : Nat := 0x400 * pg + 0x18
def R.PG_COMMIT (pg : Nat) : Nat := 0x400 * pg + 0x1C
def F.PG_COMMIT_PEND (pg : Nat) : Fld := ⟨R.PG_COMMIT pg, 0, 1⟩
def F.PG_COMMIT_COUNT (pg : Nat) : Fld := ⟨R.PG_COMMIT pg, 16, 16⟩
def R.PG_GUARD (pg : Nat) : Nat := 0x400 * pg + 0x20
def F.PG_GUARD_OPEN (pg : Nat) : Fld := ⟨R.PG_GUARD pg, 0, 1⟩
def F.PG_GUARD_LOCK (pg : Nat) : Fld := ⟨R.PG_GUARD pg, 1, 1⟩
def F.PG_GUARD_REFUSED (pg : Nat) : Fld := ⟨R.PG_GUARD pg, 16, 16⟩

/-! Page numbers, R64. -/

def Pg.SYS : Nat := 0x00
def Pg.CLK : Nat := 0x01
def Pg.PWR : Nat := 0x02
def Pg.SEC : Nat := 0x03
def Pg.OTP : Nat := 0x04
def Pg.BOOT : Nat := 0x05
def Pg.CPU : Nat := 0x06
def Pg.ERR : Nat := 0x07
def Pg.MEM : Nat := 0x08
def Pg.SCHG : Nat := 0x09
def Pg.SCHQ : Nat := 0x0A
def Pg.TIME : Nat := 0x0B
def Pg.STN : Nat := 0x0C
def Pg.TWIN : Nat := 0x0D
def Pg.REF : Nat := 0x0E
def Pg.HOST : Nat := 0x0F
def Pg.LANE (p : Nat) : Nat := 0x10 + p
def Pg.TREE (p : Nat) : Nat := 0x18 + p
def Pg.BERTH : Nat := 0x1C
def Pg.CTL : Nat := 0x20
def Pg.CHAIN : Nat := 0x21
def Pg.SCHD : Nat := 0x22
def Pg.RCU : Nat := 0x23
def Pg.ANG : Nat := 0x24
def Pg.SUP : Nat := 0x25
def Pg.MOD : Nat := 0x26
def Pg.RANK : Nat := 0x27
def Pg.REC : Nat := 0x28
def Pg.MON (p : Nat) : Nat := 0x29 + p
def Pg.ADC : Nat := 0x2B
def Pg.ACC : Nat := 0x2C
def Pg.GATE : Nat := 0x2D
def Pg.SAFE : Nat := 0x2E
def Pg.GPIO : Nat := 0x2F

end Sys2Proof.Machine
end

