-- ==== Sys2Proof/Machine/RegTable.lean ====
section
/-! DEFINITION. The register map as data: for every page of R64 its registers, each with its offset, stride and count,
the roles that hold it, its reset value and its fields with their kinds (R7, R66). Written out from the register and
field tables of the chapters; the header of R65 is handled in Access.lean. -/

namespace Sys2Proof.Machine

/-- The kind of a field, R7: RO (and the reserved bits), RW, W1C, SH, ST, W; `row` is a field the tables give as
"RO, W", read like RO and acted on by its own rule when written. -/
inductive Kind where
  | ro | rw | w1c | sh | st | w | row
  deriving DecidableEq, Repr

/-- A field: lowest bit, width, kind, and whether it is also GD (R76). -/
structure FieldDesc where
  lo : Nat
  w : Nat
  kind : Kind
  gd : Bool
  deriving DecidableEq, Repr

/-- A register or an array of registers: offset within the page, stride and count, the roles that hold it (bit 0
cell, bit 1 hub, bit 2 referee; in another role it reads 0 and ignores writes), the reset value, the fields. -/
structure RegDesc where
  off : Nat
  stride : Nat
  count : Nat
  roles : Nat
  reset : Nat
  fields : List FieldDesc
  deriving DecidableEq, Repr

/-- A field without GD. -/
def fd (lo w : Nat) (k : Kind) : FieldDesc := ⟨lo, w, k, false⟩

/-- A field that is also GD. -/
def gf (lo w : Nat) (k : Kind) : FieldDesc := ⟨lo, w, k, true⟩

namespace RegTable

/-- SYS, page 0x00. -/
def sys : List RegDesc := [
  ⟨0x040, 4, 1, 7, 0x21024, [fd 0 16 .ro, fd 16 4 .ro]⟩,
  ⟨0x044, 4, 1, 7, 0x7, [fd 0 1 .ro, fd 1 1 .ro, fd 2 1 .ro]⟩,
  ⟨0x048, 4, 1, 7, 0x0, [fd 0 2 .ro, fd 4 2 .ro, fd 8 1 .ro]⟩,
  ⟨0x04C, 4, 1, 7, 0x0, [gf 0 6 .st, gf 8 1 .st, gf 9 5 .st, fd 16 10 .ro, fd 31 1 .ro]⟩,
  ⟨0x050, 4, 1, 7, 0x1, [gf 0 2 .st, gf 4 1 .st, fd 5 1 .ro, fd 16 16 .ro]⟩,
  ⟨0x054, 4, 1, 7, 0x0, [fd 0 1 .w1c, fd 1 1 .w1c, fd 2 1 .w1c, fd 3 1 .w1c, fd 4 1 .w1c, fd 5 1 .w1c, fd 8 3 .ro, fd 16 16 .ro]⟩,
  ⟨0x058, 4, 1, 7, 0x0, [fd 0 12 .ro, fd 12 12 .ro, fd 24 3 .ro]⟩,
  ⟨0x05C, 4, 1, 7, 0x101, [fd 0 1 .ro, fd 8 1 .ro, fd 9 1 .ro, fd 10 1 .ro, fd 11 1 .ro]⟩,
  ⟨0x060, 4, 1, 7, 0x0, [fd 0 32 .ro]⟩,
  ⟨0x064, 4, 1, 7, 0x0, [fd 0 32 .ro]⟩]

/-- CLK, page 0x01, part 0. -/
def clk0 : List RegDesc := [
  ⟨0x040, 4, 1, 7, 0x0, [fd 0 1 .rw, fd 1 1 .rw, fd 2 1 .rw, fd 4 1 .rw, fd 8 1 .rw]⟩,
  ⟨0x044, 4, 1, 7, 0x2804, [fd 0 2 .st, fd 2 6 .st, fd 8 8 .st]⟩,
  ⟨0x048, 4, 1, 7, 0x0, [fd 0 20 .st]⟩,
  ⟨0x04C, 4, 1, 7, 0x0, [fd 0 1 .ro, fd 16 16 .ro]⟩,
  ⟨0x050, 4, 1, 7, 0x10100, [fd 0 2 .rw, fd 8 8 .rw, fd 16 8 .ro, fd 24 1 .ro, fd 25 1 .ro, fd 26 2 .ro]⟩,
  ⟨0x054, 4, 1, 7, 0x20200, [fd 0 2 .rw, fd 8 8 .rw, fd 16 8 .ro, fd 24 1 .ro, fd 25 1 .ro, fd 26 2 .ro]⟩,
  ⟨0x058, 4, 1, 7, 0xA0A00, [fd 0 2 .rw, fd 8 8 .rw, fd 16 8 .ro, fd 24 1 .ro, fd 25 1 .ro, fd 26 2 .ro]⟩,
  ⟨0x05C, 4, 1, 7, 0x40400, [fd 0 2 .rw, fd 8 8 .rw, fd 16 8 .ro, fd 24 1 .ro, fd 25 1 .ro, fd 26 2 .ro]⟩,
  ⟨0x060, 4, 1, 7, 0x4, [fd 0 6 .rw]⟩,
  ⟨0x064, 4, 1, 7, 0xC8, [fd 0 10 .rw]⟩,
  ⟨0x068, 4, 1, 7, 0x10, [fd 0 8 .rw]⟩,
  ⟨0x06C, 4, 1, 7, 0x180, [fd 0 8 .rw, fd 8 1 .rw]⟩,
  ⟨0x070, 4, 1, 7, 0x0, [fd 0 32 .ro]⟩,
  ⟨0x074, 4, 1, 7, 0x17D, [fd 0 8 .ro, fd 8 1 .ro]⟩,
  ⟨0x078, 4, 1, 7, 0x200258, [fd 0 12 .rw, fd 16 8 .rw]⟩,
  ⟨0x07C, 4, 1, 7, 0x0, [fd 0 5 .w1c, fd 5 1 .w1c, fd 8 4 .w1c]⟩,
  ⟨0x080, 4, 1, 7, 0x31F47D0, [fd 0 12 .rw, fd 12 12 .rw, fd 24 8 .rw]⟩,
  ⟨0x088, 4, 1, 7, 0x10C357D0, [fd 0 12 .rw, fd 12 12 .rw, fd 24 8 .rw]⟩,
  ⟨0x090, 4, 1, 7, 0x10C357D0, [fd 0 12 .rw, fd 12 12 .rw, fd 24 8 .rw]⟩,
  ⟨0x098, 4, 1, 7, 0x10C357D0, [fd 0 12 .rw, fd 12 12 .rw, fd 24 8 .rw]⟩]

/-- CLK, page 0x01, part 1. -/
def clk1 : List RegDesc := [
  ⟨0x0A0, 4, 1, 7, 0xD9C47D0, [fd 0 12 .rw, fd 12 12 .rw, fd 24 8 .rw]⟩,
  ⟨0x084, 8, 5, 7, 0x0, [fd 0 12 .ro, fd 16 1 .ro, fd 20 4 .ro]⟩]

/-- CLK, page 0x01. -/
def clk : List RegDesc := clk0 ++ clk1

/-- PWR, page 0x02. -/
def pwr : List RegDesc := [
  ⟨0x040, 4, 1, 7, 0xAAAA, [fd 16 8 .ro, fd 0 2 .ro, fd 2 2 .ro, fd 4 2 .ro, fd 6 2 .ro, fd 8 2 .ro, fd 10 2 .ro, fd 12 2 .ro, fd 14 2 .ro]⟩,
  ⟨0x044, 4, 1, 7, 0x7, [fd 0 3 .rw]⟩,
  ⟨0x048, 4, 1, 7, 0x34802F8, [fd 0 16 .rw, fd 16 16 .rw]⟩,
  ⟨0x04C, 4, 1, 7, 0xE2E0B9A, [fd 0 16 .rw, fd 16 16 .rw]⟩,
  ⟨0x050, 4, 1, 7, 0x76206AE, [fd 0 16 .rw, fd 16 16 .rw]⟩,
  ⟨0x054, 4, 1, 7, 0x0, [fd 0 3 .ro, fd 8 8 .ro, fd 16 8 .ro, fd 24 8 .ro]⟩]

/-- SEC, page 0x03. -/
def sec : List RegDesc := [
  ⟨0x040, 4, 1, 7, 0x78, [fd 0 10 .rw, fd 12 1 .w, fd 16 1 .ro, fd 17 1 .ro, fd 22 10 .ro]⟩,
  ⟨0x044, 4, 1, 7, 0x0, [fd 0 1 .ro, fd 8 7 .ro]⟩,
  ⟨0x048, 4, 1, 7, 0x0, [fd 0 32 .ro]⟩,
  ⟨0x04C, 4, 1, 7, 0x0, [fd 0 32 .ro]⟩,
  ⟨0x050, 4, 1, 7, 0x0, [fd 0 2 .ro, fd 4 1 .ro]⟩,
  ⟨0x054, 4, 1, 7, 0x0, [fd 0 32 .ro]⟩,
  ⟨0x058, 4, 1, 7, 0x0, [fd 0 32 .ro]⟩,
  ⟨0x060, 4, 16, 7, 0x0, [fd 0 32 .ro]⟩,
  ⟨0x0A0, 4, 1, 7, 0x0, [fd 0 3 .ro, fd 4 2 .ro, fd 8 8 .ro, gf 16 16 .w]⟩,
  ⟨0x0A4, 4, 1, 7, 0x181E, [gf 0 6 .st, gf 8 6 .st]⟩,
  ⟨0x0A8, 4, 1, 7, 0x0, [fd 0 16 .ro, fd 16 16 .ro]⟩,
  ⟨0x0B0, 4, 1, 7, 0x0, [fd 0 1 .w, fd 1 1 .ro]⟩,
  ⟨0x0B4, 4, 4, 7, 0x0, [fd 0 32 .rw]⟩,
  ⟨0x0C4, 4, 1, 7, 0x20000000, [fd 0 32 .rw]⟩,
  ⟨0x0C8, 4, 1, 7, 0x0, [fd 0 1 .w, fd 1 1 .w]⟩,
  ⟨0x0CC, 4, 1, 7, 0x0, [fd 0 1 .ro, fd 8 4 .ro]⟩,
  ⟨0x100, 4, 48, 7, 0x0, [fd 0 32 .ro]⟩,
  ⟨0x200, 16, 32, 7, 0x0, [gf 0 32 .rw]⟩,
  ⟨0x204, 16, 32, 7, 0x0, [gf 0 32 .rw]⟩,
  ⟨0x208, 16, 32, 7, 0x0, [gf 0 2 .rw]⟩]

/-- OTP, page 0x04. -/
def otp : List RegDesc := [
  ⟨0x040, 4, 1, 7, 0x0, [fd 2 11 .rw]⟩,
  ⟨0x044, 4, 1, 7, 0x0, [fd 0 32 .rw]⟩,
  ⟨0x048, 4, 1, 7, 0x0, [gf 0 1 .w]⟩,
  ⟨0x04C, 4, 1, 7, 0x0, [fd 0 1 .ro, fd 1 1 .ro, fd 2 1 .ro]⟩]

/-- BOOT, page 0x05. -/
def boot : List RegDesc := [
  ⟨0x040, 4, 1, 7, 0x0, [fd 0 3 .ro]⟩,
  ⟨0x044, 4, 1, 7, 0xF0F, [fd 0 4 .ro, fd 8 4 .ro]⟩,
  ⟨0x048, 4, 1, 7, 0x0, [fd 0 1 .rw, fd 1 1 .rw]⟩,
  ⟨0x04C, 4, 1, 7, 0x0, [fd 0 1 .w]⟩,
  ⟨0x050, 4, 1, 7, 0x0, [fd 0 6 .ro, gf 8 6 .w]⟩,
  ⟨0x054, 4, 1, 7, 0x0, [fd 0 6 .ro, fd 16 16 .ro]⟩,
  ⟨0x058, 4, 1, 7, 0x0, [fd 0 32 .ro]⟩,
  ⟨0x05C, 4, 1, 7, 0x0, [fd 0 32 .ro]⟩,
  ⟨0x060, 4, 1, 7, 0x0, [fd 0 32 .ro]⟩,
  ⟨0x064, 4, 1, 7, 0x0, [fd 0 32 .ro]⟩,
  ⟨0x068, 4, 1, 7, 0x0, [fd 0 1 .ro, fd 1 1 .ro, fd 8 8 .ro]⟩,
  ⟨0x06C, 4, 1, 7, 0x0, [fd 0 16 .ro]⟩,
  ⟨0x080, 8, 16, 7, 0x0, [gf 0 32 .rw]⟩,
  ⟨0x084, 8, 16, 7, 0x0, [gf 0 32 .rw]⟩]

/-- CPU, page 0x06. -/
def cpu : List RegDesc := [
  ⟨0x040, 4, 1, 7, 0x100, [fd 0 32 .rw]⟩,
  ⟨0x044, 4, 1, 7, 0x0, [fd 0 4 .w1c, fd 8 4 .ro, fd 16 2 .ro, fd 24 1 .w]⟩,
  ⟨0x048, 4, 2, 7, 0x0, [fd 0 32 .ro]⟩,
  ⟨0x050, 4, 2, 7, 0x0, [fd 0 32 .ro]⟩,
  ⟨0x058, 4, 2, 7, 0x0, [fd 0 32 .ro]⟩,
  ⟨0x060, 4, 1, 7, 0x0, [fd 0 8 .ro, fd 8 1 .ro, fd 30 1 .w1c, fd 31 1 .w1c]⟩,
  ⟨0x064, 4, 1, 7, 0x0, [fd 0 32 .ro]⟩,
  ⟨0x068, 4, 1, 7, 0xC00807D0, [fd 0 16 .rw, fd 16 8 .rw, fd 30 1 .rw, fd 31 1 .ro]⟩,
  ⟨0x06C, 4, 1, 7, 0x0, [fd 0 32 .w]⟩,
  ⟨0x070, 4, 1, 7, 0x0, [fd 0 16 .ro, fd 16 1 .ro, fd 24 8 .ro]⟩,
  ⟨0x074, 4, 1, 7, 0x0, [fd 0 32 .w]⟩,
  ⟨0x078, 4, 1, 7, 0x0, [fd 0 1 .rw]⟩,
  ⟨0x080, 4, 2, 7, 0x0, [fd 0 32 .rw]⟩,
  ⟨0x088, 4, 2, 7, 0x0, [fd 0 32 .ro]⟩,
  ⟨0x090, 4, 8, 7, 0x0, [fd 0 3 .rw, fd 4 3 .rw, fd 8 3 .rw, fd 12 3 .rw, fd 16 3 .rw, fd 20 3 .rw, fd 24 3 .rw, fd 28 3 .rw]⟩,
  ⟨0x0B0, 4, 1, 7, 0xFF, [fd 0 8 .rw]⟩]

/-- ERR, page 0x07. -/
def err : List RegDesc := [
  ⟨0x040, 4, 1, 7, 0xA1, [fd 0 1 .rw, fd 4 12 .rw]⟩,
  ⟨0x044, 4, 1, 7, 0x0, [fd 0 16 .ro]⟩,
  ⟨0x048, 4, 1, 7, 0x0, [fd 0 6 .ro, fd 8 3 .ro, fd 12 4 .ro, fd 16 16 .ro]⟩,
  ⟨0x04C, 4, 1, 7, 0x0, [fd 0 1 .w, fd 1 1 .w, fd 4 2 .w]⟩,
  ⟨0x050, 4, 1, 7, 0x0, [fd 0 8 .ro, fd 8 8 .ro, fd 16 8 .ro, fd 24 8 .ro]⟩,
  ⟨0x054, 4, 1, 7, 0x0, [fd 0 8 .ro, fd 8 8 .ro, fd 16 8 .ro, fd 24 8 .ro]⟩,
  ⟨0x058, 4, 1, 7, 0x0, [fd 0 2 .w, fd 8 8 .w]⟩,
  ⟨0x05C, 4, 1, 7, 0x0, [fd 0 32 .rw]⟩,
  ⟨0x060, 4, 1, 7, 0x0, [fd 0 2 .rw, fd 8 1 .ro]⟩,
  ⟨0x064, 4, 1, 7, 0x0, [fd 3 29 .rw]⟩,
  ⟨0x068, 4, 1, 7, 0x0, [fd 0 16 .ro, fd 16 16 .ro]⟩,
  ⟨0x080, 4, 4, 7, 0x0, [fd 0 32 .ro]⟩]

/-- MEM, page 0x08, part 0. -/
def mem0 : List RegDesc := [
  ⟨0x040, 4, 1, 7, 0x41008, [fd 0 7 .rw, fd 8 7 .rw, fd 16 8 .rw]⟩,
  ⟨0x044, 4, 1, 7, 0x0, [fd 0 4 .ro, fd 4 1 .ro, fd 8 8 .ro, fd 16 7 .ro, fd 24 8 .ro]⟩,
  ⟨0x048, 4, 1, 7, 0x0, [fd 0 1 .w, fd 1 1 .w, fd 8 1 .ro]⟩,
  ⟨0x04C, 4, 1, 7, 0x0, [fd 0 16 .ro, fd 16 8 .ro, fd 24 8 .ro]⟩,
  ⟨0x050, 4, 1, 7, 0x0, [fd 0 4 .ro, fd 8 2 .ro, fd 16 8 .ro]⟩,
  ⟨0x060, 4, 8, 7, 0x0, [fd 0 32 .ro]⟩,
  ⟨0x080, 4, 1, 7, 0x10, [fd 0 8 .rw]⟩,
  ⟨0x090, 4, 1, 7, 0x18, [fd 0 8 .rw]⟩,
  ⟨0x0A0, 4, 1, 7, 0x30, [fd 0 8 .rw]⟩,
  ⟨0x0B0, 4, 1, 7, 0x30, [fd 0 8 .rw]⟩,
  ⟨0x0C0, 4, 1, 7, 0x10, [fd 0 8 .rw]⟩,
  ⟨0x0D0, 4, 1, 7, 0x10, [fd 0 8 .rw]⟩,
  ⟨0x0E0, 4, 1, 7, 0x10, [fd 0 8 .rw]⟩,
  ⟨0x0F0, 4, 1, 7, 0x10, [fd 0 8 .rw]⟩,
  ⟨0x100, 4, 1, 7, 0x18, [fd 0 8 .rw]⟩,
  ⟨0x110, 4, 1, 7, 0x10, [fd 0 8 .rw]⟩,
  ⟨0x120, 4, 1, 7, 0x8, [fd 0 8 .rw]⟩,
  ⟨0x130, 4, 1, 7, 0x4, [fd 0 8 .rw]⟩,
  ⟨0x140, 4, 1, 7, 0x4, [fd 0 8 .rw]⟩,
  ⟨0x084, 16, 13, 7, 0x0, [fd 0 8 .ro, fd 8 1 .ro, fd 9 1 .ro, fd 10 1 .ro]⟩]

/-- MEM, page 0x08, part 1. -/
def mem1 : List RegDesc := [
  ⟨0x088, 16, 13, 7, 0x0, [fd 0 32 .ro]⟩,
  ⟨0x08C, 16, 13, 7, 0x0, [fd 0 16 .ro, fd 16 16 .row]⟩]

/-- MEM, page 0x08. -/
def mem : List RegDesc := mem0 ++ mem1

/-- SCHG, page 0x09. -/
def schg : List RegDesc := [
  ⟨0x040, 4, 1, 7, 0xA1001, [fd 0 1 .rw, fd 8 6 .rw, fd 16 8 .rw]⟩,
  ⟨0x044, 4, 1, 7, 0x400, [fd 0 11 .ro, fd 16 11 .ro]⟩,
  ⟨0x048, 4, 1, 7, 0x0, [fd 0 16 .rw, fd 16 8 .rw]⟩,
  ⟨0x04C, 4, 1, 7, 0x0, [fd 0 32 .rw]⟩,
  ⟨0x050, 4, 1, 7, 0x0, [fd 0 32 .rw]⟩,
  ⟨0x054, 4, 1, 7, 0x0, [fd 0 8 .rw, fd 8 24 .rw]⟩,
  ⟨0x058, 4, 1, 7, 0x0, [fd 0 5 .w, fd 8 2 .w, fd 12 1 .w, fd 31 1 .w]⟩,
  ⟨0x05C, 4, 1, 7, 0x0, [fd 0 16 .ro, fd 16 4 .ro, fd 30 1 .ro, fd 31 1 .ro]⟩,
  ⟨0x060, 4, 1, 7, 0x0, [fd 0 16 .w]⟩,
  ⟨0x064, 4, 1, 7, 0x0, [fd 0 2 .ro, fd 30 1 .ro, fd 31 1 .ro]⟩,
  ⟨0x068, 4, 1, 7, 0xFFFFFFFF, [fd 0 32 .ro]⟩,
  ⟨0x06C, 4, 4, 7, 0x0, [fd 0 32 .ro]⟩,
  ⟨0x07C, 4, 1, 7, 0x0, [fd 0 16 .w]⟩,
  ⟨0x080, 4, 1, 7, 0x0, [fd 0 32 .ro]⟩,
  ⟨0x084, 4, 1, 7, 0x0, [fd 0 32 .ro]⟩,
  ⟨0x090, 4, 4, 7, 0x0, [fd 0 9 .ro, fd 16 8 .ro, fd 24 8 .ro]⟩,
  ⟨0x0A0, 4, 1, 7, 0x0, [fd 0 16 .ro, fd 16 8 .ro, fd 24 8 .ro]⟩,
  ⟨0x0A4, 4, 1, 7, 0x0, [fd 0 16 .ro, fd 16 16 .row]⟩]

/-- SCHQ, page 0x0A. -/
def schq : List RegDesc := [
  ⟨0x040, 16, 32, 7, 0x1000121, [fd 0 1 .rw, fd 4 2 .rw, fd 8 8 .rw, fd 16 11 .rw]⟩,
  ⟨0x044, 16, 32, 7, 0x0, [fd 0 11 .ro, fd 12 1 .ro, fd 16 8 .ro]⟩,
  ⟨0x048, 16, 32, 7, 0x0, [fd 0 16 .ro, fd 16 16 .ro]⟩,
  ⟨0x04C, 16, 32, 7, 0x0, [fd 0 1 .w]⟩,
  ⟨0x240, 4, 1, 7, 0x0, [fd 0 32 .ro]⟩]

/-- TIME, page 0x0B, part 0. -/
def time0 : List RegDesc := [
  ⟨0x040, 4, 1, 7, 0x0, [fd 0 2 .rw, fd 4 1 .rw]⟩,
  ⟨0x044, 4, 1, 7, 0x0, [fd 0 1 .ro, fd 1 1 .ro, fd 4 2 .ro, fd 8 8 .ro]⟩,
  ⟨0x048, 4, 1, 7, 0x0, [fd 0 30 .ro]⟩,
  ⟨0x04C, 4, 1, 7, 0x0, [fd 0 32 .ro]⟩,
  ⟨0x050, 4, 1, 7, 0x0, [fd 0 32 .ro]⟩,
  ⟨0x054, 4, 1, 7, 0x0, [fd 0 32 .ro]⟩,
  ⟨0x058, 4, 1, 7, 0xA, [fd 0 4 .rw]⟩,
  ⟨0x05C, 4, 1, 7, 0x0, [fd 0 32 .rw]⟩,
  ⟨0x060, 4, 1, 7, 0x0, [fd 0 32 .rw]⟩,
  ⟨0x064, 4, 1, 7, 0x0, [fd 0 32 .rw]⟩,
  ⟨0x068, 4, 1, 7, 0x0, [fd 0 30 .rw]⟩,
  ⟨0x06C, 4, 1, 7, 0x0, [fd 0 32 .rw]⟩,
  ⟨0x070, 4, 1, 7, 0x0, [fd 0 32 .rw]⟩,
  ⟨0x074, 4, 1, 7, 0x0, [fd 0 1 .w, fd 1 1 .w]⟩,
  ⟨0x078, 4, 1, 7, 0xA, [fd 0 7 .sh, fd 8 1 .rw]⟩,
  ⟨0x07C, 4, 1, 7, 0x0, [fd 0 30 .sh]⟩,
  ⟨0x080, 4, 1, 7, 0x0, [fd 0 32 .sh]⟩,
  ⟨0x084, 4, 1, 7, 0x0, [fd 0 32 .sh]⟩,
  ⟨0x088, 4, 1, 7, 0x0, [fd 0 32 .sh]⟩,
  ⟨0x08C, 4, 1, 7, 0x0, [fd 0 16 .sh]⟩]

/-- TIME, page 0x0B, part 1. -/
def time1 : List RegDesc := [
  ⟨0x090, 4, 1, 7, 0x0, [fd 0 32 .ro]⟩,
  ⟨0x094, 4, 1, 7, 0x0, [fd 0 16 .ro]⟩,
  ⟨0x098, 4, 4, 7, 0x80000000, [fd 0 32 .sh]⟩,
  ⟨0x0A8, 4, 1, 7, 0x402, [fd 0 3 .rw, fd 8 8 .rw, fd 16 16 .ro]⟩,
  ⟨0x0AC, 4, 1, 7, 0x0, [fd 0 24 .ro]⟩,
  ⟨0x0B0, 4, 1, 7, 0x0, [fd 0 32 .ro]⟩,
  ⟨0x0B4, 4, 1, 7, 0x64, [fd 0 10 .rw, fd 16 1 .rw]⟩,
  ⟨0x0B8, 4, 1, 7, 0x10004, [fd 0 8 .rw, fd 16 8 .rw]⟩,
  ⟨0x0BC, 4, 1, 7, 0x1, [fd 0 1 .rw, fd 1 1 .rw]⟩,
  ⟨0x0C0, 16, 2, 7, 0x0, [fd 0 16 .ro, fd 16 4 .ro, fd 20 1 .ro, fd 31 1 .ro]⟩,
  ⟨0x0C4, 16, 2, 7, 0x0, [fd 0 32 .ro]⟩,
  ⟨0x0C8, 16, 2, 7, 0x0, [fd 0 32 .ro]⟩,
  ⟨0x0CC, 16, 2, 7, 0x0, [fd 0 5 .ro, fd 16 16 .ro]⟩,
  ⟨0x0E0, 4, 1, 7, 0x0, [fd 0 32 .ro]⟩,
  ⟨0x0E4, 4, 1, 7, 0x0, [fd 0 16 .ro, fd 16 16 .ro]⟩]

/-- TIME, page 0x0B. -/
def time : List RegDesc := time0 ++ time1

/-- STN, page 0x0C, part 0. -/
def stn0 : List RegDesc := [
  ⟨0x040, 4, 1, 7, 0x88B50001, [fd 0 1 .st, fd 1 1 .st, fd 16 16 .st]⟩,
  ⟨0x044, 4, 1, 7, 0x0, [fd 0 32 .st]⟩,
  ⟨0x048, 4, 1, 7, 0x0, [fd 0 16 .st]⟩,
  ⟨0x04C, 4, 1, 7, 0x0, [fd 0 32 .rw]⟩,
  ⟨0x050, 4, 1, 7, 0x0, [fd 0 32 .rw]⟩,
  ⟨0x054, 4, 1, 2, 0x0, [fd 0 32 .rw]⟩,
  ⟨0x058, 4, 1, 2, 0x0, [fd 0 32 .rw]⟩,
  ⟨0x05C, 4, 1, 7, 0x0, [fd 0 12 .st, fd 13 3 .st]⟩,
  ⟨0x060, 4, 1, 7, 0x19007D0, [fd 0 16 .rw, fd 16 16 .rw]⟩,
  ⟨0x064, 4, 1, 7, 0x0, [fd 0 2 .ro, fd 2 1 .ro, fd 3 1 .ro, fd 4 1 .ro, fd 5 1 .ro, fd 8 6 .ro]⟩,
  ⟨0x068, 4, 1, 7, 0x0, [fd 0 1 .w, fd 1 1 .w]⟩,
  ⟨0x06C, 4, 1, 2, 0x64, [fd 0 16 .rw]⟩,
  ⟨0x070, 4, 1, 2, 0x13880032, [fd 0 16 .rw, fd 16 16 .rw]⟩,
  ⟨0x074, 4, 1, 2, 0x0, [fd 0 32 .ro]⟩,
  ⟨0x078, 4, 1, 7, 0x201D0000, [fd 0 32 .st]⟩,
  ⟨0x07C, 4, 1, 7, 0x0, [fd 0 5 .w, fd 8 5 .ro]⟩,
  ⟨0x080, 4, 1, 7, 0x201E0000, [fd 0 32 .st]⟩,
  ⟨0x084, 4, 1, 7, 0x0, [fd 0 5 .rw, fd 8 5 .ro]⟩,
  ⟨0x088, 4, 1, 2, 0x0, [fd 0 8 .ro, fd 16 16 .ro]⟩,
  ⟨0x090, 16, 4, 2, 0x0, [fd 0 1 .rw, fd 1 1 .rw, fd 16 16 .rw]⟩]

/-- STN, page 0x0C, part 1. -/
def stn1 : List RegDesc := [
  ⟨0x094, 16, 4, 2, 0x0, [fd 0 32 .rw]⟩,
  ⟨0x098, 16, 4, 2, 0x0, [fd 0 32 .rw]⟩,
  ⟨0x09C, 16, 4, 2, 0x3D090, [fd 0 32 .rw]⟩,
  ⟨0x0D0, 16, 2, 7, 0x0, [fd 0 32 .ro]⟩,
  ⟨0x0D4, 16, 2, 7, 0x0, [fd 0 16 .ro, fd 16 8 .ro, fd 24 8 .ro]⟩,
  ⟨0x0D8, 16, 2, 7, 0x0, [fd 0 32 .ro]⟩,
  ⟨0x0DC, 16, 2, 7, 0x0, [fd 0 32 .ro]⟩,
  ⟨0x0F0, 4, 1, 2, 0x0, [fd 0 16 .ro, fd 16 8 .ro, fd 24 8 .ro]⟩,
  ⟨0x0F4, 4, 1, 2, 0x0, [fd 0 16 .ro, fd 16 8 .ro, fd 24 8 .ro]⟩,
  ⟨0x0F8, 4, 1, 2, 0x0, [fd 0 16 .ro, fd 16 8 .ro, fd 24 8 .ro]⟩,
  ⟨0x0FC, 4, 1, 7, 0x0, [fd 0 16 .ro, fd 16 16 .ro]⟩,
  ⟨0x100, 4, 32, 2, 0x7FC00000, [fd 0 32 .ro]⟩]

/-- STN, page 0x0C. -/
def stn : List RegDesc := stn0 ++ stn1

/-- TWIN, page 0x0D. -/
def twin : List RegDesc := [
  ⟨0x040, 4, 1, 7, 0x11001, [fd 0 1 .st, fd 8 6 .st, fd 16 1 .st]⟩,
  ⟨0x044, 4, 1, 7, 0x0, [fd 0 1 .ro, fd 1 1 .ro, fd 2 1 .ro, fd 4 2 .ro, fd 8 1 .ro, fd 9 1 .ro, fd 10 1 .ro, fd 11 1 .ro, fd 12 1 .ro]⟩,
  ⟨0x048, 4, 1, 7, 0x0, [fd 0 16 .ro, fd 16 16 .ro]⟩,
  ⟨0x04C, 4, 1, 7, 0x28003C1, [fd 0 1 .rw, fd 1 1 .rw, fd 4 12 .rw, fd 16 8 .rw, fd 24 4 .rw]⟩,
  ⟨0x050, 4, 1, 7, 0x0, [fd 0 32 .ro]⟩,
  ⟨0x054, 4, 1, 7, 0x0, [fd 0 24 .ro, fd 24 7 .ro]⟩,
  ⟨0x058, 4, 1, 7, 0x0, [fd 0 16 .ro, fd 16 16 .ro]⟩,
  ⟨0x05C, 4, 1, 7, 0x0, [fd 0 32 .ro]⟩,
  ⟨0x060, 4, 1, 7, 0x0, [fd 0 32 .ro]⟩,
  ⟨0x064, 4, 1, 7, 0x0, [fd 0 16 .ro, fd 16 16 .ro]⟩,
  ⟨0x068, 4, 1, 7, 0x0, [fd 0 3 .ro, fd 8 1 .ro, fd 9 1 .ro]⟩,
  ⟨0x06C, 4, 1, 7, 0x0, [fd 0 24 .ro]⟩,
  ⟨0x070, 4, 1, 7, 0x0, [fd 0 8 .ro, fd 8 8 .ro, fd 16 8 .ro, fd 24 8 .ro]⟩,
  ⟨0x074, 4, 1, 7, 0x1, [fd 0 8 .ro]⟩,
  ⟨0x080, 8, 16, 7, 0x0, [fd 0 32 .st]⟩,
  ⟨0x084, 8, 16, 7, 0x0, [fd 0 21 .st]⟩]

/-- REF, page 0x0E. -/
def ref : List RegDesc := [
  ⟨0x040, 4, 1, 2, 0x405, [fd 0 6 .st, fd 8 5 .st]⟩,
  ⟨0x044, 4, 1, 2, 0x0, [fd 0 1 .ro, fd 1 1 .ro, fd 16 16 .ro]⟩,
  ⟨0x048, 4, 1, 2, 0x0, [fd 0 1 .rw, fd 8 4 .w1c]⟩,
  ⟨0x04C, 4, 1, 2, 0x0, [fd 0 16 .ro, fd 16 8 .ro, fd 24 8 .ro]⟩,
  ⟨0x100, 32, 2, 4, 0x40500, [fd 0 1 .st, fd 1 1 .st, fd 2 1 .st, fd 8 6 .st, fd 16 5 .st]⟩,
  ⟨0x104, 32, 2, 4, 0x10280, [fd 0 8 .st, fd 8 4 .st, fd 16 1 .st]⟩,
  ⟨0x108, 32, 2, 4, 0x0, [fd 0 16 .ro, fd 16 2 .ro, fd 18 2 .ro]⟩,
  ⟨0x10C, 32, 2, 4, 0x0, [fd 0 16 .ro, fd 16 8 .ro, fd 24 8 .ro]⟩,
  ⟨0x110, 32, 2, 4, 0x0, [fd 0 3 .ro, fd 16 16 .ro]⟩,
  ⟨0x180, 16, 4, 4, 0x0, [fd 0 8 .ro, fd 8 8 .ro, fd 16 1 .ro, fd 17 1 .ro]⟩,
  ⟨0x184, 16, 4, 4, 0x0, [fd 0 32 .ro]⟩,
  ⟨0x188, 16, 4, 4, 0x0, [fd 0 16 .ro, fd 16 8 .ro, fd 24 8 .ro]⟩,
  ⟨0x18C, 16, 4, 4, 0x0, [fd 0 16 .ro, fd 16 16 .ro]⟩]

/-- HOST, page 0x0F. -/
def host : List RegDesc := [
  ⟨0x040, 4, 1, 6, 0x300, [fd 0 1 .rw, fd 8 4 .rw]⟩,
  ⟨0x044, 4, 1, 6, 0x0, [fd 0 12 .rw, fd 31 1 .ro]⟩,
  ⟨0x048, 4, 1, 6, 0x0, [fd 0 16 .ro, fd 16 16 .ro]⟩,
  ⟨0x080, 4, 1, 7, 0x0, [gf 0 1 .w, fd 1 1 .w]⟩,
  ⟨0x084, 4, 1, 7, 0x0, [fd 0 1 .ro, fd 1 1 .ro, fd 16 16 .ro]⟩]

/-- LANE, page 0x10. -/
def lane : List RegDesc := [
  ⟨0x040, 4, 1, 7, 0x10, [fd 0 2 .st, fd 4 1 .st, fd 5 1 .st, fd 6 1 .st, fd 8 3 .st, fd 12 1 .ro]⟩,
  ⟨0x044, 4, 1, 7, 0x22, [fd 0 2 .rw, fd 4 2 .ro, fd 8 1 .ro, fd 9 1 .ro]⟩,
  ⟨0x048, 4, 1, 7, 0x0, [fd 0 1 .ro, fd 1 1 .ro, fd 2 1 .ro, fd 3 1 .ro, fd 8 1 .ro, fd 9 1 .ro, fd 12 1 .ro, fd 13 1 .ro]⟩,
  ⟨0x04C, 4, 3, 7, 0x4063600, [fd 0 3 .sh, fd 8 6 .sh, fd 16 4 .sh, fd 24 4 .sh]⟩,
  ⟨0x058, 4, 1, 7, 0x0, [fd 0 16 .ro, fd 16 8 .ro, fd 24 8 .ro]⟩,
  ⟨0x05C, 4, 1, 7, 0x0, [fd 0 16 .ro]⟩,
  ⟨0x060, 4, 1, 7, 0x12, [fd 0 3 .st, fd 4 2 .st]⟩,
  ⟨0x064, 4, 1, 7, 0x0, [fd 0 6 .rw, fd 8 7 .rw, fd 16 4 .rw, fd 31 1 .w]⟩,
  ⟨0x068, 4, 1, 7, 0x0, [fd 0 8 .rw, fd 8 1 .rw]⟩,
  ⟨0x06C, 4, 1, 7, 0x0, [fd 0 32 .ro]⟩,
  ⟨0x070, 4, 1, 7, 0x0, [fd 0 1 .ro, fd 1 1 .ro, fd 2 1 .ro, fd 16 16 .ro]⟩,
  ⟨0x074, 4, 1, 7, 0x0, [fd 0 1 .st, fd 1 1 .st, fd 4 2 .st, fd 7 1 .rw, fd 8 1 .w, fd 9 1 .w]⟩,
  ⟨0x078, 4, 1, 7, 0x0, [fd 0 32 .ro]⟩,
  ⟨0x07C, 4, 1, 7, 0x0, [fd 0 1 .ro, fd 8 8 .ro, fd 16 16 .ro]⟩,
  ⟨0x080, 4, 1, 7, 0x0, [fd 0 5 .ro, fd 8 8 .ro, fd 16 4 .ro]⟩]

/-- TREE, page 0x18, part 0. -/
def tree0 : List RegDesc := [
  ⟨0x040, 4, 1, 2, 0x0, [fd 0 3 .sh, fd 4 1 .sh, fd 8 1 .rw]⟩,
  ⟨0x044, 4, 1, 2, 0x0, [fd 0 3 .ro, fd 4 1 .ro, fd 8 1 .ro, fd 16 11 .ro]⟩,
  ⟨0x048, 4, 1, 2, 0x0, [fd 0 32 .ro]⟩,
  ⟨0x04C, 4, 1, 2, 0x0, [fd 0 16 .ro]⟩,
  ⟨0x050, 4, 1, 2, 0x0, [fd 0 32 .ro]⟩,
  ⟨0x054, 4, 1, 2, 0x0, [fd 0 32 .ro]⟩,
  ⟨0x058, 4, 1, 2, 0x0, [fd 0 32 .ro]⟩,
  ⟨0x05C, 4, 1, 2, 0x0, [fd 0 16 .ro, fd 16 16 .ro]⟩,
  ⟨0x060, 4, 1, 2, 0x0, [fd 0 16 .ro, fd 16 16 .ro]⟩,
  ⟨0x064, 4, 1, 2, 0x0, [fd 0 7 .ro, fd 8 7 .ro, fd 16 16 .ro]⟩,
  ⟨0x068, 4, 1, 2, 0x0, [fd 0 16 .ro, fd 16 9 .ro]⟩,
  ⟨0x070, 4, 1, 2, 0x0, [fd 0 8 .rw, fd 8 3 .rw, fd 11 4 .rw, fd 15 1 .w, fd 16 16 .rw]⟩,
  ⟨0x074, 4, 1, 2, 0x0, [fd 0 1 .ro, fd 8 8 .ro, fd 16 4 .ro, fd 24 8 .ro]⟩,
  ⟨0x078, 4, 1, 2, 0x0, [fd 0 32 .rw]⟩,
  ⟨0x080, 4, 16, 2, 0x0, [fd 0 32 .rw]⟩,
  ⟨0x100, 4, 1, 1, 0x32, [fd 0 9 .rw]⟩,
  ⟨0x104, 4, 1, 1, 0x0, [fd 0 2 .ro, fd 4 3 .ro, fd 7 1 .ro, fd 8 1 .ro, fd 16 16 .ro]⟩,
  ⟨0x108, 4, 1, 1, 0x0, [fd 0 32 .ro]⟩,
  ⟨0x10C, 4, 1, 1, 0x0, [fd 0 32 .ro]⟩,
  ⟨0x110, 4, 1, 7, 0x0, [fd 0 24 .ro]⟩]

/-- TREE, page 0x18, part 1. -/
def tree1 : List RegDesc := [
  ⟨0x114, 4, 1, 7, 0x0, [fd 0 24 .ro]⟩,
  ⟨0x118, 4, 1, 7, 0x0, [fd 0 8 .ro, fd 8 1 .ro, fd 9 1 .ro, fd 16 16 .ro]⟩,
  ⟨0x11C, 4, 1, 7, 0x0, [fd 0 16 .ro, fd 16 16 .ro]⟩,
  ⟨0x120, 4, 1, 7, 0x0, [fd 0 8 .ro, fd 8 8 .ro, fd 16 8 .ro, fd 24 8 .ro]⟩,
  ⟨0x124, 4, 1, 1, 0x0, [fd 0 16 .ro, fd 16 8 .ro, fd 24 8 .ro]⟩,
  ⟨0x128, 4, 1, 1, 0x0, [fd 0 32 .ro]⟩,
  ⟨0x12C, 4, 1, 1, 0x0, [fd 0 8 .ro, fd 8 8 .ro, fd 16 8 .ro, fd 24 4 .ro, fd 28 4 .ro]⟩,
  ⟨0x130, 4, 1, 1, 0x0, [fd 0 32 .ro]⟩,
  ⟨0x134, 4, 1, 1, 0x0, [fd 0 16 .ro, fd 16 16 .ro]⟩,
  ⟨0x138, 4, 1, 7, 0x0, [fd 0 3 .ro, fd 16 16 .ro]⟩,
  ⟨0x140, 4, 4, 1, 0x0, [fd 0 32 .ro]⟩]

/-- TREE, page 0x18. -/
def tree : List RegDesc := tree0 ++ tree1

/-- BERTH, page 0x1C. -/
def berth : List RegDesc := [
  ⟨0x040, 4, 1, 7, 0x0, [fd 0 10 .rw]⟩,
  ⟨0x044, 4, 1, 7, 0x0, [fd 0 1 .w, fd 1 1 .w, fd 2 1 .w]⟩,
  ⟨0x048, 4, 1, 7, 0x0, [fd 0 11 .ro, fd 16 11 .ro]⟩,
  ⟨0x04C, 4, 1, 7, 0x100, [gf 0 4 .rw, fd 8 1 .rw, fd 16 16 .ro]⟩,
  ⟨0x050, 4, 1, 7, 0x12C, [fd 0 12 .rw]⟩,
  ⟨0x054, 4, 1, 7, 0x0, [fd 0 5 .st, fd 8 5 .st, fd 16 5 .st, fd 24 5 .st]⟩,
  ⟨0x058, 4, 1, 7, 0x11268308, [fd 0 8 .rw, fd 8 4 .rw, fd 12 4 .rw, fd 16 4 .rw, fd 20 4 .rw, fd 24 1 .rw, fd 25 4 .rw]⟩,
  ⟨0x05C, 4, 1, 7, 0x0, [fd 0 4 .st]⟩,
  ⟨0x060, 4, 4, 7, 0x0, [fd 0 24 .rw]⟩,
  ⟨0x070, 4, 4, 7, 0x0, [fd 0 16 .ro, fd 16 8 .ro, fd 24 8 .ro]⟩,
  ⟨0x080, 4, 4, 7, 0x0, [fd 0 16 .ro, fd 16 8 .ro, fd 24 8 .ro]⟩,
  ⟨0x090, 4, 4, 7, 0x0, [fd 0 16 .ro, fd 16 8 .ro, fd 24 1 .ro]⟩,
  ⟨0x0A0, 4, 4, 7, 0x0, [fd 0 1 .w, fd 1 1 .ro, fd 4 2 .ro, fd 8 4 .ro, fd 16 8 .ro]⟩,
  ⟨0x0C0, 4, 16, 7, 0x0, [fd 0 32 .rw]⟩]

/-- CTL, page 0x20. -/
def ctl : List RegDesc := [
  ⟨0x040, 4, 1, 7, 0x0, [fd 0 1 .st]⟩,
  ⟨0x044, 4, 1, 7, 0x20100000, [fd 0 32 .st]⟩,
  ⟨0x048, 4, 1, 7, 0x0, [fd 0 1 .ro, fd 4 1 .ro, fd 5 1 .ro, fd 8 2 .ro, fd 12 1 .ro]⟩,
  ⟨0x04C, 4, 1, 7, 0x0, [fd 0 1 .w, fd 4 1 .w]⟩,
  ⟨0x050, 4, 2, 7, 0x0, [fd 0 1 .ro, fd 1 1 .ro, fd 4 4 .ro, fd 8 7 .ro, fd 16 10 .ro]⟩,
  ⟨0x058, 4, 1, 7, 0x1000, [fd 0 1 .rw, fd 1 1 .rw, fd 8 7 .rw, fd 30 1 .w, fd 31 1 .w]⟩,
  ⟨0x05C, 4, 1, 7, 0x0, [fd 0 32 .rw]⟩,
  ⟨0x060, 4, 1, 7, 0x0, [fd 0 16 .rw]⟩,
  ⟨0x064, 4, 1, 7, 0x3F800000, [fd 0 32 .rw]⟩,
  ⟨0x068, 4, 1, 7, 0x0, [fd 0 2 .ro, fd 8 7 .ro, fd 16 2 .ro, fd 24 8 .ro]⟩,
  ⟨0x06C, 4, 1, 7, 0x0, [fd 0 16 .ro, fd 16 16 .row]⟩,
  ⟨0x070, 4, 1, 7, 0x0, [fd 0 8 .ro, fd 8 8 .ro, fd 16 8 .ro, fd 24 8 .ro]⟩,
  ⟨0x074, 4, 1, 7, 0x0, [fd 0 8 .rw]⟩,
  ⟨0x078, 4, 1, 7, 0x0, [fd 0 32 .rw]⟩,
  ⟨0x07C, 4, 1, 7, 0x0, [fd 0 5 .ro, fd 16 16 .ro]⟩,
  ⟨0x080, 4, 1, 7, 0x0, [fd 0 8 .sh, fd 8 8 .sh, fd 16 1 .sh, fd 17 1 .sh]⟩,
  ⟨0x084, 4, 1, 7, 0x0, [fd 0 16 .ro, fd 16 16 .ro]⟩]

/-- CHAIN, page 0x21. -/
def chain : List RegDesc := [
  ⟨0x040, 4, 1, 7, 0x0, [fd 0 9 .rw, fd 12 3 .rw, fd 16 4 .rw, fd 24 1 .rw]⟩,
  ⟨0x044, 4, 1, 7, 0x0, [fd 0 32 .rw]⟩,
  ⟨0x048, 4, 1, 7, 0x0, [fd 0 32 .sh]⟩,
  ⟨0x04C, 4, 1, 7, 0x0, [fd 0 1 .w]⟩,
  ⟨0x050, 4, 1, 7, 0x0, [fd 0 32 .ro]⟩,
  ⟨0x054, 4, 1, 7, 0x0, [fd 0 32 .ro]⟩,
  ⟨0x058, 4, 1, 7, 0x0, [fd 0 7 .ro, fd 16 8 .ro, fd 24 8 .ro]⟩,
  ⟨0x100, 4, 64, 7, 0x0, [fd 0 1 .sh, fd 4 3 .sh, fd 8 1 .sh, fd 12 1 .sh]⟩,
  ⟨0x200, 4, 64, 7, 0x0, [fd 0 3 .ro, fd 4 3 .ro, fd 8 1 .ro, fd 9 1 .ro, fd 16 16 .ro]⟩]

/-- SCHD, page 0x22. -/
def schd : List RegDesc := [
  ⟨0x040, 64, 4, 7, 0x0, [fd 0 8 .sh, fd 8 3 .sh, fd 12 1 .sh]⟩,
  ⟨0x044, 64, 4, 7, 0x0, [fd 0 32 .sh]⟩,
  ⟨0x048, 4, 7, 7, 0x0, [fd 0 32 .sh]⟩,
  ⟨0x088, 4, 7, 7, 0x0, [fd 0 32 .sh]⟩,
  ⟨0x0C8, 4, 7, 7, 0x0, [fd 0 32 .sh]⟩,
  ⟨0x108, 4, 7, 7, 0x0, [fd 0 32 .sh]⟩,
  ⟨0x064, 64, 4, 7, 0x0, [fd 0 3 .ro, fd 4 1 .ro, fd 8 8 .ro, fd 16 16 .ro]⟩]

/-- RCU, page 0x23. -/
def rcu : List RegDesc := [
  ⟨0x040, 4, 1, 7, 0x20080000, [fd 0 32 .st]⟩,
  ⟨0x044, 4, 1, 7, 0x0, [fd 0 1 .ro, fd 16 16 .ro]⟩,
  ⟨0x048, 4, 1, 7, 0x0, [fd 0 4 .w, fd 8 1 .w]⟩,
  ⟨0x080, 32, 16, 7, 0x306, [fd 0 3 .sh, fd 4 1 .sh, fd 5 1 .sh, fd 6 1 .sh, fd 8 1 .sh, fd 9 1 .sh, fd 16 5 .sh]⟩,
  ⟨0x084, 32, 16, 7, 0x0, [fd 0 32 .sh]⟩,
  ⟨0x088, 32, 16, 7, 0x20000, [fd 0 12 .sh, fd 12 4 .sh, fd 16 16 .sh]⟩,
  ⟨0x08C, 32, 16, 7, 0x7F7FFFFF, [fd 0 32 .sh]⟩,
  ⟨0x090, 32, 16, 7, 0x0, [fd 0 5 .ro, fd 16 12 .ro]⟩,
  ⟨0x094, 32, 16, 7, 0x0, [fd 0 16 .ro, fd 16 8 .ro, fd 24 8 .ro]⟩,
  ⟨0x098, 32, 16, 7, 0x0, [fd 0 32 .ro]⟩]

/-- ANG, page 0x24. -/
def ang : List RegDesc := [
  ⟨0x040, 4, 1, 7, 0x0, [fd 0 8 .sh]⟩,
  ⟨0x044, 4, 1, 7, 0x0, [fd 0 16 .ro, fd 16 16 .ro]⟩,
  ⟨0x080, 16, 8, 7, 0x1, [fd 0 6 .sh, fd 8 1 .sh, fd 16 8 .sh]⟩,
  ⟨0x084, 16, 8, 7, 0x0, [fd 0 32 .sh]⟩,
  ⟨0x088, 16, 8, 7, 0x3F800000, [fd 0 32 .sh]⟩,
  ⟨0x08C, 16, 8, 7, 0x0, [fd 0 32 .ro]⟩]

/-- SUP, page 0x25, part 0. -/
def sup0 : List RegDesc := [
  ⟨0x040, 4, 1, 7, 0x0, [fd 0 16 .ro, fd 16 16 .ro]⟩,
  ⟨0x044, 4, 1, 7, 0x0, [fd 0 6 .rw]⟩,
  ⟨0x048, 4, 1, 7, 0x10000, [fd 0 1 .rw, fd 4 2 .rw, fd 16 16 .rw]⟩,
  ⟨0x04C, 4, 1, 7, 0x7F800000, [fd 0 32 .rw]⟩,
  ⟨0x050, 4, 1, 7, 0x0, [fd 0 32 .rw]⟩,
  ⟨0x054, 4, 1, 7, 0x0, [fd 0 1 .ro, fd 1 1 .ro, fd 8 8 .ro, fd 16 16 .ro]⟩,
  ⟨0x058, 4, 1, 7, 0x0, [fd 0 32 .ro]⟩,
  ⟨0x05C, 4, 1, 7, 0x0, [fd 0 32 .ro]⟩,
  ⟨0x080, 16, 16, 7, 0x0, [fd 0 8 .sh, fd 8 8 .sh, fd 16 1 .sh, fd 17 1 .sh, fd 18 1 .sh, fd 19 1 .sh]⟩,
  ⟨0x084, 16, 16, 7, 0x0, [fd 0 32 .sh]⟩,
  ⟨0x088, 16, 16, 7, 0x0, [fd 0 32 .sh]⟩,
  ⟨0x08C, 16, 16, 7, 0x0, [fd 0 32 .sh]⟩,
  ⟨0x180, 64, 2, 7, 0x0, [fd 0 2 .rw, fd 2 1 .rw, fd 3 1 .rw, fd 4 1 .rw, fd 5 1 .rw, fd 8 6 .rw, fd 16 8 .rw, fd 30 1 .w, fd 31 1 .w]⟩,
  ⟨0x184, 64, 2, 7, 0x0, [fd 0 32 .rw]⟩,
  ⟨0x188, 64, 2, 7, 0x0, [fd 0 32 .rw]⟩,
  ⟨0x18C, 64, 2, 7, 0x0, [fd 0 32 .rw]⟩,
  ⟨0x190, 64, 2, 7, 0x0, [fd 0 32 .rw]⟩,
  ⟨0x194, 64, 2, 7, 0x10F, [fd 0 4 .rw, fd 8 8 .rw]⟩,
  ⟨0x198, 64, 2, 7, 0x0, [fd 0 32 .rw]⟩,
  ⟨0x19C, 64, 2, 7, 0x0, [fd 0 32 .rw]⟩]

/-- SUP, page 0x25, part 1. -/
def sup1 : List RegDesc := [
  ⟨0x1A0, 64, 2, 7, 0x0, [fd 0 32 .rw]⟩,
  ⟨0x1A4, 64, 2, 7, 0x0, [fd 0 1 .ro, fd 8 24 .ro]⟩,
  ⟨0x200, 4, 1, 7, 0x0, [fd 0 1 .rw, fd 4 4 .rw, fd 8 8 .rw, fd 16 8 .rw, fd 31 1 .w]⟩,
  ⟨0x204, 4, 1, 7, 0xA0000, [fd 0 16 .rw, fd 16 8 .rw]⟩,
  ⟨0x208, 4, 1, 7, 0x0, [fd 0 1 .ro, fd 1 1 .ro, fd 4 4 .ro]⟩,
  ⟨0x20C, 4, 1, 7, 0x0, [fd 0 4 .rw]⟩,
  ⟨0x220, 4, 10, 7, 0x0, [fd 0 32 .ro]⟩,
  ⟨0x280, 4, 16, 7, 0x0, [fd 0 32 .rw]⟩]

/-- SUP, page 0x25. -/
def sup : List RegDesc := sup0 ++ sup1

/-- MOD, page 0x26, part 0. -/
def mod0 : List RegDesc := [
  ⟨0x040, 4, 1, 2, 0x0, [fd 0 2 .ro, fd 4 2 .ro, fd 8 1 .ro]⟩,
  ⟨0x044, 4, 1, 2, 0x0, [fd 0 32 .rw]⟩,
  ⟨0x048, 4, 1, 2, 0x0, [fd 0 16 .rw, fd 16 2 .rw, fd 20 1 .rw, fd 31 1 .w]⟩,
  ⟨0x04C, 4, 1, 2, 0x0, [fd 0 32 .ro]⟩,
  ⟨0x050, 4, 1, 2, 0x4000011, [fd 0 2 .ro, fd 4 1 .ro, fd 5 1 .ro, fd 8 4 .ro, fd 16 11 .ro]⟩,
  ⟨0x054, 4, 1, 2, 0x0, [fd 0 4 .ro, fd 16 16 .ro]⟩,
  ⟨0x058, 4, 1, 2, 0x1, [fd 0 4 .ro, fd 4 1 .ro, fd 8 24 .ro]⟩,
  ⟨0x05C, 4, 1, 2, 0x640064, [fd 0 12 .sh, fd 16 12 .sh]⟩,
  ⟨0x060, 4, 1, 2, 0x19000C8, [fd 0 12 .sh, fd 16 12 .sh]⟩,
  ⟨0x064, 4, 1, 2, 0x80, [fd 0 8 .sh]⟩,
  ⟨0x068, 4, 1, 2, 0x640, [fd 0 13 .sh, fd 16 2 .sh, fd 24 8 .sh]⟩,
  ⟨0x06C, 4, 1, 2, 0xC8, [fd 0 16 .sh]⟩,
  ⟨0x070, 4, 1, 2, 0x108, [fd 0 8 .rw, fd 8 2 .rw, fd 16 8 .ro]⟩,
  ⟨0x074, 4, 1, 2, 0x0, [fd 0 16 .ro, fd 16 16 .ro]⟩,
  ⟨0x078, 4, 1, 2, 0x0, [fd 0 16 .ro, fd 16 16 .row]⟩,
  ⟨0x07C, 4, 1, 2, 0x0, [fd 0 10 .rw, fd 10 4 .rw, fd 30 1 .ro, fd 31 1 .w]⟩,
  ⟨0x080, 32, 2, 2, 0x0, [fd 0 8 .sh, fd 8 8 .sh, fd 16 1 .sh]⟩,
  ⟨0x084, 32, 2, 2, 0x1010, [fd 0 6 .sh, fd 8 8 .sh]⟩,
  ⟨0x088, 32, 2, 2, 0x0, [fd 0 11 .ro, fd 16 11 .ro]⟩,
  ⟨0x08C, 32, 2, 2, 0x0, [fd 0 10 .ro, fd 15 1 .ro, fd 16 16 .ro]⟩]

/-- MOD, page 0x26, part 1. -/
def mod1 : List RegDesc := [
  ⟨0x090, 32, 2, 2, 0x0, [fd 0 8 .ro, fd 8 8 .ro, fd 16 8 .ro, fd 24 8 .ro]⟩,
  ⟨0x094, 32, 2, 2, 0x0, [fd 0 32 .ro]⟩,
  ⟨0x200, 4, 1, 1, 0x0, [fd 0 1 .sh, fd 4 1 .sh, fd 8 1 .sh]⟩,
  ⟨0x204, 4, 1, 1, 0x7D0, [fd 0 16 .sh, fd 16 10 .sh]⟩,
  ⟨0x208, 4, 1, 1, 0x1, [fd 0 11 .sh]⟩,
  ⟨0x20C, 4, 1, 1, 0x1A0100, [fd 0 16 .sh, fd 16 8 .sh, fd 24 8 .sh]⟩,
  ⟨0x210, 4, 1, 1, 0x32, [fd 0 16 .sh]⟩,
  ⟨0x214, 4, 1, 1, 0x0, [fd 0 16 .ro, fd 16 1 .ro, fd 17 1 .ro]⟩,
  ⟨0x218, 4, 1, 1, 0x0, [fd 0 16 .ro, fd 16 8 .ro, fd 24 8 .ro]⟩,
  ⟨0x21C, 4, 1, 1, 0x0, [fd 0 32 .ro]⟩]

/-- MOD, page 0x26. -/
def mod : List RegDesc := mod0 ++ mod1

/-- RANK, page 0x27, part 0. -/
def rank0 : List RegDesc := [
  ⟨0x040, 4, 1, 7, 0x3, [fd 0 1 .sh, fd 1 1 .sh, fd 4 2 .sh]⟩,
  ⟨0x044, 4, 1, 7, 0x310C0, [fd 0 8 .sh, fd 8 6 .sh, fd 16 4 .sh]⟩,
  ⟨0x048, 4, 1, 7, 0x1F40, [fd 0 24 .sh]⟩,
  ⟨0x04C, 4, 1, 7, 0x9632, [fd 0 8 .sh, fd 8 8 .sh]⟩,
  ⟨0x050, 4, 1, 7, 0x640010, [fd 0 5 .sh, fd 16 16 .sh]⟩,
  ⟨0x054, 4, 1, 7, 0xFFFF0000, [fd 0 16 .sh, fd 16 16 .sh]⟩,
  ⟨0x058, 4, 1, 7, 0x3207, [fd 0 4 .sh, fd 8 8 .sh, fd 16 1 .sh]⟩,
  ⟨0x05C, 4, 1, 7, 0x1F4, [fd 0 16 .sh]⟩,
  ⟨0x060, 4, 1, 7, 0x100040, [fd 0 11 .sh, fd 16 8 .sh]⟩,
  ⟨0x064, 4, 1, 7, 0x0, [fd 0 1 .ro, fd 16 11 .ro]⟩,
  ⟨0x068, 4, 1, 7, 0x0, [fd 0 16 .ro, fd 16 16 .ro]⟩,
  ⟨0x06C, 4, 1, 7, 0x0, [fd 0 10 .rw]⟩,
  ⟨0x070, 4, 1, 7, 0x0, [fd 0 1 .w, fd 1 1 .w, fd 2 1 .w, fd 3 1 .w]⟩,
  ⟨0x080, 64, 2, 7, 0x0, [fd 0 8 .sh, fd 8 8 .sh, fd 16 8 .sh, fd 24 8 .sh]⟩,
  ⟨0x084, 64, 2, 7, 0x400C8, [fd 0 16 .sh, fd 16 8 .sh]⟩,
  ⟨0x088, 64, 2, 7, 0x320014, [fd 0 16 .sh, fd 16 16 .sh]⟩,
  ⟨0x08C, 64, 2, 7, 0x1020000, [fd 0 11 .sh, fd 16 8 .sh, fd 24 2 .sh]⟩,
  ⟨0x090, 64, 2, 7, 0x140000, [fd 0 1 .sh, fd 4 2 .sh, fd 8 3 .sh, fd 12 2 .sh, fd 16 16 .sh]⟩,
  ⟨0x094, 64, 2, 7, 0xD03E8, [fd 0 16 .sh, fd 16 8 .sh]⟩,
  ⟨0x098, 64, 2, 7, 0x3F800000, [fd 0 32 .sh]⟩]

/-- RANK, page 0x27, part 1. -/
def rank1 : List RegDesc := [
  ⟨0x09C, 64, 2, 7, 0x0, [fd 0 11 .ro, fd 16 11 .ro, fd 31 1 .ro]⟩,
  ⟨0x0A0, 64, 2, 7, 0x0, [fd 0 11 .ro, fd 16 11 .ro]⟩,
  ⟨0x0A4, 64, 2, 7, 0x0, [fd 0 32 .ro]⟩,
  ⟨0x0A8, 64, 2, 7, 0x0, [fd 0 24 .ro, fd 31 1 .ro]⟩,
  ⟨0x0AC, 64, 2, 7, 0x0, [fd 0 32 .ro]⟩,
  ⟨0x0B0, 64, 2, 7, 0x0, [fd 0 32 .ro]⟩,
  ⟨0x0B4, 64, 2, 7, 0x0, [fd 0 16 .ro, fd 16 16 .ro]⟩,
  ⟨0x0B8, 64, 2, 7, 0x0, [fd 0 16 .ro, fd 16 16 .ro]⟩,
  ⟨0x100, 4, 16, 7, 0x0, [fd 0 32 .rw]⟩]

/-- RANK, page 0x27. -/
def rank : List RegDesc := rank0 ++ rank1

/-- REC, page 0x28, part 0. -/
def rec0 : List RegDesc := [
  ⟨0x040, 4, 1, 2, 0x10000, [fd 0 16 .st, fd 16 1 .st, fd 20 4 .st, fd 24 1 .st, fd 25 1 .st]⟩,
  ⟨0x044, 4, 1, 2, 0x138807D0, [fd 0 16 .st, fd 16 16 .st]⟩,
  ⟨0x048, 4, 1, 2, 0x0, [fd 0 2 .rw, fd 16 16 .rw]⟩,
  ⟨0x04C, 4, 1, 2, 0x81007, [fd 0 3 .rw, fd 8 8 .rw, fd 16 8 .rw]⟩,
  ⟨0x050, 4, 1, 2, 0xF0000000, [fd 0 10 .st, fd 16 11 .st, fd 28 4 .st]⟩,
  ⟨0x054, 4, 1, 2, 0x0, [fd 0 3 .ro, fd 4 3 .ro, fd 8 4 .ro, fd 16 16 .ro]⟩,
  ⟨0x058, 4, 1, 2, 0x0, [fd 0 1 .w, fd 1 1 .w, fd 2 1 .w, fd 8 4 .w]⟩,
  ⟨0x05C, 4, 1, 2, 0x0, [fd 0 16 .ro, fd 16 8 .ro, fd 24 8 .ro]⟩,
  ⟨0x060, 4, 1, 2, 0x0, [fd 0 16 .ro, fd 16 16 .ro]⟩,
  ⟨0x064, 4, 1, 2, 0x201C0000, [fd 0 32 .st]⟩,
  ⟨0x068, 4, 1, 2, 0x0, [fd 0 10 .ro, fd 16 12 .ro]⟩,
  ⟨0x080, 4, 64, 2, 0x0, [fd 0 8 .st, fd 8 1 .st]⟩,
  ⟨0x180, 16, 16, 2, 0x0, [fd 0 4 .rw, fd 4 2 .rw, fd 8 8 .rw, fd 16 5 .rw]⟩,
  ⟨0x184, 16, 16, 2, 0x0, [fd 0 32 .rw]⟩,
  ⟨0x188, 16, 16, 2, 0x0, [fd 0 32 .rw]⟩,
  ⟨0x18C, 16, 16, 2, 0x0, [fd 0 16 .ro, fd 16 1 .ro]⟩,
  ⟨0x280, 8, 8, 2, 0x10000, [fd 0 1 .rw, fd 1 1 .rw, fd 8 6 .rw, fd 16 16 .rw]⟩,
  ⟨0x284, 8, 8, 2, 0x0, [fd 0 16 .ro, fd 16 8 .ro]⟩,
  ⟨0x300, 4, 1, 1, 0x101F01, [fd 0 8 .rw, fd 8 8 .rw, fd 16 16 .rw]⟩,
  ⟨0x304, 4, 1, 1, 0x0, [fd 0 1 .ro, fd 8 4 .ro, fd 16 16 .ro]⟩]

/-- REC, page 0x28, part 1. -/
def rec1 : List RegDesc := [
  ⟨0x308, 4, 1, 1, 0x0, [fd 0 1 .w]⟩,
  ⟨0x30C, 4, 1, 1, 0x0, [fd 0 13 .rw]⟩,
  ⟨0x310, 4, 8, 1, 0x0, [fd 0 32 .ro]⟩]

/-- REC, page 0x28. -/
def rec : List RegDesc := rec0 ++ rec1

/-- MON, page 0x29. -/
def mon : List RegDesc := [
  ⟨0x040, 4, 1, 7, 0x0, [fd 0 5 .w, fd 8 1 .w, fd 31 1 .w]⟩,
  ⟨0x044, 4, 1, 7, 0x7FFFFFFF, [fd 0 32 .ro]⟩,
  ⟨0x048, 4, 1, 7, 0x80000000, [fd 0 32 .ro]⟩,
  ⟨0x04C, 4, 1, 7, 0x0, [fd 0 32 .ro]⟩,
  ⟨0x050, 4, 1, 7, 0x0, [fd 0 32 .ro]⟩,
  ⟨0x054, 4, 1, 7, 0x0, [fd 0 32 .ro]⟩,
  ⟨0x058, 4, 1, 7, 0x0, [fd 0 5 .ro, fd 8 1 .ro, fd 16 5 .ro, fd 24 8 .ro]⟩,
  ⟨0x100, 8, 32, 7, 0x0, [fd 0 5 .rw, fd 5 1 .rw, fd 7 1 .rw, fd 8 10 .rw, fd 24 5 .rw]⟩,
  ⟨0x104, 8, 32, 7, 0x0, [fd 0 32 .rw]⟩,
  ⟨0x200, 4, 32, 7, 0x0, [fd 0 32 .ro]⟩,
  ⟨0x300, 8, 12, 7, 0x0, [fd 0 32 .ro]⟩,
  ⟨0x304, 8, 12, 7, 0x0, [fd 0 16 .ro]⟩,
  ⟨0x360, 4, 1, 7, 0x0, [fd 0 32 .rw]⟩,
  ⟨0x364, 4, 1, 7, 0x0, [fd 0 1 .rw]⟩,
  ⟨0x368, 4, 1, 7, 0x0, [fd 0 32 .rw]⟩,
  ⟨0x36C, 4, 1, 7, 0x0, [fd 0 16 .rw]⟩,
  ⟨0x370, 4, 1, 7, 0x0, [fd 0 4 .w, fd 31 1 .w]⟩]

/-- ADC, page 0x2B. -/
def adc : List RegDesc := [
  ⟨0x040, 4, 1, 7, 0x4, [fd 0 1 .st, fd 1 1 .st, fd 2 1 .st, fd 4 1 .st]⟩,
  ⟨0x044, 4, 1, 7, 0x222, [fd 0 3 .st, fd 4 3 .st, fd 8 3 .st]⟩,
  ⟨0x048, 4, 1, 7, 0xFC, [fd 0 8 .st]⟩,
  ⟨0x04C, 4, 4, 1, 0x7FFF8000, [gf 0 16 .st, gf 16 16 .st]⟩,
  ⟨0x05C, 4, 1, 1, 0x1001111, [gf 16 16 .st, gf 0 4 .st, gf 4 4 .st, gf 8 4 .st, gf 12 4 .st]⟩,
  ⟨0x060, 4, 1, 1, 0x0, [fd 0 4 .ro, fd 8 4 .w1c]⟩,
  ⟨0x064, 4, 1, 7, 0x0, [fd 0 8 .ro, fd 8 8 .ro, fd 16 8 .ro]⟩]

/-- ACC, page 0x2C. -/
def acc : List RegDesc := [
  ⟨0x040, 4, 1, 7, 0x0, [fd 0 1 .sh]⟩,
  ⟨0x044, 4, 1, 7, 0x1632, [fd 0 16 .sh, fd 16 1 .ro, fd 20 12 .ro]⟩,
  ⟨0x048, 4, 1, 1, 0x8, [fd 0 4 .sh]⟩,
  ⟨0x04C, 4, 1, 1, 0x30300C8, [gf 0 16 .sh, gf 16 8 .sh, gf 24 8 .sh]⟩,
  ⟨0x050, 4, 1, 1, 0x0, [fd 0 1 .ro, fd 1 1 .ro, fd 8 8 .ro, fd 16 16 .ro]⟩,
  ⟨0x054, 4, 1, 7, 0x0, [fd 0 32 .ro]⟩,
  ⟨0x058, 4, 1, 7, 0x0, [fd 0 16 .ro]⟩,
  ⟨0x060, 8, 10, 7, 0x3F800000, [fd 0 32 .sh]⟩,
  ⟨0x064, 8, 10, 7, 0x0, [fd 0 32 .sh]⟩,
  ⟨0x100, 16, 10, 7, 0x0, [fd 0 32 .ro]⟩,
  ⟨0x104, 16, 10, 7, 0x0, [fd 0 32 .ro]⟩,
  ⟨0x108, 16, 10, 7, 0x0, [fd 0 32 .ro]⟩,
  ⟨0x10C, 16, 10, 7, 0x0, [fd 0 16 .ro, fd 16 16 .ro]⟩]

/-- GATE, page 0x2D. -/
def gate : List RegDesc := [
  ⟨0x040, 4, 1, 1, 0xF01, [gf 0 1 .st, gf 4 2 .st, gf 8 4 .st, gf 12 1 .st]⟩,
  ⟨0x044, 4, 1, 1, 0x32001E, [gf 0 11 .sh, gf 16 13 .sh]⟩,
  ⟨0x048, 4, 1, 1, 0x0, [gf 0 4 .st]⟩,
  ⟨0x04C, 4, 1, 1, 0x22, [gf 0 3 .st, gf 4 3 .st]⟩,
  ⟨0x050, 4, 1, 1, 0x1050A03, [gf 0 1 .st, gf 1 1 .st, gf 8 8 .st, gf 16 8 .st, gf 24 1 .st]⟩,
  ⟨0x054, 4, 1, 1, 0x10640A, [fd 0 8 .st, fd 8 8 .st, fd 16 16 .st]⟩,
  ⟨0x058, 4, 1, 1, 0x32, [fd 0 16 .sh]⟩,
  ⟨0x05C, 4, 1, 1, 0x3, [fd 0 2 .ro, fd 8 6 .ro, fd 16 1 .ro, fd 17 1 .ro, fd 18 1 .ro, fd 19 1 .ro, fd 20 1 .ro, fd 21 1 .ro]⟩,
  ⟨0x060, 4, 1, 1, 0x0, [fd 0 4 .ro, fd 8 4 .ro]⟩,
  ⟨0x064, 4, 1, 1, 0x0, [fd 0 1 .w]⟩,
  ⟨0x068, 4, 1, 1, 0x0, [fd 0 16 .ro, fd 16 8 .ro, fd 24 8 .ro]⟩,
  ⟨0x06C, 4, 1, 1, 0x0, [fd 0 16 .ro, fd 16 8 .ro, fd 24 4 .ro, fd 28 4 .ro]⟩,
  ⟨0x070, 4, 1, 1, 0x0, [fd 0 10 .ro, fd 16 1 .ro, fd 17 1 .ro]⟩,
  ⟨0x074, 4, 1, 1, 0x0, [fd 0 16 .ro]⟩,
  ⟨0x100, 16, 6, 2, 0x0, [fd 0 2 .rw, fd 4 1 .rw, fd 5 1 .w, fd 8 6 .rw]⟩,
  ⟨0x104, 16, 6, 2, 0x0, [fd 0 30 .rw]⟩,
  ⟨0x108, 16, 6, 2, 0x0, [fd 0 32 .rw]⟩,
  ⟨0x10C, 16, 6, 2, 0x10001, [fd 0 16 .rw, fd 16 16 .rw]⟩]

/-- SAFE, page 0x2E. -/
def safe : List RegDesc := [
  ⟨0x040, 4, 1, 2, 0x1022, [gf 0 3 .st, gf 4 3 .st, gf 12 1 .st, gf 13 1 .st]⟩,
  ⟨0x044, 4, 1, 2, 0x0, [fd 0 16 .w]⟩,
  ⟨0x048, 4, 1, 2, 0x0, [fd 0 1 .ro, fd 4 2 .ro, fd 8 4 .ro, fd 12 4 .ro, fd 16 1 .ro]⟩,
  ⟨0x04C, 4, 1, 2, 0x0, [fd 0 1 .ro, fd 8 6 .ro]⟩,
  ⟨0x050, 4, 1, 2, 0x0, [fd 0 10 .rw, fd 31 1 .w]⟩,
  ⟨0x054, 4, 1, 2, 0x0, [fd 0 4 .ro, fd 4 1 .ro, fd 8 8 .ro, fd 16 16 .ro]⟩,
  ⟨0x058, 4, 1, 2, 0x0, [fd 0 8 .ro, fd 8 8 .ro, fd 16 16 .ro]⟩,
  ⟨0x05C, 4, 1, 2, 0x0, [fd 0 16 .ro, fd 16 16 .ro]⟩,
  ⟨0x080, 4, 1, 1, 0x1, [gf 0 1 .st]⟩,
  ⟨0x084, 4, 1, 1, 0x0, [fd 0 16 .w]⟩,
  ⟨0x088, 4, 1, 1, 0x0, [fd 0 1 .ro, fd 1 1 .ro, fd 2 1 .ro, fd 3 1 .ro, fd 8 4 .ro]⟩,
  ⟨0x08C, 4, 1, 1, 0x0, [fd 0 16 .ro, fd 16 8 .ro, fd 24 8 .ro]⟩,
  ⟨0x090, 4, 1, 1, 0x0, [fd 0 16 .ro, fd 16 16 .row]⟩]

/-- GPIO, page 0x2F. -/
def gpio : List RegDesc := [
  ⟨0x040, 4, 8, 7, 0x0, [fd 0 3 .rw]⟩,
  ⟨0x060, 4, 1, 7, 0x0, [fd 0 8 .rw]⟩,
  ⟨0x064, 4, 1, 7, 0x0, [fd 0 8 .ro]⟩,
  ⟨0x068, 4, 1, 7, 0x0, [fd 0 8 .w1c, fd 8 8 .w1c]⟩,
  ⟨0x06C, 4, 1, 1, 0x0, [fd 0 2 .rw]⟩,
  ⟨0x070, 4, 1, 1, 0x0, [fd 0 16 .rw, fd 16 1 .rw]⟩,
  ⟨0x074, 4, 1, 1, 0x0, [fd 0 8 .w]⟩,
  ⟨0x078, 4, 1, 1, 0x0, [fd 0 8 .ro, fd 8 1 .ro]⟩,
  ⟨0x07C, 4, 1, 1, 0x0, [fd 0 5 .ro, fd 8 5 .ro, fd 16 8 .ro, fd 24 8 .ro]⟩]

end RegTable

/-- The registers of a page below its header, by page number (R64). -/
def pageRegs (pg : Nat) : List RegDesc :=
  if pg = 0 then RegTable.sys
  else if pg = 1 then RegTable.clk
  else if pg = 2 then RegTable.pwr
  else if pg = 3 then RegTable.sec
  else if pg = 4 then RegTable.otp
  else if pg = 5 then RegTable.boot
  else if pg = 6 then RegTable.cpu
  else if pg = 7 then RegTable.err
  else if pg = 8 then RegTable.mem
  else if pg = 9 then RegTable.schg
  else if pg = 10 then RegTable.schq
  else if pg = 11 then RegTable.time
  else if pg = 12 then RegTable.stn
  else if pg = 13 then RegTable.twin
  else if pg = 14 then RegTable.ref
  else if pg = 15 then RegTable.host
  else if 16 ≤ pg ∧ pg < 24 then RegTable.lane
  else if 24 ≤ pg ∧ pg < 28 then RegTable.tree
  else if pg = 28 then RegTable.berth
  else if pg = 32 then RegTable.ctl
  else if pg = 33 then RegTable.chain
  else if pg = 34 then RegTable.schd
  else if pg = 35 then RegTable.rcu
  else if pg = 36 then RegTable.ang
  else if pg = 37 then RegTable.sup
  else if pg = 38 then RegTable.mod
  else if pg = 39 then RegTable.rank
  else if pg = 40 then RegTable.rec
  else if 41 ≤ pg ∧ pg < 43 then RegTable.mon
  else if pg = 43 then RegTable.adc
  else if pg = 44 then RegTable.acc
  else if pg = 45 then RegTable.gate
  else if pg = 46 then RegTable.safe
  else if pg = 47 then RegTable.gpio
  else []

/-- Does the register array `d` hold the byte offset `off`? -/
def RegDesc.covers (d : RegDesc) (off : Nat) : Bool :=
  d.off ≤ off && (off - d.off) % d.stride == 0 && (off - d.off) / d.stride < d.count

/-- The register at a byte offset of a page, if one lies there. -/
def findReg (pg off : Nat) : Option RegDesc := (pageRegs pg).find? (fun d => d.covers off)

end Sys2Proof.Machine
end

