-- ==== Sys2Proof/Machine/State.lean ====
section
/-! DEFINITION. The state of the part: every register, queue, buffer, counter, mode and pin of the spec, as plain data.
Registers live in one sparse map (`regs`; an unlisted register holds its reset value, Machine/Regs.lean); what the
spec describes without giving it a register has a field of its own. A default value is the value at reset. -/

namespace Sys2Proof.Machine

/-- Sparse data by key: pairs in strictly rising order of key (Machine/Bits.lean has its operations). -/
abbrev Kv (α : Type) := List (Nat × α)

/-- The effective role of the part, R12 and R4: `fault` is the role-fault state, `none` before ROLE has been read. -/
inductive Role where
  | none | cell | hub | referee | fault
  deriving DecidableEq, Repr

/-- The part's life from reset to running firmware: `held` in reset (R130, R132), `pullUp` and `pullDown` while ROLE
is read (R37), `rom` while the boot ROM runs, `recovery` in ROM recovery (R143), `running` after the jump to ENTRY,
`roleFault` in the state of R4. -/
inductive Phase where
  | held | pullUp | pullDown | rom | recovery | running | roleFault
  deriving DecidableEq, Repr

/-- The grade of R3, told by the fuses. -/
inductive Grade where
  | h | c
  deriving DecidableEq, Repr

/-- Terminal levels that the part reads, and the levels it drives from held state: the supplies and resets of R127 and
R132, the buttons, loops and block inputs of R32 to R35, the general terminals of R51. -/
structure PinSt where
  vddio : Bool := true            -- VDDIO above 1.2 V (R40, R686)
  rails : Bool := true            -- every rail above its threshold (R132)
  nRst : Bool := false            -- level of nRST
  roleUp : RoleBand := .none      -- the first ROLE reading (R37)
  presence : Bool := true         -- level of PRESENCE
  sealOut : Bool := false
  sealIn : Bool := false
  trip0 : Bool := true
  trip1 : Bool := true
  safeA : Bool := true
  safeB : Bool := true
  gpioIn : Byte := 0              -- levels at GPIO terminals that are inputs
  gpioLed : Bool := false         -- level of the status LED while it toggles
  deriving DecidableEq, Repr

/-- The queues of a cell's debug UART, oldest first, and whether a byte is on the line (R53). -/
structure UartSt where
  tx : List Byte := []
  rx : List Byte := []
  sending : Option Byte := none
  deriving DecidableEq, Repr

/-- Who drives the QSPI terminals, R44 to R46. -/
inductive QspiBus where
  | released | master | handingOver | host | reclaimed
  deriving DecidableEq, Repr

/-- The host port of R83 to R90. -/
structure HostSt where
  bus : QspiBus := .released
  pendCode : Option Nat := none   -- a transaction executed but not yet reported (PENDING), with its code
  pendIndex : Nat := 0
  pendData : List Word := []
  lastCode : Nat := 0             -- the last reported transaction, for STAT
  lastIndex : Nat := 0
  lastData : List Word := []
  crcBad : Bool := false          -- a wrong CRC that the next STAT answers (R86)
  relWait : Nat := 0              -- duration of a release request not yet reported, ms
  relTold : Nat := 0              -- duration of the request reported in the last response
  response : List Byte := []      -- bytes of the last response
  deriving DecidableEq, Repr

/-- What an access answered: the code of R79 and the data words read. -/
structure Resp where
  code : Nat := 0
  data : List Word := []
  deriving DecidableEq, Repr

/-- An image named in a PARTNER list or by an accepted pairing: identifier and ROLE_MASK (R141). -/
structure Partner where
  id : DWord
  roles : Nat
  deriving DecidableEq, Repr

/-- The boot ROM and the running image (R137 to R149). -/
structure BootSt where
  flash : Bool := false           -- a flash answered (R41)
  trying : Option Nat := none     -- slot whose container is being loaded: 0 A, 1 B
  tried : List Nat := []          -- slots already refused in this boot
  presHeld : Bool := false        -- PRESENCE has been low since the release of reset (R175)
  ownerChange : Bool := false     -- the owner change of R175 runs
  treeBoot : Bool := false        -- a cell boots from the tree (R138)
  treeWhy : Nat := 0              -- the first test of R142 that its tree image failed (R140)
  sincePor : Bool := true         -- this boot follows a power-on reset
  imageId : DWord := 0
  partners : List Partner := []
  board : List Byte := []         -- the loaded BOARD table (R203)
  deriving DecidableEq, Repr

/-- The supervisor registers that the part saves and restores (R154, R156), and its debug halt. -/
structure SupSt where
  pc : Word := 0
  mstatus : Word := 0
  mcause : Word := 0
  mtval : Word := 0
  mepc : Word := 0                -- pc of the trapped access (PRESUMED, log 106)
  mtvec : Word := 0               -- the trap handler's address
  halted : Bool := false
  kickHeld : Bool := false        -- the first kick word is held (R155)
  wdtEnd : Nat := 2000 * 1000000 * 2 ^ 32   -- passed time at which the running watchdog stage ends
  nmiCause : List Nat := []       -- causes being handled, innermost first (R154)
  claimed : List Nat := []        -- event lines masked by a claim (R153)
  deriving DecidableEq, Repr

/-- The clock unit (R101 to R120) beyond its registers. -/
structure ClkSt where
  latched : List (Option (Nat × Nat)) := [none, none, none, none]   -- per domain (SRC, DIV), R107
  saved : List (Option (Nat × Nat)) := [none, none, none, none]     -- per domain, before a failover, R114
  good : List Nat := [0, 0, 0, 0, 0]     -- consecutive good windows per monitor, up to 16
  gained : List Bool := [false, false]   -- uplinks that have gained lock since reset, R115
  xoscQuiet : Bool := true               -- XOSC monitor held quiet, R117
  xoscReady : Bool := false
  xoscWait : Nat := 0                    -- ns since the start-up delay ended
  ircFrames : Nat := 0                   -- cell: ACTIVE frames received since the last IRC measurement (R110)
  slowArmed : Bool := true               -- SLOW_CORE may be raised again, R100
  gating : List Nat := []                -- pages with a gate handshake in progress, R119
  deriving DecidableEq, Repr

/-- What the crypto engine is asked to do with a device-bound record, R180 and R181. -/
inductive RecJob where
  | exportRec | restoreRec
  deriving DecidableEq, Repr

/-- Presence, seal, keys and OTP beyond their registers (R162 to R193). -/
structure SecSt where
  presOpen : Bool := false        -- the presence window
  presEnd : Nat := 0              -- passed time at which it expires
  pressed : Bool := false         -- a debounced press is in progress
  sealMiss : Nat := 0             -- consecutive mismatches
  sealHit : Nat := 0              -- consecutive matches
  sealOpen : Option Bool := none  -- the judgement; none before the first
  attBusy : Bool := false
  recJob : Option RecJob := none
  otpJob : Option (Nat × Word) := none    -- OTP byte offset and bits being programmed
  deriving DecidableEq, Repr

/-- One entry of the error log, R610. -/
structure ErrEntry where
  cls : Nat
  src : Nat
  req : Nat
  repeats : Nat
  addr : Word
  ns : Nat
  sec : Nat
  deriving DecidableEq, Repr

/-- The error block beyond its registers: the log, the stack of classes being handled, the pending bits and those of
them set since their class was last signalled (R610 to R615). -/
structure ErrSt where
  log : List ErrEntry := []
  stack : List Nat := []
  pend : List Nat := []
  pendNew : List Nat := []
  deriving DecidableEq, Repr

/-- One lane beyond its registers (R194 to R217). -/
structure LaneSt where
  target : Option Nat := none     -- power state a transition leads to
  latched : Option Nat := none    -- request latched during a transition (R216)
  phase : Option (Nat × Nat) := none   -- phase word preloaded for the next burst: PH, ALIGN (R212)
  brst : Nat × Nat := (0, 0)      -- hub tree port: width and lead of the last BRST pulse, code groups (R214)
  pulse : Nat × Nat := (0, 0)     -- its rise and its fall, network time
  errs : Nat := 0                 -- error count of R197, as the last frame or burst left it
  trainEnd : Nat := 0             -- passed time until which training sets are sent after a bond (R200)
  esBits : Nat := 0               -- hub tree port: bits that the eye scan has compared (R207)
  lfsr : Nat := 1                 -- PRBS generator
  word : Nat := 0                 -- the last 10-bit word that it sent
  flipNext : Bool := false        -- bit 0 of the next transmitted word is inverted (R210)
  deriving DecidableEq, Repr

/-- A timestamp in a station port's queue, R232. -/
structure TsEntry where
  seq : Nat
  msgType : Nat
  sent : Bool
  time : Nat
  deriving DecidableEq, Repr

/-- A STEP or SET waiting for its tick, R223: a signed offset, or a time, in 2^-32 ns. -/
inductive TimeJump where
  | step (d : Int)
  | load (t : Nat)
  deriving DecidableEq, Repr

/-- A Pdelay_Resp sent by hardware, R233: port, sequenceId and the correction field in 2^-32 ns. -/
structure PdelayResp where
  port : Nat
  seq : Nat
  corr : Nat
  deriving DecidableEq, Repr

/-- The time unit beyond its registers (R221 to R244). -/
structure TimeSt where
  inc : Nat := 10 * 2 ^ 32        -- increment in use, 2^-32 ns per tick
  incWait : Option Nat := none    -- increment that applies from the next tick (R222)
  incHeld : Option Nat := none    -- increment before TCLK moved to IRC (R238)
  jump : Option TimeJump := none  -- the STEP or SET waiting for its tick
  lastK : Option Nat := none      -- the last meridian fired; none until one has fired
  hold : List HoldCause := []     -- causes of holdover that hold
  holdTime : Nat := 0             -- time spent in holdover, 2^-32 ns (TIME_HOLD.MS)
  src : Nat := 0                  -- source in use: TIME_CTL.SRC as of the last tick (R235)
  corr : Int := 0                 -- cell: correction of R237 that waits for the next tick, 2^-32 ns
  cont : Bool := false            -- meridians have run since the last one fired (R226)
  bad : List Int := []            -- cell: consecutive discarded errors, newest first (R237)
  twinGood : Nat := 0             -- consecutive exchanges within 1 ns (R234)
  exchanged : Bool := false       -- an exchange has been made since the bond (R234)
  tsq : List (List TsEntry) := [[], []]
  pdelay : List PdelayResp := []  -- one-step responses sent
  pps : Bool := false             -- PPS level from the time unit
  mark : Bool := false            -- cycle mark level
  deriving DecidableEq, Repr

/-- The state of a cell, coded in R253 as 0 bypass, 1 insert positive, 2 insert negative, 3 block. -/
inductive CellState where
  | bypass | pos | neg | block
  deriving DecidableEq, Repr

/-- What a queued event does (R255): `trim` carries its on-state and its on-time, `swap` the state its berth takes. -/
inductive EvAct where
  | byp | insPos | insNeg | blockCell | fireThy | permBypass
  | trim (on : CellState) (width : Nat)
  | swap (dest : CellState)
  deriving DecidableEq, Repr

/-- A queued event of a cell (R264 to R267): target cycle, sequence number, launch instant and the instant at which it
was queued, in 2^-32 ns. -/
structure CellEvent where
  target : Nat
  seq : Nat
  instant : Nat
  queuedAt : Nat
  act : EvAct
  deriving DecidableEq, Repr

/-- A timebase (R287): EPOCH in 2^-32 ns, K_BASE, TCYC in 0.5 us, generation. -/
structure Timebase where
  epoch : Nat
  kbase : Nat
  tcyc : Nat
  tbg : Nat
  deriving DecidableEq, Repr

/-- A stored bitmap entry of the cell's berth (R264, R268). -/
structure BitmapEntry where
  target : Nat
  code : Nat
  noManifest : Bool
  deriving DecidableEq, Repr

/-- A response waiting on an uplink (R288). -/
structure MgmtResp where
  rtype : Nat
  tid : Nat
  code : Nat
  index : Nat
  data : List Byte
  digest : Bool := false          -- sent with a digest tag: the admission was in progress (R303)
  deriving DecidableEq, Repr

/-- An offer that a cell has taken (R308). -/
structure Offer where
  berth : Nat
  enrol : Bool
  cycleR : Nat                    -- K_R
  turn : Nat                      -- T_turn, 1/64 ns
  soF : Option Nat := none        -- arrival of frame K_R at the pin, 2^-32 ns
  deriving DecidableEq, Repr

/-- One uplink of a cell beyond its registers: admission, keys, slot timer, responses (R184, R262, R275, R289, R301). -/
structure UplinkSt where
  hub : Nat := 0                  -- hub number of the tags (R184), from the node address
  side : Option Nat := none       -- side of the hub, as the first tag that verified told it (R184)
  txen : Nat × Nat := (0, 0)      -- TXEN of the last burst: from, until (R276)
  port : Option Nat := none       -- the port on which the cell was admitted or offered (R260)
  berth : Option Nat := none      -- the berth offered or held
  group : Option Key := none
  nextGroup : Option (Key × Nat) := none     -- the renewed group key and K_sw (R185)
  session : Option Key := none
  nextSession : Option (Key × Nat) := none   -- the renewed session key and its switch cycle (R186)
  wrap : Option Key := none
  pendKeys : Option (Key × Key) := none      -- session and wrap key of an exchange whose KEY has not come yet
  fresh : Bool := false           -- the next tag-valid frame gives W (R315)
  bases : List Timebase := []     -- the timebases of the two most recent generations, newest first
  grants : List (Nat × Nat) := [] -- management slot and round
  moves : List (Nat × Nat) := []  -- report slot and the round from which it holds
  resps : List MgmtResp := []
  chunks : List Byte := []        -- KXH answer still to be sent (R313)
  chunkTid : Nat := 0
  chunkNo : Nat := 0
  offer : Option Offer := none
  attempt : Nat := 0              -- a
  backoff : Nat := 0              -- even rounds to let pass
  waitRounds : Option Nat := none -- rounds since the last boarding burst
  rttNom : Nat := 0               -- BEACON: RTT_NOM, ZONE, KIND, BEXP
  zone : Nat := 0
  beacon : Bool := false
  bexp : Nat := 6
  boarding : Bool := false        -- BOARDING in the last frame
  stopped : Bool := false         -- REFUSE with reason 1 (R317)
  boardWindow : Bool := false     -- admission with ENROL = 1 (R174)
  tagBad : Bool := false          -- a frame of this round failed its tag after passing the CRC
  tagGood : Bool := false         -- a frame of this round was tag-valid
  round : Nat := 0                -- the round in progress
  badRounds : Nat := 0            -- consecutive rounds of tag failures only (R318)
  seen : Nat := 0                 -- FSA, FSB
  burst : List Byte := []         -- the last burst sent
  sentCyc : Nat := 0              -- cycle of the last management grant used up, plus one; 0 before the first
  mreq : Bool := false            -- MREQ of the copy of the payload for this uplink (R284)
  imageId : Option Nat := none    -- identifier byte of the tree image
  blocks : Kv (List Byte) := []   -- image blocks held (R292)
  keyRecord : List Byte := []     -- the owner key record received (R174)
  deriving DecidableEq, Repr

/-- What a cell receives, beyond the TREE registers (R260 to R270). -/
structure RxSt where
  obeying : Bool := false         -- the cell's meridians run: a frame has been obeyed since reset or HOLD_LIMIT
  wFrom : Option Nat := none      -- the uplink whose frame gave W its value; none while W holds none
  kSet : Bool := false            -- K holds the cycle of an obeyed frame of watch W
  events : List CellEvent := []   -- the event queue, by instant
  bitmap : List BitmapEntry := []
  obeyedAt : Nat := 0             -- time at which the hold timer restarted
  obeyedK : List Nat := []        -- cycles obeyed that the cell's meridians have not yet passed
  holds : List (Nat × Option Nat) := []  -- beginnings and ends of the last holds, newest first (STATUS.HOLD)
  payload : List Byte := []       -- the report payload, STATUS.MREQ clear

  up : List UplinkSt := [{}, {}]
  deriving DecidableEq, Repr

/-- Link state of a berth, E0.LINK of R329, in the order of its codes. -/
inductive Link where
  | absent | offered | ranged | keying | admitted | silent | killed | babbler
  deriving DecidableEq, Repr

/-- What a berth held before an OFFER, to which it returns when the admission is abandoned (R307). -/
structure BerthKept where
  link : Link := .absent
  assign : Nat := 0
  arm : Nat := 0
  keyid : DWord := 0
  imgid : DWord := 0
  linkver : Nat := 0
  romb : Bool := false
  upl : Nat := 0
  rttn : Nat := 0
  ddown : Nat := 0
  dup : Nat := 0
  ph : Nat := 0
  align : Nat := 0
  drift : Int := 0
  session : Option Key := none
  wrap : Option Key := none
  deriving DecidableEq, Repr

/-- An admission in progress at the hub (R306 to R314). -/
structure Admission where
  was : BerthKept                 -- the berth before the OFFER
  enrol : Bool
  rom : Bool
  offers : Nat := 1               -- offers sent
  cycleR : Nat := 0               -- K_R
  turn : Nat := 0                 -- T_turn, 1/64 ns
  roundR : Nat := 0               -- n_R
  rttc : Nat := 0                 -- RTT_c, 1/64 ns
  priv : Nat := 0                 -- the hub's ephemeral private key
  chunks : Kv (List Byte) := []
  deriving DecidableEq, Repr

/-- The report last accepted from a berth (R285), as the observer takes it. -/
structure Report where
  cyc : Nat                       -- cycle of the burst
  slotAt : Nat                    -- slot instant
  payload : List Byte
  got : Nat                       -- time of its acceptance
  deriving DecidableEq, Repr

/-- An entry of the berth table (R329) and what the hub holds for the berth besides. -/
structure BerthSt where
  assign : Nat := 0
  arm : Nat := 0
  link : Link := .absent
  restricted : Bool := false
  romb : Bool := false
  srchk : Bool := false
  rslot : Nat := 0
  rsv : Bool := false
  keyid : DWord := 0
  rttn : Nat := 0
  beta : Nat := 0                 -- 16-bit code, signed
  ddown : Nat := 0
  dup : Nat := 0
  ph : Nat := 0
  align : Nat := 0
  drift : Int := 0
  code : Nat := 0
  crc : Nat := 0
  tag : Nat := 0
  format : Nat := 0
  miss : Nat := 0
  ok : Nat := 0
  quiet : Nat := 0
  admits : Nat := 0
  imgid : DWord := 0
  linkver : Nat := 0
  ranges : Nat := 0
  reranges : Nat := 0
  admission : Option Admission := none
  session : Option Key := none
  oldSession : Option (Key × Nat) := none  -- the key before a renewal, and the switch cycle (R186)
  sessAt : Nat := 0               -- round in which the exchange of the session key began
  wrap : Option Key := none
  report : Option Report := none
  waiting : List Report := []     -- accepted reports not yet applied by the observer
  mreq : Bool := false
  mreqAt : Nat := 0               -- time of the first of its reports that have shown MREQ since
  needImg : Bool := false         -- STATUS.IMG of its last report
  ack : Bool := false             -- the running group-key renewal has been acknowledged
  rekey : Option (Nat × Kv (List Byte)) := none  -- a session renewal: private key, chunks (R186)
  perm : Bool := false            -- permanently bypassed, as a report or a command told (R379)
  lit : Bool := false             -- light was seen in its report slot in the round in progress
  seenThisRound : Bool := false   -- a report was accepted in the round in progress
  silence : Nat := 0              -- rounds counted towards SILENT_R (R321)
  srchRound : Bool := false       -- the search has held its laser killed in the round in progress
  fsa : Nat := 0
  fsb : Nat := 0
  upl : Nat := 0                  -- the cell's uplink that faces this hub, by its last boarding burst (R547)
  recheck : Nat := 0              -- words of BOOT_ID and BOOT_RUN still to be read (R316)
  deriving DecidableEq, Repr

/-- Who asked for a management record: the hub itself, the port mailbox, a station request (port and index of its
record), the deblock sequencer. -/
inductive MgmtFrom where
  | hub | mailbox | deblock
  | station (req : Nat) (record : Nat)
  deriving DecidableEq, Repr

/-- A record queued or awaiting its response (R286, R290). -/
structure MgmtRec where
  berth : Nat
  rtype : Nat
  tid : Nat
  marks : Nat                     -- PRES and SEAL of byte 3
  body : List Byte
  src : MgmtFrom := .hub
  deblock : Bool := false
  round : Nat := 0                -- round in which it was sent
  sentAt : Nat := 0               -- network time of that frame's launch
  deriving DecidableEq, Repr

/-- What a frame does at the hub once it is launched: the records, kills, REFUSEs and the image block it carries. -/
structure Carried where
  records : List MgmtRec := []
  kills : List Nat := []
  killAll : Bool := false
  restores : Bool := false
  tbase : Bool := false
  beacon : Bool := false
  refuses : Nat := 0
  ends : Nat := 0                 -- REFUSE and LASER_KILL of links that end (R316)
  reoffers : List Nat := []       -- OFFERs sent again (R306)
  image : Bool := false
  seqEnd : Nat := 0               -- sequence number after its new event words
  deriving DecidableEq, Repr

/-- A frame built for launch (R248), all but what it takes at its launch: CYCLE, TBG, BLOCK_REQ, TAG and CRC. -/
structure BuiltFrame where
  lead : Nat                      -- byte 1: port and L_exec - 1
  watch : Nat
  flags : Nat
  refs : List Word
  bitmap : List Byte
  rep : List Nat                  -- repeated and new event words
  new : List Nat
  tt : List (List Byte)           -- timetable entries
  mhdr : List Byte
  mbody : List Byte
  breq : Bool := false            -- fallback frame: BLOCK_REQ stood at its building (R339)
  carried : Carried := {}
  deriving DecidableEq, Repr

/-- A babbler search (R325): suspects, those at the start, the half just killed, whether the last step is the check. -/
structure Search where
  s : List Nat
  s0 : List Nat
  k : List Nat
  check : Bool
  light : Bool := false           -- light was seen in some step
  deriving DecidableEq, Repr

/-- A tree port of a hub beyond its registers. -/
structure PortSt where
  ready : Option BuiltFrame := none    -- frame k + 1, built by stage F
  fallback : Option BuiltFrame := none
  launched : List Byte := []           -- the bytes of the last frame launched, FTYPE to CRC
  last : Option BuiltFrame := none     -- that frame as built
  seq : Nat := 0                       -- sequence number of the next new event word (R254)
  lastNew : List Nat := []             -- new event words of the last frame launched
  zeroNew : Nat := 0                   -- frames still to be launched with NNEW = 0 (R272)
  zeroRep : Bool := false              -- the next frame carries NREP = 0 (R272)
  group : Option Key := none
  keyAt : Nat := 0                           -- cycle in which its last renewal began, or the key was drawn (R185)
  renew : Option (Key × Nat × Nat) := none   -- new group key, K_sw, round in which the renewal began (R185)
  nextTid : Nat := 0
  mq : List MgmtRec := []
  wait : List MgmtRec := []                  -- records of the hub itself that find 64 queued
  opens : List MgmtRec := []
  rslots : List (Nat × Nat × Nat × Nat) := []    -- RSLOT entries repeated: berth, slot, round, slot until then (256 for none)
  grants : List (Nat × Nat × Nat) := []      -- MGRANT entries repeated: berth, slot, round
  grantFor : Nat := 0                        -- the last round for which grants have been made
  kills : List Nat := []                     -- berths to be killed in the next frame
  killAll : Bool := false
  restores : Option (List Nat) := none       -- RESTORE of these berths in the next frame
  tbaseOwed : Nat := 0                       -- frames still to carry a TBASE after a change of TBG
  tbaseRound : Option Nat := none            -- the last round one of whose frames carried a TBASE
  beaconRound : Option Nat := none           -- the same of a BEACON
  refuses : List (List Byte) := []           -- REFUSE bodies to be sent
  ends : List (Nat × List Byte) := []        -- links that end: berth to be killed and REFUSE body, one frame (R316)
  reoffers : List Nat := []                  -- berth indices whose OFFER is sent once more (R306)
  offers : List (Nat × Nat) := []            -- berth and K_R of OFFERs being repeated
  winEnd : Nat := 0                          -- passed time at which the enrolment window expires
  lightRun : Nat := 0                        -- consecutive rounds of unslotted light
  search : Option Search := none
  imgNext : Option Nat := none               -- next image block of a multicast pass; 0 after the key record
  imgKey : Bool := false                     -- the key record of this pass has been sent
  mailbox : Bool := false                    -- TREE_RA busy
  launches : Bool := true                    -- the port's rate agrees with the profile (R334)
  deriving DecidableEq, Repr

/-- An entry of the observer table (R370 to R389); centres in units of 2^-32 ns. -/
structure ObsSt where
  vest : Word := 0
  cest : Word := 0
  sqq : DWord := 0
  sqv : DWord := 0
  vrep : Word := 0
  trep : Nat := 0                 -- word E7
  centre : Option Nat := none     -- centre of the last applied report
  vmean : Word := 0               -- its VMEAN
  held : Bool := false            -- its STATUS.HOLD
  age : Nat := 0
  avail : Bool := false
  unobs : Bool := true
  excl : Bool := false
  isel : Bool := true
  oor : Bool := false
  clim : Bool := false
  pblk : Bool := false
  dwell : Nat := 0
  innov : Word := 0
  outl : Nat := 0
  stale : Nat := 0
  learns : Nat := 0
  edges : Nat := 0
  ring : List Word := []          -- charges of the last cycles, newest first, at most 32 (R370)
  rounds : Nat := 0               -- whole rounds without an applied report (R373)
  applied : Bool := false         -- a report was applied in the round in progress
  deriving DecidableEq, Repr

/-- A report as the fusion takes it (R376): berth, centre, IMEAN in mA, whether its outlier has been counted. -/
structure FusRep where
  berth : Nat
  centre : Nat
  imean : Int
  counted : Bool := false
  got : Nat := 0                  -- when it was accepted
  fault : Bool := false           -- STATUS.STATE is fault latched
  deriving DecidableEq, Repr

/-- The fusion of an arm: value, timestamp, validity, the previous valid fusion, the last i_c used. -/
structure Fus where
  i : DWord := 0
  c : Nat := 0
  valid : Bool := false
  iPrev : DWord := 0
  cPrev : Nat := 0
  any : Bool := false             -- a valid fusion has been made
  two : Bool := false             -- and one before it
  ic : DWord := 0
  invalidAt : Nat := 0            -- last meridian at which the fusion was invalid, plus one
  deriving DecidableEq, Repr

/-- A RANK command waiting for the next stage B (R389). -/
inductive RankJob where
  | wr (i : Nat) (excl isel : Bool)
  | setc (i : Nat) (v : Word)
  | setv (i : Nat) (v : Word)
  deriving DecidableEq, Repr

/-- The orders of stage D for one arm (R383), and its swap proposals: berth to be bypassed, berth to be inserted. -/
structure Orders where
  insPos : List Nat := []
  insNeg : List Nat := []
  bypPos : List Nat := []
  bypNeg : List Nat := []
  swaps : List (Nat × Nat) := []
  deriving DecidableEq, Repr

/-- The observer, the fusion and the rank engine beyond the RANK registers. -/
structure RankSt where
  obs : Kv ObsSt := []            -- by berth index; an unlisted entry is at its reset values
  seen : Kv ObsSt := []           -- the same as the last stage B left it (R388)
  recent : List (List FusRep) := [[], []]   -- per arm, the most recent reports by arrival, newest first
  fus : List Fus := [{}, {}]
  iplRun : List Nat := [0, 0]
  jobs : List RankJob := []
  lastB : Option Nat := none      -- cycle of the last stage B
  orders : List Orders := [{}, {}]
  sorted : Bool := false          -- a stage D has run since EN was set
  lastAvail : List (List Nat) := [[], []]   -- available sets at the last stage D
  lowSeen : List Bool := [true, true]       -- REDUN below RLOW, and below 0, at the last stage B; at reset it has not risen yet
  lostSeen : List Bool := [false, false]
  deriving DecidableEq, Repr

/-- A handover (R414 to R418): the incoming slot, its start cycle, the blend executions, whether it has started, how many
executions it has blended, whether a chain has been back-calculated. -/
structure HoSt where
  slot : Nat
  start : Nat
  nb : Nat
  running : Bool := false
  c : Nat := 0
  back : Bool := false
  abort : Bool := false
  deriving DecidableEq, Repr

/-- The control engine beyond its registers and its memory region: queued signal writes (R398), queued CHAIN writes
(R413), writes seen by a running slot check (R403), the bank of each chain's last execution since the load of its slot
(key 64 * slot + chain), scheduler initialisation, the handover. -/
structure EngSt where
  sigq : List (Nat × Word) := []
  chq : List (Word × DWord) := []
  hit : List Bool := [false, false]
  banks : Kv Nat := []
  schInit : List Bool := [false, false, false, false]
  ho : Option HoSt := none
  deriving DecidableEq, Repr

/-- A repetitive controller unit beyond its registers and its table: the position and time of its last execution (R434). -/
structure RcuSt where
  pos : Option DWord := none
  time : Nat := 0
  deriving DecidableEq, Repr

/-- An injector (R447): the cycle it waits for, its start instant and the T_cyc there, executions done, the shift register,
executions since it advanced, a requested stop, the frequency when it serves a frequency-response run. -/
structure InjSt where
  run : Bool := false
  at' : Option Nat := none
  t0 : Option Nat := none
  tc : Nat := 0
  n : Nat := 0
  lfsr : Nat := 0
  bit : Nat := 0
  stop : Bool := false
  fr : Option DWord := none
  deriving DecidableEq, Repr

/-- A following-error supervisor (R444 to R446): its settings and its state. -/
structure FeSt where
  cfg : Word := 0x00010000
  lim : Word := 0x7F800000
  hys : Word := 0
  tripped : Bool := false
  above : Bool := false
  trips : Nat := 0
  timer : Nat := 0
  deriving DecidableEq, Repr

/-- A set-point ramp (R441): its state and whether EN was 1 at its last stage A. -/
structure RampSt where
  y : DWord := 0
  on : Bool := false
  deriving DecidableEq, Repr

/-- The result of a frequency-response point (R451). -/
structure FrRes where
  fused : Word := 0
  m : Nat := 0
  nanf : Bool := false
  skip : Bool := false
  abort : Bool := false
  iu : DWord := 0
  qu : DWord := 0
  iy : DWord := 0
  qy : DWord := 0
  deriving DecidableEq, Repr

/-- A running frequency response: its injector, executions done in the point in progress, its M and its frequency, the cycle of the last
execution. -/
structure FrSt where
  inj : Nat := 0                  -- its injector, as GO named it
  n : Nat := 0
  m : Nat := 0
  f : DWord := 0
  last : Nat := 0
  deriving DecidableEq, Repr

/-- The units of 14_compensation_supervision.md beyond their registers. -/
structure CompSt where
  rcu : List RcuSt := List.replicate 16 {}
  taught : List Nat := []         -- units that have learned, or skipped, in this stage C (R435)
  inj : List InjSt := [{}, {}]
  v : List DWord := [0, 0]        -- injector values of this execution
  fe : Kv FeSt := []
  ramps : List RampSt := List.replicate 16 {}
  rampAt : Nat := 0               -- t_prev of the ramps
  angv : Kv (DWord × Bool) := []  -- values of the angle tables in this stage C, with poison (R438)
  fr : Option FrSt := none
  frRes : List FrRes := List.replicate 16 {}
  deriving DecidableEq, Repr

/-- A commanded move of a berth within a target cycle: offset in 1/64 ns, the state moved to, the on-time of a trim pulse. -/
structure Move where
  berth : Nat
  offset : Nat
  dest : CellState
  width : Nat := 0
  deriving DecidableEq, Repr

/-- The plan that launched frames carry for a target cycle (R368): the inserted berths at its beginning, its moves, the
mode and the references of INTERLEAVE. -/
structure LaunchPlan where
  target : Nat
  start : Kv CellState := []
  moves : List Move := []
  inter : Bool := false
  m : List Word := [0, 0]
  blk : Bool := false             -- launched with every entry block (R513)
  deriving DecidableEq, Repr

/-- The snapshot latched at a meridian (R336, R377, R658). -/
structure Snap where
  k : Nat
  time : Nat
  theta : DWord
  freq : DWord
  angv : Bool
  fus : List Fus
  words : Option (List Word)
  vavg : List Word := []          -- mean of each arm, as the observer estimates stood (R336)
  esum : List Word := []          -- energy of each arm, the same
  deriving DecidableEq, Repr

/-- What a deadline miss restores (R340): planned states, levels, residuals, trim cells and the cycles they have served. -/
structure ModSave where
  ins : Kv CellState := []
  level : List Int := [0, 0]
  resid : List DWord := [0, 0]
  served : List Nat := [0, 0]
  trim : List (Option Nat) := [none, none]  -- the trim cells (R352)
  rots : List Nat := [0, 0]       -- their rotations
  mode : Nat := 0                 -- the mode the plan was made in
  deriving DecidableEq, Repr

/-- The modulation step of a hub beyond the MOD registers. -/
structure ModSt where
  plan : ModSave := {}            -- as planned by the last stage E
  good : ModSave := {}            -- as launched
  snap : Option Snap := none      -- the newest snapshot
  used : Option Snap := none      -- the snapshot of the work in progress
  fresh : Bool := false           -- the newest snapshot's work has not started
  stages : Nat := 0               -- stages done of the work in progress, A in bit 0
  invalid : Bool := false         -- its stage C read poison (R395)
  moves : Option LaunchPlan := none     -- what its stage E planned
  words : List (List (Nat × Bool)) := [[], [], [], []]   -- new event words of each port, without SEQ; true: SEQ of the word before
  edges : List Nat := []          -- berths that the plan gives an edge of a level change or a swap (R385)
  late : Bool := false            -- the frame of the next meridian has missed its test (R340)
  pcmd : Option (Nat × Nat) := none       -- the protective command that waits: berth, action (R359)
  refs : List Word := List.replicate 7 0        -- the reference block
  plans : List LaunchPlan := []   -- plans launched, newest first
  target : Option Nat := none     -- j of a scheduled mode change
  pcmdSent : Bool := false        -- the plan carries it
  pcmdDue : List (Nat × Nat × Nat) := []  -- target cycle, berth, action of words launched
  edgesDue : List (Nat × Nat) := []       -- target cycle and berth of edges launched (R385)
  deriving DecidableEq, Repr

/-- The modulation of a cell beyond its registers (R355 to R360): the epoch in use, one that waits for its meridian,
whether a commit waits, the references in force and those of later targets. -/
structure CellModSt where
  epoch : Option (Nat × Nat) := none    -- E and t_E
  next : Option (Nat × Nat) := none
  pend : Bool := false
  ref : List Word := [0, 0, 0]          -- M, VAVG, IARM in force
  refs : List (Nat × List Word) := []   -- by target cycle
  edge : Option (Nat × CellState × Nat) := none  -- the edge placed by the last sample: instant, state, when it was placed
  sampled : Option Nat := none          -- instant of the last sample
  deriving DecidableEq, Repr

/-- What the two switches of a leg do: never both on (R472). -/
inductive Leg where
  | off | upper | lower
  deriving DecidableEq, Repr

/-- The gate block of a cell and the TEV outputs of a hub beyond their registers (R460 to R481). -/
structure GateSt where
  state : CellState := .block     -- the state in force
  legA : Leg := .off              -- GATE0 and GATE1
  legB : Leg := .off              -- GATE2 and GATE3
  riseA : Option Leg := none      -- turn-on of leg A waiting for the end of the dead time
  riseB : Option Leg := none
  blocked : Bool := true          -- the block state of R462: bypass and insertion are discarded until a deblock
  nextUpper : Bool := false       -- BYPSEL = 2: the next entry to bypass from an inserted state uses the upper pair (R461)
  lastAt : Option Nat := none     -- instant of the last executed request (R464)
  falls : Nat := 0                -- instants, 2^-32 ns, at which the last edge's outputs fall and rise (R463, R466)
  rises : Nat := 0
  fallsAt : Nat × Nat := (0, 0)   -- TCLK tick and delay-line tap of each (R467, R469)
  risesAt : Nat × Nat := (0, 0)
  latch : Nat := 0                -- GATE_FLT.LATCH
  live : Nat := 0                 -- GATE_FLT.LIVE
  safeOn : Bool := false          -- the safe levels' turn-on has happened since the fault (R471)
  pbyp : Bool := false            -- permanently bypassed (R477)
  stops : List StopCause := [.page]  -- causes of STOP that hold (R475); the page is disabled at reset
  trip0At : Option Nat := none    -- time of the last TRIP0 assertion (R477)
  thyLeft : Nat := 0              -- pulses left in the train on GATE4 (R476)
  gate4 : Bool := false
  gate5 : Bool := false
  gate5Run : Bool := false        -- the close command of the permanent bypass runs
  taps : List Nat := []           -- the last counts of the replica line, newest first (R467)
  flags : Nat := 0                -- EVFLAGS since the last report payload (R284)
  trimEnd : Option (Nat × CellState × Nat) := none  -- end of the running trim pulse, the state it returns to, when it was queued
  dropped : Option CellState := none  -- the state a short pulse asked for, until the next request acts (R464)
  hist : List (Nat × CellState) := []  -- instants at which the state in force changed, newest first (R283)
  tev : List Bool := [false, false, false, false, false, false]
  tevNext : List Nat := [0, 0, 0, 0, 0, 0]    -- next instant of each armed output
  tevEnd : List (Option Nat) := []            -- end of the pulse in progress on each output (R480)
  deriving DecidableEq, Repr

/-- Valve Block at the hub and block detection at the cell beyond their registers (R507 to R528). -/
structure SafeSt where
  vb : Bool := false              -- DEBLOCKED
  startup : Nat := 0
  alatch : Nat := 0               -- TRIP0, TRIP1, SAFE, DISC
  alatchAt : Option Nat := none   -- when ALATCH last rose from zero
  asserted : Nat := 0             -- asserted now: TRIP0, TRIP1, SAFE_A, SAFE_B, DISC
  breq : Bool := false
  breqSrc : Nat := 0
  latchAt : Option Nat := none    -- time of the assertion whose REACTB is being measured (R524)
  seqLeft : List Nat := []        -- berths the deblock sequencer has still to queue
  seqOpen : List Nat := []        -- berths whose deblock record is not answered
  db : Bool := false              -- cell: deblocked
  blkSeen : Bool := false         -- cell: BLKSEEN
  blkAt : Nat := 0                -- cell: time of the last detection (R520)
  plaus : Bool := false           -- cell: the plausibility input
  breqF : Bool := false           -- cell: BLOCK_REQ in the last obeyed frame
  deriving DecidableEq, Repr

/-- A window accumulator (R491): sum, count, least and greatest result in units of 2^-23 of full scale; the window
[start, stop) in units of 4 ns. -/
structure Acc where
  sum : Int := 0
  count : Nat := 0
  lo : Int := 0
  hi : Int := 0
  start : Nat := 0
  stop : Nat := 0
  deriving DecidableEq, Repr

/-- The last closed window of a channel: binary32 mean, minimum and maximum (R495), its count and bounds. -/
structure WinRes where
  mean : Word := 0
  min : Word := 0
  max : Word := 0
  count : Nat := 0
  wins : Nat := 0
  start : Nat := 0
  stop : Nat := 0
  closed : Bool := false          -- a window has closed
  mean64 : DWord := 0             -- the mean before rounding to binary32
  deriving DecidableEq, Repr

/-- The accumulators (R490 to R498): channels 0 to 9 of R495, and 10, the second accumulator of M0 (R497). -/
structure AdcSt where
  acc : List Acc := List.replicate 11 {}
  last : List WinRes := List.replicate 11 {}
  due : List Nat := []            -- channels whose window has closed since WIN_CLOSED
  plA : Option DWord := none      -- means waiting for the plausibility test (R497): channel 0 of M2 and M0
  plB : Option DWord := none
  plSkip : Bool := false          -- one of the two windows was empty
  cmdEnd : CellState := .block    -- commanded state at the end of the last report window (R283)
  deriving DecidableEq, Repr

/-- A keyed link to a peer (R182, R536, R549, R654): our ephemeral private key, the keys after the exchange, the
sequence counters, and the chunks of the peer's string on a referee link. -/
structure LinkKeys where
  priv : Nat := 0
  rx : Option Key := none
  tx : Option Key := none
  rxSeq : Option Nat := none      -- last accepted
  txSeq : Nat := 0                -- next to send
  chunks : Kv (List Byte) := []
  deriving DecidableEq, Repr

/-- A STATUS frame as received (R539). -/
structure TwinStatus where
  cycle : Nat
  own : Nat
  seen : Nat
  health : Nat
  wit : Nat
  crossing : Nat
  n : List Nat                    -- N of arm 0 and arm 1, 16-bit codes
  trim : List Nat                 -- trim words of arm 0 and arm 1
  resid : List DWord              -- trim residuals
  bitmap : List Byte              -- 256 bytes, or none from a cold pair
  deriving DecidableEq, Repr

/-- A slice generation being staged (R543). -/
structure Staging where
  x : Nat
  idx : Nat
  nuse : Nat
  restart : Bool
  data : Kv Byte                  -- bytes by offset within the slice
  commit : Option (List Byte)     -- the whole slice once its COMMIT has arrived and its CRC matched
  deriving DecidableEq, Repr

/-- A captured slice (R542): crossing number, index, NUSE, RESTART, data. -/
structure Slice where
  x : Nat
  idx : Nat
  nuse : Nat
  restart : Bool
  data : List Byte
  bad : Bool := false             -- a word of it was poisoned: no COMMIT is sent (R598)
  deriving DecidableEq, Repr

/-- The twin link, the mirror and the role of a hub in its pair, beyond the TWIN registers (R529 to R568). -/
structure TwinSt where
  active : Bool := false
  link : LinkKeys := {}
  status : Option TwinStatus := none   -- the last STATUS
  statusAt : Option Nat := none
  adopt : Option TwinStatus := none    -- plan to be adopted by the next stage E (R535)
  missing : Nat := 0              -- consecutive cycles without STATUS (R565)
  collapse : Nat := 0             -- consecutive rounds of the witness condition of R565
  sawActive : Bool := false       -- a twin has shown ACTIVE since reset (R566)
  slackFrom : Option Nat := none  -- time from which TWIN_SLACK is measured
  capture : Option Slice := none  -- the slice being sent (R542)
  committed : Nat := 0            -- the crossing number last committed as active (R539)
  sent : Nat := 0                 -- cycles in which SLICE frames of it have been sent
  geom : Nat × Nat × Nat := (0, 0, 0)    -- SIZE, NUSE and G of the pass (R541)
  restart : Bool := true          -- the pass starts anew
  staging : List Staging := []    -- oldest first
  applied : Option Nat := none    -- last applied X
  flags : List Nat := []          -- shadow-only slices
  run : Nat := 0                  -- consecutive generations applied without gap (R546)
  frames : List (List Byte) := [] -- twin frames sent in the present cycle
  ref : LinkKeys := {}            -- the referee link
  refAt : Option Nat := none      -- time of the last valid referee frame
  refHeard : Bool := false        -- a valid referee frame has arrived in the present interval
  refLost : Bool := false         -- the referee has been judged lost (R564)
  wit : Nat := 0                  -- WIT of the last round (R547)
  refRun : Nat := 0               -- consecutive intervals with a valid referee frame (R564)
  refSent : List Byte := []       -- the last HB sent
  hbAt : Option Nat := none       -- the instant of the last HB (R551)
  reclaimAt : Option Nat := none  -- passed time since which the conditions of R566 hold
  deriving DecidableEq, Repr

/-- A link of a referee beyond its registers. -/
structure RefLinkSt where
  keys : LinkKeys := {}
  echo : Nat := 0                 -- CYC16 of its last valid HB
  lastHb : Option Nat := none     -- time of that HB
  sent : List Byte := []          -- the last frame sent
  deriving DecidableEq, Repr

/-- A pair of a referee beyond its registers: commands being repeated (R555, R556). -/
structure RefPairSt where
  listening : Bool := true
  takeTo : Option Nat := none     -- hub (0 A, 1 B) that gets TAKE in place of RST
  yieldTo : Option Nat := none    -- hub that gets YIELD
  left : Nat := 0                 -- intervals for which the commands are still repeated
  collapse : Nat := 0             -- consecutive HB of the standby that show the collapse (R554)
  seen : Nat := 0                 -- newest WATCH received on the pair's links (R555)
  why : Nat := 0                  -- WHY of the failure for which no standby qualified
  since : Nat := 0                -- time at which the referee began to listen (R557)
  lastTx : Option Nat := none     -- time of the last frames sent (R551)
  deriving DecidableEq, Repr

/-- A work item of the scheduler (R574, R575): pool slot, FLOW, TYPE, ARG, QUEUE, for a timed item its list, REL and PER;
whether hardware submitted it, the instant at which it became ready, whether it has been reported stuck, whether a periodic
item must not return. -/
structure Item where
  slot : Nat
  flow : Nat
  type : Nat
  arg : Word
  queue : Nat
  timed : Option (Nat × Nat × Nat) := none
  hw : Bool := false
  ready : Nat := 0
  stuck : Bool := false
  gone : Bool := false
  deriving DecidableEq, Repr

/-- The scheduler beyond its registers (R574 to R592): generations of the slots, items queued, listed and in service,
oldest first, the supervisor's mailbox (slots), dispatches of each worker, items that hardware holds for want of room
(queue, flow, argument), the tick last handled, and the staging and result registers of each access path (R575). -/
structure SchSt where
  gens : Kv Nat := []
  queues : Kv (List Item) := []
  lists : List (List Item) := [[], [], [], []]
  svc : List Item := []
  mail : List Nat := []
  disp : List Nat := [0, 0, 0, 0]
  held : List (Nat × Nat × Nat) := []
  subs : Kv Word := []            -- SCHG_SUB0 to SUB3 by 4 * path + i
  subres : Kv Word := []          -- SCHG_SUBRES by path
  canres : Kv Word := []          -- SCHG_CANRES by path
  deriving DecidableEq, Repr

/-- A memory word that does not hold its data with correct check bits (R594 to R597): the wrong bits of its 80 (data bits
below 64) and whether it carries the poison marker. -/
structure MemErr where
  wrong : List Nat := []
  poison : Bool := false
  deriving DecidableEq, Repr

/-- The state-memory arbiter beyond its registers (R602 to R607): whether MEM_SLOCK.OPEN waits for its access, the grants
taken and the words written inside the lock held, oldest first, and the word that the scrubber visits next. -/
structure ArbSt where
  armed : Bool := false
  grants : Nat := 0
  words : List Nat := []
  scrubAt : Nat := 0              -- index of the word that the scrubber visits next
  scrubbed : Option Nat := none   -- passed time at its last visit (R599)
  lockedAt : Nat := 0             -- passed time at the owner's last access in the lock (R607)
  deriving DecidableEq, Repr

/-- The cell black box beyond its registers (R637 to R639): the entry written next, the entries still to be written
before it freezes, whether EN has risen since reset. -/
structure BbSt where
  idx : Nat := 0
  post : Option Nat := none
  cause : Nat := 0                -- WHY of the freeze that `post` waits for (R638)
  begun : Bool := false
  built : Nat := 0                -- payloads built since the last record of one
  deriving DecidableEq, Repr

/-- A monitor unit (R640): least and greatest sample, sum, count, bins. -/
structure MonUnit where
  mn : Int := 2147483647
  mx : Int := -2147483648
  sum : Int := 0
  count : Nat := 0
  bins : Kv Nat := []
  deriving DecidableEq, Repr

/-- The signal record in progress (R622, R623): its first cycle and its span, level, samples, whether a value was
poisoned, and per channel the least and the greatest finite sample. -/
structure RecAcc where
  first : Nat
  span : Nat
  lvl : Nat
  nsmp : Nat := 0
  inv : Bool := false
  ext : Kv (Word × Word) := []
  deriving DecidableEq, Repr

/-- A record in the live or post segment: its offset counted since the segment began, its length, its type. -/
structure RecMark where
  off : Nat
  len : Nat
  type : Nat
  deriving DecidableEq, Repr

/-- A full staging buffer whose item has not completed (R634): sequence number, segment, offset in it, bytes, INV. -/
structure RecChunk where
  seq : Nat
  seg : Nat
  off : Nat
  data : List Byte
  inv : Bool
  deriving DecidableEq, Repr

/-- A trigger unit between evaluations (R631): whether the next evaluation only records, its condition, the previous
sample. -/
structure TrigSt where
  fresh : Bool := true
  cond : Bool := false
  prev : Option Word := none
  deriving DecidableEq, Repr

/-- A capture in progress or just ended: sequence number, CAUSE, LATER, PRIMARY, the offset of its trigger record, trigger
cycle and time, post records written, and the flags of R626. -/
structure RecCap where
  cause : Nat
  later : Nat := 0
  primary : Nat
  trigOff : Nat
  cyc : Nat
  time : Nat
  post : Nat := 0
  deriving DecidableEq, Repr

/-- The disturbance recorder of a hub beyond its registers (R621 to R636). -/
structure RecSt where
  acc : Option RecAcc := none
  next : Option Nat := none       -- the next cycle to be covered
  fill : List Byte := []          -- the staging buffer being filled
  fillInv : Bool := false         -- a record in it carries INV
  tail : List Byte := []          -- bytes of an accepted record for which no buffer is free yet
  full : List RecChunk := []      -- full buffers, oldest first
  chunkSeq : Nat := 0
  pos : Nat := 0                  -- bytes written to the live segment since it began
  base : Nat := 0                 -- offset at which the buffer being filled begins
  marks : List RecMark := []      -- records held in the live or post segment, oldest first
  cap : Option RecCap := none     -- the capture in progress
  capSeq : Nat := 0               -- captures started
  lost : Bool := false            -- the next record written carries LOST
  flags : Nat := 0                -- flags of the live segment's descriptor, word 0 [15:8]
  maxLvl : Nat := 0
  sinceTrig : Nat := 0            -- signal records since the last trigger
  quiet : Nat := 0                -- consecutive fills without pressure
  holdLeft : Nat := 0             -- firings still to be discarded (HOLD.MODE 2)
  heldAt : Nat := 0               -- passed time at the end of the last capture (HOLD.MODE 1)
  force : Bool := false           -- REC_CMD.FORCE waits for the next sample
  trig : List TrigSt := List.replicate 16 {}
  viol : Nat := 0                 -- mask units that found a violation on the present sample
  occ : Kv Nat := []              -- PG_EVT bits that occurred since the last evaluation, by page
  rise : Nat := 0                 -- GPIO terminals that rose, and fell, since the last evaluation
  fall : Nat := 0
  rose : Bool := false            -- ALATCH rose since the last evaluation
  evf : List Nat := [0, 0]        -- EVFLAGS of reports accepted since the last evaluation, by arm
  deriving DecidableEq, Repr

/-- A set-point frame as accepted (R656, R657). -/
structure SpFrame where
  angt : Nat                      -- ANGT, 2^-32 ns
  angle : Word
  freq : Word
  rocof : Word
  angv : Bool
  apply : Nat                     -- APPLY, 2^-32 ns; 0 for none
  words : List Word
  got : Nat := 0                  -- time of its acceptance
  deriving DecidableEq, Repr

/-- A sample of a sampled-value stream: its instant, eight channels, good or not per channel (R661). -/
structure SvSample where
  time : Nat
  vals : List Int
  good : List Bool
  deriving DecidableEq, Repr

/-- A sender that PRP tracks (R651): its address, the last time it was heard, the highest sequence number and the sequence
numbers seen within the window. -/
structure PrpSrc where
  mac : Nat
  heard : Nat
  high : Nat
  seen : List Nat
  deriving DecidableEq, Repr

/-- A record of a management request (R659) and its answer: code, INDEX, data. -/
structure StnRec where
  tid : Nat
  op : Nat
  nw : Nat
  node : Nat
  addr : Nat
  words : List Word
  ans : Option (Nat × Nat × List Byte) := none
  deriving DecidableEq, Repr

/-- A management request: the address it came from and its records. -/
structure StnReq where
  src : Nat
  recs : List StnRec
  deriving DecidableEq, Repr

/-- A recorder chunk that awaits streaming (R664): chunk sequence, address, INV. -/
structure StnChunk where
  seq : Nat
  addr : Nat
  inv : Bool
  deriving DecidableEq, Repr

/-- The station interface beyond its registers (R650 to R667). -/
structure StnSt where
  active : Option SpFrame := none
  pend : Option SpFrame := none
  lastAng : Option SpFrame := none    -- the last frame whose angle was valid when used
  ang0 : Option Nat := none           -- the first meridian, from which the angle runs before any valid frame
  sv : List (List SvSample) := [[], [], [], []]   -- per stream, newest first
  keys : LinkKeys := {}
  high : Option Nat := none       -- highest SEQ accepted
  seen : List Nat := []           -- SEQs accepted within 64 below it
  prp : List PrpSrc := []         -- newest heard first, at most 32
  prpSeq : Nat := 0               -- sequence number of the next redundancy trailer
  reqs : Kv StnReq := []          -- requests by reference number
  nextReq : Nat := 0
  txq : List Nat := []            -- descriptors posted, oldest first
  strm : List StnChunk := []
  later : List (List Byte) := []  -- frames of the hardware that wait behind a timed entry (R662)
  spAt : Nat := 0                 -- passed time at which a set-point frame last became active (R657)
  svAt : List Nat := []           -- per stream: passed time of its last sample (R661)
  prpAt : Option Nat := none      -- passed time of the last supervision frame (R651)
  sent : List (Nat × List Byte) := []   -- frames sent by the last command that sent any: port, bytes without FCS
  deriving DecidableEq, Repr

/-- The state of the part. `pending` is the queue of waiting commands, first in, first out. -/
structure State where
  -- reset, roles, pins, boot, supervisor
  role : Role := .none
  phase : Phase := .held
  grade : Grade := .h
  pins : PinSt := {}
  regs : Kv Word := []            -- register words that differ, or have differed, from their reset values
  act : Kv Word := []             -- active values of SH fields since the last commit of their page (R71)
  mem : Kv Byte := []             -- the memories of R152 by supervisor address
  resp : Resp := {}               -- the last answer of the register bridge
  host : HostSt := {}
  boot : BootSt := {}
  sup : SupSt := {}
  clk : ClkSt := {}
  sec : SecSt := {}
  err : ErrSt := {}
  freeCtr : Nat := 0              -- the model's own: index of the next free value
  uart : UartSt := {}
  now : Nat := 0                  -- network time, 2^-32 ns (R221)
  elapsed : Nat := 0              -- time passed since power-on, 2^-32 ns; no step or load changes it
  time : TimeSt := {}
  lanes : List LaneSt := List.replicate 8 {}
  rx : RxSt := {}
  ports : List PortSt := List.replicate 4 {}
  berths : Kv BerthSt := []           -- the berth table by berth index; an unlisted entry is vacant
  rank : RankSt := {}
  eng : EngSt := {}
  comp : CompSt := {}
  mod : ModSt := {}
  cmod : CellModSt := {}
  gate : GateSt := {}
  safe : SafeSt := {}
  adc : AdcSt := {}
  twin : TwinSt := {}
  refLinks : List RefLinkSt := List.replicate 4 {}
  refPairs : List RefPairSt := List.replicate 2 {}
  sch : SchSt := {}
  memErr : Kv MemErr := []           -- words with wrong check bits, by address / 8; an unlisted word is sound
  arb : ArbSt := {}
  bb : BbSt := {}
  mon : Kv MonUnit := []           -- monitor units 0 to 63; an unlisted unit is cleared
  recd : RecSt := {}
  stn : StnSt := {}
  pending : List Instr := []
  deriving DecidableEq, Repr

/-- The reasons for which the block stops: there is none. The spec describes what every command does, its refusals and
error answers among them, so no command faults. -/
inductive Fault where
  deriving DecidableEq, Repr

/-- A reason for which a command has no meaning here. -/
inductive Refusal where
  /-- The command of that mnemonic has no meaning in this model yet. Safe. -/
  | notModelled (mnemonic : String)
  deriving DecidableEq, Repr

/-- What a command answers. -/
abbrev Out := Host.Outcome State Fault Refusal

/-- The part right after a power-on reset: held in reset with its role not yet read (R127, R130), SYS_RST_CAUSE telling POR
(R128), every other register at its reset value, every memory at its initial contents, no command waiting. -/
def State.reset : State := { regs := [(0x54, 1)] }

end Sys2Proof.Machine
end

