-- ==== Sys2Proof/Machine/Bits.lean ====
section
/-! DEFINITION. Bit fields, signs, byte orders, saturating counters, and the sorted association list that holds
sparse data (registers, memory, tables). -/

namespace Sys2Proof.Machine

/-- The `w` bits of `v` from bit `lo` up, as a number. -/
def getBits (v : Word) (lo w : Nat) : Nat := (v.toNat >>> lo) % 2 ^ w

/-- `v` with its `w` bits from bit `lo` up replaced by the low bits of `n`. -/
def setBits (v : Word) (lo w n : Nat) : Word :=
  (v &&& ~~~ (BitVec.ofNat 32 ((2 ^ w - 1) <<< lo))) ||| BitVec.ofNat 32 ((n % 2 ^ w) <<< lo)

/-- Bit `i` of a number. -/
def bitOf (n i : Nat) : Bool := (n >>> i) % 2 == 1

/-- A Boolean as 0 or 1. -/
def b2n (b : Bool) : Nat := if b then 1 else 0

/-- The signed value of the low `w` bits of `n`. -/
def signed (w n : Nat) : Int :=
  let m := n % 2 ^ w
  if m < 2 ^ (w - 1) then m else (m : Int) - 2 ^ w

/-- The two's complement code of `i` in `w` bits. -/
def unsigned (w : Nat) (i : Int) : Nat := (i % (2 ^ w : Int)).toNat

/-- `n + k`, saturating at the largest `w`-bit value. -/
def satAdd (w n k : Nat) : Nat := min (n + k) (2 ^ w - 1)

/-- The little-endian bytes of `n`, `k` of them. -/
def leBytes : (k n : Nat) → List Byte
  | 0, _ => []
  | k + 1, n => BitVec.ofNat 8 n :: leBytes k (n / 256)

/-- The number whose little-endian bytes are given. -/
def ofLe : List Byte → Nat
  | [] => 0
  | b :: bs => b.toNat + 256 * ofLe bs

/-- The big-endian bytes of `n`, `k` of them. -/
def beBytes (k n : Nat) : List Byte := (leBytes k n).reverse

/-- The number whose big-endian bytes are given. -/
def ofBe (bs : List Byte) : Nat := ofLe bs.reverse

/-- How many bits of `n` below bit `k` are 1. -/
def popCount : (k n : Nat) → Nat
  | 0, _ => 0
  | k + 1, n => n % 2 + popCount k (n / 2)

/-- The lowest index below `k` at which `p` holds, searched from `i` up. -/
def firstFrom (p : Nat → Bool) : (k i : Nat) → Option Nat
  | 0, _ => none
  | k + 1, i => if p i then some i else firstFrom p k (i + 1)

/-- The lowest index below `k` at which `p` holds. -/
def firstIdx (k : Nat) (p : Nat → Bool) : Option Nat := firstFrom p k 0

/-- Element `i` of a list, with `d` where there is none. -/
def nth {α : Type} (l : List α) (i : Nat) (d : α) : α := (l[i]?).getD d

/-- The list with `x` as element `i`; elements between its end and `i` are `d`. -/
def setAt {α : Type} (d : α) : List α → (i : Nat) → α → List α
  | [], 0, x => [x]
  | [], i + 1, x => d :: setAt d [] i x
  | _ :: l, 0, x => x :: l
  | y :: l, i + 1, x => y :: setAt d l i x

/-- The list with its first element satisfying `p` removed. -/
def removeFirst {α : Type} (p : α → Bool) : List α → List α
  | [] => []
  | x :: xs => if p x then xs else x :: removeFirst p xs

/-- `f` applied `k` times, counting from 0 up. -/
def forUpTo {σ : Type} (f : Nat → σ → σ) : (k : Nat) → σ → σ
  | 0, s => s
  | k + 1, s => f k (forUpTo f k s)


/-- The value stored under `k`, if any. -/
def kvFind {α : Type} : Kv α → Nat → Option α
  | [], _ => none
  | (a, v) :: m, k => if a = k then some v else kvFind m k

/-- The value stored under `k`, with `d` where there is none. -/
def kvGet {α : Type} (d : α) (m : Kv α) (k : Nat) : α := (kvFind m k).getD d

/-- `m` with `v` stored under `k`. -/
def kvSet {α : Type} : Kv α → Nat → α → Kv α
  | [], k, v => [(k, v)]
  | (a, x) :: m, k, v =>
    if k < a then (k, v) :: (a, x) :: m
    else if a = k then (k, v) :: m
    else (a, x) :: kvSet m k v

/-- `m` with nothing stored under `k`. -/
def kvErase {α : Type} : Kv α → Nat → Kv α
  | [], _ => []
  | (a, x) :: m, k => if a = k then kvErase m k else (a, x) :: kvErase m k

/-- `m` without the keys that fail `p`. -/
def kvKeep {α : Type} (p : Nat → Bool) (m : Kv α) : Kv α := m.filter (fun e => p e.1)

/-- Are the keys above `lo` and strictly rising? -/
def kvSortedFrom {α : Type} : (lo : Nat) → Kv α → Bool
  | _, [] => true
  | lo, (a, _) :: m => decide (lo ≤ a) && kvSortedFrom (a + 1) m

/-- Are the keys strictly rising? -/
def kvSorted {α : Type} (m : Kv α) : Bool := kvSortedFrom 0 m

/-- Exclusive or over the low bits of a table-driven remainder: one bit of a reflected CRC. -/
def crcBitR (poly : Nat) (c : Nat) : Nat := if c % 2 = 1 then (c / 2) ^^^ poly else c / 2

/-- One byte of a reflected CRC. -/
def crcByteR (poly : Nat) (c : Nat) (b : Byte) : Nat :=
  forUpTo (fun _ x => crcBitR poly x) 8 (c ^^^ b.toNat)

/-- CRC-32C (Castagnoli): reflected polynomial 0x82F63B78, initial value and final XOR all ones. -/
def crc32c (bs : List Byte) : Nat := (bs.foldl (crcByteR 0x82F63B78) 0xFFFFFFFF) ^^^ 0xFFFFFFFF

/-- One bit of the CRC-16 of R83. -/
def crc16Bit (c : Nat) : Nat := if c ≥ 0x8000 then ((c * 2) % 65536) ^^^ 0x1021 else c * 2

/-- CRC-16 of R83: polynomial 0x1021, initial value 0xFFFF, no reflection, no final XOR. -/
def crc16 (bs : List Byte) : Nat :=
  bs.foldl (fun c b => forUpTo (fun _ x => crc16Bit x) 8 (c ^^^ (b.toNat <<< 8))) 0xFFFF

end Sys2Proof.Machine
end

