-- ==== Sys2Proof/Machine/Crypto.lean ====
section
/-! DEFINITION. The algorithms that R170 and R182 to R186 name: SHA-256, HMAC and HKDF (RFC 5869), AES-128 and its GCM tag
with nothing encrypted, AES key wrap (RFC 3394), ECDSA and ECDH on P-256. Strings are lists of bytes; numbers are
big-endian. The standards themselves are outside the spec (PRESUMED, log 9). -/

namespace Sys2Proof.Machine

/-! SHA-256. -/

namespace Sha

/-- The 64 round constants as one number, constant 0 in its most significant 32 bits. -/
def kTable : Nat :=
  0x428a2f9871374491b5c0fbcfe9b5dba53956c25b59f111f1923f82a4ab1c5ed5 * 2 ^ 1792 +
  0xd807aa9812835b01243185be550c7dc372be5d7480deb1fe9bdc06a7c19bf174 * 2 ^ 1536 +
  0xe49b69c1efbe47860fc19dc6240ca1cc2de92c6f4a7484aa5cb0a9dc76f988da * 2 ^ 1280 +
  0x983e5152a831c66db00327c8bf597fc7c6e00bf3d5a7914706ca635114292967 * 2 ^ 1024 +
  0x27b70a852e1b21384d2c6dfc53380d13650a7354766a0abb81c2c92e92722c85 * 2 ^ 768 +
  0xa2bfe8a1a81a664bc24b8b70c76c51a3d192e819d6990624f40e3585106aa070 * 2 ^ 512 +
  0x19a4c1161e376c082748774c34b0bcb5391c0cb34ed8aa4a5b9cca4f682e6ff3 * 2 ^ 256 +
  0x748f82ee78a5636f84c878148cc7020890befffaa4506cebbef9a3f7c67178f2

/-- Round constant `r`. -/
def roundConst (r : Nat) : Nat := kTable >>> (32 * (63 - r)) % 2 ^ 32

/-- The initial hash value as one number, its first word most significant. -/
def start : Nat := 0x6a09e667bb67ae853c6ef372a54ff53a510e527f9b05688c1f83d9ab5be0cd19

/-- The eight words of a 256-bit number, the first most significant. -/
def eightWords (v : Nat) : List Nat := (List.range 8).map fun i => v >>> (32 * (7 - i)) % 2 ^ 32

def rotr (x n : Nat) : Nat := (x >>> n) ||| ((x <<< (32 - n)) % 2 ^ 32)

def s0 (x : Nat) : Nat := rotr x 7 ^^^ rotr x 18 ^^^ (x >>> 3)
def s1 (x : Nat) : Nat := rotr x 17 ^^^ rotr x 19 ^^^ (x >>> 10)

/-- The message schedule, newest word first, extended by `k` words. -/
def extend : (k : Nat) → List Nat → List Nat
  | 0, w => w
  | k + 1, w =>
    extend k ((s1 (nth w 1 0) + nth w 6 0 + s0 (nth w 14 0) + nth w 15 0) % 2 ^ 32 :: w)

/-- One round on the eight working variables. -/
def round (v : List Nat) (kw : Nat) : List Nat :=
  match v with
  | [a, b, c, d, e, f, g, h] =>
    let t1 := h + (rotr e 6 ^^^ rotr e 11 ^^^ rotr e 25) + ((e &&& f) ^^^ ((2 ^ 32 - 1 - e) &&& g)) + kw
    let t2 := (rotr a 2 ^^^ rotr a 13 ^^^ rotr a 22) + ((a &&& b) ^^^ (a &&& c) ^^^ (b &&& c))
    [(t1 + t2) % 2 ^ 32, a, b, c, (d + t1) % 2 ^ 32, e, f, g]
  | v => v

/-- One block of 64 bytes. -/
def block (h : List Nat) (bs : List Byte) : List Nat :=
  let w := (extend 48 ((List.range 16).map fun i => ofBe ((bs.drop (4 * i)).take 4)).reverse).reverse
  List.zipWith (fun a b => (a + b) % 2 ^ 32) h ((w.mapIdx fun r x => roundConst r + x).foldl round h)

/-- Blocks of 64 bytes, `k` of them. -/
def blocks : (k : Nat) → List Nat → List Byte → List Nat
  | 0, h, _ => h
  | k + 1, h, bs => blocks k (block h (bs.take 64)) (bs.drop 64)

end Sha

/-- SHA-256 of a string. -/
def sha256 (m : List Byte) : List Byte :=
  let pad := (119 - m.length % 64) % 64
  let p := m ++ [0x80] ++ List.replicate pad 0 ++ beBytes 8 (8 * m.length)
  (Sha.blocks (p.length / 64) (Sha.eightWords Sha.start) p).flatMap (beBytes 4)

/-- HMAC-SHA-256, key of at most 64 bytes. -/
def hmac (key m : List Byte) : List Byte :=
  let k := key ++ List.replicate (64 - key.length) 0
  sha256 (k.map (· ^^^ 0x5C) ++ sha256 (k.map (· ^^^ 0x36) ++ m))

/-- The first 16 bytes of HKDF-SHA-256. -/
def hkdf16 (salt ikm info : List Byte) : Key :=
  BitVec.ofNat 128 (ofBe ((hmac (hmac salt ikm) (info ++ [1])).take 16))

/-! AES-128. -/

namespace Aes

/-- The S-box, entry 0 in the most significant of its 256 bytes. -/
def sboxTable : Nat :=
  ((((((0x637c777bf26b6fc53001672bfed7ab76ca82c97dfa5947f0add4a2af9ca472c0 * 2 ^ 256 +
  0xb7fd9326363ff7cc34a5e5f171d8311504c723c31896059a071280e2eb27b275) * 2 ^ 256 +
  0x09832c1a1b6e5aa0523bd6b329e32f8453d100ed20fcb15b6acbbe394a4c58cf) * 2 ^ 256 +
  0xd0efaafb434d338545f9027f503c9fa851a3408f929d38f5bcb6da2110fff3d2) * 2 ^ 256 +
  0xcd0c13ec5f974417c4a77e3d645d197360814fdc222a908846eeb814de5e0bdb) * 2 ^ 256 +
  0xe0323a0a4906245cc2d3ac629195e479e7c8376d8dd54ea96c56f4ea657aae08) * 2 ^ 256 +
  0xba78252e1ca6b4c6e8dd741f4bbd8b8a703eb5664803f60e613557b986c11d9e) * 2 ^ 256 +
  0xe1f8981169d98e949b1e87e9ce5528df8ca1890dbfe6426841992d0fb054bb16

/-- The inverse S-box. -/
def invTable : Nat :=
  ((((((0x52096ad53036a538bf40a39e81f3d7fb7ce339829b2fff87348e4344c4dee9cb * 2 ^ 256 +
  0x547b9432a6c2233dee4c950b42fac34e082ea16628d924b2765ba2496d8bd125) * 2 ^ 256 +
  0x72f8f66486689816d4a45ccc5d65b6926c704850fdedb9da5e154657a78d9d84) * 2 ^ 256 +
  0x90d8ab008cbcd30af7e45805b8b34506d02c1e8fca3f0f02c1afbd0301138a6b) * 2 ^ 256 +
  0x3a9111414f67dcea97f2cfcef0b4e67396ac7422e7ad3585e2f937e81c75df6e) * 2 ^ 256 +
  0x47f11a711d29c5896fb7620eaa18be1bfc563e4bc6d279209adbc0fe78cd5af4) * 2 ^ 256 +
  0x1fdda8338807c731b11210592780ec5f60517fa919b54a0d2de57a9f93c99cef) * 2 ^ 256 +
  0xa0e03b4dae2af5b0c8ebbb3c83539961172b047eba77d626e169146355210c7d

/-- Entry `a` of a table. -/
def entry (table a : Nat) : Nat := (table >>> (8 * (255 - a))) % 256

/-- Byte `i` of a block, byte 0 the most significant of 16. -/
def blockByte (s i : Nat) : Nat := (s >>> (8 * (15 - i))) % 256

/-- The block whose bytes from `16 - k` up are `f`, `acc` holding those before. -/
def blockOf (f : Nat → Nat) : (k : Nat) → (acc : Nat) → Nat
  | 0, acc => acc
  | k + 1, acc => blockOf f k (acc * 256 + f (15 - k))

/-- Doubling in GF(2^8). -/
def xtime (a : Nat) : Nat := (2 * a % 256) ^^^ (a / 128) * 0x1B

/-- Product in GF(2^8) of `a` and a factor `c` of four bits. -/
def mul (a c : Nat) : Nat :=
  (c % 2) * a ^^^ (c / 2 % 2) * xtime a ^^^ (c / 4 % 2) * xtime (xtime a) ^^^ (c / 8) * xtime (xtime (xtime a))

/-- The next round key: the last word, rotated and substituted, enters the first; each word enters the next. -/
def nextKey (rcon k : Nat) : Nat :=
  let w := k % 2 ^ 32
  let t := (entry sboxTable (w / 2 ^ 16 % 256) ^^^ rcon) * 2 ^ 24 + entry sboxTable (w / 2 ^ 8 % 256) * 2 ^ 16
    + entry sboxTable (w % 256) * 2 ^ 8 + entry sboxTable (w / 2 ^ 24)
  let w0 := k / 2 ^ 96 ^^^ t
  let w1 := k / 2 ^ 64 % 2 ^ 32 ^^^ w0
  let w2 := k / 2 ^ 32 % 2 ^ 32 ^^^ w1
  w0 * 2 ^ 96 + w1 * 2 ^ 64 + w2 * 2 ^ 32 + (w ^^^ w2)

/-- The round keys, last first, extended by `k`. -/
def schedule : (ks : List Nat) → (rcon k : Nat) → List Nat
  | ks, _, 0 => ks
  | ks, rcon, k + 1 => schedule (nextKey rcon (ks.headD 0) :: ks) (xtime rcon) k

/-- The rows shifted and every byte substituted: byte `i` comes from its row `i % 4`, `by4` columns a row further on. -/
def subShift (table by4 s : Nat) : Nat := blockOf (fun i => entry table (blockByte s ((i + by4 * (i % 4)) % 16))) 16 0

/-- Column mixing with the four coefficients of a row, the first in the most significant byte of `c`. -/
def mix (c s : Nat) : Nat :=
  let part (i j : Nat) : Nat := mul (blockByte s (i / 4 * 4 + j)) ((c >>> (8 * (3 - (j + 4 - i % 4) % 4))) % 256)
  blockOf (fun i => part i 0 ^^^ part i 1 ^^^ part i 2 ^^^ part i 3) 16 0

def encRound (s k : Nat) : Nat := mix 0x02030101 (subShift sboxTable 4 s) ^^^ k
def decRound (s k : Nat) : Nat := mix 0x0E0B0D09 (subShift invTable 12 s ^^^ k)

/-- AES-128 of a block. -/
def encrypt (key : Key) (x : Nat) : Nat :=
  match (schedule [key.toNat] 1 10).reverse with
  | k0 :: ks => subShift sboxTable 4 ((ks.take 9).foldl encRound (x ^^^ k0)) ^^^ nth ks 9 0
  | [] => 0

/-- The inverse cipher. -/
def decrypt (key : Key) (x : Nat) : Nat :=
  match schedule [key.toNat] 1 10 with
  | k10 :: ks => subShift invTable 12 ((ks.take 9).foldl decRound (x ^^^ k10)) ^^^ nth ks 9 0
  | [] => 0

end Aes

/-! The GCM tag of additional data alone (R184). -/

/-- The product in GF(2^128) of `x` and `y`, bit 127 of `x` first: `z` the sum so far, `v` the multiple of `y`. -/
def gfLoop (x : Nat) : (k : Nat) → (z v : Nat) → Nat
  | 0, z, _ => z
  | k + 1, z, v => gfLoop x k (z ^^^ ((x >>> k) % 2) * v) ((v / 2) ^^^ (v % 2) * (0xE1 <<< 120))

/-- Product in GF(2^128). -/
def gfMul (x y : Nat) : Nat := gfLoop x 128 0 y

/-- GHASH over blocks of 16 bytes, `k` of them. -/
def ghash (h : Nat) : (k : Nat) → Nat → List Byte → Nat
  | 0, y, _ => y
  | k + 1, y, bs => ghash h k (gfMul (y ^^^ ofBe (bs.take 16)) h) (bs.drop 16)

/-- The 128-bit AES-128 GCM tag of `aad` with nothing encrypted, IV of 96 bits. -/
def gmac128 (key : Key) (iv : Nat) (aad : List Byte) : Nat :=
  let p := aad ++ List.replicate ((16 - aad.length % 16) % 16) 0 ++ beBytes 16 (8 * aad.length * 2 ^ 64)
  ghash (Aes.encrypt key 0) (p.length / 16) 0 p ^^^ Aes.encrypt key (iv * 2 ^ 32 + 1)

/-- A tag of R184: the first 64 bits. -/
def gmac (key : Key) (iv : Nat) (aad : List Byte) : List Byte := (beBytes 16 (gmac128 key iv aad)).take 8

/-! Key wrap of a 128-bit key (RFC 3394). -/

/-- One step of the wrap. -/
def wrapStep (kek : Key) (t : Nat) (p : Nat × Nat × Nat) : Nat × Nat × Nat :=
  let b := Aes.encrypt kek (p.1 * 2 ^ 64 + p.2.1)
  ((b / 2 ^ 64) ^^^ t, p.2.2, b % 2 ^ 64)

/-- The 24 bytes of a wrapped key. -/
def keyWrap (kek key : Key) : List Byte :=
  let p := (List.range 12).foldl (fun p i => wrapStep kek (i + 1) p)
    (0xA6A6A6A6A6A6A6A6, key.toNat / 2 ^ 64, key.toNat % 2 ^ 64)
  beBytes 8 p.1 ++ beBytes 8 p.2.1 ++ beBytes 8 p.2.2

/-- One step of the unwrap. -/
def unwrapStep (kek : Key) (t : Nat) (p : Nat × Nat × Nat) : Nat × Nat × Nat :=
  let b := Aes.decrypt kek ((p.1 ^^^ t) * 2 ^ 64 + p.2.2)
  (b / 2 ^ 64, b % 2 ^ 64, p.2.1)

/-- The key of 24 wrapped bytes, if its integrity check holds. -/
def keyUnwrap (kek : Key) (bs : List Byte) : Option Key :=
  let p := (List.range 12).foldl (fun p i => unwrapStep kek (12 - i) p)
    (ofBe (bs.take 8), ofBe ((bs.drop 8).take 8), ofBe ((bs.drop 16).take 8))
  if p.1 = 0xA6A6A6A6A6A6A6A6 then some (BitVec.ofNat 128 (p.2.1 * 2 ^ 64 + p.2.2)) else none

/-! P-256. -/

namespace P256

def p : Nat := 0xffffffff00000001000000000000000000000000ffffffffffffffffffffffff
def n : Nat := 0xffffffff00000000ffffffffffffffffbce6faada7179e84f3b9cac2fc632551
def b : Nat := 0x5ac635d8aa3a93e7b3ebbd55769886bc651d06b0cc53b0f63bce3c3e27d2604b
def gx : Nat := 0x6b17d1f2e12c4247f8bce6e563a440f277037d812deb33a0f4a13945d898c296
def gy : Nat := 0x4fe342e2fe1a7f9b8ee7eb4a7c0f9e162bce33576b315ececbb6406837bf51f5

/-- `a ^ e` modulo `m`, over the low 256 bits of the exponent, highest first. -/
def powMod (m a e : Nat) : Nat :=
  (List.range 256).foldl (fun r i => let r := r * r % m; if bitOf e (255 - i) then r * a % m else r) 1

/-- The inverse modulo a prime. -/
def invMod (m a : Nat) : Nat := powMod m a (m - 2)

/-- A point; `none` is the point at infinity. -/
abbrev Pt := Option (Nat × Nat)

def line (l x1 y1 x2 : Nat) : Pt :=
  let x3 := (l * l + 2 * p - x1 - x2) % p
  some (x3, (l * (x1 + p - x3) + p - y1) % p)

def add : Pt → Pt → Pt
  | none, q => q
  | q, none => q
  | some (x1, y1), some (x2, y2) =>
    if x1 = x2 then
      if (y1 + y2) % p = 0 then none
      else line ((3 * x1 * x1 + p - 3) * invMod p (2 * y1) % p) x1 y1 x2
    else line ((y2 + p - y1) * invMod p (x2 + p - x1) % p) x1 y1 x2

/-- `k` times a point, highest of 256 bits first. -/
def smul (k : Nat) (q : Pt) : Pt :=
  (List.range 256).foldl (fun r i => let r := add r r; if bitOf k (255 - i) then add r q else r) none

/-- Is the pair a point of the curve? -/
def onCurve (x y : Nat) : Bool := decide (x < p) && decide (y < p) && y * y % p == (x * x * x + (p - 3) * x + b) % p

end P256

/-- A public key: X then Y, 32 bytes each (R170). -/
def pubPoint (k : List Byte) : P256.Pt := some (ofBe (k.take 32), ofBe ((k.drop 32).take 32))

/-- The public key of a private scalar. -/
def pubOf (d : Nat) : List Byte :=
  match P256.smul d (some (P256.gx, P256.gy)) with
  | some (x, y) => beBytes 32 x ++ beBytes 32 y
  | none => List.replicate 64 0

/-- The shared x-coordinate of ECDH, if the peer's key is a point of the curve. -/
def ecdhX (d : Nat) (peer : List Byte) : Option (List Byte) :=
  if P256.onCurve (ofBe (peer.take 32)) (ofBe ((peer.drop 32).take 32)) then
    (P256.smul d (pubPoint peer)).map fun q => beBytes 32 q.1
  else none

/-- ECDSA verification of a signature r then s over a message (R177). -/
def ecdsaVerify (pub msg sig : List Byte) : Bool :=
  let r := ofBe (sig.take 32)
  let s := ofBe ((sig.drop 32).take 32)
  let z := ofBe (sha256 msg)
  if r = 0 ∨ P256.n ≤ r ∨ s = 0 ∨ P256.n ≤ s
      ∨ !P256.onCurve (ofBe (pub.take 32)) (ofBe ((pub.drop 32).take 32)) then false
  else
    let w := P256.invMod P256.n s
    match P256.add (P256.smul (z * w % P256.n) (some (P256.gx, P256.gy))) (P256.smul (r * w % P256.n) (pubPoint pub)) with
    | some (x, _) => x % P256.n == r
    | none => false

/-- An ECDSA signature r then s with the nonce `k`. -/
def ecdsaSign (d k : Nat) (msg : List Byte) : List Byte :=
  match P256.smul k (some (P256.gx, P256.gy)) with
  | some (x, _) =>
    let r := x % P256.n
    beBytes 32 r ++ beBytes 32 (P256.invMod P256.n k * (ofBe (sha256 msg) + r * d) % P256.n)
  | none => List.replicate 64 0

/-- The key identifier of a public key, R170. -/
def keyId (pub : List Byte) : DWord := BitVec.ofNat 64 (ofBe ((sha256 (pub.take 64)).take 8))

end Sys2Proof.Machine
end

