-- ==== Sys2Proof/Config.lean ====
section
/-! DEFINITION. What an implementation fixes and the values the spec leaves open: constants without a body, so that
nothing can be proved about the value they stand for. -/

namespace Sys2Proof.Config

/-- A value the spec does not state: one per index, so that each use has its own. -/
opaque freeNat : Nat → Nat

/-- The sine and the cosine of R447 and R451 as the part rounds them: the spec states no accuracy for them. -/
opaque sin64 : DWord → DWord
opaque cos64 : DWord → DWord

/-- The RTYPE of a BEACON record (R300). -/
opaque beaconType : Nat

/-- The key of device-bound records (R180), derived from the identity scalar and the active owner slot; the spec states no
derivation. -/
opaque recordKey : (scalar slot : Nat) → Nat

end Sys2Proof.Config
end

