-- ==== Sys2Proof/Machine/Regs.lean ====
section
/-! DEFINITION. Which pages a role holds (R63, R64) and what each register reads at reset. -/

namespace Sys2Proof.Machine

/-- Is the page an infrastructure page of R64? -/
def infra (pg : Nat) : Bool := decide (pg ≤ 0x0A) || pg == 0x0F || pg == 0x2F

/-- Is the page decoded, R63? -/
def decoded (pg : Nat) : Bool := decide (pg < 0x30)

/-- Does the page hold a block in the role, R64? -/
def present (r : Role) (pg : Nat) : Bool :=
  if pg ≤ 0x0B || pg == 0x0F || (0x10 ≤ pg && pg ≤ 0x17) || (0x29 ≤ pg && pg ≤ 0x2C) || pg == 0x2F then true
  else match r with
    | .cell => pg == 0x18 || pg == 0x19 || pg == 0x20 || pg == 0x21 || pg == 0x22 || pg == 0x26 || pg == 0x28
        || pg == 0x2D || pg == 0x2E
    | .hub => pg == 0x0C || pg == 0x0D || pg == 0x0E || (0x18 ≤ pg && pg ≤ 0x1C) || (0x20 ≤ pg && pg ≤ 0x28)
        || pg == 0x2D || pg == 0x2E
    | .referee => pg == 0x0C || pg == 0x0E
    | .fault | .none => false

/-- The role as a bit of `RegDesc.roles`: 1 cell, 2 hub, 4 referee. -/
def roleBit : Role → Nat
  | .cell => 1
  | .hub => 2
  | .referee => 4
  | .fault | .none => 0

/-- Does a part of the role hold a register of the roles `roles`? Registers of every role are there in role fault and before
ROLE has been read too. -/
def holdsRoles (r : Role) (roles : Nat) : Bool := roles == 7 || roles &&& roleBit r != 0

/-- PG_ID.CODE and INST of a page, R64. -/
def pageCode (pg : Nat) : Nat × Nat :=
  if 0x10 ≤ pg ∧ pg ≤ 0x17 then (0x5010, pg - 0x10)
  else if 0x18 ≤ pg ∧ pg ≤ 0x1B then (0x5018, pg - 0x18)
  else if 0x29 ≤ pg ∧ pg ≤ 0x2A then (0x5029, pg - 0x29)
  else (0x5000 + pg, 0)

/-- Is lane `n` moored by the role, R14? (A non-redundant hub moors L4 and L5 too: `State.moored`.) -/
def mooredByRole (r : Role) (n : Nat) : Bool :=
  match r with
  | .cell => decide (2 ≤ n)
  | .hub => false
  | .referee => decide (n < 6)
  | .fault | .none => true

/-- LANE_CFG.RATE at reset, R220: 6.25 Gbaud on L0 to L5, 1.25 Gbaud on L6 and L7. (R220 states L0 to L5 of a hub and
L0, L1 of a cell; the lanes a role moors take the same. DESIGN CHOICE, log 3.) -/
def laneRate (n : Nat) : Nat := if n ≥ 6 then 0 else 2

/-- LANE_CFG.BURST, R219: 1 on a tree port of a hub, whose receiver takes bursts. -/
def laneBurst (r : Role) (n : Nat) : Nat := if r = .hub ∧ n < 4 then 1 else 0

/-- The registers whose reset value depends on the role, and STN_MACH: 0x02 and the top byte of SYS_UID (R652), which reads
0 (DESIGN CHOICE, log 61). -/
def roleReset (r : Role) (addr : Nat) : Option Word :=
  if addr = R.SYS_NODE then some (if r = .cell then 0x80000000 else 0)
  else if addr = R.STN_MACH then some 0x0200
  else if addr = R.GPIO_LED then some (if r = .cell then 3 else 0)
  else if addr = R.GPIO_UCFG then some (if r = .cell then 0x10364 else 0)
  else if addr = R.CLK_SRC then some (if r = .cell then 0x100 else 0)
  else if addr = R.ADC_CTL then some (if r = .cell then 7 else 4)
  else if addr = R.ADC_SCAN then some (if r = .cell then 0xFF else 0xFC)
  else if 0x4000 ≤ addr ∧ addr < 0x6000 ∧ addr % 0x400 = 0x40 then
    let n := (addr - 0x4000) / 0x400
    some (BitVec.ofNat 32 (0x10 + laneRate n + laneBurst r n <<< 12))
  else none

/-- The reset value of the register at a byte address of the register space. -/
def resetWord (r : Role) (addr : Nat) : Word :=
  let pg := addr / 0x400
  let off := addr % 0x400
  if off < 0x40 then
    if off = 8 then BitVec.ofNat 32 (b2n (infra pg)) else 0
  else match roleReset r addr with
    | some w => w
    | none => match findReg pg off with
      | some d => if r = .none ∨ holdsRoles r d.roles then BitVec.ofNat 32 d.reset else 0
      | none => 0

/-- The registers a reset other than power-on keeps, R129: the cause record, BOOT_NEXT, ERR_CNT and ERR_OVF, the
lifetime counters and LT_CTL.LOCK. -/
def keptReg (addr : Nat) : Bool :=
  addr == R.SYS_RST_CAUSE || addr == R.BOOT_NEXT || addr == R.ERR_CNT || addr == R.ERR_OVF
    || (decide (R.LT_CNT_LO 0 0 ≤ addr) && decide (addr ≤ R.LT_CNT_HI 0 11)) || addr == R.LT_CTL 0

end Sys2Proof.Machine
end

