-- ==== Sys2Proof/Machine/Ops.lean ====
section
/-! DEFINITION. The named operations on the state that every meaning uses: registers and fields, active values of
shadows, events, memory, time as numbers, the error log, the non-maskable interrupt, free values. -/

namespace Sys2Proof.Machine

/-! Outcome codes of an access, R79. -/

def Code.ok : Nat := 0x00
def Code.pending : Nat := 0x01
def Code.busy : Nat := 0x02
def Code.unmapped : Nat := 0x10
def Code.absent : Nat := 0x11
def Code.size : Nat := 0x12
def Code.align : Nat := 0x13
def Code.boundary : Nat := 0x14
def Code.gated : Nat := 0x15
def Code.aborted : Nat := 0x16
def Code.guarded : Nat := 0x17
def Code.locked : Nat := 0x18
def Code.static : Nat := 0x19
def Code.poison : Nat := 0x1A
def Code.crc : Nat := 0x1B
def Code.remote : Nat := 0x1C

namespace State

/-! Registers and fields. -/

/-- The register at byte address `a`: the value written, and for read-only registers the present value. -/
def reg (s : State) (a : Nat) : Word := (kvFind s.regs a).getD (resetWord s.role a)

/-- `s` with the register at `a` holding `v`. -/
def setReg (s : State) (a : Nat) (v : Word) : State := { s with regs := kvSet s.regs a v }

/-- A field as a number. -/
def get (s : State) (f : Fld) : Nat := getBits (s.reg f.addr) f.lo f.w

/-- `s` with a field holding the low bits of `n`. -/
def set (s : State) (f : Fld) (n : Nat) : State := s.setReg f.addr (setBits (s.reg f.addr) f.lo f.w n)

/-- Is the field not 0? -/
def is (s : State) (f : Fld) : Bool := s.get f != 0

/-- The active word of a register with SH fields (R71). -/
def actReg (s : State) (a : Nat) : Word := (kvFind s.act a).getD (resetWord s.role a)

/-- The active value of an SH field. -/
def active (s : State) (f : Fld) : Nat := getBits (s.actReg f.addr) f.lo f.w

/-- A counter field raised by `k`, saturating. -/
def bump (s : State) (f : Fld) (k : Nat := 1) : State := s.set f (satAdd f.w (s.get f) k)

/-- A counter field raised by `k`, modulo its width. -/
def count (s : State) (f : Fld) (k : Nat := 1) : State := s.set f (s.get f + k)

/-- An event that the recorder of a hub has not yet evaluated (R631). -/
def occur (s : State) (pg bit : Nat) : State :=
  { s with recd := { s.recd with occ := kvSet s.recd.occ pg (kvGet 0 s.recd.occ pg ||| 1 <<< bit) } }

/-- An event of a page: its PG_EVT bit is set (R66). -/
def event (s : State) (pg bit : Nat) : State :=
  let s := if s.role = .hub then s.occur pg bit else s
  s.setReg (R.PG_EVT pg) (s.reg (R.PG_EVT pg) ||| BitVec.ofNat 32 (1 <<< bit))

/-- `s` changed by `f` when `c` holds. -/
def when (s : State) (c : Bool) (f : State → State) : State := if c then f s else s

/-! Roles and pages. -/

def isCell (s : State) : Bool := s.role == .cell
def isHub (s : State) : Bool := s.role == .hub
def isRef (s : State) : Bool := s.role == .referee

/-- Has ROLE been read, and is the part neither in reset nor in role fault? -/
def alive (s : State) : Bool := s.phase == .rom || s.phase == .recovery || s.phase == .running

/-- Is PG_CTRL.EN of the page 1, and the page present in the role? -/
def enabled (s : State) (pg : Nat) : Bool := present s.role pg && s.is (F.PG_CTRL_EN pg)

/-- Does the block of the page run: not held at its work boundary and, but for an infrastructure page, enabled (R68,
R70)? -/
def runs (s : State) (pg : Nat) : Bool :=
  present s.role pg && !s.is (F.PG_STAT_HELD pg)
    && (infra pg || (s.is (F.PG_CTRL_EN pg) && s.is (F.PG_STAT_RUN pg)))

/-- Is lane `n` moored by the role under R14: by the table, and L4 and L5 of a non-redundant hub? L1 of a non-redundant
installation is moored by its hub through LANE_PWR (R217). -/
def moored (s : State) (n : Nat) : Bool :=
  mooredByRole s.role n || (s.role == .hub && !s.is F.SYS_TOPO_TWIN && (n == 4 || n == 5))

/-! Free values: one per use, told apart by the counter (Config.lean). -/

/-- The next free number and the state with the counter advanced. -/
def free (s : State) : Nat × State := (Config.freeNat s.freeCtr, { s with freeCtr := s.freeCtr + 1 })

/-! Memory by supervisor address (R152). -/

/-- What a byte that nothing has written reads: erased flash reads 0xFF (PRESUMED, log 4); every other memory 0, which
is what the boot ROM clears it to and what unprogrammed OTP reads (R129, R168). -/
def blankByte (a : Nat) : Byte := if 0x60000000 ≤ a ∧ a < 0x61000000 then 0xFF else 0

/-- The byte at address `a`. -/
def byte (s : State) (a : Nat) : Byte := (kvFind s.mem a).getD (blankByte a)

/-- `s` with the byte at `a` being `b`, the list of cells in its canonical form. -/
def setByte (s : State) (a : Nat) (b : Byte) : State :=
  { s with mem := if b = blankByte a then kvErase s.mem a else kvSet s.mem a b }

/-- `n` bytes from address `a` up. -/
def bytes (s : State) (a : Nat) : (n : Nat) → List Byte
  | 0 => []
  | n + 1 => s.byte a :: s.bytes (a + 1) n

/-- `s` with bytes stored from address `a` up. -/
def setBytes (s : State) (a : Nat) : List Byte → State
  | [] => s
  | b :: bs => (s.setByte a b).setBytes (a + 1) bs

/-- The little-endian number of `n` bytes at `a`. -/
def num (s : State) (a n : Nat) : Nat := ofLe (s.bytes a n)

/-- `s` with the `n`-byte little-endian number `v` at `a`. -/
def setNum (s : State) (a n v : Nat) : State := s.setBytes a (leBytes n v)

/-! Time (R221): `s.now` counts units of 2^-32 ns of network time. -/

/-- Units of network time in a nanosecond. -/
def unitsPerNs : Nat := 2 ^ 32

/-- Units of network time in a second. -/
def unitsPerSec : Nat := 1000000000 * 2 ^ 32

/-- Units of network time in 1/64 ns. -/
def unitsPer64 : Nat := 2 ^ 26

/-- Units of network time in a millisecond. -/
def unitsPerMs : Nat := 1000000 * 2 ^ 32

/-- What is left of a timer that ends at `e` units of passed time, in steps of `unit`, a step begun counting whole (DESIGN
CHOICE, log 83). -/
def timerLeft (s : State) (e unit : Nat) : Nat := (e - s.elapsed + unit - 1) / unit

/-- Does a debug halt pause the watchdog (R155)? -/
def wdtPaused (s : State) : Bool := s.sup.halted && s.is F.CPU_WDT_CTL_DBGSTOP

/-- Seconds of the present time. -/
def seconds (s : State) : Nat := s.now / unitsPerSec

/-- Nanoseconds within the second. -/
def nanos (s : State) : Nat := s.now % unitsPerSec / unitsPerNs

/-! The non-maskable interrupt, R154. Causes are numbered as the bits of CPU_NMI.CAUSE: 0 clock failure,
1 UNCORRECTABLE, 2 SAFETY, 3 watchdog. -/

/-- Entry to level `l` for `cause`: pc, mstatus and mcause are saved and pc goes to CPU_NMIVEC. -/
def nmiEnter (s : State) (l cause : Nat) : State :=
  let s := s.setReg (R.CPU_NMIEPC l) s.sup.pc
  let s := s.setReg (R.CPU_NMIST l) s.sup.mstatus
  let s := s.setReg (R.CPU_NMICAUSE l) s.sup.mcause
  let s := s.set F.CPU_NMI_LEVEL (l + 1)
  { s with sup := { s.sup with pc := s.reg R.CPU_NMIVEC, nmiCause := cause :: s.sup.nmiCause } }

/-- A cause arrives: it sets its CAUSE bit and enters, or waits in PEND. A SAFETY cause enters level 1 while level 0
handles another cause; every other cause that arrives during a handler waits. -/
def nmi (s : State) (cause : Nat) : State :=
  let s := s.set F.CPU_NMI_CAUSE (s.get F.CPU_NMI_CAUSE ||| 1 <<< cause)
  if s.get F.CPU_NMI_LEVEL = 0 then s.nmiEnter 0 cause
  else if s.get F.CPU_NMI_LEVEL = 1 ∧ cause = 2 ∧ s.sup.nmiCause.head? ≠ some 2 then s.nmiEnter 1 cause
  else s.set F.CPU_NMI_PEND (s.get F.CPU_NMI_PEND ||| 1 <<< cause)

/-! The black box of a cell, R637 to R639, and the health causes of a hub, R552. -/

/-- The number of the last meridian. -/
def cycle (s : State) : Nat := s.time.lastK.getD 0

/-- Word 1 of a black-box entry: seconds [1:0] and nanoseconds. -/
def stamp (s : State) : Nat := (s.seconds % 4) <<< 30 ||| s.nanos

/-- One black-box entry, if the page is enabled and the box is not frozen. `detail` are its words 2 to 7. -/
def bbWrite (s : State) (type sub : Nat) (detail : List Nat) : State :=
  if s.isCell && s.enabled Pg.REC && !s.is F.REC_BBSTAT_FROZEN then
    let seq := s.get F.REC_BBSTAT_NEXT
    let w0 := type % 256 + (sub % 256) <<< 8 + seq <<< 16
    let words := w0 :: s.stamp :: (detail ++ List.replicate 6 0).take 6
    let s := s.setBytes (0x30000000 + 32 * (s.bb.idx % 8192)) (words.flatMap (leBytes 4))
    let s := s.count F.REC_BBSTAT_NEXT
    let s := { s with bb := { s.bb with idx := (s.bb.idx + 1) % 8192 } }
    match s.bb.post with
    | some (n + 1) =>
      if n = 0 then
        let s := (s.set F.REC_BBSTAT_FROZEN 1).set F.REC_BBSTAT_WHY s.bb.cause
        { s.event Pg.REC 15 with bb := { s.bb with post := none } }
      else { s with bb := { s.bb with post := some n } }
    | _ => s
  else s

/-- A cause of freezing (R638): `why` 1 to 5 selected by bit `why - 1` of FRZSEL; POSTN further entries follow. -/
def bbFreeze (s : State) (why : Nat) : State :=
  if s.isCell && s.enabled Pg.REC && !s.is F.REC_BBSTAT_FROZEN && s.bb.post.isNone
      && bitOf (s.get F.REC_BB_FRZSEL) (why - 1) then
    let n := min 8191 (s.get F.REC_BB_POSTN)
    if n = 0 then ((s.set F.REC_BBSTAT_FROZEN 1).set F.REC_BBSTAT_WHY why).event Pg.REC 15
    else { s with bb := { s.bb with post := some n, cause := why } }
  else s

/-- A health failure cause of a hub, R552: 0 DL_LIMIT, 1 TCLK failover, 2 UNCORRECTABLE, 3 watchdog. -/
def health (s : State) (c : Nat) : State :=
  s.when s.isHub fun s => s.set F.REF_HFAIL_HW (s.get F.REF_HFAIL_HW ||| 1 <<< c)

/-- A lifetime counter (R644) raised by `n`, saturating at 2^48 - 1. -/
def ltAdd (s : State) (i n : Nat) : State :=
  let v := min (2 ^ 48 - 1) ((s.reg (R.LT_CNT_LO 0 i)).toNat + 2 ^ 32 * s.get (F.LT_CNT_HI_CNT 0 i) + n)
  (s.setReg (R.LT_CNT_LO 0 i) (BitVec.ofNat 32 v)).set (F.LT_CNT_HI_CNT 0 i) (v / 2 ^ 32)

/-! The error log, R610 to R613. Classes: 0 INFO, 1 CORRECTED, 2 UNCORRECTABLE, 3 SAFETY. -/

/-- ERR_CNT of a class. -/
def errCnt (cls : Nat) : Fld := ⟨R.ERR_CNT, 8 * cls, 8⟩

/-- ERR_OVF of a class. -/
def errOvf (cls : Nat) : Fld := ⟨R.ERR_OVF, 8 * cls, 8⟩

/-- A loss of an entry of class `cls`: ERR_OVF counts it and OVERFLOW is raised. -/
def errLose (s : State) (cls : Nat) : State := (s.bump (errOvf cls)).event Pg.ERR 10

/-- The lowest class present in a list of entries. -/
def lowestClass (l : List ErrEntry) : Nat := l.foldl (fun m e => min m e.cls) 3

/-- Is the arrival `e` a repeat of the newest entry `n`? -/
def sameError (n e : ErrEntry) : Bool := n.cls == e.cls && n.src == e.src && n.req == e.req && n.addr == e.addr

/-- The arrival `e` is stored, repeated or dropped, R612. -/
def errStore (s : State) (e : ErrEntry) : State :=
  let log := s.err.log
  match log.getLast? with
  | some n =>
    if sameError n e then
      { s with err := { s.err with log := log.dropLast ++ [{ n with repeats := min 255 (n.repeats + 1) }] } }
    else if log.length < 32 then { s with err := { s.err with log := log ++ [e] } }
    else if lowestClass log < e.cls then
      let s := s.errLose (lowestClass log)
      { s with err := { s.err with log := removeFirst (fun x => x.cls == lowestClass log) log ++ [e] } }
    else s.errLose e.cls
  | none => { s with err := { s.err with log := [e] } }

/-- The class being handled, HCLS, as one more than the class; 0 for none. -/
def handled (s : State) : Nat := (s.err.stack.head?.map (· + 1)).getD 0

/-- A class is signalled and pushed, R613. `own` is the NMI cause of sources 0x06 and 0x07. -/
def errSignal (s : State) (cls : Nat) (own : Option Nat) : State :=
  let s := match own with
    | some c => s.nmi c
    | none => if cls < 2 then s.event Pg.ERR (8 + cls) else s.nmi (cls - 1)
  { s with err := { s.err with stack := cls :: s.err.stack, pendNew := s.err.pendNew.filter (· != cls) } }

/-- PEND of a class is set. -/
def errPend (s : State) (cls : Nat) : State :=
  let add (l : List Nat) : List Nat := if l.contains cls then l else cls :: l
  { s with err := { s.err with pend := add s.err.pend, pendNew := add s.err.pendNew } }

/-- An arrival is handled, R613. The causes that raise a non-maskable interrupt of their own raise it in any case (R113,
R154, R155): during a handler it waits in CPU_NMI.PEND. -/
def errHandle (s : State) (cls : Nat) (own : Option Nat) : State :=
  if cls < 2 ∧ !bitOf (s.reg (R.PG_EVT_EN Pg.ERR)).toNat (8 + cls) then s.errPend cls
  else if s.handled < cls + 1 then s.errSignal cls own
  else
    let s := (s.errPend cls).bump F.ERR_STAT_DEFER
    match own with
    | some c => s.nmi c
    | none => s

/-- An error arrives, R612 and R613. -/
def errArrive (s : State) (cls src req : Nat) (addr : Nat) : State :=
  let s := s.bump (errCnt cls)
  let s := s.errStore ⟨cls, src, req, 0, BitVec.ofNat 32 addr, s.nanos, s.seconds % 2 ^ 32⟩
  let s := s.when (cls == 2) fun s => ((s.health 2).bbWrite 0x28 src [s.cycle, addr]).bbFreeze 5
  let s := s.when (cls == 2 && src < 6 && s.isCell) fun s =>
    { s with gate := { s.gate with flags := s.gate.flags ||| 1 <<< 14 } }
  s.errHandle cls (if src = 6 then some 0 else if src = 7 then some 3 else none)

end State

end Sys2Proof.Machine
end

