-- ==== Sys2Proof/Machine/Keys.lean ====
section
/-! DEFINITION. Keys and identities: OTP records, owner slots, hub anchors, the peer table, the authenticated exchange
(R168 to R183), the IV of tags (R184). -/

namespace Sys2Proof.Machine

/-- The IV of R184 and R538: type, hub number, side, port, berth, and a 48-bit cycle or sequence number. -/
def tagIv (type hub side port berth n : Nat) : Nat :=
  type <<< 88 + hub <<< 82 + side <<< 81 + port <<< 78 + berth <<< 70 + n % 2 ^ 48

/-- The eight bytes of an identifier, byte 0 first. -/
def idBytes (i : DWord) : List Byte := beBytes 8 i.toNat

/-- The identifier of eight bytes. -/
def idOfBytes (bs : List Byte) : DWord := BitVec.ofNat 64 (ofBe (bs.take 8))

/-- The register words of an identifier: bytes 0 to 3 and 4 to 7, the first byte in bits [7:0]. -/
def idLo (i : DWord) : Word := BitVec.ofNat 32 (ofLe ((idBytes i).take 4))
def idHi (i : DWord) : Word := BitVec.ofNat 32 (ofLe ((idBytes i).drop 4))

/-- The identifier of two register words. -/
def idOfWords (lo hi : Word) : DWord := idOfBytes (leBytes 4 lo.toNat ++ leBytes 4 hi.toNat)

/-- A message with a label of R182 in ASCII. -/
def ascii (t : String) : List Byte := t.toList.map fun c => BitVec.ofNat 8 c.toNat

/-- The order of the curve bounds a private scalar drawn from `v`. -/
def scalarOf (v : Nat) : Nat := v % (P256.n - 1) + 1

/-- The string of a key exchange, R313: ephemeral public key, identity public key, signature. -/
def kxString (eph pub sig : List Byte) : List Byte := eph ++ pub ++ sig

/-- The three parts of that string. -/
def kxEph (bs : List Byte) : List Byte := bs.take 64
def kxPub (bs : List Byte) : List Byte := (bs.drop 64).take 64
def kxSig (bs : List Byte) : List Byte := (bs.drop 128).take 64

/-- A key of an exchange, R182: from the shared coordinate `x`, both ephemeral keys and both identifiers. -/
def kxKey (label : String) (x eInit eResp : List Byte) (idInit idResp : DWord) : Key :=
  hkdf16 (sha256 (eInit ++ eResp)) x (ascii label ++ idBytes idInit ++ idBytes idResp)

namespace State

/-! OTP, R168. -/

def otpBase : Nat := 0x50000000

/-- Does the word at OTP offset `o` hold the valid marker? -/
def marked (s : State) (o : Nat) : Bool := s.num (otpBase + o) 4 == 0xA5A55A5A

/-- Is any bit of `n` bytes at OTP offset `o` programmed? -/
def programmed (s : State) (o n : Nat) : Bool := (s.bytes (otpBase + o) n).any (· != 0)

/-- The OTP offset of the valid identity record, if there is one. -/
def idRecord (s : State) : Option Nat :=
  if s.marked 0x160 then some 0x100 else if s.marked 0x1E0 then some 0x180 else none

/-- The identity private scalar and public key; 0 and zeros where the part has none. -/
def idScalar (s : State) : Nat :=
  match s.idRecord with | some o => ofBe (s.bytes (otpBase + o) 32) | none => 0
def idPub (s : State) : List Byte :=
  match s.idRecord with | some o => s.bytes (otpBase + o + 32) 64 | none => List.replicate 64 0

/-- The device key identifier (R170), 0 without an identity. -/
def devId (s : State) : DWord := if s.idRecord.isSome then keyId s.idPub else 0

/-- The states of owner slot `i`, R172. -/
def ownerRevoked (s : State) (i : Nat) : Bool := s.programmed (0x200 + 64 * i + 36) 4
def ownerWritten (s : State) (i : Nat) : Bool := s.marked (0x200 + 64 * i + 32)
def ownerUnused (s : State) (i : Nat) : Bool := !s.programmed (0x200 + 64 * i) 40

/-- The active owner slot. -/
def activeSlot (s : State) : Option Nat := firstIdx 8 fun i => s.ownerWritten i && !s.ownerRevoked i

/-- The lowest unused owner slot. -/
def unusedSlot (s : State) : Option Nat := firstIdx 8 s.ownerUnused

/-- The owner hash of slot `i`. -/
def ownerHash (s : State) (i : Nat) : List Byte := s.bytes (otpBase + 0x200 + 64 * i) 32

/-- Bits are programmed from OTP offset `o` up: OTP bits only rise. -/
def program (s : State) (o : Nat) (bs : List Byte) : State :=
  bs.zipIdx.foldl (fun t x => t.setByte (otpBase + o + x.2) (t.byte (otpBase + o + x.2) ||| x.1)) s

/-- The valid marker. -/
def marker : List Byte := leBytes 4 0xA5A55A5A

/-- The hash of a first owner goes to the lowest unused slot, its marker last (R173). -/
def programOwner (s : State) (hash : List Byte) : State :=
  match s.unusedSlot with
  | some i => (s.program (0x200 + 64 * i) hash).program (0x200 + 64 * i + 32) marker
  | none => s

/-- The active owner slot is revoked. -/
def revokeOwner (s : State) : State :=
  match s.activeSlot with
  | some i => s.program (0x200 + 64 * i + 36) (leBytes 4 0xFFFFFFFF)
  | none => s

/-- The two copies of the anti-rollback counter: the greater bit count (R168). -/
def antiRollback (s : State) : Nat :=
  max (popCount 64 (s.num (otpBase + 0x400) 8)) (popCount 64 (s.num (otpBase + 0x408) 8))

/-! Anchors, R179. -/

/-- Does an anchor hold the identifier, tagged with the active owner slot? -/
def anchored (s : State) (i : DWord) : Bool :=
  (List.range 32).any fun a =>
    let o := otpBase + 0x600 + 16 * a
    s.num (o + 12) 4 == 0xA5A55A5A && idOfBytes (s.bytes o 8) == i && s.activeSlot == some (s.byte (o + 8)).toNat

/-- The owner slot that tags a new anchor (R179): the active one; an unowned cell takes the one that it will adopt (DEDUCED,
log 122). -/
def anchorSlot (s : State) : Option Nat := match s.activeSlot with
  | some i => some i
  | none => s.unusedSlot

/-- Has an anchor with the present tag this identifier? -/
def hasAnchor (s : State) (i : DWord) : Bool :=
  (List.range 32).any fun a =>
    let o := 0x600 + 16 * a
    s.marked (o + 12) && idOfBytes (s.bytes (otpBase + o) 8) == i && s.anchorSlot == some (s.byte (otpBase + o + 8)).toNat

/-- The next free anchor. -/
def freeAnchor (s : State) : Option Nat := firstIdx 32 fun a => !s.programmed (0x600 + 16 * a) 16

/-- An identifier is recorded in the next free anchor; ANCHOR_FULL where there is none. An identifier that an anchor holds
is skipped (R312). -/
def addAnchor (s : State) (i : DWord) : State :=
  if s.hasAnchor i ∨ i = 0 then s
  else match s.freeAnchor with
    | some a => (s.program (0x600 + 16 * a) (idBytes i ++ [BitVec.ofNat 8 (s.anchorSlot.getD 0)])).program (0x600 + 16 * a + 12) marker
    | none => s.event Pg.SEC 17

/-! The peer table, R178: 1 station controller, 2 referee, 3 twin hub. -/

/-- Entry `i` of the peer table: identifier and type. -/
def peer (s : State) (i : Nat) : DWord × Nat :=
  (idOfWords (s.reg (R.SEC_PEER_LO i)) (s.reg (R.SEC_PEER_HI i)), s.get (F.SEC_PEER_CTL_TYPE i))

/-- Does the identifier stand in an entry of a type? -/
def isPeer (s : State) (id : DWord) (type : Nat) : Bool :=
  (List.range 32).any fun i => (s.peer i).2 == type && (s.peer i).1 == id

/-- The identifier of the first entry of a type; 0 where there is none. -/
def peerOf (s : State) (type : Nat) : DWord :=
  match firstIdx 32 fun i => (s.peer i).2 == type with
  | some i => (s.peer i).1
  | none => 0

/-- The twin's key identifier; 0 on a non-redundant hub (R300). -/
def twinId (s : State) : DWord := if s.is F.SYS_TOPO_TWIN then s.peerOf 3 else 0

/-- An exchange with a peer that is not in the table is counted. -/
def peerRefused (s : State) : State := s.bump F.SEC_KEYSTAT_PEERREF

/-! The exchange, R182. The initiator signs its own ephemeral key, which alone it knows when it sends; the responder signs
both (DEDUCED, log 12). -/

/-- A fresh private scalar. -/
def drawScalar (s : State) : Nat × State :=
  let (v, s) := s.free
  (scalarOf v, s)

/-- Our string of an exchange with private scalar `d` over the signed message. -/
def kxOwn (s : State) (d : Nat) (signed : List Byte) : List Byte × State :=
  let (k, s) := s.drawScalar
  (kxString (pubOf d) s.idPub (ecdsaSign s.idScalar k signed), s)

/-- Is the peer's string sound: signature over the ephemeral keys by the identity it names? -/
def kxSound (str signed : List Byte) : Bool :=
  decide (str.length = 192) && P256.onCurve (ofBe ((kxEph str).take 32)) (ofBe ((kxEph str).drop 32))
    && ecdsaVerify (kxPub str) signed (kxSig str)

end State

end Sys2Proof.Machine
end

