-- ==== Sys2Proof/Machine/Float.lean ====
section
/-! DEFINITION. IEEE 754 arithmetic of binary64 and binary32 as R390 requires it: every operation rounded to nearest even
on its own, subnormal numbers kept. A value is decoded to sign, integer and exponent, the operation is computed exactly
and rounded once. -/

namespace Sys2Proof.Machine

/-- A floating value: not a number, an infinity, or (-1)^neg * m * 2^e. -/
inductive Fv where
  | nan
  | inf (neg : Bool)
  | fin (neg : Bool) (m : Nat) (e : Int)
  deriving DecidableEq, Repr

/-- A format: exponent width and fraction width. -/
structure Fmt where
  ew : Nat
  mw : Nat
  deriving DecidableEq, Repr

namespace Fmt

def f64 : Fmt := ⟨11, 52⟩
def f32 : Fmt := ⟨8, 23⟩

def bias (f : Fmt) : Nat := 2 ^ (f.ew - 1) - 1

/-- The least exponent of an integer significand. -/
def emin (f : Fmt) : Int := 1 - (f.bias : Int) - f.mw

/-- The value of a code. -/
def unpack (f : Fmt) (n : Nat) : Fv :=
  let m := n % 2 ^ f.mw
  let e := n / 2 ^ f.mw % 2 ^ f.ew
  let s := n / 2 ^ (f.mw + f.ew) % 2 == 1
  if e = 2 ^ f.ew - 1 then if m = 0 then .inf s else .nan
  else if e = 0 then .fin s m f.emin
  else .fin s (m + 2 ^ f.mw) ((e : Int) - f.bias - f.mw)

/-- The code with a sign. -/
def signed (f : Fmt) (neg : Bool) (n : Nat) : Nat := n + b2n neg * 2 ^ (f.mw + f.ew)

def infCode (f : Fmt) (neg : Bool) : Nat := f.signed neg ((2 ^ f.ew - 1) * 2 ^ f.mw)
def nanCode (f : Fmt) : Nat := (2 ^ f.ew - 1) * 2 ^ f.mw + 2 ^ (f.mw - 1)

/-- (-1)^neg * m * 2^e rounded to nearest even; `sticky` tells that the exact value lies above, by less than 2^e. -/
def pack (f : Fmt) (neg : Bool) (m : Nat) (e : Int) (sticky : Bool) : Nat :=
  if m = 0 then f.signed neg 0
  else
    let et := max (e + (Nat.log2 m : Int) - f.mw) f.emin
    let q :=
      if et ≤ e then m <<< (e - et).toNat
      else
        let sh := (et - e).toNat
        let q := m >>> sh
        let r := m % 2 ^ sh
        let half := 2 ^ (sh - 1)
        if half < r ∨ (r = half ∧ (sticky ∨ q % 2 = 1)) then q + 1 else q
    let code := (et - f.emin).toNat * 2 ^ f.mw + q
    if (2 ^ f.ew - 1) * 2 ^ f.mw ≤ code then f.infCode neg else f.signed neg code

/-- The code of a value, rounded. -/
def ofFv (f : Fmt) : Fv → Nat
  | .nan => f.nanCode
  | .inf s => f.infCode s
  | .fin s m e => f.pack s m e false

end Fmt

namespace Fv

def neg : Fv → Fv
  | .nan => .nan
  | .inf s => .inf (!s)
  | .fin s m e => .fin (!s) m e

/-- The significand with its sign, at the lower exponent `e0`. -/
def scaled (s : Bool) (m : Nat) (e e0 : Int) : Int :=
  let v : Int := m * 2 ^ (e - e0).toNat
  if s then -v else v

/-- The exact sum. -/
def add : Fv → Fv → Fv
  | .nan, _ => .nan
  | _, .nan => .nan
  | .inf a, .inf b => if a = b then .inf a else .nan
  | .inf a, .fin .. => .inf a
  | .fin .., .inf b => .inf b
  | .fin s m e, .fin t n g =>
    let e0 := min e g
    let v := scaled s m e e0 + scaled t n g e0
    if v = 0 then .fin (s && t) 0 e0 else .fin (decide (v < 0)) v.natAbs e0

/-- The exact product. -/
def mul : Fv → Fv → Fv
  | .nan, _ => .nan
  | _, .nan => .nan
  | .inf a, .inf b => .inf (a != b)
  | .inf a, .fin t n _ => if n = 0 then .nan else .inf (a != t)
  | .fin s m _, .inf b => if m = 0 then .nan else .inf (s != b)
  | .fin s m e, .fin t n g => .fin (s != t) (m * n) (e + g)

/-- Comparison of values that are numbers: is the first less than the second? -/
def lt : Fv → Fv → Bool
  | .nan, _ => false
  | _, .nan => false
  | .inf a, .inf b => a && !b
  | .inf a, .fin .. => a
  | .fin .., .inf b => !b
  | .fin s m e, .fin t n g => decide (scaled s m e (min e g) < scaled t n g (min e g))

def le (a b : Fv) : Bool := match a, b with
  | .nan, _ => false
  | _, .nan => false
  | a, b => !lt b a

def finite : Fv → Bool
  | .fin .. => true
  | _ => false

/-- The greatest integer not above a finite value; 0 of any other. -/
def floor : Fv → Int
  | .fin s m e =>
    if 0 ≤ e then scaled s m e 0
    else
      let d : Int := 2 ^ (-e).toNat
      (if s then -(m : Int) else m) / d
  | _ => 0

/-- The nearest integer, halves away from zero. -/
def roundAway : Fv → Int
  | .fin s m e =>
    let n : Nat := if 0 ≤ e then m * 2 ^ e.toNat else (2 * m + 2 ^ (-e).toNat) / 2 ^ ((-e).toNat + 1)
    if s then -(n : Int) else n
  | _ => 0

end Fv

/-- The value of a binary64 code. -/
def dVal (x : DWord) : Fv := Fmt.f64.unpack x.toNat

/-- The value of a binary32 code. -/
def sVal (x : Word) : Fv := Fmt.f32.unpack x.toNat

/-- A value rounded to binary64. -/
def dOf (v : Fv) : DWord := BitVec.ofNat 64 (Fmt.f64.ofFv v)

/-- A value rounded to binary32. -/
def sOf (v : Fv) : Word := BitVec.ofNat 32 (Fmt.f32.ofFv v)

def dAdd (a b : DWord) : DWord := dOf (Fv.add (dVal a) (dVal b))
def dSub (a b : DWord) : DWord := dOf (Fv.add (dVal a) (dVal b).neg)
def dMul (a b : DWord) : DWord := dOf (Fv.mul (dVal a) (dVal b))
def dNeg (a : DWord) : DWord := dOf (dVal a).neg

/-- The quotient, rounded once. -/
def dDiv (a b : DWord) : DWord :=
  match dVal a, dVal b with
  | .nan, _ => dOf .nan
  | _, .nan => dOf .nan
  | .inf _, .inf _ => dOf .nan
  | .inf s, .fin t _ _ => dOf (.inf (s != t))
  | .fin s _ _, .inf t => dOf (.fin (s != t) 0 0)
  | .fin s m e, .fin t n g =>
    if n = 0 then if m = 0 then dOf .nan else dOf (.inf (s != t))
    else
      let q := (m <<< 128) / n
      BitVec.ofNat 64 (Fmt.f64.pack (s != t) q (e - g - 128) ((m <<< 128) % n != 0))

/-- The integer square root of `n` below 2^k, bit by bit from the top. -/
def isqrt (k n : Nat) : Nat :=
  (List.range k).foldl (fun r i => let t := r + 2 ^ (k - 1 - i); if t * t ≤ n then t else r) 0

/-- The square root, rounded once; of a negative number not a number. -/
def dSqrt (a : DWord) : DWord :=
  match dVal a with
  | .nan => dOf .nan
  | .inf s => if s then dOf .nan else dOf (.inf false)
  | .fin s m e =>
    if m = 0 then a else if s then dOf .nan
    else
      let n := if e % 2 = 0 then m <<< 128 else m <<< 129
      let g := if e % 2 = 0 then e - 128 else e - 129
      let r := isqrt 96 n
      BitVec.ofNat 64 (Fmt.f64.pack false r (g / 2) (r * r != n))

def dLt (a b : DWord) : Bool := Fv.lt (dVal a) (dVal b)
def dLe (a b : DWord) : Bool := Fv.le (dVal a) (dVal b)
def dAbs (a : DWord) : DWord := match dVal a with
  | .fin _ m e => dOf (.fin false m e)
  | .inf _ => dOf (.inf false)
  | .nan => a
def dFinite (a : DWord) : Bool := (dVal a).finite
def sFinite (a : Word) : Bool := (sVal a).finite

/-- An integer, rounded. -/
def dInt (i : Int) : DWord := dOf (.fin (decide (i < 0)) i.natAbs 0)

/-- An integer times a power of two, rounded. -/
def dScaled (i : Int) (e : Int) : DWord := dOf (.fin (decide (i < 0)) i.natAbs e)

/-- The quotient of two integers, rounded once. -/
def dRat (a : Int) (b : Nat) : DWord :=
  if b = 0 then dOf .nan
  else BitVec.ofNat 64 (Fmt.f64.pack (decide (a < 0)) ((a.natAbs <<< 128) / b) (-128) ((a.natAbs <<< 128) % b != 0))

/-- binary32 to binary64, exact. -/
def sToD (x : Word) : DWord := dOf (sVal x)

/-- binary64 to binary32, to nearest even. -/
def dToS (x : DWord) : Word := sOf (dVal x)

/-- binary64 to binary32 with a finite result beyond the range at the largest finite number (R393); tells whether that
happened. -/
def dToSClamp (x : DWord) : Word × Bool :=
  let w := dToS x
  if dFinite x && !sFinite w then (if x.toNat < 2 ^ 63 then 0x7F7FFFFF else 0xFF7FFFFF, true) else (w, false)

/-- Operations in binary32. -/
def sAdd (a b : Word) : Word := sOf (Fv.add (sVal a) (sVal b))
def sSub (a b : Word) : Word := sOf (Fv.add (sVal a) (sVal b).neg)
def sMul (a b : Word) : Word := sOf (Fv.mul (sVal a) (sVal b))
def sLt (a b : Word) : Bool := Fv.lt (sVal a) (sVal b)
def sLe (a b : Word) : Bool := Fv.le (sVal a) (sVal b)

/-- 1.0 in binary32. -/
def sOne : Word := 0x3F800000

end Sys2Proof.Machine
end

