-- ==== Sys2Proof/Machine/Monitor.lean ====
section
/-! DEFINITION. The monitor units and the lifetime counters (R640 to R645). Unit j of MONA is unit j, unit j of MONB is
unit 32 + j. -/

namespace Sys2Proof.Machine

namespace State

/-- Floor of the logarithm to base 2 of a number, 0 for 0. -/
def log2 : (fuel n : Nat) → Nat
  | 0, _ => 0
  | k + 1, n => if n ≤ 1 then 0 else log2 k (n / 2) + 1

/-- The bin of a sample, R641. -/
def monBin (v org : Int) (w : Nat) (lg : Bool) : Nat :=
  let d := v - org
  if lg then if d < 2 ^ w then 0 else min 31 (log2 64 d.toNat - w + 1)
  else (max 0 (min 31 (d / 2 ^ w))).toNat

/-- A sample taken by a unit, R640. -/
def monTake (u : MonUnit) (v org : Int) (w : Nat) (lg : Bool) : MonUnit :=
  let b := monBin v org w lg
  { mn := min u.mn v, mx := max u.mx v,
    sum := max (-(2 ^ 63)) (min (2 ^ 63 - 1) (u.sum + v)),
    count := satAdd 32 u.count 1,
    bins := kvSet u.bins b (satAdd 32 (kvGet 0 u.bins b) 1) }

/-- Unit `j` samples source `src`; `f` gives the sample of a SEL, or none. -/
def monUnit (s : State) (src : Nat) (f : Nat → Option Int) (j : Nat) : State :=
  let p := j / 32
  let i := j % 32
  if s.runs (Pg.MON p) && s.is (F.MON_CFG_EN p i) && s.get (F.MON_CFG_SRC p i) == src then
    match f (s.get (F.MON_CFG_SEL p i)) with
    | some v =>
      let u := monTake (kvGet {} s.mon j) v (signed 32 (s.get (F.MON_ORG_ORG p i)))
        (s.get (F.MON_CFG_WSH p i)) (s.is (F.MON_CFG_LOG p i))
      { s with mon := kvSet s.mon j u }
    | none => s
  else s

/-- A sample instant of source `src`, R642: `f` gives the sample of a SEL, or none where that SEL has none. -/
def monitor (s : State) (src : Nat) (f : Nat → Option Int) : State :=
  forUpTo (fun j t => t.monUnit src f j) 64 s

/-- A sample instant of a source with the SEL `sel`. -/
def monitorSel (s : State) (src sel : Nat) (v : Int) : State :=
  s.monitor src fun x => if x = sel then some v else none

/-- A write to MON_CFGj or MON_ORGj clears unit j (R640). -/
def monClear (s : State) (j : Nat) : State := { s with mon := kvErase s.mon j }

/-- MON_SNAP with GO = 1 on page MON `p` (R643). -/
def monSnap (s : State) (p i : Nat) (clr : Bool) : State :=
  let u := kvGet {} s.mon (32 * p + i)
  let put (s : State) (a : Nat) (v : Int) : State := s.setReg a (BitVec.ofNat 32 (unsigned 32 v))
  let sum := unsigned 64 u.sum
  let s := put (put s (R.MON_SMIN p) u.mn) (R.MON_SMAX p) u.mx
  let s := put (put (put s (R.MON_SCNT p) u.count) (R.MON_SSUM_LO p) sum) (R.MON_SSUM_HI p) (sum / 2 ^ 32 : Nat)
  let s := forUpTo (fun b t => put t (R.MON_SBIN p b) (kvGet 0 u.bins b : Nat)) 32 s
  let s := (s.set (F.MON_SINFO_UNIT p) i).set (F.MON_SINFO_VALID p) 1
  let s := (s.set (F.MON_SINFO_SRC p) (s.get (F.MON_CFG_SRC p i))).count (F.MON_SINFO_SEQ p)
  s.when clr (·.monClear (32 * p + i))

/-- LT_CMD with GO = 1 (R645): the addend joins counter `i`, unless loading has ended or there is no such counter. -/
def ltLoad (s : State) (i : Nat) : State :=
  if s.is (F.LT_CTL_LOCK 0) ∨ 12 ≤ i then s.event (Pg.MON 0) 3
  else s.ltAdd i ((s.reg (R.LT_ADDLO 0)).toNat + 2 ^ 32 * s.get (F.LT_ADDHI_ADD 0))

end State

end Sys2Proof.Machine
end

