-- ==== Sys2Proof/Machine/Settle.lean ====
section
/-! DEFINITION. The hardwired logic that acts behind every command: the fault and block forcing of the gate block, the
clearing of DB, and the fall of VB. Each is combinational in the part (R471, R508, R513, R519, R687); the model applies
it once after every command. -/

namespace Sys2Proof.Machine

namespace State

/-- Is the hub non-redundant, or active in its twin pair (R529, R530)? -/
def hubDrives (s : State) : Bool := !s.is F.SYS_TOPO_TWIN || s.twin.active

/-- Is a near-end loopback or a PRBS test on an uplink, which holds block levels (R217)? -/
def uplinkTest (s : State) (n : Nat) : Bool :=
  s.is (F.LANE_CFG_LB n) && decide (s.get (F.LANE_CFG_LB n) < 4)
    || s.is (F.LANE_PRBS_CTL_GEN n) || s.is (F.LANE_PRBS_CTL_CHK n)

/-- BLKSEEN as read: a detection within the last 4 T_cyc, or a loopback or PRBS test of an uplink (R217, R520). -/
def blkSeenNow (s : State) : Bool := s.safe.blkSeen || s.uplinkTest 0 || s.uplinkTest 1

/-- Is block forcing in effect: by a detection (R687), by the plausibility input under PLACT (R521), by R217? -/
def blkForced (s : State) : Bool := s.blkSeenNow || (s.safe.plaus && s.is F.SAFE_CCFG_PLACT)

/-- The safe levels of a leg out of GATE_SAFE; both switches of a leg on cannot be written (R473). -/
def safeLeg (s : State) (b : Bool) : Leg :=
  let v := s.get F.GATE_SAFE_SAFE >>> (if b then 2 else 0) % 4
  if v = 1 then .upper else if v = 2 then .lower else .off

/-- A leg under the fault logic: off where GATE_SAFE gives 0, its present level where it gives 1; a level that was off
turns on only with the turn-on of R471 step 3. -/
def forceLeg (now safe : Leg) (on : Bool) : Leg := if now = safe ∨ on then safe else .off

/-- The levels the fault logic and the block forcing impose, by the precedence of R479: the permanent bypass, then the
safe levels of a latched fault, then block levels. -/
def forceGates (s : State) : State :=
  if s.gate.pbyp then
    { s with gate := { s.gate with state := .block, blocked := true, legA := .off, legB := .off, riseA := none, riseB := none } }
  else if s.gate.latch ≠ 0 then
    { s with gate := { s.gate with
        state := .block, blocked := true, riseA := none, riseB := none,
        legA := forceLeg s.gate.legA (s.safeLeg false) s.gate.safeOn,
        legB := forceLeg s.gate.legB (s.safeLeg true) s.gate.safeOn } }
  else if s.blkForced then
    { s with gate := { s.gate with state := .block, blocked := true, legA := .off, legB := .off, riseA := none, riseB := none } }
  else s

/-- The history of the state in force follows it: R283 reports the state at a past instant. -/
def recordState (s : State) : State :=
  match s.gate.hist with
  | (t, st) :: _ =>
    if st = s.gate.state then s
    else
      let at' := match s.gate.lastAt with
        | some l => if t < l then l else s.now
        | none => s.now
      { s with gate := { s.gate with hist := (at', s.gate.state) :: s.gate.hist.take 63 } }
  | [] => { s with gate := { s.gate with hist := [(s.now, s.gate.state)] } }

/-- DB clears on a fault latch, on permanent bypass and on block forcing, R519. -/
def forceDb (s : State) : State :=
  if s.gate.latch ≠ 0 ∨ s.gate.pbyp ∨ s.blkForced then { s with safe := { s.safe with db := false } } else s

/-- Deblock records not yet launched leave the management queues (R513). -/
def withdrawDeblocks (s : State) : State :=
  { s with ports := s.ports.map fun p => { p with mq := p.mq.filter (fun r => !r.deblock) } }

/-- VB falls to BLOCKED while ALATCH is not 0, BREQ is 1 or the hub is not active; the deblock sequencer then stops. -/
def forceVb (s : State) : State :=
  if s.safe.vb ∧ (s.safe.alatch ≠ 0 ∨ s.safe.breq ∨ !s.hubDrives) then
    let s := { s with safe := { s.safe with vb := false, seqLeft := [], seqOpen := [] } }
    s.withdrawDeblocks.event Pg.SAFE 8
  else s

/-- A hub that has judged the referee lost enters self-arbitration once the twin's last STATUS shows no referee either, or
the twin link is down (R564). -/
def selfEnter (s : State) : State :=
  let blind := match s.twin.status with
    | some t => !bitOf t.health 5
    | none => false
  if s.twin.refLost && s.is F.SYS_TOPO_TWIN && s.is F.TWIN_ARB_SELFEN && !s.is F.TWIN_STAT_SELF
      && (blind || !s.is F.TWIN_STAT_BOND) then
    ((s.set F.TWIN_STAT_SELF 1).event Pg.REF 8).event Pg.TWIN 13
  else s

/-- The conditions of R566: a preferred standby in self-arbitration, the link bonded, no failure, ready or alone. -/
def reclaimHolds (s : State) : Bool :=
  s.is F.SYS_TOPO_TWIN && s.is F.TWIN_STAT_SELF && !s.twin.active && s.is F.TWIN_ARB_PREF && s.is F.TWIN_STAT_BOND
    && s.reg R.REF_HFAIL == 0 && (s.is F.TWIN_STAT_READY || !s.twin.sawActive)

/-- Since when those conditions hold without a break. -/
def markReclaim (s : State) : State :=
  if s.reclaimHolds = s.twin.reclaimAt.isSome then s
  else { s with twin := { s.twin with reclaimAt := if s.reclaimHolds then some s.elapsed else none } }

/-- The hardwired logic after a command. -/
def settle (s : State) : State :=
  if s.isCell then s.forceGates.forceDb.recordState else if s.isHub then s.selfEnter.forceVb.markReclaim else s

end State

/-- The meaning of a command that acts under `c`: the state changed by `f` and settled; with `c` false the function of
the command does not run (R14, R130) and nothing changes. -/
def act (s : State) (c : Bool) (f : State → State) : Out := if c then .next (f s).settle else .next s

end Sys2Proof.Machine
end

