-- ==== Sys2Proof/Machine/Time.lean ====
section
/-! DEFINITION. The time unit (08_time.md): time, increment, steps and loads, meridians as points of time, holdover,
the twin exchange, the timestamp queues and the time outputs. -/

namespace Sys2Proof.Machine

namespace State

/-! Meridians, R226. -/

/-- T_cyc in units of network time. -/
def tcyc (s : State) : Nat := s.active F.TIME_MER_TCYC * 500 * unitsPerNs

/-- The active EPOCH in units of network time. -/
def epoch (s : State) : Nat :=
  (s.active ⟨R.TIME_EPOCH_SL, 0, 32⟩ + 2 ^ 32 * s.active ⟨R.TIME_EPOCH_SH, 0, 32⟩) * unitsPerSec
    + s.active F.TIME_EPOCH_NS_NS * unitsPerNs

/-- The active K_BASE. -/
def kbase (s : State) : Nat := s.active ⟨R.TIME_KBASE_LO, 0, 32⟩ + 2 ^ 32 * s.active F.TIME_KBASE_HI_KB

/-- t_k = EPOCH + (k - K_BASE) * T_cyc. -/
def meridianAt (s : State) (k : Nat) : Int := (s.epoch : Int) + ((k : Int) - s.kbase) * s.tcyc

/-- Do meridians run: RUN = 1 and the page's block running? -/
def meridiansOn (s : State) : Bool := s.runs Pg.TIME && s.is F.TIME_MER_RUN

/-- Do meridians fire, so that a held page waits for the next one (R70)? -/
def meridiansFire (s : State) : Bool :=
  !s.isRef && s.meridiansOn && s.time.lastK.isSome && (s.isHub || s.rx.obeying)

/-- Pages whose HOLD has been cleared resume (R70). -/
def holdsRelease (s : State) : State :=
  forUpTo (fun pg t =>
    if t.is (F.PG_STAT_HELD pg) && !t.is (F.PG_CTRL_HOLD pg) then t.set (F.PG_STAT_HELD pg) 0 else t) 48 s

/-- Where no meridian fires any more, what waited for one resumes at once (R70). -/
def resumeHeld (s : State) : State := if s.meridiansFire then s else s.holdsRelease

/-- The cycle whose meridian comes next (R226 to R228): one after the last fired while meridians have run since; for
meridians that begin to run, the first whose instant is not past (DEDUCED, log 116). -/
def nextK (s : State) : Nat :=
  match s.time.cont, s.time.lastK with
  | true, some k => k + 1
  | _, _ => ((s.kbase : Int) + -(((s.epoch : Int) - s.now) / (s.tcyc : Int))).toNat

/-- Meridians stop where they no longer run. -/
def meridiansStop (s : State) : State :=
  if s.meridiansOn then s else { s with time := { s.time with cont := false } }

/-- Is a commit held for a meridian (R72), or applied at once (R73)? Meridians of a cell count from its first obeyed
frame to HOLD_LIMIT. -/
def commitsWait (s : State) (pg : Nat) : Bool :=
  s.enabled pg && s.meridiansOn && s.time.lastK.isSome && !s.isRef && (s.isHub || s.rx.obeying)

/-! Holdover, R238. -/

def inHoldover (s : State) : Bool := s.time.hold != []

/-- The tick period of IRC at TCLK's divider, scaled by 1 - CLK_IRC_MEAS * 10^-9, in 2^-32 ns. -/
def ircIncrement (s : State) : Nat :=
  let p : Int := 10 * s.get (F.CLK_DOM_CUR 0) * 2 ^ 32
  (p - p * signed 32 (s.reg R.CLK_IRC_MEAS).toNat / 1000000000).toNat

/-- A cause of holdover begins. -/
def enterHold (s : State) (c : HoldCause) : State :=
  if s.time.hold.contains c then s else
  let s := if s.inHoldover then s else
    ((s.event Pg.TIME 8).bump F.TIME_HOLD_ENTRIES).set F.TIME_STAT_HOLDOVER 1
  let s := if c = .tclk then
      { s with time := { s.time with incHeld := some (s.time.incHeld.getD s.time.inc), inc := s.ircIncrement } }
    else s
  { s with time := { s.time with hold := c :: s.time.hold } }

/-- A cause of holdover clears; with the last one holdover ends. -/
def leaveHold (s : State) (c : HoldCause) : State :=
  if !s.time.hold.contains c then s else
  let s := if c = .tclk then { s with time := { s.time with inc := s.time.incHeld.getD s.time.inc, incHeld := none } }
    else s
  let s := { s with time := { s.time with hold := s.time.hold.filter (· != c) } }
  if s.inHoldover then s else
    (s.event Pg.TIME 9).set F.TIME_STAT_HOLDOVER 0

/-- Holdover by the twin link: source 2 in use with the link not bonded, or bonded with no exchange made yet (R234,
R238). -/
def holdByTwin (s : State) : State :=
  if s.isCell then s
  else if s.time.src = 2 && !(s.is (F.LANE_STAT_BONDED 4) && s.time.exchanged) then s.enterHold .twin
  else s.leaveHold .twin

/-- The source that TIME_CTL.SRC selects is in use from this tick on (R235). -/
def takeSource (s : State) : State :=
  if s.time.src = s.get F.TIME_CTL_SRC then s
  else { s with time := { s.time with src := s.get F.TIME_CTL_SRC } }.holdByTwin

/-- `d` units of time pass: timers run, time in holdover counts. -/
def pass (s : State) (d : Nat) : State :=
  { s with
    elapsed := s.elapsed + d,
    sup := if s.wdtPaused then { s.sup with wdtEnd := s.sup.wdtEnd + d } else s.sup,
    time := { s.time with holdTime := s.time.holdTime + if s.inHoldover then d else 0 } }

/-! The timebase generation, R287: it rises by 1 at every change of TCYC, EPOCH, K_BASE or of the time itself. -/

/-- The timebase changes: TBG rises by 1 on a hub. -/
def newTimebase (s : State) : State := s.when s.isHub fun s => s.count F.TIME_STAT_TBG

/-! Steps and loads, R223, R228. -/

/-- Is the jump refused while meridians run: a step of a quarter of T_cyc or more, or any load? -/
def jumpRefused (s : State) (j : TimeJump) : Bool :=
  s.meridiansOn && match j with
    | .step d => decide (s.tcyc ≤ 4 * d.natAbs)
    | .load _ => true

/-- The time after a jump. -/
def jumpTo (s : State) : TimeJump → Nat
  | .step d => ((s.now : Int) + d).toNat
  | .load t => t

/-- A jump applies: the time changes, STEP_DONE is raised. -/
def applyJump (s : State) (j : TimeJump) : State :=
  let s := { s with now := s.jumpTo j, time := { s.time with jump := none } }
  s.event Pg.TIME 10

/-- A STEP or SET is requested: refused, applied at once with the page off (R225), or waiting for its tick. -/
def requestJump (s : State) (j : TimeJump) : State :=
  if s.jumpRefused j then s.event Pg.TIME 11
  else if s.runs Pg.TIME then { s with time := { s.time with jump := some j } }
  else s.applyJump j

/-- The offset of TIME_OFS: signed nanoseconds and a fraction. -/
def ofsValue (s : State) : Int := signed 32 (s.reg R.TIME_OFS_NS).toNat * 2 ^ 32 + (s.reg R.TIME_OFS_FR).toNat

/-- The load value of TIME_SET; nanoseconds above 999,999,999 are used as 999,999,999. -/
def setValue (s : State) : Nat :=
  ((s.reg R.TIME_SET_SL).toNat + 2 ^ 32 * (s.reg R.TIME_SET_SH).toNat) * unitsPerSec
    + min 999999999 (s.get F.TIME_SET_NS_NS) * unitsPerNs

/-- A write of TIME_CMD (R223): STEP, SET, or with both bits neither. -/
def timeCmd (s : State) (stp ld : Bool) : State :=
  if stp && ld then s.event Pg.TIME 3
  else if stp then s.requestJump (.step s.ofsValue)
  else if ld then s.requestJump (.load s.setValue)
  else s

/-- The increment pair as written, in 2^-32 ns. -/
def incWritten (s : State) : Nat := s.get F.TIME_INC_NS * 2 ^ 32 + s.get F.TIME_INC_FRAC_FRAC

/-- A write of TIME_INC_FRAC: the pair applies from the next tick (R222). -/
def incRequest (s : State) : State := { s with time := { s.time with incWait := some s.incWritten } }

/-- The step or load that waits applies. -/
def applyWaitingJump (s : State) : State :=
  match s.time.jump with
  | some j => s.applyJump j
  | none => s

/-- What waits for a tick applies: the source, the step or load, a cell's correction, then the increment (R222, R223, R235,
R237). The increment that returns with TCLK after a holdover stays the former one (R238). -/
def applyWaiting (s : State) : State :=
  let s := s.takeSource.applyWaitingJump
  let s := { s with now := ((s.now : Int) + s.time.corr).toNat, time := { s.time with corr := 0 } }
  match s.time.incWait with
  | some i => { s with time := { s.time with inc := i, incWait := none } }
  | none => s

/-- One TCLK tick (R221). Timers run by it with the time unit off too (DESIGN CHOICE, log 117). -/
def tick (s : State) : State :=
  if !s.alive then s
  else if s.runs Pg.TIME then
    let s := s.applyWaiting
    { s.pass s.time.inc with now := s.now + s.time.inc }
  else s.pass s.time.inc

/-- The time unit counts up to the instant `t`, if it is not there yet: what waited for a tick has applied on the way.
With the time unit off time stands still (R225). -/
def reach (s : State) (t : Int) : State :=
  if s.runs Pg.TIME && decide (s.now < t.toNat) then
    let s := s.applyWaiting
    { s.pass (t.toNat - s.now) with now := max s.now t.toNat }
  else s

/-- A timer that ends at `d` units of passed time has ended. -/
def timerEnds (s : State) (d : Nat) : State := s.pass (d - s.elapsed)

/-- The registers that show the time of one tick, latched by a read of TIME_NOW_NS (R224). -/
def latchNow (s : State) : State :=
  let s := s.setReg R.TIME_NOW_NS (BitVec.ofNat 32 s.nanos)
  let s := s.setReg R.TIME_NOW_FR (BitVec.ofNat 32 (s.now % 2 ^ 32))
  let s := s.setReg R.TIME_NOW_SL (BitVec.ofNat 32 s.seconds)
  s.setReg R.TIME_NOW_SH (BitVec.ofNat 32 (s.seconds / 2 ^ 32))

/-- The time unit in its reset state, R225: SRST of the TIME page. The timebase generation is kept. -/
def resetTimeUnit (s : State) (tbg : Nat) : State := { s with now := 0, time := {} }.set F.TIME_STAT_TBG tbg

/-- Output pulses are held off: in holdover with HOLDOFF = 1 (R240). -/
def outputsOff (s : State) : Bool := s.inHoldover && s.is F.TIME_PPS_HOLDOFF

/-- Queue `p` of timestamps. -/
def tsQueue (s : State) (p : Nat) : List TsEntry := nth s.time.tsq p []

/-- The head of a timestamp queue goes to TSQp_ID, NS and SL, and leaves the queue (R244). -/
def popTs (s : State) (p : Nat) : State :=
  match s.tsQueue p with
  | [] => s.set (F.TIME_TSQ_ID_VALID p) 0
  | e :: q =>
    let s := { s with time := { s.time with tsq := setAt [] s.time.tsq p q } }
    let id := e.seq % 65536 + (e.msgType % 16) <<< 16 + b2n e.sent <<< 20 + 1 <<< 31
    let s := s.setReg (R.TIME_TSQ_ID p) (BitVec.ofNat 32 id)
    let s := s.setReg (R.TIME_TSQ_NS p) (BitVec.ofNat 32 (e.time % unitsPerSec / unitsPerNs))
    s.setReg (R.TIME_TSQ_SL p) (BitVec.ofNat 32 (e.time / unitsPerSec))

/-- A timestamp joins queue `p`, or is discarded with the queue full (R232). -/
def pushTs (s : State) (p : Nat) (e : TsEntry) : State :=
  if (s.tsQueue p).length < 16 then
    { s with time := { s.time with tsq := setAt [] s.time.tsq p (s.tsQueue p ++ [e]) } }
  else (s.bump (F.TIME_TSQ_STAT_OVF p)).event Pg.TIME 12

/-- C_TX and C_RX at 1.25 Gbaud, R230, in ns. -/
def ptpConst (sent : Bool) : Nat := if sent then 56 else 104

/-- The timestamp of an event message now, referred to the pin when CORR = 1 (R230, R232): a transmit timestamp is
C_TX before the pin, a receive timestamp C_RX after it. -/
def ptpStamp (s : State) (sent : Bool) : Nat :=
  if s.is F.TIME_PTP_CORR then
    if sent then s.now + ptpConst true * unitsPerNs else s.now - ptpConst false * unitsPerNs
  else s.now

end State

open State

/-- STEP_DONE: at the next tick the waiting step or load applies, and with it a waiting increment. -/
def execStepDone (s : State) : Out := act s (s.alive && s.runs Pg.TIME) applyWaiting

/-- PPS_PULSE: at a whole second of network time the hub drives PPS high, if GPIO4 has its role function (R240). -/
def execPpsPulse (s : State) : Out :=
  act s (s.alive && s.isHub && s.runs Pg.TIME && s.get (F.GPIO_FN_FN 4) == 0 && !s.outputsOff) fun s =>
    { s with time := { s.time with pps := true } }

/-- PPS_PULSE_END: W ms after the second PPS falls. -/
def execPpsPulseEnd (s : State) : Out :=
  act s (s.alive && s.isHub) fun s => { s with time := { s.time with pps := false } }

/-- CYCLE_MARK_END: W ticks after a marked meridian the mark falls. -/
def execCycleMarkEnd (s : State) : Out :=
  act s (s.alive && s.isHub) fun s => { s with time := { s.time with mark := false } }

/-- HOLDOVER_ENTER: a cause of R238 begins. Loss of frames is a cause in cell role only; the cause by firmware holds
while TIME_CTL.HOLD = 1, the cause by the twin link as `holdByTwin` tells. -/
def execHoldoverEnter (cause : HoldCause) (s : State) : Out :=
  act s (s.alive && s.runs Pg.TIME) fun s =>
    match cause with
    | .frames => if s.isCell then s.enterHold .frames else s
    | .forced => if s.is F.TIME_CTL_HOLD then s.enterHold .forced else s
    | .twin => s.holdByTwin
    | .tclk => if s.clk.saved.head? = some none then s else s.enterHold .tclk

end Sys2Proof.Machine
end

