-- ==== Sys2Proof/Machine/Clock.lean ====
section
/-! DEFINITION. Clock domains, sources, monitors and gating (04_core_clocks.md). Sources are numbered as CLK_DOMn.SRC:
0 IRC, 1 SPLL, 2 XOSC. Monitors are numbered 0 XOSC, 1 REFC, 2 RCVD from L0, 3 RCVD from L1, 4 SPLL. -/

namespace Sys2Proof.Machine

namespace State

/-- The reference of SPLL by REFSEL, in kHz (R101): RCVD is the line rate of the selected uplink / 40. -/
def refKHz (s : State) : Nat :=
  match s.get F.CLK_SPLL_REFSEL with
  | 1 => 25000
  | 2 => 156250
  | 3 =>
    match s.get (F.LANE_CFG_RATE (s.get F.CLK_SRC_RCSEL)) with
    | 0 => 31250
    | 1 => 78125
    | _ => 156250
  | _ => 100000

/-- The frequency of a domain source as a fraction of kHz (R101, R102): SPLL gives
f_ref / PREDIV * (MULT + FRAC / 2^20). -/
def srcFreq (s : State) (src : Nat) : Nat × Nat :=
  match src with
  | 1 => (s.refKHz * (s.get F.CLK_SPLL_MULT * 2 ^ 20 + s.get F.CLK_SPLL_FRAC_FRAC),
      max 1 (s.get F.CLK_SPLL_PREDIV) * 2 ^ 20)
  | 2 => (25000, 1)
  | _ => (100000, 1)

/-- The period of domain `n` in units of network time, out of the source and divider in use. -/
def domPeriod (s : State) (n : Nat) : Nat :=
  let f := s.srcFreq (s.get (F.CLK_DOM_CURSRC n))
  s.get (F.CLK_DOM_CUR n) * 1000000 * unitsPerNs * f.2 / max 1 f.1

/-- DIV_0 of R106: the smallest divider at which source `src` gives no more than the present frequency of domain `n`. -/
def div0 (s : State) (n src : Nat) : Nat :=
  let f := s.srcFreq src
  let g := s.srcFreq (s.get (F.CLK_DOM_CURSRC n))
  let d := max 1 (g.1 * f.2)
  max 1 ((f.1 * g.2 * s.get (F.CLK_DOM_CUR n) + d - 1) / d)

/-- The divider for which R106 or R113 asks: past 255, which no divider reaches (R103), the value is not stated (log 66). -/
def reachable (s : State) (d : Nat) : Nat × State :=
  if d ≤ 255 then (d, s) else let (v, s) := s.free; (v % 255 + 1, s)

/-- While TCLK runs on IRC in holdover, the increment is that of the divider in use (R238). -/
def followIrc (s : State) (n : Nat) : State :=
  if n = 0 ∧ s.get (F.CLK_DOM_CURSRC 0) = 0 ∧ s.time.hold.contains .tclk then
    { s with time := { s.time with inc := s.ircIncrement } }
  else s

/-- RAMP follows the divider; when the target is reached RAMP falls and RAMP_DONE is raised. -/
def rampState (s : State) (n target : Nat) : State :=
  if s.get (F.CLK_DOM_CUR n) > target then s.set (F.CLK_DOM_RAMP n) 1
  else (s.set (F.CLK_DOM_RAMP n) 0).event Pg.CLK 10

/-- The domain takes source `src` and divider target `div` (R106): with a new source the divider becomes
max(div, DIV_0) at the glitch-free switch; a change that lowers the frequency takes effect at once. A write after a
failover cancels the automatic return of the domain (DESIGN CHOICE, log 118). -/
def domApply (s : State) (n src div : Nat) : State :=
  let s := (s.set (F.CLK_DOM_SRC n) src).set (F.CLK_DOM_DIV n) div
  let s :=
    if s.get (F.CLK_DOM_CURSRC n) ≠ src then
      let (d, s) := s.reachable (max div (s.div0 n src))
      (s.set (F.CLK_DOM_CUR n) d).set (F.CLK_DOM_CURSRC n) src
    else if s.get (F.CLK_DOM_CUR n) < div then s.set (F.CLK_DOM_CUR n) div
    else s
  let s := { s with clk := { s.clk with saved := setAt none s.clk.saved n none } }
  let s := if n = 0 ∧ src ≠ 0 then s.leaveHold .tclk else s
  (s.followIrc n).rampState n div

/-- A write of CLK_DOMn (R106, R107). SRC 3 and DIV 0 are ignored; XOSC feeds nothing before it is judged good (R117);
behind a running ramp the request is latched, the newest one kept. -/
def domWrite (s : State) (n src div : Nat) : State :=
  let src := if src = 3 ∨ (src = 2 ∧ !s.clk.xoscReady) then s.get (F.CLK_DOM_SRC n) else src
  let div := if div = 0 then s.get (F.CLK_DOM_DIV n) else div
  if s.is (F.CLK_DOM_RAMP n) then
    let s := s.set (F.CLK_DOM_LATCHED n) 1
    { s with clk := { s.clk with latched := setAt none s.clk.latched n (some (src, div)) } }
  else if src = s.get (F.CLK_DOM_CURSRC n) ∧ div = s.get (F.CLK_DOM_CUR n) then
    (s.set (F.CLK_DOM_SRC n) src).set (F.CLK_DOM_DIV n) div
  else s.domApply n src div

/-- The request latched behind a ramp starts when the ramp ends. -/
def domLatched (s : State) (n : Nat) : State :=
  match nth s.clk.latched n none with
  | some (src, div) =>
    let s := { s with clk := { s.clk with latched := setAt none s.clk.latched n none } }
    (s.set (F.CLK_DOM_LATCHED n) 0).domApply n src div
  | none => s

/-- The divider of domain `n` at reset (R103). -/
def resetDiv (n : Nat) : Nat := nth [1, 2, 10, 4] n 1

/-- Domain `n` fails over to IRC (R113 step 2): it keeps its former source and target for R114; RAMP of a ramp that is
cancelled falls, and RAMP_DONE is raised (R106, R107). -/
def failDomain (s : State) (n : Nat) : State :=
  let old := (s.get (F.CLK_DOM_CURSRC n), s.get (F.CLK_DOM_DIV n))
  let s := s.when (s.is (F.CLK_DOM_RAMP n)) (·.event Pg.CLK 10)
  let (d, s) := s.reachable (max (resetDiv n) (s.div0 n 0))
  let s := ((s.set (F.CLK_DOM_CUR n) d).set (F.CLK_DOM_CURSRC n) 0).set (F.CLK_DOM_RAMP n) 0
  let s := s.set (F.CLK_DOM_LATCHED n) 0
  { s with clk := { s.clk with latched := setAt none s.clk.latched n none, saved := setAt none s.clk.saved n (some old) } }

/-- The domains fed by source `src` fail over; with TCLK among them the time unit enters holdover. -/
def failDomains (s : State) (src : Nat) : State :=
  let fed (n : Nat) : Bool := s.get (F.CLK_DOM_CURSRC n) == src
  let s' := [0, 1, 2, 3].foldl (fun t n => if fed n then t.failDomain n else t) s
  let s' := if s.isCell ∧ [0, 1, 2, 3].any fed then
      { s' with gate := { s'.gate with flags := s'.gate.flags ||| 1 <<< 13 } } else s'
  if fed 0 then (s'.enterHold .tclk).health 1 else s'

/-- The monitor of the source that clocks the SPLL by REFSEL, if one is fitted. -/
def spllRef (s : State) : Option Nat :=
  match s.get F.CLK_SPLL_REFSEL with
  | 1 => some 0
  | 2 => some 1
  | 3 => some (2 + s.get F.CLK_SRC_RCSEL)
  | _ => none

/-- RCVD of the selected uplink has failed and the other uplink is locked: RCSEL names the other (R115). -/
def rcselSwitch (s : State) : State :=
  let other := 1 - s.get F.CLK_SRC_RCSEL
  if s.isCell && s.is (F.LANE_STAT_CDR_LOCK other) then s.set F.CLK_SRC_RCSEL other else s

/-- The flags, the log and the failover of one failed source, R113. -/
def failOne (s : State) (m : Nat) : State :=
  let s := s.set F.CLK_FAIL_SRCF (s.get F.CLK_FAIL_SRCF ||| 1 <<< m)
  let s := s.set (F.CLK_MON_STAT_FAIL m) 1
  let s := { s with clk := { s.clk with good := setAt 0 s.clk.good m 0 } }
  let s := s.set (F.CLK_MON_STAT_GOOD m) 0
  let s := if m = 0 then s.failDomains 2 else if m = 4 then s.failDomains 1 else s
  let s := (s.event Pg.CLK 8).errArrive 2 6 0xFF m
  s.bbWrite 0x27 m [s.cycle]

/-- Does source `m` feed a domain: XOSC and SPLL feed domains themselves, any source may through SPLL? -/
def srcFeeds (s : State) (m : Nat) : Bool :=
  let fed (src : Nat) : Bool := [0, 1, 2, 3].any fun n => s.get (F.CLK_DOM_CURSRC n) == src
  (m == 0 && fed 2) || ((m == 4 || s.spllRef == some m) && fed 1)

/-- Source `m` fails (R113): with it the SPLL that it clocks; in a cell RCSEL may change (R115). A source that is failed
already fails again where a domain has been put back on it. -/
def srcFail (s : State) (m : Nat) : State :=
  if s.is (F.CLK_MON_STAT_FAIL m) && !s.srcFeeds m then s else
  let viaSpll := s.spllRef == some m && s.is F.CLK_SRC_SPLL_EN && (!s.is (F.CLK_MON_STAT_FAIL 4) || s.srcFeeds 4)
  let selected := m == 2 + s.get F.CLK_SRC_RCSEL
  let s := s.failOne m
  let s := if viaSpll then s.failOne 4 else s
  if (m == 2 || m == 3) && selected then s.rcselSwitch else s

/-- The domains that failed over from `src` return to their former source and divider (R114). -/
def returnDomains (s : State) (src : Nat) : State :=
  [0, 1, 2, 3].foldl (fun t n => match nth t.clk.saved n none with
    | some (f, d) => if f = src then t.domApply n f d else t
    | none => t) s

/-- Source `m` is judged good again: with AUTORET its domains return and SRC_RESTORED is raised (R114). -/
def srcGood (s : State) (m : Nat) : State :=
  let s := s.set (F.CLK_MON_STAT_FAIL m) 0
  if !s.is F.CLK_SRC_AUTORET then s
  else (if m = 0 then s.returnDomains 2 else if m = 4 then s.returnDomains 1 else s).event Pg.CLK 15

/-- Is a count within EXPECT and TOL of monitor `m`? -/
def withinTol (s : State) (m count : Nat) : Bool :=
  decide (count ≤ s.get (F.CLK_MON_CTL_EXPECT m) + s.get (F.CLK_MON_CTL_TOL m))
    && decide (s.get (F.CLK_MON_CTL_EXPECT m) ≤ count + s.get (F.CLK_MON_CTL_TOL m))

/-- Does the reference that REFSEL gives SPLL run: IRC always, XOSC once judged good (R117), REFC while enabled, RCVD while
its lane is locked? -/
def spllRefRuns (s : State) : Bool :=
  match s.spllRef with
  | some 0 => s.clk.xoscReady && !s.is (F.CLK_MON_STAT_FAIL 0)
  | some 1 => s.is F.CLK_SRC_REFC_EN && !s.is (F.CLK_MON_STAT_FAIL 1)
  | some m => s.is (F.LANE_STAT_CDR_LOCK (m - 2))
  | none => true

/-- SPLL fails where it is enabled on a reference that has failed (R113). -/
def spllRefCheck (s : State) : State :=
  match s.spllRef with
  | some m => if s.is F.CLK_SRC_SPLL_EN && s.is (F.CLK_MON_STAT_FAIL m) then s.srcFail 4 else s
  | none => s

/-- XOSC is judged good for the first time since it was enabled (R117). -/
def xoscGood (s : State) : State :=
  if s.clk.xoscReady then s else { s.event Pg.CLK 14 with clk := { s.clk with xoscReady := true } }

/-- A window of monitor `m` within tolerance. XOSC that failed at its start is judged good by R114. -/
def goodWindow (s : State) (m : Nat) : State :=
  let g := min 16 (nth s.clk.good m 0 + 1)
  let s := { s with clk := { s.clk with good := setAt 0 s.clk.good m g } }
  let s := s.set (F.CLK_MON_STAT_GOOD m) (min 15 g)
  let s := s.when (m == 0 && !s.is (F.CLK_MON_STAT_FAIL 0)) xoscGood
  if s.is (F.CLK_MON_STAT_FAIL m) && g == 16 && (m != 4 || s.is F.CLK_SPLL_STAT_LOCK) then
    (s.srcGood m).when (m == 0) xoscGood
  else s

/-- A window outside tolerance. XOSC that is not yet good fails only 1 ms after its start-up delay (R117). -/
def badWindow (s : State) (m : Nat) : State :=
  let s := { s with clk := { s.clk with good := setAt 0 s.clk.good m 0 } }
  let s := s.set (F.CLK_MON_STAT_GOOD m) 0
  if m = 0 ∧ !s.clk.xoscReady then
    let w := s.clk.xoscWait + 10 * s.get (F.CLK_MON_CTL_WIN 0)
    let s := { s with clk := { s.clk with xoscWait := w } }
    if w ≥ 1000000 then s.srcFail 0 else s
  else s.srcFail m

/-- Is the source of monitor `m` enabled, so that its monitor judges? XOSC is not judged during its start-up delay; a page
held at its work boundary does no work (R70). -/
def judged (s : State) (m : Nat) : Bool :=
  s.runs Pg.CLK && match m with
  | 0 => s.is F.CLK_SRC_XOSC_EN && !s.clk.xoscQuiet
  | 1 => s.is F.CLK_SRC_REFC_EN
  | 2 | 3 => s.isCell
  | 4 => s.is F.CLK_SRC_SPLL_EN
  | _ => false

/-- A monitor window ends with `count` (R113, R114, R117). -/
def monitorWindow (s : State) (m count : Nat) : State :=
  let s := s.set (F.CLK_MON_STAT_COUNT m) count
  if s.judged m then if s.withinTol m count then s.goodWindow m else s.badWindow m else s

/-- The speed index of R98 to R100: mean and slowest of the eight rings, SLOW_CORE with its hysteresis. The mean is rounded
down, and of equally slow rings RING names the first (DESIGN CHOICE, log 119). -/
def speedUpdate (s : State) (rings : List Nat) : State :=
  let slow := rings.foldl min (rings.headD 0)
  let s := s.set F.SYS_SPEED_IDX (rings.sum / max 1 rings.length)
  let s := s.set F.SYS_SPEED_SLOW slow
  let s := s.set F.SYS_SPEED_RING (rings.idxOf slow)
  let lim := s.get F.CLK_SPDLIM_LIMIT
  if slow < lim then
    if s.clk.slowArmed then { s.event Pg.CLK 12 with clk := { s.clk with slowArmed := false } } else s
  else if slow > lim + s.get F.CLK_SPDLIM_HYST then { s with clk := { s.clk with slowArmed := true } }
  else s

/-- The gate of a page closes: RUN falls, GATED reads 1 (R119). -/
def closeGate (s : State) (pg : Nat) : State :=
  let s := { s with clk := { s.clk with gating := s.clk.gating.filter (· != pg) } }
  s.set (F.PG_STAT_RUN pg) 0

end State

open State

/-- RAMP_STEP: the divider falls by one; at the target RAMP falls and a latched request starts (R106, R107). -/
def execRampStep (dom : Nat) (s : State) : Out :=
  act s (s.alive && s.runs Pg.CLK && decide (dom < 4) && s.is (F.CLK_DOM_RAMP dom)) fun s =>
    let s := (s.set (F.CLK_DOM_CUR dom) (s.get (F.CLK_DOM_CUR dom) - 1)).followIrc dom
    let s := s.rampState dom (s.get (F.CLK_DOM_DIV dom))
    if s.is (F.CLK_DOM_RAMP dom) then s else s.domLatched dom

/-- FORCED_SWITCH: no edge of the old clock within CLK_SWTO; the switch is forced and flagged (R109). -/
def execForcedSwitch (dom : Nat) (s : State) : Out :=
  act s (s.alive && s.runs Pg.CLK && decide (dom < 4)) fun s =>
    (s.set F.CLK_FAIL_FORCED (s.get F.CLK_FAIL_FORCED ||| 1 <<< dom)).event Pg.CLK 9

/-- CLOCK_MONITOR_WINDOW. -/
def execClockMonitorWindow (m count : Nat) (s : State) : Out :=
  act s (s.alive && s.runs Pg.CLK && decide (m < 5)) (·.monitorWindow m count)

/-- SOURCE_NO_EDGE: a source gives no edge for 1 us of IRC time and fails (R113). XOSC that is not yet good fails only
1 ms after its start-up delay (R117). -/
def execSourceNoEdge (m : Nat) (s : State) : Out :=
  act s (s.alive && decide (m < 5) && s.judged m && (m != 0 || s.clk.xoscReady || decide (1000000 ≤ s.clk.xoscWait)))
    (·.srcFail m)

/-- SPLL_UNLOCK: the SPLL (m = 4) or the lane of RCVD (m = 2, 3) reports loss of lock; its source fails (R113). -/
def execSpllUnlock (m : Nat) (s : State) : Out :=
  act s (s.alive && s.runs Pg.CLK && (m == 4 || (s.isCell && (m == 2 || m == 3)))) fun s =>
    let s := if m = 4 then ((s.set F.CLK_SPLL_STAT_LOCK 0).bump F.CLK_SPLL_STAT_UNLOCKS).event Pg.CLK 11
      else (s.set (F.LANE_STAT_CDR_LOCK (m - 2)) 0).event (Pg.LANE (m - 2)) 18
    s.srcFail m

/-- Is there a reference to measure IRC by (R110): in a cell 64 ACTIVE frames received since the last measurement, with no
lane resynchronisation among them; in a hub or referee XOSC, good and not failed? -/
def State.ircReference (s : State) : Bool :=
  if s.isCell then decide (64 ≤ s.clk.ircFrames)
  else s.is F.CLK_SRC_XOSC_EN && s.clk.xoscReady && !s.is (F.CLK_MON_STAT_FAIL 0)

/-- IRC_MEASUREMENT: CLK_IRC_MEAS takes the error; with AUTO the trim moves one step against an error of more than half
a step (250,000 ppb), or IRC_DRIFT is raised at its limit (R110 to R112). A higher TRIM is read as a higher frequency
(DEDUCED, log 8). The increment of a holdover on IRC follows the new error at once, and IRC_DRIFT is raised only with
AUTO = 1 and where the error asks for a step beyond the limit (DEDUCED, log 120). -/
def execIrcMeasurement (ppb : Int) (s : State) : Out :=
  act s (s.alive && s.runs Pg.CLK && s.ircReference) fun s =>
    let s := s.setReg R.CLK_IRC_MEAS (BitVec.ofNat 32 (unsigned 32 ppb))
    let s := { s with clk := { s.clk with ircFrames := 0 } }.followIrc 0
    if !s.is F.CLK_IRC_AUTO ∨ ppb.natAbs ≤ 250000 then s else
    let t := s.get F.CLK_IRC_TRIM
    if (0 < ppb ∧ t = 0) ∨ (ppb < 0 ∧ t = 255) then
      ((s.event Pg.CLK 13).set F.CLK_FAIL_IRCD 1).errArrive 0 8 0xFF 0
    else s.set F.CLK_IRC_TRIM (if 0 < ppb then t - 1 else t + 1)

/-- XOSC_STARTUP_END: the start-up delay ends and the monitor starts judging, with the window that ends then (R117,
R118). -/
def execXoscStartupEnd (count : Nat) (s : State) : Out :=
  act s (s.alive && s.runs Pg.CLK && !s.isCell && s.is F.CLK_SRC_XOSC_EN) fun s =>
    let s := { s with clk := { s.clk with xoscQuiet := false, xoscWait := 0 } }
    s.monitorWindow 0 count

/-- SPLL_LOCK: the SPLL locks after being enabled or reconfigured, on a reference that runs (R102, R117). -/
def execSpllLock (s : State) : Out :=
  act s (s.alive && s.runs Pg.CLK && s.is F.CLK_SRC_SPLL_EN && s.spllRefRuns) (·.set F.CLK_SPLL_STAT_LOCK 1)

/-- UNGATE: the block of an enabled page resumes with its state kept; a request made during a gate waits until that
gate has closed (R120). -/
def execUngate (page : Nat) (s : State) : Out :=
  act s (s.alive && decide (page < 48) && s.enabled page && !infra page && !s.clk.gating.contains page)
    (·.set (F.PG_STAT_RUN page) 1)

end Sys2Proof.Machine
end

