-- ==== Sys2Proof/Machine/Lanes.lean ====
section
/-! DEFINITION. The serial lanes (07_lanes.md): sync, rate hunting, polarity, the twin bond, eye scan, PRBS test and power
states. -/

namespace Sys2Proof.Machine

namespace State

/-- ACCESS_ERR of a page, event bit 3, raised by a rule that answers OK: PG_STAT.ERR is for error responses (R66). -/
def accessErr (s : State) (pg : Nat) : State := s.event pg 3

/-- Does lane `n` receive: an uplink of a cell always (R217), another lane in ACTIVE? -/
def laneRx (s : State) (n : Nat) : Bool :=
  s.alive && !s.moored n && (s.isCell || (s.runs (Pg.LANE n) && s.get (F.LANE_PWR_CUR n) == 0))

/-- Loopback 1 or 2, in which the receive pins are ignored (R208). -/
def nearLoop (s : State) (n : Nat) : Bool := s.get (F.LANE_CFG_LB n) == 1 || s.get (F.LANE_CFG_LB n) == 2

/-- Does lane `n` take what arrives at its pins (R208)? -/
def laneHears (s : State) (n : Nat) : Bool := s.laneRx n && !s.nearLoop n

/-- Does the clock of the transmitter of lane `n` run (R195, R209): REFC at a hub, SPLL at a referee, at a cell the clock
recovered by its receiver or, in a near-end loopback, SPLL? -/
def laneClock (s : State) (n : Nat) : Bool :=
  match s.role with
  | .hub => s.is F.CLK_SRC_REFC_EN && !s.is (F.CLK_MON_STAT_FAIL 1)
  | .referee => s.is F.CLK_SPLL_STAT_LOCK
  | .cell => if s.nearLoop n then s.is F.CLK_SPLL_STAT_LOCK else s.is (F.LANE_STAT_CDR_LOCK n)
  | _ => false

/-- PLL_LOCK of lane `n`: its PLL is on outside MOORED (R215) and locks on its clock. -/
def pllLock (s : State) (n : Nat) : Bool :=
  s.alive && !s.moored n && s.get (F.LANE_PWR_CUR n) != 2 && s.laneClock n

/-- Does the transmitter of lane `n` drive its pins: ACTIVE, on a locked clock, not in loopback 2 (R208, R215)? -/
def laneDrives (s : State) (n : Nat) : Bool :=
  s.pllLock n && s.runs (Pg.LANE n) && s.get (F.LANE_PWR_CUR n) == 0 && s.get (F.LANE_CFG_LB n) != 2

/-- Does lane `n` carry the part's own frames: no pattern is generated (R211) and no far-end loopback runs (R208)? -/
def laneSends (s : State) (n : Nat) : Bool :=
  s.laneDrives n && !s.is (F.LANE_PRBS_CTL_GEN n) && s.get (F.LANE_CFG_LB n) != 3

/-- Lane `n` record. -/
def lane (s : State) (n : Nat) : LaneSt := nth s.lanes n {}

def setLane (s : State) (n : Nat) (l : LaneSt) : State := { s with lanes := setAt {} s.lanes n l }

/-- Does lane `n` synchronise on a continuous stream: not a tree port of a hub (R197)? -/
def continuousLane (s : State) (n : Nat) : Bool := !(s.isHub && n < 4)

/-- The twin link is lost: a slice staged without a COMMIT is flagged (R545); the link starts again from step 1 of
R536; the time unit may enter holdover (R234). -/
def twinLost (s : State) : State :=
  let up := s.is F.TWIN_STAT_BOND || s.is F.TWIN_STAT_KEYED
  let s := ((s.set F.TWIN_STAT_BOND 0).set F.TWIN_STAT_KEYED 0).set F.TWIN_STAT_HELLO 0
  let s := s.twin.staging.foldl (fun s g =>
    if g.commit.isNone then
      let s := (s.bump F.TWIN_MCNT_DISCARD).event Pg.TWIN 11
      { s with twin := { s.twin with flags := if s.twin.flags.contains g.idx then s.twin.flags else g.idx :: s.twin.flags } }
    else s) s
  let s := { s with twin := { s.twin with staging := s.twin.staging.filter (·.commit.isSome) } }
  let s := { s with
    twin := { s.twin with link := { s.twin.link with rx := none, tx := none } },
    time := { s.time with exchanged := false, twinGood := 0 } }
  ((s.when up fun s => s.event Pg.TWIN 15).set F.TIME_STAT_LOCK 0).holdByTwin

/-- A running eye scan of lane `n` aborts (R207). The counts reached are kept: the bits compared are known on a tree port
alone, elsewhere they and the disagreements are free values (log 126). -/
def scanAbort (s : State) (n : Nat) : State :=
  if !s.is (F.LANE_ES_STAT_BUSY n) then s
  else
    let (e, s) := s.free
    let (b, s) := s.free
    let s := s.setReg (R.LANE_ES_ERR n) (BitVec.ofNat 32 e)
    let bits := if s.continuousLane n then b % 2 ^ s.get (F.LANE_ES_CTL_DWELL n) else (s.lane n).esBits / 65536
    ((s.set (F.LANE_ES_STAT_BITS n) bits).set (F.LANE_ES_STAT_BUSY n) 0).set (F.LANE_ES_STAT_ABORT n) 1

/-- A frame or burst on lane `n` held an invalid code group, or none (R197, R219). How many is not told: one is counted
(DESIGN CHOICE, log 125). The valid groups between frames bring the error count down again. -/
def codeGroups (s : State) (n : Nat) (ok : Bool) : State :=
  let s := s.setLane n { s.lane n with errs := b2n !ok }
  if ok then s else s.bump (F.LANE_CNT_CODEERR n)

/-- Sync of lane `n` falls: an eye scan aborts (R207), an IRC measurement of a cell is discarded (R110); on a twin lane the
bond drops (R201). -/
def laneUnsync (s : State) (n : Nat) : State :=
  let s := ((s.set (F.LANE_STAT_SYNC n) 0).setLane n { s.lane n with errs := 0 }).scanAbort n
  let s := { s with clk := { s.clk with ircFrames := 0 } }
  if s.isHub && (n == 4 || n == 5) && s.is (F.LANE_STAT_BONDED 4) then
    ((s.set (F.LANE_STAT_BONDED 4) 0).set (F.LANE_STAT_REVERSED 4) 0).twinLost
  else s

/-- The monitor of RCVD from lane `n` expects the count of its window at the lane's new rate: RCVD is the line rate / 40
(R101, R122). Where that is no whole number its rounding is not stated: a free value (DEDUCED, log 100). -/
def reloadExpect (s : State) (n : Nat) : State :=
  let w := s.get (F.CLK_MON_CTL_WIN (2 + n)) * (if s.get (F.LANE_CFG_RATE n) = 2 then 50 else 25)
  let (v, s) := s.free
  s.set (F.CLK_MON_CTL_EXPECT (2 + n)) (if w % 32 = 0 then w / 32 else w / 32 + v % 2)

/-- A transition of lane `n` to power state `st` starts (R216). -/
def laneGo (s : State) (n st : Nat) : State :=
  (s.set (F.LANE_PWR_BUSY n) 1).setLane n { s.lane n with target := some st }

/-- Lane `n` is in power state `st` (R215). The receiver of a cell uplink is not touched (R217). -/
def laneEnter (s : State) (n st : Nat) : State :=
  let s := (s.set (F.LANE_PWR_CUR n) st).when (st != 0) (·.scanAbort n)
  if st ≠ 0 && !s.isCell then (s.laneUnsync n).set (F.LANE_STAT_CDR_LOCK n) (if st = 2 then 0 else s.get (F.LANE_STAT_CDR_LOCK n))
  else s

/-- LANE_PWR.REQ takes `st` (R216): latched during a transition, ignored for 3 and while the page is off. -/
def lanePwr (s : State) (n st : Nat) : State :=
  if s.moored n then s.accessErr (Pg.LANE n)
  else if st = 3 then s
  else
    let s := s.set (F.LANE_PWR_REQ n) st
    if s.is (F.LANE_PWR_BUSY n) then
      (s.set (F.LANE_PWR_LATCHED n) 1).setLane n { s.lane n with latched := some st }
    else if s.enabled (Pg.LANE n) && s.get (F.LANE_PWR_CUR n) ≠ st then s.laneGo n st
    else s

/-- The page of lane `n` is enabled: the lane goes to the state that REQ holds. -/
def laneEnable (s : State) (n : Nat) : State :=
  if s.moored n || s.get (F.LANE_PWR_REQ n) == s.get (F.LANE_PWR_CUR n) then s
  else s.laneGo n (s.get (F.LANE_PWR_REQ n))

/-- The page of lane `n` is disabled: the lane is MOORED. -/
def laneDisable (s : State) (n : Nat) : State :=
  let s := s.setLane n { s.lane n with target := none, latched := none }
  ((s.set (F.LANE_PWR_BUSY n) 0).set (F.LANE_PWR_LATCHED n) 0).laneEnter n 2

/-- Lanes that the role and the topology moor go to MOORED (R14). -/
def moorLanes (s : State) : State :=
  forUpTo (fun n t => if t.moored n && t.reg (R.LANE_PWR n) != 0x22 then
    (t.laneDisable n).set (F.LANE_PWR_REQ n) 2 else t) 8 s

/-- An eye scan starts (R206); a GO during a scan is ignored (R207). -/
def eyeScan (s : State) (n : Nat) : State :=
  if s.is (F.LANE_ES_STAT_BUSY n) then s.accessErr (Pg.LANE n)
  else
    let s := (s.set (F.LANE_ES_STAT_BUSY n) 1).set (F.LANE_ES_STAT_DONE n) 0
    let s := s.setLane n { s.lane n with esBits := 0 }
    ((s.set (F.LANE_ES_STAT_ABORT n) 0).set (F.LANE_ES_STAT_BITS n) 0).setReg (R.LANE_ES_ERR n) 0

/-! The pattern generator, R210. -/

/-- The two taps of pattern `poly`; the first is its length. -/
def prbsTaps (poly : Nat) : Nat × Nat :=
  match poly with
  | 0 => (7, 6)
  | 1 => (15, 14)
  | 2 => (23, 18)
  | _ => (31, 28)

/-- The generator's next state: the new bit, the sum of the taps, is bit 0. -/
def prbsStep (poly x : Nat) : Nat :=
  let t := prbsTaps poly
  (2 * x + (x / 2 ^ (t.1 - 1) + x / 2 ^ (t.2 - 1)) % 2) % 2 ^ t.1

/-- The next ten bits, the first as bit 0, and the state after them. -/
def prbsWord (poly x : Nat) : Nat × Nat :=
  (List.range 10).foldl (fun r i => let y := prbsStep poly r.2; (r.1 + y % 2 * 2 ^ i, y)) (0, x)

/-- The generator of lane `n` starts, from all ones (DESIGN CHOICE, log 127). -/
def prbsStart (s : State) (n : Nat) : State :=
  s.setLane n { s.lane n with lfsr := 2 ^ (prbsTaps (s.get (F.LANE_PRBS_CTL_POLY n))).1 - 1, flipNext := false }

/-- Lane `n` sends the next word of its pattern, with bit 0 inverted once after INJ. -/
def prbsSend (s : State) (n : Nat) : State :=
  if s.is (F.LANE_PRBS_CTL_GEN n) && s.laneDrives n then
    let l := s.lane n
    let r := prbsWord (s.get (F.LANE_PRBS_CTL_POLY n)) l.lfsr
    s.setLane n { l with lfsr := r.2, flipNext := false, word := if l.flipNext then r.1 ^^^ 1 else r.1 }
  else s

/-- INJ (R210): ignored while GEN = 0. -/
def prbsInj (s : State) (n : Nat) : State :=
  if s.is (F.LANE_PRBS_CTL_GEN n) then
    (s.count (F.LANE_PRBS_STAT_INJ_CNT n)).setLane n { s.lane n with flipNext := true }
  else s

/-- CLR (R211). -/
def prbsClr (s : State) (n : Nat) : State := s.setReg (R.LANE_PRBS_ERR n) 0

/-- The equaliser settings that a lane uses: MAIN is cut so that PRE + MAIN + POST is at most 63, EQ_CLIP is raised
(R204). -/
def eqClip (s : State) (n r : Nat) : State :=
  if s.active (F.LANE_EQ_PRE n r) + s.active (F.LANE_EQ_MAIN n r) + s.active (F.LANE_EQ_POST n r) > 63 then
    s.event (Pg.LANE n) 17
  else s

/-- MAIN in use, R204. -/
def eqMain (s : State) (n r : Nat) : Nat :=
  min (s.active (F.LANE_EQ_MAIN n r)) (63 - s.active (F.LANE_EQ_PRE n r) - s.active (F.LANE_EQ_POST n r))

/-- Wrong bits join PRBS_ERR, saturating. -/
def prbsErrors (s : State) (n k : Nat) : State := s.bump ⟨R.LANE_PRBS_ERR n, 0, 32⟩ k

end State

open State

/-- SYNC_GAINED: three aligned K28.5 (R197); a cell's rate hunt ends (R196). The receiver is locked then (R219; DEDUCED,
log 124). -/
def execSyncGained (lane : Nat) (s : State) : Out :=
  act s (s.laneRx lane && s.continuousLane lane && decide (lane < 8)) fun s =>
    let s := ((s.set (F.LANE_STAT_SYNC lane) 1).set (F.LANE_STAT_HUNT lane) 0).set (F.LANE_STAT_LOS lane) 0
    let s := (s.set (F.LANE_STAT_CDR_LOCK lane) 1).setLane lane { s.lane lane with errs := 0 }
    s.event (Pg.LANE lane) 10

/-- SYNC_LOST: `codeErrors` invalid code groups more, less those that valid groups took off, bring the error count to 4
(R197). -/
def execSyncLost (lane codeErrors : Nat) (s : State) : Out :=
  act s (s.alive && decide (lane < 8) && s.continuousLane lane && s.is (F.LANE_STAT_SYNC lane)
      && decide (4 ≤ (s.lane lane).errs + codeErrors)) fun s =>
    let s := s.bump (F.LANE_CNT_CODEERR lane) codeErrors
    ((s.bump (F.LANE_CNT_SYNCLOSS lane)).event (Pg.LANE lane) 9).laneUnsync lane

/-- RATE_HUNT_SWITCH: 2 ms without sync. A hunt that restarts tries the rate last in use first (R196). -/
def execRateHuntSwitch (lane : Nat) (s : State) : Out :=
  act s (s.alive && s.isCell && decide (lane < 2) && !s.is (F.LANE_STAT_SYNC lane)) fun s =>
    if s.is (F.LANE_STAT_HUNT lane) then
      ((s.scanAbort lane).set (F.LANE_CFG_RATE lane) (if s.get (F.LANE_CFG_RATE lane) = 2 then 1 else 2)).reloadExpect lane
    else s.set (F.LANE_STAT_HUNT lane) 1

/-- POL_FLIP: eight inverted idle sets or sync words toggle RXINV (R198). -/
def execPolFlip (lane : Nat) (s : State) : Out :=
  act s (s.laneRx lane && decide (lane < 6) && s.is (F.LANE_CFG_AUTOPOL lane)) fun s =>
    let s := s.set (F.LANE_CFG_RXINV lane) (1 - s.get (F.LANE_CFG_RXINV lane))
    (s.bump (F.LANE_CNT_POLFLIP lane)).event (Pg.LANE lane) 11

/-- BOND_ERR: equal LIDs, a sync timeout, excess skew or unequal rates (R201). -/
def execBondErr (why skew : Nat) (s : State) : Out :=
  act s (s.alive && s.isHub && decide (1 ≤ why) && decide (why ≤ 4)) fun s =>
    ((s.set (F.LANE_BOND_WHY 4) why).set (F.LANE_BOND_SKEW 4) skew).event (Pg.LANE 4) 13

/-- LOSS_OF_SIGNAL: the detector finds no light; it works in ACTIVE and IDLE (R215). A cell's receiver tells its own loss of
lock (SPLL_UNLOCK); another lane's is unlocked without light (DEDUCED, log 124). -/
def execLossOfSignal (lane : Nat) (s : State) : Out :=
  act s (s.alive && decide (lane < 8) && !s.moored lane
      && (s.isCell || s.get (F.LANE_PWR_CUR lane) != 2)) fun s =>
    let s := s.when (!s.isCell) (·.set (F.LANE_STAT_CDR_LOCK lane) 0)
    (s.set (F.LANE_STAT_LOS lane) 1).event (Pg.LANE lane) 8

/-- CDR_LOCK: a cell receiver locks (R195). When the selected uplink has failed or has not gained lock since reset,
RCSEL names this lane (R115). -/
def execCdrLock (lane : Nat) (s : State) : Out :=
  act s (s.alive && s.isCell && decide (lane < 2)) fun s =>
    let s := (s.set (F.LANE_STAT_CDR_LOCK lane) 1).set (F.LANE_STAT_LOS lane) 0
    let s := { s with clk := { s.clk with gained := setAt false s.clk.gained lane true } }
    let sel := s.get F.CLK_SRC_RCSEL
    if sel ≠ lane && (s.is (F.CLK_MON_STAT_FAIL (2 + sel)) || !nth s.clk.gained sel false) then
      s.set F.CLK_SRC_RCSEL lane
    else s

/-- PSTATE_DONE: the lane reaches its state and a latched request starts; the event tells that CUR has reached REQ (R216). -/
def execPstateDone (lane : Nat) (s : State) : Out :=
  act s (s.alive && decide (lane < 8) && s.is (F.LANE_PWR_BUSY lane)) fun s =>
    match (s.lane lane).target with
    | some t =>
      let l := (s.lane lane).latched
      let s := s.laneEnter lane t
      let s := s.setLane lane { s.lane lane with target := none, latched := none }
      let s := (s.set (F.LANE_PWR_BUSY lane) 0).set (F.LANE_PWR_LATCHED lane) 0
      match l with
      | some r => if r ≠ t then s.laneGo lane r else s.event (Pg.LANE lane) 16
      | none => s.event (Pg.LANE lane) 16
    | none => s

/-- ES_DONE: 2^(DWELL + 16) bits compared (R206); on a tree port those of the bursts received (R207). -/
def execEsDone (lane errors : Nat) (s : State) : Out :=
  act s (s.laneRx lane && decide (lane < 8) && s.is (F.LANE_ES_STAT_BUSY lane)
      && (s.continuousLane lane || decide (2 ^ (s.get (F.LANE_ES_CTL_DWELL lane) + 16) ≤ (s.lane lane).esBits))) fun s =>
    let s := s.setReg (R.LANE_ES_ERR lane) (BitVec.ofNat 32 (min errors (2 ^ 32 - 1)))
    let s := (s.set (F.LANE_ES_STAT_BITS lane) (2 ^ s.get (F.LANE_ES_CTL_DWELL lane))).set (F.LANE_ES_STAT_BUSY lane) 0
    (s.set (F.LANE_ES_STAT_DONE lane) 1).event (Pg.LANE lane) 14

/-- EYE_SCAN_ABORT: the counts reached are kept (R207). `bits` is in units of 65,536. -/
def execEyeScanAbort (lane errors bits : Nat) (s : State) : Out :=
  act s (s.alive && decide (lane < 8) && s.is (F.LANE_ES_STAT_BUSY lane)) fun s =>
    let s := s.setReg (R.LANE_ES_ERR lane) (BitVec.ofNat 32 (min errors (2 ^ 32 - 1)))
    ((s.set (F.LANE_ES_STAT_BITS lane) bits).set (F.LANE_ES_STAT_BUSY lane) 0).set (F.LANE_ES_STAT_ABORT lane) 1

/-- PRBS_LOCK: 64 consecutive correct bits; the checker of a hub tree port never locks (R210, R211). -/
def execPrbsLock (lane : Nat) (s : State) : Out :=
  act s (s.laneRx lane && decide (lane < 8) && s.continuousLane lane && s.is (F.LANE_PRBS_CTL_CHK lane)) fun s =>
    (s.set (F.LANE_PRBS_STAT_LOCK lane) 1).event (Pg.LANE lane) 15

/-- PRBS_RELOCK: `errors` wrong bits while locked, more than 32 of them within 256 bits: lock is dropped (R210). With
32 or fewer they only count. -/
def execPrbsRelock (lane errors : Nat) (s : State) : Out :=
  act s (s.laneRx lane && decide (lane < 8) && s.is (F.LANE_PRBS_CTL_CHK lane) && s.is (F.LANE_PRBS_STAT_LOCK lane)) fun s =>
    let s := s.prbsErrors lane errors
    if errors > 32 then (s.set (F.LANE_PRBS_STAT_LOCK lane) 0).bump (F.LANE_PRBS_STAT_RELOCKS lane) else s

end Sys2Proof.Machine
end

