-- ==== Sys2Proof/Machine/Gate.lean ====
section
/-! DEFINITION. The gate block of a cell and the TEV outputs of a hub (15_cell_power_stage.md). Fault sources are numbered
as the bits of GATE_FLT: 0 TRIP0, 1 TRIP1, 2 OV, 3 OC. Instants are in units of 2^-32 ns. -/

namespace Sys2Proof.Machine

/-- The code of a cell state, R253. -/
def CellState.code : CellState → Nat
  | .bypass => 0
  | .pos => 1
  | .neg => 2
  | .block => 3

/-- The cell state of a code. -/
def CellState.ofCode (n : Nat) : CellState :=
  match n % 4 with
  | 0 => .bypass
  | 1 => .pos
  | 2 => .neg
  | _ => .block

/-- Is the cell state inserted? -/
def CellState.inserted : CellState → Bool
  | .pos | .neg => true
  | _ => false

/-- The state an event asks for, if it asks for one (R255 to R257). -/
def EvAct.target : EvAct → Option CellState
  | .byp => some .bypass
  | .insPos => some .pos
  | .insNeg => some .neg
  | .blockCell => some .block
  | .trim on _ => some on
  | .swap d => some d
  | .fireThy | .permBypass => none

namespace State

/-- `n` nanoseconds in units of network time. -/
def nsUnits (n : Nat) : Nat := n * unitsPerNs

/-- DEAD in force, R465. -/
def deadTime (s : State) : Nat := nsUnits (10 * max 20 (min 1600 (s.active F.GATE_TIME_DEAD)))

/-- T_S = max(MINP, DEAD), R464. -/
def pulseMin (s : State) : Nat := max s.deadTime (nsUnits (10 * max 50 (min 5000 (s.active F.GATE_TIME_MINP))))

/-- The filter time in ns of a TF0 or TF1 field, R483. -/
def filterNs (tf : Nat) : Nat :=
  match tf with
  | 0 => 0
  | 1 => 50
  | 2 => 100
  | 3 => 200
  | 4 => 500
  | _ => 1000

/-- Has a TRIP input that has been low for `low` ns passed its filter? With no filter a low level asserts at once. -/
def passesFilter (tf low : Nat) : Bool := filterNs tf == 0 || decide (filterNs tf < low)

/-- Is the cell FULL? -/
def full (s : State) : Bool := s.is F.GATE_CFG_TOPO

/-- An EVFLAGS bit of R284 is set. -/
def evFlag (s : State) (b : Nat) : State := { s with gate := { s.gate with flags := s.gate.flags ||| 1 <<< b } }

/-- Is the gate block in STOP (R475)? -/
def inStop (s : State) : Bool := s.gate.stops != []

/-- The pair of the bypass state, R461: is it the upper one? -/
def upperBypass (s : State) : Bool :=
  match s.get F.GATE_CFG_BYPSEL with
  | 1 => true
  | 2 => s.gate.state.inserted && s.gate.nextUpper
  | _ => false

/-- The legs of a state, R460. -/
def legsOf (s : State) (st : CellState) : Leg × Leg :=
  if s.full then
    match st with
    | .bypass => if s.upperBypass then (.upper, .upper) else (.lower, .lower)
    | .pos => (.upper, .lower)
    | .neg => (.lower, .upper)
    | .block => (.off, .off)
  else
    match st with
    | .bypass => (.lower, .off)
    | .pos => (.upper, .off)
    | .neg | .block => (.off, .off)

/-! Dead-time compensation, R466. -/

/-- The sign of the arm current by the last M1 window mean, 0 inside the deadband. -/
def armSign (s : State) : Int :=
  let i := sToD (nth s.adc.last 1 {}).mean
  let band := dRat (s.active F.GATE_DTC_IDB) 10
  if dLt band i then 1 else if dLt i (dNeg band) then -1 else 0

/-- Terminal level of a leg: the switch that is on, or the diode that carries the current. -/
def legLevel (l : Leg) (diodeUp : Bool) : Int :=
  match l with
  | .upper => 1
  | .lower => 0
  | .off => if diodeUp then 1 else 0

/-- The terminal state with the given switches on, for a current of sign `sg`, not 0. -/
def terminal (s : State) (a b : Leg) (sg : Int) : CellState :=
  if s.full then
    match legLevel a (0 < sg) - legLevel b (sg < 0) with
    | 1 => .pos
    | 0 => .bypass
    | _ => .neg
  else if legLevel a (0 < sg) = 1 then .pos else .bypass

/-- How far an edge from the state in force to `st` with legs `a`, `b` is shifted ahead (R466). -/
def edgeLead (s : State) (st : CellState) (a b : Leg) : Nat :=
  if !s.is F.GATE_CFG_DTC then 0
  else
    let sg := s.armSign
    let stays (cur new : Leg) : Leg := if cur = new then cur else .off
    let term (c : CellState) : CellState := if c = .block then s.terminal .off .off sg else c
    let dt := s.terminal (stays s.gate.legA a) (stays s.gate.legB b) sg
    if sg = 0 then s.deadTime / 2
    else if dt = term st then 0
    else if dt = term s.gate.state then s.deadTime
    else s.deadTime / 2

/-- A leg going to `new` at an edge: what it shows now and what turns on after the dead time. -/
def legStep (cur new : Leg) : Leg × Option Leg :=
  if cur = new then (cur, none) else (.off, if new = .off then none else some new)

/-- Where an edge of instant `t` is placed (R467): its TCLK tick, and the tap round(f * TAPS / (64 * P)) of its offset f,
in 1/64 ns, from that tick. With FAULT set it is placed on the nearest tick (R469). Ticks lie at the whole multiples of
the TCLK period in network time (DESIGN CHOICE, log 135). -/
def placeEdge (s : State) (t : Nat) : Nat × Nat :=
  let p := max 1 (s.domPeriod 0)
  if s.is F.GATE_DLCAL_FAULT then ((2 * t + p) / (2 * p), 0)
  else
    let f := (t % p + 2 ^ 25) / 2 ^ 26
    (t / p, (2 * f * s.get F.GATE_DLCAL_TAPS * 2 ^ 26 + p) / (2 * p))

/-- The edge to state `st` at instant `t` of a request made at `q` (R463, R466). -/
def edge (s : State) (st : CellState) (t q : Nat) : State :=
  let l := s.legsOf st
  let lead := s.edgeLead st l.1 l.2
  let late := lead ≠ 0 ∧ t < q + s.deadTime + nsUnits 50
  let s' := if late then (s.bump F.GATE_CNT2_NOCOMP).event Pg.GATE 14 else s
  let lead := if late then 0 else lead
  let a := legStep s.gate.legA l.1
  let b := legStep s.gate.legB l.2
  let alt := s.gate.state.inserted && st == .bypass && s.get F.GATE_CFG_BYPSEL == 2
  { s'.ltAdd 0 1 with gate := { s'.gate with
      state := st, legA := a.1, riseA := a.2, legB := b.1, riseB := b.2,
      nextUpper := if alt then !s.gate.nextUpper else s.gate.nextUpper,
      lastAt := some t, dropped := none, falls := t - lead, rises := t - lead + s.deadTime,
      fallsAt := s.placeEdge (t - lead), risesAt := s.placeEdge (t - lead + s.deadTime) } }

/-- The commanded state: the one in force, or the one that a short pulse dropped at its own instant asked for (R464). -/
def commandedState (s : State) : CellState := s.gate.dropped.getD s.gate.state

/-- The gate block enters block by a request (R462): the edge to block levels, DB clears (R519). -/
def blockEdge (s : State) (t q : Nat) : State :=
  let s := if s.gate.state = .block then s else s.edge .block t q
  { s with gate := { s.gate with blocked := true, dropped := none }, safe := { s.safe with db := false } }

/-- The earliest held request that leaves state `st` (R464): queued events, the end of a running trim pulse, a carrier
edge. -/
def nextHeld (s : State) (st : CellState) : Option Nat :=
  let evs := s.rx.events.filterMap fun e => match e.act.target with
    | some x => if x = st then none else some e.instant
    | none => none
  let also (l : List Nat) (e : Option (Nat × CellState × Nat)) : List Nat := match e with
    | some (t, x, _) => if x = st then l else t :: l
    | none => l
  let all := also (also evs s.gate.trimEnd) s.cmod.edge
  all.foldl (fun m t => some (match m with | some x => min x t | none => t)) none

/-- A request for bypass or insertion is discarded, R462 and R475. -/
def discard (s : State) : State := s.bump F.GATE_CNT2_DISC

/-- Do the outputs show the state in force, or are they on their way to it? A stop may have cancelled a turn-on of a FULL
cell (R475): its next request then acts. -/
def formed (s : State) : Bool :=
  let l := (s.gate.legA, s.gate.legB)
  s.gate.riseA.isSome || s.gate.riseB.isSome || !s.full || match s.gate.state with
    | .bypass => l == (.lower, .lower) || l == (.upper, .upper)
    | .pos => l == (.upper, .lower)
    | .neg => l == (.lower, .upper)
    | .block => true

/-- A request for state `st` at instant `t`, made at `q`; `own` is the instant at which the request itself is followed by
another one (the end of a trim pulse). R462 to R464, R478. -/
def request (s : State) (st : CellState) (t q : Nat) (own : Option Nat) : State :=
  if s.gate.pbyp then s
  else if st = s.gate.state ∧ (if st = .block then s.gate.blocked else s.formed) then { s with gate := { s.gate with dropped := none } }
  else if s.inStop then s.discard
  else if st = .block then s.blockEdge t q
  else if s.gate.blocked ∨ s.gate.latch ≠ 0 then s.discard
  else if st = .neg ∧ !s.full then s
  else
    let next := match own, s.nextHeld st with
      | some a, some b => some (min a b)
      | some a, none => some a
      | none, n => n
    let short := match next with
      | some n => decide (n < t + s.pulseMin)
      | none => false
    let near := match s.gate.lastAt with
      | some l => decide (t < l + s.pulseMin)
      | none => false
    if short then
      let s := (s.bump F.GATE_CNT_SHORT).evFlag 4
      { s with gate := { s.gate with dropped := some st } }
    else if near then s.bump F.GATE_CNT_LATEP
    else s.edge st t q

/-! Bypass thyristor and permanent bypass. -/

/-- A pulse train on GATE4 starts (R476). -/
def fireThy (s : State) : State :=
  { s with gate := { s.gate with thyLeft := max 1 (s.get F.GATE_THY_N), gate4 := true } }

/-- Type 0x26 of the black box (R637): BLOCK_CELL (3), FIRE_THY (5), PERM_BYPASS (6). -/
def bbAction (s : State) (code : Nat) : State := s.bbWrite 0x26 code [s.cycle % 2 ^ 32]

/-- The permanent bypass sequence starts (R477): at most once. -/
def permBypass (s : State) : State :=
  if s.gate.pbyp then s
  else
    let s := { s with
      gate := { s.gate with pbyp := true, state := .block, blocked := true, dropped := none, gate5 := true, gate5Run := true },
      safe := { s.safe with db := false } }
    let s := s.when (s.is F.GATE_PBY_THY) fireThy
    ((s.event Pg.GATE 10).bbAction 6).bbFreeze 4

/-! Faults. -/

/-- Queued requests for bypass or insertion, a running trim pulse's end and a carrier edge are discarded (R471 step 4); a
trim pair is two requests. -/
def flushRequests (s : State) : State :=
  let keep (e : CellEvent) : Bool := match e.act with
    | .blockCell | .fireThy | .permBypass => true
    | _ => false
  let size (e : CellEvent) : Nat := match e.act with
    | .trim .. => 2
    | _ => 1
  let n := ((s.rx.events.filter (fun e => !keep e)).map size).sum + b2n s.gate.trimEnd.isSome + b2n s.cmod.edge.isSome
  let s := { s with
    rx := { s.rx with events := s.rx.events.filter keep }, gate := { s.gate with trimEnd := none, dropped := none }
    cmod := { s.cmod with edge := none } }
  s.bump F.GATE_CNT2_FLUSH n

/-- The word of GATE_STATE (R483). -/
def gateState (s : State) : Nat :=
  let pin (l : Leg) : Nat := match l with | .off => 0 | .upper => 1 | .lower => 2
  let g := s.gate
  let blockState := g.blocked && g.state == .block
  (if g.latch ≠ 0 ∨ g.pbyp ∨ blockState then 3 else g.state.code) + pin g.legA <<< 8 + pin g.legB <<< 10
    + b2n g.gate4 <<< 12 + b2n g.gate5 <<< 13 + b2n (g.riseA.isSome || g.riseB.isSome) <<< 16
    + b2n s.inStop <<< 17 + b2n g.pbyp <<< 18 + b2n (g.thyLeft != 0) <<< 19 + b2n (g.latch != 0) <<< 20
    + b2n (s.blkSeenNow || (s.safe.plaus && s.is F.SAFE_CCFG_PLACT)) <<< 21

/-- Source `n` asserts (R470, R471): its EVFLAGS bit is set; an enabled source latches, forces the safe levels (the
forcing itself is `forceGates`), discards the queued requests and raises FAULT. -/
def faultLatch (s : State) (n : Nat) : State :=
  let s := { s.evFlag n with gate := { (s.evFlag n).gate with live := s.gate.live ||| 1 <<< n } }
  if bitOf (s.get F.GATE_CFG_FEN) n then
    let new := !bitOf s.gate.latch n
    let s := { s with gate := { s.gate with latch := s.gate.latch ||| 1 <<< n } }
    let s := (s.flushRequests.event Pg.GATE 8)
    if new then
      let s := { s.ltAdd 1 1 with safe := { s.safe with db := false } }
      (s.bbWrite 0x21 s.gate.latch [s.cycle % 2 ^ 32, s.gateState]).bbFreeze 1
    else s
  else s

/-- A TRIP0 assertion: counted, and two within DSWIN start the permanent bypass (R477). -/
def desaturation (s : State) : State :=
  let s := s.bump F.GATE_CNT2_DESAT
  let win := nsUnits (1000000 * max 1 (s.get F.GATE_PBY_DSWIN))
  let twice := match s.gate.trip0At with
    | some t => decide (s.now ≤ t + win)
    | none => false
  let s := { s with gate := { s.gate with trip0At := some s.now } }
  s.when (twice && s.is F.GATE_PBY_DSEN) permBypass

/-- The level at TRIP0 or TRIP1 where it is the source `n`: low is the fault (R32, R470). -/
def tripLevel (s : State) (n : Nat) (v : Bool) : State :=
  if n = 0 then { s with pins := { s.pins with trip0 := v } }
  else if n = 1 then { s with pins := { s.pins with trip1 := v } }
  else s

/-- A fault source asserts, its filter or comparator having ended. -/
def faultSource (s : State) (n : Nat) : State := ((s.tripLevel n false).faultLatch n).when (n == 0) desaturation

/-- The gate block's part of the part: a cell whose ROLE has been read (R500, R508). -/
def gateLive (s : State) : Bool := s.alive && s.isCell

/-! Events at their launch instants, R267. -/

/-- The event that falls due next, if its action passes `p`. -/
def dueEvent (s : State) (p : EvAct → Bool) : Option CellEvent :=
  match s.rx.events with
  | e :: _ => if p e.act then some e else none
  | [] => none

/-- The head of the event queue is taken, and time has reached its instant. -/
def takeEvent (s : State) (e : CellEvent) : State :=
  { s.reach e.instant with rx := { s.rx with events := s.rx.events.tail } }

/-- The request of an event that moves the cell to a state. -/
def moveEvent (s : State) (e : CellEvent) : State :=
  match e.act.target with
  | some st => s.request st e.instant e.queuedAt none
  | none => s

/-- A trim pulse: the on-state at the launch instant; the end of the pulse is held as a second request (R256, R462). -/
def trimEvent (s : State) (e : CellEvent) (on : CellState) (w : Nat) : State :=
  let before := s.commandedState
  let s' := s.request on e.instant e.queuedAt (some (e.instant + w))
  if s'.commandedState = on then
    { s' with gate := { s'.gate with trimEnd := some (e.instant + w, before, e.queuedAt) } }
  else s'

/-- The end of a running trim pulse whose instant is not after `t`: a request for the state before the pulse (R256). -/
def trimOver (s : State) (t : Nat) : State :=
  match s.gate.trimEnd with
  | some (e, st, q) =>
    if e ≤ t then { s with gate := { s.gate with trimEnd := none } }.request st e q none else s
  | none => s

/-- In STOP a timed request is discarded (R475); otherwise `f`. -/
def unlessStopped (s : State) (f : State → State) : State := if s.inStop then s.discard else f s

end State

open State

/-- An event of an action `p` is executed by `f`; the end of a trim pulse at or before its instant comes first (R464). -/
def runEvent (s : State) (p : EvAct → Bool) (f : State → CellEvent → State) : Out :=
  match s.dueEvent p with
  | some e => act s s.gateLive fun s => f ((s.trimOver e.instant).takeEvent e) e
  | none => .next s

/-- EVENT_BYP. -/
def execEventByp (s : State) : Out := runEvent s (· == .byp) moveEvent

/-- EVENT_INS_POS. -/
def execEventInsPos (s : State) : Out := runEvent s (· == .insPos) moveEvent

/-- EVENT_INS_NEG. -/
def execEventInsNeg (s : State) : Out := runEvent s (· == .insNeg) moveEvent

/-- EVENT_BLOCK_CELL: executed in every state but the permanent bypass and STOP (R462). -/
def execEventBlockCell (s : State) : Out :=
  runEvent s (· == .blockCell) fun s e =>
    if s.gate.pbyp then s else s.unlessStopped fun s => (s.moveEvent e).bbAction 3

/-- EVENT_TRIM (R256). -/
def execEventTrim (s : State) : Out :=
  runEvent s (fun a => match a with | .trim .. => true | _ => false) fun s e =>
    match e.act with
    | .trim on w => s.trimEvent e on w
    | _ => s

/-- TRIM_END: after W the berth returns to the state before the pulse (R256). -/
def execTrimEnd (s : State) : Out :=
  match s.gate.trimEnd with
  | some (t, _, _) => act s s.gateLive fun s => (s.reach t).trimOver t
  | none => .next s

/-- EVENT_FIRE_THY: executed in block and fault too (R462, R476). -/
def execEventFireThy (s : State) : Out :=
  runEvent s (· == .fireThy) fun s _ =>
    if s.gate.pbyp then s else s.unlessStopped fun s => s.fireThy.bbAction 5

/-- EVENT_PERM_BYPASS (R477). -/
def execEventPermBypass (s : State) : Out :=
  runEvent s (· == .permBypass) fun s _ => s.unlessStopped permBypass

/-- EVENT_SWAP_HEAD (R257). -/
def execEventSwapHead (s : State) : Out :=
  runEvent s (fun a => match a with | .swap _ => true | _ => false) moveEvent

/-- DEAD_TIME_TURN_ON: at e + TDEAD the rising outputs of the edge turn on (R463). -/
def execDeadTimeTurnOn (s : State) : Out :=
  act s (s.gateLive && (s.gate.riseA.isSome || s.gate.riseB.isSome)) fun s =>
    { s.reach s.gate.rises with gate := { s.gate with
        legA := s.gate.riseA.getD s.gate.legA, riseA := none,
        legB := s.gate.riseB.getD s.gate.legB, riseB := none } }

/-- FAULT_ASSERT: TRIP0 or TRIP1, low for longer than its filter, or the overvoltage or overcurrent comparator
asserts (R470). -/
def execFaultAssert (input : FaultInput) (s : State) : Out :=
  act s (s.gateLive && match input.source with
    | 0 => passesFilter (s.get F.GATE_TRIPF_TF0) input.low
    | 1 => passesFilter (s.get F.GATE_TRIPF_TF1) input.low
    | n => decide (n < 4)) (·.faultSource input.source)

/-- SAFE_LEVEL_TURN_ON: the fault logic's delay has passed and GATE_SAFE outputs turn on (R471 step 3). -/
def execSafeLevelTurnOn (s : State) : Out :=
  act s (s.gateLive && s.gate.latch != 0 && !s.gate.pbyp) fun s => { s with gate := { s.gate with safeOn := true } }

namespace State

/-- A cause of STOP begins; a HALF cell goes to block and is deblocked no more, a FULL cell freezes (R475). -/
def gateStop (s : State) (cause : StopCause) : State :=
  let first := !s.inStop
  let stops := if s.gate.stops.contains cause then s.gate.stops else cause :: s.gate.stops
  let s := { s with gate := { s.gate with stops := stops, riseA := none, riseB := none } }
  let s := if s.full then s
    else { s with gate := { s.gate with state := .block, blocked := true, dropped := none, legA := .off, legB := .off }, safe := { s.safe with db := false } }
  s.when first fun s => s.event Pg.GATE 12

/-- A cause of STOP ends. -/
def gateResume (s : State) (cause : StopCause) : State :=
  { s with gate := { s.gate with stops := s.gate.stops.filter (· != cause) } }

/-- Is EN of the GATE page what a page cause of STOP needs? -/
def pageCause (s : State) (cause : StopCause) (en : Bool) : Bool := cause != .page || s.is (F.PG_CTRL_EN Pg.GATE) == en

end State

/-- GATE_STOP_ENTER: a cause of STOP begins. -/
def execGateStopEnter (cause : StopCause) (s : State) : Out :=
  act s (s.gateLive && s.pageCause cause false) fun s => s.gateStop cause

/-- GATE_STOP_EXIT: a cause of STOP ends. -/
def execGateStopExit (cause : StopCause) (s : State) : Out :=
  act s (s.gateLive && s.pageCause cause true) fun s => s.gateResume cause

/-- THYRISTOR_PULSE: PW or PER expires within the train: GATE4 falls, or rises for the next pulse. With PER ≤ PW it stays
high (R476). -/
def execThyristorPulse (s : State) : Out :=
  act s (s.gateLive && s.gate.thyLeft != 0) fun s =>
    if max 1 (s.get F.GATE_THY_PER) ≤ max 1 (s.get F.GATE_THY_PW) then
      if s.gate.thyLeft ≤ 1 then s else { s with gate := { s.gate with thyLeft := s.gate.thyLeft - 1 } }
    else if s.gate.gate4 then { s with gate := { s.gate with gate4 := false } }
    else if s.gate.thyLeft ≤ 1 then s
    else { s with gate := { s.gate with gate4 := true, thyLeft := s.gate.thyLeft - 1 } }

/-- THY_DONE: the train ends after N pulses (R476). -/
def execThyDone (s : State) : Out :=
  act s (s.gateLive && s.gate.thyLeft == 1) fun s =>
    { s.event Pg.GATE 11 with gate := { s.gate with thyLeft := 0, gate4 := false } }

/-- GATE5_RELEASE: after W x 10 ms GATE5 is driven low and the sequence ends (R477). -/
def execGate5Release (s : State) : Out :=
  act s (s.gateLive && s.gate.gate5Run) fun s => { s with gate := { s.gate with gate5 := false, gate5Run := false } }

/-- DELAY_LINE_CAL: TAPS is the mean of the last 16 counts (R467); outside 64 to 511 FAULT is set until a calibration lands
in range again (R469). -/
def execDelayLineCal (taps : Nat) (s : State) : Out :=
  act s (s.gateLive && s.get (F.CLK_DOM_CURSRC 0) != 3) fun s =>
    let l := (taps :: s.gate.taps).take 16
    let s := { s with gate := { s.gate with taps := l } }
    if l.length < 16 then s
    else
      let m := l.sum / 16
      let s := (s.set F.GATE_DLCAL_TAPS m).set F.GATE_DLCAL_VALID 1
      if m < 64 ∨ 511 < m then
        if s.is F.GATE_DLCAL_FAULT then s else (s.set F.GATE_DLCAL_FAULT 1).event Pg.GATE 13
      else s.set F.GATE_DLCAL_FAULT 0

/-- FAULT_SOURCE_RELEASE: a source stops asserting; its LIVE bit clears, its latch stays (R474). -/
def execFaultSourceRelease (source : Nat) (s : State) : Out :=
  act s (s.gateLive && decide (source < 4)) fun s =>
    { s.tripLevel source true with gate := { s.gate with live := s.gate.live &&& (15 - 1 <<< source) } }

namespace State

/-- GATE_FCLR.CLR (R474): every latch clears only when no enabled source is asserted. -/
def gateClear (s : State) : State :=
  if s.gate.live &&& s.get F.GATE_CFG_FEN ≠ 0 then (s.bump F.GATE_CNT_REFCLR).event Pg.GATE 9
  else if s.gate.latch = 0 then s
  else { s with gate := { s.gate with
      latch := 0, safeOn := false, state := .block, blocked := true, legA := .off, legB := .off } }

/-! TEV outputs, R480 and R481. -/

/-- The first instant of TEVn: the seconds above bit 31 are those nearest the hub's time. -/
def tevInstant (s : State) (n : Nat) : Nat :=
  let lo := (s.reg (R.TEV_SL n)).toNat
  let near (t : Nat) : Nat :=
    let c := t / 2 ^ 32 * 2 ^ 32 + lo
    if c + 2 ^ 31 < t then c + 2 ^ 32 else if t + 2 ^ 31 < c ∧ 2 ^ 32 ≤ c then c - 2 ^ 32 else c
  near s.seconds * unitsPerSec + min 999999999 (s.get (F.TEV_NS_NS n)) * unitsPerNs
    + s.get (F.TEV_CTL_FR n) * unitsPer64

/-- A write of ARM = 1: refused when the instant is less than 1 us ahead. -/
def tevArm (s : State) (n : Nat) : State :=
  if s.tevInstant n < s.now + nsUnits 1000 then s.event Pg.GATE 22
  else
    let s := s.set (F.TEV_CTL_ARM n) 1
    { s with gate := { s.gate with tevNext := setAt 0 s.gate.tevNext n (s.tevInstant n) } }

/-- DISARM: the level is kept, that of a pulse in progress too (R481). -/
def tevDisarm (s : State) (n : Nat) : State :=
  { s.set (F.TEV_CTL_ARM n) 0 with gate := { s.gate with tevEnd := setAt none s.gate.tevEnd n none } }

/-- Does a periodic output stay high from its first pulse: W * 10 ns is not less than PER us (R481)? -/
def tevHolds (s : State) (n : Nat) : Bool :=
  s.get (F.TEV_CTL_ACT n) == 3 && decide (1000 * max 1 (s.get (F.TEV_W_PER n)) ≤ 10 * max 1 (s.get (F.TEV_W_W n)))

end State

/-- TEV_FIRED: the output reaches its instant and acts (R480). -/
def execTevFired (n : Nat) (s : State) : Out :=
  act s (s.alive && s.isHub && s.runs Pg.GATE && decide (n < 6) && s.is (F.TEV_CTL_ARM n)) fun s =>
    let a := s.get (F.TEV_CTL_ACT n)
    let s := s.reach (nth s.gate.tevNext n 0)
    let from0 := nth s.gate.tevNext n 0
    let ends := if s.tevHolds n then none else if 2 ≤ a then some (from0 + nsUnits (10 * max 1 (s.get (F.TEV_W_W n)))) else none
    let s := { s with gate := { s.gate with
      tev := setAt false s.gate.tev n (a != 0), tevEnd := setAt none s.gate.tevEnd n ends } }
    let s := s.event Pg.GATE (16 + n)
    if a = 3 then
      let t := nth s.gate.tevNext n 0 + nsUnits (1000 * max 1 (s.get (F.TEV_W_PER n)))
      { s with gate := { s.gate with tevNext := setAt 0 s.gate.tevNext n t } }
    else s.set (F.TEV_CTL_ARM n) 0

/-- TEV_PULSE_END: W x 10 ns after a pulse starts the output returns low (R480). -/
def execTevPulseEnd (n : Nat) (s : State) : Out :=
  match nth s.gate.tevEnd n none with
  | some t => act s (s.alive && s.isHub && decide (n < 6)) fun s =>
      let s := s.reach t
      { s with gate := { s.gate with tev := setAt false s.gate.tev n false, tevEnd := setAt none s.gate.tevEnd n none } }
  | none => .next s

end Sys2Proof.Machine
end

