-- ==== Sys2Proof/Machine/Berths.lean ====
section
/-! DEFINITION. The berth table and the management queues of a hub as data (R286, R290, R329): accessors, and the queuing
of one record. -/

namespace Sys2Proof.Machine

namespace State

/-- Entry `i` of the berth table. -/
def berth (s : State) (i : Nat) : BerthSt := (kvFind s.berths i).getD {}

/-- `s` with entry `i` being `b`; a vacant entry is not listed. -/
def setBerth (s : State) (i : Nat) (b : BerthSt) : State :=
  { s with berths := if b = {} then kvErase s.berths i else kvSet s.berths i b }

/-- Tree port `p`. -/
def port (s : State) (p : Nat) : PortSt := nth s.ports p {}

def setPort (s : State) (p : Nat) (x : PortSt) : State := { s with ports := setAt {} s.ports p x }

/-- The indices of the berths that pass a test, ascending. -/
def berthsWith (s : State) (p : Nat → BerthSt → Bool) : List Nat :=
  (s.berths.filter fun e => p e.1 e.2).map (·.1)

/-- Is the berth admitted or silent on this hub's tree: it holds keys, slot and delays (R321)? -/
def held (b : BerthSt) : Bool := b.link == .admitted || b.link == .silent

/-- The marks of a record queued now: presence (R92) and seal (R176). -/
def markBits (s : State) : Nat := b2n s.sec.presOpen <<< 7 + b2n (s.sec.sealOpen == some true) <<< 6

/-- Is there room for a record on port `p` (R290)? -/
def mgmtRoom (s : State) (p : Nat) : Bool := decide ((s.port p).mq.length < 64)

/-- A record joins the queue of port `p` under the next TID; the answer is the TID (R290). -/
def mgmtQueue (s : State) (p : Nat) (r : MgmtRec) : Nat × State :=
  let q := s.port p
  (q.nextTid, s.setPort p { q with mq := q.mq ++ [{ r with tid := q.nextTid }], nextTid := (q.nextTid + 1) % 256 })

/-- A record of the hub itself: it joins the queue of port `p`, or waits for room there (log 128). -/
def hubRecord (s : State) (p : Nat) (r : MgmtRec) : State :=
  if s.mgmtRoom p ∧ (s.port p).wait = [] then (s.mgmtQueue p r).2
  else s.setPort p { s.port p with wait := (s.port p).wait ++ [r] }

/-- Waiting records of the hub join the queue of port `p` as room appears. -/
def refill (s : State) (p : Nat) : State :=
  let q := s.port p
  let n := 64 - q.mq.length
  (q.wait.take n).foldl (fun t r => (t.mgmtQueue p r).2) (s.setPort p { q with wait := q.wait.drop n })

/-- The body of a WR record: register address, two zero bytes, the words (R286). -/
def wrBody (addr : Nat) (ws : List Word) : List Byte := beBytes 2 addr ++ [0, 0] ++ ws.flatMap fun w => beBytes 4 w.toNat

/-- May the berth be deblocked, R516? -/
def mayDeblock (b : BerthSt) : Bool := b.assign != 0 && b.link == .admitted && !b.restricted && !b.perm

/-- The deblock record of a berth (R516). -/
def deblockRecord (s : State) (i : Nat) : MgmtRec :=
  { berth := i % 256, rtype := 2, tid := 0, marks := s.markBits, body := wrBody R.SAFE_CCMD [0x0DB1],
    src := .deblock, deblock := true }

/-- The next berth of the sequencer gets its record, if its port has room; a berth that no longer qualifies is passed
over (R516). -/
def sequence (s : State) : State :=
  match s.safe.seqLeft with
  | [] => s
  | i :: rest =>
    if !mayDeblock (s.berth i) then { s with safe := { s.safe with seqLeft := rest } }
    else if s.mgmtRoom (i / 256) then
      let s := (s.mgmtQueue (i / 256) (s.deblockRecord i)).2
      { s with safe := { s.safe with seqLeft := rest, seqOpen := s.safe.seqOpen ++ [i] } }
    else s

/-- A deblock record for one berth that meets R516 (R517). -/
def deblockOne (s : State) (i : Nat) : State :=
  { s with safe := { s.safe with seqLeft := s.safe.seqLeft ++ [i] } }.sequence

/-- With AUTODB a berth that becomes admitted or leaves RESTRICTED while DEBLOCKED gets a record (R517). -/
def autoDeblock (s : State) (i : Nat) : State :=
  s.when (s.safe.vb && s.is F.SAFE_HCFG_AUTODB && mayDeblock (s.berth i)) (·.deblockOne i)

end State

end Sys2Proof.Machine
end

