-- ==== Sys2Proof/Machine/Safety.lean ====
section
/-! DEFINITION. Valve Block at the hub and block detection at the cell (17_safety.md). -/

namespace Sys2Proof.Machine

namespace State

/-! The hub. -/

/-- A source of channel A asserts: `bit` of ALATCH (R509). A new latch measures its reactions (R524). -/
def latchSource (s : State) (bit : Nat) : State :=
  let s := s.event Pg.SAFE 10
  let rising := s.safe.alatch = 0
  let new := !bitOf s.safe.alatch bit
  let s := { s with safe := { s.safe with alatch := s.safe.alatch ||| 1 <<< bit } }
  let s := if rising then
      let s := (s.bump F.SAFE_HCNT_LATCHES).ltAdd 1 1
      { s with recd := { s.recd with rose := true }, safe := { s.safe with alatchAt := some s.now } }
    else s
  if new then
    let s := { s with safe := { s.safe with latchAt := some s.now } }
    if (List.range 4).any (fun p => s.get (F.LANE_PWR_CUR p) == 0) then
      let (ns, s) := s.free
      (s.set F.SAFE_HREACT_A (min 65535 (ns / 10))).monitorSel 10 0 (signed 32 ns)
    else s
  else s

/-- Set or clear a bit of `asserted`. -/
def assertBit (s : State) (b : Nat) (on : Bool) : State :=
  { s with safe := { s.safe with asserted := if on then s.safe.asserted ||| 1 <<< b else s.safe.asserted &&& (31 - 1 <<< b) } }

/-- The bit of `asserted` of a pin. -/
def pinBit : BlockPin → Nat
  | .trip0 => 0
  | .trip1 => 1
  | .safeA => 2
  | .safeB => 3

/-- The level of a block input. -/
def setBlockPin (s : State) (p : BlockPin) (v : Bool) : State :=
  match p with
  | .trip0 => { s with pins := { s.pins with trip0 := v } }
  | .trip1 => { s with pins := { s.pins with trip1 := v } }
  | .safeA => { s with pins := { s.pins with safeA := v } }
  | .safeB => { s with pins := { s.pins with safeB := v } }

/-- A channel B block request of source `src`: 0 firmware, 1 deadline, 2 current check, 3 redundancy, 4 following error,
5 debug (R511). BREQ is raised at its rising edge (R512). -/
def blockRequest (s : State) (src : Nat) : State :=
  let s' := s.when (!s.safe.breq) fun s => s.event Pg.SAFE 15
  { s' with safe := { s'.safe with breq := true, breqSrc := s.safe.breqSrc ||| 1 <<< src } }

/-- The first test of R515 that fails, 0 for none. -/
def deblockTest (s : State) : Nat :=
  if s.safe.startup ≠ 2 then 1
  else if s.safe.alatch ≠ 0 then 2
  else if s.safe.breq then 3
  else if !s.hubDrives then 4
  else if !s.meridiansOn then 5
  else 0

/-- The berths of R516 in ascending order, which is port by port. -/
def deblockList (s : State) : List Nat := s.berthsWith fun _ b => mayDeblock b

/-- DEBLOCK (R515, R516). -/
def hubDeblockCmd (s : State) : State :=
  let w := s.deblockTest
  if w ≠ 0 then ((s.bump F.SAFE_HDBLK_REFUSED).set F.SAFE_HDBLK_WHY w).event Pg.SAFE 13
  else
    let s := if s.safe.vb then s else s.event Pg.SAFE 9
    { s with safe := { s.safe with vb := true, seqLeft := s.deblockList } }

/-- ACLR (R509). -/
def hubAclrCmd (s : State) : State :=
  if s.safe.asserted ≠ 0 then (s.bump F.SAFE_HCNT_ACLRREF).event Pg.SAFE 14
  else { s with safe := { s.safe with alatch := 0 } }

/-- BCLR (R511). -/
def hubBclrCmd (s : State) : State := { s with safe := { s.safe with breq := false, breqSrc := 0 } }

/-- A write of SAFE_HCMD; another code is ignored with ACCESS_ERR (R528). -/
def hubCommand (s : State) (code : Nat) : State :=
  if code = 0x0DB1 then s.hubDeblockCmd
  else if code = 0x0AC1 then s.hubAclrCmd
  else if code = 0x0B51 then s.blockRequest 0
  else if code = 0x0BC1 then s.hubBclrCmd
  else s.accessErr Pg.SAFE

/-- SAFE_HDBB.GO (R517). -/
def hubDeblockOne (s : State) (i : Nat) : State :=
  if s.safe.vb ∧ mayDeblock (s.berth i) then s.deblockOne i else s.accessErr Pg.SAFE

/-! The cell. -/

/-- The first test of R518 that fails, as WHY; 0 for none. `tree`: the write came on the tree management path. -/
def cellDeblockWhy (s : State) (tree : Bool) : Nat :=
  if !tree then 7
  else if s.get (F.TREE_CELL_STAT_STATE 0) ≠ 1 ∨ s.phase ≠ .running then 1
  else if s.gate.latch ≠ 0 ∨ s.gate.pbyp then 2
  else if s.blkSeenNow then 3
  else if s.safe.plaus then 4
  else if !bitOf s.pins.gpioIn.toNat 3 then 5
  else if s.safe.breqF then 6
  else 0

/-- SAFE_CCMD DEBLOCK (R518); the refusal answers STATIC. -/
def cellDeblockCmd (s : State) (tree : Bool) : State :=
  let w := s.cellDeblockWhy tree
  if w ≠ 0 then
    let s := ((s.set F.SAFE_CSTAT_WHY w).bump F.SAFE_CCNT_REFUSED).event Pg.SAFE 18
    let s := s.set (F.PG_STAT_ERR Pg.SAFE) 1
    { s.bbWrite 0x24 w [s.cycle % 2 ^ 32] with resp := { code := Code.static } }
  else if s.safe.db then s
  else
    let s := { s with safe := { s.safe with db := true }, gate := { s.gate with blocked := false } }
    ((s.count F.SAFE_CCNT_DEBLOCKS).event Pg.SAFE 17).bbWrite 0x24 0 [s.cycle % 2 ^ 32]

/-- The cell blocks at once: DB clears, the gate block returns to block (R519). -/
def cellBlockNow (s : State) : State :=
  if s.gate.pbyp then { s with safe := { s.safe with db := false } } else s.blockEdge s.now s.now

/-- A write of SAFE_CCMD. -/
def cellCommand (s : State) (tree : Bool) (code : Nat) : State :=
  if code = 0x0DB1 then s.cellDeblockCmd tree
  else if code = 0x0BB1 then s.cellBlockNow
  else if code = 0x9B55 then s.permBypass
  else s.accessErr Pg.SAFE

/-- Block forcing by a detection or by the plausibility input: DB clears, queued requests are discarded (R687). The
levels themselves are forced by `forceGates`. -/
def forceBlock (s : State) : State :=
  { s.flushRequests with safe := { s.flushRequests.safe with db := false } }

/-- Is the hub's channel A alive (R508): from reset onward in hub role? -/
def hubLive (s : State) : Bool := s.alive && s.isHub

end State

open State

/-- ALATCH: a TRIP input that has been low for longer than its filter, or a SAFE input that has been low for
10 us, asserts and latches (R509). -/
def execAlatch (input : BlockInput) (s : State) : Out :=
  act s (s.hubLive && match input.pin with
    | .trip0 => passesFilter (s.get F.SAFE_HCFG_TF0) input.low
    | .trip1 => passesFilter (s.get F.SAFE_HCFG_TF1) input.low
    | .safeA | .safeB => decide (10000 ≤ input.low)) fun s =>
    let s := (s.setBlockPin input.pin false).assertBit (pinBit input.pin) true
    let both := bitOf s.safe.asserted 2 && bitOf s.safe.asserted 3
    let s := if both then s.assertBit 4 false else s
    match input.pin with
    | .trip0 => s.latchSource 0
    | .trip1 => s.latchSource 1
    | .safeA | .safeB => s.latchSource 2

/-- DISC: SAFE_A and SAFE_B have differed for 50 ms (R509, R514). -/
def execDisc (s : State) : Out :=
  act s (s.hubLive && (s.pins.safeA != s.pins.safeB)) fun s =>
    let s := ((s.assertBit 4 true).latchSource 3).event Pg.SAFE 11
    let s := s.bump F.SAFE_HCNT_DISCS
    { s with safe := { s.safe with startup := 0 } }

/-- HUB_SOURCE_RELEASE: an input returns to its healthy level; with SAFE_A and SAFE_B equal DISC asserts no more. -/
def execHubSourceRelease (pin : BlockPin) (s : State) : Out :=
  act s s.hubLive fun s =>
    let s := (s.setBlockPin pin true).assertBit (pinBit pin) false
    if s.pins.safeA = s.pins.safeB then s.assertBit 4 false else s

/-- STARTUP_TEST_OPEN: SAFE_A and SAFE_B low together for 10 us (R514). -/
def execStartupTestOpen (s : State) : Out :=
  act s (s.hubLive && s.safe.startup == 0 && !s.pins.safeA && !s.pins.safeB) fun s => { s with safe := { s.safe with startup := 1 } }

/-- STARTUP_PASS: both high for 100 ms (R514). -/
def execStartupPass (s : State) : Out :=
  act s (s.hubLive && s.safe.startup == 1 && s.pins.safeA && s.pins.safeB) fun s =>
    { s.event Pg.SAFE 12 with safe := { s.safe with startup := 2 } }

/-- DEBLOCK_SEQUENCE_QUEUE: as room appears, the sequencer queues the next record (R516). -/
def execDeblockSequenceQueue (s : State) : Out := act s (s.hubLive && s.safe.vb) sequence

/-- BLKOS: four consecutive BLOCK ordered sets on an uplink (R520, R687). `reaction` is the measured interval in ns
(R524). -/
def execBlkos (lane reaction : Nat) (s : State) : Out :=
  act s (s.gateLive && decide (lane < 2)) fun s =>
    let s := (s.bump F.SAFE_CCNT_BLKOS).event Pg.SAFE 16
    let s := s.forceBlock.evFlag 9
    let s := { s with safe := { s.safe with blkSeen := true, blkAt := s.now } }
    let r := min 65535 reaction
    let s := (s.set F.SAFE_CREACT_LAST r).set F.SAFE_CREACT_WORST (max r (s.get F.SAFE_CREACT_WORST))
    ((s.monitor 10 fun _ => some (reaction : Int)).bbWrite 0x22 lane [s.cycle % 2 ^ 32]).bbFreeze 2

/-- BLKSEEN_CLEAR: 4 T_cyc without a further detection (R520). -/
def execBlkseenClear (s : State) : Out :=
  act s (s.gateLive && s.safe.blkSeen) fun s =>
    let s := s.reach (s.safe.blkAt + 4 * s.tcyc)
    { s with safe := { s.safe with blkSeen := false } }

/-- SUPERVISOR_DEBUG_HALT: the open debug port halts the supervisor; a hub sets BREQ when DBGBLK = 1 (R511); a cell's gate
block stops (R475). -/
def execSupervisorDebugHalt (s : State) : Out :=
  act s (s.alive && s.is F.DBG_STAT_OPEN) fun s =>
    let s := { s with sup := { s.sup with halted := true } }
    if s.isHub then s.when (s.is F.SAFE_HCFG_DBGBLK) (·.blockRequest 5)
    else if s.isCell then
      match execGateStopEnter .debug s with
      | .next t => t
      | _ => s
    else s

end Sys2Proof.Machine
end

