-- ==== Sys2Proof/Machine/Slots.lean ====
section
/-! DEFINITION. The timetable of R273 to R278 as instants of network time, at a hub port and at a cell's uplink. -/

namespace Sys2Proof.Machine

/-- Tenths of 1/64 ns in a code group at a lane rate of R194: 1.6 ns at rate 2 (6.25 Gbaud), 3.2 ns otherwise. -/
def groupTenths (rate : Nat) : Nat := if rate = 2 then 1024 else 2048

/-- The network time at which code group `g` of round `n` begins, rounded to 1/64 ns (R273). -/
def groupAt (rate n g : Nat) : Nat := ((n * 14204 + g) * groupTenths rate + 5) / 10 * 2 ^ 26

/-- The slot instant of slot `i` of round `n`. -/
def slotAt (rate n i : Nat) : Nat := groupAt rate n (53 * i)

/-- The first slot of the boarding zone with zone extension `z` (R297). -/
def zoneFirst (z : Nat) : Nat := if z = 0 then 264 else 263 - z

/-- The length of that zone in code groups. -/
def zoneGroups (z : Nat) : Nat := 53 * (268 - zoneFirst z)

/-- The slot index of report slot `r` (R274). -/
def reportIdx (r : Nat) : Nat := r + r / 32

/-- The slot index of management slot `g` (R274). -/
def mgmtIdx (g : Nat) : Nat := 33 * g + 32

/-- The round in progress at time `t`: the last whose beginning is not after `t`. -/
def roundAt (rate t : Nat) : Nat :=
  let n := t / 2 ^ 26 * 10 / (14204 * groupTenths rate) + 1
  if groupAt rate n 0 ≤ t then n else if groupAt rate (n - 1) 0 ≤ t then n - 1 else n - 2

/-- The first round after `n` whose number has low byte `b` (R258). -/
def roundNamed (n b : Nat) : Nat := n + 1 + (b + 256 - (n + 1) % 256) % 256

/-- Responses that wait on an uplink, the answer to a KXH counting as one (R289, R313). -/
def UplinkSt.waiting (x : UplinkSt) : Nat := x.resps.length + if x.chunks = [] then 0 else 1

namespace State

/-- The rate of lane `n`. -/
def rate (s : State) (n : Nat) : Nat := s.get (F.LANE_CFG_RATE n)

/-- The round in progress on lane `n`. -/
def roundNow (s : State) (n : Nat) : Nat := roundAt (s.rate n) s.now

/-- Uplink `u` of a cell. -/
def uplink (s : State) (u : Nat) : UplinkSt := nth s.rx.up u {}

def setUplink (s : State) (u : Nat) (x : UplinkSt) : State := { s with rx := { s.rx with up := setAt {} s.rx.up u x } }

/-- Does the frame path of uplink `u` run (R690)? -/
def pathOn (s : State) (u : Nat) : Bool := s.alive && s.isCell && decide (u < 2) && s.runs (Pg.TREE u)

/-- Do frames reach the frame path of uplink `u`: it runs, and the lane takes what arrives (R208)? -/
def frameOn (s : State) (u : Nat) : Bool := s.pathOn u && s.laneHears u

/-- d_up of uplink `u` in units of network time. -/
def dUp (s : State) (u : Nat) : Nat := s.get (F.TREE_CELL_UP_DLY u) * unitsPer64

/-- The report slot that uplink `u` holds in round `n`, if any: the newest move that holds by then, else the slot of
the register (R278). -/
def slotOf (s : State) (u n : Nat) : Option Nat :=
  match (s.uplink u).moves.find? (fun m => m.2 ≤ n) with
  | some (r, _) => some r
  | none => if s.is (F.TREE_CELL_SLOT_VALID u) then some (s.get (F.TREE_CELL_SLOT_RSLOT u)) else none

/-- Moves that hold in round `n` reach the register. -/
def slotUpdate (s : State) (u n : Nat) : State :=
  match (s.uplink u).moves.find? (fun m => m.2 ≤ n) with
  | some (r, k) =>
    let s := (s.set (F.TREE_CELL_SLOT_RSLOT u) r).set (F.TREE_CELL_SLOT_VALID u) 1
    s.setUplink u { s.uplink u with moves := (s.uplink u).moves.filter (fun m => decide (k < m.2)) }
  | none => s

/-- The instant at which the report of round `n` leaves uplink `u` (R275). -/
def reportLaunch (s : State) (u n : Nat) : Option Nat :=
  (s.slotOf u n).map fun r => slotAt (s.rate u) n (reportIdx r) - s.dUp u

/-- The earlier of the report launches of round `n`. -/
def firstLaunch (s : State) (n : Nat) : Option Nat :=
  match s.reportLaunch 0 n, s.reportLaunch 1 n with
  | some a, some b => some (min a b)
  | some a, none => some a
  | none, b => b

/-- P_n: the instant at which the payload of round `n` is built, 1 us before (R284). -/
def payloadAt (s : State) (n : Nat) : Option Nat := (s.firstLaunch n).map fun t => t - 1000 * unitsPerNs

/-- Does either uplink hold a valid report slot (R492)? -/
def slotHeld (s : State) : Bool := s.is (F.TREE_CELL_SLOT_VALID 0) || s.is (F.TREE_CELL_SLOT_VALID 1)

end State

end Sys2Proof.Machine
end

