-- ==== Sys2Proof/Machine/Measure.lean ====
section
/-! DEFINITION. Converters and accumulators (16_measurement.md): windows, scaling, plausibility, supply tests, the fast
comparators. Channels are numbered as in R495, 10 being M0's second accumulator (R497). Window bounds are in units of
4 ns of network time. -/

namespace Sys2Proof.Machine

namespace State

/-- The window grid: 4 ns in units of network time. -/
def gridUnit : Nat := 4 * unitsPerNs

/-- FREE, R505. -/
def winFree (s : State) : Nat := max 64 (s.active F.ACC_WIN_FREE)

/-- ACC_PLW.N, R505. -/
def plwN (s : State) : Nat := max 1 (s.active F.ACC_PLW_N)

/-- OSR of a modulator, R487. -/
def osr (s : State) (m : Nat) : Nat := 16 * 2 ^ min 6 (s.get ⟨R.ADC_OSR, 4 * m, 3⟩)

/-- The ACLK period in units of network time, out of the source and divider in use (R490). -/
def aclkPeriod (s : State) : Nat := s.domPeriod 2

/-- The sinc3 group delay of modulator `m` in units of network time (R490). -/
def groupDelay (s : State) (m : Nat) : Nat := 3 * (s.osr m - 1) * s.aclkPeriod / 2

/-- T_close, R492: the larger group delay plus two result periods. -/
def tClose (s : State) : Nat :=
  let c (m : Nat) : Nat := (3 * (s.osr m - 1) + 4 * s.osr m) * s.aclkPeriod / 2
  max (c 0) (c 1)

/-- E_n, R492, if round `n` has a report. -/
def reportEnd (s : State) (n : Nat) : Option Nat := (s.payloadAt n).map fun p => (p - s.tClose) / gridUnit

/-- Are windows report-aligned? -/
def aligned (s : State) : Bool := s.isCell && s.slotHeld

/-- Does the channel take M2 windows: a channel of M2, or the second accumulator of M0 (R497)? -/
def m2Window (c : Nat) : Bool := decide (2 ≤ c)

/-- The first window boundary of channel `c` after `t`, R492 and R497. -/
def nextBoundary (s : State) (c t : Nat) : Nat :=
  let n := if m2Window c then s.plwN else 1
  if s.aligned then
    let u := if s.is (F.TREE_CELL_SLOT_VALID 0) then 0 else 1
    let r := (roundAt (s.rate u) (t * gridUnit) - 1) / n * n
    let ends := (List.range 4).filterMap fun j => s.reportEnd (r + j * n)
    (ends.find? fun e => t < e).getD (t + 65535)
  else (t / (n * s.winFree) + 1) * (n * s.winFree)

/-- The end of a window of channel `c` that starts at `t`: no window exceeds 65,535 units (R493). -/
def windowEnd (s : State) (c t : Nat) : Nat := min (t + 65535) (s.nextBoundary c t)

/-- Accumulator of channel `c`. -/
def acc (s : State) (c : Nat) : Acc := nth s.adc.acc c {}

def setAcc (s : State) (c : Nat) (a : Acc) : State := { s with adc := { s.adc with acc := setAt {} s.adc.acc c a } }

/-- The last closed window of channel `c`. -/
def win (s : State) (c : Nat) : WinRes := nth s.adc.last c {}

/-- The kind of window changes, or the boundaries move: the windows in progress end at the first boundary of the new
kind (R493). ACC_WIN.MODE and TCLOSE follow. -/
def windowMode (s : State) : State :=
  let s := s.set F.ACC_WIN_TCLOSE (s.tClose / (100 * unitsPerNs))
  let t := s.now / gridUnit
  let s' := s.set F.ACC_WIN_MODE (b2n s.aligned)
  { s' with adc := { s'.adc with acc := s.adc.acc.mapIdx fun c a =>
      if a.stop = 0 then a else { a with stop := min (a.start + 65535) (s.nextBoundary c (max t a.start)) } } }

/-- `windowMode` when the kind in force has changed. -/
def windowKind (s : State) : State := s.when (s.aligned != s.is F.ACC_WIN_MODE) windowMode

/-- GAIN_c and OFS_c in force, binary64. -/
def accGain (s : State) (c : Nat) : DWord := sToD (s.actReg (R.ACC_GAIN (if c = 10 then 0 else c)))
def accOfs (s : State) (c : Nat) : DWord := sToD (s.actReg (R.ACC_OFS (if c = 10 then 0 else c)))

/-- The scaling of R495. -/
def scale (s : State) (c : Nat) (x : DWord) : DWord := dAdd (dMul (s.accGain c) x) (s.accOfs c)

/-- A value rounded to the nearest integer, halves away from zero; a free value where it is not finite. -/
def rounded (s : State) (x : DWord) : Int × State :=
  if dFinite x then ((dVal x).roundAway, s) else
    let (v, s) := s.free
    ((v : Int), s)

/-- The last result of a closed window of `a`, R495. A window with no result has no stated mean: free values. -/
def closeValues (s : State) (c : Nat) (a : Acc) : WinRes × State :=
  let w : WinRes := { s.win c with
    count := a.count, wins := ((s.win c).wins + 1) % 65536, start := a.start, stop := a.stop, closed := true }
  if a.count = 0 then
    let (x, s) := s.free
    let (y, s) := s.free
    let (z, s) := s.free
    ({ w with mean := BitVec.ofNat 32 x, min := BitVec.ofNat 32 y, max := BitVec.ofNat 32 z, mean64 := BitVec.ofNat 64 x }, s)
  else
    let mean := s.scale c (dDiv (dScaled a.sum (-23)) (dInt a.count))
    let lo := s.scale c (dScaled a.lo (-23))
    let hi := s.scale c (dScaled a.hi (-23))
    let neg := dLt (s.accGain c) 0
    ({ w with mean := dToS mean, mean64 := mean, min := dToS (if neg then hi else lo), max := dToS (if neg then lo else hi) }, s)

/-! Plausibility, R497 and R498. -/

/-- One plausibility comparison: `a` is channel 0 of M2, `b` M0 over the same window. -/
def plausible (s : State) (a b : DWord) : State :=
  let lim := dAdd (dRat (s.active F.ACC_PLTOL_ABS) 10) (dMul (dRat (s.active F.ACC_PLTOL_REL) 256) (dAbs b))
  if dLt lim (dAbs (dSub a b)) then
    let s := s.bump F.ACC_PLSTAT_RUN
    if s.get F.ACC_PLSTAT_RUN ≥ max 1 (s.active F.ACC_PLTOL_CNT) ∧ !s.safe.plaus then
      let s := ((s.event Pg.ACC 9).evFlag 10).bump F.ACC_PLSTAT_FAILS
      let s := s.set F.ACC_PLSTAT_LIVE 1
      let s := { s with safe := { s.safe with plaus := true } }
      s.when (s.is F.SAFE_CCFG_PLACT) fun s => s.forceBlock.event Pg.SAFE 19
    else s
  else
    let s := (s.set F.ACC_PLSTAT_RUN 0).set F.ACC_PLSTAT_LIVE 0
    { s with safe := { s.safe with plaus := false } }

/-- Channel `c` has closed an M2 window: once channel 0 of M2 and the second accumulator of M0 have both closed one,
their means are compared, unless a count is zero. -/
def plausClose (s : State) (c : Nat) (w : WinRes) : State :=
  let s :=
    if c = 2 then { s with adc := { s.adc with plA := some w.mean64, plSkip := s.adc.plSkip || w.count == 0 } }
    else if c = 10 then { s with adc := { s.adc with plB := some w.mean64, plSkip := s.adc.plSkip || w.count == 0 } }
    else s
  match s.adc.plA, s.adc.plB with
  | some a, some b =>
    let skip := s.adc.plSkip || !s.isCell || !bitOf (s.get F.ADC_SCAN_MASK) 0
    let s := { s with adc := { s.adc with plA := none, plB := none, plSkip := false } }
    if skip then s else s.plausible a b
  | _, _ => s

/-- The rails that are tested: their channel is scanned and their EN bit set (R136). -/
def railsTested (s : State) : Nat := s.get F.ADC_SCAN_MASK / 8 % 8 &&& s.get F.PWR_WCTL_EN % 8

/-- The test of a supply rail at the close of its M2 window, R136: rail 0 VDD_CORE, 1 VDDIO, 2 VDDA. -/
def supplyTest (s : State) (rail : Nat) (w : WinRes) : State :=
  if !s.runs Pg.PWR ∨ w.count = 0 ∨ !bitOf s.railsTested rail then s
  else
    let mv := dMul w.mean64 (dInt 1000)
    let live := s.get F.PWR_WSTAT_LIVE &&& s.railsTested
    if dLt mv (dInt (s.get (F.PWR_WLIM_LO rail))) || dLt (dInt (s.get (F.PWR_WLIM_HI rail))) mv then
      let s := (s.set F.PWR_WSTAT_LIVE (live ||| 1 <<< rail)).bump ⟨R.PWR_WSTAT, 8 + 8 * rail, 8⟩
      s.when (live == 0) (·.event Pg.PWR 8)
    else
      let now := live &&& (7 - 1 <<< rail)
      (s.set F.PWR_WSTAT_LIVE now).when (live != 0 && now == 0) (·.event Pg.PWR 9)

/-! Windows. -/

/-- The state in force at network time `t`, out of the history. -/
def stateAt (s : State) (t : Nat) : CellState :=
  match s.gate.hist.find? fun e => e.1 ≤ t with
  | some e => e.2
  | none => .block

/-- The channels that close each window for WIN_CLOSED, R506. -/
def winChannels (s : State) : List Nat :=
  if s.isCell then [0, 1] else (List.range 8).filterMap fun m => if bitOf (s.get F.ADC_SCAN_MASK) m then some (m + 2) else none

/-- WIN_CLOSED once per window, when every channel of the role has closed it (R506). -/
def winClosed (s : State) (c : Nat) : State :=
  let due := if s.adc.due.contains c then s.adc.due else c :: s.adc.due
  if s.winChannels.all due.contains then { s.event Pg.ACC 8 with adc := { s.adc with due := [] } }
  else { s with adc := { s.adc with due := due } }

/-- What follows from a closed window of M0 or M1: the report-window registers, EMPTY (R493), the monitor of R642. -/
def reportWindow (s : State) (c : Nat) (w : WinRes) : State :=
  let s := s.when (w.count == 0) (·.event Pg.ACC 10)
  let other := s.win (1 - c)
  let none0 := w.count == 0 || (other.stop == w.stop && other.count == 0)
  let s :=
    if c = 0 then s.set F.ACC_WL_WLEN (if none0 then 0 else w.stop - w.start)
    else s.when (w.count == 0 && other.stop == w.stop) (·.set F.ACC_WL_WLEN 0)
  if c = 0 then
    let t := w.start * 4
    let s := s.setReg R.ACC_WS (BitVec.ofNat 32 ((t / 1000000000 % 4) <<< 30 ||| t % 1000000000))
    let s := { s with adc := { s.adc with cmdEnd := s.stateAt (w.stop * gridUnit) } }
    if w.count = 0 then s else
      let (v, s) := s.rounded (dMul w.mean64 (dInt 1000))
      s.monitor 8 fun _ => some v
  else s

/-- What follows from a closed window of an M2 channel: the supply test (R136), the temperature monitor. -/
def m2Closed (s : State) (c : Nat) (w : WinRes) : State :=
  let s := if 5 ≤ c ∧ c ≤ 7 then s.supplyTest (c - 5) w else s
  let s := s.plausClose c w
  if c = 8 ∧ w.count ≠ 0 then
    let (v, s) := s.rounded (dMul w.mean64 (dInt 10))
    s.monitor 9 fun _ => some v
  else s

/-- The window of channel `c` closes, and the next one opens (R491). -/
def closeWindow (s : State) (c : Nat) : State :=
  let a := s.acc c
  let (w, s) := s.closeValues c a
  let s := { s with adc := { s.adc with last := setAt {} s.adc.last c w } }
  let s := s.setAcc c { start := a.stop, stop := s.windowEnd c a.stop }
  let s := if c < 2 then s.reportWindow c w else s.m2Closed c w
  s.winClosed c

/-- Every window of channel `c` that ends at or before `i` closes. -/
def closeUntil (s : State) (c i : Nat) : (fuel : Nat) → State
  | 0 => s
  | k + 1 => if (s.acc c).stop ≤ i then (s.closeWindow c).closeUntil c i k else s

/-- A result `x` of channel `c`, in units of 2^-23 of full scale, with its instant on the grid (R491). -/
def accumulate (s : State) (c : Nat) (x : Int) (i : Nat) : State :=
  let s :=
    if (s.acc c).stop = 0 then
      let n := if m2Window c then s.plwN else 1
      let start := if s.aligned then i else i / (n * s.winFree) * (n * s.winFree)
      s.setAcc c { start := start, stop := s.windowEnd c (if s.aligned then i else start) }
    else s.closeUntil c i (i + 1 - (s.acc c).stop)
  let a := s.acc c
  s.setAcc c { a with
    sum := a.sum + x, count := a.count + 1,
    lo := if a.count = 0 then x else min a.lo x, hi := if a.count = 0 then x else max a.hi x }

/-- Does the sinc3 path of modulator `m` run for channel `ch` (R485, R489, R500)? -/
def converts (s : State) (m ch : Nat) : Bool :=
  s.runs Pg.ADC && match m with
    | 0 => s.isCell && s.is F.ADC_CTL_M0EN
    | 1 => s.isCell && s.is F.ADC_CTL_M1EN
    | 2 => s.is F.ADC_CTL_M2EN && decide (ch < 8) && bitOf (s.get F.ADC_SCAN_MASK) ch && (s.isCell || decide (2 ≤ ch))
    | _ => false

/-- A kept result of modulator `m`: overload (R501), clip (R495), and the accumulators it enters. -/
def result (s : State) (m ch : Nat) (x : Int) (instant : Nat) : State :=
  let x := max (-(2 ^ 23)) (min (2 ^ 23 - 1) x)
  let s := s.when (x == -(2 ^ 23) || x == 2 ^ 23 - 1) fun s => (s.bump ⟨R.ADC_OVL, 8 * m, 8⟩).event Pg.ADC 12
  let i := instant / gridUnit
  if !s.runs Pg.ACC then s else
  let s := s.windowKind
  match m with
  | 0 => (s.accumulate 0 x i).accumulate 10 x i
  | 1 => s.accumulate 1 x i
  | _ => s.accumulate (2 + ch) x i

end State

open State

/-- ADC_RESULT: a kept sinc3 result `x` in units of 2^-23 of full scale, whose last input sample was taken at network time
`sampled`. Its instant is that time less the group delay (R490); it enters the accumulators of its channel while the ACC
page runs. -/
def execAdcResult (m ch : Nat) (x : Int) (sampled : Nat) (s : State) : Out :=
  act s (s.alive && s.converts m ch) fun s => s.result m ch x (sampled - s.groupDelay m)

/-- A signed code field of 16 bits. -/
def code16 (v : Nat) : Int := signed 16 v

/-- Is `code` beyond the thresholds of comparator `f` (R499)? -/
def beyond (s : State) (f : Nat) (code : Int) : Bool :=
  decide (code16 (s.get (F.ADC_FC_HI f)) < code) || decide (code < code16 (s.get (F.ADC_FC_LO f)))

/-- Is `code` within LO + HYS to HI - HYS (R499)? -/
def inBand (s : State) (f : Nat) (code : Int) : Bool :=
  let h : Int := s.get F.ADC_FCNT_HYS
  decide (code16 (s.get (F.ADC_FC_LO f)) + h ≤ code) && decide (code ≤ code16 (s.get (F.ADC_FC_HI f)) - h)

/-- CNT of comparator `f`; 0 used as 1. -/
def codesAsked (s : State) (f : Nat) : Nat := max 1 (s.get ⟨R.ADC_FCNT, 4 * f, 4⟩)

/-- Do the sinc2 codes `codes` assert comparator `f`: CNT consecutive codes beyond a threshold, while it is not asserted? -/
def canAssert (s : State) (f : Nat) (codes : List Int) : Bool :=
  codes.length == codesAsked s f && codes.all (beyond s f) && !bitOf (s.get F.ADC_FSTAT_LIVE) f

/-- COMPARATOR_ASSERT: CNT consecutive codes beyond a threshold (R499). Comparator 0 drives the overvoltage source, 1 the
second overvoltage of R477, 2 the overcurrent source, 3 its event only. -/
def execComparatorAssert (run : CompRun) (s : State) : Out :=
  let f := run.f
  act s (s.gateLive && decide (f < 4) && canAssert s f run.codes) fun s =>
    let s := s.set F.ADC_FSTAT_LIVE (s.get F.ADC_FSTAT_LIVE ||| 1 <<< f)
    let s := (s.set F.ADC_FSTAT_HIT (s.get F.ADC_FSTAT_HIT ||| 1 <<< f)).event Pg.ADC (8 + f)
    match f with
    | 0 => s.faultSource 2
    | 1 => s.when (s.is F.GATE_PBY_OV2EN) permBypass
    | 2 => s.faultSource 3
    | _ => s

/-- COMPARATOR_DEASSERT: the first code inside the hysteresis band (R499). -/
def execComparatorDeassert (back : CompBack) (s : State) : Out :=
  let f := back.f
  act s (s.gateLive && decide (f < 4) && inBand s f back.code) fun s =>
    let s := s.set F.ADC_FSTAT_LIVE (s.get F.ADC_FSTAT_LIVE &&& (15 - 1 <<< f))
    let src := if f = 0 then 4 else if f = 2 then 8 else 0
    { s with gate := { s.gate with live := s.gate.live &&& (15 - src) } }

/-- SPEED_COUNT: each 100 us ring count refreshes SYS_SPEED (R98 to R100). -/
def execSpeedCount (rings : List Nat) (s : State) : Out :=
  act s (s.alive && s.runs Pg.SYS && rings.length == 8) fun s =>
    let s := s.speedUpdate rings
    s.monitor 11 fun _ => some (s.get F.SYS_SPEED_SLOW)

end Sys2Proof.Machine
end

