-- ==== Sys2Proof/Machine/Mem.lean ====
section
/-! DEFINITION. State memory, its error code, its protected regions, the arbiter, the scrubber and the error log's commands
(20_memory_arbiter_errors.md). `mem` holds the data of every word; `memErr` lists the words whose check bits do not agree
with it. Addresses are those of the supervisor map. -/

namespace Sys2Proof.Machine

namespace State

/-! Words and their check bits, R593 to R597. -/

/-- The 64-bit word at word index `w` (address / 8) with the data bits listed inverted. -/
def flipBits (s : State) (w : Nat) (bits : List Nat) : State :=
  bits.foldl (fun t b => if b < 64 then t.setByte (8 * w + b / 8) (t.byte (8 * w + b / 8) ^^^ BitVec.ofNat 8 (1 <<< (b % 8))) else t) s

/-- The decoder reads word `w` for requester `req`: nothing, a correction, or poison (R594 to R597). Four and more wrong
bits have no stated outcome: the word's data is a free value. The answer tells whether the data carries poison. -/
def readWord (s : State) (req w : Nat) : Bool × State :=
  match kvFind s.memErr w with
  | none => (false, s)
  | some e =>
    let n := e.wrong.length
    if n = 0 then (e.poison, s.when e.poison (·.bump F.ERR_POIS_RD))
    else if n ≤ 2 ∧ !e.poison then
      (false, { s with memErr := kvErase s.memErr w }.errArrive 1 n req (8 * w))
    else if n = 3 ∨ e.poison then
      let s := { s.flipBits w e.wrong with memErr := kvSet s.memErr w { poison := true } }
      (true, (s.errArrive 2 3 req (8 * w)).bump F.ERR_POIS_MADE)
    else
      let (v, s) := s.free
      (false, { s.setNum (8 * w) 8 v with memErr := kvErase s.memErr w })

/-- The words of `n` bytes from address `a` are read; was any of them poisoned? -/
def touch (s : State) (req a n : Nat) : Bool × State :=
  if s.memErr = [] ∨ n = 0 then (false, s)
  else (List.range ((a + n - 1) / 8 - a / 8 + 1)).foldl
    (fun p i => let q := p.2.readWord req (a / 8 + i); (p.1 || q.1, q.2)) (false, s)

/-- Does the byte at `a` belong to a private scalar in OTP (R168)? -/
def scalarAt (a : Nat) : Bool := decide (0x50000100 ≤ a) && decide (a < 0x50000200) && a % 128 < 32

/-- `n` bytes from `a` as every access path reads them: a private scalar reads zero (R168). -/
def openBytes (s : State) (a n : Nat) : List Byte :=
  (s.bytes a n).zipIdx.map fun x => if scalarAt (a + x.2) then 0 else x.1

/-- A read of `n` bytes by requester `req`. -/
def fetch (s : State) (req a n : Nat) : List Byte × Bool × State :=
  let (p, s) := s.touch req a n
  (s.openBytes a n, p, s)

/-- The check bits of word `w` after a write that covers bytes from `a` to `b`: a full write makes the word sound; a
narrower one merges into the word as read (R594, R597). An armed injection inverts bits of a write that covers the whole
word (R616). -/
def writeWord (s : State) (req w a b : Nat) : State :=
  if a ≤ 8 * w ∧ 8 * w + 8 ≤ b then
    let s := { s with memErr := kvErase s.memErr w }
    let n := s.get F.ERR_INJ_NBIT
    if n ≠ 0 ∧ s.get F.ERR_INJA_ADDR = w then
      { s.set F.ERR_INJ_NBIT 0 with memErr := kvSet s.memErr w { wrong := List.range n } }
    else s
  else (s.readWord req w).2

/-- A write of bytes from address `a` by requester `req`. -/
def store (s : State) (req a : Nat) (bs : List Byte) : State :=
  if bs = [] then s
  else
    let b := a + bs.length
    let s := if s.memErr = [] ∧ s.get F.ERR_INJ_NBIT = 0 then s
      else (List.range ((b - 1) / 8 - a / 8 + 1)).foldl (fun t i => t.writeWord req (a / 8 + i) a b) s
    s.setBytes a bs

/-! The engine region and the compensation region, R399, R400, R430, R431. -/

/-- CTL_BASE as an address. -/
def ctlBase (s : State) : Nat := s.get F.CTL_BASE_BASE

/-- The base of a program slot. -/
def slotBase (s : State) (sl : Nat) : Nat := s.ctlBase + 0x10000 + 0x50000 * sl

/-- The length of a program slot. -/
def slotLen : Nat := 0x50000

/-- Is the slot VALID? -/
def slotValid (s : State) (sl : Nat) : Bool := s.is (F.CTL_PGM_STAT_VALID sl)

/-- VALID of a slot. -/
def setValid (s : State) (sl : Nat) (v : Bool) : State :=
  (s.set (F.CTL_PGM_STAT_VALID sl) (b2n v)).set ⟨R.CTL_STAT, 4 + sl, 1⟩ (b2n v)

/-- The running slot, R404: the active one while it is VALID. -/
def running (s : State) : Option Nat :=
  let a := s.get F.CTL_STAT_ACT
  if s.slotValid a then some a else none

/-- Do `n` bytes from `a` meet `len` bytes from `b`? -/
def meets (a n b len : Nat) : Bool := decide (a < b + len) && decide (b < a + n)

/-- Does a write of `n` bytes at `a` meet a protected region (R399, R431)? -/
def isProtected (s : State) (a n : Nat) : Bool :=
  let slot (sl : Nat) : Bool := meets a n (s.slotBase sl) slotLen
  meets a n s.ctlBase 0x800
    || (match s.running with | some sl => slot sl | none => false)
    || (match s.eng.ho with | some h => slot h.slot | none => false)
    || (s.isHub && (meets a n (s.get F.RCU_BASE_BASE) 0x40000
      || (List.range 8).any fun t =>
        meets a n (s.get F.RCU_BASE_BASE + 0x40000 + 0x2000 * t + 0x1000 * b2n (bitOf (s.active F.ANG_COPY_COPY) t)) 0x1000))

/-- A write reaches a slot that does not run: a running check will end with WHY = 10, a valid slot loses VALID (R403,
R404). -/
def slotWritten (s : State) (a n sl : Nat) : State :=
  if !meets a n (s.slotBase sl) slotLen then s
  else
    let s := s.when (s.is (F.CTL_PGM_STAT_BUSY sl)) fun s =>
      { s with eng := { s.eng with hit := setAt false s.eng.hit sl true } }
    s.when (s.slotValid sl) (·.setValid sl false)

/-- Is the address in state memory? -/
def inState (a : Nat) : Bool := decide (0x20000000 ≤ a) && decide (a < 0x20200000)

/-- A write of a requester other than the engine: dropped and counted in a protected region (R399). -/
def write (s : State) (req a : Nat) (bs : List Byte) : State :=
  if !inState a then s.store req a bs
  else if !s.isRef ∧ s.isProtected a bs.length then
    ((s.errArrive 0 5 req a).bump F.CTL_CNT_WPROT).event Pg.CTL 16
  else ((s.slotWritten a bs.length 0).slotWritten a bs.length 1).store req a bs

/-! The arbiter, R600 to R608. -/

/-- The page whose gate parks requester `r`: the control engine, the rank engine, a tree port, the twin and the recorder DMA
have one; the others never park. -/
def reqPage (r : Nat) : Option Nat :=
  if r = 2 then some Pg.CTL
  else if r = 3 then some Pg.RANK
  else if 4 ≤ r ∧ r ≤ 7 then some (Pg.TREE (r - 4))
  else if r = 8 then some Pg.TWIN
  else if r = 9 then some Pg.REC
  else none

/-- Is requester `r` parked with its page (R608)? -/
def arbParked (s : State) (r : Nat) : Bool :=
  match reqPage r with
  | some pg => !s.is (F.PG_STAT_RUN pg)
  | none => false

/-- Is requester `r` masked, by the role (R600) or parked (R608)? -/
def arbMasked (s : State) (r : Nat) : Bool :=
  s.arbParked r || match s.role with
    | .cell => r == 3 || r == 6 || r == 7 || r == 8
    | .hub => false
    | .referee => r == 2 || r == 3 || (4 ≤ r && r ≤ 7) || r == 8 || r == 9
    | .none | .fault => true

/-- Age limit N in force. -/
def arbN (s : State) : Nat := max 2 (min 64 (s.get F.MEM_CFG_N))

/-- Every credit becomes the weight, and the window starts again. -/
def arbRefill (s : State) : State :=
  let s := forUpTo (fun r t => t.set (F.MEM_RSTAT_CREDIT r) (t.get (F.MEM_RCFG_WEIGHT r))) 13 s
  s.set F.MEM_STAT_WIN 0

/-- The request that has waited longest, the lower requester on a tie. -/
def oldest (l : List ArbReq) : Option ArbReq :=
  l.foldl (fun m q => match m with
    | some x => if x.wait < q.wait ∨ (x.wait = q.wait ∧ q.r < x.r) then some q else some x
    | none => some q) none

/-- The request with the largest credit, the lower requester on a tie. -/
def richest (s : State) (l : List ArbReq) : Option ArbReq :=
  let c (q : ArbReq) : Nat := s.get (F.MEM_RSTAT_CREDIT q.r)
  l.foldl (fun m q => match m with
    | some x => if c x < c q ∨ (c x = c q ∧ q.r < x.r) then some q else some x
    | none => some q) none

/-- The decision of R602 over the candidates. -/
def arbDecide (s : State) (cand : List ArbReq) : Option ArbReq × State :=
  if s.is F.MEM_STAT_LOCKED then
    let o := s.get F.MEM_STAT_OWNER
    (cand.find? (fun q => q.r == o || (o == 1 && q.r == 0)), s)
  else if s.get F.MEM_STAT_AGEC + 1 ≥ s.arbN then (oldest cand, s.set F.MEM_STAT_AGEC 0)
  else
    let s := if cand.all (fun q => s.get (F.MEM_RSTAT_CREDIT q.r) == 0) then s.arbRefill.bump F.MEM_STAT_EARLY else s
    let pick := if cand.all (fun q => s.get (F.MEM_RSTAT_CREDIT q.r) == 0) then oldest cand else s.richest cand
    (pick, s.set F.MEM_STAT_AGEC (s.get F.MEM_STAT_AGEC + 1))

/-- The lock held ends. -/
def unlock (s : State) : State :=
  let s := s.set (F.MEM_RSTAT_HOLD (s.get F.MEM_STAT_OWNER)) 0
  let s := (s.set F.MEM_STAT_LOCKED 0).set F.MEM_SLOCK_HELD 0
  { s with arb := { s.arb with grants := 0, words := [] } }

/-- The arbiter breaks the lock for `cause` (R607). -/
def lockBreak (s : State) (cause : Nat) : State :=
  let o := s.get F.MEM_STAT_OWNER
  let ws := s.arb.words
  let s := s.unlock
  let s := ((s.set F.MEM_LB_OWNER o).set F.MEM_LB_CAUSE cause).set F.MEM_LB_WORDS (min 255 ws.length)
  let s := forUpTo (fun j t => t.set (F.MEM_LBA_ADDR j) (nth ws j 0)) 8 s
  let s := match cause with
    | 1 => s.bump F.MEM_LBCNT_RESET
    | 2 => s.bump F.MEM_LBCNT_LONG
    | _ => s.bump F.MEM_LBCNT_TIMEOUT
  let s := s.event Pg.MEM 8
  let s := s.errArrive 0 4 o (ws.headD 0)
  match s.err.log.getLast? with
  | some e =>
    if e.cls = 0 ∧ e.src = 4 ∧ e.req = o ∧ e.addr = BitVec.ofNat 32 (ws.headD 0) then
      { s with err := { s.err with log := s.err.log.dropLast ++ [{ e with repeats := min 255 (e.repeats + ws.length) }] } }
    else s
  | none => s

/-- Does the block of page `pg` hold the lock (R609)? -/
def lockOwner (s : State) (pg : Nat) : Bool := s.is F.MEM_STAT_LOCKED && reqPage (s.get F.MEM_STAT_OWNER) == some pg

/-- LOCKMAX, and LOCKTO in units of passed time (R618). -/
def lockMax (s : State) : Nat := max 1 (min 64 (s.get F.MEM_CFG_LOCKMAX))
def lockTime (s : State) : Nat := max 1 (s.get F.MEM_CFG_LOCKTO) * 1000 * unitsPerNs

/-- A grant inside a lock beyond LOCKMAX breaks it (cause 2); the grant is carried out unlocked. -/
def lockLimit (s : State) (q : ArbReq) : State :=
  if s.is F.MEM_STAT_LOCKED ∧ q.r = s.get F.MEM_STAT_OWNER then
    if s.lockMax ≤ s.arb.grants then s.lockBreak 2
    else { s with arb := { s.arb with grants := s.arb.grants + 1, lockedAt := s.elapsed } }
  else s

/-- The lock opens at this grant, if the access carries the flag or MEM_SLOCK.OPEN waits for it (R605, R606). -/
def lockOpen (s : State) (q : ArbReq) : State :=
  if !s.is F.MEM_STAT_LOCKED ∧ (q.lock ∨ (q.r = 1 ∧ s.arb.armed)) then
    let s := ((s.set F.MEM_STAT_LOCKED 1).set F.MEM_STAT_OWNER q.r).set (F.MEM_RSTAT_HOLD q.r) 1
    let s := { s with arb := { s.arb with grants := 1, words := [], lockedAt := s.elapsed, armed := s.arb.armed && q.r != 1 } }
    s.set F.MEM_SLOCK_HELD (b2n (q.r == 1))
  else s

/-- Does a supervisor access of kind `rd`, `wr` or `ex` to `n` bytes at `a` find a region of R152 that grants it? A cell has
the first 256 KiB of recorder memory; execute-in-place faults in host mode. -/
def supMay (s : State) (a n : Nat) (wr ex : Bool) : Bool :=
  let within (b len : Nat) : Bool := decide (b ≤ a) && decide (a + n ≤ b + len)
  (within 0 0x10000 && !wr) || within 0x10000000 0x80000 || (within 0x20000000 0x200000 && !ex)
    || (within 0x30000000 (if s.isCell then 0x40000 else 0x400000) && !ex) || (within 0x40000000 0x10000 && !ex)
    || (within 0x50000000 0x2000 && !wr && !ex) || (within 0x60000000 0x1000000 && !wr && s.host.bus == .master)

/-- The trap of an access fault of the supervisor: the RV32 machine-mode trap with cause 1 for a fetch, 5 for a load and 7
for a store (PRESUMED from the RISC-V privileged architecture, log 106). -/
def supTrap (s : State) (addr cause : Nat) : State :=
  let u := s.sup
  let mie := bitOf u.mstatus.toNat 3
  let st := setBits (setBits (setBits u.mstatus 7 1 (b2n mie)) 3 1 0) 11 2 3
  { s with sup := { u with
      mtval := BitVec.ofNat 32 addr, mepc := u.pc, mcause := BitVec.ofNat 32 cause, mstatus := st
      pc := u.mtvec &&& 0xFFFFFFFC } }

/-- An access fault of the supervisor (R80, R156, R598): it traps with the address in mtval, and the first fault is
captured in CPU_FAULT; `cause` is that of the trap. -/
def cpuFault (s : State) (code addr cause : Nat) : State :=
  let s := s.supTrap addr cause
  if s.is F.CPU_FAULT_VALID then s.set F.CPU_FAULT_OVF 1
  else
    let s := (s.set F.CPU_FAULT_CODE code).set F.CPU_FAULT_STORE (b2n (cause == 7))
    (s.set F.CPU_FAULT_VALID 1).setReg R.CPU_FAULT_ADDR (BitVec.ofNat 32 addr)

/-- A load of the supervisor outside register space and state memory, R152: bytes, or none where it faults. -/
def supLoad (s : State) (a n : Nat) : Option (List Byte) := if s.supMay a n false false then some (s.openBytes a n) else none

/-- A store of the supervisor to an address of R152 other than register space. Outside the regions that take it, it is an
access fault; the code that CPU_FAULT captures there is not stated: a free value. -/
def supStore (s : State) (a : Nat) (bs : List Byte) : State :=
  if s.supMay a bs.length true false then { s.write 1 a bs with resp := ⟨Code.ok, []⟩ }
  else
    let (v, s) := s.free
    { s.cpuFault (v % 256) a 7 with resp := ⟨v % 256, []⟩ }

/-- The access of a grant is carried out. A load answers its words in `resp`. -/
def arbAccess (s : State) (q : ArbReq) : State :=
  if q.data = [] then
    let (bs, p, s) := s.fetch q.r q.addr q.read
    let code := if p then Code.poison else Code.ok
    let s := { s with resp := { code := code, data := (List.range ((q.read + 3) / 4)).map fun i => BitVec.ofNat 32 (ofLe ((bs.drop (4 * i)).take 4)) } }
    s.when (p && q.r ≤ 1) fun s => s.cpuFault Code.poison q.addr (if q.r = 0 then 1 else 5)
  else
    let s := if s.is F.MEM_STAT_LOCKED ∧ q.r = s.get F.MEM_STAT_OWNER then
        let ws := (List.range ((q.addr + q.data.length - 1) / 8 - q.addr / 8 + 1)).map fun i => 8 * (q.addr / 8 + i)
        { s with arb := { s.arb with words := s.arb.words ++ ws } }
      else s
    s.write q.r q.addr q.data

/-- Accounting of a grant: credit, window, counts, wait, monitor (R601, R602). -/
def arbCount (s : State) (q : ArbReq) : State :=
  let s := s.set (F.MEM_RSTAT_CREDIT q.r) (s.get (F.MEM_RSTAT_CREDIT q.r) - 1)
  let s := if s.get F.MEM_STAT_WIN = 255 then s.arbRefill else s.set F.MEM_STAT_WIN (s.get F.MEM_STAT_WIN + 1)
  let s := s.count (F.MEM_RCNT_GRANTS q.r)
  let w := min 65535 q.wait
  let s := (s.set (F.MEM_RLAT_LAST q.r) w).set (F.MEM_RLAT_WORST q.r) (max w (s.get (F.MEM_RLAT_WORST q.r)))
  s.monitorSel 5 q.r q.wait

/-- One access of at most 64 bytes within one line of state memory, by a requester the role has (R600, R601). -/
def arbValid (s : State) (q : ArbReq) : Bool :=
  let n := if q.data = [] then q.read else q.data.length
  decide (q.r < 13) && !s.arbMasked q.r && inState q.addr && decide (0 < n) && decide (q.addr % 64 + n ≤ 64)

/-- A grant: the decision, the lock rules, the access, the accounting. -/
def arbGrant (s : State) (waiting : List ArbReq) : State :=
  let cand := waiting.filter s.arbValid
  let (pick, s) := if cand = [] then (none, s) else s.arbDecide cand
  match pick with
  | none => s
  | some q =>
    let s := forUpTo (fun r t => t.set (F.MEM_RSTAT_WAIT r) (b2n (cand.any fun x => x.r == r && r != q.r))) 13 s
    let s := ((s.lockLimit q).lockOpen q).arbAccess q
    let s := s.when (q.unlock && s.is F.MEM_STAT_LOCKED && s.get F.MEM_STAT_OWNER == q.r) unlock
    s.arbCount q

/-! The scrubber, R599. -/

/-- Words powered in the role, memory by memory: SRAM, state memory, recorder memory. -/
def scrubWords (s : State) : Nat :=
  match s.role with
  | .hub => 65536 + 262144 + 524288
  | .cell => 65536 + 262144 + 32768
  | _ => 65536 + 262144

/-- The word index (address / 8) of the `i`-th powered word. -/
def scrubWord (i : Nat) : Nat :=
  if i < 65536 then 0x10000000 / 8 + i
  else if i < 65536 + 262144 then 0x20000000 / 8 + (i - 65536)
  else 0x30000000 / 8 + (i - 65536 - 262144)

/-- The time between two visits, PERIOD / W, in units of passed time (R599). -/
def scrubStep (s : State) : Nat := max 1 (min 3600 (s.get F.ERR_CFG_PERIOD)) * 1000000000 * unitsPerNs / s.scrubWords

/-- The scrubber visits one word: errors are handled as on a read with REQ = 0xFE; a poisoned word stays as it is. -/
def scrub (s : State) (upset : List Nat) : State :=
  let w := scrubWord s.arb.scrubAt
  let e := kvGet {} s.memErr w
  let s := if upset = [] then s else { s with memErr := kvSet s.memErr w { e with wrong := e.wrong ++ upset } }
  let e := kvGet {} s.memErr w
  let s := if e.wrong = [] then s else (s.readWord 0xFE w).2
  let i := s.arb.scrubAt + 1
  if i ≥ s.scrubWords then { s.count F.ERR_SCRUB_SWEEPS with arb := { s.arb with scrubAt := 0 } }
  else { s with arb := { s.arb with scrubAt := i } }

/-! The error log's commands, R612 to R616. -/

/-- POP. -/
def errPop (s : State) : State := { s with err := { s.err with log := s.err.log.tail } }

/-- The highest pending class above the present HCLS is signalled and pushed (R614). -/
def errNext (s : State) : State :=
  let above := s.err.pend.filter fun c => s.handled < c + 1
  if above = [] then s
  else
    let c := above.foldl max 0
    { s with err := { s.err with pend := s.err.pend.filter (· != c) } }.errSignal c none

/-- ACK of class `c`: the stack pops; PEND of `c` keeps only arrivals made since `c` was signalled. -/
def errAck (s : State) (c : Nat) : State :=
  if s.handled = c + 1 then
    let pend := if s.err.pendNew.contains c then s.err.pend else s.err.pend.filter (· != c)
    { s with err := { s.err with stack := s.err.stack.tail, pend := pend } }.errNext
  else s.accessErr Pg.ERR

/-- A write of ERR_SWLOG. -/
def errSwlog (s : State) (cls code : Nat) : State :=
  if code < 0x80 then s.accessErr Pg.ERR else s.errArrive cls code 0xFF (s.get F.ERR_SWADDR_ADDR)

/-- MEM_SLOCK.OPEN and CLOSE (R606). -/
def slockOpen (s : State) : State := { s with arb := { s.arb with armed := true } }
def slockClose (s : State) : State :=
  let s := { s with arb := { s.arb with armed := false } }
  if s.is F.MEM_STAT_LOCKED ∧ s.get F.MEM_STAT_OWNER = 1 then s.unlock else s

end State

open State

/-- ARBITER_GRANT: of the accesses waiting, the arbiter grants one by credit, age or lock (R602), and it is carried out. -/
def execArbiterGrant (waiting : List ArbReq) (s : State) : Out := act s (s.alive && s.runs Pg.MEM) fun s => s.arbGrant waiting

/-- LOCK_BREAK: the owner is reset or masked (1), takes too many grants (2) or makes no access for LOCKTO (3), R607. -/
def execLockBreak (cause : Nat) (s : State) : Out :=
  act s (s.alive && s.is F.MEM_STAT_LOCKED && decide (1 ≤ cause) && decide (cause ≤ 3)
      && (cause != 2 || decide (s.lockMax ≤ s.arb.grants))) fun s =>
    (s.when (cause == 3) fun s => s.timerEnds (s.arb.lockedAt + s.lockTime)).lockBreak cause

/-- GATE_HANDSHAKE: the disabled block's bus port is quiescent and it holds no lock; its clock stops or it parks (R119,
R609). -/
def execGateHandshake (page : Nat) (s : State) : Out :=
  act s (s.alive && s.clk.gating.contains page && !s.lockOwner page) (·.closeGate page)

/-- SCRUB_VISIT: `upset` are the positions among the word's 80 bits found wrong beyond those already known. The scrubber
runs from the jump to ENTRY (R599). -/
def execScrubVisit (upset : List Nat) (s : State) : Out :=
  act s (s.phase == .running && s.runs Pg.ERR && s.is F.ERR_CFG_SCRUB) fun s =>
    let s := match s.arb.scrubbed with
      | some t => s.timerEnds (t + s.scrubStep)
      | none => s
    { s with arb := { s.arb with scrubbed := some s.elapsed } }.scrub upset

end Sys2Proof.Machine
end

