-- ==== Sys2Proof/Machine/Comp.lean ====
section
/-! DEFINITION. Repetitive controllers, angle tables, ramps, following-error supervisors, injectors and the frequency
response (14_compensation_supervision.md). Every addition and product is one rounded binary64 operation. -/

namespace Sys2Proof.Machine

/-- 2 pi in binary64. -/
def twoPi : DWord := 0x401921FB54442D18

/-- x - floor(x). -/
def dFrac (x : DWord) : DWord := dSub x (dInt (dVal x).floor)

/-- The larger and the smaller of two numbers. -/
def dMax (a b : DWord) : DWord := if dLt a b then b else a
def dMin (a b : DWord) : DWord := if dLt b a then b else a

/-- `x` limited to `lo`..`hi`. -/
def dClamp (x lo hi : DWord) : DWord := dMin (dMax x lo) hi

/-- `a` units of network time in seconds, binary64. -/
def dSeconds (a : Int) : DWord := dRat a State.unitsPerSec

/-- The stages of the feedback polynomials of R448 beside the oldest one. -/
def prbsTaps (n : Nat) : List Nat :=
  match n with
  | 7 => [6]
  | 8 => [6, 5, 4]
  | 9 => [5]
  | 10 => [7]
  | 11 => [9]
  | 12 => [11, 10, 4]
  | 13 => [12, 11, 8]
  | 14 => [13, 12, 2]
  | _ => [14]

/-- One step of the shift register of length `n`: stage `i` is bit `i - 1`, stage `n` the oldest. -/
def prbsStep (n l : Nat) : Nat :=
  let fb := (n :: prbsTaps n).foldl (fun a i => a ^^^ (l >>> (i - 1)) % 2) 0
  (2 * l + fb) % 2 ^ n

namespace State

/-! The signal table, R396 and R400. -/

def sigAddr (s : State) (n : Nat) : Nat := s.ctlBase + 4 * (n % 256)

/-- SIG[n]. -/
def sig (s : State) (n : Nat) : Word := BitVec.ofNat 32 (s.num (s.sigAddr n) 4)

/-- A write of SIG[n] by the engine's hardware. -/
def setSig (s : State) (n : Nat) (w : Word) : State := s.store 2 (s.sigAddr n) (leBytes 4 w.toNat)

/-- A binary32 register in force. -/
def actF (s : State) (a : Nat) : DWord := sToD (s.actReg a)

/-- A binary32 register in force, 0 where it is not finite. -/
def actFin (s : State) (a : Nat) : DWord := if sFinite (s.actReg a) then s.actF a else 0

/-- `n` bytes of memory from `a` become 0 with correct check bits. -/
def clearRange (s : State) (a n : Nat) : State :=
  { s with
    mem := kvKeep (fun k => decide (k < a) || decide (a + n ≤ k)) s.mem,
    memErr := kvKeep (fun k => decide (8 * k < a) || decide (a + n ≤ 8 * k)) s.memErr }

/-! The angle of the work in progress (R432, R658). -/

def theta (s : State) : DWord := match s.mod.used with | some x => x.theta | none => 0
def gridFreq (s : State) : DWord := match s.mod.used with | some x => x.freq | none => 0
def angleOk (s : State) : Bool := match s.mod.used with | some x => x.angv | none => false
def workTime (s : State) : Nat := match s.mod.used with | some x => x.time | none => 0
def workCycle (s : State) : Nat := match s.mod.used with | some x => x.k | none => 0

/-! Repetitive controllers, R430 to R437. -/

/-- Does the compensation region overlap the engine region (R430)? -/
def rcuOverlap (s : State) : Bool := meets (s.get F.RCU_BASE_BASE) 0x50000 s.ctlBase 0xB0000

/-- N of unit `u`. -/
def rcuPoints (s : State) (u : Nat) : Nat := 64 * 2 ^ min 6 (s.active (F.RCU_CFG_NPTS u))

/-- The address of point `m` of unit `u`. -/
def rcuAddr (s : State) (u m : Nat) : Nat := s.get F.RCU_BASE_BASE + 0x4000 * u + 4 * (m % s.rcuPoints u)

/-- Point `m` of unit `u`. -/
def rcuPoint (s : State) (u m : Nat) : DWord := sToD (BitVec.ofNat 32 (s.num (s.rcuAddr u m) 4))

/-- The unlagged position of unit `u`. -/
def rcuPos (s : State) (u : Nat) : DWord := dMul (dFrac (dDiv s.theta twoPi)) (dInt (s.rcuPoints u))

/-- The lead of unit `u` in points. -/
def rcuLead (s : State) (u : Nat) : DWord :=
  let n := s.rcuPoints u
  if s.active (F.RCU_CFG_LMODE u) = 0 then dInt (s.active (F.RCU_LEAD_LEAD u) % n)
  else dMul (dMul (dMul (dInt (s.active (F.RCU_LEAD_LEADNS u))) (dRat 1 1000000000)) s.gridFreq) (dInt n)

/-- Index and fraction of a position, modulo `n`. -/
def splitPos (x : DWord) (n : Nat) : Nat × DWord :=
  let f := (dVal x).floor
  ((f % (n : Int)).toNat, dSub x (dInt f))

/-- Do units run: the page runs and the regions are apart? -/
def rcuOn (s : State) : Bool := s.runs Pg.RCU && !s.rcuOverlap

/-- The value that unit `u` adds (R432), and whether a table word was poisoned. -/
def rcuValue (s : State) (u : Nat) : DWord × Bool × State :=
  if !s.rcuOn then (0, false, s)
  else
    let (i, phi) := splitPos (dAdd (s.rcuPos u) (s.rcuLead u)) (s.rcuPoints u)
    let (p0, s) := s.touch 2 (s.rcuAddr u i) 4
    let (p1, s) := s.touch 2 (s.rcuAddr u (i + 1)) 4
    let r := dAdd (dMul (dSub (dInt 1) phi) (s.rcuPoint u i)) (dMul phi (s.rcuPoint u (i + 1)))
    let v := if s.active (F.RCU_CFG_ENOUT u) = 1 then r else 0
    (v, p0 || p1, s.setReg (R.RCU_OUT u) (dToS v))

/-- TLIM in force, R455. -/
def rcuLimit (s : State) (u : Nat) : DWord :=
  let w := s.actReg (R.RCU_TLIM u)
  if sFinite w ∧ !(sLt w 0) then sToD w else sToD 0x7F7FFFFF

/-- lambda, R433. -/
def rcuLambda (s : State) (u : Nat) : DWord :=
  let f := min 24 (s.active (F.RCU_CFG_F u))
  if f = 0 then dInt 1 else dSub (dInt 1) (dRat 1 (2 ^ f))

/-- The four increments of R433 for points i - 1 to i + 2. -/
def rcuDeltas (smooth : Bool) (phi u : DWord) : List DWord :=
  let w : List DWord := if smooth then [dRat 1 4, dRat 1 2, dRat 1 4] else [0, dInt 1, 0]
  let lo (j : Nat) : DWord := dMul (dMul (nth w j 0) (dSub (dInt 1) phi)) u
  let hi (j : Nat) : DWord := dMul (dMul (nth w j 0) phi) u
  [lo 0, dAdd (hi 0) (lo 1), dAdd (hi 1) (lo 2), hi 2]

/-- Unit `u` learns from the error `e` at position `pos` (R433). -/
def rcuLearn (s : State) (u : Nat) (e : DWord) : State :=
  let n := s.rcuPoints u
  let (i, phi) := splitPos (s.rcuPos u) n
  let lam := s.rcuLambda u
  let lim := s.rcuLimit u
  let ds := rcuDeltas (s.active (F.RCU_CFG_SMOOTH u) == 1) phi (dMul (s.actFin (R.RCU_KL u)) e)
  let s := s.set (F.RCU_USTAT_IDX u) i
  forUpTo (fun j t =>
    let m := i + n - 1 + j
    let v := dAdd (dMul lam (t.rcuPoint u m)) (nth ds j 0)
    let c := dClamp v (dNeg lim) lim
    let t := t.when (c != v) fun t => (t.bump (F.RCU_CNT_CLAMPS u)).event Pg.RCU 9
    t.store 2 (t.rcuAddr u m) (leBytes 4 (dToS c).toNat)) 4 s

/-- Is the advance of the position since the last execution a jump (R434)? -/
def rcuJump (s : State) (u : Nat) : Bool :=
  let st := nth s.comp.rcu u {}
  match st.pos with
  | none => false
  | some q =>
    let n := s.rcuPoints u
    let d := dSub (s.rcuPos u) q
    let half := dRat n 2
    let w := if dLe half d then dSub d (dInt n) else if dLt d (dNeg half) then dAdd d (dInt n) else d
    let want := dMul (dMul s.gridFreq (dSeconds ((s.workTime : Int) - st.time))) (dInt n)
    dLt (dInt (2 + s.active (F.RCU_LEAD_JTOL u))) (dAbs (dSub w want))

/-- The reasons of R434 for which unit `u` skips learning, as the bits of WHY. -/
def rcuWhy (s : State) (u : Nat) (clamped : Bool) : Nat :=
  b2n (s.active (F.RCU_CFG_ENLRN u) == 0)
    + 2 * b2n (s.active (F.RCU_CFG_CLAMPFRZ u) == 1 && clamped)
    + 4 * b2n (nth s.comp.rcu u {}).pos.isNone
    + 8 * b2n (!s.angleOk)
    + 16 * b2n (s.rcuJump u)

/-- The learning part of one link of unit `u` (R433 to R435). -/
def rcuTeach (s : State) (u : Nat) (e : DWord) (clamped : Bool) : State :=
  if !s.rcuOn then s
  else if s.comp.taught.contains u then s.bump (F.RCU_CNT_LINKDUP u)
  else
    let why := s.rcuWhy u clamped
    let jump := s.rcuJump u
    let s := s.set (F.RCU_USTAT_WHY u) why
    let s := s.when jump fun s => (s.bump (F.RCU_CNT_JUMPS u)).event Pg.RCU 8
    let s := s.when (why == 0) (·.rcuLearn u e)
    let st : RcuSt := { pos := if s.active (F.RCU_CFG_ENLRN u) = 1 then some (s.rcuPos u) else none, time := s.workTime }
    { s with comp := { s.comp with rcu := setAt {} s.comp.rcu u st, taught := u :: s.comp.taught } }

/-- RCU_CMD.CLR (R436). -/
def rcuClear (s : State) (u : Nat) : State :=
  let s := s.clearRange (s.get F.RCU_BASE_BASE + 0x4000 * u) 0x4000
  let s := s.set F.RCU_STAT_CLR (s.get F.RCU_STAT_CLR ||| 1 <<< u)
  { s with comp := { s.comp with rcu := setAt {} s.comp.rcu u {} } }

/-! Angle tables, R438 to R440. -/

/-- The address of point `m` of the copy in use of table `t`. -/
def angAddr (s : State) (t m : Nat) : Nat :=
  s.get F.RCU_BASE_BASE + 0x40000 + 0x2000 * t + 0x1000 * b2n (bitOf (s.active F.ANG_COPY_COPY) t) + 4 * (m % 1024)

/-- A table point, 0 where it is not finite. -/
def angPoint (s : State) (t m : Nat) : DWord × State :=
  let w : Word := BitVec.ofNat 32 (s.num (s.angAddr t m) 4)
  if sFinite w then (sToD w, s) else (0, s.bump F.ANG_CNT_TNAN)

/-- The gain of table `t`, none where SIG[GIDX] is not finite. -/
def angGain (s : State) (t : Nat) : Option DWord :=
  let g := s.actFin (R.ANG_GAIN t)
  if s.active (F.ANG_CFG_GSEL t) = 0 then some g
  else
    let x := s.sig (s.active (F.ANG_CFG_GIDX t))
    if sFinite x then some (dMul g (sToD x)) else none

/-- The value of table `t` in this execution, with poison. -/
def angCompute (s : State) (t : Nat) : DWord × Bool × State :=
  if !(s.runs Pg.ANG && !s.rcuOverlap) then (0, false, s)
  else
    let h := max 1 (s.active (F.ANG_CFG_H t))
    let psi := dAdd (dMul (dInt h) s.theta) (s.actFin (R.ANG_PHI t))
    let (m, phi) := splitPos (dMul (dFrac (dDiv psi twoPi)) (dInt 1024)) 1024
    let (p0, s) := s.touch 2 (s.angAddr t m) 4
    let (p1, s) := s.touch 2 (s.angAddr t (m + 1)) 4
    let (a, s) := s.angPoint t m
    let (b, s) := s.angPoint t (m + 1)
    match s.angGain t with
    | some g =>
      let v := dMul g (dAdd (dMul (dSub (dInt 1) phi) a) (dMul phi b))
      (v, p0 || p1, s.setReg (R.ANG_OUT t) (dToS v))
    | none => (0, p0 || p1, (s.bump F.ANG_CNT_GNAN).setReg (R.ANG_OUT t) 0)

/-- The value of table `t`: every link reads the same in one stage C (R438). -/
def angValue (s : State) (t : Nat) : DWord × Bool × State :=
  match kvFind s.comp.angv t with
  | some (v, p) => (v, p, s)
  | none =>
    let (v, p, s) := s.angCompute t
    (v, p, { s with comp := { s.comp with angv := kvSet s.comp.angv t (v, p) } })

/-! Ramps, R441 to R443. -/

/-- A rate of a ramp: 0 where it is negative or not finite. -/
def rampRate (s : State) (a : Nat) : DWord :=
  let w := s.actReg a
  if sFinite w ∧ !(sLt w 0) then sToD w else 0

/-- The target of ramp `n`. -/
def rampTarget (s : State) (n : Nat) : Word :=
  let i := s.active (F.SUP_RCFG_IN n)
  if s.active (F.SUP_RCFG_SRC n) = 0 then s.sig i
  else match s.mod.used with
    | some x => nth (x.words.getD []) i 0x7FC00000
    | none => 0x7FC00000

/-- One execution of ramp `n`, `dt` after the previous stage A. A ramp that is to start from a target that is no number
waits for one (log 101). -/
def rampStep (s : State) (dt : DWord) (n : Nat) : State :=
  let r := nth s.comp.ramps n {}
  let bit (s : State) (b : Bool) : State := s.set ⟨R.SUP_RSTAT, n, 1⟩ (b2n b)
  if s.active (F.SUP_RCFG_EN n) = 0 then
    bit { s with comp := { s.comp with ramps := setAt {} s.comp.ramps n { r with on := false } } } false
  else
    let g := s.rampTarget n
    let init := s.active (F.SUP_RCFG_INIT n) == 1
    let y0 := if r.on then r.y else if init then s.actF (R.SUP_RINIT n) else if sFinite g then sToD g else r.y
    let hold := s.active (F.SUP_RCFG_HOLD n) == 1
    let s := s.when (!hold && !sFinite g) fun s => (s.bump F.SUP_RSTAT_NANS).event Pg.SUP 12
    let y :=
      if hold ∨ !sFinite g then y0
      else dAdd y0 (dClamp (dSub (sToD g) y0) (dNeg (dMul (s.rampRate (R.SUP_RDN n)) dt)) (dMul (s.rampRate (R.SUP_RUP n)) dt))
    let s := { s with comp := { s.comp with ramps := setAt {} s.comp.ramps n { y := y, on := r.on || init || sFinite g } } }
    bit (s.setSig (s.active (F.SUP_RCFG_OUT n)) (dToS y)) (!(dLe y (sToD g) && dLe (sToD g) y))

/-- The ramps of stage A, in ascending number. -/
def ramps (s : State) : State :=
  if !s.runs Pg.SUP then s
  else
    let dt := if s.comp.rampAt = 0 then 0 else dSeconds ((s.workTime : Int) - s.comp.rampAt)
    let s := forUpTo (fun n t => t.rampStep dt n) 16 s
    { s with comp := { s.comp with rampAt := s.workTime } }

/-! Following-error supervision, R444 to R446. -/

def fe (s : State) (c : Nat) : FeSt := (kvFind s.comp.fe c).getD {}
def setFe (s : State) (c : Nat) (f : FeSt) : State := { s with comp := { s.comp with fe := kvSet s.comp.fe c f } }

/-- Does an injector with FEINH = 1 inject into chain `c`? -/
def feInhibited (s : State) (c : Nat) : Bool :=
  (List.range 2).any fun i => (nth s.comp.inj i {}).run && (nth s.comp.inj i {}).t0.isSome
    && s.is (F.SUP_ICTL_FEINH i) && s.get (F.SUP_ICTL_CHAIN i) == c

/-- A supervisor trips and acts under ACT. -/
def feTrip (s : State) (c : Nat) (f : FeSt) : State :=
  let s := s.setFe c { f with tripped := true, trips := min 255 (f.trips + 1) }
  let act := getBits f.cfg 4 2
  let s := s.when (decide (1 ≤ act)) (·.event Pg.SUP 8)
  let s := s.when (decide (2 ≤ act)) (·.errArrive 3 0x0D 0xFF c)
  s.when (act == 3) (·.blockRequest 4)

/-- Supervisor `c` evaluates `d` at an execution of chain `c`. -/
def feEval (s : State) (c : Nat) (d : DWord) : State :=
  let f := s.fe c
  if !s.runs Pg.SUP ∨ getBits f.cfg 0 1 = 0 then s
  else
    let lim := if sFinite f.lim ∧ !(sLt f.lim 0) then sToD f.lim else sToD 0x7F800000
    let hys := if sLt f.hys 0 then 0 else sToD f.hys
    let above := dLt lim (dAbs d)
    let time := max 1 (getBits f.cfg 16 16)
    let inh := s.feInhibited c
    let timer := if inh then f.timer else if above then min time (f.timer + 1) else 0
    let f := { f with above := above, timer := timer }
    let s := s.setFe c f
    if f.tripped then
      if dLe (dAbs d) (dSub lim hys) then (s.setFe c { f with tripped := false }).event Pg.SUP 9 else s
    else if above && !inh && decide (time ≤ timer) then s.feTrip c f
    else s

/-! Injectors, R447 to R450. -/

def inj (s : State) (i : Nat) : InjSt := nth s.comp.inj i {}
def setInj (s : State) (i : Nat) (x : InjSt) : State := { s with comp := { s.comp with inj := setAt {} s.comp.inj i x } }

/-- The injector stops: v drops to 0, INJ_DONE is raised. -/
def injStop (s : State) (i : Nat) : State :=
  ((s.setInj i {}).set (F.SUP_ISTAT_RUN i) 0).event Pg.SUP 10

/-- A frequency response that runs on an injector stopped before its end aborts (R452). -/
def frAbort (s : State) : State :=
  match s.comp.fr with
  | none => s
  | some f =>
    let p := s.get F.SUP_FRSTAT_POINT
    let r := nth s.comp.frRes p {}
    let done := f.n - s.get F.SUP_FRSET_SETTLE
    let s := { s with comp := { s.comp with fr := none, frRes := setAt {} s.comp.frRes p { r with abort := true, m := done } } }
    s.set F.SUP_FRSTAT_BUSY 0

/-- Length of the shift register, R448. -/
def injLength (s : State) (i : Nat) : Nat :=
  let n := s.get (F.SUP_IPRBS_NPRBS i)
  if 7 ≤ n ∧ n ≤ 15 then n else 15

/-- v of injector `i` with state `x` at time `t`. -/
def injValue (s : State) (i : Nat) (x : InjSt) (t : Nat) : DWord :=
  let amp := sToD (s.reg (R.SUP_IAMP i))
  let tau := dSeconds ((t : Int) - x.t0.getD t)
  let phi := sToD (s.reg (R.SUP_IPHI i))
  let f0 := match x.fr with | some f => f | none => sToD (s.reg (R.SUP_IF0 i))
  let ty := if x.fr.isSome then 0 else s.get (F.SUP_ICTL_TYPE i)
  if ty = 1 then if bitOf x.lfsr (s.injLength i - 1) then amp else dNeg amp
  else if ty = 2 then
    let d := dMul (dInt (s.get (F.SUP_IDUR_DUR i))) (dSeconds x.tc)
    let sweep := dDiv (dMul (dSub (sToD (s.reg (R.SUP_IF1 i))) f0) (dMul tau tau)) (dMul (dInt 2) d)
    dMul amp (Config.sin64 (dAdd (dMul twoPi (dAdd (dMul f0 tau) sweep)) phi))
  else dMul amp (Config.sin64 (dAdd (dMul (dMul twoPi f0) tau) phi))

/-- One execution of injector `i`: its value of this execution is set, 0 where it does not inject. -/
def injStep (s : State) (i : Nat) : State :=
  let quiet (s : State) : State := { s with comp := { s.comp with v := setAt 0 s.comp.v i 0 } }
  let x := s.inj i
  if !x.run ∨ !s.runs Pg.SUP then quiet s
  else if x.stop then quiet ((s.when x.fr.isSome frAbort).injStop i)
  else if (match x.at' with | some c => decide (s.workCycle < c) | none => false) then quiet s
  else
    let dur := s.get (F.SUP_IDUR_DUR i)
    let ends := x.fr.isNone && ((dur != 0 && decide (dur ≤ x.n)) || (dur == 0 && s.get (F.SUP_ICTL_TYPE i) == 2))
    if ends then quiet (s.injStop i)
    else
      let x := if x.t0.isSome then x
        else { x with t0 := some s.workTime, tc := s.tcyc, lfsr := 2 ^ s.injLength i - 1, bit := 0 }
      let v := s.injValue i x s.workTime
      let adv := decide (max 1 (s.get (F.SUP_IPRBS_BITLEN i)) ≤ x.bit + 1)
      let x := { x with n := x.n + 1, lfsr := if adv then prbsStep (s.injLength i) x.lfsr else x.lfsr, bit := if adv then 0 else x.bit + 1 }
      let s := (s.setInj i x).bump (F.SUP_ISTAT_DONE i)
      { s with comp := { s.comp with v := setAt 0 s.comp.v i v } }

/-- The injectors at the start of a stage C, with MONEN (R449). -/
def injectors (s : State) : State :=
  forUpTo (fun i t =>
    let t := t.injStep i
    t.when (t.runs Pg.SUP && t.is (F.SUP_ICTL_MONEN i)) fun t => t.setSig (t.get (F.SUP_ICTL_MON i)) (dToS (nth t.comp.v i 0))) 2 s

/-- The injector values that a chain adds at a point, in ascending number. -/
def injAt (s : State) (c point : Nat) (x : DWord) : DWord :=
  (List.range 2).foldl (fun a i =>
    if (s.inj i).run && (s.inj i).t0.isSome && s.get (F.SUP_ICTL_CHAIN i) == c && s.get (F.SUP_ICTL_POINT i) == point
    then dAdd a (nth s.comp.v i 0) else a) x

/-- SUP_IiCTL.GO. -/
def injGo (s : State) (i : Nat) : State :=
  if s.is (F.SUP_ISTAT_RUN i) ∨ s.get (F.SUP_ICTL_TYPE i) = 3 then s.accessErr Pg.SUP
  else
    let cyc := (s.reg (R.SUP_ICYC_LO i)).toNat + 2 ^ 32 * getBits (s.reg (R.SUP_ICYC_HI i)) 0 16
    let s := s.setInj i { run := true, at' := if s.is (F.SUP_ICTL_AT i) then some cyc else none }
    (s.set (F.SUP_ISTAT_RUN i) 1).set (F.SUP_ISTAT_DONE i) 0

/-- SUP_IiCTL.STOP. -/
def injStopCmd (s : State) (i : Nat) : State :=
  if (s.inj i).run then s.setInj i { s.inj i with stop := true } else s

/-! Frequency response, R451 to R453. -/

/-- The frequency response and its injector stop with the page (R452). -/
def frStop (s : State) : State :=
  match s.comp.fr with
  | some f => s.frAbort.injStop f.inj
  | none => s

/-- Point `p` starts on injector `i`: M, f', and the injector in SINE at f'. -/
def frStart (s : State) (i p : Nat) : State :=
  let per := dInt (max 1 (s.get F.SUP_FRSET_P))
  let t := dSeconds s.tcyc
  let (q, s) := s.rounded (dDiv per (dMul (sToD (s.reg (R.SUP_FRQ p))) t))
  let m : Nat := max 1 q.toNat
  let f := dDiv per (dMul (dInt m) t)
  let s := (s.setInj i { run := true, fr := some f }).set (F.SUP_ISTAT_RUN i) 1
  let s := (s.set F.SUP_FRSTAT_POINT p).set F.SUP_FRSTAT_BUSY 1
  { s with comp := { s.comp with fr := some { inj := i, m := m, f := f }, frRes := setAt {} s.comp.frRes p { fused := dToS f } } }

/-- SUP_FRCTL.GO: refused while its injector, or the injector of a response in progress, runs. -/
def frGo (s : State) : State :=
  if s.is (F.SUP_ISTAT_RUN (s.get F.SUP_FRCTL_INJ)) ∨ s.comp.fr.isSome then s.accessErr Pg.SUP
  else ({ s with comp := { s.comp with frRes := List.replicate 16 {} } }.set F.SUP_FRSTAT_DONE 0).frStart (s.get F.SUP_FRCTL_INJ) 0

/-- A finite sample of a signal as binary64, or 0. -/
def frSample (s : State) (n : Nat) : DWord := if sFinite (s.sig n) then sToD (s.sig n) else 0

/-- The accumulators at the end of a stage C. -/
def frStep (s : State) : State :=
  match s.comp.fr with
  | none => s
  | some f =>
    let p := s.get F.SUP_FRSTAT_POINT
    let settle := s.get F.SUP_FRSET_SETTLE
    let r := nth s.comp.frRes p {}
    let k := s.workCycle
    let ui := s.get F.SUP_FRCTL_UIDX
    let yi := s.get F.SUP_FRCTL_YIDX
    let r :=
      if f.n < settle then r
      else
        let x := s.inj f.inj
        let psi := dMul (dMul twoPi f.f) (dSeconds ((s.workTime : Int) - x.t0.getD s.workTime))
        let u := s.frSample ui
        let y := s.frSample yi
        { r with
          m := r.m + 1, nanf := r.nanf || !sFinite (s.sig ui) || !sFinite (s.sig yi),
          skip := r.skip || (decide (settle < f.n) && f.last + 1 != k),
          iu := dAdd r.iu (dMul u (Config.cos64 psi)), qu := dAdd r.qu (dMul u (Config.sin64 psi)),
          iy := dAdd r.iy (dMul y (Config.cos64 psi)), qy := dAdd r.qy (dMul y (Config.sin64 psi)) }
    let s := { s with comp := { s.comp with fr := some { f with n := f.n + 1, last := k }, frRes := setAt {} s.comp.frRes p r } }
    if f.n + 1 < settle + f.m then s
    else if p < s.get F.SUP_FRCTL_NPT then s.frStart f.inj (p + 1)
    else
      let s := { s with comp := { s.comp with fr := none } }
      let s := (s.set F.SUP_FRSTAT_BUSY 0).set F.SUP_FRSTAT_DONE 1
      (s.injStop f.inj).event Pg.SUP 11

end State

open State

/-- RCU_CLEAR_DONE: the background clear of a table finishes (R436). -/
def execRcuClearDone (u : Nat) (s : State) : Out :=
  act s (s.alive && s.isHub && decide (u < 16)) fun s =>
    s.set F.RCU_STAT_CLR (s.get F.RCU_STAT_CLR &&& (65535 - 1 <<< u))

end Sys2Proof.Machine
end

