-- ==== Sys2Proof/Machine/Engine.lean ====
section
/-! DEFINITION. The control engine (13_control_engine.md): sections, chains, slots, schedulers, handover. Every operation on
binary64 values is rounded on its own (R390). -/

namespace Sys2Proof.Machine

/-- A section as a chain reads it: coefficients, limits, clamp mode, states (R390, R391). -/
structure Sec where
  idx : Nat
  b0 : DWord
  b1 : DWord
  b2 : DWord
  a1 : DWord
  a2 : DWord
  lo : DWord
  hi : DWord
  limen : Bool
  freeze : Bool
  s1 : DWord
  s2 : DWord
  xprev : DWord
  ylast : DWord
  clamped : Bool := false
  deriving DecidableEq, Repr

/-- The end of a section's execution from its unclamped output `y` (R390). -/
def Sec.finish (q : Sec) (x y : DWord) : Sec :=
  let hiC := q.limen && dLt q.hi y
  let y1 := if hiC then q.hi else y
  let loC := q.limen && dLt y1 q.lo
  let y2 := if loC then q.lo else y1
  let cl := hiC || loC
  let q := if cl && q.freeze then q
    else { q with s1 := dAdd (dSub (dMul q.b1 x) (dMul q.a1 y2)) q.s2, s2 := dSub (dMul q.b2 x) (dMul q.a2 y2) }
  { q with xprev := x, ylast := y2, clamped := cl }

/-- One execution of a section (R390). -/
def Sec.run (q : Sec) (x : DWord) : Sec := q.finish x (dAdd (dMul q.b0 x) q.s1)

/-- Are the output and the states finite (R394)? -/
def Sec.sound (q : Sec) : Bool := dFinite q.ylast && dFinite q.s1 && dFinite q.s2

/-- A cascade: each section's output is the next one's input (R392). The answer is the sections after the execution, the
last section's input and its output. -/
def runSecs (x : DWord) : List Sec → List Sec × DWord × DWord
  | [] => ([], x, x)
  | [q] => let q := q.run x; ([q], x, q.ylast)
  | q :: r =>
    let q := q.run x
    let (l, xi, y) := runSecs q.ylast r
    (q :: l, xi, y)

/-- A chain entry, R402. -/
structure ChainEnt where
  inA : Nat
  inB : Nat
  out : Nat
  op : Nat
  outen : Bool
  blend : Bool
  rescale : Bool
  en : Bool
  first : Nat
  nsec : Nat
  nbank : Nat
  sched : Nat
  bmap : Nat
  kin : Word
  links : List Nat
  deriving DecidableEq, Repr

/-- How a program runs: its slot, whether it is the incoming program of a handover, the signals that it then reads from
the blend table, whether its chains are back-calculated (R415). -/
structure RunCtx where
  slot : Nat
  incoming : Bool := false
  outs : List Nat := []
  compare : Bool := false
  deriving DecidableEq, Repr

namespace State

/-! Slots, R401. -/

def secAddr (s : State) (sl i b : Nat) : Nat := s.slotBase sl + 0x8000 + 512 * i + 64 * b
def stAddr (s : State) (sl i : Nat) : Nat := s.slotBase sl + 0x1000 + 32 * i
def slotNch (s : State) (sl : Nat) : Nat := s.num (s.slotBase sl + 6) 2
def slotNsect (s : State) (sl : Nat) : Nat := s.num (s.slotBase sl + 8) 2

/-- Chain entry `c` of a slot. -/
def chainEnt (s : State) (sl c : Nat) : ChainEnt :=
  let a := s.slotBase sl + 0x40 + 32 * c
  let f := s.num (a + 3) 1
  { inA := s.num a 1, inB := s.num (a + 1) 1, out := s.num (a + 2) 1, op := f % 4, outen := bitOf f 2, blend := bitOf f 3,
    rescale := bitOf f 4, en := bitOf f 5, first := s.num (a + 4) 2, nsec := s.num (a + 6) 1, nbank := s.num (a + 7) 1,
    sched := s.num (a + 8) 1, bmap := s.num (a + 9) 3, kin := BitVec.ofNat 32 (s.num (a + 12) 4),
    links := (s.bytes (a + 16) 16).map (·.toNat) }

/-- A binary64 value in memory. -/
def dAt (s : State) (a : Nat) : DWord := BitVec.ofNat 64 (s.num a 8)

/-- Section `i` of a slot under bank `b`. -/
def secAt (s : State) (sl i b : Nat) : Sec :=
  let a := s.secAddr sl i b
  let t := s.stAddr sl i
  { idx := i, b0 := s.dAt a, b1 := s.dAt (a + 8), b2 := s.dAt (a + 16), a1 := s.dAt (a + 24), a2 := s.dAt (a + 32),
    lo := s.dAt (a + 40), hi := s.dAt (a + 48), limen := bitOf (s.num (a + 56) 8) 0, freeze := bitOf (s.num (a + 56) 8) 1,
    s1 := s.dAt t, s2 := s.dAt (t + 8), xprev := s.dAt (t + 16), ylast := s.dAt (t + 24) }

/-- The states of a section are stored. -/
def putSec (s : State) (sl : Nat) (q : Sec) : State :=
  s.store 2 (s.stAddr sl q.idx) (leBytes 8 q.s1.toNat ++ leBytes 8 q.s2.toNat ++ leBytes 8 q.xprev.toNat ++ leBytes 8 q.ylast.toNat)

/-- Every state of a section becomes +0. -/
def zeroSec (s : State) (sl i : Nat) : State := s.store 2 (s.stAddr sl i) (List.replicate 32 0)

/-- The sections of a chain entry. -/
def zeroChain (s : State) (sl : Nat) (e : ChainEnt) : State := forUpTo (fun j t => t.zeroSec sl (e.first + j)) e.nsec s

/-! Schedulers and banks, R410 to R412. -/

/-- Are the thresholds in use or h invalid? -/
def schBad (s : State) (k : Nat) : Bool :=
  let n := s.active (F.SCHD_CFG_NREG k)
  let t (j : Nat) : Word := s.actReg (R.SCHD_THR k j)
  let h := s.actReg (R.SCHD_HYS k)
  (List.range n).any (fun j => !sFinite (t j)) || (List.range (n - 1)).any (fun j => !sLt (t j) (t (j + 1)))
    || !sFinite h || sLt h 0

/-- The region climbs while the signal is above the next boundary, and falls while it is below the last. -/
def schUp (s : State) (k n : Nat) (x h : Word) : (fuel r : Nat) → Nat
  | 0, r => r
  | f + 1, r => if r < n ∧ sLe (sAdd (s.actReg (R.SCHD_THR k r)) h) x then s.schUp k n x h f (r + 1) else r

def schDown (s : State) (k : Nat) (x h : Word) : (fuel r : Nat) → Nat
  | 0, r => r
  | f + 1, r => if 0 < r ∧ sLt x (sSub (s.actReg (R.SCHD_THR k (r - 1))) h) then s.schDown k x h f (r - 1) else r

/-- Scheduler `k` is evaluated, R410. -/
def schEval (s : State) (k : Nat) : State :=
  if s.active (F.SCHD_CFG_EN k) = 0 then s
  else if s.schBad k then
    (s.set (F.SCHD_STAT_ERRCFG k) 1).event Pg.SCHD 12
  else
    let s := s.set (F.SCHD_STAT_ERRCFG k) 0
    let x := s.sig (s.active (F.SCHD_CFG_SIG k))
    if !sFinite x then s.bump (F.SCHD_STAT_NANS k)
    else
      let n := s.active (F.SCHD_CFG_NREG k)
      let h := s.actReg (R.SCHD_HYS k)
      let r0 := s.get (F.SCHD_STAT_REGION k)
      let r :=
        if nth s.eng.schInit k false then s.schDown k x h 8 (s.schUp k n x h 8 r0)
        else ((List.range n).filter fun j => sLe (s.actReg (R.SCHD_THR k j)) x).length
      let s := { s with eng := { s.eng with schInit := setAt false s.eng.schInit k true } }
      if r = r0 then s else ((s.set (F.SCHD_STAT_REGION k) r).count (F.SCHD_STAT_CHANGES k)).event Pg.SCHD (8 + k)

/-- Every scheduler is evaluated. -/
def schedulers (s : State) : State := if s.runs Pg.SCHD then forUpTo (fun k t => t.schEval k) 4 s else s

/-- The bank of a chain in this execution, R411. -/
def bankOf (s : State) (c : Nat) (e : ChainEnt) : Nat :=
  let top := e.nbank - 1
  if s.active (F.CHAIN_CTL_FEN c) = 1 then min top (s.active (F.CHAIN_CTL_FBANK c))
  else if e.sched < 4 ∧ s.active (F.SCHD_CFG_EN e.sched) = 1 then
    min top ((e.bmap >>> (3 * s.get (F.SCHD_STAT_REGION e.sched))) % 8)
  else 0

/-! Execution of a chain. -/

/-- The address from which a program reads signal `n` (R415). -/
def sigSource (s : State) (ctx : RunCtx) (n : Nat) : Nat :=
  if ctx.incoming ∧ ctx.outs.contains n then s.ctlBase + 0x400 + 4 * (n % 256) else s.sigAddr n

/-- A binary32 word of memory read by the engine. -/
def readSig (s : State) (a : Nat) : Word × Bool × State :=
  let (p, s) := s.touch 2 a 4
  (BitVec.ofNat 32 (s.num a 4), p, s)

/-- Values of the links of a chain at a point: angle tables in link order, then repetitive controllers (R426). -/
def linkValues (s : State) (e : ChainEnt) (point : Nat) : List DWord × Bool × State :=
  let take (acc : List DWord × Bool × State) (b : Nat) (rcu : Bool) : List DWord × Bool × State :=
    if bitOf b 7 ∧ b2n (bitOf b 6) = point then
      let (v, p, s) := if rcu then acc.2.2.rcuValue (b % 16) else acc.2.2.angValue (b % 8)
      (acc.1 ++ [v], acc.2.1 || p, s)
    else acc
  if s.isCell then ([], false, s)
  else
    let a := [4, 5].foldl (fun acc i => take acc (nth e.links i 0) false) ([], false, s)
    [0, 1, 2, 3].foldl (fun acc i => take acc (nth e.links i 0) true) a

/-- The learning links of a chain, in their order (R433, R435). -/
def teachLinks (s : State) (e : ChainEnt) (err : DWord) (clamped : Bool) : State :=
  if s.isCell then s
  else [0, 1, 2, 3].foldl (fun t i =>
    let b := nth e.links i 0
    if bitOf b 7 then t.rcuTeach (b % 16) err clamped else t) s

/-- A chain reads poison, R395. -/
def chainPoison (s : State) : State := ((s.bump F.CTL_CNT_POISON).event Pg.CTL 15).set F.CTL_STAT_INVALID 1

/-- The record of a chain's execution in CHAIN_STATc (R422). -/
def chainStat (s : State) (c : Nat) (e : ChainEnt) (bank : Nat) (clamped : Bool) : State :=
  let s := s.set (F.CHAIN_STAT_BANK c) bank
  let s := s.set (F.CHAIN_STAT_REGION c) (if e.sched < 4 then s.get (F.SCHD_STAT_REGION e.sched) else 0)
  (s.set (F.CHAIN_STAT_CLAMPED c) (b2n clamped)).when clamped (·.bump (F.CHAIN_STAT_CLAMPS c))

/-- A chain writes its output, rounded to binary32 (R393), into the signal table or, incoming, the blend table. -/
def chainOut (s : State) (ctx : RunCtx) (e : ChainEnt) (y : DWord) : State :=
  let (w, ovf) := dToSClamp y
  let a := if ctx.incoming then s.ctlBase + 0x400 + 4 * e.out else s.sigAddr e.out
  (s.when ovf (·.bump F.CTL_CNT_OVF)).store 2 a (leBytes 4 w.toNat)

/-- CTL_HO_TOL in force: 0 where it is negative or not finite. -/
def hoTol (s : State) : DWord :=
  let w := s.reg R.CTL_HO_TOL
  if sFinite w ∧ !sLt w 0 then sToD w else 0

/-- Back-calculation of a chain's last section, R416 and R427: it is run again from the states in `before`, the output of
the chain becoming `yOut`, its own `yOut` less the point-1 values. -/
def backCalc (before l : List Sec) (x yOut pt1 : DWord) : List Sec :=
  match before.getLast? with
  | none => l
  | some q =>
    let y := dSub yOut pt1
    let q' := { q with s1 := dSub y (dMul q.b0 x) }
    l.dropLast ++ [q'.finish x y]

/-- Chain `c` runs with the values it has read: `d` is A op B. The list of signals written grows by its OUT. -/
def chainBody (s : State) (ctx : RunCtx) (c : Nat) (e : ChainEnt) (d : DWord) (secs : List Sec) (bank : Nat)
    (pt0 pt1 : List DWord) : List Nat × State :=
  let s := s.when (!ctx.incoming) (·.feEval c d)
  let err := dMul (sToD e.kin) d
  let x := pt0.foldl dAdd (s.injAt c 0 err)
  let (after, xLast, ySec) := runSecs x secs
  let add1 (y : DWord) : DWord := pt1.foldl dAdd (s.injAt c 1 y)
  let y := add1 ySec
  let clamped := after.any (·.clamped)
  let s := s.teachLinks e err clamped
  let s := { s with eng := { s.eng with banks := kvSet s.eng.banks (64 * ctx.slot + c) bank } }
  let s := s.chainStat c e bank clamped
  if after.all (·.sound) ∧ dFinite y then
    let old := sToD (s.sig e.out)
    let back := ctx.compare && e.blend && e.outen && dLt s.hoTol (dAbs (dSub y old))
    let after := if back then backCalc secs after xLast old (add1 0) else after
    let s := after.foldl (fun t q => t.putSec ctx.slot q) s
    let s := s.when back (fun s =>
      let s := (s.bump F.CTL_HO_STAT_NBC).count F.CTL_HOCNT_BACKCALCS
      match s.eng.ho with
      | some h => { s.when (!h.back) (·.event Pg.CTL 12) with eng := { s.eng with ho := some { h with back := true } } }
      | none => s)
    if e.outen then ([e.out], s.chainOut ctx e (if back then old else y)) else ([], s)
  else
    let s := (s.bump F.CTL_CNT_OVF).event Pg.CTL 14
    ([], after.foldl (fun t q => t.zeroSec ctx.slot q.idx) s)

/-- The states that a bank swap hands to a chain, R412: with RESCALE the first states absorb the change of b0. -/
def swapStates (s : State) (sl : Nat) (e : ChainEnt) (old : Option Nat) (bank : Nat) (q : Sec) : Sec :=
  match old with
  | some b => if b ≠ bank ∧ e.rescale then
      { q with s1 := dAdd q.s1 (dMul (dSub (s.dAt (s.secAddr sl q.idx b)) q.b0) q.xprev) } else q
  | none => q

/-- Chain `c` of a program is executed (R392 to R395, R411, R412, R426, R428). -/
def chainRun (s : State) (ctx : RunCtx) (c : Nat) : List Nat × State :=
  let e := s.chainEnt ctx.slot c
  let held := s.active (F.CHAIN_CTL_HOLD c) == 1
  let s := s.set (F.CHAIN_STAT_HELD c) (b2n held)
  if !e.en ∨ held then ([], s)
  else
    let (p0, s) := s.touch 2 (s.slotBase ctx.slot + 0x40 + 32 * c) 32
    let (a, pa, s) := s.readSig (s.sigSource ctx e.inA)
    let (b, pb, s) := if e.op = 0 then (0, false, s) else s.readSig (s.sigSource ctx e.inB)
    if p0 || pa || pb then ([], s.chainPoison)
    else if !sFinite a || !sFinite b then ([], (s.bump F.CTL_CNT_NAN).event Pg.CTL 13)
    else
    let bank := s.bankOf c e
    let idx := (List.range e.nsec).map (e.first + ·)
    let (ps, s) := idx.foldl (fun acc i =>
      let (x, t) := acc.2.touch 2 (acc.2.secAddr ctx.slot i bank) 64
      let (y, t) := t.touch 2 (t.stAddr ctx.slot i) 32
      (acc.1 || x || y, t)) (false, s)
    let (pt0, l0, s) := s.linkValues e 0
    let (pt1, l1, s) := s.linkValues e 1
    if ps || l0 || l1 then ([], s.chainPoison)
    else
      let old := kvFind s.eng.banks (64 * ctx.slot + c)
      let secs := idx.map fun i => s.swapStates ctx.slot e old bank (s.secAt ctx.slot i bank)
      let s := s.when (match old with | some o => o != bank | none => false) (·.event Pg.CHAIN 10)
      let da := sToD a
      let db := sToD b
      let d := match e.op with | 1 => dSub da db | 2 => dAdd da db | _ => da
      s.chainBody ctx c e d secs bank pt0 pt1
/-- The chains of a program in ascending number (R405), with the signals written. -/
def programRun (s : State) (ctx : RunCtx) : List Nat × State :=
  (List.range (s.slotNch ctx.slot)).foldl (fun acc c =>
    let (w, t) := acc.2.chainRun ctx c
    (acc.1 ++ w, t)) ([], s)

/-! Handover, R414 to R418. -/

def hoState (s : State) (n : Nat) : State := (s.set F.CTL_STAT_HO n).set F.CTL_HO_STAT_STATE n

/-- The handover ends: with `take` the incoming slot becomes active. -/
def hoEnd (s : State) (h : HoSt) (last : Nat) (take : Bool) : State :=
  let s := s.when take fun s => (s.set F.CTL_STAT_ACT h.slot).count F.CTL_HOCNT_HANDOVERS
  let s := ((s.hoState 0).set F.CTL_HO_STAT_LAST last).event Pg.CTL 11
  { s with eng := { s.eng with ho := none } }

/-- OUT of every enabled chain with OUTEN of a slot. -/
def slotOuts (s : State) (sl : Nat) : List Nat :=
  (List.range (s.slotNch sl)).filterMap fun c =>
    let e := s.chainEnt sl c
    if e.en && e.outen then some e.out else none

/-- Is signal `n` written by a chain of the slot with BLEND = 1? -/
def blends (s : State) (sl n : Nat) : Bool :=
  (List.range (s.slotNch sl)).any fun c =>
    let e := s.chainEnt sl c
    e.en && e.outen && e.blend && e.out == n

/-- The blend value of signal `n`. -/
def blendSig (s : State) (n : Nat) : Word := BitVec.ofNat 32 (s.num (s.ctlBase + 0x400 + 4 * n) 4)

/-- Signal `n` takes its value from the blend table. -/
def copyBlend (s : State) (n : Nat) : State := s.setSig n (s.blendSig n)

/-- The end of a blended execution `c`, R417. -/
def blendStep (s : State) (h : HoSt) (outW inW : List Nat) : State :=
  let w := dDiv (dInt (h.c + 1)) (dInt (h.nb + 1))
  inW.eraseDups.foldl (fun t n =>
    if outW.contains n && t.blends h.slot n then
      let v := dAdd (dMul (dSub (dInt 1) w) (sToD (t.sig n))) (dMul w (sToD (t.blendSig n)))
      t.setSig n (dToS v)
    else t.copyBlend n) s

/-- One execution of a handover in progress. -/
def hoRun (s : State) (h : HoSt) : State :=
  let first := !h.running
  let (outW, s) := match s.running with
    | some sl => s.programRun { slot := sl }
    | none => ([], s)
  let outs := s.slotOuts h.slot
  let s := if first then
      let s := outs.eraseDups.foldl (fun t n => t.store 2 (t.ctlBase + 0x400 + 4 * n) (leBytes 4 (t.sig n).toNat)) s
      { s.hoState 2 with eng := { s.eng with ho := some { h with running := true } } }
    else s
  let (inW, s) := s.programRun { slot := h.slot, incoming := true, outs := outs, compare := first }
  let h := s.eng.ho.getD h
  if first ∧ (!h.back ∨ h.nb = 0) then
    (inW.eraseDups.foldl (fun t n => t.copyBlend n) s).hoEnd h 1 true
  else
    let s := s.blendStep h outW inW
    let s := s.set F.CTL_HO_STAT_C (h.c + 1)
    if h.nb ≤ h.c + 1 then s.hoEnd h 2 true
    else { s with eng := { s.eng with ho := some { h with c := h.c + 1 } } }

/-- The running program runs alone. -/
def runAlone (s : State) : State :=
  match s.running with
  | some sl => (s.programRun { slot := sl }).2
  | none => s

/-- The programs of one execution for cycle `k`. -/
def programs (s : State) (k : Nat) : State :=
  match s.eng.ho with
  | some h =>
    if h.abort then (s.hoEnd h 3 false).runAlone
    else if h.start ≤ k then s.hoRun h
    else s.runAlone
  | none => s.runAlone

/-- A write of CTL_HO_CTL with GO (R414). -/
def hoGo (s : State) (kh : Nat) : State :=
  let sl := s.get F.CTL_HO_CTL_SLOT
  let timed := s.is F.CTL_HO_CTL_AT
  let j := if timed then (s.reg R.CTL_HO_CYC_LO).toNat + 2 ^ 32 * s.get F.CTL_HO_CYC_HI_CYC else kh + 1
  if !s.slotValid sl || sl == s.get F.CTL_STAT_ACT || s.eng.ho.isSome
      || (timed && (decide (j ≤ kh + 1) || decide (kh + 2 ^ 31 < j))) then s.accessErr Pg.CTL
  else
    let s := { s with eng := { s.eng with ho := some { slot := sl, start := j, nb := min 64 (s.get F.CTL_HO_CTL_NB) } } }
    ((s.hoState 1).set F.CTL_HO_STAT_C 0).set F.CTL_HO_STAT_NBC 0 |>.event Pg.CTL 10

/-- ABORT (R418): a pending handover ends at once, a blend at its next execution. -/
def hoAbort (s : State) : State :=
  match s.eng.ho with
  | none => s
  | some h => if h.running then { s with eng := { s.eng with ho := some { h with abort := true } } } else s.hoEnd h 3 false

/-- The engine stops, with any handover aborted: EN = 0 of the CTL page (R418). -/
def engStop (s : State) : State :=
  match s.eng.ho with
  | none => s
  | some h => s.hoEnd h 3 false

/-! Slot checks, R403 and R404. -/

/-- CTL_PGM_CMD.LOAD. -/
def pgmLoad (s : State) (sl : Nat) : State :=
  if s.running = some sl || (match s.eng.ho with | some h => h.slot == sl | none => false) || (s.isCell && sl == 1)
      || s.is (F.CTL_PGM_STAT_BUSY sl) then s.accessErr Pg.CTL
  else { s.set (F.CTL_PGM_STAT_BUSY sl) 1 with eng := { s.eng with hit := s.eng.hit.set sl false } }

/-- The section pool of the profile in use; 64 in a cell (R331, R403). -/
def sectionPool (s : State) : Nat := if s.isCell then 64 else if s.get F.MOD_PROF_PROF = 0 then 256 else 512

/-- NSEC over all chains of a slot. -/
def slotUse (s : State) (sl : Nat) : Nat := ((List.range (s.slotNch sl)).map fun c => (s.chainEnt sl c).nsec).sum

/-- Do two chains of a slot share a section? -/
def sharesSection (l : List ChainEnt) : Bool :=
  let used := l.flatMap fun e => (List.range e.nsec).map (e.first + ·)
  used.eraseDups.length != used.length

/-- Are the coefficients and limits of a section in a bank fit for use (WHY 7)? -/
def secFit (q : Sec) : Bool :=
  dFinite q.b0 && dFinite q.b1 && dFinite q.b2 && dFinite q.a1 && dFinite q.a2 && dFinite q.lo && dFinite q.hi
    && !(q.limen && dLt q.hi q.lo)

/-- The first failing check of R403, 0 for none. -/
def slotWhy (s : State) (sl : Nat) : Nat :=
  let base := s.slotBase sl
  let nch := s.slotNch sl
  let nsect := s.slotNsect sl
  let cell := s.isCell
  if s.bytes base 4 ≠ [0x50, 0x58, 0x43, 0x47] ∨ s.num (base + 4) 2 ≠ 1 then 1
  else if nch = 0 ∨ nsect = 0 ∨ (if cell then 8 else 64) < nch ∨ (if cell then 64 else 512) < nsect then 2
  else if crc32c (s.bytes (base + 0x40) (32 * nch) ++ s.bytes (base + 0x8000) (512 * nsect)) ≠ s.num (base + 12) 4 then 3
  else
    let l := (List.range nch).map (s.chainEnt sl)
    if l.any (fun e => e.op == 3 || e.nsec == 0 || decide (16 < e.nsec) || decide (511 < e.first) || decide (nsect < e.first + e.nsec))
        || sharesSection l then 4
    else if s.sectionPool < (l.map (·.nsec)).sum then 5
    else if l.any (fun e => e.nbank == 0 || decide (8 < e.nbank)
        || (decide (e.sched < 4) && (List.range (s.active (F.SCHD_CFG_NREG e.sched) + 1)).any fun r =>
            decide (e.nbank ≤ (e.bmap >>> (3 * r)) % 8))) then 6
    else if l.any (fun e => (List.range e.nsec).any fun i => (List.range e.nbank).any fun b => !secFit (s.secAt sl (e.first + i) b)) then 7
    else if l.any (fun e => decide (4 ≤ e.sched) && e.sched != 255) then 8
    else if cell && l.any (fun e => e.outen && decide (e.out < 8)) then 9
    else if nth s.eng.hit sl false then 10
    else 0

/-- The check of a slot ends. -/
def loadDone (s : State) (sl : Nat) : State :=
  let why := if nth s.eng.hit sl false then 10 else s.slotWhy sl
  let s := s.set (F.CTL_PGM_STAT_BUSY sl) 0
  if why ≠ 0 then ((s.setValid sl false).set (F.CTL_PGM_STAT_WHY sl) why).event Pg.CTL 9
  else
    let nch := s.slotNch sl
    let s := (List.range nch).foldl (fun t c => t.zeroChain sl (t.chainEnt sl c)) s
    let s := { s with eng := { s.eng with banks := kvKeep (fun k => k / 64 != sl) s.eng.banks } }
    let s := (s.set (F.CTL_PGM_STAT_NCH sl) nch).set (F.CTL_PGM_STAT_NSEC sl) (s.slotUse sl)
    (s.setValid sl true).event Pg.CTL 8

/-! Queues, R398 and R413. -/

/-- A write of CTL_SIGDATA. -/
def sigQueue (s : State) (v : Word) : State :=
  if s.eng.sigq.length < 16 then
    { s with eng := { s.eng with sigq := s.eng.sigq ++ [(s.get F.CTL_SIGIDX_INDEX, v)] } }
  else (s.bump F.CTL_SIGQ_DROP).event Pg.CTL 17

/-- The CTL_SIGDATA queue is emptied into the signal table. -/
def sigFlush (s : State) : State :=
  let q := s.eng.sigq
  q.foldl (fun t e => t.setSig e.1 e.2) { s with eng := { s.eng with sigq := [] } }

/-- A write of CHAIN_DHI. -/
def chainQueue (s : State) (hi : Word) : State :=
  if s.eng.chq.length < 64 then
    { s with eng := { s.eng with chq := s.eng.chq ++ [(s.reg R.CHAIN_SEL, hi ++ s.reg R.CHAIN_DLO)] } }
  else (s.bump F.CHAIN_QSTAT_DROP).event Pg.CHAIN 8

/-- The address of a field of CHAIN_SEL. -/
def chainField (s : State) (sl sec bank field : Nat) : Nat :=
  if field < 8 then s.secAddr sl sec bank + 8 * field else s.stAddr sl sec + 8 * (field - 8)

/-- One entry of the CHAIN queue at the commit, R413. -/
def chainApply (s : State) (e : Word × DWord) : State :=
  let sec := getBits e.1 0 9
  let bank := getBits e.1 12 3
  let field := getBits e.1 16 4
  let sl := getBits e.1 24 1
  let a := s.chainField sl sec bank field
  let s' := s.store 2 a (leBytes 8 e.2.toNat)
  let q := s'.secAt sl sec bank
  if !s.slotValid sl || decide (s.slotNsect sl ≤ sec) || decide (9 < field) || !dFinite e.2
      || (decide (5 ≤ field) && decide (field ≤ 7) && q.limen && dLt q.hi q.lo) then
    (s.bump F.CHAIN_QSTAT_REJ).event Pg.CHAIN 9
  else s'

/-- A commit of the CHAIN page: RST first, then the queue in order of writing. `a` in `act` holds RST already. -/
def chainCommit (s : State) : State :=
  let slots := match s.eng.ho with
    | some h => if h.running then [s.get F.CTL_STAT_ACT, h.slot] else [s.get F.CTL_STAT_ACT]
    | none => [s.get F.CTL_STAT_ACT]
  let s := forUpTo (fun c t =>
    if t.active (F.CHAIN_CTL_RST c) = 1 then
      let t := slots.foldl (fun t sl => if t.slotValid sl ∧ c < t.slotNch sl then t.zeroChain sl (t.chainEnt sl c) else t) t
      { t with act := kvSet t.act (R.CHAIN_CTL c) (setBits (t.actReg (R.CHAIN_CTL c)) 12 1 0) }
    else t) 64 s
  let q := s.eng.chq
  q.foldl (fun t e => t.chainApply e) { s with eng := { s.eng with chq := [] } }

/-- CHAIN_CMD.RD. -/
def chainRead (s : State) : State :=
  let sec := s.get F.CHAIN_SEL_SEC
  let field := s.get F.CHAIN_SEL_FIELD
  let sl := s.get F.CHAIN_SEL_SLOT
  if 9 < field ∨ (s.isCell ∧ (64 ≤ sec ∨ sl = 1)) then
    ((s.setReg R.CHAIN_RLO 0).setReg R.CHAIN_RHI 0).accessErr Pg.CHAIN
  else
    let v := s.num (s.chainField sl sec (s.get F.CHAIN_SEL_BANK) field) 8
    (s.setReg R.CHAIN_RLO (BitVec.ofNat 32 v)).setReg R.CHAIN_RHI (BitVec.ofNat 32 (v / 2 ^ 32))

/-! Executions. -/

/-- The duration of an execution in ns (R406), and its monitor sample (R642). -/
def engLatency (s : State) (lat : Nat) : State :=
  let l := min 65535 lat
  let s := (s.set F.CTL_LAT_LAST l).set F.CTL_LAT_WORST (max l (s.get F.CTL_LAT_WORST))
  s.monitorSel 1 6 lat

/-- An execution of stage C in a hub (R407). -/
def hubExecution (s : State) (lat : Nat) : State :=
  let s := { s.set F.CTL_STAT_INVALID 0 with comp := { s.comp with taught := [], angv := [] } }
  let s := s.schedulers.injectors
  let s := s.programs s.workCycle
  (s.when (s.runs Pg.SUP) frStep).engLatency lat

/-- The inputs that a cell's hardware writes, R409. -/
def cellInputs (s : State) (peak : Bool) : State :=
  let v := (s.win 0).mean
  let i := (s.win 1).mean
  let vavg := nth s.cmod.ref 1 0
  let dev := if sLe vavg 0 ∧ sLe 0 vavg then 0 else dToS (dDiv (dSub (sToD v) (sToD vavg)) (sToD vavg))
  let ws := [v, i, nth s.cmod.ref 0 0, vavg, nth s.cmod.ref 2 0, dev,
    if s.is F.CTL_CFG_TRIG ∧ peak then sOne else 0, (s.win 8).mean]
  ws.zipIdx.foldl (fun t e => t.setSig e.2 e.1) s

/-- An execution of a cell's engine (R408). -/
def cellExecution (s : State) (peak : Bool) (lat : Nat) : State :=
  let s := (s.cellInputs peak).sigFlush
  let s := (s.set F.CTL_STAT_INVALID 0).schedulers
  s.runAlone.engLatency lat

end State

open State

/-- LOAD_DONE: the check of a slot ends with VALID set or WHY recorded (R403). -/
def execLoadDone (sl : Nat) (s : State) : Out :=
  act s (s.alive && !s.isRef && decide (sl < 2) && s.is (F.CTL_PGM_STAT_BUSY sl)) fun s => s.loadDone sl

end Sys2Proof.Machine
end

