-- ==== Sys2Proof/Machine/Observer.lean ====
section
/-! DEFINITION. Capacitor observer, current fusion and ranking (12_rank_observer.md). Berths are numbered by berth index;
values are binary64, estimates and charges are kept as binary32. -/

namespace Sys2Proof.Machine

/-! The report payload, R282. -/

namespace Report

def field (r : Report) (i n : Nat) : Nat := ofBe ((r.payload.drop i).take n)
def vmeanMv (r : Report) : Nat := r.field 0 3
def imeanMa (r : Report) : Int := Machine.signed 24 (r.field 7 3)
def wstart (r : Report) : Nat := r.field 10 4
def wlen (r : Report) : Nat := r.field 14 2
def status (r : Report) : Nat := r.field 16 2
def tj (r : Report) : Int := Machine.signed 8 (r.field 18 1)
def evflags (r : Report) : Nat := r.field 20 2
def stateCode (r : Report) : Nat := r.status % 4
def isFull (r : Report) : Bool := bitOf r.status 4
def drvRdy (r : Report) : Bool := bitOf r.status 8

/-- The window centre, the seconds being those nearest `t` that agree with WSTART (R371). -/
def centre (r : Report) (t : Nat) : Nat :=
  let ns := r.wstart % 2 ^ 30 + 2 * r.wlen
  let base := t / State.unitsPerSec / 4 * 4 + r.wstart / 2 ^ 30
  let at' (sec : Nat) : Nat := sec * State.unitsPerSec + ns * State.unitsPerNs
  let far (sec : Nat) : Nat := ((at' sec : Int) - t).natAbs
  let l := base :: (base + 4) :: (if 4 ≤ base then [base - 4] else [])
  at' (l.foldl (fun m x => if far x < far m then x else m) base)

end Report

namespace State

/-- Entry `i` of the observer table. -/
def obs (s : State) (i : Nat) : ObsSt := (kvFind s.rank.obs i).getD {}

def setObs (s : State) (i : Nat) (o : ObsSt) : State := { s with rank := { s.rank with obs := kvSet s.rank.obs i o } }

/-- Arms of the hub (R24). What becomes of entries with ARM = 1 when ARMS changes from two arms to one the spec does not
say: they keep ARM, and no arm's work takes them (DESIGN CHOICE, log 109). -/
def arms (s : State) : Nat := if s.get F.SYS_TOPO_ARMS = 2 then 2 else 1

/-- CNOM in farads. -/
def cNom (s : State) : DWord := dRat (max 1 (s.active F.RANK_CNOM_CNOM)) 1000000

/-- A berth newly admitted (R389, R370). -/
def obsAdmit (s : State) (i : Nat) : State :=
  s.setObs i { s.obs i with cest := dToS s.cNom, sqq := 0, sqv := 0, unobs := true, ring := [], rounds := 0, applied := true, centre := none }

/-- A released berth's entry returns to its reset values. -/
def obsRelease (s : State) (i : Nat) : State := { s with rank := { s.rank with obs := kvErase s.rank.obs i } }

/-! Commands, R389. -/

/-- A RANK command is latched, unless 16 wait. -/
def rankJob (s : State) (j : RankJob) : State :=
  if s.rank.jobs.length < 16 then { s with rank := { s.rank with jobs := s.rank.jobs ++ [j] } } else s.accessErr Pg.RANK

def rankWr (s : State) : State :=
  s.rankJob (.wr (s.get F.RANK_SEL_INDEX) (getBits (s.reg (R.RANK_E 9)) 2 1 == 1) (getBits (s.reg (R.RANK_E 9)) 3 1 == 1))

def rankSetc (s : State) : State :=
  let v := s.reg (R.RANK_E 1)
  if sFinite v ∧ sLt 0 v then s.rankJob (.setc (s.get F.RANK_SEL_INDEX) v) else s.accessErr Pg.RANK

def rankSetv (s : State) : State :=
  let v := s.reg (R.RANK_E 0)
  if sFinite v then s.rankJob (.setv (s.get F.RANK_SEL_INDEX) v) else s.accessErr Pg.RANK

/-- The words of an entry. -/
def obsWord (o : ObsSt) (w : Nat) : Nat :=
  match w with
  | 0 => o.vest.toNat
  | 1 => o.cest.toNat
  | 2 => o.sqq.toNat % 2 ^ 32
  | 3 => o.sqq.toNat / 2 ^ 32
  | 4 => o.sqv.toNat % 2 ^ 32
  | 5 => o.sqv.toNat / 2 ^ 32
  | 6 => o.vrep.toNat
  | 7 => o.trep
  | 8 => o.age
  | 9 => b2n o.avail + 2 * b2n o.unobs + 4 * b2n o.excl + 8 * b2n o.isel + 16 * b2n o.oor + 32 * b2n o.clim
      + 64 * b2n o.pblk + o.dwell <<< 16
  | 10 => o.innov.toNat
  | 11 => o.outl + o.stale <<< 16
  | 12 => o.learns
  | 13 => o.edges
  | _ => 0

/-- RANK_CMD.RD: the entry as the last stage B left it (R388). -/
def rankRd (s : State) : State :=
  let o := (kvFind s.rank.seen (s.get F.RANK_SEL_INDEX)).getD {}
  forUpTo (fun w t => t.setReg (R.RANK_E w) (BitVec.ofNat 32 (obsWord o w))) 16 s

/-- A latched command takes effect. -/
def rankApply (s : State) : RankJob → State
  | .wr i e l => let o := s.obs i; s.setObs i { o with excl := e, isel := l, pblk := o.pblk && e }
  | .setc i v => s.setObs i { s.obs i with cest := v, sqq := 0, sqv := 0 }
  | .setv i v => s.setObs i { s.obs i with vest := v, unobs := false }

/-! Fusion, R376 to R378. -/

/-- K in force. -/
def fusK (s : State) : Nat :=
  let k := s.active F.RANK_FUS_K
  max 3 (if k % 2 = 0 then k - 1 else k)

/-- `x` put in its place in an ascending list. -/
def insertBy {α : Type} (le : α → α → Bool) (x : α) : List α → List α
  | [] => [x]
  | y :: l => if le x y then x :: y :: l else y :: insertBy le x l

/-- A list in ascending order, equal elements keeping their order. -/
def sortBy {α : Type} (le : α → α → Bool) (l : List α) : List α := l.foldr (fun x acc => insertBy le x acc) []

/-- Does a report qualify for the fusion of arm `a` at time `t`? -/
def qualifies (s : State) (a t : Nat) (r : FusRep) : Bool :=
  let b := s.berth r.berth
  b.arm == a && b.assign != 0 && (s.obs r.berth).isel && !b.restricted && !r.fault
    && decide (((t : Int) - r.centre).natAbs ≤ 1000 * max 1 (s.active F.RANK_FUS_FAGE) * unitsPerNs)

/-- The two middle values of a list in order. -/
def middles {α : Type} (l : List α) (d : α) : α × α := (nth l ((l.length - 1) / 2) d, nth l (l.length / 2) d)

/-- Current in A of a report in mA. -/
def amps (ma : Int) : DWord := dRat ma 1000

/-- The median current and the median centre of qualifying reports. -/
def fuseValue (l : List FusRep) : DWord × Nat :=
  let is := middles (sortBy (fun x y => decide (x ≤ y)) (l.map (·.imean))) 0
  let cs := middles (sortBy (fun x y => decide (x ≤ y)) (l.map (·.centre))) 0
  (if l.length % 2 = 1 then amps is.1 else dDiv (dAdd (amps is.1) (amps is.2)) (dInt 2), (cs.1 + cs.2) / 2)

/-- Reports that differ from the median by more than IOUT are counted, once each (R377). -/
def outliers (s : State) (a : Nat) (l : List FusRep) (i : DWord) : State :=
  let lim := dRat (s.active F.RANK_IOUT_IOUT) 10
  let bad (r : FusRep) : Bool := !r.counted && dLt lim (dAbs (dSub (amps r.imean) i))
  let s := l.foldl (fun t r => if bad r then
    ((t.setObs r.berth { t.obs r.berth with outl := min 65535 ((t.obs r.berth).outl + 1) }).event Pg.RANK 16) else t) s
  let mark (r : FusRep) : FusRep := if l.contains r && bad r then { r with counted := true } else r
  { s with rank := { s.rank with recent := setAt [] s.rank.recent a ((nth s.rank.recent a []).map mark) } }

/-- The fusion of arm `a` at the meridian `t`. -/
def fuseArm (s : State) (a t : Nat) : State :=
  let k := s.fusK
  let l := (((nth s.rank.recent a []).filter fun r => decide (r.got < t)).take k).filter (s.qualifies a t)
  let f := nth s.rank.fus a {}
  let ok := decide ((k + 1) / 2 ≤ l.length)
  let put (s : State) (f : Fus) : State := { s with rank := { s.rank with fus := setAt {} s.rank.fus a f } }
  let s := if ok then
      let (i, c) := fuseValue l
      let s := s.outliers a l i
      put s { f with i := i, c := c, valid := true, iPrev := f.i, cPrev := f.c, any := true, two := f.any }
    else
      let s := s.bump (F.RANK_ARM_FCNT_INVALID a)
      put (s.when f.valid (·.event Pg.RANK 8)) { f with valid := false, invalidAt := t + 1 }
  let f := nth s.rank.fus a {}
  let s := s.setReg (R.RANK_ARM_IFUS a) (dToS f.i)
  let age := if f.any then (t - f.c) / unitsPerNs else 0
  (s.set (F.RANK_ARM_IAGE_AGE a) (min (2 ^ 24 - 1) age)).set (F.RANK_ARM_IAGE_VALID a) (b2n f.valid)

/-- The sample of a stream nearest an instant. -/
def nearestSample (s : State) (c t : Nat) : Option SvSample :=
  (nth s.stn.sv c []).foldl (fun m x => match m with
    | some y => if ((x.time : Int) - t).natAbs < ((y.time : Int) - t).natAbs then some x else m
    | none => some x) none

/-- The external check of arm `a`, R378. -/
def externalCheck (s : State) (a : Nat) : State :=
  let f := nth s.rank.fus a {}
  if s.active (F.RANK_ARM_IPL_EN a) = 0 ∨ !f.valid then s
  else
    let ch := s.active (F.RANK_ARM_IPL_CHAN a)
    match s.nearestSample (s.active (F.RANK_ARM_IPL_STREAM a)) f.c with
    | none => s
    | some x =>
      if !nth x.good ch false ∨ s.tcyc < ((x.time : Int) - f.c).natAbs then s
      else
        let isv := dMul (s.actF (R.RANK_ARM_IPLSC a)) (dInt (nth x.vals ch 0))
        let s := s.setReg (R.RANK_ARM_ISV a) (dToS isv)
        let lim := dAdd (dRat (s.active (F.RANK_ARM_IPLTOL_ABS a)) 10) (dMul (dRat (s.active (F.RANK_ARM_IPLTOL_REL a)) 256) (dAbs isv))
        let run (s : State) (n : Nat) : State := { s with rank := { s.rank with iplRun := setAt 0 s.rank.iplRun a n } }
        if dLt lim (dAbs (dSub f.i isv)) then
          let n := nth s.rank.iplRun a 0 + 1
          let s := run s n
          if n = max 1 (s.active (F.RANK_ARM_IPL_TIME a)) then
            let act := s.active (F.RANK_ARM_IPL_ACT a)
            let s := (s.bump (F.RANK_ARM_FCNT_IPLFAIL a)).when (act != 0) (·.event Pg.RANK 9)
            s.when (decide (2 ≤ act)) (·.blockRequest 2)
          else s
        else run s 0

/-- The work of the RANK page at the meridian `t`: fusion and external check of each arm. -/
def fuse (s : State) (t : Nat) : State :=
  if s.runs Pg.RANK then forUpTo (fun a u => u.externalCheck a) s.arms (forUpTo (fun a u => u.fuseArm a t) s.arms s)
  else s

/-- An accepted report joins the fusion's list of its arm and the observer's queue. -/
def observerReport (s : State) (i : Nat) (r : Report) : State :=
  let b := s.berth i
  let s := s.setBerth i { b with report := some r, waiting := b.waiting ++ [r] }
  if r.wlen = 0 then s
  else
    let q : FusRep := { berth := i, centre := r.centre s.now, imean := r.imeanMa, got := s.now, fault := r.stateCode == 3 }
    { s with rank := { s.rank with recent := s.rank.recent.set b.arm ((q :: nth s.rank.recent b.arm []).take 32) } }

/-! Stage A, R377. -/

/-- The arm energy of the available berths of arm `a`. -/
def armEnergy (s : State) (a : Nat) : DWord :=
  s.rank.obs.foldl (fun e x =>
    if x.2.avail && (s.berth x.1).arm == a then
      let v := sToD x.2.vest
      dAdd e (dDiv (dMul (sToD x.2.cest) (dMul v v)) (dInt 2))
    else e) 0

/-- The RANK signals of arm `a` for the snapshot `x`. -/
def rankSignals (s : State) (x : Snap) (a : Nat) : State :=
  if bitOf (s.active F.RANK_CTL_SIGEN) a then
    let f := nth x.fus a {}
    let s := s.setSig (s.active (F.RANK_ARM_SIG_IARM a)) (dToS f.i)
    let s := s.setSig (s.active (F.RANK_ARM_SIG_IAGE a)) (dToS (if f.any then dSeconds ((x.time : Int) - f.c) else 0))
    let s := s.setSig (s.active (F.RANK_ARM_SIG_VAVG a)) (nth x.vavg a 0)
    s.setSig (s.active (F.RANK_ARM_SIG_ESUM a)) (nth x.esum a 0)
  else s

/-! Stage B, R368 to R375. -/

/-- The inserted berths after a plan's moves. -/
def planEnd (p : LaunchPlan) : Kv CellState :=
  p.moves.foldl (fun m v => if v.width ≠ 0 then m
    else if v.dest.code = 1 ∨ v.dest.code = 2 then kvSet m v.berth v.dest else kvErase m v.berth) p.start

/-- The plan that held in cycle `j`: the one that targets it, or what the last earlier one left. -/
def planAt (s : State) (j : Nat) : LaunchPlan :=
  match s.mod.plans.find? fun p => p.target ≤ j with
  | some p => if p.target = j then p else { target := j, start := planEnd p, inter := p.inter, m := p.m, blk := p.blk }
  | none => { target := j }

/-- The insertion factor of a planned state. -/
def factor (st : Option CellState) : Int :=
  match st with
  | some .pos => 1
  | some .neg => -1
  | _ => 0

/-- The integral of s(t) over a cycle for a berth that follows its plan, in 1/64 ns. -/
def planFactor (p : LaunchPlan) (i tc : Nat) : Int :=
  let mine := sortBy (fun x y => decide (x.offset ≤ y.offset)) (p.moves.filter fun m => m.berth == i)
  let r := mine.foldl (fun (acc : Int × Nat × Int) m =>
    let o := min tc m.offset
    let total := acc.1 + acc.2.2 * ((o : Int) - acc.2.1)
    if m.width = 0 then (total, o, factor (some m.dest))
    else
      let w := min (tc - o) m.width
      (total + factor (some m.dest) * w, o + w, acc.2.2)) (0, 0, factor (kvFind p.start i))
  r.1 + r.2.2 * ((tc : Int) - r.2.1)

/-- The charge of a berth in a cycle with plan `p` for current `ic` (R368): blocked by its last report, or by the frames
launched, which hold 0b11 for it. -/
def charge (s : State) (i : Nat) (p : LaunchPlan) (ic : DWord) : DWord :=
  let tc := s.tcyc / unitsPer64
  let b := s.berth i
  let code := match b.report with | some r => r.stateCode | none => 0
  let isFull := match b.report with | some r => r.isFull | none => false
  let t := dRat tc 64000000000
  if code = 0 ∨ code = 3 ∨ p.blk ∨ b.restricted ∨ (s.obs i).pblk ∨ (p.inter ∧ (s.obs i).excl) then
    if isFull then if dLt 0 ic then dMul ic t else if dLt ic 0 then dNeg (dMul ic t) else 0
    else if dLt 0 ic then dMul ic t else 0
  else if p.inter then
    if (s.obs i).avail then dMul ic (dMul (sToD (nth p.m b.arm 0)) t) else 0
  else dMul ic (dRat (planFactor p i tc) 64000000000)

/-- i_c of arm `a` for the cycle before the snapshot `x` (R369). -/
def currentOf (s : State) (x : Snap) (a : Nat) : DWord × State :=
  let f := nth x.fus a {}
  let keep (v : DWord) : DWord × State :=
    (v, { s with rank := { s.rank with fus := setAt {} s.rank.fus a { nth s.rank.fus a {} with ic := v } } })
  if !f.valid then ((nth s.rank.fus a {}).ic, s)
  else if s.active F.RANK_FUS_EXTRAP = 0 ∨ !f.two then keep f.i
  else if f.c = f.cPrev then
    let (v, s) := s.free
    (BitVec.ofNat 64 v, s)
  else
    let mid : Int := (x.time : Int) - s.tcyc / 2
    keep (dAdd f.i (dMul (dSub f.i f.iPrev) (dDiv (dSeconds (mid - f.c)) (dSeconds ((f.c : Int) - f.cPrev)))))

/-- The charge of cycle `j` joins the ring of berth `i`, which advances if it is observed (R370 step 2); that of a
permanently bypassed berth is 0, and it is not advanced (R368). While the observer does not run only the counts of cycles
go on. -/
def advance (s : State) (j : Nat) (ics : List DWord) (i : Nat) : State :=
  let b := s.berth i
  if !held b then s
  else if s.active F.RANK_CTL_OBSEN = 0 then
    s.setObs i { s.obs i with age := min 65535 ((s.obs i).age + 1), dwell := min 65535 ((s.obs i).dwell + 1) }
  else
    let q := if b.perm then 0 else s.charge i (s.planAt j) (nth ics b.arm 0)
    let o := s.obs i
    let v := if o.unobs ∨ b.perm then o.vest else dToS (dAdd (sToD o.vest) (dDiv q (sToD o.cest)))
    s.setObs i { o with vest := v, ring := (dToS q :: o.ring).take 32, age := min 65535 (o.age + 1), dwell := min 65535 (o.dwell + 1) }

/-- Q(c) of R371 at the meridian `t`. -/
def chargeSince (s : State) (o : ObsSt) (c t : Nat) : DWord :=
  let tc := s.tcyc
  if t ≤ c then 0
  else
    let m := (t - c + tc - 1) / tc
    let part := dMul (dRat ((t - c) - (m - 1) * tc) tc) (sToD (nth o.ring (m - 1) 0))
    forUpTo (fun i q => dAdd q (sToD (nth o.ring (m - 2 - i) 0))) (m - 1) part

/-- QMIN in coulombs. -/
def qMin (s : State) : DWord := dRat (s.active F.RANK_LEARN_QMIN) 100000

/-- A percentage of CNOM. -/
def cLimit (s : State) (pct : Nat) : DWord := dDiv (dMul s.cNom (dInt pct)) (dInt 100)

/-- The update of Ĉ, R375: `c` and `v` are centre and VMEAN of the report applied now, `hold` its STATUS.HOLD. -/
def learn (s : State) (i : Nat) (o : ObsSt) (c : Nat) (v : DWord) (hold : Bool) (t : Nat) : State :=
  match o.centre with
  | none => s
  | some c' =>
    let f := nth s.rank.fus (s.berth i).arm {}
    if s.active F.RANK_CTL_LEARN = 0 ∨ hold ∨ o.held ∨ t - c' > 32 * s.tcyc ∨ !f.any ∨ c' < f.invalidAt then s
    else
      let dq := dSub (s.chargeSince o c' t) (s.chargeSince o c t)
      let dv := dSub v (sToD o.vmean)
      if dLt (dAbs dq) s.qMin then s
      else
        let n := s.active F.RANK_LEARN_FORGET
        let lam := dSub (dInt 1) (dRat 1 (2 ^ (if 4 ≤ n ∧ n ≤ 24 then n else 16)))
        let sqq := dAdd (dMul lam o.sqq) (dMul dq dq)
        let sqv := dAdd (dMul lam o.sqv) (dMul dq dv)
        let o := { s.obs i with sqq := sqq, sqv := sqv, learns := ((s.obs i).learns + 1) % 2 ^ 32 }
        if dLt 0 sqv then
          let raw := dDiv sqq sqv
          let new := dClamp raw (s.cLimit (s.active F.RANK_CLIM_CMIN)) (s.cLimit (s.active F.RANK_CLIM_CMAX))
          let clim := raw != new
          (s.when (clim && !o.clim) (·.event Pg.RANK 15)).setObs i { o with cest := dToS new, clim := clim }
        else s.setObs i o

/-- Report `r` of berth `i` is applied at the meridian `t`, R371 to R375; none corrects a permanently bypassed berth
(R379). The first report of an unobserved berth is applied under R373 and teaches no capacitance. -/
def applyReport (s : State) (t i : Nat) (r : Report) : State :=
  if (s.berth i).perm then s else
  let o := s.obs i
  let c := r.centre t
  let maxAge := s.active F.RANK_OBS_AGEMAX
  let limit := (if 1 ≤ maxAge ∧ maxAge ≤ 32 then maxAge else 32) * s.tcyc
  if r.wlen = 0 ∨ c + limit < t then
    (s.setObs i { o with stale := min 65535 (o.stale + 1) }).event Pg.RANK 14
  else
    let v := dRat r.vmeanMv 1000
    let corr := dDiv (s.chargeSince o c t) (sToD o.cest)
    let e := dSub v (dSub (sToD o.vest) corr)
    let vest := if o.unobs then dAdd v corr else dAdd (sToD o.vest) (dMul (dRat (s.active F.RANK_OBS_GAIN) 256) e)
    let hold := bitOf r.status 5
    let s := if o.unobs then s else s.learn i o c v hold t
    let trep := c / unitsPerSec % 4 * 2 ^ 30 + c % unitsPerSec / unitsPerNs
    let s := s.setObs i { s.obs i with
      vest := dToS vest, unobs := false, innov := if o.unobs then o.innov else dToS e, vrep := dToS v, trep := trep,
      vmean := dToS v, centre := some c, held := hold, age := 0, applied := true }
    let ns : Int := ((t : Int) - c) / unitsPerNs
    s.monitor 3 fun sel => if sel = 2 ∨ sel = (s.berth i).arm then some ns else none

/-- The reports of berth `i` accepted before `t`, in ascending order of centre. -/
def dueReports (s : State) (t i : Nat) : List Report :=
  sortBy (fun x y => decide (x.centre t ≤ y.centre t)) ((s.berth i).waiting.filter fun r => r.got < t)

/-- Step 3 of R370 for all berths, in ascending order of window centre. While the observer does not run (OBSEN = 0)
reports are taken and not applied. -/
def applyReports (s : State) (t : Nat) : State :=
  let ids := s.berthsWith fun _ b => b.waiting != []
  let all := ids.flatMap fun i => (s.dueReports t i).map fun r => (i, r)
  let all := sortBy (fun x y => decide (x.2.centre t ≤ y.2.centre t)) all
  let s := ids.foldl (fun u i => u.setBerth i { u.berth i with waiting := (u.berth i).waiting.filter fun r => !(decide (r.got < t)) }) s
  if s.active F.RANK_CTL_OBSEN = 1 then all.foldl (fun u x => u.applyReport t x.1 x.2) s else s

/-- OOR of berth `i`, R374. -/
def rangeCheck (s : State) (i : Nat) : State :=
  let o := s.obs i
  let v := sToD o.vest
  let out := dLt v (dInt (s.active F.RANK_VLIM_VLO)) || dLt (dInt (s.active F.RANK_VLIM_VHI)) v
  if o.unobs ∨ out = o.oor then s else (s.when out (·.event Pg.RANK 12)).setObs i { o with oor := out }

/-- Is berth `i` available, R379? -/
def isAvailable (s : State) (i : Nat) : Bool :=
  let b := s.berth i
  let o := s.obs i
  s.active F.RANK_CTL_OBSEN == 1 && b.assign != 0 && b.link == .admitted && !b.restricted && !o.unobs && !o.excl && !b.perm
    && match b.report with
      | some r => r.stateCode == 1 && r.drvRdy
      | none => false

/-- The available berths of an arm, ascending. -/
def availOf (s : State) (a : Nat) : List Nat :=
  (s.rank.obs.filter fun x => x.2.avail && (s.berth x.1).arm == a).map (·.1)

/-- Is the berth a FULL cell, by its last report? -/
def berthFull (s : State) (i : Nat) : Bool := match (s.berth i).report with | some r => r.isFull | none => false

/-- NFULL of an arm. -/
def nFull (s : State) (a : Nat) : Nat := ((s.availOf a).filter s.berthFull).length

/-- The redundancy of arm `a`, R381. -/
def redundancy (s : State) (a : Nat) : State :=
  let r : Int := (s.availOf a).length - (s.active (F.RANK_ARM_REDUN_NREQ a) : Int)
  let s := s.set (F.RANK_ARM_STAT_REDUN a) (unsigned 11 r)
  let low := decide (r < s.active (F.RANK_ARM_REDUN_RLOW a))
  let lost := decide (r < 0)
  let s := s.when (low && !nth s.rank.lowSeen a false) (·.event Pg.RANK 10)
  let s := if lost && !nth s.rank.lostSeen a false then
      (s.event Pg.RANK 11).when (decide (2 ≤ s.active (F.RANK_ARM_REDUN_ACT a))) (·.blockRequest 3)
    else s
  { s with rank := { s.rank with lowSeen := setAt false s.rank.lowSeen a low, lostSeen := setAt false s.rank.lostSeen a lost } }

/-- The counts and the mean of arm `a`, R379. -/
def armCounts (s : State) (a : Nat) : State :=
  let l := s.availOf a
  let s := s.set (F.RANK_ARM_STAT_NAVAIL a) l.length
  let mine := s.berthsWith fun _ b => b.assign != 0 && b.arm == a
  let s := s.set (F.RANK_ARM_OUT_PERM a) (mine.filter fun i => (s.berth i).perm).length
  let s := s.set (F.RANK_ARM_OUT_UNAV a) (mine.filter fun i => !(s.berth i).perm && !(s.obs i).avail).length
  let s := if l = [] then s else
    let sum := l.foldl (fun x i => dAdd x (sToD (s.obs i).vest)) 0
    s.setReg (R.RANK_ARM_VAVG a) (dToS (dDiv sum (dInt l.length)))
  s.redundancy a

/-- Step 4 of R370. -/
def availability (s : State) : State :=
  let ids := (s.berthsWith fun _ b => b.assign != 0) ++ (s.rank.obs.filter fun x => x.2.avail).map (·.1)
  let s := ids.eraseDups.foldl (fun t i => t.setObs i { t.obs i with avail := t.isAvailable i }) s
  forUpTo (fun a t => t.armCounts a) s.arms s

/-- Edges and protective commands whose target cycle has come: DWELL is set to 0 (R385), EXCL and PBLK are set (R359). It
follows the charge of the cycle before. -/
def dueTargets (s : State) (k : Nat) : State :=
  let s := s.mod.edgesDue.foldl (fun t e => if e.1 ≤ k then t.setObs e.2 { t.obs e.2 with dwell := 0 } else t) s
  let s := s.mod.pcmdDue.foldl (fun t e => if e.1 ≤ k then
      let o := t.obs e.2.1
      let t := t.setObs e.2.1 { o with excl := true, pblk := o.pblk || e.2.2 != 5 }
      if e.2.2 = 6 then t.setBerth e.2.1 { t.berth e.2.1 with perm := true } else t
    else t) s
  { s with mod := { s.mod with
      edgesDue := s.mod.edgesDue.filter fun e => decide (k < e.1), pcmdDue := s.mod.pcmdDue.filter fun e => decide (k < e.1) } }

/-- Stage B of the cycle of snapshot `x` (R370). Charges of cycles whose work was skipped are stored too. -/
def stageB (s : State) (x : Snap) : State :=
  let jobs := s.rank.jobs
  let s := jobs.foldl (fun t j => t.rankApply j) { s with rank := { s.rank with jobs := [] } }
  let from' := match s.rank.lastB with
    | some l => max l (x.k - 33)
    | none => x.k - 1
  let (i0, s) := s.currentOf x 0
  let (i1, s) := s.currentOf x 1
  let ids := s.berthsWith fun _ b => held b
  let s := forUpTo (fun n t => ids.foldl (fun u i => u.advance (from' + n) [i0, i1] i) t) (x.k - from') s
  let s := (s.dueTargets x.k).applyReports x.time
  let s := ids.foldl (fun t i => t.rangeCheck i) s
  let s := s.availability
  let s := { s with rank := { s.rank with lastB := some x.k, seen := s.rank.obs } }
  s.monitor 8 fun sel => if sel < 1024 ∧ held (s.berth sel) then
    some (dVal (dMul (sToD (s.obs sel).vest) (dInt 1000))).roundAway else none

/-- Rounds without an applied report, at a round boundary of port `p` (R373). -/
def unobservedRounds (s : State) (p : Nat) : State :=
  let ids := s.berthsWith fun i b => i / 256 == p && held b
  ids.foldl (fun t i =>
    let o := t.obs i
    if o.applied then t.setObs i { o with applied := false, rounds := 0 }
    else
      let n := o.rounds + 1
      let lost := !o.unobs && decide (max 1 (t.active F.RANK_OBS_UNOBS_R) ≤ n)
      (t.when lost (·.event Pg.RANK 13)).setObs i { o with rounds := n, unobs := o.unobs || lost }) s

/-! Stage D, R382 to R386. -/

/-- DIR of arm `a`. -/
def direction (s : State) (x : Snap) (a : Nat) : State :=
  let f := nth x.fus a {}
  let band := dRat (s.active (F.RANK_ARM_DWELL_IDB a)) 10
  if !f.valid then s
  else if dLe band f.i then s.set (F.RANK_ARM_STAT_DIR a) 0
  else if dLe f.i (dNeg band) then s.set (F.RANK_ARM_STAT_DIR a) 1
  else s

/-- Has the berth's dwell been served? -/
def dwellDone (s : State) (a i : Nat) : Bool := decide (s.active (F.RANK_ARM_DWELL_DWELL a) ≤ (s.obs i).dwell)

/-- Berths in an order of R383: dwell-satisfied ones first, then by V̂, ascending or descending, then by index. -/
def orderOf (s : State) (a : Nat) (up : Bool) (l : List Nat) : List Nat :=
  let before (x y : Nat) : Bool :=
    let vx := (s.obs x).vest
    let vy := (s.obs y).vest
    let dx := s.dwellDone a x
    let dy := s.dwellDone a y
    if dx != dy then dx
    else if sLt vx vy then up
    else if sLt vy vx then !up
    else decide (x ≤ y)
  sortBy before l

/-- The trim cell of arm `a` (R352), if one is held. -/
def trimCell (s : State) (a : Nat) : Option Nat :=
  if s.is (F.MOD_ARM_TRIM_VALID a) then some (s.get (F.MOD_ARM_TRIM_BERTH a)) else none

/-- The orders of arm `a` over the planned states `ins`. -/
def armOrders (s : State) (a : Nat) (ins : Kv CellState) : Orders :=
  let l := (s.availOf a).filter fun i => s.trimCell a != some i
  let up := !s.is (F.RANK_ARM_STAT_DIR a)
  let free := l.filter fun i => (kvFind ins i).isNone
  { insPos := s.orderOf a up free,
    insNeg := s.orderOf a (!up) (free.filter s.berthFull),
    bypPos := s.orderOf a (!up) (l.filter fun i => kvFind ins i == some .pos),
    bypNeg := s.orderOf a up (l.filter fun i => kvFind ins i == some .neg) }

/-- How many berths of two ascending lists are in only one of them. -/
def setChange (x y : List Nat) : Nat := (x.filter fun i => !y.contains i).length + (y.filter fun i => !x.contains i).length

/-- Stage D. The number of berths that a pass moves is not stated: a free value, bounded by the berths. -/
def stageD (s : State) (x : Snap) : State :=
  let s := forUpTo (fun a t => t.direction x a) s.arms s
  let sets := [s.availOf 0, s.availOf 1]
  let big (a : Nat) : Bool := decide (s.active F.RANK_SORT_SETMAX < setChange (nth sets a []) (nth s.rank.lastAvail a []))
  let full := !s.rank.sorted || big 0 || big 1
  let (v, s) := s.free
  let moves := v % ((sets.map (·.length)).sum + 1)
  let fallback := !full && decide (s.active F.RANK_SORT_MOVEMAX < moves)
  let s := (s.set F.RANK_STAT_FULL (b2n (full || fallback))).set F.RANK_STAT_MOVES moves
  let s := (s.when (full || fallback) (·.bump F.RANK_SORTS_FULLSORTS)).when fallback (·.bump F.RANK_SORTS_MOVEFB)
  let ins := s.mod.plan.ins
  { s with rank := { s.rank with orders := [s.armOrders 0 ins, s.armOrders 1 ins], sorted := true, lastAvail := sets } }

/-- The swap proposals of arm `a`, R384: pairs from the two ends of the dwell-satisfied inserted and bypassed berths that
the caller leaves in. Each pair is the berth to be bypassed and the one to be inserted. -/
def swapPairs (s : State) (a : Nat) (band : DWord) (fuel : Nat) (ins byp : List Nat) : List (Nat × Nat) :=
  match fuel, ins, byp with
  | n + 1, h :: hs, l :: ls =>
    let vh := sToD (s.obs h).vest
    let vl := sToD (s.obs l).vest
    let d := if s.is (F.RANK_ARM_STAT_DIR a) then dSub vl vh else dSub vh vl
    if dLt band d then (h, l) :: s.swapPairs a band n hs ls else []
  | _, _, _ => []

/-- The proposals for the planned states `ins`, without the berths in `used`. -/
def proposals (s : State) (a : Nat) (ins : Kv CellState) (used : List Nat) : List (Nat × Nat) :=
  let l := (s.availOf a).filter fun i => s.trimCell a != some i && s.dwellDone a i && !used.contains i
  let up := !s.is (F.RANK_ARM_STAT_DIR a)
  s.swapPairs a (dRat (s.active (F.RANK_ARM_BAND_BAND a)) 10) (min 64 (s.active (F.RANK_ARM_BAND_SWMAX a)))
    (s.orderOf a (!up) (l.filter fun i => kvFind ins i == some .pos))
    (s.orderOf a up (l.filter fun i => (kvFind ins i).isNone))

end State

end Sys2Proof.Machine
end

