-- ==== Sys2Proof/Machine/Modulate.lean ====
section
/-! DEFINITION. The modulation step of a hub (11_modulation_edges.md): profiles and lead, the stages of a cycle's work up
to stage E, deadline misses, protective commands and mode changes. Stage F is in Machine/HubTree.lean. -/

namespace Sys2Proof.Machine

/-- The levels, words and moves of a stage E in the making: planned states at the end, room left per port, words per port
(true: the sequence number of the word before), moves, berths already used, berths with an edge of R385. -/
structure EStep where
  ins : Kv CellState
  room : List Nat
  words : List (List (Nat × Bool)) := [[], [], [], []]
  moves : List Move := []
  used : List Nat := []
  edges : List Nat := []

/-- The 48-bit word of an event without SEQ (R254). -/
def evWord (berth action offset : Nat) : Nat := berth <<< 38 + action <<< 34 + offset <<< 10

namespace EStep

/-- Room left on the port of berth `i`. -/
def left (e : EStep) (i : Nat) : Nat := nth e.room (i / 256) 0

/-- A word for berth `i` is placed. -/
def put (e : EStep) (i action offset : Nat) (same : Bool := false) : EStep :=
  let p := i / 256
  { e with
    words := e.words.set p (nth e.words p [] ++ [(evWord i action offset, same)])
    room := e.room.set p (nth e.room p 0 - 1) }

/-- Berth `i` moves to `st` at `offset`. -/
def go (e : EStep) (i offset : Nat) (st : CellState) : EStep :=
  { e with
    ins := if st.inserted then kvSet e.ins i st else kvErase e.ins i
    moves := e.moves ++ [{ berth := i, offset := offset, dest := st }]
    used := i :: e.used }

/-- Berth `i` is commanded an edge of a level change or a swap. -/
def edge (e : EStep) (i : Nat) : EStep := { e with edges := i :: e.edges }

end EStep

namespace State

/-! Profiles and lead, R331 to R335. -/

/-- The profile of a TCYC. -/
def profileOf (tcyc : Nat) : Nat := if tcyc ≤ 9 then 0 else if tcyc ≤ 19 then 1 else if tcyc ≤ 39 then 2 else 3

/-- The capacity of a profile. -/
def profileCap (p : Nat) : Nat := if p = 0 then 512 else 1024

/-- The section pool of a profile. -/
def profilePool (p : Nat) : Nat := if p = 0 then 256 else 512

/-- The tree rate of a profile, coded as LANE_CFG.RATE. -/
def profileRate (p : Nat) : Nat := if p ≤ 1 then 2 else 1

/-- The profile in use. -/
def profile (s : State) : Nat := profileOf (s.active F.TIME_MER_TCYC)

/-- Is event repeat in use? -/
def repeatOn (s : State) : Bool :=
  match s.profile with
  | 0 => false
  | 1 => s.active (F.TREE_CTL_REPEAT 0) == 1
  | _ => true

/-- L_exec. -/
def lexec (s : State) : Nat := s.active (F.TREE_CTL_LEXEC 0) + 1

/-- The lead of a port, R272. -/
def lead (s : State) : Nat := s.lexec + b2n s.repeatOn

/-- MOD_PROF follows the profile in use, and TREE_STAT the lead. -/
def showProfile (s : State) : State :=
  let p := s.profile
  let s := ((s.set F.MOD_PROF_PROF p).set F.MOD_PROF_RATE (b2n (decide (p ≤ 1)))).set F.MOD_PROF_REP (b2n s.repeatOn)
  let s := s.set F.MOD_PROF_CAP (profileCap p)
  forUpTo (fun i t => (t.set (F.TREE_STAT_LEXEC_USE i) (s.lexec - 1)).set (F.TREE_STAT_REPEAT_USE i) (b2n s.repeatOn)) 4 s

/-- BERTH_COUNT.ASSIGNED. -/
def assignedCount (s : State) : Nat := (s.berthsWith fun _ b => b.assign != 0 || b.admission.isSome).length

/-- BERTH_COUNT.ADMITTED. -/
def admittedCount (s : State) : Nat := (s.berthsWith fun _ b => held b).length

/-- The first test of R332 that refuses a commit leading to TCYC `tcyc`, 0 for none. -/
def profileRefusal (s : State) (tcyc : Nat) : Nat :=
  let p := profileOf tcyc
  let use := (List.range 2).foldl (fun m sl => if s.slotValid sl then max m (s.slotUse sl) else m) 0
  if p = s.profile then 0
  else if profileCap p < s.assignedCount then 1
  else if profilePool p < use then 2
  else if profileRate p ≠ profileRate s.profile ∧ (List.range 4).any (fun i => s.is (F.PG_CTRL_EN (Pg.TREE i))) then 3
  else 0

/-- A refused TIME commit is recorded, R332; CAPACITY is bit 8 of the SYS page (R11, R66). -/
def profileReject (s : State) (why : Nat) : State :=
  let s := ((s.set F.MOD_PROF_REJ_WHY why).bump F.MOD_PROF_REJ_COUNT).event Pg.MOD 12
  s.when (why == 1) (·.event Pg.SYS 8)

/-- LMIN of R335 from DDMAX and T_cyc, both in units of network time; 15 where it is larger. -/
def leadMin (s : State) (ddmax : Nat) : Nat :=
  let frame := 1027 * groupTenths (profileRate s.profile) * unitsPer64 / 10
  let t := nsUnits (if profileRate s.profile = 2 then 40 else 64) + ddmax + frame + nsUnits 640
  min 15 ((t + s.tcyc - 1) / max 1 s.tcyc)

/-- R335: LMIN is computed anew, LEAD_SHORT raised when L_exec is below it. -/
def leadCheck (s : State) : State :=
  let dd := (s.berths.filter fun e => held e.2).foldl (fun m e => max m e.2.ddown) 0
  let lmin := s.leadMin (dd * unitsPer64)
  let short := decide (s.lexec < lmin)
  let s := ((s.set F.MOD_LEAD_LMIN lmin).set F.MOD_LEAD_SHORT (b2n short)).set F.MOD_LEAD_DDMAX dd
  s.when short (·.event Pg.MOD 13)

/-- Does the lane of port `p` run at the profile's rate (R334)? -/
def rateAgrees (s : State) (p : Nat) : Bool := s.rate p == profileRate s.profile

/-- A tree port enabled with a wrong rate launches nothing and shows in MISMATCH (R334). -/
def portEnabled (s : State) (p : Nat) : State :=
  if s.rateAgrees p then s
  else
    let s := (s.set F.MOD_PROF_MISMATCH (s.get F.MOD_PROF_MISMATCH ||| 1 <<< p)).event Pg.MOD 16
    s.setPort p { s.port p with launches := false }

/-- At a meridian a port whose rate agrees again starts (R334). -/
def portStarts (s : State) : State :=
  forUpTo (fun p t =>
    if !(t.port p).launches && t.rateAgrees p then
      let m := t.get F.MOD_PROF_MISMATCH
      let t := t.set F.MOD_PROF_MISMATCH (if bitOf m p then m - 1 <<< p else m)
      t.setPort p { t.port p with launches := true }
    else t) 4 s

/-- Does port `p` launch frames (R334, R342)? Its lane must carry them (R208, R211, R215). -/
def portOn (s : State) (p : Nat) : Bool := s.runs (Pg.TREE p) && (s.port p).launches && s.laneSends p

/-- The next frames after a change of lead or repeat, R272: `a`, `rep` stood before. -/
def leadChanged (s : State) (a : Nat) (rep : Bool) : State :=
  let b := s.lead
  let s := forUpTo (fun p t => t.setPort p { t.port p with
      zeroNew := if b < a then a - b else (t.port p).zeroNew,
      zeroRep := (t.port p).zeroRep || rep != s.repeatOn }) 4 s
  s.showProfile

/-! Mode changes, R361 and R362. -/

/-- MOD_MSW_HI with GO: `kh` is the cycle in which the write completes. -/
def modeGo (s : State) (kh : Nat) : State :=
  let j := s.get F.MOD_MSW_LO_TARGET + 2 ^ 32 * s.get F.MOD_MSW_HI_TARGET
  let new := s.get F.MOD_MSW_HI_NEWMODE
  if s.mod.target.isSome ∨ new = 3 ∨ j < kh + s.lead + 8 ∨ kh + 2 ^ 31 < j then s.accessErr Pg.MOD
  else
    let s := { s with mod := { s.mod with target := some j } }
    let s := (s.set F.MOD_MODE_NEXT new).set F.MOD_MODE_PEND 1
    if s.get F.MOD_MODE_MODE = 2 ∨ new = 2 ∨ s.is F.MOD_MSW_HI_CRST then s.set F.MOD_CEPOCH_CEPOCH (j % 2 ^ 32) else s

/-- At t_j MODE takes NEWMODE. -/
def modeMeridian (s : State) (k : Nat) : State :=
  match s.mod.target with
  | some j =>
    if j ≤ k then
      let s := ((s.set F.MOD_MODE_MODE (s.get F.MOD_MODE_NEXT)).set F.MOD_MODE_PEND 0).event Pg.MOD 11
      { s with mod := { s.mod with target := none }, rank := { s.rank with sorted := false } }
    else s
  | none => s

/-- The mode of a frame whose new-event target is cycle `t`. -/
def modeFor (s : State) (t : Nat) : Nat :=
  match s.mod.target with
  | some j => if j ≤ t then s.get F.MOD_MODE_NEXT else s.get F.MOD_MODE_MODE
  | none => s.get F.MOD_MODE_MODE

/-! Protective commands, R359. -/

/-- MOD_PCMD with GO. -/
def pcmdGo (s : State) : State :=
  let a := s.get F.MOD_PCMD_ACTION
  if s.mod.pcmd.isSome ∨ !(a = 3 ∨ a = 5 ∨ a = 6) then s.accessErr Pg.MOD
  else { s.set F.MOD_PCMD_BUSY 1 with mod := { s.mod with pcmd := some (s.get F.MOD_PCMD_BERTH, a) } }

/-- Is berth `i` held at block by a protective command, launched or in the frame being built? -/
def heldAtBlock (s : State) (i : Nat) : Bool :=
  (s.obs i).pblk || s.mod.pcmdDue.any (fun e => e.2.1 == i && e.2.2 != 5)
    || (s.mod.pcmdSent && match s.mod.pcmd with | some (j, a) => j == i && a != 5 | none => false)

/-- Is the planned state of berth `i` block, R253 and R689? -/
def plannedBlock (s : State) (i : Nat) : Bool :=
  let b := s.berth i
  !s.safe.vb || b.assign == 0 || b.link != .admitted || b.restricted || b.perm || s.heldAtBlock i

/-! Stage E. -/

/-- OFS0 in ns, R366. -/
def ofs0 (s : State) : Nat :=
  let o := s.active F.MOD_OFS_OFS0
  if s.tcyc ≤ nsUnits o then 0 else o

/-- L_T in ns, R348. -/
def lastEdge (s : State) : Nat := s.tcyc / unitsPerNs - s.active F.MOD_OFS_TAIL

/-- New words that port `p` may still carry, R346 and R272. -/
def newRoom (s : State) (p : Nat) : Nat :=
  let n := max 1 (min 128 (s.active F.MOD_BUDGET_NEWMAX))
  if !s.portOn p ∨ (s.port p).zeroNew ≠ 0 then 0 else if s.repeatOn then min n 64 else n

/-- The protective word of R359 goes first. -/
def placeProtective (s : State) (e : EStep) : EStep × Bool :=
  match s.mod.pcmd with
  | some (i, a) =>
    if e.left i = 0 then (e, false)
    else
      let e := e.put i a 0
      (if a = 5 then e else e.go i 0 .block, true)
  | none => (e, false)

/-- Berths planned inserted whose planned state is block now leave the plan. -/
def dropBlocked (s : State) (e : EStep) : EStep :=
  e.ins.foldl (fun e x => if s.plannedBlock x.1 ∧ !e.used.contains x.1 then
    { e.go x.1 0 .block with used := e.used } else e) e

/-- A BYP word for each berth that has left the available set while inserted, R380. -/
def placeLeavers (s : State) (e : EStep) : EStep :=
  (s.mod.plan.ins.map (·.1)).foldl (fun e i =>
    if (s.obs i).avail ∨ !held (s.berth i) ∨ e.used.contains i ∨ e.left i = 0 then e
    else
      let o := min s.ofs0 s.lastEdge
      ((e.put i 0 (64 * o)).go i (64 * o) .bypass).edge i) e

/-- n_old of arm `a`: the inserted available berths, positive less negative. -/
def levelOld (s : State) (e : EStep) (a : Nat) : Int :=
  e.ins.foldl (fun n x => if (s.obs x.1).avail ∧ (s.berth x.1).arm = a then n + factor (some x.2) else n) 0

/-- n* of arm `a`. -/
def nStar (s : State) (a : Nat) : DWord :=
  dDiv (sToD (s.sig (s.active (F.MOD_ARM_SIG_REF a)))) (sToD (s.reg (R.RANK_ARM_VAVG a)))

/-- An integer level limited to the arm, an infinite one to its end. -/
def clampLevel (v : Fv) (n lo hi : Int) : Int :=
  match v with
  | .inf neg => if neg then lo else hi
  | _ => max lo (min hi n)

/-- The level change of arm `a` in mode `m`, with its counts: `nold` stands, `free` lifts DNMAX (R343, R349, R363). -/
def levelStep (s : State) (a m : Nat) (nold : Int) (free : Bool) : Int × State :=
  let navail := (s.availOf a).length
  let s := s.set (F.MOD_ARM_STAT_NAVAIL a) navail
  if navail = 0 then (0, s)
  else
    let x := s.nStar a
    let s := s.setReg (R.MOD_ARM_NSTAR a) (dToS x)
    let h := dRat (s.active (F.MOD_ARM_LVL_HYST a)) 256
    let want : Int :=
      match dVal x with
      | .nan => nold
      | v =>
        if m = 1 then (if dLt x 0 then -(dVal (dNeg x)).floor else v.floor)
        else if free ∨ dLt (dAdd (dRat 1 2) h) (dAbs (dSub x (dInt nold))) then v.roundAway
        else nold
    let lo : Int := -(s.nFull a : Int)
    let n := match dVal x with
      | .nan => max lo (min (navail : Int) want)
      | v => clampLevel v want lo navail
    let s := s.when (n != want) fun s => (s.bump (F.MOD_ARM_CNT_CLAMP a)).event Pg.MOD 15
    let lim : Int := max 1 (min 128 (s.active (F.MOD_ARM_LVL_DNMAX a)))
    let dn := if free then n - nold else max (-lim) (min lim (n - nold))
    (dn, s.when (dn != n - nold) (·.bump (F.MOD_ARM_CNT_DEFER a)))

/-- The first candidate with room on its port, and how many were skipped for want of it (R344). -/
def pick (e : EStep) : List Nat → Option Nat × Nat
  | [] => (none, 0)
  | i :: l =>
    if e.left i = 0 then
      let (r, n) := pick e l
      (r, n + 1)
    else (some i, 0)

/-- One unit of a level change, R344: the berth, the state it takes and the candidates skipped. `anyRoom` places no
words, so every port has room (R363). -/
def levelUnit (s : State) (a : Nat) (up anyRoom : Bool) (e : EStep) : Option (Nat × CellState) × Nat :=
  let o := nth s.rank.orders a {}
  let fit (want : Option CellState) (l : List Nat) : List Nat :=
    l.filter fun i => !e.used.contains i && kvFind e.ins i == want && (s.obs i).avail && s.trimCell a != some i
      && !s.plannedBlock i
  let e := if anyRoom then { e with room := [1, 1, 1, 1] } else e
  let first := pick e (if up then fit (some .neg) o.bypNeg else fit (some .pos) o.bypPos)
  match first.1 with
  | some i => (some (i, .bypass), first.2)
  | none =>
    let second := pick e (if up then fit none o.insPos else fit none o.insNeg)
    (second.1.map fun i => (i, if up then .pos else .neg), first.2 + second.2)

/-- The berths that realise a level change of `n` units, in order, with the counts of R344 and R346. -/
def levelBerths (s : State) (a : Nat) (up anyRoom : Bool) : (n : Nat) → EStep → List (Nat × CellState) × State
  | 0, _ => ([], s)
  | n + 1, e =>
    let (r, skipped) := s.levelUnit a up anyRoom e
    let s := s.bump (F.MOD_ARM_CNT_PORTFULL a) skipped
    match r with
    | some (i, st) =>
      let s := s.when (!s.dwellDone a i) (·.bump (F.RANK_ARM_SWP_DWELLOVR a))
      let e := { e with used := i :: e.used, room := e.room.set (i / 256) (nth e.room (i / 256) 0 - 1) }
      let (l, s) := s.levelBerths a up anyRoom n e
      ((i, st) :: l, s)
    | none =>
      let s := s.when (skipped != 0) (·.bump (F.MOD_ARM_CNT_DEFER a))
      s.levelBerths a up anyRoom n e

/-- The offset of the `j`-th of `m` level changes in ns, and whether they are compressed (R348). -/
def levelOffset (s : State) (m j : Nat) : Nat × Bool :=
  let o := s.ofs0
  let lt := s.lastEdge
  let stag := s.active F.MOD_EDGE_STAG
  if m = 0 ∨ o + (m - 1) * stag ≤ lt then (o + j * stag, false)
  else if 2 ≤ m ∧ o < lt then (o + j * ((lt - o) / (m - 1)), true)
  else (min o lt, true)

/-- The action code of a state. -/
def actionOf (st : CellState) : Nat := if st = .pos then 1 else if st = .neg then 2 else 0

/-- The level change of arm `a` is placed. The answer is the realised change, the offset in ns from which swaps count, and
the plan. -/
def placeLevel (s : State) (a : Nat) (dn : Int) (realign : Bool) (e : EStep) : Int × Nat × EStep × State :=
  let (l, s) := s.levelBerths a (decide (0 < dn)) realign dn.natAbs e
  let m := l.length
  let s := s.when (!realign && decide (0 < m) && (s.levelOffset m 0).2) (·.bump (F.MOD_ARM_CNT_STAGCOMP a))
  let e := l.zipIdx.foldl (fun e x =>
    if realign then e.go x.1.1 0 x.1.2
    else
      let o := 64 * (s.levelOffset m x.2).1
      ((e.put x.1.1 (actionOf x.1.2) o).go x.1.1 o x.1.2).edge x.1.1) e
  (if 0 < dn then m else -(m : Int), s.ofs0 + m * s.active F.MOD_EDGE_STAG, e, s)

/-- One proposed swap, the `j`-th of its arm, placed or dropped (R346 to R348). -/
def placeSwap (s : State) (base j h l : Nat) (e : EStep) : EStep :=
  let o := base + j * s.active F.MOD_EDGE_STAGSW
  let ofs := 64 * o
  let both := h / 256 == l / 256
  let room := if both then decide (2 ≤ e.left h) else e.left h != 0 && e.left l != 0
  if s.lastEdge < o ∨ !room then e
  else
    let e := if both then (e.put h 7 ofs).put l 1 ofs else (e.put h 0 ofs).put l 1 ofs
    (((e.go h ofs .bypass).go l ofs .pos).edge h).edge l

/-- The swaps of arm `a`, R384 and R347; none while the fusion of the snapshot is invalid (R382). -/
def placeSwaps (s : State) (a base : Nat) (e : EStep) : EStep × State :=
  let valid := match s.mod.used with
    | some x => (nth x.fus a {}).valid
    | none => false
  if !valid then (e, s)
  else
    let l := s.proposals a e.ins e.used
    let s := s.count (F.RANK_ARM_SWP_SWAPS a) l.length
    (l.zipIdx.foldl (fun e x => s.placeSwap base x.2 x.1.1 x.1.2 e) e, s)

/-! HYBRID, R349 to R352. -/

/-- Must the trim cell of arm `a` give way? -/
def trimEnds (s : State) (a i : Nat) : Bool :=
  let tj := match (s.berth i).report with | some r => r.tj | none => 0
  let lim := s.active F.MOD_TRIM_TLIM
  decide (max 1 (s.active F.MOD_TRIM_ROT_ROT) ≤ nth s.mod.plan.served a 0) || (lim != 0 && decide ((lim : Int) ≤ tj))
    || !(s.obs i).avail || s.plannedBlock i

/-- The trim cell registers follow the plan. -/
def showTrim (s : State) : State :=
  forUpTo (fun a t =>
    let t := (t.set (F.MOD_ARM_TRIM_BERTH a) ((nth t.mod.plan.trim a none).getD 0)).set (F.MOD_ARM_TRIM_VALID a)
      (b2n (nth t.mod.plan.trim a none).isSome)
    t.set (F.MOD_ARM_TRIM_ROTS a) (nth t.mod.plan.rots a 0)) 2 s

/-- The trim cell of arm `a` is kept or chosen. -/
def chooseTrim (s : State) (a : Nat) (e : EStep) : State :=
  let keep := match nth s.mod.plan.trim a none with
    | some i => !s.trimEnds a i
    | none => false
  if keep then s
  else
    let c := (nth s.rank.orders a {}).insPos.find? fun i =>
      (kvFind e.ins i).isNone && !e.used.contains i && (s.obs i).avail && !s.plannedBlock i
        && nth s.mod.plan.trim a none != some i
    let p := s.mod.plan
    let p := { p with trim := p.trim.set a c, served := p.served.set a 0, rots := p.rots.set a (nth p.rots a 0 + b2n c.isSome) }
    ({ s with mod := { s.mod with plan := p } }.when c.isSome (·.event Pg.MOD 14)).showTrim

/-- The pulse width of R350 in 1/64 ns from q, with T_cyc. -/
def trimWidth (s : State) (q : DWord) : Nat :=
  let tc := s.tcyc / unitsPer64
  let wmin := min (64 * s.active F.MOD_TRIM_WMIN) (tc / 2)
  let x := dMul q (dInt tc)
  if dLt x (dInt wmin) then 0
  else if dLt (dInt ((tc : Int) - wmin)) x then tc
  else (dVal x).roundAway.toNat

/-- The trim pair of arm `a`, R349 to R351. -/
def placeTrim (s : State) (a : Nat) (e : EStep) : EStep × State :=
  let s := s.chooseTrim a e
  match nth s.mod.plan.trim a none with
  | none => (e, s)
  | some i =>
    let x := s.nStar a
    let n := if dLt x 0 then -(dVal (dNeg x)).floor else (dVal x).floor
    let f := if dFinite x then dSub x (dInt n) else 0
    let p := s.mod.plan
    let q := dAdd (dAbs f) (nth p.resid a 0)
    let tc := s.tcyc / unitsPer64
    let w := if e.left i < 2 ∨ (s.availOf a).length = 0 then 0 else s.trimWidth q
    let r := dClamp (dSub q (dRat w tc)) (dInt (-1)) (dInt 1)
    let p := { p with resid := p.resid.set a r, served := p.served.set a (nth p.served a 0 + 1) }
    let s := { s with mod := { s.mod with plan := p } }
    let e := { e with used := i :: e.used }
    if w = 0 then (e, s)
    else
      let ofs := match s.active F.MOD_TRIM_ALIGN with
        | 1 => 0
        | 2 => tc - w
        | _ => (tc - w) / 2
      let on : CellState := if dLt f 0 then .neg else .pos
      let e := (e.put i 4 ofs).put i (actionOf on) w true
      ({ e with moves := e.moves ++ [{ berth := i, offset := ofs, dest := on, width := w }] }, s)

/-! The reference block, R252 and R354. -/

/-- M of arm `a`. -/
def refM (s : State) (a : Nat) : Word :=
  let lo := if 0 < s.nFull a then dInt (-1) else 0
  dToS (dClamp (dDiv (s.nStar a) (dInt (s.availOf a).length)) lo (dInt 1))

/-- The reference block without CEPOCH: M0, VAVG0, IARM0, then those of arm 1. -/
def refBlock (s : State) (x : Snap) : List Word :=
  let arm (a : Nat) : List Word :=
    if a < s.arms then [s.refM a, s.reg (R.RANK_ARM_VAVG a), dToS (nth x.fus a {}).i] else [0, 0, 0]
  arm 0 ++ arm 1

/-! The twin's plan, R535. -/

/-- The inserted berths of four bitmaps of 64 bytes. -/
def bitmapIns (bm : List Byte) : Kv CellState :=
  (List.range 1024).filterMap fun i =>
    let c := CellState.ofCode ((nth bm (i / 4) 0).toNat >>> (2 * (i % 4)))
    if c.inserted then some (i, c) else none

/-- A standby's next stage E starts from the plan of the active's STATUS frame; DWELL restarts for every berth whose
adopted state differs from its own plan. -/
def adoptPlan (s : State) : State :=
  match s.twin.adopt with
  | none => s
  | some t =>
    let ins := bitmapIns t.bitmap
    let old := s.mod.plan.ins
    let ids := (ins.map (·.1)) ++ (old.map (·.1)).filter fun i => (kvFind ins i).isNone
    let s := ids.foldl (fun s i => if kvFind ins i = kvFind old i then s else s.setObs i { s.obs i with dwell := 0 }) s
    let tr := t.trim.map fun w => if bitOf w 15 then some (w % 1024) else none
    let p := { s.mod.plan with ins := ins, level := t.n.map (signed 16), trim := tr, resid := t.resid }
    let plans := match s.mod.plans with
      | h :: l => { h with start := ins, moves := [] } :: l
      | [] => []
    { s with mod := { s.mod with plan := p, good := p, plans := plans }, twin := { s.twin with adopt := none } }.showTrim

/-- N and the signal OUT of arm `a` take the realised level, R343. -/
def showLevel (s : State) (a : Nat) (n : Int) : State :=
  let p := { s.mod.plan with level := s.mod.plan.level.set a n }
  let s := { s with mod := { s.mod with plan := p } }.set (F.MOD_ARM_STAT_N a) (unsigned 11 n)
  s.when (s.active (F.MOD_ARM_SIG_OUTEN a) == 1) (·.setSig (s.active (F.MOD_ARM_SIG_OUT a)) (dToS (dInt n)))

/-- The levels of both arms, then their swaps. -/
def placeLevels (s : State) (m : Nat) (realign : Bool) (e : EStep) : EStep × State :=
  let arm (a : Nat) (r : List Nat × EStep × State) : List Nat × EStep × State :=
    let (bases, e, s) := r
    let nold := s.levelOld e a
    let (dn, s) := s.levelStep a (if realign then 0 else m) nold realign
    let (d, base, e, s) := s.placeLevel a dn realign e
    (bases ++ [base], e, s.showLevel a (nold + d))
  let (bases, e, s) := forUpTo arm s.arms ([], e, s)
  if realign then (e, s)
  else forUpTo (fun a r => r.2.placeSwaps a (nth bases a 0) r.1) s.arms (e, s)

/-- The trim pairs of all arms. -/
def placeTrims (s : State) (e : EStep) : EStep × State := forUpTo (fun a r => r.2.placeTrim a r.1) s.arms (e, s)

/-- Residuals and trim cells start afresh, R350 and R362. -/
def freshTrim (p : ModSave) (m : Nat) : ModSave :=
  { p with resid := [0, 0], served := [0, 0], trim := [none, none], mode := m }

/-- Stage E for the work of snapshot `x`. -/
def stageE (s : State) (x : Snap) : State :=
  let s := s.adoptPlan
  let t := x.k + 1 + s.lead
  let m := s.modeFor t
  let p := s.mod.plan
  let realign := p.mode = 2 ∧ m ≠ 2
  let s := if p.mode = m then s else { s with mod := { s.mod with plan := freshTrim p m } }.showTrim
  let p := s.mod.plan
  let p := if m = 2 then { p with ins := [] } else p
  let s := { s with mod := { s.mod with plan := p } }
  let e : EStep := { ins := p.ins, room := (List.range 4).map s.newRoom }
  let (e, sent) := s.placeProtective e
  let (e, s) :=
    if m = 2 then (e, s)
    else if !s.safe.vb then (s.dropBlocked e, (s.showLevel 0 0).showLevel 1 0)
    else
      let r := if m = 1 ∧ !realign then s.placeTrims e else (e, s)
      let e := s.placeLeavers (s.dropBlocked r.1)
      r.2.placeLevels m realign e
  let plan : LaunchPlan := { target := t, start := p.ins, moves := e.moves, inter := m == 2, m := [s.refM 0, s.refM 1] }
  { s with mod := { s.mod with
      plan := { s.mod.plan with ins := e.ins }, moves := some plan, words := e.words, edges := e.edges,
      refs := s.refBlock x, pcmdSent := sent } }

/-! The pipeline, R336 to R341. -/

/-- A stage is complete at `ns` after the meridian: its bit, and the monitor sample of SRC 1. -/
def stageDone (s : State) (i ns : Nat) : State :=
  { s with mod := { s.mod with stages := s.mod.stages ||| 1 <<< i } }.monitorSel 1 i ns

/-- May stage `i` start: the stages of `before` done, itself not? -/
def stageDue (s : State) (before i : Nat) : Bool :=
  s.alive && s.isHub && s.mod.used.isSome && decide (s.mod.stages &&& before = before) && !bitOf s.mod.stages i

/-- CTL_ANGSIG, R397. -/
def angleSignals (s : State) (x : Snap) : State :=
  let s := if s.active F.CTL_ANGSIG_ANGEN = 1 then s.setSig (s.active F.CTL_ANGSIG_ANG) (dToS x.theta) else s
  if s.active F.CTL_ANGSIG_FRQEN = 1 then s.setSig (s.active F.CTL_ANGSIG_FRQ) (dToS x.freq) else s

/-- Stage A of the newest snapshot, if the previous work is complete (R337). Its duration is not stated beyond a range:
its monitor sample is a free value. -/
def startWork (s : State) : State :=
  match s.mod.fresh, s.mod.used, s.mod.snap with
  | true, none, some x =>
    let s := { s with mod := { s.mod with used := some x, fresh := false, stages := 0, invalid := false } }
    let s := s.when (s.runs Pg.RANK) fun s => (s.rankSignals x 0).rankSignals x 1
    let s := s.when (s.runs Pg.CTL) fun s => s.angleSignals x
    let s := s.ramps
    let s := s.when (s.runs Pg.CTL) sigFlush
    let (v, s) := s.free
    s.stageDone 0 (v % 2 ^ 16)
  | _, _, _ => s

/-- A snapshot is latched; one whose work has not started is overwritten, and its cycle skipped (R337). -/
def latchSnap (s : State) (x : Snap) : State :=
  let s := s.when s.mod.fresh fun s => (s.bump F.MOD_DL_CNT_SKIP).event Pg.MOD 10
  { s with mod := { s.mod with snap := some x, fresh := true } }

/-- The plan returns to what was launched (R340). -/
def restorePlan (s : State) : State :=
  { s with mod := { s.mod with
      plan := s.mod.good, moves := none, words := [[], [], [], []], edges := [], pcmdSent := false } }.showTrim

/-- A deadline miss, R340 and R341. -/
def deadlineMiss (s : State) : State :=
  let s := { s.restorePlan with mod := { s.restorePlan.mod with late := true } }
  let s := ((s.bump F.MOD_DL_CNT_MISS).bump F.MOD_DL_CFG_RUN).event Pg.MOD 8
  if s.get F.MOD_DL_CFG_RUN = max 1 (s.get F.MOD_DL_CFG_MISSLIM) then
    let act := s.get F.MOD_DL_CFG_ACT
    let s := s.when (act != 0) fun s => (s.event Pg.MOD 9).health 0
    s.when (decide (2 ≤ act)) (·.blockRequest 1)
  else s

/-- The ports that R338 tests: those that launch, but for one that has come on since the frames of the others were built,
which has no frame at all yet (log 92). -/
def portsTested (s : State) : List Nat :=
  let on := (List.range 4).filter s.portOn
  if on.any fun p => (s.port p).ready.isSome then on.filter fun p => (s.port p).ready.isSome || (s.port p).fallback.isSome
  else on

/-- The test at t_{k+1} - 100 ns (R338). -/
def readyTest (s : State) : State :=
  let on := s.portsTested
  if on = [] then s
  else if on.all fun p => (s.port p).ready.isSome then s.set F.MOD_DL_CFG_RUN 0
  else s.deadlineMiss

end State

open State

/-- STAGE_B (R370): the observer, once stage A is done. `ns` is its completion after t_k. -/
def execStageB (ns : Nat) (s : State) : Out :=
  match s.mod.used with
  | some x => act s (s.stageDue 1 1) fun s => (s.when (s.runs Pg.RANK) (·.stageB x)).stageDone 1 ns
  | none => .next s

/-- STAGE_C (R407): one execution of the control engine, of `lat` ns, once stage A is done. A cold standby runs no program
(R568). -/
def execStageC (ns lat : Nat) (s : State) : Out :=
  act s (s.stageDue 1 2) fun s =>
    let s := s.when (s.runs Pg.CTL && (s.hubDrives || !s.is F.BOOT_TWIN_COLD)) fun s =>
      let s := s.hubExecution lat
      { s with mod := { s.mod with invalid := s.is F.CTL_STAT_INVALID } }
    s.stageDone 2 ns

/-- STAGE_D (R383): the orders, once stage B is done. -/
def execStageD (ns : Nat) (s : State) : Out :=
  match s.mod.used with
  | some x => act s (s.stageDue 3 3) fun s => (s.when (s.runs Pg.RANK) (·.stageD x)).stageDone 3 ns
  | none => .next s

/-- READY_TEST (R338). -/
def execReadyTest (s : State) : Out :=
  act s (s.alive && s.isHub && s.meridiansOn && s.time.lastK.isSome && s.runs Pg.MOD) readyTest

end Sys2Proof.Machine
end

