-- ==== Sys2Proof/Machine/HubTree.lean ====
section
/-! DEFINITION. The tree ports of a hub, downstream (09_tree_frames.md): tags, the frame of R248, stage F, the fallback
frame, the launch, image multicast. -/

namespace Sys2Proof.Machine

/-- Binary32 and other words, most significant byte first. -/
def beWords (ws : List Word) : List Byte := ws.flatMap fun w => beBytes 4 w.toNat

/-- The least significant byte first of a CRC-32C. -/
def crcBytes (bs : List Byte) : List Byte := leBytes 4 (crc32c bs)

namespace State

/-- Hub number and side of the node (R20). -/
def hubNo (s : State) : Nat := s.get F.SYS_NODE_HUB
def side (s : State) : Nat := s.get F.SYS_NODE_SIDE

/-! Keys, R184 and R185. -/

/-- The group key of port `p` for cycle `k`. -/
def groupKey (s : State) (p k : Nat) : Key :=
  match (s.port p).renew with
  | some (new, ksw, _) => if ksw ≤ k then new else (s.port p).group.getD 0
  | none => (s.port p).group.getD 0

/-- A port without a group key draws one (R183). -/
def drawGroup (s : State) (p : Nat) : State :=
  if (s.port p).group.isSome then s
  else
    let (v, s) := s.free
    s.setPort p { s.port p with group := some (BitVec.ofNat 128 v), keyAt := s.cycle }

/-! Records, R286 and R287. -/

/-- The bytes of a record. -/
def recBytes (rtype berth tid marks : Nat) (body : List Byte) : List Byte :=
  [BitVec.ofNat 8 rtype, BitVec.ofNat 8 berth, BitVec.ofNat 8 tid, BitVec.ofNat 8 (marks + body.length / 4)] ++ body

/-- The TBASE record with the values in use. -/
def tbase (s : State) : List Byte :=
  let e := s.epoch
  recBytes 0x12 0 0 0 (beBytes 8 (e / unitsPerSec) ++ beBytes 4 (e % unitsPerSec / unitsPerNs) ++ beBytes 6 s.kbase
    ++ [BitVec.ofNat 8 (s.active F.TIME_MER_TCYC), BitVec.ofNat 8 (s.get F.TIME_STAT_TBG)])

/-- The zone extension Z of port `p`, R297. -/
def zoneOf (s : State) (p : Nat) : Nat :=
  s.get (match p with | 0 => F.BERTH_ZONE_Z0 | 1 => F.BERTH_ZONE_Z1 | 2 => F.BERTH_ZONE_Z2 | _ => F.BERTH_ZONE_Z3)

/-- BEXP in force, R328. -/
def bexp (s : State) : Nat :=
  let n := s.get F.BERTH_CFG_BEXP
  if 1 ≤ n ∧ n ≤ 10 then n else 6

/-- Is the enrolment window of port `p` open? -/
def windowOpen (s : State) (p : Nat) : Bool := bitOf (s.get F.BERTH_BOARD_OPEN) p

/-- BERTH_BOARD.LEFT: seconds left of the longest open window (R328). -/
def boardLeft (s : State) : Nat :=
  (List.range 4).foldl (fun m p => if s.windowOpen p then max m (s.timerLeft (s.port p).winEnd unitsPerSec) else m) 0

/-- The berth indices of port `p` that pass a test. -/
def portBerths (s : State) (p : Nat) (f : BerthSt → Bool) : List Nat := s.berthsWith fun i b => i / 256 == p && f b

/-- Is a rejoin window open on port `p`: AUTO and an assigned berth absent or silent? -/
def rejoinOpen (s : State) (p : Nat) : Bool :=
  s.is F.BERTH_BOARD_AUTO && s.portBerths p (fun b => b.assign != 0 && (b.link == .absent || b.link == .silent)) != []

/-- BOARDING of port `p`, R295 and R691. -/
def boarding (s : State) (p : Nat) : Bool :=
  s.is (F.PG_CTRL_EN Pg.BERTH) && (s.port p).search.isNone
    && (s.windowOpen p || s.rejoinOpen p || s.portBerths p (fun b => b.admission.isSome) != [])

/-- RTYPE of a BEACON, which the spec does not state beyond the range of the admission records. -/
def beaconType : Nat := 0x40 + Config.beaconType % 0x20

/-- The BEACON record of port `p`, R300. -/
def beacon (s : State) (p : Nat) : List Byte :=
  recBytes beaconType 0 0 0 (idBytes s.devId ++ idBytes s.twinId
    ++ beBytes 4 (s.get (F.BERTH_RTTNOM_RTT p))
    ++ [BitVec.ofNat 8 (s.zoneOf p), BitVec.ofNat 8 (b2n (s.windowOpen p) + 2 * b2n (s.rejoinOpen p)),
      BitVec.ofNat 8 s.bexp, 0])

/-- A queued record as bytes. -/
def mgmtBytes (r : MgmtRec) : List Byte := recBytes r.rtype r.berth r.tid r.marks r.body

/-- The OFFER of berth `i`, R308. -/
def offerBytes (s : State) (i : Nat) : List Byte :=
  match (s.berth i).admission with
  | some a => recBytes 0x41 0 0 0 (beBytes 8 (s.berth i).keyid.toNat ++ [BitVec.ofNat 8 i]
      ++ [BitVec.ofNat 8 (b2n a.enrol + 2 * b2n a.rom), 0, 0] ++ beBytes 6 a.cycleR ++ [0, 0] ++ beBytes 4 a.turn)
  | none => []

/-- The RESTORE record of a list of berths, R324. -/
def restoreBytes (l : List Nat) : List Byte :=
  recBytes 0x45 0 0 0 ((List.range 32).map fun j =>
    BitVec.ofNat 8 ((List.range 8).foldl (fun a b => a + b2n (l.contains (8 * j + b)) * 2 ^ b) 0))

/-- Does the record await a response (R288)? WRP and TBASE are never answered; OFFER, REFUSE, BEACON and RESTORE neither. -/
def answered (rtype : Nat) : Bool := rtype == 1 || rtype == 2 || rtype == 3 || rtype == 0x10 || rtype == 0x11 || rtype == 0x42

/-- Records of the queue taken into a body with `room` bytes: in order; a berth whose record waits makes its later ones
wait; no berth has more than four unanswered (R290). A WRP, which every berth takes, passes no waiting record, and none
passes it. -/
def takeRecords (opens : List MgmtRec) : (room : Nat) → (blocked : List Nat) → List MgmtRec → List MgmtRec
  | _, _, [] => []
  | room, blocked, r :: l =>
    let n := 4 + r.body.length
    let full := answered r.rtype && decide (4 ≤ (opens.filter fun o => o.berth == r.berth).length)
    if r.rtype = 4 then (if room < n ∨ blocked ≠ [] then [] else r :: takeRecords opens (room - n) blocked l)
    else if blocked.contains r.berth ∨ room < n ∨ full then takeRecords opens room (r.berth :: blocked) l
    else r :: takeRecords (if answered r.rtype then r :: opens else opens) (room - n) blocked l

/-! Image multicast, R139, R259 and R292. -/

/-- The flash address of the running slot: A, or B when BOOT_STAT.SRC tells so. -/
def runningSlot (s : State) : Nat := if s.get F.BOOT_STAT_SRC = 1 then 0x60800000 else 0x60000000

/-- The cell container at the SECOND offset of the running slot, if there is one. -/
def cellContainer (s : State) : Option Nat :=
  let o := s.num (s.runningSlot + 0x28) 4
  if o = 0 then none else some (s.runningSlot + o)

/-- How many blocks a container has. -/
def imageBlocks (s : State) (a : Nat) : Nat := (4096 + s.num (a + 0x24) 4 + 255) / 256

/-- Berths of port `p` that report IMG: TREE_IMG.NEED. -/
def imageNeed (s : State) (p : Nat) : Nat := (s.portBerths p fun b => held b && b.needImg).length

/-- Does port `p` multicast? A pass that runs is finished. -/
def imageOn (s : State) (p : Nat) : Bool :=
  s.is (F.TREE_CTL_IMG p) && s.cellContainer.isSome && ((s.port p).imgKey || decide (0 < s.imageNeed p))

/-- The next part of the pass: the key record first, then block by block; `tb` is a TBASE record or nothing. The answer is
MHDR, MBODY and whether a part was placed. A key record leaves no room for a TBASE. -/
def imagePart (s : State) (p : Nat) (tb : List Byte) : List Byte × List Byte × Bool :=
  match s.cellContainer with
  | none => ([0, 0] ++ beBytes 2 tb.length, tb, false)
  | some a =>
    if !(s.port p).imgKey then
      if tb = [] then ([2, 0, 0, 68], s.bytes (s.runningSlot + 0x7FF000) 68, true)
      else ([0, 0] ++ beBytes 2 tb.length, tb, false)
    else
      let j := (s.port p).imgNext.getD 0
      let n := min 256 (4096 + s.num (a + 0x24) 4 - 256 * j)
      let block := s.bytes (a + 256 * j) n ++ List.replicate (256 - n) 0
      let id := s.byte (a + 0x30)
      ([if tb = [] then 1 else 3, id] ++ beBytes 2 j, block ++ tb, true)

/-- A part of the pass has been launched; after the last block the pass is complete (IMG_PASS). -/
def imageSent (s : State) (p : Nat) : State :=
  let q := s.port p
  if !q.imgKey then s.setPort p { q with imgKey := true, imgNext := some 0 }
  else
    let j := q.imgNext.getD 0 + 1
    let n := match s.cellContainer with | some a => s.imageBlocks a | none => 0
    if j < n then s.setPort p { q with imgNext := some j }
    else ((s.setPort p { q with imgKey := false, imgNext := none }).bump (F.TREE_IMG_PASSES p)).event (Pg.TREE p) 11

/-! Grants, R277 and R298. -/

/-- The cycle in which an instant falls. -/
def cycleAt (s : State) (t : Nat) : Int := ((t : Int) - s.epoch) / (s.tcyc : Int) + s.kbase

/-- Would a grant of slot `m` in round `n` fall in one cycle with another grant of the berth? -/
def grantClash (s : State) (p b m n : Nat) : Bool :=
  let at' (m n : Nat) : Int := s.cycleAt (slotAt (s.rate p) n (mgmtIdx m))
  (s.port p).grants.any fun g => g.1 == b && at' g.2.1 g.2.2 == at' m n

/-- Management slots of round `n` go to the berths of a list in order, at most one each. -/
def grantTo (s : State) (p n : Nat) : (slots berths : List Nat) → State
  | _, [] => s
  | [], _ => s
  | m :: ms, b :: bs =>
    if s.grantClash p b m n then s.grantTo p n (m :: ms) bs
    else (s.setPort p { s.port p with grants := (s.port p).grants ++ [(b, m, n)] }).grantTo p n ms bs

/-- The berths that get a grant, oldest request first; each once. A request is a record that awaits its response since its
frame's launch, or an MREQ since the report that first showed it. -/
def grantWish (s : State) (p : Nat) : List Nat :=
  let opens := (s.port p).opens.map fun r => (r.sentAt, r.berth)
  let asked := (s.portBerths p fun b => held b && b.mreq).map fun i => ((s.berth i).mreqAt, i % 256)
  (((opens ++ asked).mergeSort fun x y => decide (x.1 ≤ y.1)).map (·.2)).foldl (fun l b => if l.contains b then l else l ++ [b]) []

/-- The grants of round `n`, made once: before the first frame of round `n - 1` is built, or as that round begins. Past
grants leave the list. -/
def grantsFor (s : State) (p n : Nat) : State :=
  if n ≤ (s.port p).grantFor then s
  else
    let q := s.port p
    let s := s.setPort p { q with grants := q.grants.filter fun g => decide (s.roundNow p ≤ g.2.2), grantFor := n }
    s.grantTo p n (List.range (if s.zoneOf p = 0 then 8 else 7)) (s.grantWish p)

/-! The frame, R248 to R254. -/

/-- The bitmap of port `p` with the planned states `ins` (R253, R354, R689). -/
def bitmapOf (s : State) (p : Nat) (ins : Kv CellState) (inter : Bool) : List Byte :=
  let code (b : Nat) : Nat :=
    let i := 256 * p + b
    if s.plannedBlock i then 3
    else if inter then (if (s.obs i).excl then 3 else 0)
    else match kvFind ins i with
      | some st => st.code
      | none => 0
  (List.range 64).map fun j => BitVec.ofNat 8 (code (4 * j) + 4 * code (4 * j + 1) + 16 * code (4 * j + 2) + 64 * code (4 * j + 3))

/-- FLAGS of R249, without BLOCK_REQ. -/
def frameFlags (s : State) (p : Nat) (noMan : Bool) : Nat :=
  (if s.hubDrives then 1 else 2) + 8 * b2n (s.boarding p) + 16 * b2n s.repeatOn + 32 * b2n noMan

/-- Words get their sequence numbers from `n` on; a marked word takes the number of the one before (R254, R256). -/
def numberWords : (n : Nat) → List (Nat × Bool) → List Nat × Nat
  | n, [] => ([], n)
  | n, (w, same) :: l =>
    let m := if same then (n + 1023) % 1024 else n
    let (r, e) := numberWords (if same then n else (n + 1) % 1024) l
    ((w + m) :: r, e)

/-- The timetable entries repeated in a frame of round `n` (R258, R277, R278), and the laser kills of the next frame
(R279); with `pairs` first those that go in one frame with a record: ALL with its RESTORE (R325), the end of a link with its
REFUSE (R316). -/
def ttEntries (s : State) (p n : Nat) (pairs : Bool) : List (List Byte) :=
  let q := s.port p
  let e (k b a r : Nat) : List Byte := [BitVec.ofNat 8 k, BitVec.ofNat 8 b, BitVec.ofNat 8 a, BitVec.ofNat 8 r]
  (if pairs then (if q.killAll then [e 3 0 1 0] else []) ++ (q.ends.take 1).map fun x => e 3 x.1 0 0 else [])
    ++ (if pairs && q.killAll then [] else q.kills.map fun b => e 3 b 0 0)
    ++ (q.grants.filter fun g => g.2.2 == n + 1).map (fun g => e 1 g.1 g.2.1 g.2.2)
    ++ (q.rslots.filter fun g => decide (n < g.2.2.1)).map (fun g => e 2 g.1 g.2.1 g.2.2.1)

/-- The watch that frames carry: OWN, or for a non-redundant hub that has none yet one above SEEN (R530, R531). -/
def ownWatch (s : State) : State :=
  if !s.is F.SYS_TOPO_TWIN ∧ s.get F.TWIN_WATCH_OWN = 0 then
    let w := (s.get F.TWIN_WATCH_SEEN + 1) % 65536
    (s.set F.TWIN_WATCH_OWN w).set F.TWIN_WATCH_SEEN w
  else s

/-- The round in which frame `k` of port `p` is launched. -/
def roundOf (s : State) (p k : Nat) : Nat := roundAt (s.rate p) (s.meridianAt k).toNat

/-- Must a frame of port `p` launched in round `n` carry a TBASE (R287)? -/
def tbaseDue (s : State) (p n : Nat) : Bool := (s.port p).tbaseOwed != 0 || (s.port p).tbaseRound != some n

/-- Bytes that a frame with so many event words and timetable entries has left (R250). -/
def frameRoom (words entries : Nat) : Nat := 1024 - (123 + 6 * words + 4 * entries)

/-- Bytes held for the records that must go with the frame: a TBASE, the RESTORE of an ALL, the REFUSE of a link's end. -/
def heldRoom (s : State) (p n : Nat) : Nat :=
  let q := s.port p
  24 * b2n (s.tbaseDue p n) + 36 * b2n (q.killAll && q.restores.isSome) + 16 * b2n (q.ends != [])

/-- The timetable entries that fit beside so many event words, R251: room for a TBASE is held first, kills come before
the others. -/
def ttFit (s : State) (p n words : Nat) : List (List Byte) :=
  (s.ttEntries p n true).take (min 32 ((frameRoom words 0 - s.heldRoom p n) / 4))

/-- The management segment of port `p` for a frame of cycle `k` in round `n` with `room` bytes left for it: MHDR, MBODY
and what it carries. -/
def mgmtSegment (s : State) (p k n room : Nat) : List Byte × List Byte × Carried :=
  let q := s.port p
  let needTb := s.tbaseDue p n
  let tb := if needTb then s.tbase else []
  let lim := min 256 room
  let add (got : List Byte × Bool) (x : List Byte) : List Byte × Bool :=
    if x = [] ∨ lim < got.1.length + x.length then (got.1, false) else (got.1 ++ x, true)
  let en := add (tb, false) (match q.ends with | x :: _ => recBytes 0x43 0 0 0 x.2 | [] => [])
  let rs := add en (match q.restores with | some l => restoreBytes l | none => [])
  let bc := add rs (if s.boarding p ∧ q.beaconRound ≠ some n then s.beacon p else [])
  let due := q.offers.filter fun o => match (s.berth o.1).admission with
    | some a => decide (k ≤ a.cycleR) && s.roundOf p a.cycleR == n
    | none => false
  let ofs := due.foldl (fun r o => (add (r, false) (s.offerBytes o.1)).1) bc.1
  let ro := q.reoffers.foldl (fun (r : List Byte × List Nat) i =>
    let x := add (r.1, false) (s.offerBytes i)
    (x.1, if x.2 then r.2 ++ [i] else r.2)) (ofs, [])
  let rf := q.refuses.foldl (fun (r : List Byte × Nat) b =>
    let x := add (r.1, false) (recBytes 0x43 0 0 0 b)
    (x.1, r.2 + b2n x.2)) (ro.1, 0)
  let recs := takeRecords q.opens (lim - rf.1.length) [] q.mq
  let c : Carried := {
    records := recs, kills := q.kills, killAll := q.killAll, restores := rs.2, tbase := needTb,
    beacon := bc.2, refuses := rf.2, ends := b2n en.2, reoffers := ro.2 }
  let (h, b, placed) := s.imagePart p tb
  if recs = [] ∧ rf.1.length = tb.length ∧ s.imageOn p ∧ b.length ≤ room then (h, b, { c with image := placed })
  else
    let body := rf.1 ++ recs.flatMap mgmtBytes
    ([0, 0] ++ beBytes 2 body.length, body, c)

/-- Frame `k` of port `p` as stage F builds it. -/
def buildFrame (s : State) (p k : Nat) : BuiltFrame :=
  let q := s.port p
  let n := roundAt (s.rate p) (s.meridianAt k).toNat
  let (new, e) := numberWords q.seq (nth s.mod.words p [])
  let rep := if s.repeatOn ∧ !q.zeroRep then q.lastNew else []
  let tt := s.ttFit p n (rep.length + new.length)
  let (h, b, c) := s.mgmtSegment p k n (frameRoom (rep.length + new.length) tt.length)
  { lead := p <<< 6 + (s.lexec - 1) <<< 3
    watch := s.get F.TWIN_WATCH_OWN
    flags := s.frameFlags p false
    refs := s.mod.refs.take 6 ++ [s.reg R.MOD_CEPOCH]
    bitmap := s.bitmapOf p s.mod.plan.ins (match s.mod.moves with | some m => m.inter | none => s.mod.plan.mode == 2)
    rep := rep
    new := new
    tt := tt
    mhdr := h
    mbody := b
    carried := { c with seqEnd := e, kills := if c.killAll then c.kills else c.kills.take (tt.length - c.ends) } }

/-- The fallback frame for the cycle after frame `f`, R339; `k` is its cycle. It keeps the ACTIVE and STANDBY bits and
the watch of `f` (R560). Its management segment is empty, so an entry that must go with a record stays behind. -/
def buildFallback (s : State) (p k : Nat) (f : BuiltFrame) : BuiltFrame :=
  let n := roundAt (s.rate p) (s.meridianAt k).toNat
  { f with
    flags := f.flags % 4 + s.frameFlags p true / 4 * 4
    rep := if s.repeatOn ∧ !(s.port p).zeroRep then f.new else []
    new := []
    tt := (s.ttEntries p n false).take 32
    mhdr := [0, 0, 0, 0]
    mbody := []
    breq := s.safe.breq
    carried := { seqEnd := (s.port p).seq, kills := (s.port p).kills.take 32 } }

/-- The bytes of frame `k` as launched now: TBG and BLOCK_REQ stand at the launch (R248, R511), a fallback frame keeping the
BLOCK_REQ of its building too (R339), and while VB is BLOCKED every entry is block (R513). -/
def frameBytes (s : State) (p k : Nat) (f : BuiltFrame) : List Byte :=
  let roleBits := if f.flags % 4 = 1 ∧ s.hubDrives then 1 else 2
  let body : List Byte := [1, BitVec.ofNat 8 f.lead] ++ beBytes 6 k ++ beBytes 2 f.watch
    ++ [BitVec.ofNat 8 (f.flags / 4 * 4 + roleBits + 4 * b2n (f.breq || s.safe.breq)), BitVec.ofNat 8 (s.get F.TIME_STAT_TBG)]
    ++ beWords f.refs
    ++ (if s.safe.vb then f.bitmap else List.replicate 64 0xFF)
    ++ [BitVec.ofNat 8 f.rep.length, BitVec.ofNat 8 f.new.length]
    ++ (f.rep ++ f.new).flatMap (beBytes 6)
    ++ [BitVec.ofNat 8 f.tt.length] ++ f.tt.flatten ++ f.mhdr ++ f.mbody
  let body := body ++ gmac (s.groupKey p k) (tagIv 1 s.hubNo s.side p 0 k) body
  body ++ crcBytes body

/-- Stage F: a frame for every port that launches, ready for the next meridian. A frame that comes too late, or whose
stage C read poison (R395), is discarded and the plan returns to what was launched. -/
def stageF (s : State) (x : Snap) (ns : Nat) : State :=
  let s := (s.set F.MOD_DL_T_LAST (min 65535 ns)).set F.MOD_DL_T_WORST (max (min 65535 ns) (s.get F.MOD_DL_T_WORST))
  let s :=
    if s.time.lastK = some x.k ∧ !s.mod.late ∧ !s.mod.invalid then
      forUpTo (fun p t =>
        if t.portOn p then
          let t := ((t.drawGroup p).ownWatch).grantsFor p (t.roundOf p (x.k + 1) + 1)
          (t.setPort p { t.port p with ready := some (t.buildFrame p (x.k + 1)) }).set (F.TREE_STAT_READY p) 1
        else t) 4 s
    else s.restorePlan
  { s with mod := { s.mod with used := none } }

/-! Answers to management records, R290, R291 and R659. -/

/-- A record is answered to whoever asked for it: the mailbox of port `p` shows code, INDEX and data; a station request
keeps the answer for its response. -/
def answer (s : State) (p : Nat) (src : MgmtFrom) (code index : Nat) (data : List Byte) : State :=
  match src with
  | .hub | .deblock => s
  | .mailbox =>
    let s := s.setPort p { s.port p with mailbox := false }
    let s := ((s.set (F.TREE_RA_STAT_BUSY p) 0).set (F.TREE_RA_STAT_CODE p) code).set (F.TREE_RA_STAT_INDEX p) index
    forUpTo (fun i t => t.setReg (R.TREE_RA_DATA p i) (BitVec.ofNat 32 (ofBe ((data.drop (4 * i)).take 4)))) (data.length / 4) s
  | .station q r =>
    match kvFind s.stn.reqs q with
    | some x =>
      let recs := x.recs.modify r fun y => { y with ans := some (code, index, data) }
      { s with stn := { s.stn with reqs := kvSet s.stn.reqs q { x with recs := recs } } }
    | none => s

/-! The launch, R229, R339 and R340. -/

/-- The records of a launched frame: they leave the queue; those that await a response are open from round `n` on. -/
def recordsSent (s : State) (p n : Nat) (l : List MgmtRec) : State :=
  let q := s.port p
  let gone (r : MgmtRec) : Bool := l.any fun x => x.tid == r.tid && x.berth == r.berth && x.rtype == r.rtype
  let s := s.setPort p { q with
    mq := q.mq.filter fun r => !gone r
    opens := q.opens ++ ((l.filter fun r => answered r.rtype).map fun r => { r with round := n, sentAt := s.now }) }
  l.foldl (fun t r =>
    if r.rtype = 4 then t.answer p r.src Code.ok 0 [] else t) s

/-- What a launched frame has carried is done. -/
def carriedOut (s : State) (p n : Nat) (c : Carried) : State :=
  let s := s.recordsSent p n c.records
  let q := s.port p
  let s := s.setPort p { q with
    kills := q.kills.filter fun b => !c.kills.contains b
    killAll := q.killAll && !c.killAll
    restores := if c.restores then none else q.restores
    tbaseOwed := if c.tbase then q.tbaseOwed - 1 else q.tbaseOwed
    tbaseRound := if c.tbase then some n else q.tbaseRound
    beaconRound := if c.beacon then some n else q.beaconRound
    refuses := q.refuses.drop c.refuses
    ends := q.ends.drop c.ends
    reoffers := q.reoffers.filter fun i => !c.reoffers.contains i && (s.berth i).admission.isSome
    seq := c.seqEnd }
  (s.when c.image (·.imageSent p)).refill p

/-- Port `p` launches frame `k`: the frame that is ready, or the fallback (R340), or nothing where there is neither. The
launch error of the monitor is a physical value: a free one. -/
def launchPort (s : State) (k p : Nat) : State :=
  let q := s.port p
  if !s.portOn p then s.setPort p { q with ready := none, fallback := none, launched := [], last := none }
  else
    match (match q.ready with | some f => some f | none => q.fallback) with
    | none => s.setPort p { q with launched := [] }
    | some f =>
      let s := s.drawGroup p
      let bytes := s.frameBytes p k f
      let n := roundAt (s.rate p) (s.meridianAt k).toNat
      let noMan := bitOf f.flags 5
      let s := (s.count ⟨R.TREE_FRAMES p, 0, 32⟩).set (F.TREE_STAT_LEN p) bytes.length
      let s := s.when noMan fun s => (s.bump ⟨R.TREE_NOMAN p, 0, 32⟩).event (Pg.TREE p) 8
      let s := ((s.set (F.TREE_STAT_READY p) 0).carriedOut p n f.carried).ltAdd 0 f.new.length
      let q := s.port p
      let s := s.setPort p { q with
        ready := none, launched := bytes, last := some f, lastNew := f.new,
        zeroNew := q.zeroNew - 1, zeroRep := false }
      let s := s.setPort p { s.port p with fallback := some (s.buildFallback p (k + 1) f) }
      let (v, s) := s.free
      s.monitorSel 2 p (signed 32 v)

/-- The plan of the frames launched at cycle `k` is recorded: of frames in time the one that stage E made, of fallback
frames one without moves (R340). -/
def recordLaunch (s : State) (inTime : Bool) : State :=
  if inTime then
    match s.mod.moves with
    | some m =>
      let s := { s with mod := { s.mod with
          good := s.mod.plan, plans := ({ m with blk := !s.safe.vb } :: s.mod.plans).take 48, moves := none,
          edgesDue := s.mod.edgesDue ++ s.mod.edges.map fun i => (m.target, i) } }
      let commanded (v : Move) : Nat :=
        if v.width ≠ 0 then 2
        else b2n (s.mod.edges.contains v.berth || (s.mod.pcmdSent && s.mod.pcmd.any fun c => c.1 == v.berth))
      let s := m.moves.foldl (fun t v =>
        let o := t.obs v.berth
        t.setObs v.berth { o with edges := (o.edges + commanded v) % 2 ^ 32 }) s
      match s.mod.pcmdSent, s.mod.pcmd with
      | true, some (i, a) =>
        { s.set F.MOD_PCMD_BUSY 0 with mod := { s.mod with
            pcmd := none, pcmdSent := false, pcmdDue := s.mod.pcmdDue ++ [(m.target, i, a)] } }
      | _, _ => s
    | none => s
  else
    match s.mod.plans with
    | p :: l => { s with mod := { s.mod with
        plans := ({ target := p.target + 1, start := planEnd p, inter := p.inter, m := p.m, blk := !s.safe.vb } :: p :: l).take 48 } }
    | [] => s

/-- The launches of meridian `k`. A miss that no READY_TEST has told is taken at the launch. -/
def launchAll (s : State) (k : Nat) : State :=
  let s := s.portStarts
  let on := s.portsTested
  let inTime := on != [] && on.all fun p => (s.port p).ready.isSome
  let missed := on != [] && !inTime && !s.mod.late && s.runs Pg.MOD && s.time.lastK.isSome
  let s := s.when missed deadlineMiss
  let s := forUpTo (fun p t => t.launchPort k p) 4 s
  let s := s.recordLaunch inTime
  { s with mod := { s.mod with late := false } }

end State

end Sys2Proof.Machine
end

