-- ==== Sys2Proof/Machine/Scheduler.lean ====
section
/-! DEFINITION. The hardware scheduler (19_scheduler.md). Every command that submits, completes, cancels or flushes is one
input of a scheduler step and acts at once; SCHEDULER_STEP finishes the step with the releases and the dispatch. Workers
are numbered 0 supervisor, 1 remote transaction engine, 2 recorder DMA, 3 crypto engine. -/

namespace Sys2Proof.Machine

/-- The access paths, each with its own staging registers (R575). -/
def pathIdx : Path → Nat
  | .debug => 0
  | .supervisor => 1
  | .station => 2
  | .host => 3
  | .remote .. => 4

/-- The worker of a queue, R576. -/
def workerOf (q : Nat) : Nat := if q = 4 then 1 else if q = 6 then 2 else if q = 7 then 3 else 0

namespace State

/-! Slots, handles and queues, R574. -/

/-- Queue `q`, oldest first. -/
def queue (s : State) (q : Nat) : List Item := kvGet [] s.sch.queues q

def setQueue (s : State) (q : Nat) (l : List Item) : State :=
  { s with sch := { s.sch with queues := if l = [] then kvErase s.sch.queues q else kvSet s.sch.queues q l } }

/-- Delay list `d`, by REL. -/
def delayList (s : State) (d : Nat) : List Item := nth s.sch.lists d []

def setList (s : State) (d : Nat) (l : List Item) : State :=
  { s with sch := { s.sch with lists := setAt [] s.sch.lists d l } }

/-- Every item held: queued, on a delay list or in service. -/
def items (s : State) : List Item := s.sch.queues.flatMap (·.2) ++ s.sch.lists.flatten ++ s.sch.svc

/-- Free slots of the pool. -/
def slotsFree (s : State) : Nat := 1024 - s.items.length

/-- The handle of a slot: its generation above its number. -/
def handleOf (s : State) (slot : Nat) : Nat := slot % 1024 + kvGet 0 s.sch.gens slot % 64 * 1024

/-- A slot is freed: its generation rises (R574). -/
def freeSlot (s : State) (slot : Nat) : State :=
  { s with sch := { s.sch with gens := kvSet s.sch.gens slot ((kvGet 0 s.sch.gens slot + 1) % 64) } }

/-- Which free slot an item takes is not stated: a free value chooses among the free ones. -/
def newSlot (s : State) : Nat × State :=
  let used := s.items.map (·.slot)
  let (v, s) := s.free
  match firstIdx 1024 fun i => !used.contains ((v + i) % 1024) with
  | some i => ((v + i) % 1024, s)
  | none => (0, s)

/-- DEPTH in force. -/
def depth (s : State) (q : Nat) : Nat := max 1 (min 1024 (s.get (F.SCHQ_CFG_DEPTH q)))

/-- Is queue `q` at DEPTH? -/
def queueFull (s : State) (q : Nat) : Bool := decide (s.depth q ≤ (s.queue q).length)

/-- An item enters its queue; the event when that fills it (R591). -/
def enqueue (s : State) (it : Item) : State :=
  let s := s.setQueue it.queue (s.queue it.queue ++ [{ it with ready := s.now }])
  s.when (s.queueFull it.queue) (·.event Pg.SCHQ 8)

/-- The pool runs low (R587). -/
def poolCheck (s : State) (before : Nat) : State := s.when (decide (32 ≤ before) && decide (s.slotsFree < 32)) (·.event Pg.SCHG 14)

/-! Time, R582 and R583. -/

/-- NOW: whole microseconds modulo 2^40. -/
def schedNow (s : State) : Nat := s.now / (1000 * unitsPerNs) % 2 ^ 40

/-- Is the time `t` ahead of REL or at it: (t - REL) mod 2^40 below 2^39? -/
def relDue (t rel : Nat) : Bool := decide ((t + 2 ^ 40 - rel) % 2 ^ 40 < 2 ^ 39)

/-- An item joins a delay list, which is kept by REL, later ones of equal REL behind; `ready` is then the tick at which it
joined. -/
def listInsert (s : State) (d : Nat) (it : Item) : State :=
  let key (x : Item) : Nat := match x.timed with
    | some (_, rel, _) => (rel + 2 ^ 40 + 2 ^ 39 - s.schedNow) % 2 ^ 40
    | none => 0
  let it := { it with ready := s.schedNow }
  s.setList d (((s.delayList d).filter fun x => key x ≤ key it) ++ [it] ++ (s.delayList d).filter fun x => key it < key x)

/-- Items that belong to delay list `d`, those in queues and in service that will return included. -/
def listHeld (s : State) (d : Nat) : Nat :=
  (s.items.filter fun it => match it.timed with | some (x, _, per) => x == d && (per != 0 || (s.delayList d).contains it) | none => false).length

/-! Submissions, R575, R583 and R587. -/

/-- The result of a submission for an access path: HANDLE, CODE, VALID. -/
def subResult (s : State) (path handle code : Nat) : State :=
  { s with sch := { s.sch with subres := kvSet s.sch.subres path (BitVec.ofNat 32 (handle + code <<< 16 + 1 <<< 31)) } }

/-- A submission is refused. -/
def subRefuse (s : State) (path code : Nat) : State := (s.subResult path 0 code).event Pg.SCHG 9

/-- SCHG_SUBCMD with GO = 1 from an access path. -/
def submit (s : State) (path : Nat) (cmd : Word) : State :=
  let stage (i : Nat) : Word := kvGet 0 s.sch.subs (4 * path + i)
  let q := getBits cmd 0 5
  let d := getBits cmd 8 2
  let timed := getBits cmd 12 1 = 1
  let rel := (stage 2).toNat + 2 ^ 32 * getBits (stage 3) 0 8
  let per := getBits (stage 3) 8 24
  let t := s.schedNow
  let late := relDue t rel
  if timed ∧ !late ∧ 2 ^ 36 ≤ (rel + 2 ^ 40 - t) % 2 ^ 40 then s.subRefuse path 3
  else if (if timed then decide (256 ≤ s.listHeld d) else s.queueFull q) then s.subRefuse path 1
  else if s.slotsFree = 0 then s.subRefuse path 2
  else
    let before := s.slotsFree
    let (slot, s) := s.newSlot
    let it : Item := { slot := slot, flow := getBits (stage 0) 0 16, type := getBits (stage 0) 16 8, arg := stage 1, queue := q,
                       timed := if timed then some (d, rel, per) else none }
    let s := if timed then s.listInsert d it else s.enqueue it
    let s := s.poolCheck before
    let s := s.when (timed && late) fun s => (s.bump (F.SCHG_DL_LATE d)).event Pg.SCHG 10
    s.subResult path (s.handleOf slot) (if timed ∧ late then 4 else 0)

/-! Hardware arrivals, R576 and R587. -/

/-- Does hardware place items on queue `q` in the role? -/
def hwQueue (s : State) (q : Nat) : Bool :=
  match s.role with
  | .hub => decide (q ≤ 7)
  | .cell => q == 6 || q == 7
  | .referee => q == 7
  | .none | .fault => false

/-- A hardware item is queued if there is room: the answer tells whether. -/
def hwQueued (s : State) (q flow arg : Nat) : Bool × State :=
  if s.queueFull q ∨ s.slotsFree = 0 then (false, s)
  else
    let before := s.slotsFree
    let (slot, s) := s.newSlot
    let s := s.enqueue { slot := slot, flow := flow % 65536, type := 0, arg := BitVec.ofNat 32 arg, queue := q, hw := true }
    (true, s.poolCheck before)

/-- A hardware item arrives: without room, an item of queues 0 to 3 and 5 is dropped and counted; the others are held by
their source. -/
def arrive (s : State) (q flow arg : Nat) : State :=
  if !s.hwQueue q then s
  else if q ≠ 5 ∧ 4 ≤ q ∧ (s.sch.held.any fun h => h.1 == q) then
    { s with sch := { s.sch with held := s.sch.held ++ [(q, flow, arg)] } }
  else
    let (ok, s') := s.hwQueued q flow arg
    if ok then s'
    else if q ≤ 3 ∨ q = 5 then s.bump (F.SCHQ_CNT_DROP q)
    else { s with sch := { s.sch with held := s.sch.held ++ [(q, flow, arg)] } }

/-- Items held by their sources are tried again, oldest first. -/
def retryHeld (s : State) : State :=
  s.sch.held.foldl (fun t h =>
    let (ok, t') := t.hwQueued h.1 h.2.1 h.2.2
    if ok ∧ t.sch.held.find? (·.1 == h.1) = some h then
      { t' with sch := { t'.sch with held := removeFirst (· == h) t'.sch.held } }
    else t) s

/-! Completions, R580 and R584. -/

/-- A completed item leaves service: a periodic one returns to its list, any other frees its slot. -/
def complete (s : State) (it : Item) : State :=
  let s := { s with sch := { s.sch with
    svc := s.sch.svc.filter fun x => x.slot != it.slot, mail := s.sch.mail.filter (· != it.slot) } }
  match it.timed with
  | some (d, rel, per) =>
    if per = 0 ∨ it.gone then s.freeSlot it.slot
    else
      let t := s.schedNow
      let behind := (t + 2 ^ 40 - rel) % 2 ^ 40
      let m := if behind < 2 ^ 39 then behind / per + 1 else 1
      let s := s.when (decide (1 < m)) fun s => (s.bump F.SCHG_CNT_OVERRUN).event Pg.SCHG 11
      s.listInsert d { it with timed := some (d, (rel + m * per) % 2 ^ 40, per), stuck := false }
  | none => s.freeSlot it.slot

/-- The item that a handle names, among `l`: none when the handle is stale. -/
def named (s : State) (h : Nat) (l : List Item) : Option Item := l.find? fun it => s.handleOf it.slot == h % 65536

/-- SCHG_DONE: an item in service at the supervisor completes; any other handle is counted (R580). -/
def schgDone (s : State) (h : Nat) : State :=
  match s.named h (s.sch.svc.filter fun it => workerOf it.queue == 0) with
  | some it => s.complete it
  | none => (s.bump F.SCHG_CNT_BADDONE).event Pg.SCHG 13

/-- A hardware worker's item completes: the first of queue `q` in service that passes `p`, or the first still queued. -/
def hwDone (s : State) (q : Nat) (p : Item → Bool) : State :=
  match s.sch.svc.find? fun it => it.queue == q && it.hw && p it with
  | some it => s.complete it
  | none =>
    match (s.queue q).find? fun it => it.hw && p it with
    | some it => (s.setQueue q (removeFirst (· == it) (s.queue q))).freeSlot it.slot
    | none => { s with sch := { s.sch with held := removeFirst (fun h => h.1 == q && p ⟨0, h.2.1, 0, BitVec.ofNat 32 h.2.2, q, none, true, 0, false, false⟩) s.sch.held } }

/-! Cancels and flushes, R585 and R586. -/

/-- The result of a cancel for an access path. -/
def canResult (s : State) (path code : Nat) : State :=
  { s with sch := { s.sch with canres := kvSet s.sch.canres path (BitVec.ofNat 32 (code + 1 <<< 31)) } }

/-- Items that pass a test leave the queues and the delay lists, their slots freed. -/
def dropItems (s : State) (p : Item → Bool) : State :=
  let out := s.sch.queues.flatMap (fun e => e.2.filter p) ++ s.sch.lists.flatMap (fun l => l.filter p)
  let s := { s with sch := { s.sch with
    queues := (s.sch.queues.map fun e => (e.1, e.2.filter fun x => !p x)).filter fun e => e.2 != []
    lists := s.sch.lists.map fun l => l.filter fun x => !p x } }
  out.foldl (fun t it => t.freeSlot it.slot) s

/-- SCHG_CANCEL (R585). -/
def schgCancel (s : State) (path h : Nat) : State :=
  match s.named h s.items with
  | none => s.canResult path 2
  | some it =>
    if s.sch.svc.any fun x => x.slot == it.slot then
      { s with sch := { s.sch with svc := s.sch.svc.map fun (x : Item) => if x.slot = it.slot then { x with gone := true } else x } }.canResult path 1
    else (s.dropItems fun x => x.slot == it.slot).canResult path 0

/-- SCHQ_qCMD.FLUSH (R586). -/
def schqFlush (s : State) (q : Nat) : State := (s.dropItems fun it => it.queue == q).event Pg.SCHQ 9

/-! Releases, R582 and R587. -/

/-- The due item that is released next: the lowest REL, then the lowest list; an item whose queue has no room makes its
list wait. -/
def nextDue (s : State) (t : Nat) (stuck : List Nat) : Option (Nat × Item) :=
  let heads := (List.range 4).filterMap fun d =>
    if stuck.contains d then none else
      match s.delayList d with
      | it :: _ => (match it.timed with
        | some (_, rel, _) => if relDue t rel ∧ it.ready ≠ t then some (d, it, (rel + 2 ^ 40 + 2 ^ 39 - t) % 2 ^ 40) else none
        | none => none)
      | [] => none
  (heads.foldl (fun m h => match m with
    | some (x : Nat × Item × Nat) => if h.2.2 < x.2.2 then some h else some x
    | none => some h) none).map fun h => (h.1, h.2.1)

/-- Every due item is released into its queue; a release that finds no room waits at the head of its list. -/
def releaseDue (s : State) (t : Nat) : (fuel : Nat) → (stuck : List Nat) → State
  | 0, _ => s
  | k + 1, stuck =>
    match s.nextDue t stuck with
    | none => s
    | some (d, it) =>
      if s.queueFull it.queue then (s.bump (F.SCHG_DL_WAIT d)).releaseDue t k (d :: stuck)
      else ((s.setList d (s.delayList d).tail).enqueue it).releaseDue t k stuck

/-- The ticks that have come (R582): every due item that joined its list before the present tick is released; one that
found no room is tried again. -/
def ticks (s : State) : State := if s.enabled Pg.TIME then s.releaseDue s.schedNow 2048 [] else s

/-! Dispatch, R578 and R579. -/

/-- Is the flow in service? -/
def flowBusy (s : State) (f : Nat) : Bool := s.sch.svc.any fun x => x.flow == f

/-- Can worker `w` take the item: room in the mailbox, in the port's queue for a station's record, or an idle unit? -/
def canTake (s : State) (w : Nat) (it : Item) : Bool :=
  match w with
  | 0 => decide (s.sch.mail.length < 4)
  | 1 => !it.hw || s.mgmtRoom (it.flow / 256 % 4)
  | _ => !it.hw || !(s.sch.svc.any fun x => workerOf x.queue == w)

/-- The eligible queues of worker `w`. -/
def eligible (s : State) (w : Nat) : List Nat :=
  (List.range 32).filter fun q => workerOf q == w && s.is (F.SCHQ_CFG_EN q) && match s.queue q with
    | it :: _ => !s.flowBusy it.flow && s.canTake w it
    | [] => false

/-- AGEN_N in force. -/
def ageN (s : State) : Nat := max 2 (s.get F.SCHG_CTL_AGEN_N)

/-- Every credit of a class is reloaded. -/
def reload (s : State) (c : Nat) : State :=
  forUpTo (fun q t => if t.get (F.SCHQ_CFG_CLASS q) = c then t.set (F.SCHQ_STAT_CREDIT q) (max 1 (t.get (F.SCHQ_CFG_WEIGHT q))) else t) 32 s

/-- The queue with the most credit, the lower number on a tie. -/
def mostCredit (s : State) (l : List Nat) : Option Nat :=
  l.foldl (fun m q => match m with
    | some x => if s.get (F.SCHQ_STAT_CREDIT x) < s.get (F.SCHQ_STAT_CREDIT q) then some q else some x
    | none => some q) none

/-- The queue whose head has waited longest. -/
def longestWait (s : State) (l : List Nat) : Option Nat :=
  let r (q : Nat) : Nat := match s.queue q with | it :: _ => it.ready | [] => 0
  l.foldl (fun m q => match m with
    | some x => if r q < r x then some q else some x
    | none => some q) none

/-- The choice of R578 among the eligible queues of worker `w`. -/
def choose (s : State) (w : Nat) (l : List Nat) : Option Nat × State :=
  let n := nth s.sch.disp w 0 + 1
  if s.is F.SCHG_CTL_AGEN ∧ n % s.ageN = 0 then (s.longestWait l, s)
  else
    let c := l.foldl (fun m q => min m (s.get (F.SCHQ_CFG_CLASS q))) 3
    let top := l.filter fun q => s.get (F.SCHQ_CFG_CLASS q) == c
    let s := if top.all fun q => s.get (F.SCHQ_STAT_CREDIT q) == 0 then s.reload c else s
    (s.mostCredit top, s)

/-- What the remote transaction engine does with an item: a station's record joins its port's queue (R659), a WRP being
never answered (R288); the answer of a mailbox needs nothing more, and a firmware item is rejected (R576). -/
def remoteTake (s : State) (it : Item) : State :=
  let q := it.arg.toNat / 8
  let r := it.arg.toNat % 8
  match it.hw, (kvFind s.stn.reqs q).bind fun x => x.recs[r]? with
  | true, some y =>
    if it.arg.toNat ≥ 2 ^ 31 then s.complete it
    else
      let node := it.flow
      let rtype := y.op % 8
      let body := if rtype = 1 then beBytes 2 y.addr ++ [BitVec.ofNat 8 (y.nw - 1), 0] else wrBody y.addr y.words
      let s := (s.mgmtQueue (node / 256 % 4) { berth := node % 256, rtype := rtype, tid := 0, marks := s.markBits, body := body,
                                               src := .station q r }).2
      s.when (rtype == 4) (·.complete it)
  | _, _ => s.complete it

/-- An item is dispatched from queue `q` to worker `w`. How long it waited is a physical value: a free one (R588). -/
def dispatchFrom (s : State) (w q : Nat) : State :=
  match s.queue q with
  | [] => s
  | it :: rest =>
    let s := s.setQueue q rest
    let s := s.set (F.SCHQ_STAT_CREDIT q) (s.get (F.SCHQ_STAT_CREDIT q) - 1)
    let s := s.count (F.SCHQ_CNT_DISP q)
    let (v, s) := s.free
    let ns := min 65535 v
    let s := (s.set F.SCHG_LAT_LAST ns).set F.SCHG_LAT_WORST (max ns (s.get F.SCHG_LAT_WORST))
    let s := s.monitor 6 fun x => if x = q ∨ x = 32 then some (ns : Int) else none
    let s := { s with sch := { s.sch with svc := s.sch.svc ++ [{ it with ready := s.elapsed }], disp := s.sch.disp.modify w (· + 1) } }
    match w with
    | 0 =>
      let s := s.when (s.sch.mail == []) (·.event Pg.SCHG 8)
      { s with sch := { s.sch with mail := s.sch.mail ++ [it.slot] } }
    | 1 => s.remoteTake it
    | _ => if it.hw then s else s.complete it

/-- Worker `w` takes items while a queue is eligible. -/
def dispatch (s : State) (w : Nat) : (fuel : Nat) → State
  | 0 => s
  | k + 1 =>
    match s.eligible w with
    | [] => s
    | l =>
      match s.choose w l with
      | (some q, s) => (s.dispatchFrom w q).dispatch w k
      | (none, s) => s

/-- A scheduler step after its inputs (R577): held arrivals, the ticks that have come, the dispatch of every worker. -/
def schedulerStep (s : State) : State :=
  let s := s.retryHeld.ticks
  forUpTo (fun w t => t.dispatch w 1024) 4 s

/-! The supervisor's side, R580 and R581. -/

/-- A read of SCHG_TAKE: the oldest mailbox entry, or all ones. -/
def schgTake (s : State) : Word × State :=
  match s.sch.mail with
  | [] => (0xFFFFFFFF, s)
  | slot :: rest =>
    let s := { s with sch := { s.sch with mail := rest } }
    match s.sch.svc.find? fun it => it.slot == slot with
    | none => (0xFFFFFFFF, s)
    | some it =>
      let (d, rel, t) := match it.timed with | some (d, r, _) => (d, r, 1) | none => (0, 0, 0)
      let put (s : State) (i v : Nat) : State := s.setReg (R.SCHG_TW i) (BitVec.ofNat 32 v)
      let s := put (put s 0 (it.flow + it.type <<< 16)) 1 it.arg.toNat
      let s := put (put s 2 (it.queue + d <<< 8 + t <<< 12)) 3 (rel % 2 ^ 32)
      (BitVec.ofNat 32 (s.handleOf slot), s)

/-- STUCK in units of passed time (R590). -/
def stuckTime (s : State) : Nat := max 1 (s.get F.SCHG_CTL_STUCK) * 1000000 * unitsPerNs

/-- The item in slot `slot` has been in service at the supervisor for longer than STUCK: told once (R581). -/
def itemStuck (s : State) (slot : Nat) : State :=
  match s.sch.svc.find? fun it => it.slot == slot && workerOf it.queue == 0 && !it.stuck with
  | none => s
  | some it =>
    let s := s.timerEnds (it.ready + s.stuckTime)
    let s := { s with sch := { s.sch with svc := s.sch.svc.map fun (x : Item) => if x.slot = slot then { x with stuck := true } else x } }
    ((s.event Pg.SCHG 12).bump F.SCHG_CNT_STUCKS).errArrive 0 0x0C 0xFF (s.handleOf slot)

/-- An accepted report reaches its queues: queue `p` under the berth index, queue 5 when it carries event flags (R576). -/
def reportItems (s : State) (i : Nat) (cyc evflags : Nat) : State :=
  let s := s.arrive (i / 256) i (cyc % 2 ^ 32)
  s.when (evflags != 0) (·.arrive 5 i evflags)

end State

open State

/-- Does the scheduler run: not held (R70)? -/
def State.schedOn (s : State) : Bool := s.alive && !s.is (F.PG_STAT_HELD Pg.SCHG)

/-- HW_ARRIVAL: a hardware source of R576 places an item. -/
def execHwArrival (queue flow arg : Nat) (s : State) : Out :=
  act s (s.alive && decide (queue < 8)) fun s => s.arrive queue flow arg

/-- SCHEDULER_STEP. -/
def execSchedulerStep (s : State) : Out := act s s.schedOn schedulerStep

/-- DELAY_RELEASE: the ticks that have come. -/
def execDelayRelease (s : State) : Out := act s s.schedOn ticks

/-- ITEM_STUCK. -/
def execItemStuck (slot : Nat) (s : State) : Out := act s s.schedOn fun s => s.itemStuck slot

end Sys2Proof.Machine
end

