-- ==== Sys2Proof/Machine/Admission.lean ====
section
/-! DEFINITION. The hub's side of admission (10_tree_admission.md): boarding bursts and offers, ranging, keys, completion,
refusal, release, and the management records that carry them. -/

namespace Sys2Proof.Machine

namespace State

/-! Pairing and link versions, R145 and R146. -/

/-- The containers in the hub's flash: of each slot the first, and the one at its SECOND offset (R137, R141). -/
def flashContainers (s : State) : List Nat :=
  if !s.boot.flash then []
  else [0x60000000, 0x60800000].flatMap fun a =>
    let o := s.num (a + 0x28) 4
    if o = 0 then [a] else [a, a + o]

/-- Does a container at address `a` hold image `id` and name the running image, with the hub's role, in its PARTNER list? -/
def namesUs (s : State) (id : DWord) (a : Nat) : Bool :=
  idOfBytes (s.bytes (a + 0x30) 8) == id && (List.range (min 16 (s.num (a + 0x50) 1))).any fun j =>
    idOfBytes (s.bytes (a + 0x60 + 12 * j) 8) == s.boot.imageId && bitOf (s.num (a + 0x68 + 12 * j) 1) 1

/-- Are the running image and image `id` of a part whose role has bit `rb` a listed pairing (R145)? The PARTNER list of
another image is known where the hub's flash holds its container. -/
def listed (s : State) (id : DWord) (rb : Nat) : Bool :=
  s.boot.imageId == id || (s.boot.partners.any fun p => p.id == id && p.roles &&& rb != 0)
    || s.flashContainers.any (s.namesUs id)
    || (id != 0 && (List.range 16).any fun i => idOfWords (s.reg (R.BOOT_ACPT_LO i)) (s.reg (R.BOOT_ACPT_HI i)) == id)

/-- The hub's own LINK_VER. -/
def linkVer (s : State) : Nat := s.get F.BOOT_RUN_LINK

/-- Do the majors agree? -/
def sameMajor (s : State) (ver : Nat) : Bool := ver / 256 == s.linkVer / 256

/-! Strangers, REFUSE and counters. -/

/-- A stranger at port `p` is counted in a field (R320). -/
def stranger (s : State) (f : Fld) : State := (s.bump f).event Pg.BERTH 11

/-- The body of a REFUSE (R317). -/
def refuseBody (id : DWord) (reason : Nat) : List Byte := idBytes id ++ [BitVec.ofNat 8 reason, 0, 0, 0]

/-- A REFUSE is counted. -/
def refused (s : State) (p : Nat) : State := (s.bump (F.BERTH_BRD_REFUSED p)).event Pg.BERTH 13

/-- A REFUSE with a reason is queued and counted (R317). -/
def refuse (s : State) (p : Nat) (id : DWord) (reason : Nat) : State :=
  (s.setPort p { s.port p with refuses := (s.port p).refuses ++ [refuseBody id reason] }).refused p

/-! Report slots, R298 and R314. -/

/-- Is report slot `r` of port `p` in use, or held back by a pending move, by another berth than `b`? -/
def slotTaken (s : State) (p b r : Nat) : Bool :=
  s.portBerths p (fun x => x.rsv && x.rslot == r) |>.any (· != 256 * p + b)

/-- Does R298 allow report slot `r` on port `p`? -/
def slotAllowed (s : State) (p r : Nat) : Bool := decide (r < 256 - s.zoneOf p)

/-- The report slot for berth `b` of port `p`: its own number if it can be had, else the lowest free one (R314). -/
def pickSlot (s : State) (p b : Nat) : Option Nat :=
  let ok (r : Nat) : Bool := s.slotAllowed p r && !s.slotTaken p b r
  if ok b then some b else firstIdx 256 ok

/-- Report slots of port `p` left for further admissions: the allowed ones that no entry holds, less one for each admission
in progress that has none yet (R298). -/
def slotsLeft (s : State) (p : Nat) : Nat :=
  (List.range 256).countP (fun r => s.slotAllowed p r && !s.slotTaken p 256 r)
    - (s.portBerths p fun b => b.admission.isSome && !(b.rsv && s.slotAllowed p b.rslot)).length

/-- An RSLOT entry is queued, at least two rounds ahead; one still being repeated goes on until its round (R278). -/
def moveSlot (s : State) (i r old : Nat) : State :=
  let p := i / 256
  let q := s.port p
  s.setPort p { q with rslots := q.rslots ++ [(i % 256, r, s.roundNow p + 3, old)] }

/-! Management records to a berth. -/

/-- A record of the hub itself to berth index `i`. -/
def toBerth (s : State) (i rtype : Nat) (body : List Byte) : State :=
  s.hubRecord (i / 256) { berth := i % 256, rtype := rtype, tid := 0, marks := s.markBits, body := body }

/-- A remote read by the hub itself of `nw` words. -/
def hubRead (s : State) (i addr nw : Nat) : State := s.toBerth i 1 (beBytes 2 addr ++ [BitVec.ofNat 8 (nw - 1), 0])

/-- The KEY record of berth index `i`: a group key wrapped for it, and K_sw (R185). -/
def sendKey (s : State) (i : Nat) (key : Key) (ksw : Nat) : State :=
  s.toBerth i 0x10 (keyWrap ((s.berth i).wrap.getD 0) key ++ beBytes 6 ksw ++ [0, 0])

/-- The DELAY record of berth index `i`. -/
def sendDelay (s : State) (i : Nat) : State :=
  (s.toBerth i 0x11 (beBytes 4 (s.berth i).ddown ++ beBytes 4 (s.berth i).dup)).leadCheck

/-! Delays, R236 and R310. -/

/-- d_down of R236 in 1/64 ns for a round trip `rttn` less the turnaround, rounded to the nearest. -/
def dDownOf (s : State) (p rttn : Nat) (beta : Int) : Nat :=
  (((rttn * (s.actReg (R.TIME_ALPHA p)).toNat + 2 ^ 31) / 2 ^ 32 : Nat) + beta).toNat % 2 ^ 24

/-- The delays of berth index `i` out of RTTN and BETA. -/
def computeDelays (s : State) (i : Nat) : State :=
  let b := s.berth i
  let d := s.dDownOf (i / 256) b.rttn (signed 16 b.beta)
  s.setBerth i { b with ddown := d, dup := b.rttn - d }

/-! Admissions begin and end. -/

/-- An admission is abandoned: the berth returns to the state it held before the OFFER (R307). -/
def abandon (s : State) (i : Nat) : State :=
  let b := s.berth i
  match b.admission with
  | none => s
  | some a =>
    let s := s.setPort (i / 256) { s.port (i / 256) with
      offers := (s.port (i / 256)).offers.filter (·.1 != i)
      reoffers := (s.port (i / 256)).reoffers.filter (· != i)
      wait := (s.port (i / 256)).wait.filter fun r => r.berth != i % 256
      mq := (s.port (i / 256)).mq.filter fun r => r.berth != i % 256 || r.src != .hub
      opens := (s.port (i / 256)).opens.filter fun r => r.berth != i % 256 || r.src != .hub }
    let s := s.refill (i / 256)
    let w := a.was
    s.setBerth i { b with
      admission := none, link := w.link, assign := w.assign, arm := if w.assign = 0 then w.arm else b.arm
      keyid := w.keyid, imgid := w.imgid, linkver := w.linkver, romb := w.romb, upl := w.upl, rttn := w.rttn
      ddown := w.ddown, dup := w.dup, ph := w.ph, align := w.align, drift := w.drift, session := w.session, wrap := w.wrap }

/-- An abandoned admission that counts as failed. -/
def admissionFailed (s : State) (i : Nat) : State := (s.abandon i).bump (F.BERTH_BRD_FAILED (i / 256))

/-- The boarding zone of port `p`: its first slot and its length ZLEN in code groups (R297). -/
def zoneSlot (s : State) (p : Nat) : Nat := zoneFirst (s.zoneOf p)
def zoneLen (s : State) (p : Nat) : Nat := zoneGroups (s.zoneOf p)

/-- The start of the zone of round `n`, and the aim of a boarding burst. -/
def zoneStart (s : State) (p n : Nat) : Nat := slotAt (s.rate p) n (s.zoneSlot p)
def zoneAim (s : State) (p n : Nat) : Nat := groupAt (s.rate p) n (53 * s.zoneSlot p + (s.zoneLen p - 53) / 2)

/-- D_TX of R230 for tree port `p`, in units of network time. -/
def dTx (s : State) (p : Nat) : Nat := nsUnits (if s.rate p = 2 then 40 else 64)

/-- The latest K_R for round `n` whose T_turn is at least 4 us, and that T_turn in units of network time (R308). -/
def turnFor (s : State) (p n rttc : Nat) : Option (Nat × Nat) :=
  let z : Int := s.zoneStart p n
  let latest : Int := z - s.dTx p - rttc - nsUnits 4000
  let k : Int := (latest - s.epoch) / s.tcyc + s.kbase
  if k < (s.time.lastK.getD 0 : Int) + 2 then none
  else
    let k := k.toNat
    some (k, (z - s.meridianAt k - s.dTx p - rttc).toNat)

/-- The first odd round from `n` on that leaves time for the OFFER. -/
def offerRound (s : State) (p rttc : Nat) : (fuel n : Nat) → Option (Nat × Nat × Nat)
  | 0, _ => none
  | k + 1, n =>
    if n % 2 = 1 then
      match s.turnFor p n rttc with
      | some (kr, t) => some (n, kr, t)
      | none => s.offerRound p rttc k (n + 1)
    else s.offerRound p rttc k (n + 1)

/-- An OFFER of berth index `i`, fresh: K_R, T_turn and n_R are chosen (R308). -/
def sendOffer (s : State) (i : Nat) : State :=
  let p := i / 256
  let b := s.berth i
  match b.admission with
  | none => s
  | some a =>
    match s.offerRound p (a.rttc * unitsPer64) 64 (s.roundNow p + 1) with
    | none => s
    | some (n, kr, t) =>
      let s := s.setBerth i { b with link := .offered, admission := some { a with cycleR := kr, turn := (t + unitsPer64 / 2) / unitsPer64, roundR := n } }
      s.setPort p { s.port p with offers := ((s.port p).offers.filter (·.1 != i)) ++ [(i, kr)] }

/-- Would one more assigned berth exceed the capacity of the profile in use (R10)? -/
def capacityFull (s : State) : Bool := decide (profileCap s.profile < s.assignedCount + 1)

/-- A new cell finds no berth on port `p`: REFUSE 2, counted in CAP_REFUSED where the capacity is exceeded (R10). With
vacancies elsewhere the spec names no reason for a port without a vacant berth: reason 2 is the model's choice (log 108). -/
def refuseNew (s : State) (p : Nat) (id : DWord) : State :=
  (s.when s.capacityFull (·.bump F.SYS_TOPO_CAP_REFUSED)).refuse p id 2

/-- An admission begins on berth index `i`: an OFFER after the checks that precede it (R306). -/
def beginAdmission (s : State) (i : Nat) (id : DWord) (enrol rom : Bool) (rttc imgver : Nat) (img : DWord) (new : Bool) (upl : Nat) : State :=
  let p := i / 256
  if !s.sameMajor imgver then s.refuse p id 1
  else if new && s.capacityFull then s.refuseNew p id
  else if !((s.berth i).rsv && s.slotAllowed p (s.berth i).rslot) && s.slotsLeft p == 0 then s.refuse p id 3
  else
    let provmax := let n := s.get F.BERTH_CFG_PROVMAX; if 1 ≤ n ∧ n ≤ 8 then n else 8
    if provmax ≤ (s.portBerths p fun b => b.admission.isSome).length then s
    else
      let b := s.berth i
      let b := { b with
        admission := some {
          was := { link := b.link, assign := b.assign, arm := b.arm, keyid := b.keyid, imgid := b.imgid
                   linkver := b.linkver, romb := b.romb, upl := b.upl, rttn := b.rttn, ddown := b.ddown, dup := b.dup
                   ph := b.ph, align := b.align, drift := b.drift, session := b.session, wrap := b.wrap }
          enrol := enrol, rom := rom, rttc := rttc }
        assign := if new then 2 else b.assign
        arm := if new then (if bitOf (s.get F.BERTH_PORTARM_ARM) p && s.get F.SYS_TOPO_ARMS == 2 then 1 else 0) else b.arm
        keyid := id, imgid := img, linkver := imgver, romb := rom, upl := upl }
      (s.setBerth i b).sendOffer i

/-- A valid boarding burst (R303, R306): `arrival` is A. The same OFFER is sent again as it stands: while frame K_R is
ahead it is being repeated already. -/
def boardingRx (s : State) (p : Nat) (pl : List Byte) (arrival : Nat) : State :=
  let id := idOfBytes pl
  let img := idOfBytes (pl.drop 8)
  let ver := ofBe ((pl.drop 16).take 2)
  let f := (nth pl 18 0).toNat
  let rom := bitOf f 1
  let upl := b2n (bitOf f 2)
  let n := roundAt (s.rate p) arrival
  let rttc := ((arrival : Int) - s.zoneAim p n + s.get (F.BERTH_RTTNOM_RTT p) * unitsPer64).toNat / unitsPer64
  let known := s.berthsWith fun _ b => b.assign != 0 && b.keyid == id
  if known.any fun i => i / 256 != p then s.stranger (F.BERTH_STR_UNKNOWN p)
  else match known.head? with
  | some i =>
    let b := s.berth i
    if b.admission.isSome then
      match b.admission with
      | some a =>
        if s.cycle < a.cycleR ∨ (s.port p).reoffers.contains i then s
        else s.setPort p { s.port p with reoffers := (s.port p).reoffers ++ [i] }
      | none => s
    else if b.link = .absent ∨ b.link = .silent then
      s.beginAdmission i id (b.assign == 2) rom rttc ver img false upl
    else s.stranger (F.BERTH_STR_DUPID p)
  | none =>
    if s.windowOpen p && s.hubDrives then
      match firstIdx (256 - s.zoneOf p) fun b => (s.berth (256 * p + b)).assign == 0 && (s.berth (256 * p + b)).admission.isNone with
      | some b => s.beginAdmission (256 * p + b) id true rom rttc ver img true upl
      | none => if s.sameMajor ver then s.refuseNew p id else s.refuse p id 1
    else s.stranger (F.BERTH_STR_UNKNOWN p)

/-! Ranging, R309 to R311. -/

/-- A valid ranging burst: RTTN, the delays, the phase word, DELAY. -/
def rangingRx (s : State) (p berth : Nat) (pl : List Byte) (arrival phase align : Nat) : State :=
  let i := 256 * p + berth
  let b := s.berth i
  match b.admission with
  | none => s
  | some a =>
    if b.link ≠ .offered ∨ idOfBytes pl ≠ b.keyid ∨ ofBe ((pl.drop 8).take 4) ≠ a.cycleR % 2 ^ 32
        ∨ roundAt (s.rate p) arrival ≠ a.roundR then s
    else
      let rttn := ((arrival : Int) - s.meridianAt a.cycleR - s.dTx p - a.turn * unitsPer64).toNat / unitsPer64
      let s := s.setBerth i { b with rttn := rttn % 2 ^ 24, ph := phase % 64, align := align % 16, drift := 0,
                                     link := .ranged, ranges := satAdd 8 b.ranges 1 }
      let s := s.setPort p { s.port p with offers := (s.port p).offers.filter (·.1 != i) }
      (s.computeDelays i).sendDelay i

/-- No valid ranging burst in the zone of round n_R: a fresh OFFER, or after RTRY offers the end (R311). -/
def rangingTimeout (s : State) (i : Nat) : State :=
  let b := s.berth i
  match b.admission with
  | none => s
  | some a =>
    if b.link ≠ .offered then s
    else if max 1 (s.get F.BERTH_CFG_RTRY) ≤ a.offers then s.admissionFailed i
    else (s.setBerth i { b with admission := some { a with offers := a.offers + 1 } }).sendOffer i

/-! Keys, R312 to R314 and R186. -/

/-- The node address of berth index `i`. -/
def nodeAddr (s : State) (i : Nat) : Nat := s.hubNo * 1024 + i % 1024

/-- A KXH record goes to berth index `i`; the answer is the private scalar. -/
def sendKxh (s : State) (i : Nat) : Nat × State :=
  let (d, s) := s.drawScalar
  let (str, s) := s.kxOwn d (pubOf d)
  (d, s.toBerth i 0x42 (str ++ idBytes s.twinId ++ beBytes 2 (s.nodeAddr i) ++ [0, 0]))

/-- DELAY of an admission is answered: the KXH follows. -/
def delayAnswered (s : State) (i : Nat) : State :=
  match (s.berth i).admission with
  | some a =>
    if (s.berth i).link = .ranged then
      let (d, s) := s.sendKxh i
      s.setBerth i { s.berth i with link := .keying, admission := some { a with priv := d, chunks := [] } }
    else s
  | none => s

/-- The cell's string of 192 bytes out of its ten chunks, if all have come. -/
def kxAnswer (chunks : Kv (List Byte)) : Option (List Byte) :=
  if (List.range 10).all fun j => (kvFind chunks j).isSome then
    some (((List.range 10).flatMap fun j => kvGet [] chunks j).take 192)
  else none

/-- The session and wrap keys of a sound answer, or none when a check of R314 fails. -/
def kxHubKeys (s : State) (id : DWord) (d : Nat) (str : List Byte) : Option (Key × Key) :=
  let e := pubOf d
  let er := kxEph str
  if kxSound str (e ++ er) && keyId (kxPub str) == id then
    (ecdhX d er).map fun x => (kxKey "PX up" x e er s.devId id, kxKey "PX wrap" x e er s.devId id)
  else none

/-- A record awaited leaves the open list. -/
def closeRecord (s : State) (p : Nat) (r : MgmtRec) : State :=
  s.setPort p { s.port p with opens := removeFirst (fun x => x.tid == r.tid && x.berth == r.berth) (s.port p).opens }

/-- The first cycle whose meridian falls at or after the start of round `n` of port `p` (R185). -/
def cycleOfRound (s : State) (p n : Nat) : Nat :=
  ((s.kbase : Int) - ((s.epoch : Int) - groupAt (s.rate p) n 0) / (s.tcyc : Int)).toNat

/-- A chunk of the cell's answer to KXH. -/
def kxhChunk (s : State) (p : Nat) (r : MgmtRec) (j : Nat) (data : List Byte) : State :=
  let i := 256 * p + r.berth
  let b := s.berth i
  match b.admission, b.rekey with
  | some a, _ =>
    let chunks := kvSet a.chunks j data
    let s := s.setBerth i { b with admission := some { a with chunks := chunks } }
    match kxAnswer chunks with
    | none => s
    | some str =>
      let s := s.closeRecord p r
      match s.kxHubKeys b.keyid a.priv str with
      | none => s.admissionFailed i
      | some (ses, wr) =>
        let s := s.drawGroup p
        (s.setBerth i { s.berth i with session := some ses, wrap := some wr, sessAt := s.roundNow p }).sendKey i
          (s.groupKey p s.cycle) 0
  | none, some (d, old) =>
    let chunks := kvSet old j data
    let s := s.setBerth i { b with rekey := some (d, chunks) }
    match kxAnswer chunks with
    | none => s
    | some str =>
      let s := s.closeRecord p r
      match s.kxHubKeys b.keyid d str with
      | none => s.setBerth i { s.berth i with rekey := none }
      | some (ses, wr) =>
        let ksw := s.cycleOfRound p (s.roundNow p + 10)
        let s := s.setBerth i { s.berth i with
          session := some ses, wrap := some wr, rekey := none
          oldSession := b.session.map fun k => (k, ksw) }
        (s.sendKey i (s.groupKey p s.cycle) ksw).event Pg.SEC 15
  | none, none => s

/-- The KEY of an admission is answered OK: the berth is admitted (R314). A berth for which no report slot is left any more
is not (R298): its admission fails. -/
def admitted (s : State) (i : Nat) : State :=
  let p := i / 256
  let b := s.berth i
  match b.admission, (if b.rsv && s.slotAllowed p b.rslot then some b.rslot else s.pickSlot p (i % 256)) with
  | none, _ => s
  | some _, none => s.admissionFailed i
  | some a, some r =>
    let s := s.setBerth i { b with
      admission := none, link := .admitted, assign := 1, restricted := a.rom || !s.listed b.imgid 1
      rslot := r, rsv := true, admits := satAdd 16 b.admits 1, quiet := 0, silence := 0, ack := false }
    let s := ((s.moveSlot i r 256).obsAdmit i).event Pg.BERTH 9
    (s.hubRead i (R.TREE_CELL_STAT 0) 1).autoDeblock i

/-! Renewals, R185 and R186. -/

/-- The lives of the keys in force: 2^LIFE cycles and 2^SLIFE rounds (R192). -/
def groupLife (s : State) : Nat :=
  let n := s.get F.SEC_KEYCTL_LIFE
  2 ^ (if 20 ≤ n ∧ n ≤ 32 then n else 30)
def sessionLife (s : State) : Nat :=
  let n := s.get F.SEC_KEYCTL_SLIFE
  2 ^ (if 16 ≤ n ∧ n ≤ 28 then n else 24)

/-- Is a renewal of port `p`'s group key due: 2^LIFE cycles since the last one began, or since the key was drawn? -/
def groupDue (s : State) (p : Nat) : Bool :=
  (s.port p).group.isSome && (s.port p).renew.isNone && decide ((s.port p).keyAt + s.groupLife ≤ s.cycle)

/-- A renewal of port `p`'s group key begins when it is due: K_sw is fixed and KEY goes to every admitted berth. -/
def renewGroup (s : State) (p : Nat) : State :=
  if !s.groupDue p then s
  else
    let n := s.roundNow p
    let ksw := s.cycleOfRound p (n + 10)
    let (v, s) := s.free
    let key : Key := BitVec.ofNat 128 v
    let s := s.setPort p { s.port p with renew := some (key, ksw, n), keyAt := s.cycle }
    (s.portBerths p (fun b => b.link == .admitted)).foldl
      (fun t i => (t.setBerth i { t.berth i with ack := false }).sendKey i key ksw) s

/-- Does a KEY to berth index `i` still wait for a frame? -/
def keyWaits (s : State) (i : Nat) : Bool :=
  let q := s.port (i / 256)
  (q.mq ++ q.wait).any fun r => r.berth == i % 256 && r.rtype == 0x10

/-- At a round boundary into round `n`: KEY again to berths that have not acknowledged, up to the eighth round; from K_sw
on the new key is the port's, and REKEY is raised (log 123). -/
def renewRound (s : State) (p n : Nat) : State :=
  match (s.port p).renew with
  | none => s
  | some (key, ksw, n0) =>
    if ksw ≤ s.cycle then
      ((s.setPort p { s.port p with renew := none, group := some key }).count F.SEC_KEYSTAT_REKEYS).event Pg.SEC 15
    else if n < n0 + 8 then
      (s.portBerths p (fun b => b.link == .admitted && !b.ack)).foldl
        (fun t i => if t.keyWaits i then t else t.sendKey i key ksw) s
    else s

/-- A KEY of berth index `i` is answered OK: an acknowledgement of the renewal whose K_sw it gave (R185, R288). -/
def keyAcknowledged (s : State) (i : Nat) (r : MgmtRec) : State :=
  match (s.port (i / 256)).renew with
  | some (_, ksw, _) =>
    if ofBe ((r.body.drop 24).take 6) = ksw then s.setBerth i { s.berth i with ack := true } else s
  | none => s

/-- Is a renewal of berth `i`'s session key due: 2^SLIFE rounds since its exchange began (R186)? -/
def sessionDue (s : State) (i : Nat) : Bool :=
  held (s.berth i) && (s.berth i).rekey.isNone && decide ((s.berth i).sessAt + s.sessionLife ≤ s.roundNow (i / 256))

/-- A renewal of berth `i`'s session key, when it is due: a fresh exchange (R186). -/
def renewSession (s : State) (i : Nat) : State :=
  if s.sessionDue i then
    let (d, s) := s.sendKxh i
    s.setBerth i { s.berth i with rekey := some (d, []), sessAt := s.roundNow (i / 256) }
  else s

/-! Release and the end of a link, R316 and R322. -/

/-- A deblock record is answered (R516). -/
def deblockAnswered (s : State) (i code : Nat) : State :=
  let s := { s with safe := { s.safe with seqOpen := removeFirst (· == i) s.safe.seqOpen } }
  s.when (code != Code.ok) (·.bump F.SAFE_HDBLK_FAILED)

/-- A record that will not be answered by its cell any more: REMOTE to whoever asked for it (R91, R291). -/
def remoteAnswer (s : State) (p : Nat) (r : MgmtRec) : State :=
  let i := 256 * p + r.berth
  match r.src with
  | .hub => s
  | .deblock => s.deblockAnswered i Code.remote
  | .mailbox => (s.answer p r.src Code.remote 0 []).arrive 4 (s.nodeAddr i) (2 ^ 31 + p)
  | .station q n => (s.answer p r.src Code.remote 0 []).hwDone 4 fun it => it.arg.toNat == 8 * q + n

/-- A LASER_KILL for one berth in the next frame. -/
def killBerth (s : State) (i : Nat) : State :=
  s.setPort (i / 256) { s.port (i / 256) with kills := (s.port (i / 256)).kills ++ [i % 256] }

/-- Everything queued for a berth leaves the port; what the mailbox, the station or the sequencer asked for is answered
REMOTE, the berth being admitted no more (R91). -/
def dropRecords (s : State) (i : Nat) : State :=
  let p := i / 256
  let q := s.port p
  let mine (r : MgmtRec) : Bool := r.berth == i % 256 && r.rtype != 4
  let asked := (q.opens ++ q.mq).filter fun r => mine r && r.src != .hub
  let s := s.setPort p { q with
    mq := q.mq.filter fun r => !mine r
    wait := q.wait.filter fun r => !mine r
    opens := q.opens.filter fun r => !mine r
    rslots := q.rslots.filter fun g => g.1 != i % 256
    grants := q.grants.filter fun g => g.1 != i % 256 }
  asked.foldl (fun t r => (t.bump (F.TREE_MQ_TIMEOUT p)).remoteAnswer p r) (s.refill p)

/-- The berth is released: its keys are discarded and it is vacant (R322). -/
def release (s : State) (i : Nat) : State :=
  let s := (s.abandon i).killBerth i
  ((s.dropRecords i).setBerth i {}).obsRelease i

/-- The link ends without a release: REFUSE with reason 1 and LASER_KILL in one frame (R316). -/
def endLink (s : State) (i : Nat) : State :=
  let b := s.berth i
  let p := i / 256
  let s := s.setPort p { s.port p with ends := (s.port p).ends ++ [(i % 256, refuseBody b.keyid 1)] }
  let s := (s.refused p).dropRecords i
  s.setBerth i { b with
    link := .absent, session := none, oldSession := none, wrap := none, rsv := false, rslot := 0, rttn := 0, ddown := 0,
    dup := 0, drift := 0, report := none, waiting := [], rekey := none, admission := none }

/-- The identifier and version of a berth's image are known anew: R145 and R146 are applied again (R316). -/
def recheckImage (s : State) (i : Nat) : State :=
  let b := s.berth i
  if !s.sameMajor b.linkver then s.endLink i
  else (s.setBerth i { b with romb := false, restricted := !s.listed b.imgid 1, recheck := 0 }).autoDeblock i

/-- The boot of a berth's cell has ended: the hub reads its image (R316). -/
def bootEnded (s : State) (i : Nat) : State :=
  if (s.berth i).recheck ≠ 0 then s
  else ((s.setBerth i { s.berth i with recheck := 3 }).hubRead i R.BOOT_ID_LO 2).hubRead i R.BOOT_RUN 1

/-! Responses, R288 to R290. -/

/-- Watch numbers, R261: is `a` newer than `b`? -/
def newer (a b : Nat) : Bool := let d := (a + 65536 - b % 65536) % 65536; decide (1 ≤ d) && decide (d < 32768)

/-- The words of a hub's own read. -/
def hubWords (s : State) (i addr : Nat) (data : List Byte) (learn : State → Nat → State) : State :=
  let w (j : Nat) : Nat := ofBe ((data.drop (4 * j)).take 4)
  let b := s.berth i
  if addr = R.TREE_CELL_STAT 0 then learn s (w 0 / 65536)
  else
    let s :=
      if addr = R.BOOT_ID_LO then
        s.setBerth i { b with imgid := idOfWords (BitVec.ofNat 32 (w 0)) (BitVec.ofNat 32 (w 1)), recheck := b.recheck - 2 }
      else if addr = R.BOOT_RUN then s.setBerth i { b with linkver := w 0 / 65536, recheck := b.recheck - 1 }
      else s
    if (s.berth i).recheck = 0 ∧ b.recheck ≠ 0 then s.recheckImage i else s

/-- A response to record `r` of port `p` is taken. -/
def recordAnswered (s : State) (p : Nat) (r : MgmtRec) (code index : Nat) (data : List Byte) (learn : State → Nat → State) : State :=
  let i := 256 * p + r.berth
  if r.rtype = 0x42 then (if code = Code.ok then s.kxhChunk p r index data else s)
  else
    let s := s.closeRecord p r
    match r.src with
    | .deblock => s.deblockAnswered i code
    | .hub =>
      if r.rtype = 0x10 then
        (if (s.berth i).admission.isSome then (if code = Code.ok then s.admitted i else s.admissionFailed i)
        else if code = Code.ok then s.keyAcknowledged i r else s)
      else if r.rtype = 0x11 then s.delayAnswered i
      else if r.rtype = 1 ∧ code = Code.ok then s.hubWords i (ofBe (r.body.take 2)) data learn
      else s
    | .mailbox =>
      let s := s.answer p r.src code index (if r.rtype = 1 then data.take (4 * ((nth r.body 2 0).toNat + 1)) else [])
      s.arrive 4 (s.nodeAddr i) (2 ^ 31 + p)
    | .station q n =>
      let s := s.answer p r.src code index (if r.rtype = 1 then data.take (4 * ((nth r.body 2 0).toNat + 1)) else [])
      s.hwDone 4 fun it => it.arg.toNat == 8 * q + n

/-- A management response arrives from a berth (R290). -/
def mgmtBurst (s : State) (p berth : Nat) (pl : List Byte) (learn : State → Nat → State) : State :=
  let b (j : Nat) : Nat := (nth pl j 0).toNat
  match (s.port p).opens.find? fun r => r.tid == b 1 && r.berth == berth && r.rtype + 0x80 == b 0 with
  | none =>
    let i := 256 * p + berth
    let s := (s.bump (F.TREE_RXERR2_FORMAT p)).event (Pg.TREE p) 9
    s.setBerth i { s.berth i with format := satAdd 16 (s.berth i).format 1 }
  | some r => s.recordAnswered p r (b 2) (b 3) ((pl.drop 4).take 20) learn

/-- No response within four rounds after the launch of the record's frame: REMOTE (R91). What the hub does with an admission whose KXH or KEY is not answered, or
whose KEY is not answered OK, is not stated: it ends as failed. -/
def remoteTimeout (s : State) (p tid : Nat) : State :=
  match (s.port p).opens.find? fun r => r.tid == tid with
  | none => s
  | some r =>
    let i := 256 * p + r.berth
    let s := s.reach (r.sentAt + groupAt (s.rate p) 4 0)
    let s := ((s.closeRecord p r).bump (F.TREE_MQ_TIMEOUT p)).event (Pg.TREE p) 10
    if r.src ≠ .hub then s.remoteAnswer p r
    else if (s.berth i).admission.isSome then s.admissionFailed i
    else if r.rtype = 0x42 then s.setBerth i { s.berth i with rekey := none }
    else s

/-! The mailbox, R291. -/

/-- TREE_RA_CMD with GO = 1. An OP that R294 does not list is ignored, a GO while BUSY = 1 whatever its OP is an error. A
berth that is not admitted is answered REMOTE at once, which TIMEOUT counts (R91, R294). -/
def mailboxGo (s : State) (p : Nat) : State :=
  let op := s.get (F.TREE_RA_CMD_OP p)
  let nw := s.get (F.TREE_RA_CMD_NW p) + 1
  let berth := s.get (F.TREE_RA_CMD_BERTH p)
  let addr := s.get (F.TREE_RA_CMD_ADDR p)
  let bad := !(op = 1 ∧ nw ≤ 5) && !(op = 2 ∧ nw ≤ 16) && !(op = 3 ∧ nw = 1) && !(op = 4 ∧ nw ≤ 16)
  if (s.port p).mailbox then s.accessErr (Pg.TREE p)
  else if op = 0 ∨ 4 < op then s
  else if bad ∨ !s.mgmtRoom p then s.accessErr (Pg.TREE p)
  else
    let words := (List.range nw).map fun i => s.reg (R.TREE_RA_DATA p i)
    let body := if op = 1 then beBytes 2 addr ++ [BitVec.ofNat 8 (nw - 1), 0]
      else if op = 3 then wrBody addr [s.reg (R.TREE_RA_MASK p), s.reg (R.TREE_RA_DATA p 0)]
      else wrBody addr words
    if op ≠ 4 ∧ !held (s.berth (256 * p + berth)) then
      ((s.set (F.TREE_RA_STAT_CODE p) Code.remote).set (F.TREE_RA_STAT_INDEX p) 0).bump (F.TREE_MQ_TIMEOUT p)
    else
      let (tid, s) := s.mgmtQueue p { berth := berth, rtype := op, tid := 0, marks := s.markBits, body := body, src := .mailbox }
      let s := s.setPort p { s.port p with mailbox := true }
      (s.set (F.TREE_RA_STAT_BUSY p) 1).set (F.TREE_RA_STAT_TID p) tid

/-! Windows, R296 and R691. -/

/-- SEC in force. -/
def windowSec (s : State) : Nat := max 1 (min 3600 (s.get F.BERTH_BWIN_SEC))

/-- OPEN of port `p`, with WIN_OPEN or WIN_CLOSE. -/
def setWindow (s : State) (p : Nat) (on : Bool) : State :=
  let was := s.windowOpen p
  let s := s.set ⟨R.BERTH_BOARD, p, 1⟩ (b2n on)
  let s := s.setPort p { s.port p with winEnd := s.elapsed + s.windowSec * unitsPerSec }
  if on ∧ !was then s.event Pg.BERTH 18 else if !on ∧ was then s.event Pg.BERTH 19 else s

/-- The BERTH page goes off: every admission and search ends (R691). -/
def berthDisabled (s : State) : State :=
  let s := (s.berthsWith fun _ b => b.admission.isSome).foldl abandon s
  forUpTo (fun p t => (t.setPort p { t.port p with search := none }).set (F.BERTH_SRCH_RUN p) 0) 4 s

/-! The berth table's commands, R328 to R330. -/

/-- Code of a link state. -/
def linkCode : Link → Nat
  | .absent => 0
  | .offered => 1
  | .ranged => 2
  | .keying => 3
  | .admitted => 4
  | .silent => 5
  | .killed => 6
  | .babbler => 7

/-- Word `w` of an entry. -/
def berthWord (b : BerthSt) (w : Nat) : Nat :=
  match w with
  | 0 => b.assign + b.arm <<< 2 + linkCode b.link <<< 4 + b2n b.restricted <<< 8 + b2n b.romb <<< 9 + b2n b.srchk <<< 10
      + b.rslot <<< 16 + b2n b.rsv <<< 24
  | 1 => (idLo b.keyid).toNat
  | 2 => (idHi b.keyid).toNat
  | 3 => b.rttn
  | 4 => b.beta
  | 5 => b.ddown
  | 6 => b.dup
  | 7 => b.ph + b.align <<< 8 + unsigned 16 b.drift <<< 16
  | 8 => b.code + b.crc <<< 16
  | 9 => b.tag + b.format <<< 16
  | 10 => b.miss + b.ok <<< 16
  | 11 => min 255 b.quiet + b.admits <<< 16
  | 12 => (idLo b.imgid).toNat
  | 13 => (idHi b.imgid).toNat
  | 14 => b.linkver + b.ranges <<< 16 + b.reranges <<< 24
  | _ => 0

/-- RD: the entry goes to the window. -/
def berthRd (s : State) : State :=
  let b := s.berth (s.get F.BERTH_SEL_INDEX)
  forUpTo (fun w t => t.setReg (R.BERTH_E w) (BitVec.ofNat 32 (berthWord b w))) 16 s

/-- CLRCNT: the counters of the entry are cleared; QUIET, which measures a time, is none of them. -/
def berthClr (s : State) : State :=
  let i := s.get F.BERTH_SEL_INDEX
  s.setBerth i { s.berth i with
    code := 0, crc := 0, tag := 0, format := 0, miss := 0, ok := 0, admits := 0, ranges := 0, reranges := 0 }

/-- Would a WR change a guarded field of the entry? -/
def berthGuarded (s : State) : Bool :=
  let b := s.berth (s.get F.BERTH_SEL_INDEX)
  let e0 := s.reg (R.BERTH_E 0)
  let id := idOfWords (s.reg (R.BERTH_E 1)) (s.reg (R.BERTH_E 2))
  (getBits e0 0 2 != b.assign && getBits e0 0 2 != 3) || getBits e0 2 1 != b.arm || id != b.keyid

/-- WR, its guarded fields only with `guard`. -/
def berthWr (s : State) (guard : Bool) : State :=
  let i := s.get F.BERTH_SEL_INDEX
  let p := i / 256
  let e0 := s.reg (R.BERTH_E 0)
  let id := idOfWords (s.reg (R.BERTH_E 1)) (s.reg (R.BERTH_E 2))
  let rslot := getBits e0 16 8
  let rsv := getBits e0 24 1 = 1
  let asg := if getBits e0 0 2 = 3 then (s.berth i).assign else getBits e0 0 2
  let s := s.setBerth i { s.berth i with beta := getBits (s.reg (R.BERTH_E 4)) 0 16 }
  let b := s.berth i
  let s :=
    if rslot = b.rslot ∧ rsv = b.rsv then s
    else if rsv ∧ !s.slotAllowed p rslot then s.accessErr Pg.BERTH
    else
      let s := s.setBerth i { b with rslot := rslot, rsv := rsv }
      if rsv ∧ held b then s.moveSlot i rslot (if b.rsv then b.rslot else 256) else s
  if !guard then s
  else
    let b := s.berth i
    let excess := b.assign = 0 ∧ asg ≠ 0 ∧ b.admission.isNone ∧ s.assignedCount + 1 > profileCap s.profile
    if (id ≠ b.keyid ∧ b.link ≠ .absent) ∨ excess then s.accessErr Pg.BERTH
    else
      let arm1 := getBits e0 2 1 = 1
      let s := s.when (arm1 && s.get F.SYS_TOPO_ARMS != 2) (·.event Pg.BERTH 8)
      let arm := if arm1 ∧ s.get F.SYS_TOPO_ARMS ≠ 2 then b.arm else getBits e0 2 1
      if asg = 0 ∧ (b.assign ≠ 0 ∨ b.admission.isSome) then
        let s := s.release i
        s.setBerth i { s.berth i with keyid := id, arm := arm, rslot := b.rslot, rsv := b.rsv, beta := b.beta }
      else s.setBerth i { b with assign := asg, arm := arm, keyid := id }

end State

end Sys2Proof.Machine
end

