-- ==== Sys2Proof/Machine/Gpio.lean ====
section
/-! DEFINITION. The general terminals, the status LED and the debug UART of a cell (R49 to R54). -/

namespace Sys2Proof.Machine

namespace State

/-- FN of terminal `n`. -/
def gpioFn (s : State) (n : Nat) : Nat := s.get (F.GPIO_FN_FN n)

/-- May terminal `n` take function `fn` (R50)? -/
def gpioAllowed (s : State) (n fn : Nat) : Bool :=
  if fn = 0 then true
  else if s.isCell then
    (fn == 1 && (n == 2 || decide (4 ≤ n))) || (fn == 2 && decide (2 ≤ n))
  else if s.isHub then (fn == 1 || fn == 2) && (n == 4 || n == 5)
  else false

/-- Does the UART run (R53)? -/
def uartOn (s : State) : Bool :=
  s.alive && s.isCell && s.runs Pg.GPIO && s.is F.GPIO_UCFG_EN && s.gpioFn 4 == 0 && s.gpioFn 5 == 0

/-- A UART that no longer runs leaves the byte on the line (DEDUCED, log 82). -/
def uartStops (s : State) : State := if s.uartOn then s else { s with uart := { s.uart with sending := none } }

/-- A write of GPIO_FNn. -/
def gpioFnSet (s : State) (n fn : Nat) : State :=
  if s.gpioAllowed n fn then (s.set (F.GPIO_FN_FN n) fn).uartStops else s.accessErr Pg.GPIO

/-- Is the present function of terminal `n` an input (R29, R51)? -/
def gpioInput (s : State) (n : Nat) : Bool :=
  s.gpioFn n == 2 || (s.gpioFn n == 0 &&
    (if s.isCell then n == 3 || decide (5 ≤ n) else if s.isHub then n == 7 else n % 2 == 1))

/-- Does the status LED toggle (R52)? A cell is admitted while SYS_NODE.NOADM = 0 (R27). -/
def ledToggles (s : State) : Bool :=
  let m := s.get F.GPIO_LED_MODE
  m == 2 || (m == 3 && !s.safe.db
    && (s.gate.latch != 0 || s.gate.pbyp || !s.is F.SYS_NODE_NOADM))

/-- Level of the status LED. -/
def ledLevel (s : State) : Bool :=
  if s.ledToggles then s.pins.gpioLed
  else s.get F.GPIO_LED_MODE == 1 || (s.get F.GPIO_LED_MODE == 3 && s.safe.db)

/-- Is the pulse from `x.1` to `x.2` high now? -/
def inPulse (s : State) (x : Nat × Nat) : Bool := decide (x.1 ≤ s.now) && decide (s.now < x.2)

/-- Level at terminal `n` (R51): TXEN of the uplinks of a cell (R276), BRST of the tree ports of a hub (R214), PPS and the
cycle mark, between the pulses that a command gives whole. -/
def gpioLevel (s : State) (n : Nat) : Bool :=
  if s.gpioFn n = 1 then bitOf (s.get F.GPIO_OUT_OUT) n
  else if s.gpioInput n then bitOf s.pins.gpioIn.toNat n
  else if s.isCell then (n == 2 && s.ledLevel) || n == 4 || (decide (n < 2) && s.inPulse (s.uplink n).txen)
  else if s.isHub then (n == 4 && s.time.pps) || (n == 5 && s.time.mark) || (decide (n < 4) && s.inPulse (s.lane n).pulse)
  else false

/-- GPIO_IN. -/
def gpioIn (s : State) : Nat := (List.range 8).foldl (fun a n => a + b2n (s.gpioLevel n) <<< n) 0

/-- The next byte of the transmit queue goes to the line. -/
def uartNext (s : State) : State :=
  match s.uart.tx with
  | [] => { s with uart := { s.uart with sending := none } }
  | b :: l => { s with uart := { s.uart with sending := some b, tx := l } }

/-- A write of GPIO_UTX. -/
def uartPut (s : State) (b : Byte) : State :=
  if 16 ≤ s.uart.tx.length then s.accessErr Pg.GPIO
  else
    let s := { s with uart := { s.uart with tx := s.uart.tx ++ [b] } }
    if s.uartOn ∧ s.uart.sending = none then s.uartNext else s

/-- A read of GPIO_URX. -/
def uartGet (s : State) : Word × State :=
  match s.uart.rx with
  | [] => (0, s)
  | b :: l => (BitVec.ofNat 32 (b.toNat + 256), { s with uart := { s.uart with rx := l } })

end State

open State

/-- GPIO_EDGE (R51): the level at a terminal changes; outside reset an input records the edge. -/
def execGpioEdge (n : Nat) (level : Bool) (s : State) : Out :=
  act s (decide (n < 8)) fun s =>
    let old := bitOf s.pins.gpioIn.toNat n
    let v := if level then s.pins.gpioIn.toNat ||| 1 <<< n else s.pins.gpioIn.toNat &&& (255 - 1 <<< n)
    let s := { s with pins := { s.pins with gpioIn := BitVec.ofNat 8 v } }
    if s.alive && s.runs Pg.GPIO && s.gpioInput n && old != level then
      let b := if level then n else n + 8
      let s := (s.set ⟨R.GPIO_EDGE, b, 1⟩ 1).event Pg.GPIO 8
      if level then { s with recd := { s.recd with rise := s.recd.rise ||| 1 <<< n } }
      else { s with recd := { s.recd with fall := s.recd.fall ||| 1 <<< n } }
    else s

/-- UART_BYTE_SENT (R53). -/
def execUartByteSent (s : State) : Out := act s s.uartOn uartNext

/-- UART_BYTE_RX (R53). -/
def execUartByteRx (byte : Byte) (framingOk : Bool) (s : State) : Out :=
  act s s.uartOn fun s =>
    let s := s.when (!framingOk) (·.bump F.GPIO_USTAT_FRAME)
    if 16 ≤ s.uart.rx.length then (s.bump F.GPIO_USTAT_OVF).event Pg.GPIO 10
    else
      let s := s.when (s.uart.rx == []) (·.event Pg.GPIO 9)
      { s with uart := { s.uart with rx := s.uart.rx ++ [byte] } }

/-- LED_TOGGLE (R52). -/
def execLedToggle (s : State) : Out :=
  act s (s.alive && s.isCell && s.runs Pg.GPIO && s.gpioFn 2 == 0 && s.ledToggles) fun s =>
    { s with pins := { s.pins with gpioLed := !s.pins.gpioLed } }

end Sys2Proof.Machine
end

