-- ==== Sys2Proof/Machine/Views.lean ====
section
/-! DEFINITION. What every register reads (R63 to R71): the stored word, the active values under RDACT, and the registers
that show typed state. A read that changes something does so in Access.lean. -/

namespace Sys2Proof.Machine

/-- A word with one field replaced. -/
def put (f : Fld) (n : Nat) (w : Word) : Word := setBits w f.lo f.w n

/-- The registers of a page in the register map; the offsets of MONB from 0x300 up are reserved (R648). -/
def regAt (pg off : Nat) : Option RegDesc := if pg = 0x2A ∧ 0x300 ≤ off then none else findReg pg off

/-- The bits of a register that hold a field satisfying `p`. -/
def maskOf (d : RegDesc) (p : FieldDesc → Bool) : Nat :=
  (d.fields.filter p).foldl (fun m f => m ||| (2 ^ f.w - 1) <<< f.lo) 0

/-- Is an offset of a TREE page a cell-wide register (R293)? -/
def cellWide (off : Nat) : Bool :=
  (decide (0x100 ≤ off) && decide (off < 0x110)) || (decide (0x124 ≤ off) && decide (off < 0x138))
    || (decide (0x140 ≤ off) && decide (off < 0x150))

/-- Does a page honour MIRROR: the TREE, BERTH, CTL, CHAIN, SCHD, RCU, ANG, SUP, MOD and RANK pages of a hub (R66)? -/
def mirrorable (r : Role) (pg : Nat) : Bool :=
  r == .hub && ((decide (0x18 ≤ pg) && decide (pg ≤ 0x1C)) || (decide (0x20 ≤ pg) && decide (pg ≤ 0x27)))

namespace State

/-! The page header, R66. -/

/-- Has the page a field of the role that satisfies `p`? -/
def pageHas (s : State) (pg : Nat) (p : FieldDesc → Bool) : Bool :=
  (pageRegs pg).any fun d => holdsRoles s.role d.roles && d.fields.any p

/-- PG_STAT.GATED: a page that is not infrastructure, while its gate is closed; the stored RUN bit is the open gate (R78,
R119). -/
def gated (s : State) (pg : Nat) : Bool := !infra pg && !s.is (F.PG_STAT_RUN pg)

/-- Is a presence window open? -/
def guardOpen (s : State) : Bool := s.sec.presOpen

/-- PG_STAT.BUSY: work of the page that a BUSY bit of its own shows is in progress, or a babbler search, a frequency response
or a handover (DEDUCED, log 99). -/
def pageBusy (s : State) (pg : Nat) : Bool :=
  if pg = Pg.SEC then s.sec.attBusy || s.sec.recJob.isSome
  else if pg = Pg.OTP then s.sec.otpJob.isSome
  else if 0x10 ≤ pg ∧ pg ≤ 0x17 then
    s.is (F.LANE_PWR_BUSY (pg - 0x10)) || s.is (F.LANE_ES_STAT_BUSY (pg - 0x10))
  else if 0x18 ≤ pg ∧ pg ≤ 0x1B then s.isHub && s.is (F.TREE_RA_STAT_BUSY (pg - 0x18))
  else if pg = Pg.BERTH then s.ports.any fun q => q.search.isSome
  else if pg = Pg.CTL then s.is (F.CTL_PGM_STAT_BUSY 0) || s.is (F.CTL_PGM_STAT_BUSY 1) || s.eng.ho.isSome
  else if pg = Pg.SUP then s.comp.fr.isSome
  else if pg = Pg.MOD then s.isHub && s.is F.MOD_PCMD_BUSY
  else false

/-- A header word. -/
def headerWord (s : State) (pg off : Nat) : Word :=
  let w := s.reg (pg * 0x400 + off)
  if off = 0 then
    let (c, i) := pageCode pg
    BitVec.ofNat 32 (c + 1 <<< 16 + i <<< 24)
  else if off = 4 then
    BitVec.ofNat 32 (b2n (s.pageHas pg fun f => f.kind == .sh) + b2n (s.pageHas pg fun f => f.kind == .st) <<< 1
      + b2n (s.pageHas pg fun f => f.gd) <<< 2 + b2n (mirrorable s.role pg) <<< 3)
  else if off = 0xC then
    put (F.PG_STAT_RUN pg) (b2n (s.alive && s.runs pg)) (put (F.PG_STAT_BUSY pg) (b2n (s.pageBusy pg))
      (put (F.PG_STAT_GATED pg) (b2n (s.gated pg)) w))
  else if off = 0x18 then 0
  else if off = 0x20 then put (F.PG_GUARD_OPEN pg) (b2n s.guardOpen) w
  else w

/-! Registers that show typed state. -/

/-- The causes of SYS_ALARM, R159: BOOT from reset to the jump to ENTRY, ROLEF in the state of R4, RECOVERY, FWREQ. -/
def alarmCauses (s : State) : Nat :=
  b2n (s.phase != .running) <<< 8 + b2n (s.phase == .roleFault) <<< 9 + b2n (s.phase == .recovery) <<< 10
    + s.get F.CPU_ALARM_REQ <<< 11

/-- SYS, CLK, PWR: SYS_GRADE from the fuses (R3), SYS_ALARM (R159), CLK_XDLY from the board word (R118), PWR_LANES and
PWR_WSTAT (R135, R136). -/
def viewSys (s : State) (a : Nat) (w : Word) : Word :=
  if a = R.SYS_GRADE then (if s.grade = .c then 5 else 7)
  else if a = R.SYS_ALARM then
    BitVec.ofNat 32 (s.alarmCauses + b2n (s.alarmCauses != 0))
  else if a = R.CLK_XDLY then
    let b := s.num (otpBase + 0x420) 4
    if bitOf b 31 then BitVec.ofNat 32 (min 250 (b % 256)) else BitVec.ofNat 32 (125 + 256)
  else if a = R.PWR_LANES then
    BitVec.ofNat 32 ((List.range 8).foldl (fun x n => x + b2n (s.moored n) <<< (16 + n)) 0 + (List.range 8).foldl (fun x n => x + s.get (F.LANE_PWR_CUR n) <<< (2 * n)) 0)
  else if a = R.PWR_WSTAT then
    put F.PWR_WSTAT_LIVE (getBits w 0 3 &&& s.railsTested) w
  else w

/-- SEC, OTP, BOOT: presence, seal, identity, owner (R163 to R173) and the anti-rollback counter (R148). -/
def viewSec (s : State) (a : Nat) (w : Word) : Word :=
  if a = R.SEC_PRES then
    if s.sec.presOpen then put F.SEC_PRES_OPEN 1 (put F.SEC_PRES_LEFT (s.timerLeft s.sec.presEnd unitsPerSec) w) else w
  else if a = R.SEC_SEAL then
    put F.SEC_SEAL_OPEN (b2n (s.sec.sealOpen == some true)) (put F.SEC_SEAL_COUNT (popCount 128 (s.num (otpBase + 0x410) 16)) w)
  else if a = R.SEC_ID then put F.SEC_ID_REC (b2n (s.idRecord == some 0x180)) w
  else if a = R.SEC_IDKEY_LO then idLo s.devId
  else if a = R.SEC_IDKEY_HI then idHi s.devId
  else if R.SEC_IDPUB 0 ≤ a ∧ a ≤ R.SEC_IDPUB 15 then
    BitVec.ofNat 32 (ofLe ((s.idPub.drop (a - R.SEC_IDPUB 0)).take 4))
  else if a = R.SEC_OWN then
    let st := match s.activeSlot with
      | some _ => 0
      | none => if s.unusedSlot.isSome then 1 else 2
    let rev := (List.range 8).foldl (fun x i => x + b2n (s.ownerRevoked i) <<< i) 0
    BitVec.ofNat 32 (s.activeSlot.getD 0 + st <<< 4 + rev <<< 8)
  else if a = R.BOOT_ARB then BitVec.ofNat 32 s.antiRollback
  else w

/-- Event lines with a request: an enabled event of the page (R67, R153). -/
def linesPending (s : State) : List Nat :=
  (List.range 48).filter fun n => present s.role n && s.reg (R.PG_EVT n) &&& s.reg (R.PG_EVT_EN n) != 0

/-- CPU, ERR, MEM: pending lines, the error log, masks of requesters (R153, R610, R618). -/
def viewCpu (s : State) (a : Nat) (w : Word) : Word :=
  if a = R.CPU_EIP 0 ∨ a = R.CPU_EIP 1 then
    let k := (a - R.CPU_EIP 0) / 4
    BitVec.ofNat 32 (s.linesPending.foldl (fun x n => if n / 32 = k then x + 1 <<< (n % 32) else x) 0)
  else if a = R.CPU_WDT_STAT then put F.CPU_WDT_STAT_LEFT (min 65535 (s.timerLeft s.sup.wdtEnd unitsPerMs)) w
  else if a = R.ERR_STAT then
    let pend := s.err.pend.foldl (fun x c => x ||| 1 <<< c) 0
    put ⟨a, 0, 6⟩ s.err.log.length (put ⟨a, 8, 3⟩ s.handled (put ⟨a, 12, 4⟩ pend w))
  else if R.ERR_E 0 ≤ a ∧ a ≤ R.ERR_E 3 then
    match s.err.log.head? with
    | some e =>
      if a = R.ERR_E 0 then BitVec.ofNat 32 (e.cls + e.src <<< 8 + e.req <<< 16 + e.repeats <<< 24)
      else if a = R.ERR_E 1 then e.addr
      else if a = R.ERR_E 2 then BitVec.ofNat 32 e.ns
      else BitVec.ofNat 32 e.sec
    | none => 0
  else if a = R.ERR_INJ then put ⟨a, 8, 1⟩ (b2n (getBits w 0 2 != 0)) w
  else
    match (List.range 13).find? fun r => R.MEM_RSTAT r == a with
    | some r => put (F.MEM_RSTAT_MASK r) (b2n (s.arbMasked r)) w
    | none => w

/-- Is the head of queue `q` held back by its flow (R579)? -/
def headWaits (s : State) (q : Nat) : Bool :=
  match (s.queue q).head? with
  | some it => s.flowBusy it.flow
  | none => false

/-- SCHG and SCHQ (R590, R592); the staging and result registers are those of the access path. -/
def viewSched (s : State) (path a : Nat) (w : Word) : Word :=
  if a = R.SCHG_STAT then BitVec.ofNat 32 (s.slotsFree + s.sch.svc.length <<< 16)
  else if a = R.SCHG_SUB0 then kvGet 0 s.sch.subs (4 * path)
  else if a = R.SCHG_SUB1 then kvGet 0 s.sch.subs (4 * path + 1)
  else if a = R.SCHG_SUB2 then kvGet 0 s.sch.subs (4 * path + 2)
  else if a = R.SCHG_SUB3 then kvGet 0 s.sch.subs (4 * path + 3)
  else if a = R.SCHG_SUBRES then kvGet 0 s.sch.subres path
  else if a = R.SCHG_CANRES then kvGet 0 s.sch.canres path
  else if a = R.SCHG_NOW_LO then BitVec.ofNat 32 s.schedNow
  else if a = R.SCHG_NOW_HI then BitVec.ofNat 32 (s.schedNow / 2 ^ 32)
  else if R.SCHG_DL 0 ≤ a ∧ a ≤ R.SCHG_DL 3 then
    let d := (a - R.SCHG_DL 0) / 4
    put (F.SCHG_DL_LEVEL d) (s.delayList d).length w
  else if R.SCHQ_CFG 0 ≤ a ∧ a < R.SCHQ_FULL ∧ a % 16 = 4 then
    let q := (a - R.SCHQ_STAT 0) / 16
    put (F.SCHQ_STAT_LEVEL q) (s.queue q).length (put (F.SCHQ_STAT_HEADWAIT q) (b2n (s.headWaits q)) w)
  else if a = R.SCHQ_FULL then BitVec.ofNat 32 ((List.range 32).foldl (fun x q => x + b2n (s.queueFull q) <<< q) 0)
  else w

/-- TIME (R243): the source in use; a cell's delay is that of the uplink that RCSEL names. -/
def viewTime (s : State) (a : Nat) (w : Word) : Word :=
  if a = R.TIME_CTL then (if s.isCell then put F.TIME_CTL_SRC 3 w else w)
  else if a = R.TIME_STAT then put F.TIME_STAT_SRCUSED (if s.isCell then 3 else s.time.src) w
  else if a = R.TIME_HOLD then put F.TIME_HOLD_MS (min 65535 (s.time.holdTime / (1000000 * unitsPerNs))) w
  else if a = R.TIME_CELL_DLY then
    if s.isCell then BitVec.ofNat 32 (s.get (F.TREE_CELL_DN_DLY (s.get F.CLK_SRC_RCSEL % 2))) else w
  else if a = R.TIME_TSQ_STAT 0 ∨ a = R.TIME_TSQ_STAT 1 then
    let p := (a - R.TIME_TSQ_STAT 0) / 16
    put (F.TIME_TSQ_STAT_LEVEL p) (s.tsQueue p).length w
  else w

/-- HB_T of the hub in units of network time, and NMISS (R573). -/
def hbT (s : State) : Nat := let n := s.get F.REF_HCFG_HBT; (if 4 ≤ n ∧ n ≤ 40 then n else 5) * 1000 * unitsPerNs
def nMiss (s : State) : Nat := let n := s.get F.REF_HCFG_NMISS; if 2 ≤ n ∧ n ≤ 16 then n else 4

/-- REFOK: a valid referee frame has arrived within NMISS HB_T (R551). -/
def refOk (s : State) : Bool :=
  match s.twin.refAt with
  | some t => !s.twin.refLost && decide (s.now - t ≤ s.nMiss * s.hbT)
  | none => false

/-- STN, TWIN and REF (R666, R571, R573). -/
def viewLink (s : State) (a : Nat) (w : Word) : Word :=
  if a = R.STN_STAT then
    put F.STN_STAT_PEND (b2n s.stn.pend.isSome) (put F.STN_STAT_NW (match s.stn.active with | some f => f.words.length | none => 0) w)
  else if R.STN_SPW 0 ≤ a ∧ a ≤ R.STN_SPW 31 then
    let j := (a - R.STN_SPW 0) / 4
    match s.stn.active with
    | some f => nth f.words j 0x7FC00000
    | none => 0x7FC00000
  else if a = R.STN_STRM then put F.STN_STRM_WAIT (min 255 s.stn.strm.length) w
  else if a = R.REF_HSTAT then (if s.isHub then put F.REF_HSTAT_OK (b2n s.refOk) w else w)
  else if a = R.TWIN_STAT then
    let role := if !s.is F.SYS_TOPO_TWIN then 2 else if s.twin.active then 1 else 0
    put F.TWIN_STAT_ROLE role (put F.TWIN_STAT_COLD (s.get F.BOOT_TWIN_COLD) w)
  else w

/-- TREE and BERTH (R294, R328). -/
def viewTree (s : State) (a : Nat) (w : Word) : Word :=
  let p := a / 0x400 - 0x18
  let off := a % 0x400
  if a / 0x400 = 0x1C then
    if a = R.BERTH_COUNT then BitVec.ofNat 32 (s.assignedCount + s.admittedCount <<< 16)
    else if a = R.BERTH_BOARD then put F.BERTH_BOARD_LEFT s.boardLeft w
    else w
  else if s.isHub then
    if off = R.TREE_MQ 0 % 0x400 then
      put (F.TREE_MQ_QUEUED p) (s.port p).mq.length (put (F.TREE_MQ_OPEN p) (min 127 (s.port p).opens.length) w)
    else if off = R.TREE_IMG 0 % 0x400 then put (F.TREE_IMG_NEED p) (s.imageNeed p) w
    else w
  else if off = R.TREE_CELL_MQ 0 % 0x400 then put (F.TREE_CELL_MQ_WAIT p) (min 4 (s.uplink p).waiting) w
  else w

/-- LANE (R219): PLL_LOCK is the present state of the lane's PLL. -/
def viewLane (s : State) (a : Nat) (w : Word) : Word :=
  let n := a / 0x400 - 0x10
  if a = R.LANE_STAT n then put (F.LANE_STAT_PLL_LOCK n) (b2n (s.pllLock n)) w else w

/-- CTL, CHAIN, RCU (R398, R420, R422, R455). -/
def viewEngine (s : State) (a : Nat) (w : Word) : Word :=
  if a = R.CTL_SIGDATA then s.sig (s.get F.CTL_SIGIDX_INDEX)
  else if a = R.CTL_SIGQ then put F.CTL_SIGQ_LEVEL s.eng.sigq.length w
  else if a = R.CHAIN_QSTAT then put F.CHAIN_QSTAT_LEVEL s.eng.chq.length w
  else if a = R.RCU_STAT then put F.RCU_STAT_OVLP (b2n s.rcuOverlap) w
  else w

/-- SUP: the supervisor and result windows (R458, R459). -/
def viewSup (s : State) (a : Nat) (w : Word) : Word :=
  let f := s.fe (s.get F.SUP_FESEL_CHAIN)
  if a = R.SUP_FECFG then f.cfg
  else if a = R.SUP_FELIM then f.lim
  else if a = R.SUP_FEHYS then f.hys
  else if a = R.SUP_FESTAT then BitVec.ofNat 32 (b2n f.tripped + b2n f.above <<< 1 + f.trips <<< 8 + f.timer <<< 16)
  else if a = R.SUP_FEACT0 ∨ a = R.SUP_FEACT1 then
    let k := (a - R.SUP_FEACT0) / 4
    BitVec.ofNat 32 ((List.range 32).foldl (fun x c => x + b2n (s.fe (32 * k + c)).tripped <<< c) 0)
  else if R.SUP_FRR 0 ≤ a ∧ a ≤ R.SUP_FRR 9 then
    let r := nth s.comp.frRes (s.get F.SUP_FRSEL_POINT) {}
    let half (x : DWord) (hi : Bool) : Word := BitVec.ofNat 32 (if hi then x.toNat / 2 ^ 32 else x.toNat)
    match (a - R.SUP_FRR 0) / 4 with
    | 0 => r.fused
    | 1 => BitVec.ofNat 32 (r.m % 2 ^ 24 + b2n r.nanf <<< 29 + b2n r.skip <<< 30 + b2n r.abort <<< 31)
    | 2 => half r.iu false
    | 3 => half r.iu true
    | 4 => half r.qu false
    | 5 => half r.qu true
    | 6 => half r.iy false
    | 7 => half r.iy true
    | 8 => half r.qy false
    | _ => half r.qy true
  else w

/-- ACC, GATE, SAFE, REC, GPIO (R505, R483, R528, R639, R54). -/
def viewPower (s : State) (a : Nat) (w : Word) : Word :=
  if R.ACC_MEAN 0 ≤ a ∧ a ≤ R.ACC_MEAN 9 ∧ a % 16 = 0 then (s.win ((a - R.ACC_MEAN 0) / 16)).mean
  else if a = R.ACC_PLSTAT then put F.ACC_PLSTAT_OFF (b2n (s.isCell && !bitOf (s.get F.ADC_SCAN_MASK) 0)) w
  else if a = R.GATE_STATE then (if s.isCell then BitVec.ofNat 32 s.gateState else w)
  else if a = R.GATE_FLT then (if s.isCell then BitVec.ofNat 32 (s.gate.latch + s.gate.live <<< 8) else w)
  else if a = R.SAFE_HSTAT then
    let inj := s.safe.alatch != 0 && (List.range 4).any fun p => s.get (F.LANE_PWR_CUR p) == 0
    BitVec.ofNat 32 (b2n s.safe.vb + s.safe.startup <<< 4 + s.safe.alatch <<< 8 + (b2n (!s.pins.trip0) + b2n (!s.pins.trip1) * 2 + b2n (!s.pins.safeA) * 4 + b2n (!s.pins.safeB) * 8) <<< 12 + b2n inj <<< 16)
  else if a = R.SAFE_HBREQ then BitVec.ofNat 32 (b2n s.safe.breq + s.safe.breqSrc <<< 8)
  else if a = R.SAFE_HDBLK then put F.SAFE_HDBLK_SEQ (b2n (s.safe.seqLeft != [] || s.safe.seqOpen != [])) w
  else if a = R.SAFE_CSTAT then
    put F.SAFE_CSTAT_DB (b2n s.safe.db) (put F.SAFE_CSTAT_BLKSEEN (b2n s.blkSeenNow)
      (put F.SAFE_CSTAT_PLIVE (b2n s.safe.plaus) (put F.SAFE_CSTAT_BREQF (b2n s.safe.breqF) w)))
  else if R.REC_BBD 0 ≤ a ∧ a ≤ R.REC_BBD 7 then
    BitVec.ofNat 32 (s.num (0x30000000 + 32 * s.get F.REC_BBIDX_INDEX + (a - R.REC_BBD 0)) 4)
  else if a = R.GPIO_IN then BitVec.ofNat 32 s.gpioIn
  else if a = R.GPIO_USTAT then
    put F.GPIO_USTAT_TXLVL s.uart.tx.length (put F.GPIO_USTAT_RXLVL s.uart.rx.length w)
  else w

/-- The word of a computed register; every other keeps the stored word. -/
def typed (s : State) (path a : Nat) (w : Word) : Word :=
  let pg := a / 0x400
  if pg ≤ 2 then s.viewSys a w
  else if pg = 3 ∨ pg = 5 then s.viewSec a w
  else if pg = 6 ∨ pg = 7 ∨ pg = 8 then s.viewCpu a w
  else if pg = 9 ∨ pg = 10 then s.viewSched path a w
  else if pg = 11 then s.viewTime a w
  else if pg = 12 ∨ pg = 13 ∨ pg = 14 then s.viewLink a w
  else if 0x10 ≤ pg ∧ pg ≤ 0x17 then s.viewLane a w
  else if 0x18 ≤ pg ∧ pg ≤ 0x1C then s.viewTree a w
  else if pg = 0x20 ∨ pg = 0x21 ∨ pg = 0x23 then s.viewEngine a w
  else if pg = 0x25 then s.viewSup a w
  else if pg = 0x28 ∨ 0x2C ≤ pg then s.viewPower a w
  else w

/-- The address whose stored word a register shows: the cell-wide registers of TREE1 are those of TREE0 (R293). -/
def home (s : State) (a : Nat) : Nat :=
  if s.isCell ∧ a / 0x400 = 0x19 ∧ cellWide (a % 0x400) then a - 0x400 else a

/-- The stored word with the active values in place of its SH fields when `active` (R71). -/
def stored (s : State) (d : RegDesc) (a : Nat) (active : Bool) : Word :=
  let w := s.reg a
  if active then
    let m := BitVec.ofNat 32 (maskOf d fun f => f.kind == .sh)
    (w &&& ~~~m) ||| (s.actReg a &&& m)
  else w

/-- The bits of a register that read 0 and ignore writes in the role: part of a register that the role holds only in
part (R122, R408, R420, R421, R489, R502, R504). -/
def hiddenBits (s : State) (a : Nat) : Nat :=
  let all := 2 ^ 32 - 1
  if a = R.CLK_SRC then (if s.isCell then 3 else if s.isHub then 0 else 2)
  else if s.isCell then
    if (R.CTL_HO_CTL ≤ a ∧ a ≤ R.CTL_HO_STAT) ∨ (R.CHAIN_CTL 8 ≤ a ∧ a ≤ R.CHAIN_CTL 63)
      ∨ (R.CHAIN_STAT 8 ≤ a ∧ a ≤ R.CHAIN_STAT 63) then all else 0
  else if a = R.ADC_CTL ∨ a = R.ADC_SCAN then 3
  else if a = R.ADC_OSR then 0x77
  else if a = R.ADC_OVL then 0xFFFF
  else if a = R.CTL_CFG ∨ (R.ACC_GAIN 0 ≤ a ∧ a ≤ R.ACC_OFS 3) ∨ (R.ACC_MEAN 0 ≤ a ∧ a ≤ R.ACC_CNT 3) then all
  else 0

/-- What the register at a byte address below the header reads on an access path. -/
def viewReg (s : State) (path addr : Nat) (active : Bool) : Word :=
  let a := s.home addr
  match regAt (a / 0x400) (a % 0x400) with
  | none => 0
  | some d =>
    if !holdsRoles s.role d.roles then 0
    else
      let w := s.typed path a (s.stored d a active)
      let w := if s.isHub ∧ a % 0x400 = 0x40 ∧ (a / 0x400 = 0x19 ∨ a / 0x400 = 0x1A ∨ a / 0x400 = 0x1B) then
          setBits w 0 3 (getBits (if active then s.actReg (R.TREE_CTL 0) else s.reg (R.TREE_CTL 0)) 0 3)
        else w
      (w &&& BitVec.ofNat 32 (maskOf d fun f => f.kind != .w)) &&& ~~~ BitVec.ofNat 32 (s.hiddenBits a)

/-- What any word of a present page reads, by the page's RDACT. -/
def viewWord (s : State) (path addr : Nat) : Word :=
  let pg := addr / 0x400
  if addr % 0x400 < 0x40 then s.headerWord pg (addr % 0x400) else s.viewReg path addr (s.is (F.PG_CTRL_RDACT pg))

end State

end Sys2Proof.Machine
end

