-- ==== Sys2Proof/Machine/Twin.lean ====
section
/-! DEFINITION. Twin hubs (R529 to R547, R559 to R568): watch numbers, the twin link and its frames, selective mirroring,
taking and yielding control. -/

namespace Sys2Proof.Machine

/-- Keeps or drops the list of shadow-only slices. -/
def addFlag (i : Nat) (l : List Nat) : List Nat := if l.contains i then l else i :: l

namespace State

/-! Roles and watches, R529 to R532. -/

/-- FAIL of HEALTH: REF_HFAIL is not 0 (R551). -/
def failing (s : State) : Bool := s.reg R.REF_HFAIL != 0

/-- Is the twin link through step 5 of R536? -/
def twinUp (s : State) : Bool := s.is F.TWIN_STAT_BOND && s.is F.TWIN_STAT_KEYED && s.is F.TWIN_STAT_HELLO

/-- The HEALTH byte of HB and STATUS, R551. -/
def healthByte (s : State) : Nat :=
  b2n s.twin.active + b2n (s.is F.TWIN_STAT_READY) <<< 1 + b2n s.failing <<< 2 + b2n s.safe.vb <<< 3
    + b2n s.twinUp <<< 4 + b2n s.refOk <<< 5 + s.get F.BOOT_TWIN_COLD <<< 6 + s.get F.TWIN_STAT_SELF <<< 7

/-- TIME_CTL.SRC is set by hardware on a role change, R560; it is in use from the next tick (R235). -/
def timeSource (s : State) (n : Nat) : State := s.when (s.is F.TWIN_CFG_TSYNC) (·.set F.TIME_CTL_SRC n)

/-- READY falls. -/
def unready (s : State) : State :=
  { s.set F.TWIN_STAT_READY 0 with twin := { s.twin with run := 0 } }

/-- READY rises once time is locked and a whole pass has been applied (R546). -/
def checkReady (s : State) (nuse : Nat) : State :=
  if !s.is F.TWIN_STAT_READY && s.is F.TWIN_STAT_TLOCK && decide (nuse ≤ s.twin.run) && !s.twin.active && s.twin.run != 0 then
    (s.set F.TWIN_STAT_READY 1).event Pg.TWIN 10
  else s

/-- A hub becomes standby, R560. VB falls by the hardwired logic. -/
def becomeStandby (s : State) : State :=
  if !s.twin.active then s
  else
    let s := { s.unready.set F.TWIN_STAT_TLOCK 0 with
      twin := { s.unready.twin with active := false, applied := none, staging := [], capture := none, adopt := none }
      time := { s.unready.time with twinGood := 0 } }
    ((s.timeSource 2).count F.TWIN_TKCNT_YIELDS).event Pg.TWIN 9

/-- A cold takeover: the active program's states are +0, every observer entry unobserved, the trim cells dropped (R568). -/
def coldTakeover (s : State) : State :=
  let sl := s.get F.CTL_STAT_ACT
  let s := forUpTo (fun c t => t.zeroChain sl (t.chainEnt sl c)) (s.slotNch sl) s
  let ids := s.berthsWith fun _ b => held b
  let s := ids.foldl (fun t i => t.setObs i { t.obs i with unobs := true }) s
  { s with mod := { s.mod with
      plan := { s.mod.plan with trim := [none, none] }, good := { s.mod.good with trim := [none, none] } } }.showTrim

/-- A hub becomes active for the reason `why`, R560; OWN already holds the new watch. -/
def becomeActive (s : State) (why : Nat) : State :=
  if s.twin.active then s
  else
    let cold := s.is F.BOOT_TWIN_COLD
    let outVb := match s.twin.status with
      | some t => bitOf t.health 0 && bitOf t.health 3
      | none => false
    let keep := outVb && s.is F.BOOT_TWIN_WARM && s.safe.startup == 2 && s.safe.alatch == 0 && !s.safe.breq
    let mask (lo : Nat) : Nat := s.twin.flags.foldl (fun m i => if lo ≤ i ∧ i < lo + 32 then m ||| 1 <<< (i - lo) else m) 0
    let s := (s.setReg R.TWIN_SHADOW_LO (BitVec.ofNat 32 (mask 0))).setReg R.TWIN_SHADOW_HI (BitVec.ofNat 32 (mask 32))
    let s := (s.unready).timeSource 1
    let s := { s with
      twin := { s.twin with active := true, slackFrom := s.twin.statusAt, restart := true, capture := none, adopt := none }
      safe := { s.safe with vb := keep } }
    let s := ((s.count F.TWIN_TKCNT_TAKEOVERS).set F.TWIN_TKLAST_WHY why).set F.TWIN_TKLAST_VBKEEP (b2n keep)
    let s := (s.set F.TWIN_TKLAST_COLD (b2n cold)).event Pg.TWIN 8
    s.when cold coldTakeover

/-- OWN and SEEN take a new watch. -/
def setOwn (s : State) (w : Nat) : State := (s.set F.TWIN_WATCH_OWN w).set F.TWIN_WATCH_SEEN w

/-- A watch is seen, R532. -/
def learnWatch (s : State) (w : Nat) : State :=
  if !newer w (s.get F.TWIN_WATCH_SEEN) then s
  else
    let s := s.set F.TWIN_WATCH_SEEN w
    if !s.hubDrives ∨ !newer w (s.get F.TWIN_WATCH_OWN) then s
    else if !s.is F.SYS_TOPO_TWIN then (s.setOwn ((w + 1) % 65536)).set F.TWIN_TKLAST_WHY 7
    else if s.is F.TWIN_STAT_SELF then (s.setOwn ((w + 1) % 65536)).set F.TWIN_TKLAST_WHY 6
    else s.becomeStandby.event Pg.TWIN 14

/-- Control is taken with OWN := SEEN + 1. -/
def takeControl (s : State) (why : Nat) : State :=
  (s.setOwn ((s.get F.TWIN_WATCH_SEEN + 1) % 65536)).becomeActive why

/-! Frames of the twin link, R537 and R538. -/

/-- The label key of frames sent by this side, and the IV of a frame with counter `n` of side `sd`. -/
def twinIv (s : State) (sd n : Nat) : Nat := tagIv 5 s.hubNo sd 0 0 n

/-- A frame is sent, if both lanes carry frames: it joins the frames of the present cycle. -/
def twinSend (s : State) (type : Nat) (body : List Byte) : State :=
  if !(s.laneSends 4 && s.laneSends 5) then s else
  let n := s.twin.link.txSeq
  let hdr := BitVec.ofNat 8 type :: (beBytes 2 body.length ++ beBytes 6 n) ++ body
  let tag := if type = 1 then List.replicate 8 0 else gmac (s.twin.link.tx.getD 0) (s.twinIv s.side n) hdr
  let f := hdr ++ tag
  { s with twin := { s.twin with
      link := { s.twin.link with txSeq := n + 1 }, frames := s.twin.frames ++ [f ++ crcBytes f] } }

/-- Drops of R538: 0 CRC, 1 TAG, 2 SEQ, 3 FMT. -/
def twinDrop (s : State) (w : Nat) : State := s.bump ⟨R.TWIN_LERR, 8 * w, 8⟩

/-- The body lengths of a frame type. -/
def twinLenOk (type n : Nat) : Bool :=
  match type with
  | 1 => n == 192
  | 2 => n == 16
  | 3 => n == 300 || n == 20
  | 4 => decide (12 ≤ n) && decide (n ≤ 12 + 1024)
  | 5 => n == 15
  | _ => false

/-- A received frame of type `t` is checked: CRC, format, tag, sequence. `f` takes the body. A frame of another known type
is another command's. -/
def twinRx (s : State) (t : Nat) (bs : List Byte) (f : State → List Byte → State) : State :=
  if !(s.laneHears 4 && s.laneHears 5) then s else
  let n := bs.length - 4
  let type := (nth bs 0 0).toNat
  if crcBytes (bs.take n) ≠ bs.drop n then s.twinDrop 0
  else if 1 ≤ type ∧ type ≤ 5 ∧ type ≠ t then s
  else
    let len := ofBe ((bs.drop 1).take 2)
    if n ≠ len + 17 ∨ !twinLenOk type len then s.twinDrop 3
    else
      let body := (bs.drop 9).take len
      let tag := (bs.drop (9 + len)).take 8
      let seq := ofBe ((bs.drop 3).take 6)
      if type = 1 then (if tag = List.replicate 8 0 then f s body else s.twinDrop 1)
      else
        match s.twin.link.rx with
        | none => s.twinDrop 1
        | some k =>
          if gmac k (s.twinIv (1 - s.side) seq) (bs.take (9 + len)) ≠ tag then s.twinDrop 1
          else if (match s.twin.link.rxSeq with | some r => decide (seq ≤ r) | none => false) then s.twinDrop 2
          else f { s with twin := { s.twin with link := { s.twin.link with rxSeq := some seq } } } body

/-- The bond drops: the link starts again from step 1 of R536. -/
def twinDropBond (s : State) : State :=
  ((s.set (F.LANE_STAT_BONDED 4) 0).set (F.LANE_STAT_REVERSED 4) 0).twinLost

/-! The exchange and HELLO, R536 and R147. -/

/-- HELLO. -/
def sendHello (s : State) : State :=
  s.twinSend 2 (idBytes s.boot.imageId ++ beBytes 4 (s.reg R.BOOT_FEAT).toNat ++ beBytes 2 (s.get F.BOOT_MIRV_MIRV) ++ beBytes 2 s.linkVer)

/-- The keys of the exchange; sequence counters start at 0. -/
def twinKeyed (s : State) (x eA eB : List Byte) (idA idB : DWord) : State :=
  let down := kxKey "PX down" x eA eB idA idB
  let up := kxKey "PX up" x eA eB idA idB
  let k : LinkKeys := if s.side = 0 then { rx := some up, tx := some down } else { rx := some down, tx := some up }
  ({ s with twin := { s.twin with link := k } }.set F.TWIN_STAT_KEYED 1).sendHello

/-- KX: side A is the initiator; the peer's identity must stand in the peer table as a twin hub. -/
def twinKx (s : State) (str : List Byte) : State :=
  if !s.is F.TWIN_STAT_BOND ∨ s.is F.TWIN_STAT_KEYED then s
  else
    let own := pubOf s.twin.link.priv
    let his := kxEph str
    let hisId := keyId (kxPub str)
    let msg := if s.side = 0 then own ++ his else his
    if !kxSound str msg ∨ !s.isPeer hisId 3 then s.peerRefused.twinDropBond
    else
      match ecdhX s.twin.link.priv his with
      | none => s.peerRefused.twinDropBond
      | some x =>
        if s.side = 0 then s.twinKeyed x own his s.devId hisId
        else
          let (mine, s) := s.kxOwn s.twin.link.priv (his ++ own)
          (s.twinSend 1 mine).twinKeyed x his own hisId s.devId

/-- HELLO: warm only when FEATURE and MIRROR_VER agree and the pairing is listed (R147). -/
def twinHello (s : State) (b : List Byte) : State :=
  let feat := ofBe ((b.drop 8).take 4) != (s.reg R.BOOT_FEAT).toNat
  let mirv := ofBe ((b.drop 12).take 2) != s.get F.BOOT_MIRV_MIRV
  let pair := !s.listed (idOfBytes b) 2
  let cold := feat || mirv || pair
  let s := ((s.set F.BOOT_TWIN_WARM (b2n (!cold))).set F.BOOT_TWIN_COLD (b2n cold)).set F.BOOT_TWIN_WHY
    (b2n feat + 2 * b2n mirv + 4 * b2n pair)
  s.set F.TWIN_STAT_HELLO 1

/-! STATUS, R539. -/

/-- The crossing number last committed by a sending active, or applied by a sending standby. -/
def crossing (s : State) : Nat :=
  if s.twin.active then s.twin.committed else s.twin.applied.getD 0

/-- The bitmap of port `p` as launched. -/
def launchedBitmap (s : State) (p : Nat) : List Byte :=
  if (s.port p).launched.length < 104 then s.bitmapOf p s.mod.good.ins (s.mod.good.mode == 2)
  else ((s.port p).launched.drop 40).take 64

/-- The STATUS frame of cycle `k`, sent at once after the launch. -/
def sendStatus (s : State) (k : Nat) : State :=
  if !s.twinUp then s
  else
    let head := beBytes 6 k ++ beBytes 2 (s.get F.TWIN_WATCH_OWN) ++ beBytes 2 (s.get F.TWIN_WATCH_SEEN)
      ++ [BitVec.ofNat 8 s.healthByte, 0] ++ beBytes 4 s.twin.wit ++ beBytes 4 s.crossing
    if s.is F.BOOT_TWIN_COLD then s.twinSend 3 head
    else
      let g := s.mod.good
      let n (a : Nat) : List Byte := beBytes 2 (unsigned 16 (nth g.level a 0))
      let tr (a : Nat) : List Byte := beBytes 2 (match nth g.trim a none with | some i => i + 2 ^ 15 | none => 0)
      let re (a : Nat) : List Byte := beBytes 8 (nth g.resid a 0).toNat
      s.twinSend 3 (head ++ n 0 ++ n 1 ++ tr 0 ++ tr 1 ++ re 0 ++ re 1 ++ (List.range 4).flatMap s.launchedBitmap)

/-- A STATUS body. -/
def parseStatus (b : List Byte) : TwinStatus :=
  let u (o n : Nat) : Nat := ofBe ((b.drop o).take n)
  { cycle := u 0 6, own := u 6 2, seen := u 8 2, health := u 10 1, wit := u 12 4, crossing := u 16 4,
    n := [u 20 2, u 22 2], trim := [u 24 2, u 26 2],
    resid := [BitVec.ofNat 64 (u 28 8), BitVec.ofNat 64 (u 36 8)], bitmap := b.drop 44 }

/-- Two active hubs, R559: the older watch yields, which R532 calls FENCED outside self-arbitration; on a tie hub B yields
and DUAL_ACTIVE is raised. -/
def dualActive (s : State) (t : TwinStatus) : State :=
  let own := s.get F.TWIN_WATCH_OWN
  if !s.twin.active ∨ !bitOf t.health 0 then s
  else if newer t.own own then s.becomeStandby.when (!s.is F.TWIN_STAT_SELF) (·.event Pg.TWIN 14)
  else if t.own = own then (s.event Pg.TWIN 16).when (s.side == 1) becomeStandby
  else s

/-- STATUS: R559, R532, and the plan that a warm standby adopts (R535). -/
def twinStatus (s : State) (b : List Byte) : State :=
  let t := parseStatus b
  let act := bitOf t.health 0
  let s := { s with twin := { s.twin with
    status := some t, statusAt := some s.now, missing := 0, sawActive := s.twin.sawActive || act } }
  let s := s.set F.TWIN_STAT_TWINVB (b2n (bitOf t.health 3))
  let s := (s.dualActive t).learnWatch t.own
  if act && !s.twin.active && s.is F.BOOT_TWIN_WARM && b.length == 300 && s.time.lastK == some t.cycle then
    { s with twin := { s.twin with adopt := some t } }
  else s

/-! The mirror image, R540 and R541. -/

/-- Pages of part 1. -/
def mirrorPages (s : State) : List Nat :=
  if s.is F.BOOT_TWIN_COLD then []
  else (List.range 48).filter fun pg => mirrorable s.role pg && s.is (F.PG_CTRL_MIRROR pg)

/-- Words of the parts: the pages, BERTH, RANK, the regions. -/
def berthWords (s : State) : Nat := if s.is F.BOOT_TWIN_COLD ∨ s.is (F.PG_CTRL_MIRROR Pg.BERTH) then 3 * 1024 else 0
def rankWords (s : State) : Nat := if !s.is F.BOOT_TWIN_COLD ∧ s.is (F.PG_CTRL_MIRROR Pg.RANK) then 6 * 1024 else 0
def regions (s : State) : List (Nat × Nat) :=
  if s.is F.BOOT_TWIN_COLD then []
  else (List.range 16).filterMap fun n =>
    let l := s.get (F.TWIN_MR_LEN_LEN n)
    if l = 0 then none else some (s.get (F.TWIN_MR_BASE_BASE n), l / 4)

/-- SIZE in bytes. -/
def mirrorSize (s : State) : Nat :=
  4 * (480 * s.mirrorPages.length + s.berthWords + s.rankWords + s.regions.foldl (fun n r => n + r.2) 0)

/-- The state-memory address of word `w` of the regions. -/
def regionAddr : List (Nat × Nat) → Nat → Option Nat
  | [], _ => none
  | (a, n) :: l, w => if w < n then some (a + 4 * w) else regionAddr l (w - n)

/-- The RANK words of part 3. -/
def rankWordNo (j : Nat) : Nat := if j = 5 then 9 else j + 1

/-- Word `w` of the image; a region's word is read through the decoder of state memory. The answer tells whether it was
poisoned. -/
def mirrorWord (s : State) (w : Nat) : Nat × Bool × State :=
  let n1 := 480 * s.mirrorPages.length
  let n2 := n1 + s.berthWords
  let n3 := n2 + s.rankWords
  if w < n1 then
    let pg := nth s.mirrorPages (w / 480) 0
    ((s.viewReg 1 (pg * 0x400 + 0x40 + 4 * (w % 240)) (decide (240 ≤ w % 480))).toNat, false, s)
  else if w < n2 then (berthWord (s.berth ((w - n1) / 3)) ((w - n1) % 3), false, s)
  else if w < n3 then (obsWord (s.obs ((w - n2) / 6)) (rankWordNo ((w - n2) % 6)), false, s)
  else match regionAddr s.regions (w - n3) with
    | some a =>
      let (b, bad, s) := s.fetch 8 a 4
      (ofLe b, bad, s)
    | none => (0, false, s)

/-- SLCAP, R541. -/
def sliceCap (s : State) : Nat :=
  let rate := s.rate 4
  let perUs := if rate = 2 then 1250 else if rate = 1 then 625 else 250
  max 1 (s.active F.TIME_MER_TCYC * perUs / 2 - 1024)

/-- NSLICE in force. -/
def nSlice (s : State) : Nat := max 4 (min 64 (s.get F.TWIN_CFG_NSLICE))

/-- NUSE, the slice length L and G of an image of `size` bytes. -/
def sliceGeom (s : State) (size : Nat) : Nat × Nat × Nat :=
  let cap := s.sliceCap
  let nuse := min 64 (max s.nSlice ((size + cap - 1) / cap))
  let l := ((size + nuse - 1) / nuse + 3) / 4 * 4
  (nuse, l, max 1 ((l + cap - 1) / cap))

/-- At a meridian the active computes SIZE, NUSE and G anew; a change of NUSE or G restarts the pass at slice 0. -/
def mirrorGeometry (s : State) : State :=
  if !s.twin.active then s
  else
    let size := s.mirrorSize
    let (nuse, _, g) := s.sliceGeom size
    if s.twin.geom = (size, nuse, g) then s
    else
      let restart := s.twin.geom.2 != (nuse, g)
      let s := { s with twin := { s.twin with geom := (size, nuse, g), restart := s.twin.restart || restart,
                                              capture := if restart then none else s.twin.capture } }
      let s := ((s.set F.TWIN_MSIZE_SIZE (min size (2 ^ 24 - 1))).set F.TWIN_MSIZE_NUSE nuse).set F.TWIN_MGEN_G (min 255 g)
      s.when (decide (s.nSlice < (size + s.sliceCap - 1) / s.sliceCap)) (·.event Pg.TWIN 12)

/-- At the end of stage F the active captures the next slice, if none is being sent (R542). A pass that restarts begins at
the next generation number that carries slice 0. -/
def sliceCapture (s : State) : State :=
  if !s.twin.active ∨ !s.twinUp ∨ !s.runs Pg.TWIN ∨ !s.is F.TWIN_CFG_MEN ∨ s.twin.capture.isSome ∨ s.twin.geom.2.1 = 0 then s
  else
    let (size, nuse, _) := s.twin.geom
    let l := (s.sliceGeom size).2.1
    let x0 := s.get F.TWIN_MX_X
    let x := if s.twin.restart then (x0 / nuse + 1) * nuse else x0 + 1
    let idx := x % nuse
    let (data, bad, s) := (List.range (l / 4)).foldl (fun (r : List (List Byte) × Bool × State) j =>
      let w := r.2.2.mirrorWord (idx * (l / 4) + j)
      (leBytes 4 w.1 :: r.1, r.2.1 || w.2.1, w.2.2)) ([], false, s)
    let c : Slice := { x := x % 2 ^ 32, idx := idx, nuse := nuse, restart := s.twin.restart, data := data.reverse.flatten, bad := bad }
    { s.set F.TWIN_MX_X (x % 2 ^ 32) with twin := { s.twin with capture := some c, sent := 0, restart := false } }

/-- The SLICE frames of up to `n` bytes of a slice from offset `o`. -/
def sendSlices (s : State) (c : Slice) : (fuel o n : Nat) → State
  | 0, _, _ => s
  | k + 1, o, n =>
    let m := min 1024 (min n (c.data.length - o))
    if m = 0 then s
    else
      let s := s.twinSend 4 (beBytes 4 c.x ++ beBytes 2 c.idx ++ [BitVec.ofNat 8 c.nuse, BitVec.ofNat 8 (b2n c.restart)]
        ++ beBytes 4 o ++ (c.data.drop o).take m)
      s.sendSlices c k (o + m) (n - m)

/-- In each of the G cycles after the capture a part of the slice is sent, then the COMMIT (R542). -/
def sliceSend (s : State) : State :=
  match s.twin.capture with
  | none => s
  | some c =>
    if !s.twinUp then { s with twin := { s.twin with capture := none } }
    else
      let cap := s.sliceCap
      let s := s.sendSlices c (cap / 1024 + 2) (s.twin.sent * cap) cap
      let n := s.twin.sent + 1
      if n < s.twin.geom.2.2 then { s with twin := { s.twin with sent := n } }
      else
        let s := if c.bad then s else
          { s with twin := { s.twin with committed := c.x } }.twinSend 5 (beBytes 4 c.x ++ beBytes 2 c.idx ++ [BitVec.ofNat 8 c.nuse] ++ beBytes 4 c.data.length ++ beBytes 4 (crc32c c.data))
        { s with twin := { s.twin with capture := none, sent := 0 } }

/-! Staging and applying, R543 to R545. -/

/-- A generation is discarded: its slice is flagged. -/
def sliceDiscard (s : State) (idx : Nat) : State :=
  let s := ((s.bump F.TWIN_MCNT_DISCARD).event Pg.TWIN 11).unready
  { s with twin := { s.twin with flags := addFlag idx s.twin.flags } }

/-- SLICE data are staged. -/
def twinSlice (s : State) (b : List Byte) : State :=
  if s.twin.active then s
  else
    let u (o n : Nat) : Nat := ofBe ((b.drop o).take n)
    let x := u 0 4
    let put (m : Kv Byte) : Kv Byte := (b.drop 12).zipIdx.foldl (fun m e => kvSet m (u 8 4 + e.2) e.1) m
    let st := s.twin.staging
    let st := if st.any (·.x == x) then st.map fun g => if g.x = x then { g with data := put g.data } else g
      else st ++ [{ x := x, idx := u 4 2, nuse := u 6 1, restart := bitOf (u 7 1) 0, data := put [], commit := none }]
    { s with twin := { s.twin with staging := st } }

/-- The whole slice of `n` bytes, if every byte is staged. -/
def stagedBytes (m : Kv Byte) (n : Nat) : Option (List Byte) :=
  if (List.range n).all fun o => (kvFind m o).isSome then some ((List.range n).map fun o => kvGet 0 m o) else none

/-- COMMIT: a whole slice whose CRC matches is applied at the next meridian; every other generation up to this one is
discarded, and skipped slices are flagged. -/
def twinCommit (s : State) (b : List Byte) : State :=
  if s.twin.active then s
  else
    let u (o n : Nat) : Nat := ofBe ((b.drop o).take n)
    let x := u 0 4
    let idx := u 4 2
    let nuse := max 1 (u 6 1)
    let waiting := s.twin.staging.filter (·.commit.isSome)
    let base := match waiting.getLast? with
      | some g => some g.x
      | none => s.twin.applied
    let gap := match base with
      | some y => (x + 2 ^ 32 - y) % 2 ^ 32 - 1
      | none => 0
    let old := s.twin.staging.filter fun g => g.commit.isNone && g.x != x
    let mine := s.twin.staging.find? fun g => g.commit.isNone && g.x == x
    let s := { s with twin := { s.twin with staging := waiting } }
    let s := old.foldl (fun t g => t.sliceDiscard g.idx) s
    let s := if gap = 0 then s else
      { s.unready with twin := { s.unready.twin with
          flags := (List.range (min gap nuse)).foldl (fun l j => addFlag ((x + nuse * 2 ^ 32 - 1 - j) % nuse) l) s.twin.flags } }
    let g : Staging := match mine with
      | some g => g
      | none => { x := x, idx := idx, nuse := nuse, restart := false, data := [], commit := none }
    match stagedBytes g.data (u 7 4) with
    | some data =>
      if crc32c data = u 11 4 then { s with twin := { s.twin with staging := s.twin.staging ++ [{ g with commit := some data }] } }
      else s.sliceDiscard idx
    | none => s.sliceDiscard idx

/-- A mirrored word of a page reaches its register: the written value from the first copy, the active value of SH fields
from the second; RO fields and those that are not state are not applied (R544). -/
def applyPageWord (s : State) (pg j : Nat) (active : Bool) (v : Word) : State :=
  let a := pg * 0x400 + 0x40 + 4 * j
  match regAt pg (0x40 + 4 * j) with
  | none => s
  | some d =>
    if d.roles &&& 2 = 0 ∨ a = R.CTL_SIGDATA then s
    else if active then
      let m := BitVec.ofNat 32 (maskOf d fun f => f.kind == .sh)
      { s with act := kvSet s.act a ((s.actReg a &&& ~~~m) ||| (v &&& m)) }
    else
      let m := BitVec.ofNat 32 (maskOf d fun f => f.kind == .rw || f.kind == .sh || f.kind == .st || f.kind == .w1c)
      let w := (s.reg a &&& ~~~m) ||| (v &&& m)
      let c := s.get F.SUP_FESEL_CHAIN
      if a = R.SUP_FECFG then s.setFe c { s.fe c with cfg := w }
      else if a = R.SUP_FELIM then s.setFe c { s.fe c with lim := w }
      else if a = R.SUP_FEHYS then s.setFe c { s.fe c with hys := w }
      else s.setReg a w

/-- A mirrored word of a berth entry: the fields marked M. -/
def applyBerthWord (s : State) (i w : Nat) (v : Word) : State :=
  let b := s.berth i
  s.setBerth i (match w with
    | 0 => { b with assign := getBits v 0 2, arm := getBits v 2 1, rslot := getBits v 16 8, rsv := getBits v 24 1 == 1 }
    | 1 => { b with keyid := idOfWords v (idHi b.keyid) }
    | _ => { b with keyid := idOfWords (idLo b.keyid) v })

/-- A mirrored word of an observer entry: the fields marked M. -/
def applyRankWord (s : State) (i w : Nat) (v : Word) : State :=
  let o := s.obs i
  let lo (x : DWord) : DWord := BitVec.ofNat 64 (x.toNat / 2 ^ 32 * 2 ^ 32 + v.toNat)
  let hi (x : DWord) : DWord := BitVec.ofNat 64 (x.toNat % 2 ^ 32 + v.toNat * 2 ^ 32)
  s.setObs i (match w with
    | 1 => { o with cest := v }
    | 2 => { o with sqq := lo o.sqq }
    | 3 => { o with sqq := hi o.sqq }
    | 4 => { o with sqv := lo o.sqv }
    | 5 => { o with sqv := hi o.sqv }
    | _ => { o with excl := getBits v 2 1 == 1, isel := getBits v 3 1 == 1, pblk := getBits v 6 1 == 1 })

/-- Word `w` of the image is applied (R544). The standby lays the image out by its own settings. -/
def applyMirrorWord (s : State) (pages : List Nat) (nb nr : Nat) (rg : List (Nat × Nat)) (w : Nat) (v : Word) : State :=
  let n1 := 480 * pages.length
  if w < n1 then s.applyPageWord (nth pages (w / 480) 0) (w % 240) (decide (240 ≤ w % 480)) v
  else if w < n1 + nb then s.applyBerthWord ((w - n1) / 3) ((w - n1) % 3) v
  else if w < n1 + nb + nr then s.applyRankWord ((w - n1 - nb) / 6) (rankWordNo ((w - n1 - nb) % 6)) v
  else match regionAddr rg (w - n1 - nb - nr) with
    | some a => s.store 8 a (leBytes 4 v.toNat)
    | none => s

/-- A committed generation is applied at the standby's meridian (R543). -/
def sliceApply (s : State) (g : Staging) (data : List Byte) : State :=
  let pages := s.mirrorPages
  let nb := s.berthWords
  let nr := s.rankWords
  let rg := s.regions
  let n := data.length / 4
  let lead := s.lead
  let rep := s.repeatOn
  let s := (List.range n).foldl (fun t j =>
    t.applyMirrorWord pages nb nr rg (g.idx * n + j) (BitVec.ofNat 32 (ofLe ((data.drop (4 * j)).take 4)))) s
  let s := s.when (s.lead != lead || s.repeatOn != rep) (·.leadChanged lead rep)
  let s := (s.set F.TWIN_MX_X g.x).count F.TWIN_MCNT_APPLIED
  let s := { s with twin := { s.twin with applied := some g.x, flags := s.twin.flags.filter (· != g.idx) } }
  if g.restart then s.unready
  else { s with twin := { s.twin with run := s.twin.run + 1 } }.checkReady g.nuse

/-- At its meridian the standby applies every generation whose COMMIT has come. -/
def mirrorApply (s : State) : State :=
  if s.twin.active then s
  else
    let done := s.twin.staging.filter (·.commit.isSome)
    let s := { s with twin := { s.twin with staging := s.twin.staging.filter (·.commit.isNone) } }
    done.foldl (fun t g => match g.commit with
      | some d => t.sliceApply g d
      | none => t) s

/-! Taking control by self-arbitration, R564 to R566. -/

/-- WCOL in force. -/
def wCol (s : State) : Nat := max 1 (s.get F.TWIN_ARB_WCOL)

/-- Do the counts of R547 show the active's tree silent and the own tree heard (R565)? -/
def witnessCollapse (s : State) : Bool :=
  let w := s.twin.wit
  let pct := s.get F.TWIN_ARB_WPCT
  decide (8 ≤ w / 65536 % 2048) && decide (w / 256 % 256 < pct) && decide (pct ≤ w % 256)

/-- The case of R565 that holds now, as WHY; 0 for none. -/
def takeoverCase (s : State) : Nat :=
  let twinFails := match s.twin.status with
    | some t => bitOf t.health 0 && bitOf t.health 2
    | none => false
  if twinFails && !s.failing then 2
  else if s.nMiss < s.twin.missing ∧ s.wCol ≤ s.twin.collapse then 3
  else 0

/-- HEAL in units of passed time (R571). -/
def healTime (s : State) : Nat := max 1 (min 600 (s.get F.TWIN_ARB_HEAL)) * 1000000000 * unitsPerNs

/-- Is this hub a standby in self-arbitration? -/
def selfStandby (s : State) : Bool :=
  s.alive && s.isHub && s.is F.SYS_TOPO_TWIN && s.is F.TWIN_STAT_SELF && !s.twin.active

/-- Does the twin link's logic run? -/
def twinOn (s : State) : Bool := s.alive && s.isHub && s.is F.SYS_TOPO_TWIN && s.runs Pg.TWIN

/-- The active's first ACTIVE launch ends the slack that is measured (R560). -/
def slackEnd (s : State) : State :=
  match s.twin.slackFrom with
  | some t =>
    if s.twin.active && s.ports.any fun q => match q.last with | some f => q.launched != [] && f.flags % 4 == 1 | none => false then
      let d := s.now + s.dTx 0 - t
      let s := s.set F.TWIN_SLACK_GAP (min (2 ^ 24 - 1) (d / (10 * unitsPerNs)))
      { s with twin := { s.twin with slackFrom := none } }.monitorSel 12 0 (d / unitsPerNs)
    else s
  | none => s

end State

open State

/-- The time that 64 training sets of four code groups take on a twin lane, after a bond (R200). -/
def State.trainTime (s : State) : Nat := 64 * 4 * 10 * (if s.get (F.LANE_CFG_RATE 4) = 2 then 160 else 320) * State.unitsPerNs / 1000

/-- BOND_UP: both twin lanes have sync and 16 consistent training sets (R201). The NODE check of R18 keeps the link
down on another hub number or an equal side; TWIN_ERR falls at the next bond that passes it (DESIGN CHOICE, log 110). An ephemeral key is drawn, and side A opens the exchange (R536). -/
def execBondUp (lidL4 lidL5 node skew : Nat) (s : State) : Out :=
  act s (s.laneRx 4 && s.laneRx 5 && s.isHub && s.is F.SYS_TOPO_TWIN && s.is (F.LANE_STAT_SYNC 4)
      && s.is (F.LANE_STAT_SYNC 5) && lidL4 + lidL5 == 1 && decide (skew ≤ 16)
      && s.get (F.LANE_CFG_RATE 4) == s.get (F.LANE_CFG_RATE 5)) fun s =>
    let s := (s.set (F.LANE_BOND_NODE 4) node).set (F.LANE_BOND_SKEW 4) skew
    if node % 64 ≠ s.get F.SYS_NODE_HUB ∨ node / 64 % 2 = s.get F.SYS_NODE_SIDE then
      (s.set F.SYS_TOPO_TWIN_ERR 1).twinLost
    else
      let s := (s.set F.SYS_TOPO_TWIN_ERR 0).set (F.LANE_STAT_REVERSED 4) lidL4
      let (d, s) := s.drawScalar
      let s := { s with twin := { s.twin with link := { priv := d }, frames := [] } }
      let s := s.setLane 4 { s.lane 4 with trainEnd := s.elapsed + s.trainTime }
      let s := (((s.set (F.LANE_STAT_BONDED 4) 1).set F.TWIN_STAT_BOND 1).event (Pg.LANE 4) 12).holdByTwin
      if s.side = 0 then
        let (str, s) := s.kxOwn d (pubOf d)
        s.twinSend 1 str
      else s

/-- The servo of R234 steers TIME_INC, to a value that the spec does not state (a free value, log 20). -/
def State.steer (s : State) : State :=
  let (v, s) := s.free
  let v := v % 2 ^ 36
  let s := (s.set F.TIME_INC_NS (v / 2 ^ 32)).set F.TIME_INC_FRAC_FRAC v
  { s with time := { s.time with inc := v } }

/-- TWIN_TIME_EXCHANGE: the offset is shown, the servo steers; 256 exchanges within 1 ns lock (R234), which the standby's
readiness needs (R546). An exchange outside 1 ns ends the lock (DEDUCED, log 121). -/
def execTwinTimeExchange (offset : Int) (s : State) : Out :=
  act s (s.alive && s.isHub && s.runs Pg.TIME && s.time.src == 2 && s.is (F.LANE_STAT_BONDED 4)) fun s =>
    let s := s.setReg R.TIME_TWIN (BitVec.ofNat 32 (unsigned 32 offset))
    let good := if offset.natAbs ≤ 64 then min 256 (s.time.twinGood + 1) else 0
    let s := { s with time := { s.time with twinGood := good, exchanged := true } }
    let s := s.holdByTwin
    let s := if s.inHoldover then s else s.steer
    if good = 0 then s.set F.TIME_STAT_LOCK 0
    else if good = 256 then
      let s := if s.is F.TIME_STAT_LOCK then s else (s.set F.TIME_STAT_LOCK 1).event Pg.TIME 14
      if s.twin.active then s else (s.set F.TWIN_STAT_TLOCK 1).checkReady (s.sliceGeom s.mirrorSize).1
    else s

/-- TWIN_KX_FRAME (R536). -/
def execTwinKxFrame (frame : List Byte) (s : State) : Out := act s s.twinOn fun s => s.twinRx 1 frame twinKx

/-- TWIN_HELLO_FRAME (R147). -/
def execTwinHelloFrame (frame : List Byte) (s : State) : Out := act s s.twinOn fun s => s.twinRx 2 frame twinHello

/-- TWIN_STATUS_RX (R535). -/
def execTwinStatusRx (frame : List Byte) (s : State) : Out := act s s.twinOn fun s => s.twinRx 3 frame twinStatus

/-- TWIN_SLICE_RX (R543). -/
def execTwinSliceRx (frame : List Byte) (s : State) : Out := act s s.twinOn fun s => s.twinRx 4 frame twinSlice

/-- TWIN_COMMIT_RX (R543). -/
def execTwinCommitRx (frame : List Byte) (s : State) : Out := act s s.twinOn fun s => s.twinRx 5 frame twinCommit

/-- REF_LOST: no referee frame for NMISS HB_T; self-arbitration may begin (R564), by the hardwired logic. -/
def execRefLost (s : State) : Out :=
  act s (s.alive && s.isHub && s.is F.SYS_TOPO_TWIN && s.runs Pg.REF) fun s =>
    let s := s.reach ((s.twin.refAt.getD 0 : Nat) + s.nMiss * s.hbT)
    { s with twin := { s.twin with refLost := true, refRun := 0 } }

/-- SELF_TAKEOVER (R565). -/
def execSelfTakeover (s : State) : Out :=
  act s (s.selfStandby && s.takeoverCase != 0) fun s => s.takeControl s.takeoverCase

/-- PREFERRED_RECLAIM: the conditions of R566 have held for HEAL seconds. -/
def execPreferredReclaim (s : State) : Out :=
  act s (s.selfStandby && s.reclaimHolds) fun s => (s.timerEnds (s.twin.reclaimAt.getD s.elapsed + s.healTime)).takeControl 4

/-- STAGE_F (R251): the frames are built, once stage E is done, and the cycle's work is complete; the active captures the
next mirror slice (R542), and the newest snapshot's work then starts. -/
def execStageF (ns : Nat) (s : State) : Out :=
  match s.mod.used with
  | some x => act s (s.stageDue 31 5) fun s => ((s.stageF x ns).monitorSel 1 5 ns).sliceCapture.startWork
  | none => .next s

end Sys2Proof.Machine
end

