-- ==== Sys2Proof/Machine/Referee.lean ====
section
/-! DEFINITION. The referee link at both ends and the decisions of the referee (R548 to R558, R564, R569). -/

namespace Sys2Proof.Machine

/-- The smallest number above the last accepted one whose low 16 bits are `low` (R549). -/
def seqAfter (last : Option Nat) (low : Nat) : Nat :=
  match last with
  | none => low
  | some r => r + 1 + (low + 65536 - (r + 1) % 65536) % 65536

/-- The most significant byte first of the CRC-16 of R83. -/
def crc16Bytes (bs : List Byte) : List Byte := beBytes 2 (crc16 bs)

/-- The tag of a referee frame of hub number `hub` sent by the hub of side `sd`, or to it. -/
def refTag (key : Key) (hub sd seq : Nat) (hdr : List Byte) : List Byte := gmac key (tagIv 4 hub sd 0 0 seq) hdr

/-- A frame of type `type` with counter `seq`: preamble, SFD, frame and CRC (R549). -/
def refFrame (type seq : Nat) (body : List Byte) (tag : List Byte → List Byte) : List Byte :=
  let hdr := BitVec.ofNat 8 type :: beBytes 2 seq ++ body
  let f := hdr ++ tag hdr
  [0x55, 0xD5] ++ f ++ crc16Bytes f

/-- The four KX frames of a string. -/
def kxFrames (seq : Nat) (str : List Byte) : List Byte :=
  (List.range 4).flatMap fun j => refFrame 0x31 (seq + j) ([BitVec.ofNat 8 j, 0] ++ (str.drop (48 * j)).take 48) fun _ => []

/-- The four chunks of a string, once all are there. -/
def kxJoined (m : Kv (List Byte)) : Option (List Byte) :=
  match kvFind m 0, kvFind m 1, kvFind m 2, kvFind m 3 with
  | some a, some b, some c, some d => some (a ++ b ++ c ++ d)
  | _, _, _, _ => none

/-- What the checks of a received frame find. -/
inductive RefCheck where
  | crc | format | tag
  | other                          -- a frame of another known type: another command's
  | ok (seq : Nat) (body : List Byte)
  deriving DecidableEq, Repr

/-- A frame is checked against the keys of its link: CRC, type (HB towards the referee, RST, TAKE and YIELD towards a hub,
KX both ways) and length, tag (R549, R550). -/
def refCheck (k : LinkKeys) (hub sd t : Nat) (bs : List Byte) : RefCheck :=
  let f := (bs.drop 2).take (bs.length - 4)
  if bs.length < 7 ∨ bs.take 2 ≠ [0x55, 0xD5] then .format
  else if crc16Bytes f ≠ bs.drop (bs.length - 2) then .crc
  else
    let type := (nth f 0 0).toNat
    let up := t != 0x21 && t != 0x22 && t != 0x23 && type == 0x11
    let down := t != 0x11 && (type == 0x21 || type == 0x22 || type == 0x23)
    if !up && !down && type != 0x31 then .format
    else if type ≠ t then .other
    else if type = 0x31 then (if f.length = 53 then .ok 0 (f.drop 3) else .format)
    else if f.length ≠ 20 then .format
    else
      let seq := seqAfter k.rxSeq (ofBe ((f.drop 1).take 2))
      match k.rx with
      | none => .tag
      | some key => if refTag key hub sd seq (f.take 12) = f.drop 12 then .ok seq ((f.drop 3).take 9) else .tag

namespace State

/-! The hub. -/

/-- Does the hub's referee link run? -/
def hubRef (s : State) : Bool := s.alive && s.isHub && s.is F.SYS_TOPO_TWIN && s.runs Pg.REF

/-- A frame from the referee is received; `f` takes the body of a valid one. -/
def refereeRx (s : State) (t : Nat) (bs : List Byte) (f : State → List Byte → State) : State :=
  match refCheck s.twin.ref s.hubNo s.side t bs with
  | .other => s
  | .crc | .format | .tag => s.bump F.REF_HCNT_RXERR
  | .ok seq body =>
    let s := match s.twin.refAt with
      | some t => s.monitorSel 4 0 ((s.now - t) / unitsPerNs)
      | none => s
    let s := { s with twin := { s.twin with
      ref := { s.twin.ref with rxSeq := some seq }, refAt := some s.now, refHeard := true, refLost := false } }
    f (s.count F.REF_HCNT_RXOK) body

/-- WATCH of a referee frame. -/
def refWatch (b : List Byte) : Nat := ofBe ((b.drop 2).take 2)

/-- A command that is not newer than OWN. -/
def staleCmd (s : State) : State := (s.bump F.REF_HCNT_STALE).event Pg.REF 12

/-- A TAKE (R558): OWN takes its watch and the hub becomes active. A newer watch already seen decides over it. -/
def takeCmd (s : State) (b : List Byte) : State :=
  let w := refWatch b
  if !newer w (s.get F.TWIN_WATCH_OWN) then s.staleCmd
  else
    let seen := s.get F.TWIN_WATCH_SEEN
    let s := ((s.setOwn w).set F.REF_HSTAT_LASTW w).event Pg.REF 10
    (s.becomeActive 1).when (newer seen w) (·.learnWatch seen)

/-- A YIELD (R558). -/
def yieldCmd (s : State) (b : List Byte) : State :=
  let w := refWatch b
  if !newer w (s.get F.TWIN_WATCH_OWN) then s.staleCmd
  else
    let s := s.when (newer w (s.get F.TWIN_WATCH_SEEN)) (·.set F.TWIN_WATCH_SEEN w)
    ((s.set F.REF_HSTAT_LASTW w).event Pg.REF 11).becomeStandby

/-- The hub's HB (R550), or while the link is not keyed its four KX frames. -/
def hubHeartbeat (s : State) : State :=
  if s.twin.ref.rx.isSome then
    let n := s.twin.ref.txSeq
    let body := beBytes 2 (s.cycle % 65536) ++ beBytes 2 (s.get F.TWIN_WATCH_SEEN) ++ [BitVec.ofNat 8 s.healthByte] ++ beBytes 4 s.twin.wit
    { s with twin := { s.twin with
        ref := { s.twin.ref with txSeq := n + 1 }
        refSent := refFrame 0x11 n body (refTag (s.twin.ref.tx.getD 0) s.hubNo s.side n) } }
  else
    let (d, s) := if s.twin.ref.priv = 0 then s.drawScalar else (s.twin.ref.priv, s)
    let (str, s) := s.kxOwn d (pubOf d)
    { s with twin := { s.twin with
        ref := { s.twin.ref with priv := d, txSeq := s.twin.ref.txSeq + 4 }
        refSent := kxFrames s.twin.ref.txSeq str } }

/-- An interval of HB_T ends: frames heard in consecutive intervals end self-arbitration (R564). -/
def intervalEnd (s : State) : State :=
  let run := if s.twin.refHeard then s.twin.refRun + 1 else 0
  let s := { s with twin := { s.twin with refRun := run, refHeard := false } }
  if s.is F.TWIN_STAT_SELF && decide (s.nMiss ≤ run) then (s.set F.TWIN_STAT_SELF 0).event Pg.REF 9 else s

/-- A chunk of the referee's string at the hub: the exchange completes with the last one (R182). -/
def hubKx (s : State) (b : List Byte) : State :=
  if s.twin.ref.rx.isSome ∨ s.twin.ref.priv = 0 then s
  else
    let j := (nth b 0 0).toNat
    if 3 < j then s.bump F.REF_HCNT_RXERR
    else
      let m := kvSet (if j = 0 then [] else s.twin.ref.chunks) j (b.drop 2)
      let s := { s with twin := { s.twin with ref := { s.twin.ref with chunks := m } } }
      match kxJoined m with
      | none => s
      | some str =>
        let s := { s with twin := { s.twin with ref := { s.twin.ref with chunks := [] } } }
        let own := pubOf s.twin.ref.priv
        let his := kxEph str
        let id := keyId (kxPub str)
        if !kxSound str (own ++ his) ∨ !s.isPeer id 2 then s.peerRefused
        else match ecdhX s.twin.ref.priv his with
          | none => s.peerRefused
          | some x =>
            let k : LinkKeys := {
              tx := some (kxKey "PX down" x own his s.devId id), rx := some (kxKey "PX up" x own his s.devId id) }
            { s with twin := { s.twin with ref := k } }.set F.REF_HSTAT_KEYED 1

/-! The referee. -/

def refLink (s : State) (l : Nat) : RefLinkSt := nth s.refLinks l {}
def setRefLink (s : State) (l : Nat) (x : RefLinkSt) : State := { s with refLinks := setAt {} s.refLinks l x }
def refPair (s : State) (p : Nat) : RefPairSt := nth s.refPairs p {}
def setRefPair (s : State) (p : Nat) (x : RefPairSt) : State := { s with refPairs := setAt {} s.refPairs p x }

/-- Does the part run as a referee? Its links are supervised whether or not their pair is enabled (R19, R553). -/
def refOn (s : State) : Bool := s.alive && s.isRef && s.runs Pg.REF

/-- Does the referee serve pair `p`: a pair with EN = 1 (R569)? -/
def refServes (s : State) (p : Nat) : Bool := s.refOn && decide (p < 2) && s.is (F.REF_PCFG_EN p)

/-- The hub number of pair `p`'s tags: twice the referee's number plus `p` (DEDUCED from R20, log 90). -/
def pairHub (s : State) (p : Nat) : Nat := 2 * s.get F.SYS_NODE_REFNO + p

/-- NMISS of a pair. -/
def pairMiss (s : State) (p : Nat) : Nat := let n := s.get (F.REF_PCFG_NMISS p); if 2 ≤ n ∧ n ≤ 16 then n else 4

/-- HB_T of a pair in units of network time (R573). -/
def pairHbT (s : State) (p : Nat) : Nat :=
  let n := s.get (F.REF_PCFG_HBT p)
  (if 4 ≤ n ∧ n ≤ 40 then n else 5) * 1000 * unitsPerNs

/-- The hub (0 A, 1 B) recorded as active. -/
def pairActive (s : State) (p : Nat) : Option Nat :=
  match s.get (F.REF_PSTAT_ACT p) with
  | 1 => some 0
  | 2 => some 1
  | _ => none

/-- The newer of two watches. -/
def newest (a b : Nat) : Nat := if newer b a then b else a

/-- Bits of a link's last HEALTH. -/
def linkHealth (s : State) (l b : Nat) : Bool := bitOf (s.get (F.REF_LSTAT_HEALTH l)) b

/-- TAKE with watch `w` goes to hub `h`, YIELD to the other when `y`; both repeat for NMISS intervals at most. -/
def commandPair (s : State) (p h w : Nat) (y : Bool) (why : Nat) : State :=
  let s := ((s.set (F.REF_PSTAT_WATCH p) w).set (F.REF_PSTAT_ACT p) (h + 1)).set (F.REF_PSTAT_STATE p) 2
  let s := (s.set (F.REF_PLAST_WHY p) why).setRefPair p { s.refPair p with
    listening := false, takeTo := some h, yieldTo := if y then some (1 - h) else none, left := s.pairMiss p, collapse := 0 }
  s

/-- The newest of the pair's watch and every watch received on its links, plus 1 (R555). -/
def nextWatch (s : State) (p : Nat) : Nat := (newest (s.get (F.REF_PSTAT_WATCH p)) (s.refPair p).seen + 1) % 65536

/-- The newest of the pair's watch and those of the last HB of both hubs, plus 1 (R556). -/
def bothWatch (s : State) (p : Nat) : Nat :=
  (newest (newest (s.get (F.REF_PSTAT_WATCH p)) (s.get (F.REF_LW_WATCH (2 * p)))) (s.get (F.REF_LW_WATCH (2 * p + 1))) + 1) % 65536

/-- TAKES and TAKE_SENT; CYC16 is that of the failed active, where there is one. -/
def takeMade (s : State) (p : Nat) (failed : Option Nat) : State :=
  let s := (s.bump (F.REF_PCNT_TAKES p)).event Pg.REF (16 + p)
  let s := s.ltAdd 1 1
  match failed with
  | some h => s.set (F.REF_PLAST_CYC16 p) (s.get (F.REF_LW_CYC16 (2 * p + h)))
  | none => s

/-- On a failure of the active hub `h` for the reason `why`, the standby is checked (R555). -/
def hubFailed (s : State) (p h why : Nat) : State :=
  let l := 2 * p + (1 - h)
  let ok := s.is (F.REF_LSTAT_VALID l) && !s.linkHealth l 2 && (s.linkHealth l 1 || s.is (F.REF_PCFG_UNREADY p))
  if ok then (s.commandPair p (1 - h) (s.nextWatch p) true why).takeMade p (some h)
  else
    let s := ((s.bump (F.REF_PCNT_NOSTBY p)).event Pg.REF (18 + p)).set (F.REF_PSTAT_STATE p) 3
    s.setRefPair p { s.refPair p with why := why }

/-- Does the failure that found no standby still hold? -/
def stillFailed (s : State) (p h : Nat) : Bool :=
  match (s.refPair p).why with
  | 1 => decide (s.pairMiss p ≤ s.get (F.REF_LSTAT_MISS (2 * p + h)))
  | 2 => s.linkHealth (2 * p + h) 2
  | _ => decide (max 1 (s.get (F.REF_PWIT_WCOL p)) ≤ (s.refPair p).collapse)

/-- An interval of HB_T of pair `p` ends: a repeat is used up, or the check of R555 runs again. -/
def pairInterval (s : State) (p : Nat) : State :=
  let q := s.refPair p
  match s.get (F.REF_PSTAT_STATE p) with
  | 2 =>
    if q.left ≤ 1 then (s.setRefPair p { q with takeTo := none, yieldTo := none, left := 0 }).set (F.REF_PSTAT_STATE p) 1
    else s.setRefPair p { q with left := q.left - 1 }
  | 3 =>
    match s.pairActive p with
    | some h =>
      if s.stillFailed p h then s.hubFailed p h (s.refPair p).why else s.set (F.REF_PSTAT_STATE p) 1
    | none => s
  | _ => s

/-- One frame on link `l` of a keyed link: TAKE, YIELD or RST (R551). -/
def sendLink (s : State) (p h : Nat) : State :=
  let l := 2 * p + h
  let x := s.refLink l
  match x.keys.tx with
  | none => s
  | some key =>
    let q := s.refPair p
    let type := if q.takeTo = some h then 0x22 else if q.yieldTo = some h then 0x23 else 0x21
    let role := if type = 0x22 then 1 else if type = 0x23 then 0 else b2n (s.pairActive p == some h)
    let body := beBytes 2 x.echo ++ beBytes 2 (s.get (F.REF_PSTAT_WATCH p)) ++ [BitVec.ofNat 8 role] ++ beBytes 4 0
    let n := x.keys.txSeq
    s.setRefLink l { x with
      keys := { x.keys with txSeq := n + 1 }, sent := refFrame type n body (refTag key (s.pairHub p) h n) }

/-- The outcome of R555 step 3 ends the repeats of a command to hub `h`. -/
def outcome (s : State) (p h : Nat) : State :=
  let q := s.refPair p
  let l := 2 * p + h
  let took := q.takeTo == some h && s.linkHealth l 0 && s.get (F.REF_LW_WATCH l) == s.get (F.REF_PSTAT_WATCH p)
  let gave := q.yieldTo == some h && !s.linkHealth l 0
  let q := { q with takeTo := if took then none else q.takeTo, yieldTo := if gave then none else q.yieldTo }
  let s := s.setRefPair p q
  if s.get (F.REF_PSTAT_STATE p) = 2 ∧ q.takeTo.isNone ∧ q.yieldTo.isNone then
    (s.setRefPair p { q with left := 0 }).set (F.REF_PSTAT_STATE p) 1
  else s

/-- The witness criterion of R554 on an HB of the standby. -/
def witnessHb (s : State) (p w : Nat) : State :=
  let pct := s.get (F.REF_PWIT_WPCT p)
  let bad := s.is (F.REF_PWIT_WEN p) && decide (8 ≤ w / 65536 % 2048) && decide (w / 256 % 256 < pct) && decide (pct ≤ w % 256)
  s.setRefPair p { s.refPair p with collapse := if bad then (s.refPair p).collapse + 1 else 0 }

/-- A valid HB of hub `h` is judged: both hubs active, a newer watch, a failure (R554, R556). -/
def judgeHb (s : State) (p h : Nat) : State :=
  let l := 2 * p + h
  let both := s.is (F.REF_LSTAT_VALID (2 * p)) && s.is (F.REF_LSTAT_VALID (2 * p + 1)) && s.linkHealth (2 * p) 0 && s.linkHealth (2 * p + 1) 0
  let st := s.get (F.REF_PSTAT_STATE p)
  if (s.refPair p).listening ∨ st = 2 then s
  else if both then
    let keep := if newer (s.get (F.REF_LW_WATCH (2 * p + 1))) (s.get (F.REF_LW_WATCH (2 * p))) then 1 else 0
    (s.commandPair p keep (s.bothWatch p) true 6).bump (F.REF_PCNT_REWATCH p)
  else if s.pairActive p = some h then
    let w := s.get (F.REF_LW_WATCH l)
    let s := if newer w (s.get (F.REF_PSTAT_WATCH p)) then
        (s.commandPair p h ((w + 1) % 65536) false 5).bump (F.REF_PCNT_REWATCH p)
      else s
    if s.linkHealth l 2 ∧ st ≠ 3 then s.hubFailed p h 2 else s
  else if s.pairActive p = some (1 - h) ∧ st ≠ 3 ∧ max 1 (s.get (F.REF_PWIT_WCOL p)) ≤ (s.refPair p).collapse then
    s.hubFailed p (1 - h) 3
  else s

/-- A valid HB on link `l`; only an enabled pair is judged (R553, R554). -/
def linkHb (s : State) (l : Nat) (b : List Byte) : State :=
  let p := l / 2
  let u (o n : Nat) : Nat := ofBe ((b.drop o).take n)
  let s := match (s.refLink l).lastHb with
    | some t => s.monitorSel 4 l ((s.now - t) / unitsPerNs)
    | none => s
  let s := s.setRefLink l { s.refLink l with echo := u 0 2, lastHb := some s.now }
  let s := ((s.count (F.REF_LCNT_OK l)).set (F.REF_LSTAT_MISS l) 0).set (F.REF_LSTAT_VALID l) 1
  let s := ((s.set (F.REF_LSTAT_HEALTH l) (u 4 1)).setReg (R.REF_LWIT l) (BitVec.ofNat 32 (u 5 4)))
  let s := (s.set (F.REF_LW_CYC16 l) (u 0 2)).set (F.REF_LW_WATCH l) (u 2 2)
  let s := s.setRefPair p { s.refPair p with seen := newest (s.refPair p).seen (u 2 2) }
  if !s.is (F.REF_PCFG_EN p) then s
  else
    let s := s.outcome p (l % 2)
    let s := s.when (s.pairActive p == some (1 - l % 2)) (·.witnessHb p (u 5 4))
    s.judgeHb p (l % 2)

/-- A chunk of a hub's string at the referee; the exchange completes with the last one, and the referee's own four frames
follow (R182, R550). -/
def linkKx (s : State) (l : Nat) (b : List Byte) : State :=
  let j := (nth b 0 0).toNat
  if 3 < j then s.bump (F.REF_LCNT_CRC l)
  else
    let x := s.refLink l
    let m := kvSet (if j = 0 then [] else x.keys.chunks) j (b.drop 2)
    let s := s.setRefLink l { x with keys := { x.keys with chunks := m } }
    match kxJoined m with
    | none => s
    | some str =>
      let s := s.setRefLink l { x with keys := { x.keys with chunks := [] } }
      let his := kxEph str
      let id := keyId (kxPub str)
      if !kxSound str his ∨ !s.isPeer id 3 then s.peerRefused
      else
        let (d, s) := s.drawScalar
        match ecdhX d his with
        | none => s.peerRefused
        | some e =>
          let own := pubOf d
          let (mine, s) := s.kxOwn d (his ++ own)
          let k : LinkKeys := {
            rx := some (kxKey "PX down" e his own id s.devId), tx := some (kxKey "PX up" e his own id s.devId) }
          (s.setRefLink l { s.refLink l with keys := k, sent := kxFrames 0 mine }).set (F.REF_LSTAT_KEYED l) 1

/-- An interval of HB_T without a valid HB on link `l` (R553). -/
def linkMissed (s : State) (l : Nat) : State :=
  let p := l / 2
  let s := s.when (s.is (F.REF_LSTAT_VALID l)) (·.event Pg.REF (20 + l))
  let s := (s.bump (F.REF_LSTAT_MISS l)).set (F.REF_LSTAT_VALID l) 0
  if s.is (F.REF_PCFG_EN p) ∧ !(s.refPair p).listening ∧ s.pairActive p = some (l % 2) ∧ s.get (F.REF_PSTAT_STATE p) ≠ 3
      ∧ (s.refPair p).takeTo ≠ some (l % 2) ∧ s.pairMiss p ≤ s.get (F.REF_LSTAT_MISS l) then
    s.hubFailed p (l % 2) 1
  else s

/-- The referee listens afresh (R557): after a reset, and when EN of its page rises. -/
def listenAfresh (s : State) : State :=
  forUpTo (fun p t => (((t.set (F.REF_PSTAT_STATE p) 0).set (F.REF_PSTAT_ACT p) 0)).setRefPair p { seen := (t.refPair p).seen, since := t.now }) 2 s

/-- The end of listening (R557). -/
def listenEnd (s : State) (p : Nat) : State :=
  let claims (h : Nat) : Bool := s.is (F.REF_LSTAT_VALID (2 * p + h)) && s.linkHealth (2 * p + h) 0
  let watch (h : Nat) : Nat := s.get (F.REF_LW_WATCH (2 * p + h))
  let adopt (h : Nat) : State :=
    ((s.set (F.REF_PSTAT_ACT p) (h + 1)).set (F.REF_PSTAT_WATCH p) (watch h)).set (F.REF_PSTAT_STATE p) 1
      |>.setRefPair p { s.refPair p with listening := false }
  if claims 0 && claims 1 then adopt (b2n (newer (watch 1) (watch 0)))
  else if claims 0 then adopt 0
  else if claims 1 then adopt 1
  else
    let pref := s.get (F.REF_PCFG_PREF p)
    let ok := s.is (F.REF_LSTAT_VALID (2 * p + pref)) && !s.linkHealth (2 * p + pref) 2
    (s.commandPair p (if ok then pref else 1 - pref) (s.nextWatch p) false 4).takeMade p none

end State

open State

/-- The next instant after the last HB that is a multiple of HB_T from the epoch; with none sent, now (R551). -/
def State.nextHb (s : State) : Nat :=
  match s.twin.hbAt with
  | some t => (t / s.hbT + 1) * s.hbT
  | none => s.now

/-- HEARTBEAT_TX: at a multiple of HB_T the hub sends one HB (R551). -/
def execHeartbeatTx (s : State) : Out :=
  act s s.hubRef fun s =>
    let s := s.reach s.nextHb
    { s with twin := { s.twin with hbAt := some s.now } }.intervalEnd.hubHeartbeat

/-- REFEREE_FRAME_TX: at each HB_T the referee sends one frame to each hub of an enabled pair (R551, R569). -/
def execRefereeFrameTx (pair : Nat) (s : State) : Out :=
  act s (s.refServes pair) fun s =>
    let s := match (s.refPair pair).lastTx with
      | some t => s.reach (t + s.pairHbT pair)
      | none => s
    let s := s.setRefPair pair { s.refPair pair with lastTx := some s.now }
    if (s.refPair pair).listening then (s.sendLink pair 0).sendLink pair 1
    else
      let s := (s.sendLink pair 0).sendLink pair 1
      s.pairInterval pair

/-- REF_HB_RX (R549, R553). -/
def execRefHbRx (link : Nat) (frame : List Byte) (s : State) : Out :=
  act s (s.refOn && decide (link < 4)) fun s =>
    match refCheck (s.refLink link).keys (s.pairHub (link / 2)) (link % 2) 0x11 frame with
    | .other => s
    | .crc | .format => s.bump (F.REF_LCNT_CRC link)
    | .tag => s.bump (F.REF_LCNT_TAG link)
    | .ok seq body =>
      let x := s.refLink link
      (s.setRefLink link { x with keys := { x.keys with rxSeq := some seq } }).linkHb link body

/-- LINK_MISS (R553). -/
def execLinkMiss (link : Nat) (s : State) : Out := act s (s.refOn && decide (link < 4)) fun s => s.linkMissed link

/-- REFEREE_LISTEN_END (R557). -/
def execRefereeListenEnd (pair : Nat) (s : State) : Out :=
  act s (s.refServes pair && (s.refPair pair).listening) fun s =>
    (s.reach ((s.refPair pair).since + (s.pairMiss pair + 1) * s.pairHbT pair)).listenEnd pair

/-- REFEREE_KX: a chunk arrives at either end of a referee link; a hub has one link, whatever `link` says (R550). -/
def execRefereeKx (link : Nat) (frame : List Byte) (s : State) : Out :=
  if s.isHub then
    act s s.hubRef fun s =>
      match refCheck s.twin.ref s.hubNo s.side 0x31 frame with
      | .ok _ body => s.hubKx body
      | .other => s
      | _ => s.bump F.REF_HCNT_RXERR
  else
    act s (s.refServes (link / 2)) fun s =>
      match refCheck (s.refLink link).keys (s.pairHub (link / 2)) (link % 2) 0x31 frame with
      | .ok _ body => s.linkKx link body
      | .other => s
      | _ => s.bump (F.REF_LCNT_CRC link)

/-- TAKE_RX (R558). -/
def execTakeRx (frame : List Byte) (s : State) : Out := act s s.hubRef fun s => s.refereeRx 0x22 frame takeCmd

/-- YIELD_RX (R558). -/
def execYieldRx (frame : List Byte) (s : State) : Out := act s s.hubRef fun s => s.refereeRx 0x23 frame yieldCmd

/-- RST_RX (R550, R532). -/
def execRstRx (frame : List Byte) (s : State) : Out :=
  act s s.hubRef fun s => s.refereeRx 0x21 frame fun s b => s.learnWatch (refWatch b)

end Sys2Proof.Machine
end

