-- ==== Sys2Proof/Machine/Upstream.lean ====
section
/-! DEFINITION. Upstream bursts at a hub, timetable rounds, grants, silence, the babble guard and the babbler search
(R273 to R285, R290, R305 to R326), key renewal and the witness counts. -/

namespace Sys2Proof.Machine

/-- The checks of a burst of `TYPE` `type` (R285), in their order; `own` is the berth index whose slot it is. -/
inductive BurstCheck where
  | sync | code | crc | format | tag | ok
  deriving DecidableEq, Repr

/-- A digest tag (R303): the first 8 bytes of SHA-256 over header and payload. -/
def digestTag (hdr : List Byte) : List Byte := (sha256 hdr).take 8

/-- Does the CRC of a burst check (R246, R280)? -/
def burstCrc (bs : List Byte) : Bool := bs.length == 40 && crcBytes (bs.take 36) == bs.drop 36

namespace State

/-- Does tree port `p` receive (R342)? -/
def portRx (s : State) (p : Nat) : Bool := s.alive && s.isHub && decide (p < 4) && s.runs (Pg.TREE p)

/-- Does tree port `p` take bursts from its lane? -/
def portHears (s : State) (p : Nat) : Bool := s.portRx p && s.laneHears p

/-- A burst on lane `p` with its sync word found: the receiver has locked on it and sees light (R212; DEDUCED, log 124). An
eye scan compares the 420 bits from its sync word to its CRC, of all berths or of ES_BERTH's (R207). -/
def burstLight (s : State) (p : Nat) (berth : Option Nat) : State :=
  let s := (s.set (F.LANE_STAT_CDR_LOCK p) 1).set (F.LANE_STAT_LOS p) 0
  let mine := !s.is (F.LANE_ES_BERTH_EN p) || berth == some (s.get (F.LANE_ES_BERTH_BERTH p))
  if s.is (F.LANE_ES_STAT_BUSY p) && mine then s.setLane p { s.lane p with esBits := (s.lane p).esBits + 420 } else s

/-! Slots and their owners, R274, R277 and R278. -/

/-- The report slot that berth `b` of port `p` uses in round `n`; none before its first slot begins. -/
def reportSlot (s : State) (p b n : Nat) : Option Nat :=
  let x := s.berth (256 * p + b)
  if !held x ∨ !x.rsv then none
  else match (s.port p).rslots.find? fun g => g.1 == b && decide (n < g.2.2.1) with
    | some (_, _, _, old) => if old = 256 then none else some old
    | none => some x.rslot

/-- The berth of port `p` that owns slot `slot` of round `n`. -/
def slotOwner (s : State) (p slot n : Nat) : Option Nat :=
  if slot % 33 = 32 then
    ((s.port p).grants.find? fun g => g.2.1 == slot / 33 && g.2.2 == n).map (·.1)
  else
    ((s.portBerths p held).map (· % 256)).find? fun b => s.reportSlot p b n == some (slot - slot / 33)

/-- The full number of a cycle of which the burst gives the low 16 bits (R281). -/
def burstCycle (s : State) (c16 : Nat) : Option Nat :=
  let d := (s.cycle + 65536 - c16 % 65536) % 65536
  if d ≤ s.cycle then some (s.cycle - d) else none

/-- Is the session key before a renewal still valid: for one round after its switch cycle (R186)? -/
def oldKeyHolds (s : State) (p ksw : Nat) : Bool := decide ((s.now : Int) < s.meridianAt ksw + groupAt (s.rate p) 1 0)

/-- Does the tag of a burst verify: a digest tag while the berth's admission is in progress, else under the session key, a
renewed one from its switch cycle on, the one before it until a round later (R186, R303)? -/
def burstTag (s : State) (p b type : Nat) (hdr tag : List Byte) : Bool :=
  let x := s.berth (256 * p + b)
  if x.admission.isSome then decide (type = 2) && tag == digestTag hdr
  else match s.burstCycle (ofBe ((hdr.drop 2).take 2)) with
    | none => false
    | some k =>
      let good (key : Option Key) : Bool := match key with
        | some key => gmac key (tagIv (type + 1) s.hubNo s.side p b k) hdr == tag
        | none => false
      match x.oldSession with
      | some (old, ksw) => (decide (ksw ≤ k) && good x.session) || (s.oldKeyHolds p ksw && good (some old))
      | none => good x.session

/-- The checks of R285 on a burst in slot `slot` of round `n`. -/
def burstCheck (s : State) (p slot n : Nat) (syncFound codeOk : Bool) (bs : List Byte) : BurstCheck :=
  let type := if slot % 33 = 32 then 2 else 1
  if !syncFound then .sync
  else if !codeOk then .code
  else if !burstCrc bs then .crc
  else match s.slotOwner p slot n with
    | none => .format
    | some b =>
      if (nth bs 1 0).toNat ≠ type ∨ (nth bs 0 0).toNat ≠ b then .format
      else if s.burstTag p b type (bs.take 28) ((bs.drop 28).take 8) then .ok
      else .tag

/-- The port's counter of a drop. -/
def dropCount (p : Nat) : BurstCheck → Fld
  | .crc => F.TREE_RXERR_CRC p
  | .tag => F.TREE_RXERR_TAG p
  | .code => F.TREE_RXERR2_CODE p
  | _ => F.TREE_RXERR2_FORMAT p

/-- A drop is counted for the port and for the berth whose slot it was. -/
def burstDrop (s : State) (p slot n : Nat) (c : BurstCheck) : State :=
  let s := (s.bump (dropCount p c)).event (Pg.TREE p) 9
  let s := if c = .format then s.stranger (F.BERTH_STR_SLOT p) else s
  match s.slotOwner p slot n with
  | none => s
  | some b =>
    let i := 256 * p + b
    let x := s.berth i
    s.setBerth i (match c with
      | .crc => { x with crc := satAdd 16 x.crc 1 }
      | .tag => { x with tag := satAdd 16 x.tag 1 }
      | .code => { x with code := satAdd 16 x.code 1 }
      | _ => { x with format := satAdd 16 x.format 1 })

/-! The phase word, R213 and R319. -/

/-- 100 times the 1/64 ns in 1/64 UI of lane `p`. -/
def uiShare (s : State) (p : Nat) : Int := if s.rate p = 2 then 16 else 32

/-- The phase word of berth `i` is refreshed after an accepted burst; the drift of a whole DRIFTLIM moves RTTN and the
delays. -/
def phaseRefresh (s : State) (i phase align : Nat) : State :=
  let p := i / 256
  let b := s.berth i
  let d := signed 6 (phase + 64 - b.ph)
  let s := s.when (decide (16 < d.natAbs)) (·.bump (F.LANE_BCNT_PHJUMP p))
  let drift := b.drift + d
  let lim := max 1 (s.get F.BERTH_CFG_DRIFTLIM)
  let s := s.setBerth i { b with ph := phase % 64, align := align % 16, drift := drift }
  if drift.natAbs < lim then s
  else
    let step := (drift * s.uiShare p + 50) / 100
    let b := s.berth i
    let s := s.setBerth i { b with rttn := (b.rttn + step).toNat % 2 ^ 24, drift := 0, reranges := satAdd 8 b.reranges 1 }
    ((s.computeDelays i).sendDelay i).event Pg.BERTH 17

/-! Accepted reports, R285 and R321. -/

/-- A report of berth `i` is accepted. -/
def reportAccepted (s : State) (i : Nat) (r : Report) : State :=
  let st := r.status
  let b := s.berth i
  let s := s.setBerth i { b with
    link := .admitted, ok := (b.ok + 1) % 65536, quiet := 0, silence := 0, seenThisRound := true, mreq := bitOf st 7
    mreqAt := if b.mreq then b.mreqAt else s.now, needImg := bitOf st 9,
    perm := b.perm || st % 4 == 2, fsa := r.field 22 1, fsb := r.field 23 1 }
  let s := { s with recd := { s.recd with evf := s.recd.evf.set b.arm (nth s.recd.evf b.arm 0 ||| r.evflags) } }
  let s := (s.observerReport i r).reportItems i r.cyc r.evflags
  s.when (b.romb && decide (st / 1024 % 4 = 0)) (·.bootEnded i)

/-- A burst in a report or management slot of port `p`. -/
def burstRx (s : State) (p slot : Nat) (syncFound codeOk : Bool) (bs : List Byte) (phase align : Nat) : State :=
  let n := s.roundNow p
  let s := match s.slotOwner p slot n with
    | some b => if slot % 33 = 32 then s else s.setBerth (256 * p + b) { s.berth (256 * p + b) with lit := true }
    | none => s
  let s := (s.when syncFound fun s => s.burstLight p (s.slotOwner p slot n)).codeGroups p codeOk
  match s.burstCheck p slot n syncFound codeOk bs with
  | .ok =>
    let i := 256 * p + (nth bs 0 0).toNat
    let s := (s.count ⟨R.TREE_RXOK p, 0, 32⟩).phaseRefresh i phase align
    if slot % 33 = 32 then s
    else
      let k := (s.burstCycle (ofBe ((bs.drop 2).take 2))).getD s.cycle
      s.reportAccepted i { cyc := k, slotAt := slotAt (s.rate p) n slot, payload := (bs.drop 4).take 24, got := s.now }
  | c => s.burstDrop p slot n c

/-! The boarding zone, R285, R303 and R305. -/

/-- A hub function of the BERTH page on port `p`: the page runs (R691). -/
def berthOn (s : State) (p : Nat) : Bool := s.portRx p && s.runs Pg.BERTH

/-- The checks of R285 on a burst in the zone of round `n`, a digest tag in place of step 5 (R303). TYPE 3 is valid in even
rounds and TYPE 4 in odd ones, under a berth whose admission is in progress (R299, R309); none while the zone is quiet. -/
def zoneCheck (s : State) (p n : Nat) (syncFound codeOk : Bool) (bs : List Byte) : BurstCheck :=
  let b := (nth bs 0 0).toNat
  if !syncFound then .sync
  else if !codeOk then .code
  else if !burstCrc bs then .crc
  else if !s.berthOn p ∨ !s.boarding p ∨ (nth bs 1 0).toNat ≠ 3 + n % 2
      ∨ !(if n % 2 = 0 then b == 0 else (s.berth (256 * p + b)).admission.isSome) then .format
  else if (bs.drop 28).take 8 = digestTag (bs.take 28) then .ok
  else .tag

/-- A burst dropped in the zone, which no berth owns: counted for the port, and at step 4 as a stranger, a boarding burst in
UNKNOWN, another in SLOT (R320). -/
def zoneDrop (s : State) (p : Nat) (bs : List Byte) (c : BurstCheck) : State :=
  let s := (s.bump (dropCount p c)).event (Pg.TREE p) 9
  if c = .format then s.stranger (if (nth bs 1 0).toNat = 3 then F.BERTH_STR_UNKNOWN p else F.BERTH_STR_SLOT p) else s

/-- A burst in the boarding zone of port `p`, its arrival A and the phase word measured on it. -/
def zoneRx (s : State) (p : Nat) (syncFound codeOk : Bool) (bs : List Byte) (arrival phase align : Nat) : State :=
  let n := roundAt (s.rate p) arrival
  let s := (s.when syncFound fun s => s.burstLight p none).codeGroups p codeOk
  match s.zoneCheck p n syncFound codeOk bs with
  | .ok =>
    let s := s.count ⟨R.TREE_RXOK p, 0, 32⟩
    let pl := (bs.drop 4).take 24
    if n % 2 = 0 then s.boardingRx p pl arrival else s.rangingRx p (nth bs 0 0).toNat pl arrival phase align
  | c => s.zoneDrop p bs c

/-! The babbler search, R325 and R326. -/

/-- SRCHK marks the berths whose lasers the search holds killed. -/
def searchMarks (s : State) (p : Nat) (dark : List Nat) : State :=
  (s.portBerths p fun _ => true).foldl (fun t i =>
    let b := t.berth i
    let d := dark.contains (i % 256)
    if b.srchk = d ∧ (b.srchRound || !d) then t else t.setBerth i { b with srchk := d, srchRound := b.srchRound || d }) s

/-- The next step of the search of port `p`: kill all, restore all suspects but those to stay dark. -/
def searchLaunch (s : State) (p : Nat) (x : Search) : State :=
  let check := decide (x.s.length ≤ 1)
  let dark := if check then x.s else x.s.take ((x.s.length + 1) / 2)
  let s := s.setPort p { s.port p with
    search := some { x with k := dark, check := check }
    killAll := true, restores := some (x.s0.filter fun b => !dark.contains b && (s.berth (256 * p + b)).link == .admitted) }
  (s.searchMarks p dark).bump (F.BERTH_SRCH_STEP p)

/-- A search starts. -/
def searchStart (s : State) (p : Nat) : State :=
  let l := (s.portBerths p fun b => b.link == .admitted).map (· % 256)
  let s := ((s.set (F.BERTH_SRCH_RUN p) 1).set (F.BERTH_SRCH_RESULT p) 0).set (F.BERTH_SRCH_STEP p) 0
  let s := s.bump (F.BERTH_LIGHT_SEARCHES p)
  (s.setPort p { s.port p with lightRun := 0 }).searchLaunch p { s := l, s0 := l, k := [], check := false }

/-- A search ends without a babbler found: every suspect is lit again. -/
def searchUnknown (s : State) (p : Nat) (x : Search) : State :=
  let s := s.setPort p { s.port p with search := none, restores := some x.s0 }
  (((s.searchMarks p []).set (F.BERTH_SRCH_RUN p) 0).set (F.BERTH_SRCH_RESULT p) 2).event Pg.BERTH 16

/-- The observation of a step. A search that sees no light in any step ends as unknown; its suspects are restored
(DEDUCED, log 29). -/
def searchObserve (s : State) (p : Nat) (x : Search) (light : Bool) : State :=
  let x := { x with light := x.light || light }
  if !x.check then s.searchLaunch p { x with s := if light then x.s.filter fun b => !x.k.contains b else x.k }
  else if light ∨ !x.light then s.searchUnknown p x
  else match x.s with
    | [] => s.searchUnknown p x
    | b :: _ =>
      let i := 256 * p + b
      let s := s.setPort p { s.port p with search := none }
      let s := (s.searchMarks p []).setBerth i { s.berth i with link := .babbler, srchk := false }
      let s := ((s.set (F.BERTH_SRCH_RUN p) 0).set (F.BERTH_SRCH_RESULT p) 1).set (F.BERTH_SRCH_BERTH p) b
      s.event Pg.BERTH 15

/-! A round begins, R273, R321, R323 and R547. -/

/-- The berths of port `p` as a round ends: QUIET, silence, slots without light (R321, R329). Rounds in which the search held
the berth's laser killed do not count towards silence. -/
def berthsRound (s : State) (p n : Nat) (light : List LightRun) : State :=
  let lim := max 1 (s.get F.BERTH_CFG_SILENT_R)
  (s.portBerths p held).foldl (fun t i =>
    let b := t.berth i
    let quiet := if b.seenThisRound then 0 else min 255 (b.quiet + 1)
    let silence := if b.seenThisRound then 0 else if b.srchk || b.srchRound then b.silence else min 255 (b.silence + 1)
    let dark := !b.lit && match t.reportSlot p (i % 256) (n - 1) with
      | some r => !light.any fun x => x.slot == reportIdx r
      | none => false
    let falls := b.link == .admitted && decide (lim ≤ silence)
    let old := match b.oldSession with
      | some (_, ksw) => if t.oldKeyHolds p ksw then b.oldSession else none
      | none => none
    let t := t.setBerth i { b with
      quiet := quiet, silence := silence, srchRound := b.srchk, lit := false, seenThisRound := false, oldSession := old
      miss := if dark then satAdd 16 b.miss 1 else b.miss
      link := if falls then .silent else b.link }
    t.when falls (·.event Pg.BERTH 10)) s

/-- Is all of slot `slot` of round `n` watched, code groups 1 to 51: a report slot without an admitted berth, a management
slot not granted, a slot of a quiet zone (R323)? -/
def slotWatched (s : State) (p slot n : Nat) : Bool :=
  if s.zoneSlot p ≤ slot then !s.boarding p else (s.slotOwner p slot n).isNone

/-- Does light fall in a watched code group of round `n`: 50 and 51 of every slot, all of a watched one (R323)? -/
def unslotted (s : State) (p n : Nat) (light : List LightRun) : Bool :=
  light.any fun x =>
    let hits (a b : Nat) : Bool := decide (x.first ≤ b) && decide (a ≤ x.last)
    decide (x.slot < 268) && (hits 50 51 || (s.slotWatched p x.slot n && hits 1 51))

/-- Unslotted light in the round that ends (R323); LTHR such rounds let a search start (BABBLER_SEARCH_GO). -/
def lightRound (s : State) (p : Nat) (light : Bool) : State :=
  let s := s.set (F.BERTH_LIGHT_LIGHT p) (b2n light)
  if !light then s.setPort p { s.port p with lightRun := 0 }
  else
    let s := (s.bump (F.BERTH_LIGHT_ROUNDS p)).event Pg.BERTH 14
    s.setPort p { s.port p with lightRun := (s.port p).lightRun + 1 }

/-- Round `n` of port `p` begins; `light` was seen in the one that ends. -/
def portRound (s : State) (p n : Nat) (light : List LightRun) : State :=
  let un := s.unslotted p (n - 1) light
  let s := (s.setReg (R.TREE_ROUND_LO p) (BitVec.ofNat 32 n)).set (F.TREE_ROUND_HI_ROUND p) (n / 2 ^ 32)
  let s := ((s.berthsRound p n light).unobservedRounds p).lightRound p un
  let s := s.setPort p { s.port p with rslots := (s.port p).rslots.filter fun g => decide (n < g.2.2.1) }
  (s.renewRound p n).grantsFor p (n + 1)

/-- The witness counts of R547 over all trees of the hub, and the run of rounds that R565 asks for. -/
def witness (s : State) : State :=
  let l := (s.berths.map (·.2)).filter fun b => b.link == .admitted && b.report.isSome && decide (b.quiet ≤ 2)
  let adm := l.length
  let self (b : BerthSt) : Nat := if b.upl = 0 then b.fsa else b.fsb
  let twin (b : BerthSt) : Nat := if b.upl = 0 then b.fsb else b.fsa
  let share (f : BerthSt → Nat) : Nat := if adm = 0 then 0 else 255 * (l.filter fun b => f b != 0).length / adm
  let s := { s with twin := { s.twin with wit := share self + share twin * 256 + adm % 2048 * 65536 } }
  { s with twin := { s.twin with collapse := if s.witnessCollapse then s.twin.collapse + 1 else 0 } }

/-- The round that begins next on lane `p`, when `last` has begun. -/
def nextRound (s : State) (p last : Nat) : Nat := max (s.roundNow p) (last + 1)

/-- Ports and rounds that begin next, and when. -/
def roundsDue (s : State) : List (Nat × Nat × Nat) :=
  ((List.range 4).filter s.portRx).map fun p =>
    let n := s.nextRound p ((s.reg (R.TREE_ROUND_LO p)).toNat + 2 ^ 32 * s.get (F.TREE_ROUND_HI_ROUND p))
    (groupAt (s.rate p) n 0, p, n)

/-- ROUND_BOUNDARY at a hub. -/
def hubRound (s : State) (light : List (List LightRun)) : State :=
  match s.roundsDue with
  | [] => s
  | d :: l =>
    let t := l.foldl (fun m x => min m x.1) d.1
    let due := (d :: l).filter fun x => decide (x.1 ≤ t)
    (due.foldl (fun s x => s.portRound x.2.1 x.2.2 (nth light x.2.1 [])) (s.reach t)).witness

/-- A round begins at uplink `u` of a cell: moves of the report slot, rounds of failed tags, the boarding wait and the
backoff, which an even round that ends counts down (R278, R304, R318). -/
def uplinkRound (s : State) (u n : Nat) : State :=
  let s := s.slotUpdate u n
  let x := s.uplink u
  s.setUplink u { x with
    round := n
    badRounds := if x.tagBad && !x.tagGood then x.badRounds + 1 else 0, tagBad := false, tagGood := false
    waitRounds := x.waitRounds.map (· + 1)
    backoff := if n % 2 = 1 ∧ x.boarding then x.backoff - 1 else x.backoff
    grants := x.grants.filter fun g => decide (n ≤ g.2) }

/-- ROUND_BOUNDARY at a cell. -/
def cellRound (s : State) : State :=
  let due := ((List.range 2).filter s.pathOn).map fun u =>
    let n := s.nextRound u (s.uplink u).round
    (groupAt (s.rate u) n 0, u, n)
  match due with
  | [] => s
  | d :: l =>
    let t := l.foldl (fun m x => min m x.1) d.1
    ((d :: l).filter fun x => decide (x.1 ≤ t)).foldl (fun s x => s.uplinkRound x.2.1 x.2.2) (s.reach t)

end State

open State

/-- BRST_PULSE: before each slot the hub drives BRSTp for W code groups, 1 to 4, ending LEAD code groups before the
preamble, or 5 - W where both would exceed 5 (R214); then it loads the phase word of the slot's berth (R212). The pulse is
that of the slot's next instant. -/
def execBrstPulse (port slot : Nat) (s : State) : Out :=
  act s (s.portHears port && decide (slot < 268)) fun s =>
    let r := s.rate port
    let w := max 1 (min 4 (s.get (F.LANE_BRST_W port)))
    let lead := min (s.get (F.LANE_BRST_LEAD port)) (5 - w)
    let n := if slotAt r (s.roundNow port) slot < s.now + groupAt r 0 (w + lead) then s.roundNow port + 1 else s.roundNow port
    let at' := slotAt r n slot
    let phase := if slot < 264 then
        (s.slotOwner port slot n).map fun b => ((s.berth (256 * port + b)).ph, (s.berth (256 * port + b)).align)
      else none
    let s := s.reach (at' - groupAt r 0 (w + lead))
    s.setLane port { s.lane port with
      brst := (w, lead), pulse := (at' - groupAt r 0 (w + lead), at' - groupAt r 0 lead), phase := phase }

/-- UPSTREAM_BURST_RX: a burst in a report or management slot (R212, R213, R285); in a slot of the boarding zone it is a burst
of that zone which arrived at the slot's instant. -/
def execUpstreamBurstRx (port slot : Nat) (syncFound codeOk : Bool) (burst : List Byte) (phase align : Nat) (s : State) : Out :=
  act s (s.portHears port && decide (slot < 268)) fun s =>
    if s.zoneSlot port ≤ slot then s.zoneRx port syncFound codeOk burst (slotAt (s.rate port) (s.roundNow port) slot) phase align
    else s.burstRx port slot syncFound codeOk burst phase align

/-- MGMT_BURST_RX: an accepted response (R290). -/
def execMgmtBurstRx (port berth : Nat) (payload : List Byte) (s : State) : Out :=
  act s (s.portHears port && decide (berth < 256)) fun s => s.mgmtBurst port berth payload learnWatch

/-- BOARDING_BURST_RX: a burst in the zone of an even round (R285, R303, R306). -/
def execBoardingBurstRx (port : Nat) (burst : ZoneBurst) (arrival : Nat) (s : State) : Out :=
  act s (s.portHears port && roundAt (s.rate port) arrival % 2 == 0) fun s =>
    s.zoneRx port burst.syncFound burst.codeOk burst.bytes arrival 0 0

/-- COLLISION: a zone showed light and no valid burst (R305). -/
def execCollision (port : Nat) (s : State) : Out :=
  act s (s.berthOn port) fun s => (s.bump (F.BERTH_BRD_COLL port)).event Pg.BERTH 12

/-- RANGING_BURST_RX: a burst in the zone of an odd round (R285, R303, R310). -/
def execRangingBurstRx (port : Nat) (syncFound codeOk : Bool) (burst : List Byte) (arrival : Nat) (sampled : Sampled)
    (s : State) : Out :=
  act s (s.portHears port && roundAt (s.rate port) arrival % 2 == 1) fun s =>
    s.zoneRx port syncFound codeOk burst arrival sampled.phase sampled.align

/-- RANGING_TIMEOUT (R311). -/
def execRangingTimeout (port berth : Nat) (s : State) : Out :=
  act s (s.berthOn port && decide (berth < 256)) fun s => s.rangingTimeout (256 * port + berth)

/-- REMOTE_TIMEOUT (R91). -/
def execRemoteTimeout (port tid : Nat) (s : State) : Out := act s (s.portRx port) fun s => s.remoteTimeout port tid

/-- ENROLMENT_WINDOW_EXPIRE (R296). -/
def execEnrolmentWindowExpire (port : Nat) (s : State) : Out :=
  act s (s.alive && s.isHub && decide (port < 4) && s.windowOpen port) fun s =>
    (s.timerEnds (s.port port).winEnd).setWindow port false

/-- ROUND_BOUNDARY (R273): `light` tells for each tree port of a hub where the round that ends showed light. -/
def execRoundBoundary (light : List (List LightRun)) (s : State) : Out :=
  act s (s.alive && (s.isHub || s.isCell)) fun s => if s.isHub then s.hubRound light else s.cellRound

/-- SEARCH_STEP: the observation of a step of the search (R325). -/
def execSearchStep (port : Nat) (light : Bool) (s : State) : Out :=
  match (s.port port).search with
  | some x => act s (s.berthOn port) fun s => s.searchObserve port x light
  | none => .next s

/-- GROUP_KEY_RENEWAL (R185). -/
def execGroupKeyRenewal (port : Nat) (s : State) : Out := act s (s.portRx port) fun s => s.renewGroup port

/-- SESSION_KEY_RENEWAL (R186). -/
def execSessionKeyRenewal (berth : Nat) (s : State) : Out :=
  act s (s.portRx (berth / 256)) fun s => s.renewSession berth

end Sys2Proof.Machine
end

