-- ==== Sys2Proof/Machine/Commit.lean ====
section
/-! DEFINITION. Shadows and commits (R71 to R74): the transfer of a page, and what the pages attach to it. -/

namespace Sys2Proof.Machine

namespace State

/-- The bits of SH fields of the register at `a` in the part's role. -/
def shMask (s : State) (a : Nat) : Word :=
  match regAt (a / 0x400) (a % 0x400) with
  | some d => if !holdsRoles s.role d.roles then 0 else BitVec.ofNat 32 (maskOf d fun f => f.kind == .sh)
  | none => 0

/-- The shadows of page `pg` become its active values. -/
def transfer (s : State) (pg : Nat) : State :=
  let inPage (a : Nat) : Bool := a / 0x400 == pg && decide (0x40 ≤ a % 0x400)
  let lost := s.act.filter fun e => !(inPage e.1 && (kvFind s.regs e.1).isNone)
  (s.regs.filter fun e => inPage e.1).foldl (fun t e =>
    let m := t.shMask e.1
    if m = 0 then t else { t with act := kvSet t.act e.1 ((t.actReg e.1 &&& ~~~m) ||| (e.2 &&& m)) }) { s with act := lost }

/-- A commit has been applied, R72. -/
def committed (s : State) (pg : Nat) : State :=
  ((s.set ⟨R.PG_COMMIT pg, 0, 1⟩ 0).count ⟨R.PG_COMMIT pg, 16, 16⟩).event pg 1

/-- The timebase in use: EPOCH, K_BASE, TCYC. -/
def timebaseNow (s : State) : Nat × Nat × Nat := (s.epoch, s.kbase, s.active F.TIME_MER_TCYC)

/-- The active EPOCH and K_BASE take an instant and a cycle number. -/
def rebase (s : State) (t k : Nat) : State :=
  let w (n : Nat) : Word := BitVec.ofNat 32 n
  let sec := t / unitsPerSec
  let put (a : Nat) (n : Nat) (m : Kv Word) := kvSet m a (w n)
  let act := put R.TIME_EPOCH_NS (t % unitsPerSec / unitsPerNs) s.act
  let act := put R.TIME_EPOCH_SH (sec / 2 ^ 32) (put R.TIME_EPOCH_SL sec act)
  { s with act := put R.TIME_KBASE_HI (k / 2 ^ 32 % 2 ^ 16) (put R.TIME_KBASE_LO k act) }

/-- The timebase has changed: TBG rises and eight frames carry a TBASE (R287). -/
def timebaseChanged (s : State) : State :=
  s.when s.isHub fun s => forUpTo (fun p t => t.setPort p { t.port p with tbaseOwed := 8 }) 4 s.newTimebase

/-- What a change of lead, repeat or profile brings (R272, R333, R335), `a` and `rep` having been in use. -/
def leadFollows (s : State) (a : Nat) (rep : Bool) : State :=
  let s := s.showProfile
  if s.lead ≠ a ∨ s.repeatOn ≠ rep then (s.leadChanged a rep).leadCheck else s

/-- A commit of the TIME page at meridian `at'`, or at once. A hub refuses one that would leave the profile wrongly (R332);
a change of TCYC at a meridian counts on from it (R227). -/
def commitTime (s : State) (at' : Option Nat) : State :=
  let why := if s.isHub then s.profileRefusal (s.get F.TIME_MER_TCYC) else 0
  if why ≠ 0 then (s.set ⟨R.PG_COMMIT Pg.TIME, 0, 1⟩ 0).profileReject why
  else
    let old := s.timebaseNow
    let a := s.lead
    let rep := s.repeatOn
    let here := at'.map fun j => (j, (s.meridianAt j).toNat)
    let s := s.transfer Pg.TIME
    let s := match here with
      | some (j, t) => if s.active F.TIME_MER_TCYC ≠ old.2.2 then s.rebase t j else s
      | none => s
    let s := s.committed Pg.TIME
    let s := s.when (s.timebaseNow != old) timebaseChanged
    if s.isHub then
      let s := s.leadFollows a rep
      if s.active F.TIME_MER_TCYC ≠ old.2.2 then s.leadCheck else s
    else s

/-- Scheduler `k` of the engine keeps running over a commit of SCHD: its signal and regions are as before and it was on or
stays off. -/
def schKeeps (s before : State) (k : Nat) : Bool :=
  nth s.eng.schInit k false && s.active (F.SCHD_CFG_SIG k) == before.active (F.SCHD_CFG_SIG k)
    && s.active (F.SCHD_CFG_NREG k) == before.active (F.SCHD_CFG_NREG k)
    && (s.active (F.SCHD_CFG_EN k) == 0 || before.active (F.SCHD_CFG_EN k) == 1)

/-- What the other pages attach to their commits. -/
def commitHook (s before : State) (pg : Nat) : State :=
  if 0x10 ≤ pg ∧ pg ≤ 0x17 then forUpTo (fun r t => t.eqClip (pg - 0x10) r) 3 s
  else if pg = Pg.ACC then s.windowMode
  else if pg = Pg.CHAIN then s.chainCommit
  else if pg = Pg.SCHD then
    { s with eng := { s.eng with schInit := (List.range 4).map (s.schKeeps before) } }
  else if pg = Pg.RCU then
    forUpTo (fun u t =>
      if t.active (F.RCU_CFG_NPTS u) = before.active (F.RCU_CFG_NPTS u) then t else t.rcuClear u) 16 s
  else if pg = Pg.TREE 0 ∧ s.isHub then
    let t := s.leadFollows before.lead before.repeatOn
    if t.lexec = before.lexec then t else t.leadCheck
  else s

/-- The commit of a page is executed, at meridian `at'` or at once. -/
def commitPage (s : State) (pg : Nat) (at' : Option Nat) : State :=
  if pg = Pg.TIME then s.commitTime at'
  else ((s.transfer pg).commitHook s pg).committed pg

/-- A commit is requested on a page (R72, R73); on a cell the MOD page's commit waits for a carrier epoch (R360). -/
def commitRequest (s : State) (pg : Nat) : State :=
  if pg = Pg.MOD ∧ s.isCell then
    { (s.set ⟨R.PG_COMMIT pg, 0, 1⟩ 1).set F.MOD_CELL_STAT_PEND 1 with cmod := { s.cmod with pend := true } }
  else if s.commitsWait pg then s.set ⟨R.PG_COMMIT pg, 0, 1⟩ 1
  else s.commitPage pg none

/-- The pages with a commit pending. -/
def commitsDue (s : State) : List Nat :=
  (List.range 48).filter fun pg => present s.role pg && s.is ⟨R.PG_COMMIT pg, 0, 1⟩ && !(pg == Pg.MOD && s.isCell)

/-- Every pending commit is executed at meridian `k` (R72). A commit that is pending when meridians stop waits for the next
one; R73 speaks of requests made while none runs (DESIGN CHOICE, log 111). -/
def applyCommits (s : State) (k : Nat) : State := s.commitsDue.foldl (fun t pg => t.commitPage pg (some k)) s

end State

end Sys2Proof.Machine
end

