-- ==== Sys2Proof/Machine/CellMod.lean ====
section
/-! DEFINITION. The modulation of a cell: the bitmap at a target meridian (R268), the carrier epoch, the samples of the
carrier and the edges they place (R354 to R360). -/

namespace Sys2Proof.Machine

namespace State

/-- Is the cell in INTERLEAVE? -/
def cellInter (s : State) : Bool := s.active F.MOD_CELL_CFG_MODE == 1

/-- Does the gate block make no request under R268: block, fault latched or permanently bypassed? -/
def gateHeld (s : State) : Bool := s.gate.blocked || s.gate.latch != 0 || s.gate.pbyp

/-! The bitmap, R268. -/

/-- The events queued for target cycle `t` that ask for a state. -/
def eventsFor (s : State) (t : Nat) : List CellEvent := s.rx.events.filter fun e => e.target == t && e.act.target.isSome

/-- The state after the events of a list, from `st` on: a trim pulse returns to the state before it. -/
def stateAfter (st : CellState) (l : List CellEvent) : CellState :=
  l.foldl (fun x e => match e.act with
    | .trim .. => x
    | a => a.target.getD x) st

/-- The cell compares its state with its bitmap entry for cycle `t` at instant `at'`; the entry is then used up. -/
def bitmapCheck (s : State) (t at' : Nat) : State :=
  let entry := s.rx.bitmap.find? fun e => e.target == t
  let s := { s with rx := { s.rx with bitmap := s.rx.bitmap.filter fun e => decide (t < e.target) } }
  match entry with
  | none => s
  | some e =>
    if s.gateHeld then s
    else if e.code ≠ 3 ∧ (s.cellInter ∨ e.noManifest) then s
    else if e.code = 2 ∧ !s.full then s
    else
      let s := s.trimOver at'
      let st := CellState.ofCode e.code
      let evs := s.eventsFor t
      let wrong := decide (stateAfter s.commandedState evs ≠ st)
      let s :=
        if !wrong then s
        else if evs = [] then (s.count (F.TREE_CELL_BMAP_CORR 0)).evFlag 11
        else (s.bump (F.TREE_CELL_BMAP_MISMATCH 0)).evFlag 11
      if st = .block ∨ (evs = [] ∧ wrong) then s.request st at' at' none else s

/-! The carrier epoch, R355 and R360. -/

/-- The full cycle number of CEPOCH `e` near cycle `k`. -/
def epochNear (e k : Nat) : Nat :=
  let c := k / 2 ^ 32 * 2 ^ 32 + e
  if c + 2 ^ 31 < k then c + 2 ^ 32 else if k + 2 ^ 31 ≤ c ∧ 2 ^ 32 ≤ c then c - 2 ^ 32 else c

/-- The epoch in use: cycle 0, the reset value of MOD_CELL_EPOCH, before any change. -/
def epochNow (s : State) : Nat := (s.cmod.epoch.map (·.1)).getD 0

/-- An obeyed frame of cycle `k` carries CEPOCH `e`. -/
def epochSeen (s : State) (e k : Nat) : State :=
  let n := epochNear e k
  if s.epochNow = n then { s with cmod := { s.cmod with next := none } }
  else { s with cmod := { s.cmod with next := some (n, (s.meridianAt n).toNat) } }

/-- At t_E: the pending commit, the new origin, EPOCHS, then the bitmap in the new mode. `late` when it comes at a later
meridian. -/
def epochApply (s : State) (k at' : Nat) (late : Bool) : State :=
  match s.cmod.next with
  | none => s
  | some (e, te) =>
    let s := if s.cmod.pend then
        let s := (s.commitPage Pg.MOD none).set F.MOD_CELL_STAT_PEND 0
        { s with cmod := { s.cmod with pend := false } }
      else s
    let s := s.set F.MOD_CELL_STAT_CMODE (b2n s.cellInter)
    let s := { s with cmod := { s.cmod with epoch := some (e, te), next := none, sampled := none } }
    let s := ((s.setReg R.MOD_CELL_EPOCH (BitVec.ofNat 32 e)).count F.MOD_CELL_CNT_EPOCHS).event Pg.MOD 20
    let s := s.when late fun s => (s.bump F.MOD_CELL_CNT_LATEEPOCH).event Pg.MOD 21
    s.bitmapCheck k at'

/-! Carriers, R355 to R357. -/

/-- T_car in units of network time. -/
def tCar (s : State) : Nat := max 100 (s.active F.MOD_CELL_CAR_PER) * 1000 * unitsPerNs

/-- The first trough (or peak) of the carrier after the last sample, not before now. -/
def carrierInstant (s : State) (te : Nat) (peak : Bool) : Nat :=
  let n := max 1 (s.active F.MOD_CELL_NCAR_NCAR)
  let first := te + s.tCar * (s.active F.MOD_CELL_CAR_CIDX % n) / n + (if peak then s.tCar / 2 else 0)
  let after := max s.now ((s.cmod.sampled.map (· + 1)).getD 0)
  if after ≤ first then
    let back := (first - after) / s.tCar
    first - back * s.tCar
  else first + (after - first + s.tCar - 1) / s.tCar * s.tCar

/-- A value limited to a range; where it is not a number, what the limits leave is not stated. -/
def dClamp (x lo hi : DWord) : DWord := if dLt x lo then lo else if dLt hi x then hi else x

/-- The duty of R356, before its limits; dd is 0 while the last execution of the engine was invalid (R395). -/
def dutyRaw (s : State) : DWord :=
  let v := sToD (s.win 0).mean
  let i := sToD (s.win 1).mean
  let m := sToD (nth s.cmod.ref 0 0)
  let vavg := sToD (nth s.cmod.ref 1 0)
  let dev := dDiv (dSub v vavg) vavg
  let dd :=
    if s.is F.CTL_STAT_INVALID then 0
    else if s.active F.MOD_CELL_CFG_LAW = 0 then
      if dLt (dAbs i) (dRat (s.active F.MOD_CELL_IDB_IDB) 10) then 0
      else
        let g := dMul (dRat (s.active F.MOD_CELL_BAL_G) 256) dev
        if dLt i 0 then g else if i = 0 ∨ i = dNeg 0 then 0 else dNeg g
    else sToD (s.sig (s.active F.MOD_CELL_BAL_SIGI))
  let dmax := dRat (s.active F.MOD_CELL_BAL_DMAX) 256
  dAdd m (dClamp dd (dNeg dmax) dmax)

/-- The duty and whether it was clamped. One that is no number is a free value within its limits. -/
def duty (s : State) : DWord × Bool × State :=
  let x := s.dutyRaw
  let lo := if s.full then dInt (-1) else 0
  let hi := dInt 1
  match dVal x with
  | .nan =>
    let (v, s) := s.free
    (dRat (if s.full then (v % 32769 : Nat) - 16384 else (v % 16385 : Nat)) 16384, false, s)
  | _ => let y := dClamp x lo hi; (y, dLt x lo || dLt hi x, s)

/-- The edge that the carrier has placed is made once time reaches it. -/
def carrierDue (s : State) (t : Nat) : State :=
  match s.cmod.edge with
  | some (e, st, q) =>
    if e ≤ t then { s with cmod := { s.cmod with edge := none } }.request st e q none else s
  | none => s

/-- A sample at instant `t` and the edge it places (R357), in steps of 1/64 ns. -/
def carrierSample (s : State) (t : Nat) (peak : Bool) : State :=
  let (d, clamped, s) := s.duty
  let s := s.when clamped fun s => (s.bump F.MOD_CELL_CNT_CLAMP).event Pg.MOD 22
  let s := s.set F.MOD_CELL_STAT_DUTY (unsigned 16 (dVal (dMul d (dInt 16384))).roundAway)
  let half := dInt (s.tCar / 2 / unitsPer64)
  let a := dAbs d
  let off := (dVal (dMul (if peak then dSub (dInt 1) a else a) half)).roundAway.toNat * unitsPer64
  let on := if dLt d 0 then CellState.neg else .pos
  { s with cmod := { s.cmod with sampled := some t, edge := some (t + off, if peak then on else .bypass, t) } }

/-- Does the cell run a carrier: in INTERLEAVE, deblocked and not blocked? -/
def carrierOn (s : State) : Bool := s.gateLive && s.runs Pg.MOD && s.cellInter && s.safe.db && !s.gateHeld

end State

open State

/-- CARRIER_EPOCH: at t_E, before the meridian's own comparison (R360). One first obeyed after t_E has passed applies at the
cell's next meridian. -/
def execCarrierEpoch (s : State) : Out :=
  match s.cmod.next with
  | some (e, te) =>
    act s (s.gateLive && (match s.time.lastK with | some k => decide (k < e) | none => true)) fun s =>
      (s.reach te).epochApply e te false
  | none => .next s

/-- CELL_ENGINE_RUN (R408, R409): with TRIG = 0 at a meridian, with TRIG = 1 at 1 us before the next trough or peak of a carrier
that runs. `lat` is its duration in ns. -/
def execCellEngineRun (peak : Bool) (lat : Nat) (s : State) : Out :=
  act s (s.alive && s.isCell && s.runs Pg.CTL && (!s.is F.CTL_CFG_TRIG || (s.carrierOn && s.cmod.epoch.isSome))) fun s =>
    match s.is F.CTL_CFG_TRIG, s.cmod.epoch with
    | true, some (_, te) => (s.reach (s.carrierInstant te peak - nsUnits 1000)).cellExecution peak lat
    | _, _ => s.cellExecution peak lat

/-- CARRIER_SAMPLE: a trough or a peak of the carrier (R356). The edge of the sample before falls by then and is made
first. -/
def execCarrierSample (peak : Bool) (s : State) : Out :=
  match s.cmod.epoch with
  | some (_, te) =>
    act s s.carrierOn fun s =>
      let t := s.carrierInstant te peak
      let s := (s.reach t).carrierDue t
      if s.carrierOn then s.carrierSample t peak else s
  | none => .next s

end Sys2Proof.Machine
end

