-- ==== Sys2Proof/Machine/Recorder.lean ====
section
/-! DEFINITION. The disturbance recorder of a hub, the black box of a cell and the lifetime counters
(21_recorder_monitors.md). -/

namespace Sys2Proof.Machine

namespace State

/-! Segments and descriptors, R626. -/

/-- N and C of R626, and the bytes of a segment. -/
def recSegs (s : State) : Nat := s.get F.REC_CFG_NSEG + 1
def recChunks (s : State) : Nat := 1023 / s.recSegs
def recLen (s : State) : Nat := 4096 * s.recChunks

/-- The base of segment `i` and the address of its descriptor. -/
def segBase (s : State) (i : Nat) : Nat := 0x30000000 + s.recLen * i
def descAddr (i : Nat) : Nat := 0x303FF000 + 64 * i

/-- Word `w` of descriptor `i`. -/
def descWord (s : State) (i w : Nat) : Nat := s.num (descAddr i + 4 * w) 4

/-- STATE of descriptor `i`: 0 free, 1 live, 2 post, 3 held. -/
def segState (s : State) (i : Nat) : Nat := s.descWord i 0 % 4

/-- One word of a descriptor is rewritten; the recorder DMA is requester 9. -/
def setDesc (s : State) (i w v : Nat) : State := s.store 9 (descAddr i + 4 * w) (leBytes 4 v)

/-- Recorder state, REC_STAT.STATE. -/
def recState (s : State) : Nat := s.get F.REC_STAT_STATE
def setRecState (s : State) (n : Nat) : State := s.set F.REC_STAT_STATE n

/-- The live or post segment. -/
def liveSeg (s : State) : Nat := s.get F.REC_STAT_LIVE

/-- HELD follows the descriptors. -/
def showHeld (s : State) : State :=
  s.set F.REC_STAT_HELD ((List.range 16).foldl (fun x i => x + b2n (s.segState i == 3) <<< i) 0)

/-- Signal records held in the segment. -/
def signalMarks (s : State) : Nat := (s.recd.marks.filter fun m => m.type == 1).length

/-- The descriptor of the live or post segment with STATE `st`. A segment without a capture carries the sequence number
that its capture would have (DEDUCED, log 47). -/
def writeDesc (s : State) (st : Nat) : State :=
  let i := s.liveSeg
  let r := s.recd
  let len := max 1 s.recLen
  let oldest := match r.marks with | m :: _ => m.off % len | [] => 0
  let (prim, cause, later, trig, cyc, time, seq) := match r.cap with
    | some c => (c.primary, c.cause, c.later, c.trigOff % len, c.cyc, c.time, r.capSeq)
    | none => (0, 0, 0, 0, 0, 0, r.capSeq + 1)
  let words := [st + r.flags <<< 8 + prim <<< 16, seq, cause, later, oldest, trig, r.pos % len, cyc % 2 ^ 32,
    cyc / 2 ^ 32 % 65536, time / unitsPerSec, time % unitsPerSec / unitsPerNs, s.signalMarks, r.maxLvl, 0, 0, 0]
  s.store 9 (descAddr i) (words.flatMap (leBytes 4))

/-- A flag of the segment, a bit of word 0 [15:8]. -/
def recFlag (s : State) (b : Nat) : State := { s with recd := { s.recd with flags := s.recd.flags ||| 1 <<< b } }

/-! Chunks, R634 and R635. -/

/-- Reduction level h. -/
def recLevel (s : State) : Nat := s.get F.REC_STAT_LVL

/-- The rate control at a buffer fill, `pressure` holding or not. -/
def recRate (s : State) (pressure : Bool) : State :=
  let h := s.recLevel
  if pressure then
    let s := { s with recd := { s.recd with quiet := 0 } }
    if s.is F.REC_CFG_AUTORED ∧ h < s.get F.REC_RED_HMAX then
      ((s.set F.REC_STAT_LVL (h + 1)).bump F.REC_RCNT_REDS).event Pg.REC 11
    else s
  else
    let q := s.recd.quiet + 1
    if max 1 (s.get F.REC_RED_RESTORE) ≤ q ∧ 0 < h then
      let s := { s with recd := { s.recd with quiet := 0 } }
      ((s.set F.REC_STAT_LVL (h - 1)).bump F.REC_RCNT_RESTS).event Pg.REC 12
    else { s with recd := { s.recd with quiet := q } }

/-- The buffer being filled becomes a chunk item on queue 6. -/
def recChunk (s : State) : State :=
  let r := s.recd
  let off := r.base % max 1 s.recLen
  let pressure := r.full != [] || decide (s.get F.REC_RED_STRMHI < s.stn.strm.length)
  let c : RecChunk := { seq := r.chunkSeq, seg := s.liveSeg, off := off, data := r.fill, inv := r.fillInv }
  let s := { s with recd := { r with
    full := r.full ++ [c], fill := [], fillInv := false, base := r.base + r.fill.length, chunkSeq := (r.chunkSeq + 1) % 65536 } }
  (s.recRate pressure).arrive 6 r.chunkSeq (s.segBase c.seg + off)

/-- Bytes of accepted records go to the buffers while one is free. -/
def recPump (s : State) : (fuel : Nat) → State
  | 0 => s
  | k + 1 =>
    let r := s.recd
    if r.tail = [] ∨ 2 ≤ r.full.length then s
    else
      let room := 4096 - r.fill.length
      let s := { s with recd := { r with fill := r.fill ++ r.tail.take room, tail := r.tail.drop room } }
      if s.recd.fill.length < 4096 then s else (s.recChunk).recPump k

/-- What is left in the buffers of a segment that ends is stored too. -/
def recFlush (s : State) : State :=
  let s := { s with recd := { s.recd with fill := s.recd.fill ++ s.recd.tail, tail := [] } }
  if s.recd.fill = [] then s else s.recChunk

/-! Records, R622 to R625. -/

/-- A record is written, or dropped when both buffers are full (R635). Older records that it overwrites are lost; in Post
that leaves the capture short (R628). -/
def putRecord (s : State) (type lvl nsmp cyc ncyc : Nat) (inv cut : Bool) (body : List Byte) : State :=
  let r := s.recd
  if 2 ≤ r.full.length ∨ r.tail ≠ [] then
    let s := (s.bump F.REC_CNT_DROPS).event Pg.REC 14
    { s with recd := { s.recd with lost := true } }
  else
    let len := 16 + body.length
    let red := decide (0 < s.recLevel)
    let w0 := type + lvl <<< 8 + b2n red <<< 11 + b2n inv <<< 12 + b2n r.lost <<< 13 + b2n cut <<< 14 + len <<< 16
    let hdr := [w0, cyc % 2 ^ 32, cyc / 2 ^ 32 % 65536 + (min 65535 nsmp) <<< 16, ncyc % 2 ^ 32].flatMap (leBytes 4)
    let pos := r.pos + len
    let marks := r.marks ++ [{ off := r.pos, len := len, type := type }]
    let kept := marks.filter fun m => decide (pos ≤ m.off + s.recLen)
    let flags := r.flags ||| b2n (s.recState = 3 && decide (kept.length < marks.length)) ||| (b2n red <<< 2)
      ||| (b2n inv <<< 3) ||| (b2n r.lost <<< 4)
    let s := { s with recd := { r with
      tail := hdr ++ body, pos := pos, marks := kept, lost := false, fillInv := r.fillInv || inv, flags := flags
      maxLvl := max r.maxLvl s.recLevel } }
    s.recPump 8

/-- The enabled channels. -/
def recChannels (s : State) : List Nat := (List.range 64).filter fun n => s.is (F.REC_CH_EN n)

/-- The 16-byte block of berth `i` in a snapshot. -/
def snapBlock (s : State) (i : Nat) : List Byte :=
  let o := s.obs i
  let b := s.berth i
  let plan := if s.plannedBlock i then 3 else match kvFind s.mod.good.ins i with | some st => st.code | none => 0
  let (st, ev) := match b.report with | some r => (r.status, r.evflags) | none => (0, 0)
  leBytes 2 (i + plan <<< 10 + b2n o.avail <<< 12 + b2n o.unobs <<< 13) ++ [BitVec.ofNat 8 (linkCode b.link), 0]
    ++ leBytes 4 o.vest.toNat ++ leBytes 4 o.vmean.toNat ++ leBytes 2 st ++ leBytes 2 ev

/-- The berths of a snapshot. -/
def snapBerths (s : State) : List Nat :=
  let first := s.get F.REC_SNAPCFG_FIRST
  (List.range (min (first + min 1024 (s.get F.REC_SNAPCFG_COUNT)) 1024 - first)).map (first + ·)

/-- A berth snapshot of cycle `k`. -/
def putSnapshot (s : State) (k : Nat) : State :=
  if s.snapBerths = [] then s else s.putRecord 2 s.recLevel 1 k 1 false false (s.snapBerths.flatMap s.snapBlock)

/-- The record in progress closes with the sample of cycle `k`; its snapshot follows. -/
def closeRecord1 (s : State) (k : Nat) (cut trig : Bool) : State :=
  match s.recd.acc with
  | none => s
  | some a =>
    let body := s.recChannels.flatMap fun n =>
      let e := kvGet ((0x7FC00000 : Word), (0x7FC00000 : Word)) a.ext n
      leBytes 4 e.1.toNat ++ leBytes 4 e.2.toNat
    let drops := s.recd.pos
    let s := { s with recd := { s.recd with acc := none, next := some (k + 1) } }
    let s := s.putRecord 1 a.lvl a.nsmp k (k + 1 - a.first) a.inv cut body
    let s := if s.recd.pos = drops then s
      else match s.recd.cap with
        | some c => { s with recd := { s.recd with cap := some { c with post := c.post + 1 } } }
        | none => s
    let n := if trig then 0 else s.recd.sinceTrig + 1
    let s := { s with recd := { s.recd with sinceTrig := n } }
    let d := s.get F.REC_SNAPCFG_SDEC
    if trig ∨ (d < 15 ∧ n % 2 ^ d = 0) then s.putSnapshot k else s

/-! Captures, R627 to R629. -/

/-- Segment `i` becomes live. -/
def beginLive (s : State) (i : Nat) : State :=
  let s := s.set F.REC_STAT_LIVE i
  let s := { s with recd := { s.recd with
    acc := none, next := none, fill := [], fillInv := false, tail := [], pos := 0, base := 0, marks := [], cap := none
    flags := 0, maxLvl := s.recLevel } }
  (s.writeDesc 1).showHeld

/-- The next live segment after `i`: the free one that follows it cyclically; with none, the oldest capture is reused or the
recorder is Full (R629). `st` is the state it enters. -/
def nextLive (s : State) (i st : Nat) : State :=
  let n := s.recSegs
  let order := (List.range n).map fun j => (i + 1 + j) % n
  match order.find? fun j => s.segState j == 0 with
  | some j => (s.setRecState st).beginLive j
  | none =>
    let heldSegs := order.filter fun j => s.segState j == 3
    if s.is F.REC_CFG_OVWR ∧ heldSegs ≠ [] then
      let oldest := heldSegs.foldl (fun m j => if s.descWord j 1 < s.descWord m 1 then j else m) (nth heldSegs 0 0)
      ((s.bump F.REC_CNT_IGNORED).setRecState st).beginLive oldest
    else
      let s := { s with recd := { s.recd with acc := none, next := none, cap := none } }
      (s.setRecState 5).event Pg.REC 13

/-- A capture ends: its segment is held. -/
def endCapture (s : State) : State :=
  let s := ((s.recFlush.writeDesc 3).event Pg.REC 9).showHeld
  let mode := s.get F.REC_HOLD_MODE
  let val := s.get F.REC_HOLD_VAL
  let s := { s with recd := { s.recd with holdLeft := val, heldAt := s.elapsed } }
  s.nextLive s.liveSeg (if mode = 1 ∨ (mode = 2 ∧ val ≠ 0) then 4 else 1)

/-- The pre-trigger records that a capture keeps: PRE signal records and what lies among them. -/
def keepPre : (marks : List RecMark) → (pre : Nat) → List RecMark
  | [], _ => []
  | m :: l, pre => if (((m :: l).filter fun x => x.type == 1).length) ≤ pre ∧ m.type = 1 then m :: l else keepPre l pre

/-- A trigger with its causes and PRIMARY (R627, R628, R632): the capture starts. -/
def startCapture (s : State) (k time cause primary : Nat) (ends : Bool) : State :=
  let pre := s.get F.REC_LEN_PRE
  let s := s.when (decide (s.signalMarks < pre)) (·.recFlag 0)
  let r := s.recd
  let s := { s with recd := { r with
    marks := if pre = 0 then [] else keepPre r.marks pre, capSeq := (r.capSeq + 1) % 2 ^ 32, sinceTrig := 0, force := false
    cap := some { cause := cause, primary := primary, trigOff := r.pos, cyc := k, time := time } } }
  let s := (((s.setRecState 3).bump F.REC_CNT_TRIGS).event Pg.REC 8).writeDesc 2
  let body := [cause + primary <<< 24, time / unitsPerSec % 2 ^ 32, time % unitsPerSec / unitsPerNs, 0].flatMap (leBytes 4)
  let s := s.putRecord 3 s.recLevel 1 k 1 false false body
  s.closeRecord1 k (!ends) true

/-- A firing outside Filling and Armed (R628): in Post it joins LATER, in Hold-off it counts towards VAL. -/
def ignoreFiring (s : State) (cause : Nat) : State :=
  let s := s.bump F.REC_CNT_IGNORED
  match s.recState, s.recd.cap with
  | 3, some c => { s with recd := { s.recd with cap := some { c with later := c.later ||| cause } } }
  | 4, _ =>
    if s.get F.REC_HOLD_MODE = 2 then
      let n := s.recd.holdLeft - 1
      let s := { s with recd := { s.recd with holdLeft := n } }
      if n = 0 then s.setRecState 1 else s
    else s
  | _, _ => s

/-! Trigger units, R631. -/

/-- Trigger unit `t` between evaluations. -/
def trig (s : State) (t : Nat) : TrigSt := nth s.recd.trig t {}
def setTrig (s : State) (t : Nat) (x : TrigSt) : State := { s with recd := { s.recd with trig := setAt {} s.recd.trig t x } }

/-- The condition of unit `t` on value `x`, `c` having held before. Sums are made in binary64 (DEDUCED, log 47). -/
def trigCond (s : State) (t : Nat) (x : Word) (c : Bool) (prev : Option Word) : Bool :=
  let a := s.reg (R.REC_TA t)
  let b := s.reg (R.REC_TB t)
  let dir := s.get (F.REC_TCFG_DIR t)
  let src := s.get (F.REC_TCFG_SRC t)
  let bit := s.get (F.REC_TCFG_BIT t)
  match s.get (F.REC_TCFG_TYPE t) with
  | 1 =>
    if dir = 1 then (if c then !dLt (dAdd (sToD a) (sToD b)) (sToD x) else sLe x a)
    else (if c then !dLt (sToD x) (dSub (sToD a) (sToD b)) else sLe a x)
  | 2 =>
    match prev with
    | none => c
    | some p =>
      let d := dSub (sToD x) (sToD p)
      if !dFinite d then c
      else if dir = 0 then dLe (sToD a) d
      else if dir = 1 then dLe d (dNeg (sToD a))
      else dLe (sToD a) (dAbs d)
  | 3 =>
    let inside := sLe a x && sLe x b
    if dir = 1 then !inside else inside
  | 4 => bitOf (kvGet 0 s.recd.occ (src % 64)) bit
  | 5 => decide (4 ≤ bit) && decide (bit ≤ 7) &&
      ((dir != 1 && bitOf s.recd.rise bit) || (dir != 0 && bitOf s.recd.fall bit))
  | 6 => bitOf s.recd.viol (src % 8)
  | 7 =>
    let mask := a.toNat % 65536
    let hits (arm : Nat) : Bool := nth s.recd.evf arm 0 &&& mask != 0
    if dir = 0 then hits 0 else if dir = 1 then hits 1 else hits 0 || hits 1
  | 8 =>
    (bit == 0 && s.recd.rose) || (bit == 1 && bitOf (kvGet 0 s.recd.occ Pg.SAFE) 15)
      || (bit == 2 && bitOf (kvGet 0 s.recd.occ Pg.SAFE) 8)
  | _ => false

/-- Does the type of unit `t` look at a signal? -/
def trigOnSignal (s : State) (t : Nat) : Bool := let ty := s.get (F.REC_TCFG_TYPE t); decide (1 ≤ ty) && decide (ty ≤ 3)

/-- Unit `t` is evaluated: does it fire? -/
def trigEval (s : State) (t : Nat) : Bool × State :=
  let u := s.trig t
  let ty := s.get (F.REC_TCFG_TYPE t)
  let (x, s) :=
    if s.trigOnSignal t then
      let n := s.get (F.REC_TCFG_SRC t)
      let (_, s) := s.touch 9 (s.sigAddr n) 4
      (s.sig n, s)
    else ((0 : Word), s)
  let c := if s.trigOnSignal t && !sFinite x then u.cond else s.trigCond t x u.cond u.prev
  let both := decide (2 ≤ s.get (F.REC_TCFG_DIR t)) && (ty == 1 || ty == 3)
  let fires := !u.fresh && (if both then c != u.cond else c && !u.cond)
  let s := s.setTrig t { fresh := false, cond := c, prev := if s.trigOnSignal t then some x else none }
  let s := s.set (F.REC_TSTAT_COND t) (b2n c)
  (fires, s.when fires (·.bump (F.REC_TSTAT_HITS t)))

/-- Every unit is evaluated; the bits of those that fire. What occurred since the last evaluation is used up. -/
def trigEvals (s : State) : Nat × State :=
  let (n, s) := forUpTo (fun t p => let q := p.2.trigEval t; (p.1 + b2n q.1 <<< t, q.2)) 16 (0, s)
  (n, { s with recd := { s.recd with occ := [], rise := 0, fall := 0, rose := false, evf := [0, 0] } })

/-! Mask tests, R633. -/

/-- Mask unit `m` on the sample of cycle `k`. -/
def maskTest (s : State) (k m : Nat) : State :=
  let st := s.recState
  let mode1 := s.is (F.REC_MCFG_MODE m)
  if !s.is (F.REC_MCFG_EN m) || !(st = 3 || (mode1 && (st = 1 || st = 2))) then s
  else
    let p := if mode1 then (dVal (dMul (dFrac (dDiv (s.mod.used.elim s.theta (·.theta)) twoPi)) (dInt 256))).floor.toNat
      else match s.recd.cap with
        | some c => min 255 ((k - c.cyc) / max 1 (s.get (F.REC_MCFG_STEP m)))
        | none => 0
    let p := min 255 p
    let a := s.get F.REC_MBASE_BASE + 2048 * m + 8 * p
    let n := s.get (F.REC_CH_SIG (s.get (F.REC_MCFG_CH m)))
    let x := s.sig n
    let (bs, bad, s) := s.fetch 9 a 8
    let lo := BitVec.ofNat 32 (ofLe (bs.take 4))
    let hi := BitVec.ofNat 32 (ofLe (bs.drop 4))
    let s := s.set (F.REC_MSTAT_POINT m) p
    let s := s.when bad fun s =>
      { s with recd := { s.recd with acc := s.recd.acc.map fun (r : RecAcc) => { r with inv := true } } }
    if bad || !sFinite x || sLt x lo || sLt hi x then
      let s := (s.bump (F.REC_MSTAT_VIOL m)).event Pg.REC 10
      { s with recd := { s.recd with viol := s.recd.viol ||| 1 <<< m } }
    else s

/-! A sample, R621. -/

/-- The least and greatest finite sample of a channel. -/
def extend (e : Option (Word × Word)) (x : Word) : Word × Word :=
  match e with
  | some (lo, hi) => (if sLt x lo then x else lo, if sLt hi x then x else hi)
  | none => (x, x)

/-- The channels are read into the record in progress. A poisoned word stands as a value that is no number in both words
of its channel (R636). -/
def recRead (s : State) (k : Nat) : State :=
  let first := match s.recd.next with | some n => min n k | none => k
  let a : RecAcc := s.recd.acc.getD
    { first := first, span := (s.get F.REC_CFG_DEC + 1) * 2 ^ s.recLevel, lvl := s.recLevel }
  let (a, s) := s.recChannels.foldl (fun (p : RecAcc × State) n =>
    let i := p.2.get (F.REC_CH_SIG n)
    let (bad, t) := p.2.touch 9 (p.2.sigAddr i) 4
    let x := t.sig i
    let a := p.1
    if bad then ({ a with inv := true, ext := kvSet a.ext n (0x7FC00000, 0x7FC00000) }, t)
    else if sFinite x then ({ a with ext := kvSet a.ext n (extend (kvFind a.ext n) x) }, t)
    else (a, t)) ({ a with nsmp := a.nsmp + 1 }, s)
  { s with recd := { s.recd with acc := some a } }

/-- The lowest-numbered unit of a cause, or 16. -/
def primaryOf (cause : Nat) : Nat := (firstIdx 16 fun t => bitOf cause t).getD 16

/-- The sample of cycle `k`, whose meridian was at `time`. -/
def recSample (s : State) (k time : Nat) : State :=
  if !s.isHub || !s.runs Pg.REC || s.recState = 0 then s
  else
    let s := { s with recd := { s.recd with viol := 0 } }
    let s := s.when (s.recState != 5) (·.recRead k)
    let s := forUpTo (fun m t => t.maskTest k m) 8 s
    let st : Nat := s.recState
    let (units, s) := s.trigEvals
    let cause := units + b2n s.recd.force <<< 16
    let s := { s with recd := { s.recd with force := false } }
    let ends := match s.recd.acc with | some a => decide (a.first + a.span ≤ k + 1) | none => false
    let stop := st = 3 && s.recd.viol != 0
    let s :=
      if cause ≠ 0 ∧ (st = 1 ∨ st = 2) then s.startCapture k time cause (primaryOf cause) ends
      else
        let s := s.when (cause != 0) (·.ignoreFiring cause)
        if stop then (s.recFlag 1).closeRecord1 k false false
        else if ends then s.closeRecord1 k false false
        else s
    match s.recd.cap with
    | some c =>
      if s.recState = 3 ∧ (stop ∨ max 1 (s.get F.REC_LEN_POST) ≤ c.post) then s.endCapture else s
    | none => if s.recState = 1 ∧ s.get F.REC_LEN_PRE ≤ s.signalMarks then s.setRecState 2 else s

/-! Enable, commands, chunks. -/

/-- EN rises (R630): the descriptors are read, segments in use are held, recording resumes. -/
def recStart (s : State) : State :=
  let s := (s.fetch 9 (descAddr 0) 1024).2.2
  let (last, s) := forUpTo (fun i (p : Option Nat × State) =>
    let t := p.2
    let w := t.descWord i 0
    if w % 4 = 2 then (some i, t.setDesc i 0 ((w - 2 + 3) ||| 0x6000))
    else if w % 4 = 1 then (some i, (t.setDesc i 0 ((w - 1 + 3) ||| 0x4000)).setDesc i 2 0)
    else p) 16 ((none : Option Nat), s)
  let top := (List.range 16).foldl (fun m i => if s.segState i = 3 then max m (s.descWord i 1) else m) 0
  let s := { s with recd := { s.recd with capSeq := top, trig := List.replicate 16 {}, occ := [], rise := 0, fall := 0,
                                          rose := false, evf := [0, 0], quiet := 0, sinceTrig := 0, force := false } }
  let s := (s.set F.REC_GEOM_CHUNKS s.recChunks).set F.REC_GEOM_RLEN (16 + 8 * s.recChannels.length)
  s.showHeld.nextLive (last.getD (s.recSegs - 1)) 1

/-- EN falls: idle; a post segment is held with STOPPED (R627). -/
def recStop (s : State) : State :=
  let s := { s with recd := { s.recd with acc := none, next := none } }
  let s := if s.recState = 3 then (((s.recFlag 5).recFlush.writeDesc 3).event Pg.REC 9).showHeld
    else if s.recState = 0 ∨ s.recState = 5 then s else s.recFlush.writeDesc 1
  { s.setRecState 0 with recd := { (s.setRecState 0).recd with cap := none, fill := [], tail := [] } }

/-- REC_CMD.FORCE. -/
def recForce (s : State) : State :=
  if s.recState = 1 ∨ s.recState = 2 then { s with recd := { s.recd with force := true } } else s.ignoreFiring (1 <<< 16)

/-- A held segment becomes free; a Full recorder then records again. -/
def recFree (s : State) (segs : List Nat) : State :=
  let l := segs.filter fun i => s.segState i == 3
  let s := (l.foldl (fun t i => t.setDesc i 0 (t.descWord i 0 - 3)) s).showHeld
  if s.recState = 5 ∧ (List.range s.recSegs).any (fun i => s.segState i == 0) then s.nextLive s.liveSeg 1 else s

/-- REC_CMD.REL of segment `i`. -/
def recRel (s : State) (i : Nat) : State :=
  if s.segState i = 1 ∨ s.segState i = 2 then s.accessErr Pg.REC else s.recFree [i]

/-- REC_CMD.RELALL. -/
def recRelAll (s : State) : State := s.recFree (List.range 16)

/-- The recorder DMA has stored the oldest full chunk; its item completes (R634). -/
def chunkStored (s : State) : State :=
  match s.recd.full with
  | [] => s
  | c :: rest =>
    let a := s.segBase c.seg + c.off
    let s := { s.store 9 a c.data with recd := { s.recd with full := rest } }
    let s := s.hwDone 6 fun it => it.flow == c.seq
    let s : State := s.when (s.is F.REC_CFG_STRM) fun s =>
      { s with stn := { s.stn with strm := s.stn.strm ++ [{ seq := c.seq, addr := a, inv := c.inv }] } }
    let st : Nat := s.recState
    let s := if c.seg = s.liveSeg ∧ (st = 1 ∨ st = 2 ∨ st = 4) then s.writeDesc 1
      else if c.seg = s.liveSeg ∧ st = 3 then s.writeDesc 2 else s
    s.recPump 8

/-! The black box of a cell, R639. -/

/-- EN rises on a cell. -/
def bbStart (s : State) : State :=
  if s.bb.begun then s
  else
    let s := { s with bb := { s.bb with begun := true } }
    if s.boot.sincePor then { s.set F.REC_BBSTAT_NEXT 0 with bb := { s.bb with idx := 0 } }
    else (s.set F.REC_BBSTAT_FROZEN 1).set F.REC_BBSTAT_WHY 6

/-- Word 0 of black-box entry `i`. -/
def bbHead (s : State) (i : Nat) : Nat := s.num (0x30000000 + 32 * (i % 8192)) 4

/-- The newest entry: the first whose successor does not hold SEQ + 1; none in an empty box. -/
def bbNewest (s : State) : Option Nat :=
  if s.bbHead 0 % 256 = 0 then none
  else firstIdx 8192 fun i => s.bbHead (i + 1) / 65536 != (s.bbHead i / 65536 + 1) % 65536

/-- REC_BBCMD.REARM. -/
def bbRearm (s : State) : State :=
  if !s.is F.REC_BBSTAT_FROZEN then s
  else
    let s := { s.set F.REC_BBSTAT_FROZEN 0 with bb := { s.bb with post := none } }
    if s.get F.REC_BBSTAT_WHY ≠ 6 then s
    else match s.bbNewest with
      | some i => { s.set F.REC_BBSTAT_NEXT (s.bbHead i / 65536 + 1) with bb := { s.bb with idx := (i + 1) % 8192 } }
      | none => { s.set F.REC_BBSTAT_NEXT 0 with bb := { s.bb with idx := 0 } }

/-! Lifetime counters, R644. -/

/-- The temperature bin of a whole number of degrees. -/
def tempBin (t : Int) : Nat :=
  if t < 0 then 0 else if t < 25 then 1 else if t < 50 then 2 else if t < 75 then 3 else if t < 100 then 4
  else if t < 110 then 5 else if t < 125 then 6 else 7

/-- A second of IRC time. A mean that is no number has no stated bin. -/
def lifetimeSecond (s : State) : State :=
  match sVal (s.win 8).mean with
  | .nan => let (v, s) := s.free; s.ltAdd (2 + v % 8) 1
  | .inf neg => s.ltAdd (if neg then 2 else 9) 1
  | x => s.ltAdd (2 + tempBin x.floor) 1

/-- An hour of IRC time. -/
def lifetimeHour (s : State) : State :=
  let c := s.reg (R.LT_CAPIN 0)
  if sFinite c ∧ sLt 0 c then
    (s.ltAdd 10 (dVal (dMul (sToD c) (dInt 1000000))).roundAway.toNat).ltAdd 11 1
  else s

end State

open State

/-- STAGE_E (R343): the modulation step, once stages C and D are done; the recorder then samples (R621). -/
def execStageE (ns : Nat) (s : State) : Out :=
  match s.mod.used with
  | some x => act s (s.stageDue 15 4) fun s =>
      ((s.when (s.runs Pg.MOD) (·.stageE x)).stageDone 4 ns).recSample x.k x.time
  | none => .next s

/-- CHUNK_STORED (R634): the recorder DMA, the worker of queue 6, has the oldest chunk's item in service. -/
def execChunkStored (s : State) : Out :=
  match s.recd.full with
  | c :: _ => act s (s.alive && s.isHub && s.sch.svc.any fun it => it.queue == 6 && it.hw && it.flow == c.seq) chunkStored
  | [] => .next s

/-- HOLD_OFF_END: HOLD.VAL ms have passed since the capture (R627). -/
def execHoldOffEnd (s : State) : Out :=
  act s (s.alive && s.isHub && s.runs Pg.REC && s.recState == 4 && s.get F.REC_HOLD_MODE == 1) fun s =>
    (s.timerEnds (s.recd.heldAt + s.get F.REC_HOLD_VAL * 1000000 * unitsPerNs)).setRecState 1

/-- LIFETIME_SECOND. -/
def execLifetimeSecond (s : State) : Out := act s s.alive lifetimeSecond

/-- LIFETIME_HOUR. -/
def execLifetimeHour (s : State) : Out := act s s.alive lifetimeHour

end Sys2Proof.Machine
end

