-- ==== Sys2Proof/Machine/Station.lean ====
section
/-! DEFINITION. The station interface of L6 and L7 (22_station_interface.md): ports and redundancy, the Etolwick frames, the
key exchange, set-points with the grid angle, sampled values, transmission, the receive ring and streaming. Management
records are executed in Requests.lean, through the register bridge. -/

namespace Sys2Proof.Machine

/-- Byte `i` of a frame as a number; 0 beyond its end. -/
def byteAt (bs : List Byte) (i : Nat) : Nat := (nth bs i 0).toNat

/-- The big-endian number of `n` bytes at offset `o`. -/
def beAt (bs : List Byte) (o n : Nat) : Nat := ofBe ((bs.drop o).take n)

/-- The EtherType behind a VLAN tag, and what follows it (R650). -/
def innerType (f : EthRx) : Nat := if f.etype = 0x8100 then beAt f.body 2 2 else f.etype
def innerBody (f : EthRx) : List Byte := if f.etype = 0x8100 then f.body.drop 4 else f.body

/-- Is the frame a PTP event message (messageType 0 to 3), which no PRP discard touches (R232)? -/
def ptpEvent (f : EthRx) : Bool := innerType f == 0x88F7 && decide (byteAt (innerBody f) 0 % 16 < 4)

/-- Addresses that every port accepts: broadcast, the two PTP addresses, PRP supervision (R650). -/
def commonDst : List Nat := [0xFFFFFFFFFFFF, 0x011B19000000, 0x0180C200000E, 0x01154E000100]

/-- An angle brought to [-pi, pi). -/
def wrapAngle (x : DWord) : DWord :=
  let pi : DWord := 0x400921FB54442D18
  dSub x (dMul twoPi (dInt (dVal (dDiv (dAdd x pi) twoPi)).floor))

/-- What a received frame is to the hardware (R663). -/
inductive StnKind where
  | setpoint | mgmt | kx | sv (c : Nat) | supervision | other
  deriving DecidableEq, Repr

namespace State

/-! Ports and addresses, R650 to R652. -/

/-- Does the station block run? -/
def stnOn (s : State) : Bool := s.alive && (s.isHub || s.isRef) && s.runs Pg.STN

/-- A 48-bit address in two registers. -/
def macAt (s : State) (lo hi : Nat) : Nat := (s.reg lo).toNat + 2 ^ 32 * ((s.reg hi).toNat % 65536)

def stnMac (s : State) : Nat := s.macAt R.STN_MACL R.STN_MACH
def stnDst (s : State) : Nat := s.macAt R.STN_DSTL R.STN_DSTH

/-- Milliseconds in units of network time. -/
def msUnits (n : Nat) : Nat := n * 1000000 * unitsPerNs

/-- Is the link of a port up? -/
def linkUp (s : State) (p : Nat) : Bool := bitOf (s.get F.STN_STAT_LINK) p

/-- The ports that carry traffic and are up. -/
def stnPorts (s : State) : List Nat := (if s.is F.STN_CFG_PRP then [0, 1] else [0]).filter s.linkUp

/-- One copy of a frame leaves a port whose lane carries frames. -/
def emit (s : State) (p : Nat) (frame : List Byte) : State :=
  if !s.laneSends (6 + p) then s else
  { s.count (F.STN_PTX_COUNT p) with stn := { s.stn with sent := s.stn.sent ++ [(p, frame)] } }

/-- A frame leaves on every port that carries traffic, with PRP under one sequence number and the LAN of each port in its
trailer (R651; the layout of the trailer is that of IEC 62439-3, PRESUMED, log 60). -/
def sendFrame (s : State) (frame : List Byte) : State :=
  if s.is F.STN_CFG_PRP then
    let hdr := if beAt frame 12 2 = 0x8100 then 18 else 14
    let size := (frame.length - hdr + 6) % 4096
    let trailer (p : Nat) : List Byte := beBytes 2 s.stn.prpSeq ++ beBytes 2 ((0xA + p) * 4096 + size) ++ beBytes 2 0x88FB
    let s' := { s with stn := { s.stn with prpSeq := (s.stn.prpSeq + 1) % 65536 } }
    s.stnPorts.foldl (fun t p => t.emit p (frame ++ trailer p)) s'
  else s.stnPorts.foldl (fun t p => t.emit p frame) s

/-- The time that 32-bit seconds and nanoseconds name, nearest to now. -/
def nearTime (s : State) (sec ns : Nat) : Nat :=
  let d := signed 32 ((sec + 2 ^ 32 - s.seconds % 2 ^ 32) % 2 ^ 32)
  ((s.seconds : Int) + d).toNat * unitsPerSec + ns * unitsPerNs

/-- Words 0 and 1 of a transmit descriptor and its instant (R662). -/
def txDesc (s : State) (i : Nat) : Nat × Nat × Nat :=
  let a := (s.reg R.STN_TXBASE).toNat + 16 * i
  (s.num a 4, s.num (a + 4) 4, s.nearTime (s.num (a + 12) 4) (s.num (a + 8) 4))

/-- The time that a frame of `n` bytes occupies a port: preamble, trailer and FCS with it, 8 ns a byte. -/
def wireTime (n : Nat) : Nat := (n + 18) * 8 * unitsPerNs

/-- Could a frame of `n` bytes that starts now not end before the instant of the timed entry at the head (R662)? -/
def guarded (s : State) (n : Nat) : Bool :=
  match s.stn.txq with
  | [] => false
  | i :: _ => let (_, ctl, at') := s.txDesc i; bitOf ctl 12 && decide (s.now ≤ at') && decide (at' < s.now + wireTime n)

/-- A frame that the hardware makes leaves, or waits for the timed entry whose guard it would break. -/
def hwSend (s : State) (frame : List Byte) : State :=
  if s.guarded frame.length then { s with stn := { s.stn with later := s.stn.later ++ [frame] } } else s.sendFrame frame

/-- The frames that waited leave, once no guard holds them. -/
def sendLater (s : State) : State :=
  s.stn.later.foldl hwSend { s with stn := { s.stn with later := [] } }

/-- The frames sent by the command that begins. -/
def freshSent (s : State) : State := { s with stn := { s.stn with sent := [] } }

/-- The header of a frame that the hardware makes, tagged with VLANEN. -/
def ethHeader (s : State) (dst etype : Nat) : List Byte :=
  beBytes 6 dst ++ beBytes 6 s.stnMac
    ++ (if s.is F.STN_CFG_VLANEN then beBytes 2 0x8100 ++ beBytes 2 (s.get F.STN_VLAN_PCP <<< 13 + s.get F.STN_VLAN_VID) else [])
    ++ beBytes 2 etype

/-! Etolwick frames and the exchange, R653 and R654. -/

/-- A key exchange begins: the keys go, a scalar is drawn, and our string leaves for the station controller. Keys are drawn
and installed by the crypto engine. -/
def kxStart (s : State) : State :=
  let (d, s) := s.drawScalar
  let (str, s) := s.kxOwn d (pubOf d)
  let s := { s.set F.STN_STAT_KEYED 0 with stn := { s.stn with keys := { priv := d }, high := none, seen := [] } }
  let body := [5, 1, BitVec.ofNat 8 (s.hubNo + s.side <<< 6), 0] ++ List.replicate 6 0 ++ beBytes 2 str.length ++ str
    ++ List.replicate 8 0
  s.hwSend (s.ethHeader s.stnDst (s.get F.STN_CFG_ETYPE) ++ body)

/-- The tag of the bytes of an Etolwick frame from the hub, and the sequence number it takes; without a key the tag is a
free value. -/
def stnTag (s : State) (seq : Nat) (bytes : List Byte) : List Byte × State :=
  match s.stn.keys.tx with
  | some k => (gmac k (tagIv 7 s.hubNo s.side 0 0 seq) bytes, s)
  | none => let (v, s) := s.free; (beBytes 8 v, s)

/-- The next sequence number of the hub's direction; at 2^40 a new exchange is due. -/
def nextSeq (s : State) : Nat × State :=
  let n := s.stn.keys.txSeq
  (n, { s with stn := { s.stn with keys := { s.stn.keys with txSeq := n + 1 } } })

/-- A tagged Etolwick frame leaves for `dst`. -/
def sendEtolwick (s : State) (dst type : Nat) (body : List Byte) : State :=
  let (n, s) := s.nextSeq
  let bytes := [BitVec.ofNat 8 type, 1, BitVec.ofNat 8 (s.hubNo + s.side <<< 6), 0] ++ beBytes 6 n ++ beBytes 2 body.length ++ body
  let (tag, s) := s.stnTag n bytes
  let s := s.hwSend (s.ethHeader dst (s.get F.STN_CFG_ETYPE) ++ bytes ++ tag)
  s.when (decide (2 ^ 40 ≤ n + 1)) kxStart

/-- The answer of the station controller (R654): its signature covers both ephemeral keys, and its identity stands in the
peer table as a station controller. -/
def stnKxAnswer (s : State) (str : List Byte) : State :=
  let d := s.stn.keys.priv
  let ei := pubOf d
  let er := kxEph str
  if d = 0 ∨ !kxSound str (ei ++ er) then s
  else
    let id := keyId (kxPub str)
    if !s.isPeer id 1 then s.peerRefused
    else match ecdhX d er with
      | none => s
      | some x =>
        let s := { s with stn := { s.stn with keys := {
          rx := some (kxKey "PX up" x ei er s.devId id), tx := some (kxKey "PX down" x ei er s.devId id) } } }
        (s.set F.STN_STAT_KEYED 1).event Pg.STN 17

/-! Reception, R650, R651, R655 and R663. -/

/-- The enabled sampled-value stream of a frame: by APPID and source (R661). -/
def svStream (s : State) (f : EthRx) : Option Nat :=
  if innerType f = 0x88BA ∧ s.isHub then
    firstIdx 4 fun c => s.is (F.STN_SVCFG_EN c) && s.get (F.STN_SVCFG_APPID c) == beAt (innerBody f) 0 2
      && s.macAt (R.STN_SVSRCL c) (R.STN_SVSRCH c) == f.src
  else none

/-- What a frame is: the types of R653 at a hub, a matched sampled-value frame, PRP supervision, or any other. -/
def stnKind (s : State) (f : EthRx) : StnKind :=
  match s.svStream f with
  | some c => .sv c
  | none =>
    if f.dst = 0x01154E000100 then .supervision
    else if s.isHub ∧ innerType f = s.get F.STN_CFG_ETYPE then
      match byteAt (innerBody f) 0 with
      | 1 => .setpoint
      | 2 => .mgmt
      | 5 => .kx
      | _ => .other
    else .other

/-- Is a frame addressed to the hub? -/
def addressed (s : State) (f : EthRx) : Bool :=
  let grp := s.macAt R.STN_GRPL R.STN_GRPH
  f.dst == s.stnMac || (grp != 0 && f.dst == grp) || commonDst.contains f.dst || (s.svStream f).isSome

/-- The redundancy trailer of a frame from `src` with sequence number `seq`: is it a later copy? The window holds the 64
numbers up to the highest heard (R651). -/
def prpCheck (s : State) (src seq : Nat) : Bool × State :=
  let life := msUnits (max 1 (s.get F.STN_PRP_FORGET))
  let known := s.stn.prp.filter fun e => decide (s.now < e.heard + life)
  let (old, e) : Bool × PrpSrc := match known.find? fun e => e.mac == src with
    | none => (false, { mac := src, heard := s.now, high := seq, seen := [seq] })
    | some e =>
      let ahead := (seq + 65536 - e.high) % 65536
      if e.seen.contains seq ∧ (65536 - ahead) % 65536 < 64 then (true, { e with heard := s.now })
      else if 0 < ahead ∧ ahead < 32768 then
        (false, { e with heard := s.now, high := seq, seen := (seq :: e.seen).filter fun x => (seq + 65536 - x) % 65536 < 64 })
      else (false, { e with heard := s.now, seen := if 65536 - ahead < 64 then seq :: e.seen else e.seen })
  (old, { s with stn := { s.stn with prp := (e :: known.filter fun x => x.mac != src).take 32 } })

/-- A frame reaches a port: it passes on to `k`, or is dropped and counted; a PAUSE frame (EtherType 0x8808) counts with those
of a foreign address. -/
def stnRx (s : State) (f : EthRx) (k : State → State) : State :=
  let p := f.port
  if 2 ≤ p ∨ !s.linkUp p ∨ !s.laneHears (6 + p) ∨ (p = 1 ∧ !s.is F.STN_CFG_PRP) ∨ 1522 < f.body.length + 18 then s
  else
    let s := s.reach f.time
    if !f.fcsOk then s.bump (F.STN_PERR_FCS p)
    else if !f.codeOk then s.bump (F.STN_PERR_CODE p)
    else if innerType f = 0x8808 ∨ !s.addressed f then s.bump (F.STN_PERR_ADDR p)
    else
      let s := s.count (F.STN_PRX_COUNT p)
      match s.is F.STN_CFG_PRP && !ptpEvent f, f.rct with
      | true, some seq =>
        let (old, s) := s.prpCheck f.src seq
        if old then s.count (F.STN_PDUP_COUNT p) else k s
      | _, _ => k s

/-- Does DEST name this hub (R653)? -/
def destTaken (s : State) (b : List Byte) : Bool :=
  let d := byteAt b 2
  d % 64 == s.hubNo && (byteAt b 0 != 2 || (d / 64 % 2 == s.side && d / 128 == 0) || (d / 128 == 1 && s.hubDrives))

/-- The common format of R653: version, byte 3, and a length that the frame holds. -/
def etolwickFmt (b : List Byte) : Bool :=
  decide (20 ≤ b.length) && byteAt b 1 == 1 && byteAt b 3 == 0 && decide (20 + beAt b 10 2 ≤ b.length)

/-- The body of an Etolwick frame. -/
def etolwickBody (b : List Byte) : List Byte := (b.drop 12).take (beAt b 10 2)

/-- Is the tag that of the station under PX up? -/
def stnTagOk (s : State) (b : List Byte) : Bool :=
  match s.stn.keys.rx with
  | some k =>
    let n := 12 + beAt b 10 2
    gmac k (tagIv 6 s.hubNo s.side 0 0 (beAt b 4 6)) (b.take n) == (b.drop n).take 8
  | none => false

/-- Is a sequence number new: above every one accepted, or among the 64 below the highest and not accepted? -/
def seqNew (s : State) (n : Nat) : Bool :=
  match s.stn.high with
  | none => true
  | some h => decide (h < n) || (decide (h ≤ n + 64) && !s.stn.seen.contains n)

/-- A sequence number is accepted. -/
def seqTake (s : State) (n : Nat) : State :=
  let h := max n (s.stn.high.getD n)
  { s with stn := { s.stn with high := some h, seen := (n :: s.stn.seen).filter fun x => decide (h ≤ x + 64) } }

/-- The checks of R655 in their order; a frame that passes goes to `k`. A direction whose SEQ reaches 2^40 starts an
exchange. -/
def checked (s : State) (b : List Byte) (fmt : Bool) (k : State → State) : State :=
  if !s.destTaken b then s
  else if !(etolwickFmt b && fmt) then s.bump F.STN_FCNT2_FMT
  else if !s.stnTagOk b then (s.bump F.STN_FCNT_TAG).event Pg.STN 11
  else
    let n := beAt b 4 6
    if !s.seqNew n then (s.bump F.STN_FCNT_REPLAY).event Pg.STN 12
    else
      let s := k (s.seqTake n)
      s.when (decide (2 ^ 40 ≤ n)) kxStart

/-! Set-points, R656 and R657. -/

/-- The set-point that a body spells. -/
def spParse (s : State) (b : List Byte) : SpFrame :=
  let w (o : Nat) : Word := BitVec.ofNat 32 (beAt b o 4)
  { angt := s.nearTime (beAt b 0 4) (beAt b 4 4), angle := w 8, freq := w 12, rocof := w 16,
    angv := byteAt b 29 % 2 == 1,
    apply := if beAt b 20 8 = 0 then 0 else s.nearTime (beAt b 20 4) (beAt b 24 4),
    words := (List.range (byteAt b 28)).map fun j => w (32 + 4 * j), got := s.now }

/-- Is the format of a SETPOINT body right, with APPLY at most 1 s ahead? -/
def spFmt (s : State) (b : List Byte) : Bool :=
  let n := byteAt b 28
  decide (32 ≤ b.length) && decide (n ≤ 32) && b.length == 32 + 4 * n && beAt b 30 2 == 0
    && decide ((s.spParse b).apply ≤ s.now + unitsPerSec)

/-- A SETPOINT frame passes the checks: it becomes pending. -/
def setpoint (s : State) (b : List Byte) : State :=
  let body := etolwickBody b
  s.checked b (s.spFmt body) fun s =>
    { s.count F.STN_FCNT_SPOK with stn := { s.stn with pend := some (s.spParse body) } }

/-- A pending frame becomes active at the meridian `t`, the first at or after its acceptance and APPLY. -/
def spActivate (s : State) (t : Nat) : State :=
  match s.stn.pend with
  | some f =>
    if f.got ≤ t ∧ f.apply ≤ t then
      { s.set F.STN_STAT_SPF 1 with stn := { s.stn with active := some f, pend := none, spAt := s.elapsed } }
    else s
  | none => s

/-! Angle and frequency, R658. -/

/-- The angle and the frequency of a frame at time `t`. -/
def spAngle (f : SpFrame) (t : Nat) : DWord × DWord :=
  let tau := dSeconds ((t : Int) - f.angt)
  let om := dAdd (dMul (sToD f.freq) tau) (dDiv (dMul (sToD f.rocof) (dMul tau tau)) (dInt 2))
  (wrapAngle (dAdd (sToD f.angle) (dMul twoPi om)), dAdd (sToD f.freq) (dMul (sToD f.rocof) tau))

/-- The angle, the frequency and their validity at the meridian `t`. -/
def stationAngle (s : State) (t : Nat) : DWord × DWord × Bool × State :=
  let s := match s.stn.ang0 with
    | some _ => s
    | none => { s with stn := { s.stn with ang0 := some t } }
  let tau (f : SpFrame) : Int := (t : Int) - f.angt
  let s := match s.stn.active with
    | some f => s.setReg R.STN_ANGAGE (BitVec.ofNat 32 (unsigned 32 (tau f / (1000 * unitsPerNs : Nat))))
    | none => s
  let ok := match s.stn.active with
    | some f => f.angv && decide ((tau f).natAbs ≤ msUnits (max 1 (s.get F.STN_ANG_TMO)))
    | none => false
  let s := s.when (!ok && s.is F.STN_STAT_ANGV) (·.event Pg.STN 10)
  let s := s.set F.STN_STAT_ANGV (b2n ok)
  let s := if ok then { s with stn := { s.stn with lastAng := s.stn.active } } else s
  match s.stn.lastAng with
  | some f => let (a, w) := spAngle f t; (a, w, ok, s)
  | none =>
    let w := dRat (s.get F.STN_ANG_FNOM) 100
    (wrapAngle (dMul twoPi (dMul w (dSeconds ((t : Int) - (s.stn.ang0.getD t : Nat))))), w, ok, s)

/-! Sampled values, R661 (the encoding is that of IEC 61850-9-2, PRESUMED, log 60). -/

/-- The length of a BER element at the head of a string, and the bytes of its header. -/
def berLen (bs : List Byte) : Nat × Nat :=
  let n := byteAt bs 1
  if n < 128 then (n, 2) else (beAt bs 2 (n % 128), 2 + n % 128)

/-- The elements of a BER string: tag and content. -/
def berItems : (fuel : Nat) → List Byte → List (Nat × List Byte)
  | 0, _ => []
  | k + 1, bs =>
    if bs.length < 2 then []
    else
      let (n, h) := berLen bs
      (byteAt bs 0, (bs.drop h).take n) :: berItems k (bs.drop (h + n))

/-- The content of the first element with a tag. -/
def berFind (l : List (Nat × List Byte)) (tag : Nat) : Option (List Byte) := (l.find? fun e => e.1 == tag).map (·.2)

/-- The ASDUs of a sampled-value frame behind its EtherType: smpCnt, smpSynch and the dataset of each. -/
def svAsdus (b : List Byte) : List (Nat × Nat × List Byte) :=
  match berFind (berItems 4 (b.drop 8)) 0x60 with
  | none => []
  | some pdu =>
    match berFind (berItems 8 pdu) 0xA2 with
    | none => []
    | some l =>
      ((berItems 9 l).filter fun e => e.1 == 0x30).map fun e =>
        let q := berItems 16 e.2
        (ofBe ((berFind q 0x82).getD []), ofBe ((berFind q 0x85).getD []), (berFind q 0x87).getD [])

/-- The sample of an ASDU of stream `c`, received at `t`. -/
def svSample (s : State) (c t : Nat) (a : Nat × Nat × List Byte) : SvSample :=
  let off := a.1 * max 1 (s.get (F.STN_SVPER_PER c)) * unitsPerNs
  let sec := if off ≤ t then (t - off) / unitsPerSec else 0
  let q (j : Nat) : Nat := beAt a.2.2 (8 * j + 4) 4
  { time := sec * unitsPerSec + off
    vals := (List.range 8).map fun j => signed 32 (beAt a.2.2 (8 * j) 4)
    good := (List.range 8).map fun j =>
      q j % 4 == 0 && a.2.1 != 0 && decide (off < unitsPerSec) && (!bitOf (q j) 11 || s.is (F.STN_SVCFG_TESTOK c)) }

/-- A sampled-value frame of stream `c`: 1 to 8 datasets of eight values with their qualities. -/
def svFrame (s : State) (c t : Nat) (b : List Byte) : State :=
  let l := svAsdus b
  if l = [] ∨ 8 < l.length ∨ l.any (fun a => a.2.2.length != 64) then s.bump F.STN_SVCNT_UNMATCH
  else
    let new := (l.map fun a => s.svSample c t a).reverse
    let s := s.count F.STN_SVCNT_OK l.length
    { s with stn := { s.stn with sv := s.stn.sv.modify c fun old => (new ++ old).take 16, svAt := setAt 0 s.stn.svAt c s.elapsed } }

/-! Transmission, R662. -/

/-- TXPOST.HEAD follows the queue. -/
def showHead (s : State) : State := match s.stn.txq with
  | i :: _ => s.set F.STN_TXPOST_HEAD i
  | [] => s

/-- SEQ and TAG of an Etolwick frame are filled in. -/
def fillTag (s : State) (frame : List Byte) : List Byte × State :=
  let h := if beAt frame 12 2 = 0x8100 then 18 else 14
  let (n, s) := s.nextSeq
  let frame := frame.take (h + 4) ++ beBytes 6 n ++ frame.drop (h + 10)
  let m := 12 + beAt frame (h + 10) 2
  let (tag, s) := s.stnTag n ((frame.drop h).take m)
  (frame.take (h + m) ++ tag ++ frame.drop (h + m + 8), s)

/-- The frame of the descriptor at the head leaves. The queue moves on. -/
def txSend (s : State) (i : Nat) : State :=
  let (addr, ctl, _) := s.txDesc i
  let (_, _, s) := s.fetch 12 ((s.reg R.STN_TXBASE).toNat + 16 * i) 16
  let (frame, _, s) := s.fetch 12 addr (ctl % 2048)
  let (frame, s) := if bitOf ctl 13 then s.fillTag frame else (frame, s)
  let p := b2n (bitOf ctl 15)
  let s := if !bitOf ctl 14 then s.sendFrame frame
    else if s.linkUp p ∧ (p = 0 ∨ s.is F.STN_CFG_PRP) then s.emit p frame
    else s
  let s := { s with stn := { s.stn with txq := s.stn.txq.tail } }
  s.when (bitOf ctl 13 && decide (2 ^ 40 ≤ s.stn.keys.txSeq)) kxStart

/-- Entries at the head leave until a timed one waits for its instant; one that reaches the head less than 2 us before it
leaves at once and is late. -/
def txDrain (s : State) : (fuel : Nat) → State
  | 0 => s
  | k + 1 =>
    match s.stn.txq with
    | [] => s
    | i :: _ =>
      let (_, ctl, at') := s.txDesc i
      if !bitOf ctl 12 then (s.txSend i).txDrain k
      else if at' < s.now + 2000 * unitsPerNs then
        (((s.bump F.STN_TXCNT_LATE).event Pg.STN 14).txSend i).txDrain k
      else s

/-- The queue moves after a change of its head. -/
def txMove (s : State) : State := (s.txDrain (s.stn.txq.length + 1)).showHead

/-- STN_TXPOST: a descriptor is posted. -/
def txPost (s : State) (i : Nat) : State :=
  let idle := s.stn.txq == []
  let s := { s.freshSent with stn := { s.freshSent.stn with txq := s.stn.txq ++ [i % 32] } }
  if idle then s.txMove else s.showHead

/-- The timed entry at the head has reached its instant. -/
def timedSend (s : State) : State :=
  match s.stn.txq with
  | [] => s
  | i :: _ =>
    let (_, ctl, at') := s.txDesc i
    if bitOf ctl 12 then ((s.freshSent.reach at').txSend i).sendLater.txMove else s

/-! The receive ring, R663. -/

/-- A frame that the hardware does not consume goes to the ring. -/
def toRing (s : State) (f : EthRx) : State :=
  let h := s.get F.STN_RXPTR_HEAD
  if (h + 1) % 32 = s.get F.STN_RXPTR_TAIL then (s.bump F.STN_TXCNT_RXDROP).event Pg.STN 15
  else
    let bytes := beBytes 6 f.dst ++ beBytes 6 f.src ++ beBytes 2 f.etype ++ f.body
    let a := (s.reg R.STN_RXBASE).toNat + 2048 * h
    let s := s.write 12 a (leBytes 4 (bytes.length + f.port <<< 12) ++ bytes)
    (s.set F.STN_RXPTR_HEAD (h + 1)).event Pg.STN 16

/-! Streaming, R664. -/

/-- The oldest chunk leaves as four STREAM frames, or is dropped while the ports are down or unkeyed. -/
def streamChunk (s : State) : State :=
  match s.stn.strm with
  | [] => s
  | c :: rest =>
    let s := { s.freshSent with stn := { s.freshSent.stn with strm := rest } }
    if s.stnPorts = [] ∨ !s.is F.STN_STAT_KEYED then s.bump F.STN_STRM_STRDROP
    else
      let (data, bad, s) := s.fetch 12 c.addr 4096
      (List.range 4).foldl (fun t j =>
        t.sendEtolwick t.stnDst 4 (beBytes 2 c.seq ++ [BitVec.ofNat 8 j, BitVec.ofNat 8 (b2n (c.inv || bad))]
          ++ beBytes 4 c.addr ++ (data.drop (1024 * j)).take 1024)) s

/-! Links and commands of the page. -/

/-- STN_CMD.CLRCNT: the counters of the page. -/
def stnClear (s : State) : State :=
  let regs := [R.STN_PRX 0, R.STN_PRX 1, R.STN_PERR 0, R.STN_PERR 1, R.STN_PTX 0, R.STN_PTX 1, R.STN_PDUP 0, R.STN_PDUP 1,
    R.STN_FCNT, R.STN_FCNT2, R.STN_SVCNT, R.STN_TXCNT]
  (regs.foldl (fun t a => t.setReg a 0) s).set F.STN_STRM_STRDROP 0

/-- A link of a port comes up or goes down. -/
def stnLink (s : State) (p : Nat) (up : Bool) : State :=
  let l := s.get F.STN_STAT_LINK
  (s.set F.STN_STAT_LINK (if up then l ||| 1 <<< p else if bitOf l p then l - 1 <<< p else l)).event Pg.STN 8

/-- A PRP supervision frame of IEC 62439-3 (PRESUMED, log 60): a life check of a node that discards duplicates. -/
def supervisionFrame (s : State) : List Byte :=
  beBytes 6 0x01154E000100 ++ beBytes 6 s.stnMac ++ beBytes 2 0x88FB ++ beBytes 2 (1 <<< 12) ++ beBytes 2 s.stn.prpSeq
    ++ beBytes 2 0x1406 ++ beBytes 6 s.stnMac ++ beBytes 2 0

end State

open State

/-- STATION_LINK_UP: the link of a port is established; the hub starts an exchange (R654). -/
def execStationLinkUp (port : Nat) (s : State) : Out :=
  act s (s.stnOn && decide (port < 2) && !s.linkUp port) fun s =>
    let s := s.freshSent.stnLink port true
    s.when (s.isHub && (port == 0 || s.is F.STN_CFG_PRP)) kxStart

/-- STATION_LINK_DOWN. -/
def execStationLinkDown (port : Nat) (s : State) : Out :=
  act s (s.stnOn && decide (port < 2) && s.linkUp port) fun s => s.stnLink port false

/-- STATION_KX_RX: a KX frame from the station controller. -/
def execStationKxRx (frame : EthRx) (s : State) : Out :=
  act s (s.stnOn && s.stnKind frame == .kx) fun s =>
    s.stnRx frame fun s =>
      let b := innerBody frame
      if !s.destTaken b then s
      else if !etolwickFmt b then s.bump F.STN_FCNT2_FMT
      else s.stnKxAnswer (etolwickBody b)

/-- SETPOINT_RX. -/
def execSetpointRx (frame : EthRx) (s : State) : Out :=
  act s (s.stnOn && s.stnKind frame == .setpoint) fun s => s.stnRx frame fun s => s.setpoint (innerBody frame)

/-- SP_STALE: no frame has become active for TMO; the last words stay active. -/
def execSpStale (s : State) : Out :=
  act s (s.stnOn && s.is F.STN_STAT_SPF) fun s =>
    ((s.timerEnds (s.stn.spAt + msUnits (max 1 (s.get F.STN_SP_TMO)))).set F.STN_STAT_SPF 0).event Pg.STN 9

/-- SV_FRAME_RX. -/
def execSvFrameRx (frame : EthRx) (s : State) : Out :=
  match s.stnKind frame with
  | .sv c => act s s.stnOn fun s => s.stnRx frame fun s => s.svFrame c frame.time (innerBody frame)
  | _ => .next s

/-- SV_LOST: an enabled stream has delivered no sample for 10 ms. -/
def execSvLost (c : Nat) (s : State) : Out :=
  act s (s.stnOn && s.isHub && decide (c < 4) && s.is (F.STN_SVCFG_EN c)) fun s =>
    ((s.timerEnds (nth s.stn.svAt c 0 + msUnits 10)).bump F.STN_SVCNT_LOST).event Pg.STN 13

/-- TIMED_TX. -/
def execTimedTx (s : State) : Out := act s s.stnOn timedSend

/-- RX_TO_RING: a frame that the hardware does not consume; supervision frames are counted only. -/
def execRxToRing (frame : EthRx) (s : State) : Out :=
  match s.stnKind frame with
  | .other => act s s.stnOn fun s => s.stnRx frame fun s => s.toRing frame
  | .supervision => act s s.stnOn fun s => s.stnRx frame id
  | _ => .next s

/-- STREAM_TX. -/
def execStreamTx (s : State) : Out := act s (s.stnOn && s.isHub) streamChunk

/-- PRP_SUPERVISION_TX, every LCI ms. -/
def execPrpSupervisionTx (s : State) : Out :=
  act s (s.stnOn && s.is F.STN_CFG_PRP) fun s =>
    let s := match s.stn.prpAt with
      | some t => s.timerEnds (t + msUnits (max 1 (s.get F.STN_PRP_LCI)))
      | none => s
    { s.freshSent with stn := { s.freshSent.stn with prpAt := some s.elapsed } }.hwSend s.supervisionFrame

/-- PTP_TIMESTAMP: an event message (type 0 to 3) at station port `port` is timestamped and queued; with ONESTEP a
received Pdelay_Req is answered by a Pdelay_Resp with the residence time t3 - t2 added to its correction field, which counts
as a frame sent (R232, R233; log 130). -/
def execPtpTimestamp (port seq msgType : Nat) (sent : Bool) (corr t3 : Nat) (s : State) : Out :=
  act s (s.alive && s.runs Pg.TIME && !s.isCell && decide (port < 2) && decide (msgType < 4)) fun s =>
    let t := s.ptpStamp sent
    let s := s.pushTs port ⟨seq, msgType, sent, t⟩
    if s.isHub && s.is F.TIME_PTP_ONESTEP && msgType == 2 && !sent then
      let s := { s with time := { s.time with pdelay := s.time.pdelay ++ [PdelayResp.mk port seq (corr + (t3 - t))] } }
      s.when (s.linkUp port && s.laneSends (6 + port)) (·.count (F.STN_PTX_COUNT port))
    else s

end Sys2Proof.Machine
end

