-- ==== Sys2Proof/Machine/Boot.lean ====
section
/-! DEFINITION. Reset, supplies, the ROLE reading, the boot ROM, containers, and the supervisor's own registers (R4, R12,
R37, R40, R127 to R161, R169 to R177). -/

namespace Sys2Proof.Machine

/-- The bytes of a container: numbers of its header, and its body. -/
def imgNum (c : List Byte) (o n : Nat) : Nat := ofLe ((c.drop o).take n)
def imgBody (c : List Byte) : List Byte := (c.drop 4096).take (imgNum c 0x24 4)

/-- Does a key record carry its magic (R171)? -/
def keyMagic (r : List Byte) : Bool := r.take 4 == [0x50, 0x58, 0x4F, 0x4B]

/-- The public key of a key record. -/
def keyOf (r : List Byte) : List Byte := (r.drop 4).take 64

/-- Does a reset other than power-on keep the memory at an address (R129): recorder memory; OTP and flash are kept by
every reset? -/
def keptMem (a : Nat) : Bool :=
  (decide (0x30000000 ≤ a) && decide (a < 0x30400000)) || (decide (0x50000000 ≤ a) && decide (a < 0x61000000))

/-- The role of a strap code (R12). -/
def roleOf (strap : Nat) : Role := match strap with
  | 0 => .cell
  | 1 => .hub
  | 2 => .referee
  | _ => .fault

/-- The strap code of two readings (R37). -/
def strapOf (up down : RoleBand) : Nat :=
  if up ≠ down then 3 else match up with
    | .low => 0
    | .high => 1
    | .mid => 2
    | .none => 3

namespace State

/-! Resets, R127 to R129. -/

/-- Cause `n` is recorded (R128). -/
def noteReset (s : State) (n : Nat) : State :=
  let s := s.set ⟨R.SYS_RST_CAUSE, n, 1⟩ 1
  (s.set F.SYS_RST_CAUSE_LAST n).bump F.SYS_RST_CAUSE_COUNT

/-- The levels at the terminals as the part enters reset: those it reads stay, SEAL_OUT is driven low (R39, R130). -/
def resetPins (p : PinSt) : PinSt := { p with sealOut := false, gpioLed := false }

/-- A reset other than power-on: what R129 lists stays, as do UNLOCKS (R188), the levels read, the fuses and the commands
that wait. -/
def deviceReset (s : State) (n : Nat) (phase : Phase) (role : Role) : State :=
  (({ ({} : State) with
      role := role, phase := phase, grade := s.grade, pins := resetPins s.pins
      regs := kvKeep keptReg s.regs
      mem := kvKeep keptMem s.mem
      memErr := kvKeep (fun w => keptMem (8 * w)) s.memErr
      err := { log := s.err.log }
      gate := { pbyp := s.gate.pbyp }
      boot := { flash := s.boot.flash, sincePor := false }
      freeCtr := s.freeCtr
      pending := s.pending } : State).set F.DBG_STAT_UNLOCKS (s.get F.DBG_STAT_UNLOCKS)).noteReset n

/-- A power-on reset: all but OTP, flash, fuses and terminal levels starts afresh, and the cause record holds POR alone. -/
def powerOn (s : State) (pins : PinSt) : State :=
  { ({} : State) with
      grade := s.grade, pins := resetPins pins, regs := [(R.SYS_RST_CAUSE, 1)]
      mem := kvKeep (fun a => keptMem a && decide (0x50000000 ≤ a)) s.mem
      freeCtr := s.freeCtr, pending := s.pending }

/-- The part leaves reset once no source holds it: the ROLE reading begins. -/
def leaveReset (s : State) : State :=
  if s.pins.nRst && s.pins.rails && s.pins.vddio && s.phase == .held then
    { s with phase := .pullUp, boot := { s.boot with presHeld := !s.pins.presence } }
  else s

/-! Identity and keys of the ROM, R169 and R171. -/

/-- The identity at the start of the ROM: generated after a power-on reset without a valid record, unless the health tests
failed three times or both records are spoiled. -/
def identity (s : State) (healthFailures : Nat) : State :=
  if s.idRecord.isSome then (if s.get F.SEC_ID_STATE = 1 then s else s.set F.SEC_ID_STATE 0)
  else
    let free := [0x100, 0x180].find? fun o => !s.programmed o 128
    match free with
    | none => (s.set F.SEC_ID_STATE 3).event Pg.SEC 16
    | some o =>
      if 3 ≤ healthFailures ∨ !s.boot.sincePor then (s.set F.SEC_ID_STATE 2).event Pg.SEC 16
      else
        let (d, s) := s.drawScalar
        let s := (s.program o (beBytes 32 d ++ pubOf d)).program (o + 96) marker
        s.set F.SEC_ID_STATE 1

/-- Has the identity failed? Such a part holds no identity record and never leaves the ROM. -/
def idFailed (s : State) : Bool := s.idRecord.isNone

/-! Containers, R137, R141 and R142. -/

/-- The address of flash slot `i`, and its key record. -/
def slotAddr (i : Nat) : Nat := 0x60000000 + 0x800000 * i
def keyRecord (s : State) (i : Nat) : List Byte := s.bytes (slotAddr i + 0x7FF000) 68

/-- Does a key record hold the key of the active owner? -/
def ownerKey (s : State) (r : List Byte) : Bool :=
  keyMagic r && match s.activeSlot with
    | some o => sha256 (keyOf r) == s.ownerHash o
    | none => false

/-- The owner key among the flash key records. -/
def flashOwner (s : State) : Option (List Byte) :=
  ([0, 1].find? fun i => s.ownerKey (s.keyRecord i)).map fun i => keyOf (s.keyRecord i)

/-- The first of the tests 1 to 6 of R142 that a header fails, 0 for none; `key` is the key of test 5. -/
def headerWhy (s : State) (h : List Byte) (key : Option (List Byte)) : Nat :=
  let load := imgNum h 0x1C 4
  if h.take 4 ≠ [0x50, 0x58, 0x49, 0x4D] ∨ imgNum h 4 2 ≠ 1 ∨ imgNum h 6 2 ≠ 0x1000 then 1
  else if !bitOf (imgNum h 8 4) 2 then 2
  else if imgNum h 0xC 1 &&& roleBit s.role = 0 then 3
  else if load < 0x10000000 ∨ 0x10080000 < load + imgNum h 0x24 4
      ∨ imgNum h 0x20 4 < 0x10000000 ∨ 0x10080000 ≤ imgNum h 0x20 4 then 4
  else if !(match key with | some k => ecdsaVerify k (h.take 0xF00) ((h.drop 0xF00).take 64) | none => false) then 5
  else if imgNum h 0xD 1 < s.antiRollback then 6
  else 0

/-- The first test of R142 that a container fails, 0 for none. -/
def containerWhy (s : State) (c : List Byte) (key : Option (List Byte)) : Nat :=
  match s.headerWhy c key with
  | 0 => if sha256 (imgBody c) = (c.drop 0x30).take 32 then 0 else 7
  | w => w

/-- The header of slot `i`, and its whole container, no longer than SRAM takes. -/
def slotHeader (s : State) (i : Nat) : List Byte := s.bytes (slotAddr i) 4096
def slotImage (s : State) (i : Nat) : List Byte :=
  s.bytes (slotAddr i) (4096 + min 0x80000 (s.num (slotAddr i + 0x24) 4))

/-- The body of a container has streamed into SRAM for its hash, test 7 (R142). -/
def loadBody (s : State) (c : List Byte) (why : Nat) : State :=
  if why = 0 ∨ why = 7 then s.setBytes (imgNum c 0x1C 4) (imgBody c) else s

/-- The slot tried first (R137). -/
def firstSlot (s : State) : Nat :=
  if s.is F.BOOT_NEXT_ONCE then s.get F.BOOT_NEXT_SLOT
  else
    let key := s.flashOwner
    let ok (i : Nat) : Bool := s.headerWhy (s.slotHeader i) key == 0
    let rank (i : Nat) : Nat := s.num (slotAddr i + 0xD) 1 * 2 ^ 32 + s.num (slotAddr i + 0x18) 4
    if ok 1 && (!ok 0 || decide (rank 0 < rank 1)) then 1 else 0

/-- REJA or REJB. -/
def reject (s : State) (i why : Nat) : State := s.set (if i = 0 then F.BOOT_REJ_REJA else F.BOOT_REJ_REJB) why

/-- The ROM has read the header of slot `i` (R137): a failure is recorded; a sound one is not tried yet. -/
def readHeader (s : State) (i : Nat) : State :=
  match s.headerWhy (s.slotHeader i) s.flashOwner with
  | 0 => s.reject i 15
  | why => s.reject i why

/-! The boot, R137 to R144. -/

/-- ROM recovery (R143): the flash is put into deep power-down and the host port enabled under R44. -/
def recover (s : State) : State :=
  let s := (s.set F.BOOT_STAT_SRC 7).set F.HOST_CTRL_HOST 1
  { s with phase := .recovery, boot := { s.boot with trying := none }, host := { s.host with bus := .handingOver } }

/-- No local image boots: a hub or referee goes to ROM recovery, a cell boots from the tree. -/
def noSlot (s : State) : State :=
  if s.isCell then { s with boot := { s.boot with trying := none, treeBoot := true } } else s.recover

/-- The ROM chooses its source. -/
def chooseSource (s : State) : State :=
  let s := (s.reject 0 15).reject 1 15
  if s.idFailed then (if s.isCell then { s with boot := { s.boot with trying := none } } else s.recover)
  else if !s.boot.flash then ((s.reject 0 8).reject 1 8).noSlot
  else
    let s := (s.readHeader 0).readHeader 1
    let i := s.firstSlot
    let s := s.set F.BOOT_NEXT_ONCE 0
    { s with boot := { s.boot with trying := some i, tried := [] } }

/-- What the ROM of a cell brings up before it seeks admission: the time unit and both tree paths (R225, R690), and the
uplinks, which hunt for their rate (R196) and whose transmitters wait for the admission (R39; DEDUCED, log 62). -/
def cellUp (s : State) : State :=
  let s := [Pg.TIME, Pg.TREE 0, Pg.TREE 1, Pg.LANE 0, Pg.LANE 1].foldl
    (fun t pg => (t.set (F.PG_CTRL_EN pg) 1).set (F.PG_STAT_RUN pg) 1) s
  [0, 1].foldl (fun t n =>
    ((t.set (F.LANE_PWR_REQ n) 0).set (F.LANE_PWR_CUR n) 0).set (F.LANE_STAT_HUNT n) 1) s

/-- The boot ROM starts: it reads the OTP, has cleared the memories of R129, and chooses its source. -/
def romStart (s : State) (healthFailures : Nat) : State :=
  let s := { s with
    phase := .rom
    mem := kvKeep keptMem s.mem, memErr := kvKeep (fun w => keptMem (8 * w)) s.memErr
    sup := { halted := s.sup.halted, wdtEnd := s.sup.wdtEnd }
    host := { s.host with bus := if s.isCell && !s.boot.flash then .released else .master } }
  let s := s.identity healthFailures
  let s := if s.isCell then s.cellUp else s.set F.CLK_SRC_XOSC_EN 1
  s.chooseSource

/-- SYS_ROLE shows the strap code and the role that it gives. -/
def showRole (s : State) (strap : Nat) : State := (s.set F.SYS_ROLE_STRAP strap).set F.SYS_ROLE_ROLE strap

/-- A whole reset of a running part, and the boot that follows, in the role that the ROLE reading found. -/
def restart (s : State) (n : Nat) : State :=
  ((s.deviceReset n .rom s.role).showRole (match s.role with | .cell => 0 | .hub => 1 | _ => 2)).romStart 0

/-- The board table of the container that boots (R202, R203); a tree boot has none. -/
def loadBoard (s : State) (board : List Byte) : State :=
  let b (o : Nat) : Nat := byteAt board o
  forUpTo (fun n t =>
    if imgNum board 0 2 = 1 ∧ bitOf (b 2) n then
      let t := (t.set (F.LANE_CFG_TXINV n) (b 3 >>> n)).set (F.LANE_CFG_RXINV n) (b 4 >>> n)
      forUpTo (fun r t =>
        let a := R.LANE_EQ n r
        let o := 8 + 4 * (3 * n + r)
        let w : Word := BitVec.ofNat 32 (b o % 8 + (b (o + 1) % 64) <<< 8 + (b (o + 2) % 16) <<< 16 + (b (o + 3) % 16) <<< 24)
        let t := { t.setReg a w with act := kvSet t.act a w }
        t.eqClip n r) 3 t
    else t.set (F.LANE_STAT_BOARD_DFLT n) 1) 8 { s with boot := { s.boot with board := board } }

/-- The ROM has raised the domains to their running settings by the jump (R103, R107, R150), where a reference is good:
XOSC, or in a cell the received clock. -/
def clocksUp (s : State) : State :=
  let u := s.get F.CLK_SRC_RCSEL
  let ok := if s.isCell then s.is (F.LANE_STAT_CDR_LOCK u) else s.clk.xoscReady
  if !ok then s
  else
    let (pre, mult) := if !s.isCell then (1, 40) else match s.rate u with
      | 0 => (1, 32)
      | 1 => (5, 64)
      | _ => (5, 32)
    let s := (s.set F.CLK_SRC_SPLL_EN 1).set F.CLK_SPLL_STAT_LOCK 1
    let s := ((s.set F.CLK_SPLL_REFSEL (if s.isCell then 3 else 1)).set F.CLK_SPLL_PREDIV pre).set F.CLK_SPLL_MULT mult
    [(0, 4), (1, 8), (3, 10), (2, 50)].foldl (fun t x =>
      (((t.set (F.CLK_DOM_SRC x.1) 1).set (F.CLK_DOM_DIV x.1) x.2).set (F.CLK_DOM_CUR x.1) x.2).set (F.CLK_DOM_CURSRC x.1) 1) s

/-- The partners that a header names. -/
def partnersOf (c : List Byte) : List Partner :=
  (List.range (min 16 (imgNum c 0x50 1))).map fun j =>
    { id := idOfBytes ((c.drop (0x60 + 12 * j)).take 8), roles := imgNum c (0x68 + 12 * j) 1 }

/-- The jump to ENTRY of an accepted container from source `src`; its body is in SRAM. -/
def jump (s : State) (c : List Byte) (src : Nat) (board : List Byte) : State :=
  let id := idOfBytes ((c.drop 0x30).take 8)
  let s := s.set F.BOOT_STAT_SRC src
  let s := (s.set F.BOOT_RUN_SV (imgNum c 0xD 1)).set F.BOOT_RUN_LINK (imgNum c 0x14 2)
  let s := (s.setReg R.BOOT_BUILD (BitVec.ofNat 32 (imgNum c 0x18 4))).setReg R.BOOT_FEAT (BitVec.ofNat 32 (imgNum c 0x10 4))
  let s := ((s.setReg R.BOOT_ID_LO (idLo id)).setReg R.BOOT_ID_HI (idHi id)).set F.BOOT_MIRV_MIRV (imgNum c 0x16 2)
  let s := (s.loadBoard board).clocksUp
  { s with
      phase := .running
      boot := { s.boot with trying := none, treeBoot := false, imageId := id, partners := partnersOf c }
      sup := { s.sup with pc := BitVec.ofNat 32 (imgNum c 0x20 4) } }

/-- The container of flash slot `i` boots. -/
def bootSlot (s : State) (i : Nat) : State :=
  let c := s.slotImage i
  (s.reject i 0).jump c (if s.isCell then 3 + i else i) ((c.drop 0x200).take 512)

/-- The container being loaded is checked in order; the first failure goes to BOOT_REJ and the other slot is tried. -/
def checkSlot (s : State) : State :=
  match s.boot.trying with
  | none => s
  | some i =>
    let why := s.containerWhy (s.slotImage i) s.flashOwner
    let s := s.loadBody (s.slotImage i) why
    if why = 0 then s.bootSlot i
    else
      let s := s.reject i why
      let tried := i :: s.boot.tried
      if tried.contains (1 - i) then s.noSlot
      else { s with boot := { s.boot with trying := some (1 - i), tried := tried } }

/-- BOOT_CTL.RETRY in ROM recovery (R143): a fresh boot, the cause record as it was. -/
def bootRetry (s : State) : State :=
  if s.phase = .recovery then ({ s with boot := { s.boot with tried := [] } }).romStart 3 else s

/-- The test of slot `i` under its own key record (R173): none without the magic, else the first failure of R142. -/
def ownerTest (s : State) (i : Nat) : Option Nat :=
  if keyMagic (s.keyRecord i) then some (s.containerWhy (s.slotImage i) (some (keyOf (s.keyRecord i)))) else none

/-- Slot `i` is taken when it passes; otherwise `next` follows. -/
def ownerTry (s : State) (i : Nat) (next : State → State) : State :=
  match s.ownerTest i with
  | none => next s
  | some why =>
    let s := s.loadBody (s.slotImage i) why
    if why = 0 then (s.programOwner (sha256 (keyOf (s.keyRecord i)))).bootSlot i else next (s.reject i why)

/-- First ownership (R173): the first slot whose container passes R142 under the slot's own key record. -/
def takeOwner (s : State) : State := s.ownerTry 0 fun s => s.ownerTry 1 fun s => s

/-! The tree container of a cell, R140, R174 and R292. -/

/-- Blocks 0 to `n - 1` as one string, if all are held. -/
def joinBlocks (m : Kv (List Byte)) (n : Nat) : Option (List Byte) :=
  (List.range n).foldl (fun a i => match a, kvFind m i with
    | some x, some b => some (x ++ b)
    | _, _ => none) (some [])

/-- The whole container held from uplink `u`. -/
def treeImage (s : State) (u : Nat) : Option (List Byte) :=
  match joinBlocks (s.uplink u).blocks 16 with
  | some h => joinBlocks (s.uplink u).blocks ((4096 + min 0x80000 (imgNum h 0x24 4) + 255) / 256)
  | none => none

/-- The key under which a tree container is checked: the received key record, which must be the owner's; an unowned cell
adopts it when it was admitted through a boarding window or from an allow-list. -/
def treeKey (s : State) (u : Nat) : Option (List Byte) :=
  let r := (s.uplink u).keyRecord
  if !keyMagic r then none
  else if s.activeSlot.isSome then (if s.ownerKey r then some (keyOf r) else none)
  else if (s.uplink u).boardWindow && s.unusedSlot.isSome then some (keyOf r)
  else none

/-- A complete tree container is checked: it boots, or the cell stays in the ROM with its image rejected. -/
def treeCheck (s : State) (u : Nat) (c : List Byte) : State :=
  let why := s.containerWhy c (s.treeKey u)
  let s := s.loadBody c why
  if why = 0 then (s.when s.activeSlot.isNone (·.programOwner (sha256 (keyOf (s.uplink u).keyRecord)))).jump c 2 []
  else { s with boot := { s.boot with treeWhy := why } }

/-! The supervisor's registers, R153 to R158. -/

/-- Priority of event line `n`. -/
def linePri (s : State) (n : Nat) : Nat := getBits (s.reg (R.CPU_EPRI (n / 8))) (4 * (n % 8)) 3

/-- The line that a claim takes: of highest priority among those pending, enabled and not masked. -/
def claimLine (s : State) : Option Nat :=
  (s.linesPending.filter fun n =>
    bitOf (s.reg (R.CPU_EIE (n / 32))).toNat (n % 32) && s.linePri n != 0 && !s.sup.claimed.contains n).foldl
    (fun m n => match m with
      | some x => if s.linePri x < s.linePri n then some n else some x
      | none => some n) none

/-- The level of the supervisor's machine external interrupt, which the controller drives: high while a claim would take a
line (R153). -/
def externalInterrupt (s : State) : Bool := s.claimLine.isSome

/-- A read of CPU_ECLAIM. -/
def eclaim (s : State) : Word × State :=
  match s.claimLine with
  | some n => (BitVec.ofNat 32 n, { s with sup := { s.sup with claimed := n :: s.sup.claimed } })
  | none => (0xFF, s)

/-- A line number written back. -/
def ecomplete (s : State) (w : Word) : State :=
  { s with sup := { s.sup with claimed := s.sup.claimed.filter (· != w.toNat) } }

/-- CPU_NMI.RET: pc and mstatus of the current level return, and the next NMI that may enter does so at once: SAFETY first,
then in the order of R611's classes (DEDUCED, log 63). -/
def nmiReturn (s : State) : State :=
  let l := s.get F.CPU_NMI_LEVEL
  if l = 0 then s
  else
    let s := { s with sup := { s.sup with
      pc := s.reg (R.CPU_NMIEPC (l - 1)), mstatus := s.reg (R.CPU_NMIST (l - 1)), nmiCause := s.sup.nmiCause.tail } }
    let s := s.set F.CPU_NMI_LEVEL (l - 1)
    let p := s.get F.CPU_NMI_PEND
    let next : Option Nat :=
      if l = 1 then [2, 1, 0, 3].find? (bitOf p ·)
      else if bitOf p 2 ∧ s.sup.nmiCause.head? ≠ some 2 then some 2
      else none
    match next with
    | some c => (s.set F.CPU_NMI_PEND (p - 1 <<< c)).nmiEnter (l - 1) c
    | none => s

/-- The first stage of the watchdog starts with the TO in force; 0 is used as 1 (R155, R158). -/
def wdtStart (s : State) : State :=
  { s.set F.CPU_WDT_STAT_STAGE2 0 with sup := { s.sup with wdtEnd := s.elapsed + max 1 (s.get F.CPU_WDT_CTL_TO) * unitsPerMs } }

/-- The grace period starts with the GRACE in force. -/
def wdtGrace (s : State) : State :=
  { s.set F.CPU_WDT_STAT_STAGE2 1 with
    sup := { s.sup with wdtEnd := s.elapsed + max 1 (s.get F.CPU_WDT_CTL_GRACE) * unitsPerMs } }

/-- A word written to CPU_WDT_KICK, R155. A completed kick starts the first stage again. -/
def wdtKick (s : State) (w : Word) : State :=
  let hold (b : Bool) : State := { s with sup := { s.sup with kickHeld := b } }
  if w = 0xA5C3 then hold true
  else if w = 0x3C5A ∧ s.sup.kickHeld then (hold false).wdtStart
  else (hold false).bump F.CPU_WDT_STAT_BADKICK

/-- Does the watchdog count: not while a debug halt pauses it? -/
def wdtRuns (s : State) : Bool := s.alive && !s.wdtPaused

/-- Does the supervisor run its accesses? -/
def supOn (s : State) : Bool := s.alive && !s.sup.halted

end State

open State

/-- POWER_ON_RESET: a rail falls below its threshold. -/
def execPowerOnReset (s : State) : Out := act s true fun s => s.powerOn { s.pins with rails := false }

/-- SUPPLY_MONITOR_RELEASE: every rail is above its threshold; with nRST high the ROLE reading begins. -/
def execSupplyMonitorRelease (s : State) : Out :=
  act s (s.pins.vddio && !s.pins.rails) fun s => { s with pins := { s.pins with rails := true } }.leaveReset

/-- VDDIO_BELOW_1V2: no terminal is driven (R686); a rail is below its threshold then, and the part in reset. -/
def execVddioBelow1v2 (s : State) : Out := act s true fun s => s.powerOn { s.pins with rails := false, vddio := false }

/-- VDDIO_ABOVE_1V2: the gate clamp holds GATE0 to GATE5 low (R40); the part stays in reset until its rails are up. -/
def execVddioAbove1v2 (s : State) : Out := act s true fun s => { s with pins := { s.pins with vddio := true } }

/-- NRST_ASSERT: the part enters reset. A part held by its supplies is in reset already. -/
def execNrstAssert (s : State) : Out :=
  act s s.pins.nRst fun s =>
    let s := { s with pins := { s.pins with nRst := false } }
    if s.phase = .held then s else s.deviceReset 1 .held .none

/-- NRST_RELEASE: the pull-up phase of the ROLE reading starts. -/
def execNrstRelease (s : State) : Out :=
  act s (!s.pins.nRst) fun s => { s with pins := { s.pins with nRst := true } }.leaveReset

/-- ROLE_PULLUP_READ. -/
def execRolePullupRead (band : RoleBand) (s : State) : Out :=
  act s (s.phase == .pullUp) fun s => { s with pins := { s.pins with roleUp := band }, phase := .pullDown }

/-- ROLE_PULLDOWN_READ: the strap decodes; a role that the fuses do not enable is role fault (R4, R13), any other starts
the boot ROM. -/
def execRolePulldownRead (band : RoleBand) (flashAnswers : Bool) (healthFailures : Nat) (s : State) : Out :=
  act s (s.phase == .pullDown) fun s =>
    let strap := strapOf s.pins.roleUp band
    let role := if s.grade = .c ∧ strap = 1 then .fault else roleOf strap
    let s := { s with role := role }
    if role = .fault then
      let s := ((s.set F.SYS_ROLE_STRAP strap).set F.SYS_ROLE_ROLE 3).set F.SYS_ROLE_FAULT 1
      let s := (s.set F.SYS_RST_CAUSE_ROLEF 1).set F.SYS_RST_CAUSE_LAST 3
      { s with phase := .roleFault }
    else
      let s := { s.showRole strap with
        boot := { s.boot with flash := flashAnswers }, gate := { s.gate with pbyp := s.gate.pbyp && decide (role = Role.cell) } }
      s.romStart healthFailures

/-- CONTAINER_CHECK: the container being loaded has been hashed. An owner change in progress holds the boot (R175). -/
def execContainerCheck (s : State) : Out := act s (s.phase == .rom && !s.boot.ownerChange) checkSlot

/-- BOOT_RETRY. -/
def execBootRetry (s : State) : Out := act s (s.phase == .recovery) bootRetry

/-- TREE_CONTAINER_COMPLETE: a cell in the ROM holds every block of a container. -/
def execTreeContainerComplete (s : State) : Out :=
  act s (s.phase == .rom && s.isCell && s.boot.treeBoot && s.boot.treeWhy == 0
      && !s.boot.ownerChange && !s.idFailed) fun s =>
    match s.treeImage 0, s.treeImage 1 with
    | some c, _ => s.treeCheck 0 c
    | none, some c => s.treeCheck 1 c
    | none, none => s

/-- FIRST_OWNERSHIP: an unowned part with its presence window open. -/
def execFirstOwnership (s : State) : Out :=
  act s ((s.phase == .recovery || (s.phase == .rom && s.isCell)) && s.boot.flash && !s.idFailed
    && !s.boot.ownerChange && s.activeSlot.isNone && s.unusedSlot.isSome && s.sec.presOpen) takeOwner

/-- The presence window opens, or starts again at its full length: WIN within 10 s and 900 s (R162, R192). -/
def State.presWindow (s : State) : State :=
  let w := max 10 (min 900 (s.get F.SEC_PRES_WIN))
  { s.event Pg.SEC 8 with sec := { s.sec with presOpen := true, presEnd := s.elapsed + w * unitsPerSec } }

/-- Does the ROM still run, so that an owner change may begin or end (R175)? -/
def State.inRom (s : State) : Bool := s.phase == .rom || s.phase == .recovery

/-- OWNER_CHANGE_ENTRY: 20 ms after the release PRESENCE has been low throughout and the seal is judged open. -/
def execOwnerChangeEntry (s : State) : Out :=
  act s (s.inRom && s.boot.presHeld && !s.pins.presence && s.sec.sealOpen == some true) fun s =>
    { s with boot := { s.boot with ownerChange := true } }

/-- OWNER_REVOKE: the press has not broken and the seal is still open at 10 s. R611 states no SRC for the log entry: a free
value. -/
def execOwnerRevoke (s : State) : Out :=
  act s (s.inRom && s.boot.ownerChange && !s.pins.presence && s.sec.sealOpen == some true) fun s =>
    let (src, s) := s.revokeOwner.free
    let s := s.errArrive 0 (src % 256) 0xFF 0
    { s with boot := { s.boot with ownerChange := false } }.presWindow

/-- CPU_ECLAIM_CLAIM. -/
def execCpuEclaimClaim (s : State) : Out :=
  act s s.supOn fun s => let (w, s) := s.eclaim; { s with resp := ⟨Code.ok, [w]⟩ }

/-- CPU_ECLAIM_COMPLETE. -/
def execCpuEclaimComplete (data : Word) (s : State) : Out :=
  act s s.supOn fun s => { s.ecomplete data with resp := ⟨Code.ok, []⟩ }

/-- NMI_RET. -/
def execNmiRet (s : State) : Out := act s s.supOn fun s => { s.nmiReturn with resp := ⟨Code.ok, []⟩ }

/-- WDT_KICK. -/
def execWdtKick (data : Word) (s : State) : Out := act s s.supOn fun s => { s.wdtKick data with resp := ⟨Code.ok, []⟩ }

/-- WDT_FIRST_STAGE: its NMI, an UNCORRECTABLE error, and the grace period. -/
def execWdtFirstStage (s : State) : Out :=
  act s (s.wdtRuns && !s.is F.CPU_WDT_STAT_STAGE2) fun s =>
    (((s.timerEnds s.sup.wdtEnd).errArrive 2 7 0xFF 0).health 3).wdtGrace

/-- WDT_SECOND_STAGE: the part resets with cause WDT. -/
def execWdtSecondStage (s : State) : Out := act s (s.wdtRuns && s.is F.CPU_WDT_STAT_STAGE2) (·.restart 2)

/-- SOFTWARE_RESET: the key resets the part; any other word is ignored. -/
def execSoftwareReset (data : Word) (s : State) : Out := act s (s.supOn && data == 0xB007) (·.restart 5)

/-- CLOCK_FAILURE_RESET: IRC has left its band or stopped. -/
def execClockFailureReset (s : State) : Out := act s s.alive (·.restart 4)

end Sys2Proof.Machine
end

