-- ==== Sys2Proof/Machine/Security.lean ====
section
/-! DEFINITION. The presence window, the seal, attestation, device-bound records, OTP programming and the debug port
(R162 to R167, R176, R180, R181, R187 to R193). -/

namespace Sys2Proof.Machine

namespace State

/-! Presence, R162 to R165. -/

/-- The window closes. -/
def presClose (s : State) : State :=
  if s.sec.presOpen then { s.event Pg.SEC 9 with sec := { s.sec with presOpen := false } } else s

/-- A debounced press: it opens the window or restarts it, unless a press has been judged stuck. -/
def press (s : State) : State :=
  let s := { s with pins := { s.pins with presence := false } }
  if s.alive && !s.is F.SEC_PRES_STUCK && !s.sec.pressed then
    { s with sec := { s.sec with pressed := true } }.presWindow
  else s

/-- A debounced presRelease; it ends an owner change that waits (R175). -/
def presRelease (s : State) : State :=
  { s with pins := { s.pins with presence := true }, sec := { s.sec with pressed := false }
           boot := { s.boot with presHeld := false, ownerChange := false } }

/-! The seal, R166 and R167. -/

/-- The seal goes from closed to open: event, log, time, and one step of the OTP counter. -/
def sealOpened (s : State) : State :=
  let s := (s.event Pg.SEC 11).errArrive 0 0x0A 0xFF 0
  let s := (s.setReg R.SEC_SEAL_S (BitVec.ofNat 32 s.seconds)).setReg R.SEC_SEAL_NS (BitVec.ofNat 32 s.nanos)
  let n := popCount 128 (s.num (otpBase + 0x410) 16)
  if n < 127 then s.program (0x410 + n / 8) [BitVec.ofNat 8 (1 <<< (n % 8))] else s

/-- One comparison of SEAL_IN with the sequence. -/
def sealCompare (s : State) (v : Bool) : State :=
  let s := { s with pins := { s.pins with sealIn := v } }
  let same := v == s.pins.sealOut
  let hit := if same then min 64 (s.sec.sealHit + 1) else 0
  let miss := if same then 0 else min 2 (s.sec.sealMiss + 1)
  let s := { s with sec := { s.sec with sealHit := hit, sealMiss := miss } }
  if miss = 2 ∧ s.sec.sealOpen ≠ some true then
    let first := s.sec.sealOpen == none
    let s := { s with sec := { s.sec with sealOpen := some true } }
    s.when (!first || s.boot.sincePor) sealOpened
  else if hit = 64 ∧ s.sec.sealOpen ≠ some false then
    { s with sec := { s.sec with sealOpen := some false }, boot := { s.boot with ownerChange := false } }
  else s

/-! Attestation, R189. -/

/-- SEC_ATT_CTL.GO: the crypto engine takes a job; what its queue item names is not stated (log 64). -/
def attGo (s : State) : State :=
  if s.sec.attBusy then s.accessErr Pg.SEC
  else
    let (f, s) := s.free
    let (a, s) := s.free
    { (s.set F.SEC_ATT_CTL_BUSY 1).arrive 7 f a with sec := { s.sec with attBusy := true } }

/-- The 128 bytes of the report. -/
def attReport (s : State) : List Byte :=
  let rd (a : Nat) : List Byte := leBytes 4 (s.viewReg 1 a false).toNat
  let one (n : Nat) : List Byte := [BitVec.ofNat 8 n]
  let chal := (List.range 4).flatMap fun c => leBytes 4 (s.reg (R.SEC_ATT_CHAL c)).toNat
  leBytes 4 0x54415850 ++ leBytes 2 1 ++ one (s.get F.SYS_ROLE_ROLE) ++ (rd R.SYS_GRADE).take 1 ++ rd R.SYS_CHIP_ID
    ++ leBytes 4 0 ++ chal ++ idBytes s.devId ++ idBytes s.boot.imageId ++ rd R.BOOT_BUILD
    ++ one (s.get F.BOOT_RUN_SV) ++ one s.antiRollback ++ one (s.activeSlot.getD 0xFF)
    ++ one (b2n (s.sec.sealOpen == some true) + b2n (s.is F.DBG_STAT_SINCE) <<< 1 + b2n (s.is F.SEC_PRES_STUCK) <<< 2)
    ++ (match s.activeSlot with | some i => s.ownerHash i | none => List.replicate 32 0)
    ++ leBytes 2 (popCount 128 (s.num (otpBase + 0x410) 16)) ++ leBytes 2 (s.get F.SYS_RST_CAUSE_COUNT)
    ++ rd R.SYS_RST_CAUSE ++ leBytes 8 s.seconds ++ leBytes 4 s.nanos ++ rd R.SYS_NODE ++ leBytes 16 0

/-- The report and its signature are placed in SEC_ATT_BUF. -/
def attDone (s : State) : State :=
  let r := s.attReport
  let (k, s) := s.drawScalar
  let out := r ++ ecdsaSign s.idScalar k r
  let s := forUpTo (fun w t => t.setReg (R.SEC_ATT_BUF w) (BitVec.ofNat 32 (ofLe ((out.drop (4 * w)).take 4)))) 48 s
  let s := (s.set F.SEC_ATT_CTL_BUSY 0).hwDone 7 fun _ => true
  { s.event Pg.SEC 12 with sec := { s.sec with attBusy := false } }

/-! Device-bound records, R180 and R181. The places of the fields are the model's own (DESIGN CHOICE, log 65). -/

/-- Entries of the allow-list: berths assigned before their cells appear (R327). -/
def allowList (s : State) : List Nat := s.berthsWith fun _ b => b.assign == 2

/-- The contents of a record: peer table, accepted pairings, allow-list. -/
def recContents (s : State) : List Byte :=
  let rd (a : Nat) : List Byte := leBytes 4 (s.reg a).toNat
  (List.range 32).flatMap (fun n => rd (R.SEC_PEER_LO n) ++ rd (R.SEC_PEER_HI n) ++ rd (R.SEC_PEER_CTL n))
    ++ (List.range 16).flatMap (fun n => rd (R.BOOT_ACPT_LO n) ++ rd (R.BOOT_ACPT_HI n))
    ++ leBytes 4 s.allowList.length
    ++ s.allowList.flatMap fun i => leBytes 4 i ++ idBytes (s.berth i).keyid

/-- The tag of a record under the key of owner slot `slot`. -/
def recTag (s : State) (slot : Nat) (bs : List Byte) : List Byte :=
  beBytes 16 (gmac128 (BitVec.ofNat 128 (Config.recordKey s.idScalar slot)) 0 bs)

/-- The record as exported. -/
def recPlain (s : State) : List Byte :=
  let slot := s.activeSlot.getD 0xFF
  let c := s.recContents
  let body := leBytes 4 0x54535850 ++ leBytes 4 (36 + c.length) ++ leBytes 4 slot ++ idBytes s.boot.imageId ++ c
  body ++ s.recTag slot body

/-- SEC_REC_CMD. -/
def recGo (s : State) (job : RecJob) : State :=
  if s.sec.recJob.isSome then s.accessErr Pg.SEC
  else
    let (f, s) := s.free
    let (a, s) := s.free
    { (s.set F.SEC_REC_STAT_BUSY 1).arrive 7 f a with sec := { s.sec with recJob := some job } }

/-- A job on a record ends with a result. -/
def recResult (s : State) (r : Nat) (ok : Bool) : State :=
  let s := ((s.set F.SEC_REC_STAT_BUSY 0).set F.SEC_REC_STAT_RESULT r).hwDone 7 fun _ => true
  { s.event Pg.SEC (if ok then 13 else 14) with sec := { s.sec with recJob := none } }

/-- The contents of a sound record are loaded; its pairings only under the image that saved them. -/
def recLoad (s : State) (c : List Byte) (pairings : Bool) : State :=
  let w (o : Nat) : Word := BitVec.ofNat 32 (imgNum c o 4)
  let s := forUpTo (fun n t =>
    ((t.setReg (R.SEC_PEER_LO n) (w (12 * n))).setReg (R.SEC_PEER_HI n) (w (12 * n + 4))).setReg (R.SEC_PEER_CTL n) (w (12 * n + 8))) 32 s
  let s := s.when pairings fun s => forUpTo (fun n t =>
    (t.setReg (R.BOOT_ACPT_LO n) (w (384 + 8 * n))).setReg (R.BOOT_ACPT_HI n) (w (388 + 8 * n))) 16 s
  forUpTo (fun j t =>
    let i := imgNum c (516 + 12 * j) 4
    let b := t.berth i
    if i < 1024 ∧ b.assign = 0 ∧ b.link = .absent then
      t.setBerth i { b with assign := 2, keyid := idOfBytes ((c.drop (520 + 12 * j)).take 8) }
    else t) (min 1024 (imgNum c 512 4)) s

/-- A record is restored: format, tag and owner slot decide. A poisoned word ends the job; its result code is not stated. -/
def recRestore (s : State) : State :=
  let a := (s.reg R.SEC_REC_ADDR).toNat
  let (h, p, s) := s.fetch 11 a 20
  let n := imgNum h 4 4
  if p then let (v, s) := s.free; s.recResult (v % 16) false
  else if imgNum h 0 4 ≠ 0x54535850 ∨ n < 36 + 516 ∨ 36 + 516 + 12 * 1024 < n then s.recResult 4 false
  else
    let (bs, p, s) := s.fetch 11 a n
    let slot := imgNum bs 8 4
    let body := bs.take (n - 16)
    if p then let (v, s) := s.free; s.recResult (v % 16) false
    else if s.recTag slot body ≠ bs.drop (n - 16) then s.recResult 1 false
    else if s.activeSlot ≠ some slot then s.recResult 2 false
    else
      let same := idOfBytes ((bs.drop 12).take 8) == s.boot.imageId
      (s.recLoad (body.drop 20) same).recResult (if same then 0 else 3) true

/-- A record is written to state memory at SEC_REC_ADDR (R180). Where it would not lie in state memory nothing is written, and
the result is not stated: a free value. -/
def recExport (s : State) : State :=
  let a := (s.reg R.SEC_REC_ADDR).toNat
  let bs := s.recPlain
  if inState a ∧ inState (a + bs.length - 1) then (s.write 11 a bs).recResult 0 true
  else let (v, s) := s.free; s.recResult (v % 16) false

/-- The job on a record is done. -/
def recDone (s : State) : State :=
  match s.sec.recJob with
  | none => s
  | some .exportRec => s.recExport
  | some .restoreRec => s.recRestore

/-! OTP programming, R193. -/

/-- OTP_CMD.PROG: the board word and the owner user region alone. -/
def otpGo (s : State) : State :=
  let a := (s.reg R.OTP_ADDR).toNat % 0x2000 / 4 * 4
  if s.sec.otpJob.isSome then s.accessErr Pg.OTP
  else if a = 0x420 ∨ 0x800 ≤ a then
    let s := (s.set F.OTP_STAT_DENIED 0).set F.OTP_STAT_BUSY 1
    { s with sec := { s.sec with otpJob := some (a, s.reg R.OTP_DATA) } }
  else (s.set F.OTP_STAT_DENIED 1).accessErr Pg.OTP

/-- The bits are programmed and the word read back. -/
def otpDone (s : State) : State :=
  match s.sec.otpJob with
  | none => s
  | some (a, w) =>
    let s := s.program a (leBytes 4 w.toNat)
    let lacks := BitVec.ofNat 32 (s.num (otpBase + a) 4) &&& w != w
    let s := (s.set F.OTP_STAT_BUSY 0).set F.OTP_STAT_FAIL (b2n lacks)
    { s with sec := { s.sec with otpJob := none } }

/-! The debug port and remote owner revocation, R176 and R187. -/

/-- DBG_CTL.UNLOCK. -/
def dbgUnlock (s : State) : State :=
  (((s.set F.DBG_STAT_OPEN 1).set F.DBG_STAT_SINCE 1).bump F.DBG_STAT_UNLOCKS).errArrive 0 0x0B 0xFF 0

/-- DBG_CTL.RELOCK. -/
def dbgRelock (s : State) : State := s.set F.DBG_STAT_OPEN 0

/-- SEC_OWN.REVOKE at a cell: with both marks, or with its own window open and its own seal open. -/
def ownRevoke (s : State) (marks : Bool) : State :=
  if s.isCell && (marks || (s.sec.presOpen && s.sec.sealOpen == some true)) then s.revokeOwner.restart 5 else s

/-- BOOT_ARB.SET (R148). -/
def arbSet (s : State) (v : Nat) : State :=
  if s.antiRollback < v ∧ v ≤ s.get F.BOOT_RUN_SV then
    let bits := leBytes 8 (2 ^ v - 1)
    (s.program 0x400 bits).program 0x408 bits
  else s.accessErr Pg.BOOT

end State

open State

/-- PRESENCE_PRESS: PRESENCE low for 20 ms. -/
def execPresencePress (s : State) : Out := act s true press

/-- PRESENCE_RELEASE: PRESENCE high for 20 ms. -/
def execPresenceRelease (s : State) : Out := act s true presRelease

/-- PRESENCE_WINDOW_EXPIRE. -/
def execPresenceWindowExpire (s : State) : Out := act s s.sec.presOpen fun s => (s.timerEnds s.sec.presEnd).presClose

/-- PRESS_STUCK: a press of more than 30 s. -/
def execPressStuck (s : State) : Out :=
  act s (s.alive && !s.pins.presence && !s.is F.SEC_PRES_STUCK) fun s =>
    ((s.presClose.set F.SEC_PRES_STUCK 1).event Pg.SEC 10).errArrive 0 0x09 0xFF 0

/-- STUCK_CLEAR: PRESENCE seen released for 1 s. -/
def execStuckClear (s : State) : Out :=
  act s (s.pins.presence && s.is F.SEC_PRES_STUCK) fun s => s.set F.SEC_PRES_STUCK 0

/-- SEAL_SEQUENCE_CHANGE: the level that the sequence drives on SEAL_OUT, which is low until ROLE has been read (R39). -/
def execSealSequenceChange (level : Bool) (s : State) : Out :=
  act s s.alive fun s => { s with pins := { s.pins with sealOut := level } }

/-- SEAL_SAMPLE: 0.5 ms after a change of the sequence. -/
def execSealSample (sealIn : Bool) (s : State) : Out := act s s.alive fun s => s.sealCompare sealIn

/-- ATT_DONE. -/
def execAttDone (s : State) : Out := act s (s.alive && s.runs Pg.SEC && s.sec.attBusy) attDone

/-- REC_DONE. -/
def execRecDone (s : State) : Out := act s (s.alive && s.runs Pg.SEC) recDone

/-- OTP_PROGRAM_DONE. -/
def execOtpProgramDone (s : State) : Out := act s (s.alive && s.runs Pg.OTP) otpDone

end Sys2Proof.Machine
end

