-- ==== Sys2Proof/Machine/Hooks.lean ====
section
/-! DEFINITION. What a write of a register does beyond storing its fields: the commands and the registers that are acted
on by a rule of their own, page by page. Access.lean tests and stores a write and calls `hook`. -/

namespace Sys2Proof.Machine

/-- A write that has passed the tests of R77: its path, the register's byte address, the word it read before, the word
written with every refused field at its old value and every refused command at 0, whether the guard of R76 is open to
the path, whether a field of it met the guard. -/
structure Wr where
  path : Path
  a : Nat
  old : Word
  v : Word
  guard : Bool := false
  refused : Bool := false
  deriving DecidableEq, Repr

/-- A field of the word written. -/
def Wr.get (w : Wr) (lo n : Nat) : Nat := getBits w.v lo n

/-- A bit of the word written. -/
def Wr.bit (w : Wr) (i : Nat) : Bool := getBits w.v i 1 == 1

/-- A field of the word before. -/
def Wr.was (w : Wr) (lo n : Nat) : Nat := getBits w.old lo n

/-- Index of an array register, from its first address and its stride. -/
def Wr.idx (w : Wr) (base stride : Nat) : Nat := (w.a - base) / stride

/-- Does the register lie in an array of `n` registers? -/
def Wr.inArray (w : Wr) (base stride n : Nat) : Bool :=
  decide (base ≤ w.a) && decide (w.a < base + stride * n) && (w.a - base) % stride == 0

namespace State

/-- The word written takes the register's place, fields of kind W left out by `mask`. -/
def keep (s : State) (w : Wr) (mask : Word := 0xFFFFFFFF) : State := s.setReg w.a (w.v &&& mask)

/-- The word is stored when `c` holds; otherwise the register stays and ACCESS_ERR is raised. -/
def keepIf (s : State) (w : Wr) (c : Bool) : State := if c then s.keep w else s.accessErr (w.a / 0x400)

/-! Clocks, supplies, presence, boot. -/

/-- Does a domain run from source `src`? -/
def feeds (s : State) (src : Nat) : Bool := (List.range 4).any fun n => s.get (F.CLK_DOM_CURSRC n) == src

/-- Does a source of the SPLL, by its REFSEL code, feed a domain through it (R113)? -/
def feedsSpll (s : State) (ref : Nat) : Bool := s.is F.CLK_SRC_SPLL_EN && s.get F.CLK_SPLL_REFSEL == ref && s.feeds 1

/-- CLK_SRC (R102, R117, R126): disabling a source that feeds a domain, directly or through SPLL, is refused (DEDUCED,
log 23). -/
def hookClkSrc (s : State) (w : Wr) : State :=
  let x := w.bit 0 || (w.was 0 1 == 1 && (s.feeds 2 || s.feedsSpll 1))
  let r := w.bit 1 || (w.was 1 1 == 1 && s.feedsSpll 2)
  let p := w.bit 2 || (w.was 2 1 == 1 && s.feeds 1)
  let s := s.when (x != w.bit 0 || r != w.bit 1 || p != w.bit 2) (·.accessErr Pg.CLK)
  let s := (((s.keep w).set F.CLK_SRC_XOSC_EN (b2n x)).set F.CLK_SRC_REFC_EN (b2n r)).set F.CLK_SRC_SPLL_EN (b2n p)
  let s := if x != (w.was 0 1 == 1) then
      { s with clk := { s.clk with xoscQuiet := true, xoscReady := false, xoscWait := 0 } } else s
  if p then s.spllRefCheck else s.set F.CLK_SPLL_STAT_LOCK 0

/-- CLK_FAIL: a bit of SRCF stays set while its source is failed (R125). -/
def hookClkFail (s : State) (w : Wr) : State :=
  forUpTo (fun m t => if bitOf (w.was 0 5) m && t.is (F.CLK_MON_STAT_FAIL m) then t.set ⟨R.CLK_FAIL, m, 1⟩ 1 else t) 5 s

def hookClk (s : State) (w : Wr) : State :=
  if w.a = R.CLK_SRC then s.hookClkSrc w
  else if w.inArray (R.CLK_DOM 0) 4 4 then s.domWrite (w.idx (R.CLK_DOM 0) 4) (w.get 0 2) (w.get 8 8)
  else if w.a = R.CLK_FAIL then s.hookClkFail w
  else s

/-- SEC, R163 to R189. A remote revocation needs both marks (R176). -/
def hookSec (s : State) (w : Wr) : State :=
  if w.a = R.SEC_PRES then s.when (w.bit 12) presClose
  else if w.a = R.SEC_OWN then
    let marks := match w.path with | .remote p sl => p && sl | _ => false
    s.when (w.get 16 16 == 0x7E55) (·.ownRevoke marks)
  else if w.a = R.SEC_ATT_CTL then s.when (w.bit 0) attGo
  else if w.a = R.SEC_REC_CMD then
    if w.bit 0 then s.recGo .exportRec else if w.bit 1 then s.recGo .restoreRec else s
  else s

/-- BOOT, R143 and R148. -/
def hookBoot (s : State) (w : Wr) : State :=
  if w.a = R.BOOT_CTL then s.when (w.bit 0 && s.phase == .recovery) bootRetry
  else if w.a = R.BOOT_ARB then (if w.refused then s else s.arbSet (w.get 8 6))
  else s

/-- CPU, R153 to R158. -/
def hookCpu (s : State) (w : Wr) : State :=
  if w.a = R.CPU_NMI then s.when (w.bit 24) nmiReturn
  else if w.a = R.CPU_WDT_KICK then s.wdtKick w.v
  else if w.a = R.CPU_SWRST then s.when (w.v == 0xB007) (·.restart 5)
  else if w.a = R.CPU_ECLAIM then s.ecomplete w.v
  else s

/-- ERR and MEM, R606 and R612 to R616. -/
def hookErr (s : State) (w : Wr) : State :=
  if w.a = R.ERR_CMD then (s.when (w.bit 0) errPop).when (w.bit 1) (·.errAck (w.get 4 2))
  else if w.a = R.ERR_SWLOG then s.errSwlog (w.get 0 2) (w.get 8 8)
  else if w.a = R.MEM_SLOCK then (s.when (w.bit 0) slockOpen).when (w.bit 1) slockClose
  else s

/-! Scheduler, time, station, twin, host. -/

/-- SCHG and SCHQ, R575 to R586: the staging registers are those of the path. -/
def hookSched (s : State) (w : Wr) : State :=
  let p := pathIdx w.path
  if R.SCHG_SUB0 ≤ w.a ∧ w.a ≤ R.SCHG_SUB3 then
    { s with sch := { s.sch with subs := kvSet s.sch.subs (4 * p + w.idx R.SCHG_SUB0 4) w.v } }
  else if w.a = R.SCHG_SUBCMD then s.when (w.bit 31) (·.submit p w.v)
  else if w.a = R.SCHG_CANCEL then s.schgCancel p (w.get 0 16)
  else if w.a = R.SCHG_DONE then s.schgDone (w.get 0 16)
  else if w.inArray (R.SCHQ_CMD 0) 16 32 then s.when (w.bit 0) (·.schqFlush (w.idx (R.SCHQ_CMD 0) 16))
  else s

/-- TIME: TIME_CTL (R238), TIME_INC_FRAC, TIME_CMD, and a TCYC of 5 to 80 (R222 to R226, R243). -/
def hookTime (s : State) (w : Wr) : State :=
  if w.a = R.TIME_CTL then
    s.when (s.runs Pg.TIME) fun s => if s.is F.TIME_CTL_HOLD then s.enterHold .forced else s.leaveHold .forced
  else if w.a = R.TIME_INC_FRAC then s.incRequest
  else if w.a = R.TIME_CMD then s.timeCmd (w.bit 0) (w.bit 1)
  else if w.a = R.TIME_MER then
    let n := w.get 0 7
    (if 5 ≤ n ∧ n ≤ 80 then s.keep w else ((s.keep w).set F.TIME_MER_TCYC (w.was 0 7)).accessErr Pg.TIME).meridiansStop.resumeHeld
  else s

/-- STN_CMD and STN_TXPOST, R654, R662, R666. -/
def hookStn (s : State) (w : Wr) : State :=
  if w.a = R.STN_CMD then (s.when (w.bit 0 && s.stnOn) fun s => s.freshSent.kxStart).when (w.bit 1) stnClear
  else if w.a = R.STN_TXPOST then s.when s.stnOn (·.txPost (w.get 0 5))
  else s

/-- Does a mirrored region lie in state memory (R571)? -/
def regionFits (base len : Nat) : Bool :=
  len == 0 || (decide (0x20000000 ≤ base) && decide (base + len ≤ 0x20200000))

/-- TWIN_MRn_BASE and LEN: multiples of 4, a region past the end of state memory is refused (R571). -/
def hookTwin (s : State) (w : Wr) : State :=
  if w.inArray (R.TWIN_MR_BASE 0) 8 16 then
    s.keepIf w (w.get 0 2 == 0 && regionFits w.v.toNat (s.get (F.TWIN_MR_LEN_LEN (w.idx (R.TWIN_MR_BASE 0) 8))))
  else if w.inArray (R.TWIN_MR_LEN 0) 8 16 then
    s.keepIf w (w.get 0 2 == 0 && regionFits (s.get (F.TWIN_MR_BASE_BASE (w.idx (R.TWIN_MR_LEN 0) 8))) w.v.toNat)
  else s

/-- HOST_CTRL (R44, R89), HOST_REL (R46, R90) and the debug unlock (R187). -/
def hookHost (s : State) (w : Wr) : State :=
  if w.a = R.HOST_CTRL then
    let rise := w.bit 0 && (!s.is F.HOST_CTRL_HOST || s.host.bus == .master)
    let s := (s.set F.HOST_CTRL_DUMMY (w.get 8 4)).set F.HOST_CTRL_HOST (b2n (w.bit 0 || s.is F.HOST_CTRL_HOST))
    if rise then { s with host := { s.host with bus := .handingOver } } else s
  else if w.a = R.HOST_REL then
    let d := w.get 0 12
    if d = 0 ∨ s.is F.HOST_REL_PEND then s
    else
      let s := (s.set F.HOST_REL_DUR d).set F.HOST_REL_PEND 1
      { s with host := { s.host with relWait := d } }
  else if w.a = R.DBG_CTL then (s.when (w.bit 0) dbgUnlock).when (w.bit 1) dbgRelock
  else s

/-! Lanes, trees, berths. -/

/-- LANE_CFG: LB 3 is refused where R209 says, RATE 3 is ignored (R219). -/
def hookLane (s : State) (w : Wr) : State :=
  let n := w.a / 0x400 - 0x10
  let far := w.get 8 3 == 3 && ((s.isHub && decide (n < 4)) || (s.isCell && decide (n < 2)))
  if w.a = R.LANE_CFG n then
    let s := s.keep w
    let s := s.when (w.get 0 2 == 3) (·.set (F.LANE_CFG_RATE n) (w.was 0 2))
    let s := s.when (s.get (F.LANE_CFG_RATE n) != w.was 0 2) (·.scanAbort n)
    s.when far fun s => (s.set (F.LANE_CFG_LB n) (w.was 8 3)).accessErr (Pg.LANE n)
  else if w.a = R.LANE_PWR n then s.lanePwr n (w.get 0 2)
  else if w.a = R.LANE_ES_CTL n then s.when (w.bit 31) (·.eyeScan n)
  else if w.a = R.LANE_PRBS_CTL n then
    let s := (s.when (w.bit 0 && w.was 0 1 == 0) (·.prbsStart n)).when (!w.bit 1) (·.set (F.LANE_PRBS_STAT_LOCK n) 0)
    (s.when (w.bit 8) (·.prbsInj n)).when (w.bit 9) (·.prbsClr n)
  else s

/-- BERTH_BOARD.OPEN, R296: a 1 opens or restarts a port's window, a 0 closes it. -/
def hookBoard (s : State) (w : Wr) (data : Word) : State :=
  forUpTo (fun p t =>
    if getBits data p 1 = 0 then t.setWindow p false else if w.guard then t.setWindow p true else t) 4 s

/-- BERTH_SRCHp.GO, R325: ignored while a search runs. -/
def searchGo (s : State) (p : Nat) : State :=
  if (s.port p).search.isSome then s.accessErr Pg.BERTH else if s.berthOn p then s.searchStart p else s

def hookBerth (s : State) (w : Wr) : State :=
  if w.a = R.BERTH_CMD then
    ((s.when (w.bit 0) berthRd).when (w.bit 1) (·.berthWr w.guard)).when (w.bit 2) berthClr
  else if w.inArray (R.BERTH_SRCH 0) 4 4 then s.when (w.bit 0) (·.searchGo (w.idx (R.BERTH_SRCH 0) 4))
  else s

/-! Engine, compensation, modulation, rank. -/

/-- Is the address a multiple of 0x1_0000 from 0x2000_0000 to `top`? -/
def baseOk (v : Word) (top : Nat) : Bool :=
  v.toNat % 0x10000 == 0 && decide (0x20000000 ≤ v.toNat) && decide (v.toNat ≤ top)

/-- CTL: the base (R400), LOAD (R403), handovers (R414, R418), signal writes (R398). -/
def hookCtl (s : State) (w : Wr) : State :=
  if w.a = R.CTL_BASE then
    let ok := baseOk w.v 0x20150000
    let s := s.keepIf w ok
    s.when (ok && w.v != w.old) fun s => (s.setValid 0 false).setValid 1 false
  else if w.a = R.CTL_PGM_CMD then s.when (w.bit 0) (·.pgmLoad (w.get 4 1))
  else if w.a = R.CTL_HO_CTL then
    if w.bit 30 && w.bit 31 then s.accessErr Pg.CTL
    else (s.when (w.bit 30) fun s => s.hoGo s.cycle).when (w.bit 31) hoAbort
  else if w.a = R.CTL_SIGDATA then s.sigQueue w.v
  else s

/-- CHAIN, R413 and R422. -/
def hookChain (s : State) (w : Wr) : State :=
  if w.a = R.CHAIN_DHI then s.chainQueue w.v
  else if w.a = R.CHAIN_CMD then s.when (w.bit 0) chainRead
  else s

/-- RCU, R430 and R436. -/
def hookRcu (s : State) (w : Wr) : State :=
  if w.a = R.RCU_BASE then s.keepIf w (baseOk w.v 0x201B0000)
  else if w.a = R.RCU_CMD then s.when (w.bit 8) (·.rcuClear (w.get 0 4))
  else s

/-- SUP: the supervisor window (R458), injectors (R447), the frequency response (R451). -/
def hookSup (s : State) (w : Wr) : State :=
  let c := s.get F.SUP_FESEL_CHAIN
  if w.a = R.SUP_FECFG then s.setFe c { s.fe c with cfg := w.v }
  else if w.a = R.SUP_FELIM then s.setFe c { s.fe c with lim := w.v }
  else if w.a = R.SUP_FEHYS then s.setFe c { s.fe c with hys := w.v }
  else if w.inArray (R.SUP_ICTL 0) 64 2 then
    let i := w.idx (R.SUP_ICTL 0) 64
    (s.when (w.bit 31) (·.injGo i)).when (w.bit 30) (·.injStopCmd i)
  else if w.a = R.SUP_FRCTL then s.when (w.bit 31) frGo
  else s

/-- MOD: mode changes (R361) and protective commands (R359). -/
def hookMod (s : State) (w : Wr) : State :=
  if w.a = R.MOD_MSW_HI then s.when (w.bit 31) fun s => s.modeGo s.cycle
  else if w.a = R.MOD_PCMD then s.when (w.bit 31) pcmdGo
  else s

/-- RANK_CMD, R389. -/
def hookRank (s : State) (w : Wr) : State :=
  if w.a = R.RANK_CMD then
    (((s.when (w.bit 0) rankRd).when (w.bit 1) rankWr).when (w.bit 2) rankSetc).when (w.bit 3) rankSetv
  else s

/-! Recorder, monitors, measurement, gate, safety, terminals. -/

/-- REC, R627 to R629, R631, R639. -/
def hookRec (s : State) (w : Wr) : State :=
  if w.a = R.REC_CMD then
    ((s.when (w.bit 0) recForce).when (w.bit 1) (·.recRel (w.get 8 4))).when (w.bit 2) recRelAll
  else if w.a = R.REC_MBASE then
    s.keepIf w (w.v.toNat % 0x4000 == 0 && decide (0x20000000 ≤ w.v.toNat) && decide (w.v.toNat < 0x20200000))
  else if R.REC_TCFG 0 ≤ w.a ∧ w.a ≤ R.REC_TB 15 then
    let t := w.idx (R.REC_TCFG 0) 16
    s.setTrig t { s.trig t with fresh := true }
  else if w.a = R.REC_BBCMD then s.when (w.bit 0) bbRearm
  else s

/-- MON and the lifetime counters, R640 to R645. -/
def hookMon (s : State) (w : Wr) : State :=
  let p := w.a / 0x400 - 0x29
  if w.a = R.MON_SNAP p then s.when (w.bit 31) (·.monSnap p (w.get 0 5) (w.bit 8))
  else if R.MON_CFG p 0 ≤ w.a ∧ w.a ≤ R.MON_ORG p 31 then s.monClear (32 * p + w.idx (R.MON_CFG p 0) 8)
  else if w.a = R.LT_CTL 0 then s.when (w.bit 0) (·.set (F.LT_CTL_LOCK 0) 1)
  else if w.a = R.LT_CMD 0 then s.when (w.bit 31) (·.ltLoad (w.get 0 4))
  else s

/-- TEVn, R480 and R481: an armed output keeps its settings. -/
def hookTev (s : State) (w : Wr) : State :=
  let n := w.idx (R.TEV_CTL 0) 16
  if w.a ≠ R.TEV_CTL n then s.keepIf w (!s.is (F.TEV_CTL_ARM n))
  else
    let s := if s.is (F.TEV_CTL_ARM n) then
        s.when (w.get 0 2 != s.get (F.TEV_CTL_ACT n) || w.get 8 6 != s.get (F.TEV_CTL_FR n)) (·.accessErr Pg.GATE)
      else
        let s := (s.set (F.TEV_CTL_ACT n) (w.get 0 2)).set (F.TEV_CTL_FR n) (w.get 8 6)
        s.when (w.bit 4) (·.tevArm n)
    s.when (w.bit 5) (·.tevDisarm n)

/-- GATE: GATE_SAFE may not turn on both outputs of a leg (R473); GATE_FCLR (R474). -/
def hookGate (s : State) (w : Wr) : State :=
  if w.a = R.GATE_SAFE then s.keepIf w (w.get 0 2 != 3 && w.get 2 2 != 3)
  else if w.a = R.GATE_FCLR then s.when (w.bit 0) gateClear
  else if R.TEV_CTL 0 ≤ w.a ∧ w.a ≤ R.TEV_W 5 then s.hookTev w
  else s

/-- SAFE, R509 to R522. -/
def hookSafe (s : State) (w : Wr) : State :=
  if w.a = R.SAFE_HCMD then s.hubCommand (w.get 0 16)
  else if w.a = R.SAFE_HDBB then s.when (w.bit 31) (·.hubDeblockOne (w.get 0 10))
  else if w.a = R.SAFE_CCMD then
    s.cellCommand (match w.path with | .remote .. => true | _ => false) (w.get 0 16)
  else s

/-- GPIO, R50 and R53. -/
def hookGpio (s : State) (w : Wr) : State :=
  if w.inArray (R.GPIO_FN 0) 4 8 then
    let s := s.gpioFnSet (w.idx (R.GPIO_FN 0) 4) (w.get 0 3)
    s.when (s.uartOn && s.uart.sending.isNone) uartNext
  else if w.a = R.GPIO_UTX then s.uartPut (BitVec.ofNat 8 (w.get 0 8))
  else if w.a = R.GPIO_UCFG then s.uartStops.when (s.uartOn && s.uart.sending.isNone) uartNext
  else s

/-- The register's own rule. -/
def hook (s : State) (w : Wr) : State :=
  let pg := w.a / 0x400
  if pg = Pg.SYS then s.when (w.a == R.SYS_TOPO) moorLanes
  else if pg = Pg.CLK then s.hookClk w
  else if pg = Pg.PWR then (if w.inArray (R.PWR_WLIM 0) 4 3 then s.keepIf w (decide (w.get 0 16 ≤ w.get 16 16)) else s)
  else if pg = Pg.SEC then s.hookSec w
  else if pg = Pg.OTP then s.when (w.a == R.OTP_CMD && w.bit 0) otpGo
  else if pg = Pg.BOOT then s.hookBoot w
  else if pg = Pg.CPU then s.hookCpu w
  else if pg = Pg.ERR ∨ pg = Pg.MEM then s.hookErr w
  else if pg = Pg.SCHG ∨ pg = Pg.SCHQ then s.hookSched w
  else if pg = Pg.TIME then s.hookTime w
  else if pg = Pg.STN then s.hookStn w
  else if pg = Pg.TWIN then s.hookTwin w
  else if pg = Pg.HOST then s.hookHost w
  else if 0x10 ≤ pg ∧ pg ≤ 0x17 then s.hookLane w
  else if 0x18 ≤ pg ∧ pg ≤ 0x1B then
    s.when (w.a == R.TREE_RA_CMD (pg - 0x18) && w.bit 15) (·.mailboxGo (pg - 0x18))
  else if pg = Pg.BERTH then s.hookBerth w
  else if pg = Pg.CTL then s.hookCtl w
  else if pg = Pg.CHAIN then s.hookChain w
  else if pg = Pg.RCU then s.hookRcu w
  else if pg = Pg.SUP then s.hookSup w
  else if pg = Pg.MOD then s.hookMod w
  else if pg = Pg.RANK then s.hookRank w
  else if pg = Pg.REC then s.hookRec w
  else if pg = Pg.MON 0 ∨ pg = Pg.MON 1 then s.hookMon w
  else if pg = Pg.ADC then
    (if w.inArray (R.ADC_FC 0) 4 4 then s.keepIf w (decide (signed 16 (w.get 0 16) ≤ signed 16 (w.get 16 16))) else s)
  else if pg = Pg.GATE then s.hookGate w
  else if pg = Pg.SAFE then s.hookSafe w
  else if pg = Pg.GPIO then s.hookGpio w
  else s

/-- Is the register stored by its own rule alone? Its fields are not stored before `hook` runs. -/
def owned (a : Nat) : Bool :=
  let pg := a / 0x400
  a == R.CLK_SRC || (decide (R.CLK_DOM 0 ≤ a) && decide (a ≤ R.CLK_DOM 3))
    || (decide (R.PWR_WLIM 0 ≤ a) && decide (a ≤ R.PWR_WLIM 2)) || a == R.CPU_ECLAIM
    || (decide (R.SCHG_SUB0 ≤ a) && decide (a ≤ R.SCHG_SUB3)) || a == R.TIME_MER
    || (decide (R.TWIN_MR_BASE 0 ≤ a) && decide (a ≤ R.TWIN_MR_LEN 15)) || a == R.HOST_CTRL || a == R.HOST_REL
    || (decide (0x10 ≤ pg) && decide (pg ≤ 0x17) && (a % 0x400 == 0x40 || a % 0x400 == 0x44))
    || a == R.CTL_BASE || a == R.CTL_SIGDATA || a == R.RCU_BASE
    || a == R.SUP_FECFG || a == R.SUP_FELIM || a == R.SUP_FEHYS || a == R.REC_MBASE || a == R.LT_CTL 0
    || (decide (R.ADC_FC 0 ≤ a) && decide (a ≤ R.ADC_FC 3)) || a == R.GATE_SAFE
    || (decide (R.TEV_CTL 0 ≤ a) && decide (a ≤ R.TEV_W 5)) || (decide (R.GPIO_FN 0 ≤ a) && decide (a ≤ R.GPIO_FN 7))

end State

end Sys2Proof.Machine
end

