-- ==== Sys2Proof/Machine/Access.lean ====
section
/-! DEFINITION. An access to the register space (R62 to R82): the tests of R77, what a read answers and changes, how a
write applies field by field, and the page header with enable, hold, soft reset and commit. -/

namespace Sys2Proof.Machine

namespace State

/-! The paths of R81. -/

/-- Is the path there: the debug port unlocked, the supervisor running, the station at a hub, the host with the bus, the
hub of a cell? -/
def pathOpen (s : State) : Path → Bool
  | .debug => s.alive && s.is F.DBG_STAT_OPEN
  | .supervisor => s.supOn
  | .station => s.alive && s.isHub
  | .host => s.alive && !s.isCell && s.host.bus == .host
  | .remote .. => s.alive && s.isCell

/-- The guard of R76 for a page: a presence window is open here or, by its mark, at the hub (R92), and the page is not
locked. -/
def guardFor (s : State) (path : Path) (pg : Nat) : Bool :=
  let marked := match path with | .remote p _ => s.isCell && p | _ => false
  !s.is (F.PG_GUARD_LOCK pg) && (s.guardOpen || marked)

/-! Tests, R77. -/

/-- Steps 1 to 5 of R77 for an access of `words` words. Of an absent page only a 32-bit read of one word at offset 0 is the
read of PG_ID that R63 answers; a narrower read, and a burst from there, answer ABSENT (DEDUCED, log 114). -/
def accessTest (s : State) (addr bytes words : Nat) (rd : Bool) : Nat :=
  let pg := addr / 0x400
  if !decoded pg then Code.unmapped
  else if !present s.role pg then
    (if rd ∧ addr % 0x400 = 0 ∧ bytes ≥ 4 ∧ words = 1 then Code.ok else Code.absent)
  else if bytes < 4 then Code.size
  else if addr % 4 ≠ 0 then Code.align
  else if addr % 0x400 + 4 * (words - 1) > 0x3FC then Code.boundary
  else Code.ok

/-- The register at an address as the role holds it. -/
def descAt (s : State) (a : Nat) : Option RegDesc :=
  match regAt (a / 0x400) (a % 0x400) with
  | some d => if holdsRoles s.role d.roles then some d else none
  | none => none

/-- Step 6: a register of RO and W1C fields alone on a page that is gated, or whose gate is closing (R78, R119). -/
def gatedWord (s : State) (addr : Nat) : Bool :=
  let pg := addr / 0x400
  !infra pg && decide (0x40 ≤ addr % 0x400) && (s.gated pg || s.clk.gating.contains pg)
    && match s.descAt addr with
      | some d => d.fields.all fun f => f.kind == .ro || f.kind == .w1c
      | none => false

/-- An error response of a page, R66. -/
def pageError (s : State) (pg : Nat) : State := if present s.role pg then (s.set (F.PG_STAT_ERR pg) 1).event pg 3 else s

/-! Reads. -/

/-- A read through the arbiter for the bridge, whose poison answers POISON with data 0 (R79, R80). -/
def memRead (s : State) (req pg a : Nat) : Nat × Word × State :=
  let (bs, bad, s) := s.fetch req a 4
  if bad then (Code.poison, 0, s.pageError pg) else (Code.ok, BitVec.ofNat 32 (ofLe bs), s)

/-- A free number of at most `m` in a field of `w`. -/
def freeField (s : State) (f : Fld) (m : Nat) (w : Word) : Nat × Word × State :=
  let (v, s) := s.free
  (Code.ok, put f (v % (m + 1)) w, s)

/-- A read of a register: its code, its word and what the read itself changes. -/
def readReg (s : State) (path : Path) (addr : Nat) : Nat × Word × State :=
  let p := pathIdx path
  let a := s.home addr
  let w := s.viewWord p addr
  let seen (t : State) : Nat × Word × State := (Code.ok, t.viewWord p addr, t)
  let popped (r : Word × State) : Nat × Word × State := (Code.ok, r.1, r.2)
  if (s.descAt a).isNone ∨ addr % 0x400 < 0x40 then (Code.ok, w, s)
  else if a = R.TIME_NOW_NS then seen s.latchNow
  else if a = R.TIME_TSQ_ID 0 then seen (s.popTs 0)
  else if a = R.TIME_TSQ_ID 1 then seen (s.popTs 1)
  else if a = R.GPIO_URX then popped s.uartGet
  else if a = R.SCHG_TAKE then popped s.schgTake
  else if a = R.CPU_ECLAIM then popped s.eclaim
  else if 0x4000 ≤ a ∧ a < 0x6000 ∧ a % 0x400 = R.LANE_PRBS_ERR 0 % 0x400 then
    let n := a / 0x400 - 0x10
    (Code.ok, w, s.when (s.is (F.LANE_PRBS_CTL_CLRRD n)) (·.prbsClr n))
  else if R.ACC_MEAN 0 ≤ a ∧ a ≤ R.ACC_MEAN 9 ∧ a % 16 = 0 then
    let c := (a - R.ACC_MEAN 0) / 16
    let x := s.win c
    let s := (s.setReg (R.ACC_MIN c) x.min).setReg (R.ACC_MAX c) x.max
    (Code.ok, w, (s.set (F.ACC_CNT_COUNT c) x.count).set (F.ACC_CNT_WINS c) x.wins)
  else if a = R.CTL_SIGDATA then s.memRead 2 Pg.CTL (s.sigAddr (s.get F.CTL_SIGIDX_INDEX))
  else if R.REC_BBD 0 ≤ a ∧ a ≤ R.REC_BBD 7 then
    s.memRead 9 Pg.REC (0x30000000 + 32 * s.get F.REC_BBIDX_INDEX + (a - R.REC_BBD 0))
  else if a = R.GPIO_IN ∧ s.uartOn ∧ s.uart.sending.isSome then s.freeField ⟨R.GPIO_IN, 4, 1⟩ 1 w
  else (Code.ok, w, s)

/-- A read of one word that has passed steps 1 to 5. -/
def readAt (s : State) (path : Path) (addr : Nat) : Nat × Word × State :=
  if !present s.role (addr / 0x400) then (Code.ok, 0x0000FFFF, s)
  else if s.gatedWord addr then (Code.gated, 0, s.pageError (addr / 0x400))
  else s.readReg path addr

/-! The page header, R66 to R70. -/

/-- The page's registers and active values return to reset, R69: kept are LOCK and REFUSED, what R129 keeps through every
reset but power-on, the role and the node address as read, HOST (R89) and the state of the debug port. -/
def clearPage (s : State) (pg : Nat) : State :=
  let keep (a : Nat) : Bool := a / 0x400 != pg || a == R.PG_GUARD pg || keptReg a || a == R.SYS_ROLE
    || (a == R.SYS_NODE && s.isCell) || a == R.HOST_CTRL || a == R.DBG_STAT
  let host := s.get F.HOST_CTRL_HOST
  let s := { s with regs := kvKeep keep s.regs, act := kvKeep (· / 0x400 != pg) s.act }
  let s := { s with clk := { s.clk with gating := s.clk.gating.filter (· != pg) } }
  if pg = Pg.HOST then (s.set F.HOST_CTRL_DUMMY 3).set F.HOST_CTRL_HOST host else s

/-- A TREE page of a cell returns its uplink to reset; TREE0 returns what both uplinks share (R293). -/
def resetUplink (s : State) (u : Nat) : State :=
  let rx := if u = 0 then { s.rx with obeying := false, wFrom := none, kSet := false, events := [], bitmap := [], obeyedK := [], holds := [] } else s.rx
  { s with rx := { rx with up := setAt {} rx.up u {} } }

/-- The link of a hub to its referee as after a reset. -/
def resetRefLink (s : State) : State :=
  { s with twin := { s.twin with
      ref := {}, refAt := none, refHeard := false, refLost := false, wit := 0, refRun := 0, refSent := [] } }

/-- The block of a page in its reset state, R69: pages 0x00 to 0x0F. -/
def resetBlockLow (s : State) (pg : Nat) : State :=
  if pg = Pg.CLK then { s with clk := { gained := s.clk.gained, gating := s.clk.gating } }
  else if pg = Pg.SEC then
    { s with sec := {
        pressed := s.sec.pressed, otpJob := s.sec.otpJob
        sealMiss := s.sec.sealMiss, sealHit := s.sec.sealHit, sealOpen := s.sec.sealOpen } }
  else if pg = Pg.OTP then { s with sec := { s.sec with otpJob := none } }
  else if pg = Pg.SYS then s.moorLanes
  else if pg = Pg.HOST then { s with host := { bus := if s.host.bus = .reclaimed then .host else s.host.bus } }
  else if pg = Pg.CPU then { s with sup := { s.sup with nmiCause := [], kickHeld := false, claimed := [] } }.wdtStart
  else if pg = Pg.ERR then { s with err := { log := s.err.log } }
  else if pg = Pg.MEM then { s with arb := {} }
  else if pg = Pg.SCHG then { s with sch := {} }
  else if pg = Pg.SCHQ then
    let s := s.dropItems fun _ => true
    { s with sch := { s.sch with held := [] } }
  else if pg = Pg.STN then { s with stn := {} }
  else if pg = Pg.TWIN then
    let t := s.twin
    { s with twin := { ref := t.ref, refAt := t.refAt, refHeard := t.refHeard, refLost := t.refLost, wit := t.wit,
                       refRun := t.refRun, refSent := t.refSent } }
  else if pg = Pg.REF then
    let s := s.resetRefLink
    { s with refLinks := List.replicate 4 {}, refPairs := List.replicate 2 {} }
  else s

/-- Pages 0x10 to 0x2F. The latches of hardwired protection stay (R68): ALATCH and the asserted inputs of a hub, the fault
latch, the permanent bypass and the block detection of a cell. -/
def resetBlockHigh (s : State) (pg : Nat) : State :=
  if 0x10 ≤ pg ∧ pg ≤ 0x17 then s.setLane (pg - 0x10) {}
  else if 0x18 ≤ pg ∧ pg ≤ 0x1B then
    if s.isHub then s.setPort (pg - 0x18) {} else s.resetUplink (pg - 0x18)
  else if pg = Pg.BERTH then { s with berths := [] }
  else if pg = Pg.CTL then { s with eng := { chq := s.eng.chq, schInit := s.eng.schInit } }
  else if pg = Pg.CHAIN then { s with eng := { s.eng with chq := [] } }
  else if pg = Pg.SCHD then { s with eng := { s.eng with schInit := [false, false, false, false] } }
  else if pg = Pg.RCU then { s with comp := { s.comp with rcu := List.replicate 16 {}, taught := [] } }
  else if pg = Pg.ANG then { s with comp := { s.comp with angv := [] } }
  else if pg = Pg.SUP then { s with comp := { rcu := s.comp.rcu, taught := s.comp.taught, angv := s.comp.angv } }
  else if pg = Pg.MOD then { s with mod := {}, cmod := {} }
  else if pg = Pg.RANK then { s with rank := {} }
  else if pg = Pg.REC then { s with recd := {}, bb := {} }
  else if pg = Pg.MON 0 ∨ pg = Pg.MON 1 then { s with mon := kvKeep (fun j => j / 32 != pg - 0x29) s.mon }
  else if pg = Pg.ACC then { s with adc := {} }
  else if pg = Pg.GATE then
    if s.isCell then
      let g := s.gate
      { s with gate := {
          latch := g.latch, live := g.live, pbyp := g.pbyp, taps := g.taps, hist := g.hist, trip0At := g.trip0At
          gate5 := g.gate5, gate5Run := g.gate5Run
          gate4 := g.gate4 && g.gate5Run, thyLeft := if g.gate5Run then g.thyLeft else 0 } }
    else { s with gate := { s.gate with tev := List.replicate 6 false, tevNext := List.replicate 6 0, tevEnd := [] } }
  else if pg = Pg.SAFE then
    let x := s.safe
    { s with safe := {
      alatch := x.alatch, alatchAt := x.alatchAt, asserted := x.asserted, blkSeen := x.blkSeen, blkAt := x.blkAt
      plaus := x.plaus, breqF := x.breqF } }
  else if pg = Pg.GPIO then { s with uart := {} }
  else s

/-- EN of a page falls: the block stops at its work boundary and its gate starts to close (R68, R119), with what the
blocks attach to it (R216, R225, R418, R452, R475, R627, R691). -/
def pageOff (s : State) (pg : Nat) : State :=
  if infra pg then s
  else
    let s := if s.is (F.PG_STAT_RUN pg) && !s.clk.gating.contains pg then
        { s with clk := { s.clk with gating := pg :: s.clk.gating } } else s
    if pg = Pg.TIME then
      let s := s.applyWaitingJump
      { s with time := { s.time with pps := false, mark := false, cont := false } }
    else if 0x10 ≤ pg ∧ pg ≤ 0x17 then s.laneDisable (pg - 0x10)
    else if pg = Pg.BERTH then s.berthDisabled
    else if pg = Pg.CTL then s.engStop
    else if pg = Pg.SUP then s.frStop
    else if pg = Pg.REC then s.when s.isHub recStop
    else if pg = Pg.GATE then s.when s.isCell (·.gateStop .page)
    else s

/-- EN of a page rises (R120), with what the blocks attach to it (R216, R334, R384, R475, R557, R630, R639). -/
def pageOn (s : State) (pg : Nat) : State :=
  if 0x10 ≤ pg ∧ pg ≤ 0x17 then s.laneEnable (pg - 0x10)
  else if 0x18 ≤ pg ∧ pg ≤ 0x1B then s.when s.isHub (·.portEnabled (pg - 0x18))
  else if pg = Pg.RANK then { s with rank := { s.rank with sorted := false } }
  else if pg = Pg.REF then s.when s.isRef listenAfresh
  else if pg = Pg.REC then if s.isHub then s.recStart else s.bbStart
  else if pg = Pg.GATE then s.when s.isCell (·.gateResume .page)
  else s

/-- PG_CTRL.SRST, R69 and R225. -/
def pageReset (s : State) (pg : Nat) : State :=
  let tbg := s.get F.TIME_STAT_TBG
  let s := s.when (s.enabled pg) (·.pageOff pg)
  let s := s.clearPage pg
  if pg = Pg.TIME then (s.resetTimeUnit tbg).timebaseChanged
  else if pg < 0x10 then s.resetBlockLow pg
  else s.resetBlockHigh pg

/-- A write of PG_CTRL. The spec does not say whether a write with SRST = 1 applies its other bits: the reset wins, they are
ignored (DESIGN CHOICE, log 112). -/
def ctrlWrite (s : State) (pg : Nat) (v : Word) : State :=
  if getBits v 1 1 = 1 then (s.pageReset pg).resumeHeld
  else
    let was := s.is (F.PG_CTRL_EN pg)
    let on := getBits v 0 1 = 1
    let s := s.setReg (R.PG_CTRL pg) (v &&& (if s.isHub then 0x1D else 0x15))
    (if was ∧ !on then s.pageOff pg else if !was ∧ on then s.pageOn pg else s).resumeHeld

/-- A write of a header register, R66 and R67. -/
def headerWrite (s : State) (addr : Nat) (v : Word) : State :=
  let pg := addr / 0x400
  let evt := v &&& 0xFFFFFF0F
  match addr % 0x400 with
  | 0x08 => s.ctrlWrite pg v
  | 0x0C => s.when (getBits v 2 1 == 1) (·.set (F.PG_STAT_ERR pg) 0)
  | 0x10 => s.setReg addr (s.reg addr &&& ~~~v)
  | 0x14 => s.setReg addr evt
  | 0x18 => s.setReg (R.PG_EVT pg) (s.reg (R.PG_EVT pg) ||| evt)
  | 0x1C => s.when (getBits v 0 1 == 1) (·.commitRequest pg)
  | 0x20 => s.when (getBits v 1 1 == 1) (·.set (F.PG_GUARD_LOCK pg) 1)
  | _ => s

/-! Writes of registers, R75 to R78. -/

/-- Is a field fixed in the role though its kind is not RO (R28, R219, R243, R293)? -/
def fixedField (s : State) (a lo : Nat) : Bool :=
  if s.isCell then
    a == R.SYS_NODE || a == R.SYS_TOPO || (decide (0x4000 ≤ a) && decide (a < 0x6000) && a % 0x400 == 0x40 && lo == 0)
      || (a == R.TIME_CTL && lo == 0) || (a == R.TIME_MER && lo == 0)
      || (decide (R.TIME_EPOCH_NS ≤ a) && decide (a ≤ R.TIME_KBASE_HI))
  else if a = R.TREE_CTL 1 ∨ a = R.TREE_CTL 2 ∨ a = R.TREE_CTL 3 then lo == 0
  else false

/-- Does a write of `n` to a GD field of kind W act (R76)? -/
def guardedActs (s : State) (a n : Nat) : Bool :=
  if a = R.SEC_OWN then s.isCell && n == 0x7E55
  else if a = R.BOOT_ARB then decide (s.antiRollback < n) && decide (n ≤ s.get F.BOOT_RUN_SV)
  else n == 1

/-- Are the ST fields of a register closed: the page enabled or, for the SPLL, the SPLL (R7, R124)? -/
def staticClosed (s : State) (a : Nat) : Bool :=
  if a = R.CLK_SPLL ∨ a = R.CLK_SPLL_FRAC then s.is F.CLK_SRC_SPLL_EN else s.is (F.PG_CTRL_EN (a / 0x400))

/-- Does a written value never enter a field (R28: ARMS is 1 or 2)? -/
def valueIgnored (a lo n : Nat) : Bool := a == R.SYS_TOPO && lo == 0 && n != 1 && n != 2

/-- The word merged so far; whether a guard and whether a static refusal was met. -/
structure Merge where
  v : Word
  guard : Bool := false
  static : Bool := false
  deriving DecidableEq, Repr

/-- One field of a write, by its kind. -/
def mergeField (s : State) (a : Nat) (old data : Word) (opened : Bool) (m : Merge) (f : FieldDesc) : Merge :=
  let o := getBits old f.lo f.w
  let n := getBits data f.lo f.w
  let setTo (x : Nat) : Merge := { m with v := setBits m.v f.lo f.w x }
  if s.fixedField a f.lo ∨ f.kind = .ro then m
  else
    let acts := if f.kind = .w then s.guardedActs a n else if a = R.BERTH_BOARD ∧ f.lo < 8 then n != 0 else n != o
    let g := f.gd && !opened && acts
    let st := f.kind == .st && n != o && s.staticClosed a && !valueIgnored a f.lo n
    let m' : Merge := { m with guard := m.guard || g, static := m.static || st }
    match f.kind with
    | .ro => m
    | .w1c => setTo (o &&& (2 ^ f.w - 1 - n))
    | .row => setTo 0
    | .w => if g then { m' with v := setBits m.v f.lo f.w 0 } else { m' with v := setBits m.v f.lo f.w n }
    | _ => if g ∨ st ∨ valueIgnored a f.lo n ∨ (a = R.BERTH_BOARD ∧ f.lo < 8) then m' else { m' with v := setBits m.v f.lo f.w n }

/-- The bits of a register that start its command. -/
def commandMask (a : Nat) (d : RegDesc) : Nat :=
  if a = R.MON_SNAP 0 ∨ a = R.MON_SNAP 1 ∨ a = R.LT_CMD 0 then 2 ^ 31
  else if a = R.CTL_PGM_CMD then 1
  else if a = R.RCU_CMD then 2 ^ 8
  else if a = R.REC_CMD then 7
  else maskOf d fun f => f.kind == .w

/-- The commands of a register that a parked page ignores (R78). REC_CMD.FORCE has a rule of its own: outside Filling and
Armed it is counted in IGNORED (R628). -/
def parkedMask (a : Nat) (d : RegDesc) : Nat := if a = R.REC_CMD then 6 else commandMask a d

/-- Is every write of the register a command? -/
def wholeCommand (a : Nat) (d : RegDesc) : Bool :=
  a == R.SAFE_HCMD || a == R.SAFE_CCMD || a == R.STN_TXPOST || d.fields.any fun f => f.kind == .row

/-- A refused write raises its events (R66, R75, R76). -/
def refusals (s : State) (pg : Nat) (m : Merge) : State :=
  let s := s.when m.guard fun s => ((s.event pg 2).bump (F.PG_GUARD_REFUSED pg)).set (F.PG_STAT_ERR pg) 1
  s.when m.static fun s => (s.event pg 0).set (F.PG_STAT_ERR pg) 1

/-- The answer of a write that met refusals. -/
def refusalCode (s : State) (pg : Nat) (m : Merge) : Nat :=
  if m.guard then (if s.is (F.PG_GUARD_LOCK pg) then Code.locked else Code.guarded)
  else if m.static then Code.static else Code.ok

/-- The merged word is stored and the register's own rule acts. -/
def writeActs (s : State) (d : RegDesc) (w : Wr) (data : Word) : State :=
  let wMask := maskOf d fun f => f.kind == .w
  let pg := w.a / 0x400
  let parked := s.gated pg && w.a != R.TIME_CMD
  if parked ∧ wholeCommand w.a d then s.accessErr pg
  else
    let drop := parked && getBits w.v 0 32 &&& parkedMask w.a d != 0
    let s := s.when drop (·.accessErr pg)
    let w := if drop then { w with v := w.v &&& ~~~ BitVec.ofNat 32 (if w.a = R.REC_CMD then 6 else wMask) } else w
    let m := BitVec.ofNat 32 (maskOf d fun f => f.kind != .ro && f.kind != .w)
    let s := if owned w.a ∨ m = 0 then s else s.setReg w.a ((s.reg w.a &&& ~~~m) ||| (w.v &&& m))
    if w.a = R.BERTH_BOARD then s.hookBoard w data else s.hook w

/-- A write of a register that has passed the first six tests: its code and its effect. -/
def writeReg (s : State) (path : Path) (addr : Nat) (data : Word) : Nat × State :=
  let pg := addr / 0x400
  let a := s.home addr
  match s.descAt a with
  | none => (Code.ok, s)
  | some d =>
    let old := s.viewReg (pathIdx path) a false
    let data := data &&& ~~~ BitVec.ofNat 32 (s.hiddenBits a)
    let opened := s.guardFor path pg
    let m := d.fields.foldl (s.mergeField a old data opened) { v := old }
    let m := if a = R.BERTH_CMD ∧ getBits data 1 1 = 1 ∧ !opened ∧ s.berthGuarded then { m with guard := true } else m
    let code := s.refusalCode pg m
    let s := { s.refusals pg m with resp := ⟨Code.ok, []⟩ }
    let s := s.writeActs d ⟨path, a, old, m.v, opened, m.guard⟩ data
    if s.resp.code ≠ Code.ok then (s.resp.code, s.set (F.PG_STAT_ERR pg) 1) else (code, s)

/-- A write of one word that has passed steps 1 to 5. -/
def writeAt (s : State) (path : Path) (addr : Nat) (data : Word) : Nat × State :=
  if addr % 0x400 < 0x40 then (Code.ok, s.headerWrite addr data)
  else if s.gatedWord addr then (Code.gated, s.pageError (addr / 0x400))
  else s.writeReg path addr data

/-! Whole accesses. -/

/-- The answer of an access; an error that the supervisor meets is its access fault (R80, R156). -/
def answerAccess (s : State) (path : Path) (addr code : Nat) (data : List Word) (isStore : Bool) : State :=
  let s := if code ≠ Code.ok ∧ path = .supervisor then s.cpuFault code (0x40000000 + addr) (if isStore then 7 else 5) else s
  { s with resp := ⟨code, data⟩ }

/-- Words from `addr` up are read: the code, the words completed before a failure, the state. -/
def readWords (s : State) (path : Path) (addr : Nat) : (n : Nat) → Nat × List Word × State
  | 0 => (Code.ok, [], s)
  | n + 1 =>
    let (c, w, s) := s.readAt path addr
    if c ≠ Code.ok then (c, [], s)
    else
      let (c, ws, s) := s.readWords path (addr + 4) n
      (c, w :: ws, s)

/-- Words are written from `addr` up: the code, how many were completed, the state (R86). -/
def writeWords (s : State) (path : Path) (addr : Nat) : List Word → Nat × Nat × State
  | [] => (Code.ok, 0, s)
  | w :: ws =>
    let (c, s) := s.writeAt path addr w
    if c ≠ Code.ok then (c, 0, s)
    else
      let (c, n, s) := s.writeWords path (addr + 4) ws
      (c, n + 1, s)

/-- A burst read: code, INDEX, `n` words, those from a failure on 0 (R80). -/
def burstRead (s : State) (path : Path) (addr n : Nat) : Nat × Nat × List Word × State :=
  let c := s.accessTest addr 4 n true
  if c ≠ Code.ok then (c, 0, List.replicate n 0, s.pageError (addr / 0x400))
  else
    let (c, ws, s) := s.readWords path addr n
    (c, if c = Code.ok then 0 else ws.length, ws ++ List.replicate (n - ws.length) 0, s)

/-- A burst write: code and INDEX. -/
def burstWrite (s : State) (path : Path) (addr : Nat) (ws : List Word) : Nat × Nat × State :=
  let c := s.accessTest addr 4 ws.length false
  if c ≠ Code.ok then (c, 0, s.pageError (addr / 0x400))
  else
    let (c, n, s) := s.writeWords path addr ws
    (c, if c = Code.ok then 0 else n, s)

/-- A masked write (R82): the word is read, merged and written as one access. The read half takes the word as it stands: the
spec does not say whether it pops, claims, latches or answers POISON, and here it does none of these (DESIGN CHOICE,
log 113). -/
def masked (s : State) (path : Path) (addr : Nat) (mask data : Word) : Nat × State :=
  let c := s.accessTest addr 4 1 false
  if c ≠ Code.ok then (c, s.pageError (addr / 0x400))
  else
    let old := s.viewWord (pathIdx path) addr
    s.writeAt path addr ((old &&& ~~~mask) ||| (data &&& mask))

/-- A write command of `bytes` bytes on a path. The supervisor may name an address of its own map (R152), where register
space begins at 0x4000_0000; below 0x1_0000 an address is an offset in register space. -/
def writeCmd (s : State) (path : Path) (bytes addr : Nat) (data : Word) : State :=
  if path = .supervisor ∧ 0x10000 ≤ addr ∧ (addr < 0x40000000 ∨ 0x40010000 ≤ addr) then
    s.supStore addr (leBytes (min 4 bytes) data.toNat)
  else
  let addr := if path = .supervisor ∧ 0x40000000 ≤ addr then addr - 0x40000000 else addr
  let c := s.accessTest addr bytes 1 false
  let (c, s) := if c ≠ Code.ok then (c, s.pageError (addr / 0x400)) else s.writeAt path addr data
  s.answerAccess path addr c [] true

/-- A read command on a path. -/
def readCmd (s : State) (path : Path) (addr : Nat) : State :=
  let (c, _, ws, s) := s.burstRead path addr 1
  s.answerAccess path addr c ws false

/-- A masked write command on a path. -/
def maskedCmd (s : State) (path : Path) (addr : Nat) (mask data : Word) : State :=
  let (c, s) := s.masked path addr mask data
  s.answerAccess path addr c [] true

end State

/-- The command of a path that writes one word. -/
def writeRow (s : State) (path : Path) (addr : Nat) (data : Word) : Out :=
  act s (s.pathOpen path) fun s => s.writeCmd path 4 addr data

/-- The command of a path that writes one word with some of its fields changed and the rest as read. -/
def fieldRow (s : State) (path : Path) (f : Fld) (n : Nat) : Out :=
  writeRow s path f.addr (put f n (s.viewWord (pathIdx path) f.addr))

/-- The command of a path that reads one word. -/
def readRow (s : State) (path : Path) (addr : Nat) : Out := act s (s.pathOpen path) fun s => s.readCmd path addr

namespace State

/-- The fields of a register that an aborted write may have changed (R78): which of them it did is a free value. -/
def abortedWrite (s : State) (addr : Nat) (data : Word) : State :=
  match s.descAt (s.home addr) with
  | none => s
  | some d =>
    let (v, s) := s.free
    let some' := d.fields.zipIdx.filter fun x => bitOf v x.2 && (x.1.kind == .rw || x.1.kind == .sh)
    let m := BitVec.ofNat 32 (some'.foldl (fun m x => m ||| (2 ^ x.1.w - 1) <<< x.1.lo) 0)
    s.setReg (s.home addr) ((s.reg (s.home addr) &&& ~~~m) ||| (data &&& m))

/-- The access in flight at the port of page `pg` completes with ABORTED. -/
def abortAccess (s : State) (pg : Nat) (x : InFlight) : State :=
  if x.addr / 0x400 ≠ pg then s
  else
    let s := match x.data with
      | some w => s.abortedWrite x.addr w
      | none => s
    (s.pageError pg).answerAccess x.path x.addr Code.aborted (if x.data.isSome then [] else [0]) x.data.isSome

end State

/-- GATE_TIMEOUT: an access still unserved at CLK_GATETO completes with ABORTED, a lock of the block is broken (R607), and
the gate closes (R119). -/
def execGateTimeout (wait : GateWait) (s : State) : Out :=
  act s (s.alive && s.clk.gating.contains wait.page) fun s =>
    let s := (s.when (s.lockOwner wait.page) (·.lockBreak 1)).closeGate wait.page
    match wait.access with
    | some x => s.abortAccess wait.page x
    | none => s

end Sys2Proof.Machine
end

