-- ==== Sys2Proof/Machine/CellRx.lean ====
section
/-! DEFINITION. What a cell does with the cycle frames it receives (R260 to R270, R286 to R292, R301 to R318): the checks,
the time correction, obedience, events, the timetable, management records, admission and the tree image. -/

namespace Sys2Proof.Machine

/-- A cycle frame out of its bytes (R248): `hdr` is what the tag covers. -/
structure RxFrame where
  port : Nat
  lexec : Nat
  cycle : Nat
  watch : Nat
  flags : Nat
  tbg : Nat
  refs : List Word
  bitmap : List Byte
  rep : List Nat
  new : List Nat
  tt : List (List Byte)
  skind : Nat
  m1 : Nat
  block : Nat
  body : List Byte
  hdr : List Byte
  tag : List Byte
  crc : List Byte
  deriving DecidableEq, Repr

/-- `k` pieces of `n` bytes. -/
def pieces (n k : Nat) (bs : List Byte) : List (List Byte) := (List.range k).map fun i => (bs.drop (i * n)).take n

/-- MLEN by SKIND (R259); none for an SKIND that is not defined. -/
def bodyLen (skind x : Nat) : Option Nat :=
  match skind with
  | 0 => if x ≤ 256 ∧ x % 4 = 0 then some x else none
  | 1 => some 256
  | 2 => some 68
  | 3 => some 280
  | _ => none

/-- The frame of a string, if it passes the tests of R260 step 2 that need nothing but the frame. -/
def parseFrame (bs : List Byte) : Option RxFrame :=
  let at' (i : Nat) : Nat := (nth bs i 0).toNat
  let num (i n : Nat) : Nat := ofBe ((bs.drop i).take n)
  let nrep := at' 104
  let nnew := at' 105
  let a := 106 + 6 * (nrep + nnew)
  let ntt := at' a
  let b := a + 1 + 4 * ntt
  match bodyLen (at' b) (num (b + 2) 2) with
  | none => none
  | some mlen =>
    let c := b + 4 + mlen
    let flags := at' 10
    if bs.length = c + 12 ∧ 123 ≤ bs.length ∧ bs.length ≤ 1024 ∧ nrep + nnew ≤ 128 ∧ ntt ≤ 32 ∧ at' 0 = 1 ∧ at' 1 % 8 = 0
        ∧ flags < 64 ∧ bitOf flags 0 ≠ bitOf flags 1 ∧ (nrep = 0 ∨ bitOf flags 4) ∧ (nnew = 0 ∨ !bitOf flags 5) then
      let words := (pieces 6 (nrep + nnew) (bs.drop 106)).map ofBe
      some {
        port := at' 1 / 64, lexec := at' 1 / 8 % 8 + 1, cycle := num 2 6, watch := num 8 2, flags := flags, tbg := at' 11
        refs := (pieces 4 7 (bs.drop 12)).map fun w => BitVec.ofNat 32 (ofBe w)
        bitmap := (bs.drop 40).take 64, rep := words.take nrep, new := words.drop nrep
        tt := pieces 4 ntt (bs.drop (a + 1)), skind := at' b, m1 := at' (b + 1), block := num (b + 2) 2
        body := (bs.drop (b + 4)).take mlen, hdr := bs.take c, tag := (bs.drop c).take 8, crc := bs.drop (c + 8) }
    else none

/-- Is flag `i` of R249 set? -/
def RxFrame.flag (f : RxFrame) (i : Nat) : Bool := bitOf f.flags i

/-- A record of a SKIND 0 body (R286): `whole` tells that it ends within the body. -/
structure RxRec where
  rtype : Nat
  berth : Nat
  tid : Nat
  marks : Nat
  body : List Byte
  whole : Bool
  deriving DecidableEq, Repr

/-- The records of a body. -/
def recordsOf : (fuel : Nat) → List Byte → List RxRec
  | 0, _ => []
  | k + 1, bs =>
    if bs.length < 4 then []
    else
      let at' (i : Nat) : Nat := (nth bs i 0).toNat
      let n := 4 * (at' 3 % 64)
      let r : RxRec := ⟨at' 0, at' 1, at' 2, at' 3, (bs.drop 4).take n, decide (4 + n ≤ bs.length)⟩
      r :: (if r.whole then recordsOf k (bs.drop (4 + n)) else [])

/-- Is a record possible: of a type defined and with the LEN4 of its type (R286)? -/
def RxRec.possible (r : RxRec) : Bool :=
  let n := r.body.length / 4
  r.whole && match r.rtype with
    | 1 => n == 1 && decide ((nth r.body 2 0).toNat ≤ 4)
    | 2 | 4 => decide (2 ≤ n) && decide (n ≤ 17)
    | 3 => n == 3
    | 0x10 => n == 8
    | 0x11 => n == 2
    | 0x12 => n == 5
    | 0x41 => n == 6
    | 0x42 => n == 51
    | 0x43 => n == 3
    | 0x45 => n == 8
    | t => t == State.beaconType && n == 6

/-- The timebase of a TBASE body (R287). -/
def timebaseOf (bs : List Byte) : Timebase :=
  let num (i n : Nat) : Nat := ofBe ((bs.drop i).take n)
  { epoch := num 0 8 * unitsPerSecond + num 8 4 * 2 ^ 32, kbase := num 12 6, tcyc := num 18 1, tbg := num 19 1 }
where
  /-- Units of network time in a second. -/
  unitsPerSecond : Nat := 1000000000 * 2 ^ 32

/-- The TBASE that a frame carries, if any. -/
def RxFrame.timebase (f : RxFrame) : Option Timebase :=
  let recs := if f.skind = 0 then recordsOf 64 f.body else if f.skind = 3 then recordsOf 1 (f.body.drop 256) else []
  (recs.find? fun r => r.rtype == 0x12 && r.possible).map fun r => timebaseOf r.body

namespace State

/-! Timebases and time, R236, R237 and R287. -/

/-- T_cyc of a timebase. -/
def tbCyc (b : Timebase) : Nat := b.tcyc * 500 * unitsPerNs

/-- t_k of a timebase. -/
def tbAt (b : Timebase) (k : Nat) : Int := (b.epoch : Int) + ((k : Int) - b.kbase) * tbCyc b

/-- A timebase received on uplink `u` is kept with that of the generation before it. -/
def keepBase (s : State) (u : Nat) (b : Timebase) : State :=
  let x := s.uplink u
  s.setUplink u { x with bases := (b :: x.bases.filter fun c => c.tbg != b.tbg).take 2 }

/-- The cell's time registers follow a timebase. -/
def followBase (s : State) (b : Timebase) : State :=
  let w (n : Nat) : Word := BitVec.ofNat 32 n
  let put (a : Nat) (v : Word) (s : State) : State := { s.setReg a v with act := kvSet s.act a v }
  let sec := b.epoch / unitsPerSec
  let s := (put R.TIME_EPOCH_SH (w (sec / 2 ^ 32)) (put R.TIME_EPOCH_SL (w sec)
    (put R.TIME_EPOCH_NS (w (b.epoch % unitsPerSec / unitsPerNs)) s)))
  let s := put R.TIME_KBASE_HI (w (b.kbase / 2 ^ 32)) (put R.TIME_KBASE_LO (w b.kbase) s)
  let s := s.set F.TIME_MER_TCYC b.tcyc
  { s with act := kvSet s.act R.TIME_MER (setBits (s.actReg R.TIME_MER) 0 7 b.tcyc) }.set F.TIME_STAT_TBG b.tbg

/-- TIME_K shows cycle `k`, the last meridian fired. -/
def setCycle (s : State) (k : Nat) : State :=
  let s := s.setReg R.TIME_K_LO (BitVec.ofNat 32 k)
  { s.set F.TIME_K_HI_K (k / 2 ^ 32) with time := { s.time with lastK := some k, cont := true } }

/-- D_RXC of R230. -/
def dRxc (s : State) (u : Nat) : Nat := if s.rate u = 2 then nsUnits 32 else nsUnits 512 / 10

/-- A correction of `d` units waits for the next tick; in holdover none applies (R237, R238). -/
def correctBy (s : State) (d : Int) : State :=
  if s.inHoldover then s else { s with time := { s.time with corr := s.time.corr + d } }

/-- The correction of R237 by an ACTIVE frame of cycle `k` on the uplink of RCSEL. The step is -e / 2^SHIFT, not rounded.
In holdover errors are judged, counted and discarded all the same (DEDUCED, log 72). -/
def correctTime (s : State) (u k stamp : Nat) (b : Timebase) : State :=
  let sent : Int := tbAt b k + s.dTx u + s.get (F.TREE_CELL_DN_DLY u) * unitsPer64 + s.dRxc u
  let e : Int := ((stamp : Int) - sent) / unitsPer64
  let s := (s.leaveHold .frames).setReg R.TIME_CELL_ERR (BitVec.ofInt 32 e)
  let s := s.monitor 7 fun _ => some e
  if e.natAbs ≤ max 1 (s.get F.TIME_CELL_LIM) * 4 * 64 then
    let s := { s with time := { s.time with bad := [] } }.correctBy (-e * unitsPer64 / 2 ^ s.get F.TIME_CELL_SHIFT)
    s.set F.TIME_STAT_LOCK 1
  else
    let s := (s.bump F.TIME_CELL_DISC).set F.TIME_STAT_LOCK 0
    let bad := e :: s.time.bad
    if bad.length < 8 then { s with time := { s.time with bad := bad } }
    else
      let h := bad.mergeSort (fun a c => decide (a ≤ c))
      let m := (nth h 3 0 + nth h 4 0) / 2
      let s := { s with time := { s.time with bad := [] } }
      if s.inHoldover then s else (s.correctBy (-m * unitsPer64)).event Pg.TIME 13

/-! Events, R254 to R257, R264 to R267 and R688. -/

/-- Fields of an event word. -/
def wBerth (w : Nat) : Nat := w / 2 ^ 38 % 1024
def wAction (w : Nat) : Nat := w / 2 ^ 34 % 16
def wOffset (w : Nat) : Nat := w / 2 ^ 10 % 2 ^ 24
def wSeq (w : Nat) : Nat := w % 1024

/-- Words rejected. -/
def rejected (s : State) (n : Nat) : State := s.bump (F.TREE_CELL_EVCNT_REJECT 0) n

/-- A SWAP pair that does not check. -/
def swapErr (s : State) : State := (s.bump (F.TREE_CELL_EVCNT_SWAPERR 0)).evFlag 12

/-- The request of a queued event, taken out of the queue. -/
def eventRequest (s : State) (e : CellEvent) : State :=
  let s := { s with rx := { s.rx with events := removeFirst (· == e) s.rx.events } }
  match e.act with
  | .trim on w => s.trimEvent e on w
  | _ => s.moveEvent e

/-- The first output change that a queued event causes, the requests before it being executed as they are queued; its launch
instant where it causes none (R463, R464, R466). -/
def firstChange (s : State) (e : CellEvent) : Nat :=
  let before := s.rx.events.takeWhile (· != e)
  let t := (before.foldl (fun (t : State) x => (t.trimOver x.instant).eventRequest x) s).trimOver e.instant
  let g := (t.eventRequest e).gate
  if g.lastAt = some e.instant ∧ t.gate.lastAt ≠ some e.instant then
    if t.gate.legA ≠ g.legA ∨ t.gate.legB ≠ g.legB then g.falls else g.rises
  else e.instant

/-- Is an event past recall at time `t`: from its launch instant, or from the first output change that it causes (R688)? -/
def pastRecall (s : State) (e : CellEvent) (t : Nat) : Bool := decide (min e.instant (s.firstChange e) ≤ t)

/-- An event in its place by its instant. -/
def insertEvent (e : CellEvent) : List CellEvent → List CellEvent
  | [] => [e]
  | x :: l => if e.instant < x.instant then e :: x :: l else x :: insertEvent e l

/-- An event of offset `off` for target cycle `t` is queued at `q`, or discarded (R265, R266). -/
def queueEvent (s : State) (b : Timebase) (t seq off : Nat) (a : EvAct) (q : Nat) : State :=
  let i := (tbAt b t).toNat + off * unitsPer64
  let e : CellEvent := ⟨t, seq, i, q, a⟩
  let l := s.rx.events
  let keepQ (l : List CellEvent) (s : State) : State := { s with rx := { s.rx with events := l } }
  if l.any fun x => x.target == t && x.seq == seq then s.count ⟨R.TREE_CELL_DUPS 0, 0, 32⟩
  else if i < q + nsUnits 100 then (s.bump (F.TREE_CELL_EVCNT_LATE 0)).evFlag 5
  else if tbCyc b ≤ off * unitsPer64 then s.rejected 1
  else match l.find? fun x => x.target == t && x.instant == i with
    | some old =>
      let s := s.bump (F.TREE_CELL_EVCNT_SUPERSEDED 0)
      if s.pastRecall old q then s else keepQ (insertEvent e (removeFirst (· == old) l)) s
    | none =>
      if 32 ≤ l.length then (s.bump (F.TREE_CELL_EVCNT_OVERFLOW 0)).evFlag 15 else keepQ (insertEvent e l) s

/-- One word that is no pair, addressed to the berth. -/
def singleWord (s : State) (b : Timebase) (t q w : Nat) : State :=
  let move (a : EvAct) : State := if s.cellInter then s.rejected 1 else s.queueEvent b t (wSeq w) (wOffset w) a q
  match wAction w with
  | 0 => move .byp
  | 1 => move .insPos
  | 2 => if s.full then move .insNeg else s.rejected 1
  | 3 => s.queueEvent b t (wSeq w) (wOffset w) .blockCell q
  | 5 => s.queueEvent b t (wSeq w) (wOffset w) .fireThy q
  | 6 => s.queueEvent b t (wSeq w) (wOffset w) .permBypass q
  | _ => s.rejected 1

/-- A TRIM word and the word after it (R256); `own` is the cell's berth index. -/
def trimPair (s : State) (b : Timebase) (t q own w x : Nat) : State :=
  let paired := wBerth x == wBerth w && wSeq x == wSeq w
  if wBerth w = own then
    let okState := wAction x == 1 || (wAction x == 2 && s.full)
    if paired ∧ okState ∧ (wOffset w + wOffset x) * unitsPer64 ≤ tbCyc b ∧ !s.cellInter then
      s.queueEvent b t (wSeq w) (wOffset w) (.trim (CellState.ofCode (wAction x)) (wOffset x * unitsPer64)) q
    else s.rejected (1 + b2n (wBerth x == own))
  else if wBerth x = own ∧ !paired then s.rejected 1
  else s

/-- A SWAP_HEAD word and its partner (R257). -/
def swapPair (s : State) (b : Timebase) (t q own w x : Nat) : State :=
  if wBerth w ≠ own ∧ wBerth x ≠ own then s
  else if s.cellInter then s.rejected 1
  else if wBerth w = wBerth x ∨ wOffset w ≠ wOffset x ∨ 2 < wAction x then s.swapErr
  else
    let a := if wBerth x = own then wAction x else if wAction x = 0 then 1 else 0
    if a = 2 ∧ !s.full then s.rejected 1
    else s.queueEvent b t (wSeq (if wBerth w = own then w else x)) (wOffset w) (.swap (CellState.ofCode a)) q

/-- The words of one section of a frame, in order. -/
def takeWords (s : State) (b : Timebase) (t q own : Nat) : List Nat → State
  | [] => s
  | [w] =>
    if wBerth w ≠ own then s
    else if wAction w = 4 then s.rejected 1
    else if wAction w = 7 then s.swapErr
    else s.singleWord b t q w
  | w :: x :: l =>
    if wAction w = 4 then (s.trimPair b t q own w x).takeWords b t q own l
    else if wAction w = 7 then (s.swapPair b t q own w x).takeWords b t q own l
    else (if wBerth w = own then s.singleWord b t q w else s).takeWords b t q own (x :: l)

/-! Obedience, R261 to R264. -/

/-- The berth index of the cell on uplink `u`. -/
def ownIndex (s : State) (u : Nat) : Option Nat :=
  let x := s.uplink u
  match x.port, x.berth with
  | some p, some b => some (256 * p + b)
  | _, _ => none

/-- The cell-wide state of TREE_CELL_STAT. -/
def rxState (s : State) : Nat := s.get (F.TREE_CELL_STAT_STATE 0)

/-- A hold ends: its end joins the list of R283. -/
def holdEnds (s : State) : State :=
  match s.rx.holds with
  | (a, none) :: l => { s with rx := { s.rx with holds := (a, some s.now) :: l } }
  | _ => s

/-- A hold begins. -/
def holdBegins (s : State) : State :=
  match s.rx.holds with
  | (_, none) :: _ => s
  | l => { s with rx := { s.rx with holds := (s.now, none) :: l.take 7 } }

/-- The reference block of an obeyed frame is stored for its target (R252, R263, R358). -/
def storeRefs (s : State) (f : RxFrame) (t : Nat) : State :=
  let own := (f.refs.drop (3 * s.active F.MOD_CELL_CFG_ARM)).take 3
  let e := nth f.refs 6 0
  let s := (own ++ [e]).zipIdx.foldl (fun t x => t.setReg (R.TREE_CELL_REF 0 x.2) x.1) s
  { s with cmod := { s.cmod with refs := (s.cmod.refs.filter fun (r : Nat × List Word) => r.1 != t) ++ [(t, own)] } }.epochSeen e.toNat f.cycle

/-- An obeyed frame on uplink `u`, its start-of-frame timestamp and the instant at which its events are queued; the time
between its EOF at the pin and that instant is the monitor's P_cell (R266, R642). -/
def obey (s : State) (u : Nat) (f : RxFrame) (b : Timebase) (stamp q : Nat) : State :=
  let k := f.cycle
  let stopped := !s.rx.obeying
  let s := (s.count (F.TREE_CELL_RX_OBEYED u)).followBase b
  let s := (s.setReg (R.TREE_CELL_K_LO 0) (BitVec.ofNat 32 k)).setReg (R.TREE_CELL_K_HI 0) (BitVec.ofNat 32 (k / 2 ^ 32))
  let s := ((s.set (F.TREE_CELL_STAT_LEXEC 0) (f.lexec - 1)).set (F.TREE_CELL_STAT_REPEAT 0) (b2n (f.flag 4))).set (F.TREE_CELL_STAT_LANE 0) u
  let s := s.when stopped fun s => (s.setCycle k).set F.TIME_MER_RUN 1
  let s := (s.holdEnds).set (F.TREE_CELL_STAT_STATE 0) 1
  let s := { s with
    rx := { s.rx with obeying := true, kSet := true, obeyedAt := s.now, obeyedK := (k :: s.rx.obeyedK).take 64 }
    safe := { s.safe with breqF := f.flag 2 } }
  let s := s.when (f.flag 2) cellBlockNow
  let s := s.monitorSel 1 0 (((q : Int) - ((stamp : Int) - s.dRxc u + ((f.hdr.length + 15) * groupTenths (s.rate u) / 10 : Nat) * unitsPer64))
    / unitsPerNs)
  let tNew := k + f.lexec + b2n (f.flag 4)
  let s := match s.ownIndex u with
    | none => s
    | some own =>
      let s := (s.takeWords b (k + f.lexec) q own f.rep).takeWords b tNew q own f.new
      let i := own % 256
      let code := (nth f.bitmap (i / 4) 0).toNat / 4 ^ (i % 4) % 4
      { s with rx := { s.rx with bitmap := (s.rx.bitmap.filter fun (e : BitmapEntry) => e.target != tNew) ++ [BitmapEntry.mk tNew code (f.flag 5)] } }
  s.storeRefs f tNew

/-- W takes the watch number of a frame on uplink `u`. -/
def setWatch (s : State) (u w : Nat) : State := { s.set (F.TREE_CELL_STAT_W 0) w with rx := { s.rx with wFrom := some u } }

/-- A newer watch is obeyed: events of the older watch that are not past recall go; on the other uplink RCSEL follows
(R261, R533). -/
def newerWatch (s : State) (u w q : Nat) : State :=
  let keep := s.rx.events.filter fun e => s.pastRecall e q
  let s := { s.setWatch u w with rx := { (s.setWatch u w).rx with events := keep, kSet := false } }
  let s := (s.event (Pg.TREE 0) 14).bbWrite 0x25 u [s.cycle % 2 ^ 32, w]
  if s.get F.CLK_SRC_RCSEL = u then s else s.set F.CLK_SRC_RCSEL u

/-- A tag-valid ACTIVE frame is obeyed or fenced (R261). -/
def decide' (s : State) (u : Nat) (f : RxFrame) (b : Timebase) (stamp q : Nat) : State :=
  let d := (f.watch + 65536 - s.get (F.TREE_CELL_STAT_W 0)) % 65536
  let kLast := (s.reg (R.TREE_CELL_K_LO 0)).toNat + 2 ^ 32 * (s.reg (R.TREE_CELL_K_HI 0)).toNat
  if 1 ≤ d ∧ d ≤ 32767 then (s.newerWatch u f.watch q).obey u f b stamp q
  else if d = 0 ∧ (!s.rx.kSet ∨ kLast < f.cycle) then s.obey u f b stamp q
  else if 32769 ≤ d then s.bump (F.TREE_CELL_FENCE_FENCED 0)
  else if d = 0 ∧ f.cycle = kLast ∧ u ≠ s.get (F.TREE_CELL_STAT_LANE 0) then
    (s.bump (F.TREE_CELL_FENCE_DUAL 0)).event (Pg.TREE 0) 15
  else s.bump (F.TREE_CELL_FENCE_STALE 0)

/-! The timetable at the cell, R258 and R277 to R279. -/

/-- MGRANT: the grant is kept unless it comes less than 1 us before the launch. -/
def grantSlot (s : State) (u m rb : Nat) : State :=
  let n := roundNamed (s.roundNow u) rb
  let launch := slotAt (s.rate u) n (mgmtIdx m) - s.dUp u
  let x := s.uplink u
  if launch < s.now + 1000 * unitsPerNs ∨ x.grants.contains (m, n) then s
  else s.setUplink u { x with grants := (x.grants ++ [(m, n)]).mergeSort fun a c => decide (a.2 < c.2 ∨ (a.2 = c.2 ∧ a.1 ≤ c.1)) }

/-- RSLOT: the report moves from the named round. -/
def moveReport (s : State) (u r rb : Nat) : State :=
  let m := (r, roundNamed (s.roundNow u) rb)
  let x := s.uplink u
  if x.moves.contains m then s else s.setUplink u { x with moves := m :: x.moves.filter fun y => y.2 != m.2 }

/-- A burst in progress is cut: its enable falls now, and of its 40 bytes after the sync word those that have left stay
(R276, R279). -/
def cutBurst (s : State) (u : Nat) : State :=
  let x := s.uplink u
  if s.now < x.txen.2 then
    let gone := (s.now - x.txen.1) / groupAt (s.rate u) 0 1
    s.setUplink u { x with txen := (x.txen.1, s.now), burst := x.burst.take (gone - 9) }
  else s

/-- LASER_KILL. -/
def kill (s : State) (u : Nat) : State :=
  if s.is (F.TREE_CELL_SLOT_KILLED u) then s else ((s.cutBurst u).set (F.TREE_CELL_SLOT_KILLED u) 1).event (Pg.TREE u) 16

/-- Is a berth byte the cell's own on uplink `u`? -/
def ownBerth (s : State) (u b : Nat) : Bool := (s.uplink u).berth == some b

/-- One timetable entry; before the uplink holds a key only MGRANT counts (R301). -/
def ttEntry (s : State) (u : Nat) (keyed : Bool) (e : List Byte) : State :=
  let at' (i : Nat) : Nat := (nth e i 0).toNat
  match at' 0 with
  | 1 => s.when (s.ownBerth u (at' 1)) (·.grantSlot u (at' 2 % 8) (at' 3))
  | 2 => s.when (keyed && s.ownBerth u (at' 1)) (·.moveReport u (at' 2) (at' 3))
  | 3 => s.when (keyed && (s.ownBerth u (at' 1) || at' 2 % 2 == 1)) (·.kill u)
  | _ => s

/-! Management records, R286 to R289. -/

/-- A record dropped unexecuted. -/
def mqDrop (s : State) (u : Nat) : State := s.bump (F.TREE_CELL_MQ_DROP u)

/-- An admission in progress goes on: the wait of the cell begins anew (log 129). -/
def admissionGoesOn (s : State) (u : Nat) : State :=
  let x := s.uplink u
  if x.offer.isSome then s.setUplink u { x with waitRounds := some 0 } else s

/-- A response joins the uplink's queue; while the uplink holds no key it goes out under a digest tag (R303). -/
def respond (s : State) (u : Nat) (r : MgmtResp) : State :=
  let x := s.uplink u
  (s.setUplink u { x with resps := x.resps ++ [r] }).admissionGoesOn u

/-- A record that wants an answer, executed by `f` when its BERTH is the cell's and fewer than four responses wait. -/
def withRoom (s : State) (u berth : Nat) (f : State → State) : State :=
  if !s.ownBerth u berth then s else if 4 ≤ (s.uplink u).waiting then s.mqDrop u else f s

/-- Is a group key held on the uplink? -/
def keyed (s : State) (u : Nat) : Bool := (s.uplink u).group.isSome

/-- RD. -/
def recRd (s : State) (u berth tid addr nw : Nat) : State :=
  s.withRoom u berth fun s =>
    let (c, i, ws, s) := s.burstRead (.remote false false) addr nw
    let data := (ws ++ List.replicate nw 0).take nw
    s.respond u { rtype := 1, tid := tid, code := c, index := i, data := data.flatMap fun w => beBytes 4 w.toNat }

/-- WR, and WRP, which needs no room and gets no answer. -/
def recWr (s : State) (u berth tid : Nat) (pres sealed : Bool) (addr : Nat) (ws : List Word) : State :=
  s.withRoom u berth fun s =>
    let (c, i, s) := s.burstWrite (.remote pres sealed) addr ws
    s.respond u { rtype := 2, tid := tid, code := c, index := i, data := [] }

def recWrp (s : State) (u : Nat) (pres sealed : Bool) (addr : Nat) (ws : List Word) : State :=
  if s.keyed u then (s.burstWrite (.remote pres sealed) addr ws).2.2 else s

/-- MWR. -/
def recMwr (s : State) (u berth tid : Nat) (pres sealed : Bool) (addr : Nat) (mask data : Word) : State :=
  s.withRoom u berth fun s =>
    let (c, s) := s.masked (.remote pres sealed) addr mask data
    s.respond u { rtype := 3, tid := tid, code := c, index := 0, data := [] }

/-- DELAY: d_down and d_up of the uplink. -/
def recDelay (s : State) (u berth tid down up : Nat) : State :=
  s.withRoom u berth fun s =>
    let s := (s.set (F.TREE_CELL_DN_DLY u) down).set (F.TREE_CELL_UP_DLY u) up
    let s := s.when s.aligned windowMode
    s.respond u { rtype := 0x11, tid := tid, code := Code.ok, index := 0, data := [], digest := !s.keyed u }

/-- The keys of an uplink after a group key `key` with K_sw `ksw`: an exchange whose wrap key opened it takes effect with it,
at once at an admission, at K_sw at a renewal (R185, R186). -/
def keysAfter (x : UplinkSt) (pend : Option (Key × Key)) (key : Key) (ksw : Nat) : UplinkSt :=
  let x := if ksw = 0 ∨ x.group.isNone then { x with group := some key, nextGroup := none }
    else if x.group = some key then x
    else { x with nextGroup := some (key, ksw) }
  match pend with
  | none => x
  | some (ses, wr) =>
    let x := { x with wrap := some wr, pendKeys := none }
    if x.session.isNone ∨ ksw = 0 then { x with session := some ses, nextSession := none }
    else { x with nextSession := some (ses, ksw) }

/-- The cell is admitted on uplink `u`: its first key (R27, R315). -/
def admittedHere (s : State) (u : Nat) : State :=
  let x := s.uplink u
  let s := s.setUplink u { x with
    fresh := true, side := none, offer := none, attempt := 0, backoff := 0, waitRounds := none
    boardWindow := match x.offer with | some o => o.enrol | none => x.boardWindow }
  let s := s.set (F.TREE_CELL_SLOT_KILLED u) 0
  let idx := (s.ownIndex u).getD 0
  s.setReg R.SYS_NODE (BitVec.ofNat 32 (x.hub % 64 + (idx % 1024) <<< 16))

/-- KEY, wrapped under the key of an exchange that waits for it, or else under the wrap key held. A key that neither unwraps is
answered CRC: the check of the remote command failed, nothing is done. -/
def recKey (s : State) (u berth tid : Nat) (body : List Byte) : State :=
  s.withRoom u berth fun s =>
    let x := s.uplink u
    let first := x.group.isNone
    let opened (k : Option Key) : Option Key := k.bind fun k => keyUnwrap k (body.take 24)
    let new := opened (x.pendKeys.map (·.2))
    let key := if new.isSome then new else opened x.wrap
    let r : MgmtResp := { rtype := 0x10, tid := tid, code := Code.ok, index := 0, data := [], digest := first }
    match key with
    | none => s.respond u { r with code := Code.crc }
    | some key =>
      let s := s.setUplink u (keysAfter x (if new.isSome then x.pendKeys else none) key (ofBe ((body.drop 24).take 6)))
      (s.when first (·.admittedHere u)).respond u r

/-! Admission, R300 to R317. -/

/-- BEACON. -/
def recBeacon (s : State) (u : Nat) (body : List Byte) : State :=
  let num (i n : Nat) : Nat := ofBe ((body.drop i).take n)
  s.setUplink u { s.uplink u with beacon := true, rttNom := num 16 4 % 2 ^ 24, zone := num 20 1 % 32, bexp := num 22 1 }

/-- OFFER, when it names this cell and the uplink holds no key. A repeat of the same offer changes nothing. -/
def recOffer (s : State) (u : Nat) (port : Option Nat) (body : List Byte) : State :=
  let num (i n : Nat) : Nat := ofBe ((body.drop i).take n)
  let x := s.uplink u
  if idOfBytes body ≠ s.devId ∨ s.keyed u then s
  else
    let o : Offer := { berth := num 8 1, enrol := num 9 1 % 2 = 1, cycleR := num 12 6, turn := num 20 4 % 2 ^ 24 }
    let same := match x.offer with
      | some p => p.cycleR == o.cycleR && p.berth == o.berth
      | none => false
    if same then s
    else s.setUplink u { x with
      offer := some o, berth := some o.berth, port := match port with | some p => some p | none => x.port
      waitRounds := some 0, boardWindow := o.enrol, pendKeys := none, chunks := [] }

/-- REFUSE, when it names this cell: reason 1 ends boarding until the next reset; otherwise a goes to its maximum and the
cell backs off (R304, R317). -/
def recRefuse (s : State) (u : Nat) (body : List Byte) : State :=
  let x := s.uplink u
  if idOfBytes body ≠ s.devId then s
  else if (nth body 8 0).toNat = 1 then s.setUplink u { x with stopped := true }
  else
    let (v, s) := s.free
    s.setUplink u { x with attempt := 255, waitRounds := none, backoff := v % 2 ^ min 255 x.bexp }

/-- RESTORE: the bit of the cell's berth clears KILLED. -/
def recRelight (s : State) (u : Nat) (body : List Byte) : State :=
  match (s.uplink u).berth with
  | some b => s.when (bitOf (nth body (b / 8) 0).toNat (b % 8)) (·.set (F.TREE_CELL_SLOT_KILLED u) 0)
  | none => s

/-- Is the hub of a KXH accepted: with ENROL it is recorded with its twin, otherwise an anchor under the active owner slot
must hold it (R179, R312)? -/
def hubAccepted (s : State) (enrol : Bool) (id twin : DWord) : Bool × State :=
  if enrol then (true, (s.addAnchor id).addAnchor twin) else (s.anchored id, s)

/-- An attempt to board has failed: what there was of an offer is discarded, a rises and u is drawn. While BOARDING is clear
the cell keeps a (R304, R312). -/
def attemptFailed (s : State) (u : Nat) : State :=
  let x := s.uplink u
  let x := { x with
    waitRounds := none, offer := none, berth := if x.offer.isSome then none else x.berth, pendKeys := none, chunks := []
    resps := if x.offer.isSome then [] else x.resps }
  if x.boarding then
    let a := min 255 (x.attempt + 1)
    let (v, s) := s.free
    s.setUplink u { x with attempt := a, backoff := v % 2 ^ min a x.bexp }
  else s.setUplink u x

/-- KXH: of an admission whose berth was offered, or of a renewal (R186, R312, R313). -/
def recKxh (s : State) (u berth tid : Nat) (body : List Byte) : State :=
  let x := s.uplink u
  let str := body.take 192
  let node := ofBe ((body.drop 200).take 2)
  let fits := match x.offer with
    | some o => o.berth == berth && !s.keyed u
    | none => s.keyed u && s.ownBerth u berth
  if !fits then s
  else if 4 ≤ x.waiting then s.mqDrop u
  else
    let fail (s : State) : State := if s.keyed u then s else s.attemptFailed u
    let id := keyId (kxPub str)
    if !kxSound str (kxEph str) then fail s
    else
      let enrol := match x.offer with | some o => o.enrol | none => false
      let (ok, s) := s.hubAccepted enrol id (idOfBytes ((body.drop 192).take 8))
      if !ok then fail s
      else
        let (d, s) := s.drawScalar
        let eI := kxEph str
        let eR := pubOf d
        match ecdhX d eI with
        | none => fail s
        | some z =>
          let (own, s) := s.kxOwn d (eI ++ eR)
          let s := s.admissionGoesOn u
          s.setUplink u { s.uplink u with
            pendKeys := some (kxKey "PX up" z eI eR id s.devId, kxKey "PX wrap" z eI eR id s.devId)
            chunks := own, chunkTid := tid, chunkNo := 0, hub := node / 1024 % 64
            port := if s.keyed u then x.port else some (node / 256 % 4) }

/-- A record of a frame. `act` tells an ACTIVE frame; before the uplink holds a key only the records of R301 are taken. -/
def recordRx (s : State) (u : Nat) (active : Bool) (port : Nat) (r : RxRec) : State :=
  let num (i n : Nat) : Nat := ofBe ((r.body.drop i).take n)
  let words := (pieces 4 (r.body.length / 4 - 1) (r.body.drop 4)).map fun w => BitVec.ofNat 32 (ofBe w)
  let pres := bitOf r.marks 7
  let sealed := bitOf r.marks 6
  if !r.possible then s.mqDrop u
  else match r.rtype with
    | 1 => s.when (s.keyed u) (·.recRd u r.berth r.tid (num 0 2) (num 2 1 + 1))
    | 2 =>
      if !s.keyed u ∨ !s.ownBerth u r.berth then s
      else if !active then s.mqDrop u else s.recWr u r.berth r.tid pres sealed (num 0 2) words
    | 3 =>
      if !s.keyed u ∨ !s.ownBerth u r.berth then s
      else if !active then s.mqDrop u
      else s.recMwr u r.berth r.tid pres sealed (num 0 2) (nth words 0 0) (nth words 1 0)
    | 4 => if !s.keyed u then s else if !active then s.mqDrop u else s.recWrp u pres sealed (num 0 2) words
    | 0x10 => s.recKey u r.berth r.tid r.body
    | 0x11 => s.recDelay u r.berth r.tid (num 0 4 % 2 ^ 24) (num 4 4 % 2 ^ 24)
    | 0x12 => s
    | 0x41 => s.recOffer u (some port) r.body
    | 0x42 => s.recKxh u r.berth r.tid r.body
    | 0x43 => s.recRefuse u r.body
    | 0x45 => s.when (s.keyed u) (·.recRelight u r.body)
    | _ => s.recBeacon u r.body

/-! The tree image, R292. -/

/-- SKIND 1, 2 and 3: a cell in the ROM that boots from the tree keeps the key record and the blocks; a new identifier
byte discards the blocks held. -/
def imageRx (s : State) (u : Nat) (f : RxFrame) : State :=
  let x := s.uplink u
  if s.phase ≠ .rom ∨ !s.boot.treeBoot ∨ s.boot.treeWhy ≠ 0 then s
  else if f.skind = 2 then s.setUplink u { x with keyRecord := f.body }
  else
    let held := if x.imageId = some f.m1 then x.blocks else []
    s.setUplink u { x with imageId := some f.m1, blocks := kvSet held f.block (f.body.take 256) }

/-- The management segment. -/
def segmentRx (s : State) (u : Nat) (f : RxFrame) : State :=
  if f.skind = 0 then (recordsOf 64 f.body).foldl (fun t r => t.recordRx u (f.flag 0) f.port r) s
  else s.when (s.keyed u) (·.imageRx u f)

/-! Reception, R260. -/

/-- A frame dropped at one of the four checks. -/
def frameDrop (s : State) (u : Nat) (c : Fld) : State := ((s.bump c).event (Pg.TREE u) 17).evFlag 7

/-- The group key of uplink `u` for cycle `k` (R185). -/
def groupFor (s : State) (u k : Nat) : Option Key :=
  let x := s.uplink u
  match x.nextGroup with
  | some (key, ksw) => if ksw ≤ k then some key else x.group
  | none => x.group

/-- The side of the hub under which a frame's tag verifies, if it does. No record tells a cell the side: the first frame under
the keys of an admission is tried under both, the uplink's own number first (R184; log 75). -/
def frameSide (s : State) (u : Nat) (f : RxFrame) : Option Nat :=
  let x := s.uplink u
  match s.groupFor u f.cycle with
  | some key =>
    let sides := match x.side with
      | some d => [d]
      | none => [u, 1 - u]
    sides.find? fun d => gmac key (tagIv 1 x.hub d f.port 0 f.cycle) f.hdr == f.tag
  | none => none

/-- A frame before the uplink holds a key, R301. -/
def frameUnkeyed (s : State) (u : Nat) (f : RxFrame) (b : Timebase) (stamp : Nat) : State :=
  let s := s.setUplink u { s.uplink u with boarding := f.flag 3 }
  let s := s.when (f.flag 0 && s.get F.CLK_SRC_RCSEL == u) (·.correctTime u f.cycle stamp b)
  let s := f.tt.foldl (fun t e => t.ttEntry u false e) s
  let s := s.segmentRx u f
  match (s.uplink u).offer with
  | some o =>
    if o.cycleR = f.cycle then s.setUplink u { s.uplink u with offer := some { o with soF := some (stamp - s.dRxc u) } } else s
  | none => s

/-- A tag-valid frame, R261 to R263 and R315. -/
def frameKeyed (s : State) (u : Nat) (f : RxFrame) (b : Timebase) (stamp q : Nat) : State :=
  let x := s.uplink u
  let fresh := x.fresh
  let s := s.setUplink u { x with
    tagGood := true, seen := satAdd 8 x.seen 1, fresh := false, boarding := f.flag 3
    group := s.groupFor u f.cycle
    nextGroup := match x.nextGroup with | some (key, ksw) => if ksw ≤ f.cycle then none else some (key, ksw) | none => none }
  let s := s.count (F.TREE_CELL_RX_VALID u)
  let d := (f.watch + 65536 - s.get (F.TREE_CELL_STAT_W 0)) % 65536
  let other := s.rx.wFrom == some (1 - u)
  let s := if fresh && (!other || (decide (1 ≤ d) && decide (d ≤ 32767))) then
      { s.setWatch u f.watch with rx := { (s.setWatch u f.watch).rx with kSet := false } } else s
  let s := s.when (f.flag 0 && s.get F.CLK_SRC_RCSEL == u) (·.correctTime u f.cycle stamp b)
  let s := s.when (f.flag 0) (·.decide' u f b stamp q)
  let s := f.tt.foldl (fun t e => t.ttEntry u true e) s
  s.segmentRx u f

/-- One more ACTIVE frame of the IRC measurement in progress (R110). -/
def countIrcFrame (s : State) : State := { s with clk := { s.clk with ircFrames := min 64 (s.clk.ircFrames + 1) } }

/-- A cycle frame on uplink `u`, its start-of-frame timestamp and the instant at which its events are queued. -/
def frameRx (s : State) (u : Nat) (codeOk : Bool) (bs : List Byte) (stamp q : Nat) : State :=
  if !codeOk ∨ 1024 < bs.length then s.frameDrop u (F.TREE_CELL_ERR_CODE u)
  else match parseFrame bs with
    | none => s.frameDrop u (F.TREE_CELL_ERR_FORMAT u)
    | some f =>
      let x := s.uplink u
      let own := f.timebase
      let base := match own with
        | some b => if b.tbg = f.tbg then some b else x.bases.find? fun c => c.tbg == f.tbg
        | none => x.bases.find? fun c => c.tbg == f.tbg
      let portOk := x.group.isNone || x.port.isNone || x.port == some f.port
      match base with
      | none => s.frameDrop u (F.TREE_CELL_ERR_FORMAT u)
      | some b =>
        if !portOk then s.frameDrop u (F.TREE_CELL_ERR_FORMAT u)
        else if f.crc ≠ crcBytes (f.hdr ++ f.tag) then s.frameDrop u (F.TREE_CELL_ERR_CRC u)
        else if s.keyed u ∧ (s.frameSide u f).isNone then
          (s.frameDrop u (F.TREE_CELL_ERR_TAG u)).setUplink u { x with tagBad := true }
        else
          let s := s.when (s.keyed u) fun s => s.setUplink u { x with side := s.frameSide u f }
          let s := match own with
            | some t => s.keepBase u t
            | none => s
          let s := s.when (f.flag 0) countIrcFrame
          if s.keyed u then s.frameKeyed u f b stamp q else s.frameUnkeyed u f b stamp

end State

open State

/-- CYCLE_FRAME_RX. -/
def execCycleFrameRx (uplink : Nat) (codeOk : Bool) (frame : List Byte) (stamp queuedAt : Nat) (s : State) : Out :=
  act s (s.frameOn uplink) fun s => ((s.reach stamp).codeGroups uplink codeOk).frameRx uplink codeOk frame stamp queuedAt

/-- MGRANT. -/
def execMgrant (uplink berth slot round : Nat) (s : State) : Out :=
  act s (s.frameOn uplink) fun s => s.when (s.ownBerth uplink berth) (·.grantSlot uplink (slot % 8) (round % 256))

/-- RSLOT. -/
def execRslot (uplink berth slot round : Nat) (s : State) : Out :=
  act s (s.frameOn uplink && s.keyed uplink) fun s =>
    s.when (s.ownBerth uplink berth) (·.moveReport uplink (slot % 256) (round % 256))

/-- LASER_KILL. -/
def execLaserKill (uplink berth : Nat) (all : Bool) (s : State) : Out :=
  act s (s.frameOn uplink && s.keyed uplink) fun s => s.when (s.ownBerth uplink berth || all) (·.kill uplink)

/-- MGMT_RD_RECORD. -/
def execMgmtRdRecord (uplink berth tid addr words : Nat) (s : State) : Out :=
  act s (s.frameOn uplink && s.keyed uplink) fun s =>
    if 1 ≤ words ∧ words ≤ 5 then s.recRd uplink berth tid addr words else s.mqDrop uplink

/-- MGMT_WR_RECORD. -/
def execMgmtWrRecord (uplink berth tid : Nat) (presence sealMark : Bool) (addr : Nat) (words : List Word) (s : State) : Out :=
  act s (s.frameOn uplink && s.keyed uplink) fun s =>
    if 1 ≤ words.length ∧ words.length ≤ 16 then s.recWr uplink berth tid presence sealMark addr words else s.mqDrop uplink

/-- MGMT_MWR_RECORD. -/
def execMgmtMwrRecord (uplink berth tid : Nat) (presence sealMark : Bool) (addr : Nat) (mask data : Word) (s : State) : Out :=
  act s (s.frameOn uplink && s.keyed uplink) fun s => s.recMwr uplink berth tid presence sealMark addr mask data

/-- MGMT_WRP_RECORD. -/
def execMgmtWrpRecord (uplink : Nat) (presence sealMark : Bool) (addr : Nat) (words : List Word) (s : State) : Out :=
  act s (s.frameOn uplink && s.keyed uplink) fun s =>
    if 1 ≤ words.length ∧ words.length ≤ 16 then s.recWrp uplink presence sealMark addr words else s.mqDrop uplink

/-- KEY_RECORD. -/
def execKeyRecord (uplink berth tid : Nat) (body : List Byte) (s : State) : Out :=
  act s (s.frameOn uplink) fun s => if body.length = 32 then s.recKey uplink berth tid body else s.mqDrop uplink

/-- DELAY_RECORD. -/
def execDelayRecord (uplink berth tid down up : Nat) (s : State) : Out :=
  act s (s.frameOn uplink) fun s => s.recDelay uplink berth tid (down % 2 ^ 24) (up % 2 ^ 24)

/-- TBASE_RECORD. -/
def execTbaseRecord (uplink : Nat) (body : List Byte) (s : State) : Out :=
  act s (s.frameOn uplink) fun s => if body.length = 20 then s.keepBase uplink (timebaseOf body) else s.mqDrop uplink

/-- BEACON_RECORD. -/
def execBeaconRecord (uplink : Nat) (body : List Byte) (s : State) : Out :=
  act s (s.frameOn uplink) fun s => if body.length = 24 then s.recBeacon uplink body else s.mqDrop uplink

/-- OFFER_RECORD. -/
def execOfferRecord (uplink : Nat) (body : List Byte) (s : State) : Out :=
  act s (s.frameOn uplink) fun s => if body.length = 24 then s.recOffer uplink none body else s.mqDrop uplink

/-- KXH_RECORD. -/
def execKxhRecord (uplink berth tid : Nat) (body : List Byte) (s : State) : Out :=
  act s (s.frameOn uplink) fun s => if body.length = 204 then s.recKxh uplink berth tid body else s.mqDrop uplink

/-- REFUSE_RECORD. -/
def execRefuseRecord (uplink : Nat) (body : List Byte) (s : State) : Out :=
  act s (s.frameOn uplink) fun s => if body.length = 12 then s.recRefuse uplink body else s.mqDrop uplink

/-- RESTORE_RECORD. -/
def execRestoreRecord (uplink : Nat) (body : List Byte) (s : State) : Out :=
  act s (s.frameOn uplink && s.keyed uplink) fun s => if body.length = 32 then s.recRelight uplink body else s.mqDrop uplink

end Sys2Proof.Machine
end

