-- ==== Sys2Proof/Machine/CellTx.lean ====
section
/-! DEFINITION. A cell's own meridian and what it sends: holds, report payloads, report, management, boarding and ranging
bursts (R268 to R270, R275 to R284, R288, R289, R301 to R304, R309, R313, R318). -/

namespace Sys2Proof.Machine

namespace State

/-! The cell's meridians, R268 to R270. -/

/-- A lost cycle before meridian `k`: hold begins unless it runs (R269). -/
def cycleLost (s : State) (k : Nat) : State :=
  let s := (s.bump ⟨R.TREE_CELL_LOST 0, 0, 32⟩).evFlag 6
  s.when (s.rxState == 1) fun s =>
    let s := ((s.set (F.TREE_CELL_STAT_STATE 0) 2).holdBegins).event (Pg.TREE 0) 12
    s.bbWrite 0x23 0 [k % 2 ^ 32, (s.reg (R.TREE_CELL_K_LO 0)).toNat]

/-- The references of the newest target that meridian `k` has reached (R358). -/
def refsReach (s : State) (k : Nat) : State :=
  let got := s.cmod.refs.filter fun (r : Nat × List Word) => decide (r.1 ≤ k)
  match got.reverse.find? fun (r : Nat × List Word) => got.all fun (x : Nat × List Word) => decide (x.1 ≤ r.1) with
  | some r =>
    let rest := s.cmod.refs.filter fun (x : Nat × List Word) => decide (k < x.1)
    { s with cmod := { s.cmod with ref := r.2, refs := rest } }
  | none => s

/-- The cell's meridian `k`: the commits, which go before any work of the cycle (R72), an epoch first obeyed too late, the
references, the bitmap, the pages that resume. -/
def cellCycle (s : State) (k : Nat) : State :=
  let t := (s.meridianAt k).toNat
  let s := (((s.reach t).carrierDue t).setCycle k).applyCommits k
  let s := if s.rx.obeyedK.contains (k - 1) then s else s.cycleLost k
  let s := { s with rx := { s.rx with obeyedK := s.rx.obeyedK.filter fun (j : Nat) => decide (k ≤ j) } }
  let s := match s.cmod.next with
    | some (e, _) => if e ≤ k then s.epochApply k t (decide (e < k)) else s
    | none => s
  ((s.refsReach k).bitmapCheck k t).holdsRelease

/-- Does the cell's meridian come next: from the first obeyed frame to HOLD_LIMIT? -/
def cellMeridians (s : State) : Bool := s.alive && s.isCell && s.meridiansOn && s.rx.obeying && s.time.lastK.isSome

/-- HLIM in units of network time. -/
def holdTime (s : State) : Nat := min 500 (max 5 (s.get (F.TREE_CELL_CTL_HLIM 0))) * nsUnits 10000

/-- HOLD_LIMIT, R270. -/
def limitReached (s : State) : State :=
  let s := (s.reach (s.rx.obeyedAt + s.holdTime : Nat)).cellBlockNow
  let s := (((s.holdBegins).set (F.TREE_CELL_STAT_STATE 0) 3).event (Pg.TREE 0) 13).evFlag 8
  let s := (s.bbWrite 0x23 1 [s.cycle % 2 ^ 32, (s.reg (R.TREE_CELL_K_LO 0)).toNat]).bbFreeze 3
  (({ s with rx := { s.rx with obeying := false } }).set F.TIME_MER_RUN 0).resumeHeld

/-! The report payload, R282 to R284 and R496. -/

/-- A number of the report between limits, as `n` bytes. -/
def repBytes (n : Nat) (x lo hi : Int) : List Byte := beBytes n ((max lo (min hi x)) % (2 ^ (8 * n) : Nat)).toNat

/-- An M2 mean in degrees Celsius; a free value before its window has closed. -/
def degrees (s : State) (c : Nat) : Int × State :=
  if (s.win c).closed then s.rounded (s.win c).mean64 else
    let (v, s) := s.free
    ((v : Int), s)

/-- Was the cell in hold at any time of the window of M0? -/
def heldInWindow (s : State) : Bool :=
  let w := s.win 0
  if w.closed then
    s.rx.holds.any fun (h : Nat × Option Nat) =>
      decide (h.1 < w.stop * gridUnit) && (match h.2 with | some e => decide (w.start * gridUnit < e) | none => true)
  else s.rxState == 2 || s.rxState == 3

/-- STATE of R283. -/
def reportState (s : State) : Nat :=
  if s.gate.pbyp then 2 else if s.gate.latch ≠ 0 then 3 else if s.safe.db then 1 else 0

/-- STATUS of R283 with MREQ clear. -/
def statusWord (s : State) : Nat :=
  let boot := if s.phase = .running then 0 else if s.boot.treeWhy = 0 then 1 else 2
  s.reportState + s.adc.cmdEnd.code * 4 + b2n s.full * 16 + b2n s.heldInWindow * 32 + b2n s.inHoldover * 64
    + b2n (s.gpioLevel 3) * 256 + b2n (s.phase == .rom && s.boot.treeBoot && s.boot.treeWhy == 0) * 512
    + boot * 1024 + (if boot = 2 then s.boot.treeWhy % 16 else 0) * 4096

/-- Bytes 0 to 15: the window of M0 and M1; all zero but WSTART when either holds no value. -/
def windowBytes (s : State) : List Byte × State :=
  let v := s.win 0
  let i := s.win 1
  let t := v.start * 4
  let wstart := beBytes 4 ((t / 1000000000 % 4) * 2 ^ 30 + t % 1000000000)
  if v.count = 0 ∨ i.count = 0 ∨ !v.closed ∨ !i.closed then
    (List.replicate 10 (0 : Byte) ++ wstart ++ [0, 0], s)
  else
    let milli (s : State) (x : DWord) : Int × State := s.rounded (dMul x (dInt 1000))
    let (mean, s) := milli s v.mean64
    let (lo, s) := milli s (dSub v.mean64 (sToD v.min))
    let (hi, s) := milli s (dSub (sToD v.max) v.mean64)
    let (cur, s) := milli s i.mean64
    (repBytes 3 mean 0 16777215 ++ repBytes 2 lo 0 65535 ++ repBytes 2 hi 0 65535 ++ repBytes 3 cur (-8388607) 8388607
      ++ wstart ++ beBytes 2 (v.stop - v.start), s)

/-- Bytes 18 and 19: TJ and THS. -/
def tempBytes (s : State) : List Byte × State :=
  let (tj, s) := s.degrees 8
  if s.active F.ACC_CTL_AUXT = 1 then
    let (th, s) := s.degrees 3
    (repBytes 1 tj (-127) 127 ++ repBytes 1 th (-127) 127, s)
  else (repBytes 1 tj (-127) 127 ++ [0x80], s)

/-- The payload is built; FSA, FSB and EVFLAGS restart, each uplink takes its MREQ, and the black box takes every RDEC-th. -/
def buildPayload (s : State) : State :=
  let (w, s) := s.windowBytes
  let (t, s) := s.tempBytes
  let seen (u : Nat) : Nat := (s.uplink u).seen
  let payload := w ++ beBytes 2 s.statusWord ++ t ++ beBytes 2 s.gate.flags ++ beBytes 1 (seen 0) ++ beBytes 1 (seen 1)
  let up := s.rx.up.map fun (x : UplinkSt) => { x with seen := 0, mreq := !x.resps.isEmpty || !x.chunks.isEmpty }
  let s := { s with rx := { s.rx with payload := payload, up := up }, gate := { s.gate with flags := 0 } }
  let n : Nat := s.bb.built + 1
  if max 1 (s.get F.REC_BB_RDEC) ≤ n then
    ({ s with bb := { s.bb with built := 0 } }).bbWrite 0x11 0 ((pieces 4 6 payload).map ofLe)
  else { s with bb := { s.bb with built := n } }

/-- The next instant, after now, of a sequence of instants by rounds from `n` on. -/
def nextBy (f : Nat → Option Nat) (now : Nat) : (fuel n : Nat) → Option (Nat × Nat)
  | 0, _ => none
  | k + 1, n => match f n with
    | some t => if now < t then some (n, t) else nextBy f now k (n + 1)
    | none => nextBy f now k (n + 1)

/-- The round from which an uplink's launches are sought. -/
def roundFrom (s : State) : Nat := min (s.roundNow 0) (s.roundNow 1)

/-! Bursts, R275 to R281. -/

/-- The session key of uplink `u` for cycle `k` (R186). -/
def sessionFor (s : State) (u k : Nat) : Option Key :=
  let x := s.uplink u
  match x.nextSession with
  | some (key, ksw) => if ksw ≤ k then some key else x.session
  | none => x.session

/-- Is the laser of uplink `u` allowed: the lane active and not killed (R216, R279)? -/
def laserOn (s : State) (u : Nat) : Bool := s.laneSends u && !s.is (F.TREE_CELL_SLOT_KILLED u)

/-- The 40 bytes of a burst after its sync word (R280): header, payload, tag, CRC; the tag is a digest tag without a key
(R303), else the session tag of R184. -/
def burstBytes (s : State) (u berth type k : Nat) (key : Option Key) (payload : List Byte) : List Byte :=
  let body := [BitVec.ofNat 8 berth, BitVec.ofNat 8 type] ++ beBytes 2 k ++ payload
  let x := s.uplink u
  let tag := match key with
    | none => digestTag body
    | some key => gmac key (tagIv (type + 1) x.hub (x.side.getD u) (x.port.getD 0) berth k) body
  body ++ tag ++ crcBytes (body ++ tag)

/-- A burst leaves uplink `u` now: TXEN stands from one code group before its preamble until one after its CRC (R276, R280). -/
def sendBurst (s : State) (u : Nat) (bs : List Byte) : State :=
  let r := s.rate u
  s.setUplink u { s.uplink u with burst := bs, txen := (s.now - groupAt r 0 1, s.now + groupAt r 0 49) }

/-- The renewed session key takes the place of the old one from its switch cycle on. -/
def sessionStep (s : State) (u k : Nat) : State :=
  let x := s.uplink u
  match x.nextSession with
  | some (key, ksw) => if ksw ≤ k then s.setUplink u { x with session := some key, nextSession := none } else s
  | none => s

/-- The report of round `n` on uplink `u`, whose slot instant falls in cycle `k`. -/
def sendReport (s : State) (u k : Nat) : State :=
  let s := s.sessionStep u k
  let x := s.uplink u
  let pl := s.rx.payload
  let pl := pl.take 17 ++ [BitVec.ofNat 8 ((nth pl 17 0).toNat ||| b2n x.mreq * 128)] ++ pl.drop 18
  s.sendBurst u (s.burstBytes u (x.berth.getD 0) 1 k x.session pl)

/-! Management bursts, R277, R288, R289 and R313. -/

/-- The response or chunk sent next on uplink `u`: its payload, whether it goes under a digest tag, and the uplink without
it. -/
def nextResponse (x : UplinkSt) : Option (List Byte × Bool × UplinkSt) :=
  let unkeyed := x.group.isNone
  match x.resps with
  | r :: rest =>
    let pl := [BitVec.ofNat 8 (r.rtype % 128 + 128), BitVec.ofNat 8 r.tid, BitVec.ofNat 8 r.code, BitVec.ofNat 8 r.index]
    some (pl ++ (r.data ++ List.replicate 20 (0 : Byte)).take 20, r.digest || unkeyed, { x with resps := rest })
  | [] =>
    if x.chunks = [] then none
    else
      let j := x.chunkNo
      let pl := [(0xC2 : Byte), BitVec.ofNat 8 x.chunkTid, 0, BitVec.ofNat 8 j]
      let data := (x.chunks ++ List.replicate 8 (0 : Byte)).drop (20 * j)
      let x' := if 9 ≤ j then { x with chunks := [], chunkNo := 0 } else { x with chunkNo := j + 1 }
      some (pl ++ data.take 20, unkeyed, x')

/-- A burst in granted slot `m` of round `n`: none without a response; the later of two grants in one cycle stays dark,
whatever the first one carried (R277). -/
def sendManagement (s : State) (u m n : Nat) : State :=
  let k := (s.cycleAt (slotAt (s.rate u) n (mgmtIdx m))).toNat
  let s := s.sessionStep u k
  let x := s.uplink u
  let x := { x with grants := x.grants.filter fun (g : Nat × Nat) => g != (m, n) }
  let second := x.sentCyc = k + 1
  let x := { x with sentCyc := k + 1 }
  let s := s.setUplink u x
  if second ∨ !s.laserOn u then s
  else match nextResponse x with
    | none => s
    | some (pl, digest, x) =>
      let s := (s.setUplink u x).admissionGoesOn u
      let s := s.count (F.TREE_CELL_SLOT_GRANTS u)
      s.sendBurst u (s.burstBytes u (x.berth.getD 0) 2 k (if digest then none else x.session) pl)

/-- The grant of uplink `u` that launches next, with its launch instant. -/
def nextGrant (s : State) (u : Nat) : Option (Nat × Nat × Nat) :=
  (((s.uplink u).grants.map fun (g : Nat × Nat) =>
    (g.1, g.2, slotAt (s.rate u) g.2 (mgmtIdx g.1) - s.dUp u)).find? fun (g : Nat × Nat × Nat) => decide (s.now < g.2.2))

/-! Boarding and ranging, R302 to R304 and R309. -/

/-- Has uplink `u` its turn: a cell that boots from the tree seeks admission first on the uplink that RCSEL names (R138)? -/
def turnOf (s : State) (u : Nat) : Bool :=
  let r := s.get F.CLK_SRC_RCSEL
  let x := s.uplink r
  !(s.phase == .rom && s.boot.treeBoot) || r == u || x.group.isSome || x.attempt != 0 || x.waitRounds.isSome || x.stopped

/-- May uplink `u` board: no key, a BEACON while BOARDING is set, not refused, no offer taken, no burst or backoff running
(R302, R304, R317)? -/
def mayBoard (s : State) (u : Nat) : Bool :=
  let x := s.uplink u
  s.pathOn u && x.group.isNone && x.boarding && x.beacon && !x.stopped && x.offer.isNone && x.backoff == 0
    && x.waitRounds.isNone && s.laserOn u && s.turnOf u

/-- The launch of a boarding burst in round `n`, an even one: zone start + floor((ZLEN - 53) / 2) code groups - RTT_NOM. -/
def boardingLaunch (s : State) (u n : Nat) : Option Nat :=
  let x := s.uplink u
  if n % 2 = 0 then
    some (groupAt (s.rate u) n (53 * zoneFirst x.zone + (zoneGroups x.zone - 53) / 2) - x.rttNom * unitsPer64)
  else none

/-- A boarding burst (R303). -/
def sendBoarding (s : State) (u n : Nat) : State :=
  let (v, s) := s.free
  let x := s.uplink u
  let rom := s.phase != .running
  let pl := idBytes s.devId ++ idBytes (if rom then 0 else s.boot.imageId) ++ beBytes 2 s.linkVer
    ++ [BitVec.ofNat 8 (b2n s.full + 2 * b2n rom + 4 * u), BitVec.ofNat 8 (min 255 x.attempt)] ++ beBytes 4 v
  let k := (s.cycleAt (slotAt (s.rate u) n (zoneFirst x.zone))).toNat
  (s.setUplink u { x with waitRounds := some 0 }).sendBurst u (s.burstBytes u 0 3 k none pl)

/-- Has the cell waited long enough on uplink `u`: two rounds after a boarding burst without an OFFER (R304), four rounds
without news of the admission in progress (log 129)? -/
def waitOver (x : UplinkSt) : Bool :=
  match x.waitRounds with
  | some w => decide ((if x.offer.isSome then 5 else 3) ≤ w)
  | none => false

/-- The ranging burst of an offer whose frame K_R came, launched at `t`; its slot instant is the start of the zone (R281, R308,
R309). -/
def sendRanging (s : State) (u : Nat) (o : Offer) (t : Nat) : State :=
  let pl := idBytes s.devId ++ beBytes 4 o.cycleR ++ List.replicate 12 (0 : Byte)
  let r := s.rate u
  let k := (s.cycleAt (slotAt r (roundAt r t) (zoneFirst (s.uplink u).zone))).toNat
  (s.setUplink u { s.uplink u with offer := some { o with soF := none }, waitRounds := some 0 }).sendBurst u (s.burstBytes u o.berth 4 k none pl)

/-- Keys, slot timer and delays of uplink `u` are discarded (R318). -/
def rejoin (s : State) (u : Nat) : State :=
  let x := s.uplink u
  let s := s.setReg (R.TREE_CELL_SLOT u) 0
  let s := (s.set (F.TREE_CELL_DN_DLY u) 0).set (F.TREE_CELL_UP_DLY u) 0
  s.setUplink u {
    bases := x.bases, beacon := x.beacon, rttNom := x.rttNom, zone := x.zone, bexp := x.bexp, boarding := x.boarding
    stopped := x.stopped, round := x.round, seen := x.seen, hub := x.hub, burst := x.burst, txen := x.txen }

end State

open State

/-- CELL_MERIDIAN. -/
def execCellMeridian (s : State) : Out := act s s.cellMeridians fun s => s.cellCycle s.nextK

/-- HOLD_LIMIT. -/
def execHoldLimit (s : State) : Out := act s (s.alive && s.isCell && s.rx.obeying) limitReached

/-- PAYLOAD_BUILD. -/
def execPayloadBuild (s : State) : Out :=
  match nextBy s.payloadAt s.now 4 s.roundFrom with
  | some (_, t) => act s (s.pathOn 0 || s.pathOn 1) fun s => ((s.reach t).carrierDue t).buildPayload
  | none => .next s

/-- REPORT_BURST_TX. -/
def execReportBurstTx (uplink : Nat) (s : State) : Out :=
  match nextBy (s.reportLaunch uplink) s.now 4 (s.roundNow uplink) with
  | some (n, t) =>
    act s (s.pathOn uplink && s.laserOn uplink && (s.uplink uplink).session.isSome && s.rx.payload.length == 24) fun s =>
      match s.slotOf uplink n with
      | some r => ((s.reach t).carrierDue t).sendReport uplink (s.cycleAt (slotAt (s.rate uplink) n (reportIdx r))).toNat
      | none => s
  | none => .next s

/-- MGMT_BURST_TX. -/
def execMgmtBurstTx (uplink : Nat) (s : State) : Out :=
  match s.nextGrant uplink with
  | some (m, n, t) => act s (s.pathOn uplink) fun s => ((s.reach t).carrierDue t).sendManagement uplink m n
  | none => .next s

/-- BOARDING_BURST_TX. -/
def execBoardingBurstTx (uplink : Nat) (s : State) : Out :=
  match nextBy (s.boardingLaunch uplink) s.now 4 (s.roundNow uplink) with
  | some (n, t) => act s (s.mayBoard uplink) fun s => ((s.reach t).carrierDue t).sendBoarding uplink n
  | none => .next s

/-- BOARDING_BACKOFF. -/
def execBoardingBackoff (uplink : Nat) (s : State) : Out :=
  act s (s.pathOn uplink && !s.keyed uplink && waitOver (s.uplink uplink)) fun s => s.attemptFailed uplink

/-- RANGING_BURST_TX. -/
def execRangingBurstTx (uplink : Nat) (s : State) : Out :=
  match (s.uplink uplink).offer with
  | some o =>
    match o.soF with
    | some f =>
      let t := f + o.turn * unitsPer64
      act s (s.pathOn uplink && s.laserOn uplink && (s.uplink uplink).boarding) fun s =>
        ((s.reach t).carrierDue t).sendRanging uplink o t
    | none => .next s
  | none => .next s

/-- REJOIN_TRIGGER. -/
def execRejoinTrigger (uplink : Nat) (s : State) : Out :=
  act s (s.pathOn uplink && s.keyed uplink && decide (2 ≤ (s.uplink uplink).badRounds)) fun s => s.rejoin uplink

end Sys2Proof.Machine
end

