-- ==== Sys2Proof/Machine/Cycle.lean ====
section
/-! DEFINITION. The meridian of a hub (R226 to R229, R336): launches, snapshot, commits, the mirror, the work of the cycle;
and the tick that passes while no command waits. -/

namespace Sys2Proof.Machine

namespace State

/-- GPIO5 rises at every N-th meridian (R240). -/
def markCycle (s : State) (k : Nat) : State :=
  s.when (s.get (F.GPIO_FN_FN 5) == 0 && !s.outputsOff && k % max 1 (s.get F.TIME_MARK_N) == 0) fun s =>
    { s with time := { s.time with mark := true } }

/-- REACTB: the first frame with BLOCK_REQ after an ALATCH source has been launched (R524). -/
def reactB (s : State) : State :=
  match s.safe.latchAt with
  | some t =>
    if s.safe.breq && s.ports.any fun q => q.launched != [] then
      let ns := (s.now + s.dTx 0 - t) / unitsPerNs
      let s := s.set F.SAFE_HREACT_B (min 65535 (ns / 10))
      { s with safe := { s.safe with latchAt := none } }.monitorSel 10 1 ns
    else s
  | none => s

/-- Berths whose pairing has become listed leave RESTRICTED service (R149, R517). -/
def unrestrict (s : State) : State :=
  (s.berthsWith fun _ b => (b.link == .admitted || b.link == .silent) && b.restricted && !b.romb && s.listed b.imgid 1).foldl (fun t i =>
    (t.setBerth i { t.berth i with restricted := false }).autoDeblock i) s

/-- The snapshot of meridian `k` at time `t` (R336, R658), with what the observer's estimates give of each arm. -/
def takeSnapshot (s : State) (k t : Nat) : State :=
  let s := s.when s.stnOn (·.spActivate t)
  let s := s.fuse t
  let (theta, w, ok, s) := s.stationAngle t
  s.latchSnap {
    k := k, time := t, theta := theta, freq := w, angv := ok, fus := s.rank.fus, words := s.stn.active.map (·.words)
    vavg := [s.reg (R.RANK_ARM_VAVG 0), s.reg (R.RANK_ARM_VAVG 1)], esum := [dToS (s.armEnergy 0), dToS (s.armEnergy 1)] }

/-- The twin frames of the cycle that begins, and one cycle more without a STATUS of the twin. -/
def twinCycle (s : State) : State :=
  let m := if s.is F.SYS_TOPO_TWIN then s.twin.missing + 1 else 0
  { s with twin := { s.twin with frames := [], missing := m } }

/-- The meridian `k` of a hub. -/
def hubCycle (s : State) (k : Nat) : State :=
  let t := (s.meridianAt k).toNat
  let s := (((s.reach t).twinCycle.launchAll k).setCycle k).reactB.slackEnd
  let s := ((s.markCycle k).modeMeridian k).takeSnapshot k t
  let s := (s.applyCommits k).holdsRelease.unrestrict
  let s := s.when s.twinOn fun s => (s.mirrorGeometry.mirrorApply.sendStatus k).sliceSend
  s.startWork

/-- One tick of TCLK with no command waiting: time advances (R221); a lane under pattern test sends its next word; a cell's carrier makes the edge it has placed (R357). -/
def idle (s : State) : State :=
  let s := s.tick
  let s := s.when s.alive (forUpTo (fun n t => t.prbsSend n) 8)
  (s.when s.carrierOn fun s => s.carrierDue s.now).settle

end State

open State

/-- MERIDIAN. At a cell it is the cell's own next meridian (log 17). -/
def execMeridian (s : State) : Out :=
  if s.isHub then act s (s.alive && s.meridiansOn) fun s => s.hubCycle s.nextK
  else act s s.cellMeridians fun s => s.cellCycle s.nextK

end Sys2Proof.Machine
end

