-- ==== Sys2Proof/Machine/HostPort.lean ====
section
/-! DEFINITION. The host port of a hub or referee (R44 to R47, R83 to R90): its transactions, their responses, and the
release of the bus. -/

namespace Sys2Proof.Machine

/-- Opcodes of R84. -/
def Op.rd : Byte := 0x5A
def Op.wr : Byte := 0xA5
def Op.mwr : Byte := 0x3C
def Op.stat : Byte := 0xC3

namespace State

/-- Does the host slave run? -/
def hostOn (s : State) : Bool := s.pathOpen .host && s.runs Pg.HOST

/-- A response (R85): the header with the release request that waits, which is told with it, the data and the CRC-16. -/
def respondHost (s : State) (code index : Nat) (data : List Word) : State :=
  let rel := s.host.relWait
  let bs := [BitVec.ofNat 8 code, BitVec.ofNat 8 index] ++ beBytes 2 rel ++ data.flatMap fun w => beBytes 4 w.toNat
  let h := s.host
  { s with
    resp := ⟨code, data⟩
    host := { h with
      relWait := 0, relTold := if rel = 0 then h.relTold else rel
      response := bs ++ beBytes 2 (crc16 bs) } }

/-- A command whose CRC is wrong does nothing and is answered CRC at the next STAT (R86). -/
def hostCrc (s : State) : State :=
  let s := s.bump F.HOST_CNT_CRCFAIL
  { s with host := { s.host with crcBad := true, response := [] } }

/-- A transaction of command bytes `cmd` with its CRC: BUSY while an earlier one is PENDING, otherwise executed by `f`,
whose result is reported now or, not ready, at a STAT (R86, R87). A result stays PENDING until a STAT finds it ready: the
spec does not say when else it stops being so (DESIGN CHOICE, log 115). -/
def hostTrans (s : State) (cmd : List Byte) (crc : Nat) (ready : Bool) (f : State → Nat × Nat × List Word × State) : State :=
  if crc16 cmd ≠ crc % 65536 then s.hostCrc
  else if s.host.pendCode.isSome then s.respondHost Code.busy 0 []
  else
    let (code, index, data, s) := f s
    let s := s.count F.HOST_CNT_SERVED
    if ready then
      let s := { s with host := { s.host with lastCode := code, lastIndex := index, lastData := data } }
      s.respondHost code index data
    else
      let s := { s with host := { s.host with pendCode := some code, pendIndex := index, pendData := data } }
      s.respondHost Code.pending 0 []

/-- STAT: a CRC failure is told first; then the report on the last RD, WR or MWR, whose words are answered once it is OK, and
which stays PENDING while it is not ready (R84, R86, R87). -/
def hostStatus (s : State) (ready : Bool) : State :=
  let h := s.host
  if h.crcBad then { s with host := { h with crcBad := false } }.respondHost Code.crc 0 []
  else match h.pendCode with
  | some code =>
    if ready then
      let s := { s with host := { h with
        pendCode := none, lastCode := code, lastIndex := h.pendIndex, lastData := h.pendData } }
      s.respondHost code h.pendIndex (if code = Code.ok then h.pendData else [])
    else s.respondHost Code.pending 0 []
  | none => s.respondHost h.lastCode h.lastIndex (if h.lastCode = Code.ok then h.lastData else [])

end State

open State

/-- HOST_BUS_RELEASED: the terminals are inputs and the host slave starts. -/
def execHostBusReleased (s : State) : Out :=
  act s (s.alive && !s.isCell && s.host.bus == .handingOver) fun s => { s with host := { s.host with bus := .host } }

/-- HOST_RD: COUNT + 1 words. -/
def execHostRd (addr count crc : Nat) (ready : Bool) (s : State) : Out :=
  act s s.hostOn fun s =>
    s.hostTrans ([Op.rd] ++ beBytes 2 addr ++ beBytes 1 count) crc ready fun s =>
      let (c, i, ws, s) := s.burstRead .host (addr % 65536) (count % 256 + 1)
      (c, i, ws, s)

/-- HOST_WR: its COUNT is one less than the number of words. -/
def execHostWr (addr : Nat) (words : List Word) (crc : Nat) (ready : Bool) (s : State) : Out :=
  act s (s.hostOn && words != []) fun s =>
    s.hostTrans ([Op.wr] ++ beBytes 2 addr ++ beBytes 1 (words.length - 1) ++ words.flatMap fun w => beBytes 4 w.toNat)
      crc ready fun s =>
      let (c, i, s) := s.burstWrite .host (addr % 65536) words
      (c, i, [], s)

/-- HOST_MWR. -/
def execHostMwr (addr : Nat) (mask data : Word) (crc : Nat) (ready : Bool) (s : State) : Out :=
  act s s.hostOn fun s =>
    s.hostTrans ([Op.mwr] ++ beBytes 2 addr ++ beBytes 4 mask.toNat ++ beBytes 4 data.toNat) crc ready fun s =>
      let (c, s) := s.masked .host (addr % 65536) mask data
      (c, 0, [], s)

/-- HOST_STAT. -/
def execHostStat (crc : Nat) (ready : Bool) (s : State) : Out :=
  act s s.hostOn fun s => if crc16 [Op.stat] ≠ crc % 65536 then s.hostCrc else s.hostStatus ready

/-- BUS_RECLAIM: after a response that told the request, QSPI_CS_N stayed high for 1 us and the part takes the bus; where
it fell, the same request is told again (R46). -/
def execBusReclaim (csStayedHigh : Bool) (s : State) : Out :=
  act s (s.hostOn && s.host.relTold != 0) fun s =>
    let h := s.host
    if csStayedHigh then { s with host := { h with bus := .reclaimed, relTold := 0 } }
    else { s with host := { h with relWait := h.relTold, relTold := 0 } }

/-- BUS_RETURN: the flash is powered down and the terminals are released; PEND clears. -/
def execBusReturn (s : State) : Out :=
  act s (s.alive && s.host.bus == .reclaimed) fun s =>
    { s.set F.HOST_REL_PEND 0 with host := { s.host with bus := .host } }

end Sys2Proof.Machine
end

