-- ==== Sys2Proof/Machine/Requests.lean ====
section
/-! DEFINITION. Management requests of the station (R659, R660): a request frame's records executed here or sent to cells,
and the response once every record is answered. -/

namespace Sys2Proof.Machine

/-- Data words that follow the header of a record: NW of a WR or WRP, mask and data of an MWR. -/
def reqWords (op nw : Nat) : Nat :=
  match op % 8 with
  | 2 | 4 => nw
  | 3 => 2
  | _ => 0

/-- The records of a request body, if it holds nothing else. -/
def parseReq : (fuel : Nat) → List Byte → Option (List StnRec)
  | _, [] => some []
  | 0, _ => none
  | k + 1, bs =>
    let num (i n : Nat) : Nat := ofBe ((bs.drop i).take n)
    let op := num 2 1
    let nw := num 3 1 + 1
    let n := reqWords op nw
    if bs.length < 8 + 4 * n then none
    else
      let words := (List.range n).map fun i => BitVec.ofNat 32 (num (8 + 4 * i) 4)
      let r : StnRec := { tid := num 0 2, op := op, nw := nw, node := num 4 2, addr := num 6 2, words := words }
      (parseReq k (bs.drop (8 + 4 * n))).map (r :: ·)

/-- The records of a request: 1 to 8. -/
def requestOf (b : List Byte) : Option (List StnRec) :=
  match parseReq 8 b with
  | some (r :: l) => some (r :: l)
  | _ => none

/-- Does a record name a cell (OP [7])? -/
def StnRec.cell (r : StnRec) : Bool := bitOf r.op 7

/-- Are OP and NW valid: NW 1 to 64 here, the limits of R286 for a cell? -/
def StnRec.valid (r : StnRec) : Bool :=
  match r.op % 8 with
  | 1 => decide (r.nw ≤ if r.cell then 5 else 64)
  | 2 | 4 => decide (r.nw ≤ if r.cell then 16 else 64)
  | 3 => true
  | _ => false

namespace State

/-- A record executed on the station's path: code, INDEX, data. -/
def localRec (s : State) (r : StnRec) : (Nat × Nat × List Byte) × State :=
  match r.op % 8 with
  | 1 =>
    let (c, i, ws, s) := s.burstRead .station r.addr r.nw
    ((c, i, ws.flatMap fun w => beBytes 4 w.toNat), s)
  | 3 =>
    let (c, s) := s.masked .station r.addr (nth r.words 0 0) (nth r.words 1 0)
    ((c, 0, []), s)
  | _ =>
    let (c, i, s) := s.burstWrite .station r.addr r.words
    ((c, i, []), s)

/-- Record `n` of request `q` gets its answer. -/
def recAnswer (s : State) (q n : Nat) (a : Nat × Nat × List Byte) : State :=
  match kvFind s.stn.reqs q with
  | some x =>
    let recs := x.recs.modify n fun (y : StnRec) => { y with ans := some a }
    { s with stn := { s.stn with reqs := kvSet s.stn.reqs q { x with recs := recs } } }
  | none => s

/-- Record `n` of request `q`: executed here, refused, or queued through scheduler queue 4 with FLOW = NODE. -/
def startRec (s : State) (q n : Nat) (r : StnRec) : State :=
  if !r.valid then s.recAnswer q n (Code.crc, 0, [])
  else if !r.cell then
    let (a, s) := s.localRec r
    s.recAnswer q n a
  else if r.node / 1024 ≠ s.hubNo then s.recAnswer q n (Code.absent, 0, [])
  else if !s.hubDrives ∨ (r.op % 8 ≠ 4 ∧ !held (s.berth (r.node % 1024))) then s.recAnswer q n (Code.remote, 0, [])
  else s.arrive 4 r.node (8 * q + n)

/-- A request frame that has passed the checks of R655: dropped while the remote transaction engine holds an item (R660),
otherwise its records are executed in order. -/
def takeRequest (s : State) (src : Nat) (recs : List StnRec) : State :=
  if s.sch.held.any fun h => h.1 == 4 then s.bump F.STN_FCNT2_MGDROP
  else
    let q := s.stn.nextReq
    let s := s.count F.STN_FCNT2_MG
    let s := { s with stn := { s.stn with
      nextReq := (q + 1) % 2 ^ 28, reqs := kvSet s.stn.reqs q { src := src, recs := recs } } }
    recs.zipIdx.foldl (fun t (x : StnRec × Nat) => t.startRec q x.2 x.1) s

/-- A record of the response. -/
def respRec (r : StnRec) : List Byte :=
  let a := r.ans.getD (0, 0, [])
  beBytes 2 r.tid ++ [BitVec.ofNat 8 (r.op % 128 + 128), BitVec.ofNat 8 a.1, BitVec.ofNat 8 a.2.1, 0] ++ a.2.2

end State

open State

/-- MGMT_REQUEST_RX. -/
def execMgmtRequestRx (frame : EthRx) (s : State) : Out :=
  act s (s.stnOn && s.isHub && s.stnKind frame == .mgmt) fun s =>
    s.stnRx frame fun s =>
      let b := innerBody frame
      let r := requestOf (etolwickBody b)
      s.checked b r.isSome fun s => s.takeRequest frame.src (r.getD [])

/-- MGMT_RESPONSE_TX: once every record of the request is answered. -/
def execMgmtResponseTx (req : Nat) (s : State) : Out :=
  match kvFind s.stn.reqs req with
  | some x =>
    act s (s.stnOn && x.recs.all fun r => r.ans.isSome) fun s =>
      let s := s.freshSent.sendEtolwick x.src 3 (x.recs.flatMap respRec)
      { s with stn := { s.stn with reqs := kvErase s.stn.reqs req } }
  | none => .next s

end Sys2Proof.Machine
end

