-- ==== Sys2Proof/Machine/Rows.lean ====
section
/-! DEFINITION. The register accesses that have a row of their own. Each is an access of its path (R77, R81, R82) with the
word that starts its command; where a row names fields alone, the other fields are written as they read. -/

namespace Sys2Proof.Machine

open State

/-- The command of a path whose word carries operands: `bits` of the word are set by the command itself. -/
def goRow (s : State) (path : Path) (addr : Nat) (data bits : Word) : Out := writeRow s path addr (data ||| bits)

/-! Any register. -/

/-- REGISTER_WRITE: `bytes` bytes at `addr` (R77). -/
def execRegisterWrite (path : Path) (bytes addr : Nat) (data : Word) (s : State) : Out :=
  act s (s.pathOpen path) fun s => s.writeCmd path bytes addr data

/-- MASKED_WRITE (R82). -/
def execMaskedWrite (path : Path) (addr : Nat) (mask data : Word) (s : State) : Out :=
  act s (s.pathOpen path) fun s => s.maskedCmd path addr mask data

/-! The page header. -/

/-- PG_COMMIT_REQUEST (R72). -/
def execPgCommitRequest (path : Path) (page : Nat) (s : State) : Out := writeRow s path (R.PG_COMMIT page) 1

/-- PAGE_SRST (R69). -/
def execPageSrst (path : Path) (page : Nat) (s : State) : Out := fieldRow s path (F.PG_CTRL_SRST page) 1

/-- PAGE_HOLD (R70). -/
def execPageHold (path : Path) (page : Nat) (on : Bool) (s : State) : Out := fieldRow s path (F.PG_CTRL_HOLD page) (b2n on)

/-- PAGE_HELD: a block that is asked to hold reaches its work boundary (R70). -/
def execPageHeld (page : Nat) (s : State) : Out :=
  act s (s.alive && present s.role page && s.is (F.PG_CTRL_HOLD page) && s.runs page) fun s =>
    (s.set (F.PG_STAT_HELD page) 1).meridiansStop.resumeHeld

/-- PAGE_ENABLE (R68). -/
def execPageEnable (path : Path) (page : Nat) (on : Bool) (s : State) : Out := fieldRow s path (F.PG_CTRL_EN page) (b2n on)

/-- PG_EVT_SET (R67). -/
def execPgEvtSet (path : Path) (page : Nat) (bits : Word) (s : State) : Out := writeRow s path (R.PG_EVT_SET page) bits

/-- GUARD_LOCK (R66). -/
def execGuardLock (path : Path) (page : Nat) (s : State) : Out := fieldRow s path (F.PG_GUARD_LOCK page) 1

/-! Clocks, host port, terminals. -/

/-- CLK_DOM_WRITE (R106). -/
def execClkDomWrite (path : Path) (dom : Nat) (data : Word) (s : State) : Out := writeRow s path (R.CLK_DOM dom) data

/-- HOST_ENABLE (R44). -/
def execHostEnable (path : Path) (s : State) : Out := fieldRow s path F.HOST_CTRL_HOST 1

/-- RELEASE_REQUEST (R46). -/
def execReleaseRequest (path : Path) (ms : Nat) (s : State) : Out := fieldRow s path F.HOST_REL_DUR ms

/-- GPIO_FN_WRITE (R50). -/
def execGpioFnWrite (path : Path) (n : Nat) (data : Word) (s : State) : Out := writeRow s path (R.GPIO_FN n) data

/-- UART_TX_WRITE (R53). -/
def execUartTxWrite (path : Path) (data : Word) (s : State) : Out := writeRow s path R.GPIO_UTX data

/-- URX_READ (R53). -/
def execUrxRead (path : Path) (s : State) : Out := readRow s path R.GPIO_URX

/-! Presence, security, debug. -/

/-- PRESENCE_CLOSE (R163). -/
def execPresenceClose (path : Path) (s : State) : Out := fieldRow s path F.SEC_PRES_CLOSE 1

/-- SEC_OWN_REVOKE (R176): the word carries the code that revokes. -/
def execSecOwnRevoke (path : Path) (data : Word) (s : State) : Out := writeRow s path R.SEC_OWN data

/-- ATTESTATION_GO (R189). -/
def execAttestationGo (path : Path) (s : State) : Out := fieldRow s path F.SEC_ATT_CTL_GO 1

/-- RECORD_EXPORT (R180). -/
def execRecordExport (path : Path) (s : State) : Out := fieldRow s path F.SEC_REC_CMD_EXPORT 1

/-- RECORD_RESTORE (R181). -/
def execRecordRestore (path : Path) (s : State) : Out := fieldRow s path F.SEC_REC_CMD_RESTORE 1

/-- OTP_PROGRAM (R193). -/
def execOtpProgram (path : Path) (s : State) : Out := fieldRow s path F.OTP_CMD_PROG 1

/-- DEBUG_UNLOCK (R187). -/
def execDebugUnlock (path : Path) (s : State) : Out := fieldRow s path F.DBG_CTL_UNLOCK 1

/-- DEBUG_RELOCK (R187). -/
def execDebugRelock (path : Path) (s : State) : Out := fieldRow s path F.DBG_CTL_RELOCK 1

/-! Lanes. -/

/-- LANE_PWR_REQUEST (R216). -/
def execLanePwrRequest (path : Path) (lane req : Nat) (s : State) : Out := fieldRow s path (F.LANE_PWR_REQ lane) req

/-- EYE_SCAN_GO (R206). -/
def execEyeScanGo (path : Path) (lane : Nat) (s : State) : Out := fieldRow s path (F.LANE_ES_CTL_GO lane) 1

/-- PRBS_INJECT (R210). -/
def execPrbsInject (path : Path) (lane : Nat) (s : State) : Out := fieldRow s path (F.LANE_PRBS_CTL_INJ lane) 1

/-- PRBS_CLEAR (R211). -/
def execPrbsClear (path : Path) (lane : Nat) (s : State) : Out := fieldRow s path (F.LANE_PRBS_CTL_CLR lane) 1

/-! Time. -/

/-- TIME_INC_WRITE (R222). -/
def execTimeIncWrite (path : Path) (frac : Word) (s : State) : Out := writeRow s path R.TIME_INC_FRAC frac

/-- TIME_CMD_STEP (R223). -/
def execTimeCmdStep (path : Path) (s : State) : Out := fieldRow s path F.TIME_CMD_STEP 1

/-- TIME_CMD_SET (R223). -/
def execTimeCmdSet (path : Path) (s : State) : Out := fieldRow s path F.TIME_CMD_SET 1

/-- TIME_NOW_READ: a read of TIME_NOW_NS latches the others (R224). -/
def execTimeNowRead (path : Path) (s : State) : Out := readRow s path R.TIME_NOW_NS

/-- TSQ_POP: a read of TIME_TSQp_ID takes the head of the queue (R244). -/
def execTsqPop (path : Path) (port : Nat) (s : State) : Out := readRow s path (R.TIME_TSQ_ID port)

/-! Trees and berths. -/

/-- TREE_RA_GO (R291). -/
def execTreeRaGo (path : Path) (port : Nat) (data : Word) (s : State) : Out := goRow s path (R.TREE_RA_CMD port) data 0x8000

/-- ENROLMENT_WINDOW_OPEN (R296): a 1 is written to the bit of the port, the others as they read. -/
def execEnrolmentWindowOpen (path : Path) (port : Nat) (s : State) : Out :=
  fieldRow s path ⟨R.BERTH_BOARD, port % 4, 1⟩ 1

/-- ENROLMENT_WINDOW_CLOSE (R296). -/
def execEnrolmentWindowClose (path : Path) (port : Nat) (s : State) : Out :=
  fieldRow s path ⟨R.BERTH_BOARD, port % 4, 1⟩ 0

/-- BABBLER_SEARCH_GO (R325): by a register, or with AUTO after LTHR rounds of unslotted light. -/
def execBabblerSearchGo (start : SearchStart) (port : Nat) (s : State) : Out :=
  match start with
  | .register path => fieldRow s path (F.BERTH_SRCH_GO port) 1
  | .automatic =>
    act s (s.berthOn port && s.is F.BERTH_CFG_AUTO && (s.port port).search.isNone
      && decide (max 1 (s.get F.BERTH_CFG_LTHR) ≤ (s.port port).lightRun)) fun s => s.searchStart port

/-- BERTH_CMD_RD (R328). -/
def execBerthCmdRd (path : Path) (s : State) : Out := fieldRow s path F.BERTH_CMD_RD 1

/-- BERTH_CMD_WR (R330). -/
def execBerthCmdWr (path : Path) (s : State) : Out := fieldRow s path F.BERTH_CMD_WR 1

/-- BERTH_CMD_CLRCNT (R328). -/
def execBerthCmdClrcnt (path : Path) (s : State) : Out := fieldRow s path F.BERTH_CMD_CLRCNT 1

/-! Modulation, rank, engine, compensation. -/

/-- PROTECTIVE_COMMAND (R359). -/
def execProtectiveCommand (path : Path) (data : Word) (s : State) : Out := goRow s path R.MOD_PCMD data 0x80000000

/-- MODE_CHANGE_GO (R361). -/
def execModeChangeGo (path : Path) (data : Word) (s : State) : Out := goRow s path R.MOD_MSW_HI data 0x80000000

/-- RANK_CMD_RD (R389). -/
def execRankCmdRd (path : Path) (s : State) : Out := fieldRow s path F.RANK_CMD_RD 1

/-- RANK_CMD_WR (R389). -/
def execRankCmdWr (path : Path) (s : State) : Out := fieldRow s path F.RANK_CMD_WR 1

/-- RANK_CMD_SETC (R389). -/
def execRankCmdSetc (path : Path) (s : State) : Out := fieldRow s path F.RANK_CMD_SETC 1

/-- RANK_CMD_SETV (R389). -/
def execRankCmdSetv (path : Path) (s : State) : Out := fieldRow s path F.RANK_CMD_SETV 1

/-- PROGRAM_LOAD of slot `sl` (R403). -/
def execProgramLoad (path : Path) (sl : Nat) (s : State) : Out :=
  writeRow s path R.CTL_PGM_CMD (BitVec.ofNat 32 (1 + sl % 2 * 16))

/-- HANDOVER_GO (R414). -/
def execHandoverGo (path : Path) (data : Word) (s : State) : Out := goRow s path R.CTL_HO_CTL data 0x40000000

/-- HANDOVER_ABORT (R418). -/
def execHandoverAbort (path : Path) (data : Word) (s : State) : Out := goRow s path R.CTL_HO_CTL data 0x80000000

/-- SIGDATA_WRITE (R398). -/
def execSigdataWrite (path : Path) (data : Word) (s : State) : Out := writeRow s path R.CTL_SIGDATA data

/-- CHAIN_QUEUE_WRITE (R413). -/
def execChainQueueWrite (path : Path) (data : Word) (s : State) : Out := writeRow s path R.CHAIN_DHI data

/-- CHAIN_CMD_RD (R422). -/
def execChainCmdRd (path : Path) (s : State) : Out := fieldRow s path F.CHAIN_CMD_RD 1

/-- RCU_CLEAR of unit `u` (R436). -/
def execRcuClear (path : Path) (u : Nat) (s : State) : Out :=
  writeRow s path R.RCU_CMD (BitVec.ofNat 32 (u % 16 + 256))

/-- INJECTOR_GO (R447). -/
def execInjectorGo (path : Path) (i : Nat) (s : State) : Out := fieldRow s path (F.SUP_ICTL_GO i) 1

/-- INJECTOR_STOP (R447). -/
def execInjectorStop (path : Path) (i : Nat) (s : State) : Out := fieldRow s path (F.SUP_ICTL_STOP i) 1

/-- FREQ_RESPONSE_GO (R451). -/
def execFreqResponseGo (path : Path) (s : State) : Out := fieldRow s path F.SUP_FRCTL_GO 1

/-! Power stage and safety. -/

/-- GATE_FCLR (R474). -/
def execGateFclr (path : Path) (s : State) : Out := fieldRow s path F.GATE_FCLR_CLR 1

/-- TEV_ARM (R480). -/
def execTevArm (path : Path) (n : Nat) (data : Word) (s : State) : Out := goRow s path (R.TEV_CTL n) data 0x10

/-- TEV_DISARM (R481). -/
def execTevDisarm (path : Path) (n : Nat) (s : State) : Out := fieldRow s path (F.TEV_CTL_DISARM n) 1

/-- HUB_DEBLOCK (R515). -/
def execHubDeblock (path : Path) (s : State) : Out := writeRow s path R.SAFE_HCMD 0x0DB1

/-- HUB_ACLR (R509). -/
def execHubAclr (path : Path) (s : State) : Out := writeRow s path R.SAFE_HCMD 0x0AC1

/-- HUB_BSET (R511). -/
def execHubBset (path : Path) (s : State) : Out := writeRow s path R.SAFE_HCMD 0x0B51

/-- HUB_BCLR (R511). -/
def execHubBclr (path : Path) (s : State) : Out := writeRow s path R.SAFE_HCMD 0x0BC1

/-- SINGLE_BERTH_DEBLOCK (R517). -/
def execSingleBerthDeblock (path : Path) (berth : Nat) (s : State) : Out :=
  writeRow s path R.SAFE_HDBB (BitVec.ofNat 32 (berth % 1024 + 2 ^ 31))

/-- CELL_DEBLOCK (R518). -/
def execCellDeblock (path : Path) (s : State) : Out := writeRow s path R.SAFE_CCMD 0x0DB1

/-- CELL_BLOCK (R519). -/
def execCellBlock (path : Path) (s : State) : Out := writeRow s path R.SAFE_CCMD 0x0BB1

/-- CELL_PERM_BYPASS (R522). -/
def execCellPermBypass (path : Path) (s : State) : Out := writeRow s path R.SAFE_CCMD 0x9B55

/-! Scheduler, memory, error log. -/

/-- SCHED_SUBMIT (R575). -/
def execSchedSubmit (path : Path) (data : Word) (s : State) : Out := goRow s path R.SCHG_SUBCMD data 0x80000000

/-- SCHG_TAKE (R580). -/
def execSchgTake (path : Path) (s : State) : Out := readRow s path R.SCHG_TAKE

/-- SCHG_DONE (R580). -/
def execSchgDone (path : Path) (handle : Nat) (s : State) : Out :=
  writeRow s path R.SCHG_DONE (BitVec.ofNat 32 (handle % 65536))

/-- SCHG_CANCEL (R585). -/
def execSchgCancel (path : Path) (handle : Nat) (s : State) : Out :=
  writeRow s path R.SCHG_CANCEL (BitVec.ofNat 32 (handle % 65536))

/-- SCHQ_FLUSH (R586). -/
def execSchqFlush (path : Path) (q : Nat) (s : State) : Out := fieldRow s path (F.SCHQ_CMD_FLUSH q) 1

/-- MEM_LOCK_OPEN (R606). -/
def execMemLockOpen (path : Path) (s : State) : Out := fieldRow s path F.MEM_SLOCK_OPEN 1

/-- MEM_LOCK_CLOSE (R606). -/
def execMemLockClose (path : Path) (s : State) : Out := fieldRow s path F.MEM_SLOCK_CLOSE 1

/-- ERR_POP (R612). -/
def execErrPop (path : Path) (s : State) : Out := fieldRow s path F.ERR_CMD_POP 1

/-- ERR_ACK of class `cls` (R614). -/
def execErrAck (path : Path) (cls : Nat) (s : State) : Out :=
  writeRow s path R.ERR_CMD (BitVec.ofNat 32 (2 + cls % 4 * 16))

/-- ERR_SWLOG (R616). -/
def execErrSwlog (path : Path) (data : Word) (s : State) : Out := writeRow s path R.ERR_SWLOG data

/-! Recorder, monitors, station. -/

/-- REC_FORCE (R627). -/
def execRecForce (path : Path) (s : State) : Out := writeRow s path R.REC_CMD 1

/-- REC_REL of segment `seg` (R629). -/
def execRecRel (path : Path) (seg : Nat) (s : State) : Out :=
  writeRow s path R.REC_CMD (BitVec.ofNat 32 (2 + seg % 16 * 256))

/-- REC_RELALL (R629). -/
def execRecRelall (path : Path) (s : State) : Out := writeRow s path R.REC_CMD 4

/-- BB_REARM (R639). -/
def execBbRearm (path : Path) (s : State) : Out := fieldRow s path F.REC_BBCMD_REARM 1

/-- MON_SNAP on the MON page `page` of two (R643). -/
def execMonSnap (path : Path) (page : Nat) (data : Word) (s : State) : Out :=
  goRow s path (R.MON_SNAP (page % 2)) data 0x80000000

/-- LT_ADD (R645). -/
def execLtAdd (path : Path) (data : Word) (s : State) : Out := goRow s path (R.LT_CMD 0) data 0x80000000

/-- LT_LOCK (R645). -/
def execLtLock (path : Path) (s : State) : Out := fieldRow s path (F.LT_CTL_LOCK 0) 1

/-- STN_REKEY (R654). -/
def execStnRekey (path : Path) (s : State) : Out := fieldRow s path F.STN_CMD_REKEY 1

/-- STN_CLRCNT (R666). -/
def execStnClrcnt (path : Path) (s : State) : Out := fieldRow s path F.STN_CMD_CLRCNT 1

/-- TX_POST (R662). -/
def execTxPost (path : Path) (data : Word) (s : State) : Out := writeRow s path R.STN_TXPOST data

end Sys2Proof.Machine
end

