-- ==== Sys2Proof/Machine/Dispatch.lean ====
section
/-! DEFINITION. The meaning of every command: one arm per constructor, in the order of the table of operations. -/

namespace Sys2Proof.Machine

def exec (i : Instr) (s : State) : Host.Outcome State Fault Refusal :=
  match i with
  | .powerOnReset => Sys2Proof.Machine.execPowerOnReset s
  | .vddioBelow1v2 => Sys2Proof.Machine.execVddioBelow1v2 s
  | .vddioAbove1v2 => Sys2Proof.Machine.execVddioAbove1v2 s
  | .nrstAssert => Sys2Proof.Machine.execNrstAssert s
  | .nrstRelease => Sys2Proof.Machine.execNrstRelease s
  | .rolePullupRead band => Sys2Proof.Machine.execRolePullupRead band s
  | .rolePulldownRead band flashAnswers healthFailures => Sys2Proof.Machine.execRolePulldownRead band flashAnswers healthFailures s
  | .containerCheck => Sys2Proof.Machine.execContainerCheck s
  | .bootRetry => Sys2Proof.Machine.execBootRetry s
  | .treeContainerComplete => Sys2Proof.Machine.execTreeContainerComplete s
  | .firstOwnership => Sys2Proof.Machine.execFirstOwnership s
  | .ownerChangeEntry => Sys2Proof.Machine.execOwnerChangeEntry s
  | .ownerRevoke => Sys2Proof.Machine.execOwnerRevoke s
  | .cpuEclaimClaim => Sys2Proof.Machine.execCpuEclaimClaim s
  | .cpuEclaimComplete data => Sys2Proof.Machine.execCpuEclaimComplete data s
  | .nmiRet => Sys2Proof.Machine.execNmiRet s
  | .wdtKick data => Sys2Proof.Machine.execWdtKick data s
  | .wdtFirstStage => Sys2Proof.Machine.execWdtFirstStage s
  | .wdtSecondStage => Sys2Proof.Machine.execWdtSecondStage s
  | .softwareReset data => Sys2Proof.Machine.execSoftwareReset data s
  | .clockFailureReset => Sys2Proof.Machine.execClockFailureReset s
  | .clkDomWrite path dom data => Sys2Proof.Machine.execClkDomWrite path dom data s
  | .rampStep dom => Sys2Proof.Machine.execRampStep dom s
  | .forcedSwitch dom => Sys2Proof.Machine.execForcedSwitch dom s
  | .clockMonitorWindow m count => Sys2Proof.Machine.execClockMonitorWindow m count s
  | .sourceNoEdge m => Sys2Proof.Machine.execSourceNoEdge m s
  | .spllUnlock m => Sys2Proof.Machine.execSpllUnlock m s
  | .ircMeasurement ppb => Sys2Proof.Machine.execIrcMeasurement ppb s
  | .speedCount rings => Sys2Proof.Machine.execSpeedCount rings s
  | .xoscStartupEnd count => Sys2Proof.Machine.execXoscStartupEnd count s
  | .spllLock => Sys2Proof.Machine.execSpllLock s
  | .gateHandshake page => Sys2Proof.Machine.execGateHandshake page s
  | .gateTimeout wait => Sys2Proof.Machine.execGateTimeout wait s
  | .ungate page => Sys2Proof.Machine.execUngate page s
  | .registerWrite path bytes addr data => Sys2Proof.Machine.execRegisterWrite path bytes addr data s
  | .maskedWrite path addr mask data => Sys2Proof.Machine.execMaskedWrite path addr mask data s
  | .pgCommitRequest path page => Sys2Proof.Machine.execPgCommitRequest path page s
  | .pageSrst path page => Sys2Proof.Machine.execPageSrst path page s
  | .pageHold path page on => Sys2Proof.Machine.execPageHold path page on s
  | .pageHeld page => Sys2Proof.Machine.execPageHeld page s
  | .pageEnable path page on => Sys2Proof.Machine.execPageEnable path page on s
  | .pgEvtSet path page bits => Sys2Proof.Machine.execPgEvtSet path page bits s
  | .guardLock path page => Sys2Proof.Machine.execGuardLock path page s
  | .hostEnable path => Sys2Proof.Machine.execHostEnable path s
  | .hostBusReleased => Sys2Proof.Machine.execHostBusReleased s
  | .hostRd addr count crc ready => Sys2Proof.Machine.execHostRd addr count crc ready s
  | .hostWr addr words crc ready => Sys2Proof.Machine.execHostWr addr words crc ready s
  | .hostMwr addr mask data crc ready => Sys2Proof.Machine.execHostMwr addr mask data crc ready s
  | .hostStat crc ready => Sys2Proof.Machine.execHostStat crc ready s
  | .releaseRequest path ms => Sys2Proof.Machine.execReleaseRequest path ms s
  | .busReclaim csStayedHigh => Sys2Proof.Machine.execBusReclaim csStayedHigh s
  | .busReturn => Sys2Proof.Machine.execBusReturn s
  | .treeRaGo path port data => Sys2Proof.Machine.execTreeRaGo path port data s
  | .remoteTimeout port tid => Sys2Proof.Machine.execRemoteTimeout port tid s
  | .gpioFnWrite path n data => Sys2Proof.Machine.execGpioFnWrite path n data s
  | .gpioEdge n level => Sys2Proof.Machine.execGpioEdge n level s
  | .uartTxWrite path data => Sys2Proof.Machine.execUartTxWrite path data s
  | .uartByteSent => Sys2Proof.Machine.execUartByteSent s
  | .uartByteRx byte framingOk => Sys2Proof.Machine.execUartByteRx byte framingOk s
  | .urxRead path => Sys2Proof.Machine.execUrxRead path s
  | .ledToggle => Sys2Proof.Machine.execLedToggle s
  | .presencePress => Sys2Proof.Machine.execPresencePress s
  | .presenceRelease => Sys2Proof.Machine.execPresenceRelease s
  | .presenceWindowExpire => Sys2Proof.Machine.execPresenceWindowExpire s
  | .presenceClose path => Sys2Proof.Machine.execPresenceClose path s
  | .pressStuck => Sys2Proof.Machine.execPressStuck s
  | .stuckClear => Sys2Proof.Machine.execStuckClear s
  | .sealSequenceChange level => Sys2Proof.Machine.execSealSequenceChange level s
  | .sealSample sealIn => Sys2Proof.Machine.execSealSample sealIn s
  | .secOwnRevoke path data => Sys2Proof.Machine.execSecOwnRevoke path data s
  | .attestationGo path => Sys2Proof.Machine.execAttestationGo path s
  | .attDone => Sys2Proof.Machine.execAttDone s
  | .recordExport path => Sys2Proof.Machine.execRecordExport path s
  | .recordRestore path => Sys2Proof.Machine.execRecordRestore path s
  | .recDone => Sys2Proof.Machine.execRecDone s
  | .otpProgram path => Sys2Proof.Machine.execOtpProgram path s
  | .otpProgramDone => Sys2Proof.Machine.execOtpProgramDone s
  | .debugUnlock path => Sys2Proof.Machine.execDebugUnlock path s
  | .debugRelock path => Sys2Proof.Machine.execDebugRelock path s
  | .groupKeyRenewal port => Sys2Proof.Machine.execGroupKeyRenewal port s
  | .sessionKeyRenewal berth => Sys2Proof.Machine.execSessionKeyRenewal berth s
  | .syncGained lane => Sys2Proof.Machine.execSyncGained lane s
  | .syncLost lane codeErrors => Sys2Proof.Machine.execSyncLost lane codeErrors s
  | .rateHuntSwitch lane => Sys2Proof.Machine.execRateHuntSwitch lane s
  | .polFlip lane => Sys2Proof.Machine.execPolFlip lane s
  | .bondUp lidL4 lidL5 node skew => Sys2Proof.Machine.execBondUp lidL4 lidL5 node skew s
  | .bondErr why skew => Sys2Proof.Machine.execBondErr why skew s
  | .lossOfSignal lane => Sys2Proof.Machine.execLossOfSignal lane s
  | .cdrLock lane => Sys2Proof.Machine.execCdrLock lane s
  | .lanePwrRequest path lane req => Sys2Proof.Machine.execLanePwrRequest path lane req s
  | .pstateDone lane => Sys2Proof.Machine.execPstateDone lane s
  | .eyeScanGo path lane => Sys2Proof.Machine.execEyeScanGo path lane s
  | .esDone lane errors => Sys2Proof.Machine.execEsDone lane errors s
  | .eyeScanAbort lane errors bits => Sys2Proof.Machine.execEyeScanAbort lane errors bits s
  | .prbsInject path lane => Sys2Proof.Machine.execPrbsInject path lane s
  | .prbsClear path lane => Sys2Proof.Machine.execPrbsClear path lane s
  | .prbsLock lane => Sys2Proof.Machine.execPrbsLock lane s
  | .prbsRelock lane errors => Sys2Proof.Machine.execPrbsRelock lane errors s
  | .brstPulse port slot => Sys2Proof.Machine.execBrstPulse port slot s
  | .upstreamBurstRx port slot syncFound codeOk burst phase align => Sys2Proof.Machine.execUpstreamBurstRx port slot syncFound codeOk burst phase align s
  | .timeIncWrite path frac => Sys2Proof.Machine.execTimeIncWrite path frac s
  | .timeCmdStep path => Sys2Proof.Machine.execTimeCmdStep path s
  | .timeCmdSet path => Sys2Proof.Machine.execTimeCmdSet path s
  | .stepDone => Sys2Proof.Machine.execStepDone s
  | .timeNowRead path => Sys2Proof.Machine.execTimeNowRead path s
  | .meridian => Sys2Proof.Machine.execMeridian s
  | .ppsPulse => Sys2Proof.Machine.execPpsPulse s
  | .ptpTimestamp port seq msgType sent corr t3 => Sys2Proof.Machine.execPtpTimestamp port seq msgType sent corr t3 s
  | .tsqPop path port => Sys2Proof.Machine.execTsqPop path port s
  | .twinTimeExchange offset => Sys2Proof.Machine.execTwinTimeExchange offset s
  | .holdoverEnter cause => Sys2Proof.Machine.execHoldoverEnter cause s
  | .readyTest => Sys2Proof.Machine.execReadyTest s
  | .cycleFrameRx uplink codeOk frame stamp queuedAt => Sys2Proof.Machine.execCycleFrameRx uplink codeOk frame stamp queuedAt s
  | .mgrant uplink berth slot round => Sys2Proof.Machine.execMgrant uplink berth slot round s
  | .rslot uplink berth slot round => Sys2Proof.Machine.execRslot uplink berth slot round s
  | .laserKill uplink berth all => Sys2Proof.Machine.execLaserKill uplink berth all s
  | .mgmtRdRecord uplink berth tid addr words => Sys2Proof.Machine.execMgmtRdRecord uplink berth tid addr words s
  | .mgmtWrRecord uplink berth tid presence sealMark addr words => Sys2Proof.Machine.execMgmtWrRecord uplink berth tid presence sealMark addr words s
  | .mgmtMwrRecord uplink berth tid presence sealMark addr mask data => Sys2Proof.Machine.execMgmtMwrRecord uplink berth tid presence sealMark addr mask data s
  | .mgmtWrpRecord uplink presence sealMark addr words => Sys2Proof.Machine.execMgmtWrpRecord uplink presence sealMark addr words s
  | .keyRecord uplink berth tid body => Sys2Proof.Machine.execKeyRecord uplink berth tid body s
  | .delayRecord uplink berth tid down up => Sys2Proof.Machine.execDelayRecord uplink berth tid down up s
  | .tbaseRecord uplink body => Sys2Proof.Machine.execTbaseRecord uplink body s
  | .beaconRecord uplink body => Sys2Proof.Machine.execBeaconRecord uplink body s
  | .offerRecord uplink body => Sys2Proof.Machine.execOfferRecord uplink body s
  | .kxhRecord uplink berth tid body => Sys2Proof.Machine.execKxhRecord uplink berth tid body s
  | .refuseRecord uplink body => Sys2Proof.Machine.execRefuseRecord uplink body s
  | .restoreRecord uplink body => Sys2Proof.Machine.execRestoreRecord uplink body s
  | .cellMeridian => Sys2Proof.Machine.execCellMeridian s
  | .holdLimit => Sys2Proof.Machine.execHoldLimit s
  | .payloadBuild => Sys2Proof.Machine.execPayloadBuild s
  | .reportBurstTx uplink => Sys2Proof.Machine.execReportBurstTx uplink s
  | .mgmtBurstTx uplink => Sys2Proof.Machine.execMgmtBurstTx uplink s
  | .mgmtBurstRx port berth payload => Sys2Proof.Machine.execMgmtBurstRx port berth payload s
  | .eventByp => Sys2Proof.Machine.execEventByp s
  | .eventInsPos => Sys2Proof.Machine.execEventInsPos s
  | .eventInsNeg => Sys2Proof.Machine.execEventInsNeg s
  | .eventBlockCell => Sys2Proof.Machine.execEventBlockCell s
  | .eventTrim => Sys2Proof.Machine.execEventTrim s
  | .trimEnd => Sys2Proof.Machine.execTrimEnd s
  | .eventFireThy => Sys2Proof.Machine.execEventFireThy s
  | .eventPermBypass => Sys2Proof.Machine.execEventPermBypass s
  | .eventSwapHead => Sys2Proof.Machine.execEventSwapHead s
  | .deadTimeTurnOn => Sys2Proof.Machine.execDeadTimeTurnOn s
  | .enrolmentWindowOpen path port => Sys2Proof.Machine.execEnrolmentWindowOpen path port s
  | .enrolmentWindowClose path port => Sys2Proof.Machine.execEnrolmentWindowClose path port s
  | .enrolmentWindowExpire port => Sys2Proof.Machine.execEnrolmentWindowExpire port s
  | .boardingBurstTx uplink => Sys2Proof.Machine.execBoardingBurstTx uplink s
  | .boardingBackoff uplink => Sys2Proof.Machine.execBoardingBackoff uplink s
  | .boardingBurstRx port burst arrival => Sys2Proof.Machine.execBoardingBurstRx port burst arrival s
  | .collision port => Sys2Proof.Machine.execCollision port s
  | .rangingBurstTx uplink => Sys2Proof.Machine.execRangingBurstTx uplink s
  | .rangingBurstRx port syncFound codeOk burst arrival sampled => Sys2Proof.Machine.execRangingBurstRx port syncFound codeOk burst arrival sampled s
  | .rangingTimeout port berth => Sys2Proof.Machine.execRangingTimeout port berth s
  | .rejoinTrigger uplink => Sys2Proof.Machine.execRejoinTrigger uplink s
  | .roundBoundary light => Sys2Proof.Machine.execRoundBoundary light s
  | .babblerSearchGo start port => Sys2Proof.Machine.execBabblerSearchGo start port s
  | .searchStep port light => Sys2Proof.Machine.execSearchStep port light s
  | .berthCmdRd path => Sys2Proof.Machine.execBerthCmdRd path s
  | .berthCmdWr path => Sys2Proof.Machine.execBerthCmdWr path s
  | .berthCmdClrcnt path => Sys2Proof.Machine.execBerthCmdClrcnt path s
  | .stageB ns => Sys2Proof.Machine.execStageB ns s
  | .stageC ns lat => Sys2Proof.Machine.execStageC ns lat s
  | .stageD ns => Sys2Proof.Machine.execStageD ns s
  | .stageE ns => Sys2Proof.Machine.execStageE ns s
  | .stageF ns => Sys2Proof.Machine.execStageF ns s
  | .protectiveCommand path data => Sys2Proof.Machine.execProtectiveCommand path data s
  | .modeChangeGo path data => Sys2Proof.Machine.execModeChangeGo path data s
  | .carrierEpoch => Sys2Proof.Machine.execCarrierEpoch s
  | .carrierSample peak => Sys2Proof.Machine.execCarrierSample peak s
  | .cellEngineRun peak lat => Sys2Proof.Machine.execCellEngineRun peak lat s
  | .rankCmdRd path => Sys2Proof.Machine.execRankCmdRd path s
  | .rankCmdWr path => Sys2Proof.Machine.execRankCmdWr path s
  | .rankCmdSetc path => Sys2Proof.Machine.execRankCmdSetc path s
  | .rankCmdSetv path => Sys2Proof.Machine.execRankCmdSetv path s
  | .programLoad path sl => Sys2Proof.Machine.execProgramLoad path sl s
  | .loadDone sl => Sys2Proof.Machine.execLoadDone sl s
  | .handoverGo path data => Sys2Proof.Machine.execHandoverGo path data s
  | .handoverAbort path data => Sys2Proof.Machine.execHandoverAbort path data s
  | .sigdataWrite path data => Sys2Proof.Machine.execSigdataWrite path data s
  | .chainQueueWrite path data => Sys2Proof.Machine.execChainQueueWrite path data s
  | .chainCmdRd path => Sys2Proof.Machine.execChainCmdRd path s
  | .rcuClear path u => Sys2Proof.Machine.execRcuClear path u s
  | .rcuClearDone u => Sys2Proof.Machine.execRcuClearDone u s
  | .injectorGo path inj => Sys2Proof.Machine.execInjectorGo path inj s
  | .injectorStop path inj => Sys2Proof.Machine.execInjectorStop path inj s
  | .freqResponseGo path => Sys2Proof.Machine.execFreqResponseGo path s
  | .faultAssert input => Sys2Proof.Machine.execFaultAssert input s
  | .safeLevelTurnOn => Sys2Proof.Machine.execSafeLevelTurnOn s
  | .gateFclr path => Sys2Proof.Machine.execGateFclr path s
  | .gateStopEnter cause => Sys2Proof.Machine.execGateStopEnter cause s
  | .gateStopExit cause => Sys2Proof.Machine.execGateStopExit cause s
  | .thyDone => Sys2Proof.Machine.execThyDone s
  | .gate5Release => Sys2Proof.Machine.execGate5Release s
  | .delayLineCal taps => Sys2Proof.Machine.execDelayLineCal taps s
  | .tevArm path n data => Sys2Proof.Machine.execTevArm path n data s
  | .tevDisarm path n => Sys2Proof.Machine.execTevDisarm path n s
  | .tevFired n => Sys2Proof.Machine.execTevFired n s
  | .adcResult m ch x sampled => Sys2Proof.Machine.execAdcResult m ch x sampled s
  | .comparatorAssert run => Sys2Proof.Machine.execComparatorAssert run s
  | .comparatorDeassert back => Sys2Proof.Machine.execComparatorDeassert back s
  | .alatch input => Sys2Proof.Machine.execAlatch input s
  | .disc => Sys2Proof.Machine.execDisc s
  | .hubDeblock path => Sys2Proof.Machine.execHubDeblock path s
  | .hubAclr path => Sys2Proof.Machine.execHubAclr path s
  | .hubBset path => Sys2Proof.Machine.execHubBset path s
  | .hubBclr path => Sys2Proof.Machine.execHubBclr path s
  | .deblockSequenceQueue => Sys2Proof.Machine.execDeblockSequenceQueue s
  | .startupTestOpen => Sys2Proof.Machine.execStartupTestOpen s
  | .startupPass => Sys2Proof.Machine.execStartupPass s
  | .singleBerthDeblock path berth => Sys2Proof.Machine.execSingleBerthDeblock path berth s
  | .cellDeblock path => Sys2Proof.Machine.execCellDeblock path s
  | .cellBlock path => Sys2Proof.Machine.execCellBlock path s
  | .cellPermBypass path => Sys2Proof.Machine.execCellPermBypass path s
  | .blkos lane reaction => Sys2Proof.Machine.execBlkos lane reaction s
  | .blkseenClear => Sys2Proof.Machine.execBlkseenClear s
  | .twinKxFrame frame => Sys2Proof.Machine.execTwinKxFrame frame s
  | .twinHelloFrame frame => Sys2Proof.Machine.execTwinHelloFrame frame s
  | .twinStatusRx frame => Sys2Proof.Machine.execTwinStatusRx frame s
  | .twinSliceRx frame => Sys2Proof.Machine.execTwinSliceRx frame s
  | .twinCommitRx frame => Sys2Proof.Machine.execTwinCommitRx frame s
  | .heartbeatTx => Sys2Proof.Machine.execHeartbeatTx s
  | .refereeFrameTx pair => Sys2Proof.Machine.execRefereeFrameTx pair s
  | .refHbRx link frame => Sys2Proof.Machine.execRefHbRx link frame s
  | .linkMiss link => Sys2Proof.Machine.execLinkMiss link s
  | .refereeListenEnd pair => Sys2Proof.Machine.execRefereeListenEnd pair s
  | .refereeKx link frame => Sys2Proof.Machine.execRefereeKx link frame s
  | .takeRx frame => Sys2Proof.Machine.execTakeRx frame s
  | .yieldRx frame => Sys2Proof.Machine.execYieldRx frame s
  | .rstRx frame => Sys2Proof.Machine.execRstRx frame s
  | .refLost => Sys2Proof.Machine.execRefLost s
  | .selfTakeover => Sys2Proof.Machine.execSelfTakeover s
  | .preferredReclaim => Sys2Proof.Machine.execPreferredReclaim s
  | .schedSubmit path data => Sys2Proof.Machine.execSchedSubmit path data s
  | .hwArrival queue flow arg => Sys2Proof.Machine.execHwArrival queue flow arg s
  | .schedulerStep => Sys2Proof.Machine.execSchedulerStep s
  | .schgTake path => Sys2Proof.Machine.execSchgTake path s
  | .schgDone path handle => Sys2Proof.Machine.execSchgDone path handle s
  | .delayRelease => Sys2Proof.Machine.execDelayRelease s
  | .schgCancel path handle => Sys2Proof.Machine.execSchgCancel path handle s
  | .schqFlush path q => Sys2Proof.Machine.execSchqFlush path q s
  | .itemStuck slot => Sys2Proof.Machine.execItemStuck slot s
  | .scrubVisit upset => Sys2Proof.Machine.execScrubVisit upset s
  | .arbiterGrant waiting => Sys2Proof.Machine.execArbiterGrant waiting s
  | .memLockOpen path => Sys2Proof.Machine.execMemLockOpen path s
  | .memLockClose path => Sys2Proof.Machine.execMemLockClose path s
  | .lockBreak cause => Sys2Proof.Machine.execLockBreak cause s
  | .errPop path => Sys2Proof.Machine.execErrPop path s
  | .errAck path cls => Sys2Proof.Machine.execErrAck path cls s
  | .errSwlog path data => Sys2Proof.Machine.execErrSwlog path data s
  | .chunkStored => Sys2Proof.Machine.execChunkStored s
  | .holdOffEnd => Sys2Proof.Machine.execHoldOffEnd s
  | .recForce path => Sys2Proof.Machine.execRecForce path s
  | .recRel path seg => Sys2Proof.Machine.execRecRel path seg s
  | .recRelall path => Sys2Proof.Machine.execRecRelall path s
  | .bbRearm path => Sys2Proof.Machine.execBbRearm path s
  | .monSnap path page data => Sys2Proof.Machine.execMonSnap path page data s
  | .ltAdd path data => Sys2Proof.Machine.execLtAdd path data s
  | .ltLock path => Sys2Proof.Machine.execLtLock path s
  | .lifetimeSecond => Sys2Proof.Machine.execLifetimeSecond s
  | .lifetimeHour => Sys2Proof.Machine.execLifetimeHour s
  | .stationLinkUp port => Sys2Proof.Machine.execStationLinkUp port s
  | .stationKxRx frame => Sys2Proof.Machine.execStationKxRx frame s
  | .stnRekey path => Sys2Proof.Machine.execStnRekey path s
  | .stnClrcnt path => Sys2Proof.Machine.execStnClrcnt path s
  | .setpointRx frame => Sys2Proof.Machine.execSetpointRx frame s
  | .spStale => Sys2Proof.Machine.execSpStale s
  | .mgmtRequestRx frame => Sys2Proof.Machine.execMgmtRequestRx frame s
  | .mgmtResponseTx req => Sys2Proof.Machine.execMgmtResponseTx req s
  | .svFrameRx frame => Sys2Proof.Machine.execSvFrameRx frame s
  | .svLost c => Sys2Proof.Machine.execSvLost c s
  | .txPost path data => Sys2Proof.Machine.execTxPost path data s
  | .timedTx => Sys2Proof.Machine.execTimedTx s
  | .rxToRing frame => Sys2Proof.Machine.execRxToRing frame s
  | .streamTx => Sys2Proof.Machine.execStreamTx s
  | .prpSupervisionTx => Sys2Proof.Machine.execPrpSupervisionTx s
  | .supplyMonitorRelease => Sys2Proof.Machine.execSupplyMonitorRelease s
  | .faultSourceRelease source => Sys2Proof.Machine.execFaultSourceRelease source s
  | .hubSourceRelease pin => Sys2Proof.Machine.execHubSourceRelease pin s
  | .stationLinkDown port => Sys2Proof.Machine.execStationLinkDown port s
  | .supervisorDebugHalt => Sys2Proof.Machine.execSupervisorDebugHalt s
  | .ppsPulseEnd => Sys2Proof.Machine.execPpsPulseEnd s
  | .cycleMarkEnd => Sys2Proof.Machine.execCycleMarkEnd s
  | .tevPulseEnd n => Sys2Proof.Machine.execTevPulseEnd n s
  | .thyristorPulse => Sys2Proof.Machine.execThyristorPulse s

end Sys2Proof.Machine
end

