-- ==== Sys2Proof/Machine/Terminals.lean ====
section
/-! DEFINITION. What the part drives at its terminals, as a function of the state: alarm, seal, gate outputs (R39, R686)
and the code groups of its transmitters (R200, R208, R247, R276, R280, R510). GPIO levels stand in Gpio.lean. -/

namespace Sys2Proof.Machine

/-- The level that the part gives a terminal. -/
inductive Level where
  | low | high | undriven
  deriving DecidableEq, Repr

/-- A code group of 8b/10b: a data code or a control code, by the byte it stands for (R197). -/
inductive CodeGroup where
  | d (b : Byte)
  | k (b : Byte)
  deriving DecidableEq, Repr

/-- What a lane's transmit pins carry: nothing, the electrical idle, a word of the pattern generator, the groups received
(R208), the idle of IEEE 802.3 clause 36 on a station port (R197), or a code group of its own. -/
inductive LaneOut where
  | highZ | silent
  | pattern (word : Nat)
  | received
  | clause36Idle
  | group (g : CodeGroup)
  deriving DecidableEq, Repr

namespace CodeGroup

def comma : CodeGroup := .k 0xBC            -- K28.5
def sof : List CodeGroup := [comma, .k 0xFB]    -- K28.5 K27.7, R247
def eof : List CodeGroup := [.k 0xFD]           -- K29.7
def idleSet : List CodeGroup := [comma, .d 0xB5]   -- K28.5 D21.5
def blockSet : List CodeGroup := [comma, .k 0xF7, .k 0xF7, .k 0xF7]    -- K28.5 K23.7 K23.7 K23.7, R510

/-- The training ordered set of R200. -/
def training (lid node : Byte) : List CodeGroup := [comma, .d 0x50, .d lid, .d node]

/-- Group `i` of the endless repetition of a set. -/
def cyclic (l : List CodeGroup) (i : Nat) : CodeGroup := nth l (i % l.length) comma

end CodeGroup

open CodeGroup (comma sof eof idleSet blockSet training cyclic)

namespace State

/-- Is the part in reset, up to the end of the ROLE reading (R39)? -/
def inReset (s : State) : Bool := s.phase == .held || s.phase == .pullUp || s.phase == .pullDown

def levelOf (b : Bool) : Level := if b then .high else .low

/-- ALARM_N, open drain: low in reset and while a cause of R159 holds, else released (R39). -/
def alarmLevel (s : State) : Level :=
  if !s.pins.vddio then .undriven
  else if s.inReset || s.alarmCauses != 0 then .low
  else .undriven

/-- SEAL_OUT: low in reset, then the seal sequence (R39, R165). -/
def sealLevel (s : State) : Level :=
  if !s.pins.vddio then .undriven else if s.inReset then .low else levelOf s.pins.sealOut

/-- Is GATE`n` on: at a cell the legs, the thyristor and the bypass close command (R29, R458); at a hub a TEV output. -/
def gateOn (s : State) (n : Nat) : Bool :=
  if s.isCell then
    match n with
    | 0 => s.gate.legA == .upper
    | 1 => s.gate.legA == .lower
    | 2 => s.gate.legB == .upper
    | 3 => s.gate.legB == .lower
    | 4 => s.gate.gate4
    | _ => s.gate.gate5
  else s.isHub && nth s.gate.tev n false

/-- GATE`n` (R39, R686). -/
def gateLevel (s : State) (n : Nat) : Level :=
  if !s.pins.vddio then .undriven else levelOf (!s.inReset && s.gateOn n)

/-! The code groups of a hub tree port, R247 and R510. -/

/-- The groups of the last frame launched, from SOF to EOF. -/
def frameGroups (s : State) (p : Nat) : List CodeGroup :=
  match (s.port p).launched with
  | [] => []
  | bs => sof ++ bs.map .d ++ eof

/-- The groups that have left port `p` since the first bit of that frame's SOF (R229); none before it. -/
def groupsGone (s : State) (p : Nat) (t : Nat) : Option Nat :=
  match s.time.lastK with
  | none => none
  | some k =>
    let d : Int := (t : Int) - (s.meridianAt k + s.dTx p)
    if (s.port p).launched.isEmpty || d < 0 then none else some (d.toNat / groupAt (s.rate p) 0 1)

/-- The first group of port `p` that the rise of ALATCH replaces: the next one to leave (R510). -/
def cutAt (s : State) (p : Nat) : Option Nat :=
  match s.safe.alatchAt with
  | some t => (s.groupsGone p t).map (· + 1)
  | none => none

/-- The group that port `p` sends `g` groups after the start of its last SOF: 16 BLOCK sets from the rise of ALATCH on
(idle follows a cut frame's sets: DESIGN CHOICE, log 131), else the frame, 16 BLOCK sets after its EOF while ALATCH stands,
and idle. -/
def portGroup (s : State) (p g : Nat) : CodeGroup :=
  let fr := s.frameGroups p
  let plain (blk : Bool) : CodeGroup :=
    if g < fr.length then nth fr g comma
    else if blk && decide (g < fr.length + 64) then cyclic blockSet (g - fr.length)
    else cyclic idleSet (g - fr.length)
  match s.cutAt p with
  | some c =>
    if g < c then plain false
    else if g < c + 64 then cyclic blockSet (g - c)
    else cyclic idleSet (g - c)
  | none => plain (s.safe.alatch != 0)

/-- What port `p` of a hub sends now. A port that launches nothing sends, once its last frame is over, BLOCK sets without a
break while ALATCH stands, else idle (R342, R510). -/
def treePortSends (s : State) (p : Nat) : CodeGroup :=
  let rest := cyclic (if s.safe.alatch = 0 then idleSet else blockSet) (s.now / groupAt (s.rate p) 0 1)
  match s.groupsGone p s.now with
  | some g => if s.portOn p || decide (g < (s.frameGroups p).length) then s.portGroup p g else rest
  | none => rest

/-- Does lane `n` of the twin link send training sets: from sync to the bond and for 64 sets after it (R200)? -/
def trains (s : State) (n : Nat) : Bool :=
  if s.is (F.LANE_STAT_BONDED 4) then decide (s.elapsed < (s.lane 4).trainEnd) else s.is (F.LANE_STAT_SYNC n)

/-- The ordered set of lane `n` of the twin link between frames; NODE is the own hub number and side (R18, R200). -/
def twinSet (s : State) (n : Nat) : List CodeGroup :=
  if s.trains n then
    training (BitVec.ofNat 8 (n - 4)) (BitVec.ofNat 8 (s.get F.SYS_NODE_HUB + s.get F.SYS_NODE_SIDE <<< 6))
  else idleSet

/-- The groups of the burst of uplink `u`: preamble, sync word, 40 bytes (R280). -/
def burstGroups (s : State) (u : Nat) : List CodeGroup :=
  List.replicate 6 (.d 0xB5) ++ [comma, .d 0x4A] ++ (s.uplink u).burst.map .d

/-- A frame of the twin link on its bonded lane `j`: every second byte between SOF and EOF (R537). -/
def twinStripe (f : List Byte) (j : Nat) : List CodeGroup :=
  [.k 0xFB] ++ (f.zipIdx.filter fun e => e.2 % 2 == j).map (fun e => .d e.1) ++ [.k 0xFD]

/-- What uplink `u` of a cell sends: its burst between the edges of TXEN, one group inside them, else nothing (R276). -/
def uplinkSends (s : State) (u : Nat) : LaneOut :=
  let x := s.uplink u
  let g := (s.now - x.txen.1) / groupAt (s.rate u) 0 1
  if s.inPulse x.txen && decide (1 ≤ g) then
    match (s.burstGroups u)[g - 1]? with
    | some c => .group c
    | none => .silent
  else .silent

/-- What the transmit pins of lane `n` carry (R39, R208, R215). Frames of the twin link, and L6 and L7, are given whole by
`twin.frames` and `stn.sent`; between them the twin lanes send their ordered sets. -/
def laneOut (s : State) (n : Nat) : LaneOut :=
  if !s.pins.vddio || !s.alive || s.moored n || s.get (F.LANE_PWR_CUR n) == 2 then .highZ
  else if !s.laneDrives n then .silent
  else if s.is (F.LANE_PRBS_CTL_GEN n) then .pattern (s.lane n).word
  else if s.get (F.LANE_CFG_LB n) = 3 then .received
  else if s.isCell then s.uplinkSends n
  else if n < 4 then .group (s.treePortSends n)
  else if n < 6 then .group (cyclic (s.twinSet n) (s.now / groupAt (s.rate n) 0 1))
  else .clause36Idle

end State

end Sys2Proof.Machine
end

