-- ==== Sys2Proof/Safety.lean ====
section
/-! DEFINITION. What a safe state is, and the words in which statements about commands are written. -/

namespace Sys2Proof.Machine

/-- Command `c` answers a next state, and it satisfies `P`. -/
def Yields (c : Instr) (s : State) (P : State → Prop) : Prop := ∃ t, exec c s = .next t ∧ P t

/-- Every register but those of `rs` holds what it held. -/
def KeepsRegs (rs : List Nat) (s t : State) : Prop := ∀ a, a ∉ rs → t.reg a = s.reg a

/-- Every byte of memory reads as before. -/
def KeepsMem (s t : State) : Prop := ∀ a, t.byte a = s.byte a

/-- Every byte of memory but the `n` from address `a` up reads as before. -/
def KeepsMemBut (a n : Nat) (s t : State) : Prop := ∀ x, (x < a ∨ a + n ≤ x) → t.byte x = s.byte x

/-! Frames. -/

/-- The parts of the state besides the registers: its fields, and of the memories the black box of a cell apart from all
else. -/
inductive Part where
  | role | phase | grade | pins | act | resp | host | boot | sup | clk | sec | err | freeCtr | uart | now | elapsed | time | lanes | rx
  | ports | berths | rank | eng | comp | mod | cmod | gate | safe | adc | twin | refLinks | refPairs | sch
  | memErr | arb | bb | mon | recd | stn | pending
  | mem | box
  deriving DecidableEq, Repr

/-- Is a part the same in two states? -/
def Part.same (p : Part) (s t : State) : Prop :=
  match p with
  | .role => t.role = s.role
  | .phase => t.phase = s.phase
  | .grade => t.grade = s.grade
  | .pins => t.pins = s.pins
  | .act => t.act = s.act
  | .resp => t.resp = s.resp
  | .host => t.host = s.host
  | .boot => t.boot = s.boot
  | .sup => t.sup = s.sup
  | .clk => t.clk = s.clk
  | .sec => t.sec = s.sec
  | .err => t.err = s.err
  | .freeCtr => t.freeCtr = s.freeCtr
  | .uart => t.uart = s.uart
  | .now => t.now = s.now
  | .elapsed => t.elapsed = s.elapsed
  | .time => t.time = s.time
  | .lanes => t.lanes = s.lanes
  | .rx => t.rx = s.rx
  | .ports => t.ports = s.ports
  | .berths => t.berths = s.berths
  | .rank => t.rank = s.rank
  | .eng => t.eng = s.eng
  | .comp => t.comp = s.comp
  | .mod => t.mod = s.mod
  | .cmod => t.cmod = s.cmod
  | .gate => t.gate = s.gate
  | .safe => t.safe = s.safe
  | .adc => t.adc = s.adc
  | .twin => t.twin = s.twin
  | .refLinks => t.refLinks = s.refLinks
  | .refPairs => t.refPairs = s.refPairs
  | .sch => t.sch = s.sch
  | .memErr => t.memErr = s.memErr
  | .arb => t.arb = s.arb
  | .bb => t.bb = s.bb
  | .mon => t.mon = s.mon
  | .recd => t.recd = s.recd
  | .stn => t.stn = s.stn
  | .pending => t.pending = s.pending
  | .mem => ∀ a, (a < 0x30000000 ∨ 0x30040000 ≤ a) → t.byte a = s.byte a
  | .box => ∀ a, 0x30000000 ≤ a → a < 0x30040000 → t.byte a = s.byte a

/-- At most the parts `ps` and the registers `rs` differ. -/
def Frame (ps : List Part) (rs : List Nat) (s t : State) : Prop := (∀ p, p ∉ ps → p.same s t) ∧ KeepsRegs rs s t

/-- The lifetime counters. -/
def ltRegs : List Nat := (List.range 12).map (R.LT_CNT_HI 0) ++ (List.range 12).map (R.LT_CNT_LO 0)

/-- The registers an NMI of the supervisors writes. -/
def nmiRegs : List Nat :=
  [R.CPU_NMI] ++ (List.range 2).map R.CPU_NMICAUSE ++ (List.range 2).map R.CPU_NMIEPC ++ (List.range 2).map R.CPU_NMIST

/-- The registers an error record can write: its counters and events, the freeze of the black box, the NMI it raises. -/
def errRegs : List Nat :=
  [R.ERR_CNT, R.ERR_OVF, R.ERR_STAT, R.REF_HFAIL, R.REC_BBSTAT, R.PG_EVT Pg.ERR, R.PG_EVT Pg.REC] ++ nmiRegs

/-- The counters of received station frames. -/
def rxRegs : List Nat := (List.range 2).map R.STN_PDUP ++ (List.range 2).map R.STN_PERR ++ (List.range 2).map R.STN_PRX

/-- The registers an access to register `reg` of page `pg` can write besides the effects of the value. -/
def accessRegs (pg reg : Nat) : List Nat :=
  [reg, R.PG_STAT pg, R.PG_EVT pg, R.PG_GUARD pg, R.CPU_FAULT, R.CPU_FAULT_ADDR]

/-- Command `c` changes at most the parts `ps` and the registers `rs`, beyond what the hardwired logic then forces. -/
def Changes (c : Instr) (ps : List Part) (rs : List Nat) : Prop :=
  ∀ s, ∃ u, Frame ps rs s u ∧ (exec c s = .next u ∨ exec c s = .next u.settle)

/-- The memory list in its canonical form: addresses strictly rising, no entry equal to what an unlisted address reads. -/
def Memory.wf (m : List Host.Cell) : Bool := kvSorted m && m.all fun e => e.2 != State.blankByte e.1

namespace State

/-- The hardwired logic has nothing left to do: what it forces is in force. Every command leaves a settled state. -/
abbrev Settled (s : State) : Prop := s.settle = s

/-- Does a write to page `pg` on `path` reach a block that takes commands (R77, R78, R81): the path open, the page present,
its gate open? -/
abbrev Reaches (s : State) (path : Path) (pg : Nat) : Prop :=
  s.pathOpen path = true ∧ present s.role pg = true ∧ s.gated pg = false

/-- Is `fr` a frame of the twin link of type `t` with body `body` that its lanes take (R208) and that passes the checks of R538: CRC, length, tag (zeros in a
KX), and but for a KX a sequence number above the last accepted? -/
abbrev TwinFrameOk (s : State) (t : Nat) (fr body : List Byte) : Prop :=
  s.laneHears 4 = true ∧ s.laneHears 5 = true ∧
  crcBytes (fr.take (fr.length - 4)) = fr.drop (fr.length - 4) ∧ (nth fr 0 0).toNat = t ∧ 1 ≤ t ∧ t ≤ 5 ∧
  fr.length = body.length + 21 ∧ ofBe ((fr.drop 1).take 2) = body.length ∧ twinLenOk t body.length = true ∧
  (fr.drop 9).take body.length = body ∧
  (if t = 1 then (fr.drop (9 + body.length)).take 8 = List.replicate 8 0
   else (s.twin.link.rx.map fun k => gmac k (s.twinIv (1 - s.side) (ofBe ((fr.drop 3).take 6))) (fr.take (9 + body.length)))
       = some ((fr.drop (9 + body.length)).take 8) ∧
     (s.twin.link.rxSeq.all fun r => decide (r < ofBe ((fr.drop 3).take 6))) = true)

/-- Is `f` a frame that its station port takes (R650): link up, lane receiving, size, FCS, code and address sound, no redundancy trailer, its
time not ahead of the present one? -/
abbrev EthTaken (s : State) (f : EthRx) : Prop :=
  f.port < 2 ∧ s.linkUp f.port = true ∧ s.laneHears (6 + f.port) = true ∧ (f.port = 1 → s.is F.STN_CFG_PRP = true) ∧ f.body.length ≤ 1504 ∧
  f.time ≤ s.now ∧ f.fcsOk = true ∧ f.codeOk = true ∧ s.addressed f = true ∧ f.rct = none

/-- A cell keeps its switches off, reports block and holds no DB while the permanent bypass is on; while a fault is latched
it is blocked without DB, each leg off or at its safe level; while block forcing is in effect it is blocked without DB
(R471, R478, R479, R519, R521, R687). -/
abbrev CellSafe (s : State) : Prop :=
  s.isCell = true →
    ((s.gate.pbyp = true ∨ s.gate.latch ≠ 0 ∨ s.blkForced = true) →
      s.gate.state = .block ∧ s.gate.blocked = true ∧ s.safe.db = false) ∧
    ((s.gate.pbyp = true ∨ (s.gate.latch = 0 ∧ s.blkForced = true)) → s.gate.legA = .off ∧ s.gate.legB = .off) ∧
    (s.gate.pbyp = false → s.gate.latch ≠ 0 →
      (s.gate.legA = .off ∨ s.gate.legA = s.safeLeg false) ∧ (s.gate.legB = .off ∨ s.gate.legB = s.safeLeg true))

/-- A hub's valve is deblocked only with no source latched, BREQ 0, and the hub driving (R512, R513, R529, R530). -/
abbrev HubSafe (s : State) : Prop :=
  s.isHub = true → s.safe.vb = true → s.safe.alatch = 0 ∧ s.safe.breq = false ∧ s.hubDrives = true

end State

end Sys2Proof.Machine
end

