-- ==== Sys2Proof/Certificates/Slice0/Obligations.lean ====
section
/-! DEFINITION. The statements for the provers. `Yields c s P` says that command `c` answers a next state satisfying
`P`; registers, fields and pages have the names of the register map; `Settled` states are those that every step leaves. -/

open Sys2Proof Sys2Proof.Machine Sys2Proof.Machine.State

/-- The state after a power-on reset: held in reset with no role read, SYS_RST_CAUSE holding POR alone (its COUNT of 0
is the model's choice, log 10), every other register at its reset value, no memory written (unlisted flash reads
0xFF, log 4), nothing waiting. PG_CTRL.EN is 1 on the infrastructure pages alone (R64, R68). The invariants of the
statements about steps hold there. -/
def Obligations.ResetLeaves : Prop :=
  (State.reset.phase = .held ∧ State.reset.role = .none ∧ State.reset.reg R.SYS_RST_CAUSE = 1 ∧ State.reset.pending
    = []) ∧
  (∀ (a : Nat), a ≠ R.SYS_RST_CAUSE → State.reset.reg a = resetWord .none a ∧ State.reset.byte a = blankByte a) ∧
  (∀ (pg : Nat), pg < 48 → State.reset.is (F.PG_CTRL_EN pg) = infra pg) ∧
  (State.reset.CellSafe ∧ State.reset.HubSafe ∧ State.reset.Settled ∧ Memory.wf State.reset.mem = true)

/-- The commands wait first in, first out: a step with `c` in front is `c` executed on the state with the rest of the
queue; with none waiting, one idle tick (log 1). -/
def Obligations.StepTakesFront : Prop :=
  (∀ (s : State) (c : Instr) (rest : List Instr), s.pending = c :: rest → step s = exec c
    { s with pending := rest }) ∧
  (∀ (s : State), s.pending = [] → step s = .next s.idle)

/-- A rail below its threshold is a power-on reset: the part is held, the cause record holds POR alone (COUNT: log
10), OTP and flash stay, every other memory is cleared. nRST low keeps recorder memory too, with what R129 lists.
The part leaves reset for the ROLE reading when no source holds it. Equal readings low, high, mid of the two phases
are the strap codes 0, 1, 2 for cell, hub, referee; anything else, and a hub strap in a grade C part, is role fault,
shown in SYS_ROLE and the cause record. -/
def Obligations.SupplyCommands : Prop :=
  (∀ (s : State), Yields .powerOnReset s fun t => t.phase = .held ∧ t.role = .none ∧ t.pins =
    { s.pins with rails := false } ∧ t.reg R.SYS_RST_CAUSE = 1 ∧ t.gate.pbyp = false ∧ t.pending = s.pending) ∧
  (∀ (s : State) (a : Nat), a ≠ R.SYS_RST_CAUSE → Yields .powerOnReset s fun t => t.reg a = resetWord .none a ∧
    t.byte a = if 0x50000000 ≤ a ∧ a < 0x61000000 then s.byte a else blankByte a) ∧
  (∀ (s : State), Yields .vddioBelow1v2 s fun t => t.phase = .held ∧ t.role = .none ∧ t.pins =
    { s.pins with rails := false, vddio := false } ∧ t.reg R.SYS_RST_CAUSE = 1 ∧ t.pending = s.pending) ∧
  (∀ (s : State), s.Settled → exec .vddioAbove1v2 s = .next { s with pins := { s.pins with vddio := true } }) ∧
  (∀ (s : State), s.pins.vddio = true → s.pins.rails = false → Yields .supplyMonitorRelease s fun t => t.pins =
    { s.pins with rails := true } ∧ t.regs = s.regs ∧ t.mem = s.mem ∧ t.phase = if s.pins.nRst && s.phase == .held
    then .pullUp else s.phase) ∧
  (∀ (s : State), s.pins.nRst = true → s.phase ≠ .held → Yields .nrstAssert s fun t => t.phase = .held ∧ t.role =
    .none ∧ t.pins = { s.pins with nRst := false } ∧ t.get ⟨R.SYS_RST_CAUSE, 1, 1⟩ = 1 ∧ t.get F.SYS_RST_CAUSE_LAST
    = 1 ∧ t.get F.SYS_RST_CAUSE_COUNT = satAdd 16 (s.get F.SYS_RST_CAUSE_COUNT) 1 ∧ t.err.log = s.err.log ∧
    t.gate.pbyp = s.gate.pbyp ∧ t.pending = s.pending) ∧
  (∀ (s : State) (a : Nat), s.pins.nRst = true → s.phase ≠ .held → a ≠ R.SYS_RST_CAUSE → Yields .nrstAssert s fun t
    => t.reg a = (if keptReg a then s.reg a else resetWord .none a) ∧ t.byte a = if keptMem a then s.byte a else
    blankByte a) ∧
  (∀ (s : State), s.pins.nRst = false → Yields .nrstRelease s fun t => t.pins = { s.pins with nRst := true } ∧
    t.regs = s.regs ∧ t.mem = s.mem ∧ t.phase = if s.pins.rails && s.pins.vddio && s.phase == .held then .pullUp
    else s.phase) ∧
  (∀ (s : State) (band : RoleBand), s.Settled → s.phase = .pullUp → exec (.rolePullupRead band) s = .next
    { s with pins := { s.pins with roleUp := band }, phase := .pullDown }) ∧
  (∀ (s : State) (band : RoleBand) (fl : Bool) (hf : Nat), s.phase = .pullDown → (strapOf s.pins.roleUp band = 3 ∨
    (s.grade = .c ∧ strapOf s.pins.roleUp band = 1)) → Yields (.rolePulldownRead band fl hf) s fun t => t.role =
    .fault ∧ t.phase = .roleFault ∧ t.get F.SYS_ROLE_STRAP = strapOf s.pins.roleUp band ∧ t.get F.SYS_ROLE_ROLE = 3
    ∧ t.get F.SYS_ROLE_FAULT = 1 ∧ t.get F.SYS_RST_CAUSE_ROLEF = 1 ∧ t.get F.SYS_RST_CAUSE_LAST = 3) ∧
  (∀ (s : State) (band : RoleBand) (fl : Bool) (hf : Nat), s.phase = .pullDown → strapOf s.pins.roleUp band < 3 → ¬
    (s.grade = .c ∧ strapOf s.pins.roleUp band = 1) → Yields (.rolePulldownRead band fl hf) s fun t => t.role =
    roleOf (strapOf s.pins.roleUp band) ∧ t.get F.SYS_ROLE_STRAP = strapOf s.pins.roleUp band ∧ t.get
    F.SYS_ROLE_ROLE = strapOf s.pins.roleUp band ∧ (t.phase = .rom ∨ t.phase = .recovery) ∧ t.boot.flash = fl)

/-- The container being loaded boots when it passes the tests of R142 in order; the first test it fails goes to
BOOT_REJ and the other slot is tried once. BOOT_CTL.RETRY, in the recovery of a hub or referee with flash and an
identity record, loads again: BOOT_REJ shows each slot's header failure, or 15 for a slot not yet tried, and the
cause record stays. A whole tree container boots a cell when it passes, and otherwise its failure is kept. First
ownership runs the first of the two slots whose owner test passes. An owner change needs the press held since reset
and the open seal, and ends with the active owner slot revoked. -/
def Obligations.RomCommands : Prop :=
  (∀ (s : State) (i : Nat), s.phase = .rom → s.boot.ownerChange = false → s.boot.trying = some i → i < 2 →
    s.containerWhy (s.slotImage i) s.flashOwner = 0 → Yields .containerCheck s fun t => t.get (if i = 0 then
    F.BOOT_REJ_REJA else F.BOOT_REJ_REJB) = 0 ∧ t.phase = .running ∧ t.get F.BOOT_STAT_SRC = (if s.isCell then 3 + i
    else i) ∧ t.sup.pc = BitVec.ofNat 32 (imgNum (s.slotImage i) 0x20 4)) ∧
  (∀ (s : State) (i : Nat), s.phase = .rom → s.boot.ownerChange = false → s.boot.trying = some i → i < 2 →
    s.containerWhy (s.slotImage i) s.flashOwner ≠ 0 → (1 - i) ∉ s.boot.tried → Yields .containerCheck s fun t =>
    t.get (if i = 0 then F.BOOT_REJ_REJA else F.BOOT_REJ_REJB) = s.containerWhy (s.slotImage i) s.flashOwner ∧
    t.phase = .rom ∧ t.boot.trying = some (1 - i)) ∧
  (∀ (s : State) (i : Nat), s.phase = .rom → s.boot.ownerChange = false → s.boot.trying = some i → i < 2 →
    s.containerWhy (s.slotImage i) s.flashOwner ≠ 0 → (1 - i) ∈ s.boot.tried → Yields .containerCheck s fun t =>
    t.get (if i = 0 then F.BOOT_REJ_REJA else F.BOOT_REJ_REJB) = s.containerWhy (s.slotImage i) s.flashOwner ∧
    t.phase = (if s.isCell then .rom else .recovery) ∧ t.boot.trying = none) ∧
  (∀ (s : State), s.phase = .recovery → s.isCell = false → s.boot.flash = true → s.idRecord.isSome = true → Yields
    .bootRetry s fun t => t.phase = .rom ∧ t.boot.trying.isSome = true ∧ t.get F.BOOT_REJ_REJA = (if s.headerWhy
    (s.slotHeader 0) s.flashOwner = 0 then 15 else s.headerWhy (s.slotHeader 0) s.flashOwner) ∧ t.get
    F.BOOT_REJ_REJB = (if s.headerWhy (s.slotHeader 1) s.flashOwner = 0 then 15 else s.headerWhy (s.slotHeader 1)
    s.flashOwner) ∧ t.reg R.SYS_RST_CAUSE = s.reg R.SYS_RST_CAUSE) ∧
  (∀ (s : State) (c : List Byte), s.phase = .rom → s.isCell = true → s.boot.treeBoot = true → s.boot.treeWhy = 0 →
    s.boot.ownerChange = false → s.idFailed = false → s.treeImage 0 = some c → s.containerWhy c (s.treeKey 0) ≠ 0 →
    Yields .treeContainerComplete s fun t => t.phase = .rom ∧ t.boot.treeWhy = s.containerWhy c (s.treeKey 0)) ∧
  (∀ (s : State) (c : List Byte), s.phase = .rom → s.isCell = true → s.boot.treeBoot = true → s.boot.treeWhy = 0 →
    s.boot.ownerChange = false → s.idFailed = false → s.treeImage 0 = some c → s.containerWhy c (s.treeKey 0) = 0 →
    Yields .treeContainerComplete s fun t => t.phase = .running ∧ t.get F.BOOT_STAT_SRC = 2 ∧ t.sup.pc =
    BitVec.ofNat 32 (imgNum c 0x20 4)) ∧
  (∀ (s : State) (i : Nat), (s.phase = .recovery ∨ (s.phase = .rom ∧ s.isCell = true)) → s.boot.flash = true →
    s.idFailed = false → s.boot.ownerChange = false → s.activeSlot = none → s.unusedSlot.isSome = true →
    s.sec.presOpen = true → i < 2 → s.ownerTest i = some 0 → (i = 0 ∨ s.ownerTest 0 ≠ some 0) → Yields
    .firstOwnership s fun t => t.phase = .running ∧ t.get F.BOOT_STAT_SRC = (if s.isCell then 3 + i else i) ∧
    t.sup.pc = BitVec.ofNat 32 (imgNum (s.slotImage i) 0x20 4)) ∧
  (∀ (s : State), s.Settled → s.inRom = true → s.boot.presHeld = true → s.pins.presence = false → s.sec.sealOpen =
    some true → exec .ownerChangeEntry s = .next { s with boot := { s.boot with ownerChange := true } }) ∧
  (∀ (s : State), s.inRom = true → s.boot.ownerChange = true → s.pins.presence = false → s.sec.sealOpen = some true
    → Yields .ownerRevoke s fun t => t.boot.ownerChange = false ∧ t.sec.presOpen = true ∧ t.sec.sealOpen = some true
    ∧ s.activeSlot.all t.ownerRevoked = true)

/-- A claim answers the line that CPU_ECLAIM gives, 0xFF for none, and holds it until its number is written back;
NMI_RET restores pc and mstatus of its level (with nothing pending); a kick is two keys and sets the first stage's
end again, any other word is a bad kick; the first stage is an error of class 2 with the NMI cause of the watchdog
(while no SAFETY class is handled), the second a reset; a reset by software or by a clock failure restarts the part
with its cause recorded, its role, the error log and the permanent bypass kept; another word does nothing. -/
def Obligations.SupervisorCommands : Prop :=
  (∀ (s : State), s.Settled → s.supOn = true → exec .cpuEclaimClaim s = .next
    (match s.claimLine with | some n => { s with sup := { s.sup with claimed := n :: s.sup.claimed }, resp := ⟨Code.ok, [BitVec.ofNat 32 n]⟩ } | none => { s with resp := ⟨Code.ok, [0xFF]⟩ })) ∧
  (∀ (s : State) (data : Word), s.Settled → s.supOn = true → exec (.cpuEclaimComplete data) s = .next
    { s with sup := { s.sup with claimed := s.sup.claimed.filter (· != data.toNat) }, resp := ⟨Code.ok, []⟩ }) ∧
  (∀ (s : State) (l : Nat), s.supOn = true → s.get F.CPU_NMI_LEVEL = l + 1 → l < 2 → s.get F.CPU_NMI_PEND = 0 →
    Yields .nmiRet s fun t => t.sup.pc = s.reg (R.CPU_NMIEPC l) ∧ t.sup.mstatus = s.reg (R.CPU_NMIST l) ∧ t.get
    F.CPU_NMI_LEVEL = l ∧ t.sup.nmiCause = s.sup.nmiCause.tail) ∧
  (∀ (s : State), s.supOn = true → Yields (.wdtKick 0xA5C3) s fun t => t.sup = { s.sup with kickHeld := true } ∧
    t.get F.CPU_WDT_STAT_BADKICK = s.get F.CPU_WDT_STAT_BADKICK) ∧
  (∀ (s : State), s.supOn = true → s.sup.kickHeld = true → Yields (.wdtKick 0x3C5A) s fun t => t.sup.kickHeld =
    false ∧ t.sup.wdtEnd = s.elapsed + max 1 (s.get F.CPU_WDT_CTL_TO) * unitsPerMs ∧ t.get F.CPU_WDT_STAT_STAGE2 = 0
    ∧ t.get F.CPU_WDT_STAT_BADKICK = s.get F.CPU_WDT_STAT_BADKICK) ∧
  (∀ (s : State) (data : Word), s.supOn = true → data ≠ 0xA5C3 → (data ≠ 0x3C5A ∨ s.sup.kickHeld = false) → Yields
    (.wdtKick data) s fun t => t.sup = { s.sup with kickHeld := false } ∧ t.get F.CPU_WDT_STAT_BADKICK = satAdd
    F.CPU_WDT_STAT_BADKICK.w (s.get F.CPU_WDT_STAT_BADKICK) 1) ∧
  (∀ (s : State), s.wdtRuns = true → s.get F.CPU_WDT_STAT_STAGE2 = 0 → s.handled < 3 → Yields .wdtFirstStage s fun t
    => t.get F.CPU_WDT_STAT_STAGE2 = 1 ∧ t.get (errCnt 2) = satAdd 8 (s.get (errCnt 2)) 1 ∧ bitOf (t.get
    F.CPU_NMI_CAUSE) 3 = true) ∧
  (∀ (s : State), s.wdtRuns = true → s.get F.CPU_WDT_STAT_STAGE2 = 1 → Yields .wdtSecondStage s fun t => t.get
    ⟨R.SYS_RST_CAUSE, 2, 1⟩ = 1 ∧ t.get F.SYS_RST_CAUSE_LAST = 2 ∧ t.get F.SYS_RST_CAUSE_COUNT = satAdd 16 (s.get
    F.SYS_RST_CAUSE_COUNT) 1 ∧ (t.phase = .rom ∨ t.phase = .recovery) ∧ t.role = s.role ∧ t.err.log = s.err.log ∧
    t.gate.pbyp = s.gate.pbyp) ∧
  (∀ (s : State), s.supOn = true → Yields (.softwareReset 0xB007) s fun t => t.get ⟨R.SYS_RST_CAUSE, 5, 1⟩ = 1 ∧
    t.get F.SYS_RST_CAUSE_LAST = 5 ∧ t.get F.SYS_RST_CAUSE_COUNT = satAdd 16 (s.get F.SYS_RST_CAUSE_COUNT) 1 ∧
    (t.phase = .rom ∨ t.phase = .recovery) ∧ t.role = s.role ∧ t.err.log = s.err.log ∧ t.gate.pbyp = s.gate.pbyp) ∧
  (∀ (s : State) (data : Word), s.Settled → data ≠ 0xB007 → exec (.softwareReset data) s = .next s) ∧
  (∀ (s : State), s.alive = true → Yields .clockFailureReset s fun t => t.get ⟨R.SYS_RST_CAUSE, 4, 1⟩ = 1 ∧ t.get
    F.SYS_RST_CAUSE_LAST = 4 ∧ t.get F.SYS_RST_CAUSE_COUNT = satAdd 16 (s.get F.SYS_RST_CAUSE_COUNT) 1 ∧ (t.phase =
    .rom ∨ t.phase = .recovery) ∧ t.role = s.role ∧ t.err.log = s.err.log ∧ t.gate.pbyp = s.gate.pbyp)

/-- A write of CLK_DOMn: a divider at or above the one in use takes effect at once; a lower one is reached by a ramp;
a new source starts at the greater of the target and DIV_0; behind a running ramp the request is latched. Each ramp
step lowers the divider by one and RAMP falls at the target, raising RAMP_DONE (bit 10). A forced switch is flagged
(bit 9). The gate of a page closes at the handshake, not while its block holds the lock of state memory, or at
CLK_GATETO, when an access still unserved answers ABORTED and such a lock is broken; the block of an enabled page
resumes. -/
def Obligations.ClockDomains : Prop :=
  (∀ (s : State) (path : Path) (dom : Nat) (data : Word), s.Reaches path Pg.CLK → dom < 4 → s.get (F.CLK_DOM_RAMP
    dom) = 0 → getBits data 0 2 = s.get (F.CLK_DOM_CURSRC dom) → getBits data 0 2 < 2 → getBits data 8 8 ≠ 0 → s.get
    (F.CLK_DOM_CUR dom) ≤ getBits data 8 8 → Yields (.clkDomWrite path dom data) s fun t => t.get (F.CLK_DOM_SRC
    dom) = getBits data 0 2 ∧ t.get (F.CLK_DOM_DIV dom) = getBits data 8 8 ∧ t.get (F.CLK_DOM_CUR dom) = getBits
    data 8 8 ∧ t.get (F.CLK_DOM_RAMP dom) = 0 ∧ t.resp = ⟨Code.ok, []⟩) ∧
  (∀ (s : State) (path : Path) (dom : Nat) (data : Word), s.Reaches path Pg.CLK → dom < 4 → s.get (F.CLK_DOM_RAMP
    dom) = 0 → getBits data 0 2 = s.get (F.CLK_DOM_CURSRC dom) → getBits data 0 2 < 2 → getBits data 8 8 ≠ 0 →
    getBits data 8 8 < s.get (F.CLK_DOM_CUR dom) → Yields (.clkDomWrite path dom data) s fun t => t.get
    (F.CLK_DOM_DIV dom) = getBits data 8 8 ∧ t.get (F.CLK_DOM_CUR dom) = s.get (F.CLK_DOM_CUR dom) ∧ t.get
    (F.CLK_DOM_RAMP dom) = 1 ∧ t.resp = ⟨Code.ok, []⟩) ∧
  (∀ (s : State) (path : Path) (dom : Nat) (data : Word), s.Reaches path Pg.CLK → dom < 4 → s.get (F.CLK_DOM_RAMP
    dom) = 0 → getBits data 0 2 ≠ s.get (F.CLK_DOM_CURSRC dom) → getBits data 0 2 < 2 → getBits data 8 8 ≠ 0 →
    s.div0 dom (getBits data 0 2) < 256 → Yields (.clkDomWrite path dom data) s fun t => t.get (F.CLK_DOM_SRC dom) =
    getBits data 0 2 ∧ t.get (F.CLK_DOM_CURSRC dom) = getBits data 0 2 ∧ t.get (F.CLK_DOM_CUR dom) = max (getBits
    data 8 8) (s.div0 dom (getBits data 0 2))) ∧
  (∀ (s : State) (path : Path) (dom : Nat) (data : Word), s.Reaches path Pg.CLK → dom < 4 → s.get (F.CLK_DOM_RAMP
    dom) = 1 → getBits data 0 2 < 2 → getBits data 8 8 ≠ 0 → Yields (.clkDomWrite path dom data) s fun t => t.get
    (F.CLK_DOM_LATCHED dom) = 1 ∧ nth t.clk.latched dom none = some (getBits data 0 2, getBits data 8 8) ∧ t.get
    (F.CLK_DOM_CUR dom) = s.get (F.CLK_DOM_CUR dom) ∧ t.get (F.CLK_DOM_RAMP dom) = 1) ∧
  (∀ (s : State) (dom : Nat), s.alive = true → dom < 4 → s.get (F.CLK_DOM_RAMP dom) = 1 → s.get (F.CLK_DOM_DIV dom)
    + 1 < s.get (F.CLK_DOM_CUR dom) → Yields (.rampStep dom) s fun t => t.get (F.CLK_DOM_CUR dom) = s.get
    (F.CLK_DOM_CUR dom) - 1 ∧ t.get (F.CLK_DOM_RAMP dom) = 1) ∧
  (∀ (s : State) (dom : Nat), s.alive = true → dom < 4 → s.get (F.CLK_DOM_RAMP dom) = 1 → s.get (F.CLK_DOM_DIV dom)
    + 1 = s.get (F.CLK_DOM_CUR dom) → nth s.clk.latched dom none = none → Yields (.rampStep dom) s fun t => t.get
    (F.CLK_DOM_CUR dom) = s.get (F.CLK_DOM_DIV dom) ∧ t.get (F.CLK_DOM_RAMP dom) = 0 ∧ bitOf (t.reg (R.PG_EVT
    Pg.CLK)).toNat 10 = true) ∧
  (∀ (s : State) (dom : Nat), s.Settled → s.alive = true → dom < 4 → Yields (.forcedSwitch dom) s fun t => t.get
    F.CLK_FAIL_FORCED = s.get F.CLK_FAIL_FORCED ||| 1 <<< dom ∧ bitOf (t.reg (R.PG_EVT Pg.CLK)).toNat 9 = true ∧
    KeepsRegs [R.CLK_FAIL, R.PG_EVT Pg.CLK] s t ∧ KeepsMem s t ∧ t = { s with regs := t.regs, recd := t.recd }) ∧
  (∀ (s : State) (page : Nat), s.alive = true → s.clk.gating.contains page = true → s.lockOwner page = false →
    Yields (.gateHandshake page) s fun t => page ∉ t.clk.gating ∧ t.get (F.PG_STAT_RUN page) = 0) ∧
  (∀ (s : State) (page : Nat), s.alive = true → s.lockOwner page = true → exec (.gateHandshake page) s = .next s) ∧
  (∀ (s : State) (page : Nat), s.alive = true → s.clk.gating.contains page = true → s.lockOwner page = true → Yields
    (.gateTimeout ⟨page, none⟩) s fun t => page ∉ t.clk.gating ∧ t.get F.MEM_STAT_LOCKED = 0 ∧ t.get F.MEM_LB_CAUSE
    = 1 ∧ t.get F.MEM_LB_OWNER = s.get F.MEM_STAT_OWNER) ∧
  (∀ (s : State) (page : Nat) (path : Path) (o : Nat), s.alive = true → s.clk.gating.contains page = true → o < 1024
    → present s.role page = true → Yields (.gateTimeout ⟨page, some ⟨path, page * 0x400 + o, none⟩⟩) s fun t => page
    ∉ t.clk.gating ∧ t.get (F.PG_STAT_RUN page) = 0 ∧ t.get (F.PG_STAT_ERR page) = 1 ∧ bitOf (t.reg (R.PG_EVT
    page)).toNat 3 = true ∧ t.resp = ⟨Code.aborted, [0]⟩) ∧
  (∀ (s : State) (page : Nat), s.Settled → s.alive = true → s.clk.gating.contains page = true → s.lockOwner page =
    false → Yields (.gateTimeout ⟨page, none⟩) s fun t => page ∉ t.clk.gating ∧ t.get (F.PG_STAT_RUN page) = 0 ∧
    KeepsRegs [R.PG_STAT page] s t ∧ t.resp = s.resp) ∧
  (∀ (s : State) (page : Nat), s.Settled → s.alive = true → page < 48 → s.enabled page = true → infra page = false →
    s.clk.gating.contains page = false → exec (.ungate page) s = .next (s.set (F.PG_STAT_RUN page) 1))

/-- A monitor window within tolerance counts as good, one outside it fails the source (XOSC: once it is ready), and so
does a source without an edge; a failed SPLL leaves no domain fed by it (R113 moves them to IRC); with a reference
the IRC trim moves one step against a large error (a higher TRIM is read as a higher frequency: DEDUCED, log 8),
stays without AUTO or within 250 ppm, and at its limit raises IRC_DRIFT (bit 13); SYS_SPEED shows mean, slowest ring
and its number; XOSC becomes ready with its first window within tolerance; the SPLL locks. -/
def Obligations.ClockSources : Prop :=
  (∀ (s : State) (m count : Nat), s.alive = true → m < 5 → s.judged m = true → s.withinTol m count = true → count <
    4096 → Yields (.clockMonitorWindow m count) s fun t => t.get (F.CLK_MON_STAT_COUNT m) = count ∧ t.get
    (F.CLK_MON_STAT_GOOD m) = min 15 (nth s.clk.good m 0 + 1)) ∧
  (∀ (s : State) (m count : Nat), s.alive = true → m < 5 → s.judged m = true → s.withinTol m count = false → count <
    4096 → (m ≠ 0 ∨ s.clk.xoscReady = true) → Yields (.clockMonitorWindow m count) s fun t => t.get
    (F.CLK_MON_STAT_COUNT m) = count ∧ t.get (F.CLK_MON_STAT_GOOD m) = 0 ∧ t.get (F.CLK_MON_STAT_FAIL m) = 1) ∧
  (∀ (s : State) (m : Nat), s.alive = true → m < 5 → s.judged m = true → s.get (F.CLK_MON_STAT_FAIL m) = 0 → Yields
    (.sourceNoEdge m) s fun t => t.get (F.CLK_MON_STAT_FAIL m) = 1 ∧ bitOf (t.get F.CLK_FAIL_SRCF) m = true ∧ bitOf
    (t.reg (R.PG_EVT Pg.CLK)).toNat 8 = true) ∧
  (∀ (s : State) (n : Nat), s.alive = true → s.is F.CLK_SRC_SPLL_EN = true → s.get (F.CLK_MON_STAT_FAIL 4) = 0 → n <
    4 → s.get (F.CLK_DOM_CURSRC n) = 1 → Yields (.sourceNoEdge 4) s fun t => t.get (F.CLK_DOM_CURSRC n) = 0) ∧
  (∀ (s : State), s.alive = true → Yields (.spllUnlock 4) s fun t => t.get F.CLK_SPLL_STAT_LOCK = 0 ∧ t.get
    F.CLK_SPLL_STAT_UNLOCKS = satAdd F.CLK_SPLL_STAT_UNLOCKS.w (s.get F.CLK_SPLL_STAT_UNLOCKS) 1 ∧ t.get
    (F.CLK_MON_STAT_FAIL 4) = 1) ∧
  (∀ (s : State) (ppb : Int), s.alive = true → s.runs Pg.CLK = true → s.ircReference = true → s.is F.CLK_IRC_AUTO =
    true → 0 < s.get F.CLK_IRC_TRIM → s.get F.CLK_IRC_TRIM < 255 → 250000 < ppb.natAbs → Yields (.ircMeasurement
    ppb) s fun t => t.reg R.CLK_IRC_MEAS = BitVec.ofInt 32 ppb ∧ t.get F.CLK_IRC_TRIM = if 0 < ppb then s.get
    F.CLK_IRC_TRIM - 1 else s.get F.CLK_IRC_TRIM + 1) ∧
  (∀ (s : State) (ppb : Int), s.alive = true → s.runs Pg.CLK = true → s.ircReference = true → (s.is F.CLK_IRC_AUTO =
    false ∨ ppb.natAbs ≤ 250000) → Yields (.ircMeasurement ppb) s fun t => t.reg R.CLK_IRC_MEAS = BitVec.ofInt 32
    ppb ∧ t.get F.CLK_IRC_TRIM = s.get F.CLK_IRC_TRIM) ∧
  (∀ (s : State) (ppb : Int), s.alive = true → s.runs Pg.CLK = true → s.ircReference = true → s.is F.CLK_IRC_AUTO =
    true → s.get F.CLK_IRC_TRIM = 255 → ppb < -250000 → Yields (.ircMeasurement ppb) s fun t => t.reg R.CLK_IRC_MEAS
    = BitVec.ofInt 32 ppb ∧ t.get F.CLK_IRC_TRIM = 255 ∧ t.get F.CLK_FAIL_IRCD = 1 ∧ bitOf (t.reg (R.PG_EVT
    Pg.CLK)).toNat 13 = true) ∧
  (∀ (s : State) (rings : List Nat), s.alive = true → rings.length = 8 → (∀ r ∈ rings, r < 4096) → Yields
    (.speedCount rings) s fun t => t.get F.SYS_SPEED_IDX = rings.sum / 8 ∧ t.get F.SYS_SPEED_SLOW ∈ rings ∧ (∀ r ∈
    rings, t.get F.SYS_SPEED_SLOW ≤ r) ∧ nth rings (t.get F.SYS_SPEED_RING) 0 = t.get F.SYS_SPEED_SLOW) ∧
  (∀ (s : State) (count : Nat), s.alive = true → s.isCell = false → s.is F.CLK_SRC_XOSC_EN = true → s.withinTol 0
    count = true → s.clk.xoscReady = false → Yields (.xoscStartupEnd count) s fun t => t.clk.xoscReady = true ∧
    t.clk.xoscQuiet = false ∧ bitOf (t.reg (R.PG_EVT Pg.CLK)).toNat 14 = true) ∧
  (∀ (s : State), s.Settled → s.alive = true → s.is F.CLK_SRC_SPLL_EN = true → exec .spllLock s = .next (s.set
    F.CLK_SPLL_STAT_LOCK 1))

/-- RW fields take their bits and nothing else changes (CLK_SPDLIM); a W1C register keeps the bits where the word is 0
(PG_EVT); a guarded register (SEC_PEER_LOn) takes the word with the guard open and otherwise answers GUARDED, the
register as before; a static register of an enabled SPLL answers STATIC with the event of R75 (bit 0); a read-only
register of a gated page answers GATED; a masked write merges. A write of a page that is not decoded answers
UNMAPPED, of a page the role lacks ABSENT, of fewer than four bytes SIZE, off a word boundary ALIGN, in this order,
and changes no register but the error marks of the page. -/
def Obligations.FieldKinds : Prop :=
  (∀ (s : State) (path : Path) (data : Word), s.Settled → s.Reaches path Pg.CLK → Yields (.registerWrite path 4
    R.CLK_SPDLIM data) s fun t => t.get F.CLK_SPDLIM_LIMIT = getBits data 0 12 ∧ t.get F.CLK_SPDLIM_HYST = getBits
    data 16 8 ∧ KeepsRegs [R.CLK_SPDLIM] s t ∧ KeepsMem s t ∧ t = { s with regs := t.regs, resp := ⟨Code.ok, []⟩ }) ∧
  (∀ (s : State) (path : Path) (mask data : Word), s.Settled → s.Reaches path Pg.CLK → Yields (.maskedWrite path
    R.CLK_SPDLIM mask data) s fun t => t.get F.CLK_SPDLIM_LIMIT = getBits ((s.reg R.CLK_SPDLIM &&& ~~~mask) |||
    (data &&& mask)) 0 12 ∧ KeepsRegs [R.CLK_SPDLIM] s t ∧ KeepsMem s t ∧ t =
    { s with regs := t.regs, resp := ⟨Code.ok, []⟩ }) ∧
  (∀ (s : State) (path : Path) (pg : Nat) (data : Word), s.Settled → s.pathOpen path = true → pg < 0x30 → present
    s.role pg = true → Yields (.registerWrite path 4 (R.PG_EVT pg) data) s fun t => t.reg (R.PG_EVT pg) = s.reg
    (R.PG_EVT pg) &&& ~~~data ∧ KeepsRegs [R.PG_EVT pg] s t ∧ KeepsMem s t ∧ t.resp = ⟨Code.ok, []⟩) ∧
  (∀ (s : State) (path : Path) (n : Nat) (data : Word), s.Settled → s.Reaches path Pg.SEC → n < 32 → s.guardFor path
    Pg.SEC = true → Yields (.registerWrite path 4 (R.SEC_PEER_LO n) data) s fun t => t.reg (R.SEC_PEER_LO n) = data
    ∧ KeepsRegs [R.SEC_PEER_LO n] s t ∧ t.resp = ⟨Code.ok, []⟩) ∧
  (∀ (s : State) (path : Path) (n : Nat) (data : Word), s.Settled → s.Reaches path Pg.SEC → path ≠ .supervisor → n <
    32 → s.guardFor path Pg.SEC = false → s.get (F.PG_GUARD_LOCK Pg.SEC) = 0 → data ≠ s.reg (R.SEC_PEER_LO n) →
    Yields (.registerWrite path 4 (R.SEC_PEER_LO n) data) s fun t => t.resp = ⟨Code.guarded, []⟩ ∧ bitOf (t.reg
    (R.PG_EVT Pg.SEC)).toNat 2 = true ∧ KeepsRegs [R.PG_EVT Pg.SEC, R.PG_GUARD Pg.SEC, R.PG_STAT Pg.SEC] s t) ∧
  (∀ (s : State) (path : Path) (data : Word), s.Settled → s.Reaches path Pg.CLK → path ≠ .supervisor → s.is
    F.CLK_SRC_SPLL_EN = true → getBits data 0 16 ≠ getBits (s.reg R.CLK_SPLL) 0 16 → Yields (.registerWrite path 4
    R.CLK_SPLL data) s fun t => t.resp = ⟨Code.static, []⟩ ∧ bitOf (t.reg (R.PG_EVT Pg.CLK)).toNat 0 = true ∧
    getBits (t.reg R.CLK_SPLL) 0 16 = getBits (s.reg R.CLK_SPLL) 0 16) ∧
  (∀ (s : State) (path : Path) (data : Word), s.pathOpen path = true → path ≠ .supervisor → s.isCell = true →
    s.gated Pg.GATE = true → Yields (.registerWrite path 4 R.GATE_STATE data) s fun t => t.resp = ⟨Code.gated, []⟩) ∧
  (∀ (s : State) (path : Path) (bytes addr : Nat) (data : Word), s.pathOpen path = true → path ≠ .supervisor → 0x30
    ≤ addr / 0x400 → Yields (.registerWrite path bytes addr data) s fun t => t.resp = ⟨Code.unmapped, []⟩) ∧
  (∀ (s : State) (path : Path) (bytes addr : Nat) (data : Word), s.Settled → s.pathOpen path = true → path ≠
    .supervisor → addr / 0x400 < 0x30 → present s.role (addr / 0x400) = false → Yields (.registerWrite path bytes
    addr data) s fun t => t.resp = ⟨Code.absent, []⟩ ∧ KeepsRegs [] s t ∧ KeepsMem s t) ∧
  (∀ (s : State) (path : Path) (bytes addr : Nat) (data : Word), s.Settled → s.pathOpen path = true → path ≠
    .supervisor → addr / 0x400 < 0x30 → present s.role (addr / 0x400) = true → bytes < 4 → Yields (.registerWrite
    path bytes addr data) s fun t => t.resp = ⟨Code.size, []⟩ ∧ KeepsRegs [R.PG_STAT (addr / 0x400), R.PG_EVT (addr
    / 0x400)] s t ∧ KeepsMem s t) ∧
  (∀ (s : State) (path : Path) (bytes addr : Nat) (data : Word), s.Settled → s.pathOpen path = true → path ≠
    .supervisor → addr / 0x400 < 0x30 → present s.role (addr / 0x400) = true → 4 ≤ bytes → addr % 4 ≠ 0 → Yields
    (.registerWrite path bytes addr data) s fun t => t.resp = ⟨Code.align, []⟩ ∧ KeepsRegs [R.PG_STAT (addr /
    0x400), R.PG_EVT (addr / 0x400)] s t ∧ KeepsMem s t)

/-- PG_EVT_SET sets event bits (bits 3 to 0 and 7 to 4 as R67 reserves them); EN, HOLD and LOCK are written; a block
asked to hold reports HELD at its work boundary; SRST returns the page's registers to reset but for those R69 and
R129 keep; a commit with no meridians running is applied at once and counted, and with them running waits. -/
def Obligations.PageHeader : Prop :=
  (∀ (s : State) (path : Path) (page : Nat) (bits : Word), s.Settled → s.pathOpen path = true → page < 0x30 →
    present s.role page = true → Yields (.pgEvtSet path page bits) s fun t => t.reg (R.PG_EVT page) = s.reg
    (R.PG_EVT page) ||| (bits &&& 0xFFFFFF0F) ∧ KeepsRegs [R.PG_EVT page] s t ∧ KeepsMem s t ∧ t.resp = ⟨Code.ok,
    []⟩) ∧
  (∀ (s : State) (path : Path) (page : Nat), s.Settled → s.pathOpen path = true → page < 0x30 → present s.role page
    = true → Yields (.guardLock path page) s fun t => t.get (F.PG_GUARD_LOCK page) = 1 ∧ KeepsRegs [R.PG_GUARD page]
    s t ∧ KeepsMem s t ∧ t.resp = ⟨Code.ok, []⟩) ∧
  (∀ (s : State) (path : Path) (page : Nat) (on : Bool), s.pathOpen path = true → page < 0x30 → present s.role page
    = true → Yields (.pageEnable path page on) s fun t => t.is (F.PG_CTRL_EN page) = on ∧ t.resp = ⟨Code.ok, []⟩) ∧
  (∀ (s : State) (path : Path) (page : Nat) (on : Bool), s.pathOpen path = true → page < 0x30 → present s.role page
    = true → Yields (.pageHold path page on) s fun t => t.is (F.PG_CTRL_HOLD page) = on ∧ t.resp = ⟨Code.ok, []⟩) ∧
  (∀ (s : State) (path : Path) (page : Nat), s.pathOpen path = true → page < 0x30 → present s.role page = true →
    s.meridiansFire = false → Yields (.pageHold path page false) s fun t => t.is (F.PG_CTRL_HOLD page) = false ∧
    t.get (F.PG_STAT_HELD page) = 0) ∧
  (∀ (s : State) (page : Nat), s.Settled → s.alive = true → present s.role page = true → s.is (F.PG_CTRL_HOLD page)
    = true → (infra page = true ∨ s.runs page = true) → exec (.pageHeld page) s = .next (s.set (F.PG_STAT_HELD page)
    1)) ∧
  (∀ (s : State) (path : Path) (page a : Nat), s.pathOpen path = true → page < 0x30 → present s.role page = true →
    page ∉ [Pg.SYS, Pg.TIME, Pg.TWIN, Pg.REF, Pg.HOST, Pg.SAFE, Pg.CPU] → a / 0x400 = page → keptReg a = false → a ≠
    R.PG_GUARD page → Yields (.pageSrst path page) s fun t => t.reg a = resetWord s.role a) ∧
  (∀ (s : State) (path : Path) (page : Nat), s.pathOpen path = true → page < 0x30 → present s.role page = true →
    page ≠ Pg.TIME → ¬ (page = Pg.MOD ∧ s.isCell = true) → s.commitsWait page = false → Yields (.pgCommitRequest
    path page) s fun t => bitOf (t.reg (R.PG_EVT page)).toNat 1 = true ∧ getBits (t.reg (R.PG_COMMIT page)) 0 1 = 0
    ∧ getBits (t.reg (R.PG_COMMIT page)) 16 16 = (getBits (s.reg (R.PG_COMMIT page)) 16 16 + 1) % 2 ^ 16) ∧
  (∀ (s : State) (path : Path) (page : Nat), s.Settled → s.pathOpen path = true → page < 0x30 → present s.role page
    = true → ¬ (page = Pg.MOD ∧ s.isCell = true) → s.commitsWait page = true → Yields (.pgCommitRequest path page) s
    fun t => getBits (t.reg (R.PG_COMMIT page)) 0 1 = 1 ∧ KeepsRegs [R.PG_COMMIT page] s t ∧ t =
    { s with regs := t.regs, resp := ⟨Code.ok, []⟩ })

/-- HOST_CTRL.HOST hands the bus over; a transaction with a right CRC runs the access and counts in SERVED, is
reported at once or stays PENDING until a STAT; a wrong CRC counts and does nothing; a release request is told, and
the bus reclaimed or the request told again, then returned. -/
def Obligations.HostPort : Prop :=
  (∀ (s : State) (path : Path), s.Reaches path Pg.HOST → s.isCell = false → s.get F.HOST_CTRL_HOST = 0 → Yields
    (.hostEnable path) s fun t => t.get F.HOST_CTRL_HOST = 1 ∧ t.host.bus = .handingOver) ∧
  (∀ (s : State), s.Settled → s.alive = true → s.isCell = false → s.host.bus = .handingOver → exec .hostBusReleased
    s = .next { s with host := { s.host with bus := .host } }) ∧
  (∀ (s : State) (addr count crc : Nat), s.hostOn = true → s.host.pendCode = none → crc16 ([Op.rd] ++ beBytes 2 addr
    ++ beBytes 1 count) = crc % 65536 → Yields (.hostRd addr count crc true) s fun t => t.resp = ⟨(s.burstRead .host
    (addr % 65536) (count % 256 + 1)).1, (s.burstRead .host (addr % 65536) (count % 256 + 1)).2.2.1⟩ ∧
    t.host.lastCode = t.resp.code) ∧
  (∀ (s : State) (addr count crc : Nat), s.hostOn = true → s.host.pendCode = none → crc16 ([Op.rd] ++ beBytes 2 addr
    ++ beBytes 1 count) = crc % 65536 → Yields (.hostRd addr count crc false) s fun t => t.resp = ⟨Code.pending, []⟩
    ∧ t.host.pendCode = some (s.burstRead .host (addr % 65536) (count % 256 + 1)).1) ∧
  (∀ (s : State) (addr : Nat) (words : List Word) (crc : Nat), s.hostOn = true → s.host.pendCode = none → words ≠ []
    → crc16 ([Op.wr] ++ beBytes 2 addr ++ beBytes 1 (words.length - 1) ++ words.flatMap fun w => beBytes 4 w.toNat)
    = crc % 65536 → Yields (.hostWr addr words crc true) s fun t => t.resp.code = (s.burstWrite .host (addr % 65536)
    words).1) ∧
  (∀ (s : State) (addr : Nat) (mask data : Word) (crc : Nat), s.hostOn = true → s.host.pendCode = none → crc16
    ([Op.mwr] ++ beBytes 2 addr ++ beBytes 4 mask.toNat ++ beBytes 4 data.toNat) = crc % 65536 → Yields (.hostMwr
    addr mask data crc true) s fun t => t.resp.code = (s.masked .host (addr % 65536) mask data).1) ∧
  (∀ (s : State) (crc : Nat), s.hostOn = true → s.host.crcBad = false → s.host.pendCode = none → crc16 [Op.stat] =
    crc % 65536 → Yields (.hostStat crc true) s fun t => t.resp = ⟨s.host.lastCode, if s.host.lastCode = Code.ok
    then s.host.lastData else []⟩) ∧
  (∀ (s : State) (crc code : Nat), s.hostOn = true → s.host.crcBad = false → s.host.pendCode = some code → crc16
    [Op.stat] = crc % 65536 → Yields (.hostStat crc true) s fun t => t.resp = ⟨code, if code = Code.ok then
    s.host.pendData else []⟩ ∧ t.host.pendCode = none) ∧
  (∀ (s : State) (crc : Nat) (ready : Bool), s.hostOn = true → crc16 [Op.stat] ≠ crc % 65536 → Yields (.hostStat crc
    ready) s fun t => t.get F.HOST_CNT_CRCFAIL = satAdd F.HOST_CNT_CRCFAIL.w (s.get F.HOST_CNT_CRCFAIL) 1 ∧ t.host =
    { s.host with crcBad := true, response := [] }) ∧
  (∀ (s : State) (crc : Nat) (ready : Bool), s.hostOn = true → s.host.crcBad = true → crc16 [Op.stat] = crc % 65536
    → Yields (.hostStat crc ready) s fun t => t.resp = ⟨Code.crc, []⟩ ∧ t.host.crcBad = false ∧ t.host.pendCode =
    s.host.pendCode ∧ t.host.lastCode = s.host.lastCode ∧ t.host.lastData = s.host.lastData) ∧
  (∀ (s : State) (path : Path) (ms : Nat), s.Reaches path Pg.HOST → s.isCell = false → 0 < ms → ms < 4096 → s.get
    F.HOST_REL_PEND = 0 → Yields (.releaseRequest path ms) s fun t => t.get F.HOST_REL_DUR = ms ∧ t.get
    F.HOST_REL_PEND = 1 ∧ t.host.relWait = ms) ∧
  (∀ (s : State), s.Settled → s.hostOn = true → s.host.relTold ≠ 0 → exec (.busReclaim true) s = .next
    { s with host := { s.host with bus := .reclaimed, relTold := 0 } } ∧ exec (.busReclaim false) s = .next
    { s with host := { s.host with relWait := s.host.relTold, relTold := 0 } }) ∧
  (∀ (s : State), s.Settled → s.alive = true → s.host.bus = .reclaimed → Yields .busReturn s fun t => t.host =
    { s.host with bus := .host } ∧ t.get F.HOST_REL_PEND = 0 ∧ KeepsRegs [R.HOST_REL] s t ∧ KeepsMem s t)

/-- GPIO_FN takes only the functions a terminal has, ACCESS_ERR (bit 3) otherwise; an edge at an input is flagged; the
LED toggles; the UART queues hold 16 bytes each: a write joins the queue, the line takes the next byte, a received
byte joins or is lost with the overflow counted, a read takes the oldest. -/
def Obligations.TerminalsAndUart : Prop :=
  (∀ (s : State) (path : Path) (n : Nat) (data : Word), s.Reaches path Pg.GPIO → n < 8 → s.gpioAllowed n (getBits
    data 0 3) = true → Yields (.gpioFnWrite path n data) s fun t => t.get (F.GPIO_FN_FN n) = getBits data 0 3 ∧
    t.resp = ⟨Code.ok, []⟩) ∧
  (∀ (s : State) (path : Path) (n : Nat) (data : Word), s.Reaches path Pg.GPIO → n < 8 → s.gpioAllowed n (getBits
    data 0 3) = false → Yields (.gpioFnWrite path n data) s fun t => t.get (F.GPIO_FN_FN n) = s.get (F.GPIO_FN_FN n)
    ∧ bitOf (t.reg (R.PG_EVT Pg.GPIO)).toNat 3 = true ∧ t.resp = ⟨Code.ok, []⟩) ∧
  (∀ (s : State) (n : Nat) (level : Bool), s.alive = true → n < 8 → s.gpioInput n = true → bitOf s.pins.gpioIn.toNat
    n ≠ level → Yields (.gpioEdge n level) s fun t => bitOf t.pins.gpioIn.toNat n = level ∧ bitOf (t.reg
    R.GPIO_EDGE).toNat (if level then n else n + 8) = true ∧ bitOf (t.reg (R.PG_EVT Pg.GPIO)).toNat 8 = true) ∧
  (∀ (s : State) (path : Path) (data : Word), s.Reaches path Pg.GPIO → s.isCell = true → s.uart.tx.length < 16 →
    (s.uartOn = false ∨ s.uart.sending ≠ none) → Yields (.uartTxWrite path data) s fun t => t.uart =
    { s.uart with tx := s.uart.tx ++ [BitVec.ofNat 8 (getBits data 0 8)] } ∧ t.resp = ⟨Code.ok, []⟩) ∧
  (∀ (s : State) (b : Byte) (l : List Byte), s.Settled → s.uartOn = true → s.uart.tx = b :: l → exec .uartByteSent s
    = .next { s with uart := { s.uart with tx := l, sending := some b } }) ∧
  (∀ (s : State) (byte : Byte) (ok : Bool), s.uartOn = true → s.uart.rx.length < 16 → Yields (.uartByteRx byte ok) s
    fun t => t.uart = { s.uart with rx := s.uart.rx ++ [byte] } ∧ t.get F.GPIO_USTAT_FRAME = (if ok then s.get
    F.GPIO_USTAT_FRAME else satAdd F.GPIO_USTAT_FRAME.w (s.get F.GPIO_USTAT_FRAME) 1)) ∧
  (∀ (s : State) (byte : Byte) (ok : Bool), s.uartOn = true → s.uart.rx = [] → Yields (.uartByteRx byte ok) s fun t
    => t.uart = { s.uart with rx := [byte] } ∧ bitOf (t.reg (R.PG_EVT Pg.GPIO)).toNat 9 = true) ∧
  (∀ (s : State) (byte : Byte) (ok : Bool), s.uartOn = true → 16 ≤ s.uart.rx.length → Yields (.uartByteRx byte ok) s
    fun t => t.uart = s.uart ∧ t.get F.GPIO_USTAT_OVF = satAdd F.GPIO_USTAT_OVF.w (s.get F.GPIO_USTAT_OVF) 1 ∧ bitOf
    (t.reg (R.PG_EVT Pg.GPIO)).toNat 10 = true) ∧
  (∀ (s : State) (path : Path) (b : Byte) (l : List Byte), s.Reaches path Pg.GPIO → s.isCell = true → s.uart.rx = b
    :: l → s.clk.gating.contains Pg.GPIO = false → Yields (.urxRead path) s fun t => t.uart =
    { s.uart with rx := l } ∧ t.resp = ⟨Code.ok, [BitVec.ofNat 32 (b.toNat + 256)]⟩) ∧
  (∀ (s : State), s.Settled → s.alive = true → s.isCell = true → s.gpioFn 2 = 0 → s.ledToggles = true → exec
    .ledToggle s = .next { s with pins := { s.pins with gpioLed := !s.pins.gpioLed } })

/-- A press opens the window once (bit 8 of the SEC page), unless a press is stuck; it closes by expiry, by firmware
(bit 9) and when the press is judged stuck; a release ends an owner change that waits; two mismatches in a row open
the seal, 64 matches close it. -/
def Obligations.PresenceAndSeal : Prop :=
  (∀ (s : State), s.alive = true → s.get F.SEC_PRES_STUCK = 0 → s.sec.pressed = false → Yields .presencePress s fun
    t => t.pins.presence = false ∧ t.sec.presOpen = true ∧ t.sec.pressed = true ∧ bitOf (t.reg (R.PG_EVT
    Pg.SEC)).toNat 8 = true) ∧
  (∀ (s : State), s.Settled → exec .presenceRelease s = .next
    { s with pins := { s.pins with presence := true }, sec := { s.sec with pressed := false }, boot := { s.boot with presHeld := false, ownerChange := false } }) ∧
  (∀ (s : State), s.sec.presOpen = true → Yields .presenceWindowExpire s fun t => t.sec.presOpen = false ∧ bitOf
    (t.reg (R.PG_EVT Pg.SEC)).toNat 9 = true) ∧
  (∀ (s : State) (path : Path), s.Reaches path Pg.SEC → s.sec.presOpen = true → Yields (.presenceClose path) s fun t
    => t.sec.presOpen = false ∧ bitOf (t.reg (R.PG_EVT Pg.SEC)).toNat 9 = true) ∧
  (∀ (s : State), s.alive = true → s.pins.presence = false → s.get F.SEC_PRES_STUCK = 0 → Yields .pressStuck s fun t
    => t.sec.presOpen = false ∧ t.get F.SEC_PRES_STUCK = 1 ∧ bitOf (t.reg (R.PG_EVT Pg.SEC)).toNat 10 = true ∧ t.get
    (errCnt 0) = satAdd 8 (s.get (errCnt 0)) 1) ∧
  (∀ (s : State), s.Settled → s.pins.presence = true → s.get F.SEC_PRES_STUCK = 1 → exec .stuckClear s = .next
    (s.set F.SEC_PRES_STUCK 0)) ∧
  (∀ (s : State) (level : Bool), s.Settled → s.phase ≠ .held → exec (.sealSequenceChange level) s = .next
    { s with pins := { s.pins with sealOut := level } }) ∧
  (∀ (s : State) (v : Bool), s.phase ≠ .held → v ≠ s.pins.sealOut → 1 ≤ s.sec.sealMiss → s.sec.sealOpen ≠ some true
    → Yields (.sealSample v) s fun t => t.sec.sealOpen = some true ∧ t.sec.sealHit = 0 ∧ t.pins.sealIn = v) ∧
  (∀ (s : State) (v : Bool), s.Settled → s.phase ≠ .held → v = s.pins.sealOut → 63 ≤ s.sec.sealHit → s.sec.sealOpen
    ≠ some false → Yields (.sealSample v) s fun t => t.sec.sealOpen = some false ∧ t.boot.ownerChange = false ∧
    KeepsRegs [] s t ∧ KeepsMem s t)

/-- A job is taken while none runs, shows BUSY and ends with its event; OTP takes the board word and the owner user
region alone and only sets bits; the unlocked debug port is logged and counted; a revocation with both marks revokes
the active owner and resets the cell. -/
def Obligations.KeysAndRecords : Prop :=
  (∀ (s : State) (path : Path), s.Reaches path Pg.SEC → s.sec.attBusy = false → Yields (.attestationGo path) s fun t
    => t.sec.attBusy = true ∧ t.get F.SEC_ATT_CTL_BUSY = 1) ∧
  (∀ (s : State), s.alive = true → s.sec.attBusy = true → Yields .attDone s fun t => t.sec.attBusy = false ∧ t.get
    F.SEC_ATT_CTL_BUSY = 0 ∧ bitOf (t.reg (R.PG_EVT Pg.SEC)).toNat 12 = true ∧ t.reg (R.SEC_ATT_BUF 0) = 0x54415850) ∧
  (∀ (s : State) (path : Path), s.Reaches path Pg.SEC → s.sec.recJob = none → Yields (.recordExport path) s fun t =>
    t.sec.recJob = some .exportRec ∧ t.get F.SEC_REC_STAT_BUSY = 1) ∧
  (∀ (s : State) (path : Path), s.Reaches path Pg.SEC → s.sec.recJob = none → Yields (.recordRestore path) s fun t
    => t.sec.recJob = some .restoreRec ∧ t.get F.SEC_REC_STAT_BUSY = 1) ∧
  (∀ (s : State), s.alive = true → s.sec.recJob ≠ none → Yields .recDone s fun t => t.sec.recJob = none ∧ t.get
    F.SEC_REC_STAT_BUSY = 0) ∧
  (∀ (s : State), s.alive = true → s.sec.recJob = some .exportRec → inState (s.reg R.SEC_REC_ADDR).toNat = true →
    inState ((s.reg R.SEC_REC_ADDR).toNat + s.recPlain.length - 1) = true → Yields .recDone s fun t => t.sec.recJob
    = none ∧ t.get F.SEC_REC_STAT_BUSY = 0 ∧ t.get F.SEC_REC_STAT_RESULT = 0 ∧ bitOf (t.reg (R.PG_EVT Pg.SEC)).toNat
    13 = true) ∧
  (∀ (s : State) (path : Path), s.Reaches path Pg.OTP → s.guardFor path Pg.OTP = true → s.sec.otpJob = none →
    ((s.reg R.OTP_ADDR).toNat % 0x2000 / 4 * 4 = 0x420 ∨ 0x800 ≤ (s.reg R.OTP_ADDR).toNat % 0x2000 / 4 * 4) → Yields
    (.otpProgram path) s fun t => t.sec.otpJob = some ((s.reg R.OTP_ADDR).toNat % 0x2000 / 4 * 4, s.reg R.OTP_DATA)
    ∧ t.get F.OTP_STAT_BUSY = 1 ∧ t.get F.OTP_STAT_DENIED = 0) ∧
  (∀ (s : State) (a : Nat) (w : Word), s.alive = true → s.sec.otpJob = some (a, w) → Yields .otpProgramDone s fun t
    => t.sec.otpJob = none ∧ t.get F.OTP_STAT_BUSY = 0 ∧ t.get F.OTP_STAT_FAIL = 0 ∧ t.num (otpBase + a) 4 = s.num
    (otpBase + a) 4 ||| w.toNat ∧ KeepsMemBut (otpBase + a) 4 s t) ∧
  (∀ (s : State) (path : Path), s.Reaches path Pg.HOST → s.guardFor path Pg.HOST = true → Yields (.debugUnlock path)
    s fun t => t.get F.DBG_STAT_OPEN = 1 ∧ t.get F.DBG_STAT_SINCE = 1 ∧ t.get F.DBG_STAT_UNLOCKS = satAdd
    F.DBG_STAT_UNLOCKS.w (s.get F.DBG_STAT_UNLOCKS) 1 ∧ t.get (errCnt 0) = satAdd 8 (s.get (errCnt 0)) 1) ∧
  (∀ (s : State) (path : Path), s.Reaches path Pg.HOST → Yields (.debugRelock path) s fun t => t.get F.DBG_STAT_OPEN
    = 0) ∧
  (∀ (s : State) (data : Word) (o : Nat), s.Reaches (.remote true true) Pg.SEC → s.guardFor (.remote true true)
    Pg.SEC = true → getBits data 16 16 = 0x7E55 → s.activeSlot = some o → Yields (.secOwnRevoke (.remote true true)
    data) s fun t => t.ownerRevoked o = true ∧ (t.phase = .rom ∨ t.phase = .recovery) ∧ t.get F.SYS_RST_CAUSE_LAST =
    5)

/-- Below 1.2 V of VDDIO nothing is driven; in reset ALARM_N, SEAL_OUT and the gate outputs are low and the lanes
carry nothing; afterwards ALARM_N is low exactly while a cause stands. A twin lane sends the training set with its
LID and the own NODE from sync until 64 sets after the bond, then idle. A tree port sends each launched frame
between SOF and EOF, and idle; from the rise of ALATCH on 16 BLOCK sets cut in, 16 follow each frame while it
stands, and a port without a frame sends them on and on. A cell's uplink sends its 48 groups inside its enable and
nothing outside. Bytes of a twin frame alternate between its two lanes. -/
def Obligations.TerminalLevels : Prop :=
  (∀ (s : State) (n : Nat), s.alive = true → Yields .vddioBelow1v2 s fun t => t.alarmLevel = .undriven ∧ t.sealLevel
    = .undriven ∧ t.gateLevel n = .undriven ∧ t.laneOut n = .highZ) ∧
  (∀ (s : State) (n : Nat), s.alive = true → s.pins.vddio = true → Yields .nrstAssert s fun t => t.alarmLevel = .low
    ∧ t.sealLevel = .low ∧ t.gateLevel n = .low ∧ t.laneOut n = .highZ) ∧
  (∀ (s : State), s.pins.vddio = true → s.inReset = false → s.alarmLevel = (if s.alarmCauses = 0 then .undriven else
    .low) ∧ s.sealLevel = (if s.pins.sealOut then .high else .low)) ∧
  (∀ (s : State) (n : Nat), s.pins.vddio = true → s.inReset = false → s.isCell = true → n < 6 → s.gateLevel n = if
    (n = 0 ∧ s.gate.legA = .upper) ∨ (n = 1 ∧ s.gate.legA = .lower) ∨ (n = 2 ∧ s.gate.legB = .upper) ∨ (n = 3 ∧
    s.gate.legB = .lower) ∨ (n = 4 ∧ s.gate.gate4 = true) ∨ (n = 5 ∧ s.gate.gate5 = true) then .high else .low) ∧
  (∀ (s : State) (n : Nat), s.is (F.LANE_STAT_BONDED 4) = false → s.is (F.LANE_STAT_SYNC n) = true → s.twinSet n =
    [CodeGroup.k 0xBC, CodeGroup.d 0x50, CodeGroup.d (BitVec.ofNat 8 (n - 4)), CodeGroup.d (BitVec.ofNat 8 (s.get
    F.SYS_NODE_HUB + s.get F.SYS_NODE_SIDE <<< 6))]) ∧
  (∀ (s : State) (n : Nat), s.is (F.LANE_STAT_BONDED 4) = true → (s.lane 4).trainEnd ≤ s.elapsed → s.twinSet n =
    [CodeGroup.k 0xBC, CodeGroup.d 0xB5]) ∧
  (∀ (s : State) (p g : Nat), (s.port p).launched ≠ [] → s.cutAt p = none → s.portGroup p g = if g = 0 then .k 0xBC
    else if g = 1 then .k 0xFB else if g < (s.port p).launched.length + 2 then .d (nth (s.port p).launched (g - 2)
    0) else if g = (s.port p).launched.length + 2 then .k 0xFD else CodeGroup.cyclic (if s.safe.alatch ≠ 0 ∧ g <
    (s.port p).launched.length + 67 then CodeGroup.blockSet else CodeGroup.idleSet) (g - ((s.port p).launched.length
    + 3))) ∧
  (∀ (s : State) (p g c : Nat), s.cutAt p = some c → c ≤ g → s.portGroup p g = CodeGroup.cyclic (if g < c + 64 then
    CodeGroup.blockSet else CodeGroup.idleSet) (g - c)) ∧
  (∀ (s : State) (p : Nat), s.groupsGone p s.now = none → s.treePortSends p = CodeGroup.cyclic (if s.safe.alatch = 0
    then CodeGroup.idleSet else CodeGroup.blockSet) (s.now / groupAt (s.rate p) 0 1)) ∧
  (∀ (s : State) (u : Nat), s.inPulse (s.uplink u).txen = false → s.uplinkSends u = .silent) ∧
  (∀ (s : State) (u i : Nat), s.inPulse (s.uplink u).txen = true → (s.now - (s.uplink u).txen.1) / groupAt (s.rate
    u) 0 1 = i + 1 → i < 8 + (s.uplink u).burst.length → s.uplinkSends u = .group (if i < 6 then .d 0xB5 else if i =
    6 then .k 0xBC else if i = 7 then .d 0x4A else .d (nth (s.uplink u).burst (i - 8) 0))) ∧
  (∀ (f : List Byte) (j i : Nat), j < 2 → 2 * i + j < f.length → (twinStripe f j)[i + 1]? = some (.d (nth f (2 * i +
    j) 0)) ∧ (twinStripe f j)[0]? = some (.k 0xFB) ∧ (twinStripe f j)[(f.length + 1 - j) / 2 + 1]? = some (.k 0xFD))

/-- Sync gained and lost (bits 10 and 9 of the lane's page), lost when the invalid groups have reached four, with code
errors and losses counted; a hunt that changes the rate changes it between 3.125 and 6.25 Gbaud and the expected
count of the lane's clock monitor with it; AUTOPOL toggles RXINV; the twin bond comes up between hubs of one number
on different sides, or TWIN_ERR is set; a bond error is shown; loss of light; lock of a cell's receiver, which takes
RCSEL over from a failed one. -/
def Obligations.LaneSync : Prop :=
  (∀ (s : State) (n : Nat), s.laneRx n = true → s.continuousLane n = true → n < 8 → Yields (.syncGained n) s fun t
    => t.get (F.LANE_STAT_SYNC n) = 1 ∧ t.get (F.LANE_STAT_HUNT n) = 0 ∧ bitOf (t.reg (R.PG_EVT (Pg.LANE n))).toNat
    10 = true) ∧
  (∀ (s : State) (n : Nat), s.Settled → s.laneRx n = true → s.continuousLane n = true → n < 8 → Yields (.syncGained
    n) s fun t => t.get (F.LANE_STAT_SYNC n) = 1 ∧ KeepsRegs [R.LANE_STAT n, R.PG_EVT (Pg.LANE n)] s t ∧ KeepsMem s
    t) ∧
  (∀ (s : State) (n e : Nat), s.alive = true → n < 8 → s.continuousLane n = true → s.is (F.LANE_STAT_SYNC n) = true
    → 4 ≤ (s.lane n).errs + e → Yields (.syncLost n e) s fun t => t.get (F.LANE_STAT_SYNC n) = 0 ∧ t.get
    (F.LANE_CNT_CODEERR n) = satAdd (F.LANE_CNT_CODEERR n).w (s.get (F.LANE_CNT_CODEERR n)) e ∧ t.get
    (F.LANE_CNT_SYNCLOSS n) = satAdd (F.LANE_CNT_SYNCLOSS n).w (s.get (F.LANE_CNT_SYNCLOSS n)) 1 ∧ bitOf (t.reg
    (R.PG_EVT (Pg.LANE n))).toNat 9 = true) ∧
  (∀ (s : State) (n : Nat), s.Settled → s.alive = true → s.isCell = true → n < 2 → s.get (F.LANE_STAT_SYNC n) = 0 →
    s.is (F.LANE_STAT_HUNT n) = true → Yields (.rateHuntSwitch n) s fun t => t.get (F.LANE_CFG_RATE n) = (if s.get
    (F.LANE_CFG_RATE n) = 2 then 1 else 2) ∧ KeepsRegs [R.LANE_CFG n, R.CLK_MON_CTL (2 + n), R.LANE_ES_ERR n,
    R.LANE_ES_STAT n] s t ∧ KeepsMem s t) ∧
  (∀ (s : State) (n : Nat), s.alive = true → s.isCell = true → n < 2 → s.get (F.LANE_STAT_SYNC n) = 0 → s.is
    (F.LANE_STAT_HUNT n) = true → s.get (F.CLK_MON_CTL_WIN (2 + n)) % 32 = 0 → Yields (.rateHuntSwitch n) s fun t =>
    t.get (F.CLK_MON_CTL_EXPECT (2 + n)) = s.get (F.CLK_MON_CTL_WIN (2 + n)) / 32 * (if s.get (F.LANE_CFG_RATE n) =
    2 then 25 else 50) % 2 ^ (F.CLK_MON_CTL_EXPECT (2 + n)).w) ∧
  (∀ (s : State) (n : Nat), s.laneRx n = true → n < 6 → s.is (F.LANE_CFG_AUTOPOL n) = true → Yields (.polFlip n) s
    fun t => t.get (F.LANE_CFG_RXINV n) = 1 - s.get (F.LANE_CFG_RXINV n) ∧ t.get (F.LANE_CNT_POLFLIP n) = satAdd
    (F.LANE_CNT_POLFLIP n).w (s.get (F.LANE_CNT_POLFLIP n)) 1 ∧ bitOf (t.reg (R.PG_EVT (Pg.LANE n))).toNat 11 =
    true) ∧
  (∀ (s : State) (l4 l5 node skew : Nat), s.laneRx 4 = true → s.laneRx 5 = true → s.isHub = true → s.is
    F.SYS_TOPO_TWIN = true → s.is (F.LANE_STAT_SYNC 4) = true → s.is (F.LANE_STAT_SYNC 5) = true → l4 + l5 = 1 →
    skew ≤ 16 → s.get (F.LANE_CFG_RATE 4) = s.get (F.LANE_CFG_RATE 5) → node % 64 = s.get F.SYS_NODE_HUB → node / 64
    % 2 ≠ s.get F.SYS_NODE_SIDE → Yields (.bondUp l4 l5 node skew) s fun t => t.get (F.LANE_STAT_BONDED 4) = 1 ∧
    t.get (F.LANE_STAT_REVERSED 4) = l4 ∧ t.get F.TWIN_STAT_BOND = 1 ∧ t.get F.SYS_TOPO_TWIN_ERR = 0) ∧
  (∀ (s : State) (l4 l5 node skew : Nat), s.laneRx 4 = true → s.laneRx 5 = true → s.isHub = true → s.is
    F.SYS_TOPO_TWIN = true → s.is (F.LANE_STAT_SYNC 4) = true → s.is (F.LANE_STAT_SYNC 5) = true → l4 + l5 = 1 →
    skew ≤ 16 → s.get (F.LANE_CFG_RATE 4) = s.get (F.LANE_CFG_RATE 5) → (node % 64 ≠ s.get F.SYS_NODE_HUB ∨ node /
    64 % 2 = s.get F.SYS_NODE_SIDE) → Yields (.bondUp l4 l5 node skew) s fun t => t.get F.SYS_TOPO_TWIN_ERR = 1 ∧
    t.get F.TWIN_STAT_BOND = 0) ∧
  (∀ (s : State) (why skew : Nat), s.Settled → s.alive = true → s.isHub = true → 1 ≤ why → why ≤ 4 → skew < 2 ^
    (F.LANE_BOND_SKEW 4).w → Yields (.bondErr why skew) s fun t => t.get (F.LANE_BOND_WHY 4) = why ∧ t.get
    (F.LANE_BOND_SKEW 4) = skew ∧ bitOf (t.reg (R.PG_EVT (Pg.LANE 4))).toNat 13 = true ∧ KeepsRegs [R.LANE_BOND 4,
    R.PG_EVT (Pg.LANE 4)] s t) ∧
  (∀ (s : State) (n : Nat), s.Settled → s.alive = true → n < 8 → mooredByRole s.role n = false → (s.isCell = true ∨
    s.get (F.LANE_PWR_CUR n) ≠ 2) → Yields (.lossOfSignal n) s fun t => t.get (F.LANE_STAT_LOS n) = 1 ∧ bitOf (t.reg
    (R.PG_EVT (Pg.LANE n))).toNat 8 = true ∧ KeepsRegs [R.LANE_STAT n, R.PG_EVT (Pg.LANE n)] s t) ∧
  (∀ (s : State) (n : Nat), s.alive = true → s.isCell = true → n < 2 → Yields (.cdrLock n) s fun t => t.get
    (F.LANE_STAT_CDR_LOCK n) = 1 ∧ t.get (F.LANE_STAT_LOS n) = 0) ∧
  (∀ (s : State) (n : Nat), s.alive = true → s.isCell = true → n < 2 → s.get F.CLK_SRC_RCSEL ≠ n → s.is
    (F.CLK_MON_STAT_FAIL (2 + s.get F.CLK_SRC_RCSEL)) = true → Yields (.cdrLock n) s fun t => t.get
    (F.LANE_STAT_CDR_LOCK n) = 1 ∧ t.get F.CLK_SRC_RCSEL = n)

/-- LANE_PWR.REQ starts a transition that ends in the state asked for (bit 16); an eye scan runs once, ends with its
counts (bit 14) or keeps those reached on abort; PRBS errors are injected, cleared, counted, and lock is taken (bit
15) and dropped; BRSTp is driven for W code groups, 1 to 4, and ends LEAD groups before the slot, W and LEAD
together at most 5. -/
def Obligations.LaneTests : Prop :=
  (∀ (s : State) (path : Path) (n req : Nat), s.Reaches path (Pg.LANE n) → n < 8 → mooredByRole s.role n = false →
    req < 3 → s.get (F.LANE_PWR_BUSY n) = 0 → s.enabled (Pg.LANE n) = true → s.get (F.LANE_PWR_CUR n) ≠ req → Yields
    (.lanePwrRequest path n req) s fun t => t.get (F.LANE_PWR_REQ n) = req ∧ t.get (F.LANE_PWR_BUSY n) = 1 ∧ (t.lane
    n).target = some req) ∧
  (∀ (s : State) (n st : Nat), s.alive = true → n < 8 → s.is (F.LANE_PWR_BUSY n) = true → (s.lane n).target = some
    st → (s.lane n).latched = none → st < 3 → Yields (.pstateDone n) s fun t => t.get (F.LANE_PWR_CUR n) = st ∧
    t.get (F.LANE_PWR_BUSY n) = 0 ∧ (t.lane n).target = none ∧ t.get (F.LANE_PWR_LATCHED n) = 0 ∧ bitOf (t.reg
    (R.PG_EVT (Pg.LANE n))).toNat 16 = true) ∧
  (∀ (s : State) (path : Path) (n : Nat), s.Reaches path (Pg.LANE n) → n < 8 → s.get (F.LANE_ES_STAT_BUSY n) = 0 →
    Yields (.eyeScanGo path n) s fun t => t.get (F.LANE_ES_STAT_BUSY n) = 1 ∧ t.get (F.LANE_ES_STAT_DONE n) = 0 ∧
    t.reg (R.LANE_ES_ERR n) = 0 ∧ t.resp = ⟨Code.ok, []⟩) ∧
  (∀ (s : State) (n e : Nat), s.laneRx n = true → n < 8 → s.is (F.LANE_ES_STAT_BUSY n) = true → s.continuousLane n =
    true → e < 2 ^ 32 → Yields (.esDone n e) s fun t => t.reg (R.LANE_ES_ERR n) = BitVec.ofNat 32 e ∧ t.get
    (F.LANE_ES_STAT_BUSY n) = 0 ∧ t.get (F.LANE_ES_STAT_DONE n) = 1 ∧ bitOf (t.reg (R.PG_EVT (Pg.LANE n))).toNat 14
    = true) ∧
  (∀ (s : State) (n e b : Nat), s.Settled → s.alive = true → n < 8 → s.is (F.LANE_ES_STAT_BUSY n) = true → e < 2 ^
    32 → Yields (.eyeScanAbort n e b) s fun t => t.reg (R.LANE_ES_ERR n) = BitVec.ofNat 32 e ∧ t.get
    (F.LANE_ES_STAT_BUSY n) = 0 ∧ t.get (F.LANE_ES_STAT_ABORT n) = 1 ∧ KeepsRegs [R.LANE_ES_ERR n, R.LANE_ES_STAT n]
    s t) ∧
  (∀ (s : State) (path : Path) (n : Nat), s.Reaches path (Pg.LANE n) → n < 8 → s.is (F.LANE_PRBS_CTL_GEN n) = true →
    Yields (.prbsInject path n) s fun t => t.get (F.LANE_PRBS_STAT_INJ_CNT n) = (s.get (F.LANE_PRBS_STAT_INJ_CNT n)
    + 1) % 2 ^ (F.LANE_PRBS_STAT_INJ_CNT n).w ∧ (t.lane n).flipNext = true) ∧
  (∀ (s : State) (path : Path) (n : Nat), s.Reaches path (Pg.LANE n) → n < 8 → Yields (.prbsClear path n) s fun t =>
    t.reg (R.LANE_PRBS_ERR n) = 0 ∧ t.resp = ⟨Code.ok, []⟩) ∧
  (∀ (s : State) (n : Nat), s.Settled → s.laneRx n = true → n < 8 → s.continuousLane n = true → s.is
    (F.LANE_PRBS_CTL_CHK n) = true → Yields (.prbsLock n) s fun t => t.get (F.LANE_PRBS_STAT_LOCK n) = 1 ∧ bitOf
    (t.reg (R.PG_EVT (Pg.LANE n))).toNat 15 = true ∧ KeepsRegs [R.LANE_PRBS_STAT n, R.PG_EVT (Pg.LANE n)] s t) ∧
  (∀ (s : State) (n e : Nat), s.Settled → s.laneRx n = true → n < 8 → s.is (F.LANE_PRBS_CTL_CHK n) = true → s.is
    (F.LANE_PRBS_STAT_LOCK n) = true → 32 < e → Yields (.prbsRelock n e) s fun t => t.get (F.LANE_PRBS_STAT_LOCK n)
    = 0 ∧ t.reg (R.LANE_PRBS_ERR n) = BitVec.ofNat 32 (satAdd 32 (s.reg (R.LANE_PRBS_ERR n)).toNat e) ∧ t.get
    (F.LANE_PRBS_STAT_RELOCKS n) = satAdd (F.LANE_PRBS_STAT_RELOCKS n).w (s.get (F.LANE_PRBS_STAT_RELOCKS n)) 1 ∧
    KeepsRegs [R.LANE_PRBS_ERR n, R.LANE_PRBS_STAT n] s t) ∧
  (∀ (s : State) (p slot : Nat), s.portHears p = true → p < 4 → slot < 268 → s.now + groupAt (s.rate p) 0 5 ≤ slotAt
    (s.rate p) (s.roundNow p) slot → Yields (.brstPulse p slot) s fun t => (t.lane p).brst = (max 1 (min 4 (s.get
    (F.LANE_BRST_W p))), min (s.get (F.LANE_BRST_LEAD p)) (5 - max 1 (min 4 (s.get (F.LANE_BRST_W p))))) ∧ (t.lane
    p).pulse = (slotAt (s.rate p) (s.roundNow p) slot - groupAt (s.rate p) 0 ((t.lane p).brst.1 + (t.lane
    p).brst.2), slotAt (s.rate p) (s.roundNow p) slot - groupAt (s.rate p) 0 (t.lane p).brst.2))

/-- An increment written applies from the next tick; a step or load with no meridians running waits for the next tick
of the running unit; at that tick the time jumps and STEP_DONE is raised (bit 10); a read of TIME_NOW_NS latches all
four registers of one instant; PPS and the cycle mark rise and fall; the idle tick adds the increment. An event
message is timestamped into a queue of 16, full queues discard and count; a pop moves the head to the window; the
twin exchange shows the offset and 256 of them within 1 ns lock (64 units of 1/64 ns; the servo's new increment is a
free value, log 20); a cause of holdover enters it once and is counted. -/
def Obligations.TimeUnit : Prop :=
  (∀ (s : State) (path : Path) (frac : Word), s.Reaches path Pg.TIME → s.clk.gating.contains Pg.TIME = false →
    Yields (.timeIncWrite path frac) s fun t => t.reg R.TIME_INC_FRAC = frac ∧ t.time.incWait = some (s.get
    F.TIME_INC_NS * 2 ^ 32 + frac.toNat) ∧ t.time.inc = s.time.inc) ∧
  (∀ (s : State) (path : Path), s.Reaches path Pg.TIME → s.runs Pg.TIME = true → s.meridiansOn = false → Yields
    (.timeCmdStep path) s fun t => t.time.jump = some (.step s.ofsValue) ∧ t.now = s.now) ∧
  (∀ (s : State) (path : Path), s.Reaches path Pg.TIME → s.runs Pg.TIME = true → s.meridiansOn = false → Yields
    (.timeCmdSet path) s fun t => t.time.jump = some (.load s.setValue) ∧ t.now = s.now) ∧
  (∀ (s : State) (d : Int), s.alive = true → s.runs Pg.TIME = true → s.time.src = s.get F.TIME_CTL_SRC → s.time.jump
    = some (.step d) → s.time.corr = 0 → Yields .stepDone s fun t => t.now = ((s.now : Int) + d).toNat ∧ t.time.jump
    = none ∧ bitOf (t.reg (R.PG_EVT Pg.TIME)).toNat 10 = true) ∧
  (∀ (s : State) (n : Nat), s.alive = true → s.runs Pg.TIME = true → s.time.src = s.get F.TIME_CTL_SRC → s.time.jump
    = some (.load n) → s.time.corr = 0 → s.time.incWait = none → Yields .stepDone s fun t => t.now = n ∧ t.time =
    { s.time with jump := none }) ∧
  (∀ (s : State) (path : Path), s.Reaches path Pg.TIME → s.runs Pg.TIME = true → s.clk.gating.contains Pg.TIME =
    false → Yields (.timeNowRead path) s fun t => t.reg R.TIME_NOW_NS = BitVec.ofNat 32 s.nanos ∧ t.reg
    R.TIME_NOW_FR = BitVec.ofNat 32 (s.now % 2 ^ 32) ∧ t.reg R.TIME_NOW_SL = BitVec.ofNat 32 s.seconds ∧ t.reg
    R.TIME_NOW_SH = BitVec.ofNat 32 (s.seconds / 2 ^ 32) ∧ t.resp = ⟨Code.ok, [BitVec.ofNat 32 s.nanos]⟩) ∧
  (∀ (s : State), s.Settled → s.alive = true → s.isHub = true → s.runs Pg.TIME = true → s.get (F.GPIO_FN_FN 4) = 0 →
    s.outputsOff = false → exec .ppsPulse s = .next { s with time := { s.time with pps := true } }) ∧
  (∀ (s : State), s.Settled → s.alive = true → s.isHub = true → exec .ppsPulseEnd s = .next
    { s with time := { s.time with pps := false } } ∧ exec .cycleMarkEnd s = .next
    { s with time := { s.time with mark := false } }) ∧
  (∀ (s : State), s.pending = [] → s.alive = true → s.isHub = true → s.runs Pg.TIME = true → s.time.src = s.get
    F.TIME_CTL_SRC → s.time.jump = none → s.time.corr = 0 → s.time.incWait = none → ∃ t, step s = .next t ∧ t.now =
    s.now + s.time.inc) ∧
  (∀ (s : State) (p seq ty : Nat) (sent : Bool) (corr t3 : Nat), s.alive = true → s.runs Pg.TIME = true → s.isCell =
    false → p < 2 → ty < 4 → (s.tsQueue p).length < 16 → Yields (.ptpTimestamp p seq ty sent corr t3) s fun t =>
    t.tsQueue p = s.tsQueue p ++ [⟨seq, ty, sent, s.ptpStamp sent⟩]) ∧
  (∀ (s : State) (p seq ty : Nat) (sent : Bool) (corr t3 : Nat), s.alive = true → s.runs Pg.TIME = true → s.isCell =
    false → p < 2 → ty < 4 → 16 ≤ (s.tsQueue p).length → Yields (.ptpTimestamp p seq ty sent corr t3) s fun t =>
    t.tsQueue p = s.tsQueue p ∧ t.get (F.TIME_TSQ_STAT_OVF p) = satAdd (F.TIME_TSQ_STAT_OVF p).w (s.get
    (F.TIME_TSQ_STAT_OVF p)) 1 ∧ bitOf (t.reg (R.PG_EVT Pg.TIME)).toNat 12 = true) ∧
  (∀ (s : State) (path : Path) (p : Nat) (e : TsEntry) (q : List TsEntry), s.Reaches path Pg.TIME →
    s.clk.gating.contains Pg.TIME = false → s.isCell = false → p < 2 → s.tsQueue p = e :: q → Yields (.tsqPop path
    p) s fun t => t.tsQueue p = q ∧ t.get (F.TIME_TSQ_ID_VALID p) = 1 ∧ t.reg (R.TIME_TSQ_NS p) = BitVec.ofNat 32
    (e.time % unitsPerSec / unitsPerNs) ∧ t.reg (R.TIME_TSQ_SL p) = BitVec.ofNat 32 (e.time / unitsPerSec)) ∧
  (∀ (s : State) (ofs : Int), s.alive = true → s.isHub = true → s.runs Pg.TIME = true → s.time.src = 2 → s.is
    (F.LANE_STAT_BONDED 4) = true → Yields (.twinTimeExchange ofs) s fun t => t.reg R.TIME_TWIN = BitVec.ofInt 32
    ofs ∧ t.time.exchanged = true ∧ t.time.twinGood = if ofs.natAbs ≤ 64 then min 256 (s.time.twinGood + 1) else 0) ∧
  (∀ (s : State) (ofs : Int), s.alive = true → s.isHub = true → s.runs Pg.TIME = true → s.time.src = 2 → s.is
    (F.LANE_STAT_BONDED 4) = true → (64 < ofs.natAbs ∨ 255 ≤ s.time.twinGood) → Yields (.twinTimeExchange ofs) s fun
    t => t.get F.TIME_STAT_LOCK = if ofs.natAbs ≤ 64 then 1 else 0) ∧
  (∀ (s : State), s.alive = true → s.runs Pg.TIME = true → s.isCell = true → s.time.hold = [] → Yields
    (.holdoverEnter .frames) s fun t => t.time.hold = [.frames] ∧ t.get F.TIME_STAT_HOLDOVER = 1 ∧ t.get
    F.TIME_HOLD_ENTRIES = satAdd F.TIME_HOLD_ENTRIES.w (s.get F.TIME_HOLD_ENTRIES) 1 ∧ bitOf (t.reg (R.PG_EVT
    Pg.TIME)).toNat 8 = true)

/-- A burst that passes the checks of R285 is counted and refreshes the phase word of its berth; one that fails its
CRC is dropped and counted for the port and the berth whose slot it was; a response to the mailbox's record ends it
with its code, one that answers no record is counted; a zone with light and no burst is a collision. A sound
boarding burst of an assigned cell that is absent begins its admission and is counted; a stranger's with the window
closed is counted (bit 11); a sound ranging burst in the round of its offer fixes RTTN, phase and alignment of the
berth; a missing one counts towards RTRY, and past it the admission ends; the enrolment window of a port opens under
the guard for its time, closes and expires. -/
def Obligations.UpstreamBursts : Prop :=
  (∀ (s : State) (p slot : Nat) (sf co : Bool) (bs : List Byte) (ph al : Nat), s.portHears p = true → slot < 264 →
    slot < s.zoneSlot p → s.burstCheck p slot (s.roundNow p) sf co bs = .ok → (s.berth (256 * p + (nth bs 0
    0).toNat)).link ≠ .absent → Yields (.upstreamBurstRx p slot sf co bs ph al) s fun t => t.reg (R.TREE_RXOK p) =
    s.reg (R.TREE_RXOK p) + 1 ∧ (t.berth (256 * p + (nth bs 0 0).toNat)).ph = ph % 64 ∧ (t.berth (256 * p + (nth bs
    0 0).toNat)).align = al % 16) ∧
  (∀ (s : State) (p slot : Nat) (sf co : Bool) (bs : List Byte) (ph al b : Nat), s.portHears p = true → slot < 264 →
    slot < s.zoneSlot p → s.burstCheck p slot (s.roundNow p) sf co bs = .crc → s.slotOwner p slot (s.roundNow p) =
    some b → Yields (.upstreamBurstRx p slot sf co bs ph al) s fun t => t.get (F.TREE_RXERR_CRC p) = satAdd
    (F.TREE_RXERR_CRC p).w (s.get (F.TREE_RXERR_CRC p)) 1 ∧ bitOf (t.reg (R.PG_EVT (Pg.TREE p))).toNat 9 = true ∧
    (t.berth (256 * p + b)).crc = satAdd 16 (s.berth (256 * p + b)).crc 1 ∧ t.reg (R.TREE_RXOK p) = s.reg
    (R.TREE_RXOK p)) ∧
  (∀ (s : State) (p b : Nat) (pl : List Byte) (r : MgmtRec), s.portHears p = true → b < 256 → ((s.port
    p).opens.find? fun x => x.tid == (nth pl 1 0).toNat && x.berth == b && x.rtype + 0x80 == (nth pl 0 0).toNat) =
    some r → r.src = .mailbox → r.rtype = 2 → Yields (.mgmtBurstRx p b pl) s fun t => t.get (F.TREE_RA_STAT_BUSY p)
    = 0 ∧ t.get (F.TREE_RA_STAT_CODE p) = (nth pl 2 0).toNat % 2 ^ (F.TREE_RA_STAT_CODE p).w ∧ (t.port p).mailbox =
    false ∧ (t.port p).opens.length + 1 = (s.port p).opens.length) ∧
  (∀ (s : State) (p b : Nat) (pl : List Byte), s.portHears p = true → b < 256 → ((s.port p).opens.find? fun x =>
    x.tid == (nth pl 1 0).toNat && x.berth == b && x.rtype + 0x80 == (nth pl 0 0).toNat) = none → Yields
    (.mgmtBurstRx p b pl) s fun t => t.get (F.TREE_RXERR2_FORMAT p) = satAdd (F.TREE_RXERR2_FORMAT p).w (s.get
    (F.TREE_RXERR2_FORMAT p)) 1 ∧ (t.berth (256 * p + b)).format = satAdd 16 (s.berth (256 * p + b)).format 1) ∧
  (∀ (s : State) (p : Nat), s.Settled → s.berthOn p = true → Yields (.collision p) s fun t => t.get
    (F.BERTH_BRD_COLL p) = satAdd (F.BERTH_BRD_COLL p).w (s.get (F.BERTH_BRD_COLL p)) 1 ∧ bitOf (t.reg (R.PG_EVT
    Pg.BERTH)).toNat 12 = true ∧ KeepsRegs [(F.BERTH_BRD_COLL p).addr, R.PG_EVT Pg.BERTH] s t ∧ t =
    { s with regs := t.regs, recd := t.recd }) ∧
  (∀ (s : State) (p : Nat) (sf co : Bool) (bs : List Byte) (arr i : Nat), s.portHears p = true → roundAt (s.rate p)
    arr % 2 = 0 → s.zoneCheck p (roundAt (s.rate p) arr) sf co bs = .ok → (s.berthsWith fun _ b => b.assign != 0 &&
    b.keyid == idOfBytes ((bs.drop 4).take 24)) = [i] → i / 256 = p → (s.berth i).admission = none → (s.berth
    i).link = .absent → (s.berth i).rsv = true → s.slotAllowed p (s.berth i).rslot = true → s.sameMajor (ofBe
    ((bs.drop 20).take 2)) = true → (s.portBerths p fun b => b.admission.isSome) = [] → Yields (.boardingBurstRx p
    ⟨sf, co, bs⟩ arr) s fun t => (t.berth i).admission.isSome = true ∧ (t.berth i).keyid = idOfBytes ((bs.drop
    4).take 24) ∧ (t.berth i).imgid = idOfBytes ((bs.drop 12).take 16) ∧ (t.berth i).linkver = ofBe ((bs.drop
    20).take 2) ∧ t.reg (R.TREE_RXOK p) = s.reg (R.TREE_RXOK p) + 1) ∧
  (∀ (s : State) (p : Nat) (sf co : Bool) (bs : List Byte) (arr : Nat), s.portHears p = true → roundAt (s.rate p)
    arr % 2 = 0 → s.zoneCheck p (roundAt (s.rate p) arr) sf co bs = .ok → (s.berthsWith fun _ b => b.assign != 0 &&
    b.keyid == idOfBytes ((bs.drop 4).take 24)) = [] → s.windowOpen p = false → Yields (.boardingBurstRx p ⟨sf, co,
    bs⟩ arr) s fun t => t.get (F.BERTH_STR_UNKNOWN p) = satAdd (F.BERTH_STR_UNKNOWN p).w (s.get (F.BERTH_STR_UNKNOWN
    p)) 1 ∧ bitOf (t.reg (R.PG_EVT Pg.BERTH)).toNat 11 = true ∧ t.berths = s.berths) ∧
  (∀ (s : State) (p : Nat) (sf co : Bool) (bs : List Byte) (arr ph al : Nat) (a : Admission), s.portHears p = true →
    roundAt (s.rate p) arr % 2 = 1 → s.zoneCheck p (roundAt (s.rate p) arr) sf co bs = .ok → (s.berth (256 * p +
    (nth bs 0 0).toNat)).admission = some a → (s.berth (256 * p + (nth bs 0 0).toNat)).link = .offered → idOfBytes
    ((bs.drop 4).take 24) = (s.berth (256 * p + (nth bs 0 0).toNat)).keyid → ofBe ((bs.drop 12).take 4) = a.cycleR %
    2 ^ 32 → roundAt (s.rate p) arr = a.roundR → Yields (.rangingBurstRx p sf co bs arr ⟨ph, al⟩) s fun t =>
    (t.berth (256 * p + (nth bs 0 0).toNat)).link = .ranged ∧ (t.berth (256 * p + (nth bs 0 0).toNat)).rttn = ((arr
    : Int) - s.meridianAt a.cycleR - s.dTx p - a.turn * unitsPer64).toNat / unitsPer64 % 2 ^ 24 ∧ (t.berth (256 * p
    + (nth bs 0 0).toNat)).ph = ph % 64 ∧ (t.berth (256 * p + (nth bs 0 0).toNat)).align = al % 16) ∧
  (∀ (s : State) (p b : Nat) (a : Admission), s.berthOn p = true → b < 256 → (s.berth (256 * p + b)).admission =
    some a → (s.berth (256 * p + b)).link = .offered → max 1 (s.get F.BERTH_CFG_RTRY) ≤ a.offers → Yields
    (.rangingTimeout p b) s fun t => (t.berth (256 * p + b)).admission = none ∧ t.get (F.BERTH_BRD_FAILED p) =
    satAdd (F.BERTH_BRD_FAILED p).w (s.get (F.BERTH_BRD_FAILED p)) 1) ∧
  (∀ (s : State) (p b : Nat) (a : Admission), s.berthOn p = true → b < 256 → (s.berth (256 * p + b)).admission =
    some a → (s.berth (256 * p + b)).link = .offered → a.offers < s.get F.BERTH_CFG_RTRY → Yields (.rangingTimeout p
    b) s fun t => (t.berth (256 * p + b)).admission.map (·.offers) = some (a.offers + 1)) ∧
  (∀ (s : State) (path : Path) (p : Nat), s.Reaches path Pg.BERTH → p < 4 → s.guardFor path Pg.BERTH = true →
    s.isHub = true → Yields (.enrolmentWindowOpen path p) s fun t => t.windowOpen p = true ∧ (t.port p).winEnd =
    s.elapsed + max 1 (min 3600 (s.get F.BERTH_BWIN_SEC)) * unitsPerSec) ∧
  (∀ (s : State) (path : Path) (p : Nat), s.Reaches path Pg.BERTH → p < 4 → s.isHub = true → Yields
    (.enrolmentWindowClose path p) s fun t => t.windowOpen p = false) ∧
  (∀ (s : State) (p : Nat), s.alive = true → s.isHub = true → p < 4 → s.windowOpen p = true → Yields
    (.enrolmentWindowExpire p) s fun t => t.windowOpen p = false ∧ bitOf (t.reg (R.PG_EVT Pg.BERTH)).toNat 19 =
    true)

/-- RD copies the selected entry to the window, CLRCNT clears its counters, WR takes the guarded fields with the guard
open; a round boundary makes the round at a hub's port the next one and judges unslotted light, and makes a cell's
uplink round the next one; a babbler search starts by command or by light, steps and names the berth; renewals begin
once due; a record that times out answers REMOTE; the mailbox queues its record. -/
def Obligations.BerthTable : Prop :=
  (∀ (s : State) (path : Path) (w : Nat), s.Reaches path Pg.BERTH → s.isHub = true → w < 16 → Yields (.berthCmdRd
    path) s fun t => t.reg (R.BERTH_E w) = BitVec.ofNat 32 (berthWord (s.berth (s.get F.BERTH_SEL_INDEX)) w) ∧
    t.berths = s.berths) ∧
  (∀ (s : State) (path : Path), s.Reaches path Pg.BERTH → s.isHub = true → Yields (.berthCmdClrcnt path) s fun t =>
    t.berth (s.get F.BERTH_SEL_INDEX) =
    { s.berth (s.get F.BERTH_SEL_INDEX) with code := 0, crc := 0, tag := 0, format := 0, miss := 0, ok := 0, admits := 0, ranges := 0, reranges := 0 }) ∧
  (∀ (s : State) (path : Path), s.Reaches path Pg.BERTH → s.isHub = true → s.guardFor path Pg.BERTH = true →
    (s.berth (s.get F.BERTH_SEL_INDEX)).link = .absent → (s.berth (s.get F.BERTH_SEL_INDEX)).assign = 1 → (s.berth
    (s.get F.BERTH_SEL_INDEX)).rsv = false → (s.berth (s.get F.BERTH_SEL_INDEX)).rslot = 0 → s.reg (R.BERTH_E 0) = 1
    → Yields (.berthCmdWr path) s fun t => (t.berth (s.get F.BERTH_SEL_INDEX)).keyid = idOfWords (s.reg (R.BERTH_E
    1)) (s.reg (R.BERTH_E 2)) ∧ (t.berth (s.get F.BERTH_SEL_INDEX)).assign = 1 ∧ (t.berth (s.get
    F.BERTH_SEL_INDEX)).beta = getBits (s.reg (R.BERTH_E 4)) 0 16) ∧
  (∀ (s : State) (light : List (List LightRun)) (p n : Nat), s.portRx p = true → (List.range 4).filter s.portRx =
    [p] → n = s.nextRound p ((s.reg (R.TREE_ROUND_LO p)).toNat + 2 ^ 32 * s.get (F.TREE_ROUND_HI_ROUND p)) → Yields
    (.roundBoundary light) s fun t => t.reg (R.TREE_ROUND_LO p) = BitVec.ofNat 32 n ∧ t.get (F.BERTH_LIGHT_LIGHT p)
    = b2n (s.unslotted p (n - 1) (nth light p [])) ∧ (t.port p).lightRun = if s.unslotted p (n - 1) (nth light p [])
    then (s.port p).lightRun + 1 else 0) ∧
  (∀ (s : State) (u : Nat), s.alive = true → s.isCell = true → (List.range 2).filter s.pathOn = [u] → Yields
    (.roundBoundary []) s fun t => (t.uplink u).round = s.nextRound u (s.uplink u).round) ∧
  (∀ (s : State) (path : Path) (p : Nat), s.Reaches path Pg.BERTH → s.berthOn p = true → (s.port p).search = none →
    Yields (.babblerSearchGo (.register path) p) s fun t => (t.port p).search.isSome = true ∧ t.get
    (F.BERTH_SRCH_RUN p) = 1 ∧ t.get (F.BERTH_LIGHT_SEARCHES p) = satAdd (F.BERTH_LIGHT_SEARCHES p).w (s.get
    (F.BERTH_LIGHT_SEARCHES p)) 1) ∧
  (∀ (s : State) (p : Nat), s.berthOn p = true → s.is F.BERTH_CFG_AUTO = true → (s.port p).search = none → max 1
    (s.get F.BERTH_CFG_LTHR) ≤ (s.port p).lightRun → Yields (.babblerSearchGo .automatic p) s fun t => (t.port
    p).search.isSome = true ∧ t.get (F.BERTH_SRCH_RUN p) = 1 ∧ (t.port p).lightRun = 0) ∧
  (∀ (s : State) (p : Nat) (x : Search) (light : Bool), s.berthOn p = true → (s.port p).search = some x → x.check =
    false → Yields (.searchStep p light) s fun t => ((t.port p).search.map fun y => y.s) = some (if light then
    x.s.filter fun b => !x.k.contains b else x.k) ∧ (t.port p).killAll = true ∧ t.get (F.BERTH_SRCH_STEP p) = satAdd
    (F.BERTH_SRCH_STEP p).w (s.get (F.BERTH_SRCH_STEP p)) 1) ∧
  (∀ (s : State) (p : Nat) (x : Search) (b : Nat) (l : List Nat), s.berthOn p = true → (s.port p).search = some x →
    x.check = true → x.light = true → x.s = b :: l → b < 256 → Yields (.searchStep p false) s fun t => (t.port
    p).search = none ∧ (t.berth (256 * p + b)).link = .babbler ∧ t.get (F.BERTH_SRCH_RESULT p) = 1 ∧ t.get
    (F.BERTH_SRCH_BERTH p) = b ∧ t.get (F.BERTH_SRCH_RUN p) = 0 ∧ bitOf (t.reg (R.PG_EVT Pg.BERTH)).toNat 15 = true) ∧
  (∀ (s : State) (p : Nat), s.portRx p = true → s.groupDue p = true → Yields (.groupKeyRenewal p) s fun t =>
    ((t.port p).renew.map fun x => x.2.2) = some (s.roundNow p)) ∧
  (∀ (s : State) (i : Nat), s.portRx (i / 256) = true → s.sessionDue i = true → s.mgmtRoom (i / 256) = true → Yields
    (.sessionKeyRenewal i) s fun t => (t.berth i).rekey.isSome = true ∧ (t.port (i / 256)).mq.length = (s.port (i /
    256)).mq.length + 1) ∧
  (∀ (s : State) (p tid : Nat) (r : MgmtRec), s.portRx p = true → ((s.port p).opens.find? fun x => x.tid == tid) =
    some r → r.src = .mailbox → Yields (.remoteTimeout p tid) s fun t => t.get (F.TREE_RA_STAT_CODE p) = Code.remote
    ∧ t.get (F.TREE_RA_STAT_BUSY p) = 0 ∧ t.get (F.TREE_MQ_TIMEOUT p) = satAdd (F.TREE_MQ_TIMEOUT p).w (s.get
    (F.TREE_MQ_TIMEOUT p)) 1 ∧ bitOf (t.reg (R.PG_EVT (Pg.TREE p))).toNat 10 = true) ∧
  (∀ (s : State) (path : Path) (p : Nat) (data : Word), s.Reaches path (Pg.TREE p) → s.isHub = true → p < 4 →
    (s.port p).mailbox = false → s.mgmtRoom p = true → getBits data 8 3 = 2 → held (s.berth (256 * p + getBits data
    0 8)) = true → Yields (.treeRaGo path p data) s fun t => t.get (F.TREE_RA_STAT_BUSY p) = 1 ∧ (t.port p).mailbox
    = true ∧ (t.port p).mq.length = (s.port p).mq.length + 1 ∧ ((t.port p).mq.getLast?.map fun r => (r.berth,
    r.rtype, r.tid)) = some (getBits data 0 8, 2, (s.port p).nextTid))

/-- A frame that fails a check of R260 is dropped whole and counted under the first check it fails (UPLINK_ERR, bit
17, and EVFLAGS bit 7); a frame with a newer watch number that passes them all is obeyed: W and K become its own,
the state is obeying, VALID and OBEYED count it; an older watch is fenced and counted. -/
def Obligations.CycleFrames : Prop :=
  (∀ (s : State) (u : Nat) (co : Bool) (bs : List Byte) (st q : Nat), s.frameOn u = true → (co = false ∨ 1024 <
    bs.length) → Yields (.cycleFrameRx u co bs st q) s fun t => t.get (F.TREE_CELL_ERR_CODE u) = satAdd
    (F.TREE_CELL_ERR_CODE u).w (s.get (F.TREE_CELL_ERR_CODE u)) 1 ∧ bitOf (t.reg (R.PG_EVT (Pg.TREE u))).toNat 17 =
    true ∧ bitOf t.gate.flags 7 = true ∧ t.rx = s.rx) ∧
  (∀ (s : State) (u : Nat) (bs : List Byte) (st q : Nat), s.frameOn u = true → bs.length ≤ 1024 → parseFrame bs =
    none → Yields (.cycleFrameRx u true bs st q) s fun t => t.get (F.TREE_CELL_ERR_FORMAT u) = satAdd
    (F.TREE_CELL_ERR_FORMAT u).w (s.get (F.TREE_CELL_ERR_FORMAT u)) 1 ∧ bitOf (t.reg (R.PG_EVT (Pg.TREE u))).toNat
    17 = true ∧ t.rx = s.rx) ∧
  (∀ (s : State) (u : Nat) (bs : List Byte) (st q : Nat) (f : RxFrame) (b : Timebase), s.frameOn u = true →
    bs.length ≤ 1024 → parseFrame bs = some f → f.timebase = none → ((s.uplink u).bases.find? fun c => c.tbg ==
    f.tbg) = some b → (s.uplink u).port = some f.port → f.crc ≠ crcBytes (f.hdr ++ f.tag) → Yields (.cycleFrameRx u
    true bs st q) s fun t => t.get (F.TREE_CELL_ERR_CRC u) = satAdd (F.TREE_CELL_ERR_CRC u).w (s.get
    (F.TREE_CELL_ERR_CRC u)) 1 ∧ t.rx = s.rx) ∧
  (∀ (s : State) (u : Nat) (bs : List Byte) (st q : Nat) (f : RxFrame) (b : Timebase), s.frameOn u = true →
    bs.length ≤ 1024 → parseFrame bs = some f → f.timebase = none → ((s.uplink u).bases.find? fun c => c.tbg ==
    f.tbg) = some b → (s.uplink u).port = some f.port → f.crc = crcBytes (f.hdr ++ f.tag) → s.keyed u = true →
    s.frameSide u f = none → Yields (.cycleFrameRx u true bs st q) s fun t => t.get (F.TREE_CELL_ERR_TAG u) = satAdd
    (F.TREE_CELL_ERR_TAG u).w (s.get (F.TREE_CELL_ERR_TAG u)) 1 ∧ (t.uplink u).tagBad = true ∧ (t.uplink u).bases =
    (s.uplink u).bases) ∧
  (∀ (s : State) (u : Nat) (bs : List Byte) (st q : Nat) (f : RxFrame) (b : Timebase), s.frameOn u = true →
    bs.length ≤ 1024 → parseFrame bs = some f → f.timebase = none → ((s.uplink u).bases.find? fun c => c.tbg ==
    f.tbg) = some b → (s.uplink u).port = some f.port → f.crc = crcBytes (f.hdr ++ f.tag) → s.keyed u = true →
    (s.frameSide u f).isSome = true → f.flag 0 = true → f.tt = [] → f.skind = 0 → f.body = [] → 1 ≤ (f.watch + 65536
    - s.get (F.TREE_CELL_STAT_W 0)) % 65536 → (f.watch + 65536 - s.get (F.TREE_CELL_STAT_W 0)) % 65536 ≤ 32767 →
    Yields (.cycleFrameRx u true bs st q) s fun t => t.get (F.TREE_CELL_STAT_W 0) = f.watch % 65536 ∧ t.reg
    (R.TREE_CELL_K_LO 0) = BitVec.ofNat 32 f.cycle ∧ t.get (F.TREE_CELL_STAT_STATE 0) = 1 ∧ t.get
    (F.TREE_CELL_STAT_LANE 0) = u ∧ t.rx.obeying = true ∧ (t.uplink u).seen = satAdd 8 (s.uplink u).seen 1 ∧ t.get
    (F.TREE_CELL_RX_VALID u) = (s.get (F.TREE_CELL_RX_VALID u) + 1) % 2 ^ (F.TREE_CELL_RX_VALID u).w ∧ t.get
    (F.TREE_CELL_RX_OBEYED u) = (s.get (F.TREE_CELL_RX_OBEYED u) + 1) % 2 ^ (F.TREE_CELL_RX_OBEYED u).w) ∧
  (∀ (s : State) (u : Nat) (bs : List Byte) (st q : Nat) (f : RxFrame) (b : Timebase), s.frameOn u = true →
    bs.length ≤ 1024 → parseFrame bs = some f → f.timebase = none → ((s.uplink u).bases.find? fun c => c.tbg ==
    f.tbg) = some b → (s.uplink u).port = some f.port → f.crc = crcBytes (f.hdr ++ f.tag) → s.keyed u = true →
    (s.frameSide u f).isSome = true → f.flag 0 = true → f.tt = [] → f.skind = 0 → f.body = [] → (s.uplink u).fresh =
    false → 32769 ≤ (f.watch + 65536 - s.get (F.TREE_CELL_STAT_W 0)) % 65536 → Yields (.cycleFrameRx u true bs st q)
    s fun t => t.get (F.TREE_CELL_FENCE_FENCED 0) = satAdd (F.TREE_CELL_FENCE_FENCED 0).w (s.get
    (F.TREE_CELL_FENCE_FENCED 0)) 1 ∧ t.get (F.TREE_CELL_STAT_W 0) = s.get (F.TREE_CELL_STAT_W 0) ∧ t.rx.events =
    s.rx.events ∧ t.rx.bitmap = s.rx.bitmap)

/-- A record for the cell's berth is executed on the tree path and its response queued while fewer than four wait,
else dropped and counted; a WRP is executed without an answer; KEY installs the group key and completes the
admission; DELAY sets both delays; TBASE becomes the newest timebase. -/
def Obligations.CellManagement : Prop :=
  (∀ (s : State) (u b tid a n : Nat), s.frameOn u = true → s.keyed u = true → s.ownBerth u b = true → (s.uplink
    u).resps.length < 4 → 1 ≤ n → n ≤ 5 → Yields (.mgmtRdRecord u b tid a n) s fun t => ((t.uplink
    u).resps.getLast?.map fun r => (r.rtype, r.tid, r.code, r.index)) = some (1, tid, (s.burstRead (.remote false
    false) a n).1, (s.burstRead (.remote false false) a n).2.1)) ∧
  (∀ (s : State) (u b tid : Nat) (pr sm : Bool) (a : Nat) (ws : List Word), s.frameOn u = true → s.keyed u = true →
    s.ownBerth u b = true → (s.uplink u).resps.length < 4 → 1 ≤ ws.length → ws.length ≤ 16 → Yields (.mgmtWrRecord u
    b tid pr sm a ws) s fun t => ((t.uplink u).resps.getLast?.map fun r => (r.rtype, r.tid, r.code, r.index)) = some
    (2, tid, (s.burstWrite (.remote pr sm) a ws).1, (s.burstWrite (.remote pr sm) a ws).2.1)) ∧
  (∀ (s : State) (u b tid : Nat) (pr sm : Bool) (a : Nat) (m d : Word), s.frameOn u = true → s.keyed u = true →
    s.ownBerth u b = true → (s.uplink u).resps.length < 4 → Yields (.mgmtMwrRecord u b tid pr sm a m d) s fun t =>
    ((t.uplink u).resps.getLast?.map fun r => (r.rtype, r.tid, r.code)) = some (3, tid, (s.masked (.remote pr sm) a
    m d).1)) ∧
  (∀ (s : State) (u : Nat) (pr sm : Bool) (d : Word), s.frameOn u = true → s.keyed u = true → s.Reaches (.remote pr
    sm) (R.CLK_SPDLIM / 1024) → Yields (.mgmtWrpRecord u pr sm R.CLK_SPDLIM [d]) s fun t => t.get F.CLK_SPDLIM_LIMIT
    = getBits d 0 12 ∧ t.get F.CLK_SPDLIM_HYST = getBits d 16 8 ∧ t.rx = s.rx) ∧
  (∀ (s : State) (u b tid a n : Nat), s.frameOn u = true → s.keyed u = true → s.ownBerth u b = true → 4 ≤ (s.uplink
    u).resps.length → 1 ≤ n → n ≤ 5 → Yields (.mgmtRdRecord u b tid a n) s fun t => t.get (F.TREE_CELL_MQ_DROP u) =
    satAdd (F.TREE_CELL_MQ_DROP u).w (s.get (F.TREE_CELL_MQ_DROP u)) 1 ∧ t.rx = s.rx) ∧
  (∀ (s : State) (u b tid : Nat) (bd : List Byte) (k g : Key), s.frameOn u = true → bd.length = 32 → s.ownBerth u b
    = true → (s.uplink u).resps.length < 4 → (s.uplink u).group = none → (s.uplink u).pendKeys = none → (s.uplink
    u).wrap = some k → keyUnwrap k (bd.take 24) = some g → Yields (.keyRecord u b tid bd) s fun t => (t.uplink
    u).group = some g ∧ (t.uplink u).fresh = true ∧ t.get (F.TREE_CELL_SLOT_KILLED u) = 0 ∧ ((t.uplink
    u).resps.getLast?.map fun r => (r.rtype, r.tid, r.code)) = some (0x10, tid, Code.ok)) ∧
  (∀ (s : State) (u b tid dn up : Nat), s.frameOn u = true → s.ownBerth u b = true → (s.uplink u).resps.length < 4 →
    Yields (.delayRecord u b tid dn up) s fun t => t.get (F.TREE_CELL_DN_DLY u) = dn % 2 ^ 24 ∧ t.get
    (F.TREE_CELL_UP_DLY u) = up % 2 ^ 24 ∧ ((t.uplink u).resps.getLast?.map fun r => (r.rtype, r.tid, r.code)) =
    some (0x11, tid, Code.ok)) ∧
  (∀ (s : State) (u : Nat) (bd : List Byte), s.frameOn u = true → bd.length = 20 → Yields (.tbaseRecord u bd) s fun
    t => (t.uplink u).bases.head? = some (timebaseOf bd) ∧ (t.uplink u).bases.length ≤ 2)

/-- BEACON sets the boarding parameters; an OFFER that names the cell is taken; a KXH whose string is sound yields the
pending keys where the shared point exists, an unsound one ends the offer; REFUSE with reason 1 ends boarding,
another makes the cell back off; a boarding burst leaves and an unanswered one backs off (its random count is a free
value); a ranging burst answers frame K_R; RESTORE relights; tag failures over two rounds discard keys, slot and
delays. -/
def Obligations.CellAdmission : Prop :=
  (∀ (s : State) (u : Nat) (bd : List Byte), s.frameOn u = true → bd.length = 24 → Yields (.beaconRecord u bd) s fun
    t => (t.uplink u).beacon = true ∧ (t.uplink u).rttNom = ofBe ((bd.drop 16).take 4) % 2 ^ 24 ∧ (t.uplink u).zone
    = (nth bd 20 0).toNat % 32 ∧ (t.uplink u).bexp = (nth bd 22 0).toNat ∧ (t.uplink u).group = (s.uplink u).group) ∧
  (∀ (s : State) (u : Nat) (bd : List Byte), s.frameOn u = true → bd.length = 24 → idOfBytes bd = s.devId → s.keyed
    u = false → (s.uplink u).offer = none → Yields (.offerRecord u bd) s fun t => ((t.uplink u).offer.map fun o =>
    (o.berth, o.cycleR, o.turn)) = some ((nth bd 8 0).toNat, ofBe ((bd.drop 12).take 6), ofBe ((bd.drop 20).take 4)
    % 2 ^ 24) ∧ (t.uplink u).berth = some (nth bd 8 0).toNat ∧ (t.uplink u).waitRounds = some 0) ∧
  (∀ (s : State) (u b tid : Nat) (bd : List Byte) (o : Offer), s.frameOn u = true → bd.length = 204 → s.keyed u =
    false → (s.uplink u).offer = some o → (s.uplink u).waiting < 4 → o.berth = b → o.enrol = true → kxSound (bd.take
    192) (kxEph (bd.take 192)) = true → Yields (.kxhRecord u b tid bd) s fun t => (t.uplink u).pendKeys.isSome =
    (ecdhX (scalarOf (Config.freeNat s.freeCtr)) (kxEph (bd.take 192))).isSome) ∧
  (∀ (s : State) (u b tid : Nat) (bd : List Byte) (o : Offer), s.frameOn u = true → bd.length = 204 → s.keyed u =
    false → (s.uplink u).offer = some o → (s.uplink u).waiting < 4 → o.berth = b → kxSound (bd.take 192) (kxEph
    (bd.take 192)) = false → Yields (.kxhRecord u b tid bd) s fun t => (t.uplink u).offer = none ∧ (t.uplink
    u).berth = none ∧ (t.uplink u).group = none) ∧
  (∀ (s : State) (u : Nat) (bd : List Byte), s.frameOn u = true → bd.length = 12 → idOfBytes bd = s.devId → (nth bd
    8 0).toNat = 1 → Yields (.refuseRecord u bd) s fun t => (t.uplink u).stopped = true ∧ t.mayBoard u = false) ∧
  (∀ (s : State) (u : Nat) (bd : List Byte), s.frameOn u = true → bd.length = 12 → idOfBytes bd = s.devId → (nth bd
    8 0).toNat ≠ 1 → Yields (.refuseRecord u bd) s fun t => (t.uplink u).attempt = 255 ∧ (t.uplink u).stopped =
    (s.uplink u).stopped ∧ (t.uplink u).backoff < 2 ^ min 255 (s.uplink u).bexp) ∧
  (∀ (s : State) (u n x : Nat), s.mayBoard u = true → nextBy (s.boardingLaunch u) s.now 4 (s.roundNow u) = some (n,
    x) → Yields (.boardingBurstTx u) s fun t => (t.uplink u).waitRounds = some 0 ∧ (t.uplink u).burst.length = 40 ∧
    nth (t.uplink u).burst 1 0 = 3 ∧ x ≤ t.now ∧ t.mayBoard u = false) ∧
  (∀ (s : State) (u w : Nat), s.pathOn u = true → (s.uplink u).offer = none → (s.uplink u).waitRounds = some w → 3 ≤
    w → (s.uplink u).boarding = true → Yields (.boardingBackoff u) s fun t => (t.uplink u).waitRounds = none ∧
    (t.uplink u).attempt = min 255 ((s.uplink u).attempt + 1) ∧ (t.uplink u).backoff < 2 ^ min (t.uplink u).attempt
    (s.uplink u).bexp) ∧
  (∀ (s : State) (u : Nat) (o : Offer) (f : Nat), s.pathOn u = true → s.laserOn u = true → (s.uplink u).boarding =
    true → (s.uplink u).offer = some o → o.soF = some f → Yields (.rangingBurstTx u) s fun t => (t.uplink u).offer =
    some { o with soF := none } ∧ (t.uplink u).burst.length = 40 ∧ nth (t.uplink u).burst 1 0 = 4 ∧ f + o.turn *
    unitsPer64 ≤ t.now) ∧
  (∀ (s : State) (u : Nat) (bd : List Byte) (b : Nat), s.frameOn u = true → s.keyed u = true → bd.length = 32 →
    (s.uplink u).berth = some b → bitOf (nth bd (b / 8) 0).toNat (b % 8) = true → Yields (.restoreRecord u bd) s fun
    t => t.get (F.TREE_CELL_SLOT_KILLED u) = 0) ∧
  (∀ (s : State) (u : Nat), s.pathOn u = true → s.keyed u = true → 2 ≤ (s.uplink u).badRounds → Yields
    (.rejoinTrigger u) s fun t => (t.uplink u).group = none ∧ (t.uplink u).session = none ∧ (t.uplink u).berth =
    none ∧ t.get (F.TREE_CELL_DN_DLY u) = 0 ∧ t.get (F.TREE_CELL_UP_DLY u) = 0 ∧ t.reg (R.TREE_CELL_SLOT u) = 0)

/-- The cell's meridians advance by one; a cycle without an obeyed frame is counted and begins hold; at HOLD_LIMIT the
cell blocks and its meridians stop; the payload of 24 bytes clears EVFLAGS and both frame counts; report and
management bursts of 40 bytes leave with their type, the management burst taking the oldest response. A management
grant at least 1 µs ahead is kept; an RSLOT names the report slot from its round; LASER_KILL darkens the uplink at
once (KILLED, LASER_KILLED bit 16); an entry for another berth changes nothing. -/
def Obligations.CellCycle : Prop :=
  (∀ (s : State), s.cellMeridians = true → s.rx.obeyedK.contains (s.nextK - 1) = true → Yields .cellMeridian s fun t
    => t.time.lastK = some s.nextK ∧ t.reg R.TIME_K_LO = BitVec.ofNat 32 s.nextK ∧ t.reg (R.TREE_CELL_LOST 0) =
    s.reg (R.TREE_CELL_LOST 0)) ∧
  (∀ (s : State), s.cellMeridians = true → s.rx.obeyedK.contains (s.nextK - 1) = false → s.rxState = 1 → Yields
    .cellMeridian s fun t => t.time.lastK = some s.nextK ∧ t.get ⟨R.TREE_CELL_LOST 0, 0, 32⟩ = satAdd 32 (s.get
    ⟨R.TREE_CELL_LOST 0, 0, 32⟩) 1 ∧ t.rxState = 2 ∧ bitOf (t.reg (R.PG_EVT (Pg.TREE 0))).toNat 12 = true ∧ bitOf
    t.gate.flags 6 = true) ∧
  (∀ (s : State), s.alive = true → s.isCell = true → s.rx.obeying = true → Yields .holdLimit s fun t => t.rxState =
    3 ∧ t.rx.obeying = false ∧ t.get F.TIME_MER_RUN = 0 ∧ t.safe.db = false ∧ t.gate.state = .block ∧ t.gate.blocked
    = true ∧ bitOf (t.reg (R.PG_EVT (Pg.TREE 0))).toNat 13 = true) ∧
  (∀ (s : State) (n x : Nat), (s.pathOn 0 = true ∨ s.pathOn 1 = true) → nextBy s.payloadAt s.now 4 s.roundFrom =
    some (n, x) → Yields .payloadBuild s fun t => t.rx.payload.length = 24 ∧ t.gate.flags = 0 ∧ (t.uplink 0).seen =
    0 ∧ (t.uplink 1).seen = 0 ∧ (t.uplink 0).mreq = (!(s.uplink 0).resps.isEmpty || !(s.uplink 0).chunks.isEmpty) ∧
    x ≤ t.now) ∧
  (∀ (s : State) (u n x : Nat), nextBy (s.reportLaunch u) s.now 4 (s.roundNow u) = some (n, x) → s.pathOn u = true →
    s.laserOn u = true → (s.uplink u).session.isSome = true → s.rx.payload.length = 24 → Yields (.reportBurstTx u) s
    fun t => (t.uplink u).burst.length = 40 ∧ nth (t.uplink u).burst 1 0 = 1 ∧ (nth (t.uplink u).burst 0 0).toNat =
    ((s.uplink u).berth.getD 0) % 256 ∧ ((t.uplink u).burst.drop 4).take 17 = s.rx.payload.take 17) ∧
  (∀ (s : State) (u m n x : Nat) (r : MgmtResp) (l : List MgmtResp), s.nextGrant u = some (m, n, x) → s.pathOn u =
    true → s.laserOn u = true → (s.uplink u).resps = r :: l → (s.uplink u).sentCyc = 0 → Yields (.mgmtBurstTx u) s
    fun t => (t.uplink u).resps = l ∧ (t.uplink u).burst.length = 40 ∧ nth (t.uplink u).burst 1 0 = 2 ∧ t.get
    (F.TREE_CELL_SLOT_GRANTS u) = (s.get (F.TREE_CELL_SLOT_GRANTS u) + 1) % 2 ^ (F.TREE_CELL_SLOT_GRANTS u).w ∧ (m,
    n) ∉ (t.uplink u).grants) ∧
  (∀ (s : State) (u b sl rd : Nat), s.frameOn u = true → s.ownBerth u b = true → s.now + 1000 * unitsPerNs ≤ slotAt
    (s.rate u) (roundNamed (s.roundNow u) (rd % 256)) (mgmtIdx (sl % 8)) - s.dUp u → Yields (.mgrant u b sl rd) s
    fun t => (sl % 8, roundNamed (s.roundNow u) (rd % 256)) ∈ (t.uplink u).grants) ∧
  (∀ (s : State) (u b sl rd : Nat), s.frameOn u = true → s.keyed u = true → s.ownBerth u b = true → Yields (.rslot u
    b sl rd) s fun t => (sl % 256, roundNamed (s.roundNow u) (rd % 256)) ∈ (t.uplink u).moves) ∧
  (∀ (s : State) (u b : Nat) (all : Bool), s.frameOn u = true → s.keyed u = true → (s.ownBerth u b = true ∨ all =
    true) → s.is (F.TREE_CELL_SLOT_KILLED u) = false → Yields (.laserKill u b all) s fun t => t.get
    (F.TREE_CELL_SLOT_KILLED u) = 1 ∧ t.laserOn u = false ∧ bitOf (t.reg (R.PG_EVT (Pg.TREE u))).toNat 16 = true) ∧
  (∀ (s : State) (u b sl rd : Nat), s.Settled → s.ownBerth u b = false → exec (.mgrant u b sl rd) s = .next s ∧ exec
    (.rslot u b sl rd) s = .next s ∧ exec (.laserKill u b false) s = .next s)

/-- An event leaves the queue at its launch instant. A request that the gate block takes (running, deblocked, no
fault, no pulse too short, compensation off) makes the edge: its state is in force, a leg that changes turns off at
once, the other switch waits for the dead time; a shorter pulse is dropped and counted; BLOCK_CELL blocks; FIRE_THY
starts a train; PERM_BYPASS bypasses for good; a trim pulse holds its end. -/
def Obligations.GateEvents : Prop :=
  (∀ (s : State) (e : CellEvent) (l : List CellEvent) (a : EvAct), s.Settled → s.gateLive = true → s.rx.events = e
    :: l → e.act = a → a ≠ .byp → a ≠ .blockCell → a ≠ .insPos → exec .eventByp s = .next s ∧ exec .eventBlockCell s
    = .next s ∧ exec .eventInsPos s = .next s) ∧
  (∀ (s : State) (e : CellEvent) (l : List CellEvent), s.Settled → s.gateLive = true → s.rx.events = e :: l → e.act
    = .insPos → s.gate.blocked = false → s.inStop = false → s.gate.state = .bypass → s.gate.legA = .lower →
    s.gate.lastAt = none → l = [] → s.gate.trimEnd = none → s.cmod.edge = none → s.is F.GATE_CFG_DTC = false →
    Yields .eventInsPos s fun t => t.rx.events = l ∧ t.gate.state = .pos ∧ t.gate.legA = .off ∧ t.gate.riseA = some
    .upper ∧ t.gate.lastAt = some e.instant ∧ t.gate.falls = e.instant ∧ t.gate.rises = e.instant + s.deadTime ∧
    e.instant ≤ t.now) ∧
  (∀ (s : State) (e : CellEvent) (l : List CellEvent), s.Settled → s.gateLive = true → s.full = true → s.rx.events =
    e :: l → e.act = .insNeg → s.gate.blocked = false → s.inStop = false → s.gate.state = .bypass → s.gate.legA =
    .lower → s.gate.legB = .lower → s.gate.lastAt = none → l = [] → s.gate.trimEnd = none → s.cmod.edge = none →
    s.is F.GATE_CFG_DTC = false → Yields .eventInsNeg s fun t => t.gate.state = .neg ∧ t.gate.legA = .lower ∧
    t.gate.legB = .off ∧ t.gate.riseB = some .upper ∧ t.gate.riseA = none) ∧
  (∀ (s : State) (e : CellEvent) (l : List CellEvent), s.Settled → s.gateLive = true → s.rx.events = e :: l → e.act
    = .byp → s.gate.blocked = false → s.inStop = false → s.gate.state = .pos → s.full = false → s.gate.legA = .upper
    → s.gate.legB = .off → s.gate.lastAt = none → l = [] → s.gate.trimEnd = none → s.cmod.edge = none → s.is
    F.GATE_CFG_DTC = false → Yields .eventByp s fun t => t.gate.state = .bypass ∧ t.gate.legA = .off ∧ t.gate.riseA
    = some .lower) ∧
  (∀ (s : State) (e : CellEvent) (l : List CellEvent) (d : CellState), s.Settled → s.gateLive = true → s.rx.events =
    e :: l → e.act = .swap d → d = .bypass → s.gate.blocked = false → s.inStop = false → s.gate.state = .pos →
    s.full = false → s.gate.legA = .upper → s.gate.legB = .off → s.gate.lastAt = none → l = [] → s.gate.trimEnd =
    none → s.cmod.edge = none → s.is F.GATE_CFG_DTC = false → Yields .eventSwapHead s fun t => t.gate.state = d ∧
    t.gate.riseA = some .lower ∧ t.rx.events = []) ∧
  (∀ (s : State) (e x : CellEvent), s.Settled → s.gateLive = true → s.rx.events = [e, x] → e.act = .insPos → x.act =
    .byp → x.instant < e.instant + s.pulseMin → s.gate.blocked = false → s.inStop = false → s.gate.state = .bypass →
    s.gate.trimEnd = none → s.cmod.edge = none → Yields .eventInsPos s fun t => t.gate.state = .bypass ∧ t.gate.legA
    = s.gate.legA ∧ t.get F.GATE_CNT_SHORT = satAdd F.GATE_CNT_SHORT.w (s.get F.GATE_CNT_SHORT) 1 ∧ bitOf
    t.gate.flags 4 = true ∧ t.rx.events = [x]) ∧
  (∀ (s : State) (e : CellEvent) (l : List CellEvent), s.gateLive = true → s.rx.events = e :: l → e.act = .blockCell
    → s.inStop = false → Yields .eventBlockCell s fun t => t.gate.state = .block ∧ t.gate.blocked = true ∧
    t.rx.events = l) ∧
  (∀ (s : State) (e : CellEvent) (l : List CellEvent), s.gateLive = true → s.rx.events = e :: l → e.act = .blockCell
    → s.inStop = false → s.gate.blocked = false → Yields .eventBlockCell s fun t => t.safe.db = false) ∧
  (∀ (s : State) (e : CellEvent) (l : List CellEvent) (on : CellState) (w : Nat), s.Settled → s.gateLive = true →
    s.rx.events = e :: l → e.act = .trim on w → on = .pos → s.pulseMin ≤ w → s.gate.blocked = false → s.inStop =
    false → s.gate.state = .bypass → s.gate.lastAt = none → l = [] → s.gate.trimEnd = none → s.cmod.edge = none →
    Yields .eventTrim s fun t => t.gate.state = .pos ∧ t.gate.trimEnd = some (e.instant + w, s.commandedState,
    e.queuedAt) ∧ t.rx.events = []) ∧
  (∀ (s : State) (x : Nat) (st : CellState) (q : Nat), s.gateLive = true → s.gate.trimEnd = some (x, st, q) → Yields
    .trimEnd s fun t => t.gate.trimEnd = none ∧ x ≤ t.now) ∧
  (∀ (s : State) (e : CellEvent) (l : List CellEvent), s.gateLive = true → s.rx.events = e :: l → e.act = .fireThy →
    s.gate.pbyp = false → s.inStop = false → Yields .eventFireThy s fun t => t.gate.thyLeft = max 1 (s.get
    F.GATE_THY_N) ∧ t.gate.gate4 = true ∧ t.rx.events = l) ∧
  (∀ (s : State) (e : CellEvent) (l : List CellEvent), s.gateLive = true → s.rx.events = e :: l → e.act =
    .permBypass → s.gate.pbyp = false → s.inStop = false → Yields .eventPermBypass s fun t => t.gate.pbyp = true ∧
    t.gate.gate5 = true ∧ t.gate.gate5Run = true ∧ t.gate.state = .block ∧ t.gate.legA = .off ∧ t.gate.legB = .off ∧
    t.safe.db = false) ∧
  (∀ (s : State), s.Settled → s.gateLive = true → (s.gate.riseA.isSome = true ∨ s.gate.riseB.isSome = true) → Yields
    .deadTimeTurnOn s fun t => t.gate.legA = s.gate.riseA.getD s.gate.legA ∧ t.gate.legB = s.gate.riseB.getD
    s.gate.legB ∧ t.gate.riseA = none ∧ t.gate.riseB = none ∧ KeepsRegs [] s t ∧ KeepsMem s t)

/-- An enabled source that stays low past the filter latches at once: every leg is off or at its safe level, DB is
clear, the queued requests for bypass and insertion are gone, FAULT (bit 8) is raised; a source that is not enabled
(sources 1 to 3) only shows; the safe levels turn on after their delay; a clear is refused while an enabled source
asserts, else the latch clears and the cell is blocked; comparators 0 and 2 are the overvoltage and overcurrent
sources, comparator 1 starts the permanent bypass where enabled, comparator 3 is an event; a source or comparator
that releases leaves its latch. -/
def Obligations.FaultLogic : Prop :=
  (∀ (s : State) (n low : Nat), s.gateLive = true → n < 4 → 1000 < low → bitOf (s.get F.GATE_CFG_FEN) n = true →
    Yields (.faultAssert ⟨n, low⟩) s fun t => bitOf t.gate.latch n = true ∧ t.gate.state = .block ∧ t.gate.blocked =
    true ∧ t.safe.db = false ∧ (t.gate.legA = .off ∨ t.gate.legA = t.safeLeg false) ∧ (t.gate.legB = .off ∨
    t.gate.legB = t.safeLeg true) ∧ t.gate.trimEnd = none ∧ t.eventsFor 0 = [] ∧ bitOf (t.reg (R.PG_EVT
    Pg.GATE)).toNat 8 = true ∧ bitOf t.gate.flags n = true) ∧
  (∀ (s : State) (n low : Nat), s.Settled → s.gateLive = true → 0 < n → n < 4 → 1000 < low → bitOf (s.get
    F.GATE_CFG_FEN) n = false → Yields (.faultAssert ⟨n, low⟩) s fun t => t.gate =
    { s.gate with flags := t.gate.flags, live := s.gate.live ||| 1 <<< n } ∧ bitOf t.gate.flags n = true ∧ KeepsRegs
    [] s t ∧ KeepsMem s t) ∧
  (∀ (s : State), s.gateLive = true → s.gate.latch ≠ 0 → s.gate.pbyp = false → Yields .safeLevelTurnOn s fun t =>
    t.gate.legA = s.safeLeg false ∧ t.gate.legB = s.safeLeg true ∧ t.gate.safeOn = true ∧ t.gate.state = .block) ∧
  (∀ (s : State) (path : Path), s.Reaches path Pg.GATE → s.isCell = true → s.gate.live &&& s.get F.GATE_CFG_FEN = 0
    → s.gate.latch ≠ 0 → s.gate.pbyp = false → Yields (.gateFclr path) s fun t => t.gate.latch = 0 ∧ t.gate.state =
    .block ∧ t.gate.blocked = true ∧ t.gate.legA = .off ∧ t.gate.legB = .off) ∧
  (∀ (s : State) (path : Path), s.Reaches path Pg.GATE → s.isCell = true → s.gate.live &&& s.get F.GATE_CFG_FEN ≠ 0
    → Yields (.gateFclr path) s fun t => t.gate.latch = s.gate.latch ∧ t.get F.GATE_CNT_REFCLR = satAdd
    F.GATE_CNT_REFCLR.w (s.get F.GATE_CNT_REFCLR) 1 ∧ bitOf (t.reg (R.PG_EVT Pg.GATE)).toNat 9 = true) ∧
  (∀ (s : State) (n : Nat), s.Settled → s.gateLive = true → n < 4 → Yields (.faultSourceRelease n) s fun t => bitOf
    t.gate.live n = false ∧ t.gate.latch = s.gate.latch ∧ KeepsRegs [] s t ∧ KeepsMem s t) ∧
  (∀ (s : State) (f : Nat) (codes : List Int), s.gateLive = true → (f = 0 ∨ f = 2) → canAssert s f codes = true →
    bitOf (s.get F.GATE_CFG_FEN) (f / 2 + 2) = true → Yields (.comparatorAssert ⟨f, codes⟩) s fun t => bitOf
    t.gate.latch (f / 2 + 2) = true ∧ t.safe.db = false ∧ bitOf (t.get F.ADC_FSTAT_HIT) f = true ∧ bitOf (t.reg
    (R.PG_EVT Pg.ADC)).toNat (8 + f) = true) ∧
  (∀ (s : State) (f : Nat) (codes : List Int), s.gateLive = true → f = 1 → canAssert s f codes = true → s.is
    F.GATE_PBY_OV2EN = true → Yields (.comparatorAssert ⟨f, codes⟩) s fun t => t.gate.pbyp = true ∧ t.gate.state =
    .block ∧ bitOf (t.get F.ADC_FSTAT_LIVE) f = true) ∧
  (∀ (s : State) (f : Nat) (codes : List Int), s.gateLive = true → f = 3 → canAssert s f codes = true → Yields
    (.comparatorAssert ⟨f, codes⟩) s fun t => bitOf (t.get F.ADC_FSTAT_LIVE) f = true ∧ bitOf (t.reg (R.PG_EVT
    Pg.ADC)).toNat 11 = true ∧ t.gate.latch = s.gate.latch) ∧
  (∀ (s : State) (f : Nat) (code : Int), s.gateLive = true → f < 4 → inBand s f code = true → Yields
    (.comparatorDeassert ⟨f, code⟩) s fun t => bitOf (t.get F.ADC_FSTAT_LIVE) f = false ∧ t.gate.latch =
    s.gate.latch) ∧
  (∀ (s : State) (f : Nat) (code : Int), s.gateLive = true → (f = 0 ∨ f = 2) → inBand s f code = true → Yields
    (.comparatorDeassert ⟨f, code⟩) s fun t => bitOf (t.get F.ADC_FSTAT_LIVE) f = false ∧ bitOf t.gate.live (f / 2 +
    2) = false)

/-- A cause of STOP stops a HALF cell in block and raises STOPPED (bit 12); it ends cause by cause; the train on GATE4
pulses N times and ends with THY_DONE (bit 11); GATE5 is released after W; a calibration out of 64 to 511 sets FAULT
(bit 13) until one lands in range. ARM is set and the first instant taken when that instant is at least 1 µs ahead
(a nanosecond is left for the fraction that the write itself sets), else TEV_LATE (bit 22) is raised; DISARM keeps
the level; at its instant an output sets (ACT 1 and 2), raises its event and disarms unless periodic (ACT 3), whose
next instant is PER later; a pulse ends low. -/
def Obligations.GateStops : Prop :=
  (∀ (s : State) (c : StopCause), s.gateLive = true → c ≠ .page → s.full = false → Yields (.gateStopEnter c) s fun t
    => t.gate.stops.contains c = true ∧ t.inStop = true ∧ t.gate.state = .block ∧ t.gate.blocked = true) ∧
  (∀ (s : State) (c : StopCause), s.gateLive = true → c ≠ .page → s.inStop = false → Yields (.gateStopEnter c) s fun
    t => t.gate.stops.contains c = true ∧ bitOf (t.reg (R.PG_EVT Pg.GATE)).toNat 12 = true) ∧
  (∀ (s : State) (c : StopCause), s.gateLive = true → c ≠ .page → Yields (.gateStopExit c) s fun t =>
    t.gate.stops.contains c = false ∧ t.gate.stops.all (fun x => s.gate.stops.contains x) = true) ∧
  (∀ (s : State), s.Settled → s.gateLive = true → 1 < s.gate.thyLeft → max 1 (s.get F.GATE_THY_PW) < max 1 (s.get
    F.GATE_THY_PER) → exec .thyristorPulse s = .next
    { s with gate := { s.gate with gate4 := !s.gate.gate4, thyLeft := if s.gate.gate4 then s.gate.thyLeft else s.gate.thyLeft - 1 } }) ∧
  (∀ (s : State), s.gateLive = true → s.gate.thyLeft = 1 → Yields .thyDone s fun t => t.gate.thyLeft = 0 ∧
    t.gate.gate4 = false ∧ bitOf (t.reg (R.PG_EVT Pg.GATE)).toNat 11 = true) ∧
  (∀ (s : State), s.Settled → s.gateLive = true → s.gate.gate5Run = true → exec .gate5Release s = .next
    { s with gate := { s.gate with gate5 := false, gate5Run := false } }) ∧
  (∀ (s : State) (n : Nat), s.gateLive = true → s.get (F.CLK_DOM_CURSRC 0) ≠ 3 → s.gate.taps.length = 15 → 64 ≤ (n +
    s.gate.taps.sum) / 16 → (n + s.gate.taps.sum) / 16 ≤ 511 → Yields (.delayLineCal n) s fun t => t.get
    F.GATE_DLCAL_TAPS = (n + s.gate.taps.sum) / 16 ∧ t.get F.GATE_DLCAL_VALID = 1 ∧ t.get F.GATE_DLCAL_FAULT = 0) ∧
  (∀ (s : State) (n : Nat), s.gateLive = true → s.get (F.CLK_DOM_CURSRC 0) ≠ 3 → s.gate.taps.length = 15 → (n +
    s.gate.taps.sum) / 16 < 64 → s.is F.GATE_DLCAL_FAULT = false → Yields (.delayLineCal n) s fun t => t.get
    F.GATE_DLCAL_FAULT = 1 ∧ bitOf (t.reg (R.PG_EVT Pg.GATE)).toNat 13 = true) ∧
  (∀ (s : State) (path : Path) (n : Nat) (data : Word), s.Reaches path Pg.GATE → s.isHub = true → n < 6 → s.is
    (F.TEV_CTL_ARM n) = false → bitOf data.toNat 5 = false → s.clk.gating.contains Pg.GATE = false → s.now + nsUnits
    1001 ≤ s.tevInstant n → Yields (.tevArm path n data) s fun t => t.get (F.TEV_CTL_ARM n) = 1 ∧ nth t.gate.tevNext
    n 0 = t.tevInstant n) ∧
  (∀ (s : State) (path : Path) (n : Nat) (data : Word), s.Reaches path Pg.GATE → s.isHub = true → n < 6 → s.is
    (F.TEV_CTL_ARM n) = false → bitOf data.toNat 5 = false → s.clk.gating.contains Pg.GATE = false → s.tevInstant n
    < s.now + nsUnits 999 → Yields (.tevArm path n data) s fun t => t.get (F.TEV_CTL_ARM n) = 0 ∧ t.gate.tevNext =
    s.gate.tevNext ∧ bitOf (t.reg (R.PG_EVT Pg.GATE)).toNat 22 = true) ∧
  (∀ (s : State) (path : Path) (n : Nat), s.Reaches path Pg.GATE → s.isHub = true → n < 6 → s.clk.gating.contains
    Pg.GATE = false → Yields (.tevDisarm path n) s fun t => t.get (F.TEV_CTL_ARM n) = 0 ∧ t.gate.tev = s.gate.tev) ∧
  (∀ (s : State) (n : Nat), s.alive = true → s.isHub = true → s.runs Pg.GATE = true → n < 6 → s.is (F.TEV_CTL_ARM n)
    = true → s.get (F.TEV_CTL_ACT n) ≠ 3 → Yields (.tevFired n) s fun t => nth t.gate.tev n false = (s.get
    (F.TEV_CTL_ACT n) != 0) ∧ t.get (F.TEV_CTL_ARM n) = 0 ∧ bitOf (t.reg (R.PG_EVT Pg.GATE)).toNat (16 + n) = true ∧
    nth s.gate.tevNext n 0 ≤ t.now) ∧
  (∀ (s : State) (n : Nat), s.alive = true → s.isHub = true → s.runs Pg.GATE = true → n < 6 → s.is (F.TEV_CTL_ARM n)
    = true → s.get (F.TEV_CTL_ACT n) = 3 → Yields (.tevFired n) s fun t => nth t.gate.tev n false = true ∧ t.get
    (F.TEV_CTL_ARM n) = 1 ∧ nth t.gate.tevNext n 0 = nth s.gate.tevNext n 0 + nsUnits (1000 * max 1 (s.get
    (F.TEV_W_PER n)))) ∧
  (∀ (s : State) (n x : Nat), s.Settled → s.alive = true → s.isHub = true → s.runs Pg.TIME = true → n < 6 → nth
    s.gate.tevEnd n none = some x → Yields (.tevPulseEnd n) s fun t => nth t.gate.tev n true = false ∧ nth
    t.gate.tevEnd n none = none ∧ x ≤ t.now)

/-- A TRIP or SAFE source that stays low past its filter latches its bit and VB falls with it; discrepant SAFE inputs
latch DISC and restart the start-up test, which passes when both open and close again; ACLR clears only with no
source asserting; BREQ blocks until BCLR; DEBLOCK passes the tests of R515 or is refused with the first that fails;
the sequencer queues one record of a berth at a time, and the single deblock its one; an input that releases asserts
no more; a halt by the debug port blocks where DBGBLK says so. -/
def Obligations.HubValveBlock : Prop :=
  (∀ (s : State) (pin : BlockPin) (low : Nat), s.hubLive = true → 10000 ≤ low → Yields (.alatch ⟨pin, low⟩) s fun t
    => bitOf t.safe.alatch (if pin = .trip0 then 0 else if pin = .trip1 then 1 else 2) = true ∧ t.safe.alatch ≠ 0 ∧
    t.safe.vb = false ∧ bitOf t.safe.asserted (pinBit pin) = true ∧ bitOf (t.reg (R.PG_EVT Pg.SAFE)).toNat 10 =
    true) ∧
  (∀ (s : State) (pin : BlockPin) (low : Nat), s.hubLive = true → (pin = .trip0 ∨ pin = .trip1) → passesFilter
    (s.get (if pin = .trip0 then F.SAFE_HCFG_TF0 else F.SAFE_HCFG_TF1)) low = true → Yields (.alatch ⟨pin, low⟩) s
    fun t => bitOf t.safe.alatch (if pin = .trip0 then 0 else 1) = true ∧ t.safe.vb = false ∧ bitOf (t.reg (R.PG_EVT
    Pg.SAFE)).toNat 10 = true) ∧
  (∀ (s : State), s.hubLive = true → s.pins.safeA ≠ s.pins.safeB → Yields .disc s fun t => bitOf t.safe.alatch 3 =
    true ∧ bitOf t.safe.asserted 4 = true ∧ t.safe.startup = 0 ∧ t.safe.vb = false ∧ t.get F.SAFE_HCNT_DISCS =
    satAdd F.SAFE_HCNT_DISCS.w (s.get F.SAFE_HCNT_DISCS) 1) ∧
  (∀ (s : State) (pin : BlockPin), s.hubLive = true → Yields (.hubSourceRelease pin) s fun t => bitOf
    t.safe.asserted (pinBit pin) = false ∧ t.safe.alatch = s.safe.alatch) ∧
  (∀ (s : State), s.Settled → s.hubLive = true → s.safe.startup = 0 → s.pins.safeA = false → s.pins.safeB = false →
    exec .startupTestOpen s = .next { s with safe := { s.safe with startup := 1 } }) ∧
  (∀ (s : State), s.hubLive = true → s.safe.startup = 1 → s.pins.safeA = true → s.pins.safeB = true → Yields
    .startupPass s fun t => t.safe.startup = 2 ∧ bitOf (t.reg (R.PG_EVT Pg.SAFE)).toNat 12 = true) ∧
  (∀ (s : State) (path : Path), s.Reaches path Pg.SAFE → s.isHub = true → s.safe.asserted = 0 → Yields (.hubAclr
    path) s fun t => t.safe.alatch = 0 ∧ t.resp.code = Code.ok) ∧
  (∀ (s : State) (path : Path), s.Reaches path Pg.SAFE → s.isHub = true → s.safe.asserted ≠ 0 → Yields (.hubAclr
    path) s fun t => t.safe.alatch = s.safe.alatch ∧ t.get F.SAFE_HCNT_ACLRREF = satAdd F.SAFE_HCNT_ACLRREF.w (s.get
    F.SAFE_HCNT_ACLRREF) 1 ∧ bitOf (t.reg (R.PG_EVT Pg.SAFE)).toNat 14 = true) ∧
  (∀ (s : State) (path : Path), s.Reaches path Pg.SAFE → s.isHub = true → Yields (.hubBset path) s fun t =>
    t.safe.breq = true ∧ bitOf t.safe.breqSrc 0 = true ∧ t.safe.vb = false) ∧
  (∀ (s : State) (path : Path), s.Reaches path Pg.SAFE → s.isHub = true → Yields (.hubBclr path) s fun t =>
    t.safe.breq = false ∧ t.safe.breqSrc = 0) ∧
  (∀ (s : State) (path : Path), s.Reaches path Pg.SAFE → s.isHub = true → s.safe.startup = 2 → s.safe.alatch = 0 →
    s.safe.breq = false → (s.is F.SYS_TOPO_TWIN = false ∨ s.twin.active = true) → s.runs Pg.TIME = true → s.is
    F.TIME_MER_RUN = true → s.twin.refLost = false → Yields (.hubDeblock path) s fun t => t.safe.vb = true ∧
    t.safe.seqLeft = s.deblockList ∧ t.get F.SAFE_HDBLK_REFUSED = s.get F.SAFE_HDBLK_REFUSED) ∧
  (∀ (s : State) (path : Path), s.Reaches path Pg.SAFE → s.isHub = true → s.safe.startup = 2 → s.safe.alatch ≠ 0 →
    Yields (.hubDeblock path) s fun t => t.safe.vb = false ∧ t.get F.SAFE_HDBLK_WHY = 2 ∧ t.get F.SAFE_HDBLK_REFUSED
    = satAdd F.SAFE_HDBLK_REFUSED.w (s.get F.SAFE_HDBLK_REFUSED) 1 ∧ bitOf (t.reg (R.PG_EVT Pg.SAFE)).toNat 13 =
    true) ∧
  (∀ (s : State) (i : Nat) (l : List Nat), s.hubLive = true → s.safe.vb = true → s.safe.alatch = 0 → s.safe.breq =
    false → s.is F.SYS_TOPO_TWIN = false → s.safe.seqLeft = i :: l → mayDeblock (s.berth i) = true → s.mgmtRoom (i /
    256) = true → i < 1024 → Yields .deblockSequenceQueue s fun t => t.safe.seqLeft = l ∧ ((t.port (i /
    256)).mq.getLast?.map fun r => (r.berth, r.rtype, r.deblock)) = some (i % 256, 2, true) ∧ t.safe.seqOpen =
    s.safe.seqOpen ++ [i]) ∧
  (∀ (s : State) (path : Path) (i : Nat), s.Reaches path Pg.SAFE → s.isHub = true → s.safe.vb = true → s.safe.alatch
    = 0 → s.safe.breq = false → s.is F.SYS_TOPO_TWIN = false → s.safe.seqLeft = [] → i < 1024 → mayDeblock (s.berth
    i) = true → s.mgmtRoom (i / 256) = true → Yields (.singleBerthDeblock path i) s fun t => ((t.port (i /
    256)).mq.getLast?.map fun r => (r.berth, r.rtype, r.deblock)) = some (i % 256, 2, true) ∧ t.safe.vb = true) ∧
  (∀ (s : State), s.alive = true → s.is F.DBG_STAT_OPEN = true → s.isHub = true → s.is F.SAFE_HCFG_DBGBLK = true →
    Yields .supervisorDebugHalt s fun t => t.sup.halted = true ∧ t.safe.breq = true ∧ bitOf t.safe.breqSrc 5 = true
    ∧ t.safe.vb = false)

/-- A deblock on the tree path that passes the tests of R518 sets DB and leaves block; one on the supervisor's path is
refused with WHY 7 and STATIC; a block clears DB; BLOCK ordered sets force block levels, clear DB, count and show
the reaction time; their end clears BLKSEEN at least four cycles after the last; 0x9B55 starts the permanent bypass;
a halt by the debug port is a cause of STOP. -/
def Obligations.CellBlocking : Prop :=
  (∀ (s : State) (pr sm : Bool), s.Reaches (.remote pr sm) Pg.SAFE → s.isCell = true → s.cellDeblockWhy true = 0 →
    s.safe.db = false → (s.safe.plaus = false ∨ s.is F.SAFE_CCFG_PLACT = false) → Yields (.cellDeblock (.remote pr
    sm)) s fun t => t.safe.db = true ∧ t.gate.blocked = false ∧ bitOf (t.reg (R.PG_EVT Pg.SAFE)).toNat 17 = true ∧
    t.get F.SAFE_CCNT_DEBLOCKS = (s.get F.SAFE_CCNT_DEBLOCKS + 1) % 2 ^ F.SAFE_CCNT_DEBLOCKS.w) ∧
  (∀ (s : State) (path : Path), s.Reaches path Pg.SAFE → s.isCell = true → path = .supervisor → Yields (.cellDeblock
    path) s fun t => t.get F.SAFE_CSTAT_WHY = 7 ∧ t.get F.SAFE_CCNT_REFUSED = satAdd F.SAFE_CCNT_REFUSED.w (s.get
    F.SAFE_CCNT_REFUSED) 1 ∧ t.resp.code = Code.static) ∧
  (∀ (s : State) (path : Path), s.Settled → s.Reaches path Pg.SAFE → s.isCell = true → path = .supervisor → Yields
    (.cellDeblock path) s fun t => t.safe.db = s.safe.db ∧ t.resp.code = Code.static) ∧
  (∀ (s : State) (path : Path), s.Reaches path Pg.SAFE → s.isCell = true → Yields (.cellBlock path) s fun t =>
    t.safe.db = false ∧ t.gate.state = .block ∧ t.gate.blocked = true) ∧
  (∀ (s : State) (path : Path), s.Reaches path Pg.SAFE → s.isCell = true → s.gate.pbyp = false → Yields
    (.cellPermBypass path) s fun t => t.gate.pbyp = true ∧ t.gate.gate5 = true ∧ t.safe.db = false ∧ t.gate.legA =
    .off ∧ t.gate.legB = .off) ∧
  (∀ (s : State) (u r : Nat), s.gateLive = true → u < 2 → Yields (.blkos u r) s fun t => t.safe.db = false ∧
    t.safe.blkSeen = true ∧ t.gate.state = .block ∧ t.gate.blocked = true ∧ t.get F.SAFE_CREACT_LAST = min 65535 r ∧
    t.get F.SAFE_CCNT_BLKOS = satAdd F.SAFE_CCNT_BLKOS.w (s.get F.SAFE_CCNT_BLKOS) 1) ∧
  (∀ (s : State) (u r : Nat), s.gateLive = true → u < 2 → s.gate.latch = 0 → Yields (.blkos u r) s fun t =>
    t.gate.legA = .off ∧ t.gate.legB = .off) ∧
  (∀ (s : State), s.gateLive = true → s.safe.blkSeen = true → s.runs Pg.TIME = true → Yields .blkseenClear s fun t
    => t.safe.blkSeen = false ∧ s.safe.blkAt + 4 * s.tcyc ≤ t.now ∧ t.blkSeenNow = (s.uplinkTest 0 || s.uplinkTest
    1)) ∧
  (∀ (s : State), s.alive = true → s.is F.DBG_STAT_OPEN = true → s.isCell = true → Yields .supervisorDebugHalt s fun
    t => t.sup.halted = true ∧ t.gate.stops.contains .debug = true)

/-- A kept result enters the sum, count, minimum and maximum of its window; at full scale it is an overload, counted
and raised (bit 12). -/
def Obligations.Measurement : Prop :=
  (∀ (s : State) (x : Int) (i : Nat), s.alive = true → s.isCell = true → s.runs Pg.ADC = true → s.is F.ADC_CTL_M1EN
    = true → s.runs Pg.ACC = true → s.aligned = s.is F.ACC_WIN_MODE → (i - s.groupDelay 1) / gridUnit < (s.acc
    1).stop → 0 < (s.acc 1).count → -(2 ^ 23) < x → x < 2 ^ 23 - 1 → Yields (.adcResult 1 0 x i) s fun t => (t.acc
    1).sum = (s.acc 1).sum + x ∧ (t.acc 1).count = (s.acc 1).count + 1 ∧ (t.acc 1).lo = min (s.acc 1).lo x ∧ (t.acc
    1).hi = max (s.acc 1).hi x ∧ t.adc.last = s.adc.last) ∧
  (∀ (s : State) (x : Int) (i : Nat), s.alive = true → s.isCell = true → s.runs Pg.ADC = true → s.is F.ADC_CTL_M0EN
    = true → s.runs Pg.ACC = true → s.aligned = s.is F.ACC_WIN_MODE → (i - s.groupDelay 0) / gridUnit < (s.acc
    0).stop → (i - s.groupDelay 0) / gridUnit < (s.acc 10).stop → 2 ^ 23 - 1 ≤ x → Yields (.adcResult 0 0 x i) s fun
    t => (t.acc 0).sum = (s.acc 0).sum + (2 ^ 23 - 1) ∧ (t.acc 10).sum = (s.acc 10).sum + (2 ^ 23 - 1) ∧ bitOf
    (t.reg (R.PG_EVT Pg.ADC)).toNat 12 = true ∧ t.get ⟨R.ADC_OVL, 0, 8⟩ = satAdd 8 (s.get ⟨R.ADC_OVL, 0, 8⟩) 1)

/-- Stages run in their order: B after A takes the latched rank commands, C after A runs the engine once, D after B
makes the orders, E after C and D plans the moves, F after E makes the frames ready, unless the work is late or
invalid, and ends the work. A meridian is the next cycle's: K and TIME_K become its number, no frame stays ready;
the deadline test passes when every launching port has its frame, clearing RUN, and otherwise counts a miss
(DEADLINE_MISS, bit 8). -/
def Obligations.WorkStages : Prop :=
  (∀ (s : State) (ns : Nat) (x : Snap), s.mod.used = some x → s.stageDue 1 1 = true → s.runs Pg.RANK = true → Yields
    (.stageB ns) s fun t => bitOf t.mod.stages 1 = true ∧ t.rank.jobs = [] ∧ t.rank.lastB = some x.k ∧ t.mod.used =
    some x) ∧
  (∀ (s : State) (ns lat : Nat), s.stageDue 1 2 = true → s.runs Pg.CTL = true → s.is F.SYS_TOPO_TWIN = false →
    s.running = none → s.eng.ho = none → s.runs Pg.SUP = false → s.runs Pg.SCHD = false → Yields (.stageC ns lat) s
    fun t => bitOf t.mod.stages 2 = true ∧ t.get F.CTL_LAT_LAST = min 65535 lat ∧ t.mod.invalid = false) ∧
  (∀ (s : State) (ns : Nat) (x : Snap), s.mod.used = some x → s.stageDue 3 3 = true → s.runs Pg.RANK = true → Yields
    (.stageD ns) s fun t => bitOf t.mod.stages 3 = true ∧ t.rank.sorted = true ∧ t.rank.orders.length = 2 ∧
    t.rank.lastAvail = [s.availOf 0, s.availOf 1]) ∧
  (∀ (s : State) (ns : Nat) (x : Snap), s.mod.used = some x → s.stageDue 15 4 = true → s.runs Pg.MOD = true → Yields
    (.stageE ns) s fun t => bitOf t.mod.stages 4 = true ∧ (t.mod.moves.map (·.target)) = some (x.k + 1 + s.lead) ∧
    t.twin.adopt = none) ∧
  (∀ (s : State) (ns : Nat) (x : Snap), s.mod.used = some x → s.stageDue 31 5 = true → s.runs Pg.MOD = true →
    s.time.lastK = some x.k → s.mod.late = false → s.mod.invalid = false → s.portOn 0 = true → Yields (.stageF ns) s
    fun t => (t.port 0).ready.isSome = true ∧ t.get (F.TREE_STAT_READY 0) = 1 ∧ t.mod.used = none ∧ t.get
    F.MOD_DL_T_LAST = min 65535 ns) ∧
  (∀ (s : State) (ns : Nat) (x : Snap), s.mod.used = some x → s.stageDue 31 5 = true → s.runs Pg.MOD = true →
    s.mod.invalid = true → Yields (.stageF ns) s fun t => t.mod.plan = s.mod.good ∧ t.mod.used = none ∧ t.ports =
    s.ports) ∧
  (∀ (s : State), s.alive = true → s.isHub = true → s.runs Pg.TIME = true → s.is F.TIME_MER_RUN = true →
    s.commitsDue = [] → Yields .meridian s fun t => t.time.lastK = some s.nextK ∧ t.reg R.TIME_K_LO = BitVec.ofNat
    32 s.nextK ∧ t.get F.TIME_K_HI_K = s.nextK / 2 ^ 32 % 2 ^ F.TIME_K_HI_K.w ∧ s.now ≤ t.now ∧ t.mod.late = false) ∧
  (∀ (s : State), s.alive = true → s.isHub = true → s.meridiansOn = true → s.time.lastK.isSome = true → s.runs
    Pg.MOD = true → (List.range 4).any s.portOn = true → (List.range 4).all (fun p => !s.portOn p || (s.port
    p).ready.isSome) = true → Yields .readyTest s fun t => t.get F.MOD_DL_CFG_RUN = 0 ∧ t.get F.MOD_DL_CNT_MISS =
    s.get F.MOD_DL_CNT_MISS ∧ t.mod.late = s.mod.late) ∧
  (∀ (s : State), s.alive = true → s.isHub = true → s.meridiansOn = true → s.time.lastK.isSome = true → s.runs
    Pg.MOD = true → s.portsTested.any (fun p => (s.port p).ready.isNone) = true → Yields .readyTest s fun t => t.get
    F.MOD_DL_CNT_MISS = satAdd F.MOD_DL_CNT_MISS.w (s.get F.MOD_DL_CNT_MISS) 1 ∧ bitOf (t.reg (R.PG_EVT
    Pg.MOD)).toNat 8 = true ∧ t.mod.late = true ∧ t.mod.plan = s.mod.good)

/-- A protective command waits with BUSY; one of another action is refused with ACCESS_ERR; a mode change at least L +
8 cycles ahead is scheduled, a nearer one refused; at a carrier epoch the new origin is in force; a sample places
the next edge of the carrier. -/
def Obligations.ModulationCommands : Prop :=
  (∀ (s : State) (path : Path) (data : Word), s.Reaches path Pg.MOD → s.isHub = true → s.mod.pcmd = none → (getBits
    data 10 4 = 3 ∨ getBits data 10 4 = 5 ∨ getBits data 10 4 = 6) → Yields (.protectiveCommand path data) s fun t
    => t.mod.pcmd = some (getBits data 0 10, getBits data 10 4) ∧ t.get F.MOD_PCMD_BUSY = 1) ∧
  (∀ (s : State) (path : Path) (data : Word), s.Reaches path Pg.MOD → s.isHub = true → getBits data 10 4 = 4 →
    Yields (.protectiveCommand path data) s fun t => t.mod.pcmd = s.mod.pcmd ∧ bitOf (t.reg (R.PG_EVT Pg.MOD)).toNat
    3 = true) ∧
  (∀ (s : State) (path : Path) (data : Word), s.Reaches path Pg.MOD → s.isHub = true → s.mod.target = none → getBits
    data 16 2 ≠ 3 → s.cycle + s.lead + 8 ≤ s.get F.MOD_MSW_LO_TARGET + 2 ^ 32 * getBits data 0 16 → s.get
    F.MOD_MSW_LO_TARGET + 2 ^ 32 * getBits data 0 16 ≤ s.cycle + 2 ^ 31 → Yields (.modeChangeGo path data) s fun t
    => t.mod.target = some (s.get F.MOD_MSW_LO_TARGET + 2 ^ 32 * getBits data 0 16) ∧ t.get F.MOD_MODE_NEXT =
    getBits data 16 2 ∧ t.get F.MOD_MODE_PEND = 1) ∧
  (∀ (s : State) (path : Path) (data : Word), s.Reaches path Pg.MOD → s.isHub = true → s.get F.MOD_MSW_LO_TARGET + 2
    ^ 32 * getBits data 0 16 < s.cycle + s.lead + 8 → Yields (.modeChangeGo path data) s fun t => t.mod.target =
    s.mod.target ∧ bitOf (t.reg (R.PG_EVT Pg.MOD)).toNat 3 = true) ∧
  (∀ (s : State) (e x : Nat), s.cmod.next = some (e, x) → s.gateLive = true → s.time.lastK = none → s.cmod.pend =
    false → Yields .carrierEpoch s fun t => t.cmod.epoch = some (e, x) ∧ t.cmod.next = none ∧ t.reg R.MOD_CELL_EPOCH
    = BitVec.ofNat 32 e ∧ bitOf (t.reg (R.PG_EVT Pg.MOD)).toNat 20 = true) ∧
  (∀ (s : State) (peak : Bool) (e x : Nat), s.carrierOn = true → s.cmod.epoch = some (e, x) → s.cmod.edge = none →
    Yields (.carrierSample peak) s fun t => t.cmod.edge.isSome = true ∧ t.cmod.sampled = some (s.carrierInstant x
    peak) ∧ t.gate.state = s.gate.state ∧ t.gate.legA = s.gate.legA)

/-- LOAD starts the check of a slot that is not running; the check ends with VALID or with the first failing WHY; GO
latches a handover to the other VALID slot, ABORT ends one that is pending; signal and chain writes queue, 16 and
64, and are dropped beyond; RD copies the selected field; an execution at a cell records its latency. -/
def Obligations.EngineCommands : Prop :=
  (∀ (s : State) (path : Path) (n : Nat), s.Reaches path Pg.CTL → s.isHub = true → n < 2 → s.running = none →
    s.eng.ho = none → s.is (F.CTL_PGM_STAT_BUSY n) = false → Yields (.programLoad path n) s fun t => t.get
    (F.CTL_PGM_STAT_BUSY n) = 1) ∧
  (∀ (s : State) (n : Nat), s.alive = true → s.isRef = false → n < 2 → s.is (F.CTL_PGM_STAT_BUSY n) = true → nth
    s.eng.hit n false = false → s.slotWhy n ≠ 0 → Yields (.loadDone n) s fun t => t.get (F.CTL_PGM_STAT_BUSY n) = 0
    ∧ t.slotValid n = false ∧ t.get (F.CTL_PGM_STAT_WHY n) = s.slotWhy n % 2 ^ (F.CTL_PGM_STAT_WHY n).w ∧ bitOf
    (t.reg (R.PG_EVT Pg.CTL)).toNat 9 = true) ∧
  (∀ (s : State) (n : Nat), s.alive = true → s.isRef = false → n < 2 → s.is (F.CTL_PGM_STAT_BUSY n) = true →
    s.slotWhy n = 0 → Yields (.loadDone n) s fun t => t.get (F.CTL_PGM_STAT_BUSY n) = 0 ∧ t.slotValid n = true ∧
    bitOf (t.reg (R.PG_EVT Pg.CTL)).toNat 8 = true) ∧
  (∀ (s : State) (path : Path) (data : Word), s.Reaches path Pg.CTL → s.isHub = true → getBits data 31 1 = 0 →
    getBits data 1 1 = 0 → s.slotValid (getBits data 0 1) = true → s.get F.CTL_STAT_ACT ≠ getBits data 0 1 →
    s.eng.ho = none → Yields (.handoverGo path data) s fun t => (t.eng.ho.map fun h => (h.slot, h.start, h.nb,
    h.running)) = some (getBits data 0 1, s.cycle + 1, min 64 (getBits data 8 7), false) ∧ t.get F.CTL_STAT_HO = 1 ∧
    bitOf (t.reg (R.PG_EVT Pg.CTL)).toNat 10 = true) ∧
  (∀ (s : State) (path : Path) (data : Word) (h : HoSt), s.Reaches path Pg.CTL → s.isHub = true → getBits data 30 1
    = 0 → s.eng.ho = some h → h.running = false → Yields (.handoverAbort path data) s fun t => t.eng.ho = none ∧
    t.get F.CTL_STAT_HO = 0 ∧ t.get F.CTL_HO_STAT_LAST = 3 ∧ t.get F.CTL_STAT_ACT = s.get F.CTL_STAT_ACT) ∧
  (∀ (s : State) (path : Path) (data : Word), s.Reaches path Pg.CTL → s.isRef = false → s.eng.sigq.length < 16 →
    Yields (.sigdataWrite path data) s fun t => t.eng.sigq = s.eng.sigq ++ [(s.get F.CTL_SIGIDX_INDEX, data)]) ∧
  (∀ (s : State) (path : Path) (data : Word), s.Reaches path Pg.CTL → s.isRef = false → 16 ≤ s.eng.sigq.length →
    Yields (.sigdataWrite path data) s fun t => t.eng.sigq = s.eng.sigq ∧ t.get F.CTL_SIGQ_DROP = satAdd
    F.CTL_SIGQ_DROP.w (s.get F.CTL_SIGQ_DROP) 1) ∧
  (∀ (s : State) (path : Path) (data : Word), s.Reaches path Pg.CHAIN → s.isRef = false → s.eng.chq.length < 64 →
    Yields (.chainQueueWrite path data) s fun t => t.eng.chq.length = s.eng.chq.length + 1 ∧ (t.eng.chq.getLast?.map
    fun e => e.1) = some (s.reg R.CHAIN_SEL)) ∧
  (∀ (s : State) (path : Path), s.Reaches path Pg.CHAIN → s.isHub = true → s.get F.CHAIN_SEL_FIELD ≤ 9 → Yields
    (.chainCmdRd path) s fun t => t.reg R.CHAIN_RLO = BitVec.ofNat 32 (s.num (s.chainField (s.get F.CHAIN_SEL_SLOT)
    (s.get F.CHAIN_SEL_SEC) (s.get F.CHAIN_SEL_BANK) (s.get F.CHAIN_SEL_FIELD)) 8)) ∧
  (∀ (s : State) (peak : Bool) (lat : Nat), s.alive = true → s.isCell = true → s.runs Pg.CTL = true → s.is
    F.CTL_CFG_TRIG = false → s.running = none → Yields (.cellEngineRun peak lat) s fun t => t.eng.sigq = [] ∧ t.get
    F.CTL_STAT_INVALID = 0 ∧ t.get F.CTL_LAT_LAST = min 65535 lat)

/-- RD copies the observer's entry; WR, SETC and SETV are latched for stage B, SETC of a value that is not positive
and finite is refused; a table clear shows until it is done; an injector arms and stops; a frequency response takes
its injector. -/
def Obligations.RankAndCompensation : Prop :=
  (∀ (s : State) (path : Path) (w : Nat), s.Reaches path Pg.RANK → s.isHub = true → w < 16 → Yields (.rankCmdRd
    path) s fun t => t.reg (R.RANK_E w) = BitVec.ofNat 32 (obsWord ((kvFind s.rank.seen (s.get
    F.RANK_SEL_INDEX)).getD {}) w) ∧ t.rank = s.rank) ∧
  (∀ (s : State) (path : Path), s.Reaches path Pg.RANK → s.isHub = true → s.rank.jobs.length < 16 → Yields
    (.rankCmdWr path) s fun t => t.rank.jobs = s.rank.jobs ++ [.wr (s.get F.RANK_SEL_INDEX) (getBits (s.reg
    (R.RANK_E 9)) 2 1 == 1) (getBits (s.reg (R.RANK_E 9)) 3 1 == 1)]) ∧
  (∀ (s : State) (path : Path), s.Reaches path Pg.RANK → s.isHub = true → s.rank.jobs.length < 16 → s.reg (R.RANK_E
    1) = 0x3F800000 → Yields (.rankCmdSetc path) s fun t => t.rank.jobs = s.rank.jobs ++ [.setc (s.get
    F.RANK_SEL_INDEX) 0x3F800000]) ∧
  (∀ (s : State) (path : Path), s.Reaches path Pg.RANK → s.isHub = true → s.reg (R.RANK_E 1) = 0x7F800000 → Yields
    (.rankCmdSetc path) s fun t => t.rank.jobs = s.rank.jobs ∧ bitOf (t.reg (R.PG_EVT Pg.RANK)).toNat 3 = true) ∧
  (∀ (s : State) (path : Path), s.Reaches path Pg.RANK → s.isHub = true → s.rank.jobs.length < 16 → sFinite (s.reg
    (R.RANK_E 0)) = true → Yields (.rankCmdSetv path) s fun t => t.rank.jobs = s.rank.jobs ++ [.setv (s.get
    F.RANK_SEL_INDEX) (s.reg (R.RANK_E 0))]) ∧
  (∀ (s : State) (path : Path) (u : Nat), s.Reaches path Pg.RCU → s.isHub = true → u < 16 → Yields (.rcuClear path
    u) s fun t => bitOf (t.get F.RCU_STAT_CLR) u = true ∧ nth t.comp.rcu u {} = {}) ∧
  (∀ (s : State) (u : Nat), s.alive = true → s.isHub = true → u < 16 → Yields (.rcuClearDone u) s fun t => bitOf
    (t.get F.RCU_STAT_CLR) u = false) ∧
  (∀ (s : State) (path : Path) (i : Nat), s.Reaches path Pg.SUP → s.isHub = true → i < 2 → s.is (F.SUP_ISTAT_RUN i)
    = false → s.get (F.SUP_ICTL_TYPE i) ≠ 3 → Yields (.injectorGo path i) s fun t => (t.inj i).run = true ∧ (t.inj
    i).t0 = none ∧ t.get (F.SUP_ISTAT_RUN i) = 1 ∧ t.get (F.SUP_ISTAT_DONE i) = 0) ∧
  (∀ (s : State) (path : Path) (i : Nat), s.Reaches path Pg.SUP → s.isHub = true → i < 2 → (s.inj i).run = true →
    Yields (.injectorStop path i) s fun t => (t.inj i).stop = true ∧ (t.inj i).run = true) ∧
  (∀ (s : State) (path : Path), s.Reaches path Pg.SUP → s.isHub = true → s.is (F.SUP_ISTAT_RUN (s.get
    F.SUP_FRCTL_INJ)) = false → s.comp.fr = none → Yields (.freqResponseGo path) s fun t => t.comp.fr.isSome = true
    ∧ t.get F.SUP_FRSTAT_BUSY = 1 ∧ t.get F.SUP_FRSTAT_DONE = 0 ∧ t.get F.SUP_FRSTAT_POINT = 0 ∧ (t.inj (s.get
    F.SUP_FRCTL_INJ)).run = true)

/-- A frame whose CRC fails is dropped and counted. A sound KX of a listed twin keys the link where the shared point
exists; HELLO tells warm from cold; STATUS updates the twin's state, and a warm standby adopts the plan of the same
cycle; SLICE data are staged; a COMMIT whose slice is whole and whose CRC matches waits for the next meridian,
another one is discarded and flagged. -/
def Obligations.TwinFrames : Prop :=
  (∀ (s : State) (fr : List Byte), s.twinOn = true → s.laneHears 4 = true → s.laneHears 5 = true → crcBytes (fr.take
    (fr.length - 4)) ≠ fr.drop (fr.length - 4) → Yields (.twinStatusRx fr) s fun t => t.get ⟨R.TWIN_LERR, 0, 8⟩ =
    satAdd 8 (s.get ⟨R.TWIN_LERR, 0, 8⟩) 1 ∧ t.twin.status = s.twin.status ∧ t.twin.link = s.twin.link) ∧
  (∀ (s : State) (fr str : List Byte), s.twinOn = true → s.TwinFrameOk 1 fr str → s.is F.TWIN_STAT_BOND = true →
    s.is F.TWIN_STAT_KEYED = false → s.side = 1 → kxSound str (kxEph str) = true → s.isPeer (keyId (kxPub str)) 3 =
    true → (ecdhX s.twin.link.priv (kxEph str)).isSome = true → s.laneSends 4 = true → s.laneSends 5 = true → Yields
    (.twinKxFrame fr) s fun t => t.get F.TWIN_STAT_KEYED = 1 ∧ t.twin.link.rx.isSome = true ∧ t.twin.link.tx.isSome
    = true ∧ t.twin.link.rxSeq = none ∧ t.twin.frames.length = s.twin.frames.length + 2) ∧
  (∀ (s : State) (fr b : List Byte), s.twinOn = true → s.TwinFrameOk 2 fr b → Yields (.twinHelloFrame fr) s fun t =>
    t.get F.TWIN_STAT_HELLO = 1 ∧ t.get F.BOOT_TWIN_WARM + t.get F.BOOT_TWIN_COLD = 1 ∧ (t.get F.BOOT_TWIN_WARM = 1
    ↔ ofBe ((b.drop 8).take 4) = (s.reg R.BOOT_FEAT).toNat ∧ ofBe ((b.drop 12).take 2) = s.get F.BOOT_MIRV_MIRV ∧
    s.listed (idOfBytes b) 2 = true)) ∧
  (∀ (s : State) (fr b : List Byte), s.twinOn = true → s.TwinFrameOk 3 fr b → s.twin.active = false → s.is
    F.TWIN_STAT_SELF = false → Yields (.twinStatusRx fr) s fun t => t.twin.status = some (parseStatus b) ∧
    t.twin.missing = 0 ∧ t.twin.statusAt = some s.now) ∧
  (∀ (s : State) (fr b : List Byte), s.twinOn = true → s.TwinFrameOk 3 fr b → s.twin.active = false → s.is
    F.TWIN_STAT_SELF = false → bitOf (parseStatus b).health 0 = true → s.is F.BOOT_TWIN_WARM = true → b.length = 300
    → s.time.lastK = some (parseStatus b).cycle → Yields (.twinStatusRx fr) s fun t => t.twin.adopt = some
    (parseStatus b)) ∧
  (∀ (s : State) (fr b : List Byte), s.twinOn = true → s.TwinFrameOk 4 fr b → s.twin.active = false → Yields
    (.twinSliceRx fr) s fun t => t.twin.staging.any (fun g => g.x == ofBe (b.take 4)) = true ∧ t.twin.link.rxSeq =
    some (ofBe ((fr.drop 3).take 6))) ∧
  (∀ (s : State) (fr b : List Byte) (g : Staging), s.twinOn = true → s.TwinFrameOk 5 fr b → s.twin.active = false →
    s.twin.staging = [g] → g.commit = none → g.x = ofBe (b.take 4) → (stagedBytes g.data (ofBe ((b.drop 7).take
    4))).map crc32c = some (ofBe ((b.drop 11).take 4)) → Yields (.twinCommitRx fr) s fun t =>
    (t.twin.staging.getLast?.map fun y => (y.x, y.commit)) = some (g.x, stagedBytes g.data (ofBe ((b.drop 7).take
    4))) ∧ t.get F.TWIN_MCNT_DISCARD = s.get F.TWIN_MCNT_DISCARD) ∧
  (∀ (s : State) (fr b : List Byte), s.twinOn = true → s.TwinFrameOk 5 fr b → s.twin.active = false → s.twin.staging
    = [] → 0 < ofBe ((b.drop 7).take 4) → Yields (.twinCommitRx fr) s fun t => t.twin.staging = [] ∧
    t.twin.flags.contains (ofBe ((b.drop 4).take 2)) = true ∧ t.get F.TWIN_MCNT_DISCARD = satAdd
    F.TWIN_MCNT_DISCARD.w (s.get F.TWIN_MCNT_DISCARD) 1 ∧ t.get F.TWIN_STAT_READY = 0)

/-- A hub heartbeat of a keyed link is one frame of type 0x11; a TAKE with a watch newer than OWN makes the hub active
with that watch, a stale one is counted; a newer YIELD makes it standby, VB falls; RST teaches the watch; the loss
of the referee is judged; in self-arbitration the standby takes control with SEEN + 1 for its reason. -/
def Obligations.RefereeAtHub : Prop :=
  (∀ (s : State) (k : Key), s.hubRef = true → s.twin.ref.rx.isSome = true → s.twin.ref.tx = some k → Yields
    .heartbeatTx s fun t => t.twin.refSent.length = 24 ∧ nth t.twin.refSent 2 0 = 0x11 ∧ t.twin.ref.txSeq =
    s.twin.ref.txSeq + 1 ∧ t.twin.refHeard = false) ∧
  (∀ (s : State) (fr : List Byte) (n : Nat) (b : List Byte), s.hubRef = true → refCheck s.twin.ref s.hubNo s.side
    0x22 fr = .ok n b → newer (refWatch b) (s.get F.TWIN_WATCH_OWN) = true → newer (s.get F.TWIN_WATCH_SEEN)
    (refWatch b) = false → s.twin.active = false → Yields (.takeRx fr) s fun t => t.twin.active = true ∧ t.get
    F.TWIN_WATCH_OWN = refWatch b ∧ t.get F.TWIN_WATCH_SEEN = refWatch b ∧ t.get F.TWIN_TKLAST_WHY = 1 ∧
    t.twin.ref.rxSeq = some n ∧ bitOf (t.reg (R.PG_EVT Pg.TWIN)).toNat 8 = true) ∧
  (∀ (s : State) (fr : List Byte) (n : Nat) (b : List Byte), s.hubRef = true → refCheck s.twin.ref s.hubNo s.side
    0x22 fr = .ok n b → newer (refWatch b) (s.get F.TWIN_WATCH_OWN) = false → Yields (.takeRx fr) s fun t =>
    t.twin.active = s.twin.active ∧ t.get F.TWIN_WATCH_OWN = s.get F.TWIN_WATCH_OWN ∧ t.get F.REF_HCNT_STALE =
    satAdd F.REF_HCNT_STALE.w (s.get F.REF_HCNT_STALE) 1 ∧ bitOf (t.reg (R.PG_EVT Pg.REF)).toNat 12 = true) ∧
  (∀ (s : State) (fr : List Byte) (n : Nat) (b : List Byte), s.hubRef = true → refCheck s.twin.ref s.hubNo s.side
    0x23 fr = .ok n b → newer (refWatch b) (s.get F.TWIN_WATCH_OWN) = true → Yields (.yieldRx fr) s fun t =>
    t.twin.active = false ∧ t.get F.REF_HSTAT_LASTW = refWatch b ∧ t.safe.vb = false ∧ bitOf (t.reg (R.PG_EVT
    Pg.REF)).toNat 11 = true) ∧
  (∀ (s : State) (fr : List Byte) (n : Nat) (b : List Byte), s.hubRef = true → refCheck s.twin.ref s.hubNo s.side
    0x21 fr = .ok n b → newer (refWatch b) (s.get F.TWIN_WATCH_SEEN) = true → s.twin.active = false → Yields (.rstRx
    fr) s fun t => t.get F.TWIN_WATCH_SEEN = refWatch b ∧ t.twin.refHeard = true ∧ t.twin.refLost = false ∧
    t.twin.active = false) ∧
  (∀ (s : State), s.alive = true → s.isHub = true → s.is F.SYS_TOPO_TWIN = true → s.runs Pg.REF = true → Yields
    .refLost s fun t => t.twin.refLost = true ∧ t.twin.refRun = 0) ∧
  (∀ (s : State), s.alive = true → s.isHub = true → s.is F.SYS_TOPO_TWIN = true → s.runs Pg.REF = true → s.is
    F.TWIN_ARB_SELFEN = true → s.is F.TWIN_STAT_BOND = false → Yields .refLost s fun t => t.twin.refLost = true ∧
    t.get F.TWIN_STAT_SELF = 1) ∧
  (∀ (s : State), s.selfStandby = true → s.takeoverCase ≠ 0 → Yields .selfTakeover s fun t => t.twin.active = true ∧
    t.get F.TWIN_WATCH_OWN = (s.get F.TWIN_WATCH_SEEN + 1) % 65536 ∧ t.get F.TWIN_TKLAST_WHY = s.takeoverCase) ∧
  (∀ (s : State), s.selfStandby = true → s.is F.TWIN_ARB_PREF = true → s.is F.TWIN_STAT_BOND = true → s.reg
    R.REF_HFAIL = 0 → s.is F.TWIN_STAT_READY = true → Yields .preferredReclaim s fun t => t.twin.active = true ∧
    t.get F.TWIN_WATCH_OWN = (s.get F.TWIN_WATCH_SEEN + 1) % 65536 ∧ t.get F.TWIN_TKLAST_WHY = 4)

/-- A valid heartbeat clears the misses and shows HEALTH and WATCH; a missing one counts, and at NMISS of the active
hub with a ready standby the standby gets TAKE with a newer watch, the other YIELD; without one NOSTBY counts and
the failure is kept; two actives get a new watch; the end of listening adopts the hub that claims to be active, else
starts the preferred one; each interval sends one frame per keyed link; a chunk of an exchange is kept. -/
def Obligations.RefereeDecisions : Prop :=
  (∀ (s : State) (l : Nat) (fr : List Byte) (n : Nat) (b : List Byte), s.refServes (l / 2) = true → l < 4 → refCheck
    (s.refLink l).keys (s.pairHub (l / 2)) (l % 2) 0x11 fr = .ok n b → Yields (.refHbRx l fr) s fun t => t.get
    (F.REF_LSTAT_MISS l) = 0 ∧ t.get (F.REF_LSTAT_VALID l) = 1 ∧ t.get (F.REF_LSTAT_HEALTH l) = ofBe ((b.drop
    4).take 1) % 256 ∧ t.get (F.REF_LW_WATCH l) = ofBe ((b.drop 2).take 2) % 65536 ∧ (t.refLink l).lastHb = some
    s.now ∧ t.get (F.REF_LCNT_OK l) = (s.get (F.REF_LCNT_OK l) + 1) % 65536) ∧
  (∀ (s : State) (l : Nat) (fr : List Byte), s.refServes (l / 2) = true → l < 4 → refCheck (s.refLink l).keys
    (s.pairHub (l / 2)) (l % 2) 0x11 fr = .tag → Yields (.refHbRx l fr) s fun t => t.get (F.REF_LCNT_TAG l) = satAdd
    (F.REF_LCNT_TAG l).w (s.get (F.REF_LCNT_TAG l)) 1 ∧ t.refLinks = s.refLinks) ∧
  (∀ (s : State) (p h : Nat), s.refServes p = true → h < 2 → (s.refPair p).listening = false → s.pairActive p = some
    h → s.get (F.REF_PSTAT_STATE p) = 1 → (s.refPair p).takeTo = none → s.get (F.REF_LSTAT_MISS (2 * p + h)) + 1 =
    s.pairMiss p → s.is (F.REF_LSTAT_VALID (2 * p + (1 - h))) = true → s.linkHealth (2 * p + (1 - h)) 2 = false →
    s.linkHealth (2 * p + (1 - h)) 1 = true → Yields (.linkMiss (2 * p + h)) s fun t => t.pairActive p = some (1 -
    h) ∧ (t.refPair p).takeTo = some (1 - h) ∧ (t.refPair p).yieldTo = some h ∧ t.get (F.REF_PSTAT_WATCH p) =
    s.nextWatch p ∧ t.get (F.REF_PLAST_WHY p) = 1 ∧ t.get (F.REF_PCNT_TAKES p) = satAdd (F.REF_PCNT_TAKES p).w
    (s.get (F.REF_PCNT_TAKES p)) 1) ∧
  (∀ (s : State) (p h : Nat), s.refServes p = true → h < 2 → (s.refPair p).listening = false → s.pairActive p = some
    h → s.get (F.REF_PSTAT_STATE p) = 1 → (s.refPair p).takeTo = none → s.get (F.REF_LSTAT_MISS (2 * p + h)) + 1 =
    s.pairMiss p → s.is (F.REF_LSTAT_VALID (2 * p + (1 - h))) = false → Yields (.linkMiss (2 * p + h)) s fun t =>
    t.pairActive p = some h ∧ t.get (F.REF_PSTAT_STATE p) = 3 ∧ t.get (F.REF_PCNT_NOSTBY p) = satAdd
    (F.REF_PCNT_NOSTBY p).w (s.get (F.REF_PCNT_NOSTBY p)) 1 ∧ t.refPair p = { s.refPair p with why := 1 }) ∧
  (∀ (s : State) (p : Nat), s.refServes p = true → (s.refPair p).listening = true → s.is (F.REF_LSTAT_VALID (2 * p +
    1)) = true → s.linkHealth (2 * p + 1) 0 = true → s.is (F.REF_LSTAT_VALID (2 * p)) = false → Yields
    (.refereeListenEnd p) s fun t => t.pairActive p = some 1 ∧ t.get (F.REF_PSTAT_WATCH p) = s.get (F.REF_LW_WATCH
    (2 * p + 1)) ∧ t.get (F.REF_PSTAT_STATE p) = 1 ∧ (t.refPair p).listening = false ∧ (t.refPair p).takeTo = none) ∧
  (∀ (s : State) (p : Nat), s.refServes p = true → (s.refPair p).listening = true → s.is (F.REF_LSTAT_VALID (2 * p +
    1)) = false → s.is (F.REF_LSTAT_VALID (2 * p)) = false → Yields (.refereeListenEnd p) s fun t => t.pairActive p
    = some (1 - s.get (F.REF_PCFG_PREF p)) ∧ (t.refPair p).takeTo = some (1 - s.get (F.REF_PCFG_PREF p)) ∧ t.get
    (F.REF_PSTAT_WATCH p) = s.nextWatch p) ∧
  (∀ (s : State) (p : Nat) (k k' : Key), s.refServes p = true → (s.refLink (2 * p)).keys.tx = some k → (s.refLink (2
    * p + 1)).keys.tx = some k' → Yields (.refereeFrameTx p) s fun t => (t.refLink (2 * p)).sent.length = 24 ∧
    (t.refLink (2 * p + 1)).sent.length = 24 ∧ (t.refLink (2 * p)).keys.txSeq = (s.refLink (2 * p)).keys.txSeq + 1 ∧
    (nth (t.refLink (2 * p)).sent 2 0 = 0x22 ↔ (s.refPair p).takeTo = some 0)) ∧
  (∀ (s : State) (l : Nat) (fr : List Byte) (n : Nat) (b : List Byte), s.isRef = true → s.refServes (l / 2) = true →
    refCheck (s.refLink l).keys (s.pairHub (l / 2)) (l % 2) 0x31 fr = .ok n b → (nth b 0 0).toNat = 0 → Yields
    (.refereeKx l fr) s fun t => kvFind (t.refLink l).keys.chunks 0 = some (b.drop 2) ∧ (t.refLink l).keys.rx =
    (s.refLink l).keys.rx) ∧
  (∀ (s : State) (l : Nat) (fr : List Byte) (n : Nat) (b x y z : List Byte), s.isRef = true → s.refServes (l / 2) =
    true → refCheck (s.refLink l).keys (s.pairHub (l / 2)) (l % 2) 0x31 fr = .ok n b → (nth b 0 0).toNat = 3 →
    (s.refLink l).keys.chunks = [(0, x), (1, y), (2, z)] → kxSound (x ++ y ++ z ++ b.drop 2) (kxEph (x ++ y ++ z ++
    b.drop 2)) = true → s.isPeer (keyId (kxPub (x ++ y ++ z ++ b.drop 2))) 3 = true → s.is (F.REF_LSTAT_KEYED l) =
    false → Yields (.refereeKx l fr) s fun t => t.get (F.REF_LSTAT_KEYED l) = b2n (ecdhX (scalarOf (Config.freeNat
    s.freeCtr)) (kxEph (x ++ y ++ z ++ b.drop 2))).isSome ∧ (t.refLink l).keys.chunks = [])

/-- A submission with room joins its queue or delay list with the staged FLOW, TYPE and ARG; without room it is
refused with FULL or RANGE and nothing is queued. A hardware item without room on queues 0 to 3 and 5 is dropped and
counted. A read of SCHG_TAKE pops the oldest mailbox entry; DONE of an item in service frees its slot, or puts a
periodic item back on its list, and any other DONE is counted. A cancel answers 0, 1 or 2, a flush leaves no item of
its queue waiting. The slot and so the handle given to a new item is a free value of the model. A step dispatches an
eligible queue's head to its worker: the supervisor's item goes to the mailbox and into service, and it leaves its
queue. Where no queue of any worker is eligible, and nothing is released or held, a step changes nothing. A due item
on a delay list enters its queue at a later tick than the one at which it joined; without room it waits and WAIT
counts; with the TIME page disabled nothing is released. A supervisor item in service for too long is told once. -/
def Obligations.SchedulerItems : Prop :=
  (∀ (s : State) (p : Path) (d : Word), s.pathOpen p = true → getBits d 12 1 = 0 → s.queueFull (getBits d 0 5) =
    false → s.slotsFree ≠ 0 → Yields (.schedSubmit p d) s fun t => (t.queue (getBits d 0 5)).length = (s.queue
    (getBits d 0 5)).length + 1 ∧ ((t.queue (getBits d 0 5)).getLast?.map fun it => { it with slot := 0 }) = some
    ⟨0, getBits (kvGet 0 s.sch.subs (4 * pathIdx p)) 0 16, getBits (kvGet 0 s.sch.subs (4 * pathIdx p)) 16 8, kvGet
    0 s.sch.subs (4 * pathIdx p + 1), getBits d 0 5, none, false, s.now, false, false⟩ ∧ getBits (kvGet 0
    t.sch.subres (pathIdx p)) 16 4 = 0 ∧ getBits (kvGet 0 t.sch.subres (pathIdx p)) 31 1 = 1) ∧
  (∀ (s : State) (p : Path) (d : Word), s.pathOpen p = true → getBits d 12 1 = 0 → s.queueFull (getBits d 0 5) =
    true → Yields (.schedSubmit p d) s fun t => t.sch.queues = s.sch.queues ∧ t.sch.lists = s.sch.lists ∧ kvGet 0
    t.sch.subres (pathIdx p) = 0x80010000 ∧ bitOf (t.reg (R.PG_EVT Pg.SCHG)).toNat 9 = true) ∧
  (∀ (s : State) (p : Path) (d : Word), s.pathOpen p = true → getBits d 12 1 = 1 → relDue s.schedNow ((kvGet 0
    s.sch.subs (4 * pathIdx p + 2)).toNat + 2 ^ 32 * getBits (kvGet 0 s.sch.subs (4 * pathIdx p + 3)) 0 8) = false →
    ((kvGet 0 s.sch.subs (4 * pathIdx p + 2)).toNat + 2 ^ 32 * getBits (kvGet 0 s.sch.subs (4 * pathIdx p + 3)) 0 8
    + 2 ^ 40 - s.schedNow) % 2 ^ 40 < 2 ^ 36 → s.listHeld (getBits d 8 2) < 256 → s.slotsFree ≠ 0 → Yields
    (.schedSubmit p d) s fun t => (t.delayList (getBits d 8 2)).length = (s.delayList (getBits d 8 2)).length + 1 ∧
    t.sch.queues = s.sch.queues ∧ getBits (kvGet 0 t.sch.subres (pathIdx p)) 16 4 = 0) ∧
  (∀ (s : State) (p : Path) (d : Word), s.pathOpen p = true → getBits d 12 1 = 1 → relDue s.schedNow ((kvGet 0
    s.sch.subs (4 * pathIdx p + 2)).toNat + 2 ^ 32 * getBits (kvGet 0 s.sch.subs (4 * pathIdx p + 3)) 0 8) = false →
    2 ^ 36 ≤ ((kvGet 0 s.sch.subs (4 * pathIdx p + 2)).toNat + 2 ^ 32 * getBits (kvGet 0 s.sch.subs (4 * pathIdx p +
    3)) 0 8 + 2 ^ 40 - s.schedNow) % 2 ^ 40 → Yields (.schedSubmit p d) s fun t => t.sch.queues = s.sch.queues ∧
    t.sch.lists = s.sch.lists ∧ kvGet 0 t.sch.subres (pathIdx p) = 0x80030000) ∧
  (∀ (s : State) (q f a : Nat), s.alive = true → q < 8 → s.hwQueue q = true → (q < 4 ∨ q = 5) → s.queueFull q =
    false → s.slotsFree ≠ 0 → Yields (.hwArrival q f a) s fun t => (t.queue q).length = (s.queue q).length + 1 ∧
    ((t.queue q).getLast?.map fun it => (it.flow, it.arg, it.hw)) = some (f % 65536, BitVec.ofNat 32 a, true)) ∧
  (∀ (s : State) (q f a : Nat), s.alive = true → q < 8 → s.hwQueue q = true → (q < 4 ∨ q = 5) → s.queueFull q = true
    → Yields (.hwArrival q f a) s fun t => t.sch = s.sch ∧ t.get (F.SCHQ_CNT_DROP q) = satAdd (F.SCHQ_CNT_DROP q).w
    (s.get (F.SCHQ_CNT_DROP q)) 1) ∧
  (∀ (s : State) (p : Path) (slot : Nat) (l : List Nat) (it : Item), s.pathOpen p = true → s.sch.mail = slot :: l →
    s.sch.svc.find? (fun x => x.slot == slot) = some it → it.timed = none → Yields (.schgTake p) s fun t =>
    t.sch.mail = l ∧ t.sch.svc = s.sch.svc ∧ t.resp = ⟨Code.ok, [BitVec.ofNat 32 (s.handleOf slot)]⟩ ∧ t.reg
    (R.SCHG_TW 0) = BitVec.ofNat 32 (it.flow + it.type <<< 16) ∧ t.reg (R.SCHG_TW 1) = it.arg ∧ t.reg (R.SCHG_TW 2)
    = BitVec.ofNat 32 it.queue) ∧
  (∀ (s : State) (p : Path), s.pathOpen p = true → s.sch.mail = [] → Yields (.schgTake p) s fun t => t.sch = s.sch ∧
    t.resp = ⟨Code.ok, [0xFFFFFFFF]⟩) ∧
  (∀ (s : State) (p : Path) (h : Nat) (it : Item), s.pathOpen p = true → s.named h (s.sch.svc.filter fun x =>
    workerOf x.queue == 0) = some it → it.timed = none → Yields (.schgDone p h) s fun t => t.sch.svc =
    s.sch.svc.filter (fun x => x.slot != it.slot) ∧ kvGet 0 t.sch.gens it.slot = (kvGet 0 s.sch.gens it.slot + 1) %
    64 ∧ t.sch.queues = s.sch.queues ∧ t.sch.lists = s.sch.lists) ∧
  (∀ (s : State) (p : Path) (h : Nat) (it : Item) (d rel per : Nat), s.pathOpen p = true → s.named h
    (s.sch.svc.filter fun x => workerOf x.queue == 0) = some it → it.timed = some (d, rel, per) → per ≠ 0 → it.gone
    = false → Yields (.schgDone p h) s fun t => t.sch.svc = s.sch.svc.filter (fun x => x.slot != it.slot) ∧
    t.sch.gens = s.sch.gens ∧ (t.delayList d).length = (s.delayList d).length + 1) ∧
  (∀ (s : State) (p : Path) (h : Nat), s.pathOpen p = true → s.named h (s.sch.svc.filter fun x => workerOf x.queue
    == 0) = none → Yields (.schgDone p h) s fun t => t.sch = s.sch ∧ t.get F.SCHG_CNT_BADDONE = satAdd
    F.SCHG_CNT_BADDONE.w (s.get F.SCHG_CNT_BADDONE) 1 ∧ bitOf (t.reg (R.PG_EVT Pg.SCHG)).toNat 13 = true) ∧
  (∀ (s : State) (p : Path) (h : Nat), s.pathOpen p = true → s.named h s.items = none → Yields (.schgCancel p h) s
    fun t => t.items = s.items ∧ kvGet 0 t.sch.canres (pathIdx p) = 0x80000002) ∧
  (∀ (s : State) (p : Path) (h : Nat) (it : Item), s.pathOpen p = true → s.named h s.items = some it →
    (s.sch.svc.any fun x => x.slot == it.slot) = true → Yields (.schgCancel p h) s fun t => t.sch.queues =
    s.sch.queues ∧ t.sch.svc.length = s.sch.svc.length ∧ (t.sch.svc.all fun x => x.slot != it.slot || x.gone) = true
    ∧ kvGet 0 t.sch.canres (pathIdx p) = 0x80000001) ∧
  (∀ (s : State) (p : Path) (h : Nat) (it : Item), s.pathOpen p = true → s.named h s.items = some it →
    (s.sch.svc.any fun x => x.slot == it.slot) = false → Yields (.schgCancel p h) s fun t => (t.items.all fun x =>
    x.slot != it.slot) = true ∧ kvGet 0 t.sch.canres (pathIdx p) = 0x80000000) ∧
  (∀ (s : State) (q : Nat) (it : Item), s.schedOn = true → s.enabled Pg.TIME = false → s.sch.held = [] →
    s.sch.queues = [(q, [it])] → workerOf q = 0 → q < 32 → s.is (F.SCHQ_CFG_EN q) = true → s.flowBusy it.flow =
    false → s.sch.mail.length < 4 → Yields .schedulerStep s fun t => t.queue q = [] ∧ t.sch.svc = s.sch.svc ++
    [{ it with ready := s.elapsed }] ∧ t.sch.mail = s.sch.mail ++ [it.slot] ∧ t.get (F.SCHQ_CNT_DISP q) = (s.get
    (F.SCHQ_CNT_DISP q) + 1) % 2 ^ 16) ∧
  (∀ (s : State), s.schedOn = true → s.enabled Pg.TIME = false → s.sch.held = [] → (List.range 4).all (fun w =>
    s.eligible w == []) = true → Yields .schedulerStep s fun t => t.sch = s.sch ∧ t.mem = s.mem) ∧
  (∀ (s : State) (it : Item) (rel per : Nat), s.schedOn = true → s.enabled Pg.TIME = true → s.sch.lists = [[it], [],
    [], []] → it.timed = some (0, rel, per) → relDue s.schedNow rel = true → it.ready ≠ s.schedNow → s.queueFull
    it.queue = false → Yields .delayRelease s fun t => t.queue it.queue = s.queue it.queue ++
    [{ it with ready := s.now }] ∧ t.sch.lists = [[], [], [], []]) ∧
  (∀ (s : State) (it : Item) (rel per : Nat), s.schedOn = true → s.enabled Pg.TIME = true → s.sch.lists = [[it], [],
    [], []] → it.timed = some (0, rel, per) → relDue s.schedNow rel = true → it.ready ≠ s.schedNow → s.queueFull
    it.queue = true → Yields .delayRelease s fun t => t.sch = s.sch ∧ t.get (F.SCHG_DL_WAIT 0) = satAdd
    (F.SCHG_DL_WAIT 0).w (s.get (F.SCHG_DL_WAIT 0)) 1) ∧
  (∀ (s : State), s.Settled → s.enabled Pg.TIME = false → exec .delayRelease s = .next s) ∧
  (∀ (s : State) (slot : Nat) (it : Item), s.schedOn = true → s.sch.svc.find? (fun x => x.slot == slot && workerOf
    x.queue == 0 && !x.stuck) = some it → Yields (.itemStuck slot) s fun t => t.get F.SCHG_CNT_STUCKS = satAdd
    F.SCHG_CNT_STUCKS.w (s.get F.SCHG_CNT_STUCKS) 1 ∧ bitOf (t.reg (R.PG_EVT Pg.SCHG)).toNat 12 = true ∧
    t.sch.svc.length = s.sch.svc.length ∧ (t.sch.svc.all fun x => x.slot != slot || x.stuck) = true ∧ t.sch.queues =
    s.sch.queues)

/-- The only valid request waiting, with no lock held, is granted: a store writes its bytes and no others unless the
region is protected, and a load answers its bytes; its grants count. While another requester holds the lock nothing
is granted. A write of MEM_SLOCK.OPEN or CLOSE arms or ends the supervisor's lock, and a broken lock is recorded,
counted and told. -/
def Obligations.ArbiterAndLocks : Prop :=
  (∀ (s : State) (q : ArbReq), s.alive = true → s.arbValid q = true → s.is F.MEM_STAT_LOCKED = false → q.lock =
    false → s.arb.armed = false → q.data ≠ [] → s.memErr = [] → s.get F.ERR_INJ_NBIT = 0 → s.isRef = false →
    s.isProtected q.addr q.data.length = false → Yields (.arbiterGrant [q]) s fun t => t.bytes q.addr q.data.length
    = q.data ∧ KeepsMemBut q.addr q.data.length s t ∧ t.get (F.MEM_RCNT_GRANTS q.r) = (s.get (F.MEM_RCNT_GRANTS q.r)
    + 1) % 2 ^ 32) ∧
  (∀ (s : State) (q : ArbReq), s.alive = true → s.arbValid q = true → s.is F.MEM_STAT_LOCKED = false → q.lock =
    false → s.arb.armed = false → q.data ≠ [] → s.isRef = false → s.isProtected q.addr q.data.length = true → Yields
    (.arbiterGrant [q]) s fun t => KeepsMem s t ∧ t.get F.CTL_CNT_WPROT = satAdd F.CTL_CNT_WPROT.w (s.get
    F.CTL_CNT_WPROT) 1) ∧
  (∀ (s : State) (q : ArbReq), s.alive = true → s.arbValid q = true → s.is F.MEM_STAT_LOCKED = false → q.lock =
    false → s.arb.armed = false → q.data = [] → q.read = 4 → s.memErr = [] → Yields (.arbiterGrant [q]) s fun t =>
    t.resp = ⟨Code.ok, [BitVec.ofNat 32 (s.num q.addr 4)]⟩ ∧ KeepsMem s t ∧ t.get (F.MEM_RLAT_LAST q.r) = min 65535
    q.wait) ∧
  (∀ (s : State) (q : ArbReq), s.alive = true → s.is F.MEM_STAT_LOCKED = true → q.r ≠ s.get F.MEM_STAT_OWNER → (q.r
    ≠ 0 ∨ s.get F.MEM_STAT_OWNER ≠ 1) → Yields (.arbiterGrant [q]) s fun t => KeepsMem s t ∧ t.arb = s.arb ∧ t.get
    F.MEM_STAT_OWNER = s.get F.MEM_STAT_OWNER ∧ t.is F.MEM_STAT_LOCKED = true) ∧
  (∀ (s : State) (p : Path), s.pathOpen p = true → Yields (.memLockOpen p) s fun t => t.arb =
    { s.arb with armed := true } ∧ t.get F.MEM_STAT_LOCKED = s.get F.MEM_STAT_LOCKED) ∧
  (∀ (s : State) (p : Path), s.pathOpen p = true → s.is F.MEM_STAT_LOCKED = true → s.get F.MEM_STAT_OWNER = 1 →
    Yields (.memLockClose p) s fun t => t.get F.MEM_STAT_LOCKED = 0 ∧ t.get F.MEM_SLOCK_HELD = 0 ∧ t.arb.armed =
    false) ∧
  (∀ (s : State) (p : Path), s.pathOpen p = true → s.is F.MEM_STAT_LOCKED = false → Yields (.memLockClose p) s fun t
    => t.arb = { s.arb with armed := false } ∧ t.get F.MEM_STAT_LOCKED = 0 ∧ KeepsMem s t) ∧
  (∀ (s : State) (c : Nat), s.alive = true → s.is F.MEM_STAT_LOCKED = true → 1 ≤ c → c ≤ 3 → (c ≠ 2 ∨ s.lockMax ≤
    s.arb.grants) → s.arb.words.length ≤ 255 → Yields (.lockBreak c) s fun t => t.get F.MEM_STAT_LOCKED = 0 ∧ t.get
    F.MEM_LB_OWNER = s.get F.MEM_STAT_OWNER ∧ t.get F.MEM_LB_CAUSE = c ∧ t.get F.MEM_LB_WORDS = s.arb.words.length ∧
    t.reg (R.MEM_LBA 0) = BitVec.ofNat 32 (nth s.arb.words 0 0) ∧ bitOf (t.reg (R.PG_EVT Pg.MEM)).toNat 8 = true ∧
    t.arb.words = [])

/-- The scrubber visits one word: a sound one stays as it is; one or two wrong bits are corrected and logged
(CORRECTED); three are written back as poison and logged (UNCORRECTABLE), MADE counting. It then moves to the next
word, and a sweep ends at the last. POP removes the oldest entry. An ACK of the class being handled pops the stack
and signals the highest pending class above the new one; of any other class it raises ACCESS_ERR (bit 3). A firmware
entry with a code from 0x80 up is appended and counted in its class; a lower code raises ACCESS_ERR. -/
def Obligations.MemoryErrors : Prop :=
  (∀ (s : State), s.phase = .running → s.is F.ERR_CFG_SCRUB = true → kvFind s.memErr (scrubWord s.arb.scrubAt) =
    none → s.arb.scrubAt + 1 < s.scrubWords → Yields (.scrubVisit []) s fun t => KeepsMem s t ∧ t.memErr = s.memErr
    ∧ t.arb.scrubAt = s.arb.scrubAt + 1 ∧ t.err = s.err) ∧
  (∀ (s : State), s.phase = .running → s.is F.ERR_CFG_SCRUB = true → kvFind s.memErr (scrubWord s.arb.scrubAt) =
    none → s.arb.scrubAt + 1 = s.scrubWords → Yields (.scrubVisit []) s fun t => KeepsMem s t ∧ t.arb.scrubAt = 0 ∧
    t.get F.ERR_SCRUB_SWEEPS = (s.get F.ERR_SCRUB_SWEEPS + 1) % 2 ^ 16) ∧
  (∀ (s : State) (u : List Nat), s.phase = .running → s.is F.ERR_CFG_SCRUB = true → kvFind s.memErr (scrubWord
    s.arb.scrubAt) = none → (u.length = 1 ∨ u.length = 2) → Yields (.scrubVisit u) s fun t => KeepsMem s t ∧ kvFind
    t.memErr (scrubWord s.arb.scrubAt) = none ∧ t.get (errCnt 1) = satAdd (errCnt 1).w (s.get (errCnt 1)) 1 ∧ t.get
    F.ERR_POIS_MADE = s.get F.ERR_POIS_MADE) ∧
  (∀ (s : State) (u : List Nat), s.phase = .running → s.is F.ERR_CFG_SCRUB = true → kvFind s.memErr (scrubWord
    s.arb.scrubAt) = none → u.length = 3 → Yields (.scrubVisit u) s fun t => (kvFind t.memErr (scrubWord
    s.arb.scrubAt)) = some { poison := true } ∧ t.get (errCnt 2) = satAdd (errCnt 2).w (s.get (errCnt 2)) 1 ∧ t.get
    F.ERR_POIS_MADE = satAdd F.ERR_POIS_MADE.w (s.get F.ERR_POIS_MADE) 1) ∧
  (∀ (s : State) (p : Path), s.pathOpen p = true → Yields (.errPop p) s fun t => t.err =
    { s.err with log := s.err.log.tail } ∧ KeepsMem s t) ∧
  (∀ (s : State) (p : Path) (c : Nat), s.pathOpen p = true → c < 4 → s.handled = c + 1 → s.err.pend = [] → Yields
    (.errAck p c) s fun t => t.err.stack = s.err.stack.tail ∧ t.err.pend = [] ∧ t.err.log = s.err.log) ∧
  (∀ (s : State) (p : Path) (c : Nat), s.pathOpen p = true → c < 4 → s.handled ≠ c + 1 → Yields (.errAck p c) s fun
    t => t.err = s.err ∧ bitOf (t.reg (R.PG_EVT Pg.ERR)).toNat 3 = true ∧ t.resp.code = Code.ok) ∧
  (∀ (s : State) (p : Path) (d : Word), s.pathOpen p = true → 0x80 ≤ getBits d 8 8 → s.err.log = [] → Yields
    (.errSwlog p d) s fun t => t.err.log = [⟨getBits d 0 2, getBits d 8 8, 0xFF, 0, s.reg R.ERR_SWADDR, s.nanos,
    s.seconds % 2 ^ 32⟩] ∧ t.get (errCnt (getBits d 0 2)) = satAdd 8 (s.get (errCnt (getBits d 0 2))) 1) ∧
  (∀ (s : State) (p : Path) (d : Word), s.pathOpen p = true → getBits d 8 8 < 0x80 → Yields (.errSwlog p d) s fun t
    => t.err = s.err ∧ bitOf (t.reg (R.PG_EVT Pg.ERR)).toNat 3 = true ∧ t.resp.code = Code.ok)

/-- A stored chunk lies in its segment, its buffer and its item are free, and no byte but those of the chunk and of a
descriptor changes. Hold-off ends in Filling. FORCE triggers the next sample while Filling or Armed and is counted
as ignored otherwise. REL frees a held segment, RELALL every one; REL of a live or post segment raises ACCESS_ERR
(bit 3). REARM lets a frozen black box write again. A snapshot copies the unit and with CLR clears it. LT_CMD adds
the addend to a counter below 12, saturating, unless loading is locked, when it raises ACCESS_ERR (bit 3). A second
counts in the bin of the last mean temperature, an hour adds the capacitance in µF. -/
def Obligations.RecorderCommands : Prop :=
  (∀ (s : State) (c : RecChunk) (l : List RecChunk), s.alive = true → s.isHub = true → s.recd.full = c :: l →
    s.recd.tail = [] → (s.sch.svc.any fun it => it.queue == 6 && it.hw && it.flow == c.seq) = true → s.memErr = [] →
    s.get F.ERR_INJ_NBIT = 0 → s.segBase c.seg + c.off + c.data.length ≤ 0x303FF000 → Yields .chunkStored s fun t =>
    t.recd.full = l ∧ t.bytes (s.segBase c.seg + c.off) c.data.length = c.data ∧ t.sch.svc.length <
    s.sch.svc.length) ∧
  (∀ (s : State) (c : RecChunk) (l : List RecChunk), s.alive = true → s.isHub = true → s.recd.full = c :: l →
    s.recd.tail = [] → (s.sch.svc.any fun it => it.queue == 6 && it.hw && it.flow == c.seq) = true → s.memErr = [] →
    s.get F.ERR_INJ_NBIT = 0 → s.segBase c.seg + c.off + c.data.length ≤ 0x303FF000 → s.is F.REC_CFG_STRM = true →
    Yields .chunkStored s fun t => t.stn.strm = s.stn.strm ++ [⟨c.seq, s.segBase c.seg + c.off, c.inv⟩]) ∧
  (∀ (s : State), s.alive = true → s.isHub = true → s.runs Pg.REC = true → s.recState = 4 → s.get F.REC_HOLD_MODE =
    1 → Yields .holdOffEnd s fun t => t.recState = 1 ∧ t.recd = s.recd ∧ KeepsMem s t) ∧
  (∀ (s : State) (p : Path), s.Reaches p Pg.REC → s.isHub = true → (s.recState = 1 ∨ s.recState = 2) → Yields
    (.recForce p) s fun t => t.recd = { s.recd with force := true } ∧ KeepsMem s t) ∧
  (∀ (s : State) (p : Path), s.Reaches p Pg.REC → s.isHub = true → (s.recState = 0 ∨ s.recState = 5) → Yields
    (.recForce p) s fun t => t.recd = s.recd ∧ t.get F.REC_CNT_IGNORED = satAdd F.REC_CNT_IGNORED.w (s.get
    F.REC_CNT_IGNORED) 1) ∧
  (∀ (s : State) (p : Path) (i : Nat), s.Reaches p Pg.REC → s.isHub = true → i < 16 → s.segState i = 3 → s.recState
    ≠ 5 → s.memErr = [] → s.get F.ERR_INJ_NBIT = 0 → Yields (.recRel p i) s fun t => t.segState i = 0 ∧ KeepsMemBut
    (descAddr i) 4 s t ∧ bitOf (t.get F.REC_STAT_HELD) i = false) ∧
  (∀ (s : State) (p : Path) (i : Nat), s.Reaches p Pg.REC → s.isHub = true → i < 16 → (s.segState i = 1 ∨ s.segState
    i = 2) → Yields (.recRel p i) s fun t => KeepsMem s t ∧ bitOf (t.reg (R.PG_EVT Pg.REC)).toNat 3 = true ∧
    t.resp.code = Code.ok) ∧
  (∀ (s : State) (p : Path), s.Reaches p Pg.REC → s.isHub = true → s.recState ≠ 5 → s.memErr = [] → s.get
    F.ERR_INJ_NBIT = 0 → Yields (.recRelall p) s fun t => (List.range 16).all (fun i => t.segState i == (if
    s.segState i = 3 then 0 else s.segState i)) = true ∧ t.get F.REC_STAT_HELD = 0) ∧
  (∀ (s : State) (p : Path), s.Reaches p Pg.REC → s.isCell = true → s.is F.REC_BBSTAT_FROZEN = true → s.get
    F.REC_BBSTAT_WHY ≠ 6 → Yields (.bbRearm p) s fun t => t.is F.REC_BBSTAT_FROZEN = false ∧ t.bb =
    { s.bb with post := none } ∧ t.get F.REC_BBSTAT_NEXT = s.get F.REC_BBSTAT_NEXT ∧ KeepsMem s t) ∧
  (∀ (s : State) (p : Path) (k : Nat) (d : Word), s.Reaches p (Pg.MON k) → k < 2 → Yields (.monSnap p k d) s fun t
    => t.reg (R.MON_SMIN k) = BitVec.ofNat 32 (unsigned 32 (kvGet {} s.mon (32 * k + getBits d 0 5)).mn) ∧ t.reg
    (R.MON_SMAX k) = BitVec.ofNat 32 (unsigned 32 (kvGet {} s.mon (32 * k + getBits d 0 5)).mx) ∧ t.reg (R.MON_SCNT
    k) = BitVec.ofNat 32 (kvGet {} s.mon (32 * k + getBits d 0 5)).count ∧ t.get (F.MON_SINFO_UNIT k) = getBits d 0
    5 ∧ kvGet {} t.mon (32 * k + getBits d 0 5) = (if getBits d 8 1 = 1 then {} else kvGet {} s.mon (32 * k +
    getBits d 0 5))) ∧
  (∀ (s : State) (p : Path) (d : Word), s.Reaches p (Pg.MON 0) → s.is (F.LT_CTL_LOCK 0) = false → getBits d 0 4 < 12
    → Yields (.ltAdd p d) s fun t => (t.reg (R.LT_CNT_LO 0 (getBits d 0 4))).toNat + 2 ^ 32 * t.get (F.LT_CNT_HI_CNT
    0 (getBits d 0 4)) = min (2 ^ 48 - 1) ((s.reg (R.LT_CNT_LO 0 (getBits d 0 4))).toNat + 2 ^ 32 * s.get
    (F.LT_CNT_HI_CNT 0 (getBits d 0 4)) + ((s.reg (R.LT_ADDLO 0)).toNat + 2 ^ 32 * s.get (F.LT_ADDHI_ADD 0)))) ∧
  (∀ (s : State) (p : Path) (d : Word), s.Reaches p (Pg.MON 0) → (s.is (F.LT_CTL_LOCK 0) = true ∨ 12 ≤ getBits d 0
    4) → Yields (.ltAdd p d) s fun t => bitOf (t.reg (R.PG_EVT (Pg.MON 0))).toNat 3 = true ∧ t.resp.code = Code.ok ∧
    (List.range 12).all (fun i => t.reg (R.LT_CNT_LO 0 i) == s.reg (R.LT_CNT_LO 0 i) && t.reg (R.LT_CNT_HI 0 i) ==
    s.reg (R.LT_CNT_HI 0 i)) = true) ∧
  (∀ (s : State) (p : Path), s.Reaches p (Pg.MON 0) → Yields (.ltLock p) s fun t => t.get (F.LT_CTL_LOCK 0) = 1) ∧
  (∀ (s : State), s.alive = true → sFinite (s.win 8).mean = true → (s.reg (R.LT_CNT_LO 0 (2 + tempBin (sVal (s.win
    8).mean).floor))).toNat < 2 ^ 32 - 1 → Yields .lifetimeSecond s fun t => (t.reg (R.LT_CNT_LO 0 (2 + tempBin
    (sVal (s.win 8).mean).floor))).toNat = (s.reg (R.LT_CNT_LO 0 (2 + tempBin (sVal (s.win 8).mean).floor))).toNat +
    1) ∧
  (∀ (s : State), s.alive = true → (sFinite (s.reg (R.LT_CAPIN 0)) && sLt 0 (s.reg (R.LT_CAPIN 0))) = true → (s.reg
    (R.LT_CNT_LO 0 11)).toNat < 2 ^ 32 - 1 → Yields .lifetimeHour s fun t => (t.reg (R.LT_CNT_LO 0 11)).toNat =
    (s.reg (R.LT_CNT_LO 0 11)).toNat + 1 ∧ (t.reg (R.LT_CNT_LO 0 10)).toNat + 2 ^ 32 * t.get (F.LT_CNT_HI_CNT 0 10)
    = min (2 ^ 48 - 1) ((s.reg (R.LT_CNT_LO 0 10)).toNat + 2 ^ 32 * s.get (F.LT_CNT_HI_CNT 0 10) + (dVal (dMul (sToD
    (s.reg (R.LT_CAPIN 0))) (dInt 1000000))).roundAway.toNat)) ∧
  (∀ (s : State), s.Settled → (sFinite (s.reg (R.LT_CAPIN 0)) && sLt 0 (s.reg (R.LT_CAPIN 0))) = false → exec
    .lifetimeHour s = .next s)

/-- A link that comes up drops the keys at a hub and starts an exchange; the station controller's sound answer keys
the station MAC. A set-point that passes format, tag and replay becomes pending; one with a wrong tag is counted
(TAG_FAIL, bit 11). A matched sampled-value frame adds its samples; another frame goes to the receive ring while it
has room. With no frame active for too long SPF falls. -/
def Obligations.StationFrames : Prop :=
  (∀ (s : State) (p : Nat), s.stnOn = true → p < 2 → s.linkUp p = false → Yields (.stationLinkUp p) s fun t =>
    t.linkUp p = true ∧ bitOf (t.reg (R.PG_EVT Pg.STN)).toNat 8 = true) ∧
  (∀ (s : State) (p : Nat), s.stnOn = true → s.isHub = true → p < 2 → s.linkUp p = false → (p = 0 ∨ s.is
    F.STN_CFG_PRP = true) → Yields (.stationLinkUp p) s fun t => t.is F.STN_STAT_KEYED = false ∧ t.stn.high = none ∧
    t.stn.keys.rx = none) ∧
  (∀ (s : State) (p : Nat), s.stnOn = true → p < 2 → s.linkUp p = true → Yields (.stationLinkDown p) s fun t =>
    t.linkUp p = false ∧ bitOf (t.reg (R.PG_EVT Pg.STN)).toNat 8 = true ∧ t.stn = s.stn) ∧
  (∀ (s : State) (f : EthRx) (str : List Byte), s.stnOn = true → s.EthTaken f → s.stnKind f = .kx → s.destTaken
    (innerBody f) = true → etolwickFmt (innerBody f) = true → etolwickBody (innerBody f) = str → s.stn.keys.priv ≠ 0
    → kxSound str (pubOf s.stn.keys.priv ++ kxEph str) = true → s.isPeer (keyId (kxPub str)) 1 = true → (ecdhX
    s.stn.keys.priv (kxEph str)).isSome = true → Yields (.stationKxRx f) s fun t => t.is F.STN_STAT_KEYED = true ∧
    t.stn.keys.rx.isSome = true ∧ t.stn.keys.tx.isSome = true ∧ t.stn.keys.txSeq = 0 ∧ bitOf (t.reg (R.PG_EVT
    Pg.STN)).toNat 17 = true) ∧
  (∀ (s : State) (f : EthRx), s.stnOn = true → s.EthTaken f → s.stnKind f = .setpoint → s.destTaken (innerBody f) =
    true → etolwickFmt (innerBody f) = true → s.spFmt (etolwickBody (innerBody f)) = true → s.stnTagOk (innerBody f)
    = true → s.seqNew (beAt (innerBody f) 4 6) = true → beAt (innerBody f) 4 6 < 2 ^ 40 → Yields (.setpointRx f) s
    fun t => t.stn.pend = some (s.spParse (etolwickBody (innerBody f))) ∧ t.stn.active = s.stn.active ∧
    t.stn.seen.contains (beAt (innerBody f) 4 6) = true ∧ t.get F.STN_FCNT_SPOK = (s.get F.STN_FCNT_SPOK + 1) % 2 ^
    16) ∧
  (∀ (s : State) (f : EthRx), s.stnOn = true → s.EthTaken f → s.stnKind f = .setpoint → s.destTaken (innerBody f) =
    true → etolwickFmt (innerBody f) = true → s.spFmt (etolwickBody (innerBody f)) = true → s.stnTagOk (innerBody f)
    = false → Yields (.setpointRx f) s fun t => t.stn = s.stn ∧ t.get F.STN_FCNT_TAG = satAdd F.STN_FCNT_TAG.w
    (s.get F.STN_FCNT_TAG) 1 ∧ bitOf (t.reg (R.PG_EVT Pg.STN)).toNat 11 = true) ∧
  (∀ (s : State), s.stnOn = true → s.is F.STN_STAT_SPF = true → Yields .spStale s fun t => t.is F.STN_STAT_SPF =
    false ∧ t.stn = s.stn ∧ bitOf (t.reg (R.PG_EVT Pg.STN)).toNat 9 = true) ∧
  (∀ (s : State) (f : EthRx) (c : Nat) (a : Nat × Nat × List Byte), s.stnOn = true → s.EthTaken f → s.stnKind f =
    .sv c → c < s.stn.sv.length → svAsdus (innerBody f) = [a] → a.2.2.length = 64 → Yields (.svFrameRx f) s fun t =>
    (nth t.stn.sv c []).head? = some (s.svSample c f.time a) ∧ t.get F.STN_SVCNT_OK = (s.get F.STN_SVCNT_OK + 1) % 2
    ^ 16) ∧
  (∀ (s : State) (c : Nat), s.stnOn = true → s.isHub = true → c < 4 → s.is (F.STN_SVCFG_EN c) = true → Yields
    (.svLost c) s fun t => t.get F.STN_SVCNT_LOST = satAdd F.STN_SVCNT_LOST.w (s.get F.STN_SVCNT_LOST) 1 ∧ bitOf
    (t.reg (R.PG_EVT Pg.STN)).toNat 13 = true) ∧
  (∀ (s : State) (f : EthRx), s.stnOn = true → s.EthTaken f → s.stnKind f = .other → (s.get F.STN_RXPTR_HEAD + 1) %
    32 ≠ s.get F.STN_RXPTR_TAIL → s.memErr = [] → s.get F.ERR_INJ_NBIT = 0 → s.isProtected ((s.reg
    R.STN_RXBASE).toNat + 2048 * s.get F.STN_RXPTR_HEAD) (f.body.length + 18) = false → Yields (.rxToRing f) s fun t
    => t.get F.STN_RXPTR_HEAD = (s.get F.STN_RXPTR_HEAD + 1) % 32 ∧ t.bytes ((s.reg R.STN_RXBASE).toNat + 2048 *
    s.get F.STN_RXPTR_HEAD + 4) (f.body.length + 14) = beBytes 6 f.dst ++ beBytes 6 f.src ++ beBytes 2 f.etype ++
    f.body ∧ KeepsMemBut ((s.reg R.STN_RXBASE).toNat + 2048 * s.get F.STN_RXPTR_HEAD) (f.body.length + 18) s t ∧
    bitOf (t.reg (R.PG_EVT Pg.STN)).toNat 16 = true) ∧
  (∀ (s : State) (f : EthRx), s.stnOn = true → s.EthTaken f → s.stnKind f = .other → (s.get F.STN_RXPTR_HEAD + 1) %
    32 = s.get F.STN_RXPTR_TAIL → Yields (.rxToRing f) s fun t => KeepsMem s t ∧ t.get F.STN_RXPTR_HEAD = s.get
    F.STN_RXPTR_HEAD ∧ t.get F.STN_TXCNT_RXDROP = satAdd F.STN_TXCNT_RXDROP.w (s.get F.STN_TXCNT_RXDROP) 1 ∧ bitOf
    (t.reg (R.PG_EVT Pg.STN)).toNat 15 = true)

/-- A request that passes its checks is held with every local record answered, and a record for a cell of another hub
answered ABSENT; once all are answered one response leaves on each port. A posted untimed descriptor leaves at once,
a timed one at its instant. A chunk leaves as four frames on each port, or is counted while the ports are down or
unkeyed. REKEY drops the keys, CLRCNT clears the counters. -/
def Obligations.StationTransactions : Prop :=
  (∀ (s : State) (f : EthRx) (r : StnRec), s.stnOn = true → s.isHub = true → s.EthTaken f → s.stnKind f = .mgmt →
    s.destTaken (innerBody f) = true → etolwickFmt (innerBody f) = true → requestOf (etolwickBody (innerBody f)) =
    some [r] → s.stnTagOk (innerBody f) = true → s.seqNew (beAt (innerBody f) 4 6) = true → beAt (innerBody f) 4 6 <
    2 ^ 40 → r.valid = true → r.op = 1 → (s.sch.held.any fun h => h.1 == 4) = false → Yields (.mgmtRequestRx f) s
    fun t => ((kvFind t.stn.reqs s.stn.nextReq).map fun x => (x.src, x.recs.map fun y => (y.tid, y.ans.isSome))) =
    some (f.src, [(r.tid, true)]) ∧ t.stn.nextReq = (s.stn.nextReq + 1) % 2 ^ 28) ∧
  (∀ (s : State) (f : EthRx) (r : StnRec), s.stnOn = true → s.isHub = true → s.EthTaken f → s.stnKind f = .mgmt →
    s.destTaken (innerBody f) = true → etolwickFmt (innerBody f) = true → requestOf (etolwickBody (innerBody f)) =
    some [r] → s.stnTagOk (innerBody f) = true → s.seqNew (beAt (innerBody f) 4 6) = true → beAt (innerBody f) 4 6 <
    2 ^ 40 → r.valid = true → r.op = 0x81 → r.node / 1024 ≠ s.hubNo → (s.sch.held.any fun h => h.1 == 4) = false →
    Yields (.mgmtRequestRx f) s fun t => ((kvFind t.stn.reqs s.stn.nextReq).map fun x => x.recs) = some
    [{ r with ans := some (Code.absent, 0, []) }] ∧ t.get F.STN_FCNT2_MG = (s.get F.STN_FCNT2_MG + 1) % 2 ^ 16) ∧
  (∀ (s : State) (q : Nat) (x : StnReq), s.stnOn = true → kvFind s.stn.reqs q = some x → (x.recs.all fun r =>
    r.ans.isSome) = true → s.stn.txq = [] → s.stnPorts.all (fun p => s.laneSends (6 + p)) = true → s.stn.keys.txSeq
    + 1 < 2 ^ 40 → Yields (.mgmtResponseTx q) s fun t => kvFind t.stn.reqs q = none ∧ t.stn.sent.length =
    s.stnPorts.length ∧ t.stn.keys.txSeq = s.stn.keys.txSeq + 1) ∧
  (∀ (s : State) (p : Path) (i : Nat), s.Reaches p Pg.STN → s.stnOn = true → i < 32 → s.stn.txq = [] → s.memErr = []
    → s.stnPorts.all (fun q => s.laneSends (6 + q)) = true → bitOf (s.txDesc i).2.1 12 = false → bitOf (s.txDesc
    i).2.1 13 = false → bitOf (s.txDesc i).2.1 14 = false → Yields (.txPost p (BitVec.ofNat 32 i)) s fun t =>
    t.stn.txq = [] ∧ t.stn.sent.length = s.stnPorts.length ∧ (t.stn.sent.all fun e => e.2.take ((s.txDesc i).2.1 %
    2048) == s.bytes (s.txDesc i).1 ((s.txDesc i).2.1 % 2048)) = true) ∧
  (∀ (s : State) (p : Path) (i : Nat), s.Reaches p Pg.STN → s.stnOn = true → i < 32 → s.stn.txq = [] → bitOf
    (s.txDesc i).2.1 12 = true → s.now + 2000 * unitsPerNs ≤ (s.txDesc i).2.2 → Yields (.txPost p (BitVec.ofNat 32
    i)) s fun t => t.stn.txq = [i] ∧ t.stn.sent = [] ∧ t.get F.STN_TXPOST_HEAD = i) ∧
  (∀ (s : State) (i : Nat), s.stnOn = true → s.runs Pg.TIME = true → s.stn.txq = [i] → s.stn.later = [] → s.memErr =
    [] → s.stnPorts.all (fun p => s.laneSends (6 + p)) = true → bitOf (s.txDesc i).2.1 12 = true → bitOf (s.txDesc
    i).2.1 13 = false → bitOf (s.txDesc i).2.1 14 = false → Yields .timedTx s fun t => t.stn.txq = [] ∧
    t.stn.sent.length = s.stnPorts.length ∧ (s.txDesc i).2.2 ≤ t.now) ∧
  (∀ (s : State) (c : StnChunk) (l : List StnChunk), s.stnOn = true → s.isHub = true → s.stn.strm = c :: l →
    (s.stnPorts = [] ∨ s.is F.STN_STAT_KEYED = false) → Yields .streamTx s fun t => t.stn.strm = l ∧ t.stn.sent = []
    ∧ t.get F.STN_STRM_STRDROP = satAdd F.STN_STRM_STRDROP.w (s.get F.STN_STRM_STRDROP) 1) ∧
  (∀ (s : State) (c : StnChunk) (l : List StnChunk), s.stnOn = true → s.isHub = true → s.stn.strm = c :: l →
    s.stnPorts ≠ [] → s.is F.STN_STAT_KEYED = true → s.memErr = [] → s.stn.txq = [] → s.stnPorts.all (fun p =>
    s.laneSends (6 + p)) = true → s.stn.keys.txSeq + 4 < 2 ^ 40 → Yields .streamTx s fun t => t.stn.strm = l ∧
    t.stn.sent.length = 4 * s.stnPorts.length ∧ t.stn.keys.txSeq = s.stn.keys.txSeq + 4 ∧ KeepsMem s t) ∧
  (∀ (s : State), s.stnOn = true → s.is F.STN_CFG_PRP = true → s.stn.txq = [] → s.stnPorts.all (fun p => s.laneSends
    (6 + p)) = true → Yields .prpSupervisionTx s fun t => t.stn.prpAt.isSome = true ∧ t.stn.sent.length =
    s.stnPorts.length ∧ t.stn.prpSeq = (s.stn.prpSeq + 1) % 65536) ∧
  (∀ (s : State) (p : Path), s.Reaches p Pg.STN → s.stnOn = true → s.isHub = true → s.stn.txq = [] → s.stnPorts.all
    (fun q => s.laneSends (6 + q)) = true → Yields (.stnRekey p) s fun t => t.is F.STN_STAT_KEYED = false ∧
    t.stn.high = none ∧ t.stn.keys.rx = none ∧ t.stn.keys.priv ≠ 0 ∧ t.stn.sent.length = s.stnPorts.length) ∧
  (∀ (s : State) (p : Path), s.Reaches p Pg.STN → Yields (.stnClrcnt p) s fun t => t.reg R.STN_FCNT = 0 ∧ t.reg
    R.STN_FCNT2 = 0 ∧ t.reg R.STN_SVCNT = 0 ∧ t.reg R.STN_TXCNT = 0 ∧ t.reg (R.STN_PRX 0) = 0 ∧ t.reg (R.STN_PERR 1)
    = 0 ∧ t.get F.STN_STRM_STRDROP = 0 ∧ t.stn = s.stn)

/-- Each event listed changes at most the state parts and registers listed with it, beyond what the hardwired logic
then forces; in every state it answers a next state. -/
def Obligations.FramesOfPlainEvents : Prop :=
  (Changes .vddioAbove1v2 [.pins] []) ∧
  (Changes .nrstRelease [.boot, .phase, .pins] []) ∧
  (∀ (band : RoleBand), Changes (.rolePullupRead band) [.phase, .pins] []) ∧
  (Changes .ownerChangeEntry [.boot] []) ∧
  (Changes .cpuEclaimClaim [.resp, .sup] []) ∧
  (∀ (data : Word), Changes (.cpuEclaimComplete data) [.resp, .sup] []) ∧
  (∀ (dom : Nat), Changes (.forcedSwitch dom) [.recd] [R.CLK_FAIL, R.PG_EVT Pg.CLK]) ∧
  (Changes .spllLock [] [R.CLK_SPLL_STAT]) ∧
  (∀ (page : Nat), Changes (.gateHandshake page) [.clk] [R.PG_STAT page]) ∧
  (∀ (page : Nat), Changes (.ungate page) [] [R.PG_STAT page]) ∧
  (Changes .hostBusReleased [.host] []) ∧
  (∀ (csStayedHigh : Bool), Changes (.busReclaim csStayedHigh) [.host] []) ∧
  (Changes .busReturn [.host] [R.HOST_REL]) ∧
  (∀ (n : Nat) (level : Bool), Changes (.gpioEdge n level) [.pins, .recd] [R.GPIO_EDGE, R.PG_EVT Pg.GPIO]) ∧
  (Changes .uartByteSent [.uart] []) ∧
  (∀ (byte : Byte) (framingOk : Bool), Changes (.uartByteRx byte framingOk) [.recd, .uart] [R.GPIO_USTAT, R.PG_EVT
    Pg.GPIO]) ∧
  (Changes .ledToggle [.pins] []) ∧
  (Changes .presenceRelease [.boot, .pins, .sec] []) ∧
  (Changes .stuckClear [] [R.SEC_PRES]) ∧
  (∀ (level : Bool), Changes (.sealSequenceChange level) [.pins] []) ∧
  (∀ (lane : Nat), Changes (.syncGained lane) [.lanes, .recd] [R.LANE_STAT lane, R.PG_EVT (Pg.LANE lane)]) ∧
  (∀ (lane : Nat), Changes (.polFlip lane) [.recd] [R.LANE_CFG lane, R.LANE_CNT lane, R.PG_EVT (Pg.LANE lane)]) ∧
  (∀ (why skew : Nat), Changes (.bondErr why skew) [.recd] ((List.range 8).map R.LANE_BOND ++ ((List.range 8).map
    fun i => R.PG_EVT (Pg.LANE i)))) ∧
  (∀ (lane : Nat), Changes (.lossOfSignal lane) [.recd] [R.LANE_STAT lane, R.PG_EVT (Pg.LANE lane)]) ∧
  (∀ (lane : Nat), Changes (.cdrLock lane) [.clk] [R.CLK_SRC, R.LANE_STAT lane]) ∧
  (∀ (lane errors : Nat), Changes (.esDone lane errors) [.recd] [R.LANE_ES_ERR lane, R.LANE_ES_STAT lane, R.PG_EVT
    (Pg.LANE lane)]) ∧
  (∀ (lane errors bits : Nat), Changes (.eyeScanAbort lane errors bits) [] [R.LANE_ES_ERR lane, R.LANE_ES_STAT
    lane]) ∧
  (∀ (lane : Nat), Changes (.prbsLock lane) [.recd] [R.LANE_PRBS_STAT lane, R.PG_EVT (Pg.LANE lane)]) ∧
  (∀ (lane errors : Nat), Changes (.prbsRelock lane errors) [] [R.LANE_PRBS_ERR lane, R.LANE_PRBS_STAT lane]) ∧
  (Changes .ppsPulse [.time] []) ∧
  (∀ (port : Nat), Changes (.collision port) [.recd] [R.BERTH_BRD port, R.PG_EVT Pg.BERTH]) ∧
  (∀ (u : Nat), Changes (.rcuClearDone u) [] [R.RCU_STAT]) ∧
  (Changes .safeLevelTurnOn [.gate] []) ∧
  (∀ (cause : StopCause), Changes (.gateStopExit cause) [.gate] []) ∧
  (Changes .thyDone [.gate, .recd] [R.PG_EVT Pg.GATE]) ∧
  (Changes .gate5Release [.gate] []) ∧
  (∀ (taps : Nat), Changes (.delayLineCal taps) [.gate, .recd] [R.GATE_DLCAL, R.PG_EVT Pg.GATE]) ∧
  (∀ (f : Nat) (code : Int), Changes (.comparatorDeassert ⟨f, code⟩) [.gate] [R.ADC_FSTAT]) ∧
  (Changes .startupTestOpen [.safe] []) ∧
  (Changes .startupPass [.recd, .safe] [R.PG_EVT Pg.SAFE]) ∧
  (Changes .supplyMonitorRelease [.boot, .phase, .pins] []) ∧
  (∀ (source : Nat), Changes (.faultSourceRelease source) [.gate, .pins] []) ∧
  (∀ (port : Nat), Changes (.stationLinkDown port) [.recd] [R.PG_EVT Pg.STN, R.STN_STAT]) ∧
  (Changes .ppsPulseEnd [.time] []) ∧
  (Changes .cycleMarkEnd [.time] []) ∧
  (Changes .thyristorPulse [.gate] []) ∧
  (Changes .nmiRet [.resp, .sup] (nmiRegs)) ∧
  (∀ (data : Word), Changes (.wdtKick data) [.resp, .sup] [R.CPU_WDT_STAT]) ∧
  (∀ (rings : List Nat), Changes (.speedCount rings) [.clk, .mon, .recd] [R.PG_EVT Pg.CLK, R.SYS_SPEED]) ∧
  (∀ (page : Nat), Changes (.pageHeld page) [.time] [R.PG_STAT page]) ∧
  (∀ (crc : Nat) (ready : Bool), Changes (.hostStat crc ready) [.host, .resp] [R.HOST_CNT]) ∧
  (Changes .presencePress [.pins, .recd, .sec] [R.PG_EVT Pg.SEC]) ∧
  (Changes .presenceWindowExpire [.elapsed, .recd, .sec, .sup, .time] [R.PG_EVT Pg.SEC]) ∧
  (Changes .otpProgramDone [.box, .mem, .sec] [R.OTP_STAT]) ∧
  (∀ (lane : Nat), Changes (.rateHuntSwitch lane) [.freeCtr] ([R.LANE_CFG lane, R.LANE_ES_ERR lane, R.LANE_ES_STAT
    lane, R.LANE_STAT lane] ++ (List.range 5).map R.CLK_MON_CTL)) ∧
  (∀ (port seq msgType : Nat) (sent : Bool) (corr t3 : Nat), Changes (.ptpTimestamp port seq msgType sent corr t3)
    [.recd, .time] ([R.PG_EVT Pg.TIME, R.TIME_TSQ_STAT port] ++ (List.range 2).map R.STN_PTX)) ∧
  (∀ (cause : HoldCause), Changes (.holdoverEnter cause) [.recd, .time] [R.PG_EVT Pg.TIME, R.TIME_HOLD,
    R.TIME_STAT]) ∧
  (∀ (uplink berth slot round : Nat), Changes (.mgrant uplink berth slot round) [.rx] []) ∧
  (∀ (uplink berth slot round : Nat), Changes (.rslot uplink berth slot round) [.rx] []) ∧
  (∀ (uplink berth : Nat) (all : Bool), Changes (.laserKill uplink berth all) [.recd, .rx] [R.PG_EVT (Pg.TREE
    uplink), R.TREE_CELL_SLOT uplink]) ∧
  (∀ (uplink : Nat) (body : List Byte), Changes (.tbaseRecord uplink body) [.rx] [R.TREE_CELL_MQ uplink]) ∧
  (∀ (uplink : Nat) (body : List Byte), Changes (.beaconRecord uplink body) [.rx] [R.TREE_CELL_MQ uplink]) ∧
  (∀ (uplink : Nat) (body : List Byte), Changes (.offerRecord uplink body) [.rx] [R.TREE_CELL_MQ uplink]) ∧
  (∀ (uplink : Nat) (body : List Byte), Changes (.refuseRecord uplink body) [.freeCtr, .rx] [R.TREE_CELL_MQ uplink]) ∧
  (∀ (uplink : Nat) (body : List Byte), Changes (.restoreRecord uplink body) [] [R.TREE_CELL_MQ uplink,
    R.TREE_CELL_SLOT uplink]) ∧
  (∀ (port : Nat), Changes (.enrolmentWindowExpire port) [.elapsed, .ports, .recd, .sup, .time] [R.BERTH_BOARD,
    R.PG_EVT Pg.BERTH]) ∧
  (∀ (uplink : Nat), Changes (.boardingBackoff uplink) [.freeCtr, .rx] []) ∧
  (∀ (uplink : Nat), Changes (.rejoinTrigger uplink) [.rx] [R.TREE_CELL_DN uplink, R.TREE_CELL_SLOT uplink,
    R.TREE_CELL_UP uplink]) ∧
  (∀ (cause : StopCause), Changes (.gateStopEnter cause) [.gate, .recd, .safe] [R.PG_EVT Pg.GATE]) ∧
  (Changes .deblockSequenceQueue [.ports, .safe] []) ∧
  (∀ (frame : List Byte), Changes (.twinHelloFrame frame) [.twin] [R.BOOT_TWIN, R.TWIN_LERR, R.TWIN_STAT]) ∧
  (∀ (frame : List Byte), Changes (.twinSliceRx frame) [.twin] [R.TWIN_LERR]) ∧
  (∀ (frame : List Byte), Changes (.twinCommitRx frame) [.recd, .twin] [R.PG_EVT Pg.TWIN, R.TWIN_LERR, R.TWIN_MCNT,
    R.TWIN_STAT]) ∧
  (Changes .holdOffEnd [.elapsed, .sup, .time] [R.REC_STAT]) ∧
  (Changes .lifetimeSecond [.freeCtr] (ltRegs)) ∧
  (Changes .lifetimeHour [] (ltRegs)) ∧
  (Changes .spStale [.elapsed, .recd, .sup, .time] [R.PG_EVT Pg.STN, R.STN_STAT]) ∧
  (∀ (c : Nat), Changes (.svLost c) [.elapsed, .recd, .sup, .time] [R.PG_EVT Pg.STN, R.STN_SVCNT]) ∧
  (∀ (pin : BlockPin), Changes (.hubSourceRelease pin) [.pins, .safe] []) ∧
  (Changes .supervisorDebugHalt [.gate, .recd, .safe, .sup] [R.PG_EVT Pg.GATE, R.PG_EVT Pg.SAFE])

/-- Each event listed changes at most the state parts and registers listed with it, beyond what the hardwired logic
then forces; in every state it answers a next state. Memory outside the black box stays unless .mem is listed. -/
def Obligations.FramesOfLinkEvents : Prop :=
  (∀ (dom : Nat), Changes (.rampStep dom) [.clk, .freeCtr, .recd, .time] ([R.PG_EVT Pg.CLK, R.PG_EVT Pg.TIME,
    R.TIME_STAT] ++ (List.range 4).map R.CLK_DOM)) ∧
  (∀ (port : Nat), Changes (.groupKeyRenewal port) [.berths, .freeCtr, .ports] []) ∧
  (∀ (lane codeErrors : Nat), Changes (.syncLost lane codeErrors) [.clk, .freeCtr, .lanes, .recd, .time, .twin]
    [R.LANE_CNT lane, R.LANE_ES_ERR lane, R.LANE_ES_STAT lane, R.LANE_STAT lane, R.PG_EVT (Pg.LANE lane), R.PG_EVT
    Pg.TIME, R.PG_EVT Pg.TWIN, R.TIME_HOLD, R.TIME_STAT, R.TWIN_MCNT, R.TWIN_STAT]) ∧
  (Changes .stepDone [.now, .recd, .time] [R.PG_EVT Pg.TIME, R.TIME_HOLD, R.TIME_STAT]) ∧
  (∀ (offset : Int), Changes (.twinTimeExchange offset) [.freeCtr, .recd, .time] [R.PG_EVT Pg.TIME, R.PG_EVT
    Pg.TWIN, R.TIME_HOLD, R.TIME_INC, R.TIME_INC_FRAC, R.TIME_STAT, R.TIME_TWIN, R.TWIN_STAT]) ∧
  (Changes .readyTest [.mod, .recd, .safe] ([R.MOD_DL_CFG, R.MOD_DL_CNT, R.PG_EVT Pg.MOD, R.PG_EVT Pg.SAFE,
    R.REF_HFAIL] ++ (List.range 2).map R.MOD_ARM_TRIM)) ∧
  (∀ (uplink berth tid : Nat) (body : List Byte), Changes (.keyRecord uplink berth tid body) [.rx] [R.SYS_NODE,
    R.TREE_CELL_MQ uplink, R.TREE_CELL_SLOT uplink]) ∧
  (∀ (uplink berth tid down up : Nat), Changes (.delayRecord uplink berth tid down up) [.adc, .rx] [R.ACC_WIN,
    R.TREE_CELL_DN uplink, R.TREE_CELL_MQ uplink, R.TREE_CELL_UP uplink]) ∧
  (Changes .deadTimeTurnOn [.elapsed, .gate, .now, .recd, .sup, .time] [R.PG_EVT Pg.TIME, R.TIME_HOLD, R.TIME_STAT]) ∧
  (∀ (port berth : Nat), Changes (.rangingTimeout port berth) [.berths, .ports] [R.BERTH_BRD port]) ∧
  (∀ (port : Nat) (light : Bool), Changes (.searchStep port light) [.berths, .ports, .recd] [R.BERTH_SRCH port,
    R.PG_EVT Pg.BERTH]) ∧
  (∀ (ns : Nat), Changes (.stageD ns) [.freeCtr, .mod, .mon, .rank] ([R.RANK_SORTS, R.RANK_STAT] ++ (List.range
    2).map R.RANK_ARM_STAT)) ∧
  (∀ (n : Nat), Changes (.tevFired n) [.elapsed, .gate, .now, .recd, .sup, .time] [R.PG_EVT Pg.GATE, R.PG_EVT
    Pg.TIME, R.TEV_CTL n, R.TIME_HOLD, R.TIME_STAT]) ∧
  (∀ (pin : BlockPin) (low : Nat), Changes (.alatch ⟨pin, low⟩) [.freeCtr, .mon, .pins, .recd, .safe] (ltRegs ++
    [R.PG_EVT Pg.SAFE, R.SAFE_HCNT, R.SAFE_HREACT])) ∧
  (Changes .disc [.freeCtr, .mon, .recd, .safe] (ltRegs ++ [R.PG_EVT Pg.SAFE, R.SAFE_HCNT, R.SAFE_HREACT])) ∧
  (∀ (lane reaction : Nat), Changes (.blkos lane reaction) [.bb, .box, .cmod, .gate, .mon, .recd, .rx, .safe]
    [R.GATE_CNT2, R.PG_EVT Pg.REC, R.PG_EVT Pg.SAFE, R.REC_BBSTAT, R.SAFE_CCNT, R.SAFE_CREACT]) ∧
  (Changes .blkseenClear [.elapsed, .now, .recd, .safe, .sup, .time] [R.PG_EVT Pg.TIME, R.TIME_HOLD, R.TIME_STAT]) ∧
  (∀ (link : Nat), Changes (.linkMiss link) [.recd, .refPairs] (ltRegs ++ [R.PG_EVT Pg.REF] ++ (List.range 2).map
    R.REF_PCNT ++ (List.range 2).map R.REF_PLAST ++ (List.range 2).map R.REF_PSTAT ++ (List.range 4).map
    R.REF_LSTAT)) ∧
  (∀ (link : Nat) (frame : List Byte), Changes (.refereeKx link frame) [.freeCtr, .refLinks, .twin] ([R.REF_HCNT,
    R.REF_HSTAT, R.SEC_KEYSTAT] ++ (List.range 4).map R.REF_LCNT ++ (List.range 4).map R.REF_LSTAT)) ∧
  (Changes .refLost [.elapsed, .now, .recd, .sup, .time, .twin] [R.PG_EVT Pg.TIME, R.TIME_HOLD, R.TIME_STAT]) ∧
  (∀ (queue flow arg : Nat), Changes (.hwArrival queue flow arg) [.freeCtr, .recd, .sch] [R.PG_EVT Pg.SCHG, R.PG_EVT
    Pg.SCHQ, R.SCHQ_CNT queue]) ∧
  (Changes .delayRelease [.recd, .sch] ([R.PG_EVT Pg.SCHQ] ++ (List.range 4).map R.SCHG_DL)) ∧
  (Changes .prpSupervisionTx [.elapsed, .stn, .sup, .time] ((List.range 2).map R.STN_PTX)) ∧
  (∀ (n : Nat), Changes (.tevPulseEnd n) [.elapsed, .gate, .now, .recd, .sup, .time] [R.PG_EVT Pg.TIME, R.TIME_HOLD,
    R.TIME_STAT]) ∧
  (Changes .wdtFirstStage [.bb, .box, .elapsed, .err, .gate, .recd, .sup, .time] (errRegs ++ [R.CPU_WDT_STAT])) ∧
  (∀ (ppb : Int), Changes (.ircMeasurement ppb) [.bb, .box, .clk, .err, .gate, .recd, .sup, .time] (errRegs ++
    [R.CLK_FAIL, R.CLK_IRC, R.CLK_IRC_MEAS, R.PG_EVT Pg.CLK])) ∧
  (Changes .pressStuck [.bb, .box, .err, .gate, .recd, .sec, .sup] (errRegs ++ [R.PG_EVT Pg.SEC, R.SEC_PRES])) ∧
  (∀ (sealIn : Bool), Changes (.sealSample sealIn) [.bb, .boot, .box, .err, .gate, .mem, .pins, .recd, .sec, .sup]
    (errRegs ++ [R.PG_EVT Pg.SEC, R.SEC_SEAL_NS, R.SEC_SEAL_S])) ∧
  (Changes .attDone [.freeCtr, .recd, .sch, .sec] ([R.PG_EVT Pg.SCHG, R.PG_EVT Pg.SEC, R.SCHG_CNT, R.SEC_ATT_CTL] ++
    (List.range 48).map R.SEC_ATT_BUF)) ∧
  (∀ (berth : Nat), Changes (.sessionKeyRenewal berth) [.berths, .freeCtr, .ports] []) ∧
  (∀ (lidL4 lidL5 node skew : Nat), Changes (.bondUp lidL4 lidL5 node skew) [.freeCtr, .lanes, .recd, .time, .twin]
    ([R.PG_EVT Pg.TIME, R.PG_EVT Pg.TWIN, R.SYS_TOPO, R.TIME_HOLD, R.TIME_STAT, R.TWIN_MCNT, R.TWIN_STAT] ++
    (List.range 8).map R.LANE_BOND ++ (List.range 8).map R.LANE_STAT ++ ((List.range 8).map fun i => R.PG_EVT
    (Pg.LANE i)))) ∧
  (∀ (lane : Nat), Changes (.pstateDone lane) [.clk, .freeCtr, .lanes, .recd, .time, .twin] [R.LANE_ES_ERR lane,
    R.LANE_ES_STAT lane, R.LANE_PWR lane, R.LANE_STAT lane, R.PG_EVT (Pg.LANE lane), R.PG_EVT Pg.TIME, R.PG_EVT
    Pg.TWIN, R.TIME_HOLD, R.TIME_STAT, R.TWIN_MCNT, R.TWIN_STAT]) ∧
  (∀ (port slot : Nat), Changes (.brstPulse port slot) [.elapsed, .lanes, .now, .recd, .sup, .time] [R.PG_EVT
    Pg.TIME, R.TIME_HOLD, R.TIME_STAT]) ∧
  (∀ (uplink berth tid : Nat) (body : List Byte), Changes (.kxhRecord uplink berth tid body) [.box, .freeCtr, .mem,
    .recd, .rx] [R.PG_EVT Pg.SEC, R.TREE_CELL_MQ uplink]) ∧
  (Changes .eventByp [.elapsed, .gate, .now, .recd, .rx, .safe, .sup, .time] (ltRegs ++ [R.GATE_CNT, R.GATE_CNT2,
    R.PG_EVT Pg.GATE, R.PG_EVT Pg.TIME, R.TIME_HOLD, R.TIME_STAT])) ∧
  (Changes .eventInsPos [.elapsed, .gate, .now, .recd, .rx, .safe, .sup, .time] (ltRegs ++ [R.GATE_CNT, R.GATE_CNT2,
    R.PG_EVT Pg.GATE, R.PG_EVT Pg.TIME, R.TIME_HOLD, R.TIME_STAT])) ∧
  (Changes .eventInsNeg [.elapsed, .gate, .now, .recd, .rx, .safe, .sup, .time] (ltRegs ++ [R.GATE_CNT, R.GATE_CNT2,
    R.PG_EVT Pg.GATE, R.PG_EVT Pg.TIME, R.TIME_HOLD, R.TIME_STAT])) ∧
  (Changes .eventTrim [.elapsed, .gate, .now, .recd, .rx, .safe, .sup, .time] (ltRegs ++ [R.GATE_CNT, R.GATE_CNT2,
    R.PG_EVT Pg.GATE, R.PG_EVT Pg.TIME, R.TIME_HOLD, R.TIME_STAT])) ∧
  (Changes .trimEnd [.elapsed, .gate, .now, .recd, .safe, .sup, .time] (ltRegs ++ [R.GATE_CNT, R.GATE_CNT2, R.PG_EVT
    Pg.GATE, R.PG_EVT Pg.TIME, R.TIME_HOLD, R.TIME_STAT])) ∧
  (Changes .eventSwapHead [.elapsed, .gate, .now, .recd, .rx, .safe, .sup, .time] (ltRegs ++ [R.GATE_CNT,
    R.GATE_CNT2, R.PG_EVT Pg.GATE, R.PG_EVT Pg.TIME, R.TIME_HOLD, R.TIME_STAT])) ∧
  (∀ (uplink : Nat), Changes (.rangingBurstTx uplink) [.cmod, .elapsed, .gate, .now, .recd, .rx, .safe, .sup, .time]
    (ltRegs ++ [R.GATE_CNT, R.GATE_CNT2, R.PG_EVT Pg.GATE, R.PG_EVT Pg.TIME, R.TIME_HOLD, R.TIME_STAT])) ∧
  (∀ (source low : Nat), Changes (.faultAssert ⟨source, low⟩) [.bb, .box, .cmod, .gate, .pins, .recd, .rx, .safe]
    (ltRegs ++ [R.GATE_CNT2, R.PG_EVT Pg.GATE, R.PG_EVT Pg.REC, R.REC_BBSTAT])) ∧
  (∀ (f : Nat) (codes : List Int), Changes (.comparatorAssert ⟨f, codes⟩) [.bb, .box, .cmod, .gate, .pins, .recd,
    .rx, .safe] (ltRegs ++ [R.ADC_FSTAT, R.GATE_CNT2, R.PG_EVT Pg.ADC, R.PG_EVT Pg.GATE, R.PG_EVT Pg.REC,
    R.REC_BBSTAT])) ∧
  (∀ (frame : List Byte), Changes (.twinKxFrame frame) [.freeCtr, .recd, .time, .twin] ([R.PG_EVT Pg.TIME, R.PG_EVT
    Pg.TWIN, R.SEC_KEYSTAT, R.TIME_HOLD, R.TIME_STAT, R.TWIN_LERR, R.TWIN_MCNT, R.TWIN_STAT] ++ (List.range 8).map
    R.LANE_STAT)) ∧
  (∀ (frame : List Byte), Changes (.twinStatusRx frame) [.recd, .time, .twin] [R.PG_EVT Pg.TWIN, R.TIME_CTL,
    R.TWIN_LERR, R.TWIN_STAT, R.TWIN_TKCNT, R.TWIN_TKLAST, R.TWIN_WATCH]) ∧
  (Changes .heartbeatTx [.elapsed, .freeCtr, .now, .recd, .sup, .time, .twin] [R.PG_EVT Pg.REF, R.PG_EVT Pg.TIME,
    R.TIME_HOLD, R.TIME_STAT, R.TWIN_STAT]) ∧
  (∀ (pair : Nat), Changes (.refereeFrameTx pair) [.elapsed, .now, .recd, .refLinks, .refPairs, .sup, .time] (ltRegs
    ++ [R.PG_EVT Pg.REF, R.PG_EVT Pg.TIME, R.TIME_HOLD, R.TIME_STAT] ++ (List.range 2).map R.REF_PCNT ++ (List.range
    2).map R.REF_PLAST ++ (List.range 2).map R.REF_PSTAT)) ∧
  (∀ (link : Nat) (frame : List Byte), Changes (.refHbRx link frame) [.mon, .recd, .refLinks, .refPairs] (ltRegs ++
    [R.PG_EVT Pg.REF] ++ (List.range 2).map R.REF_PCNT ++ (List.range 2).map R.REF_PLAST ++ (List.range 2).map
    R.REF_PSTAT ++ (List.range 4).map R.REF_LCNT ++ (List.range 4).map R.REF_LSTAT ++ (List.range 4).map R.REF_LW ++
    (List.range 4).map R.REF_LWIT)) ∧
  (∀ (pair : Nat), Changes (.refereeListenEnd pair) [.elapsed, .now, .recd, .refPairs, .sup, .time] (ltRegs ++
    [R.PG_EVT Pg.REF, R.PG_EVT Pg.TIME, R.TIME_HOLD, R.TIME_STAT] ++ (List.range 2).map R.REF_PCNT ++ (List.range
    2).map R.REF_PLAST ++ (List.range 2).map R.REF_PSTAT)) ∧
  (∀ (frame : List Byte), Changes (.yieldRx frame) [.mon, .recd, .time, .twin] [R.PG_EVT Pg.REF, R.PG_EVT Pg.TWIN,
    R.REF_HCNT, R.REF_HSTAT, R.TIME_CTL, R.TWIN_STAT, R.TWIN_TKCNT, R.TWIN_WATCH]) ∧
  (∀ (frame : List Byte), Changes (.rstRx frame) [.mon, .recd, .time, .twin] [R.PG_EVT Pg.TWIN, R.REF_HCNT,
    R.TIME_CTL, R.TWIN_STAT, R.TWIN_TKCNT, R.TWIN_TKLAST, R.TWIN_WATCH]) ∧
  (∀ (slot : Nat), Changes (.itemStuck slot) [.bb, .box, .elapsed, .err, .gate, .recd, .sch, .sup, .time] (errRegs
    ++ [R.PG_EVT Pg.SCHG, R.SCHG_CNT])) ∧
  (∀ (cause : Nat), Changes (.lockBreak cause) [.arb, .bb, .box, .elapsed, .err, .gate, .recd, .sup, .time] (errRegs
    ++ [R.MEM_LB, R.MEM_LBCNT, R.MEM_SLOCK, R.MEM_STAT, R.PG_EVT Pg.MEM] ++ (List.range 13).map R.MEM_RSTAT ++
    (List.range 8).map R.MEM_LBA)) ∧
  (∀ (port : Nat), Changes (.stationLinkUp port) [.freeCtr, .recd, .stn] ([R.PG_EVT Pg.STN, R.STN_STAT] ++
    (List.range 2).map R.STN_PTX)) ∧
  (∀ (frame : EthRx), Changes (.stationKxRx frame) [.elapsed, .now, .recd, .stn, .sup, .time] (rxRegs ++ [R.PG_EVT
    Pg.STN, R.PG_EVT Pg.TIME, R.SEC_KEYSTAT, R.STN_FCNT2, R.STN_STAT, R.TIME_HOLD, R.TIME_STAT])) ∧
  (∀ (req : Nat), Changes (.mgmtResponseTx req) [.freeCtr, .stn] ([R.STN_STAT] ++ (List.range 2).map R.STN_PTX)) ∧
  (∀ (frame : EthRx), Changes (.svFrameRx frame) [.elapsed, .now, .recd, .stn, .sup, .time] (rxRegs ++ [R.PG_EVT
    Pg.TIME, R.STN_SVCNT, R.TIME_HOLD, R.TIME_STAT]))

/-- Each command listed changes at most the state parts and registers listed with it, beyond what the hardwired logic
then forces; memory outside the black box stays unless .mem is listed. -/
def Obligations.FramesOfEngineEvents : Prop :=
  (∀ (m count : Nat), Changes (.clockMonitorWindow m count) [.bb, .box, .clk, .err, .freeCtr, .gate, .recd, .sup,
    .time] (errRegs ++ [R.CLK_FAIL, R.CLK_MON_STAT m, R.CLK_SRC, R.PG_EVT Pg.CLK, R.PG_EVT Pg.TIME, R.TIME_HOLD,
    R.TIME_STAT] ++ (List.range 4).map R.CLK_DOM)) ∧
  (∀ (m : Nat), Changes (.sourceNoEdge m) [.bb, .box, .clk, .err, .freeCtr, .gate, .recd, .sup, .time] (errRegs ++
    [R.CLK_FAIL, R.CLK_MON_STAT m, R.CLK_SRC, R.PG_EVT Pg.CLK, R.PG_EVT Pg.TIME, R.TIME_HOLD, R.TIME_STAT] ++
    (List.range 4).map R.CLK_DOM)) ∧
  (∀ (m : Nat), Changes (.spllUnlock m) [.bb, .box, .clk, .err, .freeCtr, .gate, .recd, .sup, .time] (errRegs ++
    [R.CLK_FAIL, R.CLK_MON_STAT m, R.CLK_SPLL_STAT, R.CLK_SRC, R.PG_EVT Pg.CLK, R.PG_EVT Pg.TIME, R.TIME_HOLD,
    R.TIME_STAT] ++ (List.range 4).map R.CLK_DOM ++ (List.range 8).map R.LANE_STAT ++ ((List.range 8).map fun i =>
    R.PG_EVT (Pg.LANE i)))) ∧
  (∀ (count : Nat), Changes (.xoscStartupEnd count) [.bb, .box, .clk, .err, .freeCtr, .gate, .recd, .sup, .time]
    (errRegs ++ [R.CLK_FAIL, R.CLK_SRC, R.PG_EVT Pg.CLK, R.PG_EVT Pg.TIME, R.TIME_HOLD, R.TIME_STAT] ++ (List.range
    4).map R.CLK_DOM ++ (List.range 5).map R.CLK_MON_STAT)) ∧
  (∀ (page : Nat) (access : Option InFlight), Changes (.gateTimeout ⟨page, access⟩) [.arb, .bb, .box, .clk, .err,
    .freeCtr, .gate, .recd, .resp, .sup] (errRegs ++ [R.CPU_FAULT, R.CPU_FAULT_ADDR, R.MEM_LB, R.MEM_LBCNT,
    R.MEM_SLOCK, R.MEM_STAT, R.PG_EVT Pg.MEM, R.PG_EVT page, R.PG_STAT page] ++ (List.range 13).map R.MEM_RSTAT ++
    (List.range 8).map R.MEM_LBA)) ∧
  (∀ (port tid : Nat), Changes (.remoteTimeout port tid) [.berths, .elapsed, .freeCtr, .now, .ports, .recd, .safe,
    .sch, .stn, .sup, .time] ([R.BERTH_BRD port, R.PG_EVT (Pg.TREE port), R.PG_EVT Pg.SCHG, R.PG_EVT Pg.SCHQ,
    R.PG_EVT Pg.TIME, R.SAFE_HDBLK, R.SCHG_CNT, R.TIME_HOLD, R.TIME_STAT, R.TREE_MQ port, R.TREE_RA_STAT port] ++
    (List.range 16).map (R.TREE_RA_DATA port) ++ (List.range 32).map R.SCHQ_CNT)) ∧
  (Changes .recDone [.bb, .berths, .box, .eng, .err, .freeCtr, .gate, .mem, .memErr, .recd, .sch, .sec, .sup]
    (errRegs ++ [R.CTL_CNT, R.CTL_STAT, R.ERR_INJ, R.ERR_POIS, R.PG_EVT Pg.CTL, R.PG_EVT Pg.SCHG, R.PG_EVT Pg.SEC,
    R.SCHG_CNT, R.SEC_REC_STAT] ++ (List.range 16).map R.BOOT_ACPT_HI ++ (List.range 16).map R.BOOT_ACPT_LO ++
    (List.range 2).map R.CTL_PGM_STAT ++ (List.range 32).map R.SEC_PEER_CTL ++ (List.range 32).map R.SEC_PEER_HI ++
    (List.range 32).map R.SEC_PEER_LO)) ∧
  (∀ (port slot : Nat) (syncFound codeOk : Bool) (burst : List Byte) (phase align : Nat), Changes (.upstreamBurstRx
    port slot syncFound codeOk burst phase align) [.berths, .freeCtr, .lanes, .ports, .rank, .recd, .sch]
    ([R.BERTH_BRD port, R.BERTH_STR port, R.BOOT_ID_LO, R.BOOT_RUN, R.MOD_LEAD, R.PG_EVT (Pg.TREE port), R.PG_EVT
    Pg.BERTH, R.PG_EVT Pg.MOD, R.PG_EVT Pg.SCHG, R.PG_EVT Pg.SCHQ, R.SYS_TOPO, R.TREE_RXERR port, R.TREE_RXERR2
    port, R.TREE_RXOK port] ++ (List.range 32).map R.SCHQ_CNT ++ (List.range 8).map R.LANE_BCNT ++ (List.range
    8).map R.LANE_CNT ++ (List.range 8).map R.LANE_STAT)) ∧
  (Changes .holdLimit [.bb, .box, .elapsed, .gate, .now, .recd, .rx, .safe, .sup, .time] (ltRegs ++ [R.GATE_CNT2,
    R.PG_EVT Pg.GATE, R.PG_EVT Pg.REC, R.PG_EVT Pg.TIME, R.REC_BBSTAT, R.TIME_HOLD, R.TIME_MER, R.TIME_STAT] ++
    (List.range 4).map R.TREE_CELL_STAT ++ ((List.range 4).map fun i => R.PG_EVT (Pg.TREE i)) ++ (List.range 48).map
    R.PG_STAT)) ∧
  (Changes .payloadBuild [.bb, .box, .cmod, .elapsed, .freeCtr, .gate, .now, .recd, .rx, .safe, .sup, .time] (ltRegs
    ++ [R.GATE_CNT, R.GATE_CNT2, R.PG_EVT Pg.GATE, R.PG_EVT Pg.REC, R.PG_EVT Pg.TIME, R.REC_BBSTAT, R.TIME_HOLD,
    R.TIME_STAT])) ∧
  (∀ (uplink : Nat), Changes (.reportBurstTx uplink) [.cmod, .elapsed, .gate, .now, .recd, .rx, .safe, .sup, .time]
    (ltRegs ++ [R.GATE_CNT, R.GATE_CNT2, R.PG_EVT Pg.GATE, R.PG_EVT Pg.TIME, R.TIME_HOLD, R.TIME_STAT])) ∧
  (∀ (uplink : Nat), Changes (.mgmtBurstTx uplink) [.cmod, .elapsed, .gate, .now, .recd, .rx, .safe, .sup, .time]
    (ltRegs ++ [R.GATE_CNT, R.GATE_CNT2, R.PG_EVT Pg.GATE, R.PG_EVT Pg.TIME, R.TIME_HOLD, R.TIME_STAT,
    R.TREE_CELL_SLOT uplink])) ∧
  (∀ (port berth : Nat) (payload : List Byte), Changes (.mgmtBurstRx port berth payload) [.berths, .freeCtr, .ports,
    .rank, .recd, .safe, .sch, .stn, .time, .twin] ([R.BERTH_BRD port, R.BOOT_ID_LO, R.BOOT_RUN, R.PG_EVT (Pg.TREE
    port), R.PG_EVT Pg.BERTH, R.PG_EVT Pg.SCHG, R.PG_EVT Pg.SCHQ, R.PG_EVT Pg.SEC, R.PG_EVT Pg.TWIN, R.SAFE_HDBLK,
    R.SCHG_CNT, R.TIME_CTL, R.TREE_CELL_STAT port, R.TREE_MQ port, R.TREE_RA_STAT port, R.TREE_RXERR2 port,
    R.TWIN_STAT, R.TWIN_TKCNT, R.TWIN_TKLAST, R.TWIN_WATCH] ++ (List.range 16).map (R.TREE_RA_DATA port) ++
    (List.range 32).map R.SCHQ_CNT)) ∧
  (Changes .eventBlockCell [.bb, .box, .elapsed, .gate, .now, .recd, .rx, .safe, .sup, .time] (ltRegs ++
    [R.GATE_CNT, R.GATE_CNT2, R.PG_EVT Pg.GATE, R.PG_EVT Pg.REC, R.PG_EVT Pg.TIME, R.REC_BBSTAT, R.TIME_HOLD,
    R.TIME_STAT])) ∧
  (Changes .eventFireThy [.bb, .box, .elapsed, .gate, .now, .recd, .rx, .safe, .sup, .time] (ltRegs ++ [R.GATE_CNT,
    R.GATE_CNT2, R.PG_EVT Pg.GATE, R.PG_EVT Pg.REC, R.PG_EVT Pg.TIME, R.REC_BBSTAT, R.TIME_HOLD, R.TIME_STAT])) ∧
  (Changes .eventPermBypass [.bb, .box, .elapsed, .gate, .now, .recd, .rx, .safe, .sup, .time] (ltRegs ++
    [R.GATE_CNT, R.GATE_CNT2, R.PG_EVT Pg.GATE, R.PG_EVT Pg.REC, R.PG_EVT Pg.TIME, R.REC_BBSTAT, R.TIME_HOLD,
    R.TIME_STAT])) ∧
  (∀ (uplink : Nat), Changes (.boardingBurstTx uplink) [.cmod, .elapsed, .freeCtr, .gate, .now, .recd, .rx, .safe,
    .sup, .time] (ltRegs ++ [R.GATE_CNT, R.GATE_CNT2, R.PG_EVT Pg.GATE, R.PG_EVT Pg.TIME, R.TIME_HOLD,
    R.TIME_STAT])) ∧
  (∀ (port : Nat) (syncFound codeOk : Bool) (burst : List Byte) (arrival : Nat), Changes (.boardingBurstRx port
    ⟨syncFound, codeOk, burst⟩ arrival) [.berths, .lanes, .ports, .recd] ([R.BERTH_BRD port, R.BERTH_STR port,
    R.MOD_LEAD, R.PG_EVT (Pg.TREE port), R.PG_EVT Pg.BERTH, R.PG_EVT Pg.MOD, R.SYS_TOPO, R.TREE_RXERR port,
    R.TREE_RXERR2 port, R.TREE_RXOK port] ++ (List.range 8).map R.LANE_CNT ++ (List.range 8).map R.LANE_STAT)) ∧
  (∀ (port : Nat) (syncFound codeOk : Bool) (burst : List Byte) (arrival phase align : Nat), Changes
    (.rangingBurstRx port syncFound codeOk burst arrival ⟨phase, align⟩) [.berths, .lanes, .ports, .recd]
    ([R.BERTH_BRD port, R.BERTH_STR port, R.MOD_LEAD, R.PG_EVT (Pg.TREE port), R.PG_EVT Pg.BERTH, R.PG_EVT Pg.MOD,
    R.SYS_TOPO, R.TREE_RXERR port, R.TREE_RXERR2 port, R.TREE_RXOK port] ++ (List.range 8).map R.LANE_CNT ++
    (List.range 8).map R.LANE_STAT)) ∧
  (∀ (light : List (List LightRun)), Changes (.roundBoundary light) [.berths, .elapsed, .now, .ports, .rank, .recd,
    .rx, .sup, .time, .twin] ([R.PG_EVT Pg.BERTH, R.PG_EVT Pg.RANK, R.PG_EVT Pg.SEC, R.PG_EVT Pg.TIME,
    R.SEC_KEYSTAT, R.TIME_HOLD, R.TIME_STAT] ++ (List.range 4).map R.BERTH_LIGHT ++ (List.range 4).map
    R.TREE_CELL_SLOT ++ (List.range 4).map R.TREE_ROUND_HI ++ (List.range 4).map R.TREE_ROUND_LO)) ∧
  (∀ (ns : Nat), Changes (.stageB ns) [.berths, .freeCtr, .mod, .mon, .rank, .recd, .safe] ([R.PG_EVT Pg.RANK,
    R.PG_EVT Pg.SAFE] ++ (List.range 2).map R.RANK_ARM_OUT ++ (List.range 2).map R.RANK_ARM_STAT ++ (List.range
    2).map R.RANK_ARM_VAVG)) ∧
  (∀ (ns : Nat), Changes (.stageE ns) [.bb, .box, .err, .freeCtr, .gate, .mem, .memErr, .mod, .mon, .rank, .recd,
    .sch, .sup, .twin] (errRegs ++ [R.ERR_INJ, R.ERR_POIS, R.PG_EVT Pg.MOD, R.PG_EVT Pg.SCHG, R.PG_EVT Pg.SCHQ,
    R.REC_CNT, R.REC_RCNT, R.REC_STAT] ++ (List.range 16).map R.REC_TSTAT ++ (List.range 2).map R.MOD_ARM_CNT ++
    (List.range 2).map R.MOD_ARM_NSTAR ++ (List.range 2).map R.MOD_ARM_STAT ++ (List.range 2).map R.MOD_ARM_TRIM ++
    (List.range 2).map R.RANK_ARM_SWP ++ (List.range 32).map R.SCHQ_CNT ++ (List.range 8).map R.REC_MSTAT)) ∧
  (∀ (ns : Nat), Changes (.stageF ns) [.bb, .box, .comp, .eng, .err, .freeCtr, .gate, .mem, .memErr, .mod, .mon,
    .ports, .recd, .sup, .twin] (errRegs ++ [R.ERR_INJ, R.ERR_POIS, R.MOD_DL_T, R.PG_EVT Pg.SUP, R.SUP_RSTAT,
    R.TWIN_MX, R.TWIN_WATCH] ++ (List.range 16).map R.SUP_RDN ++ (List.range 16).map R.SUP_RINIT ++ (List.range
    16).map R.SUP_RUP ++ (List.range 2).map R.MOD_ARM_TRIM ++ (List.range 4).map R.TREE_STAT)) ∧
  (∀ (peak : Bool), Changes (.carrierSample peak) [.cmod, .elapsed, .freeCtr, .gate, .now, .recd, .safe, .sup,
    .time] (ltRegs ++ [R.GATE_CNT, R.GATE_CNT2, R.MOD_CELL_CNT, R.MOD_CELL_STAT, R.PG_EVT Pg.GATE, R.PG_EVT Pg.MOD,
    R.PG_EVT Pg.TIME, R.TIME_HOLD, R.TIME_STAT])) ∧
  (∀ (sl : Nat), Changes (.loadDone sl) [.bb, .box, .eng, .err, .freeCtr, .gate, .mem, .memErr, .recd, .sup]
    (errRegs ++ [R.CTL_STAT, R.ERR_INJ, R.ERR_POIS, R.PG_EVT Pg.CTL] ++ (List.range 2).map R.CTL_PGM_STAT)) ∧
  (∀ (m ch : Nat) (x : Int) (sampled : Nat), Changes (.adcResult m ch x sampled) [.adc, .cmod, .freeCtr, .gate,
    .mon, .recd, .rx, .safe] [R.ACC_PLSTAT, R.ACC_WIN, R.ACC_WL, R.ACC_WS, R.ADC_OVL, R.GATE_CNT2, R.PG_EVT Pg.ACC,
    R.PG_EVT Pg.ADC, R.PG_EVT Pg.PWR, R.PG_EVT Pg.SAFE, R.PWR_WSTAT]) ∧
  (∀ (frame : List Byte), Changes (.takeRx frame) [.bb, .box, .err, .freeCtr, .gate, .mem, .memErr, .mod, .mon,
    .rank, .recd, .safe, .sup, .time, .twin] (errRegs ++ [R.ERR_INJ, R.ERR_POIS, R.PG_EVT Pg.REF, R.PG_EVT Pg.TWIN,
    R.REF_HCNT, R.REF_HSTAT, R.TIME_CTL, R.TWIN_SHADOW_HI, R.TWIN_SHADOW_LO, R.TWIN_STAT, R.TWIN_TKCNT,
    R.TWIN_TKLAST, R.TWIN_WATCH] ++ (List.range 2).map R.MOD_ARM_TRIM)) ∧
  (Changes .selfTakeover [.bb, .box, .err, .freeCtr, .gate, .mem, .memErr, .mod, .rank, .recd, .safe, .sup, .twin]
    (errRegs ++ [R.ERR_INJ, R.ERR_POIS, R.PG_EVT Pg.TWIN, R.TIME_CTL, R.TWIN_SHADOW_HI, R.TWIN_SHADOW_LO,
    R.TWIN_STAT, R.TWIN_TKCNT, R.TWIN_TKLAST, R.TWIN_WATCH] ++ (List.range 2).map R.MOD_ARM_TRIM)) ∧
  (Changes .preferredReclaim [.bb, .box, .elapsed, .err, .freeCtr, .gate, .mem, .memErr, .mod, .rank, .recd, .safe,
    .sup, .time, .twin] (errRegs ++ [R.ERR_INJ, R.ERR_POIS, R.PG_EVT Pg.TWIN, R.TIME_CTL, R.TWIN_SHADOW_HI,
    R.TWIN_SHADOW_LO, R.TWIN_STAT, R.TWIN_TKCNT, R.TWIN_TKLAST, R.TWIN_WATCH] ++ (List.range 2).map R.MOD_ARM_TRIM)) ∧
  (Changes .schedulerStep [.freeCtr, .mon, .ports, .recd, .sch] ([R.PG_EVT Pg.SCHG, R.PG_EVT Pg.SCHQ, R.SCHG_CNT,
    R.SCHG_LAT] ++ (List.range 32).map R.SCHQ_CNT ++ (List.range 32).map R.SCHQ_STAT ++ (List.range 4).map
    R.SCHG_DL)) ∧
  (∀ (upset : List Nat), Changes (.scrubVisit upset) [.arb, .bb, .box, .elapsed, .err, .freeCtr, .gate, .mem,
    .memErr, .recd, .sup, .time] (errRegs ++ [R.ERR_POIS, R.ERR_SCRUB])) ∧
  (∀ (waiting : List ArbReq), Changes (.arbiterGrant waiting) [.arb, .bb, .box, .eng, .err, .freeCtr, .gate, .mem,
    .memErr, .mon, .recd, .resp, .sup] (errRegs ++ [R.CPU_FAULT, R.CPU_FAULT_ADDR, R.CTL_CNT, R.CTL_STAT, R.ERR_INJ,
    R.ERR_POIS, R.MEM_LB, R.MEM_LBCNT, R.MEM_SLOCK, R.MEM_STAT, R.PG_EVT Pg.CTL, R.PG_EVT Pg.MEM] ++ (List.range
    13).map R.MEM_RCNT ++ (List.range 13).map R.MEM_RLAT ++ (List.range 13).map R.MEM_RSTAT ++ (List.range 2).map
    R.CTL_PGM_STAT ++ (List.range 8).map R.MEM_LBA)) ∧
  (Changes .chunkStored [.bb, .box, .err, .freeCtr, .gate, .mem, .memErr, .recd, .sch, .stn, .sup] (errRegs ++
    [R.ERR_INJ, R.ERR_POIS, R.PG_EVT Pg.SCHG, R.PG_EVT Pg.SCHQ, R.REC_RCNT, R.REC_STAT, R.SCHG_CNT] ++ (List.range
    32).map R.SCHQ_CNT)) ∧
  (∀ (frame : EthRx), Changes (.setpointRx frame) [.elapsed, .freeCtr, .now, .recd, .stn, .sup, .time] (rxRegs ++
    [R.PG_EVT Pg.STN, R.PG_EVT Pg.TIME, R.STN_FCNT, R.STN_FCNT2, R.STN_STAT, R.TIME_HOLD, R.TIME_STAT] ++
    (List.range 2).map R.STN_PTX)) ∧
  (Changes .timedTx [.bb, .box, .elapsed, .err, .freeCtr, .gate, .mem, .memErr, .now, .recd, .stn, .sup, .time]
    (errRegs ++ [R.ERR_POIS, R.PG_EVT Pg.STN, R.PG_EVT Pg.TIME, R.STN_STAT, R.STN_TXCNT, R.STN_TXPOST, R.TIME_HOLD,
    R.TIME_STAT] ++ (List.range 2).map R.STN_PTX)) ∧
  (∀ (frame : EthRx), Changes (.rxToRing frame) [.bb, .box, .elapsed, .eng, .err, .freeCtr, .gate, .mem, .memErr,
    .now, .recd, .stn, .sup, .time] (errRegs ++ rxRegs ++ [R.CTL_CNT, R.CTL_STAT, R.ERR_INJ, R.ERR_POIS, R.PG_EVT
    Pg.CTL, R.PG_EVT Pg.STN, R.PG_EVT Pg.TIME, R.STN_RXPTR, R.STN_TXCNT, R.TIME_HOLD, R.TIME_STAT] ++ (List.range
    2).map R.CTL_PGM_STAT)) ∧
  (Changes .streamTx [.bb, .box, .err, .freeCtr, .gate, .mem, .memErr, .recd, .stn, .sup] (errRegs ++ [R.ERR_POIS,
    R.STN_STAT, R.STN_STRM] ++ (List.range 2).map R.STN_PTX))

/-- A command given by a write of its register changes at most that register, the answer and access registers of its
page, and the parts and registers listed with it; it answers a next state on every path and in every state. -/
def Obligations.FramesOfPlainRows : Prop :=
  (∀ (path : Path), Changes (.hostEnable path) [.host, .recd, .resp, .sup] (accessRegs Pg.HOST R.HOST_CTRL)) ∧
  (∀ (path : Path) (ms : Nat), Changes (.releaseRequest path ms) [.host, .recd, .resp, .sup] (accessRegs Pg.HOST
    R.HOST_REL)) ∧
  (∀ (path : Path) (port : Nat) (data : Word), port < 4 → Changes (.treeRaGo path port data) [.ports, .recd, .resp,
    .sup] (accessRegs (Pg.TREE port) (R.TREE_RA_CMD port) ++ [R.TREE_MQ port, R.TREE_RA_STAT port])) ∧
  (∀ (path : Path) (n : Nat) (data : Word), n < 8 → Changes (.gpioFnWrite path n data) [.recd, .resp, .sup, .uart]
    (accessRegs Pg.GPIO (R.GPIO_FN n) ++ (List.range 8).map R.GPIO_FN)) ∧
  (∀ (path : Path) (data : Word), Changes (.uartTxWrite path data) [.recd, .resp, .sup, .uart] (accessRegs Pg.GPIO
    R.GPIO_UTX)) ∧
  (∀ (path : Path), Changes (.urxRead path) [.recd, .resp, .sup, .uart] (accessRegs Pg.GPIO R.GPIO_URX)) ∧
  (∀ (path : Path), Changes (.presenceClose path) [.recd, .resp, .sec, .sup] (accessRegs Pg.SEC R.SEC_PRES)) ∧
  (∀ (path : Path), Changes (.otpProgram path) [.recd, .resp, .sec, .sup] (accessRegs Pg.OTP R.OTP_CMD ++
    [R.OTP_STAT])) ∧
  (∀ (path : Path), Changes (.debugRelock path) [.recd, .resp, .sup] (accessRegs Pg.HOST R.DBG_CTL ++ [R.DBG_STAT])) ∧
  (∀ (path : Path) (lane req : Nat), lane < 8 → Changes (.lanePwrRequest path lane req) [.lanes, .recd, .resp, .sup]
    (accessRegs (Pg.LANE lane) (R.LANE_PWR lane))) ∧
  (∀ (path : Path) (lane : Nat), lane < 8 → Changes (.eyeScanGo path lane) [.lanes, .recd, .resp, .sup] (accessRegs
    (Pg.LANE lane) (R.LANE_ES_CTL lane) ++ [R.LANE_ES_ERR lane, R.LANE_ES_STAT lane])) ∧
  (∀ (path : Path) (lane : Nat), lane < 8 → Changes (.prbsInject path lane) [.lanes, .recd, .resp, .sup] (accessRegs
    (Pg.LANE lane) (R.LANE_PRBS_CTL lane) ++ [R.LANE_PRBS_STAT lane])) ∧
  (∀ (path : Path) (lane : Nat), lane < 8 → Changes (.prbsClear path lane) [.recd, .resp, .sup] (accessRegs (Pg.LANE
    lane) (R.LANE_PRBS_CTL lane) ++ [R.LANE_PRBS_ERR lane, R.LANE_PRBS_STAT lane])) ∧
  (∀ (path : Path) (frac : Word), Changes (.timeIncWrite path frac) [.recd, .resp, .sup, .time] (accessRegs Pg.TIME
    R.TIME_INC_FRAC)) ∧
  (∀ (path : Path), Changes (.timeCmdStep path) [.now, .recd, .resp, .sup, .time] (accessRegs Pg.TIME R.TIME_CMD)) ∧
  (∀ (path : Path), Changes (.timeCmdSet path) [.now, .recd, .resp, .sup, .time] (accessRegs Pg.TIME R.TIME_CMD)) ∧
  (∀ (path : Path), Changes (.timeNowRead path) [.recd, .resp, .sup] (accessRegs Pg.TIME R.TIME_NOW_NS ++
    [R.TIME_NOW_FR, R.TIME_NOW_SH, R.TIME_NOW_SL])) ∧
  (∀ (path : Path) (port : Nat), port < 2 → Changes (.tsqPop path port) [.recd, .resp, .sup, .time] (accessRegs
    Pg.TIME (R.TIME_TSQ_ID port) ++ [R.TIME_TSQ_NS port, R.TIME_TSQ_SL port])) ∧
  (∀ (path : Path) (port : Nat), Changes (.enrolmentWindowOpen path port) [.freeCtr, .ports, .recd, .resp, .sup]
    (accessRegs Pg.BERTH R.BERTH_BOARD)) ∧
  (∀ (path : Path) (port : Nat), Changes (.enrolmentWindowClose path port) [.freeCtr, .ports, .recd, .resp, .sup]
    (accessRegs Pg.BERTH R.BERTH_BOARD)) ∧
  (∀ (path : Path), Changes (.berthCmdRd path) [.recd, .resp, .sup] (accessRegs Pg.BERTH R.BERTH_CMD ++ (List.range
    16).map R.BERTH_E)) ∧
  (∀ (path : Path), Changes (.berthCmdClrcnt path) [.berths, .recd, .resp, .sup] (accessRegs Pg.BERTH R.BERTH_CMD)) ∧
  (∀ (path : Path) (data : Word), Changes (.protectiveCommand path data) [.mod, .recd, .resp, .sup] (accessRegs
    Pg.MOD R.MOD_PCMD)) ∧
  (∀ (path : Path) (data : Word), Changes (.modeChangeGo path data) [.mod, .recd, .resp, .sup] (accessRegs Pg.MOD
    R.MOD_MSW_HI ++ [R.MOD_CEPOCH, R.MOD_MODE])) ∧
  (∀ (path : Path), Changes (.rankCmdRd path) [.recd, .resp, .sup] (accessRegs Pg.RANK R.RANK_CMD ++ (List.range
    16).map R.RANK_E)) ∧
  (∀ (path : Path), Changes (.rankCmdWr path) [.rank, .recd, .resp, .sup] (accessRegs Pg.RANK R.RANK_CMD)) ∧
  (∀ (path : Path), Changes (.rankCmdSetc path) [.rank, .recd, .resp, .sup] (accessRegs Pg.RANK R.RANK_CMD)) ∧
  (∀ (path : Path), Changes (.rankCmdSetv path) [.rank, .recd, .resp, .sup] (accessRegs Pg.RANK R.RANK_CMD)) ∧
  (∀ (path : Path) (sl : Nat), Changes (.programLoad path sl) [.eng, .recd, .resp, .sup] (accessRegs Pg.CTL
    R.CTL_PGM_CMD ++ (List.range 2).map R.CTL_PGM_STAT)) ∧
  (∀ (path : Path) (data : Word), Changes (.sigdataWrite path data) [.eng, .recd, .resp, .sup] (accessRegs Pg.CTL
    R.CTL_SIGDATA ++ [R.CTL_SIGQ])) ∧
  (∀ (path : Path) (data : Word), Changes (.chainQueueWrite path data) [.eng, .recd, .resp, .sup] (accessRegs
    Pg.CHAIN R.CHAIN_DHI ++ [R.CHAIN_QSTAT])) ∧
  (∀ (path : Path), Changes (.chainCmdRd path) [.recd, .resp, .sup] (accessRegs Pg.CHAIN R.CHAIN_CMD ++
    [R.CHAIN_RHI, R.CHAIN_RLO])) ∧
  (∀ (path : Path) (u : Nat), Changes (.rcuClear path u) [.box, .comp, .mem, .memErr, .recd, .resp, .sup]
    (accessRegs Pg.RCU R.RCU_CMD ++ [R.RCU_STAT])) ∧
  (∀ (path : Path) (inj : Nat), inj < 2 → Changes (.injectorGo path inj) [.comp, .recd, .resp, .sup] (accessRegs
    Pg.SUP (R.SUP_ICTL inj) ++ (List.range 2).map R.SUP_ISTAT)) ∧
  (∀ (path : Path) (inj : Nat), inj < 2 → Changes (.injectorStop path inj) [.comp, .recd, .resp, .sup] (accessRegs
    Pg.SUP (R.SUP_ICTL inj) ++ (List.range 2).map R.SUP_ISTAT)) ∧
  (∀ (path : Path), Changes (.gateFclr path) [.gate, .recd, .resp, .sup] (accessRegs Pg.GATE R.GATE_FCLR ++
    [R.GATE_CNT])) ∧
  (∀ (path : Path) (n : Nat) (data : Word), n < 6 → Changes (.tevArm path n data) [.gate, .recd, .resp, .sup]
    (accessRegs Pg.GATE (R.TEV_CTL n))) ∧
  (∀ (path : Path) (n : Nat), n < 6 → Changes (.tevDisarm path n) [.gate, .recd, .resp, .sup] (accessRegs Pg.GATE
    (R.TEV_CTL n))) ∧
  (∀ (path : Path), Changes (.schgTake path) [.recd, .resp, .sch, .sup] (accessRegs Pg.SCHG R.SCHG_TAKE ++
    (List.range 4).map R.SCHG_TW)) ∧
  (∀ (path : Path) (q : Nat), q < 32 → Changes (.schqFlush path q) [.recd, .resp, .sch, .sup] (accessRegs Pg.SCHQ
    (R.SCHQ_CMD q))) ∧
  (∀ (path : Path), Changes (.memLockOpen path) [.arb, .recd, .resp, .sup] (accessRegs Pg.MEM R.MEM_SLOCK ++
    [R.MEM_STAT] ++ (List.range 13).map R.MEM_RSTAT)) ∧
  (∀ (path : Path), Changes (.memLockClose path) [.arb, .recd, .resp, .sup] (accessRegs Pg.MEM R.MEM_SLOCK ++
    [R.MEM_STAT] ++ (List.range 13).map R.MEM_RSTAT)) ∧
  (∀ (path : Path), Changes (.recForce path) [.recd, .resp, .sup] (accessRegs Pg.REC R.REC_CMD ++ [R.REC_CNT,
    R.REC_STAT])) ∧
  (∀ (path : Path), Changes (.bbRearm path) [.bb, .recd, .resp, .sup] (accessRegs Pg.REC R.REC_BBCMD ++
    [R.REC_BBSTAT])) ∧
  (∀ (path : Path) (page : Nat) (data : Word), Changes (.monSnap path page data) [.mon, .recd, .resp, .sup]
    (accessRegs (Pg.MON (page % 2)) (R.MON_SNAP (page % 2)) ++ [R.MON_SCNT (page % 2), R.MON_SINFO (page % 2),
    R.MON_SMAX (page % 2), R.MON_SMIN (page % 2), R.MON_SSUM_HI (page % 2), R.MON_SSUM_LO (page % 2)] ++ (List.range
    32).map (R.MON_SBIN (page % 2)))) ∧
  (∀ (path : Path) (data : Word), Changes (.ltAdd path data) [.recd, .resp, .sup] (accessRegs (Pg.MON 0) (R.LT_CMD
    0) ++ ltRegs)) ∧
  (∀ (path : Path), Changes (.ltLock path) [.recd, .resp, .sup] (accessRegs (Pg.MON 0) (R.LT_CTL 0))) ∧
  (∀ (path : Path) (dom : Nat) (data : Word), dom < 4 → Changes (.clkDomWrite path dom data) [.clk, .freeCtr, .recd,
    .resp, .sup, .time] (accessRegs Pg.CLK (R.CLK_DOM dom) ++ [R.PG_EVT Pg.TIME, R.TIME_STAT] ++ (List.range 4).map
    R.CLK_DOM)) ∧
  (∀ (path : Path), Changes (.attestationGo path) [.freeCtr, .recd, .resp, .sch, .sec, .sup] (accessRegs Pg.SEC
    R.SEC_ATT_CTL ++ [R.PG_EVT Pg.SCHG, R.PG_EVT Pg.SCHQ] ++ (List.range 32).map R.SCHQ_CNT)) ∧
  (∀ (path : Path), Changes (.recordExport path) [.freeCtr, .recd, .resp, .sch, .sec, .sup] (accessRegs Pg.SEC
    R.SEC_REC_CMD ++ [R.PG_EVT Pg.SCHG, R.PG_EVT Pg.SCHQ, R.SEC_REC_STAT] ++ (List.range 32).map R.SCHQ_CNT)) ∧
  (∀ (path : Path), Changes (.recordRestore path) [.freeCtr, .recd, .resp, .sch, .sec, .sup] (accessRegs Pg.SEC
    R.SEC_REC_CMD ++ [R.PG_EVT Pg.SCHG, R.PG_EVT Pg.SCHQ, R.SEC_REC_STAT] ++ (List.range 32).map R.SCHQ_CNT)) ∧
  (∀ (path : Path), Changes (.berthCmdWr path) [.berths, .freeCtr, .ports, .rank, .recd, .resp, .safe, .sch, .stn,
    .sup] (accessRegs Pg.BERTH R.BERTH_CMD ++ [R.PG_EVT Pg.SCHG, R.PG_EVT Pg.SCHQ, R.SAFE_HDBLK, R.SCHG_CNT] ++
    (List.range 32).map R.SCHQ_CNT ++ ((List.range 4).flatMap fun i => (List.range 16).map (R.TREE_RA_DATA i)) ++
    (List.range 4).map R.TREE_MQ ++ (List.range 4).map R.TREE_RA_STAT)) ∧
  (∀ (path : Path) (data : Word), Changes (.handoverGo path data) [.eng, .recd, .resp, .sup] (accessRegs Pg.CTL
    R.CTL_HO_CTL ++ [R.CTL_HOCNT, R.CTL_HO_STAT, R.CTL_STAT])) ∧
  (∀ (path : Path) (data : Word), Changes (.handoverAbort path data) [.eng, .recd, .resp, .sup] (accessRegs Pg.CTL
    R.CTL_HO_CTL ++ [R.CTL_HOCNT, R.CTL_HO_STAT, R.CTL_STAT])) ∧
  (∀ (path : Path), Changes (.freqResponseGo path) [.comp, .freeCtr, .recd, .resp, .sup] (accessRegs Pg.SUP
    R.SUP_FRCTL ++ [R.SUP_FRSTAT] ++ (List.range 2).map R.SUP_ISTAT)) ∧
  (∀ (path : Path), Changes (.hubDeblock path) [.recd, .resp, .safe, .sup] (accessRegs Pg.SAFE R.SAFE_HCMD ++
    [R.SAFE_HCNT, R.SAFE_HDBLK])) ∧
  (∀ (path : Path), Changes (.hubAclr path) [.recd, .resp, .safe, .sup] (accessRegs Pg.SAFE R.SAFE_HCMD ++
    [R.SAFE_HCNT, R.SAFE_HDBLK])) ∧
  (∀ (path : Path), Changes (.hubBset path) [.recd, .resp, .safe, .sup] (accessRegs Pg.SAFE R.SAFE_HCMD ++
    [R.SAFE_HCNT, R.SAFE_HDBLK])) ∧
  (∀ (path : Path), Changes (.hubBclr path) [.recd, .resp, .safe, .sup] (accessRegs Pg.SAFE R.SAFE_HCMD ++
    [R.SAFE_HCNT, R.SAFE_HDBLK])) ∧
  (∀ (path : Path) (berth : Nat), Changes (.singleBerthDeblock path berth) [.ports, .recd, .resp, .safe, .sup]
    (accessRegs Pg.SAFE R.SAFE_HDBB)) ∧
  (∀ (path : Path), Changes (.cellDeblock path) [.bb, .box, .gate, .recd, .resp, .safe, .sup] (accessRegs Pg.SAFE
    R.SAFE_CCMD ++ ltRegs ++ [R.GATE_CNT2, R.PG_EVT Pg.GATE, R.PG_EVT Pg.REC, R.REC_BBSTAT, R.SAFE_CCNT,
    R.SAFE_CSTAT])) ∧
  (∀ (path : Path), Changes (.cellBlock path) [.bb, .box, .gate, .recd, .resp, .safe, .sup] (accessRegs Pg.SAFE
    R.SAFE_CCMD ++ ltRegs ++ [R.GATE_CNT2, R.PG_EVT Pg.GATE, R.PG_EVT Pg.REC, R.REC_BBSTAT, R.SAFE_CCNT,
    R.SAFE_CSTAT])) ∧
  (∀ (path : Path), Changes (.cellPermBypass path) [.bb, .box, .gate, .recd, .resp, .safe, .sup] (accessRegs Pg.SAFE
    R.SAFE_CCMD ++ ltRegs ++ [R.GATE_CNT2, R.PG_EVT Pg.GATE, R.PG_EVT Pg.REC, R.REC_BBSTAT, R.SAFE_CCNT,
    R.SAFE_CSTAT])) ∧
  (∀ (path : Path) (data : Word), Changes (.schedSubmit path data) [.freeCtr, .recd, .resp, .sch, .sup] (accessRegs
    Pg.SCHG R.SCHG_SUBCMD ++ [R.PG_EVT Pg.SCHQ] ++ (List.range 4).map R.SCHG_DL)) ∧
  (∀ (path : Path) (handle : Nat), Changes (.schgDone path handle) [.recd, .resp, .sch, .sup] (accessRegs Pg.SCHG
    R.SCHG_DONE ++ [R.SCHG_CNT])) ∧
  (∀ (path : Path) (handle : Nat), Changes (.schgCancel path handle) [.recd, .resp, .sch, .sup] (accessRegs Pg.SCHG
    R.SCHG_CANCEL)) ∧
  (∀ (path : Path), Changes (.errPop path) [.err, .recd, .resp, .sup] (accessRegs Pg.ERR R.ERR_CMD ++ nmiRegs)) ∧
  (∀ (path : Path) (cls : Nat), Changes (.errAck path cls) [.err, .recd, .resp, .sup] (accessRegs Pg.ERR R.ERR_CMD
    ++ nmiRegs)) ∧
  (∀ (path : Path) (data : Word), Changes (.errSwlog path data) [.bb, .box, .err, .gate, .recd, .resp, .sup]
    (accessRegs Pg.ERR R.ERR_SWLOG ++ errRegs)) ∧
  (∀ (path : Path) (seg : Nat), Changes (.recRel path seg) [.bb, .box, .err, .freeCtr, .gate, .mem, .memErr, .recd,
    .resp, .sup] (accessRegs Pg.REC R.REC_CMD ++ errRegs ++ [R.ERR_INJ, R.ERR_POIS, R.REC_CNT, R.REC_STAT])) ∧
  (∀ (path : Path), Changes (.recRelall path) [.bb, .box, .err, .freeCtr, .gate, .mem, .memErr, .recd, .resp, .sup]
    (accessRegs Pg.REC R.REC_CMD ++ errRegs ++ [R.ERR_INJ, R.ERR_POIS, R.REC_CNT, R.REC_STAT])) ∧
  (∀ (path : Path), Changes (.stnRekey path) [.freeCtr, .recd, .resp, .stn, .sup] (accessRegs Pg.STN R.STN_CMD ++
    rxRegs ++ [R.STN_FCNT, R.STN_FCNT2, R.STN_STAT, R.STN_STRM, R.STN_SVCNT, R.STN_TXCNT] ++ (List.range 2).map
    R.STN_PTX)) ∧
  (∀ (path : Path), Changes (.stnClrcnt path) [.freeCtr, .recd, .resp, .stn, .sup] (accessRegs Pg.STN R.STN_CMD ++
    rxRegs ++ [R.STN_FCNT, R.STN_FCNT2, R.STN_STAT, R.STN_STRM, R.STN_SVCNT, R.STN_TXCNT] ++ (List.range 2).map
    R.STN_PTX)) ∧
  (∀ (path : Path) (data : Word), Changes (.txPost path data) [.bb, .box, .err, .freeCtr, .gate, .mem, .memErr,
    .recd, .resp, .stn, .sup] (accessRegs Pg.STN R.STN_TXPOST ++ errRegs ++ [R.ERR_POIS, R.STN_STAT, R.STN_TXCNT] ++
    (List.range 2).map R.STN_PTX))

/-- A write of SCHQ_qCMD.FLUSH removes every item of queue q that is queued or on a delay list and no other item;
items in service stay as they are, not even marked to be dropped; FLUSHED (SCHQ bit 9) is raised. An item alone in
its pool slot has its slot freed: the generation rises, so that its handle is stale. -/
def Obligations.FlushCancels : Prop :=
  (∀ (s : State) (p : Path) (q : Nat), s.pathOpen p = true → q < 32 → Yields (.schqFlush p q) s fun t => t.items =
    (s.sch.queues.flatMap (·.2) ++ s.sch.lists.flatten).filter (·.queue != q) ++ s.sch.svc ∧ t.sch.svc = s.sch.svc ∧
    bitOf (t.reg (R.PG_EVT Pg.SCHQ)).toNat 9 = true) ∧
  (∀ (s : State) (p : Path) (q : Nat) (it : Item), s.pathOpen p = true → q < 32 → it.queue = q →
    (s.sch.queues.flatMap (·.2) ++ s.sch.lists.flatten).filter (fun x => x.slot == it.slot) = [it] → Yields
    (.schqFlush p q) s fun t => kvGet 0 t.sch.gens it.slot = (kvGet 0 s.sch.gens it.slot + 1) % 64)

/-- Each reset other than power-on (nRST, the watchdog's second stage, a software reset, a clock failure) keeps the
entries of the error log in their order, ERR_CNT and ERR_OVF, empties the stack and PEND, and leaves no error event
and no NMI cause. A power-on reset, by a supply or by VDDIO, clears all of them. -/
def Obligations.ResetKeepsErrorLog : Prop :=
  (∀ (s : State), s.pins.nRst = true → s.phase ≠ .held → Yields .nrstAssert s fun t => t.err = { log := s.err.log }
    ∧ t.reg R.ERR_CNT = s.reg R.ERR_CNT ∧ t.reg R.ERR_OVF = s.reg R.ERR_OVF ∧ t.reg (R.PG_EVT Pg.ERR) = 0 ∧
    t.sup.nmiCause = []) ∧
  (∀ (s : State), s.wdtRuns = true → s.get F.CPU_WDT_STAT_STAGE2 = 1 → Yields .wdtSecondStage s fun t => t.err =
    { log := s.err.log } ∧ t.reg R.ERR_CNT = s.reg R.ERR_CNT ∧ t.reg R.ERR_OVF = s.reg R.ERR_OVF ∧ t.reg (R.PG_EVT
    Pg.ERR) = 0 ∧ t.sup.nmiCause = []) ∧
  (∀ (s : State), s.supOn = true → Yields (.softwareReset 0xB007) s fun t => t.err = { log := s.err.log } ∧ t.reg
    R.ERR_CNT = s.reg R.ERR_CNT ∧ t.reg R.ERR_OVF = s.reg R.ERR_OVF ∧ t.reg (R.PG_EVT Pg.ERR) = 0 ∧ t.sup.nmiCause =
    []) ∧
  (∀ (s : State), s.alive = true → Yields .clockFailureReset s fun t => t.err = { log := s.err.log } ∧ t.reg
    R.ERR_CNT = s.reg R.ERR_CNT ∧ t.reg R.ERR_OVF = s.reg R.ERR_OVF ∧ t.reg (R.PG_EVT Pg.ERR) = 0 ∧ t.sup.nmiCause =
    []) ∧
  (∀ (s : State), Yields .powerOnReset s fun t => t.err = {} ∧ t.reg R.ERR_CNT = 0 ∧ t.reg R.ERR_OVF = 0) ∧
  (∀ (s : State), Yields .vddioBelow1v2 s fun t => t.err = {} ∧ t.reg R.ERR_CNT = 0 ∧ t.reg R.ERR_OVF = 0)

/-- While HOST_REL.PEND is 1, no write of HOST_REL changes the register, the time asked for or the host port: by a
word, a masked write or the row's own command on any path, or from the host's own port, where only the port's
transaction state moves. -/
def Obligations.HostReleaseIgnored : Prop :=
  (∀ (s : State) (path : Path) (bytes : Nat) (data : Word), s.is F.HOST_REL_PEND = true → Yields (.registerWrite
    path bytes R.HOST_REL data) s fun t => t.reg R.HOST_REL = s.reg R.HOST_REL ∧ t.host = s.host) ∧
  (∀ (s : State) (path : Path) (mask data : Word), s.is F.HOST_REL_PEND = true → Yields (.maskedWrite path
    R.HOST_REL mask data) s fun t => t.reg R.HOST_REL = s.reg R.HOST_REL ∧ t.host = s.host) ∧
  (∀ (s : State) (path : Path) (ms : Nat), s.is F.HOST_REL_PEND = true → Yields (.releaseRequest path ms) s fun t =>
    t.reg R.HOST_REL = s.reg R.HOST_REL ∧ t.host = s.host) ∧
  (∀ (s : State) (data : Word) (crc : Nat) (ready : Bool), s.is F.HOST_REL_PEND = true → Yields (.hostWr R.HOST_REL
    [data] crc ready) s fun t => t.reg R.HOST_REL = s.reg R.HOST_REL ∧ t.host.relWait = s.host.relWait) ∧
  (∀ (s : State) (mask data : Word) (crc : Nat) (ready : Bool), s.is F.HOST_REL_PEND = true → Yields (.hostMwr
    R.HOST_REL mask data crc ready) s fun t => t.reg R.HOST_REL = s.reg R.HOST_REL ∧ t.host.relWait =
    s.host.relWait)

/-- A write that clears a bit of CLK_FAIL.SRCF while its source is still failed leaves the bit set. A write of CLK_SRC
that would disable XOSC or the SPLL while a domain runs from it is answered OK, raises ACCESS_ERR (bit 3), leaves
that source enabled and sets the other fields as written (of another source that itself feeds a domain, directly or
through the SPLL, nothing is said here). -/
def Obligations.ClockSourceWrites : Prop :=
  (∀ (s : State) (path : Path) (bytes : Nat) (data : Word) (m : Nat), m < 5 → s.is (F.CLK_MON_STAT_FAIL m) = true →
    bitOf (s.get F.CLK_FAIL_SRCF) m = true → Yields (.registerWrite path bytes R.CLK_FAIL data) s fun t => bitOf
    (t.get F.CLK_FAIL_SRCF) m = true) ∧
  (∀ (s : State) (path : Path) (mask data : Word) (m : Nat), m < 5 → s.is (F.CLK_MON_STAT_FAIL m) = true → bitOf
    (s.get F.CLK_FAIL_SRCF) m = true → Yields (.maskedWrite path R.CLK_FAIL mask data) s fun t => bitOf (t.get
    F.CLK_FAIL_SRCF) m = true) ∧
  (∀ (s : State) (path : Path) (data : Word), s.Reaches path Pg.CLK → s.is F.CLK_SRC_XOSC_EN = true → s.feeds 2 =
    true → getBits data 0 1 = 0 → Yields (.registerWrite path 4 R.CLK_SRC data) s fun t => t.resp = ⟨Code.ok, []⟩ ∧
    bitOf (t.reg (R.PG_EVT Pg.CLK)).toNat 3 = true ∧ t.is F.CLK_SRC_XOSC_EN = true ∧ (s.feeds 1 = false → t.get
    F.CLK_SRC_SPLL_EN = getBits data 2 1) ∧ (s.feedsSpll 2 = false → t.get F.CLK_SRC_REFC_EN = getBits data 1 1) ∧
    t.get F.CLK_SRC_RCSEL = getBits data 4 1 ∧ t.get F.CLK_SRC_AUTORET = getBits data 8 1) ∧
  (∀ (s : State) (path : Path) (data : Word), s.Reaches path Pg.CLK → s.is F.CLK_SRC_SPLL_EN = true → s.feeds 1 =
    true → getBits data 2 1 = 0 → Yields (.registerWrite path 4 R.CLK_SRC data) s fun t => t.resp = ⟨Code.ok, []⟩ ∧
    bitOf (t.reg (R.PG_EVT Pg.CLK)).toNat 3 = true ∧ t.is F.CLK_SRC_SPLL_EN = true ∧ (s.feeds 2 = false →
    s.feedsSpll 1 = false → t.get F.CLK_SRC_XOSC_EN = getBits data 0 1) ∧ (s.feedsSpll 2 = false → t.get
    F.CLK_SRC_REFC_EN = getBits data 1 1) ∧ t.get F.CLK_SRC_RCSEL = getBits data 4 1 ∧ t.get F.CLK_SRC_AUTORET =
    getBits data 8 1)

/-- From every safe state (a cell blocked as its latches and its block forcing demand, a hub's valve blocked while a
source is latched, BREQ is 1 or the hub does not drive) a step, whatever command is in front or none, answers a next
state that is safe. -/
def Obligations.StepKeepsSafety : Prop :=
  ∀ (s : State), s.CellSafe → s.HubSafe → ∃ t, step s = .next t ∧ t.CellSafe ∧ t.HubSafe

/-- From a settled state every step answers a settled one; settling any state gives a settled one; and settling
changes only the gate and safety blocks, deblock records not yet launched, the record of events, the instant since
which a reclaim is due (R566), TWIN_STAT and the events of the REF, TWIN and SAFE pages. -/
def Obligations.StepSettles : Prop :=
  (∀ (s : State), s.Settled → ∃ t, step s = .next t ∧ t.Settled) ∧
  (∀ (s : State), s.settle.Settled) ∧
  (∀ (s : State), Frame [.gate, .safe, .ports, .recd, .twin] [R.TWIN_STAT, R.PG_EVT Pg.REF, R.PG_EVT Pg.TWIN,
    R.PG_EVT Pg.SAFE] s s.settle ∧ s.settle.twin = { s.twin with reclaimAt := s.settle.twin.reclaimAt })

/-- A step, whatever command is in front, keeps the memory list in its canonical form: addresses strictly rising, no
entry equal to what an unlisted address reads as. The form is the model's own (it makes equal memories equal data).
-/
def Obligations.MemoryStaysCanonical : Prop :=
  ∀ (s : State), Memory.wf s.mem = true → ∃ t, step s = .next t ∧ Memory.wf t.mem = true

/-- Once GATE_STATE.PBYP is set, every step but a power-on reset (by a supply or by VDDIO) leaves it set, whatever
command is in front; a part that a later ROLE reading makes a hub or a referee has no such state. -/
def Obligations.PermanentBypassStays : Prop :=
  ∀ (s : State), s.gate.pbyp = true → s.pending.head? ≠ some .powerOnReset → s.pending.head? ≠ some .vddioBelow1v2 →
    ∃ t, step s = .next t ∧ (t.gate.pbyp = true ∨ t.isHub = true ∨ t.isRef = true)

/-- Completion of the commands of these chapters (supplies, roles, boot, supervisor, clocks, register access, pages,
host port, terminals): each command named answers a next state with its own effect, for every state and operands
that meet the conditions written before it. -/
def Obligations.CompletesSystem : Prop :=
  (∀ (s : State), ∃ t, Sys2Proof.Machine.exec .powerOnReset s = .next t ∧ t.phase = .held ∧ t.role = .none ∧ t.pins
    = { s.pins with rails := false } ∧ t.reg R.SYS_RST_CAUSE = 1 ∧ t.gate.pbyp = false ∧ t.pending = s.pending) ∧
  (∀ (s : State), ∃ t, Sys2Proof.Machine.exec .vddioBelow1v2 s = .next t ∧ t.phase = .held ∧ t.role = .none ∧ t.pins
    = { s.pins with rails := false, vddio := false } ∧ t.reg R.SYS_RST_CAUSE = 1 ∧ t.pending = s.pending) ∧
  (∀ (s : State), s.Settled → Sys2Proof.Machine.exec .vddioAbove1v2 s = .next
    { s with pins := { s.pins with vddio := true } }) ∧
  (∀ (s : State), s.pins.nRst = true → s.phase ≠ .held → ∃ t, Sys2Proof.Machine.exec .nrstAssert s = .next t ∧
    t.phase = .held ∧ t.role = .none ∧ t.pins = { s.pins with nRst := false } ∧ t.get ⟨R.SYS_RST_CAUSE, 1, 1⟩ = 1 ∧
    t.get F.SYS_RST_CAUSE_LAST = 1 ∧ t.get F.SYS_RST_CAUSE_COUNT = satAdd 16 (s.get F.SYS_RST_CAUSE_COUNT) 1 ∧
    t.err.log = s.err.log ∧ t.gate.pbyp = s.gate.pbyp ∧ t.pending = s.pending) ∧
  (∀ (s : State), s.pins.nRst = false → ∃ t, Sys2Proof.Machine.exec .nrstRelease s = .next t ∧ t.pins =
    { s.pins with nRst := true } ∧ t.regs = s.regs ∧ t.mem = s.mem ∧ t.phase = if s.pins.rails && s.pins.vddio &&
    s.phase == .held then .pullUp else s.phase) ∧
  (∀ (s : State) (band : RoleBand), s.Settled → s.phase = .pullUp → Sys2Proof.Machine.exec (.rolePullupRead band) s
    = .next { s with pins := { s.pins with roleUp := band }, phase := .pullDown }) ∧
  (∀ (s : State) (band : RoleBand) (fl : Bool) (hf : Nat), s.phase = .pullDown → strapOf s.pins.roleUp band < 3 → ¬
    (s.grade = .c ∧ strapOf s.pins.roleUp band = 1) → ∃ t, Sys2Proof.Machine.exec (.rolePulldownRead band fl hf) s =
    .next t ∧ (t.role = roleOf (strapOf s.pins.roleUp band) ∧ t.get F.SYS_ROLE_STRAP = strapOf s.pins.roleUp band ∧
    t.get F.SYS_ROLE_ROLE = strapOf s.pins.roleUp band ∧ (t.phase = .rom ∨ t.phase = .recovery) ∧ t.boot.flash =
    fl)) ∧
  (∀ (s : State) (i : Nat), s.phase = .rom → s.boot.ownerChange = false → s.boot.trying = some i → i < 2 →
    s.containerWhy (s.slotImage i) s.flashOwner = 0 → ∃ t, Sys2Proof.Machine.exec .containerCheck s = .next t ∧
    t.get (if i = 0 then F.BOOT_REJ_REJA else F.BOOT_REJ_REJB) = 0 ∧ t.phase = .running ∧ t.get F.BOOT_STAT_SRC =
    (if s.isCell then 3 + i else i) ∧ t.sup.pc = BitVec.ofNat 32 (imgNum (s.slotImage i) 0x20 4)) ∧
  (∀ (s : State), s.phase = .recovery → s.isCell = false → s.boot.flash = true → s.idRecord.isSome = true → ∃ t,
    Sys2Proof.Machine.exec .bootRetry s = .next t ∧ t.phase = .rom ∧ t.boot.trying.isSome = true ∧ t.get
    F.BOOT_REJ_REJA = (if s.headerWhy (s.slotHeader 0) s.flashOwner = 0 then 15 else s.headerWhy (s.slotHeader 0)
    s.flashOwner) ∧ t.get F.BOOT_REJ_REJB = (if s.headerWhy (s.slotHeader 1) s.flashOwner = 0 then 15 else
    s.headerWhy (s.slotHeader 1) s.flashOwner) ∧ t.reg R.SYS_RST_CAUSE = s.reg R.SYS_RST_CAUSE) ∧
  (∀ (s : State) (c : List Byte), s.phase = .rom → s.isCell = true → s.boot.treeBoot = true → s.boot.treeWhy = 0 →
    s.boot.ownerChange = false → s.idFailed = false → s.treeImage 0 = some c → s.containerWhy c (s.treeKey 0) = 0 →
    ∃ t, Sys2Proof.Machine.exec .treeContainerComplete s = .next t ∧ t.phase = .running ∧ t.get F.BOOT_STAT_SRC = 2
    ∧ t.sup.pc = BitVec.ofNat 32 (imgNum c 0x20 4)) ∧
  (∀ (s : State) (i : Nat), (s.phase = .recovery ∨ (s.phase = .rom ∧ s.isCell = true)) → s.boot.flash = true →
    s.idFailed = false → s.boot.ownerChange = false → s.activeSlot = none → s.unusedSlot.isSome = true →
    s.sec.presOpen = true → i < 2 → s.ownerTest i = some 0 → (i = 0 ∨ s.ownerTest 0 ≠ some 0) → ∃ t,
    Sys2Proof.Machine.exec .firstOwnership s = .next t ∧ t.phase = .running ∧ t.get F.BOOT_STAT_SRC = (if s.isCell
    then 3 + i else i) ∧ t.sup.pc = BitVec.ofNat 32 (imgNum (s.slotImage i) 0x20 4)) ∧
  (∀ (s : State), s.Settled → s.inRom = true → s.boot.presHeld = true → s.pins.presence = false → s.sec.sealOpen =
    some true → Sys2Proof.Machine.exec .ownerChangeEntry s = .next
    { s with boot := { s.boot with ownerChange := true } }) ∧
  (∀ (s : State), s.inRom = true → s.boot.ownerChange = true → s.pins.presence = false → s.sec.sealOpen = some true
    → ∃ t, Sys2Proof.Machine.exec .ownerRevoke s = .next t ∧ t.boot.ownerChange = false ∧ t.sec.presOpen = true ∧
    t.sec.sealOpen = some true ∧ s.activeSlot.all t.ownerRevoked = true) ∧
  (∀ (s : State), s.Settled → s.supOn = true → Sys2Proof.Machine.exec .cpuEclaimClaim s = .next
    (match s.claimLine with | some n => { s with sup := { s.sup with claimed := n :: s.sup.claimed }, resp := ⟨Code.ok, [BitVec.ofNat 32 n]⟩ } | none => { s with resp := ⟨Code.ok, [0xFF]⟩ })) ∧
  (∀ (s : State) (data : Word), s.Settled → s.supOn = true → Sys2Proof.Machine.exec (.cpuEclaimComplete data) s =
    .next { s with sup := { s.sup with claimed := s.sup.claimed.filter (· != data.toNat) }, resp := ⟨Code.ok, []⟩ }) ∧
  (∀ (s : State) (l : Nat), s.supOn = true → s.get F.CPU_NMI_LEVEL = l + 1 → l < 2 → s.get F.CPU_NMI_PEND = 0 → ∃ t,
    Sys2Proof.Machine.exec .nmiRet s = .next t ∧ t.sup.pc = s.reg (R.CPU_NMIEPC l) ∧ t.sup.mstatus = s.reg
    (R.CPU_NMIST l) ∧ t.get F.CPU_NMI_LEVEL = l ∧ t.sup.nmiCause = s.sup.nmiCause.tail) ∧
  (∀ (s : State), s.supOn = true → ∃ t, Sys2Proof.Machine.exec (.wdtKick 0xA5C3) s = .next t ∧ t.sup =
    { s.sup with kickHeld := true } ∧ t.get F.CPU_WDT_STAT_BADKICK = s.get F.CPU_WDT_STAT_BADKICK) ∧
  (∀ (s : State), s.wdtRuns = true → s.get F.CPU_WDT_STAT_STAGE2 = 0 → s.handled < 3 → ∃ t, Sys2Proof.Machine.exec
    .wdtFirstStage s = .next t ∧ t.get F.CPU_WDT_STAT_STAGE2 = 1 ∧ t.get (errCnt 2) = satAdd 8 (s.get (errCnt 2)) 1
    ∧ bitOf (t.get F.CPU_NMI_CAUSE) 3 = true) ∧
  (∀ (s : State), s.wdtRuns = true → s.get F.CPU_WDT_STAT_STAGE2 = 1 → ∃ t, Sys2Proof.Machine.exec .wdtSecondStage s
    = .next t ∧ (t.get ⟨R.SYS_RST_CAUSE, 2, 1⟩ = 1 ∧ t.get F.SYS_RST_CAUSE_LAST = 2 ∧ t.get F.SYS_RST_CAUSE_COUNT =
    satAdd 16 (s.get F.SYS_RST_CAUSE_COUNT) 1 ∧ (t.phase = .rom ∨ t.phase = .recovery) ∧ t.role = s.role ∧ t.err.log
    = s.err.log ∧ t.gate.pbyp = s.gate.pbyp)) ∧
  (∀ (s : State), s.supOn = true → ∃ t, Sys2Proof.Machine.exec (.softwareReset 0xB007) s = .next t ∧ (t.get
    ⟨R.SYS_RST_CAUSE, 5, 1⟩ = 1 ∧ t.get F.SYS_RST_CAUSE_LAST = 5 ∧ t.get F.SYS_RST_CAUSE_COUNT = satAdd 16 (s.get
    F.SYS_RST_CAUSE_COUNT) 1 ∧ (t.phase = .rom ∨ t.phase = .recovery) ∧ t.role = s.role ∧ t.err.log = s.err.log ∧
    t.gate.pbyp = s.gate.pbyp)) ∧
  (∀ (s : State), s.alive = true → ∃ t, Sys2Proof.Machine.exec .clockFailureReset s = .next t ∧ (t.get
    ⟨R.SYS_RST_CAUSE, 4, 1⟩ = 1 ∧ t.get F.SYS_RST_CAUSE_LAST = 4 ∧ t.get F.SYS_RST_CAUSE_COUNT = satAdd 16 (s.get
    F.SYS_RST_CAUSE_COUNT) 1 ∧ (t.phase = .rom ∨ t.phase = .recovery) ∧ t.role = s.role ∧ t.err.log = s.err.log ∧
    t.gate.pbyp = s.gate.pbyp)) ∧
  (∀ (s : State) (path : Path) (dom : Nat) (data : Word), s.Reaches path Pg.CLK → dom < 4 → s.get (F.CLK_DOM_RAMP
    dom) = 0 → getBits data 0 2 = s.get (F.CLK_DOM_CURSRC dom) → getBits data 0 2 < 2 → getBits data 8 8 ≠ 0 → s.get
    (F.CLK_DOM_CUR dom) ≤ getBits data 8 8 → ∃ t, Sys2Proof.Machine.exec (.clkDomWrite path dom data) s = .next t ∧
    t.get (F.CLK_DOM_SRC dom) = getBits data 0 2 ∧ t.get (F.CLK_DOM_DIV dom) = getBits data 8 8 ∧ t.get
    (F.CLK_DOM_CUR dom) = getBits data 8 8 ∧ t.get (F.CLK_DOM_RAMP dom) = 0 ∧ t.resp = ⟨Code.ok, []⟩) ∧
  (∀ (s : State) (dom : Nat), s.alive = true → dom < 4 → s.get (F.CLK_DOM_RAMP dom) = 1 → s.get (F.CLK_DOM_DIV dom)
    + 1 < s.get (F.CLK_DOM_CUR dom) → ∃ t, Sys2Proof.Machine.exec (.rampStep dom) s = .next t ∧ t.get (F.CLK_DOM_CUR
    dom) = s.get (F.CLK_DOM_CUR dom) - 1 ∧ t.get (F.CLK_DOM_RAMP dom) = 1) ∧
  (∀ (s : State) (dom : Nat), s.Settled → s.alive = true → dom < 4 → ∃ t, Sys2Proof.Machine.exec (.forcedSwitch dom)
    s = .next t ∧ t.get F.CLK_FAIL_FORCED = s.get F.CLK_FAIL_FORCED ||| 1 <<< dom ∧ bitOf (t.reg (R.PG_EVT
    Pg.CLK)).toNat 9 = true ∧ KeepsRegs [R.CLK_FAIL, R.PG_EVT Pg.CLK] s t ∧ KeepsMem s t ∧ t =
    { s with regs := t.regs, recd := t.recd }) ∧
  (∀ (s : State) (m count : Nat), s.alive = true → m < 5 → s.judged m = true → s.withinTol m count = true → count <
    4096 → ∃ t, Sys2Proof.Machine.exec (.clockMonitorWindow m count) s = .next t ∧ t.get (F.CLK_MON_STAT_COUNT m) =
    count ∧ t.get (F.CLK_MON_STAT_GOOD m) = min 15 (nth s.clk.good m 0 + 1)) ∧
  (∀ (s : State) (m : Nat), s.alive = true → m < 5 → s.judged m = true → s.get (F.CLK_MON_STAT_FAIL m) = 0 → ∃ t,
    Sys2Proof.Machine.exec (.sourceNoEdge m) s = .next t ∧ t.get (F.CLK_MON_STAT_FAIL m) = 1 ∧ bitOf (t.get
    F.CLK_FAIL_SRCF) m = true ∧ bitOf (t.reg (R.PG_EVT Pg.CLK)).toNat 8 = true) ∧
  (∀ (s : State), s.alive = true → ∃ t, Sys2Proof.Machine.exec (.spllUnlock 4) s = .next t ∧ t.get
    F.CLK_SPLL_STAT_LOCK = 0 ∧ t.get F.CLK_SPLL_STAT_UNLOCKS = satAdd F.CLK_SPLL_STAT_UNLOCKS.w (s.get
    F.CLK_SPLL_STAT_UNLOCKS) 1 ∧ t.get (F.CLK_MON_STAT_FAIL 4) = 1) ∧
  (∀ (s : State) (ppb : Int), s.alive = true → s.runs Pg.CLK = true → s.ircReference = true → s.is F.CLK_IRC_AUTO =
    true → 0 < s.get F.CLK_IRC_TRIM → s.get F.CLK_IRC_TRIM < 255 → 250000 < ppb.natAbs → ∃ t, Sys2Proof.Machine.exec
    (.ircMeasurement ppb) s = .next t ∧ t.reg R.CLK_IRC_MEAS = BitVec.ofInt 32 ppb ∧ t.get F.CLK_IRC_TRIM = if 0 <
    ppb then s.get F.CLK_IRC_TRIM - 1 else s.get F.CLK_IRC_TRIM + 1) ∧
  (∀ (s : State) (rings : List Nat), s.alive = true → rings.length = 8 → (∀ r ∈ rings, r < 4096) → ∃ t,
    Sys2Proof.Machine.exec (.speedCount rings) s = .next t ∧ t.get F.SYS_SPEED_IDX = rings.sum / 8 ∧ t.get
    F.SYS_SPEED_SLOW ∈ rings ∧ (∀ r ∈ rings, t.get F.SYS_SPEED_SLOW ≤ r) ∧ nth rings (t.get F.SYS_SPEED_RING) 0 =
    t.get F.SYS_SPEED_SLOW) ∧
  (∀ (s : State) (count : Nat), s.alive = true → s.isCell = false → s.is F.CLK_SRC_XOSC_EN = true → s.withinTol 0
    count = true → s.clk.xoscReady = false → ∃ t, Sys2Proof.Machine.exec (.xoscStartupEnd count) s = .next t ∧
    t.clk.xoscReady = true ∧ t.clk.xoscQuiet = false ∧ bitOf (t.reg (R.PG_EVT Pg.CLK)).toNat 14 = true) ∧
  (∀ (s : State), s.Settled → s.alive = true → s.is F.CLK_SRC_SPLL_EN = true → Sys2Proof.Machine.exec .spllLock s =
    .next (s.set F.CLK_SPLL_STAT_LOCK 1)) ∧
  (∀ (s : State) (page : Nat), s.alive = true → s.clk.gating.contains page = true → s.lockOwner page = false → ∃ t,
    Sys2Proof.Machine.exec (.gateHandshake page) s = .next t ∧ page ∉ t.clk.gating ∧ t.get (F.PG_STAT_RUN page) = 0) ∧
  (∀ (s : State) (page : Nat), s.alive = true → s.clk.gating.contains page = true → s.lockOwner page = true → ∃ t,
    Sys2Proof.Machine.exec (.gateTimeout ⟨page, none⟩) s = .next t ∧ page ∉ t.clk.gating ∧ t.get F.MEM_STAT_LOCKED =
    0 ∧ t.get F.MEM_LB_CAUSE = 1 ∧ t.get F.MEM_LB_OWNER = s.get F.MEM_STAT_OWNER) ∧
  (∀ (s : State) (page : Nat), s.Settled → s.alive = true → page < 48 → s.enabled page = true → infra page = false →
    s.clk.gating.contains page = false → Sys2Proof.Machine.exec (.ungate page) s = .next (s.set (F.PG_STAT_RUN page)
    1)) ∧
  (∀ (s : State) (path : Path) (data : Word), s.Settled → s.Reaches path Pg.CLK → ∃ t, Sys2Proof.Machine.exec
    (.registerWrite path 4 R.CLK_SPDLIM data) s = .next t ∧ t.get F.CLK_SPDLIM_LIMIT = getBits data 0 12 ∧ t.get
    F.CLK_SPDLIM_HYST = getBits data 16 8 ∧ KeepsRegs [R.CLK_SPDLIM] s t ∧ KeepsMem s t ∧ t =
    { s with regs := t.regs, resp := ⟨Code.ok, []⟩ }) ∧
  (∀ (s : State) (path : Path) (mask data : Word), s.Settled → s.Reaches path Pg.CLK → ∃ t, Sys2Proof.Machine.exec
    (.maskedWrite path R.CLK_SPDLIM mask data) s = .next t ∧ t.get F.CLK_SPDLIM_LIMIT = getBits ((s.reg R.CLK_SPDLIM
    &&& ~~~mask) ||| (data &&& mask)) 0 12 ∧ KeepsRegs [R.CLK_SPDLIM] s t ∧ KeepsMem s t ∧ t =
    { s with regs := t.regs, resp := ⟨Code.ok, []⟩ }) ∧
  (∀ (s : State) (path : Path) (page : Nat), s.pathOpen path = true → page < 0x30 → present s.role page = true →
    page ≠ Pg.TIME → ¬ (page = Pg.MOD ∧ s.isCell = true) → s.commitsWait page = false → ∃ t, Sys2Proof.Machine.exec
    (.pgCommitRequest path page) s = .next t ∧ bitOf (t.reg (R.PG_EVT page)).toNat 1 = true ∧ getBits (t.reg
    (R.PG_COMMIT page)) 0 1 = 0 ∧ getBits (t.reg (R.PG_COMMIT page)) 16 16 = (getBits (s.reg (R.PG_COMMIT page)) 16
    16 + 1) % 2 ^ 16) ∧
  (∀ (s : State) (path : Path) (page a : Nat), s.pathOpen path = true → page < 0x30 → present s.role page = true →
    page ∉ [Pg.SYS, Pg.TIME, Pg.TWIN, Pg.REF, Pg.HOST, Pg.SAFE, Pg.CPU] → a / 0x400 = page → keptReg a = false → a ≠
    R.PG_GUARD page → ∃ t, Sys2Proof.Machine.exec (.pageSrst path page) s = .next t ∧ t.reg a = resetWord s.role a) ∧
  (∀ (s : State) (path : Path) (page : Nat) (on : Bool), s.pathOpen path = true → page < 0x30 → present s.role page
    = true → ∃ t, Sys2Proof.Machine.exec (.pageHold path page on) s = .next t ∧ t.is (F.PG_CTRL_HOLD page) = on ∧
    t.resp = ⟨Code.ok, []⟩) ∧
  (∀ (s : State) (page : Nat), s.Settled → s.alive = true → present s.role page = true → s.is (F.PG_CTRL_HOLD page)
    = true → (infra page = true ∨ s.runs page = true) → Sys2Proof.Machine.exec (.pageHeld page) s = .next (s.set
    (F.PG_STAT_HELD page) 1)) ∧
  (∀ (s : State) (path : Path) (page : Nat) (on : Bool), s.pathOpen path = true → page < 0x30 → present s.role page
    = true → ∃ t, Sys2Proof.Machine.exec (.pageEnable path page on) s = .next t ∧ t.is (F.PG_CTRL_EN page) = on ∧
    t.resp = ⟨Code.ok, []⟩) ∧
  (∀ (s : State) (path : Path) (page : Nat) (bits : Word), s.Settled → s.pathOpen path = true → page < 0x30 →
    present s.role page = true → ∃ t, Sys2Proof.Machine.exec (.pgEvtSet path page bits) s = .next t ∧ t.reg
    (R.PG_EVT page) = s.reg (R.PG_EVT page) ||| (bits &&& 0xFFFFFF0F) ∧ KeepsRegs [R.PG_EVT page] s t ∧ KeepsMem s t
    ∧ t.resp = ⟨Code.ok, []⟩) ∧
  (∀ (s : State) (path : Path) (page : Nat), s.Settled → s.pathOpen path = true → page < 0x30 → present s.role page
    = true → ∃ t, Sys2Proof.Machine.exec (.guardLock path page) s = .next t ∧ t.get (F.PG_GUARD_LOCK page) = 1 ∧
    KeepsRegs [R.PG_GUARD page] s t ∧ KeepsMem s t ∧ t.resp = ⟨Code.ok, []⟩) ∧
  (∀ (s : State) (path : Path), s.Reaches path Pg.HOST → s.isCell = false → s.get F.HOST_CTRL_HOST = 0 → ∃ t,
    Sys2Proof.Machine.exec (.hostEnable path) s = .next t ∧ t.get F.HOST_CTRL_HOST = 1 ∧ t.host.bus = .handingOver) ∧
  (∀ (s : State), s.Settled → s.alive = true → s.isCell = false → s.host.bus = .handingOver → Sys2Proof.Machine.exec
    .hostBusReleased s = .next { s with host := { s.host with bus := .host } }) ∧
  (∀ (s : State) (addr count crc : Nat), s.hostOn = true → s.host.pendCode = none → crc16 ([Op.rd] ++ beBytes 2 addr
    ++ beBytes 1 count) = crc % 65536 → ∃ t, Sys2Proof.Machine.exec (.hostRd addr count crc true) s = .next t ∧
    t.resp = ⟨(s.burstRead .host (addr % 65536) (count % 256 + 1)).1, (s.burstRead .host (addr % 65536) (count % 256
    + 1)).2.2.1⟩ ∧ t.host.lastCode = t.resp.code) ∧
  (∀ (s : State) (addr : Nat) (words : List Word) (crc : Nat), s.hostOn = true → s.host.pendCode = none → words ≠ []
    → crc16 ([Op.wr] ++ beBytes 2 addr ++ beBytes 1 (words.length - 1) ++ words.flatMap fun w => beBytes 4 w.toNat)
    = crc % 65536 → ∃ t, Sys2Proof.Machine.exec (.hostWr addr words crc true) s = .next t ∧ t.resp.code =
    (s.burstWrite .host (addr % 65536) words).1) ∧
  (∀ (s : State) (addr : Nat) (mask data : Word) (crc : Nat), s.hostOn = true → s.host.pendCode = none → crc16
    ([Op.mwr] ++ beBytes 2 addr ++ beBytes 4 mask.toNat ++ beBytes 4 data.toNat) = crc % 65536 → ∃ t,
    Sys2Proof.Machine.exec (.hostMwr addr mask data crc true) s = .next t ∧ t.resp.code = (s.masked .host (addr %
    65536) mask data).1) ∧
  (∀ (s : State) (crc : Nat), s.hostOn = true → s.host.crcBad = false → s.host.pendCode = none → crc16 [Op.stat] =
    crc % 65536 → ∃ t, Sys2Proof.Machine.exec (.hostStat crc true) s = .next t ∧ t.resp = ⟨s.host.lastCode, if
    s.host.lastCode = Code.ok then s.host.lastData else []⟩) ∧
  (∀ (s : State) (path : Path) (ms : Nat), s.Reaches path Pg.HOST → s.isCell = false → 0 < ms → ms < 4096 → s.get
    F.HOST_REL_PEND = 0 → ∃ t, Sys2Proof.Machine.exec (.releaseRequest path ms) s = .next t ∧ t.get F.HOST_REL_DUR =
    ms ∧ t.get F.HOST_REL_PEND = 1 ∧ t.host.relWait = ms) ∧
  (∀ (s : State), s.Settled → s.hostOn = true → s.host.relTold ≠ 0 → Sys2Proof.Machine.exec (.busReclaim true) s =
    .next { s with host := { s.host with bus := .reclaimed, relTold := 0 } }) ∧
  (∀ (s : State), s.Settled → s.alive = true → s.host.bus = .reclaimed → ∃ t, Sys2Proof.Machine.exec .busReturn s =
    .next t ∧ t.host = { s.host with bus := .host } ∧ t.get F.HOST_REL_PEND = 0 ∧ KeepsRegs [R.HOST_REL] s t ∧
    KeepsMem s t) ∧
  (∀ (s : State) (path : Path) (p : Nat) (data : Word), s.Reaches path (Pg.TREE p) → s.isHub = true → p < 4 →
    (s.port p).mailbox = false → s.mgmtRoom p = true → getBits data 8 3 = 2 → held (s.berth (256 * p + getBits data
    0 8)) = true → ∃ t, Sys2Proof.Machine.exec (.treeRaGo path p data) s = .next t ∧ t.get (F.TREE_RA_STAT_BUSY p) =
    1 ∧ (t.port p).mailbox = true ∧ (t.port p).mq.length = (s.port p).mq.length + 1 ∧ ((t.port p).mq.getLast?.map
    fun r => (r.berth, r.rtype, r.tid)) = some (getBits data 0 8, 2, (s.port p).nextTid)) ∧
  (∀ (s : State) (p tid : Nat) (r : MgmtRec), s.portRx p = true → ((s.port p).opens.find? fun x => x.tid == tid) =
    some r → r.src = .mailbox → ∃ t, Sys2Proof.Machine.exec (.remoteTimeout p tid) s = .next t ∧ t.get
    (F.TREE_RA_STAT_CODE p) = Code.remote ∧ t.get (F.TREE_RA_STAT_BUSY p) = 0 ∧ t.get (F.TREE_MQ_TIMEOUT p) = satAdd
    (F.TREE_MQ_TIMEOUT p).w (s.get (F.TREE_MQ_TIMEOUT p)) 1 ∧ bitOf (t.reg (R.PG_EVT (Pg.TREE p))).toNat 10 = true) ∧
  (∀ (s : State) (path : Path) (n : Nat) (data : Word), s.Reaches path Pg.GPIO → n < 8 → s.gpioAllowed n (getBits
    data 0 3) = true → ∃ t, Sys2Proof.Machine.exec (.gpioFnWrite path n data) s = .next t ∧ t.get (F.GPIO_FN_FN n) =
    getBits data 0 3 ∧ t.resp = ⟨Code.ok, []⟩) ∧
  (∀ (s : State) (n : Nat) (level : Bool), s.alive = true → n < 8 → s.gpioInput n = true → bitOf s.pins.gpioIn.toNat
    n ≠ level → ∃ t, Sys2Proof.Machine.exec (.gpioEdge n level) s = .next t ∧ bitOf t.pins.gpioIn.toNat n = level ∧
    bitOf (t.reg R.GPIO_EDGE).toNat (if level then n else n + 8) = true ∧ bitOf (t.reg (R.PG_EVT Pg.GPIO)).toNat 8 =
    true) ∧
  (∀ (s : State) (path : Path) (data : Word), s.Reaches path Pg.GPIO → s.isCell = true → s.uart.tx.length < 16 →
    (s.uartOn = false ∨ s.uart.sending ≠ none) → ∃ t, Sys2Proof.Machine.exec (.uartTxWrite path data) s = .next t ∧
    t.uart = { s.uart with tx := s.uart.tx ++ [BitVec.ofNat 8 (getBits data 0 8)] } ∧ t.resp = ⟨Code.ok, []⟩) ∧
  (∀ (s : State) (b : Byte) (l : List Byte), s.Settled → s.uartOn = true → s.uart.tx = b :: l →
    Sys2Proof.Machine.exec .uartByteSent s = .next { s with uart := { s.uart with tx := l, sending := some b } }) ∧
  (∀ (s : State) (byte : Byte) (ok : Bool), s.uartOn = true → s.uart.rx.length < 16 → ∃ t, Sys2Proof.Machine.exec
    (.uartByteRx byte ok) s = .next t ∧ t.uart = { s.uart with rx := s.uart.rx ++ [byte] } ∧ t.get
    F.GPIO_USTAT_FRAME = (if ok then s.get F.GPIO_USTAT_FRAME else satAdd F.GPIO_USTAT_FRAME.w (s.get
    F.GPIO_USTAT_FRAME) 1)) ∧
  (∀ (s : State) (path : Path) (b : Byte) (l : List Byte), s.Reaches path Pg.GPIO → s.isCell = true → s.uart.rx = b
    :: l → s.clk.gating.contains Pg.GPIO = false → ∃ t, Sys2Proof.Machine.exec (.urxRead path) s = .next t ∧ t.uart
    = { s.uart with rx := l } ∧ t.resp = ⟨Code.ok, [BitVec.ofNat 32 (b.toNat + 256)]⟩) ∧
  (∀ (s : State), s.Settled → s.alive = true → s.isCell = true → s.gpioFn 2 = 0 → s.ledToggles = true →
    Sys2Proof.Machine.exec .ledToggle s = .next { s with pins := { s.pins with gpioLed := !s.pins.gpioLed } })

/-- Completion of the commands of these chapters (presence, seal, keys, lanes, time): each command named answers a
next state with its own effect, for every state and operands that meet the conditions written before it. -/
def Obligations.CompletesLanesAndTime : Prop :=
  (∀ (s : State), s.alive = true → s.get F.SEC_PRES_STUCK = 0 → s.sec.pressed = false → ∃ t, Sys2Proof.Machine.exec
    .presencePress s = .next t ∧ t.pins.presence = false ∧ t.sec.presOpen = true ∧ t.sec.pressed = true ∧ bitOf
    (t.reg (R.PG_EVT Pg.SEC)).toNat 8 = true) ∧
  (∀ (s : State), s.Settled → Sys2Proof.Machine.exec .presenceRelease s = .next
    { s with pins := { s.pins with presence := true }, sec := { s.sec with pressed := false }, boot := { s.boot with presHeld := false, ownerChange := false } }) ∧
  (∀ (s : State), s.sec.presOpen = true → ∃ t, Sys2Proof.Machine.exec .presenceWindowExpire s = .next t ∧
    t.sec.presOpen = false ∧ bitOf (t.reg (R.PG_EVT Pg.SEC)).toNat 9 = true) ∧
  (∀ (s : State) (path : Path), s.Reaches path Pg.SEC → s.sec.presOpen = true → ∃ t, Sys2Proof.Machine.exec
    (.presenceClose path) s = .next t ∧ t.sec.presOpen = false ∧ bitOf (t.reg (R.PG_EVT Pg.SEC)).toNat 9 = true) ∧
  (∀ (s : State), s.alive = true → s.pins.presence = false → s.get F.SEC_PRES_STUCK = 0 → ∃ t,
    Sys2Proof.Machine.exec .pressStuck s = .next t ∧ t.sec.presOpen = false ∧ t.get F.SEC_PRES_STUCK = 1 ∧ bitOf
    (t.reg (R.PG_EVT Pg.SEC)).toNat 10 = true ∧ t.get (errCnt 0) = satAdd 8 (s.get (errCnt 0)) 1) ∧
  (∀ (s : State), s.Settled → s.pins.presence = true → s.get F.SEC_PRES_STUCK = 1 → Sys2Proof.Machine.exec
    .stuckClear s = .next (s.set F.SEC_PRES_STUCK 0)) ∧
  (∀ (s : State) (level : Bool), s.Settled → s.phase ≠ .held → Sys2Proof.Machine.exec (.sealSequenceChange level) s
    = .next { s with pins := { s.pins with sealOut := level } }) ∧
  (∀ (s : State) (v : Bool), s.phase ≠ .held → v ≠ s.pins.sealOut → 1 ≤ s.sec.sealMiss → s.sec.sealOpen ≠ some true
    → ∃ t, Sys2Proof.Machine.exec (.sealSample v) s = .next t ∧ t.sec.sealOpen = some true ∧ t.sec.sealHit = 0 ∧
    t.pins.sealIn = v) ∧
  (∀ (s : State) (data : Word) (o : Nat), s.Reaches (.remote true true) Pg.SEC → s.guardFor (.remote true true)
    Pg.SEC = true → getBits data 16 16 = 0x7E55 → s.activeSlot = some o → ∃ t, Sys2Proof.Machine.exec (.secOwnRevoke
    (.remote true true) data) s = .next t ∧ (t.ownerRevoked o = true ∧ (t.phase = .rom ∨ t.phase = .recovery) ∧
    t.get F.SYS_RST_CAUSE_LAST = 5)) ∧
  (∀ (s : State) (path : Path), s.Reaches path Pg.SEC → s.sec.attBusy = false → ∃ t, Sys2Proof.Machine.exec
    (.attestationGo path) s = .next t ∧ t.sec.attBusy = true ∧ t.get F.SEC_ATT_CTL_BUSY = 1) ∧
  (∀ (s : State), s.alive = true → s.sec.attBusy = true → ∃ t, Sys2Proof.Machine.exec .attDone s = .next t ∧
    t.sec.attBusy = false ∧ t.get F.SEC_ATT_CTL_BUSY = 0 ∧ bitOf (t.reg (R.PG_EVT Pg.SEC)).toNat 12 = true ∧ t.reg
    (R.SEC_ATT_BUF 0) = 0x54415850) ∧
  (∀ (s : State) (path : Path), s.Reaches path Pg.SEC → s.sec.recJob = none → ∃ t, Sys2Proof.Machine.exec
    (.recordExport path) s = .next t ∧ t.sec.recJob = some .exportRec ∧ t.get F.SEC_REC_STAT_BUSY = 1) ∧
  (∀ (s : State) (path : Path), s.Reaches path Pg.SEC → s.sec.recJob = none → ∃ t, Sys2Proof.Machine.exec
    (.recordRestore path) s = .next t ∧ t.sec.recJob = some .restoreRec ∧ t.get F.SEC_REC_STAT_BUSY = 1) ∧
  (∀ (s : State), s.alive = true → s.sec.recJob = some .exportRec → inState (s.reg R.SEC_REC_ADDR).toNat = true →
    inState ((s.reg R.SEC_REC_ADDR).toNat + s.recPlain.length - 1) = true → ∃ t, Sys2Proof.Machine.exec .recDone s =
    .next t ∧ t.sec.recJob = none ∧ t.get F.SEC_REC_STAT_BUSY = 0 ∧ t.get F.SEC_REC_STAT_RESULT = 0 ∧ bitOf (t.reg
    (R.PG_EVT Pg.SEC)).toNat 13 = true) ∧
  (∀ (s : State) (path : Path), s.Reaches path Pg.OTP → s.guardFor path Pg.OTP = true → s.sec.otpJob = none →
    ((s.reg R.OTP_ADDR).toNat % 0x2000 / 4 * 4 = 0x420 ∨ 0x800 ≤ (s.reg R.OTP_ADDR).toNat % 0x2000 / 4 * 4) → ∃ t,
    Sys2Proof.Machine.exec (.otpProgram path) s = .next t ∧ t.sec.otpJob = some ((s.reg R.OTP_ADDR).toNat % 0x2000 /
    4 * 4, s.reg R.OTP_DATA) ∧ t.get F.OTP_STAT_BUSY = 1 ∧ t.get F.OTP_STAT_DENIED = 0) ∧
  (∀ (s : State) (a : Nat) (w : Word), s.alive = true → s.sec.otpJob = some (a, w) → ∃ t, Sys2Proof.Machine.exec
    .otpProgramDone s = .next t ∧ t.sec.otpJob = none ∧ t.get F.OTP_STAT_BUSY = 0 ∧ t.get F.OTP_STAT_FAIL = 0 ∧
    t.num (otpBase + a) 4 = s.num (otpBase + a) 4 ||| w.toNat ∧ KeepsMemBut (otpBase + a) 4 s t) ∧
  (∀ (s : State) (path : Path), s.Reaches path Pg.HOST → s.guardFor path Pg.HOST = true → ∃ t,
    Sys2Proof.Machine.exec (.debugUnlock path) s = .next t ∧ t.get F.DBG_STAT_OPEN = 1 ∧ t.get F.DBG_STAT_SINCE = 1
    ∧ t.get F.DBG_STAT_UNLOCKS = satAdd F.DBG_STAT_UNLOCKS.w (s.get F.DBG_STAT_UNLOCKS) 1 ∧ t.get (errCnt 0) =
    satAdd 8 (s.get (errCnt 0)) 1) ∧
  (∀ (s : State) (path : Path), s.Reaches path Pg.HOST → ∃ t, Sys2Proof.Machine.exec (.debugRelock path) s = .next t
    ∧ t.get F.DBG_STAT_OPEN = 0) ∧
  (∀ (s : State) (p : Nat), s.portRx p = true → s.groupDue p = true → ∃ t, Sys2Proof.Machine.exec (.groupKeyRenewal
    p) s = .next t ∧ ((t.port p).renew.map fun x => x.2.2) = some (s.roundNow p)) ∧
  (∀ (s : State) (i : Nat), s.portRx (i / 256) = true → s.sessionDue i = true → s.mgmtRoom (i / 256) = true → ∃ t,
    Sys2Proof.Machine.exec (.sessionKeyRenewal i) s = .next t ∧ (t.berth i).rekey.isSome = true ∧ (t.port (i /
    256)).mq.length = (s.port (i / 256)).mq.length + 1) ∧
  (∀ (s : State) (n : Nat), s.laneRx n = true → s.continuousLane n = true → n < 8 → ∃ t, Sys2Proof.Machine.exec
    (.syncGained n) s = .next t ∧ t.get (F.LANE_STAT_SYNC n) = 1 ∧ t.get (F.LANE_STAT_HUNT n) = 0 ∧ bitOf (t.reg
    (R.PG_EVT (Pg.LANE n))).toNat 10 = true) ∧
  (∀ (s : State) (n e : Nat), s.alive = true → n < 8 → s.continuousLane n = true → s.is (F.LANE_STAT_SYNC n) = true
    → 4 ≤ (s.lane n).errs + e → ∃ t, Sys2Proof.Machine.exec (.syncLost n e) s = .next t ∧ t.get (F.LANE_STAT_SYNC n)
    = 0 ∧ t.get (F.LANE_CNT_CODEERR n) = satAdd (F.LANE_CNT_CODEERR n).w (s.get (F.LANE_CNT_CODEERR n)) e ∧ t.get
    (F.LANE_CNT_SYNCLOSS n) = satAdd (F.LANE_CNT_SYNCLOSS n).w (s.get (F.LANE_CNT_SYNCLOSS n)) 1 ∧ bitOf (t.reg
    (R.PG_EVT (Pg.LANE n))).toNat 9 = true) ∧
  (∀ (s : State) (n : Nat), s.Settled → s.alive = true → s.isCell = true → n < 2 → s.get (F.LANE_STAT_SYNC n) = 0 →
    s.is (F.LANE_STAT_HUNT n) = true → ∃ t, Sys2Proof.Machine.exec (.rateHuntSwitch n) s = .next t ∧ t.get
    (F.LANE_CFG_RATE n) = (if s.get (F.LANE_CFG_RATE n) = 2 then 1 else 2) ∧ KeepsRegs [R.LANE_CFG n, R.CLK_MON_CTL
    (2 + n), R.LANE_ES_ERR n, R.LANE_ES_STAT n] s t ∧ KeepsMem s t) ∧
  (∀ (s : State) (n : Nat), s.laneRx n = true → n < 6 → s.is (F.LANE_CFG_AUTOPOL n) = true → ∃ t,
    Sys2Proof.Machine.exec (.polFlip n) s = .next t ∧ t.get (F.LANE_CFG_RXINV n) = 1 - s.get (F.LANE_CFG_RXINV n) ∧
    t.get (F.LANE_CNT_POLFLIP n) = satAdd (F.LANE_CNT_POLFLIP n).w (s.get (F.LANE_CNT_POLFLIP n)) 1 ∧ bitOf (t.reg
    (R.PG_EVT (Pg.LANE n))).toNat 11 = true) ∧
  (∀ (s : State) (l4 l5 node skew : Nat), s.laneRx 4 = true → s.laneRx 5 = true → s.isHub = true → s.is
    F.SYS_TOPO_TWIN = true → s.is (F.LANE_STAT_SYNC 4) = true → s.is (F.LANE_STAT_SYNC 5) = true → l4 + l5 = 1 →
    skew ≤ 16 → s.get (F.LANE_CFG_RATE 4) = s.get (F.LANE_CFG_RATE 5) → node % 64 = s.get F.SYS_NODE_HUB → node / 64
    % 2 ≠ s.get F.SYS_NODE_SIDE → ∃ t, Sys2Proof.Machine.exec (.bondUp l4 l5 node skew) s = .next t ∧ t.get
    (F.LANE_STAT_BONDED 4) = 1 ∧ t.get (F.LANE_STAT_REVERSED 4) = l4 ∧ t.get F.TWIN_STAT_BOND = 1 ∧ t.get
    F.SYS_TOPO_TWIN_ERR = 0) ∧
  (∀ (s : State) (why skew : Nat), s.Settled → s.alive = true → s.isHub = true → 1 ≤ why → why ≤ 4 → skew < 2 ^
    (F.LANE_BOND_SKEW 4).w → ∃ t, Sys2Proof.Machine.exec (.bondErr why skew) s = .next t ∧ t.get (F.LANE_BOND_WHY 4)
    = why ∧ t.get (F.LANE_BOND_SKEW 4) = skew ∧ bitOf (t.reg (R.PG_EVT (Pg.LANE 4))).toNat 13 = true ∧ KeepsRegs
    [R.LANE_BOND 4, R.PG_EVT (Pg.LANE 4)] s t) ∧
  (∀ (s : State) (n : Nat), s.Settled → s.alive = true → n < 8 → mooredByRole s.role n = false → (s.isCell = true ∨
    s.get (F.LANE_PWR_CUR n) ≠ 2) → ∃ t, Sys2Proof.Machine.exec (.lossOfSignal n) s = .next t ∧ t.get
    (F.LANE_STAT_LOS n) = 1 ∧ bitOf (t.reg (R.PG_EVT (Pg.LANE n))).toNat 8 = true ∧ KeepsRegs [R.LANE_STAT n,
    R.PG_EVT (Pg.LANE n)] s t) ∧
  (∀ (s : State) (n : Nat), s.alive = true → s.isCell = true → n < 2 → ∃ t, Sys2Proof.Machine.exec (.cdrLock n) s =
    .next t ∧ t.get (F.LANE_STAT_CDR_LOCK n) = 1 ∧ t.get (F.LANE_STAT_LOS n) = 0) ∧
  (∀ (s : State) (path : Path) (n req : Nat), s.Reaches path (Pg.LANE n) → n < 8 → mooredByRole s.role n = false →
    req < 3 → s.get (F.LANE_PWR_BUSY n) = 0 → s.enabled (Pg.LANE n) = true → s.get (F.LANE_PWR_CUR n) ≠ req → ∃ t,
    Sys2Proof.Machine.exec (.lanePwrRequest path n req) s = .next t ∧ t.get (F.LANE_PWR_REQ n) = req ∧ t.get
    (F.LANE_PWR_BUSY n) = 1 ∧ (t.lane n).target = some req) ∧
  (∀ (s : State) (n st : Nat), s.alive = true → n < 8 → s.is (F.LANE_PWR_BUSY n) = true → (s.lane n).target = some
    st → (s.lane n).latched = none → st < 3 → ∃ t, Sys2Proof.Machine.exec (.pstateDone n) s = .next t ∧ t.get
    (F.LANE_PWR_CUR n) = st ∧ t.get (F.LANE_PWR_BUSY n) = 0 ∧ (t.lane n).target = none ∧ t.get (F.LANE_PWR_LATCHED
    n) = 0 ∧ bitOf (t.reg (R.PG_EVT (Pg.LANE n))).toNat 16 = true) ∧
  (∀ (s : State) (path : Path) (n : Nat), s.Reaches path (Pg.LANE n) → n < 8 → s.get (F.LANE_ES_STAT_BUSY n) = 0 → ∃
    t, Sys2Proof.Machine.exec (.eyeScanGo path n) s = .next t ∧ t.get (F.LANE_ES_STAT_BUSY n) = 1 ∧ t.get
    (F.LANE_ES_STAT_DONE n) = 0 ∧ t.reg (R.LANE_ES_ERR n) = 0 ∧ t.resp = ⟨Code.ok, []⟩) ∧
  (∀ (s : State) (n e : Nat), s.laneRx n = true → n < 8 → s.is (F.LANE_ES_STAT_BUSY n) = true → s.continuousLane n =
    true → e < 2 ^ 32 → ∃ t, Sys2Proof.Machine.exec (.esDone n e) s = .next t ∧ t.reg (R.LANE_ES_ERR n) =
    BitVec.ofNat 32 e ∧ t.get (F.LANE_ES_STAT_BUSY n) = 0 ∧ t.get (F.LANE_ES_STAT_DONE n) = 1 ∧ bitOf (t.reg
    (R.PG_EVT (Pg.LANE n))).toNat 14 = true) ∧
  (∀ (s : State) (n e b : Nat), s.Settled → s.alive = true → n < 8 → s.is (F.LANE_ES_STAT_BUSY n) = true → e < 2 ^
    32 → ∃ t, Sys2Proof.Machine.exec (.eyeScanAbort n e b) s = .next t ∧ t.reg (R.LANE_ES_ERR n) = BitVec.ofNat 32 e
    ∧ t.get (F.LANE_ES_STAT_BUSY n) = 0 ∧ t.get (F.LANE_ES_STAT_ABORT n) = 1 ∧ KeepsRegs [R.LANE_ES_ERR n,
    R.LANE_ES_STAT n] s t) ∧
  (∀ (s : State) (path : Path) (n : Nat), s.Reaches path (Pg.LANE n) → n < 8 → s.is (F.LANE_PRBS_CTL_GEN n) = true →
    ∃ t, Sys2Proof.Machine.exec (.prbsInject path n) s = .next t ∧ t.get (F.LANE_PRBS_STAT_INJ_CNT n) = (s.get
    (F.LANE_PRBS_STAT_INJ_CNT n) + 1) % 2 ^ (F.LANE_PRBS_STAT_INJ_CNT n).w ∧ (t.lane n).flipNext = true) ∧
  (∀ (s : State) (path : Path) (n : Nat), s.Reaches path (Pg.LANE n) → n < 8 → ∃ t, Sys2Proof.Machine.exec
    (.prbsClear path n) s = .next t ∧ t.reg (R.LANE_PRBS_ERR n) = 0 ∧ t.resp = ⟨Code.ok, []⟩) ∧
  (∀ (s : State) (n : Nat), s.Settled → s.laneRx n = true → n < 8 → s.continuousLane n = true → s.is
    (F.LANE_PRBS_CTL_CHK n) = true → ∃ t, Sys2Proof.Machine.exec (.prbsLock n) s = .next t ∧ t.get
    (F.LANE_PRBS_STAT_LOCK n) = 1 ∧ bitOf (t.reg (R.PG_EVT (Pg.LANE n))).toNat 15 = true ∧ KeepsRegs
    [R.LANE_PRBS_STAT n, R.PG_EVT (Pg.LANE n)] s t) ∧
  (∀ (s : State) (n e : Nat), s.Settled → s.laneRx n = true → n < 8 → s.is (F.LANE_PRBS_CTL_CHK n) = true → s.is
    (F.LANE_PRBS_STAT_LOCK n) = true → 32 < e → ∃ t, Sys2Proof.Machine.exec (.prbsRelock n e) s = .next t ∧ t.get
    (F.LANE_PRBS_STAT_LOCK n) = 0 ∧ t.reg (R.LANE_PRBS_ERR n) = BitVec.ofNat 32 (satAdd 32 (s.reg (R.LANE_PRBS_ERR
    n)).toNat e) ∧ t.get (F.LANE_PRBS_STAT_RELOCKS n) = satAdd (F.LANE_PRBS_STAT_RELOCKS n).w (s.get
    (F.LANE_PRBS_STAT_RELOCKS n)) 1 ∧ KeepsRegs [R.LANE_PRBS_ERR n, R.LANE_PRBS_STAT n] s t) ∧
  (∀ (s : State) (p slot : Nat), s.portHears p = true → p < 4 → slot < 268 → s.now + groupAt (s.rate p) 0 5 ≤ slotAt
    (s.rate p) (s.roundNow p) slot → ∃ t, Sys2Proof.Machine.exec (.brstPulse p slot) s = .next t ∧ (t.lane p).brst =
    (max 1 (min 4 (s.get (F.LANE_BRST_W p))), min (s.get (F.LANE_BRST_LEAD p)) (5 - max 1 (min 4 (s.get
    (F.LANE_BRST_W p))))) ∧ (t.lane p).pulse = (slotAt (s.rate p) (s.roundNow p) slot - groupAt (s.rate p) 0
    ((t.lane p).brst.1 + (t.lane p).brst.2), slotAt (s.rate p) (s.roundNow p) slot - groupAt (s.rate p) 0 (t.lane
    p).brst.2)) ∧
  (∀ (s : State) (p slot : Nat) (sf co : Bool) (bs : List Byte) (ph al : Nat), s.portHears p = true → slot < 264 →
    slot < s.zoneSlot p → s.burstCheck p slot (s.roundNow p) sf co bs = .ok → (s.berth (256 * p + (nth bs 0
    0).toNat)).link ≠ .absent → ∃ t, Sys2Proof.Machine.exec (.upstreamBurstRx p slot sf co bs ph al) s = .next t ∧
    t.reg (R.TREE_RXOK p) = s.reg (R.TREE_RXOK p) + 1 ∧ (t.berth (256 * p + (nth bs 0 0).toNat)).ph = ph % 64 ∧
    (t.berth (256 * p + (nth bs 0 0).toNat)).align = al % 16) ∧
  (∀ (s : State) (path : Path) (frac : Word), s.Reaches path Pg.TIME → s.clk.gating.contains Pg.TIME = false → ∃ t,
    Sys2Proof.Machine.exec (.timeIncWrite path frac) s = .next t ∧ t.reg R.TIME_INC_FRAC = frac ∧ t.time.incWait =
    some (s.get F.TIME_INC_NS * 2 ^ 32 + frac.toNat) ∧ t.time.inc = s.time.inc) ∧
  (∀ (s : State) (path : Path), s.Reaches path Pg.TIME → s.runs Pg.TIME = true → s.meridiansOn = false → ∃ t,
    Sys2Proof.Machine.exec (.timeCmdStep path) s = .next t ∧ t.time.jump = some (.step s.ofsValue) ∧ t.now = s.now) ∧
  (∀ (s : State) (path : Path), s.Reaches path Pg.TIME → s.runs Pg.TIME = true → s.meridiansOn = false → ∃ t,
    Sys2Proof.Machine.exec (.timeCmdSet path) s = .next t ∧ t.time.jump = some (.load s.setValue) ∧ t.now = s.now) ∧
  (∀ (s : State) (d : Int), s.alive = true → s.runs Pg.TIME = true → s.time.src = s.get F.TIME_CTL_SRC → s.time.jump
    = some (.step d) → s.time.corr = 0 → ∃ t, Sys2Proof.Machine.exec .stepDone s = .next t ∧ t.now = ((s.now : Int)
    + d).toNat ∧ t.time.jump = none ∧ bitOf (t.reg (R.PG_EVT Pg.TIME)).toNat 10 = true) ∧
  (∀ (s : State) (path : Path), s.Reaches path Pg.TIME → s.runs Pg.TIME = true → s.clk.gating.contains Pg.TIME =
    false → ∃ t, Sys2Proof.Machine.exec (.timeNowRead path) s = .next t ∧ t.reg R.TIME_NOW_NS = BitVec.ofNat 32
    s.nanos ∧ t.reg R.TIME_NOW_FR = BitVec.ofNat 32 (s.now % 2 ^ 32) ∧ t.reg R.TIME_NOW_SL = BitVec.ofNat 32
    s.seconds ∧ t.reg R.TIME_NOW_SH = BitVec.ofNat 32 (s.seconds / 2 ^ 32) ∧ t.resp = ⟨Code.ok, [BitVec.ofNat 32
    s.nanos]⟩)

/-- Completion of the commands of these chapters (cycle frames, records, bursts, admission, berths): each command
named answers a next state with its own effect, for every state and operands that meet the conditions written before
it. -/
def Obligations.CompletesTree : Prop :=
  (∀ (s : State), s.alive = true → s.isHub = true → s.runs Pg.TIME = true → s.is F.TIME_MER_RUN = true →
    s.commitsDue = [] → ∃ t, Sys2Proof.Machine.exec .meridian s = .next t ∧ t.time.lastK = some s.nextK ∧ t.reg
    R.TIME_K_LO = BitVec.ofNat 32 s.nextK ∧ t.get F.TIME_K_HI_K = s.nextK / 2 ^ 32 % 2 ^ F.TIME_K_HI_K.w ∧ s.now ≤
    t.now ∧ t.mod.late = false) ∧
  (∀ (s : State), s.Settled → s.alive = true → s.isHub = true → s.runs Pg.TIME = true → s.get (F.GPIO_FN_FN 4) = 0 →
    s.outputsOff = false → Sys2Proof.Machine.exec .ppsPulse s = .next
    { s with time := { s.time with pps := true } }) ∧
  (∀ (s : State) (p seq ty : Nat) (sent : Bool) (corr t3 : Nat), s.alive = true → s.runs Pg.TIME = true → s.isCell =
    false → p < 2 → ty < 4 → (s.tsQueue p).length < 16 → ∃ t, Sys2Proof.Machine.exec (.ptpTimestamp p seq ty sent
    corr t3) s = .next t ∧ t.tsQueue p = s.tsQueue p ++ [⟨seq, ty, sent, s.ptpStamp sent⟩]) ∧
  (∀ (s : State) (path : Path) (p : Nat) (e : TsEntry) (q : List TsEntry), s.Reaches path Pg.TIME →
    s.clk.gating.contains Pg.TIME = false → s.isCell = false → p < 2 → s.tsQueue p = e :: q → ∃ t,
    Sys2Proof.Machine.exec (.tsqPop path p) s = .next t ∧ t.tsQueue p = q ∧ t.get (F.TIME_TSQ_ID_VALID p) = 1 ∧
    t.reg (R.TIME_TSQ_NS p) = BitVec.ofNat 32 (e.time % unitsPerSec / unitsPerNs) ∧ t.reg (R.TIME_TSQ_SL p) =
    BitVec.ofNat 32 (e.time / unitsPerSec)) ∧
  (∀ (s : State) (ofs : Int), s.alive = true → s.isHub = true → s.runs Pg.TIME = true → s.time.src = 2 → s.is
    (F.LANE_STAT_BONDED 4) = true → ∃ t, Sys2Proof.Machine.exec (.twinTimeExchange ofs) s = .next t ∧ t.reg
    R.TIME_TWIN = BitVec.ofInt 32 ofs ∧ t.time.exchanged = true ∧ t.time.twinGood = if ofs.natAbs ≤ 64 then min 256
    (s.time.twinGood + 1) else 0) ∧
  (∀ (s : State), s.alive = true → s.runs Pg.TIME = true → s.isCell = true → s.time.hold = [] → ∃ t,
    Sys2Proof.Machine.exec (.holdoverEnter .frames) s = .next t ∧ t.time.hold = [.frames] ∧ t.get
    F.TIME_STAT_HOLDOVER = 1 ∧ t.get F.TIME_HOLD_ENTRIES = satAdd F.TIME_HOLD_ENTRIES.w (s.get F.TIME_HOLD_ENTRIES)
    1 ∧ bitOf (t.reg (R.PG_EVT Pg.TIME)).toNat 8 = true) ∧
  (∀ (s : State), s.alive = true → s.isHub = true → s.meridiansOn = true → s.time.lastK.isSome = true → s.runs
    Pg.MOD = true → (List.range 4).any s.portOn = true → (List.range 4).all (fun p => !s.portOn p || (s.port
    p).ready.isSome) = true → ∃ t, Sys2Proof.Machine.exec .readyTest s = .next t ∧ t.get F.MOD_DL_CFG_RUN = 0 ∧
    t.get F.MOD_DL_CNT_MISS = s.get F.MOD_DL_CNT_MISS ∧ t.mod.late = s.mod.late) ∧
  (∀ (s : State) (u : Nat) (bs : List Byte) (st q : Nat) (f : RxFrame) (b : Timebase), s.frameOn u = true →
    bs.length ≤ 1024 → parseFrame bs = some f → f.timebase = none → ((s.uplink u).bases.find? fun c => c.tbg ==
    f.tbg) = some b → (s.uplink u).port = some f.port → f.crc = crcBytes (f.hdr ++ f.tag) → s.keyed u = true →
    (s.frameSide u f).isSome = true → f.flag 0 = true → f.tt = [] → f.skind = 0 → f.body = [] → 1 ≤ (f.watch + 65536
    - s.get (F.TREE_CELL_STAT_W 0)) % 65536 → (f.watch + 65536 - s.get (F.TREE_CELL_STAT_W 0)) % 65536 ≤ 32767 → ∃
    t, Sys2Proof.Machine.exec (.cycleFrameRx u true bs st q) s = .next t ∧ t.get (F.TREE_CELL_STAT_W 0) = f.watch %
    65536 ∧ t.reg (R.TREE_CELL_K_LO 0) = BitVec.ofNat 32 f.cycle ∧ t.get (F.TREE_CELL_STAT_STATE 0) = 1 ∧ t.get
    (F.TREE_CELL_STAT_LANE 0) = u ∧ t.rx.obeying = true ∧ (t.uplink u).seen = satAdd 8 (s.uplink u).seen 1 ∧ t.get
    (F.TREE_CELL_RX_VALID u) = (s.get (F.TREE_CELL_RX_VALID u) + 1) % 2 ^ (F.TREE_CELL_RX_VALID u).w ∧ t.get
    (F.TREE_CELL_RX_OBEYED u) = (s.get (F.TREE_CELL_RX_OBEYED u) + 1) % 2 ^ (F.TREE_CELL_RX_OBEYED u).w) ∧
  (∀ (s : State) (u b sl rd : Nat), s.frameOn u = true → s.ownBerth u b = true → s.now + 1000 * unitsPerNs ≤ slotAt
    (s.rate u) (roundNamed (s.roundNow u) (rd % 256)) (mgmtIdx (sl % 8)) - s.dUp u → ∃ t, Sys2Proof.Machine.exec
    (.mgrant u b sl rd) s = .next t ∧ (sl % 8, roundNamed (s.roundNow u) (rd % 256)) ∈ (t.uplink u).grants) ∧
  (∀ (s : State) (u b sl rd : Nat), s.frameOn u = true → s.keyed u = true → s.ownBerth u b = true → ∃ t,
    Sys2Proof.Machine.exec (.rslot u b sl rd) s = .next t ∧ (sl % 256, roundNamed (s.roundNow u) (rd % 256)) ∈
    (t.uplink u).moves) ∧
  (∀ (s : State) (u b : Nat) (all : Bool), s.frameOn u = true → s.keyed u = true → (s.ownBerth u b = true ∨ all =
    true) → s.is (F.TREE_CELL_SLOT_KILLED u) = false → ∃ t, Sys2Proof.Machine.exec (.laserKill u b all) s = .next t
    ∧ t.get (F.TREE_CELL_SLOT_KILLED u) = 1 ∧ t.laserOn u = false ∧ bitOf (t.reg (R.PG_EVT (Pg.TREE u))).toNat 16 =
    true) ∧
  (∀ (s : State) (u b tid a n : Nat), s.frameOn u = true → s.keyed u = true → s.ownBerth u b = true → (s.uplink
    u).resps.length < 4 → 1 ≤ n → n ≤ 5 → ∃ t, Sys2Proof.Machine.exec (.mgmtRdRecord u b tid a n) s = .next t ∧
    ((t.uplink u).resps.getLast?.map fun r => (r.rtype, r.tid, r.code, r.index)) = some (1, tid, (s.burstRead
    (.remote false false) a n).1, (s.burstRead (.remote false false) a n).2.1)) ∧
  (∀ (s : State) (u b tid : Nat) (pr sm : Bool) (a : Nat) (ws : List Word), s.frameOn u = true → s.keyed u = true →
    s.ownBerth u b = true → (s.uplink u).resps.length < 4 → 1 ≤ ws.length → ws.length ≤ 16 → ∃ t,
    Sys2Proof.Machine.exec (.mgmtWrRecord u b tid pr sm a ws) s = .next t ∧ ((t.uplink u).resps.getLast?.map fun r
    => (r.rtype, r.tid, r.code, r.index)) = some (2, tid, (s.burstWrite (.remote pr sm) a ws).1, (s.burstWrite
    (.remote pr sm) a ws).2.1)) ∧
  (∀ (s : State) (u b tid : Nat) (pr sm : Bool) (a : Nat) (m d : Word), s.frameOn u = true → s.keyed u = true →
    s.ownBerth u b = true → (s.uplink u).resps.length < 4 → ∃ t, Sys2Proof.Machine.exec (.mgmtMwrRecord u b tid pr
    sm a m d) s = .next t ∧ ((t.uplink u).resps.getLast?.map fun r => (r.rtype, r.tid, r.code)) = some (3, tid,
    (s.masked (.remote pr sm) a m d).1)) ∧
  (∀ (s : State) (u : Nat) (pr sm : Bool) (d : Word), s.frameOn u = true → s.keyed u = true → s.Reaches (.remote pr
    sm) (R.CLK_SPDLIM / 1024) → ∃ t, Sys2Proof.Machine.exec (.mgmtWrpRecord u pr sm R.CLK_SPDLIM [d]) s = .next t ∧
    t.get F.CLK_SPDLIM_LIMIT = getBits d 0 12 ∧ t.get F.CLK_SPDLIM_HYST = getBits d 16 8 ∧ t.rx = s.rx) ∧
  (∀ (s : State) (u b tid : Nat) (bd : List Byte) (k g : Key), s.frameOn u = true → bd.length = 32 → s.ownBerth u b
    = true → (s.uplink u).resps.length < 4 → (s.uplink u).group = none → (s.uplink u).pendKeys = none → (s.uplink
    u).wrap = some k → keyUnwrap k (bd.take 24) = some g → ∃ t, Sys2Proof.Machine.exec (.keyRecord u b tid bd) s =
    .next t ∧ (t.uplink u).group = some g ∧ (t.uplink u).fresh = true ∧ t.get (F.TREE_CELL_SLOT_KILLED u) = 0 ∧
    ((t.uplink u).resps.getLast?.map fun r => (r.rtype, r.tid, r.code)) = some (0x10, tid, Code.ok)) ∧
  (∀ (s : State) (u b tid dn up : Nat), s.frameOn u = true → s.ownBerth u b = true → (s.uplink u).resps.length < 4 →
    ∃ t, Sys2Proof.Machine.exec (.delayRecord u b tid dn up) s = .next t ∧ t.get (F.TREE_CELL_DN_DLY u) = dn % 2 ^
    24 ∧ t.get (F.TREE_CELL_UP_DLY u) = up % 2 ^ 24 ∧ ((t.uplink u).resps.getLast?.map fun r => (r.rtype, r.tid,
    r.code)) = some (0x11, tid, Code.ok)) ∧
  (∀ (s : State) (u : Nat) (bd : List Byte), s.frameOn u = true → bd.length = 20 → ∃ t, Sys2Proof.Machine.exec
    (.tbaseRecord u bd) s = .next t ∧ (t.uplink u).bases.head? = some (timebaseOf bd) ∧ (t.uplink u).bases.length ≤
    2) ∧
  (∀ (s : State) (u : Nat) (bd : List Byte), s.frameOn u = true → bd.length = 24 → ∃ t, Sys2Proof.Machine.exec
    (.beaconRecord u bd) s = .next t ∧ (t.uplink u).beacon = true ∧ (t.uplink u).rttNom = ofBe ((bd.drop 16).take 4)
    % 2 ^ 24 ∧ (t.uplink u).zone = (nth bd 20 0).toNat % 32 ∧ (t.uplink u).bexp = (nth bd 22 0).toNat ∧ (t.uplink
    u).group = (s.uplink u).group) ∧
  (∀ (s : State) (u : Nat) (bd : List Byte), s.frameOn u = true → bd.length = 24 → idOfBytes bd = s.devId → s.keyed
    u = false → (s.uplink u).offer = none → ∃ t, Sys2Proof.Machine.exec (.offerRecord u bd) s = .next t ∧ ((t.uplink
    u).offer.map fun o => (o.berth, o.cycleR, o.turn)) = some ((nth bd 8 0).toNat, ofBe ((bd.drop 12).take 6), ofBe
    ((bd.drop 20).take 4) % 2 ^ 24) ∧ (t.uplink u).berth = some (nth bd 8 0).toNat ∧ (t.uplink u).waitRounds = some
    0) ∧
  (∀ (s : State) (u b tid : Nat) (bd : List Byte) (o : Offer), s.frameOn u = true → bd.length = 204 → s.keyed u =
    false → (s.uplink u).offer = some o → (s.uplink u).waiting < 4 → o.berth = b → o.enrol = true → kxSound (bd.take
    192) (kxEph (bd.take 192)) = true → ∃ t, Sys2Proof.Machine.exec (.kxhRecord u b tid bd) s = .next t ∧ (t.uplink
    u).pendKeys.isSome = (ecdhX (scalarOf (Config.freeNat s.freeCtr)) (kxEph (bd.take 192))).isSome) ∧
  (∀ (s : State) (u : Nat) (bd : List Byte), s.frameOn u = true → bd.length = 12 → idOfBytes bd = s.devId → (nth bd
    8 0).toNat = 1 → ∃ t, Sys2Proof.Machine.exec (.refuseRecord u bd) s = .next t ∧ (t.uplink u).stopped = true ∧
    t.mayBoard u = false) ∧
  (∀ (s : State) (u : Nat) (bd : List Byte) (b : Nat), s.frameOn u = true → s.keyed u = true → bd.length = 32 →
    (s.uplink u).berth = some b → bitOf (nth bd (b / 8) 0).toNat (b % 8) = true → ∃ t, Sys2Proof.Machine.exec
    (.restoreRecord u bd) s = .next t ∧ t.get (F.TREE_CELL_SLOT_KILLED u) = 0) ∧
  (∀ (s : State), s.cellMeridians = true → s.rx.obeyedK.contains (s.nextK - 1) = true → ∃ t, Sys2Proof.Machine.exec
    .cellMeridian s = .next t ∧ t.time.lastK = some s.nextK ∧ t.reg R.TIME_K_LO = BitVec.ofNat 32 s.nextK ∧ t.reg
    (R.TREE_CELL_LOST 0) = s.reg (R.TREE_CELL_LOST 0)) ∧
  (∀ (s : State), s.alive = true → s.isCell = true → s.rx.obeying = true → ∃ t, Sys2Proof.Machine.exec .holdLimit s
    = .next t ∧ t.rxState = 3 ∧ t.rx.obeying = false ∧ t.get F.TIME_MER_RUN = 0 ∧ t.safe.db = false ∧ t.gate.state =
    .block ∧ t.gate.blocked = true ∧ bitOf (t.reg (R.PG_EVT (Pg.TREE 0))).toNat 13 = true) ∧
  (∀ (s : State) (n x : Nat), (s.pathOn 0 = true ∨ s.pathOn 1 = true) → nextBy s.payloadAt s.now 4 s.roundFrom =
    some (n, x) → ∃ t, Sys2Proof.Machine.exec .payloadBuild s = .next t ∧ t.rx.payload.length = 24 ∧ t.gate.flags =
    0 ∧ (t.uplink 0).seen = 0 ∧ (t.uplink 1).seen = 0 ∧ (t.uplink 0).mreq = (!(s.uplink 0).resps.isEmpty ||
    !(s.uplink 0).chunks.isEmpty) ∧ x ≤ t.now) ∧
  (∀ (s : State) (u n x : Nat), nextBy (s.reportLaunch u) s.now 4 (s.roundNow u) = some (n, x) → s.pathOn u = true →
    s.laserOn u = true → (s.uplink u).session.isSome = true → s.rx.payload.length = 24 → ∃ t, Sys2Proof.Machine.exec
    (.reportBurstTx u) s = .next t ∧ (t.uplink u).burst.length = 40 ∧ nth (t.uplink u).burst 1 0 = 1 ∧ (nth
    (t.uplink u).burst 0 0).toNat = ((s.uplink u).berth.getD 0) % 256 ∧ ((t.uplink u).burst.drop 4).take 17 =
    s.rx.payload.take 17) ∧
  (∀ (s : State) (u m n x : Nat) (r : MgmtResp) (l : List MgmtResp), s.nextGrant u = some (m, n, x) → s.pathOn u =
    true → s.laserOn u = true → (s.uplink u).resps = r :: l → (s.uplink u).sentCyc = 0 → ∃ t, Sys2Proof.Machine.exec
    (.mgmtBurstTx u) s = .next t ∧ (t.uplink u).resps = l ∧ (t.uplink u).burst.length = 40 ∧ nth (t.uplink u).burst
    1 0 = 2 ∧ t.get (F.TREE_CELL_SLOT_GRANTS u) = (s.get (F.TREE_CELL_SLOT_GRANTS u) + 1) % 2 ^
    (F.TREE_CELL_SLOT_GRANTS u).w ∧ (m, n) ∉ (t.uplink u).grants) ∧
  (∀ (s : State) (p b : Nat) (pl : List Byte) (r : MgmtRec), s.portHears p = true → b < 256 → ((s.port
    p).opens.find? fun x => x.tid == (nth pl 1 0).toNat && x.berth == b && x.rtype + 0x80 == (nth pl 0 0).toNat) =
    some r → r.src = .mailbox → r.rtype = 2 → ∃ t, Sys2Proof.Machine.exec (.mgmtBurstRx p b pl) s = .next t ∧ t.get
    (F.TREE_RA_STAT_BUSY p) = 0 ∧ t.get (F.TREE_RA_STAT_CODE p) = (nth pl 2 0).toNat % 2 ^ (F.TREE_RA_STAT_CODE p).w
    ∧ (t.port p).mailbox = false ∧ (t.port p).opens.length + 1 = (s.port p).opens.length) ∧
  (∀ (s : State) (e : CellEvent) (l : List CellEvent) (a : EvAct), s.Settled → s.gateLive = true → s.rx.events = e
    :: l → e.act = a → a ≠ .byp → a ≠ .blockCell → a ≠ .insPos → Sys2Proof.Machine.exec .eventByp s = .next s) ∧
  (∀ (s : State) (e : CellEvent) (l : List CellEvent) (a : EvAct), s.Settled → s.gateLive = true → s.rx.events = e
    :: l → e.act = a → a ≠ .byp → a ≠ .blockCell → a ≠ .insPos → Sys2Proof.Machine.exec .eventInsPos s = .next s) ∧
  (∀ (s : State) (e : CellEvent) (l : List CellEvent), s.Settled → s.gateLive = true → s.full = true → s.rx.events =
    e :: l → e.act = .insNeg → s.gate.blocked = false → s.inStop = false → s.gate.state = .bypass → s.gate.legA =
    .lower → s.gate.legB = .lower → s.gate.lastAt = none → l = [] → s.gate.trimEnd = none → s.cmod.edge = none →
    s.is F.GATE_CFG_DTC = false → ∃ t, Sys2Proof.Machine.exec .eventInsNeg s = .next t ∧ t.gate.state = .neg ∧
    t.gate.legA = .lower ∧ t.gate.legB = .off ∧ t.gate.riseB = some .upper ∧ t.gate.riseA = none) ∧
  (∀ (s : State) (e : CellEvent) (l : List CellEvent) (a : EvAct), s.Settled → s.gateLive = true → s.rx.events = e
    :: l → e.act = a → a ≠ .byp → a ≠ .blockCell → a ≠ .insPos → Sys2Proof.Machine.exec .eventBlockCell s = .next s) ∧
  (∀ (s : State) (e : CellEvent) (l : List CellEvent) (on : CellState) (w : Nat), s.Settled → s.gateLive = true →
    s.rx.events = e :: l → e.act = .trim on w → on = .pos → s.pulseMin ≤ w → s.gate.blocked = false → s.inStop =
    false → s.gate.state = .bypass → s.gate.lastAt = none → l = [] → s.gate.trimEnd = none → s.cmod.edge = none → ∃
    t, Sys2Proof.Machine.exec .eventTrim s = .next t ∧ t.gate.state = .pos ∧ t.gate.trimEnd = some (e.instant + w,
    s.commandedState, e.queuedAt) ∧ t.rx.events = []) ∧
  (∀ (s : State) (x : Nat) (st : CellState) (q : Nat), s.gateLive = true → s.gate.trimEnd = some (x, st, q) → ∃ t,
    Sys2Proof.Machine.exec .trimEnd s = .next t ∧ t.gate.trimEnd = none ∧ x ≤ t.now) ∧
  (∀ (s : State) (e : CellEvent) (l : List CellEvent), s.gateLive = true → s.rx.events = e :: l → e.act = .fireThy →
    s.gate.pbyp = false → s.inStop = false → ∃ t, Sys2Proof.Machine.exec .eventFireThy s = .next t ∧ t.gate.thyLeft
    = max 1 (s.get F.GATE_THY_N) ∧ t.gate.gate4 = true ∧ t.rx.events = l) ∧
  (∀ (s : State) (e : CellEvent) (l : List CellEvent), s.gateLive = true → s.rx.events = e :: l → e.act =
    .permBypass → s.gate.pbyp = false → s.inStop = false → ∃ t, Sys2Proof.Machine.exec .eventPermBypass s = .next t
    ∧ t.gate.pbyp = true ∧ t.gate.gate5 = true ∧ t.gate.gate5Run = true ∧ t.gate.state = .block ∧ t.gate.legA = .off
    ∧ t.gate.legB = .off ∧ t.safe.db = false) ∧
  (∀ (s : State) (e : CellEvent) (l : List CellEvent) (d : CellState), s.Settled → s.gateLive = true → s.rx.events =
    e :: l → e.act = .swap d → d = .bypass → s.gate.blocked = false → s.inStop = false → s.gate.state = .pos →
    s.full = false → s.gate.legA = .upper → s.gate.legB = .off → s.gate.lastAt = none → l = [] → s.gate.trimEnd =
    none → s.cmod.edge = none → s.is F.GATE_CFG_DTC = false → ∃ t, Sys2Proof.Machine.exec .eventSwapHead s = .next t
    ∧ t.gate.state = d ∧ t.gate.riseA = some .lower ∧ t.rx.events = []) ∧
  (∀ (s : State), s.Settled → s.gateLive = true → (s.gate.riseA.isSome = true ∨ s.gate.riseB.isSome = true) → ∃ t,
    Sys2Proof.Machine.exec .deadTimeTurnOn s = .next t ∧ t.gate.legA = s.gate.riseA.getD s.gate.legA ∧ t.gate.legB =
    s.gate.riseB.getD s.gate.legB ∧ t.gate.riseA = none ∧ t.gate.riseB = none ∧ KeepsRegs [] s t ∧ KeepsMem s t) ∧
  (∀ (s : State) (path : Path) (p : Nat), s.Reaches path Pg.BERTH → p < 4 → s.guardFor path Pg.BERTH = true →
    s.isHub = true → ∃ t, Sys2Proof.Machine.exec (.enrolmentWindowOpen path p) s = .next t ∧ t.windowOpen p = true ∧
    (t.port p).winEnd = s.elapsed + max 1 (min 3600 (s.get F.BERTH_BWIN_SEC)) * unitsPerSec) ∧
  (∀ (s : State) (path : Path) (p : Nat), s.Reaches path Pg.BERTH → p < 4 → s.isHub = true → ∃ t,
    Sys2Proof.Machine.exec (.enrolmentWindowClose path p) s = .next t ∧ t.windowOpen p = false) ∧
  (∀ (s : State) (p : Nat), s.alive = true → s.isHub = true → p < 4 → s.windowOpen p = true → ∃ t,
    Sys2Proof.Machine.exec (.enrolmentWindowExpire p) s = .next t ∧ t.windowOpen p = false ∧ bitOf (t.reg (R.PG_EVT
    Pg.BERTH)).toNat 19 = true) ∧
  (∀ (s : State) (u n x : Nat), s.mayBoard u = true → nextBy (s.boardingLaunch u) s.now 4 (s.roundNow u) = some (n,
    x) → ∃ t, Sys2Proof.Machine.exec (.boardingBurstTx u) s = .next t ∧ (t.uplink u).waitRounds = some 0 ∧ (t.uplink
    u).burst.length = 40 ∧ nth (t.uplink u).burst 1 0 = 3 ∧ x ≤ t.now ∧ t.mayBoard u = false) ∧
  (∀ (s : State) (u w : Nat), s.pathOn u = true → (s.uplink u).offer = none → (s.uplink u).waitRounds = some w → 3 ≤
    w → (s.uplink u).boarding = true → ∃ t, Sys2Proof.Machine.exec (.boardingBackoff u) s = .next t ∧ (t.uplink
    u).waitRounds = none ∧ (t.uplink u).attempt = min 255 ((s.uplink u).attempt + 1) ∧ (t.uplink u).backoff < 2 ^
    min (t.uplink u).attempt (s.uplink u).bexp) ∧
  (∀ (s : State) (p : Nat) (sf co : Bool) (bs : List Byte) (arr i : Nat), s.portHears p = true → roundAt (s.rate p)
    arr % 2 = 0 → s.zoneCheck p (roundAt (s.rate p) arr) sf co bs = .ok → (s.berthsWith fun _ b => b.assign != 0 &&
    b.keyid == idOfBytes ((bs.drop 4).take 24)) = [i] → i / 256 = p → (s.berth i).admission = none → (s.berth
    i).link = .absent → (s.berth i).rsv = true → s.slotAllowed p (s.berth i).rslot = true → s.sameMajor (ofBe
    ((bs.drop 20).take 2)) = true → (s.portBerths p fun b => b.admission.isSome) = [] → ∃ t, Sys2Proof.Machine.exec
    (.boardingBurstRx p ⟨sf, co, bs⟩ arr) s = .next t ∧ (t.berth i).admission.isSome = true ∧ (t.berth i).keyid =
    idOfBytes ((bs.drop 4).take 24) ∧ (t.berth i).imgid = idOfBytes ((bs.drop 12).take 16) ∧ (t.berth i).linkver =
    ofBe ((bs.drop 20).take 2) ∧ t.reg (R.TREE_RXOK p) = s.reg (R.TREE_RXOK p) + 1) ∧
  (∀ (s : State) (p : Nat), s.Settled → s.berthOn p = true → ∃ t, Sys2Proof.Machine.exec (.collision p) s = .next t
    ∧ t.get (F.BERTH_BRD_COLL p) = satAdd (F.BERTH_BRD_COLL p).w (s.get (F.BERTH_BRD_COLL p)) 1 ∧ bitOf (t.reg
    (R.PG_EVT Pg.BERTH)).toNat 12 = true ∧ KeepsRegs [(F.BERTH_BRD_COLL p).addr, R.PG_EVT Pg.BERTH] s t ∧ t =
    { s with regs := t.regs, recd := t.recd }) ∧
  (∀ (s : State) (u : Nat) (o : Offer) (f : Nat), s.pathOn u = true → s.laserOn u = true → (s.uplink u).boarding =
    true → (s.uplink u).offer = some o → o.soF = some f → ∃ t, Sys2Proof.Machine.exec (.rangingBurstTx u) s = .next
    t ∧ (t.uplink u).offer = some { o with soF := none } ∧ (t.uplink u).burst.length = 40 ∧ nth (t.uplink u).burst 1
    0 = 4 ∧ f + o.turn * unitsPer64 ≤ t.now) ∧
  (∀ (s : State) (p : Nat) (sf co : Bool) (bs : List Byte) (arr ph al : Nat) (a : Admission), s.portHears p = true →
    roundAt (s.rate p) arr % 2 = 1 → s.zoneCheck p (roundAt (s.rate p) arr) sf co bs = .ok → (s.berth (256 * p +
    (nth bs 0 0).toNat)).admission = some a → (s.berth (256 * p + (nth bs 0 0).toNat)).link = .offered → idOfBytes
    ((bs.drop 4).take 24) = (s.berth (256 * p + (nth bs 0 0).toNat)).keyid → ofBe ((bs.drop 12).take 4) = a.cycleR %
    2 ^ 32 → roundAt (s.rate p) arr = a.roundR → ∃ t, Sys2Proof.Machine.exec (.rangingBurstRx p sf co bs arr ⟨ph,
    al⟩) s = .next t ∧ (t.berth (256 * p + (nth bs 0 0).toNat)).link = .ranged ∧ (t.berth (256 * p + (nth bs 0
    0).toNat)).rttn = ((arr : Int) - s.meridianAt a.cycleR - s.dTx p - a.turn * unitsPer64).toNat / unitsPer64 % 2 ^
    24 ∧ (t.berth (256 * p + (nth bs 0 0).toNat)).ph = ph % 64 ∧ (t.berth (256 * p + (nth bs 0 0).toNat)).align = al
    % 16) ∧
  (∀ (s : State) (p b : Nat) (a : Admission), s.berthOn p = true → b < 256 → (s.berth (256 * p + b)).admission =
    some a → (s.berth (256 * p + b)).link = .offered → max 1 (s.get F.BERTH_CFG_RTRY) ≤ a.offers → ∃ t,
    Sys2Proof.Machine.exec (.rangingTimeout p b) s = .next t ∧ (t.berth (256 * p + b)).admission = none ∧ t.get
    (F.BERTH_BRD_FAILED p) = satAdd (F.BERTH_BRD_FAILED p).w (s.get (F.BERTH_BRD_FAILED p)) 1) ∧
  (∀ (s : State) (u : Nat), s.pathOn u = true → s.keyed u = true → 2 ≤ (s.uplink u).badRounds → ∃ t,
    Sys2Proof.Machine.exec (.rejoinTrigger u) s = .next t ∧ (t.uplink u).group = none ∧ (t.uplink u).session = none
    ∧ (t.uplink u).berth = none ∧ t.get (F.TREE_CELL_DN_DLY u) = 0 ∧ t.get (F.TREE_CELL_UP_DLY u) = 0 ∧ t.reg
    (R.TREE_CELL_SLOT u) = 0) ∧
  (∀ (s : State) (light : List (List LightRun)) (p n : Nat), s.portRx p = true → (List.range 4).filter s.portRx =
    [p] → n = s.nextRound p ((s.reg (R.TREE_ROUND_LO p)).toNat + 2 ^ 32 * s.get (F.TREE_ROUND_HI_ROUND p)) → ∃ t,
    Sys2Proof.Machine.exec (.roundBoundary light) s = .next t ∧ t.reg (R.TREE_ROUND_LO p) = BitVec.ofNat 32 n ∧
    t.get (F.BERTH_LIGHT_LIGHT p) = b2n (s.unslotted p (n - 1) (nth light p [])) ∧ (t.port p).lightRun = if
    s.unslotted p (n - 1) (nth light p []) then (s.port p).lightRun + 1 else 0) ∧
  (∀ (s : State) (path : Path) (p : Nat), s.Reaches path Pg.BERTH → s.berthOn p = true → (s.port p).search = none →
    ∃ t, Sys2Proof.Machine.exec (.babblerSearchGo (.register path) p) s = .next t ∧ (t.port p).search.isSome = true
    ∧ t.get (F.BERTH_SRCH_RUN p) = 1 ∧ t.get (F.BERTH_LIGHT_SEARCHES p) = satAdd (F.BERTH_LIGHT_SEARCHES p).w (s.get
    (F.BERTH_LIGHT_SEARCHES p)) 1) ∧
  (∀ (s : State) (p : Nat) (x : Search) (light : Bool), s.berthOn p = true → (s.port p).search = some x → x.check =
    false → ∃ t, Sys2Proof.Machine.exec (.searchStep p light) s = .next t ∧ ((t.port p).search.map fun y => y.s) =
    some (if light then x.s.filter fun b => !x.k.contains b else x.k) ∧ (t.port p).killAll = true ∧ t.get
    (F.BERTH_SRCH_STEP p) = satAdd (F.BERTH_SRCH_STEP p).w (s.get (F.BERTH_SRCH_STEP p)) 1) ∧
  (∀ (s : State) (path : Path) (w : Nat), s.Reaches path Pg.BERTH → s.isHub = true → w < 16 → ∃ t,
    Sys2Proof.Machine.exec (.berthCmdRd path) s = .next t ∧ t.reg (R.BERTH_E w) = BitVec.ofNat 32 (berthWord
    (s.berth (s.get F.BERTH_SEL_INDEX)) w) ∧ t.berths = s.berths) ∧
  (∀ (s : State) (path : Path), s.Reaches path Pg.BERTH → s.isHub = true → s.guardFor path Pg.BERTH = true →
    (s.berth (s.get F.BERTH_SEL_INDEX)).link = .absent → (s.berth (s.get F.BERTH_SEL_INDEX)).assign = 1 → (s.berth
    (s.get F.BERTH_SEL_INDEX)).rsv = false → (s.berth (s.get F.BERTH_SEL_INDEX)).rslot = 0 → s.reg (R.BERTH_E 0) = 1
    → ∃ t, Sys2Proof.Machine.exec (.berthCmdWr path) s = .next t ∧ (t.berth (s.get F.BERTH_SEL_INDEX)).keyid =
    idOfWords (s.reg (R.BERTH_E 1)) (s.reg (R.BERTH_E 2)) ∧ (t.berth (s.get F.BERTH_SEL_INDEX)).assign = 1 ∧
    (t.berth (s.get F.BERTH_SEL_INDEX)).beta = getBits (s.reg (R.BERTH_E 4)) 0 16) ∧
  (∀ (s : State) (path : Path), s.Reaches path Pg.BERTH → s.isHub = true → ∃ t, Sys2Proof.Machine.exec
    (.berthCmdClrcnt path) s = .next t ∧ t.berth (s.get F.BERTH_SEL_INDEX) =
    { s.berth (s.get F.BERTH_SEL_INDEX) with code := 0, crc := 0, tag := 0, format := 0, miss := 0, ok := 0, admits := 0, ranges := 0, reranges := 0 }) ∧
  (∀ (s : State) (ns : Nat) (x : Snap), s.mod.used = some x → s.stageDue 1 1 = true → s.runs Pg.RANK = true → ∃ t,
    Sys2Proof.Machine.exec (.stageB ns) s = .next t ∧ bitOf t.mod.stages 1 = true ∧ t.rank.jobs = [] ∧ t.rank.lastB
    = some x.k ∧ t.mod.used = some x) ∧
  (∀ (s : State) (ns lat : Nat), s.stageDue 1 2 = true → s.runs Pg.CTL = true → s.is F.SYS_TOPO_TWIN = false →
    s.running = none → s.eng.ho = none → s.runs Pg.SUP = false → s.runs Pg.SCHD = false → ∃ t,
    Sys2Proof.Machine.exec (.stageC ns lat) s = .next t ∧ bitOf t.mod.stages 2 = true ∧ t.get F.CTL_LAT_LAST = min
    65535 lat ∧ t.mod.invalid = false) ∧
  (∀ (s : State) (ns : Nat) (x : Snap), s.mod.used = some x → s.stageDue 3 3 = true → s.runs Pg.RANK = true → ∃ t,
    Sys2Proof.Machine.exec (.stageD ns) s = .next t ∧ bitOf t.mod.stages 3 = true ∧ t.rank.sorted = true ∧
    t.rank.orders.length = 2 ∧ t.rank.lastAvail = [s.availOf 0, s.availOf 1]) ∧
  (∀ (s : State) (ns : Nat) (x : Snap), s.mod.used = some x → s.stageDue 15 4 = true → s.runs Pg.MOD = true → ∃ t,
    Sys2Proof.Machine.exec (.stageE ns) s = .next t ∧ bitOf t.mod.stages 4 = true ∧ (t.mod.moves.map (·.target)) =
    some (x.k + 1 + s.lead) ∧ t.twin.adopt = none) ∧
  (∀ (s : State) (ns : Nat) (x : Snap), s.mod.used = some x → s.stageDue 31 5 = true → s.runs Pg.MOD = true →
    s.time.lastK = some x.k → s.mod.late = false → s.mod.invalid = false → s.portOn 0 = true → ∃ t,
    Sys2Proof.Machine.exec (.stageF ns) s = .next t ∧ (t.port 0).ready.isSome = true ∧ t.get (F.TREE_STAT_READY 0) =
    1 ∧ t.mod.used = none ∧ t.get F.MOD_DL_T_LAST = min 65535 ns) ∧
  (∀ (s : State) (path : Path) (data : Word), s.Reaches path Pg.MOD → s.isHub = true → s.mod.pcmd = none → (getBits
    data 10 4 = 3 ∨ getBits data 10 4 = 5 ∨ getBits data 10 4 = 6) → ∃ t, Sys2Proof.Machine.exec (.protectiveCommand
    path data) s = .next t ∧ t.mod.pcmd = some (getBits data 0 10, getBits data 10 4) ∧ t.get F.MOD_PCMD_BUSY = 1) ∧
  (∀ (s : State) (path : Path) (data : Word), s.Reaches path Pg.MOD → s.isHub = true → s.mod.target = none → getBits
    data 16 2 ≠ 3 → s.cycle + s.lead + 8 ≤ s.get F.MOD_MSW_LO_TARGET + 2 ^ 32 * getBits data 0 16 → s.get
    F.MOD_MSW_LO_TARGET + 2 ^ 32 * getBits data 0 16 ≤ s.cycle + 2 ^ 31 → ∃ t, Sys2Proof.Machine.exec (.modeChangeGo
    path data) s = .next t ∧ t.mod.target = some (s.get F.MOD_MSW_LO_TARGET + 2 ^ 32 * getBits data 0 16) ∧ t.get
    F.MOD_MODE_NEXT = getBits data 16 2 ∧ t.get F.MOD_MODE_PEND = 1) ∧
  (∀ (s : State) (e x : Nat), s.cmod.next = some (e, x) → s.gateLive = true → s.time.lastK = none → s.cmod.pend =
    false → ∃ t, Sys2Proof.Machine.exec .carrierEpoch s = .next t ∧ t.cmod.epoch = some (e, x) ∧ t.cmod.next = none
    ∧ t.reg R.MOD_CELL_EPOCH = BitVec.ofNat 32 e ∧ bitOf (t.reg (R.PG_EVT Pg.MOD)).toNat 20 = true) ∧
  (∀ (s : State) (peak : Bool) (e x : Nat), s.carrierOn = true → s.cmod.epoch = some (e, x) → s.cmod.edge = none → ∃
    t, Sys2Proof.Machine.exec (.carrierSample peak) s = .next t ∧ t.cmod.edge.isSome = true ∧ t.cmod.sampled = some
    (s.carrierInstant x peak) ∧ t.gate.state = s.gate.state ∧ t.gate.legA = s.gate.legA) ∧
  (∀ (s : State) (peak : Bool) (lat : Nat), s.alive = true → s.isCell = true → s.runs Pg.CTL = true → s.is
    F.CTL_CFG_TRIG = false → s.running = none → ∃ t, Sys2Proof.Machine.exec (.cellEngineRun peak lat) s = .next t ∧
    t.eng.sigq = [] ∧ t.get F.CTL_STAT_INVALID = 0 ∧ t.get F.CTL_LAT_LAST = min 65535 lat) ∧
  (∀ (s : State) (path : Path) (w : Nat), s.Reaches path Pg.RANK → s.isHub = true → w < 16 → ∃ t,
    Sys2Proof.Machine.exec (.rankCmdRd path) s = .next t ∧ t.reg (R.RANK_E w) = BitVec.ofNat 32 (obsWord ((kvFind
    s.rank.seen (s.get F.RANK_SEL_INDEX)).getD {}) w) ∧ t.rank = s.rank) ∧
  (∀ (s : State) (path : Path), s.Reaches path Pg.RANK → s.isHub = true → s.rank.jobs.length < 16 → ∃ t,
    Sys2Proof.Machine.exec (.rankCmdWr path) s = .next t ∧ t.rank.jobs = s.rank.jobs ++ [.wr (s.get
    F.RANK_SEL_INDEX) (getBits (s.reg (R.RANK_E 9)) 2 1 == 1) (getBits (s.reg (R.RANK_E 9)) 3 1 == 1)]) ∧
  (∀ (s : State) (path : Path), s.Reaches path Pg.RANK → s.isHub = true → s.rank.jobs.length < 16 → s.reg (R.RANK_E
    1) = 0x3F800000 → ∃ t, Sys2Proof.Machine.exec (.rankCmdSetc path) s = .next t ∧ t.rank.jobs = s.rank.jobs ++
    [.setc (s.get F.RANK_SEL_INDEX) 0x3F800000]) ∧
  (∀ (s : State) (path : Path), s.Reaches path Pg.RANK → s.isHub = true → s.rank.jobs.length < 16 → sFinite (s.reg
    (R.RANK_E 0)) = true → ∃ t, Sys2Proof.Machine.exec (.rankCmdSetv path) s = .next t ∧ t.rank.jobs = s.rank.jobs
    ++ [.setv (s.get F.RANK_SEL_INDEX) (s.reg (R.RANK_E 0))]) ∧
  (∀ (s : State) (path : Path) (n : Nat), s.Reaches path Pg.CTL → s.isHub = true → n < 2 → s.running = none →
    s.eng.ho = none → s.is (F.CTL_PGM_STAT_BUSY n) = false → ∃ t, Sys2Proof.Machine.exec (.programLoad path n) s =
    .next t ∧ t.get (F.CTL_PGM_STAT_BUSY n) = 1) ∧
  (∀ (s : State) (n : Nat), s.alive = true → s.isRef = false → n < 2 → s.is (F.CTL_PGM_STAT_BUSY n) = true →
    s.slotWhy n = 0 → ∃ t, Sys2Proof.Machine.exec (.loadDone n) s = .next t ∧ t.get (F.CTL_PGM_STAT_BUSY n) = 0 ∧
    t.slotValid n = true ∧ bitOf (t.reg (R.PG_EVT Pg.CTL)).toNat 8 = true) ∧
  (∀ (s : State) (path : Path) (data : Word), s.Reaches path Pg.CTL → s.isHub = true → getBits data 31 1 = 0 →
    getBits data 1 1 = 0 → s.slotValid (getBits data 0 1) = true → s.get F.CTL_STAT_ACT ≠ getBits data 0 1 →
    s.eng.ho = none → ∃ t, Sys2Proof.Machine.exec (.handoverGo path data) s = .next t ∧ (t.eng.ho.map fun h =>
    (h.slot, h.start, h.nb, h.running)) = some (getBits data 0 1, s.cycle + 1, min 64 (getBits data 8 7), false) ∧
    t.get F.CTL_STAT_HO = 1 ∧ bitOf (t.reg (R.PG_EVT Pg.CTL)).toNat 10 = true) ∧
  (∀ (s : State) (path : Path) (data : Word) (h : HoSt), s.Reaches path Pg.CTL → s.isHub = true → getBits data 30 1
    = 0 → s.eng.ho = some h → h.running = false → ∃ t, Sys2Proof.Machine.exec (.handoverAbort path data) s = .next t
    ∧ t.eng.ho = none ∧ t.get F.CTL_STAT_HO = 0 ∧ t.get F.CTL_HO_STAT_LAST = 3 ∧ t.get F.CTL_STAT_ACT = s.get
    F.CTL_STAT_ACT) ∧
  (∀ (s : State) (path : Path) (data : Word), s.Reaches path Pg.CTL → s.isRef = false → s.eng.sigq.length < 16 → ∃
    t, Sys2Proof.Machine.exec (.sigdataWrite path data) s = .next t ∧ t.eng.sigq = s.eng.sigq ++ [(s.get
    F.CTL_SIGIDX_INDEX, data)]) ∧
  (∀ (s : State) (path : Path) (data : Word), s.Reaches path Pg.CHAIN → s.isRef = false → s.eng.chq.length < 64 → ∃
    t, Sys2Proof.Machine.exec (.chainQueueWrite path data) s = .next t ∧ t.eng.chq.length = s.eng.chq.length + 1 ∧
    (t.eng.chq.getLast?.map fun e => e.1) = some (s.reg R.CHAIN_SEL)) ∧
  (∀ (s : State) (path : Path), s.Reaches path Pg.CHAIN → s.isHub = true → s.get F.CHAIN_SEL_FIELD ≤ 9 → ∃ t,
    Sys2Proof.Machine.exec (.chainCmdRd path) s = .next t ∧ t.reg R.CHAIN_RLO = BitVec.ofNat 32 (s.num (s.chainField
    (s.get F.CHAIN_SEL_SLOT) (s.get F.CHAIN_SEL_SEC) (s.get F.CHAIN_SEL_BANK) (s.get F.CHAIN_SEL_FIELD)) 8)) ∧
  (∀ (s : State) (path : Path) (u : Nat), s.Reaches path Pg.RCU → s.isHub = true → u < 16 → ∃ t,
    Sys2Proof.Machine.exec (.rcuClear path u) s = .next t ∧ bitOf (t.get F.RCU_STAT_CLR) u = true ∧ nth t.comp.rcu u
    {} = {}) ∧
  (∀ (s : State) (u : Nat), s.alive = true → s.isHub = true → u < 16 → ∃ t, Sys2Proof.Machine.exec (.rcuClearDone u)
    s = .next t ∧ bitOf (t.get F.RCU_STAT_CLR) u = false) ∧
  (∀ (s : State) (path : Path) (i : Nat), s.Reaches path Pg.SUP → s.isHub = true → i < 2 → s.is (F.SUP_ISTAT_RUN i)
    = false → s.get (F.SUP_ICTL_TYPE i) ≠ 3 → ∃ t, Sys2Proof.Machine.exec (.injectorGo path i) s = .next t ∧ (t.inj
    i).run = true ∧ (t.inj i).t0 = none ∧ t.get (F.SUP_ISTAT_RUN i) = 1 ∧ t.get (F.SUP_ISTAT_DONE i) = 0) ∧
  (∀ (s : State) (path : Path) (i : Nat), s.Reaches path Pg.SUP → s.isHub = true → i < 2 → (s.inj i).run = true → ∃
    t, Sys2Proof.Machine.exec (.injectorStop path i) s = .next t ∧ (t.inj i).stop = true ∧ (t.inj i).run = true) ∧
  (∀ (s : State) (path : Path), s.Reaches path Pg.SUP → s.isHub = true → s.is (F.SUP_ISTAT_RUN (s.get
    F.SUP_FRCTL_INJ)) = false → s.comp.fr = none → ∃ t, Sys2Proof.Machine.exec (.freqResponseGo path) s = .next t ∧
    t.comp.fr.isSome = true ∧ t.get F.SUP_FRSTAT_BUSY = 1 ∧ t.get F.SUP_FRSTAT_DONE = 0 ∧ t.get F.SUP_FRSTAT_POINT =
    0 ∧ (t.inj (s.get F.SUP_FRCTL_INJ)).run = true) ∧
  (∀ (s : State) (n low : Nat), s.gateLive = true → n < 4 → 1000 < low → bitOf (s.get F.GATE_CFG_FEN) n = true → ∃
    t, Sys2Proof.Machine.exec (.faultAssert ⟨n, low⟩) s = .next t ∧ (bitOf t.gate.latch n = true ∧ t.gate.state =
    .block ∧ t.gate.blocked = true ∧ t.safe.db = false ∧ (t.gate.legA = .off ∨ t.gate.legA = t.safeLeg false) ∧
    (t.gate.legB = .off ∨ t.gate.legB = t.safeLeg true) ∧ t.gate.trimEnd = none ∧ t.eventsFor 0 = [] ∧ bitOf (t.reg
    (R.PG_EVT Pg.GATE)).toNat 8 = true ∧ bitOf t.gate.flags n = true)) ∧
  (∀ (s : State), s.gateLive = true → s.gate.latch ≠ 0 → s.gate.pbyp = false → ∃ t, Sys2Proof.Machine.exec
    .safeLevelTurnOn s = .next t ∧ t.gate.legA = s.safeLeg false ∧ t.gate.legB = s.safeLeg true ∧ t.gate.safeOn =
    true ∧ t.gate.state = .block) ∧
  (∀ (s : State) (path : Path), s.Reaches path Pg.GATE → s.isCell = true → s.gate.live &&& s.get F.GATE_CFG_FEN = 0
    → s.gate.latch ≠ 0 → s.gate.pbyp = false → ∃ t, Sys2Proof.Machine.exec (.gateFclr path) s = .next t ∧
    t.gate.latch = 0 ∧ t.gate.state = .block ∧ t.gate.blocked = true ∧ t.gate.legA = .off ∧ t.gate.legB = .off) ∧
  (∀ (s : State) (c : StopCause), s.gateLive = true → c ≠ .page → s.full = false → ∃ t, Sys2Proof.Machine.exec
    (.gateStopEnter c) s = .next t ∧ t.gate.stops.contains c = true ∧ t.inStop = true ∧ t.gate.state = .block ∧
    t.gate.blocked = true) ∧
  (∀ (s : State) (c : StopCause), s.gateLive = true → c ≠ .page → ∃ t, Sys2Proof.Machine.exec (.gateStopExit c) s =
    .next t ∧ t.gate.stops.contains c = false ∧ t.gate.stops.all (fun x => s.gate.stops.contains x) = true) ∧
  (∀ (s : State), s.gateLive = true → s.gate.thyLeft = 1 → ∃ t, Sys2Proof.Machine.exec .thyDone s = .next t ∧
    t.gate.thyLeft = 0 ∧ t.gate.gate4 = false ∧ bitOf (t.reg (R.PG_EVT Pg.GATE)).toNat 11 = true) ∧
  (∀ (s : State), s.Settled → s.gateLive = true → s.gate.gate5Run = true → Sys2Proof.Machine.exec .gate5Release s =
    .next { s with gate := { s.gate with gate5 := false, gate5Run := false } }) ∧
  (∀ (s : State) (n : Nat), s.gateLive = true → s.get (F.CLK_DOM_CURSRC 0) ≠ 3 → s.gate.taps.length = 15 → 64 ≤ (n +
    s.gate.taps.sum) / 16 → (n + s.gate.taps.sum) / 16 ≤ 511 → ∃ t, Sys2Proof.Machine.exec (.delayLineCal n) s =
    .next t ∧ t.get F.GATE_DLCAL_TAPS = (n + s.gate.taps.sum) / 16 ∧ t.get F.GATE_DLCAL_VALID = 1 ∧ t.get
    F.GATE_DLCAL_FAULT = 0) ∧
  (∀ (s : State) (path : Path) (n : Nat) (data : Word), s.Reaches path Pg.GATE → s.isHub = true → n < 6 → s.is
    (F.TEV_CTL_ARM n) = false → bitOf data.toNat 5 = false → s.clk.gating.contains Pg.GATE = false → s.now + nsUnits
    1001 ≤ s.tevInstant n → ∃ t, Sys2Proof.Machine.exec (.tevArm path n data) s = .next t ∧ t.get (F.TEV_CTL_ARM n)
    = 1 ∧ nth t.gate.tevNext n 0 = t.tevInstant n) ∧
  (∀ (s : State) (path : Path) (n : Nat), s.Reaches path Pg.GATE → s.isHub = true → n < 6 → s.clk.gating.contains
    Pg.GATE = false → ∃ t, Sys2Proof.Machine.exec (.tevDisarm path n) s = .next t ∧ t.get (F.TEV_CTL_ARM n) = 0 ∧
    t.gate.tev = s.gate.tev) ∧
  (∀ (s : State) (n : Nat), s.alive = true → s.isHub = true → s.runs Pg.GATE = true → n < 6 → s.is (F.TEV_CTL_ARM n)
    = true → s.get (F.TEV_CTL_ACT n) ≠ 3 → ∃ t, Sys2Proof.Machine.exec (.tevFired n) s = .next t ∧ nth t.gate.tev n
    false = (s.get (F.TEV_CTL_ACT n) != 0) ∧ t.get (F.TEV_CTL_ARM n) = 0 ∧ bitOf (t.reg (R.PG_EVT Pg.GATE)).toNat
    (16 + n) = true ∧ nth s.gate.tevNext n 0 ≤ t.now) ∧
  (∀ (s : State) (x : Int) (i : Nat), s.alive = true → s.isCell = true → s.runs Pg.ADC = true → s.is F.ADC_CTL_M1EN
    = true → s.runs Pg.ACC = true → s.aligned = s.is F.ACC_WIN_MODE → (i - s.groupDelay 1) / gridUnit < (s.acc
    1).stop → 0 < (s.acc 1).count → -(2 ^ 23) < x → x < 2 ^ 23 - 1 → ∃ t, Sys2Proof.Machine.exec (.adcResult 1 0 x
    i) s = .next t ∧ (t.acc 1).sum = (s.acc 1).sum + x ∧ (t.acc 1).count = (s.acc 1).count + 1 ∧ (t.acc 1).lo = min
    (s.acc 1).lo x ∧ (t.acc 1).hi = max (s.acc 1).hi x ∧ t.adc.last = s.adc.last) ∧
  (∀ (s : State) (f : Nat) (codes : List Int), s.gateLive = true → (f = 0 ∨ f = 2) → canAssert s f codes = true →
    bitOf (s.get F.GATE_CFG_FEN) (f / 2 + 2) = true → ∃ t, Sys2Proof.Machine.exec (.comparatorAssert ⟨f, codes⟩) s =
    .next t ∧ bitOf t.gate.latch (f / 2 + 2) = true ∧ t.safe.db = false ∧ bitOf (t.get F.ADC_FSTAT_HIT) f = true ∧
    bitOf (t.reg (R.PG_EVT Pg.ADC)).toNat (8 + f) = true) ∧
  (∀ (s : State) (f : Nat) (code : Int), s.gateLive = true → f < 4 → inBand s f code = true → ∃ t,
    Sys2Proof.Machine.exec (.comparatorDeassert ⟨f, code⟩) s = .next t ∧ bitOf (t.get F.ADC_FSTAT_LIVE) f = false ∧
    t.gate.latch = s.gate.latch) ∧
  (∀ (s : State) (pin : BlockPin) (low : Nat), s.hubLive = true → 10000 ≤ low → ∃ t, Sys2Proof.Machine.exec (.alatch
    ⟨pin, low⟩) s = .next t ∧ bitOf t.safe.alatch (if pin = .trip0 then 0 else if pin = .trip1 then 1 else 2) = true
    ∧ t.safe.alatch ≠ 0 ∧ t.safe.vb = false ∧ bitOf t.safe.asserted (pinBit pin) = true ∧ bitOf (t.reg (R.PG_EVT
    Pg.SAFE)).toNat 10 = true) ∧
  (∀ (s : State), s.hubLive = true → s.pins.safeA ≠ s.pins.safeB → ∃ t, Sys2Proof.Machine.exec .disc s = .next t ∧
    bitOf t.safe.alatch 3 = true ∧ bitOf t.safe.asserted 4 = true ∧ t.safe.startup = 0 ∧ t.safe.vb = false ∧ t.get
    F.SAFE_HCNT_DISCS = satAdd F.SAFE_HCNT_DISCS.w (s.get F.SAFE_HCNT_DISCS) 1) ∧
  (∀ (s : State) (path : Path), s.Reaches path Pg.SAFE → s.isHub = true → s.safe.startup = 2 → s.safe.alatch = 0 →
    s.safe.breq = false → (s.is F.SYS_TOPO_TWIN = false ∨ s.twin.active = true) → s.runs Pg.TIME = true → s.is
    F.TIME_MER_RUN = true → s.twin.refLost = false → ∃ t, Sys2Proof.Machine.exec (.hubDeblock path) s = .next t ∧
    t.safe.vb = true ∧ t.safe.seqLeft = s.deblockList ∧ t.get F.SAFE_HDBLK_REFUSED = s.get F.SAFE_HDBLK_REFUSED) ∧
  (∀ (s : State) (path : Path), s.Reaches path Pg.SAFE → s.isHub = true → s.safe.asserted = 0 → ∃ t,
    Sys2Proof.Machine.exec (.hubAclr path) s = .next t ∧ t.safe.alatch = 0 ∧ t.resp.code = Code.ok) ∧
  (∀ (s : State) (path : Path), s.Reaches path Pg.SAFE → s.isHub = true → ∃ t, Sys2Proof.Machine.exec (.hubBset
    path) s = .next t ∧ t.safe.breq = true ∧ bitOf t.safe.breqSrc 0 = true ∧ t.safe.vb = false) ∧
  (∀ (s : State) (path : Path), s.Reaches path Pg.SAFE → s.isHub = true → ∃ t, Sys2Proof.Machine.exec (.hubBclr
    path) s = .next t ∧ t.safe.breq = false ∧ t.safe.breqSrc = 0) ∧
  (∀ (s : State) (i : Nat) (l : List Nat), s.hubLive = true → s.safe.vb = true → s.safe.alatch = 0 → s.safe.breq =
    false → s.is F.SYS_TOPO_TWIN = false → s.safe.seqLeft = i :: l → mayDeblock (s.berth i) = true → s.mgmtRoom (i /
    256) = true → i < 1024 → ∃ t, Sys2Proof.Machine.exec .deblockSequenceQueue s = .next t ∧ t.safe.seqLeft = l ∧
    ((t.port (i / 256)).mq.getLast?.map fun r => (r.berth, r.rtype, r.deblock)) = some (i % 256, 2, true) ∧
    t.safe.seqOpen = s.safe.seqOpen ++ [i]) ∧
  (∀ (s : State), s.Settled → s.hubLive = true → s.safe.startup = 0 → s.pins.safeA = false → s.pins.safeB = false →
    Sys2Proof.Machine.exec .startupTestOpen s = .next { s with safe := { s.safe with startup := 1 } }) ∧
  (∀ (s : State), s.hubLive = true → s.safe.startup = 1 → s.pins.safeA = true → s.pins.safeB = true → ∃ t,
    Sys2Proof.Machine.exec .startupPass s = .next t ∧ t.safe.startup = 2 ∧ bitOf (t.reg (R.PG_EVT Pg.SAFE)).toNat 12
    = true) ∧
  (∀ (s : State) (path : Path) (i : Nat), s.Reaches path Pg.SAFE → s.isHub = true → s.safe.vb = true → s.safe.alatch
    = 0 → s.safe.breq = false → s.is F.SYS_TOPO_TWIN = false → s.safe.seqLeft = [] → i < 1024 → mayDeblock (s.berth
    i) = true → s.mgmtRoom (i / 256) = true → ∃ t, Sys2Proof.Machine.exec (.singleBerthDeblock path i) s = .next t ∧
    ((t.port (i / 256)).mq.getLast?.map fun r => (r.berth, r.rtype, r.deblock)) = some (i % 256, 2, true) ∧
    t.safe.vb = true) ∧
  (∀ (s : State) (pr sm : Bool), s.Reaches (.remote pr sm) Pg.SAFE → s.isCell = true → s.cellDeblockWhy true = 0 →
    s.safe.db = false → (s.safe.plaus = false ∨ s.is F.SAFE_CCFG_PLACT = false) → ∃ t, Sys2Proof.Machine.exec
    (.cellDeblock (.remote pr sm)) s = .next t ∧ t.safe.db = true ∧ t.gate.blocked = false ∧ bitOf (t.reg (R.PG_EVT
    Pg.SAFE)).toNat 17 = true ∧ t.get F.SAFE_CCNT_DEBLOCKS = (s.get F.SAFE_CCNT_DEBLOCKS + 1) % 2 ^
    F.SAFE_CCNT_DEBLOCKS.w) ∧
  (∀ (s : State) (path : Path), s.Reaches path Pg.SAFE → s.isCell = true → ∃ t, Sys2Proof.Machine.exec (.cellBlock
    path) s = .next t ∧ t.safe.db = false ∧ t.gate.state = .block ∧ t.gate.blocked = true) ∧
  (∀ (s : State) (path : Path), s.Reaches path Pg.SAFE → s.isCell = true → s.gate.pbyp = false → ∃ t,
    Sys2Proof.Machine.exec (.cellPermBypass path) s = .next t ∧ t.gate.pbyp = true ∧ t.gate.gate5 = true ∧ t.safe.db
    = false ∧ t.gate.legA = .off ∧ t.gate.legB = .off) ∧
  (∀ (s : State) (u r : Nat), s.gateLive = true → u < 2 → ∃ t, Sys2Proof.Machine.exec (.blkos u r) s = .next t ∧
    t.safe.db = false ∧ t.safe.blkSeen = true ∧ t.gate.state = .block ∧ t.gate.blocked = true ∧ t.get
    F.SAFE_CREACT_LAST = min 65535 r ∧ t.get F.SAFE_CCNT_BLKOS = satAdd F.SAFE_CCNT_BLKOS.w (s.get
    F.SAFE_CCNT_BLKOS) 1) ∧
  (∀ (s : State), s.gateLive = true → s.safe.blkSeen = true → s.runs Pg.TIME = true → ∃ t, Sys2Proof.Machine.exec
    .blkseenClear s = .next t ∧ t.safe.blkSeen = false ∧ s.safe.blkAt + 4 * s.tcyc ≤ t.now ∧ t.blkSeenNow =
    (s.uplinkTest 0 || s.uplinkTest 1))

/-- Completion of the commands of these chapters (twin link, referee, scheduler, memory, errors): each command named
answers a next state with its own effect, for every state and operands that meet the conditions written before it.
-/
def Obligations.CompletesTwins : Prop :=
  (∀ (s : State) (fr str : List Byte), s.twinOn = true → s.TwinFrameOk 1 fr str → s.is F.TWIN_STAT_BOND = true →
    s.is F.TWIN_STAT_KEYED = false → s.side = 1 → kxSound str (kxEph str) = true → s.isPeer (keyId (kxPub str)) 3 =
    true → (ecdhX s.twin.link.priv (kxEph str)).isSome = true → s.laneSends 4 = true → s.laneSends 5 = true → ∃ t,
    Sys2Proof.Machine.exec (.twinKxFrame fr) s = .next t ∧ t.get F.TWIN_STAT_KEYED = 1 ∧ t.twin.link.rx.isSome =
    true ∧ t.twin.link.tx.isSome = true ∧ t.twin.link.rxSeq = none ∧ t.twin.frames.length = s.twin.frames.length +
    2) ∧
  (∀ (s : State) (fr b : List Byte), s.twinOn = true → s.TwinFrameOk 2 fr b → ∃ t, Sys2Proof.Machine.exec
    (.twinHelloFrame fr) s = .next t ∧ (t.get F.TWIN_STAT_HELLO = 1 ∧ t.get F.BOOT_TWIN_WARM + t.get
    F.BOOT_TWIN_COLD = 1 ∧ (t.get F.BOOT_TWIN_WARM = 1 ↔ ofBe ((b.drop 8).take 4) = (s.reg R.BOOT_FEAT).toNat ∧ ofBe
    ((b.drop 12).take 2) = s.get F.BOOT_MIRV_MIRV ∧ s.listed (idOfBytes b) 2 = true))) ∧
  (∀ (s : State) (fr b : List Byte), s.twinOn = true → s.TwinFrameOk 3 fr b → s.twin.active = false → s.is
    F.TWIN_STAT_SELF = false → ∃ t, Sys2Proof.Machine.exec (.twinStatusRx fr) s = .next t ∧ t.twin.status = some
    (parseStatus b) ∧ t.twin.missing = 0 ∧ t.twin.statusAt = some s.now) ∧
  (∀ (s : State) (fr b : List Byte), s.twinOn = true → s.TwinFrameOk 4 fr b → s.twin.active = false → ∃ t,
    Sys2Proof.Machine.exec (.twinSliceRx fr) s = .next t ∧ t.twin.staging.any (fun g => g.x == ofBe (b.take 4)) =
    true ∧ t.twin.link.rxSeq = some (ofBe ((fr.drop 3).take 6))) ∧
  (∀ (s : State) (fr b : List Byte) (g : Staging), s.twinOn = true → s.TwinFrameOk 5 fr b → s.twin.active = false →
    s.twin.staging = [g] → g.commit = none → g.x = ofBe (b.take 4) → (stagedBytes g.data (ofBe ((b.drop 7).take
    4))).map crc32c = some (ofBe ((b.drop 11).take 4)) → ∃ t, Sys2Proof.Machine.exec (.twinCommitRx fr) s = .next t
    ∧ (t.twin.staging.getLast?.map fun y => (y.x, y.commit)) = some (g.x, stagedBytes g.data (ofBe ((b.drop 7).take
    4))) ∧ t.get F.TWIN_MCNT_DISCARD = s.get F.TWIN_MCNT_DISCARD) ∧
  (∀ (s : State) (k : Key), s.hubRef = true → s.twin.ref.rx.isSome = true → s.twin.ref.tx = some k → ∃ t,
    Sys2Proof.Machine.exec .heartbeatTx s = .next t ∧ t.twin.refSent.length = 24 ∧ nth t.twin.refSent 2 0 = 0x11 ∧
    t.twin.ref.txSeq = s.twin.ref.txSeq + 1 ∧ t.twin.refHeard = false) ∧
  (∀ (s : State) (p : Nat) (k k' : Key), s.refServes p = true → (s.refLink (2 * p)).keys.tx = some k → (s.refLink (2
    * p + 1)).keys.tx = some k' → ∃ t, Sys2Proof.Machine.exec (.refereeFrameTx p) s = .next t ∧ ((t.refLink (2 *
    p)).sent.length = 24 ∧ (t.refLink (2 * p + 1)).sent.length = 24 ∧ (t.refLink (2 * p)).keys.txSeq = (s.refLink (2
    * p)).keys.txSeq + 1 ∧ (nth (t.refLink (2 * p)).sent 2 0 = 0x22 ↔ (s.refPair p).takeTo = some 0))) ∧
  (∀ (s : State) (l : Nat) (fr : List Byte) (n : Nat) (b : List Byte), s.refServes (l / 2) = true → l < 4 → refCheck
    (s.refLink l).keys (s.pairHub (l / 2)) (l % 2) 0x11 fr = .ok n b → ∃ t, Sys2Proof.Machine.exec (.refHbRx l fr) s
    = .next t ∧ t.get (F.REF_LSTAT_MISS l) = 0 ∧ t.get (F.REF_LSTAT_VALID l) = 1 ∧ t.get (F.REF_LSTAT_HEALTH l) =
    ofBe ((b.drop 4).take 1) % 256 ∧ t.get (F.REF_LW_WATCH l) = ofBe ((b.drop 2).take 2) % 65536 ∧ (t.refLink
    l).lastHb = some s.now ∧ t.get (F.REF_LCNT_OK l) = (s.get (F.REF_LCNT_OK l) + 1) % 65536) ∧
  (∀ (s : State) (p h : Nat), s.refServes p = true → h < 2 → (s.refPair p).listening = false → s.pairActive p = some
    h → s.get (F.REF_PSTAT_STATE p) = 1 → (s.refPair p).takeTo = none → s.get (F.REF_LSTAT_MISS (2 * p + h)) + 1 =
    s.pairMiss p → s.is (F.REF_LSTAT_VALID (2 * p + (1 - h))) = true → s.linkHealth (2 * p + (1 - h)) 2 = false →
    s.linkHealth (2 * p + (1 - h)) 1 = true → ∃ t, Sys2Proof.Machine.exec (.linkMiss (2 * p + h)) s = .next t ∧
    t.pairActive p = some (1 - h) ∧ (t.refPair p).takeTo = some (1 - h) ∧ (t.refPair p).yieldTo = some h ∧ t.get
    (F.REF_PSTAT_WATCH p) = s.nextWatch p ∧ t.get (F.REF_PLAST_WHY p) = 1 ∧ t.get (F.REF_PCNT_TAKES p) = satAdd
    (F.REF_PCNT_TAKES p).w (s.get (F.REF_PCNT_TAKES p)) 1) ∧
  (∀ (s : State) (p : Nat), s.refServes p = true → (s.refPair p).listening = true → s.is (F.REF_LSTAT_VALID (2 * p +
    1)) = true → s.linkHealth (2 * p + 1) 0 = true → s.is (F.REF_LSTAT_VALID (2 * p)) = false → ∃ t,
    Sys2Proof.Machine.exec (.refereeListenEnd p) s = .next t ∧ t.pairActive p = some 1 ∧ t.get (F.REF_PSTAT_WATCH p)
    = s.get (F.REF_LW_WATCH (2 * p + 1)) ∧ t.get (F.REF_PSTAT_STATE p) = 1 ∧ (t.refPair p).listening = false ∧
    (t.refPair p).takeTo = none) ∧
  (∀ (s : State) (l : Nat) (fr : List Byte) (n : Nat) (b : List Byte), s.isRef = true → s.refServes (l / 2) = true →
    refCheck (s.refLink l).keys (s.pairHub (l / 2)) (l % 2) 0x31 fr = .ok n b → (nth b 0 0).toNat = 0 → ∃ t,
    Sys2Proof.Machine.exec (.refereeKx l fr) s = .next t ∧ kvFind (t.refLink l).keys.chunks 0 = some (b.drop 2) ∧
    (t.refLink l).keys.rx = (s.refLink l).keys.rx) ∧
  (∀ (s : State) (fr : List Byte) (n : Nat) (b : List Byte), s.hubRef = true → refCheck s.twin.ref s.hubNo s.side
    0x22 fr = .ok n b → newer (refWatch b) (s.get F.TWIN_WATCH_OWN) = true → newer (s.get F.TWIN_WATCH_SEEN)
    (refWatch b) = false → s.twin.active = false → ∃ t, Sys2Proof.Machine.exec (.takeRx fr) s = .next t ∧
    t.twin.active = true ∧ t.get F.TWIN_WATCH_OWN = refWatch b ∧ t.get F.TWIN_WATCH_SEEN = refWatch b ∧ t.get
    F.TWIN_TKLAST_WHY = 1 ∧ t.twin.ref.rxSeq = some n ∧ bitOf (t.reg (R.PG_EVT Pg.TWIN)).toNat 8 = true) ∧
  (∀ (s : State) (fr : List Byte) (n : Nat) (b : List Byte), s.hubRef = true → refCheck s.twin.ref s.hubNo s.side
    0x23 fr = .ok n b → newer (refWatch b) (s.get F.TWIN_WATCH_OWN) = true → ∃ t, Sys2Proof.Machine.exec (.yieldRx
    fr) s = .next t ∧ t.twin.active = false ∧ t.get F.REF_HSTAT_LASTW = refWatch b ∧ t.safe.vb = false ∧ bitOf
    (t.reg (R.PG_EVT Pg.REF)).toNat 11 = true) ∧
  (∀ (s : State) (fr : List Byte) (n : Nat) (b : List Byte), s.hubRef = true → refCheck s.twin.ref s.hubNo s.side
    0x21 fr = .ok n b → newer (refWatch b) (s.get F.TWIN_WATCH_SEEN) = true → s.twin.active = false → ∃ t,
    Sys2Proof.Machine.exec (.rstRx fr) s = .next t ∧ t.get F.TWIN_WATCH_SEEN = refWatch b ∧ t.twin.refHeard = true ∧
    t.twin.refLost = false ∧ t.twin.active = false) ∧
  (∀ (s : State), s.alive = true → s.isHub = true → s.is F.SYS_TOPO_TWIN = true → s.runs Pg.REF = true → ∃ t,
    Sys2Proof.Machine.exec .refLost s = .next t ∧ t.twin.refLost = true ∧ t.twin.refRun = 0) ∧
  (∀ (s : State), s.selfStandby = true → s.takeoverCase ≠ 0 → ∃ t, Sys2Proof.Machine.exec .selfTakeover s = .next t
    ∧ t.twin.active = true ∧ t.get F.TWIN_WATCH_OWN = (s.get F.TWIN_WATCH_SEEN + 1) % 65536 ∧ t.get
    F.TWIN_TKLAST_WHY = s.takeoverCase) ∧
  (∀ (s : State), s.selfStandby = true → s.is F.TWIN_ARB_PREF = true → s.is F.TWIN_STAT_BOND = true → s.reg
    R.REF_HFAIL = 0 → s.is F.TWIN_STAT_READY = true → ∃ t, Sys2Proof.Machine.exec .preferredReclaim s = .next t ∧
    t.twin.active = true ∧ t.get F.TWIN_WATCH_OWN = (s.get F.TWIN_WATCH_SEEN + 1) % 65536 ∧ t.get F.TWIN_TKLAST_WHY
    = 4) ∧
  (∀ (s : State) (p : Path) (d : Word), s.pathOpen p = true → getBits d 12 1 = 0 → s.queueFull (getBits d 0 5) =
    false → s.slotsFree ≠ 0 → ∃ t, Sys2Proof.Machine.exec (.schedSubmit p d) s = .next t ∧ (t.queue (getBits d 0
    5)).length = (s.queue (getBits d 0 5)).length + 1 ∧ ((t.queue (getBits d 0 5)).getLast?.map fun it =>
    { it with slot := 0 }) = some ⟨0, getBits (kvGet 0 s.sch.subs (4 * pathIdx p)) 0 16, getBits (kvGet 0 s.sch.subs
    (4 * pathIdx p)) 16 8, kvGet 0 s.sch.subs (4 * pathIdx p + 1), getBits d 0 5, none, false, s.now, false, false⟩
    ∧ getBits (kvGet 0 t.sch.subres (pathIdx p)) 16 4 = 0 ∧ getBits (kvGet 0 t.sch.subres (pathIdx p)) 31 1 = 1) ∧
  (∀ (s : State) (q f a : Nat), s.alive = true → q < 8 → s.hwQueue q = true → (q < 4 ∨ q = 5) → s.queueFull q =
    false → s.slotsFree ≠ 0 → ∃ t, Sys2Proof.Machine.exec (.hwArrival q f a) s = .next t ∧ (t.queue q).length =
    (s.queue q).length + 1 ∧ ((t.queue q).getLast?.map fun it => (it.flow, it.arg, it.hw)) = some (f % 65536,
    BitVec.ofNat 32 a, true)) ∧
  (∀ (s : State) (q : Nat) (it : Item), s.schedOn = true → s.enabled Pg.TIME = false → s.sch.held = [] →
    s.sch.queues = [(q, [it])] → workerOf q = 0 → q < 32 → s.is (F.SCHQ_CFG_EN q) = true → s.flowBusy it.flow =
    false → s.sch.mail.length < 4 → ∃ t, Sys2Proof.Machine.exec .schedulerStep s = .next t ∧ t.queue q = [] ∧
    t.sch.svc = s.sch.svc ++ [{ it with ready := s.elapsed }] ∧ t.sch.mail = s.sch.mail ++ [it.slot] ∧ t.get
    (F.SCHQ_CNT_DISP q) = (s.get (F.SCHQ_CNT_DISP q) + 1) % 2 ^ 16) ∧
  (∀ (s : State) (p : Path) (slot : Nat) (l : List Nat) (it : Item), s.pathOpen p = true → s.sch.mail = slot :: l →
    s.sch.svc.find? (fun x => x.slot == slot) = some it → it.timed = none → ∃ t, Sys2Proof.Machine.exec (.schgTake
    p) s = .next t ∧ t.sch.mail = l ∧ t.sch.svc = s.sch.svc ∧ t.resp = ⟨Code.ok, [BitVec.ofNat 32 (s.handleOf
    slot)]⟩ ∧ t.reg (R.SCHG_TW 0) = BitVec.ofNat 32 (it.flow + it.type <<< 16) ∧ t.reg (R.SCHG_TW 1) = it.arg ∧
    t.reg (R.SCHG_TW 2) = BitVec.ofNat 32 it.queue) ∧
  (∀ (s : State) (p : Path) (h : Nat) (it : Item), s.pathOpen p = true → s.named h (s.sch.svc.filter fun x =>
    workerOf x.queue == 0) = some it → it.timed = none → ∃ t, Sys2Proof.Machine.exec (.schgDone p h) s = .next t ∧
    t.sch.svc = s.sch.svc.filter (fun x => x.slot != it.slot) ∧ kvGet 0 t.sch.gens it.slot = (kvGet 0 s.sch.gens
    it.slot + 1) % 64 ∧ t.sch.queues = s.sch.queues ∧ t.sch.lists = s.sch.lists) ∧
  (∀ (s : State) (it : Item) (rel per : Nat), s.schedOn = true → s.enabled Pg.TIME = true → s.sch.lists = [[it], [],
    [], []] → it.timed = some (0, rel, per) → relDue s.schedNow rel = true → it.ready ≠ s.schedNow → s.queueFull
    it.queue = false → ∃ t, Sys2Proof.Machine.exec .delayRelease s = .next t ∧ t.queue it.queue = s.queue it.queue
    ++ [{ it with ready := s.now }] ∧ t.sch.lists = [[], [], [], []]) ∧
  (∀ (s : State) (p : Path) (h : Nat) (it : Item), s.pathOpen p = true → s.named h s.items = some it →
    (s.sch.svc.any fun x => x.slot == it.slot) = false → ∃ t, Sys2Proof.Machine.exec (.schgCancel p h) s = .next t ∧
    (t.items.all fun x => x.slot != it.slot) = true ∧ kvGet 0 t.sch.canres (pathIdx p) = 0x80000000) ∧
  (∀ (s : State) (p : Path) (q : Nat), s.pathOpen p = true → q < 32 → ∃ t, Sys2Proof.Machine.exec (.schqFlush p q) s
    = .next t ∧ t.items = (s.sch.queues.flatMap (·.2) ++ s.sch.lists.flatten).filter (·.queue != q) ++ s.sch.svc ∧
    t.sch.svc = s.sch.svc ∧ bitOf (t.reg (R.PG_EVT Pg.SCHQ)).toNat 9 = true) ∧
  (∀ (s : State) (slot : Nat) (it : Item), s.schedOn = true → s.sch.svc.find? (fun x => x.slot == slot && workerOf
    x.queue == 0 && !x.stuck) = some it → ∃ t, Sys2Proof.Machine.exec (.itemStuck slot) s = .next t ∧ t.get
    F.SCHG_CNT_STUCKS = satAdd F.SCHG_CNT_STUCKS.w (s.get F.SCHG_CNT_STUCKS) 1 ∧ bitOf (t.reg (R.PG_EVT
    Pg.SCHG)).toNat 12 = true ∧ t.sch.svc.length = s.sch.svc.length ∧ (t.sch.svc.all fun x => x.slot != slot ||
    x.stuck) = true ∧ t.sch.queues = s.sch.queues) ∧
  (∀ (s : State), s.phase = .running → s.is F.ERR_CFG_SCRUB = true → kvFind s.memErr (scrubWord s.arb.scrubAt) =
    none → s.arb.scrubAt + 1 < s.scrubWords → ∃ t, Sys2Proof.Machine.exec (.scrubVisit []) s = .next t ∧ KeepsMem s
    t ∧ t.memErr = s.memErr ∧ t.arb.scrubAt = s.arb.scrubAt + 1 ∧ t.err = s.err) ∧
  (∀ (s : State) (q : ArbReq), s.alive = true → s.arbValid q = true → s.is F.MEM_STAT_LOCKED = false → q.lock =
    false → s.arb.armed = false → q.data ≠ [] → s.memErr = [] → s.get F.ERR_INJ_NBIT = 0 → s.isRef = false →
    s.isProtected q.addr q.data.length = false → ∃ t, Sys2Proof.Machine.exec (.arbiterGrant [q]) s = .next t ∧
    t.bytes q.addr q.data.length = q.data ∧ KeepsMemBut q.addr q.data.length s t ∧ t.get (F.MEM_RCNT_GRANTS q.r) =
    (s.get (F.MEM_RCNT_GRANTS q.r) + 1) % 2 ^ 32) ∧
  (∀ (s : State) (p : Path), s.pathOpen p = true → ∃ t, Sys2Proof.Machine.exec (.memLockOpen p) s = .next t ∧ t.arb
    = { s.arb with armed := true } ∧ t.get F.MEM_STAT_LOCKED = s.get F.MEM_STAT_LOCKED) ∧
  (∀ (s : State) (p : Path), s.pathOpen p = true → s.is F.MEM_STAT_LOCKED = true → s.get F.MEM_STAT_OWNER = 1 → ∃ t,
    Sys2Proof.Machine.exec (.memLockClose p) s = .next t ∧ t.get F.MEM_STAT_LOCKED = 0 ∧ t.get F.MEM_SLOCK_HELD = 0
    ∧ t.arb.armed = false) ∧
  (∀ (s : State) (c : Nat), s.alive = true → s.is F.MEM_STAT_LOCKED = true → 1 ≤ c → c ≤ 3 → (c ≠ 2 ∨ s.lockMax ≤
    s.arb.grants) → s.arb.words.length ≤ 255 → ∃ t, Sys2Proof.Machine.exec (.lockBreak c) s = .next t ∧ t.get
    F.MEM_STAT_LOCKED = 0 ∧ t.get F.MEM_LB_OWNER = s.get F.MEM_STAT_OWNER ∧ t.get F.MEM_LB_CAUSE = c ∧ t.get
    F.MEM_LB_WORDS = s.arb.words.length ∧ t.reg (R.MEM_LBA 0) = BitVec.ofNat 32 (nth s.arb.words 0 0) ∧ bitOf (t.reg
    (R.PG_EVT Pg.MEM)).toNat 8 = true ∧ t.arb.words = []) ∧
  (∀ (s : State) (p : Path), s.pathOpen p = true → ∃ t, Sys2Proof.Machine.exec (.errPop p) s = .next t ∧ t.err =
    { s.err with log := s.err.log.tail } ∧ KeepsMem s t) ∧
  (∀ (s : State) (p : Path) (c : Nat), s.pathOpen p = true → c < 4 → s.handled = c + 1 → s.err.pend = [] → ∃ t,
    Sys2Proof.Machine.exec (.errAck p c) s = .next t ∧ t.err.stack = s.err.stack.tail ∧ t.err.pend = [] ∧ t.err.log
    = s.err.log) ∧
  (∀ (s : State) (p : Path) (d : Word), s.pathOpen p = true → 0x80 ≤ getBits d 8 8 → s.err.log = [] → ∃ t,
    Sys2Proof.Machine.exec (.errSwlog p d) s = .next t ∧ t.err.log = [⟨getBits d 0 2, getBits d 8 8, 0xFF, 0, s.reg
    R.ERR_SWADDR, s.nanos, s.seconds % 2 ^ 32⟩] ∧ t.get (errCnt (getBits d 0 2)) = satAdd 8 (s.get (errCnt (getBits
    d 0 2))) 1)

/-- Completion of the commands of these chapters (recorder, monitors, station): each command named answers a next
state with its own effect, for every state and operands that meet the conditions written before it. -/
def Obligations.CompletesStation : Prop :=
  (∀ (s : State) (c : RecChunk) (l : List RecChunk), s.alive = true → s.isHub = true → s.recd.full = c :: l →
    s.recd.tail = [] → (s.sch.svc.any fun it => it.queue == 6 && it.hw && it.flow == c.seq) = true → s.memErr = [] →
    s.get F.ERR_INJ_NBIT = 0 → s.segBase c.seg + c.off + c.data.length ≤ 0x303FF000 → ∃ t, Sys2Proof.Machine.exec
    .chunkStored s = .next t ∧ t.recd.full = l ∧ t.bytes (s.segBase c.seg + c.off) c.data.length = c.data ∧
    t.sch.svc.length < s.sch.svc.length) ∧
  (∀ (s : State), s.alive = true → s.isHub = true → s.runs Pg.REC = true → s.recState = 4 → s.get F.REC_HOLD_MODE =
    1 → ∃ t, Sys2Proof.Machine.exec .holdOffEnd s = .next t ∧ t.recState = 1 ∧ t.recd = s.recd ∧ KeepsMem s t) ∧
  (∀ (s : State) (p : Path), s.Reaches p Pg.REC → s.isHub = true → (s.recState = 1 ∨ s.recState = 2) → ∃ t,
    Sys2Proof.Machine.exec (.recForce p) s = .next t ∧ t.recd = { s.recd with force := true } ∧ KeepsMem s t) ∧
  (∀ (s : State) (p : Path) (i : Nat), s.Reaches p Pg.REC → s.isHub = true → i < 16 → s.segState i = 3 → s.recState
    ≠ 5 → s.memErr = [] → s.get F.ERR_INJ_NBIT = 0 → ∃ t, Sys2Proof.Machine.exec (.recRel p i) s = .next t ∧
    t.segState i = 0 ∧ KeepsMemBut (descAddr i) 4 s t ∧ bitOf (t.get F.REC_STAT_HELD) i = false) ∧
  (∀ (s : State) (p : Path), s.Reaches p Pg.REC → s.isHub = true → s.recState ≠ 5 → s.memErr = [] → s.get
    F.ERR_INJ_NBIT = 0 → ∃ t, Sys2Proof.Machine.exec (.recRelall p) s = .next t ∧ (List.range 16).all (fun i =>
    t.segState i == (if s.segState i = 3 then 0 else s.segState i)) = true ∧ t.get F.REC_STAT_HELD = 0) ∧
  (∀ (s : State) (p : Path), s.Reaches p Pg.REC → s.isCell = true → s.is F.REC_BBSTAT_FROZEN = true → s.get
    F.REC_BBSTAT_WHY ≠ 6 → ∃ t, Sys2Proof.Machine.exec (.bbRearm p) s = .next t ∧ t.is F.REC_BBSTAT_FROZEN = false ∧
    t.bb = { s.bb with post := none } ∧ t.get F.REC_BBSTAT_NEXT = s.get F.REC_BBSTAT_NEXT ∧ KeepsMem s t) ∧
  (∀ (s : State) (p : Path) (k : Nat) (d : Word), s.Reaches p (Pg.MON k) → k < 2 → ∃ t, Sys2Proof.Machine.exec
    (.monSnap p k d) s = .next t ∧ t.reg (R.MON_SMIN k) = BitVec.ofNat 32 (unsigned 32 (kvGet {} s.mon (32 * k +
    getBits d 0 5)).mn) ∧ t.reg (R.MON_SMAX k) = BitVec.ofNat 32 (unsigned 32 (kvGet {} s.mon (32 * k + getBits d 0
    5)).mx) ∧ t.reg (R.MON_SCNT k) = BitVec.ofNat 32 (kvGet {} s.mon (32 * k + getBits d 0 5)).count ∧ t.get
    (F.MON_SINFO_UNIT k) = getBits d 0 5 ∧ kvGet {} t.mon (32 * k + getBits d 0 5) = (if getBits d 8 1 = 1 then {}
    else kvGet {} s.mon (32 * k + getBits d 0 5))) ∧
  (∀ (s : State) (p : Path) (d : Word), s.Reaches p (Pg.MON 0) → s.is (F.LT_CTL_LOCK 0) = false → getBits d 0 4 < 12
    → ∃ t, Sys2Proof.Machine.exec (.ltAdd p d) s = .next t ∧ (t.reg (R.LT_CNT_LO 0 (getBits d 0 4))).toNat + 2 ^ 32
    * t.get (F.LT_CNT_HI_CNT 0 (getBits d 0 4)) = min (2 ^ 48 - 1) ((s.reg (R.LT_CNT_LO 0 (getBits d 0 4))).toNat +
    2 ^ 32 * s.get (F.LT_CNT_HI_CNT 0 (getBits d 0 4)) + ((s.reg (R.LT_ADDLO 0)).toNat + 2 ^ 32 * s.get
    (F.LT_ADDHI_ADD 0)))) ∧
  (∀ (s : State) (p : Path), s.Reaches p (Pg.MON 0) → ∃ t, Sys2Proof.Machine.exec (.ltLock p) s = .next t ∧ t.get
    (F.LT_CTL_LOCK 0) = 1) ∧
  (∀ (s : State), s.alive = true → sFinite (s.win 8).mean = true → (s.reg (R.LT_CNT_LO 0 (2 + tempBin (sVal (s.win
    8).mean).floor))).toNat < 2 ^ 32 - 1 → ∃ t, Sys2Proof.Machine.exec .lifetimeSecond s = .next t ∧ (t.reg
    (R.LT_CNT_LO 0 (2 + tempBin (sVal (s.win 8).mean).floor))).toNat = (s.reg (R.LT_CNT_LO 0 (2 + tempBin (sVal
    (s.win 8).mean).floor))).toNat + 1) ∧
  (∀ (s : State), s.alive = true → (sFinite (s.reg (R.LT_CAPIN 0)) && sLt 0 (s.reg (R.LT_CAPIN 0))) = true → (s.reg
    (R.LT_CNT_LO 0 11)).toNat < 2 ^ 32 - 1 → ∃ t, Sys2Proof.Machine.exec .lifetimeHour s = .next t ∧ (t.reg
    (R.LT_CNT_LO 0 11)).toNat = (s.reg (R.LT_CNT_LO 0 11)).toNat + 1 ∧ (t.reg (R.LT_CNT_LO 0 10)).toNat + 2 ^ 32 *
    t.get (F.LT_CNT_HI_CNT 0 10) = min (2 ^ 48 - 1) ((s.reg (R.LT_CNT_LO 0 10)).toNat + 2 ^ 32 * s.get
    (F.LT_CNT_HI_CNT 0 10) + (dVal (dMul (sToD (s.reg (R.LT_CAPIN 0))) (dInt 1000000))).roundAway.toNat)) ∧
  (∀ (s : State) (p : Nat), s.stnOn = true → p < 2 → s.linkUp p = false → ∃ t, Sys2Proof.Machine.exec
    (.stationLinkUp p) s = .next t ∧ t.linkUp p = true ∧ bitOf (t.reg (R.PG_EVT Pg.STN)).toNat 8 = true) ∧
  (∀ (s : State) (f : EthRx) (str : List Byte), s.stnOn = true → s.EthTaken f → s.stnKind f = .kx → s.destTaken
    (innerBody f) = true → etolwickFmt (innerBody f) = true → etolwickBody (innerBody f) = str → s.stn.keys.priv ≠ 0
    → kxSound str (pubOf s.stn.keys.priv ++ kxEph str) = true → s.isPeer (keyId (kxPub str)) 1 = true → (ecdhX
    s.stn.keys.priv (kxEph str)).isSome = true → ∃ t, Sys2Proof.Machine.exec (.stationKxRx f) s = .next t ∧ t.is
    F.STN_STAT_KEYED = true ∧ t.stn.keys.rx.isSome = true ∧ t.stn.keys.tx.isSome = true ∧ t.stn.keys.txSeq = 0 ∧
    bitOf (t.reg (R.PG_EVT Pg.STN)).toNat 17 = true) ∧
  (∀ (s : State) (p : Path), s.Reaches p Pg.STN → s.stnOn = true → s.isHub = true → s.stn.txq = [] → s.stnPorts.all
    (fun q => s.laneSends (6 + q)) = true → ∃ t, Sys2Proof.Machine.exec (.stnRekey p) s = .next t ∧ t.is
    F.STN_STAT_KEYED = false ∧ t.stn.high = none ∧ t.stn.keys.rx = none ∧ t.stn.keys.priv ≠ 0 ∧ t.stn.sent.length =
    s.stnPorts.length) ∧
  (∀ (s : State) (p : Path), s.Reaches p Pg.STN → ∃ t, Sys2Proof.Machine.exec (.stnClrcnt p) s = .next t ∧ t.reg
    R.STN_FCNT = 0 ∧ t.reg R.STN_FCNT2 = 0 ∧ t.reg R.STN_SVCNT = 0 ∧ t.reg R.STN_TXCNT = 0 ∧ t.reg (R.STN_PRX 0) = 0
    ∧ t.reg (R.STN_PERR 1) = 0 ∧ t.get F.STN_STRM_STRDROP = 0 ∧ t.stn = s.stn) ∧
  (∀ (s : State) (f : EthRx), s.stnOn = true → s.EthTaken f → s.stnKind f = .setpoint → s.destTaken (innerBody f) =
    true → etolwickFmt (innerBody f) = true → s.spFmt (etolwickBody (innerBody f)) = true → s.stnTagOk (innerBody f)
    = true → s.seqNew (beAt (innerBody f) 4 6) = true → beAt (innerBody f) 4 6 < 2 ^ 40 → ∃ t,
    Sys2Proof.Machine.exec (.setpointRx f) s = .next t ∧ t.stn.pend = some (s.spParse (etolwickBody (innerBody f)))
    ∧ t.stn.active = s.stn.active ∧ t.stn.seen.contains (beAt (innerBody f) 4 6) = true ∧ t.get F.STN_FCNT_SPOK =
    (s.get F.STN_FCNT_SPOK + 1) % 2 ^ 16) ∧
  (∀ (s : State), s.stnOn = true → s.is F.STN_STAT_SPF = true → ∃ t, Sys2Proof.Machine.exec .spStale s = .next t ∧
    t.is F.STN_STAT_SPF = false ∧ t.stn = s.stn ∧ bitOf (t.reg (R.PG_EVT Pg.STN)).toNat 9 = true) ∧
  (∀ (s : State) (f : EthRx) (r : StnRec), s.stnOn = true → s.isHub = true → s.EthTaken f → s.stnKind f = .mgmt →
    s.destTaken (innerBody f) = true → etolwickFmt (innerBody f) = true → requestOf (etolwickBody (innerBody f)) =
    some [r] → s.stnTagOk (innerBody f) = true → s.seqNew (beAt (innerBody f) 4 6) = true → beAt (innerBody f) 4 6 <
    2 ^ 40 → r.valid = true → r.op = 1 → (s.sch.held.any fun h => h.1 == 4) = false → ∃ t, Sys2Proof.Machine.exec
    (.mgmtRequestRx f) s = .next t ∧ ((kvFind t.stn.reqs s.stn.nextReq).map fun x => (x.src, x.recs.map fun y =>
    (y.tid, y.ans.isSome))) = some (f.src, [(r.tid, true)]) ∧ t.stn.nextReq = (s.stn.nextReq + 1) % 2 ^ 28) ∧
  (∀ (s : State) (q : Nat) (x : StnReq), s.stnOn = true → kvFind s.stn.reqs q = some x → (x.recs.all fun r =>
    r.ans.isSome) = true → s.stn.txq = [] → s.stnPorts.all (fun p => s.laneSends (6 + p)) = true → s.stn.keys.txSeq
    + 1 < 2 ^ 40 → ∃ t, Sys2Proof.Machine.exec (.mgmtResponseTx q) s = .next t ∧ kvFind t.stn.reqs q = none ∧
    t.stn.sent.length = s.stnPorts.length ∧ t.stn.keys.txSeq = s.stn.keys.txSeq + 1) ∧
  (∀ (s : State) (f : EthRx) (c : Nat) (a : Nat × Nat × List Byte), s.stnOn = true → s.EthTaken f → s.stnKind f =
    .sv c → c < s.stn.sv.length → svAsdus (innerBody f) = [a] → a.2.2.length = 64 → ∃ t, Sys2Proof.Machine.exec
    (.svFrameRx f) s = .next t ∧ (nth t.stn.sv c []).head? = some (s.svSample c f.time a) ∧ t.get F.STN_SVCNT_OK =
    (s.get F.STN_SVCNT_OK + 1) % 2 ^ 16) ∧
  (∀ (s : State) (c : Nat), s.stnOn = true → s.isHub = true → c < 4 → s.is (F.STN_SVCFG_EN c) = true → ∃ t,
    Sys2Proof.Machine.exec (.svLost c) s = .next t ∧ t.get F.STN_SVCNT_LOST = satAdd F.STN_SVCNT_LOST.w (s.get
    F.STN_SVCNT_LOST) 1 ∧ bitOf (t.reg (R.PG_EVT Pg.STN)).toNat 13 = true) ∧
  (∀ (s : State) (p : Path) (i : Nat), s.Reaches p Pg.STN → s.stnOn = true → i < 32 → s.stn.txq = [] → s.memErr = []
    → s.stnPorts.all (fun q => s.laneSends (6 + q)) = true → bitOf (s.txDesc i).2.1 12 = false → bitOf (s.txDesc
    i).2.1 13 = false → bitOf (s.txDesc i).2.1 14 = false → ∃ t, Sys2Proof.Machine.exec (.txPost p (BitVec.ofNat 32
    i)) s = .next t ∧ t.stn.txq = [] ∧ t.stn.sent.length = s.stnPorts.length ∧ (t.stn.sent.all fun e => e.2.take
    ((s.txDesc i).2.1 % 2048) == s.bytes (s.txDesc i).1 ((s.txDesc i).2.1 % 2048)) = true) ∧
  (∀ (s : State) (i : Nat), s.stnOn = true → s.runs Pg.TIME = true → s.stn.txq = [i] → s.stn.later = [] → s.memErr =
    [] → s.stnPorts.all (fun p => s.laneSends (6 + p)) = true → bitOf (s.txDesc i).2.1 12 = true → bitOf (s.txDesc
    i).2.1 13 = false → bitOf (s.txDesc i).2.1 14 = false → ∃ t, Sys2Proof.Machine.exec .timedTx s = .next t ∧
    t.stn.txq = [] ∧ t.stn.sent.length = s.stnPorts.length ∧ (s.txDesc i).2.2 ≤ t.now) ∧
  (∀ (s : State) (f : EthRx), s.stnOn = true → s.EthTaken f → s.stnKind f = .other → (s.get F.STN_RXPTR_HEAD + 1) %
    32 ≠ s.get F.STN_RXPTR_TAIL → s.memErr = [] → s.get F.ERR_INJ_NBIT = 0 → s.isProtected ((s.reg
    R.STN_RXBASE).toNat + 2048 * s.get F.STN_RXPTR_HEAD) (f.body.length + 18) = false → ∃ t, Sys2Proof.Machine.exec
    (.rxToRing f) s = .next t ∧ t.get F.STN_RXPTR_HEAD = (s.get F.STN_RXPTR_HEAD + 1) % 32 ∧ t.bytes ((s.reg
    R.STN_RXBASE).toNat + 2048 * s.get F.STN_RXPTR_HEAD + 4) (f.body.length + 14) = beBytes 6 f.dst ++ beBytes 6
    f.src ++ beBytes 2 f.etype ++ f.body ∧ KeepsMemBut ((s.reg R.STN_RXBASE).toNat + 2048 * s.get F.STN_RXPTR_HEAD)
    (f.body.length + 18) s t ∧ bitOf (t.reg (R.PG_EVT Pg.STN)).toNat 16 = true) ∧
  (∀ (s : State) (c : StnChunk) (l : List StnChunk), s.stnOn = true → s.isHub = true → s.stn.strm = c :: l →
    s.stnPorts ≠ [] → s.is F.STN_STAT_KEYED = true → s.memErr = [] → s.stn.txq = [] → s.stnPorts.all (fun p =>
    s.laneSends (6 + p)) = true → s.stn.keys.txSeq + 4 < 2 ^ 40 → ∃ t, Sys2Proof.Machine.exec .streamTx s = .next t
    ∧ t.stn.strm = l ∧ t.stn.sent.length = 4 * s.stnPorts.length ∧ t.stn.keys.txSeq = s.stn.keys.txSeq + 4 ∧
    KeepsMem s t) ∧
  (∀ (s : State), s.stnOn = true → s.is F.STN_CFG_PRP = true → s.stn.txq = [] → s.stnPorts.all (fun p => s.laneSends
    (6 + p)) = true → ∃ t, Sys2Proof.Machine.exec .prpSupervisionTx s = .next t ∧ t.stn.prpAt.isSome = true ∧
    t.stn.sent.length = s.stnPorts.length ∧ t.stn.prpSeq = (s.stn.prpSeq + 1) % 65536) ∧
  (∀ (s : State), s.pins.vddio = true → s.pins.rails = false → ∃ t, Sys2Proof.Machine.exec .supplyMonitorRelease s =
    .next t ∧ t.pins = { s.pins with rails := true } ∧ t.regs = s.regs ∧ t.mem = s.mem ∧ t.phase = if s.pins.nRst &&
    s.phase == .held then .pullUp else s.phase) ∧
  (∀ (s : State) (n : Nat), s.Settled → s.gateLive = true → n < 4 → ∃ t, Sys2Proof.Machine.exec (.faultSourceRelease
    n) s = .next t ∧ bitOf t.gate.live n = false ∧ t.gate.latch = s.gate.latch ∧ KeepsRegs [] s t ∧ KeepsMem s t) ∧
  (∀ (s : State) (pin : BlockPin), s.hubLive = true → ∃ t, Sys2Proof.Machine.exec (.hubSourceRelease pin) s = .next
    t ∧ bitOf t.safe.asserted (pinBit pin) = false ∧ t.safe.alatch = s.safe.alatch) ∧
  (∀ (s : State) (p : Nat), s.stnOn = true → p < 2 → s.linkUp p = true → ∃ t, Sys2Proof.Machine.exec
    (.stationLinkDown p) s = .next t ∧ t.linkUp p = false ∧ bitOf (t.reg (R.PG_EVT Pg.STN)).toNat 8 = true ∧ t.stn =
    s.stn) ∧
  (∀ (s : State), s.alive = true → s.is F.DBG_STAT_OPEN = true → s.isHub = true → s.is F.SAFE_HCFG_DBGBLK = true → ∃
    t, Sys2Proof.Machine.exec .supervisorDebugHalt s = .next t ∧ t.sup.halted = true ∧ t.safe.breq = true ∧ bitOf
    t.safe.breqSrc 5 = true ∧ t.safe.vb = false) ∧
  (∀ (s : State), s.Settled → s.alive = true → s.isHub = true → Sys2Proof.Machine.exec .ppsPulseEnd s = .next
    { s with time := { s.time with pps := false } }) ∧
  (∀ (s : State), s.Settled → s.alive = true → s.isHub = true → Sys2Proof.Machine.exec .cycleMarkEnd s = .next
    { s with time := { s.time with mark := false } }) ∧
  (∀ (s : State) (n x : Nat), s.Settled → s.alive = true → s.isHub = true → s.runs Pg.TIME = true → n < 6 → nth
    s.gate.tevEnd n none = some x → ∃ t, Sys2Proof.Machine.exec (.tevPulseEnd n) s = .next t ∧ nth t.gate.tev n true
    = false ∧ nth t.gate.tevEnd n none = none ∧ x ≤ t.now) ∧
  (∀ (s : State), s.Settled → s.gateLive = true → 1 < s.gate.thyLeft → max 1 (s.get F.GATE_THY_PW) < max 1 (s.get
    F.GATE_THY_PER) → Sys2Proof.Machine.exec .thyristorPulse s = .next
    { s with gate := { s.gate with gate4 := !s.gate.gate4, thyLeft := if s.gate.gate4 then s.gate.thyLeft else s.gate.thyLeft - 1 } })
end

