-- ==== Sys2Proof/Laws/Kv.lean ====
section
/-! SUPPORT. The sorted association lists that hold registers, memory and tables: what a lookup finds after an update, and
that updates keep the keys strictly rising. -/

namespace Sys2Proof.Machine

variable {α : Type}

theorem kvFind_kvSet_same (m : Kv α) (k : Nat) (v : α) : kvFind (kvSet m k v) k = some v := by
  induction m with
  | nil => simp [kvSet, kvFind]
  | cons e m ih =>
    obtain ⟨a, x⟩ := e
    unfold kvSet
    split
    · simp [kvFind]
    · split
      · simp [kvFind]
      · rename_i h
        simp [kvFind, h, ih]

theorem kvFind_kvSet_ne (m : Kv α) {k j : Nat} (v : α) (h : j ≠ k) : kvFind (kvSet m k v) j = kvFind m j := by
  induction m with
  | nil => simp [kvSet, kvFind, Ne.symm h]
  | cons e m ih =>
    obtain ⟨a, x⟩ := e
    unfold kvSet
    split
    · simp [kvFind, Ne.symm h]
    · split
      · rename_i hk
        subst hk
        simp [kvFind, Ne.symm h]
      · simp [kvFind, ih]

theorem kvFind_kvErase_same (m : Kv α) (k : Nat) : kvFind (kvErase m k) k = none := by
  induction m with
  | nil => rfl
  | cons e m ih =>
    obtain ⟨a, x⟩ := e
    unfold kvErase
    split
    · exact ih
    · rename_i h
      simp [kvFind, h, ih]

theorem kvFind_kvErase_ne (m : Kv α) {k j : Nat} (h : j ≠ k) : kvFind (kvErase m k) j = kvFind m j := by
  induction m with
  | nil => rfl
  | cons e m ih =>
    obtain ⟨a, x⟩ := e
    unfold kvErase
    split
    · rename_i hk
      subst hk
      simp [kvFind, Ne.symm h, ih]
    · simp [kvFind, ih]

theorem kvFind_kvKeep (p : Nat → Bool) (m : Kv α) (k : Nat) :
    kvFind (kvKeep p m) k = if p k then kvFind m k else none := by
  induction m with
  | nil => simp [kvKeep, kvFind]
  | cons e m ih =>
    obtain ⟨a, x⟩ := e
    unfold kvKeep at ih ⊢
    simp only [List.filter_cons]
    by_cases hp : p a = true
    · by_cases hk : a = k
      · subst hk
        simp [hp, kvFind]
      · simp [hp, kvFind, hk, ih]
    · by_cases hk : a = k
      · subst hk
        simp [hp, ih]
      · simp [hp, kvFind, hk, ih]

theorem kvSortedFrom_mono {lo lo' : Nat} {m : Kv α} (h : lo' ≤ lo) (hm : kvSortedFrom lo m = true) :
    kvSortedFrom lo' m = true := by
  cases m with
  | nil => rfl
  | cons e m =>
    simp only [kvSortedFrom, Bool.and_eq_true, decide_eq_true_eq] at hm ⊢
    exact ⟨by omega, hm.2⟩

theorem kvSortedFrom_kvSet {lo : Nat} (m : Kv α) (k : Nat) (v : α) (h : lo ≤ k) (hm : kvSortedFrom lo m = true) :
    kvSortedFrom lo (kvSet m k v) = true := by
  induction m generalizing lo with
  | nil => simp [kvSet, kvSortedFrom, h]
  | cons e m ih =>
    obtain ⟨a, x⟩ := e
    simp only [kvSortedFrom, Bool.and_eq_true, decide_eq_true_eq] at hm
    unfold kvSet
    split
    · simp only [kvSortedFrom, Bool.and_eq_true, decide_eq_true_eq]
      exact ⟨h, by omega, hm.2⟩
    · split
      · rename_i hk
        subst hk
        simp only [kvSortedFrom, Bool.and_eq_true, decide_eq_true_eq]
        exact hm
      · simp only [kvSortedFrom, Bool.and_eq_true, decide_eq_true_eq]
        exact ⟨hm.1, ih (by omega) hm.2⟩

theorem kvSorted_kvSet (m : Kv α) (k : Nat) (v : α) (hm : kvSorted m = true) : kvSorted (kvSet m k v) = true :=
  kvSortedFrom_kvSet m k v (Nat.zero_le k) hm

theorem kvSortedFrom_filter {lo : Nat} (p : Nat × α → Bool) (m : Kv α) (hm : kvSortedFrom lo m = true) :
    kvSortedFrom lo (m.filter p) = true := by
  induction m generalizing lo with
  | nil => rfl
  | cons e m ih =>
    obtain ⟨a, x⟩ := e
    simp only [kvSortedFrom, Bool.and_eq_true, decide_eq_true_eq] at hm
    simp only [List.filter_cons]
    split
    · simp only [kvSortedFrom, Bool.and_eq_true, decide_eq_true_eq]
      exact ⟨hm.1, ih hm.2⟩
    · exact kvSortedFrom_mono (by omega) (ih hm.2)

theorem kvErase_eq_filter (m : Kv α) (k : Nat) : kvErase m k = m.filter fun e => decide (e.1 ≠ k) := by
  induction m with
  | nil => rfl
  | cons e m ih =>
    obtain ⟨a, x⟩ := e
    by_cases h : a = k <;> simp [kvErase, h, ih]

theorem kvSorted_kvErase (m : Kv α) (k : Nat) (hm : kvSorted m = true) : kvSorted (kvErase m k) = true := by
  rw [kvErase_eq_filter]
  exact kvSortedFrom_filter _ m hm

theorem kvSorted_kvKeep (p : Nat → Bool) (m : Kv α) (hm : kvSorted m = true) : kvSorted (kvKeep p m) = true :=
  kvSortedFrom_filter _ m hm

theorem mem_kvSet {m : Kv α} {k : Nat} {v : α} {e : Nat × α} (h : e ∈ kvSet m k v) : e = (k, v) ∨ e ∈ m := by
  induction m with
  | nil => simpa [kvSet] using h
  | cons b m ih =>
    obtain ⟨a, x⟩ := b
    unfold kvSet at h
    split at h
    · simpa using h
    · split at h
      · rcases List.mem_cons.mp h with h | h
        · exact .inl h
        · exact .inr (List.mem_cons_of_mem _ h)
      · rcases List.mem_cons.mp h with h | h
        · exact .inr (h ▸ List.mem_cons_self)
        · rcases ih h with h | h
          · exact .inl h
          · exact .inr (List.mem_cons_of_mem _ h)

end Sys2Proof.Machine
end

