-- ==== Sys2Proof/Laws/State.lean ====
section
/-! SUPPORT. What each basic update of the state leaves alone, field by field, so that no proof unfolds a record update. -/

namespace Sys2Proof.Machine.State

/-! `setReg` changes only `regs`. -/

@[simp] theorem setReg_role (s : State) (a : Nat) (v : Word) : (s.setReg a v).role = s.role := rfl
@[simp] theorem setReg_phase (s : State) (a : Nat) (v : Word) : (s.setReg a v).phase = s.phase := rfl
@[simp] theorem setReg_grade (s : State) (a : Nat) (v : Word) : (s.setReg a v).grade = s.grade := rfl
@[simp] theorem setReg_pins (s : State) (a : Nat) (v : Word) : (s.setReg a v).pins = s.pins := rfl
@[simp] theorem setReg_act (s : State) (a : Nat) (v : Word) : (s.setReg a v).act = s.act := rfl
@[simp] theorem setReg_mem (s : State) (a : Nat) (v : Word) : (s.setReg a v).mem = s.mem := rfl
@[simp] theorem setReg_resp (s : State) (a : Nat) (v : Word) : (s.setReg a v).resp = s.resp := rfl
@[simp] theorem setReg_host (s : State) (a : Nat) (v : Word) : (s.setReg a v).host = s.host := rfl
@[simp] theorem setReg_boot (s : State) (a : Nat) (v : Word) : (s.setReg a v).boot = s.boot := rfl
@[simp] theorem setReg_sup (s : State) (a : Nat) (v : Word) : (s.setReg a v).sup = s.sup := rfl
@[simp] theorem setReg_clk (s : State) (a : Nat) (v : Word) : (s.setReg a v).clk = s.clk := rfl
@[simp] theorem setReg_sec (s : State) (a : Nat) (v : Word) : (s.setReg a v).sec = s.sec := rfl
@[simp] theorem setReg_err (s : State) (a : Nat) (v : Word) : (s.setReg a v).err = s.err := rfl
@[simp] theorem setReg_freeCtr (s : State) (a : Nat) (v : Word) : (s.setReg a v).freeCtr = s.freeCtr := rfl
@[simp] theorem setReg_uart (s : State) (a : Nat) (v : Word) : (s.setReg a v).uart = s.uart := rfl
@[simp] theorem setReg_now (s : State) (a : Nat) (v : Word) : (s.setReg a v).now = s.now := rfl
@[simp] theorem setReg_elapsed (s : State) (a : Nat) (v : Word) : (s.setReg a v).elapsed = s.elapsed := rfl
@[simp] theorem setReg_time (s : State) (a : Nat) (v : Word) : (s.setReg a v).time = s.time := rfl
@[simp] theorem setReg_lanes (s : State) (a : Nat) (v : Word) : (s.setReg a v).lanes = s.lanes := rfl
@[simp] theorem setReg_rx (s : State) (a : Nat) (v : Word) : (s.setReg a v).rx = s.rx := rfl
@[simp] theorem setReg_ports (s : State) (a : Nat) (v : Word) : (s.setReg a v).ports = s.ports := rfl
@[simp] theorem setReg_berths (s : State) (a : Nat) (v : Word) : (s.setReg a v).berths = s.berths := rfl
@[simp] theorem setReg_rank (s : State) (a : Nat) (v : Word) : (s.setReg a v).rank = s.rank := rfl
@[simp] theorem setReg_eng (s : State) (a : Nat) (v : Word) : (s.setReg a v).eng = s.eng := rfl
@[simp] theorem setReg_comp (s : State) (a : Nat) (v : Word) : (s.setReg a v).comp = s.comp := rfl
@[simp] theorem setReg_mod (s : State) (a : Nat) (v : Word) : (s.setReg a v).mod = s.mod := rfl
@[simp] theorem setReg_cmod (s : State) (a : Nat) (v : Word) : (s.setReg a v).cmod = s.cmod := rfl
@[simp] theorem setReg_gate (s : State) (a : Nat) (v : Word) : (s.setReg a v).gate = s.gate := rfl
@[simp] theorem setReg_safe (s : State) (a : Nat) (v : Word) : (s.setReg a v).safe = s.safe := rfl
@[simp] theorem setReg_adc (s : State) (a : Nat) (v : Word) : (s.setReg a v).adc = s.adc := rfl
@[simp] theorem setReg_twin (s : State) (a : Nat) (v : Word) : (s.setReg a v).twin = s.twin := rfl
@[simp] theorem setReg_refLinks (s : State) (a : Nat) (v : Word) : (s.setReg a v).refLinks = s.refLinks := rfl
@[simp] theorem setReg_refPairs (s : State) (a : Nat) (v : Word) : (s.setReg a v).refPairs = s.refPairs := rfl
@[simp] theorem setReg_sch (s : State) (a : Nat) (v : Word) : (s.setReg a v).sch = s.sch := rfl
@[simp] theorem setReg_memErr (s : State) (a : Nat) (v : Word) : (s.setReg a v).memErr = s.memErr := rfl
@[simp] theorem setReg_arb (s : State) (a : Nat) (v : Word) : (s.setReg a v).arb = s.arb := rfl
@[simp] theorem setReg_bb (s : State) (a : Nat) (v : Word) : (s.setReg a v).bb = s.bb := rfl
@[simp] theorem setReg_mon (s : State) (a : Nat) (v : Word) : (s.setReg a v).mon = s.mon := rfl
@[simp] theorem setReg_recd (s : State) (a : Nat) (v : Word) : (s.setReg a v).recd = s.recd := rfl
@[simp] theorem setReg_stn (s : State) (a : Nat) (v : Word) : (s.setReg a v).stn = s.stn := rfl
@[simp] theorem setReg_pending (s : State) (a : Nat) (v : Word) : (s.setReg a v).pending = s.pending := rfl

/-! `set` changes only `regs`. -/

@[simp] theorem set_role (s : State) (f : Fld) (n : Nat) : (s.set f n).role = s.role := rfl
@[simp] theorem set_phase (s : State) (f : Fld) (n : Nat) : (s.set f n).phase = s.phase := rfl
@[simp] theorem set_grade (s : State) (f : Fld) (n : Nat) : (s.set f n).grade = s.grade := rfl
@[simp] theorem set_pins (s : State) (f : Fld) (n : Nat) : (s.set f n).pins = s.pins := rfl
@[simp] theorem set_act (s : State) (f : Fld) (n : Nat) : (s.set f n).act = s.act := rfl
@[simp] theorem set_mem (s : State) (f : Fld) (n : Nat) : (s.set f n).mem = s.mem := rfl
@[simp] theorem set_resp (s : State) (f : Fld) (n : Nat) : (s.set f n).resp = s.resp := rfl
@[simp] theorem set_host (s : State) (f : Fld) (n : Nat) : (s.set f n).host = s.host := rfl
@[simp] theorem set_boot (s : State) (f : Fld) (n : Nat) : (s.set f n).boot = s.boot := rfl
@[simp] theorem set_sup (s : State) (f : Fld) (n : Nat) : (s.set f n).sup = s.sup := rfl
@[simp] theorem set_clk (s : State) (f : Fld) (n : Nat) : (s.set f n).clk = s.clk := rfl
@[simp] theorem set_sec (s : State) (f : Fld) (n : Nat) : (s.set f n).sec = s.sec := rfl
@[simp] theorem set_err (s : State) (f : Fld) (n : Nat) : (s.set f n).err = s.err := rfl
@[simp] theorem set_freeCtr (s : State) (f : Fld) (n : Nat) : (s.set f n).freeCtr = s.freeCtr := rfl
@[simp] theorem set_uart (s : State) (f : Fld) (n : Nat) : (s.set f n).uart = s.uart := rfl
@[simp] theorem set_now (s : State) (f : Fld) (n : Nat) : (s.set f n).now = s.now := rfl
@[simp] theorem set_elapsed (s : State) (f : Fld) (n : Nat) : (s.set f n).elapsed = s.elapsed := rfl
@[simp] theorem set_time (s : State) (f : Fld) (n : Nat) : (s.set f n).time = s.time := rfl
@[simp] theorem set_lanes (s : State) (f : Fld) (n : Nat) : (s.set f n).lanes = s.lanes := rfl
@[simp] theorem set_rx (s : State) (f : Fld) (n : Nat) : (s.set f n).rx = s.rx := rfl
@[simp] theorem set_ports (s : State) (f : Fld) (n : Nat) : (s.set f n).ports = s.ports := rfl
@[simp] theorem set_berths (s : State) (f : Fld) (n : Nat) : (s.set f n).berths = s.berths := rfl
@[simp] theorem set_rank (s : State) (f : Fld) (n : Nat) : (s.set f n).rank = s.rank := rfl
@[simp] theorem set_eng (s : State) (f : Fld) (n : Nat) : (s.set f n).eng = s.eng := rfl
@[simp] theorem set_comp (s : State) (f : Fld) (n : Nat) : (s.set f n).comp = s.comp := rfl
@[simp] theorem set_mod (s : State) (f : Fld) (n : Nat) : (s.set f n).mod = s.mod := rfl
@[simp] theorem set_cmod (s : State) (f : Fld) (n : Nat) : (s.set f n).cmod = s.cmod := rfl
@[simp] theorem set_gate (s : State) (f : Fld) (n : Nat) : (s.set f n).gate = s.gate := rfl
@[simp] theorem set_safe (s : State) (f : Fld) (n : Nat) : (s.set f n).safe = s.safe := rfl
@[simp] theorem set_adc (s : State) (f : Fld) (n : Nat) : (s.set f n).adc = s.adc := rfl
@[simp] theorem set_twin (s : State) (f : Fld) (n : Nat) : (s.set f n).twin = s.twin := rfl
@[simp] theorem set_refLinks (s : State) (f : Fld) (n : Nat) : (s.set f n).refLinks = s.refLinks := rfl
@[simp] theorem set_refPairs (s : State) (f : Fld) (n : Nat) : (s.set f n).refPairs = s.refPairs := rfl
@[simp] theorem set_sch (s : State) (f : Fld) (n : Nat) : (s.set f n).sch = s.sch := rfl
@[simp] theorem set_memErr (s : State) (f : Fld) (n : Nat) : (s.set f n).memErr = s.memErr := rfl
@[simp] theorem set_arb (s : State) (f : Fld) (n : Nat) : (s.set f n).arb = s.arb := rfl
@[simp] theorem set_bb (s : State) (f : Fld) (n : Nat) : (s.set f n).bb = s.bb := rfl
@[simp] theorem set_mon (s : State) (f : Fld) (n : Nat) : (s.set f n).mon = s.mon := rfl
@[simp] theorem set_recd (s : State) (f : Fld) (n : Nat) : (s.set f n).recd = s.recd := rfl
@[simp] theorem set_stn (s : State) (f : Fld) (n : Nat) : (s.set f n).stn = s.stn := rfl
@[simp] theorem set_pending (s : State) (f : Fld) (n : Nat) : (s.set f n).pending = s.pending := rfl

/-! `bump` changes only `regs`. -/

@[simp] theorem bump_role (s : State) (f : Fld) (k : Nat) : (s.bump f k).role = s.role := rfl
@[simp] theorem bump_phase (s : State) (f : Fld) (k : Nat) : (s.bump f k).phase = s.phase := rfl
@[simp] theorem bump_grade (s : State) (f : Fld) (k : Nat) : (s.bump f k).grade = s.grade := rfl
@[simp] theorem bump_pins (s : State) (f : Fld) (k : Nat) : (s.bump f k).pins = s.pins := rfl
@[simp] theorem bump_act (s : State) (f : Fld) (k : Nat) : (s.bump f k).act = s.act := rfl
@[simp] theorem bump_mem (s : State) (f : Fld) (k : Nat) : (s.bump f k).mem = s.mem := rfl
@[simp] theorem bump_resp (s : State) (f : Fld) (k : Nat) : (s.bump f k).resp = s.resp := rfl
@[simp] theorem bump_host (s : State) (f : Fld) (k : Nat) : (s.bump f k).host = s.host := rfl
@[simp] theorem bump_boot (s : State) (f : Fld) (k : Nat) : (s.bump f k).boot = s.boot := rfl
@[simp] theorem bump_sup (s : State) (f : Fld) (k : Nat) : (s.bump f k).sup = s.sup := rfl
@[simp] theorem bump_clk (s : State) (f : Fld) (k : Nat) : (s.bump f k).clk = s.clk := rfl
@[simp] theorem bump_sec (s : State) (f : Fld) (k : Nat) : (s.bump f k).sec = s.sec := rfl
@[simp] theorem bump_err (s : State) (f : Fld) (k : Nat) : (s.bump f k).err = s.err := rfl
@[simp] theorem bump_freeCtr (s : State) (f : Fld) (k : Nat) : (s.bump f k).freeCtr = s.freeCtr := rfl
@[simp] theorem bump_uart (s : State) (f : Fld) (k : Nat) : (s.bump f k).uart = s.uart := rfl
@[simp] theorem bump_now (s : State) (f : Fld) (k : Nat) : (s.bump f k).now = s.now := rfl
@[simp] theorem bump_elapsed (s : State) (f : Fld) (k : Nat) : (s.bump f k).elapsed = s.elapsed := rfl
@[simp] theorem bump_time (s : State) (f : Fld) (k : Nat) : (s.bump f k).time = s.time := rfl
@[simp] theorem bump_lanes (s : State) (f : Fld) (k : Nat) : (s.bump f k).lanes = s.lanes := rfl
@[simp] theorem bump_rx (s : State) (f : Fld) (k : Nat) : (s.bump f k).rx = s.rx := rfl
@[simp] theorem bump_ports (s : State) (f : Fld) (k : Nat) : (s.bump f k).ports = s.ports := rfl
@[simp] theorem bump_berths (s : State) (f : Fld) (k : Nat) : (s.bump f k).berths = s.berths := rfl
@[simp] theorem bump_rank (s : State) (f : Fld) (k : Nat) : (s.bump f k).rank = s.rank := rfl
@[simp] theorem bump_eng (s : State) (f : Fld) (k : Nat) : (s.bump f k).eng = s.eng := rfl
@[simp] theorem bump_comp (s : State) (f : Fld) (k : Nat) : (s.bump f k).comp = s.comp := rfl
@[simp] theorem bump_mod (s : State) (f : Fld) (k : Nat) : (s.bump f k).mod = s.mod := rfl
@[simp] theorem bump_cmod (s : State) (f : Fld) (k : Nat) : (s.bump f k).cmod = s.cmod := rfl
@[simp] theorem bump_gate (s : State) (f : Fld) (k : Nat) : (s.bump f k).gate = s.gate := rfl
@[simp] theorem bump_safe (s : State) (f : Fld) (k : Nat) : (s.bump f k).safe = s.safe := rfl
@[simp] theorem bump_adc (s : State) (f : Fld) (k : Nat) : (s.bump f k).adc = s.adc := rfl
@[simp] theorem bump_twin (s : State) (f : Fld) (k : Nat) : (s.bump f k).twin = s.twin := rfl
@[simp] theorem bump_refLinks (s : State) (f : Fld) (k : Nat) : (s.bump f k).refLinks = s.refLinks := rfl
@[simp] theorem bump_refPairs (s : State) (f : Fld) (k : Nat) : (s.bump f k).refPairs = s.refPairs := rfl
@[simp] theorem bump_sch (s : State) (f : Fld) (k : Nat) : (s.bump f k).sch = s.sch := rfl
@[simp] theorem bump_memErr (s : State) (f : Fld) (k : Nat) : (s.bump f k).memErr = s.memErr := rfl
@[simp] theorem bump_arb (s : State) (f : Fld) (k : Nat) : (s.bump f k).arb = s.arb := rfl
@[simp] theorem bump_bb (s : State) (f : Fld) (k : Nat) : (s.bump f k).bb = s.bb := rfl
@[simp] theorem bump_mon (s : State) (f : Fld) (k : Nat) : (s.bump f k).mon = s.mon := rfl
@[simp] theorem bump_recd (s : State) (f : Fld) (k : Nat) : (s.bump f k).recd = s.recd := rfl
@[simp] theorem bump_stn (s : State) (f : Fld) (k : Nat) : (s.bump f k).stn = s.stn := rfl
@[simp] theorem bump_pending (s : State) (f : Fld) (k : Nat) : (s.bump f k).pending = s.pending := rfl

/-! `count` changes only `regs`. -/

@[simp] theorem count_role (s : State) (f : Fld) (k : Nat) : (s.count f k).role = s.role := rfl
@[simp] theorem count_phase (s : State) (f : Fld) (k : Nat) : (s.count f k).phase = s.phase := rfl
@[simp] theorem count_grade (s : State) (f : Fld) (k : Nat) : (s.count f k).grade = s.grade := rfl
@[simp] theorem count_pins (s : State) (f : Fld) (k : Nat) : (s.count f k).pins = s.pins := rfl
@[simp] theorem count_act (s : State) (f : Fld) (k : Nat) : (s.count f k).act = s.act := rfl
@[simp] theorem count_mem (s : State) (f : Fld) (k : Nat) : (s.count f k).mem = s.mem := rfl
@[simp] theorem count_resp (s : State) (f : Fld) (k : Nat) : (s.count f k).resp = s.resp := rfl
@[simp] theorem count_host (s : State) (f : Fld) (k : Nat) : (s.count f k).host = s.host := rfl
@[simp] theorem count_boot (s : State) (f : Fld) (k : Nat) : (s.count f k).boot = s.boot := rfl
@[simp] theorem count_sup (s : State) (f : Fld) (k : Nat) : (s.count f k).sup = s.sup := rfl
@[simp] theorem count_clk (s : State) (f : Fld) (k : Nat) : (s.count f k).clk = s.clk := rfl
@[simp] theorem count_sec (s : State) (f : Fld) (k : Nat) : (s.count f k).sec = s.sec := rfl
@[simp] theorem count_err (s : State) (f : Fld) (k : Nat) : (s.count f k).err = s.err := rfl
@[simp] theorem count_freeCtr (s : State) (f : Fld) (k : Nat) : (s.count f k).freeCtr = s.freeCtr := rfl
@[simp] theorem count_uart (s : State) (f : Fld) (k : Nat) : (s.count f k).uart = s.uart := rfl
@[simp] theorem count_now (s : State) (f : Fld) (k : Nat) : (s.count f k).now = s.now := rfl
@[simp] theorem count_elapsed (s : State) (f : Fld) (k : Nat) : (s.count f k).elapsed = s.elapsed := rfl
@[simp] theorem count_time (s : State) (f : Fld) (k : Nat) : (s.count f k).time = s.time := rfl
@[simp] theorem count_lanes (s : State) (f : Fld) (k : Nat) : (s.count f k).lanes = s.lanes := rfl
@[simp] theorem count_rx (s : State) (f : Fld) (k : Nat) : (s.count f k).rx = s.rx := rfl
@[simp] theorem count_ports (s : State) (f : Fld) (k : Nat) : (s.count f k).ports = s.ports := rfl
@[simp] theorem count_berths (s : State) (f : Fld) (k : Nat) : (s.count f k).berths = s.berths := rfl
@[simp] theorem count_rank (s : State) (f : Fld) (k : Nat) : (s.count f k).rank = s.rank := rfl
@[simp] theorem count_eng (s : State) (f : Fld) (k : Nat) : (s.count f k).eng = s.eng := rfl
@[simp] theorem count_comp (s : State) (f : Fld) (k : Nat) : (s.count f k).comp = s.comp := rfl
@[simp] theorem count_mod (s : State) (f : Fld) (k : Nat) : (s.count f k).mod = s.mod := rfl
@[simp] theorem count_cmod (s : State) (f : Fld) (k : Nat) : (s.count f k).cmod = s.cmod := rfl
@[simp] theorem count_gate (s : State) (f : Fld) (k : Nat) : (s.count f k).gate = s.gate := rfl
@[simp] theorem count_safe (s : State) (f : Fld) (k : Nat) : (s.count f k).safe = s.safe := rfl
@[simp] theorem count_adc (s : State) (f : Fld) (k : Nat) : (s.count f k).adc = s.adc := rfl
@[simp] theorem count_twin (s : State) (f : Fld) (k : Nat) : (s.count f k).twin = s.twin := rfl
@[simp] theorem count_refLinks (s : State) (f : Fld) (k : Nat) : (s.count f k).refLinks = s.refLinks := rfl
@[simp] theorem count_refPairs (s : State) (f : Fld) (k : Nat) : (s.count f k).refPairs = s.refPairs := rfl
@[simp] theorem count_sch (s : State) (f : Fld) (k : Nat) : (s.count f k).sch = s.sch := rfl
@[simp] theorem count_memErr (s : State) (f : Fld) (k : Nat) : (s.count f k).memErr = s.memErr := rfl
@[simp] theorem count_arb (s : State) (f : Fld) (k : Nat) : (s.count f k).arb = s.arb := rfl
@[simp] theorem count_bb (s : State) (f : Fld) (k : Nat) : (s.count f k).bb = s.bb := rfl
@[simp] theorem count_mon (s : State) (f : Fld) (k : Nat) : (s.count f k).mon = s.mon := rfl
@[simp] theorem count_recd (s : State) (f : Fld) (k : Nat) : (s.count f k).recd = s.recd := rfl
@[simp] theorem count_stn (s : State) (f : Fld) (k : Nat) : (s.count f k).stn = s.stn := rfl
@[simp] theorem count_pending (s : State) (f : Fld) (k : Nat) : (s.count f k).pending = s.pending := rfl

/-! `setByte` changes only `mem`. -/

@[simp] theorem setByte_role (s : State) (a : Nat) (b : Byte) : (s.setByte a b).role = s.role := rfl
@[simp] theorem setByte_phase (s : State) (a : Nat) (b : Byte) : (s.setByte a b).phase = s.phase := rfl
@[simp] theorem setByte_grade (s : State) (a : Nat) (b : Byte) : (s.setByte a b).grade = s.grade := rfl
@[simp] theorem setByte_pins (s : State) (a : Nat) (b : Byte) : (s.setByte a b).pins = s.pins := rfl
@[simp] theorem setByte_regs (s : State) (a : Nat) (b : Byte) : (s.setByte a b).regs = s.regs := rfl
@[simp] theorem setByte_act (s : State) (a : Nat) (b : Byte) : (s.setByte a b).act = s.act := rfl
@[simp] theorem setByte_resp (s : State) (a : Nat) (b : Byte) : (s.setByte a b).resp = s.resp := rfl
@[simp] theorem setByte_host (s : State) (a : Nat) (b : Byte) : (s.setByte a b).host = s.host := rfl
@[simp] theorem setByte_boot (s : State) (a : Nat) (b : Byte) : (s.setByte a b).boot = s.boot := rfl
@[simp] theorem setByte_sup (s : State) (a : Nat) (b : Byte) : (s.setByte a b).sup = s.sup := rfl
@[simp] theorem setByte_clk (s : State) (a : Nat) (b : Byte) : (s.setByte a b).clk = s.clk := rfl
@[simp] theorem setByte_sec (s : State) (a : Nat) (b : Byte) : (s.setByte a b).sec = s.sec := rfl
@[simp] theorem setByte_err (s : State) (a : Nat) (b : Byte) : (s.setByte a b).err = s.err := rfl
@[simp] theorem setByte_freeCtr (s : State) (a : Nat) (b : Byte) : (s.setByte a b).freeCtr = s.freeCtr := rfl
@[simp] theorem setByte_uart (s : State) (a : Nat) (b : Byte) : (s.setByte a b).uart = s.uart := rfl
@[simp] theorem setByte_now (s : State) (a : Nat) (b : Byte) : (s.setByte a b).now = s.now := rfl
@[simp] theorem setByte_elapsed (s : State) (a : Nat) (b : Byte) : (s.setByte a b).elapsed = s.elapsed := rfl
@[simp] theorem setByte_time (s : State) (a : Nat) (b : Byte) : (s.setByte a b).time = s.time := rfl
@[simp] theorem setByte_lanes (s : State) (a : Nat) (b : Byte) : (s.setByte a b).lanes = s.lanes := rfl
@[simp] theorem setByte_rx (s : State) (a : Nat) (b : Byte) : (s.setByte a b).rx = s.rx := rfl
@[simp] theorem setByte_ports (s : State) (a : Nat) (b : Byte) : (s.setByte a b).ports = s.ports := rfl
@[simp] theorem setByte_berths (s : State) (a : Nat) (b : Byte) : (s.setByte a b).berths = s.berths := rfl
@[simp] theorem setByte_rank (s : State) (a : Nat) (b : Byte) : (s.setByte a b).rank = s.rank := rfl
@[simp] theorem setByte_eng (s : State) (a : Nat) (b : Byte) : (s.setByte a b).eng = s.eng := rfl
@[simp] theorem setByte_comp (s : State) (a : Nat) (b : Byte) : (s.setByte a b).comp = s.comp := rfl
@[simp] theorem setByte_mod (s : State) (a : Nat) (b : Byte) : (s.setByte a b).mod = s.mod := rfl
@[simp] theorem setByte_cmod (s : State) (a : Nat) (b : Byte) : (s.setByte a b).cmod = s.cmod := rfl
@[simp] theorem setByte_gate (s : State) (a : Nat) (b : Byte) : (s.setByte a b).gate = s.gate := rfl
@[simp] theorem setByte_safe (s : State) (a : Nat) (b : Byte) : (s.setByte a b).safe = s.safe := rfl
@[simp] theorem setByte_adc (s : State) (a : Nat) (b : Byte) : (s.setByte a b).adc = s.adc := rfl
@[simp] theorem setByte_twin (s : State) (a : Nat) (b : Byte) : (s.setByte a b).twin = s.twin := rfl
@[simp] theorem setByte_refLinks (s : State) (a : Nat) (b : Byte) : (s.setByte a b).refLinks = s.refLinks := rfl
@[simp] theorem setByte_refPairs (s : State) (a : Nat) (b : Byte) : (s.setByte a b).refPairs = s.refPairs := rfl
@[simp] theorem setByte_sch (s : State) (a : Nat) (b : Byte) : (s.setByte a b).sch = s.sch := rfl
@[simp] theorem setByte_memErr (s : State) (a : Nat) (b : Byte) : (s.setByte a b).memErr = s.memErr := rfl
@[simp] theorem setByte_arb (s : State) (a : Nat) (b : Byte) : (s.setByte a b).arb = s.arb := rfl
@[simp] theorem setByte_bb (s : State) (a : Nat) (b : Byte) : (s.setByte a b).bb = s.bb := rfl
@[simp] theorem setByte_mon (s : State) (a : Nat) (b : Byte) : (s.setByte a b).mon = s.mon := rfl
@[simp] theorem setByte_recd (s : State) (a : Nat) (b : Byte) : (s.setByte a b).recd = s.recd := rfl
@[simp] theorem setByte_stn (s : State) (a : Nat) (b : Byte) : (s.setByte a b).stn = s.stn := rfl
@[simp] theorem setByte_pending (s : State) (a : Nat) (b : Byte) : (s.setByte a b).pending = s.pending := rfl

/-! `occur` changes only `recd`. -/

@[simp] theorem occur_role (s : State) (pg bit : Nat) : (s.occur pg bit).role = s.role := rfl
@[simp] theorem occur_phase (s : State) (pg bit : Nat) : (s.occur pg bit).phase = s.phase := rfl
@[simp] theorem occur_grade (s : State) (pg bit : Nat) : (s.occur pg bit).grade = s.grade := rfl
@[simp] theorem occur_pins (s : State) (pg bit : Nat) : (s.occur pg bit).pins = s.pins := rfl
@[simp] theorem occur_regs (s : State) (pg bit : Nat) : (s.occur pg bit).regs = s.regs := rfl
@[simp] theorem occur_act (s : State) (pg bit : Nat) : (s.occur pg bit).act = s.act := rfl
@[simp] theorem occur_mem (s : State) (pg bit : Nat) : (s.occur pg bit).mem = s.mem := rfl
@[simp] theorem occur_resp (s : State) (pg bit : Nat) : (s.occur pg bit).resp = s.resp := rfl
@[simp] theorem occur_host (s : State) (pg bit : Nat) : (s.occur pg bit).host = s.host := rfl
@[simp] theorem occur_boot (s : State) (pg bit : Nat) : (s.occur pg bit).boot = s.boot := rfl
@[simp] theorem occur_sup (s : State) (pg bit : Nat) : (s.occur pg bit).sup = s.sup := rfl
@[simp] theorem occur_clk (s : State) (pg bit : Nat) : (s.occur pg bit).clk = s.clk := rfl
@[simp] theorem occur_sec (s : State) (pg bit : Nat) : (s.occur pg bit).sec = s.sec := rfl
@[simp] theorem occur_err (s : State) (pg bit : Nat) : (s.occur pg bit).err = s.err := rfl
@[simp] theorem occur_freeCtr (s : State) (pg bit : Nat) : (s.occur pg bit).freeCtr = s.freeCtr := rfl
@[simp] theorem occur_uart (s : State) (pg bit : Nat) : (s.occur pg bit).uart = s.uart := rfl
@[simp] theorem occur_now (s : State) (pg bit : Nat) : (s.occur pg bit).now = s.now := rfl
@[simp] theorem occur_elapsed (s : State) (pg bit : Nat) : (s.occur pg bit).elapsed = s.elapsed := rfl
@[simp] theorem occur_time (s : State) (pg bit : Nat) : (s.occur pg bit).time = s.time := rfl
@[simp] theorem occur_lanes (s : State) (pg bit : Nat) : (s.occur pg bit).lanes = s.lanes := rfl
@[simp] theorem occur_rx (s : State) (pg bit : Nat) : (s.occur pg bit).rx = s.rx := rfl
@[simp] theorem occur_ports (s : State) (pg bit : Nat) : (s.occur pg bit).ports = s.ports := rfl
@[simp] theorem occur_berths (s : State) (pg bit : Nat) : (s.occur pg bit).berths = s.berths := rfl
@[simp] theorem occur_rank (s : State) (pg bit : Nat) : (s.occur pg bit).rank = s.rank := rfl
@[simp] theorem occur_eng (s : State) (pg bit : Nat) : (s.occur pg bit).eng = s.eng := rfl
@[simp] theorem occur_comp (s : State) (pg bit : Nat) : (s.occur pg bit).comp = s.comp := rfl
@[simp] theorem occur_mod (s : State) (pg bit : Nat) : (s.occur pg bit).mod = s.mod := rfl
@[simp] theorem occur_cmod (s : State) (pg bit : Nat) : (s.occur pg bit).cmod = s.cmod := rfl
@[simp] theorem occur_gate (s : State) (pg bit : Nat) : (s.occur pg bit).gate = s.gate := rfl
@[simp] theorem occur_safe (s : State) (pg bit : Nat) : (s.occur pg bit).safe = s.safe := rfl
@[simp] theorem occur_adc (s : State) (pg bit : Nat) : (s.occur pg bit).adc = s.adc := rfl
@[simp] theorem occur_twin (s : State) (pg bit : Nat) : (s.occur pg bit).twin = s.twin := rfl
@[simp] theorem occur_refLinks (s : State) (pg bit : Nat) : (s.occur pg bit).refLinks = s.refLinks := rfl
@[simp] theorem occur_refPairs (s : State) (pg bit : Nat) : (s.occur pg bit).refPairs = s.refPairs := rfl
@[simp] theorem occur_sch (s : State) (pg bit : Nat) : (s.occur pg bit).sch = s.sch := rfl
@[simp] theorem occur_memErr (s : State) (pg bit : Nat) : (s.occur pg bit).memErr = s.memErr := rfl
@[simp] theorem occur_arb (s : State) (pg bit : Nat) : (s.occur pg bit).arb = s.arb := rfl
@[simp] theorem occur_bb (s : State) (pg bit : Nat) : (s.occur pg bit).bb = s.bb := rfl
@[simp] theorem occur_mon (s : State) (pg bit : Nat) : (s.occur pg bit).mon = s.mon := rfl
@[simp] theorem occur_stn (s : State) (pg bit : Nat) : (s.occur pg bit).stn = s.stn := rfl
@[simp] theorem occur_pending (s : State) (pg bit : Nat) : (s.occur pg bit).pending = s.pending := rfl

/-! `event` changes only `recd` and `regs`. -/

@[simp] theorem event_role (s : State) (pg bit : Nat) : (s.event pg bit).role = s.role := by unfold event; split <;> rfl
@[simp] theorem event_phase (s : State) (pg bit : Nat) : (s.event pg bit).phase = s.phase := by unfold event; split <;> rfl
@[simp] theorem event_grade (s : State) (pg bit : Nat) : (s.event pg bit).grade = s.grade := by unfold event; split <;> rfl
@[simp] theorem event_pins (s : State) (pg bit : Nat) : (s.event pg bit).pins = s.pins := by unfold event; split <;> rfl
@[simp] theorem event_act (s : State) (pg bit : Nat) : (s.event pg bit).act = s.act := by unfold event; split <;> rfl
@[simp] theorem event_mem (s : State) (pg bit : Nat) : (s.event pg bit).mem = s.mem := by unfold event; split <;> rfl
@[simp] theorem event_resp (s : State) (pg bit : Nat) : (s.event pg bit).resp = s.resp := by unfold event; split <;> rfl
@[simp] theorem event_host (s : State) (pg bit : Nat) : (s.event pg bit).host = s.host := by unfold event; split <;> rfl
@[simp] theorem event_boot (s : State) (pg bit : Nat) : (s.event pg bit).boot = s.boot := by unfold event; split <;> rfl
@[simp] theorem event_sup (s : State) (pg bit : Nat) : (s.event pg bit).sup = s.sup := by unfold event; split <;> rfl
@[simp] theorem event_clk (s : State) (pg bit : Nat) : (s.event pg bit).clk = s.clk := by unfold event; split <;> rfl
@[simp] theorem event_sec (s : State) (pg bit : Nat) : (s.event pg bit).sec = s.sec := by unfold event; split <;> rfl
@[simp] theorem event_err (s : State) (pg bit : Nat) : (s.event pg bit).err = s.err := by unfold event; split <;> rfl
@[simp] theorem event_freeCtr (s : State) (pg bit : Nat) : (s.event pg bit).freeCtr = s.freeCtr := by unfold event; split <;> rfl
@[simp] theorem event_uart (s : State) (pg bit : Nat) : (s.event pg bit).uart = s.uart := by unfold event; split <;> rfl
@[simp] theorem event_now (s : State) (pg bit : Nat) : (s.event pg bit).now = s.now := by unfold event; split <;> rfl
@[simp] theorem event_elapsed (s : State) (pg bit : Nat) : (s.event pg bit).elapsed = s.elapsed := by unfold event; split <;> rfl
@[simp] theorem event_time (s : State) (pg bit : Nat) : (s.event pg bit).time = s.time := by unfold event; split <;> rfl
@[simp] theorem event_lanes (s : State) (pg bit : Nat) : (s.event pg bit).lanes = s.lanes := by unfold event; split <;> rfl
@[simp] theorem event_rx (s : State) (pg bit : Nat) : (s.event pg bit).rx = s.rx := by unfold event; split <;> rfl
@[simp] theorem event_ports (s : State) (pg bit : Nat) : (s.event pg bit).ports = s.ports := by unfold event; split <;> rfl
@[simp] theorem event_berths (s : State) (pg bit : Nat) : (s.event pg bit).berths = s.berths := by unfold event; split <;> rfl
@[simp] theorem event_rank (s : State) (pg bit : Nat) : (s.event pg bit).rank = s.rank := by unfold event; split <;> rfl
@[simp] theorem event_eng (s : State) (pg bit : Nat) : (s.event pg bit).eng = s.eng := by unfold event; split <;> rfl
@[simp] theorem event_comp (s : State) (pg bit : Nat) : (s.event pg bit).comp = s.comp := by unfold event; split <;> rfl
@[simp] theorem event_mod (s : State) (pg bit : Nat) : (s.event pg bit).mod = s.mod := by unfold event; split <;> rfl
@[simp] theorem event_cmod (s : State) (pg bit : Nat) : (s.event pg bit).cmod = s.cmod := by unfold event; split <;> rfl
@[simp] theorem event_gate (s : State) (pg bit : Nat) : (s.event pg bit).gate = s.gate := by unfold event; split <;> rfl
@[simp] theorem event_safe (s : State) (pg bit : Nat) : (s.event pg bit).safe = s.safe := by unfold event; split <;> rfl
@[simp] theorem event_adc (s : State) (pg bit : Nat) : (s.event pg bit).adc = s.adc := by unfold event; split <;> rfl
@[simp] theorem event_twin (s : State) (pg bit : Nat) : (s.event pg bit).twin = s.twin := by unfold event; split <;> rfl
@[simp] theorem event_refLinks (s : State) (pg bit : Nat) : (s.event pg bit).refLinks = s.refLinks := by unfold event; split <;> rfl
@[simp] theorem event_refPairs (s : State) (pg bit : Nat) : (s.event pg bit).refPairs = s.refPairs := by unfold event; split <;> rfl
@[simp] theorem event_sch (s : State) (pg bit : Nat) : (s.event pg bit).sch = s.sch := by unfold event; split <;> rfl
@[simp] theorem event_memErr (s : State) (pg bit : Nat) : (s.event pg bit).memErr = s.memErr := by unfold event; split <;> rfl
@[simp] theorem event_arb (s : State) (pg bit : Nat) : (s.event pg bit).arb = s.arb := by unfold event; split <;> rfl
@[simp] theorem event_bb (s : State) (pg bit : Nat) : (s.event pg bit).bb = s.bb := by unfold event; split <;> rfl
@[simp] theorem event_mon (s : State) (pg bit : Nat) : (s.event pg bit).mon = s.mon := by unfold event; split <;> rfl
@[simp] theorem event_stn (s : State) (pg bit : Nat) : (s.event pg bit).stn = s.stn := by unfold event; split <;> rfl
@[simp] theorem event_pending (s : State) (pg bit : Nat) : (s.event pg bit).pending = s.pending := by unfold event; split <;> rfl

end Sys2Proof.Machine.State
end

