-- ==== Sys2Proof/Laws/Regs.lean ====
section
/-! SUPPORT. Registers and bit fields: what a read gives after a write, and which registers an update leaves alone. -/

namespace Sys2Proof.Machine

/-- A field reads back what was put into it. -/
theorem getBits_setBits_same (v : Word) (lo w n : Nat) (h : lo + w ≤ 32) : getBits (setBits v lo w n) lo w = n % 2 ^ w := by
  unfold getBits setBits
  have hn : n % 2 ^ w < 2 ^ w := Nat.mod_lt _ (Nat.two_pow_pos w)
  apply Nat.eq_of_testBit_eq
  intro i
  simp only [Nat.testBit_mod_two_pow, Nat.testBit_shiftRight, BitVec.toNat_or, BitVec.toNat_and, BitVec.toNat_not,
    BitVec.toNat_ofNat, Nat.testBit_or, Nat.testBit_and, Nat.testBit_shiftLeft]
  by_cases hi : i < w
  · have h1 : lo + i < 32 := by omega
    have h3 : (((2 ^ w - 1) <<< lo) % 2 ^ 32).testBit (lo + i) = true := by
      rw [Nat.testBit_mod_two_pow, Nat.testBit_shiftLeft]
      simp [h1, Nat.testBit_two_pow_sub_one, hi]
    have h2 : (2 ^ 32 - 1 - ((2 ^ w - 1) <<< lo) % 2 ^ 32).testBit (lo + i) = false := by
      have hlt : ((2 ^ w - 1) <<< lo) % 2 ^ 32 < 2 ^ 32 := Nat.mod_lt _ (by decide)
      rw [Nat.sub_sub, Nat.add_comm 1, Nat.testBit_two_pow_sub_succ hlt, h3]
      simp
    rw [h2]
    simp [hi, h1]
  · simp [hi]

namespace State

theorem reg_setReg_same (s : State) (a : Nat) (v : Word) : (s.setReg a v).reg a = v := by
  simp [reg, setReg, kvFind_kvSet_same]

theorem reg_setReg_ne (s : State) {a b : Nat} (v : Word) (h : b ≠ a) : (s.setReg a v).reg b = s.reg b := by
  simp [reg, setReg, kvFind_kvSet_ne _ _ h]

theorem reg_set_same (s : State) (f : Fld) (n : Nat) : (s.set f n).reg f.addr = setBits (s.reg f.addr) f.lo f.w n := by
  simp [set, reg_setReg_same]

theorem reg_set_ne (s : State) {f : Fld} {b : Nat} (n : Nat) (h : b ≠ f.addr) : (s.set f n).reg b = s.reg b := by
  simp [set, reg_setReg_ne _ _ h]

/-- A field reads back what was written to it. -/
theorem get_set_same (s : State) (f : Fld) (n : Nat) (h : f.lo + f.w ≤ 32) : (s.set f n).get f = n % 2 ^ f.w := by
  simp [get, reg_set_same, getBits_setBits_same _ _ _ _ h]

theorem get_set_ne (s : State) {f g : Fld} (n : Nat) (h : g.addr ≠ f.addr) : (s.set f n).get g = s.get g := by
  simp [get, reg_set_ne _ _ h]

theorem get_setReg_ne (s : State) {a : Nat} {g : Fld} (v : Word) (h : g.addr ≠ a) : (s.setReg a v).get g = s.get g := by
  simp [get, reg_setReg_ne _ _ h]

theorem reg_occur (s : State) (pg bit a : Nat) : (s.occur pg bit).reg a = s.reg a := rfl

/-- Raising an event changes PG_EVT of its page alone. -/
theorem reg_event_ne (s : State) (pg bit : Nat) {a : Nat} (h : a ≠ R.PG_EVT pg) : (s.event pg bit).reg a = s.reg a := by
  unfold event
  split <;> simp [reg_setReg_ne _ _ h, reg_occur]

/-- Raising an event sets its bit of PG_EVT. -/
theorem reg_event_same (s : State) (pg bit : Nat) :
    (s.event pg bit).reg (R.PG_EVT pg) = s.reg (R.PG_EVT pg) ||| BitVec.ofNat 32 (1 <<< bit) := by
  unfold event
  split <;> simp [reg_setReg_same, reg_occur]

end State

theorem keepsRegs_setReg (s : State) (a : Nat) (v : Word) : KeepsRegs [a] s (s.setReg a v) := by
  intro b hb
  exact State.reg_setReg_ne s v (by simpa using hb)

theorem keepsRegs_set (s : State) (f : Fld) (n : Nat) : KeepsRegs [f.addr] s (s.set f n) := keepsRegs_setReg s _ _

theorem keepsRegs_bump (s : State) (f : Fld) (k : Nat) : KeepsRegs [f.addr] s (s.bump f k) := keepsRegs_setReg s _ _

theorem keepsRegs_event (s : State) (pg bit : Nat) : KeepsRegs [R.PG_EVT pg] s (s.event pg bit) := by
  intro b hb
  exact State.reg_event_ne s pg bit (by simpa using hb)

theorem KeepsRegs.refl (rs : List Nat) (s : State) : KeepsRegs rs s s := fun _ _ => rfl

theorem KeepsRegs.trans {rs qs : List Nat} {s t u : State} (h : KeepsRegs rs s t) (g : KeepsRegs qs t u) :
    KeepsRegs (rs ++ qs) s u := by
  intro a ha
  rw [List.mem_append, not_or] at ha
  rw [g a ha.2, h a ha.1]

theorem KeepsRegs.mono {rs qs : List Nat} {s t : State} (h : KeepsRegs rs s t) (hs : ∀ a ∈ rs, a ∈ qs) :
    KeepsRegs qs s t := fun a ha => h a fun hr => ha (hs a hr)

end Sys2Proof.Machine
end

