-- ==== Sys2Proof/Laws/Frame.lean ====
section
/-! SUPPORT. Frames compose: what two updates in a row leave alone; and the frame of each basic update. -/

namespace Sys2Proof.Machine

theorem Part.same_refl (p : Part) (s : State) : p.same s s := by cases p <;> first | rfl | exact fun _ _ => rfl | exact fun _ _ _ => rfl

theorem Part.same_trans {p : Part} {s t u : State} (h : p.same s t) (g : p.same t u) : p.same s u := by
  cases p <;> first
    | exact Eq.trans g h
    | exact fun a ha => (g a ha).trans (h a ha)
    | exact fun a ha hb => (g a ha hb).trans (h a ha hb)

theorem Frame.refl (ps : List Part) (rs : List Nat) (s : State) : Frame ps rs s s :=
  ⟨fun p _ => p.same_refl s, KeepsRegs.refl rs s⟩

theorem Frame.trans {ps qs : List Part} {rs us : List Nat} {s t u : State} (h : Frame ps rs s t) (g : Frame qs us t u) :
    Frame (ps ++ qs) (rs ++ us) s u := by
  refine ⟨fun p hp => ?_, h.2.trans g.2⟩
  rw [List.mem_append, not_or] at hp
  exact Part.same_trans (h.1 p hp.1) (g.1 p hp.2)

theorem Frame.mono {ps qs : List Part} {rs us : List Nat} {s t : State} (h : Frame ps rs s t) (hp : ∀ p ∈ ps, p ∈ qs)
    (hr : ∀ a ∈ rs, a ∈ us) : Frame qs us s t :=
  ⟨fun p hq => h.1 p fun hm => hq (hp p hm), h.2.mono hr⟩

theorem frame_setReg (s : State) (a : Nat) (v : Word) : Frame [] [a] s (s.setReg a v) :=
  ⟨fun p _ => by cases p <;> first | rfl | exact fun _ _ => rfl | exact fun _ _ _ => rfl, keepsRegs_setReg s a v⟩

theorem frame_set (s : State) (f : Fld) (n : Nat) : Frame [] [f.addr] s (s.set f n) := frame_setReg s _ _

theorem frame_occur (s : State) (pg bit : Nat) : Frame [.recd] [] s (s.occur pg bit) :=
  ⟨fun p hp => by
    cases p <;> first | rfl | exact fun _ _ => rfl | exact fun _ _ _ => rfl | exact absurd List.mem_cons_self hp, fun _ _ => rfl⟩

theorem frame_event (s : State) (pg bit : Nat) : Frame [.recd] [R.PG_EVT pg] s (s.event pg bit) := by
  unfold State.event
  split
  · exact ((frame_occur s pg bit).trans (frame_setReg _ _ _)).mono (by simp) (by simp)
  · exact (frame_setReg s _ _).mono (by simp) (by simp)

/-- A command that acts by `act` changes what its function changes. -/
theorem changes_of_act {c : Instr} {ps : List Part} {rs : List Nat} {g : State → Bool} {f : State → State}
    (he : ∀ s, exec c s = act s (g s) f) (hf : ∀ s, Frame ps rs s (f s)) : Changes c ps rs := by
  intro s
  rw [he s]
  unfold act
  by_cases h : g s = true
  · exact ⟨f s, hf s, .inr (by simp [h])⟩
  · exact ⟨s, Frame.refl ps rs s, .inl (by simp [h])⟩

end Sys2Proof.Machine
end

