-- ==== Sys2Proof/Laws/Memory.lean ====
section
/-! SUPPORT. Memory: a read after a write, and that every operation on memory keeps the list in its canonical form. -/

namespace Sys2Proof.Machine

namespace State

theorem byte_setByte_same (s : State) (a : Nat) (b : Byte) : (s.setByte a b).byte a = b := by
  unfold setByte byte
  by_cases h : b = blankByte a
  · simp [h, kvFind_kvErase_same]
  · simp [h, kvFind_kvSet_same]

theorem byte_setByte_ne (s : State) {a x : Nat} (b : Byte) (h : x ≠ a) : (s.setByte a b).byte x = s.byte x := by
  unfold setByte byte
  by_cases hb : b = blankByte a
  · simp [hb, kvFind_kvErase_ne _ h]
  · simp [hb, kvFind_kvSet_ne _ _ h]

theorem byte_setBytes_out (s : State) (a : Nat) (bs : List Byte) {x : Nat} (h : x < a ∨ a + bs.length ≤ x) :
    (s.setBytes a bs).byte x = s.byte x := by
  induction bs generalizing s a with
  | nil => rfl
  | cons b bs ih =>
    simp only [setBytes, List.length_cons] at h ⊢
    rw [ih _ _ (by omega), byte_setByte_ne _ _ (by omega)]

/-- Bytes read back as they were stored. -/
theorem bytes_setBytes (s : State) (a : Nat) (bs : List Byte) : (s.setBytes a bs).bytes a bs.length = bs := by
  induction bs generalizing s a with
  | nil => rfl
  | cons b bs ih =>
    simp only [setBytes, List.length_cons, bytes]
    rw [ih, byte_setBytes_out _ _ _ (by omega), byte_setByte_same]

/-- Storing changes memory alone. -/
theorem setBytes_eq (s : State) (a : Nat) (bs : List Byte) : s.setBytes a bs = { s with mem := (s.setBytes a bs).mem } := by
  induction bs generalizing s a with
  | nil => rfl
  | cons b bs ih =>
    simp only [setBytes]
    rw [ih]
    rfl

end State

namespace Memory

theorem wf_kvSet {m : List Host.Cell} {a : Nat} {b : Byte} (hm : wf m = true) (hb : b ≠ State.blankByte a) :
    wf (kvSet m a b) = true := by
  unfold wf at hm ⊢
  rw [Bool.and_eq_true, List.all_eq_true] at hm ⊢
  refine ⟨kvSorted_kvSet m a b hm.1, fun e he => ?_⟩
  rcases mem_kvSet he with h | h
  · subst h
    simpa using hb
  · exact hm.2 e h

theorem wf_filter {m : List Host.Cell} (p : Nat × Byte → Bool) (hm : wf m = true) : wf (m.filter p) = true := by
  unfold wf at hm ⊢
  rw [Bool.and_eq_true, List.all_eq_true] at hm ⊢
  exact ⟨kvSortedFrom_filter p m hm.1, fun e he => hm.2 e (List.mem_filter.mp he).1⟩

theorem wf_kvKeep {m : List Host.Cell} (p : Nat → Bool) (hm : wf m = true) : wf (kvKeep p m) = true := wf_filter _ hm

theorem wf_kvErase {m : List Host.Cell} (a : Nat) (hm : wf m = true) : wf (kvErase m a) = true := by
  rw [kvErase_eq_filter]
  exact wf_filter _ hm

theorem wf_setByte {s : State} (a : Nat) (b : Byte) (hm : wf s.mem = true) : wf (s.setByte a b).mem = true := by
  unfold State.setByte
  by_cases h : b = State.blankByte a
  · simpa [h] using wf_kvErase a hm
  · simpa [h] using wf_kvSet hm h

theorem wf_setBytes {s : State} (a : Nat) (bs : List Byte) (hm : wf s.mem = true) : wf (s.setBytes a bs).mem = true := by
  induction bs generalizing s a with
  | nil => exact hm
  | cons b bs ih => exact ih _ (wf_setByte a b hm)

theorem wf_setNum {s : State} (a n v : Nat) (hm : wf s.mem = true) : wf (s.setNum a n v).mem = true := wf_setBytes _ _ hm

theorem wf_reset : wf State.reset.mem = true := rfl

end Memory

end Sys2Proof.Machine
end

