-- ==== Sys2Proof/Laws/Ops.lean ====
section
/-! SUPPORT. The frames of the shared operations of Machine/Ops.lean: which parts and registers each can change. -/

namespace Sys2Proof.Machine

/-- An update that leaves registers and memory alone has as frame the fields it writes. -/
theorem frame_of_parts {ps : List Part} {s t : State} (hr : t.regs = s.regs) (ho : t.role = s.role)
    (hp : ∀ p, p ∉ ps → p.same s t) : Frame ps [] s t :=
  ⟨hp, fun a _ => by simp [State.reg, hr, ho]⟩

/-- Two updates, each with a frame inside the same bounds. -/
theorem Frame.seq {ps : List Part} {rs : List Nat} {s t u : State} (h : Frame ps rs s t) (g : Frame ps rs t u) :
    Frame ps rs s u := (h.trans g).mono (by simp) (by simp)

theorem Frame.ite {ps : List Part} {rs : List Nat} {s t u : State} {c : Prop} [Decidable c] (h : Frame ps rs s t)
    (g : Frame ps rs s u) : Frame ps rs s (if c then t else u) := by
  split
  · exact h
  · exact g

theorem frame_when {ps : List Part} {rs : List Nat} {s : State} (c : Bool) {f : State → State} (h : Frame ps rs s (f s)) :
    Frame ps rs s (s.when c f) := by
  unfold State.when
  exact Frame.ite h (Frame.refl ps rs s)

theorem frame_bump (s : State) (f : Fld) (k : Nat) : Frame [] [f.addr] s (s.bump f k) := frame_setReg s _ _

theorem frame_count (s : State) (f : Fld) (k : Nat) : Frame [] [f.addr] s (s.count f k) := frame_setReg s _ _

/-- Bytes stored inside the black box change the black box alone. -/
theorem frame_setBytes_box (s : State) (a : Nat) (bs : List Byte) (h : 0x30000000 ≤ a) (g : a + bs.length ≤ 0x30040000) :
    Frame [.box] [] s (s.setBytes a bs) := by
  have e := State.setBytes_eq s a bs
  refine ⟨fun p hp => ?_, fun r _ => by rw [e]; rfl⟩
  by_cases hm : p = .mem
  · subst hm
    intro x hx
    exact State.byte_setBytes_out s a bs (by omega)
  · rw [e]
    cases p <;> first | rfl | exact absurd rfl hm | exact absurd List.mem_cons_self hp

/-- Bytes stored outside the black box change memory alone. -/
theorem frame_setBytes (s : State) (a : Nat) (bs : List Byte) : Frame [.mem, .box] [] s (s.setBytes a bs) := by
  have e := State.setBytes_eq s a bs
  refine ⟨fun p hp => ?_, fun r _ => by rw [e]; rfl⟩
  rw [e]
  cases p <;> first
    | rfl
    | exact absurd List.mem_cons_self hp
    | exact absurd (List.mem_cons_of_mem _ List.mem_cons_self) hp

/-- A lifetime counter changes its two registers. -/
theorem frame_ltAdd (s : State) (i n : Nat) : Frame [] [R.LT_CNT_LO 0 i, R.LT_CNT_HI 0 i] s (s.ltAdd i n) := by
  unfold State.ltAdd
  exact ((frame_setReg _ _ _).trans (frame_set _ _ _)).mono (by simp) (by simp [F.LT_CNT_HI_CNT])

/-- A health cause changes REF_HFAIL alone. -/
theorem frame_health (s : State) (c : Nat) : Frame [] [R.REF_HFAIL] s (s.health c) := by
  unfold State.health
  exact frame_when _ (frame_set s _ _)

/-- A loss of a log entry changes ERR_OVF and the events of the ERR page. -/
theorem frame_errLose (s : State) (cls : Nat) : Frame [.recd] [R.ERR_OVF, R.PG_EVT Pg.ERR] s (s.errLose cls) := by
  unfold State.errLose
  exact ((frame_bump s _ 1).trans (frame_event _ _ _)).mono (by simp) (by simp [State.errOvf])

/-- An update of the supervisor's hidden state. -/
theorem frame_sup (s : State) (x : SupSt) : Frame [.sup] [] s { s with sup := x } :=
  ⟨fun p hp => by
    cases p <;> first | rfl | exact fun _ _ => rfl | exact fun _ _ _ => rfl | exact absurd List.mem_cons_self hp, fun _ _ => rfl⟩

/-- An update of the error block beyond its registers. -/
theorem frame_err (s : State) (x : ErrSt) : Frame [.err] [] s { s with err := x } :=
  ⟨fun p hp => by
    cases p <;> first | rfl | exact fun _ _ => rfl | exact fun _ _ _ => rfl | exact absurd List.mem_cons_self hp, fun _ _ => rfl⟩

/-- An update of the gate block beyond its registers. -/
theorem frame_gate (s : State) (x : GateSt) : Frame [.gate] [] s { s with gate := x } :=
  ⟨fun p hp => by
    cases p <;> first | rfl | exact fun _ _ => rfl | exact fun _ _ _ => rfl | exact absurd List.mem_cons_self hp, fun _ _ => rfl⟩

/-- An update of the black box's progress. -/
theorem frame_bb (s : State) (x : BbSt) : Frame [.bb] [] s { s with bb := x } :=
  ⟨fun p hp => by
    cases p <;> first | rfl | exact fun _ _ => rfl | exact fun _ _ _ => rfl | exact absurd List.mem_cons_self hp, fun _ _ => rfl⟩

/-- Entry to a level of the NMI changes its save registers, the level, the pc and the causes. -/
theorem frame_nmiEnter (s : State) (l cause : Nat) (h : l < 2) : Frame [.sup] nmiRegs s (s.nmiEnter l cause) := by
  have hl : l = 0 ∨ l = 1 := by omega
  unfold State.nmiEnter
  refine Frame.mono (ps := [] ++ ([] ++ ([] ++ ([] ++ [.sup]))))
    (rs := [R.CPU_NMIEPC l] ++ ([R.CPU_NMIST l] ++ ([R.CPU_NMICAUSE l] ++ ([F.CPU_NMI_LEVEL.addr] ++ [])))) ?_ ?_ ?_
  · exact (frame_setReg _ _ _).trans ((frame_setReg _ _ _).trans ((frame_setReg _ _ _).trans
      ((frame_set _ _ _).trans (frame_sup _ _))))
  · simp
  · intro a ha
    rcases hl with rfl | rfl <;> revert a <;> decide

/-- An NMI cause changes the NMI registers and the supervisor alone. -/
theorem frame_nmi (s : State) (cause : Nat) : Frame [.sup] nmiRegs s (s.nmi cause) := by
  unfold State.nmi
  refine Frame.seq (t := s.set F.CPU_NMI_CAUSE (s.get F.CPU_NMI_CAUSE ||| 1 <<< cause)) ?_ ?_
  · exact (frame_set s _ _).mono (by simp) (by decide)
  · refine Frame.ite (frame_nmiEnter _ 0 cause (by decide)) (Frame.ite (frame_nmiEnter _ 1 cause (by decide)) ?_)
    exact (frame_set _ _ _).mono (by simp) (by decide)

/-- An entry of the black box. -/
theorem frame_bbWrite (s : State) (type sub : Nat) (detail : List Nat) :
    Frame [.bb, .box, .recd] [R.REC_BBSTAT, R.PG_EVT Pg.REC] s (s.bbWrite type sub detail) := by
  unfold State.bbWrite
  refine Frame.ite ?_ (Frame.refl _ _ _)
  have hlen : ∀ x : List Nat, (x.flatMap (leBytes 4)).length = 4 * x.length := by
    intro x
    have h4 : ∀ n : Nat, (leBytes 4 n).length = 4 := fun n => rfl
    induction x with
    | nil => rfl
    | cons a x ih => rw [List.flatMap_cons, List.length_append, h4, ih, List.length_cons]; omega
  have hmod : s.bb.idx % 8192 < 8192 := Nat.mod_lt _ (by decide)
  extract_lets seq w0 words s1 s2 b2 s3
  have h1 : Frame [.box] [] s s1 := by
    refine frame_setBytes_box s _ _ (by omega) ?_
    rw [hlen]
    simp [words]
    omega
  have h3 : Frame [.bb, .box, .recd] [R.REC_BBSTAT, R.PG_EVT Pg.REC] s s3 :=
    (h1.trans ((frame_count s1 F.REC_BBSTAT_NEXT 1).trans (frame_bb s2 _))).mono (by simp) (by decide)
  split
  · refine Frame.ite ?_ ?_
    · refine h3.seq ?_
      exact ((frame_set s3 F.REC_BBSTAT_FROZEN 1).trans ((frame_set _ F.REC_BBSTAT_WHY _).trans
        ((frame_event _ _ _).trans (frame_bb _ _)))).mono (by simp) (by decide)
    · exact h3.seq ((frame_bb s3 _).mono (by simp) (by simp))
  · exact h3

/-- A cause of freezing. -/
theorem frame_bbFreeze (s : State) (why : Nat) :
    Frame [.bb, .recd] [R.REC_BBSTAT, R.PG_EVT Pg.REC] s (s.bbFreeze why) := by
  unfold State.bbFreeze
  refine Frame.ite ?_ (Frame.refl _ _ _)
  extract_lets n
  refine Frame.ite ?_ ((frame_bb s _).mono (by simp) (by simp))
  exact ((frame_set s F.REC_BBSTAT_FROZEN 1).trans ((frame_set _ F.REC_BBSTAT_WHY why).trans
    (frame_event _ _ _))).mono (by simp) (by decide)

/-- An arrival stored, repeated or dropped. -/
theorem frame_errStore (s : State) (e : ErrEntry) : Frame [.err, .recd] errRegs s (s.errStore e) := by
  have lose : ∀ cls, Frame [.err, .recd] errRegs s (s.errLose cls) := fun cls =>
    (frame_errLose s cls).mono (by simp) (by decide)
  unfold State.errStore
  extract_lets log
  split
  · refine Frame.ite ((frame_err s _).mono (by simp) (by simp)) (Frame.ite ((frame_err s _).mono (by simp) (by simp))
      (Frame.ite ?_ (lose _)))
    exact (lose _).seq ((frame_err _ _).mono (by simp) (by simp))
  · exact (frame_err s _).mono (by simp) (by simp)

/-- A class signalled: its event or its NMI, and the stack. -/
theorem frame_errSignal (s : State) (cls : Nat) (own : Option Nat) :
    Frame [.err, .recd, .sup] errRegs s (s.errSignal cls own) := by
  have nm : ∀ c, Frame [.err, .recd, .sup] errRegs s (s.nmi c) := fun c =>
    (frame_nmi s c).mono (by simp) (by intro a ha; exact List.mem_append_right _ ha)
  have ev : ∀ b, Frame [.err, .recd, .sup] errRegs s (s.event Pg.ERR b) := fun b =>
    (frame_event s Pg.ERR b).mono (by simp) (by decide)
  unfold State.errSignal
  extract_lets s1
  have h1 : Frame [.err, .recd, .sup] errRegs s s1 := by
    unfold s1
    split
    · exact nm _
    · exact Frame.ite (ev _) (nm _)
  exact h1.seq ((frame_err s1 _).mono (by simp) (by simp))

/-- An arrival handled: signalled, or kept in PEND. -/
theorem frame_errHandle (s : State) (cls : Nat) (own : Option Nat) :
    Frame [.err, .recd, .sup] errRegs s (s.errHandle cls own) := by
  have pend : Frame [.err, .recd, .sup] errRegs s (s.errPend cls) := (frame_err s _).mono (by simp) (by simp)
  unfold State.errHandle
  refine Frame.ite pend (Frame.ite (frame_errSignal s cls own) ?_)
  have h : Frame [.err, .recd, .sup] errRegs s ((s.errPend cls).bump F.ERR_STAT_DEFER) :=
    pend.seq ((frame_bump _ F.ERR_STAT_DEFER _).mono (by simp) (by decide))
  extract_lets t
  split
  · exact h.seq ((frame_nmi t _).mono (by simp) (by intro a ha; exact List.mem_append_right _ ha))
  · exact h

/-- An error that arrives: the log, its counters, the black box, EVFLAGS, and what handling it does. -/
theorem frame_errArrive (s : State) (cls src req addr : Nat) :
    Frame [.bb, .box, .err, .gate, .recd, .sup] errRegs s (s.errArrive cls src req addr) := by
  unfold State.errArrive
  extract_lets s1 s2 s3 s4
  have h1 : Frame [.bb, .box, .err, .gate, .recd, .sup] errRegs s s1 :=
    (frame_bump s _ 1).mono (by simp) (by simp [State.errCnt, errRegs])
  have h2 := h1.seq ((frame_errStore s1 ⟨cls, src, req, 0, BitVec.ofNat 32 addr, s1.nanos, s1.seconds % 2 ^ 32⟩).mono
    (qs := [.bb, .box, .err, .gate, .recd, .sup]) (by simp) (fun a ha => ha))
  have h3 : Frame [.bb, .box, .err, .gate, .recd, .sup] errRegs s s3 := by
    refine h2.seq (frame_when _ ?_)
    refine Frame.mono (ps := [] ++ ([.bb, .box, .recd] ++ [.bb, .recd]))
      (rs := [R.REF_HFAIL] ++ ([R.REC_BBSTAT, R.PG_EVT Pg.REC] ++ [R.REC_BBSTAT, R.PG_EVT Pg.REC])) ?_ (by simp) (by decide)
    exact (frame_health _ _).trans ((frame_bbWrite _ _ _ _).trans (frame_bbFreeze _ _))
  have h4 : Frame [.bb, .box, .err, .gate, .recd, .sup] errRegs s s4 :=
    h3.seq (frame_when _ ((frame_gate _ _).mono (by simp) (by simp)))
  exact h4.seq ((frame_errHandle s4 _ _).mono (by simp) (fun a ha => ha))

end Sys2Proof.Machine
end

