-- ==== Sys2Proof/Laws/Settle.lean ====
section
/-! SUPPORT. The hardwired logic behind every command: its shape in each role, and what its parts leave alone. -/

namespace Sys2Proof.Machine

namespace State

theorem settle_cell {s : State} (h : s.role = .cell) : s.settle = s.forceGates.forceDb.recordState := by
  simp [settle, isCell, h]

theorem settle_hub {s : State} (h : s.role = .hub) : s.settle = s.selfEnter.forceVb.markReclaim := by
  simp [settle, isCell, isHub, h]

theorem settle_other {s : State} (h : s.role ≠ .cell) (g : s.role ≠ .hub) : s.settle = s := by
  simp [settle, isCell, isHub, h, g]

/-- Forcing levels changes the gate block alone. -/
theorem forceGates_eq (s : State) : s.forceGates = { s with gate := s.forceGates.gate } := by
  unfold forceGates
  split
  · rfl
  · split
    · rfl
    · split <;> rfl

theorem forceDb_eq (s : State) : s.forceDb = { s with safe := s.forceDb.safe } := by
  unfold forceDb
  split <;> rfl

theorem recordState_eq (s : State) : s.recordState = { s with gate := s.recordState.gate } := by
  unfold recordState
  split
  · split <;> rfl
  · rfl

/-- A leg under the fault logic is off or at its safe level. -/
theorem forceLeg_cases (now safe : Leg) (on : Bool) : forceLeg now safe on = .off ∨ forceLeg now safe on = safe := by
  unfold forceLeg
  split
  · exact .inr rfl
  · exact .inl rfl

end State

/-- Every meaning made by `act` answers a next state. -/
theorem act_next (s : State) (c : Bool) (f : State → State) : ∃ t, act s c f = .next t := by
  unfold act
  split
  · exact ⟨_, rfl⟩
  · exact ⟨_, rfl⟩

end Sys2Proof.Machine
end

