-- ==== Sys2Proof/WellFormed.lean ====
section
/-! DEFINITION. Well-formed commands: every number in the range of what it names, every body of the length of its record.
A command outside its range acts on nothing, or on its number modulo the width of the field it is written to. -/

namespace Sys2Proof

/-- Does a number name one of `k` things? -/
def below (n k : Nat) : Bool := decide (n < k)

/-- Does a number lie between two limits? -/
def within (lo hi n : Nat) : Bool := decide (lo ≤ n) && decide (n ≤ hi)

/-- A signed 16-bit code of a sinc2 filter (R499). -/
def code16Ok (c : Int) : Bool := decide (-32768 ≤ c) && decide (c ≤ 32767)

/-- A received station frame: one of two ports, 48-bit addresses, a 16-bit EtherType. -/
def EthRx.ok (f : EthRx) : Bool := below f.port 2 && below f.dst (2 ^ 48) && below f.src (2 ^ 48) && below f.etype 65536

/-- A request at the arbiter: one of 16 requesters, its bytes within one aligned 64-byte line (R601, R605). -/
def ArbReq.ok (q : ArbReq) : Bool :=
  below q.r 16 && within 1 64 (q.addr % 64 + max q.read q.data.length)

/-- Is a command well formed? -/
def Instr.wf (i : Instr) : Bool :=
  match i with
  | .clkDomWrite _ dom _ => below dom 4
  | .rampStep dom => below dom 4
  | .forcedSwitch dom => below dom 4
  | .clockMonitorWindow m _ => below m 5
  | .sourceNoEdge m => below m 5
  | .spllUnlock m => below m 5
  | .speedCount rings => rings.length == 8
  | .gateHandshake page => below page 48
  | .gateTimeout ⟨page, access⟩ => below page 48 && (match access with
    | some x => below x.addr 65536
    | none => true)
  | .ungate page => below page 48
  | .registerWrite _ bytes addr _ => within 1 4 bytes && below addr 65536
  | .maskedWrite _ addr _ _ => below addr 65536
  | .pgCommitRequest _ page => below page 48
  | .pageSrst _ page => below page 48
  | .pageHold _ page _ => below page 48
  | .pageHeld page => below page 48
  | .pageEnable _ page _ => below page 48
  | .pgEvtSet _ page _ => below page 48
  | .guardLock _ page => below page 48
  | .hostRd addr count crc _ => below addr 65536 && below count 64 && below crc 65536
  | .hostWr addr words crc _ => below addr 65536 && within 1 64 words.length && below crc 65536
  | .hostMwr addr _ _ crc _ => below addr 65536 && below crc 65536
  | .hostStat crc _ => below crc 65536
  | .releaseRequest _ ms => below ms 4096
  | .gpioFnWrite _ n _ => below n 8
  | .gpioEdge n _ => below n 8
  | .syncGained lane => below lane 8
  | .syncLost lane _ => below lane 8
  | .rateHuntSwitch lane => below lane 8
  | .polFlip lane => below lane 8
  | .lossOfSignal lane => below lane 8
  | .cdrLock lane => below lane 8
  | .lanePwrRequest _ lane req => below lane 8 && below req 4
  | .pstateDone lane => below lane 8
  | .eyeScanGo _ lane => below lane 8
  | .esDone lane _ => below lane 8
  | .eyeScanAbort lane _ _ => below lane 8
  | .prbsInject _ lane => below lane 8
  | .prbsClear _ lane => below lane 8
  | .prbsLock lane => below lane 8
  | .prbsRelock lane _ => below lane 8
  | .brstPulse port slot => below port 4 && below slot 268
  | .ptpTimestamp port _ msgType _ _ _ => below port 2 && below msgType 4
  | .tsqPop _ port => below port 2
  | .treeRaGo _ port _ => below port 4
  | .remoteTimeout port tid => below port 4 && below tid 256
  | .groupKeyRenewal port => below port 4
  | .sessionKeyRenewal berth => below berth 1024
  | .upstreamBurstRx port slot _ _ _ phase align => below port 4 && below slot 268 && below phase 64 && below align 16
  | .cycleFrameRx uplink _ _ _ _ => below uplink 2
  | .mgrant uplink berth slot round => below uplink 2 && below berth 256 && below slot 8 && below round 256
  | .rslot uplink berth slot round => below uplink 2 && below berth 256 && below slot 256 && below round 256
  | .laserKill uplink berth _ => below uplink 2 && below berth 256
  | .mgmtRdRecord uplink berth tid addr words => below uplink 2 && below berth 256 && below tid 256 && below addr 65536 && within 1 5 words
  | .mgmtWrRecord uplink berth tid _ _ addr words => below uplink 2 && below berth 256 && below tid 256 && below addr 65536 && within 1 16 words.length
  | .mgmtMwrRecord uplink berth tid _ _ addr _ _ => below uplink 2 && below berth 256 && below tid 256 && below addr 65536
  | .mgmtWrpRecord uplink _ _ addr words => below uplink 2 && below addr 65536 && within 1 16 words.length
  | .keyRecord uplink berth tid body => below uplink 2 && below berth 256 && below tid 256 && body.length == 32
  | .delayRecord uplink berth tid down up => below uplink 2 && below berth 256 && below tid 256 && below down (2 ^ 24) && below up (2 ^ 24)
  | .tbaseRecord uplink body => below uplink 2 && body.length == 20
  | .beaconRecord uplink body => below uplink 2 && body.length == 24
  | .offerRecord uplink body => below uplink 2 && body.length == 24
  | .kxhRecord uplink berth tid body => below uplink 2 && below berth 256 && below tid 256 && body.length == 204
  | .refuseRecord uplink body => below uplink 2 && body.length == 12
  | .restoreRecord uplink body => below uplink 2 && body.length == 32
  | .reportBurstTx uplink => below uplink 2
  | .mgmtBurstTx uplink => below uplink 2
  | .mgmtBurstRx port berth payload => below port 4 && below berth 256 && payload.length == 24
  | .enrolmentWindowOpen _ port => below port 4
  | .enrolmentWindowClose _ port => below port 4
  | .enrolmentWindowExpire port => below port 4
  | .boardingBurstTx uplink => below uplink 2
  | .boardingBackoff uplink => below uplink 2
  | .boardingBurstRx port _ _ => below port 4
  | .collision port => below port 4
  | .rangingBurstTx uplink => below uplink 2
  | .rangingBurstRx port _ _ _ _ ⟨phase, align⟩ => below port 4 && below phase 64 && below align 16
  | .rangingTimeout port berth => below port 4 && below berth 256
  | .rejoinTrigger uplink => below uplink 2
  | .roundBoundary light => light.length == 4
  | .babblerSearchGo _ port => below port 4
  | .searchStep port _ => below port 4
  | .programLoad _ sl => below sl 2
  | .loadDone sl => below sl 2
  | .rcuClear _ u => below u 16
  | .rcuClearDone u => below u 16
  | .injectorGo _ i => below i 2
  | .injectorStop _ i => below i 2
  | .tevArm _ n _ => below n 6
  | .tevDisarm _ n => below n 6
  | .tevFired n => below n 6
  | .comparatorAssert ⟨f, codes⟩ => below f 4 && codes.all code16Ok
  | .comparatorDeassert ⟨f, code⟩ => below f 4 && code16Ok code
  | .singleBerthDeblock _ berth => below berth 1024
  | .blkos lane _ => below lane 8
  | .tevPulseEnd n => below n 6
  | .adcResult m ch _ _ => below m 3 && below ch 8
  | .refereeFrameTx pair => below pair 2
  | .refHbRx link _ => below link 4
  | .linkMiss link => below link 4
  | .refereeListenEnd pair => below pair 2
  | .refereeKx link _ => below link 4
  | .hwArrival queue flow _ => below queue 8 && below flow 65536
  | .schgDone _ handle => below handle 65536
  | .schgCancel _ handle => below handle 65536
  | .schqFlush _ q => below q 32
  | .arbiterGrant waiting => waiting.all fun q => q.ok
  | .lockBreak cause => within 1 3 cause
  | .errAck _ cls => below cls 4
  | .recRel _ seg => below seg 16
  | .monSnap _ page _ => below page 2
  | .stationLinkUp port => below port 2
  | .stationKxRx frame => frame.ok
  | .stationLinkDown port => below port 2
  | .setpointRx frame => frame.ok
  | .mgmtRequestRx frame => frame.ok
  | .svFrameRx frame => frame.ok
  | .svLost c => below c 4
  | .rxToRing frame => frame.ok
  | .faultAssert ⟨n, _⟩ => below n 4
  | .faultSourceRelease n => below n 4
  | .bondUp l4 l5 node _ => l4 + l5 == 1 && below node 128
  | .bondErr why _ => within 1 4 why
  | .powerOnReset | .vddioBelow1v2 | .vddioAbove1v2 | .nrstAssert | .nrstRelease | .rolePullupRead _
  | .rolePulldownRead _ _ _ | .containerCheck | .bootRetry | .treeContainerComplete | .firstOwnership
  | .ownerChangeEntry | .ownerRevoke | .cpuEclaimClaim | .cpuEclaimComplete _ | .nmiRet | .wdtKick _ | .wdtFirstStage
  | .wdtSecondStage | .softwareReset _ | .clockFailureReset | .ircMeasurement _ | .xoscStartupEnd _ | .spllLock
  | .hostEnable _ | .hostBusReleased | .busReclaim _ | .busReturn | .uartTxWrite _ _ | .uartByteSent | .uartByteRx _ _
  | .urxRead _ | .ledToggle | .presencePress | .presenceRelease | .presenceWindowExpire | .presenceClose _
  | .pressStuck | .stuckClear | .sealSequenceChange _ | .sealSample _ | .secOwnRevoke _ _ | .attestationGo _
  | .attDone | .recordExport _ | .recordRestore _ | .recDone | .otpProgram _ | .otpProgramDone | .debugUnlock _
  | .debugRelock _ | .timeIncWrite _ _ | .timeCmdStep _ | .timeCmdSet _ | .stepDone
  | .timeNowRead _ | .ppsPulse | .ppsPulseEnd | .cycleMarkEnd | .twinTimeExchange _ | .holdoverEnter _ | .meridian
  | .readyTest | .cellMeridian | .holdLimit | .payloadBuild | .berthCmdRd _ | .berthCmdWr _ | .berthCmdClrcnt _
  | .stageB _ | .stageC _ _ | .stageD _ | .stageE _ | .stageF _ | .protectiveCommand _ _ | .modeChangeGo _ _
  | .carrierEpoch | .carrierSample _ | .rankCmdRd _ | .rankCmdWr _ | .rankCmdSetc _ | .rankCmdSetv _ | .handoverGo _ _
  | .handoverAbort _ _ | .sigdataWrite _ _ | .chainQueueWrite _ _ | .chainCmdRd _ | .cellEngineRun _ _
  | .freqResponseGo _ | .eventByp | .eventInsPos | .eventInsNeg | .eventBlockCell | .eventTrim | .trimEnd
  | .eventFireThy | .eventPermBypass | .eventSwapHead | .deadTimeTurnOn | .safeLevelTurnOn
  | .gateFclr _ | .gateStopEnter _ | .gateStopExit _ | .thyDone | .gate5Release | .delayLineCal _ | .alatch _ | .disc
  | .hubDeblock _ | .hubAclr _ | .hubBset _ | .hubBclr _ | .deblockSequenceQueue | .startupTestOpen | .startupPass
  | .cellDeblock _ | .cellBlock _ | .cellPermBypass _ | .blkseenClear | .hubSourceRelease _
  | .supervisorDebugHalt | .thyristorPulse | .twinKxFrame _ | .twinHelloFrame _ | .twinStatusRx _ | .twinSliceRx _
  | .twinCommitRx _ | .heartbeatTx | .takeRx _ | .yieldRx _ | .rstRx _ | .refLost | .selfTakeover | .preferredReclaim
  | .schedSubmit _ _ | .schedulerStep | .schgTake _ | .delayRelease | .itemStuck _ | .scrubVisit _ | .memLockOpen _
  | .memLockClose _ | .errPop _ | .errSwlog _ _ | .chunkStored | .holdOffEnd | .recForce _ | .recRelall _ | .bbRearm _
  | .ltAdd _ _ | .ltLock _ | .lifetimeSecond | .lifetimeHour | .stnRekey _ | .stnClrcnt _ | .spStale
  | .mgmtResponseTx _ | .txPost _ _ | .timedTx | .streamTx | .prpSupervisionTx | .supplyMonitorRelease => true

end Sys2Proof
end

