-- ==== Sys2Proof/Tests/Slice0.lean ====
section
/-! SUPPORT. The model's own tests: ill-formed commands, single steps whose results the spec's chapters give, and for
every obligation a witness that its hypotheses can be met. -/

namespace Sys2Proof.Tests

set_option maxRecDepth 100000
set_option Elab.async false

open Sys2Proof Sys2Proof.Machine Sys2Proof.Machine.State

/-- A running part of a role with some pages enabled and their gates open. -/
def part (r : Role) (pgs : List Nat) : State :=
  (pgs.foldl (fun (s : State) (pg : Nat) => (s.setReg (R.PG_CTRL pg) 1).set (F.PG_STAT_RUN pg) 1)
    ({ role := r, phase := .running, pins := { nRst := true } } : State)).settle

/-- A running cell, hub and referee. -/
def cell (pgs : List Nat) : State := part .cell pgs
def hub (pgs : List Nat) : State := part .hub pgs
def referee (pgs : List Nat) : State := part .referee pgs

/-- Field `f` of `s` as `n`. -/
def withF (f : Fld) (n : Nat) (s : State) : State := s.set f n

/-- Little-endian words at an address. -/
def withWord (a n : Nat) (s : State) : State := s.setNum a 4 n

/-- A hub whose OTP holds a valid identity record. -/
def idHub : State := withWord 0x50000160 0xA5A55A5A (hub [])

/-- A container for every role without a body, LOAD and ENTRY at the start of SRAM; the rest of its header reads as erased
flash. Its signature has r = s = the hash, which is the x-coordinate of the point R; it was made for the key R - G. -/
def goodContainer : List Byte :=
  [0x50, 0x58, 0x49, 0x4D, 1, 0, 0, 0x10, 4, 0, 0, 0] ++ List.replicate 16 0xFF ++ [0, 0, 0, 0x10, 0, 0, 0, 0x10, 0, 0, 0, 0]
    ++ List.replicate 8 0xFF ++ beBytes 32 0xe3b0c44298fc1c149afbf4c8996fb92427ae41e4649b934ca495991b7852b855
    ++ List.replicate 3760 0xFF ++ beBytes 32 0x22c928b45c97d01fe36ac41705551ecb26b1231b9001d47a57f4817dcc48b881
    ++ beBytes 32 0x22c928b45c97d01fe36ac41705551ecb26b1231b9001d47a57f4817dcc48b881 ++ List.replicate 192 0xFF

/-- The record of that key. -/
def goodRecord : List Byte :=
  [0x50, 0x58, 0x4F, 0x4B] ++ beBytes 32 0x9090ed342e1d6711310bee5824df0f2a519aff7f09c85a529a6990b4a3e1b70f
    ++ beBytes 32 0x62841080c9f575b3b88d5fcacef1bafb08de3710b97eca44a19bc79a3848a0de

/-- The cells of a string from flash address `a` up. -/
def flashCells (a : Nat) : List Byte → List Host.Cell
  | [] => []
  | b :: l => if b = 0xFF then flashCells (a + 1) l else (a, b) :: flashCells (a + 1) l

/-- The marker of the identity record; the hash of the key of that record in owner slot 0, with its marker. -/
def idCells : List Host.Cell := [(0x50000160, 0x5A), (0x50000161, 0x5A), (0x50000162, 0xA5), (0x50000163, 0xA5)]
def ownerCells : List Host.Cell :=
  ((beBytes 32 0x9315cc9bb030b402a6a927c1b03ce74cd0e7cee3ba373f66e884fcf70be9ef69 ++ marker).zipIdx).map
    fun e => (0x50000200 + e.2, e.1)

/-- A cell in its ROM that has an identity, and whose flash slot 1 holds that container and key record. -/
def imageCell (owner : List Host.Cell) : State :=
  { cell [] with
      phase := .rom, boot := { flash := true, trying := some 1 }
      mem := idCells ++ owner ++ (flashCells 0x60800000 goodContainer ++ flashCells 0x60FFF000 goodRecord) }

def bootCell : State := imageCell ownerCells
def ownCell : State := { imageCell [] with sec := { presOpen := true } }

/-- A cell in its ROM that has an identity and holds every block of a tree container (all blocks empty, so that its header
fails). -/
def treeCell : State :=
  { cell [] with
      phase := .rom, boot := { treeBoot := true }, mem := idCells
      rx := { up := [{ blocks := (List.range 16).map fun i => (i, []) }, {}] } }

/-- The same with the sound container and its key record, in a boarding window. -/
def goodTreeCell : State :=
  { treeCell with
      rx := { up := [{ boardWindow := true, keyRecord := goodRecord
                       blocks := (List.range 16).map fun i => (i, (goodContainer.drop (256 * i)).take 256) }, {}] } }

/-- Both flash slots name a body of no length. -/
def shortSlots (s : State) : State := withWord 0x60000024 0 (withWord 0x60800024 0 s)

/-- A hub of side 0 in a twin pair with both twin lanes in sync. -/
def bondHub : State :=
  withF F.SYS_TOPO_TWIN 1 ([4, 5].foldl (fun (s : State) (n : Nat) =>
    withF (F.LANE_STAT_SYNC n) 1 (withF (F.LANE_PWR_CUR n) 0 s)) (hub [0x14, 0x15]))

/-- A hub whose tree port 3 hears its bursts. -/
def hearHub : State := withF (F.LANE_PWR_CUR 3) 0 (hub [0x0B, 0x13, 0x1B])

/-- An admission of an assigned berth after `n` offers. -/
def adm (n : Nat) : Admission := { was := { assign := 1 }, enrol := false, rom := false, offers := n }

/-- A hub whose berth 4 of port 3 is being admitted and holds management slot 0 of the round in progress. -/
def burstHub : State :=
  { withF (F.LANE_PWR_CUR 3) 0 (hub [0x13, 0x1B, 0x1C]) with
      berths := [(772, { link := .keying, admission := some (adm 1) })]
      ports := [{}, {}, {}, { grants := [(4, 0, 0)] }] }

/-- A hub whose port 3 boards, its berth 2 as given. -/
def zoneHub (b : BerthSt) : State :=
  { withF F.BERTH_BOARD_OPEN 8 (withF (F.LANE_PWR_CUR 3) 0 (hub [0x13, 0x1B, 0x1C])) with berths := [(770, b)] }

/-- A burst of the quiet zone for berth `b`: header and payload, their digest tag and CRC-32C. -/
def zoneBurst (b type : Byte) (pl : List Byte) : List Byte :=
  let h : List Byte := [b, type, 0, 0] ++ pl
  let x := h ++ digestTag h
  x ++ crcBytes x

/-- A management burst of that berth: its header and payload, their digest tag and CRC-32C. -/
def goodBurst : List Byte :=
  let h : List Byte := [4, 2] ++ List.replicate 26 0
  let b := h ++ digestTag h
  b ++ crcBytes b

/-- A cell admitted on uplink 0 at berth 2 of port 0. -/
def keyedCell : State :=
  { cell [0x0B, 0x18, 0x19] with
      rx := { up := [{ port := some 0, berth := some 2, group := some 5, session := some 6, wrap := some 7,
                       bases := [⟨0, 0, 100, 1⟩] }, {}] } }

/-- An ACTIVE frame of port 0 for cycle 9 of watch 3 without events, timetable or records, tagged under key 5. -/
def goodFrame : List Byte :=
  let h : List Byte := [1, 0, 0, 0, 0, 0, 0, 9, 0, 3, 1, 1] ++ List.replicate 92 0 ++ [0, 0, 0, 0, 0, 0, 0]
  let t := gmac 5 (tagIv 1 0 0 0 0 9) h
  h ++ t ++ crcBytes (h ++ t)

/-- A frame, where the string is one. -/
def asFrame (bs : List Byte) : RxFrame :=
  (parseFrame bs).getD ⟨0, 0, 0, 0, 0, 0, [], [], [], [], [], 0, 0, 0, [], [], [], []⟩

/-- A KXH body whose string is sound: an ephemeral key 3G, the public key R - G, and r = s = the hash of the ephemeral key,
which is the x-coordinate of R. -/
def soundKxh : List Byte :=
  let e := beBytes 32 0x4977227b955a0c90988fdc01b5623170ab8e313fe064162240d6cf4bdac7e65e
  beBytes 32 0x5ecbe4d1a6330a44c8f7ef951d4bf165e6c6b721efada985fb41661bc6e7fd6c
    ++ beBytes 32 0x8734640c4998ff7e374b06ce1a64a2ecd82ab036384fb83d9a79b127a27d5032
    ++ beBytes 32 0xe8cd8af1031bdb0b69930ffc58c3c6e7e49cecf925f5c1c44940b00535fd56a9
    ++ beBytes 32 0x53a3ce83cdc49fa7423e4147f1f3274b412de25dafb82d0ce09f92600045047f ++ e ++ e
    ++ List.replicate 12 0

/-- A cell to which berth 2 has been offered on uplink 0 in an enrolment window. -/
def offeredCell : State :=
  { cell [0x0B, 0x18] with
      rx := { up := [{ berth := some 2, offer := some ⟨2, true, 4, 64, some 4096⟩ }, {}] } }

/-- With the transmitter of lane 0 of a cell running on its recovered clock. -/
def litLane (s : State) : State :=
  withF (F.PG_CTRL_EN 0x10) 1 (withF (F.PG_STAT_RUN 0x10) 1 (withF (F.LANE_STAT_CDR_LOCK 0) 1 (withF (F.LANE_PWR_CUR 0) 0 s)))

/-- A cell that may board on uplink 0. -/
def boardingCell : State :=
  { litLane (cell [0x0B, 0x18]) with rx := { up := [{ boarding := true, beacon := true }, {}] } }

/-- A keyed cell with report slot 0, its laser allowed. -/
def slotCell : State := litLane (withF (F.TREE_CELL_SLOT_VALID 0) 1 keyedCell)

/-- A keyed cell whose meridians run; its last was `k`. -/
def cyclingCell (k : Nat) : State :=
  let s := withF F.TIME_MER_RUN 1 keyedCell
  { s with rx := { s.rx with obeying := true }, time := { s.time with lastK := some k, cont := true } }

/-- A deblocked half-bridge cell in bypass, its gate block running, with events queued. -/
def gateCell (l : List CellEvent) : State :=
  let s := cell [0x0B, 0x18, 0x19, 0x26, 0x28, 0x2B, 0x2C, 0x2D, 0x2E]
  State.settle { s with
      rx := { s.rx with events := l, obeying := true }
      gate := { s.gate with state := .bypass, legA := .lower, blocked := false, stops := [] }
      safe := { s.safe with db := true } }

/-- An event due at an instant, queued long before. -/
def evAt (t : Nat) (a : EvAct) : CellEvent := ⟨5, 1, t, 0, a⟩

/-- A hub without a twin, its start-up test passed and its meridians running. -/
def valveHub : State :=
  { withF F.TIME_MER_RUN 1 (hub [0x0B, 0x18, 0x1B, 0x1C, 0x2D, 0x2E]) with safe := { startup := 2 } }

/-- A hub whose valve is deblocked, one berth admitted. -/
def openHub : State :=
  { valveHub with
      safe := { startup := 2, vb := true, seqLeft := [770] }, berths := [(770, { link := .admitted, assign := 1 })] }

/-- The snapshot of meridian 4. -/
def snap4 : Snap := ⟨4, 0, 0, 0, false, [{}, {}], none, [], []⟩

/-- A hub whose meridians run, the work of cycle 4 in progress with some stages done. -/
def workHub (stages : Nat) : State :=
  let s := withF F.CLK_SRC_REFC_EN 1 (withF (F.LANE_PWR_CUR 0) 0 (hub [0x0B, 0x10, 0x18, 0x20, 0x21, 0x23, 0x25, 0x26, 0x27]))
  let s := withF F.TIME_MER_RUN 1 s
  { s with mod := { s.mod with used := some snap4, stages := stages }, time := { s.time with lastK := some 4 } }

/-- A frame built for port 0. -/
def built : BuiltFrame :=
  { lead := 0, watch := 1, flags := 1, refs := [], bitmap := [], rep := [], new := [], tt := [], mhdr := [0, 0, 0, 0], mbody := [] }

/-- A deblocked cell in INTERLEAVE with its epoch applied. -/
def carrierCell : State :=
  let s := gateCell []
  { s with
      act := kvSet s.act F.MOD_CELL_CFG_MODE.addr (setBits (s.actReg F.MOD_CELL_CFG_MODE.addr) F.MOD_CELL_CFG_MODE.lo 1 1)
      cmod := { s.cmod with epoch := some (3, 0) } }

/-- A hub of side B in a bonded twin pair, its links keyed with keys 5 and 6. -/
def pairHub : State :=
  let s := withF (F.LANE_PWR_CUR 4) 0 (withF (F.LANE_PWR_CUR 5) 0 (hub [0x0D, 0x0E, 0x14, 0x15, 0x20, 0x27]))
  let s := withF F.CLK_SRC_REFC_EN 1 (withF F.TWIN_STAT_BOND 1 (withF F.SYS_NODE_SIDE 1 (withF F.SYS_TOPO_TWIN 1 s)))
  { s with twin := { s.twin with link := { rx := some 5, tx := some 6 }, ref := { rx := some 7, tx := some 8 } } }

/-- A frame of the twin link under key 5 from side A, with counter 1. -/
def linkFrame (type : Nat) (body : List Byte) : List Byte :=
  let h := BitVec.ofNat 8 type :: (beBytes 2 body.length ++ beBytes 6 1) ++ body
  let f := h ++ gmac 5 (tagIv 5 0 0 0 0 1) h
  f ++ crcBytes f

/-- A KX frame whose string is sound; its sender is entered in the peer table. -/
def kxFrame : List Byte :=
  let f := 1 :: (beBytes 2 192 ++ beBytes 6 0) ++ soundKxh.take 192 ++ List.replicate 8 0
  f ++ crcBytes f

/-- The sender of `soundKxh` in entry 0 of the peer table. -/
def withPeer (s : State) : State :=
  let i := keyId (kxPub soundKxh)
  withF (F.SEC_PEER_CTL_TYPE 0) 3 ((s.setReg (R.SEC_PEER_LO 0) (idLo i)).setReg (R.SEC_PEER_HI 0) (idHi i))

/-- A frame of the referee under key 7 with counter 0. -/
def refereeFrame (type w : Nat) : List Byte :=
  refFrame type 0 (beBytes 2 0 ++ beBytes 2 w ++ List.replicate 5 0) (refTag 7 0 1 0)

/-- A referee of one pair, past listening, hub A active with watch 5. -/
def pairRef : State :=
  let s := withF (F.REF_PSTAT_WATCH 0) 5 (withF (F.REF_PSTAT_ACT 0) 1 (withF (F.REF_PSTAT_STATE 0) 1
    (withF (F.REF_PCFG_EN 0) 1 (referee [0x0E]))))
  { s with
      refPairs := [{ listening := false }, {}]
      refLinks := [{ keys := { rx := some 7, tx := some 8 } }, { keys := { rx := some 7, tx := some 8 } }, {}, {}] }

/-- A hub whose station link L6 is up, with keys 5 and 6 of the station controller. -/
def stnHub : State :=
  let s := withF F.CLK_SRC_REFC_EN 1 (withF (F.LANE_PWR_CUR 6) 0 (hub [0x0B, 0x0C, 0x16, 0x28]))
  let s := withF F.STN_STAT_KEYED 1 (withF F.STN_STAT_LINK 1 s)
  { s with stn := { s.stn with keys := { rx := some 5, tx := some 6 } } }

/-- A frame for the hub's address at time 0. -/
def eth (etype : Nat) (body : List Byte) : EthRx := ⟨0, 0x020000000000, 9, etype, body, true, true, none, 0⟩

/-- A frame of R653 of a type with SEQ 3, tagged under key 5. -/
def etolwick (type : Nat) (body : List Byte) : EthRx :=
  let h := [BitVec.ofNat 8 type, 1, 0, 0] ++ beBytes 6 3 ++ beBytes 2 body.length ++ body
  eth 0x88B5 (h ++ gmac 5 (tagIv 6 0 0 0 0 3) h)

/-- A KX answer to the hub's ephemeral key G, made as `soundKxh` is. -/
def stnKxh : List Byte :=
  let e := beBytes 32 0xc445ab2a597bed4e185cd110ccf8ece4393122b5cbbfcecdbd0b184132aae66d
  beBytes 32 0x5ecbe4d1a6330a44c8f7ef951d4bf165e6c6b721efada985fb41661bc6e7fd6c
    ++ beBytes 32 0x8734640c4998ff7e374b06ce1a64a2ecd82ab036384fb83d9a79b127a27d5032
    ++ beBytes 32 0x9666c5f6127ce7a2124c18b60a12ec59bcd202e9ae5698d14699c1101a5c64fb
    ++ beBytes 32 0xad006502ea6fbeb2d8da1327ca73b49fa59b6dc473062b74be2292dc23912589 ++ e ++ e

/-- The hub that waits for that answer, its sender a station controller of the peer table. -/
def kxHub : State :=
  let i := keyId (kxPub stnKxh)
  let s := withF (F.SEC_PEER_CTL_TYPE 0) 1 ((stnHub.setReg (R.SEC_PEER_LO 0) (idLo i)).setReg (R.SEC_PEER_HI 0) (idHi i))
  { s with stn := { s.stn with keys := { priv := 1 } } }

/-- A sampled-value body behind its EtherType: APPID 7, one ASDU with smpCnt 3 and a dataset of zeros. -/
def svBody : List Byte :=
  let asdu : List Byte := [0x30, 73, 0x82, 2, 0, 3, 0x85, 1, 2, 0x87, 64] ++ List.replicate 64 0
  [0, 7, 0, 0, 0, 0, 0, 0, 0x60, 80, 0x80, 1, 1, 0xA2, 75] ++ asdu

/-- A hub that checks slot 1, which holds a program of one chain with one section, all of its coefficients zero. -/
def progHub : State :=
  withWord 0x20160048 255 (withWord 0x20160044 0x01010000 (withWord 0x2016000C 2876678164 (withWord 0x20160008 1
    (withWord 0x20160004 0x00010001 (withWord 0x20160000 0x47435850 (withF (F.CTL_PGM_STAT_BUSY 1) 1 (hub [0x20])))))))

/-- What a string in flash reads as. -/
theorem bytes_flashCells (s : State) (l : List Byte) :
    ∀ (a : Nat) (pre post : List Host.Cell), s.mem = pre ++ (flashCells a l ++ post) → (∀ c ∈ pre, c.1 < a) →
      (∀ c ∈ post, a + l.length ≤ c.1) → 0x60000000 ≤ a → a + l.length ≤ 0x61000000 → s.bytes a l.length = l := by
  have none_of : ∀ (m : List Host.Cell) (a : Nat), (∀ c ∈ m, c.1 ≠ a) → kvFind m a = none := by
    intro m a h
    induction m with
    | nil => rfl
    | cons c m ih =>
      have := h c (by simp)
      simp [kvFind, this, ih fun c hc => h c (by simp [hc])]
  have skip : ∀ (m n : List Host.Cell) (a : Nat), (∀ c ∈ m, c.1 ≠ a) → kvFind (m ++ n) a = kvFind n a := by
    intro m n a h
    induction m with
    | nil => rfl
    | cons c m ih =>
      have := h c (by simp)
      simp [kvFind, this, ih fun c hc => h c (by simp [hc])]
  have above : ∀ (l : List Byte) (a : Nat), ∀ c ∈ flashCells a l, a ≤ c.1 := by
    intro l
    induction l with
    | nil => simp [flashCells]
    | cons b l ih =>
      intro a c hc
      simp only [flashCells] at hc
      split at hc
      · have := ih _ c hc; omega
      · simp only [List.mem_cons] at hc
        rcases hc with rfl | hc
        · simp
        · have := ih _ c hc; omega
  induction l with
  | nil => intros; rfl
  | cons b l ih =>
    intro a pre post hm hpre hpost h1 h2
    simp only [List.length_cons] at hpost h2
    have hb : s.byte a = b := by
      unfold State.byte
      rw [hm, skip pre _ a fun c hc => by have := hpre c hc; omega]
      simp only [flashCells]
      split
      · next h =>
        rw [none_of]
        · simp only [Option.getD_none, blankByte]; rw [if_pos (by omega)]; exact h.symm
        · intro c hc
          simp only [List.mem_append] at hc
          rcases hc with hc | hc
          · have := above _ _ c hc; omega
          · have := hpost c hc; omega
      · simp [kvFind]
    simp only [List.length_cons, State.bytes, hb]
    congr 1
    by_cases h : b = 0xFF
    · refine ih (a + 1) pre post ?_ ?_ ?_ (by omega) (by omega)
      · simpa [flashCells, h] using hm
      · intro c hc; have := hpre c hc; omega
      · intro c hc; have := hpost c hc; omega
    · refine ih (a + 1) (pre ++ [(a, b)]) post ?_ ?_ ?_ (by omega) (by omega)
      · rw [hm]; simp only [flashCells, if_neg h, List.cons_append, List.append_assoc, List.nil_append]
      · intro c hc
        simp only [List.mem_append, List.mem_singleton] at hc
        rcases hc with hc | rfl
        · have := hpre c hc; omega
        · simp
      · intro c hc; have := hpost c hc; omega

theorem goodContainer_length : goodContainer.length = 4096 := by decide +kernel
theorem goodContainer_signed :
    ecdsaVerify (keyOf goodRecord) (goodContainer.take 0xF00) ((goodContainer.drop 0xF00).take 64) = true := by
  decide +kernel

/-- The container passes every test of a cell that has never raised its anti-rollback counter. -/
theorem goodContainer_passes (s : State) (h : s.role = .cell) (ha : s.antiRollback = 0) :
    s.containerWhy goodContainer (some (keyOf goodRecord)) = 0 := by
  have e : s.headerWhy goodContainer (some (keyOf goodRecord)) = 0 := by
    have k : ∀ P : Nat → Prop, P 0 → P (s.headerWhy goodContainer (some (keyOf goodRecord))) := by
      intro P hP
      unfold State.headerWhy
      simp only [goodContainer_signed, h, ha]
      rw [if_neg (by decide +kernel), if_neg (by decide +kernel), if_neg (by decide +kernel), if_neg (by decide +kernel),
        if_neg (by decide), if_neg (by omega)]
      exact hP
    exact k (· = 0) rfl
  unfold State.containerWhy
  rw [e]
  simp only []
  rw [if_pos (by decide +kernel)]

/-- The image of slot 1 of a part whose flash holds it. -/
theorem imageCell_slot (owner : List Host.Cell) (s : State) (hm : s.mem = (imageCell owner).mem)
    (ho : ∀ c ∈ owner, c.1 < 0x60800000) (hn : s.num (slotAddr 1 + 0x24) 4 = 0) : s.slotImage 1 = goodContainer := by
  unfold State.slotImage
  rw [hn]
  have := bytes_flashCells s goodContainer 0x60800000 (idCells ++ owner) (flashCells 0x60FFF000 goodRecord) hm
    (by
      intro c hc
      simp only [List.mem_append] at hc
      rcases hc with hc | hc
      · exact (by decide : ∀ c ∈ idCells, c.1 < 0x60800000) c hc
      · exact ho c hc)
    (by rw [goodContainer_length]; decide +kernel) (by omega) (by rw [goodContainer_length]; omega)
  rw [goodContainer_length] at this
  exact this

theorem bootCell_passes : bootCell.containerWhy (bootCell.slotImage 1) bootCell.flashOwner = 0 := by
  rw [imageCell_slot ownerCells bootCell rfl (by decide +kernel) (by decide +kernel),
    show bootCell.flashOwner = some (keyOf goodRecord) by decide +kernel]
  exact goodContainer_passes _ rfl (by decide +kernel)

theorem ownCell_passes : ownCell.ownerTest 1 = some 0 := by
  unfold State.ownerTest
  rw [show keyMagic (ownCell.keyRecord 1) = true by decide +kernel, show ownCell.keyRecord 1 = goodRecord by decide +kernel,
    imageCell_slot [] ownCell rfl (by decide) (by decide +kernel), goodContainer_passes _ rfl (by decide +kernel)]
  rfl

theorem goodTreeCell_passes : goodTreeCell.containerWhy goodContainer (goodTreeCell.treeKey 0) = 0 := by
  rw [show goodTreeCell.treeKey 0 = some (keyOf goodRecord) by decide +kernel]
  exact goodContainer_passes _ rfl (by decide +kernel)

/-- The word of the worked example of 11_modulation_edges.md: berth 0x025, action 1, offset 200 ns, SEQ 0x1A4. -/
theorem test_event_word : beBytes 6 (evWord 0x25 1 12800 + 0x1A4) = [0x09, 0x44, 0x00, 0xC8, 0x01, 0xA4] := by decide

/-- CRC-32C (R246) of the nine digits of its public check value. -/
theorem test_crc32c : crc32c ((List.range 9).map fun i => BitVec.ofNat 8 (0x31 + i)) = 0xE3069283 := by decide +kernel

/-- The stored chain entry of the circulating-current example of 13_control_engine.md: its bytes in memory, read. -/
def exampleChain : ChainEnt :=
  State.chainEnt (withWord 0x20160044 0x02010001 (withWord 0x20160040 0x2D292820 (withWord 0x20160048 0x00000800
    (withWord 0x2016004C 0x3F800000 (hub []))))) 1 0
theorem test_chain_entry :
    exampleChain = { inA := 32, inB := 40, out := 41, op := 1, outen := true, blend := true, rescale := false, en := true
                     first := 1, nsec := 1, nbank := 2, sched := 0, bmap := 8, kin := 0x3F800000
                     links := List.replicate 16 0 } := by decide +kernel

/-- The trim cell of the worked example of 11_modulation_edges.md: with T_cyc = 5 us and WMIN = 1600 ns a residual of 0.45
gives W = 2250 ns, one of 0.30 no pulse. -/
def exampleTrim : State := withF F.MOD_TRIM_WMIN 1600 (withF F.TIME_MER_TCYC 5 (hub []))
theorem test_trim_width :
    exampleTrim.trimWidth 0x3FDCCCCCCCCCCCCD = 2250 * 64 ∧ exampleTrim.trimWidth 0x3FD3333333333333 = 0 := by
  decide +kernel

/-- A sound station frame. -/
def frame : EthRx := ⟨0, 0, 0, 0, [], true, true, none, 0⟩

theorem test_wf_takes_1 :
    (Instr.clkDomWrite .supervisor 0 0).wf = true ∧
    (Instr.rampStep 0).wf = true ∧
    (Instr.forcedSwitch 0).wf = true ∧
    (Instr.clockMonitorWindow 0 0).wf = true ∧
    (Instr.sourceNoEdge 0).wf = true ∧
    (Instr.spllUnlock 0).wf = true ∧
    (Instr.speedCount (List.replicate 8 0)).wf = true ∧
    (Instr.gateHandshake 0).wf = true ∧
    (Instr.gateTimeout ⟨0, none⟩).wf = true ∧
    (Instr.ungate 0).wf = true ∧
    (Instr.registerWrite .supervisor 1 0 0).wf = true ∧
    (Instr.maskedWrite .supervisor 0 0 0).wf = true ∧
    (Instr.pgCommitRequest .supervisor 0).wf = true ∧
    (Instr.pageSrst .supervisor 0).wf = true ∧
    (Instr.pageHold .supervisor 0 true).wf = true ∧
    (Instr.pageHeld 0).wf = true ∧
    (Instr.pageEnable .supervisor 0 true).wf = true ∧
    (Instr.pgEvtSet .supervisor 0 0).wf = true ∧
    (Instr.guardLock .supervisor 0).wf = true ∧
    (Instr.hostRd 0 0 0 true).wf = true ∧
    (Instr.hostWr 0 (List.replicate 1 0) 0 true).wf = true ∧
    (Instr.hostMwr 0 0 0 0 true).wf = true ∧
    (Instr.hostStat 0 true).wf = true ∧
    (Instr.releaseRequest .supervisor 0).wf = true ∧
    (Instr.gpioFnWrite .supervisor 0 0).wf = true ∧
    (Instr.gpioEdge 0 true).wf = true ∧
    (Instr.syncGained 0).wf = true ∧
    (Instr.syncLost 0 0).wf = true ∧
    (Instr.rateHuntSwitch 0).wf = true ∧
    (Instr.polFlip 0).wf = true := by
  decide

theorem test_wf_takes_2 :
    (Instr.lossOfSignal 0).wf = true ∧
    (Instr.cdrLock 0).wf = true ∧
    (Instr.lanePwrRequest .supervisor 0 0).wf = true ∧
    (Instr.pstateDone 0).wf = true ∧
    (Instr.eyeScanGo .supervisor 0).wf = true ∧
    (Instr.esDone 0 0).wf = true ∧
    (Instr.eyeScanAbort 0 0 0).wf = true ∧
    (Instr.prbsInject .supervisor 0).wf = true ∧
    (Instr.prbsClear .supervisor 0).wf = true ∧
    (Instr.prbsLock 0).wf = true ∧
    (Instr.prbsRelock 0 0).wf = true ∧
    (Instr.brstPulse 0 0).wf = true ∧
    (Instr.ptpTimestamp 0 0 0 true 0 0).wf = true ∧
    (Instr.tsqPop .supervisor 0).wf = true ∧
    (Instr.treeRaGo .supervisor 0 0).wf = true ∧
    (Instr.remoteTimeout 0 0).wf = true ∧
    (Instr.groupKeyRenewal 0).wf = true ∧
    (Instr.sessionKeyRenewal 0).wf = true ∧
    (Instr.upstreamBurstRx 0 0 true true [] 0 0).wf = true ∧
    (Instr.cycleFrameRx 0 true [] 0 0).wf = true ∧
    (Instr.mgrant 0 0 0 0).wf = true ∧
    (Instr.rslot 0 0 0 0).wf = true ∧
    (Instr.laserKill 0 0 true).wf = true ∧
    (Instr.mgmtRdRecord 0 0 0 0 1).wf = true ∧
    (Instr.mgmtWrRecord 0 0 0 true true 0 (List.replicate 1 0)).wf = true ∧
    (Instr.mgmtMwrRecord 0 0 0 true true 0 0 0).wf = true ∧
    (Instr.mgmtWrpRecord 0 true true 0 (List.replicate 1 0)).wf = true ∧
    (Instr.keyRecord 0 0 0 (List.replicate 32 0)).wf = true ∧
    (Instr.delayRecord 0 0 0 0 0).wf = true ∧
    (Instr.tbaseRecord 0 (List.replicate 20 0)).wf = true := by
  decide

theorem test_wf_takes_3 :
    (Instr.beaconRecord 0 (List.replicate 24 0)).wf = true ∧
    (Instr.offerRecord 0 (List.replicate 24 0)).wf = true ∧
    (Instr.kxhRecord 0 0 0 (List.replicate 204 0)).wf = true ∧
    (Instr.refuseRecord 0 (List.replicate 12 0)).wf = true ∧
    (Instr.restoreRecord 0 (List.replicate 32 0)).wf = true ∧
    (Instr.reportBurstTx 0).wf = true ∧
    (Instr.mgmtBurstTx 0).wf = true ∧
    (Instr.mgmtBurstRx 0 0 (List.replicate 24 0)).wf = true ∧
    (Instr.enrolmentWindowOpen .supervisor 0).wf = true ∧
    (Instr.enrolmentWindowClose .supervisor 0).wf = true ∧
    (Instr.enrolmentWindowExpire 0).wf = true ∧
    (Instr.boardingBurstTx 0).wf = true ∧
    (Instr.boardingBackoff 0).wf = true ∧
    (Instr.boardingBurstRx 0 ⟨true, true, []⟩ 0).wf = true ∧
    (Instr.collision 0).wf = true ∧
    (Instr.rangingBurstTx 0).wf = true ∧
    (Instr.rangingBurstRx 0 true true [] 0 ⟨0, 0⟩).wf = true ∧
    (Instr.rangingTimeout 0 0).wf = true ∧
    (Instr.rejoinTrigger 0).wf = true ∧
    (Instr.roundBoundary (List.replicate 4 [])).wf = true ∧
    (Instr.babblerSearchGo .automatic 0).wf = true ∧
    (Instr.searchStep 0 true).wf = true ∧
    (Instr.programLoad .supervisor 0).wf = true ∧
    (Instr.loadDone 0).wf = true ∧
    (Instr.rcuClear .supervisor 0).wf = true ∧
    (Instr.rcuClearDone 0).wf = true ∧
    (Instr.injectorGo .supervisor 0).wf = true ∧
    (Instr.injectorStop .supervisor 0).wf = true ∧
    (Instr.tevArm .supervisor 0 0).wf = true ∧
    (Instr.tevDisarm .supervisor 0).wf = true := by
  decide

theorem test_wf_takes_4 :
    (Instr.tevFired 0).wf = true ∧
    (Instr.comparatorAssert ⟨0, []⟩).wf = true ∧
    (Instr.comparatorDeassert ⟨0, 0⟩).wf = true ∧
    (Instr.singleBerthDeblock .supervisor 0).wf = true ∧
    (Instr.blkos 0 0).wf = true ∧
    (Instr.tevPulseEnd 0).wf = true ∧
    (Instr.adcResult 0 0 0 0).wf = true ∧
    (Instr.refereeFrameTx 0).wf = true ∧
    (Instr.refHbRx 0 []).wf = true ∧
    (Instr.linkMiss 0).wf = true ∧
    (Instr.refereeListenEnd 0).wf = true ∧
    (Instr.refereeKx 0 []).wf = true ∧
    (Instr.hwArrival 0 0 0).wf = true ∧
    (Instr.schgDone .supervisor 0).wf = true ∧
    (Instr.schgCancel .supervisor 0).wf = true ∧
    (Instr.schqFlush .supervisor 0).wf = true ∧
    (Instr.arbiterGrant []).wf = true ∧
    (Instr.lockBreak 1).wf = true ∧
    (Instr.errAck .supervisor 0).wf = true ∧
    (Instr.recRel .supervisor 0).wf = true ∧
    (Instr.monSnap .supervisor 0 0).wf = true ∧
    (Instr.stationLinkUp 0).wf = true ∧
    (Instr.stationKxRx frame).wf = true ∧
    (Instr.stationLinkDown 0).wf = true ∧
    (Instr.setpointRx frame).wf = true ∧
    (Instr.mgmtRequestRx frame).wf = true ∧
    (Instr.svFrameRx frame).wf = true ∧
    (Instr.svLost 0).wf = true ∧
    (Instr.rxToRing frame).wf = true ∧
    (Instr.faultAssert ⟨0, 0⟩).wf = true := by
  decide

theorem test_wf_takes_5 :
    (Instr.faultSourceRelease 0).wf = true ∧
    (Instr.bondUp 0 1 0 0).wf = true ∧
    (Instr.bondErr 1 0).wf = true := by
  decide

theorem test_wf_refuses_1 :
    (Instr.clkDomWrite .supervisor 4 0).wf = false ∧
    (Instr.rampStep 4).wf = false ∧
    (Instr.forcedSwitch 4).wf = false ∧
    (Instr.clockMonitorWindow 5 0).wf = false ∧
    (Instr.sourceNoEdge 5).wf = false ∧
    (Instr.spllUnlock 5).wf = false ∧
    (Instr.speedCount (List.replicate 9 0)).wf = false ∧
    (Instr.gateHandshake 48).wf = false ∧
    (Instr.gateTimeout ⟨48, none⟩).wf = false ∧
    (Instr.gateTimeout ⟨0, some ⟨.supervisor, 65536, none⟩⟩).wf = false ∧
    (Instr.ungate 48).wf = false ∧
    (Instr.registerWrite .supervisor 0 0 0).wf = false ∧
    (Instr.registerWrite .supervisor 5 0 0).wf = false ∧
    (Instr.registerWrite .supervisor 1 65536 0).wf = false ∧
    (Instr.maskedWrite .supervisor 65536 0 0).wf = false ∧
    (Instr.pgCommitRequest .supervisor 48).wf = false ∧
    (Instr.pageSrst .supervisor 48).wf = false ∧
    (Instr.pageHold .supervisor 48 true).wf = false ∧
    (Instr.pageHeld 48).wf = false ∧
    (Instr.pageEnable .supervisor 48 true).wf = false ∧
    (Instr.pgEvtSet .supervisor 48 0).wf = false ∧
    (Instr.guardLock .supervisor 48).wf = false ∧
    (Instr.hostRd 65536 0 0 true).wf = false ∧
    (Instr.hostRd 0 64 0 true).wf = false ∧
    (Instr.hostRd 0 0 65536 true).wf = false ∧
    (Instr.hostWr 65536 (List.replicate 1 0) 0 true).wf = false ∧
    (Instr.hostWr 0 (List.replicate 0 0) 0 true).wf = false ∧
    (Instr.hostWr 0 (List.replicate 65 0) 0 true).wf = false ∧
    (Instr.hostWr 0 (List.replicate 1 0) 65536 true).wf = false ∧
    (Instr.hostMwr 65536 0 0 0 true).wf = false := by
  decide

theorem test_wf_refuses_2 :
    (Instr.hostMwr 0 0 0 65536 true).wf = false ∧
    (Instr.hostStat 65536 true).wf = false ∧
    (Instr.releaseRequest .supervisor 4096).wf = false ∧
    (Instr.gpioFnWrite .supervisor 8 0).wf = false ∧
    (Instr.gpioEdge 8 true).wf = false ∧
    (Instr.syncGained 8).wf = false ∧
    (Instr.syncLost 8 0).wf = false ∧
    (Instr.rateHuntSwitch 8).wf = false ∧
    (Instr.polFlip 8).wf = false ∧
    (Instr.lossOfSignal 8).wf = false ∧
    (Instr.cdrLock 8).wf = false ∧
    (Instr.lanePwrRequest .supervisor 8 0).wf = false ∧
    (Instr.lanePwrRequest .supervisor 0 4).wf = false ∧
    (Instr.pstateDone 8).wf = false ∧
    (Instr.eyeScanGo .supervisor 8).wf = false ∧
    (Instr.esDone 8 0).wf = false ∧
    (Instr.eyeScanAbort 8 0 0).wf = false ∧
    (Instr.prbsInject .supervisor 8).wf = false ∧
    (Instr.prbsClear .supervisor 8).wf = false ∧
    (Instr.prbsLock 8).wf = false ∧
    (Instr.prbsRelock 8 0).wf = false ∧
    (Instr.brstPulse 4 0).wf = false ∧
    (Instr.brstPulse 0 268).wf = false ∧
    (Instr.ptpTimestamp 2 0 0 true 0 0).wf = false ∧
    (Instr.ptpTimestamp 0 0 4 true 0 0).wf = false ∧
    (Instr.tsqPop .supervisor 2).wf = false ∧
    (Instr.treeRaGo .supervisor 4 0).wf = false ∧
    (Instr.remoteTimeout 4 0).wf = false ∧
    (Instr.remoteTimeout 0 256).wf = false ∧
    (Instr.groupKeyRenewal 4).wf = false := by
  decide

theorem test_wf_refuses_3 :
    (Instr.sessionKeyRenewal 1024).wf = false ∧
    (Instr.upstreamBurstRx 4 0 true true [] 0 0).wf = false ∧
    (Instr.upstreamBurstRx 0 268 true true [] 0 0).wf = false ∧
    (Instr.upstreamBurstRx 0 0 true true [] 64 0).wf = false ∧
    (Instr.upstreamBurstRx 0 0 true true [] 0 16).wf = false ∧
    (Instr.cycleFrameRx 2 true [] 0 0).wf = false ∧
    (Instr.mgrant 2 0 0 0).wf = false ∧
    (Instr.mgrant 0 256 0 0).wf = false ∧
    (Instr.mgrant 0 0 8 0).wf = false ∧
    (Instr.mgrant 0 0 0 256).wf = false ∧
    (Instr.rslot 2 0 0 0).wf = false ∧
    (Instr.rslot 0 256 0 0).wf = false ∧
    (Instr.rslot 0 0 256 0).wf = false ∧
    (Instr.rslot 0 0 0 256).wf = false ∧
    (Instr.laserKill 2 0 true).wf = false ∧
    (Instr.laserKill 0 256 true).wf = false ∧
    (Instr.mgmtRdRecord 2 0 0 0 1).wf = false ∧
    (Instr.mgmtRdRecord 0 256 0 0 1).wf = false ∧
    (Instr.mgmtRdRecord 0 0 256 0 1).wf = false ∧
    (Instr.mgmtRdRecord 0 0 0 65536 1).wf = false ∧
    (Instr.mgmtRdRecord 0 0 0 0 0).wf = false ∧
    (Instr.mgmtRdRecord 0 0 0 0 6).wf = false ∧
    (Instr.mgmtWrRecord 2 0 0 true true 0 (List.replicate 1 0)).wf = false ∧
    (Instr.mgmtWrRecord 0 256 0 true true 0 (List.replicate 1 0)).wf = false ∧
    (Instr.mgmtWrRecord 0 0 256 true true 0 (List.replicate 1 0)).wf = false ∧
    (Instr.mgmtWrRecord 0 0 0 true true 65536 (List.replicate 1 0)).wf = false ∧
    (Instr.mgmtWrRecord 0 0 0 true true 0 (List.replicate 0 0)).wf = false ∧
    (Instr.mgmtWrRecord 0 0 0 true true 0 (List.replicate 17 0)).wf = false ∧
    (Instr.mgmtMwrRecord 2 0 0 true true 0 0 0).wf = false ∧
    (Instr.mgmtMwrRecord 0 256 0 true true 0 0 0).wf = false := by
  decide

theorem test_wf_refuses_4 :
    (Instr.mgmtMwrRecord 0 0 256 true true 0 0 0).wf = false ∧
    (Instr.mgmtMwrRecord 0 0 0 true true 65536 0 0).wf = false ∧
    (Instr.mgmtWrpRecord 2 true true 0 (List.replicate 1 0)).wf = false ∧
    (Instr.mgmtWrpRecord 0 true true 65536 (List.replicate 1 0)).wf = false ∧
    (Instr.mgmtWrpRecord 0 true true 0 (List.replicate 0 0)).wf = false ∧
    (Instr.mgmtWrpRecord 0 true true 0 (List.replicate 17 0)).wf = false ∧
    (Instr.keyRecord 2 0 0 (List.replicate 32 0)).wf = false ∧
    (Instr.keyRecord 0 256 0 (List.replicate 32 0)).wf = false ∧
    (Instr.keyRecord 0 0 256 (List.replicate 32 0)).wf = false ∧
    (Instr.keyRecord 0 0 0 (List.replicate 33 0)).wf = false ∧
    (Instr.delayRecord 2 0 0 0 0).wf = false ∧
    (Instr.delayRecord 0 256 0 0 0).wf = false ∧
    (Instr.delayRecord 0 0 256 0 0).wf = false ∧
    (Instr.delayRecord 0 0 0 (2 ^ 24) 0).wf = false ∧
    (Instr.delayRecord 0 0 0 0 (2 ^ 24)).wf = false ∧
    (Instr.tbaseRecord 2 (List.replicate 20 0)).wf = false ∧
    (Instr.tbaseRecord 0 (List.replicate 21 0)).wf = false ∧
    (Instr.beaconRecord 2 (List.replicate 24 0)).wf = false ∧
    (Instr.beaconRecord 0 (List.replicate 25 0)).wf = false ∧
    (Instr.offerRecord 2 (List.replicate 24 0)).wf = false ∧
    (Instr.offerRecord 0 (List.replicate 25 0)).wf = false ∧
    (Instr.kxhRecord 2 0 0 (List.replicate 204 0)).wf = false ∧
    (Instr.kxhRecord 0 256 0 (List.replicate 204 0)).wf = false ∧
    (Instr.kxhRecord 0 0 256 (List.replicate 204 0)).wf = false ∧
    (Instr.kxhRecord 0 0 0 (List.replicate 205 0)).wf = false ∧
    (Instr.refuseRecord 2 (List.replicate 12 0)).wf = false ∧
    (Instr.refuseRecord 0 (List.replicate 13 0)).wf = false ∧
    (Instr.restoreRecord 2 (List.replicate 32 0)).wf = false ∧
    (Instr.restoreRecord 0 (List.replicate 33 0)).wf = false ∧
    (Instr.reportBurstTx 2).wf = false := by
  decide

theorem test_wf_refuses_5 :
    (Instr.mgmtBurstTx 2).wf = false ∧
    (Instr.mgmtBurstRx 4 0 (List.replicate 24 0)).wf = false ∧
    (Instr.mgmtBurstRx 0 256 (List.replicate 24 0)).wf = false ∧
    (Instr.mgmtBurstRx 0 0 (List.replicate 25 0)).wf = false ∧
    (Instr.enrolmentWindowOpen .supervisor 4).wf = false ∧
    (Instr.enrolmentWindowClose .supervisor 4).wf = false ∧
    (Instr.enrolmentWindowExpire 4).wf = false ∧
    (Instr.boardingBurstTx 2).wf = false ∧
    (Instr.boardingBackoff 2).wf = false ∧
    (Instr.boardingBurstRx 4 ⟨true, true, []⟩ 0).wf = false ∧
    (Instr.collision 4).wf = false ∧
    (Instr.rangingBurstTx 2).wf = false ∧
    (Instr.rangingBurstRx 4 true true [] 0 ⟨0, 0⟩).wf = false ∧
    (Instr.rangingBurstRx 0 true true [] 0 ⟨64, 0⟩).wf = false ∧
    (Instr.rangingBurstRx 0 true true [] 0 ⟨0, 16⟩).wf = false ∧
    (Instr.rangingTimeout 4 0).wf = false ∧
    (Instr.rangingTimeout 0 256).wf = false ∧
    (Instr.rejoinTrigger 2).wf = false ∧
    (Instr.roundBoundary (List.replicate 5 [])).wf = false ∧
    (Instr.babblerSearchGo .automatic 4).wf = false ∧
    (Instr.searchStep 4 true).wf = false ∧
    (Instr.programLoad .supervisor 2).wf = false ∧
    (Instr.loadDone 2).wf = false ∧
    (Instr.rcuClear .supervisor 16).wf = false ∧
    (Instr.rcuClearDone 16).wf = false ∧
    (Instr.injectorGo .supervisor 2).wf = false ∧
    (Instr.injectorStop .supervisor 2).wf = false ∧
    (Instr.tevArm .supervisor 6 0).wf = false ∧
    (Instr.tevDisarm .supervisor 6).wf = false ∧
    (Instr.tevFired 6).wf = false := by
  decide

theorem test_wf_refuses_6 :
    (Instr.comparatorAssert ⟨4, []⟩).wf = false ∧
    (Instr.comparatorAssert ⟨0, ([0, 32768])⟩).wf = false ∧
    (Instr.comparatorDeassert ⟨4, 0⟩).wf = false ∧
    (Instr.comparatorDeassert ⟨0, 32768⟩).wf = false ∧
    (Instr.comparatorDeassert ⟨0, (-32769)⟩).wf = false ∧
    (Instr.singleBerthDeblock .supervisor 1024).wf = false ∧
    (Instr.blkos 8 0).wf = false ∧
    (Instr.tevPulseEnd 6).wf = false ∧
    (Instr.adcResult 3 0 0 0).wf = false ∧
    (Instr.adcResult 0 8 0 0).wf = false ∧
    (Instr.refereeFrameTx 2).wf = false ∧
    (Instr.refHbRx 4 []).wf = false ∧
    (Instr.linkMiss 4).wf = false ∧
    (Instr.refereeListenEnd 2).wf = false ∧
    (Instr.refereeKx 4 []).wf = false ∧
    (Instr.hwArrival 8 0 0).wf = false ∧
    (Instr.hwArrival 0 65536 0).wf = false ∧
    (Instr.schgDone .supervisor 65536).wf = false ∧
    (Instr.schgCancel .supervisor 65536).wf = false ∧
    (Instr.schqFlush .supervisor 32).wf = false ∧
    (Instr.arbiterGrant ([⟨16, 0, 0, 0, [1], false, false⟩])).wf = false ∧
    (Instr.arbiterGrant ([⟨1, 0, 60, 8, [], false, false⟩])).wf = false ∧
    (Instr.arbiterGrant ([⟨1, 0, 0, 0, [], false, false⟩])).wf = false ∧
    (Instr.lockBreak 0).wf = false ∧
    (Instr.lockBreak 4).wf = false ∧
    (Instr.errAck .supervisor 4).wf = false ∧
    (Instr.recRel .supervisor 16).wf = false ∧
    (Instr.monSnap .supervisor 2 0).wf = false ∧
    (Instr.stationLinkUp 2).wf = false ∧
    (Instr.stationKxRx ({ frame with port := 2 })).wf = false := by
  decide

theorem test_wf_refuses_7 :
    (Instr.stationLinkDown 2).wf = false ∧
    (Instr.setpointRx ({ frame with port := 2 })).wf = false ∧
    (Instr.mgmtRequestRx ({ frame with port := 2 })).wf = false ∧
    (Instr.svFrameRx ({ frame with port := 2 })).wf = false ∧
    (Instr.svLost 4).wf = false ∧
    (Instr.rxToRing ({ frame with port := 2 })).wf = false ∧
    (Instr.rxToRing ({ frame with dst := 2 ^ 48 })).wf = false ∧
    (Instr.rxToRing ({ frame with src := 2 ^ 48 })).wf = false ∧
    (Instr.rxToRing ({ frame with etype := 65536 })).wf = false ∧
    (Instr.faultAssert ⟨4, 0⟩).wf = false ∧
    (Instr.faultSourceRelease 4).wf = false ∧
    (Instr.bondUp 1 1 0 0).wf = false ∧
    (Instr.bondUp 0 1 128 0).wf = false ∧
    (Instr.bondErr 0 0).wf = false ∧
    (Instr.bondErr 5 0).wf = false := by
  decide

theorem met_ResetLeaves_2 :
    ∃ (a : Nat), a ≠ R.SYS_RST_CAUSE :=
  ⟨0x58, by decide +kernel⟩

theorem met_ResetLeaves_3 :
    ∃ (pg : Nat), pg < 48 :=
  ⟨47, by decide +kernel⟩

theorem witness_ResetLeaves :
    (∃ (a : Nat), a ≠ R.SYS_RST_CAUSE) ∧
    (∃ (pg : Nat), pg < 48) :=
  ⟨met_ResetLeaves_2, met_ResetLeaves_3⟩

theorem met_StepTakesFront_1 :
    ∃ (s : State) (c : Instr) (rest : List Instr), s.pending = c :: rest :=
  ⟨{ State.reset with pending := [.powerOnReset] }, .powerOnReset, [], by decide +kernel⟩

theorem met_StepTakesFront_2 :
    ∃ (s : State), s.pending = [] :=
  ⟨State.reset, by decide +kernel⟩

theorem witness_StepTakesFront :
    (∃ (s : State) (c : Instr) (rest : List Instr), s.pending = c :: rest) ∧
    (∃ (s : State), s.pending = []) :=
  ⟨met_StepTakesFront_1, met_StepTakesFront_2⟩

theorem met_SupplyCommands_4 :
    ∃ (s : State), s.Settled :=
  ⟨cell [], by decide +kernel⟩

theorem met_SupplyCommands_5 :
    ∃ (s : State), s.pins.vddio = true ∧ s.pins.rails = false :=
  ⟨{ State.reset with pins := { State.reset.pins with rails := false } }, by decide +kernel⟩

theorem met_SupplyCommands_6 :
    ∃ (s : State), s.pins.nRst = true ∧ s.phase ≠ .held :=
  ⟨cell [], by decide +kernel⟩

theorem met_SupplyCommands_7 :
    ∃ (s : State) (a : Nat), s.pins.nRst = true ∧ s.phase ≠ .held ∧ a ≠ R.SYS_RST_CAUSE :=
  ⟨cell [], 0x30000000, by decide +kernel⟩

theorem met_SupplyCommands_8 :
    ∃ (s : State), s.pins.nRst = false :=
  ⟨{ State.reset with pins := { State.reset.pins with nRst := false } }, by decide +kernel⟩

theorem met_SupplyCommands_9 :
    ∃ (s : State), s.Settled ∧ s.phase = .pullUp :=
  ⟨{ State.reset with phase := .pullUp }, by decide +kernel⟩

theorem met_SupplyCommands_10 :
    ∃ (s : State) (band : RoleBand), s.phase = .pullDown ∧ (strapOf s.pins.roleUp band = 3 ∨ (s.grade = .c ∧ strapOf
      s.pins.roleUp band = 1)) :=
  ⟨{ State.reset with phase := .pullDown }, .mid, by decide +kernel⟩

theorem met_SupplyCommands_11 :
    ∃ (s : State) (band : RoleBand), s.phase = .pullDown ∧ strapOf s.pins.roleUp band < 3 ∧ ¬ (s.grade = .c ∧
      strapOf s.pins.roleUp band = 1) :=
  ⟨{ State.reset with phase := .pullDown, pins := { State.reset.pins with roleUp := .high } }, .high,
    by decide +kernel⟩

theorem witness_SupplyCommands :
    (∃ (a : Nat), a ≠ R.SYS_RST_CAUSE) ∧
    (∃ (s : State), s.Settled) ∧
    (∃ (s : State), s.pins.vddio = true ∧ s.pins.rails = false) ∧
    (∃ (s : State), s.pins.nRst = true ∧ s.phase ≠ .held) ∧
    (∃ (s : State) (a : Nat), s.pins.nRst = true ∧ s.phase ≠ .held ∧ a ≠ R.SYS_RST_CAUSE) ∧
    (∃ (s : State), s.pins.nRst = false) ∧
    (∃ (s : State), s.Settled ∧ s.phase = .pullUp) ∧
    (∃ (s : State) (band : RoleBand), s.phase = .pullDown ∧ (strapOf s.pins.roleUp band = 3 ∨ (s.grade = .c ∧
      strapOf s.pins.roleUp band = 1))) ∧
    (∃ (s : State) (band : RoleBand), s.phase = .pullDown ∧ strapOf s.pins.roleUp band < 3 ∧ ¬ (s.grade = .c ∧
      strapOf s.pins.roleUp band = 1)) :=
  ⟨met_ResetLeaves_2, met_SupplyCommands_4, met_SupplyCommands_5, met_SupplyCommands_6, met_SupplyCommands_7,
    met_SupplyCommands_8, met_SupplyCommands_9, met_SupplyCommands_10, met_SupplyCommands_11⟩

theorem met_RomCommands_1 :
    ∃ (s : State) (i : Nat), s.phase = .rom ∧ s.boot.ownerChange = false ∧ s.boot.trying = some i ∧ i < 2 ∧
      s.containerWhy (s.slotImage i) s.flashOwner = 0 :=
  ⟨bootCell, 1, ⟨rfl, rfl, rfl, by decide, bootCell_passes⟩⟩

theorem met_RomCommands_2 :
    ∃ (s : State) (i : Nat), s.phase = .rom ∧ s.boot.ownerChange = false ∧ s.boot.trying = some i ∧ i < 2 ∧
      s.containerWhy (s.slotImage i) s.flashOwner ≠ 0 ∧ (1 - i) ∉ s.boot.tried :=
  ⟨shortSlots { cell [] with phase := .rom, boot := { trying := some 1 } }, 1, by decide +kernel⟩

theorem met_RomCommands_3 :
    ∃ (s : State) (i : Nat), s.phase = .rom ∧ s.boot.ownerChange = false ∧ s.boot.trying = some i ∧ i < 2 ∧
      s.containerWhy (s.slotImage i) s.flashOwner ≠ 0 ∧ (1 - i) ∈ s.boot.tried :=
  ⟨shortSlots { cell [] with phase := .rom, boot := { trying := some 1, tried := [0] } }, 1, by decide +kernel⟩

theorem met_RomCommands_4 :
    ∃ (s : State), s.phase = .recovery ∧ s.isCell = false ∧ s.boot.flash = true ∧ s.idRecord.isSome = true :=
  ⟨{ idHub with phase := .recovery, boot := { flash := true } }, by decide +kernel⟩

theorem met_RomCommands_5 :
    ∃ (s : State) (c : List Byte), s.phase = .rom ∧ s.isCell = true ∧ s.boot.treeBoot = true ∧ s.boot.treeWhy = 0 ∧
      s.boot.ownerChange = false ∧ s.idFailed = false ∧ s.treeImage 0 = some c ∧ s.containerWhy c (s.treeKey 0) ≠ 0 :=
  ⟨treeCell, [], by decide +kernel⟩

theorem met_RomCommands_6 :
    ∃ (s : State) (c : List Byte), s.phase = .rom ∧ s.isCell = true ∧ s.boot.treeBoot = true ∧ s.boot.treeWhy = 0 ∧
      s.boot.ownerChange = false ∧ s.idFailed = false ∧ s.treeImage 0 = some c ∧ s.containerWhy c (s.treeKey 0) = 0 :=
  ⟨goodTreeCell, goodContainer,
    ⟨rfl, by decide +kernel, rfl, rfl, rfl, by decide +kernel, by decide +kernel, goodTreeCell_passes⟩⟩

theorem met_RomCommands_7 :
    ∃ (s : State) (i : Nat), (s.phase = .recovery ∨ (s.phase = .rom ∧ s.isCell = true)) ∧ s.boot.flash = true ∧
      s.idFailed = false ∧ s.boot.ownerChange = false ∧ s.activeSlot = none ∧ s.unusedSlot.isSome = true ∧
      s.sec.presOpen = true ∧ i < 2 ∧ s.ownerTest i = some 0 ∧ (i = 0 ∨ s.ownerTest 0 ≠ some 0) :=
  ⟨ownCell, 1,
    ⟨by decide +kernel, rfl, by decide +kernel, rfl, by decide +kernel, by decide +kernel, rfl, by decide, ownCell_passes, by decide +kernel⟩⟩

theorem met_RomCommands_8 :
    ∃ (s : State), s.Settled ∧ s.inRom = true ∧ s.boot.presHeld = true ∧ s.pins.presence = false ∧ s.sec.sealOpen =
      some true :=
  ⟨{ cell [] with phase := .rom, boot := { presHeld := true }, pins := { nRst := true, rails := true, vddio := true, presence := false }, sec := { sealOpen := some true } },
    by decide +kernel⟩

theorem met_RomCommands_9 :
    ∃ (s : State), s.inRom = true ∧ s.boot.ownerChange = true ∧ s.pins.presence = false ∧ s.sec.sealOpen = some true :=
  ⟨{ cell [] with phase := .recovery, boot := { ownerChange := true }, pins := { presence := false }, sec := { sealOpen := some true } },
    by decide +kernel⟩

theorem witness_RomCommands :
    (∃ (s : State) (i : Nat), s.phase = .rom ∧ s.boot.ownerChange = false ∧ s.boot.trying = some i ∧ i < 2 ∧
      s.containerWhy (s.slotImage i) s.flashOwner = 0) ∧
    (∃ (s : State) (i : Nat), s.phase = .rom ∧ s.boot.ownerChange = false ∧ s.boot.trying = some i ∧ i < 2 ∧
      s.containerWhy (s.slotImage i) s.flashOwner ≠ 0 ∧ (1 - i) ∉ s.boot.tried) ∧
    (∃ (s : State) (i : Nat), s.phase = .rom ∧ s.boot.ownerChange = false ∧ s.boot.trying = some i ∧ i < 2 ∧
      s.containerWhy (s.slotImage i) s.flashOwner ≠ 0 ∧ (1 - i) ∈ s.boot.tried) ∧
    (∃ (s : State), s.phase = .recovery ∧ s.isCell = false ∧ s.boot.flash = true ∧ s.idRecord.isSome = true) ∧
    (∃ (s : State) (c : List Byte), s.phase = .rom ∧ s.isCell = true ∧ s.boot.treeBoot = true ∧ s.boot.treeWhy = 0 ∧
      s.boot.ownerChange = false ∧ s.idFailed = false ∧ s.treeImage 0 = some c ∧ s.containerWhy c (s.treeKey 0) ≠ 0) ∧
    (∃ (s : State) (c : List Byte), s.phase = .rom ∧ s.isCell = true ∧ s.boot.treeBoot = true ∧ s.boot.treeWhy = 0 ∧
      s.boot.ownerChange = false ∧ s.idFailed = false ∧ s.treeImage 0 = some c ∧ s.containerWhy c (s.treeKey 0) = 0) ∧
    (∃ (s : State) (i : Nat), (s.phase = .recovery ∨ (s.phase = .rom ∧ s.isCell = true)) ∧ s.boot.flash = true ∧
      s.idFailed = false ∧ s.boot.ownerChange = false ∧ s.activeSlot = none ∧ s.unusedSlot.isSome = true ∧
      s.sec.presOpen = true ∧ i < 2 ∧ s.ownerTest i = some 0 ∧ (i = 0 ∨ s.ownerTest 0 ≠ some 0)) ∧
    (∃ (s : State), s.Settled ∧ s.inRom = true ∧ s.boot.presHeld = true ∧ s.pins.presence = false ∧ s.sec.sealOpen =
      some true) ∧
    (∃ (s : State), s.inRom = true ∧ s.boot.ownerChange = true ∧ s.pins.presence = false ∧ s.sec.sealOpen = some
      true) :=
  ⟨met_RomCommands_1, met_RomCommands_2, met_RomCommands_3, met_RomCommands_4, met_RomCommands_5, met_RomCommands_6,
    met_RomCommands_7, met_RomCommands_8, met_RomCommands_9⟩

theorem met_SupervisorCommands_1 :
    ∃ (s : State), s.Settled ∧ s.supOn = true :=
  ⟨cell [], by decide +kernel⟩

theorem met_SupervisorCommands_3 :
    ∃ (s : State) (l : Nat), s.supOn = true ∧ s.get F.CPU_NMI_LEVEL = l + 1 ∧ l < 2 ∧ s.get F.CPU_NMI_PEND = 0 :=
  ⟨(cell []).set F.CPU_NMI_LEVEL 2, 1, by decide +kernel⟩

theorem met_SupervisorCommands_4 :
    ∃ (s : State), s.supOn = true :=
  ⟨cell [], by decide +kernel⟩

theorem met_SupervisorCommands_5 :
    ∃ (s : State), s.supOn = true ∧ s.sup.kickHeld = true :=
  ⟨{ cell [] with sup := { kickHeld := true } }, by decide +kernel⟩

theorem met_SupervisorCommands_6 :
    ∃ (s : State) (data : Word), s.supOn = true ∧ data ≠ 0xA5C3 ∧ (data ≠ 0x3C5A ∨ s.sup.kickHeld = false) :=
  ⟨cell [], 0x3C5A, by decide +kernel⟩

theorem met_SupervisorCommands_7 :
    ∃ (s : State), s.wdtRuns = true ∧ s.get F.CPU_WDT_STAT_STAGE2 = 0 ∧ s.handled < 3 :=
  ⟨cell [], by decide +kernel⟩

theorem met_SupervisorCommands_8 :
    ∃ (s : State), s.wdtRuns = true ∧ s.get F.CPU_WDT_STAT_STAGE2 = 1 :=
  ⟨(cell []).set F.CPU_WDT_STAT_STAGE2 1, by decide +kernel⟩

theorem met_SupervisorCommands_10 :
    ∃ (s : State) (data : Word), s.Settled ∧ data ≠ 0xB007 :=
  ⟨cell [], 1, by decide +kernel⟩

theorem met_SupervisorCommands_11 :
    ∃ (s : State), s.alive = true :=
  ⟨cell [], by decide +kernel⟩

theorem witness_SupervisorCommands :
    (∃ (s : State), s.Settled ∧ s.supOn = true) ∧
    (∃ (s : State) (l : Nat), s.supOn = true ∧ s.get F.CPU_NMI_LEVEL = l + 1 ∧ l < 2 ∧ s.get F.CPU_NMI_PEND = 0) ∧
    (∃ (s : State), s.supOn = true) ∧
    (∃ (s : State), s.supOn = true ∧ s.sup.kickHeld = true) ∧
    (∃ (s : State) (data : Word), s.supOn = true ∧ data ≠ 0xA5C3 ∧ (data ≠ 0x3C5A ∨ s.sup.kickHeld = false)) ∧
    (∃ (s : State), s.wdtRuns = true ∧ s.get F.CPU_WDT_STAT_STAGE2 = 0 ∧ s.handled < 3) ∧
    (∃ (s : State), s.wdtRuns = true ∧ s.get F.CPU_WDT_STAT_STAGE2 = 1) ∧
    (∃ (s : State) (data : Word), s.Settled ∧ data ≠ 0xB007) ∧
    (∃ (s : State), s.alive = true) :=
  ⟨met_SupervisorCommands_1, met_SupervisorCommands_3, met_SupervisorCommands_4, met_SupervisorCommands_5,
    met_SupervisorCommands_6, met_SupervisorCommands_7, met_SupervisorCommands_8, met_SupervisorCommands_10,
    met_SupervisorCommands_11⟩

theorem met_ClockDomains_1 :
    ∃ (s : State) (path : Path) (dom : Nat) (data : Word), s.Reaches path Pg.CLK ∧ dom < 4 ∧ s.get (F.CLK_DOM_RAMP
      dom) = 0 ∧ getBits data 0 2 = s.get (F.CLK_DOM_CURSRC dom) ∧ getBits data 0 2 < 2 ∧ getBits data 8 8 ≠ 0 ∧
      s.get (F.CLK_DOM_CUR dom) ≤ getBits data 8 8 :=
  ⟨cell [], .supervisor, 3, 0x400, by decide +kernel⟩

theorem met_ClockDomains_2 :
    ∃ (s : State) (path : Path) (dom : Nat) (data : Word), s.Reaches path Pg.CLK ∧ dom < 4 ∧ s.get (F.CLK_DOM_RAMP
      dom) = 0 ∧ getBits data 0 2 = s.get (F.CLK_DOM_CURSRC dom) ∧ getBits data 0 2 < 2 ∧ getBits data 8 8 ≠ 0 ∧
      getBits data 8 8 < s.get (F.CLK_DOM_CUR dom) :=
  ⟨cell [], .supervisor, 3, 0x300, by decide +kernel⟩

theorem met_ClockDomains_3 :
    ∃ (s : State) (path : Path) (dom : Nat) (data : Word), s.Reaches path Pg.CLK ∧ dom < 4 ∧ s.get (F.CLK_DOM_RAMP
      dom) = 0 ∧ getBits data 0 2 ≠ s.get (F.CLK_DOM_CURSRC dom) ∧ getBits data 0 2 < 2 ∧ getBits data 8 8 ≠ 0 ∧
      s.div0 dom (getBits data 0 2) < 256 :=
  ⟨cell [], .supervisor, 0, 0x401, by decide +kernel⟩

theorem met_ClockDomains_4 :
    ∃ (s : State) (path : Path) (dom : Nat) (data : Word), s.Reaches path Pg.CLK ∧ dom < 4 ∧ s.get (F.CLK_DOM_RAMP
      dom) = 1 ∧ getBits data 0 2 < 2 ∧ getBits data 8 8 ≠ 0 :=
  ⟨withF (F.CLK_DOM_RAMP 1) 1 (cell []), .supervisor, 1, 0x801, by decide +kernel⟩

theorem met_ClockDomains_5 :
    ∃ (s : State) (dom : Nat), s.alive = true ∧ dom < 4 ∧ s.get (F.CLK_DOM_RAMP dom) = 1 ∧ s.get (F.CLK_DOM_DIV dom)
      + 1 < s.get (F.CLK_DOM_CUR dom) :=
  ⟨withF (F.CLK_DOM_CUR 3) 6 (withF (F.CLK_DOM_RAMP 3) 1 (cell [])), 3, by decide +kernel⟩

theorem met_ClockDomains_6 :
    ∃ (s : State) (dom : Nat), s.alive = true ∧ dom < 4 ∧ s.get (F.CLK_DOM_RAMP dom) = 1 ∧ s.get (F.CLK_DOM_DIV dom)
      + 1 = s.get (F.CLK_DOM_CUR dom) ∧ nth s.clk.latched dom none = none :=
  ⟨withF (F.CLK_DOM_CUR 3) 5 (withF (F.CLK_DOM_RAMP 3) 1 (cell [])), 3, by decide +kernel⟩

theorem met_ClockDomains_7 :
    ∃ (s : State) (dom : Nat), s.Settled ∧ s.alive = true ∧ dom < 4 :=
  ⟨hub [], 3, by decide +kernel⟩

theorem met_ClockDomains_8 :
    ∃ (s : State) (page : Nat), s.alive = true ∧ s.clk.gating.contains page = true ∧ s.lockOwner page = false :=
  ⟨{ cell [] with clk := { gating := [0x2C] } }, 0x2C, by decide +kernel⟩

theorem met_ClockDomains_9 :
    ∃ (s : State) (page : Nat), s.alive = true ∧ s.lockOwner page = true :=
  ⟨withF F.MEM_STAT_LOCKED 1 (withF F.MEM_STAT_OWNER 9 { cell [] with clk := { gating := [Pg.REC] } }), Pg.REC,
    by decide +kernel⟩

theorem met_ClockDomains_10 :
    ∃ (s : State) (page : Nat), s.alive = true ∧ s.clk.gating.contains page = true ∧ s.lockOwner page = true :=
  ⟨withF F.MEM_STAT_LOCKED 1 (withF F.MEM_STAT_OWNER 9 { cell [] with clk := { gating := [Pg.REC] } }), Pg.REC,
    by decide +kernel⟩

theorem met_ClockDomains_11 :
    ∃ (s : State) (page o : Nat), s.alive = true ∧ s.clk.gating.contains page = true ∧ o < 1024 ∧ present s.role
      page = true :=
  ⟨{ cell [] with clk := { gating := [0x2C] } }, 0x2C, 0x20, by decide +kernel⟩

theorem met_ClockDomains_12 :
    ∃ (s : State) (page : Nat), s.Settled ∧ s.alive = true ∧ s.clk.gating.contains page = true ∧ s.lockOwner page =
      false :=
  ⟨{ cell [] with clk := { gating := [0x2C] } }, 0x2C, by decide +kernel⟩

theorem met_ClockDomains_13 :
    ∃ (s : State) (page : Nat), s.Settled ∧ s.alive = true ∧ page < 48 ∧ s.enabled page = true ∧ infra page = false
      ∧ s.clk.gating.contains page = false :=
  ⟨cell [0x2C], 0x2C, by decide +kernel⟩

theorem witness_ClockDomains :
    (∃ (s : State) (path : Path) (dom : Nat) (data : Word), s.Reaches path Pg.CLK ∧ dom < 4 ∧ s.get (F.CLK_DOM_RAMP
      dom) = 0 ∧ getBits data 0 2 = s.get (F.CLK_DOM_CURSRC dom) ∧ getBits data 0 2 < 2 ∧ getBits data 8 8 ≠ 0 ∧
      s.get (F.CLK_DOM_CUR dom) ≤ getBits data 8 8) ∧
    (∃ (s : State) (path : Path) (dom : Nat) (data : Word), s.Reaches path Pg.CLK ∧ dom < 4 ∧ s.get (F.CLK_DOM_RAMP
      dom) = 0 ∧ getBits data 0 2 = s.get (F.CLK_DOM_CURSRC dom) ∧ getBits data 0 2 < 2 ∧ getBits data 8 8 ≠ 0 ∧
      getBits data 8 8 < s.get (F.CLK_DOM_CUR dom)) ∧
    (∃ (s : State) (path : Path) (dom : Nat) (data : Word), s.Reaches path Pg.CLK ∧ dom < 4 ∧ s.get (F.CLK_DOM_RAMP
      dom) = 0 ∧ getBits data 0 2 ≠ s.get (F.CLK_DOM_CURSRC dom) ∧ getBits data 0 2 < 2 ∧ getBits data 8 8 ≠ 0 ∧
      s.div0 dom (getBits data 0 2) < 256) ∧
    (∃ (s : State) (path : Path) (dom : Nat) (data : Word), s.Reaches path Pg.CLK ∧ dom < 4 ∧ s.get (F.CLK_DOM_RAMP
      dom) = 1 ∧ getBits data 0 2 < 2 ∧ getBits data 8 8 ≠ 0) ∧
    (∃ (s : State) (dom : Nat), s.alive = true ∧ dom < 4 ∧ s.get (F.CLK_DOM_RAMP dom) = 1 ∧ s.get (F.CLK_DOM_DIV
      dom) + 1 < s.get (F.CLK_DOM_CUR dom)) ∧
    (∃ (s : State) (dom : Nat), s.alive = true ∧ dom < 4 ∧ s.get (F.CLK_DOM_RAMP dom) = 1 ∧ s.get (F.CLK_DOM_DIV
      dom) + 1 = s.get (F.CLK_DOM_CUR dom) ∧ nth s.clk.latched dom none = none) ∧
    (∃ (s : State) (dom : Nat), s.Settled ∧ s.alive = true ∧ dom < 4) ∧
    (∃ (s : State) (page : Nat), s.alive = true ∧ s.clk.gating.contains page = true ∧ s.lockOwner page = false) ∧
    (∃ (s : State) (page : Nat), s.alive = true ∧ s.lockOwner page = true) ∧
    (∃ (s : State) (page : Nat), s.alive = true ∧ s.clk.gating.contains page = true ∧ s.lockOwner page = true) ∧
    (∃ (s : State) (page o : Nat), s.alive = true ∧ s.clk.gating.contains page = true ∧ o < 1024 ∧ present s.role
      page = true) ∧
    (∃ (s : State) (page : Nat), s.Settled ∧ s.alive = true ∧ s.clk.gating.contains page = true ∧ s.lockOwner page =
      false) ∧
    (∃ (s : State) (page : Nat), s.Settled ∧ s.alive = true ∧ page < 48 ∧ s.enabled page = true ∧ infra page = false
      ∧ s.clk.gating.contains page = false) :=
  ⟨met_ClockDomains_1, met_ClockDomains_2, met_ClockDomains_3, met_ClockDomains_4, met_ClockDomains_5,
    met_ClockDomains_6, met_ClockDomains_7, met_ClockDomains_8, met_ClockDomains_9, met_ClockDomains_10,
    met_ClockDomains_11, met_ClockDomains_12, met_ClockDomains_13⟩

theorem met_ClockSources_1 :
    ∃ (s : State) (m count : Nat), s.alive = true ∧ m < 5 ∧ s.judged m = true ∧ s.withinTol m count = true ∧ count <
      4096 :=
  ⟨withF (F.CLK_MON_CTL_EXPECT 3) 4000 (cell []), 3, 4000, by decide +kernel⟩

theorem met_ClockSources_2 :
    ∃ (s : State) (m count : Nat), s.alive = true ∧ m < 5 ∧ s.judged m = true ∧ s.withinTol m count = false ∧ count
      < 4096 ∧ (m ≠ 0 ∨ s.clk.xoscReady = true) :=
  ⟨cell [], 3, 4000, by decide +kernel⟩

theorem met_ClockSources_3 :
    ∃ (s : State) (m : Nat), s.alive = true ∧ m < 5 ∧ s.judged m = true ∧ s.get (F.CLK_MON_STAT_FAIL m) = 0 :=
  ⟨cell [], 2, by decide +kernel⟩

theorem met_ClockSources_4 :
    ∃ (s : State) (n : Nat), s.alive = true ∧ s.is F.CLK_SRC_SPLL_EN = true ∧ s.get (F.CLK_MON_STAT_FAIL 4) = 0 ∧ n
      < 4 ∧ s.get (F.CLK_DOM_CURSRC n) = 1 :=
  ⟨withF F.CLK_SRC_SPLL_EN 1 (withF (F.CLK_DOM_CURSRC 3) 1 (cell [])), 3, by decide +kernel⟩

theorem met_ClockSources_6 :
    ∃ (s : State) (ppb : Int), s.alive = true ∧ s.runs Pg.CLK = true ∧ s.ircReference = true ∧ s.is F.CLK_IRC_AUTO =
      true ∧ 0 < s.get F.CLK_IRC_TRIM ∧ s.get F.CLK_IRC_TRIM < 255 ∧ 250000 < ppb.natAbs :=
  ⟨{ withF F.CLK_IRC_AUTO 1 (withF F.CLK_IRC_TRIM 254 (cell [])) with clk := { ircFrames := 64 } }, -250001,
    by decide +kernel⟩

theorem met_ClockSources_7 :
    ∃ (s : State) (ppb : Int), s.alive = true ∧ s.runs Pg.CLK = true ∧ s.ircReference = true ∧ (s.is F.CLK_IRC_AUTO
      = false ∨ ppb.natAbs ≤ 250000) :=
  ⟨{ withF F.CLK_IRC_AUTO 1 (cell []) with clk := { ircFrames := 64 } }, -250000, by decide +kernel⟩

theorem met_ClockSources_8 :
    ∃ (s : State) (ppb : Int), s.alive = true ∧ s.runs Pg.CLK = true ∧ s.ircReference = true ∧ s.is F.CLK_IRC_AUTO =
      true ∧ s.get F.CLK_IRC_TRIM = 255 ∧ ppb < -250000 :=
  ⟨{ withF F.CLK_IRC_AUTO 1 (withF F.CLK_IRC_TRIM 255 (cell [])) with clk := { ircFrames := 64 } }, -250001,
    by decide +kernel⟩

theorem met_ClockSources_9 :
    ∃ (s : State) (rings : List Nat), s.alive = true ∧ rings.length = 8 ∧ (∀ r ∈ rings, r < 4096) :=
  ⟨cell [], [4095, 700, 650, 600, 610, 600, 0, 0], by decide +kernel⟩

theorem met_ClockSources_10 :
    ∃ (s : State) (count : Nat), s.alive = true ∧ s.isCell = false ∧ s.is F.CLK_SRC_XOSC_EN = true ∧ s.withinTol 0
      count = true ∧ s.clk.xoscReady = false :=
  ⟨withF F.CLK_SRC_XOSC_EN 1 (withF (F.CLK_MON_CTL_EXPECT 0) 9 (hub [])), 9, by decide +kernel⟩

theorem met_ClockSources_11 :
    ∃ (s : State), s.Settled ∧ s.alive = true ∧ s.is F.CLK_SRC_SPLL_EN = true :=
  ⟨withF F.CLK_SRC_SPLL_EN 1 (cell []), by decide +kernel⟩

theorem witness_ClockSources :
    (∃ (s : State) (m count : Nat), s.alive = true ∧ m < 5 ∧ s.judged m = true ∧ s.withinTol m count = true ∧ count
      < 4096) ∧
    (∃ (s : State) (m count : Nat), s.alive = true ∧ m < 5 ∧ s.judged m = true ∧ s.withinTol m count = false ∧ count
      < 4096 ∧ (m ≠ 0 ∨ s.clk.xoscReady = true)) ∧
    (∃ (s : State) (m : Nat), s.alive = true ∧ m < 5 ∧ s.judged m = true ∧ s.get (F.CLK_MON_STAT_FAIL m) = 0) ∧
    (∃ (s : State) (n : Nat), s.alive = true ∧ s.is F.CLK_SRC_SPLL_EN = true ∧ s.get (F.CLK_MON_STAT_FAIL 4) = 0 ∧ n
      < 4 ∧ s.get (F.CLK_DOM_CURSRC n) = 1) ∧
    (∃ (s : State), s.alive = true) ∧
    (∃ (s : State) (ppb : Int), s.alive = true ∧ s.runs Pg.CLK = true ∧ s.ircReference = true ∧ s.is F.CLK_IRC_AUTO
      = true ∧ 0 < s.get F.CLK_IRC_TRIM ∧ s.get F.CLK_IRC_TRIM < 255 ∧ 250000 < ppb.natAbs) ∧
    (∃ (s : State) (ppb : Int), s.alive = true ∧ s.runs Pg.CLK = true ∧ s.ircReference = true ∧ (s.is F.CLK_IRC_AUTO
      = false ∨ ppb.natAbs ≤ 250000)) ∧
    (∃ (s : State) (ppb : Int), s.alive = true ∧ s.runs Pg.CLK = true ∧ s.ircReference = true ∧ s.is F.CLK_IRC_AUTO
      = true ∧ s.get F.CLK_IRC_TRIM = 255 ∧ ppb < -250000) ∧
    (∃ (s : State) (rings : List Nat), s.alive = true ∧ rings.length = 8 ∧ (∀ r ∈ rings, r < 4096)) ∧
    (∃ (s : State) (count : Nat), s.alive = true ∧ s.isCell = false ∧ s.is F.CLK_SRC_XOSC_EN = true ∧ s.withinTol 0
      count = true ∧ s.clk.xoscReady = false) ∧
    (∃ (s : State), s.Settled ∧ s.alive = true ∧ s.is F.CLK_SRC_SPLL_EN = true) :=
  ⟨met_ClockSources_1, met_ClockSources_2, met_ClockSources_3, met_ClockSources_4, met_SupervisorCommands_11,
    met_ClockSources_6, met_ClockSources_7, met_ClockSources_8, met_ClockSources_9, met_ClockSources_10,
    met_ClockSources_11⟩

theorem met_FieldKinds_1 :
    ∃ (s : State) (path : Path), s.Settled ∧ s.Reaches path Pg.CLK :=
  ⟨cell [], .supervisor, by decide +kernel⟩

theorem met_FieldKinds_3 :
    ∃ (s : State) (path : Path) (pg : Nat), s.Settled ∧ s.pathOpen path = true ∧ pg < 0x30 ∧ present s.role pg =
      true :=
  ⟨cell [], .supervisor, 0x2F, by decide +kernel⟩

theorem met_FieldKinds_4 :
    ∃ (s : State) (path : Path) (n : Nat), s.Settled ∧ s.Reaches path Pg.SEC ∧ n < 32 ∧ s.guardFor path Pg.SEC =
      true :=
  ⟨{ cell [] with sec := { presOpen := true } }, .supervisor, 31, by decide +kernel⟩

theorem met_FieldKinds_5 :
    ∃ (s : State) (path : Path) (n : Nat) (data : Word), s.Settled ∧ s.Reaches path Pg.SEC ∧ path ≠ .supervisor ∧ n
      < 32 ∧ s.guardFor path Pg.SEC = false ∧ s.get (F.PG_GUARD_LOCK Pg.SEC) = 0 ∧ data ≠ s.reg (R.SEC_PEER_LO n) :=
  ⟨hub [], .station, 31, 5, by decide +kernel⟩

theorem met_FieldKinds_6 :
    ∃ (s : State) (path : Path) (data : Word), s.Settled ∧ s.Reaches path Pg.CLK ∧ path ≠ .supervisor ∧ s.is
      F.CLK_SRC_SPLL_EN = true ∧ getBits data 0 16 ≠ getBits (s.reg R.CLK_SPLL) 0 16 :=
  ⟨withF F.CLK_SRC_SPLL_EN 1 (hub []), .station, 0, by decide +kernel⟩

theorem met_FieldKinds_7 :
    ∃ (s : State) (path : Path), s.pathOpen path = true ∧ path ≠ .supervisor ∧ s.isCell = true ∧ s.gated Pg.GATE =
      true :=
  ⟨cell [], .remote false false, by decide +kernel⟩

theorem met_FieldKinds_8 :
    ∃ (s : State) (path : Path) (addr : Nat), s.pathOpen path = true ∧ path ≠ .supervisor ∧ 0x30 ≤ addr / 0x400 :=
  ⟨hub [], .station, 0xC001, by decide +kernel⟩

theorem met_FieldKinds_9 :
    ∃ (s : State) (path : Path) (addr : Nat), s.Settled ∧ s.pathOpen path = true ∧ path ≠ .supervisor ∧ addr / 0x400
      < 0x30 ∧ present s.role (addr / 0x400) = false :=
  ⟨cell [], .remote false false, 0x7001, by decide +kernel⟩

theorem met_FieldKinds_10 :
    ∃ (s : State) (path : Path) (bytes addr : Nat), s.Settled ∧ s.pathOpen path = true ∧ path ≠ .supervisor ∧ addr /
      0x400 < 0x30 ∧ present s.role (addr / 0x400) = true ∧ bytes < 4 :=
  ⟨hub [], .station, 3, 0x1, by decide +kernel⟩

theorem met_FieldKinds_11 :
    ∃ (s : State) (path : Path) (bytes addr : Nat), s.Settled ∧ s.pathOpen path = true ∧ path ≠ .supervisor ∧ addr /
      0x400 < 0x30 ∧ present s.role (addr / 0x400) = true ∧ 4 ≤ bytes ∧ addr % 4 ≠ 0 :=
  ⟨hub [], .station, 4, 0x2, by decide +kernel⟩

theorem witness_FieldKinds :
    (∃ (s : State) (path : Path), s.Settled ∧ s.Reaches path Pg.CLK) ∧
    (∃ (s : State) (path : Path) (pg : Nat), s.Settled ∧ s.pathOpen path = true ∧ pg < 0x30 ∧ present s.role pg =
      true) ∧
    (∃ (s : State) (path : Path) (n : Nat), s.Settled ∧ s.Reaches path Pg.SEC ∧ n < 32 ∧ s.guardFor path Pg.SEC =
      true) ∧
    (∃ (s : State) (path : Path) (n : Nat) (data : Word), s.Settled ∧ s.Reaches path Pg.SEC ∧ path ≠ .supervisor ∧ n
      < 32 ∧ s.guardFor path Pg.SEC = false ∧ s.get (F.PG_GUARD_LOCK Pg.SEC) = 0 ∧ data ≠ s.reg (R.SEC_PEER_LO n)) ∧
    (∃ (s : State) (path : Path) (data : Word), s.Settled ∧ s.Reaches path Pg.CLK ∧ path ≠ .supervisor ∧ s.is
      F.CLK_SRC_SPLL_EN = true ∧ getBits data 0 16 ≠ getBits (s.reg R.CLK_SPLL) 0 16) ∧
    (∃ (s : State) (path : Path), s.pathOpen path = true ∧ path ≠ .supervisor ∧ s.isCell = true ∧ s.gated Pg.GATE =
      true) ∧
    (∃ (s : State) (path : Path) (addr : Nat), s.pathOpen path = true ∧ path ≠ .supervisor ∧ 0x30 ≤ addr / 0x400) ∧
    (∃ (s : State) (path : Path) (addr : Nat), s.Settled ∧ s.pathOpen path = true ∧ path ≠ .supervisor ∧ addr /
      0x400 < 0x30 ∧ present s.role (addr / 0x400) = false) ∧
    (∃ (s : State) (path : Path) (bytes addr : Nat), s.Settled ∧ s.pathOpen path = true ∧ path ≠ .supervisor ∧ addr
      / 0x400 < 0x30 ∧ present s.role (addr / 0x400) = true ∧ bytes < 4) ∧
    (∃ (s : State) (path : Path) (bytes addr : Nat), s.Settled ∧ s.pathOpen path = true ∧ path ≠ .supervisor ∧ addr
      / 0x400 < 0x30 ∧ present s.role (addr / 0x400) = true ∧ 4 ≤ bytes ∧ addr % 4 ≠ 0) :=
  ⟨met_FieldKinds_1, met_FieldKinds_3, met_FieldKinds_4, met_FieldKinds_5, met_FieldKinds_6, met_FieldKinds_7,
    met_FieldKinds_8, met_FieldKinds_9, met_FieldKinds_10, met_FieldKinds_11⟩

theorem met_PageHeader_1 :
    ∃ (s : State) (path : Path) (page : Nat), s.Settled ∧ s.pathOpen path = true ∧ page < 0x30 ∧ present s.role page
      = true :=
  ⟨cell [], .supervisor, 0x2F, by decide +kernel⟩

theorem met_PageHeader_3 :
    ∃ (s : State) (path : Path) (page : Nat), s.pathOpen path = true ∧ page < 0x30 ∧ present s.role page = true :=
  ⟨cell [], .supervisor, 0x2F, by decide +kernel⟩

theorem met_PageHeader_5 :
    ∃ (s : State) (path : Path) (page : Nat), s.pathOpen path = true ∧ page < 0x30 ∧ present s.role page = true ∧
      s.meridiansFire = false :=
  ⟨cell [], .supervisor, 0x2F, by decide +kernel⟩

theorem met_PageHeader_6 :
    ∃ (s : State) (page : Nat), s.Settled ∧ s.alive = true ∧ present s.role page = true ∧ s.is (F.PG_CTRL_HOLD page)
      = true ∧ (infra page = true ∨ s.runs page = true) :=
  ⟨withF (F.PG_CTRL_HOLD 0x2C) 1 (cell [0x2C]), 0x2C, by decide +kernel⟩

theorem met_PageHeader_7 :
    ∃ (s : State) (path : Path) (page a : Nat), s.pathOpen path = true ∧ page < 0x30 ∧ present s.role page = true ∧
      page ∉ [Pg.SYS, Pg.TIME, Pg.TWIN, Pg.REF, Pg.HOST, Pg.SAFE, Pg.CPU] ∧ a / 0x400 = page ∧ keptReg a = false ∧ a
      ≠ R.PG_GUARD page :=
  ⟨withF (F.PG_CTRL_RDACT 0x2C) 1 (cell [0x2C]), .supervisor, 0x2C, 0xB008, by decide +kernel⟩

theorem met_PageHeader_8 :
    ∃ (s : State) (path : Path) (page : Nat), s.pathOpen path = true ∧ page < 0x30 ∧ present s.role page = true ∧
      page ≠ Pg.TIME ∧ ¬ (page = Pg.MOD ∧ s.isCell = true) ∧ s.commitsWait page = false :=
  ⟨cell [], .supervisor, 0x2F, by decide +kernel⟩

theorem met_PageHeader_9 :
    ∃ (s : State) (path : Path) (page : Nat), s.Settled ∧ s.pathOpen path = true ∧ page < 0x30 ∧ present s.role page
      = true ∧ ¬ (page = Pg.MOD ∧ s.isCell = true) ∧ s.commitsWait page = true :=
  ⟨{ withF F.TIME_MER_RUN 1 (hub [0x0B, 0x22]) with time := { lastK := some 3 } }, .supervisor, 0x22,
    by decide +kernel⟩

theorem witness_PageHeader :
    (∃ (s : State) (path : Path) (page : Nat), s.Settled ∧ s.pathOpen path = true ∧ page < 0x30 ∧ present s.role
      page = true) ∧
    (∃ (s : State) (path : Path) (page : Nat), s.pathOpen path = true ∧ page < 0x30 ∧ present s.role page = true) ∧
    (∃ (s : State) (path : Path) (page : Nat), s.pathOpen path = true ∧ page < 0x30 ∧ present s.role page = true ∧
      s.meridiansFire = false) ∧
    (∃ (s : State) (page : Nat), s.Settled ∧ s.alive = true ∧ present s.role page = true ∧ s.is (F.PG_CTRL_HOLD
      page) = true ∧ (infra page = true ∨ s.runs page = true)) ∧
    (∃ (s : State) (path : Path) (page a : Nat), s.pathOpen path = true ∧ page < 0x30 ∧ present s.role page = true ∧
      page ∉ [Pg.SYS, Pg.TIME, Pg.TWIN, Pg.REF, Pg.HOST, Pg.SAFE, Pg.CPU] ∧ a / 0x400 = page ∧ keptReg a = false ∧ a
      ≠ R.PG_GUARD page) ∧
    (∃ (s : State) (path : Path) (page : Nat), s.pathOpen path = true ∧ page < 0x30 ∧ present s.role page = true ∧
      page ≠ Pg.TIME ∧ ¬ (page = Pg.MOD ∧ s.isCell = true) ∧ s.commitsWait page = false) ∧
    (∃ (s : State) (path : Path) (page : Nat), s.Settled ∧ s.pathOpen path = true ∧ page < 0x30 ∧ present s.role
      page = true ∧ ¬ (page = Pg.MOD ∧ s.isCell = true) ∧ s.commitsWait page = true) :=
  ⟨met_PageHeader_1, met_PageHeader_3, met_PageHeader_5, met_PageHeader_6, met_PageHeader_7, met_PageHeader_8,
    met_PageHeader_9⟩

theorem met_HostPort_1 :
    ∃ (s : State) (path : Path), s.Reaches path Pg.HOST ∧ s.isCell = false ∧ s.get F.HOST_CTRL_HOST = 0 :=
  ⟨hub [], .supervisor, by decide +kernel⟩

theorem met_HostPort_2 :
    ∃ (s : State), s.Settled ∧ s.alive = true ∧ s.isCell = false ∧ s.host.bus = .handingOver :=
  ⟨{ hub [] with host := { bus := .handingOver } }, by decide +kernel⟩

theorem met_HostPort_3 :
    ∃ (s : State) (addr count crc : Nat), s.hostOn = true ∧ s.host.pendCode = none ∧ crc16 ([Op.rd] ++ beBytes 2
      addr ++ beBytes 1 count) = crc % 65536 :=
  ⟨{ hub [] with host := { bus := .host } }, 0, 0, 0x9950, by decide +kernel⟩

theorem met_HostPort_5 :
    ∃ (s : State) (addr : Nat) (words : List Word) (crc : Nat), s.hostOn = true ∧ s.host.pendCode = none ∧ words ≠
      [] ∧ crc16 ([Op.wr] ++ beBytes 2 addr ++ beBytes 1 (words.length - 1) ++ words.flatMap fun w => beBytes 4
      w.toNat) = crc % 65536 :=
  ⟨{ hub [] with host := { bus := .host } }, 0x478, [7], 0x696, by decide +kernel⟩

theorem met_HostPort_6 :
    ∃ (s : State) (addr : Nat) (mask data : Word) (crc : Nat), s.hostOn = true ∧ s.host.pendCode = none ∧ crc16
      ([Op.mwr] ++ beBytes 2 addr ++ beBytes 4 mask.toNat ++ beBytes 4 data.toNat) = crc % 65536 :=
  ⟨{ hub [] with host := { bus := .host } }, 0x478, 7, 1, 0x8065, by decide +kernel⟩

theorem met_HostPort_7 :
    ∃ (s : State) (crc : Nat), s.hostOn = true ∧ s.host.crcBad = false ∧ s.host.pendCode = none ∧ crc16 [Op.stat] =
      crc % 65536 :=
  ⟨{ hub [] with host := { bus := .host, lastCode := 0x1B } }, 0x8df, by decide +kernel⟩

theorem met_HostPort_8 :
    ∃ (s : State) (crc code : Nat), s.hostOn = true ∧ s.host.crcBad = false ∧ s.host.pendCode = some code ∧ crc16
      [Op.stat] = crc % 65536 :=
  ⟨{ hub [] with host := { bus := .host, pendCode := some 0 } }, 0x8df, 0, by decide +kernel⟩

theorem met_HostPort_9 :
    ∃ (s : State) (crc : Nat), s.hostOn = true ∧ crc16 [Op.stat] ≠ crc % 65536 :=
  ⟨{ hub [] with host := { bus := .host } }, 0, by decide +kernel⟩

theorem met_HostPort_10 :
    ∃ (s : State) (crc : Nat), s.hostOn = true ∧ s.host.crcBad = true ∧ crc16 [Op.stat] = crc % 65536 :=
  ⟨{ hub [] with host := { bus := .host, crcBad := true } }, 0x8df, by decide +kernel⟩

theorem met_HostPort_11 :
    ∃ (s : State) (path : Path) (ms : Nat), s.Reaches path Pg.HOST ∧ s.isCell = false ∧ 0 < ms ∧ ms < 4096 ∧ s.get
      F.HOST_REL_PEND = 0 :=
  ⟨hub [], .supervisor, 4095, by decide +kernel⟩

theorem met_HostPort_12 :
    ∃ (s : State), s.Settled ∧ s.hostOn = true ∧ s.host.relTold ≠ 0 :=
  ⟨{ hub [] with host := { bus := .host, relTold := 9 } }, by decide +kernel⟩

theorem met_HostPort_13 :
    ∃ (s : State), s.Settled ∧ s.alive = true ∧ s.host.bus = .reclaimed :=
  ⟨{ hub [] with host := { bus := .reclaimed } }, by decide +kernel⟩

theorem witness_HostPort :
    (∃ (s : State) (path : Path), s.Reaches path Pg.HOST ∧ s.isCell = false ∧ s.get F.HOST_CTRL_HOST = 0) ∧
    (∃ (s : State), s.Settled ∧ s.alive = true ∧ s.isCell = false ∧ s.host.bus = .handingOver) ∧
    (∃ (s : State) (addr count crc : Nat), s.hostOn = true ∧ s.host.pendCode = none ∧ crc16 ([Op.rd] ++ beBytes 2
      addr ++ beBytes 1 count) = crc % 65536) ∧
    (∃ (s : State) (addr : Nat) (words : List Word) (crc : Nat), s.hostOn = true ∧ s.host.pendCode = none ∧ words ≠
      [] ∧ crc16 ([Op.wr] ++ beBytes 2 addr ++ beBytes 1 (words.length - 1) ++ words.flatMap fun w => beBytes 4
      w.toNat) = crc % 65536) ∧
    (∃ (s : State) (addr : Nat) (mask data : Word) (crc : Nat), s.hostOn = true ∧ s.host.pendCode = none ∧ crc16
      ([Op.mwr] ++ beBytes 2 addr ++ beBytes 4 mask.toNat ++ beBytes 4 data.toNat) = crc % 65536) ∧
    (∃ (s : State) (crc : Nat), s.hostOn = true ∧ s.host.crcBad = false ∧ s.host.pendCode = none ∧ crc16 [Op.stat] =
      crc % 65536) ∧
    (∃ (s : State) (crc code : Nat), s.hostOn = true ∧ s.host.crcBad = false ∧ s.host.pendCode = some code ∧ crc16
      [Op.stat] = crc % 65536) ∧
    (∃ (s : State) (crc : Nat), s.hostOn = true ∧ crc16 [Op.stat] ≠ crc % 65536) ∧
    (∃ (s : State) (crc : Nat), s.hostOn = true ∧ s.host.crcBad = true ∧ crc16 [Op.stat] = crc % 65536) ∧
    (∃ (s : State) (path : Path) (ms : Nat), s.Reaches path Pg.HOST ∧ s.isCell = false ∧ 0 < ms ∧ ms < 4096 ∧ s.get
      F.HOST_REL_PEND = 0) ∧
    (∃ (s : State), s.Settled ∧ s.hostOn = true ∧ s.host.relTold ≠ 0) ∧
    (∃ (s : State), s.Settled ∧ s.alive = true ∧ s.host.bus = .reclaimed) :=
  ⟨met_HostPort_1, met_HostPort_2, met_HostPort_3, met_HostPort_5, met_HostPort_6, met_HostPort_7, met_HostPort_8,
    met_HostPort_9, met_HostPort_10, met_HostPort_11, met_HostPort_12, met_HostPort_13⟩

theorem met_TerminalsAndUart_1 :
    ∃ (s : State) (path : Path) (n : Nat) (data : Word), s.Reaches path Pg.GPIO ∧ n < 8 ∧ s.gpioAllowed n (getBits
      data 0 3) = true :=
  ⟨hub [0x2F], .supervisor, 5, 2, by decide +kernel⟩

theorem met_TerminalsAndUart_2 :
    ∃ (s : State) (path : Path) (n : Nat) (data : Word), s.Reaches path Pg.GPIO ∧ n < 8 ∧ s.gpioAllowed n (getBits
      data 0 3) = false :=
  ⟨hub [0x2F], .supervisor, 6, 2, by decide +kernel⟩

theorem met_TerminalsAndUart_3 :
    ∃ (s : State) (n : Nat) (level : Bool), s.alive = true ∧ n < 8 ∧ s.gpioInput n = true ∧ bitOf
      s.pins.gpioIn.toNat n ≠ level :=
  ⟨cell [0x2F], 7, true, by decide +kernel⟩

theorem met_TerminalsAndUart_4 :
    ∃ (s : State) (path : Path), s.Reaches path Pg.GPIO ∧ s.isCell = true ∧ s.uart.tx.length < 16 ∧ (s.uartOn =
      false ∨ s.uart.sending ≠ none) :=
  ⟨{ cell [0x2F] with uart := { sending := some 1 } }, .supervisor, by decide +kernel⟩

theorem met_TerminalsAndUart_5 :
    ∃ (s : State) (b : Byte) (l : List Byte), s.Settled ∧ s.uartOn = true ∧ s.uart.tx = b :: l :=
  ⟨{ withF F.GPIO_UCFG_EN 1 (cell [0x2F]) with uart := { tx := [1, 2] } }, 1, [2], by decide +kernel⟩

theorem met_TerminalsAndUart_6 :
    ∃ (s : State), s.uartOn = true ∧ s.uart.rx.length < 16 :=
  ⟨withF F.GPIO_UCFG_EN 1 (cell [0x2F]), by decide +kernel⟩

theorem met_TerminalsAndUart_7 :
    ∃ (s : State), s.uartOn = true ∧ s.uart.rx = [] :=
  ⟨withF F.GPIO_UCFG_EN 1 (cell [0x2F]), by decide +kernel⟩

theorem met_TerminalsAndUart_8 :
    ∃ (s : State), s.uartOn = true ∧ 16 ≤ s.uart.rx.length :=
  ⟨{ withF F.GPIO_UCFG_EN 1 (cell [0x2F]) with uart := { rx := List.replicate 16 0 } }, by decide +kernel⟩

theorem met_TerminalsAndUart_9 :
    ∃ (s : State) (path : Path) (b : Byte) (l : List Byte), s.Reaches path Pg.GPIO ∧ s.isCell = true ∧ s.uart.rx = b
      :: l ∧ s.clk.gating.contains Pg.GPIO = false :=
  ⟨{ cell [0x2F] with uart := { rx := [9, 8] } }, .supervisor, 9, [8], by decide +kernel⟩

theorem met_TerminalsAndUart_10 :
    ∃ (s : State), s.Settled ∧ s.alive = true ∧ s.isCell = true ∧ s.gpioFn 2 = 0 ∧ s.ledToggles = true :=
  ⟨withF F.GPIO_LED_MODE 2 (cell []), by decide +kernel⟩

theorem witness_TerminalsAndUart :
    (∃ (s : State) (path : Path) (n : Nat) (data : Word), s.Reaches path Pg.GPIO ∧ n < 8 ∧ s.gpioAllowed n (getBits
      data 0 3) = true) ∧
    (∃ (s : State) (path : Path) (n : Nat) (data : Word), s.Reaches path Pg.GPIO ∧ n < 8 ∧ s.gpioAllowed n (getBits
      data 0 3) = false) ∧
    (∃ (s : State) (n : Nat) (level : Bool), s.alive = true ∧ n < 8 ∧ s.gpioInput n = true ∧ bitOf
      s.pins.gpioIn.toNat n ≠ level) ∧
    (∃ (s : State) (path : Path), s.Reaches path Pg.GPIO ∧ s.isCell = true ∧ s.uart.tx.length < 16 ∧ (s.uartOn =
      false ∨ s.uart.sending ≠ none)) ∧
    (∃ (s : State) (b : Byte) (l : List Byte), s.Settled ∧ s.uartOn = true ∧ s.uart.tx = b :: l) ∧
    (∃ (s : State), s.uartOn = true ∧ s.uart.rx.length < 16) ∧
    (∃ (s : State), s.uartOn = true ∧ s.uart.rx = []) ∧
    (∃ (s : State), s.uartOn = true ∧ 16 ≤ s.uart.rx.length) ∧
    (∃ (s : State) (path : Path) (b : Byte) (l : List Byte), s.Reaches path Pg.GPIO ∧ s.isCell = true ∧ s.uart.rx =
      b :: l ∧ s.clk.gating.contains Pg.GPIO = false) ∧
    (∃ (s : State), s.Settled ∧ s.alive = true ∧ s.isCell = true ∧ s.gpioFn 2 = 0 ∧ s.ledToggles = true) :=
  ⟨met_TerminalsAndUart_1, met_TerminalsAndUart_2, met_TerminalsAndUart_3, met_TerminalsAndUart_4,
    met_TerminalsAndUart_5, met_TerminalsAndUart_6, met_TerminalsAndUart_7, met_TerminalsAndUart_8,
    met_TerminalsAndUart_9, met_TerminalsAndUart_10⟩

theorem met_PresenceAndSeal_1 :
    ∃ (s : State), s.alive = true ∧ s.get F.SEC_PRES_STUCK = 0 ∧ s.sec.pressed = false :=
  ⟨cell [], by decide +kernel⟩

theorem met_PresenceAndSeal_3 :
    ∃ (s : State), s.sec.presOpen = true :=
  ⟨{ cell [] with sec := { presOpen := true } }, by decide +kernel⟩

theorem met_PresenceAndSeal_4 :
    ∃ (s : State) (path : Path), s.Reaches path Pg.SEC ∧ s.sec.presOpen = true :=
  ⟨{ cell [] with sec := { presOpen := true } }, .supervisor, by decide +kernel⟩

theorem met_PresenceAndSeal_5 :
    ∃ (s : State), s.alive = true ∧ s.pins.presence = false ∧ s.get F.SEC_PRES_STUCK = 0 :=
  ⟨{ cell [] with sec := { presOpen := true }, pins := { presence := false } }, by decide +kernel⟩

theorem met_PresenceAndSeal_6 :
    ∃ (s : State), s.Settled ∧ s.pins.presence = true ∧ s.get F.SEC_PRES_STUCK = 1 :=
  ⟨withF F.SEC_PRES_STUCK 1 (cell []), by decide +kernel⟩

theorem met_PresenceAndSeal_7 :
    ∃ (s : State), s.Settled ∧ s.phase ≠ .held :=
  ⟨cell [], by decide +kernel⟩

theorem met_PresenceAndSeal_8 :
    ∃ (s : State) (v : Bool), s.phase ≠ .held ∧ v ≠ s.pins.sealOut ∧ 1 ≤ s.sec.sealMiss ∧ s.sec.sealOpen ≠ some true :=
  ⟨{ cell [] with sec := { sealMiss := 1, sealOpen := some false } }, true, by decide +kernel⟩

theorem met_PresenceAndSeal_9 :
    ∃ (s : State) (v : Bool), s.Settled ∧ s.phase ≠ .held ∧ v = s.pins.sealOut ∧ 63 ≤ s.sec.sealHit ∧ s.sec.sealOpen
      ≠ some false :=
  ⟨{ cell [] with sec := { sealHit := 63, sealOpen := some true } }, false, by decide +kernel⟩

theorem witness_PresenceAndSeal :
    (∃ (s : State), s.alive = true ∧ s.get F.SEC_PRES_STUCK = 0 ∧ s.sec.pressed = false) ∧
    (∃ (s : State), s.Settled) ∧
    (∃ (s : State), s.sec.presOpen = true) ∧
    (∃ (s : State) (path : Path), s.Reaches path Pg.SEC ∧ s.sec.presOpen = true) ∧
    (∃ (s : State), s.alive = true ∧ s.pins.presence = false ∧ s.get F.SEC_PRES_STUCK = 0) ∧
    (∃ (s : State), s.Settled ∧ s.pins.presence = true ∧ s.get F.SEC_PRES_STUCK = 1) ∧
    (∃ (s : State), s.Settled ∧ s.phase ≠ .held) ∧
    (∃ (s : State) (v : Bool), s.phase ≠ .held ∧ v ≠ s.pins.sealOut ∧ 1 ≤ s.sec.sealMiss ∧ s.sec.sealOpen ≠ some
      true) ∧
    (∃ (s : State) (v : Bool), s.Settled ∧ s.phase ≠ .held ∧ v = s.pins.sealOut ∧ 63 ≤ s.sec.sealHit ∧
      s.sec.sealOpen ≠ some false) :=
  ⟨met_PresenceAndSeal_1, met_SupplyCommands_4, met_PresenceAndSeal_3, met_PresenceAndSeal_4, met_PresenceAndSeal_5,
    met_PresenceAndSeal_6, met_PresenceAndSeal_7, met_PresenceAndSeal_8, met_PresenceAndSeal_9⟩

theorem met_KeysAndRecords_1 :
    ∃ (s : State) (path : Path), s.Reaches path Pg.SEC ∧ s.sec.attBusy = false :=
  ⟨cell [], .supervisor, by decide +kernel⟩

theorem met_KeysAndRecords_2 :
    ∃ (s : State), s.alive = true ∧ s.sec.attBusy = true :=
  ⟨{ cell [] with sec := { attBusy := true } }, by decide +kernel⟩

theorem met_KeysAndRecords_3 :
    ∃ (s : State) (path : Path), s.Reaches path Pg.SEC ∧ s.sec.recJob = none :=
  ⟨cell [], .supervisor, by decide +kernel⟩

theorem met_KeysAndRecords_5 :
    ∃ (s : State), s.alive = true ∧ s.sec.recJob ≠ none :=
  ⟨{ cell [] with sec := { recJob := some .restoreRec } }, by decide +kernel⟩

theorem met_KeysAndRecords_6 :
    ∃ (s : State), s.alive = true ∧ s.sec.recJob = some .exportRec ∧ inState (s.reg R.SEC_REC_ADDR).toNat = true ∧
      inState ((s.reg R.SEC_REC_ADDR).toNat + s.recPlain.length - 1) = true :=
  ⟨{ (cell []).setReg R.SEC_REC_ADDR 0x20000000 with sec := { recJob := some .exportRec } }, by decide +kernel⟩

theorem met_KeysAndRecords_7 :
    ∃ (s : State) (path : Path), s.Reaches path Pg.OTP ∧ s.guardFor path Pg.OTP = true ∧ s.sec.otpJob = none ∧
      ((s.reg R.OTP_ADDR).toNat % 0x2000 / 4 * 4 = 0x420 ∨ 0x800 ≤ (s.reg R.OTP_ADDR).toNat % 0x2000 / 4 * 4) :=
  ⟨{ (cell []).setReg R.OTP_ADDR 0x800 with sec := { presOpen := true } }, .supervisor, by decide +kernel⟩

theorem met_KeysAndRecords_8 :
    ∃ (s : State) (a : Nat) (w : Word), s.alive = true ∧ s.sec.otpJob = some (a, w) :=
  ⟨{ cell [] with sec := { otpJob := some (0x420, 5) } }, 0x420, 5, by decide +kernel⟩

theorem met_KeysAndRecords_9 :
    ∃ (s : State) (path : Path), s.Reaches path Pg.HOST ∧ s.guardFor path Pg.HOST = true :=
  ⟨{ cell [] with sec := { presOpen := true } }, .supervisor, by decide +kernel⟩

theorem met_KeysAndRecords_10 :
    ∃ (s : State) (path : Path), s.Reaches path Pg.HOST :=
  ⟨withF F.DBG_STAT_OPEN 1 (cell []), .supervisor, by decide +kernel⟩

theorem met_KeysAndRecords_11 :
    ∃ (s : State) (data : Word) (o : Nat), s.Reaches (.remote true true) Pg.SEC ∧ s.guardFor (.remote true true)
      Pg.SEC = true ∧ getBits data 16 16 = 0x7E55 ∧ s.activeSlot = some o :=
  ⟨withWord 0x50000220 0xA5A55A5A (cell []), 0x7E550000, 0, by decide +kernel⟩

theorem witness_KeysAndRecords :
    (∃ (s : State) (path : Path), s.Reaches path Pg.SEC ∧ s.sec.attBusy = false) ∧
    (∃ (s : State), s.alive = true ∧ s.sec.attBusy = true) ∧
    (∃ (s : State) (path : Path), s.Reaches path Pg.SEC ∧ s.sec.recJob = none) ∧
    (∃ (s : State), s.alive = true ∧ s.sec.recJob ≠ none) ∧
    (∃ (s : State), s.alive = true ∧ s.sec.recJob = some .exportRec ∧ inState (s.reg R.SEC_REC_ADDR).toNat = true ∧
      inState ((s.reg R.SEC_REC_ADDR).toNat + s.recPlain.length - 1) = true) ∧
    (∃ (s : State) (path : Path), s.Reaches path Pg.OTP ∧ s.guardFor path Pg.OTP = true ∧ s.sec.otpJob = none ∧
      ((s.reg R.OTP_ADDR).toNat % 0x2000 / 4 * 4 = 0x420 ∨ 0x800 ≤ (s.reg R.OTP_ADDR).toNat % 0x2000 / 4 * 4)) ∧
    (∃ (s : State) (a : Nat) (w : Word), s.alive = true ∧ s.sec.otpJob = some (a, w)) ∧
    (∃ (s : State) (path : Path), s.Reaches path Pg.HOST ∧ s.guardFor path Pg.HOST = true) ∧
    (∃ (s : State) (path : Path), s.Reaches path Pg.HOST) ∧
    (∃ (s : State) (data : Word) (o : Nat), s.Reaches (.remote true true) Pg.SEC ∧ s.guardFor (.remote true true)
      Pg.SEC = true ∧ getBits data 16 16 = 0x7E55 ∧ s.activeSlot = some o) :=
  ⟨met_KeysAndRecords_1, met_KeysAndRecords_2, met_KeysAndRecords_3, met_KeysAndRecords_5, met_KeysAndRecords_6,
    met_KeysAndRecords_7, met_KeysAndRecords_8, met_KeysAndRecords_9, met_KeysAndRecords_10, met_KeysAndRecords_11⟩

theorem met_TerminalLevels_2 :
    ∃ (s : State), s.alive = true ∧ s.pins.vddio = true :=
  ⟨cell [], by decide +kernel⟩

theorem met_TerminalLevels_3 :
    ∃ (s : State), s.pins.vddio = true ∧ s.inReset = false :=
  ⟨cell [], by decide +kernel⟩

theorem met_TerminalLevels_4 :
    ∃ (s : State) (n : Nat), s.pins.vddio = true ∧ s.inReset = false ∧ s.isCell = true ∧ n < 6 :=
  ⟨cell [], 2, by decide +kernel⟩

theorem met_TerminalLevels_5 :
    ∃ (s : State) (n : Nat), s.is (F.LANE_STAT_BONDED 4) = false ∧ s.is (F.LANE_STAT_SYNC n) = true :=
  ⟨withF F.SYS_NODE_HUB 9 (withF (F.LANE_STAT_SYNC 5) 1 (hub [])), 5, by decide +kernel⟩

theorem met_TerminalLevels_6 :
    ∃ (s : State), s.is (F.LANE_STAT_BONDED 4) = true ∧ (s.lane 4).trainEnd ≤ s.elapsed :=
  ⟨withF (F.LANE_STAT_BONDED 4) 1 (hub []), by decide +kernel⟩

theorem met_TerminalLevels_7 :
    ∃ (s : State) (p : Nat), (s.port p).launched ≠ [] ∧ s.cutAt p = none :=
  ⟨{ hub [] with ports := [{}, { launched := [1, 2, 3] }, {}, {}] }, 1, by decide +kernel⟩

theorem met_TerminalLevels_8 :
    ∃ (s : State) (p g c : Nat), s.cutAt p = some c ∧ c ≤ g :=
  ⟨{ hub [] with now := 2 ^ 50, time := { lastK := some 0 }, ports := [{}, { launched := [1, 2, 3] }, {}, {}], safe := { alatch := 1, alatchAt := some (2 ^ 49) } },
    1, 82300, 82217, by decide +kernel⟩

theorem met_TerminalLevels_9 :
    ∃ (s : State) (p : Nat), s.groupsGone p s.now = none :=
  ⟨hub [], 2, by decide +kernel⟩

theorem met_TerminalLevels_10 :
    ∃ (s : State) (u : Nat), s.inPulse (s.uplink u).txen = false :=
  ⟨cell [], 1, by decide +kernel⟩

theorem met_TerminalLevels_11 :
    ∃ (s : State) (u i : Nat), s.inPulse (s.uplink u).txen = true ∧ (s.now - (s.uplink u).txen.1) / groupAt (s.rate
      u) 0 1 = i + 1 ∧ i < 8 + (s.uplink u).burst.length :=
  ⟨{ cell [] with now := 2 ^ 40, rx := { up := [{ burst := [7, 8, 9], txen := (2 ^ 40 - 10 * groupAt ((cell []).rate 0) 0 1, 2 ^ 41) }, {}] } },
    0, 9, by decide +kernel⟩

theorem met_TerminalLevels_12 :
    ∃ (f : List Byte) (j i : Nat), j < 2 ∧ 2 * i + j < f.length :=
  ⟨[1, 2, 3, 4, 5], 1, 1, by decide +kernel⟩

theorem witness_TerminalLevels :
    (∃ (s : State), s.alive = true) ∧
    (∃ (s : State), s.alive = true ∧ s.pins.vddio = true) ∧
    (∃ (s : State), s.pins.vddio = true ∧ s.inReset = false) ∧
    (∃ (s : State) (n : Nat), s.pins.vddio = true ∧ s.inReset = false ∧ s.isCell = true ∧ n < 6) ∧
    (∃ (s : State) (n : Nat), s.is (F.LANE_STAT_BONDED 4) = false ∧ s.is (F.LANE_STAT_SYNC n) = true) ∧
    (∃ (s : State), s.is (F.LANE_STAT_BONDED 4) = true ∧ (s.lane 4).trainEnd ≤ s.elapsed) ∧
    (∃ (s : State) (p : Nat), (s.port p).launched ≠ [] ∧ s.cutAt p = none) ∧
    (∃ (s : State) (p g c : Nat), s.cutAt p = some c ∧ c ≤ g) ∧
    (∃ (s : State) (p : Nat), s.groupsGone p s.now = none) ∧
    (∃ (s : State) (u : Nat), s.inPulse (s.uplink u).txen = false) ∧
    (∃ (s : State) (u i : Nat), s.inPulse (s.uplink u).txen = true ∧ (s.now - (s.uplink u).txen.1) / groupAt (s.rate
      u) 0 1 = i + 1 ∧ i < 8 + (s.uplink u).burst.length) ∧
    (∃ (f : List Byte) (j i : Nat), j < 2 ∧ 2 * i + j < f.length) :=
  ⟨met_SupervisorCommands_11, met_TerminalLevels_2, met_TerminalLevels_3, met_TerminalLevels_4,
    met_TerminalLevels_5, met_TerminalLevels_6, met_TerminalLevels_7, met_TerminalLevels_8, met_TerminalLevels_9,
    met_TerminalLevels_10, met_TerminalLevels_11, met_TerminalLevels_12⟩

theorem met_LaneSync_1 :
    ∃ (s : State) (n : Nat), s.laneRx n = true ∧ s.continuousLane n = true ∧ n < 8 :=
  ⟨cell [], 1, by decide +kernel⟩

theorem met_LaneSync_2 :
    ∃ (s : State) (n : Nat), s.Settled ∧ s.laneRx n = true ∧ s.continuousLane n = true ∧ n < 8 :=
  ⟨cell [], 1, by decide +kernel⟩

theorem met_LaneSync_3 :
    ∃ (s : State) (n e : Nat), s.alive = true ∧ n < 8 ∧ s.continuousLane n = true ∧ s.is (F.LANE_STAT_SYNC n) = true
      ∧ 4 ≤ (s.lane n).errs + e :=
  ⟨withF (F.LANE_STAT_SYNC 1) 1 (cell []), 1, 4, by decide +kernel⟩

theorem met_LaneSync_4 :
    ∃ (s : State) (n : Nat), s.Settled ∧ s.alive = true ∧ s.isCell = true ∧ n < 2 ∧ s.get (F.LANE_STAT_SYNC n) = 0 ∧
      s.is (F.LANE_STAT_HUNT n) = true :=
  ⟨withF (F.LANE_STAT_HUNT 1) 1 (cell []), 1, by decide +kernel⟩

theorem met_LaneSync_5 :
    ∃ (s : State) (n : Nat), s.alive = true ∧ s.isCell = true ∧ n < 2 ∧ s.get (F.LANE_STAT_SYNC n) = 0 ∧ s.is
      (F.LANE_STAT_HUNT n) = true ∧ s.get (F.CLK_MON_CTL_WIN (2 + n)) % 32 = 0 :=
  ⟨withF (F.CLK_MON_CTL_WIN 3) 64 (withF (F.LANE_STAT_HUNT 1) 1 (cell [])), 1, by decide +kernel⟩

theorem met_LaneSync_6 :
    ∃ (s : State) (n : Nat), s.laneRx n = true ∧ n < 6 ∧ s.is (F.LANE_CFG_AUTOPOL n) = true :=
  ⟨cell [], 1, by decide +kernel⟩

theorem met_LaneSync_7 :
    ∃ (s : State) (l4 l5 node skew : Nat), s.laneRx 4 = true ∧ s.laneRx 5 = true ∧ s.isHub = true ∧ s.is
      F.SYS_TOPO_TWIN = true ∧ s.is (F.LANE_STAT_SYNC 4) = true ∧ s.is (F.LANE_STAT_SYNC 5) = true ∧ l4 + l5 = 1 ∧
      skew ≤ 16 ∧ s.get (F.LANE_CFG_RATE 4) = s.get (F.LANE_CFG_RATE 5) ∧ node % 64 = s.get F.SYS_NODE_HUB ∧ node /
      64 % 2 ≠ s.get F.SYS_NODE_SIDE :=
  ⟨bondHub, 1, 0, 64, 16, by decide +kernel⟩

theorem met_LaneSync_8 :
    ∃ (s : State) (l4 l5 node skew : Nat), s.laneRx 4 = true ∧ s.laneRx 5 = true ∧ s.isHub = true ∧ s.is
      F.SYS_TOPO_TWIN = true ∧ s.is (F.LANE_STAT_SYNC 4) = true ∧ s.is (F.LANE_STAT_SYNC 5) = true ∧ l4 + l5 = 1 ∧
      skew ≤ 16 ∧ s.get (F.LANE_CFG_RATE 4) = s.get (F.LANE_CFG_RATE 5) ∧ (node % 64 ≠ s.get F.SYS_NODE_HUB ∨ node /
      64 % 2 = s.get F.SYS_NODE_SIDE) :=
  ⟨bondHub, 0, 1, 0, 0, by decide +kernel⟩

theorem met_LaneSync_9 :
    ∃ (s : State) (why skew : Nat), s.Settled ∧ s.alive = true ∧ s.isHub = true ∧ 1 ≤ why ∧ why ≤ 4 ∧ skew < 2 ^
      (F.LANE_BOND_SKEW 4).w :=
  ⟨hub [], 4, 17, by decide +kernel⟩

theorem met_LaneSync_10 :
    ∃ (s : State) (n : Nat), s.Settled ∧ s.alive = true ∧ n < 8 ∧ mooredByRole s.role n = false ∧ (s.isCell = true ∨
      s.get (F.LANE_PWR_CUR n) ≠ 2) :=
  ⟨cell [], 1, by decide +kernel⟩

theorem met_LaneSync_11 :
    ∃ (s : State) (n : Nat), s.alive = true ∧ s.isCell = true ∧ n < 2 :=
  ⟨cell [], 1, by decide +kernel⟩

theorem met_LaneSync_12 :
    ∃ (s : State) (n : Nat), s.alive = true ∧ s.isCell = true ∧ n < 2 ∧ s.get F.CLK_SRC_RCSEL ≠ n ∧ s.is
      (F.CLK_MON_STAT_FAIL (2 + s.get F.CLK_SRC_RCSEL)) = true :=
  ⟨withF (F.CLK_MON_STAT_FAIL 2) 1 (cell []), 1, by decide +kernel⟩

theorem witness_LaneSync :
    (∃ (s : State) (n : Nat), s.laneRx n = true ∧ s.continuousLane n = true ∧ n < 8) ∧
    (∃ (s : State) (n : Nat), s.Settled ∧ s.laneRx n = true ∧ s.continuousLane n = true ∧ n < 8) ∧
    (∃ (s : State) (n e : Nat), s.alive = true ∧ n < 8 ∧ s.continuousLane n = true ∧ s.is (F.LANE_STAT_SYNC n) =
      true ∧ 4 ≤ (s.lane n).errs + e) ∧
    (∃ (s : State) (n : Nat), s.Settled ∧ s.alive = true ∧ s.isCell = true ∧ n < 2 ∧ s.get (F.LANE_STAT_SYNC n) = 0
      ∧ s.is (F.LANE_STAT_HUNT n) = true) ∧
    (∃ (s : State) (n : Nat), s.alive = true ∧ s.isCell = true ∧ n < 2 ∧ s.get (F.LANE_STAT_SYNC n) = 0 ∧ s.is
      (F.LANE_STAT_HUNT n) = true ∧ s.get (F.CLK_MON_CTL_WIN (2 + n)) % 32 = 0) ∧
    (∃ (s : State) (n : Nat), s.laneRx n = true ∧ n < 6 ∧ s.is (F.LANE_CFG_AUTOPOL n) = true) ∧
    (∃ (s : State) (l4 l5 node skew : Nat), s.laneRx 4 = true ∧ s.laneRx 5 = true ∧ s.isHub = true ∧ s.is
      F.SYS_TOPO_TWIN = true ∧ s.is (F.LANE_STAT_SYNC 4) = true ∧ s.is (F.LANE_STAT_SYNC 5) = true ∧ l4 + l5 = 1 ∧
      skew ≤ 16 ∧ s.get (F.LANE_CFG_RATE 4) = s.get (F.LANE_CFG_RATE 5) ∧ node % 64 = s.get F.SYS_NODE_HUB ∧ node /
      64 % 2 ≠ s.get F.SYS_NODE_SIDE) ∧
    (∃ (s : State) (l4 l5 node skew : Nat), s.laneRx 4 = true ∧ s.laneRx 5 = true ∧ s.isHub = true ∧ s.is
      F.SYS_TOPO_TWIN = true ∧ s.is (F.LANE_STAT_SYNC 4) = true ∧ s.is (F.LANE_STAT_SYNC 5) = true ∧ l4 + l5 = 1 ∧
      skew ≤ 16 ∧ s.get (F.LANE_CFG_RATE 4) = s.get (F.LANE_CFG_RATE 5) ∧ (node % 64 ≠ s.get F.SYS_NODE_HUB ∨ node /
      64 % 2 = s.get F.SYS_NODE_SIDE)) ∧
    (∃ (s : State) (why skew : Nat), s.Settled ∧ s.alive = true ∧ s.isHub = true ∧ 1 ≤ why ∧ why ≤ 4 ∧ skew < 2 ^
      (F.LANE_BOND_SKEW 4).w) ∧
    (∃ (s : State) (n : Nat), s.Settled ∧ s.alive = true ∧ n < 8 ∧ mooredByRole s.role n = false ∧ (s.isCell = true
      ∨ s.get (F.LANE_PWR_CUR n) ≠ 2)) ∧
    (∃ (s : State) (n : Nat), s.alive = true ∧ s.isCell = true ∧ n < 2) ∧
    (∃ (s : State) (n : Nat), s.alive = true ∧ s.isCell = true ∧ n < 2 ∧ s.get F.CLK_SRC_RCSEL ≠ n ∧ s.is
      (F.CLK_MON_STAT_FAIL (2 + s.get F.CLK_SRC_RCSEL)) = true) :=
  ⟨met_LaneSync_1, met_LaneSync_2, met_LaneSync_3, met_LaneSync_4, met_LaneSync_5, met_LaneSync_6, met_LaneSync_7,
    met_LaneSync_8, met_LaneSync_9, met_LaneSync_10, met_LaneSync_11, met_LaneSync_12⟩

theorem met_LaneTests_1 :
    ∃ (s : State) (path : Path) (n req : Nat), s.Reaches path (Pg.LANE n) ∧ n < 8 ∧ mooredByRole s.role n = false ∧
      req < 3 ∧ s.get (F.LANE_PWR_BUSY n) = 0 ∧ s.enabled (Pg.LANE n) = true ∧ s.get (F.LANE_PWR_CUR n) ≠ req :=
  ⟨cell [0x11], .supervisor, 1, 1, by decide +kernel⟩

theorem met_LaneTests_2 :
    ∃ (s : State) (n st : Nat), s.alive = true ∧ n < 8 ∧ s.is (F.LANE_PWR_BUSY n) = true ∧ (s.lane n).target = some
      st ∧ (s.lane n).latched = none ∧ st < 3 :=
  ⟨{ withF (F.LANE_PWR_BUSY 1) 1 (cell [0x11]) with lanes := [{}, { target := some 0 }] }, 1, 0, by decide +kernel⟩

theorem met_LaneTests_3 :
    ∃ (s : State) (path : Path) (n : Nat), s.Reaches path (Pg.LANE n) ∧ n < 8 ∧ s.get (F.LANE_ES_STAT_BUSY n) = 0 :=
  ⟨cell [0x11], .supervisor, 1, by decide +kernel⟩

theorem met_LaneTests_4 :
    ∃ (s : State) (n e : Nat), s.laneRx n = true ∧ n < 8 ∧ s.is (F.LANE_ES_STAT_BUSY n) = true ∧ s.continuousLane n
      = true ∧ e < 2 ^ 32 :=
  ⟨withF (F.LANE_PWR_CUR 7) 0 (withF (F.LANE_ES_STAT_BUSY 7) 1 (hub [0x17])), 7, 4294967295, by decide +kernel⟩

theorem met_LaneTests_5 :
    ∃ (s : State) (n e : Nat), s.Settled ∧ s.alive = true ∧ n < 8 ∧ s.is (F.LANE_ES_STAT_BUSY n) = true ∧ e < 2 ^ 32 :=
  ⟨withF (F.LANE_ES_STAT_BUSY 7) 1 (hub []), 7, 5, by decide +kernel⟩

theorem met_LaneTests_6 :
    ∃ (s : State) (path : Path) (n : Nat), s.Reaches path (Pg.LANE n) ∧ n < 8 ∧ s.is (F.LANE_PRBS_CTL_GEN n) = true :=
  ⟨withF (F.LANE_PRBS_CTL_GEN 6) 1 (hub [0x16]), .supervisor, 6, by decide +kernel⟩

theorem met_LaneTests_7 :
    ∃ (s : State) (path : Path) (n : Nat), s.Reaches path (Pg.LANE n) ∧ n < 8 :=
  ⟨(hub [0x17]).setReg (R.LANE_PRBS_ERR 7) 5, .supervisor, 7, by decide +kernel⟩

theorem met_LaneTests_8 :
    ∃ (s : State) (n : Nat), s.Settled ∧ s.laneRx n = true ∧ n < 8 ∧ s.continuousLane n = true ∧ s.is
      (F.LANE_PRBS_CTL_CHK n) = true :=
  ⟨(withF (F.LANE_PRBS_CTL_CHK 1) 1 (cell [])).settle, 1, by decide +kernel⟩

theorem met_LaneTests_9 :
    ∃ (s : State) (n e : Nat), s.Settled ∧ s.laneRx n = true ∧ n < 8 ∧ s.is (F.LANE_PRBS_CTL_CHK n) = true ∧ s.is
      (F.LANE_PRBS_STAT_LOCK n) = true ∧ 32 < e :=
  ⟨State.settle (withF (F.LANE_PWR_CUR 6) 0 (withF (F.LANE_PRBS_CTL_CHK 6) 1 (withF (F.LANE_PRBS_STAT_LOCK 6) 1 (hub
    [0x16])))), 6, 33, by decide +kernel⟩

theorem met_LaneTests_10 :
    ∃ (s : State) (p slot : Nat), s.portHears p = true ∧ p < 4 ∧ slot < 268 ∧ s.now + groupAt (s.rate p) 0 5 ≤
      slotAt (s.rate p) (s.roundNow p) slot :=
  ⟨hearHub, 3, 267, by decide +kernel⟩

theorem witness_LaneTests :
    (∃ (s : State) (path : Path) (n req : Nat), s.Reaches path (Pg.LANE n) ∧ n < 8 ∧ mooredByRole s.role n = false ∧
      req < 3 ∧ s.get (F.LANE_PWR_BUSY n) = 0 ∧ s.enabled (Pg.LANE n) = true ∧ s.get (F.LANE_PWR_CUR n) ≠ req) ∧
    (∃ (s : State) (n st : Nat), s.alive = true ∧ n < 8 ∧ s.is (F.LANE_PWR_BUSY n) = true ∧ (s.lane n).target = some
      st ∧ (s.lane n).latched = none ∧ st < 3) ∧
    (∃ (s : State) (path : Path) (n : Nat), s.Reaches path (Pg.LANE n) ∧ n < 8 ∧ s.get (F.LANE_ES_STAT_BUSY n) = 0) ∧
    (∃ (s : State) (n e : Nat), s.laneRx n = true ∧ n < 8 ∧ s.is (F.LANE_ES_STAT_BUSY n) = true ∧ s.continuousLane n
      = true ∧ e < 2 ^ 32) ∧
    (∃ (s : State) (n e : Nat), s.Settled ∧ s.alive = true ∧ n < 8 ∧ s.is (F.LANE_ES_STAT_BUSY n) = true ∧ e < 2 ^
      32) ∧
    (∃ (s : State) (path : Path) (n : Nat), s.Reaches path (Pg.LANE n) ∧ n < 8 ∧ s.is (F.LANE_PRBS_CTL_GEN n) =
      true) ∧
    (∃ (s : State) (path : Path) (n : Nat), s.Reaches path (Pg.LANE n) ∧ n < 8) ∧
    (∃ (s : State) (n : Nat), s.Settled ∧ s.laneRx n = true ∧ n < 8 ∧ s.continuousLane n = true ∧ s.is
      (F.LANE_PRBS_CTL_CHK n) = true) ∧
    (∃ (s : State) (n e : Nat), s.Settled ∧ s.laneRx n = true ∧ n < 8 ∧ s.is (F.LANE_PRBS_CTL_CHK n) = true ∧ s.is
      (F.LANE_PRBS_STAT_LOCK n) = true ∧ 32 < e) ∧
    (∃ (s : State) (p slot : Nat), s.portHears p = true ∧ p < 4 ∧ slot < 268 ∧ s.now + groupAt (s.rate p) 0 5 ≤
      slotAt (s.rate p) (s.roundNow p) slot) :=
  ⟨met_LaneTests_1, met_LaneTests_2, met_LaneTests_3, met_LaneTests_4, met_LaneTests_5, met_LaneTests_6,
    met_LaneTests_7, met_LaneTests_8, met_LaneTests_9, met_LaneTests_10⟩

theorem met_TimeUnit_1 :
    ∃ (s : State) (path : Path), s.Reaches path Pg.TIME ∧ s.clk.gating.contains Pg.TIME = false :=
  ⟨hub [0x0B], .supervisor, by decide +kernel⟩

theorem met_TimeUnit_2 :
    ∃ (s : State) (path : Path), s.Reaches path Pg.TIME ∧ s.runs Pg.TIME = true ∧ s.meridiansOn = false :=
  ⟨hub [0x0B], .supervisor, by decide +kernel⟩

theorem met_TimeUnit_4 :
    ∃ (s : State) (d : Int), s.alive = true ∧ s.runs Pg.TIME = true ∧ s.time.src = s.get F.TIME_CTL_SRC ∧
      s.time.jump = some (.step d) ∧ s.time.corr = 0 :=
  ⟨{ hub [0x0B] with time := { jump := some (.step (-5)) }, now := 3 }, -5, by decide +kernel⟩

theorem met_TimeUnit_5 :
    ∃ (s : State) (n : Nat), s.alive = true ∧ s.runs Pg.TIME = true ∧ s.time.src = s.get F.TIME_CTL_SRC ∧
      s.time.jump = some (.load n) ∧ s.time.corr = 0 ∧ s.time.incWait = none :=
  ⟨{ hub [0x0B] with time := { jump := some (.load 9) } }, 9, by decide +kernel⟩

theorem met_TimeUnit_6 :
    ∃ (s : State) (path : Path), s.Reaches path Pg.TIME ∧ s.runs Pg.TIME = true ∧ s.clk.gating.contains Pg.TIME =
      false :=
  ⟨{ hub [0x0B] with now := 99999999999999999999 }, .supervisor, by decide +kernel⟩

theorem met_TimeUnit_7 :
    ∃ (s : State), s.Settled ∧ s.alive = true ∧ s.isHub = true ∧ s.runs Pg.TIME = true ∧ s.get (F.GPIO_FN_FN 4) = 0
      ∧ s.outputsOff = false :=
  ⟨hub [0x0B], by decide +kernel⟩

theorem met_TimeUnit_8 :
    ∃ (s : State), s.Settled ∧ s.alive = true ∧ s.isHub = true :=
  ⟨hub [0x0B], by decide +kernel⟩

theorem met_TimeUnit_9 :
    ∃ (s : State), s.pending = [] ∧ s.alive = true ∧ s.isHub = true ∧ s.runs Pg.TIME = true ∧ s.time.src = s.get
      F.TIME_CTL_SRC ∧ s.time.jump = none ∧ s.time.corr = 0 ∧ s.time.incWait = none :=
  ⟨hub [0x0B], by decide +kernel⟩

theorem met_TimeUnit_10 :
    ∃ (s : State) (p ty : Nat), s.alive = true ∧ s.runs Pg.TIME = true ∧ s.isCell = false ∧ p < 2 ∧ ty < 4 ∧
      (s.tsQueue p).length < 16 :=
  ⟨hub [0x0B], 1, 3, by decide +kernel⟩

theorem met_TimeUnit_11 :
    ∃ (s : State) (p ty : Nat), s.alive = true ∧ s.runs Pg.TIME = true ∧ s.isCell = false ∧ p < 2 ∧ ty < 4 ∧ 16 ≤
      (s.tsQueue p).length :=
  ⟨{ hub [0x0B] with time := { tsq := [[], List.replicate 16 ⟨0, 0, false, 0⟩] } }, 1, 3, by decide +kernel⟩

theorem met_TimeUnit_12 :
    ∃ (s : State) (path : Path) (p : Nat) (e : TsEntry) (q : List TsEntry), s.Reaches path Pg.TIME ∧
      s.clk.gating.contains Pg.TIME = false ∧ s.isCell = false ∧ p < 2 ∧ s.tsQueue p = e :: q :=
  ⟨{ hub [0x0B] with time := { tsq := [[], [⟨7, 1, true, 0⟩]] } }, .supervisor, 1, ⟨7, 1, true, 0⟩, [],
    by decide +kernel⟩

theorem met_TimeUnit_13 :
    ∃ (s : State), s.alive = true ∧ s.isHub = true ∧ s.runs Pg.TIME = true ∧ s.time.src = 2 ∧ s.is
      (F.LANE_STAT_BONDED 4) = true :=
  ⟨{ withF F.TIME_CTL_SRC 2 (withF (F.LANE_STAT_BONDED 4) 1 (hub [0x0B])) with time := { src := 2 } },
    by decide +kernel⟩

theorem met_TimeUnit_14 :
    ∃ (s : State) (ofs : Int), s.alive = true ∧ s.isHub = true ∧ s.runs Pg.TIME = true ∧ s.time.src = 2 ∧ s.is
      (F.LANE_STAT_BONDED 4) = true ∧ (64 < ofs.natAbs ∨ 255 ≤ s.time.twinGood) :=
  ⟨{ withF F.TIME_CTL_SRC 2 (withF (F.LANE_STAT_BONDED 4) 1 (hub [0x0B])) with time := { src := 2, twinGood := 255 } },
    -64, by decide +kernel⟩

theorem met_TimeUnit_15 :
    ∃ (s : State), s.alive = true ∧ s.runs Pg.TIME = true ∧ s.isCell = true ∧ s.time.hold = [] :=
  ⟨cell [0x0B], by decide +kernel⟩

theorem witness_TimeUnit :
    (∃ (s : State) (path : Path), s.Reaches path Pg.TIME ∧ s.clk.gating.contains Pg.TIME = false) ∧
    (∃ (s : State) (path : Path), s.Reaches path Pg.TIME ∧ s.runs Pg.TIME = true ∧ s.meridiansOn = false) ∧
    (∃ (s : State) (d : Int), s.alive = true ∧ s.runs Pg.TIME = true ∧ s.time.src = s.get F.TIME_CTL_SRC ∧
      s.time.jump = some (.step d) ∧ s.time.corr = 0) ∧
    (∃ (s : State) (n : Nat), s.alive = true ∧ s.runs Pg.TIME = true ∧ s.time.src = s.get F.TIME_CTL_SRC ∧
      s.time.jump = some (.load n) ∧ s.time.corr = 0 ∧ s.time.incWait = none) ∧
    (∃ (s : State) (path : Path), s.Reaches path Pg.TIME ∧ s.runs Pg.TIME = true ∧ s.clk.gating.contains Pg.TIME =
      false) ∧
    (∃ (s : State), s.Settled ∧ s.alive = true ∧ s.isHub = true ∧ s.runs Pg.TIME = true ∧ s.get (F.GPIO_FN_FN 4) = 0
      ∧ s.outputsOff = false) ∧
    (∃ (s : State), s.Settled ∧ s.alive = true ∧ s.isHub = true) ∧
    (∃ (s : State), s.pending = [] ∧ s.alive = true ∧ s.isHub = true ∧ s.runs Pg.TIME = true ∧ s.time.src = s.get
      F.TIME_CTL_SRC ∧ s.time.jump = none ∧ s.time.corr = 0 ∧ s.time.incWait = none) ∧
    (∃ (s : State) (p ty : Nat), s.alive = true ∧ s.runs Pg.TIME = true ∧ s.isCell = false ∧ p < 2 ∧ ty < 4 ∧
      (s.tsQueue p).length < 16) ∧
    (∃ (s : State) (p ty : Nat), s.alive = true ∧ s.runs Pg.TIME = true ∧ s.isCell = false ∧ p < 2 ∧ ty < 4 ∧ 16 ≤
      (s.tsQueue p).length) ∧
    (∃ (s : State) (path : Path) (p : Nat) (e : TsEntry) (q : List TsEntry), s.Reaches path Pg.TIME ∧
      s.clk.gating.contains Pg.TIME = false ∧ s.isCell = false ∧ p < 2 ∧ s.tsQueue p = e :: q) ∧
    (∃ (s : State), s.alive = true ∧ s.isHub = true ∧ s.runs Pg.TIME = true ∧ s.time.src = 2 ∧ s.is
      (F.LANE_STAT_BONDED 4) = true) ∧
    (∃ (s : State) (ofs : Int), s.alive = true ∧ s.isHub = true ∧ s.runs Pg.TIME = true ∧ s.time.src = 2 ∧ s.is
      (F.LANE_STAT_BONDED 4) = true ∧ (64 < ofs.natAbs ∨ 255 ≤ s.time.twinGood)) ∧
    (∃ (s : State), s.alive = true ∧ s.runs Pg.TIME = true ∧ s.isCell = true ∧ s.time.hold = []) :=
  ⟨met_TimeUnit_1, met_TimeUnit_2, met_TimeUnit_4, met_TimeUnit_5, met_TimeUnit_6, met_TimeUnit_7, met_TimeUnit_8,
    met_TimeUnit_9, met_TimeUnit_10, met_TimeUnit_11, met_TimeUnit_12, met_TimeUnit_13, met_TimeUnit_14,
    met_TimeUnit_15⟩

theorem met_UpstreamBursts_1 :
    ∃ (s : State) (p slot : Nat) (sf co : Bool) (bs : List Byte), s.portHears p = true ∧ slot < 264 ∧ slot <
      s.zoneSlot p ∧ s.burstCheck p slot (s.roundNow p) sf co bs = .ok ∧ (s.berth (256 * p + (nth bs 0
      0).toNat)).link ≠ .absent :=
  ⟨burstHub, 3, 32, true, true, goodBurst, by decide +kernel⟩

theorem met_UpstreamBursts_2 :
    ∃ (s : State) (p slot : Nat) (sf co : Bool) (bs : List Byte) (b : Nat), s.portHears p = true ∧ slot < 264 ∧ slot
      < s.zoneSlot p ∧ s.burstCheck p slot (s.roundNow p) sf co bs = .crc ∧ s.slotOwner p slot (s.roundNow p) = some
      b :=
  ⟨burstHub, 3, 32, true, true, [], 4, by decide +kernel⟩

theorem met_UpstreamBursts_3 :
    ∃ (s : State) (p b : Nat) (pl : List Byte) (r : MgmtRec), s.portHears p = true ∧ b < 256 ∧ ((s.port
      p).opens.find? fun x => x.tid == (nth pl 1 0).toNat && x.berth == b && x.rtype + 0x80 == (nth pl 0 0).toNat) =
      some r ∧ r.src = .mailbox ∧ r.rtype = 2 :=
  ⟨{ hearHub with ports := [{}, {}, {}, { mailbox := true, opens := [{ berth := 9, rtype := 2, tid := 5, marks := 0, body := [], src := .mailbox }] }] },
    3, 9, [0x82, 5, 0, 0], { berth := 9, rtype := 2, tid := 5, marks := 0, body := [], src := .mailbox },
    by decide +kernel⟩

theorem met_UpstreamBursts_4 :
    ∃ (s : State) (p b : Nat) (pl : List Byte), s.portHears p = true ∧ b < 256 ∧ ((s.port p).opens.find? fun x =>
      x.tid == (nth pl 1 0).toNat && x.berth == b && x.rtype + 0x80 == (nth pl 0 0).toNat) = none :=
  ⟨hearHub, 3, 255, [], by decide +kernel⟩

theorem met_UpstreamBursts_5 :
    ∃ (s : State) (p : Nat), s.Settled ∧ s.berthOn p = true :=
  ⟨hub [0x1B, 0x1C], 3, by decide +kernel⟩

theorem met_UpstreamBursts_6 :
    ∃ (s : State) (p : Nat) (sf co : Bool) (bs : List Byte) (arr i : Nat), s.portHears p = true ∧ roundAt (s.rate p)
      arr % 2 = 0 ∧ s.zoneCheck p (roundAt (s.rate p) arr) sf co bs = .ok ∧ (s.berthsWith fun _ b => b.assign != 0
      && b.keyid == idOfBytes ((bs.drop 4).take 24)) = [i] ∧ i / 256 = p ∧ (s.berth i).admission = none ∧ (s.berth
      i).link = .absent ∧ (s.berth i).rsv = true ∧ s.slotAllowed p (s.berth i).rslot = true ∧ s.sameMajor (ofBe
      ((bs.drop 20).take 2)) = true ∧ (s.portBerths p fun b => b.admission.isSome) = [] :=
  ⟨zoneHub { assign := 1, rsv := true }, 3, true, true, zoneBurst 0 3 (List.replicate 24 0), 0, 770,
    by decide +kernel⟩

theorem met_UpstreamBursts_7 :
    ∃ (s : State) (p : Nat) (sf co : Bool) (bs : List Byte) (arr : Nat), s.portHears p = true ∧ roundAt (s.rate p)
      arr % 2 = 0 ∧ s.zoneCheck p (roundAt (s.rate p) arr) sf co bs = .ok ∧ (s.berthsWith fun _ b => b.assign != 0
      && b.keyid == idOfBytes ((bs.drop 4).take 24)) = [] ∧ s.windowOpen p = false :=
  ⟨withF F.BERTH_BOARD_AUTO 1 (withF F.BERTH_BOARD_OPEN 0 (zoneHub { assign := 1, rsv := true })), 3, true, true,
    zoneBurst 0 3 (1 :: List.replicate 23 0), 0, by decide +kernel⟩

theorem met_UpstreamBursts_8 :
    ∃ (s : State) (p : Nat) (sf co : Bool) (bs : List Byte) (arr : Nat) (a : Admission), s.portHears p = true ∧
      roundAt (s.rate p) arr % 2 = 1 ∧ s.zoneCheck p (roundAt (s.rate p) arr) sf co bs = .ok ∧ (s.berth (256 * p +
      (nth bs 0 0).toNat)).admission = some a ∧ (s.berth (256 * p + (nth bs 0 0).toNat)).link = .offered ∧ idOfBytes
      ((bs.drop 4).take 24) = (s.berth (256 * p + (nth bs 0 0).toNat)).keyid ∧ ofBe ((bs.drop 12).take 4) = a.cycleR
      % 2 ^ 32 ∧ roundAt (s.rate p) arr = a.roundR :=
  ⟨zoneHub { link := .offered, admission := some { adm 1 with roundR := 1 } }, 3, true, true, zoneBurst 2 4
    (List.replicate 24 0), groupAt (hearHub.rate 3) 1 5, { adm 1 with roundR := 1 }, by decide +kernel⟩

theorem met_UpstreamBursts_9 :
    ∃ (s : State) (p b : Nat) (a : Admission), s.berthOn p = true ∧ b < 256 ∧ (s.berth (256 * p + b)).admission =
      some a ∧ (s.berth (256 * p + b)).link = .offered ∧ max 1 (s.get F.BERTH_CFG_RTRY) ≤ a.offers :=
  ⟨{ hub [0x1B, 0x1C] with berths := [(770, { link := .offered, admission := some (adm 15) })] }, 3, 2, adm 15,
    by decide +kernel⟩

theorem met_UpstreamBursts_10 :
    ∃ (s : State) (p b : Nat) (a : Admission), s.berthOn p = true ∧ b < 256 ∧ (s.berth (256 * p + b)).admission =
      some a ∧ (s.berth (256 * p + b)).link = .offered ∧ a.offers < s.get F.BERTH_CFG_RTRY :=
  ⟨{ hub [0x1B, 0x1C] with berths := [(770, { link := .offered, admission := some (adm 0) })] }, 3, 2, adm 0,
    by decide +kernel⟩

theorem met_UpstreamBursts_11 :
    ∃ (s : State) (path : Path) (p : Nat), s.Reaches path Pg.BERTH ∧ p < 4 ∧ s.guardFor path Pg.BERTH = true ∧
      s.isHub = true :=
  ⟨{ hub [0x1C] with sec := { presOpen := true } }, .supervisor, 3, by decide +kernel⟩

theorem met_UpstreamBursts_12 :
    ∃ (s : State) (path : Path) (p : Nat), s.Reaches path Pg.BERTH ∧ p < 4 ∧ s.isHub = true :=
  ⟨withF ⟨R.BERTH_BOARD, 3, 1⟩ 1 (hub [0x1C]), .supervisor, 3, by decide +kernel⟩

theorem met_UpstreamBursts_13 :
    ∃ (s : State) (p : Nat), s.alive = true ∧ s.isHub = true ∧ p < 4 ∧ s.windowOpen p = true :=
  ⟨withF ⟨R.BERTH_BOARD, 3, 1⟩ 1 (hub [0x1C]), 3, by decide +kernel⟩

theorem witness_UpstreamBursts :
    (∃ (s : State) (p slot : Nat) (sf co : Bool) (bs : List Byte), s.portHears p = true ∧ slot < 264 ∧ slot <
      s.zoneSlot p ∧ s.burstCheck p slot (s.roundNow p) sf co bs = .ok ∧ (s.berth (256 * p + (nth bs 0
      0).toNat)).link ≠ .absent) ∧
    (∃ (s : State) (p slot : Nat) (sf co : Bool) (bs : List Byte) (b : Nat), s.portHears p = true ∧ slot < 264 ∧
      slot < s.zoneSlot p ∧ s.burstCheck p slot (s.roundNow p) sf co bs = .crc ∧ s.slotOwner p slot (s.roundNow p) =
      some b) ∧
    (∃ (s : State) (p b : Nat) (pl : List Byte) (r : MgmtRec), s.portHears p = true ∧ b < 256 ∧ ((s.port
      p).opens.find? fun x => x.tid == (nth pl 1 0).toNat && x.berth == b && x.rtype + 0x80 == (nth pl 0 0).toNat) =
      some r ∧ r.src = .mailbox ∧ r.rtype = 2) ∧
    (∃ (s : State) (p b : Nat) (pl : List Byte), s.portHears p = true ∧ b < 256 ∧ ((s.port p).opens.find? fun x =>
      x.tid == (nth pl 1 0).toNat && x.berth == b && x.rtype + 0x80 == (nth pl 0 0).toNat) = none) ∧
    (∃ (s : State) (p : Nat), s.Settled ∧ s.berthOn p = true) ∧
    (∃ (s : State) (p : Nat) (sf co : Bool) (bs : List Byte) (arr i : Nat), s.portHears p = true ∧ roundAt (s.rate
      p) arr % 2 = 0 ∧ s.zoneCheck p (roundAt (s.rate p) arr) sf co bs = .ok ∧ (s.berthsWith fun _ b => b.assign !=
      0 && b.keyid == idOfBytes ((bs.drop 4).take 24)) = [i] ∧ i / 256 = p ∧ (s.berth i).admission = none ∧ (s.berth
      i).link = .absent ∧ (s.berth i).rsv = true ∧ s.slotAllowed p (s.berth i).rslot = true ∧ s.sameMajor (ofBe
      ((bs.drop 20).take 2)) = true ∧ (s.portBerths p fun b => b.admission.isSome) = []) ∧
    (∃ (s : State) (p : Nat) (sf co : Bool) (bs : List Byte) (arr : Nat), s.portHears p = true ∧ roundAt (s.rate p)
      arr % 2 = 0 ∧ s.zoneCheck p (roundAt (s.rate p) arr) sf co bs = .ok ∧ (s.berthsWith fun _ b => b.assign != 0
      && b.keyid == idOfBytes ((bs.drop 4).take 24)) = [] ∧ s.windowOpen p = false) ∧
    (∃ (s : State) (p : Nat) (sf co : Bool) (bs : List Byte) (arr : Nat) (a : Admission), s.portHears p = true ∧
      roundAt (s.rate p) arr % 2 = 1 ∧ s.zoneCheck p (roundAt (s.rate p) arr) sf co bs = .ok ∧ (s.berth (256 * p +
      (nth bs 0 0).toNat)).admission = some a ∧ (s.berth (256 * p + (nth bs 0 0).toNat)).link = .offered ∧ idOfBytes
      ((bs.drop 4).take 24) = (s.berth (256 * p + (nth bs 0 0).toNat)).keyid ∧ ofBe ((bs.drop 12).take 4) = a.cycleR
      % 2 ^ 32 ∧ roundAt (s.rate p) arr = a.roundR) ∧
    (∃ (s : State) (p b : Nat) (a : Admission), s.berthOn p = true ∧ b < 256 ∧ (s.berth (256 * p + b)).admission =
      some a ∧ (s.berth (256 * p + b)).link = .offered ∧ max 1 (s.get F.BERTH_CFG_RTRY) ≤ a.offers) ∧
    (∃ (s : State) (p b : Nat) (a : Admission), s.berthOn p = true ∧ b < 256 ∧ (s.berth (256 * p + b)).admission =
      some a ∧ (s.berth (256 * p + b)).link = .offered ∧ a.offers < s.get F.BERTH_CFG_RTRY) ∧
    (∃ (s : State) (path : Path) (p : Nat), s.Reaches path Pg.BERTH ∧ p < 4 ∧ s.guardFor path Pg.BERTH = true ∧
      s.isHub = true) ∧
    (∃ (s : State) (path : Path) (p : Nat), s.Reaches path Pg.BERTH ∧ p < 4 ∧ s.isHub = true) ∧
    (∃ (s : State) (p : Nat), s.alive = true ∧ s.isHub = true ∧ p < 4 ∧ s.windowOpen p = true) :=
  ⟨met_UpstreamBursts_1, met_UpstreamBursts_2, met_UpstreamBursts_3, met_UpstreamBursts_4, met_UpstreamBursts_5,
    met_UpstreamBursts_6, met_UpstreamBursts_7, met_UpstreamBursts_8, met_UpstreamBursts_9, met_UpstreamBursts_10,
    met_UpstreamBursts_11, met_UpstreamBursts_12, met_UpstreamBursts_13⟩

theorem met_BerthTable_1 :
    ∃ (s : State) (path : Path) (w : Nat), s.Reaches path Pg.BERTH ∧ s.isHub = true ∧ w < 16 :=
  ⟨{ hub [0x1C] with berths := [(0, { assign := 1, rslot := 255 })] }, .supervisor, 15, by decide +kernel⟩

theorem met_BerthTable_2 :
    ∃ (s : State) (path : Path), s.Reaches path Pg.BERTH ∧ s.isHub = true :=
  ⟨{ hub [0x1C] with berths := [(0, { crc := 1 })] }, .supervisor, by decide +kernel⟩

theorem met_BerthTable_3 :
    ∃ (s : State) (path : Path), s.Reaches path Pg.BERTH ∧ s.isHub = true ∧ s.guardFor path Pg.BERTH = true ∧
      (s.berth (s.get F.BERTH_SEL_INDEX)).link = .absent ∧ (s.berth (s.get F.BERTH_SEL_INDEX)).assign = 1 ∧ (s.berth
      (s.get F.BERTH_SEL_INDEX)).rsv = false ∧ (s.berth (s.get F.BERTH_SEL_INDEX)).rslot = 0 ∧ s.reg (R.BERTH_E 0) =
      1 :=
  ⟨{ withF ⟨R.BERTH_E 0, 0, 2⟩ 1 (hub [0x1C]) with berths := [(0, { assign := 1 })], sec := { presOpen := true } },
    .supervisor, by decide +kernel⟩

theorem met_BerthTable_4 :
    ∃ (s : State) (p n : Nat), s.portRx p = true ∧ (List.range 4).filter s.portRx = [p] ∧ n = s.nextRound p ((s.reg
      (R.TREE_ROUND_LO p)).toNat + 2 ^ 32 * s.get (F.TREE_ROUND_HI_ROUND p)) :=
  ⟨hub [0x1B, 0x1C], 3, 1, by decide +kernel⟩

theorem met_BerthTable_5 :
    ∃ (s : State) (u : Nat), s.alive = true ∧ s.isCell = true ∧ (List.range 2).filter s.pathOn = [u] :=
  ⟨cell [0x19], 1, by decide +kernel⟩

theorem met_BerthTable_6 :
    ∃ (s : State) (path : Path) (p : Nat), s.Reaches path Pg.BERTH ∧ s.berthOn p = true ∧ (s.port p).search = none :=
  ⟨hub [0x1B, 0x1C], .supervisor, 3, by decide +kernel⟩

theorem met_BerthTable_7 :
    ∃ (s : State) (p : Nat), s.berthOn p = true ∧ s.is F.BERTH_CFG_AUTO = true ∧ (s.port p).search = none ∧ max 1
      (s.get F.BERTH_CFG_LTHR) ≤ (s.port p).lightRun :=
  ⟨{ withF F.BERTH_CFG_AUTO 1 (hub [0x1B, 0x1C]) with ports := [{}, {}, {}, { lightRun := 255 }] }, 3,
    by decide +kernel⟩

theorem met_BerthTable_8 :
    ∃ (s : State) (p : Nat) (x : Search), s.berthOn p = true ∧ (s.port p).search = some x ∧ x.check = false :=
  ⟨{ hub [0x1B, 0x1C] with ports := [{}, {}, {}, { search := some { s := [1, 2], s0 := [1, 2], k := [1], check := false } }] },
    3, { s := [1, 2], s0 := [1, 2], k := [1], check := false }, by decide +kernel⟩

theorem met_BerthTable_9 :
    ∃ (s : State) (p : Nat) (x : Search) (b : Nat) (l : List Nat), s.berthOn p = true ∧ (s.port p).search = some x ∧
      x.check = true ∧ x.light = true ∧ x.s = b :: l ∧ b < 256 :=
  ⟨{ hub [0x1B, 0x1C] with ports := [{}, {}, {}, { search := some { s := [1], s0 := [1, 2], k := [1], check := true, light := true } }] },
    3, { s := [1], s0 := [1, 2], k := [1], check := true, light := true }, 1, [], by decide +kernel⟩

theorem met_BerthTable_10 :
    ∃ (s : State) (p : Nat), s.portRx p = true ∧ s.groupDue p = true :=
  ⟨{ hub [0x1B] with ports := [{}, {}, {}, { group := some 5 }], time := { lastK := some (2 ^ 40) } }, 3,
    by decide +kernel⟩

theorem met_BerthTable_11 :
    ∃ (s : State) (i : Nat), s.portRx (i / 256) = true ∧ s.sessionDue i = true ∧ s.mgmtRoom (i / 256) = true :=
  ⟨{ hub [0x1B] with berths := [(1023, { link := .silent })], now := 2 ^ 100 }, 1023, by decide +kernel⟩

theorem met_BerthTable_12 :
    ∃ (s : State) (p tid : Nat) (r : MgmtRec), s.portRx p = true ∧ ((s.port p).opens.find? fun x => x.tid == tid) =
      some r ∧ r.src = .mailbox :=
  ⟨{ hub [0x1B] with ports := [{}, {}, {}, { mailbox := true, opens := [{ berth := 9, rtype := 2, tid := 5, marks := 0, body := [], src := .mailbox }] }] },
    3, 5, { berth := 9, rtype := 2, tid := 5, marks := 0, body := [], src := .mailbox }, by decide +kernel⟩

theorem met_BerthTable_13 :
    ∃ (s : State) (path : Path) (p : Nat) (data : Word), s.Reaches path (Pg.TREE p) ∧ s.isHub = true ∧ p < 4 ∧
      (s.port p).mailbox = false ∧ s.mgmtRoom p = true ∧ getBits data 8 3 = 2 ∧ held (s.berth (256 * p + getBits
      data 0 8)) = true :=
  ⟨{ hub [0x1B] with berths := [(769, { link := .admitted })] }, .supervisor, 3, 0x201, by decide +kernel⟩

theorem witness_BerthTable :
    (∃ (s : State) (path : Path) (w : Nat), s.Reaches path Pg.BERTH ∧ s.isHub = true ∧ w < 16) ∧
    (∃ (s : State) (path : Path), s.Reaches path Pg.BERTH ∧ s.isHub = true) ∧
    (∃ (s : State) (path : Path), s.Reaches path Pg.BERTH ∧ s.isHub = true ∧ s.guardFor path Pg.BERTH = true ∧
      (s.berth (s.get F.BERTH_SEL_INDEX)).link = .absent ∧ (s.berth (s.get F.BERTH_SEL_INDEX)).assign = 1 ∧ (s.berth
      (s.get F.BERTH_SEL_INDEX)).rsv = false ∧ (s.berth (s.get F.BERTH_SEL_INDEX)).rslot = 0 ∧ s.reg (R.BERTH_E 0) =
      1) ∧
    (∃ (s : State) (p n : Nat), s.portRx p = true ∧ (List.range 4).filter s.portRx = [p] ∧ n = s.nextRound p ((s.reg
      (R.TREE_ROUND_LO p)).toNat + 2 ^ 32 * s.get (F.TREE_ROUND_HI_ROUND p))) ∧
    (∃ (s : State) (u : Nat), s.alive = true ∧ s.isCell = true ∧ (List.range 2).filter s.pathOn = [u]) ∧
    (∃ (s : State) (path : Path) (p : Nat), s.Reaches path Pg.BERTH ∧ s.berthOn p = true ∧ (s.port p).search = none) ∧
    (∃ (s : State) (p : Nat), s.berthOn p = true ∧ s.is F.BERTH_CFG_AUTO = true ∧ (s.port p).search = none ∧ max 1
      (s.get F.BERTH_CFG_LTHR) ≤ (s.port p).lightRun) ∧
    (∃ (s : State) (p : Nat) (x : Search), s.berthOn p = true ∧ (s.port p).search = some x ∧ x.check = false) ∧
    (∃ (s : State) (p : Nat) (x : Search) (b : Nat) (l : List Nat), s.berthOn p = true ∧ (s.port p).search = some x
      ∧ x.check = true ∧ x.light = true ∧ x.s = b :: l ∧ b < 256) ∧
    (∃ (s : State) (p : Nat), s.portRx p = true ∧ s.groupDue p = true) ∧
    (∃ (s : State) (i : Nat), s.portRx (i / 256) = true ∧ s.sessionDue i = true ∧ s.mgmtRoom (i / 256) = true) ∧
    (∃ (s : State) (p tid : Nat) (r : MgmtRec), s.portRx p = true ∧ ((s.port p).opens.find? fun x => x.tid == tid) =
      some r ∧ r.src = .mailbox) ∧
    (∃ (s : State) (path : Path) (p : Nat) (data : Word), s.Reaches path (Pg.TREE p) ∧ s.isHub = true ∧ p < 4 ∧
      (s.port p).mailbox = false ∧ s.mgmtRoom p = true ∧ getBits data 8 3 = 2 ∧ held (s.berth (256 * p + getBits
      data 0 8)) = true) :=
  ⟨met_BerthTable_1, met_BerthTable_2, met_BerthTable_3, met_BerthTable_4, met_BerthTable_5, met_BerthTable_6,
    met_BerthTable_7, met_BerthTable_8, met_BerthTable_9, met_BerthTable_10, met_BerthTable_11, met_BerthTable_12,
    met_BerthTable_13⟩

theorem met_CycleFrames_1 :
    ∃ (s : State) (u : Nat) (co : Bool) (bs : List Byte), s.frameOn u = true ∧ (co = false ∨ 1024 < bs.length) :=
  ⟨keyedCell, 1, false, [], by decide +kernel⟩

theorem met_CycleFrames_2 :
    ∃ (s : State) (u : Nat) (bs : List Byte), s.frameOn u = true ∧ bs.length ≤ 1024 ∧ parseFrame bs = none :=
  ⟨keyedCell, 0, [1], by decide +kernel⟩

theorem met_CycleFrames_3 :
    ∃ (s : State) (u : Nat) (bs : List Byte) (f : RxFrame) (b : Timebase), s.frameOn u = true ∧ bs.length ≤ 1024 ∧
      parseFrame bs = some f ∧ f.timebase = none ∧ ((s.uplink u).bases.find? fun c => c.tbg == f.tbg) = some b ∧
      (s.uplink u).port = some f.port ∧ f.crc ≠ crcBytes (f.hdr ++ f.tag) :=
  ⟨keyedCell, 0, goodFrame.take 122 ++ [0x5A], asFrame (goodFrame.take 122 ++ [0x5A]), ⟨0, 0, 100, 1⟩,
    by decide +kernel⟩

theorem met_CycleFrames_4 :
    ∃ (s : State) (u : Nat) (bs : List Byte) (f : RxFrame) (b : Timebase), s.frameOn u = true ∧ bs.length ≤ 1024 ∧
      parseFrame bs = some f ∧ f.timebase = none ∧ ((s.uplink u).bases.find? fun c => c.tbg == f.tbg) = some b ∧
      (s.uplink u).port = some f.port ∧ f.crc = crcBytes (f.hdr ++ f.tag) ∧ s.keyed u = true ∧ s.frameSide u f =
      none :=
  ⟨{ keyedCell with rx := { up := [{ port := some 0, group := some 4, bases := [⟨0, 0, 100, 1⟩] }, {}] } }, 0,
    goodFrame, asFrame goodFrame, ⟨0, 0, 100, 1⟩, by decide +kernel⟩

theorem met_CycleFrames_5 :
    ∃ (s : State) (u : Nat) (bs : List Byte) (f : RxFrame) (b : Timebase), s.frameOn u = true ∧ bs.length ≤ 1024 ∧
      parseFrame bs = some f ∧ f.timebase = none ∧ ((s.uplink u).bases.find? fun c => c.tbg == f.tbg) = some b ∧
      (s.uplink u).port = some f.port ∧ f.crc = crcBytes (f.hdr ++ f.tag) ∧ s.keyed u = true ∧ (s.frameSide u
      f).isSome = true ∧ f.flag 0 = true ∧ f.tt = [] ∧ f.skind = 0 ∧ f.body = [] ∧ 1 ≤ (f.watch + 65536 - s.get
      (F.TREE_CELL_STAT_W 0)) % 65536 ∧ (f.watch + 65536 - s.get (F.TREE_CELL_STAT_W 0)) % 65536 ≤ 32767 :=
  ⟨keyedCell, 0, goodFrame, asFrame goodFrame, ⟨0, 0, 100, 1⟩, by decide +kernel⟩

theorem met_CycleFrames_6 :
    ∃ (s : State) (u : Nat) (bs : List Byte) (f : RxFrame) (b : Timebase), s.frameOn u = true ∧ bs.length ≤ 1024 ∧
      parseFrame bs = some f ∧ f.timebase = none ∧ ((s.uplink u).bases.find? fun c => c.tbg == f.tbg) = some b ∧
      (s.uplink u).port = some f.port ∧ f.crc = crcBytes (f.hdr ++ f.tag) ∧ s.keyed u = true ∧ (s.frameSide u
      f).isSome = true ∧ f.flag 0 = true ∧ f.tt = [] ∧ f.skind = 0 ∧ f.body = [] ∧ (s.uplink u).fresh = false ∧
      32769 ≤ (f.watch + 65536 - s.get (F.TREE_CELL_STAT_W 0)) % 65536 :=
  ⟨withF (F.TREE_CELL_STAT_W 0) 4 keyedCell, 0, goodFrame, asFrame goodFrame, ⟨0, 0, 100, 1⟩, by decide +kernel⟩

theorem witness_CycleFrames :
    (∃ (s : State) (u : Nat) (co : Bool) (bs : List Byte), s.frameOn u = true ∧ (co = false ∨ 1024 < bs.length)) ∧
    (∃ (s : State) (u : Nat) (bs : List Byte), s.frameOn u = true ∧ bs.length ≤ 1024 ∧ parseFrame bs = none) ∧
    (∃ (s : State) (u : Nat) (bs : List Byte) (f : RxFrame) (b : Timebase), s.frameOn u = true ∧ bs.length ≤ 1024 ∧
      parseFrame bs = some f ∧ f.timebase = none ∧ ((s.uplink u).bases.find? fun c => c.tbg == f.tbg) = some b ∧
      (s.uplink u).port = some f.port ∧ f.crc ≠ crcBytes (f.hdr ++ f.tag)) ∧
    (∃ (s : State) (u : Nat) (bs : List Byte) (f : RxFrame) (b : Timebase), s.frameOn u = true ∧ bs.length ≤ 1024 ∧
      parseFrame bs = some f ∧ f.timebase = none ∧ ((s.uplink u).bases.find? fun c => c.tbg == f.tbg) = some b ∧
      (s.uplink u).port = some f.port ∧ f.crc = crcBytes (f.hdr ++ f.tag) ∧ s.keyed u = true ∧ s.frameSide u f =
      none) ∧
    (∃ (s : State) (u : Nat) (bs : List Byte) (f : RxFrame) (b : Timebase), s.frameOn u = true ∧ bs.length ≤ 1024 ∧
      parseFrame bs = some f ∧ f.timebase = none ∧ ((s.uplink u).bases.find? fun c => c.tbg == f.tbg) = some b ∧
      (s.uplink u).port = some f.port ∧ f.crc = crcBytes (f.hdr ++ f.tag) ∧ s.keyed u = true ∧ (s.frameSide u
      f).isSome = true ∧ f.flag 0 = true ∧ f.tt = [] ∧ f.skind = 0 ∧ f.body = [] ∧ 1 ≤ (f.watch + 65536 - s.get
      (F.TREE_CELL_STAT_W 0)) % 65536 ∧ (f.watch + 65536 - s.get (F.TREE_CELL_STAT_W 0)) % 65536 ≤ 32767) ∧
    (∃ (s : State) (u : Nat) (bs : List Byte) (f : RxFrame) (b : Timebase), s.frameOn u = true ∧ bs.length ≤ 1024 ∧
      parseFrame bs = some f ∧ f.timebase = none ∧ ((s.uplink u).bases.find? fun c => c.tbg == f.tbg) = some b ∧
      (s.uplink u).port = some f.port ∧ f.crc = crcBytes (f.hdr ++ f.tag) ∧ s.keyed u = true ∧ (s.frameSide u
      f).isSome = true ∧ f.flag 0 = true ∧ f.tt = [] ∧ f.skind = 0 ∧ f.body = [] ∧ (s.uplink u).fresh = false ∧
      32769 ≤ (f.watch + 65536 - s.get (F.TREE_CELL_STAT_W 0)) % 65536) :=
  ⟨met_CycleFrames_1, met_CycleFrames_2, met_CycleFrames_3, met_CycleFrames_4, met_CycleFrames_5, met_CycleFrames_6⟩

theorem met_CellManagement_1 :
    ∃ (s : State) (u b n : Nat), s.frameOn u = true ∧ s.keyed u = true ∧ s.ownBerth u b = true ∧ (s.uplink
      u).resps.length < 4 ∧ 1 ≤ n ∧ n ≤ 5 :=
  ⟨keyedCell, 0, 2, 5, by decide +kernel⟩

theorem met_CellManagement_2 :
    ∃ (s : State) (u b : Nat) (ws : List Word), s.frameOn u = true ∧ s.keyed u = true ∧ s.ownBerth u b = true ∧
      (s.uplink u).resps.length < 4 ∧ 1 ≤ ws.length ∧ ws.length ≤ 16 :=
  ⟨keyedCell, 0, 2, [5], by decide +kernel⟩

theorem met_CellManagement_3 :
    ∃ (s : State) (u b : Nat), s.frameOn u = true ∧ s.keyed u = true ∧ s.ownBerth u b = true ∧ (s.uplink
      u).resps.length < 4 :=
  ⟨keyedCell, 0, 2, by decide +kernel⟩

theorem met_CellManagement_4 :
    ∃ (s : State) (u : Nat) (pr sm : Bool), s.frameOn u = true ∧ s.keyed u = true ∧ s.Reaches (.remote pr sm)
      (R.CLK_SPDLIM / 1024) :=
  ⟨keyedCell, 0, false, false, by decide +kernel⟩

theorem met_CellManagement_5 :
    ∃ (s : State) (u b n : Nat), s.frameOn u = true ∧ s.keyed u = true ∧ s.ownBerth u b = true ∧ 4 ≤ (s.uplink
      u).resps.length ∧ 1 ≤ n ∧ n ≤ 5 :=
  ⟨{ keyedCell with rx := { up := [{ berth := some 2, group := some 5, resps := List.replicate 4 ⟨1, 0, 0, 0, [], false⟩ }, {}] } },
    0, 2, 1, by decide +kernel⟩

theorem met_CellManagement_6 :
    ∃ (s : State) (u b : Nat) (bd : List Byte) (k g : Key), s.frameOn u = true ∧ bd.length = 32 ∧ s.ownBerth u b =
      true ∧ (s.uplink u).resps.length < 4 ∧ (s.uplink u).group = none ∧ (s.uplink u).pendKeys = none ∧ (s.uplink
      u).wrap = some k ∧ keyUnwrap k (bd.take 24) = some g :=
  ⟨{ keyedCell with rx := { up := [{ berth := some 2, wrap := some 7 }, {}] } }, 0, 2, keyWrap 7 0x1234 ++
    List.replicate 8 0, 7, 0x1234, by decide +kernel⟩

theorem met_CellManagement_7 :
    ∃ (s : State) (u b : Nat), s.frameOn u = true ∧ s.ownBerth u b = true ∧ (s.uplink u).resps.length < 4 :=
  ⟨keyedCell, 0, 2, by decide +kernel⟩

theorem met_CellManagement_8 :
    ∃ (s : State) (u : Nat) (bd : List Byte), s.frameOn u = true ∧ bd.length = 20 :=
  ⟨keyedCell, 0, List.replicate 20 1, by decide +kernel⟩

theorem witness_CellManagement :
    (∃ (s : State) (u b n : Nat), s.frameOn u = true ∧ s.keyed u = true ∧ s.ownBerth u b = true ∧ (s.uplink
      u).resps.length < 4 ∧ 1 ≤ n ∧ n ≤ 5) ∧
    (∃ (s : State) (u b : Nat) (ws : List Word), s.frameOn u = true ∧ s.keyed u = true ∧ s.ownBerth u b = true ∧
      (s.uplink u).resps.length < 4 ∧ 1 ≤ ws.length ∧ ws.length ≤ 16) ∧
    (∃ (s : State) (u b : Nat), s.frameOn u = true ∧ s.keyed u = true ∧ s.ownBerth u b = true ∧ (s.uplink
      u).resps.length < 4) ∧
    (∃ (s : State) (u : Nat) (pr sm : Bool), s.frameOn u = true ∧ s.keyed u = true ∧ s.Reaches (.remote pr sm)
      (R.CLK_SPDLIM / 1024)) ∧
    (∃ (s : State) (u b n : Nat), s.frameOn u = true ∧ s.keyed u = true ∧ s.ownBerth u b = true ∧ 4 ≤ (s.uplink
      u).resps.length ∧ 1 ≤ n ∧ n ≤ 5) ∧
    (∃ (s : State) (u b : Nat) (bd : List Byte) (k g : Key), s.frameOn u = true ∧ bd.length = 32 ∧ s.ownBerth u b =
      true ∧ (s.uplink u).resps.length < 4 ∧ (s.uplink u).group = none ∧ (s.uplink u).pendKeys = none ∧ (s.uplink
      u).wrap = some k ∧ keyUnwrap k (bd.take 24) = some g) ∧
    (∃ (s : State) (u b : Nat), s.frameOn u = true ∧ s.ownBerth u b = true ∧ (s.uplink u).resps.length < 4) ∧
    (∃ (s : State) (u : Nat) (bd : List Byte), s.frameOn u = true ∧ bd.length = 20) :=
  ⟨met_CellManagement_1, met_CellManagement_2, met_CellManagement_3, met_CellManagement_4, met_CellManagement_5,
    met_CellManagement_6, met_CellManagement_7, met_CellManagement_8⟩

theorem met_CellAdmission_1 :
    ∃ (s : State) (u : Nat) (bd : List Byte), s.frameOn u = true ∧ bd.length = 24 :=
  ⟨keyedCell, 1, List.replicate 24 255, by decide +kernel⟩

theorem met_CellAdmission_2 :
    ∃ (s : State) (u : Nat) (bd : List Byte), s.frameOn u = true ∧ bd.length = 24 ∧ idOfBytes bd = s.devId ∧ s.keyed
      u = false ∧ (s.uplink u).offer = none :=
  ⟨cell [0x18], 0, List.replicate 8 0 ++ List.replicate 16 7, by decide +kernel⟩

theorem met_CellAdmission_3 :
    ∃ (s : State) (u b : Nat) (bd : List Byte) (o : Offer), s.frameOn u = true ∧ bd.length = 204 ∧ s.keyed u = false
      ∧ (s.uplink u).offer = some o ∧ (s.uplink u).waiting < 4 ∧ o.berth = b ∧ o.enrol = true ∧ kxSound (bd.take
      192) (kxEph (bd.take 192)) = true :=
  ⟨offeredCell, 0, 2, soundKxh, ⟨2, true, 4, 64, some 4096⟩, by decide +kernel⟩

theorem met_CellAdmission_4 :
    ∃ (s : State) (u b : Nat) (bd : List Byte) (o : Offer), s.frameOn u = true ∧ bd.length = 204 ∧ s.keyed u = false
      ∧ (s.uplink u).offer = some o ∧ (s.uplink u).waiting < 4 ∧ o.berth = b ∧ kxSound (bd.take 192) (kxEph (bd.take
      192)) = false :=
  ⟨offeredCell, 0, 2, List.replicate 204 0, ⟨2, true, 4, 64, some 4096⟩, by decide +kernel⟩

theorem met_CellAdmission_5 :
    ∃ (s : State) (u : Nat) (bd : List Byte), s.frameOn u = true ∧ bd.length = 12 ∧ idOfBytes bd = s.devId ∧ (nth bd
      8 0).toNat = 1 :=
  ⟨cell [0x18], 0, [0, 0, 0, 0, 0, 0, 0, 0, 1, 0, 0, 0], by decide +kernel⟩

theorem met_CellAdmission_6 :
    ∃ (s : State) (u : Nat) (bd : List Byte), s.frameOn u = true ∧ bd.length = 12 ∧ idOfBytes bd = s.devId ∧ (nth bd
      8 0).toNat ≠ 1 :=
  ⟨cell [0x18], 0, List.replicate 12 0, by decide +kernel⟩

theorem met_CellAdmission_7 :
    ∃ (s : State) (u n x : Nat), s.mayBoard u = true ∧ nextBy (s.boardingLaunch u) s.now 4 (s.roundNow u) = some (n,
      x) :=
  ⟨boardingCell, 0, ((nextBy (boardingCell.boardingLaunch 0) 0 4 (boardingCell.roundNow 0)).getD (0, 0)).1, ((nextBy
    (boardingCell.boardingLaunch 0) 0 4 (boardingCell.roundNow 0)).getD (0, 0)).2, by decide +kernel⟩

theorem met_CellAdmission_8 :
    ∃ (s : State) (u w : Nat), s.pathOn u = true ∧ (s.uplink u).offer = none ∧ (s.uplink u).waitRounds = some w ∧ 3
      ≤ w ∧ (s.uplink u).boarding = true :=
  ⟨{ boardingCell with rx := { up := [{ boarding := true, waitRounds := some 3, attempt := 255 }, {}] } }, 0, 3,
    by decide +kernel⟩

theorem met_CellAdmission_9 :
    ∃ (s : State) (u : Nat) (o : Offer) (f : Nat), s.pathOn u = true ∧ s.laserOn u = true ∧ (s.uplink u).boarding =
      true ∧ (s.uplink u).offer = some o ∧ o.soF = some f :=
  ⟨{ litLane (offeredCell) with rx := { up := [{ boarding := true, berth := some 2, offer := some ⟨2, true, 4, 64, some 4096⟩ }, {}] } },
    0, ⟨2, true, 4, 64, some 4096⟩, 4096, by decide +kernel⟩

theorem met_CellAdmission_10 :
    ∃ (s : State) (u : Nat) (bd : List Byte) (b : Nat), s.frameOn u = true ∧ s.keyed u = true ∧ bd.length = 32 ∧
      (s.uplink u).berth = some b ∧ bitOf (nth bd (b / 8) 0).toNat (b % 8) = true :=
  ⟨withF (F.TREE_CELL_SLOT_KILLED 0) 1 keyedCell, 0, 4 :: List.replicate 31 0, 2, by decide +kernel⟩

theorem met_CellAdmission_11 :
    ∃ (s : State) (u : Nat), s.pathOn u = true ∧ s.keyed u = true ∧ 2 ≤ (s.uplink u).badRounds :=
  ⟨{ keyedCell with rx := { up := [{ group := some 5, badRounds := 2 }, {}] } }, 0, by decide +kernel⟩

theorem witness_CellAdmission :
    (∃ (s : State) (u : Nat) (bd : List Byte), s.frameOn u = true ∧ bd.length = 24) ∧
    (∃ (s : State) (u : Nat) (bd : List Byte), s.frameOn u = true ∧ bd.length = 24 ∧ idOfBytes bd = s.devId ∧
      s.keyed u = false ∧ (s.uplink u).offer = none) ∧
    (∃ (s : State) (u b : Nat) (bd : List Byte) (o : Offer), s.frameOn u = true ∧ bd.length = 204 ∧ s.keyed u =
      false ∧ (s.uplink u).offer = some o ∧ (s.uplink u).waiting < 4 ∧ o.berth = b ∧ o.enrol = true ∧ kxSound
      (bd.take 192) (kxEph (bd.take 192)) = true) ∧
    (∃ (s : State) (u b : Nat) (bd : List Byte) (o : Offer), s.frameOn u = true ∧ bd.length = 204 ∧ s.keyed u =
      false ∧ (s.uplink u).offer = some o ∧ (s.uplink u).waiting < 4 ∧ o.berth = b ∧ kxSound (bd.take 192) (kxEph
      (bd.take 192)) = false) ∧
    (∃ (s : State) (u : Nat) (bd : List Byte), s.frameOn u = true ∧ bd.length = 12 ∧ idOfBytes bd = s.devId ∧ (nth
      bd 8 0).toNat = 1) ∧
    (∃ (s : State) (u : Nat) (bd : List Byte), s.frameOn u = true ∧ bd.length = 12 ∧ idOfBytes bd = s.devId ∧ (nth
      bd 8 0).toNat ≠ 1) ∧
    (∃ (s : State) (u n x : Nat), s.mayBoard u = true ∧ nextBy (s.boardingLaunch u) s.now 4 (s.roundNow u) = some
      (n, x)) ∧
    (∃ (s : State) (u w : Nat), s.pathOn u = true ∧ (s.uplink u).offer = none ∧ (s.uplink u).waitRounds = some w ∧ 3
      ≤ w ∧ (s.uplink u).boarding = true) ∧
    (∃ (s : State) (u : Nat) (o : Offer) (f : Nat), s.pathOn u = true ∧ s.laserOn u = true ∧ (s.uplink u).boarding =
      true ∧ (s.uplink u).offer = some o ∧ o.soF = some f) ∧
    (∃ (s : State) (u : Nat) (bd : List Byte) (b : Nat), s.frameOn u = true ∧ s.keyed u = true ∧ bd.length = 32 ∧
      (s.uplink u).berth = some b ∧ bitOf (nth bd (b / 8) 0).toNat (b % 8) = true) ∧
    (∃ (s : State) (u : Nat), s.pathOn u = true ∧ s.keyed u = true ∧ 2 ≤ (s.uplink u).badRounds) :=
  ⟨met_CellAdmission_1, met_CellAdmission_2, met_CellAdmission_3, met_CellAdmission_4, met_CellAdmission_5,
    met_CellAdmission_6, met_CellAdmission_7, met_CellAdmission_8, met_CellAdmission_9, met_CellAdmission_10,
    met_CellAdmission_11⟩

theorem met_CellCycle_1 :
    ∃ (s : State), s.cellMeridians = true ∧ s.rx.obeyedK.contains (s.nextK - 1) = true :=
  ⟨{ cyclingCell 9 with rx := { (cyclingCell 9).rx with obeyedK := [9] } }, by decide +kernel⟩

theorem met_CellCycle_2 :
    ∃ (s : State), s.cellMeridians = true ∧ s.rx.obeyedK.contains (s.nextK - 1) = false ∧ s.rxState = 1 :=
  ⟨withF (F.TREE_CELL_STAT_STATE 0) 1 (cyclingCell 9), by decide +kernel⟩

theorem met_CellCycle_3 :
    ∃ (s : State), s.alive = true ∧ s.isCell = true ∧ s.rx.obeying = true :=
  ⟨cyclingCell 9, by decide +kernel⟩

theorem met_CellCycle_4 :
    ∃ (s : State) (n x : Nat), (s.pathOn 0 = true ∨ s.pathOn 1 = true) ∧ nextBy s.payloadAt s.now 4 s.roundFrom =
      some (n, x) :=
  ⟨slotCell, ((nextBy slotCell.payloadAt 0 4 slotCell.roundFrom).getD (0, 0)).1, ((nextBy slotCell.payloadAt 0 4
    slotCell.roundFrom).getD (0, 0)).2, by decide +kernel⟩

theorem met_CellCycle_5 :
    ∃ (s : State) (u n x : Nat), nextBy (s.reportLaunch u) s.now 4 (s.roundNow u) = some (n, x) ∧ s.pathOn u = true
      ∧ s.laserOn u = true ∧ (s.uplink u).session.isSome = true ∧ s.rx.payload.length = 24 :=
  ⟨{ slotCell with rx := { slotCell.rx with payload := List.replicate 24 3 } }, 0, ((nextBy (slotCell.reportLaunch
    0) 0 4 (slotCell.roundNow 0)).getD (0, 0)).1, ((nextBy (slotCell.reportLaunch 0) 0 4 (slotCell.roundNow 0)).getD
    (0, 0)).2, by decide +kernel⟩

theorem met_CellCycle_6 :
    ∃ (s : State) (u m n x : Nat) (r : MgmtResp) (l : List MgmtResp), s.nextGrant u = some (m, n, x) ∧ s.pathOn u =
      true ∧ s.laserOn u = true ∧ (s.uplink u).resps = r :: l ∧ (s.uplink u).sentCyc = 0 :=
  ⟨{ slotCell with rx := { up := [{ berth := some 2, session := some 6, grants := [(3, 5)], resps := [⟨1, 2, 3, 4, [], false⟩] }, {}] } },
    0, 3, 5, slotAt 2 5 (mgmtIdx 3), ⟨1, 2, 3, 4, [], false⟩, [], by decide +kernel⟩

theorem met_CellCycle_7 :
    ∃ (s : State) (u b sl rd : Nat), s.frameOn u = true ∧ s.ownBerth u b = true ∧ s.now + 1000 * unitsPerNs ≤ slotAt
      (s.rate u) (roundNamed (s.roundNow u) (rd % 256)) (mgmtIdx (sl % 8)) - s.dUp u :=
  ⟨keyedCell, 0, 2, 7, 3, by decide +kernel⟩

theorem met_CellCycle_8 :
    ∃ (s : State) (u b : Nat), s.frameOn u = true ∧ s.keyed u = true ∧ s.ownBerth u b = true :=
  ⟨keyedCell, 0, 2, by decide +kernel⟩

theorem met_CellCycle_9 :
    ∃ (s : State) (u b : Nat) (all : Bool), s.frameOn u = true ∧ s.keyed u = true ∧ (s.ownBerth u b = true ∨ all =
      true) ∧ s.is (F.TREE_CELL_SLOT_KILLED u) = false :=
  ⟨keyedCell, 0, 255, true, by decide +kernel⟩

theorem met_CellCycle_10 :
    ∃ (s : State) (u b : Nat), s.Settled ∧ s.ownBerth u b = false :=
  ⟨keyedCell, 0, 3, by decide +kernel⟩

theorem witness_CellCycle :
    (∃ (s : State), s.cellMeridians = true ∧ s.rx.obeyedK.contains (s.nextK - 1) = true) ∧
    (∃ (s : State), s.cellMeridians = true ∧ s.rx.obeyedK.contains (s.nextK - 1) = false ∧ s.rxState = 1) ∧
    (∃ (s : State), s.alive = true ∧ s.isCell = true ∧ s.rx.obeying = true) ∧
    (∃ (s : State) (n x : Nat), (s.pathOn 0 = true ∨ s.pathOn 1 = true) ∧ nextBy s.payloadAt s.now 4 s.roundFrom =
      some (n, x)) ∧
    (∃ (s : State) (u n x : Nat), nextBy (s.reportLaunch u) s.now 4 (s.roundNow u) = some (n, x) ∧ s.pathOn u = true
      ∧ s.laserOn u = true ∧ (s.uplink u).session.isSome = true ∧ s.rx.payload.length = 24) ∧
    (∃ (s : State) (u m n x : Nat) (r : MgmtResp) (l : List MgmtResp), s.nextGrant u = some (m, n, x) ∧ s.pathOn u =
      true ∧ s.laserOn u = true ∧ (s.uplink u).resps = r :: l ∧ (s.uplink u).sentCyc = 0) ∧
    (∃ (s : State) (u b sl rd : Nat), s.frameOn u = true ∧ s.ownBerth u b = true ∧ s.now + 1000 * unitsPerNs ≤
      slotAt (s.rate u) (roundNamed (s.roundNow u) (rd % 256)) (mgmtIdx (sl % 8)) - s.dUp u) ∧
    (∃ (s : State) (u b : Nat), s.frameOn u = true ∧ s.keyed u = true ∧ s.ownBerth u b = true) ∧
    (∃ (s : State) (u b : Nat) (all : Bool), s.frameOn u = true ∧ s.keyed u = true ∧ (s.ownBerth u b = true ∨ all =
      true) ∧ s.is (F.TREE_CELL_SLOT_KILLED u) = false) ∧
    (∃ (s : State) (u b : Nat), s.Settled ∧ s.ownBerth u b = false) :=
  ⟨met_CellCycle_1, met_CellCycle_2, met_CellCycle_3, met_CellCycle_4, met_CellCycle_5, met_CellCycle_6,
    met_CellCycle_7, met_CellCycle_8, met_CellCycle_9, met_CellCycle_10⟩

theorem met_GateEvents_1 :
    ∃ (s : State) (e : CellEvent) (l : List CellEvent) (a : EvAct), s.Settled ∧ s.gateLive = true ∧ s.rx.events = e
      :: l ∧ e.act = a ∧ a ≠ .byp ∧ a ≠ .blockCell ∧ a ≠ .insPos :=
  ⟨gateCell [evAt 900000000000000 .fireThy], evAt 900000000000000 .fireThy, [], .fireThy, by decide +kernel⟩

theorem met_GateEvents_2 :
    ∃ (s : State) (e : CellEvent) (l : List CellEvent), s.Settled ∧ s.gateLive = true ∧ s.rx.events = e :: l ∧ e.act
      = .insPos ∧ s.gate.blocked = false ∧ s.inStop = false ∧ s.gate.state = .bypass ∧ s.gate.legA = .lower ∧
      s.gate.lastAt = none ∧ l = [] ∧ s.gate.trimEnd = none ∧ s.cmod.edge = none ∧ s.is F.GATE_CFG_DTC = false :=
  ⟨gateCell [evAt 900000000000000 .insPos], evAt 900000000000000 .insPos, [], by decide +kernel⟩

theorem met_GateEvents_3 :
    ∃ (s : State) (e : CellEvent) (l : List CellEvent), s.Settled ∧ s.gateLive = true ∧ s.full = true ∧ s.rx.events
      = e :: l ∧ e.act = .insNeg ∧ s.gate.blocked = false ∧ s.inStop = false ∧ s.gate.state = .bypass ∧ s.gate.legA
      = .lower ∧ s.gate.legB = .lower ∧ s.gate.lastAt = none ∧ l = [] ∧ s.gate.trimEnd = none ∧ s.cmod.edge = none ∧
      s.is F.GATE_CFG_DTC = false :=
  ⟨{ withF F.GATE_CFG_TOPO 1 (gateCell [evAt 900000000000000 .insNeg]) with gate := { (gateCell []).gate with legB := .lower } },
    evAt 900000000000000 .insNeg, [], by decide +kernel⟩

theorem met_GateEvents_4 :
    ∃ (s : State) (e : CellEvent) (l : List CellEvent), s.Settled ∧ s.gateLive = true ∧ s.rx.events = e :: l ∧ e.act
      = .byp ∧ s.gate.blocked = false ∧ s.inStop = false ∧ s.gate.state = .pos ∧ s.full = false ∧ s.gate.legA =
      .upper ∧ s.gate.legB = .off ∧ s.gate.lastAt = none ∧ l = [] ∧ s.gate.trimEnd = none ∧ s.cmod.edge = none ∧
      s.is F.GATE_CFG_DTC = false :=
  ⟨(withF F.GATE_CFG_TOPO 0
    { gateCell [evAt 900000000000000 .byp] with gate := { (gateCell []).gate with state := .pos, legA := .upper } }).settle,
    evAt 900000000000000 .byp, [], by decide +kernel⟩

theorem met_GateEvents_5 :
    ∃ (s : State) (e : CellEvent) (l : List CellEvent) (d : CellState), s.Settled ∧ s.gateLive = true ∧ s.rx.events
      = e :: l ∧ e.act = .swap d ∧ d = .bypass ∧ s.gate.blocked = false ∧ s.inStop = false ∧ s.gate.state = .pos ∧
      s.full = false ∧ s.gate.legA = .upper ∧ s.gate.legB = .off ∧ s.gate.lastAt = none ∧ l = [] ∧ s.gate.trimEnd =
      none ∧ s.cmod.edge = none ∧ s.is F.GATE_CFG_DTC = false :=
  ⟨(withF F.GATE_CFG_TOPO 0
    { gateCell [evAt 900000000000000 (.swap .bypass)] with gate := { (gateCell []).gate with state := .pos, legA := .upper } }).settle,
    evAt 900000000000000 (.swap .bypass), [], .bypass, by decide +kernel⟩

theorem met_GateEvents_6 :
    ∃ (s : State) (e x : CellEvent), s.Settled ∧ s.gateLive = true ∧ s.rx.events = [e, x] ∧ e.act = .insPos ∧ x.act
      = .byp ∧ x.instant < e.instant + s.pulseMin ∧ s.gate.blocked = false ∧ s.inStop = false ∧ s.gate.state =
      .bypass ∧ s.gate.trimEnd = none ∧ s.cmod.edge = none :=
  ⟨gateCell [evAt 900000000000000 .insPos, evAt 900000000000001 .byp], evAt 900000000000000 .insPos, evAt
    900000000000001 .byp, by decide +kernel⟩

theorem met_GateEvents_7 :
    ∃ (s : State) (e : CellEvent) (l : List CellEvent), s.gateLive = true ∧ s.rx.events = e :: l ∧ e.act =
      .blockCell ∧ s.inStop = false :=
  ⟨gateCell [evAt 900000000000000 .blockCell], evAt 900000000000000 .blockCell, [], by decide +kernel⟩

theorem met_GateEvents_8 :
    ∃ (s : State) (e : CellEvent) (l : List CellEvent), s.gateLive = true ∧ s.rx.events = e :: l ∧ e.act =
      .blockCell ∧ s.inStop = false ∧ s.gate.blocked = false :=
  ⟨gateCell [evAt 900000000000000 .blockCell], evAt 900000000000000 .blockCell, [], by decide +kernel⟩

theorem met_GateEvents_9 :
    ∃ (s : State) (e : CellEvent) (l : List CellEvent) (on : CellState) (w : Nat), s.Settled ∧ s.gateLive = true ∧
      s.rx.events = e :: l ∧ e.act = .trim on w ∧ on = .pos ∧ s.pulseMin ≤ w ∧ s.gate.blocked = false ∧ s.inStop =
      false ∧ s.gate.state = .bypass ∧ s.gate.lastAt = none ∧ l = [] ∧ s.gate.trimEnd = none ∧ s.cmod.edge = none :=
  ⟨gateCell [evAt 900000000000000 (.trim .pos 90000000000000)], evAt 900000000000000 (.trim .pos 90000000000000),
    [], .pos, 90000000000000, by decide +kernel⟩

theorem met_GateEvents_10 :
    ∃ (s : State) (x : Nat) (st : CellState) (q : Nat), s.gateLive = true ∧ s.gate.trimEnd = some (x, st, q) :=
  ⟨({ gateCell [] with gate := { (gateCell []).gate with trimEnd := some (9, .bypass, 3) } }).settle, 9, .bypass, 3,
    by decide +kernel⟩

theorem met_GateEvents_11 :
    ∃ (s : State) (e : CellEvent) (l : List CellEvent), s.gateLive = true ∧ s.rx.events = e :: l ∧ e.act = .fireThy
      ∧ s.gate.pbyp = false ∧ s.inStop = false :=
  ⟨gateCell [evAt 3 .fireThy], evAt 3 .fireThy, [], by decide +kernel⟩

theorem met_GateEvents_12 :
    ∃ (s : State) (e : CellEvent) (l : List CellEvent), s.gateLive = true ∧ s.rx.events = e :: l ∧ e.act =
      .permBypass ∧ s.gate.pbyp = false ∧ s.inStop = false :=
  ⟨gateCell [evAt 3 .permBypass], evAt 3 .permBypass, [], by decide +kernel⟩

theorem met_GateEvents_13 :
    ∃ (s : State), s.Settled ∧ s.gateLive = true ∧ (s.gate.riseA.isSome = true ∨ s.gate.riseB.isSome = true) :=
  ⟨({ gateCell [] with gate := { (gateCell []).gate with state := .pos, legA := .off, riseA := some .upper } }).settle,
    by decide +kernel⟩

theorem witness_GateEvents :
    (∃ (s : State) (e : CellEvent) (l : List CellEvent) (a : EvAct), s.Settled ∧ s.gateLive = true ∧ s.rx.events = e
      :: l ∧ e.act = a ∧ a ≠ .byp ∧ a ≠ .blockCell ∧ a ≠ .insPos) ∧
    (∃ (s : State) (e : CellEvent) (l : List CellEvent), s.Settled ∧ s.gateLive = true ∧ s.rx.events = e :: l ∧
      e.act = .insPos ∧ s.gate.blocked = false ∧ s.inStop = false ∧ s.gate.state = .bypass ∧ s.gate.legA = .lower ∧
      s.gate.lastAt = none ∧ l = [] ∧ s.gate.trimEnd = none ∧ s.cmod.edge = none ∧ s.is F.GATE_CFG_DTC = false) ∧
    (∃ (s : State) (e : CellEvent) (l : List CellEvent), s.Settled ∧ s.gateLive = true ∧ s.full = true ∧ s.rx.events
      = e :: l ∧ e.act = .insNeg ∧ s.gate.blocked = false ∧ s.inStop = false ∧ s.gate.state = .bypass ∧ s.gate.legA
      = .lower ∧ s.gate.legB = .lower ∧ s.gate.lastAt = none ∧ l = [] ∧ s.gate.trimEnd = none ∧ s.cmod.edge = none ∧
      s.is F.GATE_CFG_DTC = false) ∧
    (∃ (s : State) (e : CellEvent) (l : List CellEvent), s.Settled ∧ s.gateLive = true ∧ s.rx.events = e :: l ∧
      e.act = .byp ∧ s.gate.blocked = false ∧ s.inStop = false ∧ s.gate.state = .pos ∧ s.full = false ∧ s.gate.legA
      = .upper ∧ s.gate.legB = .off ∧ s.gate.lastAt = none ∧ l = [] ∧ s.gate.trimEnd = none ∧ s.cmod.edge = none ∧
      s.is F.GATE_CFG_DTC = false) ∧
    (∃ (s : State) (e : CellEvent) (l : List CellEvent) (d : CellState), s.Settled ∧ s.gateLive = true ∧ s.rx.events
      = e :: l ∧ e.act = .swap d ∧ d = .bypass ∧ s.gate.blocked = false ∧ s.inStop = false ∧ s.gate.state = .pos ∧
      s.full = false ∧ s.gate.legA = .upper ∧ s.gate.legB = .off ∧ s.gate.lastAt = none ∧ l = [] ∧ s.gate.trimEnd =
      none ∧ s.cmod.edge = none ∧ s.is F.GATE_CFG_DTC = false) ∧
    (∃ (s : State) (e x : CellEvent), s.Settled ∧ s.gateLive = true ∧ s.rx.events = [e, x] ∧ e.act = .insPos ∧ x.act
      = .byp ∧ x.instant < e.instant + s.pulseMin ∧ s.gate.blocked = false ∧ s.inStop = false ∧ s.gate.state =
      .bypass ∧ s.gate.trimEnd = none ∧ s.cmod.edge = none) ∧
    (∃ (s : State) (e : CellEvent) (l : List CellEvent), s.gateLive = true ∧ s.rx.events = e :: l ∧ e.act =
      .blockCell ∧ s.inStop = false) ∧
    (∃ (s : State) (e : CellEvent) (l : List CellEvent), s.gateLive = true ∧ s.rx.events = e :: l ∧ e.act =
      .blockCell ∧ s.inStop = false ∧ s.gate.blocked = false) ∧
    (∃ (s : State) (e : CellEvent) (l : List CellEvent) (on : CellState) (w : Nat), s.Settled ∧ s.gateLive = true ∧
      s.rx.events = e :: l ∧ e.act = .trim on w ∧ on = .pos ∧ s.pulseMin ≤ w ∧ s.gate.blocked = false ∧ s.inStop =
      false ∧ s.gate.state = .bypass ∧ s.gate.lastAt = none ∧ l = [] ∧ s.gate.trimEnd = none ∧ s.cmod.edge = none) ∧
    (∃ (s : State) (x : Nat) (st : CellState) (q : Nat), s.gateLive = true ∧ s.gate.trimEnd = some (x, st, q)) ∧
    (∃ (s : State) (e : CellEvent) (l : List CellEvent), s.gateLive = true ∧ s.rx.events = e :: l ∧ e.act = .fireThy
      ∧ s.gate.pbyp = false ∧ s.inStop = false) ∧
    (∃ (s : State) (e : CellEvent) (l : List CellEvent), s.gateLive = true ∧ s.rx.events = e :: l ∧ e.act =
      .permBypass ∧ s.gate.pbyp = false ∧ s.inStop = false) ∧
    (∃ (s : State), s.Settled ∧ s.gateLive = true ∧ (s.gate.riseA.isSome = true ∨ s.gate.riseB.isSome = true)) :=
  ⟨met_GateEvents_1, met_GateEvents_2, met_GateEvents_3, met_GateEvents_4, met_GateEvents_5, met_GateEvents_6,
    met_GateEvents_7, met_GateEvents_8, met_GateEvents_9, met_GateEvents_10, met_GateEvents_11, met_GateEvents_12,
    met_GateEvents_13⟩

theorem met_FaultLogic_1 :
    ∃ (s : State) (n low : Nat), s.gateLive = true ∧ n < 4 ∧ 1000 < low ∧ bitOf (s.get F.GATE_CFG_FEN) n = true :=
  ⟨withF F.GATE_CFG_FEN 15 (gateCell [evAt 3 .byp]), 3, 1001, by decide +kernel⟩

theorem met_FaultLogic_2 :
    ∃ (s : State) (n low : Nat), s.Settled ∧ s.gateLive = true ∧ 0 < n ∧ n < 4 ∧ 1000 < low ∧ bitOf (s.get
      F.GATE_CFG_FEN) n = false :=
  ⟨withF F.GATE_CFG_FEN 0 (gateCell []), 2, 1001, by decide +kernel⟩

theorem met_FaultLogic_3 :
    ∃ (s : State), s.gateLive = true ∧ s.gate.latch ≠ 0 ∧ s.gate.pbyp = false :=
  ⟨(withF F.GATE_SAFE_SAFE 6 { gateCell [] with gate := { latch := 1 } }).settle, by decide +kernel⟩

theorem met_FaultLogic_4 :
    ∃ (s : State) (path : Path), s.Reaches path Pg.GATE ∧ s.isCell = true ∧ s.gate.live &&& s.get F.GATE_CFG_FEN = 0
      ∧ s.gate.latch ≠ 0 ∧ s.gate.pbyp = false :=
  ⟨({ gateCell [] with gate := { latch := 1 } }).settle, .supervisor, by decide +kernel⟩

theorem met_FaultLogic_5 :
    ∃ (s : State) (path : Path), s.Reaches path Pg.GATE ∧ s.isCell = true ∧ s.gate.live &&& s.get F.GATE_CFG_FEN ≠ 0 :=
  ⟨(withF F.GATE_CFG_FEN 3 { gateCell [] with gate := { latch := 1, live := 2 } }).settle, .supervisor,
    by decide +kernel⟩

theorem met_FaultLogic_6 :
    ∃ (s : State) (n : Nat), s.Settled ∧ s.gateLive = true ∧ n < 4 :=
  ⟨({ gateCell [] with gate := { latch := 3, live := 3 } }).settle, 1, by decide +kernel⟩

theorem met_FaultLogic_7 :
    ∃ (s : State) (f : Nat) (codes : List Int), s.gateLive = true ∧ (f = 0 ∨ f = 2) ∧ canAssert s f codes = true ∧
      bitOf (s.get F.GATE_CFG_FEN) (f / 2 + 2) = true :=
  ⟨withF F.GATE_CFG_FEN 15 (withF (F.ADC_FC_HI 2) 5 (gateCell [])), 2, List.replicate (codesAsked (gateCell []) 2)
    32767, by decide +kernel⟩

theorem met_FaultLogic_8 :
    ∃ (s : State) (f : Nat) (codes : List Int), s.gateLive = true ∧ f = 1 ∧ canAssert s f codes = true ∧ s.is
      F.GATE_PBY_OV2EN = true :=
  ⟨withF F.GATE_PBY_OV2EN 1 (withF (F.ADC_FC_HI 1) 5 (gateCell [])), 1, List.replicate (codesAsked (gateCell []) 1)
    32767, by decide +kernel⟩

theorem met_FaultLogic_9 :
    ∃ (s : State) (f : Nat) (codes : List Int), s.gateLive = true ∧ f = 3 ∧ canAssert s f codes = true :=
  ⟨withF (F.ADC_FC_HI 3) 5 (gateCell []), 3, List.replicate (codesAsked (gateCell []) 3) 32767, by decide +kernel⟩

theorem met_FaultLogic_10 :
    ∃ (s : State) (f : Nat) (code : Int), s.gateLive = true ∧ f < 4 ∧ inBand s f code = true :=
  ⟨(withF (F.ADC_FC_HI 2) 30000 (withF F.ADC_FSTAT_LIVE 15
    { gateCell [] with gate := { latch := 12, live := 12 } })).settle, 2, 100, by decide +kernel⟩

theorem met_FaultLogic_11 :
    ∃ (s : State) (f : Nat) (code : Int), s.gateLive = true ∧ (f = 0 ∨ f = 2) ∧ inBand s f code = true :=
  ⟨(withF (F.ADC_FC_HI 2) 30000 (withF F.ADC_FSTAT_LIVE 15
    { gateCell [] with gate := { latch := 12, live := 12 } })).settle, 2, 100, by decide +kernel⟩

theorem witness_FaultLogic :
    (∃ (s : State) (n low : Nat), s.gateLive = true ∧ n < 4 ∧ 1000 < low ∧ bitOf (s.get F.GATE_CFG_FEN) n = true) ∧
    (∃ (s : State) (n low : Nat), s.Settled ∧ s.gateLive = true ∧ 0 < n ∧ n < 4 ∧ 1000 < low ∧ bitOf (s.get
      F.GATE_CFG_FEN) n = false) ∧
    (∃ (s : State), s.gateLive = true ∧ s.gate.latch ≠ 0 ∧ s.gate.pbyp = false) ∧
    (∃ (s : State) (path : Path), s.Reaches path Pg.GATE ∧ s.isCell = true ∧ s.gate.live &&& s.get F.GATE_CFG_FEN =
      0 ∧ s.gate.latch ≠ 0 ∧ s.gate.pbyp = false) ∧
    (∃ (s : State) (path : Path), s.Reaches path Pg.GATE ∧ s.isCell = true ∧ s.gate.live &&& s.get F.GATE_CFG_FEN ≠
      0) ∧
    (∃ (s : State) (n : Nat), s.Settled ∧ s.gateLive = true ∧ n < 4) ∧
    (∃ (s : State) (f : Nat) (codes : List Int), s.gateLive = true ∧ (f = 0 ∨ f = 2) ∧ canAssert s f codes = true ∧
      bitOf (s.get F.GATE_CFG_FEN) (f / 2 + 2) = true) ∧
    (∃ (s : State) (f : Nat) (codes : List Int), s.gateLive = true ∧ f = 1 ∧ canAssert s f codes = true ∧ s.is
      F.GATE_PBY_OV2EN = true) ∧
    (∃ (s : State) (f : Nat) (codes : List Int), s.gateLive = true ∧ f = 3 ∧ canAssert s f codes = true) ∧
    (∃ (s : State) (f : Nat) (code : Int), s.gateLive = true ∧ f < 4 ∧ inBand s f code = true) ∧
    (∃ (s : State) (f : Nat) (code : Int), s.gateLive = true ∧ (f = 0 ∨ f = 2) ∧ inBand s f code = true) :=
  ⟨met_FaultLogic_1, met_FaultLogic_2, met_FaultLogic_3, met_FaultLogic_4, met_FaultLogic_5, met_FaultLogic_6,
    met_FaultLogic_7, met_FaultLogic_8, met_FaultLogic_9, met_FaultLogic_10, met_FaultLogic_11⟩

theorem met_GateStops_1 :
    ∃ (s : State) (c : StopCause), s.gateLive = true ∧ c ≠ .page ∧ s.full = false :=
  ⟨withF F.GATE_CFG_TOPO 0 (gateCell []), .tclk, by decide +kernel⟩

theorem met_GateStops_2 :
    ∃ (s : State) (c : StopCause), s.gateLive = true ∧ c ≠ .page ∧ s.inStop = false :=
  ⟨withF F.GATE_CFG_TOPO 0 (gateCell []), .tclk, by decide +kernel⟩

theorem met_GateStops_3 :
    ∃ (s : State) (c : StopCause), s.gateLive = true ∧ c ≠ .page :=
  ⟨({ gateCell [] with gate := { stops := [.tclk, .page] } }).settle, .tclk, by decide +kernel⟩

theorem met_GateStops_4 :
    ∃ (s : State), s.Settled ∧ s.gateLive = true ∧ 1 < s.gate.thyLeft ∧ max 1 (s.get F.GATE_THY_PW) < max 1 (s.get
      F.GATE_THY_PER) :=
  ⟨(withF F.GATE_THY_PER 100 { gateCell [] with gate := { thyLeft := 2, gate4 := true } }).settle,
    by decide +kernel⟩

theorem met_GateStops_5 :
    ∃ (s : State), s.gateLive = true ∧ s.gate.thyLeft = 1 :=
  ⟨({ gateCell [] with gate := { thyLeft := 1, gate4 := true } }).settle, by decide +kernel⟩

theorem met_GateStops_6 :
    ∃ (s : State), s.Settled ∧ s.gateLive = true ∧ s.gate.gate5Run = true :=
  ⟨(withF F.GATE_THY_PER 100 { gateCell [] with gate := { pbyp := true, gate5 := true, gate5Run := true } }).settle,
    by decide +kernel⟩

theorem met_GateStops_7 :
    ∃ (s : State) (n : Nat), s.gateLive = true ∧ s.get (F.CLK_DOM_CURSRC 0) ≠ 3 ∧ s.gate.taps.length = 15 ∧ 64 ≤ (n
      + s.gate.taps.sum) / 16 ∧ (n + s.gate.taps.sum) / 16 ≤ 511 :=
  ⟨({ gateCell [] with gate := { taps := List.replicate 15 511 } }).settle, 511, by decide +kernel⟩

theorem met_GateStops_8 :
    ∃ (s : State) (n : Nat), s.gateLive = true ∧ s.get (F.CLK_DOM_CURSRC 0) ≠ 3 ∧ s.gate.taps.length = 15 ∧ (n +
      s.gate.taps.sum) / 16 < 64 ∧ s.is F.GATE_DLCAL_FAULT = false :=
  ⟨({ gateCell [] with gate := { taps := List.replicate 15 1 } }).settle, 5, by decide +kernel⟩

theorem met_GateStops_9 :
    ∃ (s : State) (path : Path) (n : Nat) (data : Word), s.Reaches path Pg.GATE ∧ s.isHub = true ∧ n < 6 ∧ s.is
      (F.TEV_CTL_ARM n) = false ∧ bitOf data.toNat 5 = false ∧ s.clk.gating.contains Pg.GATE = false ∧ s.now +
      nsUnits 1001 ≤ s.tevInstant n :=
  ⟨(hub [0x0B, 0x2D]).setReg (R.TEV_SL 3) 5, .supervisor, 3, 0x102, by decide +kernel⟩

theorem met_GateStops_10 :
    ∃ (s : State) (path : Path) (n : Nat) (data : Word), s.Reaches path Pg.GATE ∧ s.isHub = true ∧ n < 6 ∧ s.is
      (F.TEV_CTL_ARM n) = false ∧ bitOf data.toNat 5 = false ∧ s.clk.gating.contains Pg.GATE = false ∧ s.tevInstant
      n < s.now + nsUnits 999 :=
  ⟨{ hub [0x2D] with now := 2 ^ 40 }, .supervisor, 5, 2, by decide +kernel⟩

theorem met_GateStops_11 :
    ∃ (s : State) (path : Path) (n : Nat), s.Reaches path Pg.GATE ∧ s.isHub = true ∧ n < 6 ∧ s.clk.gating.contains
      Pg.GATE = false :=
  ⟨withF (F.TEV_CTL_ARM 5) 1 (hub [0x2D]), .supervisor, 5, by decide +kernel⟩

theorem met_GateStops_12 :
    ∃ (s : State) (n : Nat), s.alive = true ∧ s.isHub = true ∧ s.runs Pg.GATE = true ∧ n < 6 ∧ s.is (F.TEV_CTL_ARM
      n) = true ∧ s.get (F.TEV_CTL_ACT n) ≠ 3 :=
  ⟨withF (F.TEV_CTL_ARM 5) 1 (withF (F.TEV_CTL_ACT 5) 2 (hub [0x0B, 0x2D])), 5, by decide +kernel⟩

theorem met_GateStops_13 :
    ∃ (s : State) (n : Nat), s.alive = true ∧ s.isHub = true ∧ s.runs Pg.GATE = true ∧ n < 6 ∧ s.is (F.TEV_CTL_ARM
      n) = true ∧ s.get (F.TEV_CTL_ACT n) = 3 :=
  ⟨withF (F.TEV_CTL_ARM 5) 1 (withF (F.TEV_CTL_ACT 5) 3 (hub [0x0B, 0x2D])), 5, by decide +kernel⟩

theorem met_GateStops_14 :
    ∃ (s : State) (n x : Nat), s.Settled ∧ s.alive = true ∧ s.isHub = true ∧ s.runs Pg.TIME = true ∧ n < 6 ∧ nth
      s.gate.tevEnd n none = some x :=
  ⟨{ hub [0x0B, 0x2D] with gate := { tev := List.replicate 6 true, tevEnd := [none, none, none, none, none, some 9] } },
    5, 9, by decide +kernel⟩

theorem witness_GateStops :
    (∃ (s : State) (c : StopCause), s.gateLive = true ∧ c ≠ .page ∧ s.full = false) ∧
    (∃ (s : State) (c : StopCause), s.gateLive = true ∧ c ≠ .page ∧ s.inStop = false) ∧
    (∃ (s : State) (c : StopCause), s.gateLive = true ∧ c ≠ .page) ∧
    (∃ (s : State), s.Settled ∧ s.gateLive = true ∧ 1 < s.gate.thyLeft ∧ max 1 (s.get F.GATE_THY_PW) < max 1 (s.get
      F.GATE_THY_PER)) ∧
    (∃ (s : State), s.gateLive = true ∧ s.gate.thyLeft = 1) ∧
    (∃ (s : State), s.Settled ∧ s.gateLive = true ∧ s.gate.gate5Run = true) ∧
    (∃ (s : State) (n : Nat), s.gateLive = true ∧ s.get (F.CLK_DOM_CURSRC 0) ≠ 3 ∧ s.gate.taps.length = 15 ∧ 64 ≤ (n
      + s.gate.taps.sum) / 16 ∧ (n + s.gate.taps.sum) / 16 ≤ 511) ∧
    (∃ (s : State) (n : Nat), s.gateLive = true ∧ s.get (F.CLK_DOM_CURSRC 0) ≠ 3 ∧ s.gate.taps.length = 15 ∧ (n +
      s.gate.taps.sum) / 16 < 64 ∧ s.is F.GATE_DLCAL_FAULT = false) ∧
    (∃ (s : State) (path : Path) (n : Nat) (data : Word), s.Reaches path Pg.GATE ∧ s.isHub = true ∧ n < 6 ∧ s.is
      (F.TEV_CTL_ARM n) = false ∧ bitOf data.toNat 5 = false ∧ s.clk.gating.contains Pg.GATE = false ∧ s.now +
      nsUnits 1001 ≤ s.tevInstant n) ∧
    (∃ (s : State) (path : Path) (n : Nat) (data : Word), s.Reaches path Pg.GATE ∧ s.isHub = true ∧ n < 6 ∧ s.is
      (F.TEV_CTL_ARM n) = false ∧ bitOf data.toNat 5 = false ∧ s.clk.gating.contains Pg.GATE = false ∧ s.tevInstant
      n < s.now + nsUnits 999) ∧
    (∃ (s : State) (path : Path) (n : Nat), s.Reaches path Pg.GATE ∧ s.isHub = true ∧ n < 6 ∧ s.clk.gating.contains
      Pg.GATE = false) ∧
    (∃ (s : State) (n : Nat), s.alive = true ∧ s.isHub = true ∧ s.runs Pg.GATE = true ∧ n < 6 ∧ s.is (F.TEV_CTL_ARM
      n) = true ∧ s.get (F.TEV_CTL_ACT n) ≠ 3) ∧
    (∃ (s : State) (n : Nat), s.alive = true ∧ s.isHub = true ∧ s.runs Pg.GATE = true ∧ n < 6 ∧ s.is (F.TEV_CTL_ARM
      n) = true ∧ s.get (F.TEV_CTL_ACT n) = 3) ∧
    (∃ (s : State) (n x : Nat), s.Settled ∧ s.alive = true ∧ s.isHub = true ∧ s.runs Pg.TIME = true ∧ n < 6 ∧ nth
      s.gate.tevEnd n none = some x) :=
  ⟨met_GateStops_1, met_GateStops_2, met_GateStops_3, met_GateStops_4, met_GateStops_5, met_GateStops_6,
    met_GateStops_7, met_GateStops_8, met_GateStops_9, met_GateStops_10, met_GateStops_11, met_GateStops_12,
    met_GateStops_13, met_GateStops_14⟩

theorem met_HubValveBlock_1 :
    ∃ (s : State) (low : Nat), s.hubLive = true ∧ 10000 ≤ low :=
  ⟨openHub, 10000, by decide +kernel⟩

theorem met_HubValveBlock_2 :
    ∃ (s : State) (pin : BlockPin) (low : Nat), s.hubLive = true ∧ (pin = .trip0 ∨ pin = .trip1) ∧ passesFilter
      (s.get (if pin = .trip0 then F.SAFE_HCFG_TF0 else F.SAFE_HCFG_TF1)) low = true :=
  ⟨withF F.SAFE_HCFG_TF1 2 openHub, .trip1, 101, by decide +kernel⟩

theorem met_HubValveBlock_3 :
    ∃ (s : State), s.hubLive = true ∧ s.pins.safeA ≠ s.pins.safeB :=
  ⟨{ openHub with pins := { openHub.pins with safeA := false } }, by decide +kernel⟩

theorem met_HubValveBlock_4 :
    ∃ (s : State), s.hubLive = true :=
  ⟨{ hub [] with safe := { asserted := 15, alatch := 7 } }, by decide +kernel⟩

theorem met_HubValveBlock_5 :
    ∃ (s : State), s.Settled ∧ s.hubLive = true ∧ s.safe.startup = 0 ∧ s.pins.safeA = false ∧ s.pins.safeB = false :=
  ⟨State.settle { hub [] with pins := { nRst := true, safeA := false, safeB := false } }, by decide +kernel⟩

theorem met_HubValveBlock_6 :
    ∃ (s : State), s.hubLive = true ∧ s.safe.startup = 1 ∧ s.pins.safeA = true ∧ s.pins.safeB = true :=
  ⟨{ hub [] with safe := { startup := 1 }, pins := { nRst := true, safeA := true, safeB := true } },
    by decide +kernel⟩

theorem met_HubValveBlock_7 :
    ∃ (s : State) (path : Path), s.Reaches path Pg.SAFE ∧ s.isHub = true ∧ s.safe.asserted = 0 :=
  ⟨{ hub [0x2E] with safe := { alatch := 15 } }, .supervisor, by decide +kernel⟩

theorem met_HubValveBlock_8 :
    ∃ (s : State) (path : Path), s.Reaches path Pg.SAFE ∧ s.isHub = true ∧ s.safe.asserted ≠ 0 :=
  ⟨{ hub [0x2E] with safe := { alatch := 15, asserted := 16 } }, .supervisor, by decide +kernel⟩

theorem met_HubValveBlock_9 :
    ∃ (s : State) (path : Path), s.Reaches path Pg.SAFE ∧ s.isHub = true :=
  ⟨openHub, .supervisor, by decide +kernel⟩

theorem met_HubValveBlock_11 :
    ∃ (s : State) (path : Path), s.Reaches path Pg.SAFE ∧ s.isHub = true ∧ s.safe.startup = 2 ∧ s.safe.alatch = 0 ∧
      s.safe.breq = false ∧ (s.is F.SYS_TOPO_TWIN = false ∨ s.twin.active = true) ∧ s.runs Pg.TIME = true ∧ s.is
      F.TIME_MER_RUN = true ∧ s.twin.refLost = false :=
  ⟨{ valveHub with berths := [(770, { link := .admitted, assign := 1 })] }, .supervisor, by decide +kernel⟩

theorem met_HubValveBlock_12 :
    ∃ (s : State) (path : Path), s.Reaches path Pg.SAFE ∧ s.isHub = true ∧ s.safe.startup = 2 ∧ s.safe.alatch ≠ 0 :=
  ⟨{ valveHub with safe := { startup := 2, alatch := 8 } }, .supervisor, by decide +kernel⟩

theorem met_HubValveBlock_13 :
    ∃ (s : State) (i : Nat) (l : List Nat), s.hubLive = true ∧ s.safe.vb = true ∧ s.safe.alatch = 0 ∧ s.safe.breq =
      false ∧ s.is F.SYS_TOPO_TWIN = false ∧ s.safe.seqLeft = i :: l ∧ mayDeblock (s.berth i) = true ∧ s.mgmtRoom (i
      / 256) = true ∧ i < 1024 :=
  ⟨openHub, 770, [], by decide +kernel⟩

theorem met_HubValveBlock_14 :
    ∃ (s : State) (path : Path) (i : Nat), s.Reaches path Pg.SAFE ∧ s.isHub = true ∧ s.safe.vb = true ∧
      s.safe.alatch = 0 ∧ s.safe.breq = false ∧ s.is F.SYS_TOPO_TWIN = false ∧ s.safe.seqLeft = [] ∧ i < 1024 ∧
      mayDeblock (s.berth i) = true ∧ s.mgmtRoom (i / 256) = true :=
  ⟨{ openHub with safe := { startup := 2, vb := true } }, .supervisor, 770, by decide +kernel⟩

theorem met_HubValveBlock_15 :
    ∃ (s : State), s.alive = true ∧ s.is F.DBG_STAT_OPEN = true ∧ s.isHub = true ∧ s.is F.SAFE_HCFG_DBGBLK = true :=
  ⟨withF F.DBG_STAT_OPEN 1 (withF F.SAFE_HCFG_DBGBLK 1 openHub), by decide +kernel⟩

theorem witness_HubValveBlock :
    (∃ (s : State) (low : Nat), s.hubLive = true ∧ 10000 ≤ low) ∧
    (∃ (s : State) (pin : BlockPin) (low : Nat), s.hubLive = true ∧ (pin = .trip0 ∨ pin = .trip1) ∧ passesFilter
      (s.get (if pin = .trip0 then F.SAFE_HCFG_TF0 else F.SAFE_HCFG_TF1)) low = true) ∧
    (∃ (s : State), s.hubLive = true ∧ s.pins.safeA ≠ s.pins.safeB) ∧
    (∃ (s : State), s.hubLive = true) ∧
    (∃ (s : State), s.Settled ∧ s.hubLive = true ∧ s.safe.startup = 0 ∧ s.pins.safeA = false ∧ s.pins.safeB = false) ∧
    (∃ (s : State), s.hubLive = true ∧ s.safe.startup = 1 ∧ s.pins.safeA = true ∧ s.pins.safeB = true) ∧
    (∃ (s : State) (path : Path), s.Reaches path Pg.SAFE ∧ s.isHub = true ∧ s.safe.asserted = 0) ∧
    (∃ (s : State) (path : Path), s.Reaches path Pg.SAFE ∧ s.isHub = true ∧ s.safe.asserted ≠ 0) ∧
    (∃ (s : State) (path : Path), s.Reaches path Pg.SAFE ∧ s.isHub = true) ∧
    (∃ (s : State) (path : Path), s.Reaches path Pg.SAFE ∧ s.isHub = true ∧ s.safe.startup = 2 ∧ s.safe.alatch = 0 ∧
      s.safe.breq = false ∧ (s.is F.SYS_TOPO_TWIN = false ∨ s.twin.active = true) ∧ s.runs Pg.TIME = true ∧ s.is
      F.TIME_MER_RUN = true ∧ s.twin.refLost = false) ∧
    (∃ (s : State) (path : Path), s.Reaches path Pg.SAFE ∧ s.isHub = true ∧ s.safe.startup = 2 ∧ s.safe.alatch ≠ 0) ∧
    (∃ (s : State) (i : Nat) (l : List Nat), s.hubLive = true ∧ s.safe.vb = true ∧ s.safe.alatch = 0 ∧ s.safe.breq =
      false ∧ s.is F.SYS_TOPO_TWIN = false ∧ s.safe.seqLeft = i :: l ∧ mayDeblock (s.berth i) = true ∧ s.mgmtRoom (i
      / 256) = true ∧ i < 1024) ∧
    (∃ (s : State) (path : Path) (i : Nat), s.Reaches path Pg.SAFE ∧ s.isHub = true ∧ s.safe.vb = true ∧
      s.safe.alatch = 0 ∧ s.safe.breq = false ∧ s.is F.SYS_TOPO_TWIN = false ∧ s.safe.seqLeft = [] ∧ i < 1024 ∧
      mayDeblock (s.berth i) = true ∧ s.mgmtRoom (i / 256) = true) ∧
    (∃ (s : State), s.alive = true ∧ s.is F.DBG_STAT_OPEN = true ∧ s.isHub = true ∧ s.is F.SAFE_HCFG_DBGBLK = true) :=
  ⟨met_HubValveBlock_1, met_HubValveBlock_2, met_HubValveBlock_3, met_HubValveBlock_4, met_HubValveBlock_5,
    met_HubValveBlock_6, met_HubValveBlock_7, met_HubValveBlock_8, met_HubValveBlock_9, met_HubValveBlock_11,
    met_HubValveBlock_12, met_HubValveBlock_13, met_HubValveBlock_14, met_HubValveBlock_15⟩

theorem met_CellBlocking_1 :
    ∃ (s : State) (pr sm : Bool), s.Reaches (.remote pr sm) Pg.SAFE ∧ s.isCell = true ∧ s.cellDeblockWhy true = 0 ∧
      s.safe.db = false ∧ (s.safe.plaus = false ∨ s.is F.SAFE_CCFG_PLACT = false) :=
  ⟨withF (F.TREE_CELL_STAT_STATE 0) 1 { cell [0x18, 0x2E] with pins := { nRst := true, gpioIn := 8 } }, false,
    false, by decide +kernel⟩

theorem met_CellBlocking_2 :
    ∃ (s : State) (path : Path), s.Reaches path Pg.SAFE ∧ s.isCell = true ∧ path = .supervisor :=
  ⟨cell [0x2E], .supervisor, by decide +kernel⟩

theorem met_CellBlocking_3 :
    ∃ (s : State) (path : Path), s.Settled ∧ s.Reaches path Pg.SAFE ∧ s.isCell = true ∧ path = .supervisor :=
  ⟨cell [0x2E], .supervisor, by decide +kernel⟩

theorem met_CellBlocking_4 :
    ∃ (s : State) (path : Path), s.Reaches path Pg.SAFE ∧ s.isCell = true :=
  ⟨gateCell [], .supervisor, by decide +kernel⟩

theorem met_CellBlocking_5 :
    ∃ (s : State) (path : Path), s.Reaches path Pg.SAFE ∧ s.isCell = true ∧ s.gate.pbyp = false :=
  ⟨gateCell [], .supervisor, by decide +kernel⟩

theorem met_CellBlocking_6 :
    ∃ (s : State) (u : Nat), s.gateLive = true ∧ u < 2 :=
  ⟨gateCell [], 1, by decide +kernel⟩

theorem met_CellBlocking_7 :
    ∃ (s : State) (u : Nat), s.gateLive = true ∧ u < 2 ∧ s.gate.latch = 0 :=
  ⟨gateCell [], 1, by decide +kernel⟩

theorem met_CellBlocking_8 :
    ∃ (s : State), s.gateLive = true ∧ s.safe.blkSeen = true ∧ s.runs Pg.TIME = true :=
  ⟨{ gateCell [] with safe := { blkSeen := true } }, by decide +kernel⟩

theorem met_CellBlocking_9 :
    ∃ (s : State), s.alive = true ∧ s.is F.DBG_STAT_OPEN = true ∧ s.isCell = true :=
  ⟨withF F.DBG_STAT_OPEN 1 (gateCell []), by decide +kernel⟩

theorem witness_CellBlocking :
    (∃ (s : State) (pr sm : Bool), s.Reaches (.remote pr sm) Pg.SAFE ∧ s.isCell = true ∧ s.cellDeblockWhy true = 0 ∧
      s.safe.db = false ∧ (s.safe.plaus = false ∨ s.is F.SAFE_CCFG_PLACT = false)) ∧
    (∃ (s : State) (path : Path), s.Reaches path Pg.SAFE ∧ s.isCell = true ∧ path = .supervisor) ∧
    (∃ (s : State) (path : Path), s.Settled ∧ s.Reaches path Pg.SAFE ∧ s.isCell = true ∧ path = .supervisor) ∧
    (∃ (s : State) (path : Path), s.Reaches path Pg.SAFE ∧ s.isCell = true) ∧
    (∃ (s : State) (path : Path), s.Reaches path Pg.SAFE ∧ s.isCell = true ∧ s.gate.pbyp = false) ∧
    (∃ (s : State) (u : Nat), s.gateLive = true ∧ u < 2) ∧
    (∃ (s : State) (u : Nat), s.gateLive = true ∧ u < 2 ∧ s.gate.latch = 0) ∧
    (∃ (s : State), s.gateLive = true ∧ s.safe.blkSeen = true ∧ s.runs Pg.TIME = true) ∧
    (∃ (s : State), s.alive = true ∧ s.is F.DBG_STAT_OPEN = true ∧ s.isCell = true) :=
  ⟨met_CellBlocking_1, met_CellBlocking_2, met_CellBlocking_3, met_CellBlocking_4, met_CellBlocking_5,
    met_CellBlocking_6, met_CellBlocking_7, met_CellBlocking_8, met_CellBlocking_9⟩

theorem met_Measurement_1 :
    ∃ (s : State) (x : Int) (i : Nat), s.alive = true ∧ s.isCell = true ∧ s.runs Pg.ADC = true ∧ s.is F.ADC_CTL_M1EN
      = true ∧ s.runs Pg.ACC = true ∧ s.aligned = s.is F.ACC_WIN_MODE ∧ (i - s.groupDelay 1) / gridUnit < (s.acc
      1).stop ∧ 0 < (s.acc 1).count ∧ -(2 ^ 23) < x ∧ x < 2 ^ 23 - 1 :=
  ⟨{ cell [0x2B, 0x2C] with adc := { acc := [{}, { stop := 9, count := 1, lo := 3 }] } }, -8388607, 8,
    by decide +kernel⟩

theorem met_Measurement_2 :
    ∃ (s : State) (x : Int) (i : Nat), s.alive = true ∧ s.isCell = true ∧ s.runs Pg.ADC = true ∧ s.is F.ADC_CTL_M0EN
      = true ∧ s.runs Pg.ACC = true ∧ s.aligned = s.is F.ACC_WIN_MODE ∧ (i - s.groupDelay 0) / gridUnit < (s.acc
      0).stop ∧ (i - s.groupDelay 0) / gridUnit < (s.acc 10).stop ∧ 2 ^ 23 - 1 ≤ x :=
  ⟨{ cell [0x2B, 0x2C] with adc := { acc := [{ stop := 9, count := 1 }, {}, {}, {}, {}, {}, {}, {}, {}, {}, { stop := 9 }] } },
    8388608, 8, by decide +kernel⟩

theorem witness_Measurement :
    (∃ (s : State) (x : Int) (i : Nat), s.alive = true ∧ s.isCell = true ∧ s.runs Pg.ADC = true ∧ s.is
      F.ADC_CTL_M1EN = true ∧ s.runs Pg.ACC = true ∧ s.aligned = s.is F.ACC_WIN_MODE ∧ (i - s.groupDelay 1) /
      gridUnit < (s.acc 1).stop ∧ 0 < (s.acc 1).count ∧ -(2 ^ 23) < x ∧ x < 2 ^ 23 - 1) ∧
    (∃ (s : State) (x : Int) (i : Nat), s.alive = true ∧ s.isCell = true ∧ s.runs Pg.ADC = true ∧ s.is
      F.ADC_CTL_M0EN = true ∧ s.runs Pg.ACC = true ∧ s.aligned = s.is F.ACC_WIN_MODE ∧ (i - s.groupDelay 0) /
      gridUnit < (s.acc 0).stop ∧ (i - s.groupDelay 0) / gridUnit < (s.acc 10).stop ∧ 2 ^ 23 - 1 ≤ x) :=
  ⟨met_Measurement_1, met_Measurement_2⟩

theorem met_WorkStages_1 :
    ∃ (s : State) (x : Snap), s.mod.used = some x ∧ s.stageDue 1 1 = true ∧ s.runs Pg.RANK = true :=
  ⟨workHub 1, snap4, by decide +kernel⟩

theorem met_WorkStages_2 :
    ∃ (s : State), s.stageDue 1 2 = true ∧ s.runs Pg.CTL = true ∧ s.is F.SYS_TOPO_TWIN = false ∧ s.running = none ∧
      s.eng.ho = none ∧ s.runs Pg.SUP = false ∧ s.runs Pg.SCHD = false :=
  ⟨withF (F.PG_CTRL_EN Pg.SUP) 0 (workHub 1), by decide +kernel⟩

theorem met_WorkStages_3 :
    ∃ (s : State) (x : Snap), s.mod.used = some x ∧ s.stageDue 3 3 = true ∧ s.runs Pg.RANK = true :=
  ⟨workHub 3, snap4, by decide +kernel⟩

theorem met_WorkStages_4 :
    ∃ (s : State) (x : Snap), s.mod.used = some x ∧ s.stageDue 15 4 = true ∧ s.runs Pg.MOD = true :=
  ⟨workHub 15, snap4, by decide +kernel⟩

theorem met_WorkStages_5 :
    ∃ (s : State) (x : Snap), s.mod.used = some x ∧ s.stageDue 31 5 = true ∧ s.runs Pg.MOD = true ∧ s.time.lastK =
      some x.k ∧ s.mod.late = false ∧ s.mod.invalid = false ∧ s.portOn 0 = true :=
  ⟨workHub 31, snap4, by decide +kernel⟩

theorem met_WorkStages_6 :
    ∃ (s : State) (x : Snap), s.mod.used = some x ∧ s.stageDue 31 5 = true ∧ s.runs Pg.MOD = true ∧ s.mod.invalid =
      true :=
  ⟨{ workHub 31 with mod := { (workHub 31).mod with invalid := true } }, snap4, by decide +kernel⟩

theorem met_WorkStages_7 :
    ∃ (s : State), s.alive = true ∧ s.isHub = true ∧ s.runs Pg.TIME = true ∧ s.is F.TIME_MER_RUN = true ∧
      s.commitsDue = [] :=
  ⟨workHub 31, by decide +kernel⟩

theorem met_WorkStages_8 :
    ∃ (s : State), s.alive = true ∧ s.isHub = true ∧ s.meridiansOn = true ∧ s.time.lastK.isSome = true ∧ s.runs
      Pg.MOD = true ∧ (List.range 4).any s.portOn = true ∧ (List.range 4).all (fun p => !s.portOn p || (s.port
      p).ready.isSome) = true :=
  ⟨{ workHub 31 with ports := [{ ready := some built }, {}, {}, {}] }, by decide +kernel⟩

theorem met_WorkStages_9 :
    ∃ (s : State), s.alive = true ∧ s.isHub = true ∧ s.meridiansOn = true ∧ s.time.lastK.isSome = true ∧ s.runs
      Pg.MOD = true ∧ s.portsTested.any (fun p => (s.port p).ready.isNone) = true :=
  ⟨workHub 31, by decide +kernel⟩

theorem witness_WorkStages :
    (∃ (s : State) (x : Snap), s.mod.used = some x ∧ s.stageDue 1 1 = true ∧ s.runs Pg.RANK = true) ∧
    (∃ (s : State), s.stageDue 1 2 = true ∧ s.runs Pg.CTL = true ∧ s.is F.SYS_TOPO_TWIN = false ∧ s.running = none ∧
      s.eng.ho = none ∧ s.runs Pg.SUP = false ∧ s.runs Pg.SCHD = false) ∧
    (∃ (s : State) (x : Snap), s.mod.used = some x ∧ s.stageDue 3 3 = true ∧ s.runs Pg.RANK = true) ∧
    (∃ (s : State) (x : Snap), s.mod.used = some x ∧ s.stageDue 15 4 = true ∧ s.runs Pg.MOD = true) ∧
    (∃ (s : State) (x : Snap), s.mod.used = some x ∧ s.stageDue 31 5 = true ∧ s.runs Pg.MOD = true ∧ s.time.lastK =
      some x.k ∧ s.mod.late = false ∧ s.mod.invalid = false ∧ s.portOn 0 = true) ∧
    (∃ (s : State) (x : Snap), s.mod.used = some x ∧ s.stageDue 31 5 = true ∧ s.runs Pg.MOD = true ∧ s.mod.invalid =
      true) ∧
    (∃ (s : State), s.alive = true ∧ s.isHub = true ∧ s.runs Pg.TIME = true ∧ s.is F.TIME_MER_RUN = true ∧
      s.commitsDue = []) ∧
    (∃ (s : State), s.alive = true ∧ s.isHub = true ∧ s.meridiansOn = true ∧ s.time.lastK.isSome = true ∧ s.runs
      Pg.MOD = true ∧ (List.range 4).any s.portOn = true ∧ (List.range 4).all (fun p => !s.portOn p || (s.port
      p).ready.isSome) = true) ∧
    (∃ (s : State), s.alive = true ∧ s.isHub = true ∧ s.meridiansOn = true ∧ s.time.lastK.isSome = true ∧ s.runs
      Pg.MOD = true ∧ s.portsTested.any (fun p => (s.port p).ready.isNone) = true) :=
  ⟨met_WorkStages_1, met_WorkStages_2, met_WorkStages_3, met_WorkStages_4, met_WorkStages_5, met_WorkStages_6,
    met_WorkStages_7, met_WorkStages_8, met_WorkStages_9⟩

theorem met_ModulationCommands_1 :
    ∃ (s : State) (path : Path) (data : Word), s.Reaches path Pg.MOD ∧ s.isHub = true ∧ s.mod.pcmd = none ∧ (getBits
      data 10 4 = 3 ∨ getBits data 10 4 = 5 ∨ getBits data 10 4 = 6) :=
  ⟨hub [0x26], .supervisor, 0x1BFF, by decide +kernel⟩

theorem met_ModulationCommands_2 :
    ∃ (s : State) (path : Path) (data : Word), s.Reaches path Pg.MOD ∧ s.isHub = true ∧ getBits data 10 4 = 4 :=
  ⟨hub [0x26], .supervisor, 0x1001, by decide +kernel⟩

theorem met_ModulationCommands_3 :
    ∃ (s : State) (path : Path) (data : Word), s.Reaches path Pg.MOD ∧ s.isHub = true ∧ s.mod.target = none ∧
      getBits data 16 2 ≠ 3 ∧ s.cycle + s.lead + 8 ≤ s.get F.MOD_MSW_LO_TARGET + 2 ^ 32 * getBits data 0 16 ∧ s.get
      F.MOD_MSW_LO_TARGET + 2 ^ 32 * getBits data 0 16 ≤ s.cycle + 2 ^ 31 :=
  ⟨withF F.MOD_MSW_LO_TARGET 99 (hub [0x26]), .supervisor, 0x20000, by decide +kernel⟩

theorem met_ModulationCommands_4 :
    ∃ (s : State) (path : Path) (data : Word), s.Reaches path Pg.MOD ∧ s.isHub = true ∧ s.get F.MOD_MSW_LO_TARGET +
      2 ^ 32 * getBits data 0 16 < s.cycle + s.lead + 8 :=
  ⟨hub [0x26], .supervisor, 0, by decide +kernel⟩

theorem met_ModulationCommands_5 :
    ∃ (s : State) (e x : Nat), s.cmod.next = some (e, x) ∧ s.gateLive = true ∧ s.time.lastK = none ∧ s.cmod.pend =
      false :=
  ⟨{ gateCell [] with cmod := { next := some (7, 9) } }, 7, 9, by decide +kernel⟩

theorem met_ModulationCommands_6 :
    ∃ (s : State) (e x : Nat), s.carrierOn = true ∧ s.cmod.epoch = some (e, x) ∧ s.cmod.edge = none :=
  ⟨carrierCell, 3, 0, by decide +kernel⟩

theorem witness_ModulationCommands :
    (∃ (s : State) (path : Path) (data : Word), s.Reaches path Pg.MOD ∧ s.isHub = true ∧ s.mod.pcmd = none ∧
      (getBits data 10 4 = 3 ∨ getBits data 10 4 = 5 ∨ getBits data 10 4 = 6)) ∧
    (∃ (s : State) (path : Path) (data : Word), s.Reaches path Pg.MOD ∧ s.isHub = true ∧ getBits data 10 4 = 4) ∧
    (∃ (s : State) (path : Path) (data : Word), s.Reaches path Pg.MOD ∧ s.isHub = true ∧ s.mod.target = none ∧
      getBits data 16 2 ≠ 3 ∧ s.cycle + s.lead + 8 ≤ s.get F.MOD_MSW_LO_TARGET + 2 ^ 32 * getBits data 0 16 ∧ s.get
      F.MOD_MSW_LO_TARGET + 2 ^ 32 * getBits data 0 16 ≤ s.cycle + 2 ^ 31) ∧
    (∃ (s : State) (path : Path) (data : Word), s.Reaches path Pg.MOD ∧ s.isHub = true ∧ s.get F.MOD_MSW_LO_TARGET +
      2 ^ 32 * getBits data 0 16 < s.cycle + s.lead + 8) ∧
    (∃ (s : State) (e x : Nat), s.cmod.next = some (e, x) ∧ s.gateLive = true ∧ s.time.lastK = none ∧ s.cmod.pend =
      false) ∧
    (∃ (s : State) (e x : Nat), s.carrierOn = true ∧ s.cmod.epoch = some (e, x) ∧ s.cmod.edge = none) :=
  ⟨met_ModulationCommands_1, met_ModulationCommands_2, met_ModulationCommands_3, met_ModulationCommands_4,
    met_ModulationCommands_5, met_ModulationCommands_6⟩

theorem met_EngineCommands_1 :
    ∃ (s : State) (path : Path) (n : Nat), s.Reaches path Pg.CTL ∧ s.isHub = true ∧ n < 2 ∧ s.running = none ∧
      s.eng.ho = none ∧ s.is (F.CTL_PGM_STAT_BUSY n) = false :=
  ⟨hub [0x20], .supervisor, 1, by decide +kernel⟩

theorem met_EngineCommands_2 :
    ∃ (s : State) (n : Nat), s.alive = true ∧ s.isRef = false ∧ n < 2 ∧ s.is (F.CTL_PGM_STAT_BUSY n) = true ∧ nth
      s.eng.hit n false = false ∧ s.slotWhy n ≠ 0 :=
  ⟨withF (F.CTL_PGM_STAT_BUSY 1) 1 (hub [0x20]), 1, by decide +kernel⟩

theorem met_EngineCommands_3 :
    ∃ (s : State) (n : Nat), s.alive = true ∧ s.isRef = false ∧ n < 2 ∧ s.is (F.CTL_PGM_STAT_BUSY n) = true ∧
      s.slotWhy n = 0 :=
  ⟨progHub, 1, by decide +kernel⟩

theorem met_EngineCommands_4 :
    ∃ (s : State) (path : Path) (data : Word), s.Reaches path Pg.CTL ∧ s.isHub = true ∧ getBits data 31 1 = 0 ∧
      getBits data 1 1 = 0 ∧ s.slotValid (getBits data 0 1) = true ∧ s.get F.CTL_STAT_ACT ≠ getBits data 0 1 ∧
      s.eng.ho = none :=
  ⟨withF (F.CTL_PGM_STAT_VALID 1) 1 (hub [0x20]), .supervisor, 0x7F01, by decide +kernel⟩

theorem met_EngineCommands_5 :
    ∃ (s : State) (path : Path) (data : Word) (h : HoSt), s.Reaches path Pg.CTL ∧ s.isHub = true ∧ getBits data 30 1
      = 0 ∧ s.eng.ho = some h ∧ h.running = false :=
  ⟨{ hub [0x20] with eng := { ho := some { slot := 1, start := 5, nb := 3 } } }, .supervisor, 0,
    { slot := 1, start := 5, nb := 3 }, by decide +kernel⟩

theorem met_EngineCommands_6 :
    ∃ (s : State) (path : Path), s.Reaches path Pg.CTL ∧ s.isRef = false ∧ s.eng.sigq.length < 16 :=
  ⟨hub [0x20], .supervisor, by decide +kernel⟩

theorem met_EngineCommands_7 :
    ∃ (s : State) (path : Path), s.Reaches path Pg.CTL ∧ s.isRef = false ∧ 16 ≤ s.eng.sigq.length :=
  ⟨{ hub [0x20] with eng := { sigq := List.replicate 16 (0, 0) } }, .supervisor, by decide +kernel⟩

theorem met_EngineCommands_8 :
    ∃ (s : State) (path : Path), s.Reaches path Pg.CHAIN ∧ s.isRef = false ∧ s.eng.chq.length < 64 :=
  ⟨hub [0x21], .supervisor, by decide +kernel⟩

theorem met_EngineCommands_9 :
    ∃ (s : State) (path : Path), s.Reaches path Pg.CHAIN ∧ s.isHub = true ∧ s.get F.CHAIN_SEL_FIELD ≤ 9 :=
  ⟨hub [0x21], .supervisor, by decide +kernel⟩

theorem met_EngineCommands_10 :
    ∃ (s : State), s.alive = true ∧ s.isCell = true ∧ s.runs Pg.CTL = true ∧ s.is F.CTL_CFG_TRIG = false ∧ s.running
      = none :=
  ⟨{ cell [0x20] with eng := { sigq := [(3, 4)] } }, by decide +kernel⟩

theorem witness_EngineCommands :
    (∃ (s : State) (path : Path) (n : Nat), s.Reaches path Pg.CTL ∧ s.isHub = true ∧ n < 2 ∧ s.running = none ∧
      s.eng.ho = none ∧ s.is (F.CTL_PGM_STAT_BUSY n) = false) ∧
    (∃ (s : State) (n : Nat), s.alive = true ∧ s.isRef = false ∧ n < 2 ∧ s.is (F.CTL_PGM_STAT_BUSY n) = true ∧ nth
      s.eng.hit n false = false ∧ s.slotWhy n ≠ 0) ∧
    (∃ (s : State) (n : Nat), s.alive = true ∧ s.isRef = false ∧ n < 2 ∧ s.is (F.CTL_PGM_STAT_BUSY n) = true ∧
      s.slotWhy n = 0) ∧
    (∃ (s : State) (path : Path) (data : Word), s.Reaches path Pg.CTL ∧ s.isHub = true ∧ getBits data 31 1 = 0 ∧
      getBits data 1 1 = 0 ∧ s.slotValid (getBits data 0 1) = true ∧ s.get F.CTL_STAT_ACT ≠ getBits data 0 1 ∧
      s.eng.ho = none) ∧
    (∃ (s : State) (path : Path) (data : Word) (h : HoSt), s.Reaches path Pg.CTL ∧ s.isHub = true ∧ getBits data 30
      1 = 0 ∧ s.eng.ho = some h ∧ h.running = false) ∧
    (∃ (s : State) (path : Path), s.Reaches path Pg.CTL ∧ s.isRef = false ∧ s.eng.sigq.length < 16) ∧
    (∃ (s : State) (path : Path), s.Reaches path Pg.CTL ∧ s.isRef = false ∧ 16 ≤ s.eng.sigq.length) ∧
    (∃ (s : State) (path : Path), s.Reaches path Pg.CHAIN ∧ s.isRef = false ∧ s.eng.chq.length < 64) ∧
    (∃ (s : State) (path : Path), s.Reaches path Pg.CHAIN ∧ s.isHub = true ∧ s.get F.CHAIN_SEL_FIELD ≤ 9) ∧
    (∃ (s : State), s.alive = true ∧ s.isCell = true ∧ s.runs Pg.CTL = true ∧ s.is F.CTL_CFG_TRIG = false ∧
      s.running = none) :=
  ⟨met_EngineCommands_1, met_EngineCommands_2, met_EngineCommands_3, met_EngineCommands_4, met_EngineCommands_5,
    met_EngineCommands_6, met_EngineCommands_7, met_EngineCommands_8, met_EngineCommands_9, met_EngineCommands_10⟩

theorem met_RankAndCompensation_1 :
    ∃ (s : State) (path : Path) (w : Nat), s.Reaches path Pg.RANK ∧ s.isHub = true ∧ w < 16 :=
  ⟨{ hub [0x27] with rank := { seen := [(0, { vest := 7 })] } }, .supervisor, 0, by decide +kernel⟩

theorem met_RankAndCompensation_2 :
    ∃ (s : State) (path : Path), s.Reaches path Pg.RANK ∧ s.isHub = true ∧ s.rank.jobs.length < 16 :=
  ⟨hub [0x27], .supervisor, by decide +kernel⟩

theorem met_RankAndCompensation_3 :
    ∃ (s : State) (path : Path), s.Reaches path Pg.RANK ∧ s.isHub = true ∧ s.rank.jobs.length < 16 ∧ s.reg (R.RANK_E
      1) = 0x3F800000 :=
  ⟨(hub [0x27]).setReg (R.RANK_E 1) 0x3F800000, .supervisor, by decide +kernel⟩

theorem met_RankAndCompensation_4 :
    ∃ (s : State) (path : Path), s.Reaches path Pg.RANK ∧ s.isHub = true ∧ s.reg (R.RANK_E 1) = 0x7F800000 :=
  ⟨(hub [0x27]).setReg (R.RANK_E 1) 0x7F800000, .supervisor, by decide +kernel⟩

theorem met_RankAndCompensation_5 :
    ∃ (s : State) (path : Path), s.Reaches path Pg.RANK ∧ s.isHub = true ∧ s.rank.jobs.length < 16 ∧ sFinite (s.reg
      (R.RANK_E 0)) = true :=
  ⟨hub [0x27], .supervisor, by decide +kernel⟩

theorem met_RankAndCompensation_6 :
    ∃ (s : State) (path : Path) (u : Nat), s.Reaches path Pg.RCU ∧ s.isHub = true ∧ u < 16 :=
  ⟨hub [0x23], .supervisor, 15, by decide +kernel⟩

theorem met_RankAndCompensation_7 :
    ∃ (s : State) (u : Nat), s.alive = true ∧ s.isHub = true ∧ u < 16 :=
  ⟨withF F.RCU_STAT_CLR 0x8000 (hub [0x23]), 15, by decide +kernel⟩

theorem met_RankAndCompensation_8 :
    ∃ (s : State) (path : Path) (i : Nat), s.Reaches path Pg.SUP ∧ s.isHub = true ∧ i < 2 ∧ s.is (F.SUP_ISTAT_RUN i)
      = false ∧ s.get (F.SUP_ICTL_TYPE i) ≠ 3 :=
  ⟨hub [0x25], .supervisor, 1, by decide +kernel⟩

theorem met_RankAndCompensation_9 :
    ∃ (s : State) (path : Path) (i : Nat), s.Reaches path Pg.SUP ∧ s.isHub = true ∧ i < 2 ∧ (s.inj i).run = true :=
  ⟨{ hub [0x25] with comp := { inj := [{}, { run := true }] } }, .supervisor, 1, by decide +kernel⟩

theorem met_RankAndCompensation_10 :
    ∃ (s : State) (path : Path), s.Reaches path Pg.SUP ∧ s.isHub = true ∧ s.is (F.SUP_ISTAT_RUN (s.get
      F.SUP_FRCTL_INJ)) = false ∧ s.comp.fr = none :=
  ⟨hub [0x25], .supervisor, by decide +kernel⟩

theorem witness_RankAndCompensation :
    (∃ (s : State) (path : Path) (w : Nat), s.Reaches path Pg.RANK ∧ s.isHub = true ∧ w < 16) ∧
    (∃ (s : State) (path : Path), s.Reaches path Pg.RANK ∧ s.isHub = true ∧ s.rank.jobs.length < 16) ∧
    (∃ (s : State) (path : Path), s.Reaches path Pg.RANK ∧ s.isHub = true ∧ s.rank.jobs.length < 16 ∧ s.reg
      (R.RANK_E 1) = 0x3F800000) ∧
    (∃ (s : State) (path : Path), s.Reaches path Pg.RANK ∧ s.isHub = true ∧ s.reg (R.RANK_E 1) = 0x7F800000) ∧
    (∃ (s : State) (path : Path), s.Reaches path Pg.RANK ∧ s.isHub = true ∧ s.rank.jobs.length < 16 ∧ sFinite (s.reg
      (R.RANK_E 0)) = true) ∧
    (∃ (s : State) (path : Path) (u : Nat), s.Reaches path Pg.RCU ∧ s.isHub = true ∧ u < 16) ∧
    (∃ (s : State) (u : Nat), s.alive = true ∧ s.isHub = true ∧ u < 16) ∧
    (∃ (s : State) (path : Path) (i : Nat), s.Reaches path Pg.SUP ∧ s.isHub = true ∧ i < 2 ∧ s.is (F.SUP_ISTAT_RUN
      i) = false ∧ s.get (F.SUP_ICTL_TYPE i) ≠ 3) ∧
    (∃ (s : State) (path : Path) (i : Nat), s.Reaches path Pg.SUP ∧ s.isHub = true ∧ i < 2 ∧ (s.inj i).run = true) ∧
    (∃ (s : State) (path : Path), s.Reaches path Pg.SUP ∧ s.isHub = true ∧ s.is (F.SUP_ISTAT_RUN (s.get
      F.SUP_FRCTL_INJ)) = false ∧ s.comp.fr = none) :=
  ⟨met_RankAndCompensation_1, met_RankAndCompensation_2, met_RankAndCompensation_3, met_RankAndCompensation_4,
    met_RankAndCompensation_5, met_RankAndCompensation_6, met_RankAndCompensation_7, met_RankAndCompensation_8,
    met_RankAndCompensation_9, met_RankAndCompensation_10⟩

theorem met_TwinFrames_1 :
    ∃ (s : State) (fr : List Byte), s.twinOn = true ∧ s.laneHears 4 = true ∧ s.laneHears 5 = true ∧ crcBytes
      (fr.take (fr.length - 4)) ≠ fr.drop (fr.length - 4) :=
  ⟨pairHub, [1, 2, 3, 4, 5], by decide +kernel⟩

theorem met_TwinFrames_2 :
    ∃ (s : State) (fr str : List Byte), s.twinOn = true ∧ s.TwinFrameOk 1 fr str ∧ s.is F.TWIN_STAT_BOND = true ∧
      s.is F.TWIN_STAT_KEYED = false ∧ s.side = 1 ∧ kxSound str (kxEph str) = true ∧ s.isPeer (keyId (kxPub str)) 3
      = true ∧ (ecdhX s.twin.link.priv (kxEph str)).isSome = true ∧ s.laneSends 4 = true ∧ s.laneSends 5 = true :=
  ⟨withPeer { pairHub with twin := { pairHub.twin with link := { priv := 1 } } }, kxFrame, soundKxh.take 192,
    by decide +kernel⟩

theorem met_TwinFrames_3 :
    ∃ (s : State) (fr b : List Byte), s.twinOn = true ∧ s.TwinFrameOk 2 fr b :=
  ⟨pairHub, linkFrame 2 (List.replicate 16 0), List.replicate 16 0, by decide +kernel⟩

theorem met_TwinFrames_4 :
    ∃ (s : State) (fr b : List Byte), s.twinOn = true ∧ s.TwinFrameOk 3 fr b ∧ s.twin.active = false ∧ s.is
      F.TWIN_STAT_SELF = false :=
  ⟨pairHub, linkFrame 3 (List.replicate 20 1), List.replicate 20 1, by decide +kernel⟩

theorem met_TwinFrames_5 :
    ∃ (s : State) (fr b : List Byte), s.twinOn = true ∧ s.TwinFrameOk 3 fr b ∧ s.twin.active = false ∧ s.is
      F.TWIN_STAT_SELF = false ∧ bitOf (parseStatus b).health 0 = true ∧ s.is F.BOOT_TWIN_WARM = true ∧ b.length =
      300 ∧ s.time.lastK = some (parseStatus b).cycle :=
  ⟨{ withF F.BOOT_TWIN_WARM 1 pairHub with time := { lastK := some (parseStatus (List.replicate 300 1)).cycle } },
    linkFrame 3 (List.replicate 300 1), List.replicate 300 1, by decide +kernel⟩

theorem met_TwinFrames_6 :
    ∃ (s : State) (fr b : List Byte), s.twinOn = true ∧ s.TwinFrameOk 4 fr b ∧ s.twin.active = false :=
  ⟨pairHub, linkFrame 4 (List.replicate 16 1), List.replicate 16 1, by decide +kernel⟩

theorem met_TwinFrames_7 :
    ∃ (s : State) (fr b : List Byte) (g : Staging), s.twinOn = true ∧ s.TwinFrameOk 5 fr b ∧ s.twin.active = false ∧
      s.twin.staging = [g] ∧ g.commit = none ∧ g.x = ofBe (b.take 4) ∧ (stagedBytes g.data (ofBe ((b.drop 7).take
      4))).map crc32c = some (ofBe ((b.drop 11).take 4)) :=
  ⟨{ pairHub with twin := { pairHub.twin with staging := [⟨9, 0, 4, false, [(0, 7), (1, 8)], none⟩] } }, linkFrame 5
    (beBytes 4 9 ++ beBytes 2 0 ++ [4] ++ beBytes 4 2 ++ beBytes 4 (crc32c [7, 8])), beBytes 4 9 ++ beBytes 2 0 ++
    [4] ++ beBytes 4 2 ++ beBytes 4 (crc32c [7, 8]), ⟨9, 0, 4, false, [(0, 7), (1, 8)], none⟩, by decide +kernel⟩

theorem met_TwinFrames_8 :
    ∃ (s : State) (fr b : List Byte), s.twinOn = true ∧ s.TwinFrameOk 5 fr b ∧ s.twin.active = false ∧
      s.twin.staging = [] ∧ 0 < ofBe ((b.drop 7).take 4) :=
  ⟨pairHub, linkFrame 5 (List.replicate 15 1), List.replicate 15 1, by decide +kernel⟩

theorem witness_TwinFrames :
    (∃ (s : State) (fr : List Byte), s.twinOn = true ∧ s.laneHears 4 = true ∧ s.laneHears 5 = true ∧ crcBytes
      (fr.take (fr.length - 4)) ≠ fr.drop (fr.length - 4)) ∧
    (∃ (s : State) (fr str : List Byte), s.twinOn = true ∧ s.TwinFrameOk 1 fr str ∧ s.is F.TWIN_STAT_BOND = true ∧
      s.is F.TWIN_STAT_KEYED = false ∧ s.side = 1 ∧ kxSound str (kxEph str) = true ∧ s.isPeer (keyId (kxPub str)) 3
      = true ∧ (ecdhX s.twin.link.priv (kxEph str)).isSome = true ∧ s.laneSends 4 = true ∧ s.laneSends 5 = true) ∧
    (∃ (s : State) (fr b : List Byte), s.twinOn = true ∧ s.TwinFrameOk 2 fr b) ∧
    (∃ (s : State) (fr b : List Byte), s.twinOn = true ∧ s.TwinFrameOk 3 fr b ∧ s.twin.active = false ∧ s.is
      F.TWIN_STAT_SELF = false) ∧
    (∃ (s : State) (fr b : List Byte), s.twinOn = true ∧ s.TwinFrameOk 3 fr b ∧ s.twin.active = false ∧ s.is
      F.TWIN_STAT_SELF = false ∧ bitOf (parseStatus b).health 0 = true ∧ s.is F.BOOT_TWIN_WARM = true ∧ b.length =
      300 ∧ s.time.lastK = some (parseStatus b).cycle) ∧
    (∃ (s : State) (fr b : List Byte), s.twinOn = true ∧ s.TwinFrameOk 4 fr b ∧ s.twin.active = false) ∧
    (∃ (s : State) (fr b : List Byte) (g : Staging), s.twinOn = true ∧ s.TwinFrameOk 5 fr b ∧ s.twin.active = false
      ∧ s.twin.staging = [g] ∧ g.commit = none ∧ g.x = ofBe (b.take 4) ∧ (stagedBytes g.data (ofBe ((b.drop 7).take
      4))).map crc32c = some (ofBe ((b.drop 11).take 4))) ∧
    (∃ (s : State) (fr b : List Byte), s.twinOn = true ∧ s.TwinFrameOk 5 fr b ∧ s.twin.active = false ∧
      s.twin.staging = [] ∧ 0 < ofBe ((b.drop 7).take 4)) :=
  ⟨met_TwinFrames_1, met_TwinFrames_2, met_TwinFrames_3, met_TwinFrames_4, met_TwinFrames_5, met_TwinFrames_6,
    met_TwinFrames_7, met_TwinFrames_8⟩

theorem met_RefereeAtHub_1 :
    ∃ (s : State) (k : Key), s.hubRef = true ∧ s.twin.ref.rx.isSome = true ∧ s.twin.ref.tx = some k :=
  ⟨pairHub, 8, by decide +kernel⟩

theorem met_RefereeAtHub_2 :
    ∃ (s : State) (fr : List Byte) (n : Nat) (b : List Byte), s.hubRef = true ∧ refCheck s.twin.ref s.hubNo s.side
      0x22 fr = .ok n b ∧ newer (refWatch b) (s.get F.TWIN_WATCH_OWN) = true ∧ newer (s.get F.TWIN_WATCH_SEEN)
      (refWatch b) = false ∧ s.twin.active = false :=
  ⟨pairHub, refereeFrame 0x22 9, 0, beBytes 2 0 ++ beBytes 2 9 ++ List.replicate 5 0, by decide +kernel⟩

theorem met_RefereeAtHub_3 :
    ∃ (s : State) (fr : List Byte) (n : Nat) (b : List Byte), s.hubRef = true ∧ refCheck s.twin.ref s.hubNo s.side
      0x22 fr = .ok n b ∧ newer (refWatch b) (s.get F.TWIN_WATCH_OWN) = false :=
  ⟨withF F.TWIN_WATCH_OWN 9 pairHub, refereeFrame 0x22 9, 0, beBytes 2 0 ++ beBytes 2 9 ++ List.replicate 5 0,
    by decide +kernel⟩

theorem met_RefereeAtHub_4 :
    ∃ (s : State) (fr : List Byte) (n : Nat) (b : List Byte), s.hubRef = true ∧ refCheck s.twin.ref s.hubNo s.side
      0x23 fr = .ok n b ∧ newer (refWatch b) (s.get F.TWIN_WATCH_OWN) = true :=
  ⟨{ pairHub with twin := { pairHub.twin with active := true }, safe := { vb := true } }, refereeFrame 0x23 9, 0,
    beBytes 2 0 ++ beBytes 2 9 ++ List.replicate 5 0, by decide +kernel⟩

theorem met_RefereeAtHub_5 :
    ∃ (s : State) (fr : List Byte) (n : Nat) (b : List Byte), s.hubRef = true ∧ refCheck s.twin.ref s.hubNo s.side
      0x21 fr = .ok n b ∧ newer (refWatch b) (s.get F.TWIN_WATCH_SEEN) = true ∧ s.twin.active = false :=
  ⟨pairHub, refereeFrame 0x21 9, 0, beBytes 2 0 ++ beBytes 2 9 ++ List.replicate 5 0, by decide +kernel⟩

theorem met_RefereeAtHub_6 :
    ∃ (s : State), s.alive = true ∧ s.isHub = true ∧ s.is F.SYS_TOPO_TWIN = true ∧ s.runs Pg.REF = true :=
  ⟨pairHub, by decide +kernel⟩

theorem met_RefereeAtHub_7 :
    ∃ (s : State), s.alive = true ∧ s.isHub = true ∧ s.is F.SYS_TOPO_TWIN = true ∧ s.runs Pg.REF = true ∧ s.is
      F.TWIN_ARB_SELFEN = true ∧ s.is F.TWIN_STAT_BOND = false :=
  ⟨withF F.TWIN_ARB_SELFEN 1 (withF F.TWIN_STAT_BOND 0 pairHub), by decide +kernel⟩

theorem met_RefereeAtHub_8 :
    ∃ (s : State), s.selfStandby = true ∧ s.takeoverCase ≠ 0 :=
  ⟨{ withF F.TWIN_STAT_SELF 1 pairHub with twin := { status := some ⟨0, 0, 0, 5, 0, 0, [], [], [], []⟩ } },
    by decide +kernel⟩

theorem met_RefereeAtHub_9 :
    ∃ (s : State), s.selfStandby = true ∧ s.is F.TWIN_ARB_PREF = true ∧ s.is F.TWIN_STAT_BOND = true ∧ s.reg
      R.REF_HFAIL = 0 ∧ s.is F.TWIN_STAT_READY = true :=
  ⟨withF F.TWIN_STAT_READY 1 (withF F.TWIN_ARB_PREF 1 (withF F.TWIN_STAT_SELF 1 pairHub)), by decide +kernel⟩

theorem witness_RefereeAtHub :
    (∃ (s : State) (k : Key), s.hubRef = true ∧ s.twin.ref.rx.isSome = true ∧ s.twin.ref.tx = some k) ∧
    (∃ (s : State) (fr : List Byte) (n : Nat) (b : List Byte), s.hubRef = true ∧ refCheck s.twin.ref s.hubNo s.side
      0x22 fr = .ok n b ∧ newer (refWatch b) (s.get F.TWIN_WATCH_OWN) = true ∧ newer (s.get F.TWIN_WATCH_SEEN)
      (refWatch b) = false ∧ s.twin.active = false) ∧
    (∃ (s : State) (fr : List Byte) (n : Nat) (b : List Byte), s.hubRef = true ∧ refCheck s.twin.ref s.hubNo s.side
      0x22 fr = .ok n b ∧ newer (refWatch b) (s.get F.TWIN_WATCH_OWN) = false) ∧
    (∃ (s : State) (fr : List Byte) (n : Nat) (b : List Byte), s.hubRef = true ∧ refCheck s.twin.ref s.hubNo s.side
      0x23 fr = .ok n b ∧ newer (refWatch b) (s.get F.TWIN_WATCH_OWN) = true) ∧
    (∃ (s : State) (fr : List Byte) (n : Nat) (b : List Byte), s.hubRef = true ∧ refCheck s.twin.ref s.hubNo s.side
      0x21 fr = .ok n b ∧ newer (refWatch b) (s.get F.TWIN_WATCH_SEEN) = true ∧ s.twin.active = false) ∧
    (∃ (s : State), s.alive = true ∧ s.isHub = true ∧ s.is F.SYS_TOPO_TWIN = true ∧ s.runs Pg.REF = true) ∧
    (∃ (s : State), s.alive = true ∧ s.isHub = true ∧ s.is F.SYS_TOPO_TWIN = true ∧ s.runs Pg.REF = true ∧ s.is
      F.TWIN_ARB_SELFEN = true ∧ s.is F.TWIN_STAT_BOND = false) ∧
    (∃ (s : State), s.selfStandby = true ∧ s.takeoverCase ≠ 0) ∧
    (∃ (s : State), s.selfStandby = true ∧ s.is F.TWIN_ARB_PREF = true ∧ s.is F.TWIN_STAT_BOND = true ∧ s.reg
      R.REF_HFAIL = 0 ∧ s.is F.TWIN_STAT_READY = true) :=
  ⟨met_RefereeAtHub_1, met_RefereeAtHub_2, met_RefereeAtHub_3, met_RefereeAtHub_4, met_RefereeAtHub_5,
    met_RefereeAtHub_6, met_RefereeAtHub_7, met_RefereeAtHub_8, met_RefereeAtHub_9⟩

theorem met_RefereeDecisions_1 :
    ∃ (s : State) (l : Nat) (fr : List Byte) (n : Nat) (b : List Byte), s.refServes (l / 2) = true ∧ l < 4 ∧
      refCheck (s.refLink l).keys (s.pairHub (l / 2)) (l % 2) 0x11 fr = .ok n b :=
  ⟨pairRef, 1, refereeFrame 0x11 9, 0, beBytes 2 0 ++ beBytes 2 9 ++ List.replicate 5 0, by decide +kernel⟩

theorem met_RefereeDecisions_2 :
    ∃ (s : State) (l : Nat) (fr : List Byte), s.refServes (l / 2) = true ∧ l < 4 ∧ refCheck (s.refLink l).keys
      (s.pairHub (l / 2)) (l % 2) 0x11 fr = .tag :=
  ⟨pairRef, 0, refereeFrame 0x11 9, by decide +kernel⟩

theorem met_RefereeDecisions_3 :
    ∃ (s : State) (p h : Nat), s.refServes p = true ∧ h < 2 ∧ (s.refPair p).listening = false ∧ s.pairActive p =
      some h ∧ s.get (F.REF_PSTAT_STATE p) = 1 ∧ (s.refPair p).takeTo = none ∧ s.get (F.REF_LSTAT_MISS (2 * p + h))
      + 1 = s.pairMiss p ∧ s.is (F.REF_LSTAT_VALID (2 * p + (1 - h))) = true ∧ s.linkHealth (2 * p + (1 - h)) 2 =
      false ∧ s.linkHealth (2 * p + (1 - h)) 1 = true :=
  ⟨withF (F.REF_LSTAT_MISS 0) 3 (withF (F.REF_LSTAT_VALID 1) 1 (withF (F.REF_LSTAT_HEALTH 1) 2 pairRef)), 0, 0,
    by decide +kernel⟩

theorem met_RefereeDecisions_4 :
    ∃ (s : State) (p h : Nat), s.refServes p = true ∧ h < 2 ∧ (s.refPair p).listening = false ∧ s.pairActive p =
      some h ∧ s.get (F.REF_PSTAT_STATE p) = 1 ∧ (s.refPair p).takeTo = none ∧ s.get (F.REF_LSTAT_MISS (2 * p + h))
      + 1 = s.pairMiss p ∧ s.is (F.REF_LSTAT_VALID (2 * p + (1 - h))) = false :=
  ⟨withF (F.REF_LSTAT_MISS 0) 3 pairRef, 0, 0, by decide +kernel⟩

theorem met_RefereeDecisions_5 :
    ∃ (s : State) (p : Nat), s.refServes p = true ∧ (s.refPair p).listening = true ∧ s.is (F.REF_LSTAT_VALID (2 * p
      + 1)) = true ∧ s.linkHealth (2 * p + 1) 0 = true ∧ s.is (F.REF_LSTAT_VALID (2 * p)) = false :=
  ⟨{ withF (F.REF_LSTAT_VALID 1) 1 (withF (F.REF_LSTAT_HEALTH 1) 1 pairRef) with refPairs := [{}, {}] }, 0,
    by decide +kernel⟩

theorem met_RefereeDecisions_6 :
    ∃ (s : State) (p : Nat), s.refServes p = true ∧ (s.refPair p).listening = true ∧ s.is (F.REF_LSTAT_VALID (2 * p
      + 1)) = false ∧ s.is (F.REF_LSTAT_VALID (2 * p)) = false :=
  ⟨{ pairRef with refPairs := [{}, {}] }, 0, by decide +kernel⟩

theorem met_RefereeDecisions_7 :
    ∃ (s : State) (p : Nat) (k k' : Key), s.refServes p = true ∧ (s.refLink (2 * p)).keys.tx = some k ∧ (s.refLink
      (2 * p + 1)).keys.tx = some k' :=
  ⟨pairRef, 0, 8, 8, by decide +kernel⟩

theorem met_RefereeDecisions_8 :
    ∃ (s : State) (l : Nat) (fr : List Byte) (n : Nat) (b : List Byte), s.isRef = true ∧ s.refServes (l / 2) = true
      ∧ refCheck (s.refLink l).keys (s.pairHub (l / 2)) (l % 2) 0x31 fr = .ok n b ∧ (nth b 0 0).toNat = 0 :=
  ⟨pairRef, 1, refFrame 0x31 0 (List.replicate 50 0) fun _ => [], 0, List.replicate 50 0, by decide +kernel⟩

theorem met_RefereeDecisions_9 :
    ∃ (s : State) (l : Nat) (fr : List Byte) (n : Nat) (b x y z : List Byte), s.isRef = true ∧ s.refServes (l / 2) =
      true ∧ refCheck (s.refLink l).keys (s.pairHub (l / 2)) (l % 2) 0x31 fr = .ok n b ∧ (nth b 0 0).toNat = 3 ∧
      (s.refLink l).keys.chunks = [(0, x), (1, y), (2, z)] ∧ kxSound (x ++ y ++ z ++ b.drop 2) (kxEph (x ++ y ++ z
      ++ b.drop 2)) = true ∧ s.isPeer (keyId (kxPub (x ++ y ++ z ++ b.drop 2))) 3 = true ∧ s.is (F.REF_LSTAT_KEYED
      l) = false :=
  ⟨withPeer
    { pairRef with refLinks := [{ keys := { chunks := [(0, soundKxh.take 48), (1, (soundKxh.drop 48).take 48), (2, (soundKxh.drop 96).take 48)] } }, {}, {}, {}] },
    0, refFrame 0x31 0 ([3, 0] ++ (soundKxh.drop 144).take 48) fun _ => [], 0, [3, 0] ++ (soundKxh.drop 144).take
    48, soundKxh.take 48, (soundKxh.drop 48).take 48, (soundKxh.drop 96).take 48, by decide +kernel⟩

theorem witness_RefereeDecisions :
    (∃ (s : State) (l : Nat) (fr : List Byte) (n : Nat) (b : List Byte), s.refServes (l / 2) = true ∧ l < 4 ∧
      refCheck (s.refLink l).keys (s.pairHub (l / 2)) (l % 2) 0x11 fr = .ok n b) ∧
    (∃ (s : State) (l : Nat) (fr : List Byte), s.refServes (l / 2) = true ∧ l < 4 ∧ refCheck (s.refLink l).keys
      (s.pairHub (l / 2)) (l % 2) 0x11 fr = .tag) ∧
    (∃ (s : State) (p h : Nat), s.refServes p = true ∧ h < 2 ∧ (s.refPair p).listening = false ∧ s.pairActive p =
      some h ∧ s.get (F.REF_PSTAT_STATE p) = 1 ∧ (s.refPair p).takeTo = none ∧ s.get (F.REF_LSTAT_MISS (2 * p + h))
      + 1 = s.pairMiss p ∧ s.is (F.REF_LSTAT_VALID (2 * p + (1 - h))) = true ∧ s.linkHealth (2 * p + (1 - h)) 2 =
      false ∧ s.linkHealth (2 * p + (1 - h)) 1 = true) ∧
    (∃ (s : State) (p h : Nat), s.refServes p = true ∧ h < 2 ∧ (s.refPair p).listening = false ∧ s.pairActive p =
      some h ∧ s.get (F.REF_PSTAT_STATE p) = 1 ∧ (s.refPair p).takeTo = none ∧ s.get (F.REF_LSTAT_MISS (2 * p + h))
      + 1 = s.pairMiss p ∧ s.is (F.REF_LSTAT_VALID (2 * p + (1 - h))) = false) ∧
    (∃ (s : State) (p : Nat), s.refServes p = true ∧ (s.refPair p).listening = true ∧ s.is (F.REF_LSTAT_VALID (2 * p
      + 1)) = true ∧ s.linkHealth (2 * p + 1) 0 = true ∧ s.is (F.REF_LSTAT_VALID (2 * p)) = false) ∧
    (∃ (s : State) (p : Nat), s.refServes p = true ∧ (s.refPair p).listening = true ∧ s.is (F.REF_LSTAT_VALID (2 * p
      + 1)) = false ∧ s.is (F.REF_LSTAT_VALID (2 * p)) = false) ∧
    (∃ (s : State) (p : Nat) (k k' : Key), s.refServes p = true ∧ (s.refLink (2 * p)).keys.tx = some k ∧ (s.refLink
      (2 * p + 1)).keys.tx = some k') ∧
    (∃ (s : State) (l : Nat) (fr : List Byte) (n : Nat) (b : List Byte), s.isRef = true ∧ s.refServes (l / 2) = true
      ∧ refCheck (s.refLink l).keys (s.pairHub (l / 2)) (l % 2) 0x31 fr = .ok n b ∧ (nth b 0 0).toNat = 0) ∧
    (∃ (s : State) (l : Nat) (fr : List Byte) (n : Nat) (b x y z : List Byte), s.isRef = true ∧ s.refServes (l / 2)
      = true ∧ refCheck (s.refLink l).keys (s.pairHub (l / 2)) (l % 2) 0x31 fr = .ok n b ∧ (nth b 0 0).toNat = 3 ∧
      (s.refLink l).keys.chunks = [(0, x), (1, y), (2, z)] ∧ kxSound (x ++ y ++ z ++ b.drop 2) (kxEph (x ++ y ++ z
      ++ b.drop 2)) = true ∧ s.isPeer (keyId (kxPub (x ++ y ++ z ++ b.drop 2))) 3 = true ∧ s.is (F.REF_LSTAT_KEYED
      l) = false) :=
  ⟨met_RefereeDecisions_1, met_RefereeDecisions_2, met_RefereeDecisions_3, met_RefereeDecisions_4,
    met_RefereeDecisions_5, met_RefereeDecisions_6, met_RefereeDecisions_7, met_RefereeDecisions_8,
    met_RefereeDecisions_9⟩

theorem met_SchedulerItems_1 :
    ∃ (s : State) (p : Path) (d : Word), s.pathOpen p = true ∧ getBits d 12 1 = 0 ∧ s.queueFull (getBits d 0 5) =
      false ∧ s.slotsFree ≠ 0 :=
  ⟨{ hub [] with sch := { subs := [(8, 0x5A1234), (9, 77)] } }, .station, 31, by decide +kernel⟩

theorem met_SchedulerItems_2 :
    ∃ (s : State) (p : Path) (d : Word), s.pathOpen p = true ∧ getBits d 12 1 = 0 ∧ s.queueFull (getBits d 0 5) =
      true :=
  ⟨withF (F.SCHQ_CFG_DEPTH 9) 1
    { hub [] with sch := { queues := [(9, [⟨3, 1, 2, 3, 9, none, false, 0, false, false⟩])] } }, .station, 9,
    by decide +kernel⟩

theorem met_SchedulerItems_3 :
    ∃ (s : State) (p : Path) (d : Word), s.pathOpen p = true ∧ getBits d 12 1 = 1 ∧ relDue s.schedNow ((kvGet 0
      s.sch.subs (4 * pathIdx p + 2)).toNat + 2 ^ 32 * getBits (kvGet 0 s.sch.subs (4 * pathIdx p + 3)) 0 8) = false
      ∧ ((kvGet 0 s.sch.subs (4 * pathIdx p + 2)).toNat + 2 ^ 32 * getBits (kvGet 0 s.sch.subs (4 * pathIdx p + 3))
      0 8 + 2 ^ 40 - s.schedNow) % 2 ^ 40 < 2 ^ 36 ∧ s.listHeld (getBits d 8 2) < 256 ∧ s.slotsFree ≠ 0 :=
  ⟨{ hub [] with sch := { subs := [(10, 5000)] } }, .station, 0x1300, by decide +kernel⟩

theorem met_SchedulerItems_4 :
    ∃ (s : State) (p : Path) (d : Word), s.pathOpen p = true ∧ getBits d 12 1 = 1 ∧ relDue s.schedNow ((kvGet 0
      s.sch.subs (4 * pathIdx p + 2)).toNat + 2 ^ 32 * getBits (kvGet 0 s.sch.subs (4 * pathIdx p + 3)) 0 8) = false
      ∧ 2 ^ 36 ≤ ((kvGet 0 s.sch.subs (4 * pathIdx p + 2)).toNat + 2 ^ 32 * getBits (kvGet 0 s.sch.subs (4 * pathIdx
      p + 3)) 0 8 + 2 ^ 40 - s.schedNow) % 2 ^ 40 :=
  ⟨{ hub [] with sch := { subs := [(11, 16)] } }, .station, 0x1000, by decide +kernel⟩

theorem met_SchedulerItems_5 :
    ∃ (s : State) (q : Nat), s.alive = true ∧ q < 8 ∧ s.hwQueue q = true ∧ (q < 4 ∨ q = 5) ∧ s.queueFull q = false ∧
      s.slotsFree ≠ 0 :=
  ⟨hub [], 5, by decide +kernel⟩

theorem met_SchedulerItems_6 :
    ∃ (s : State) (q : Nat), s.alive = true ∧ q < 8 ∧ s.hwQueue q = true ∧ (q < 4 ∨ q = 5) ∧ s.queueFull q = true :=
  ⟨withF (F.SCHQ_CFG_DEPTH 3) 1
    { hub [] with sch := { queues := [(3, [⟨3, 1, 2, 3, 3, none, false, 0, false, false⟩])] } }, 3,
    by decide +kernel⟩

theorem met_SchedulerItems_7 :
    ∃ (s : State) (p : Path) (slot : Nat) (l : List Nat) (it : Item), s.pathOpen p = true ∧ s.sch.mail = slot :: l ∧
      s.sch.svc.find? (fun x => x.slot == slot) = some it ∧ it.timed = none :=
  ⟨{ hub [] with sch := { mail := [3, 4], svc := [⟨3, 1, 2, 3, 9, none, false, 0, false, false⟩] } }, .station, 3,
    [4], ⟨3, 1, 2, 3, 9, none, false, 0, false, false⟩, by decide +kernel⟩

theorem met_SchedulerItems_8 :
    ∃ (s : State) (p : Path), s.pathOpen p = true ∧ s.sch.mail = [] :=
  ⟨hub [], .station, by decide +kernel⟩

theorem met_SchedulerItems_9 :
    ∃ (s : State) (p : Path) (h : Nat) (it : Item), s.pathOpen p = true ∧ s.named h (s.sch.svc.filter fun x =>
      workerOf x.queue == 0) = some it ∧ it.timed = none :=
  ⟨{ hub [] with sch := { mail := [53], gens := [(53, 3)], svc := [⟨53, 1, 2, 3, 9, none, false, 0, false, false⟩] } },
    .station, 0x0C35, ⟨53, 1, 2, 3, 9, none, false, 0, false, false⟩, by decide +kernel⟩

theorem met_SchedulerItems_10 :
    ∃ (s : State) (p : Path) (h : Nat) (it : Item) (d rel per : Nat), s.pathOpen p = true ∧ s.named h
      (s.sch.svc.filter fun x => workerOf x.queue == 0) = some it ∧ it.timed = some (d, rel, per) ∧ per ≠ 0 ∧
      it.gone = false :=
  ⟨{ hub [] with sch := { gens := [(53, 3)], svc := [⟨53, 1, 2, 3, 9, some (1, 4, 100), false, 0, false, false⟩] } },
    .station, 0x0C35, ⟨53, 1, 2, 3, 9, some (1, 4, 100), false, 0, false, false⟩, 1, 4, 100, by decide +kernel⟩

theorem met_SchedulerItems_11 :
    ∃ (s : State) (p : Path) (h : Nat), s.pathOpen p = true ∧ s.named h (s.sch.svc.filter fun x => workerOf x.queue
      == 0) = none :=
  ⟨hub [], .station, 70000, by decide +kernel⟩

theorem met_SchedulerItems_12 :
    ∃ (s : State) (p : Path) (h : Nat), s.pathOpen p = true ∧ s.named h s.items = none :=
  ⟨hub [], .station, 1, by decide +kernel⟩

theorem met_SchedulerItems_13 :
    ∃ (s : State) (p : Path) (h : Nat) (it : Item), s.pathOpen p = true ∧ s.named h s.items = some it ∧
      (s.sch.svc.any fun x => x.slot == it.slot) = true :=
  ⟨{ hub [] with sch := { svc := [⟨53, 1, 2, 3, 9, some (1, 4, 100), false, 0, false, false⟩] } }, .station, 53,
    ⟨53, 1, 2, 3, 9, some (1, 4, 100), false, 0, false, false⟩, by decide +kernel⟩

theorem met_SchedulerItems_14 :
    ∃ (s : State) (p : Path) (h : Nat) (it : Item), s.pathOpen p = true ∧ s.named h s.items = some it ∧
      (s.sch.svc.any fun x => x.slot == it.slot) = false :=
  ⟨{ hub [] with sch := { lists := [[], [⟨53, 1, 2, 3, 9, some (1, 4, 100), false, 0, false, false⟩], [], []] } },
    .station, 53, ⟨53, 1, 2, 3, 9, some (1, 4, 100), false, 0, false, false⟩, by decide +kernel⟩

theorem met_SchedulerItems_15 :
    ∃ (s : State) (q : Nat) (it : Item), s.schedOn = true ∧ s.enabled Pg.TIME = false ∧ s.sch.held = [] ∧
      s.sch.queues = [(q, [it])] ∧ workerOf q = 0 ∧ q < 32 ∧ s.is (F.SCHQ_CFG_EN q) = true ∧ s.flowBusy it.flow =
      false ∧ s.sch.mail.length < 4 :=
  ⟨{ hub [] with sch := { queues := [(31, [⟨3, 1, 2, 3, 31, none, false, 0, false, false⟩])], mail := [9] } }, 31,
    ⟨3, 1, 2, 3, 31, none, false, 0, false, false⟩, by decide +kernel⟩

theorem met_SchedulerItems_16 :
    ∃ (s : State), s.schedOn = true ∧ s.enabled Pg.TIME = false ∧ s.sch.held = [] ∧ (List.range 4).all (fun w =>
      s.eligible w == []) = true :=
  ⟨{ hub [] with sch := { queues := [(31, [⟨3, 1, 2, 3, 31, none, false, 0, false, false⟩])], mail := [9], svc := [⟨9, 1, 2, 3, 8, none, false, 0, false, false⟩] } },
    by decide +kernel⟩

theorem met_SchedulerItems_17 :
    ∃ (s : State) (it : Item) (rel per : Nat), s.schedOn = true ∧ s.enabled Pg.TIME = true ∧ s.sch.lists = [[it],
      [], [], []] ∧ it.timed = some (0, rel, per) ∧ relDue s.schedNow rel = true ∧ it.ready ≠ s.schedNow ∧
      s.queueFull it.queue = false :=
  ⟨{ hub [0x0B] with now := 2 ^ 52, sch := { lists := [[⟨53, 1, 2, 3, 9, some (0, 4, 100), false, 3, false, false⟩], [], [], []] } },
    ⟨53, 1, 2, 3, 9, some (0, 4, 100), false, 3, false, false⟩, 4, 100, by decide +kernel⟩

theorem met_SchedulerItems_18 :
    ∃ (s : State) (it : Item) (rel per : Nat), s.schedOn = true ∧ s.enabled Pg.TIME = true ∧ s.sch.lists = [[it],
      [], [], []] ∧ it.timed = some (0, rel, per) ∧ relDue s.schedNow rel = true ∧ it.ready ≠ s.schedNow ∧
      s.queueFull it.queue = true :=
  ⟨withF (F.SCHQ_CFG_DEPTH 9) 1
    { hub [0x0B] with now := 2 ^ 52, sch := { queues := [(9, [⟨3, 1, 2, 3, 9, none, false, 0, false, false⟩])], lists := [[⟨53, 1, 2, 3, 9, some (0, 4, 100), false, 3, false, false⟩], [], [], []] } },
    ⟨53, 1, 2, 3, 9, some (0, 4, 100), false, 3, false, false⟩, 4, 100, by decide +kernel⟩

theorem met_SchedulerItems_19 :
    ∃ (s : State), s.Settled ∧ s.enabled Pg.TIME = false :=
  ⟨hub [], by decide +kernel⟩

theorem met_SchedulerItems_20 :
    ∃ (s : State) (slot : Nat) (it : Item), s.schedOn = true ∧ s.sch.svc.find? (fun x => x.slot == slot && workerOf
      x.queue == 0 && !x.stuck) = some it :=
  ⟨{ hub [] with sch := { svc := [⟨9, 1, 2, 3, 8, none, false, 0, false, false⟩] } }, 9, ⟨9, 1, 2, 3, 8, none,
    false, 0, false, false⟩, by decide +kernel⟩

theorem witness_SchedulerItems :
    (∃ (s : State) (p : Path) (d : Word), s.pathOpen p = true ∧ getBits d 12 1 = 0 ∧ s.queueFull (getBits d 0 5) =
      false ∧ s.slotsFree ≠ 0) ∧
    (∃ (s : State) (p : Path) (d : Word), s.pathOpen p = true ∧ getBits d 12 1 = 0 ∧ s.queueFull (getBits d 0 5) =
      true) ∧
    (∃ (s : State) (p : Path) (d : Word), s.pathOpen p = true ∧ getBits d 12 1 = 1 ∧ relDue s.schedNow ((kvGet 0
      s.sch.subs (4 * pathIdx p + 2)).toNat + 2 ^ 32 * getBits (kvGet 0 s.sch.subs (4 * pathIdx p + 3)) 0 8) = false
      ∧ ((kvGet 0 s.sch.subs (4 * pathIdx p + 2)).toNat + 2 ^ 32 * getBits (kvGet 0 s.sch.subs (4 * pathIdx p + 3))
      0 8 + 2 ^ 40 - s.schedNow) % 2 ^ 40 < 2 ^ 36 ∧ s.listHeld (getBits d 8 2) < 256 ∧ s.slotsFree ≠ 0) ∧
    (∃ (s : State) (p : Path) (d : Word), s.pathOpen p = true ∧ getBits d 12 1 = 1 ∧ relDue s.schedNow ((kvGet 0
      s.sch.subs (4 * pathIdx p + 2)).toNat + 2 ^ 32 * getBits (kvGet 0 s.sch.subs (4 * pathIdx p + 3)) 0 8) = false
      ∧ 2 ^ 36 ≤ ((kvGet 0 s.sch.subs (4 * pathIdx p + 2)).toNat + 2 ^ 32 * getBits (kvGet 0 s.sch.subs (4 * pathIdx
      p + 3)) 0 8 + 2 ^ 40 - s.schedNow) % 2 ^ 40) ∧
    (∃ (s : State) (q : Nat), s.alive = true ∧ q < 8 ∧ s.hwQueue q = true ∧ (q < 4 ∨ q = 5) ∧ s.queueFull q = false
      ∧ s.slotsFree ≠ 0) ∧
    (∃ (s : State) (q : Nat), s.alive = true ∧ q < 8 ∧ s.hwQueue q = true ∧ (q < 4 ∨ q = 5) ∧ s.queueFull q = true) ∧
    (∃ (s : State) (p : Path) (slot : Nat) (l : List Nat) (it : Item), s.pathOpen p = true ∧ s.sch.mail = slot :: l
      ∧ s.sch.svc.find? (fun x => x.slot == slot) = some it ∧ it.timed = none) ∧
    (∃ (s : State) (p : Path), s.pathOpen p = true ∧ s.sch.mail = []) ∧
    (∃ (s : State) (p : Path) (h : Nat) (it : Item), s.pathOpen p = true ∧ s.named h (s.sch.svc.filter fun x =>
      workerOf x.queue == 0) = some it ∧ it.timed = none) ∧
    (∃ (s : State) (p : Path) (h : Nat) (it : Item) (d rel per : Nat), s.pathOpen p = true ∧ s.named h
      (s.sch.svc.filter fun x => workerOf x.queue == 0) = some it ∧ it.timed = some (d, rel, per) ∧ per ≠ 0 ∧
      it.gone = false) ∧
    (∃ (s : State) (p : Path) (h : Nat), s.pathOpen p = true ∧ s.named h (s.sch.svc.filter fun x => workerOf x.queue
      == 0) = none) ∧
    (∃ (s : State) (p : Path) (h : Nat), s.pathOpen p = true ∧ s.named h s.items = none) ∧
    (∃ (s : State) (p : Path) (h : Nat) (it : Item), s.pathOpen p = true ∧ s.named h s.items = some it ∧
      (s.sch.svc.any fun x => x.slot == it.slot) = true) ∧
    (∃ (s : State) (p : Path) (h : Nat) (it : Item), s.pathOpen p = true ∧ s.named h s.items = some it ∧
      (s.sch.svc.any fun x => x.slot == it.slot) = false) ∧
    (∃ (s : State) (q : Nat) (it : Item), s.schedOn = true ∧ s.enabled Pg.TIME = false ∧ s.sch.held = [] ∧
      s.sch.queues = [(q, [it])] ∧ workerOf q = 0 ∧ q < 32 ∧ s.is (F.SCHQ_CFG_EN q) = true ∧ s.flowBusy it.flow =
      false ∧ s.sch.mail.length < 4) ∧
    (∃ (s : State), s.schedOn = true ∧ s.enabled Pg.TIME = false ∧ s.sch.held = [] ∧ (List.range 4).all (fun w =>
      s.eligible w == []) = true) ∧
    (∃ (s : State) (it : Item) (rel per : Nat), s.schedOn = true ∧ s.enabled Pg.TIME = true ∧ s.sch.lists = [[it],
      [], [], []] ∧ it.timed = some (0, rel, per) ∧ relDue s.schedNow rel = true ∧ it.ready ≠ s.schedNow ∧
      s.queueFull it.queue = false) ∧
    (∃ (s : State) (it : Item) (rel per : Nat), s.schedOn = true ∧ s.enabled Pg.TIME = true ∧ s.sch.lists = [[it],
      [], [], []] ∧ it.timed = some (0, rel, per) ∧ relDue s.schedNow rel = true ∧ it.ready ≠ s.schedNow ∧
      s.queueFull it.queue = true) ∧
    (∃ (s : State), s.Settled ∧ s.enabled Pg.TIME = false) ∧
    (∃ (s : State) (slot : Nat) (it : Item), s.schedOn = true ∧ s.sch.svc.find? (fun x => x.slot == slot && workerOf
      x.queue == 0 && !x.stuck) = some it) :=
  ⟨met_SchedulerItems_1, met_SchedulerItems_2, met_SchedulerItems_3, met_SchedulerItems_4, met_SchedulerItems_5,
    met_SchedulerItems_6, met_SchedulerItems_7, met_SchedulerItems_8, met_SchedulerItems_9, met_SchedulerItems_10,
    met_SchedulerItems_11, met_SchedulerItems_12, met_SchedulerItems_13, met_SchedulerItems_14,
    met_SchedulerItems_15, met_SchedulerItems_16, met_SchedulerItems_17, met_SchedulerItems_18,
    met_SchedulerItems_19, met_SchedulerItems_20⟩

theorem met_ArbiterAndLocks_1 :
    ∃ (s : State) (q : ArbReq), s.alive = true ∧ s.arbValid q = true ∧ s.is F.MEM_STAT_LOCKED = false ∧ q.lock =
      false ∧ s.arb.armed = false ∧ q.data ≠ [] ∧ s.memErr = [] ∧ s.get F.ERR_INJ_NBIT = 0 ∧ s.isRef = false ∧
      s.isProtected q.addr q.data.length = false :=
  ⟨cell [], ⟨1, 9, 0x20180040, 0, [1, 2, 3, 4, 5, 6, 7, 8, 0], false, false⟩, by decide +kernel⟩

theorem met_ArbiterAndLocks_2 :
    ∃ (s : State) (q : ArbReq), s.alive = true ∧ s.arbValid q = true ∧ s.is F.MEM_STAT_LOCKED = false ∧ q.lock =
      false ∧ s.arb.armed = false ∧ q.data ≠ [] ∧ s.isRef = false ∧ s.isProtected q.addr q.data.length = true :=
  ⟨cell [], ⟨1, 9, 0x20100000, 0, [1, 2, 3, 4], false, false⟩, by decide +kernel⟩

theorem met_ArbiterAndLocks_3 :
    ∃ (s : State) (q : ArbReq), s.alive = true ∧ s.arbValid q = true ∧ s.is F.MEM_STAT_LOCKED = false ∧ q.lock =
      false ∧ s.arb.armed = false ∧ q.data = [] ∧ q.read = 4 ∧ s.memErr = [] :=
  ⟨withWord 0x20180040 0x12345678 (cell []), ⟨12, 99999, 0x20180040, 4, [], false, false⟩, by decide +kernel⟩

theorem met_ArbiterAndLocks_4 :
    ∃ (s : State) (q : ArbReq), s.alive = true ∧ s.is F.MEM_STAT_LOCKED = true ∧ q.r ≠ s.get F.MEM_STAT_OWNER ∧ (q.r
      ≠ 0 ∨ s.get F.MEM_STAT_OWNER ≠ 1) :=
  ⟨withF F.MEM_STAT_LOCKED 1 (withF F.MEM_STAT_OWNER 2 (cell [])), ⟨1, 9, 0x20180040, 0, [1], false, false⟩,
    by decide +kernel⟩

theorem met_ArbiterAndLocks_5 :
    ∃ (s : State) (p : Path), s.pathOpen p = true :=
  ⟨cell [], .remote false false, by decide +kernel⟩

theorem met_ArbiterAndLocks_6 :
    ∃ (s : State) (p : Path), s.pathOpen p = true ∧ s.is F.MEM_STAT_LOCKED = true ∧ s.get F.MEM_STAT_OWNER = 1 :=
  ⟨withF F.MEM_STAT_LOCKED 1 (withF F.MEM_STAT_OWNER 1 (cell [])), .remote false false, by decide +kernel⟩

theorem met_ArbiterAndLocks_7 :
    ∃ (s : State) (p : Path), s.pathOpen p = true ∧ s.is F.MEM_STAT_LOCKED = false :=
  ⟨cell [], .remote false false, by decide +kernel⟩

theorem met_ArbiterAndLocks_8 :
    ∃ (s : State) (c : Nat), s.alive = true ∧ s.is F.MEM_STAT_LOCKED = true ∧ 1 ≤ c ∧ c ≤ 3 ∧ (c ≠ 2 ∨ s.lockMax ≤
      s.arb.grants) ∧ s.arb.words.length ≤ 255 :=
  ⟨{ withF F.MEM_STAT_LOCKED 1 (withF F.MEM_STAT_OWNER 2 (cell [])) with arb := { words := [0x20000000, 0x20000008] } },
    3, by decide +kernel⟩

theorem witness_ArbiterAndLocks :
    (∃ (s : State) (q : ArbReq), s.alive = true ∧ s.arbValid q = true ∧ s.is F.MEM_STAT_LOCKED = false ∧ q.lock =
      false ∧ s.arb.armed = false ∧ q.data ≠ [] ∧ s.memErr = [] ∧ s.get F.ERR_INJ_NBIT = 0 ∧ s.isRef = false ∧
      s.isProtected q.addr q.data.length = false) ∧
    (∃ (s : State) (q : ArbReq), s.alive = true ∧ s.arbValid q = true ∧ s.is F.MEM_STAT_LOCKED = false ∧ q.lock =
      false ∧ s.arb.armed = false ∧ q.data ≠ [] ∧ s.isRef = false ∧ s.isProtected q.addr q.data.length = true) ∧
    (∃ (s : State) (q : ArbReq), s.alive = true ∧ s.arbValid q = true ∧ s.is F.MEM_STAT_LOCKED = false ∧ q.lock =
      false ∧ s.arb.armed = false ∧ q.data = [] ∧ q.read = 4 ∧ s.memErr = []) ∧
    (∃ (s : State) (q : ArbReq), s.alive = true ∧ s.is F.MEM_STAT_LOCKED = true ∧ q.r ≠ s.get F.MEM_STAT_OWNER ∧
      (q.r ≠ 0 ∨ s.get F.MEM_STAT_OWNER ≠ 1)) ∧
    (∃ (s : State) (p : Path), s.pathOpen p = true) ∧
    (∃ (s : State) (p : Path), s.pathOpen p = true ∧ s.is F.MEM_STAT_LOCKED = true ∧ s.get F.MEM_STAT_OWNER = 1) ∧
    (∃ (s : State) (p : Path), s.pathOpen p = true ∧ s.is F.MEM_STAT_LOCKED = false) ∧
    (∃ (s : State) (c : Nat), s.alive = true ∧ s.is F.MEM_STAT_LOCKED = true ∧ 1 ≤ c ∧ c ≤ 3 ∧ (c ≠ 2 ∨ s.lockMax ≤
      s.arb.grants) ∧ s.arb.words.length ≤ 255) :=
  ⟨met_ArbiterAndLocks_1, met_ArbiterAndLocks_2, met_ArbiterAndLocks_3, met_ArbiterAndLocks_4,
    met_ArbiterAndLocks_5, met_ArbiterAndLocks_6, met_ArbiterAndLocks_7, met_ArbiterAndLocks_8⟩

theorem met_MemoryErrors_1 :
    ∃ (s : State), s.phase = .running ∧ s.is F.ERR_CFG_SCRUB = true ∧ kvFind s.memErr (scrubWord s.arb.scrubAt) =
      none ∧ s.arb.scrubAt + 1 < s.scrubWords :=
  ⟨cell [], by decide +kernel⟩

theorem met_MemoryErrors_2 :
    ∃ (s : State), s.phase = .running ∧ s.is F.ERR_CFG_SCRUB = true ∧ kvFind s.memErr (scrubWord s.arb.scrubAt) =
      none ∧ s.arb.scrubAt + 1 = s.scrubWords :=
  ⟨{ cell [] with arb := { scrubAt := 360447 } }, by decide +kernel⟩

theorem met_MemoryErrors_3 :
    ∃ (s : State) (u : List Nat), s.phase = .running ∧ s.is F.ERR_CFG_SCRUB = true ∧ kvFind s.memErr (scrubWord
      s.arb.scrubAt) = none ∧ (u.length = 1 ∨ u.length = 2) :=
  ⟨cell [], [3, 79], by decide +kernel⟩

theorem met_MemoryErrors_4 :
    ∃ (s : State) (u : List Nat), s.phase = .running ∧ s.is F.ERR_CFG_SCRUB = true ∧ kvFind s.memErr (scrubWord
      s.arb.scrubAt) = none ∧ u.length = 3 :=
  ⟨cell [], [3, 7, 79], by decide +kernel⟩

theorem met_MemoryErrors_6 :
    ∃ (s : State) (p : Path) (c : Nat), s.pathOpen p = true ∧ c < 4 ∧ s.handled = c + 1 ∧ s.err.pend = [] :=
  ⟨{ cell [] with err := { stack := [3, 2] } }, .remote false false, 3, by decide +kernel⟩

theorem met_MemoryErrors_7 :
    ∃ (s : State) (p : Path) (c : Nat), s.pathOpen p = true ∧ c < 4 ∧ s.handled ≠ c + 1 :=
  ⟨{ cell [] with err := { stack := [3, 2] } }, .remote false false, 2, by decide +kernel⟩

theorem met_MemoryErrors_8 :
    ∃ (s : State) (p : Path) (d : Word), s.pathOpen p = true ∧ 0x80 ≤ getBits d 8 8 ∧ s.err.log = [] :=
  ⟨cell [], .remote false false, 0x8003, by decide +kernel⟩

theorem met_MemoryErrors_9 :
    ∃ (s : State) (p : Path) (d : Word), s.pathOpen p = true ∧ getBits d 8 8 < 0x80 :=
  ⟨cell [], .remote false false, 0x7F03, by decide +kernel⟩

theorem witness_MemoryErrors :
    (∃ (s : State), s.phase = .running ∧ s.is F.ERR_CFG_SCRUB = true ∧ kvFind s.memErr (scrubWord s.arb.scrubAt) =
      none ∧ s.arb.scrubAt + 1 < s.scrubWords) ∧
    (∃ (s : State), s.phase = .running ∧ s.is F.ERR_CFG_SCRUB = true ∧ kvFind s.memErr (scrubWord s.arb.scrubAt) =
      none ∧ s.arb.scrubAt + 1 = s.scrubWords) ∧
    (∃ (s : State) (u : List Nat), s.phase = .running ∧ s.is F.ERR_CFG_SCRUB = true ∧ kvFind s.memErr (scrubWord
      s.arb.scrubAt) = none ∧ (u.length = 1 ∨ u.length = 2)) ∧
    (∃ (s : State) (u : List Nat), s.phase = .running ∧ s.is F.ERR_CFG_SCRUB = true ∧ kvFind s.memErr (scrubWord
      s.arb.scrubAt) = none ∧ u.length = 3) ∧
    (∃ (s : State) (p : Path), s.pathOpen p = true) ∧
    (∃ (s : State) (p : Path) (c : Nat), s.pathOpen p = true ∧ c < 4 ∧ s.handled = c + 1 ∧ s.err.pend = []) ∧
    (∃ (s : State) (p : Path) (c : Nat), s.pathOpen p = true ∧ c < 4 ∧ s.handled ≠ c + 1) ∧
    (∃ (s : State) (p : Path) (d : Word), s.pathOpen p = true ∧ 0x80 ≤ getBits d 8 8 ∧ s.err.log = []) ∧
    (∃ (s : State) (p : Path) (d : Word), s.pathOpen p = true ∧ getBits d 8 8 < 0x80) :=
  ⟨met_MemoryErrors_1, met_MemoryErrors_2, met_MemoryErrors_3, met_MemoryErrors_4, met_ArbiterAndLocks_5,
    met_MemoryErrors_6, met_MemoryErrors_7, met_MemoryErrors_8, met_MemoryErrors_9⟩

theorem met_RecorderCommands_1 :
    ∃ (s : State) (c : RecChunk) (l : List RecChunk), s.alive = true ∧ s.isHub = true ∧ s.recd.full = c :: l ∧
      s.recd.tail = [] ∧ (s.sch.svc.any fun it => it.queue == 6 && it.hw && it.flow == c.seq) = true ∧ s.memErr = []
      ∧ s.get F.ERR_INJ_NBIT = 0 ∧ s.segBase c.seg + c.off + c.data.length ≤ 0x303FF000 :=
  ⟨{ hub [0x28] with recd := { (hub []).recd with full := [⟨5, 0, 4096, [1, 2, 3], false⟩] }, sch := { svc := [⟨9, 5, 0, 3, 6, none, true, 0, false, false⟩] } },
    ⟨5, 0, 4096, [1, 2, 3], false⟩, [], by decide +kernel⟩

theorem met_RecorderCommands_2 :
    ∃ (s : State) (c : RecChunk) (l : List RecChunk), s.alive = true ∧ s.isHub = true ∧ s.recd.full = c :: l ∧
      s.recd.tail = [] ∧ (s.sch.svc.any fun it => it.queue == 6 && it.hw && it.flow == c.seq) = true ∧ s.memErr = []
      ∧ s.get F.ERR_INJ_NBIT = 0 ∧ s.segBase c.seg + c.off + c.data.length ≤ 0x303FF000 ∧ s.is F.REC_CFG_STRM = true :=
  ⟨{ withF F.REC_CFG_STRM 1 (hub [0x28]) with recd := { (hub []).recd with full := [⟨5, 0, 4096, [1, 2, 3], false⟩] }, sch := { svc := [⟨9, 5, 0, 3, 6, none, true, 0, false, false⟩] } },
    ⟨5, 0, 4096, [1, 2, 3], false⟩, [], by decide +kernel⟩

theorem met_RecorderCommands_3 :
    ∃ (s : State), s.alive = true ∧ s.isHub = true ∧ s.runs Pg.REC = true ∧ s.recState = 4 ∧ s.get F.REC_HOLD_MODE =
      1 :=
  ⟨withF F.REC_HOLD_MODE 1 (withF F.REC_STAT_STATE 4 (hub [0x28])), by decide +kernel⟩

theorem met_RecorderCommands_4 :
    ∃ (s : State) (p : Path), s.Reaches p Pg.REC ∧ s.isHub = true ∧ (s.recState = 1 ∨ s.recState = 2) :=
  ⟨withF F.REC_STAT_STATE 2 (hub [0x28]), .station, by decide +kernel⟩

theorem met_RecorderCommands_5 :
    ∃ (s : State) (p : Path), s.Reaches p Pg.REC ∧ s.isHub = true ∧ (s.recState = 0 ∨ s.recState = 5) :=
  ⟨withF F.REC_STAT_STATE 5 (hub [0x28]), .station, by decide +kernel⟩

theorem met_RecorderCommands_6 :
    ∃ (s : State) (p : Path) (i : Nat), s.Reaches p Pg.REC ∧ s.isHub = true ∧ i < 16 ∧ s.segState i = 3 ∧ s.recState
      ≠ 5 ∧ s.memErr = [] ∧ s.get F.ERR_INJ_NBIT = 0 :=
  ⟨withWord 0x303FF040 3 (hub [0x28]), .station, 1, by decide +kernel⟩

theorem met_RecorderCommands_7 :
    ∃ (s : State) (p : Path) (i : Nat), s.Reaches p Pg.REC ∧ s.isHub = true ∧ i < 16 ∧ (s.segState i = 1 ∨
      s.segState i = 2) :=
  ⟨withWord 0x303FF040 1 (hub [0x28]), .station, 1, by decide +kernel⟩

theorem met_RecorderCommands_8 :
    ∃ (s : State) (p : Path), s.Reaches p Pg.REC ∧ s.isHub = true ∧ s.recState ≠ 5 ∧ s.memErr = [] ∧ s.get
      F.ERR_INJ_NBIT = 0 :=
  ⟨withWord 0x303FF040 3 (hub [0x28]), .station, by decide +kernel⟩

theorem met_RecorderCommands_9 :
    ∃ (s : State) (p : Path), s.Reaches p Pg.REC ∧ s.isCell = true ∧ s.is F.REC_BBSTAT_FROZEN = true ∧ s.get
      F.REC_BBSTAT_WHY ≠ 6 :=
  ⟨withF F.REC_BBSTAT_FROZEN 1 (cell [0x28]), .remote false false, by decide +kernel⟩

theorem met_RecorderCommands_10 :
    ∃ (s : State) (p : Path) (k : Nat), s.Reaches p (Pg.MON k) ∧ k < 2 :=
  ⟨{ hub [0x29, 0x2A] with mon := [(33, { mn := -4, mx := 9, sum := 5, count := 2, bins := [(0, 2)] })] }, .station,
    1, by decide +kernel⟩

theorem met_RecorderCommands_11 :
    ∃ (s : State) (p : Path) (d : Word), s.Reaches p (Pg.MON 0) ∧ s.is (F.LT_CTL_LOCK 0) = false ∧ getBits d 0 4 <
      12 :=
  ⟨(hub [0x29]).setReg (R.LT_ADDLO 0) 70000, .station, 11, by decide +kernel⟩

theorem met_RecorderCommands_12 :
    ∃ (s : State) (p : Path) (d : Word), s.Reaches p (Pg.MON 0) ∧ (s.is (F.LT_CTL_LOCK 0) = true ∨ 12 ≤ getBits d 0
      4) :=
  ⟨withF (F.LT_CTL_LOCK 0) 1 (hub [0x29]), .station, 11, by decide +kernel⟩

theorem met_RecorderCommands_13 :
    ∃ (s : State) (p : Path), s.Reaches p (Pg.MON 0) :=
  ⟨hub [0x29], .station, by decide +kernel⟩

theorem met_RecorderCommands_14 :
    ∃ (s : State), s.alive = true ∧ sFinite (s.win 8).mean = true ∧ (s.reg (R.LT_CNT_LO 0 (2 + tempBin (sVal (s.win
      8).mean).floor))).toNat < 2 ^ 32 - 1 :=
  ⟨cell [], by decide +kernel⟩

theorem met_RecorderCommands_15 :
    ∃ (s : State), s.alive = true ∧ (sFinite (s.reg (R.LT_CAPIN 0)) && sLt 0 (s.reg (R.LT_CAPIN 0))) = true ∧ (s.reg
      (R.LT_CNT_LO 0 11)).toNat < 2 ^ 32 - 1 :=
  ⟨(cell []).setReg (R.LT_CAPIN 0) 0x3C23D70A, by decide +kernel⟩

theorem met_RecorderCommands_16 :
    ∃ (s : State), s.Settled ∧ (sFinite (s.reg (R.LT_CAPIN 0)) && sLt 0 (s.reg (R.LT_CAPIN 0))) = false :=
  ⟨cell [], by decide +kernel⟩

theorem witness_RecorderCommands :
    (∃ (s : State) (c : RecChunk) (l : List RecChunk), s.alive = true ∧ s.isHub = true ∧ s.recd.full = c :: l ∧
      s.recd.tail = [] ∧ (s.sch.svc.any fun it => it.queue == 6 && it.hw && it.flow == c.seq) = true ∧ s.memErr = []
      ∧ s.get F.ERR_INJ_NBIT = 0 ∧ s.segBase c.seg + c.off + c.data.length ≤ 0x303FF000) ∧
    (∃ (s : State) (c : RecChunk) (l : List RecChunk), s.alive = true ∧ s.isHub = true ∧ s.recd.full = c :: l ∧
      s.recd.tail = [] ∧ (s.sch.svc.any fun it => it.queue == 6 && it.hw && it.flow == c.seq) = true ∧ s.memErr = []
      ∧ s.get F.ERR_INJ_NBIT = 0 ∧ s.segBase c.seg + c.off + c.data.length ≤ 0x303FF000 ∧ s.is F.REC_CFG_STRM =
      true) ∧
    (∃ (s : State), s.alive = true ∧ s.isHub = true ∧ s.runs Pg.REC = true ∧ s.recState = 4 ∧ s.get F.REC_HOLD_MODE
      = 1) ∧
    (∃ (s : State) (p : Path), s.Reaches p Pg.REC ∧ s.isHub = true ∧ (s.recState = 1 ∨ s.recState = 2)) ∧
    (∃ (s : State) (p : Path), s.Reaches p Pg.REC ∧ s.isHub = true ∧ (s.recState = 0 ∨ s.recState = 5)) ∧
    (∃ (s : State) (p : Path) (i : Nat), s.Reaches p Pg.REC ∧ s.isHub = true ∧ i < 16 ∧ s.segState i = 3 ∧
      s.recState ≠ 5 ∧ s.memErr = [] ∧ s.get F.ERR_INJ_NBIT = 0) ∧
    (∃ (s : State) (p : Path) (i : Nat), s.Reaches p Pg.REC ∧ s.isHub = true ∧ i < 16 ∧ (s.segState i = 1 ∨
      s.segState i = 2)) ∧
    (∃ (s : State) (p : Path), s.Reaches p Pg.REC ∧ s.isHub = true ∧ s.recState ≠ 5 ∧ s.memErr = [] ∧ s.get
      F.ERR_INJ_NBIT = 0) ∧
    (∃ (s : State) (p : Path), s.Reaches p Pg.REC ∧ s.isCell = true ∧ s.is F.REC_BBSTAT_FROZEN = true ∧ s.get
      F.REC_BBSTAT_WHY ≠ 6) ∧
    (∃ (s : State) (p : Path) (k : Nat), s.Reaches p (Pg.MON k) ∧ k < 2) ∧
    (∃ (s : State) (p : Path) (d : Word), s.Reaches p (Pg.MON 0) ∧ s.is (F.LT_CTL_LOCK 0) = false ∧ getBits d 0 4 <
      12) ∧
    (∃ (s : State) (p : Path) (d : Word), s.Reaches p (Pg.MON 0) ∧ (s.is (F.LT_CTL_LOCK 0) = true ∨ 12 ≤ getBits d 0
      4)) ∧
    (∃ (s : State) (p : Path), s.Reaches p (Pg.MON 0)) ∧
    (∃ (s : State), s.alive = true ∧ sFinite (s.win 8).mean = true ∧ (s.reg (R.LT_CNT_LO 0 (2 + tempBin (sVal (s.win
      8).mean).floor))).toNat < 2 ^ 32 - 1) ∧
    (∃ (s : State), s.alive = true ∧ (sFinite (s.reg (R.LT_CAPIN 0)) && sLt 0 (s.reg (R.LT_CAPIN 0))) = true ∧
      (s.reg (R.LT_CNT_LO 0 11)).toNat < 2 ^ 32 - 1) ∧
    (∃ (s : State), s.Settled ∧ (sFinite (s.reg (R.LT_CAPIN 0)) && sLt 0 (s.reg (R.LT_CAPIN 0))) = false) :=
  ⟨met_RecorderCommands_1, met_RecorderCommands_2, met_RecorderCommands_3, met_RecorderCommands_4,
    met_RecorderCommands_5, met_RecorderCommands_6, met_RecorderCommands_7, met_RecorderCommands_8,
    met_RecorderCommands_9, met_RecorderCommands_10, met_RecorderCommands_11, met_RecorderCommands_12,
    met_RecorderCommands_13, met_RecorderCommands_14, met_RecorderCommands_15, met_RecorderCommands_16⟩

theorem met_StationFrames_1 :
    ∃ (s : State) (p : Nat), s.stnOn = true ∧ p < 2 ∧ s.linkUp p = false :=
  ⟨hub [0x0C], 0, by decide +kernel⟩

theorem met_StationFrames_2 :
    ∃ (s : State) (p : Nat), s.stnOn = true ∧ s.isHub = true ∧ p < 2 ∧ s.linkUp p = false ∧ (p = 0 ∨ s.is
      F.STN_CFG_PRP = true) :=
  ⟨hub [0x0C], 0, by decide +kernel⟩

theorem met_StationFrames_3 :
    ∃ (s : State) (p : Nat), s.stnOn = true ∧ p < 2 ∧ s.linkUp p = true :=
  ⟨stnHub, 0, by decide +kernel⟩

theorem met_StationFrames_4 :
    ∃ (s : State) (f : EthRx) (str : List Byte), s.stnOn = true ∧ s.EthTaken f ∧ s.stnKind f = .kx ∧ s.destTaken
      (innerBody f) = true ∧ etolwickFmt (innerBody f) = true ∧ etolwickBody (innerBody f) = str ∧ s.stn.keys.priv ≠
      0 ∧ kxSound str (pubOf s.stn.keys.priv ++ kxEph str) = true ∧ s.isPeer (keyId (kxPub str)) 1 = true ∧ (ecdhX
      s.stn.keys.priv (kxEph str)).isSome = true :=
  ⟨kxHub, eth 0x88B5 ([5, 1, 0, 0] ++ beBytes 6 0 ++ beBytes 2 192 ++ stnKxh ++ List.replicate 8 0), stnKxh,
    by decide +kernel⟩

theorem met_StationFrames_5 :
    ∃ (s : State) (f : EthRx), s.stnOn = true ∧ s.EthTaken f ∧ s.stnKind f = .setpoint ∧ s.destTaken (innerBody f) =
      true ∧ etolwickFmt (innerBody f) = true ∧ s.spFmt (etolwickBody (innerBody f)) = true ∧ s.stnTagOk (innerBody
      f) = true ∧ s.seqNew (beAt (innerBody f) 4 6) = true ∧ beAt (innerBody f) 4 6 < 2 ^ 40 :=
  ⟨stnHub, etolwick 1 (List.replicate 32 0), by decide +kernel⟩

theorem met_StationFrames_6 :
    ∃ (s : State) (f : EthRx), s.stnOn = true ∧ s.EthTaken f ∧ s.stnKind f = .setpoint ∧ s.destTaken (innerBody f) =
      true ∧ etolwickFmt (innerBody f) = true ∧ s.spFmt (etolwickBody (innerBody f)) = true ∧ s.stnTagOk (innerBody
      f) = false :=
  ⟨{ stnHub with stn := {} }, etolwick 1 (List.replicate 32 0), by decide +kernel⟩

theorem met_StationFrames_7 :
    ∃ (s : State), s.stnOn = true ∧ s.is F.STN_STAT_SPF = true :=
  ⟨withF F.STN_STAT_SPF 1 stnHub, by decide +kernel⟩

theorem met_StationFrames_8 :
    ∃ (s : State) (f : EthRx) (c : Nat) (a : Nat × Nat × List Byte), s.stnOn = true ∧ s.EthTaken f ∧ s.stnKind f =
      .sv c ∧ c < s.stn.sv.length ∧ svAsdus (innerBody f) = [a] ∧ a.2.2.length = 64 :=
  ⟨withF (F.STN_SVCFG_EN 0) 1 (withF (F.STN_SVCFG_APPID 0) 7 (stnHub.setReg (R.STN_SVSRCL 0) 9)), eth 0x88BA svBody,
    0, (3, 2, List.replicate 64 0), by decide +kernel⟩

theorem met_StationFrames_9 :
    ∃ (s : State) (c : Nat), s.stnOn = true ∧ s.isHub = true ∧ c < 4 ∧ s.is (F.STN_SVCFG_EN c) = true :=
  ⟨withF (F.STN_SVCFG_EN 3) 1 stnHub, 3, by decide +kernel⟩

theorem met_StationFrames_10 :
    ∃ (s : State) (f : EthRx), s.stnOn = true ∧ s.EthTaken f ∧ s.stnKind f = .other ∧ (s.get F.STN_RXPTR_HEAD + 1) %
      32 ≠ s.get F.STN_RXPTR_TAIL ∧ s.memErr = [] ∧ s.get F.ERR_INJ_NBIT = 0 ∧ s.isProtected ((s.reg
      R.STN_RXBASE).toNat + 2048 * s.get F.STN_RXPTR_HEAD) (f.body.length + 18) = false :=
  ⟨stnHub, eth 0x88F7 [1, 2, 3, 4], by decide +kernel⟩

theorem met_StationFrames_11 :
    ∃ (s : State) (f : EthRx), s.stnOn = true ∧ s.EthTaken f ∧ s.stnKind f = .other ∧ (s.get F.STN_RXPTR_HEAD + 1) %
      32 = s.get F.STN_RXPTR_TAIL :=
  ⟨withF F.STN_RXPTR_TAIL 1 stnHub, eth 0x88F7 [1, 2, 3, 4], by decide +kernel⟩

theorem witness_StationFrames :
    (∃ (s : State) (p : Nat), s.stnOn = true ∧ p < 2 ∧ s.linkUp p = false) ∧
    (∃ (s : State) (p : Nat), s.stnOn = true ∧ s.isHub = true ∧ p < 2 ∧ s.linkUp p = false ∧ (p = 0 ∨ s.is
      F.STN_CFG_PRP = true)) ∧
    (∃ (s : State) (p : Nat), s.stnOn = true ∧ p < 2 ∧ s.linkUp p = true) ∧
    (∃ (s : State) (f : EthRx) (str : List Byte), s.stnOn = true ∧ s.EthTaken f ∧ s.stnKind f = .kx ∧ s.destTaken
      (innerBody f) = true ∧ etolwickFmt (innerBody f) = true ∧ etolwickBody (innerBody f) = str ∧ s.stn.keys.priv ≠
      0 ∧ kxSound str (pubOf s.stn.keys.priv ++ kxEph str) = true ∧ s.isPeer (keyId (kxPub str)) 1 = true ∧ (ecdhX
      s.stn.keys.priv (kxEph str)).isSome = true) ∧
    (∃ (s : State) (f : EthRx), s.stnOn = true ∧ s.EthTaken f ∧ s.stnKind f = .setpoint ∧ s.destTaken (innerBody f)
      = true ∧ etolwickFmt (innerBody f) = true ∧ s.spFmt (etolwickBody (innerBody f)) = true ∧ s.stnTagOk
      (innerBody f) = true ∧ s.seqNew (beAt (innerBody f) 4 6) = true ∧ beAt (innerBody f) 4 6 < 2 ^ 40) ∧
    (∃ (s : State) (f : EthRx), s.stnOn = true ∧ s.EthTaken f ∧ s.stnKind f = .setpoint ∧ s.destTaken (innerBody f)
      = true ∧ etolwickFmt (innerBody f) = true ∧ s.spFmt (etolwickBody (innerBody f)) = true ∧ s.stnTagOk
      (innerBody f) = false) ∧
    (∃ (s : State), s.stnOn = true ∧ s.is F.STN_STAT_SPF = true) ∧
    (∃ (s : State) (f : EthRx) (c : Nat) (a : Nat × Nat × List Byte), s.stnOn = true ∧ s.EthTaken f ∧ s.stnKind f =
      .sv c ∧ c < s.stn.sv.length ∧ svAsdus (innerBody f) = [a] ∧ a.2.2.length = 64) ∧
    (∃ (s : State) (c : Nat), s.stnOn = true ∧ s.isHub = true ∧ c < 4 ∧ s.is (F.STN_SVCFG_EN c) = true) ∧
    (∃ (s : State) (f : EthRx), s.stnOn = true ∧ s.EthTaken f ∧ s.stnKind f = .other ∧ (s.get F.STN_RXPTR_HEAD + 1)
      % 32 ≠ s.get F.STN_RXPTR_TAIL ∧ s.memErr = [] ∧ s.get F.ERR_INJ_NBIT = 0 ∧ s.isProtected ((s.reg
      R.STN_RXBASE).toNat + 2048 * s.get F.STN_RXPTR_HEAD) (f.body.length + 18) = false) ∧
    (∃ (s : State) (f : EthRx), s.stnOn = true ∧ s.EthTaken f ∧ s.stnKind f = .other ∧ (s.get F.STN_RXPTR_HEAD + 1)
      % 32 = s.get F.STN_RXPTR_TAIL) :=
  ⟨met_StationFrames_1, met_StationFrames_2, met_StationFrames_3, met_StationFrames_4, met_StationFrames_5,
    met_StationFrames_6, met_StationFrames_7, met_StationFrames_8, met_StationFrames_9, met_StationFrames_10,
    met_StationFrames_11⟩

theorem met_StationTransactions_1 :
    ∃ (s : State) (f : EthRx) (r : StnRec), s.stnOn = true ∧ s.isHub = true ∧ s.EthTaken f ∧ s.stnKind f = .mgmt ∧
      s.destTaken (innerBody f) = true ∧ etolwickFmt (innerBody f) = true ∧ requestOf (etolwickBody (innerBody f)) =
      some [r] ∧ s.stnTagOk (innerBody f) = true ∧ s.seqNew (beAt (innerBody f) 4 6) = true ∧ beAt (innerBody f) 4 6
      < 2 ^ 40 ∧ r.valid = true ∧ r.op = 1 ∧ (s.sch.held.any fun h => h.1 == 4) = false :=
  ⟨stnHub, etolwick 2 [0, 9, 1, 0, 0, 0, 0, 0x40], ⟨9, 1, 1, 0, 0x40, [], none⟩, by decide +kernel⟩

theorem met_StationTransactions_2 :
    ∃ (s : State) (f : EthRx) (r : StnRec), s.stnOn = true ∧ s.isHub = true ∧ s.EthTaken f ∧ s.stnKind f = .mgmt ∧
      s.destTaken (innerBody f) = true ∧ etolwickFmt (innerBody f) = true ∧ requestOf (etolwickBody (innerBody f)) =
      some [r] ∧ s.stnTagOk (innerBody f) = true ∧ s.seqNew (beAt (innerBody f) 4 6) = true ∧ beAt (innerBody f) 4 6
      < 2 ^ 40 ∧ r.valid = true ∧ r.op = 0x81 ∧ r.node / 1024 ≠ s.hubNo ∧ (s.sch.held.any fun h => h.1 == 4) = false :=
  ⟨stnHub, etolwick 2 [0, 9, 0x81, 0, 4, 0, 0, 0x40], ⟨9, 0x81, 1, 1024, 0x40, [], none⟩, by decide +kernel⟩

theorem met_StationTransactions_3 :
    ∃ (s : State) (q : Nat) (x : StnReq), s.stnOn = true ∧ kvFind s.stn.reqs q = some x ∧ (x.recs.all fun r =>
      r.ans.isSome) = true ∧ s.stn.txq = [] ∧ s.stnPorts.all (fun p => s.laneSends (6 + p)) = true ∧
      s.stn.keys.txSeq + 1 < 2 ^ 40 :=
  ⟨{ stnHub with stn := { stnHub.stn with reqs := [(3, ⟨9, [⟨9, 1, 1, 0, 0x40, [], some (0, 0, [1, 2, 3, 4])⟩]⟩)] } },
    3, ⟨9, [⟨9, 1, 1, 0, 0x40, [], some (0, 0, [1, 2, 3, 4])⟩]⟩, by decide +kernel⟩

theorem met_StationTransactions_4 :
    ∃ (s : State) (p : Path) (i : Nat), s.Reaches p Pg.STN ∧ s.stnOn = true ∧ i < 32 ∧ s.stn.txq = [] ∧ s.memErr =
      [] ∧ s.stnPorts.all (fun q => s.laneSends (6 + q)) = true ∧ bitOf (s.txDesc i).2.1 12 = false ∧ bitOf
      (s.txDesc i).2.1 13 = false ∧ bitOf (s.txDesc i).2.1 14 = false :=
  ⟨withWord 0x201D0010 0x20180000 (withWord 0x201D0014 60 stnHub), .station, 1, by decide +kernel⟩

theorem met_StationTransactions_5 :
    ∃ (s : State) (p : Path) (i : Nat), s.Reaches p Pg.STN ∧ s.stnOn = true ∧ i < 32 ∧ s.stn.txq = [] ∧ bitOf
      (s.txDesc i).2.1 12 = true ∧ s.now + 2000 * unitsPerNs ≤ (s.txDesc i).2.2 :=
  ⟨withWord 0x201D001C 5 (withWord 0x201D0014 0x103C stnHub), .station, 1, by decide +kernel⟩

theorem met_StationTransactions_6 :
    ∃ (s : State) (i : Nat), s.stnOn = true ∧ s.runs Pg.TIME = true ∧ s.stn.txq = [i] ∧ s.stn.later = [] ∧ s.memErr
      = [] ∧ s.stnPorts.all (fun p => s.laneSends (6 + p)) = true ∧ bitOf (s.txDesc i).2.1 12 = true ∧ bitOf
      (s.txDesc i).2.1 13 = false ∧ bitOf (s.txDesc i).2.1 14 = false :=
  ⟨{ withWord 0x201D001C 5 (withWord 0x201D0014 0x103C stnHub) with stn := { stnHub.stn with txq := [1] } }, 1,
    by decide +kernel⟩

theorem met_StationTransactions_7 :
    ∃ (s : State) (c : StnChunk) (l : List StnChunk), s.stnOn = true ∧ s.isHub = true ∧ s.stn.strm = c :: l ∧
      (s.stnPorts = [] ∨ s.is F.STN_STAT_KEYED = false) :=
  ⟨{ hub [0x0C] with stn := { strm := [⟨5, 0x30000000, false⟩] } }, ⟨5, 0x30000000, false⟩, [], by decide +kernel⟩

theorem met_StationTransactions_8 :
    ∃ (s : State) (c : StnChunk) (l : List StnChunk), s.stnOn = true ∧ s.isHub = true ∧ s.stn.strm = c :: l ∧
      s.stnPorts ≠ [] ∧ s.is F.STN_STAT_KEYED = true ∧ s.memErr = [] ∧ s.stn.txq = [] ∧ s.stnPorts.all (fun p =>
      s.laneSends (6 + p)) = true ∧ s.stn.keys.txSeq + 4 < 2 ^ 40 :=
  ⟨{ stnHub with stn := { stnHub.stn with strm := [⟨5, 0x30000000, false⟩] } }, ⟨5, 0x30000000, false⟩, [],
    by decide +kernel⟩

theorem met_StationTransactions_9 :
    ∃ (s : State), s.stnOn = true ∧ s.is F.STN_CFG_PRP = true ∧ s.stn.txq = [] ∧ s.stnPorts.all (fun p =>
      s.laneSends (6 + p)) = true :=
  ⟨stnHub, by decide +kernel⟩

theorem met_StationTransactions_10 :
    ∃ (s : State) (p : Path), s.Reaches p Pg.STN ∧ s.stnOn = true ∧ s.isHub = true ∧ s.stn.txq = [] ∧ s.stnPorts.all
      (fun q => s.laneSends (6 + q)) = true :=
  ⟨stnHub, .station, by decide +kernel⟩

theorem met_StationTransactions_11 :
    ∃ (s : State) (p : Path), s.Reaches p Pg.STN :=
  ⟨stnHub, .station, by decide +kernel⟩

theorem witness_StationTransactions :
    (∃ (s : State) (f : EthRx) (r : StnRec), s.stnOn = true ∧ s.isHub = true ∧ s.EthTaken f ∧ s.stnKind f = .mgmt ∧
      s.destTaken (innerBody f) = true ∧ etolwickFmt (innerBody f) = true ∧ requestOf (etolwickBody (innerBody f)) =
      some [r] ∧ s.stnTagOk (innerBody f) = true ∧ s.seqNew (beAt (innerBody f) 4 6) = true ∧ beAt (innerBody f) 4 6
      < 2 ^ 40 ∧ r.valid = true ∧ r.op = 1 ∧ (s.sch.held.any fun h => h.1 == 4) = false) ∧
    (∃ (s : State) (f : EthRx) (r : StnRec), s.stnOn = true ∧ s.isHub = true ∧ s.EthTaken f ∧ s.stnKind f = .mgmt ∧
      s.destTaken (innerBody f) = true ∧ etolwickFmt (innerBody f) = true ∧ requestOf (etolwickBody (innerBody f)) =
      some [r] ∧ s.stnTagOk (innerBody f) = true ∧ s.seqNew (beAt (innerBody f) 4 6) = true ∧ beAt (innerBody f) 4 6
      < 2 ^ 40 ∧ r.valid = true ∧ r.op = 0x81 ∧ r.node / 1024 ≠ s.hubNo ∧ (s.sch.held.any fun h => h.1 == 4) =
      false) ∧
    (∃ (s : State) (q : Nat) (x : StnReq), s.stnOn = true ∧ kvFind s.stn.reqs q = some x ∧ (x.recs.all fun r =>
      r.ans.isSome) = true ∧ s.stn.txq = [] ∧ s.stnPorts.all (fun p => s.laneSends (6 + p)) = true ∧
      s.stn.keys.txSeq + 1 < 2 ^ 40) ∧
    (∃ (s : State) (p : Path) (i : Nat), s.Reaches p Pg.STN ∧ s.stnOn = true ∧ i < 32 ∧ s.stn.txq = [] ∧ s.memErr =
      [] ∧ s.stnPorts.all (fun q => s.laneSends (6 + q)) = true ∧ bitOf (s.txDesc i).2.1 12 = false ∧ bitOf
      (s.txDesc i).2.1 13 = false ∧ bitOf (s.txDesc i).2.1 14 = false) ∧
    (∃ (s : State) (p : Path) (i : Nat), s.Reaches p Pg.STN ∧ s.stnOn = true ∧ i < 32 ∧ s.stn.txq = [] ∧ bitOf
      (s.txDesc i).2.1 12 = true ∧ s.now + 2000 * unitsPerNs ≤ (s.txDesc i).2.2) ∧
    (∃ (s : State) (i : Nat), s.stnOn = true ∧ s.runs Pg.TIME = true ∧ s.stn.txq = [i] ∧ s.stn.later = [] ∧ s.memErr
      = [] ∧ s.stnPorts.all (fun p => s.laneSends (6 + p)) = true ∧ bitOf (s.txDesc i).2.1 12 = true ∧ bitOf
      (s.txDesc i).2.1 13 = false ∧ bitOf (s.txDesc i).2.1 14 = false) ∧
    (∃ (s : State) (c : StnChunk) (l : List StnChunk), s.stnOn = true ∧ s.isHub = true ∧ s.stn.strm = c :: l ∧
      (s.stnPorts = [] ∨ s.is F.STN_STAT_KEYED = false)) ∧
    (∃ (s : State) (c : StnChunk) (l : List StnChunk), s.stnOn = true ∧ s.isHub = true ∧ s.stn.strm = c :: l ∧
      s.stnPorts ≠ [] ∧ s.is F.STN_STAT_KEYED = true ∧ s.memErr = [] ∧ s.stn.txq = [] ∧ s.stnPorts.all (fun p =>
      s.laneSends (6 + p)) = true ∧ s.stn.keys.txSeq + 4 < 2 ^ 40) ∧
    (∃ (s : State), s.stnOn = true ∧ s.is F.STN_CFG_PRP = true ∧ s.stn.txq = [] ∧ s.stnPorts.all (fun p =>
      s.laneSends (6 + p)) = true) ∧
    (∃ (s : State) (p : Path), s.Reaches p Pg.STN ∧ s.stnOn = true ∧ s.isHub = true ∧ s.stn.txq = [] ∧
      s.stnPorts.all (fun q => s.laneSends (6 + q)) = true) ∧
    (∃ (s : State) (p : Path), s.Reaches p Pg.STN) :=
  ⟨met_StationTransactions_1, met_StationTransactions_2, met_StationTransactions_3, met_StationTransactions_4,
    met_StationTransactions_5, met_StationTransactions_6, met_StationTransactions_7, met_StationTransactions_8,
    met_StationTransactions_9, met_StationTransactions_10, met_StationTransactions_11⟩

theorem met_FramesOfPlainRows_3 :
    ∃ (port : Nat), port < 4 :=
  ⟨0, by decide +kernel⟩

theorem met_FramesOfPlainRows_4 :
    ∃ (n : Nat), n < 8 :=
  ⟨0, by decide +kernel⟩

theorem met_FramesOfPlainRows_10 :
    ∃ (lane : Nat), lane < 8 :=
  ⟨0, by decide +kernel⟩

theorem met_FramesOfPlainRows_18 :
    ∃ (port : Nat), port < 2 :=
  ⟨0, by decide +kernel⟩

theorem met_FramesOfPlainRows_34 :
    ∃ (inj : Nat), inj < 2 :=
  ⟨0, by decide +kernel⟩

theorem met_FramesOfPlainRows_37 :
    ∃ (n : Nat), n < 6 :=
  ⟨0, by decide +kernel⟩

theorem met_FramesOfPlainRows_40 :
    ∃ (q : Nat), q < 32 :=
  ⟨0, by decide +kernel⟩

theorem met_FramesOfPlainRows_48 :
    ∃ (dom : Nat), dom < 4 :=
  ⟨0, by decide +kernel⟩

theorem witness_FramesOfPlainRows :
    (∃ (port : Nat), port < 4) ∧
    (∃ (n : Nat), n < 8) ∧
    (∃ (lane : Nat), lane < 8) ∧
    (∃ (port : Nat), port < 2) ∧
    (∃ (inj : Nat), inj < 2) ∧
    (∃ (n : Nat), n < 6) ∧
    (∃ (q : Nat), q < 32) ∧
    (∃ (dom : Nat), dom < 4) :=
  ⟨met_FramesOfPlainRows_3, met_FramesOfPlainRows_4, met_FramesOfPlainRows_10, met_FramesOfPlainRows_18,
    met_FramesOfPlainRows_34, met_FramesOfPlainRows_37, met_FramesOfPlainRows_40, met_FramesOfPlainRows_48⟩

theorem met_FlushCancels_1 :
    ∃ (s : State) (p : Path) (q : Nat), s.pathOpen p = true ∧ q < 32 :=
  ⟨{ hub [] with sch := { queues := [(31, [⟨3, 1, 2, 3, 31, none, false, 0, false, false⟩])] } }, .station, 31,
    by decide +kernel⟩

theorem met_FlushCancels_2 :
    ∃ (s : State) (p : Path) (q : Nat) (it : Item), s.pathOpen p = true ∧ q < 32 ∧ it.queue = q ∧
      (s.sch.queues.flatMap (·.2) ++ s.sch.lists.flatten).filter (fun x => x.slot == it.slot) = [it] :=
  ⟨{ hub [] with sch := { queues := [(31, [⟨3, 1, 2, 3, 31, none, false, 0, false, false⟩])] } }, .station, 31, ⟨3,
    1, 2, 3, 31, none, false, 0, false, false⟩, by decide +kernel⟩

theorem witness_FlushCancels :
    (∃ (s : State) (p : Path) (q : Nat), s.pathOpen p = true ∧ q < 32) ∧
    (∃ (s : State) (p : Path) (q : Nat) (it : Item), s.pathOpen p = true ∧ q < 32 ∧ it.queue = q ∧
      (s.sch.queues.flatMap (·.2) ++ s.sch.lists.flatten).filter (fun x => x.slot == it.slot) = [it]) :=
  ⟨met_FlushCancels_1, met_FlushCancels_2⟩

theorem witness_ResetKeepsErrorLog :
    (∃ (s : State), s.pins.nRst = true ∧ s.phase ≠ .held) ∧
    (∃ (s : State), s.wdtRuns = true ∧ s.get F.CPU_WDT_STAT_STAGE2 = 1) ∧
    (∃ (s : State), s.supOn = true) ∧
    (∃ (s : State), s.alive = true) :=
  ⟨met_SupplyCommands_6, met_SupervisorCommands_8, met_SupervisorCommands_4, met_SupervisorCommands_11⟩

theorem met_HostReleaseIgnored_1 :
    ∃ (s : State), s.is F.HOST_REL_PEND = true :=
  ⟨withF F.HOST_REL_PEND 1 (hub []), by decide +kernel⟩

theorem witness_HostReleaseIgnored :
    ∃ (s : State), s.is F.HOST_REL_PEND = true := met_HostReleaseIgnored_1

theorem met_ClockSourceWrites_1 :
    ∃ (s : State) (m : Nat), m < 5 ∧ s.is (F.CLK_MON_STAT_FAIL m) = true ∧ bitOf (s.get F.CLK_FAIL_SRCF) m = true :=
  ⟨withF (F.CLK_MON_STAT_FAIL 4) 1 (withF F.CLK_FAIL_SRCF 0x1F (hub [])), 4, by decide +kernel⟩

theorem met_ClockSourceWrites_3 :
    ∃ (s : State) (path : Path) (data : Word), s.Reaches path Pg.CLK ∧ s.is F.CLK_SRC_XOSC_EN = true ∧ s.feeds 2 =
      true ∧ getBits data 0 1 = 0 :=
  ⟨withF F.CLK_SRC_XOSC_EN 1 (withF (F.CLK_DOM_CURSRC 3) 2 (hub [])), .station, 0x112, by decide +kernel⟩

theorem met_ClockSourceWrites_4 :
    ∃ (s : State) (path : Path) (data : Word), s.Reaches path Pg.CLK ∧ s.is F.CLK_SRC_SPLL_EN = true ∧ s.feeds 1 =
      true ∧ getBits data 2 1 = 0 :=
  ⟨withF F.CLK_SRC_SPLL_EN 1 (withF (F.CLK_DOM_CURSRC 3) 1 (hub [])), .station, 0x112, by decide +kernel⟩

theorem witness_ClockSourceWrites :
    (∃ (s : State) (m : Nat), m < 5 ∧ s.is (F.CLK_MON_STAT_FAIL m) = true ∧ bitOf (s.get F.CLK_FAIL_SRCF) m = true) ∧
    (∃ (s : State) (path : Path) (data : Word), s.Reaches path Pg.CLK ∧ s.is F.CLK_SRC_XOSC_EN = true ∧ s.feeds 2 =
      true ∧ getBits data 0 1 = 0) ∧
    (∃ (s : State) (path : Path) (data : Word), s.Reaches path Pg.CLK ∧ s.is F.CLK_SRC_SPLL_EN = true ∧ s.feeds 1 =
      true ∧ getBits data 2 1 = 0) :=
  ⟨met_ClockSourceWrites_1, met_ClockSourceWrites_3, met_ClockSourceWrites_4⟩

theorem met_StepKeepsSafety_1 :
    ∃ (s : State), s.CellSafe ∧ s.HubSafe :=
  ⟨{ cell [] with pending := [.thyDone] }, by decide +kernel⟩

theorem witness_StepKeepsSafety :
    ∃ (s : State), s.CellSafe ∧ s.HubSafe := met_StepKeepsSafety_1

theorem witness_StepSettles :
    ∃ (s : State), s.Settled := met_SupplyCommands_4

theorem met_MemoryStaysCanonical_1 :
    ∃ (s : State), Memory.wf s.mem = true :=
  ⟨{ withWord 0x20000000 7 (hub []) with pending := [.arbiterGrant []] }, by decide +kernel⟩

theorem witness_MemoryStaysCanonical :
    ∃ (s : State), Memory.wf s.mem = true := met_MemoryStaysCanonical_1

theorem met_PermanentBypassStays_1 :
    ∃ (s : State), s.gate.pbyp = true ∧ s.pending.head? ≠ some .powerOnReset ∧ s.pending.head? ≠ some .vddioBelow1v2 :=
  ⟨{ cell [] with gate := { pbyp := true }, pending := [.nrstAssert] }, by decide +kernel⟩

theorem witness_PermanentBypassStays :
    ∃ (s : State), s.gate.pbyp = true ∧ s.pending.head? ≠ some .powerOnReset ∧ s.pending.head? ≠ some .vddioBelow1v2 := met_PermanentBypassStays_1

theorem witness_CompletesSystem :
    (∃ (s : State), s.Settled) ∧
    (∃ (s : State), s.pins.nRst = true ∧ s.phase ≠ .held) ∧
    (∃ (s : State), s.pins.nRst = false) ∧
    (∃ (s : State), s.Settled ∧ s.phase = .pullUp) ∧
    (∃ (s : State) (band : RoleBand), s.phase = .pullDown ∧ strapOf s.pins.roleUp band < 3 ∧ ¬ (s.grade = .c ∧
      strapOf s.pins.roleUp band = 1)) ∧
    (∃ (s : State) (i : Nat), s.phase = .rom ∧ s.boot.ownerChange = false ∧ s.boot.trying = some i ∧ i < 2 ∧
      s.containerWhy (s.slotImage i) s.flashOwner = 0) ∧
    (∃ (s : State), s.phase = .recovery ∧ s.isCell = false ∧ s.boot.flash = true ∧ s.idRecord.isSome = true) ∧
    (∃ (s : State) (c : List Byte), s.phase = .rom ∧ s.isCell = true ∧ s.boot.treeBoot = true ∧ s.boot.treeWhy = 0 ∧
      s.boot.ownerChange = false ∧ s.idFailed = false ∧ s.treeImage 0 = some c ∧ s.containerWhy c (s.treeKey 0) = 0) ∧
    (∃ (s : State) (i : Nat), (s.phase = .recovery ∨ (s.phase = .rom ∧ s.isCell = true)) ∧ s.boot.flash = true ∧
      s.idFailed = false ∧ s.boot.ownerChange = false ∧ s.activeSlot = none ∧ s.unusedSlot.isSome = true ∧
      s.sec.presOpen = true ∧ i < 2 ∧ s.ownerTest i = some 0 ∧ (i = 0 ∨ s.ownerTest 0 ≠ some 0)) ∧
    (∃ (s : State), s.Settled ∧ s.inRom = true ∧ s.boot.presHeld = true ∧ s.pins.presence = false ∧ s.sec.sealOpen =
      some true) ∧
    (∃ (s : State), s.inRom = true ∧ s.boot.ownerChange = true ∧ s.pins.presence = false ∧ s.sec.sealOpen = some
      true) ∧
    (∃ (s : State), s.Settled ∧ s.supOn = true) ∧
    (∃ (s : State) (l : Nat), s.supOn = true ∧ s.get F.CPU_NMI_LEVEL = l + 1 ∧ l < 2 ∧ s.get F.CPU_NMI_PEND = 0) ∧
    (∃ (s : State), s.supOn = true) ∧
    (∃ (s : State), s.wdtRuns = true ∧ s.get F.CPU_WDT_STAT_STAGE2 = 0 ∧ s.handled < 3) ∧
    (∃ (s : State), s.wdtRuns = true ∧ s.get F.CPU_WDT_STAT_STAGE2 = 1) ∧
    (∃ (s : State), s.alive = true) ∧
    (∃ (s : State) (path : Path) (dom : Nat) (data : Word), s.Reaches path Pg.CLK ∧ dom < 4 ∧ s.get (F.CLK_DOM_RAMP
      dom) = 0 ∧ getBits data 0 2 = s.get (F.CLK_DOM_CURSRC dom) ∧ getBits data 0 2 < 2 ∧ getBits data 8 8 ≠ 0 ∧
      s.get (F.CLK_DOM_CUR dom) ≤ getBits data 8 8) ∧
    (∃ (s : State) (dom : Nat), s.alive = true ∧ dom < 4 ∧ s.get (F.CLK_DOM_RAMP dom) = 1 ∧ s.get (F.CLK_DOM_DIV
      dom) + 1 < s.get (F.CLK_DOM_CUR dom)) ∧
    (∃ (s : State) (dom : Nat), s.Settled ∧ s.alive = true ∧ dom < 4) ∧
    (∃ (s : State) (m count : Nat), s.alive = true ∧ m < 5 ∧ s.judged m = true ∧ s.withinTol m count = true ∧ count
      < 4096) ∧
    (∃ (s : State) (m : Nat), s.alive = true ∧ m < 5 ∧ s.judged m = true ∧ s.get (F.CLK_MON_STAT_FAIL m) = 0) ∧
    (∃ (s : State) (ppb : Int), s.alive = true ∧ s.runs Pg.CLK = true ∧ s.ircReference = true ∧ s.is F.CLK_IRC_AUTO
      = true ∧ 0 < s.get F.CLK_IRC_TRIM ∧ s.get F.CLK_IRC_TRIM < 255 ∧ 250000 < ppb.natAbs) ∧
    (∃ (s : State) (rings : List Nat), s.alive = true ∧ rings.length = 8 ∧ (∀ r ∈ rings, r < 4096)) ∧
    (∃ (s : State) (count : Nat), s.alive = true ∧ s.isCell = false ∧ s.is F.CLK_SRC_XOSC_EN = true ∧ s.withinTol 0
      count = true ∧ s.clk.xoscReady = false) ∧
    (∃ (s : State), s.Settled ∧ s.alive = true ∧ s.is F.CLK_SRC_SPLL_EN = true) ∧
    (∃ (s : State) (page : Nat), s.alive = true ∧ s.clk.gating.contains page = true ∧ s.lockOwner page = false) ∧
    (∃ (s : State) (page : Nat), s.alive = true ∧ s.clk.gating.contains page = true ∧ s.lockOwner page = true) ∧
    (∃ (s : State) (page : Nat), s.Settled ∧ s.alive = true ∧ page < 48 ∧ s.enabled page = true ∧ infra page = false
      ∧ s.clk.gating.contains page = false) ∧
    (∃ (s : State) (path : Path), s.Settled ∧ s.Reaches path Pg.CLK) ∧
    (∃ (s : State) (path : Path) (page : Nat), s.pathOpen path = true ∧ page < 0x30 ∧ present s.role page = true ∧
      page ≠ Pg.TIME ∧ ¬ (page = Pg.MOD ∧ s.isCell = true) ∧ s.commitsWait page = false) ∧
    (∃ (s : State) (path : Path) (page a : Nat), s.pathOpen path = true ∧ page < 0x30 ∧ present s.role page = true ∧
      page ∉ [Pg.SYS, Pg.TIME, Pg.TWIN, Pg.REF, Pg.HOST, Pg.SAFE, Pg.CPU] ∧ a / 0x400 = page ∧ keptReg a = false ∧ a
      ≠ R.PG_GUARD page) ∧
    (∃ (s : State) (path : Path) (page : Nat), s.pathOpen path = true ∧ page < 0x30 ∧ present s.role page = true) ∧
    (∃ (s : State) (page : Nat), s.Settled ∧ s.alive = true ∧ present s.role page = true ∧ s.is (F.PG_CTRL_HOLD
      page) = true ∧ (infra page = true ∨ s.runs page = true)) ∧
    (∃ (s : State) (path : Path) (page : Nat), s.Settled ∧ s.pathOpen path = true ∧ page < 0x30 ∧ present s.role
      page = true) ∧
    (∃ (s : State) (path : Path), s.Reaches path Pg.HOST ∧ s.isCell = false ∧ s.get F.HOST_CTRL_HOST = 0) ∧
    (∃ (s : State), s.Settled ∧ s.alive = true ∧ s.isCell = false ∧ s.host.bus = .handingOver) ∧
    (∃ (s : State) (addr count crc : Nat), s.hostOn = true ∧ s.host.pendCode = none ∧ crc16 ([Op.rd] ++ beBytes 2
      addr ++ beBytes 1 count) = crc % 65536) ∧
    (∃ (s : State) (addr : Nat) (words : List Word) (crc : Nat), s.hostOn = true ∧ s.host.pendCode = none ∧ words ≠
      [] ∧ crc16 ([Op.wr] ++ beBytes 2 addr ++ beBytes 1 (words.length - 1) ++ words.flatMap fun w => beBytes 4
      w.toNat) = crc % 65536) ∧
    (∃ (s : State) (addr : Nat) (mask data : Word) (crc : Nat), s.hostOn = true ∧ s.host.pendCode = none ∧ crc16
      ([Op.mwr] ++ beBytes 2 addr ++ beBytes 4 mask.toNat ++ beBytes 4 data.toNat) = crc % 65536) ∧
    (∃ (s : State) (crc : Nat), s.hostOn = true ∧ s.host.crcBad = false ∧ s.host.pendCode = none ∧ crc16 [Op.stat] =
      crc % 65536) ∧
    (∃ (s : State) (path : Path) (ms : Nat), s.Reaches path Pg.HOST ∧ s.isCell = false ∧ 0 < ms ∧ ms < 4096 ∧ s.get
      F.HOST_REL_PEND = 0) ∧
    (∃ (s : State), s.Settled ∧ s.hostOn = true ∧ s.host.relTold ≠ 0) ∧
    (∃ (s : State), s.Settled ∧ s.alive = true ∧ s.host.bus = .reclaimed) ∧
    (∃ (s : State) (path : Path) (p : Nat) (data : Word), s.Reaches path (Pg.TREE p) ∧ s.isHub = true ∧ p < 4 ∧
      (s.port p).mailbox = false ∧ s.mgmtRoom p = true ∧ getBits data 8 3 = 2 ∧ held (s.berth (256 * p + getBits
      data 0 8)) = true) ∧
    (∃ (s : State) (p tid : Nat) (r : MgmtRec), s.portRx p = true ∧ ((s.port p).opens.find? fun x => x.tid == tid) =
      some r ∧ r.src = .mailbox) ∧
    (∃ (s : State) (path : Path) (n : Nat) (data : Word), s.Reaches path Pg.GPIO ∧ n < 8 ∧ s.gpioAllowed n (getBits
      data 0 3) = true) ∧
    (∃ (s : State) (n : Nat) (level : Bool), s.alive = true ∧ n < 8 ∧ s.gpioInput n = true ∧ bitOf
      s.pins.gpioIn.toNat n ≠ level) ∧
    (∃ (s : State) (path : Path), s.Reaches path Pg.GPIO ∧ s.isCell = true ∧ s.uart.tx.length < 16 ∧ (s.uartOn =
      false ∨ s.uart.sending ≠ none)) ∧
    (∃ (s : State) (b : Byte) (l : List Byte), s.Settled ∧ s.uartOn = true ∧ s.uart.tx = b :: l) ∧
    (∃ (s : State), s.uartOn = true ∧ s.uart.rx.length < 16) ∧
    (∃ (s : State) (path : Path) (b : Byte) (l : List Byte), s.Reaches path Pg.GPIO ∧ s.isCell = true ∧ s.uart.rx =
      b :: l ∧ s.clk.gating.contains Pg.GPIO = false) ∧
    (∃ (s : State), s.Settled ∧ s.alive = true ∧ s.isCell = true ∧ s.gpioFn 2 = 0 ∧ s.ledToggles = true) :=
  ⟨met_SupplyCommands_4, met_SupplyCommands_6, met_SupplyCommands_8, met_SupplyCommands_9, met_SupplyCommands_11,
    met_RomCommands_1, met_RomCommands_4, met_RomCommands_6, met_RomCommands_7, met_RomCommands_8,
    met_RomCommands_9, met_SupervisorCommands_1, met_SupervisorCommands_3, met_SupervisorCommands_4,
    met_SupervisorCommands_7, met_SupervisorCommands_8, met_SupervisorCommands_11, met_ClockDomains_1,
    met_ClockDomains_5, met_ClockDomains_7, met_ClockSources_1, met_ClockSources_3, met_ClockSources_6,
    met_ClockSources_9, met_ClockSources_10, met_ClockSources_11, met_ClockDomains_8, met_ClockDomains_10,
    met_ClockDomains_13, met_FieldKinds_1, met_PageHeader_8, met_PageHeader_7, met_PageHeader_3, met_PageHeader_6,
    met_PageHeader_1, met_HostPort_1, met_HostPort_2, met_HostPort_3, met_HostPort_5, met_HostPort_6,
    met_HostPort_7, met_HostPort_11, met_HostPort_12, met_HostPort_13, met_BerthTable_13, met_BerthTable_12,
    met_TerminalsAndUart_1, met_TerminalsAndUart_3, met_TerminalsAndUart_4, met_TerminalsAndUart_5,
    met_TerminalsAndUart_6, met_TerminalsAndUart_9, met_TerminalsAndUart_10⟩

theorem witness_CompletesLanesAndTime :
    (∃ (s : State), s.alive = true ∧ s.get F.SEC_PRES_STUCK = 0 ∧ s.sec.pressed = false) ∧
    (∃ (s : State), s.Settled) ∧
    (∃ (s : State), s.sec.presOpen = true) ∧
    (∃ (s : State) (path : Path), s.Reaches path Pg.SEC ∧ s.sec.presOpen = true) ∧
    (∃ (s : State), s.alive = true ∧ s.pins.presence = false ∧ s.get F.SEC_PRES_STUCK = 0) ∧
    (∃ (s : State), s.Settled ∧ s.pins.presence = true ∧ s.get F.SEC_PRES_STUCK = 1) ∧
    (∃ (s : State), s.Settled ∧ s.phase ≠ .held) ∧
    (∃ (s : State) (v : Bool), s.phase ≠ .held ∧ v ≠ s.pins.sealOut ∧ 1 ≤ s.sec.sealMiss ∧ s.sec.sealOpen ≠ some
      true) ∧
    (∃ (s : State) (data : Word) (o : Nat), s.Reaches (.remote true true) Pg.SEC ∧ s.guardFor (.remote true true)
      Pg.SEC = true ∧ getBits data 16 16 = 0x7E55 ∧ s.activeSlot = some o) ∧
    (∃ (s : State) (path : Path), s.Reaches path Pg.SEC ∧ s.sec.attBusy = false) ∧
    (∃ (s : State), s.alive = true ∧ s.sec.attBusy = true) ∧
    (∃ (s : State) (path : Path), s.Reaches path Pg.SEC ∧ s.sec.recJob = none) ∧
    (∃ (s : State), s.alive = true ∧ s.sec.recJob = some .exportRec ∧ inState (s.reg R.SEC_REC_ADDR).toNat = true ∧
      inState ((s.reg R.SEC_REC_ADDR).toNat + s.recPlain.length - 1) = true) ∧
    (∃ (s : State) (path : Path), s.Reaches path Pg.OTP ∧ s.guardFor path Pg.OTP = true ∧ s.sec.otpJob = none ∧
      ((s.reg R.OTP_ADDR).toNat % 0x2000 / 4 * 4 = 0x420 ∨ 0x800 ≤ (s.reg R.OTP_ADDR).toNat % 0x2000 / 4 * 4)) ∧
    (∃ (s : State) (a : Nat) (w : Word), s.alive = true ∧ s.sec.otpJob = some (a, w)) ∧
    (∃ (s : State) (path : Path), s.Reaches path Pg.HOST ∧ s.guardFor path Pg.HOST = true) ∧
    (∃ (s : State) (path : Path), s.Reaches path Pg.HOST) ∧
    (∃ (s : State) (p : Nat), s.portRx p = true ∧ s.groupDue p = true) ∧
    (∃ (s : State) (i : Nat), s.portRx (i / 256) = true ∧ s.sessionDue i = true ∧ s.mgmtRoom (i / 256) = true) ∧
    (∃ (s : State) (n : Nat), s.laneRx n = true ∧ s.continuousLane n = true ∧ n < 8) ∧
    (∃ (s : State) (n e : Nat), s.alive = true ∧ n < 8 ∧ s.continuousLane n = true ∧ s.is (F.LANE_STAT_SYNC n) =
      true ∧ 4 ≤ (s.lane n).errs + e) ∧
    (∃ (s : State) (n : Nat), s.Settled ∧ s.alive = true ∧ s.isCell = true ∧ n < 2 ∧ s.get (F.LANE_STAT_SYNC n) = 0
      ∧ s.is (F.LANE_STAT_HUNT n) = true) ∧
    (∃ (s : State) (n : Nat), s.laneRx n = true ∧ n < 6 ∧ s.is (F.LANE_CFG_AUTOPOL n) = true) ∧
    (∃ (s : State) (l4 l5 node skew : Nat), s.laneRx 4 = true ∧ s.laneRx 5 = true ∧ s.isHub = true ∧ s.is
      F.SYS_TOPO_TWIN = true ∧ s.is (F.LANE_STAT_SYNC 4) = true ∧ s.is (F.LANE_STAT_SYNC 5) = true ∧ l4 + l5 = 1 ∧
      skew ≤ 16 ∧ s.get (F.LANE_CFG_RATE 4) = s.get (F.LANE_CFG_RATE 5) ∧ node % 64 = s.get F.SYS_NODE_HUB ∧ node /
      64 % 2 ≠ s.get F.SYS_NODE_SIDE) ∧
    (∃ (s : State) (why skew : Nat), s.Settled ∧ s.alive = true ∧ s.isHub = true ∧ 1 ≤ why ∧ why ≤ 4 ∧ skew < 2 ^
      (F.LANE_BOND_SKEW 4).w) ∧
    (∃ (s : State) (n : Nat), s.Settled ∧ s.alive = true ∧ n < 8 ∧ mooredByRole s.role n = false ∧ (s.isCell = true
      ∨ s.get (F.LANE_PWR_CUR n) ≠ 2)) ∧
    (∃ (s : State) (n : Nat), s.alive = true ∧ s.isCell = true ∧ n < 2) ∧
    (∃ (s : State) (path : Path) (n req : Nat), s.Reaches path (Pg.LANE n) ∧ n < 8 ∧ mooredByRole s.role n = false ∧
      req < 3 ∧ s.get (F.LANE_PWR_BUSY n) = 0 ∧ s.enabled (Pg.LANE n) = true ∧ s.get (F.LANE_PWR_CUR n) ≠ req) ∧
    (∃ (s : State) (n st : Nat), s.alive = true ∧ n < 8 ∧ s.is (F.LANE_PWR_BUSY n) = true ∧ (s.lane n).target = some
      st ∧ (s.lane n).latched = none ∧ st < 3) ∧
    (∃ (s : State) (path : Path) (n : Nat), s.Reaches path (Pg.LANE n) ∧ n < 8 ∧ s.get (F.LANE_ES_STAT_BUSY n) = 0) ∧
    (∃ (s : State) (n e : Nat), s.laneRx n = true ∧ n < 8 ∧ s.is (F.LANE_ES_STAT_BUSY n) = true ∧ s.continuousLane n
      = true ∧ e < 2 ^ 32) ∧
    (∃ (s : State) (n e : Nat), s.Settled ∧ s.alive = true ∧ n < 8 ∧ s.is (F.LANE_ES_STAT_BUSY n) = true ∧ e < 2 ^
      32) ∧
    (∃ (s : State) (path : Path) (n : Nat), s.Reaches path (Pg.LANE n) ∧ n < 8 ∧ s.is (F.LANE_PRBS_CTL_GEN n) =
      true) ∧
    (∃ (s : State) (path : Path) (n : Nat), s.Reaches path (Pg.LANE n) ∧ n < 8) ∧
    (∃ (s : State) (n : Nat), s.Settled ∧ s.laneRx n = true ∧ n < 8 ∧ s.continuousLane n = true ∧ s.is
      (F.LANE_PRBS_CTL_CHK n) = true) ∧
    (∃ (s : State) (n e : Nat), s.Settled ∧ s.laneRx n = true ∧ n < 8 ∧ s.is (F.LANE_PRBS_CTL_CHK n) = true ∧ s.is
      (F.LANE_PRBS_STAT_LOCK n) = true ∧ 32 < e) ∧
    (∃ (s : State) (p slot : Nat), s.portHears p = true ∧ p < 4 ∧ slot < 268 ∧ s.now + groupAt (s.rate p) 0 5 ≤
      slotAt (s.rate p) (s.roundNow p) slot) ∧
    (∃ (s : State) (p slot : Nat) (sf co : Bool) (bs : List Byte), s.portHears p = true ∧ slot < 264 ∧ slot <
      s.zoneSlot p ∧ s.burstCheck p slot (s.roundNow p) sf co bs = .ok ∧ (s.berth (256 * p + (nth bs 0
      0).toNat)).link ≠ .absent) ∧
    (∃ (s : State) (path : Path), s.Reaches path Pg.TIME ∧ s.clk.gating.contains Pg.TIME = false) ∧
    (∃ (s : State) (path : Path), s.Reaches path Pg.TIME ∧ s.runs Pg.TIME = true ∧ s.meridiansOn = false) ∧
    (∃ (s : State) (d : Int), s.alive = true ∧ s.runs Pg.TIME = true ∧ s.time.src = s.get F.TIME_CTL_SRC ∧
      s.time.jump = some (.step d) ∧ s.time.corr = 0) ∧
    (∃ (s : State) (path : Path), s.Reaches path Pg.TIME ∧ s.runs Pg.TIME = true ∧ s.clk.gating.contains Pg.TIME =
      false) :=
  ⟨met_PresenceAndSeal_1, met_SupplyCommands_4, met_PresenceAndSeal_3, met_PresenceAndSeal_4, met_PresenceAndSeal_5,
    met_PresenceAndSeal_6, met_PresenceAndSeal_7, met_PresenceAndSeal_8, met_KeysAndRecords_11,
    met_KeysAndRecords_1, met_KeysAndRecords_2, met_KeysAndRecords_3, met_KeysAndRecords_6, met_KeysAndRecords_7,
    met_KeysAndRecords_8, met_KeysAndRecords_9, met_KeysAndRecords_10, met_BerthTable_10, met_BerthTable_11,
    met_LaneSync_1, met_LaneSync_3, met_LaneSync_4, met_LaneSync_6, met_LaneSync_7, met_LaneSync_9, met_LaneSync_10,
    met_LaneSync_11, met_LaneTests_1, met_LaneTests_2, met_LaneTests_3, met_LaneTests_4, met_LaneTests_5,
    met_LaneTests_6, met_LaneTests_7, met_LaneTests_8, met_LaneTests_9, met_LaneTests_10, met_UpstreamBursts_1,
    met_TimeUnit_1, met_TimeUnit_2, met_TimeUnit_4, met_TimeUnit_6⟩

theorem witness_CompletesTree :
    (∃ (s : State), s.alive = true ∧ s.isHub = true ∧ s.runs Pg.TIME = true ∧ s.is F.TIME_MER_RUN = true ∧
      s.commitsDue = []) ∧
    (∃ (s : State), s.Settled ∧ s.alive = true ∧ s.isHub = true ∧ s.runs Pg.TIME = true ∧ s.get (F.GPIO_FN_FN 4) = 0
      ∧ s.outputsOff = false) ∧
    (∃ (s : State) (p ty : Nat), s.alive = true ∧ s.runs Pg.TIME = true ∧ s.isCell = false ∧ p < 2 ∧ ty < 4 ∧
      (s.tsQueue p).length < 16) ∧
    (∃ (s : State) (path : Path) (p : Nat) (e : TsEntry) (q : List TsEntry), s.Reaches path Pg.TIME ∧
      s.clk.gating.contains Pg.TIME = false ∧ s.isCell = false ∧ p < 2 ∧ s.tsQueue p = e :: q) ∧
    (∃ (s : State), s.alive = true ∧ s.isHub = true ∧ s.runs Pg.TIME = true ∧ s.time.src = 2 ∧ s.is
      (F.LANE_STAT_BONDED 4) = true) ∧
    (∃ (s : State), s.alive = true ∧ s.runs Pg.TIME = true ∧ s.isCell = true ∧ s.time.hold = []) ∧
    (∃ (s : State), s.alive = true ∧ s.isHub = true ∧ s.meridiansOn = true ∧ s.time.lastK.isSome = true ∧ s.runs
      Pg.MOD = true ∧ (List.range 4).any s.portOn = true ∧ (List.range 4).all (fun p => !s.portOn p || (s.port
      p).ready.isSome) = true) ∧
    (∃ (s : State) (u : Nat) (bs : List Byte) (f : RxFrame) (b : Timebase), s.frameOn u = true ∧ bs.length ≤ 1024 ∧
      parseFrame bs = some f ∧ f.timebase = none ∧ ((s.uplink u).bases.find? fun c => c.tbg == f.tbg) = some b ∧
      (s.uplink u).port = some f.port ∧ f.crc = crcBytes (f.hdr ++ f.tag) ∧ s.keyed u = true ∧ (s.frameSide u
      f).isSome = true ∧ f.flag 0 = true ∧ f.tt = [] ∧ f.skind = 0 ∧ f.body = [] ∧ 1 ≤ (f.watch + 65536 - s.get
      (F.TREE_CELL_STAT_W 0)) % 65536 ∧ (f.watch + 65536 - s.get (F.TREE_CELL_STAT_W 0)) % 65536 ≤ 32767) ∧
    (∃ (s : State) (u b sl rd : Nat), s.frameOn u = true ∧ s.ownBerth u b = true ∧ s.now + 1000 * unitsPerNs ≤
      slotAt (s.rate u) (roundNamed (s.roundNow u) (rd % 256)) (mgmtIdx (sl % 8)) - s.dUp u) ∧
    (∃ (s : State) (u b : Nat), s.frameOn u = true ∧ s.keyed u = true ∧ s.ownBerth u b = true) ∧
    (∃ (s : State) (u b : Nat) (all : Bool), s.frameOn u = true ∧ s.keyed u = true ∧ (s.ownBerth u b = true ∨ all =
      true) ∧ s.is (F.TREE_CELL_SLOT_KILLED u) = false) ∧
    (∃ (s : State) (u b n : Nat), s.frameOn u = true ∧ s.keyed u = true ∧ s.ownBerth u b = true ∧ (s.uplink
      u).resps.length < 4 ∧ 1 ≤ n ∧ n ≤ 5) ∧
    (∃ (s : State) (u b : Nat) (ws : List Word), s.frameOn u = true ∧ s.keyed u = true ∧ s.ownBerth u b = true ∧
      (s.uplink u).resps.length < 4 ∧ 1 ≤ ws.length ∧ ws.length ≤ 16) ∧
    (∃ (s : State) (u b : Nat), s.frameOn u = true ∧ s.keyed u = true ∧ s.ownBerth u b = true ∧ (s.uplink
      u).resps.length < 4) ∧
    (∃ (s : State) (u : Nat) (pr sm : Bool), s.frameOn u = true ∧ s.keyed u = true ∧ s.Reaches (.remote pr sm)
      (R.CLK_SPDLIM / 1024)) ∧
    (∃ (s : State) (u b : Nat) (bd : List Byte) (k g : Key), s.frameOn u = true ∧ bd.length = 32 ∧ s.ownBerth u b =
      true ∧ (s.uplink u).resps.length < 4 ∧ (s.uplink u).group = none ∧ (s.uplink u).pendKeys = none ∧ (s.uplink
      u).wrap = some k ∧ keyUnwrap k (bd.take 24) = some g) ∧
    (∃ (s : State) (u b : Nat), s.frameOn u = true ∧ s.ownBerth u b = true ∧ (s.uplink u).resps.length < 4) ∧
    (∃ (s : State) (u : Nat) (bd : List Byte), s.frameOn u = true ∧ bd.length = 20) ∧
    (∃ (s : State) (u : Nat) (bd : List Byte), s.frameOn u = true ∧ bd.length = 24) ∧
    (∃ (s : State) (u : Nat) (bd : List Byte), s.frameOn u = true ∧ bd.length = 24 ∧ idOfBytes bd = s.devId ∧
      s.keyed u = false ∧ (s.uplink u).offer = none) ∧
    (∃ (s : State) (u b : Nat) (bd : List Byte) (o : Offer), s.frameOn u = true ∧ bd.length = 204 ∧ s.keyed u =
      false ∧ (s.uplink u).offer = some o ∧ (s.uplink u).waiting < 4 ∧ o.berth = b ∧ o.enrol = true ∧ kxSound
      (bd.take 192) (kxEph (bd.take 192)) = true) ∧
    (∃ (s : State) (u : Nat) (bd : List Byte), s.frameOn u = true ∧ bd.length = 12 ∧ idOfBytes bd = s.devId ∧ (nth
      bd 8 0).toNat = 1) ∧
    (∃ (s : State) (u : Nat) (bd : List Byte) (b : Nat), s.frameOn u = true ∧ s.keyed u = true ∧ bd.length = 32 ∧
      (s.uplink u).berth = some b ∧ bitOf (nth bd (b / 8) 0).toNat (b % 8) = true) ∧
    (∃ (s : State), s.cellMeridians = true ∧ s.rx.obeyedK.contains (s.nextK - 1) = true) ∧
    (∃ (s : State), s.alive = true ∧ s.isCell = true ∧ s.rx.obeying = true) ∧
    (∃ (s : State) (n x : Nat), (s.pathOn 0 = true ∨ s.pathOn 1 = true) ∧ nextBy s.payloadAt s.now 4 s.roundFrom =
      some (n, x)) ∧
    (∃ (s : State) (u n x : Nat), nextBy (s.reportLaunch u) s.now 4 (s.roundNow u) = some (n, x) ∧ s.pathOn u = true
      ∧ s.laserOn u = true ∧ (s.uplink u).session.isSome = true ∧ s.rx.payload.length = 24) ∧
    (∃ (s : State) (u m n x : Nat) (r : MgmtResp) (l : List MgmtResp), s.nextGrant u = some (m, n, x) ∧ s.pathOn u =
      true ∧ s.laserOn u = true ∧ (s.uplink u).resps = r :: l ∧ (s.uplink u).sentCyc = 0) ∧
    (∃ (s : State) (p b : Nat) (pl : List Byte) (r : MgmtRec), s.portHears p = true ∧ b < 256 ∧ ((s.port
      p).opens.find? fun x => x.tid == (nth pl 1 0).toNat && x.berth == b && x.rtype + 0x80 == (nth pl 0 0).toNat) =
      some r ∧ r.src = .mailbox ∧ r.rtype = 2) ∧
    (∃ (s : State) (e : CellEvent) (l : List CellEvent) (a : EvAct), s.Settled ∧ s.gateLive = true ∧ s.rx.events = e
      :: l ∧ e.act = a ∧ a ≠ .byp ∧ a ≠ .blockCell ∧ a ≠ .insPos) ∧
    (∃ (s : State) (e : CellEvent) (l : List CellEvent), s.Settled ∧ s.gateLive = true ∧ s.full = true ∧ s.rx.events
      = e :: l ∧ e.act = .insNeg ∧ s.gate.blocked = false ∧ s.inStop = false ∧ s.gate.state = .bypass ∧ s.gate.legA
      = .lower ∧ s.gate.legB = .lower ∧ s.gate.lastAt = none ∧ l = [] ∧ s.gate.trimEnd = none ∧ s.cmod.edge = none ∧
      s.is F.GATE_CFG_DTC = false) ∧
    (∃ (s : State) (e : CellEvent) (l : List CellEvent) (on : CellState) (w : Nat), s.Settled ∧ s.gateLive = true ∧
      s.rx.events = e :: l ∧ e.act = .trim on w ∧ on = .pos ∧ s.pulseMin ≤ w ∧ s.gate.blocked = false ∧ s.inStop =
      false ∧ s.gate.state = .bypass ∧ s.gate.lastAt = none ∧ l = [] ∧ s.gate.trimEnd = none ∧ s.cmod.edge = none) ∧
    (∃ (s : State) (x : Nat) (st : CellState) (q : Nat), s.gateLive = true ∧ s.gate.trimEnd = some (x, st, q)) ∧
    (∃ (s : State) (e : CellEvent) (l : List CellEvent), s.gateLive = true ∧ s.rx.events = e :: l ∧ e.act = .fireThy
      ∧ s.gate.pbyp = false ∧ s.inStop = false) ∧
    (∃ (s : State) (e : CellEvent) (l : List CellEvent), s.gateLive = true ∧ s.rx.events = e :: l ∧ e.act =
      .permBypass ∧ s.gate.pbyp = false ∧ s.inStop = false) ∧
    (∃ (s : State) (e : CellEvent) (l : List CellEvent) (d : CellState), s.Settled ∧ s.gateLive = true ∧ s.rx.events
      = e :: l ∧ e.act = .swap d ∧ d = .bypass ∧ s.gate.blocked = false ∧ s.inStop = false ∧ s.gate.state = .pos ∧
      s.full = false ∧ s.gate.legA = .upper ∧ s.gate.legB = .off ∧ s.gate.lastAt = none ∧ l = [] ∧ s.gate.trimEnd =
      none ∧ s.cmod.edge = none ∧ s.is F.GATE_CFG_DTC = false) ∧
    (∃ (s : State), s.Settled ∧ s.gateLive = true ∧ (s.gate.riseA.isSome = true ∨ s.gate.riseB.isSome = true)) ∧
    (∃ (s : State) (path : Path) (p : Nat), s.Reaches path Pg.BERTH ∧ p < 4 ∧ s.guardFor path Pg.BERTH = true ∧
      s.isHub = true) ∧
    (∃ (s : State) (path : Path) (p : Nat), s.Reaches path Pg.BERTH ∧ p < 4 ∧ s.isHub = true) ∧
    (∃ (s : State) (p : Nat), s.alive = true ∧ s.isHub = true ∧ p < 4 ∧ s.windowOpen p = true) ∧
    (∃ (s : State) (u n x : Nat), s.mayBoard u = true ∧ nextBy (s.boardingLaunch u) s.now 4 (s.roundNow u) = some
      (n, x)) ∧
    (∃ (s : State) (u w : Nat), s.pathOn u = true ∧ (s.uplink u).offer = none ∧ (s.uplink u).waitRounds = some w ∧ 3
      ≤ w ∧ (s.uplink u).boarding = true) ∧
    (∃ (s : State) (p : Nat) (sf co : Bool) (bs : List Byte) (arr i : Nat), s.portHears p = true ∧ roundAt (s.rate
      p) arr % 2 = 0 ∧ s.zoneCheck p (roundAt (s.rate p) arr) sf co bs = .ok ∧ (s.berthsWith fun _ b => b.assign !=
      0 && b.keyid == idOfBytes ((bs.drop 4).take 24)) = [i] ∧ i / 256 = p ∧ (s.berth i).admission = none ∧ (s.berth
      i).link = .absent ∧ (s.berth i).rsv = true ∧ s.slotAllowed p (s.berth i).rslot = true ∧ s.sameMajor (ofBe
      ((bs.drop 20).take 2)) = true ∧ (s.portBerths p fun b => b.admission.isSome) = []) ∧
    (∃ (s : State) (p : Nat), s.Settled ∧ s.berthOn p = true) ∧
    (∃ (s : State) (u : Nat) (o : Offer) (f : Nat), s.pathOn u = true ∧ s.laserOn u = true ∧ (s.uplink u).boarding =
      true ∧ (s.uplink u).offer = some o ∧ o.soF = some f) ∧
    (∃ (s : State) (p : Nat) (sf co : Bool) (bs : List Byte) (arr : Nat) (a : Admission), s.portHears p = true ∧
      roundAt (s.rate p) arr % 2 = 1 ∧ s.zoneCheck p (roundAt (s.rate p) arr) sf co bs = .ok ∧ (s.berth (256 * p +
      (nth bs 0 0).toNat)).admission = some a ∧ (s.berth (256 * p + (nth bs 0 0).toNat)).link = .offered ∧ idOfBytes
      ((bs.drop 4).take 24) = (s.berth (256 * p + (nth bs 0 0).toNat)).keyid ∧ ofBe ((bs.drop 12).take 4) = a.cycleR
      % 2 ^ 32 ∧ roundAt (s.rate p) arr = a.roundR) ∧
    (∃ (s : State) (p b : Nat) (a : Admission), s.berthOn p = true ∧ b < 256 ∧ (s.berth (256 * p + b)).admission =
      some a ∧ (s.berth (256 * p + b)).link = .offered ∧ max 1 (s.get F.BERTH_CFG_RTRY) ≤ a.offers) ∧
    (∃ (s : State) (u : Nat), s.pathOn u = true ∧ s.keyed u = true ∧ 2 ≤ (s.uplink u).badRounds) ∧
    (∃ (s : State) (p n : Nat), s.portRx p = true ∧ (List.range 4).filter s.portRx = [p] ∧ n = s.nextRound p ((s.reg
      (R.TREE_ROUND_LO p)).toNat + 2 ^ 32 * s.get (F.TREE_ROUND_HI_ROUND p))) ∧
    (∃ (s : State) (path : Path) (p : Nat), s.Reaches path Pg.BERTH ∧ s.berthOn p = true ∧ (s.port p).search = none) ∧
    (∃ (s : State) (p : Nat) (x : Search), s.berthOn p = true ∧ (s.port p).search = some x ∧ x.check = false) ∧
    (∃ (s : State) (path : Path) (w : Nat), s.Reaches path Pg.BERTH ∧ s.isHub = true ∧ w < 16) ∧
    (∃ (s : State) (path : Path), s.Reaches path Pg.BERTH ∧ s.isHub = true ∧ s.guardFor path Pg.BERTH = true ∧
      (s.berth (s.get F.BERTH_SEL_INDEX)).link = .absent ∧ (s.berth (s.get F.BERTH_SEL_INDEX)).assign = 1 ∧ (s.berth
      (s.get F.BERTH_SEL_INDEX)).rsv = false ∧ (s.berth (s.get F.BERTH_SEL_INDEX)).rslot = 0 ∧ s.reg (R.BERTH_E 0) =
      1) ∧
    (∃ (s : State) (path : Path), s.Reaches path Pg.BERTH ∧ s.isHub = true) ∧
    (∃ (s : State) (x : Snap), s.mod.used = some x ∧ s.stageDue 1 1 = true ∧ s.runs Pg.RANK = true) ∧
    (∃ (s : State), s.stageDue 1 2 = true ∧ s.runs Pg.CTL = true ∧ s.is F.SYS_TOPO_TWIN = false ∧ s.running = none ∧
      s.eng.ho = none ∧ s.runs Pg.SUP = false ∧ s.runs Pg.SCHD = false) ∧
    (∃ (s : State) (x : Snap), s.mod.used = some x ∧ s.stageDue 3 3 = true ∧ s.runs Pg.RANK = true) ∧
    (∃ (s : State) (x : Snap), s.mod.used = some x ∧ s.stageDue 15 4 = true ∧ s.runs Pg.MOD = true) ∧
    (∃ (s : State) (x : Snap), s.mod.used = some x ∧ s.stageDue 31 5 = true ∧ s.runs Pg.MOD = true ∧ s.time.lastK =
      some x.k ∧ s.mod.late = false ∧ s.mod.invalid = false ∧ s.portOn 0 = true) ∧
    (∃ (s : State) (path : Path) (data : Word), s.Reaches path Pg.MOD ∧ s.isHub = true ∧ s.mod.pcmd = none ∧
      (getBits data 10 4 = 3 ∨ getBits data 10 4 = 5 ∨ getBits data 10 4 = 6)) ∧
    (∃ (s : State) (path : Path) (data : Word), s.Reaches path Pg.MOD ∧ s.isHub = true ∧ s.mod.target = none ∧
      getBits data 16 2 ≠ 3 ∧ s.cycle + s.lead + 8 ≤ s.get F.MOD_MSW_LO_TARGET + 2 ^ 32 * getBits data 0 16 ∧ s.get
      F.MOD_MSW_LO_TARGET + 2 ^ 32 * getBits data 0 16 ≤ s.cycle + 2 ^ 31) ∧
    (∃ (s : State) (e x : Nat), s.cmod.next = some (e, x) ∧ s.gateLive = true ∧ s.time.lastK = none ∧ s.cmod.pend =
      false) ∧
    (∃ (s : State) (e x : Nat), s.carrierOn = true ∧ s.cmod.epoch = some (e, x) ∧ s.cmod.edge = none) ∧
    (∃ (s : State), s.alive = true ∧ s.isCell = true ∧ s.runs Pg.CTL = true ∧ s.is F.CTL_CFG_TRIG = false ∧
      s.running = none) ∧
    (∃ (s : State) (path : Path) (w : Nat), s.Reaches path Pg.RANK ∧ s.isHub = true ∧ w < 16) ∧
    (∃ (s : State) (path : Path), s.Reaches path Pg.RANK ∧ s.isHub = true ∧ s.rank.jobs.length < 16) ∧
    (∃ (s : State) (path : Path), s.Reaches path Pg.RANK ∧ s.isHub = true ∧ s.rank.jobs.length < 16 ∧ s.reg
      (R.RANK_E 1) = 0x3F800000) ∧
    (∃ (s : State) (path : Path), s.Reaches path Pg.RANK ∧ s.isHub = true ∧ s.rank.jobs.length < 16 ∧ sFinite (s.reg
      (R.RANK_E 0)) = true) ∧
    (∃ (s : State) (path : Path) (n : Nat), s.Reaches path Pg.CTL ∧ s.isHub = true ∧ n < 2 ∧ s.running = none ∧
      s.eng.ho = none ∧ s.is (F.CTL_PGM_STAT_BUSY n) = false) ∧
    (∃ (s : State) (n : Nat), s.alive = true ∧ s.isRef = false ∧ n < 2 ∧ s.is (F.CTL_PGM_STAT_BUSY n) = true ∧
      s.slotWhy n = 0) ∧
    (∃ (s : State) (path : Path) (data : Word), s.Reaches path Pg.CTL ∧ s.isHub = true ∧ getBits data 31 1 = 0 ∧
      getBits data 1 1 = 0 ∧ s.slotValid (getBits data 0 1) = true ∧ s.get F.CTL_STAT_ACT ≠ getBits data 0 1 ∧
      s.eng.ho = none) ∧
    (∃ (s : State) (path : Path) (data : Word) (h : HoSt), s.Reaches path Pg.CTL ∧ s.isHub = true ∧ getBits data 30
      1 = 0 ∧ s.eng.ho = some h ∧ h.running = false) ∧
    (∃ (s : State) (path : Path), s.Reaches path Pg.CTL ∧ s.isRef = false ∧ s.eng.sigq.length < 16) ∧
    (∃ (s : State) (path : Path), s.Reaches path Pg.CHAIN ∧ s.isRef = false ∧ s.eng.chq.length < 64) ∧
    (∃ (s : State) (path : Path), s.Reaches path Pg.CHAIN ∧ s.isHub = true ∧ s.get F.CHAIN_SEL_FIELD ≤ 9) ∧
    (∃ (s : State) (path : Path) (u : Nat), s.Reaches path Pg.RCU ∧ s.isHub = true ∧ u < 16) ∧
    (∃ (s : State) (u : Nat), s.alive = true ∧ s.isHub = true ∧ u < 16) ∧
    (∃ (s : State) (path : Path) (i : Nat), s.Reaches path Pg.SUP ∧ s.isHub = true ∧ i < 2 ∧ s.is (F.SUP_ISTAT_RUN
      i) = false ∧ s.get (F.SUP_ICTL_TYPE i) ≠ 3) ∧
    (∃ (s : State) (path : Path) (i : Nat), s.Reaches path Pg.SUP ∧ s.isHub = true ∧ i < 2 ∧ (s.inj i).run = true) ∧
    (∃ (s : State) (path : Path), s.Reaches path Pg.SUP ∧ s.isHub = true ∧ s.is (F.SUP_ISTAT_RUN (s.get
      F.SUP_FRCTL_INJ)) = false ∧ s.comp.fr = none) ∧
    (∃ (s : State) (n low : Nat), s.gateLive = true ∧ n < 4 ∧ 1000 < low ∧ bitOf (s.get F.GATE_CFG_FEN) n = true) ∧
    (∃ (s : State), s.gateLive = true ∧ s.gate.latch ≠ 0 ∧ s.gate.pbyp = false) ∧
    (∃ (s : State) (path : Path), s.Reaches path Pg.GATE ∧ s.isCell = true ∧ s.gate.live &&& s.get F.GATE_CFG_FEN =
      0 ∧ s.gate.latch ≠ 0 ∧ s.gate.pbyp = false) ∧
    (∃ (s : State) (c : StopCause), s.gateLive = true ∧ c ≠ .page ∧ s.full = false) ∧
    (∃ (s : State) (c : StopCause), s.gateLive = true ∧ c ≠ .page) ∧
    (∃ (s : State), s.gateLive = true ∧ s.gate.thyLeft = 1) ∧
    (∃ (s : State), s.Settled ∧ s.gateLive = true ∧ s.gate.gate5Run = true) ∧
    (∃ (s : State) (n : Nat), s.gateLive = true ∧ s.get (F.CLK_DOM_CURSRC 0) ≠ 3 ∧ s.gate.taps.length = 15 ∧ 64 ≤ (n
      + s.gate.taps.sum) / 16 ∧ (n + s.gate.taps.sum) / 16 ≤ 511) ∧
    (∃ (s : State) (path : Path) (n : Nat) (data : Word), s.Reaches path Pg.GATE ∧ s.isHub = true ∧ n < 6 ∧ s.is
      (F.TEV_CTL_ARM n) = false ∧ bitOf data.toNat 5 = false ∧ s.clk.gating.contains Pg.GATE = false ∧ s.now +
      nsUnits 1001 ≤ s.tevInstant n) ∧
    (∃ (s : State) (path : Path) (n : Nat), s.Reaches path Pg.GATE ∧ s.isHub = true ∧ n < 6 ∧ s.clk.gating.contains
      Pg.GATE = false) ∧
    (∃ (s : State) (n : Nat), s.alive = true ∧ s.isHub = true ∧ s.runs Pg.GATE = true ∧ n < 6 ∧ s.is (F.TEV_CTL_ARM
      n) = true ∧ s.get (F.TEV_CTL_ACT n) ≠ 3) ∧
    (∃ (s : State) (x : Int) (i : Nat), s.alive = true ∧ s.isCell = true ∧ s.runs Pg.ADC = true ∧ s.is
      F.ADC_CTL_M1EN = true ∧ s.runs Pg.ACC = true ∧ s.aligned = s.is F.ACC_WIN_MODE ∧ (i - s.groupDelay 1) /
      gridUnit < (s.acc 1).stop ∧ 0 < (s.acc 1).count ∧ -(2 ^ 23) < x ∧ x < 2 ^ 23 - 1) ∧
    (∃ (s : State) (f : Nat) (codes : List Int), s.gateLive = true ∧ (f = 0 ∨ f = 2) ∧ canAssert s f codes = true ∧
      bitOf (s.get F.GATE_CFG_FEN) (f / 2 + 2) = true) ∧
    (∃ (s : State) (f : Nat) (code : Int), s.gateLive = true ∧ f < 4 ∧ inBand s f code = true) ∧
    (∃ (s : State) (low : Nat), s.hubLive = true ∧ 10000 ≤ low) ∧
    (∃ (s : State), s.hubLive = true ∧ s.pins.safeA ≠ s.pins.safeB) ∧
    (∃ (s : State) (path : Path), s.Reaches path Pg.SAFE ∧ s.isHub = true ∧ s.safe.startup = 2 ∧ s.safe.alatch = 0 ∧
      s.safe.breq = false ∧ (s.is F.SYS_TOPO_TWIN = false ∨ s.twin.active = true) ∧ s.runs Pg.TIME = true ∧ s.is
      F.TIME_MER_RUN = true ∧ s.twin.refLost = false) ∧
    (∃ (s : State) (path : Path), s.Reaches path Pg.SAFE ∧ s.isHub = true ∧ s.safe.asserted = 0) ∧
    (∃ (s : State) (path : Path), s.Reaches path Pg.SAFE ∧ s.isHub = true) ∧
    (∃ (s : State) (i : Nat) (l : List Nat), s.hubLive = true ∧ s.safe.vb = true ∧ s.safe.alatch = 0 ∧ s.safe.breq =
      false ∧ s.is F.SYS_TOPO_TWIN = false ∧ s.safe.seqLeft = i :: l ∧ mayDeblock (s.berth i) = true ∧ s.mgmtRoom (i
      / 256) = true ∧ i < 1024) ∧
    (∃ (s : State), s.Settled ∧ s.hubLive = true ∧ s.safe.startup = 0 ∧ s.pins.safeA = false ∧ s.pins.safeB = false) ∧
    (∃ (s : State), s.hubLive = true ∧ s.safe.startup = 1 ∧ s.pins.safeA = true ∧ s.pins.safeB = true) ∧
    (∃ (s : State) (path : Path) (i : Nat), s.Reaches path Pg.SAFE ∧ s.isHub = true ∧ s.safe.vb = true ∧
      s.safe.alatch = 0 ∧ s.safe.breq = false ∧ s.is F.SYS_TOPO_TWIN = false ∧ s.safe.seqLeft = [] ∧ i < 1024 ∧
      mayDeblock (s.berth i) = true ∧ s.mgmtRoom (i / 256) = true) ∧
    (∃ (s : State) (pr sm : Bool), s.Reaches (.remote pr sm) Pg.SAFE ∧ s.isCell = true ∧ s.cellDeblockWhy true = 0 ∧
      s.safe.db = false ∧ (s.safe.plaus = false ∨ s.is F.SAFE_CCFG_PLACT = false)) ∧
    (∃ (s : State) (path : Path), s.Reaches path Pg.SAFE ∧ s.isCell = true) ∧
    (∃ (s : State) (path : Path), s.Reaches path Pg.SAFE ∧ s.isCell = true ∧ s.gate.pbyp = false) ∧
    (∃ (s : State) (u : Nat), s.gateLive = true ∧ u < 2) ∧
    (∃ (s : State), s.gateLive = true ∧ s.safe.blkSeen = true ∧ s.runs Pg.TIME = true) :=
  ⟨met_WorkStages_7, met_TimeUnit_7, met_TimeUnit_10, met_TimeUnit_12, met_TimeUnit_13, met_TimeUnit_15,
    met_WorkStages_8, met_CycleFrames_5, met_CellCycle_7, met_CellCycle_8, met_CellCycle_9, met_CellManagement_1,
    met_CellManagement_2, met_CellManagement_3, met_CellManagement_4, met_CellManagement_6, met_CellManagement_7,
    met_CellManagement_8, met_CellAdmission_1, met_CellAdmission_2, met_CellAdmission_3, met_CellAdmission_5,
    met_CellAdmission_10, met_CellCycle_1, met_CellCycle_3, met_CellCycle_4, met_CellCycle_5, met_CellCycle_6,
    met_UpstreamBursts_3, met_GateEvents_1, met_GateEvents_3, met_GateEvents_9, met_GateEvents_10,
    met_GateEvents_11, met_GateEvents_12, met_GateEvents_5, met_GateEvents_13, met_UpstreamBursts_11,
    met_UpstreamBursts_12, met_UpstreamBursts_13, met_CellAdmission_7, met_CellAdmission_8, met_UpstreamBursts_6,
    met_UpstreamBursts_5, met_CellAdmission_9, met_UpstreamBursts_8, met_UpstreamBursts_9, met_CellAdmission_11,
    met_BerthTable_4, met_BerthTable_6, met_BerthTable_8, met_BerthTable_1, met_BerthTable_3, met_BerthTable_2,
    met_WorkStages_1, met_WorkStages_2, met_WorkStages_3, met_WorkStages_4, met_WorkStages_5,
    met_ModulationCommands_1, met_ModulationCommands_3, met_ModulationCommands_5, met_ModulationCommands_6,
    met_EngineCommands_10, met_RankAndCompensation_1, met_RankAndCompensation_2, met_RankAndCompensation_3,
    met_RankAndCompensation_5, met_EngineCommands_1, met_EngineCommands_3, met_EngineCommands_4,
    met_EngineCommands_5, met_EngineCommands_6, met_EngineCommands_8, met_EngineCommands_9,
    met_RankAndCompensation_6, met_RankAndCompensation_7, met_RankAndCompensation_8, met_RankAndCompensation_9,
    met_RankAndCompensation_10, met_FaultLogic_1, met_FaultLogic_3, met_FaultLogic_4, met_GateStops_1,
    met_GateStops_3, met_GateStops_5, met_GateStops_6, met_GateStops_7, met_GateStops_9, met_GateStops_11,
    met_GateStops_12, met_Measurement_1, met_FaultLogic_7, met_FaultLogic_10, met_HubValveBlock_1,
    met_HubValveBlock_3, met_HubValveBlock_11, met_HubValveBlock_7, met_HubValveBlock_9, met_HubValveBlock_13,
    met_HubValveBlock_5, met_HubValveBlock_6, met_HubValveBlock_14, met_CellBlocking_1, met_CellBlocking_4,
    met_CellBlocking_5, met_CellBlocking_6, met_CellBlocking_8⟩

theorem witness_CompletesTwins :
    (∃ (s : State) (fr str : List Byte), s.twinOn = true ∧ s.TwinFrameOk 1 fr str ∧ s.is F.TWIN_STAT_BOND = true ∧
      s.is F.TWIN_STAT_KEYED = false ∧ s.side = 1 ∧ kxSound str (kxEph str) = true ∧ s.isPeer (keyId (kxPub str)) 3
      = true ∧ (ecdhX s.twin.link.priv (kxEph str)).isSome = true ∧ s.laneSends 4 = true ∧ s.laneSends 5 = true) ∧
    (∃ (s : State) (fr b : List Byte), s.twinOn = true ∧ s.TwinFrameOk 2 fr b) ∧
    (∃ (s : State) (fr b : List Byte), s.twinOn = true ∧ s.TwinFrameOk 3 fr b ∧ s.twin.active = false ∧ s.is
      F.TWIN_STAT_SELF = false) ∧
    (∃ (s : State) (fr b : List Byte), s.twinOn = true ∧ s.TwinFrameOk 4 fr b ∧ s.twin.active = false) ∧
    (∃ (s : State) (fr b : List Byte) (g : Staging), s.twinOn = true ∧ s.TwinFrameOk 5 fr b ∧ s.twin.active = false
      ∧ s.twin.staging = [g] ∧ g.commit = none ∧ g.x = ofBe (b.take 4) ∧ (stagedBytes g.data (ofBe ((b.drop 7).take
      4))).map crc32c = some (ofBe ((b.drop 11).take 4))) ∧
    (∃ (s : State) (k : Key), s.hubRef = true ∧ s.twin.ref.rx.isSome = true ∧ s.twin.ref.tx = some k) ∧
    (∃ (s : State) (p : Nat) (k k' : Key), s.refServes p = true ∧ (s.refLink (2 * p)).keys.tx = some k ∧ (s.refLink
      (2 * p + 1)).keys.tx = some k') ∧
    (∃ (s : State) (l : Nat) (fr : List Byte) (n : Nat) (b : List Byte), s.refServes (l / 2) = true ∧ l < 4 ∧
      refCheck (s.refLink l).keys (s.pairHub (l / 2)) (l % 2) 0x11 fr = .ok n b) ∧
    (∃ (s : State) (p h : Nat), s.refServes p = true ∧ h < 2 ∧ (s.refPair p).listening = false ∧ s.pairActive p =
      some h ∧ s.get (F.REF_PSTAT_STATE p) = 1 ∧ (s.refPair p).takeTo = none ∧ s.get (F.REF_LSTAT_MISS (2 * p + h))
      + 1 = s.pairMiss p ∧ s.is (F.REF_LSTAT_VALID (2 * p + (1 - h))) = true ∧ s.linkHealth (2 * p + (1 - h)) 2 =
      false ∧ s.linkHealth (2 * p + (1 - h)) 1 = true) ∧
    (∃ (s : State) (p : Nat), s.refServes p = true ∧ (s.refPair p).listening = true ∧ s.is (F.REF_LSTAT_VALID (2 * p
      + 1)) = true ∧ s.linkHealth (2 * p + 1) 0 = true ∧ s.is (F.REF_LSTAT_VALID (2 * p)) = false) ∧
    (∃ (s : State) (l : Nat) (fr : List Byte) (n : Nat) (b : List Byte), s.isRef = true ∧ s.refServes (l / 2) = true
      ∧ refCheck (s.refLink l).keys (s.pairHub (l / 2)) (l % 2) 0x31 fr = .ok n b ∧ (nth b 0 0).toNat = 0) ∧
    (∃ (s : State) (fr : List Byte) (n : Nat) (b : List Byte), s.hubRef = true ∧ refCheck s.twin.ref s.hubNo s.side
      0x22 fr = .ok n b ∧ newer (refWatch b) (s.get F.TWIN_WATCH_OWN) = true ∧ newer (s.get F.TWIN_WATCH_SEEN)
      (refWatch b) = false ∧ s.twin.active = false) ∧
    (∃ (s : State) (fr : List Byte) (n : Nat) (b : List Byte), s.hubRef = true ∧ refCheck s.twin.ref s.hubNo s.side
      0x23 fr = .ok n b ∧ newer (refWatch b) (s.get F.TWIN_WATCH_OWN) = true) ∧
    (∃ (s : State) (fr : List Byte) (n : Nat) (b : List Byte), s.hubRef = true ∧ refCheck s.twin.ref s.hubNo s.side
      0x21 fr = .ok n b ∧ newer (refWatch b) (s.get F.TWIN_WATCH_SEEN) = true ∧ s.twin.active = false) ∧
    (∃ (s : State), s.alive = true ∧ s.isHub = true ∧ s.is F.SYS_TOPO_TWIN = true ∧ s.runs Pg.REF = true) ∧
    (∃ (s : State), s.selfStandby = true ∧ s.takeoverCase ≠ 0) ∧
    (∃ (s : State), s.selfStandby = true ∧ s.is F.TWIN_ARB_PREF = true ∧ s.is F.TWIN_STAT_BOND = true ∧ s.reg
      R.REF_HFAIL = 0 ∧ s.is F.TWIN_STAT_READY = true) ∧
    (∃ (s : State) (p : Path) (d : Word), s.pathOpen p = true ∧ getBits d 12 1 = 0 ∧ s.queueFull (getBits d 0 5) =
      false ∧ s.slotsFree ≠ 0) ∧
    (∃ (s : State) (q : Nat), s.alive = true ∧ q < 8 ∧ s.hwQueue q = true ∧ (q < 4 ∨ q = 5) ∧ s.queueFull q = false
      ∧ s.slotsFree ≠ 0) ∧
    (∃ (s : State) (q : Nat) (it : Item), s.schedOn = true ∧ s.enabled Pg.TIME = false ∧ s.sch.held = [] ∧
      s.sch.queues = [(q, [it])] ∧ workerOf q = 0 ∧ q < 32 ∧ s.is (F.SCHQ_CFG_EN q) = true ∧ s.flowBusy it.flow =
      false ∧ s.sch.mail.length < 4) ∧
    (∃ (s : State) (p : Path) (slot : Nat) (l : List Nat) (it : Item), s.pathOpen p = true ∧ s.sch.mail = slot :: l
      ∧ s.sch.svc.find? (fun x => x.slot == slot) = some it ∧ it.timed = none) ∧
    (∃ (s : State) (p : Path) (h : Nat) (it : Item), s.pathOpen p = true ∧ s.named h (s.sch.svc.filter fun x =>
      workerOf x.queue == 0) = some it ∧ it.timed = none) ∧
    (∃ (s : State) (it : Item) (rel per : Nat), s.schedOn = true ∧ s.enabled Pg.TIME = true ∧ s.sch.lists = [[it],
      [], [], []] ∧ it.timed = some (0, rel, per) ∧ relDue s.schedNow rel = true ∧ it.ready ≠ s.schedNow ∧
      s.queueFull it.queue = false) ∧
    (∃ (s : State) (p : Path) (h : Nat) (it : Item), s.pathOpen p = true ∧ s.named h s.items = some it ∧
      (s.sch.svc.any fun x => x.slot == it.slot) = false) ∧
    (∃ (s : State) (p : Path) (q : Nat), s.pathOpen p = true ∧ q < 32) ∧
    (∃ (s : State) (slot : Nat) (it : Item), s.schedOn = true ∧ s.sch.svc.find? (fun x => x.slot == slot && workerOf
      x.queue == 0 && !x.stuck) = some it) ∧
    (∃ (s : State), s.phase = .running ∧ s.is F.ERR_CFG_SCRUB = true ∧ kvFind s.memErr (scrubWord s.arb.scrubAt) =
      none ∧ s.arb.scrubAt + 1 < s.scrubWords) ∧
    (∃ (s : State) (q : ArbReq), s.alive = true ∧ s.arbValid q = true ∧ s.is F.MEM_STAT_LOCKED = false ∧ q.lock =
      false ∧ s.arb.armed = false ∧ q.data ≠ [] ∧ s.memErr = [] ∧ s.get F.ERR_INJ_NBIT = 0 ∧ s.isRef = false ∧
      s.isProtected q.addr q.data.length = false) ∧
    (∃ (s : State) (p : Path), s.pathOpen p = true) ∧
    (∃ (s : State) (p : Path), s.pathOpen p = true ∧ s.is F.MEM_STAT_LOCKED = true ∧ s.get F.MEM_STAT_OWNER = 1) ∧
    (∃ (s : State) (c : Nat), s.alive = true ∧ s.is F.MEM_STAT_LOCKED = true ∧ 1 ≤ c ∧ c ≤ 3 ∧ (c ≠ 2 ∨ s.lockMax ≤
      s.arb.grants) ∧ s.arb.words.length ≤ 255) ∧
    (∃ (s : State) (p : Path) (c : Nat), s.pathOpen p = true ∧ c < 4 ∧ s.handled = c + 1 ∧ s.err.pend = []) ∧
    (∃ (s : State) (p : Path) (d : Word), s.pathOpen p = true ∧ 0x80 ≤ getBits d 8 8 ∧ s.err.log = []) :=
  ⟨met_TwinFrames_2, met_TwinFrames_3, met_TwinFrames_4, met_TwinFrames_6, met_TwinFrames_7, met_RefereeAtHub_1,
    met_RefereeDecisions_7, met_RefereeDecisions_1, met_RefereeDecisions_3, met_RefereeDecisions_5,
    met_RefereeDecisions_8, met_RefereeAtHub_2, met_RefereeAtHub_4, met_RefereeAtHub_5, met_RefereeAtHub_6,
    met_RefereeAtHub_8, met_RefereeAtHub_9, met_SchedulerItems_1, met_SchedulerItems_5, met_SchedulerItems_15,
    met_SchedulerItems_7, met_SchedulerItems_9, met_SchedulerItems_17, met_SchedulerItems_14, met_FlushCancels_1,
    met_SchedulerItems_20, met_MemoryErrors_1, met_ArbiterAndLocks_1, met_ArbiterAndLocks_5, met_ArbiterAndLocks_6,
    met_ArbiterAndLocks_8, met_MemoryErrors_6, met_MemoryErrors_8⟩

theorem witness_CompletesStation :
    (∃ (s : State) (c : RecChunk) (l : List RecChunk), s.alive = true ∧ s.isHub = true ∧ s.recd.full = c :: l ∧
      s.recd.tail = [] ∧ (s.sch.svc.any fun it => it.queue == 6 && it.hw && it.flow == c.seq) = true ∧ s.memErr = []
      ∧ s.get F.ERR_INJ_NBIT = 0 ∧ s.segBase c.seg + c.off + c.data.length ≤ 0x303FF000) ∧
    (∃ (s : State), s.alive = true ∧ s.isHub = true ∧ s.runs Pg.REC = true ∧ s.recState = 4 ∧ s.get F.REC_HOLD_MODE
      = 1) ∧
    (∃ (s : State) (p : Path), s.Reaches p Pg.REC ∧ s.isHub = true ∧ (s.recState = 1 ∨ s.recState = 2)) ∧
    (∃ (s : State) (p : Path) (i : Nat), s.Reaches p Pg.REC ∧ s.isHub = true ∧ i < 16 ∧ s.segState i = 3 ∧
      s.recState ≠ 5 ∧ s.memErr = [] ∧ s.get F.ERR_INJ_NBIT = 0) ∧
    (∃ (s : State) (p : Path), s.Reaches p Pg.REC ∧ s.isHub = true ∧ s.recState ≠ 5 ∧ s.memErr = [] ∧ s.get
      F.ERR_INJ_NBIT = 0) ∧
    (∃ (s : State) (p : Path), s.Reaches p Pg.REC ∧ s.isCell = true ∧ s.is F.REC_BBSTAT_FROZEN = true ∧ s.get
      F.REC_BBSTAT_WHY ≠ 6) ∧
    (∃ (s : State) (p : Path) (k : Nat), s.Reaches p (Pg.MON k) ∧ k < 2) ∧
    (∃ (s : State) (p : Path) (d : Word), s.Reaches p (Pg.MON 0) ∧ s.is (F.LT_CTL_LOCK 0) = false ∧ getBits d 0 4 <
      12) ∧
    (∃ (s : State) (p : Path), s.Reaches p (Pg.MON 0)) ∧
    (∃ (s : State), s.alive = true ∧ sFinite (s.win 8).mean = true ∧ (s.reg (R.LT_CNT_LO 0 (2 + tempBin (sVal (s.win
      8).mean).floor))).toNat < 2 ^ 32 - 1) ∧
    (∃ (s : State), s.alive = true ∧ (sFinite (s.reg (R.LT_CAPIN 0)) && sLt 0 (s.reg (R.LT_CAPIN 0))) = true ∧
      (s.reg (R.LT_CNT_LO 0 11)).toNat < 2 ^ 32 - 1) ∧
    (∃ (s : State) (p : Nat), s.stnOn = true ∧ p < 2 ∧ s.linkUp p = false) ∧
    (∃ (s : State) (f : EthRx) (str : List Byte), s.stnOn = true ∧ s.EthTaken f ∧ s.stnKind f = .kx ∧ s.destTaken
      (innerBody f) = true ∧ etolwickFmt (innerBody f) = true ∧ etolwickBody (innerBody f) = str ∧ s.stn.keys.priv ≠
      0 ∧ kxSound str (pubOf s.stn.keys.priv ++ kxEph str) = true ∧ s.isPeer (keyId (kxPub str)) 1 = true ∧ (ecdhX
      s.stn.keys.priv (kxEph str)).isSome = true) ∧
    (∃ (s : State) (p : Path), s.Reaches p Pg.STN ∧ s.stnOn = true ∧ s.isHub = true ∧ s.stn.txq = [] ∧
      s.stnPorts.all (fun q => s.laneSends (6 + q)) = true) ∧
    (∃ (s : State) (p : Path), s.Reaches p Pg.STN) ∧
    (∃ (s : State) (f : EthRx), s.stnOn = true ∧ s.EthTaken f ∧ s.stnKind f = .setpoint ∧ s.destTaken (innerBody f)
      = true ∧ etolwickFmt (innerBody f) = true ∧ s.spFmt (etolwickBody (innerBody f)) = true ∧ s.stnTagOk
      (innerBody f) = true ∧ s.seqNew (beAt (innerBody f) 4 6) = true ∧ beAt (innerBody f) 4 6 < 2 ^ 40) ∧
    (∃ (s : State), s.stnOn = true ∧ s.is F.STN_STAT_SPF = true) ∧
    (∃ (s : State) (f : EthRx) (r : StnRec), s.stnOn = true ∧ s.isHub = true ∧ s.EthTaken f ∧ s.stnKind f = .mgmt ∧
      s.destTaken (innerBody f) = true ∧ etolwickFmt (innerBody f) = true ∧ requestOf (etolwickBody (innerBody f)) =
      some [r] ∧ s.stnTagOk (innerBody f) = true ∧ s.seqNew (beAt (innerBody f) 4 6) = true ∧ beAt (innerBody f) 4 6
      < 2 ^ 40 ∧ r.valid = true ∧ r.op = 1 ∧ (s.sch.held.any fun h => h.1 == 4) = false) ∧
    (∃ (s : State) (q : Nat) (x : StnReq), s.stnOn = true ∧ kvFind s.stn.reqs q = some x ∧ (x.recs.all fun r =>
      r.ans.isSome) = true ∧ s.stn.txq = [] ∧ s.stnPorts.all (fun p => s.laneSends (6 + p)) = true ∧
      s.stn.keys.txSeq + 1 < 2 ^ 40) ∧
    (∃ (s : State) (f : EthRx) (c : Nat) (a : Nat × Nat × List Byte), s.stnOn = true ∧ s.EthTaken f ∧ s.stnKind f =
      .sv c ∧ c < s.stn.sv.length ∧ svAsdus (innerBody f) = [a] ∧ a.2.2.length = 64) ∧
    (∃ (s : State) (c : Nat), s.stnOn = true ∧ s.isHub = true ∧ c < 4 ∧ s.is (F.STN_SVCFG_EN c) = true) ∧
    (∃ (s : State) (p : Path) (i : Nat), s.Reaches p Pg.STN ∧ s.stnOn = true ∧ i < 32 ∧ s.stn.txq = [] ∧ s.memErr =
      [] ∧ s.stnPorts.all (fun q => s.laneSends (6 + q)) = true ∧ bitOf (s.txDesc i).2.1 12 = false ∧ bitOf
      (s.txDesc i).2.1 13 = false ∧ bitOf (s.txDesc i).2.1 14 = false) ∧
    (∃ (s : State) (i : Nat), s.stnOn = true ∧ s.runs Pg.TIME = true ∧ s.stn.txq = [i] ∧ s.stn.later = [] ∧ s.memErr
      = [] ∧ s.stnPorts.all (fun p => s.laneSends (6 + p)) = true ∧ bitOf (s.txDesc i).2.1 12 = true ∧ bitOf
      (s.txDesc i).2.1 13 = false ∧ bitOf (s.txDesc i).2.1 14 = false) ∧
    (∃ (s : State) (f : EthRx), s.stnOn = true ∧ s.EthTaken f ∧ s.stnKind f = .other ∧ (s.get F.STN_RXPTR_HEAD + 1)
      % 32 ≠ s.get F.STN_RXPTR_TAIL ∧ s.memErr = [] ∧ s.get F.ERR_INJ_NBIT = 0 ∧ s.isProtected ((s.reg
      R.STN_RXBASE).toNat + 2048 * s.get F.STN_RXPTR_HEAD) (f.body.length + 18) = false) ∧
    (∃ (s : State) (c : StnChunk) (l : List StnChunk), s.stnOn = true ∧ s.isHub = true ∧ s.stn.strm = c :: l ∧
      s.stnPorts ≠ [] ∧ s.is F.STN_STAT_KEYED = true ∧ s.memErr = [] ∧ s.stn.txq = [] ∧ s.stnPorts.all (fun p =>
      s.laneSends (6 + p)) = true ∧ s.stn.keys.txSeq + 4 < 2 ^ 40) ∧
    (∃ (s : State), s.stnOn = true ∧ s.is F.STN_CFG_PRP = true ∧ s.stn.txq = [] ∧ s.stnPorts.all (fun p =>
      s.laneSends (6 + p)) = true) ∧
    (∃ (s : State), s.pins.vddio = true ∧ s.pins.rails = false) ∧
    (∃ (s : State) (n : Nat), s.Settled ∧ s.gateLive = true ∧ n < 4) ∧
    (∃ (s : State), s.hubLive = true) ∧
    (∃ (s : State) (p : Nat), s.stnOn = true ∧ p < 2 ∧ s.linkUp p = true) ∧
    (∃ (s : State), s.alive = true ∧ s.is F.DBG_STAT_OPEN = true ∧ s.isHub = true ∧ s.is F.SAFE_HCFG_DBGBLK = true) ∧
    (∃ (s : State), s.Settled ∧ s.alive = true ∧ s.isHub = true) ∧
    (∃ (s : State) (n x : Nat), s.Settled ∧ s.alive = true ∧ s.isHub = true ∧ s.runs Pg.TIME = true ∧ n < 6 ∧ nth
      s.gate.tevEnd n none = some x) ∧
    (∃ (s : State), s.Settled ∧ s.gateLive = true ∧ 1 < s.gate.thyLeft ∧ max 1 (s.get F.GATE_THY_PW) < max 1 (s.get
      F.GATE_THY_PER)) :=
  ⟨met_RecorderCommands_1, met_RecorderCommands_3, met_RecorderCommands_4, met_RecorderCommands_6,
    met_RecorderCommands_8, met_RecorderCommands_9, met_RecorderCommands_10, met_RecorderCommands_11,
    met_RecorderCommands_13, met_RecorderCommands_14, met_RecorderCommands_15, met_StationFrames_1,
    met_StationFrames_4, met_StationTransactions_10, met_StationTransactions_11, met_StationFrames_5,
    met_StationFrames_7, met_StationTransactions_1, met_StationTransactions_3, met_StationFrames_8,
    met_StationFrames_9, met_StationTransactions_4, met_StationTransactions_6, met_StationFrames_10,
    met_StationTransactions_8, met_StationTransactions_9, met_SupplyCommands_5, met_FaultLogic_6,
    met_HubValveBlock_4, met_StationFrames_3, met_HubValveBlock_15, met_TimeUnit_8, met_GateStops_14,
    met_GateStops_4⟩

end Sys2Proof.Tests
end

section
/-! PROOFS. Terminals of a cell (02_pins_package.md, R49 to R54) while the GPIO page is held (R70). The model's `runs` counts
HELD against every page, GPIO too, although log 132 lets a held infrastructure page other than the scheduler's go on; a
command that acts only while the GPIO page runs then does nothing. -/

namespace Sys2Proof.Machine

namespace State

/-- HELD stops the block of every page. -/
theorem runs_eq_false_of_held {s : State} {pg : Nat} (h : s.is (F.PG_STAT_HELD pg) = true) : s.runs pg = false := by
  simp [runs, h]

end State

/-- A command whose condition fails changes nothing. -/
theorem act_eq_self_of_not {s : State} {c : Bool} (f : State → State) (h : c = false) : act s c f = .next s := by
  simp [act, h]

theorem exec_ledToggle (s : State) : exec .ledToggle s = execLedToggle s := rfl

theorem exec_pageHeld (page : Nat) (s : State) : exec (.pageHeld page) s = execPageHeld page s := rfl

/-- The status LED keeps its level while the GPIO page is held. -/
theorem exec_ledToggle_of_held {s : State} (h : s.is (F.PG_STAT_HELD Pg.GPIO) = true) : exec .ledToggle s = .next s := by
  rw [exec_ledToggle]
  exact act_eq_self_of_not _ (by simp [State.runs_eq_false_of_held h])

/-- A running cell whose LED blinks (GPIO_LED.MODE = 2) and whose GPIO page is enabled and asked to hold. -/
def blinkingCell : State :=
  { role := .cell, phase := .running, pins := { nRst := true }
    regs := [(R.PG_CTRL Pg.GPIO, 5), (R.GPIO_LED, 2)]
    gate := { hist := [(0, .block)] } }

/-- That cell with its GPIO page held. -/
def heldBlinkingCell : State := blinkingCell.set (F.PG_STAT_HELD Pg.GPIO) 1

/-- PAGE_HELD leads from the one to the other: the state of the refutation is one that a command leaves. -/
theorem exec_pageHeld_blinkingCell : exec (.pageHeld Pg.GPIO) blinkingCell = .next heldBlinkingCell := by
  have hc : (blinkingCell.alive && present blinkingCell.role Pg.GPIO && blinkingCell.is (F.PG_CTRL_HOLD Pg.GPIO)
      && blinkingCell.runs Pg.GPIO) = true := by decide
  have ht : heldBlinkingCell.meridiansStop.resumeHeld.settle = heldBlinkingCell := by decide +kernel
  rw [exec_pageHeld, execPageHeld, act, if_pos hc]
  exact congrArg Host.Outcome.next ht

/-- Refutes O11: its LED clause does not ask that the GPIO page runs. In `heldBlinkingCell` every hypothesis of the clause
holds and LED_TOGGLE leaves the state as it is, where the clause has the LED change its level. -/
theorem not_terminalsAndUart : ¬ Obligations.TerminalsAndUart := by
  intro h
  obtain ⟨-, -, -, -, -, -, -, -, -, hled⟩ := h
  have toggled := hled heldBlinkingCell (by decide) (by decide) (by decide) (by decide) (by decide)
  have kept : exec .ledToggle heldBlinkingCell = .next heldBlinkingCell := exec_ledToggle_of_held (by decide)
  have hs := Host.Outcome.next.inj (kept.symm.trans toggled)
  have hpin : heldBlinkingCell.pins.gpioLed = !heldBlinkingCell.pins.gpioLed := congrArg (fun t => t.pins.gpioLed) hs
  exact absurd hpin (by decide)

end Sys2Proof.Machine
end

section
/-! PROOFS. What the hardwired logic behind every command can change, whatever the role (R471, R508, R513, R519, R564, R566,
R687); and that a command answers one state. -/

namespace Sys2Proof.Machine

/-- An update of the safety block beyond its registers. -/
theorem frame_safe (s : State) (x : SafeSt) : Frame [.safe] [] s { s with safe := x } :=
  frame_of_parts rfl rfl fun p hp => by
    cases p <;> simp_all [Part.same, State.byte]

/-- An update of the tree ports beyond their registers. -/
theorem frame_ports (s : State) (x : List PortSt) : Frame [.ports] [] s { s with ports := x } :=
  frame_of_parts rfl rfl fun p hp => by
    cases p <;> simp_all [Part.same, State.byte]

/-- An update of the twin block beyond its registers. -/
theorem frame_twin (s : State) (x : TwinSt) : Frame [.twin] [] s { s with twin := x } :=
  frame_of_parts rfl rfl fun p hp => by
    cases p <;> simp_all [Part.same, State.byte]

theorem frame_forceGates (s : State) : Frame [.gate] [] s s.forceGates := by
  rw [State.forceGates_eq]
  exact frame_gate s _

theorem frame_forceDb (s : State) : Frame [.safe] [] s s.forceDb := by
  rw [State.forceDb_eq]
  exact frame_safe s _

theorem frame_recordState (s : State) : Frame [.gate] [] s s.recordState := by
  rw [State.recordState_eq]
  exact frame_gate s _

theorem frame_selfEnter (s : State) :
    Frame [.recd] [R.TWIN_STAT, R.PG_EVT Pg.REF, R.PG_EVT Pg.TWIN] s s.selfEnter := by
  unfold State.selfEnter
  refine Frame.ite ?_ (Frame.refl _ _ _)
  exact ((frame_set s F.TWIN_STAT_SELF 1).trans ((frame_event _ _ _).trans (frame_event _ _ _))).mono (by simp) (by decide)

theorem frame_forceVb (s : State) : Frame [.safe, .ports, .recd] [R.PG_EVT Pg.SAFE] s s.forceVb := by
  unfold State.forceVb
  refine Frame.ite ?_ (Frame.refl _ _ _)
  exact (frame_safe s _).trans ((frame_ports _ _).trans (frame_event _ _ _))

theorem frame_markReclaim (s : State) : Frame [.twin] [] s s.markReclaim := by
  unfold State.markReclaim
  exact Frame.ite (Frame.refl _ _ _) (frame_twin s _)

/-- Settling changes the gate and safety blocks, the tree ports, the record of events, the twin block, TWIN_STAT and the
events of three pages. -/
theorem frame_settle (s : State) : Frame [.gate, .safe, .ports, .recd, .twin]
    [R.TWIN_STAT, R.PG_EVT Pg.REF, R.PG_EVT Pg.TWIN, R.PG_EVT Pg.SAFE] s s.settle := by
  by_cases hc : s.role = .cell
  · rw [State.settle_cell hc]
    exact ((frame_forceGates s).trans ((frame_forceDb _).trans (frame_recordState _))).mono (by simp) (by simp)
  · by_cases hh : s.role = .hub
    · rw [State.settle_hub hh]
      exact ((frame_selfEnter s).trans ((frame_forceVb _).trans (frame_markReclaim _))).mono (by simp) (by simp)
    · rw [State.settle_other hc hh]
      exact Frame.refl _ _ s

namespace State

@[simp] theorem settle_host (s : State) : s.settle.host = s.host := (frame_settle s).1 .host (by decide)
@[simp] theorem settle_time (s : State) : s.settle.time = s.time := (frame_settle s).1 .time (by decide)
@[simp] theorem settle_rx (s : State) : s.settle.rx = s.rx := (frame_settle s).1 .rx (by decide)

end State

/-- A command whose condition holds answers its function's state, settled. -/
theorem act_eq_settle {s : State} {c : Bool} (f : State → State) (h : c = true) : act s c f = .next (f s).settle := by
  simp [act, h]

/-- A command whose condition holds yields what holds of its function's state, settled. -/
theorem yields_of_act {c : Instr} {s : State} {b : Bool} {f : State → State} {P : State → Prop}
    (he : exec c s = act s b f) (hb : b = true) (hP : P (f s).settle) : Yields c s P :=
  ⟨_, he.trans (act_eq_settle f hb), hP⟩

/-- A command answers one state: what two statements say of its answer holds together. -/
theorem Yields.both {c : Instr} {s : State} {P Q : State → Prop} (h : Yields c s P) (g : Yields c s Q) :
    ∃ t, P t ∧ Q t := by
  obtain ⟨t, ht, hp⟩ := h
  obtain ⟨u, hu, hq⟩ := g
  obtain rfl : t = u := Host.Outcome.next.inj (ht.symm.trans hu)
  exact ⟨t, hp, hq⟩

end Sys2Proof.Machine
end

section
/-! PROOFS. The release request at the host port (R46, R85, R90): every response of the port carries the request that waits,
which then waits no longer. A write of HOST_REL while PEND = 1 is ignored, but its response is a response. -/

namespace Sys2Proof.Machine

namespace State

/-- A response tells the release request that waits. -/
@[simp] theorem respondHost_relWait (s : State) (code index : Nat) (data : List Word) :
    (s.respondHost code index data).host.relWait = 0 := rfl

/-- A transaction with a right CRC is answered, so no release request waits after it. -/
theorem hostTrans_relWait {s : State} {cmd : List Byte} {crc : Nat} (ready : Bool)
    (f : State → Nat × Nat × List Word × State) (h : crc16 cmd = crc % 65536) :
    (s.hostTrans cmd crc ready f).host.relWait = 0 := by
  unfold hostTrans
  rw [if_neg (not_not.mpr h)]
  split
  · exact respondHost_relWait _ _ _ _
  · dsimp only
    split <;> exact respondHost_relWait _ _ _ _

end State

theorem exec_hostMwr (addr : Nat) (mask data : Word) (crc : Nat) (ready : Bool) (s : State) :
    exec (.hostMwr addr mask data crc ready) s = execHostMwr addr mask data crc ready s := rfl

theorem exec_releaseRequest (path : Path) (ms : Nat) (s : State) :
    exec (.releaseRequest path ms) s = execReleaseRequest path ms s := rfl

/-- After a host masked write with a right CRC no release request waits. -/
theorem yields_hostMwr_relWait {s : State} {addr crc : Nat} {mask data : Word} (ready : Bool) (hon : s.hostOn = true)
    (hcrc : crc16 ([Op.mwr] ++ beBytes 2 addr ++ beBytes 4 mask.toNat ++ beBytes 4 data.toNat) = crc % 65536) :
    Yields (.hostMwr addr mask data crc ready) s fun t => t.host.relWait = 0 := by
  refine yields_of_act (exec_hostMwr ..) hon ?_
  rw [State.settle_host]
  exact State.hostTrans_relWait ready _ hcrc

/-- A running hub whose bus the host holds. -/
def hostedHub : State := { role := .hub, phase := .running, pins := { nRst := true }, host := { bus := .host } }

/-- That hub with a release request of 5 ms that no response has told yet. -/
def requestingHub : State :=
  { hostedHub with regs := [(R.HOST_REL, 0x80000005)], host := { bus := .host, relWait := 5 } }

/-- RELEASE_REQUEST leads from the one to the other: the state of the refutation is one that a command leaves. -/
theorem exec_releaseRequest_hostedHub : exec (.releaseRequest .host 5) hostedHub = .next requestingHub := by
  have ht : (hostedHub.writeCmd .host 4 F.HOST_REL_DUR.addr
      (put F.HOST_REL_DUR 5 (hostedHub.viewWord (pathIdx .host) F.HOST_REL_DUR.addr))).settle = requestingHub := by
    decide +kernel
  rw [exec_releaseRequest, execReleaseRequest, fieldRow, writeRow, act_eq_settle _ (by decide)]
  exact congrArg Host.Outcome.next ht

/-- Refutes O49: its clauses for the host's own port say that the request goes on waiting. In `requestingHub` PEND
is 1; a masked write of HOST_REL with a right CRC is answered, and the answer tells the request (R46), which then waits no
longer. -/
theorem not_hostReleaseIgnored : ¬ Obligations.HostReleaseIgnored := by
  intro h
  obtain ⟨-, -, -, -, hmwr⟩ := h
  have kept := hmwr requestingHub 0xFFF 7 48665 true (by decide)
  have told := yields_hostMwr_relWait (s := requestingHub) (addr := R.HOST_REL) (crc := 48665) (mask := 0xFFF) (data := 7) true
    (by decide) (by decide +kernel)
  obtain ⟨t, ⟨-, hkept⟩, htold⟩ := kept.both told
  have hwait : requestingHub.host.relWait = 0 := hkept.symm.trans htold
  exact absurd hwait (by decide)

end Sys2Proof.Machine
end

section
/-! PROOFS. The room for responses at a cell (R289, R313): the KXH answer still to be sent takes the place of a response, so
that with three responses queued beside it a record that wants an answer finds no room. -/

namespace Sys2Proof.Machine

namespace State

/-- A record that wants an answer is dropped where four wait. -/
theorem withRoom_eq_mqDrop {s : State} {u b : Nat} (f : State → State) (hown : s.ownBerth u b = true)
    (hfull : 4 ≤ (s.uplink u).waiting) : s.withRoom u b f = s.mqDrop u := by
  simp [withRoom, hown, hfull]

@[simp] theorem mqDrop_rx (s : State) (u : Nat) : (s.mqDrop u).rx = s.rx := rfl

end State

theorem exec_mgmtRdRecord (u b tid a n : Nat) (s : State) :
    exec (.mgmtRdRecord u b tid a n) s = execMgmtRdRecord u b tid a n s := rfl

/-- An RD record that finds no room leaves the uplinks as they are. -/
theorem yields_mgmtRdRecord_of_full {s : State} {u b n : Nat} (tid a : Nat) (hon : s.frameOn u = true)
    (hkey : s.keyed u = true) (hown : s.ownBerth u b = true) (hfull : 4 ≤ (s.uplink u).waiting) (hn : 1 ≤ n ∧ n ≤ 5) :
    Yields (.mgmtRdRecord u b tid a n) s fun t => t.rx = s.rx := by
  refine yields_of_act (exec_mgmtRdRecord ..) (by simp [hon, hkey]) ?_
  rw [State.settle_rx, if_pos hn, State.recRd, State.withRoom_eq_mqDrop _ hown hfull, State.mqDrop_rx]

/-- A cell that holds its keys on uplink 0 at berth 2, there three responses and the KXH answer of a renewal wait. -/
def renewingCell : State :=
  { role := .cell, phase := .running, pins := { nRst := true }
    regs := [(R.PG_CTRL (Pg.TREE 0), 1), (R.PG_STAT (Pg.TREE 0), 1)]
    rx := { up := [{ port := some 0, berth := some 2, group := some 5, session := some 6, wrap := some 7,
                     resps := [1, 2, 3].map fun tid => { rtype := 0x11, tid, code := Code.ok, index := 0, data := [] },
                     chunks := List.replicate 192 0 }, {}] } }

/-- Refutes O21: its clauses ask for fewer than four responses queued, where the model counts the KXH answer among those
that wait. In `renewingCell` three responses are queued, and an RD record with TID 9 is dropped: the last response stays
that of TID 3. -/
theorem not_cellManagement : ¬ Obligations.CellManagement := by
  intro h
  obtain ⟨hrd, -⟩ := h
  have queued := hrd renewingCell 0 2 9 0x40 1 (by decide) (by decide) (by decide) (by decide) (by decide) (by decide)
  have dropped := yields_mgmtRdRecord_of_full (s := renewingCell) (u := 0) (b := 2) (n := 1) 9 0x40 (by decide) (by decide)
    (by decide) (by decide) (by decide)
  obtain ⟨t, hlast, hrx⟩ := queued.both dropped
  have hup : t.uplink 0 = renewingCell.uplink 0 := congrArg (fun x : RxSt => nth x.up 0 {}) hrx
  rw [hup] at hlast
  have htid : ((renewingCell.uplink 0).resps.getLast?.map fun r => r.tid) = some 9 := by
    simpa using congrArg (Option.map fun r => r.2.1) hlast
  exact absurd htid (by decide)

end Sys2Proof.Machine
end

section
/-! PROOFS. HOLD of the TIME page (R70): its block held, no meridian runs (R226), so that the next one to fire is counted
afresh. -/

namespace Sys2Proof.Machine

namespace State

/-- Where no meridian runs, the cycle numbers do not count on. -/
theorem meridiansStop_cont {s : State} (h : s.meridiansOn = false) : s.meridiansStop.time.cont = false := by
  simp [meridiansStop, h]

/-- With the TIME page held no meridian runs. -/
theorem meridiansOn_eq_false_of_held {s : State} (h : s.is (F.PG_STAT_HELD Pg.TIME) = true) : s.meridiansOn = false := by
  simp [meridiansOn, runs_eq_false_of_held h]

/-- Setting HELD of a page sets it. -/
theorem is_held_set (s : State) (pg : Nat) : (s.set (F.PG_STAT_HELD pg) 1).is (F.PG_STAT_HELD pg) = true := by
  unfold is
  rw [get_set_same _ _ _ (by simp [F.PG_STAT_HELD])]
  rfl

/-- Releasing holds leaves the time unit alone. -/
theorem holdsRelease_time (s : State) : s.holdsRelease.time = s.time := by
  unfold holdsRelease
  generalize 48 = k
  induction k with
  | zero => rfl
  | succ k ih =>
    rw [forUpTo, ← ih]
    split <;> rfl

@[simp] theorem resumeHeld_time (s : State) : s.resumeHeld.time = s.time := by
  unfold resumeHeld
  split
  · rfl
  · exact holdsRelease_time s

end State

/-- A TIME page that reaches its work boundary under HOLD stops the meridians. -/
theorem yields_pageHeld_time {s : State} (halive : s.alive = true) (hpres : present s.role Pg.TIME = true)
    (hhold : s.is (F.PG_CTRL_HOLD Pg.TIME) = true) (hruns : s.runs Pg.TIME = true) :
    Yields (.pageHeld Pg.TIME) s fun t => t.time.cont = false := by
  refine yields_of_act (exec_pageHeld ..) (by simp [halive, hpres, hhold, hruns]) ?_
  rw [State.settle_time, State.resumeHeld_time]
  exact State.meridiansStop_cont (State.meridiansOn_eq_false_of_held (State.is_held_set s _))

/-- A running cell whose meridians run. -/
def meridianCell : State :=
  { role := .cell, phase := .running, pins := { nRst := true }
    regs := [(R.PG_CTRL Pg.TIME, 1), (R.PG_STAT Pg.TIME, 1), (R.TIME_MER, 0x114)]
    time := { lastK := some 7, cont := true }, rx := { obeying := true }
    gate := { hist := [(0, .block)] } }

/-- That cell with its TIME page asked to hold. -/
def heldTimeCell : State := meridianCell.set (F.PG_CTRL_HOLD Pg.TIME) 1

theorem exec_pageHold (path : Path) (page : Nat) (on : Bool) (s : State) :
    exec (.pageHold path page on) s = execPageHold path page on s := rfl

/-- PAGE_HOLD leads from the one to the other: the state of the refutation is one that a command leaves. -/
theorem exec_pageHold_meridianCell : exec (.pageHold (.remote false false) Pg.TIME true) meridianCell = .next heldTimeCell := by
  have ht : (meridianCell.writeCmd (.remote false false) 4 (F.PG_CTRL_HOLD Pg.TIME).addr
      (put (F.PG_CTRL_HOLD Pg.TIME) 1
        (meridianCell.viewWord (pathIdx (.remote false false)) (F.PG_CTRL_HOLD Pg.TIME).addr))).settle = heldTimeCell := by
    decide +kernel
  rw [exec_pageHold, execPageHold, fieldRow, writeRow, act_eq_settle _ (by decide)]
  exact congrArg Host.Outcome.next ht

/-- Refutes O9: its clause for PAGE_HELD says that HELD alone changes. In `heldTimeCell` the TIME page reaches its work
boundary, and with it the meridians stop. -/
theorem not_pageHeader : ¬ Obligations.PageHeader := by
  intro h
  obtain ⟨-, -, -, -, -, hheld, -⟩ := h
  have alone : Yields (.pageHeld Pg.TIME) heldTimeCell fun t => t = heldTimeCell.set (F.PG_STAT_HELD Pg.TIME) 1 :=
    ⟨_, hheld heldTimeCell Pg.TIME (by decide) (by decide) (by decide) (by decide) (.inr (by decide)), rfl⟩
  have stopped := yields_pageHeld_time (s := heldTimeCell) (by decide) (by decide) (by decide) (by decide)
  obtain ⟨t, rfl, hcont⟩ := alone.both stopped
  exact absurd hcont (by decide)

end Sys2Proof.Machine
end

section
/-! PROOFS. Clock domains, clock sources and CLK_SRC (04_core_clocks.md): where the statements leave out a condition of the
spec. A held CLK page takes no ramp step (R70), XOSC does not fail before it is ready (R117), and a referee has no REFC
(R122). -/

namespace Sys2Proof.Machine

/-! A ramp under HOLD of the CLK page. -/

theorem exec_clkDomWrite (path : Path) (dom : Nat) (data : Word) (s : State) :
    exec (.clkDomWrite path dom data) s = execClkDomWrite path dom data s := rfl

theorem exec_rampStep (dom : Nat) (s : State) : exec (.rampStep dom) s = execRampStep dom s := rfl

/-- A domain keeps its divider while the CLK page is held. -/
theorem exec_rampStep_of_held {s : State} (dom : Nat) (h : s.is (F.PG_STAT_HELD Pg.CLK) = true) :
    exec (.rampStep dom) s = .next s := by
  rw [exec_rampStep]
  exact act_eq_self_of_not _ (by simp [State.runs_eq_false_of_held h])

/-- A running hub whose CLK page is asked to hold. -/
def holdingHub : State :=
  { role := .hub, phase := .running, pins := { nRst := true }, regs := [(R.PG_CTRL Pg.CLK, 5)] }

/-- That hub with domain 3 on its ramp from divider 4 to 2. -/
def rampingHub : State := (holdingHub.set (F.CLK_DOM_DIV 3) 2).set (F.CLK_DOM_RAMP 3) 1

/-- That hub with its CLK page held. -/
def heldRampingHub : State := rampingHub.set (F.PG_STAT_HELD Pg.CLK) 1

/-- A write of CLK_DOM3 starts the ramp. -/
theorem exec_clkDomWrite_holdingHub : exec (.clkDomWrite .supervisor 3 0x200) holdingHub = .next rampingHub := by
  have ht : (holdingHub.writeCmd .supervisor 4 (R.CLK_DOM 3) 0x200).settle = rampingHub := by decide +kernel
  rw [exec_clkDomWrite, execClkDomWrite, writeRow, act_eq_settle _ (by decide)]
  exact congrArg Host.Outcome.next ht

/-- PAGE_HELD follows it: the state of the refutation is one that commands leave. -/
theorem exec_pageHeld_rampingHub : exec (.pageHeld Pg.CLK) rampingHub = .next heldRampingHub := by
  have ht : heldRampingHub.meridiansStop.resumeHeld.settle = heldRampingHub := by decide +kernel
  rw [exec_pageHeld, execPageHeld, act_eq_settle _ (by decide)]
  exact congrArg Host.Outcome.next ht

/-- Refutes O6: its clauses for RAMP_STEP do not ask that the CLK page runs. In `heldRampingHub` a ramp is in progress and
the step leaves the divider as it is, where the clause has it fall by one. -/
theorem not_clockDomains : ¬ Obligations.ClockDomains := by
  intro h
  obtain ⟨-, -, -, -, hstep, -⟩ := h
  have lowered := hstep heldRampingHub 3 (by decide) (by decide) (by decide) (by decide)
  have kept : Yields (.rampStep 3) heldRampingHub fun t => t = heldRampingHub :=
    ⟨_, exec_rampStep_of_held 3 (by decide), rfl⟩
  obtain ⟨t, ⟨hcur, -⟩, rfl⟩ := lowered.both kept
  exact absurd hcur (by decide)

/-! XOSC without an edge before it is ready. -/

theorem exec_sourceNoEdge (m : Nat) (s : State) : exec (.sourceNoEdge m) s = execSourceNoEdge m s := rfl

theorem exec_xoscStartupEnd (count : Nat) (s : State) : exec (.xoscStartupEnd count) s = execXoscStartupEnd count s := rfl

/-- Before XOSC is ready, and for 1 ms after its start-up delay, a missing edge does not fail it. -/
theorem exec_sourceNoEdge_of_unready {s : State} (hr : s.clk.xoscReady = false) (hw : s.clk.xoscWait < 1000000) :
    exec (.sourceNoEdge 0) s = .next s := by
  rw [exec_sourceNoEdge]
  exact act_eq_self_of_not _ (by simp [hr, Nat.not_le.mpr hw])

/-- A running hub with XOSC enabled and in its start-up delay. -/
def startingHub : State :=
  { role := .hub, phase := .running, pins := { nRst := true }, regs := [(R.CLK_SRC, 1)] }

/-- That hub when the first window, out of tolerance, has ended the delay. -/
def unreadyHub : State :=
  { startingHub.set (F.CLK_MON_STAT_COUNT 0) 7 with clk := { xoscQuiet := false, xoscWait := 20000 } }

/-- XOSC_STARTUP_END leads from the one to the other: the state of the refutation is one that a command leaves. -/
theorem exec_xoscStartupEnd_startingHub : exec (.xoscStartupEnd 7) startingHub = .next unreadyHub := by
  have ht : (State.monitorWindow { startingHub with clk := { xoscQuiet := false } } 0 7).settle = unreadyHub := by
    decide +kernel
  rw [exec_xoscStartupEnd, execXoscStartupEnd, act_eq_settle _ (by decide)]
  exact congrArg Host.Outcome.next ht

/-- Refutes O7: its clause for a source without an edge makes no exception for an XOSC that is not ready (R117). In
`unreadyHub` XOSC is judged and gives no edge 20 us after its start-up delay, and FAIL stays 0. -/
theorem not_clockSources : ¬ Obligations.ClockSources := by
  intro h
  obtain ⟨-, -, hedge, -⟩ := h
  have failed := hedge unreadyHub 0 (by decide) (by decide) (by decide) (by decide)
  have kept : Yields (.sourceNoEdge 0) unreadyHub fun t => t = unreadyHub :=
    ⟨_, exec_sourceNoEdge_of_unready rfl (by decide), rfl⟩
  obtain ⟨t, ⟨hfail, -⟩, rfl⟩ := failed.both kept
  exact absurd hfail (by decide)

/-! CLK_SRC at a referee. -/

theorem exec_registerWrite (path : Path) (bytes addr : Nat) (data : Word) (s : State) :
    exec (.registerWrite path bytes addr data) s = execRegisterWrite path bytes addr data s := rfl

/-- A running referee whose XOSC is ready. -/
def readyReferee : State :=
  { role := .referee, phase := .running, pins := { nRst := true }, regs := [(R.CLK_SRC, 1)]
    clk := { xoscQuiet := false, xoscReady := true } }

/-- That referee with domain 3 run from XOSC at its divider of 4. -/
def xoscReferee : State :=
  ((readyReferee.set (F.CLK_DOM_SRC 3) 2).set (F.CLK_DOM_CURSRC 3) 2).event Pg.CLK 10

/-- A write of CLK_DOM3 leads from the one to the other: the state of the refutation is one that a command leaves. -/
theorem exec_clkDomWrite_readyReferee : exec (.clkDomWrite .supervisor 3 0x402) readyReferee = .next xoscReferee := by
  have ht : (readyReferee.writeCmd .supervisor 4 (R.CLK_DOM 3) 0x402).settle = xoscReferee := by decide +kernel
  rw [exec_clkDomWrite, execClkDomWrite, writeRow, act_eq_settle _ (by decide)]
  exact congrArg Host.Outcome.next ht

/-- REFC_EN stays 0 at that referee when 1 is written: the bit is one of those that the role hides. -/
theorem yields_registerWrite_xoscReferee :
    Yields (.registerWrite .supervisor 4 R.CLK_SRC 2) xoscReferee fun t => t.get F.CLK_SRC_REFC_EN = 0 := by
  refine yields_of_act (exec_registerWrite ..) (by decide) ?_
  decide +kernel

/-- Refutes O50: its clauses for CLK_SRC have REFC_EN take the bit written in every role, but REFC is a hub's alone (R122).
In `xoscReferee` a word with REFC_EN = 1 that would disable XOSC leaves REFC_EN at 0. -/
theorem not_clockSourceWrites : ¬ Obligations.ClockSourceWrites := by
  intro h
  obtain ⟨-, -, hxosc, -⟩ := h
  have written := hxosc xoscReferee .supervisor 2 (by decide) (by decide) (by decide) (by decide)
  obtain ⟨t, ⟨-, -, -, -, hrefc, -⟩, hzero⟩ := written.both yields_registerWrite_xoscReferee
  have hone : t.get F.CLK_SRC_REFC_EN = 1 := hrefc (by decide)
  exact absurd (hzero.symm.trans hone) (by decide)

end Sys2Proof.Machine
end

section
/-! PROOFS. The power-on reset state and the supplies (05_reset_boot.md, R127 to R130). -/

namespace Sys2Proof.Machine

/-- At power-on every register but the cause record reads its reset value. -/
theorem reset_reg {a : Nat} (h : a ≠ R.SYS_RST_CAUSE) : State.reset.reg a = resetWord .none a := by
  have hne : ¬ 0x54 = a := fun e => h e.symm
  simp [State.reset, State.reg, kvFind, hne]

/-- Settles O1: the state is written out, and with no role read the hardwired logic has nothing to force. -/
theorem resetLeaves : Obligations.ResetLeaves := by
  unfold Obligations.ResetLeaves
  refine ⟨⟨rfl, rfl, rfl, rfl⟩, fun a h => ⟨reset_reg h, rfl⟩, by decide, ?_, ?_, rfl, rfl⟩
  · intro hcell; cases hcell
  · intro hhub; cases hhub

theorem exec_powerOnReset (s : State) : exec .powerOnReset s = execPowerOnReset s := rfl

theorem exec_sealSequenceChange (level : Bool) (s : State) :
    exec (.sealSequenceChange level) s = execSealSequenceChange level s := rfl

/-- As a part enters power-on reset it drives SEAL_OUT low (R39, R130). -/
theorem yields_powerOnReset_sealOut (s : State) : Yields .powerOnReset s fun t => t.pins.sealOut = false := by
  refine yields_of_act (exec_powerOnReset s) rfl ?_
  rw [State.settle_other (by simp [State.powerOn]) (by simp [State.powerOn])]
  rfl

/-- A running hub. -/
def runningHub : State := { role := .hub, phase := .running, pins := { nRst := true } }

/-- That hub while its seal sequence drives SEAL_OUT high. -/
def sealHighHub : State := { runningHub with pins := { nRst := true, sealOut := true } }

/-- SEAL_SEQUENCE_CHANGE leads from the one to the other: the state of the refutation is one that a command leaves. -/
theorem exec_sealSequenceChange_runningHub : exec (.sealSequenceChange true) runningHub = .next sealHighHub := by
  have ht : sealHighHub.settle = sealHighHub := by decide +kernel
  rw [exec_sealSequenceChange, execSealSequenceChange, act_eq_settle _ (by decide)]
  exact congrArg Host.Outcome.next ht

/-- Refutes O3: its first clause has a power-on reset leave every level at the terminals but `rails` as it was, the driven
ones too. `sealHighHub` drives SEAL_OUT high; in reset the part drives it low (R39). -/
theorem not_supplyCommands : ¬ Obligations.SupplyCommands := by
  intro h
  obtain ⟨hpor, -⟩ := h
  obtain ⟨t, ⟨-, -, hpins, -⟩, hlow⟩ := (hpor sealHighHub).both (yields_powerOnReset_sealOut sealHighHub)
  rw [hpins] at hlow
  exact absurd hlow (by decide)

end Sys2Proof.Machine
end

section
/-! PROOFS. Fields that share a register, and what the hardwired logic behind a command leaves as it was. -/

namespace Sys2Proof.Machine

/-- Writing a field leaves the bits of a field beside it. -/
theorem getBits_setBits_disjoint (v : Word) {lo w lo' w' : Nat} (n : Nat) (h : lo' + w' ≤ lo ∨ lo + w ≤ lo') :
    getBits (setBits v lo w n) lo' w' = getBits v lo' w' := by
  unfold getBits setBits
  apply Nat.eq_of_testBit_eq
  intro i
  simp only [Nat.testBit_mod_two_pow, Nat.testBit_shiftRight, BitVec.toNat_or, BitVec.toNat_and, BitVec.toNat_not,
    BitVec.toNat_ofNat, Nat.testBit_or, Nat.testBit_and, Nat.testBit_shiftLeft]
  by_cases hi : i < w'
  · have houtside : ¬ (lo ≤ lo' + i ∧ lo' + i - lo < w) := by omega
    by_cases h32 : lo' + i < 32
    · have hmask : (((2 ^ w - 1) <<< lo) % 2 ^ 32).testBit (lo' + i) = false := by
        rw [Nat.testBit_mod_two_pow, Nat.testBit_shiftLeft, Nat.testBit_two_pow_sub_one]
        simp only [Bool.and_eq_false_imp, decide_eq_true_eq, decide_eq_false_iff_not]
        intro _ hle hlt
        exact houtside ⟨hle, hlt⟩
      have hlt : ((2 ^ w - 1) <<< lo) % 2 ^ 32 < 2 ^ 32 := Nat.mod_lt _ (by decide)
      have hkeep : (2 ^ 32 - 1 - ((2 ^ w - 1) <<< lo) % 2 ^ 32).testBit (lo' + i) = true := by
        rw [Nat.sub_sub, Nat.add_comm 1, Nat.testBit_two_pow_sub_succ hlt, hmask]
        simp [h32]
      rw [hkeep]
      have hnew : (decide (lo' + i ≥ lo) && (decide (lo' + i - lo < w) && n.testBit (lo' + i - lo))) = false := by
        by_cases hge : lo ≤ lo' + i
        · simp [show ¬ lo' + i - lo < w from fun hlt => houtside ⟨hge, hlt⟩]
        · simp [hge]
      simp [hnew]
    · have hv : v.toNat.testBit (lo' + i) = false := Nat.testBit_lt_two_pow (by
        have : 2 ^ 32 ≤ 2 ^ (lo' + i) := Nat.pow_le_pow_right (by decide) (by omega)
        omega)
      simp [hv, h32]
  · simp [hi]

namespace State

/-- A field keeps its value when a field of another register, or one beside it, is written. -/
theorem get_set_other (s : State) {f g : Fld} (n : Nat)
    (h : g.addr ≠ f.addr ∨ g.lo + g.w ≤ f.lo ∨ f.lo + f.w ≤ g.lo) : (s.set f n).get g = s.get g := by
  by_cases ha : g.addr = f.addr
  · have hr : (s.set f n).reg g.addr = setBits (s.reg g.addr) f.lo f.w n := by rw [ha, reg_set_same]
    rw [get, hr, getBits_setBits_disjoint _ _ (h.resolve_left (not_not_intro ha))]
    rfl
  · exact get_set_ne s n ha

theorem get_bump_other (s : State) {f g : Fld} (k : Nat)
    (h : g.addr ≠ f.addr ∨ g.lo + g.w ≤ f.lo ∨ f.lo + f.w ≤ g.lo) : (s.bump f k).get g = s.get g := get_set_other s _ h

/-- A counter saturates. -/
theorem get_bump_same (s : State) (f : Fld) (k : Nat) (h : f.lo + f.w ≤ 32) :
    (s.bump f k).get f = satAdd f.w (s.get f) k := by
  rw [bump, get_set_same _ _ _ h]
  exact Nat.mod_eq_of_lt (Nat.lt_of_le_of_lt (Nat.min_le_right _ _) (Nat.sub_lt (Nat.two_pow_pos _) Nat.one_pos))

@[simp] theorem settle_role (s : State) : s.settle.role = s.role := (frame_settle s).1 .role (by decide)
@[simp] theorem settle_phase (s : State) : s.settle.phase = s.phase := (frame_settle s).1 .phase (by decide)
@[simp] theorem settle_boot (s : State) : s.settle.boot = s.boot := (frame_settle s).1 .boot (by decide)
@[simp] theorem settle_sup (s : State) : s.settle.sup = s.sup := (frame_settle s).1 .sup (by decide)
@[simp] theorem settle_sec (s : State) : s.settle.sec = s.sec := (frame_settle s).1 .sec (by decide)
@[simp] theorem settle_err (s : State) : s.settle.err = s.err := (frame_settle s).1 .err (by decide)
@[simp] theorem settle_isCell (s : State) : s.settle.isCell = s.isCell := by simp [isCell]

/-- Memory outside the black box; the hardwired logic writes none of it either. -/
@[simp] theorem settle_byte (s : State) (a : Nat) : s.settle.byte a = s.byte a := by
  by_cases hbox : a < 0x30000000 ∨ 0x30040000 ≤ a
  · exact (frame_settle s).1 .mem (by decide) a hbox
  · exact (frame_settle s).1 .box (by decide) a (by omega) (by omega)

/-- The registers that the hardwired logic writes: TWIN_STAT and the events of three pages. -/
def settleRegs : List Nat := [R.TWIN_STAT, R.PG_EVT Pg.REF, R.PG_EVT Pg.TWIN, R.PG_EVT Pg.SAFE]

theorem settle_reg (s : State) {a : Nat} (h : a ∉ settleRegs) : s.settle.reg a = s.reg a := (frame_settle s).2 a h

theorem settle_get (s : State) {f : Fld} (h : f.addr ∉ settleRegs) : s.settle.get f = s.get f := by
  simp [get, settle_reg s h]

/-- The permanent bypass is not one of the levels that the hardwired logic forces. -/
@[simp] theorem settle_pbyp (s : State) : s.settle.gate.pbyp = s.gate.pbyp := by
  have forced (u : State) : u.forceGates.gate.pbyp = u.gate.pbyp := by
    unfold forceGates
    repeat' split
    all_goals rfl
  have recorded (u : State) : u.recordState.gate.pbyp = u.gate.pbyp := by
    unfold recordState
    repeat' split
    all_goals rfl
  by_cases hc : s.role = .cell
  · rw [settle_cell hc, recorded, forceDb_eq, forced]
  · by_cases hh : s.role = .hub
    · rw [settle_hub hh]
      have hgate : s.selfEnter.forceVb.markReclaim.gate = s.gate :=
        ((frame_selfEnter s).trans ((frame_forceVb _).trans (frame_markReclaim _))).1 .gate (by decide)
      rw [hgate]
    · rw [settle_other hc hh]

/-- `s` with supervisor, answer and boot data that the hardwired logic does not read. -/
def withHidden (s : State) (x : SupSt) (r : Resp) (b : BootSt) : State := { s with sup := x, resp := r, boot := b }

theorem settle_withHidden (s : State) (x : SupSt) (r : Resp) (b : BootSt) :
    (s.withHidden x r b).settle = s.settle.withHidden x r b := by
  have push (c : Prop) [Decidable c] (u v : State) :
      (if c then u else v).withHidden x r b = if c then u.withHidden x r b else v.withHidden x r b :=
    apply_ite (fun u => u.withHidden x r b) c u v
  have hgates (u : State) : (u.withHidden x r b).forceGates = u.forceGates.withHidden x r b := by
    simp only [forceGates, push]; rfl
  have hdb (u : State) : (u.withHidden x r b).forceDb = u.forceDb.withHidden x r b := by
    simp only [forceDb, push]; rfl
  have hrec (u : State) : (u.withHidden x r b).recordState = u.recordState.withHidden x r b := by
    unfold recordState
    cases hl : u.gate.hist with
    | nil => simp only [withHidden, hl]
    | cons e l => simp only [withHidden, hl]; split <;> rfl
  have hevent (u : State) (pg bit : Nat) : (u.event pg bit).withHidden x r b = (u.withHidden x r b).event pg bit := by
    unfold event
    by_cases hr : u.role = .hub
    · rw [if_pos hr, if_pos (show (u.withHidden x r b).role = .hub from hr)]; rfl
    · rw [if_neg hr, if_neg (show ¬ (u.withHidden x r b).role = .hub from hr)]; rfl
  have hself (u : State) : (u.withHidden x r b).selfEnter = u.selfEnter.withHidden x r b := by
    simp only [selfEnter, push, hevent]; rfl
  have hvb (u : State) : (u.withHidden x r b).forceVb = u.forceVb.withHidden x r b := by
    simp only [forceVb, push, hevent]; rfl
  have hmark (u : State) : (u.withHidden x r b).markReclaim = u.markReclaim.withHidden x r b := by
    simp only [markReclaim, push]; rfl
  by_cases hc : s.role = .cell
  · rw [settle_cell hc, settle_cell (s := s.withHidden x r b) hc, hgates, hdb, hrec]
  · by_cases hh : s.role = .hub
    · rw [settle_hub hh, settle_hub (s := s.withHidden x r b) hh, hself, hvb, hmark]
    · rw [settle_other hc hh, settle_other (s := s.withHidden x r b) hc hh]

/-- A settled state stays settled under such a change. -/
theorem Settled.withHidden {s : State} (h : s.Settled) (x : SupSt) (r : Resp) (b : BootSt) :
    (s.withHidden x r b).Settled := by
  rw [Settled, settle_withHidden, h]

end State

end Sys2Proof.Machine
end

section
/-! PROOFS. A reset of a running part and the boot that follows it (R127 to R129, R137, R143): which parts and registers the
boot ROM writes. -/

namespace Sys2Proof.Machine

/-- Memory kept by `p` reads as before where `p` holds. -/
theorem byte_kvKeep_of {s t : State} {p : Nat → Bool} {a : Nat} (hm : t.mem = kvKeep p s.mem) (ha : p a = true) :
    t.byte a = s.byte a := by
  simp [State.byte, hm, kvFind_kvKeep, ha]

/-- The registers that the boot ROM writes. -/
def romRegs : List Nat :=
  [R.SEC_ID, R.PG_EVT Pg.SEC, R.CLK_SRC, R.BOOT_REJ, R.BOOT_STAT, R.BOOT_NEXT, R.HOST_CTRL]
    ++ [Pg.TIME, Pg.TREE 0, Pg.TREE 1, Pg.LANE 0, Pg.LANE 1].flatMap (fun pg => [R.PG_CTRL pg, R.PG_STAT pg])
    ++ [R.LANE_PWR 0, R.LANE_PWR 1, R.LANE_STAT 0, R.LANE_STAT 1]

/-- The parts of the state that the boot ROM writes. -/
def romParts : List Part := [.phase, .mem, .box, .memErr, .sup, .host, .boot, .freeCtr, .recd]

/-- `t` follows from `s` by what the boot ROM does: role, gate block and error log are those of `s`, and so is every
register but those of `romRegs`. -/
def RomFrame (s t : State) : Prop := Frame romParts romRegs s t

namespace RomFrame

variable {s t : State}

theorem refl (s : State) : RomFrame s s := Frame.refl _ _ s

theorem of_frame {u : State} {ps : List Part} {rs : List Nat} (h : RomFrame s t) (g : Frame ps rs t u)
    (hp : ∀ p ∈ ps, p ∈ romParts) (hr : ∀ a ∈ rs, a ∈ romRegs) : RomFrame s u := Frame.seq h (g.mono hp hr)

theorem set (h : RomFrame s t) {f : Fld} {n : Nat} (hf : f.addr ∈ romRegs := by decide) : RomFrame s (t.set f n) :=
  h.of_frame (frame_set t f n) (by simp) (by simpa using hf)

theorem event (h : RomFrame s t) {bit : Nat} : RomFrame s (t.event Pg.SEC bit) :=
  h.of_frame (frame_event t Pg.SEC bit) (by decide) (by decide)

/-- An update that leaves the registers, the role and all parts but those of the boot ROM alone. -/
theorem parts {u : State} (h : RomFrame s t) (hr : u.regs = t.regs) (ho : u.role = t.role)
    (hp : ∀ p, p ∉ romParts → p.same t u) : RomFrame s u := h.of_frame (frame_of_parts hr ho hp) (fun _ h => h) (by simp)

theorem boot (h : RomFrame s t) (b : BootSt) : RomFrame s { t with boot := b } :=
  h.parts rfl rfl fun p hp => by cases p <;> simp_all [romParts, Part.same]

theorem ite {u v : State} {c : Prop} [Decidable c] (h : RomFrame s u) (g : RomFrame s v) :
    RomFrame s (if c then u else v) := Frame.ite h g

theorem role (h : RomFrame s t) : t.role = s.role := h.1 .role (by decide)
theorem gate (h : RomFrame s t) : t.gate = s.gate := h.1 .gate (by decide)
theorem err (h : RomFrame s t) : t.err = s.err := h.1 .err (by decide)
theorem reg (h : RomFrame s t) {a : Nat} (ha : a ∉ romRegs) : t.reg a = s.reg a := h.2 a ha

theorem get (h : RomFrame s t) {f : Fld} (hf : f.addr ∉ romRegs) : t.get f = s.get f := by simp [State.get, h.reg hf]

end RomFrame

namespace State

theorem program_eq (s : State) (o : Nat) (bs : List Byte) : s.program o bs = { s with mem := (s.program o bs).mem } := by
  unfold program
  generalize bs.zipIdx = l
  induction l generalizing s with
  | nil => rfl
  | cons x l ih =>
    rw [List.foldl_cons, ih]
    rfl

end State

theorem frame_program (s : State) (o : Nat) (bs : List Byte) : Frame [.mem, .box] [] s (s.program o bs) := by
  rw [State.program_eq]
  exact frame_of_parts rfl rfl fun p hp => by cases p <;> simp_all [Part.same]

theorem RomFrame.program {s t : State} (h : RomFrame s t) (o : Nat) (bs : List Byte) : RomFrame s (t.program o bs) :=
  h.of_frame (frame_program t o bs) (by decide) (by simp)

theorem RomFrame.reject {s t : State} (h : RomFrame s t) (i why : Nat) : RomFrame s (t.reject i why) := by
  unfold State.reject
  split
  · exact h.set
  · exact h.set

theorem RomFrame.identity {s t : State} (h : RomFrame s t) (n : Nat) : RomFrame s (t.identity n) := by
  unfold State.identity
  refine .ite (.ite h h.set) ?_
  dsimp only
  split
  · exact h.set.event
  · refine .ite h.set.event (RomFrame.set (RomFrame.program (RomFrame.program ?_ _ _) _ _))
    exact h.parts rfl rfl fun p hp => by cases p <;> simp_all [romParts, Part.same, State.drawScalar, State.free]

theorem RomFrame.cellUp {s t : State} (h : RomFrame s t) : RomFrame s t.cellUp := by
  have page {u : State} (g : RomFrame s u) {pg : Nat} (hc : R.PG_CTRL pg ∈ romRegs := by decide)
      (hs : R.PG_STAT pg ∈ romRegs := by decide) : RomFrame s ((u.set (F.PG_CTRL_EN pg) 1).set (F.PG_STAT_RUN pg) 1) :=
    RomFrame.set (g.set hc) hs
  have lane {u : State} (g : RomFrame s u) {n : Nat} (hp : R.LANE_PWR n ∈ romRegs := by decide)
      (hs : R.LANE_STAT n ∈ romRegs := by decide) :
      RomFrame s (((u.set (F.LANE_PWR_REQ n) 0).set (F.LANE_PWR_CUR n) 0).set (F.LANE_STAT_HUNT n) 1) :=
    RomFrame.set (RomFrame.set (g.set hp) hp) hs
  exact lane (lane (page (page (page (page (page h))))))

theorem RomFrame.recover {s t : State} (h : RomFrame s t) : RomFrame s t.recover :=
  (RomFrame.set (h.set (f := F.BOOT_STAT_SRC) (n := 7)) (f := F.HOST_CTRL_HOST) (n := 1)).parts rfl rfl fun p hp => by
    cases p <;> simp_all [romParts, Part.same, State.recover]

theorem RomFrame.noSlot {s t : State} (h : RomFrame s t) : RomFrame s t.noSlot := .ite (h.boot _) h.recover

theorem RomFrame.readHeader {s t : State} (h : RomFrame s t) (i : Nat) : RomFrame s (t.readHeader i) := by
  unfold State.readHeader
  split
  · exact h.reject i _
  · exact h.reject i _

theorem RomFrame.chooseSource {s t : State} (h : RomFrame s t) : RomFrame s t.chooseSource := by
  have hrej := (h.reject 0 15).reject 1 15
  unfold State.chooseSource
  refine .ite (.ite (hrej.boot _) hrej.recover) (.ite ((hrej.reject 0 8).reject 1 8).noSlot ?_)
  exact (((hrej.readHeader 0).readHeader 1).set).boot _

/-- The boot ROM leaves role, gate block, error log and cause record as they were. -/
theorem romFrame_romStart (s : State) (n : Nat) : RomFrame s (s.romStart n) := by
  unfold State.romStart
  refine RomFrame.chooseSource ?_
  have h0 := (RomFrame.refl s).parts (u := { s with
    phase := .rom
    mem := kvKeep keptMem s.mem, memErr := kvKeep (fun w => keptMem (8 * w)) s.memErr
    sup := { halted := s.sup.halted, wdtEnd := s.sup.wdtEnd }
    host := { s.host with bus := if s.isCell && !s.boot.flash then .released else .master } }) rfl rfl fun p hp => by
      cases p <;> simp_all [romParts, Part.same]
  exact .ite (h0.identity n).cellUp (h0.identity n).set

end Sys2Proof.Machine
end

section
/-! PROOFS. Commands of the supervisor: claims, the return from an NMI, the watchdog, and the resets of a running part
(R128, R129, R153 to R158). -/

namespace Sys2Proof.Machine

namespace State

/-- The cause record after cause `n`: its bit, LAST, and COUNT one higher. -/
theorem noteReset_cause (s : State) {n : Nat} (hn : n < 6) :
    (s.noteReset n).get ⟨R.SYS_RST_CAUSE, n, 1⟩ = 1 ∧ (s.noteReset n).get F.SYS_RST_CAUSE_LAST = n ∧
    (s.noteReset n).get F.SYS_RST_CAUSE_COUNT = satAdd 16 (s.get F.SYS_RST_CAUSE_COUNT) 1 := by
  have hbit : n + 1 ≤ 8 := by omega
  unfold noteReset
  refine ⟨?_, ?_, ?_⟩
  · rw [get_bump_other _ _ (by right; left; exact Nat.le_trans hbit (by decide)),
      get_set_other _ _ (by right; left; exact hbit), get_set_same _ _ _ (Nat.le_trans hbit (by decide))]
    rfl
  · rw [get_bump_other _ _ (by decide), get_set_same _ _ _ (by decide)]
    exact Nat.mod_eq_of_lt (Nat.lt_trans hn (by decide))
  · rw [get_bump_same _ _ _ (by decide), get_set_other _ _ (by decide),
      get_set_other _ _ (by right; right; exact Nat.le_trans hbit (by decide))]
    rfl

/-- What a reset other than power-on keeps of the state (R129), before its cause is noted. -/
def resetKept (s : State) (phase : Phase) (role : Role) : State :=
  { ({} : State) with
    role := role, phase := phase, grade := s.grade, pins := resetPins s.pins
    regs := kvKeep keptReg s.regs
    mem := kvKeep keptMem s.mem
    memErr := kvKeep (fun w => keptMem (8 * w)) s.memErr
    err := { log := s.err.log }
    gate := { pbyp := s.gate.pbyp }
    boot := { flash := s.boot.flash, sincePor := false }
    freeCtr := s.freeCtr
    pending := s.pending }

theorem deviceReset_eq (s : State) (n : Nat) (phase : Phase) (role : Role) :
    s.deviceReset n phase role =
      ((s.resetKept phase role).set F.DBG_STAT_UNLOCKS (s.get F.DBG_STAT_UNLOCKS)).noteReset n := rfl

/-- A field of a register that R129 lists keeps its value when the role does. -/
theorem get_resetKept (s : State) (phase : Phase) {f : Fld} (h : keptReg f.addr = true) :
    (s.resetKept phase s.role).get f = s.get f := by
  simp [get, reg, resetKept, kvFind_kvKeep, h]

/-- What a restart by cause `n` promises: the cause recorded, the ROM or its recovery entered, role, error log and permanent
bypass kept. -/
def Restarted (n : Nat) (s t : State) : Prop :=
  t.get ⟨R.SYS_RST_CAUSE, n, 1⟩ = 1 ∧ t.get F.SYS_RST_CAUSE_LAST = n ∧
  t.get F.SYS_RST_CAUSE_COUNT = satAdd 16 (s.get F.SYS_RST_CAUSE_COUNT) 1 ∧ (t.phase = .rom ∨ t.phase = .recovery) ∧
  t.role = s.role ∧ t.err.log = s.err.log ∧ t.gate.pbyp = s.gate.pbyp

theorem noSlot_phase (s : State) (h : s.phase = .rom) : s.noSlot.phase = .rom ∨ s.noSlot.phase = .recovery := by
  unfold noSlot
  split
  · exact .inl h
  · exact .inr rfl

/-- Choosing its source the ROM stays, or its recovery is entered (R143). -/
theorem chooseSource_phase (s : State) (h : s.phase = .rom) :
    s.chooseSource.phase = .rom ∨ s.chooseSource.phase = .recovery := by
  have hread (u : State) (i : Nat) : (u.readHeader i).phase = u.phase := by
    unfold readHeader
    split <;> rfl
  unfold chooseSource
  dsimp only
  split
  · split
    · exact .inl h
    · exact .inr rfl
  · split
    · exact noSlot_phase _ h
    · left
      rw [set_phase, hread, hread]
      exact h

theorem identity_phase (s : State) (n : Nat) : (s.identity n).phase = s.phase := by
  have hevent (u : State) (bit : Nat) : (u.event Pg.SEC bit).phase = u.phase := by
    unfold event
    split <;> rfl
  unfold identity
  split
  · split <;> rfl
  · dsimp only
    split
    · exact hevent _ _
    · split
      · exact hevent _ _
      · rw [set_phase, program_eq, program_eq]
        rfl

theorem cellUp_phase (s : State) : s.cellUp.phase = s.phase := by simp [cellUp]

theorem romStart_phase (s : State) (n : Nat) : (s.romStart n).phase = .rom ∨ (s.romStart n).phase = .recovery := by
  unfold romStart
  refine chooseSource_phase _ ?_
  rw [apply_ite State.phase, cellUp_phase, set_phase, ite_self, identity_phase]

theorem restart_eq (s : State) (n : Nat) :
    ∃ k, s.restart n = ((s.deviceReset n .rom s.role).showRole k).romStart 0 := ⟨_, rfl⟩

theorem get_showRole_ne (s : State) (k : Nat) {f : Fld} (h : f.addr ≠ R.SYS_ROLE) : (s.showRole k).get f = s.get f := by
  rw [showRole, get_set_ne _ _ h, get_set_ne _ _ h]

/-- A restart notes its cause and keeps what R129 lists. -/
theorem restart_restarted (s : State) {n : Nat} (hn : n < 6) : Restarted n s (s.restart n) := by
  obtain ⟨k, hk⟩ := restart_eq s n
  have hrom := romFrame_romStart ((s.deviceReset n .rom s.role).showRole k) 0
  rw [← hk] at hrom
  have hcause {f : Fld} (hf : f.addr = R.SYS_RST_CAUSE) : (s.restart n).get f = (s.deviceReset n .rom s.role).get f := by
    rw [hrom.get (by rw [hf]; decide), get_showRole_ne _ _ (by rw [hf]; decide)]
  obtain ⟨hbit, hlast, hcount⟩ :=
    noteReset_cause ((s.resetKept .rom s.role).set F.DBG_STAT_UNLOCKS (s.get F.DBG_STAT_UNLOCKS)) hn
  rw [← deviceReset_eq] at hbit hlast hcount
  rw [get_set_ne _ _ (by decide), get_resetKept _ _ (by decide)] at hcount
  refine ⟨(hcause rfl).trans hbit, (hcause rfl).trans hlast, (hcause rfl).trans hcount, ?_, hrom.role,
    (congrArg ErrSt.log hrom.err).trans rfl, (congrArg GateSt.pbyp hrom.gate).trans rfl⟩
  rw [hk]
  exact romStart_phase _ _

/-- The hardwired logic undoes none of it. -/
theorem Restarted.settle {n : Nat} {s t : State} (h : Restarted n s t) : Restarted n s t.settle := by
  have hget {f : Fld} (hf : f.addr = R.SYS_RST_CAUSE) : t.settle.get f = t.get f := settle_get t (by rw [hf]; decide)
  unfold Restarted
  rw [hget rfl, hget rfl, hget rfl, settle_phase, settle_role, settle_err, settle_pbyp]
  exact h

end State

open State

theorem yields_of_restart {c : Instr} {s : State} {b : Bool} {n : Nat} (he : exec c s = act s b (·.restart n))
    (hb : b = true) (hn : n < 6) : Yields c s (Restarted n s) :=
  yields_of_act he hb (restart_restarted s hn).settle

end Sys2Proof.Machine
end

section
/-! PROOFS. The error that the first watchdog stage raises (R155, R612, R613), and the supervisor's own commands. -/

namespace Sys2Proof.Machine

theorem bitOf_eq_testBit (n i : Nat) : bitOf n i = n.testBit i := by
  simp [bitOf, Nat.testBit, Nat.one_and_eq_mod_two]

namespace State

/-- Storing an arrival leaves the stack of classes being handled. -/
theorem errStore_stack (s : State) (e : ErrEntry) : (s.errStore e).err.stack = s.err.stack := by
  have lose (cls : Nat) : (s.errLose cls).err.stack = s.err.stack :=
    congrArg ErrSt.stack ((frame_errLose s cls).1 .err (by decide))
  unfold errStore
  dsimp only
  split
  · split
    · rfl
    · split
      · rfl
      · split
        · exact lose _
        · exact lose _
  · rfl

/-- Storing an arrival changes the log, ERR_OVF and the events of the ERR page. -/
theorem frame_errStore_ovf (s : State) (e : ErrEntry) :
    Frame [.err, .recd] [R.ERR_OVF, R.PG_EVT Pg.ERR] s (s.errStore e) := by
  have lose (cls : Nat) : Frame [.err, .recd] [R.ERR_OVF, R.PG_EVT Pg.ERR] s (s.errLose cls) :=
    (frame_errLose s cls).mono (by simp) (fun _ h => h)
  have log (u : State) (x : ErrSt) : Frame [.err, .recd] [R.ERR_OVF, R.PG_EVT Pg.ERR] u { u with err := x } :=
    (frame_err u x).mono (by simp) (by simp)
  unfold errStore
  dsimp only
  split
  · exact .ite (log s _) (.ite (log s _) (.ite ((lose _).seq (log _ _)) (lose _)))
  · exact log s _

/-- The registers that an arrival of class UNCORRECTABLE writes before it is signalled, but for its counter. -/
def arrivalRegs : List Nat := [R.ERR_OVF, R.PG_EVT Pg.ERR, R.REF_HFAIL, R.REC_BBSTAT, R.PG_EVT Pg.REC]

/-- An UNCORRECTABLE error of the watchdog, with no class as high handled: counted, then signalled by the watchdog's own
NMI. -/
theorem errArrive_watchdog (s : State) (req addr : Nat) (h : s.handled < 3) :
    ∃ u, Frame [.bb, .box, .err, .recd] arrivalRegs (s.bump (errCnt 2)) u ∧
      s.errArrive 2 7 req addr = u.errSignal 2 (some 3) := by
  let s1 := s.bump (errCnt 2)
  let w := s1.errStore ⟨2, 7, req, 0, BitVec.ofNat 32 addr, s1.nanos, s1.seconds % 2 ^ 32⟩
  let u := ((w.health 2).bbWrite 0x28 7 [w.cycle, addr]).bbFreeze 5
  have hw : Frame [.bb, .box, .err, .recd] arrivalRegs s1 w := (frame_errStore_ovf s1 _).mono (by decide) (by decide)
  have hu : Frame [.bb, .box, .recd] [R.REF_HFAIL, R.REC_BBSTAT, R.PG_EVT Pg.REC] w u :=
    ((frame_health w 2).trans ((frame_bbWrite _ 0x28 7 _).trans (frame_bbFreeze _ 5))).mono (by decide) (by decide)
  have hstack : u.err.stack = s.err.stack := by
    have herr : u.err = w.err := hu.1 .err (by decide)
    rw [herr, errStore_stack]
    rfl
  have hhandled : u.handled < 3 := by
    rw [handled, hstack]
    exact h
  refine ⟨u, hw.seq (hu.mono (by decide) (by decide)), ?_⟩
  have hlater : s.errArrive 2 7 req addr = u.errHandle 2 (some 3) := by
    simp [errArrive, State.when, u, w, s1]
  rw [hlater, errHandle, if_neg (by omega), if_pos hhandled]

/-- Entry to a level leaves CAUSE of CPU_NMI. -/
theorem nmiEnter_cause (s : State) (l c : Nat) : (s.nmiEnter l c).get F.CPU_NMI_CAUSE = s.get F.CPU_NMI_CAUSE := by
  have far {a : Nat} (h : R.CPU_NMI + 4 ≤ a) : F.CPU_NMI_CAUSE.addr ≠ a := Nat.ne_of_lt (Nat.lt_of_lt_of_le (by decide) h)
  have hlevel (u : State) (x : SupSt) (n : Nat) :
      ({ u.set F.CPU_NMI_LEVEL n with sup := x } : State).get F.CPU_NMI_CAUSE = u.get F.CPU_NMI_CAUSE :=
    get_set_other u n (by decide)
  rw [nmiEnter]
  refine (hlevel _ _ _).trans ?_
  rw [get_setReg_ne _ _ (far (by simp only [R.CPU_NMI, R.CPU_NMICAUSE]; omega)),
    get_setReg_ne _ _ (far (by simp only [R.CPU_NMI, R.CPU_NMIST]; omega)),
    get_setReg_ne _ _ (far (by simp only [R.CPU_NMI, R.CPU_NMIEPC]; omega))]

/-- A cause that arrives shows in CAUSE, whether it enters or waits (R154). -/
theorem nmi_cause (s : State) {c : Nat} (hc : c < 4) : bitOf ((s.nmi c).get F.CPU_NMI_CAUSE) c = true := by
  have hset : bitOf ((s.set F.CPU_NMI_CAUSE (s.get F.CPU_NMI_CAUSE ||| 1 <<< c)).get F.CPU_NMI_CAUSE) c = true := by
    rw [get_set_same _ _ _ (by decide), bitOf_eq_testBit, Nat.testBit_mod_two_pow]
    simp [F.CPU_NMI_CAUSE, hc, Nat.testBit_shiftLeft]
  unfold nmi
  dsimp only
  split
  · rwa [nmiEnter_cause]
  · split
    · rwa [nmiEnter_cause]
    · rwa [get_set_other _ _ (by decide)]

end State

open State

theorem exec_cpuEclaimClaim (s : State) : exec .cpuEclaimClaim s = execCpuEclaimClaim s := rfl
theorem exec_cpuEclaimComplete (data : Word) (s : State) :
    exec (.cpuEclaimComplete data) s = execCpuEclaimComplete data s := rfl
theorem exec_nmiRet (s : State) : exec .nmiRet s = execNmiRet s := rfl
theorem exec_wdtKick (data : Word) (s : State) : exec (.wdtKick data) s = execWdtKick data s := rfl
theorem exec_wdtFirstStage (s : State) : exec .wdtFirstStage s = execWdtFirstStage s := rfl
theorem exec_wdtSecondStage (s : State) : exec .wdtSecondStage s = execWdtSecondStage s := rfl
theorem exec_softwareReset (data : Word) (s : State) : exec (.softwareReset data) s = execSoftwareReset data s := rfl
theorem exec_clockFailureReset (s : State) : exec .clockFailureReset s = execClockFailureReset s := rfl

/-- A claim takes the line that CPU_ECLAIM gives, 0xFF for none (R153). -/
theorem exec_cpuEclaimClaim_eq {s : State} (hs : s.Settled) (hon : s.supOn = true) :
    exec .cpuEclaimClaim s = .next (match s.claimLine with
      | some n => { s with sup := { s.sup with claimed := n :: s.sup.claimed }, resp := ⟨Code.ok, [BitVec.ofNat 32 n]⟩ }
      | none => { s with resp := ⟨Code.ok, [0xFF]⟩ }) := by
  rw [exec_cpuEclaimClaim, execCpuEclaimClaim, act_eq_settle _ hon]
  refine congrArg Host.Outcome.next ?_
  cases hl : s.claimLine with
  | none =>
    have he : s.eclaim = (0xFF, s) := by simp only [eclaim, hl]
    rw [he]
    exact hs.withHidden s.sup ⟨Code.ok, [0xFF]⟩ s.boot
  | some n =>
    have he : s.eclaim = (BitVec.ofNat 32 n, { s with sup := { s.sup with claimed := n :: s.sup.claimed } }) := by
      simp only [eclaim, hl]
    rw [he]
    exact hs.withHidden { s.sup with claimed := n :: s.sup.claimed } ⟨Code.ok, [BitVec.ofNat 32 n]⟩ s.boot

/-- A line number written back releases the line. -/
theorem exec_cpuEclaimComplete_eq {s : State} (data : Word) (hs : s.Settled) (hon : s.supOn = true) :
    exec (.cpuEclaimComplete data) s = .next
      { s with sup := { s.sup with claimed := s.sup.claimed.filter (· != data.toNat) }, resp := ⟨Code.ok, []⟩ } := by
  rw [exec_cpuEclaimComplete, execCpuEclaimComplete, act_eq_settle _ hon]
  exact congrArg Host.Outcome.next
    (hs.withHidden { s.sup with claimed := s.sup.claimed.filter (· != data.toNat) } ⟨Code.ok, []⟩ s.boot)

/-- With no NMI waiting, the return from level `l` restores pc and mstatus and leaves the level. -/
theorem nmiReturn_eq {s : State} {l : Nat} (hlevel : s.get F.CPU_NMI_LEVEL = l + 1) (hpend : s.get F.CPU_NMI_PEND = 0) :
    s.nmiReturn = ({ s with sup := { s.sup with
      pc := s.reg (R.CPU_NMIEPC l), mstatus := s.reg (R.CPU_NMIST l), nmiCause := s.sup.nmiCause.tail } } : State).set
        F.CPU_NMI_LEVEL l := by
  let u : State := { s with sup := { s.sup with
    pc := s.reg (R.CPU_NMIEPC l), mstatus := s.reg (R.CPU_NMIST l), nmiCause := s.sup.nmiCause.tail } }
  have hp : (u.set F.CPU_NMI_LEVEL l).get F.CPU_NMI_PEND = 0 := (get_set_other u l (by decide)).trans hpend
  have hnone : [2, 1, 0, 3].find? (bitOf 0 ·) = none := by decide
  unfold nmiReturn
  simp only [hlevel, Nat.add_sub_cancel, Nat.add_eq_zero_iff, Nat.one_ne_zero, and_false, if_false]
  rw [hp, hnone]
  simp [bitOf]

/-- NMI_RET with no NMI waiting (R154). -/
theorem yields_nmiRet {s : State} {l : Nat} (hon : s.supOn = true) (hlevel : s.get F.CPU_NMI_LEVEL = l + 1) (hl : l < 2)
    (hpend : s.get F.CPU_NMI_PEND = 0) :
    Yields .nmiRet s fun t => t.sup.pc = s.reg (R.CPU_NMIEPC l) ∧ t.sup.mstatus = s.reg (R.CPU_NMIST l) ∧
      t.get F.CPU_NMI_LEVEL = l ∧ t.sup.nmiCause = s.sup.nmiCause.tail := by
  refine yields_of_act (exec_nmiRet s) hon ?_
  rw [nmiReturn_eq hlevel hpend, settle_sup, settle_get _ (by decide)]
  refine ⟨rfl, rfl, (get_set_same _ F.CPU_NMI_LEVEL l (by decide)).trans (Nat.mod_eq_of_lt ?_), rfl⟩
  exact Nat.lt_trans hl (by decide)

/-- What a word written to CPU_WDT_KICK does shows in the supervisor's state and CPU_WDT_STAT (R155). -/
theorem yields_wdtKick {s u : State} {data : Word} (hon : s.supOn = true) (h : s.wdtKick data = u) :
    Yields (.wdtKick data) s fun t => t.sup = u.sup ∧ ∀ f : Fld, f.addr = R.CPU_WDT_STAT → t.get f = u.get f := by
  refine yields_of_act (exec_wdtKick data s) hon ?_
  rw [h, settle_sup]
  refine ⟨rfl, fun f hf => ?_⟩
  rw [settle_get _ (by rw [hf]; decide)]
  rfl

/-- Registers do not depend on the supervisor's state. -/
theorem State.get_withSup (s : State) (x : SupSt) (f : Fld) : ({ s with sup := x } : State).get f = s.get f := rfl

theorem State.get_wdtStart (s : State) (f : Fld) : s.wdtStart.get f = (s.set F.CPU_WDT_STAT_STAGE2 0).get f :=
  get_withSup _ _ f

theorem State.get_wdtGrace (s : State) (f : Fld) : s.wdtGrace.get f = (s.set F.CPU_WDT_STAT_STAGE2 1).get f :=
  get_withSup _ _ f

theorem State.get_errSignal_own (s : State) (cls c : Nat) (f : Fld) : (s.errSignal cls (some c)).get f = (s.nmi c).get f := rfl

theorem State.get_timerEnds (s : State) (d : Nat) (f : Fld) : (s.timerEnds d).get f = s.get f := rfl

theorem wdtKick_first (s : State) : s.wdtKick 0xA5C3 = { s with sup := { s.sup with kickHeld := true } } := by
  simp [wdtKick]

theorem wdtKick_second {s : State} (h : s.sup.kickHeld = true) :
    s.wdtKick 0x3C5A = ({ s with sup := { s.sup with kickHeld := false } } : State).wdtStart := by
  simp [wdtKick, h]

theorem wdtKick_bad {s : State} {data : Word} (h : data ≠ 0xA5C3) (g : data ≠ 0x3C5A ∨ s.sup.kickHeld = false) :
    s.wdtKick data = ({ s with sup := { s.sup with kickHeld := false } } : State).bump F.CPU_WDT_STAT_BADKICK := by
  have hg : ¬ (data = 0x3C5A ∧ s.sup.kickHeld = true) := by
    rintro ⟨hd, hk⟩
    rcases g with g | g
    · exact g hd
    · simp [g] at hk
  simp only [wdtKick, if_neg h, if_neg hg]

/-- The first stage of the watchdog: an UNCORRECTABLE error, its NMI cause, and the grace period (R155). -/
theorem yields_wdtFirstStage {s : State} (hruns : s.wdtRuns = true) (hstage : s.get F.CPU_WDT_STAT_STAGE2 = 0)
    (hhandled : s.handled < 3) :
    Yields .wdtFirstStage s fun t => t.get F.CPU_WDT_STAT_STAGE2 = 1 ∧
      t.get (errCnt 2) = satAdd 8 (s.get (errCnt 2)) 1 ∧ bitOf (t.get F.CPU_NMI_CAUSE) 3 = true := by
  refine yields_of_act (exec_wdtFirstStage s) (by simp [hruns, State.is, hstage]) ?_
  obtain ⟨u, hu, harrive⟩ := errArrive_watchdog (s.timerEnds s.sup.wdtEnd) 0xFF 0 hhandled
  rw [harrive]
  have hgrace {f : Fld} (hstat : f.addr ≠ R.CPU_WDT_STAT) (hfail : f.addr ∉ [R.REF_HFAIL]) (hset : f.addr ∉ settleRegs) :
      (((u.errSignal 2 (some 3)).health 3).wdtGrace).settle.get f = (u.nmi 3).get f := by
    rw [settle_get _ hset, get_wdtGrace, get_set_ne _ _ hstat, ← get_errSignal_own u 2 3 f, State.get,
      (frame_health (u.errSignal 2 (some 3)) 3).2 f.addr hfail]
    rfl
  refine ⟨?_, ?_, ?_⟩
  · rw [settle_get _ (by decide), get_wdtGrace]
    exact get_set_same _ F.CPU_WDT_STAT_STAGE2 1 (by decide)
  · have hnmi : (u.nmi 3).get (errCnt 2) = u.get (errCnt 2) :=
      congrArg (getBits · 16 8) ((frame_nmi u 3).2 R.ERR_CNT (by decide))
    have hcnt : u.get (errCnt 2) = ((s.timerEnds s.sup.wdtEnd).bump (errCnt 2)).get (errCnt 2) :=
      congrArg (getBits · 16 8) (hu.2 R.ERR_CNT (by decide))
    rw [hgrace (by decide) (by decide) (by decide), hnmi, hcnt, get_bump_same _ _ _ (by decide), get_timerEnds]
    rfl
  · rw [hgrace (by decide) (by decide) (by decide)]
    exact nmi_cause u (by decide)

/-- Settles O5: claims, NMI return, kicks, the two stages of the watchdog, and the resets by software and clock failure. -/
theorem supervisorCommands : Obligations.SupervisorCommands := by
  unfold Obligations.SupervisorCommands
  refine ⟨fun s hs hon => exec_cpuEclaimClaim_eq hs hon, fun s data hs hon => exec_cpuEclaimComplete_eq data hs hon,
    fun s l hon hlevel hl hpend => yields_nmiRet hon hlevel hl hpend, fun s hon => ?_, fun s hon hheld => ?_,
    fun s data hon hdata hbad => ?_, fun s hruns hstage hhandled => yields_wdtFirstStage hruns hstage hhandled,
    fun s hruns hstage => ?_, fun s hon => ?_, fun s data hs hdata => ?_, fun s hon => ?_⟩
  · obtain ⟨t, ht, hsup, hget⟩ := yields_wdtKick hon (wdtKick_first s)
    exact ⟨t, ht, hsup, hget F.CPU_WDT_STAT_BADKICK rfl⟩
  · obtain ⟨t, ht, hsup, hget⟩ := yields_wdtKick hon (wdtKick_second hheld)
    refine ⟨t, ht, by rw [hsup]; rfl, by rw [hsup]; rfl, ?_, ?_⟩
    · rw [hget _ rfl, get_wdtStart]
      exact get_set_same _ F.CPU_WDT_STAT_STAGE2 0 (by decide)
    · rw [hget _ rfl, get_wdtStart, get_set_other _ _ (by decide)]
      rfl
  · obtain ⟨t, ht, hsup, hget⟩ := yields_wdtKick hon (wdtKick_bad hdata hbad)
    exact ⟨t, ht, hsup, (hget F.CPU_WDT_STAT_BADKICK rfl).trans (get_bump_same _ _ 1 (by decide))⟩
  · exact yields_of_restart (exec_wdtSecondStage s) (by simp [hruns, State.is, hstage]) (by decide)
  · exact yields_of_restart (exec_softwareReset _ s) (by simp [hon]) (by decide)
  · rw [exec_softwareReset, execSoftwareReset]
    exact act_eq_self_of_not _ (by rw [beq_eq_false_iff_ne.mpr hdata, Bool.and_false])
  · exact yields_of_restart (exec_clockFailureReset s) hon (by decide)

end Sys2Proof.Machine
end

section
/-! PROOFS. Frames of the twin link (R147, R535 to R545): what an accepted frame of each type leads to. -/

namespace Sys2Proof.Machine

namespace State

/-- Of the twin block the hardwired logic marks the reclaim conditions alone. -/
theorem settle_twin (s : State) : s.settle.twin = { s.twin with reclaimAt := s.settle.twin.reclaimAt } := by
  have hself (u : State) : u.selfEnter.twin = u.twin := (frame_selfEnter u).1 .twin (by decide)
  have hvb (u : State) : u.forceVb.twin = u.twin := (frame_forceVb u).1 .twin (by decide)
  have hmark (u : State) : u.markReclaim.twin = { u.twin with reclaimAt := u.markReclaim.twin.reclaimAt } := by
    unfold markReclaim
    split <;> rfl
  by_cases hc : s.role = .cell
  · have hcell : s.settle.twin = s.twin := by
      rw [settle_cell hc]
      exact ((frame_forceGates s).trans ((frame_forceDb _).trans (frame_recordState _))).1 .twin (by decide)
    rw [hcell]
  · by_cases hh : s.role = .hub
    · rw [settle_hub hh, hmark, hvb, hself]
    · rw [settle_other hc hh]

@[simp] theorem settle_twin_link (s : State) : s.settle.twin.link = s.twin.link := by rw [settle_twin]
@[simp] theorem settle_twin_status (s : State) : s.settle.twin.status = s.twin.status := by rw [settle_twin]
@[simp] theorem settle_twin_statusAt (s : State) : s.settle.twin.statusAt = s.twin.statusAt := by rw [settle_twin]
@[simp] theorem settle_twin_missing (s : State) : s.settle.twin.missing = s.twin.missing := by rw [settle_twin]
@[simp] theorem settle_twin_adopt (s : State) : s.settle.twin.adopt = s.twin.adopt := by rw [settle_twin]
@[simp] theorem settle_twin_staging (s : State) : s.settle.twin.staging = s.twin.staging := by rw [settle_twin]
@[simp] theorem settle_twin_flags (s : State) : s.settle.twin.flags = s.twin.flags := by rw [settle_twin]
@[simp] theorem settle_twin_frames (s : State) : s.settle.twin.frames = s.twin.frames := by rw [settle_twin]

/-- Self-arbitration begins or not. -/
theorem selfEnter_cases (s : State) :
    s.selfEnter = ((s.set F.TWIN_STAT_SELF 1).event Pg.REF 8).event Pg.TWIN 13 ∨ s.selfEnter = s := ite_eq_or_eq ..

/-- Of TWIN_STAT the hardwired logic writes SELF alone. -/
theorem settle_get_twinStat (s : State) {f : Fld} (ha : f.addr = R.TWIN_STAT) (hf : f.lo + f.w ≤ 10 ∨ 11 ≤ f.lo) :
    s.settle.get f = s.get f := by
  have hevent (u : State) (pg bit : Nat) (hpg : R.TWIN_STAT ≠ R.PG_EVT pg) : (u.event pg bit).get f = u.get f := by
    rw [get, get, ha, reg_event_ne _ _ _ hpg]
  by_cases hc : s.role = .cell
  · rw [settle_cell hc, recordState_eq, forceDb_eq, forceGates_eq]
    rfl
  · by_cases hh : s.role = .hub
    · have hmark : s.selfEnter.forceVb.markReclaim.get f = s.selfEnter.forceVb.get f := by
        rw [get, (frame_markReclaim s.selfEnter.forceVb).2 f.addr (by simp)]
        rfl
      have hvb : s.selfEnter.forceVb.get f = s.selfEnter.get f := by
        rw [get, (frame_forceVb s.selfEnter).2 f.addr (by rw [ha]; decide)]
        rfl
      rw [settle_hub hh, hmark, hvb]
      rcases selfEnter_cases s with he | he
      · rw [he, hevent _ Pg.TWIN _ (by decide), hevent _ Pg.REF _ (by decide), get_set_other _ _ (Or.inr hf)]
      · rw [he]
    · rw [settle_other hc hh]

/-- The state in which a frame's body is taken: a frame with a tag leaves its sequence number. -/
def twinTaken (s : State) (t seq : Nat) : State :=
  if t = 1 then s else { s with twin := { s.twin with link := { s.twin.link with rxSeq := some seq } } }

/-- A frame that passes the checks of R538 gives its body to its own command. -/
theorem twinRx_of_ok {s : State} {t : Nat} {fr body : List Byte} (f : State → List Byte → State)
    (h : s.TwinFrameOk t fr body) :
    s.twinRx t fr f = f (s.twinTaken t (ofBe ((fr.drop 3).take 6))) body := by
  obtain ⟨h4, h5, hcrc, htype, -, -, hlen, hbodyLen, hok, hbody, htag⟩ := h
  have hn : fr.length - 4 = body.length + 17 := by omega
  rw [hn] at hcrc
  unfold twinRx
  simp only [h4, h5, hcrc, htype, hbodyLen, hbody, hok, hn, Bool.and_self, Bool.not_true, Bool.false_eq_true, if_false,
    not_true, ne_eq, and_false, or_self]
  by_cases h1 : t = 1
  · simp only [if_pos h1] at htag ⊢
    simp only [twinTaken, if_pos h1, if_pos htag]
  · simp only [if_neg h1] at htag ⊢
    obtain ⟨hmac, hseq⟩ := htag
    obtain ⟨k, hk, hgmac⟩ := Option.map_eq_some_iff.mp hmac
    cases hr : s.twin.link.rxSeq with
    | none => simp only [hk, hgmac, twinTaken, if_neg h1, not_true, if_false, Bool.false_eq_true]
    | some r =>
      have hnew : r < ofBe ((fr.drop 3).take 6) := by simpa [hr] using hseq
      simp only [hk, hgmac, twinTaken, if_neg h1, not_true, if_false, decide_eq_true_eq, Nat.not_le.mpr hnew]

end State

open State

theorem exec_twinKxFrame (fr : List Byte) (s : State) : exec (.twinKxFrame fr) s = execTwinKxFrame fr s := rfl
theorem exec_twinHelloFrame (fr : List Byte) (s : State) : exec (.twinHelloFrame fr) s = execTwinHelloFrame fr s := rfl
theorem exec_twinStatusRx (fr : List Byte) (s : State) : exec (.twinStatusRx fr) s = execTwinStatusRx fr s := rfl
theorem exec_twinSliceRx (fr : List Byte) (s : State) : exec (.twinSliceRx fr) s = execTwinSliceRx fr s := rfl
theorem exec_twinCommitRx (fr : List Byte) (s : State) : exec (.twinCommitRx fr) s = execTwinCommitRx fr s := rfl

/-- A frame whose CRC fails is dropped and counted (R538). -/
theorem yields_twinStatusRx_badCrc {s : State} {fr : List Byte} (hon : s.twinOn = true) (h4 : s.laneHears 4 = true)
    (h5 : s.laneHears 5 = true) (hcrc : crcBytes (fr.take (fr.length - 4)) ≠ fr.drop (fr.length - 4)) :
    Yields (.twinStatusRx fr) s fun t => t.get ⟨R.TWIN_LERR, 0, 8⟩ = satAdd 8 (s.get ⟨R.TWIN_LERR, 0, 8⟩) 1 ∧
      t.twin.status = s.twin.status ∧ t.twin.link = s.twin.link := by
  refine yields_of_act (exec_twinStatusRx fr s) hon ?_
  have hdrop : s.twinRx 3 fr twinStatus = s.bump ⟨R.TWIN_LERR, 0, 8⟩ := by
    unfold twinRx
    simp only [h4, h5, Bool.and_self, Bool.not_true, Bool.false_eq_true, if_false]
    rw [if_pos hcrc]
    rfl
  rw [hdrop, settle_get _ (by decide), settle_twin_status, settle_twin_link]
  exact ⟨get_bump_same s _ 1 (by decide), rfl, rfl⟩

/-- A sound frame of a type is taken by the command of that type. -/
theorem yields_of_twinFrame {c : Instr} {s : State} {t : Nat} {fr body : List Byte} {f : State → List Byte → State}
    {P : State → Prop} (he : exec c s = act s s.twinOn fun s => s.twinRx t fr f) (hon : s.twinOn = true)
    (hf : s.TwinFrameOk t fr body) (hP : P (f (s.twinTaken t (ofBe ((fr.drop 3).take 6))) body).settle) : Yields c s P := by
  refine yields_of_act he hon ?_
  rw [twinRx_of_ok f hf]
  exact hP

namespace State

/-! The exchange of keys (R536). -/

/-- Whether a twin lane carries frames does not depend on TWIN_STAT. -/
theorem twinLanes_set_twinStat (s : State) {f : Fld} (v : Nat) (hf : f.addr = R.TWIN_STAT) :
    (s.set f v).laneSends 4 = s.laneSends 4 ∧ (s.set f v).laneSends 5 = s.laneSends 5 := by
  have hget {g : Fld} (hg : g.addr ≠ R.TWIN_STAT) : (s.set f v).get g = s.get g := get_set_ne s v (by rwa [hf])
  have hrole : (s.set f v).role = s.role := rfl
  have hphase : (s.set f v).phase = s.phase := rfl
  constructor <;>
  · simp (disch := decide) only [laneSends, laneDrives, pllLock, laneClock, nearLoop, moored, runs, is, alive, hget, hrole, hphase]
    rfl

/-- With both lanes up a frame is sent: it joins the frames of the cycle, and the send counter rises. -/
theorem twinSend_of_lanes {s : State} (type : Nat) (body : List Byte) (h4 : s.laneSends 4 = true) (h5 : s.laneSends 5 = true) :
    ∃ f, s.twinSend type body = { s with twin := { s.twin with
      link := { s.twin.link with txSeq := s.twin.link.txSeq + 1 }, frames := s.twin.frames ++ [f] } } := by
  unfold twinSend
  simp only [h4, h5, Bool.and_self, Bool.not_true, Bool.false_eq_true, if_false]
  exact ⟨_, rfl⟩

/-- A keyed link has both keys, fresh counters, and sends its HELLO. -/
theorem twinKeyed_of_lanes {s : State} (x eA eB : List Byte) (idA idB : DWord) (h4 : s.laneSends 4 = true)
    (h5 : s.laneSends 5 = true) :
    (s.twinKeyed x eA eB idA idB).get F.TWIN_STAT_KEYED = 1 ∧ (s.twinKeyed x eA eB idA idB).twin.link.rx.isSome = true ∧
    (s.twinKeyed x eA eB idA idB).twin.link.tx.isSome = true ∧ (s.twinKeyed x eA eB idA idB).twin.link.rxSeq = none ∧
    (s.twinKeyed x eA eB idA idB).twin.frames.length = s.twin.frames.length + 1 := by
  let k : LinkKeys := if s.side = 0 then
      { rx := some (kxKey "PX up" x eA eB idA idB), tx := some (kxKey "PX down" x eA eB idA idB) }
    else { rx := some (kxKey "PX down" x eA eB idA idB), tx := some (kxKey "PX up" x eA eB idA idB) }
  let u : State := { s with twin := { s.twin with link := k } }
  have hk : k.rx.isSome = true ∧ k.tx.isSome = true ∧ k.rxSeq = none := by
    by_cases hs : s.side = 0 <;> simp [k, hs]
  obtain ⟨hrx, htx, hseq⟩ := hk
  obtain ⟨g4, g5⟩ := twinLanes_set_twinStat u 1 (f := F.TWIN_STAT_KEYED) rfl
  obtain ⟨f, hf⟩ := twinSend_of_lanes (s := u.set F.TWIN_STAT_KEYED 1) 2
    (idBytes s.boot.imageId ++ beBytes 4 ((u.set F.TWIN_STAT_KEYED 1).reg R.BOOT_FEAT).toNat
      ++ beBytes 2 ((u.set F.TWIN_STAT_KEYED 1).get F.BOOT_MIRV_MIRV) ++ beBytes 2 (u.set F.TWIN_STAT_KEYED 1).linkVer)
    (g4.trans h4) (g5.trans h5)
  have hkeyed : s.twinKeyed x eA eB idA idB = (u.set F.TWIN_STAT_KEYED 1).twinSend 2
      (idBytes s.boot.imageId ++ beBytes 4 ((u.set F.TWIN_STAT_KEYED 1).reg R.BOOT_FEAT).toNat
        ++ beBytes 2 ((u.set F.TWIN_STAT_KEYED 1).get F.BOOT_MIRV_MIRV) ++ beBytes 2 (u.set F.TWIN_STAT_KEYED 1).linkVer) := rfl
  rw [hkeyed, hf]
  exact ⟨get_set_same u F.TWIN_STAT_KEYED 1 (by decide), hrx, htx, hseq, by simp [u]⟩

/-- The responder takes the initiator's string: it answers its own and keys the link. -/
theorem twinKx_responder {s : State} {str x : List Byte} (hbond : s.is F.TWIN_STAT_BOND = true)
    (hkeyed : s.is F.TWIN_STAT_KEYED = false) (hside : s.side = 1) (hsound : kxSound str (kxEph str) = true)
    (hpeer : s.isPeer (keyId (kxPub str)) 3 = true) (hx : ecdhX s.twin.link.priv (kxEph str) = some x) :
    ∃ mine eB idB, s.twinKx str =
      (({ s with freeCtr := s.freeCtr + 1 } : State).twinSend 1 mine).twinKeyed x (kxEph str) eB (keyId (kxPub str)) idB := by
  unfold twinKx
  simp only [hbond, hkeyed, hside, hsound, hpeer, hx, Bool.not_true, Bool.false_eq_true, or_self, if_false, Nat.one_ne_zero]
  exact ⟨_, _, _, rfl⟩

end State

/-- A sound KX of a listed twin keys the link (R536). -/
theorem yields_twinKxFrame {s : State} {fr str : List Byte} (hon : s.twinOn = true) (hf : s.TwinFrameOk 1 fr str)
    (hbond : s.is F.TWIN_STAT_BOND = true) (hkeyed : s.is F.TWIN_STAT_KEYED = false) (hside : s.side = 1)
    (hsound : kxSound str (kxEph str) = true) (hpeer : s.isPeer (keyId (kxPub str)) 3 = true)
    (hx : (ecdhX s.twin.link.priv (kxEph str)).isSome = true) (h4 : s.laneSends 4 = true) (h5 : s.laneSends 5 = true) :
    Yields (.twinKxFrame fr) s fun t => t.get F.TWIN_STAT_KEYED = 1 ∧ t.twin.link.rx.isSome = true ∧
      t.twin.link.tx.isSome = true ∧ t.twin.link.rxSeq = none ∧ t.twin.frames.length = s.twin.frames.length + 2 := by
  refine yields_of_twinFrame (exec_twinKxFrame fr s) hon hf ?_
  obtain ⟨x, hx⟩ := Option.isSome_iff_exists.mp hx
  obtain ⟨mine, eB, idB, hkx⟩ := twinKx_responder hbond hkeyed hside hsound hpeer hx
  obtain ⟨f, hsend⟩ := twinSend_of_lanes (s := { s with freeCtr := s.freeCtr + 1 }) 1 mine h4 h5
  rw [twinTaken, if_pos rfl, hkx, hsend, settle_get_twinStat _ rfl (by decide), settle_twin_link, settle_twin_frames]
  obtain ⟨hk, hrx, htx, hseq, hlen⟩ := twinKeyed_of_lanes (s := { s with
      freeCtr := s.freeCtr + 1
      twin := { s.twin with link := { s.twin.link with txSeq := s.twin.link.txSeq + 1 }, frames := s.twin.frames ++ [f] } })
    x (kxEph str) eB (keyId (kxPub str)) idB h4 h5
  exact ⟨hk, hrx, htx, hseq, hlen.trans (by simp)⟩

/-! HELLO (R147). -/

/-- A flag fits its bit. -/
theorem b2n_mod (x : Bool) : b2n x % 2 ^ 1 = b2n x := by cases x <;> rfl

/-- A sound HELLO leaves the link warm or cold: warm when features, mirror version and pairing agree. -/
theorem twinHello_warmth (s : State) (b : List Byte) :
    (s.twinHello b).get F.TWIN_STAT_HELLO = 1 ∧
    (s.twinHello b).get F.BOOT_TWIN_WARM + (s.twinHello b).get F.BOOT_TWIN_COLD = 1 ∧
    ((s.twinHello b).get F.BOOT_TWIN_WARM = 1 ↔ ofBe ((b.drop 8).take 4) = (s.reg R.BOOT_FEAT).toNat ∧
      ofBe ((b.drop 12).take 2) = s.get F.BOOT_MIRV_MIRV ∧ s.listed (idOfBytes b) 2 = true) := by
  let feat := ofBe ((b.drop 8).take 4) != (s.reg R.BOOT_FEAT).toNat
  let mirv := ofBe ((b.drop 12).take 2) != s.get F.BOOT_MIRV_MIRV
  let cold := feat || mirv || !s.listed (idOfBytes b) 2
  have hwarm : (s.twinHello b).get F.BOOT_TWIN_WARM = b2n (!cold) := by
    unfold twinHello
    rw [get_set_ne _ _ (by decide), get_set_other _ _ (by decide), get_set_other _ _ (by decide),
      get_set_same _ _ _ (by decide)]
    exact b2n_mod _
  have hcold : (s.twinHello b).get F.BOOT_TWIN_COLD = b2n cold := by
    unfold twinHello
    rw [get_set_ne _ _ (by decide), get_set_other _ _ (by decide), get_set_same _ _ _ (by decide)]
    exact b2n_mod _
  refine ⟨get_set_same _ F.TWIN_STAT_HELLO 1 (by decide), ?_, ?_⟩
  · rw [hwarm, hcold]
    cases cold <;> rfl
  · have hcases : b2n (!cold) = 1 ↔ cold = false := by cases cold <;> decide
    rw [hwarm, hcases]
    simp [cold, feat, mirv, and_assoc]

theorem yields_twinHelloFrame {s : State} {fr b : List Byte} (hon : s.twinOn = true) (hf : s.TwinFrameOk 2 fr b) :
    Yields (.twinHelloFrame fr) s fun t =>
      t.get F.TWIN_STAT_HELLO = 1 ∧ t.get F.BOOT_TWIN_WARM + t.get F.BOOT_TWIN_COLD = 1 ∧
      (t.get F.BOOT_TWIN_WARM = 1 ↔ ofBe ((b.drop 8).take 4) = (s.reg R.BOOT_FEAT).toNat ∧
        ofBe ((b.drop 12).take 2) = s.get F.BOOT_MIRV_MIRV ∧ s.listed (idOfBytes b) 2 = true) := by
  refine yields_of_twinFrame (exec_twinHelloFrame fr s) hon hf ?_
  rw [settle_get_twinStat _ rfl (by decide), settle_get _ (by decide), settle_get _ (by decide)]
  exact twinHello_warmth (s.twinTaken 2 (ofBe ((fr.drop 3).take 6))) b

/-! STATUS (R535, R539). -/

namespace State

/-- A hub that does not drive learns a watch without acting on it. -/
theorem learnWatch_of_standby {s : State} (w : Nat) (h : s.hubDrives = false) :
    s.learnWatch w = s.set F.TWIN_WATCH_SEEN w ∨ s.learnWatch w = s := by
  have hseen : (s.set F.TWIN_WATCH_SEEN w).hubDrives = false := by
    rwa [hubDrives, is, get_set_ne _ _ (by decide)]
  unfold learnWatch
  split
  · exact .inr rfl
  · left
    dsimp only
    rw [if_pos (Or.inl (by rw [hseen]; rfl))]

/-- The state that keeps a received STATUS. -/
def statusKept (s : State) (b : List Byte) : State :=
  { s with twin := { s.twin with
    status := some (parseStatus b), statusAt := some s.now, missing := 0
    sawActive := s.twin.sawActive || bitOf (parseStatus b).health 0 } }

/-- The state in which the plan of a STATUS is judged: status and the twin's VB are kept, its watches are learnt. -/
def statusLearnt (s : State) (b : List Byte) : State :=
  (((s.statusKept b).set F.TWIN_STAT_TWINVB (b2n (bitOf (parseStatus b).health 3))).dualActive (parseStatus b)).learnWatch
    (parseStatus b).own

/-- Whether the plan of a STATUS is adopted (R535). -/
def adopts (s : State) (b : List Byte) : Bool :=
  bitOf (parseStatus b).health 0 && !s.twin.active && s.is F.BOOT_TWIN_WARM && b.length == 300
    && s.time.lastK == some (parseStatus b).cycle

theorem twinStatus_eq (s : State) (b : List Byte) :
    s.twinStatus b = if (s.statusLearnt b).adopts b then
      { s.statusLearnt b with twin := { (s.statusLearnt b).twin with adopt := some (parseStatus b) } }
    else s.statusLearnt b := rfl

/-- A standby learns from a STATUS the watches alone. -/
theorem statusLearnt_of_standby {s : State} (b : List Byte) (htwin : s.is F.SYS_TOPO_TWIN = true)
    (hact : s.twin.active = false) :
    (s.statusLearnt b).twin = (s.statusKept b).twin ∧ (s.statusLearnt b).time = s.time ∧
    (s.statusLearnt b).get F.BOOT_TWIN_WARM = s.get F.BOOT_TWIN_WARM := by
  let u : State := (s.statusKept b).set F.TWIN_STAT_TWINVB (b2n (bitOf (parseStatus b).health 3))
  have huact : u.twin.active = false := hact
  have hdual : u.dualActive (parseStatus b) = u := by simp [dualActive, huact]
  have hutwin : u.is F.SYS_TOPO_TWIN = true := by
    rw [is, get_set_ne _ _ (by decide)]
    exact htwin
  have hudrives : u.hubDrives = false := by simp [hubDrives, hutwin, huact]
  have hwarm : u.get F.BOOT_TWIN_WARM = s.get F.BOOT_TWIN_WARM := get_set_ne _ _ (by decide)
  have hlearnt : s.statusLearnt b = u.learnWatch (parseStatus b).own := by
    unfold statusLearnt
    rw [show (s.statusKept b).set F.TWIN_STAT_TWINVB (b2n (bitOf (parseStatus b).health 3)) = u from rfl, hdual]
  rw [hlearnt]
  rcases learnWatch_of_standby (parseStatus b).own hudrives with h | h <;> rw [h]
  · exact ⟨rfl, rfl, (get_set_ne _ _ (by decide)).trans hwarm⟩
  · exact ⟨rfl, rfl, hwarm⟩

/-- A STATUS is kept, with the time of its arrival, and ends a run of missing ones. -/
theorem twinStatus_kept {s : State} (b : List Byte) (htwin : s.is F.SYS_TOPO_TWIN = true) (hact : s.twin.active = false) :
    (s.twinStatus b).twin.status = some (parseStatus b) ∧ (s.twinStatus b).twin.missing = 0 ∧
    (s.twinStatus b).twin.statusAt = some s.now := by
  obtain ⟨htw, -, -⟩ := statusLearnt_of_standby b htwin hact
  rw [twinStatus_eq]
  split <;> simp [htw, statusKept]

/-- A warm standby adopts the plan of the same cycle. -/
theorem twinStatus_adopt {s : State} {b : List Byte} (htwin : s.is F.SYS_TOPO_TWIN = true) (hact : s.twin.active = false)
    (hhealth : bitOf (parseStatus b).health 0 = true) (hwarm : s.is F.BOOT_TWIN_WARM = true) (hlen : b.length = 300)
    (hcycle : s.time.lastK = some (parseStatus b).cycle) : (s.twinStatus b).twin.adopt = some (parseStatus b) := by
  obtain ⟨htw, htime, hw⟩ := statusLearnt_of_standby b htwin hact
  have hadopts : (s.statusLearnt b).adopts b = true := by
    rw [is] at hwarm
    simp [adopts, htw, htime, is, hw, statusKept, hact, hhealth, hwarm, hlen, hcycle]
  rw [twinStatus_eq, if_pos hadopts]

/-- What the hub is and drives does not change when the sequence number of a frame is kept. -/
theorem twinTaken_is (s : State) (t seq : Nat) (f : Fld) : (s.twinTaken t seq).is f = s.is f := by
  unfold twinTaken
  split <;> rfl

theorem twinTaken_get (s : State) (t seq : Nat) (f : Fld) : (s.twinTaken t seq).get f = s.get f := by
  unfold twinTaken
  split <;> rfl

theorem twinTaken_of_tagged (s : State) {t : Nat} (seq : Nat) (ht : t ≠ 1) :
    s.twinTaken t seq = { s with twin := { s.twin with link := { s.twin.link with rxSeq := some seq } } } := if_neg ht

/-- A hub whose twin link is on has a twin. -/
theorem twinOn_topo {s : State} (h : s.twinOn = true) : s.is F.SYS_TOPO_TWIN = true := by
  simp only [twinOn, Bool.and_eq_true] at h
  exact h.1.2

end State

theorem yields_twinStatus_kept {s : State} {fr b : List Byte} (hon : s.twinOn = true) (hf : s.TwinFrameOk 3 fr b)
    (hact : s.twin.active = false) : Yields (.twinStatusRx fr) s fun t => t.twin.status = some (parseStatus b) ∧
      t.twin.missing = 0 ∧ t.twin.statusAt = some s.now := by
  refine yields_of_twinFrame (exec_twinStatusRx fr s) hon hf ?_
  rw [settle_twin_status, settle_twin_missing, settle_twin_statusAt, twinTaken_of_tagged s _ (by decide)]
  exact twinStatus_kept b (twinOn_topo hon) hact

theorem yields_twinStatus_adopt {s : State} {fr b : List Byte} (hon : s.twinOn = true) (hf : s.TwinFrameOk 3 fr b)
    (hact : s.twin.active = false) (hhealth : bitOf (parseStatus b).health 0 = true)
    (hwarm : s.is F.BOOT_TWIN_WARM = true) (hlen : b.length = 300) (hcycle : s.time.lastK = some (parseStatus b).cycle) :
    Yields (.twinStatusRx fr) s fun t => t.twin.adopt = some (parseStatus b) := by
  refine yields_of_twinFrame (exec_twinStatusRx fr s) hon hf ?_
  rw [settle_twin_adopt, twinTaken_of_tagged s _ (by decide)]
  exact twinStatus_adopt (twinOn_topo hon) hact hhealth hwarm hlen hcycle

/-! SLICE and COMMIT (R543). -/

namespace State

/-- A SLICE is staged under its crossing number, in a generation that is there or a new one; the link stays. -/
theorem twinSlice_staged {s : State} (b : List Byte) (hact : s.twin.active = false) :
    (s.twinSlice b).twin.staging.any (fun g => g.x == ofBe (b.take 4)) = true ∧ (s.twinSlice b).twin.link = s.twin.link := by
  unfold twinSlice
  simp only [hact, Bool.false_eq_true, if_false, List.drop_zero]
  refine ⟨?_, trivial⟩
  split
  next hany =>
    obtain ⟨g, hg, hx⟩ := List.any_eq_true.mp hany
    refine List.any_eq_true.mpr ⟨_, List.mem_map_of_mem hg, ?_⟩
    rwa [apply_ite Staging.x, ite_self]
  · simp

theorem addFlag_contains (i : Nat) (l : List Nat) : (addFlag i l).contains i = true := by
  unfold addFlag
  split
  · assumption
  · simp

/-- A discarded generation is counted, its slice flagged, and the mirror is not ready. -/
theorem sliceDiscard_effect (s : State) (idx : Nat) :
    (s.sliceDiscard idx).twin.staging = s.twin.staging ∧ (s.sliceDiscard idx).twin.flags.contains idx = true ∧
    (s.sliceDiscard idx).get F.TWIN_MCNT_DISCARD = satAdd F.TWIN_MCNT_DISCARD.w (s.get F.TWIN_MCNT_DISCARD) 1 ∧
    (s.sliceDiscard idx).get F.TWIN_STAT_READY = 0 := by
  have htwin : ((s.bump F.TWIN_MCNT_DISCARD).event Pg.TWIN 11).twin = s.twin := (frame_event _ Pg.TWIN 11).1 .twin (by decide)
  have hstaging : (s.sliceDiscard idx).twin.staging = s.twin.staging := by
    change ((s.bump F.TWIN_MCNT_DISCARD).event Pg.TWIN 11).twin.staging = _
    rw [htwin]
  refine ⟨hstaging, addFlag_contains idx _, ?_, get_set_same _ F.TWIN_STAT_READY 0 (by decide)⟩
  have hevent : (((s.bump F.TWIN_MCNT_DISCARD).event Pg.TWIN 11).set F.TWIN_STAT_READY 0).get F.TWIN_MCNT_DISCARD
      = (s.bump F.TWIN_MCNT_DISCARD).get F.TWIN_MCNT_DISCARD := by
    rw [get_set_ne _ _ (by decide), get, reg_event_ne _ _ _ (by decide)]
    rfl
  exact hevent.trans (get_bump_same s _ 1 (by decide))

/-- The generation that a COMMIT completes: the one staged under its crossing number, or a new, empty one. -/
def commitGen (s : State) (b : List Byte) : Staging :=
  match s.twin.staging.find? fun g => g.commit.isNone && g.x == ofBe (b.take 4) with
  | some g => g
  | none => { x := ofBe (b.take 4), idx := ofBe ((b.drop 4).take 2), nuse := max 1 (ofBe ((b.drop 6).take 1)),
              restart := false, data := [], commit := none }

/-- The slice that a COMMIT finds whole. -/
def commitData (s : State) (b : List Byte) : Option (List Byte) :=
  stagedBytes (s.commitGen b).data (ofBe ((b.drop 7).take 4))

/-- The generations that wait for a meridian. -/
def waiting (s : State) : List Staging := s.twin.staging.filter (·.commit.isSome)

/-- The generations that a COMMIT of this crossing number supersedes. -/
def superseded (s : State) (b : List Byte) : List Staging :=
  s.twin.staging.filter fun g => g.commit.isNone && g.x != ofBe (b.take 4)

/-- How many generations were skipped between the last one known and the one of a COMMIT. -/
def skipped (s : State) (b : List Byte) : Nat :=
  match (match s.waiting.getLast? with
    | some g => some g.x
    | none => s.twin.applied) with
  | some y => (ofBe (b.take 4) + 2 ^ 32 - y) % 2 ^ 32 - 1
  | none => 0

/-- The slices of the skipped generations are flagged. -/
def flagSkipped (s : State) (gap x nuse : Nat) : State :=
  if gap = 0 then s else
    { s.unready with twin := { s.unready.twin with
        flags := (List.range (min gap nuse)).foldl (fun l j => addFlag ((x + nuse * 2 ^ 32 - 1 - j) % nuse) l) s.twin.flags } }

/-- The state in which a COMMIT is judged: superseded generations are discarded, skipped ones flagged. -/
def commitBase (s : State) (b : List Byte) : State :=
  ((s.superseded b).foldl (fun (t : State) g => t.sliceDiscard g.idx) { s with twin := { s.twin with staging := s.waiting } }).flagSkipped
    (s.skipped b) (ofBe (b.take 4)) (max 1 (ofBe ((b.drop 6).take 1)))

theorem twinCommit_eq (s : State) (b : List Byte) : s.twinCommit b =
    if s.twin.active then s else
      (s.commitData b).elim ((s.commitBase b).sliceDiscard (ofBe ((b.drop 4).take 2))) fun data =>
        if crc32c data = ofBe ((b.drop 11).take 4) then
          { s.commitBase b with twin := { (s.commitBase b).twin with
              staging := (s.commitBase b).twin.staging ++ [{ s.commitGen b with commit := some data }] } }
        else (s.commitBase b).sliceDiscard (ofBe ((b.drop 4).take 2)) := by
  unfold twinCommit
  split
  · rfl
  · change (match s.commitData b with | some data => _ | none => _) = _
    cases s.commitData b with
    | none => rfl
    | some data => rfl

/-- Flagging stages nothing and discards nothing. -/
theorem flagSkipped_effect (s : State) (gap x nuse : Nat) :
    (s.flagSkipped gap x nuse).twin.staging = s.twin.staging ∧
    (s.flagSkipped gap x nuse).get F.TWIN_MCNT_DISCARD = s.get F.TWIN_MCNT_DISCARD := by
  unfold flagSkipped
  split
  · exact ⟨rfl, rfl⟩
  · exact ⟨rfl, get_set_ne s _ (by decide)⟩

/-- With no other generation staged a COMMIT discards nothing before it is judged. -/
theorem commitBase_alone {s : State} {b : List Byte} (hw : s.waiting = []) (ho : s.superseded b = []) :
    (s.commitBase b).twin.staging = [] ∧ (s.commitBase b).get F.TWIN_MCNT_DISCARD = s.get F.TWIN_MCNT_DISCARD := by
  rw [commitBase, hw, ho, List.foldl_nil]
  exact flagSkipped_effect _ _ _ _

/-- A COMMIT whose slice is whole and whose CRC matches makes it wait for the next meridian. -/
theorem twinCommit_waits {s : State} {b : List Byte} {g : Staging} (hact : s.twin.active = false)
    (hg : s.twin.staging = [g]) (hnone : g.commit = none) (hx : g.x = ofBe (b.take 4))
    (hcrc : (stagedBytes g.data (ofBe ((b.drop 7).take 4))).map crc32c = some (ofBe ((b.drop 11).take 4))) :
    ((s.twinCommit b).twin.staging.getLast?.map fun y => (y.x, y.commit)) =
      some (g.x, stagedBytes g.data (ofBe ((b.drop 7).take 4))) ∧
    (s.twinCommit b).get F.TWIN_MCNT_DISCARD = s.get F.TWIN_MCNT_DISCARD := by
  obtain ⟨data, hdata, hok⟩ := Option.map_eq_some_iff.mp hcrc
  have hgen : s.commitGen b = g := by simp [commitGen, hg, hnone, hx]
  obtain ⟨-, hdisc⟩ := commitBase_alone (s := s) (b := b) (by simp [waiting, hg, hnone]) (by simp [superseded, hg, hx])
  have hwhole : s.commitData b = some data := by rw [commitData, hgen, hdata]
  rw [twinCommit_eq, hact, if_neg Bool.false_ne_true, hwhole, Option.elim_some, if_pos hok, hgen]
  refine ⟨?_, hdisc⟩
  simp [hdata]

/-- A COMMIT of a generation of which nothing is staged is discarded. -/
theorem twinCommit_discards {s : State} {b : List Byte} (hact : s.twin.active = false) (hg : s.twin.staging = [])
    (hlen : 0 < ofBe ((b.drop 7).take 4)) :
    (s.twinCommit b).twin.staging = [] ∧
    (s.twinCommit b).twin.flags.contains (ofBe ((b.drop 4).take 2)) = true ∧
    (s.twinCommit b).get F.TWIN_MCNT_DISCARD = satAdd F.TWIN_MCNT_DISCARD.w (s.get F.TWIN_MCNT_DISCARD) 1 ∧
    (s.twinCommit b).get F.TWIN_STAT_READY = 0 := by
  obtain ⟨hstaging, hdisc⟩ := commitBase_alone (s := s) (b := b) (by simp [waiting, hg]) (by simp [superseded, hg])
  have hnone : s.commitData b = none := by
    simp only [commitData, commitGen, hg, List.find?_nil, stagedBytes]
    rw [if_neg]
    rw [List.all_eq_true]
    exact fun h => absurd (h 0 (List.mem_range.mpr hlen)) Bool.false_ne_true
  obtain ⟨hs, hf, hd, hr⟩ := sliceDiscard_effect (s.commitBase b) (ofBe ((b.drop 4).take 2))
  rw [twinCommit_eq, hact, if_neg Bool.false_ne_true, hnone, Option.elim_none]
  exact ⟨hs.trans hstaging, hf, by rw [hd, hdisc], hr⟩

end State

theorem yields_twinSliceRx {s : State} {fr b : List Byte} (hon : s.twinOn = true) (hf : s.TwinFrameOk 4 fr b)
    (hact : s.twin.active = false) : Yields (.twinSliceRx fr) s fun t =>
      t.twin.staging.any (fun g => g.x == ofBe (b.take 4)) = true ∧
      t.twin.link.rxSeq = some (ofBe ((fr.drop 3).take 6)) := by
  refine yields_of_twinFrame (exec_twinSliceRx fr s) hon hf ?_
  rw [settle_twin_staging, settle_twin_link, twinTaken_of_tagged s _ (by decide)]
  obtain ⟨hstaged, hlink⟩ := twinSlice_staged (s := { s with twin := { s.twin with
    link := { s.twin.link with rxSeq := some (ofBe ((fr.drop 3).take 6)) } } }) b hact
  exact ⟨hstaged, by rw [hlink]⟩

theorem yields_twinCommit_waits {s : State} {fr b : List Byte} {g : Staging} (hon : s.twinOn = true)
    (hf : s.TwinFrameOk 5 fr b) (hact : s.twin.active = false) (hg : s.twin.staging = [g]) (hnone : g.commit = none)
    (hx : g.x = ofBe (b.take 4))
    (hcrc : (stagedBytes g.data (ofBe ((b.drop 7).take 4))).map crc32c = some (ofBe ((b.drop 11).take 4))) :
    Yields (.twinCommitRx fr) s fun t => (t.twin.staging.getLast?.map fun y => (y.x, y.commit)) =
      some (g.x, stagedBytes g.data (ofBe ((b.drop 7).take 4))) ∧
      t.get F.TWIN_MCNT_DISCARD = s.get F.TWIN_MCNT_DISCARD := by
  refine yields_of_twinFrame (exec_twinCommitRx fr s) hon hf ?_
  rw [settle_twin_staging, settle_get _ (by decide), twinTaken_of_tagged s _ (by decide)]
  exact twinCommit_waits (s := { s with twin := { s.twin with
    link := { s.twin.link with rxSeq := some (ofBe ((fr.drop 3).take 6)) } } }) hact hg hnone hx hcrc

theorem yields_twinCommit_discards {s : State} {fr b : List Byte} (hon : s.twinOn = true) (hf : s.TwinFrameOk 5 fr b)
    (hact : s.twin.active = false) (hg : s.twin.staging = []) (hlen : 0 < ofBe ((b.drop 7).take 4)) :
    Yields (.twinCommitRx fr) s fun t => t.twin.staging = [] ∧
      t.twin.flags.contains (ofBe ((b.drop 4).take 2)) = true ∧
      t.get F.TWIN_MCNT_DISCARD = satAdd F.TWIN_MCNT_DISCARD.w (s.get F.TWIN_MCNT_DISCARD) 1 ∧
      t.get F.TWIN_STAT_READY = 0 := by
  refine yields_of_twinFrame (exec_twinCommitRx fr s) hon hf ?_
  rw [settle_twin_staging, settle_twin_flags, settle_get _ (by decide), settle_get_twinStat _ rfl (by decide),
    twinTaken_of_tagged s _ (by decide)]
  exact twinCommit_discards (s := { s with twin := { s.twin with
    link := { s.twin.link with rxSeq := some (ofBe ((fr.drop 3).take 6)) } } }) hact hg hlen

/-- Settles O34: a frame that passes the checks of R538 gives its body to its own command (`yields_of_twinFrame`), and each
command leads to the state that R535, R536, R539 and R543 give. -/
theorem twinFrames : Obligations.TwinFrames := by
  refine ⟨fun s fr hon h4 h5 hcrc => yields_twinStatusRx_badCrc hon h4 h5 hcrc,
    fun s fr str hon hf hbond hkeyed hside hsound hpeer hx h4 h5 =>
      yields_twinKxFrame hon hf hbond hkeyed hside hsound hpeer hx h4 h5,
    fun s fr b hon hf => yields_twinHelloFrame hon hf,
    fun s fr b hon hf hact _ => yields_twinStatus_kept hon hf hact,
    fun s fr b hon hf hact _ hhealth hwarm hlen hcycle => yields_twinStatus_adopt hon hf hact hhealth hwarm hlen hcycle,
    fun s fr b hon hf hact => yields_twinSliceRx hon hf hact,
    fun s fr b g hon hf hact hg hnone hx hcrc => yields_twinCommit_waits hon hf hact hg hnone hx hcrc,
    fun s fr b hon hf hact hg hlen => yields_twinCommit_discards hon hf hact hg hlen⟩

end Sys2Proof.Machine
end

section
/-! PROOFS. What the boot ROM reads of OTP and flash (R137 to R142, R168 to R173), and that it reads the same in states that
agree there. -/

namespace Sys2Proof.Machine

namespace State

theorem bytes_congr {s t : State} {a n : Nat} (h : ∀ x, a ≤ x → x < a + n → t.byte x = s.byte x) :
    t.bytes a n = s.bytes a n := by
  induction n generalizing a with
  | zero => rfl
  | succ n ih =>
    rw [bytes, bytes, h a (Nat.le_refl a) (by omega), ih fun x hx hlt => h x (by omega) (by omega)]

theorem firstFrom_congr {p q : Nat → Bool} {k n : Nat} (h : ∀ i, n ≤ i → i < n + k → p i = q i) :
    firstFrom p k n = firstFrom q k n := by
  induction k generalizing n with
  | zero => rfl
  | succ k ih =>
    rw [firstFrom, firstFrom, h n (Nat.le_refl n) (by omega), ih fun i hi hlt => h i (by omega) (by omega)]

theorem firstFrom_lt {p : Nat → Bool} {k n i : Nat} (h : firstFrom p k n = some i) : i < n + k := by
  induction k generalizing n with
  | zero => cases h
  | succ k ih =>
    rw [firstFrom] at h
    split at h
    · cases h
      omega
    · have := ih h
      omega

/-- The flash of `t` holds what the flash of `s` holds. -/
def FlashSame (s t : State) : Prop := ∀ a, 0x60000000 ≤ a → a < 0x61000000 → t.byte a = s.byte a

/-- `t` has the role of `s`, and its OTP and flash. -/
def RomSame (s t : State) : Prop :=
  t.role = s.role ∧ ∀ a, 0x50000000 ≤ a → a < 0x61000000 → t.byte a = s.byte a

namespace FlashSame

variable {s t u : State} {i : Nat}

theorem refl (s : State) : FlashSame s s := fun _ _ _ => rfl

theorem trans (h : FlashSame s t) (g : FlashSame t u) : FlashSame s u :=
  fun a ha hlt => (g a ha hlt).trans (h a ha hlt)

theorem bytes (h : FlashSame s t) {a n : Nat} (ha : 0x60000000 ≤ a) (hlt : a + n ≤ 0x61000000) :
    t.bytes a n = s.bytes a n := bytes_congr fun x hx hn => h x (by omega) (by omega)

theorem slotHeader (h : FlashSame s t) (hi : i < 2) : t.slotHeader i = s.slotHeader i :=
  h.bytes (by unfold slotAddr; omega) (by unfold slotAddr; omega)

theorem keyRecord (h : FlashSame s t) (hi : i < 2) : t.keyRecord i = s.keyRecord i :=
  h.bytes (by unfold slotAddr; omega) (by unfold slotAddr; omega)

theorem slotImage (h : FlashSame s t) (hi : i < 2) : t.slotImage i = s.slotImage i := by
  have hlen : t.num (slotAddr i + 0x24) 4 = s.num (slotAddr i + 0x24) 4 := by
    rw [num, num, h.bytes (by unfold slotAddr; omega) (by unfold slotAddr; omega)]
  rw [State.slotImage, State.slotImage, hlen]
  exact h.bytes (by unfold slotAddr; omega) (by unfold slotAddr; omega)

end FlashSame

namespace RomSame

variable {s t u : State} {i : Nat}

theorem refl (s : State) : RomSame s s := ⟨rfl, fun _ _ _ => rfl⟩

theorem trans (h : RomSame s t) (g : RomSame t u) : RomSame s u :=
  ⟨g.1.trans h.1, fun a ha hlt => (g.2 a ha hlt).trans (h.2 a ha hlt)⟩

/-- Registers, phase and the other parts are not read. -/
theorem parts (h : RomSame s t) (hr : u.role = t.role := by rfl) (hm : u.mem = t.mem := by rfl) : RomSame s u :=
  ⟨hr.trans h.1, fun a ha hlt => (congrArg (fun m => (kvFind m a).getD (blankByte a)) hm).trans (h.2 a ha hlt)⟩

theorem flash (h : RomSame s t) : FlashSame s t := fun a ha hlt => h.2 a (by omega) hlt

theorem bytes (h : RomSame s t) {a n : Nat} (ha : 0x50000000 ≤ a) (hlt : a + n ≤ 0x61000000) :
    t.bytes a n = s.bytes a n := bytes_congr fun x hx hn => h.2 x (by omega) (by omega)

theorem marked (h : RomSame s t) {o : Nat} (ho : o < 0x10000) : t.marked o = s.marked o := by
  rw [State.marked, State.marked, num, num, h.bytes (by unfold otpBase; omega) (by unfold otpBase; omega)]

theorem programmed (h : RomSame s t) {o n : Nat} (ho : o + n < 0x10000) : t.programmed o n = s.programmed o n := by
  rw [State.programmed, State.programmed, h.bytes (by unfold otpBase; omega) (by unfold otpBase; omega)]

theorem idRecord (h : RomSame s t) : t.idRecord = s.idRecord := by
  rw [State.idRecord, State.idRecord, h.marked (by decide), h.marked (by decide)]

theorem activeSlot (h : RomSame s t) : t.activeSlot = s.activeSlot := by
  unfold State.activeSlot firstIdx
  refine firstFrom_congr fun i _ hi => ?_
  rw [ownerWritten, ownerWritten, ownerRevoked, ownerRevoked, h.marked (by omega), h.programmed (by omega)]

theorem antiRollback (h : RomSame s t) : t.antiRollback = s.antiRollback := by
  rw [State.antiRollback, State.antiRollback, num, num, num, num, h.bytes (by decide) (by decide),
    h.bytes (by decide) (by decide)]

theorem ownerKey (h : RomSame s t) (r : List Byte) : t.ownerKey r = s.ownerKey r := by
  unfold State.ownerKey
  rw [h.activeSlot]
  cases ho : s.activeSlot with
  | none => rfl
  | some o =>
    have hlt : o < 8 := by simpa using firstFrom_lt ho
    have hhash : t.ownerHash o = s.ownerHash o := h.bytes (by unfold otpBase; omega) (by unfold otpBase; omega)
    simp only [hhash]

theorem flashOwner (h : RomSame s t) : t.flashOwner = s.flashOwner := by
  simp only [State.flashOwner, List.find?, h.ownerKey, h.flash.keyRecord (i := 0) (by decide),
    h.flash.keyRecord (i := 1) (by decide)]
  cases s.ownerKey (s.keyRecord 0)
  · cases s.ownerKey (s.keyRecord 1)
    · rfl
    · simp [h.flash.keyRecord (i := 1) (by decide)]
  · simp [h.flash.keyRecord (i := 0) (by decide)]

theorem headerWhy (h : RomSame s t) (c : List Byte) (key : Option (List Byte)) : t.headerWhy c key = s.headerWhy c key := by
  unfold State.headerWhy
  rw [h.1, h.antiRollback]

theorem containerWhy (h : RomSame s t) (c : List Byte) (key : Option (List Byte)) :
    t.containerWhy c key = s.containerWhy c key := by
  rw [State.containerWhy, State.containerWhy, h.headerWhy]

theorem ownerTest (h : RomSame s t) (hi : i < 2) : t.ownerTest i = s.ownerTest i := by
  rw [State.ownerTest, State.ownerTest, h.flash.keyRecord hi, h.flash.slotImage hi, h.containerWhy]

end RomSame

/-! The tests of a container (R142) and its load into SRAM. -/

theorem headerWhy_le (s : State) (c : List Byte) (key : Option (List Byte)) : s.headerWhy c key ≤ 6 := by
  unfold State.headerWhy
  dsimp only
  repeat' split
  all_goals decide

theorem containerWhy_le (s : State) (c : List Byte) (key : Option (List Byte)) : s.containerWhy c key ≤ 7 := by
  have := s.headerWhy_le c key
  unfold State.containerWhy
  split
  · split <;> decide
  · omega

/-- A container whose body is streamed has passed the tests of its header. -/
theorem headerWhy_of_containerWhy {s : State} {c : List Byte} {key : Option (List Byte)}
    (h : s.containerWhy c key = 0 ∨ s.containerWhy c key = 7) : s.headerWhy c key = 0 := by
  have := s.headerWhy_le c key
  unfold State.containerWhy at h
  split at h
  next h0 => exact h0
  · omega

/-- Test 4: the body lies in SRAM. -/
theorem load_of_headerWhy {s : State} {c : List Byte} {key : Option (List Byte)} (h : s.headerWhy c key = 0) :
    imgNum c 0x1C 4 + imgNum c 0x24 4 ≤ 0x10080000 := by
  unfold State.headerWhy at h
  dsimp only at h
  split at h
  · cases h
  · split at h
    · cases h
    · split at h
      · cases h
      · split at h
        · cases h
        · omega

theorem loadBody_eq (s : State) (c : List Byte) (why : Nat) : s.loadBody c why = { s with mem := (s.loadBody c why).mem } := by
  unfold loadBody
  split
  · exact setBytes_eq _ _ _
  · rfl

/-- The load reaches neither OTP nor flash. -/
theorem romSame_loadBody (s : State) (c : List Byte) (key : Option (List Byte)) :
    RomSame s (s.loadBody c (s.containerWhy c key)) := by
  refine ⟨by rw [loadBody_eq], fun a ha _ => ?_⟩
  unfold loadBody
  split
  next h =>
    have hload := load_of_headerWhy (headerWhy_of_containerWhy h)
    have hlen : (imgBody c).length ≤ imgNum c 0x24 4 := List.length_take_le _ _
    exact byte_setBytes_out _ _ _ (by omega)
  · rfl

end State

/-! The jump to an accepted container (R144, R202). -/

/-- The registers that the board table of a container sets, and the event of an equalizer beyond its range. -/
def boardRegs : List Nat :=
  (List.range 8).flatMap fun n =>
    [R.LANE_CFG n, R.LANE_STAT n, R.PG_EVT (Pg.LANE n)] ++ (List.range 3).map (R.LANE_EQ n)

/-- The registers of the clocks that the ROM raises by the jump. -/
def clockRegs : List Nat := [R.CLK_SRC, R.CLK_SPLL, R.CLK_SPLL_STAT] ++ (List.range 4).map R.CLK_DOM

/-- The registers that a jump writes beside BOOT_STAT. -/
def jumpRegs : List Nat :=
  [R.BOOT_RUN, R.BOOT_BUILD, R.BOOT_FEAT, R.BOOT_ID_LO, R.BOOT_ID_HI, R.BOOT_MIRV] ++ boardRegs ++ clockRegs

/-- `t` has the registers of `s`, but for those that a jump writes. -/
def JumpFrame (s t : State) : Prop := KeepsRegs jumpRegs s t

namespace JumpFrame

variable {s t u : State}

theorem refl (s : State) : JumpFrame s s := KeepsRegs.refl _ s

theorem trans (h : JumpFrame s t) (g : JumpFrame t u) : JumpFrame s u := fun a ha => (g a ha).trans (h a ha)

theorem set (h : JumpFrame s t) {f : Fld} {n : Nat} (hf : f.addr ∈ jumpRegs := by decide) : JumpFrame s (t.set f n) :=
  h.trans ((keepsRegs_set t f n).mono (by simpa using hf))

theorem setReg (h : JumpFrame s t) {a : Nat} {v : Word} (ha : a ∈ jumpRegs := by decide) : JumpFrame s (t.setReg a v) :=
  h.trans ((keepsRegs_setReg t a v).mono (by simpa using ha))

theorem ite {c : Prop} [Decidable c] (h : JumpFrame s t) (g : JumpFrame s u) : JumpFrame s (if c then t else u) := by
  split
  · exact h
  · exact g

theorem forUpTo {f : Nat → State → State} {k : Nat} (h : ∀ n, n < k → ∀ u, JumpFrame u (f n u)) (s : State) :
    JumpFrame s (forUpTo f k s) := by
  induction k with
  | zero => exact .refl s
  | succ k ih => exact (ih fun n hn => h n (by omega)).trans (h k (by omega) _)

theorem foldl {α : Type} {f : State → α → State} {l : List α} (h : ∀ x ∈ l, ∀ u, JumpFrame u (f u x)) (s : State) :
    JumpFrame s (l.foldl f s) := by
  induction l generalizing s with
  | nil => exact .refl s
  | cons x l ih => exact (h x List.mem_cons_self s).trans (ih (fun y hy => h y (List.mem_cons_of_mem x hy)) _)

theorem get (h : JumpFrame s t) {f : Fld} (hf : f.addr ∉ jumpRegs) : t.get f = s.get f := by simp [State.get, h _ hf]

end JumpFrame

theorem laneRegs_mem_jumpRegs : ∀ n < 8, R.LANE_CFG n ∈ jumpRegs ∧ R.LANE_STAT n ∈ jumpRegs ∧
    R.PG_EVT (Pg.LANE n) ∈ jumpRegs ∧ ∀ r < 3, R.LANE_EQ n r ∈ jumpRegs := by decide

theorem jumpFrame_eqClip (s : State) {n : Nat} (r : Nat) (hn : n < 8) : JumpFrame s (s.eqClip n r) := by
  obtain ⟨-, -, hevt, -⟩ := laneRegs_mem_jumpRegs n hn
  exact .ite ((keepsRegs_event s (Pg.LANE n) 17).mono (by simpa using hevt)) (.refl s)

theorem jumpFrame_loadBoard (s : State) (board : List Byte) : JumpFrame s (s.loadBoard board) := by
  have hboard : JumpFrame s { s with boot := { s.boot with board := board } } := fun _ _ => rfl
  refine hboard.trans (.forUpTo (fun n hn u => ?_) _)
  obtain ⟨hcfg, hstat, -, heq⟩ := laneRegs_mem_jumpRegs n hn
  refine .ite ?_ ((JumpFrame.refl u).set hstat)
  refine (((JumpFrame.refl u).set hcfg).set hcfg).trans (.forUpTo (fun r hr v => ?_) _)
  have hact (w : Word) : JumpFrame v { v.setReg (R.LANE_EQ n r) w with act := kvSet v.act (R.LANE_EQ n r) w } :=
    ((JumpFrame.refl v).setReg (v := w) (heq r hr)).trans fun _ _ => rfl
  exact (hact _).trans (jumpFrame_eqClip _ r hn)

theorem clockDom_mem_jumpRegs : ∀ x ∈ [(0, 4), (1, 8), (3, 10), (2, 50)], R.CLK_DOM x.1 ∈ jumpRegs := by decide

theorem jumpFrame_clocksUp (s : State) : JumpFrame s s.clocksUp := by
  unfold State.clocksUp
  refine .ite (.refl s) ?_
  split
  refine JumpFrame.trans (t := (((s.set F.CLK_SRC_SPLL_EN 1).set F.CLK_SPLL_STAT_LOCK 1).set F.CLK_SPLL_REFSEL _).set
    F.CLK_SPLL_PREDIV _ |>.set F.CLK_SPLL_MULT _) ?_ (.foldl (fun x hx u => ?_) _)
  · exact .set <| .set <| .set <| .set <| .set <| .refl s
  · have hdom := clockDom_mem_jumpRegs x hx
    exact .set (.set (.set (.set (.refl u) hdom) hdom) hdom) hdom

/-- What a jump leads to: the entry point of the container, and its source in BOOT_STAT. -/
theorem jump_effect (s : State) (c : List Byte) {src : Nat} (board : List Byte) (hsrc : src < 8) :
    (s.jump c src board).phase = .running ∧ (s.jump c src board).sup.pc = BitVec.ofNat 32 (imgNum c 0x20 4) ∧
    (s.jump c src board).get F.BOOT_STAT_SRC = src ∧
    ∀ f : Fld, f.addr = R.BOOT_REJ → (s.jump c src board).get f = s.get f := by
  have hframe : JumpFrame (s.set F.BOOT_STAT_SRC src) (s.jump c src board) := by
    refine JumpFrame.trans ?_ ((jumpFrame_loadBoard _ board).trans ((jumpFrame_clocksUp _).trans fun _ _ => rfl))
    exact .set <| .setReg <| .setReg <| .setReg <| .setReg <| .set <| .set <| .refl _
  refine ⟨rfl, rfl, ?_, fun f hf => ?_⟩
  · rw [hframe.get (by decide), State.get_set_same _ _ _ (by decide)]
    exact Nat.mod_eq_of_lt hsrc
  · rw [hframe.get (by rw [hf]; decide), State.get_set_ne _ _ (by rw [hf]; decide)]

end Sys2Proof.Machine
end

section
/-! PROOFS. The commands of the boot ROM (R142, R143, R173 to R176). -/

namespace Sys2Proof.Machine

open State

theorem exec_containerCheck (s : State) : exec .containerCheck s = execContainerCheck s := rfl
theorem exec_bootRetry (s : State) : exec .bootRetry s = execBootRetry s := rfl
theorem exec_treeContainerComplete (s : State) : exec .treeContainerComplete s = execTreeContainerComplete s := rfl
theorem exec_firstOwnership (s : State) : exec .firstOwnership s = execFirstOwnership s := rfl
theorem exec_ownerChangeEntry (s : State) : exec .ownerChangeEntry s = execOwnerChangeEntry s := rfl
theorem exec_ownerRevoke (s : State) : exec .ownerRevoke s = execOwnerRevoke s := rfl

/-- The field of BOOT_REJ that shows slot `i`. -/
def rejField (i : Nat) : Fld := if i = 0 then F.BOOT_REJ_REJA else F.BOOT_REJ_REJB

@[simp] theorem rejField_addr (i : Nat) : (rejField i).addr = R.BOOT_REJ := by
  unfold rejField
  split <;> rfl

theorem settle_rejField (s : State) (i : Nat) : s.settle.get (rejField i) = s.get (rejField i) :=
  settle_get s (by rw [rejField_addr]; decide)

namespace State

theorem get_reject_same (s : State) (i : Nat) {why : Nat} (h : why < 16) : (s.reject i why).get (rejField i) = why := by
  have hset : (s.set (rejField i) why).get (rejField i) = why % 2 ^ (rejField i).w :=
    get_set_same s _ _ (by unfold rejField; split <;> decide)
  have hw : (rejField i).w = 4 := by
    unfold rejField
    split <;> rfl
  exact hset.trans (by rw [hw]; exact Nat.mod_eq_of_lt h)

theorem get_withBoot (s : State) (b : BootSt) (f : Fld) : State.get { s with boot := b } f = s.get f := rfl

/-! The container of a flash slot. -/

/-- The source that BOOT_STAT shows for flash slot `i`. -/
def slotSource (s : State) (i : Nat) : Nat := if s.isCell then 3 + i else i

/-- What the boot of a flash slot leads to. -/
structure Booted (s : State) (c : List Byte) (src : Nat) : Prop where
  phase : s.phase = .running
  source : s.get F.BOOT_STAT_SRC = src
  pc : s.sup.pc = BitVec.ofNat 32 (imgNum c 0x20 4)

theorem Booted.settle {s : State} {c : List Byte} {src : Nat} (h : s.Booted c src) : s.settle.Booted c src where
  phase := by rw [settle_phase, h.phase]
  source := by rw [settle_get _ (by decide), h.source]
  pc := by rw [settle_sup, h.pc]

theorem jump_booted (s : State) (c : List Byte) {src : Nat} (board : List Byte) (hsrc : src < 8) :
    (s.jump c src board).Booted c src := by
  obtain ⟨hphase, hpc, hsource, -⟩ := jump_effect s c board hsrc
  exact ⟨hphase, hsource, hpc⟩

theorem bootSlot_booted (s : State) {i : Nat} (hi : i < 2) :
    (s.bootSlot i).Booted (s.slotImage i) (s.slotSource i) ∧ (s.bootSlot i).get (rejField i) = 0 := by
  have hsrc : s.slotSource i < 8 := by
    unfold slotSource
    split <;> omega
  obtain ⟨-, -, -, hrej⟩ := jump_effect (s.reject i 0) (s.slotImage i) ((s.slotImage i).drop 0x200 |>.take 512) hsrc
  exact ⟨jump_booted (s.reject i 0) (s.slotImage i) _ hsrc,
    (hrej _ (rejField_addr i)).trans (get_reject_same s i (by decide))⟩

/-- In a state that agrees in role and flash the boot of a slot leads to the same. -/
theorem bootSlot_booted_of_same {s t : State} {i : Nat} (hrole : t.role = s.role) (h : FlashSame s t) (hi : i < 2) :
    (t.bootSlot i).Booted (s.slotImage i) (s.slotSource i) := by
  have hsource : t.slotSource i = s.slotSource i := by rw [slotSource, slotSource, isCell, isCell, hrole]
  rw [← h.slotImage hi, ← hsource]
  exact (bootSlot_booted t hi).1

/-- The check of the slot being loaded, with the state that holds its body. -/
theorem checkSlot_eq {s : State} {i : Nat} (h : s.boot.trying = some i) : s.checkSlot =
    if s.containerWhy (s.slotImage i) s.flashOwner = 0 then
      (s.loadBody (s.slotImage i) (s.containerWhy (s.slotImage i) s.flashOwner)).bootSlot i
    else if (i :: s.boot.tried).contains (1 - i) then
      ((s.loadBody (s.slotImage i) (s.containerWhy (s.slotImage i) s.flashOwner)).reject i
        (s.containerWhy (s.slotImage i) s.flashOwner)).noSlot
    else
      { (s.loadBody (s.slotImage i) (s.containerWhy (s.slotImage i) s.flashOwner)).reject i
          (s.containerWhy (s.slotImage i) s.flashOwner) with
        boot := { s.boot with trying := some (1 - i), tried := i :: s.boot.tried } } := by
  unfold checkSlot
  rw [h]
  dsimp only
  have hboot : (s.loadBody (s.slotImage i) (s.containerWhy (s.slotImage i) s.flashOwner)).boot = s.boot := by
    rw [loadBody_eq]
  simp only [reject, set_boot, hboot]

theorem noSlot_effect (s : State) : s.noSlot.phase = (if s.isCell then s.phase else .recovery) ∧ s.noSlot.boot.trying = none ∧
    ∀ f : Fld, f.addr = R.BOOT_REJ → s.noSlot.get f = s.get f := by
  unfold noSlot
  split
  · exact ⟨rfl, rfl, fun _ _ => rfl⟩
  · refine ⟨rfl, rfl, fun f hf => ?_⟩
    exact (get_set_ne _ _ (by rw [hf]; decide)).trans (get_set_ne _ _ (by rw [hf]; decide))

theorem containerCheck_on {s : State} (hphase : s.phase = .rom) (hown : s.boot.ownerChange = false) :
    (s.phase == .rom && !s.boot.ownerChange) = true := by simp [hphase, hown]

/-- What the other slot's turn leads to: the failure shown, the ROM still running. -/
theorem loadBody_reject (s : State) (i : Nat) :
    ((s.loadBody (s.slotImage i) (s.containerWhy (s.slotImage i) s.flashOwner)).reject i
      (s.containerWhy (s.slotImage i) s.flashOwner)).get (rejField i) = s.containerWhy (s.slotImage i) s.flashOwner :=
  get_reject_same _ i (Nat.lt_of_le_of_lt (containerWhy_le _ _ _) (by decide))

theorem loadBody_phase (s : State) (c : List Byte) (why : Nat) : (s.loadBody c why).phase = s.phase := by rw [loadBody_eq]

theorem loadBody_role (s : State) (c : List Byte) (why : Nat) : (s.loadBody c why).role = s.role := by rw [loadBody_eq]

end State

/-- The container being loaded boots when it passes (R142). -/
theorem yields_containerCheck_boot {s : State} {i : Nat} (hphase : s.phase = .rom) (hown : s.boot.ownerChange = false)
    (htry : s.boot.trying = some i) (hi : i < 2) (hwhy : s.containerWhy (s.slotImage i) s.flashOwner = 0) :
    Yields .containerCheck s fun t => t.get (rejField i) = 0 ∧ t.phase = .running ∧
      t.get F.BOOT_STAT_SRC = (if s.isCell then 3 + i else i) ∧
      t.sup.pc = BitVec.ofNat 32 (imgNum (s.slotImage i) 0x20 4) := by
  refine yields_of_act (exec_containerCheck s) (containerCheck_on hphase hown) ?_
  rw [checkSlot_eq htry, if_pos hwhy]
  have hsame := romSame_loadBody s (s.slotImage i) s.flashOwner
  obtain ⟨hp, hsrc, hpc⟩ := (bootSlot_booted_of_same hsame.1 hsame.flash hi).settle
  exact ⟨(settle_rejField _ i).trans (bootSlot_booted _ hi).2, hp, hsrc, hpc⟩

/-- A failure is recorded, and the other slot is tried once. -/
theorem yields_containerCheck_other {s : State} {i : Nat} (hphase : s.phase = .rom) (hown : s.boot.ownerChange = false)
    (htry : s.boot.trying = some i) (hi : i < 2) (hwhy : s.containerWhy (s.slotImage i) s.flashOwner ≠ 0)
    (hother : (1 - i) ∉ s.boot.tried) : Yields .containerCheck s fun t =>
      t.get (rejField i) = s.containerWhy (s.slotImage i) s.flashOwner ∧ t.phase = .rom ∧
      t.boot.trying = some (1 - i) := by
  refine yields_of_act (exec_containerCheck s) (containerCheck_on hphase hown) ?_
  have hnot : ¬ (i :: s.boot.tried).contains (1 - i) = true := by
    simp only [List.contains_cons, Bool.or_eq_true, beq_iff_eq, List.contains_iff_mem, not_or]
    exact ⟨by omega, hother⟩
  rw [checkSlot_eq htry, if_neg hwhy, if_neg hnot, settle_rejField, settle_phase, settle_boot, get_withBoot]
  have hrej := loadBody_reject s i
  have hrom : ∀ why, ((s.loadBody (s.slotImage i) why).reject i why).phase = .rom := fun why => by
    rw [reject, set_phase, loadBody_phase, hphase]
  generalize s.containerWhy (s.slotImage i) s.flashOwner = why at hrej ⊢
  exact ⟨hrej, hrom why, rfl⟩

/-- When both slots have failed no local image boots. -/
theorem yields_containerCheck_none {s : State} {i : Nat} (hphase : s.phase = .rom) (hown : s.boot.ownerChange = false)
    (htry : s.boot.trying = some i) (hwhy : s.containerWhy (s.slotImage i) s.flashOwner ≠ 0)
    (hother : (1 - i) ∈ s.boot.tried) : Yields .containerCheck s fun t =>
      t.get (rejField i) = s.containerWhy (s.slotImage i) s.flashOwner ∧
      t.phase = (if s.isCell then .rom else .recovery) ∧ t.boot.trying = none := by
  refine yields_of_act (exec_containerCheck s) (containerCheck_on hphase hown) ?_
  have hboth : (i :: s.boot.tried).contains (1 - i) = true := by simp [hother]
  rw [checkSlot_eq htry, if_neg hwhy, if_pos hboth, settle_rejField, settle_phase, settle_boot]
  have hrej := loadBody_reject s i
  have hrole : ∀ why, ((s.loadBody (s.slotImage i) why).reject i why).isCell = s.isCell := fun why => by
    rw [isCell, reject, set_role, loadBody_role, isCell]
  have hrom : ∀ why, ((s.loadBody (s.slotImage i) why).reject i why).phase = .rom := fun why => by
    rw [reject, set_phase, loadBody_phase, hphase]
  generalize s.containerWhy (s.slotImage i) s.flashOwner = why at hrej ⊢
  obtain ⟨hp, hnone, hkeep⟩ := noSlot_effect ((s.loadBody (s.slotImage i) why).reject i why)
  rw [hrole, hrom] at hp
  exact ⟨(hkeep _ (rejField_addr i)).trans hrej, hp, hnone⟩

/-! BOOT_CTL.RETRY (R143). -/

namespace State

/-- What BOOT_REJ shows of a slot whose header has been read. -/
def headerShown (s : State) (i : Nat) : Nat :=
  if s.headerWhy (s.slotHeader i) s.flashOwner = 0 then 15 else s.headerWhy (s.slotHeader i) s.flashOwner

theorem readHeader_eq (s : State) (i : Nat) : s.readHeader i = s.reject i (s.headerShown i) := by
  unfold readHeader headerShown
  split
  next h => rw [if_pos h]
  next h => rw [if_neg h]

theorem headerShown_lt (s : State) (i : Nat) : s.headerShown i < 16 := by
  have := s.headerWhy_le (s.slotHeader i) s.flashOwner
  unfold headerShown
  split <;> omega

theorem RomSame.headerShown {s t : State} (h : RomSame s t) {i : Nat} (hi : i < 2) : t.headerShown i = s.headerShown i := by
  simp only [State.headerShown, h.flash.slotHeader hi, h.flashOwner, h.headerWhy]

theorem romSame_reject (s : State) (i why : Nat) : RomSame s (s.reject i why) := (RomSame.refl s).parts

/-- BOOT_REJ before a header is read: no slot tried yet. -/
def rejCleared (s : State) : State := (s.reject 0 15).reject 1 15

theorem romSame_rejCleared (s : State) : RomSame s s.rejCleared := (romSame_reject s 0 15).trans (romSame_reject _ 1 15)

/-- With an identity and a flash, the ROM reads both headers and tries a slot. -/
theorem chooseSource_eq {s : State} (hid : s.idRecord.isSome = true) (hflash : s.boot.flash = true) :
    ∃ i, s.chooseSource =
      { ((s.rejCleared.reject 0 (s.headerShown 0)).reject 1 (s.headerShown 1)).set F.BOOT_NEXT_ONCE 0 with
        boot := { s.boot with trying := some i, tried := [] } } := by
  have hclear := romSame_rejCleared s
  have hidOk : ¬ s.rejCleared.idFailed = true := by
    rw [idFailed, hclear.idRecord, Option.isNone_iff_eq_none]
    exact Option.isSome_iff_ne_none.mp hid
  have hfl : ¬ (!s.rejCleared.boot.flash) = true := by simp [rejCleared, reject, hflash]
  have hread : (s.rejCleared.readHeader 0).readHeader 1 =
      (s.rejCleared.reject 0 (s.headerShown 0)).reject 1 (s.headerShown 1) := by
    rw [readHeader_eq, readHeader_eq, hclear.headerShown (by decide),
      (hclear.trans (romSame_reject _ 0 _)).headerShown (by decide)]
  unfold chooseSource
  rw [← rejCleared]
  dsimp only
  rw [if_neg hidOk, if_neg hfl, hread]
  exact ⟨_, rfl⟩

theorem chooseSource_effect {s : State} (hid : s.idRecord.isSome = true) (hflash : s.boot.flash = true) :
    s.chooseSource.boot.trying.isSome = true ∧ s.chooseSource.phase = s.phase ∧
    s.chooseSource.get F.BOOT_REJ_REJA = s.headerShown 0 ∧ s.chooseSource.get F.BOOT_REJ_REJB = s.headerShown 1 := by
  obtain ⟨i, h⟩ := chooseSource_eq hid hflash
  have hget (f : Fld) (hf : f.addr = R.BOOT_REJ) : s.chooseSource.get f =
      ((s.rejCleared.reject 0 (s.headerShown 0)).reject 1 (s.headerShown 1)).get f := by
    rw [h, get_withBoot, get_set_ne _ _ (by rw [hf]; decide)]
  refine ⟨by rw [h]; rfl, by rw [h]; simp [reject, rejCleared], ?_, ?_⟩
  · rw [hget _ rfl]
    exact (get_set_other _ _ (by decide)).trans (get_reject_same s.rejCleared 0 (headerShown_lt s 0))
  · rw [hget _ rfl]
    exact get_reject_same _ 1 (headerShown_lt s 1)

/-- A reset keeps OTP and flash. -/
theorem keptMem_of_rom {a : Nat} (h : 0x50000000 ≤ a) (hlt : a < 0x61000000) : keptMem a = true := by
  simp [keptMem, h, hlt]

/-- A hub or referee with an identity record starts its ROM: OTP and flash as they were, the source chosen. -/
theorem romStart_of_record {s : State} (n : Nat) (hcell : s.isCell = false) (hid : s.idRecord.isSome = true) :
    ∃ u, s.romStart n = u.chooseSource ∧ RomSame s u ∧ u.boot = s.boot ∧ u.phase = .rom := by
  let v : State := { s with
    phase := .rom
    mem := kvKeep keptMem s.mem, memErr := kvKeep (fun w => keptMem (8 * w)) s.memErr
    sup := { halted := s.sup.halted, wdtEnd := s.sup.wdtEnd }
    host := { s.host with bus := if s.isCell && !s.boot.flash then .released else .master } }
  have hv : RomSame s v := ⟨rfl, fun a ha hlt => byte_kvKeep_of rfl (keptMem_of_rom ha hlt)⟩
  have hidv : v.idRecord.isSome = true := by rw [hv.idRecord, hid]
  have hstart : s.romStart n =
      (if (v.identity n).isCell then (v.identity n).cellUp else (v.identity n).set F.CLK_SRC_XOSC_EN 1).chooseSource := rfl
  have hidentity : v.identity n = v ∨ v.identity n = v.set F.SEC_ID_STATE 0 := by
    unfold identity
    rw [if_pos hidv]
    exact ite_eq_or_eq ..
  refine ⟨(v.identity n).set F.CLK_SRC_XOSC_EN 1, ?_, ?_⟩
  · have hnot : ¬ (v.identity n).isCell = true := by
      have hvc : v.isCell = false := hcell
      rcases hidentity with h | h <;> rw [h]
      · simp [hvc]
      · rw [isCell, set_role, ← isCell, hvc]
        decide
    rw [hstart, if_neg hnot]
  · rcases hidentity with h | h <;> rw [h]
    · exact ⟨hv.parts, rfl, rfl⟩
    · exact ⟨hv.parts, rfl, rfl⟩

end State

theorem yields_bootRetry {s : State} (hphase : s.phase = .recovery) (hcell : s.isCell = false)
    (hflash : s.boot.flash = true) (hid : s.idRecord.isSome = true) : Yields .bootRetry s fun t =>
      t.phase = .rom ∧ t.boot.trying.isSome = true ∧ t.get F.BOOT_REJ_REJA = s.headerShown 0 ∧
      t.get F.BOOT_REJ_REJB = s.headerShown 1 ∧ t.reg R.SYS_RST_CAUSE = s.reg R.SYS_RST_CAUSE := by
  refine yields_of_act (exec_bootRetry s) (by simp [hphase]) ?_
  let v : State := { s with boot := { s.boot with tried := [] } }
  have hv : RomSame s v := (RomSame.refl s).parts
  have hretry : s.bootRetry = v.romStart 3 := if_pos hphase
  obtain ⟨u, hu, hsame, hboot, hrom⟩ := romStart_of_record (s := v) 3 hcell (by rw [hv.idRecord, hid])
  have hsu := hv.trans hsame
  have hcause : (v.romStart 3).reg R.SYS_RST_CAUSE = v.reg R.SYS_RST_CAUSE := (romFrame_romStart v 3).reg (by decide)
  obtain ⟨htry, hp, ha, hb⟩ := chooseSource_effect (s := u) (by rw [hsu.idRecord, hid]) (by rw [hboot]; exact hflash)
  rw [hretry, settle_phase, settle_boot, settle_get _ (by decide), settle_get _ (by decide), settle_reg _ (by decide), hcause,
    hu, ha, hb, hp, hrom, hsu.headerShown (by decide), hsu.headerShown (by decide)]
  exact ⟨rfl, htry, rfl, rfl, rfl⟩

/-! The container of the tree (R174, R292). -/

namespace State

theorem treeOn {s : State} (hphase : s.phase = .rom) (hcell : s.isCell = true) (htree : s.boot.treeBoot = true)
    (hwhy : s.boot.treeWhy = 0) (hown : s.boot.ownerChange = false) (hid : s.idFailed = false) :
    (s.phase == .rom && s.isCell && s.boot.treeBoot && s.boot.treeWhy == 0 && !s.boot.ownerChange && !s.idFailed) = true := by
  simp [hphase, hcell, htree, hwhy, hown, hid]

end State

/-- A whole container from uplink 0 is checked. -/
theorem yields_treeContainerComplete {s : State} {c : List Byte} {P : State → Prop} (hphase : s.phase = .rom)
    (hcell : s.isCell = true) (htree : s.boot.treeBoot = true) (hwhy : s.boot.treeWhy = 0) (hown : s.boot.ownerChange = false)
    (hid : s.idFailed = false) (hc : s.treeImage 0 = some c) (hP : P (s.treeCheck 0 c).settle) :
    Yields .treeContainerComplete s P := by
  refine yields_of_act (exec_treeContainerComplete s) (treeOn hphase hcell htree hwhy hown hid) ?_
  simp only [hc]
  exact hP

theorem treeCheck_fail {s : State} {c : List Byte} {u : Nat} (h : s.containerWhy c (s.treeKey u) ≠ 0) :
    (s.treeCheck u c).phase = s.phase ∧ (s.treeCheck u c).boot.treeWhy = s.containerWhy c (s.treeKey u) := by
  unfold treeCheck
  rw [if_neg h]
  exact ⟨loadBody_phase s c _, rfl⟩

theorem treeCheck_pass {s : State} {c : List Byte} {u : Nat} (h : s.containerWhy c (s.treeKey u) = 0) :
    (s.treeCheck u c).Booted c 2 := by
  unfold treeCheck
  rw [if_pos h]
  exact jump_booted _ c [] (by decide)

/-! First ownership (R173). -/

theorem length_beBytes (k n : Nat) : (beBytes k n).length = k := by
  have h : (leBytes k n).length = k := by
    induction k generalizing n with
    | zero => rfl
    | succ k ih => rw [leBytes, List.length_cons, ih]
  rw [beBytes, List.length_reverse, h]

theorem length_shaBlocks_le (k : Nat) (h : List Nat) (bs : List Byte) : (Sha.blocks k h bs).length ≤ h.length := by
  induction k generalizing h bs with
  | zero => exact Nat.le_refl _
  | succ k ih =>
    have hblock : (Sha.block h (bs.take 64)).length ≤ h.length := by
      unfold Sha.block
      rw [List.length_zipWith]
      exact Nat.min_le_left _ _
    exact (ih _ _).trans hblock

/-- A hash has at most 32 bytes. -/
theorem length_sha256_le (m : List Byte) : (sha256 m).length ≤ 32 := by
  have hwords := length_shaBlocks_le
    ((m ++ [0x80] ++ List.replicate ((119 - m.length % 64) % 64) 0 ++ beBytes 8 (8 * m.length)).length / 64)
    (Sha.eightWords Sha.start)
    (m ++ [0x80] ++ List.replicate ((119 - m.length % 64) % 64) 0 ++ beBytes 8 (8 * m.length))
  have height : (Sha.eightWords Sha.start).length = 8 := by simp [Sha.eightWords]
  unfold sha256
  dsimp only
  rw [List.length_flatMap, List.map_congr_left (g := fun _ => 4) fun x _ => length_beBytes 4 x, List.map_const', List.sum_replicate,
    smul_eq_mul]
  omega

namespace State

/-- OTP bits are programmed where they are said to be. -/
theorem byte_program_out (s : State) (o : Nat) (bs : List Byte) {a : Nat} (h : otpBase + o + bs.length ≤ a) :
    (s.program o bs).byte a = s.byte a := by
  have hfold (l : List (Byte × Nat)) (hl : ∀ x ∈ l, otpBase + o + x.2 < a) (u : State) :
      (l.foldl (fun t x => t.setByte (otpBase + o + x.2) (t.byte (otpBase + o + x.2) ||| x.1)) u).byte a = u.byte a := by
    induction l generalizing u with
    | nil => rfl
    | cons x l ih =>
      have hx := hl x List.mem_cons_self
      rw [List.foldl_cons, ih (fun y hy => hl y (List.mem_cons_of_mem x hy)), byte_setByte_ne _ _ (by omega)]
  refine hfold _ (fun x hx => ?_) s
  have := List.snd_lt_of_mem_zipIdx hx
  omega

theorem program_role (s : State) (o : Nat) (bs : List Byte) : (s.program o bs).role = s.role := by rw [program_eq]

/-- Taking an owner writes OTP alone. -/
theorem programOwner_keeps (s : State) (m : List Byte) :
    (s.programOwner (sha256 m)).role = s.role ∧ FlashSame s (s.programOwner (sha256 m)) := by
  unfold programOwner
  split
  next i hi =>
    have hlt : i < 8 := by simpa using firstFrom_lt hi
    have hlen := length_sha256_le m
    refine ⟨by rw [program_role, program_role], fun a ha _ => ?_⟩
    rw [byte_program_out, byte_program_out]
    · unfold otpBase
      omega
    · have hmark : marker.length = 4 := by decide
      unfold otpBase
      omega
  · exact ⟨rfl, .refl s⟩

/-- A slot whose owner test passes boots. -/
theorem ownerTry_pass {s : State} {i : Nat} (next : State → State) (hi : i < 2) (h : s.ownerTest i = some 0) :
    (s.ownerTry i next).Booted (s.slotImage i) (s.slotSource i) := by
  have hwhy : s.containerWhy (s.slotImage i) (some (keyOf (s.keyRecord i))) = 0 := by
    unfold ownerTest at h
    split at h
    · exact Option.some.inj h
    · cases h
  have hload := romSame_loadBody s (s.slotImage i) (some (keyOf (s.keyRecord i)))
  rw [hwhy] at hload
  obtain ⟨hrole, hflash⟩ := programOwner_keeps (s.loadBody (s.slotImage i) 0) (keyOf ((s.loadBody (s.slotImage i) 0).keyRecord i))
  unfold ownerTry
  rw [h]
  dsimp only
  rw [if_pos rfl]
  exact bootSlot_booted_of_same (hrole.trans hload.1) (hload.flash.trans hflash) hi

/-- A slot whose owner test fails gives way to the next, which finds role, OTP and flash as they were. -/
theorem ownerTry_fail {s : State} {i : Nat} (next : State → State) (h : s.ownerTest i ≠ some 0) :
    ∃ u, s.ownerTry i next = next u ∧ RomSame s u := by
  unfold ownerTry
  cases ht : s.ownerTest i with
  | none => exact ⟨s, rfl, .refl s⟩
  | some why =>
    have hne : why ≠ 0 := fun h0 => h (by rw [ht, h0])
    have hwhy : s.containerWhy (s.slotImage i) (some (keyOf (s.keyRecord i))) = why := by
      unfold ownerTest at ht
      split at ht
      · exact Option.some.inj ht
      · cases ht
    have hload := romSame_loadBody s (s.slotImage i) (some (keyOf (s.keyRecord i)))
    rw [hwhy] at hload
    dsimp only
    rw [if_neg hne]
    exact ⟨_, rfl, hload.trans (romSame_reject _ i why)⟩

/-- First ownership runs the first of the two slots whose owner test passes. -/
theorem takeOwner_booted {s : State} {i : Nat} (hi : i < 2) (h : s.ownerTest i = some 0)
    (hfirst : i = 0 ∨ s.ownerTest 0 ≠ some 0) : s.takeOwner.Booted (s.slotImage i) (s.slotSource i) := by
  by_cases h0 : i = 0
  · rw [h0] at h ⊢
    exact ownerTry_pass _ (by decide) h
  · have h1 : i = 1 := by omega
    rw [h1] at h ⊢
    obtain ⟨u, hu, hsame⟩ := ownerTry_fail (fun s => s.ownerTry 1 fun s => s) (hfirst.resolve_left h0)
    have hsource : u.slotSource 1 = s.slotSource 1 := by rw [slotSource, slotSource, isCell, isCell, hsame.1]
    rw [takeOwner, hu, ← hsame.flash.slotImage (by decide), ← hsource]
    exact ownerTry_pass _ (by decide) (by rw [hsame.ownerTest (by decide), h])

end State

theorem yields_firstOwnership {s : State} {i : Nat} (hphase : s.phase = .recovery ∨ (s.phase = .rom ∧ s.isCell = true))
    (hflash : s.boot.flash = true) (hid : s.idFailed = false) (hown : s.boot.ownerChange = false)
    (hactive : s.activeSlot = none) (hunused : s.unusedSlot.isSome = true) (hopen : s.sec.presOpen = true) (hi : i < 2)
    (htest : s.ownerTest i = some 0) (hfirst : i = 0 ∨ s.ownerTest 0 ≠ some 0) : Yields .firstOwnership s fun t =>
      t.phase = .running ∧ t.get F.BOOT_STAT_SRC = (if s.isCell then 3 + i else i) ∧
      t.sup.pc = BitVec.ofNat 32 (imgNum (s.slotImage i) 0x20 4) := by
  refine yields_of_act (exec_firstOwnership s) ?_ ?_
  · have hp : (s.phase == .recovery || (s.phase == .rom && s.isCell)) = true := by
      rcases hphase with h | ⟨h, hc⟩
      · simp [h]
      · simp [h, hc]
    simp [hp, hflash, hid, hown, hactive, hunused, hopen]
  · obtain ⟨hp, hsrc, hpc⟩ := (takeOwner_booted hi htest hfirst).settle
    exact ⟨hp, hsrc, hpc⟩

/-! The owner change (R175, R176). -/

/-- The entry of an owner change marks it. -/
theorem exec_ownerChangeEntry_of_pressed {s : State} (hs : s.Settled) (hrom : s.inRom = true) (hheld : s.boot.presHeld = true)
    (hpres : s.pins.presence = false) (hseal : s.sec.sealOpen = some true) :
    exec .ownerChangeEntry s = .next { s with boot := { s.boot with ownerChange := true } } := by
  have hset : ({ s with boot := { s.boot with ownerChange := true } } : State).Settled :=
    hs.withHidden s.sup s.resp { s.boot with ownerChange := true }
  rw [exec_ownerChangeEntry, execOwnerChangeEntry, act_eq_settle _ (by simp [hrom, hheld, hpres, hseal])]
  exact congrArg Host.Outcome.next hset

namespace State

/-- Four bytes of ones leave a field of OTP programmed. -/
theorem programmed_program_ones (s : State) (o : Nat) : (s.program o (leBytes 4 0xFFFFFFFF)).programmed o 4 = true := by
  have hones : leBytes 4 0xFFFFFFFF = [BitVec.allOnes 8, BitVec.allOnes 8, BitVec.allOnes 8, BitVec.allOnes 8] := by decide
  have hfirst : (s.program o (leBytes 4 0xFFFFFFFF)).byte (otpBase + o) = BitVec.allOnes 8 := by
    rw [hones]
    simp only [program, List.zipIdx_cons, List.zipIdx_nil, List.foldl_cons, List.foldl_nil]
    rw [byte_setByte_ne _ _ (by omega), byte_setByte_ne _ _ (by omega), byte_setByte_ne _ _ (by omega), Nat.add_zero,
      byte_setByte_same, BitVec.or_allOnes]
  rw [programmed, bytes, List.any_cons, hfirst]
  rfl

/-- The active owner slot, if there is one, is revoked. -/
theorem revokeOwner_revokes (s : State) : s.activeSlot.all s.revokeOwner.ownerRevoked = true := by
  unfold revokeOwner
  split
  next i hi =>
    rw [hi]
    exact programmed_program_ones s _
  next h => rw [h]; rfl

theorem revokeOwner_eq (s : State) : s.revokeOwner = { s with mem := s.revokeOwner.mem } := by
  unfold revokeOwner
  split
  · exact program_eq _ _ _
  · rfl

/-- A state that agrees in OTP has revoked what the other has. -/
theorem RomSame.revoked {s t : State} (h : RomSame s t) {o : Option Nat} (ho : ∀ i ∈ o, i < 8)
    (hr : o.all s.ownerRevoked = true) : o.all t.ownerRevoked = true := by
  cases o with
  | none => rfl
  | some i =>
    have hi := ho i rfl
    rw [Option.all_some] at hr ⊢
    rw [ownerRevoked, h.programmed (by omega)]
    exact hr

end State

theorem romSame_settle (s : State) : RomSame s s.settle := ⟨settle_role s, fun a _ _ => settle_byte s a⟩

/-- The log entry of a revocation reaches neither OTP nor flash, nor the presence window. -/
theorem romSame_errArrive (s : State) (cls src req addr : Nat) :
    RomSame s (s.errArrive cls src req addr) ∧ (s.errArrive cls src req addr).sec = s.sec := by
  obtain ⟨hparts, -⟩ := frame_errArrive s cls src req addr
  exact ⟨⟨hparts .role (by decide), fun a ha _ => hparts .mem (by decide) a (by omega)⟩, hparts .sec (by decide)⟩

/-- The presence window opens; OTP, flash and the judgement of the seal stay. -/
theorem presWindow_effect (s : State) :
    s.presWindow.boot = s.boot ∧ s.presWindow.sec.presOpen = true ∧ s.presWindow.sec.sealOpen = s.sec.sealOpen ∧
    RomSame s s.presWindow := by
  unfold presWindow
  exact ⟨event_boot .., rfl, rfl, (RomSame.refl s).parts (event_role ..) (event_mem ..)⟩

theorem yields_ownerRevoke {s : State} (hrom : s.inRom = true) (hchange : s.boot.ownerChange = true)
    (hpres : s.pins.presence = false) (hseal : s.sec.sealOpen = some true) : Yields .ownerRevoke s fun t =>
      t.boot.ownerChange = false ∧ t.sec.presOpen = true ∧ t.sec.sealOpen = some true ∧
      s.activeSlot.all t.ownerRevoked = true := by
  refine yields_of_act (exec_ownerRevoke s) (by simp [hrom, hchange, hpres, hseal]) ?_
  let u : State := { s.revokeOwner with freeCtr := s.revokeOwner.freeCtr + 1 }
  have hu : RomSame s.revokeOwner u := (RomSame.refl _).parts
  have husec : u.sec = s.sec := by
    change s.revokeOwner.sec = s.sec
    rw [revokeOwner_eq]
  obtain ⟨herr, hsec⟩ := romSame_errArrive u 0 (Config.freeNat s.revokeOwner.freeCtr % 256) 0xFF 0
  let v : State := u.errArrive 0 (Config.freeNat s.revokeOwner.freeCtr % 256) 0xFF 0
  let w : State := { v with boot := { v.boot with ownerChange := false } }
  have hw : RomSame v w := (RomSame.refl _).parts
  obtain ⟨hboot, hopen, hseals, hwin⟩ := presWindow_effect w
  have hsame : RomSame s.revokeOwner w.presWindow.settle := (((hu.trans herr).trans hw).trans hwin).trans (romSame_settle _)
  change w.presWindow.settle.boot.ownerChange = false ∧ w.presWindow.settle.sec.presOpen = true ∧
    w.presWindow.settle.sec.sealOpen = some true ∧ s.activeSlot.all w.presWindow.settle.ownerRevoked = true
  refine ⟨by rw [settle_boot, hboot], by rw [settle_sec, hopen], ?_, hsame.revoked (fun i hi => ?_) (revokeOwner_revokes s)⟩
  · rw [settle_sec, hseals]
    change v.sec.sealOpen = some true
    rw [hsec, husec, hseal]
  · simpa using firstFrom_lt hi

/-- Settles O4: the ROM boots what its checks accept (`bootSlot_booted`, `jump_booted`), and shows and keeps what they refuse;
the load into SRAM reaches neither OTP nor flash (`romSame_loadBody`). -/
theorem romCommands : Obligations.RomCommands := by
  refine ⟨fun s i hp ho ht hi hw => yields_containerCheck_boot hp ho ht hi hw,
    fun s i hp ho ht hi hw hn => yields_containerCheck_other hp ho ht hi hw hn,
    fun s i hp ho ht _ hw hn => yields_containerCheck_none hp ho ht hw hn,
    fun s hp hc hf hid => yields_bootRetry hp hc hf hid, fun s c hp hc htree hwhy ho hid himg hfail => ?_,
    fun s c hp hc htree hwhy ho hid himg hpass => ?_,
    fun s i hp hf hid ho ha hu hopen hi ht hfirst => yields_firstOwnership hp hf hid ho ha hu hopen hi ht hfirst,
    fun s hs hrom hheld hpres hseal => exec_ownerChangeEntry_of_pressed hs hrom hheld hpres hseal,
    fun s hrom hchange hpres hseal => yields_ownerRevoke hrom hchange hpres hseal⟩
  · refine yields_treeContainerComplete hp hc htree hwhy ho hid himg ?_
    obtain ⟨hphase, htw⟩ := treeCheck_fail hfail
    exact ⟨by rw [settle_phase, hphase, hp], by rw [settle_boot, htw]⟩
  · refine yields_treeContainerComplete hp hc htree hwhy ho hid himg ?_
    obtain ⟨hphase, hsrc, hpc⟩ := (treeCheck_pass hpass).settle
    exact ⟨hphase, hsrc, hpc⟩

end Sys2Proof.Machine
end

section
/-! PROOFS. The permanent bypass of a cell (R477): the predicate and the rules of the control structures. Each function of
the model that takes a state has one rule, `Bypassed.f`, whose proof follows the function's text: it keeps the bypass. -/

namespace Sys2Proof.Machine

/-- The part is permanently bypassed (R477). -/
def State.Bypassed (s : State) : Prop := s.gate.pbyp = true

namespace State.Bypassed

/-- An update of other parts than the gate block. The fields stand one by one, so that unification with a record update
finds `x`. -/
theorem upd {x : State}
    {role' phase' grade' pins' regs' act' mem' resp' host' boot' sup' clk' sec' err' freeCtr' uart' now' elapsed'
    time' lanes' rx' ports' berths' rank' eng' comp' mod' cmod' safe' adc' twin' refLinks' refPairs' sch' memErr'
    arb' bb' mon' recd' stn' pending'} (h : x.Bypassed) :
    Bypassed ⟨role', phase', grade', pins', regs', act', mem', resp', host', boot', sup', clk', sec', err', freeCtr', uart',
      now', elapsed', time', lanes', rx', ports', berths', rank', eng', comp', mod', cmod', x.gate, safe', adc',
      twin', refLinks', refPairs', sch', memErr', arb', bb', mon', recd', stn', pending'⟩ := h

/-- An update of the gate block that leaves the bypass as it is, stated as `upd` is. -/
theorem updGate {x : State}
    {role' phase' grade' pins' regs' act' mem' resp' host' boot' sup' clk' sec' err' freeCtr' uart' now' elapsed'
    time' lanes' rx' ports' berths' rank' eng' comp' mod' cmod' safe' adc' twin' refLinks' refPairs' sch' memErr'
    arb' bb' mon' recd' stn' pending' gate_state gate_legA gate_legB gate_riseA gate_riseB gate_blocked gate_nextUpper gate_lastAt gate_falls
    gate_rises gate_fallsAt gate_risesAt gate_latch gate_live gate_safeOn gate_stops gate_trip0At gate_thyLeft gate_gate4 gate_gate5 gate_gate5Run gate_taps
    gate_flags gate_trimEnd gate_dropped gate_hist gate_tev gate_tevNext gate_tevEnd} (h : x.Bypassed) :
    Bypassed ⟨role', phase', grade', pins', regs', act', mem', resp', host', boot', sup', clk', sec', err', freeCtr', uart',
      now', elapsed', time', lanes', rx', ports', berths', rank', eng', comp', mod', cmod', ⟨gate_state, gate_legA, gate_legB,
      gate_riseA, gate_riseB, gate_blocked, gate_nextUpper, gate_lastAt, gate_falls, gate_rises, gate_fallsAt, gate_risesAt, gate_latch, gate_live,
      gate_safeOn, x.gate.pbyp, gate_stops, gate_trip0At, gate_thyLeft, gate_gate4, gate_gate5, gate_gate5Run, gate_taps, gate_flags, gate_trimEnd,
      gate_dropped, gate_hist, gate_tev, gate_tevNext, gate_tevEnd⟩, safe', adc', twin', refLinks', refPairs', sch', memErr', arb',
      bb', mon', recd', stn', pending'⟩ := h

/-! Control structures. -/

theorem ite {c : Prop} [Decidable c] {s t : State} (hs : s.Bypassed) (ht : t.Bypassed) :
    Bypassed (if c then s else t) := iteInduction (fun _ => hs) fun _ => ht

theorem iteSnd {α : Type} {c : Prop} [Decidable c] {p q : α × State} (hp : p.2.Bypassed) (hq : q.2.Bypassed) :
    Bypassed (if c then p else q).2 :=
  iteInduction (motive := fun r : α × State => r.2.Bypassed) (fun _ => hp) fun _ => hq

theorem iteSnd2 {α β : Type} {c : Prop} [Decidable c] {p q : α × β × State} (hp : p.2.2.Bypassed)
    (hq : q.2.2.Bypassed) : Bypassed (if c then p else q).2.2 :=
  iteInduction (motive := fun r : α × β × State => r.2.2.Bypassed) (fun _ => hp) fun _ => hq

theorem iteSnd3 {α β γ : Type} {c : Prop} [Decidable c] {p q : α × β × γ × State} (hp : p.2.2.2.Bypassed)
    (hq : q.2.2.2.Bypassed) : Bypassed (if c then p else q).2.2.2 :=
  iteInduction (motive := fun r : α × β × γ × State => r.2.2.2.Bypassed) (fun _ => hp) fun _ => hq

theorem pair {α : Type} {a : α} {t : State} (h : t.Bypassed) : (a, t).2.Bypassed := h

theorem ofSnd {α : Type} {p : α × State} {a : α} {t : State} (e : p = (a, t)) (h : p.2.Bypassed) :
    t.Bypassed := by
  subst e
  exact h

theorem ofSnd2 {α β : Type} {p : α × β × State} {a : α} {b : β} {t : State} (e : p = (a, b, t))
    (h : p.2.2.Bypassed) : t.Bypassed := by
  subst e
  exact h

theorem when {s : State} {c : Bool} {f : State → State} (h : s.Bypassed) (hf : s.Bypassed → (f s).Bypassed) :
    (s.when c f).Bypassed := .ite (hf h) h

theorem foldl {α : Type} {f : State → α → State} {l : List α} {s : State} (h : s.Bypassed)
    (hf : ∀ t x, t.Bypassed → (f t x).Bypassed) : (l.foldl f s).Bypassed :=
  List.foldlRecOn l f h fun t ht x _ => hf t x ht

theorem foldlSnd {α β : Type} {f : β × State → α → β × State} {l : List α} {p : β × State} (h : p.2.Bypassed)
    (hf : ∀ p x, p.2.Bypassed → (f p x).2.Bypassed) : (l.foldl f p).2.Bypassed :=
  List.foldlRecOn (motive := fun r : β × State => r.2.Bypassed) l f h fun t ht x _ => hf t x ht

theorem foldlSnd2 {α β γ : Type} {f : β × γ × State → α → β × γ × State} {l : List α} {p : β × γ × State}
    (h : p.2.2.Bypassed) (hf : ∀ p x, p.2.2.Bypassed → (f p x).2.2.Bypassed) : (l.foldl f p).2.2.Bypassed :=
  List.foldlRecOn (motive := fun r : β × γ × State => r.2.2.Bypassed) l f h fun t ht x _ => hf t x ht

/-- What holds at the start and is kept by every round holds at the end. -/
theorem forUpTo_of {σ : Type} {P : σ → Prop} {f : Nat → σ → σ} {k : Nat} {x : σ} (h : P x)
    (hf : ∀ n x, P x → P (f n x)) : P (Machine.forUpTo f k x) := by
  induction k with
  | zero => exact h
  | succ k ih => exact hf _ _ ih

theorem forUpTo {f : Nat → State → State} {k : Nat} {s : State} (h : s.Bypassed)
    (hf : ∀ n t, t.Bypassed → (f n t).Bypassed) : (Machine.forUpTo f k s).Bypassed := forUpTo_of h hf

theorem forUpToSnd {β : Type} {f : Nat → β × State → β × State} {k : Nat} {p : β × State} (h : p.2.Bypassed)
    (hf : ∀ n p, p.2.Bypassed → (f n p).2.Bypassed) : (Machine.forUpTo f k p).2.Bypassed :=
  forUpTo_of (P := fun r : β × State => r.2.Bypassed) h hf

theorem forUpToSnd2 {β γ : Type} {f : Nat → β × γ × State → β × γ × State} {k : Nat} {p : β × γ × State}
    (h : p.2.2.Bypassed) (hf : ∀ n p, p.2.2.Bypassed → (f n p).2.2.Bypassed) : (Machine.forUpTo f k p).2.2.Bypassed :=
  forUpTo_of (P := fun r : β × γ × State => r.2.2.Bypassed) h hf

theorem setBytes {s : State} {a bs} (h : s.Bypassed) : (s.setBytes a bs).Bypassed := by
  rw [setBytes_eq]
  exact h

theorem permBypass {s : State} (h : s.Bypassed) : s.permBypass.Bypassed := by
  unfold State.permBypass
  rw [if_pos (show s.gate.pbyp = true from h)]
  exact h

theorem unlessStopped {s : State} {f : State → State} (h : s.Bypassed) (hf : s.Bypassed → (f s).Bypassed) :
    (s.unlessStopped f).Bypassed := .ite h (hf h)

end State.Bypassed

end Sys2Proof.Machine
end

section
/-! PROOFS. The permanent bypass (R477) through what all pages share, clocks, lanes and the gate block:
one rule per function of the model, in the order of the model. -/

namespace Sys2Proof.Machine.State.Bypassed

variable {s : State}

/-! The permanent bypass: registers, events, the error log and the other shared operations. -/

theorem setReg {a v} (h : s.Bypassed) : (s.setReg a v).Bypassed := .upd h
theorem set {f n} (h : s.Bypassed) : (s.set f n).Bypassed := .setReg h
theorem bump {f k} (h : s.Bypassed) : (s.bump f k).Bypassed := .set h
theorem count {f k} (h : s.Bypassed) : (s.count f k).Bypassed := .set h
theorem occur {pg bit} (h : s.Bypassed) : (s.occur pg bit).Bypassed := .upd h
theorem event {pg bit} (h : s.Bypassed) : (s.event pg bit).Bypassed := .setReg <| .ite (.occur h) h
theorem free (h : s.Bypassed) : s.free.2.Bypassed := .upd h
theorem setByte {a b} (h : s.Bypassed) : (s.setByte a b).Bypassed := .upd h
theorem setNum {a n v} (h : s.Bypassed) : (s.setNum a n v).Bypassed := .setBytes h

theorem nmiEnter {l cause} (h : s.Bypassed) : (s.nmiEnter l cause).Bypassed :=
  .upd <| .set <| .setReg <| .setReg <| .setReg h

theorem nmi {cause} (h : s.Bypassed) : (s.nmi cause).Bypassed := by
  unfold State.nmi
  extract_lets s₁
  have h₁ : s₁.Bypassed := .set h
  exact .ite (.nmiEnter h₁) <| .ite (.nmiEnter h₁) <| .set h₁

theorem bbWrite {type sub detail} (h : s.Bypassed) : (s.bbWrite type sub detail).Bypassed := .ite (by
        extract_lets _ _ _ s₁ s₂ _ s₃ s₄ s₅
        have h₁ : s₁.Bypassed := .setBytes h
        have h₂ : s₂.Bypassed := .count h₁
        have h₃ : s₃.Bypassed := .upd h₂
        have h₄ : s₄.Bypassed := .set <| .set h₃
        have h₅ : s₅.Bypassed := .event h₄
        split
        · exact .ite (.upd h₅) <| .upd h₃
        · exact h₃) h

theorem bbFreeze {why} (h : s.Bypassed) : (s.bbFreeze why).Bypassed :=
  .ite (.ite (.event <| .set <| .set h) <| .upd h) h

theorem health {c} (h : s.Bypassed) : (s.health c).Bypassed := .when h .set
theorem ltAdd {i n} (h : s.Bypassed) : (s.ltAdd i n).Bypassed := .set <| .setReg h
theorem errLose {cls} (h : s.Bypassed) : (s.errLose cls).Bypassed := .event <| .bump h

theorem errStore {e} (h : s.Bypassed) : (s.errStore e).Bypassed := by
  unfold State.errStore
  dsimp only
  split
  · exact .ite (.upd h) <| .ite (.upd h) <| .ite (.upd <| .errLose h) <| .errLose h
  · exact .upd h

theorem errSignal {cls own} (h : s.Bypassed) : (s.errSignal cls own).Bypassed := .upd <| by
      split
      · exact .nmi h
      · exact .ite (.event h) <| .nmi h

theorem errPend {cls} (h : s.Bypassed) : (s.errPend cls).Bypassed := .upd h

theorem errHandle {cls own} (h : s.Bypassed) : (s.errHandle cls own).Bypassed :=
  .ite (.errPend h) <| .ite (.errSignal h) <| by
      dsimp only
      split
      · exact .nmi <| .bump <| .errPend h
      · exact .bump <| .errPend h

theorem errArrive {cls src req addr} (h : s.Bypassed) : (s.errArrive cls src req addr).Bypassed :=
  .errHandle <| .when (.when (.errStore <| .bump h) fun h' => .bbFreeze <| .bbWrite <| .health h') .updGate

/-! The permanent bypass: keys and identities (06_presence_security.md). -/

theorem program {o bs} (h : s.Bypassed) : (s.program o bs).Bypassed := .foldl h fun _ _ h' => .setByte h'

theorem programOwner {hash} (h : s.Bypassed) : (s.programOwner hash).Bypassed := by
  unfold State.programOwner
  split
  · exact .program <| .program h
  · exact h

theorem revokeOwner (h : s.Bypassed) : s.revokeOwner.Bypassed := by
  unfold State.revokeOwner
  split
  · exact .program h
  · exact h

theorem addAnchor {i} (h : s.Bypassed) : (s.addAnchor i).Bypassed := .ite h <| by
      split
      · exact .program <| .program h
      · exact .event h

theorem peerRefused (h : s.Bypassed) : s.peerRefused.Bypassed := .bump h
theorem drawScalar (h : s.Bypassed) : s.drawScalar.2.Bypassed := .free h
theorem kxOwn {d signed} (h : s.Bypassed) : (s.kxOwn d signed).2.Bypassed := .drawScalar h

/-! The permanent bypass: the monitor units and the lifetime counters (21_recorder_monitors.md). -/

theorem monUnit {src f j} (h : s.Bypassed) : (s.monUnit src f j).Bypassed := .ite (by
        split
        · exact .upd h
        · exact h) h

theorem monitor {src f} (h : s.Bypassed) : (s.monitor src f).Bypassed := .forUpTo h fun _ _ h' => .monUnit h'
theorem monitorSel {src sel v} (h : s.Bypassed) : (s.monitorSel src sel v).Bypassed := .monitor h
theorem monClear {j} (h : s.Bypassed) : (s.monClear j).Bypassed := .upd h

theorem monSnap {p i clr} (h : s.Bypassed) : (s.monSnap p i clr).Bypassed :=
  .when (.count <| .set <| .set <| .set <| .forUpTo (.setReg <| .setReg <| .setReg <| .setReg <|
    .setReg h) fun _ _ h' => .setReg h') .monClear

theorem ltLoad {i} (h : s.Bypassed) : (s.ltLoad i).Bypassed := .ite (.event h) <| .ltAdd h

/-! The permanent bypass: the hardwired logic behind every command. -/

theorem settle (h : s.Bypassed) : s.settle.Bypassed := by
  unfold State.Bypassed
  rw [settle_pbyp]
  exact h

/-! The permanent bypass: the time unit (08_time.md). -/

theorem holdsRelease (h : s.Bypassed) : s.holdsRelease.Bypassed := .forUpTo h fun _ _ h' => .ite (.set h') h'
theorem resumeHeld (h : s.Bypassed) : s.resumeHeld.Bypassed := .ite h <| .holdsRelease h
theorem meridiansStop (h : s.Bypassed) : s.meridiansStop.Bypassed := .ite h <| .upd h

theorem enterHold {c} (h : s.Bypassed) : (s.enterHold c).Bypassed := .ite h <| by
      extract_lets s₁ _ s₂
      have h₁ : s₁.Bypassed := .ite h <| .set <| .bump <| .event h
      have h₂ : s₂.Bypassed := .ite (.upd h₁) h₁
      exact .upd h₂

theorem leaveHold {c} (h : s.Bypassed) : (s.leaveHold c).Bypassed :=
  .ite h <| .ite (.upd <| .ite (.upd h) h) <| .set <| .event <| .upd <| .ite (.upd h) h

theorem holdByTwin (h : s.Bypassed) : s.holdByTwin.Bypassed := .ite h <| .ite (.enterHold h) <| .leaveHold h
theorem takeSource (h : s.Bypassed) : s.takeSource.Bypassed := .ite h <| .holdByTwin <| .upd h
theorem pass {d} (h : s.Bypassed) : (s.pass d).Bypassed := .upd h
theorem newTimebase (h : s.Bypassed) : s.newTimebase.Bypassed := .when h .count
theorem applyJump {j} (h : s.Bypassed) : (s.applyJump j).Bypassed := .event <| .upd h

theorem requestJump {j} (h : s.Bypassed) : (s.requestJump j).Bypassed :=
  .ite (.event h) <| .ite (.upd h) <| .applyJump h

theorem incRequest (h : s.Bypassed) : s.incRequest.Bypassed := .upd h

theorem applyWaitingJump (h : s.Bypassed) : s.applyWaitingJump.Bypassed := by
  unfold State.applyWaitingJump
  split
  · exact .applyJump h
  · exact h

theorem applyWaiting (h : s.Bypassed) : s.applyWaiting.Bypassed := by
  unfold State.applyWaiting
  extract_lets s₁ _ s₂
  have h₁ : s₁.Bypassed := .applyWaitingJump <| .takeSource h
  have h₂ : s₂.Bypassed := .upd h₁
  split
  · exact .upd h₂
  · exact h₂

theorem tick (h : s.Bypassed) : s.tick.Bypassed := .ite h <| .ite (.upd <| .pass <| .applyWaiting h) <| .pass h
theorem reach {t} (h : s.Bypassed) : (s.reach t).Bypassed := .ite (.upd <| .pass <| .applyWaiting h) h
theorem timerEnds {d} (h : s.Bypassed) : (s.timerEnds d).Bypassed := .pass h
theorem latchNow (h : s.Bypassed) : s.latchNow.Bypassed := .setReg <| .setReg <| .setReg <| .setReg h
theorem resetTimeUnit {tbg} (h : s.Bypassed) : (s.resetTimeUnit tbg).Bypassed := .set <| .upd h

theorem popTs {p} (h : s.Bypassed) : (s.popTs p).Bypassed := by
  unfold State.popTs
  split
  · exact .set h
  · exact .setReg <| .setReg <| .setReg <| .upd h

theorem pushTs {p e} (h : s.Bypassed) : (s.pushTs p e).Bypassed := .ite (.upd h) <| .event <| .bump h

/-! The permanent bypass: clock domains, sources and gating (04_core_clocks.md). -/

theorem reachable {d} (h : s.Bypassed) : (s.reachable d).2.Bypassed := .iteSnd h <| .free h
theorem followIrc {n} (h : s.Bypassed) : (s.followIrc n).Bypassed := .ite (.upd h) h
theorem rampState {n target} (h : s.Bypassed) : (s.rampState n target).Bypassed := .ite (.set h) <| .event <| .set h

theorem domApply {n src div} (h : s.Bypassed) : (s.domApply n src div).Bypassed := by
  unfold State.domApply
  extract_lets s₁ s₂ _ s₃ s₄
  have h₁ : s₁.Bypassed := .set <| .set h
  have h₂ : s₂.Bypassed := .ite (by
      split
      next _ s₂ heq =>
      have h₂ : s₂.Bypassed := .ofSnd heq <| .reachable h₁
      exact .set <| .set h₂) <| .ite (.set h₁) h₁
  have h₃ : s₃.Bypassed := .upd h₂
  have h₄ : s₄.Bypassed := .ite (.leaveHold h₃) h₃
  exact .rampState <| .followIrc h₄

theorem domWrite {n src div} (h : s.Bypassed) : (s.domWrite n src div).Bypassed :=
  .ite (.upd <| .set h) <| .ite (.set <| .set h) <| .domApply h

theorem domLatched {n} (h : s.Bypassed) : (s.domLatched n).Bypassed := by
  unfold State.domLatched
  split
  · exact .domApply <| .set <| .upd h
  · exact h

theorem failDomain {n} (h : s.Bypassed) : (s.failDomain n).Bypassed :=
  .upd <| .set <| .set <| .set <| .set <| .reachable <| .when h .event

theorem failDomains {src} (h : s.Bypassed) : (s.failDomains src).Bypassed := by
  unfold State.failDomains
  extract_lets _ s₁ _ s₂
  have h₁ : s₁.Bypassed := .foldl h fun _ _ h' => .ite (.failDomain h') h'
  have h₂ : s₂.Bypassed := .ite (.updGate h₁) h₁
  exact .ite (.health <| .enterHold h₂) h₂

theorem rcselSwitch (h : s.Bypassed) : s.rcselSwitch.Bypassed := .ite (.set h) h

theorem failOne {m} (h : s.Bypassed) : (s.failOne m).Bypassed := by
  unfold State.failOne
  extract_lets s₁ s₂ _ s₃ s₄ s₅ s₆
  have h₁ : s₁.Bypassed := .set h
  have h₂ : s₂.Bypassed := .set h₁
  have h₃ : s₃.Bypassed := .upd h₂
  have h₄ : s₄.Bypassed := .set h₃
  have h₅ : s₅.Bypassed := .ite (.failDomains h₄) <| .ite (.failDomains h₄) h₄
  have h₆ : s₆.Bypassed := .errArrive <| .event h₅
  exact .bbWrite h₆

theorem srcFail {m} (h : s.Bypassed) : (s.srcFail m).Bypassed := .ite h <| by
      extract_lets _ _ s₁ s₂
      have h₁ : s₁.Bypassed := .failOne h
      have h₂ : s₂.Bypassed := .ite (.failOne h₁) h₁
      exact .ite (.rcselSwitch h₂) h₂

theorem returnDomains {src} (h : s.Bypassed) : (s.returnDomains src).Bypassed := .foldl h fun _ _ h' => by
      split
      · exact .ite (.domApply h') h'
      · exact h'

theorem srcGood {m} (h : s.Bypassed) : (s.srcGood m).Bypassed := by
  unfold State.srcGood
  extract_lets s₁
  have h₁ : s₁.Bypassed := .set h
  exact .ite h₁ <| .event <| .ite (.returnDomains h₁) <| .ite (.returnDomains h₁) h₁

theorem spllRefCheck (h : s.Bypassed) : s.spllRefCheck.Bypassed := by
  unfold State.spllRefCheck
  split
  · exact .ite (.srcFail h) h
  · exact h

theorem xoscGood (h : s.Bypassed) : s.xoscGood.Bypassed := .ite h <| .upd <| .event h

theorem goodWindow {m} (h : s.Bypassed) : (s.goodWindow m).Bypassed :=
  .ite (.when (.srcGood <| .when (.set <| .upd h) .xoscGood) .xoscGood) <| .when (.set <| .upd h) .xoscGood

theorem badWindow {m} (h : s.Bypassed) : (s.badWindow m).Bypassed :=
  .ite (.ite (.srcFail <| .upd <| .set <| .upd h) <| .upd <| .set <| .upd h) <| .srcFail <| .set <| .upd h

theorem monitorWindow {m count} (h : s.Bypassed) : (s.monitorWindow m count).Bypassed :=
  .ite (.ite (.goodWindow <| .set h) <| .badWindow <| .set h) <| .set h

theorem speedUpdate {rings} (h : s.Bypassed) : (s.speedUpdate rings).Bypassed := by
  unfold State.speedUpdate
  extract_lets _ s₁ s₂ s₃ _ s₄
  have h₁ : s₁.Bypassed := .set h
  have h₂ : s₂.Bypassed := .set h₁
  have h₃ : s₃.Bypassed := .set h₂
  have h₄ : s₄.Bypassed := .event h₃
  exact .ite (.ite (.upd h₄) h₃) <| .ite (.upd h₃) h₃

theorem closeGate {pg} (h : s.Bypassed) : (s.closeGate pg).Bypassed := .set <| .upd h

/-! The permanent bypass: the serial lanes (07_lanes.md). -/

theorem accessErr {pg} (h : s.Bypassed) : (s.accessErr pg).Bypassed := .event h
theorem setLane {n l} (h : s.Bypassed) : (s.setLane n l).Bypassed := .upd h

theorem twinLost (h : s.Bypassed) : s.twinLost.Bypassed :=
  .holdByTwin <| .set <| .when (.upd <| .upd <| .foldl (.set <| .set <| .set h) fun _ _ h' => .ite (.upd <| .event <|
    .bump h') h') .event

theorem scanAbort {n} (h : s.Bypassed) : (s.scanAbort n).Bypassed :=
  .ite h <| .set <| .set <| .set <| .setReg <| .free <| .free h

theorem codeGroups {n ok} (h : s.Bypassed) : (s.codeGroups n ok).Bypassed := .ite (.setLane h) <| .bump <| .setLane h

theorem laneUnsync {n} (h : s.Bypassed) : (s.laneUnsync n).Bypassed := by
  unfold State.laneUnsync
  extract_lets _ s₁ _ s₂
  have h₁ : s₁.Bypassed := .scanAbort <| .setLane <| .set h
  have h₂ : s₂.Bypassed := .upd h₁
  exact .ite (.twinLost <| .set <| .set h₂) h₂

theorem reloadExpect {n} (h : s.Bypassed) : (s.reloadExpect n).Bypassed := .set <| .free h
theorem laneGo {n st} (h : s.Bypassed) : (s.laneGo n st).Bypassed := .setLane <| .set h

theorem laneEnter {n st} (h : s.Bypassed) : (s.laneEnter n st).Bypassed :=
  .ite (.set <| .laneUnsync <| .when (.set h) .scanAbort) <| .when (.set h) .scanAbort

theorem lanePwr {n st} (h : s.Bypassed) : (s.lanePwr n st).Bypassed :=
  .ite (.accessErr h) <| .ite h <| .ite (.setLane <| .set <| .set h) <| .ite (.laneGo <| .set h) <| .set h

theorem laneEnable {n} (h : s.Bypassed) : (s.laneEnable n).Bypassed := .ite h <| .laneGo h
theorem laneDisable {n} (h : s.Bypassed) : (s.laneDisable n).Bypassed := .laneEnter <| .set <| .set <| .setLane h

theorem moorLanes (h : s.Bypassed) : s.moorLanes.Bypassed :=
  .forUpTo h fun _ _ h' => .ite (.set <| .laneDisable h') h'

theorem eyeScan {n} (h : s.Bypassed) : (s.eyeScan n).Bypassed :=
  .ite (.accessErr h) <| .setReg <| .set <| .set <| .setLane <| .set <| .set h

theorem prbsStart {n} (h : s.Bypassed) : (s.prbsStart n).Bypassed := .setLane h
theorem prbsSend {n} (h : s.Bypassed) : (s.prbsSend n).Bypassed := .ite (.setLane h) h
theorem prbsInj {n} (h : s.Bypassed) : (s.prbsInj n).Bypassed := .ite (.setLane <| .count h) h
theorem prbsClr {n} (h : s.Bypassed) : (s.prbsClr n).Bypassed := .setReg h
theorem eqClip {n r} (h : s.Bypassed) : (s.eqClip n r).Bypassed := .ite (.event h) h
theorem prbsErrors {n k} (h : s.Bypassed) : (s.prbsErrors n k).Bypassed := .bump h

/-! The permanent bypass: the gate block of a cell and the TEV outputs (15_cell_power_stage.md). -/

theorem evFlag {b} (h : s.Bypassed) : (s.evFlag b).Bypassed := .updGate h
theorem edge {st t q} (h : s.Bypassed) : (s.edge st t q).Bypassed := .updGate <| .ite (.event <| .bump h) h
theorem blockEdge {t q} (h : s.Bypassed) : (s.blockEdge t q).Bypassed := .updGate <| .ite h <| .edge h
theorem discard (h : s.Bypassed) : s.discard.Bypassed := .bump h

theorem request {st t q own} (h : s.Bypassed) : (s.request st t q own).Bypassed :=
  .ite h <| .ite (.updGate h) <| .ite (.discard h) <| .ite (.blockEdge h) <| .ite (.discard h) <| .ite h <|
    .ite (.updGate <| .evFlag <| .bump h) <| .ite (.bump h) <| .edge h

theorem fireThy (h : s.Bypassed) : s.fireThy.Bypassed := .updGate h
theorem bbAction {code} (h : s.Bypassed) : (s.bbAction code).Bypassed := .bbWrite h
theorem flushRequests (h : s.Bypassed) : s.flushRequests.Bypassed := .bump <| .updGate h

theorem faultLatch {n} (h : s.Bypassed) : (s.faultLatch n).Bypassed := by
  unfold State.faultLatch
  extract_lets s₁ _ s₂ _ _ s₃ s₄ s₅ _ s₆
  have h₁ : s₁.Bypassed := .evFlag h
  have h₂ : s₂.Bypassed := .updGate <| .evFlag h
  have h₃ : s₃.Bypassed := .updGate h₂
  have h₄ : s₄.Bypassed := .event <| .flushRequests h₃
  have h₅ : s₅.Bypassed := .ltAdd h₄
  have h₆ : s₆.Bypassed := .upd h₅
  exact .ite (.ite (.bbFreeze <| .bbWrite h₆) h₄) h₂

theorem desaturation (h : s.Bypassed) : s.desaturation.Bypassed := .when (.updGate <| .bump h) .permBypass
theorem tripLevel {n v} (h : s.Bypassed) : (s.tripLevel n v).Bypassed := .ite (.upd h) <| .ite (.upd h) h

theorem faultSource {n} (h : s.Bypassed) : (s.faultSource n).Bypassed :=
  .when (.faultLatch <| .tripLevel h) .desaturation

theorem takeEvent {e} (h : s.Bypassed) : (s.takeEvent e).Bypassed := .upd <| .reach h

theorem moveEvent {e} (h : s.Bypassed) : (s.moveEvent e).Bypassed := by
  unfold State.moveEvent
  split
  · exact .request h
  · exact h

theorem trimEvent {e on w} (h : s.Bypassed) : (s.trimEvent e on w).Bypassed :=
  .ite (.updGate <| .request h) <| .request h

theorem trimOver {t} (h : s.Bypassed) : (s.trimOver t).Bypassed := by
  unfold State.trimOver
  split
  · exact .ite (.request <| .updGate h) h
  · exact h

theorem gateStop {cause} (h : s.Bypassed) : (s.gateStop cause).Bypassed :=
  .when (.ite (.updGate h) <| .updGate <| .updGate h) .event

theorem gateResume {cause} (h : s.Bypassed) : (s.gateResume cause).Bypassed := .updGate h
theorem gateClear (h : s.Bypassed) : s.gateClear.Bypassed := .ite (.event <| .bump h) <| .ite h <| .updGate h
theorem tevArm {n} (h : s.Bypassed) : (s.tevArm n).Bypassed := .ite (.event h) <| .updGate <| .set h
theorem tevDisarm {n} (h : s.Bypassed) : (s.tevDisarm n).Bypassed := .updGate h

/-! The permanent bypass: the berth table and the management queues (09_tree_frames.md). -/

theorem setBerth {i b} (h : s.Bypassed) : (s.setBerth i b).Bypassed := .upd h
theorem setPort {p x} (h : s.Bypassed) : (s.setPort p x).Bypassed := .upd h
theorem mgmtQueue {p r} (h : s.Bypassed) : (s.mgmtQueue p r).2.Bypassed := .setPort h
theorem hubRecord {p r} (h : s.Bypassed) : (s.hubRecord p r).Bypassed := .ite (.mgmtQueue h) <| .setPort h
theorem refill {p} (h : s.Bypassed) : (s.refill p).Bypassed := .foldl (.setPort h) fun _ _ h' => .mgmtQueue h'

theorem sequence (h : s.Bypassed) : s.sequence.Bypassed := by
  unfold State.sequence
  split
  · exact h
  · exact .ite (.upd h) <| .ite (.upd <| .mgmtQueue h) h

theorem deblockOne {i} (h : s.Bypassed) : (s.deblockOne i).Bypassed := .sequence <| .upd h
theorem autoDeblock {i} (h : s.Bypassed) : (s.autoDeblock i).Bypassed := .when h .deblockOne

/-! The permanent bypass: Valve Block and block detection (17_safety.md). -/

theorem latchSource {bit} (h : s.Bypassed) : (s.latchSource bit).Bypassed := by
  unfold State.latchSource
  extract_lets s₁ _ _ _ s₂ s₃ _ _ s₄ _ s₅
  have h₁ : s₁.Bypassed := .event h
  have h₂ : s₂.Bypassed := .upd h₁
  have h₃ : s₃.Bypassed := .ltAdd <| .bump h₂
  have h₄ : s₄.Bypassed := .ite (.upd h₃) h₂
  have h₅ : s₅.Bypassed := .upd h₄
  exact .ite (.ite (by
          split
          next _ s₆ heq =>
          have h₆ : s₆.Bypassed := .ofSnd heq <| .free h₅
          exact .monitorSel <| .set h₆) h₅) h₄

theorem assertBit {b on} (h : s.Bypassed) : (s.assertBit b on).Bypassed := .upd h

theorem setBlockPin {p v} (h : s.Bypassed) : (s.setBlockPin p v).Bypassed := by
  unfold State.setBlockPin
  split
  · exact .upd h
  · exact .upd h
  · exact .upd h
  · exact .upd h

theorem blockRequest {src} (h : s.Bypassed) : (s.blockRequest src).Bypassed := .upd <| .when h .event

theorem hubDeblockCmd (h : s.Bypassed) : s.hubDeblockCmd.Bypassed :=
  .ite (.event <| .set <| .bump h) <| .upd <| .ite h <| .event h

theorem hubAclrCmd (h : s.Bypassed) : s.hubAclrCmd.Bypassed := .ite (.event <| .bump h) <| .upd h
theorem hubBclrCmd (h : s.Bypassed) : s.hubBclrCmd.Bypassed := .upd h

theorem hubCommand {code} (h : s.Bypassed) : (s.hubCommand code).Bypassed :=
  .ite (.hubDeblockCmd h) <| .ite (.hubAclrCmd h) <| .ite (.blockRequest h) <| .ite (.hubBclrCmd h) <| .accessErr h

theorem hubDeblockOne {i} (h : s.Bypassed) : (s.hubDeblockOne i).Bypassed := .ite (.deblockOne h) <| .accessErr h

theorem cellDeblockCmd {tree} (h : s.Bypassed) : (s.cellDeblockCmd tree).Bypassed :=
  .ite (.upd <| .bbWrite <| .set <| .event <| .bump <| .set h) <| .ite h <| .bbWrite <| .event <| .count <| .updGate h

theorem cellBlockNow (h : s.Bypassed) : s.cellBlockNow.Bypassed := .ite (.upd h) <| .blockEdge h

theorem cellCommand {tree code} (h : s.Bypassed) : (s.cellCommand tree code).Bypassed :=
  .ite (.cellDeblockCmd h) <| .ite (.cellBlockNow h) <| .ite (.permBypass h) <| .accessErr h

theorem forceBlock (h : s.Bypassed) : s.forceBlock.Bypassed := .upd <| .flushRequests h

/-! The permanent bypass: the timetable (10_tree_admission.md). -/

theorem setUplink {u x} (h : s.Bypassed) : (s.setUplink u x).Bypassed := .upd h

theorem slotUpdate {u n} (h : s.Bypassed) : (s.slotUpdate u n).Bypassed := by
  unfold State.slotUpdate
  split
  · exact .setUplink <| .set <| .set h
  · exact h

end Sys2Proof.Machine.State.Bypassed
end

section
/-! PROOFS. The permanent bypass (R477) through measurement, memory, compensation, the engine and modulation:
one rule per function of the model, in the order of the model. -/

namespace Sys2Proof.Machine.State.Bypassed

variable {s : State}

/-! The permanent bypass: converters and accumulators (16_measurement.md). -/

theorem setAcc {c a} (h : s.Bypassed) : (s.setAcc c a).Bypassed := .upd h
theorem windowMode (h : s.Bypassed) : s.windowMode.Bypassed := .upd <| .set <| .set h
theorem windowKind (h : s.Bypassed) : s.windowKind.Bypassed := .when h .windowMode
theorem rounded {x} (h : s.Bypassed) : (s.rounded x).2.Bypassed := .iteSnd h <| .free h
theorem closeValues {c a} (h : s.Bypassed) : (s.closeValues c a).2.Bypassed := .iteSnd (.free <| .free <| .free h) h

theorem plausible {a b} (h : s.Bypassed) : (s.plausible a b).Bypassed :=
  .ite (.ite (.when (.upd <| .set <| .bump <| .evFlag <| .event <| .bump h) fun h' => .event <| .forceBlock h') <|
    .bump h) <| .upd <| .set <| .set h

theorem plausClose {c w} (h : s.Bypassed) : (s.plausClose c w).Bypassed := by
  unfold State.plausClose
  extract_lets _ s₁ _ _ s₂
  have h₁ : s₁.Bypassed := .ite (.upd h) <| .ite (.upd h) h
  have h₂ : s₂.Bypassed := .upd h₁
  split
  · exact .ite h₂ <| .plausible h₂
  · exact h₁

theorem supplyTest {rail w} (h : s.Bypassed) : (s.supplyTest rail w).Bypassed :=
  .ite h <| .ite (.when (.bump <| .set h) .event) <| .when (.set h) .event

theorem winClosed {c} (h : s.Bypassed) : (s.winClosed c).Bypassed := .ite (.upd <| .event h) <| .upd h

theorem reportWindow {c w} (h : s.Bypassed) : (s.reportWindow c w).Bypassed := by
  unfold State.reportWindow
  extract_lets s₁ _ _ s₂ _ s₃ _ s₄
  have h₁ : s₁.Bypassed := .when h .event
  have h₂ : s₂.Bypassed := .ite (.set h₁) <| .when h₁ .set
  have h₃ : s₃.Bypassed := .setReg h₂
  have h₄ : s₄.Bypassed := .upd h₃
  exact .ite (.ite h₄ <| by
        split
        next _ s₅ heq =>
        have h₅ : s₅.Bypassed := .ofSnd heq <| .rounded h₄
        exact .monitor h₅) h₂

theorem m2Closed {c w} (h : s.Bypassed) : (s.m2Closed c w).Bypassed := by
  unfold State.m2Closed
  extract_lets s₁ s₂
  have h₁ : s₁.Bypassed := .ite (.supplyTest h) h
  have h₂ : s₂.Bypassed := .plausClose h₁
  exact .ite (by
        split
        next _ s₃ heq =>
        have h₃ : s₃.Bypassed := .ofSnd heq <| .rounded h₂
        exact .monitor h₃) h₂

theorem closeWindow {c} (h : s.Bypassed) : (s.closeWindow c).Bypassed := by
  unfold State.closeWindow
  extract_lets
  split
  next _ s₁ heq =>
  have h₁ : s₁.Bypassed := .ofSnd heq <| .closeValues h
  extract_lets _ s₂ s₃ s₄
  have h₂ : s₂.Bypassed := .upd h₁
  have h₃ : s₃.Bypassed := .setAcc h₂
  have h₄ : s₄.Bypassed := .ite (.reportWindow h₃) <| .m2Closed h₃
  exact .winClosed h₄

theorem closeUntil {c i fuel} (h : s.Bypassed) : (s.closeUntil c i fuel).Bypassed := by
  induction fuel generalizing s with
  | zero => exact h
  | succ k ih => exact .ite (ih <| .closeWindow h) h

theorem accumulate {c x i} (h : s.Bypassed) : (s.accumulate c x i).Bypassed :=
  .setAcc <| .ite (.setAcc h) <| .closeUntil h

theorem result {m ch x instant} (h : s.Bypassed) : (s.result m ch x instant).Bypassed := by
  unfold State.result
  extract_lets _ s₁ _ s₂
  have h₁ : s₁.Bypassed := .when h fun h' => .event <| .bump h'
  have h₂ : s₂.Bypassed := .windowKind h₁
  exact .ite h₁ <| by
      split
      · exact .accumulate <| .accumulate h₂
      · exact .accumulate h₂
      · exact .accumulate h₂

/-! The permanent bypass: state memory, the arbiter and the scrubber (20_memory_arbiter_errors.md). -/

theorem flipBits {w bits} (h : s.Bypassed) : (s.flipBits w bits).Bypassed :=
  .foldl h fun _ _ h' => .ite (.setByte h') h'

theorem readWord {req w} (h : s.Bypassed) : (s.readWord req w).2.Bypassed := by
  unfold State.readWord
  split
  · exact h
  · exact .iteSnd (.when h .bump) <| .iteSnd (.errArrive <| .upd h) <| .iteSnd (.bump <| .errArrive <| .upd <|
      .flipBits h) <| .upd <| .setNum <| .free h

theorem touch {req a n} (h : s.Bypassed) : (s.touch req a n).2.Bypassed :=
  .iteSnd h <| .foldlSnd h fun _ _ h' => .readWord h'

theorem fetch {req a n} (h : s.Bypassed) : (s.fetch req a n).2.2.Bypassed := .touch h

theorem writeWord {req w a b} (h : s.Bypassed) : (s.writeWord req w a b).Bypassed :=
  .ite (.ite (.upd <| .set <| .upd h) <| .upd h) <| .readWord h

theorem store {req a bs} (h : s.Bypassed) : (s.store req a bs).Bypassed :=
  .ite h <| .setBytes <| .ite h <| .foldl h fun _ _ h' => .writeWord h'

theorem setValid {sl v} (h : s.Bypassed) : (s.setValid sl v).Bypassed := .set <| .set h

theorem slotWritten {a n sl} (h : s.Bypassed) : (s.slotWritten a n sl).Bypassed :=
  .ite h <| .when (.when h .upd) .setValid

theorem write {req a bs} (h : s.Bypassed) : (s.write req a bs).Bypassed :=
  .ite (.store h) <| .ite (.event <| .bump <| .errArrive h) <| .store <| .slotWritten <| .slotWritten h

theorem arbRefill (h : s.Bypassed) : s.arbRefill.Bypassed := .set <| .forUpTo h fun _ _ h' => .set h'

theorem arbDecide {cand} (h : s.Bypassed) : (s.arbDecide cand).2.Bypassed :=
  .iteSnd h <| .iteSnd (.set h) <| .set <| .ite (.bump <| .arbRefill h) h

theorem unlock (h : s.Bypassed) : s.unlock.Bypassed := .upd <| .set <| .set <| .set h

theorem lockBreak {cause} (h : s.Bypassed) : (s.lockBreak cause).Bypassed := by
  unfold State.lockBreak
  extract_lets _ _ s₁ s₂ s₃ s₄ s₅ s₆
  have h₁ : s₁.Bypassed := .unlock h
  have h₂ : s₂.Bypassed := .set <| .set <| .set h₁
  have h₃ : s₃.Bypassed := .forUpTo h₂ fun _ _ h' => .set h'
  have h₄ : s₄.Bypassed := by
    unfold s₄
    split
    · exact .bump h₃
    · exact .bump h₃
    · exact .bump h₃
  have h₅ : s₅.Bypassed := .event h₄
  have h₆ : s₆.Bypassed := .errArrive h₅
  split
  · exact .ite (.upd h₆) h₆
  · exact h₆

theorem lockLimit {q} (h : s.Bypassed) : (s.lockLimit q).Bypassed := .ite (.ite (.lockBreak h) <| .upd h) h
theorem lockOpen {q} (h : s.Bypassed) : (s.lockOpen q).Bypassed := .ite (.set <| .upd <| .set <| .set <| .set h) h
theorem supTrap {addr cause} (h : s.Bypassed) : (s.supTrap addr cause).Bypassed := .upd h

theorem cpuFault {code addr cause} (h : s.Bypassed) : (s.cpuFault code addr cause).Bypassed :=
  .ite (.set <| .supTrap h) <| .setReg <| .set <| .set <| .set <| .supTrap h

theorem supStore {a bs} (h : s.Bypassed) : (s.supStore a bs).Bypassed :=
  .ite (.upd <| .write h) <| .upd <| .cpuFault <| .free h

theorem arbAccess {q} (h : s.Bypassed) : (s.arbAccess q).Bypassed :=
  .ite (.when (.upd <| .fetch h) .cpuFault) <| .write <| .ite (.upd h) h

theorem arbCount {q} (h : s.Bypassed) : (s.arbCount q).Bypassed :=
  .monitorSel <| .set <| .set <| .count <| .ite (.arbRefill <| .set h) <| .set <| .set h

theorem arbGrant {waiting} (h : s.Bypassed) : (s.arbGrant waiting).Bypassed := by
  unfold State.arbGrant
  dsimp only
  split
  · exact .iteSnd h <| .arbDecide h
  · exact .arbCount <| .when (.arbAccess <| .lockOpen <| .lockLimit <| .forUpTo (.iteSnd h <|
      .arbDecide h) fun _ _ h' => .set h') .unlock

theorem scrub {upset} (h : s.Bypassed) : (s.scrub upset).Bypassed :=
  .ite (.upd <| .count <| .ite (.ite h <| .upd h) <| .readWord <| .ite h <| .upd h) <| .upd <| .ite (.ite h <|
    .upd h) <| .readWord <| .ite h <| .upd h

theorem errPop (h : s.Bypassed) : s.errPop.Bypassed := .upd h
theorem errNext (h : s.Bypassed) : s.errNext.Bypassed := .ite h <| .errSignal <| .upd h
theorem errAck {c} (h : s.Bypassed) : (s.errAck c).Bypassed := .ite (.errNext <| .upd h) <| .accessErr h
theorem errSwlog {cls code} (h : s.Bypassed) : (s.errSwlog cls code).Bypassed := .ite (.accessErr h) <| .errArrive h
theorem slockOpen (h : s.Bypassed) : s.slockOpen.Bypassed := .upd h
theorem slockClose (h : s.Bypassed) : s.slockClose.Bypassed := .ite (.unlock <| .upd h) <| .upd h

/-! The permanent bypass: repetitive control, ramps and injectors (14_compensation_supervision.md). -/

theorem setSig {n w} (h : s.Bypassed) : (s.setSig n w).Bypassed := .store h
theorem clearRange {a n} (h : s.Bypassed) : (s.clearRange a n).Bypassed := .upd h
theorem rcuValue {u} (h : s.Bypassed) : (s.rcuValue u).2.2.Bypassed := .iteSnd2 h <| .setReg <| .touch <| .touch h

theorem rcuLearn {u e} (h : s.Bypassed) : (s.rcuLearn u e).Bypassed :=
  .forUpTo (.set h) fun _ _ h1 => .store <| .when h1 fun h2 => .event <| .bump h2

theorem rcuTeach {u e clamped} (h : s.Bypassed) : (s.rcuTeach u e clamped).Bypassed :=
  .ite h <| .ite (.bump h) <| .upd <| .when (.when (.set h) fun h' => .event <| .bump h') .rcuLearn

theorem rcuClear {u} (h : s.Bypassed) : (s.rcuClear u).Bypassed := .upd <| .set <| .clearRange h
theorem angPoint {t m} (h : s.Bypassed) : (s.angPoint t m).2.Bypassed := .iteSnd h <| .bump h

theorem angCompute {t} (h : s.Bypassed) : (s.angCompute t).2.2.Bypassed := .iteSnd2 h <| by
      extract_lets
      split
      · split
        next _ s₁ heq =>
        have h₁ : s₁.Bypassed := .ofSnd heq <| .touch h
        split
        next _ s₂ heq =>
        have h₂ : s₂.Bypassed := .ofSnd heq <| .touch h₁
        split
        next _ s₃ heq =>
        have h₃ : s₃.Bypassed := .ofSnd heq <| .angPoint h₂
        split
        next _ s₄ heq =>
        have h₄ : s₄.Bypassed := .ofSnd heq <| .angPoint h₃
        split
        · extract_lets
          exact .setReg h₄
        · exact .setReg <| .bump h₄

theorem angValue {t} (h : s.Bypassed) : (s.angValue t).2.2.Bypassed := by
  unfold State.angValue
  split
  · exact h
  · exact .upd <| .angCompute h

theorem ramps (h : s.Bypassed) : s.ramps.Bypassed :=
  .ite h <| .upd <| .forUpTo h fun _ _ h1 => .ite (.set <| .upd h1) <| .set <| .store <| .upd <|
    .when h1 fun h2 => .event <| .bump h2

theorem setFe {c f} (h : s.Bypassed) : (s.setFe c f).Bypassed := .upd h

theorem feTrip {c f} (h : s.Bypassed) : (s.feTrip c f).Bypassed :=
  .when (.when (.when (.setFe h) .event) .errArrive) .blockRequest

theorem feEval {c d} (h : s.Bypassed) : (s.feEval c d).Bypassed :=
  .ite h <| .ite (.ite (.event <| .setFe <| .setFe h) <| .setFe h) <| .ite (.feTrip <| .setFe h) <| .setFe h

theorem setInj {i x} (h : s.Bypassed) : (s.setInj i x).Bypassed := .upd h
theorem injStop {i} (h : s.Bypassed) : (s.injStop i).Bypassed := .event <| .set <| .setInj h

theorem frAbort (h : s.Bypassed) : s.frAbort.Bypassed := by
  unfold State.frAbort
  split
  · exact h
  · exact .set <| .upd h

theorem injStep {i} (h : s.Bypassed) : (s.injStep i).Bypassed :=
  .ite (.upd h) <| .ite (.upd <| .injStop <| .when h .frAbort) <| .ite (.upd h) <| .ite (.upd <| .injStop h) <|
    .upd <| .bump <| .setInj h

theorem injectors (h : s.Bypassed) : s.injectors.Bypassed := .forUpTo h fun _ _ h' => .when (.injStep h') .setSig
theorem injGo {i} (h : s.Bypassed) : (s.injGo i).Bypassed := .ite (.accessErr h) <| .set <| .set <| .setInj h
theorem injStopCmd {i} (h : s.Bypassed) : (s.injStopCmd i).Bypassed := .ite (.setInj h) h

theorem frStop (h : s.Bypassed) : s.frStop.Bypassed := by
  unfold State.frStop
  split
  · exact .injStop <| .frAbort h
  · exact h

theorem frStart {i p} (h : s.Bypassed) : (s.frStart i p).Bypassed :=
  .upd <| .set <| .set <| .set <| .setInj <| .rounded h

theorem frGo (h : s.Bypassed) : s.frGo.Bypassed := .ite (.accessErr h) <| .frStart <| .set <| .upd h

theorem frStep (h : s.Bypassed) : s.frStep.Bypassed := by
  unfold State.frStep
  split
  · exact h
  · exact .ite (.upd h) <| .ite (.frStart <| .upd h) <| .event <| .injStop <| .set <| .set <| .upd <| .upd h

/-! The permanent bypass: the control engine (13_control_engine.md). -/

theorem putSec {sl q} (h : s.Bypassed) : (s.putSec sl q).Bypassed := .store h
theorem zeroSec {sl i} (h : s.Bypassed) : (s.zeroSec sl i).Bypassed := .store h
theorem zeroChain {sl e} (h : s.Bypassed) : (s.zeroChain sl e).Bypassed := .forUpTo h fun _ _ h' => .zeroSec h'

theorem schEval {k} (h : s.Bypassed) : (s.schEval k).Bypassed :=
  .ite h <| .ite (.event <| .set h) <| .ite (.bump <| .set h) <| .ite (.upd <| .set h) <| .event <| .count <| .set <|
    .upd <| .set h

theorem schedulers (h : s.Bypassed) : s.schedulers.Bypassed := .ite (.forUpTo h fun _ _ h' => .schEval h') h
theorem readSig {a} (h : s.Bypassed) : (s.readSig a).2.2.Bypassed := .touch h

theorem linkValues {e point} (h : s.Bypassed) : (s.linkValues e point).2.2.Bypassed := by
  unfold State.linkValues
  extract_lets take
  have htake : ∀ acc b rcu, acc.2.2.Bypassed → (take acc b rcu).2.2.Bypassed := by
    intro acc b rcu h
    unfold take
    exact .iteSnd2 (.iteSnd2 (.rcuValue h) (.angValue h)) h
  exact .iteSnd2 h <| .foldlSnd2 (.foldlSnd2 h fun _ i h => htake _ (nth e.links i 0) false h) fun _ i h =>
    htake _ (nth e.links i 0) true h

theorem teachLinks {e err clamped} (h : s.Bypassed) : (s.teachLinks e err clamped).Bypassed :=
  .ite h <| .foldl h fun _ _ h' => .ite (.rcuTeach h') h'

theorem chainPoison (h : s.Bypassed) : s.chainPoison.Bypassed := .set <| .event <| .bump h

theorem chainStat {c e bank clamped} (h : s.Bypassed) : (s.chainStat c e bank clamped).Bypassed :=
  .when (.set <| .set <| .set h) .bump

theorem chainOut {ctx e y} (h : s.Bypassed) : (s.chainOut ctx e y).Bypassed := .store <| .when h .bump

theorem chainBody {ctx c e d secs bank pt0 pt1} (h : s.Bypassed) :
    (s.chainBody ctx c e d secs bank pt0 pt1).2.Bypassed := by
  unfold State.chainBody
  extract_lets s₁
  have h₁ : s₁.Bypassed := .when h .feEval
  exact .iteSnd (by
        extract_lets _ _ _ _ s₂ s₃
        have h₂ : s₂.Bypassed := .foldl (.chainStat <| .upd <| .teachLinks h₁) fun _ _ h' => .putSec h'
        have h₃ : s₃.Bypassed := .when h₂ fun h' => by
          extract_lets s₄
          have h₄ : s₄.Bypassed := .count <| .bump h'
          split
          · extract_lets s₅
            have h₅ : s₅.Bypassed := .when h₄ .event
            exact .upd h₅
          · exact h₄
        exact .iteSnd (.chainOut h₃) h₃) <| by
      extract_lets _ s₂
      have h₂ : s₂.Bypassed := .event <| .bump <| .chainStat <| .upd <| .teachLinks h₁
      exact .foldl h₂ fun _ _ h' => .zeroSec h'

theorem chainRun {ctx c} (h : s.Bypassed) : (s.chainRun ctx c).2.Bypassed := by
  unfold State.chainRun
  extract_lets _ _ s₁
  have h₁ : s₁.Bypassed := .set h
  refine .iteSnd h₁ ?_
  split
  next p0 s₂ heq =>
  have h₂ : s₂.Bypassed := .ofSnd heq <| .touch h₁
  split
  next a pa s₃ heq =>
  have h₃ : s₃.Bypassed := .ofSnd2 heq <| .readSig h₂
  split
  next b pb s₄ heq =>
  have h₄ : s₄.Bypassed := .ofSnd2 heq <| .iteSnd2 h₃ <| .readSig h₃
  refine .iteSnd (.chainPoison h₄) <| .iteSnd (.event <| .bump h₄) ?_
  extract_lets
  split
  next ps s₅ heq =>
  have h₅ : s₅.Bypassed := .ofSnd heq <| .foldlSnd h₄ fun _ _ h => .touch <| .touch h
  split
  next pt0 l0 s₆ heq =>
  have h₆ : s₆.Bypassed := .ofSnd2 heq <| .linkValues h₅
  split
  next pt1 l1 s₇ heq =>
  have h₇ : s₇.Bypassed := .ofSnd2 heq <| .linkValues h₆
  exact .iteSnd (.chainPoison h₇) <| .chainBody <| .when h₇ .event

theorem programRun {ctx} (h : s.Bypassed) : (s.programRun ctx).2.Bypassed := .foldlSnd h fun _ _ h' => .chainRun h'
theorem hoState {n} (h : s.Bypassed) : (s.hoState n).Bypassed := .set <| .set h

theorem hoEnd {x0 last take} (h : s.Bypassed) : (s.hoEnd x0 last take).Bypassed :=
  .upd <| .event <| .set <| .hoState <| .when h fun h' => .count <| .set h'

theorem copyBlend {n} (h : s.Bypassed) : (s.copyBlend n).Bypassed := .setSig h

theorem blendStep {x0 outW inW} (h : s.Bypassed) : (s.blendStep x0 outW inW).Bypassed :=
  .foldl h fun _ _ h' => .ite (.setSig h') <| .copyBlend h'

theorem hoRun {x0} (h : s.Bypassed) : (s.hoRun x0).Bypassed := by
  unfold State.hoRun
  extract_lets
  split
  next _ s₁ heq =>
  have h₁ : s₁.Bypassed := .ofSnd heq <| by
    split
    · exact .programRun h
    · exact h
  extract_lets _ s₂ s₃ _ s₄
  have h₂ : s₂.Bypassed := .foldl h₁ fun _ _ h' => .store h'
  have h₃ : s₃.Bypassed := .hoState h₂
  have h₄ : s₄.Bypassed := .ite (.upd h₃) h₁
  split
  next _ s₅ heq =>
  have h₅ : s₅.Bypassed := .ofSnd heq <| .programRun h₄
  extract_lets _ s₆ s₇
  have h₆ : s₆.Bypassed := .blendStep h₅
  have h₇ : s₇.Bypassed := .set h₆
  exact .ite (.hoEnd <| .foldl h₅ fun _ _ h' => .copyBlend h') <| .ite (.hoEnd h₇) <| .upd h₇

theorem runAlone (h : s.Bypassed) : s.runAlone.Bypassed := by
  unfold State.runAlone
  split
  · exact .programRun h
  · exact h

theorem programs {k} (h : s.Bypassed) : (s.programs k).Bypassed := by
  unfold State.programs
  split
  · exact .ite (.runAlone <| .hoEnd h) <| .ite (.hoRun h) <| .runAlone h
  · exact .runAlone h

theorem hoGo {kh} (h : s.Bypassed) : (s.hoGo kh).Bypassed :=
  .ite (.accessErr h) <| .event <| .set <| .set <| .hoState <| .upd h

theorem hoAbort (h : s.Bypassed) : s.hoAbort.Bypassed := by
  unfold State.hoAbort
  split
  · exact h
  · exact .ite (.upd h) <| .hoEnd h

theorem engStop (h : s.Bypassed) : s.engStop.Bypassed := by
  unfold State.engStop
  split
  · exact h
  · exact .hoEnd h

theorem pgmLoad {sl} (h : s.Bypassed) : (s.pgmLoad sl).Bypassed := .ite (.accessErr h) <| .upd <| .set h

theorem loadDone {sl} (h : s.Bypassed) : (s.loadDone sl).Bypassed :=
  .ite (.event <| .set <| .setValid <| .set h) <| .event <| .setValid <| .set <| .set <| .upd <|
    .foldl (.set h) fun _ _ h' => .zeroChain h'

theorem sigQueue {v} (h : s.Bypassed) : (s.sigQueue v).Bypassed := .ite (.upd h) <| .event <| .bump h
theorem sigFlush (h : s.Bypassed) : s.sigFlush.Bypassed := .foldl (.upd h) fun _ _ h' => .setSig h'
theorem chainQueue {hi} (h : s.Bypassed) : (s.chainQueue hi).Bypassed := .ite (.upd h) <| .event <| .bump h
theorem chainApply {e} (h : s.Bypassed) : (s.chainApply e).Bypassed := .ite (.event <| .bump h) <| .store h

theorem chainCommit (h : s.Bypassed) : s.chainCommit.Bypassed :=
  .foldl (.upd <| .forUpTo h fun _ _ h1 => .ite (.upd <|
    .foldl h1 fun _ _ h2 => .ite (.zeroChain h2) h2) h1) fun _ _ h1 => .chainApply h1

theorem chainRead (h : s.Bypassed) : s.chainRead.Bypassed :=
  .ite (.accessErr <| .setReg <| .setReg h) <| .setReg <| .setReg h

theorem engLatency {lat} (h : s.Bypassed) : (s.engLatency lat).Bypassed := .monitorSel <| .set <| .set h

theorem hubExecution {lat} (h : s.Bypassed) : (s.hubExecution lat).Bypassed :=
  .engLatency <| .when (.programs <| .injectors <| .schedulers <| .upd <| .set h) .frStep

theorem cellInputs {peak} (h : s.Bypassed) : (s.cellInputs peak).Bypassed := .foldl h fun _ _ h' => .setSig h'

theorem cellExecution {peak lat} (h : s.Bypassed) : (s.cellExecution peak lat).Bypassed :=
  .engLatency <| .runAlone <| .schedulers <| .set <| .sigFlush <| .cellInputs h

/-! The permanent bypass: the capacitor observer and ranking (12_rank_observer.md). -/

theorem setObs {i o} (h : s.Bypassed) : (s.setObs i o).Bypassed := .upd h
theorem obsAdmit {i} (h : s.Bypassed) : (s.obsAdmit i).Bypassed := .setObs h
theorem obsRelease {i} (h : s.Bypassed) : (s.obsRelease i).Bypassed := .upd h
theorem rankJob {j} (h : s.Bypassed) : (s.rankJob j).Bypassed := .ite (.upd h) <| .accessErr h
theorem rankWr (h : s.Bypassed) : s.rankWr.Bypassed := .rankJob h
theorem rankSetc (h : s.Bypassed) : s.rankSetc.Bypassed := .ite (.rankJob h) <| .accessErr h
theorem rankSetv (h : s.Bypassed) : s.rankSetv.Bypassed := .ite (.rankJob h) <| .accessErr h
theorem rankRd (h : s.Bypassed) : s.rankRd.Bypassed := .forUpTo h fun _ _ h' => .setReg h'

theorem rankApply {a} (h : s.Bypassed) : (s.rankApply a).Bypassed := by
  unfold State.rankApply
  split
  · exact .setObs h
  · exact .setObs h
  · exact .setObs h

theorem outliers {a l i} (h : s.Bypassed) : (s.outliers a l i).Bypassed :=
  .upd <| .foldl h fun _ _ h' => .ite (.event <| .setObs h') h'

theorem fuseArm {a t} (h : s.Bypassed) : (s.fuseArm a t).Bypassed :=
  .set <| .set <| .setReg <| .ite (.upd <| .outliers h) <| .upd <| .when (.bump h) .event

theorem externalCheck {a} (h : s.Bypassed) : (s.externalCheck a).Bypassed := .ite h <| by
      dsimp only
      split
      · exact h
      · exact .ite h <| .ite (.ite (.when (.when (.bump <| .upd <| .setReg h) .event) .blockRequest) <| .upd <|
          .setReg h) <| .upd <| .setReg h

theorem fuse {t} (h : s.Bypassed) : (s.fuse t).Bypassed :=
  .ite (.forUpTo (.forUpTo h fun _ _ h1 => .fuseArm h1) fun _ _ h1 => .externalCheck h1) h

theorem observerReport {i r} (h : s.Bypassed) : (s.observerReport i r).Bypassed :=
  .ite (.setBerth h) <| .upd <| .setBerth h

theorem rankSignals {x a} (h : s.Bypassed) : (s.rankSignals x a).Bypassed :=
  .ite (.setSig <| .setSig <| .setSig <| .setSig h) h

theorem currentOf {x a} (h : s.Bypassed) : (s.currentOf x a).2.Bypassed :=
  .iteSnd h <| .iteSnd (.upd h) <| .iteSnd (.free h) <| .upd h

theorem advance {j ics i} (h : s.Bypassed) : (s.advance j ics i).Bypassed := .ite h <| .ite (.setObs h) <| .setObs h

theorem learn {i o c v hold t} (h : s.Bypassed) : (s.learn i o c v hold t).Bypassed := by
  unfold State.learn
  split
  · exact h
  · exact .ite h <| .ite h <| .ite (.setObs <| .when h .event) <| .setObs h

theorem applyReport {t i r} (h : s.Bypassed) : (s.applyReport t i r).Bypassed :=
  .ite h <| .ite (.event <| .setObs h) <| .monitor <| .setObs <| .ite h <| .learn h

theorem applyReports {t} (h : s.Bypassed) : (s.applyReports t).Bypassed :=
  .ite (.foldl (.foldl h fun _ _ h1 => .setBerth h1) fun _ _ h1 => .applyReport h1) <|
    .foldl h fun _ _ h1 => .setBerth h1

theorem rangeCheck {i} (h : s.Bypassed) : (s.rangeCheck i).Bypassed := .ite h <| .setObs <| .when h .event

theorem redundancy {a} (h : s.Bypassed) : (s.redundancy a).Bypassed :=
  .upd <| .ite (.when (.event <| .when (.set h) .event) .blockRequest) <| .when (.set h) .event

theorem armCounts {a} (h : s.Bypassed) : (s.armCounts a).Bypassed :=
  .redundancy <| .ite (.set <| .set <| .set h) <| .setReg <| .set <| .set <| .set h

theorem availability (h : s.Bypassed) : s.availability.Bypassed :=
  .forUpTo (.foldl h fun _ _ h1 => .setObs h1) fun _ _ h1 => .armCounts h1

theorem dueTargets {k} (h : s.Bypassed) : (s.dueTargets k).Bypassed :=
  .upd <| .foldl (.foldl h fun _ _ h1 => .ite (.setObs h1) h1) fun _ _ h1 => .ite (.ite (.setBerth <| .setObs h1) <|
    .setObs h1) h1

theorem stageB {x} (h : s.Bypassed) : (s.stageB x).Bypassed :=
  .monitor <| .upd <| .availability <| .foldl (.applyReports <| .dueTargets <| .forUpTo (.currentOf <| .currentOf <|
    .foldl
      (.upd h) fun _ _ h1 => .rankApply h1) fun _ _ h1 => .foldl h1 fun _ _ h2 => .advance h2) fun _ _ h1 => .rangeCheck h1

theorem unobservedRounds {p} (h : s.Bypassed) : (s.unobservedRounds p).Bypassed :=
  .foldl h fun _ _ h' => .ite (.setObs h') <| .setObs <| .when h' .event

theorem direction {x a} (h : s.Bypassed) : (s.direction x a).Bypassed := .ite h <| .ite (.set h) <| .ite (.set h) h

theorem stageD {x} (h : s.Bypassed) : (s.stageD x).Bypassed :=
  .upd <| .when (.when (.set <| .set <| .free <| .forUpTo h fun _ _ h' => .direction h') .bump) .bump

/-! The permanent bypass: the modulation step of a hub (11_modulation_edges.md). -/

theorem showProfile (h : s.Bypassed) : s.showProfile.Bypassed :=
  .forUpTo (.set <| .set <| .set <| .set h) fun _ _ h' => .set <| .set h'

theorem profileReject {why} (h : s.Bypassed) : (s.profileReject why).Bypassed :=
  .when (.event <| .bump <| .set h) .event

theorem leadCheck (h : s.Bypassed) : s.leadCheck.Bypassed := .when (.set <| .set <| .set h) .event
theorem portEnabled {p} (h : s.Bypassed) : (s.portEnabled p).Bypassed := .ite h <| .setPort <| .event <| .set h
theorem portStarts (h : s.Bypassed) : s.portStarts.Bypassed := .forUpTo h fun _ _ h' => .ite (.setPort <| .set h') h'

theorem leadChanged {a rep} (h : s.Bypassed) : (s.leadChanged a rep).Bypassed :=
  .showProfile <| .forUpTo h fun _ _ h' => .setPort h'

theorem modeGo {kh} (h : s.Bypassed) : (s.modeGo kh).Bypassed :=
  .ite (.accessErr h) <| .ite (.set <| .set <| .set <| .upd h) <| .set <| .set <| .upd h

theorem modeMeridian {k} (h : s.Bypassed) : (s.modeMeridian k).Bypassed := by
  unfold State.modeMeridian
  split
  · exact .ite (.upd <| .event <| .set <| .set h) h
  · exact h

theorem pcmdGo (h : s.Bypassed) : s.pcmdGo.Bypassed := .ite (.accessErr h) <| .upd <| .set h

theorem levelStep {a m nold free} (h : s.Bypassed) : (s.levelStep a m nold free).2.Bypassed :=
  .iteSnd (.set h) <| .when (.when (.setReg <| .set h) fun h' => .event <| .bump h') .bump

theorem levelBerths {a up anyRoom n e} (h : s.Bypassed) : (s.levelBerths a up anyRoom n e).2.Bypassed := by
  induction n generalizing s e with
  | zero => exact h
  | succ n ih =>
    unfold State.levelBerths
    dsimp only
    split
    · exact ih <| .when (.bump h) .bump
    · exact ih <| .when (.bump h) .bump

theorem placeLevel {a dn realign e} (h : s.Bypassed) : (s.placeLevel a dn realign e).2.2.2.Bypassed :=
  .when (.levelBerths h) .bump

theorem placeSwaps {a base e} (h : s.Bypassed) : (s.placeSwaps a base e).2.Bypassed := .iteSnd h <| .count h
theorem showTrim (h : s.Bypassed) : s.showTrim.Bypassed := .forUpTo h fun _ _ h' => .set <| .set <| .set h'

theorem chooseTrim {a e} (h : s.Bypassed) : (s.chooseTrim a e).Bypassed :=
  .ite h <| .showTrim <| .when (.upd h) .event

theorem placeTrim {a e} (h : s.Bypassed) : (s.placeTrim a e).2.Bypassed := by
  unfold State.placeTrim
  dsimp only
  split
  · exact .chooseTrim h
  · exact .iteSnd (.upd <| .chooseTrim h) <| .upd <| .chooseTrim h

theorem adoptPlan (h : s.Bypassed) : s.adoptPlan.Bypassed := by
  unfold State.adoptPlan
  split
  · exact h
  · exact .showTrim <| .upd <| .foldl h fun _ _ h' => .ite h' <| .setObs h'

theorem showLevel {a n} (h : s.Bypassed) : (s.showLevel a n).Bypassed := .when (.set <| .upd h) .setSig

theorem placeLevels {m realign e} (h : s.Bypassed) : (s.placeLevels m realign e).2.Bypassed :=
  .iteSnd (.forUpToSnd2 h fun _ _ h1 => .showLevel <| .placeLevel <| .levelStep h1) <|
    .forUpToSnd (.forUpToSnd2 h fun _ _ h1 => .showLevel <| .placeLevel <| .levelStep h1) fun _ _ h1 => .placeSwaps h1

theorem placeTrims {e} (h : s.Bypassed) : (s.placeTrims e).2.Bypassed := .forUpToSnd h fun _ _ h' => .placeTrim h'

theorem stageE {x} (h : s.Bypassed) : (s.stageE x).Bypassed := by
  unfold State.stageE
  extract_lets s₁ _ _ _ _ _ s₂ _ _ _ s₃
  have h₁ : s₁.Bypassed := .adoptPlan h
  have h₂ : s₂.Bypassed := .ite h₁ <| .showTrim <| .upd h₁
  have h₃ : s₃.Bypassed := .upd h₂
  exact .upd <| .iteSnd h₃ <| .iteSnd (.showLevel <| .showLevel h₃) <| .placeLevels <| .iteSnd (.placeTrims h₃) h₃

theorem stageDone {i ns} (h : s.Bypassed) : (s.stageDone i ns).Bypassed := .monitorSel <| .upd h

theorem angleSignals {x} (h : s.Bypassed) : (s.angleSignals x).Bypassed :=
  .ite (.setSig <| .ite (.setSig h) h) <| .ite (.setSig h) h

theorem startWork (h : s.Bypassed) : s.startWork.Bypassed := by
  unfold State.startWork
  split
  · exact .stageDone <| .free <| .when (.ramps <| .when (.when (.upd h) fun h' => .rankSignals <|
      .rankSignals h') .angleSignals) .sigFlush
  · exact h

theorem latchSnap {x} (h : s.Bypassed) : (s.latchSnap x).Bypassed := .upd <| .when h fun h' => .event <| .bump h'
theorem restorePlan (h : s.Bypassed) : s.restorePlan.Bypassed := .showTrim <| .upd h

theorem deadlineMiss (h : s.Bypassed) : s.deadlineMiss.Bypassed := by
  unfold State.deadlineMiss
  extract_lets s₁ _ s₂ s₃ _ s₄
  have h₁ : s₁.Bypassed := .restorePlan h
  have h₂ : s₂.Bypassed := .upd h₁
  have h₃ : s₃.Bypassed := .event <| .bump <| .bump h₂
  have h₄ : s₄.Bypassed := .when h₃ fun h' => .health <| .event h'
  exact .ite (.when h₄ .blockRequest) h₃

theorem readyTest (h : s.Bypassed) : s.readyTest.Bypassed := .ite h <| .ite (.set h) <| .deadlineMiss h

end Sys2Proof.Machine.State.Bypassed
end

section
/-! PROOFS. The permanent bypass (R477) through the tree, the scheduler, twins and the referee:
one rule per function of the model, in the order of the model. -/

namespace Sys2Proof.Machine.State.Bypassed

variable {s : State}

/-! The permanent bypass: the tree ports downstream (09_tree_frames.md). -/

theorem drawGroup {p} (h : s.Bypassed) : (s.drawGroup p).Bypassed := .ite h <| .setPort <| .free h

theorem imageSent {p} (h : s.Bypassed) : (s.imageSent p).Bypassed :=
  .ite (.setPort h) <| .ite (.setPort h) <| .event <| .bump <| .setPort h

theorem grantTo {p n slots berths} (h : s.Bypassed) : (s.grantTo p n slots berths).Bypassed := by
  fun_induction State.grantTo s p n slots berths with
  | case1 => exact h
  | case2 => exact h
  | case3 s m ms b bs _ ih => exact ih h
  | case4 s m ms b bs _ ih => exact ih (.setPort h)

theorem grantsFor {p n} (h : s.Bypassed) : (s.grantsFor p n).Bypassed := .ite h <| .grantTo <| .setPort h
theorem ownWatch (h : s.Bypassed) : s.ownWatch.Bypassed := .ite (.set <| .set h) h

theorem stageF {x ns} (h : s.Bypassed) : (s.stageF x ns).Bypassed :=
  .upd <| .ite (.forUpTo (.set <| .set h) fun _ _ h' => .ite (.set <| .setPort <| .grantsFor <| .ownWatch <|
    .drawGroup h') h') <| .restorePlan <| .set <| .set h

theorem answer {p src code index data} (h : s.Bypassed) : (s.answer p src code index data).Bypassed := by
  unfold State.answer
  split
  · exact h
  · exact h
  · exact .forUpTo (.set <| .set <| .set <| .setPort h) fun _ _ h' => .setReg h'
  · split
    · exact .upd h
    · exact h

theorem recordsSent {p n l} (h : s.Bypassed) : (s.recordsSent p n l).Bypassed :=
  .foldl (.setPort h) fun _ _ h' => .ite (.answer h') h'

theorem carriedOut {p n c} (h : s.Bypassed) : (s.carriedOut p n c).Bypassed :=
  .refill <| .when (.setPort <| .recordsSent h) .imageSent

theorem launchPort {k p} (h : s.Bypassed) : (s.launchPort k p).Bypassed := .ite (.setPort h) <| by
      split
      · exact .setPort h
      · exact .monitorSel <| .free <| .setPort <| .setPort <| .ltAdd <| .carriedOut <| .set <| .when (.set <|
          .count <| .drawGroup h) fun h' => .event <| .bump h'

theorem recordLaunch {inTime} (h : s.Bypassed) : (s.recordLaunch inTime).Bypassed := .ite (by
        split
        · dsimp only
          split
          · exact .upd <| .set <| .foldl (.upd h) fun _ _ h' => .setObs h'
          · exact .foldl (.upd h) fun _ _ h' => .setObs h'
        · exact h) <| by
      split
      · exact .upd h
      · exact h

theorem launchAll {k} (h : s.Bypassed) : (s.launchAll k).Bypassed :=
  .upd <| .recordLaunch <| .forUpTo (.when (.portStarts h) .deadlineMiss) fun _ _ h' => .launchPort h'

/-! The permanent bypass: the hardware scheduler (19_scheduler.md). -/

theorem setQueue {q l} (h : s.Bypassed) : (s.setQueue q l).Bypassed := .upd h
theorem setList {d l} (h : s.Bypassed) : (s.setList d l).Bypassed := .upd h
theorem freeSlot {slot} (h : s.Bypassed) : (s.freeSlot slot).Bypassed := .upd h

theorem newSlot (h : s.Bypassed) : s.newSlot.2.Bypassed := by
  unfold State.newSlot
  dsimp only
  split
  · exact .free h
  · exact .free h

theorem enqueue {it} (h : s.Bypassed) : (s.enqueue it).Bypassed := .when (.setQueue h) .event
theorem poolCheck {before} (h : s.Bypassed) : (s.poolCheck before).Bypassed := .when h .event
theorem listInsert {d it} (h : s.Bypassed) : (s.listInsert d it).Bypassed := .setList h
theorem subResult {path handle code} (h : s.Bypassed) : (s.subResult path handle code).Bypassed := .upd h
theorem subRefuse {path code} (h : s.Bypassed) : (s.subRefuse path code).Bypassed := .event <| .subResult h

theorem submit {path cmd} (h : s.Bypassed) : (s.submit path cmd).Bypassed :=
  .ite (.subRefuse h) <| .ite (.subRefuse h) <| .ite (.subRefuse h) <| .subResult <| .when (.poolCheck <|
    .ite (.listInsert <| .newSlot h) <| .enqueue <| .newSlot h) fun h' => .event <| .bump h'

theorem hwQueued {q flow arg} (h : s.Bypassed) : (s.hwQueued q flow arg).2.Bypassed :=
  .iteSnd h <| .poolCheck <| .enqueue <| .newSlot h

theorem arrive {q flow arg} (h : s.Bypassed) : (s.arrive q flow arg).Bypassed :=
  .ite h <| .ite (.upd h) <| .ite (.hwQueued h) <| .ite (.bump h) <| .upd h

theorem retryHeld (h : s.Bypassed) : s.retryHeld.Bypassed := .foldl h fun _ _ h' => .ite (.upd <| .hwQueued h') h'

theorem complete {it} (h : s.Bypassed) : (s.complete it).Bypassed := by
  unfold State.complete
  dsimp only
  split
  · exact .ite (.freeSlot <| .upd h) <| .listInsert <| .when (.upd h) fun h' => .event <| .bump h'
  · exact .freeSlot <| .upd h

theorem schgDone {x0} (h : s.Bypassed) : (s.schgDone x0).Bypassed := by
  unfold State.schgDone
  split
  · exact .complete h
  · exact .event <| .bump h

theorem hwDone {q p} (h : s.Bypassed) : (s.hwDone q p).Bypassed := by
  unfold State.hwDone
  split
  · exact .complete h
  · split
    · exact .freeSlot <| .setQueue h
    · exact .upd h

theorem canResult {path code} (h : s.Bypassed) : (s.canResult path code).Bypassed := .upd h
theorem dropItems {p} (h : s.Bypassed) : (s.dropItems p).Bypassed := .foldl (.upd h) fun _ _ h' => .freeSlot h'

theorem schgCancel {path x1} (h : s.Bypassed) : (s.schgCancel path x1).Bypassed := by
  unfold State.schgCancel
  split
  · exact .canResult h
  · exact .ite (.canResult <| .upd h) <| .canResult <| .dropItems h

theorem schqFlush {q} (h : s.Bypassed) : (s.schqFlush q).Bypassed := .event <| .dropItems h

theorem releaseDue {t fuel stuck} (h : s.Bypassed) : (s.releaseDue t fuel stuck).Bypassed := by
  induction fuel generalizing s stuck with
  | zero => exact h
  | succ k ih =>
    unfold State.releaseDue
    split
    · exact h
    · exact .ite (ih <| .bump h) <| ih <| .enqueue <| .setList h

theorem ticks (h : s.Bypassed) : s.ticks.Bypassed := .ite (.releaseDue h) h
theorem reload {c} (h : s.Bypassed) : (s.reload c).Bypassed := .forUpTo h fun _ _ h' => .ite (.set h') h'
theorem choose {w l} (h : s.Bypassed) : (s.choose w l).2.Bypassed := .iteSnd h <| .ite (.reload h) h

theorem remoteTake {it} (h : s.Bypassed) : (s.remoteTake it).Bypassed := by
  unfold State.remoteTake
  dsimp only
  split
  · exact .ite (.complete h) <| .when (.mgmtQueue h) .complete
  · exact .complete h

theorem dispatchFrom {w q} (h : s.Bypassed) : (s.dispatchFrom w q).Bypassed := by
  unfold State.dispatchFrom
  split
  · exact h
  · extract_lets s₁ s₂ s₃
    have h₁ : s₁.Bypassed := .setQueue h
    have h₂ : s₂.Bypassed := .set h₁
    have h₃ : s₃.Bypassed := .count h₂
    split
    next _ s₄ heq =>
    have h₄ : s₄.Bypassed := .ofSnd heq <| .free h₃
    extract_lets _ s₅ s₆ _ s₇ s₈
    have h₅ : s₅.Bypassed := .set <| .set h₄
    have h₆ : s₆.Bypassed := .monitor h₅
    have h₇ : s₇.Bypassed := .upd h₆
    have h₈ : s₈.Bypassed := .when h₇ .event
    split
    · exact .upd h₈
    · exact .remoteTake h₇
    · exact .ite h₇ <| .complete h₇

theorem dispatch {w fuel} (h : s.Bypassed) : (s.dispatch w fuel).Bypassed := by
  induction fuel generalizing s with
  | zero => exact h
  | succ k ih =>
    unfold State.dispatch
    split
    · exact h
    · split
      · next heq => exact ih <| .dispatchFrom <| .ofSnd heq <| .choose h
      · next heq => exact .ofSnd heq <| .choose h

theorem schedulerStep (h : s.Bypassed) : s.schedulerStep.Bypassed :=
  .forUpTo (.ticks <| .retryHeld h) fun _ _ h' => .dispatch h'

theorem itemStuck {slot} (h : s.Bypassed) : (s.itemStuck slot).Bypassed := by
  unfold State.itemStuck
  split
  · exact h
  · exact .errArrive <| .bump <| .event <| .upd <| .timerEnds h

theorem reportItems {i cyc evflags} (h : s.Bypassed) : (s.reportItems i cyc evflags).Bypassed :=
  .when (.arrive h) .arrive

/-! The permanent bypass: the hub's side of admission (10_tree_admission.md). -/

theorem stranger {f} (h : s.Bypassed) : (s.stranger f).Bypassed := .event <| .bump h
theorem refused {p} (h : s.Bypassed) : (s.refused p).Bypassed := .event <| .bump h
theorem refuse {p id reason} (h : s.Bypassed) : (s.refuse p id reason).Bypassed := .refused <| .setPort h
theorem moveSlot {i r old} (h : s.Bypassed) : (s.moveSlot i r old).Bypassed := .setPort h
theorem toBerth {i rtype body} (h : s.Bypassed) : (s.toBerth i rtype body).Bypassed := .hubRecord h
theorem hubRead {i addr nw} (h : s.Bypassed) : (s.hubRead i addr nw).Bypassed := .toBerth h
theorem sendKey {i key ksw} (h : s.Bypassed) : (s.sendKey i key ksw).Bypassed := .toBerth h
theorem sendDelay {i} (h : s.Bypassed) : (s.sendDelay i).Bypassed := .leadCheck <| .toBerth h
theorem computeDelays {i} (h : s.Bypassed) : (s.computeDelays i).Bypassed := .setBerth h

theorem abandon {i} (h : s.Bypassed) : (s.abandon i).Bypassed := by
  unfold State.abandon
  dsimp only
  split
  · exact h
  · exact .setBerth <| .refill <| .setPort h

theorem admissionFailed {i} (h : s.Bypassed) : (s.admissionFailed i).Bypassed := .bump <| .abandon h

theorem sendOffer {i} (h : s.Bypassed) : (s.sendOffer i).Bypassed := by
  unfold State.sendOffer
  -- a variable for the search of a round, which the kernel would otherwise run on its fuel
  obtain ⟨search, hsearch⟩ : ∃ f, f = s.offerRound := ⟨_, rfl⟩
  rw [← hsearch]
  extract_lets p b
  clear_value p b
  split
  · exact h
  · split
    · exact h
    · exact .setPort <| .setBerth h

theorem refuseNew {p id} (h : s.Bypassed) : (s.refuseNew p id).Bypassed := .refuse <| .when h .bump

theorem beginAdmission {i id enrol rom rttc imgver img new upl} (h : s.Bypassed) :
    (s.beginAdmission i id enrol rom rttc imgver img new upl).Bypassed :=
  .ite (.refuse h) <| .ite (.refuseNew h) <| .ite (.refuse h) <| .ite h <| .sendOffer <| .setBerth h

theorem boardingRx {p pl arrival} (h : s.Bypassed) : (s.boardingRx p pl arrival).Bypassed := .ite (.stranger h) <| by
      split
      · exact .ite (by
              split
              · exact .ite h <| .setPort h
              · exact h) <| .ite (.beginAdmission h) <| .stranger h
      · exact .ite (by
              split
              · exact .beginAdmission h
              · exact .ite (.refuseNew h) <| .refuse h) <| .stranger h

theorem rangingRx {p berth pl arrival phase align} (h : s.Bypassed) :
    (s.rangingRx p berth pl arrival phase align).Bypassed := by
  unfold State.rangingRx
  dsimp only
  split
  · exact h
  · exact .ite h <| .sendDelay <| .computeDelays <| .setPort <| .setBerth h

theorem rangingTimeout {i} (h : s.Bypassed) : (s.rangingTimeout i).Bypassed := by
  unfold State.rangingTimeout
  extract_lets
  split
  · exact h
  · exact .ite h <| .ite (.admissionFailed h) <| .sendOffer <| .setBerth h

theorem sendKxh {i} (h : s.Bypassed) : (s.sendKxh i).2.Bypassed := by
  unfold State.sendKxh
  exact .toBerth <| .kxOwn <| .drawScalar h

theorem delayAnswered {i} (h : s.Bypassed) : (s.delayAnswered i).Bypassed := by
  unfold State.delayAnswered
  split
  · exact .ite (.setBerth <| .sendKxh h) h
  · exact h

theorem closeRecord {p r} (h : s.Bypassed) : (s.closeRecord p r).Bypassed := .setPort h

theorem kxhChunk {p r j data} (h : s.Bypassed) : (s.kxhChunk p r j data).Bypassed := by
  unfold State.kxhChunk
  extract_lets
  split
  · extract_lets _ s₁ s₂ s₃
    have h₁ : s₁.Bypassed := .setBerth h
    have h₂ : s₂.Bypassed := .closeRecord h₁
    have h₃ : s₃.Bypassed := .drawGroup h₂
    split
    · exact h₁
    · split
      · exact .admissionFailed h₂
      · exact .sendKey <| .setBerth h₃
  · extract_lets _ s₁ s₂
    have h₁ : s₁.Bypassed := .setBerth h
    have h₂ : s₂.Bypassed := .closeRecord h₁
    split
    · exact h₁
    · split
      · exact .setBerth h₂
      · extract_lets s₃
        have h₃ : s₃.Bypassed := .setBerth h₂
        exact .event <| .sendKey h₃
  · exact h

theorem admitted {i} (h : s.Bypassed) : (s.admitted i).Bypassed := by
  unfold State.admitted
  dsimp only
  split
  · exact h
  · exact .admissionFailed h
  · exact .autoDeblock <| .hubRead <| .event <| .obsAdmit <| .moveSlot <| .setBerth h

theorem renewGroup {p} (h : s.Bypassed) : (s.renewGroup p).Bypassed :=
  .ite h <| .foldl (.setPort <| .free h) fun _ _ h' => .sendKey <| .setBerth h'

theorem renewRound {p n} (h : s.Bypassed) : (s.renewRound p n).Bypassed := by
  unfold State.renewRound
  split
  · exact h
  · exact .ite (.event <| .count <| .setPort h) <| .ite (.foldl h fun _ _ h' => .ite h' <| .sendKey h') h

theorem keyAcknowledged {i r} (h : s.Bypassed) : (s.keyAcknowledged i r).Bypassed := by
  unfold State.keyAcknowledged
  split
  · exact .ite (.setBerth h) h
  · exact h

theorem renewSession {i} (h : s.Bypassed) : (s.renewSession i).Bypassed := .ite (.setBerth <| .sendKxh h) h
theorem deblockAnswered {i code} (h : s.Bypassed) : (s.deblockAnswered i code).Bypassed := .when (.upd h) .bump

theorem remoteAnswer {p r} (h : s.Bypassed) : (s.remoteAnswer p r).Bypassed := by
  unfold State.remoteAnswer
  extract_lets
  split
  · exact h
  · exact .deblockAnswered h
  · exact .arrive <| .answer h
  · exact .hwDone <| .answer h

theorem killBerth {i} (h : s.Bypassed) : (s.killBerth i).Bypassed := .setPort h

theorem dropRecords {i} (h : s.Bypassed) : (s.dropRecords i).Bypassed :=
  .foldl (.refill <| .setPort h) fun _ _ h' => .remoteAnswer <| .bump h'

theorem release {i} (h : s.Bypassed) : (s.release i).Bypassed :=
  .obsRelease <| .setBerth <| .dropRecords <| .killBerth <| .abandon h

theorem endLink {i} (h : s.Bypassed) : (s.endLink i).Bypassed := .setBerth <| .dropRecords <| .refused <| .setPort h

theorem recheckImage {i} (h : s.Bypassed) : (s.recheckImage i).Bypassed :=
  .ite (.endLink h) <| .autoDeblock <| .setBerth h

theorem bootEnded {i} (h : s.Bypassed) : (s.bootEnded i).Bypassed := .ite h <| .hubRead <| .hubRead <| .setBerth h

theorem hubWords {i addr data learn} (h : s.Bypassed)
    (hl : ∀ t x, t.Bypassed → (learn t x : State).Bypassed) : (s.hubWords i addr data learn).Bypassed := by
  have hs : (if addr = R.BOOT_ID_LO then
        s.setBerth i { s.berth i with
          imgid := idOfWords (BitVec.ofNat 32 (ofBe ((data.drop (4 * 0)).take 4)))
            (BitVec.ofNat 32 (ofBe ((data.drop (4 * 1)).take 4)))
          recheck := (s.berth i).recheck - 2 }
      else if addr = R.BOOT_RUN then
        s.setBerth i { s.berth i with
          linkver := ofBe ((data.drop (4 * 0)).take 4) / 65536, recheck := (s.berth i).recheck - 1 }
      else s).Bypassed := .ite (.setBerth h) <| .ite (.setBerth h) h
  exact .ite (hl _ _ h) <| .ite (.recheckImage hs) hs

theorem recordAnswered {p r code index data learn} (h : s.Bypassed)
    (hl : ∀ t x, t.Bypassed → (learn t x : State).Bypassed) : (s.recordAnswered p r code index data learn).Bypassed :=
      by
  refine .ite (.ite (.kxhChunk h) h) ?_
  have hs : (s.closeRecord p r).Bypassed := .closeRecord h
  dsimp only
  split
  · exact .deblockAnswered hs
  · exact .ite (.ite (.ite (.admitted hs) (.admissionFailed hs)) (.ite (.keyAcknowledged hs) hs)) <|
      .ite (.delayAnswered hs) <| .ite (.hubWords hs hl) hs
  · exact .arrive <| .answer hs
  · exact .hwDone <| .answer hs

theorem mgmtBurst {p berth pl learn} (h : s.Bypassed)
    (hl : ∀ t x, t.Bypassed → (learn t x : State).Bypassed) : (s.mgmtBurst p berth pl learn).Bypassed := by
  unfold State.mgmtBurst
  dsimp only
  split
  · exact .setBerth <| .event <| .bump h
  · exact .recordAnswered h hl

theorem remoteTimeout {p tid} (h : s.Bypassed) : (s.remoteTimeout p tid).Bypassed := by
  unfold State.remoteTimeout
  split
  · exact h
  · extract_lets _ s₁ s₂
    have h₁ : s₁.Bypassed := .reach h
    have h₂ : s₂.Bypassed := .event <| .bump <| .closeRecord h₁
    exact .ite (.remoteAnswer h₂) <| .ite (.admissionFailed h₂) <| .ite (.setBerth h₂) h₂

theorem mailboxGo {p} (h : s.Bypassed) : (s.mailboxGo p).Bypassed :=
  .ite (.accessErr h) <| .ite h <| .ite (.accessErr h) <| .ite (.bump <| .set <| .set h) <| .set <| .set <|
    .setPort <| .mgmtQueue h

theorem setWindow {p on} (h : s.Bypassed) : (s.setWindow p on).Bypassed := by
  unfold State.setWindow
  extract_lets _ s₁ _ s₂
  have h₁ : s₁.Bypassed := .set h
  have h₂ : s₂.Bypassed := .setPort h₁
  exact .ite (.event h₂) <| .ite (.event h₂) h₂

theorem berthDisabled (h : s.Bypassed) : s.berthDisabled.Bypassed :=
  .forUpTo (.foldl h fun _ _ h1 => .abandon h1) fun _ _ h1 => .set <| .setPort h1

theorem berthRd (h : s.Bypassed) : s.berthRd.Bypassed := .forUpTo h fun _ _ h' => .setReg h'
theorem berthClr (h : s.Bypassed) : s.berthClr.Bypassed := .setBerth h

theorem berthWr {guard} (h : s.Bypassed) : (s.berthWr guard).Bypassed := by
  unfold State.berthWr
  extract_lets _ _ _ _ _ _ _ _ s₁ _ s₂ s₃ _ _ _ s₄ _ s₅
  have h₁ : s₁.Bypassed := .setBerth h
  have h₂ : s₂.Bypassed := .setBerth h₁
  have h₃ : s₃.Bypassed := .ite h₁ <| .ite (.accessErr h₁) <| .ite (.moveSlot h₂) h₂
  have h₄ : s₄.Bypassed := .when h₃ .event
  have h₅ : s₅.Bypassed := .release h₄
  exact .ite h₃ <| .ite (.accessErr h₃) <| .ite (.setBerth h₅) <| .setBerth h₄

/-! The permanent bypass: terminals and the debug UART (02_pins_package.md). -/

theorem uartStops (h : s.Bypassed) : s.uartStops.Bypassed := .ite h <| .upd h
theorem gpioFnSet {n fn} (h : s.Bypassed) : (s.gpioFnSet n fn).Bypassed := .ite (.uartStops <| .set h) <| .accessErr h

theorem uartNext (h : s.Bypassed) : s.uartNext.Bypassed := by
  unfold State.uartNext
  split
  · exact .upd h
  · exact .upd h

theorem uartPut {b} (h : s.Bypassed) : (s.uartPut b).Bypassed :=
  .ite (.accessErr h) <| .ite (.uartNext <| .upd h) <| .upd h

theorem uartGet (h : s.Bypassed) : s.uartGet.2.Bypassed := by
  unfold State.uartGet
  split
  · exact h
  · exact .upd h

/-! The permanent bypass: twin hubs (18_twins_referee.md). -/

theorem timeSource {n} (h : s.Bypassed) : (s.timeSource n).Bypassed := .when h .set
theorem unready (h : s.Bypassed) : s.unready.Bypassed := .upd <| .set h
theorem checkReady {nuse} (h : s.Bypassed) : (s.checkReady nuse).Bypassed := .ite (.event <| .set h) h

theorem becomeStandby (h : s.Bypassed) : s.becomeStandby.Bypassed :=
  .ite h <| .event <| .count <| .timeSource <| .upd <| .set <| .unready h

theorem coldTakeover (h : s.Bypassed) : s.coldTakeover.Bypassed :=
  .showTrim <| .upd <| .foldl (.forUpTo h fun _ _ h1 => .zeroChain h1) fun _ _ h1 => .setObs h1

theorem becomeActive {why} (h : s.Bypassed) : (s.becomeActive why).Bypassed :=
  .ite h <| .when (.event <| .set <| .set <| .set <| .count <| .upd <| .timeSource <| .unready <| .setReg <|
    .setReg h) .coldTakeover

theorem setOwn {w} (h : s.Bypassed) : (s.setOwn w).Bypassed := .set <| .set h

theorem learnWatch {w} (h : s.Bypassed) : (s.learnWatch w).Bypassed := .ite h <| by
      extract_lets s₁
      have h₁ : s₁.Bypassed := .set h
      exact .ite h₁ <| .ite (.set <| .setOwn h₁) <| .ite (.set <| .setOwn h₁) <| .event <| .becomeStandby h₁

theorem takeControl {why} (h : s.Bypassed) : (s.takeControl why).Bypassed := .becomeActive <| .setOwn h
theorem twinSend {type body} (h : s.Bypassed) : (s.twinSend type body).Bypassed := .ite h <| .upd h
theorem twinDrop {w} (h : s.Bypassed) : (s.twinDrop w).Bypassed := .bump h

theorem twinRx {t bs f} (h : s.Bypassed) (hf : ∀ t b, t.Bypassed → (f t b : State).Bypassed) :
    (s.twinRx t bs f).Bypassed := by
  refine .ite h <| .ite (.twinDrop h) <| .ite h <| .ite (.twinDrop h) <| .ite (.ite (hf _ _ h) <| .twinDrop h) ?_
  split
  · exact .twinDrop h
  · exact .ite (.twinDrop h) <| .ite (.twinDrop h) <| hf _ _ <| .upd h

theorem twinDropBond (h : s.Bypassed) : s.twinDropBond.Bypassed := .twinLost <| .set <| .set h
theorem sendHello (h : s.Bypassed) : s.sendHello.Bypassed := .twinSend h

theorem twinKeyed {x eA eB idA idB} (h : s.Bypassed) : (s.twinKeyed x eA eB idA idB).Bypassed :=
  .sendHello <| .set <| .upd h

theorem twinKx {str} (h : s.Bypassed) : (s.twinKx str).Bypassed := by
  unfold State.twinKx
  dsimp only
  exact .ite h <| .ite (.twinDropBond <| .peerRefused h) <| by
      split
      · exact .twinDropBond <| .peerRefused h
      · exact .ite (.twinKeyed h) <| .twinKeyed <| .twinSend <| .kxOwn h

theorem twinHello {b} (h : s.Bypassed) : (s.twinHello b).Bypassed := .set <| .set <| .set <| .set h
theorem sendStatus {k} (h : s.Bypassed) : (s.sendStatus k).Bypassed := .ite h <| .ite (.twinSend h) <| .twinSend h

theorem dualActive {t} (h : s.Bypassed) : (s.dualActive t).Bypassed :=
  .ite h <| .ite (.when (.becomeStandby h) .event) <| .ite (.when (.event h) .becomeStandby) h

theorem twinStatus {b} (h : s.Bypassed) : (s.twinStatus b).Bypassed := by
  unfold State.twinStatus
  extract_lets _ _ _ s₁ s₂ s₃
  have h₁ : s₁.Bypassed := .upd h
  have h₂ : s₂.Bypassed := .set h₁
  have h₃ : s₃.Bypassed := .learnWatch <| .dualActive h₂
  exact .ite (.upd h₃) h₃

theorem mirrorWord {w} (h : s.Bypassed) : (s.mirrorWord w).2.2.Bypassed :=
  .iteSnd2 h <| .iteSnd2 h <| .iteSnd2 h <| by
      split
      · exact .fetch h
      · exact h

theorem mirrorGeometry (h : s.Bypassed) : s.mirrorGeometry.Bypassed :=
  .ite h <| .ite h <| .when (.set <| .set <| .set <| .upd h) .event

theorem sliceCapture (h : s.Bypassed) : s.sliceCapture.Bypassed :=
  .ite h <| .upd <| .set <| .foldlSnd2 h fun _ _ h' => .mirrorWord h'

theorem sendSlices {c fuel o n} (h : s.Bypassed) : (s.sendSlices c fuel o n).Bypassed := by
  induction fuel generalizing s o n with
  | zero => exact h
  | succ k ih => exact .ite h <| ih <| .twinSend h

theorem sliceSend (h : s.Bypassed) : s.sliceSend.Bypassed := by
  unfold State.sliceSend
  split
  · exact h
  · exact .ite (.upd h) <| .ite (.upd <| .sendSlices h) <| .upd <| .ite (.sendSlices h) <| .twinSend <| .upd <|
      .sendSlices h

theorem sliceDiscard {idx} (h : s.Bypassed) : (s.sliceDiscard idx).Bypassed := .upd <| .unready <| .event <| .bump h
theorem twinSlice {b} (h : s.Bypassed) : (s.twinSlice b).Bypassed := .ite h <| .upd h

theorem twinCommit {b} (h : s.Bypassed) : (s.twinCommit b).Bypassed := .ite h <| by
      extract_lets _ _ _ _ _ _ _ _ _ _ s₁ s₂ s₃ _ s₄
      have h₁ : s₁.Bypassed := .upd h
      have h₂ : s₂.Bypassed := .foldl h₁ fun _ _ h' => .sliceDiscard h'
      have h₃ : s₃.Bypassed := .unready h₂
      have h₄ : s₄.Bypassed := .ite h₂ <| .upd h₃
      split
      · exact .ite (.upd h₄) <| .sliceDiscard h₄
      · exact .sliceDiscard h₄

theorem applyPageWord {pg j active v} (h : s.Bypassed) : (s.applyPageWord pg j active v).Bypassed := by
  unfold State.applyPageWord
  dsimp only
  split
  · exact h
  · exact .ite h <| .ite (.upd h) <| .ite (.setFe h) <| .ite (.setFe h) <| .ite (.setFe h) <| .setReg h

theorem applyBerthWord {i w v} (h : s.Bypassed) : (s.applyBerthWord i w v).Bypassed := .setBerth h
theorem applyRankWord {i w v} (h : s.Bypassed) : (s.applyRankWord i w v).Bypassed := .setObs h

theorem applyMirrorWord {pages nb nr rg w v} (h : s.Bypassed) : (s.applyMirrorWord pages nb nr rg w v).Bypassed :=
  .ite (.applyPageWord h) <| .ite (.applyBerthWord h) <| .ite (.applyRankWord h) <| by
      split
      · exact .store h
      · exact h

theorem sliceApply {g data} (h : s.Bypassed) : (s.sliceApply g data).Bypassed := by
  unfold State.sliceApply
  extract_lets _ _ _ _ _ _ _ s₁ s₂ s₃ _ s₄
  have h₁ : s₁.Bypassed := .foldl h fun _ _ h' => .applyMirrorWord h'
  have h₂ : s₂.Bypassed := .when h₁ .leadChanged
  have h₃ : s₃.Bypassed := .count <| .set h₂
  have h₄ : s₄.Bypassed := .upd h₃
  exact .ite (.unready h₄) <| .checkReady <| .upd h₄

theorem mirrorApply (h : s.Bypassed) : s.mirrorApply.Bypassed := .ite h <| .foldl (.upd h) fun _ _ h' => by
      split
      · exact .sliceApply h'
      · exact h'

theorem slackEnd (h : s.Bypassed) : s.slackEnd.Bypassed := by
  unfold State.slackEnd
  split
  · exact .ite (.monitorSel <| .upd <| .set h) h
  · exact h

theorem steer (h : s.Bypassed) : s.steer.Bypassed := .upd <| .set <| .set <| .free h

/-! The permanent bypass: the referee and its links (18_twins_referee.md). -/

theorem refereeRx {t bs f} (h : s.Bypassed) (hf : ∀ t b, t.Bypassed → (f t b : State).Bypassed) :
    (s.refereeRx t bs f).Bypassed := by
  unfold State.refereeRx
  split
  · exact h
  · exact .bump h
  · exact .bump h
  · exact .bump h
  · refine hf _ _ <| .count <| .upd ?_
    split
    · exact .monitorSel h
    · exact h

theorem staleCmd (h : s.Bypassed) : s.staleCmd.Bypassed := .event <| .bump h

theorem takeCmd {b} (h : s.Bypassed) : (s.takeCmd b).Bypassed :=
  .ite (.staleCmd h) <| .when (.becomeActive <| .event <| .set <| .setOwn h) .learnWatch

theorem yieldCmd {b} (h : s.Bypassed) : (s.yieldCmd b).Bypassed :=
  .ite (.staleCmd h) <| .becomeStandby <| .event <| .set <| .when h .set

theorem hubHeartbeat (h : s.Bypassed) : s.hubHeartbeat.Bypassed := by
  unfold State.hubHeartbeat
  dsimp only
  exact .ite (.upd h) <| .upd <| .kxOwn <| .iteSnd (.drawScalar h) h

theorem intervalEnd (h : s.Bypassed) : s.intervalEnd.Bypassed := .ite (.event <| .set <| .upd h) <| .upd h

theorem hubKx {b} (h : s.Bypassed) : (s.hubKx b).Bypassed := .ite h <| .ite (.bump h) <| by
      dsimp only
      split
      · exact .upd h
      · exact .ite (.peerRefused <| .upd h) <| by
            split
            · exact .peerRefused <| .upd h
            · exact .set <| .upd h

theorem setRefLink {l x} (h : s.Bypassed) : (s.setRefLink l x).Bypassed := .upd h
theorem setRefPair {p x} (h : s.Bypassed) : (s.setRefPair p x).Bypassed := .upd h

theorem commandPair {p x1 w y why} (h : s.Bypassed) : (s.commandPair p x1 w y why).Bypassed :=
  .setRefPair <| .set <| .set <| .set <| .set h

theorem takeMade {p failed} (h : s.Bypassed) : (s.takeMade p failed).Bypassed := by
  unfold State.takeMade
  extract_lets s₁ s₂
  have h₁ : s₁.Bypassed := .event <| .bump h
  have h₂ : s₂.Bypassed := .ltAdd h₁
  split
  · exact .set h₂
  · exact h₂

theorem hubFailed {p x1 why} (h : s.Bypassed) : (s.hubFailed p x1 why).Bypassed :=
  .ite (.takeMade <| .commandPair h) <| .setRefPair <| .set <| .event <| .bump h

theorem pairInterval {p} (h : s.Bypassed) : (s.pairInterval p).Bypassed := by
  unfold State.pairInterval
  extract_lets
  split
  · exact .ite (.set <| .setRefPair h) <| .setRefPair h
  · split
    · exact .ite (.hubFailed h) <| .set h
    · exact h
  · exact h

theorem sendLink {p x1} (h : s.Bypassed) : (s.sendLink p x1).Bypassed := by
  unfold State.sendLink
  extract_lets
  split
  · exact h
  · exact .setRefLink h

theorem outcome {p x1} (h : s.Bypassed) : (s.outcome p x1).Bypassed :=
  .ite (.set <| .setRefPair <| .setRefPair h) <| .setRefPair h

theorem witnessHb {p w} (h : s.Bypassed) : (s.witnessHb p w).Bypassed := .setRefPair h

theorem judgeHb {p x1} (h : s.Bypassed) : (s.judgeHb p x1).Bypassed := by
  unfold State.judgeHb
  extract_lets _ _ _ _ _ s₁
  have h₁ : s₁.Bypassed := .ite (.bump <| .commandPair h) h
  exact .ite h <| .ite (.bump <| .commandPair h) <| .ite (.ite (.hubFailed h₁) h₁) <| .ite (.hubFailed h) h

theorem linkHb {l b} (h : s.Bypassed) : (s.linkHb l b).Bypassed := by
  unfold State.linkHb
  extract_lets _ _ s₁ _ s₂ s₃ s₄ s₅ _ s₆ s₇ s₈
  have h₁ : s₁.Bypassed := by
    unfold s₁
    split
    · exact .monitorSel h
    · exact h
  have h₂ : s₂.Bypassed := .setRefLink h₁
  have h₃ : s₃.Bypassed := .set <| .set <| .count h₂
  have h₄ : s₄.Bypassed := .setReg <| .set h₃
  have h₅ : s₅.Bypassed := .set <| .set h₄
  have h₆ : s₆.Bypassed := .setRefPair h₅
  have h₇ : s₇.Bypassed := .outcome h₆
  have h₈ : s₈.Bypassed := .when h₇ .witnessHb
  exact .ite h₆ <| .judgeHb h₈

theorem linkKx {l b} (h : s.Bypassed) : (s.linkKx l b).Bypassed := by
  unfold State.linkKx
  extract_lets _ _ _ _ s₁ s₂
  have h₁ : s₁.Bypassed := .setRefLink h
  have h₂ : s₂.Bypassed := .setRefLink h₁
  exact .ite (.bump h) <| by
      split
      · exact h₁
      · extract_lets
        exact .ite (.peerRefused h₂) <| by
            split
            next _ s₃ heq =>
            have h₃ : s₃.Bypassed := .ofSnd heq <| .drawScalar h₂
            split
            · exact .peerRefused h₃
            · extract_lets
              split
              next _ s₄ heq =>
              have h₄ : s₄.Bypassed := .ofSnd heq <| .kxOwn h₃
              extract_lets
              exact .set <| .setRefLink h₄

theorem linkMissed {l} (h : s.Bypassed) : (s.linkMissed l).Bypassed :=
  .ite (.hubFailed <| .set <| .bump <| .when h .event) <| .set <| .bump <| .when h .event

theorem listenAfresh (h : s.Bypassed) : s.listenAfresh.Bypassed :=
  .forUpTo h fun _ _ h' => .setRefPair <| .set <| .set h'

theorem listenEnd {p} (h : s.Bypassed) : (s.listenEnd p).Bypassed := by
  unfold State.listenEnd
  extract_lets _ _ _ adopt
  have hadopt : ∀ i, (adopt i).Bypassed := fun _ => .setRefPair <| .set <| .set <| .set h
  exact .ite (hadopt _) <| .ite (hadopt _) <| .ite (hadopt _) <| .takeMade <| .commandPair h

/-! The permanent bypass: upstream bursts, rounds and the babbler search (10_tree_admission.md). -/

theorem burstLight {p berth} (h : s.Bypassed) : (s.burstLight p berth).Bypassed :=
  .ite (.setLane <| .set <| .set h) <| .set <| .set h

theorem burstDrop {p slot n c} (h : s.Bypassed) : (s.burstDrop p slot n c).Bypassed := by
  unfold State.burstDrop
  extract_lets s₁ s₂
  have h₁ : s₁.Bypassed := .event <| .bump h
  have h₂ : s₂.Bypassed := .ite (.stranger h₁) h₁
  split
  · exact h₂
  · extract_lets
    exact .setBerth h₂

theorem phaseRefresh {i phase align} (h : s.Bypassed) : (s.phaseRefresh i phase align).Bypassed :=
  .ite (.setBerth <| .when h .bump) <| .event <| .sendDelay <| .computeDelays <| .setBerth <| .setBerth <|
    .when h .bump

theorem reportAccepted {i r} (h : s.Bypassed) : (s.reportAccepted i r).Bypassed := by
  unfold State.reportAccepted
  exact .when (.reportItems <| .observerReport <| .upd <| .setBerth h) .bootEnded

theorem burstRx {p slot syncFound codeOk bs phase align} (h : s.Bypassed) :
    (s.burstRx p slot syncFound codeOk bs phase align).Bypassed := by
  unfold State.burstRx
  extract_lets _ s₁ s₂ _ s₃
  have h₁ : s₁.Bypassed := by
    unfold s₁
    split
    · exact .ite h <| .setBerth h
    · exact h
  have h₂ : s₂.Bypassed := .codeGroups <| .when h₁ .burstLight
  have h₃ : s₃.Bypassed := .phaseRefresh <| .count h₂
  split
  · exact .ite h₃ <| .reportAccepted h₃
  · exact .burstDrop h₂

theorem zoneDrop {p bs c} (h : s.Bypassed) : (s.zoneDrop p bs c).Bypassed :=
  .ite (.stranger <| .event <| .bump h) <| .event <| .bump h

theorem zoneRx {p syncFound codeOk bs arrival phase align} (h : s.Bypassed) :
    (s.zoneRx p syncFound codeOk bs arrival phase align).Bypassed := by
  unfold State.zoneRx
  extract_lets _ s₁ s₂
  have h₁ : s₁.Bypassed := .codeGroups <| .when h .burstLight
  have h₂ : s₂.Bypassed := .count h₁
  split
  · exact .ite (.boardingRx h₂) <| .rangingRx h₂
  · exact .zoneDrop h₁

theorem searchMarks {p dark} (h : s.Bypassed) : (s.searchMarks p dark).Bypassed :=
  .foldl h fun _ _ h' => .ite h' <| .setBerth h'

theorem searchLaunch {p x} (h : s.Bypassed) : (s.searchLaunch p x).Bypassed := .bump <| .searchMarks <| .setPort h

theorem searchStart {p} (h : s.Bypassed) : (s.searchStart p).Bypassed :=
  .searchLaunch <| .setPort <| .bump <| .set <| .set <| .set h

theorem searchUnknown {p x} (h : s.Bypassed) : (s.searchUnknown p x).Bypassed :=
  .event <| .set <| .set <| .searchMarks <| .setPort h

theorem searchObserve {p x light} (h : s.Bypassed) : (s.searchObserve p x light).Bypassed :=
  .ite (.searchLaunch h) <| .ite (.searchUnknown h) <| by
      split
      · exact .searchUnknown h
      · exact .event <| .set <| .set <| .set <| .setBerth <| .searchMarks <| .setPort h

theorem berthsRound {p n light} (h : s.Bypassed) : (s.berthsRound p n light).Bypassed :=
  .foldl h fun _ _ h' => .when (.setBerth h') .event

theorem lightRound {p light} (h : s.Bypassed) : (s.lightRound p light).Bypassed :=
  .ite (.setPort <| .set h) <| .setPort <| .event <| .bump <| .set h

theorem portRound {p n light} (h : s.Bypassed) : (s.portRound p n light).Bypassed :=
  .grantsFor <| .renewRound <| .setPort <| .lightRound <| .unobservedRounds <| .berthsRound <| .set <| .setReg h

theorem witness (h : s.Bypassed) : s.witness.Bypassed := .upd <| .upd h

theorem hubRound {light} (h : s.Bypassed) : (s.hubRound light).Bypassed := by
  unfold State.hubRound
  split
  · exact h
  · exact .witness <| .foldl (.reach h) fun _ _ h' => .portRound h'

theorem uplinkRound {u n} (h : s.Bypassed) : (s.uplinkRound u n).Bypassed := .setUplink <| .slotUpdate h

theorem cellRound (h : s.Bypassed) : s.cellRound.Bypassed := by
  unfold State.cellRound
  dsimp only
  split
  · exact h
  · exact .foldl (.reach h) fun _ _ h' => .uplinkRound h'

end Sys2Proof.Machine.State.Bypassed
end

section
/-! PROOFS. The permanent bypass (R477) through commits, recorder, station, reset, security and accesses:
one rule per function of the model, in the order of the model. -/

namespace Sys2Proof.Machine.State.Bypassed

variable {s : State}

/-! The permanent bypass: shadows and commits (03_register_pages.md). -/

theorem transfer {pg} (h : s.Bypassed) : (s.transfer pg).Bypassed := .foldl (.upd h) fun _ _ h' => .ite h' <| .upd h'
theorem committed {pg} (h : s.Bypassed) : (s.committed pg).Bypassed := .event <| .count <| .set h
theorem rebase {t k} (h : s.Bypassed) : (s.rebase t k).Bypassed := .upd h

theorem timebaseChanged (h : s.Bypassed) : s.timebaseChanged.Bypassed :=
  .when h fun h1 => .forUpTo (.newTimebase h1) fun _ _ h2 => .setPort h2

theorem leadFollows {a rep} (h : s.Bypassed) : (s.leadFollows a rep).Bypassed :=
  .ite (.leadCheck <| .leadChanged <| .showProfile h) <| .showProfile h

theorem commitTime {at'} (h : s.Bypassed) : (s.commitTime at').Bypassed := by
  unfold State.commitTime
  extract_lets _ _ _ _ here s₁ s₂ s₃ s₄ s₅
  clear_value here
  have h₁ : s₁.Bypassed := .transfer h
  have h₂ : s₂.Bypassed := by
    unfold s₂
    split
    · exact .ite (.rebase h₁) h₁
    · exact h₁
  have h₃ : s₃.Bypassed := .committed h₂
  have h₄ : s₄.Bypassed := .when h₃ .timebaseChanged
  have h₅ : s₅.Bypassed := .leadFollows h₄
  exact .ite (.profileReject <| .set h) <| .ite (.ite (.leadCheck h₅) h₅) h₄

theorem commitHook {before pg} (h : s.Bypassed) : (s.commitHook before pg).Bypassed :=
  .ite (.forUpTo h fun _ _ h1 => .eqClip h1) <| .ite (.windowMode h) <| .ite (.chainCommit h) <| .ite (.upd h) <|
    .ite (.forUpTo h fun _ _ h1 => .ite h1 <| .rcuClear h1) <| .ite (.ite (.leadFollows h) <| .leadCheck <|
      .leadFollows h) h

theorem commitPage {pg at'} (h : s.Bypassed) : (s.commitPage pg at').Bypassed :=
  .ite (.commitTime h) <| .committed <| .commitHook <| .transfer h

theorem commitRequest {pg} (h : s.Bypassed) : (s.commitRequest pg).Bypassed :=
  .ite (.upd <| .set <| .set h) <| .ite (.set h) <| .commitPage h

theorem applyCommits {k} (h : s.Bypassed) : (s.applyCommits k).Bypassed := .foldl h fun _ _ h' => .commitPage h'

/-! The permanent bypass: the modulation of a cell (11_modulation_edges.md). -/

theorem bitmapCheck {t at'} (h : s.Bypassed) : (s.bitmapCheck t at').Bypassed := by
  unfold State.bitmapCheck
  extract_lets entry _ s₁ s₂
  clear_value entry
  have h₁ : s₁.Bypassed := .upd h
  have h₂ : s₂.Bypassed := .trimOver h₁
  split
  · exact h₁
  · extract_lets _ _ s₃
    have h₃ : s₃.Bypassed := .ite h₂ <| .ite (.evFlag <| .count h₂) <| .evFlag <| .bump h₂
    exact .ite h₁ <| .ite h₁ <| .ite h₁ <| .ite (.request h₃) h₃

theorem epochSeen {e k} (h : s.Bypassed) : (s.epochSeen e k).Bypassed := .ite (.upd h) <| .upd h

theorem epochApply {k at' late} (h : s.Bypassed) : (s.epochApply k at' late).Bypassed := by
  unfold State.epochApply
  split
  · exact h
  · exact .bitmapCheck <| .when (.event <| .count <| .setReg <| .upd <| .set <| .ite (.upd <| .set <|
      .commitPage h) h) fun h' => .event <| .bump h'

theorem duty (h : s.Bypassed) : s.duty.2.2.Bypassed := by
  unfold State.duty
  dsimp only
  split
  · exact .free h
  · exact h

theorem carrierDue {t} (h : s.Bypassed) : (s.carrierDue t).Bypassed := by
  unfold State.carrierDue
  split
  · exact .ite (.request <| .upd h) h
  · exact h

theorem carrierSample {t peak} (h : s.Bypassed) : (s.carrierSample t peak).Bypassed :=
  .upd <| .set <| .when (.duty h) fun h' => .event <| .bump h'

/-! The permanent bypass: the recorder, the black box and the lifetime counters (21_recorder_monitors.md). -/

theorem setDesc {i w v} (h : s.Bypassed) : (s.setDesc i w v).Bypassed := .store h
theorem setRecState {n} (h : s.Bypassed) : (s.setRecState n).Bypassed := .set h
theorem showHeld (h : s.Bypassed) : s.showHeld.Bypassed := .set h
theorem writeDesc {st} (h : s.Bypassed) : (s.writeDesc st).Bypassed := .store h
theorem recFlag {b} (h : s.Bypassed) : (s.recFlag b).Bypassed := .upd h

theorem recRate {pressure} (h : s.Bypassed) : (s.recRate pressure).Bypassed := by
  unfold State.recRate
  extract_lets _ _ s₁
  have h₁ : s₁.Bypassed := .upd h
  exact .ite (.ite (.event <| .bump <| .set h₁) h₁) <| .ite (.event <| .bump <| .set h₁) <| .upd h

theorem recChunk (h : s.Bypassed) : s.recChunk.Bypassed := .arrive <| .recRate <| .upd h

theorem recPump {fuel} (h : s.Bypassed) : (s.recPump fuel).Bypassed := by
  induction fuel generalizing s with
  | zero => exact h
  | succ k ih => exact .ite h <| .ite (.upd h) <| ih <| .recChunk <| .upd h

theorem recFlush (h : s.Bypassed) : s.recFlush.Bypassed := .ite (.upd h) <| .recChunk <| .upd h

theorem putRecord {type lvl nsmp cyc ncyc inv cut body} (h : s.Bypassed) :
    (s.putRecord type lvl nsmp cyc ncyc inv cut body).Bypassed :=
  .ite (.upd <| .event <| .bump h) <| .recPump <| .upd h

theorem putSnapshot {k} (h : s.Bypassed) : (s.putSnapshot k).Bypassed := .ite h <| .putRecord h

theorem closeRecord1 {k cut trig} (h : s.Bypassed) : (s.closeRecord1 k cut trig).Bypassed := by
  unfold State.closeRecord1
  split
  · exact h
  · extract_lets _ _ _ s₁ s₂ _ s₃ _ _ s₄
    have h₁ : s₁.Bypassed := .upd h
    have h₂ : s₂.Bypassed := .putRecord h₁
    have h₃ : s₃.Bypassed := .ite h₂ <| by
      split
      · exact .upd h₂
      · exact h₂
    have h₄ : s₄.Bypassed := .upd h₃
    exact .ite (.putSnapshot h₄) h₄

theorem beginLive {i} (h : s.Bypassed) : (s.beginLive i).Bypassed := .showHeld <| .writeDesc <| .upd <| .set h

theorem nextLive {i st} (h : s.Bypassed) : (s.nextLive i st).Bypassed := by
  unfold State.nextLive
  dsimp only
  split
  · exact .beginLive <| .setRecState h
  · exact .ite (.beginLive <| .setRecState <| .bump h) <| .event <| .setRecState <| .upd h

theorem endCapture (h : s.Bypassed) : s.endCapture.Bypassed :=
  .nextLive <| .upd <| .showHeld <| .event <| .writeDesc <| .recFlush h

theorem startCapture {k time cause primary ends} (h : s.Bypassed) :
    (s.startCapture k time cause primary ends).Bypassed := by
  unfold State.startCapture
  exact .closeRecord1 <| .putRecord <| .writeDesc <| .event <| .bump <| .setRecState <| .upd <| .when h .recFlag

theorem ignoreFiring {cause} (h : s.Bypassed) : (s.ignoreFiring cause).Bypassed := by
  unfold State.ignoreFiring
  dsimp only
  split
  · exact .upd <| .bump h
  · exact .ite (.ite (.setRecState <| .upd <| .bump h) <| .upd <| .bump h) <| .bump h
  · exact .bump h

theorem setTrig {t x} (h : s.Bypassed) : (s.setTrig t x).Bypassed := .upd h

theorem trigEval {t} (h : s.Bypassed) : (s.trigEval t).2.Bypassed :=
  .when (.set <| .setTrig <| .iteSnd (.touch h) h) .bump

theorem trigEvals (h : s.Bypassed) : s.trigEvals.2.Bypassed := by
  unfold State.trigEvals
  exact .upd <| .forUpToSnd h fun _ _ h' => .trigEval h'

theorem maskTest {k m} (h : s.Bypassed) : (s.maskTest k m).Bypassed :=
  .ite h <| .ite (.upd <| .event <| .bump <| .when (.set <| .fetch h) .upd) <| .when (.set <| .fetch h) .upd

theorem recRead {k} (h : s.Bypassed) : (s.recRead k).Bypassed :=
  .upd <| .foldlSnd h fun _ _ h' => .iteSnd (.touch h') <| .iteSnd (.touch h') <| .touch h'

theorem recSample {k time} (h : s.Bypassed) : (s.recSample k time).Bypassed := by
  unfold State.recSample
  refine .ite h ?_
  extract_lets _ _ _ s₁
  have h₁ : s₁.Bypassed := .forUpTo (.when (.upd h) .recRead) fun _ _ h => .maskTest h
  split
  next units s₂ heq =>
  have h₂ : s₂.Bypassed := .ofSnd heq <| .trigEvals h₁
  extract_lets cause _ s₃ ends stop s₄ s₅
  have h₃ : s₃.Bypassed := .upd h₂
  have h₄ : s₄.Bypassed := .when h₃ .ignoreFiring
  have h₅ : s₅.Bypassed :=
    .ite (.startCapture h₃) <| .ite (.closeRecord1 <| .recFlag h₄) <| .ite (.closeRecord1 h₄) h₄
  split
  · exact .ite (.endCapture h₅) h₅
  · exact .ite (.setRecState h₅) h₅

theorem recStart (h : s.Bypassed) : s.recStart.Bypassed := by
  unfold State.recStart
  dsimp only
  exact .nextLive <| .showHeld <| .set <| .set <| .upd <|
    .forUpToSnd (.fetch h) fun _ _ h' => .iteSnd (.setDesc h') <| .iteSnd (.setDesc <| .setDesc h') h'

theorem recStop (h : s.Bypassed) : s.recStop.Bypassed :=
  .upd <| .setRecState <| .ite (.showHeld <| .event <| .writeDesc <| .recFlush <| .recFlag <| .upd h) <|
    .ite (.upd h) <| .writeDesc <| .recFlush <| .upd h

theorem recForce (h : s.Bypassed) : s.recForce.Bypassed := .ite (.upd h) <| .ignoreFiring h

theorem recFree {segs} (h : s.Bypassed) : (s.recFree segs).Bypassed :=
  .ite (.nextLive <| .showHeld <| .foldl h fun _ _ h1 => .setDesc h1) <| .showHeld <|
    .foldl h fun _ _ h1 => .setDesc h1

theorem recRel {i} (h : s.Bypassed) : (s.recRel i).Bypassed := .ite (.accessErr h) <| .recFree h
theorem recRelAll (h : s.Bypassed) : s.recRelAll.Bypassed := .recFree h

theorem chunkStored (h : s.Bypassed) : s.chunkStored.Bypassed := by
  unfold State.chunkStored
  split
  · exact h
  · extract_lets _ s₁ _ s₂ s₃ s₄ _ s₅
    have h₁ : s₁.Bypassed := .store h
    have h₂ : s₂.Bypassed := .upd h₁
    have h₃ : s₃.Bypassed := .hwDone h₂
    have h₄ : s₄.Bypassed := .when h₃ .upd
    have h₅ : s₅.Bypassed := .ite (.writeDesc h₄) <| .ite (.writeDesc h₄) h₄
    exact .recPump h₅

theorem bbStart (h : s.Bypassed) : s.bbStart.Bypassed :=
  .ite h <| .ite (.upd <| .set <| .upd h) <| .set <| .set <| .upd h

theorem bbRearm (h : s.Bypassed) : s.bbRearm.Bypassed := .ite h <| by
      extract_lets s₁ _ s₂ _ s₃
      have h₁ : s₁.Bypassed := .set h
      have h₂ : s₂.Bypassed := .upd h₁
      have h₃ : s₃.Bypassed := .set h₂
      exact .ite h₂ <| by
          split
          · extract_lets s₄
            have h₄ : s₄.Bypassed := .set h₂
            exact .upd h₄
          · exact .upd h₃

theorem lifetimeSecond (h : s.Bypassed) : s.lifetimeSecond.Bypassed := by
  unfold State.lifetimeSecond
  split
  · exact .ltAdd <| .free h
  · exact .ltAdd h
  · exact .ltAdd h

theorem lifetimeHour (h : s.Bypassed) : s.lifetimeHour.Bypassed := .ite (.ltAdd <| .ltAdd h) h

/-! The permanent bypass: the station interface (22_station_interface.md). -/

theorem emit {p frame} (h : s.Bypassed) : (s.emit p frame).Bypassed := .ite h <| .upd <| .count h

theorem sendFrame {frame} (h : s.Bypassed) : (s.sendFrame frame).Bypassed :=
  .ite (.foldl (.upd h) fun _ _ h1 => .emit h1) <| .foldl h fun _ _ h1 => .emit h1

theorem hwSend {frame} (h : s.Bypassed) : (s.hwSend frame).Bypassed := .ite (.upd h) <| .sendFrame h
theorem sendLater (h : s.Bypassed) : s.sendLater.Bypassed := .foldl (.upd h) fun _ _ h' => .hwSend h'
theorem freshSent (h : s.Bypassed) : s.freshSent.Bypassed := .upd h

theorem kxStart (h : s.Bypassed) : s.kxStart.Bypassed := by
  unfold State.kxStart
  dsimp only
  exact .hwSend <| .upd <| .set <| .kxOwn <| .drawScalar h

theorem stnTag {seq bytes} (h : s.Bypassed) : (s.stnTag seq bytes).2.Bypassed := by
  unfold State.stnTag
  split
  · exact h
  · exact .free h

theorem nextSeq (h : s.Bypassed) : s.nextSeq.2.Bypassed := .upd h

theorem sendEtolwick {dst type body} (h : s.Bypassed) : (s.sendEtolwick dst type body).Bypassed :=
  .when (.hwSend <| .stnTag <| .nextSeq h) .kxStart

theorem stnKxAnswer {str} (h : s.Bypassed) : (s.stnKxAnswer str).Bypassed := .ite h <| .ite (.peerRefused h) <| by
      split
      · exact h
      · exact .event <| .set <| .upd h

theorem prpCheck {src seq} (h : s.Bypassed) : (s.prpCheck src seq).2.Bypassed := .upd h

theorem stnRx {f k} (h : s.Bypassed) (hk : ∀ t : State, t.Bypassed → (k t).Bypassed) : (s.stnRx f k).Bypassed := by
  unfold State.stnRx
  dsimp only
  refine .ite h <| .ite (.bump <| .reach h) <| .ite (.bump <| .reach h) <| .ite (.bump <| .reach h) ?_
  split
  · exact .ite (.count <| .prpCheck <| .count <| .reach h) <| hk _ <| .prpCheck <| .count <| .reach h
  · exact hk _ <| .count <| .reach h

theorem seqTake {n} (h : s.Bypassed) : (s.seqTake n).Bypassed := .upd h

theorem checked {b fmt k} (h : s.Bypassed) (hk : ∀ t : State, t.Bypassed → (k t).Bypassed) :
    (s.checked b fmt k).Bypassed :=
  .ite h <| .ite (.bump h) <| .ite (.event <| .bump h) <| .ite (.event <| .bump h) <|
    .when (hk _ <| .seqTake h) .kxStart

theorem setpoint {b} (h : s.Bypassed) : (s.setpoint b).Bypassed := by
  unfold State.setpoint
  exact .checked h fun _ h' => .upd <| .count h'

theorem spActivate {t} (h : s.Bypassed) : (s.spActivate t).Bypassed := by
  unfold State.spActivate
  split
  · exact .ite (.upd <| .set h) h
  · exact h

theorem stationAngle {t} (h : s.Bypassed) : (s.stationAngle t).2.2.2.Bypassed := by
  unfold State.stationAngle
  extract_lets _ s₁ _ s₂ _ s₃ s₄ _ s₅
  have h₁ : s₁.Bypassed := by
    unfold s₁
    split
    · exact h
    · exact .upd h
  have h₂ : s₂.Bypassed := by
    unfold s₂
    split
    · exact .setReg h₁
    · exact h₁
  have h₃ : s₃.Bypassed := .when h₂ .event
  have h₄ : s₄.Bypassed := .set h₃
  have h₅ : s₅.Bypassed := .ite (.upd h₄) h₄
  split
  · exact h₅
  · exact h₅

theorem svFrame {c t b} (h : s.Bypassed) : (s.svFrame c t b).Bypassed := .ite (.bump h) <| .upd <| .count h

theorem showHead (h : s.Bypassed) : s.showHead.Bypassed := by
  unfold State.showHead
  split
  · exact .set h
  · exact h

theorem fillTag {frame} (h : s.Bypassed) : (s.fillTag frame).2.Bypassed := .stnTag <| .nextSeq h

theorem txSend {i} (h : s.Bypassed) : (s.txSend i).Bypassed := by
  unfold State.txSend
  split
  split
  next _ _ s₁ heq =>
  have h₁ : s₁.Bypassed := .ofSnd2 heq <| .fetch h
  split
  next _ _ s₂ heq =>
  have h₂ : s₂.Bypassed := .ofSnd2 heq <| .fetch h₁
  split
  next _ s₃ heq =>
  have h₃ : s₃.Bypassed := .ofSnd heq <| .iteSnd (.fillTag h₂) h₂
  exact .when (.upd <| .ite (.sendFrame h₃) <| .ite (.emit h₃) h₃) .kxStart

theorem txDrain {fuel} (h : s.Bypassed) : (s.txDrain fuel).Bypassed := by
  induction fuel generalizing s with
  | zero => exact h
  | succ k ih =>
    unfold State.txDrain
    split
    · exact h
    · exact .ite (ih <| .txSend h) <| .ite (ih <| .txSend <| .event <| .bump h) h

theorem txMove (h : s.Bypassed) : s.txMove.Bypassed := .showHead <| .txDrain h

theorem txPost {i} (h : s.Bypassed) : (s.txPost i).Bypassed :=
  .ite (.txMove <| .upd <| .freshSent h) <| .showHead <| .upd <| .freshSent h

theorem timedSend (h : s.Bypassed) : s.timedSend.Bypassed := by
  unfold State.timedSend
  split
  · exact h
  · exact .ite (.txMove <| .sendLater <| .txSend <| .reach <| .freshSent h) h

theorem toRing {f} (h : s.Bypassed) : (s.toRing f).Bypassed := .ite (.event <| .bump h) <| .event <| .set <| .write h

theorem streamChunk (h : s.Bypassed) : s.streamChunk.Bypassed := by
  unfold State.streamChunk
  split
  · exact h
  · exact .ite (.bump <| .upd <| .freshSent h) <| .foldl (.fetch <| .upd <|
      .freshSent h) fun _ _ h' => .sendEtolwick h'

theorem stnClear (h : s.Bypassed) : s.stnClear.Bypassed := .set <| .foldl h fun _ _ h' => .setReg h'
theorem stnLink {p up} (h : s.Bypassed) : (s.stnLink p up).Bypassed := .event <| .set h

/-! The permanent bypass: reset, boot and the supervisor (05_reset_boot.md). -/

theorem noteReset {n} (h : s.Bypassed) : (s.noteReset n).Bypassed := .bump <| .set <| .set h

theorem deviceReset {n phase role} (h : s.Bypassed) : (s.deviceReset n phase role).Bypassed :=
  .noteReset <| .set <| .updGate h

theorem leaveReset (h : s.Bypassed) : s.leaveReset.Bypassed := .ite (.upd h) h

theorem identity {healthFailures} (h : s.Bypassed) : (s.identity healthFailures).Bypassed :=
  .ite (.ite h <| .set h) <| by
      dsimp only
      split
      · exact .event <| .set h
      · exact .ite (.event <| .set h) <| .set <| .program <| .program <| .drawScalar h

theorem loadBody {c why} (h : s.Bypassed) : (s.loadBody c why).Bypassed := .ite (.setBytes h) h
theorem reject {i why} (h : s.Bypassed) : (s.reject i why).Bypassed := .set h

theorem readHeader {i} (h : s.Bypassed) : (s.readHeader i).Bypassed := by
  unfold State.readHeader
  split
  · exact .reject h
  · exact .reject h

theorem recover (h : s.Bypassed) : s.recover.Bypassed := .upd <| .set <| .set h
theorem noSlot (h : s.Bypassed) : s.noSlot.Bypassed := .ite (.upd h) <| .recover h

theorem chooseSource (h : s.Bypassed) : s.chooseSource.Bypassed :=
  .ite (.ite (.upd <| .reject <| .reject h) <| .recover <| .reject <| .reject h) <| .ite (.noSlot <| .reject <|
    .reject <| .reject <| .reject h) <| .upd <| .set <| .readHeader <| .readHeader <| .reject <| .reject h

theorem cellUp (h : s.Bypassed) : s.cellUp.Bypassed :=
  .foldl (.foldl h fun _ _ h1 => .set <| .set h1) fun _ _ h1 => .set <| .set <| .set h1

theorem romStart {healthFailures} (h : s.Bypassed) : (s.romStart healthFailures).Bypassed := by
  unfold State.romStart
  exact .chooseSource <| .ite (.cellUp <| .identity <| .upd h) <| .set <| .identity <| .upd h

theorem showRole {strap} (h : s.Bypassed) : (s.showRole strap).Bypassed := .set <| .set h
theorem restart {n} (h : s.Bypassed) : (s.restart n).Bypassed := .romStart <| .showRole <| .deviceReset h

theorem loadBoard {board} (h : s.Bypassed) : (s.loadBoard board).Bypassed :=
  .forUpTo (.upd h) fun _ _ h1 => .ite (.forUpTo (.set <| .set h1) fun _ _ h2 => .eqClip <| .upd <| .setReg h2) <|
    .set h1

theorem clocksUp (h : s.Bypassed) : s.clocksUp.Bypassed :=
  .ite h <| .foldl (.set <| .set <| .set <| .set <| .set h) fun _ _ h' => .set <| .set <| .set <| .set h'

theorem jump {c src board} (h : s.Bypassed) : (s.jump c src board).Bypassed :=
  .upd <| .clocksUp <| .loadBoard <| .set <| .setReg <| .setReg <| .setReg <| .setReg <| .set <| .set <| .set h

theorem bootSlot {i} (h : s.Bypassed) : (s.bootSlot i).Bypassed := .jump <| .reject h

theorem checkSlot (h : s.Bypassed) : s.checkSlot.Bypassed := by
  unfold State.checkSlot
  split
  · exact h
  · exact .ite (.bootSlot <| .loadBody h) <| .ite (.noSlot <| .reject <| .loadBody h) <| .upd <| .reject <|
      .loadBody h

theorem bootRetry (h : s.Bypassed) : s.bootRetry.Bypassed := .ite (.romStart <| .upd h) h

theorem ownerTry {i next} (h : s.Bypassed) (hn : ∀ t : State, t.Bypassed → (next t).Bypassed) :
    (s.ownerTry i next).Bypassed := by
  unfold State.ownerTry
  split
  · exact hn s h
  · exact .ite (.bootSlot <| .programOwner <| .loadBody h) <| hn _ <| .reject <| .loadBody h

theorem takeOwner (h : s.Bypassed) : s.takeOwner.Bypassed := .ownerTry h fun _ h1 => .ownerTry h1 fun _ h2 => h2

theorem treeCheck {u c} (h : s.Bypassed) : (s.treeCheck u c).Bypassed :=
  .ite (.jump <| .when (.loadBody h) .programOwner) <| .upd <| .loadBody h

theorem eclaim (h : s.Bypassed) : s.eclaim.2.Bypassed := by
  unfold State.eclaim
  split
  · exact .upd h
  · exact h

theorem ecomplete {w} (h : s.Bypassed) : (s.ecomplete w).Bypassed := .upd h

theorem nmiReturn (h : s.Bypassed) : s.nmiReturn.Bypassed := .ite h <| by
      dsimp only
      split
      · exact .nmiEnter <| .set <| .set <| .upd h
      · exact .set <| .upd h

theorem wdtStart (h : s.Bypassed) : s.wdtStart.Bypassed := .upd <| .set h
theorem wdtGrace (h : s.Bypassed) : s.wdtGrace.Bypassed := .upd <| .set h

theorem wdtKick {w} (h : s.Bypassed) : (s.wdtKick w).Bypassed :=
  .ite (.upd h) <| .ite (.wdtStart <| .upd h) <| .bump <| .upd h

theorem presWindow (h : s.Bypassed) : s.presWindow.Bypassed := .upd <| .event h

/-! The permanent bypass: presence, seal, records and OTP (06_presence_security.md). -/

theorem presClose (h : s.Bypassed) : s.presClose.Bypassed := .ite (.upd <| .event h) h
theorem press (h : s.Bypassed) : s.press.Bypassed := .ite (.presWindow <| .upd <| .upd h) <| .upd h
theorem presRelease (h : s.Bypassed) : s.presRelease.Bypassed := .upd h

theorem sealOpened (h : s.Bypassed) : s.sealOpened.Bypassed := by
  unfold State.sealOpened
  extract_lets s₁ s₂
  have h₁ : s₁.Bypassed := .errArrive <| .event h
  have h₂ : s₂.Bypassed := .setReg <| .setReg h₁
  exact .ite (.program h₂) h₂

theorem sealCompare {v} (h : s.Bypassed) : (s.sealCompare v).Bypassed :=
  .ite (.when (.upd <| .upd <| .upd h) .sealOpened) <| .ite (.upd <| .upd <| .upd h) <| .upd <| .upd h

theorem attGo (h : s.Bypassed) : s.attGo.Bypassed :=
  .ite (.accessErr h) <| .upd <| .arrive <| .set <| .free <| .free h

theorem attDone (h : s.Bypassed) : s.attDone.Bypassed :=
  .upd <| .event <| .hwDone <| .set <| .forUpTo (.drawScalar h) fun _ _ h' => .setReg h'

theorem recGo {job} (h : s.Bypassed) : (s.recGo job).Bypassed :=
  .ite (.accessErr h) <| .upd <| .arrive <| .set <| .free <| .free h

theorem recResult {r ok} (h : s.Bypassed) : (s.recResult r ok).Bypassed := .upd <| .event <| .hwDone <| .set <| .set h

theorem recLoad {c pairings} (h : s.Bypassed) : (s.recLoad c pairings).Bypassed :=
  .forUpTo (.when (.forUpTo h fun _ _ h1 => .setReg <| .setReg <|
    .setReg h1) fun h1 => .forUpTo h1 fun _ _ h2 => .setReg <| .setReg h2) fun _ _ h1 => .ite (.setBerth h1) h1

theorem recRestore (h : s.Bypassed) : s.recRestore.Bypassed := by
  unfold State.recRestore
  extract_lets
  split
  next _ _ s₁ heq =>
  have h₁ : s₁.Bypassed := .ofSnd2 heq <| .fetch h
  extract_lets
  exact .ite (by
        split
        next _ s₂ heq =>
        have h₂ : s₂.Bypassed := .ofSnd heq <| .free h₁
        exact .recResult h₂) <| .ite (.recResult h₁) <| by
      split
      next _ _ s₂ heq =>
      have h₂ : s₂.Bypassed := .ofSnd2 heq <| .fetch h₁
      extract_lets
      exact .ite (by
            split
            next _ s₃ heq =>
            have h₃ : s₃.Bypassed := .ofSnd heq <| .free h₂
            exact .recResult h₃) <| .ite (.recResult h₂) <| .ite (.recResult h₂) <| .recResult <| .recLoad h₂

theorem recExport (h : s.Bypassed) : s.recExport.Bypassed := .ite (.recResult <| .write h) <| .recResult <| .free h

theorem recDone (h : s.Bypassed) : s.recDone.Bypassed := by
  unfold State.recDone
  split
  · exact h
  · exact .recExport h
  · exact .recRestore h

theorem otpGo (h : s.Bypassed) : s.otpGo.Bypassed :=
  .ite (.accessErr h) <| .ite (.upd <| .set <| .set h) <| .accessErr <| .set h

theorem otpDone (h : s.Bypassed) : s.otpDone.Bypassed := by
  unfold State.otpDone
  split
  · exact h
  · exact .upd <| .set <| .set <| .program h

theorem dbgUnlock (h : s.Bypassed) : s.dbgUnlock.Bypassed := .errArrive <| .bump <| .set <| .set h
theorem dbgRelock (h : s.Bypassed) : s.dbgRelock.Bypassed := .set h
theorem ownRevoke {marks} (h : s.Bypassed) : (s.ownRevoke marks).Bypassed := .ite (.restart <| .revokeOwner h) h
theorem arbSet {v} (h : s.Bypassed) : (s.arbSet v).Bypassed := .ite (.program <| .program h) <| .accessErr h

/-! The permanent bypass: what the write of a register starts (03_register_pages.md). -/

theorem keep {w mask} (h : s.Bypassed) : (s.keep w mask).Bypassed := .setReg h
theorem keepIf {w c} (h : s.Bypassed) : (s.keepIf w c).Bypassed := .ite (.keep h) <| .accessErr h

theorem hookClkSrc {w} (h : s.Bypassed) : (s.hookClkSrc w).Bypassed := by
  unfold State.hookClkSrc
  extract_lets _ _ _ s₁ s₂ _ s₃
  have h₁ : s₁.Bypassed := .when h .accessErr
  have h₂ : s₂.Bypassed := .set <| .set <| .set <| .keep h₁
  have h₃ : s₃.Bypassed := .ite (.upd h₂) h₂
  exact .ite (.spllRefCheck h₃) <| .set h₃

theorem hookClkFail {w} (h : s.Bypassed) : (s.hookClkFail w).Bypassed := .forUpTo h fun _ _ h' => .ite (.set h') h'

theorem hookClk {w} (h : s.Bypassed) : (s.hookClk w).Bypassed :=
  .ite (.hookClkSrc h) <| .ite (.domWrite h) <| .ite (.hookClkFail h) h

theorem hookSec {w} (h : s.Bypassed) : (s.hookSec w).Bypassed :=
  .ite (.when h .presClose) <| .ite (.when h .ownRevoke) <| .ite (.when h .attGo) <| .ite (.ite (.recGo h) <|
    .ite (.recGo h) h) h

theorem hookBoot {w} (h : s.Bypassed) : (s.hookBoot w).Bypassed :=
  .ite (.when h .bootRetry) <| .ite (.ite h <| .arbSet h) h

theorem hookCpu {w} (h : s.Bypassed) : (s.hookCpu w).Bypassed :=
  .ite (.when h .nmiReturn) <| .ite (.wdtKick h) <| .ite (.when h .restart) <| .ite (.ecomplete h) h

theorem hookErr {w} (h : s.Bypassed) : (s.hookErr w).Bypassed :=
  .ite (.when (.when h .errPop) .errAck) <| .ite (.errSwlog h) <| .ite (.when (.when h .slockOpen) .slockClose) h

theorem hookSched {w} (h : s.Bypassed) : (s.hookSched w).Bypassed :=
  .ite (.upd h) <| .ite (.when h .submit) <| .ite (.schgCancel h) <| .ite (.schgDone h) <| .ite (.when h .schqFlush) h

theorem hookTime {w} (h : s.Bypassed) : (s.hookTime w).Bypassed :=
  .ite (.when h fun h' => .ite (.enterHold h') <| .leaveHold h') <| .ite (.incRequest h) <| .ite (.ite (.event h) <|
    .ite (.requestJump h) <| .ite (.requestJump h) h) <| .ite (.resumeHeld <| .meridiansStop <| .ite (.keep h) <|
      .accessErr <| .set <| .keep h) h

theorem hookStn {w} (h : s.Bypassed) : (s.hookStn w).Bypassed :=
  .ite (.when (.when h fun h' => .kxStart <| .freshSent h') .stnClear) <| .ite (.when h .txPost) h

theorem hookTwin {w} (h : s.Bypassed) : (s.hookTwin w).Bypassed := .ite (.keepIf h) <| .ite (.keepIf h) h

theorem hookHost {w} (h : s.Bypassed) : (s.hookHost w).Bypassed :=
  .ite (.ite (.upd <| .set <| .set h) <| .set <| .set h) <| .ite (.ite h <| .upd <| .set <| .set h) <|
    .ite (.when (.when h .dbgUnlock) .dbgRelock) h

theorem hookLane {w} (h : s.Bypassed) : (s.hookLane w).Bypassed :=
  .ite (.when (.when (.when (.keep h) .set) .scanAbort) fun h' => .accessErr <| .set h') <| .ite (.lanePwr h) <|
    .ite (.when h .eyeScan) <| .ite (.when (.when (.when (.when h .prbsStart) .set) .prbsInj) .prbsClr) h

theorem hookBoard {w data} (h : s.Bypassed) : (s.hookBoard w data).Bypassed :=
  .forUpTo h fun _ _ h' => .ite (.setWindow h') <| .ite (.setWindow h') h'

theorem searchGo {p} (h : s.Bypassed) : (s.searchGo p).Bypassed := .ite (.accessErr h) <| .ite (.searchStart h) h

theorem hookBerth {w} (h : s.Bypassed) : (s.hookBerth w).Bypassed :=
  .ite (.when (.when (.when h .berthRd) .berthWr) .berthClr) <| .ite (.when h .searchGo) h

theorem hookCtl {w} (h : s.Bypassed) : (s.hookCtl w).Bypassed :=
  .ite (.when (.keepIf h) fun h' => .setValid <| .setValid h') <| .ite (.when h .pgmLoad) <|
    .ite (.ite (.accessErr h) <| .when (.when h .hoGo) .hoAbort) <| .ite (.sigQueue h) h

theorem hookChain {w} (h : s.Bypassed) : (s.hookChain w).Bypassed :=
  .ite (.chainQueue h) <| .ite (.when h .chainRead) h

theorem hookRcu {w} (h : s.Bypassed) : (s.hookRcu w).Bypassed := .ite (.keepIf h) <| .ite (.when h .rcuClear) h

theorem hookSup {w} (h : s.Bypassed) : (s.hookSup w).Bypassed :=
  .ite (.setFe h) <| .ite (.setFe h) <| .ite (.setFe h) <| .ite (.when (.when h .injGo) .injStopCmd) <|
    .ite (.when h .frGo) h

theorem hookMod {w} (h : s.Bypassed) : (s.hookMod w).Bypassed := .ite (.when h .modeGo) <| .ite (.when h .pcmdGo) h

theorem hookRank {w} (h : s.Bypassed) : (s.hookRank w).Bypassed :=
  .ite (.when (.when (.when (.when h .rankRd) .rankWr) .rankSetc) .rankSetv) h

theorem hookRec {w} (h : s.Bypassed) : (s.hookRec w).Bypassed :=
  .ite (.when (.when (.when h .recForce) .recRel) .recRelAll) <| .ite (.keepIf h) <| .ite (.setTrig h) <|
    .ite (.when h .bbRearm) h

theorem hookMon {w} (h : s.Bypassed) : (s.hookMon w).Bypassed :=
  .ite (.when h .monSnap) <| .ite (.monClear h) <| .ite (.when h .set) <| .ite (.when h .ltLoad) h

theorem hookTev {w} (h : s.Bypassed) : (s.hookTev w).Bypassed :=
  .ite (.keepIf h) <| .when (.ite (.when h .accessErr) <| .when (.set <| .set h) .tevArm) .tevDisarm

theorem hookGate {w} (h : s.Bypassed) : (s.hookGate w).Bypassed :=
  .ite (.keepIf h) <| .ite (.when h .gateClear) <| .ite (.hookTev h) h

theorem hookSafe {w} (h : s.Bypassed) : (s.hookSafe w).Bypassed :=
  .ite (.hubCommand h) <| .ite (.when h .hubDeblockOne) <| .ite (.cellCommand h) h

theorem hookGpio {w} (h : s.Bypassed) : (s.hookGpio w).Bypassed :=
  .ite (.when (.gpioFnSet h) .uartNext) <| .ite (.uartPut h) <| .ite (.when (.uartStops h) .uartNext) h

theorem hook {w} (h : s.Bypassed) : (s.hook w).Bypassed :=
  .ite (.when h .moorLanes) <| .ite (.hookClk h) <| .ite (.ite (.keepIf h) h) <| .ite (.hookSec h) <|
    .ite (.when h .otpGo) <| .ite (.hookBoot h) <| .ite (.hookCpu h) <| .ite (.hookErr h) <| .ite (.hookSched h) <|
      .ite (.hookTime h) <| .ite (.hookStn h) <| .ite (.hookTwin h) <| .ite (.hookHost h) <| .ite (.hookLane h) <|
        .ite (.when h .mailboxGo) <| .ite (.hookBerth h) <| .ite (.hookCtl h) <| .ite (.hookChain h) <|
          .ite (.hookRcu h) <| .ite (.hookSup h) <| .ite (.hookMod h) <| .ite (.hookRank h) <| .ite (.hookRec h) <|
            .ite (.hookMon h) <| .ite (.ite (.keepIf h) h) <| .ite (.hookGate h) <| .ite (.hookSafe h) <|
              .ite (.hookGpio h) h

/-! The permanent bypass: an access to the register space (03_register_pages.md). -/

theorem pageError {pg} (h : s.Bypassed) : (s.pageError pg).Bypassed := .ite (.event <| .set h) h

theorem memRead {req pg a} (h : s.Bypassed) : (s.memRead req pg a).2.2.Bypassed :=
  .iteSnd2 (.pageError <| .fetch h) <| .fetch h

theorem freeField {f m w} (h : s.Bypassed) : (s.freeField f m w).2.2.Bypassed := .free h

theorem readReg {path addr} (h : s.Bypassed) : (s.readReg path addr).2.2.Bypassed :=
  .iteSnd2 h <| .iteSnd2 (.latchNow h) <| .iteSnd2 (.popTs h) <| .iteSnd2 (.popTs h) <| .iteSnd2 (.uartGet h) <|
    .iteSnd2 (by
        unfold State.schgTake
        split
        · exact h
        · dsimp only
          split
          · exact .upd h
          · exact .setReg <| .setReg <| .setReg <| .setReg <| .upd h) <| .iteSnd2 (.eclaim h) <|
              .iteSnd2 (.when h .prbsClr) <| .iteSnd2 (.set <| .set <| .setReg <| .setReg h) <|
                .iteSnd2 (.memRead h) <| .iteSnd2 (.memRead h) <| .iteSnd2 (.freeField h) h

theorem readAt {path addr} (h : s.Bypassed) : (s.readAt path addr).2.2.Bypassed :=
  .iteSnd2 h <| .iteSnd2 (.pageError h) <| .readReg h

theorem clearPage {pg} (h : s.Bypassed) : (s.clearPage pg).Bypassed :=
  .ite (.set <| .set <| .upd <| .upd h) <| .upd <| .upd h

theorem resetUplink {u} (h : s.Bypassed) : (s.resetUplink u).Bypassed := .upd h
theorem resetRefLink (h : s.Bypassed) : s.resetRefLink.Bypassed := .upd h

theorem resetBlockLow {pg} (h : s.Bypassed) : (s.resetBlockLow pg).Bypassed :=
  .ite (.upd h) <| .ite (.upd h) <| .ite (.upd h) <| .ite (.moorLanes h) <| .ite (.upd h) <| .ite (.wdtStart <|
    .upd h) <| .ite (.upd h) <| .ite (.upd h) <| .ite (.upd h) <| .ite (.upd <| .dropItems h) <| .ite (.upd h) <|
      .ite (.upd h) <| .ite (.upd <| .resetRefLink h) h

theorem resetBlockHigh {pg} (h : s.Bypassed) : (s.resetBlockHigh pg).Bypassed :=
  .ite (.setLane h) <| .ite (.ite (.setPort h) <| .resetUplink h) <| .ite (.upd h) <| .ite (.upd h) <|
    .ite (.upd h) <| .ite (.upd h) <| .ite (.upd h) <| .ite (.upd h) <| .ite (.upd h) <| .ite (.upd h) <|
      .ite (.upd h) <| .ite (.upd h) <| .ite (.upd h) <| .ite (.upd h) <| .ite (.ite (.updGate h) <| .updGate h) <|
        .ite (.upd h) <| .ite (.upd h) h

theorem pageOff {pg} (h : s.Bypassed) : (s.pageOff pg).Bypassed := .ite h <| by
      extract_lets _ s₁ s₂
      have h₁ : s₁.Bypassed := .ite (.upd h) h
      have h₂ : s₂.Bypassed := .applyWaitingJump h₁
      exact .ite (.upd h₂) <| .ite (.laneDisable h₁) <| .ite (.berthDisabled h₁) <| .ite (.engStop h₁) <|
        .ite (.frStop h₁) <| .ite (.when h₁ .recStop) <| .ite (.when h₁ .gateStop) h₁

theorem pageOn {pg} (h : s.Bypassed) : (s.pageOn pg).Bypassed :=
  .ite (.laneEnable h) <| .ite (.when h .portEnabled) <| .ite (.upd h) <| .ite (.when h .listenAfresh) <|
    .ite (.ite (.recStart h) <| .bbStart h) <| .ite (.when h .gateResume) h

theorem pageReset {pg} (h : s.Bypassed) : (s.pageReset pg).Bypassed :=
  .ite (.timebaseChanged <| .resetTimeUnit <| .clearPage <| .when h .pageOff) <| .ite (.resetBlockLow <| .clearPage <|
    .when h .pageOff) <| .resetBlockHigh <| .clearPage <| .when h .pageOff

theorem ctrlWrite {pg v} (h : s.Bypassed) : (s.ctrlWrite pg v).Bypassed :=
  .ite (.resumeHeld <| .pageReset h) <| .resumeHeld <| .ite (.pageOff <| .setReg h) <| .ite (.pageOn <| .setReg h) <|
    .setReg h

theorem headerWrite {addr v} (h : s.Bypassed) : (s.headerWrite addr v).Bypassed := by
  unfold State.headerWrite
  extract_lets
  split
  · exact .ctrlWrite h
  · exact .when h .set
  · exact .setReg h
  · exact .setReg h
  · exact .setReg h
  · exact .when h .commitRequest
  · exact .when h .set
  · exact h

theorem refusals {pg m} (h : s.Bypassed) : (s.refusals pg m).Bypassed :=
  .when (.when h fun h1 => .set <| .bump <| .event h1) fun h1 => .set <| .event h1

theorem writeActs {d w data} (h : s.Bypassed) : (s.writeActs d w data).Bypassed := by
  unfold State.writeActs
  extract_lets _ _ _ _ s₁ _ _ s₂
  have h₁ : s₁.Bypassed := .when h .accessErr
  have h₂ : s₂.Bypassed := .ite h₁ <| .setReg h₁
  exact .ite (.accessErr h) <| .ite (.hookBoard h₂) <| .hook h₂

theorem writeReg {path addr data} (h : s.Bypassed) : (s.writeReg path addr data).2.Bypassed := by
  unfold State.writeReg
  extract_lets
  split
  · exact h
  · extract_lets _ _ _ s₁ s₂ s₃
    have h₁ : s₁.Bypassed := .refusals h
    have h₂ : s₂.Bypassed := .upd h₁
    have h₃ : s₃.Bypassed := .writeActs h₂
    exact .iteSnd (.set h₃) h₃

theorem writeAt {path addr data} (h : s.Bypassed) : (s.writeAt path addr data).2.Bypassed :=
  .iteSnd (.headerWrite h) <| .iteSnd (.pageError h) <| .writeReg h

theorem answerAccess {path addr code data isStore} (h : s.Bypassed) :
    (s.answerAccess path addr code data isStore).Bypassed := .upd <| .ite (.cpuFault h) h

theorem readWords {path addr n} (h : s.Bypassed) : (s.readWords path addr n).2.2.Bypassed := by
  induction n generalizing s addr with
  | zero => exact h
  | succ n ih => exact .iteSnd2 (.readAt h) <| ih <| .readAt h

theorem writeWords {path addr ws} (h : s.Bypassed) : (s.writeWords path addr ws).2.2.Bypassed := by
  induction ws generalizing s addr with
  | nil => exact h
  | cons w ws ih => exact .iteSnd2 (.writeAt h) <| ih <| .writeAt h

theorem burstRead {path addr n} (h : s.Bypassed) : (s.burstRead path addr n).2.2.2.Bypassed :=
  .iteSnd3 (.pageError h) <| .readWords h

theorem burstWrite {path addr ws} (h : s.Bypassed) : (s.burstWrite path addr ws).2.2.Bypassed :=
  .iteSnd2 (.pageError h) <| .writeWords h

theorem masked {path addr mask data} (h : s.Bypassed) : (s.masked path addr mask data).2.Bypassed :=
  .iteSnd (.pageError h) <| .writeAt h

theorem writeCmd {path bytes addr data} (h : s.Bypassed) : (s.writeCmd path bytes addr data).Bypassed :=
  .ite (.supStore h) <| .answerAccess <| .iteSnd (.pageError h) <| .writeAt h

theorem readCmd {path addr} (h : s.Bypassed) : (s.readCmd path addr).Bypassed := .answerAccess <| .burstRead h

theorem maskedCmd {path addr mask data} (h : s.Bypassed) : (s.maskedCmd path addr mask data).Bypassed :=
  .answerAccess <| .masked h

theorem abortedWrite {addr data} (h : s.Bypassed) : (s.abortedWrite addr data).Bypassed := by
  unfold State.abortedWrite
  split
  · exact h
  · exact .setReg <| .free h

theorem abortAccess {pg x} (h : s.Bypassed) : (s.abortAccess pg x).Bypassed :=
  .ite h <| .answerAccess <| .pageError <| by
      split
      · exact .abortedWrite h
      · exact h

end Sys2Proof.Machine.State.Bypassed
end

section
/-! PROOFS. The permanent bypass (R477) through what a cell and a hub do with frames and meridians, and the host port:
one rule per function of the model, in the order of the model. -/

namespace Sys2Proof.Machine.State.Bypassed

variable {s : State}

/-! The permanent bypass: cycle frames and their records at a cell (09_tree_frames.md). -/

theorem keepBase {u b} (h : s.Bypassed) : (s.keepBase u b).Bypassed := .setUplink h

theorem followBase {b} (h : s.Bypassed) : (s.followBase b).Bypassed :=
  .set <| .upd <| .set <| .upd <| .setReg <| .upd <| .setReg <| .upd <| .setReg <| .upd <| .setReg <| .upd <|
    .setReg h

theorem setCycle {k} (h : s.Bypassed) : (s.setCycle k).Bypassed := .upd <| .set <| .setReg h
theorem correctBy {d} (h : s.Bypassed) : (s.correctBy d).Bypassed := .ite h <| .upd h

theorem correctTime {u k stamp b} (h : s.Bypassed) : (s.correctTime u k stamp b).Bypassed := by
  unfold State.correctTime
  extract_lets _ _ s₁ s₂ _ s₃ s₄ _ _ _ _ s₅
  have h₁ : s₁.Bypassed := .setReg <| .leaveHold h
  have h₂ : s₂.Bypassed := .monitor h₁
  have h₃ : s₃.Bypassed := .correctBy <| .upd h₂
  have h₄ : s₄.Bypassed := .set <| .bump h₂
  have h₅ : s₅.Bypassed := .upd h₄
  exact .ite (.set h₃) <| .ite (.upd h₄) <| .ite h₅ <| .event <| .correctBy h₅

theorem rejected {n} (h : s.Bypassed) : (s.rejected n).Bypassed := .bump h
theorem swapErr (h : s.Bypassed) : s.swapErr.Bypassed := .evFlag <| .bump h

theorem queueEvent {b t seq off a q} (h : s.Bypassed) : (s.queueEvent b t seq off a q).Bypassed :=
  .ite (.count h) <| .ite (.evFlag <| .bump h) <| .ite (.rejected h) <| by
      split
      · exact .ite (.bump h) <| .upd <| .bump h
      · exact .ite (.evFlag <| .bump h) <| .upd h

theorem singleWord {b t q w} (h : s.Bypassed) : (s.singleWord b t q w).Bypassed := by
  unfold State.singleWord
  dsimp only
  split
  · exact .ite (.rejected h) <| .queueEvent h
  · exact .ite (.rejected h) <| .queueEvent h
  · exact .ite (.ite (.rejected h) <| .queueEvent h) <| .rejected h
  · exact .queueEvent h
  · exact .queueEvent h
  · exact .queueEvent h
  · exact .rejected h

theorem trimPair {b t q own w x} (h : s.Bypassed) : (s.trimPair b t q own w x).Bypassed :=
  .ite (.ite (.queueEvent h) <| .rejected h) <| .ite (.rejected h) h

theorem swapPair {b t q own w x} (h : s.Bypassed) : (s.swapPair b t q own w x).Bypassed :=
  .ite h <| .ite (.rejected h) <| .ite (.swapErr h) <| .ite (.rejected h) <| .queueEvent h

theorem takeWords {b t q own l} (h : s.Bypassed) : (s.takeWords b t q own l).Bypassed := by
  fun_induction State.takeWords s b t q own l with
  | case1 => exact h
  | case2 => exact h
  | case3 => exact .rejected h
  | case4 => exact .swapErr h
  | case5 => exact .singleWord h
  | case6 s w x l _ ih => exact ih (.trimPair h)
  | case7 s w x l _ _ ih => exact ih (.swapPair h)
  | case8 s w x l _ _ ih => exact ih (.ite (.singleWord h) h)

theorem holdEnds (h : s.Bypassed) : s.holdEnds.Bypassed := by
  unfold State.holdEnds
  split
  · exact .upd h
  · exact h

theorem holdBegins (h : s.Bypassed) : s.holdBegins.Bypassed := by
  unfold State.holdBegins
  split
  · exact h
  · exact .upd h

theorem storeRefs {f t} (h : s.Bypassed) : (s.storeRefs f t).Bypassed :=
  .epochSeen <| .upd <| .foldl h fun _ _ h' => .setReg h'

theorem obey {u f b stamp q} (h : s.Bypassed) : (s.obey u f b stamp q).Bypassed := by
  unfold State.obey
  extract_lets _ _ s₁ s₂ s₃ s₄ s₅ _ _ s₆ s₇ s₈ _ s₉
  have h₁ : s₁.Bypassed := .followBase <| .count h
  have h₂ : s₂.Bypassed := .setReg <| .setReg h₁
  have h₃ : s₃.Bypassed := .set <| .set <| .set h₂
  have h₄ : s₄.Bypassed := .when h₃ fun h' => .set <| .setCycle h'
  have h₅ : s₅.Bypassed := .set <| .holdEnds h₄
  have h₆ : s₆.Bypassed := .upd h₅
  have h₇ : s₇.Bypassed := .when h₆ .cellBlockNow
  have h₈ : s₈.Bypassed := .monitorSel h₇
  have h₉ : s₉.Bypassed := by
    unfold s₉
    split
    · exact h₈
    · extract_lets s₉
      have h₉ : s₉.Bypassed := .takeWords <| .takeWords h₈
      exact .upd h₉
  exact .storeRefs h₉

theorem setWatch {u w} (h : s.Bypassed) : (s.setWatch u w).Bypassed := .upd <| .set h

theorem newerWatch {u w q} (h : s.Bypassed) : (s.newerWatch u w q).Bypassed := by
  unfold State.newerWatch
  extract_lets _ s₁ _ s₂ s₃
  have h₁ : s₁.Bypassed := .setWatch h
  have h₂ : s₂.Bypassed := .upd h₁
  have h₃ : s₃.Bypassed := .bbWrite <| .event h₂
  exact .ite h₃ <| .set h₃

theorem decide' {u f b stamp q} (h : s.Bypassed) : (s.decide' u f b stamp q).Bypassed :=
  .ite (.obey <| .newerWatch h) <| .ite (.obey h) <| .ite (.bump h) <| .ite (.event <| .bump h) <| .bump h

theorem grantSlot {u m rb} (h : s.Bypassed) : (s.grantSlot u m rb).Bypassed := .ite h <| .setUplink h
theorem moveReport {u r rb} (h : s.Bypassed) : (s.moveReport u r rb).Bypassed := .ite h <| .setUplink h
theorem cutBurst {u} (h : s.Bypassed) : (s.cutBurst u).Bypassed := .ite (.setUplink h) h
theorem kill {u} (h : s.Bypassed) : (s.kill u).Bypassed := .ite h <| .event <| .set <| .cutBurst h

theorem ttEntry {u keyed e} (h : s.Bypassed) : (s.ttEntry u keyed e).Bypassed := by
  unfold State.ttEntry
  extract_lets
  split
  · exact .when h .grantSlot
  · exact .when h .moveReport
  · exact .when h .kill
  · exact h

theorem mqDrop {u} (h : s.Bypassed) : (s.mqDrop u).Bypassed := .bump h
theorem admissionGoesOn {u} (h : s.Bypassed) : (s.admissionGoesOn u).Bypassed := .ite (.setUplink h) h
theorem respond {u r} (h : s.Bypassed) : (s.respond u r).Bypassed := .admissionGoesOn <| .setUplink h

theorem withRoom {u berth f} (h : s.Bypassed) (hf : s.Bypassed → (f s).Bypassed) : (s.withRoom u berth f).Bypassed :=
  .ite h <| .ite (.mqDrop h) <| hf h

theorem recRd {u berth tid addr nw} (h : s.Bypassed) : (s.recRd u berth tid addr nw).Bypassed :=
  .withRoom h fun h' => .respond <| .burstRead h'

theorem recWr {u berth tid pres sealed addr ws} (h : s.Bypassed) :
    (s.recWr u berth tid pres sealed addr ws).Bypassed := .withRoom h fun h' => .respond <| .burstWrite h'

theorem recWrp {u pres sealed addr ws} (h : s.Bypassed) : (s.recWrp u pres sealed addr ws).Bypassed :=
  .ite (.burstWrite h) h

theorem recMwr {u berth tid pres sealed addr mask data} (h : s.Bypassed) :
    (s.recMwr u berth tid pres sealed addr mask data).Bypassed := .withRoom h fun h' => .respond <| .masked h'

theorem recDelay {u berth tid down up} (h : s.Bypassed) : (s.recDelay u berth tid down up).Bypassed :=
  .withRoom h fun h' => .respond <| .when (.set <| .set h') .windowMode

theorem admittedHere {u} (h : s.Bypassed) : (s.admittedHere u).Bypassed := .setReg <| .set <| .setUplink h

theorem recKey {u berth tid body} (h : s.Bypassed) : (s.recKey u berth tid body).Bypassed := .withRoom h fun h' => by
      dsimp only
      split
      · exact .respond h'
      · exact .respond <| .when (.setUplink h') .admittedHere

theorem recBeacon {u body} (h : s.Bypassed) : (s.recBeacon u body).Bypassed := .setUplink h

theorem recOffer {u port body} (h : s.Bypassed) : (s.recOffer u port body).Bypassed :=
  .ite h <| .ite h <| .setUplink h

theorem recRefuse {u body} (h : s.Bypassed) : (s.recRefuse u body).Bypassed :=
  .ite h <| .ite (.setUplink h) <| .setUplink <| .free h

theorem recRelight {u body} (h : s.Bypassed) : (s.recRelight u body).Bypassed := by
  unfold State.recRelight
  split
  · exact .when h .set
  · exact h

theorem hubAccepted {enrol id twin} (h : s.Bypassed) : (s.hubAccepted enrol id twin).2.Bypassed :=
  .iteSnd (.pair <| .addAnchor <| .addAnchor h) h

theorem attemptFailed {u} (h : s.Bypassed) : (s.attemptFailed u).Bypassed :=
  .ite (.setUplink <| .free h) <| .setUplink h

theorem recKxh {u berth tid body} (h : s.Bypassed) : (s.recKxh u berth tid body).Bypassed :=
  .ite h <| .ite (.mqDrop h) <| .ite (.ite h <| .attemptFailed h) <| .ite (.ite (.hubAccepted h) <| .attemptFailed <|
    .hubAccepted h) <| by
      dsimp only
      split
      · exact .ite (.drawScalar <| .hubAccepted h) <| .attemptFailed <| .drawScalar <| .hubAccepted h
      · exact .setUplink <| .admissionGoesOn <| .kxOwn <| .drawScalar <| .hubAccepted h

theorem recordRx {u active port r} (h : s.Bypassed) : (s.recordRx u active port r).Bypassed := .ite (.mqDrop h) <| by
      split
      · exact .when h .recRd
      · exact .ite h <| .ite (.mqDrop h) <| .recWr h
      · exact .ite h <| .ite (.mqDrop h) <| .recMwr h
      · exact .ite h <| .ite (.mqDrop h) <| .recWrp h
      · exact .recKey h
      · exact .recDelay h
      · exact h
      · exact .recOffer h
      · exact .recKxh h
      · exact .recRefuse h
      · exact .when h .recRelight
      · exact .recBeacon h

theorem imageRx {u f} (h : s.Bypassed) : (s.imageRx u f).Bypassed := .ite h <| .ite (.setUplink h) <| .setUplink h

theorem segmentRx {u f} (h : s.Bypassed) : (s.segmentRx u f).Bypassed :=
  .ite (.foldl h fun _ _ h' => .recordRx h') <| .when h .imageRx

theorem frameDrop {u c} (h : s.Bypassed) : (s.frameDrop u c).Bypassed := .evFlag <| .event <| .bump h

theorem frameUnkeyed {u f b stamp} (h : s.Bypassed) : (s.frameUnkeyed u f b stamp).Bypassed := by
  unfold State.frameUnkeyed
  extract_lets _ s₁ s₂ s₃ s₄
  have h₁ : s₁.Bypassed := .setUplink h
  have h₂ : s₂.Bypassed := .when h₁ .correctTime
  have h₃ : s₃.Bypassed := .foldl h₂ fun _ _ h' => .ttEntry h'
  have h₄ : s₄.Bypassed := .segmentRx h₃
  split
  · exact .ite (.setUplink h₄) h₄
  · exact h₄

theorem frameKeyed {u f b stamp q} (h : s.Bypassed) : (s.frameKeyed u f b stamp q).Bypassed :=
  .segmentRx <| .foldl (.when (.when (.ite (.upd <| .setWatch <| .count <| .setUplink h) <| .count <|
    .setUplink h) .correctTime) .decide') fun _ _ h' => .ttEntry h'

theorem countIrcFrame (h : s.Bypassed) : s.countIrcFrame.Bypassed := .upd h

theorem frameRx {u codeOk bs stamp q} (h : s.Bypassed) : (s.frameRx u codeOk bs stamp q).Bypassed := by
  unfold State.frameRx
  refine .ite (.frameDrop h) ?_
  split
  · exact .frameDrop h
  · extract_lets _ own base _ s₁ s₂ s₃
    clear_value own base
    have h₁ : s₁.Bypassed := .when h .setUplink
    have h₂ : s₂.Bypassed := by
      unfold s₂
      split
      · exact .keepBase h₁
      · exact h₁
    have h₃ : s₃.Bypassed := .when h₂ .countIrcFrame
    split
    · exact .frameDrop h
    · exact .ite (.frameDrop h) <| .ite (.frameDrop h) <| .ite (.setUplink <| .frameDrop h) <|
        .ite (.frameKeyed h₃) <| .frameUnkeyed h₃

/-! The permanent bypass: a cell's meridian and what it sends (09_tree_frames.md). -/

theorem cycleLost {k} (h : s.Bypassed) : (s.cycleLost k).Bypassed :=
  .when (.evFlag <| .bump h) fun h' => .bbWrite <| .event <| .holdBegins <| .set h'

theorem refsReach {k} (h : s.Bypassed) : (s.refsReach k).Bypassed := by
  unfold State.refsReach
  extract_lets
  split
  · exact .upd h
  · exact h

theorem cellCycle {k} (h : s.Bypassed) : (s.cellCycle k).Bypassed := by
  unfold State.cellCycle
  extract_lets _ s₁ s₂ _ s₃ s₄
  have h₁ : s₁.Bypassed := .applyCommits <| .setCycle <| .carrierDue <| .reach h
  have h₂ : s₂.Bypassed := .ite h₁ <| .cycleLost h₁
  have h₃ : s₃.Bypassed := .upd h₂
  have h₄ : s₄.Bypassed := by
    unfold s₄
    split
    · exact .ite (.epochApply h₃) h₃
    · exact h₃
  exact .holdsRelease <| .bitmapCheck <| .refsReach h₄

theorem limitReached (h : s.Bypassed) : s.limitReached.Bypassed :=
  .resumeHeld <| .set <| .upd <| .bbFreeze <| .bbWrite <| .evFlag <| .event <| .set <| .holdBegins <| .cellBlockNow <|
    .reach h

theorem degrees {c} (h : s.Bypassed) : (s.degrees c).2.Bypassed := .iteSnd (.rounded h) <| .free h

theorem windowBytes (h : s.Bypassed) : s.windowBytes.2.Bypassed :=
  .iteSnd h <| .rounded <| .rounded <| .rounded <| .rounded h

theorem tempBytes (h : s.Bypassed) : s.tempBytes.2.Bypassed := .iteSnd (.degrees <| .degrees h) <| .degrees h

theorem buildPayload (h : s.Bypassed) : s.buildPayload.Bypassed := by
  unfold State.buildPayload
  split
  next _ s₁ heq =>
  have h₁ : s₁.Bypassed := .ofSnd heq <| .windowBytes h
  split
  next _ s₂ heq =>
  have h₂ : s₂.Bypassed := .ofSnd heq <| .tempBytes h₁
  extract_lets _ _ _ _ _ s₃
  have h₃ : s₃.Bypassed := .updGate h₂
  exact .ite (.bbWrite <| .upd h₃) <| .upd h₃

theorem sendBurst {u bs} (h : s.Bypassed) : (s.sendBurst u bs).Bypassed := .setUplink h

theorem sessionStep {u k} (h : s.Bypassed) : (s.sessionStep u k).Bypassed := by
  unfold State.sessionStep
  extract_lets
  split
  · exact .ite (.setUplink h) h
  · exact h

theorem sendReport {u k} (h : s.Bypassed) : (s.sendReport u k).Bypassed := .sendBurst <| .sessionStep h

theorem sendManagement {u m n} (h : s.Bypassed) : (s.sendManagement u m n).Bypassed :=
  .ite (.setUplink <| .sessionStep h) <| by
      split
      · exact .setUplink <| .sessionStep h
      · exact .sendBurst <| .count <| .admissionGoesOn <| .setUplink <| .setUplink <| .sessionStep h

theorem sendBoarding {u n} (h : s.Bypassed) : (s.sendBoarding u n).Bypassed := .sendBurst <| .setUplink <| .free h
theorem sendRanging {u o t} (h : s.Bypassed) : (s.sendRanging u o t).Bypassed := .sendBurst <| .setUplink h
theorem rejoin {u} (h : s.Bypassed) : (s.rejoin u).Bypassed := .setUplink <| .set <| .set <| .setReg h

/-! The permanent bypass: the meridian of a hub (08_time.md). -/

theorem markCycle {k} (h : s.Bypassed) : (s.markCycle k).Bypassed := .when h .upd

theorem reactB (h : s.Bypassed) : s.reactB.Bypassed := by
  unfold State.reactB
  split
  · exact .ite (.monitorSel <| .upd <| .set h) h
  · exact h

theorem unrestrict (h : s.Bypassed) : s.unrestrict.Bypassed := .foldl h fun _ _ h' => .autoDeblock <| .setBerth h'

theorem takeSnapshot {k t} (h : s.Bypassed) : (s.takeSnapshot k t).Bypassed :=
  .latchSnap <| .stationAngle <| .fuse <| .when h .spActivate

theorem twinCycle (h : s.Bypassed) : s.twinCycle.Bypassed := .upd h

theorem hubCycle {k} (h : s.Bypassed) : (s.hubCycle k).Bypassed :=
  .startWork <| .when (.unrestrict <| .holdsRelease <| .applyCommits <| .takeSnapshot <| .modeMeridian <|
    .markCycle <| .slackEnd <| .reactB <| .setCycle <| .launchAll <| .twinCycle <| .reach h) fun h' => .sliceSend <|
      .sendStatus <| .mirrorApply <| .mirrorGeometry h'

theorem idle (h : s.Bypassed) : s.idle.Bypassed :=
  .settle <| .when (.when (.tick h) fun h1 => .forUpTo h1 fun _ _ h2 => .prbsSend h2) .carrierDue

/-! The permanent bypass: the host port (03_register_pages.md). -/

theorem respondHost {code index data} (h : s.Bypassed) : (s.respondHost code index data).Bypassed := .upd h
theorem hostCrc (h : s.Bypassed) : s.hostCrc.Bypassed := .upd <| .bump h

theorem hostTrans {cmd crc ready f} (h : s.Bypassed) (hf : s.Bypassed → (f s).2.2.2.Bypassed) :
    (s.hostTrans cmd crc ready f).Bypassed :=
  .ite (.hostCrc h) <| .ite (.respondHost h) <|
    .ite (.respondHost <| .upd <| .count <| hf h) <| .respondHost <| .upd <| .count <| hf h

theorem hostStatus {ready} (h : s.Bypassed) : (s.hostStatus ready).Bypassed := by
  unfold State.hostStatus
  extract_lets
  exact .ite (.respondHost <| .upd h) <| by
      split
      · exact .ite (by
              extract_lets s₁
              have h₁ : s₁.Bypassed := .upd h
              exact .respondHost h₁) <| .respondHost h
      · exact .respondHost h

/-! The permanent bypass: management requests of the station (22_station_interface.md). -/

theorem localRec {r} (h : s.Bypassed) : (s.localRec r).2.Bypassed := by
  unfold State.localRec
  split
  · exact .burstRead h
  · exact .masked h
  · exact .burstWrite h

theorem recAnswer {q n a} (h : s.Bypassed) : (s.recAnswer q n a).Bypassed := by
  unfold State.recAnswer
  split
  · exact .upd h
  · exact h

theorem startRec {q n r} (h : s.Bypassed) : (s.startRec q n r).Bypassed :=
  .ite (.recAnswer h) <| .ite (.recAnswer <| .localRec h) <| .ite (.recAnswer h) <| .ite (.recAnswer h) <| .arrive h

theorem takeRequest {src recs} (h : s.Bypassed) : (s.takeRequest src recs).Bypassed :=
  .ite (.bump h) <| .foldl (.upd <| .count h) fun _ _ h' => .startRec h'

end Sys2Proof.Machine.State.Bypassed
end

section
/-! PROOFS. O54: a step but a power-on reset keeps the permanent bypass (R129, R477). -/

namespace Sys2Proof.Machine

open State

/-- The outcome is a next state in which the part is permanently bypassed. -/
def NextBypassed (o : Out) : Prop := ∃ t, o = .next t ∧ t.Bypassed

namespace NextBypassed

variable {s : State}

theorem next (h : s.Bypassed) : NextBypassed (.next s) := ⟨s, rfl, h⟩

theorem act {c : Bool} {f : State → State} (h : s.Bypassed) (hf : (f s).Bypassed) : NextBypassed (act s c f) := by
  cases c
  · exact next h
  · exact next hf.settle

theorem ite {c : Prop} [Decidable c] {o p : Out} (ho : NextBypassed o) (hp : NextBypassed p) :
    NextBypassed (if c then o else p) := by
  split
  · exact ho
  · exact hp

theorem writeRow {path addr data} (h : s.Bypassed) : NextBypassed (writeRow s path addr data) := act h (.writeCmd h)

theorem fieldRow {path f n} (h : s.Bypassed) : NextBypassed (fieldRow s path f n) := writeRow h

theorem readRow {path addr} (h : s.Bypassed) : NextBypassed (readRow s path addr) := act h (.readCmd h)

theorem goRow {path addr data bits} (h : s.Bypassed) : NextBypassed (goRow s path addr data bits) := writeRow h

theorem runEvent {p : EvAct → Bool} {f : State → CellEvent → State} (h : s.Bypassed)
    (hf : ∀ t e, t.Bypassed → (f t e).Bypassed) : NextBypassed (runEvent s p f) := by
  unfold Machine.runEvent
  split
  · exact act h <| hf _ _ <| .takeEvent <| .trimOver h
  · exact next h

/-! Commands that look a value up, or whose bodies share a part. -/

theorem treeContainerComplete (h : s.Bypassed) : NextBypassed (execTreeContainerComplete s) := .act h <| by
      split
      · exact .treeCheck h
      · exact .treeCheck h
      · exact h

theorem gateTimeout {wait} (h : s.Bypassed) : NextBypassed (execGateTimeout wait s) := .act h <| by
      dsimp only
      split
      · exact .abortAccess <| .closeGate <| .when h .lockBreak
      · exact .closeGate <| .when h .lockBreak

theorem gpioEdge {n level} (h : s.Bypassed) : NextBypassed (execGpioEdge n level s) :=
  .act h <| .ite (.ite (.upd <| .event <| .set <| .upd h) <| .upd <| .event <| .set <| .upd h) <| .upd h

theorem bondUp {lidL4 lidL5 node skew} (h : s.Bypassed) : NextBypassed (execBondUp lidL4 lidL5 node skew s) := by
  unfold Machine.execBondUp
  dsimp only
  exact .act h <| .ite (.twinLost <| .set <| .set <| .set h) <| .ite (.twinSend <| .kxOwn <| .holdByTwin <| .event <|
    .set <| .set <| .setLane <| .upd <| .drawScalar <| .set <| .set <| .set <| .set h) <| .holdByTwin <| .event <|
      .set <| .set <| .setLane <| .upd <| .drawScalar <| .set <| .set <| .set <| .set h

theorem pstateDone {lane} (h : s.Bypassed) : NextBypassed (execPstateDone lane s) := .act h <| by
      split
      · dsimp only
        split
        · exact .ite (.laneGo <| .set <| .set <| .setLane <| .laneEnter h) <| .event <| .set <| .set <| .setLane <|
            .laneEnter h
        · exact .event <| .set <| .set <| .setLane <| .laneEnter h
      · exact h

theorem twinTimeExchange {offset} (h : s.Bypassed) : NextBypassed (execTwinTimeExchange offset s) := by
  unfold Machine.execTwinTimeExchange
  refine .act h ?_
  extract_lets _ _ _ _ s₃ s₄ s₅
  have h₃ : s₃.Bypassed := .holdByTwin <| .upd <| .setReg h
  have h₄ : s₄.Bypassed := .ite h₃ <| .steer h₃
  have h₅ : s₅.Bypassed := .ite h₄ <| .event <| .set h₄
  exact .ite (.set h₄) <| .ite (.ite h₅ <| .checkReady <| .set h₅) h₄

theorem holdoverEnter {cause} (h : s.Bypassed) : NextBypassed (execHoldoverEnter cause s) := .act h <| by
      split
      · exact .ite (.enterHold h) h
      · exact .ite (.enterHold h) h
      · exact .holdByTwin h
      · exact .ite h <| .enterHold h

theorem payloadBuild (h : s.Bypassed) : NextBypassed (execPayloadBuild s) := by
  unfold Machine.execPayloadBuild
  split
  · exact .act h <| .buildPayload <| .carrierDue <| .reach h
  · exact .next h

theorem reportBurstTx {uplink} (h : s.Bypassed) : NextBypassed (execReportBurstTx uplink s) := by
  unfold Machine.execReportBurstTx
  split
  · exact .act h <| by
        split
        · exact .sendReport <| .carrierDue <| .reach h
        · exact h
  · exact .next h

theorem mgmtBurstTx {uplink} (h : s.Bypassed) : NextBypassed (execMgmtBurstTx uplink s) := by
  unfold Machine.execMgmtBurstTx
  split
  · exact .act h <| .sendManagement <| .carrierDue <| .reach h
  · exact .next h

theorem eventTrim (h : s.Bypassed) : NextBypassed (execEventTrim s) := .runEvent h fun _ _ h' => by
      split
      · exact .trimEvent h'
      · exact h'

theorem trimEnd (h : s.Bypassed) : NextBypassed (execTrimEnd s) := by
  unfold Machine.execTrimEnd
  split
  · exact .act h <| .trimOver <| .reach h
  · exact .next h

theorem boardingBurstTx {uplink} (h : s.Bypassed) :
    NextBypassed (execBoardingBurstTx uplink s) := by
  -- variables for the command and for the search of the launch, which the kernel would otherwise run on its fuel
  obtain ⟨f, hf⟩ : ∃ f, f = execBoardingBurstTx := ⟨_, rfl⟩
  rw [← hf]
  delta execBoardingBurstTx at hf
  subst hf
  obtain ⟨search, hsearch⟩ : ∃ g, g = @State.nextBy := ⟨_, rfl⟩
  rw [← hsearch]
  beta_reduce
  split
  · exact .act h <| .sendBoarding <| .carrierDue <| .reach h
  · exact .next h

theorem rangingBurstTx {uplink} (h : s.Bypassed) : NextBypassed (execRangingBurstTx uplink s) := by
  unfold Machine.execRangingBurstTx
  split
  · split
    · exact .act h <| .sendRanging <| .carrierDue <| .reach h
    · exact .next h
  · exact .next h

theorem babblerSearchGo {start port} (h : s.Bypassed) : NextBypassed (execBabblerSearchGo start port s) := by
  unfold Machine.execBabblerSearchGo
  split
  · exact .fieldRow h
  · exact .act h <| .searchStart h

theorem searchStep {port light} (h : s.Bypassed) : NextBypassed (execSearchStep port light s) := by
  unfold Machine.execSearchStep
  split
  · exact .act h <| .searchObserve h
  · exact .next h

theorem stageB {ns} (h : s.Bypassed) : NextBypassed (execStageB ns s) := by
  unfold Machine.execStageB
  split
  · exact .act h <| .stageDone <| .when h .stageB
  · exact .next h

theorem stageD {ns} (h : s.Bypassed) : NextBypassed (execStageD ns s) := by
  unfold Machine.execStageD
  split
  · exact .act h <| .stageDone <| .when h .stageD
  · exact .next h

theorem stageE {ns} (h : s.Bypassed) : NextBypassed (execStageE ns s) := by
  unfold Machine.execStageE
  split
  · exact .act h <| .recSample <| .stageDone <| .when h .stageE
  · exact .next h

theorem stageF {ns} (h : s.Bypassed) : NextBypassed (execStageF ns s) := by
  unfold Machine.execStageF
  split
  · exact .act h <| .startWork <| .sliceCapture <| .monitorSel <| .stageF h
  · exact .next h

theorem carrierEpoch (h : s.Bypassed) : NextBypassed (execCarrierEpoch s) := by
  unfold Machine.execCarrierEpoch
  split
  · exact .act h <| .epochApply <| .reach h
  · exact .next h

theorem carrierSample {peak} (h : s.Bypassed) : NextBypassed (execCarrierSample peak s) := by
  unfold Machine.execCarrierSample
  split
  · exact .act h <| .ite (.carrierSample <| .carrierDue <| .reach h) <| .carrierDue <| .reach h
  · exact .next h

theorem cellEngineRun {peak lat} (h : s.Bypassed) : NextBypassed (execCellEngineRun peak lat s) := .act h <| by
      split
      · exact .cellExecution <| .reach h
      · exact .cellExecution h

theorem comparatorAssert {run} (h : s.Bypassed) : NextBypassed (execComparatorAssert run s) := by
  unfold Machine.execComparatorAssert
  exact .act h <| by
      dsimp only
      split
      · exact .faultSource <| .event <| .set <| .set h
      · exact .when (.event <| .set <| .set h) .permBypass
      · exact .faultSource <| .event <| .set <| .set h
      · exact .event <| .set <| .set h

theorem comparatorDeassert {back} (h : s.Bypassed) : NextBypassed (execComparatorDeassert back s) := by
  unfold Machine.execComparatorDeassert
  exact .act h <| .updGate <| .set h

theorem alatch {input} (h : s.Bypassed) : NextBypassed (execAlatch input s) := by
  unfold Machine.execAlatch
  refine .act h ?_
  extract_lets s₁ _ s₂
  have h₁ : s₁.Bypassed := .assertBit <| .setBlockPin h
  have h₂ : s₂.Bypassed := .ite (.assertBit h₁) h₁
  split <;> exact .latchSource h₂

theorem refereeFrameTx {pair} (h : s.Bypassed) : NextBypassed (execRefereeFrameTx pair s) := by
  unfold Machine.execRefereeFrameTx
  refine .act h ?_
  extract_lets s₁ _ _ s₂
  have h₁ : s₁.Bypassed := by
    unfold s₁
    split
    · exact .reach h
    · exact h
  have h₂ : s₂.Bypassed := .sendLink <| .sendLink <| .setRefPair h₁
  exact .ite h₂ <| .pairInterval h₂

theorem refHbRx {link frame} (h : s.Bypassed) : NextBypassed (execRefHbRx link frame s) := .act h <| by
      split
      · exact h
      · exact .bump h
      · exact .bump h
      · exact .bump h
      · exact .linkHb <| .setRefLink h

theorem refereeKx {link frame} (h : s.Bypassed) : NextBypassed (execRefereeKx link frame s) := .ite (.act h <| by
        split
        · exact .hubKx h
        · exact h
        · exact .bump h) <| .act h <| by
      split
      · exact .linkKx h
      · exact h
      · exact .bump h

theorem scrubVisit {upset} (h : s.Bypassed) : NextBypassed (execScrubVisit upset s) := .act h <| .scrub <| .upd <| by
      split
      · exact .timerEnds h
      · exact h

theorem chunkStored (h : s.Bypassed) : NextBypassed (execChunkStored s) := by
  unfold Machine.execChunkStored
  split
  · exact .act h <| .chunkStored h
  · exact .next h

theorem mgmtResponseTx {req} (h : s.Bypassed) : NextBypassed (execMgmtResponseTx req s) := by
  unfold Machine.execMgmtResponseTx
  split
  · exact .act h <| .upd <| .sendEtolwick <| .freshSent h
  · exact .next h

theorem svFrameRx {frame} (h : s.Bypassed) : NextBypassed (execSvFrameRx frame s) := by
  unfold Machine.execSvFrameRx
  split
  · exact .act h <| .stnRx h fun _ h' => .svFrame h'
  · exact .next h

theorem rxToRing {frame} (h : s.Bypassed) : NextBypassed (execRxToRing frame s) := by
  unfold Machine.execRxToRing
  split
  · exact .act h <| .stnRx h fun _ h' => .toRing h'
  · exact .act h <| .stnRx h fun _ h' => h'
  · exact .next h

theorem prpSupervisionTx (h : s.Bypassed) : NextBypassed (execPrpSupervisionTx s) :=
  .act h <| .hwSend <| .upd <| .freshSent <| by
      split
      · exact .timerEnds h
      · exact h

theorem supervisorDebugHalt (h : s.Bypassed) : NextBypassed (execSupervisorDebugHalt s) := by
  have hs : ∀ t : State, t.Bypassed → NextBypassed (execGateStopEnter .debug t) := fun _ h => .act h (.gateStop h)
  refine .act h <| .ite (.when (.upd h) .blockRequest) <| .ite ?_ (.upd h)
  obtain ⟨t, ht, hb⟩ := hs { s with sup := { s.sup with halted := true } } (.upd h)
  rw [ht]
  exact hb

theorem tevPulseEnd {n} (h : s.Bypassed) : NextBypassed (execTevPulseEnd n s) := by
  unfold Machine.execTevPulseEnd
  split
  · exact .act h <| .updGate <| .reach h
  · exact .next h

end NextBypassed

/-- Every command but the two power-on resets and the ROLE reading keeps the permanent bypass: the command runs functions
of the model, each with its rule, under `act`. -/
theorem exec_bypassed {i : Instr} {s : State} (h : s.Bypassed) (hp : i ≠ .powerOnReset) (hv : i ≠ .vddioBelow1v2)
    (hr : ∀ band flash n, i ≠ .rolePulldownRead band flash n) : NextBypassed (exec i s) := by
  cases i with (dsimp only [exec])
  | powerOnReset => exact absurd rfl hp
  | vddioBelow1v2 => exact absurd rfl hv
  | vddioAbove1v2 => exact .act h <| .upd h
  | nrstAssert => exact .act h <| .ite (.upd h) <| .deviceReset <| .upd h
  | nrstRelease => exact .act h <| .leaveReset <| .upd h
  | rolePullupRead => exact .act h <| .upd h
  | rolePulldownRead => exact absurd rfl (hr _ _ _)
  | containerCheck => exact .act h <| .checkSlot h
  | bootRetry => exact .act h <| .bootRetry h
  | treeContainerComplete => exact .treeContainerComplete h
  | firstOwnership => exact .act h <| .takeOwner h
  | ownerChangeEntry => exact .act h <| .upd h
  | ownerRevoke => exact .act h <| .presWindow <| .upd <| .errArrive <| .free <| .revokeOwner h
  | cpuEclaimClaim => exact .act h <| .upd <| .eclaim h
  | cpuEclaimComplete => exact .act h <| .upd <| .ecomplete h
  | nmiRet => exact .act h <| .upd <| .nmiReturn h
  | wdtKick => exact .act h <| .upd <| .wdtKick h
  | wdtFirstStage => exact .act h <| .wdtGrace <| .health <| .errArrive <| .timerEnds h
  | wdtSecondStage => exact .act h <| .restart h
  | softwareReset => exact .act h <| .restart h
  | clockFailureReset => exact .act h <| .restart h
  | clkDomWrite => exact .writeRow h
  | rampStep =>
    exact .act h <| .ite (.rampState <| .followIrc <| .set h) <| .domLatched <| .rampState <| .followIrc <| .set h
  | forcedSwitch => exact .act h <| .event <| .set h
  | clockMonitorWindow => exact .act h <| .monitorWindow h
  | sourceNoEdge => exact .act h <| .srcFail h
  | spllUnlock => exact .act h <| .srcFail <| .ite (.event <| .bump <| .set h) <| .event <| .set h
  | ircMeasurement =>
    exact .act h <| .ite (.followIrc <| .upd <| .setReg h) <| .ite (.errArrive <| .set <| .event <| .followIrc <|
      .upd <| .setReg h) <| .set <| .followIrc <| .upd <| .setReg h
  | speedCount => exact .act h <| .monitor <| .speedUpdate h
  | xoscStartupEnd => exact .act h <| .monitorWindow <| .upd h
  | spllLock => exact .act h <| .set h
  | gateHandshake => exact .act h <| .closeGate h
  | gateTimeout => exact .gateTimeout h
  | ungate => exact .act h <| .set h
  | registerWrite => exact .act h <| .writeCmd h
  | maskedWrite => exact .act h <| .maskedCmd h
  | pgCommitRequest => exact .writeRow h
  | pageSrst => exact .fieldRow h
  | pageHold => exact .fieldRow h
  | pageHeld => exact .act h <| .resumeHeld <| .meridiansStop <| .set h
  | pageEnable => exact .fieldRow h
  | pgEvtSet => exact .writeRow h
  | guardLock => exact .fieldRow h
  | hostEnable => exact .fieldRow h
  | hostBusReleased => exact .act h <| .upd h
  | hostRd => exact .act h <| .hostTrans h .burstRead
  | hostWr => exact .act h <| .hostTrans h .burstWrite
  | hostMwr => exact .act h <| .hostTrans h .masked
  | hostStat => exact .act h <| .ite (.hostCrc h) <| .hostStatus h
  | releaseRequest => exact .fieldRow h
  | busReclaim => exact .act h <| .ite (.upd h) <| .upd h
  | busReturn => exact .act h <| .upd <| .set h
  | treeRaGo => exact .goRow h
  | remoteTimeout => exact .act h <| .remoteTimeout h
  | gpioFnWrite => exact .writeRow h
  | gpioEdge => exact .gpioEdge h
  | uartTxWrite => exact .writeRow h
  | uartByteSent => exact .act h <| .uartNext h
  | uartByteRx => exact .act h <| .ite (.event <| .bump <| .when h .bump) <| .upd <| .when (.when h .bump) .event
  | urxRead => exact .readRow h
  | ledToggle => exact .act h <| .upd h
  | presencePress => exact .act h <| .press h
  | presenceRelease => exact .act h <| .presRelease h
  | presenceWindowExpire => exact .act h <| .presClose <| .timerEnds h
  | presenceClose => exact .fieldRow h
  | pressStuck => exact .act h <| .errArrive <| .event <| .set <| .presClose h
  | stuckClear => exact .act h <| .set h
  | sealSequenceChange => exact .act h <| .upd h
  | sealSample => exact .act h <| .sealCompare h
  | secOwnRevoke => exact .writeRow h
  | attestationGo => exact .fieldRow h
  | attDone => exact .act h <| .attDone h
  | recordExport => exact .fieldRow h
  | recordRestore => exact .fieldRow h
  | recDone => exact .act h <| .recDone h
  | otpProgram => exact .fieldRow h
  | otpProgramDone => exact .act h <| .otpDone h
  | debugUnlock => exact .fieldRow h
  | debugRelock => exact .fieldRow h
  | groupKeyRenewal => exact .act h <| .renewGroup h
  | sessionKeyRenewal => exact .act h <| .renewSession h
  | syncGained => exact .act h <| .event <| .setLane <| .set <| .set <| .set <| .set h
  | syncLost => exact .act h <| .laneUnsync <| .event <| .bump <| .bump h
  | rateHuntSwitch => exact .act h <| .ite (.reloadExpect <| .set <| .scanAbort h) <| .set h
  | polFlip => exact .act h <| .event <| .bump <| .set h
  | bondUp => exact .bondUp h
  | bondErr => exact .act h <| .event <| .set <| .set h
  | lossOfSignal => exact .act h <| .event <| .set <| .when h .set
  | cdrLock => exact .act h <| .ite (.set <| .upd <| .set <| .set h) <| .upd <| .set <| .set h
  | lanePwrRequest => exact .fieldRow h
  | pstateDone => exact .pstateDone h
  | eyeScanGo => exact .fieldRow h
  | esDone => exact .act h <| .event <| .set <| .set <| .set <| .setReg h
  | eyeScanAbort => exact .act h <| .set <| .set <| .set <| .setReg h
  | prbsInject => exact .fieldRow h
  | prbsClear => exact .fieldRow h
  | prbsLock => exact .act h <| .event <| .set h
  | prbsRelock => exact .act h <| .ite (.bump <| .set <| .prbsErrors h) <| .prbsErrors h
  | brstPulse => exact .act h <| .setLane <| .reach h
  | upstreamBurstRx => exact .act h <| .ite (.zoneRx h) <| .burstRx h
  | timeIncWrite => exact .writeRow h
  | timeCmdStep => exact .fieldRow h
  | timeCmdSet => exact .fieldRow h
  | stepDone => exact .act h <| .applyWaiting h
  | timeNowRead => exact .readRow h
  | meridian => exact .ite (.act h <| .hubCycle h) <| .act h <| .cellCycle h
  | ppsPulse => exact .act h <| .upd h
  | ptpTimestamp => exact .act h <| .ite (.when (.upd <| .pushTs h) .count) <| .pushTs h
  | tsqPop => exact .readRow h
  | twinTimeExchange => exact .twinTimeExchange h
  | holdoverEnter => exact .holdoverEnter h
  | readyTest => exact .act h <| .readyTest h
  | cycleFrameRx => exact .act h <| .frameRx <| .codeGroups <| .reach h
  | mgrant => exact .act h <| .when h .grantSlot
  | rslot => exact .act h <| .when h .moveReport
  | laserKill => exact .act h <| .when h .kill
  | mgmtRdRecord => exact .act h <| .ite (.recRd h) <| .mqDrop h
  | mgmtWrRecord => exact .act h <| .ite (.recWr h) <| .mqDrop h
  | mgmtMwrRecord => exact .act h <| .recMwr h
  | mgmtWrpRecord => exact .act h <| .ite (.recWrp h) <| .mqDrop h
  | keyRecord => exact .act h <| .ite (.recKey h) <| .mqDrop h
  | delayRecord => exact .act h <| .recDelay h
  | tbaseRecord => exact .act h <| .ite (.keepBase h) <| .mqDrop h
  | beaconRecord => exact .act h <| .ite (.recBeacon h) <| .mqDrop h
  | offerRecord => exact .act h <| .ite (.recOffer h) <| .mqDrop h
  | kxhRecord => exact .act h <| .ite (.recKxh h) <| .mqDrop h
  | refuseRecord => exact .act h <| .ite (.recRefuse h) <| .mqDrop h
  | restoreRecord => exact .act h <| .ite (.recRelight h) <| .mqDrop h
  | cellMeridian => exact .act h <| .cellCycle h
  | holdLimit => exact .act h <| .limitReached h
  | payloadBuild => exact .payloadBuild h
  | reportBurstTx => exact .reportBurstTx h
  | mgmtBurstTx => exact .mgmtBurstTx h
  | mgmtBurstRx => exact .act h <| .mgmtBurst h fun _ _ h' => .learnWatch h'
  | eventByp => exact .runEvent h fun _ _ h' => .moveEvent h'
  | eventInsPos => exact .runEvent h fun _ _ h' => .moveEvent h'
  | eventInsNeg => exact .runEvent h fun _ _ h' => .moveEvent h'
  | eventBlockCell =>
    exact .runEvent h fun _ _ h' => .ite h' <| .unlessStopped h' fun h2 => .bbAction <| .moveEvent h2
  | eventTrim => exact .eventTrim h
  | trimEnd => exact .trimEnd h
  | eventFireThy => exact .runEvent h fun _ _ h' => .ite h' <| .unlessStopped h' fun h2 => .bbAction <| .fireThy h2
  | eventPermBypass => exact .runEvent h fun _ _ h' => .unlessStopped h' fun h2 => .permBypass h2
  | eventSwapHead => exact .runEvent h fun _ _ h' => .moveEvent h'
  | deadTimeTurnOn => exact .act h <| .updGate h
  | enrolmentWindowOpen => exact .fieldRow h
  | enrolmentWindowClose => exact .fieldRow h
  | enrolmentWindowExpire => exact .act h <| .setWindow <| .timerEnds h
  | boardingBurstTx => exact .boardingBurstTx h
  | boardingBackoff => exact .act h <| .attemptFailed h
  | boardingBurstRx => exact .act h <| .zoneRx h
  | collision => exact .act h <| .event <| .bump h
  | rangingBurstTx => exact .rangingBurstTx h
  | rangingBurstRx => exact .act h <| .zoneRx h
  | rangingTimeout => exact .act h <| .rangingTimeout h
  | rejoinTrigger => exact .act h <| .rejoin h
  | roundBoundary => exact .act h <| .ite (.hubRound h) <| .cellRound h
  | babblerSearchGo => exact .babblerSearchGo h
  | searchStep => exact .searchStep h
  | berthCmdRd => exact .fieldRow h
  | berthCmdWr => exact .fieldRow h
  | berthCmdClrcnt => exact .fieldRow h
  | stageB => exact .stageB h
  | stageC => exact .act h <| .stageDone <| .when h fun h' => .upd <| .hubExecution h'
  | stageD => exact .stageD h
  | stageE => exact .stageE h
  | stageF => exact .stageF h
  | protectiveCommand => exact .goRow h
  | modeChangeGo => exact .goRow h
  | carrierEpoch => exact .carrierEpoch h
  | carrierSample => exact .carrierSample h
  | cellEngineRun => exact .cellEngineRun h
  | rankCmdRd => exact .fieldRow h
  | rankCmdWr => exact .fieldRow h
  | rankCmdSetc => exact .fieldRow h
  | rankCmdSetv => exact .fieldRow h
  | programLoad => exact .writeRow h
  | loadDone => exact .act h <| .loadDone h
  | handoverGo => exact .goRow h
  | handoverAbort => exact .goRow h
  | sigdataWrite => exact .writeRow h
  | chainQueueWrite => exact .writeRow h
  | chainCmdRd => exact .fieldRow h
  | rcuClear => exact .writeRow h
  | rcuClearDone => exact .act h <| .set h
  | injectorGo => exact .fieldRow h
  | injectorStop => exact .fieldRow h
  | freqResponseGo => exact .fieldRow h
  | faultAssert => exact .act h <| .faultSource h
  | safeLevelTurnOn => exact .act h <| .updGate h
  | gateFclr => exact .fieldRow h
  | gateStopEnter => exact .act h <| .gateStop h
  | gateStopExit => exact .act h <| .gateResume h
  | thyDone => exact .act h <| .updGate h
  | gate5Release => exact .act h <| .updGate h
  | delayLineCal =>
    exact .act h <| .ite (.updGate h) <| .ite (.ite (.set <| .set <| .updGate h) <| .event <| .set <| .set <| .set <|
      .updGate h) <| .set <| .set <| .set <| .updGate h
  | tevArm => exact .goRow h
  | tevDisarm => exact .fieldRow h
  | tevFired =>
    exact .act h <| .ite (.updGate <| .event <| .updGate <| .reach h) <| .set <| .event <| .updGate <| .reach h
  | adcResult => exact .act h <| .result h
  | comparatorAssert => exact .comparatorAssert h
  | comparatorDeassert => exact .comparatorDeassert h
  | alatch => exact .alatch h
  | disc => exact .act h <| .upd <| .bump <| .event <| .latchSource <| .assertBit h
  | hubDeblock => exact .writeRow h
  | hubAclr => exact .writeRow h
  | hubBset => exact .writeRow h
  | hubBclr => exact .writeRow h
  | deblockSequenceQueue => exact .act h <| .sequence h
  | startupTestOpen => exact .act h <| .upd h
  | startupPass => exact .act h <| .upd <| .event h
  | singleBerthDeblock => exact .writeRow h
  | cellDeblock => exact .writeRow h
  | cellBlock => exact .writeRow h
  | cellPermBypass => exact .writeRow h
  | blkos =>
    exact .act h <| .bbFreeze <| .bbWrite <| .monitor <| .set <| .set <| .upd <| .evFlag <| .forceBlock <| .event <|
      .bump h
  | blkseenClear => exact .act h <| .upd <| .reach h
  | twinKxFrame => exact .act h <| .twinRx h fun _ _ h' => .twinKx h'
  | twinHelloFrame => exact .act h <| .twinRx h fun _ _ h' => .twinHello h'
  | twinStatusRx => exact .act h <| .twinRx h fun _ _ h' => .twinStatus h'
  | twinSliceRx => exact .act h <| .twinRx h fun _ _ h' => .twinSlice h'
  | twinCommitRx => exact .act h <| .twinRx h fun _ _ h' => .twinCommit h'
  | heartbeatTx => exact .act h <| .hubHeartbeat <| .intervalEnd <| .upd <| .reach h
  | refereeFrameTx => exact .refereeFrameTx h
  | refHbRx => exact .refHbRx h
  | linkMiss => exact .act h <| .linkMissed h
  | refereeListenEnd => exact .act h <| .listenEnd <| .reach h
  | refereeKx => exact .refereeKx h
  | takeRx => exact .act h <| .refereeRx h fun _ _ h' => .takeCmd h'
  | yieldRx => exact .act h <| .refereeRx h fun _ _ h' => .yieldCmd h'
  | rstRx => exact .act h <| .refereeRx h fun _ _ h' => .learnWatch h'
  | refLost => exact .act h <| .upd <| .reach h
  | selfTakeover => exact .act h <| .takeControl h
  | preferredReclaim => exact .act h <| .takeControl <| .timerEnds h
  | schedSubmit => exact .goRow h
  | hwArrival => exact .act h <| .arrive h
  | schedulerStep => exact .act h <| .schedulerStep h
  | schgTake => exact .readRow h
  | schgDone => exact .writeRow h
  | delayRelease => exact .act h <| .ticks h
  | schgCancel => exact .writeRow h
  | schqFlush => exact .fieldRow h
  | itemStuck => exact .act h <| .itemStuck h
  | scrubVisit => exact .scrubVisit h
  | arbiterGrant => exact .act h <| .arbGrant h
  | memLockOpen => exact .fieldRow h
  | memLockClose => exact .fieldRow h
  | lockBreak => exact .act h <| .lockBreak <| .when h .timerEnds
  | errPop => exact .fieldRow h
  | errAck => exact .writeRow h
  | errSwlog => exact .writeRow h
  | chunkStored => exact .chunkStored h
  | holdOffEnd => exact .act h <| .setRecState <| .timerEnds h
  | recForce => exact .writeRow h
  | recRel => exact .writeRow h
  | recRelall => exact .writeRow h
  | bbRearm => exact .fieldRow h
  | monSnap => exact .goRow h
  | ltAdd => exact .goRow h
  | ltLock => exact .fieldRow h
  | lifetimeSecond => exact .act h <| .lifetimeSecond h
  | lifetimeHour => exact .act h <| .lifetimeHour h
  | stationLinkUp => exact .act h <| .when (.stnLink <| .freshSent h) .kxStart
  | stationKxRx => exact .act h <| .stnRx h fun _ h' => .ite h' <| .ite (.bump h') <| .stnKxAnswer h'
  | stnRekey => exact .fieldRow h
  | stnClrcnt => exact .fieldRow h
  | setpointRx => exact .act h <| .stnRx h fun _ h' => .setpoint h'
  | spStale => exact .act h <| .event <| .set <| .timerEnds h
  | mgmtRequestRx => exact .act h <| .stnRx h fun _ h' => .checked h' fun _ h2 => .takeRequest h2
  | mgmtResponseTx => exact .mgmtResponseTx h
  | svFrameRx => exact .svFrameRx h
  | svLost => exact .act h <| .event <| .bump <| .timerEnds h
  | txPost => exact .writeRow h
  | timedTx => exact .act h <| .timedSend h
  | rxToRing => exact .rxToRing h
  | streamTx => exact .act h <| .streamChunk h
  | prpSupervisionTx => exact .prpSupervisionTx h
  | supplyMonitorRelease => exact .act h <| .leaveReset <| .upd h
  | faultSourceRelease => exact .act h <| .updGate h
  | hubSourceRelease =>
    exact .act h <| .ite (.assertBit <| .assertBit <| .setBlockPin h) <| .assertBit <| .setBlockPin h
  | stationLinkDown => exact .act h <| .stnLink h
  | supervisorDebugHalt => exact .supervisorDebugHalt h
  | ppsPulseEnd => exact .act h <| .upd h
  | cycleMarkEnd => exact .act h <| .upd h
  | tevPulseEnd => exact .tevPulseEnd h
  | thyristorPulse => exact .act h <| .ite (.ite h <| .updGate h) <| .ite (.updGate h) <| .ite h <| .updGate h

/-- The strap codes 0, 1, 2 are the roles cell, hub, referee (R12); every other code is role fault. -/
theorem roleOf_cases (strap : Nat) :
    roleOf strap = .cell ∨ roleOf strap = .hub ∨ roleOf strap = .referee ∨ roleOf strap = .fault := by
  unfold roleOf
  split <;> simp

theorem romStart_settle_role (s : State) (n : Nat) : (s.romStart n).settle.role = s.role := by
  rw [settle_role, (romFrame_romStart s n).role]

/-- The ROLE reading clears the permanent bypass only of a part that it makes a hub or a referee. -/
theorem rolePulldownRead_keeps {s : State} {band flash n} (h : s.Bypassed) :
    ∃ t, execRolePulldownRead band flash n s = .next t ∧ (t.Bypassed ∨ t.isHub = true ∨ t.isRef = true) := by
  rw [execRolePulldownRead]
  by_cases hphase : (s.phase == .pullDown) = true
  · rw [act_eq_settle _ hphase]
    refine ⟨_, rfl, ?_⟩
    extract_lets strap role _ _ _ _ _ _ s₁
    have hrole : role = .cell ∨ role = .hub ∨ role = .referee ∨ role = .fault := by
      unfold role
      split
      · simp
      · exact roleOf_cases strap
    rcases hrole with hcell | hhub | href | hfault
    · rw [if_neg (by simp [hcell])]
      have h₁ : s₁.Bypassed := by
        show (s.gate.pbyp && decide (role = .cell)) = true
        rw [hcell, show s.gate.pbyp = true from h]
        rfl
      exact .inl <| .settle <| .romStart h₁
    · rw [if_neg (by simp [hhub]), isHub, romStart_settle_role, show s₁.role = role from rfl, hhub]
      exact .inr <| .inl rfl
    · rw [if_neg (by simp [href]), isRef, romStart_settle_role, show s₁.role = role from rfl, href]
      exact .inr <| .inr rfl
    · rw [if_pos hfault]
      exact .inl <| .settle <| .upd <| .set <| .set <| .set <| .set <| .set <| .upd h
  · rw [act_eq_self_of_not _ (by simpa using hphase)]
    exact ⟨s, rfl, .inl h⟩

/-- Settles O54: every function of the model but the power-on reset and the ROLE reading keeps the permanent bypass, so
every command but those two does (`exec_bypassed`), and so does an idle tick. -/
theorem permanentBypassStays : Obligations.PermanentBypassStays := by
  intro s hs hp hv
  have h : s.Bypassed := hs
  unfold step
  split
  next => exact ⟨s.idle, rfl, .inl <| Bypassed.idle h⟩
  next i rest hq =>
    have hrest : State.Bypassed { s with pending := rest } := .upd h
    rw [hq, List.head?_cons] at hp hv
    by_cases hr : ∃ band flash n, i = .rolePulldownRead band flash n
    · obtain ⟨band, flash, n, rfl⟩ := hr
      exact rolePulldownRead_keeps hrest
    · obtain ⟨t, ht, hb⟩ := exec_bypassed hrest (fun e => hp (e ▸ rfl)) (fun e => hv (e ▸ rfl))
        fun band flash n e => hr ⟨band, flash, n, e⟩
      exact ⟨t, ht, .inl hb⟩

end Sys2Proof.Machine
end

section
/-! PROOFS. The seal sequence while ROLE is read (R35, R37, R39): "during reset" of R39 runs until the ROLE reading completes,
and SEAL_OUT is driven low all along, although the part has left the phase `held`. -/

namespace Sys2Proof.Machine

/-- Until ROLE has been read, and in role fault, SEAL_OUT keeps its level. -/
theorem exec_sealSequenceChange_of_not_alive {s : State} (level : Bool) (h : s.alive = false) :
    exec (.sealSequenceChange level) s = .next s := by
  rw [exec_sealSequenceChange]
  exact act_eq_self_of_not _ h

/-- A part released from its power-on reset, in the pull-up phase of the ROLE reading. -/
def readingPart : State := { State.reset with phase := .pullUp, pins := { nRst := true } }

theorem exec_nrstRelease (s : State) : exec .nrstRelease s = execNrstRelease s := rfl

/-- NRST_RELEASE leads there from reset: the state of the refutation is one that a command leaves. -/
theorem exec_nrstRelease_reset : exec .nrstRelease State.reset = .next readingPart := by
  have ht : (State.leaveReset { State.reset with pins := { nRst := true } }).settle = readingPart := by decide +kernel
  rw [exec_nrstRelease, execNrstRelease, act_eq_settle _ (by decide)]
  exact congrArg Host.Outcome.next ht

/-- Refutes O12: its clause for the seal sequence asks only that the part is not in the phase `held`. In `readingPart` ROLE
is still being read, and SEAL_OUT stays low, where the clause has it follow the sequence. -/
theorem not_presenceAndSeal : ¬ Obligations.PresenceAndSeal := by
  intro h
  obtain ⟨-, -, -, -, -, -, hsequence, -⟩ := h
  have driven := hsequence readingPart true (by decide) (by decide)
  have kept : exec (.sealSequenceChange true) readingPart = .next readingPart :=
    exec_sealSequenceChange_of_not_alive true (by decide)
  have hs := Host.Outcome.next.inj (kept.symm.trans driven)
  have hpin : readingPart.pins.sealOut = true := congrArg (fun t => t.pins.sealOut) hs
  exact absurd hpin (by decide)

end Sys2Proof.Machine
end

section
/-! PROOFS. The hub's own records that wait for room in a port's queue (R290, log 128): they join the queue in order, so that
a new one goes behind those that wait, even where the queue has got room again. The withdrawal of deblock records (R513)
makes such room. -/

namespace Sys2Proof.Machine

/-- An element reads back as it was put. -/
theorem nth_setAt_same {α : Type} (d : α) (l : List α) (i : Nat) (x : α) : nth (setAt d l i x) i d = x := by
  induction l, i, x using setAt.induct with
  | case1 | case3 => rfl
  | case2 _ _ ih | case4 _ _ _ _ ih => exact ih

namespace State

@[simp] theorem port_setPort_same (s : State) (p : Nat) (x : PortSt) : (s.setPort p x).port p = x :=
  nth_setAt_same _ s.ports p x

/-- A record of the hub goes behind those that wait. -/
theorem hubRecord_of_waiting {s : State} {p : Nat} (r : MgmtRec) (h : (s.port p).wait ≠ []) :
    s.hubRecord p r = s.setPort p { s.port p with wait := (s.port p).wait ++ [r] } := by
  simp [hubRecord, h]

theorem hubRecord_mq_of_waiting {s : State} {p : Nat} (r : MgmtRec) (h : (s.port p).wait ≠ []) :
    ((s.hubRecord p r).port p).mq = (s.port p).mq := by
  rw [hubRecord_of_waiting r h, port_setPort_same]

/-- A KXH draws two scalars and sends one record of the hub. -/
theorem sendKxh_eq_hubRecord (s : State) (i : Nat) :
    ∃ r, (s.sendKxh i).2 = State.hubRecord { s with freeCtr := s.freeCtr + 1 + 1 } (i / 256) r := ⟨_, rfl⟩

@[simp] theorem setBerth_port (s : State) (i p : Nat) (b : BerthSt) : (s.setBerth i b).port p = s.port p := rfl

/-- A session renewal leaves the queue of a port where records wait. -/
theorem renewSession_mq_of_waiting {s : State} {i : Nat} (h : (s.port (i / 256)).wait ≠ []) :
    ((s.renewSession i).port (i / 256)).mq = (s.port (i / 256)).mq := by
  obtain ⟨r, hr⟩ := s.sendKxh_eq_hubRecord i
  unfold renewSession
  split
  · rw [setBerth_port, hr]
    exact hubRecord_mq_of_waiting r h
  · rfl

/-- The hardwired logic takes records out of a queue and puts none in (R513). -/
theorem withdrawDeblocks_mq_length_le (s : State) (p : Nat) :
    ((s.withdrawDeblocks.port p).mq).length ≤ (s.port p).mq.length := by
  simp only [withdrawDeblocks, port, nth, List.getElem?_map]
  cases s.ports[p]? with
  | none => exact Nat.le_refl _
  | some q => exact List.length_filter_le _ _

theorem settle_mq_length_le (s : State) (p : Nat) : ((s.settle).port p).mq.length ≤ (s.port p).mq.length := by
  have same {u v : State} (h : v.ports = u.ports) : (v.port p).mq.length ≤ (u.port p).mq.length :=
    Nat.le_of_eq (by rw [port, port, h])
  unfold settle
  split
  · exact same (by rw [recordState_eq, forceDb_eq, forceGates_eq])
  · split
    · calc (s.selfEnter.forceVb.markReclaim.port p).mq.length
          ≤ (s.selfEnter.forceVb.port p).mq.length := same ((frame_markReclaim _).1 .ports (by decide))
        _ ≤ (s.selfEnter.port p).mq.length := by
          unfold forceVb
          split
          · exact (same (event_ports _ _ _)).trans (withdrawDeblocks_mq_length_le _ p)
          · exact Nat.le_refl _
        _ ≤ (s.port p).mq.length := same ((frame_selfEnter s).1 .ports (by decide))
    · exact Nat.le_refl _

end State

theorem exec_sessionKeyRenewal (berth : Nat) (s : State) :
    exec (.sessionKeyRenewal berth) s = execSessionKeyRenewal berth s := rfl

/-- After a session renewal on a port where records wait, no more records are queued there than before. -/
theorem yields_sessionKeyRenewal_of_waiting {s : State} {i : Nat} (hon : s.portRx (i / 256) = true)
    (hwait : (s.port (i / 256)).wait ≠ []) :
    Yields (.sessionKeyRenewal i) s fun t => (t.port (i / 256)).mq.length ≤ (s.port (i / 256)).mq.length := by
  refine yields_of_act (exec_sessionKeyRenewal ..) hon ?_
  calc ((s.renewSession i).settle.port (i / 256)).mq.length
      ≤ ((s.renewSession i).port (i / 256)).mq.length := State.settle_mq_length_le _ _
    _ = (s.port (i / 256)).mq.length := by rw [State.renewSession_mq_of_waiting hwait]

/-- The KEY record of a group-key renewal to berth `b` of port 0, with TID `tid`. -/
def keyRecord (b tid : Nat) : MgmtRec := { berth := b, rtype := 0x10, tid, marks := 0, body := List.replicate 32 0 }

/-- A deblocked hub with port 0 running and 64 records queued there, 63 KEY records and a deblock record; a 64th KEY record
waits for room, and the session key of berth 1 is at the end of its life. -/
def crowdedHub : State :=
  let mq := (List.range 63).map fun b => keyRecord b b
  { role := .hub, phase := .running, pins := { nRst := true }, now := 2 ^ 72
    regs := [Pg.TREE 0, Pg.SAFE].flatMap fun pg => [(R.PG_CTRL pg, 1), (R.PG_STAT pg, 1)]
    berths := [(1, { link := .admitted })]
    ports := [{ mq := mq ++ [State.deblockRecord {} 0], wait := [keyRecord 63 0], nextTid := 64 }, {}, {}, {}]
    safe := { vb := true } }

/-- That hub blocked, the deblock record withdrawn: room for one record, and a record that waits. -/
def blockedHub : State :=
  let s := (crowdedHub.event Pg.SAFE 15).event Pg.SAFE 8
  { s with safe := { breq := true, breqSrc := 1 } }.withdrawDeblocks

theorem exec_hubBset (path : Path) (s : State) : exec (.hubBset path) s = execHubBset path s := rfl

/-- HUB_BSET leads from the one to the other: the state of the refutation is one that a command leaves. -/
theorem exec_hubBset_crowdedHub : exec (.hubBset .supervisor) crowdedHub = .next blockedHub := by
  have ht : (crowdedHub.writeCmd .supervisor 4 R.SAFE_HCMD 0x0B51).settle = blockedHub := by decide +kernel
  rw [exec_hubBset, execHubBset, writeRow, act_eq_settle _ (by decide)]
  exact congrArg Host.Outcome.next ht

/-- Refutes O19: its clause for SESSION_KEY_RENEWAL asks for room in the port's queue, but not that no record waits. In
`blockedHub` the KXH record of berth 1 goes behind the KEY record that waits, and the queue gets no longer. -/
theorem not_berthTable : ¬ Obligations.BerthTable := by
  intro h
  obtain ⟨-, -, -, -, -, -, -, -, -, -, hsession, -⟩ := h
  have queued := hsession blockedHub 1 (by decide) (by decide +kernel) (by decide)
  have waits := yields_sessionKeyRenewal_of_waiting (s := blockedHub) (i := 1) (by decide) (by decide)
  obtain ⟨t, ⟨-, hlonger⟩, hle⟩ := queued.both waits
  omega

end Sys2Proof.Machine
end

section
/-! PROOFS. Accesses to the registers of the TIME page (R77, R78, R224, R243): the page is there in every role and its
registers are neither guarded nor static, so that a write stores its word and a read shows what the access leaves. -/

namespace Sys2Proof.Machine

namespace State

@[simp] theorem settle_now (s : State) : s.settle.now = s.now := (frame_settle s).1 .now (by decide)
@[simp] theorem settle_resp (s : State) : s.settle.resp = s.resp := (frame_settle s).1 .resp (by decide)

@[simp] theorem settle_tsQueue (s : State) (p : Nat) : s.settle.tsQueue p = s.tsQueue p := by rw [tsQueue, settle_time]; rfl

/-- The hardwired logic writes no register of the TIME page. -/
theorem settle_reg_time (s : State) {a : Nat} (hpage : a / 0x400 = Pg.TIME) : s.settle.reg a = s.reg a := by
  have hpages : ∀ b ∈ settleRegs, b / 0x400 ≠ Pg.TIME := by decide
  exact settle_reg s fun hmem => hpages a hmem hpage

theorem settle_get_time (s : State) {f : Fld} (hpage : f.addr / 0x400 = Pg.TIME) : s.settle.get f = s.get f := by
  simp [State.get, settle_reg_time s hpage]

/-- `s` with the answer `r` to an access. -/
def answering (s : State) (r : Resp) : State := { s with resp := r }

@[simp] theorem answering_reg (s : State) (r : Resp) (a : Nat) : (s.answering r).reg a = s.reg a := rfl
@[simp] theorem answering_get (s : State) (r : Resp) (f : Fld) : (s.answering r).get f = s.get f := rfl

@[simp] theorem answering_ofsValue (s : State) (r : Resp) : (s.answering r).ofsValue = s.ofsValue := by
  simp only [ofsValue, answering_reg]

@[simp] theorem answering_setValue (s : State) (r : Resp) : (s.answering r).setValue = s.setValue := by
  simp only [setValue, answering_reg, answering_get]

/-- An access of one word to a TIME register passes steps 1 to 5 of R77. -/
theorem accessTest_time (s : State) {a : Nat} (rd : Bool) (hpage : a / 0x400 = Pg.TIME) (halign : a % 4 = 0) :
    s.accessTest a 4 1 rd = Code.ok := by
  have hend : ¬ 0x3FC < a % 0x400 := by omega
  have hdec : decoded Pg.TIME = true := rfl
  have hpres : present s.role Pg.TIME = true := rfl
  simp [accessTest, hpage, halign, hend, hdec, hpres]

/-- No register below the header of the TIME page is GATED while its gate is open and does not close (R78, R119). -/
theorem gatedWord_time {s : State} {a : Nat} (hpage : a / 0x400 = Pg.TIME) (hopen : s.gated Pg.TIME = false)
    (hgate : s.clk.gating.contains Pg.TIME = false) : s.gatedWord a = false := by
  simp only [gatedWord, hpage, hopen, hgate, Bool.or_self, Bool.and_false, Bool.false_and]

/-- The TIME page is no uplink's: its registers stand at their own addresses. -/
theorem home_time (s : State) {a : Nat} (hpage : a / 0x400 = Pg.TIME) : s.home a = a := by
  simp [home, hpage, Pg.TIME]

/-- A read of one TIME register answers the word that `readReg` gives. -/
theorem readCmd_time {s u : State} {path : Path} {a : Nat} {w : Word} (hpage : a / 0x400 = Pg.TIME) (halign : a % 4 = 0)
    (hopen : s.gated Pg.TIME = false) (hgate : s.clk.gating.contains Pg.TIME = false)
    (hread : s.readReg path a = (Code.ok, w, u)) : s.readCmd path a = u.answering ⟨Code.ok, [w]⟩ := by
  have hpres : present s.role Pg.TIME = true := rfl
  have hat : s.readAt path a = (Code.ok, w, u) := by
    simp [readAt, hpage, hpres, gatedWord_time hpage hopen hgate, hread]
  simp [readCmd, burstRead, readWords, accessTest_time s true hpage halign, hat, answerAccess, answering]

/-- A write of one TIME register answers OK with what `writeReg` does. -/
theorem writeCmd_time {s u : State} {path : Path} {a : Nat} {data : Word} (hpage : a / 0x400 = Pg.TIME)
    (halign : a % 4 = 0) (hfield : 0x40 ≤ a % 0x400) (hgated : s.gatedWord a = false)
    (hwrite : s.writeReg path a data = (Code.ok, u)) : s.writeCmd path 4 a data = u.answering ⟨Code.ok, []⟩ := by
  have hlow : a < 0x10000 := by simp only [Pg.TIME] at hpage; omega
  have hat : s.writeAt path a data = (Code.ok, u) := by simp [writeAt, Nat.not_lt.mpr hfield, hgated, hwrite]
  have hmap : ¬ 0x10000 ≤ a ∧ ¬ 0x40000000 ≤ a := by omega
  simp [writeCmd, hmap, accessTest_time s false hpage halign, hat, answerAccess, answering]

/-! The two registers with a rule of their own: TIME_INC_FRAC (R222) and TIME_CMD (R223). -/

/-- A register with a field that a write can change is never GATED. -/
theorem gatedWord_of_writable {s : State} {a : Nat} {d : RegDesc} (hd : s.descAt a = some d)
    (hw : (d.fields.all fun f => f.kind == .ro || f.kind == .w1c) = false) : s.gatedWord a = false := by
  simp only [gatedWord, hd, hw, Bool.and_false]

/-- TIME_INC_FRAC in the register map. -/
def incFracDesc : RegDesc := ⟨0x05C, 4, 1, 7, 0, [fd 0 32 .rw]⟩

/-- TIME_CMD in the register map. -/
def timeCmdDesc : RegDesc := ⟨0x074, 4, 1, 7, 0, [fd 0 1 .w, fd 1 1 .w]⟩

theorem descAt_timeIncFrac (s : State) : s.descAt R.TIME_INC_FRAC = some incFracDesc := rfl
theorem descAt_timeCmd (s : State) : s.descAt R.TIME_CMD = some timeCmdDesc := rfl

/-- No bit of the two registers is hidden in a role. -/
theorem hiddenBits_timeIncFrac (s : State) : s.hiddenBits R.TIME_INC_FRAC = 0 := by
  simp +decide only [hiddenBits, if_false, ite_self]

theorem hiddenBits_timeCmd (s : State) : s.hiddenBits R.TIME_CMD = 0 := by
  simp +decide only [hiddenBits, if_false, ite_self]

/-- A field without guard that is RW or W takes its bits of the word written, in a page that is not berths'. -/
theorem mergeField_time {s : State} {a : Nat} (old data : Word) (opened : Bool) (m : Merge) {f : FieldDesc}
    (hpage : a / 0x400 = Pg.TIME) (hfix : s.fixedField a f.lo = false) (hgd : f.gd = false)
    (hkind : f.kind = .rw ∨ f.kind = .w) :
    s.mergeField a old data opened m f = { m with v := setBits m.v f.lo f.w (getBits data f.lo f.w) } := by
  have hboard : a ≠ R.BERTH_BOARD := by rintro rfl; exact absurd hpage (by decide)
  have htopo : a ≠ R.SYS_TOPO := by rintro rfl; exact absurd hpage (by decide)
  rcases hkind with hkind | hkind <;> simp [mergeField, hfix, hgd, hkind, hboard, htopo, valueIgnored]

/-- A write of a TIME register without refusal: its word is merged, and its own rule acts. -/
theorem writeReg_time {s u : State} {path : Path} {a : Nat} {d : RegDesc} {data : Word} {v : Word → Word}
    (hpage : a / 0x400 = Pg.TIME) (hd : s.descAt a = some d) (hhidden : s.hiddenBits a = 0)
    (hmerge : ∀ old opened, d.fields.foldl (s.mergeField a old data opened) { v := old } = { v := v old })
    (hact : ∀ w : Wr, w.a = a → w.v = v (s.viewReg (pathIdx path) a false) →
      (s.answering ⟨Code.ok, []⟩).writeActs d w data = u)
    (hresp : u.resp.code = Code.ok) : s.writeReg path a data = (Code.ok, u) := by
  have hberth : a ≠ R.BERTH_CMD := by rintro rfl; exact absurd hpage (by decide)
  have hdata : data &&& ~~~ BitVec.ofNat 32 0 = data := BitVec.and_allOnes
  have hacts (opened : Bool) :=
    hact ⟨path, a, s.viewReg (pathIdx path) a false, v (s.viewReg (pathIdx path) a false), opened, false⟩ rfl rfl
  rw [answering] at hacts
  simp only [writeReg, home_time s hpage, hd, hhidden, hdata, hmerge, hberth, false_and, if_false, refusals,
    refusalCode, State.when, Bool.false_eq_true, hacts, hresp, ne_eq, not_true_eq_false]

/-- The word written to TIME_INC_FRAC is the word merged. -/
theorem merge_timeIncFrac (s : State) (old data : Word) (opened : Bool) :
    incFracDesc.fields.foldl (s.mergeField R.TIME_INC_FRAC old data opened) { v := old } = { v := data } := by
  have hfix : s.fixedField R.TIME_INC_FRAC 0 = false := by
    cases h : s.isCell <;> simp only [fixedField, h] <;> decide
  have hword : setBits old 0 32 (getBits data 0 32) = data := by
    simp [setBits, getBits, Nat.mod_eq_of_lt data.isLt]
  rw [incFracDesc, List.foldl_cons, List.foldl_nil, mergeField_time old data opened _ rfl hfix rfl (.inl rfl)]
  exact congrArg (Merge.mk · false false) hword

/-- The two command bits written to TIME_CMD are bits merged. -/
theorem merge_timeCmd (s : State) (old data : Word) (opened : Bool) :
    timeCmdDesc.fields.foldl (s.mergeField R.TIME_CMD old data opened) { v := old } =
      { v := setBits (setBits old 0 1 (getBits data 0 1)) 1 1 (getBits data 1 1) } := by
  have hfix (lo : Nat) : s.fixedField R.TIME_CMD lo = false := by
    cases h : s.isCell <;> simp only [fixedField, h] <;> rfl
  rw [timeCmdDesc, List.foldl_cons, List.foldl_cons, List.foldl_nil,
    mergeField_time old data opened _ rfl (hfix _) rfl (.inr rfl),
    mergeField_time old data opened _ rfl (hfix _) rfl (.inr rfl)]
  rfl

/-- A word of TIME_INC_FRAC is stored and asks for the increment (R222). -/
theorem writeActs_timeIncFrac {s : State} {w : Wr} (data : Word) (ha : w.a = R.TIME_INC_FRAC)
    (hopen : s.gated Pg.TIME = false) :
    s.writeActs incFracDesc w data = (s.setReg R.TIME_INC_FRAC w.v).incRequest := by
  have hpage : R.TIME_INC_FRAC / 0x400 = Pg.TIME := rfl
  have hmask : BitVec.ofNat 32 (maskOf incFracDesc fun f => f.kind != .ro && f.kind != .w) = BitVec.allOnes 32 := by decide
  have hown : owned R.TIME_INC_FRAC = false := by decide
  have hboard : R.TIME_INC_FRAC ≠ R.BERTH_BOARD := by decide
  have hhook (t : State) : t.hook w = t.incRequest := by
    simp +decide only [hook, hookTime, ha, if_true, if_false]
  simp [writeActs, ha, hpage, hopen, hmask, hown, hboard, hhook, State.when, -BitVec.reduceAllOnes]

/-- TIME_CMD is not stored; its bits 0 and 1 are STEP and SET (R223). -/
theorem writeActs_timeCmd {s : State} {w : Wr} (data : Word) (ha : w.a = R.TIME_CMD) :
    s.writeActs timeCmdDesc w data = s.timeCmd (w.bit 0) (w.bit 1) := by
  have hmask : BitVec.ofNat 32 (maskOf timeCmdDesc fun f => f.kind != .ro && f.kind != .w) = 0 := by decide
  have hboard : R.TIME_CMD ≠ R.BERTH_BOARD := by decide
  have hhook (t : State) : t.hook w = t.timeCmd (w.bit 0) (w.bit 1) := by
    simp +decide only [hook, hookTime, ha, if_true, if_false]
  simp [writeActs, ha, hmask, hboard, hhook, State.when]

/-- A write of TIME_INC_FRAC stores its word and asks for the increment. -/
theorem writeCmd_timeIncFrac {s : State} (path : Path) (frac : Word) (hopen : s.gated Pg.TIME = false) :
    s.writeCmd path 4 R.TIME_INC_FRAC frac =
      ((s.answering ⟨Code.ok, []⟩).setReg R.TIME_INC_FRAC frac).incRequest.answering ⟨Code.ok, []⟩ := by
  refine writeCmd_time rfl rfl (by decide) (gatedWord_of_writable (descAt_timeIncFrac s) rfl) ?_
  refine writeReg_time (v := fun _ => frac) rfl (descAt_timeIncFrac s) (hiddenBits_timeIncFrac s)
    (fun old opened => merge_timeIncFrac s old frac opened) (fun w ha hv => ?_) rfl
  rw [writeActs_timeIncFrac (s := s.answering ⟨Code.ok, []⟩) frac ha hopen, hv]

/-- A write of TIME_CMD makes the request of its two bits. -/
theorem writeCmd_timeCmd {s u : State} (path : Path) {data : Word}
    (hcmd : (s.answering ⟨Code.ok, []⟩).timeCmd (getBits data 0 1 == 1) (getBits data 1 1 == 1) = u)
    (hresp : u.resp.code = Code.ok) : s.writeCmd path 4 R.TIME_CMD data = u.answering ⟨Code.ok, []⟩ := by
  refine writeCmd_time rfl rfl (by decide) (gatedWord_of_writable (descAt_timeCmd s) rfl) ?_
  refine writeReg_time rfl (descAt_timeCmd s) (hiddenBits_timeCmd s)
    (fun old opened => merge_timeCmd s old data opened) (fun w ha hv => ?_) hresp
  have hstep : w.bit 0 = (getBits data 0 1 == 1) := by
    rw [Wr.bit, hv, getBits_setBits_disjoint _ _ (by decide), getBits_setBits_same _ _ _ _ (by decide), getBits,
      Nat.mod_mod]
  have hset : w.bit 1 = (getBits data 1 1 == 1) := by
    rw [Wr.bit, hv, getBits_setBits_same _ _ _ _ (by decide), getBits, Nat.mod_mod]
  rw [writeActs_timeCmd data ha, hstep, hset, hcmd]

/-- The command bits of TIME_CMD read 0. -/
theorem viewWord_timeCmd (s : State) (p : Nat) : s.viewWord p R.TIME_CMD = 0 := by
  have hmask : BitVec.ofNat 32 (maskOf timeCmdDesc fun f => f.kind != .w) = 0 := by decide
  have hreg : regAt (R.TIME_CMD / 0x400) (R.TIME_CMD % 0x400) = some timeCmdDesc := rfl
  have hroles : holdsRoles s.role timeCmdDesc.roles = true := rfl
  have hfield : ¬ R.TIME_CMD % 0x400 < 0x40 := by decide
  simp [viewWord, viewReg, hfield, home_time s (a := R.TIME_CMD) rfl, hreg, hroles, hmask]

/-- With no meridian running, a step or load of a running unit waits for its tick (R223, R228). -/
theorem requestJump_waits {s : State} (j : TimeJump) (hruns : s.runs Pg.TIME = true) (hmer : s.meridiansOn = false) :
    s.requestJump j = { s with time := { s.time with jump := some j } } := by
  simp [requestJump, jumpRefused, hmer, hruns]

end State

open State

theorem exec_timeIncWrite (path : Path) (frac : Word) (s : State) :
    exec (.timeIncWrite path frac) s = writeRow s path R.TIME_INC_FRAC frac := rfl

theorem exec_timeCmdStep (path : Path) (s : State) : exec (.timeCmdStep path) s = fieldRow s path F.TIME_CMD_STEP 1 := rfl
theorem exec_timeCmdSet (path : Path) (s : State) : exec (.timeCmdSet path) s = fieldRow s path F.TIME_CMD_SET 1 := rfl

/-- TIME_INC_WRITE: the pair waits for the next tick (R222). -/
theorem yields_timeIncWrite {s : State} {path : Path} (frac : Word) (h : s.Reaches path Pg.TIME) :
    Yields (.timeIncWrite path frac) s fun t => t.reg R.TIME_INC_FRAC = frac ∧
      t.time.incWait = some (s.get F.TIME_INC_NS * 2 ^ 32 + frac.toNat) ∧ t.time.inc = s.time.inc := by
  obtain ⟨hpath, -, hopen⟩ := h
  refine yields_of_act (exec_timeIncWrite ..) hpath ?_
  let u := (s.answering ⟨Code.ok, []⟩).setReg R.TIME_INC_FRAC frac
  have hfrac : u.reg R.TIME_INC_FRAC = frac := reg_setReg_same _ _ _
  have hns : u.get F.TIME_INC_NS = s.get F.TIME_INC_NS := get_setReg_ne _ frac (by decide)
  have hlow : u.get F.TIME_INC_FRAC_FRAC = frac.toNat := by
    rw [← Nat.mod_eq_of_lt frac.isLt, ← hfrac]
    rfl
  have hpair : u.incWritten = s.get F.TIME_INC_NS * 2 ^ 32 + frac.toNat := by rw [incWritten, hns, hlow]
  rw [writeCmd_timeIncFrac path frac hopen, settle_time, settle_reg_time _ rfl]
  exact ⟨hfrac, congrArg some hpair, rfl⟩

/-- A command bit of TIME_CMD written alone has the step or load that it names wait for its tick. -/
theorem yields_timeCmd {c : Instr} {s : State} {path : Path} {f : Fld} {j : TimeJump} {stp ld : Bool}
    (he : exec c s = fieldRow s path f 1) (ha : f.addr = R.TIME_CMD) (hstp : (getBits (put f 1 0) 0 1 == 1) = stp)
    (hld : (getBits (put f 1 0) 1 1 == 1) = ld)
    (hcmd : ∀ r, (s.answering r).timeCmd stp ld = (s.answering r).requestJump j)
    (hpath : s.pathOpen path = true) (hruns : s.runs Pg.TIME = true) (hmer : s.meridiansOn = false) :
    Yields c s fun t => t.time.jump = some j ∧ t.now = s.now := by
  rw [fieldRow, ha, viewWord_timeCmd] at he
  refine yields_of_act he hpath ?_
  have hwaits := (hcmd ⟨Code.ok, []⟩).trans (requestJump_waits (s := s.answering ⟨Code.ok, []⟩) j hruns hmer)
  rw [← hstp, ← hld] at hwaits
  rw [writeCmd_timeCmd path hwaits rfl, settle_time, settle_now]
  exact ⟨rfl, rfl⟩

theorem yields_timeCmdStep {s : State} {path : Path} (hpath : s.pathOpen path = true) (hruns : s.runs Pg.TIME = true)
    (hmer : s.meridiansOn = false) :
    Yields (.timeCmdStep path) s fun t => t.time.jump = some (.step s.ofsValue) ∧ t.now = s.now :=
  yields_timeCmd (stp := true) (ld := false) (exec_timeCmdStep path s) rfl (by decide) (by decide)
    (fun r => by simp [timeCmd]) hpath hruns hmer

theorem yields_timeCmdSet {s : State} {path : Path} (hpath : s.pathOpen path = true) (hruns : s.runs Pg.TIME = true)
    (hmer : s.meridiansOn = false) :
    Yields (.timeCmdSet path) s fun t => t.time.jump = some (.load s.setValue) ∧ t.now = s.now :=
  yields_timeCmd (stp := false) (ld := true) (exec_timeCmdSet path s) rfl (by decide) (by decide)
    (fun r => by simp [timeCmd]) hpath hruns hmer

/-! Reads: the present time (R224) and the timestamp queues (R244). -/

theorem exec_timeNowRead (path : Path) (s : State) : exec (.timeNowRead path) s = readRow s path R.TIME_NOW_NS := rfl
theorem exec_tsqPop (path : Path) (p : Nat) (s : State) : exec (.tsqPop path p) s = readRow s path (R.TIME_TSQ_ID p) := rfl

namespace State

/-- TIME_NOW_NS in the register map. -/
def timeNowDesc : RegDesc := ⟨0x048, 4, 1, 7, 0, [fd 0 30 .ro]⟩

/-- A read of TIME_NOW_NS latches the time and shows its nanoseconds. -/
theorem readReg_timeNow (s : State) (path : Path) :
    s.readReg path R.TIME_NOW_NS = (Code.ok, s.latchNow.viewWord (pathIdx path) R.TIME_NOW_NS, s.latchNow) := by
  have hd : s.descAt R.TIME_NOW_NS = some timeNowDesc := rfl
  have hfield : ¬ R.TIME_NOW_NS % 0x400 < 0x40 := by decide
  simp [readReg, home_time s (a := R.TIME_NOW_NS) rfl, hd, hfield]

/-- A register without SH fields has no active word beside the stored one (R71). -/
theorem stored_of_no_shadow {s : State} {d : RegDesc} (a : Nat) (active : Bool)
    (hsh : (maskOf d fun f => f.kind == .sh) = 0) : s.stored d a active = s.reg a := by
  have hkept : (s.reg a &&& ~~~ BitVec.ofNat 32 0) ||| (s.actReg a &&& BitVec.ofNat 32 0) = s.reg a := by
    rw [BitVec.and_zero, BitVec.or_zero]
    exact BitVec.and_allOnes
  cases active with
  | true => simp only [stored, hsh, hkept, if_true]
  | false => rfl

/-- TIME_NOW_NS shows its 30 bits as they are stored. -/
theorem viewWord_timeNow {s : State} (p : Nat) (h : (s.reg R.TIME_NOW_NS).toNat < 2 ^ 30) :
    s.viewWord p R.TIME_NOW_NS = s.reg R.TIME_NOW_NS := by
  have hfield : ¬ R.TIME_NOW_NS % 0x400 < 0x40 := by decide
  have hreg : regAt (R.TIME_NOW_NS / 0x400) (R.TIME_NOW_NS % 0x400) = some timeNowDesc := rfl
  have hroles : holdsRoles s.role timeNowDesc.roles = true := rfl
  have hhidden : s.hiddenBits R.TIME_NOW_NS = 0 := by simp +decide only [hiddenBits, if_false, ite_self]
  have hstored (active : Bool) : s.stored timeNowDesc R.TIME_NOW_NS active = s.reg R.TIME_NOW_NS :=
    stored_of_no_shadow _ active (by decide)
  have htyped (w : Word) : s.typed p R.TIME_NOW_NS w = w := by simp +decide only [typed, viewTime, if_true, if_false]
  have hoff : R.TIME_NOW_NS % 0x400 ≠ 0x40 := by decide
  have hmask : BitVec.ofNat 32 (maskOf timeNowDesc fun f => f.kind != .w) = BitVec.ofNat 32 (2 ^ 30 - 1) := by decide
  have hlow : s.reg R.TIME_NOW_NS &&& BitVec.ofNat 32 (2 ^ 30 - 1) = s.reg R.TIME_NOW_NS := by
    refine BitVec.eq_of_toNat_eq ?_
    rw [BitVec.toNat_and, BitVec.toNat_ofNat, Nat.mod_eq_of_lt (by decide), Nat.and_two_pow_sub_one_eq_mod,
      Nat.mod_eq_of_lt h]
  simp only [viewWord, hfield, if_false, viewReg, home_time s (a := R.TIME_NOW_NS) rfl, hreg, hroles, Bool.not_true,
    Bool.false_eq_true, hstored, htyped, hoff, false_and, and_false, hmask, hlow, hhidden]
  exact BitVec.and_allOnes

/-- A read of TSQp_ID pops queue `p`. -/
theorem readReg_tsqId (s : State) (path : Path) {p : Nat} (hp : p < 2) :
    s.readReg path (R.TIME_TSQ_ID p) = (Code.ok, (s.popTs p).viewWord (pathIdx path) (R.TIME_TSQ_ID p), s.popTs p) := by
  let d : RegDesc := ⟨0x0C0, 16, 2, 7, 0, [fd 0 16 .ro, fd 16 4 .ro, fd 20 1 .ro, fd 31 1 .ro]⟩
  obtain rfl | rfl : p = 0 ∨ p = 1 := by omega
  · have hd : s.descAt (R.TIME_TSQ_ID 0) = some d := rfl
    simp +decide [readReg, home_time s (a := R.TIME_TSQ_ID 0) rfl, hd]
  · have hd : s.descAt (R.TIME_TSQ_ID 1) = some d := rfl
    simp +decide [readReg, home_time s (a := R.TIME_TSQ_ID 1) rfl, hd]

theorem nanos_lt (s : State) : s.nanos < 2 ^ 30 := by
  have hsec : s.now % unitsPerSec < 1000000000 * unitsPerNs := Nat.mod_lt _ (by decide)
  exact Nat.lt_trans (Nat.div_lt_of_lt_mul (Nat.mul_comm .. ▸ hsec)) (by decide)

/-- The four registers of one instant after a read of TIME_NOW_NS. -/
theorem latchNow_regs (s : State) : s.latchNow.reg R.TIME_NOW_NS = BitVec.ofNat 32 s.nanos ∧
    s.latchNow.reg R.TIME_NOW_FR = BitVec.ofNat 32 (s.now % 2 ^ 32) ∧
    s.latchNow.reg R.TIME_NOW_SL = BitVec.ofNat 32 s.seconds ∧
    s.latchNow.reg R.TIME_NOW_SH = BitVec.ofNat 32 (s.seconds / 2 ^ 32) := by
  refine ⟨?_, ?_, ?_, reg_setReg_same _ _ _⟩
  · exact (reg_setReg_ne _ _ (by decide)).trans <| (reg_setReg_ne _ _ (by decide)).trans <|
      (reg_setReg_ne _ _ (by decide)).trans <| reg_setReg_same _ _ _
  · exact (reg_setReg_ne _ _ (by decide)).trans <| (reg_setReg_ne _ _ (by decide)).trans <| reg_setReg_same _ _ _
  · exact (reg_setReg_ne _ _ (by decide)).trans <| reg_setReg_same _ _ _

/-- The head of a queue goes to its window, with VALID (R244). -/
theorem popTs_of_cons {s : State} {p : Nat} {e : TsEntry} {q : List TsEntry} (h : s.tsQueue p = e :: q) :
    (s.popTs p).tsQueue p = q ∧ (s.popTs p).get (F.TIME_TSQ_ID_VALID p) = 1 ∧
    (s.popTs p).reg (R.TIME_TSQ_NS p) = BitVec.ofNat 32 (e.time % unitsPerSec / unitsPerNs) ∧
    (s.popTs p).reg (R.TIME_TSQ_SL p) = BitVec.ofNat 32 (e.time / unitsPerSec) := by
  let id := e.seq % 65536 + (e.msgType % 16) <<< 16 + b2n e.sent <<< 20 + 1 <<< 31
  let u : State := { s with time := { s.time with tsq := setAt [] s.time.tsq p q } }
  have hpop : s.popTs p = ((u.setReg (R.TIME_TSQ_ID p) (BitVec.ofNat 32 id)).setReg (R.TIME_TSQ_NS p)
      (BitVec.ofNat 32 (e.time % unitsPerSec / unitsPerNs))).setReg (R.TIME_TSQ_SL p)
      (BitVec.ofNat 32 (e.time / unitsPerSec)) := by simp only [popTs, h, u, id]
  have hvalid : getBits (BitVec.ofNat 32 id) 31 1 = 1 := by
    have hsent : b2n e.sent ≤ 1 := by cases e.sent <;> decide
    simp only [id, getBits, BitVec.toNat_ofNat, Nat.shiftLeft_eq, Nat.shiftRight_eq_div_pow]
    omega
  obtain ⟨hidNs, hidSl, hnsSl⟩ :
      R.TIME_TSQ_ID p ≠ R.TIME_TSQ_NS p ∧ R.TIME_TSQ_ID p ≠ R.TIME_TSQ_SL p ∧ R.TIME_TSQ_NS p ≠ R.TIME_TSQ_SL p := by
    simp only [R.TIME_TSQ_ID, R.TIME_TSQ_NS, R.TIME_TSQ_SL]; omega
  rw [hpop]
  refine ⟨nth_setAt_same _ _ _ _, ?_, ?_, reg_setReg_same _ _ _⟩
  · rw [get_setReg_ne _ _ hidSl, get_setReg_ne _ _ hidNs, State.get, F.TIME_TSQ_ID_VALID, reg_setReg_same]
    exact hvalid
  · rw [reg_setReg_ne _ _ hnsSl, reg_setReg_same]

end State

/-- TIME_NOW_READ shows and latches one instant. -/
theorem yields_timeNowRead {s : State} {path : Path} (h : s.Reaches path Pg.TIME)
    (hgate : s.clk.gating.contains Pg.TIME = false) :
    Yields (.timeNowRead path) s fun t => t.reg R.TIME_NOW_NS = BitVec.ofNat 32 s.nanos ∧
      t.reg R.TIME_NOW_FR = BitVec.ofNat 32 (s.now % 2 ^ 32) ∧ t.reg R.TIME_NOW_SL = BitVec.ofNat 32 s.seconds ∧
      t.reg R.TIME_NOW_SH = BitVec.ofNat 32 (s.seconds / 2 ^ 32) ∧ t.resp = ⟨Code.ok, [BitVec.ofNat 32 s.nanos]⟩ := by
  obtain ⟨hpath, -, hopen⟩ := h
  obtain ⟨hns, hfr, hsl, hsh⟩ := latchNow_regs s
  have hlow : (s.latchNow.reg R.TIME_NOW_NS).toNat < 2 ^ 30 := by
    rw [hns, BitVec.toNat_ofNat]
    exact Nat.lt_of_le_of_lt (Nat.mod_le _ _) s.nanos_lt
  have hread : s.readReg path R.TIME_NOW_NS = (Code.ok, BitVec.ofNat 32 s.nanos, s.latchNow) := by
    rw [readReg_timeNow, viewWord_timeNow _ hlow, hns]
  refine yields_of_act (exec_timeNowRead ..) hpath ?_
  rw [readCmd_time rfl rfl hopen hgate hread, settle_reg_time _ rfl, settle_reg_time _ rfl, settle_reg_time _ rfl,
    settle_reg_time _ rfl, settle_resp]
  exact ⟨hns, hfr, hsl, hsh, rfl⟩

/-- TSQ_POP takes the head of its queue. -/
theorem yields_tsqPop {s : State} {path : Path} {p : Nat} {e : TsEntry} {q : List TsEntry} (h : s.Reaches path Pg.TIME)
    (hgate : s.clk.gating.contains Pg.TIME = false) (hp : p < 2) (hq : s.tsQueue p = e :: q) :
    Yields (.tsqPop path p) s fun t => t.tsQueue p = q ∧ t.get (F.TIME_TSQ_ID_VALID p) = 1 ∧
      t.reg (R.TIME_TSQ_NS p) = BitVec.ofNat 32 (e.time % unitsPerSec / unitsPerNs) ∧
      t.reg (R.TIME_TSQ_SL p) = BitVec.ofNat 32 (e.time / unitsPerSec) := by
  obtain ⟨hpath, -, hopen⟩ := h
  obtain ⟨hpage, halign, hns, hsl⟩ : R.TIME_TSQ_ID p / 0x400 = Pg.TIME ∧ R.TIME_TSQ_ID p % 4 = 0 ∧
      R.TIME_TSQ_NS p / 0x400 = Pg.TIME ∧ R.TIME_TSQ_SL p / 0x400 = Pg.TIME := by
    simp only [R.TIME_TSQ_ID, R.TIME_TSQ_NS, R.TIME_TSQ_SL, Pg.TIME]; omega
  refine yields_of_act (exec_tsqPop ..) hpath ?_
  rw [readCmd_time hpage halign hopen hgate (readReg_tsqId s path hp), settle_tsQueue, settle_get_time _ hpage,
    settle_reg_time _ hns, settle_reg_time _ hsl]
  exact popTs_of_cons hq

end Sys2Proof.Machine
end

section
/-! PROOFS. The time unit at work (R221 to R244): what a tick applies, the time outputs, timestamps, holdover and the exchange
with the twin. -/

namespace Sys2Proof.Machine

namespace State

/-! Events and fields. -/

/-- An event raised shows in PG_EVT. -/
theorem bitOf_event (s : State) (pg : Nat) {bit : Nat} (h : bit < 32) :
    bitOf ((s.event pg bit).reg (R.PG_EVT pg)).toNat bit = true := by
  rw [reg_event_same, bitOf_eq_testBit, BitVec.toNat_or, Nat.testBit_or, BitVec.toNat_ofNat, Nat.testBit_mod_two_pow,
    Nat.testBit_shiftLeft]
  simp [h]

theorem get_event_ne (s : State) (pg bit : Nat) {f : Fld} (h : f.addr ≠ R.PG_EVT pg) :
    (s.event pg bit).get f = s.get f := by
  simp [State.get, reg_event_ne s pg bit h]

/-- A one-bit field that is not 0 is 1. -/
theorem get_eq_one_of_is {s : State} {f : Fld} (hw : f.w = 1) (h : s.is f = true) : s.get f = 1 := by
  have hne : s.get f ≠ 0 := by simpa [is] using h
  have hlt : s.get f < 2 ^ 1 := hw ▸ Nat.mod_lt _ (Nat.two_pow_pos f.w)
  omega

theorem role_of_isHub {s : State} (h : s.isHub = true) : s.role = .hub := by simpa [isHub] using h

/-! What waits for a tick (R222, R223, R235, R237). -/

/-- A cell's correction applies. -/
def corrected (s : State) : State :=
  { s with now := ((s.now : Int) + s.time.corr).toNat, time := { s.time with corr := 0 } }

/-- The increment that waits comes into use. -/
def takeIncrement (s : State) : State :=
  match s.time.incWait with
  | some i => { s with time := { s.time with inc := i, incWait := none } }
  | none => s

theorem applyWaiting_eq (s : State) : s.applyWaiting = s.takeSource.applyWaitingJump.corrected.takeIncrement := rfl

theorem takeSource_of_same {s : State} (h : s.time.src = s.get F.TIME_CTL_SRC) : s.takeSource = s := by
  simp [takeSource, h]

theorem applyWaitingJump_of_none {s : State} (h : s.time.jump = none) : s.applyWaitingJump = s := by
  simp only [applyWaitingJump, h]

theorem applyWaitingJump_of_some {s : State} {j : TimeJump} (h : s.time.jump = some j) :
    s.applyWaitingJump = s.applyJump j := by
  simp only [applyWaitingJump, h]

theorem corrected_of_zero {s : State} (h : s.time.corr = 0) : s.corrected = s := by
  have htime : { s.time with corr := 0 } = s.time := by rw [← h]
  rw [corrected, htime, h, Int.add_zero, Int.toNat_natCast]

theorem takeIncrement_of_none {s : State} (h : s.time.incWait = none) : s.takeIncrement = s := by
  simp only [takeIncrement, h]

@[simp] theorem takeIncrement_now (s : State) : s.takeIncrement.now = s.now := by
  unfold takeIncrement
  split <;> rfl

@[simp] theorem takeIncrement_reg (s : State) (a : Nat) : s.takeIncrement.reg a = s.reg a := by
  unfold takeIncrement
  split <;> rfl

@[simp] theorem takeIncrement_jump (s : State) : s.takeIncrement.time.jump = s.time.jump := by
  unfold takeIncrement
  split <;> rfl

@[simp] theorem applyJump_now (s : State) (j : TimeJump) : (s.applyJump j).now = s.jumpTo j := by simp [applyJump]

@[simp] theorem applyJump_time (s : State) (j : TimeJump) : (s.applyJump j).time = { s.time with jump := none } := by
  simp [applyJump]

/-- A step or load that waits applies at the tick, before the increment. -/
theorem applyWaiting_of_jump {s : State} {j : TimeJump} (hsrc : s.time.src = s.get F.TIME_CTL_SRC)
    (hjump : s.time.jump = some j) (hcorr : s.time.corr = 0) : s.applyWaiting = (s.applyJump j).takeIncrement := by
  rw [applyWaiting_eq, takeSource_of_same hsrc, applyWaitingJump_of_some hjump,
    corrected_of_zero (by rw [applyJump_time]; exact hcorr)]

/-- A tick that nothing waits for applies nothing. -/
theorem applyWaiting_of_idle {s : State} (hsrc : s.time.src = s.get F.TIME_CTL_SRC) (hjump : s.time.jump = none)
    (hcorr : s.time.corr = 0) (hinc : s.time.incWait = none) : s.applyWaiting = s := by
  rw [applyWaiting_eq, takeSource_of_same hsrc, applyWaitingJump_of_none hjump, corrected_of_zero hcorr,
    takeIncrement_of_none hinc]

end State

open State

theorem exec_stepDone (s : State) : exec .stepDone s = execStepDone s := rfl

/-- STEP_DONE: the time jumps, the request is done and told (R223). -/
theorem yields_stepDone {s : State} {j : TimeJump} (halive : s.alive = true) (hruns : s.runs Pg.TIME = true)
    (hsrc : s.time.src = s.get F.TIME_CTL_SRC) (hjump : s.time.jump = some j) (hcorr : s.time.corr = 0) :
    Yields .stepDone s fun t => t.now = s.jumpTo j ∧ t.time = ((s.applyJump j).takeIncrement).time ∧
      bitOf (t.reg (R.PG_EVT Pg.TIME)).toNat 10 = true := by
  refine yields_of_act (exec_stepDone s) (by rw [halive, hruns]; rfl) ?_
  rw [applyWaiting_of_jump hsrc hjump hcorr, settle_now, settle_time, settle_reg_time _ rfl, takeIncrement_now,
    takeIncrement_reg, applyJump_now]
  exact ⟨rfl, rfl, bitOf_event _ Pg.TIME (by decide)⟩

/-! The idle tick (R221). -/

namespace State

/-- Lanes under test change the lanes alone. -/
theorem prbsSend_eq (s : State) (n : Nat) : s.prbsSend n = { s with lanes := (s.prbsSend n).lanes } := by
  unfold prbsSend
  split <;> rfl

theorem forUpTo_prbsSend_eq (s : State) (k : Nat) : forUpTo (fun n t => t.prbsSend n) k s =
    { s with lanes := (forUpTo (fun n t => t.prbsSend n) k s).lanes } := by
  induction k with
  | zero => rfl
  | succ k ih => rw [forUpTo, prbsSend_eq, ih]

/-- A tick that applies nothing adds the increment, with the rest of the time unit as it was but for time in holdover. -/
theorem tick_of_running {s : State} (halive : s.alive = true) (hruns : s.runs Pg.TIME = true) (h : s.applyWaiting = s) :
    s.tick = { s.pass s.time.inc with now := s.now + s.time.inc } := by
  simp only [tick, halive, hruns, h, Bool.not_true, Bool.false_eq_true, if_false, if_true]

/-- No carrier runs at a hub. -/
theorem carrierOn_of_hub {s : State} (h : s.isHub = true) : s.carrierOn = false := by
  simp [carrierOn, gateLive, isCell, role_of_isHub h]

/-- The idle tick of a hub with nothing waiting adds the increment. -/
theorem idle_now {s : State} (halive : s.alive = true) (hhub : s.isHub = true) (hruns : s.runs Pg.TIME = true)
    (h : s.applyWaiting = s) : s.idle.now = s.now + s.time.inc := by
  let t : State := { s.pass s.time.inc with now := s.now + s.time.inc }
  let u := forUpTo (fun n t => t.prbsSend n) 8 t
  have hu : u = { t with lanes := u.lanes } := forUpTo_prbsSend_eq t 8
  have htick : s.tick = t := tick_of_running halive hruns h
  have halive' : t.alive = true := halive
  have hcarrier : u.carrierOn = false := carrierOn_of_hub (hu ▸ hhub)
  have hidle : s.idle = u.settle := by
    simp only [idle, htick, halive', State.when, if_true]
    rw [if_neg (by rw [hcarrier]; decide)]
  rw [hidle, settle_now, hu]

end State

/-- With no command waiting a step is the idle tick. -/
theorem step_of_idle {s : State} (h : s.pending = []) : step s = .next s.idle := by simp only [step, h]

/-! The time outputs (R240). -/

theorem exec_ppsPulse (s : State) : exec .ppsPulse s = execPpsPulse s := rfl
theorem exec_ppsPulseEnd (s : State) : exec .ppsPulseEnd s = execPpsPulseEnd s := rfl
theorem exec_cycleMarkEnd (s : State) : exec .cycleMarkEnd s = execCycleMarkEnd s := rfl

namespace State

/-- `s` with another time unit. -/
def withTime (s : State) (x : TimeSt) : State := { s with time := x }

/-- The hardwired logic of a hub does not look at the time unit. -/
theorem settle_withTime {s : State} (x : TimeSt) (hhub : s.isHub = true) :
    (s.withTime x).settle = s.settle.withTime x := by
  have hrole := role_of_isHub hhub
  have push (c : Prop) [Decidable c] (u v : State) :
      (if c then u else v).withTime x = if c then u.withTime x else v.withTime x :=
    apply_ite (·.withTime x) c u v
  have hevent (u : State) (pg bit : Nat) : (u.withTime x).event pg bit = (u.event pg bit).withTime x := by
    have hsame : (u.withTime x).role = u.role := rfl
    by_cases hr : u.role = .hub
    · rw [event, event, hsame, if_pos hr, if_pos hr]
      rfl
    · rw [event, event, hsame, if_neg hr, if_neg hr]
      rfl
  have hself : (s.withTime x).selfEnter = s.selfEnter.withTime x := by
    simp only [selfEnter, push, ← hevent]
    rfl
  have hvb (u : State) : (u.withTime x).forceVb = u.forceVb.withTime x := by
    simp only [forceVb, push, ← hevent]
    rfl
  have hmark (u : State) : (u.withTime x).markReclaim = u.markReclaim.withTime x := by
    simp only [markReclaim, push]
    rfl
  rw [settle_hub hrole, settle_hub (s := s.withTime x) hrole, hself, hvb, hmark]

theorem Settled.withTime {s : State} (h : s.Settled) (x : TimeSt) (hhub : s.isHub = true) : (s.withTime x).Settled := by
  rw [Settled, settle_withTime x hhub, h]

end State

/-- A command that changes the time unit of a settled hub alone. -/
theorem exec_withTime {c : Instr} {s : State} {b : Bool} {f : State → State} {x : TimeSt} (he : exec c s = act s b f)
    (hf : f s = s.withTime x) (hb : b = true) (hs : s.Settled) (hhub : s.isHub = true) :
    exec c s = .next { s with time := x } := by
  rw [he, act_eq_settle _ hb, hf, hs.withTime x hhub]
  rfl

/-! Timestamps of event messages (R232, R233). -/

namespace State

/-- A queue with room takes the timestamp. -/
theorem pushTs_of_room {s : State} {p : Nat} (e : TsEntry) (h : (s.tsQueue p).length < 16) :
    (s.pushTs p e).tsQueue p = s.tsQueue p ++ [e] := by
  rw [pushTs, if_pos h]
  exact nth_setAt_same _ _ _ _

/-- A full queue counts the timestamp that it discards. -/
theorem pushTs_of_full {s : State} {p : Nat} (e : TsEntry) (h : 16 ≤ (s.tsQueue p).length) :
    s.pushTs p e = (s.bump (F.TIME_TSQ_STAT_OVF p)).event Pg.TIME 12 := by
  rw [pushTs, if_neg (Nat.not_lt.mpr h)]

/-- The one-step answer to a received Pdelay_Req, with the residence time from its timestamp `at'` (R233). -/
def pdelayAnswer (s : State) (port seq msgType : Nat) (sent : Bool) (corr t3 at' : Nat) : State :=
  if s.isHub && s.is F.TIME_PTP_ONESTEP && msgType == 2 && !sent then
    let s := { s with time := { s.time with pdelay := s.time.pdelay ++ [PdelayResp.mk port seq (corr + (t3 - at'))] } }
    s.when (s.linkUp port && s.laneSends (6 + port)) (·.count (F.STN_PTX_COUNT port))
  else s

/-- The answer leaves the queues and the registers of the TIME page. -/
theorem pdelayAnswer_keeps (s : State) {port : Nat} (seq msgType : Nat) (sent : Bool) (corr t3 at' : Nat) (hp : port < 2) :
    (s.pdelayAnswer port seq msgType sent corr t3 at').time.tsq = s.time.tsq ∧
    ∀ a, a / 0x400 = Pg.TIME → (s.pdelayAnswer port seq msgType sent corr t3 at').reg a = s.reg a := by
  have hstn : (F.STN_PTX_COUNT port).addr / 0x400 ≠ Pg.TIME := by
    obtain rfl | rfl : port = 0 ∨ port = 1 := by omega
    · decide
    · decide
  have hne {a : Nat} (hpage : a / 0x400 = Pg.TIME) : a ≠ (F.STN_PTX_COUNT port).addr := by
    rintro rfl
    exact hstn hpage
  unfold pdelayAnswer State.when
  split
  · dsimp only
    split
    · exact ⟨rfl, fun a ha => reg_set_ne _ _ (hne ha)⟩
    · exact ⟨rfl, fun _ _ => rfl⟩
  · exact ⟨rfl, fun _ _ => rfl⟩

end State

theorem exec_ptpTimestamp (p seq ty : Nat) (sent : Bool) (corr t3 : Nat) (s : State) :
    exec (.ptpTimestamp p seq ty sent corr t3) s =
      act s (s.alive && s.runs Pg.TIME && !s.isCell && decide (p < 2) && decide (ty < 4)) fun s =>
        (s.pushTs p ⟨seq, ty, sent, s.ptpStamp sent⟩).pdelayAnswer p seq ty sent corr t3 (s.ptpStamp sent) := rfl

/-- PTP_TIMESTAMP: what the queue shows is what the timestamp pushed gives. -/
theorem yields_ptpTimestamp {s : State} {p seq ty : Nat} (sent : Bool) (corr t3 : Nat) (halive : s.alive = true)
    (hruns : s.runs Pg.TIME = true) (hcell : s.isCell = false) (hp : p < 2) (hty : ty < 4) :
    Yields (.ptpTimestamp p seq ty sent corr t3) s fun t =>
      t.tsQueue p = (s.pushTs p ⟨seq, ty, sent, s.ptpStamp sent⟩).tsQueue p ∧
      ∀ a, a / 0x400 = Pg.TIME → t.reg a = (s.pushTs p ⟨seq, ty, sent, s.ptpStamp sent⟩).reg a := by
  refine yields_of_act (exec_ptpTimestamp ..) (by simp [halive, hruns, hcell, hp, hty]) ?_
  obtain ⟨htsq, hregs⟩ := pdelayAnswer_keeps (s.pushTs p ⟨seq, ty, sent, s.ptpStamp sent⟩) seq ty sent corr t3
    (s.ptpStamp sent) hp
  refine ⟨?_, fun a ha => (settle_reg_time _ ha).trans (hregs a ha)⟩
  rw [settle_tsQueue, tsQueue, htsq]
  rfl

/-- A timestamp that finds its queue full. -/
theorem yields_ptpTimestamp_full {s : State} {p seq ty : Nat} (sent : Bool) (corr t3 : Nat) (halive : s.alive = true)
    (hruns : s.runs Pg.TIME = true) (hcell : s.isCell = false) (hp : p < 2) (hty : ty < 4)
    (hfull : 16 ≤ (s.tsQueue p).length) :
    Yields (.ptpTimestamp p seq ty sent corr t3) s fun t => t.tsQueue p = s.tsQueue p ∧
      t.get (F.TIME_TSQ_STAT_OVF p) = satAdd (F.TIME_TSQ_STAT_OVF p).w (s.get (F.TIME_TSQ_STAT_OVF p)) 1 ∧
      bitOf (t.reg (R.PG_EVT Pg.TIME)).toNat 12 = true := by
  obtain ⟨t, ht, hqueue, hregs⟩ := yields_ptpTimestamp (seq := seq) sent corr t3 halive hruns hcell hp hty
  rw [pushTs_of_full _ hfull] at hqueue hregs
  have hpage : (F.TIME_TSQ_STAT_OVF p).addr / 0x400 = Pg.TIME := by
    simp only [F.TIME_TSQ_STAT_OVF, R.TIME_TSQ_STAT, Pg.TIME]; omega
  have hne : (F.TIME_TSQ_STAT_OVF p).addr ≠ R.PG_EVT Pg.TIME := by
    simp only [F.TIME_TSQ_STAT_OVF, R.TIME_TSQ_STAT, R.PG_EVT, Pg.TIME]; omega
  refine ⟨t, ht, ?_, ?_, ?_⟩
  · rw [hqueue, tsQueue, event_time]
    rfl
  · rw [State.get, hregs _ hpage, ← State.get, get_event_ne _ _ _ hne]
    exact get_bump_same _ _ 1 (Nat.le_refl 32)
  · rw [hregs _ rfl]
    exact bitOf_event _ _ (by decide)

/-! Holdover (R238). -/

namespace State

/-- The first cause of holdover, but for the loss of TCLK. -/
theorem enterHold_first {s : State} {c : HoldCause} (h : s.time.hold = []) (hc : c ≠ .tclk) :
    s.enterHold c = (((s.event Pg.TIME 8).bump F.TIME_HOLD_ENTRIES).set F.TIME_STAT_HOLDOVER 1).withTime
      { s.time with hold := [c] } := by
  have hfirst : s.inHoldover = false := by simp [inHoldover, h]
  simp [enterHold, hfirst, h, hc, withTime]

/-- The end of the cause by the twin link leaves what the exchange has measured, and of the registers all but HOLDOVER and
the events. -/
theorem leaveHold_twin (s : State) : (s.leaveHold .twin).time.twinGood = s.time.twinGood ∧
    (s.leaveHold .twin).time.exchanged = s.time.exchanged ∧
    KeepsRegs [R.PG_EVT Pg.TIME, R.TIME_STAT] s (s.leaveHold .twin) := by
  let u := s.withTime { s.time with hold := s.time.hold.filter (· != .twin) }
  have hleave : s.leaveHold .twin =
      if !s.time.hold.contains .twin then s
      else if u.inHoldover then u else (u.event Pg.TIME 9).set F.TIME_STAT_HOLDOVER 0 := rfl
  rw [hleave]
  split
  · exact ⟨rfl, rfl, KeepsRegs.refl _ _⟩
  · split
    · exact ⟨rfl, rfl, fun _ _ => rfl⟩
    · have hregs := (keepsRegs_event u Pg.TIME 9).trans (keepsRegs_set (u.event Pg.TIME 9) F.TIME_STAT_HOLDOVER 0)
      refine ⟨?_, ?_, hregs⟩ <;> rw [set_time, event_time] <;> rfl

end State

theorem exec_holdoverEnter (c : HoldCause) (s : State) : exec (.holdoverEnter c) s = execHoldoverEnter c s := rfl

/-- HOLDOVER_ENTER by loss of frames at a cell that is in no holdover. -/
theorem yields_holdoverEnter_frames {s : State} (halive : s.alive = true) (hruns : s.runs Pg.TIME = true)
    (hcell : s.isCell = true) (hhold : s.time.hold = []) :
    Yields (.holdoverEnter .frames) s fun t => t.time.hold = [.frames] ∧ t.get F.TIME_STAT_HOLDOVER = 1 ∧
      t.get F.TIME_HOLD_ENTRIES = satAdd F.TIME_HOLD_ENTRIES.w (s.get F.TIME_HOLD_ENTRIES) 1 ∧
      bitOf (t.reg (R.PG_EVT Pg.TIME)).toNat 8 = true := by
  refine yields_of_act (exec_holdoverEnter .frames s) (by simp [halive, hruns]) ?_
  dsimp only
  rw [if_pos hcell, enterHold_first hhold (by decide), settle_time, settle_get_time _ rfl, settle_get_time _ rfl,
    settle_reg_time _ rfl]
  let u := s.event Pg.TIME 8
  have hentries : ((u.bump F.TIME_HOLD_ENTRIES 1).set F.TIME_STAT_HOLDOVER 1).get F.TIME_HOLD_ENTRIES =
      satAdd F.TIME_HOLD_ENTRIES.w (s.get F.TIME_HOLD_ENTRIES) 1 := by
    rw [get_set_ne _ _ (by decide), get_bump_same _ _ _ (by decide), get_event_ne _ _ _ (by decide)]
  have hevents : ((u.bump F.TIME_HOLD_ENTRIES 1).set F.TIME_STAT_HOLDOVER 1).reg (R.PG_EVT Pg.TIME) =
      u.reg (R.PG_EVT Pg.TIME) :=
    (reg_set_ne _ _ (by decide)).trans (keepsRegs_bump u F.TIME_HOLD_ENTRIES 1 _ (by decide))
  exact ⟨rfl, get_set_same _ F.TIME_STAT_HOLDOVER 1 (by decide), hentries,
    (congrArg (fun w : Word => bitOf w.toNat 8) hevents).trans (bitOf_event s Pg.TIME (by decide))⟩

/-! The exchange with the twin (R234). -/

/-- The two's complement code of a number is that number as a word. -/
theorem ofNat_unsigned (i : Int) : BitVec.ofNat 32 (unsigned 32 i) = BitVec.ofInt 32 i := by
  refine BitVec.eq_of_toNat_eq ?_
  rw [BitVec.toNat_ofNat, BitVec.toNat_ofInt, unsigned]
  omega

namespace State

/-- TIME_TWIN shows the offset, and the exchanges within 1 ns are counted. -/
def twinMeasured (s : State) (ofs : Int) (good : Nat) : State :=
  (s.setReg R.TIME_TWIN (BitVec.ofNat 32 (unsigned 32 ofs))).withTime { s.time with twinGood := good, exchanged := true }

/-- How many exchanges in a row have been within 1 ns (64/64 ns), up to 256, after one of offset `ofs`. -/
def twinGoodAfter (s : State) (ofs : Int) : Nat := if ofs.natAbs ≤ 64 then min 256 (s.time.twinGood + 1) else 0

/-- Holdover follows the exchange; outside holdover the servo steers. -/
def twinSteered (s : State) : State := if s.holdByTwin.inHoldover then s.holdByTwin else s.holdByTwin.steer

/-- LOCK rises, told by TWIN_LOCK. -/
def raiseLock (s : State) : State :=
  if s.is F.TIME_STAT_LOCK then s else (s.set F.TIME_STAT_LOCK 1).event Pg.TIME 14

/-- A standby in lock may be ready (R546). -/
def standbyLocked (s : State) : State :=
  if s.twin.active then s else (s.set F.TWIN_STAT_TLOCK 1).checkReady (s.sliceGeom s.mirrorSize).1

/-- LOCK after `good` exchanges in a row within 1 ns. -/
def twinLocked (s : State) (good : Nat) : State :=
  if good = 0 then s.set F.TIME_STAT_LOCK 0 else if good = 256 then s.raiseLock.standbyLocked else s

end State

theorem exec_twinTimeExchange (ofs : Int) (s : State) :
    exec (.twinTimeExchange ofs) s =
      act s (s.alive && s.isHub && s.runs Pg.TIME && s.time.src == 2 && s.is (F.LANE_STAT_BONDED 4)) fun s =>
        ((s.twinMeasured ofs (s.twinGoodAfter ofs)).twinSteered).twinLocked (s.twinGoodAfter ofs) := rfl

namespace State

theorem steer_keeps (s : State) : s.steer.time.twinGood = s.time.twinGood ∧ s.steer.time.exchanged = s.time.exchanged ∧
    KeepsRegs [R.TIME_INC, R.TIME_INC_FRAC] s s.steer :=
  ⟨rfl, rfl, ((keepsRegs_set _ F.TIME_INC_NS _).trans (keepsRegs_set _ F.TIME_INC_FRAC_FRAC _))⟩

/-- With the bond up and an exchange made, the cause by the twin link clears. -/
theorem holdByTwin_of_exchanged {s : State} (hcell : s.isCell = false) (hbond : s.is (F.LANE_STAT_BONDED 4) = true)
    (hex : s.time.exchanged = true) : s.holdByTwin = s.leaveHold .twin := by
  simp [holdByTwin, hcell, hbond, hex]

/-- The registers that holdover and the servo write after an exchange. -/
def steerRegs : List Nat := [R.PG_EVT Pg.TIME, R.TIME_STAT, R.TIME_INC, R.TIME_INC_FRAC]

/-- Holdover and the servo leave what the exchange has measured. -/
theorem twinSteered_keeps {s : State} (hcell : s.isCell = false) (hbond : s.is (F.LANE_STAT_BONDED 4) = true)
    (hex : s.time.exchanged = true) : s.twinSteered.time.twinGood = s.time.twinGood ∧
    s.twinSteered.time.exchanged = s.time.exchanged ∧ KeepsRegs steerRegs s s.twinSteered := by
  obtain ⟨hgood, hexch, hregs⟩ := s.leaveHold_twin
  rw [twinSteered, holdByTwin_of_exchanged hcell hbond hex]
  split
  · exact ⟨hgood, hexch, hregs.mono (by decide)⟩
  · obtain ⟨hgood', hexch', hregs'⟩ := (s.leaveHold .twin).steer_keeps
    exact ⟨hgood'.trans hgood, hexch'.trans hexch, (hregs.trans hregs').mono (by decide)⟩

theorem raiseLock_lock (s : State) : s.raiseLock.get F.TIME_STAT_LOCK = 1 := by
  unfold raiseLock
  split
  case isTrue h => exact get_eq_one_of_is rfl h
  case isFalse =>
    rw [get_event_ne _ _ _ (by decide)]
    exact get_set_same s F.TIME_STAT_LOCK 1 (by decide)

theorem frame_raiseLock (s : State) : Frame [.recd] [R.TIME_STAT, R.PG_EVT Pg.TIME] s s.raiseLock := by
  unfold raiseLock
  exact .ite (Frame.refl _ _ s) ((frame_set s _ _).trans (frame_event _ _ _))

theorem frame_checkReady (s : State) (nuse : Nat) : Frame [.recd] [R.TWIN_STAT, R.PG_EVT Pg.TWIN] s (s.checkReady nuse) := by
  unfold checkReady
  exact .ite ((frame_set s _ _).trans (frame_event _ _ _)) (Frame.refl _ _ s)

theorem frame_standbyLocked (s : State) : Frame [.recd] [R.TWIN_STAT, R.PG_EVT Pg.TWIN] s s.standbyLocked := by
  unfold standbyLocked
  refine .ite (Frame.refl _ _ s) (.seq ?_ (frame_checkReady _ _))
  exact (frame_set s F.TWIN_STAT_TLOCK 1).mono (by simp) (by decide)

/-- The lock logic writes LOCK, the standby's status and events. -/
theorem frame_twinLocked (s : State) (good : Nat) :
    Frame [.recd] [R.TIME_STAT, R.PG_EVT Pg.TIME, R.TWIN_STAT, R.PG_EVT Pg.TWIN] s (s.twinLocked good) := by
  unfold twinLocked
  refine .ite ?_ (.ite ?_ (Frame.refl _ _ s))
  · exact (frame_set s F.TIME_STAT_LOCK 0).mono (by simp) (by decide)
  · exact ((frame_raiseLock s).trans (frame_standbyLocked _)).mono (by simp) (fun _ ha => ha)

/-- LOCK falls with the first exchange outside 1 ns and is there from the 256th within it. -/
theorem twinLocked_lock (s : State) {good : Nat} (h : good = 0 ∨ good = 256) :
    (s.twinLocked good).get F.TIME_STAT_LOCK = if good = 0 then 0 else 1 := by
  obtain rfl | rfl := h
  · exact get_set_same s F.TIME_STAT_LOCK 0 (by decide)
  · have hkept := (frame_standbyLocked s.raiseLock).2 R.TIME_STAT (by decide)
    exact (congrArg (getBits · 1 1) hkept).trans s.raiseLock_lock

end State

/-- TWIN_TIME_EXCHANGE: the offset, the count of exchanges within 1 ns, and the lock. -/
theorem yields_twinTimeExchange {s : State} (ofs : Int) (halive : s.alive = true) (hhub : s.isHub = true)
    (hruns : s.runs Pg.TIME = true) (hsrc : s.time.src = 2) (hbond : s.is (F.LANE_STAT_BONDED 4) = true) :
    Yields (.twinTimeExchange ofs) s fun t => t.reg R.TIME_TWIN = BitVec.ofInt 32 ofs ∧ t.time.exchanged = true ∧
      t.time.twinGood = s.twinGoodAfter ofs ∧
      (s.twinGoodAfter ofs = 0 ∨ s.twinGoodAfter ofs = 256 →
        t.get F.TIME_STAT_LOCK = if s.twinGoodAfter ofs = 0 then 0 else 1) := by
  refine yields_of_act (exec_twinTimeExchange ofs s) (by simp [halive, hhub, hruns, hsrc, hbond]) ?_
  let m := s.twinMeasured ofs (s.twinGoodAfter ofs)
  have hcell : m.isCell = false := by simp [m, isCell, twinMeasured, withTime, role_of_isHub hhub]
  have hbonded : m.is (F.LANE_STAT_BONDED 4) = true := by
    rw [is, show m.get (F.LANE_STAT_BONDED 4) = s.get (F.LANE_STAT_BONDED 4) from get_setReg_ne _ _ (by decide)]
    exact hbond
  obtain ⟨hgood, hexch, hregs⟩ := twinSteered_keeps hcell hbonded rfl
  obtain ⟨hparts, hregs'⟩ := m.twinSteered.frame_twinLocked (s.twinGoodAfter ofs)
  have htime : (m.twinSteered.twinLocked (s.twinGoodAfter ofs)).time = m.twinSteered.time := hparts .time (by decide)
  have hofs : m.reg R.TIME_TWIN = BitVec.ofInt 32 ofs := (reg_setReg_same _ _ _).trans (ofNat_unsigned ofs)
  rw [settle_time, settle_reg_time _ rfl, settle_get_time _ rfl, htime]
  refine ⟨?_, hexch, hgood, m.twinSteered.twinLocked_lock⟩
  exact (hregs' _ (by decide)).trans ((hregs _ (by decide)).trans hofs)

/-- An exchange outside 1 ns leaves none in a row; one within it after 255 makes 256. -/
theorem State.twinGoodAfter_lock {s : State} {ofs : Int} (h : 64 < ofs.natAbs ∨ 255 ≤ s.time.twinGood) :
    s.twinGoodAfter ofs = if ofs.natAbs ≤ 64 then 256 else 0 := by
  rw [twinGoodAfter]
  split <;> omega

/-- Settles O17: requests are stored until their tick, which applies them (`applyWaiting_of_jump`, `applyWaiting_of_idle`); the
hardwired logic writes nothing of the TIME page (`settle_reg_time`) nor looks at the time unit of a hub (`settle_withTime`). -/
theorem timeUnit : Obligations.TimeUnit := by
  unfold Obligations.TimeUnit
  refine ⟨fun s path frac hreach _ => yields_timeIncWrite frac hreach,
    fun s path ⟨hpath, _⟩ hruns hmer => yields_timeCmdStep hpath hruns hmer,
    fun s path ⟨hpath, _⟩ hruns hmer => yields_timeCmdSet hpath hruns hmer, fun s d halive hruns hsrc hjump hcorr => ?_,
    fun s n halive hruns hsrc hjump hcorr hinc => ?_, fun s path hreach _ hgate => yields_timeNowRead hreach hgate,
    fun s hs halive hhub hruns hfn hoff => ?_, fun s hs halive hhub => ⟨?_, ?_⟩,
    fun s hpend halive hhub hruns hsrc hjump hcorr hinc => ?_,
    fun s p seq ty sent corr t3 halive hruns hcell hp hty hroom => ?_,
    fun s p seq ty sent corr t3 halive hruns hcell hp hty hfull =>
      yields_ptpTimestamp_full sent corr t3 halive hruns hcell hp hty hfull,
    fun s path p e q hreach hgate _ hp hq => yields_tsqPop hreach hgate hp hq,
    fun s ofs halive hhub hruns hsrc hbond => ?_, fun s ofs halive hhub hruns hsrc hbond hlock => ?_,
    fun s halive hruns hcell hhold => yields_holdoverEnter_frames halive hruns hcell hhold⟩
  · obtain ⟨t, ht, hnow, htime, hevent⟩ := yields_stepDone halive hruns hsrc hjump hcorr
    refine ⟨t, ht, hnow, ?_, hevent⟩
    rw [htime, takeIncrement_jump, applyJump_time]
  · obtain ⟨t, ht, hnow, htime, -⟩ := yields_stepDone halive hruns hsrc hjump hcorr
    refine ⟨t, ht, hnow, ?_⟩
    rw [htime, takeIncrement_of_none (by rw [applyJump_time]; exact hinc), applyJump_time]
  · exact exec_withTime (exec_ppsPulse s) rfl (by simp [halive, hhub, hruns, hfn, hoff]) hs hhub
  · exact exec_withTime (exec_ppsPulseEnd s) rfl (by simp [halive, hhub]) hs hhub
  · exact exec_withTime (exec_cycleMarkEnd s) rfl (by simp [halive, hhub]) hs hhub
  · exact ⟨_, step_of_idle hpend, idle_now halive hhub hruns (applyWaiting_of_idle hsrc hjump hcorr hinc)⟩
  · obtain ⟨t, ht, hqueue, -⟩ := yields_ptpTimestamp (seq := seq) sent corr t3 halive hruns hcell hp hty
    exact ⟨t, ht, hqueue.trans (pushTs_of_room _ hroom)⟩
  · obtain ⟨t, ht, hofs, hexch, hgood, -⟩ := yields_twinTimeExchange ofs halive hhub hruns hsrc hbond
    exact ⟨t, ht, hofs, hexch, hgood⟩
  · obtain ⟨t, ht, -, -, -, hlocked⟩ := yields_twinTimeExchange ofs halive hhub hruns hsrc hbond
    have hafter := State.twinGoodAfter_lock hlock
    refine ⟨t, ht, (hlocked (by rw [hafter]; split <;> omega)).trans ?_⟩
    rw [hafter]
    split <;> rfl

end Sys2Proof.Machine
end

section
/-! PROOFS. What happens beside the frame path of a cell (R221 to R270): updates that leave the registers of its TREE pages and
what it has received as they were. -/

namespace Sys2Proof.Machine

/-- Is the register one of the two TREE pages of a cell? -/
abbrev treeReg (a : Nat) : Prop := a / 0x400 = Pg.TREE 0 ∨ a / 0x400 = Pg.TREE 1

/-- The registers of the TREE pages and what the cell has received are in `t` as in `s`. -/
structure Beside (s t : State) : Prop where
  reg : ∀ a, treeReg a → t.reg a = s.reg a
  rx : t.rx = s.rx

namespace Beside

variable {s t u : State}

theorem refl (s : State) : Beside s s := ⟨fun _ _ => rfl, rfl⟩

theorem trans (h : Beside s t) (g : Beside t u) : Beside s u :=
  ⟨fun a ha => (g.reg a ha).trans (h.reg a ha), g.rx.trans h.rx⟩

/-- An update of other parts than registers, role and what is received. The fields stand one by one, as in `Bypassed.upd`. -/
theorem upd {x : State}
    {phase' grade' pins' act' mem' resp' host' boot' sup' clk' sec' err' freeCtr' uart' now' elapsed' time' lanes' ports'
    berths' rank' eng' comp' mod' cmod' gate' safe' adc' twin' refLinks' refPairs' sch' memErr' arb' bb' mon' recd' stn'
    pending'} (h : Beside s x) :
    Beside s ⟨x.role, phase', grade', pins', x.regs, act', mem', resp', host', boot', sup', clk', sec', err', freeCtr',
      uart', now', elapsed', time', lanes', x.rx, ports', berths', rank', eng', comp', mod', cmod', gate', safe', adc', twin',
      refLinks', refPairs', sch', memErr', arb', bb', mon', recd', stn', pending'⟩ := ⟨h.reg, h.rx⟩

theorem of_frame {ps : List Part} {rs : List Nat} (h : Frame ps rs s t) (hp : Part.rx ∉ ps) (hr : ∀ a ∈ rs, ¬ treeReg a) :
    Beside s t := ⟨fun a ha => h.2 a fun hmem => hr a hmem ha, h.1 .rx hp⟩

theorem setReg {a : Nat} {v : Word} (h : Beside s t) (ha : ¬ treeReg a := by decide) : Beside s (t.setReg a v) :=
  ⟨fun b hb => (State.reg_setReg_ne t v fun he : b = a => ha (he ▸ hb)).trans (h.reg b hb), h.rx⟩

theorem set {f : Fld} {n : Nat} (h : Beside s t) (hf : ¬ treeReg f.addr := by decide) : Beside s (t.set f n) :=
  .setReg h hf

theorem bump {f : Fld} {n : Nat} (h : Beside s t) (hf : ¬ treeReg f.addr := by decide) : Beside s (t.bump f n) :=
  .setReg h hf

theorem event {pg bit : Nat} (h : Beside s t) (hp : ¬ treeReg (R.PG_EVT pg) := by decide) : Beside s (t.event pg bit) :=
  h.trans <| of_frame (frame_event t pg bit) (by decide) (by simpa using hp)

theorem ite {c : Prop} [Decidable c] (h : Beside s t) (g : Beside s u) : Beside s (if c then t else u) :=
  iteInduction (fun _ => h) fun _ => g

theorem when {c : Bool} {f : State → State} (h : Beside s t) (hf : Beside t (f t)) : Beside s (t.when c f) :=
  .ite (h.trans hf) h

theorem get (h : Beside s t) {f : Fld} (hf : treeReg f.addr) : t.get f = s.get f := by rw [State.get, h.reg _ hf, State.get]

theorem uplink (h : Beside s t) (n : Nat) : t.uplink n = s.uplink n := by rw [State.uplink, h.rx, State.uplink]

/-! The time unit (R221 to R238). -/

theorem holdByTwin (h : Beside s t) (hc : t.isCell = true) : Beside s t.holdByTwin := by
  rw [State.holdByTwin, if_pos hc]
  exact h

theorem takeSource (hc : s.isCell = true) : Beside s s.takeSource := .ite (.refl s) <| .holdByTwin (.upd <| .refl s) hc

theorem applyWaiting (hc : s.isCell = true) : Beside s s.applyWaiting := by
  have hjump (t : State) : Beside t t.applyWaitingJump := by
    unfold State.applyWaitingJump
    split
    · exact .event <| .upd <| .refl t
    · exact .refl t
  have hinc (t : State) : Beside t t.takeIncrement := by
    unfold State.takeIncrement
    split
    · exact .upd <| .refl t
    · exact .refl t
  have hcorr : Beside s s.takeSource.applyWaitingJump.corrected := .upd <| (takeSource hc).trans <| hjump _
  exact hcorr.trans <| hinc _

theorem reach (hc : s.isCell = true) (t : Int) : Beside s (s.reach t) := .ite (.upd <| .upd <| applyWaiting hc) <| .refl s

theorem leaveHold (s : State) (c : HoldCause) : Beside s (s.leaveHold c) :=
  .ite (.refl s) <| .ite (.upd <| .ite (.upd <| .refl s) <| .refl s) <| .set <| .event <| .upd <|
    .ite (.upd <| .refl s) <| .refl s

theorem correctBy {d : Int} (h : Beside s t) : Beside s (t.correctBy d) := .ite h <| .upd h

theorem monUnit (s : State) (src : Nat) (f : Nat → Option Int) (j : Nat) : Beside s (s.monUnit src f j) := by
  refine .ite ?_ <| .refl s
  split
  · exact .upd <| .refl s
  · exact .refl s

theorem monitor (s : State) (src : Nat) (f : Nat → Option Int) : Beside s (s.monitor src f) :=
  State.Bypassed.forUpTo_of (P := Beside s) (.refl s) fun j t h => h.trans <| monUnit t src f j

theorem correctTime (s : State) (u k stamp : Nat) (b : Timebase) : Beside s (s.correctTime u k stamp b) := by
  unfold State.correctTime
  extract_lets _ _ s₁ s₂ _ s₃ s₄ _ _ _ _ s₅
  have h₁ : Beside s s₁ := .setReg <| leaveHold s .frames
  have h₂ : Beside s s₂ := h₁.trans <| monitor s₁ 7 _
  have h₃ : Beside s s₃ := .correctBy <| .upd h₂
  have h₄ : Beside s s₄ := .set <| .bump h₂
  have h₅ : Beside s s₅ := .upd h₄
  exact .ite (.set h₃) <| .ite (.upd h₄) <| .ite h₅ <| .event <| .correctBy h₅

theorem followBase (s : State) (b : Timebase) : Beside s (s.followBase b) :=
  .set <| .upd <| .set <| .upd <| .setReg <| .upd <| .setReg <| .upd <| .setReg <| .upd <| .setReg <| .upd <|
    .setReg <| .refl s

theorem setCycle (s : State) (k : Nat) : Beside s (s.setCycle k) := .upd <| .set <| .setReg <| .refl s

/-! The lanes and the gate block (R197, R462, R463). -/

theorem codeGroups (s : State) {n : Nat} (hn : n < 2) (ok : Bool) : Beside s (s.codeGroups n ok) := by
  have haddr : ¬ treeReg (F.LANE_CNT_CODEERR n).addr := by
    obtain rfl | rfl : n = 0 ∨ n = 1 := by omega
    all_goals decide
  exact .ite (.upd <| .refl s) <| .bump (.upd <| .refl s) haddr

theorem edge (s : State) (st : CellState) (t q : Nat) : Beside s (s.edge st t q) :=
  .upd <| .set <| .setReg <| .ite (.event <| .bump <| .refl s) <| .refl s

theorem cellBlockNow (s : State) : Beside s s.cellBlockNow :=
  .ite (.upd <| .refl s) <| .upd <| .ite (.refl s) <| edge s .block s.now s.now

theorem bbWrite (s : State) (type sub : Nat) (detail : List Nat) : Beside s (s.bbWrite type sub detail) :=
  of_frame (frame_bbWrite s type sub detail) (by decide) (by decide)

end Beside

end Sys2Proof.Machine
end

section
/-! PROOFS. Obedience at a cell (R261 to R267): what queueing the events of a frame and storing its references change, and what
an obeyed frame leaves in TREE_CELL_STAT, TREE_CELL_K and the counters of its uplink. -/

namespace Sys2Proof.Machine

/-! Queueing the events of a frame (R254 to R257, R265, R266). -/

/-- The registers that count what becomes of queued events. -/
def eventRegs : List Nat := [R.TREE_CELL_EVCNT 0, R.TREE_CELL_DUPS 0]

/-- Of the registers at most the event counters differ, of what the cell has received at most the event queue. -/
structure Queues (s t : State) : Prop where
  regs : KeepsRegs eventRegs s t
  rx : t.rx = { s.rx with events := t.rx.events }

namespace Queues

variable {s t u : State}

theorem refl (s : State) : Queues s s := ⟨.refl _ s, rfl⟩

theorem trans (h : Queues s t) (g : Queues t u) : Queues s u :=
  ⟨fun a ha => (g.regs a ha).trans (h.regs a ha), by rw [g.rx, h.rx]⟩

theorem ite {c : Prop} [Decidable c] (h : Queues s t) (g : Queues s u) : Queues s (if c then t else u) :=
  iteInduction (fun _ => h) fun _ => g

theorem set {f : Fld} {n : Nat} (h : Queues s t) (hf : f.addr ∈ eventRegs := by decide) : Queues s (t.set f n) :=
  ⟨fun a ha => (State.reg_set_ne t n fun he : a = f.addr => ha (he ▸ hf)).trans (h.regs a ha), h.rx⟩

theorem evFlag {b : Nat} (h : Queues s t) : Queues s (t.evFlag b) := ⟨h.regs, h.rx⟩

/-- The queue itself changes. -/
theorem keep {l : List CellEvent} (h : Queues s t) : Queues s { t with rx := { t.rx with events := l } } :=
  ⟨h.regs, by rw [h.rx]⟩

theorem obeying (h : Queues s t) : t.rx.obeying = s.rx.obeying := by rw [h.rx]
theorem up (h : Queues s t) : t.rx.up = s.rx.up := by rw [h.rx]

theorem rejected {n : Nat} : Queues s (s.rejected n) := .set <| .refl s

theorem swapErr : Queues s s.swapErr := .evFlag <| .set <| .refl s

theorem queueEvent {b t seq off a q} : Queues s (s.queueEvent b t seq off a q) := by
  refine .ite (.set <| .refl s) <| .ite (.evFlag <| .set <| .refl s) <| .ite .rejected ?_
  split
  · exact .ite (.set <| .refl s) <| .keep <| .set <| .refl s
  · exact .ite (.evFlag <| .set <| .refl s) <| .keep <| .refl s

theorem singleWord {b t q w} : Queues s (s.singleWord b t q w) := by
  have move {a} : Queues s (if s.cellInter then s.rejected 1
      else s.queueEvent b t (State.wSeq w) (State.wOffset w) a q) := .ite .rejected .queueEvent
  unfold State.singleWord
  dsimp only
  split
  · exact move
  · exact move
  · exact .ite move .rejected
  · exact .queueEvent
  · exact .queueEvent
  · exact .queueEvent
  · exact .rejected

theorem trimPair {b t q own w x} : Queues s (s.trimPair b t q own w x) :=
  .ite (.ite .queueEvent .rejected) <| .ite .rejected <| .refl s

theorem swapPair {b t q own w x} : Queues s (s.swapPair b t q own w x) :=
  .ite (.refl s) <| .ite .rejected <| .ite .swapErr <| .ite .rejected .queueEvent

theorem takeWords {b t q own l} : Queues s (s.takeWords b t q own l) := by
  fun_induction State.takeWords s b t q own l with
  | case1 | case2 => exact .refl _
  | case3 => exact .rejected
  | case4 => exact .swapErr
  | case5 => exact .singleWord
  | case6 s w x l _ ih => exact trimPair.trans ih
  | case7 s w x l _ _ ih => exact swapPair.trans ih
  | case8 s w x l _ _ ih => exact (Queues.ite .singleWord <| .refl s).trans ih

end Queues

/-! The references of an obeyed frame (R252, R358). -/

/-- The registers that show the references of the last obeyed frame. -/
def refRegs : List Nat := (List.range 4).map (R.TREE_CELL_REF 0)

theorem keepsRegs_storeRefs (s : State) (f : RxFrame) (t : Nat) : KeepsRegs refRegs s (s.storeRefs f t) := by
  unfold State.storeRefs
  extract_lets own e s₁
  have hlen : (own ++ [e]).length ≤ 4 := by simp [own]
  have h₁ : KeepsRegs refRegs s s₁ := by
    refine List.foldlRecOn (motive := KeepsRegs refRegs s) _ _ (.refl _ s) fun t ht x hx a ha => ?_
    have hlt := List.snd_lt_of_mem_zipIdx hx
    have hne : a ≠ R.TREE_CELL_REF 0 x.2 := fun he =>
      ha (he ▸ List.mem_map_of_mem (List.mem_range.mpr (by omega)))
    rw [State.reg_setReg_ne t _ hne, ht a ha]
  unfold State.epochSeen
  dsimp only
  split <;> exact h₁

theorem storeRefs_rx (s : State) (f : RxFrame) (t : Nat) : (s.storeRefs f t).rx = s.rx := by
  unfold State.storeRefs
  extract_lets own e s₁
  have h₁ : s₁.rx = s.rx := List.foldlRecOn (motive := fun t : State => t.rx = s.rx) _ _ rfl fun t ht x _ => ht
  unfold State.epochSeen
  dsimp only
  split <;> exact h₁

/-! An obeyed frame (R261 to R264). -/

/-- The end of a hold changes the list of holds alone. -/
theorem holdEnds_eq (s : State) : s.holdEnds = { s with rx := { s.rx with holds := s.holdEnds.rx.holds } } := by
  unfold State.holdEnds
  split <;> rfl

/-- The register of an uplink's frame counts is none of those that obeying a frame writes otherwise. -/
theorem rxReg_apart {u : Nat} (hu : u < 2) : treeReg (R.TREE_CELL_RX u) ∧ R.TREE_CELL_RX u ∉ eventRegs ∧
    R.TREE_CELL_RX u ∉ refRegs ∧ R.TREE_CELL_RX u ≠ R.TREE_CELL_STAT 0 ∧ R.TREE_CELL_RX u ≠ R.TREE_CELL_K_LO 0 ∧
    R.TREE_CELL_RX u ≠ R.TREE_CELL_K_HI 0 := by
  obtain rfl | rfl : u = 0 ∨ u = 1 := by omega
  all_goals decide

/-- What obeying frame `f` on uplink `u` leaves: the cell obeys, TREE_CELL_STAT and TREE_CELL_K show the frame, OBEYED counts
it; the watch number, VALID and the uplinks stay. -/
structure Obeys (s : State) (u : Nat) (f : RxFrame) (t : State) : Prop where
  watch : t.get (F.TREE_CELL_STAT_W 0) = s.get (F.TREE_CELL_STAT_W 0)
  cycle : t.reg (R.TREE_CELL_K_LO 0) = BitVec.ofNat 32 f.cycle
  state : t.get (F.TREE_CELL_STAT_STATE 0) = 1
  lane : t.get (F.TREE_CELL_STAT_LANE 0) = u
  obeying : t.rx.obeying = true
  up : t.rx.up = s.rx.up
  valid : t.get (F.TREE_CELL_RX_VALID u) = s.get (F.TREE_CELL_RX_VALID u)
  counted : t.get (F.TREE_CELL_RX_OBEYED u) = (s.get (F.TREE_CELL_RX_OBEYED u) + 1) % 2 ^ (F.TREE_CELL_RX_OBEYED u).w

namespace State

/-- `obey` up to TREE_CELL_STAT: the frame is counted, time registers, TREE_CELL_K and TREE_CELL_STAT show it, stopped meridians
start from its cycle, a hold ends. -/
def obeyShown (s : State) (u : Nat) (f : RxFrame) (b : Timebase) : State :=
  let s₁ := (s.count (F.TREE_CELL_RX_OBEYED u)).followBase b
  let s₂ := (s₁.setReg (R.TREE_CELL_K_LO 0) (BitVec.ofNat 32 f.cycle)).setReg (R.TREE_CELL_K_HI 0)
    (BitVec.ofNat 32 (f.cycle / 2 ^ 32))
  let s₃ := ((s₂.set (F.TREE_CELL_STAT_LEXEC 0) (f.lexec - 1)).set (F.TREE_CELL_STAT_REPEAT 0) (b2n (f.flag 4))).set
    (F.TREE_CELL_STAT_LANE 0) u
  let s₄ := s₃.when (!s.rx.obeying) fun s => (s.setCycle f.cycle).set F.TIME_MER_RUN 1
  s₄.holdEnds.set (F.TREE_CELL_STAT_STATE 0) 1

/-- The fields and registers of `obeyShown`. -/
theorem obeyShown_shows (s : State) {u : Nat} (hu : u < 2) (f : RxFrame) (b : Timebase) :
    (s.obeyShown u f b).get (F.TREE_CELL_STAT_W 0) = s.get (F.TREE_CELL_STAT_W 0) ∧
    (s.obeyShown u f b).reg (R.TREE_CELL_K_LO 0) = BitVec.ofNat 32 f.cycle ∧
    (s.obeyShown u f b).get (F.TREE_CELL_STAT_STATE 0) = 1 ∧
    (s.obeyShown u f b).get (F.TREE_CELL_STAT_LANE 0) = u ∧
    (s.obeyShown u f b).reg (R.TREE_CELL_RX u) = (s.count (F.TREE_CELL_RX_OBEYED u)).reg (R.TREE_CELL_RX u) ∧
    (s.obeyShown u f b).rx.up = s.rx.up := by
  unfold obeyShown
  extract_lets s₁ s₂ s₃ s₄
  obtain ⟨htree, -, -, hstat, hlo, hhi⟩ := rxReg_apart hu
  have h₁ : Beside (s.count (F.TREE_CELL_RX_OBEYED u)) s₁ := Beside.followBase _ b
  have h₄ : Beside s₃ s₄ := .when (.refl s₃) (.set <| Beside.setCycle s₃ f.cycle)
  have hreg : ∀ a, s₄.holdEnds.reg a = s₄.reg a := fun a => by rw [holdEnds_eq]; rfl
  have hget : ∀ g, s₄.holdEnds.get g = s₄.get g := fun g => by rw [State.get, hreg, State.get]
  have hshown : ∀ a, treeReg a → a ≠ R.TREE_CELL_STAT 0 →
      (s₄.holdEnds.set (F.TREE_CELL_STAT_STATE 0) 1).reg a = s₂.reg a := fun a ht hs => by
    rw [reg_set_ne _ _ hs, hreg, h₄.reg a ht]
    simp only [s₃, reg_set_ne _ _ (show a ≠ (F.TREE_CELL_STAT_LANE 0).addr from hs),
      reg_set_ne _ _ (show a ≠ (F.TREE_CELL_STAT_REPEAT 0).addr from hs),
      reg_set_ne _ _ (show a ≠ (F.TREE_CELL_STAT_LEXEC 0).addr from hs)]
  refine ⟨?_, ?_, get_set_same _ _ _ (by decide), ?_, ?_, ?_⟩
  · calc (s₄.holdEnds.set (F.TREE_CELL_STAT_STATE 0) 1).get (F.TREE_CELL_STAT_W 0)
        = s₄.get (F.TREE_CELL_STAT_W 0) := (get_set_other _ _ (by decide)).trans (hget _)
      _ = s₃.get (F.TREE_CELL_STAT_W 0) := h₄.get (by decide)
      _ = s₂.get (F.TREE_CELL_STAT_W 0) := by
        rw [get_set_other _ _ (by decide), get_set_other _ _ (by decide), get_set_other _ _ (by decide)]
      _ = s₁.get (F.TREE_CELL_STAT_W 0) := by rw [get_setReg_ne _ _ (by decide), get_setReg_ne _ _ (by decide)]
      _ = (s.count (F.TREE_CELL_RX_OBEYED u)).get (F.TREE_CELL_STAT_W 0) := h₁.get (by decide)
      _ = s.get (F.TREE_CELL_STAT_W 0) := get_set_ne _ _ hstat.symm
  · rw [hshown _ (by decide) (by decide), reg_setReg_ne _ _ (by decide), reg_setReg_same]
  · rw [get_set_other _ _ (by decide), hget, h₄.get (by decide), get_set_same _ _ _ (by decide)]
    exact Nat.mod_eq_of_lt hu
  · rw [hshown _ htree hstat, reg_setReg_ne _ _ hhi, reg_setReg_ne _ _ hlo, h₁.reg _ htree]
  · have hrx : s₃.rx = s.rx := by
      simp only [s₃, s₂, set_rx, setReg_rx]
      exact h₁.rx
    rw [set_rx, holdEnds_eq, ← hrx, ← h₄.rx]

/-- The rest of `obey` writes of the TREE registers the event counters and the references alone. -/
theorem obey_after (s : State) (u : Nat) (f : RxFrame) (b : Timebase) (stamp q : Nat) :
    (∀ a, treeReg a → a ∉ eventRegs → a ∉ refRegs → (s.obey u f b stamp q).reg a = (s.obeyShown u f b).reg a) ∧
    (s.obey u f b stamp q).rx.obeying = true ∧ (s.obey u f b stamp q).rx.up = (s.obeyShown u f b).rx.up := by
  unfold obey
  extract_lets k stopped _ _ _ _ s₅ _ _ s₆ s₇ s₈ tNew s₉
  have h₅ : s₅ = s.obeyShown u f b := rfl
  have h₈ : Beside s₆ s₈ := .trans (.when (.refl s₆) (Beside.cellBlockNow s₆)) (Beside.monitor s₇ 1 _)
  have h₉ : KeepsRegs eventRegs s₈ s₉ ∧ s₉.rx.obeying = s₈.rx.obeying ∧ s₉.rx.up = s₈.rx.up := by
    unfold s₉
    split
    · exact ⟨.refl _ _, rfl, rfl⟩
    · extract_lets s₉
      have hq : Queues s₈ s₉ := Queues.takeWords.trans Queues.takeWords
      exact ⟨hq.regs, hq.obeying, hq.up⟩
  obtain ⟨hregs, hobeying, hup⟩ := h₉
  rw [storeRefs_rx, hobeying, hup, h₈.rx, ← h₅]
  exact ⟨fun a ht he hr => (keepsRegs_storeRefs s₉ f tNew a hr).trans ((hregs a he).trans (h₈.reg a ht)), rfl, rfl⟩

end State

theorem obeys_obey (s : State) {u : Nat} (hu : u < 2) (f : RxFrame) (b : Timebase) (stamp q : Nat) :
    Obeys s u f (s.obey u f b stamp q) := by
  obtain ⟨hreg, hobeying, hup⟩ := s.obey_after u f b stamp q
  obtain ⟨hwatch, hcycle, hstate, hlane, hcount, hups⟩ := s.obeyShown_shows hu f b
  obtain ⟨htree, hevent, href, -⟩ := rxReg_apart hu
  have hstat := hreg (R.TREE_CELL_STAT 0) (by decide) (by decide) (by decide)
  have hrx : (s.obey u f b stamp q).reg (R.TREE_CELL_RX u) = (s.count (F.TREE_CELL_RX_OBEYED u)).reg (R.TREE_CELL_RX u) :=
    (hreg _ htree hevent href).trans hcount
  have hget : ∀ {x t : State} {g : Fld}, t.reg g.addr = x.reg g.addr → t.get g = x.get g := fun h => by
    rw [State.get, h, State.get]
  exact {
    watch := (hget (g := F.TREE_CELL_STAT_W 0) hstat).trans hwatch
    cycle := (hreg _ (by decide) (by decide) (by decide)).trans hcycle
    state := (hget (g := F.TREE_CELL_STAT_STATE 0) hstat).trans hstate
    lane := (hget (g := F.TREE_CELL_STAT_LANE 0) hstat).trans hlane
    obeying := hobeying
    up := hup.trans hups
    valid := (hget (g := F.TREE_CELL_RX_VALID u) hrx).trans (State.get_set_other s _ (.inr (.inl (Nat.le_refl 16))))
    counted := (hget (g := F.TREE_CELL_RX_OBEYED u) hrx).trans (State.get_set_same s _ _ (Nat.le_refl 32)) }

end Sys2Proof.Machine
end

section
/-! PROOFS. Cycle frames at a cell (R260 to R263): the checks in their order, the fence of the watch numbers, obedience. -/

namespace Sys2Proof.Machine

theorem Beside.settle (s : State) : Beside s s.settle := of_frame (frame_settle s) (by decide) (by decide)

theorem exec_cycleFrameRx (u : Nat) (co : Bool) (bs : List Byte) (stamp q : Nat) (s : State) :
    exec (.cycleFrameRx u co bs stamp q) s = execCycleFrameRx u co bs stamp q s := rfl

namespace State

/-- Where the frame path runs the part is a cell and the uplink one of its two. -/
theorem frameOn_iff {s : State} {u : Nat} : s.frameOn u = true ↔
    s.alive = true ∧ s.isCell = true ∧ u < 2 ∧ s.runs (Pg.TREE u) = true ∧ s.laneHears u = true := by
  simp [frameOn, pathOn, and_assoc]

/-- The cell when a frame has come: time has reached its stamp, its code groups are judged. -/
def heard (s : State) (u : Nat) (co : Bool) (stamp : Nat) : State := (s.reach stamp).codeGroups u co

theorem beside_heard {s : State} {u : Nat} (hon : s.frameOn u = true) (co : Bool) (stamp : Nat) :
    Beside s (s.heard u co stamp) := by
  obtain ⟨-, hcell, hu, -⟩ := frameOn_iff.mp hon
  exact (Beside.reach hcell stamp).trans (Beside.codeGroups _ hu co)

/-! A dropped frame (R260). -/

/-- Frame counter `c` of uplink `u` counts, UPLINK_ERR and its EVFLAGS bit are set, nothing is received. -/
structure Drops (u : Nat) (c : Fld) (s t : State) : Prop where
  count : t.get c = satAdd c.w (s.get c) 1
  event : bitOf (t.reg (R.PG_EVT (Pg.TREE u))).toNat 17 = true
  flag : bitOf t.gate.flags 7 = true
  rx : t.rx = s.rx

theorem bitOf_evFlag (s : State) (b : Nat) : bitOf (s.evFlag b).gate.flags b = true := by
  simp [evFlag, bitOf_eq_testBit, Nat.testBit_or]

theorem drops_frameDrop (s : State) {u : Nat} {c : Fld} (hc : c.addr = R.TREE_CELL_ERR u) (hw : c.lo + c.w ≤ 32) :
    Drops u c s (s.frameDrop u c) where
  count := by
    have hne : c.addr ≠ R.PG_EVT (Pg.TREE u) := by rw [hc]; simp only [R.TREE_CELL_ERR, R.PG_EVT, Pg.TREE]; omega
    exact (get_event_ne _ _ _ hne).trans (get_bump_same s c 1 hw)
  event := bitOf_event _ _ (by decide)
  flag := bitOf_evFlag _ 7
  rx := event_rx _ _ _

/-- Outside a cell the hardwired logic leaves the gate block. -/
theorem settle_gate_of_not_cell {s : State} (h : s.role ≠ .cell) : s.settle.gate = s.gate := by
  by_cases hh : s.role = .hub
  · rw [settle_hub hh]
    exact ((frame_selfEnter s).trans ((frame_forceVb _).trans (frame_markReclaim _))).1 .gate (by decide)
  · rw [settle_other h hh]

/-- The hardwired logic leaves EVFLAGS. -/
@[simp] theorem settle_flags (s : State) : s.settle.gate.flags = s.gate.flags := by
  have forced (u : State) : u.forceGates.gate.flags = u.gate.flags := by
    unfold forceGates
    repeat' split
    all_goals rfl
  have recorded (u : State) : u.recordState.gate.flags = u.gate.flags := by
    unfold recordState
    repeat' split
    all_goals rfl
  by_cases hc : s.role = .cell
  · rw [settle_cell hc, recorded, forceDb_eq, forced]
  · rw [settle_gate_of_not_cell hc]

end State

open State

/-- The TREE registers of an uplink that a reception shows. -/
theorem treeReg_uplink {u : Nat} (hu : u < 2) :
    treeReg (R.TREE_CELL_ERR u) ∧ treeReg (R.PG_EVT (Pg.TREE u)) ∧ treeReg (R.TREE_CELL_RX u) := by
  obtain rfl | rfl : u = 0 ∨ u = 1 := by omega
  all_goals decide

theorem State.Drops.settle {u : Nat} {c : Fld} {s t : State} (h : Drops u c s t) (hu : u < 2)
    (hc : c.addr = R.TREE_CELL_ERR u) : Drops u c s t.settle where
  count := ((Beside.settle t).get (hc ▸ (treeReg_uplink hu).1)).trans h.count
  event := by rw [(Beside.settle t).reg _ (treeReg_uplink hu).2.1]; exact h.event
  flag := by rw [settle_flags]; exact h.flag
  rx := (settle_rx t).trans h.rx

/-- What comes before the checks changes nothing that a dropped frame counts. -/
theorem State.Drops.of_beside {u : Nat} {c : Fld} {s h t : State} (d : Drops u c h t) (b : Beside s h) (hu : u < 2)
    (hc : c.addr = R.TREE_CELL_ERR u) : Drops u c s t where
  count := by rw [d.count, b.get (hc ▸ (treeReg_uplink hu).1)]
  event := d.event
  flag := d.flag
  rx := d.rx.trans b.rx

/-- CYCLE_FRAME_RX answers what the reception of the frame leaves, settled. -/
theorem yields_cycleFrameRx {s : State} {u : Nat} {co : Bool} {bs : List Byte} {stamp q : Nat} {P : State → Prop}
    (hon : s.frameOn u = true) (hP : P ((s.heard u co stamp).frameRx u co bs stamp q).settle) :
    Yields (.cycleFrameRx u co bs stamp q) s P := yields_of_act (exec_cycleFrameRx ..) hon hP

/-- CYCLE_FRAME_RX of a frame that fails the check of counter `c`. -/
theorem yields_cycleFrameRx_of_drop {s : State} {u : Nat} {c : Fld} {co : Bool} {bs : List Byte} {stamp : Nat} (q : Nat)
    (hon : s.frameOn u = true) (hc : c.addr = R.TREE_CELL_ERR u) (hw : c.lo + c.w ≤ 32)
    (hdrop : (s.heard u co stamp).frameRx u co bs stamp q = (s.heard u co stamp).frameDrop u c) :
    Yields (.cycleFrameRx u co bs stamp q) s (Drops u c s) := by
  obtain ⟨-, -, hu, -⟩ := frameOn_iff.mp hon
  refine yields_cycleFrameRx hon ?_
  rw [hdrop]
  exact ((drops_frameDrop _ hc hw).of_beside (beside_heard hon co stamp) hu hc).settle hu hc

namespace State

/-! The checks of R260, in their order. -/

theorem frameRx_of_code {s : State} {u : Nat} {co : Bool} {bs : List Byte} (stamp q : Nat)
    (h : co = false ∨ 1024 < bs.length) : s.frameRx u co bs stamp q = s.frameDrop u (F.TREE_CELL_ERR_CODE u) :=
  if_pos (h.imp_left fun hco => by simp [hco])

theorem frameRx_of_format {s : State} {u : Nat} {bs : List Byte} (stamp q : Nat) (hlen : bs.length ≤ 1024)
    (h : parseFrame bs = none) : s.frameRx u true bs stamp q = s.frameDrop u (F.TREE_CELL_ERR_FORMAT u) := by
  rw [frameRx, if_neg (by simpa using hlen)]
  simp only [h]

/-- A frame `f` without a TBASE that passes the first two checks of R260, on the timebase `b` that uplink `u` holds. -/
structure Readable (s : State) (u : Nat) (bs : List Byte) (f : RxFrame) (b : Timebase) : Prop where
  size : bs.length ≤ 1024
  parsed : parseFrame bs = some f
  noBase : f.timebase = none
  base : ((s.uplink u).bases.find? fun c => c.tbg == f.tbg) = some b
  port : (s.uplink u).port = some f.port

/-- A frame without a TBASE that has passed every check: the side of the hub is told, an ACTIVE frame counts for the IRC
measurement, and the keys held decide how it is taken. -/
def frameTaken (s : State) (u : Nat) (f : RxFrame) (b : Timebase) (stamp q : Nat) : State :=
  let v := (s.when (s.keyed u) fun t => t.setUplink u { s.uplink u with side := t.frameSide u f }).when (f.flag 0)
    countIrcFrame
  if v.keyed u then v.frameKeyed u f b stamp q else v.frameUnkeyed u f b stamp

section
variable {s t : State} {u : Nat} {bs : List Byte} {f : RxFrame} {b : Timebase}

theorem Readable.of_beside (h : s.Readable u bs f b) (g : Beside s t) : t.Readable u bs f b :=
  ⟨h.size, h.parsed, h.noBase, by rw [g.uplink, h.base], by rw [g.uplink, h.port]⟩

/-- The checks that are left for a readable frame: CRC, then tag. -/
theorem Readable.frameRx (h : s.Readable u bs f b) (stamp q : Nat) : s.frameRx u true bs stamp q =
    if f.crc ≠ crcBytes (f.hdr ++ f.tag) then s.frameDrop u (F.TREE_CELL_ERR_CRC u)
    else if s.keyed u ∧ (s.frameSide u f).isNone then
      (s.frameDrop u (F.TREE_CELL_ERR_TAG u)).setUplink u { s.uplink u with tagBad := true }
    else s.frameTaken u f b stamp q := by
  rw [State.frameRx, if_neg (by simpa using h.size)]
  simp only [h.parsed, h.noBase, h.base]
  rw [if_neg (by simp [h.port])]
  rfl

/-- Whether a group key is held, and under which side a frame's tag verifies, is told by what has been received. -/
theorem keyed_of_beside (g : Beside s t) : t.keyed u = s.keyed u := by rw [keyed, g.uplink, keyed]

theorem frameSide_of_beside (g : Beside s t) : t.frameSide u f = s.frameSide u f := by
  simp only [frameSide, groupFor, g.uplink]

end

end State

end Sys2Proof.Machine
end

section
/-! PROOFS. A tag-valid frame at a cell (R261 to R263, R315): it is counted, and by its watch number obeyed or fenced. -/

namespace Sys2Proof.Machine

namespace State

@[simp] theorem uplink_setUplink_same (s : State) (u : Nat) (x : UplinkSt) : (s.setUplink u x).uplink u = x :=
  nth_setAt_same _ s.rx.up u x

/-- The side of the hub is told and an ACTIVE frame counted for the IRC measurement. -/
def sideTold (s : State) (u : Nat) (f : RxFrame) : State :=
  (s.setUplink u { s.uplink u with side := s.frameSide u f }).countIrcFrame

@[simp] theorem sideTold_uplink (s : State) (u : Nat) (f : RxFrame) :
    (s.sideTold u f).uplink u = { s.uplink u with side := s.frameSide u f } := uplink_setUplink_same s u _

theorem frameTaken_of_keyed {s : State} {u : Nat} {f : RxFrame} (b : Timebase) (stamp q : Nat) (hkey : s.keyed u = true)
    (hact : f.flag 0 = true) : s.frameTaken u f b stamp q = (s.sideTold u f).frameKeyed u f b stamp q := by
  have hv : ((s.when (s.keyed u) fun t => t.setUplink u { s.uplink u with side := t.frameSide u f }).when (f.flag 0)
      countIrcFrame) = s.sideTold u f := by rw [when, when, if_pos hkey, if_pos hact]; rfl
  have hkeyed : (s.sideTold u f).keyed u = true := by rw [keyed, sideTold_uplink]; exact hkey
  rw [frameTaken, hv, if_pos hkeyed]

/-! The fence (R261, R533). -/

/-- By how much the watch number of a frame is ahead of the cell's. -/
abbrev watchAhead (s : State) (f : RxFrame) : Nat := (f.watch + 65536 - s.get (F.TREE_CELL_STAT_W 0)) % 65536

theorem decide'_of_newer {s : State} {f : RxFrame} (u : Nat) (b : Timebase) (stamp q : Nat)
    (h : 1 ≤ s.watchAhead f ∧ s.watchAhead f ≤ 32767) :
    s.decide' u f b stamp q = (s.newerWatch u f.watch q).obey u f b stamp q := if_pos h

/-- A frame of the cell's own watch is obeyed while no frame of that watch has been. -/
theorem decide'_of_fresh {s : State} {f : RxFrame} (u : Nat) (b : Timebase) (stamp q : Nat) (h : s.watchAhead f = 0)
    (hk : s.rx.kSet = false) : s.decide' u f b stamp q = s.obey u f b stamp q := by
  rw [decide', if_neg (show ¬ (1 ≤ s.watchAhead f ∧ _) from fun hd => by omega), if_pos ⟨h, by simp [hk]⟩]

theorem decide'_of_older {s : State} {f : RxFrame} (u : Nat) (b : Timebase) (stamp q : Nat) (h : 32769 ≤ s.watchAhead f) :
    s.decide' u f b stamp q = s.bump (F.TREE_CELL_FENCE_FENCED 0) := by
  rw [decide', if_neg (show ¬ (1 ≤ s.watchAhead f ∧ s.watchAhead f ≤ 32767) from fun hd => by omega),
    if_neg (show ¬ (s.watchAhead f = 0 ∧ _) from fun hd => by omega), if_pos h]

theorem setWatch_watch (s : State) (u w : Nat) : (s.setWatch u w).get (F.TREE_CELL_STAT_W 0) = w % 65536 :=
  get_set_same s _ w (by decide)

/-- The watch number that was taken from a frame is not behind it. -/
theorem watchAhead_of_taken {s : State} {f : RxFrame} (h : s.get (F.TREE_CELL_STAT_W 0) = f.watch % 65536) :
    s.watchAhead f = 0 := by
  rw [watchAhead, h]
  omega

/-- A newer watch: W takes it; the uplinks and their frame counts stay. -/
theorem newerWatch_leaves (s : State) {u : Nat} (hu : u < 2) (w q : Nat) :
    (s.newerWatch u w q).get (F.TREE_CELL_STAT_W 0) = w % 65536 ∧
    (s.newerWatch u w q).reg (R.TREE_CELL_RX u) = s.reg (R.TREE_CELL_RX u) ∧
    (s.newerWatch u w q).rx.up = s.rx.up := by
  unfold newerWatch
  extract_lets keep s₁ r s₂ s₃
  have h₃ : Beside (s₂.event (Pg.TREE 0) 14) s₃ := Beside.bbWrite ..
  have h₄ : Beside (s₂.event (Pg.TREE 0) 14) (if s₃.get F.CLK_SRC_RCSEL = u then s₃ else s₃.set F.CLK_SRC_RCSEL u) :=
    .ite h₃ <| .set h₃
  have hne : R.TREE_CELL_RX u ≠ R.PG_EVT (Pg.TREE 0) := by simp only [R.TREE_CELL_RX, R.PG_EVT, Pg.TREE]; omega
  obtain ⟨htree, -, -, hstat, -⟩ := rxReg_apart hu
  refine ⟨?_, ?_, ?_⟩
  · rw [h₄.get (by decide), get_event_ne _ _ _ (by decide)]
    exact setWatch_watch s u w
  · rw [h₄.reg _ htree, reg_event_ne _ _ _ hne]
    exact reg_set_ne s w hstat
  · rw [h₄.rx, event_rx]
    rfl

/-- A frame that is obeyed, for a newer watch or as the first of the watch just taken: W is the frame's, the uplinks and their
frame counts are as before the decision. -/
theorem decide'_of_obeyed {s : State} {u : Nat} {f : RxFrame} (hu : u < 2) (b : Timebase) (stamp q : Nat)
    (h : (1 ≤ s.watchAhead f ∧ s.watchAhead f ≤ 32767) ∨
      (s.get (F.TREE_CELL_STAT_W 0) = f.watch % 65536 ∧ s.rx.kSet = false)) :
    ∃ v : State, s.decide' u f b stamp q = v.obey u f b stamp q ∧ v.get (F.TREE_CELL_STAT_W 0) = f.watch % 65536 ∧
      v.reg (R.TREE_CELL_RX u) = s.reg (R.TREE_CELL_RX u) ∧ v.rx.up = s.rx.up := by
  obtain hnew | ⟨hw, hk⟩ := h
  · exact ⟨_, decide'_of_newer u b stamp q hnew, s.newerWatch_leaves hu f.watch q⟩
  · exact ⟨s, decide'_of_fresh u b stamp q (watchAhead_of_taken hw) hk, hw, rfl, rfl⟩

end State

/-! A frame with neither timetable nor records. -/

/-- An ACTIVE frame whose timetable and management segment are empty. -/
structure RxFrame.Plain (f : RxFrame) : Prop where
  active : f.flag 0 = true
  timetable : f.tt = []
  skind : f.skind = 0
  body : f.body = []

/-- What a tag-valid frame on uplink `u` leaves before its watch number decides: VALID and FSA or FSB count it, W stays or, of a
first frame, takes its watch number. -/
structure Counts (s : State) (u : Nat) (f : RxFrame) (v : State) : Prop where
  valid : v.get (F.TREE_CELL_RX_VALID u) = (s.get (F.TREE_CELL_RX_VALID u) + 1) % 2 ^ (F.TREE_CELL_RX_VALID u).w
  obeyed : v.get (F.TREE_CELL_RX_OBEYED u) = s.get (F.TREE_CELL_RX_OBEYED u)
  fenced : v.get (F.TREE_CELL_FENCE_FENCED 0) = s.get (F.TREE_CELL_FENCE_FENCED 0)
  seen : (v.uplink u).seen = satAdd 8 (s.uplink u).seen 1
  events : v.rx.events = s.rx.events
  bitmap : v.rx.bitmap = s.rx.bitmap
  watch : v.get (F.TREE_CELL_STAT_W 0) = s.get (F.TREE_CELL_STAT_W 0) ∨
    ((s.uplink u).fresh = true ∧ v.get (F.TREE_CELL_STAT_W 0) = f.watch % 65536 ∧ v.rx.kSet = false)

theorem Counts.of_beside {s v w : State} {u : Nat} {f : RxFrame} (h : Counts s u f v) (g : Beside v w) (hu : u < 2) :
    Counts s u f w := by
  have hrx := (treeReg_uplink hu).2.2
  constructor
  · rw [g.get hrx, h.valid]
  · rw [g.get hrx, h.obeyed]
  · rw [g.get (by decide), h.fenced]
  · rw [g.uplink, h.seen]
  · rw [g.rx, h.events]
  · rw [g.rx, h.bitmap]
  · rw [g.get (by decide), g.rx]
    exact h.watch

/-- A first frame on uplink `u` gives W its watch number (R315). -/
theorem Counts.setWatch {s v : State} {u : Nat} {f : RxFrame} (h : Counts s u f v) (hu : u < 2)
    (hfresh : (s.uplink u).fresh = true) :
    Counts s u f { v.setWatch u f.watch with rx := { (v.setWatch u f.watch).rx with kSet := false } } := by
  obtain ⟨-, -, -, hstat, -⟩ := rxReg_apart hu
  exact {
    valid := (State.get_set_ne v _ hstat).trans h.valid
    obeyed := (State.get_set_ne v _ hstat).trans h.obeyed
    fenced := (State.get_set_ne v _ (by decide)).trans h.fenced
    seen := h.seen
    events := h.events
    bitmap := h.bitmap
    watch := .inr ⟨hfresh, v.setWatch_watch u f.watch, rfl⟩ }

theorem frameKeyed_of_plain (s : State) {u : Nat} {f : RxFrame} (hu : u < 2) (hf : f.Plain) (b : Timebase) (stamp q : Nat) :
    ∃ v : State, Counts s u f v ∧ s.frameKeyed u f b stamp q = v.decide' u f b stamp q := by
  unfold State.frameKeyed
  extract_lets x fresh s₁ s₂ d other _ _ s₃ s₄ s₅ s₆
  obtain ⟨-, -, -, hstat, -⟩ := rxReg_apart hu
  have hfence : R.TREE_CELL_FENCE 0 ≠ R.TREE_CELL_RX u := by simp only [R.TREE_CELL_FENCE, R.TREE_CELL_RX]; omega
  have h₂ : Counts s u f s₂ := {
    valid := State.get_set_same s₁ _ _ (by simp [F.TREE_CELL_RX_VALID])
    obeyed := State.get_set_other s₁ _ (.inr (.inr (Nat.le_refl 16)))
    fenced := State.get_set_ne s₁ _ hfence
    seen := congrArg UplinkSt.seen (State.uplink_setUplink_same s u _)
    events := rfl
    bitmap := rfl
    watch := .inl (State.get_set_ne s₁ _ hstat.symm) }
  have h₃ : Counts s u f s₃ := by
    unfold s₃
    split
    case isTrue hfirst =>
      have hfresh : fresh = true := by
        rw [Bool.and_eq_true] at hfirst
        exact hfirst.1
      exact h₂.setWatch hu hfresh
    case isFalse => exact h₂
  have h₄ : Beside s₃ s₄ := .when (.refl s₃) (Beside.correctTime ..)
  have h₅ : s₅ = s₄.decide' u f b stamp q := by simp [s₅, State.when, hf.active]
  have h₆ : s₆.segmentRx u f = s₅ := by
    have hrecs : recordsOf 64 f.body = [] := by rw [hf.body]; rfl
    rw [State.segmentRx, if_pos hf.skind, hrecs, List.foldl_nil]
    simp [s₆, hf.timetable]
  exact ⟨s₄, h₃.of_beside h₄ hu, h₆.trans h₅⟩

end Sys2Proof.Machine
end

section
/-! PROOFS. CYCLE_FRAME_RX (R260 to R263): a dropped frame, an obeyed one, a fenced one. -/

namespace Sys2Proof.Machine

open State

/-- What comes before the checks, and the side of the hub, change nothing that the frame counts. -/
theorem Counts.of_sideTold {s t v : State} {u : Nat} {f : RxFrame} (h : Counts (t.sideTold u f) u f v) (g : Beside s t)
    (hu : u < 2) : Counts s u f v := by
  have hrx := (treeReg_uplink hu).2.2
  have hget : ∀ c, (t.sideTold u f).get c = t.get c := fun _ => rfl
  have hseen : ((t.sideTold u f).uplink u).seen = (s.uplink u).seen := by rw [sideTold_uplink, g.uplink]
  have hfresh : ((t.sideTold u f).uplink u).fresh = (s.uplink u).fresh := by rw [sideTold_uplink, g.uplink]
  constructor
  · rw [h.valid, hget, g.get hrx]
  · rw [h.obeyed, hget, g.get hrx]
  · rw [h.fenced, hget, g.get (by decide)]
  · rw [h.seen, hseen]
  · exact h.events.trans (show t.rx.events = _ by rw [g.rx])
  · exact h.bitmap.trans (show t.rx.bitmap = _ by rw [g.rx])
  · rw [← hfresh, ← g.get (show treeReg (F.TREE_CELL_STAT_W 0).addr by decide), ← hget]
    exact h.watch

section
variable {s : State} {u : Nat} {bs : List Byte} {f : RxFrame} {b : Timebase} (stamp q : Nat)

/-- A readable frame with a wrong CRC is dropped at the third check. -/
theorem yields_cycleFrameRx_of_crc (hon : s.frameOn u = true) (hf : s.Readable u bs f b)
    (hcrc : f.crc ≠ crcBytes (f.hdr ++ f.tag)) :
    Yields (.cycleFrameRx u true bs stamp q) s (Drops u (F.TREE_CELL_ERR_CRC u) s) := by
  refine yields_cycleFrameRx_of_drop q hon rfl (by simp [F.TREE_CELL_ERR_CRC]) ?_
  rw [(hf.of_beside (beside_heard hon true stamp)).frameRx, if_pos hcrc]

/-- A frame whose tag does not verify is dropped at the fourth check, and the uplink remembers it for the rejoin. -/
theorem yields_cycleFrameRx_of_tag (hon : s.frameOn u = true) (hf : s.Readable u bs f b)
    (hcrc : f.crc = crcBytes (f.hdr ++ f.tag)) (hkey : s.keyed u = true) (hside : s.frameSide u f = none) :
    Yields (.cycleFrameRx u true bs stamp q) s fun t =>
      t.get (F.TREE_CELL_ERR_TAG u) = satAdd (F.TREE_CELL_ERR_TAG u).w (s.get (F.TREE_CELL_ERR_TAG u)) 1 ∧
      t.uplink u = { s.uplink u with tagBad := true } := by
  obtain ⟨-, -, hu, -⟩ := frameOn_iff.mp hon
  have hb := beside_heard hon true stamp
  refine yields_cycleFrameRx hon ?_
  rw [(hf.of_beside hb).frameRx, if_neg (not_not.mpr hcrc),
    if_pos ⟨(keyed_of_beside hb).trans hkey, by rw [frameSide_of_beside hb, hside]; rfl⟩]
  have hdrop : Drops u (F.TREE_CELL_ERR_TAG u) s _ :=
    (drops_frameDrop (s.heard u true stamp) rfl (by simp [F.TREE_CELL_ERR_TAG])).of_beside hb hu rfl
  refine ⟨((Beside.settle _).get (treeReg_uplink hu).1).trans hdrop.count, ?_⟩
  rw [(Beside.settle _).uplink, uplink_setUplink_same, hb.uplink]

/-- A plain frame that passes every check under a group key: what holds of the decision by its watch number holds of the
command's answer. -/
theorem yields_cycleFrameRx_of_plain {P : State → Prop} (hon : s.frameOn u = true) (hf : s.Readable u bs f b)
    (hcrc : f.crc = crcBytes (f.hdr ++ f.tag)) (hkey : s.keyed u = true) (hside : (s.frameSide u f).isSome = true)
    (hplain : f.Plain) (hP : ∀ v, Counts s u f v → P (v.decide' u f b stamp q).settle) :
    Yields (.cycleFrameRx u true bs stamp q) s P := by
  obtain ⟨-, -, hu, -⟩ := frameOn_iff.mp hon
  have hb := beside_heard hon true stamp
  have htag : ¬ ((s.heard u true stamp).keyed u = true ∧ ((s.heard u true stamp).frameSide u f).isNone = true) := by
    rw [frameSide_of_beside hb, Option.isNone_iff_eq_none]
    exact fun h => by simp [h.2] at hside
  refine yields_cycleFrameRx hon ?_
  rw [(hf.of_beside hb).frameRx, if_neg (not_not.mpr hcrc), if_neg htag,
    frameTaken_of_keyed b stamp q ((keyed_of_beside hb).trans hkey) hplain.active]
  obtain ⟨v, hv, hdec⟩ := frameKeyed_of_plain ((s.heard u true stamp).sideTold u f) hu hplain b stamp q
  rw [hdec]
  exact hP v (hv.of_sideTold hb hu)

end

/-- A frame of a newer watch is obeyed: W and K are its own, the state is obeying, both counters count it. -/
theorem Counts.newer_obeyed {s v : State} {u : Nat} {f : RxFrame} (h : Counts s u f v) (hu : u < 2) (b : Timebase)
    (stamp q : Nat) (hnew : 1 ≤ s.watchAhead f ∧ s.watchAhead f ≤ 32767) :
    ∃ t : State, (v.decide' u f b stamp q).settle = t ∧ t.get (F.TREE_CELL_STAT_W 0) = f.watch % 65536 ∧
      t.reg (R.TREE_CELL_K_LO 0) = BitVec.ofNat 32 f.cycle ∧ t.get (F.TREE_CELL_STAT_STATE 0) = 1 ∧
      t.get (F.TREE_CELL_STAT_LANE 0) = u ∧ t.rx.obeying = true ∧ (t.uplink u).seen = satAdd 8 (s.uplink u).seen 1 ∧
      t.get (F.TREE_CELL_RX_VALID u) = (s.get (F.TREE_CELL_RX_VALID u) + 1) % 2 ^ (F.TREE_CELL_RX_VALID u).w ∧
      t.get (F.TREE_CELL_RX_OBEYED u) = (s.get (F.TREE_CELL_RX_OBEYED u) + 1) % 2 ^ (F.TREE_CELL_RX_OBEYED u).w := by
  have hdue : (1 ≤ v.watchAhead f ∧ v.watchAhead f ≤ 32767) ∨
      (v.get (F.TREE_CELL_STAT_W 0) = f.watch % 65536 ∧ v.rx.kSet = false) := by
    refine h.watch.imp (fun hsame => ?_) And.right
    rw [watchAhead, hsame]
    exact hnew
  obtain ⟨w, hdec, hwatch, hreg, hup⟩ := decide'_of_obeyed hu b stamp q hdue
  have ho := obeys_obey w hu f b stamp q
  have hset := Beside.settle (w.obey u f b stamp q)
  have hrx := (treeReg_uplink hu).2.2
  have hget : ∀ g, g.addr = R.TREE_CELL_RX u → w.get g = v.get g := fun g hg => by
    rw [State.get, hg, hreg, State.get, hg]
  refine ⟨_, by rw [hdec], ?_, ?_, ?_, ?_, ?_, ?_, ?_, ?_⟩
  · rw [hset.get (by decide), ho.watch, hwatch]
  · rw [hset.reg _ (by decide), ho.cycle]
  · rw [hset.get (by decide), ho.state]
  · rw [hset.get (by decide), ho.lane]
  · rw [hset.rx, ho.obeying]
  · rw [hset.uplink, State.uplink, ho.up, hup, ← h.seen, State.uplink]
  · rw [hset.get hrx, ho.valid, hget _ rfl, h.valid]
  · rw [hset.get hrx, ho.counted, hget _ rfl, h.obeyed]

/-- A frame of an older watch is fenced: it is counted, W, the events and the bitmap entries stay. -/
theorem Counts.older_fenced {s v : State} {u : Nat} {f : RxFrame} (h : Counts s u f v) (b : Timebase) (stamp q : Nat)
    (hfresh : (s.uplink u).fresh = false) (hold : 32769 ≤ s.watchAhead f) :
    ∃ t : State, (v.decide' u f b stamp q).settle = t ∧
      t.get (F.TREE_CELL_FENCE_FENCED 0) = satAdd (F.TREE_CELL_FENCE_FENCED 0).w (s.get (F.TREE_CELL_FENCE_FENCED 0)) 1 ∧
      t.get (F.TREE_CELL_STAT_W 0) = s.get (F.TREE_CELL_STAT_W 0) ∧ t.rx.events = s.rx.events ∧
      t.rx.bitmap = s.rx.bitmap := by
  have hwatch : v.get (F.TREE_CELL_STAT_W 0) = s.get (F.TREE_CELL_STAT_W 0) :=
    h.watch.resolve_right fun htaken => by simp [hfresh] at htaken
  have hset := Beside.settle (v.bump (F.TREE_CELL_FENCE_FENCED 0))
  refine ⟨_, by rw [decide'_of_older u b stamp q (by rw [watchAhead, hwatch]; exact hold)], ?_, ?_, ?_, ?_⟩
  · rw [hset.get (by decide), get_bump_same _ _ _ (by decide), h.fenced]
  · rw [hset.get (by decide), get_bump_other _ _ (by decide), hwatch]
  · rw [hset.rx, bump_rx, h.events]
  · rw [hset.rx, bump_rx, h.bitmap]

/-- Settles O20: every check of R260 has its equation of `frameRx`, and what comes before the checks is beside the frame path
(`beside_heard`). A plain frame that passes them is counted (`frameKeyed_of_plain`) and by its watch number obeyed
(`Counts.newer_obeyed`) or fenced (`Counts.older_fenced`). -/
theorem cycleFrames : Obligations.CycleFrames := by
  unfold Obligations.CycleFrames
  refine ⟨fun s u co bs st q hon hcode => ?_, fun s u bs st q hon hlen hparse => ?_,
    fun s u bs st q f b hon hlen hparse hbase hfind hport hcrc => ?_,
    fun s u bs st q f b hon hlen hparse hbase hfind hport hcrc hkey hside => ?_,
    fun s u bs st q f b hon hlen hparse hbase hfind hport hcrc hkey hside hact htt hsk hbody hlo hhi => ?_,
    fun s u bs st q f b hon hlen hparse hbase hfind hport hcrc hkey hside hact htt hsk hbody hfresh hold => ?_⟩
  · obtain ⟨t, ht, hd⟩ := yields_cycleFrameRx_of_drop q hon rfl (by simp [F.TREE_CELL_ERR_CODE])
      (frameRx_of_code st q hcode)
    exact ⟨t, ht, hd.count, hd.event, hd.flag, hd.rx⟩
  · obtain ⟨t, ht, hd⟩ := yields_cycleFrameRx_of_drop q hon rfl (by simp [F.TREE_CELL_ERR_FORMAT])
      (frameRx_of_format st q hlen hparse)
    exact ⟨t, ht, hd.count, hd.event, hd.rx⟩
  · have hf : s.Readable u bs f b := ⟨hlen, hparse, hbase, hfind, hport⟩
    obtain ⟨t, ht, hd⟩ := yields_cycleFrameRx_of_crc st q hon hf hcrc
    exact ⟨t, ht, hd.count, hd.rx⟩
  · have hf : s.Readable u bs f b := ⟨hlen, hparse, hbase, hfind, hport⟩
    obtain ⟨t, ht, hcount, hup⟩ := yields_cycleFrameRx_of_tag st q hon hf hcrc hkey hside
    exact ⟨t, ht, hcount, by rw [hup], by rw [hup]⟩
  · have hf : s.Readable u bs f b := ⟨hlen, hparse, hbase, hfind, hport⟩
    obtain ⟨-, -, hu, -⟩ := frameOn_iff.mp hon
    refine yields_cycleFrameRx_of_plain st q hon hf hcrc hkey hside ⟨hact, htt, hsk, hbody⟩ fun v hv => ?_
    obtain ⟨_, rfl, hshows⟩ := hv.newer_obeyed hu b st q ⟨hlo, hhi⟩
    exact hshows
  · have hf : s.Readable u bs f b := ⟨hlen, hparse, hbase, hfind, hport⟩
    refine yields_cycleFrameRx_of_plain st q hon hf hcrc hkey hside ⟨hact, htt, hsk, hbody⟩ fun v hv => ?_
    obtain ⟨_, rfl, hshows⟩ := hv.older_fenced b st q hfresh hold
    exact hshows

end Sys2Proof.Machine
end

section
/-! PROOFS. Time that stands still (R225): with the time unit off no command brings the time to the instant of what it does. The
end of a trim pulse (R256) and the build of a report payload (R284) then happen at a time before their instant. -/

namespace Sys2Proof.Machine

namespace State

/-- With the time unit off time does not count. -/
theorem reach_of_off {s : State} (t : Int) (h : s.runs Pg.TIME = false) : s.reach t = s := by simp [reach, h]

/-! Requests to the gate block, the black box and rounded numbers leave the time. -/

/-- The time is the same after either branch. -/
theorem now_ite {c : Prop} [Decidable c] {s u v : State} (hu : u.now = s.now) (hv : v.now = s.now) :
    (if c then u else v).now = s.now := iteInduction (motive := fun w : State => w.now = s.now) (fun _ => hu) fun _ => hv

theorem edge_now (s : State) (st : CellState) (t q : Nat) : (s.edge st t q).now = s.now := now_ite (event_now ..) rfl

theorem blockEdge_now (s : State) (t q : Nat) : (s.blockEdge t q).now = s.now := now_ite rfl <| edge_now ..

/-- Whether a request is dropped, discarded or makes its edge, the time stays. -/
theorem request_now (s : State) (st : CellState) (t q : Nat) (own : Option Nat) : (s.request st t q own).now = s.now :=
  now_ite rfl <| now_ite rfl <| now_ite rfl <| now_ite (blockEdge_now ..) <| now_ite rfl <| now_ite rfl <|
    now_ite rfl <| now_ite rfl <| edge_now ..

theorem trimOver_now (s : State) (t : Nat) : (s.trimOver t).now = s.now := by
  unfold trimOver
  split
  · exact now_ite (request_now ..) rfl
  · rfl

theorem carrierDue_now (s : State) (t : Nat) : (s.carrierDue t).now = s.now := by
  unfold carrierDue
  split
  · exact now_ite (request_now ..) rfl
  · rfl

@[simp] theorem rounded_now (s : State) (x : DWord) : (s.rounded x).2.now = s.now := by
  unfold rounded
  split <;> rfl

@[simp] theorem degrees_now (s : State) (c : Nat) : (s.degrees c).2.now = s.now := by
  unfold degrees
  split
  · exact rounded_now ..
  · rfl

theorem windowBytes_now (s : State) : s.windowBytes.2.now = s.now := by
  unfold windowBytes
  extract_lets v i t wstart milli
  split
  · rfl
  · simp only [milli, rounded_now]

theorem tempBytes_now (s : State) : s.tempBytes.2.now = s.now := by
  unfold tempBytes
  dsimp only
  split <;> simp only [degrees_now]

theorem buildPayload_now (s : State) : s.buildPayload.now = s.now := by
  have hbb (u : State) (sub : Nat) (l : List Nat) : (u.bbWrite 0x11 sub l).now = u.now :=
    (frame_bbWrite u 0x11 sub l).1 .now (by decide)
  unfold buildPayload
  dsimp only
  split
  · rw [hbb]
    exact (tempBytes_now _).trans (windowBytes_now s)
  · exact (tempBytes_now _).trans (windowBytes_now s)

end State

open State

theorem exec_trimEnd (s : State) : exec .trimEnd s = execTrimEnd s := rfl
theorem exec_payloadBuild (s : State) : exec .payloadBuild s = execPayloadBuild s := rfl
theorem exec_pageEnable (path : Path) (page : Nat) (on : Bool) (s : State) :
    exec (.pageEnable path page on) s = execPageEnable path page on s := rfl

/-- PAGE_ENABLE on an open path answers what the write of EN leaves, settled. -/
theorem exec_pageEnable_of_open {path : Path} {page : Nat} {on : Bool} {s t : State} (hopen : s.pathOpen path = true)
    (ht : (s.writeCmd path 4 (F.PG_CTRL_EN page).addr
      (put (F.PG_CTRL_EN page) (b2n on) (s.viewWord (pathIdx path) (F.PG_CTRL_EN page).addr))).settle = t) :
    exec (.pageEnable path page on) s = .next t := by
  rw [exec_pageEnable, execPageEnable, fieldRow, writeRow, act_eq_settle _ hopen]
  exact congrArg Host.Outcome.next ht

/-- With the time unit off a trim pulse ends at the time that stands. -/
theorem yields_trimEnd_of_off {s : State} {x q : Nat} {st : CellState} (hlive : s.gateLive = true)
    (htrim : s.gate.trimEnd = some (x, st, q)) (hoff : s.runs Pg.TIME = false) :
    Yields .trimEnd s fun t => t.now = s.now := by
  refine yields_of_act (f := fun s => (s.reach x).trimOver x) ?_ hlive ?_
  · rw [exec_trimEnd, execTrimEnd, htrim]
  · rw [settle_now, trimOver_now, reach_of_off _ hoff]

/-- With the time unit off a payload is built at the time that stands. -/
theorem yields_payloadBuild_of_off {s : State} {n x : Nat} (hpath : s.pathOn 0 = true ∨ s.pathOn 1 = true)
    (hnext : nextBy s.payloadAt s.now 4 s.roundFrom = some (n, x)) (hoff : s.runs Pg.TIME = false) :
    Yields .payloadBuild s fun t => t.now = s.now := by
  refine yields_of_act (b := s.pathOn 0 || s.pathOn 1)
    (f := fun s => ((s.reach x).carrierDue x).buildPayload) ?_ (by simpa using hpath) ?_
  · rw [exec_payloadBuild, execPayloadBuild, hnext]
  · rw [settle_now, buildPayload_now, carrierDue_now, reach_of_off _ hoff]

/-! The end of a trim pulse. -/

/-- A running half-bridge cell in a trim pulse that ends 9 units ahead. -/
def trimmingCell : State :=
  { role := .cell, phase := .running, pins := { nRst := true }
    regs := [(R.PG_CTRL Pg.TIME, 1), (R.PG_STAT Pg.TIME, 1)]
    gate := { state := .pos, legA := .upper, blocked := false, trimEnd := some (9, .bypass, 0), hist := [(0, .pos)] }
    safe := { db := true } }

/-- That cell with its time unit off. -/
def stoppedTrimmingCell : State :=
  { trimmingCell.set (F.PG_CTRL_EN Pg.TIME) 0 with clk := { gating := [Pg.TIME] } }

/-- PAGE_ENABLE with EN = 0 leads from the one to the other: the state of the refutation is one that a command leaves. -/
theorem exec_pageEnable_trimmingCell :
    exec (.pageEnable (.remote false false) Pg.TIME false) trimmingCell = .next stoppedTrimmingCell :=
  exec_pageEnable_of_open (by decide) (by decide +kernel)

/-- Refutes O24: its clause for TRIM_END has the time at or after the end of the pulse, but does not ask that the time unit
runs. In `stoppedTrimmingCell` the pulse ends 9 units ahead, and TRIM_END leaves the time at 0 (R225). -/
theorem not_gateEvents : ¬ Obligations.GateEvents := by
  intro h
  obtain ⟨-, -, -, -, -, -, -, -, -, htrim, -⟩ := h
  have ended := htrim stoppedTrimmingCell 9 .bypass 0 (by decide) rfl
  have still := yields_trimEnd_of_off (s := stoppedTrimmingCell) (x := 9) (st := .bypass) (q := 0) (by decide) rfl (by decide)
  obtain ⟨t, ⟨-, hreached⟩, hnow⟩ := ended.both still
  rw [hnow] at hreached
  exact absurd hreached (by decide)

/-! The build of a report payload. -/

/-- A running cell whose uplink 0 holds report slot 0, at time 0. -/
def reportingCell : State :=
  { role := .cell, phase := .running, pins := { nRst := true }
    regs := [(R.PG_CTRL Pg.TIME, 1), (R.PG_STAT Pg.TIME, 1), (R.PG_CTRL (Pg.TREE 0), 1), (R.PG_STAT (Pg.TREE 0), 1),
             (R.TREE_CELL_SLOT 0, 0x100)]
    gate := { hist := [(0, .block)] } }

/-- That cell with its time unit off. -/
def stoppedReportingCell : State :=
  { reportingCell.set (F.PG_CTRL_EN Pg.TIME) 0 with clk := { gating := [Pg.TIME] } }

/-- PAGE_ENABLE with EN = 0 leads from the one to the other. -/
theorem exec_pageEnable_reportingCell :
    exec (.pageEnable (.remote false false) Pg.TIME false) reportingCell = .next stoppedReportingCell :=
  exec_pageEnable_of_open (by decide) (by decide +kernel)

/-- The payload of round 1, the first that is still ahead of it, is built 1 µs before the round begins. -/
theorem nextPayload_stoppedReportingCell :
    nextBy stoppedReportingCell.payloadAt stoppedReportingCell.now 4 stoppedReportingCell.roundFrom =
      some (1, slotAt 2 1 0 - 1000 * unitsPerNs) := by decide +kernel

/-- Refutes O23: its clause for PAYLOAD_BUILD has the time at or after the instant of the build, but does not ask that the time
unit runs. In `stoppedReportingCell` the payload of round 1 is built while the time stays 0 (R225). -/
theorem not_cellCycle : ¬ Obligations.CellCycle := by
  intro h
  obtain ⟨-, -, -, hbuild, -⟩ := h
  have hpath : stoppedReportingCell.pathOn 0 = true ∨ stoppedReportingCell.pathOn 1 = true := .inl (by decide)
  have built := hbuild stoppedReportingCell _ _ hpath nextPayload_stoppedReportingCell
  have still := yields_payloadBuild_of_off hpath nextPayload_stoppedReportingCell (by decide)
  obtain ⟨t, ⟨-, -, -, -, -, hreached⟩, hnow⟩ := built.both still
  rw [hnow] at hreached
  exact absurd hreached (by decide)

end Sys2Proof.Machine
end

section
/-! PROOFS. A ranging burst while time stands still (R225): the burst that answers frame K_R leaves T_turn after the frame came
(R309), and with the time unit off no command brings the time to that instant. -/

namespace Sys2Proof.Machine

open State

/-- A ranging burst that leaves keeps the time. -/
theorem State.sendRanging_now (s : State) (u : Nat) (o : Offer) (t : Nat) : (s.sendRanging u o t).now = s.now := rfl

theorem exec_rangingBurstTx (u : Nat) (s : State) : exec (.rangingBurstTx u) s = execRangingBurstTx u s := rfl

/-- With the time unit off a ranging burst leaves at the time that stands. -/
theorem yields_rangingBurstTx_of_off {s : State} {u f : Nat} {o : Offer} (hpath : s.pathOn u = true)
    (hlaser : s.laserOn u = true) (hboard : (s.uplink u).boarding = true) (hoffer : (s.uplink u).offer = some o)
    (hsof : o.soF = some f) (hoff : s.runs Pg.TIME = false) :
    Yields (.rangingBurstTx u) s fun t => t.now = s.now := by
  refine yields_of_act (b := s.pathOn u && s.laserOn u && (s.uplink u).boarding)
    (f := fun s => ((s.reach (f + o.turn * unitsPer64 : Nat)).carrierDue (f + o.turn * unitsPer64)).sendRanging u o
      (f + o.turn * unitsPer64)) ?_ (by rw [hpath, hlaser, hboard]; rfl) ?_
  · rw [exec_rangingBurstTx, execRangingBurstTx, hoffer]
    simp only [hsof]
  · rw [settle_now, sendRanging_now, carrierDue_now, reach_of_off _ hoff]

/-- An offer of berth 2 with the T_turn of 10_tree_admission.md's example, 4,736.59375 ns; frame K_R came at time 4096. -/
def turningOffer : Offer := { berth := 2, enrol := true, cycleR := 4, turn := 303142, soF := some 4096 }

/-- A running cell at time 4096, its laser allowed on uplink 0, where it holds that offer while BOARDING is set. -/
def rangingCell : State :=
  { role := .cell, phase := .running, pins := { nRst := true }, now := 4096
    regs := [(R.PG_CTRL Pg.TIME, 1), (R.PG_STAT Pg.TIME, 1), (R.PG_CTRL (Pg.LANE 0), 1), (R.PG_STAT (Pg.LANE 0), 1),
             (R.LANE_PWR 0, 0), (R.LANE_STAT 0, 6), (R.PG_CTRL (Pg.TREE 0), 1), (R.PG_STAT (Pg.TREE 0), 1)]
    gate := { hist := [(0, .block)] }
    rx := { up := [{ boarding := true, berth := some 2, offer := some turningOffer }, {}] } }

/-- That cell with its time unit off. -/
def stoppedRangingCell : State :=
  { rangingCell.set (F.PG_CTRL_EN Pg.TIME) 0 with clk := { gating := [Pg.TIME] } }

/-- PAGE_ENABLE with EN = 0 leads from the one to the other: the state of the refutation is one that a command leaves. -/
theorem exec_pageEnable_rangingCell :
    exec (.pageEnable (.remote false false) Pg.TIME false) rangingCell = .next stoppedRangingCell :=
  exec_pageEnable_of_open (by decide) (by decide +kernel)

/-- Refutes O22: its clause for RANGING_BURST_TX has the time at or after the launch, T_turn past the arrival of frame K_R, but
does not ask that the time unit runs. In `stoppedRangingCell` the launch is T_turn ahead, and the burst leaves while the
time stays 4096 (R225). -/
theorem not_cellAdmission : ¬ Obligations.CellAdmission := by
  intro h
  obtain ⟨-, -, -, -, -, -, -, -, hranging, -⟩ := h
  have hpath : stoppedRangingCell.pathOn 0 = true := by decide
  have hlaser : stoppedRangingCell.laserOn 0 = true := by decide
  have answered := hranging stoppedRangingCell 0 turningOffer 4096 hpath hlaser rfl rfl rfl
  have still := yields_rangingBurstTx_of_off (f := 4096) hpath hlaser rfl rfl rfl (by decide)
  obtain ⟨t, ⟨-, -, -, hreached⟩, hnow⟩ := answered.both still
  rw [hnow] at hreached
  exact absurd hreached (by decide)

end Sys2Proof.Machine
end

section
/-! PROOFS. The carrier of a cell (R355 to R357) and block forcing (R479, R519, R687): a sample leaves the gate block alone, but
the hardwired logic behind the command enters block where a forcing is in effect. In a settled state DB has then fallen
already, and no carrier runs. -/

namespace Sys2Proof.Machine

namespace State

/-! What comes before a sample: at a cell the time unit alone changes. -/

/-- `t` differs from `s` at most in the time, in what counts with it, and in the time unit. -/
abbrev TimeFrame (s t : State) : Prop := Frame [.elapsed, .now, .recd, .sup, .time] [R.PG_EVT Pg.TIME] s t

theorem timeFrame_upd (s : State) (now elapsed : Nat) (sup : SupSt) (time : TimeSt) :
    TimeFrame s { s with now := now, elapsed := elapsed, sup := sup, time := time } := by
  refine Frame.mono (ps := [.elapsed, .now, .sup, .time]) (rs := []) ?_ (by simp) (by simp)
  exact frame_of_parts rfl rfl fun p hp => by cases p <;> simp_all [Part.same, byte]

theorem holdByTwin_of_cell {s : State} (hc : s.isCell = true) : s.holdByTwin = s := if_pos hc

theorem timeFrame_takeSource {s : State} (hc : s.isCell = true) : TimeFrame s s.takeSource := by
  refine Frame.ite (Frame.refl _ _ s) ?_
  rw [holdByTwin_of_cell (by exact hc)]
  exact timeFrame_upd ..

theorem timeFrame_applyWaitingJump (s : State) : TimeFrame s s.applyWaitingJump := by
  unfold applyWaitingJump
  split
  · exact (timeFrame_upd ..).seq ((frame_event _ Pg.TIME 10).mono (by simp) (by simp))
  · exact Frame.refl _ _ s

theorem timeFrame_takeIncrement (s : State) : TimeFrame s s.takeIncrement := by
  unfold takeIncrement
  split
  · exact timeFrame_upd ..
  · exact Frame.refl _ _ s

theorem timeFrame_applyWaiting {s : State} (hc : s.isCell = true) : TimeFrame s s.applyWaiting := by
  have hcorr (u : State) : TimeFrame u u.corrected := timeFrame_upd ..
  rw [applyWaiting_eq]
  exact (((timeFrame_takeSource hc).seq (timeFrame_applyWaitingJump _)).seq (hcorr _)).seq (timeFrame_takeIncrement _)

theorem timeFrame_reach {s : State} (hc : s.isCell = true) (t : Int) : TimeFrame s (s.reach t) :=
  Frame.ite ((timeFrame_applyWaiting hc).seq (timeFrame_upd ..)) (Frame.refl _ _ s)

/-! What a sample changes. -/

theorem frame_duty (s : State) : Frame [.freeCtr] [] s s.duty.2.2 := by
  unfold duty
  dsimp only
  split
  · exact frame_of_parts rfl rfl fun p hp => by cases p <;> simp_all [Part.same, byte, free]
  · exact Frame.refl _ _ s

/-- The registers that a sample writes. -/
def sampleRegs : List Nat := [R.MOD_CELL_CNT, R.PG_EVT Pg.MOD, R.MOD_CELL_STAT]

theorem frame_carrierSample (s : State) (t : Nat) (peak : Bool) :
    Frame [.cmod, .freeCtr, .recd] sampleRegs s (s.carrierSample t peak) := by
  have hclamp (u : State) : Frame [.recd] [R.MOD_CELL_CNT, R.PG_EVT Pg.MOD] u
      ((u.bump F.MOD_CELL_CNT_CLAMP).event Pg.MOD 22) :=
    ((frame_bump u _ 1).trans (frame_event _ _ _)).mono (by simp) (by decide)
  have hcmod (u : State) (x : CellModSt) : Frame [.cmod] [] u { u with cmod := x } :=
    frame_of_parts rfl rfl fun p hp => by cases p <;> simp_all [Part.same, byte]
  exact ((frame_duty s).trans ((frame_when _ (hclamp _)).trans ((frame_set _ F.MOD_CELL_STAT_DUTY _).trans
    (hcmod _ _)))).mono (by simp) (by decide)

/-- The state that a sample of the carrier leaves before the hardwired logic, with no edge left of the sample before. -/
def sampled (s : State) (t : Nat) (peak : Bool) : State := (s.reach t).carrierSample t peak

theorem frame_sampled {s : State} (hc : s.isCell = true) (t : Nat) (peak : Bool) :
    Frame [.cmod, .elapsed, .freeCtr, .now, .recd, .sup, .time] (R.PG_EVT Pg.TIME :: sampleRegs) s (s.sampled t peak) :=
  ((timeFrame_reach hc t).trans (frame_carrierSample _ t peak)).mono (by simp) (by simp)

theorem carrierDue_of_none {s : State} (t : Nat) (h : s.cmod.edge = none) : s.carrierDue t = s := by
  simp only [carrierDue, h]

/-- The carrier goes on while the time unit counts up to the sample. -/
theorem reach_carrierOn {s : State} (hc : s.isCell = true) (t : Int) : (s.reach t).carrierOn = s.carrierOn := by
  have hf := timeFrame_reach hc t
  have hrole : (s.reach t).role = s.role := hf.1 .role (by decide)
  have hphase : (s.reach t).phase = s.phase := hf.1 .phase (by decide)
  have hact : (s.reach t).act = s.act := hf.1 .act (by decide)
  have hsafe : (s.reach t).safe = s.safe := hf.1 .safe (by decide)
  have hgate : (s.reach t).gate = s.gate := hf.1 .gate (by decide)
  have hctrl : (s.reach t).reg (R.PG_CTRL Pg.MOD) = s.reg (R.PG_CTRL Pg.MOD) := hf.2 _ (by decide)
  have hstat : (s.reach t).reg (R.PG_STAT Pg.MOD) = s.reg (R.PG_STAT Pg.MOD) := hf.2 _ (by decide)
  have hruns : (s.reach t).runs Pg.MOD = s.runs Pg.MOD := by
    simp only [runs, State.is, State.get, F.PG_STAT_HELD, F.PG_STAT_RUN, F.PG_CTRL_EN, hctrl, hstat, hrole]
  simp only [carrierOn, gateLive, alive, isCell, hruns, cellInter, active, actReg, gateHeld, hrole, hphase, hact, hsafe, hgate]

/-- A carrier runs only at a deblocked cell with neither a latched fault nor the permanent bypass. -/
theorem carrierOn_iff {s : State} : s.carrierOn = true ↔
    s.gateLive = true ∧ s.runs Pg.MOD = true ∧ s.cellInter = true ∧ s.safe.db = true ∧
      s.gate.blocked = false ∧ s.gate.latch = 0 ∧ s.gate.pbyp = false := by
  simp [carrierOn, gateHeld, and_assoc]

theorem role_of_carrierOn {s : State} (h : s.carrierOn = true) : s.role = .cell := by
  have hlive := (carrierOn_iff.mp h).1
  simp only [gateLive, isCell, Bool.and_eq_true, beq_iff_eq] at hlive
  exact hlive.2

theorem isCell_of_carrierOn {s : State} (h : s.carrierOn = true) : s.isCell = true := by
  rw [isCell, role_of_carrierOn h]
  rfl

/-! Block forcing and the hardwired logic (R479, R519). -/

/-- A sample and what comes before it leave block forcing as it was. -/
theorem sampled_blkForced {s : State} (hc : s.isCell = true) (t : Nat) (peak : Bool) :
    (s.sampled t peak).blkForced = s.blkForced := by
  have hf := frame_sampled hc t peak
  have hsafe : (s.sampled t peak).safe = s.safe := hf.1 .safe (by decide)
  have hget {f : Fld} (h : f.addr ∉ R.PG_EVT Pg.TIME :: sampleRegs) : (s.sampled t peak).get f = s.get f := by
    rw [State.get, hf.2 _ h, State.get]
  have hlane (n : Nat) (hn : n < 2) : (s.sampled t peak).uplinkTest n = s.uplinkTest n := by
    obtain rfl | rfl : n = 0 ∨ n = 1 := by omega
    all_goals
      rw [uplinkTest, State.is, State.is, State.is, hget (by decide), hget (by decide), hget (by decide)]
      rfl
  have hplact : (s.sampled t peak).is F.SAFE_CCFG_PLACT = s.is F.SAFE_CCFG_PLACT := by
    rw [State.is, hget (by decide), State.is]
  rw [blkForced, blkSeenNow, hsafe, hlane 0 (by decide), hlane 1 (by decide), hplact]
  rfl

/-- The history follows the state in force and changes no level. -/
theorem recordState_levels (s : State) :
    s.recordState.gate.state = s.gate.state ∧ s.recordState.gate.legA = s.gate.legA := by
  unfold recordState
  split
  · split <;> exact ⟨rfl, rfl⟩
  · exact ⟨rfl, rfl⟩

/-- A cell under block forcing is in block after every command. -/
theorem settle_state_of_blkForced {s : State} (hc : s.role = .cell) (h : s.blkForced = true) :
    s.settle.gate.state = .block := by
  rw [settle_cell hc, (recordState_levels _).1, forceDb_eq]
  change s.forceGates.gate.state = .block
  simp only [forceGates, h, if_true]
  split
  · rfl
  · split <;> rfl

/-- Where neither the fault logic, the permanent bypass nor block forcing acts, the levels stay. -/
theorem settle_levels_of_unforced {s : State} (hc : s.role = .cell) (hpbyp : s.gate.pbyp = false) (hlatch : s.gate.latch = 0)
    (h : s.blkForced = false) : s.settle.gate.state = s.gate.state ∧ s.settle.gate.legA = s.gate.legA := by
  have hgates : s.forceGates = s := by simp [forceGates, hpbyp, hlatch, h]
  rw [settle_cell hc, hgates, forceDb_eq]
  exact recordState_levels _

/-- In a settled state of a deblocked cell no block forcing is in effect. -/
theorem Settled.blkForced_eq_false {s : State} (hs : s.Settled) (hc : s.role = .cell) (hdb : s.safe.db = true) :
    s.blkForced = false := by
  by_contra hforced
  have hblk : s.forceGates.blkForced = true := by
    rw [forceGates_eq]
    exact eq_true_of_ne_false hforced
  have hfalls : s.settle.safe.db = false := by
    rw [settle_cell hc, recordState_eq]
    change s.forceGates.forceDb.safe.db = false
    rw [forceDb, if_pos (.inr (.inr hblk))]
  rw [hs, hdb] at hfalls
  exact absurd hfalls (by decide)

end State

open State

theorem exec_carrierSample (peak : Bool) (s : State) : exec (.carrierSample peak) s = execCarrierSample peak s := rfl

section
variable {s : State} {peak : Bool} {e x : Nat} {P : State → Prop}

/-- CARRIER_SAMPLE of a carrier that runs answers what the sample leaves, settled. -/
theorem yields_carrierSample (hon : s.carrierOn = true) (hepoch : s.cmod.epoch = some (e, x)) (hedge : s.cmod.edge = none)
    (hP : P (s.sampled (s.carrierInstant x peak) peak).settle) : Yields (.carrierSample peak) s P := by
  have hc := isCell_of_carrierOn hon
  have hnone (t : Int) : (s.reach t).cmod.edge = none := by rw [(timeFrame_reach hc t).1 .cmod (by decide), hedge]
  refine yields_of_act (f := fun s =>
    let t := s.carrierInstant x peak
    let s := (s.reach t).carrierDue t
    if s.carrierOn then s.carrierSample t peak else s) ?_ hon ?_
  · rw [exec_carrierSample, execCarrierSample, hepoch]
  · dsimp only
    rw [carrierDue_of_none _ (hnone _), reach_carrierOn hc, if_pos hon]
    exact hP

/-- Under block forcing CARRIER_SAMPLE leaves the cell in block. -/
theorem yields_carrierSample_of_blkForced (hon : s.carrierOn = true) (hepoch : s.cmod.epoch = some (e, x))
    (hedge : s.cmod.edge = none) (hforced : s.blkForced = true) :
    Yields (.carrierSample peak) s fun t => t.gate.state = .block := by
  have hc := isCell_of_carrierOn hon
  refine yields_carrierSample hon hepoch hedge (settle_state_of_blkForced ?_ ?_)
  · rw [(frame_sampled hc _ peak).1 .role (by decide), role_of_carrierOn hon]
  · rw [sampled_blkForced hc, hforced]

/-- In a settled state the clause of O31 for CARRIER_SAMPLE holds: the sample places the next edge and leaves the levels. -/
theorem yields_carrierSample_of_settled (hs : s.Settled) (hon : s.carrierOn = true) (hepoch : s.cmod.epoch = some (e, x))
    (hedge : s.cmod.edge = none) :
    Yields (.carrierSample peak) s fun t => t.cmod.edge.isSome = true ∧
      t.cmod.sampled = some (s.carrierInstant x peak) ∧ t.gate.state = s.gate.state ∧ t.gate.legA = s.gate.legA := by
  obtain ⟨-, -, -, hdb, -, hlatch, hpbyp⟩ := carrierOn_iff.mp hon
  have hc := isCell_of_carrierOn hon
  have hrole := role_of_carrierOn hon
  refine yields_carrierSample hon hepoch hedge ?_
  have hf := frame_sampled hc (s.carrierInstant x peak) peak
  have hgate : (s.sampled (s.carrierInstant x peak) peak).gate = s.gate := hf.1 .gate (by decide)
  have hlevels := settle_levels_of_unforced (hf.1 .role (by decide) |>.trans hrole) (hgate ▸ hpbyp) (hgate ▸ hlatch)
    ((sampled_blkForced hc _ peak).trans (hs.blkForced_eq_false hrole hdb))
  rw [hgate] at hlevels
  rw [(frame_settle _).1 .cmod (by decide)]
  exact ⟨rfl, rfl, hlevels⟩

end

/-- A deblocked cell in bypass with a carrier that runs from its epoch on, while a block detection stands: a state that is not
settled. -/
def forcedCarrierCell : State :=
  { role := .cell, phase := .running, pins := { nRst := true }
    regs := [(R.PG_CTRL Pg.MOD, 1), (R.PG_STAT Pg.MOD, 1)], act := [(R.MOD_CELL_CFG, 1)]
    gate := { state := .bypass, legA := .lower, blocked := false, hist := [(0, .bypass)] }
    safe := { db := true, blkSeen := true }, cmod := { epoch := some (0, 0) } }

/-- Refutes O31: its clause for CARRIER_SAMPLE has the cell keep its state, but does not ask that the state before is settled,
nor that no block forcing is in effect. In `forcedCarrierCell` one is in effect and DB has not fallen yet: the carrier runs,
and the hardwired logic behind the sample enters block. The hardwired logic behind the command before would have had DB fall
(R519), so that this state is none of those the part comes to; of settled states the clause holds
(`yields_carrierSample_of_settled`). -/
theorem not_modulationCommands : ¬ Obligations.ModulationCommands := by
  intro h
  obtain ⟨-, -, -, -, -, hsample⟩ := h
  have hon : forcedCarrierCell.carrierOn = true := by decide
  have kept := hsample forcedCarrierCell false 0 0 hon rfl rfl
  have forced := yields_carrierSample_of_blkForced (peak := false) (e := 0) (x := 0) hon rfl rfl (by decide)
  obtain ⟨t, ⟨-, -, hstate, -⟩, hblock⟩ := kept.both forced
  exact absurd (hstate.symm.trans hblock) (by decide)

end Sys2Proof.Machine
end

section
/-! PROOFS. The state-memory arbiter (20_memory_arbiter_errors.md, R600 to R608) while the MEM page is held (R70). The model's
`runs` counts HELD against the MEM page too, although log 132 lets a held infrastructure page other than the scheduler's go
on; ARBITER_GRANT then grants nothing. -/

namespace Sys2Proof.Machine

theorem exec_arbiterGrant (waiting : List ArbReq) (s : State) :
    exec (.arbiterGrant waiting) s = execArbiterGrant waiting s := rfl

/-- Nothing is granted while the MEM page is held. -/
theorem exec_arbiterGrant_of_held {s : State} (waiting : List ArbReq) (h : s.is (F.PG_STAT_HELD Pg.MEM) = true) :
    exec (.arbiterGrant waiting) s = .next s := by
  rw [exec_arbiterGrant]
  exact act_eq_self_of_not _ (by simp [State.runs_eq_false_of_held h])

/-- While the MEM page is held, whatever ARBITER_GRANT yields holds of the state before it. -/
theorem of_yields_arbiterGrant_of_held {s : State} {waiting : List ArbReq} {P : State → Prop}
    (h : s.is (F.PG_STAT_HELD Pg.MEM) = true) (hy : Yields (.arbiterGrant waiting) s P) : P s := by
  obtain ⟨t, ht, hP⟩ := hy
  rw [exec_arbiterGrant_of_held waiting h] at ht
  exact Host.Outcome.next.inj ht ▸ hP

/-- A running cell with nothing written to its memory, whose MEM page is enabled and asked to hold. -/
def holdingMemCell : State :=
  { role := .cell, phase := .running, pins := { nRst := true }
    regs := [(R.PG_CTRL Pg.MEM, 5)]
    gate := { hist := [(0, .block)] } }

/-- That cell with its MEM page held. -/
def heldMemCell : State := holdingMemCell.set (F.PG_STAT_HELD Pg.MEM) 1

/-- PAGE_HELD leads from the one to the other: the state of the refutation is one that a command leaves. -/
theorem exec_pageHeld_holdingMemCell : exec (.pageHeld Pg.MEM) holdingMemCell = .next heldMemCell := by
  have hc : (holdingMemCell.alive && present holdingMemCell.role Pg.MEM && holdingMemCell.is (F.PG_CTRL_HOLD Pg.MEM)
      && holdingMemCell.runs Pg.MEM) = true := by decide
  have ht : heldMemCell.meridiansStop.resumeHeld.settle = heldMemCell := by decide +kernel
  rw [exec_pageHeld, execPageHeld, act, if_pos hc]
  exact congrArg Host.Outcome.next ht

/-- A store of one byte of the supervisor's data requester, outside the engine region. -/
def supervisorStore : ArbReq := ⟨1, 9, 0x20180040, 0, [1], false, false⟩

/-- Refutes O38: its clause for a granted store asks that the part is alive, not that its MEM page runs. In `heldMemCell` every
hypothesis of the clause holds of `supervisorStore`, the only request waiting, and ARBITER_GRANT leaves the state as it is:
the byte still reads 0, where the clause has it read 1. The clauses for a protected region and for a load lack the same
hypothesis. -/
theorem not_arbiterAndLocks : ¬ Obligations.ArbiterAndLocks := by
  intro h
  obtain ⟨hstore, -⟩ := h
  have granted := hstore heldMemCell supervisorStore (by decide) (by decide) (by decide) rfl rfl (by decide) rfl
    (by decide) (by decide) (by decide)
  obtain ⟨hbytes, -, -⟩ := of_yields_arbiterGrant_of_held (by decide) granted
  exact absurd hbytes (by decide)

end Sys2Proof.Machine
end

section
/-! PROOFS. The fault logic and the queue of a cell (R471 step 4): a fault discards the queued requests for bypass and insertion
and leaves those for block, so that a queued BLOCK_CELL of the cell stays among its events. -/

namespace Sys2Proof.Machine

open State

theorem exec_faultAssert (input : FaultInput) (s : State) : exec (.faultAssert input) s = execFaultAssert input s := rfl

/-- A running cell whose source 2 is enabled, with a BLOCK_CELL for it queued. -/
def blockQueuedCell : State :=
  { role := .cell, phase := .running, pins := { nRst := true }, regs := [(R.GATE_CFG, 0x400)]
    gate := { hist := [(0, .block)] }
    rx := { events := [{ target := 0, seq := 1, instant := 9, queuedAt := 0, act := .blockCell }] } }

/-- Source 2 latches there, and the request for block stays. -/
theorem yields_faultAssert_blockQueuedCell :
    Yields (.faultAssert ⟨2, 1001⟩) blockQueuedCell fun t => t.eventsFor 0 ≠ [] :=
  yields_of_act (by rw [exec_faultAssert, execFaultAssert]) (by decide +kernel) (by decide +kernel)

/-- Refutes O25: its first clause has no event of the cell left in the queue after a fault. In `blockQueuedCell` a queued
BLOCK_CELL stays, for R471 discards the requests for bypass and insertion alone. -/
theorem not_faultLogic : ¬ Obligations.FaultLogic := by
  intro h
  obtain ⟨hassert, -⟩ := h
  have latched := hassert blockQueuedCell 2 1001 (by decide) (by decide) (by decide) (by decide)
  obtain ⟨t, ⟨-, -, -, -, -, -, -, hnone, -⟩, hsome⟩ := latched.both yields_faultAssert_blockQueuedCell
  exact hsome hnone

end Sys2Proof.Machine
end

section
/-! PROOFS. The statements about completion (O55 to O58) take clauses of the chapters' statements over word for word, those among
them that leave out a condition of the spec: the states that refute the one refute the other. -/

namespace Sys2Proof.Machine

open State

/-- Refutes O57: its clause for PAYLOAD_BUILD has the time at or after the instant of the build, but does not ask that the time
unit runs. In `stoppedReportingCell` the payload of round 1 is built while the time stays 0 (R225), as under O23. -/
theorem not_completesTree : ¬ Obligations.CompletesTree := by
  intro h
  obtain ⟨-, -, -, -, -, -, -, -, -, -, -, -, -, -, -, -, -, -, -, -, -, -, -, -, -, hbuild, -⟩ := h
  have hpath : stoppedReportingCell.pathOn 0 = true ∨ stoppedReportingCell.pathOn 1 = true := .inl (by decide)
  have built := hbuild stoppedReportingCell _ _ hpath nextPayload_stoppedReportingCell
  have still := yields_payloadBuild_of_off hpath nextPayload_stoppedReportingCell (by decide)
  obtain ⟨t, ⟨-, -, -, -, -, hreached⟩, hnow⟩ := Yields.both built still
  rw [hnow] at hreached
  exact absurd hreached (by decide)

/-- Refutes O55: its clause for RAMP_STEP does not ask that the CLK page runs. In `heldRampingHub` a ramp is in progress and
the step leaves the divider as it is (R70), as under O6. -/
theorem not_completesSystem : ¬ Obligations.CompletesSystem := by
  intro h
  obtain ⟨-, -, -, -, -, -, -, -, -, -, -, -, -, -, -, -, -, -, -, -, -, -, hstep, -⟩ := h
  have lowered := hstep heldRampingHub 3 (by decide) (by decide) (by decide) (by decide)
  have kept : Yields (.rampStep 3) heldRampingHub fun t => t = heldRampingHub :=
    ⟨_, exec_rampStep_of_held 3 (by decide), rfl⟩
  obtain ⟨t, ⟨hcur, -⟩, rfl⟩ := Yields.both lowered kept
  exact absurd hcur (by decide)

/-- Refutes O56: its clause for the seal sequence asks only that the part is not in the phase `held`. In `readingPart` ROLE is
still being read, and SEAL_OUT stays low (R39), as under O12. -/
theorem not_completesLanesAndTime : ¬ Obligations.CompletesLanesAndTime := by
  intro h
  obtain ⟨-, -, -, -, -, -, hsequence, -⟩ := h
  have driven := hsequence readingPart true (by decide) (by decide)
  have kept : exec (.sealSequenceChange true) readingPart = .next readingPart :=
    exec_sealSequenceChange_of_not_alive true (by decide)
  have hpin : readingPart.pins.sealOut = true :=
    congrArg (fun t => t.pins.sealOut) (Host.Outcome.next.inj (kept.symm.trans driven))
  exact absurd hpin (by decide)

/-- Refutes O58: its clause for a granted store asks that the part is alive, not that its MEM page runs. In `heldMemCell`
ARBITER_GRANT leaves the state as it is, and the byte still reads 0 (R70), as under O38. -/
theorem not_completesTwins : ¬ Obligations.CompletesTwins := by
  intro h
  obtain ⟨-, -, -, -, -, -, -, -, -, -, -, -, -, -, -, -, -, -, -, -, -, -, -, -, -, -, -, hstore, -⟩ := h
  have granted := hstore heldMemCell supervisorStore (by decide) (by decide) (by decide) rfl rfl (by decide) rfl
    (by decide) (by decide) (by decide)
  obtain ⟨hbytes, -, -⟩ := of_yields_arbiterGrant_of_held (by decide) granted
  exact absurd hbytes (by decide)

end Sys2Proof.Machine
end

section
/-! PROOFS. What a station port drops or hides (22_station_interface.md): a PAUSE frame counts with those of a foreign address
(R650) and does not reach the receive ring, and a posted frame that lies on a secret scalar in OTP leaves as zeros (R168). -/

namespace Sys2Proof.Machine

open State

theorem exec_rxToRing (frame : EthRx) (s : State) : exec (.rxToRing frame) s = execRxToRing frame s := rfl

theorem exec_txPost (path : Path) (data : Word) (s : State) : exec (.txPost path data) s = execTxPost path data s := rfl

/-- A running hub of side 0 whose station link L6 is up. -/
def linkedHub : State :=
  { role := .hub, phase := .running, pins := { nRst := true }
    regs := [(R.CLK_SRC, 2), (R.PG_CTRL Pg.TIME, 1), (R.PG_STAT Pg.TIME, 1), (R.PG_CTRL Pg.STN, 1), (R.PG_STAT Pg.STN, 1),
             (R.STN_STAT, 1), (R.PG_CTRL (Pg.LANE 6), 1), (R.PG_STAT (Pg.LANE 6), 1), (R.LANE_PWR 6, 0)] }

/-! A PAUSE frame. -/

/-- A PAUSE frame to the broadcast address, on L6. -/
def pauseFrame : EthRx := ⟨0, 0xFFFFFFFFFFFF, 9, 0x8808, List.replicate 46 0, true, true, none, 0⟩

/-- It is dropped, and the head of the receive ring stays. -/
theorem yields_rxToRing_pauseFrame : Yields (.rxToRing pauseFrame) linkedHub fun t => t.get F.STN_RXPTR_HEAD = 0 := by
  have hkind : linkedHub.stnKind pauseFrame = .other := by decide +kernel
  refine yields_of_act (b := linkedHub.stnOn) (f := fun s => s.stnRx pauseFrame fun s => s.toRing pauseFrame) ?_
    (by decide +kernel) (by decide +kernel)
  rw [exec_rxToRing, execRxToRing, hkind]

/-- Refutes O41: its clause for the receive ring does not leave out PAUSE frames, which a port drops whatever their address.
In `linkedHub` every hypothesis holds of `pauseFrame`, and the head of the ring stays at 0, where the clause has it be 1. -/
theorem not_stationFrames : ¬ Obligations.StationFrames := by
  intro h
  obtain ⟨-, -, -, -, -, -, -, -, -, hring, -⟩ := h
  have stored := hring linkedHub pauseFrame (by decide +kernel) (by decide +kernel) (by decide +kernel) (by decide +kernel)
    rfl (by decide +kernel) (by decide +kernel)
  obtain ⟨t, ⟨hhead, -⟩, hstays⟩ := stored.both yields_rxToRing_pauseFrame
  rw [hstays] at hhead
  exact absurd hhead (by decide +kernel)

/-! A frame on a secret scalar. -/

/-- That hub with 7 in the first byte of the identity scalar, and a transmit descriptor 0 of an untimed frame of one byte that
lies on it. -/
def scalarHub : State :=
  { linkedHub with mem := [(0x201D0001, 0x01), (0x201D0003, 0x50), (0x201D0004, 1), (0x50000100, 7)] }

theorem txDesc_scalarHub : scalarHub.txDesc 0 = (0x50000100, 1, 0) := by decide +kernel

/-- The frame leaves with a zero in place of the byte. -/
theorem yields_txPost_scalarHub :
    Yields (.txPost .supervisor 0) scalarHub fun t => (t.stn.sent.map fun e => e.2.take 1) = [[0]] :=
  yields_of_act (by rw [exec_txPost, execTxPost, writeRow]) (by decide +kernel) (by decide +kernel)

/-- What the clauses of O42 and O59 for STN_TXPOST say of the frame sent fails there: the byte in memory is not zero. -/
theorem not_yields_txPost_scalarHub {P Q : State → Prop} :
    ¬ Yields (.txPost .supervisor 0) scalarHub fun t => P t ∧ Q t ∧
      (t.stn.sent.all fun e => e.2.take ((scalarHub.txDesc 0).2.1 % 2048)
        == scalarHub.bytes (scalarHub.txDesc 0).1 ((scalarHub.txDesc 0).2.1 % 2048)) = true := by
  intro h
  obtain ⟨t, ⟨-, -, hall⟩, hsent⟩ := h.both yields_txPost_scalarHub
  have hbyte : scalarHub.bytes 0x50000100 1 = [7] := by decide +kernel
  have hseven : ∀ e ∈ t.stn.sent, e.2.take 1 = [7] := by
    simpa [txDesc_scalarHub, hbyte] using hall
  have hzero : [0] ∈ t.stn.sent.map fun e => e.2.take 1 := by simp [hsent]
  obtain ⟨e, he, h0⟩ := List.mem_map.mp hzero
  exact absurd ((hseven e he).symm.trans h0) (by decide)

/-- Refutes O42: its clause for an untimed descriptor has the bytes of memory leave, and does not leave out the secret scalars,
which no requester reads. In `scalarHub` every hypothesis holds, and the frame leaves with a zero for the scalar's byte. -/
theorem not_stationTransactions : ¬ Obligations.StationTransactions := by
  intro h
  obtain ⟨-, -, -, hpost, -⟩ := h
  exact not_yields_txPost_scalarHub <| hpost scalarHub .supervisor 0 (by decide +kernel) (by decide +kernel) (by decide) rfl rfl
    (by decide +kernel) (by decide +kernel) (by decide +kernel) (by decide +kernel)

/-- Refutes O59, which takes the same clause over. -/
theorem not_completesStation : ¬ Obligations.CompletesStation := by
  intro h
  obtain ⟨-, -, -, -, -, -, -, -, -, -, -, -, -, -, -, -, -, -, -, -, -, hpost, -⟩ := h
  exact not_yields_txPost_scalarHub <| hpost scalarHub .supervisor 0 (by decide +kernel) (by decide +kernel) (by decide) rfl rfl
    (by decide +kernel) (by decide +kernel) (by decide +kernel) (by decide +kernel)

end Sys2Proof.Machine
end

section
/-! PROOFS. The step, and the error log through resets (R129, R615). -/

namespace Sys2Proof.Machine

open State

/-- Settles O2, by the two branches of the step. -/
theorem stepTakesFront : Obligations.StepTakesFront :=
  ⟨fun s c rest hpending => by rw [step, hpending], fun _ hpending => step_of_idle hpending⟩

/-! A reset other than power-on. -/

namespace State

/-- What R615 asks of a reset other than power-on: the entries, ERR_CNT and ERR_OVF stay, and nothing is pending, handled,
signalled or the cause of an NMI. -/
def ErrLogKept (s t : State) : Prop :=
  t.err = { log := s.err.log } ∧ t.reg R.ERR_CNT = s.reg R.ERR_CNT ∧ t.reg R.ERR_OVF = s.reg R.ERR_OVF ∧
  t.reg (R.PG_EVT Pg.ERR) = 0 ∧ t.sup.nmiCause = []

/-- ERR_CNT and ERR_OVF have one reset value in every role. -/
theorem resetWord_errCounts (r : Role) : resetWord r R.ERR_CNT = 0 ∧ resetWord r R.ERR_OVF = 0 := by
  cases r <;> decide

/-- The counters of the error log read after a reset what they read before it, whatever role either state has. -/
theorem reg_resetKept_errCounts (s : State) (phase : Phase) (role : Role) :
    (s.resetKept phase role).reg R.ERR_CNT = s.reg R.ERR_CNT ∧ (s.resetKept phase role).reg R.ERR_OVF = s.reg R.ERR_OVF := by
  obtain ⟨hcnt, hovf⟩ := resetWord_errCounts role
  obtain ⟨hcnt', hovf'⟩ := resetWord_errCounts s.role
  have kept {a : Nat} (h : keptReg a = true) (hr : resetWord role a = 0) (hr' : resetWord s.role a = 0) :
      (s.resetKept phase role).reg a = s.reg a := by
    simp [reg, resetKept, kvFind_kvKeep, h, hr, hr']
  exact ⟨kept (by decide) hcnt hcnt', kept (by decide) hovf hovf'⟩

/-- The events of a page start afresh. -/
theorem reg_resetKept_evt (s : State) (phase : Phase) (role : Role) :
    (s.resetKept phase role).reg (R.PG_EVT Pg.ERR) = 0 := by
  have hcleared : keptReg (R.PG_EVT Pg.ERR) = false := by decide
  have hreset : resetWord role (R.PG_EVT Pg.ERR) = 0 := by cases role <;> decide
  simp [reg, resetKept, kvFind_kvKeep, hcleared, hreset]

theorem deviceReset_errLogKept (s : State) (n : Nat) (phase : Phase) (role : Role) :
    ErrLogKept s (s.deviceReset n phase role) := by
  have noted {a : Nat} (hc : a ≠ R.SYS_RST_CAUSE) (hd : a ≠ R.DBG_STAT) :
      (s.deviceReset n phase role).reg a = (s.resetKept phase role).reg a := by
    have hcause : Frame [] [R.SYS_RST_CAUSE] ((s.resetKept phase role).set F.DBG_STAT_UNLOCKS (s.get F.DBG_STAT_UNLOCKS))
        (s.deviceReset n phase role) := by
      rw [deviceReset_eq]
      exact ((frame_set _ ⟨R.SYS_RST_CAUSE, n, 1⟩ 1).seq (frame_set _ F.SYS_RST_CAUSE_LAST n)).seq
        (frame_bump _ F.SYS_RST_CAUSE_COUNT 1)
    exact (hcause.2 a (by simpa using hc)).trans ((frame_set _ F.DBG_STAT_UNLOCKS _).2 a (mt List.mem_singleton.mp hd))
  obtain ⟨hcnt, hovf⟩ := reg_resetKept_errCounts s phase role
  exact ⟨rfl, (noted (by decide) (by decide)).trans hcnt, (noted (by decide) (by decide)).trans hovf,
    (noted (by decide) (by decide)).trans (reg_resetKept_evt s phase role), rfl⟩

/-! The boot ROM that follows a reset of a running part. -/

theorem reject_sup (s : State) (i why : Nat) : (s.reject i why).sup = s.sup := by
  unfold reject
  split <;> rfl

theorem readHeader_sup (s : State) (i : Nat) : (s.readHeader i).sup = s.sup := by
  unfold readHeader
  split <;> exact reject_sup ..

theorem noSlot_sup (s : State) : s.noSlot.sup = s.sup := by
  unfold noSlot
  split <;> rfl

theorem chooseSource_sup (s : State) : s.chooseSource.sup = s.sup := by
  unfold chooseSource
  dsimp only
  split
  · split
    · exact (reject_sup _ 1 15).trans (reject_sup s 0 15)
    · exact (reject_sup _ 1 15).trans (reject_sup s 0 15)
  · split
    · rw [noSlot_sup, reject_sup, reject_sup, reject_sup, reject_sup]
    · rw [set_sup, readHeader_sup, readHeader_sup, reject_sup, reject_sup]

theorem identity_sup (s : State) (n : Nat) : (s.identity n).sup = s.sup := by
  have hevent (u : State) (bit : Nat) : (u.event Pg.SEC bit).sup = u.sup := by
    unfold event
    split <;> rfl
  unfold identity
  split
  · split <;> rfl
  · dsimp only
    split
    · exact hevent _ _
    · split
      · exact hevent _ _
      · rw [set_sup, program_eq, program_eq]
        rfl

theorem cellUp_sup (s : State) : s.cellUp.sup = s.sup := by simp [cellUp]

/-- The ROM starts with no cause of an NMI. -/
theorem romStart_nmiCause (s : State) (n : Nat) : (s.romStart n).sup.nmiCause = [] := by
  unfold romStart
  rw [chooseSource_sup, apply_ite State.sup, cellUp_sup, set_sup, ite_self, identity_sup]

theorem restart_errLogKept (s : State) (n : Nat) : ErrLogKept s (s.restart n) := by
  obtain ⟨k, hk⟩ := restart_eq s n
  obtain ⟨herr, hcnt, hovf, hevt, -⟩ := deviceReset_errLogKept s n .rom s.role
  have hrom := romFrame_romStart ((s.deviceReset n .rom s.role).showRole k) 0
  have kept {a : Nat} (ha : a ∉ romRegs) (hr : a ≠ R.SYS_ROLE) : (s.restart n).reg a = (s.deviceReset n .rom s.role).reg a := by
    rw [hk, hrom.reg ha]
    exact ((frame_set _ F.SYS_ROLE_STRAP k).seq (frame_set _ F.SYS_ROLE_ROLE k)).2 a (mt List.mem_singleton.mp hr)
  refine ⟨?_, (kept (by decide) (by decide)).trans hcnt, (kept (by decide) (by decide)).trans hovf,
    (kept (by decide) (by decide)).trans hevt, ?_⟩
  · rw [hk, hrom.err]
    exact herr
  · rw [hk]
    exact romStart_nmiCause ..

/-- The hardwired logic touches none of it. -/
theorem ErrLogKept.settle {s t : State} (h : ErrLogKept s t) : ErrLogKept s t.settle := by
  unfold ErrLogKept
  rw [settle_err, settle_sup, settle_reg t (by decide), settle_reg t (by decide), settle_reg t (by decide)]
  exact h

/-! A power-on reset. -/

/-- A power-on reset clears the log and its counters. -/
theorem powerOn_err (s : State) (pins : PinSt) :
    (s.powerOn pins).settle.err = {} ∧ (s.powerOn pins).settle.reg R.ERR_CNT = 0 ∧ (s.powerOn pins).settle.reg R.ERR_OVF = 0 := by
  rw [settle_err, settle_reg _ (by decide), settle_reg _ (by decide)]
  exact ⟨rfl, rfl, rfl⟩

end State

theorem exec_nrstAssert (s : State) : exec .nrstAssert s = execNrstAssert s := rfl
theorem exec_vddioBelow1v2 (s : State) : exec .vddioBelow1v2 s = execVddioBelow1v2 s := rfl

/-- Settles O48: every reset but power-on is a `deviceReset`, which keeps what R615 names, with the boot ROM behind it where the
part was running. -/
theorem resetKeepsErrorLog : Obligations.ResetKeepsErrorLog := by
  unfold Obligations.ResetKeepsErrorLog
  refine ⟨fun s hpin hphase => ?_, fun s hruns hstage => ?_, fun s hon => ?_, fun s hon => ?_, fun s => ?_, fun s => ?_⟩
  · refine yields_of_act (exec_nrstAssert s) hpin ?_
    dsimp only
    rw [if_neg hphase]
    exact (deviceReset_errLogKept { s with pins := { s.pins with nRst := false } } 1 .held .none).settle
  · exact yields_of_act (exec_wdtSecondStage s) (by simp [hruns, State.is, hstage]) (restart_errLogKept s 2).settle
  · exact yields_of_act (exec_softwareReset _ s) (by simp [hon]) (restart_errLogKept s 5).settle
  · exact yields_of_act (exec_clockFailureReset s) hon (restart_errLogKept s 4).settle
  · exact yields_of_act (exec_powerOnReset s) rfl (powerOn_err s _)
  · exact yields_of_act (exec_vddioBelow1v2 s) rfl (powerOn_err s _)

end Sys2Proof.Machine
end

section
/-! PROOFS. Registers of W and RW fields without guard (R75, R77): no write of one is refused. A register all of whose fields are W
stores nothing, so that a write of it is its own rule (`hook`) on the word written. -/

namespace Sys2Proof.Machine

/-- Are all fields of a register W or RW and without guard, in rising order within the word? -/
def RegDesc.plain (d : RegDesc) : Bool :=
  d.fields.all (fun f => (f.kind == .w || f.kind == .rw) && !f.gd && decide (f.lo + f.w ≤ 32)) && !d.fields.isEmpty
    && decide (d.fields.Pairwise fun f g => f.lo + f.w ≤ g.lo)

/-- Are they all W? -/
def RegDesc.commands (d : RegDesc) : Bool := d.plain && d.fields.all fun f => f.kind == .w

/-- The fields `l` of `v` with those of `data` in their place. -/
def putFields (data v : Word) (l : List FieldDesc) : Word :=
  l.foldl (fun v f => setBits v f.lo f.w (getBits data f.lo f.w)) v

/-- Fields above a field leave it alone. -/
theorem getBits_putFields_of_above (data : Word) {lo w : Nat} (l : List FieldDesc) (v : Word) (h : ∀ g ∈ l, lo + w ≤ g.lo) :
    getBits (putFields data v l) lo w = getBits v lo w := by
  induction l generalizing v with
  | nil => rfl
  | cons g l ih =>
    obtain ⟨hg, hl⟩ := List.forall_mem_cons.mp h
    exact (ih _ hl).trans (getBits_setBits_disjoint _ _ (.inl hg))

/-- A field put in reads back. -/
theorem getBits_putFields (data : Word) {l : List FieldDesc} (v : Word) (hl : l.Pairwise fun f g => f.lo + f.w ≤ g.lo)
    (hw : ∀ f ∈ l, f.lo + f.w ≤ 32) {f : FieldDesc} (hf : f ∈ l) :
    getBits (putFields data v l) f.lo f.w = getBits data f.lo f.w := by
  induction l generalizing v with
  | nil => cases hf
  | cons g l ih =>
    obtain ⟨habove, hl⟩ := List.pairwise_cons.mp hl
    obtain ⟨hg, hw⟩ := List.forall_mem_cons.mp hw
    rcases List.mem_cons.mp hf with rfl | hf
    · refine (getBits_putFields_of_above data l _ habove).trans ?_
      rw [getBits_setBits_same _ _ _ _ hg, getBits, Nat.mod_mod]
    · exact ih _ hl hw hf

namespace State

/-- Merging such fields puts them in and meets no refusal. -/
theorem merge_plain (s : State) {a : Nat} (data : Word) (opened : Bool) {l : List FieldDesc} (v : Word)
    (hw : ∀ f ∈ l, (f.kind = .w ∨ f.kind = .rw) ∧ f.gd = false) (hfix : ∀ f ∈ l, s.fixedField a f.lo = false)
    (htopo : a ≠ R.SYS_TOPO) (hboard : a ≠ R.BERTH_BOARD) (old : Word) :
    l.foldl (s.mergeField a old data opened) { v := v } = { v := putFields data v l } := by
  induction l generalizing v with
  | nil => rfl
  | cons g l ih =>
    obtain ⟨⟨hkind, hgd⟩, hw⟩ := List.forall_mem_cons.mp hw
    obtain ⟨hfixed, hfix⟩ := List.forall_mem_cons.mp hfix
    have hput : s.mergeField a old data opened { v := v } g = { v := setBits v g.lo g.w (getBits data g.lo g.w) } := by
      rcases hkind with hkind | hkind <;> simp [mergeField, hfixed, hkind, hgd, valueIgnored, htopo, hboard]
    rw [List.foldl_cons, hput]
    exact ih _ hw hfix

/-- A command register stores nothing: the write is its own rule. -/
theorem writeActs_commands {s : State} {d : RegDesc} {w : Wr} (data : Word) (hd : d.commands = true)
    (hopen : s.gated (w.a / 0x400) = false) (hboard : w.a ≠ R.BERTH_BOARD) : s.writeActs d w data = s.hook w := by
  have hall : ∀ f ∈ d.fields, f.kind = .w := by
    obtain ⟨-, hall⟩ := Bool.and_eq_true_iff.mp hd
    exact fun f hf => eq_of_beq (List.all_eq_true.mp hall f hf)
  have hmask : maskOf d (fun f => f.kind != .ro && f.kind != .w) = 0 := by
    rw [maskOf, List.filter_eq_nil_iff.mpr fun f hf => by simp [hall f hf]]
    rfl
  simp [writeActs, hopen, hmask, hboard, State.when]

/-- Where a register of its page is served at its own address, in every role that has it, with no bit hidden or fixed. -/
def plainReg (s : State) (a : Nat) (d : RegDesc) : Prop :=
  decoded (a / 0x400) = true ∧ present s.role (a / 0x400) = true ∧ s.descAt a = some d ∧ s.home a = a ∧ s.hiddenBits a = 0 ∧
  (∀ lo, s.fixedField a lo = false) ∧ a % 4 = 0 ∧ 0x40 ≤ a % 0x400 ∧ a < 0x10000 ∧ a ≠ R.BERTH_BOARD ∧ a ≠ R.BERTH_CMD ∧
  a ≠ R.SYS_TOPO

/-- The code that the effect `u` of a write answers, and the state it leaves: ERR of the page shows a refusal. -/
def ruled (u : State) (pg : Nat) : Nat × State :=
  if u.resp.code ≠ Code.ok then (u.resp.code, u.set (F.PG_STAT_ERR pg) 1) else (Code.ok, u)

/-- A write of such a register that it takes with the effect `u`. -/
theorem writeCmd_plain {s u : State} {path : Path} {a : Nat} {d : RegDesc} {data : Word} (hreg : s.plainReg a d)
    (hd : d.plain = true)
    (hacts : ∀ w : Wr, w.path = path → w.a = a → (∀ f ∈ d.fields, w.get f.lo f.w = getBits data f.lo f.w) →
      (s.answering ⟨Code.ok, []⟩).writeActs d w data = u) :
    s.writeCmd path 4 a data = (u.ruled (a / 0x400)).2.answerAccess path a (u.ruled (a / 0x400)).1 [] true := by
  obtain ⟨hdec, hpres, hdesc, hhome, hhidden, hfix, halign, hfield, hlow, hboard, hberth, htopo⟩ := hreg
  have hparts := hd
  simp only [RegDesc.plain, Bool.and_eq_true, Bool.or_eq_true, List.all_eq_true, Bool.not_eq_true', beq_iff_eq, decide_eq_true_eq,
    List.isEmpty_eq_false_iff] at hparts
  obtain ⟨⟨hall, hne⟩, hpair⟩ := hparts
  have hgated : s.gatedWord a = false := by
    refine gatedWord_of_writable hdesc ?_
    obtain ⟨f, hf⟩ := List.exists_mem_of_ne_nil _ hne
    refine List.all_eq_false.mpr ⟨f, hf, ?_⟩
    rcases (hall f hf).1.1 with h | h <;> simp [h]
  have hacc : s.accessTest a 4 1 false = Code.ok := by
    have hend : ¬ 0x3FC < a % 0x400 := by omega
    simp [accessTest, hdec, hpres, halign, hend]
  have hwrite : s.writeReg path a data = u.ruled (a / 0x400) := by
    have hdata : data &&& ~~~ BitVec.ofNat 32 0 = data := BitVec.and_allOnes
    have hmerge (old : Word) (opened : Bool) := merge_plain s data opened old
      (fun f hf => (hall f hf).1) (fun f _ => hfix f.lo) htopo hboard old
    simp only [answering] at hacts
    simp only [writeReg, hhome, hdesc, hhidden, hdata, hmerge, hberth, false_and, if_false, refusals, refusalCode, State.when,
      Bool.false_eq_true]
    rw [hacts ⟨path, a, s.viewReg (pathIdx path) a false, putFields data (s.viewReg (pathIdx path) a false) d.fields, _, false⟩
      rfl rfl fun f hf => getBits_putFields data _ hpair (fun g hg => (hall g hg).2) hf]
    rfl
  have hat : s.writeAt path a data = u.ruled (a / 0x400) := by simp [writeAt, Nat.not_lt.mpr hfield, hgated, hwrite]
  have hmap : ¬ 0x10000 ≤ a ∧ ¬ 0x40000000 ≤ a := by omega
  simp [writeCmd, hmap, hacc, hat]

/-- A write of a command register that its rule answers with `u`. -/
theorem writeCmd_commands {s u : State} {path : Path} {a : Nat} {d : RegDesc} {data : Word} (hreg : s.plainReg a d)
    (hd : d.commands = true) (hopen : s.gated (a / 0x400) = false)
    (hhook : ∀ w : Wr, w.path = path → w.a = a → (∀ f ∈ d.fields, w.get f.lo f.w = getBits data f.lo f.w) →
      (s.answering ⟨Code.ok, []⟩).hook w = u) :
    s.writeCmd path 4 a data = (u.ruled (a / 0x400)).2.answerAccess path a (u.ruled (a / 0x400)).1 [] true := by
  have hboard : a ≠ R.BERTH_BOARD := by
    obtain ⟨-, -, -, -, -, -, -, -, -, hboard, -⟩ := hreg
    exact hboard
  refine writeCmd_plain hreg (Bool.and_eq_true_iff.mp hd).1 fun w hpath ha hfields => ?_
  rw [writeActs_commands data hd (by rw [ha]; exact hopen) (by rw [ha]; exact hboard)]
  exact hhook w hpath ha hfields

/-- A rule that meets no refusal is answered OK. -/
theorem answerAccess_ruled_of_ok {u : State} (hresp : u.resp.code = Code.ok) (path : Path) (a pg : Nat) :
    (u.ruled pg).2.answerAccess path a (u.ruled pg).1 [] true = u.answering ⟨Code.ok, []⟩ := by
  simp [ruled, hresp, answerAccess, answering]

end State

end Sys2Proof.Machine
end

section
/-! PROOFS. The command registers of the scheduler and of valve block. -/

namespace Sys2Proof.Machine

namespace State

/-- Nothing of the pages SCHG, SCHQ and SAFE is hidden, fixed or kept elsewhere in a role. -/
theorem plainReg_of_page {s : State} {a : Nat} {d : RegDesc} (hpage : a / 0x400 = Pg.SCHG ∨ a / 0x400 = Pg.SCHQ ∨ a / 0x400 = Pg.SAFE)
    (hpres : present s.role (a / 0x400) = true) (hreg : regAt (a / 0x400) (a % 0x400) = some d)
    (hroles : holdsRoles s.role d.roles = true) (halign : a % 4 = 0) (hfield : 0x40 ≤ a % 0x400) : s.plainReg a d := by
  have hlow : a < 0x10000 ∧ 0x2400 ≤ a ∧ (a < 0x2C00 ∨ 0xB800 ≤ a) := by simp only [Pg.SCHG, Pg.SCHQ, Pg.SAFE] at hpage; omega
  obtain ⟨htop, hfrom, hbetween⟩ := hlow
  refine ⟨?_, hpres, ?_, ?_, ?_, ?_, halign, hfield, htop, ?_, ?_, ?_⟩
  · rcases hpage with h | h | h <;> rw [h] <;> decide
  · simp [descAt, hreg, hroles]
  · have : ¬ a / 0x400 = 0x19 := by omega
    simp [home, this]
  · clear hpage hpres hreg
    simp only [hiddenBits, R.CLK_SRC, R.CTL_HO_CTL, R.CTL_HO_STAT, R.CHAIN_CTL, R.CHAIN_STAT, R.ADC_CTL, R.ADC_SCAN, R.ADC_OSR,
      R.ADC_OVL, R.CTL_CFG, R.ACC_GAIN, R.ACC_OFS, R.ACC_MEAN, R.ACC_CNT]
    refine (if_neg (by omega)).trans ?_
    by_cases hc : s.isCell = true
    · exact (if_pos hc).trans (if_neg (by omega))
    · refine (if_neg hc).trans <| (if_neg (by omega)).trans <| (if_neg (by omega)).trans <| (if_neg (by omega)).trans <|
        if_neg (by omega)
  · intro lo
    have hne : a ≠ R.SYS_NODE ∧ a ≠ R.SYS_TOPO ∧ a ≠ R.TIME_CTL ∧ a ≠ R.TIME_MER := by
      simp only [R.SYS_NODE, R.SYS_TOPO, R.TIME_CTL, R.TIME_MER]; omega
    have hout : ¬ (0x4000 ≤ a ∧ a < 0x6000) ∧ ¬ (R.TIME_EPOCH_NS ≤ a ∧ a ≤ R.TIME_KBASE_HI) := by
      simp only [R.TIME_EPOCH_NS, R.TIME_KBASE_HI]; omega
    have htree : ¬ (a = R.TREE_CTL 1 ∨ a = R.TREE_CTL 2 ∨ a = R.TREE_CTL 3) := by simp only [R.TREE_CTL]; omega
    simp [fixedField, htree, hne]
    intro _
    omega
  · simp only [R.BERTH_BOARD, ne_eq]; omega
  · simp only [R.BERTH_CMD, ne_eq]; omega
  · simp only [R.SYS_TOPO, ne_eq]; omega

end State
end Sys2Proof.Machine
end

section
/-! PROOFS. The scheduler's operations on queues, delay lists and slots (R574, R585, R586). -/

namespace Sys2Proof.Machine

namespace State

@[simp] theorem settle_sch (s : State) : s.settle.sch = s.sch := (frame_settle s).1 .sch (by decide)

/-- The hardwired logic writes no memory. -/
@[simp] theorem settle_mem (s : State) : s.settle.mem = s.mem := by
  have hgates (u : State) : u.forceGates.mem = u.mem := by
    unfold forceGates
    repeat' split
    all_goals rfl
  have hrecord (u : State) : u.recordState.mem = u.mem := by
    unfold recordState
    repeat' split
    all_goals rfl
  have hself (u : State) : u.selfEnter.mem = u.mem := by
    rw [selfEnter, apply_ite State.mem, event_mem, event_mem, set_mem, ite_self]
  have hvb (u : State) : u.forceVb.mem = u.mem := by
    rw [forceVb, apply_ite State.mem, event_mem]
    exact ite_self _
  have hmark (u : State) : u.markReclaim.mem = u.mem := by
    unfold markReclaim
    split <;> rfl
  by_cases hc : s.role = .cell
  · rw [settle_cell hc, hrecord, forceDb_eq]
    exact hgates s
  · by_cases hh : s.role = .hub
    · rw [settle_hub hh, hmark, hvb, hself]
    · rw [settle_other hc hh]

theorem items_eq (s : State) : s.items = s.sch.queues.flatMap (·.2) ++ s.sch.lists.flatten ++ s.sch.svc := rfl

/-! Slots. -/

/-- Freeing slots changes generations alone. -/
theorem freeSlots_eq (s : State) (l : List Item) :
    l.foldl (fun t it => t.freeSlot it.slot) s =
      { s with sch := { s.sch with gens := (l.foldl (fun t it => t.freeSlot it.slot) s).sch.gens } } := by
  induction l generalizing s with
  | nil => rfl
  | cons x l ih =>
    rw [List.foldl_cons, ih]
    rfl

/-- Freeing a slot raises its generation. -/
theorem gens_freeSlot_same (s : State) (k : Nat) : kvGet 0 (s.freeSlot k).sch.gens k = (kvGet 0 s.sch.gens k + 1) % 64 := by
  simp [kvGet, freeSlot, kvFind_kvSet_same]

theorem gens_freeSlot_ne (s : State) {k j : Nat} (h : j ≠ k) : kvGet 0 (s.freeSlot k).sch.gens j = kvGet 0 s.sch.gens j := by
  simp [kvGet, freeSlot, kvFind_kvSet_ne _ _ h]

/-- A slot that no item freed has keeps its generation. -/
theorem gens_freeSlots_of_none (s : State) {l : List Item} {k : Nat} (h : l.filter (fun x => x.slot == k) = []) :
    kvGet 0 (l.foldl (fun t it => t.freeSlot it.slot) s).sch.gens k = kvGet 0 s.sch.gens k := by
  induction l generalizing s with
  | nil => rfl
  | cons x l ih =>
    have hx : x.slot ≠ k := by
      intro e
      simp [e] at h
    rw [List.filter_cons_of_neg (by simpa using hx)] at h
    rw [List.foldl_cons, ih _ h, gens_freeSlot_ne _ (Ne.symm hx)]

/-- A slot that one of the items freed has is freed once. -/
theorem gens_freeSlots_of_one (s : State) {l : List Item} {k : Nat} {it : Item}
    (h : l.filter (fun x => x.slot == k) = [it]) :
    kvGet 0 (l.foldl (fun t x => t.freeSlot x.slot) s).sch.gens k = (kvGet 0 s.sch.gens k + 1) % 64 := by
  induction l generalizing s with
  | nil => cases h
  | cons x l ih =>
    rw [List.foldl_cons]
    by_cases hx : x.slot = k
    · rw [List.filter_cons_of_pos (by simpa using hx)] at h
      rw [gens_freeSlots_of_none _ (List.cons.inj h).2, hx, gens_freeSlot_same]
    · rw [List.filter_cons_of_neg (by simpa using hx)] at h
      rw [ih _ h, gens_freeSlot_ne _ (Ne.symm hx)]

/-! Items dropped. -/

/-- The items that wait: queued, or on a delay list. -/
def itemsWaiting (s : State) : List Item := s.sch.queues.flatMap (·.2) ++ s.sch.lists.flatten

/-- `s` with its queues and lists without the items that pass `p`, their slots not yet freed. -/
def without (s : State) (p : Item → Bool) : State :=
  { s with sch := { s.sch with
    queues := (s.sch.queues.map fun e => (e.1, e.2.filter fun x => !p x)).filter fun e => e.2 != []
    lists := s.sch.lists.map fun l => l.filter fun x => !p x } }

theorem dropItems_eq (s : State) (p : Item → Bool) :
    s.dropItems p = (s.itemsWaiting.filter p).foldl (fun t it => t.freeSlot it.slot) (s.without p) := by
  rw [itemsWaiting, List.filter_append, List.filter_flatMap, List.filter_flatten]
  rfl

theorem itemsWaiting_without (s : State) (p : Item → Bool) : (s.without p).itemsWaiting = s.itemsWaiting.filter fun x => !p x := by
  have hqueues (l : Kv (List Item)) :
      (((l.map fun e => (e.1, e.2.filter fun x => !p x)).filter fun e => e.2 != []).flatMap (·.2)) =
        (l.flatMap (·.2)).filter fun x => !p x := by
    induction l with
    | nil => rfl
    | cons e l ih =>
      rw [List.flatMap_cons, List.filter_append, ← ih, List.map_cons]
      by_cases he : (e.2.filter fun x => !p x) = []
      · rw [List.filter_cons_of_neg (by simp [he]), he]
        rfl
      · rw [List.filter_cons_of_pos (by simp only [bne_iff_ne]; exact he), List.flatMap_cons]
  rw [itemsWaiting, itemsWaiting, List.filter_append, ← hqueues, List.filter_flatten]
  rfl

theorem itemsWaiting_dropItems (s : State) (p : Item → Bool) : (s.dropItems p).itemsWaiting = s.itemsWaiting.filter fun x => !p x := by
  rw [dropItems_eq, freeSlots_eq]
  exact itemsWaiting_without s p

theorem dropItems_svc (s : State) (p : Item → Bool) : (s.dropItems p).sch.svc = s.sch.svc := by
  rw [dropItems_eq, freeSlots_eq]
  rfl

theorem dropItems_resp (s : State) (p : Item → Bool) : (s.dropItems p).resp = s.resp := by
  rw [dropItems_eq, freeSlots_eq]
  rfl

/-- Dropping the one waiting item of a slot frees the slot once. -/
theorem gens_dropItems_of_one (s : State) (p : Item → Bool) {it : Item} (hp : p it = true)
    (h : s.itemsWaiting.filter (fun x => x.slot == it.slot) = [it]) :
    kvGet 0 (s.dropItems p).sch.gens it.slot = (kvGet 0 s.sch.gens it.slot + 1) % 64 := by
  have hone : (s.itemsWaiting.filter p).filter (fun x => x.slot == it.slot) = [it] := by
    rw [List.filter_comm, h, List.filter_cons_of_pos hp, List.filter_nil]
  rw [dropItems_eq]
  exact gens_freeSlots_of_one (s.without p) hone

end State

/-- A command that writes a command register: what holds of its rule's state, answered and settled, is what it yields. -/
theorem yields_of_command {c : Instr} {s u : State} {path : Path} {a : Nat} {d : RegDesc} {data : Word} {P : State → Prop}
    (he : exec c s = writeRow s path a data) (hpath : s.pathOpen path = true) (hreg : s.plainReg a d)
    (hd : d.commands = true) (hopen : s.gated (a / 0x400) = false)
    (hhook : ∀ w : Wr, w.path = path → w.a = a → (∀ f ∈ d.fields, w.get f.lo f.w = getBits data f.lo f.w) →
      (s.answering ⟨Code.ok, []⟩).hook w = u)
    (hresp : u.resp.code = Code.ok) (hP : P (u.answering ⟨Code.ok, []⟩).settle) : Yields c s P := by
  refine yields_of_act he hpath ?_
  rw [State.writeCmd_commands hreg hd hopen hhook, State.answerAccess_ruled_of_ok hresp]
  exact hP

end Sys2Proof.Machine
end

section
/-! PROOFS. The commands of the scheduler's pages: what a write of each does (R575, R580, R585, R586). -/

namespace Sys2Proof.Machine

open State

namespace State

theorem hook_sched {w : Wr} (s : State) (hpage : w.a / 0x400 = Pg.SCHG ∨ w.a / 0x400 = Pg.SCHQ) : s.hook w = s.hookSched w := by
  rcases hpage with h | h <;> simp +decide only [hook, h, if_true, if_false]

theorem hookSched_submit {w : Wr} (s : State) (ha : w.a = R.SCHG_SUBCMD) (hgo : w.bit 31 = true) :
    s.hookSched w = s.submit (pathIdx w.path) w.v := by
  simp +decide only [hookSched, ha, if_true, if_false, hgo, State.when]

theorem hookSched_cancel {w : Wr} (s : State) (ha : w.a = R.SCHG_CANCEL) :
    s.hookSched w = s.schgCancel (pathIdx w.path) (w.get 0 16) := by
  simp +decide only [hookSched, ha, if_true, if_false]

theorem hookSched_done {w : Wr} (s : State) (ha : w.a = R.SCHG_DONE) : s.hookSched w = s.schgDone (w.get 0 16) := by
  simp +decide only [hookSched, ha, if_true, if_false]

theorem hookSched_flush {w : Wr} {q : Nat} (s : State) (hq : q < 32) (ha : w.a = R.SCHQ_CMD q) (hgo : w.bit 0 = true) :
    s.hookSched w = s.schqFlush q := by
  have hne : ¬ (R.SCHG_SUB0 ≤ w.a ∧ w.a ≤ R.SCHG_SUB3) ∧ w.a ≠ R.SCHG_SUBCMD ∧ w.a ≠ R.SCHG_CANCEL ∧ w.a ≠ R.SCHG_DONE := by
    simp only [ha, R.SCHQ_CMD, R.SCHG_SUB0, R.SCHG_SUB3, R.SCHG_SUBCMD, R.SCHG_CANCEL, R.SCHG_DONE]; omega
  obtain ⟨hsub, hcmd, hcancel, hdone⟩ := hne
  have hin : w.inArray (R.SCHQ_CMD 0) 16 32 = true := by
    simp only [Wr.inArray, ha, R.SCHQ_CMD, Bool.and_eq_true, decide_eq_true_eq, beq_iff_eq]; omega
  have hidx : w.idx (R.SCHQ_CMD 0) 16 = q := by
    simp only [Wr.idx, ha, R.SCHQ_CMD]; omega
  rw [hookSched]
  simp only [if_neg hsub, if_neg hcmd, if_neg hcancel, if_neg hdone, if_pos hin, hgo, hidx, State.when, if_true]

/-- SCHG_SUBCMD, SCHG_CANCEL and SCHG_DONE, SCHQ_qCMD in the register map. -/
def subcmdDesc : RegDesc := ⟨0x058, 4, 1, 7, 0, [fd 0 5 .w, fd 8 2 .w, fd 12 1 .w, fd 31 1 .w]⟩
def cancelDesc : RegDesc := ⟨0x060, 4, 1, 7, 0, [fd 0 16 .w]⟩
def doneDesc : RegDesc := ⟨0x07C, 4, 1, 7, 0, [fd 0 16 .w]⟩
def flushDesc : RegDesc := ⟨0x04C, 16, 32, 7, 0, [fd 0 1 .w]⟩

theorem plainReg_subcmd (s : State) : s.plainReg R.SCHG_SUBCMD subcmdDesc :=
  plainReg_of_page (.inl rfl) rfl rfl rfl rfl (by decide)

theorem plainReg_cancel (s : State) : s.plainReg R.SCHG_CANCEL cancelDesc :=
  plainReg_of_page (.inl rfl) rfl rfl rfl rfl (by decide)

theorem plainReg_done (s : State) : s.plainReg R.SCHG_DONE doneDesc :=
  plainReg_of_page (.inl rfl) rfl rfl rfl rfl (by decide)

theorem plainReg_flush (s : State) {q : Nat} (hq : q < 32) : s.plainReg (R.SCHQ_CMD q) flushDesc := by
  have hpage : R.SCHQ_CMD q / 0x400 = Pg.SCHQ := by simp only [R.SCHQ_CMD, Pg.SCHQ]; omega
  have hoff : R.SCHQ_CMD q % 0x400 = 0x4C + 16 * q := by simp only [R.SCHQ_CMD]; omega
  have hreg : ∀ q < 32, regAt Pg.SCHQ (0x4C + 16 * q) = some flushDesc := by decide
  refine plainReg_of_page (.inr (.inl hpage)) (by rw [hpage]; rfl) (by rw [hpage, hoff]; exact hreg q hq) rfl ?_ ?_
  · simp only [R.SCHQ_CMD]; omega
  · omega

/-- The gates of the scheduler's pages are open: they are infrastructure pages (R64). -/
theorem gated_sched (s : State) : s.gated Pg.SCHG = false ∧ s.gated Pg.SCHQ = false := ⟨rfl, rfl⟩

end State

theorem exec_schedSubmit (path : Path) (data : Word) (s : State) :
    exec (.schedSubmit path data) s = writeRow s path R.SCHG_SUBCMD (data ||| 0x80000000) := rfl
theorem exec_schgDone (path : Path) (h : Nat) (s : State) :
    exec (.schgDone path h) s = writeRow s path R.SCHG_DONE (BitVec.ofNat 32 (h % 65536)) := rfl
theorem exec_schgCancel (path : Path) (h : Nat) (s : State) :
    exec (.schgCancel path h) s = writeRow s path R.SCHG_CANCEL (BitVec.ofNat 32 (h % 65536)) := rfl
theorem exec_schqFlush (path : Path) (q : Nat) (s : State) :
    exec (.schqFlush path q) s = fieldRow s path (F.SCHQ_CMD_FLUSH q) 1 := rfl

/-- A flush of a queue. -/
theorem yields_schqFlush {s : State} {path : Path} {q : Nat} {P : State → Prop} (hpath : s.pathOpen path = true) (hq : q < 32)
    (hP : ∀ r r', P (((s.answering r).schqFlush q).answering r').settle) : Yields (.schqFlush path q) s P := by
  refine yields_of_command (exec_schqFlush path q s) hpath (plainReg_flush s hq) rfl ?_ (fun w hp ha hv => ?_) ?_
    (hP ⟨Code.ok, []⟩ ⟨Code.ok, []⟩)
  · have hpage : (F.SCHQ_CMD_FLUSH q).addr / 0x400 = Pg.SCHQ := by simp only [F.SCHQ_CMD_FLUSH, R.SCHQ_CMD, Pg.SCHQ]; omega
    exact hpage ▸ (gated_sched s).2
  · have hpage : w.a / 0x400 = Pg.SCHQ := by rw [ha]; simp only [F.SCHQ_CMD_FLUSH, R.SCHQ_CMD, Pg.SCHQ]; omega
    have hgo : w.bit 0 = true := by
      have h := hv (fd 0 1 .w) (by decide)
      rw [put, F.SCHQ_CMD_FLUSH, fd] at h
      rw [Wr.bit, ← Wr.get, h, getBits_setBits_same _ _ _ _ (Nat.le_add_left 1 31)]
      rfl
    rw [hook_sched _ (.inr hpage), hookSched_flush _ hq ha hgo]
  · rw [schqFlush, event_resp, dropItems_resp]
    rfl

/-- Settles O47: a flush drops the waiting items of its queue (`itemsWaiting_dropItems`), and frees each one's slot
(`gens_dropItems_of_one`). -/
theorem flushCancels : Obligations.FlushCancels := by
  unfold Obligations.FlushCancels
  refine ⟨fun s p q hpath hq => ?_, fun s p q it hpath hq hqueue hone => ?_⟩
  · refine yields_schqFlush hpath hq fun r r' => ⟨?_, ?_, ?_⟩
    · have hkept := itemsWaiting_dropItems (s.answering r) fun x => x.queue == q
      have hserved := dropItems_svc (s.answering r) fun x => x.queue == q
      have hitems : (((s.answering r).schqFlush q).answering r').settle.items =
          ((s.answering r).dropItems fun x => x.queue == q).itemsWaiting
            ++ ((s.answering r).dropItems fun x => x.queue == q).sch.svc := by
        simp only [items, itemsWaiting, settle_sch, answering, schqFlush, event_sch]
      rw [hitems, hkept, hserved]
      rfl
    · rw [settle_sch]
      simp only [answering, schqFlush, event_sch, dropItems_svc]
    · rw [settle_reg _ (by decide)]
      exact bitOf_event _ _ (by decide)
  · refine yields_schqFlush hpath hq fun r r' => ?_
    rw [settle_sch]
    simp only [answering, schqFlush, event_sch]
    exact gens_dropItems_of_one { s with resp := r } _ (by simp [hqueue]) hone

end Sys2Proof.Machine
end

section
/-! PROOFS. The scheduler's operations on an item (R574 to R587): its way into a queue or onto a delay list, its completion, its
release, and its dispatch. -/

namespace Sys2Proof.Machine

namespace State

/-! Queues and lists. -/

theorem queue_setQueue_same (s : State) (q : Nat) (l : List Item) : (s.setQueue q l).queue q = l := by
  unfold queue setQueue
  by_cases h : l = []
  · simp [h, kvGet, kvFind_kvErase_same]
  · simp [h, kvGet, kvFind_kvSet_same]

theorem delayList_setList_same (s : State) (d : Nat) (l : List Item) : (s.setList d l).delayList d = l :=
  nth_setAt_same [] s.sch.lists d l

theorem when_event_sch (s : State) (c : Bool) (pg bit : Nat) : (s.when c (·.event pg bit)).sch = s.sch := by
  cases c
  · rfl
  · exact event_sch s pg bit

theorem when_event_resp (s : State) (c : Bool) (pg bit : Nat) : (s.when c (·.event pg bit)).resp = s.resp := by
  cases c
  · rfl
  · exact event_resp s pg bit

/-! An item enters. -/

theorem enqueue_sch (s : State) (it : Item) :
    (s.enqueue it).sch = (s.setQueue it.queue (s.queue it.queue ++ [{ it with ready := s.now }])).sch := when_event_sch ..

theorem enqueue_resp (s : State) (it : Item) : (s.enqueue it).resp = s.resp := when_event_resp ..

theorem poolCheck_sch (s : State) (n : Nat) : (s.poolCheck n).sch = s.sch := when_event_sch ..
theorem poolCheck_resp (s : State) (n : Nat) : (s.poolCheck n).resp = s.resp := when_event_resp ..

/-- The choice of a slot uses up a free value and changes nothing else. -/
theorem newSlot_snd (s : State) : s.newSlot.2 = s.free.2 := by
  unfold newSlot
  dsimp only
  split <;> rfl

/-- A new item joins its queue at the end. -/
theorem queue_enqueue (s : State) (it : Item) :
    (s.enqueue it).queue it.queue = s.queue it.queue ++ [{ it with ready := s.now }] := by
  have h := queue_setQueue_same s it.queue (s.queue it.queue ++ [{ it with ready := s.now }])
  unfold queue at h ⊢
  rw [enqueue_sch]
  exact h

/-- An item joins a delay list behind those that sort at or before it, and before the others. -/
theorem listInsert_eq (s : State) (d : Nat) (it : Item) :
    ∃ (key : Item → Nat) (x : Item), s.listInsert d it =
      s.setList d (((s.delayList d).filter fun y => key y ≤ key x) ++ [x] ++ (s.delayList d).filter fun y => key x < key y) :=
  ⟨_, _, rfl⟩

/-- A delay list gains one item. -/
theorem length_listInsert (s : State) (d : Nat) (it : Item) :
    ((s.listInsert d it).delayList d).length = (s.delayList d).length + 1 := by
  obtain ⟨key, x, h⟩ := listInsert_eq s d it
  have hsplit := List.length_eq_length_filter_add (l := s.delayList d) fun y => decide (key y ≤ key x)
  simp only [← decide_not, Nat.not_le] at hsplit
  rw [h, delayList_setList_same, List.length_append, List.length_append, List.length_singleton]
  omega

theorem listInsert_queues (s : State) (d : Nat) (it : Item) : (s.listInsert d it).sch.queues = s.sch.queues := rfl

/-! Submissions (R575, R583, R587). -/

/-- The word of SCHG_SUBRES. -/
def subresWord (handle code : Nat) : Word := BitVec.ofNat 32 (handle + code <<< 16 + 1 <<< 31)

theorem subresWord_fields {handle code : Nat} (hh : handle < 65536) (hc : code < 16) :
    getBits (subresWord handle code) 16 4 = code ∧ getBits (subresWord handle code) 31 1 = 1 := by
  have hword : (subresWord handle code).toNat = handle + code * 65536 + 2147483648 := by
    rw [subresWord, BitVec.toNat_ofNat, Nat.shiftLeft_eq, Nat.shiftLeft_eq]
    omega
  simp only [getBits, hword, Nat.shiftRight_eq_div_pow]
  omega

theorem handleOf_lt (s : State) (slot : Nat) : s.handleOf slot < 65536 := by
  unfold handleOf
  omega

theorem subres_subResult (s : State) (p handle code : Nat) :
    kvGet 0 (s.subResult p handle code).sch.subres p = subresWord handle code := by
  simp [subResult, kvGet, kvFind_kvSet_same, subresWord]

/-- REL of the item staged on a path. -/
def stagedRel (s : State) (p : Nat) : Nat :=
  (kvGet 0 s.sch.subs (4 * p + 2)).toNat + 2 ^ 32 * getBits (kvGet 0 s.sch.subs (4 * p + 3)) 0 8

/-- The item staged on a path, in a slot. -/
def stagedItem (s : State) (p slot q : Nat) (timed : Option (Nat × Nat × Nat)) : Item :=
  { slot := slot, flow := getBits (kvGet 0 s.sch.subs (4 * p)) 0 16, type := getBits (kvGet 0 s.sch.subs (4 * p)) 16 8
    arg := kvGet 0 s.sch.subs (4 * p + 1), queue := q, timed := timed }

/-- What a submission reads of its command: QUEUE, LIST and TIMED. -/
theorem submit_congr (s : State) (p : Nat) {c d : Word} (hq : getBits c 0 5 = getBits d 0 5)
    (hl : getBits c 8 2 = getBits d 8 2) (ht : getBits c 12 1 = getBits d 12 1) : s.submit p c = s.submit p d := by
  simp only [submit, hq, hl, ht]

/-- An untimed submission with room. -/
theorem submit_of_room (s : State) (p : Nat) (d : Word) (ht : getBits d 12 1 = 0) (hroom : s.queueFull (getBits d 0 5) = false)
    (hfree : s.slotsFree ≠ 0) : ∃ slot handle, handle < 65536 ∧ s.submit p d =
      ((s.free.2.enqueue (s.stagedItem p slot (getBits d 0 5) none)).poolCheck s.slotsFree).subResult p handle 0 := by
  let it := s.stagedItem p s.newSlot.1 (getBits d 0 5) none
  refine ⟨s.newSlot.1, _, handleOf_lt ((s.free.2.enqueue it).poolCheck s.slotsFree) s.newSlot.1, ?_⟩
  rw [submit]
  simp only [ht, hroom, hfree, newSlot_snd, State.when, Nat.zero_ne_one, false_and, if_false, Bool.false_eq_true, decide_false,
    Bool.false_and]
  rfl

/-- An untimed submission without room. -/
theorem submit_of_full (s : State) (p : Nat) (d : Word) (ht : getBits d 12 1 = 0) (hfull : s.queueFull (getBits d 0 5) = true) :
    s.submit p d = s.subRefuse p 1 := by
  simp [submit, ht, hfull]

/-- A timed submission whose list has room. -/
theorem submit_of_listRoom (s : State) (p : Nat) (d : Word) (ht : getBits d 12 1 = 1)
    (hlate : relDue s.schedNow (s.stagedRel p) = false) (hrange : (s.stagedRel p + 2 ^ 40 - s.schedNow) % 2 ^ 40 < 2 ^ 36)
    (hroom : s.listHeld (getBits d 8 2) < 256) (hfree : s.slotsFree ≠ 0) :
    ∃ it handle, handle < 65536 ∧ s.submit p d =
      ((s.free.2.listInsert (getBits d 8 2) it).poolCheck s.slotsFree).subResult p handle 0 := by
  let it := s.stagedItem p s.newSlot.1 (getBits d 0 5)
    (some (getBits d 8 2, s.stagedRel p, getBits (kvGet 0 s.sch.subs (4 * p + 3)) 8 24))
  refine ⟨it, _, handleOf_lt ((s.free.2.listInsert (getBits d 8 2) it).poolCheck s.slotsFree) s.newSlot.1, ?_⟩
  rw [stagedRel] at hlate hrange
  simp only [submit, ht, hlate, hfree, newSlot_snd, State.when, Nat.not_le.mpr hrange, Nat.not_le.mpr hroom, and_false, if_false,
    decide_false, if_true, Bool.false_eq_true, Bool.and_false]
  rfl

/-- A timed submission out of range. -/
theorem submit_of_range (s : State) (p : Nat) (d : Word) (ht : getBits d 12 1 = 1)
    (hlate : relDue s.schedNow (s.stagedRel p) = false) (hrange : 2 ^ 36 ≤ (s.stagedRel p + 2 ^ 40 - s.schedNow) % 2 ^ 40) :
    s.submit p d = s.subRefuse p 3 := by
  exact if_pos ⟨ht, congrArg not hlate, hrange⟩

end State

open State

/-- GO beside the other bits of SCHG_SUBCMD. -/
theorem getBits_go (d : Word) {lo w : Nat} (h : lo + w ≤ 31) : getBits (d ||| 0x80000000) lo w = getBits d lo w := by
  unfold getBits
  apply Nat.eq_of_testBit_eq
  intro i
  have hgo : (0x80000000 : Word).toNat = 2 ^ 31 := rfl
  rw [BitVec.toNat_or, hgo]
  simp only [Nat.testBit_mod_two_pow, Nat.testBit_shiftRight, Nat.testBit_or, Nat.testBit_two_pow]
  by_cases hi : i < w
  · simp [show ¬ 31 = lo + i by omega]
  · simp [hi]

/-- A submission. -/
theorem yields_schedSubmit {s u : State} {path : Path} {d : Word} {P : State → Prop} (hpath : s.pathOpen path = true)
    (hu : (s.answering ⟨Code.ok, []⟩).submit (pathIdx path) d = u) (hresp : u.resp.code = Code.ok)
    (hP : P (u.answering ⟨Code.ok, []⟩).settle) : Yields (.schedSubmit path d) s P := by
  refine yields_of_command (exec_schedSubmit path d s) hpath (plainReg_subcmd s) rfl (gated_sched s).1 (fun w hp ha hv => ?_)
    hresp hP
  have hget {lo n : Nat} (hf : fd lo n .w ∈ subcmdDesc.fields) (h : lo + n ≤ 31) : getBits w.v lo n = getBits d lo n :=
    (hv _ hf).trans (getBits_go d h)
  have hgo : w.bit 31 = true := by
    have h : w.get 31 1 = getBits (d ||| 0x80000000) 31 1 := hv (fd 31 1 .w) (by decide)
    rw [Wr.bit, ← Wr.get, h]
    change bitOf (d ||| 0x80000000).toNat 31 = true
    rw [bitOf_eq_testBit, BitVec.toNat_or, Nat.testBit_or, show (0x80000000 : Word).toNat = 2 ^ 31 from rfl,
      Nat.testBit_two_pow_self, Bool.or_true]
  rw [hook_sched _ (.inl (by rw [ha]; rfl)), hookSched_submit _ ha hgo, hp, ← hu]
  exact submit_congr _ _ (hget (by decide) (by decide)) (hget (by decide) (by decide)) (hget (by decide) (by decide))

end Sys2Proof.Machine
end

section
/-! PROOFS. Arrivals, completions, cancels and the mailbox of the scheduler (R576, R580, R584, R585). -/

namespace Sys2Proof.Machine

namespace State

/-! Arrivals. -/

theorem hwQueued_of_room (s : State) {q : Nat} (flow arg : Nat) (hroom : s.queueFull q = false) (hfree : s.slotsFree ≠ 0) :
    ∃ slot, s.hwQueued q flow arg = (true, (s.free.2.enqueue
      { slot := slot, flow := flow % 65536, type := 0, arg := BitVec.ofNat 32 arg, queue := q, hw := true }).poolCheck s.slotsFree) := by
  refine ⟨s.newSlot.1, ?_⟩
  simp only [hwQueued, hroom, hfree, newSlot_snd, Bool.false_eq_true, or_self, if_false]

theorem hwQueued_of_full (s : State) {q : Nat} (flow arg : Nat) (hfull : s.queueFull q = true) :
    s.hwQueued q flow arg = (false, s) := by
  simp [hwQueued, hfull]

/-- An item of the queues that hardware does not hold back is queued or dropped. -/
theorem arrive_eq (s : State) {q : Nat} (flow arg : Nat) (hhw : s.hwQueue q = true) (hq : q < 4 ∨ q = 5) :
    s.arrive q flow arg =
      if (s.hwQueued q flow arg).1 then (s.hwQueued q flow arg).2 else s.bump (F.SCHQ_CNT_DROP q) := by
  have hheld : ¬ (q ≠ 5 ∧ 4 ≤ q ∧ (s.sch.held.any fun h => h.1 == q) = true) := by
    rintro ⟨hne, hle, -⟩
    omega
  have hdrop : q ≤ 3 ∨ q = 5 := by omega
  simp only [arrive, hhw, hheld, hdrop, Bool.not_true, Bool.false_eq_true, if_false, if_true]

/-! Completions. -/

/-- `s` with the item of a slot out of service and of the mailbox. -/
def outOfService (s : State) (slot : Nat) : State :=
  { s with sch := { s.sch with
    svc := s.sch.svc.filter fun x => x.slot != slot, mail := s.sch.mail.filter (· != slot) } }

/-- An item that is not periodic leaves service and frees its slot. -/
theorem complete_of_untimed (s : State) {it : Item} (h : it.timed = none) :
    s.complete it = (s.outOfService it.slot).freeSlot it.slot := by
  simp only [complete, h, outOfService]

/-- A periodic item leaves service and returns to its list. -/
theorem complete_of_periodic (s : State) {it : Item} {d rel per : Nat} (h : it.timed = some (d, rel, per)) (hper : per ≠ 0)
    (hgone : it.gone = false) : ∃ c y, s.complete it =
      ((s.outOfService it.slot).when c fun t => (t.bump F.SCHG_CNT_OVERRUN).event Pg.SCHG 11).listInsert d y := by
  simp only [complete, h, hper, hgone, Bool.false_eq_true, or_self, if_false]
  exact ⟨_, _, rfl⟩

theorem when_overrun_sch (s : State) (c : Bool) :
    (s.when c fun t => (t.bump F.SCHG_CNT_OVERRUN).event Pg.SCHG 11).sch = s.sch := by
  cases c
  · rfl
  · exact event_sch ..

theorem when_overrun_resp (s : State) (c : Bool) :
    (s.when c fun t => (t.bump F.SCHG_CNT_OVERRUN).event Pg.SCHG 11).resp = s.resp := by
  cases c
  · rfl
  · exact event_resp ..

/-! The mailbox. -/

/-- SCHG_TAKE in the register map. -/
def takeDesc : RegDesc := ⟨0x068, 4, 1, 7, 0xFFFFFFFF, [fd 0 32 .ro]⟩

theorem plainReg_take (s : State) : s.plainReg R.SCHG_TAKE takeDesc := plainReg_of_page (.inl rfl) rfl rfl rfl rfl (by decide)

/-- A read of SCHG_TAKE answers what it pops. -/
theorem readCmd_schgTake (s : State) (path : Path) :
    s.readCmd path R.SCHG_TAKE = s.schgTake.2.answering ⟨Code.ok, [s.schgTake.1]⟩ := by
  have hpres : present s.role (R.SCHG_TAKE / 0x400) = true := rfl
  have hacc : s.accessTest R.SCHG_TAKE 4 1 true = Code.ok := by
    have hdec : decoded (R.SCHG_TAKE / 0x400) = true := rfl
    have halign : R.SCHG_TAKE % 4 = 0 := rfl
    have hend : ¬ 0x3FC < R.SCHG_TAKE % 0x400 := by decide
    simp [accessTest, hdec, hpres, halign, hend]
  have hgated : s.gatedWord R.SCHG_TAKE = false := by
    have hinfra : infra (R.SCHG_TAKE / 0x400) = true := rfl
    simp [gatedWord, hinfra]
  have hd : s.descAt R.SCHG_TAKE = some takeDesc := rfl
  have hhome : s.home R.SCHG_TAKE = R.SCHG_TAKE := (plainReg_take s).2.2.2.1
  have hread : s.readReg path R.SCHG_TAKE = (Code.ok, s.schgTake.1, s.schgTake.2) := by
    simp +decide only [readReg, hhome, hd, Option.isNone_some, if_true, if_false]
  have hat : s.readAt path R.SCHG_TAKE = (Code.ok, s.schgTake.1, s.schgTake.2) := by
    simp [readAt, hpres, hgated, hread]
  simp [readCmd, burstRead, readWords, hacc, hat, answerAccess, answering]

/-- The oldest entry is taken: its item's fields show in SCHG_TW. -/
theorem schgTake_of_mail (s : State) {slot : Nat} {l : List Nat} {it : Item} (hmail : s.sch.mail = slot :: l)
    (hfind : s.sch.svc.find? (fun x => x.slot == slot) = some it) (h : it.timed = none) :
    s.schgTake = (BitVec.ofNat 32 (s.handleOf slot),
      (((({ s with sch := { s.sch with mail := l } } : State).setReg (R.SCHG_TW 0) (BitVec.ofNat 32 (it.flow + it.type <<< 16))).setReg
        (R.SCHG_TW 1) it.arg).setReg (R.SCHG_TW 2) (BitVec.ofNat 32 it.queue)).setReg (R.SCHG_TW 3) 0) := by
  simp [schgTake, hmail, hfind, h, handleOf]

/-- An empty mailbox reads all ones. -/
theorem schgTake_of_empty (s : State) (hmail : s.sch.mail = []) : s.schgTake = (0xFFFFFFFF, s) := by
  simp [schgTake, hmail]

/-! Cancels. -/

/-- The word of SCHG_CANRES. -/
theorem canres_canResult (s : State) (p code : Nat) :
    kvGet 0 (s.canResult p code).sch.canres p = BitVec.ofNat 32 (code + 1 <<< 31) := by
  simp [canResult, kvGet, kvFind_kvSet_same]

end State

end Sys2Proof.Machine
end

section
/-! PROOFS. What the commands of the scheduler yield: submissions, arrivals, completions, cancels and the mailbox. -/

namespace Sys2Proof.Machine

open State

theorem exec_hwArrival (q f a : Nat) (s : State) : exec (.hwArrival q f a) s = execHwArrival q f a s := rfl
theorem exec_schgTake (path : Path) (s : State) : exec (.schgTake path) s = readRow s path R.SCHG_TAKE := rfl

namespace State

@[simp] theorem answering_sch (s : State) (r : Resp) : (s.answering r).sch = s.sch := rfl
@[simp] theorem answering_queue (s : State) (r : Resp) (q : Nat) : (s.answering r).queue q = s.queue q := rfl
@[simp] theorem settle_queue (s : State) (q : Nat) : s.settle.queue q = s.queue q := by rw [queue, settle_sch]; rfl
@[simp] theorem answering_delayList (s : State) (r : Resp) (d : Nat) : (s.answering r).delayList d = s.delayList d := rfl
@[simp] theorem settle_delayList (s : State) (d : Nat) : s.settle.delayList d = s.delayList d := by rw [delayList, settle_sch]; rfl

theorem queue_subResult (s : State) (p h c q : Nat) : (s.subResult p h c).queue q = s.queue q := rfl
theorem queue_poolCheck (s : State) (n q : Nat) : (s.poolCheck n).queue q = s.queue q := by
  rw [queue, poolCheck_sch]
  rfl

theorem delayList_subResult (s : State) (p h c d : Nat) : (s.subResult p h c).delayList d = s.delayList d := rfl
theorem delayList_poolCheck (s : State) (n d : Nat) : (s.poolCheck n).delayList d = s.delayList d := by
  rw [delayList, poolCheck_sch]
  rfl

@[simp] theorem answering_resp (s : State) (r : Resp) : (s.answering r).resp = r := rfl

end State

/-! Submissions. -/

theorem yields_schedSubmit_of_room {s : State} {p : Path} {d : Word} (hpath : s.pathOpen p = true) (ht : getBits d 12 1 = 0)
    (hroom : s.queueFull (getBits d 0 5) = false) (hfree : s.slotsFree ≠ 0) :
    Yields (.schedSubmit p d) s fun t => (t.queue (getBits d 0 5)).length = (s.queue (getBits d 0 5)).length + 1 ∧
      ((t.queue (getBits d 0 5)).getLast?.map fun it => { it with slot := 0 }) =
        some { s.stagedItem (pathIdx p) 0 (getBits d 0 5) none with ready := s.now } ∧
      getBits (kvGet 0 t.sch.subres (pathIdx p)) 16 4 = 0 ∧ getBits (kvGet 0 t.sch.subres (pathIdx p)) 31 1 = 1 := by
  obtain ⟨slot, handle, hlt, hsub⟩ := submit_of_room (s.answering ⟨Code.ok, []⟩) (pathIdx p) d ht hroom hfree
  refine yields_schedSubmit hpath hsub ?_ ?_
  · rw [subResult, poolCheck_resp, enqueue_resp]
    rfl
  · obtain ⟨hcode, hvalid⟩ := subresWord_fields hlt (code := 0) (by decide)
    have hqueue : ((s.answering ⟨Code.ok, []⟩).free.2.enqueue
        (stagedItem (s.answering ⟨Code.ok, []⟩) (pathIdx p) slot (getBits d 0 5) none)).queue (getBits d 0 5) =
          s.queue (getBits d 0 5) ++ [{ s.stagedItem (pathIdx p) slot (getBits d 0 5) none with ready := s.now }] :=
      queue_enqueue ..
    rw [settle_queue, answering_queue, queue_subResult, queue_poolCheck, hqueue, settle_sch, answering_sch, subres_subResult]
    exact ⟨by rw [List.length_append, List.length_singleton], by simp [stagedItem], hcode, hvalid⟩

/-- A submission that is refused changes its result alone. -/
theorem yields_schedSubmit_of_refused {s : State} {p : Path} {d : Word} {code : Nat} (hpath : s.pathOpen p = true)
    (hsub : (s.answering ⟨Code.ok, []⟩).submit (pathIdx p) d = (s.answering ⟨Code.ok, []⟩).subRefuse (pathIdx p) code) :
    Yields (.schedSubmit p d) s fun t => t.sch.queues = s.sch.queues ∧ t.sch.lists = s.sch.lists ∧
      kvGet 0 t.sch.subres (pathIdx p) = subresWord 0 code ∧ bitOf (t.reg (R.PG_EVT Pg.SCHG)).toNat 9 = true := by
  refine yields_schedSubmit hpath hsub ?_ ?_
  · rw [subRefuse, event_resp]
    rfl
  · rw [settle_sch, settle_reg _ (by decide), answering_sch, answering_reg, subRefuse, event_sch, subres_subResult]
    exact ⟨rfl, rfl, rfl, bitOf_event _ _ (by decide)⟩

theorem yields_schedSubmit_of_listRoom {s : State} {p : Path} {d : Word} (hpath : s.pathOpen p = true) (ht : getBits d 12 1 = 1)
    (hlate : relDue s.schedNow (s.stagedRel (pathIdx p)) = false)
    (hrange : (s.stagedRel (pathIdx p) + 2 ^ 40 - s.schedNow) % 2 ^ 40 < 2 ^ 36)
    (hroom : s.listHeld (getBits d 8 2) < 256) (hfree : s.slotsFree ≠ 0) :
    Yields (.schedSubmit p d) s fun t => (t.delayList (getBits d 8 2)).length = (s.delayList (getBits d 8 2)).length + 1 ∧
      t.sch.queues = s.sch.queues ∧ getBits (kvGet 0 t.sch.subres (pathIdx p)) 16 4 = 0 := by
  obtain ⟨it, handle, hlt, hsub⟩ :=
    submit_of_listRoom (s.answering ⟨Code.ok, []⟩) (pathIdx p) d ht hlate hrange hroom hfree
  refine yields_schedSubmit hpath hsub ?_ ?_
  · rw [subResult, poolCheck_resp]
    rfl
  · have hqueues : ((((s.answering ⟨Code.ok, []⟩).free.2.listInsert (getBits d 8 2) it).poolCheck
        (s.answering ⟨Code.ok, []⟩).slotsFree).subResult (pathIdx p) handle 0).sch.queues = s.sch.queues := by
      simp only [subResult, poolCheck_sch]
      rfl
    rw [settle_delayList, answering_delayList, delayList_subResult, delayList_poolCheck, length_listInsert, settle_sch,
      answering_sch, subres_subResult]
    exact ⟨rfl, hqueues, (subresWord_fields hlt (by decide)).1⟩

/-! Arrivals. -/

theorem yields_hwArrival_of_room {s : State} {q : Nat} (f a : Nat) (halive : s.alive = true) (hq : q < 8)
    (hhw : s.hwQueue q = true) (hkind : q < 4 ∨ q = 5) (hroom : s.queueFull q = false) (hfree : s.slotsFree ≠ 0) :
    Yields (.hwArrival q f a) s fun t => (t.queue q).length = (s.queue q).length + 1 ∧
      ((t.queue q).getLast?.map fun it => (it.flow, it.arg, it.hw)) = some (f % 65536, BitVec.ofNat 32 a, true) := by
  obtain ⟨slot, hqueued⟩ := hwQueued_of_room s f a hroom hfree
  refine yields_of_act (exec_hwArrival ..) (by simp [halive, hq]) ?_
  have hqueue : (s.free.2.enqueue
      { slot := slot, flow := f % 65536, type := 0, arg := BitVec.ofNat 32 a, queue := q, hw := true }).queue q = s.queue q ++ [_] :=
    queue_enqueue ..
  rw [arrive_eq s f a hhw hkind, hqueued, if_pos rfl, settle_queue, queue_poolCheck, hqueue]
  exact ⟨by rw [List.length_append, List.length_singleton], by simp⟩

theorem yields_hwArrival_of_full {s : State} {q : Nat} (f a : Nat) (halive : s.alive = true) (hq : q < 8)
    (hhw : s.hwQueue q = true) (hkind : q < 4 ∨ q = 5) (hfull : s.queueFull q = true) :
    Yields (.hwArrival q f a) s fun t => t.sch = s.sch ∧
      t.get (F.SCHQ_CNT_DROP q) = satAdd (F.SCHQ_CNT_DROP q).w (s.get (F.SCHQ_CNT_DROP q)) 1 := by
  refine yields_of_act (exec_hwArrival ..) (by simp [halive, hq]) ?_
  have hplain : (F.SCHQ_CNT_DROP q).addr ∉ settleRegs := by
    have : ∀ q < 8, (F.SCHQ_CNT_DROP q).addr ∉ settleRegs := by decide
    exact this q hq
  rw [arrive_eq s f a hhw hkind, hwQueued_of_full s f a hfull, if_neg (by simp), settle_sch, settle_get _ hplain]
  exact ⟨rfl, get_bump_same s (F.SCHQ_CNT_DROP q) 1 (Nat.le_refl 32)⟩

/-! The mailbox. -/

theorem yields_schgTake {s : State} {p : Path} {P : State → Prop} (hpath : s.pathOpen p = true)
    (hP : P (s.schgTake.2.answering ⟨Code.ok, [s.schgTake.1]⟩).settle) : Yields (.schgTake p) s P := by
  refine yields_of_act (exec_schgTake ..) hpath ?_
  rw [readCmd_schgTake]
  exact hP

/-! Completions. -/

/-- The handle in the word that DONE and CANCEL write. -/
theorem getBits_handle (h : Nat) : getBits (BitVec.ofNat 32 (h % 65536)) 0 16 = h % 65536 := by
  rw [getBits, BitVec.toNat_ofNat, Nat.shiftRight_zero]
  omega

theorem yields_schgDone {s u : State} {p : Path} {h : Nat} {P : State → Prop} (hpath : s.pathOpen p = true)
    (hu : (s.answering ⟨Code.ok, []⟩).schgDone (h % 65536) = u) (hresp : u.resp.code = Code.ok)
    (hP : P (u.answering ⟨Code.ok, []⟩).settle) : Yields (.schgDone p h) s P := by
  refine yields_of_command (exec_schgDone p h s) hpath (plainReg_done s) rfl (gated_sched s).1 (fun w hp ha hv => ?_) hresp hP
  have hword : w.get 0 16 = h % 65536 := (hv (fd 0 16 .w) (by decide)).trans (getBits_handle h)
  rw [hook_sched _ (.inl (by rw [ha]; rfl)), hookSched_done _ ha, hword, hu]

/-! Cancels. -/

theorem yields_schgCancel {s u : State} {p : Path} {h : Nat} {P : State → Prop} (hpath : s.pathOpen p = true)
    (hu : (s.answering ⟨Code.ok, []⟩).schgCancel (pathIdx p) (h % 65536) = u) (hresp : u.resp.code = Code.ok)
    (hP : P (u.answering ⟨Code.ok, []⟩).settle) : Yields (.schgCancel p h) s P := by
  refine yields_of_command (exec_schgCancel p h s) hpath (plainReg_cancel s) rfl (gated_sched s).1 (fun w hp ha hv => ?_) hresp hP
  have hword : w.get 0 16 = h % 65536 := (hv (fd 0 16 .w) (by decide)).trans (getBits_handle h)
  rw [hook_sched _ (.inl (by rw [ha]; rfl)), hookSched_cancel _ ha, hword, hp, hu]

/-- A handle is read modulo 2^16. -/
theorem State.named_mod (s : State) (h : Nat) (l : List Item) : s.named (h % 65536) l = s.named h l := by
  simp only [named, Nat.mod_mod]

end Sys2Proof.Machine
end

section
/-! PROOFS. The scheduler step (R577 to R579), the releases of the delay lists (R582) and an item in service for too long
(R581). -/

namespace Sys2Proof.Machine

open State

theorem exec_schedulerStep (s : State) : exec .schedulerStep s = execSchedulerStep s := rfl
theorem exec_delayRelease (s : State) : exec .delayRelease s = execDelayRelease s := rfl
theorem exec_itemStuck (slot : Nat) (s : State) : exec (.itemStuck slot) s = execItemStuck slot s := rfl

namespace State

/-! The choice of a queue. -/

/-- Reloading credits changes credits alone. -/
theorem frame_reload (s : State) (c : Nat) : Frame [] ((List.range 32).map R.SCHQ_STAT) s (s.reload c) := by
  have upTo (k : Nat) (hk : k ≤ 32) : Frame [] ((List.range 32).map R.SCHQ_STAT) s
      (forUpTo (fun q t => if t.get (F.SCHQ_CFG_CLASS q) = c then
        t.set (F.SCHQ_STAT_CREDIT q) (max 1 (t.get (F.SCHQ_CFG_WEIGHT q))) else t) k s) := by
    induction k with
    | zero => exact Frame.refl ..
    | succ k ih =>
      have before := ih (by omega)
      have hmem : R.SCHQ_STAT k ∈ (List.range 32).map R.SCHQ_STAT := List.mem_map.mpr ⟨k, List.mem_range.mpr hk, rfl⟩
      have write (t : State) (n : Nat) : Frame [] ((List.range 32).map R.SCHQ_STAT) t (t.set (F.SCHQ_STAT_CREDIT k) n) :=
        (frame_set t (F.SCHQ_STAT_CREDIT k) n).mono (fun _ h => h) (List.forall_mem_singleton.mpr hmem)
      exact .ite (before.seq (write _ _)) before
  exact upTo 32 (Nat.le_refl _)

/-- Where one queue of a worker is eligible, it is the choice. -/
theorem choose_singleton (s : State) (w q : Nat) :
    (s.choose w [q]).1 = some q ∧ Frame [] ((List.range 32).map R.SCHQ_STAT) s (s.choose w [q]).2 := by
  have hclass : s.get (F.SCHQ_CFG_CLASS q) ≤ 3 := by
    have : s.get (F.SCHQ_CFG_CLASS q) < 2 ^ 2 := Nat.mod_lt _ (Nat.two_pow_pos 2)
    omega
  unfold choose
  dsimp only
  split
  · exact ⟨rfl, Frame.refl ..⟩
  · have htop : [q].filter (fun x => s.get (F.SCHQ_CFG_CLASS x) == min 3 (s.get (F.SCHQ_CFG_CLASS q))) = [q] := by
      rw [Nat.min_eq_right hclass]
      simp
    simp only [List.foldl_cons, List.foldl_nil, htop]
    exact ⟨rfl, .ite (frame_reload ..) (Frame.refl ..)⟩

/-! Dispatch. -/

theorem get_when_event_ne (s : State) (c : Bool) {pg bit : Nat} {f : Fld} (h : f.addr ≠ R.PG_EVT pg) :
    (s.when c (·.event pg bit)).get f = s.get f := by
  cases c
  · rfl
  · exact get_event_ne s pg bit h

/-- A worker with no eligible queue takes nothing. -/
theorem dispatch_of_none (s : State) (w k : Nat) (h : s.eligible w = []) : s.dispatch w k = s := by
  cases k with
  | zero => rfl
  | succ k => rw [dispatch]; simp only [h]

/-- A sample instant changes monitor units alone. -/
theorem frame_monitor (s : State) (src : Nat) (f : Nat → Option Int) : Frame [.mon] [] s (s.monitor src f) := by
  have unit (t : State) (j : Nat) : Frame [.mon] [] t (t.monUnit src f j) := by
    unfold monUnit
    dsimp only
    split
    · split
      · exact frame_of_parts rfl rfl fun p hp => by cases p <;> simp_all [Part.same, byte]
      · exact Frame.refl ..
    · exact Frame.refl ..
  unfold monitor
  generalize 64 = k
  induction k with
  | zero => exact Frame.refl ..
  | succ k ih => exact ih.seq (unit _ k)

/-- Where every queue is empty no worker has an eligible one. -/
theorem eligible_of_empty (s : State) (w : Nat) (h : s.sch.queues = []) : s.eligible w = [] := by
  refine List.filter_eq_nil_iff.mpr fun q _ => ?_
  have : s.queue q = [] := by rw [queue, h]; rfl
  simp [this]

/-- What a dispatch from queue `q` does besides moving the item: it takes a credit, counts, and shows how long the item
waited. -/
def dispatchShown (s : State) (q : Nat) : State :=
  let s := (s.set (F.SCHQ_STAT_CREDIT q) (s.get (F.SCHQ_STAT_CREDIT q) - 1)).count (F.SCHQ_CNT_DISP q)
  let (v, s) := s.free
  let ns := min 65535 v
  let s := (s.set F.SCHG_LAT_LAST ns).set F.SCHG_LAT_WORST (max ns (s.get F.SCHG_LAT_WORST))
  s.monitor 6 fun x => if x = q ∨ x = 32 then some (ns : Int) else none

theorem frame_free (s : State) : Frame [.freeCtr] [] s s.free.2 :=
  frame_of_parts rfl rfl fun p hp => by cases p <;> simp_all [free, Part.same, byte]

theorem frame_dispatchShown (s : State) (q : Nat) :
    Frame [.freeCtr, .mon] [R.SCHQ_STAT q, R.SCHQ_CNT q, R.SCHG_LAT] s (s.dispatchShown q) := by
  have credit := (frame_set s (F.SCHQ_STAT_CREDIT q) (s.get (F.SCHQ_STAT_CREDIT q) - 1)).trans (frame_count _ (F.SCHQ_CNT_DISP q) 1)
  refine ((credit.trans (frame_free _)).trans (((frame_set _ F.SCHG_LAT_LAST _).seq (frame_set _ F.SCHG_LAT_WORST _)).trans
    (frame_monitor _ 6 _))).mono ?_ ?_
  · simp
  · simp [F.SCHQ_STAT_CREDIT, F.SCHQ_CNT_DISP, F.SCHG_LAT_LAST]

theorem get_disp_dispatchShown (s : State) (q : Nat) :
    (s.dispatchShown q).get (F.SCHQ_CNT_DISP q) = (s.get (F.SCHQ_CNT_DISP q) + 1) % 2 ^ 16 := by
  have hlat : R.SCHQ_CNT q ≠ R.SCHG_LAT := by simp only [R.SCHQ_CNT, R.SCHG_LAT]; omega
  have hcredit : R.SCHQ_CNT q ≠ R.SCHQ_STAT q := by simp only [R.SCHQ_CNT, R.SCHQ_STAT]; omega
  let u := (s.set (F.SCHQ_STAT_CREDIT q) (s.get (F.SCHQ_STAT_CREDIT q) - 1)).count (F.SCHQ_CNT_DISP q)
  have shown : Frame [.freeCtr, .mon] [R.SCHG_LAT] u (s.dispatchShown q) :=
    ((frame_free u).trans (((frame_set _ F.SCHG_LAT_LAST _).seq (frame_set _ F.SCHG_LAT_WORST _)).trans
      (frame_monitor _ 6 _))).mono (by simp) (by simp [F.SCHG_LAT_LAST])
  have hu : (s.dispatchShown q).get (F.SCHQ_CNT_DISP q) = u.get (F.SCHQ_CNT_DISP q) :=
    congrArg (getBits · 0 16) (shown.2 (R.SCHQ_CNT q) (by simpa using hlat))
  have hcount : u.get (F.SCHQ_CNT_DISP q) =
      ((s.set (F.SCHQ_STAT_CREDIT q) (s.get (F.SCHQ_STAT_CREDIT q) - 1)).get (F.SCHQ_CNT_DISP q) + 1) % 2 ^ 16 :=
    get_set_same _ (F.SCHQ_CNT_DISP q) _ (Nat.le_add_left 16 16)
  rw [hu, hcount, get_set_ne _ _ hcredit]

/-- The supervisor takes an item: it leaves its queue, goes into service and into the mailbox. -/
theorem dispatchFrom_supervisor (s : State) {q : Nat} {it : Item} {rest : List Item} (hqueue : s.queue q = it :: rest) :
    s.dispatchFrom 0 q =
      let u := (s.setQueue q rest).dispatchShown q
      let u : State := { u with sch := { u.sch with
        svc := u.sch.svc ++ [{ it with ready := u.elapsed }], disp := u.sch.disp.modify 0 (· + 1) } }
      let u := u.when (u.sch.mail == []) (·.event Pg.SCHG 8)
      { u with sch := { u.sch with mail := u.sch.mail ++ [it.slot] } } := by
  rw [dispatchFrom, hqueue]
  rfl

/-- A worker with one eligible queue takes its head. -/
theorem dispatch_of_singleton (s : State) {w q : Nat} (k : Nat) (h : s.eligible w = [q]) :
    s.dispatch w (k + 1) = ((s.choose w [q]).2.dispatchFrom w q).dispatch w k := by
  obtain ⟨hq, -⟩ := choose_singleton s w q
  rw [dispatch]
  simp only [h]
  generalize s.choose w [q] = c at hq ⊢
  obtain ⟨x, u⟩ := c
  cases hq
  rfl

/-- Of the queues, one alone is eligible for the supervisor when it alone holds an item. -/
theorem eligible_of_one (s : State) {q : Nat} {it : Item} (hqueues : s.sch.queues = [(q, [it])]) (hworker : workerOf q = 0)
    (hq : q < 32) (hon : s.is (F.SCHQ_CFG_EN q) = true) (hflow : s.flowBusy it.flow = false) (hmail : s.sch.mail.length < 4) :
    s.eligible 0 = [q] := by
  have hqueue (x : Nat) : s.queue x = if q = x then [it] else [] := by
    simp only [queue, hqueues, kvGet, kvFind]
    split <;> rfl
  have honly : ∀ x ∈ List.range 32, (workerOf x == 0 && s.is (F.SCHQ_CFG_EN x) && match s.queue x with
      | it :: _ => !s.flowBusy it.flow && s.canTake 0 it
      | [] => false) = (x == q) := by
    intro x _
    by_cases h : q = x
    · subst h
      simp [hqueue, hworker, hon, hflow, canTake, hmail]
    · simp [hqueue, h, Ne.symm h]
  have hpick : ∀ q < 32, (List.range 32).filter (· == q) = [q] := by decide
  exact (List.filter_congr honly).trans (hpick q hq)

/-- Of the steps with one item queued, for the supervisor: it is dispatched. -/
theorem schedulerStep_of_one (s : State) {q : Nat} (htime : s.enabled Pg.TIME = false) (hheld : s.sch.held = [])
    (helig : s.eligible 0 = [q])
    (hafter : (((s.choose 0 [q]).2).dispatchFrom 0 q).sch.queues = []) :
    s.schedulerStep = ((s.choose 0 [q]).2).dispatchFrom 0 q := by
  have hretry : s.retryHeld = s := by simp [retryHeld, hheld]
  have hticks : s.ticks = s := by simp [ticks, htime]
  have hidle (w k : Nat) := dispatch_of_none _ w k (eligible_of_empty _ w hafter)
  simp only [schedulerStep, hretry, hticks, forUpTo]
  rw [dispatch_of_singleton s 1023 helig, hidle 0, hidle 1, hidle 2, hidle 3]

/-- What such a step leaves. -/
theorem schedulerStep_supervisor (s : State) {q : Nat} {it : Item} (htime : s.enabled Pg.TIME = false) (hheld : s.sch.held = [])
    (hqueues : s.sch.queues = [(q, [it])]) (helig : s.eligible 0 = [q]) :
    s.schedulerStep.queue q = [] ∧ s.schedulerStep.sch.svc = s.sch.svc ++ [{ it with ready := s.elapsed }] ∧
      s.schedulerStep.sch.mail = s.sch.mail ++ [it.slot] ∧
      s.schedulerStep.get (F.SCHQ_CNT_DISP q) = (s.get (F.SCHQ_CNT_DISP q) + 1) % 2 ^ 16 := by
  obtain ⟨-, hchoice⟩ := choose_singleton s 0 q
  have hsch : (s.choose 0 [q]).2.sch = s.sch := hchoice.1 .sch (by decide)
  have helapsed : (s.choose 0 [q]).2.elapsed = s.elapsed := hchoice.1 .elapsed (by decide)
  have hdisp : (s.choose 0 [q]).2.get (F.SCHQ_CNT_DISP q) = s.get (F.SCHQ_CNT_DISP q) := by
    refine congrArg (getBits · 0 16) (hchoice.2 (R.SCHQ_CNT q) fun hmem => ?_)
    obtain ⟨x, -, hx⟩ := List.mem_map.mp hmem
    simp only [R.SCHQ_CNT, R.SCHQ_STAT] at hx
    omega
  generalize hu : (s.choose 0 [q]).2 = u at *
  have hqueue : u.queue q = [it] := by simp [queue, hsch, hqueues, kvGet, kvFind]
  have hshown := frame_dispatchShown (u.setQueue q []) q
  have hshownSch : ((u.setQueue q []).dispatchShown q).sch = { s.sch with queues := [] } := by
    rw [hshown.1 .sch (by decide), setQueue, hsch, hqueues]
    simp [kvErase]
  have hshownElapsed : ((u.setQueue q []).dispatchShown q).elapsed = s.elapsed := (hshown.1 .elapsed (by decide)).trans helapsed
  have hshownDisp := get_disp_dispatchShown (u.setQueue q []) q
  have hfrom := dispatchFrom_supervisor u hqueue
  have hfromSch : (u.dispatchFrom 0 q).sch = { s.sch with
      queues := [], svc := s.sch.svc ++ [{ it with ready := s.elapsed }], disp := s.sch.disp.modify 0 (· + 1)
      mail := s.sch.mail ++ [it.slot] } := by
    rw [hfrom]
    simp only [when_event_sch, hshownSch, hshownElapsed]
  have hstep := schedulerStep_of_one s htime hheld helig (by rw [hu, hfromSch])
  rw [hstep, hu]
  refine ⟨by rw [queue, hfromSch]; rfl, by rw [hfromSch], by rw [hfromSch], ?_⟩
  have hne : R.SCHQ_CNT q ≠ R.PG_EVT Pg.SCHG := by simp only [R.SCHQ_CNT, R.PG_EVT, Pg.SCHG]; omega
  rw [hfrom]
  exact (get_when_event_ne _ _ hne).trans (hshownDisp.trans (congrArg (fun n => (n + 1) % 2 ^ 16) hdisp))

/-- A step with no eligible queue changes nothing. -/
theorem schedulerStep_of_none (s : State) (htime : s.enabled Pg.TIME = false) (hheld : s.sch.held = [])
    (hnone : ∀ w < 4, s.eligible w = []) : s.schedulerStep = s := by
  have hretry : s.retryHeld = s := by simp [retryHeld, hheld]
  have hticks : s.ticks = s := by simp [ticks, htime]
  simp only [schedulerStep, hretry, hticks, forUpTo]
  rw [dispatch_of_none s 0 _ (hnone 0 (by decide)), dispatch_of_none s 1 _ (hnone 1 (by decide)),
    dispatch_of_none s 2 _ (hnone 2 (by decide)), dispatch_of_none s 3 _ (hnone 3 (by decide))]

/-! Releases. -/

/-- The only list that holds an item has it due. -/
theorem nextDue_of_one (s : State) {it : Item} {rel per : Nat} (hlists : s.sch.lists = [[it], [], [], []])
    (ht : it.timed = some (0, rel, per)) (hdue : relDue s.schedNow rel = true) (hnew : it.ready ≠ s.schedNow) :
    s.nextDue s.schedNow [] = some (0, it) := by
  have hrange : List.range 4 = [0, 1, 2, 3] := rfl
  simp [nextDue, hrange, delayList, hlists, nth, ht, hdue, hnew]

/-- With its list told to wait, nothing is due. -/
theorem nextDue_of_waits (s : State) {it : Item} {t : Nat} (hlists : s.sch.lists = [[it], [], [], []]) :
    s.nextDue t [0] = none := by
  have hrange : List.range 4 = [0, 1, 2, 3] := rfl
  simp [nextDue, hrange, delayList, hlists, nth]

theorem nextDue_of_empty (s : State) {t : Nat} (hlists : s.sch.lists = [[], [], [], []]) : s.nextDue t [] = none := by
  have hrange : List.range 4 = [0, 1, 2, 3] := rfl
  simp [nextDue, hrange, delayList, hlists, nth]

/-- Nothing due, nothing released. -/
theorem releaseDue_of_none (s : State) {t : Nat} (k : Nat) {stuck : List Nat} (h : s.nextDue t stuck = none) :
    s.releaseDue t k stuck = s := by
  cases k with
  | zero => rfl
  | succ k => rw [releaseDue]; simp only [h]

/-- The due item enters its queue. -/
theorem ticks_of_room (s : State) {it : Item} {rel per : Nat} (hon : s.enabled Pg.TIME = true)
    (hlists : s.sch.lists = [[it], [], [], []]) (ht : it.timed = some (0, rel, per)) (hdue : relDue s.schedNow rel = true)
    (hnew : it.ready ≠ s.schedNow) (hroom : s.queueFull it.queue = false) :
    s.ticks = (s.setList 0 []).enqueue it := by
  have hnext := nextDue_of_one s hlists ht hdue hnew
  have htail : (s.delayList 0).tail = [] := by simp [delayList, hlists, nth]
  have hafter : ((s.setList 0 []).enqueue it).sch.lists = [[], [], [], []] := by
    rw [enqueue_sch]
    simp [setQueue, setList, hlists, setAt]
  rw [ticks, if_pos hon, releaseDue]
  simp only [hnext, hroom, Bool.false_eq_true, if_false, htail]
  exact releaseDue_of_none _ _ (nextDue_of_empty _ hafter)

/-- A due item that finds no room makes its list wait. -/
theorem ticks_of_full (s : State) {it : Item} {rel per : Nat} (hon : s.enabled Pg.TIME = true)
    (hlists : s.sch.lists = [[it], [], [], []]) (ht : it.timed = some (0, rel, per)) (hdue : relDue s.schedNow rel = true)
    (hnew : it.ready ≠ s.schedNow) (hfull : s.queueFull it.queue = true) : s.ticks = s.bump (F.SCHG_DL_WAIT 0) := by
  have hnext := nextDue_of_one s hlists ht hdue hnew
  rw [ticks, if_pos hon, releaseDue]
  simp only [hnext, hfull, if_true]
  exact releaseDue_of_none _ _ (nextDue_of_waits _ hlists)

/-- With the TIME page disabled nothing is released. -/
theorem ticks_of_off (s : State) (hoff : s.enabled Pg.TIME = false) : s.ticks = s := by simp [ticks, hoff]

end State

end Sys2Proof.Machine
end

section
/-! PROOFS. The scheduler's statement (O37). -/

namespace Sys2Proof.Machine

open State

/-! Completions and cancels. -/

/-- DONE of an item that is not periodic frees its slot. -/
theorem yields_schgDone_untimed {s : State} {p : Path} {h : Nat} {it : Item} (hpath : s.pathOpen p = true)
    (hnamed : s.named h (s.sch.svc.filter fun x => workerOf x.queue == 0) = some it) (htimed : it.timed = none) :
    Yields (.schgDone p h) s fun t => t.sch.svc = s.sch.svc.filter (fun x => x.slot != it.slot) ∧
      kvGet 0 t.sch.gens it.slot = (kvGet 0 s.sch.gens it.slot + 1) % 64 ∧ t.sch.queues = s.sch.queues ∧
      t.sch.lists = s.sch.lists := by
  have hdone : (s.answering ⟨Code.ok, []⟩).schgDone (h % 65536) =
      ((s.answering ⟨Code.ok, []⟩).outOfService it.slot).freeSlot it.slot := by
    rw [← complete_of_untimed _ htimed]
    simp only [schgDone, named_mod, answering_sch]
    rw [show (s.answering ⟨Code.ok, []⟩).named h _ = some it from hnamed]
  refine yields_schgDone hpath hdone rfl ?_
  rw [settle_sch]
  exact ⟨rfl, gens_freeSlot_same .., rfl, rfl⟩

/-- DONE of a periodic item puts it back on its list. -/
theorem yields_schgDone_periodic {s : State} {p : Path} {h : Nat} {it : Item} {d rel per : Nat} (hpath : s.pathOpen p = true)
    (hnamed : s.named h (s.sch.svc.filter fun x => workerOf x.queue == 0) = some it) (htimed : it.timed = some (d, rel, per))
    (hper : per ≠ 0) (hgone : it.gone = false) :
    Yields (.schgDone p h) s fun t => t.sch.svc = s.sch.svc.filter (fun x => x.slot != it.slot) ∧ t.sch.gens = s.sch.gens ∧
      (t.delayList d).length = (s.delayList d).length + 1 := by
  obtain ⟨c, y, hcomplete⟩ := complete_of_periodic (s.answering ⟨Code.ok, []⟩) htimed hper hgone
  have hdone : (s.answering ⟨Code.ok, []⟩).schgDone (h % 65536) = (s.answering ⟨Code.ok, []⟩).complete it := by
    simp only [schgDone, named_mod, answering_sch]
    rw [show (s.answering ⟨Code.ok, []⟩).named h _ = some it from hnamed]
  have hsch := when_overrun_sch ((s.answering ⟨Code.ok, []⟩).outOfService it.slot) c
  refine yields_schgDone hpath (hdone.trans hcomplete) ?_ ?_
  · exact congrArg Resp.code (when_overrun_resp ((s.answering ⟨Code.ok, []⟩).outOfService it.slot) c)
  · rw [settle_sch, settle_delayList, answering_delayList, length_listInsert]
    have hsvc := congrArg SchSt.svc hsch
    have hgens := congrArg SchSt.gens hsch
    refine ⟨hsvc, hgens, ?_⟩
    rw [delayList, hsch]
    rfl

/-- Any other DONE is counted. -/
theorem yields_schgDone_none {s : State} {p : Path} {h : Nat} (hpath : s.pathOpen p = true)
    (hnamed : s.named h (s.sch.svc.filter fun x => workerOf x.queue == 0) = none) :
    Yields (.schgDone p h) s fun t => t.sch = s.sch ∧
      t.get F.SCHG_CNT_BADDONE = satAdd F.SCHG_CNT_BADDONE.w (s.get F.SCHG_CNT_BADDONE) 1 ∧
      bitOf (t.reg (R.PG_EVT Pg.SCHG)).toNat 13 = true := by
  have hdone : (s.answering ⟨Code.ok, []⟩).schgDone (h % 65536) =
      ((s.answering ⟨Code.ok, []⟩).bump F.SCHG_CNT_BADDONE).event Pg.SCHG 13 := by
    simp only [schgDone, named_mod, answering_sch]
    rw [show (s.answering ⟨Code.ok, []⟩).named h _ = none from hnamed]
  refine yields_schgDone hpath hdone ?_ ?_
  · rw [event_resp]
    rfl
  · rw [settle_sch, settle_get _ (by decide), settle_reg _ (by decide), answering_sch, answering_get, answering_reg, event_sch,
      get_event_ne _ _ _ (by decide), get_bump_same _ _ _ (by decide)]
    exact ⟨rfl, rfl, bitOf_event _ _ (by decide)⟩

/-- A cancel of a handle that names no item. -/
theorem yields_schgCancel_none {s : State} {p : Path} {h : Nat} (hpath : s.pathOpen p = true) (hnamed : s.named h s.items = none) :
    Yields (.schgCancel p h) s fun t => t.items = s.items ∧ kvGet 0 t.sch.canres (pathIdx p) = 0x80000002 := by
  have hcancel : (s.answering ⟨Code.ok, []⟩).schgCancel (pathIdx p) (h % 65536) =
      (s.answering ⟨Code.ok, []⟩).canResult (pathIdx p) 2 := by
    simp only [schgCancel, named_mod]
    rw [show (s.answering ⟨Code.ok, []⟩).named h (s.answering ⟨Code.ok, []⟩).items = none from hnamed]
  refine yields_schgCancel hpath hcancel rfl ?_
  rw [settle_sch, answering_sch, canres_canResult, items_eq, settle_sch]
  exact ⟨rfl, rfl⟩

/-- A cancel of an item in service marks it. -/
theorem yields_schgCancel_served {s : State} {p : Path} {h : Nat} {it : Item} (hpath : s.pathOpen p = true)
    (hnamed : s.named h s.items = some it) (hserved : (s.sch.svc.any fun x => x.slot == it.slot) = true) :
    Yields (.schgCancel p h) s fun t => t.sch.queues = s.sch.queues ∧ t.sch.svc.length = s.sch.svc.length ∧
      (t.sch.svc.all fun x => x.slot != it.slot || x.gone) = true ∧ kvGet 0 t.sch.canres (pathIdx p) = 0x80000001 := by
  let marked : List Item := s.sch.svc.map fun (x : Item) => if x.slot = it.slot then { x with gone := true } else x
  have hcancel : (s.answering ⟨Code.ok, []⟩).schgCancel (pathIdx p) (h % 65536) =
      ({ s.answering ⟨Code.ok, []⟩ with sch := { s.sch with svc := marked } } : State).canResult (pathIdx p) 1 := by
    simp only [schgCancel, named_mod]
    rw [show (s.answering ⟨Code.ok, []⟩).named h (s.answering ⟨Code.ok, []⟩).items = some it from hnamed]
    exact if_pos hserved
  refine yields_schgCancel hpath hcancel rfl ?_
  rw [settle_sch, answering_sch, canres_canResult]
  refine ⟨rfl, List.length_map .., List.all_eq_true.mpr fun y hy => ?_, rfl⟩
  obtain ⟨x, -, rfl⟩ := List.mem_map.mp hy
  by_cases hx : x.slot = it.slot
  · simp [hx]
  · simp [hx]

/-- A cancel of an item that waits drops it. -/
theorem yields_schgCancel_waiting {s : State} {p : Path} {h : Nat} {it : Item} (hpath : s.pathOpen p = true)
    (hnamed : s.named h s.items = some it) (hserved : (s.sch.svc.any fun x => x.slot == it.slot) = false) :
    Yields (.schgCancel p h) s fun t => (t.items.all fun x => x.slot != it.slot) = true ∧
      kvGet 0 t.sch.canres (pathIdx p) = 0x80000000 := by
  have hcancel : (s.answering ⟨Code.ok, []⟩).schgCancel (pathIdx p) (h % 65536) =
      ((s.answering ⟨Code.ok, []⟩).dropItems fun x => x.slot == it.slot).canResult (pathIdx p) 0 := by
    simp only [schgCancel, named_mod]
    rw [show (s.answering ⟨Code.ok, []⟩).named h (s.answering ⟨Code.ok, []⟩).items = some it from hnamed]
    exact if_neg (by simpa using hserved)
  have hkept := itemsWaiting_dropItems (s.answering ⟨Code.ok, []⟩) fun x => x.slot == it.slot
  have hsvc := dropItems_svc (s.answering ⟨Code.ok, []⟩) fun x => x.slot == it.slot
  refine yields_schgCancel hpath hcancel ?_ ?_
  · exact congrArg Resp.code (dropItems_resp ..)
  · rw [settle_sch, answering_sch, canres_canResult]
    refine ⟨List.all_eq_true.mpr fun x hx => ?_, rfl⟩
    rw [items_eq, settle_sch] at hx
    rcases List.mem_append.mp hx with hx | hx
    · have hx : x ∈ ((s.answering ⟨Code.ok, []⟩).dropItems fun x => x.slot == it.slot).itemsWaiting := hx
      rw [hkept] at hx
      simpa [bne] using (List.mem_filter.mp hx).2
    · have hx : x ∈ ((s.answering ⟨Code.ok, []⟩).dropItems fun x => x.slot == it.slot).sch.svc := hx
      rw [hsvc] at hx
      simpa using List.any_eq_false.mp hserved x hx

/-! The mailbox, the step, the releases and an item in service for too long. -/

/-- SCHG_TAKE hands over the oldest entry of the mailbox. -/
theorem yields_schgTake_of_mail {s : State} {p : Path} {slot : Nat} {l : List Nat} {it : Item} (hpath : s.pathOpen p = true)
    (hmail : s.sch.mail = slot :: l) (hfind : s.sch.svc.find? (fun x => x.slot == slot) = some it) (htimed : it.timed = none) :
    Yields (.schgTake p) s fun t => t.sch.mail = l ∧ t.sch.svc = s.sch.svc ∧
      t.resp = ⟨Code.ok, [BitVec.ofNat 32 (s.handleOf slot)]⟩ ∧ t.reg (R.SCHG_TW 0) = BitVec.ofNat 32 (it.flow + it.type <<< 16) ∧
      t.reg (R.SCHG_TW 1) = it.arg ∧ t.reg (R.SCHG_TW 2) = BitVec.ofNat 32 it.queue := by
  refine yields_schgTake hpath ?_
  rw [schgTake_of_mail s hmail hfind htimed, settle_sch, settle_resp, settle_reg _ (by decide), settle_reg _ (by decide),
    settle_reg _ (by decide)]
  refine ⟨rfl, rfl, rfl, ?_, ?_, ?_⟩
  · rw [answering_reg, reg_setReg_ne _ _ (by decide), reg_setReg_ne _ _ (by decide), reg_setReg_ne _ _ (by decide), reg_setReg_same]
  · rw [answering_reg, reg_setReg_ne _ _ (by decide), reg_setReg_ne _ _ (by decide), reg_setReg_same]
  · rw [answering_reg, reg_setReg_ne _ _ (by decide), reg_setReg_same]

/-- A supervisor's item in service for too long is told. -/
theorem yields_itemStuck {s : State} {slot : Nat} {it : Item} (hon : s.schedOn = true)
    (hfind : s.sch.svc.find? (fun x => x.slot == slot && workerOf x.queue == 0 && !x.stuck) = some it) :
    Yields (.itemStuck slot) s fun t => t.get F.SCHG_CNT_STUCKS = satAdd F.SCHG_CNT_STUCKS.w (s.get F.SCHG_CNT_STUCKS) 1 ∧
      bitOf (t.reg (R.PG_EVT Pg.SCHG)).toNat 12 = true ∧ t.sch.svc.length = s.sch.svc.length ∧
      (t.sch.svc.all fun x => x.slot != slot || x.stuck) = true ∧ t.sch.queues = s.sch.queues := by
  let v := s.timerEnds (it.ready + s.stuckTime)
  let u : State := { v with sch := { v.sch with
    svc := v.sch.svc.map fun (x : Item) => if x.slot = slot then { x with stuck := true } else x } }
  have hstuck : s.itemStuck slot =
      ((u.event Pg.SCHG 12).bump F.SCHG_CNT_STUCKS).errArrive 0 0x0C 0xFF (u.handleOf slot) := by
    simp only [itemStuck, hfind]
    rfl
  have herr := frame_errArrive ((u.event Pg.SCHG 12).bump F.SCHG_CNT_STUCKS) 0 0x0C 0xFF (u.handleOf slot)
  have hsch : (s.itemStuck slot).sch = u.sch := by
    rw [hstuck, herr.1 .sch (by decide), bump_sch, event_sch]
  refine yields_of_act (exec_itemStuck slot s) hon ?_
  rw [settle_sch, settle_get _ (by decide), settle_reg _ (by decide), hsch]
  refine ⟨?_, ?_, List.length_map .., List.all_eq_true.mpr fun y hy => ?_, rfl⟩
  · have hreg : (s.itemStuck slot).get F.SCHG_CNT_STUCKS = ((u.event Pg.SCHG 12).bump F.SCHG_CNT_STUCKS).get F.SCHG_CNT_STUCKS := by
      rw [hstuck]
      exact congrArg (getBits · 16 8) (herr.2 R.SCHG_CNT (by decide))
    rw [hreg, get_bump_same _ _ _ (by decide), get_event_ne _ _ _ (by decide)]
    rfl
  · rw [hstuck, herr.2 (R.PG_EVT Pg.SCHG) (by decide), bump, reg_set_ne _ _ (by decide)]
    exact bitOf_event _ _ (by decide)
  · obtain ⟨x, -, rfl⟩ := List.mem_map.mp hy
    by_cases hx : x.slot = slot
    · simp [hx]
    · simp [hx]

/-- Settles O37: submissions (`submit_of_room`, `submit_of_listRoom` and the refusals), arrivals (`arrive_eq`), the mailbox,
completions and cancels are rules of their own; a step with one item queued dispatches it (`schedulerStep_supervisor`), and
the ticks release a due item or make it wait (`ticks_of_room`, `ticks_of_full`). -/
theorem schedulerItems : Obligations.SchedulerItems := by
  have hfullWord : subresWord 0 1 = 0x80010000 := by decide
  have hrangeWord : subresWord 0 3 = 0x80030000 := by decide
  unfold Obligations.SchedulerItems
  refine ⟨fun s p d hpath ht hroom hfree => yields_schedSubmit_of_room hpath ht hroom hfree,
    fun s p d hpath ht hfull => ?_,
    fun s p d hpath ht hlate hrange hroom hfree => yields_schedSubmit_of_listRoom hpath ht hlate hrange hroom hfree,
    fun s p d hpath ht hlate hrange => ?_,
    fun s q f a halive hq hhw hkind hroom hfree => yields_hwArrival_of_room f a halive hq hhw hkind hroom hfree,
    fun s q f a halive hq hhw hkind hfull => yields_hwArrival_of_full f a halive hq hhw hkind hfull,
    fun s p slot l it hpath hmail hfind ht => yields_schgTake_of_mail hpath hmail hfind ht,
    fun s p hpath hmail => yields_schgTake hpath ?_,
    fun s p h it hpath hnamed ht => yields_schgDone_untimed hpath hnamed ht,
    fun s p h it d rel per hpath hnamed ht hper hgone => yields_schgDone_periodic hpath hnamed ht hper hgone,
    fun s p h hpath hnamed => yields_schgDone_none hpath hnamed,
    fun s p h hpath hnamed => yields_schgCancel_none hpath hnamed,
    fun s p h it hpath hnamed hserved => yields_schgCancel_served hpath hnamed hserved,
    fun s p h it hpath hnamed hserved => yields_schgCancel_waiting hpath hnamed hserved,
    fun s q it hon htime hheld hqueues hworker hq hen hflow hmail => ?_,
    fun s hon htime hheld hnone => ?_, fun s it rel per hon htime hlists ht hdue hnew hroom => ?_,
    fun s it rel per hon htime hlists ht hdue hnew hfull => ?_, fun s hs hoff => ?_,
    fun s slot it hon hfind => yields_itemStuck hon hfind⟩
  · obtain ⟨t, ht, hqueues, hlists, hres, hevent⟩ := yields_schedSubmit_of_refused hpath (submit_of_full (s.answering ⟨Code.ok, []⟩) (pathIdx p) d ht hfull)
    exact ⟨t, ht, hqueues, hlists, hres.trans hfullWord, hevent⟩
  · have refused := yields_schedSubmit_of_refused hpath (submit_of_range (s.answering ⟨Code.ok, []⟩) (pathIdx p) d ht hlate hrange)
    obtain ⟨t, ht, hqueues, hlists, hres, -⟩ := refused
    exact ⟨t, ht, hqueues, hlists, hres.trans hrangeWord⟩
  · rw [schgTake_of_empty s hmail, settle_sch, settle_resp]
    exact ⟨rfl, rfl⟩
  · have helig := eligible_of_one s hqueues hworker hq hen hflow hmail
    obtain ⟨hqueue, hsvc, hmailbox, hdisp⟩ := schedulerStep_supervisor s htime hheld hqueues helig
    have hplain : ∀ q < 32, (F.SCHQ_CNT_DISP q).addr ∉ settleRegs := by decide
    refine yields_of_act (exec_schedulerStep s) hon ?_
    rw [settle_queue, settle_sch, settle_get _ (hplain q hq)]
    exact ⟨hqueue, hsvc, hmailbox, hdisp⟩
  · have hstep := schedulerStep_of_none s htime hheld fun w hw => by
      simpa using List.all_eq_true.mp hnone w (List.mem_range.mpr hw)
    refine yields_of_act (exec_schedulerStep s) hon ?_
    rw [hstep, settle_sch]
    exact ⟨rfl, settle_mem s⟩
  · refine yields_of_act (exec_delayRelease s) hon ?_
    rw [ticks_of_room s htime hlists ht hdue hnew hroom, settle_queue, settle_sch]
    refine ⟨queue_enqueue (s.setList 0 []) it, ?_⟩
    rw [enqueue_sch]
    simp [setQueue, setList, hlists, setAt]
  · refine yields_of_act (exec_delayRelease s) hon ?_
    rw [ticks_of_full s htime hlists ht hdue hnew hfull, settle_sch, settle_get _ (by decide)]
    exact ⟨rfl, get_bump_same _ _ _ (by decide)⟩
  · rw [exec_delayRelease, execDelayRelease, act]
    split
    · rw [ticks_of_off s hoff, hs]
    · rfl

end Sys2Proof.Machine
end

section
/-! PROOFS. The hardwired logic behind every step (R471, R478, R479, R513, R519, R521, R564, R566, R687): what it forces is in
force after it, so that it does nothing a second time, and a cell and a hub behind it are safe. -/

namespace Sys2Proof.Machine

namespace State

/-! A cell: levels, DB and the history of states. -/

/-- A gate block that is blocked already is not changed by blocking it. -/
theorem blocked_eq_self {g : GateSt} {a b : Leg} (hstate : g.state = .block) (hblocked : g.blocked = true)
    (hA : a = g.legA) (hB : b = g.legB) (hriseA : g.riseA = none) (hriseB : g.riseB = none) :
    ({ g with state := .block, blocked := true, legA := a, legB := b, riseA := none, riseB := none } : GateSt) = g := by
  rw [← hstate, ← hblocked, hA, hB, ← hriseA]
  cases g
  simp_all

/-- What the fault logic and block forcing impose on a gate block. -/
def Imposed (s : State) (g : GateSt) : Prop :=
  ((g.pbyp = true ∨ g.latch ≠ 0 ∨ s.blkForced = true) → g.state = .block ∧ g.blocked = true ∧ g.riseA = none ∧ g.riseB = none) ∧
  ((g.pbyp = true ∨ (g.latch = 0 ∧ s.blkForced = true)) → g.legA = .off ∧ g.legB = .off) ∧
  (g.pbyp = false → g.latch ≠ 0 →
    forceLeg g.legA (s.safeLeg false) g.safeOn = g.legA ∧ forceLeg g.legB (s.safeLeg true) g.safeOn = g.legB)

/-- A leg that the fault logic has forced is not forced further. -/
theorem forceLeg_forceLeg (now safe : Leg) (on : Bool) : forceLeg (forceLeg now safe on) safe on = forceLeg now safe on := by
  unfold forceLeg
  by_cases h : now = safe ∨ on = true
  · rw [if_pos h, if_pos (.inl rfl)]
  · rw [if_neg h]
    by_cases hoff : Leg.off = safe
    · rw [if_pos (.inl hoff), hoff]
    · rw [if_neg (not_or.mpr ⟨hoff, fun hon => h (.inr hon)⟩)]

/-- After `forceGates` the levels are those imposed. -/
theorem imposed_forceGates (s : State) : s.Imposed s.forceGates.gate := by
  unfold forceGates
  by_cases hp : s.gate.pbyp = true
  · rw [if_pos hp]
    exact ⟨fun _ => ⟨rfl, rfl, rfl, rfl⟩, fun _ => ⟨rfl, rfl⟩, fun h => absurd (hp.symm.trans h) (by decide)⟩
  · rw [if_neg hp]
    by_cases hl : s.gate.latch ≠ 0
    · rw [if_pos hl]
      exact ⟨fun _ => ⟨rfl, rfl, rfl, rfl⟩, fun h => absurd h (not_or.mpr ⟨hp, fun h => hl h.1⟩),
        fun _ _ => ⟨forceLeg_forceLeg .., forceLeg_forceLeg ..⟩⟩
    · rw [if_neg hl]
      by_cases hb : s.blkForced = true
      · rw [if_pos hb]
        exact ⟨fun _ => ⟨rfl, rfl, rfl, rfl⟩, fun _ => ⟨rfl, rfl⟩, fun _ h => absurd h hl⟩
      · rw [if_neg hb]
        exact ⟨fun h => absurd h (not_or.mpr ⟨hp, not_or.mpr ⟨hl, hb⟩⟩),
          fun h => absurd h (not_or.mpr ⟨hp, fun h => hb h.2⟩), fun _ h => absurd h hl⟩

/-- Where the levels are those imposed, `forceGates` does nothing. -/
theorem forceGates_of_imposed {s : State} (h : s.Imposed s.gate) : s.forceGates = s := by
  obtain ⟨hblock, hoff, hsafe⟩ := h
  have hgate : s.forceGates.gate = s.gate := by
    unfold forceGates
    by_cases hp : s.gate.pbyp = true
    · obtain ⟨hstate, hblocked, hriseA, hriseB⟩ := hblock (.inl hp)
      obtain ⟨hA, hB⟩ := hoff (.inl hp)
      rw [if_pos hp]
      exact blocked_eq_self hstate hblocked hA.symm hB.symm hriseA hriseB
    · rw [if_neg hp]
      by_cases hl : s.gate.latch ≠ 0
      · obtain ⟨hstate, hblocked, hriseA, hriseB⟩ := hblock (.inr (.inl hl))
        obtain ⟨hA, hB⟩ := hsafe (eq_false_of_ne_true hp) hl
        rw [if_pos hl]
        exact blocked_eq_self hstate hblocked hA hB hriseA hriseB
      · rw [if_neg hl]
        by_cases hb : s.blkForced = true
        · obtain ⟨hstate, hblocked, hriseA, hriseB⟩ := hblock (.inr (.inr hb))
          obtain ⟨hA, hB⟩ := hoff (.inr ⟨not_not.mp hl, hb⟩)
          rw [if_pos hb]
          exact blocked_eq_self hstate hblocked hA.symm hB.symm hriseA hriseB
        · rw [if_neg hb]
  rw [forceGates_eq, hgate]

/-- DB is clear under a latched fault, the permanent bypass and block forcing. -/
theorem forceDb_db {s : State} (h : s.gate.pbyp = true ∨ s.gate.latch ≠ 0 ∨ s.blkForced = true) : s.forceDb.safe.db = false := by
  have hc : s.gate.latch ≠ 0 ∨ s.gate.pbyp = true ∨ s.blkForced = true := by tauto
  rw [forceDb, if_pos hc]

theorem forceDb_of_clear {s : State}
    (h : s.gate.pbyp = true ∨ s.gate.latch ≠ 0 ∨ s.blkForced = true → s.safe.db = false) : s.forceDb = s := by
  have hsafe : s.forceDb.safe = s.safe := by
    unfold forceDb
    split
    next hc =>
      have hdb := h (by tauto)
      rw [← hdb]
    next => rfl
  rw [forceDb_eq, hsafe]

/-- Recording the state changes the history alone. -/
theorem recordState_gate (s : State) : s.recordState.gate = { s.gate with hist := s.recordState.gate.hist } := by
  unfold recordState
  split
  · split <;> rfl
  · rfl

/-- The history shows the state in force. -/
theorem recordState_hist (s : State) : ∃ t l, s.recordState.gate.hist = (t, s.gate.state) :: l := by
  unfold recordState
  split
  next t st l hhist =>
    split
    next hst => exact ⟨t, l, by rw [hhist, hst]⟩
    next => exact ⟨_, _, rfl⟩
  next => exact ⟨_, _, rfl⟩

theorem recordState_of_hist {s : State} {t : Nat} {l : List (Nat × CellState)} (h : s.gate.hist = (t, s.gate.state) :: l) :
    s.recordState = s := by
  unfold recordState
  split
  next t' st l' hhist =>
    rw [hhist] at h
    cases h
    exact if_pos rfl
  next hhist =>
    rw [hhist] at h
    cases h

/-- What the hardwired logic of a cell leaves: the levels imposed, DB clear where it has to be, the state in the history. -/
structure CellSettled (s : State) : Prop where
  levels : s.Imposed s.gate
  db : s.gate.pbyp = true ∨ s.gate.latch ≠ 0 ∨ s.blkForced = true → s.safe.db = false
  hist : ∃ t l, s.gate.hist = (t, s.gate.state) :: l

theorem cellSettled_settle {s : State} (hc : s.role = .cell) : s.settle.CellSettled := by
  rw [settle_cell hc]
  let u := s.forceGates.forceDb
  have hgates : s.Imposed s.forceGates.gate := imposed_forceGates s
  have hu : u.gate = s.forceGates.gate := by rw [show u = s.forceGates.forceDb from rfl, forceDb_eq]
  have hforcedGates : s.forceGates.blkForced = s.blkForced := by rw [forceGates_eq]; rfl
  have hforcedU : u.blkForced = s.blkForced := by
    rw [← hforcedGates, show u = s.forceGates.forceDb from rfl, forceDb_eq]
    unfold forceDb
    split <;> rfl
  have hlegU (b : Bool) : u.safeLeg b = s.safeLeg b := by
    rw [show u = s.forceGates.forceDb from rfl, forceDb_eq, forceGates_eq]
    rfl
  have himposed : u.Imposed u.gate := by
    unfold Imposed
    rw [hu, hforcedU, hlegU, hlegU]
    exact hgates
  have hrecord : u.recordState = { u with gate := { u.gate with hist := u.recordState.gate.hist } } := by
    rw [recordState_eq, ← recordState_gate]
  obtain ⟨t, l, hhist⟩ := recordState_hist u
  rw [show s.forceGates.forceDb.recordState = u.recordState from rfl, hrecord]
  refine ⟨himposed, fun h => ?_, t, l, hhist⟩
  refine forceDb_db (s := s.forceGates) ?_
  rw [hforcedGates, ← hforcedU, ← hu]
  exact h

theorem CellSettled.settled {s : State} (hc : s.role = .cell) (h : s.CellSettled) : s.Settled := by
  obtain ⟨t, l, hhist⟩ := h.hist
  rw [Settled, settle_cell hc, forceGates_of_imposed h.levels, forceDb_of_clear h.db, recordState_of_hist hhist]

theorem CellSettled.safe {s : State} (h : s.CellSettled) : s.CellSafe := by
  intro _
  obtain ⟨hblock, hoff, hsafe⟩ := h.levels
  refine ⟨fun hf => ?_, hoff, fun hp hl => ?_⟩
  · obtain ⟨hstate, hblocked, -, -⟩ := hblock hf
    exact ⟨hstate, hblocked, h.db hf⟩
  · obtain ⟨hA, hB⟩ := hsafe hp hl
    exact ⟨hA ▸ forceLeg_cases .., hB ▸ forceLeg_cases ..⟩

/-! A hub: self-arbitration, valve block and the reclaim. -/

/-- Is self-arbitration to begin (R564)? -/
def selfDue (s : State) : Bool :=
  s.twin.refLost && s.is F.SYS_TOPO_TWIN && s.is F.TWIN_ARB_SELFEN && !s.is F.TWIN_STAT_SELF
    && ((match s.twin.status with | some t => !bitOf t.health 5 | none => false) || !s.is F.TWIN_STAT_BOND)

theorem selfEnter_eq (s : State) :
    s.selfEnter = if s.selfDue then ((s.set F.TWIN_STAT_SELF 1).event Pg.REF 8).event Pg.TWIN 13 else s := rfl

/-- Is VB to fall (R513)? -/
def vbFalls (s : State) : Prop := s.safe.vb = true ∧ (s.safe.alatch ≠ 0 ∨ s.safe.breq = true ∨ s.hubDrives = false)

/-- A step of the hub's logic that writes neither TWIN_STAT, SYS_TOPO, TWIN_ARB nor the twin block but the instant of the
reclaim leaves what the others of its steps read. -/
theorem selfDue_congr {s t : State} (htwin : t.twin = { s.twin with reclaimAt := t.twin.reclaimAt })
    (hreg : ∀ a ∈ [R.SYS_TOPO, R.TWIN_ARB, R.TWIN_STAT], t.reg a = s.reg a) : t.selfDue = s.selfDue := by
  have htopo := hreg R.SYS_TOPO (by decide)
  have harb := hreg R.TWIN_ARB (by decide)
  have hstat := hreg R.TWIN_STAT (by decide)
  rw [selfDue, htwin]
  simp only [selfDue, State.is, get, F.SYS_TOPO_TWIN, F.TWIN_ARB_SELFEN, F.TWIN_STAT_SELF, F.TWIN_STAT_BOND, htopo, harb, hstat]

theorem selfDue_forceVb (s : State) : s.forceVb.selfDue = s.selfDue := by
  have h := frame_forceVb s
  have htwin : s.forceVb.twin = s.twin := h.1 .twin (by decide)
  exact selfDue_congr (by rw [htwin]) fun a ha => h.2 a fun hmem => by
    rw [List.mem_singleton.mp hmem] at ha
    exact absurd ha (by decide)

theorem selfDue_markReclaim (s : State) : s.markReclaim.selfDue = s.selfDue := by
  refine selfDue_congr ?_ fun a _ => (frame_markReclaim s).2 a (by simp)
  unfold markReclaim
  split <;> rfl

/-- Once it has begun it is not to begin again. -/
theorem selfDue_selfEnter (s : State) : s.selfEnter.selfDue = false := by
  rw [selfEnter_eq]
  by_cases h : s.selfDue = true
  · rw [if_pos h]
    have hself : (((s.set F.TWIN_STAT_SELF 1).event Pg.REF 8).event Pg.TWIN 13).is F.TWIN_STAT_SELF = true := by
      rw [State.is, get_event_ne _ _ _ (by decide), get_event_ne _ _ _ (by decide), get_set_same _ _ _ (by decide)]
      rfl
    simp [selfDue, hself]
  · rw [if_neg h]
    exact eq_false_of_ne_true h

theorem selfEnter_of_not_due {s : State} (h : s.selfDue = false) : s.selfEnter = s := by rw [selfEnter_eq, if_neg (by simp [h])]

theorem not_vbFalls_forceVb (s : State) : ¬ s.forceVb.vbFalls := by
  unfold forceVb
  split
  next => simp [vbFalls, withdrawDeblocks]
  next h => exact fun hf => h (by simpa [vbFalls] using hf)

theorem forceVb_of_not_falls {s : State} (h : ¬ s.vbFalls) : s.forceVb = s := by
  unfold forceVb
  exact if_neg fun hf => h (by simpa [vbFalls] using hf)

theorem vbFalls_markReclaim (s : State) : s.markReclaim.vbFalls ↔ s.vbFalls := by
  unfold markReclaim
  split <;> rfl

/-- The instant of the reclaim is noted exactly while the reclaim is due (R566). -/
def ReclaimNoted (s : State) : Prop := s.reclaimHolds = s.twin.reclaimAt.isSome

theorem reclaimNoted_markReclaim (s : State) : s.markReclaim.ReclaimNoted := by
  by_cases h : s.reclaimHolds = s.twin.reclaimAt.isSome
  · rw [markReclaim, if_pos h]
    exact h
  · let u : State := { s with twin := { s.twin with reclaimAt := if s.reclaimHolds then some s.elapsed else none } }
    have hu : s.markReclaim = u := by rw [markReclaim, if_neg h]
    rw [hu]
    change s.reclaimHolds = (if s.reclaimHolds then some s.elapsed else none).isSome
    cases s.reclaimHolds <;> rfl

theorem markReclaim_of_noted {s : State} (h : s.ReclaimNoted) : s.markReclaim = s := if_pos h

/-- What the hardwired logic of a hub leaves: no self-arbitration to begin, no VB to fall, the reclaim noted. -/
structure HubSettled (s : State) : Prop where
  self : s.selfDue = false
  vb : ¬ s.vbFalls
  reclaim : s.ReclaimNoted

theorem hubSettled_settle {s : State} (hh : s.role = .hub) : s.settle.HubSettled := by
  rw [settle_hub hh]
  refine ⟨?_, (vbFalls_markReclaim _).not.mpr (not_vbFalls_forceVb _), reclaimNoted_markReclaim _⟩
  rw [selfDue_markReclaim, selfDue_forceVb, selfDue_selfEnter]

theorem HubSettled.settled {s : State} (hh : s.role = .hub) (h : s.HubSettled) : s.Settled := by
  rw [Settled, settle_hub hh, selfEnter_of_not_due h.self, forceVb_of_not_falls h.vb, markReclaim_of_noted h.reclaim]

theorem HubSafe.of_not_vbFalls {s : State} (h : ¬ s.vbFalls) : s.HubSafe := by
  intro _ hvb
  simpa [vbFalls, hvb] using h

/-! Every role. -/

theorem settled_of_other {s : State} (hc : s.role ≠ .cell) (hh : s.role ≠ .hub) : s.Settled := settle_other hc hh

/-- Settling settles. -/
theorem settled_settle (s : State) : s.settle.Settled := by
  by_cases hc : s.role = .cell
  · exact (cellSettled_settle hc).settled (by rw [settle_role, hc])
  · by_cases hh : s.role = .hub
    · exact (hubSettled_settle hh).settled (by rw [settle_role, hh])
    · exact settled_of_other (by rwa [settle_role]) (by rwa [settle_role])

/-- The hardwired logic does not read the queue of commands. -/
theorem Settled.withQueue {s : State} (h : s.Settled) (queue : List Instr) : ({ s with pending := queue } : State).Settled := by
  by_cases hc : s.role = .cell
  · obtain ⟨hlevels, hdb, hhist⟩ : s.CellSettled := h ▸ cellSettled_settle hc
    exact CellSettled.settled (s := { s with pending := queue }) hc ⟨hlevels, hdb, hhist⟩
  · by_cases hh : s.role = .hub
    · obtain ⟨hself, hvb, hreclaim⟩ : s.HubSettled := h ▸ hubSettled_settle hh
      exact HubSettled.settled (s := { s with pending := queue }) hh ⟨hself, hvb, hreclaim⟩
    · exact settled_of_other (s := { s with pending := queue }) hc hh

theorem cellSafe_settle (s : State) : s.settle.CellSafe := by
  by_cases hc : s.role = .cell
  · exact (cellSettled_settle hc).safe
  · exact fun hcell => absurd (by simpa [isCell] using hcell) hc

theorem hubSafe_settle (s : State) : s.settle.HubSafe := by
  by_cases hh : s.role = .hub
  · exact .of_not_vbFalls (hubSettled_settle hh).vb
  · intro hhub
    have hrole : s.settle.role = .hub := by simpa [isHub] using hhub
    exact absurd ((settle_role s).symm.trans hrole) hh

end State

/-! Every command. -/

/-- A command leaves the state as it is, or what it does is settled. -/
def Settles (s : State) (o : Out) : Prop := o = .next s ∨ ∃ u : State, o = .next u.settle

namespace Settles

theorem self (s : State) : Settles s (.next s) := .inl rfl

theorem act (s : State) (c : Bool) (f : State → State) : Settles s (Machine.act s c f) := by
  unfold Machine.act
  split
  · exact .inr ⟨f s, rfl⟩
  · exact .inl rfl

theorem runEvent (s : State) (p : EvAct → Bool) (f : State → CellEvent → State) : Settles s (Machine.runEvent s p f) := by
  unfold Machine.runEvent
  split
  · exact act ..
  · exact self s

theorem writeRow (s : State) (path : Path) (addr : Nat) (data : Word) : Settles s (Machine.writeRow s path addr data) :=
  .act ..

theorem readRow (s : State) (path : Path) (addr : Nat) : Settles s (Machine.readRow s path addr) := .act ..

/-- The search of the launch is a variable here, which the kernel would otherwise run on its fuel. -/
theorem boardingBurstTx (s : State) (uplink : Nat) : Settles s (execBoardingBurstTx uplink s) := by
  obtain ⟨f, hf⟩ : ∃ f, f = execBoardingBurstTx := ⟨_, rfl⟩
  obtain ⟨search, hsearch⟩ : ∃ g, g = @State.nextBy := ⟨_, rfl⟩
  rw [← hf]
  delta execBoardingBurstTx at hf
  rw [hf, ← hsearch]
  beta_reduce
  split
  exacts [act .., self s]

end Settles

/-- Every command acts through the hardwired logic or not at all. -/
theorem exec_settles (c : Instr) (s : State) : Settles s (exec c s) := by
  cases c with (dsimp only [exec])
  | clkDomWrite | pgCommitRequest | pageSrst | pageHold | pageEnable | pgEvtSet | guardLock | hostEnable | releaseRequest
    | treeRaGo | gpioFnWrite | uartTxWrite | presenceClose | secOwnRevoke | attestationGo | recordExport | recordRestore |
    otpProgram | debugUnlock | debugRelock | lanePwrRequest | eyeScanGo | prbsInject | prbsClear | timeIncWrite |
    timeCmdStep | timeCmdSet | enrolmentWindowOpen | enrolmentWindowClose | berthCmdRd | berthCmdWr | berthCmdClrcnt |
    protectiveCommand | modeChangeGo | rankCmdRd | rankCmdWr | rankCmdSetc | rankCmdSetv | programLoad | handoverGo |
    handoverAbort | sigdataWrite | chainQueueWrite | chainCmdRd | rcuClear | injectorGo | injectorStop | freqResponseGo |
    gateFclr | tevArm | tevDisarm | hubDeblock | hubAclr | hubBset | hubBclr | singleBerthDeblock | cellDeblock |
    cellBlock | cellPermBypass | schedSubmit | schgDone | schgCancel | schqFlush | memLockOpen | memLockClose | errPop |
    errAck | errSwlog | recForce | recRel | recRelall | bbRearm | monSnap | ltAdd | ltLock | stnRekey | stnClrcnt | txPost =>
    exact .writeRow ..
  | urxRead | timeNowRead | tsqPop | schgTake => exact .readRow ..
  | eventByp | eventInsPos | eventInsNeg | eventBlockCell | eventFireThy | eventPermBypass | eventSwapHead | eventTrim =>
    exact .runEvent ..
  | payloadBuild => unfold execPayloadBuild; split; exacts [.act .., .self s]
  | reportBurstTx => unfold execReportBurstTx; split; exacts [.act .., .self s]
  | mgmtBurstTx => unfold execMgmtBurstTx; split; exacts [.act .., .self s]
  | trimEnd => unfold execTrimEnd; split; exacts [.act .., .self s]
  | searchStep => unfold execSearchStep; split; exacts [.act .., .self s]
  | stageB => unfold execStageB; split; exacts [.act .., .self s]
  | stageD => unfold execStageD; split; exacts [.act .., .self s]
  | stageE => unfold execStageE; split; exacts [.act .., .self s]
  | stageF => unfold execStageF; split; exacts [.act .., .self s]
  | carrierEpoch => unfold execCarrierEpoch; split; exacts [.act .., .self s]
  | carrierSample => unfold execCarrierSample; split; exacts [.act .., .self s]
  | chunkStored => unfold execChunkStored; split; exacts [.act .., .self s]
  | mgmtResponseTx => unfold execMgmtResponseTx; split; exacts [.act .., .self s]
  | svFrameRx => unfold execSvFrameRx; split; exacts [.act .., .self s]
  | tevPulseEnd => unfold execTevPulseEnd; split; exacts [.act .., .self s]
  | boardingBurstTx => exact .boardingBurstTx ..
  | rangingBurstTx =>
    unfold execRangingBurstTx
    split
    · split
      exacts [.act .., .self s]
    · exact .self s
  | rxToRing => unfold execRxToRing; split; exacts [.act .., .act .., .self s]
  | babblerSearchGo => unfold execBabblerSearchGo; split; exacts [.writeRow .., .act ..]
  | meridian => unfold execMeridian; split; exacts [.act .., .act ..]
  | refereeKx => unfold execRefereeKx; split; exacts [.act .., .act ..]
  | comparatorAssert => unfold execComparatorAssert; exact .act ..
  | comparatorDeassert => unfold execComparatorDeassert; exact .act ..
  | _ => exact .act ..

/-- A step leaves all but the queue as it is, or what it does is settled. -/
theorem step_settles (s : State) :
    ∃ t, step s = .next t ∧ ((∃ queue, t = { s with pending := queue }) ∨ ∃ u : State, t = u.settle) := by
  cases hq : s.pending with
  | nil => exact ⟨_, step_of_idle hq, .inr ⟨_, rfl⟩⟩
  | cons c rest =>
    have hstep : step s = exec c { s with pending := rest } := by simp only [step, hq]
    rw [hstep]
    obtain h | ⟨u, h⟩ := exec_settles c { s with pending := rest }
    · exact ⟨_, h, .inl ⟨rest, rfl⟩⟩
    · exact ⟨_, h, .inr ⟨u, rfl⟩⟩

/-- Settles O51: a step leaves all but the queue as it is, which safety does not read, or what it does is settled, and
behind the hardwired logic a cell and a hub are safe. -/
theorem stepKeepsSafety : Obligations.StepKeepsSafety := by
  unfold Obligations.StepKeepsSafety
  intro s hcell hhub
  obtain ⟨t, ht, ⟨queue, rfl⟩ | ⟨u, rfl⟩⟩ := step_settles s
  · exact ⟨_, ht, hcell, hhub⟩
  · exact ⟨_, ht, u.cellSafe_settle, u.hubSafe_settle⟩

/-- Settles O52: the hardwired logic acts behind every step, does nothing a second time and has a frame. -/
theorem stepSettles : Obligations.StepSettles := by
  unfold Obligations.StepSettles
  refine ⟨fun s hs => ?_, State.settled_settle, fun s => ⟨frame_settle s, State.settle_twin s⟩⟩
  obtain ⟨t, ht, ⟨queue, rfl⟩ | ⟨u, rfl⟩⟩ := step_settles s
  · exact ⟨_, ht, hs.withQueue queue⟩
  · exact ⟨_, ht, u.settled_settle⟩

end Sys2Proof.Machine
end

section
/-! PROOFS. The converters and their accumulators (R490, R491, R495, R501). -/

namespace Sys2Proof.Machine

theorem nth_setAt_ne {α : Type} (d : α) (l : List α) {i j : Nat} (x : α) (h : j ≠ i) : nth (setAt d l i x) j d = nth l j d := by
  induction l, i, x using setAt.induct generalizing j with
  | case1 =>
    obtain ⟨j, rfl⟩ := Nat.exists_eq_succ_of_ne_zero h
    cases j <;> rfl
  | case2 i x ih =>
    cases j with
    | zero => rfl
    | succ j =>
      have := ih (j := j) (by omega)
      cases j <;> simpa [setAt, nth] using this
  | case3 y l x =>
    obtain ⟨j, rfl⟩ := Nat.exists_eq_succ_of_ne_zero h
    rfl
  | case4 y l i x ih =>
    cases j with
    | zero => rfl
    | succ j => exact ih (j := j) (by omega)

namespace State

/-- An accumulator with one result more. -/
def accWith (a : Acc) (x : Int) : Acc :=
  { a with
    sum := a.sum + x, count := a.count + 1,
    lo := if a.count = 0 then x else min a.lo x, hi := if a.count = 0 then x else max a.hi x }

/-- A result whose instant lies in the window in progress closes none. -/
theorem accumulate_of_lt {s : State} {c : Nat} (x : Int) {i : Nat} (h : i < (s.acc c).stop) :
    s.accumulate c x i = s.setAcc c (accWith (s.acc c) x) := by
  have hopen : (s.acc c).stop ≠ 0 := by omega
  have hfuel : i + 1 - (s.acc c).stop = 0 := by omega
  simp only [accumulate, if_neg hopen, hfuel, closeUntil, accWith]

theorem acc_setAcc_same (s : State) (c : Nat) (a : Acc) : (s.setAcc c a).acc c = a := nth_setAt_same ..

theorem acc_setAcc_ne (s : State) {c d : Nat} (a : Acc) (h : d ≠ c) : (s.setAcc c a).acc d = s.acc d := nth_setAt_ne _ _ _ h

theorem windowKind_of_kept {s : State} (h : s.aligned = s.is F.ACC_WIN_MODE) : s.windowKind = s := by
  simp [windowKind, State.when, h]

/-- The converters' registers do not say whether windows are aligned to reports. -/
theorem aligned_congr {s t : State} (hrole : t.role = s.role)
    (hslot : ∀ u, t.is (F.TREE_CELL_SLOT_VALID u) = s.is (F.TREE_CELL_SLOT_VALID u)) : t.aligned = s.aligned := by
  simp only [aligned, isCell, hrole, slotHeld, hslot]

/-- What a result at positive full scale does: it is counted and raised as an overload (R501) and enters both accumulators of
M0. -/
theorem result_m0_overload {s : State} {x : Int} {instant : Nat} (hrun : s.runs Pg.ACC = true)
    (hkind : s.aligned = s.is F.ACC_WIN_MODE) (h0 : instant / gridUnit < (s.acc 0).stop)
    (h10 : instant / gridUnit < (s.acc 10).stop) (hx : 2 ^ 23 - 1 ≤ x) :
    s.result 0 0 x instant =
      (((s.bump ⟨R.ADC_OVL, 0, 8⟩).event Pg.ADC 12).setAcc 0 (accWith (s.acc 0) (2 ^ 23 - 1))).setAcc 10
        (accWith (s.acc 10) (2 ^ 23 - 1)) := by
  let u := (s.bump ⟨R.ADC_OVL, 0, 8⟩).event Pg.ADC 12
  have hu : Frame [.recd] [R.ADC_OVL, R.PG_EVT Pg.ADC] s u :=
    ((frame_bump s _ _).trans (frame_event _ _ _)).mono (by decide) (by decide)
  have hget {f : Fld} (h : f.addr ∉ [R.ADC_OVL, R.PG_EVT Pg.ADC]) : u.get f = s.get f := by rw [get, hu.2 _ h, get]
  have hadc : u.adc = s.adc := hu.1 .adc (by decide)
  have hrole : u.role = s.role := hu.1 .role (by decide)
  have hacc (c : Nat) : u.acc c = s.acc c := by rw [acc, hadc, acc]
  have hrun' : u.runs Pg.ACC = true := by
    rw [← hrun]
    simp only [runs, State.is]
    rw [hrole, hget (by decide), hget (by decide), hget (by decide)]
  have hkind' : u.aligned = u.is F.ACC_WIN_MODE := by
    simp only [aligned, isCell, slotHeld, State.is] at hkind ⊢
    rw [hrole, hget (by decide), hget (by decide), hget (by decide), hkind]
  have hclip : max (-(2 ^ 23)) (min (2 ^ 23 - 1) x) = 2 ^ 23 - 1 := by omega
  have h0' : instant / gridUnit < (u.acc 0).stop := by rwa [hacc]
  have h10' : instant / gridUnit < ((u.setAcc 0 (accWith (u.acc 0) (2 ^ 23 - 1))).acc 10).stop := by
    rwa [acc_setAcc_ne _ _ (by decide), hacc]
  have hu' : s.when true (fun s => (s.bump ⟨R.ADC_OVL, 8 * 0, 8⟩).event Pg.ADC 12) = u := rfl
  rw [result, hclip]
  dsimp only
  rw [show (((2 ^ 23 - 1 : Int) == -(2 ^ 23)) || ((2 ^ 23 - 1 : Int) == 2 ^ 23 - 1)) = true from by decide, hu', hrun',
    windowKind_of_kept hkind']
  simp only [Bool.not_true, Bool.false_eq_true, if_false]
  rw [accumulate_of_lt _ h0', accumulate_of_lt _ h10', acc_setAcc_ne _ _ (by decide), hacc, hacc]

/-- A result of M1 below full scale enters its accumulator. -/
theorem result_m1 {s : State} {x : Int} {instant : Nat} (hrun : s.runs Pg.ACC = true)
    (hkind : s.aligned = s.is F.ACC_WIN_MODE) (hopen : instant / gridUnit < (s.acc 1).stop) (hlo : -(2 ^ 23) < x)
    (hhi : x < 2 ^ 23 - 1) : s.result 1 0 x instant = s.setAcc 1 (accWith (s.acc 1) x) := by
  have hclip : max (-(2 ^ 23)) (min (2 ^ 23 - 1) x) = x := by omega
  have hfull : (x == -(2 ^ 23) || x == 2 ^ 23 - 1) = false := by
    simp only [Bool.or_eq_false_iff, beq_eq_false_iff_ne]
    omega
  rw [result, hclip, hfull]
  dsimp only
  rw [show s.when false (fun s => (s.bump ⟨R.ADC_OVL, 8 * 1, 8⟩).event Pg.ADC 12) = s from rfl, hrun,
    windowKind_of_kept hkind]
  simp only [Bool.not_true, Bool.false_eq_true, if_false]
  exact accumulate_of_lt _ hopen

@[simp] theorem settle_adc (s : State) : s.settle.adc = s.adc := (frame_settle s).1 .adc (by decide)

theorem acc_settle (s : State) (c : Nat) : s.settle.acc c = s.acc c := by rw [acc, settle_adc, acc]

end State

theorem exec_adcResult (m ch : Nat) (x : Int) (sampled : Nat) (s : State) :
    exec (.adcResult m ch x sampled) s =
      act s (s.alive && s.converts m ch) fun s => s.result m ch x (sampled - s.groupDelay m) := rfl

/-- Settles O29: a result in the window in progress closes none, so it enters the accumulators as it is, or clipped at full
scale. -/
theorem measurement : Obligations.Measurement := by
  unfold Obligations.Measurement
  refine ⟨fun s x i halive hcell hadc hen hacc hkind hopen hcount hlo hhi => ?_,
    fun s x i halive hcell hadc hen hacc hkind h0 h10 hx => ?_⟩
  · have hon : (s.alive && s.converts 1 0) = true := by simp [State.converts, halive, hcell, hadc, hen]
    refine ⟨_, (exec_adcResult ..).trans (act_eq_settle _ hon), ?_⟩
    beta_reduce
    rw [State.result_m1 hacc hkind hopen hlo hhi, State.acc_settle, State.acc_setAcc_same, State.settle_adc]
    have hne : (s.acc 1).count ≠ 0 := by omega
    exact ⟨rfl, rfl, if_neg hne, if_neg hne, rfl⟩
  · have hon : (s.alive && s.converts 0 0) = true := by simp [State.converts, halive, hcell, hadc, hen]
    refine ⟨_, (exec_adcResult ..).trans (act_eq_settle _ hon), ?_⟩
    beta_reduce
    rw [State.result_m0_overload hacc hkind h0 h10 hx, State.acc_settle, State.acc_settle, State.acc_setAcc_same,
      State.acc_setAcc_ne _ _ (by decide), State.acc_setAcc_same, State.settle_reg _ (by decide),
      State.settle_get _ (by decide)]
    refine ⟨rfl, rfl, State.bitOf_event _ _ (by decide), ?_⟩
    exact (State.get_event_ne _ _ _ (by decide)).trans (State.get_bump_same _ _ _ (by decide))

end Sys2Proof.Machine
end

section
/-! PROOFS. The end of listening (R557): the referee adopts the hub that claims to be active, and a command that stood for the
pair stands on. -/

namespace Sys2Proof.Machine

open State

theorem exec_refereeListenEnd (pair : Nat) (s : State) :
    exec (.refereeListenEnd pair) s = act s (s.refServes pair && (s.refPair pair).listening) fun s =>
      (s.reach ((s.refPair pair).since + (s.pairMiss pair + 1) * s.pairHbT pair)).listenEnd pair := rfl

/-- A referee whose pair 0 listens while a TAKE to hub A stands; hub B is heard and claims to be active. -/
def listeningReferee : State :=
  { role := .referee, phase := .running, pins := { nRst := true }
    regs := [(R.PG_CTRL Pg.REF, 1), (R.PG_STAT Pg.REF, 1), (R.REF_PCFG 0, 1), (R.REF_LSTAT 1, 0x10001)]
    refPairs := [{ listening := true, takeTo := some 0 }] }

/-- The TAKE stands on behind the end of listening. -/
theorem yields_listenEnd_listeningReferee :
    Yields (.refereeListenEnd 0) listeningReferee fun t => (t.refPair 0).takeTo = some 0 :=
  yields_of_act (exec_refereeListenEnd ..) (by decide +kernel) (by decide +kernel)

/-- Refutes O36: its clause for the adoption at the end of listening has no TAKE stand behind it, for a state of which it does
not say that none stands before. The end of listening leaves a TAKE as it is: in `listeningReferee` one stands. -/
theorem not_refereeDecisions : ¬ Obligations.RefereeDecisions := by
  intro h
  obtain ⟨-, -, -, -, hadopt, -⟩ := h
  have adopted := hadopt listeningReferee 0 (by decide +kernel) rfl (by decide +kernel) (by decide +kernel) (by decide +kernel)
  obtain ⟨t, ⟨-, -, -, -, hnone⟩, hstands⟩ := adopted.both yields_listenEnd_listeningReferee
  rw [hstands] at hnone
  exact absurd hnone (by decide)

end Sys2Proof.Machine
end

section
/-! PROOFS. A page that reaches its hold (R70): where it ends the meridians, the pages whose HOLD was cleared resume. -/

namespace Sys2Proof.Machine

open State

/-- A hub with meridians running whose TIME page is asked to hold, while the held station page waits for a meridian to
resume. -/
def resumingHub : State :=
  { role := .hub, phase := .running, pins := { nRst := true }
    regs := [(R.CLK_SRC, 2), (R.PG_CTRL Pg.TIME, 5), (R.PG_STAT Pg.TIME, 1), (R.TIME_MER, 0x100), (R.PG_CTRL Pg.STN, 1),
             (R.PG_STAT Pg.STN, 9)]
    time := { lastK := some 5 } }

/-- A register that a command answers with another value, and that the hardwired logic does not write, is one of those the
command changes. -/
theorem Changes.mem_of_reg_ne {c : Instr} {ps : List Part} {rs : List Nat} {s : State} {a : Nat} (h : Changes c ps rs)
    (hsettle : a ∉ State.settleRegs) (hne : Yields c s fun t => t.reg a ≠ s.reg a) : a ∈ rs := by
  by_contra hmem
  obtain ⟨u, ⟨-, hregs⟩, hu⟩ := h s
  obtain ⟨t, ht, hreg⟩ := hne
  refine hreg ?_
  obtain hu | hu := hu
  · cases hu.symm.trans ht
    exact hregs a hmem
  · cases hu.symm.trans ht
    rw [settle_reg _ hsettle]
    exact hregs a hmem

/-- The station page of `resumingHub` resumes as its TIME page reaches its hold. -/
theorem yields_pageHeld_resumingHub :
    Yields (.pageHeld Pg.TIME) resumingHub fun t => t.reg (R.PG_STAT Pg.STN) ≠ resumingHub.reg (R.PG_STAT Pg.STN) :=
  yields_of_act (exec_pageHeld ..) (by decide +kernel) (by decide +kernel)

/-- Refutes O43: by its clause for a page that reaches its hold PG_STAT of that page alone changes. Where the page is TIME the
meridians end, and a page that waited for one resumes at once: in `resumingHub` the station page. -/
theorem not_framesOfPlainEvents : ¬ Obligations.FramesOfPlainEvents := by
  intro h
  have held : ∀ page, Changes (.pageHeld page) [.time] [R.PG_STAT page] := by
    simp only [Obligations.FramesOfPlainEvents] at h
    tauto
  have hmem := (held Pg.TIME).mem_of_reg_ne (by decide) yields_pageHeld_resumingHub
  exact absurd hmem (by decide)

end Sys2Proof.Machine
end

section
/-! PROOFS. A source that fails takes the SPLL that it clocks with it (R113). -/

namespace Sys2Proof.Machine

open State

/-- A hub whose SPLL runs from the crystal oscillator, both enabled and sound so far. -/
def crystalHub : State :=
  { role := .hub, phase := .running, pins := { nRst := true }
    regs := [(R.CLK_SRC, 5), (R.CLK_SPLL, 1)]
    clk := { xoscQuiet := false, xoscReady := true } }

/-- With the oscillator its SPLL fails: the monitor of the SPLL shows it. -/
theorem yields_sourceNoEdge_crystalHub :
    Yields (.sourceNoEdge 0) crystalHub fun t => t.reg (R.CLK_MON_STAT 4) ≠ crystalHub.reg (R.CLK_MON_STAT 4) :=
  yields_of_act (by rw [exec_sourceNoEdge, execSourceNoEdge]) (by decide +kernel) (by decide +kernel)

/-- Refutes O45: by its clause for a source that gives no edge CLK_MON_STAT of that source alone changes. With the source fails
the SPLL that it clocks (R113), so in `crystalHub` CLK_MON_STAT of the SPLL changes too. -/
theorem not_framesOfEngineEvents : ¬ Obligations.FramesOfEngineEvents := by
  intro h
  obtain ⟨-, noEdge, -⟩ := h
  have hmem := (noEdge 0).mem_of_reg_ne (by decide) yields_sourceNoEdge_crystalHub
  exact absurd hmem (by decide)

end Sys2Proof.Machine
end

section
/-! PROOFS. The bond of the twin lanes shows at L4 and drops with the sync of either of them (R201). -/

namespace Sys2Proof.Machine

open State

theorem exec_syncLost (lane codeErrors : Nat) (s : State) :
    exec (.syncLost lane codeErrors) s = execSyncLost lane codeErrors s := rfl

/-- A hub with both twin lanes in sync and bonded. -/
def bondedHub : State :=
  { role := .hub, phase := .running, pins := { nRst := true }
    regs := [(R.LANE_STAT 4, 0x204), (R.LANE_STAT 5, 4)] }

/-- Where L5 loses its sync the bond drops, and LANE_STAT of L4 shows it. -/
theorem yields_syncLost_bondedHub :
    Yields (.syncLost 5 4) bondedHub fun t => t.reg (R.LANE_STAT 4) ≠ bondedHub.reg (R.LANE_STAT 4) :=
  yields_of_act (by rw [exec_syncLost, execSyncLost]) (by decide +kernel) (by decide +kernel)

/-- Refutes O44: by its clause for a lane that loses sync LANE_STAT of that lane alone changes. With the sync of L5 drops the
bond, which LANE_STAT of L4 shows: so in `bondedHub`. -/
theorem not_framesOfLinkEvents : ¬ Obligations.FramesOfLinkEvents := by
  intro h
  obtain ⟨-, -, syncLost, -⟩ := h
  have hmem := (syncLost 5 4).mem_of_reg_ne (by decide) yields_syncLost_bondedHub
  exact absurd hmem (by decide)

end Sys2Proof.Machine
end

section
/-! PROOFS. What the hardwired logic leaves of a hub's safety block (R513), and that it takes no event back. -/

namespace Sys2Proof.Machine

namespace State

/-- Raising events takes none back. -/
theorem bitOf_event_of {s : State} {a n : Nat} (pg bit : Nat) (h : bitOf (s.reg a).toNat n = true) :
    bitOf ((s.event pg bit).reg a).toNat n = true := by
  by_cases ha : a = R.PG_EVT pg
  · subst ha
    rw [bitOf_eq_testBit] at h
    rw [reg_event_same, bitOf_eq_testBit, BitVec.toNat_or, Nat.testBit_or, h]
    rfl
  · rwa [reg_event_ne _ _ _ ha]

/-- The hardwired logic takes no event back. -/
theorem bitOf_settle_of {s : State} {a n : Nat} (hstat : a ≠ R.TWIN_STAT) (h : bitOf (s.reg a).toNat n = true) :
    bitOf (s.settle.reg a).toNat n = true := by
  by_cases hc : s.role = .cell
  · have hregs : s.settle.reg a = s.reg a := by
      rw [settle_cell hc]
      have hframe := (frame_forceGates s).trans ((frame_forceDb _).trans (frame_recordState _))
      exact hframe.2 a (by simp)
    rwa [hregs]
  · by_cases hh : s.role = .hub
    · have hself : bitOf (s.selfEnter.reg a).toNat n = true := by
        rw [selfEnter_eq]
        split
        · refine bitOf_event_of _ _ (bitOf_event_of _ _ ?_)
          rwa [reg_set_ne _ _ hstat]
        · exact h
      have hvb : bitOf (s.selfEnter.forceVb.reg a).toNat n = true := by
        unfold forceVb
        split
        · exact bitOf_event_of _ _ hself
        · exact hself
      rw [settle_hub hh, (frame_markReclaim _).2 a (by simp)]
      exact hvb
    · rwa [settle_other hc hh]

/-- Self-arbitration changes nothing that decides whether VB falls. -/
theorem selfEnter_safe (s : State) : s.selfEnter.safe = s.safe := (frame_selfEnter s).1 .safe (by decide)

theorem selfEnter_ports (s : State) : s.selfEnter.ports = s.ports := (frame_selfEnter s).1 .ports (by decide)

theorem selfEnter_hubDrives (s : State) : s.selfEnter.hubDrives = s.hubDrives := by
  have htwin : s.selfEnter.twin = s.twin := (frame_selfEnter s).1 .twin (by decide)
  have htopo : s.selfEnter.reg R.SYS_TOPO = s.reg R.SYS_TOPO := (frame_selfEnter s).2 _ (by decide)
  simp only [hubDrives, State.is, get, F.SYS_TOPO_TWIN, htopo, htwin]

/-- The safety block behind the hardwired logic of a hub: VB falls with what the sequencer still has to do. -/
theorem settle_safe_of_hub {s : State} (hh : s.role = .hub) :
    s.settle.safe =
      if s.safe.vb = true ∧ (s.safe.alatch ≠ 0 ∨ s.safe.breq = true ∨ s.hubDrives = false) then
        { s.safe with vb := false, seqLeft := [], seqOpen := [] }
      else s.safe := by
  rw [settle_hub hh, (frame_markReclaim _).1 .safe (by decide)]
  simp only [forceVb, selfEnter_safe, selfEnter_hubDrives, Bool.not_eq_true']
  split
  · rw [(frame_event _ _ _).1 .safe (by decide)]
    rfl
  · rw [selfEnter_safe]

theorem settle_ports_of_hub {s : State} (hh : s.role = .hub) (halatch : s.safe.alatch = 0) (hbreq : s.safe.breq = false)
    (hdrives : s.hubDrives = true) : s.settle.ports = s.ports := by
  rw [settle_hub hh, (frame_markReclaim _).1 .ports (by decide), forceVb_of_not_falls, selfEnter_ports]
  simp [vbFalls, selfEnter_safe, selfEnter_hubDrives, halatch, hbreq, hdrives]

section
variable {s : State} (hh : s.role = .hub)
include hh

theorem settle_alatch : s.settle.safe.alatch = s.safe.alatch := by
  rw [settle_safe_of_hub hh]; split <;> rfl

theorem settle_asserted : s.settle.safe.asserted = s.safe.asserted := by
  rw [settle_safe_of_hub hh]; split <;> rfl

theorem settle_startup : s.settle.safe.startup = s.safe.startup := by
  rw [settle_safe_of_hub hh]; split <;> rfl

theorem settle_breq : s.settle.safe.breq = s.safe.breq := by
  rw [settle_safe_of_hub hh]; split <;> rfl

theorem settle_breqSrc : s.settle.safe.breqSrc = s.safe.breqSrc := by
  rw [settle_safe_of_hub hh]; split <;> rfl

theorem settle_vb_of_blocked (h : s.safe.alatch ≠ 0 ∨ s.safe.breq = true ∨ s.hubDrives = false) : s.settle.safe.vb = false := by
  rw [settle_safe_of_hub hh]
  split
  · rfl
  next hf => exact eq_false_of_ne_true fun hvb => hf ⟨hvb, h⟩

theorem settle_safe_of_open (halatch : s.safe.alatch = 0) (hbreq : s.safe.breq = false) (hdrives : s.hubDrives = true) :
    s.settle.safe = s.safe := by
  rw [settle_safe_of_hub hh]
  simp [halatch, hbreq, hdrives]

end

end State
end Sys2Proof.Machine
end

section
/-! PROOFS. The sources of valve block at the hub: what latches, what asserts, what releases (R509, R511, R514). -/

namespace Sys2Proof.Machine

open State

/-- A field of a register outside a frame. -/
theorem Frame.get {ps : List Part} {rs : List Nat} {s t : State} (h : Frame ps rs s t) {f : Fld} (hf : f.addr ∉ rs) :
    t.get f = s.get f := by rw [State.get, h.2 _ hf, State.get]

namespace State

/-- Counting and measuring a latch leave the sources as they are and write three counters and the reaction time alone. -/
structure Measures (s t : State) : Prop where
  alatch : t.safe.alatch = s.safe.alatch
  asserted : t.safe.asserted = s.safe.asserted
  role : t.role = s.role
  discs : t.get F.SAFE_HCNT_DISCS = s.get F.SAFE_HCNT_DISCS
  regs : KeepsRegs [R.SAFE_HCNT, R.LT_CNT_LO 0 1, R.LT_CNT_HI 0 1, R.SAFE_HREACT] s t

theorem Measures.refl (s : State) : s.Measures s := ⟨rfl, rfl, rfl, rfl, KeepsRegs.refl _ s⟩

theorem Measures.trans {s t u : State} (h : s.Measures t) (g : t.Measures u) : s.Measures u :=
  ⟨g.alatch.trans h.alatch, g.asserted.trans h.asserted, g.role.trans h.role, g.discs.trans h.discs, (h.regs.trans g.regs).mono (by simp)⟩

/-- The first latch is counted. -/
def latchCount (s : State) : State :=
  let s := (s.bump F.SAFE_HCNT_LATCHES).ltAdd 1 1
  { s with recd := { s.recd with rose := true }, safe := { s.safe with alatchAt := some s.now } }

/-- A new latch measures its reaction. -/
def latchMeasure (s : State) : State :=
  let s := { s with safe := { s.safe with latchAt := some s.now } }
  if (List.range 4).any (fun p => s.get (F.LANE_PWR_CUR p) == 0) then
    let (ns, s) := s.free
    (s.set F.SAFE_HREACT_A (min 65535 (ns / 10))).monitorSel 10 0 (signed 32 ns)
  else s

theorem measures_latchCount (s : State) : s.Measures s.latchCount :=
  ⟨rfl, rfl, rfl, ((frame_ltAdd _ 1 1).get (by decide)).trans (get_bump_other _ _ (by decide)),
    ((frame_bump s F.SAFE_HCNT_LATCHES 1).trans (frame_ltAdd _ 1 1)).2.mono (by decide)⟩

theorem measures_latchMeasure (s : State) : s.Measures s.latchMeasure := by
  let u : State := { s with safe := { s.safe with latchAt := some s.now } }
  by_cases h : (List.range 4).any (fun p => u.get (F.LANE_PWR_CUR p) == 0) = true
  · let v := u.free.2.set F.SAFE_HREACT_A (min 65535 (u.free.1 / 10))
    have hmeasure : s.latchMeasure = v.monitorSel 10 0 (signed 32 u.free.1) := if_pos h
    have hframe : Frame [.mon] [] v s.latchMeasure := hmeasure ▸ frame_monitor v 10 _
    have hsafe : s.latchMeasure.safe = u.safe := hframe.1 .safe (by decide)
    have hset := (frame_set u.free.2 F.SAFE_HREACT_A (min 65535 (u.free.1 / 10))).trans hframe
    exact ⟨by rw [hsafe], by rw [hsafe], hframe.1 .role (by decide), hset.get (by decide), hset.2.mono (by decide)⟩
  · rw [show s.latchMeasure = u from if_neg h]
    exact ⟨rfl, rfl, rfl, rfl, KeepsRegs.refl _ s⟩

/-- A source latches: the event, the bit, the count of the first latch, the measurement of a new one (R509, R524). -/
theorem latchSource_eq (s : State) (bit : Nat) :
    s.latchSource bit =
      let u := s.event Pg.SAFE 10
      let v := { u with safe := { u.safe with alatch := u.safe.alatch ||| 1 <<< bit } }
      let w := if u.safe.alatch = 0 then v.latchCount else v
      if (!bitOf u.safe.alatch bit) = true then w.latchMeasure else w := rfl

/-- A source latched: its bit is set beside those set before. -/
theorem measures_latchSource (s : State) (bit : Nat) :
    let u := s.event Pg.SAFE 10
    ({ u with safe := { u.safe with alatch := s.safe.alatch ||| 1 <<< bit } } : State).Measures (s.latchSource bit) := by
  intro u
  let v : State := { u with safe := { u.safe with alatch := u.safe.alatch ||| 1 <<< bit } }
  have hv : ({ u with safe := { u.safe with alatch := s.safe.alatch ||| 1 <<< bit } } : State) = v := by
    rw [show s.safe.alatch = u.safe.alatch by simp [u]]
  have hcount : v.Measures (if u.safe.alatch = 0 then v.latchCount else v) := by
    split
    · exact measures_latchCount v
    · exact .refl v
  rw [hv, latchSource_eq]
  dsimp only
  split
  · exact hcount.trans (measures_latchMeasure _)
  · exact hcount

theorem latchSource_asserted (s : State) (bit : Nat) : (s.latchSource bit).safe.asserted = s.safe.asserted := by
  rw [(s.measures_latchSource bit).asserted]
  simp

theorem latchSource_role (s : State) (bit : Nat) : (s.latchSource bit).role = s.role := by
  rw [(s.measures_latchSource bit).role]
  simp

/-- The bit that a source latches is set. -/
theorem bitOf_latchSource (s : State) (bit : Nat) : bitOf (s.latchSource bit).safe.alatch bit = true := by
  rw [(s.measures_latchSource bit).alatch, bitOf_eq_testBit, Nat.testBit_or, Nat.testBit_shiftLeft]
  simp

theorem latchSource_event (s : State) (bit : Nat) : bitOf ((s.latchSource bit).reg (R.PG_EVT Pg.SAFE)).toNat 10 = true := by
  rw [(s.measures_latchSource bit).regs _ (by decide)]
  exact bitOf_event s _ (by decide)

theorem latchSource_discs (s : State) (bit : Nat) : (s.latchSource bit).get F.SAFE_HCNT_DISCS = s.get F.SAFE_HCNT_DISCS := by
  rw [(s.measures_latchSource bit).discs]
  exact (frame_event s _ _).get (by decide)

theorem ne_zero_of_bitOf {n i : Nat} (h : bitOf n i = true) : n ≠ 0 := by
  rintro rfl
  simp [bitOf_eq_testBit] at h

/-- What a latched source leaves behind the hardwired logic of a hub: its bit, VB fallen, its event. -/
theorem settle_latchSource {s : State} (hh : s.role = .hub) (bit : Nat) :
    bitOf (s.latchSource bit).settle.safe.alatch bit = true ∧ (s.latchSource bit).settle.safe.vb = false ∧
      (s.latchSource bit).settle.safe.asserted = s.safe.asserted ∧
      bitOf ((s.latchSource bit).settle.reg (R.PG_EVT Pg.SAFE)).toNat 10 = true := by
  have hrole : (s.latchSource bit).role = .hub := (latchSource_role s bit).trans hh
  have hbit := bitOf_latchSource s bit
  refine ⟨by rwa [settle_alatch hrole], settle_vb_of_blocked hrole (.inl (ne_zero_of_bitOf hbit)), ?_,
    bitOf_settle_of (by decide) (latchSource_event s bit)⟩
  rw [settle_asserted hrole, latchSource_asserted]

/-! Assertions. -/

theorem bitOf_asserted_same (s : State) (b : Nat) : bitOf (s.assertBit b true).safe.asserted b = true := by
  simp [assertBit, bitOf_eq_testBit, Nat.testBit_shiftLeft]

/-- A bit asserted below is kept by the fall of bit 4. -/
theorem bitOf_asserted_disc {s : State} {b : Nat} (hb : b < 4) :
    bitOf (s.assertBit 4 false).safe.asserted b = bitOf s.safe.asserted b := by
  have h15 : Nat.testBit 15 b = true := by
    interval_cases b <;> rfl
  simp [assertBit, bitOf_eq_testBit, Nat.testBit_and, h15]

theorem bitOf_asserted_cleared (s : State) {b : Nat} (hb : b < 4) : bitOf (s.assertBit b false).safe.asserted b = false := by
  have hmask : Nat.testBit (31 - 1 <<< b) b = false := by
    interval_cases b <;> rfl
  simp [assertBit, bitOf_eq_testBit, Nat.testBit_and, hmask]

theorem pinBit_lt (pin : BlockPin) : pinBit pin < 4 := by cases pin <;> decide

end State
end Sys2Proof.Machine
end

section
/-! PROOFS. The events of valve block at the hub (R509, R511, R514). -/

namespace Sys2Proof.Machine

open State

/-- The bit of ALATCH that a pin latches (R509). -/
def latchBit (pin : BlockPin) : Nat := if pin = .trip0 then 0 else if pin = .trip1 then 1 else 2

/-- A pin low past its filter: its level, its assertion, and with both SAFE inputs low no discrepancy. -/
def State.sourceLow (s : State) (pin : BlockPin) : State :=
  let s := (s.setBlockPin pin false).assertBit (pinBit pin) true
  let both := bitOf s.safe.asserted 2 && bitOf s.safe.asserted 3
  if both then s.assertBit 4 false else s

/-- Has a pin been low for longer than its filter? -/
def State.lowLong (s : State) (pin : BlockPin) (low : Nat) : Bool :=
  match pin with
  | .trip0 => passesFilter (s.get F.SAFE_HCFG_TF0) low
  | .trip1 => passesFilter (s.get F.SAFE_HCFG_TF1) low
  | .safeA | .safeB => decide (10000 ≤ low)

theorem exec_alatch (pin : BlockPin) (low : Nat) (s : State) :
    exec (.alatch ⟨pin, low⟩) s = act s (s.hubLive && s.lowLong pin low) fun s => (s.sourceLow pin).latchSource (latchBit pin) := by
  cases pin <;> rfl

theorem exec_disc (s : State) : exec .disc s = execDisc s := rfl

theorem exec_hubSourceRelease (pin : BlockPin) (s : State) : exec (.hubSourceRelease pin) s = execHubSourceRelease pin s := rfl

theorem exec_startupTestOpen (s : State) : exec .startupTestOpen s = execStartupTestOpen s := rfl

theorem exec_startupPass (s : State) : exec .startupPass s = execStartupPass s := rfl

theorem exec_supervisorDebugHalt (s : State) : exec .supervisorDebugHalt s = execSupervisorDebugHalt s := rfl

namespace State

theorem role_of_hubLive {s : State} (h : s.hubLive = true) : s.role = .hub := by
  obtain ⟨-, hhub⟩ := Bool.and_eq_true_iff.mp h
  exact role_of_isHub hhub

theorem sourceLow_role (s : State) (pin : BlockPin) : (s.sourceLow pin).role = s.role := by
  unfold sourceLow
  cases pin <;> (dsimp only; split <;> rfl)

theorem bitOf_sourceLow (s : State) (pin : BlockPin) : bitOf (s.sourceLow pin).safe.asserted (pinBit pin) = true := by
  have hset : bitOf ((s.setBlockPin pin false).assertBit (pinBit pin) true).safe.asserted (pinBit pin) = true :=
    bitOf_asserted_same _ _
  unfold sourceLow
  dsimp only
  split
  · rwa [bitOf_asserted_disc (pinBit_lt pin)]
  · exact hset

/-- Every filter of R483 ends within 1 us. -/
theorem filterNs_le (tf : Nat) : filterNs tf ≤ 1000 := by
  unfold filterNs
  split <;> decide

theorem passesFilter_of_long {tf low : Nat} (h : 10000 ≤ low) : passesFilter tf low = true := by
  have := filterNs_le tf
  simp only [passesFilter, Bool.or_eq_true, decide_eq_true_eq]
  omega

theorem lowLong_of_long (s : State) (pin : BlockPin) {low : Nat} (h : 10000 ≤ low) : s.lowLong pin low = true := by
  cases pin with
  | trip0 | trip1 => exact passesFilter_of_long h
  | safeA | safeB => exact decide_eq_true h

end State

/-- A source low past its filter latches, and VB falls (R509, R513). -/
theorem yields_alatch {s : State} {pin : BlockPin} {low : Nat} (hlive : s.hubLive = true) (hlow : s.lowLong pin low = true) :
    Yields (.alatch ⟨pin, low⟩) s fun t => bitOf t.safe.alatch (latchBit pin) = true ∧ t.safe.alatch ≠ 0 ∧ t.safe.vb = false ∧
      bitOf t.safe.asserted (pinBit pin) = true ∧ bitOf (t.reg (R.PG_EVT Pg.SAFE)).toNat 10 = true := by
  refine yields_of_act (exec_alatch ..) (by rw [hlive, hlow]; rfl) ?_
  have hrole : (s.sourceLow pin).role = .hub := (sourceLow_role s pin).trans (role_of_hubLive hlive)
  obtain ⟨hbit, hvb, hasserted, hevent⟩ := settle_latchSource hrole (latchBit pin)
  exact ⟨hbit, ne_zero_of_bitOf hbit, hvb, by rw [hasserted]; exact bitOf_sourceLow s pin, hevent⟩

/-- SAFE inputs that differ latch DISC and begin the start-up test again (R509, R514). -/
theorem yields_disc {s : State} (hlive : s.hubLive = true) (hdiffer : s.pins.safeA ≠ s.pins.safeB) :
    Yields .disc s fun t => bitOf t.safe.alatch 3 = true ∧ bitOf t.safe.asserted 4 = true ∧ t.safe.startup = 0 ∧
      t.safe.vb = false ∧ t.get F.SAFE_HCNT_DISCS = satAdd F.SAFE_HCNT_DISCS.w (s.get F.SAFE_HCNT_DISCS) 1 := by
  refine yields_of_act (by rw [exec_disc, execDisc]) (by simp [hlive, hdiffer]) ?_
  dsimp only
  let u := (s.assertBit 4 true).latchSource 3
  let v := (u.event Pg.SAFE 11).bump F.SAFE_HCNT_DISCS
  let w : State := { v with safe := { v.safe with startup := 0 } }
  have hmeasures := (s.assertBit 4 true).measures_latchSource 3
  have hsafe : v.safe = u.safe := by simp [v, bump]
  have hrole : w.role = .hub := by
    have : v.role = u.role := by simp [v, bump]
    exact this.trans <| (latchSource_role _ 3).trans (role_of_hubLive hlive)
  have hbit : bitOf w.safe.alatch 3 = true := by
    rw [show w.safe.alatch = u.safe.alatch by rw [← hsafe]]
    exact bitOf_latchSource _ 3
  have hasserted : w.safe.asserted = (s.assertBit 4 true).safe.asserted := by
    rw [show w.safe.asserted = u.safe.asserted by rw [← hsafe]]
    exact latchSource_asserted _ 3
  have hdiscs : w.get F.SAFE_HCNT_DISCS = satAdd F.SAFE_HCNT_DISCS.w (s.get F.SAFE_HCNT_DISCS) 1 := by
    refine (get_bump_same (u.event Pg.SAFE 11) _ 1 (by decide)).trans ?_
    rw [get_event_ne _ _ _ (by decide)]
    exact congrArg (satAdd _ · 1) (latchSource_discs _ 3)
  refine ⟨?_, ?_, ?_, settle_vb_of_blocked hrole (.inl (ne_zero_of_bitOf hbit)), ?_⟩
  · rw [settle_alatch hrole]
    exact hbit
  · rw [settle_asserted hrole]
    exact hasserted ▸ bitOf_asserted_same s 4
  · exact settle_startup hrole
  · rw [settle_get _ (by decide)]
    exact hdiscs

/-- An input that releases asserts no more, and its latch stays (R509). -/
theorem yields_hubSourceRelease {s : State} (pin : BlockPin) (hlive : s.hubLive = true) :
    Yields (.hubSourceRelease pin) s fun t => bitOf t.safe.asserted (pinBit pin) = false ∧ t.safe.alatch = s.safe.alatch := by
  refine yields_of_act (by rw [exec_hubSourceRelease, execHubSourceRelease]) hlive ?_
  dsimp only
  let u := (s.setBlockPin pin true).assertBit (pinBit pin) false
  let v := if u.pins.safeA = u.pins.safeB then u.assertBit 4 false else u
  have hu : u.role = .hub ∧ u.safe.alatch = s.safe.alatch := by
    cases pin <;> exact ⟨role_of_hubLive hlive, rfl⟩
  obtain ⟨hurole, hulatch⟩ := hu
  have hv : v.role = .hub ∧ v.safe.alatch = s.safe.alatch ∧ bitOf v.safe.asserted (pinBit pin) = false := by
    have hcleared : bitOf u.safe.asserted (pinBit pin) = false := bitOf_asserted_cleared _ (pinBit_lt pin)
    by_cases h : u.pins.safeA = u.pins.safeB
    · rw [show v = u.assertBit 4 false from if_pos h]
      exact ⟨hurole, hulatch, by rwa [bitOf_asserted_disc (pinBit_lt pin)]⟩
    · rw [show v = u from if_neg h]
      exact ⟨hurole, hulatch, hcleared⟩
  obtain ⟨hrole, halatch, hbit⟩ := hv
  exact ⟨by rw [settle_asserted hrole]; exact hbit, (settle_alatch hrole).trans halatch⟩

/-- SAFE inputs low together begin the start-up test (R514): of a settled hub nothing else changes. -/
theorem exec_startupTestOpen_of_open {s : State} (hsettled : s.Settled) (hlive : s.hubLive = true) (hstart : s.safe.startup = 0)
    (hA : s.pins.safeA = false) (hB : s.pins.safeB = false) :
    exec .startupTestOpen s = .next { s with safe := { s.safe with startup := 1 } } := by
  have hhub := role_of_hubLive hlive
  obtain ⟨hself, hvb, hreclaim⟩ : s.HubSettled := hsettled ▸ hubSettled_settle hhub
  have hafter : ({ s with safe := { s.safe with startup := 1 } } : State).Settled :=
    HubSettled.settled (s := { s with safe := { s.safe with startup := 1 } }) hhub ⟨hself, hvb, hreclaim⟩
  rw [exec_startupTestOpen, execStartupTestOpen, act_eq_settle _ (by simp [hlive, hstart, hA, hB])]
  exact congrArg Host.Outcome.next hafter

/-- SAFE inputs high again pass the start-up test (R514). -/
theorem yields_startupPass {s : State} (hlive : s.hubLive = true) (hstart : s.safe.startup = 1) (hA : s.pins.safeA = true)
    (hB : s.pins.safeB = true) :
    Yields .startupPass s fun t => t.safe.startup = 2 ∧ bitOf (t.reg (R.PG_EVT Pg.SAFE)).toNat 12 = true := by
  refine yields_of_act (by rw [exec_startupPass, execStartupPass]) (by simp [hlive, hstart, hA, hB]) ?_
  dsimp only
  have hrole : (s.event Pg.SAFE 12).role = .hub := by rw [event_role, role_of_hubLive hlive]
  refine ⟨settle_startup (s := { s.event Pg.SAFE 12 with safe := { s.safe with startup := 2 } }) hrole, ?_⟩
  exact bitOf_settle_of (s := { s.event Pg.SAFE 12 with safe := { s.safe with startup := 2 } }) (by decide)
    (bitOf_event s _ (by decide))

namespace State

/-- A channel B block request stands (R511), and with it VB falls. -/
theorem settle_blockRequest {s : State} (hh : s.role = .hub) (src : Nat) :
    (s.blockRequest src).settle.safe.breq = true ∧ bitOf (s.blockRequest src).settle.safe.breqSrc src = true ∧
      (s.blockRequest src).settle.safe.vb = false := by
  have hrole : (s.blockRequest src).role = .hub := by
    unfold blockRequest State.when
    dsimp only
    split
    · rw [event_role, hh]
    · exact hh
  have hbit : bitOf (s.blockRequest src).safe.breqSrc src = true := by
    change bitOf (s.safe.breqSrc ||| 1 <<< src) src = true
    rw [bitOf_eq_testBit, Nat.testBit_or, Nat.testBit_shiftLeft]
    simp
  refine ⟨settle_breq hrole, by rw [settle_breqSrc hrole]; exact hbit, settle_vb_of_blocked hrole (.inr (.inl rfl))⟩

theorem blockRequest_sup (s : State) (src : Nat) : (s.blockRequest src).sup = s.sup := by
  unfold blockRequest State.when
  dsimp only
  split
  · exact (frame_event s _ _).1 .sup (by decide)
  · rfl

end State

/-- A halt by the debug port blocks the valve where DBGBLK says so (R511). -/
theorem yields_debugHalt_hub {s : State} (halive : s.alive = true) (hopen : s.is F.DBG_STAT_OPEN = true) (hhub : s.isHub = true)
    (hblk : s.is F.SAFE_HCFG_DBGBLK = true) :
    Yields .supervisorDebugHalt s fun t => t.sup.halted = true ∧ t.safe.breq = true ∧ bitOf t.safe.breqSrc 5 = true ∧
      t.safe.vb = false := by
  refine yields_of_act (by rw [exec_supervisorDebugHalt, execSupervisorDebugHalt]) (by simp [halive, hopen]) ?_
  dsimp only
  let u : State := { s with sup := { s.sup with halted := true } }
  have hblocked : (if u.isHub = true then u.when (u.is F.SAFE_HCFG_DBGBLK) (·.blockRequest 5)
      else if u.isCell = true then (match execGateStopEnter .debug u with | .next t => t | _ => u) else u) = u.blockRequest 5 := by
    rw [if_pos (show u.isHub = true from hhub), State.when, if_pos (show u.is F.SAFE_HCFG_DBGBLK = true from hblk)]
  obtain ⟨hbreq, hsrc, hvb⟩ := settle_blockRequest (s := u) (role_of_isHub hhub) 5
  refine Eq.mpr (congrArg (fun t : State => t.settle.sup.halted = true ∧ t.settle.safe.breq = true ∧
    bitOf t.settle.safe.breqSrc 5 = true ∧ t.settle.safe.vb = false) hblocked) ⟨?_, hbreq, hsrc, hvb⟩
  rw [settle_sup, blockRequest_sup]

end Sys2Proof.Machine
end

section
/-! PROOFS. The commands of valve block at the hub (R509, R511, R515, R517). -/

namespace Sys2Proof.Machine

open State

namespace State

theorem answering_of_resp {s : State} {r : Resp} (h : s.resp = r) : s.answering r = s := by
  subst h
  rfl

/-- SAFE_HCMD and SAFE_HDBB in the register map. -/
def hcmdDesc : RegDesc := ⟨0x044, 4, 1, 2, 0, [fd 0 16 .w]⟩
def hdbbDesc : RegDesc := ⟨0x050, 4, 1, 2, 0, [fd 0 10 .rw, fd 31 1 .w]⟩

theorem plainReg_hcmd {s : State} (hhub : s.role = .hub) : s.plainReg R.SAFE_HCMD hcmdDesc :=
  plainReg_of_page (.inr (.inr rfl)) (by rw [hhub]; rfl) rfl (by rw [hhub]; rfl) rfl (by decide)

theorem plainReg_hdbb {s : State} (hhub : s.role = .hub) : s.plainReg R.SAFE_HDBB hdbbDesc :=
  plainReg_of_page (.inr (.inr rfl)) (by rw [hhub]; rfl) rfl (by rw [hhub]; rfl) rfl (by decide)

theorem hook_safe {w : Wr} (s : State) (hpage : w.a / 0x400 = Pg.SAFE) : s.hook w = s.hookSafe w := by
  simp +decide only [hook, hpage, if_true, if_false]

theorem hookSafe_hcmd {w : Wr} (s : State) (ha : w.a = R.SAFE_HCMD) : s.hookSafe w = s.hubCommand (w.get 0 16) := by
  simp only [hookSafe, ha, if_true]

theorem hookSafe_hdbb {w : Wr} (s : State) (ha : w.a = R.SAFE_HDBB) (hgo : w.bit 31 = true) :
    s.hookSafe w = s.hubDeblockOne (w.get 0 10) := by
  simp +decide only [hookSafe, ha, if_true, if_false, hgo, State.when]

end State

/-- A command of SAFE_HCMD at a hub, which no test refuses. -/
theorem yields_hcmd {c : Instr} {s : State} {path : Path} {data : Word} {P : State → Prop}
    (he : exec c s = writeRow s path R.SAFE_HCMD data) (hreach : s.Reaches path Pg.SAFE) (hhub : s.role = .hub)
    (hresp : ((s.answering ⟨Code.ok, []⟩).hubCommand (getBits data 0 16)).resp.code = Code.ok)
    (hP : P (((s.answering ⟨Code.ok, []⟩).hubCommand (getBits data 0 16)).answering ⟨Code.ok, []⟩).settle) : Yields c s P := by
  obtain ⟨hpath, -, hopen⟩ := hreach
  refine yields_of_command he hpath (plainReg_hcmd hhub) rfl hopen (fun w _ ha hfields => ?_) hresp hP
  have hcode : w.get 0 16 = getBits data 0 16 := hfields (fd 0 16 .w) (by simp [hcmdDesc])
  rw [hook_safe _ (by rw [ha]; rfl), hookSafe_hcmd _ ha, hcode]

theorem exec_hubAclr (path : Path) (s : State) : exec (.hubAclr path) s = writeRow s path R.SAFE_HCMD 0x0AC1 := rfl

theorem exec_hubBclr (path : Path) (s : State) : exec (.hubBclr path) s = writeRow s path R.SAFE_HCMD 0x0BC1 := rfl

theorem exec_hubDeblock (path : Path) (s : State) : exec (.hubDeblock path) s = writeRow s path R.SAFE_HCMD 0x0DB1 := rfl

section
variable {s : State} {path : Path} (hreach : s.Reaches path Pg.SAFE) (hhub : s.role = .hub)
include hreach hhub

/-- ACLR with no source asserting clears ALATCH (R509). -/
theorem yields_hubAclr (hnone : s.safe.asserted = 0) :
    Yields (.hubAclr path) s fun t => t.safe.alatch = 0 ∧ t.resp.code = Code.ok := by
  let u : State := { s.answering ⟨Code.ok, []⟩ with safe := { s.safe with alatch := 0 } }
  have hrule : (s.answering ⟨Code.ok, []⟩).hubCommand (getBits 0x0AC1 0 16) = u := if_neg (not_not.mpr hnone)
  refine yields_hcmd (exec_hubAclr path s) hreach hhub (by rw [hrule]; rfl) ?_
  rw [hrule]
  exact ⟨settle_alatch (s := u.answering ⟨Code.ok, []⟩) hhub, by rw [settle_resp]; rfl⟩

/-- ACLR with a source asserting is refused (R509). -/
theorem yields_hubAclr_refused (hsome : s.safe.asserted ≠ 0) :
    Yields (.hubAclr path) s fun t => t.safe.alatch = s.safe.alatch ∧
      t.get F.SAFE_HCNT_ACLRREF = satAdd F.SAFE_HCNT_ACLRREF.w (s.get F.SAFE_HCNT_ACLRREF) 1 ∧
      bitOf (t.reg (R.PG_EVT Pg.SAFE)).toNat 14 = true := by
  let u : State := ((s.answering ⟨Code.ok, []⟩).bump F.SAFE_HCNT_ACLRREF).event Pg.SAFE 14
  have hrule : (s.answering ⟨Code.ok, []⟩).hubCommand (getBits 0x0AC1 0 16) = u := if_pos hsome
  have hrole : (u.answering ⟨Code.ok, []⟩).role = .hub := (event_role _ _ _).trans hhub
  refine yields_hcmd (exec_hubAclr path s) hreach hhub (by rw [hrule, event_resp]; rfl) ?_
  rw [hrule]
  refine ⟨(settle_alatch hrole).trans ?_, ?_, bitOf_settle_of (by decide) (bitOf_event _ _ (by decide))⟩
  · exact congrArg SafeSt.alatch (event_safe _ _ _)
  · rw [settle_get _ (by decide)]
    exact (get_event_ne _ _ _ (by decide)).trans (get_bump_same _ _ _ (by decide))

/-- BSET blocks (R511). -/
theorem yields_hubBset :
    Yields (.hubBset path) s fun t => t.safe.breq = true ∧ bitOf t.safe.breqSrc 0 = true ∧ t.safe.vb = false := by
  have hresp : ((s.answering ⟨Code.ok, []⟩).blockRequest 0).resp = ⟨Code.ok, []⟩ := by
    unfold blockRequest State.when
    dsimp only
    split
    · exact event_resp ..
    · rfl
  have hself : ((s.answering ⟨Code.ok, []⟩).blockRequest 0).answering ⟨Code.ok, []⟩ = (s.answering ⟨Code.ok, []⟩).blockRequest 0 :=
    answering_of_resp hresp
  have hrule : (s.answering ⟨Code.ok, []⟩).hubCommand (getBits 0x0B51 0 16) = (s.answering ⟨Code.ok, []⟩).blockRequest 0 := rfl
  refine yields_hcmd (exec_hubBset path s) hreach hhub (by rw [hrule, hresp]) ?_
  rw [hrule, hself]
  exact settle_blockRequest (s := s.answering ⟨Code.ok, []⟩) hhub 0

/-- BCLR ends the block request (R511). -/
theorem yields_hubBclr : Yields (.hubBclr path) s fun t => t.safe.breq = false ∧ t.safe.breqSrc = 0 := by
  let u : State := { s.answering ⟨Code.ok, []⟩ with safe := { s.safe with breq := false, breqSrc := 0 } }
  have hrule : (s.answering ⟨Code.ok, []⟩).hubCommand (getBits 0x0BC1 0 16) = u := rfl
  refine yields_hcmd (exec_hubBclr path s) hreach hhub (by rw [hrule]; rfl) ?_
  rw [hrule]
  exact ⟨settle_breq (s := u.answering ⟨Code.ok, []⟩) hhub, settle_breqSrc (s := u.answering ⟨Code.ok, []⟩) hhub⟩

/-- DEBLOCK of a hub that drives, with nothing latched or requested and meridians running (R515, R516). -/
theorem yields_hubDeblock (hstart : s.safe.startup = 2) (halatch : s.safe.alatch = 0) (hbreq : s.safe.breq = false)
    (hdrives : s.hubDrives = true) (hmeridians : s.meridiansOn = true) :
    Yields (.hubDeblock path) s fun t => t.safe.vb = true ∧ t.safe.seqLeft = s.deblockList ∧
      t.get F.SAFE_HDBLK_REFUSED = s.get F.SAFE_HDBLK_REFUSED := by
  let r := s.answering ⟨Code.ok, []⟩
  let v := if r.safe.vb = true then r else r.event Pg.SAFE 9
  let u : State := { v with safe := { v.safe with vb := true, seqLeft := v.deblockList } }
  have htest : r.deblockTest = 0 := by
    have hdrives' : r.hubDrives = true := hdrives
    have hmeridians' : r.meridiansOn = true := hmeridians
    simp [deblockTest, r, answering, hstart, halatch, hbreq] at hdrives' hmeridians' ⊢
    simp [hdrives', hmeridians']
  have hrule : r.hubCommand (getBits 0x0DB1 0 16) = u := if_neg (not_not.mpr htest)
  have hv : Frame [.recd] [R.PG_EVT Pg.SAFE] r v := Frame.ite (Frame.refl ..) (frame_event ..)
  have hsafe : v.safe = s.safe := hv.1 .safe (by decide)
  have hrole : u.role = .hub := (hv.1 .role (by decide)).trans hhub
  have hlist : v.deblockList = s.deblockList := by
    rw [deblockList, berthsWith, hv.1 .berths (by decide)]
    rfl
  have hvdrives : v.hubDrives = true := by
    rw [← hdrives, hubDrives, hubDrives, State.is, State.is, hv.get (by decide), hv.1 .twin (by decide)]
    rfl
  have hopen : (u.answering ⟨Code.ok, []⟩).settle.safe = u.safe :=
    settle_safe_of_open (s := u.answering ⟨Code.ok, []⟩) hrole ((congrArg SafeSt.alatch hsafe).trans halatch)
      ((congrArg SafeSt.breq hsafe).trans hbreq) hvdrives
  refine yields_hcmd (exec_hubDeblock path s) hreach hhub (by rw [hrule, hv.1 .resp (by decide)]; rfl) ?_
  rw [hrule]
  refine ⟨by rw [hopen], by rw [hopen]; exact hlist, ?_⟩
  rw [settle_get _ (by decide)]
  exact hv.get (by decide)

/-- DEBLOCK with a source latched is refused with the second test of R515. -/
theorem yields_hubDeblock_refused (hstart : s.safe.startup = 2) (halatch : s.safe.alatch ≠ 0) :
    Yields (.hubDeblock path) s fun t => t.safe.vb = false ∧ t.get F.SAFE_HDBLK_WHY = 2 ∧
      t.get F.SAFE_HDBLK_REFUSED = satAdd F.SAFE_HDBLK_REFUSED.w (s.get F.SAFE_HDBLK_REFUSED) 1 ∧
      bitOf (t.reg (R.PG_EVT Pg.SAFE)).toNat 13 = true := by
  let r := s.answering ⟨Code.ok, []⟩
  let v := (r.bump F.SAFE_HDBLK_REFUSED).set F.SAFE_HDBLK_WHY 2
  let u := v.event Pg.SAFE 13
  have htest : r.deblockTest = 2 := by simp [deblockTest, r, answering, hstart, halatch]
  have hrule : r.hubCommand (getBits 0x0DB1 0 16) = u := by
    change (if r.deblockTest ≠ 0 then _ else _) = u
    rw [htest]
    rfl
  have hrole : (u.answering ⟨Code.ok, []⟩).role = .hub := (event_role _ _ _).trans hhub
  have hlatched : (u.answering ⟨Code.ok, []⟩).safe.alatch ≠ 0 := by
    rw [show (u.answering ⟨Code.ok, []⟩).safe = v.safe from event_safe _ _ _]
    exact halatch
  refine yields_hcmd (exec_hubDeblock path s) hreach hhub (by rw [hrule, event_resp]; rfl) ?_
  rw [hrule]
  refine ⟨settle_vb_of_blocked hrole (.inl hlatched), ?_, ?_, bitOf_settle_of (by decide) (bitOf_event _ _ (by decide))⟩
  · rw [settle_get _ (by decide)]
    exact (get_event_ne _ _ _ (by decide)).trans (get_set_same _ _ _ (by decide))
  · rw [settle_get _ (by decide)]
    exact (get_event_ne _ _ _ (by decide)).trans <|
      (get_set_other _ _ (by decide)).trans (get_bump_same _ _ _ (by decide))

end

end Sys2Proof.Machine
end

section
/-! PROOFS. The deblock sequencer, the single deblock and the statement of valve block at the hub (R515 to R517). -/

namespace Sys2Proof.Machine

open State

namespace State

/-- The sequencer queues the record of the first berth left (R516). -/
def sequenced (s : State) (i : Nat) (l : List Nat) : State :=
  let t := (s.mgmtQueue (i / 256) (s.deblockRecord i)).2
  { t with safe := { t.safe with seqLeft := l, seqOpen := t.safe.seqOpen ++ [i] } }

theorem sequence_of_room {s : State} {i : Nat} {l : List Nat} (hleft : s.safe.seqLeft = i :: l)
    (hmay : mayDeblock (s.berth i) = true) (hroom : s.mgmtRoom (i / 256) = true) : s.sequence = s.sequenced i l := by
  simp only [sequence, hleft, hmay, hroom, Bool.not_true, Bool.false_eq_true, if_false, if_true, sequenced]

/-- The record is the last in its port's queue. -/
theorem sequenced_last (s : State) (i : Nat) (l : List Nat) :
    ((((s.sequenced i l).port (i / 256)).mq.getLast?).map fun r => (r.berth, r.rtype, r.deblock)) = some (i % 256, 2, true) := by
  have hport : (s.sequenced i l).port (i / 256) = _ := port_setPort_same s (i / 256) _
  rw [hport]
  simp [deblockRecord]

end State

theorem exec_deblockSequenceQueue (s : State) : exec .deblockSequenceQueue s = act s (s.hubLive && s.safe.vb) sequence := rfl

/-- One record a step of the sequencer (R516). -/
theorem yields_deblockSequenceQueue {s : State} {i : Nat} {l : List Nat} (hlive : s.hubLive = true) (hvb : s.safe.vb = true)
    (halatch : s.safe.alatch = 0) (hbreq : s.safe.breq = false) (hdrives : s.hubDrives = true)
    (hleft : s.safe.seqLeft = i :: l) (hmay : mayDeblock (s.berth i) = true) (hroom : s.mgmtRoom (i / 256) = true) :
    Yields .deblockSequenceQueue s fun t => t.safe.seqLeft = l ∧
      ((t.port (i / 256)).mq.getLast?.map fun r => (r.berth, r.rtype, r.deblock)) = some (i % 256, 2, true) ∧
      t.safe.seqOpen = s.safe.seqOpen ++ [i] := by
  refine yields_of_act (exec_deblockSequenceQueue s) (by rw [hlive, hvb]; rfl) ?_
  rw [sequence_of_room hleft hmay hroom]
  have hrole : (s.sequenced i l).role = .hub := role_of_hubLive hlive
  have hsafe : (s.sequenced i l).settle.safe = (s.sequenced i l).safe := settle_safe_of_open hrole halatch hbreq hdrives
  have hports : (s.sequenced i l).settle.ports = (s.sequenced i l).ports := settle_ports_of_hub hrole halatch hbreq hdrives
  refine ⟨by rw [hsafe]; rfl, ?_, by rw [hsafe]; rfl⟩
  rw [port, hports]
  exact sequenced_last s i l

/-- The bits that a write of a register stores. -/
def storedMask (d : RegDesc) : Word := BitVec.ofNat 32 (maskOf d fun f => f.kind != .ro && f.kind != .w)

/-- A write of a register of a page that runs: what is stored of it, then its rule. -/
theorem State.writeActs_of_open {s : State} {d : RegDesc} {w : Wr} (data : Word) (hopen : s.gated (w.a / 0x400) = false)
    (hboard : w.a ≠ R.BERTH_BOARD) (hstored : ¬ (owned w.a = true ∨ storedMask d = 0)) :
    s.writeActs d w data = (s.setReg w.a ((s.reg w.a &&& ~~~storedMask d) ||| (w.v &&& storedMask d))).hook w := by
  unfold storedMask at hstored
  simp only [writeActs, hopen, Bool.false_and, Bool.false_eq_true, false_and, if_false, State.when, if_neg hboard, if_neg hstored,
    storedMask]

/-- The low bits of a word. -/
theorem and_low_eq_getBits (v : Word) : v &&& 0x3FF#32 = BitVec.ofNat 32 (getBits v 0 10) := by
  apply BitVec.eq_of_toNat_eq
  have hlow : v.toNat &&& 1023 = v.toNat % 1024 := Nat.and_two_pow_sub_one_eq_mod v.toNat 10
  refine hlow.trans ?_
  simp only [getBits, BitVec.toNat_ofNat, Nat.shiftRight_zero]
  omega

/-- BERTH of SAFE_HDBB written. -/
def State.berthWritten (s : State) (i : Nat) : State :=
  s.setReg R.SAFE_HDBB ((s.reg R.SAFE_HDBB &&& ~~~0x3FF#32) ||| BitVec.ofNat 32 i)

/-- A write of SAFE_HDBB stores BERTH and deblocks the berth written (R517). -/
theorem State.writeActs_hdbb {s : State} {w : Wr} (data : Word) (ha : w.a = R.SAFE_HDBB) (hopen : s.gated Pg.SAFE = false)
    (hgo : w.bit 31 = true) : s.writeActs hdbbDesc w data = (s.berthWritten (w.get 0 10)).hubDeblockOne (w.get 0 10) := by
  have hpage : w.a / 0x400 = Pg.SAFE := by rw [ha]; rfl
  have hmask : storedMask hdbbDesc = 0x3FF#32 := by decide
  rw [writeActs_of_open data (by rw [hpage]; exact hopen) (by rw [ha]; decide) (by rw [ha]; decide), hook_safe _ hpage,
    hookSafe_hdbb _ ha hgo, ha, hmask, and_low_eq_getBits]
  rfl

theorem exec_singleBerthDeblock (path : Path) (i : Nat) (s : State) :
    exec (.singleBerthDeblock path i) s = writeRow s path R.SAFE_HDBB (BitVec.ofNat 32 (i % 1024 + 2 ^ 31)) := rfl

/-- The record of a single deblock (R517). -/
theorem yields_singleBerthDeblock {s : State} {path : Path} {i : Nat} (hreach : s.Reaches path Pg.SAFE) (hhub : s.role = .hub)
    (hvb : s.safe.vb = true) (halatch : s.safe.alatch = 0) (hbreq : s.safe.breq = false) (hdrives : s.hubDrives = true)
    (hleft : s.safe.seqLeft = []) (hi : i < 1024) (hmay : mayDeblock (s.berth i) = true) (hroom : s.mgmtRoom (i / 256) = true) :
    Yields (.singleBerthDeblock path i) s fun t =>
      ((t.port (i / 256)).mq.getLast?.map fun r => (r.berth, r.rtype, r.deblock)) = some (i % 256, 2, true) ∧ t.safe.vb = true := by
  obtain ⟨hpath, -, hopen⟩ := hreach
  let data := BitVec.ofNat 32 (i % 1024 + 2 ^ 31)
  have hlow : getBits data 0 10 = i := by
    simp only [data, getBits, BitVec.toNat_ofNat, Nat.shiftRight_zero]
    omega
  have hgo : getBits data 31 1 = 1 := by
    simp only [data, getBits, BitVec.toNat_ofNat, Nat.shiftRight_eq_div_pow]
    omega
  let b := (s.answering ⟨Code.ok, []⟩).berthWritten i
  let q : State := { b with safe := { b.safe with seqLeft := [i] } }
  have hqueued : b.hubDeblockOne i = q.sequenced i [] := by
    rw [hubDeblockOne, if_pos ⟨hvb, hmay⟩, deblockOne, show b.safe.seqLeft = [] from hleft]
    exact sequence_of_room rfl hmay hroom
  have hwrite : s.writeCmd path 4 R.SAFE_HDBB data = (q.sequenced i []).answering ⟨Code.ok, []⟩ := by
    rw [writeCmd_plain (u := q.sequenced i []) (plainReg_hdbb hhub) rfl fun w _ ha hfields => ?_]
    · exact answerAccess_ruled_of_ok rfl path _ _
    · have hi' : w.get 0 10 = i := (hfields (fd 0 10 .rw) (by simp [hdbbDesc])).trans hlow
      have hbit : w.bit 31 = true := by
        exact beq_iff_eq.mpr ((hfields (fd 31 1 .w) (by simp [hdbbDesc])).trans hgo)
      rw [writeActs_hdbb data ha (s := s.answering ⟨Code.ok, []⟩) hopen hbit, hi', hqueued]
  have hdrives' : ((q.sequenced i []).answering ⟨Code.ok, []⟩).hubDrives = true := by
    rw [← hdrives, hubDrives, hubDrives, State.is, State.is]
    exact congrArg (fun n => !(n != 0) || s.twin.active) (get_setReg_ne (s.answering ⟨Code.ok, []⟩) _ (by decide))
  have hsafe := settle_safe_of_open (s := (q.sequenced i []).answering ⟨Code.ok, []⟩) hhub halatch hbreq hdrives'
  have hports := settle_ports_of_hub (s := (q.sequenced i []).answering ⟨Code.ok, []⟩) hhub halatch hbreq hdrives'
  refine yields_of_act (exec_singleBerthDeblock path i s) hpath ?_
  rw [hwrite]
  refine ⟨?_, by rw [hsafe]; exact hvb⟩
  rw [port, hports]
  exact sequenced_last q i []

/-- Settles O27: each event and command of valve block by the rule it follows; what stands behind it is read off the hardwired
logic of a hub. -/
theorem hubValveBlock : Obligations.HubValveBlock := by
  unfold Obligations.HubValveBlock
  refine ⟨?_, ?_, ?_, ?_, ?_, ?_, ?_, ?_, ?_, ?_, ?_, ?_, ?_, ?_, ?_⟩
  case refine_1 => exact fun s pin low hlive hlow => yields_alatch hlive (lowLong_of_long s pin hlow)
  case refine_2 =>
    rintro s pin low hlive (rfl | rfl) hpass
    · exact (yields_alatch (pin := .trip0) hlive hpass).imp fun t ⟨he, hbit, _, hvb, _, hevent⟩ => ⟨he, hbit, hvb, hevent⟩
    · exact (yields_alatch (pin := .trip1) hlive hpass).imp fun t ⟨he, hbit, _, hvb, _, hevent⟩ => ⟨he, hbit, hvb, hevent⟩
  case refine_3 => exact fun s hlive hdiffer => yields_disc hlive hdiffer
  case refine_4 => exact fun s pin hlive => yields_hubSourceRelease pin hlive
  case refine_5 => exact fun s hsettled hlive hstart hA hB => exec_startupTestOpen_of_open hsettled hlive hstart hA hB
  case refine_6 => exact fun s hlive hstart hA hB => yields_startupPass hlive hstart hA hB
  case refine_7 => exact fun s path hreach hhub hnone => yields_hubAclr hreach (role_of_isHub hhub) hnone
  case refine_8 => exact fun s path hreach hhub hsome => yields_hubAclr_refused hreach (role_of_isHub hhub) hsome
  case refine_9 => exact fun s path hreach hhub => yields_hubBset hreach (role_of_isHub hhub)
  case refine_10 => exact fun s path hreach hhub => yields_hubBclr hreach (role_of_isHub hhub)
  case refine_11 =>
    intro s path hreach hhub hstart halatch hbreq hsole hruns hrun _
    refine yields_hubDeblock hreach (role_of_isHub hhub) hstart halatch hbreq ?_ (Bool.and_eq_true_iff.mpr ⟨hruns, hrun⟩)
    rcases hsole with h | h <;> simp [hubDrives, h]
  case refine_12 => exact fun s path hreach hhub hstart halatch => yields_hubDeblock_refused hreach (role_of_isHub hhub) hstart halatch
  case refine_13 =>
    intro s i l hlive hvb halatch hbreq hsole hleft hmay hroom _
    exact yields_deblockSequenceQueue hlive hvb halatch hbreq (by simp [hubDrives, hsole]) hleft hmay hroom
  case refine_14 =>
    intro s path i hreach hhub hvb halatch hbreq hsole hleft hi hmay hroom
    exact yields_singleBerthDeblock hreach (role_of_isHub hhub) hvb halatch hbreq (by simp [hubDrives, hsole]) hleft hi hmay hroom
  case refine_15 => exact fun s halive hopen hhub hblk => yields_debugHalt_hub halive hopen hhub hblk

end Sys2Proof.Machine
end

section
/-! PROOFS. What the hardwired logic leaves of a cell's gate and safety blocks (R471, R478, R479, R519). -/

namespace Sys2Proof.Machine

namespace State

/-- Do the fault logic, the permanent bypass or block forcing act on a cell? -/
def forced (s : State) : Prop := s.gate.pbyp = true ∨ s.gate.latch ≠ 0 ∨ s.blkForced = true

/-- The registers that show a test on an uplink and whether the plausibility input acts (R217, R521). -/
def forcingRegs : List Nat := [R.LANE_CFG 0, R.LANE_CFG 1, R.LANE_PRBS_CTL 0, R.LANE_PRBS_CTL 1, R.SAFE_CCFG]

theorem uplinkTest_congr {s t : State} (hreg : ∀ a ∈ forcingRegs, t.reg a = s.reg a) {n : Nat} (hn : n < 2) :
    t.uplinkTest n = s.uplinkTest n := by
  have hcfg : t.reg (R.LANE_CFG n) = s.reg (R.LANE_CFG n) := hreg _ (by interval_cases n <;> decide)
  have hprbs : t.reg (R.LANE_PRBS_CTL n) = s.reg (R.LANE_PRBS_CTL n) := hreg _ (by interval_cases n <;> decide)
  unfold uplinkTest State.is get F.LANE_CFG_LB F.LANE_PRBS_CTL_GEN F.LANE_PRBS_CTL_CHK
  rw [hcfg, hprbs]

theorem blkSeenNow_congr {s t : State} (hsafe : t.safe = s.safe) (hreg : ∀ a ∈ forcingRegs, t.reg a = s.reg a) :
    t.blkSeenNow = s.blkSeenNow := by
  rw [blkSeenNow, blkSeenNow, hsafe, uplinkTest_congr hreg (by decide), uplinkTest_congr hreg (by decide)]

theorem blkForced_congr {s t : State} (hsafe : t.safe = s.safe) (hreg : ∀ a ∈ forcingRegs, t.reg a = s.reg a) :
    t.blkForced = s.blkForced := by
  have hcfg : t.reg R.SAFE_CCFG = s.reg R.SAFE_CCFG := hreg _ (by decide)
  rw [blkForced, blkForced, blkSeenNow_congr hsafe hreg, hsafe]
  simp only [State.is, get, F.SAFE_CCFG_PLACT, hcfg]

theorem forced_congr {s t : State} (hsafe : t.safe = s.safe) (hgate : t.gate = s.gate)
    (hreg : ∀ a ∈ forcingRegs, t.reg a = s.reg a) : t.forced ↔ s.forced := by
  rw [forced, forced, hgate, blkForced_congr hsafe hreg]

theorem forceGates_pbyp (s : State) : s.forceGates.gate.pbyp = s.gate.pbyp := by
  unfold forceGates
  split <;> [rfl; split <;> [rfl; split <;> rfl]]

theorem forceGates_latch (s : State) : s.forceGates.gate.latch = s.gate.latch := by
  unfold forceGates
  split <;> [rfl; split <;> [rfl; split <;> rfl]]

/-- The levels are forced by what is forced before them. -/
theorem forced_forceGates (s : State) : s.forceGates.forced ↔ s.forced := by
  have hblk : s.forceGates.blkForced = s.blkForced := by rw [forceGates_eq]; rfl
  rw [forced, forced, forceGates_pbyp, forceGates_latch, hblk]

section
variable {s : State} (hc : s.role = .cell)
include hc

theorem settle_safe_of_cell :
    s.settle.safe = s.safe ∨ (s.forced ∧ s.settle.safe = { s.safe with db := false }) := by
  have hsafe : s.forceGates.safe = s.safe := by rw [forceGates_eq]
  rw [settle_cell hc, show s.forceGates.forceDb.recordState.safe = s.forceGates.forceDb.safe by rw [recordState_eq]]
  unfold forceDb
  split
  next h =>
    refine .inr ⟨(forced_forceGates s).mp ?_, by rw [← hsafe]⟩
    unfold forced
    tauto
  next => exact .inl hsafe

/-- A cell that is not deblocked is not deblocked by the hardwired logic. -/
theorem settle_db_of_clear (hdb : s.safe.db = false) : s.settle.safe.db = false := by
  obtain h | ⟨-, h⟩ := settle_safe_of_cell hc
  · rw [h, hdb]
  · rw [h]

theorem settle_safe_of_unforced (h : ¬ s.forced) : s.settle.safe = s.safe := by
  obtain hsame | ⟨hf, -⟩ := settle_safe_of_cell hc
  · exact hsame
  · exact absurd hf h

theorem settle_blkSeen : s.settle.safe.blkSeen = s.safe.blkSeen := by
  obtain h | ⟨-, h⟩ := settle_safe_of_cell hc <;> rw [h]

/-- DB of a cell of which nothing changed that the hardwired logic reads. -/
theorem settle_db_of_settled {t : State} (hs : s.Settled) (hrole : t.role = .cell) (hsafe : t.safe = s.safe) (hgate : t.gate = s.gate)
    (hreg : ∀ a ∈ forcingRegs, t.reg a = s.reg a) : t.settle.safe.db = s.safe.db := by
  obtain h | ⟨hf, h⟩ := settle_safe_of_cell hrole
  · rw [h, hsafe]
  · have hsettled : s.CellSettled := hs ▸ cellSettled_settle hc
    rw [h, hsettled.db ((forced_congr hsafe hgate hreg).mp hf)]

/-- The levels of a cell behind the hardwired logic are those it imposes; the history follows. -/
theorem settle_gate_of_cell : s.settle.gate = { s.forceGates.gate with hist := s.settle.gate.hist } := by
  have hdb : s.forceGates.forceDb.gate = s.forceGates.gate := by rw [forceDb_eq]
  rw [settle_cell hc, ← hdb]
  exact recordState_gate _

theorem settle_stops : s.settle.gate.stops = s.gate.stops := by
  rw [settle_gate_of_cell hc]
  unfold forceGates
  split <;> [rfl; split <;> [rfl; split <;> rfl]]

theorem settle_gate5 : s.settle.gate.gate5 = s.gate.gate5 := by
  rw [settle_gate_of_cell hc]
  unfold forceGates
  split <;> [rfl; split <;> [rfl; split <;> rfl]]

/-- A cell that is forced is in block, and blocked. -/
theorem settle_blocked_of_forced (h : s.forced) : s.settle.gate.state = .block ∧ s.settle.gate.blocked = true := by
  obtain ⟨hblock, -, -⟩ := imposed_forceGates s
  rw [forceGates_pbyp, forceGates_latch] at hblock
  obtain ⟨hstate, hblocked, -, -⟩ := hblock h
  rw [settle_gate_of_cell hc]
  exact ⟨hstate, hblocked⟩

/-- Its legs are off under the permanent bypass, and under block forcing without a latched fault. -/
theorem settle_legs_of_forced (h : s.gate.pbyp = true ∨ (s.gate.latch = 0 ∧ s.blkForced = true)) :
    s.settle.gate.legA = .off ∧ s.settle.gate.legB = .off := by
  obtain ⟨-, hoff, -⟩ := imposed_forceGates s
  rw [forceGates_pbyp, forceGates_latch] at hoff
  rw [settle_gate_of_cell hc]
  exact hoff h

/-- What the hardwired logic leaves of a cell that nothing forces. -/
theorem settle_gate_of_unforced (h : ¬ s.forced) : s.settle.gate = { s.gate with hist := s.settle.gate.hist } := by
  simp only [forced, not_or, not_not, Bool.not_eq_true] at h
  obtain ⟨hp, hl, hb⟩ := h
  have hgates : s.forceGates = s := by simp [forceGates, hp, hl, hb]
  have hgate := settle_gate_of_cell hc
  rwa [hgates] at hgate

/-- A cell in block, and blocked, stays so. -/
theorem settle_blocked (hstate : s.gate.state = .block) (hblocked : s.gate.blocked = true) :
    s.settle.gate.state = .block ∧ s.settle.gate.blocked = true := by
  by_cases h : s.forced
  · exact settle_blocked_of_forced hc h
  · rw [settle_gate_of_unforced hc h]
    exact ⟨hstate, hblocked⟩

end

end State
end Sys2Proof.Machine
end

section
/-! PROOFS. The commands of block detection at the cell (R518, R519, R477). -/

namespace Sys2Proof.Machine

open State

namespace State

/-- SAFE_CCMD in the register map. -/
def ccmdDesc : RegDesc := ⟨0x084, 4, 1, 1, 0, [fd 0 16 .w]⟩

theorem plainReg_ccmd {s : State} (hcell : s.role = .cell) : s.plainReg R.SAFE_CCMD ccmdDesc :=
  plainReg_of_page (.inr (.inr rfl)) (by rw [hcell]; rfl) rfl (by rw [hcell]; rfl) rfl (by decide)

/-- Is a path the tree management path (R518)? -/
def treePath : Path → Bool
  | .remote .. => true
  | _ => false

theorem hookSafe_ccmd {w : Wr} (s : State) (ha : w.a = R.SAFE_CCMD) :
    s.hookSafe w = s.cellCommand (treePath w.path) (w.get 0 16) := by
  simp +decide only [hookSafe, ha, if_true, if_false]
  rfl

theorem role_of_isCell {s : State} (h : s.isCell = true) : s.role = .cell := by simpa [isCell] using h

/-- A write of SAFE_CCMD at a cell. -/
theorem writeCmd_ccmd {s : State} {path : Path} (data : Word) (hreach : s.Reaches path Pg.SAFE) (hcell : s.role = .cell) :
    let u := (s.answering ⟨Code.ok, []⟩).cellCommand (treePath path) (getBits data 0 16)
    s.writeCmd path 4 R.SAFE_CCMD data = (u.ruled Pg.SAFE).2.answerAccess path R.SAFE_CCMD (u.ruled Pg.SAFE).1 [] true := by
  obtain ⟨-, -, hopen⟩ := hreach
  refine writeCmd_commands (plainReg_ccmd hcell) rfl hopen fun w hw ha hfields => ?_
  have hcode : w.get 0 16 = getBits data 0 16 := hfields (fd 0 16 .w) (by simp [ccmdDesc])
  rw [hook_safe _ (by rw [ha]; rfl), hookSafe_ccmd _ ha, hcode, hw]

/-- An access fault of the supervisor changes its trap state and CPU_FAULT alone (R80). -/
theorem frame_cpuFault (s : State) (code addr cause : Nat) :
    Frame [.sup] [R.CPU_FAULT, R.CPU_FAULT_ADDR] s (s.cpuFault code addr cause) := by
  have hset (t : State) (f : Fld) (n : Nat) (hf : f.addr = R.CPU_FAULT) :
      Frame [.sup] [R.CPU_FAULT, R.CPU_FAULT_ADDR] t (t.set f n) := (frame_set t f n).mono (by simp) (by simp [hf])
  have htrap : Frame [.sup] [R.CPU_FAULT, R.CPU_FAULT_ADDR] s (s.supTrap addr cause) := (frame_sup s _).mono (by simp) (by simp)
  refine htrap.seq (Frame.ite (hset _ _ _ rfl) ?_)
  exact (((hset _ _ _ rfl).seq (hset _ _ _ rfl)).seq (hset _ _ _ rfl)).seq ((frame_setReg _ _ _).mono (by simp) (by simp))

end State

theorem exec_cellDeblock (path : Path) (s : State) : exec (.cellDeblock path) s = writeRow s path R.SAFE_CCMD 0x0DB1 := rfl

theorem exec_cellBlock (path : Path) (s : State) : exec (.cellBlock path) s = writeRow s path R.SAFE_CCMD 0x0BB1 := rfl

theorem exec_cellPermBypass (path : Path) (s : State) : exec (.cellPermBypass path) s = writeRow s path R.SAFE_CCMD 0x9B55 := rfl

namespace State

/-- What the tests of R518 that pass say. -/
theorem unforced_of_deblockWhy {s : State} (h : s.cellDeblockWhy true = 0) : ¬ s.forced := by
  have hlatch : s.gate.latch = 0 ∧ s.gate.pbyp = false ∧ s.blkSeenNow = false ∧ s.safe.plaus = false := by
    simp only [cellDeblockWhy] at h
    grind
  obtain ⟨hl, hp, hseen, hplaus⟩ := hlatch
  simp [forced, blkForced, hl, hp, hseen, hplaus]

/-- A counter counts on, and wraps. -/
theorem get_count_same (s : State) (f : Fld) (k : Nat) (h : f.lo + f.w ≤ 32) : (s.count f k).get f = (s.get f + k) % 2 ^ f.w := by
  rw [count, get_set_same _ _ _ h]

/-- DB is set and block left (R518). -/
def released (s : State) : State := { s with safe := { s.safe with db := true }, gate := { s.gate with blocked := false } }

/-- A deblock is counted and told. -/
def deblocked (s : State) : State :=
  ((s.released.count F.SAFE_CCNT_DEBLOCKS).event Pg.SAFE 17).bbWrite 0x24 0 [s.released.cycle % 2 ^ 32]

theorem cellDeblockCmd_of_pass {s : State} (hwhy : s.cellDeblockWhy true = 0) (hdb : s.safe.db = false) :
    s.cellDeblockCmd true = s.deblocked := by
  simp only [cellDeblockCmd, hwhy, ne_eq, not_true_eq_false, if_false, hdb, Bool.false_eq_true]
  rfl

theorem frame_released (s : State) : Frame [.safe, .gate] [] s s.released :=
  (frame_safe s s.released.safe).trans (frame_gate _ s.released.gate)

/-- What telling a deblock changes. -/
theorem frame_deblocked (s : State) : Frame [.bb, .box, .recd]
    [R.SAFE_CCNT, R.PG_EVT Pg.SAFE, R.REC_BBSTAT, R.PG_EVT Pg.REC] s.released s.deblocked := by
  unfold deblocked
  exact (((frame_count _ F.SAFE_CCNT_DEBLOCKS 1).trans (frame_event _ _ _)).trans (frame_bbWrite _ _ _ _)).mono (by simp)
    (by simp [F.SAFE_CCNT_DEBLOCKS])

/-- A refused deblock is counted and told (R518). -/
def deblockRefused (s : State) (why : Nat) : State :=
  let v := (((s.set F.SAFE_CSTAT_WHY why).bump F.SAFE_CCNT_REFUSED).event Pg.SAFE 18).set (F.PG_STAT_ERR Pg.SAFE) 1
  v.bbWrite 0x24 why [v.cycle % 2 ^ 32]

theorem cellDeblockCmd_refused (s : State) :
    s.cellDeblockCmd false = { s.deblockRefused 7 with resp := { code := Code.static } } := by
  have hwhy : s.cellDeblockWhy false = 7 := rfl
  unfold cellDeblockCmd
  rw [hwhy]
  exact if_pos (by decide)

/-- What telling a refusal changes. -/
theorem frame_deblockRefused (s : State) (why : Nat) : Frame [.bb, .box, .recd]
    [R.PG_STAT Pg.SAFE, R.REC_BBSTAT, R.PG_EVT Pg.REC]
    (((s.set F.SAFE_CSTAT_WHY why).bump F.SAFE_CCNT_REFUSED).event Pg.SAFE 18) (s.deblockRefused why) := by
  unfold deblockRefused
  exact ((frame_set _ (F.PG_STAT_ERR Pg.SAFE) 1).trans (frame_bbWrite _ _ _ _)).mono (by simp) (by simp [F.PG_STAT_ERR])

/-- The supervisor's deblock: refused, told, answered STATIC, and so an access fault of the supervisor. -/
def supRefused (s : State) : State :=
  (({ s.deblockRefused 7 with resp := { code := Code.static } } : State).set (F.PG_STAT_ERR Pg.SAFE) 1).answerAccess .supervisor
    R.SAFE_CCMD Code.static [] true

end State

/-- A command that writes SAFE_CCMD. -/
theorem yields_ccmd {c : Instr} {s : State} {path : Path} {data : Word} {P : State → Prop}
    (he : exec c s = writeRow s path R.SAFE_CCMD data) (hreach : s.Reaches path Pg.SAFE) (hcell : s.role = .cell)
    (hresp : ((s.answering ⟨Code.ok, []⟩).cellCommand (treePath path) (getBits data 0 16)).resp.code = Code.ok)
    (hP : P (((s.answering ⟨Code.ok, []⟩).cellCommand (treePath path) (getBits data 0 16)).answering ⟨Code.ok, []⟩).settle) :
    Yields c s P := by
  have hpath : s.pathOpen path = true := And.left hreach
  refine yields_of_act he hpath ?_
  rw [writeCmd_ccmd data hreach hcell, answerAccess_ruled_of_ok hresp]
  exact hP

/-- A deblock on the tree path that passes every test (R518). -/
theorem yields_cellDeblock {s : State} {pr sm : Bool} (hreach : s.Reaches (.remote pr sm) Pg.SAFE) (hcell : s.role = .cell)
    (hwhy : s.cellDeblockWhy true = 0) (hdb : s.safe.db = false) :
    Yields (.cellDeblock (.remote pr sm)) s fun t => t.safe.db = true ∧ t.gate.blocked = false ∧
      bitOf (t.reg (R.PG_EVT Pg.SAFE)).toNat 17 = true ∧
      t.get F.SAFE_CCNT_DEBLOCKS = (s.get F.SAFE_CCNT_DEBLOCKS + 1) % 2 ^ F.SAFE_CCNT_DEBLOCKS.w := by
  let r := s.answering ⟨Code.ok, []⟩
  have hrule : r.cellCommand (treePath (.remote pr sm)) (getBits 0x0DB1 0 16) = r.deblocked :=
    cellDeblockCmd_of_pass (s := r) hwhy hdb
  have hframe := frame_deblocked r
  let u := r.deblocked.answering ⟨Code.ok, []⟩
  have hrole : u.role = .cell := (hframe.1 .role (by decide)).trans hcell
  have hsafe : u.safe = r.released.safe := hframe.1 .safe (by decide)
  have hgate : u.gate = r.released.gate := hframe.1 .gate (by decide)
  have hfree : ¬ u.forced := by
    rw [forced_congr hsafe hgate fun a ha => hframe.2 a (by revert ha; revert a; decide)]
    exact unforced_of_deblockWhy hwhy
  refine yields_ccmd (exec_cellDeblock _ s) hreach hcell ?_ ?_
  · rw [hrule, hframe.1 .resp (by decide)]
    rfl
  · rw [hrule]
    refine ⟨?_, ?_, ?_, ?_⟩
    · rw [settle_safe_of_unforced hrole hfree, hsafe]
      rfl
    · rw [settle_gate_of_unforced hrole hfree, hgate]
      rfl
    · refine bitOf_settle_of (by decide) ?_
      change bitOf (r.deblocked.reg (R.PG_EVT Pg.SAFE)).toNat 17 = true
      rw [deblocked, (frame_bbWrite _ _ _ _).2 _ (by decide)]
      exact bitOf_event _ _ (by decide)
    · rw [settle_get _ (by decide)]
      change r.deblocked.get F.SAFE_CCNT_DEBLOCKS = _
      rw [deblocked, (frame_bbWrite _ _ _ _).get (by decide), get_event_ne _ _ _ (by decide), get_count_same _ _ _ (by decide)]
      rfl

section
variable {s : State} {path : Path} (hreach : s.Reaches path Pg.SAFE) (hcell : s.role = .cell)
include hreach hcell

/-- The supervisor's deblock is answered as `supRefused` does (R518). -/
theorem writeCmd_supDeblock (hpath : path = .supervisor) :
    s.writeCmd path 4 R.SAFE_CCMD 0x0DB1 = (s.answering ⟨Code.ok, []⟩).supRefused := by
  subst hpath
  have hrule : (s.answering ⟨Code.ok, []⟩).cellCommand (treePath .supervisor) (getBits 0x0DB1 0 16) =
      { (s.answering ⟨Code.ok, []⟩).deblockRefused 7 with resp := { code := Code.static } } := cellDeblockCmd_refused _
  rw [writeCmd_ccmd 0x0DB1 hreach hcell, hrule]
  rfl

end

/-- A new answer changes the answer alone. -/
theorem frame_answering (s : State) (x : Resp) : Frame [.resp] [] s (s.answering x) :=
  frame_of_parts rfl rfl fun p hp => by
    cases p <;> simp_all [Part.same, State.byte, answering]

/-- What the refusal of the supervisor's deblock changes besides its count. -/
theorem State.frame_supRefused (s : State) : Frame [.bb, .box, .recd, .resp, .sup]
    [R.PG_STAT Pg.SAFE, R.REC_BBSTAT, R.PG_EVT Pg.REC, R.CPU_FAULT, R.CPU_FAULT_ADDR]
    (((s.set F.SAFE_CSTAT_WHY 7).bump F.SAFE_CCNT_REFUSED).event Pg.SAFE 18) s.supRefused := by
  let v := (s.deblockRefused 7).answering ⟨Code.static, []⟩
  have hanswer : s.supRefused = ((v.set (F.PG_STAT_ERR Pg.SAFE) 1).cpuFault Code.static (0x40000000 + R.SAFE_CCMD) 7).answering
      ⟨Code.static, []⟩ := rfl
  rw [hanswer]
  exact ((frame_deblockRefused s 7).trans ((frame_answering _ _).trans ((frame_set _ _ _).trans
    ((frame_cpuFault _ _ _ _).trans (frame_answering _ _))))).mono (by simp) (by simp [F.PG_STAT_ERR])

section
variable {s : State} {path : Path} (hreach : s.Reaches path Pg.SAFE) (hcell : s.role = .cell) (hpath : path = .supervisor)
include hreach hcell hpath

/-- A deblock on the supervisor's path is refused and told (R518). -/
theorem yields_cellDeblock_refused :
    Yields (.cellDeblock path) s fun t => t.get F.SAFE_CSTAT_WHY = 7 ∧
      t.get F.SAFE_CCNT_REFUSED = satAdd F.SAFE_CCNT_REFUSED.w (s.get F.SAFE_CCNT_REFUSED) 1 ∧ t.resp.code = Code.static := by
  let r := s.answering ⟨Code.ok, []⟩
  have hframe := frame_supRefused r
  refine yields_of_act (exec_cellDeblock path s) hreach.1 ?_
  rw [writeCmd_supDeblock hreach hcell hpath, settle_get _ (by decide), settle_get _ (by decide), settle_resp,
    hframe.get (by decide), hframe.get (by decide), get_event_ne _ _ _ (by decide), get_event_ne _ _ _ (by decide),
    get_bump_same _ _ _ (by decide), get_bump_other _ _ (by decide), get_set_same _ _ _ (by decide), get_set_other _ _ (by decide)]
  exact ⟨rfl, rfl, rfl⟩

/-- It leaves DB of a settled cell as it is. -/
theorem yields_cellDeblock_kept (hs : s.Settled) :
    Yields (.cellDeblock path) s fun t => t.safe.db = s.safe.db ∧ t.resp.code = Code.static := by
  let r := s.answering ⟨Code.ok, []⟩
  have hframe : Frame [.bb, .box, .recd, .resp, .sup] [R.SAFE_CSTAT, R.SAFE_CCNT, R.PG_EVT Pg.SAFE, R.PG_STAT Pg.SAFE, R.REC_BBSTAT,
      R.PG_EVT Pg.REC, R.CPU_FAULT, R.CPU_FAULT_ADDR] r r.supRefused :=
    (((frame_set r F.SAFE_CSTAT_WHY 7).trans ((frame_bump _ F.SAFE_CCNT_REFUSED 1).trans (frame_event _ _ _))).trans
      (frame_supRefused r)).mono (by simp) (by simp [F.SAFE_CSTAT_WHY, F.SAFE_CCNT_REFUSED])
  refine yields_of_act (exec_cellDeblock path s) hreach.1 ?_
  rw [writeCmd_supDeblock hreach hcell hpath, settle_resp]
  refine ⟨settle_db_of_settled hcell hs ((hframe.1 .role (by decide)).trans hcell) (hframe.1 .safe (by decide))
    (hframe.1 .gate (by decide)) fun a ha => hframe.2 a ?_, rfl⟩
  revert ha; revert a; decide

end

end Sys2Proof.Machine
end

section
/-! PROOFS. Block, permanent bypass and block detection at the cell (R477, R519, R520, R522, R524), and its statement. -/

namespace Sys2Proof.Machine

open State

namespace State

/-- An edge changes the gate block, and counts. -/
theorem frame_edge (s : State) (st : CellState) (t q : Nat) :
    Frame [.gate, .recd] [R.GATE_CNT2, R.PG_EVT Pg.GATE, R.LT_CNT_LO 0 0, R.LT_CNT_HI 0 0] s (s.edge st t q) := by
  unfold edge
  dsimp only
  have hlate (c : Prop) [Decidable c] : Frame [.gate, .recd] [R.GATE_CNT2, R.PG_EVT Pg.GATE, R.LT_CNT_LO 0 0, R.LT_CNT_HI 0 0] s
      (if c then (s.bump F.GATE_CNT2_NOCOMP).event Pg.GATE 14 else s) :=
    Frame.ite (((frame_bump s F.GATE_CNT2_NOCOMP 1).trans (frame_event _ _ _)).mono (by simp) (by simp [F.GATE_CNT2_NOCOMP]))
      (Frame.refl ..)
  exact (hlate _).seq (((frame_ltAdd _ 0 1).trans (frame_gate _ _)).mono (by simp) (by simp))

/-- A cell that is told to block is in block, blocked, with DB clear. -/
theorem blockEdge_blocked (s : State) (t q : Nat) : (s.blockEdge t q).gate.state = .block ∧ (s.blockEdge t q).gate.blocked = true ∧
    (s.blockEdge t q).safe.db = false ∧ (s.blockEdge t q).role = s.role ∧ (s.blockEdge t q).resp = s.resp := by
  unfold blockEdge
  dsimp only
  split
  next hblock => exact ⟨hblock, rfl, rfl, rfl, rfl⟩
  next => exact ⟨rfl, rfl, rfl, (frame_edge s .block t q).1 .role (by decide), (frame_edge s .block t q).1 .resp (by decide)⟩

/-- Behind a block a cell is in block, blocked, with DB clear (R519). -/
theorem settle_cellBlockNow {s : State} (hc : s.role = .cell) : s.cellBlockNow.settle.safe.db = false ∧
    s.cellBlockNow.settle.gate.state = .block ∧ s.cellBlockNow.settle.gate.blocked = true ∧ s.cellBlockNow.resp = s.resp := by
  unfold cellBlockNow
  split
  next hp =>
    let u : State := { s with safe := { s.safe with db := false } }
    obtain ⟨hstate, hblocked⟩ := settle_blocked_of_forced (s := u) hc (.inl hp)
    exact ⟨settle_db_of_clear (s := u) hc rfl, hstate, hblocked, rfl⟩
  next =>
    obtain ⟨hstate, hblocked, hdb, hrole, hresp⟩ := s.blockEdge_blocked s.now s.now
    have hc' := hrole.trans hc
    obtain ⟨hstate', hblocked'⟩ := settle_blocked hc' hstate hblocked
    exact ⟨settle_db_of_clear hc' hdb, hstate', hblocked', hresp⟩

/-- The permanent bypass, started (R477). -/
def bypassed (s : State) : State :=
  { s with
    gate := { s.gate with pbyp := true, state := .block, blocked := true, dropped := none, gate5 := true, gate5Run := true },
    safe := { s.safe with db := false } }

theorem permBypass_eq {s : State} (hp : s.gate.pbyp = false) :
    s.permBypass = (((s.bypassed.when (s.is F.GATE_PBY_THY) fireThy).event Pg.GATE 10).bbAction 6).bbFreeze 4 := by
  simp only [permBypass, hp, Bool.false_eq_true, if_false]
  rfl

/-- What the permanent bypass leaves of the gate and safety blocks. -/
theorem permBypass_gate {s : State} (hp : s.gate.pbyp = false) : s.permBypass.gate.pbyp = true ∧ s.permBypass.gate.gate5 = true ∧
    s.permBypass.safe.db = false ∧ s.permBypass.role = s.role ∧ s.permBypass.resp = s.resp := by
  let v := s.bypassed.when (s.is F.GATE_PBY_THY) fireThy
  have hframe : Frame [.bb, .box, .recd] [R.PG_EVT Pg.GATE, R.REC_BBSTAT, R.PG_EVT Pg.REC] v s.permBypass := by
    rw [permBypass_eq hp]
    exact ((frame_event _ _ _).trans ((frame_bbWrite _ _ _ _).trans (frame_bbFreeze _ _))).mono (by simp) (by simp)
  have hv : v.gate.pbyp = true ∧ v.gate.gate5 = true ∧ v.safe.db = false ∧ v.role = s.role ∧ v.resp = s.resp := by
    unfold v State.when
    split <;> exact ⟨rfl, rfl, rfl, rfl, rfl⟩
  rw [hframe.1 .gate (by decide), hframe.1 .safe (by decide), hframe.1 .role (by decide), hframe.1 .resp (by decide)]
  exact hv

end State

section
variable {s : State} {path : Path} (hreach : s.Reaches path Pg.SAFE) (hcell : s.role = .cell)
include hreach hcell

/-- A block (R519). -/
theorem yields_cellBlock :
    Yields (.cellBlock path) s fun t => t.safe.db = false ∧ t.gate.state = .block ∧ t.gate.blocked = true := by
  have hrule : (s.answering ⟨Code.ok, []⟩).cellCommand (treePath path) (getBits 0x0BB1 0 16) =
      (s.answering ⟨Code.ok, []⟩).cellBlockNow := rfl
  obtain ⟨hdb, hstate, hblocked, hresp⟩ := settle_cellBlockNow (s := s.answering ⟨Code.ok, []⟩) hcell
  have hself : (s.answering ⟨Code.ok, []⟩).cellBlockNow.answering ⟨Code.ok, []⟩ = (s.answering ⟨Code.ok, []⟩).cellBlockNow :=
    answering_of_resp hresp
  refine yields_ccmd (exec_cellBlock path s) hreach hcell (by rw [hrule, hresp]; rfl) ?_
  rw [hrule, hself]
  exact ⟨hdb, hstate, hblocked⟩

/-- The permanent bypass by its command (R477). -/
theorem yields_cellPermBypass (hp : s.gate.pbyp = false) :
    Yields (.cellPermBypass path) s fun t => t.gate.pbyp = true ∧ t.gate.gate5 = true ∧ t.safe.db = false ∧
      t.gate.legA = .off ∧ t.gate.legB = .off := by
  let r := s.answering ⟨Code.ok, []⟩
  have hrule : r.cellCommand (treePath path) (getBits 0x9B55 0 16) = r.permBypass := rfl
  obtain ⟨hpbyp, hgate5, hdb, hrole, hresp⟩ := permBypass_gate (s := r) hp
  have hc : r.permBypass.role = .cell := hrole.trans hcell
  have hself : r.permBypass.answering ⟨Code.ok, []⟩ = r.permBypass := answering_of_resp hresp
  refine yields_ccmd (exec_cellPermBypass path s) hreach hcell (by rw [hrule, hresp]; rfl) ?_
  rw [hrule, hself]
  obtain ⟨hA, hB⟩ := settle_legs_of_forced hc (.inl hpbyp)
  exact ⟨by rw [settle_pbyp, hpbyp], by rw [settle_gate5 hc, hgate5], settle_db_of_clear hc hdb, hA, hB⟩

end

theorem exec_blkos (u r : Nat) (s : State) : exec (.blkos u r) s = execBlkos u r s := rfl

theorem exec_blkseenClear (s : State) : exec .blkseenClear s = execBlkseenClear s := rfl

namespace State

theorem role_of_gateLive {s : State} (h : s.gateLive = true) : s.role = .cell := by
  obtain ⟨-, hcell⟩ := Bool.and_eq_true_iff.mp h
  exact role_of_isCell hcell

/-- BLOCK ordered sets are seen: counted, the requests flushed, DB clear (R520, R687). -/
def seenBlock (s : State) : State :=
  let s := ((s.bump F.SAFE_CCNT_BLKOS).event Pg.SAFE 16).forceBlock.evFlag 9
  { s with safe := { s.safe with blkSeen := true, blkAt := s.now } }

/-- The reaction time is shown (R524). -/
def showReaction (s : State) (ns : Nat) : State :=
  let r := min 65535 ns
  (s.set F.SAFE_CREACT_LAST r).set F.SAFE_CREACT_WORST (max r (s.get F.SAFE_CREACT_WORST))

/-- The reaction is measured and recorded. -/
def recordReaction (s : State) (u ns : Nat) : State :=
  ((s.monitor 10 fun _ => some (ns : Int)).bbWrite 0x22 u [s.cycle % 2 ^ 32]).bbFreeze 2

theorem frame_recordReaction (s : State) (u ns : Nat) :
    Frame [.mon, .bb, .box, .recd] [R.REC_BBSTAT, R.PG_EVT Pg.REC] s (s.recordReaction u ns) := by
  unfold recordReaction
  exact ((frame_monitor s 10 _).trans ((frame_bbWrite _ _ _ _).trans (frame_bbFreeze _ _))).mono (by simp) (by simp)

theorem get_showReaction (s : State) (ns : Nat) : (s.showReaction ns).get F.SAFE_CREACT_LAST = min 65535 ns := by
  unfold showReaction
  dsimp only
  rw [get_set_other _ _ (by decide), get_set_same _ _ _ (by decide)]
  exact Nat.mod_eq_of_lt (by change min 65535 ns < 65536; omega)

theorem frame_showReaction (s : State) (ns : Nat) : Frame [] [R.SAFE_CREACT] s (s.showReaction ns) := by
  unfold showReaction
  exact ((frame_set s F.SAFE_CREACT_LAST _).trans (frame_set _ F.SAFE_CREACT_WORST _)).mono (by simp)
    (by simp [F.SAFE_CREACT_LAST, F.SAFE_CREACT_WORST])

theorem get_seenBlock (s : State) :
    s.seenBlock.get F.SAFE_CCNT_BLKOS = satAdd F.SAFE_CCNT_BLKOS.w (s.get F.SAFE_CCNT_BLKOS) 1 := by
  let u := (s.bump F.SAFE_CCNT_BLKOS).event Pg.SAFE 16
  have hflush : s.seenBlock.get F.SAFE_CCNT_BLKOS = u.flushRequests.get F.SAFE_CCNT_BLKOS := rfl
  rw [hflush]
  refine (get_bump_other _ _ (by decide)).trans ?_
  change u.get F.SAFE_CCNT_BLKOS = _
  exact (get_event_ne _ _ _ (by decide)).trans (get_bump_same _ _ _ (by decide))

theorem seenBlock_parts (s : State) : s.seenBlock.safe.db = false ∧ s.seenBlock.safe.blkSeen = true ∧ s.seenBlock.role = s.role ∧
    s.seenBlock.gate.latch = s.gate.latch :=
  have hlatch : ((s.bump F.SAFE_CCNT_BLKOS).event Pg.SAFE 16).gate.latch = s.gate.latch := by rw [event_gate]; rfl
  ⟨rfl, rfl, event_role (s.bump F.SAFE_CCNT_BLKOS) _ _, hlatch⟩

end State

/-- BLOCK ordered sets block the cell (R520, R687); without a latched fault its legs are off. -/
theorem yields_blkos {s : State} {u r : Nat} (hlive : s.gateLive = true) (hu : u < 2) :
    Yields (.blkos u r) s fun t => (t.safe.db = false ∧ t.safe.blkSeen = true ∧ t.gate.state = .block ∧ t.gate.blocked = true ∧
      t.get F.SAFE_CREACT_LAST = min 65535 r ∧ t.get F.SAFE_CCNT_BLKOS = satAdd F.SAFE_CCNT_BLKOS.w (s.get F.SAFE_CCNT_BLKOS) 1) ∧
      (s.gate.latch = 0 → t.gate.legA = .off ∧ t.gate.legB = .off) := by
  let v := (s.seenBlock.showReaction r).recordReaction u r
  obtain ⟨hdb, hseen, hrole, hlatch⟩ := s.seenBlock_parts
  have hshow := frame_showReaction s.seenBlock r
  have hrecord := frame_recordReaction (s.seenBlock.showReaction r) u r
  have hframe : Frame [.mon, .bb, .box, .recd] [R.SAFE_CREACT, R.REC_BBSTAT, R.PG_EVT Pg.REC] s.seenBlock v := hshow.trans hrecord
  have hc : v.role = .cell := ((hframe.1 .role (by decide)).trans hrole).trans (role_of_gateLive hlive)
  have hsafe : v.safe = s.seenBlock.safe := hframe.1 .safe (by decide)
  have hgate : v.gate = s.seenBlock.gate := hframe.1 .gate (by decide)
  have hforced : v.blkForced = true := by simp [blkForced, blkSeenNow, hsafe, hseen]
  refine yields_of_act (f := fun s => (s.seenBlock.showReaction r).recordReaction u r) rfl (by simp [hlive, hu]) ?_
  obtain ⟨hstate, hblocked⟩ := settle_blocked_of_forced hc (.inr (.inr hforced))
  refine ⟨⟨settle_db_of_clear hc (by rw [hsafe, hdb]), by rw [settle_blkSeen hc, hsafe, hseen], hstate, hblocked, ?_, ?_⟩, fun hl => ?_⟩
  · rw [settle_get _ (by decide), hrecord.get (by decide), get_showReaction]
  · rw [settle_get _ (by decide), hframe.get (by decide), get_seenBlock]
  · exact settle_legs_of_forced hc (.inr ⟨by rw [hgate, hlatch, hl], hforced⟩)

/-- Where the time unit counts, it reaches the instant. -/
theorem State.le_reach_now {s : State} {t : Nat} (hruns : s.runs Pg.TIME = true) : t ≤ (s.reach t).now := by
  unfold reach
  by_cases h : s.now < t
  · have hcond : (s.runs Pg.TIME && decide (s.now < (t : Int).toNat)) = true := by simp [hruns, h]
    rw [if_pos hcond]
    exact Nat.le_max_right _ _
  · have hcond : ¬ (s.runs Pg.TIME && decide (s.now < (t : Int).toNat)) = true := by simp [Nat.not_lt.mp h]
    rw [if_neg hcond]
    exact Nat.not_lt.mp h

/-- BLKSEEN clears at least four cycles after the last detection (R520). -/
theorem yields_blkseenClear {s : State} (hlive : s.gateLive = true) (hseen : s.safe.blkSeen = true) (hruns : s.runs Pg.TIME = true) :
    Yields .blkseenClear s fun t => t.safe.blkSeen = false ∧ s.safe.blkAt + 4 * s.tcyc ≤ t.now ∧
      t.blkSeenNow = (s.uplinkTest 0 || s.uplinkTest 1) := by
  have hc := role_of_gateLive hlive
  let v := s.reach ((s.safe.blkAt + 4 * s.tcyc : Nat) : Int)
  have hframe : TimeFrame s v := timeFrame_reach (by simp [isCell, hc]) _
  let u : State := { v with safe := { v.safe with blkSeen := false } }
  have hu : u.role = .cell := (hframe.1 .role (by decide)).trans hc
  have hclear : u.settle.safe.blkSeen = false := settle_blkSeen hu
  have hkept : ∀ a ∈ forcingRegs, u.settle.reg a = s.reg a := fun a ha =>
    ((frame_settle u).2 a (by revert ha; revert a; decide)).trans (hframe.2 a (by revert ha; revert a; decide))
  refine yields_of_act (f := fun s =>
    let s := s.reach (s.safe.blkAt + 4 * s.tcyc)
    { s with safe := { s.safe with blkSeen := false } }) rfl (by rw [hlive, hseen]; rfl) ?_
  refine ⟨hclear, ?_, ?_⟩
  · rw [settle_now]
    exact le_reach_now hruns
  · change u.settle.blkSeenNow = _
    rw [blkSeenNow, hclear, uplinkTest_congr hkept (by decide), uplinkTest_congr hkept (by decide), Bool.false_or]

namespace State

/-- The causes of STOP with one more. -/
def stopList (s : State) (cause : StopCause) : List StopCause :=
  if s.gate.stops.contains cause then s.gate.stops else cause :: s.gate.stops

theorem mem_stopList (s : State) (cause : StopCause) : cause ∈ s.stopList cause := by
  unfold stopList
  split
  next h => exact List.contains_iff_mem.mp h
  next => exact List.mem_cons_self

/-- The gate block with a cause of STOP more: a FULL cell freezes, a HALF cell goes to block. -/
def stopped (s : State) (cause : StopCause) : State :=
  let g := { s.gate with stops := s.stopList cause, riseA := none, riseB := none }
  if s.full then { s with gate := g }
  else { s with
    gate := { g with state := .block, blocked := true, dropped := none, legA := .off, legB := .off }, safe := { s.safe with db := false } }

theorem gateStop_eq (s : State) (cause : StopCause) :
    s.gateStop cause = (s.stopped cause).when (!s.inStop) fun s => s.event Pg.GATE 12 := rfl

theorem stopped_parts (s : State) (cause : StopCause) : (s.stopped cause).role = s.role ∧ (s.stopped cause).sup = s.sup ∧
    (s.stopped cause).gate.stops = s.stopList cause := by
  unfold stopped
  split <;> exact ⟨rfl, rfl, rfl⟩

/-- A cause of STOP that begins is among the causes (R475). -/
theorem gateStop_parts (s : State) (cause : StopCause) : (s.gateStop cause).role = s.role ∧ (s.gateStop cause).sup = s.sup ∧
    cause ∈ (s.gateStop cause).gate.stops := by
  have hframe : Frame [.recd] [R.PG_EVT Pg.GATE] (s.stopped cause) (s.gateStop cause) := by
    rw [gateStop_eq]
    exact frame_when _ (frame_event _ _ _)
  obtain ⟨hrole, hsup, hstops⟩ := s.stopped_parts cause
  rw [hframe.1 .gate (by decide), hframe.1 .role (by decide), hframe.1 .sup (by decide), hrole, hsup, hstops]
  exact ⟨rfl, rfl, s.mem_stopList cause⟩

/-- What a halt by the debug port does besides (R475, R511). -/
def haltActs (s : State) : State :=
  if s.isHub then s.when (s.is F.SAFE_HCFG_DBGBLK) (·.blockRequest 5)
  else if s.isCell then
    match execGateStopEnter .debug s with
    | .next t => t
    | _ => s
  else s

theorem haltActs_of_cell {s : State} (halive : s.alive = true) (hcell : s.isCell = true) :
    s.haltActs = (s.gateStop .debug).settle := by
  have hstop : execGateStopEnter .debug s = .next (s.gateStop .debug).settle :=
    act_eq_settle _ (by simp [gateLive, pageCause, halive, hcell])
  have hhub : s.isHub = false := by simp [isHub, role_of_isCell hcell]
  simp only [haltActs, hhub, hcell, hstop, Bool.false_eq_true, if_false, if_true]

end State

/-- A halt by the debug port stops the gate block of a cell (R475). -/
theorem yields_debugHalt_cell {s : State} (halive : s.alive = true) (hopen : s.is F.DBG_STAT_OPEN = true) (hcell : s.isCell = true) :
    Yields .supervisorDebugHalt s fun t => t.sup.halted = true ∧ t.gate.stops.contains .debug = true := by
  let u : State := { s with sup := { s.sup with halted := true } }
  have hacts : u.haltActs = (u.gateStop .debug).settle := haltActs_of_cell halive hcell
  obtain ⟨hrole, hsup, hmem⟩ := u.gateStop_parts .debug
  have hc : (u.gateStop .debug).role = .cell := hrole.trans (role_of_isCell hcell)
  refine yields_of_act (f := fun s => { s with sup := { s.sup with halted := true } }.haltActs) rfl (by simp [halive, hopen]) ?_
  change u.haltActs.settle.sup.halted = true ∧ u.haltActs.settle.gate.stops.contains .debug = true
  rw [hacts]
  refine ⟨by rw [settle_sup, settle_sup, hsup], ?_⟩
  rw [settle_stops ((settle_role _).trans hc), settle_stops hc]
  exact List.contains_iff_mem.mpr hmem

/-- Settles O28: each command and event of block detection by its rule, read behind the hardwired logic of a cell. -/
theorem cellBlocking : Obligations.CellBlocking := by
  unfold Obligations.CellBlocking
  refine ⟨?_, ?_, ?_, ?_, ?_, ?_, ?_, ?_, ?_⟩
  case refine_1 => exact fun s pr sm hreach hcell hwhy hdb _ => yields_cellDeblock hreach (role_of_isCell hcell) hwhy hdb
  case refine_2 => exact fun s path hreach hcell hpath => yields_cellDeblock_refused hreach (role_of_isCell hcell) hpath
  case refine_3 => exact fun s path hs hreach hcell hpath => yields_cellDeblock_kept hreach (role_of_isCell hcell) hpath hs
  case refine_4 => exact fun s path hreach hcell => yields_cellBlock hreach (role_of_isCell hcell)
  case refine_5 => exact fun s path hreach hcell hp => yields_cellPermBypass hreach (role_of_isCell hcell) hp
  case refine_6 => exact fun s u r hlive hu => (yields_blkos hlive hu).imp fun t ⟨he, h, _⟩ => ⟨he, h⟩
  case refine_7 => exact fun s u r hlive hu hlatch => (yields_blkos hlive hu).imp fun t ⟨he, _, h⟩ => ⟨he, h hlatch⟩
  case refine_8 => exact fun s hlive hseen hruns => yields_blkseenClear hlive hseen hruns
  case refine_9 => exact fun s halive hopen hcell => yields_debugHalt_cell halive hopen hcell

end Sys2Proof.Machine
end

section
/-! PROOFS. Frames of stores (R594 to R597): memory, its check bits and what an error that shows there raises. -/

namespace Sys2Proof.Machine

open State

theorem Frame.foldl {α : Type} {ps : List Part} {rs : List Nat} {f : State → α → State} (h : ∀ t x, Frame ps rs t (f t x))
    (l : List α) (s : State) : Frame ps rs s (l.foldl f s) := by
  induction l generalizing s with
  | nil => exact Frame.refl ..
  | cons x l ih => exact (h s x).seq (ih (f s x))

theorem Frame.forUpTo {ps : List Part} {rs : List Nat} {f : Nat → State → State} (h : ∀ n t, Frame ps rs t (f n t)) (k : Nat)
    (s : State) : Frame ps rs s (forUpTo f k s) := by
  induction k with
  | zero => exact Frame.refl ..
  | succ k ih => exact ih.seq (h k _)

/-- The parts that a store can change, with what an error of the word stored raises. -/
def storeParts : List Part := [.mem, .box, .memErr, .freeCtr, .bb, .err, .gate, .recd, .sup]

/-- The registers that a read of memory can change, with what an error of the word raises. -/
def fetchRegs : List Nat := R.ERR_POIS :: errRegs

abbrev FetchFrame (s t : State) : Prop := Frame storeParts fetchRegs s t

/-- The registers that a store can change. -/
def storeRegs : List Nat := R.ERR_INJ :: fetchRegs

abbrev StoreFrame (s t : State) : Prop := Frame storeParts storeRegs s t

theorem storeFrame_of_fetchFrame {s t : State} (h : FetchFrame s t) : StoreFrame s t :=
  h.mono (fun _ hp => hp) fun _ ha => List.mem_cons_of_mem _ ha

namespace State

theorem frame_memErr (s : State) (x : Kv MemErr) : Frame [.memErr] [] s { s with memErr := x } :=
  frame_of_parts rfl rfl fun p hp => by cases p <;> simp_all [Part.same, byte]

theorem fetchFrame_memErr (s : State) (x : Kv MemErr) : FetchFrame s { s with memErr := x } :=
  (frame_memErr s x).mono (by decide) (by simp)

theorem fetchFrame_setBytes (s : State) (a : Nat) (bs : List Byte) : FetchFrame s (s.setBytes a bs) :=
  (frame_setBytes s a bs).mono (by decide) (by simp)

theorem fetchFrame_bump (s : State) {f : Fld} (hf : f.addr = R.ERR_POIS) (k : Nat) : FetchFrame s (s.bump f k) :=
  (frame_bump s f k).mono (by simp) (by simp [hf, fetchRegs])

theorem fetchFrame_errArrive (s : State) (cls src req addr : Nat) : FetchFrame s (s.errArrive cls src req addr) :=
  (frame_errArrive s cls src req addr).mono (by decide) fun _ ha => List.mem_cons_of_mem _ ha

theorem fetchFrame_flipBits (s : State) (w : Nat) (bits : List Nat) : FetchFrame s (s.flipBits w bits) :=
  Frame.foldl (fun t _ => Frame.ite (fetchFrame_setBytes t _ [_]) (Frame.refl ..)) bits s

/-- What the decoder does with a word (R594 to R597). -/
theorem fetchFrame_readWord (s : State) (req w : Nat) : FetchFrame s (s.readWord req w).2 := by
  unfold readWord
  split
  · exact Frame.refl ..
  next e _ =>
    dsimp only
    split
    · exact frame_when _ (fetchFrame_bump s rfl 1)
    split
    · exact (fetchFrame_memErr s _).seq (fetchFrame_errArrive _ _ _ _ _)
    split
    · exact (((fetchFrame_flipBits s w e.wrong).seq (fetchFrame_memErr _ _)).seq (fetchFrame_errArrive _ _ _ _ _)).seq
        (fetchFrame_bump _ rfl 1)
    · exact ((frame_free s).mono (by decide) (by simp)).seq ((fetchFrame_setBytes _ _ _).seq (fetchFrame_memErr _ _))

theorem storeFrame_writeWord (s : State) (req w a b : Nat) : StoreFrame s (s.writeWord req w a b) := by
  unfold writeWord
  have hsound (t : State) (x : Kv MemErr) : StoreFrame t { t with memErr := x } := storeFrame_of_fetchFrame (fetchFrame_memErr t x)
  refine Frame.ite ((hsound s _).seq (Frame.ite (((frame_set _ F.ERR_INJ_NBIT 0).mono (by simp) ?_).seq
    (hsound _ _)) (Frame.refl ..))) (storeFrame_of_fetchFrame (fetchFrame_readWord s req w))
  simp [storeRegs, F.ERR_INJ_NBIT]

theorem storeFrame_store (s : State) (req a : Nat) (bs : List Byte) : StoreFrame s (s.store req a bs) := by
  unfold store
  exact Frame.ite (Frame.refl ..) ((Frame.ite (Frame.refl ..) (Frame.foldl (fun t _ => storeFrame_writeWord t _ _ _ _) _ s)).seq
    (storeFrame_of_fetchFrame (fetchFrame_setBytes _ a bs)))

end State

end Sys2Proof.Machine
end

section
/-! PROOFS. Taking and yielding control (R532, R560, R568): what of the twin's watches and roles it leaves. -/

namespace Sys2Proof.Machine

open State

/-- The registers that a cold takeover can change. -/
def coldRegs : List Nat := storeRegs ++ [R.MOD_ARM_TRIM 0, R.MOD_ARM_TRIM 1]

/-- What a cold takeover changes: states of the program, observer entries, trim cells (R568). -/
abbrev ColdFrame (s t : State) : Prop := Frame (storeParts ++ [.rank, .mod]) coldRegs s t

namespace State

theorem coldFrame_setObs (s : State) (i : Nat) (o : ObsSt) : ColdFrame s (s.setObs i o) := by
  refine Frame.mono (ps := [.rank]) (rs := []) ?_ (by simp) (by simp)
  exact frame_of_parts rfl rfl fun p hp => by cases p <;> simp_all [Part.same, byte, setObs]

theorem coldFrame_mod (s : State) (x : ModSt) : ColdFrame s { s with mod := x } := by
  refine Frame.mono (ps := [.mod]) (rs := []) ?_ (by simp) (by simp)
  exact frame_of_parts rfl rfl fun p hp => by cases p <;> simp_all [Part.same, byte]

theorem coldFrame_zeroChain (s : State) (sl : Nat) (e : ChainEnt) : ColdFrame s (s.zeroChain sl e) :=
  Frame.forUpTo (fun _ t => (storeFrame_store t _ _ _).mono (fun _ h => List.mem_append_left _ h)
    fun _ h => List.mem_append_left _ h) _ s

/-- The trim registers of the two arms. -/
theorem coldFrame_showTrim (s : State) : ColdFrame s s.showTrim := by
  have arm (a : Nat) (ha : a < 2) (t : State) : ColdFrame t
      (((t.set (F.MOD_ARM_TRIM_BERTH a) ((nth t.mod.plan.trim a none).getD 0)).set (F.MOD_ARM_TRIM_VALID a)
        (b2n (nth t.mod.plan.trim a none).isSome)).set (F.MOD_ARM_TRIM_ROTS a) (nth t.mod.plan.rots a 0)) := by
    have hreg : R.MOD_ARM_TRIM a ∈ coldRegs := by interval_cases a <;> decide
    refine ((((frame_set t (F.MOD_ARM_TRIM_BERTH a) _).trans (frame_set _ (F.MOD_ARM_TRIM_VALID a) _)).trans
      (frame_set _ (F.MOD_ARM_TRIM_ROTS a) _)).mono (by simp) ?_)
    simpa [F.MOD_ARM_TRIM_BERTH, F.MOD_ARM_TRIM_VALID, F.MOD_ARM_TRIM_ROTS] using hreg
  exact (arm 0 (by decide) s).seq (arm 1 (by decide) _)

theorem coldFrame_coldTakeover (s : State) : ColdFrame s s.coldTakeover := by
  let sl := s.get F.CTL_STAT_ACT
  have hzero : ColdFrame s (forUpTo (fun c t => t.zeroChain sl (t.chainEnt sl c)) (s.slotNch sl) s) :=
    Frame.forUpTo (fun c t => coldFrame_zeroChain t sl (t.chainEnt sl c)) _ s
  have hobs (t : State) (ids : List Nat) : ColdFrame t (ids.foldl (fun t i => t.setObs i { t.obs i with unobs := true }) t) :=
    Frame.foldl (fun t i => coldFrame_setObs t i { t.obs i with unobs := true }) ids t
  exact ((hzero.seq (hobs _ _)).seq (coldFrame_mod _ _)).seq (coldFrame_showTrim _)

/-- The shadow registers show which slices were shadow-only, and READY falls (R560). -/
def shadowed (s : State) : State :=
  let mask (lo : Nat) : Nat := s.twin.flags.foldl (fun m i => if lo ≤ i ∧ i < lo + 32 then m ||| 1 <<< (i - lo) else m) 0
  ((s.setReg R.TWIN_SHADOW_LO (BitVec.ofNat 32 (mask 0))).setReg R.TWIN_SHADOW_HI (BitVec.ofNat 32 (mask 32))).unready.timeSource 1

/-- Is VB kept over the takeover (R560)? -/
def keepsVb (s : State) : Bool :=
  let outVb := match s.twin.status with
    | some t => bitOf t.health 0 && bitOf t.health 3
    | none => false
  outVb && s.is F.BOOT_TWIN_WARM && s.safe.startup == 2 && s.safe.alatch == 0 && !s.safe.breq

/-- The role is active. -/
def activeRole (s : State) (vb : Bool) : State :=
  { s with
    twin := { s.twin with active := true, slackFrom := s.twin.statusAt, restart := true, capture := none, adopt := none }
    safe := { s.safe with vb := vb } }

/-- Taking control, but for what a cold takeover adds. -/
def activated (s : State) (why : Nat) : State :=
  let t := s.shadowed.activeRole s.keepsVb
  let t := ((t.count F.TWIN_TKCNT_TAKEOVERS).set F.TWIN_TKLAST_WHY why).set F.TWIN_TKLAST_VBKEEP (b2n s.keepsVb)
  (t.set F.TWIN_TKLAST_COLD (b2n (s.is F.BOOT_TWIN_COLD))).event Pg.TWIN 8

theorem becomeActive_eq {s : State} (hstandby : s.twin.active = false) (why : Nat) :
    s.becomeActive why = (s.activated why).when (s.is F.BOOT_TWIN_COLD) coldTakeover := by
  unfold becomeActive
  rw [if_neg (by simp [hstandby])]
  rfl

/-- What a cold takeover adds to taking control. -/
theorem coldFrame_becomeActive {s : State} (hstandby : s.twin.active = false) (why : Nat) :
    ColdFrame (s.activated why) (s.becomeActive why) := by
  rw [becomeActive_eq hstandby]
  exact frame_when _ (coldFrame_coldTakeover _)

/-- The registers that taking control writes. -/
def activeRegs : List Nat :=
  [R.TWIN_SHADOW_LO, R.TWIN_SHADOW_HI, R.TWIN_STAT, R.TIME_CTL, R.TWIN_TKCNT, R.TWIN_TKLAST, R.PG_EVT Pg.TWIN]

theorem frame_timeSource (s : State) (n : Nat) : Frame [] [R.TIME_CTL] s (s.timeSource n) := frame_when _ (frame_set s F.TIME_CTL_SRC n)

theorem frame_unready (s : State) : Frame [.twin] [R.TWIN_STAT] s s.unready :=
  ((frame_set s F.TWIN_STAT_READY 0).trans (frame_twin _ _)).mono (by simp) (by simp [F.TWIN_STAT_READY])

theorem frame_shadowed (s : State) : Frame [.twin] [R.TWIN_SHADOW_LO, R.TWIN_SHADOW_HI, R.TWIN_STAT, R.TIME_CTL] s s.shadowed :=
  ((frame_setReg s R.TWIN_SHADOW_LO _).trans ((frame_setReg _ R.TWIN_SHADOW_HI _).trans
    ((frame_unready _).trans (frame_timeSource _ 1)))).mono (by simp) (by simp)

theorem frame_activeRole (s : State) (vb : Bool) : Frame [.twin, .safe] [] s (s.activeRole vb) :=
  (frame_twin s (s.activeRole vb).twin).trans (frame_safe _ (s.activeRole vb).safe)

/-- Taking control changes the twin and safety blocks. -/
theorem frame_activated (s : State) (why : Nat) : Frame [.twin, .safe, .recd] activeRegs s (s.activated why) := by
  have hcount (t : State) : Frame [.recd] [R.TWIN_TKCNT, R.TWIN_TKLAST, R.PG_EVT Pg.TWIN] t
      (((((t.count F.TWIN_TKCNT_TAKEOVERS).set F.TWIN_TKLAST_WHY why).set F.TWIN_TKLAST_VBKEEP (b2n s.keepsVb)).set
        F.TWIN_TKLAST_COLD (b2n (s.is F.BOOT_TWIN_COLD))).event Pg.TWIN 8) :=
    ((frame_count t F.TWIN_TKCNT_TAKEOVERS 1).trans ((frame_set _ F.TWIN_TKLAST_WHY _).trans ((frame_set _ F.TWIN_TKLAST_VBKEEP _).trans
      ((frame_set _ F.TWIN_TKLAST_COLD _).trans (frame_event _ _ _))))).mono (by simp)
      (by simp [F.TWIN_TKCNT_TAKEOVERS, F.TWIN_TKLAST_WHY, F.TWIN_TKLAST_VBKEEP, F.TWIN_TKLAST_COLD])
  exact ((frame_shadowed s).trans ((frame_activeRole _ s.keepsVb).trans (hcount _))).mono (by simp) (by simp +decide)

theorem activated_active (s : State) (why : Nat) : (s.activated why).twin.active = true := by
  have htwin : (s.activated why).twin = (s.shadowed.activeRole s.keepsVb).twin := (frame_event _ _ _).1 .twin (by decide)
  rw [htwin]
  rfl

theorem activated_why (s : State) (why : Nat) : (s.activated why).get F.TWIN_TKLAST_WHY = why % 8 := by
  unfold activated
  dsimp only
  rw [get_event_ne _ _ _ (by decide), get_set_other _ _ (by decide), get_set_other _ _ (by decide), get_set_same _ _ _ (by decide)]
  rfl

theorem activated_event (s : State) (why : Nat) : bitOf ((s.activated why).reg (R.PG_EVT Pg.TWIN)).toNat 8 = true :=
  bitOf_event _ _ (by decide)

/-- What is seen of a standby that took control for the reason `why`. -/
theorem becomeActive_parts {s : State} (hstandby : s.twin.active = false) {why : Nat} (hwhy : why < 8) :
    (s.becomeActive why).twin.active = true ∧ (s.becomeActive why).get F.TWIN_TKLAST_WHY = why ∧
    bitOf ((s.becomeActive why).reg (R.PG_EVT Pg.TWIN)).toNat 8 = true := by
  have hcold := coldFrame_becomeActive hstandby why
  have htwin : (s.becomeActive why).twin = (s.activated why).twin := hcold.1 .twin (by decide)
  rw [htwin, hcold.get (by decide), hcold.2 _ (by decide), activated_why, Nat.mod_eq_of_lt hwhy]
  exact ⟨activated_active s why, rfl, activated_event s why⟩

/-- Taking control leaves the role, the answer and the watches. -/
theorem frame_becomeActive {s : State} (hstandby : s.twin.active = false) (why : Nat) :
    Frame (storeParts ++ [.rank, .mod, .twin, .safe]) (coldRegs ++ activeRegs) s (s.becomeActive why) :=
  ((frame_activated s why).trans (coldFrame_becomeActive hstandby why)).mono (by decide) fun a ha =>
    List.mem_append.mpr (List.mem_append.mp ha).symm

end State

end Sys2Proof.Machine
end

section
/-! PROOFS. Time that passes at a hub up to an instant (R234, R235): the time unit alone changes. -/

namespace Sys2Proof.Machine

open State

namespace State

/-- `t` differs from `s` at most in the time, in what counts with it, and in the time unit of a hub. -/
abbrev HubTimeFrame (s t : State) : Prop :=
  Frame [.elapsed, .now, .recd, .sup, .time] [R.PG_EVT Pg.TIME, R.TIME_HOLD, R.TIME_STAT] s t

theorem hubTimeFrame_of_timeFrame {s t : State} (h : TimeFrame s t) : HubTimeFrame s t := h.mono (by simp) (by simp)

theorem hubTimeFrame_time (s : State) (x : TimeSt) : HubTimeFrame s { s with time := x } :=
  hubTimeFrame_of_timeFrame (timeFrame_upd s s.now s.elapsed s.sup x)

theorem hubTimeFrame_enterHold (s : State) (c : HoldCause) : HubTimeFrame s (s.enterHold c) := by
  unfold enterHold
  refine Frame.ite (Frame.refl ..) ?_
  have hshown : HubTimeFrame s (if s.inHoldover then s else ((s.event Pg.TIME 8).bump F.TIME_HOLD_ENTRIES).set F.TIME_STAT_HOLDOVER 1) :=
    Frame.ite (Frame.refl ..) (((frame_event s _ _).trans ((frame_bump _ F.TIME_HOLD_ENTRIES 1).trans
      (frame_set _ F.TIME_STAT_HOLDOVER 1))).mono (by simp) (by simp [F.TIME_HOLD_ENTRIES, F.TIME_STAT_HOLDOVER]))
  exact (hshown.seq (Frame.ite (hubTimeFrame_time ..) (Frame.refl ..))).seq (hubTimeFrame_time ..)

theorem hubTimeFrame_leaveHold (s : State) (c : HoldCause) : HubTimeFrame s (s.leaveHold c) := by
  unfold leaveHold
  refine Frame.ite (Frame.refl ..) ?_
  have hclear (t : State) : HubTimeFrame t (if t.inHoldover then t else (t.event Pg.TIME 9).set F.TIME_STAT_HOLDOVER 0) :=
    Frame.ite (Frame.refl ..) (((frame_event t _ _).trans (frame_set _ F.TIME_STAT_HOLDOVER 0)).mono (by simp)
      (by simp [F.TIME_STAT_HOLDOVER]))
  exact ((Frame.ite (hubTimeFrame_time ..) (Frame.refl ..) : HubTimeFrame s _).seq (hubTimeFrame_time ..)).seq (hclear _)

theorem hubTimeFrame_holdByTwin (s : State) : HubTimeFrame s s.holdByTwin :=
  Frame.ite (Frame.refl ..) (Frame.ite (hubTimeFrame_enterHold ..) (hubTimeFrame_leaveHold ..))

theorem hubTimeFrame_applyWaiting (s : State) : HubTimeFrame s s.applyWaiting := by
  have hsource : HubTimeFrame s s.takeSource :=
    Frame.ite (Frame.refl ..) ((hubTimeFrame_time ..).seq (hubTimeFrame_holdByTwin _))
  have hcorr (u : State) : HubTimeFrame u u.corrected := hubTimeFrame_of_timeFrame (timeFrame_upd ..)
  rw [applyWaiting_eq]
  exact ((hsource.seq (hubTimeFrame_of_timeFrame (timeFrame_applyWaitingJump _))).seq (hcorr _)).seq
    (hubTimeFrame_of_timeFrame (timeFrame_takeIncrement _))

theorem hubTimeFrame_reach (s : State) (t : Int) : HubTimeFrame s (s.reach t) :=
  Frame.ite ((hubTimeFrame_applyWaiting s).seq (hubTimeFrame_of_timeFrame (timeFrame_upd ..))) (Frame.refl ..)

theorem hubTimeFrame_timerEnds (s : State) (d : Nat) : HubTimeFrame s (s.timerEnds d) := hubTimeFrame_of_timeFrame (timeFrame_upd ..)

end State

end Sys2Proof.Machine
end

section
/-! PROOFS. The referee link at a hub (R550, R558, R564 to R566). -/

namespace Sys2Proof.Machine

open State

/-- A number of `n` bytes. -/
theorem ofLe_lt (bs : List Byte) : ofLe bs < 256 ^ bs.length := by
  induction bs with
  | nil => decide
  | cons b bs ih =>
    have hb : b.toNat < 256 := b.isLt
    rw [ofLe, List.length_cons, pow_succ]
    omega

namespace State

/-- A WATCH is of 16 bits. -/
theorem refWatch_lt (b : List Byte) : refWatch b < 65536 := by
  have hlen : ((b.drop 2).take 2).reverse.length ≤ 2 := by simp
  calc refWatch b < 256 ^ ((b.drop 2).take 2).reverse.length := ofLe_lt _
    _ ≤ 256 ^ 2 := Nat.pow_le_pow_right (by decide) hlen

theorem get_own_setOwn (s : State) {w : Nat} (hw : w < 65536) : (s.setOwn w).get F.TWIN_WATCH_OWN = w := by
  rw [setOwn, get_set_other _ _ (by decide), get_set_same _ _ _ (by decide)]
  exact Nat.mod_eq_of_lt hw

theorem get_seen_setOwn (s : State) {w : Nat} (hw : w < 65536) : (s.setOwn w).get F.TWIN_WATCH_SEEN = w := by
  rw [setOwn, get_set_same _ _ _ (by decide)]
  exact Nat.mod_eq_of_lt hw

theorem frame_setOwn (s : State) (w : Nat) : Frame [] [R.TWIN_WATCH] s (s.setOwn w) :=
  ((frame_set s F.TWIN_WATCH_OWN w).trans (frame_set _ F.TWIN_WATCH_SEEN w)).mono (by simp) (by simp [F.TWIN_WATCH_OWN, F.TWIN_WATCH_SEEN])

/-- A valid frame of the referee is noted: its counter, its instant, that the referee is heard. -/
def hearsReferee (s : State) (n : Nat) : State :=
  let s := match s.twin.refAt with
    | some t => s.monitorSel 4 0 ((s.now - t) / unitsPerNs)
    | none => s
  let s := { s with twin := { s.twin with
    ref := { s.twin.ref with rxSeq := some n }, refAt := some s.now, refHeard := true, refLost := false } }
  s.count F.REF_HCNT_RXOK

theorem refereeRx_of_ok {s : State} {t n : Nat} {bs b : List Byte} (f : State → List Byte → State)
    (h : refCheck s.twin.ref s.hubNo s.side t bs = .ok n b) : s.refereeRx t bs f = f (s.hearsReferee n) b := by
  simp only [refereeRx, h]
  rfl

theorem frame_hearsReferee (s : State) (n : Nat) : Frame [.mon, .twin] [R.REF_HCNT] s (s.hearsReferee n) := by
  unfold hearsReferee
  dsimp only
  have hmon : Frame [.mon] [] s (match s.twin.refAt with
      | some t => s.monitorSel 4 0 ((s.now - t) / unitsPerNs)
      | none => s) := by
    split
    · exact frame_monitor s 4 _
    · exact Frame.refl ..
  exact (hmon.trans ((frame_twin _ _).trans (frame_count _ F.REF_HCNT_RXOK 1))).mono (by simp) (by simp [F.REF_HCNT_RXOK])

theorem hearsReferee_twin (s : State) (n : Nat) : (s.hearsReferee n).twin.active = s.twin.active ∧
    (s.hearsReferee n).twin.ref.rxSeq = some n ∧ (s.hearsReferee n).twin.refHeard = true ∧ (s.hearsReferee n).twin.refLost = false := by
  have hmon (t : Int) : (s.monitorSel 4 0 t).twin.active = s.twin.active :=
    congrArg TwinSt.active ((frame_monitor s 4 _).1 .twin (by decide))
  unfold hearsReferee
  dsimp only
  split
  · exact ⟨hmon _, rfl, rfl, rfl⟩
  · exact ⟨rfl, rfl, rfl, rfl⟩

/-- The counter of stale commands is another field of its register. -/
theorem get_stale_hearsReferee (s : State) (n : Nat) : (s.hearsReferee n).get F.REF_HCNT_STALE = s.get F.REF_HCNT_STALE := by
  unfold hearsReferee count
  rw [get_set_other _ _ (by decide)]
  split
  · exact (frame_monitor s 4 _).get (by decide)
  · rfl

@[simp] theorem settle_twin_active (s : State) : s.settle.twin.active = s.twin.active := by rw [settle_twin]

/-- A standby becomes active without a change of what it keeps of the referee link. -/
theorem becomeActive_ref {s : State} (hstandby : s.twin.active = false) (why : Nat) : (s.becomeActive why).twin.ref = s.twin.ref := by
  have hcold : (s.becomeActive why).twin = (s.activated why).twin := (coldFrame_becomeActive hstandby why).1 .twin (by decide)
  have hactive : (s.activated why).twin = (s.shadowed.activeRole s.keepsVb).twin := (frame_event _ _ _).1 .twin (by decide)
  rw [hcold, hactive]
  change s.shadowed.twin.ref = s.twin.ref
  unfold shadowed
  dsimp only
  rw [(frame_timeSource _ 1).1 .twin (by decide)]
  rfl

theorem becomeStandby_active (s : State) : s.becomeStandby.twin.active = false := by
  unfold becomeStandby
  split
  next h => simpa using h
  next =>
    refine (congrArg TwinSt.active ((frame_event _ Pg.TWIN 9).1 .twin (by decide))).trans ?_
    exact congrArg TwinSt.active ((frame_timeSource _ 2).1 .twin (by decide))

theorem frame_becomeStandby (s : State) :
    Frame [.twin, .time, .recd] [R.TWIN_STAT, R.TIME_CTL, R.TWIN_TKCNT, R.PG_EVT Pg.TWIN] s s.becomeStandby := by
  unfold becomeStandby
  refine Frame.ite (Frame.refl ..) ?_
  dsimp only
  have hparts (t : State) (x : TwinSt) (y : TimeSt) : Frame [.twin, .time] [] t { t with twin := x, time := y } :=
    frame_of_parts rfl rfl fun p hp => by cases p <;> simp_all [Part.same, byte]
  exact ((frame_unready s).trans ((frame_set _ F.TWIN_STAT_TLOCK 0).trans ((hparts _ _ _).trans ((frame_timeSource _ 2).trans
    ((frame_count _ F.TWIN_TKCNT_YIELDS 1).trans (frame_event _ _ _)))))).mono (by simp)
    (by simp [F.TWIN_STAT_TLOCK, F.TWIN_TKCNT_YIELDS])

end State

open State

theorem exec_takeRx (fr : List Byte) (s : State) : exec (.takeRx fr) s = execTakeRx fr s := rfl

theorem exec_yieldRx (fr : List Byte) (s : State) : exec (.yieldRx fr) s = execYieldRx fr s := rfl

theorem exec_rstRx (fr : List Byte) (s : State) : exec (.rstRx fr) s = execRstRx fr s := rfl

theorem exec_refLost (s : State) : exec .refLost s = execRefLost s := rfl

theorem exec_selfTakeover (s : State) : exec .selfTakeover s = execSelfTakeover s := rfl

theorem exec_preferredReclaim (s : State) : exec .preferredReclaim s = execPreferredReclaim s := rfl

theorem exec_heartbeatTx (s : State) : exec .heartbeatTx s = execHeartbeatTx s := rfl

/-- A TAKE with a watch newer than OWN, and with no newer one seen, makes a standby active with that watch (R558). -/
theorem yields_takeRx {s : State} {fr b : List Byte} {n : Nat} (hlive : s.hubRef = true)
    (hok : refCheck s.twin.ref s.hubNo s.side 0x22 fr = .ok n b) (hnewer : newer (refWatch b) (s.get F.TWIN_WATCH_OWN) = true)
    (hseen : newer (s.get F.TWIN_WATCH_SEEN) (refWatch b) = false) (hstandby : s.twin.active = false) :
    Yields (.takeRx fr) s fun t => t.twin.active = true ∧ t.get F.TWIN_WATCH_OWN = refWatch b ∧
      t.get F.TWIN_WATCH_SEEN = refWatch b ∧ t.get F.TWIN_TKLAST_WHY = 1 ∧ t.twin.ref.rxSeq = some n ∧
      bitOf (t.reg (R.PG_EVT Pg.TWIN)).toNat 8 = true := by
  let h := s.hearsReferee n
  let v := ((h.setOwn (refWatch b)).set F.REF_HSTAT_LASTW (refWatch b)).event Pg.REF 10
  have hheard := frame_hearsReferee s n
  obtain ⟨hactive, hseq, -, -⟩ := s.hearsReferee_twin n
  have hv : v.twin = h.twin := (frame_event _ _ _).1 .twin (by decide)
  have hrule : h.takeCmd b = v.becomeActive 1 := by
    have hown : h.get F.TWIN_WATCH_OWN = s.get F.TWIN_WATCH_OWN := hheard.get (by decide)
    have hseen' : h.get F.TWIN_WATCH_SEEN = s.get F.TWIN_WATCH_SEEN := hheard.get (by decide)
    simp only [takeCmd, hown, hseen', hnewer, hseen, Bool.not_true, Bool.false_eq_true, if_false, State.when]
    rfl
  have hstandby' : v.twin.active = false := by rw [hv, hactive, hstandby]
  obtain ⟨hon, hwhy, hevent⟩ := becomeActive_parts hstandby' (why := 1) (by decide)
  have hframe := frame_becomeActive hstandby' 1
  refine yields_of_act (exec_takeRx fr s) hlive ?_
  rw [refereeRx_of_ok _ hok, hrule, settle_twin]
  refine ⟨hon, ?_, ?_, ?_, ?_, bitOf_settle_of (by decide) hevent⟩
  · rw [settle_get _ (by decide), hframe.get (by decide), get_event_ne _ _ _ (by decide), get_set_ne _ _ (by decide),
      get_own_setOwn _ (refWatch_lt b)]
  · rw [settle_get _ (by decide), hframe.get (by decide), get_event_ne _ _ _ (by decide), get_set_ne _ _ (by decide),
      get_seen_setOwn _ (refWatch_lt b)]
  · rw [settle_get _ (by decide), hwhy]
  · change (v.becomeActive 1).twin.ref.rxSeq = some n
    rw [becomeActive_ref hstandby', hv, hseq]

theorem State.role_of_hubRef {s : State} (h : s.hubRef = true) : s.role = .hub ∧ s.is F.SYS_TOPO_TWIN = true := by
  simp only [hubRef, Bool.and_eq_true] at h
  obtain ⟨⟨⟨-, hhub⟩, htwin⟩, -⟩ := h
  exact ⟨role_of_isHub hhub, htwin⟩

/-- A TAKE whose watch is not newer than OWN is counted and told (R558). -/
theorem yields_takeRx_stale {s : State} {fr b : List Byte} {n : Nat} (hlive : s.hubRef = true)
    (hok : refCheck s.twin.ref s.hubNo s.side 0x22 fr = .ok n b) (hstale : newer (refWatch b) (s.get F.TWIN_WATCH_OWN) = false) :
    Yields (.takeRx fr) s fun t => t.twin.active = s.twin.active ∧ t.get F.TWIN_WATCH_OWN = s.get F.TWIN_WATCH_OWN ∧
      t.get F.REF_HCNT_STALE = satAdd F.REF_HCNT_STALE.w (s.get F.REF_HCNT_STALE) 1 ∧
      bitOf (t.reg (R.PG_EVT Pg.REF)).toNat 12 = true := by
  let h := s.hearsReferee n
  have hheard := frame_hearsReferee s n
  obtain ⟨hactive, -, -, -⟩ := s.hearsReferee_twin n
  have hown : h.get F.TWIN_WATCH_OWN = s.get F.TWIN_WATCH_OWN := hheard.get (by decide)
  have hrule : h.takeCmd b = (h.bump F.REF_HCNT_STALE).event Pg.REF 12 := by
    simp only [takeCmd, hown, hstale, Bool.not_false, if_true]
    rfl
  refine yields_of_act (exec_takeRx fr s) hlive ?_
  rw [refereeRx_of_ok _ hok, hrule]
  refine ⟨?_, ?_, ?_, bitOf_settle_of (by decide) (bitOf_event _ _ (by decide))⟩
  · rw [settle_twin_active, (frame_event _ _ _).1 .twin (by decide)]
    exact hactive
  · rw [settle_get _ (by decide), get_event_ne _ _ _ (by decide), get_bump_other _ _ (by decide), hown]
  · rw [settle_get _ (by decide), get_event_ne _ _ _ (by decide), get_bump_same _ _ _ (by decide),
      get_stale_hearsReferee]

/-- A newer YIELD makes the hub standby, and VB falls (R558, R560). -/
theorem yields_yieldRx {s : State} {fr b : List Byte} {n : Nat} (hlive : s.hubRef = true)
    (hok : refCheck s.twin.ref s.hubNo s.side 0x23 fr = .ok n b) (hnewer : newer (refWatch b) (s.get F.TWIN_WATCH_OWN) = true) :
    Yields (.yieldRx fr) s fun t => t.twin.active = false ∧ t.get F.REF_HSTAT_LASTW = refWatch b ∧ t.safe.vb = false ∧
      bitOf (t.reg (R.PG_EVT Pg.REF)).toNat 11 = true := by
  obtain ⟨hhub, htwin⟩ := role_of_hubRef hlive
  let h := s.hearsReferee n
  let w := refWatch b
  let v := h.when (newer w (h.get F.TWIN_WATCH_SEEN)) (·.set F.TWIN_WATCH_SEEN w)
  let u := (v.set F.REF_HSTAT_LASTW w).event Pg.REF 11
  have hheard := frame_hearsReferee s n
  have hown : h.get F.TWIN_WATCH_OWN = s.get F.TWIN_WATCH_OWN := hheard.get (by decide)
  have hrule : h.yieldCmd b = u.becomeStandby := by
    simp only [yieldCmd, hown, hnewer, Bool.not_true, Bool.false_eq_true, if_false]
    rfl
  have hv : Frame [] [R.TWIN_WATCH] h v := frame_when _ (frame_set h F.TWIN_WATCH_SEEN w)
  have hu : Frame [.recd] [R.REF_HSTAT, R.PG_EVT Pg.REF] v u :=
    ((frame_set v F.REF_HSTAT_LASTW w).trans (frame_event _ _ _)).mono (by simp) (by simp [F.REF_HSTAT_LASTW])
  have hstandby := frame_becomeStandby u
  have hframe := ((hheard.trans hv).trans hu).trans hstandby
  have hrole : u.becomeStandby.role = .hub := (hframe.1 .role (by decide)).trans hhub
  have hdrives : u.becomeStandby.hubDrives = false := by
    have htopo : u.becomeStandby.is F.SYS_TOPO_TWIN = true := by rw [State.is, hframe.get (by decide)]; exact htwin
    rw [hubDrives, htopo, becomeStandby_active]
    rfl
  refine yields_of_act (exec_yieldRx fr s) hlive ?_
  rw [refereeRx_of_ok _ hok, hrule]
  refine ⟨by rw [settle_twin]; exact becomeStandby_active u, ?_, settle_vb_of_blocked hrole (.inr (.inr hdrives)), ?_⟩
  · rw [settle_get _ (by decide), hstandby.get (by decide), get_event_ne _ _ _ (by decide), get_set_same _ _ _ (by decide)]
    exact Nat.mod_eq_of_lt (refWatch_lt b)
  · refine bitOf_settle_of (by decide) ?_
    rw [hstandby.2 _ (by decide)]
    exact bitOf_event _ _ (by decide)

/-- A RST with a newer watch teaches a standby the watch (R532, R550). -/
theorem yields_rstRx {s : State} {fr b : List Byte} {n : Nat} (hlive : s.hubRef = true)
    (hok : refCheck s.twin.ref s.hubNo s.side 0x21 fr = .ok n b) (hnewer : newer (refWatch b) (s.get F.TWIN_WATCH_SEEN) = true)
    (hstandby : s.twin.active = false) :
    Yields (.rstRx fr) s fun t => t.get F.TWIN_WATCH_SEEN = refWatch b ∧ t.twin.refHeard = true ∧ t.twin.refLost = false ∧
      t.twin.active = false := by
  obtain ⟨-, htwin⟩ := role_of_hubRef hlive
  let h := s.hearsReferee n
  have hheard := frame_hearsReferee s n
  obtain ⟨hactive, -, hrefHeard, hlost⟩ := s.hearsReferee_twin n
  have hseen : h.get F.TWIN_WATCH_SEEN = s.get F.TWIN_WATCH_SEEN := hheard.get (by decide)
  have hdrives : (h.set F.TWIN_WATCH_SEEN (refWatch b)).hubDrives = false := by
    have htopo : (h.set F.TWIN_WATCH_SEEN (refWatch b)).is F.SYS_TOPO_TWIN = true := by
      rw [State.is, get_set_ne _ _ (by decide), hheard.get (by decide)]
      exact htwin
    rw [hubDrives, htopo]
    exact hactive.trans hstandby
  have hrule : h.learnWatch (refWatch b) = h.set F.TWIN_WATCH_SEEN (refWatch b) := by
    simp [learnWatch, hseen, hnewer, hdrives]
  refine yields_of_act (exec_rstRx fr s) hlive ?_
  rw [refereeRx_of_ok _ hok, hrule, settle_twin]
  refine ⟨?_, hrefHeard, hlost, hactive.trans hstandby⟩
  rw [settle_get _ (by decide), get_set_same _ _ _ (by decide)]
  exact Nat.mod_eq_of_lt (refWatch_lt b)

end Sys2Proof.Machine
end

section
/-! PROOFS. Self-arbitration at a hub (R564 to R566), its heartbeat (R550, R551), and the statement of the referee link. -/

namespace Sys2Proof.Machine

open State

/-- The loss of the referee is judged (R564). -/
theorem yields_refLost {s : State} (halive : s.alive = true) (hhub : s.isHub = true) (htwin : s.is F.SYS_TOPO_TWIN = true)
    (hruns : s.runs Pg.REF = true) : Yields .refLost s fun t => t.twin.refLost = true ∧ t.twin.refRun = 0 := by
  refine yields_of_act (exec_refLost s) (by simp [halive, hhub, htwin, hruns]) ?_
  dsimp only
  rw [settle_twin]
  exact ⟨rfl, rfl⟩

namespace State

/-- Self-arbitration that is due, or has begun, shows. -/
theorem settle_self {s : State} (hh : s.role = .hub) (h : s.selfDue = true ∨ s.get F.TWIN_STAT_SELF = 1) :
    s.settle.get F.TWIN_STAT_SELF = 1 := by
  have hself : s.selfEnter.get F.TWIN_STAT_SELF = 1 := by
    rw [selfEnter_eq]
    split
    · rw [get_event_ne _ _ _ (by decide), get_event_ne _ _ _ (by decide), get_set_same _ _ _ (by decide)]
      rfl
    next hdue => exact h.resolve_left hdue
  rw [settle_hub hh, (frame_markReclaim _).get (by simp), (frame_forceVb _).get (by decide), hself]

end State

/-- With SELFEN and the twin link down the loss of the referee begins self-arbitration (R564). -/
theorem yields_refLost_self {s : State} (halive : s.alive = true) (hhub : s.isHub = true) (htwin : s.is F.SYS_TOPO_TWIN = true)
    (hruns : s.runs Pg.REF = true) (hself : s.is F.TWIN_ARB_SELFEN = true) (hbond : s.is F.TWIN_STAT_BOND = false) :
    Yields .refLost s fun t => t.twin.refLost = true ∧ t.get F.TWIN_STAT_SELF = 1 := by
  let v := s.reach ((s.twin.refAt.getD 0 : Nat) + s.nMiss * s.hbT)
  let u : State := { v with twin := { v.twin with refLost := true, refRun := 0 } }
  have hframe : HubTimeFrame s v := hubTimeFrame_reach s _
  have hkept (f : Fld) (hf : f.addr ∉ [R.PG_EVT Pg.TIME, R.TIME_HOLD, R.TIME_STAT]) : u.is f = s.is f :=
    congrArg (· != 0) (hframe.get hf)
  have hrole : u.role = .hub := (hframe.1 .role (by decide)).trans (role_of_isHub hhub)
  have hdue : u.selfDue = true ∨ u.get F.TWIN_STAT_SELF = 1 := by
    by_cases hs : u.is F.TWIN_STAT_SELF = true
    · right
      have hbit : u.get F.TWIN_STAT_SELF < 2 := Nat.mod_lt _ (by decide)
      have hne : u.get F.TWIN_STAT_SELF ≠ 0 := by simpa [State.is] using hs
      omega
    · left
      have hfields : u.is F.SYS_TOPO_TWIN = true ∧ u.is F.TWIN_ARB_SELFEN = true ∧ u.is F.TWIN_STAT_BOND = false := by
        rw [hkept _ (by decide), hkept _ (by decide), hkept _ (by decide)]
        exact ⟨htwin, hself, hbond⟩
      obtain ⟨htwin', hself', hbond'⟩ := hfields
      have hlost : u.twin.refLost = true := rfl
      simp [selfDue, hlost, htwin', hself', hbond', hs]
  refine yields_of_act (exec_refLost s) (by simp [halive, hhub, htwin, hruns]) ?_
  exact ⟨by rw [settle_twin], settle_self hrole hdue⟩

namespace State

/-- What is seen of a standby that took control with the watch after SEEN. -/
theorem takeControl_parts {s : State} (hstandby : s.twin.active = false) {why : Nat} (hwhy : why < 8) :
    (s.takeControl why).settle.twin.active = true ∧
    (s.takeControl why).settle.get F.TWIN_WATCH_OWN = (s.get F.TWIN_WATCH_SEEN + 1) % 65536 ∧
    (s.takeControl why).settle.get F.TWIN_TKLAST_WHY = why := by
  let v := s.setOwn ((s.get F.TWIN_WATCH_SEEN + 1) % 65536)
  have hv : v.twin.active = false := hstandby
  obtain ⟨hon, hshown, -⟩ := becomeActive_parts hv hwhy
  have hrule : s.takeControl why = v.becomeActive why := rfl
  rw [hrule]
  refine ⟨by rw [settle_twin_active, hon], ?_, by rw [settle_get _ (by decide), hshown]⟩
  rw [settle_get _ (by decide), (frame_becomeActive hv why).get (by decide)]
  exact get_own_setOwn s (Nat.mod_lt _ (by decide))

theorem takeoverCase_lt (s : State) : s.takeoverCase < 8 := by
  have hcases (c d : Prop) [Decidable c] [Decidable d] : (if c then 2 else if d then 3 else 0) < 8 := by
    split
    · decide
    · split <;> decide
  exact hcases _ _

theorem standby_of_selfStandby {s : State} (h : s.selfStandby = true) :
    s.is F.SYS_TOPO_TWIN = true ∧ s.is F.TWIN_STAT_SELF = true ∧ s.twin.active = false := by
  simp only [selfStandby, Bool.and_eq_true, Bool.not_eq_true'] at h
  obtain ⟨⟨⟨-, htwin⟩, hself⟩, hstandby⟩ := h
  exact ⟨htwin, hself, hstandby⟩

end State

/-- A standby in self-arbitration takes control by its case (R565). -/
theorem yields_selfTakeover {s : State} (h : s.selfStandby = true) (hcase : s.takeoverCase ≠ 0) :
    Yields .selfTakeover s fun t => t.twin.active = true ∧
      t.get F.TWIN_WATCH_OWN = (s.get F.TWIN_WATCH_SEEN + 1) % 65536 ∧ t.get F.TWIN_TKLAST_WHY = s.takeoverCase := by
  obtain ⟨-, -, hstandby⟩ := standby_of_selfStandby h
  refine yields_of_act (exec_selfTakeover s) (by simp [h, hcase]) ?_
  exact takeControl_parts hstandby s.takeoverCase_lt

/-- The preferred hub reclaims control (R566). -/
theorem yields_preferredReclaim {s : State} (h : s.selfStandby = true) (hpref : s.is F.TWIN_ARB_PREF = true)
    (hbond : s.is F.TWIN_STAT_BOND = true) (hfail : s.reg R.REF_HFAIL = 0) (hready : s.is F.TWIN_STAT_READY = true) :
    Yields .preferredReclaim s fun t => t.twin.active = true ∧
      t.get F.TWIN_WATCH_OWN = (s.get F.TWIN_WATCH_SEEN + 1) % 65536 ∧ t.get F.TWIN_TKLAST_WHY = 4 := by
  obtain ⟨htwin, hself, hstandby⟩ := standby_of_selfStandby h
  have hholds : s.reclaimHolds = true := by simp [reclaimHolds, htwin, hself, hstandby, hpref, hbond, hfail, hready]
  let v := s.timerEnds (s.twin.reclaimAt.getD s.elapsed + s.healTime)
  have hframe : HubTimeFrame s v := hubTimeFrame_timerEnds s _
  refine yields_of_act (exec_preferredReclaim s) (by simp [h, hholds]) ?_
  obtain ⟨hon, hown, hwhy⟩ := takeControl_parts (s := v) hstandby (why := 4) (by decide)
  refine ⟨hon, hown.trans ?_, hwhy⟩
  rw [hframe.get (by decide)]

/-! The heartbeat. -/

namespace State

theorem length_refTag (key : Key) (hub sd seq : Nat) (hdr : List Byte) : (refTag key hub sd seq hdr).length = 8 := by
  simp [refTag, gmac, length_beBytes]

/-- A heartbeat of nine bytes is a frame of 24 with its type in the third. -/
theorem refFrame_heartbeat {body : List Byte} (hbody : body.length = 9) (key : Key) (hub sd n m : Nat) :
    (refFrame 0x11 n body (refTag key hub sd m)).length = 24 ∧ nth (refFrame 0x11 n body (refTag key hub sd m)) 2 0 = 0x11 := by
  refine ⟨?_, rfl⟩
  simp [refFrame, length_beBytes, length_refTag, crc16Bytes, hbody]

/-- A new interval of HB_T begins, in which no frame of the referee is heard yet. -/
def intervalBegun (s : State) : State :=
  { s with twin := { s.twin with refRun := if s.twin.refHeard then s.twin.refRun + 1 else 0, refHeard := false } }

theorem intervalEnd_eq (s : State) : s.intervalEnd =
    if s.intervalBegun.is F.TWIN_STAT_SELF && decide (s.intervalBegun.nMiss ≤ s.intervalBegun.twin.refRun) then
      (s.intervalBegun.set F.TWIN_STAT_SELF 0).event Pg.REF 9
    else s.intervalBegun := rfl

theorem intervalEnd_twin (s : State) : s.intervalEnd.twin = s.intervalBegun.twin := by
  rw [intervalEnd_eq]
  split
  · exact (frame_event _ _ _).1 .twin (by decide)
  · rfl

end State

/-- A heartbeat of a keyed link is one frame of type 0x11 (R550). -/
theorem yields_heartbeatTx {s : State} (hlive : s.hubRef = true) (hrx : s.twin.ref.rx.isSome = true) :
    Yields .heartbeatTx s fun t => t.twin.refSent.length = 24 ∧ nth t.twin.refSent 2 0 = 0x11 ∧
      t.twin.ref.txSeq = s.twin.ref.txSeq + 1 ∧ t.twin.refHeard = false := by
  let r := s.reach s.nextHb
  let v := ({ r with twin := { r.twin with hbAt := some r.now } } : State).intervalEnd
  have hr : r.twin.ref = s.twin.ref := congrArg TwinSt.ref ((hubTimeFrame_reach s s.nextHb).1 .twin (by decide))
  have hbegun := intervalEnd_twin { r with twin := { r.twin with hbAt := some r.now } }
  have hv : v.twin.ref = s.twin.ref := (congrArg TwinSt.ref hbegun).trans hr
  have hheard : v.twin.refHeard = false := congrArg TwinSt.refHeard hbegun
  refine yields_of_act (exec_heartbeatTx s) hlive ?_
  change (v.hubHeartbeat).settle.twin.refSent.length = 24 ∧ nth (v.hubHeartbeat).settle.twin.refSent 2 0 = 0x11 ∧
    (v.hubHeartbeat).settle.twin.ref.txSeq = s.twin.ref.txSeq + 1 ∧ (v.hubHeartbeat).settle.twin.refHeard = false
  rw [settle_twin, hubHeartbeat, if_pos (by rw [hv]; exact hrx)]
  obtain ⟨hlen, htype⟩ := refFrame_heartbeat (body := beBytes 2 (v.cycle % 65536) ++ beBytes 2 (v.get F.TWIN_WATCH_SEEN) ++
    [BitVec.ofNat 8 v.healthByte] ++ beBytes 4 v.twin.wit) (by simp [length_beBytes]) (v.twin.ref.tx.getD 0) v.hubNo v.side
    v.twin.ref.txSeq v.twin.ref.txSeq
  exact ⟨hlen, htype, by rw [← hv], hheard⟩

/-- Settles O35: each frame and event of the referee link at a hub by the rule it follows. -/
theorem refereeAtHub : Obligations.RefereeAtHub := by
  unfold Obligations.RefereeAtHub
  refine ⟨?_, ?_, ?_, ?_, ?_, ?_, ?_, ?_, ?_⟩
  case refine_1 => exact fun s _ hlive hrx _ => yields_heartbeatTx hlive hrx
  case refine_2 => exact fun s fr n b hlive hok hnewer hseen hstandby => yields_takeRx hlive hok hnewer hseen hstandby
  case refine_3 => exact fun s fr n b hlive hok hstale => yields_takeRx_stale hlive hok hstale
  case refine_4 => exact fun s fr n b hlive hok hnewer => yields_yieldRx hlive hok hnewer
  case refine_5 => exact fun s fr n b hlive hok hnewer hstandby => yields_rstRx hlive hok hnewer hstandby
  case refine_6 => exact fun s halive hhub htwin hruns => yields_refLost halive hhub htwin hruns
  case refine_7 => exact fun s halive hhub htwin hruns hself hbond => yields_refLost_self halive hhub htwin hruns hself hbond
  case refine_8 => exact fun s h hcase => yields_selfTakeover h hcase
  case refine_9 => exact fun s h hpref hbond hfail hready => yields_preferredReclaim h hpref hbond hfail hready

end Sys2Proof.Machine
end

section
/-! PROOFS. The canonical form of memory: the predicate and the rules of the control structures. Memory changes by stores and by
what a reset keeps of it alone. Each function of the model that takes a state has one rule, `Canonical.f`, whose proof follows the
function's text, as the rules of the permanent bypass (`Bypassed`) do, which speak of another part. -/

namespace Sys2Proof.Machine

/-- The memory list is in its canonical form. -/
def State.Canonical (s : State) : Prop := Memory.wf s.mem = true

namespace State.Canonical

/-- An update of other parts than memory. The fields stand one by one, so that unification with a record update finds `x`. -/
theorem upd {x : State}
    {role' phase' grade' pins' regs' act' resp' host' boot' sup' clk' sec' err' freeCtr' uart' now' elapsed'
    time' lanes' rx' ports' berths' rank' eng' comp' mod' cmod' gate' safe' adc' twin' refLinks' refPairs' sch' memErr'
    arb' bb' mon' recd' stn' pending'} (h : x.Canonical) :
    Canonical ⟨role', phase', grade', pins', regs', act', x.mem, resp', host', boot', sup', clk', sec', err', freeCtr', uart',
      now', elapsed', time', lanes', rx', ports', berths', rank', eng', comp', mod', cmod', gate', safe', adc',
      twin', refLinks', refPairs', sch', memErr', arb', bb', mon', recd', stn', pending'⟩ := h

/-- A part of memory that is kept, with an update of other parts. -/
theorem kept {x : State} {p : Nat → Bool}
    {role' phase' grade' pins' regs' act' resp' host' boot' sup' clk' sec' err' freeCtr' uart' now' elapsed'
    time' lanes' rx' ports' berths' rank' eng' comp' mod' cmod' gate' safe' adc' twin' refLinks' refPairs' sch' memErr'
    arb' bb' mon' recd' stn' pending'} (h : x.Canonical) :
    Canonical ⟨role', phase', grade', pins', regs', act', kvKeep p x.mem, resp', host', boot', sup', clk', sec', err', freeCtr',
      uart', now', elapsed', time', lanes', rx', ports', berths', rank', eng', comp', mod', cmod', gate', safe', adc',
      twin', refLinks', refPairs', sch', memErr', arb', bb', mon', recd', stn', pending'⟩ := Memory.wf_kvKeep p h

/-! Control structures. -/

theorem ite {c : Prop} [Decidable c] {s t : State} (hs : s.Canonical) (ht : t.Canonical) :
    Canonical (if c then s else t) := iteInduction (fun _ => hs) fun _ => ht

theorem iteSnd {α : Type} {c : Prop} [Decidable c] {p q : α × State} (hp : p.2.Canonical) (hq : q.2.Canonical) :
    Canonical (if c then p else q).2 :=
  iteInduction (motive := fun r : α × State => r.2.Canonical) (fun _ => hp) fun _ => hq

theorem iteSnd2 {α β : Type} {c : Prop} [Decidable c] {p q : α × β × State} (hp : p.2.2.Canonical)
    (hq : q.2.2.Canonical) : Canonical (if c then p else q).2.2 :=
  iteInduction (motive := fun r : α × β × State => r.2.2.Canonical) (fun _ => hp) fun _ => hq

theorem iteSnd3 {α β γ : Type} {c : Prop} [Decidable c] {p q : α × β × γ × State} (hp : p.2.2.2.Canonical)
    (hq : q.2.2.2.Canonical) : Canonical (if c then p else q).2.2.2 :=
  iteInduction (motive := fun r : α × β × γ × State => r.2.2.2.Canonical) (fun _ => hp) fun _ => hq

theorem pair {α : Type} {a : α} {t : State} (h : t.Canonical) : (a, t).2.Canonical := h

theorem ofSnd {α : Type} {p : α × State} {a : α} {t : State} (e : p = (a, t)) (h : p.2.Canonical) :
    t.Canonical := by
  subst e
  exact h

theorem ofSnd2 {α β : Type} {p : α × β × State} {a : α} {b : β} {t : State} (e : p = (a, b, t))
    (h : p.2.2.Canonical) : t.Canonical := by
  subst e
  exact h

theorem when {s : State} {c : Bool} {f : State → State} (h : s.Canonical) (hf : s.Canonical → (f s).Canonical) :
    (s.when c f).Canonical := .ite (hf h) h

theorem foldl {α : Type} {f : State → α → State} {l : List α} {s : State} (h : s.Canonical)
    (hf : ∀ t x, t.Canonical → (f t x).Canonical) : (l.foldl f s).Canonical :=
  List.foldlRecOn l f h fun t ht x _ => hf t x ht

theorem foldlSnd {α β : Type} {f : β × State → α → β × State} {l : List α} {p : β × State} (h : p.2.Canonical)
    (hf : ∀ p x, p.2.Canonical → (f p x).2.Canonical) : (l.foldl f p).2.Canonical :=
  List.foldlRecOn (motive := fun r : β × State => r.2.Canonical) l f h fun t ht x _ => hf t x ht

theorem foldlSnd2 {α β γ : Type} {f : β × γ × State → α → β × γ × State} {l : List α} {p : β × γ × State}
    (h : p.2.2.Canonical) (hf : ∀ p x, p.2.2.Canonical → (f p x).2.2.Canonical) : (l.foldl f p).2.2.Canonical :=
  List.foldlRecOn (motive := fun r : β × γ × State => r.2.2.Canonical) l f h fun t ht x _ => hf t x ht

theorem forUpTo {f : Nat → State → State} {k : Nat} {s : State} (h : s.Canonical)
    (hf : ∀ n t, t.Canonical → (f n t).Canonical) : (Machine.forUpTo f k s).Canonical := Bypassed.forUpTo_of h hf

theorem forUpToSnd {β : Type} {f : Nat → β × State → β × State} {k : Nat} {p : β × State} (h : p.2.Canonical)
    (hf : ∀ n p, p.2.Canonical → (f n p).2.Canonical) : (Machine.forUpTo f k p).2.Canonical :=
  Bypassed.forUpTo_of (P := fun r : β × State => r.2.Canonical) h hf

theorem forUpToSnd2 {β γ : Type} {f : Nat → β × γ × State → β × γ × State} {k : Nat} {p : β × γ × State}
    (h : p.2.2.Canonical) (hf : ∀ n p, p.2.2.Canonical → (f n p).2.2.Canonical) : (Machine.forUpTo f k p).2.2.Canonical :=
  Bypassed.forUpTo_of (P := fun r : β × γ × State => r.2.2.Canonical) h hf

theorem setByte {s : State} {a b} (h : s.Canonical) : (s.setByte a b).Canonical := Memory.wf_setByte a b h

theorem setBytes {s : State} {a bs} (h : s.Canonical) : (s.setBytes a bs).Canonical := Memory.wf_setBytes a bs h

theorem unlessStopped {s : State} {f : State → State} (h : s.Canonical) (hf : s.Canonical → (f s).Canonical) :
    (s.unlessStopped f).Canonical := .ite h (hf h)

end State.Canonical

end Sys2Proof.Machine
end

section
/-! PROOFS. Memory in its canonical form through what all pages share, clocks, lanes and the gate block:
one rule per function of the model, in the order of the model. -/

namespace Sys2Proof.Machine.State.Canonical

variable {s : State}

/-! Canonical memory: registers, events, the error log and the other shared operations. -/

theorem setReg {a v} (h : s.Canonical) : (s.setReg a v).Canonical := .upd h
theorem set {f n} (h : s.Canonical) : (s.set f n).Canonical := .setReg h
theorem bump {f k} (h : s.Canonical) : (s.bump f k).Canonical := .set h
theorem count {f k} (h : s.Canonical) : (s.count f k).Canonical := .set h
theorem occur {pg bit} (h : s.Canonical) : (s.occur pg bit).Canonical := .upd h
theorem event {pg bit} (h : s.Canonical) : (s.event pg bit).Canonical := .setReg <| .ite (.occur h) h
theorem free (h : s.Canonical) : s.free.2.Canonical := .upd h

theorem setNum {a n v} (h : s.Canonical) : (s.setNum a n v).Canonical := .setBytes h

theorem nmiEnter {l cause} (h : s.Canonical) : (s.nmiEnter l cause).Canonical :=
  .upd <| .set <| .setReg <| .setReg <| .setReg h

theorem nmi {cause} (h : s.Canonical) : (s.nmi cause).Canonical := by
  unfold State.nmi
  extract_lets s₁
  have h₁ : s₁.Canonical := .set h
  exact .ite (.nmiEnter h₁) <| .ite (.nmiEnter h₁) <| .set h₁

theorem bbWrite {type sub detail} (h : s.Canonical) : (s.bbWrite type sub detail).Canonical := .ite (by
        extract_lets _ _ _ s₁ s₂ _ s₃ s₄ s₅
        have h₁ : s₁.Canonical := .setBytes h
        have h₂ : s₂.Canonical := .count h₁
        have h₃ : s₃.Canonical := .upd h₂
        have h₄ : s₄.Canonical := .set <| .set h₃
        have h₅ : s₅.Canonical := .event h₄
        split
        · exact .ite (.upd h₅) <| .upd h₃
        · exact h₃) h

theorem bbFreeze {why} (h : s.Canonical) : (s.bbFreeze why).Canonical :=
  .ite (.ite (.event <| .set <| .set h) <| .upd h) h

theorem health {c} (h : s.Canonical) : (s.health c).Canonical := .when h .set
theorem ltAdd {i n} (h : s.Canonical) : (s.ltAdd i n).Canonical := .set <| .setReg h
theorem errLose {cls} (h : s.Canonical) : (s.errLose cls).Canonical := .event <| .bump h

theorem errStore {e} (h : s.Canonical) : (s.errStore e).Canonical := by
  unfold State.errStore
  dsimp only
  split
  · exact .ite (.upd h) <| .ite (.upd h) <| .ite (.upd <| .errLose h) <| .errLose h
  · exact .upd h

theorem errSignal {cls own} (h : s.Canonical) : (s.errSignal cls own).Canonical := .upd <| by
      split
      · exact .nmi h
      · exact .ite (.event h) <| .nmi h

theorem errPend {cls} (h : s.Canonical) : (s.errPend cls).Canonical := .upd h

theorem errHandle {cls own} (h : s.Canonical) : (s.errHandle cls own).Canonical :=
  .ite (.errPend h) <| .ite (.errSignal h) <| by
      dsimp only
      split
      · exact .nmi <| .bump <| .errPend h
      · exact .bump <| .errPend h

theorem errArrive {cls src req addr} (h : s.Canonical) : (s.errArrive cls src req addr).Canonical :=
  .errHandle <| .when (.when (.errStore <| .bump h) fun h' => .bbFreeze <| .bbWrite <| .health h') .upd

/-! Canonical memory: keys and identities (06_presence_security.md). -/

theorem program {o bs} (h : s.Canonical) : (s.program o bs).Canonical := .foldl h fun _ _ h' => .setByte h'

theorem programOwner {hash} (h : s.Canonical) : (s.programOwner hash).Canonical := by
  unfold State.programOwner
  split
  · exact .program <| .program h
  · exact h

theorem revokeOwner (h : s.Canonical) : s.revokeOwner.Canonical := by
  unfold State.revokeOwner
  split
  · exact .program h
  · exact h

theorem addAnchor {i} (h : s.Canonical) : (s.addAnchor i).Canonical := .ite h <| by
      split
      · exact .program <| .program h
      · exact .event h

theorem peerRefused (h : s.Canonical) : s.peerRefused.Canonical := .bump h
theorem drawScalar (h : s.Canonical) : s.drawScalar.2.Canonical := .free h
theorem kxOwn {d signed} (h : s.Canonical) : (s.kxOwn d signed).2.Canonical := .drawScalar h

/-! Canonical memory: the monitor units and the lifetime counters (21_recorder_monitors.md). -/

theorem monUnit {src f j} (h : s.Canonical) : (s.monUnit src f j).Canonical := .ite (by
        split
        · exact .upd h
        · exact h) h

theorem monitor {src f} (h : s.Canonical) : (s.monitor src f).Canonical := .forUpTo h fun _ _ h' => .monUnit h'
theorem monitorSel {src sel v} (h : s.Canonical) : (s.monitorSel src sel v).Canonical := .monitor h
theorem monClear {j} (h : s.Canonical) : (s.monClear j).Canonical := .upd h

theorem monSnap {p i clr} (h : s.Canonical) : (s.monSnap p i clr).Canonical :=
  .when (.count <| .set <| .set <| .set <| .forUpTo (.setReg <| .setReg <| .setReg <| .setReg <|
    .setReg h) fun _ _ h' => .setReg h') .monClear

theorem ltLoad {i} (h : s.Canonical) : (s.ltLoad i).Canonical := .ite (.event h) <| .ltAdd h

/-! Canonical memory: the hardwired logic behind every command. -/

theorem settle (h : s.Canonical) : s.settle.Canonical := by
  unfold State.Canonical
  rw [settle_mem]
  exact h

/-! Canonical memory: the time unit (08_time.md). -/

theorem holdsRelease (h : s.Canonical) : s.holdsRelease.Canonical := .forUpTo h fun _ _ h' => .ite (.set h') h'
theorem resumeHeld (h : s.Canonical) : s.resumeHeld.Canonical := .ite h <| .holdsRelease h
theorem meridiansStop (h : s.Canonical) : s.meridiansStop.Canonical := .ite h <| .upd h

theorem enterHold {c} (h : s.Canonical) : (s.enterHold c).Canonical := .ite h <| by
      extract_lets s₁ _ s₂
      have h₁ : s₁.Canonical := .ite h <| .set <| .bump <| .event h
      have h₂ : s₂.Canonical := .ite (.upd h₁) h₁
      exact .upd h₂

theorem leaveHold {c} (h : s.Canonical) : (s.leaveHold c).Canonical :=
  .ite h <| .ite (.upd <| .ite (.upd h) h) <| .set <| .event <| .upd <| .ite (.upd h) h

theorem holdByTwin (h : s.Canonical) : s.holdByTwin.Canonical := .ite h <| .ite (.enterHold h) <| .leaveHold h
theorem takeSource (h : s.Canonical) : s.takeSource.Canonical := .ite h <| .holdByTwin <| .upd h
theorem pass {d} (h : s.Canonical) : (s.pass d).Canonical := .upd h
theorem newTimebase (h : s.Canonical) : s.newTimebase.Canonical := .when h .count
theorem applyJump {j} (h : s.Canonical) : (s.applyJump j).Canonical := .event <| .upd h

theorem requestJump {j} (h : s.Canonical) : (s.requestJump j).Canonical :=
  .ite (.event h) <| .ite (.upd h) <| .applyJump h

theorem incRequest (h : s.Canonical) : s.incRequest.Canonical := .upd h

theorem applyWaitingJump (h : s.Canonical) : s.applyWaitingJump.Canonical := by
  unfold State.applyWaitingJump
  split
  · exact .applyJump h
  · exact h

theorem applyWaiting (h : s.Canonical) : s.applyWaiting.Canonical := by
  unfold State.applyWaiting
  extract_lets s₁ _ s₂
  have h₁ : s₁.Canonical := .applyWaitingJump <| .takeSource h
  have h₂ : s₂.Canonical := .upd h₁
  split
  · exact .upd h₂
  · exact h₂

theorem tick (h : s.Canonical) : s.tick.Canonical := .ite h <| .ite (.upd <| .pass <| .applyWaiting h) <| .pass h
theorem reach {t} (h : s.Canonical) : (s.reach t).Canonical := .ite (.upd <| .pass <| .applyWaiting h) h
theorem timerEnds {d} (h : s.Canonical) : (s.timerEnds d).Canonical := .pass h
theorem latchNow (h : s.Canonical) : s.latchNow.Canonical := .setReg <| .setReg <| .setReg <| .setReg h
theorem resetTimeUnit {tbg} (h : s.Canonical) : (s.resetTimeUnit tbg).Canonical := .set <| .upd h

theorem popTs {p} (h : s.Canonical) : (s.popTs p).Canonical := by
  unfold State.popTs
  split
  · exact .set h
  · exact .setReg <| .setReg <| .setReg <| .upd h

theorem pushTs {p e} (h : s.Canonical) : (s.pushTs p e).Canonical := .ite (.upd h) <| .event <| .bump h

/-! Canonical memory: clock domains, sources and gating (04_core_clocks.md). -/

theorem reachable {d} (h : s.Canonical) : (s.reachable d).2.Canonical := .iteSnd h <| .free h
theorem followIrc {n} (h : s.Canonical) : (s.followIrc n).Canonical := .ite (.upd h) h
theorem rampState {n target} (h : s.Canonical) : (s.rampState n target).Canonical := .ite (.set h) <| .event <| .set h

theorem domApply {n src div} (h : s.Canonical) : (s.domApply n src div).Canonical := by
  unfold State.domApply
  extract_lets s₁ s₂ _ s₃ s₄
  have h₁ : s₁.Canonical := .set <| .set h
  have h₂ : s₂.Canonical := .ite (by
      split
      next _ s₂ heq =>
      have h₂ : s₂.Canonical := .ofSnd heq <| .reachable h₁
      exact .set <| .set h₂) <| .ite (.set h₁) h₁
  have h₃ : s₃.Canonical := .upd h₂
  have h₄ : s₄.Canonical := .ite (.leaveHold h₃) h₃
  exact .rampState <| .followIrc h₄

theorem domWrite {n src div} (h : s.Canonical) : (s.domWrite n src div).Canonical :=
  .ite (.upd <| .set h) <| .ite (.set <| .set h) <| .domApply h

theorem domLatched {n} (h : s.Canonical) : (s.domLatched n).Canonical := by
  unfold State.domLatched
  split
  · exact .domApply <| .set <| .upd h
  · exact h

theorem failDomain {n} (h : s.Canonical) : (s.failDomain n).Canonical :=
  .upd <| .set <| .set <| .set <| .set <| .reachable <| .when h .event

theorem failDomains {src} (h : s.Canonical) : (s.failDomains src).Canonical := by
  unfold State.failDomains
  extract_lets _ s₁ _ s₂
  have h₁ : s₁.Canonical := .foldl h fun _ _ h' => .ite (.failDomain h') h'
  have h₂ : s₂.Canonical := .ite (.upd h₁) h₁
  exact .ite (.health <| .enterHold h₂) h₂

theorem rcselSwitch (h : s.Canonical) : s.rcselSwitch.Canonical := .ite (.set h) h

theorem failOne {m} (h : s.Canonical) : (s.failOne m).Canonical := by
  unfold State.failOne
  extract_lets s₁ s₂ _ s₃ s₄ s₅ s₆
  have h₁ : s₁.Canonical := .set h
  have h₂ : s₂.Canonical := .set h₁
  have h₃ : s₃.Canonical := .upd h₂
  have h₄ : s₄.Canonical := .set h₃
  have h₅ : s₅.Canonical := .ite (.failDomains h₄) <| .ite (.failDomains h₄) h₄
  have h₆ : s₆.Canonical := .errArrive <| .event h₅
  exact .bbWrite h₆

theorem srcFail {m} (h : s.Canonical) : (s.srcFail m).Canonical := .ite h <| by
      extract_lets _ _ s₁ s₂
      have h₁ : s₁.Canonical := .failOne h
      have h₂ : s₂.Canonical := .ite (.failOne h₁) h₁
      exact .ite (.rcselSwitch h₂) h₂

theorem returnDomains {src} (h : s.Canonical) : (s.returnDomains src).Canonical := .foldl h fun _ _ h' => by
      split
      · exact .ite (.domApply h') h'
      · exact h'

theorem srcGood {m} (h : s.Canonical) : (s.srcGood m).Canonical := by
  unfold State.srcGood
  extract_lets s₁
  have h₁ : s₁.Canonical := .set h
  exact .ite h₁ <| .event <| .ite (.returnDomains h₁) <| .ite (.returnDomains h₁) h₁

theorem spllRefCheck (h : s.Canonical) : s.spllRefCheck.Canonical := by
  unfold State.spllRefCheck
  split
  · exact .ite (.srcFail h) h
  · exact h

theorem xoscGood (h : s.Canonical) : s.xoscGood.Canonical := .ite h <| .upd <| .event h

theorem goodWindow {m} (h : s.Canonical) : (s.goodWindow m).Canonical :=
  .ite (.when (.srcGood <| .when (.set <| .upd h) .xoscGood) .xoscGood) <| .when (.set <| .upd h) .xoscGood

theorem badWindow {m} (h : s.Canonical) : (s.badWindow m).Canonical :=
  .ite (.ite (.srcFail <| .upd <| .set <| .upd h) <| .upd <| .set <| .upd h) <| .srcFail <| .set <| .upd h

theorem monitorWindow {m count} (h : s.Canonical) : (s.monitorWindow m count).Canonical :=
  .ite (.ite (.goodWindow <| .set h) <| .badWindow <| .set h) <| .set h

theorem speedUpdate {rings} (h : s.Canonical) : (s.speedUpdate rings).Canonical := by
  unfold State.speedUpdate
  extract_lets _ s₁ s₂ s₃ _ s₄
  have h₁ : s₁.Canonical := .set h
  have h₂ : s₂.Canonical := .set h₁
  have h₃ : s₃.Canonical := .set h₂
  have h₄ : s₄.Canonical := .event h₃
  exact .ite (.ite (.upd h₄) h₃) <| .ite (.upd h₃) h₃

theorem closeGate {pg} (h : s.Canonical) : (s.closeGate pg).Canonical := .set <| .upd h

/-! Canonical memory: the serial lanes (07_lanes.md). -/

theorem accessErr {pg} (h : s.Canonical) : (s.accessErr pg).Canonical := .event h
theorem setLane {n l} (h : s.Canonical) : (s.setLane n l).Canonical := .upd h

theorem twinLost (h : s.Canonical) : s.twinLost.Canonical :=
  .holdByTwin <| .set <| .when (.upd <| .upd <| .foldl (.set <| .set <| .set h) fun _ _ h' => .ite (.upd <| .event <|
    .bump h') h') .event

theorem scanAbort {n} (h : s.Canonical) : (s.scanAbort n).Canonical :=
  .ite h <| .set <| .set <| .set <| .setReg <| .free <| .free h

theorem codeGroups {n ok} (h : s.Canonical) : (s.codeGroups n ok).Canonical := .ite (.setLane h) <| .bump <| .setLane h

theorem laneUnsync {n} (h : s.Canonical) : (s.laneUnsync n).Canonical := by
  unfold State.laneUnsync
  extract_lets _ s₁ _ s₂
  have h₁ : s₁.Canonical := .scanAbort <| .setLane <| .set h
  have h₂ : s₂.Canonical := .upd h₁
  exact .ite (.twinLost <| .set <| .set h₂) h₂

theorem reloadExpect {n} (h : s.Canonical) : (s.reloadExpect n).Canonical := .set <| .free h
theorem laneGo {n st} (h : s.Canonical) : (s.laneGo n st).Canonical := .setLane <| .set h

theorem laneEnter {n st} (h : s.Canonical) : (s.laneEnter n st).Canonical :=
  .ite (.set <| .laneUnsync <| .when (.set h) .scanAbort) <| .when (.set h) .scanAbort

theorem lanePwr {n st} (h : s.Canonical) : (s.lanePwr n st).Canonical :=
  .ite (.accessErr h) <| .ite h <| .ite (.setLane <| .set <| .set h) <| .ite (.laneGo <| .set h) <| .set h

theorem laneEnable {n} (h : s.Canonical) : (s.laneEnable n).Canonical := .ite h <| .laneGo h
theorem laneDisable {n} (h : s.Canonical) : (s.laneDisable n).Canonical := .laneEnter <| .set <| .set <| .setLane h

theorem moorLanes (h : s.Canonical) : s.moorLanes.Canonical :=
  .forUpTo h fun _ _ h' => .ite (.set <| .laneDisable h') h'

theorem eyeScan {n} (h : s.Canonical) : (s.eyeScan n).Canonical :=
  .ite (.accessErr h) <| .setReg <| .set <| .set <| .setLane <| .set <| .set h

theorem prbsStart {n} (h : s.Canonical) : (s.prbsStart n).Canonical := .setLane h
theorem prbsSend {n} (h : s.Canonical) : (s.prbsSend n).Canonical := .ite (.setLane h) h
theorem prbsInj {n} (h : s.Canonical) : (s.prbsInj n).Canonical := .ite (.setLane <| .count h) h
theorem prbsClr {n} (h : s.Canonical) : (s.prbsClr n).Canonical := .setReg h
theorem eqClip {n r} (h : s.Canonical) : (s.eqClip n r).Canonical := .ite (.event h) h
theorem prbsErrors {n k} (h : s.Canonical) : (s.prbsErrors n k).Canonical := .bump h

/-! Canonical memory: the gate block of a cell and the TEV outputs (15_cell_power_stage.md). -/

theorem evFlag {b} (h : s.Canonical) : (s.evFlag b).Canonical := .upd h
theorem edge {st t q} (h : s.Canonical) : (s.edge st t q).Canonical := .upd <| .ite (.event <| .bump h) h
theorem blockEdge {t q} (h : s.Canonical) : (s.blockEdge t q).Canonical := .upd <| .ite h <| .edge h
theorem discard (h : s.Canonical) : s.discard.Canonical := .bump h

theorem request {st t q own} (h : s.Canonical) : (s.request st t q own).Canonical :=
  .ite h <| .ite (.upd h) <| .ite (.discard h) <| .ite (.blockEdge h) <| .ite (.discard h) <| .ite h <|
    .ite (.upd <| .evFlag <| .bump h) <| .ite (.bump h) <| .edge h

theorem fireThy (h : s.Canonical) : s.fireThy.Canonical := .upd h
theorem bbAction {code} (h : s.Canonical) : (s.bbAction code).Canonical := .bbWrite h
theorem permBypass (h : s.Canonical) : s.permBypass.Canonical :=
  .ite h <| .bbFreeze <| .bbAction <| .event <| .when (.upd h) .fireThy

theorem flushRequests (h : s.Canonical) : s.flushRequests.Canonical := .bump <| .upd h

theorem faultLatch {n} (h : s.Canonical) : (s.faultLatch n).Canonical := by
  unfold State.faultLatch
  extract_lets s₁ _ s₂ _ _ s₃ s₄ s₅ _ s₆
  have h₁ : s₁.Canonical := .evFlag h
  have h₂ : s₂.Canonical := .upd <| .evFlag h
  have h₃ : s₃.Canonical := .upd h₂
  have h₄ : s₄.Canonical := .event <| .flushRequests h₃
  have h₅ : s₅.Canonical := .ltAdd h₄
  have h₆ : s₆.Canonical := .upd h₅
  exact .ite (.ite (.bbFreeze <| .bbWrite h₆) h₄) h₂

theorem desaturation (h : s.Canonical) : s.desaturation.Canonical := .when (.upd <| .bump h) .permBypass
theorem tripLevel {n v} (h : s.Canonical) : (s.tripLevel n v).Canonical := .ite (.upd h) <| .ite (.upd h) h

theorem faultSource {n} (h : s.Canonical) : (s.faultSource n).Canonical :=
  .when (.faultLatch <| .tripLevel h) .desaturation

theorem takeEvent {e} (h : s.Canonical) : (s.takeEvent e).Canonical := .upd <| .reach h

theorem moveEvent {e} (h : s.Canonical) : (s.moveEvent e).Canonical := by
  unfold State.moveEvent
  split
  · exact .request h
  · exact h

theorem trimEvent {e on w} (h : s.Canonical) : (s.trimEvent e on w).Canonical :=
  .ite (.upd <| .request h) <| .request h

theorem trimOver {t} (h : s.Canonical) : (s.trimOver t).Canonical := by
  unfold State.trimOver
  split
  · exact .ite (.request <| .upd h) h
  · exact h

theorem gateStop {cause} (h : s.Canonical) : (s.gateStop cause).Canonical :=
  .when (.ite (.upd h) <| .upd <| .upd h) .event

theorem gateResume {cause} (h : s.Canonical) : (s.gateResume cause).Canonical := .upd h
theorem gateClear (h : s.Canonical) : s.gateClear.Canonical := .ite (.event <| .bump h) <| .ite h <| .upd h
theorem tevArm {n} (h : s.Canonical) : (s.tevArm n).Canonical := .ite (.event h) <| .upd <| .set h
theorem tevDisarm {n} (h : s.Canonical) : (s.tevDisarm n).Canonical := .upd h

/-! Canonical memory: the berth table and the management queues (09_tree_frames.md). -/

theorem setBerth {i b} (h : s.Canonical) : (s.setBerth i b).Canonical := .upd h
theorem setPort {p x} (h : s.Canonical) : (s.setPort p x).Canonical := .upd h
theorem mgmtQueue {p r} (h : s.Canonical) : (s.mgmtQueue p r).2.Canonical := .setPort h
theorem hubRecord {p r} (h : s.Canonical) : (s.hubRecord p r).Canonical := .ite (.mgmtQueue h) <| .setPort h
theorem refill {p} (h : s.Canonical) : (s.refill p).Canonical := .foldl (.setPort h) fun _ _ h' => .mgmtQueue h'

theorem sequence (h : s.Canonical) : s.sequence.Canonical := by
  unfold State.sequence
  split
  · exact h
  · exact .ite (.upd h) <| .ite (.upd <| .mgmtQueue h) h

theorem deblockOne {i} (h : s.Canonical) : (s.deblockOne i).Canonical := .sequence <| .upd h
theorem autoDeblock {i} (h : s.Canonical) : (s.autoDeblock i).Canonical := .when h .deblockOne

/-! Canonical memory: Valve Block and block detection (17_safety.md). -/

theorem latchSource {bit} (h : s.Canonical) : (s.latchSource bit).Canonical := by
  unfold State.latchSource
  extract_lets s₁ _ _ _ s₂ s₃ _ _ s₄ _ s₅
  have h₁ : s₁.Canonical := .event h
  have h₂ : s₂.Canonical := .upd h₁
  have h₃ : s₃.Canonical := .ltAdd <| .bump h₂
  have h₄ : s₄.Canonical := .ite (.upd h₃) h₂
  have h₅ : s₅.Canonical := .upd h₄
  exact .ite (.ite (by
          split
          next _ s₆ heq =>
          have h₆ : s₆.Canonical := .ofSnd heq <| .free h₅
          exact .monitorSel <| .set h₆) h₅) h₄

theorem assertBit {b on} (h : s.Canonical) : (s.assertBit b on).Canonical := .upd h

theorem setBlockPin {p v} (h : s.Canonical) : (s.setBlockPin p v).Canonical := by
  unfold State.setBlockPin
  split
  · exact .upd h
  · exact .upd h
  · exact .upd h
  · exact .upd h

theorem blockRequest {src} (h : s.Canonical) : (s.blockRequest src).Canonical := .upd <| .when h .event

theorem hubDeblockCmd (h : s.Canonical) : s.hubDeblockCmd.Canonical :=
  .ite (.event <| .set <| .bump h) <| .upd <| .ite h <| .event h

theorem hubAclrCmd (h : s.Canonical) : s.hubAclrCmd.Canonical := .ite (.event <| .bump h) <| .upd h
theorem hubBclrCmd (h : s.Canonical) : s.hubBclrCmd.Canonical := .upd h

theorem hubCommand {code} (h : s.Canonical) : (s.hubCommand code).Canonical :=
  .ite (.hubDeblockCmd h) <| .ite (.hubAclrCmd h) <| .ite (.blockRequest h) <| .ite (.hubBclrCmd h) <| .accessErr h

theorem hubDeblockOne {i} (h : s.Canonical) : (s.hubDeblockOne i).Canonical := .ite (.deblockOne h) <| .accessErr h

theorem cellDeblockCmd {tree} (h : s.Canonical) : (s.cellDeblockCmd tree).Canonical :=
  .ite (.upd <| .bbWrite <| .set <| .event <| .bump <| .set h) <| .ite h <| .bbWrite <| .event <| .count <| .upd h

theorem cellBlockNow (h : s.Canonical) : s.cellBlockNow.Canonical := .ite (.upd h) <| .blockEdge h

theorem cellCommand {tree code} (h : s.Canonical) : (s.cellCommand tree code).Canonical :=
  .ite (.cellDeblockCmd h) <| .ite (.cellBlockNow h) <| .ite (.permBypass h) <| .accessErr h

theorem forceBlock (h : s.Canonical) : s.forceBlock.Canonical := .upd <| .flushRequests h

/-! Canonical memory: the timetable (10_tree_admission.md). -/

theorem setUplink {u x} (h : s.Canonical) : (s.setUplink u x).Canonical := .upd h

theorem slotUpdate {u n} (h : s.Canonical) : (s.slotUpdate u n).Canonical := by
  unfold State.slotUpdate
  split
  · exact .setUplink <| .set <| .set h
  · exact h

end Sys2Proof.Machine.State.Canonical
end

section
/-! PROOFS. Memory in its canonical form through measurement, memory, compensation, the engine and modulation:
one rule per function of the model, in the order of the model. -/

namespace Sys2Proof.Machine.State.Canonical

variable {s : State}

/-! Canonical memory: converters and accumulators (16_measurement.md). -/

theorem setAcc {c a} (h : s.Canonical) : (s.setAcc c a).Canonical := .upd h
theorem windowMode (h : s.Canonical) : s.windowMode.Canonical := .upd <| .set <| .set h
theorem windowKind (h : s.Canonical) : s.windowKind.Canonical := .when h .windowMode
theorem rounded {x} (h : s.Canonical) : (s.rounded x).2.Canonical := .iteSnd h <| .free h
theorem closeValues {c a} (h : s.Canonical) : (s.closeValues c a).2.Canonical := .iteSnd (.free <| .free <| .free h) h

theorem plausible {a b} (h : s.Canonical) : (s.plausible a b).Canonical :=
  .ite (.ite (.when (.upd <| .set <| .bump <| .evFlag <| .event <| .bump h) fun h' => .event <| .forceBlock h') <|
    .bump h) <| .upd <| .set <| .set h

theorem plausClose {c w} (h : s.Canonical) : (s.plausClose c w).Canonical := by
  unfold State.plausClose
  extract_lets _ s₁ _ _ s₂
  have h₁ : s₁.Canonical := .ite (.upd h) <| .ite (.upd h) h
  have h₂ : s₂.Canonical := .upd h₁
  split
  · exact .ite h₂ <| .plausible h₂
  · exact h₁

theorem supplyTest {rail w} (h : s.Canonical) : (s.supplyTest rail w).Canonical :=
  .ite h <| .ite (.when (.bump <| .set h) .event) <| .when (.set h) .event

theorem winClosed {c} (h : s.Canonical) : (s.winClosed c).Canonical := .ite (.upd <| .event h) <| .upd h

theorem reportWindow {c w} (h : s.Canonical) : (s.reportWindow c w).Canonical := by
  unfold State.reportWindow
  extract_lets s₁ _ _ s₂ _ s₃ _ s₄
  have h₁ : s₁.Canonical := .when h .event
  have h₂ : s₂.Canonical := .ite (.set h₁) <| .when h₁ .set
  have h₃ : s₃.Canonical := .setReg h₂
  have h₄ : s₄.Canonical := .upd h₃
  exact .ite (.ite h₄ <| by
        split
        next _ s₅ heq =>
        have h₅ : s₅.Canonical := .ofSnd heq <| .rounded h₄
        exact .monitor h₅) h₂

theorem m2Closed {c w} (h : s.Canonical) : (s.m2Closed c w).Canonical := by
  unfold State.m2Closed
  extract_lets s₁ s₂
  have h₁ : s₁.Canonical := .ite (.supplyTest h) h
  have h₂ : s₂.Canonical := .plausClose h₁
  exact .ite (by
        split
        next _ s₃ heq =>
        have h₃ : s₃.Canonical := .ofSnd heq <| .rounded h₂
        exact .monitor h₃) h₂

theorem closeWindow {c} (h : s.Canonical) : (s.closeWindow c).Canonical := by
  unfold State.closeWindow
  extract_lets
  split
  next _ s₁ heq =>
  have h₁ : s₁.Canonical := .ofSnd heq <| .closeValues h
  extract_lets _ s₂ s₃ s₄
  have h₂ : s₂.Canonical := .upd h₁
  have h₃ : s₃.Canonical := .setAcc h₂
  have h₄ : s₄.Canonical := .ite (.reportWindow h₃) <| .m2Closed h₃
  exact .winClosed h₄

theorem closeUntil {c i fuel} (h : s.Canonical) : (s.closeUntil c i fuel).Canonical := by
  induction fuel generalizing s with
  | zero => exact h
  | succ k ih => exact .ite (ih <| .closeWindow h) h

theorem accumulate {c x i} (h : s.Canonical) : (s.accumulate c x i).Canonical :=
  .setAcc <| .ite (.setAcc h) <| .closeUntil h

theorem result {m ch x instant} (h : s.Canonical) : (s.result m ch x instant).Canonical := by
  unfold State.result
  extract_lets _ s₁ _ s₂
  have h₁ : s₁.Canonical := .when h fun h' => .event <| .bump h'
  have h₂ : s₂.Canonical := .windowKind h₁
  exact .ite h₁ <| by
      split
      · exact .accumulate <| .accumulate h₂
      · exact .accumulate h₂
      · exact .accumulate h₂

/-! Canonical memory: state memory, the arbiter and the scrubber (20_memory_arbiter_errors.md). -/

theorem flipBits {w bits} (h : s.Canonical) : (s.flipBits w bits).Canonical :=
  .foldl h fun _ _ h' => .ite (.setByte h') h'

theorem readWord {req w} (h : s.Canonical) : (s.readWord req w).2.Canonical := by
  unfold State.readWord
  split
  · exact h
  · exact .iteSnd (.when h .bump) <| .iteSnd (.errArrive <| .upd h) <| .iteSnd (.bump <| .errArrive <| .upd <|
      .flipBits h) <| .upd <| .setNum <| .free h

theorem touch {req a n} (h : s.Canonical) : (s.touch req a n).2.Canonical :=
  .iteSnd h <| .foldlSnd h fun _ _ h' => .readWord h'

theorem fetch {req a n} (h : s.Canonical) : (s.fetch req a n).2.2.Canonical := .touch h

theorem writeWord {req w a b} (h : s.Canonical) : (s.writeWord req w a b).Canonical :=
  .ite (.ite (.upd <| .set <| .upd h) <| .upd h) <| .readWord h

theorem store {req a bs} (h : s.Canonical) : (s.store req a bs).Canonical :=
  .ite h <| .setBytes <| .ite h <| .foldl h fun _ _ h' => .writeWord h'

theorem setValid {sl v} (h : s.Canonical) : (s.setValid sl v).Canonical := .set <| .set h

theorem slotWritten {a n sl} (h : s.Canonical) : (s.slotWritten a n sl).Canonical :=
  .ite h <| .when (.when h .upd) .setValid

theorem write {req a bs} (h : s.Canonical) : (s.write req a bs).Canonical :=
  .ite (.store h) <| .ite (.event <| .bump <| .errArrive h) <| .store <| .slotWritten <| .slotWritten h

theorem arbRefill (h : s.Canonical) : s.arbRefill.Canonical := .set <| .forUpTo h fun _ _ h' => .set h'

theorem arbDecide {cand} (h : s.Canonical) : (s.arbDecide cand).2.Canonical :=
  .iteSnd h <| .iteSnd (.set h) <| .set <| .ite (.bump <| .arbRefill h) h

theorem unlock (h : s.Canonical) : s.unlock.Canonical := .upd <| .set <| .set <| .set h

theorem lockBreak {cause} (h : s.Canonical) : (s.lockBreak cause).Canonical := by
  unfold State.lockBreak
  extract_lets _ _ s₁ s₂ s₃ s₄ s₅ s₆
  have h₁ : s₁.Canonical := .unlock h
  have h₂ : s₂.Canonical := .set <| .set <| .set h₁
  have h₃ : s₃.Canonical := .forUpTo h₂ fun _ _ h' => .set h'
  have h₄ : s₄.Canonical := by
    unfold s₄
    split
    · exact .bump h₃
    · exact .bump h₃
    · exact .bump h₃
  have h₅ : s₅.Canonical := .event h₄
  have h₆ : s₆.Canonical := .errArrive h₅
  split
  · exact .ite (.upd h₆) h₆
  · exact h₆

theorem lockLimit {q} (h : s.Canonical) : (s.lockLimit q).Canonical := .ite (.ite (.lockBreak h) <| .upd h) h
theorem lockOpen {q} (h : s.Canonical) : (s.lockOpen q).Canonical := .ite (.set <| .upd <| .set <| .set <| .set h) h
theorem supTrap {addr cause} (h : s.Canonical) : (s.supTrap addr cause).Canonical := .upd h

theorem cpuFault {code addr cause} (h : s.Canonical) : (s.cpuFault code addr cause).Canonical :=
  .ite (.set <| .supTrap h) <| .setReg <| .set <| .set <| .set <| .supTrap h

theorem supStore {a bs} (h : s.Canonical) : (s.supStore a bs).Canonical :=
  .ite (.upd <| .write h) <| .upd <| .cpuFault <| .free h

theorem arbAccess {q} (h : s.Canonical) : (s.arbAccess q).Canonical :=
  .ite (.when (.upd <| .fetch h) .cpuFault) <| .write <| .ite (.upd h) h

theorem arbCount {q} (h : s.Canonical) : (s.arbCount q).Canonical :=
  .monitorSel <| .set <| .set <| .count <| .ite (.arbRefill <| .set h) <| .set <| .set h

theorem arbGrant {waiting} (h : s.Canonical) : (s.arbGrant waiting).Canonical := by
  unfold State.arbGrant
  dsimp only
  split
  · exact .iteSnd h <| .arbDecide h
  · exact .arbCount <| .when (.arbAccess <| .lockOpen <| .lockLimit <| .forUpTo (.iteSnd h <|
      .arbDecide h) fun _ _ h' => .set h') .unlock

theorem scrub {upset} (h : s.Canonical) : (s.scrub upset).Canonical :=
  .ite (.upd <| .count <| .ite (.ite h <| .upd h) <| .readWord <| .ite h <| .upd h) <| .upd <| .ite (.ite h <|
    .upd h) <| .readWord <| .ite h <| .upd h

theorem errPop (h : s.Canonical) : s.errPop.Canonical := .upd h
theorem errNext (h : s.Canonical) : s.errNext.Canonical := .ite h <| .errSignal <| .upd h
theorem errAck {c} (h : s.Canonical) : (s.errAck c).Canonical := .ite (.errNext <| .upd h) <| .accessErr h
theorem errSwlog {cls code} (h : s.Canonical) : (s.errSwlog cls code).Canonical := .ite (.accessErr h) <| .errArrive h
theorem slockOpen (h : s.Canonical) : s.slockOpen.Canonical := .upd h
theorem slockClose (h : s.Canonical) : s.slockClose.Canonical := .ite (.unlock <| .upd h) <| .upd h

/-! Canonical memory: repetitive control, ramps and injectors (14_compensation_supervision.md). -/

theorem setSig {n w} (h : s.Canonical) : (s.setSig n w).Canonical := .store h
theorem clearRange {a n} (h : s.Canonical) : (s.clearRange a n).Canonical := .kept h
theorem rcuValue {u} (h : s.Canonical) : (s.rcuValue u).2.2.Canonical := .iteSnd2 h <| .setReg <| .touch <| .touch h

theorem rcuLearn {u e} (h : s.Canonical) : (s.rcuLearn u e).Canonical :=
  .forUpTo (.set h) fun _ _ h1 => .store <| .when h1 fun h2 => .event <| .bump h2

theorem rcuTeach {u e clamped} (h : s.Canonical) : (s.rcuTeach u e clamped).Canonical :=
  .ite h <| .ite (.bump h) <| .upd <| .when (.when (.set h) fun h' => .event <| .bump h') .rcuLearn

theorem rcuClear {u} (h : s.Canonical) : (s.rcuClear u).Canonical := .upd <| .set <| .clearRange h
theorem angPoint {t m} (h : s.Canonical) : (s.angPoint t m).2.Canonical := .iteSnd h <| .bump h

theorem angCompute {t} (h : s.Canonical) : (s.angCompute t).2.2.Canonical := .iteSnd2 h <| by
      extract_lets
      split
      · split
        next _ s₁ heq =>
        have h₁ : s₁.Canonical := .ofSnd heq <| .touch h
        split
        next _ s₂ heq =>
        have h₂ : s₂.Canonical := .ofSnd heq <| .touch h₁
        split
        next _ s₃ heq =>
        have h₃ : s₃.Canonical := .ofSnd heq <| .angPoint h₂
        split
        next _ s₄ heq =>
        have h₄ : s₄.Canonical := .ofSnd heq <| .angPoint h₃
        split
        · extract_lets
          exact .setReg h₄
        · exact .setReg <| .bump h₄

theorem angValue {t} (h : s.Canonical) : (s.angValue t).2.2.Canonical := by
  unfold State.angValue
  split
  · exact h
  · exact .upd <| .angCompute h

theorem ramps (h : s.Canonical) : s.ramps.Canonical :=
  .ite h <| .upd <| .forUpTo h fun _ _ h1 => .ite (.set <| .upd h1) <| .set <| .store <| .upd <|
    .when h1 fun h2 => .event <| .bump h2

theorem setFe {c f} (h : s.Canonical) : (s.setFe c f).Canonical := .upd h

theorem feTrip {c f} (h : s.Canonical) : (s.feTrip c f).Canonical :=
  .when (.when (.when (.setFe h) .event) .errArrive) .blockRequest

theorem feEval {c d} (h : s.Canonical) : (s.feEval c d).Canonical :=
  .ite h <| .ite (.ite (.event <| .setFe <| .setFe h) <| .setFe h) <| .ite (.feTrip <| .setFe h) <| .setFe h

theorem setInj {i x} (h : s.Canonical) : (s.setInj i x).Canonical := .upd h
theorem injStop {i} (h : s.Canonical) : (s.injStop i).Canonical := .event <| .set <| .setInj h

theorem frAbort (h : s.Canonical) : s.frAbort.Canonical := by
  unfold State.frAbort
  split
  · exact h
  · exact .set <| .upd h

theorem injStep {i} (h : s.Canonical) : (s.injStep i).Canonical :=
  .ite (.upd h) <| .ite (.upd <| .injStop <| .when h .frAbort) <| .ite (.upd h) <| .ite (.upd <| .injStop h) <|
    .upd <| .bump <| .setInj h

theorem injectors (h : s.Canonical) : s.injectors.Canonical := .forUpTo h fun _ _ h' => .when (.injStep h') .setSig
theorem injGo {i} (h : s.Canonical) : (s.injGo i).Canonical := .ite (.accessErr h) <| .set <| .set <| .setInj h
theorem injStopCmd {i} (h : s.Canonical) : (s.injStopCmd i).Canonical := .ite (.setInj h) h

theorem frStop (h : s.Canonical) : s.frStop.Canonical := by
  unfold State.frStop
  split
  · exact .injStop <| .frAbort h
  · exact h

theorem frStart {i p} (h : s.Canonical) : (s.frStart i p).Canonical :=
  .upd <| .set <| .set <| .set <| .setInj <| .rounded h

theorem frGo (h : s.Canonical) : s.frGo.Canonical := .ite (.accessErr h) <| .frStart <| .set <| .upd h

theorem frStep (h : s.Canonical) : s.frStep.Canonical := by
  unfold State.frStep
  split
  · exact h
  · exact .ite (.upd h) <| .ite (.frStart <| .upd h) <| .event <| .injStop <| .set <| .set <| .upd <| .upd h

/-! Canonical memory: the control engine (13_control_engine.md). -/

theorem putSec {sl q} (h : s.Canonical) : (s.putSec sl q).Canonical := .store h
theorem zeroSec {sl i} (h : s.Canonical) : (s.zeroSec sl i).Canonical := .store h
theorem zeroChain {sl e} (h : s.Canonical) : (s.zeroChain sl e).Canonical := .forUpTo h fun _ _ h' => .zeroSec h'

theorem schEval {k} (h : s.Canonical) : (s.schEval k).Canonical :=
  .ite h <| .ite (.event <| .set h) <| .ite (.bump <| .set h) <| .ite (.upd <| .set h) <| .event <| .count <| .set <|
    .upd <| .set h

theorem schedulers (h : s.Canonical) : s.schedulers.Canonical := .ite (.forUpTo h fun _ _ h' => .schEval h') h
theorem readSig {a} (h : s.Canonical) : (s.readSig a).2.2.Canonical := .touch h

theorem linkValues {e point} (h : s.Canonical) : (s.linkValues e point).2.2.Canonical := by
  unfold State.linkValues
  extract_lets take
  have htake : ∀ acc b rcu, acc.2.2.Canonical → (take acc b rcu).2.2.Canonical := by
    intro acc b rcu h
    unfold take
    exact .iteSnd2 (.iteSnd2 (.rcuValue h) (.angValue h)) h
  exact .iteSnd2 h <| .foldlSnd2 (.foldlSnd2 h fun _ i h => htake _ (nth e.links i 0) false h) fun _ i h =>
    htake _ (nth e.links i 0) true h

theorem teachLinks {e err clamped} (h : s.Canonical) : (s.teachLinks e err clamped).Canonical :=
  .ite h <| .foldl h fun _ _ h' => .ite (.rcuTeach h') h'

theorem chainPoison (h : s.Canonical) : s.chainPoison.Canonical := .set <| .event <| .bump h

theorem chainStat {c e bank clamped} (h : s.Canonical) : (s.chainStat c e bank clamped).Canonical :=
  .when (.set <| .set <| .set h) .bump

theorem chainOut {ctx e y} (h : s.Canonical) : (s.chainOut ctx e y).Canonical := .store <| .when h .bump

theorem chainBody {ctx c e d secs bank pt0 pt1} (h : s.Canonical) :
    (s.chainBody ctx c e d secs bank pt0 pt1).2.Canonical := by
  unfold State.chainBody
  extract_lets s₁
  have h₁ : s₁.Canonical := .when h .feEval
  exact .iteSnd (by
        extract_lets _ _ _ _ s₂ s₃
        have h₂ : s₂.Canonical := .foldl (.chainStat <| .upd <| .teachLinks h₁) fun _ _ h' => .putSec h'
        have h₃ : s₃.Canonical := .when h₂ fun h' => by
          extract_lets s₄
          have h₄ : s₄.Canonical := .count <| .bump h'
          split
          · extract_lets s₅
            have h₅ : s₅.Canonical := .when h₄ .event
            exact .upd h₅
          · exact h₄
        exact .iteSnd (.chainOut h₃) h₃) <| by
      extract_lets _ s₂
      have h₂ : s₂.Canonical := .event <| .bump <| .chainStat <| .upd <| .teachLinks h₁
      exact .foldl h₂ fun _ _ h' => .zeroSec h'

theorem chainRun {ctx c} (h : s.Canonical) : (s.chainRun ctx c).2.Canonical := by
  unfold State.chainRun
  extract_lets _ _ s₁
  have h₁ : s₁.Canonical := .set h
  refine .iteSnd h₁ ?_
  split
  next p0 s₂ heq =>
  have h₂ : s₂.Canonical := .ofSnd heq <| .touch h₁
  split
  next a pa s₃ heq =>
  have h₃ : s₃.Canonical := .ofSnd2 heq <| .readSig h₂
  split
  next b pb s₄ heq =>
  have h₄ : s₄.Canonical := .ofSnd2 heq <| .iteSnd2 h₃ <| .readSig h₃
  refine .iteSnd (.chainPoison h₄) <| .iteSnd (.event <| .bump h₄) ?_
  extract_lets
  split
  next ps s₅ heq =>
  have h₅ : s₅.Canonical := .ofSnd heq <| .foldlSnd h₄ fun _ _ h => .touch <| .touch h
  split
  next pt0 l0 s₆ heq =>
  have h₆ : s₆.Canonical := .ofSnd2 heq <| .linkValues h₅
  split
  next pt1 l1 s₇ heq =>
  have h₇ : s₇.Canonical := .ofSnd2 heq <| .linkValues h₆
  exact .iteSnd (.chainPoison h₇) <| .chainBody <| .when h₇ .event

theorem programRun {ctx} (h : s.Canonical) : (s.programRun ctx).2.Canonical := .foldlSnd h fun _ _ h' => .chainRun h'
theorem hoState {n} (h : s.Canonical) : (s.hoState n).Canonical := .set <| .set h

theorem hoEnd {x0 last take} (h : s.Canonical) : (s.hoEnd x0 last take).Canonical :=
  .upd <| .event <| .set <| .hoState <| .when h fun h' => .count <| .set h'

theorem copyBlend {n} (h : s.Canonical) : (s.copyBlend n).Canonical := .setSig h

theorem blendStep {x0 outW inW} (h : s.Canonical) : (s.blendStep x0 outW inW).Canonical :=
  .foldl h fun _ _ h' => .ite (.setSig h') <| .copyBlend h'

theorem hoRun {x0} (h : s.Canonical) : (s.hoRun x0).Canonical := by
  unfold State.hoRun
  extract_lets
  split
  next _ s₁ heq =>
  have h₁ : s₁.Canonical := .ofSnd heq <| by
    split
    · exact .programRun h
    · exact h
  extract_lets _ s₂ s₃ _ s₄
  have h₂ : s₂.Canonical := .foldl h₁ fun _ _ h' => .store h'
  have h₃ : s₃.Canonical := .hoState h₂
  have h₄ : s₄.Canonical := .ite (.upd h₃) h₁
  split
  next _ s₅ heq =>
  have h₅ : s₅.Canonical := .ofSnd heq <| .programRun h₄
  extract_lets _ s₆ s₇
  have h₆ : s₆.Canonical := .blendStep h₅
  have h₇ : s₇.Canonical := .set h₆
  exact .ite (.hoEnd <| .foldl h₅ fun _ _ h' => .copyBlend h') <| .ite (.hoEnd h₇) <| .upd h₇

theorem runAlone (h : s.Canonical) : s.runAlone.Canonical := by
  unfold State.runAlone
  split
  · exact .programRun h
  · exact h

theorem programs {k} (h : s.Canonical) : (s.programs k).Canonical := by
  unfold State.programs
  split
  · exact .ite (.runAlone <| .hoEnd h) <| .ite (.hoRun h) <| .runAlone h
  · exact .runAlone h

theorem hoGo {kh} (h : s.Canonical) : (s.hoGo kh).Canonical :=
  .ite (.accessErr h) <| .event <| .set <| .set <| .hoState <| .upd h

theorem hoAbort (h : s.Canonical) : s.hoAbort.Canonical := by
  unfold State.hoAbort
  split
  · exact h
  · exact .ite (.upd h) <| .hoEnd h

theorem engStop (h : s.Canonical) : s.engStop.Canonical := by
  unfold State.engStop
  split
  · exact h
  · exact .hoEnd h

theorem pgmLoad {sl} (h : s.Canonical) : (s.pgmLoad sl).Canonical := .ite (.accessErr h) <| .upd <| .set h

theorem loadDone {sl} (h : s.Canonical) : (s.loadDone sl).Canonical :=
  .ite (.event <| .set <| .setValid <| .set h) <| .event <| .setValid <| .set <| .set <| .upd <|
    .foldl (.set h) fun _ _ h' => .zeroChain h'

theorem sigQueue {v} (h : s.Canonical) : (s.sigQueue v).Canonical := .ite (.upd h) <| .event <| .bump h
theorem sigFlush (h : s.Canonical) : s.sigFlush.Canonical := .foldl (.upd h) fun _ _ h' => .setSig h'
theorem chainQueue {hi} (h : s.Canonical) : (s.chainQueue hi).Canonical := .ite (.upd h) <| .event <| .bump h
theorem chainApply {e} (h : s.Canonical) : (s.chainApply e).Canonical := .ite (.event <| .bump h) <| .store h

theorem chainCommit (h : s.Canonical) : s.chainCommit.Canonical :=
  .foldl (.upd <| .forUpTo h fun _ _ h1 => .ite (.upd <|
    .foldl h1 fun _ _ h2 => .ite (.zeroChain h2) h2) h1) fun _ _ h1 => .chainApply h1

theorem chainRead (h : s.Canonical) : s.chainRead.Canonical :=
  .ite (.accessErr <| .setReg <| .setReg h) <| .setReg <| .setReg h

theorem engLatency {lat} (h : s.Canonical) : (s.engLatency lat).Canonical := .monitorSel <| .set <| .set h

theorem hubExecution {lat} (h : s.Canonical) : (s.hubExecution lat).Canonical :=
  .engLatency <| .when (.programs <| .injectors <| .schedulers <| .upd <| .set h) .frStep

theorem cellInputs {peak} (h : s.Canonical) : (s.cellInputs peak).Canonical := .foldl h fun _ _ h' => .setSig h'

theorem cellExecution {peak lat} (h : s.Canonical) : (s.cellExecution peak lat).Canonical :=
  .engLatency <| .runAlone <| .schedulers <| .set <| .sigFlush <| .cellInputs h

/-! Canonical memory: the capacitor observer and ranking (12_rank_observer.md). -/

theorem setObs {i o} (h : s.Canonical) : (s.setObs i o).Canonical := .upd h
theorem obsAdmit {i} (h : s.Canonical) : (s.obsAdmit i).Canonical := .setObs h
theorem obsRelease {i} (h : s.Canonical) : (s.obsRelease i).Canonical := .upd h
theorem rankJob {j} (h : s.Canonical) : (s.rankJob j).Canonical := .ite (.upd h) <| .accessErr h
theorem rankWr (h : s.Canonical) : s.rankWr.Canonical := .rankJob h
theorem rankSetc (h : s.Canonical) : s.rankSetc.Canonical := .ite (.rankJob h) <| .accessErr h
theorem rankSetv (h : s.Canonical) : s.rankSetv.Canonical := .ite (.rankJob h) <| .accessErr h
theorem rankRd (h : s.Canonical) : s.rankRd.Canonical := .forUpTo h fun _ _ h' => .setReg h'

theorem rankApply {a} (h : s.Canonical) : (s.rankApply a).Canonical := by
  unfold State.rankApply
  split
  · exact .setObs h
  · exact .setObs h
  · exact .setObs h

theorem outliers {a l i} (h : s.Canonical) : (s.outliers a l i).Canonical :=
  .upd <| .foldl h fun _ _ h' => .ite (.event <| .setObs h') h'

theorem fuseArm {a t} (h : s.Canonical) : (s.fuseArm a t).Canonical :=
  .set <| .set <| .setReg <| .ite (.upd <| .outliers h) <| .upd <| .when (.bump h) .event

theorem externalCheck {a} (h : s.Canonical) : (s.externalCheck a).Canonical := .ite h <| by
      dsimp only
      split
      · exact h
      · exact .ite h <| .ite (.ite (.when (.when (.bump <| .upd <| .setReg h) .event) .blockRequest) <| .upd <|
          .setReg h) <| .upd <| .setReg h

theorem fuse {t} (h : s.Canonical) : (s.fuse t).Canonical :=
  .ite (.forUpTo (.forUpTo h fun _ _ h1 => .fuseArm h1) fun _ _ h1 => .externalCheck h1) h

theorem observerReport {i r} (h : s.Canonical) : (s.observerReport i r).Canonical :=
  .ite (.setBerth h) <| .upd <| .setBerth h

theorem rankSignals {x a} (h : s.Canonical) : (s.rankSignals x a).Canonical :=
  .ite (.setSig <| .setSig <| .setSig <| .setSig h) h

theorem currentOf {x a} (h : s.Canonical) : (s.currentOf x a).2.Canonical :=
  .iteSnd h <| .iteSnd (.upd h) <| .iteSnd (.free h) <| .upd h

theorem advance {j ics i} (h : s.Canonical) : (s.advance j ics i).Canonical := .ite h <| .ite (.setObs h) <| .setObs h

theorem learn {i o c v hold t} (h : s.Canonical) : (s.learn i o c v hold t).Canonical := by
  unfold State.learn
  split
  · exact h
  · exact .ite h <| .ite h <| .ite (.setObs <| .when h .event) <| .setObs h

theorem applyReport {t i r} (h : s.Canonical) : (s.applyReport t i r).Canonical :=
  .ite h <| .ite (.event <| .setObs h) <| .monitor <| .setObs <| .ite h <| .learn h

theorem applyReports {t} (h : s.Canonical) : (s.applyReports t).Canonical :=
  .ite (.foldl (.foldl h fun _ _ h1 => .setBerth h1) fun _ _ h1 => .applyReport h1) <|
    .foldl h fun _ _ h1 => .setBerth h1

theorem rangeCheck {i} (h : s.Canonical) : (s.rangeCheck i).Canonical := .ite h <| .setObs <| .when h .event

theorem redundancy {a} (h : s.Canonical) : (s.redundancy a).Canonical :=
  .upd <| .ite (.when (.event <| .when (.set h) .event) .blockRequest) <| .when (.set h) .event

theorem armCounts {a} (h : s.Canonical) : (s.armCounts a).Canonical :=
  .redundancy <| .ite (.set <| .set <| .set h) <| .setReg <| .set <| .set <| .set h

theorem availability (h : s.Canonical) : s.availability.Canonical :=
  .forUpTo (.foldl h fun _ _ h1 => .setObs h1) fun _ _ h1 => .armCounts h1

theorem dueTargets {k} (h : s.Canonical) : (s.dueTargets k).Canonical :=
  .upd <| .foldl (.foldl h fun _ _ h1 => .ite (.setObs h1) h1) fun _ _ h1 => .ite (.ite (.setBerth <| .setObs h1) <|
    .setObs h1) h1

theorem stageB {x} (h : s.Canonical) : (s.stageB x).Canonical :=
  .monitor <| .upd <| .availability <| .foldl (.applyReports <| .dueTargets <| .forUpTo (.currentOf <| .currentOf <|
    .foldl
      (.upd h) fun _ _ h1 => .rankApply h1) fun _ _ h1 => .foldl h1 fun _ _ h2 => .advance h2) fun _ _ h1 => .rangeCheck h1

theorem unobservedRounds {p} (h : s.Canonical) : (s.unobservedRounds p).Canonical :=
  .foldl h fun _ _ h' => .ite (.setObs h') <| .setObs <| .when h' .event

theorem direction {x a} (h : s.Canonical) : (s.direction x a).Canonical := .ite h <| .ite (.set h) <| .ite (.set h) h

theorem stageD {x} (h : s.Canonical) : (s.stageD x).Canonical :=
  .upd <| .when (.when (.set <| .set <| .free <| .forUpTo h fun _ _ h' => .direction h') .bump) .bump

/-! Canonical memory: the modulation step of a hub (11_modulation_edges.md). -/

theorem showProfile (h : s.Canonical) : s.showProfile.Canonical :=
  .forUpTo (.set <| .set <| .set <| .set h) fun _ _ h' => .set <| .set h'

theorem profileReject {why} (h : s.Canonical) : (s.profileReject why).Canonical :=
  .when (.event <| .bump <| .set h) .event

theorem leadCheck (h : s.Canonical) : s.leadCheck.Canonical := .when (.set <| .set <| .set h) .event
theorem portEnabled {p} (h : s.Canonical) : (s.portEnabled p).Canonical := .ite h <| .setPort <| .event <| .set h
theorem portStarts (h : s.Canonical) : s.portStarts.Canonical := .forUpTo h fun _ _ h' => .ite (.setPort <| .set h') h'

theorem leadChanged {a rep} (h : s.Canonical) : (s.leadChanged a rep).Canonical :=
  .showProfile <| .forUpTo h fun _ _ h' => .setPort h'

theorem modeGo {kh} (h : s.Canonical) : (s.modeGo kh).Canonical :=
  .ite (.accessErr h) <| .ite (.set <| .set <| .set <| .upd h) <| .set <| .set <| .upd h

theorem modeMeridian {k} (h : s.Canonical) : (s.modeMeridian k).Canonical := by
  unfold State.modeMeridian
  split
  · exact .ite (.upd <| .event <| .set <| .set h) h
  · exact h

theorem pcmdGo (h : s.Canonical) : s.pcmdGo.Canonical := .ite (.accessErr h) <| .upd <| .set h

theorem levelStep {a m nold free} (h : s.Canonical) : (s.levelStep a m nold free).2.Canonical :=
  .iteSnd (.set h) <| .when (.when (.setReg <| .set h) fun h' => .event <| .bump h') .bump

theorem levelBerths {a up anyRoom n e} (h : s.Canonical) : (s.levelBerths a up anyRoom n e).2.Canonical := by
  induction n generalizing s e with
  | zero => exact h
  | succ n ih =>
    unfold State.levelBerths
    dsimp only
    split
    · exact ih <| .when (.bump h) .bump
    · exact ih <| .when (.bump h) .bump

theorem placeLevel {a dn realign e} (h : s.Canonical) : (s.placeLevel a dn realign e).2.2.2.Canonical :=
  .when (.levelBerths h) .bump

theorem placeSwaps {a base e} (h : s.Canonical) : (s.placeSwaps a base e).2.Canonical := .iteSnd h <| .count h
theorem showTrim (h : s.Canonical) : s.showTrim.Canonical := .forUpTo h fun _ _ h' => .set <| .set <| .set h'

theorem chooseTrim {a e} (h : s.Canonical) : (s.chooseTrim a e).Canonical :=
  .ite h <| .showTrim <| .when (.upd h) .event

theorem placeTrim {a e} (h : s.Canonical) : (s.placeTrim a e).2.Canonical := by
  unfold State.placeTrim
  dsimp only
  split
  · exact .chooseTrim h
  · exact .iteSnd (.upd <| .chooseTrim h) <| .upd <| .chooseTrim h

theorem adoptPlan (h : s.Canonical) : s.adoptPlan.Canonical := by
  unfold State.adoptPlan
  split
  · exact h
  · exact .showTrim <| .upd <| .foldl h fun _ _ h' => .ite h' <| .setObs h'

theorem showLevel {a n} (h : s.Canonical) : (s.showLevel a n).Canonical := .when (.set <| .upd h) .setSig

theorem placeLevels {m realign e} (h : s.Canonical) : (s.placeLevels m realign e).2.Canonical :=
  .iteSnd (.forUpToSnd2 h fun _ _ h1 => .showLevel <| .placeLevel <| .levelStep h1) <|
    .forUpToSnd (.forUpToSnd2 h fun _ _ h1 => .showLevel <| .placeLevel <| .levelStep h1) fun _ _ h1 => .placeSwaps h1

theorem placeTrims {e} (h : s.Canonical) : (s.placeTrims e).2.Canonical := .forUpToSnd h fun _ _ h' => .placeTrim h'

theorem stageE {x} (h : s.Canonical) : (s.stageE x).Canonical := by
  unfold State.stageE
  extract_lets s₁ _ _ _ _ _ s₂ _ _ _ s₃
  have h₁ : s₁.Canonical := .adoptPlan h
  have h₂ : s₂.Canonical := .ite h₁ <| .showTrim <| .upd h₁
  have h₃ : s₃.Canonical := .upd h₂
  exact .upd <| .iteSnd h₃ <| .iteSnd (.showLevel <| .showLevel h₃) <| .placeLevels <| .iteSnd (.placeTrims h₃) h₃

theorem stageDone {i ns} (h : s.Canonical) : (s.stageDone i ns).Canonical := .monitorSel <| .upd h

theorem angleSignals {x} (h : s.Canonical) : (s.angleSignals x).Canonical :=
  .ite (.setSig <| .ite (.setSig h) h) <| .ite (.setSig h) h

theorem startWork (h : s.Canonical) : s.startWork.Canonical := by
  unfold State.startWork
  split
  · exact .stageDone <| .free <| .when (.ramps <| .when (.when (.upd h) fun h' => .rankSignals <|
      .rankSignals h') .angleSignals) .sigFlush
  · exact h

theorem latchSnap {x} (h : s.Canonical) : (s.latchSnap x).Canonical := .upd <| .when h fun h' => .event <| .bump h'
theorem restorePlan (h : s.Canonical) : s.restorePlan.Canonical := .showTrim <| .upd h

theorem deadlineMiss (h : s.Canonical) : s.deadlineMiss.Canonical := by
  unfold State.deadlineMiss
  extract_lets s₁ _ s₂ s₃ _ s₄
  have h₁ : s₁.Canonical := .restorePlan h
  have h₂ : s₂.Canonical := .upd h₁
  have h₃ : s₃.Canonical := .event <| .bump <| .bump h₂
  have h₄ : s₄.Canonical := .when h₃ fun h' => .health <| .event h'
  exact .ite (.when h₄ .blockRequest) h₃

theorem readyTest (h : s.Canonical) : s.readyTest.Canonical := .ite h <| .ite (.set h) <| .deadlineMiss h

end Sys2Proof.Machine.State.Canonical
end

section
/-! PROOFS. Memory in its canonical form through the tree, the scheduler, twins and the referee:
one rule per function of the model, in the order of the model. -/

namespace Sys2Proof.Machine.State.Canonical

variable {s : State}

/-! Canonical memory: the tree ports downstream (09_tree_frames.md). -/

theorem drawGroup {p} (h : s.Canonical) : (s.drawGroup p).Canonical := .ite h <| .setPort <| .free h

theorem imageSent {p} (h : s.Canonical) : (s.imageSent p).Canonical :=
  .ite (.setPort h) <| .ite (.setPort h) <| .event <| .bump <| .setPort h

theorem grantTo {p n slots berths} (h : s.Canonical) : (s.grantTo p n slots berths).Canonical := by
  fun_induction State.grantTo s p n slots berths with
  | case1 => exact h
  | case2 => exact h
  | case3 s m ms b bs _ ih => exact ih h
  | case4 s m ms b bs _ ih => exact ih (.setPort h)

theorem grantsFor {p n} (h : s.Canonical) : (s.grantsFor p n).Canonical := .ite h <| .grantTo <| .setPort h
theorem ownWatch (h : s.Canonical) : s.ownWatch.Canonical := .ite (.set <| .set h) h

theorem stageF {x ns} (h : s.Canonical) : (s.stageF x ns).Canonical :=
  .upd <| .ite (.forUpTo (.set <| .set h) fun _ _ h' => .ite (.set <| .setPort <| .grantsFor <| .ownWatch <|
    .drawGroup h') h') <| .restorePlan <| .set <| .set h

theorem answer {p src code index data} (h : s.Canonical) : (s.answer p src code index data).Canonical := by
  unfold State.answer
  split
  · exact h
  · exact h
  · exact .forUpTo (.set <| .set <| .set <| .setPort h) fun _ _ h' => .setReg h'
  · split
    · exact .upd h
    · exact h

theorem recordsSent {p n l} (h : s.Canonical) : (s.recordsSent p n l).Canonical :=
  .foldl (.setPort h) fun _ _ h' => .ite (.answer h') h'

theorem carriedOut {p n c} (h : s.Canonical) : (s.carriedOut p n c).Canonical :=
  .refill <| .when (.setPort <| .recordsSent h) .imageSent

theorem launchPort {k p} (h : s.Canonical) : (s.launchPort k p).Canonical := .ite (.setPort h) <| by
      split
      · exact .setPort h
      · exact .monitorSel <| .free <| .setPort <| .setPort <| .ltAdd <| .carriedOut <| .set <| .when (.set <|
          .count <| .drawGroup h) fun h' => .event <| .bump h'

theorem recordLaunch {inTime} (h : s.Canonical) : (s.recordLaunch inTime).Canonical := .ite (by
        split
        · dsimp only
          split
          · exact .upd <| .set <| .foldl (.upd h) fun _ _ h' => .setObs h'
          · exact .foldl (.upd h) fun _ _ h' => .setObs h'
        · exact h) <| by
      split
      · exact .upd h
      · exact h

theorem launchAll {k} (h : s.Canonical) : (s.launchAll k).Canonical :=
  .upd <| .recordLaunch <| .forUpTo (.when (.portStarts h) .deadlineMiss) fun _ _ h' => .launchPort h'

/-! Canonical memory: the hardware scheduler (19_scheduler.md). -/

theorem setQueue {q l} (h : s.Canonical) : (s.setQueue q l).Canonical := .upd h
theorem setList {d l} (h : s.Canonical) : (s.setList d l).Canonical := .upd h
theorem freeSlot {slot} (h : s.Canonical) : (s.freeSlot slot).Canonical := .upd h

theorem newSlot (h : s.Canonical) : s.newSlot.2.Canonical := by
  unfold State.newSlot
  dsimp only
  split
  · exact .free h
  · exact .free h

theorem enqueue {it} (h : s.Canonical) : (s.enqueue it).Canonical := .when (.setQueue h) .event
theorem poolCheck {before} (h : s.Canonical) : (s.poolCheck before).Canonical := .when h .event
theorem listInsert {d it} (h : s.Canonical) : (s.listInsert d it).Canonical := .setList h
theorem subResult {path handle code} (h : s.Canonical) : (s.subResult path handle code).Canonical := .upd h
theorem subRefuse {path code} (h : s.Canonical) : (s.subRefuse path code).Canonical := .event <| .subResult h

theorem submit {path cmd} (h : s.Canonical) : (s.submit path cmd).Canonical :=
  .ite (.subRefuse h) <| .ite (.subRefuse h) <| .ite (.subRefuse h) <| .subResult <| .when (.poolCheck <|
    .ite (.listInsert <| .newSlot h) <| .enqueue <| .newSlot h) fun h' => .event <| .bump h'

theorem hwQueued {q flow arg} (h : s.Canonical) : (s.hwQueued q flow arg).2.Canonical :=
  .iteSnd h <| .poolCheck <| .enqueue <| .newSlot h

theorem arrive {q flow arg} (h : s.Canonical) : (s.arrive q flow arg).Canonical :=
  .ite h <| .ite (.upd h) <| .ite (.hwQueued h) <| .ite (.bump h) <| .upd h

theorem retryHeld (h : s.Canonical) : s.retryHeld.Canonical := .foldl h fun _ _ h' => .ite (.upd <| .hwQueued h') h'

theorem complete {it} (h : s.Canonical) : (s.complete it).Canonical := by
  unfold State.complete
  dsimp only
  split
  · exact .ite (.freeSlot <| .upd h) <| .listInsert <| .when (.upd h) fun h' => .event <| .bump h'
  · exact .freeSlot <| .upd h

theorem schgDone {x0} (h : s.Canonical) : (s.schgDone x0).Canonical := by
  unfold State.schgDone
  split
  · exact .complete h
  · exact .event <| .bump h

theorem hwDone {q p} (h : s.Canonical) : (s.hwDone q p).Canonical := by
  unfold State.hwDone
  split
  · exact .complete h
  · split
    · exact .freeSlot <| .setQueue h
    · exact .upd h

theorem canResult {path code} (h : s.Canonical) : (s.canResult path code).Canonical := .upd h
theorem dropItems {p} (h : s.Canonical) : (s.dropItems p).Canonical := .foldl (.upd h) fun _ _ h' => .freeSlot h'

theorem schgCancel {path x1} (h : s.Canonical) : (s.schgCancel path x1).Canonical := by
  unfold State.schgCancel
  split
  · exact .canResult h
  · exact .ite (.canResult <| .upd h) <| .canResult <| .dropItems h

theorem schqFlush {q} (h : s.Canonical) : (s.schqFlush q).Canonical := .event <| .dropItems h

theorem releaseDue {t fuel stuck} (h : s.Canonical) : (s.releaseDue t fuel stuck).Canonical := by
  induction fuel generalizing s stuck with
  | zero => exact h
  | succ k ih =>
    unfold State.releaseDue
    split
    · exact h
    · exact .ite (ih <| .bump h) <| ih <| .enqueue <| .setList h

theorem ticks (h : s.Canonical) : s.ticks.Canonical := .ite (.releaseDue h) h
theorem reload {c} (h : s.Canonical) : (s.reload c).Canonical := .forUpTo h fun _ _ h' => .ite (.set h') h'
theorem choose {w l} (h : s.Canonical) : (s.choose w l).2.Canonical := .iteSnd h <| .ite (.reload h) h

theorem remoteTake {it} (h : s.Canonical) : (s.remoteTake it).Canonical := by
  unfold State.remoteTake
  dsimp only
  split
  · exact .ite (.complete h) <| .when (.mgmtQueue h) .complete
  · exact .complete h

theorem dispatchFrom {w q} (h : s.Canonical) : (s.dispatchFrom w q).Canonical := by
  unfold State.dispatchFrom
  split
  · exact h
  · extract_lets s₁ s₂ s₃
    have h₁ : s₁.Canonical := .setQueue h
    have h₂ : s₂.Canonical := .set h₁
    have h₃ : s₃.Canonical := .count h₂
    split
    next _ s₄ heq =>
    have h₄ : s₄.Canonical := .ofSnd heq <| .free h₃
    extract_lets _ s₅ s₆ _ s₇ s₈
    have h₅ : s₅.Canonical := .set <| .set h₄
    have h₆ : s₆.Canonical := .monitor h₅
    have h₇ : s₇.Canonical := .upd h₆
    have h₈ : s₈.Canonical := .when h₇ .event
    split
    · exact .upd h₈
    · exact .remoteTake h₇
    · exact .ite h₇ <| .complete h₇

theorem dispatch {w fuel} (h : s.Canonical) : (s.dispatch w fuel).Canonical := by
  induction fuel generalizing s with
  | zero => exact h
  | succ k ih =>
    unfold State.dispatch
    split
    · exact h
    · split
      · next heq => exact ih <| .dispatchFrom <| .ofSnd heq <| .choose h
      · next heq => exact .ofSnd heq <| .choose h

theorem schedulerStep (h : s.Canonical) : s.schedulerStep.Canonical :=
  .forUpTo (.ticks <| .retryHeld h) fun _ _ h' => .dispatch h'

theorem itemStuck {slot} (h : s.Canonical) : (s.itemStuck slot).Canonical := by
  unfold State.itemStuck
  split
  · exact h
  · exact .errArrive <| .bump <| .event <| .upd <| .timerEnds h

theorem reportItems {i cyc evflags} (h : s.Canonical) : (s.reportItems i cyc evflags).Canonical :=
  .when (.arrive h) .arrive

/-! Canonical memory: the hub's side of admission (10_tree_admission.md). -/

theorem stranger {f} (h : s.Canonical) : (s.stranger f).Canonical := .event <| .bump h
theorem refused {p} (h : s.Canonical) : (s.refused p).Canonical := .event <| .bump h
theorem refuse {p id reason} (h : s.Canonical) : (s.refuse p id reason).Canonical := .refused <| .setPort h
theorem moveSlot {i r old} (h : s.Canonical) : (s.moveSlot i r old).Canonical := .setPort h
theorem toBerth {i rtype body} (h : s.Canonical) : (s.toBerth i rtype body).Canonical := .hubRecord h
theorem hubRead {i addr nw} (h : s.Canonical) : (s.hubRead i addr nw).Canonical := .toBerth h
theorem sendKey {i key ksw} (h : s.Canonical) : (s.sendKey i key ksw).Canonical := .toBerth h
theorem sendDelay {i} (h : s.Canonical) : (s.sendDelay i).Canonical := .leadCheck <| .toBerth h
theorem computeDelays {i} (h : s.Canonical) : (s.computeDelays i).Canonical := .setBerth h

theorem abandon {i} (h : s.Canonical) : (s.abandon i).Canonical := by
  unfold State.abandon
  dsimp only
  split
  · exact h
  · exact .setBerth <| .refill <| .setPort h

theorem admissionFailed {i} (h : s.Canonical) : (s.admissionFailed i).Canonical := .bump <| .abandon h

theorem sendOffer {i} (h : s.Canonical) : (s.sendOffer i).Canonical := by
  unfold State.sendOffer
  -- a variable for the search of a round, which the kernel would otherwise run on its fuel
  obtain ⟨search, hsearch⟩ : ∃ f, f = s.offerRound := ⟨_, rfl⟩
  rw [← hsearch]
  extract_lets p b
  clear_value p b
  split
  · exact h
  · split
    · exact h
    · exact .setPort <| .setBerth h

theorem refuseNew {p id} (h : s.Canonical) : (s.refuseNew p id).Canonical := .refuse <| .when h .bump

theorem beginAdmission {i id enrol rom rttc imgver img new upl} (h : s.Canonical) :
    (s.beginAdmission i id enrol rom rttc imgver img new upl).Canonical :=
  .ite (.refuse h) <| .ite (.refuseNew h) <| .ite (.refuse h) <| .ite h <| .sendOffer <| .setBerth h

theorem boardingRx {p pl arrival} (h : s.Canonical) : (s.boardingRx p pl arrival).Canonical := .ite (.stranger h) <| by
      split
      · exact .ite (by
              split
              · exact .ite h <| .setPort h
              · exact h) <| .ite (.beginAdmission h) <| .stranger h
      · exact .ite (by
              split
              · exact .beginAdmission h
              · exact .ite (.refuseNew h) <| .refuse h) <| .stranger h

theorem rangingRx {p berth pl arrival phase align} (h : s.Canonical) :
    (s.rangingRx p berth pl arrival phase align).Canonical := by
  unfold State.rangingRx
  dsimp only
  split
  · exact h
  · exact .ite h <| .sendDelay <| .computeDelays <| .setPort <| .setBerth h

theorem rangingTimeout {i} (h : s.Canonical) : (s.rangingTimeout i).Canonical := by
  unfold State.rangingTimeout
  extract_lets
  split
  · exact h
  · exact .ite h <| .ite (.admissionFailed h) <| .sendOffer <| .setBerth h

theorem sendKxh {i} (h : s.Canonical) : (s.sendKxh i).2.Canonical := by
  unfold State.sendKxh
  exact .toBerth <| .kxOwn <| .drawScalar h

theorem delayAnswered {i} (h : s.Canonical) : (s.delayAnswered i).Canonical := by
  unfold State.delayAnswered
  split
  · exact .ite (.setBerth <| .sendKxh h) h
  · exact h

theorem closeRecord {p r} (h : s.Canonical) : (s.closeRecord p r).Canonical := .setPort h

theorem kxhChunk {p r j data} (h : s.Canonical) : (s.kxhChunk p r j data).Canonical := by
  unfold State.kxhChunk
  extract_lets
  split
  · extract_lets _ s₁ s₂ s₃
    have h₁ : s₁.Canonical := .setBerth h
    have h₂ : s₂.Canonical := .closeRecord h₁
    have h₃ : s₃.Canonical := .drawGroup h₂
    split
    · exact h₁
    · split
      · exact .admissionFailed h₂
      · exact .sendKey <| .setBerth h₃
  · extract_lets _ s₁ s₂
    have h₁ : s₁.Canonical := .setBerth h
    have h₂ : s₂.Canonical := .closeRecord h₁
    split
    · exact h₁
    · split
      · exact .setBerth h₂
      · extract_lets s₃
        have h₃ : s₃.Canonical := .setBerth h₂
        exact .event <| .sendKey h₃
  · exact h

theorem admitted {i} (h : s.Canonical) : (s.admitted i).Canonical := by
  unfold State.admitted
  dsimp only
  split
  · exact h
  · exact .admissionFailed h
  · exact .autoDeblock <| .hubRead <| .event <| .obsAdmit <| .moveSlot <| .setBerth h

theorem renewGroup {p} (h : s.Canonical) : (s.renewGroup p).Canonical :=
  .ite h <| .foldl (.setPort <| .free h) fun _ _ h' => .sendKey <| .setBerth h'

theorem renewRound {p n} (h : s.Canonical) : (s.renewRound p n).Canonical := by
  unfold State.renewRound
  split
  · exact h
  · exact .ite (.event <| .count <| .setPort h) <| .ite (.foldl h fun _ _ h' => .ite h' <| .sendKey h') h

theorem keyAcknowledged {i r} (h : s.Canonical) : (s.keyAcknowledged i r).Canonical := by
  unfold State.keyAcknowledged
  split
  · exact .ite (.setBerth h) h
  · exact h

theorem renewSession {i} (h : s.Canonical) : (s.renewSession i).Canonical := .ite (.setBerth <| .sendKxh h) h
theorem deblockAnswered {i code} (h : s.Canonical) : (s.deblockAnswered i code).Canonical := .when (.upd h) .bump

theorem remoteAnswer {p r} (h : s.Canonical) : (s.remoteAnswer p r).Canonical := by
  unfold State.remoteAnswer
  extract_lets
  split
  · exact h
  · exact .deblockAnswered h
  · exact .arrive <| .answer h
  · exact .hwDone <| .answer h

theorem killBerth {i} (h : s.Canonical) : (s.killBerth i).Canonical := .setPort h

theorem dropRecords {i} (h : s.Canonical) : (s.dropRecords i).Canonical :=
  .foldl (.refill <| .setPort h) fun _ _ h' => .remoteAnswer <| .bump h'

theorem release {i} (h : s.Canonical) : (s.release i).Canonical :=
  .obsRelease <| .setBerth <| .dropRecords <| .killBerth <| .abandon h

theorem endLink {i} (h : s.Canonical) : (s.endLink i).Canonical := .setBerth <| .dropRecords <| .refused <| .setPort h

theorem recheckImage {i} (h : s.Canonical) : (s.recheckImage i).Canonical :=
  .ite (.endLink h) <| .autoDeblock <| .setBerth h

theorem bootEnded {i} (h : s.Canonical) : (s.bootEnded i).Canonical := .ite h <| .hubRead <| .hubRead <| .setBerth h

theorem hubWords {i addr data learn} (h : s.Canonical)
    (hl : ∀ t x, t.Canonical → (learn t x : State).Canonical) : (s.hubWords i addr data learn).Canonical := by
  have hs : (if addr = R.BOOT_ID_LO then
        s.setBerth i { s.berth i with
          imgid := idOfWords (BitVec.ofNat 32 (ofBe ((data.drop (4 * 0)).take 4)))
            (BitVec.ofNat 32 (ofBe ((data.drop (4 * 1)).take 4)))
          recheck := (s.berth i).recheck - 2 }
      else if addr = R.BOOT_RUN then
        s.setBerth i { s.berth i with
          linkver := ofBe ((data.drop (4 * 0)).take 4) / 65536, recheck := (s.berth i).recheck - 1 }
      else s).Canonical := .ite (.setBerth h) <| .ite (.setBerth h) h
  exact .ite (hl _ _ h) <| .ite (.recheckImage hs) hs

theorem recordAnswered {p r code index data learn} (h : s.Canonical)
    (hl : ∀ t x, t.Canonical → (learn t x : State).Canonical) : (s.recordAnswered p r code index data learn).Canonical :=
      by
  refine .ite (.ite (.kxhChunk h) h) ?_
  have hs : (s.closeRecord p r).Canonical := .closeRecord h
  dsimp only
  split
  · exact .deblockAnswered hs
  · exact .ite (.ite (.ite (.admitted hs) (.admissionFailed hs)) (.ite (.keyAcknowledged hs) hs)) <|
      .ite (.delayAnswered hs) <| .ite (.hubWords hs hl) hs
  · exact .arrive <| .answer hs
  · exact .hwDone <| .answer hs

theorem mgmtBurst {p berth pl learn} (h : s.Canonical)
    (hl : ∀ t x, t.Canonical → (learn t x : State).Canonical) : (s.mgmtBurst p berth pl learn).Canonical := by
  unfold State.mgmtBurst
  dsimp only
  split
  · exact .setBerth <| .event <| .bump h
  · exact .recordAnswered h hl

theorem remoteTimeout {p tid} (h : s.Canonical) : (s.remoteTimeout p tid).Canonical := by
  unfold State.remoteTimeout
  split
  · exact h
  · extract_lets _ s₁ s₂
    have h₁ : s₁.Canonical := .reach h
    have h₂ : s₂.Canonical := .event <| .bump <| .closeRecord h₁
    exact .ite (.remoteAnswer h₂) <| .ite (.admissionFailed h₂) <| .ite (.setBerth h₂) h₂

theorem mailboxGo {p} (h : s.Canonical) : (s.mailboxGo p).Canonical :=
  .ite (.accessErr h) <| .ite h <| .ite (.accessErr h) <| .ite (.bump <| .set <| .set h) <| .set <| .set <|
    .setPort <| .mgmtQueue h

theorem setWindow {p on} (h : s.Canonical) : (s.setWindow p on).Canonical := by
  unfold State.setWindow
  extract_lets _ s₁ _ s₂
  have h₁ : s₁.Canonical := .set h
  have h₂ : s₂.Canonical := .setPort h₁
  exact .ite (.event h₂) <| .ite (.event h₂) h₂

theorem berthDisabled (h : s.Canonical) : s.berthDisabled.Canonical :=
  .forUpTo (.foldl h fun _ _ h1 => .abandon h1) fun _ _ h1 => .set <| .setPort h1

theorem berthRd (h : s.Canonical) : s.berthRd.Canonical := .forUpTo h fun _ _ h' => .setReg h'
theorem berthClr (h : s.Canonical) : s.berthClr.Canonical := .setBerth h

theorem berthWr {guard} (h : s.Canonical) : (s.berthWr guard).Canonical := by
  unfold State.berthWr
  extract_lets _ _ _ _ _ _ _ _ s₁ _ s₂ s₃ _ _ _ s₄ _ s₅
  have h₁ : s₁.Canonical := .setBerth h
  have h₂ : s₂.Canonical := .setBerth h₁
  have h₃ : s₃.Canonical := .ite h₁ <| .ite (.accessErr h₁) <| .ite (.moveSlot h₂) h₂
  have h₄ : s₄.Canonical := .when h₃ .event
  have h₅ : s₅.Canonical := .release h₄
  exact .ite h₃ <| .ite (.accessErr h₃) <| .ite (.setBerth h₅) <| .setBerth h₄

/-! Canonical memory: terminals and the debug UART (02_pins_package.md). -/

theorem uartStops (h : s.Canonical) : s.uartStops.Canonical := .ite h <| .upd h
theorem gpioFnSet {n fn} (h : s.Canonical) : (s.gpioFnSet n fn).Canonical := .ite (.uartStops <| .set h) <| .accessErr h

theorem uartNext (h : s.Canonical) : s.uartNext.Canonical := by
  unfold State.uartNext
  split
  · exact .upd h
  · exact .upd h

theorem uartPut {b} (h : s.Canonical) : (s.uartPut b).Canonical :=
  .ite (.accessErr h) <| .ite (.uartNext <| .upd h) <| .upd h

theorem uartGet (h : s.Canonical) : s.uartGet.2.Canonical := by
  unfold State.uartGet
  split
  · exact h
  · exact .upd h

/-! Canonical memory: twin hubs (18_twins_referee.md). -/

theorem timeSource {n} (h : s.Canonical) : (s.timeSource n).Canonical := .when h .set
theorem unready (h : s.Canonical) : s.unready.Canonical := .upd <| .set h
theorem checkReady {nuse} (h : s.Canonical) : (s.checkReady nuse).Canonical := .ite (.event <| .set h) h

theorem becomeStandby (h : s.Canonical) : s.becomeStandby.Canonical :=
  .ite h <| .event <| .count <| .timeSource <| .upd <| .set <| .unready h

theorem coldTakeover (h : s.Canonical) : s.coldTakeover.Canonical :=
  .showTrim <| .upd <| .foldl (.forUpTo h fun _ _ h1 => .zeroChain h1) fun _ _ h1 => .setObs h1

theorem becomeActive {why} (h : s.Canonical) : (s.becomeActive why).Canonical :=
  .ite h <| .when (.event <| .set <| .set <| .set <| .count <| .upd <| .timeSource <| .unready <| .setReg <|
    .setReg h) .coldTakeover

theorem setOwn {w} (h : s.Canonical) : (s.setOwn w).Canonical := .set <| .set h

theorem learnWatch {w} (h : s.Canonical) : (s.learnWatch w).Canonical := .ite h <| by
      extract_lets s₁
      have h₁ : s₁.Canonical := .set h
      exact .ite h₁ <| .ite (.set <| .setOwn h₁) <| .ite (.set <| .setOwn h₁) <| .event <| .becomeStandby h₁

theorem takeControl {why} (h : s.Canonical) : (s.takeControl why).Canonical := .becomeActive <| .setOwn h
theorem twinSend {type body} (h : s.Canonical) : (s.twinSend type body).Canonical := .ite h <| .upd h
theorem twinDrop {w} (h : s.Canonical) : (s.twinDrop w).Canonical := .bump h

theorem twinRx {t bs f} (h : s.Canonical) (hf : ∀ t b, t.Canonical → (f t b : State).Canonical) :
    (s.twinRx t bs f).Canonical := by
  refine .ite h <| .ite (.twinDrop h) <| .ite h <| .ite (.twinDrop h) <| .ite (.ite (hf _ _ h) <| .twinDrop h) ?_
  split
  · exact .twinDrop h
  · exact .ite (.twinDrop h) <| .ite (.twinDrop h) <| hf _ _ <| .upd h

theorem twinDropBond (h : s.Canonical) : s.twinDropBond.Canonical := .twinLost <| .set <| .set h
theorem sendHello (h : s.Canonical) : s.sendHello.Canonical := .twinSend h

theorem twinKeyed {x eA eB idA idB} (h : s.Canonical) : (s.twinKeyed x eA eB idA idB).Canonical :=
  .sendHello <| .set <| .upd h

theorem twinKx {str} (h : s.Canonical) : (s.twinKx str).Canonical := by
  unfold State.twinKx
  dsimp only
  exact .ite h <| .ite (.twinDropBond <| .peerRefused h) <| by
      split
      · exact .twinDropBond <| .peerRefused h
      · exact .ite (.twinKeyed h) <| .twinKeyed <| .twinSend <| .kxOwn h

theorem twinHello {b} (h : s.Canonical) : (s.twinHello b).Canonical := .set <| .set <| .set <| .set h
theorem sendStatus {k} (h : s.Canonical) : (s.sendStatus k).Canonical := .ite h <| .ite (.twinSend h) <| .twinSend h

theorem dualActive {t} (h : s.Canonical) : (s.dualActive t).Canonical :=
  .ite h <| .ite (.when (.becomeStandby h) .event) <| .ite (.when (.event h) .becomeStandby) h

theorem twinStatus {b} (h : s.Canonical) : (s.twinStatus b).Canonical := by
  unfold State.twinStatus
  extract_lets _ _ _ s₁ s₂ s₃
  have h₁ : s₁.Canonical := .upd h
  have h₂ : s₂.Canonical := .set h₁
  have h₃ : s₃.Canonical := .learnWatch <| .dualActive h₂
  exact .ite (.upd h₃) h₃

theorem mirrorWord {w} (h : s.Canonical) : (s.mirrorWord w).2.2.Canonical :=
  .iteSnd2 h <| .iteSnd2 h <| .iteSnd2 h <| by
      split
      · exact .fetch h
      · exact h

theorem mirrorGeometry (h : s.Canonical) : s.mirrorGeometry.Canonical :=
  .ite h <| .ite h <| .when (.set <| .set <| .set <| .upd h) .event

theorem sliceCapture (h : s.Canonical) : s.sliceCapture.Canonical :=
  .ite h <| .upd <| .set <| .foldlSnd2 h fun _ _ h' => .mirrorWord h'

theorem sendSlices {c fuel o n} (h : s.Canonical) : (s.sendSlices c fuel o n).Canonical := by
  induction fuel generalizing s o n with
  | zero => exact h
  | succ k ih => exact .ite h <| ih <| .twinSend h

theorem sliceSend (h : s.Canonical) : s.sliceSend.Canonical := by
  unfold State.sliceSend
  split
  · exact h
  · exact .ite (.upd h) <| .ite (.upd <| .sendSlices h) <| .upd <| .ite (.sendSlices h) <| .twinSend <| .upd <|
      .sendSlices h

theorem sliceDiscard {idx} (h : s.Canonical) : (s.sliceDiscard idx).Canonical := .upd <| .unready <| .event <| .bump h
theorem twinSlice {b} (h : s.Canonical) : (s.twinSlice b).Canonical := .ite h <| .upd h

theorem twinCommit {b} (h : s.Canonical) : (s.twinCommit b).Canonical := .ite h <| by
      extract_lets _ _ _ _ _ _ _ _ _ _ s₁ s₂ s₃ _ s₄
      have h₁ : s₁.Canonical := .upd h
      have h₂ : s₂.Canonical := .foldl h₁ fun _ _ h' => .sliceDiscard h'
      have h₃ : s₃.Canonical := .unready h₂
      have h₄ : s₄.Canonical := .ite h₂ <| .upd h₃
      split
      · exact .ite (.upd h₄) <| .sliceDiscard h₄
      · exact .sliceDiscard h₄

theorem applyPageWord {pg j active v} (h : s.Canonical) : (s.applyPageWord pg j active v).Canonical := by
  unfold State.applyPageWord
  dsimp only
  split
  · exact h
  · exact .ite h <| .ite (.upd h) <| .ite (.setFe h) <| .ite (.setFe h) <| .ite (.setFe h) <| .setReg h

theorem applyBerthWord {i w v} (h : s.Canonical) : (s.applyBerthWord i w v).Canonical := .setBerth h
theorem applyRankWord {i w v} (h : s.Canonical) : (s.applyRankWord i w v).Canonical := .setObs h

theorem applyMirrorWord {pages nb nr rg w v} (h : s.Canonical) : (s.applyMirrorWord pages nb nr rg w v).Canonical :=
  .ite (.applyPageWord h) <| .ite (.applyBerthWord h) <| .ite (.applyRankWord h) <| by
      split
      · exact .store h
      · exact h

theorem sliceApply {g data} (h : s.Canonical) : (s.sliceApply g data).Canonical := by
  unfold State.sliceApply
  extract_lets _ _ _ _ _ _ _ s₁ s₂ s₃ _ s₄
  have h₁ : s₁.Canonical := .foldl h fun _ _ h' => .applyMirrorWord h'
  have h₂ : s₂.Canonical := .when h₁ .leadChanged
  have h₃ : s₃.Canonical := .count <| .set h₂
  have h₄ : s₄.Canonical := .upd h₃
  exact .ite (.unready h₄) <| .checkReady <| .upd h₄

theorem mirrorApply (h : s.Canonical) : s.mirrorApply.Canonical := .ite h <| .foldl (.upd h) fun _ _ h' => by
      split
      · exact .sliceApply h'
      · exact h'

theorem slackEnd (h : s.Canonical) : s.slackEnd.Canonical := by
  unfold State.slackEnd
  split
  · exact .ite (.monitorSel <| .upd <| .set h) h
  · exact h

theorem steer (h : s.Canonical) : s.steer.Canonical := .upd <| .set <| .set <| .free h

/-! Canonical memory: the referee and its links (18_twins_referee.md). -/

theorem refereeRx {t bs f} (h : s.Canonical) (hf : ∀ t b, t.Canonical → (f t b : State).Canonical) :
    (s.refereeRx t bs f).Canonical := by
  unfold State.refereeRx
  split
  · exact h
  · exact .bump h
  · exact .bump h
  · exact .bump h
  · refine hf _ _ <| .count <| .upd ?_
    split
    · exact .monitorSel h
    · exact h

theorem staleCmd (h : s.Canonical) : s.staleCmd.Canonical := .event <| .bump h

theorem takeCmd {b} (h : s.Canonical) : (s.takeCmd b).Canonical :=
  .ite (.staleCmd h) <| .when (.becomeActive <| .event <| .set <| .setOwn h) .learnWatch

theorem yieldCmd {b} (h : s.Canonical) : (s.yieldCmd b).Canonical :=
  .ite (.staleCmd h) <| .becomeStandby <| .event <| .set <| .when h .set

theorem hubHeartbeat (h : s.Canonical) : s.hubHeartbeat.Canonical := by
  unfold State.hubHeartbeat
  dsimp only
  exact .ite (.upd h) <| .upd <| .kxOwn <| .iteSnd (.drawScalar h) h

theorem intervalEnd (h : s.Canonical) : s.intervalEnd.Canonical := .ite (.event <| .set <| .upd h) <| .upd h

theorem hubKx {b} (h : s.Canonical) : (s.hubKx b).Canonical := .ite h <| .ite (.bump h) <| by
      dsimp only
      split
      · exact .upd h
      · exact .ite (.peerRefused <| .upd h) <| by
            split
            · exact .peerRefused <| .upd h
            · exact .set <| .upd h

theorem setRefLink {l x} (h : s.Canonical) : (s.setRefLink l x).Canonical := .upd h
theorem setRefPair {p x} (h : s.Canonical) : (s.setRefPair p x).Canonical := .upd h

theorem commandPair {p x1 w y why} (h : s.Canonical) : (s.commandPair p x1 w y why).Canonical :=
  .setRefPair <| .set <| .set <| .set <| .set h

theorem takeMade {p failed} (h : s.Canonical) : (s.takeMade p failed).Canonical := by
  unfold State.takeMade
  extract_lets s₁ s₂
  have h₁ : s₁.Canonical := .event <| .bump h
  have h₂ : s₂.Canonical := .ltAdd h₁
  split
  · exact .set h₂
  · exact h₂

theorem hubFailed {p x1 why} (h : s.Canonical) : (s.hubFailed p x1 why).Canonical :=
  .ite (.takeMade <| .commandPair h) <| .setRefPair <| .set <| .event <| .bump h

theorem pairInterval {p} (h : s.Canonical) : (s.pairInterval p).Canonical := by
  unfold State.pairInterval
  extract_lets
  split
  · exact .ite (.set <| .setRefPair h) <| .setRefPair h
  · split
    · exact .ite (.hubFailed h) <| .set h
    · exact h
  · exact h

theorem sendLink {p x1} (h : s.Canonical) : (s.sendLink p x1).Canonical := by
  unfold State.sendLink
  extract_lets
  split
  · exact h
  · exact .setRefLink h

theorem outcome {p x1} (h : s.Canonical) : (s.outcome p x1).Canonical :=
  .ite (.set <| .setRefPair <| .setRefPair h) <| .setRefPair h

theorem witnessHb {p w} (h : s.Canonical) : (s.witnessHb p w).Canonical := .setRefPair h

theorem judgeHb {p x1} (h : s.Canonical) : (s.judgeHb p x1).Canonical := by
  unfold State.judgeHb
  extract_lets _ _ _ _ _ s₁
  have h₁ : s₁.Canonical := .ite (.bump <| .commandPair h) h
  exact .ite h <| .ite (.bump <| .commandPair h) <| .ite (.ite (.hubFailed h₁) h₁) <| .ite (.hubFailed h) h

theorem linkHb {l b} (h : s.Canonical) : (s.linkHb l b).Canonical := by
  unfold State.linkHb
  extract_lets _ _ s₁ _ s₂ s₃ s₄ s₅ _ s₆ s₇ s₈
  have h₁ : s₁.Canonical := by
    unfold s₁
    split
    · exact .monitorSel h
    · exact h
  have h₂ : s₂.Canonical := .setRefLink h₁
  have h₃ : s₃.Canonical := .set <| .set <| .count h₂
  have h₄ : s₄.Canonical := .setReg <| .set h₃
  have h₅ : s₅.Canonical := .set <| .set h₄
  have h₆ : s₆.Canonical := .setRefPair h₅
  have h₇ : s₇.Canonical := .outcome h₆
  have h₈ : s₈.Canonical := .when h₇ .witnessHb
  exact .ite h₆ <| .judgeHb h₈

theorem linkKx {l b} (h : s.Canonical) : (s.linkKx l b).Canonical := by
  unfold State.linkKx
  extract_lets _ _ _ _ s₁ s₂
  have h₁ : s₁.Canonical := .setRefLink h
  have h₂ : s₂.Canonical := .setRefLink h₁
  exact .ite (.bump h) <| by
      split
      · exact h₁
      · extract_lets
        exact .ite (.peerRefused h₂) <| by
            split
            next _ s₃ heq =>
            have h₃ : s₃.Canonical := .ofSnd heq <| .drawScalar h₂
            split
            · exact .peerRefused h₃
            · extract_lets
              split
              next _ s₄ heq =>
              have h₄ : s₄.Canonical := .ofSnd heq <| .kxOwn h₃
              extract_lets
              exact .set <| .setRefLink h₄

theorem linkMissed {l} (h : s.Canonical) : (s.linkMissed l).Canonical :=
  .ite (.hubFailed <| .set <| .bump <| .when h .event) <| .set <| .bump <| .when h .event

theorem listenAfresh (h : s.Canonical) : s.listenAfresh.Canonical :=
  .forUpTo h fun _ _ h' => .setRefPair <| .set <| .set h'

theorem listenEnd {p} (h : s.Canonical) : (s.listenEnd p).Canonical := by
  unfold State.listenEnd
  extract_lets _ _ _ adopt
  have hadopt : ∀ i, (adopt i).Canonical := fun _ => .setRefPair <| .set <| .set <| .set h
  exact .ite (hadopt _) <| .ite (hadopt _) <| .ite (hadopt _) <| .takeMade <| .commandPair h

/-! Canonical memory: upstream bursts, rounds and the babbler search (10_tree_admission.md). -/

theorem burstLight {p berth} (h : s.Canonical) : (s.burstLight p berth).Canonical :=
  .ite (.setLane <| .set <| .set h) <| .set <| .set h

theorem burstDrop {p slot n c} (h : s.Canonical) : (s.burstDrop p slot n c).Canonical := by
  unfold State.burstDrop
  extract_lets s₁ s₂
  have h₁ : s₁.Canonical := .event <| .bump h
  have h₂ : s₂.Canonical := .ite (.stranger h₁) h₁
  split
  · exact h₂
  · extract_lets
    exact .setBerth h₂

theorem phaseRefresh {i phase align} (h : s.Canonical) : (s.phaseRefresh i phase align).Canonical :=
  .ite (.setBerth <| .when h .bump) <| .event <| .sendDelay <| .computeDelays <| .setBerth <| .setBerth <|
    .when h .bump

theorem reportAccepted {i r} (h : s.Canonical) : (s.reportAccepted i r).Canonical := by
  unfold State.reportAccepted
  exact .when (.reportItems <| .observerReport <| .upd <| .setBerth h) .bootEnded

theorem burstRx {p slot syncFound codeOk bs phase align} (h : s.Canonical) :
    (s.burstRx p slot syncFound codeOk bs phase align).Canonical := by
  unfold State.burstRx
  extract_lets _ s₁ s₂ _ s₃
  have h₁ : s₁.Canonical := by
    unfold s₁
    split
    · exact .ite h <| .setBerth h
    · exact h
  have h₂ : s₂.Canonical := .codeGroups <| .when h₁ .burstLight
  have h₃ : s₃.Canonical := .phaseRefresh <| .count h₂
  split
  · exact .ite h₃ <| .reportAccepted h₃
  · exact .burstDrop h₂

theorem zoneDrop {p bs c} (h : s.Canonical) : (s.zoneDrop p bs c).Canonical :=
  .ite (.stranger <| .event <| .bump h) <| .event <| .bump h

theorem zoneRx {p syncFound codeOk bs arrival phase align} (h : s.Canonical) :
    (s.zoneRx p syncFound codeOk bs arrival phase align).Canonical := by
  unfold State.zoneRx
  extract_lets _ s₁ s₂
  have h₁ : s₁.Canonical := .codeGroups <| .when h .burstLight
  have h₂ : s₂.Canonical := .count h₁
  split
  · exact .ite (.boardingRx h₂) <| .rangingRx h₂
  · exact .zoneDrop h₁

theorem searchMarks {p dark} (h : s.Canonical) : (s.searchMarks p dark).Canonical :=
  .foldl h fun _ _ h' => .ite h' <| .setBerth h'

theorem searchLaunch {p x} (h : s.Canonical) : (s.searchLaunch p x).Canonical := .bump <| .searchMarks <| .setPort h

theorem searchStart {p} (h : s.Canonical) : (s.searchStart p).Canonical :=
  .searchLaunch <| .setPort <| .bump <| .set <| .set <| .set h

theorem searchUnknown {p x} (h : s.Canonical) : (s.searchUnknown p x).Canonical :=
  .event <| .set <| .set <| .searchMarks <| .setPort h

theorem searchObserve {p x light} (h : s.Canonical) : (s.searchObserve p x light).Canonical :=
  .ite (.searchLaunch h) <| .ite (.searchUnknown h) <| by
      split
      · exact .searchUnknown h
      · exact .event <| .set <| .set <| .set <| .setBerth <| .searchMarks <| .setPort h

theorem berthsRound {p n light} (h : s.Canonical) : (s.berthsRound p n light).Canonical :=
  .foldl h fun _ _ h' => .when (.setBerth h') .event

theorem lightRound {p light} (h : s.Canonical) : (s.lightRound p light).Canonical :=
  .ite (.setPort <| .set h) <| .setPort <| .event <| .bump <| .set h

theorem portRound {p n light} (h : s.Canonical) : (s.portRound p n light).Canonical :=
  .grantsFor <| .renewRound <| .setPort <| .lightRound <| .unobservedRounds <| .berthsRound <| .set <| .setReg h

theorem witness (h : s.Canonical) : s.witness.Canonical := .upd <| .upd h

theorem hubRound {light} (h : s.Canonical) : (s.hubRound light).Canonical := by
  unfold State.hubRound
  split
  · exact h
  · exact .witness <| .foldl (.reach h) fun _ _ h' => .portRound h'

theorem uplinkRound {u n} (h : s.Canonical) : (s.uplinkRound u n).Canonical := .setUplink <| .slotUpdate h

theorem cellRound (h : s.Canonical) : s.cellRound.Canonical := by
  unfold State.cellRound
  dsimp only
  split
  · exact h
  · exact .foldl (.reach h) fun _ _ h' => .uplinkRound h'

end Sys2Proof.Machine.State.Canonical
end

section
/-! PROOFS. Memory in its canonical form through commits, recorder, station, reset, security and accesses:
one rule per function of the model, in the order of the model. -/

namespace Sys2Proof.Machine.State.Canonical

variable {s : State}

/-! Canonical memory: shadows and commits (03_register_pages.md). -/

theorem transfer {pg} (h : s.Canonical) : (s.transfer pg).Canonical := .foldl (.upd h) fun _ _ h' => .ite h' <| .upd h'
theorem committed {pg} (h : s.Canonical) : (s.committed pg).Canonical := .event <| .count <| .set h
theorem rebase {t k} (h : s.Canonical) : (s.rebase t k).Canonical := .upd h

theorem timebaseChanged (h : s.Canonical) : s.timebaseChanged.Canonical :=
  .when h fun h1 => .forUpTo (.newTimebase h1) fun _ _ h2 => .setPort h2

theorem leadFollows {a rep} (h : s.Canonical) : (s.leadFollows a rep).Canonical :=
  .ite (.leadCheck <| .leadChanged <| .showProfile h) <| .showProfile h

theorem commitTime {at'} (h : s.Canonical) : (s.commitTime at').Canonical := by
  unfold State.commitTime
  extract_lets _ _ _ _ here s₁ s₂ s₃ s₄ s₅
  clear_value here
  have h₁ : s₁.Canonical := .transfer h
  have h₂ : s₂.Canonical := by
    unfold s₂
    split
    · exact .ite (.rebase h₁) h₁
    · exact h₁
  have h₃ : s₃.Canonical := .committed h₂
  have h₄ : s₄.Canonical := .when h₃ .timebaseChanged
  have h₅ : s₅.Canonical := .leadFollows h₄
  exact .ite (.profileReject <| .set h) <| .ite (.ite (.leadCheck h₅) h₅) h₄

theorem commitHook {before pg} (h : s.Canonical) : (s.commitHook before pg).Canonical :=
  .ite (.forUpTo h fun _ _ h1 => .eqClip h1) <| .ite (.windowMode h) <| .ite (.chainCommit h) <| .ite (.upd h) <|
    .ite (.forUpTo h fun _ _ h1 => .ite h1 <| .rcuClear h1) <| .ite (.ite (.leadFollows h) <| .leadCheck <|
      .leadFollows h) h

theorem commitPage {pg at'} (h : s.Canonical) : (s.commitPage pg at').Canonical :=
  .ite (.commitTime h) <| .committed <| .commitHook <| .transfer h

theorem commitRequest {pg} (h : s.Canonical) : (s.commitRequest pg).Canonical :=
  .ite (.upd <| .set <| .set h) <| .ite (.set h) <| .commitPage h

theorem applyCommits {k} (h : s.Canonical) : (s.applyCommits k).Canonical := .foldl h fun _ _ h' => .commitPage h'

/-! Canonical memory: the modulation of a cell (11_modulation_edges.md). -/

theorem bitmapCheck {t at'} (h : s.Canonical) : (s.bitmapCheck t at').Canonical := by
  unfold State.bitmapCheck
  extract_lets entry _ s₁ s₂
  clear_value entry
  have h₁ : s₁.Canonical := .upd h
  have h₂ : s₂.Canonical := .trimOver h₁
  split
  · exact h₁
  · extract_lets _ _ s₃
    have h₃ : s₃.Canonical := .ite h₂ <| .ite (.evFlag <| .count h₂) <| .evFlag <| .bump h₂
    exact .ite h₁ <| .ite h₁ <| .ite h₁ <| .ite (.request h₃) h₃

theorem epochSeen {e k} (h : s.Canonical) : (s.epochSeen e k).Canonical := .ite (.upd h) <| .upd h

theorem epochApply {k at' late} (h : s.Canonical) : (s.epochApply k at' late).Canonical := by
  unfold State.epochApply
  split
  · exact h
  · exact .bitmapCheck <| .when (.event <| .count <| .setReg <| .upd <| .set <| .ite (.upd <| .set <|
      .commitPage h) h) fun h' => .event <| .bump h'

theorem duty (h : s.Canonical) : s.duty.2.2.Canonical := by
  unfold State.duty
  dsimp only
  split
  · exact .free h
  · exact h

theorem carrierDue {t} (h : s.Canonical) : (s.carrierDue t).Canonical := by
  unfold State.carrierDue
  split
  · exact .ite (.request <| .upd h) h
  · exact h

theorem carrierSample {t peak} (h : s.Canonical) : (s.carrierSample t peak).Canonical :=
  .upd <| .set <| .when (.duty h) fun h' => .event <| .bump h'

/-! Canonical memory: the recorder, the black box and the lifetime counters (21_recorder_monitors.md). -/

theorem setDesc {i w v} (h : s.Canonical) : (s.setDesc i w v).Canonical := .store h
theorem setRecState {n} (h : s.Canonical) : (s.setRecState n).Canonical := .set h
theorem showHeld (h : s.Canonical) : s.showHeld.Canonical := .set h
theorem writeDesc {st} (h : s.Canonical) : (s.writeDesc st).Canonical := .store h
theorem recFlag {b} (h : s.Canonical) : (s.recFlag b).Canonical := .upd h

theorem recRate {pressure} (h : s.Canonical) : (s.recRate pressure).Canonical := by
  unfold State.recRate
  extract_lets _ _ s₁
  have h₁ : s₁.Canonical := .upd h
  exact .ite (.ite (.event <| .bump <| .set h₁) h₁) <| .ite (.event <| .bump <| .set h₁) <| .upd h

theorem recChunk (h : s.Canonical) : s.recChunk.Canonical := .arrive <| .recRate <| .upd h

theorem recPump {fuel} (h : s.Canonical) : (s.recPump fuel).Canonical := by
  induction fuel generalizing s with
  | zero => exact h
  | succ k ih => exact .ite h <| .ite (.upd h) <| ih <| .recChunk <| .upd h

theorem recFlush (h : s.Canonical) : s.recFlush.Canonical := .ite (.upd h) <| .recChunk <| .upd h

theorem putRecord {type lvl nsmp cyc ncyc inv cut body} (h : s.Canonical) :
    (s.putRecord type lvl nsmp cyc ncyc inv cut body).Canonical :=
  .ite (.upd <| .event <| .bump h) <| .recPump <| .upd h

theorem putSnapshot {k} (h : s.Canonical) : (s.putSnapshot k).Canonical := .ite h <| .putRecord h

theorem closeRecord1 {k cut trig} (h : s.Canonical) : (s.closeRecord1 k cut trig).Canonical := by
  unfold State.closeRecord1
  split
  · exact h
  · extract_lets _ _ _ s₁ s₂ _ s₃ _ _ s₄
    have h₁ : s₁.Canonical := .upd h
    have h₂ : s₂.Canonical := .putRecord h₁
    have h₃ : s₃.Canonical := .ite h₂ <| by
      split
      · exact .upd h₂
      · exact h₂
    have h₄ : s₄.Canonical := .upd h₃
    exact .ite (.putSnapshot h₄) h₄

theorem beginLive {i} (h : s.Canonical) : (s.beginLive i).Canonical := .showHeld <| .writeDesc <| .upd <| .set h

theorem nextLive {i st} (h : s.Canonical) : (s.nextLive i st).Canonical := by
  unfold State.nextLive
  dsimp only
  split
  · exact .beginLive <| .setRecState h
  · exact .ite (.beginLive <| .setRecState <| .bump h) <| .event <| .setRecState <| .upd h

theorem endCapture (h : s.Canonical) : s.endCapture.Canonical :=
  .nextLive <| .upd <| .showHeld <| .event <| .writeDesc <| .recFlush h

theorem startCapture {k time cause primary ends} (h : s.Canonical) :
    (s.startCapture k time cause primary ends).Canonical := by
  unfold State.startCapture
  exact .closeRecord1 <| .putRecord <| .writeDesc <| .event <| .bump <| .setRecState <| .upd <| .when h .recFlag

theorem ignoreFiring {cause} (h : s.Canonical) : (s.ignoreFiring cause).Canonical := by
  unfold State.ignoreFiring
  dsimp only
  split
  · exact .upd <| .bump h
  · exact .ite (.ite (.setRecState <| .upd <| .bump h) <| .upd <| .bump h) <| .bump h
  · exact .bump h

theorem setTrig {t x} (h : s.Canonical) : (s.setTrig t x).Canonical := .upd h

theorem trigEval {t} (h : s.Canonical) : (s.trigEval t).2.Canonical :=
  .when (.set <| .setTrig <| .iteSnd (.touch h) h) .bump

theorem trigEvals (h : s.Canonical) : s.trigEvals.2.Canonical := by
  unfold State.trigEvals
  exact .upd <| .forUpToSnd h fun _ _ h' => .trigEval h'

theorem maskTest {k m} (h : s.Canonical) : (s.maskTest k m).Canonical :=
  .ite h <| .ite (.upd <| .event <| .bump <| .when (.set <| .fetch h) .upd) <| .when (.set <| .fetch h) .upd

theorem recRead {k} (h : s.Canonical) : (s.recRead k).Canonical :=
  .upd <| .foldlSnd h fun _ _ h' => .iteSnd (.touch h') <| .iteSnd (.touch h') <| .touch h'

theorem recSample {k time} (h : s.Canonical) : (s.recSample k time).Canonical := by
  unfold State.recSample
  refine .ite h ?_
  extract_lets _ _ _ s₁
  have h₁ : s₁.Canonical := .forUpTo (.when (.upd h) .recRead) fun _ _ h => .maskTest h
  split
  next units s₂ heq =>
  have h₂ : s₂.Canonical := .ofSnd heq <| .trigEvals h₁
  extract_lets cause _ s₃ ends stop s₄ s₅
  have h₃ : s₃.Canonical := .upd h₂
  have h₄ : s₄.Canonical := .when h₃ .ignoreFiring
  have h₅ : s₅.Canonical :=
    .ite (.startCapture h₃) <| .ite (.closeRecord1 <| .recFlag h₄) <| .ite (.closeRecord1 h₄) h₄
  split
  · exact .ite (.endCapture h₅) h₅
  · exact .ite (.setRecState h₅) h₅

theorem recStart (h : s.Canonical) : s.recStart.Canonical := by
  unfold State.recStart
  dsimp only
  exact .nextLive <| .showHeld <| .set <| .set <| .upd <|
    .forUpToSnd (.fetch h) fun _ _ h' => .iteSnd (.setDesc h') <| .iteSnd (.setDesc <| .setDesc h') h'

theorem recStop (h : s.Canonical) : s.recStop.Canonical :=
  .upd <| .setRecState <| .ite (.showHeld <| .event <| .writeDesc <| .recFlush <| .recFlag <| .upd h) <|
    .ite (.upd h) <| .writeDesc <| .recFlush <| .upd h

theorem recForce (h : s.Canonical) : s.recForce.Canonical := .ite (.upd h) <| .ignoreFiring h

theorem recFree {segs} (h : s.Canonical) : (s.recFree segs).Canonical :=
  .ite (.nextLive <| .showHeld <| .foldl h fun _ _ h1 => .setDesc h1) <| .showHeld <|
    .foldl h fun _ _ h1 => .setDesc h1

theorem recRel {i} (h : s.Canonical) : (s.recRel i).Canonical := .ite (.accessErr h) <| .recFree h
theorem recRelAll (h : s.Canonical) : s.recRelAll.Canonical := .recFree h

theorem chunkStored (h : s.Canonical) : s.chunkStored.Canonical := by
  unfold State.chunkStored
  split
  · exact h
  · extract_lets _ s₁ _ s₂ s₃ s₄ _ s₅
    have h₁ : s₁.Canonical := .store h
    have h₂ : s₂.Canonical := .upd h₁
    have h₃ : s₃.Canonical := .hwDone h₂
    have h₄ : s₄.Canonical := .when h₃ .upd
    have h₅ : s₅.Canonical := .ite (.writeDesc h₄) <| .ite (.writeDesc h₄) h₄
    exact .recPump h₅

theorem bbStart (h : s.Canonical) : s.bbStart.Canonical :=
  .ite h <| .ite (.upd <| .set <| .upd h) <| .set <| .set <| .upd h

theorem bbRearm (h : s.Canonical) : s.bbRearm.Canonical := .ite h <| by
      extract_lets s₁ _ s₂ _ s₃
      have h₁ : s₁.Canonical := .set h
      have h₂ : s₂.Canonical := .upd h₁
      have h₃ : s₃.Canonical := .set h₂
      exact .ite h₂ <| by
          split
          · extract_lets s₄
            have h₄ : s₄.Canonical := .set h₂
            exact .upd h₄
          · exact .upd h₃

theorem lifetimeSecond (h : s.Canonical) : s.lifetimeSecond.Canonical := by
  unfold State.lifetimeSecond
  split
  · exact .ltAdd <| .free h
  · exact .ltAdd h
  · exact .ltAdd h

theorem lifetimeHour (h : s.Canonical) : s.lifetimeHour.Canonical := .ite (.ltAdd <| .ltAdd h) h

/-! Canonical memory: the station interface (22_station_interface.md). -/

theorem emit {p frame} (h : s.Canonical) : (s.emit p frame).Canonical := .ite h <| .upd <| .count h

theorem sendFrame {frame} (h : s.Canonical) : (s.sendFrame frame).Canonical :=
  .ite (.foldl (.upd h) fun _ _ h1 => .emit h1) <| .foldl h fun _ _ h1 => .emit h1

theorem hwSend {frame} (h : s.Canonical) : (s.hwSend frame).Canonical := .ite (.upd h) <| .sendFrame h
theorem sendLater (h : s.Canonical) : s.sendLater.Canonical := .foldl (.upd h) fun _ _ h' => .hwSend h'
theorem freshSent (h : s.Canonical) : s.freshSent.Canonical := .upd h

theorem kxStart (h : s.Canonical) : s.kxStart.Canonical := by
  unfold State.kxStart
  dsimp only
  exact .hwSend <| .upd <| .set <| .kxOwn <| .drawScalar h

theorem stnTag {seq bytes} (h : s.Canonical) : (s.stnTag seq bytes).2.Canonical := by
  unfold State.stnTag
  split
  · exact h
  · exact .free h

theorem nextSeq (h : s.Canonical) : s.nextSeq.2.Canonical := .upd h

theorem sendEtolwick {dst type body} (h : s.Canonical) : (s.sendEtolwick dst type body).Canonical :=
  .when (.hwSend <| .stnTag <| .nextSeq h) .kxStart

theorem stnKxAnswer {str} (h : s.Canonical) : (s.stnKxAnswer str).Canonical := .ite h <| .ite (.peerRefused h) <| by
      split
      · exact h
      · exact .event <| .set <| .upd h

theorem prpCheck {src seq} (h : s.Canonical) : (s.prpCheck src seq).2.Canonical := .upd h

theorem stnRx {f k} (h : s.Canonical) (hk : ∀ t : State, t.Canonical → (k t).Canonical) : (s.stnRx f k).Canonical := by
  unfold State.stnRx
  dsimp only
  refine .ite h <| .ite (.bump <| .reach h) <| .ite (.bump <| .reach h) <| .ite (.bump <| .reach h) ?_
  split
  · exact .ite (.count <| .prpCheck <| .count <| .reach h) <| hk _ <| .prpCheck <| .count <| .reach h
  · exact hk _ <| .count <| .reach h

theorem seqTake {n} (h : s.Canonical) : (s.seqTake n).Canonical := .upd h

theorem checked {b fmt k} (h : s.Canonical) (hk : ∀ t : State, t.Canonical → (k t).Canonical) :
    (s.checked b fmt k).Canonical :=
  .ite h <| .ite (.bump h) <| .ite (.event <| .bump h) <| .ite (.event <| .bump h) <|
    .when (hk _ <| .seqTake h) .kxStart

theorem setpoint {b} (h : s.Canonical) : (s.setpoint b).Canonical := by
  unfold State.setpoint
  exact .checked h fun _ h' => .upd <| .count h'

theorem spActivate {t} (h : s.Canonical) : (s.spActivate t).Canonical := by
  unfold State.spActivate
  split
  · exact .ite (.upd <| .set h) h
  · exact h

theorem stationAngle {t} (h : s.Canonical) : (s.stationAngle t).2.2.2.Canonical := by
  unfold State.stationAngle
  extract_lets _ s₁ _ s₂ _ s₃ s₄ _ s₅
  have h₁ : s₁.Canonical := by
    unfold s₁
    split
    · exact h
    · exact .upd h
  have h₂ : s₂.Canonical := by
    unfold s₂
    split
    · exact .setReg h₁
    · exact h₁
  have h₃ : s₃.Canonical := .when h₂ .event
  have h₄ : s₄.Canonical := .set h₃
  have h₅ : s₅.Canonical := .ite (.upd h₄) h₄
  split
  · exact h₅
  · exact h₅

theorem svFrame {c t b} (h : s.Canonical) : (s.svFrame c t b).Canonical := .ite (.bump h) <| .upd <| .count h

theorem showHead (h : s.Canonical) : s.showHead.Canonical := by
  unfold State.showHead
  split
  · exact .set h
  · exact h

theorem fillTag {frame} (h : s.Canonical) : (s.fillTag frame).2.Canonical := .stnTag <| .nextSeq h

theorem txSend {i} (h : s.Canonical) : (s.txSend i).Canonical := by
  unfold State.txSend
  split
  split
  next _ _ s₁ heq =>
  have h₁ : s₁.Canonical := .ofSnd2 heq <| .fetch h
  split
  next _ _ s₂ heq =>
  have h₂ : s₂.Canonical := .ofSnd2 heq <| .fetch h₁
  split
  next _ s₃ heq =>
  have h₃ : s₃.Canonical := .ofSnd heq <| .iteSnd (.fillTag h₂) h₂
  exact .when (.upd <| .ite (.sendFrame h₃) <| .ite (.emit h₃) h₃) .kxStart

theorem txDrain {fuel} (h : s.Canonical) : (s.txDrain fuel).Canonical := by
  induction fuel generalizing s with
  | zero => exact h
  | succ k ih =>
    unfold State.txDrain
    split
    · exact h
    · exact .ite (ih <| .txSend h) <| .ite (ih <| .txSend <| .event <| .bump h) h

theorem txMove (h : s.Canonical) : s.txMove.Canonical := .showHead <| .txDrain h

theorem txPost {i} (h : s.Canonical) : (s.txPost i).Canonical :=
  .ite (.txMove <| .upd <| .freshSent h) <| .showHead <| .upd <| .freshSent h

theorem timedSend (h : s.Canonical) : s.timedSend.Canonical := by
  unfold State.timedSend
  split
  · exact h
  · exact .ite (.txMove <| .sendLater <| .txSend <| .reach <| .freshSent h) h

theorem toRing {f} (h : s.Canonical) : (s.toRing f).Canonical := .ite (.event <| .bump h) <| .event <| .set <| .write h

theorem streamChunk (h : s.Canonical) : s.streamChunk.Canonical := by
  unfold State.streamChunk
  split
  · exact h
  · exact .ite (.bump <| .upd <| .freshSent h) <| .foldl (.fetch <| .upd <|
      .freshSent h) fun _ _ h' => .sendEtolwick h'

theorem stnClear (h : s.Canonical) : s.stnClear.Canonical := .set <| .foldl h fun _ _ h' => .setReg h'
theorem stnLink {p up} (h : s.Canonical) : (s.stnLink p up).Canonical := .event <| .set h

/-! Canonical memory: reset, boot and the supervisor (05_reset_boot.md). -/

theorem noteReset {n} (h : s.Canonical) : (s.noteReset n).Canonical := .bump <| .set <| .set h

theorem deviceReset {n phase role} (h : s.Canonical) : (s.deviceReset n phase role).Canonical :=
  .noteReset <| .set <| .kept h

theorem powerOn {pins} (h : s.Canonical) : (s.powerOn pins).Canonical := .kept h

theorem leaveReset (h : s.Canonical) : s.leaveReset.Canonical := .ite (.upd h) h

theorem identity {healthFailures} (h : s.Canonical) : (s.identity healthFailures).Canonical :=
  .ite (.ite h <| .set h) <| by
      dsimp only
      split
      · exact .event <| .set h
      · exact .ite (.event <| .set h) <| .set <| .program <| .program <| .drawScalar h

theorem loadBody {c why} (h : s.Canonical) : (s.loadBody c why).Canonical := .ite (.setBytes h) h
theorem reject {i why} (h : s.Canonical) : (s.reject i why).Canonical := .set h

theorem readHeader {i} (h : s.Canonical) : (s.readHeader i).Canonical := by
  unfold State.readHeader
  split
  · exact .reject h
  · exact .reject h

theorem recover (h : s.Canonical) : s.recover.Canonical := .upd <| .set <| .set h
theorem noSlot (h : s.Canonical) : s.noSlot.Canonical := .ite (.upd h) <| .recover h

theorem chooseSource (h : s.Canonical) : s.chooseSource.Canonical :=
  .ite (.ite (.upd <| .reject <| .reject h) <| .recover <| .reject <| .reject h) <| .ite (.noSlot <| .reject <|
    .reject <| .reject <| .reject h) <| .upd <| .set <| .readHeader <| .readHeader <| .reject <| .reject h

theorem cellUp (h : s.Canonical) : s.cellUp.Canonical :=
  .foldl (.foldl h fun _ _ h1 => .set <| .set h1) fun _ _ h1 => .set <| .set <| .set h1

theorem romStart {healthFailures} (h : s.Canonical) : (s.romStart healthFailures).Canonical := by
  unfold State.romStart
  exact .chooseSource <| .ite (.cellUp <| .identity <| .kept h) <| .set <| .identity <| .kept h

theorem showRole {strap} (h : s.Canonical) : (s.showRole strap).Canonical := .set <| .set h
theorem restart {n} (h : s.Canonical) : (s.restart n).Canonical := .romStart <| .showRole <| .deviceReset h

theorem loadBoard {board} (h : s.Canonical) : (s.loadBoard board).Canonical :=
  .forUpTo (.upd h) fun _ _ h1 => .ite (.forUpTo (.set <| .set h1) fun _ _ h2 => .eqClip <| .upd <| .setReg h2) <|
    .set h1

theorem clocksUp (h : s.Canonical) : s.clocksUp.Canonical :=
  .ite h <| .foldl (.set <| .set <| .set <| .set <| .set h) fun _ _ h' => .set <| .set <| .set <| .set h'

theorem jump {c src board} (h : s.Canonical) : (s.jump c src board).Canonical :=
  .upd <| .clocksUp <| .loadBoard <| .set <| .setReg <| .setReg <| .setReg <| .setReg <| .set <| .set <| .set h

theorem bootSlot {i} (h : s.Canonical) : (s.bootSlot i).Canonical := .jump <| .reject h

theorem checkSlot (h : s.Canonical) : s.checkSlot.Canonical := by
  unfold State.checkSlot
  split
  · exact h
  · exact .ite (.bootSlot <| .loadBody h) <| .ite (.noSlot <| .reject <| .loadBody h) <| .upd <| .reject <|
      .loadBody h

theorem bootRetry (h : s.Canonical) : s.bootRetry.Canonical := .ite (.romStart <| .upd h) h

theorem ownerTry {i next} (h : s.Canonical) (hn : ∀ t : State, t.Canonical → (next t).Canonical) :
    (s.ownerTry i next).Canonical := by
  unfold State.ownerTry
  split
  · exact hn s h
  · exact .ite (.bootSlot <| .programOwner <| .loadBody h) <| hn _ <| .reject <| .loadBody h

theorem takeOwner (h : s.Canonical) : s.takeOwner.Canonical := .ownerTry h fun _ h1 => .ownerTry h1 fun _ h2 => h2

theorem treeCheck {u c} (h : s.Canonical) : (s.treeCheck u c).Canonical :=
  .ite (.jump <| .when (.loadBody h) .programOwner) <| .upd <| .loadBody h

theorem eclaim (h : s.Canonical) : s.eclaim.2.Canonical := by
  unfold State.eclaim
  split
  · exact .upd h
  · exact h

theorem ecomplete {w} (h : s.Canonical) : (s.ecomplete w).Canonical := .upd h

theorem nmiReturn (h : s.Canonical) : s.nmiReturn.Canonical := .ite h <| by
      dsimp only
      split
      · exact .nmiEnter <| .set <| .set <| .upd h
      · exact .set <| .upd h

theorem wdtStart (h : s.Canonical) : s.wdtStart.Canonical := .upd <| .set h
theorem wdtGrace (h : s.Canonical) : s.wdtGrace.Canonical := .upd <| .set h

theorem wdtKick {w} (h : s.Canonical) : (s.wdtKick w).Canonical :=
  .ite (.upd h) <| .ite (.wdtStart <| .upd h) <| .bump <| .upd h

theorem presWindow (h : s.Canonical) : s.presWindow.Canonical := .upd <| .event h

/-! Canonical memory: presence, seal, records and OTP (06_presence_security.md). -/

theorem presClose (h : s.Canonical) : s.presClose.Canonical := .ite (.upd <| .event h) h
theorem press (h : s.Canonical) : s.press.Canonical := .ite (.presWindow <| .upd <| .upd h) <| .upd h
theorem presRelease (h : s.Canonical) : s.presRelease.Canonical := .upd h

theorem sealOpened (h : s.Canonical) : s.sealOpened.Canonical := by
  unfold State.sealOpened
  extract_lets s₁ s₂
  have h₁ : s₁.Canonical := .errArrive <| .event h
  have h₂ : s₂.Canonical := .setReg <| .setReg h₁
  exact .ite (.program h₂) h₂

theorem sealCompare {v} (h : s.Canonical) : (s.sealCompare v).Canonical :=
  .ite (.when (.upd <| .upd <| .upd h) .sealOpened) <| .ite (.upd <| .upd <| .upd h) <| .upd <| .upd h

theorem attGo (h : s.Canonical) : s.attGo.Canonical :=
  .ite (.accessErr h) <| .upd <| .arrive <| .set <| .free <| .free h

theorem attDone (h : s.Canonical) : s.attDone.Canonical :=
  .upd <| .event <| .hwDone <| .set <| .forUpTo (.drawScalar h) fun _ _ h' => .setReg h'

theorem recGo {job} (h : s.Canonical) : (s.recGo job).Canonical :=
  .ite (.accessErr h) <| .upd <| .arrive <| .set <| .free <| .free h

theorem recResult {r ok} (h : s.Canonical) : (s.recResult r ok).Canonical := .upd <| .event <| .hwDone <| .set <| .set h

theorem recLoad {c pairings} (h : s.Canonical) : (s.recLoad c pairings).Canonical :=
  .forUpTo (.when (.forUpTo h fun _ _ h1 => .setReg <| .setReg <|
    .setReg h1) fun h1 => .forUpTo h1 fun _ _ h2 => .setReg <| .setReg h2) fun _ _ h1 => .ite (.setBerth h1) h1

theorem recRestore (h : s.Canonical) : s.recRestore.Canonical := by
  unfold State.recRestore
  extract_lets
  split
  next _ _ s₁ heq =>
  have h₁ : s₁.Canonical := .ofSnd2 heq <| .fetch h
  extract_lets
  exact .ite (by
        split
        next _ s₂ heq =>
        have h₂ : s₂.Canonical := .ofSnd heq <| .free h₁
        exact .recResult h₂) <| .ite (.recResult h₁) <| by
      split
      next _ _ s₂ heq =>
      have h₂ : s₂.Canonical := .ofSnd2 heq <| .fetch h₁
      extract_lets
      exact .ite (by
            split
            next _ s₃ heq =>
            have h₃ : s₃.Canonical := .ofSnd heq <| .free h₂
            exact .recResult h₃) <| .ite (.recResult h₂) <| .ite (.recResult h₂) <| .recResult <| .recLoad h₂

theorem recExport (h : s.Canonical) : s.recExport.Canonical := .ite (.recResult <| .write h) <| .recResult <| .free h

theorem recDone (h : s.Canonical) : s.recDone.Canonical := by
  unfold State.recDone
  split
  · exact h
  · exact .recExport h
  · exact .recRestore h

theorem otpGo (h : s.Canonical) : s.otpGo.Canonical :=
  .ite (.accessErr h) <| .ite (.upd <| .set <| .set h) <| .accessErr <| .set h

theorem otpDone (h : s.Canonical) : s.otpDone.Canonical := by
  unfold State.otpDone
  split
  · exact h
  · exact .upd <| .set <| .set <| .program h

theorem dbgUnlock (h : s.Canonical) : s.dbgUnlock.Canonical := .errArrive <| .bump <| .set <| .set h
theorem dbgRelock (h : s.Canonical) : s.dbgRelock.Canonical := .set h
theorem ownRevoke {marks} (h : s.Canonical) : (s.ownRevoke marks).Canonical := .ite (.restart <| .revokeOwner h) h
theorem arbSet {v} (h : s.Canonical) : (s.arbSet v).Canonical := .ite (.program <| .program h) <| .accessErr h

/-! Canonical memory: what the write of a register starts (03_register_pages.md). -/

theorem keep {w mask} (h : s.Canonical) : (s.keep w mask).Canonical := .setReg h
theorem keepIf {w c} (h : s.Canonical) : (s.keepIf w c).Canonical := .ite (.keep h) <| .accessErr h

theorem hookClkSrc {w} (h : s.Canonical) : (s.hookClkSrc w).Canonical := by
  unfold State.hookClkSrc
  extract_lets _ _ _ s₁ s₂ _ s₃
  have h₁ : s₁.Canonical := .when h .accessErr
  have h₂ : s₂.Canonical := .set <| .set <| .set <| .keep h₁
  have h₃ : s₃.Canonical := .ite (.upd h₂) h₂
  exact .ite (.spllRefCheck h₃) <| .set h₃

theorem hookClkFail {w} (h : s.Canonical) : (s.hookClkFail w).Canonical := .forUpTo h fun _ _ h' => .ite (.set h') h'

theorem hookClk {w} (h : s.Canonical) : (s.hookClk w).Canonical :=
  .ite (.hookClkSrc h) <| .ite (.domWrite h) <| .ite (.hookClkFail h) h

theorem hookSec {w} (h : s.Canonical) : (s.hookSec w).Canonical :=
  .ite (.when h .presClose) <| .ite (.when h .ownRevoke) <| .ite (.when h .attGo) <| .ite (.ite (.recGo h) <|
    .ite (.recGo h) h) h

theorem hookBoot {w} (h : s.Canonical) : (s.hookBoot w).Canonical :=
  .ite (.when h .bootRetry) <| .ite (.ite h <| .arbSet h) h

theorem hookCpu {w} (h : s.Canonical) : (s.hookCpu w).Canonical :=
  .ite (.when h .nmiReturn) <| .ite (.wdtKick h) <| .ite (.when h .restart) <| .ite (.ecomplete h) h

theorem hookErr {w} (h : s.Canonical) : (s.hookErr w).Canonical :=
  .ite (.when (.when h .errPop) .errAck) <| .ite (.errSwlog h) <| .ite (.when (.when h .slockOpen) .slockClose) h

theorem hookSched {w} (h : s.Canonical) : (s.hookSched w).Canonical :=
  .ite (.upd h) <| .ite (.when h .submit) <| .ite (.schgCancel h) <| .ite (.schgDone h) <| .ite (.when h .schqFlush) h

theorem hookTime {w} (h : s.Canonical) : (s.hookTime w).Canonical :=
  .ite (.when h fun h' => .ite (.enterHold h') <| .leaveHold h') <| .ite (.incRequest h) <| .ite (.ite (.event h) <|
    .ite (.requestJump h) <| .ite (.requestJump h) h) <| .ite (.resumeHeld <| .meridiansStop <| .ite (.keep h) <|
      .accessErr <| .set <| .keep h) h

theorem hookStn {w} (h : s.Canonical) : (s.hookStn w).Canonical :=
  .ite (.when (.when h fun h' => .kxStart <| .freshSent h') .stnClear) <| .ite (.when h .txPost) h

theorem hookTwin {w} (h : s.Canonical) : (s.hookTwin w).Canonical := .ite (.keepIf h) <| .ite (.keepIf h) h

theorem hookHost {w} (h : s.Canonical) : (s.hookHost w).Canonical :=
  .ite (.ite (.upd <| .set <| .set h) <| .set <| .set h) <| .ite (.ite h <| .upd <| .set <| .set h) <|
    .ite (.when (.when h .dbgUnlock) .dbgRelock) h

theorem hookLane {w} (h : s.Canonical) : (s.hookLane w).Canonical :=
  .ite (.when (.when (.when (.keep h) .set) .scanAbort) fun h' => .accessErr <| .set h') <| .ite (.lanePwr h) <|
    .ite (.when h .eyeScan) <| .ite (.when (.when (.when (.when h .prbsStart) .set) .prbsInj) .prbsClr) h

theorem hookBoard {w data} (h : s.Canonical) : (s.hookBoard w data).Canonical :=
  .forUpTo h fun _ _ h' => .ite (.setWindow h') <| .ite (.setWindow h') h'

theorem searchGo {p} (h : s.Canonical) : (s.searchGo p).Canonical := .ite (.accessErr h) <| .ite (.searchStart h) h

theorem hookBerth {w} (h : s.Canonical) : (s.hookBerth w).Canonical :=
  .ite (.when (.when (.when h .berthRd) .berthWr) .berthClr) <| .ite (.when h .searchGo) h

theorem hookCtl {w} (h : s.Canonical) : (s.hookCtl w).Canonical :=
  .ite (.when (.keepIf h) fun h' => .setValid <| .setValid h') <| .ite (.when h .pgmLoad) <|
    .ite (.ite (.accessErr h) <| .when (.when h .hoGo) .hoAbort) <| .ite (.sigQueue h) h

theorem hookChain {w} (h : s.Canonical) : (s.hookChain w).Canonical :=
  .ite (.chainQueue h) <| .ite (.when h .chainRead) h

theorem hookRcu {w} (h : s.Canonical) : (s.hookRcu w).Canonical := .ite (.keepIf h) <| .ite (.when h .rcuClear) h

theorem hookSup {w} (h : s.Canonical) : (s.hookSup w).Canonical :=
  .ite (.setFe h) <| .ite (.setFe h) <| .ite (.setFe h) <| .ite (.when (.when h .injGo) .injStopCmd) <|
    .ite (.when h .frGo) h

theorem hookMod {w} (h : s.Canonical) : (s.hookMod w).Canonical := .ite (.when h .modeGo) <| .ite (.when h .pcmdGo) h

theorem hookRank {w} (h : s.Canonical) : (s.hookRank w).Canonical :=
  .ite (.when (.when (.when (.when h .rankRd) .rankWr) .rankSetc) .rankSetv) h

theorem hookRec {w} (h : s.Canonical) : (s.hookRec w).Canonical :=
  .ite (.when (.when (.when h .recForce) .recRel) .recRelAll) <| .ite (.keepIf h) <| .ite (.setTrig h) <|
    .ite (.when h .bbRearm) h

theorem hookMon {w} (h : s.Canonical) : (s.hookMon w).Canonical :=
  .ite (.when h .monSnap) <| .ite (.monClear h) <| .ite (.when h .set) <| .ite (.when h .ltLoad) h

theorem hookTev {w} (h : s.Canonical) : (s.hookTev w).Canonical :=
  .ite (.keepIf h) <| .when (.ite (.when h .accessErr) <| .when (.set <| .set h) .tevArm) .tevDisarm

theorem hookGate {w} (h : s.Canonical) : (s.hookGate w).Canonical :=
  .ite (.keepIf h) <| .ite (.when h .gateClear) <| .ite (.hookTev h) h

theorem hookSafe {w} (h : s.Canonical) : (s.hookSafe w).Canonical :=
  .ite (.hubCommand h) <| .ite (.when h .hubDeblockOne) <| .ite (.cellCommand h) h

theorem hookGpio {w} (h : s.Canonical) : (s.hookGpio w).Canonical :=
  .ite (.when (.gpioFnSet h) .uartNext) <| .ite (.uartPut h) <| .ite (.when (.uartStops h) .uartNext) h

theorem hook {w} (h : s.Canonical) : (s.hook w).Canonical :=
  .ite (.when h .moorLanes) <| .ite (.hookClk h) <| .ite (.ite (.keepIf h) h) <| .ite (.hookSec h) <|
    .ite (.when h .otpGo) <| .ite (.hookBoot h) <| .ite (.hookCpu h) <| .ite (.hookErr h) <| .ite (.hookSched h) <|
      .ite (.hookTime h) <| .ite (.hookStn h) <| .ite (.hookTwin h) <| .ite (.hookHost h) <| .ite (.hookLane h) <|
        .ite (.when h .mailboxGo) <| .ite (.hookBerth h) <| .ite (.hookCtl h) <| .ite (.hookChain h) <|
          .ite (.hookRcu h) <| .ite (.hookSup h) <| .ite (.hookMod h) <| .ite (.hookRank h) <| .ite (.hookRec h) <|
            .ite (.hookMon h) <| .ite (.ite (.keepIf h) h) <| .ite (.hookGate h) <| .ite (.hookSafe h) <|
              .ite (.hookGpio h) h

/-! Canonical memory: an access to the register space (03_register_pages.md). -/

theorem pageError {pg} (h : s.Canonical) : (s.pageError pg).Canonical := .ite (.event <| .set h) h

theorem memRead {req pg a} (h : s.Canonical) : (s.memRead req pg a).2.2.Canonical :=
  .iteSnd2 (.pageError <| .fetch h) <| .fetch h

theorem freeField {f m w} (h : s.Canonical) : (s.freeField f m w).2.2.Canonical := .free h

theorem readReg {path addr} (h : s.Canonical) : (s.readReg path addr).2.2.Canonical :=
  .iteSnd2 h <| .iteSnd2 (.latchNow h) <| .iteSnd2 (.popTs h) <| .iteSnd2 (.popTs h) <| .iteSnd2 (.uartGet h) <|
    .iteSnd2 (by
        unfold State.schgTake
        split
        · exact h
        · dsimp only
          split
          · exact .upd h
          · exact .setReg <| .setReg <| .setReg <| .setReg <| .upd h) <| .iteSnd2 (.eclaim h) <|
              .iteSnd2 (.when h .prbsClr) <| .iteSnd2 (.set <| .set <| .setReg <| .setReg h) <|
                .iteSnd2 (.memRead h) <| .iteSnd2 (.memRead h) <| .iteSnd2 (.freeField h) h

theorem readAt {path addr} (h : s.Canonical) : (s.readAt path addr).2.2.Canonical :=
  .iteSnd2 h <| .iteSnd2 (.pageError h) <| .readReg h

theorem clearPage {pg} (h : s.Canonical) : (s.clearPage pg).Canonical :=
  .ite (.set <| .set <| .upd <| .upd h) <| .upd <| .upd h

theorem resetUplink {u} (h : s.Canonical) : (s.resetUplink u).Canonical := .upd h
theorem resetRefLink (h : s.Canonical) : s.resetRefLink.Canonical := .upd h

theorem resetBlockLow {pg} (h : s.Canonical) : (s.resetBlockLow pg).Canonical :=
  .ite (.upd h) <| .ite (.upd h) <| .ite (.upd h) <| .ite (.moorLanes h) <| .ite (.upd h) <| .ite (.wdtStart <|
    .upd h) <| .ite (.upd h) <| .ite (.upd h) <| .ite (.upd h) <| .ite (.upd <| .dropItems h) <| .ite (.upd h) <|
      .ite (.upd h) <| .ite (.upd <| .resetRefLink h) h

theorem resetBlockHigh {pg} (h : s.Canonical) : (s.resetBlockHigh pg).Canonical :=
  .ite (.setLane h) <| .ite (.ite (.setPort h) <| .resetUplink h) <| .ite (.upd h) <| .ite (.upd h) <|
    .ite (.upd h) <| .ite (.upd h) <| .ite (.upd h) <| .ite (.upd h) <| .ite (.upd h) <| .ite (.upd h) <|
      .ite (.upd h) <| .ite (.upd h) <| .ite (.upd h) <| .ite (.upd h) <| .ite (.ite (.upd h) <| .upd h) <|
        .ite (.upd h) <| .ite (.upd h) h

theorem pageOff {pg} (h : s.Canonical) : (s.pageOff pg).Canonical := .ite h <| by
      extract_lets _ s₁ s₂
      have h₁ : s₁.Canonical := .ite (.upd h) h
      have h₂ : s₂.Canonical := .applyWaitingJump h₁
      exact .ite (.upd h₂) <| .ite (.laneDisable h₁) <| .ite (.berthDisabled h₁) <| .ite (.engStop h₁) <|
        .ite (.frStop h₁) <| .ite (.when h₁ .recStop) <| .ite (.when h₁ .gateStop) h₁

theorem pageOn {pg} (h : s.Canonical) : (s.pageOn pg).Canonical :=
  .ite (.laneEnable h) <| .ite (.when h .portEnabled) <| .ite (.upd h) <| .ite (.when h .listenAfresh) <|
    .ite (.ite (.recStart h) <| .bbStart h) <| .ite (.when h .gateResume) h

theorem pageReset {pg} (h : s.Canonical) : (s.pageReset pg).Canonical :=
  .ite (.timebaseChanged <| .resetTimeUnit <| .clearPage <| .when h .pageOff) <| .ite (.resetBlockLow <| .clearPage <|
    .when h .pageOff) <| .resetBlockHigh <| .clearPage <| .when h .pageOff

theorem ctrlWrite {pg v} (h : s.Canonical) : (s.ctrlWrite pg v).Canonical :=
  .ite (.resumeHeld <| .pageReset h) <| .resumeHeld <| .ite (.pageOff <| .setReg h) <| .ite (.pageOn <| .setReg h) <|
    .setReg h

theorem headerWrite {addr v} (h : s.Canonical) : (s.headerWrite addr v).Canonical := by
  unfold State.headerWrite
  extract_lets
  split
  · exact .ctrlWrite h
  · exact .when h .set
  · exact .setReg h
  · exact .setReg h
  · exact .setReg h
  · exact .when h .commitRequest
  · exact .when h .set
  · exact h

theorem refusals {pg m} (h : s.Canonical) : (s.refusals pg m).Canonical :=
  .when (.when h fun h1 => .set <| .bump <| .event h1) fun h1 => .set <| .event h1

theorem writeActs {d w data} (h : s.Canonical) : (s.writeActs d w data).Canonical := by
  unfold State.writeActs
  extract_lets _ _ _ _ s₁ _ _ s₂
  have h₁ : s₁.Canonical := .when h .accessErr
  have h₂ : s₂.Canonical := .ite h₁ <| .setReg h₁
  exact .ite (.accessErr h) <| .ite (.hookBoard h₂) <| .hook h₂

theorem writeReg {path addr data} (h : s.Canonical) : (s.writeReg path addr data).2.Canonical := by
  unfold State.writeReg
  extract_lets
  split
  · exact h
  · extract_lets _ _ _ s₁ s₂ s₃
    have h₁ : s₁.Canonical := .refusals h
    have h₂ : s₂.Canonical := .upd h₁
    have h₃ : s₃.Canonical := .writeActs h₂
    exact .iteSnd (.set h₃) h₃

theorem writeAt {path addr data} (h : s.Canonical) : (s.writeAt path addr data).2.Canonical :=
  .iteSnd (.headerWrite h) <| .iteSnd (.pageError h) <| .writeReg h

theorem answerAccess {path addr code data isStore} (h : s.Canonical) :
    (s.answerAccess path addr code data isStore).Canonical := .upd <| .ite (.cpuFault h) h

theorem readWords {path addr n} (h : s.Canonical) : (s.readWords path addr n).2.2.Canonical := by
  induction n generalizing s addr with
  | zero => exact h
  | succ n ih => exact .iteSnd2 (.readAt h) <| ih <| .readAt h

theorem writeWords {path addr ws} (h : s.Canonical) : (s.writeWords path addr ws).2.2.Canonical := by
  induction ws generalizing s addr with
  | nil => exact h
  | cons w ws ih => exact .iteSnd2 (.writeAt h) <| ih <| .writeAt h

theorem burstRead {path addr n} (h : s.Canonical) : (s.burstRead path addr n).2.2.2.Canonical :=
  .iteSnd3 (.pageError h) <| .readWords h

theorem burstWrite {path addr ws} (h : s.Canonical) : (s.burstWrite path addr ws).2.2.Canonical :=
  .iteSnd2 (.pageError h) <| .writeWords h

theorem masked {path addr mask data} (h : s.Canonical) : (s.masked path addr mask data).2.Canonical :=
  .iteSnd (.pageError h) <| .writeAt h

theorem writeCmd {path bytes addr data} (h : s.Canonical) : (s.writeCmd path bytes addr data).Canonical :=
  .ite (.supStore h) <| .answerAccess <| .iteSnd (.pageError h) <| .writeAt h

theorem readCmd {path addr} (h : s.Canonical) : (s.readCmd path addr).Canonical := .answerAccess <| .burstRead h

theorem maskedCmd {path addr mask data} (h : s.Canonical) : (s.maskedCmd path addr mask data).Canonical :=
  .answerAccess <| .masked h

theorem abortedWrite {addr data} (h : s.Canonical) : (s.abortedWrite addr data).Canonical := by
  unfold State.abortedWrite
  split
  · exact h
  · exact .setReg <| .free h

theorem abortAccess {pg x} (h : s.Canonical) : (s.abortAccess pg x).Canonical :=
  .ite h <| .answerAccess <| .pageError <| by
      split
      · exact .abortedWrite h
      · exact h

end Sys2Proof.Machine.State.Canonical
end

section
/-! PROOFS. Memory in its canonical form through what a cell and a hub do with frames and meridians, and the host port:
one rule per function of the model, in the order of the model. -/

namespace Sys2Proof.Machine.State.Canonical

variable {s : State}

/-! Canonical memory: cycle frames and their records at a cell (09_tree_frames.md). -/

theorem keepBase {u b} (h : s.Canonical) : (s.keepBase u b).Canonical := .setUplink h

theorem followBase {b} (h : s.Canonical) : (s.followBase b).Canonical :=
  .set <| .upd <| .set <| .upd <| .setReg <| .upd <| .setReg <| .upd <| .setReg <| .upd <| .setReg <| .upd <|
    .setReg h

theorem setCycle {k} (h : s.Canonical) : (s.setCycle k).Canonical := .upd <| .set <| .setReg h
theorem correctBy {d} (h : s.Canonical) : (s.correctBy d).Canonical := .ite h <| .upd h

theorem correctTime {u k stamp b} (h : s.Canonical) : (s.correctTime u k stamp b).Canonical := by
  unfold State.correctTime
  extract_lets _ _ s₁ s₂ _ s₃ s₄ _ _ _ _ s₅
  have h₁ : s₁.Canonical := .setReg <| .leaveHold h
  have h₂ : s₂.Canonical := .monitor h₁
  have h₃ : s₃.Canonical := .correctBy <| .upd h₂
  have h₄ : s₄.Canonical := .set <| .bump h₂
  have h₅ : s₅.Canonical := .upd h₄
  exact .ite (.set h₃) <| .ite (.upd h₄) <| .ite h₅ <| .event <| .correctBy h₅

theorem rejected {n} (h : s.Canonical) : (s.rejected n).Canonical := .bump h
theorem swapErr (h : s.Canonical) : s.swapErr.Canonical := .evFlag <| .bump h

theorem queueEvent {b t seq off a q} (h : s.Canonical) : (s.queueEvent b t seq off a q).Canonical :=
  .ite (.count h) <| .ite (.evFlag <| .bump h) <| .ite (.rejected h) <| by
      split
      · exact .ite (.bump h) <| .upd <| .bump h
      · exact .ite (.evFlag <| .bump h) <| .upd h

theorem singleWord {b t q w} (h : s.Canonical) : (s.singleWord b t q w).Canonical := by
  unfold State.singleWord
  dsimp only
  split
  · exact .ite (.rejected h) <| .queueEvent h
  · exact .ite (.rejected h) <| .queueEvent h
  · exact .ite (.ite (.rejected h) <| .queueEvent h) <| .rejected h
  · exact .queueEvent h
  · exact .queueEvent h
  · exact .queueEvent h
  · exact .rejected h

theorem trimPair {b t q own w x} (h : s.Canonical) : (s.trimPair b t q own w x).Canonical :=
  .ite (.ite (.queueEvent h) <| .rejected h) <| .ite (.rejected h) h

theorem swapPair {b t q own w x} (h : s.Canonical) : (s.swapPair b t q own w x).Canonical :=
  .ite h <| .ite (.rejected h) <| .ite (.swapErr h) <| .ite (.rejected h) <| .queueEvent h

theorem takeWords {b t q own l} (h : s.Canonical) : (s.takeWords b t q own l).Canonical := by
  fun_induction State.takeWords s b t q own l with
  | case1 => exact h
  | case2 => exact h
  | case3 => exact .rejected h
  | case4 => exact .swapErr h
  | case5 => exact .singleWord h
  | case6 s w x l _ ih => exact ih (.trimPair h)
  | case7 s w x l _ _ ih => exact ih (.swapPair h)
  | case8 s w x l _ _ ih => exact ih (.ite (.singleWord h) h)

theorem holdEnds (h : s.Canonical) : s.holdEnds.Canonical := by
  unfold State.holdEnds
  split
  · exact .upd h
  · exact h

theorem holdBegins (h : s.Canonical) : s.holdBegins.Canonical := by
  unfold State.holdBegins
  split
  · exact h
  · exact .upd h

theorem storeRefs {f t} (h : s.Canonical) : (s.storeRefs f t).Canonical :=
  .epochSeen <| .upd <| .foldl h fun _ _ h' => .setReg h'

theorem obey {u f b stamp q} (h : s.Canonical) : (s.obey u f b stamp q).Canonical := by
  unfold State.obey
  extract_lets _ _ s₁ s₂ s₃ s₄ s₅ _ _ s₆ s₇ s₈ _ s₉
  have h₁ : s₁.Canonical := .followBase <| .count h
  have h₂ : s₂.Canonical := .setReg <| .setReg h₁
  have h₃ : s₃.Canonical := .set <| .set <| .set h₂
  have h₄ : s₄.Canonical := .when h₃ fun h' => .set <| .setCycle h'
  have h₅ : s₅.Canonical := .set <| .holdEnds h₄
  have h₆ : s₆.Canonical := .upd h₅
  have h₇ : s₇.Canonical := .when h₆ .cellBlockNow
  have h₈ : s₈.Canonical := .monitorSel h₇
  have h₉ : s₉.Canonical := by
    unfold s₉
    split
    · exact h₈
    · extract_lets s₉
      have h₉ : s₉.Canonical := .takeWords <| .takeWords h₈
      exact .upd h₉
  exact .storeRefs h₉

theorem setWatch {u w} (h : s.Canonical) : (s.setWatch u w).Canonical := .upd <| .set h

theorem newerWatch {u w q} (h : s.Canonical) : (s.newerWatch u w q).Canonical := by
  unfold State.newerWatch
  extract_lets _ s₁ _ s₂ s₃
  have h₁ : s₁.Canonical := .setWatch h
  have h₂ : s₂.Canonical := .upd h₁
  have h₃ : s₃.Canonical := .bbWrite <| .event h₂
  exact .ite h₃ <| .set h₃

theorem decide' {u f b stamp q} (h : s.Canonical) : (s.decide' u f b stamp q).Canonical :=
  .ite (.obey <| .newerWatch h) <| .ite (.obey h) <| .ite (.bump h) <| .ite (.event <| .bump h) <| .bump h

theorem grantSlot {u m rb} (h : s.Canonical) : (s.grantSlot u m rb).Canonical := .ite h <| .setUplink h
theorem moveReport {u r rb} (h : s.Canonical) : (s.moveReport u r rb).Canonical := .ite h <| .setUplink h
theorem cutBurst {u} (h : s.Canonical) : (s.cutBurst u).Canonical := .ite (.setUplink h) h
theorem kill {u} (h : s.Canonical) : (s.kill u).Canonical := .ite h <| .event <| .set <| .cutBurst h

theorem ttEntry {u keyed e} (h : s.Canonical) : (s.ttEntry u keyed e).Canonical := by
  unfold State.ttEntry
  extract_lets
  split
  · exact .when h .grantSlot
  · exact .when h .moveReport
  · exact .when h .kill
  · exact h

theorem mqDrop {u} (h : s.Canonical) : (s.mqDrop u).Canonical := .bump h
theorem admissionGoesOn {u} (h : s.Canonical) : (s.admissionGoesOn u).Canonical := .ite (.setUplink h) h
theorem respond {u r} (h : s.Canonical) : (s.respond u r).Canonical := .admissionGoesOn <| .setUplink h

theorem withRoom {u berth f} (h : s.Canonical) (hf : s.Canonical → (f s).Canonical) : (s.withRoom u berth f).Canonical :=
  .ite h <| .ite (.mqDrop h) <| hf h

theorem recRd {u berth tid addr nw} (h : s.Canonical) : (s.recRd u berth tid addr nw).Canonical :=
  .withRoom h fun h' => .respond <| .burstRead h'

theorem recWr {u berth tid pres sealed addr ws} (h : s.Canonical) :
    (s.recWr u berth tid pres sealed addr ws).Canonical := .withRoom h fun h' => .respond <| .burstWrite h'

theorem recWrp {u pres sealed addr ws} (h : s.Canonical) : (s.recWrp u pres sealed addr ws).Canonical :=
  .ite (.burstWrite h) h

theorem recMwr {u berth tid pres sealed addr mask data} (h : s.Canonical) :
    (s.recMwr u berth tid pres sealed addr mask data).Canonical := .withRoom h fun h' => .respond <| .masked h'

theorem recDelay {u berth tid down up} (h : s.Canonical) : (s.recDelay u berth tid down up).Canonical :=
  .withRoom h fun h' => .respond <| .when (.set <| .set h') .windowMode

theorem admittedHere {u} (h : s.Canonical) : (s.admittedHere u).Canonical := .setReg <| .set <| .setUplink h

theorem recKey {u berth tid body} (h : s.Canonical) : (s.recKey u berth tid body).Canonical := .withRoom h fun h' => by
      dsimp only
      split
      · exact .respond h'
      · exact .respond <| .when (.setUplink h') .admittedHere

theorem recBeacon {u body} (h : s.Canonical) : (s.recBeacon u body).Canonical := .setUplink h

theorem recOffer {u port body} (h : s.Canonical) : (s.recOffer u port body).Canonical :=
  .ite h <| .ite h <| .setUplink h

theorem recRefuse {u body} (h : s.Canonical) : (s.recRefuse u body).Canonical :=
  .ite h <| .ite (.setUplink h) <| .setUplink <| .free h

theorem recRelight {u body} (h : s.Canonical) : (s.recRelight u body).Canonical := by
  unfold State.recRelight
  split
  · exact .when h .set
  · exact h

theorem hubAccepted {enrol id twin} (h : s.Canonical) : (s.hubAccepted enrol id twin).2.Canonical :=
  .iteSnd (.pair <| .addAnchor <| .addAnchor h) h

theorem attemptFailed {u} (h : s.Canonical) : (s.attemptFailed u).Canonical :=
  .ite (.setUplink <| .free h) <| .setUplink h

theorem recKxh {u berth tid body} (h : s.Canonical) : (s.recKxh u berth tid body).Canonical :=
  .ite h <| .ite (.mqDrop h) <| .ite (.ite h <| .attemptFailed h) <| .ite (.ite (.hubAccepted h) <| .attemptFailed <|
    .hubAccepted h) <| by
      dsimp only
      split
      · exact .ite (.drawScalar <| .hubAccepted h) <| .attemptFailed <| .drawScalar <| .hubAccepted h
      · exact .setUplink <| .admissionGoesOn <| .kxOwn <| .drawScalar <| .hubAccepted h

theorem recordRx {u active port r} (h : s.Canonical) : (s.recordRx u active port r).Canonical := .ite (.mqDrop h) <| by
      split
      · exact .when h .recRd
      · exact .ite h <| .ite (.mqDrop h) <| .recWr h
      · exact .ite h <| .ite (.mqDrop h) <| .recMwr h
      · exact .ite h <| .ite (.mqDrop h) <| .recWrp h
      · exact .recKey h
      · exact .recDelay h
      · exact h
      · exact .recOffer h
      · exact .recKxh h
      · exact .recRefuse h
      · exact .when h .recRelight
      · exact .recBeacon h

theorem imageRx {u f} (h : s.Canonical) : (s.imageRx u f).Canonical := .ite h <| .ite (.setUplink h) <| .setUplink h

theorem segmentRx {u f} (h : s.Canonical) : (s.segmentRx u f).Canonical :=
  .ite (.foldl h fun _ _ h' => .recordRx h') <| .when h .imageRx

theorem frameDrop {u c} (h : s.Canonical) : (s.frameDrop u c).Canonical := .evFlag <| .event <| .bump h

theorem frameUnkeyed {u f b stamp} (h : s.Canonical) : (s.frameUnkeyed u f b stamp).Canonical := by
  unfold State.frameUnkeyed
  extract_lets _ s₁ s₂ s₃ s₄
  have h₁ : s₁.Canonical := .setUplink h
  have h₂ : s₂.Canonical := .when h₁ .correctTime
  have h₃ : s₃.Canonical := .foldl h₂ fun _ _ h' => .ttEntry h'
  have h₄ : s₄.Canonical := .segmentRx h₃
  split
  · exact .ite (.setUplink h₄) h₄
  · exact h₄

theorem frameKeyed {u f b stamp q} (h : s.Canonical) : (s.frameKeyed u f b stamp q).Canonical :=
  .segmentRx <| .foldl (.when (.when (.ite (.upd <| .setWatch <| .count <| .setUplink h) <| .count <|
    .setUplink h) .correctTime) .decide') fun _ _ h' => .ttEntry h'

theorem countIrcFrame (h : s.Canonical) : s.countIrcFrame.Canonical := .upd h

theorem frameRx {u codeOk bs stamp q} (h : s.Canonical) : (s.frameRx u codeOk bs stamp q).Canonical := by
  unfold State.frameRx
  refine .ite (.frameDrop h) ?_
  split
  · exact .frameDrop h
  · extract_lets _ own base _ s₁ s₂ s₃
    clear_value own base
    have h₁ : s₁.Canonical := .when h .setUplink
    have h₂ : s₂.Canonical := by
      unfold s₂
      split
      · exact .keepBase h₁
      · exact h₁
    have h₃ : s₃.Canonical := .when h₂ .countIrcFrame
    split
    · exact .frameDrop h
    · exact .ite (.frameDrop h) <| .ite (.frameDrop h) <| .ite (.setUplink <| .frameDrop h) <|
        .ite (.frameKeyed h₃) <| .frameUnkeyed h₃

/-! Canonical memory: a cell's meridian and what it sends (09_tree_frames.md). -/

theorem cycleLost {k} (h : s.Canonical) : (s.cycleLost k).Canonical :=
  .when (.evFlag <| .bump h) fun h' => .bbWrite <| .event <| .holdBegins <| .set h'

theorem refsReach {k} (h : s.Canonical) : (s.refsReach k).Canonical := by
  unfold State.refsReach
  extract_lets
  split
  · exact .upd h
  · exact h

theorem cellCycle {k} (h : s.Canonical) : (s.cellCycle k).Canonical := by
  unfold State.cellCycle
  extract_lets _ s₁ s₂ _ s₃ s₄
  have h₁ : s₁.Canonical := .applyCommits <| .setCycle <| .carrierDue <| .reach h
  have h₂ : s₂.Canonical := .ite h₁ <| .cycleLost h₁
  have h₃ : s₃.Canonical := .upd h₂
  have h₄ : s₄.Canonical := by
    unfold s₄
    split
    · exact .ite (.epochApply h₃) h₃
    · exact h₃
  exact .holdsRelease <| .bitmapCheck <| .refsReach h₄

theorem limitReached (h : s.Canonical) : s.limitReached.Canonical :=
  .resumeHeld <| .set <| .upd <| .bbFreeze <| .bbWrite <| .evFlag <| .event <| .set <| .holdBegins <| .cellBlockNow <|
    .reach h

theorem degrees {c} (h : s.Canonical) : (s.degrees c).2.Canonical := .iteSnd (.rounded h) <| .free h

theorem windowBytes (h : s.Canonical) : s.windowBytes.2.Canonical :=
  .iteSnd h <| .rounded <| .rounded <| .rounded <| .rounded h

theorem tempBytes (h : s.Canonical) : s.tempBytes.2.Canonical := .iteSnd (.degrees <| .degrees h) <| .degrees h

theorem buildPayload (h : s.Canonical) : s.buildPayload.Canonical := by
  unfold State.buildPayload
  split
  next _ s₁ heq =>
  have h₁ : s₁.Canonical := .ofSnd heq <| .windowBytes h
  split
  next _ s₂ heq =>
  have h₂ : s₂.Canonical := .ofSnd heq <| .tempBytes h₁
  extract_lets _ _ _ _ _ s₃
  have h₃ : s₃.Canonical := .upd h₂
  exact .ite (.bbWrite <| .upd h₃) <| .upd h₃

theorem sendBurst {u bs} (h : s.Canonical) : (s.sendBurst u bs).Canonical := .setUplink h

theorem sessionStep {u k} (h : s.Canonical) : (s.sessionStep u k).Canonical := by
  unfold State.sessionStep
  extract_lets
  split
  · exact .ite (.setUplink h) h
  · exact h

theorem sendReport {u k} (h : s.Canonical) : (s.sendReport u k).Canonical := .sendBurst <| .sessionStep h

theorem sendManagement {u m n} (h : s.Canonical) : (s.sendManagement u m n).Canonical :=
  .ite (.setUplink <| .sessionStep h) <| by
      split
      · exact .setUplink <| .sessionStep h
      · exact .sendBurst <| .count <| .admissionGoesOn <| .setUplink <| .setUplink <| .sessionStep h

theorem sendBoarding {u n} (h : s.Canonical) : (s.sendBoarding u n).Canonical := .sendBurst <| .setUplink <| .free h
theorem sendRanging {u o t} (h : s.Canonical) : (s.sendRanging u o t).Canonical := .sendBurst <| .setUplink h
theorem rejoin {u} (h : s.Canonical) : (s.rejoin u).Canonical := .setUplink <| .set <| .set <| .setReg h

/-! Canonical memory: the meridian of a hub (08_time.md). -/

theorem markCycle {k} (h : s.Canonical) : (s.markCycle k).Canonical := .when h .upd

theorem reactB (h : s.Canonical) : s.reactB.Canonical := by
  unfold State.reactB
  split
  · exact .ite (.monitorSel <| .upd <| .set h) h
  · exact h

theorem unrestrict (h : s.Canonical) : s.unrestrict.Canonical := .foldl h fun _ _ h' => .autoDeblock <| .setBerth h'

theorem takeSnapshot {k t} (h : s.Canonical) : (s.takeSnapshot k t).Canonical :=
  .latchSnap <| .stationAngle <| .fuse <| .when h .spActivate

theorem twinCycle (h : s.Canonical) : s.twinCycle.Canonical := .upd h

theorem hubCycle {k} (h : s.Canonical) : (s.hubCycle k).Canonical :=
  .startWork <| .when (.unrestrict <| .holdsRelease <| .applyCommits <| .takeSnapshot <| .modeMeridian <|
    .markCycle <| .slackEnd <| .reactB <| .setCycle <| .launchAll <| .twinCycle <| .reach h) fun h' => .sliceSend <|
      .sendStatus <| .mirrorApply <| .mirrorGeometry h'

theorem idle (h : s.Canonical) : s.idle.Canonical :=
  .settle <| .when (.when (.tick h) fun h1 => .forUpTo h1 fun _ _ h2 => .prbsSend h2) .carrierDue

/-! Canonical memory: the host port (03_register_pages.md). -/

theorem respondHost {code index data} (h : s.Canonical) : (s.respondHost code index data).Canonical := .upd h
theorem hostCrc (h : s.Canonical) : s.hostCrc.Canonical := .upd <| .bump h

theorem hostTrans {cmd crc ready f} (h : s.Canonical) (hf : s.Canonical → (f s).2.2.2.Canonical) :
    (s.hostTrans cmd crc ready f).Canonical :=
  .ite (.hostCrc h) <| .ite (.respondHost h) <|
    .ite (.respondHost <| .upd <| .count <| hf h) <| .respondHost <| .upd <| .count <| hf h

theorem hostStatus {ready} (h : s.Canonical) : (s.hostStatus ready).Canonical := by
  unfold State.hostStatus
  extract_lets
  exact .ite (.respondHost <| .upd h) <| by
      split
      · exact .ite (by
              extract_lets s₁
              have h₁ : s₁.Canonical := .upd h
              exact .respondHost h₁) <| .respondHost h
      · exact .respondHost h

/-! Canonical memory: management requests of the station (22_station_interface.md). -/

theorem localRec {r} (h : s.Canonical) : (s.localRec r).2.Canonical := by
  unfold State.localRec
  split
  · exact .burstRead h
  · exact .masked h
  · exact .burstWrite h

theorem recAnswer {q n a} (h : s.Canonical) : (s.recAnswer q n a).Canonical := by
  unfold State.recAnswer
  split
  · exact .upd h
  · exact h

theorem startRec {q n r} (h : s.Canonical) : (s.startRec q n r).Canonical :=
  .ite (.recAnswer h) <| .ite (.recAnswer <| .localRec h) <| .ite (.recAnswer h) <| .ite (.recAnswer h) <| .arrive h

theorem takeRequest {src recs} (h : s.Canonical) : (s.takeRequest src recs).Canonical :=
  .ite (.bump h) <| .foldl (.upd <| .count h) fun _ _ h' => .startRec h'

end Sys2Proof.Machine.State.Canonical
end

section
/-! PROOFS. O53: a step keeps memory in its canonical form. -/

namespace Sys2Proof.Machine

open State

/-- The outcome is a next state whose memory is in its canonical form. -/
def NextCanonical (o : Out) : Prop := ∃ t, o = .next t ∧ t.Canonical

namespace NextCanonical

variable {s : State}

theorem next (h : s.Canonical) : NextCanonical (.next s) := ⟨s, rfl, h⟩

theorem act {c : Bool} {f : State → State} (h : s.Canonical) (hf : (f s).Canonical) : NextCanonical (act s c f) := by
  cases c
  · exact next h
  · exact next hf.settle

theorem ite {c : Prop} [Decidable c] {o p : Out} (ho : NextCanonical o) (hp : NextCanonical p) :
    NextCanonical (if c then o else p) := by
  split
  · exact ho
  · exact hp

theorem writeRow {path addr data} (h : s.Canonical) : NextCanonical (writeRow s path addr data) := act h (.writeCmd h)

theorem fieldRow {path f n} (h : s.Canonical) : NextCanonical (fieldRow s path f n) := writeRow h

theorem readRow {path addr} (h : s.Canonical) : NextCanonical (readRow s path addr) := act h (.readCmd h)

theorem goRow {path addr data bits} (h : s.Canonical) : NextCanonical (goRow s path addr data bits) := writeRow h

theorem runEvent {p : EvAct → Bool} {f : State → CellEvent → State} (h : s.Canonical)
    (hf : ∀ t e, t.Canonical → (f t e).Canonical) : NextCanonical (runEvent s p f) := by
  unfold Machine.runEvent
  split
  · exact act h <| hf _ _ <| .takeEvent <| .trimOver h
  · exact next h

/-! Commands that look a value up, or whose bodies share a part. -/

theorem treeContainerComplete (h : s.Canonical) : NextCanonical (execTreeContainerComplete s) := .act h <| by
      split
      · exact .treeCheck h
      · exact .treeCheck h
      · exact h

theorem gateTimeout {wait} (h : s.Canonical) : NextCanonical (execGateTimeout wait s) := .act h <| by
      dsimp only
      split
      · exact .abortAccess <| .closeGate <| .when h .lockBreak
      · exact .closeGate <| .when h .lockBreak

theorem gpioEdge {n level} (h : s.Canonical) : NextCanonical (execGpioEdge n level s) :=
  .act h <| .ite (.ite (.upd <| .event <| .set <| .upd h) <| .upd <| .event <| .set <| .upd h) <| .upd h

theorem bondUp {lidL4 lidL5 node skew} (h : s.Canonical) : NextCanonical (execBondUp lidL4 lidL5 node skew s) := by
  unfold Machine.execBondUp
  dsimp only
  exact .act h <| .ite (.twinLost <| .set <| .set <| .set h) <| .ite (.twinSend <| .kxOwn <| .holdByTwin <| .event <|
    .set <| .set <| .setLane <| .upd <| .drawScalar <| .set <| .set <| .set <| .set h) <| .holdByTwin <| .event <|
      .set <| .set <| .setLane <| .upd <| .drawScalar <| .set <| .set <| .set <| .set h

theorem pstateDone {lane} (h : s.Canonical) : NextCanonical (execPstateDone lane s) := .act h <| by
      split
      · dsimp only
        split
        · exact .ite (.laneGo <| .set <| .set <| .setLane <| .laneEnter h) <| .event <| .set <| .set <| .setLane <|
            .laneEnter h
        · exact .event <| .set <| .set <| .setLane <| .laneEnter h
      · exact h

theorem twinTimeExchange {offset} (h : s.Canonical) : NextCanonical (execTwinTimeExchange offset s) := by
  unfold Machine.execTwinTimeExchange
  refine .act h ?_
  extract_lets _ _ _ _ s₃ s₄ s₅
  have h₃ : s₃.Canonical := .holdByTwin <| .upd <| .setReg h
  have h₄ : s₄.Canonical := .ite h₃ <| .steer h₃
  have h₅ : s₅.Canonical := .ite h₄ <| .event <| .set h₄
  exact .ite (.set h₄) <| .ite (.ite h₅ <| .checkReady <| .set h₅) h₄

theorem holdoverEnter {cause} (h : s.Canonical) : NextCanonical (execHoldoverEnter cause s) := .act h <| by
      split
      · exact .ite (.enterHold h) h
      · exact .ite (.enterHold h) h
      · exact .holdByTwin h
      · exact .ite h <| .enterHold h

theorem payloadBuild (h : s.Canonical) : NextCanonical (execPayloadBuild s) := by
  unfold Machine.execPayloadBuild
  split
  · exact .act h <| .buildPayload <| .carrierDue <| .reach h
  · exact .next h

theorem reportBurstTx {uplink} (h : s.Canonical) : NextCanonical (execReportBurstTx uplink s) := by
  unfold Machine.execReportBurstTx
  split
  · exact .act h <| by
        split
        · exact .sendReport <| .carrierDue <| .reach h
        · exact h
  · exact .next h

theorem mgmtBurstTx {uplink} (h : s.Canonical) : NextCanonical (execMgmtBurstTx uplink s) := by
  unfold Machine.execMgmtBurstTx
  split
  · exact .act h <| .sendManagement <| .carrierDue <| .reach h
  · exact .next h

theorem eventTrim (h : s.Canonical) : NextCanonical (execEventTrim s) := .runEvent h fun _ _ h' => by
      split
      · exact .trimEvent h'
      · exact h'

theorem trimEnd (h : s.Canonical) : NextCanonical (execTrimEnd s) := by
  unfold Machine.execTrimEnd
  split
  · exact .act h <| .trimOver <| .reach h
  · exact .next h

theorem boardingBurstTx {uplink} (h : s.Canonical) :
    NextCanonical (execBoardingBurstTx uplink s) := by
  -- variables for the command and for the search of the launch, which the kernel would otherwise run on its fuel
  obtain ⟨f, hf⟩ : ∃ f, f = execBoardingBurstTx := ⟨_, rfl⟩
  rw [← hf]
  delta execBoardingBurstTx at hf
  subst hf
  obtain ⟨search, hsearch⟩ : ∃ g, g = @State.nextBy := ⟨_, rfl⟩
  rw [← hsearch]
  beta_reduce
  split
  · exact .act h <| .sendBoarding <| .carrierDue <| .reach h
  · exact .next h

theorem rangingBurstTx {uplink} (h : s.Canonical) : NextCanonical (execRangingBurstTx uplink s) := by
  unfold Machine.execRangingBurstTx
  split
  · split
    · exact .act h <| .sendRanging <| .carrierDue <| .reach h
    · exact .next h
  · exact .next h

theorem babblerSearchGo {start port} (h : s.Canonical) : NextCanonical (execBabblerSearchGo start port s) := by
  unfold Machine.execBabblerSearchGo
  split
  · exact .fieldRow h
  · exact .act h <| .searchStart h

theorem searchStep {port light} (h : s.Canonical) : NextCanonical (execSearchStep port light s) := by
  unfold Machine.execSearchStep
  split
  · exact .act h <| .searchObserve h
  · exact .next h

theorem stageB {ns} (h : s.Canonical) : NextCanonical (execStageB ns s) := by
  unfold Machine.execStageB
  split
  · exact .act h <| .stageDone <| .when h .stageB
  · exact .next h

theorem stageD {ns} (h : s.Canonical) : NextCanonical (execStageD ns s) := by
  unfold Machine.execStageD
  split
  · exact .act h <| .stageDone <| .when h .stageD
  · exact .next h

theorem stageE {ns} (h : s.Canonical) : NextCanonical (execStageE ns s) := by
  unfold Machine.execStageE
  split
  · exact .act h <| .recSample <| .stageDone <| .when h .stageE
  · exact .next h

theorem stageF {ns} (h : s.Canonical) : NextCanonical (execStageF ns s) := by
  unfold Machine.execStageF
  split
  · exact .act h <| .startWork <| .sliceCapture <| .monitorSel <| .stageF h
  · exact .next h

theorem carrierEpoch (h : s.Canonical) : NextCanonical (execCarrierEpoch s) := by
  unfold Machine.execCarrierEpoch
  split
  · exact .act h <| .epochApply <| .reach h
  · exact .next h

theorem carrierSample {peak} (h : s.Canonical) : NextCanonical (execCarrierSample peak s) := by
  unfold Machine.execCarrierSample
  split
  · exact .act h <| .ite (.carrierSample <| .carrierDue <| .reach h) <| .carrierDue <| .reach h
  · exact .next h

theorem cellEngineRun {peak lat} (h : s.Canonical) : NextCanonical (execCellEngineRun peak lat s) := .act h <| by
      split
      · exact .cellExecution <| .reach h
      · exact .cellExecution h

theorem comparatorAssert {run} (h : s.Canonical) : NextCanonical (execComparatorAssert run s) := by
  unfold Machine.execComparatorAssert
  exact .act h <| by
      dsimp only
      split
      · exact .faultSource <| .event <| .set <| .set h
      · exact .when (.event <| .set <| .set h) .permBypass
      · exact .faultSource <| .event <| .set <| .set h
      · exact .event <| .set <| .set h

theorem comparatorDeassert {back} (h : s.Canonical) : NextCanonical (execComparatorDeassert back s) := by
  unfold Machine.execComparatorDeassert
  exact .act h <| .upd <| .set h

theorem alatch {input} (h : s.Canonical) : NextCanonical (execAlatch input s) := by
  unfold Machine.execAlatch
  refine .act h ?_
  extract_lets s₁ _ s₂
  have h₁ : s₁.Canonical := .assertBit <| .setBlockPin h
  have h₂ : s₂.Canonical := .ite (.assertBit h₁) h₁
  split <;> exact .latchSource h₂

theorem refereeFrameTx {pair} (h : s.Canonical) : NextCanonical (execRefereeFrameTx pair s) := by
  unfold Machine.execRefereeFrameTx
  refine .act h ?_
  extract_lets s₁ _ _ s₂
  have h₁ : s₁.Canonical := by
    unfold s₁
    split
    · exact .reach h
    · exact h
  have h₂ : s₂.Canonical := .sendLink <| .sendLink <| .setRefPair h₁
  exact .ite h₂ <| .pairInterval h₂

theorem refHbRx {link frame} (h : s.Canonical) : NextCanonical (execRefHbRx link frame s) := .act h <| by
      split
      · exact h
      · exact .bump h
      · exact .bump h
      · exact .bump h
      · exact .linkHb <| .setRefLink h

theorem refereeKx {link frame} (h : s.Canonical) : NextCanonical (execRefereeKx link frame s) := .ite (.act h <| by
        split
        · exact .hubKx h
        · exact h
        · exact .bump h) <| .act h <| by
      split
      · exact .linkKx h
      · exact h
      · exact .bump h

theorem scrubVisit {upset} (h : s.Canonical) : NextCanonical (execScrubVisit upset s) := .act h <| .scrub <| .upd <| by
      split
      · exact .timerEnds h
      · exact h

theorem chunkStored (h : s.Canonical) : NextCanonical (execChunkStored s) := by
  unfold Machine.execChunkStored
  split
  · exact .act h <| .chunkStored h
  · exact .next h

theorem mgmtResponseTx {req} (h : s.Canonical) : NextCanonical (execMgmtResponseTx req s) := by
  unfold Machine.execMgmtResponseTx
  split
  · exact .act h <| .upd <| .sendEtolwick <| .freshSent h
  · exact .next h

theorem svFrameRx {frame} (h : s.Canonical) : NextCanonical (execSvFrameRx frame s) := by
  unfold Machine.execSvFrameRx
  split
  · exact .act h <| .stnRx h fun _ h' => .svFrame h'
  · exact .next h

theorem rxToRing {frame} (h : s.Canonical) : NextCanonical (execRxToRing frame s) := by
  unfold Machine.execRxToRing
  split
  · exact .act h <| .stnRx h fun _ h' => .toRing h'
  · exact .act h <| .stnRx h fun _ h' => h'
  · exact .next h

theorem prpSupervisionTx (h : s.Canonical) : NextCanonical (execPrpSupervisionTx s) :=
  .act h <| .hwSend <| .upd <| .freshSent <| by
      split
      · exact .timerEnds h
      · exact h

theorem supervisorDebugHalt (h : s.Canonical) : NextCanonical (execSupervisorDebugHalt s) := by
  have hs : ∀ t : State, t.Canonical → NextCanonical (execGateStopEnter .debug t) := fun _ h => .act h (.gateStop h)
  refine .act h <| .ite (.when (.upd h) .blockRequest) <| .ite ?_ (.upd h)
  obtain ⟨t, ht, hb⟩ := hs { s with sup := { s.sup with halted := true } } (.upd h)
  rw [ht]
  exact hb

theorem tevPulseEnd {n} (h : s.Canonical) : NextCanonical (execTevPulseEnd n s) := by
  unfold Machine.execTevPulseEnd
  split
  · exact .act h <| .upd <| .reach h
  · exact .next h

end NextCanonical

/-- Every command keeps the canonical form: it runs functions of the model, each with its rule, under `act`. -/
theorem exec_canonical {i : Instr} {s : State} (h : s.Canonical) : NextCanonical (exec i s) := by
  cases i with (dsimp only [exec])
  | powerOnReset => exact .act h <| .powerOn h
  | vddioBelow1v2 => exact .act h <| .powerOn h
  | vddioAbove1v2 => exact .act h <| .upd h
  | nrstAssert => exact .act h <| .ite (.upd h) <| .deviceReset <| .upd h
  | nrstRelease => exact .act h <| .leaveReset <| .upd h
  | rolePullupRead => exact .act h <| .upd h
  | rolePulldownRead =>
    exact .act h <| .ite (.upd <| .set <| .set <| .set <| .set <| .set <| .upd h) <| .romStart <| .upd <| .showRole <| .upd h
  | containerCheck => exact .act h <| .checkSlot h
  | bootRetry => exact .act h <| .bootRetry h
  | treeContainerComplete => exact .treeContainerComplete h
  | firstOwnership => exact .act h <| .takeOwner h
  | ownerChangeEntry => exact .act h <| .upd h
  | ownerRevoke => exact .act h <| .presWindow <| .upd <| .errArrive <| .free <| .revokeOwner h
  | cpuEclaimClaim => exact .act h <| .upd <| .eclaim h
  | cpuEclaimComplete => exact .act h <| .upd <| .ecomplete h
  | nmiRet => exact .act h <| .upd <| .nmiReturn h
  | wdtKick => exact .act h <| .upd <| .wdtKick h
  | wdtFirstStage => exact .act h <| .wdtGrace <| .health <| .errArrive <| .timerEnds h
  | wdtSecondStage => exact .act h <| .restart h
  | softwareReset => exact .act h <| .restart h
  | clockFailureReset => exact .act h <| .restart h
  | clkDomWrite => exact .writeRow h
  | rampStep =>
    exact .act h <| .ite (.rampState <| .followIrc <| .set h) <| .domLatched <| .rampState <| .followIrc <| .set h
  | forcedSwitch => exact .act h <| .event <| .set h
  | clockMonitorWindow => exact .act h <| .monitorWindow h
  | sourceNoEdge => exact .act h <| .srcFail h
  | spllUnlock => exact .act h <| .srcFail <| .ite (.event <| .bump <| .set h) <| .event <| .set h
  | ircMeasurement =>
    exact .act h <| .ite (.followIrc <| .upd <| .setReg h) <| .ite (.errArrive <| .set <| .event <| .followIrc <|
      .upd <| .setReg h) <| .set <| .followIrc <| .upd <| .setReg h
  | speedCount => exact .act h <| .monitor <| .speedUpdate h
  | xoscStartupEnd => exact .act h <| .monitorWindow <| .upd h
  | spllLock => exact .act h <| .set h
  | gateHandshake => exact .act h <| .closeGate h
  | gateTimeout => exact .gateTimeout h
  | ungate => exact .act h <| .set h
  | registerWrite => exact .act h <| .writeCmd h
  | maskedWrite => exact .act h <| .maskedCmd h
  | pgCommitRequest => exact .writeRow h
  | pageSrst => exact .fieldRow h
  | pageHold => exact .fieldRow h
  | pageHeld => exact .act h <| .resumeHeld <| .meridiansStop <| .set h
  | pageEnable => exact .fieldRow h
  | pgEvtSet => exact .writeRow h
  | guardLock => exact .fieldRow h
  | hostEnable => exact .fieldRow h
  | hostBusReleased => exact .act h <| .upd h
  | hostRd => exact .act h <| .hostTrans h .burstRead
  | hostWr => exact .act h <| .hostTrans h .burstWrite
  | hostMwr => exact .act h <| .hostTrans h .masked
  | hostStat => exact .act h <| .ite (.hostCrc h) <| .hostStatus h
  | releaseRequest => exact .fieldRow h
  | busReclaim => exact .act h <| .ite (.upd h) <| .upd h
  | busReturn => exact .act h <| .upd <| .set h
  | treeRaGo => exact .goRow h
  | remoteTimeout => exact .act h <| .remoteTimeout h
  | gpioFnWrite => exact .writeRow h
  | gpioEdge => exact .gpioEdge h
  | uartTxWrite => exact .writeRow h
  | uartByteSent => exact .act h <| .uartNext h
  | uartByteRx => exact .act h <| .ite (.event <| .bump <| .when h .bump) <| .upd <| .when (.when h .bump) .event
  | urxRead => exact .readRow h
  | ledToggle => exact .act h <| .upd h
  | presencePress => exact .act h <| .press h
  | presenceRelease => exact .act h <| .presRelease h
  | presenceWindowExpire => exact .act h <| .presClose <| .timerEnds h
  | presenceClose => exact .fieldRow h
  | pressStuck => exact .act h <| .errArrive <| .event <| .set <| .presClose h
  | stuckClear => exact .act h <| .set h
  | sealSequenceChange => exact .act h <| .upd h
  | sealSample => exact .act h <| .sealCompare h
  | secOwnRevoke => exact .writeRow h
  | attestationGo => exact .fieldRow h
  | attDone => exact .act h <| .attDone h
  | recordExport => exact .fieldRow h
  | recordRestore => exact .fieldRow h
  | recDone => exact .act h <| .recDone h
  | otpProgram => exact .fieldRow h
  | otpProgramDone => exact .act h <| .otpDone h
  | debugUnlock => exact .fieldRow h
  | debugRelock => exact .fieldRow h
  | groupKeyRenewal => exact .act h <| .renewGroup h
  | sessionKeyRenewal => exact .act h <| .renewSession h
  | syncGained => exact .act h <| .event <| .setLane <| .set <| .set <| .set <| .set h
  | syncLost => exact .act h <| .laneUnsync <| .event <| .bump <| .bump h
  | rateHuntSwitch => exact .act h <| .ite (.reloadExpect <| .set <| .scanAbort h) <| .set h
  | polFlip => exact .act h <| .event <| .bump <| .set h
  | bondUp => exact .bondUp h
  | bondErr => exact .act h <| .event <| .set <| .set h
  | lossOfSignal => exact .act h <| .event <| .set <| .when h .set
  | cdrLock => exact .act h <| .ite (.set <| .upd <| .set <| .set h) <| .upd <| .set <| .set h
  | lanePwrRequest => exact .fieldRow h
  | pstateDone => exact .pstateDone h
  | eyeScanGo => exact .fieldRow h
  | esDone => exact .act h <| .event <| .set <| .set <| .set <| .setReg h
  | eyeScanAbort => exact .act h <| .set <| .set <| .set <| .setReg h
  | prbsInject => exact .fieldRow h
  | prbsClear => exact .fieldRow h
  | prbsLock => exact .act h <| .event <| .set h
  | prbsRelock => exact .act h <| .ite (.bump <| .set <| .prbsErrors h) <| .prbsErrors h
  | brstPulse => exact .act h <| .setLane <| .reach h
  | upstreamBurstRx => exact .act h <| .ite (.zoneRx h) <| .burstRx h
  | timeIncWrite => exact .writeRow h
  | timeCmdStep => exact .fieldRow h
  | timeCmdSet => exact .fieldRow h
  | stepDone => exact .act h <| .applyWaiting h
  | timeNowRead => exact .readRow h
  | meridian => exact .ite (.act h <| .hubCycle h) <| .act h <| .cellCycle h
  | ppsPulse => exact .act h <| .upd h
  | ptpTimestamp => exact .act h <| .ite (.when (.upd <| .pushTs h) .count) <| .pushTs h
  | tsqPop => exact .readRow h
  | twinTimeExchange => exact .twinTimeExchange h
  | holdoverEnter => exact .holdoverEnter h
  | readyTest => exact .act h <| .readyTest h
  | cycleFrameRx => exact .act h <| .frameRx <| .codeGroups <| .reach h
  | mgrant => exact .act h <| .when h .grantSlot
  | rslot => exact .act h <| .when h .moveReport
  | laserKill => exact .act h <| .when h .kill
  | mgmtRdRecord => exact .act h <| .ite (.recRd h) <| .mqDrop h
  | mgmtWrRecord => exact .act h <| .ite (.recWr h) <| .mqDrop h
  | mgmtMwrRecord => exact .act h <| .recMwr h
  | mgmtWrpRecord => exact .act h <| .ite (.recWrp h) <| .mqDrop h
  | keyRecord => exact .act h <| .ite (.recKey h) <| .mqDrop h
  | delayRecord => exact .act h <| .recDelay h
  | tbaseRecord => exact .act h <| .ite (.keepBase h) <| .mqDrop h
  | beaconRecord => exact .act h <| .ite (.recBeacon h) <| .mqDrop h
  | offerRecord => exact .act h <| .ite (.recOffer h) <| .mqDrop h
  | kxhRecord => exact .act h <| .ite (.recKxh h) <| .mqDrop h
  | refuseRecord => exact .act h <| .ite (.recRefuse h) <| .mqDrop h
  | restoreRecord => exact .act h <| .ite (.recRelight h) <| .mqDrop h
  | cellMeridian => exact .act h <| .cellCycle h
  | holdLimit => exact .act h <| .limitReached h
  | payloadBuild => exact .payloadBuild h
  | reportBurstTx => exact .reportBurstTx h
  | mgmtBurstTx => exact .mgmtBurstTx h
  | mgmtBurstRx => exact .act h <| .mgmtBurst h fun _ _ h' => .learnWatch h'
  | eventByp => exact .runEvent h fun _ _ h' => .moveEvent h'
  | eventInsPos => exact .runEvent h fun _ _ h' => .moveEvent h'
  | eventInsNeg => exact .runEvent h fun _ _ h' => .moveEvent h'
  | eventBlockCell =>
    exact .runEvent h fun _ _ h' => .ite h' <| .unlessStopped h' fun h2 => .bbAction <| .moveEvent h2
  | eventTrim => exact .eventTrim h
  | trimEnd => exact .trimEnd h
  | eventFireThy => exact .runEvent h fun _ _ h' => .ite h' <| .unlessStopped h' fun h2 => .bbAction <| .fireThy h2
  | eventPermBypass => exact .runEvent h fun _ _ h' => .unlessStopped h' fun h2 => .permBypass h2
  | eventSwapHead => exact .runEvent h fun _ _ h' => .moveEvent h'
  | deadTimeTurnOn => exact .act h <| .upd <| .reach h
  | enrolmentWindowOpen => exact .fieldRow h
  | enrolmentWindowClose => exact .fieldRow h
  | enrolmentWindowExpire => exact .act h <| .setWindow <| .timerEnds h
  | boardingBurstTx => exact .boardingBurstTx h
  | boardingBackoff => exact .act h <| .attemptFailed h
  | boardingBurstRx => exact .act h <| .zoneRx h
  | collision => exact .act h <| .event <| .bump h
  | rangingBurstTx => exact .rangingBurstTx h
  | rangingBurstRx => exact .act h <| .zoneRx h
  | rangingTimeout => exact .act h <| .rangingTimeout h
  | rejoinTrigger => exact .act h <| .rejoin h
  | roundBoundary => exact .act h <| .ite (.hubRound h) <| .cellRound h
  | babblerSearchGo => exact .babblerSearchGo h
  | searchStep => exact .searchStep h
  | berthCmdRd => exact .fieldRow h
  | berthCmdWr => exact .fieldRow h
  | berthCmdClrcnt => exact .fieldRow h
  | stageB => exact .stageB h
  | stageC => exact .act h <| .stageDone <| .when h fun h' => .upd <| .hubExecution h'
  | stageD => exact .stageD h
  | stageE => exact .stageE h
  | stageF => exact .stageF h
  | protectiveCommand => exact .goRow h
  | modeChangeGo => exact .goRow h
  | carrierEpoch => exact .carrierEpoch h
  | carrierSample => exact .carrierSample h
  | cellEngineRun => exact .cellEngineRun h
  | rankCmdRd => exact .fieldRow h
  | rankCmdWr => exact .fieldRow h
  | rankCmdSetc => exact .fieldRow h
  | rankCmdSetv => exact .fieldRow h
  | programLoad => exact .writeRow h
  | loadDone => exact .act h <| .loadDone h
  | handoverGo => exact .goRow h
  | handoverAbort => exact .goRow h
  | sigdataWrite => exact .writeRow h
  | chainQueueWrite => exact .writeRow h
  | chainCmdRd => exact .fieldRow h
  | rcuClear => exact .writeRow h
  | rcuClearDone => exact .act h <| .set h
  | injectorGo => exact .fieldRow h
  | injectorStop => exact .fieldRow h
  | freqResponseGo => exact .fieldRow h
  | faultAssert => exact .act h <| .faultSource h
  | safeLevelTurnOn => exact .act h <| .upd h
  | gateFclr => exact .fieldRow h
  | gateStopEnter => exact .act h <| .gateStop h
  | gateStopExit => exact .act h <| .gateResume h
  | thyDone => exact .act h <| .upd <| .event h
  | gate5Release => exact .act h <| .upd h
  | delayLineCal =>
    exact .act h <| .ite (.upd h) <| .ite (.ite (.set <| .set <| .upd h) <| .event <| .set <| .set <| .set <|
      .upd h) <| .set <| .set <| .set <| .upd h
  | tevArm => exact .goRow h
  | tevDisarm => exact .fieldRow h
  | tevFired =>
    exact .act h <| .ite (.upd <| .event <| .upd <| .reach h) <| .set <| .event <| .upd <| .reach h
  | adcResult => exact .act h <| .result h
  | comparatorAssert => exact .comparatorAssert h
  | comparatorDeassert => exact .comparatorDeassert h
  | alatch => exact .alatch h
  | disc => exact .act h <| .upd <| .bump <| .event <| .latchSource <| .assertBit h
  | hubDeblock => exact .writeRow h
  | hubAclr => exact .writeRow h
  | hubBset => exact .writeRow h
  | hubBclr => exact .writeRow h
  | deblockSequenceQueue => exact .act h <| .sequence h
  | startupTestOpen => exact .act h <| .upd h
  | startupPass => exact .act h <| .upd <| .event h
  | singleBerthDeblock => exact .writeRow h
  | cellDeblock => exact .writeRow h
  | cellBlock => exact .writeRow h
  | cellPermBypass => exact .writeRow h
  | blkos =>
    exact .act h <| .bbFreeze <| .bbWrite <| .monitor <| .set <| .set <| .upd <| .evFlag <| .forceBlock <| .event <|
      .bump h
  | blkseenClear => exact .act h <| .upd <| .reach h
  | twinKxFrame => exact .act h <| .twinRx h fun _ _ h' => .twinKx h'
  | twinHelloFrame => exact .act h <| .twinRx h fun _ _ h' => .twinHello h'
  | twinStatusRx => exact .act h <| .twinRx h fun _ _ h' => .twinStatus h'
  | twinSliceRx => exact .act h <| .twinRx h fun _ _ h' => .twinSlice h'
  | twinCommitRx => exact .act h <| .twinRx h fun _ _ h' => .twinCommit h'
  | heartbeatTx => exact .act h <| .hubHeartbeat <| .intervalEnd <| .upd <| .reach h
  | refereeFrameTx => exact .refereeFrameTx h
  | refHbRx => exact .refHbRx h
  | linkMiss => exact .act h <| .linkMissed h
  | refereeListenEnd => exact .act h <| .listenEnd <| .reach h
  | refereeKx => exact .refereeKx h
  | takeRx => exact .act h <| .refereeRx h fun _ _ h' => .takeCmd h'
  | yieldRx => exact .act h <| .refereeRx h fun _ _ h' => .yieldCmd h'
  | rstRx => exact .act h <| .refereeRx h fun _ _ h' => .learnWatch h'
  | refLost => exact .act h <| .upd <| .reach h
  | selfTakeover => exact .act h <| .takeControl h
  | preferredReclaim => exact .act h <| .takeControl <| .timerEnds h
  | schedSubmit => exact .goRow h
  | hwArrival => exact .act h <| .arrive h
  | schedulerStep => exact .act h <| .schedulerStep h
  | schgTake => exact .readRow h
  | schgDone => exact .writeRow h
  | delayRelease => exact .act h <| .ticks h
  | schgCancel => exact .writeRow h
  | schqFlush => exact .fieldRow h
  | itemStuck => exact .act h <| .itemStuck h
  | scrubVisit => exact .scrubVisit h
  | arbiterGrant => exact .act h <| .arbGrant h
  | memLockOpen => exact .fieldRow h
  | memLockClose => exact .fieldRow h
  | lockBreak => exact .act h <| .lockBreak <| .when h .timerEnds
  | errPop => exact .fieldRow h
  | errAck => exact .writeRow h
  | errSwlog => exact .writeRow h
  | chunkStored => exact .chunkStored h
  | holdOffEnd => exact .act h <| .setRecState <| .timerEnds h
  | recForce => exact .writeRow h
  | recRel => exact .writeRow h
  | recRelall => exact .writeRow h
  | bbRearm => exact .fieldRow h
  | monSnap => exact .goRow h
  | ltAdd => exact .goRow h
  | ltLock => exact .fieldRow h
  | lifetimeSecond => exact .act h <| .lifetimeSecond h
  | lifetimeHour => exact .act h <| .lifetimeHour h
  | stationLinkUp => exact .act h <| .when (.stnLink <| .freshSent h) .kxStart
  | stationKxRx => exact .act h <| .stnRx h fun _ h' => .ite h' <| .ite (.bump h') <| .stnKxAnswer h'
  | stnRekey => exact .fieldRow h
  | stnClrcnt => exact .fieldRow h
  | setpointRx => exact .act h <| .stnRx h fun _ h' => .setpoint h'
  | spStale => exact .act h <| .event <| .set <| .timerEnds h
  | mgmtRequestRx => exact .act h <| .stnRx h fun _ h' => .checked h' fun _ h2 => .takeRequest h2
  | mgmtResponseTx => exact .mgmtResponseTx h
  | svFrameRx => exact .svFrameRx h
  | svLost => exact .act h <| .event <| .bump <| .timerEnds h
  | txPost => exact .writeRow h
  | timedTx => exact .act h <| .timedSend h
  | rxToRing => exact .rxToRing h
  | streamTx => exact .act h <| .streamChunk h
  | prpSupervisionTx => exact .prpSupervisionTx h
  | supplyMonitorRelease => exact .act h <| .leaveReset <| .upd h
  | faultSourceRelease => exact .act h <| .upd <| .tripLevel h
  | hubSourceRelease =>
    exact .act h <| .ite (.assertBit <| .assertBit <| .setBlockPin h) <| .assertBit <| .setBlockPin h
  | stationLinkDown => exact .act h <| .stnLink h
  | supervisorDebugHalt => exact .supervisorDebugHalt h
  | ppsPulseEnd => exact .act h <| .upd h
  | cycleMarkEnd => exact .act h <| .upd h
  | tevPulseEnd => exact .tevPulseEnd h
  | thyristorPulse => exact .act h <| .ite (.ite h <| .upd h) <| .ite (.upd h) <| .ite h <| .upd h

/-- Settles O53: memory changes by stores and by what a reset keeps of it alone, so every function of the model keeps its
canonical form, every command does (`exec_canonical`), and so does an idle tick. -/
theorem memoryStaysCanonical : Obligations.MemoryStaysCanonical := by
  unfold Obligations.MemoryStaysCanonical
  intro s h
  unfold step
  split
  next => exact ⟨s.idle, rfl, Canonical.idle h⟩
  next i rest _ => exact exec_canonical (State.Canonical.upd (x := s) h)

end Sys2Proof.Machine
end

section
/-! PROOFS. Frames of the commands that one write of a register gives (R75 to R82): beyond the register itself and what every
access can raise, a write changes what the register's own rule does with the word. -/

namespace Sys2Proof.Machine

/-! Frames compose. -/

/-- An update with a smaller frame follows. -/
theorem Frame.andThen {ps qs : List Part} {rs us : List Nat} {s t u : State} (h : Frame ps rs s t) (g : Frame qs us t u)
    (hp : ∀ p ∈ qs, p ∈ ps) (hr : ∀ a ∈ us, a ∈ rs) : Frame ps rs s u := h.seq (g.mono hp hr)

theorem Frame.upd {ps qs : List Part} {rs : List Nat} {s t u : State} (h : Frame ps rs s t) (g : Frame qs [] t u)
    (hp : ∀ p ∈ qs, p ∈ ps) : Frame ps rs s u := h.andThen g hp (by simp)

theorem Frame.setReg {ps : List Part} {rs : List Nat} {s t : State} (h : Frame ps rs s t) {a : Nat} {v : Word}
    (ha : a ∈ rs) : Frame ps rs s (t.setReg a v) := h.andThen (frame_setReg t a v) (by simp) (by simpa using ha)

theorem Frame.set {ps : List Part} {rs : List Nat} {s t : State} (h : Frame ps rs s t) {f : Fld} {n : Nat}
    (ha : f.addr ∈ rs) : Frame ps rs s (t.set f n) := h.setReg ha

theorem Frame.bump {ps : List Part} {rs : List Nat} {s t : State} (h : Frame ps rs s t) {f : Fld} {n : Nat}
    (ha : f.addr ∈ rs) : Frame ps rs s (t.bump f n) := h.setReg ha

theorem Frame.count {ps : List Part} {rs : List Nat} {s t : State} (h : Frame ps rs s t) {f : Fld} {n : Nat}
    (ha : f.addr ∈ rs) : Frame ps rs s (t.count f n) := h.setReg ha

theorem Frame.event {ps : List Part} {rs : List Nat} {s t : State} (h : Frame ps rs s t) {pg bit : Nat}
    (ha : Part.recd ∈ ps ∧ R.PG_EVT pg ∈ rs) : Frame ps rs s (t.event pg bit) :=
  h.andThen (frame_event t pg bit) (by simpa using ha.1) (by simpa using ha.2)

theorem Frame.accessErr {ps : List Part} {rs : List Nat} {s t : State} (h : Frame ps rs s t) {pg : Nat}
    (ha : Part.recd ∈ ps ∧ R.PG_EVT pg ∈ rs) : Frame ps rs s (t.accessErr pg) := h.event ha

theorem Frame.when {ps : List Part} {rs : List Nat} {s t : State} (h : Frame ps rs s t) {c : Bool} {f : State → State}
    (g : Frame ps rs s (f t)) : Frame ps rs s (t.when c f) := Frame.ite g h

/-! Bits of a word that a write can set. -/

theorem testBit_of_getBits {v : Word} {lo w j : Nat} (h : (getBits v lo w).testBit j = true) : v.getLsbD (lo + j) = true := by
  rw [getBits, Nat.testBit_mod_two_pow, Bool.and_eq_true, Nat.testBit_shiftRight] at h
  exact h.2

/-- A bit of a word with a field replaced is one of the word or of the field's value. -/
theorem getLsbD_of_setBits {v : Word} {lo w n i : Nat} (h : (setBits v lo w n).getLsbD i = true) :
    v.getLsbD i = true ∨ lo ≤ i ∧ n.testBit (i - lo) = true := by
  rw [setBits, BitVec.getLsbD_or, Bool.or_eq_true] at h
  rcases h with h | h
  · rw [BitVec.getLsbD_and, Bool.and_eq_true] at h
    exact .inl h.1
  · rw [BitVec.getLsbD_ofNat, Bool.and_eq_true, Nat.testBit_shiftLeft, Bool.and_eq_true, Nat.testBit_mod_two_pow,
      Bool.and_eq_true, decide_eq_true_eq] at h
    exact .inr ⟨of_decide_eq_true h.2.1, h.2.2.2⟩

/-- A bit of a word with a field of another put in is one of either. -/
theorem getLsbD_of_setBits_getBits {v x : Word} {lo w i : Nat} (h : (setBits v lo w (getBits x lo w)).getLsbD i = true) :
    v.getLsbD i = true ∨ x.getLsbD i = true := by
  rcases getLsbD_of_setBits h with h | ⟨hi, h⟩
  · exact .inl h
  · have hx := testBit_of_getBits h
    rw [Nat.add_sub_cancel' hi] at hx
    exact .inr hx

theorem getLsbD_of_setBits_zero {v : Word} {lo w i : Nat} (h : (setBits v lo w 0).getLsbD i = true) : v.getLsbD i = true := by
  rcases getLsbD_of_setBits h with h | ⟨-, h⟩
  · exact h
  · simp at h

namespace State

/-- Merging a field sets no bit that neither the word before nor the data has. -/
theorem getLsbD_of_mergeField {s : State} {a : Nat} {old data : Word} {opened : Bool} {m : Merge} {f : FieldDesc} {i : Nat}
    (h : (s.mergeField a old data opened m f).v.getLsbD i = true) :
    m.v.getLsbD i = true ∨ old.getLsbD i = true ∨ data.getLsbD i = true := by
  have hdata (h : (setBits m.v f.lo f.w (getBits data f.lo f.w)).getLsbD i = true) :
      m.v.getLsbD i = true ∨ old.getLsbD i = true ∨ data.getLsbD i = true :=
    (getLsbD_of_setBits_getBits h).imp id .inr
  unfold mergeField at h
  extract_lets o n setTo acts g st m' at h
  split at h
  · exact .inl h
  split at h
  · exact .inl h
  · rcases getLsbD_of_setBits h with h | ⟨hi, h⟩
    · exact .inl h
    · rw [Nat.testBit_and, Bool.and_eq_true] at h
      have hold := testBit_of_getBits h.1
      rw [Nat.add_sub_cancel' hi] at hold
      exact .inr (.inl hold)
  · exact .inl (getLsbD_of_setBits_zero h)
  · split at h
    · exact .inl (getLsbD_of_setBits_zero h)
    · exact hdata h
  · split at h
    · exact .inl h
    · exact hdata h

theorem getLsbD_of_merge {s : State} {a : Nat} {old data : Word} {opened : Bool} {i : Nat} (l : List FieldDesc) (m : Merge)
    (h : (l.foldl (s.mergeField a old data opened) m).v.getLsbD i = true) :
    m.v.getLsbD i = true ∨ old.getLsbD i = true ∨ data.getLsbD i = true := by
  induction l generalizing m with
  | nil => exact .inl h
  | cons f l ih =>
    rcases ih _ h with h | h
    · exact getLsbD_of_mergeField h
    · exact .inr h

/-! The rule of a register, and the frame of a write from its frame. -/

/-- The write `w` that a path's data for register `a` comes to. -/
structure Given (s : State) (path : Path) (a : Nat) (data : Word) (w : Wr) : Prop where
  addr : w.a = a
  old : w.old = s.viewReg (pathIdx path) a false
  bits : ∀ i, w.v.getLsbD i = true → w.old.getLsbD i = true ∨ data.getLsbD i = true

/-- The rule of the register of a write. -/
def rule (s : State) (w : Wr) (data : Word) : State := if w.a = R.BERTH_BOARD then s.hookBoard w data else s.hook w

/-- A frame has room for an access: for its answer and for what every access to register `a` can raise. -/
def AccessFits (ps : List Part) (rs : List Nat) (a : Nat) : Prop :=
  (∀ p ∈ [Part.recd, .resp, .sup], p ∈ ps) ∧ ∀ r ∈ accessRegs (a / 0x400) a, r ∈ rs

variable {ps : List Part} {rs : List Nat} {a : Nat}

theorem AccessFits.recd (h : AccessFits ps rs a) : Part.recd ∈ ps := h.1 _ (by simp)
theorem AccessFits.resp (h : AccessFits ps rs a) : Part.resp ∈ ps := h.1 _ (by simp)
theorem AccessFits.sup (h : AccessFits ps rs a) : Part.sup ∈ ps := h.1 _ (by simp)
theorem AccessFits.reg (h : AccessFits ps rs a) : a ∈ rs := h.2 _ (by simp [accessRegs])
theorem AccessFits.stat (h : AccessFits ps rs a) : R.PG_STAT (a / 0x400) ∈ rs := h.2 _ (by simp [accessRegs])
theorem AccessFits.evt (h : AccessFits ps rs a) : R.PG_EVT (a / 0x400) ∈ rs := h.2 _ (by simp [accessRegs])
theorem AccessFits.event (h : AccessFits ps rs a) : Part.recd ∈ ps ∧ R.PG_EVT (a / 0x400) ∈ rs := ⟨h.recd, h.evt⟩
theorem AccessFits.guard (h : AccessFits ps rs a) : R.PG_GUARD (a / 0x400) ∈ rs := h.2 _ (by simp [accessRegs])
theorem AccessFits.fault (h : AccessFits ps rs a) : ∀ r ∈ [R.CPU_FAULT, R.CPU_FAULT_ADDR], r ∈ rs :=
  fun r hr => h.2 _ (by simp [accessRegs] at hr ⊢; tauto)

theorem frame_pageError (hfit : AccessFits ps rs a) (s : State) : Frame ps rs s (s.pageError (a / 0x400)) :=
  Frame.ite (((Frame.refl ps rs s).set hfit.stat).event hfit.event) (Frame.refl ..)

theorem frame_refusals (hfit : AccessFits ps rs a) (s : State) (m : Merge) : Frame ps rs s (s.refusals (a / 0x400) m) := by
  unfold refusals
  have hguard : Frame ps rs s (s.when m.guard fun s =>
      ((s.event (a / 0x400) 2).bump (F.PG_GUARD_REFUSED (a / 0x400))).set (F.PG_STAT_ERR (a / 0x400)) 1) :=
    (Frame.refl ..).when ((((Frame.refl ps rs s).event hfit.event).bump hfit.guard).set hfit.stat)
  exact hguard.when ((hguard.event hfit.event).set hfit.stat)

theorem frame_answerAccess (hfit : AccessFits ps rs a) (s : State) (path : Path) (code : Nat) (data : List Word)
    (isStore : Bool) : Frame ps rs s (s.answerAccess path a code data isStore) := by
  unfold answerAccess
  have hfault : Frame ps rs s (if code ≠ Code.ok ∧ path = .supervisor then
      s.cpuFault code (0x40000000 + a) (if isStore then 7 else 5) else s) :=
    Frame.ite ((frame_cpuFault s _ _ _).mono (by simpa using hfit.sup) hfit.fault) (Frame.refl ..)
  exact hfault.upd (frame_answering _ _) (by simpa using hfit.resp)

/-- Storing the merged word and the register's own rule. -/
theorem frame_writeActs (hfit : AccessFits ps rs a) {s t : State} {path : Path} {data given : Word} (d : RegDesc) {w : Wr}
    (hw : Given s path a data w) (hrule : ∀ u v, Given s path a data v → Frame ps rs u (u.rule v given)) :
    Frame ps rs t (t.writeActs d w given) := by
  have haddr := hw.addr
  unfold writeActs
  extract_lets mask pg parked drop t1 v m t2
  have hpg : pg = a / 0x400 := by rw [← haddr]
  refine Frame.ite ((Frame.refl ps rs t).accessErr (hpg ▸ hfit.event)) ?_
  have h1 : Frame ps rs t t1 := (Frame.refl ..).when ((Frame.refl ps rs t).accessErr (hpg ▸ hfit.event))
  have hv : Given s path a data v := by
    unfold v
    split
    · refine ⟨haddr, hw.old, fun i hi => hw.bits i ?_⟩
      rw [BitVec.getLsbD_and, Bool.and_eq_true] at hi
      exact hi.1
    · exact hw
  have h2 : Frame ps rs t t2 := Frame.ite h1 (h1.setReg (by rw [hv.addr]; exact hfit.reg))
  exact h2.seq (hrule t2 v hv)

theorem frame_writeReg (hfit : AccessFits ps rs a) {s : State} {path : Path} {data : Word} (hhome : s.home a = a)
    (hrule : ∀ t w g, Given s path a data w → (∀ i, g.getLsbD i = true → data.getLsbD i = true) →
      Frame ps rs t (t.rule w g)) : Frame ps rs s (s.writeReg path a data).2 := by
  unfold writeReg
  rw [hhome]
  extract_lets pg a' old g opened
  split
  · exact Frame.refl ..
  next d _ =>
    extract_lets m m' code r t t1
    have hg : ∀ i, g.getLsbD i = true → data.getLsbD i = true := fun i hi => by
      rw [BitVec.getLsbD_and, Bool.and_eq_true] at hi
      exact hi.1
    have hm : ∀ i, m.v.getLsbD i = true → old.getLsbD i = true ∨ data.getLsbD i = true := fun i hi =>
      (getLsbD_of_merge _ _ hi).elim .inl fun h => h.imp id (hg i)
    have hv : m'.v = m.v := by
      unfold m'
      split <;> rfl
    have ht : Frame ps rs s t := (frame_refusals hfit s m').upd (frame_answering _ _) (by simpa using hfit.resp)
    have h1 : Frame ps rs s t1 :=
      ht.seq (frame_writeActs hfit d ⟨rfl, rfl, fun i hi => hm i (hv ▸ hi)⟩ fun u v hu => hrule u v g hu hg)
    split
    · exact h1.set hfit.stat
    · exact h1

/-- A write command of one word to a register at its own address. -/
theorem frame_writeCmd (hfit : AccessFits ps rs a) {s : State} {path : Path} {data : Word}
    (hlow : a < 0x10000) (hfield : 0x40 ≤ a % 0x400) (hhome : s.home a = a)
    (hrule : ∀ t w g, Given s path a data w → (∀ i, g.getLsbD i = true → data.getLsbD i = true) →
      Frame ps rs t (t.rule w g)) : Frame ps rs s (s.writeCmd path 4 a data) := by
  have hmap : ¬ (path = .supervisor ∧ 0x10000 ≤ a ∧ (a < 0x40000000 ∨ 0x40010000 ≤ a)) ∧
      ¬ (path = .supervisor ∧ 0x40000000 ≤ a) := by omega
  unfold writeCmd
  rw [if_neg hmap.1, if_neg hmap.2]
  have hat : Frame ps rs s (s.writeAt path a data).2 := by
    unfold writeAt
    rw [if_neg (by omega)]
    split
    · exact frame_pageError hfit s
    · exact frame_writeReg hfit hhome hrule
  dsimp only
  split
  · exact (frame_pageError hfit s).seq (frame_answerAccess hfit _ _ _ _ _)
  · exact hat.seq (frame_answerAccess hfit _ _ _ _ _)

end State

end Sys2Proof.Machine
end

section
/-! PROOFS. Rows of the register map: a command that writes one word, or one field with the others as read, changes what the rule
of its register changes with the word that the write comes to. A bit of kind W reads 0, so a field written alone starts no
other command of its register. -/

namespace Sys2Proof.Machine

open State

/-! Bits of kind W. -/

/-- Does bit `i` of register `a` belong to no field but one of kind W, which reads 0? -/
def commandBit (a i : Nat) : Bool :=
  match regAt (a / 0x400) (a % 0x400) with
  | some d => !(maskOf d fun f => f.kind != .w).testBit i
  | none => true

/-- Is a register served at its own address at every role (R293)? -/
def ownAddress (a : Nat) : Bool := a / 0x400 != 0x19 || !cellWide (a % 0x400)

theorem home_of_ownAddress {a : Nat} (h : ownAddress a = true) (s : State) : s.home a = a := by
  simp only [ownAddress, Bool.or_eq_true, bne_iff_ne, ne_eq, Bool.not_eq_true'] at h
  rcases h with h | h <;> simp [home, h]

namespace State

theorem viewReg_commandBit {a i : Nat} (h : commandBit a i = true) (hhome : ownAddress a = true) (s : State) (p : Nat)
    (active : Bool) : (s.viewReg p a active).getLsbD i = false := by
  rw [commandBit] at h
  unfold viewReg
  rw [home_of_ownAddress hhome]
  dsimp only
  split
  · simp
  next d hd =>
    rw [hd] at h
    split
    · simp
    · simp only [Bool.not_eq_true'] at h
      simp [BitVec.getLsbD_and, BitVec.getLsbD_ofNat, h]

theorem viewWord_of_field {a : Nat} (h : 0x40 ≤ a % 0x400) (s : State) (p : Nat) :
    s.viewWord p a = s.viewReg p a (s.is (F.PG_CTRL_RDACT (a / 0x400))) := by
  rw [viewWord, if_neg (by omega)]

section
variable {s : State} {path : Path} {a i : Nat} {data : Word} {w : Wr}

theorem getLsbD_of_bit {w : Wr} {i : Nat} (h : w.bit i = true) : w.v.getLsbD i = true := by
  have hone : getBits w.v i 1 = 1 := by simpa [Wr.bit] using h
  exact testBit_of_getBits (lo := i) (w := 1) (j := 0) (by rw [hone]; rfl)

/-- A command bit of a write is one of its data. -/
theorem Given.bit (h : Given s path a data w) (hc : commandBit a i = true) (hhome : ownAddress a = true)
    (hdata : data.getLsbD i = false) : w.bit i = false := by
  by_contra hbit
  rcases h.bits i (getLsbD_of_bit (Bool.not_eq_false _ ▸ hbit)) with hold | hd
  · rw [h.old, viewReg_commandBit hc hhome] at hold
    exact absurd hold (by simp)
  · rw [hdata] at hd
    exact absurd hd (by simp)

end

/-- A bit of the word with one field written is one of the word as read or of the field's value. -/
theorem getLsbD_put_one {f : Fld} {w : Word} {i : Nat} (h : i ≠ f.lo) : (put f 1 w).getLsbD i = true → w.getLsbD i = true := by
  intro hp
  rcases getLsbD_of_setBits hp with hw | ⟨hi, hb⟩
  · exact hw
  · have hzero := Nat.testBit_one_eq_true_iff_self_eq_zero.mp hb
    omega

/-- Where one command bit is written alone, no other is. -/
theorem Given.bit_field {s : State} {path : Path} {f : Fld} {w : Wr}
    (h : Given s path f.addr (put f 1 (s.viewWord (pathIdx path) f.addr)) w) {i : Nat} (hi : i ≠ f.lo)
    (hc : commandBit f.addr i = true) (hhome : ownAddress f.addr = true) (hfield : 0x40 ≤ f.addr % 0x400) : w.bit i = false := by
  refine h.bit hc hhome (Bool.eq_false_iff.mpr fun hp => ?_)
  have hv := getLsbD_put_one hi hp
  rw [viewWord_of_field hfield, viewReg_commandBit hc hhome] at hv
  exact absurd hv (by simp)

end State

/-! Rows. -/

/-- A frame has room for a write of register `a`, which is no header register. -/
def rowFits (ps : List Part) (rs : List Nat) (a : Nat) : Bool :=
  [Part.recd, .resp, .sup].all (fun p => decide (p ∈ ps)) && (accessRegs (a / 0x400) a).all (fun r => decide (r ∈ rs))
    && decide (a < 0x10000) && decide (0x40 ≤ a % 0x400) && ownAddress a

theorem rowFits_iff {ps : List Part} {rs : List Nat} {a : Nat} : rowFits ps rs a = true ↔
    AccessFits ps rs a ∧ a < 0x10000 ∧ 0x40 ≤ a % 0x400 ∧ ownAddress a = true := by
  simp only [rowFits, AccessFits, Bool.and_eq_true, List.all_eq_true, decide_eq_true_eq, and_assoc]

/-- A command that writes one word. -/
theorem changes_writeRow {c : Instr} {ps : List Part} {rs : List Nat} {path : Path} {a : Nat} {data : State → Word}
    (he : ∀ s, exec c s = writeRow s path a (data s)) (hfit : rowFits ps rs a = true)
    (hrule : ∀ s t w g, Given s path a (data s) w → (∀ i, g.getLsbD i = true → (data s).getLsbD i = true) →
      Frame ps rs t (t.rule w g)) : Changes c ps rs := by
  obtain ⟨hacc, hlow, hfield, hown⟩ := rowFits_iff.mp hfit
  intro s
  rw [he s, writeRow, act]
  split
  · exact ⟨_, frame_writeCmd hacc hlow hfield (home_of_ownAddress hown s) (hrule s), .inr rfl⟩
  · exact ⟨s, Frame.refl .., .inl rfl⟩

/-- A command that writes one word whatever it holds: its register's rule stays inside the frame for every word. -/
theorem changes_row {c : Instr} {ps : List Part} {rs : List Nat} {path : Path} {a : Nat} {data : State → Word}
    (he : ∀ s, exec c s = writeRow s path a (data s)) (hfit : rowFits ps rs a = true)
    (hrule : ∀ t w g, w.a = a → Frame ps rs t (t.rule w g)) : Changes c ps rs :=
  changes_writeRow he hfit fun _ t w g h _ => hrule t w g h.addr

/-- A command that writes 1 to one field. -/
theorem changes_fieldRow {c : Instr} {ps : List Part} {rs : List Nat} {path : Path} {f : Fld}
    (he : ∀ s, exec c s = fieldRow s path f 1) (hfit : rowFits ps rs f.addr = true)
    (hrule : ∀ t w g, w.a = f.addr → (∀ i, i ≠ f.lo → commandBit f.addr i = true → w.bit i = false) →
      Frame ps rs t (t.rule w g)) : Changes c ps rs := by
  obtain ⟨-, -, hfield, hown⟩ := rowFits_iff.mp hfit
  exact changes_writeRow he hfit fun s t w g h _ => hrule t w g h.addr fun i hi hc => h.bit_field hi hc hown hfield

/-! Parts. -/

namespace State
variable (s : State)

theorem when_false (f : State → State) : s.when false f = s := rfl

theorem frame_uart (x : UartSt) : Frame [.uart] [] s { s with uart := x } :=
  frame_of_parts rfl rfl fun p hp => by cases p <;> simp_all [Part.same, byte]

theorem frame_sec (x : SecSt) : Frame [.sec] [] s { s with sec := x } :=
  frame_of_parts rfl rfl fun p hp => by cases p <;> simp_all [Part.same, byte]

theorem frame_sch (x : SchSt) : Frame [.sch] [] s { s with sch := x } :=
  frame_of_parts rfl rfl fun p hp => by cases p <;> simp_all [Part.same, byte]

theorem frame_stn (x : StnSt) : Frame [.stn] [] s { s with stn := x } :=
  frame_of_parts rfl rfl fun p hp => by cases p <;> simp_all [Part.same, byte]

theorem frame_rank (x : RankSt) : Frame [.rank] [] s { s with rank := x } :=
  frame_of_parts rfl rfl fun p hp => by cases p <;> simp_all [Part.same, byte]

theorem frame_eng (x : EngSt) : Frame [.eng] [] s { s with eng := x } :=
  frame_of_parts rfl rfl fun p hp => by cases p <;> simp_all [Part.same, byte]

theorem frame_comp (x : CompSt) : Frame [.comp] [] s { s with comp := x } :=
  frame_of_parts rfl rfl fun p hp => by cases p <;> simp_all [Part.same, byte]

theorem frame_time (x : TimeSt) : Frame [.time] [] s { s with time := x } :=
  frame_of_parts rfl rfl fun p hp => by cases p <;> simp_all [Part.same, byte]

theorem frame_nowTime (n : Nat) (x : TimeSt) : Frame [.now, .time] [] s { s with now := n, time := x } :=
  frame_of_parts rfl rfl fun p hp => by cases p <;> simp_all [Part.same, byte]

theorem frame_berths (x : Kv BerthSt) : Frame [.berths] [] s { s with berths := x } :=
  frame_of_parts rfl rfl fun p hp => by cases p <;> simp_all [Part.same, byte]

theorem frame_lanes (x : List LaneSt) : Frame [.lanes] [] s { s with lanes := x } :=
  frame_of_parts rfl rfl fun p hp => by cases p <;> simp_all [Part.same, byte]

theorem frame_arb (x : ArbSt) : Frame [.arb] [] s { s with arb := x } :=
  frame_of_parts rfl rfl fun p hp => by cases p <;> simp_all [Part.same, byte]

theorem frame_host (x : HostSt) : Frame [.host] [] s { s with host := x } :=
  frame_of_parts rfl rfl fun p hp => by cases p <;> simp_all [Part.same, byte]

theorem frame_clk (x : ClkSt) : Frame [.clk] [] s { s with clk := x } :=
  frame_of_parts rfl rfl fun p hp => by cases p <;> simp_all [Part.same, byte]

theorem frame_mod (x : ModSt) : Frame [.mod] [] s { s with mod := x } :=
  frame_of_parts rfl rfl fun p hp => by cases p <;> simp_all [Part.same, byte]

theorem frame_recd (x : RecSt) : Frame [.recd] [] s { s with recd := x } :=
  frame_of_parts rfl rfl fun p hp => by cases p <;> simp_all [Part.same, byte]

theorem frame_mon (x : Kv MonUnit) : Frame [.mon] [] s { s with mon := x } :=
  frame_of_parts rfl rfl fun p hp => by cases p <;> simp_all [Part.same, byte]

end State

end Sys2Proof.Machine
end

section
/-! PROOFS. Frames of the register commands of the host port, the terminals, security and the lanes (R44 to R53, R163, R187, R193,
R206 to R216). -/

namespace Sys2Proof.Machine

open State

/-! Host port. -/

theorem frame_hookHost_ctrl {w : Wr} (ha : w.a = R.HOST_CTRL) (t : State) (g : Word) :
    Frame [.host] [R.HOST_CTRL] t (t.rule w g) := by
  simp +decide only [rule, hook, hookHost, ha, if_true, if_false]
  exact Frame.ite ((((Frame.refl ..).set (by decide)).set (by decide)).upd (frame_host _ _) (by decide)) (((Frame.refl ..).set
      (by decide)).set (by decide))

theorem frame_hookHost_rel {w : Wr} (ha : w.a = R.HOST_REL) (t : State) (g : Word) :
    Frame [.host] [R.HOST_REL] t (t.rule w g) := by
  simp +decide only [rule, hook, hookHost, ha, if_true, if_false]
  exact Frame.ite (Frame.refl ..) ((((Frame.refl ..).set (by decide)).set (by decide)).upd (frame_host _ _) (by decide))

theorem changes_hostEnable (path : Path) :
    Changes (.hostEnable path) [.host, .recd, .resp, .sup] (accessRegs Pg.HOST R.HOST_CTRL) :=
  changes_row (fun _ => rfl) (by decide) fun t _ g ha => (frame_hookHost_ctrl ha t g).mono (by decide) (by decide)

theorem changes_releaseRequest (path : Path) (ms : Nat) :
    Changes (.releaseRequest path ms) [.host, .recd, .resp, .sup] (accessRegs Pg.HOST R.HOST_REL) :=
  changes_row (fun _ => rfl) (by decide) fun t _ g ha => (frame_hookHost_rel ha t g).mono (by decide) (by decide)

/-! Terminals and the UART. -/

namespace State
variable (s : State)

theorem frame_uartNext : Frame [.uart] [] s s.uartNext := by
  unfold uartNext
  split <;> exact frame_uart s _

theorem frame_uartStops : Frame [.uart] [] s s.uartStops := Frame.ite (Frame.refl ..) (frame_uart s _)

theorem frame_uartPut (b : Byte) : Frame [.uart, .recd] [R.PG_EVT Pg.GPIO] s (s.uartPut b) := by
  unfold uartPut
  have hput := (Frame.refl [.uart, .recd] [R.PG_EVT Pg.GPIO] s).upd (frame_uart s { s.uart with tx := s.uart.tx ++ [b] })
      (by decide)
  exact Frame.ite ((Frame.refl ..).accessErr (by decide)) (Frame.ite (hput.upd (frame_uartNext _) (by decide)) hput)

theorem frame_uartGet : Frame [.uart] [] s s.uartGet.2 := by
  unfold uartGet
  split
  · exact Frame.refl ..
  · exact frame_uart s _

theorem frame_gpioFnSet {rs : List Nat} {n : Nat} (fn : Nat) (hn : R.GPIO_FN n ∈ rs) (he : R.PG_EVT Pg.GPIO ∈ rs) :
    Frame [.uart, .recd] rs s (s.gpioFnSet n fn) :=
  Frame.ite (((Frame.refl ..).set hn).upd (frame_uartStops _) (by decide)) ((Frame.refl ..).accessErr ⟨by decide, he⟩)

end State

theorem changes_gpioFnWrite (path : Path) {n : Nat} (data : Word) (hn : n < 8) :
    Changes (.gpioFnWrite path n data) [.recd, .resp, .sup, .uart]
      (accessRegs Pg.GPIO (R.GPIO_FN n) ++ (List.range 8).map R.GPIO_FN) := by
  refine changes_row (fun _ => rfl) ((by decide : ∀ n < 8, rowFits [.recd, .resp, .sup, .uart]
    (accessRegs Pg.GPIO (R.GPIO_FN n) ++ (List.range 8).map R.GPIO_FN) (R.GPIO_FN n) = true) n hn) fun t w g ha => ?_
  have hidx : (w.a - R.GPIO_FN 0) / 4 = n := by
    rw [ha, R.GPIO_FN, R.GPIO_FN]
    omega
  have hpage : w.a / 0x400 = Pg.GPIO := by
    rw [ha, R.GPIO_FN, Pg.GPIO]
    omega
  have hin : w.inArray (R.GPIO_FN 0) 4 8 = true := by
    simp [Wr.inArray, ha, R.GPIO_FN]
    omega
  have hboard : w.a ≠ R.BERTH_BOARD := by
    rw [ha, R.GPIO_FN, R.BERTH_BOARD]
    omega
  simp +decide only [rule, hook, hookGpio, hboard, hpage, hin, if_true, if_false, Wr.idx, hidx]
  have hfn : Frame [.uart, .recd] (accessRegs Pg.GPIO (R.GPIO_FN n) ++ (List.range 8).map R.GPIO_FN) t
      (t.gpioFnSet n (w.get 0 3)) := frame_gpioFnSet t _ (by simp [accessRegs]) (by simp [accessRegs])
  exact (hfn.when (hfn.upd (frame_uartNext _) (by decide))).mono (by decide) (by simp)

theorem changes_uartTxWrite (path : Path) (data : Word) :
    Changes (.uartTxWrite path data) [.recd, .resp, .sup, .uart] (accessRegs Pg.GPIO R.GPIO_UTX) := by
  refine changes_row (fun _ => rfl) (by decide) fun t w g ha => ?_
  simp +decide only [rule, hook, hookGpio, ha, if_true, if_false, Wr.inArray]
  exact (frame_uartPut t _).mono (by decide) (by decide)

/-! Security and the debug port. -/

theorem changes_presenceClose (path : Path) :
    Changes (.presenceClose path) [.recd, .resp, .sec, .sup] (accessRegs Pg.SEC R.SEC_PRES) := by
  refine changes_row (fun _ => rfl) (by decide) fun t w g ha => ?_
  simp +decide only [rule, hook, hookSec, ha, if_true, if_false]
  have hclose : Frame [.sec, .recd] [R.PG_EVT Pg.SEC] t t.presClose :=
    Frame.ite (((Frame.refl ..).event (by decide)).upd (frame_sec _ _) (by decide)) (Frame.refl ..)
  exact ((Frame.refl ..).when hclose).mono (by decide) (by decide)

theorem State.frame_otpGo (s : State) : Frame [.sec, .recd] [R.PG_EVT Pg.OTP, R.OTP_STAT] s s.otpGo :=
  Frame.ite ((Frame.refl ..).accessErr (by decide)) (Frame.ite ((((Frame.refl ..).set (by decide)).set (by decide)).upd
      (frame_sec _ _) (by decide)) (((Frame.refl ..).set (by decide)).accessErr (by decide)))

theorem changes_otpProgram (path : Path) :
    Changes (.otpProgram path) [.recd, .resp, .sec, .sup] (accessRegs Pg.OTP R.OTP_CMD ++ [R.OTP_STAT]) := by
  refine changes_row (fun _ => rfl) (by decide) fun t w g ha => ?_
  simp +decide only [rule, hook, ha, if_true, if_false]
  exact ((Frame.refl ..).when (frame_otpGo t)).mono (by decide) (by decide)

theorem changes_debugRelock (path : Path) :
    Changes (.debugRelock path) [.recd, .resp, .sup] (accessRegs Pg.HOST R.DBG_CTL ++ [R.DBG_STAT]) := by
  refine changes_fieldRow (fun _ => rfl) (by decide) fun t w g ha hbits => ?_
  have hunlock : w.bit 0 = false := hbits 0 (by decide) (by decide)
  simp +decide only [rule, hook, hookHost, ha, hunlock, if_true, if_false, State.when]
  exact (frame_when (f := dbgRelock) _ ((Frame.refl [] [R.DBG_STAT] t).set (by decide))).mono (by decide) (by decide)

/-! Lanes. -/

theorem rule_lane {w : Wr} {n : Nat} (hn : n < 8) (hpage : w.a / 0x400 = 0x10 + n) (t : State) (g : Word) :
    t.rule w g = t.hookLane w := by
  have hboard : w.a ≠ R.BERTH_BOARD := fun h => by
    rw [h, R.BERTH_BOARD] at hpage
    omega
  interval_cases n <;> simp +decide only [rule, hook, hboard, hpage, if_true, if_false]

section
variable {n : Nat} {w : Wr} (hn : n < 8) (t : State) (g : Word)
include hn

theorem rule_lanePwr (ha : w.a = R.LANE_PWR n) : t.rule w g = t.lanePwr n (w.get 0 2) := by
  have hpage : w.a / 0x400 = 0x10 + n := by rw [ha, R.LANE_PWR]; omega
  have hcfg : w.a ≠ R.LANE_CFG n := by rw [ha, R.LANE_PWR, R.LANE_CFG]; omega
  simp only [rule_lane hn hpage, hookLane, hpage, Nat.add_sub_cancel_left, if_neg hcfg, if_pos ha]

theorem rule_laneEsCtl (ha : w.a = R.LANE_ES_CTL n) : t.rule w g = t.when (w.bit 31) (·.eyeScan n) := by
  have hpage : w.a / 0x400 = 0x10 + n := by rw [ha, R.LANE_ES_CTL]; omega
  have hcfg : w.a ≠ R.LANE_CFG n := by rw [ha, R.LANE_ES_CTL, R.LANE_CFG]; omega
  have hpwr : w.a ≠ R.LANE_PWR n := by rw [ha, R.LANE_ES_CTL, R.LANE_PWR]; omega
  simp only [rule_lane hn hpage, hookLane, hpage, Nat.add_sub_cancel_left, if_neg hcfg, if_neg hpwr, if_pos ha]

/-- The rule of LANE_PRBS_CTL. -/
theorem rule_lanePrbsCtl (ha : w.a = R.LANE_PRBS_CTL n) : t.rule w g =
    ((((t.when (w.bit 0 && w.was 0 1 == 0) (·.prbsStart n)).when (!w.bit 1) (·.set (F.LANE_PRBS_STAT_LOCK n) 0)).when
      (w.bit 8) (·.prbsInj n)).when (w.bit 9) (·.prbsClr n)) := by
  have hpage : w.a / 0x400 = 0x10 + n := by rw [ha, R.LANE_PRBS_CTL]; omega
  have hcfg : w.a ≠ R.LANE_CFG n := by rw [ha, R.LANE_PRBS_CTL, R.LANE_CFG]; omega
  have hpwr : w.a ≠ R.LANE_PWR n := by rw [ha, R.LANE_PRBS_CTL, R.LANE_PWR]; omega
  have hes : w.a ≠ R.LANE_ES_CTL n := by rw [ha, R.LANE_PRBS_CTL, R.LANE_ES_CTL]; omega
  simp only [rule_lane hn hpage, hookLane, hpage, Nat.add_sub_cancel_left, if_neg hcfg, if_neg hpwr, if_neg hes, if_pos ha]

end

namespace State
variable (s : State) (n : Nat)

theorem frame_setLane (l : LaneSt) : Frame [.lanes] [] s (s.setLane n l) := frame_lanes s _

theorem frame_lanePwr (st : Nat) : Frame [.lanes, .recd] [R.LANE_PWR n, R.PG_EVT (Pg.LANE n)] s (s.lanePwr n st) := by
  have hreq : Frame [.lanes, .recd] [R.LANE_PWR n, R.PG_EVT (Pg.LANE n)] s (s.set (F.LANE_PWR_REQ n) st) :=
    (Frame.refl ..).set (List.mem_cons_self ..)
  refine Frame.ite ((Frame.refl ..).accessErr (by simp)) (Frame.ite (Frame.refl ..) (Frame.ite ?_ (Frame.ite ?_ hreq)))
  · exact (hreq.set (List.mem_cons_self ..)).upd (frame_setLane _ n _) (by decide)
  · exact (hreq.set (List.mem_cons_self ..)).upd (frame_setLane _ n _) (by decide)

theorem frame_eyeScan : Frame [.lanes, .recd] [R.LANE_ES_STAT n, R.LANE_ES_ERR n, R.PG_EVT (Pg.LANE n)] s (s.eyeScan n) := by
  have hstat : ∀ f : Fld, f.addr = R.LANE_ES_STAT n → f.addr ∈ [R.LANE_ES_STAT n, R.LANE_ES_ERR n, R.PG_EVT (Pg.LANE n)] :=
    fun f hf => by simp [hf]
  refine Frame.ite ((Frame.refl ..).accessErr (by simp)) ?_
  have hbusy := ((Frame.refl [.lanes, .recd] [R.LANE_ES_STAT n, R.LANE_ES_ERR n, R.PG_EVT (Pg.LANE n)] s).set (n := 1)
    (hstat (F.LANE_ES_STAT_BUSY n) rfl)).set (n := 0) (hstat (F.LANE_ES_STAT_DONE n) rfl)
  exact (((hbusy.upd (frame_setLane _ n _) (by decide)).set (hstat (F.LANE_ES_STAT_ABORT n) rfl)).set
    (hstat (F.LANE_ES_STAT_BITS n) rfl)).setReg (by simp)

theorem frame_prbsInj : Frame [.lanes] [R.LANE_PRBS_STAT n] s (s.prbsInj n) :=
  Frame.ite (((Frame.refl ..).count (List.mem_cons_self ..)).upd (frame_setLane _ n _) (by decide)) (Frame.refl ..)

end State

theorem changes_lanePwrRequest (path : Path) {lane : Nat} (req : Nat) (hn : lane < 8) :
    Changes (.lanePwrRequest path lane req) [.lanes, .recd, .resp, .sup] (accessRegs (Pg.LANE lane) (R.LANE_PWR lane)) := by
  refine changes_row (fun _ => rfl) ((by decide : ∀ n < 8, rowFits [.lanes, .recd, .resp, .sup]
    (accessRegs (Pg.LANE n) (R.LANE_PWR n)) (R.LANE_PWR n) = true) lane hn) fun t w g ha => ?_
  rw [rule_lanePwr hn t g ha]
  exact (frame_lanePwr t lane _).mono (by decide) (by simp [accessRegs])

theorem changes_eyeScanGo (path : Path) {lane : Nat} (hn : lane < 8) :
    Changes (.eyeScanGo path lane) [.lanes, .recd, .resp, .sup]
      (accessRegs (Pg.LANE lane) (R.LANE_ES_CTL lane) ++ [R.LANE_ES_ERR lane, R.LANE_ES_STAT lane]) := by
  refine changes_row (fun _ => rfl) ((by decide : ∀ n < 8, rowFits [.lanes, .recd, .resp, .sup]
    (accessRegs (Pg.LANE n) (R.LANE_ES_CTL n) ++ [R.LANE_ES_ERR n, R.LANE_ES_STAT n]) (R.LANE_ES_CTL n) = true) lane hn)
    fun t w g ha => ?_
  rw [rule_laneEsCtl hn t g ha]
  exact (frame_when (f := (·.eyeScan lane)) _ (frame_eyeScan t lane)).mono (by decide) (by simp [accessRegs])

/-- The command bits of LANE_PRBS_CTL. -/
theorem commandBit_prbs {n : Nat} (hn : n < 8) :
    commandBit (R.LANE_PRBS_CTL n) 8 = true ∧ commandBit (R.LANE_PRBS_CTL n) 9 = true :=
  (by decide : ∀ n < 8, commandBit (R.LANE_PRBS_CTL n) 8 = true ∧ commandBit (R.LANE_PRBS_CTL n) 9 = true) n hn

theorem changes_prbsInject (path : Path) {lane : Nat} (hn : lane < 8) :
    Changes (.prbsInject path lane) [.lanes, .recd, .resp, .sup]
      (accessRegs (Pg.LANE lane) (R.LANE_PRBS_CTL lane) ++ [R.LANE_PRBS_STAT lane]) := by
  refine changes_fieldRow (fun _ => rfl) ((by decide : ∀ n < 8, rowFits [.lanes, .recd, .resp, .sup]
    (accessRegs (Pg.LANE n) (R.LANE_PRBS_CTL n) ++ [R.LANE_PRBS_STAT n]) (R.LANE_PRBS_CTL n) = true) lane hn)
    fun t w g ha hbits => ?_
  have hclr : w.bit 9 = false := hbits 9 (by simp [F.LANE_PRBS_CTL_INJ]) (commandBit_prbs hn).2
  rw [rule_lanePrbsCtl hn t g ha, hclr, State.when, if_neg (by simp)]
  have hstat : R.LANE_PRBS_STAT lane ∈ [R.LANE_PRBS_STAT lane] := List.mem_cons_self ..
  have hstart : Frame [.lanes] [R.LANE_PRBS_STAT lane] t (t.when (w.bit 0 && w.was 0 1 == 0) (·.prbsStart lane)) :=
    frame_when _ ((Frame.refl ..).upd (frame_setLane t lane _) (by decide))
  have hlock := hstart.seq (frame_when (f := (·.set (F.LANE_PRBS_STAT_LOCK lane) 0)) (!w.bit 1) ((Frame.refl ..).set hstat))
  exact (hlock.seq (frame_when (f := (·.prbsInj lane)) (w.bit 8) (frame_prbsInj _ lane))).mono (by decide) (by simp [accessRegs])

/-- Has a register no shadow field (R71)? -/
def unshadowed (a : Nat) : Bool :=
  match regAt (a / 0x400) (a % 0x400) with
  | some d => maskOf d (fun f => f.kind == .sh) == 0
  | none => true

/-- Such a register reads the same whether active values are asked for or not. -/
theorem viewReg_of_unshadowed {a : Nat} (h : unshadowed a = true) (hown : ownAddress a = true) (hctl : a % 0x400 ≠ 0x40)
    (s : State) (p : Nat) (active : Bool) : s.viewReg p a active = s.viewReg p a false := by
  unfold viewReg
  rw [home_of_ownAddress hown]
  dsimp only
  split
  · rfl
  next d hd =>
    have hmask : maskOf d (fun f => f.kind == .sh) = 0 := by simpa [unshadowed, hd] using h
    have hstored (b : Bool) : s.stored d a b = s.reg a := by
      have hnone : ~~~BitVec.ofNat 32 0 = BitVec.allOnes 32 := rfl
      cases b <;> simp only [stored, hmask, hnone, BitVec.and_allOnes, BitVec.and_zero, BitVec.or_zero,
        if_true, if_false, Bool.false_eq_true]
    simp only [hstored, hctl, false_and, and_false, if_false]

/-- The write that clears the error count of a lane starts no pattern: GEN is written as it stands. -/
theorem prbsClear_keepsGen {s : State} {path : Path} {n : Nat} {w : Wr} (hn : n < 8)
    (h : Given s path (R.LANE_PRBS_CTL n)
      (put (F.LANE_PRBS_CTL_CLR n) 1 (s.viewWord (pathIdx path) (R.LANE_PRBS_CTL n))) w) :
    (w.bit 0 && w.was 0 1 == 0) = false := by
  obtain ⟨hown, hun, hctl⟩ := (by decide : ∀ n < 8, ownAddress (R.LANE_PRBS_CTL n) = true ∧
    unshadowed (R.LANE_PRBS_CTL n) = true ∧ 0x40 < R.LANE_PRBS_CTL n % 0x400) n hn
  by_contra hgen
  obtain ⟨hbit, hwas⟩ := Bool.and_eq_true_iff.mp (Bool.not_eq_false _ ▸ hgen)
  have hold : w.old.getLsbD 0 = true := by
    rcases h.bits 0 (getLsbD_of_bit hbit) with ho | hd
    · exact ho
    · have hv := getLsbD_put_one (f := F.LANE_PRBS_CTL_CLR n) (by simp [F.LANE_PRBS_CTL_CLR]) hd
      rwa [viewWord_of_field hctl.le, viewReg_of_unshadowed hun hown hctl.ne', ← h.old] at hv
  have hone : getBits w.old 0 1 = 1 := by
    have htest : w.old.toNat.testBit 0 = true := hold
    rw [Nat.testBit_zero, decide_eq_true_eq] at htest
    simp [getBits, htest]
  simp [Wr.was, hone] at hwas

theorem changes_prbsClear (path : Path) {lane : Nat} (hn : lane < 8) :
    Changes (.prbsClear path lane) [.recd, .resp, .sup]
      (accessRegs (Pg.LANE lane) (R.LANE_PRBS_CTL lane) ++ [R.LANE_PRBS_ERR lane, R.LANE_PRBS_STAT lane]) := by
  have hfit := (by decide : ∀ n < 8, rowFits [.recd, .resp, .sup] (accessRegs (Pg.LANE n) (R.LANE_PRBS_CTL n) ++
    [R.LANE_PRBS_ERR n, R.LANE_PRBS_STAT n]) (R.LANE_PRBS_CTL n) = true) lane hn
  obtain ⟨-, -, hfield, hown⟩ := rowFits_iff.mp hfit
  refine changes_writeRow (fun _ => rfl) hfit fun s t w g h _ => ?_
  have hgen := prbsClear_keepsGen hn h
  have hinj : w.bit 8 = false :=
    Given.bit_field (f := F.LANE_PRBS_CTL_CLR lane) h (by simp [F.LANE_PRBS_CTL_CLR]) (commandBit_prbs hn).1 hown hfield
  rw [rule_lanePrbsCtl hn t g h.addr, hgen, hinj]
  simp only [State.when, Bool.false_eq_true, if_false]
  have hlock : Frame [] [R.LANE_PRBS_ERR lane, R.LANE_PRBS_STAT lane] t
      (t.when (!w.bit 1) (·.set (F.LANE_PRBS_STAT_LOCK lane) 0)) :=
    frame_when _ ((Frame.refl ..).set (by simp [F.LANE_PRBS_STAT_LOCK]))
  exact (hlock.seq (frame_when (f := (·.prbsClr lane)) (w.bit 9) ((Frame.refl ..).setReg (by simp)))).mono (by decide)
    (by simp [accessRegs])

end Sys2Proof.Machine
end

section
/-! PROOFS. Frames of the register commands of time, of the trees and of the berths (R222 to R244, R291, R296, R328), and of the
commands that read a register. -/

namespace Sys2Proof.Machine

open State

variable {ps : List Part} {rs : List Nat}

/-! Reads. -/

namespace State

theorem frame_readAt {a : Nat} (hfit : AccessFits ps rs a) {s : State} {path : Path}
    (hread : Frame ps rs s (s.readReg path a).2.2) : Frame ps rs s (s.readAt path a).2.2 := by
  unfold readAt
  split
  · exact Frame.refl ..
  split
  · exact frame_pageError hfit s
  · exact hread

/-- A read command of one word. -/
theorem frame_readCmd {a : Nat} (hfit : AccessFits ps rs a) {s : State} {path : Path}
    (hread : Frame ps rs s (s.readReg path a).2.2) : Frame ps rs s (s.readCmd path a) := by
  have hat := frame_readAt hfit hread
  have hburst : Frame ps rs s (s.burstRead path a 1).2.2.2 := by
    unfold burstRead
    dsimp only
    split
    · exact frame_pageError hfit s
    · simp only [readWords]
      split <;> exact hat
  exact hburst.seq (frame_answerAccess hfit _ _ _ _ _)

end State

/-- A command that reads one word. -/
theorem changes_readRow {c : Instr} {path : Path} {a : Nat} (he : ∀ s, exec c s = readRow s path a)
    (hfit : rowFits ps rs a = true) (hread : ∀ s : State, Frame ps rs s (s.readReg path a).2.2) : Changes c ps rs :=
  changes_of_act he fun s => frame_readCmd (rowFits_iff.mp hfit).1 (hread s)

theorem changes_urxRead (path : Path) :
    Changes (.urxRead path) [.recd, .resp, .sup, .uart] (accessRegs Pg.GPIO R.GPIO_URX) := by
  refine changes_readRow (fun _ => rfl) (by decide) fun s => ?_
  have hhome : s.home R.GPIO_URX = R.GPIO_URX := home_of_ownAddress rfl s
  simp +decide only [readReg, hhome, if_true, if_false, or_false]
  split
  · exact Frame.refl ..
  · exact (frame_uartGet s).mono (by decide) (by decide)

theorem changes_timeNowRead (path : Path) : Changes (.timeNowRead path) [.recd, .resp, .sup]
    (accessRegs Pg.TIME R.TIME_NOW_NS ++ [R.TIME_NOW_FR, R.TIME_NOW_SH, R.TIME_NOW_SL]) := by
  refine changes_readRow (fun _ => rfl) (by decide) fun s => ?_
  have hhome : s.home R.TIME_NOW_NS = R.TIME_NOW_NS := home_of_ownAddress rfl s
  simp +decide only [readReg, hhome, if_true, if_false, or_false]
  split
  · exact Frame.refl ..
  · exact ((((Frame.refl ..).setReg (by decide)).setReg (by decide)).setReg (by decide)).setReg (by decide)

theorem State.frame_popTs (s : State) (p : Nat) :
    Frame [.time] [R.TIME_TSQ_ID p, R.TIME_TSQ_NS p, R.TIME_TSQ_SL p] s (s.popTs p) := by
  unfold popTs
  split
  · exact (Frame.refl ..).set (by simp [F.TIME_TSQ_ID_VALID])
  · exact ((((Frame.refl ..).upd (frame_time s _) (by decide)).setReg (by simp)).setReg (by simp)).setReg (by simp)

theorem changes_tsqPop (path : Path) {port : Nat} (hp : port < 2) : Changes (.tsqPop path port) [.recd, .resp, .sup, .time]
    (accessRegs Pg.TIME (R.TIME_TSQ_ID port) ++ [R.TIME_TSQ_NS port, R.TIME_TSQ_SL port]) := by
  refine changes_readRow (fun _ => rfl) ((by decide : ∀ p < 2, rowFits [.recd, .resp, .sup, .time]
    (accessRegs Pg.TIME (R.TIME_TSQ_ID p) ++ [R.TIME_TSQ_NS p, R.TIME_TSQ_SL p]) (R.TIME_TSQ_ID p) = true) port hp) fun s => ?_
  have hpop := (frame_popTs s port).mono (qs := [.recd, .resp, .sup, .time])
    (us := accessRegs Pg.TIME (R.TIME_TSQ_ID port) ++ [R.TIME_TSQ_NS port, R.TIME_TSQ_SL port]) (by decide) (by simp [accessRegs])
  have hread : (s.readReg path (R.TIME_TSQ_ID port)).2.2 = s ∨
      (s.readReg path (R.TIME_TSQ_ID port)).2.2 = s.popTs port := by
    have hhome : s.home (R.TIME_TSQ_ID port) = R.TIME_TSQ_ID port :=
      home_of_ownAddress ((by decide : ∀ p < 2, ownAddress (R.TIME_TSQ_ID p) = true) port hp) s
    interval_cases port <;> simp +decide only [readReg, hhome, if_true, if_false, or_false] <;> split <;> simp
  rcases hread with h | h <;> rw [h]
  · exact Frame.refl ..
  · exact hpop

/-! Time. -/

theorem changes_timeIncWrite (path : Path) (frac : Word) :
    Changes (.timeIncWrite path frac) [.recd, .resp, .sup, .time] (accessRegs Pg.TIME R.TIME_INC_FRAC) := by
  refine changes_row (fun _ => rfl) (by decide) fun t w g ha => ?_
  simp +decide only [rule, hook, hookTime, ha, if_true, if_false]
  exact (frame_time t _).mono (by decide) (by simp)

theorem State.frame_requestJump (s : State) (j : TimeJump) :
    Frame [.now, .recd, .time] [R.PG_EVT Pg.TIME] s (s.requestJump j) :=
  Frame.ite ((Frame.refl ..).event (by decide)) (Frame.ite ((Frame.refl ..).upd (frame_time s _) (by decide))
    (((Frame.refl ..).upd (frame_nowTime s _ _) (by decide)).event (by decide)))

theorem frame_rule_timeCmd {w : Wr} (ha : w.a = R.TIME_CMD) (t : State) (g : Word) :
    Frame [.now, .recd, .time] [R.PG_EVT Pg.TIME] t (t.rule w g) := by
  simp +decide only [rule, hook, hookTime, ha, if_true, if_false]
  exact Frame.ite ((Frame.refl ..).event (by decide))
    (Frame.ite (frame_requestJump t _) (Frame.ite (frame_requestJump t _) (Frame.refl ..)))

theorem changes_timeCmdStep (path : Path) :
    Changes (.timeCmdStep path) [.now, .recd, .resp, .sup, .time] (accessRegs Pg.TIME R.TIME_CMD) :=
  changes_row (fun _ => rfl) (by decide) fun t _ g ha => (frame_rule_timeCmd ha t g).mono (by decide) (by decide)

theorem changes_timeCmdSet (path : Path) :
    Changes (.timeCmdSet path) [.now, .recd, .resp, .sup, .time] (accessRegs Pg.TIME R.TIME_CMD) :=
  changes_row (fun _ => rfl) (by decide) fun t _ g ha => (frame_rule_timeCmd ha t g).mono (by decide) (by decide)

/-! Trees. -/

namespace State

theorem frame_setPort (s : State) (p : Nat) (x : PortSt) : Frame [.ports] [] s (s.setPort p x) := frame_ports s _

theorem frame_setBerth (s : State) (i : Nat) (b : BerthSt) : Frame [.berths] [] s (s.setBerth i b) := frame_berths s _

theorem frame_mgmtQueue (s : State) (p : Nat) (r : MgmtRec) : Frame [.ports] [] s (s.mgmtQueue p r).2 := frame_setPort s p _

theorem frame_mailboxGo (s : State) (p : Nat) :
    Frame [.ports, .recd] [R.PG_EVT (Pg.TREE p), R.TREE_MQ p, R.TREE_RA_STAT p] s (s.mailboxGo p) := by
  have herr : Frame [.ports, .recd] [R.PG_EVT (Pg.TREE p), R.TREE_MQ p, R.TREE_RA_STAT p] s (s.accessErr (Pg.TREE p)) :=
    (Frame.refl ..).accessErr (by simp)
  refine Frame.ite herr (Frame.ite (Frame.refl ..) (Frame.ite herr (Frame.ite ?_ ?_)))
  · exact (((Frame.refl ..).set (by simp [F.TREE_RA_STAT_CODE])).set (by simp [F.TREE_RA_STAT_INDEX])).bump
      (by simp [F.TREE_MQ_TIMEOUT])
  · exact ((((Frame.refl ..).upd (frame_mgmtQueue s p _) (by decide)).upd (frame_setPort _ p _) (by decide)).set
      (by simp [F.TREE_RA_STAT_BUSY])).set
      (by simp [F.TREE_RA_STAT_TID])

end State

theorem rule_treeRaCmd {w : Wr} {p : Nat} (hp : p < 4) (ha : w.a = R.TREE_RA_CMD p) (t : State) (g : Word) :
    t.rule w g = t.when (w.bit 15) (·.mailboxGo p) := by
  interval_cases p <;> simp +decide only [rule, hook, ha, if_true, if_false] <;> rfl

theorem changes_treeRaGo (path : Path) {port : Nat} (data : Word) (hp : port < 4) :
    Changes (.treeRaGo path port data) [.ports, .recd, .resp, .sup]
      (accessRegs (Pg.TREE port) (R.TREE_RA_CMD port) ++ [R.TREE_MQ port, R.TREE_RA_STAT port]) := by
  refine changes_row (fun _ => rfl) ((by decide : ∀ p < 4, rowFits [.ports, .recd, .resp, .sup]
    (accessRegs (Pg.TREE p) (R.TREE_RA_CMD p) ++ [R.TREE_MQ p, R.TREE_RA_STAT p]) (R.TREE_RA_CMD p) = true) port hp)
    fun t w g ha => ?_
  rw [rule_treeRaCmd hp ha]
  exact (frame_when (f := (·.mailboxGo port)) _ (frame_mailboxGo t port)).mono (by decide) (by simp [accessRegs])

/-! Berths. -/

theorem State.frame_setWindow (s : State) (p : Nat) (on : Bool) :
    Frame [.ports, .recd] [R.BERTH_BOARD, R.PG_EVT Pg.BERTH] s (s.setWindow p on) := by
  have hopen := ((Frame.refl [.ports, .recd] [R.BERTH_BOARD, R.PG_EVT Pg.BERTH] s).set (f := ⟨R.BERTH_BOARD, p, 1⟩)
    (n := b2n on) (List.mem_cons_self ..)).upd (frame_setPort _ p { (s.set ⟨R.BERTH_BOARD, p, 1⟩ (b2n on)).port p with
      winEnd := (s.set ⟨R.BERTH_BOARD, p, 1⟩ (b2n on)).elapsed +
        (s.set ⟨R.BERTH_BOARD, p, 1⟩ (b2n on)).windowSec * unitsPerSec }) (by decide)
  exact Frame.ite (hopen.event (by decide)) (Frame.ite (hopen.event (by decide)) hopen)

theorem frame_rule_board {w : Wr} (ha : w.a = R.BERTH_BOARD) (t : State) (g : Word) :
    Frame [.ports, .recd] [R.BERTH_BOARD, R.PG_EVT Pg.BERTH] t (t.rule w g) := by
  simp only [rule, ha, if_true]
  exact Frame.forUpTo (fun p u => Frame.ite (frame_setWindow u p false) (Frame.ite (frame_setWindow u p true)
      (Frame.refl ..))) 4 t

theorem changes_enrolmentWindowOpen (path : Path) (port : Nat) :
    Changes (.enrolmentWindowOpen path port) [.freeCtr, .ports, .recd, .resp, .sup] (accessRegs Pg.BERTH R.BERTH_BOARD) :=
  changes_row (a := R.BERTH_BOARD) (fun _ => rfl) (by decide) fun t _ g ha => (frame_rule_board ha t g).mono (by decide)
      (by decide)

theorem changes_enrolmentWindowClose (path : Path) (port : Nat) :
    Changes (.enrolmentWindowClose path port) [.freeCtr, .ports, .recd, .resp, .sup] (accessRegs Pg.BERTH R.BERTH_BOARD) :=
  changes_row (a := R.BERTH_BOARD) (fun _ => rfl) (by decide) fun t _ g ha => (frame_rule_board ha t g).mono (by decide)
      (by decide)

theorem rule_berthCmd {w : Wr} (ha : w.a = R.BERTH_CMD) (t : State) (g : Word) :
    t.rule w g = ((t.when (w.bit 0) berthRd).when (w.bit 1) (·.berthWr w.guard)).when (w.bit 2) berthClr := by
  simp +decide only [rule, hook, hookBerth, ha, if_true, if_false]

theorem frame_forUpTo_of_lt {k : Nat} {f : Nat → State → State} (h : ∀ n < k, ∀ t, Frame ps rs t (f n t)) (s : State) :
    Frame ps rs s (forUpTo f k s) := by
  induction k with
  | zero => exact Frame.refl ..
  | succ k ih => exact (ih fun n hn => h n (by omega)).seq (h k (by omega) _)

theorem State.frame_berthRd (s : State) : Frame [] ((List.range 16).map R.BERTH_E) s s.berthRd :=
  frame_forUpTo_of_lt (fun _ hn _ => (Frame.refl ..).setReg (List.mem_map_of_mem (List.mem_range.mpr hn))) s

theorem changes_berthCmdRd (path : Path) : Changes (.berthCmdRd path) [.recd, .resp, .sup]
    (accessRegs Pg.BERTH R.BERTH_CMD ++ (List.range 16).map R.BERTH_E) := by
  refine changes_fieldRow (fun _ => rfl) (by decide) fun t w g ha hbits => ?_
  have hwr : w.bit 1 = false := hbits 1 (by decide) (by decide)
  have hclr : w.bit 2 = false := hbits 2 (by decide) (by decide)
  rw [rule_berthCmd ha, hwr, hclr]
  exact (frame_when (f := berthRd) _ (frame_berthRd t)).mono (by simp) fun _ h => List.mem_append_right _ h

theorem changes_berthCmdClrcnt (path : Path) :
    Changes (.berthCmdClrcnt path) [.berths, .recd, .resp, .sup] (accessRegs Pg.BERTH R.BERTH_CMD) := by
  refine changes_fieldRow (fun _ => rfl) (by decide) fun t w g ha hbits => ?_
  have hrd : w.bit 0 = false := hbits 0 (by decide) (by decide)
  have hwr : w.bit 1 = false := hbits 1 (by decide) (by decide)
  rw [rule_berthCmd ha, hrd, hwr]
  exact (frame_when (f := berthClr) _ (frame_setBerth t _ _)).mono (by decide) (by simp)

end Sys2Proof.Machine
end

section
/-! PROOFS. Frames of the register commands of modulation, of the rank engine, of the control engine and its chains, of the RCU
and
of the injectors (R359, R361, R389, R398, R403, R413 to R422, R436, R447, R451). -/

namespace Sys2Proof.Machine

open State

theorem getBits_lt (v : Word) (lo w : Nat) : getBits v lo w < 2 ^ w := Nat.mod_lt _ (Nat.two_pow_pos w)

/-! Modulation. -/

theorem State.frame_pcmdGo (s : State) : Frame [.mod, .recd] [R.MOD_PCMD, R.PG_EVT Pg.MOD] s s.pcmdGo :=
  Frame.ite ((Frame.refl ..).accessErr (by decide)) (((Frame.refl ..).set (by decide)).upd (frame_mod _ _) (by decide))

theorem changes_protectiveCommand (path : Path) (data : Word) :
    Changes (.protectiveCommand path data) [.mod, .recd, .resp, .sup] (accessRegs Pg.MOD R.MOD_PCMD) := by
  refine changes_row (fun _ => rfl) (by decide) fun t w g ha => ?_
  simp +decide only [rule, hook, hookMod, ha, if_true, if_false]
  exact (frame_when (f := pcmdGo) _ (frame_pcmdGo t)).mono (by decide) (by decide)

theorem State.frame_modeGo (s : State) (kh : Nat) :
    Frame [.mod, .recd] [R.MOD_MODE, R.MOD_CEPOCH, R.PG_EVT Pg.MOD] s (s.modeGo kh) := by
  refine Frame.ite ((Frame.refl ..).accessErr (by decide)) ?_
  have hpend (x : ModSt) (n : Nat) : Frame [.mod, .recd] [R.MOD_MODE, R.MOD_CEPOCH, R.PG_EVT Pg.MOD] s
      ((({ s with mod := x } : State).set F.MOD_MODE_NEXT n).set F.MOD_MODE_PEND 1) :=
          (((Frame.refl ..).upd (frame_mod s x) (by decide)).set (by decide)).set (by decide)
  exact Frame.ite ((hpend _ _).set (by decide)) (hpend _ _)

theorem changes_modeChangeGo (path : Path) (data : Word) : Changes (.modeChangeGo path data) [.mod, .recd, .resp, .sup]
    (accessRegs Pg.MOD R.MOD_MSW_HI ++ [R.MOD_CEPOCH, R.MOD_MODE]) := by
  refine changes_row (fun _ => rfl) (by decide) fun t w g ha => ?_
  simp +decide only [rule, hook, hookMod, ha, if_true, if_false]
  exact (frame_when (f := fun t => t.modeGo t.cycle) _ (frame_modeGo t _)).mono (by decide) (by decide)

/-! The rank engine. -/

namespace State
variable (s : State)

theorem frame_rankRd : Frame [] ((List.range 16).map R.RANK_E) s s.rankRd :=
  frame_forUpTo_of_lt (fun _ hn _ => (Frame.refl ..).setReg (List.mem_map_of_mem (List.mem_range.mpr hn))) s

theorem frame_rankJob (j : RankJob) : Frame [.rank, .recd] [R.PG_EVT Pg.RANK] s (s.rankJob j) :=
  Frame.ite ((Frame.refl ..).upd (frame_rank s _) (by decide)) ((Frame.refl ..).accessErr (by decide))

theorem frame_rankSetc : Frame [.rank, .recd] [R.PG_EVT Pg.RANK] s s.rankSetc :=
  Frame.ite (frame_rankJob s _) ((Frame.refl ..).accessErr (by decide))

theorem frame_rankSetv : Frame [.rank, .recd] [R.PG_EVT Pg.RANK] s s.rankSetv :=
  Frame.ite (frame_rankJob s _) ((Frame.refl ..).accessErr (by decide))

end State

theorem rule_rankCmd {w : Wr} (ha : w.a = R.RANK_CMD) (t : State) (g : Word) : t.rule w g =
    (((t.when (w.bit 0) rankRd).when (w.bit 1) rankWr).when (w.bit 2) rankSetc).when (w.bit 3) rankSetv := by
  simp +decide only [rule, hook, hookRank, ha, if_true, if_false]

theorem changes_rankCmdRd (path : Path) : Changes (.rankCmdRd path) [.recd, .resp, .sup]
    (accessRegs Pg.RANK R.RANK_CMD ++ (List.range 16).map R.RANK_E) := by
  refine changes_fieldRow (fun _ => rfl) (by decide) fun t w g ha hbits => ?_
  have hwr : w.bit 1 = false := hbits 1 (by decide) (by decide)
  have hsetc : w.bit 2 = false := hbits 2 (by decide) (by decide)
  have hsetv : w.bit 3 = false := hbits 3 (by decide) (by decide)
  rw [rule_rankCmd ha, hwr, hsetc, hsetv]
  exact (frame_when (f := rankRd) _ (frame_rankRd t)).mono (by simp) fun _ h => List.mem_append_right _ h

/-- The commands of RANK_CMD other than RD queue their jobs. -/
theorem frame_rule_rankCmd {w : Wr} (ha : w.a = R.RANK_CMD) (hrd : w.bit 0 = false) (t : State) (g : Word) :
    Frame [.rank, .recd] [R.PG_EVT Pg.RANK] t (t.rule w g) := by
  rw [rule_rankCmd ha, hrd]
  have hwr : Frame [.rank, .recd] [R.PG_EVT Pg.RANK] t (t.when (w.bit 1) rankWr) := frame_when _ (frame_rankJob t _)
  exact (hwr.seq (frame_when _ (frame_rankSetc _))).seq (frame_when _ (frame_rankSetv _))

theorem changes_rankCmdWr (path : Path) :
    Changes (.rankCmdWr path) [.rank, .recd, .resp, .sup] (accessRegs Pg.RANK R.RANK_CMD) :=
  changes_fieldRow (fun _ => rfl) (by decide) fun t _ g ha hbits =>
    (frame_rule_rankCmd ha (hbits 0 (by decide) (by decide)) t g).mono (by decide) (by decide)

theorem changes_rankCmdSetc (path : Path) :
    Changes (.rankCmdSetc path) [.rank, .recd, .resp, .sup] (accessRegs Pg.RANK R.RANK_CMD) :=
  changes_fieldRow (fun _ => rfl) (by decide) fun t _ g ha hbits =>
    (frame_rule_rankCmd ha (hbits 0 (by decide) (by decide)) t g).mono (by decide) (by decide)

theorem changes_rankCmdSetv (path : Path) :
    Changes (.rankCmdSetv path) [.rank, .recd, .resp, .sup] (accessRegs Pg.RANK R.RANK_CMD) :=
  changes_fieldRow (fun _ => rfl) (by decide) fun t _ g ha hbits =>
    (frame_rule_rankCmd ha (hbits 0 (by decide) (by decide)) t g).mono (by decide) (by decide)

/-! The control engine and its chains. -/

namespace State
variable (s : State)

theorem frame_pgmLoad {sl : Nat} (hsl : sl < 2) :
    Frame [.eng, .recd] (R.PG_EVT Pg.CTL :: (List.range 2).map R.CTL_PGM_STAT) s (s.pgmLoad sl) := by
  refine Frame.ite ((Frame.refl ..).accessErr (by simp)) ?_
  have hbusy : Frame [.eng, .recd] (R.PG_EVT Pg.CTL :: (List.range 2).map R.CTL_PGM_STAT) s (s.set (F.CTL_PGM_STAT_BUSY sl) 1) :=
    (Frame.refl ..).set (List.mem_cons_of_mem _ (List.mem_map_of_mem (List.mem_range.mpr hsl)))
  exact hbusy.upd (frame_eng _ _) (by decide)

theorem frame_sigQueue (v : Word) : Frame [.eng, .recd] [R.CTL_SIGQ, R.PG_EVT Pg.CTL] s (s.sigQueue v) :=
  Frame.ite ((Frame.refl ..).upd (frame_eng s _) (by decide)) (((Frame.refl ..).bump (by decide)).event (by decide))

theorem frame_chainQueue (v : Word) : Frame [.eng, .recd] [R.CHAIN_QSTAT, R.PG_EVT Pg.CHAIN] s (s.chainQueue v) :=
  Frame.ite ((Frame.refl ..).upd (frame_eng s _) (by decide)) (((Frame.refl ..).bump (by decide)).event (by decide))

theorem frame_chainRead : Frame [.recd] [R.CHAIN_RLO, R.CHAIN_RHI, R.PG_EVT Pg.CHAIN] s s.chainRead :=
  Frame.ite ((((Frame.refl ..).setReg (by decide)).setReg (by decide)).accessErr (by decide)) (((Frame.refl ..).setReg
      (by decide)).setReg (by decide))

theorem frame_hoState (n : Nat) : Frame [] [R.CTL_STAT, R.CTL_HO_STAT] s (s.hoState n) :=
    ((Frame.refl ..).set (by decide)).set (by decide)

/-- What a handover can change. -/
abbrev HoFrame (s t : State) : Prop :=
  Frame [.eng, .recd] [R.CTL_STAT, R.CTL_HO_STAT, R.CTL_HOCNT, R.PG_EVT Pg.CTL] s t

theorem HoFrame.hoState {s t : State} (h : HoFrame s t) (n : Nat) : HoFrame s (t.hoState n) :=
  h.andThen (frame_hoState t n) (by decide) (by decide)

theorem hoFrame_hoEnd (h : HoSt) (last : Nat) (take : Bool) : HoFrame s (s.hoEnd h last take) := by
  have htake : HoFrame s (s.when take fun s => (s.set F.CTL_STAT_ACT h.slot).count F.CTL_HOCNT_HANDOVERS) :=
    (Frame.refl ..).when (((Frame.refl ..).set (by simp [F.CTL_STAT_ACT])).count (by decide))
  exact (((htake.hoState 0).set (by decide)).event (by decide)).upd (frame_eng _ _) (by decide)

theorem hoFrame_hoGo (kh : Nat) : HoFrame s (s.hoGo kh) := by
  refine Frame.ite ((Frame.refl ..).accessErr (by decide)) ?_
  have hstart (x : EngSt) : HoFrame s ({ s with eng := x } : State) := (Frame.refl ..).upd (frame_eng s x) (by decide)
  exact ((((hstart _).hoState 1).set (by decide)).set (by decide)).event (by decide)

theorem hoFrame_hoAbort : HoFrame s s.hoAbort := by
  unfold hoAbort
  split
  · exact Frame.refl ..
  · exact Frame.ite ((Frame.refl ..).upd (frame_eng s _) (by decide)) (hoFrame_hoEnd s _ _ _)

end State

theorem changes_programLoad (path : Path) (sl : Nat) : Changes (.programLoad path sl) [.eng, .recd, .resp, .sup]
    (accessRegs Pg.CTL R.CTL_PGM_CMD ++ (List.range 2).map R.CTL_PGM_STAT) := by
  refine changes_row (fun _ => rfl) (by decide) fun t w g ha => ?_
  simp +decide only [rule, hook, hookCtl, ha, if_true, if_false]
  exact (frame_when (f := (·.pgmLoad (w.get 4 1))) _ (frame_pgmLoad t (getBits_lt _ _ _))).mono (by decide) (by decide)

theorem changes_sigdataWrite (path : Path) (data : Word) : Changes (.sigdataWrite path data) [.eng, .recd, .resp, .sup]
    (accessRegs Pg.CTL R.CTL_SIGDATA ++ [R.CTL_SIGQ]) := by
  refine changes_row (fun _ => rfl) (by decide) fun t w g ha => ?_
  simp +decide only [rule, hook, hookCtl, ha, if_true, if_false]
  exact (frame_sigQueue t _).mono (by decide) (by decide)

theorem changes_chainQueueWrite (path : Path) (data : Word) : Changes (.chainQueueWrite path data) [.eng, .recd, .resp, .sup]
    (accessRegs Pg.CHAIN R.CHAIN_DHI ++ [R.CHAIN_QSTAT]) := by
  refine changes_row (fun _ => rfl) (by decide) fun t w g ha => ?_
  simp +decide only [rule, hook, hookChain, ha, if_true, if_false]
  exact (frame_chainQueue t _).mono (by decide) (by decide)

theorem changes_chainCmdRd (path : Path) : Changes (.chainCmdRd path) [.recd, .resp, .sup]
    (accessRegs Pg.CHAIN R.CHAIN_CMD ++ [R.CHAIN_RHI, R.CHAIN_RLO]) := by
  refine changes_row (fun _ => rfl) (by decide) fun t w g ha => ?_
  simp +decide only [rule, hook, hookChain, ha, if_true, if_false]
  exact (frame_when (f := chainRead) _ (frame_chainRead t)).mono (by decide) (by decide)

theorem hoFrame_rule {w : Wr} (ha : w.a = R.CTL_HO_CTL) (t : State) (g : Word) : HoFrame t (t.rule w g) := by
  simp +decide only [rule, hook, hookCtl, ha, if_true, if_false]
  have hgo : HoFrame t (t.when (w.bit 30) fun t => t.hoGo t.cycle) := frame_when _ (hoFrame_hoGo t _)
  exact Frame.ite ((Frame.refl ..).accessErr (by decide)) (hgo.seq (frame_when _ (hoFrame_hoAbort _)))

theorem changes_handoverGo (path : Path) (data : Word) : Changes (.handoverGo path data) [.eng, .recd, .resp, .sup]
    (accessRegs Pg.CTL R.CTL_HO_CTL ++ [R.CTL_HOCNT, R.CTL_HO_STAT, R.CTL_STAT]) :=
  changes_row (fun _ => rfl) (by decide) fun t _ g ha => (hoFrame_rule ha t g).mono (by decide) (by decide)

theorem changes_handoverAbort (path : Path) (data : Word) : Changes (.handoverAbort path data) [.eng, .recd, .resp, .sup]
    (accessRegs Pg.CTL R.CTL_HO_CTL ++ [R.CTL_HOCNT, R.CTL_HO_STAT, R.CTL_STAT]) :=
  changes_row (fun _ => rfl) (by decide) fun t _ g ha => (hoFrame_rule ha t g).mono (by decide) (by decide)

/-! The RCU and the injectors. -/

namespace State
variable (s : State)

theorem frame_clearRange (a n : Nat) : Frame [.mem, .box, .memErr] [] s (s.clearRange a n) :=
  frame_of_parts rfl rfl fun p hp => by cases p <;> simp_all [Part.same, clearRange]

theorem frame_rcuClear (u : Nat) : Frame [.box, .comp, .mem, .memErr] [R.RCU_STAT] s (s.rcuClear u) :=
  (((Frame.refl ..).upd (frame_clearRange s _ _) (by decide)).set (by decide)).upd (frame_comp _ _) (by decide)

theorem frame_setInj (i : Nat) (x : InjSt) : Frame [.comp] [] s (s.setInj i x) := frame_comp s _

/-- The registers that show the injectors. -/
def injRegs : List Nat := R.PG_EVT Pg.SUP :: (List.range 2).map R.SUP_ISTAT

theorem mem_injRegs {i : Nat} (hi : i < 2) : R.SUP_ISTAT i ∈ injRegs :=
  List.mem_cons_of_mem _ (List.mem_map_of_mem (List.mem_range.mpr hi))

theorem frame_injGo {i : Nat} (hi : i < 2) : Frame [.comp, .recd] injRegs s (s.injGo i) :=
  Frame.ite ((Frame.refl ..).accessErr (by decide)) ((((Frame.refl ..).upd (frame_setInj s i _) (by decide)).set
      (mem_injRegs hi)).set (mem_injRegs hi))

theorem frame_injStopCmd (i : Nat) : Frame [.comp, .recd] injRegs s (s.injStopCmd i) :=
  Frame.ite ((Frame.refl ..).upd (frame_setInj s i _) (by decide)) (Frame.refl ..)

theorem frame_rounded (x : DWord) : Frame [.freeCtr] [] s (s.rounded x).2 := by
  unfold rounded
  split
  · exact Frame.refl ..
  · exact frame_free s

theorem frame_frStart {i : Nat} (hi : i < 2) (p : Nat) :
    Frame [.comp, .freeCtr, .recd] (R.SUP_FRSTAT :: injRegs) s (s.frStart i p) := by
  have hrun (x : DWord) (y : InjSt) : Frame [.comp, .freeCtr, .recd] (R.SUP_FRSTAT :: injRegs) s
      (((s.rounded x).2.setInj i y).set (F.SUP_ISTAT_RUN i) 1) :=
    (((Frame.refl ..).upd (frame_rounded s x) (by decide)).upd (frame_setInj _ i y) (by decide)).set (List.mem_cons_of_mem _
        (mem_injRegs hi))
  exact (((hrun _ _).set (List.mem_cons_self ..)).set (by decide)).upd (frame_comp _ _) (by decide)

theorem frame_frGo : Frame [.comp, .freeCtr, .recd] (R.SUP_FRSTAT :: injRegs) s s.frGo := by
  refine Frame.ite ((Frame.refl ..).accessErr (by decide)) ?_
  exact (((Frame.refl ..).upd (frame_comp s _) (by decide)).set (by decide)).seq (frame_frStart _ (getBits_lt _ _ _) 0)

end State

theorem changes_rcuClear (path : Path) (u : Nat) : Changes (.rcuClear path u) [.box, .comp, .mem, .memErr, .recd, .resp, .sup]
    (accessRegs Pg.RCU R.RCU_CMD ++ [R.RCU_STAT]) := by
  refine changes_row (fun _ => rfl) (by decide) fun t w g ha => ?_
  simp +decide only [rule, hook, hookRcu, ha, if_true, if_false]
  exact (frame_when (f := (·.rcuClear (w.get 0 4))) _ (frame_rcuClear t _)).mono (by decide) (by decide)

/-- The rule of an injector's control register. -/
theorem frame_rule_injector {w : Wr} {i : Nat} (hi : i < 2) (ha : w.a = R.SUP_ICTL i) (t : State) (g : Word) :
    Frame [.comp, .recd] injRegs t (t.rule w g) := by
  have hrule : t.rule w g = (t.when (w.bit 31) (·.injGo i)).when (w.bit 30) (·.injStopCmd i) := by
    interval_cases i <;> simp +decide only [rule, hook, hookSup, ha, if_true, if_false, Wr.inArray, Wr.idx] <;> rfl
  rw [hrule]
  exact (frame_when (f := (·.injGo i)) _ (frame_injGo t hi)).seq (frame_when (f := (·.injStopCmd i)) _ (frame_injStopCmd _ i))

theorem rowFits_injector : ∀ i < 2, rowFits [.comp, .recd, .resp, .sup]
    (accessRegs Pg.SUP (R.SUP_ICTL i) ++ (List.range 2).map R.SUP_ISTAT) (R.SUP_ICTL i) = true := by decide

theorem changes_injectorGo (path : Path) {inj : Nat} (hi : inj < 2) : Changes (.injectorGo path inj) [.comp, .recd, .resp, .sup]
    (accessRegs Pg.SUP (R.SUP_ICTL inj) ++ (List.range 2).map R.SUP_ISTAT) :=
  changes_row (fun _ => rfl) (rowFits_injector inj hi) fun t _ g ha => (frame_rule_injector hi ha t g).mono (by decide)
    (by simp [injRegs, accessRegs, List.range_succ])

theorem changes_injectorStop (path : Path) {inj : Nat} (hi : inj < 2) :
    Changes (.injectorStop path inj) [.comp, .recd, .resp, .sup]
      (accessRegs Pg.SUP (R.SUP_ICTL inj) ++ (List.range 2).map R.SUP_ISTAT) :=
  changes_row (fun _ => rfl) (rowFits_injector inj hi) fun t _ g ha => (frame_rule_injector hi ha t g).mono (by decide)
    (by simp [injRegs, accessRegs, List.range_succ])

theorem changes_freqResponseGo (path : Path) : Changes (.freqResponseGo path) [.comp, .freeCtr, .recd, .resp, .sup]
    (accessRegs Pg.SUP R.SUP_FRCTL ++ [R.SUP_FRSTAT] ++ (List.range 2).map R.SUP_ISTAT) := by
  refine changes_row (fun _ => rfl) (by decide) fun t w g ha => ?_
  simp +decide only [rule, hook, hookSup, ha, if_true, if_false, Wr.inArray]
  exact (frame_when (f := frGo) _ (frame_frGo t)).mono (by decide) (by decide)

end Sys2Proof.Machine
end

section
/-! PROOFS. Frames of the register commands of the gate, of the memory lock, of the recorder, the monitors and the lifetime
counters
and of the clock domains (R106, R474, R480, R606, R627, R639, R643, R645). -/

namespace Sys2Proof.Machine

open State

/-! The gate. -/

theorem State.frame_gateClear (s : State) : Frame [.gate, .recd] [R.GATE_CNT, R.PG_EVT Pg.GATE] s s.gateClear :=
  Frame.ite (((Frame.refl ..).bump (by decide)).event (by decide)) (Frame.ite (Frame.refl ..) ((Frame.refl ..).upd
      (frame_gate s _) (by decide)))

theorem changes_gateFclr (path : Path) : Changes (.gateFclr path) [.gate, .recd, .resp, .sup]
    (accessRegs Pg.GATE R.GATE_FCLR ++ [R.GATE_CNT]) := by
  refine changes_row (fun _ => rfl) (by decide) fun t w g ha => ?_
  simp +decide only [rule, hook, hookGate, ha, if_true, if_false]
  exact (frame_when (f := gateClear) _ (frame_gateClear t)).mono (by decide) (by decide)

/-- What a command of the timed output `n` can change. -/
abbrev TevFrame (n : Nat) (s t : State) : Prop := Frame [.gate, .recd] [R.TEV_CTL n, R.PG_EVT Pg.GATE] s t

namespace State
variable (s : State) (n : Nat)

theorem tevFrame_tevArm : TevFrame n s (s.tevArm n) :=
  Frame.ite ((Frame.refl ..).event (by simp)) (((Frame.refl ..).set (by simp [F.TEV_CTL_ARM])).upd (frame_gate _ _) (by decide))

theorem tevFrame_tevDisarm : TevFrame n s (s.tevDisarm n) :=
    ((Frame.refl ..).set (by simp [F.TEV_CTL_ARM])).upd (frame_gate _ _) (by decide)

theorem tevFrame_settings (x y : Nat) : TevFrame n s ((s.set (F.TEV_CTL_ACT n) x).set (F.TEV_CTL_FR n) y) :=
  ((Frame.refl ..).set (by simp [F.TEV_CTL_ACT])).set (by simp [F.TEV_CTL_FR])

end State

theorem tevFrame_rule {w : Wr} {n : Nat} (hn : n < 6) (ha : w.a = R.TEV_CTL n) (t : State) (g : Word) :
    TevFrame n t (t.rule w g) := by
  have hrule : t.rule w g = t.hookTev w := by
    interval_cases n <;> simp +decide only [rule, hook, hookGate, ha, if_true, if_false]
  have hidx : w.idx (R.TEV_CTL 0) 16 = n := by
    rw [Wr.idx, ha, R.TEV_CTL, R.TEV_CTL]
    omega
  simp only [hrule, hookTev, hidx, ha, ne_eq, not_true_eq_false, if_false]
  have harm : TevFrame n t (if t.is (F.TEV_CTL_ARM n) = true then
        t.when (w.get 0 2 != t.get (F.TEV_CTL_ACT n) || w.get 8 6 != t.get (F.TEV_CTL_FR n)) fun x => x.accessErr Pg.GATE
      else ((t.set (F.TEV_CTL_ACT n) (w.get 0 2)).set (F.TEV_CTL_FR n) (w.get 8 6)).when (w.bit 4) fun x => x.tevArm n) :=
    Frame.ite (frame_when _ ((Frame.refl ..).accessErr (by simp)))
      ((tevFrame_settings t n _ _).seq (frame_when _ (tevFrame_tevArm _ n)))
  exact harm.seq (frame_when (f := (·.tevDisarm n)) _ (tevFrame_tevDisarm _ n))

theorem rowFits_tev : ∀ n < 6, rowFits [.gate, .recd, .resp, .sup] (accessRegs Pg.GATE (R.TEV_CTL n)) (R.TEV_CTL n) = true := by
  decide

theorem changes_tevArm (path : Path) {n : Nat} (data : Word) (hn : n < 6) :
    Changes (.tevArm path n data) [.gate, .recd, .resp, .sup] (accessRegs Pg.GATE (R.TEV_CTL n)) :=
  changes_row (fun _ => rfl) (rowFits_tev n hn) fun t _ g ha => (tevFrame_rule hn ha t g).mono (by decide) (by simp [accessRegs])

theorem changes_tevDisarm (path : Path) {n : Nat} (hn : n < 6) :
    Changes (.tevDisarm path n) [.gate, .recd, .resp, .sup] (accessRegs Pg.GATE (R.TEV_CTL n)) :=
  changes_row (fun _ => rfl) (rowFits_tev n hn) fun t _ g ha => (tevFrame_rule hn ha t g).mono (by decide) (by simp [accessRegs])

/-! The memory lock. -/

/-- The registers that show the lock of memory. -/
def lockRegs : List Nat := [R.MEM_SLOCK, R.MEM_STAT] ++ (List.range 13).map R.MEM_RSTAT

theorem State.frame_slockClose (s : State) : Frame [.arb] lockRegs s s.slockClose := by
  unfold slockClose
  extract_lets _ u
  have hu : Frame [.arb] lockRegs s u := (Frame.refl ..).upd (frame_arb s _) (by decide)
  split
  next h =>
    rw [unlock, h.2]
    exact (((hu.set (by decide)).set (by decide)).set (by decide)).upd (frame_arb _ _) (by decide)
  · exact hu

theorem frame_rule_slock {w : Wr} (ha : w.a = R.MEM_SLOCK) (t : State) (g : Word) : Frame [.arb] lockRegs t (t.rule w g) := by
  simp +decide only [rule, hook, hookErr, ha, if_true, if_false]
  have hopen : Frame [.arb] lockRegs t (t.when (w.bit 0) slockOpen) :=
      frame_when _ ((Frame.refl ..).upd (frame_arb t _) (by decide))
  exact hopen.seq (frame_when _ (frame_slockClose _))

theorem changes_memLockOpen (path : Path) : Changes (.memLockOpen path) [.arb, .recd, .resp, .sup]
    (accessRegs Pg.MEM R.MEM_SLOCK ++ [R.MEM_STAT] ++ (List.range 13).map R.MEM_RSTAT) :=
  changes_row (fun _ => rfl) (by decide) fun t _ g ha => (frame_rule_slock ha t g).mono (by decide) (by decide)

theorem changes_memLockClose (path : Path) : Changes (.memLockClose path) [.arb, .recd, .resp, .sup]
    (accessRegs Pg.MEM R.MEM_SLOCK ++ [R.MEM_STAT] ++ (List.range 13).map R.MEM_RSTAT) :=
  changes_row (fun _ => rfl) (by decide) fun t _ g ha => (frame_rule_slock ha t g).mono (by decide) (by decide)

/-! The recorder. -/

theorem rule_recCmd {w : Wr} (ha : w.a = R.REC_CMD) (t : State) (g : Word) : t.rule w g =
    ((t.when (w.bit 0) recForce).when (w.bit 1) (·.recRel (w.get 8 4))).when (w.bit 2) recRelAll := by
  simp +decide only [rule, hook, hookRec, ha, if_true, if_false]

namespace State
variable (s : State)

theorem frame_ignoreFiring (cause : Nat) : Frame [.recd] [R.REC_CNT, R.REC_STAT] s (s.ignoreFiring cause) := by
  unfold ignoreFiring
  have hcount : Frame [.recd] [R.REC_CNT, R.REC_STAT] s (s.bump F.REC_CNT_IGNORED) := (Frame.refl ..).bump (by decide)
  dsimp only
  split
  · exact hcount.upd (frame_recd _ _) (by decide)
  · refine Frame.ite ?_ hcount
    exact Frame.ite ((hcount.upd (frame_recd _ _) (by decide)).set (by decide)) (hcount.upd (frame_recd _ _) (by decide))
  · exact hcount

theorem frame_recForce : Frame [.recd] [R.REC_CNT, R.REC_STAT] s s.recForce :=
  Frame.ite ((Frame.refl ..).upd (frame_recd s _) (by decide)) (frame_ignoreFiring s _)

theorem frame_bbRearm : Frame [.bb] [R.REC_BBSTAT] s s.bbRearm := by
  unfold bbRearm
  extract_lets _ _ u
  have hu : Frame [.bb] [R.REC_BBSTAT] s u := ((Frame.refl ..).set (by decide)).upd (frame_bb _ _) (by decide)
  refine Frame.ite (Frame.refl ..) (Frame.ite hu ?_)
  split
  · exact (hu.set (by decide)).upd (frame_bb _ _) (by decide)
  · exact (hu.set (by decide)).upd (frame_bb _ _) (by decide)

end State

theorem changes_recForce (path : Path) : Changes (.recForce path) [.recd, .resp, .sup]
    (accessRegs Pg.REC R.REC_CMD ++ [R.REC_CNT, R.REC_STAT]) := by
  refine changes_writeRow (fun _ => rfl) (by decide) fun s t w g h _ => ?_
  have hrel : w.bit 1 = false := h.bit (by decide) (by decide) (by decide)
  have hall : w.bit 2 = false := h.bit (by decide) (by decide) (by decide)
  rw [rule_recCmd h.addr, hrel, hall, when_false, when_false]
  exact (frame_when (f := recForce) _ (frame_recForce t)).mono (by decide) (by decide)

theorem changes_bbRearm (path : Path) : Changes (.bbRearm path) [.bb, .recd, .resp, .sup]
    (accessRegs Pg.REC R.REC_BBCMD ++ [R.REC_BBSTAT]) := by
  refine changes_row (fun _ => rfl) (by decide) fun t w g ha => ?_
  simp +decide only [rule, hook, hookRec, ha, if_true, if_false]
  exact (frame_when (f := bbRearm) _ (frame_bbRearm t)).mono (by decide) (by decide)

/-! The monitors and the lifetime counters. -/

/-- The registers of a snapshot. -/
def snapRegs
    (p : Nat) : List Nat := [R.MON_SCNT p, R.MON_SINFO p, R.MON_SMAX p, R.MON_SMIN p, R.MON_SSUM_HI p, R.MON_SSUM_LO p] ++
  (List.range 32).map (R.MON_SBIN p)

theorem State.frame_monSnap (s : State) (p i : Nat) (clr : Bool) : Frame [.mon] (snapRegs p) s (s.monSnap p i clr) := by
  unfold monSnap
  extract_lets u put sum s1 s2 s3 s4 s5
  have h2 : Frame [.mon] (snapRegs p) s s2 := (((((Frame.refl ..).setReg (by simp [snapRegs])).setReg (by simp [snapRegs])).setReg
    (by simp [snapRegs])).setReg (by simp [snapRegs])).setReg (by simp [snapRegs])
  have h3 : Frame [.mon] (snapRegs p) s s3 := h2.seq (frame_forUpTo_of_lt (fun b hb t => (Frame.refl ..).setReg
    (List.mem_append_right _ (List.mem_map_of_mem (List.mem_range.mpr hb)))) _)
  have h4 : Frame [.mon] (snapRegs p) s s4 :=
    (h3.set (by simp [snapRegs, F.MON_SINFO_UNIT])).set (by simp [snapRegs, F.MON_SINFO_VALID])
  have h5 : Frame [.mon] (snapRegs p) s s5 :=
    (h4.set (by simp [snapRegs, F.MON_SINFO_SRC])).count (by simp [snapRegs, F.MON_SINFO_SEQ])
  exact h5.when (h5.upd (frame_mon _ _) (by decide))

theorem rule_monSnap {w : Wr} {p : Nat} (hp : p < 2) (ha : w.a = R.MON_SNAP p) (t : State) (g : Word) :
    t.rule w g = t.when (w.bit 31) (·.monSnap p (w.get 0 5) (w.bit 8)) := by
  interval_cases p <;> simp +decide only [rule, hook, hookMon, ha, if_true, if_false] <;> rfl

theorem changes_monSnap (path : Path) (page : Nat) (data : Word) : Changes (.monSnap path page data) [.mon, .recd, .resp, .sup]
    (accessRegs (Pg.MON (page % 2)) (R.MON_SNAP (page % 2)) ++ [R.MON_SCNT (page % 2), R.MON_SINFO (page % 2),
    R.MON_SMAX (page % 2), R.MON_SMIN (page % 2), R.MON_SSUM_HI (page % 2), R.MON_SSUM_LO (page % 2)] ++ (List.range
    32).map (R.MON_SBIN (page % 2))) := by
  have hp : page % 2 < 2 := Nat.mod_lt _ (by decide)
  refine changes_row (fun _ => rfl) ((by decide : ∀ p < 2, rowFits [.mon, .recd, .resp, .sup]
    (accessRegs (Pg.MON p) (R.MON_SNAP p) ++ [R.MON_SCNT p, R.MON_SINFO p, R.MON_SMAX p, R.MON_SMIN p, R.MON_SSUM_HI p,
      R.MON_SSUM_LO p] ++ (List.range 32).map (R.MON_SBIN p)) (R.MON_SNAP p) = true) _ hp) fun t w g ha => ?_
  rw [rule_monSnap hp ha]
  refine (frame_when (f := (·.monSnap (page % 2) (w.get 0 5) (w.bit 8))) _ (frame_monSnap t _ _ _)).mono (by decide) fun a h => ?_
  rw [List.append_assoc]
  exact List.mem_append_right _ h

theorem State.frame_ltLoad (s : State) (i : Nat) : Frame [.recd] (R.PG_EVT (Pg.MON 0) :: ltRegs) s (s.ltLoad i) := by
  unfold ltLoad
  split
  · exact (Frame.refl ..).event (by decide)
  next h =>
    have hi : i < 12 := by omega
    refine (frame_ltAdd s i _).mono (by simp) ?_
    simp only [List.mem_cons, List.not_mem_nil, or_false, forall_eq_or_imp, forall_eq]
    exact ⟨.inr (List.mem_append_right _ (List.mem_map_of_mem (List.mem_range.mpr hi))),
      .inr (List.mem_append_left _ (List.mem_map_of_mem (List.mem_range.mpr hi)))⟩

theorem changes_ltAdd (path : Path) (data : Word) : Changes (.ltAdd path data) [.recd, .resp, .sup]
    (accessRegs (Pg.MON 0) (R.LT_CMD 0) ++ ltRegs) := by
  refine changes_row (fun _ => rfl) (by decide) fun t w g ha => ?_
  simp +decide only [rule, hook, hookMon, ha, if_true, if_false]
  exact (frame_when (f := (·.ltLoad (w.get 0 4))) _ (frame_ltLoad t _)).mono (by decide) fun a h => by
    simp only [List.mem_append, List.mem_cons, accessRegs] at h ⊢
    tauto

theorem changes_ltLock (path : Path) : Changes (.ltLock path) [.recd, .resp, .sup] (accessRegs (Pg.MON 0) (R.LT_CTL 0)) := by
  refine changes_row (fun _ => rfl) (by decide) fun t w g ha => ?_
  simp +decide only [rule, hook, hookMon, ha, if_true, if_false]
  exact frame_when (f := (·.set (F.LT_CTL_LOCK 0) 1)) _ ((Frame.refl ..).set (by decide))

/-! The clock domains. -/

/-- What a change of a clock domain can change. -/
abbrev DomFrame (s t : State) : Prop := Frame [.clk, .freeCtr, .recd, .time]
  ([R.PG_EVT Pg.CLK, R.PG_EVT Pg.TIME, R.TIME_STAT] ++ (List.range 4).map R.CLK_DOM) s t

theorem mem_domRegs {n : Nat} (hn : n < 4) :
    R.CLK_DOM n ∈ [R.PG_EVT Pg.CLK, R.PG_EVT Pg.TIME, R.TIME_STAT] ++ (List.range 4).map R.CLK_DOM :=
  List.mem_append_right _ (List.mem_map_of_mem (List.mem_range.mpr hn))

namespace State
variable (s : State)

theorem domFrame_leaveHold (c : HoldCause) : DomFrame s (s.leaveHold c) := by
  unfold leaveHold
  refine Frame.ite (Frame.refl ..) ?_
  have hinc (x : TimeSt) : DomFrame s (if c = .tclk then { s with time := x } else s) :=
    Frame.ite ((Frame.refl ..).upd (frame_time s x) (by decide)) (Frame.refl ..)
  exact Frame.ite ((hinc _).upd (frame_time _ _) (by decide)) ((((hinc _).upd (frame_time _ _) (by decide)).event
      (by decide)).set (by decide))

theorem domFrame_reachable (d : Nat) : DomFrame s (s.reachable d).2 := by
  unfold reachable
  split
  · exact Frame.refl ..
  · exact (Frame.refl ..).upd (frame_free s) (by decide)

variable {n : Nat} (hn : n < 4)
include hn

theorem domFrame_rampState (target : Nat) : DomFrame s (s.rampState n target) :=
  Frame.ite ((Frame.refl ..).set (mem_domRegs hn)) (((Frame.refl ..).set (mem_domRegs hn)).event (by decide))

theorem domFrame_domApply (src div : Nat) : DomFrame s (s.domApply n src div) := by
  unfold domApply
  extract_lets s1 s2 _ s3 s4
  have h1 : DomFrame s s1 := ((Frame.refl ..).set (mem_domRegs hn)).set (mem_domRegs hn)
  have h2 : DomFrame s s2 := Frame.ite (((h1.seq (domFrame_reachable s1 _)).set (mem_domRegs hn)).set (mem_domRegs hn))
    (Frame.ite (h1.set (mem_domRegs hn)) h1)
  have h3 : DomFrame s s3 := h2.upd (frame_clk _ _) (by decide)
  have h4 : DomFrame s s4 := Frame.ite (h3.seq (domFrame_leaveHold s3 _)) h3
  have hirc : DomFrame s (s4.followIrc n) := Frame.ite (h4.upd (frame_time _ _) (by decide)) h4
  exact hirc.seq (domFrame_rampState _ hn _)

theorem domFrame_domWrite (src div : Nat) : DomFrame s (s.domWrite n src div) := by
  have hlatched : DomFrame s (s.set (F.CLK_DOM_LATCHED n) 1) := (Frame.refl ..).set (mem_domRegs hn)
  exact Frame.ite (hlatched.upd (frame_clk _ _) (by decide)) (Frame.ite (((Frame.refl ..).set (mem_domRegs hn)).set
      (mem_domRegs hn))
    (domFrame_domApply s hn _ _))

end State

theorem rule_clkDom {w : Wr} {n : Nat} (hn : n < 4) (ha : w.a = R.CLK_DOM n) (t : State) (g : Word) :
    t.rule w g = t.domWrite n (w.get 0 2) (w.get 8 8) := by
  interval_cases n <;> simp +decide only [rule, hook, hookClk, ha, if_true, if_false, Wr.inArray, Wr.idx] <;> rfl

theorem changes_clkDomWrite (path : Path) {dom : Nat} (data : Word) (hn : dom < 4) :
    Changes (.clkDomWrite path dom data) [.clk, .freeCtr, .recd, .resp, .sup, .time]
      (accessRegs Pg.CLK (R.CLK_DOM dom) ++ [R.PG_EVT Pg.TIME, R.TIME_STAT] ++ (List.range 4).map R.CLK_DOM) := by
  refine changes_row (fun _ => rfl) ((by decide : ∀ n < 4, rowFits [.clk, .freeCtr, .recd, .resp, .sup, .time]
    (accessRegs Pg.CLK (R.CLK_DOM n) ++ [R.PG_EVT Pg.TIME, R.TIME_STAT] ++ (List.range 4).map R.CLK_DOM) (R.CLK_DOM n) = true)
    dom hn) fun t w g ha => ?_
  rw [rule_clkDom hn ha]
  refine (domFrame_domWrite t hn _ _).mono (by decide) fun a h => ?_
  simp only [List.mem_append, List.mem_cons, accessRegs] at h ⊢
  tauto

end Sys2Proof.Machine
end

section
/-! PROOFS. Frames of the register commands of the scheduler, of the error log, of attestation and device records, and of the
recorder's segments (R180, R189, R575 to R586, R612 to R616, R629). -/

namespace Sys2Proof.Machine

open State

/-! The scheduler. -/

/-- The registers that an arrival at a scheduler queue can change. -/
def schRegs : List Nat := [R.PG_EVT Pg.SCHG, R.PG_EVT Pg.SCHQ] ++ (List.range 32).map R.SCHQ_CNT

/-- What the queues of the scheduler can change. -/
abbrev SchFrame (s t : State) : Prop := Frame [.freeCtr, .recd, .sch] [R.PG_EVT Pg.SCHG, R.PG_EVT Pg.SCHQ] s t

namespace State
variable (s : State)

theorem frame_freeSlot (slot : Nat) : Frame [.sch] [] s (s.freeSlot slot) := frame_sch s _

theorem frame_setQueue (q : Nat) (l : List Item) : Frame [.sch] [] s (s.setQueue q l) := frame_sch s _

theorem frame_listInsert (d : Nat) (it : Item) : Frame [.sch] [] s (s.listInsert d it) := frame_sch s _

theorem frame_newSlot : Frame [.freeCtr] [] s s.newSlot.2 := by
  unfold newSlot
  dsimp only
  split <;> exact frame_free s

theorem schFrame_enqueue (it : Item) : SchFrame s (s.enqueue it) := by
  have hqueue (l : List Item) : SchFrame s (s.setQueue it.queue l) := (Frame.refl ..).upd (frame_setQueue s _ l) (by decide)
  exact (hqueue _).when ((hqueue _).event (by decide))

theorem schFrame_poolCheck (before : Nat) : SchFrame s (s.poolCheck before) :=
    (Frame.refl ..).when ((Frame.refl ..).event (by decide))

theorem schFrame_hwQueued (q flow arg : Nat) : SchFrame s (s.hwQueued q flow arg).2 := by
  unfold hwQueued
  split
  · exact Frame.refl ..
  · exact (((Frame.refl ..).upd (frame_newSlot s) (by decide)).seq (schFrame_enqueue _ _)).seq (schFrame_poolCheck _ _)

/-- An arrival changes the scheduler, its events and the count of what it drops. -/
theorem frame_arrive (q flow arg : Nat) : Frame [.freeCtr, .recd, .sch] schRegs s (s.arrive q flow arg) := by
  unfold arrive
  refine Frame.ite (Frame.refl ..) (Frame.ite ((Frame.refl ..).upd (frame_sch s _) (by decide)) ?_)
  dsimp only
  refine Frame.ite ((schFrame_hwQueued s q flow arg).mono (by decide) (by decide)) ?_
  split
  next h =>
    have hq : q < 32 := by omega
    exact (Frame.refl ..).bump (List.mem_append_right _ (List.mem_map_of_mem (List.mem_range.mpr hq)))
  · exact (Frame.refl ..).upd (frame_sch s _) (by decide)

theorem frame_complete (it : Item) : Frame [.sch, .recd] [R.SCHG_CNT, R.PG_EVT Pg.SCHG] s (s.complete it) := by
  unfold complete
  have hleft (x : SchSt) : Frame [.sch, .recd] [R.SCHG_CNT, R.PG_EVT Pg.SCHG] s ({ s with sch := x } : State) :=
    (Frame.refl ..).upd (frame_sch s x) (by decide)
  dsimp only
  split
  · refine Frame.ite ((hleft _).upd (frame_freeSlot _ _) (by decide)) ?_
    exact ((hleft _).when (((hleft _).bump (by decide)).event (by decide))).upd (frame_listInsert _ _ _) (by decide)
  · exact (hleft _).upd (frame_freeSlot _ _) (by decide)

theorem frame_schgDone (h : Nat) : Frame [.sch, .recd] [R.SCHG_CNT, R.PG_EVT Pg.SCHG] s (s.schgDone h) := by
  unfold schgDone
  split
  · exact frame_complete s _
  · exact ((Frame.refl ..).bump (by decide)).event (by decide)

theorem frame_dropItems (p : Item → Bool) : Frame [.sch] [] s (s.dropItems p) :=
  ((Frame.refl ..).upd (frame_sch s _) (by decide)).seq (Frame.foldl (fun t _ => frame_freeSlot t _) _ _)

theorem frame_canResult (path code : Nat) : Frame [.sch] [] s (s.canResult path code) := frame_sch s _

theorem frame_schgCancel (path h : Nat) : Frame [.sch] [] s (s.schgCancel path h) := by
  unfold schgCancel
  split
  · exact frame_canResult s _ _
  · exact Frame.ite (((Frame.refl ..).upd (frame_sch s _) (by decide)).seq (frame_canResult _ _ _))
      ((frame_dropItems s _).seq (frame_canResult _ _ _))

theorem frame_subResult (path handle code : Nat) : Frame [.sch] [] s (s.subResult path handle code) := frame_sch s _

/-- What a submission can change. -/
abbrev SubFrame (s t : State) : Prop := Frame [.freeCtr, .recd, .sch]
  ([R.PG_EVT Pg.SCHG, R.PG_EVT Pg.SCHQ] ++ (List.range 4).map R.SCHG_DL) s t

theorem subFrame_of_schFrame {s t : State} (h : SchFrame s t) : SubFrame s t := h.mono (by decide) (by decide)

theorem subFrame_subRefuse (path code : Nat) : SubFrame s (s.subRefuse path code) :=
  ((Frame.refl ..).upd (frame_subResult s path 0 code) (by decide)).event (by decide)

theorem subFrame_submit (path : Nat) (cmd : Word) : SubFrame s (s.submit path cmd) := by
  unfold submit
  extract_lets stage q d timed rel per t late
  have hrefuse (code : Nat) : SubFrame s (s.subRefuse path code) := subFrame_subRefuse s path code
  refine Frame.ite (hrefuse 3) (Frame.ite (hrefuse 1) (Frame.ite (hrefuse 2) ?_))
  dsimp only
  have hslot : SubFrame s s.newSlot.2 := (Frame.refl ..).upd (frame_newSlot s) (by decide)
  have hjoin (c : Prop) [Decidable c] (it : Item) :
      SubFrame s ((if c then s.newSlot.2.listInsert d it else s.newSlot.2.enqueue it).poolCheck s.slotsFree) :=
    (Frame.ite (hslot.upd (frame_listInsert _ d it) (by decide)) (hslot.seq (subFrame_of_schFrame (schFrame_enqueue _ it)))).seq
      (subFrame_of_schFrame (schFrame_poolCheck _ _))
  have hd : R.SCHG_DL d ∈ [R.PG_EVT Pg.SCHG, R.PG_EVT Pg.SCHQ] ++ (List.range 4).map R.SCHG_DL :=
    List.mem_append_right _ (List.mem_map_of_mem (List.mem_range.mpr (getBits_lt cmd 8 2)))
  have hlate {u : State} (h : SubFrame s u) (c : Bool) :
      SubFrame s (u.when c fun s => (s.bump (F.SCHG_DL_LATE d)).event Pg.SCHG 10) := h.when ((h.bump hd).event (by decide))
  exact (hlate (hjoin _ _) _).upd (frame_subResult _ _ _ _) (by decide)

theorem frame_schgTake : Frame [.sch] ((List.range 4).map R.SCHG_TW) s s.schgTake.2 := by
  unfold schgTake
  split
  · exact Frame.refl ..
  · have hmail (x : SchSt) : Frame [.sch] ((List.range 4).map R.SCHG_TW) s ({ s with sch := x } : State) :=
      (Frame.refl ..).upd (frame_sch s x) (by decide)
    dsimp only
    split
    · exact hmail _
    · exact ((((hmail _).setReg (by decide)).setReg (by decide)).setReg (by decide)).setReg (by decide)

end State

theorem changes_schgTake (path : Path) : Changes (.schgTake path) [.recd, .resp, .sch, .sup]
    (accessRegs Pg.SCHG R.SCHG_TAKE ++ (List.range 4).map R.SCHG_TW) := by
  refine changes_readRow (fun _ => rfl) (by decide) fun s => ?_
  have hhome : s.home R.SCHG_TAKE = R.SCHG_TAKE := home_of_ownAddress rfl s
  simp +decide only [readReg, hhome, if_true, if_false, or_false]
  split
  · exact Frame.refl ..
  · exact (frame_schgTake s).mono (by decide) fun _ h => List.mem_append_right _ h

theorem changes_schedSubmit (path : Path) (data : Word) : Changes (.schedSubmit path data) [.freeCtr, .recd, .resp, .sch, .sup]
    (accessRegs Pg.SCHG R.SCHG_SUBCMD ++ [R.PG_EVT Pg.SCHQ] ++ (List.range 4).map R.SCHG_DL) := by
  refine changes_row (fun _ => rfl) (by decide) fun t w g ha => ?_
  simp +decide only [rule, hook, hookSched, ha, if_true, if_false]
  exact (frame_when (f := (·.submit (pathIdx w.path) w.v)) _ (subFrame_submit t _ _)).mono (by decide) (by decide)

theorem changes_schgDone (path : Path) (handle : Nat) : Changes (.schgDone path handle) [.recd, .resp, .sch, .sup]
    (accessRegs Pg.SCHG R.SCHG_DONE ++ [R.SCHG_CNT]) := by
  refine changes_row (fun _ => rfl) (by decide) fun t w g ha => ?_
  rw [rule, if_neg (by rw [ha]; decide), hook_sched t (.inl (by rw [ha]; rfl)), hookSched_done t ha]
  exact (frame_schgDone t _).mono (by decide) (by decide)

theorem changes_schgCancel (path : Path) (handle : Nat) : Changes (.schgCancel path handle) [.recd, .resp, .sch, .sup]
    (accessRegs Pg.SCHG R.SCHG_CANCEL) := by
  refine changes_row (fun _ => rfl) (by decide) fun t w g ha => ?_
  rw [rule, if_neg (by rw [ha]; decide), hook_sched t (.inl (by rw [ha]; rfl)), hookSched_cancel t ha]
  exact (frame_schgCancel t _ _).mono (by decide) (by simp)

theorem changes_schqFlush (path : Path) {q : Nat} (hq : q < 32) :
    Changes (.schqFlush path q) [.recd, .resp, .sch, .sup] (accessRegs Pg.SCHQ (R.SCHQ_CMD q)) := by
  refine changes_row (fun _ => rfl) ((by decide : ∀ q < 32, rowFits [.recd, .resp, .sch, .sup]
    (accessRegs Pg.SCHQ (R.SCHQ_CMD q)) (R.SCHQ_CMD q) = true) q hq) fun t w g ha => ?_
  have hrule : t.rule w g = t.when (w.bit 0) (·.schqFlush q) := by
    interval_cases q <;> simp +decide only [rule, hook, hookSched, ha, if_true, if_false, Wr.inArray, Wr.idx] <;> rfl
  rw [hrule]
  have hflush : Frame [.sch, .recd] [R.PG_EVT Pg.SCHQ] t (t.schqFlush q) :=
      ((Frame.refl ..).upd (frame_dropItems t _) (by decide)).event (by decide)
  exact (frame_when (f := (·.schqFlush q)) _ hflush).mono (by decide) (by simp [accessRegs])

/-! The error log. -/

namespace State
variable (s : State)

theorem frame_errSignal_class (cls : Nat) : Frame [.err, .recd, .sup] (R.PG_EVT Pg.ERR :: nmiRegs) s (s.errSignal cls none) := by
  have hsignal : Frame [.err, .recd, .sup] (R.PG_EVT Pg.ERR :: nmiRegs) s
      (if cls < 2 then s.event Pg.ERR (8 + cls) else s.nmi (cls - 1)) :=
    Frame.ite ((Frame.refl ..).event (by decide)) ((frame_nmi s _).mono (by decide) fun _ h => List.mem_cons_of_mem _ h)
  exact hsignal.upd (frame_err _ _) (by decide)

theorem frame_errNext : Frame [.err, .recd, .sup] (R.PG_EVT Pg.ERR :: nmiRegs) s s.errNext :=
  Frame.ite (Frame.refl ..) (((Frame.refl ..).upd (frame_err s _) (by decide)).seq (frame_errSignal_class _ _))

theorem frame_errAck (c : Nat) : Frame [.err, .recd, .sup] (R.PG_EVT Pg.ERR :: nmiRegs) s (s.errAck c) :=
  Frame.ite (((Frame.refl ..).upd (frame_err s _) (by decide)).seq (frame_errNext _)) ((Frame.refl ..).accessErr (by decide))

end State

theorem frame_rule_errCmd {w : Wr} (ha : w.a = R.ERR_CMD) (t : State) (g : Word) :
    Frame [.err, .recd, .sup] (R.PG_EVT Pg.ERR :: nmiRegs) t (t.rule w g) := by
  simp +decide only [rule, hook, hookErr, ha, if_true, if_false]
  have hpop : Frame [.err, .recd, .sup] (R.PG_EVT Pg.ERR :: nmiRegs) t (t.when (w.bit 0) errPop) :=
    frame_when _ ((Frame.refl ..).upd (frame_err t _) (by decide))
  exact hpop.seq (frame_when (f := (·.errAck (w.get 4 2))) _ (frame_errAck _ _))

theorem changes_errPop (path : Path) : Changes (.errPop path) [.err, .recd, .resp, .sup]
    (accessRegs Pg.ERR R.ERR_CMD ++ nmiRegs) :=
  changes_row (fun _ => rfl) (by decide) fun t _ g ha => (frame_rule_errCmd ha t g).mono (by decide) (by decide)

theorem changes_errAck (path : Path) (cls : Nat) :
    Changes (.errAck path cls) [.err, .recd, .resp, .sup] (accessRegs Pg.ERR R.ERR_CMD ++ nmiRegs) :=
  changes_row (fun _ => rfl) (by decide) fun t _ g ha => (frame_rule_errCmd ha t g).mono (by decide) (by decide)

theorem changes_errSwlog (path : Path) (data : Word) : Changes (.errSwlog path data) [.bb, .box, .err, .gate, .recd, .resp, .sup]
    (accessRegs Pg.ERR R.ERR_SWLOG ++ errRegs) := by
  refine changes_row (fun _ => rfl) (by decide) fun t w g ha => ?_
  simp +decide only [rule, hook, hookErr, ha, if_true, if_false]
  exact Frame.ite ((Frame.refl ..).accessErr (by decide)) ((frame_errArrive t _ _ _ _).mono
      (by decide) fun _ h => List.mem_append_right _ h)

/-! Attestation and device records. -/

namespace State
variable (s : State)

theorem frame_attGo : Frame [.freeCtr, .recd, .sch, .sec] (R.PG_EVT Pg.SEC :: R.SEC_ATT_CTL :: schRegs) s s.attGo := by
  refine Frame.ite ((Frame.refl ..).accessErr (by decide)) ?_
  have hfree : Frame [.freeCtr, .recd, .sch, .sec] (R.PG_EVT Pg.SEC :: R.SEC_ATT_CTL :: schRegs) s s.free.2.free.2 :=
    ((Frame.refl ..).upd (frame_free s) (by decide)).upd (frame_free _) (by decide)
  exact ((hfree.set (by decide)).andThen (frame_arrive _ _ _ _) (by decide) fun _ h => List.mem_cons_of_mem _
      (List.mem_cons_of_mem _ h)).upd
    (frame_sec _ _) (by decide)

theorem frame_recGo (job : RecJob) :
    Frame [.freeCtr, .recd, .sch, .sec] (R.PG_EVT Pg.SEC :: R.SEC_REC_STAT :: schRegs) s (s.recGo job) := by
  refine Frame.ite ((Frame.refl ..).accessErr (by decide)) ?_
  have hfree : Frame [.freeCtr, .recd, .sch, .sec] (R.PG_EVT Pg.SEC :: R.SEC_REC_STAT :: schRegs) s s.free.2.free.2 :=
    ((Frame.refl ..).upd (frame_free s) (by decide)).upd (frame_free _) (by decide)
  exact ((hfree.set (by decide)).andThen (frame_arrive _ _ _ _) (by decide) fun _ h => List.mem_cons_of_mem _
      (List.mem_cons_of_mem _ h)).upd
    (frame_sec _ _) (by decide)

end State

theorem changes_attestationGo (path : Path) : Changes (.attestationGo path) [.freeCtr, .recd, .resp, .sch, .sec, .sup]
    (accessRegs Pg.SEC R.SEC_ATT_CTL ++ [R.PG_EVT Pg.SCHG, R.PG_EVT Pg.SCHQ] ++ (List.range 32).map R.SCHQ_CNT) := by
  refine changes_row (fun _ => rfl) (by decide) fun t w g ha => ?_
  simp +decide only [rule, hook, hookSec, ha, if_true, if_false]
  exact (frame_when (f := attGo) _ (frame_attGo t)).mono (by decide) (by decide)

theorem frame_rule_secRecCmd {w : Wr} (ha : w.a = R.SEC_REC_CMD) (t : State) (g : Word) :
    Frame [.freeCtr, .recd, .sch, .sec] (R.PG_EVT Pg.SEC :: R.SEC_REC_STAT :: schRegs) t (t.rule w g) := by
  simp +decide only [rule, hook, hookSec, ha, if_true, if_false]
  exact Frame.ite (frame_recGo t _) (Frame.ite (frame_recGo t _) (Frame.refl ..))

theorem changes_recordExport (path : Path) : Changes (.recordExport path) [.freeCtr, .recd, .resp, .sch, .sec, .sup]
    (accessRegs Pg.SEC R.SEC_REC_CMD ++ [R.PG_EVT Pg.SCHG, R.PG_EVT Pg.SCHQ, R.SEC_REC_STAT] ++
      (List.range 32).map R.SCHQ_CNT) :=
  changes_row (fun _ => rfl) (by decide) fun t _ g ha => (frame_rule_secRecCmd ha t g).mono (by decide) (by decide)

theorem changes_recordRestore (path : Path) : Changes (.recordRestore path) [.freeCtr, .recd, .resp, .sch, .sec, .sup]
    (accessRegs Pg.SEC R.SEC_REC_CMD ++ [R.PG_EVT Pg.SCHG, R.PG_EVT Pg.SCHQ, R.SEC_REC_STAT] ++
      (List.range 32).map R.SCHQ_CNT) :=
  changes_row (fun _ => rfl) (by decide) fun t _ g ha => (frame_rule_secRecCmd ha t g).mono (by decide) (by decide)

end Sys2Proof.Machine
end

section
/-! PROOFS. Frames of the register commands of the safety unit, of the recorder's segments and of the station unit (R509 to R522,
R629, R654, R662, R666). -/

namespace Sys2Proof.Machine

open State

/-! The Valve Block at a hub. -/

/-- What a command of SAFE_HCMD can change. -/
abbrev HubFrame (s t : State) : Prop := Frame [.recd, .safe] [R.PG_EVT Pg.SAFE, R.SAFE_HCNT, R.SAFE_HDBLK] s t

namespace State
variable (s : State)

theorem hubFrame_hubDeblockCmd : HubFrame s s.hubDeblockCmd := by
  refine Frame.ite ((((Frame.refl ..).bump (by decide)).set (by decide)).event (by decide)) ?_
  have hraised : HubFrame s (if s.safe.vb then s else s.event Pg.SAFE 9) :=
      Frame.ite (Frame.refl ..) ((Frame.refl ..).event (by decide))
  exact hraised.upd (frame_safe _ _) (by decide)

theorem hubFrame_hubAclrCmd : HubFrame s s.hubAclrCmd :=
  Frame.ite (((Frame.refl ..).bump (by decide)).event (by decide)) ((Frame.refl ..).upd (frame_safe s _) (by decide))

theorem hubFrame_blockRequest (src : Nat) : HubFrame s (s.blockRequest src) :=
  ((Frame.refl ..).when ((Frame.refl ..).event (by decide))).upd (frame_safe _ _) (by decide)

theorem hubFrame_hubCommand (code : Nat) : HubFrame s (s.hubCommand code) :=
  Frame.ite (hubFrame_hubDeblockCmd s) (Frame.ite (hubFrame_hubAclrCmd s) (Frame.ite (hubFrame_blockRequest s 0)
    (Frame.ite ((Frame.refl ..).upd (frame_safe s _) (by decide)) ((Frame.refl ..).accessErr (by decide)))))

theorem frame_sequence : Frame [.ports, .safe] [] s s.sequence := by
  unfold sequence
  split
  · exact Frame.refl ..
  · exact Frame.ite ((Frame.refl ..).upd (frame_safe s _) (by decide))
      (Frame.ite (((Frame.refl ..).upd (frame_mgmtQueue s _ _) (by decide)).upd (frame_safe _ _) (by decide)) (Frame.refl ..))

theorem frame_hubDeblockOne (i : Nat) : Frame [.ports, .recd, .safe] [R.PG_EVT Pg.SAFE] s (s.hubDeblockOne i) :=
  Frame.ite (((Frame.refl ..).upd (frame_safe s _) (by decide)).upd (frame_sequence _) (by decide)) ((Frame.refl ..).accessErr
      (by decide))

end State

theorem hubFrame_rule {w : Wr} (ha : w.a = R.SAFE_HCMD) (t : State) (g : Word) : HubFrame t (t.rule w g) := by
  rw [rule, if_neg (by rw [ha]; decide), hook_safe t (by rw [ha]; rfl), hookSafe_hcmd t ha]
  exact hubFrame_hubCommand t _

/-- A command that writes a word to SAFE_HCMD. -/
theorem changes_hubCommand {c : Instr} {path : Path} {data : Word} (he : ∀ s, exec c s = writeRow s path R.SAFE_HCMD data) :
    Changes c [.recd, .resp, .safe, .sup] (accessRegs Pg.SAFE R.SAFE_HCMD ++ [R.SAFE_HCNT, R.SAFE_HDBLK]) :=
  changes_row he (by decide) fun t _ g ha => (hubFrame_rule ha t g).mono (by decide) (by decide)

theorem changes_singleBerthDeblock (path : Path) (berth : Nat) :
    Changes (.singleBerthDeblock path berth) [.ports, .recd, .resp, .safe, .sup] (accessRegs Pg.SAFE R.SAFE_HDBB) := by
  refine changes_row (fun _ => rfl) (by decide) fun t w g ha => ?_
  simp +decide only [rule, hook, hookSafe, ha, if_true, if_false]
  exact (frame_when (f := (·.hubDeblockOne (w.get 0 10))) _ (frame_hubDeblockOne t _)).mono (by decide) (by decide)

/-! A cell. -/

/-- The registers that a command of SAFE_CCMD can change besides those of its access. -/
def ccmdRegs : List Nat := ltRegs ++ [R.GATE_CNT2, R.PG_EVT Pg.GATE, R.PG_EVT Pg.REC, R.REC_BBSTAT, R.SAFE_CCNT, R.SAFE_CSTAT,
  R.PG_EVT Pg.SAFE, R.PG_STAT Pg.SAFE]

abbrev CellFrame (s t : State) : Prop := Frame [.bb, .box, .gate, .recd, .resp, .safe] ccmdRegs s t

namespace State
variable {s t : State}

theorem CellFrame.bbWrite (h : CellFrame s t) (type sub : Nat) (detail : List Nat) : CellFrame s (t.bbWrite type sub detail) :=
  h.andThen (frame_bbWrite t type sub detail) (by decide) (by decide)

theorem frame_gateSafe (s : State) (x : GateSt) (y : SafeSt) : Frame [.gate, .safe] [] s { s with gate := x, safe := y } :=
  frame_of_parts rfl rfl fun p hp => by cases p <;> simp_all [Part.same, byte]

theorem cellFrame_cellDeblockCmd (s : State) (tree : Bool) : CellFrame s (s.cellDeblockCmd tree) := by
  have hrefused : CellFrame s ((((s.set F.SAFE_CSTAT_WHY (s.cellDeblockWhy tree)).bump F.SAFE_CCNT_REFUSED).event Pg.SAFE 18).set
      (F.PG_STAT_ERR Pg.SAFE) 1) := ((((Frame.refl ..).set (by decide)).bump (by decide)).event (by decide)).set (by decide)
  have hfreed (x : SafeSt) (y : GateSt) : CellFrame s { s with safe := x, gate := y } :=
    (Frame.refl ..).upd (frame_gateSafe s y x) (by decide)
  exact Frame.ite ((CellFrame.bbWrite hrefused _ _ _).upd (frame_answering _ _) (by decide))
    (Frame.ite (Frame.refl ..) (CellFrame.bbWrite (((hfreed _ _).count (by decide)).event (by decide)) _ _ _))

theorem cellFrame_blockEdge (s : State) (t q : Nat) : CellFrame s (s.blockEdge t q) := by
  have hedge : CellFrame s (if s.gate.state = .block then s else s.edge .block t q) :=
    Frame.ite (Frame.refl ..) ((frame_edge s .block t q).mono (by decide) (by decide))
  exact hedge.upd (frame_gateSafe _ _ _) (by decide)

theorem cellFrame_permBypass (s : State) : CellFrame s s.permBypass := by
  refine Frame.ite (Frame.refl ..) ?_
  have hbypassed (x : GateSt) (y : SafeSt) : CellFrame s { s with gate := x, safe := y } :=
    (Frame.refl ..).upd (frame_gateSafe s x y) (by decide)
  exact (CellFrame.bbWrite (((hbypassed _ _).when ((hbypassed _ _).upd (frame_gate _ _) (by decide))).event
      (by decide)) _ _ _).andThen
    (frame_bbFreeze _ 4) (by decide) (by decide)

theorem cellFrame_cellCommand (s : State) (tree : Bool) (code : Nat) : CellFrame s (s.cellCommand tree code) :=
  Frame.ite (cellFrame_cellDeblockCmd s tree) (Frame.ite (Frame.ite ((Frame.refl ..).upd (frame_safe s _) (by decide))
    (cellFrame_blockEdge s _ _)) (Frame.ite (cellFrame_permBypass s) ((Frame.refl ..).accessErr (by decide))))

end State

/-- A command that writes a word to SAFE_CCMD. -/
theorem changes_cellCommand {c : Instr} {path : Path} {data : Word} (he : ∀ s, exec c s = writeRow s path R.SAFE_CCMD data) :
    Changes c [.bb, .box, .gate, .recd, .resp, .safe, .sup] (accessRegs Pg.SAFE R.SAFE_CCMD ++ ltRegs ++
      [R.GATE_CNT2, R.PG_EVT Pg.GATE, R.PG_EVT Pg.REC, R.REC_BBSTAT, R.SAFE_CCNT, R.SAFE_CSTAT]) := by
  refine changes_row he (by decide) fun t w g ha => ?_
  rw [rule, if_neg (by rw [ha]; decide), hook_safe t (by rw [ha]; rfl), hookSafe_ccmd t ha]
  exact (cellFrame_cellCommand t _ _).mono (by decide) (by decide)

/-! The recorder's segments. -/

/-- What freeing a segment can change. -/
abbrev SegFrame (s t : State) : Prop :=
  Frame storeParts ([R.PG_EVT Pg.REC, R.REC_CNT, R.REC_STAT] ++ storeRegs) s t

namespace State
variable (s : State)

theorem segFrame_store (req a : Nat) (bs : List Byte) : SegFrame s (s.store req a bs) :=
  (storeFrame_store s req a bs).mono (by simp) fun _ h => List.mem_append_right _ h

theorem segFrame_beginLive (i : Nat) : SegFrame s (s.beginLive i) := by
  have hlive (x : RecSt) : SegFrame s { s.set F.REC_STAT_LIVE i with recd := x } :=
      ((Frame.refl ..).set (by decide)).upd (frame_recd _ x) (by decide)
  exact ((hlive _).seq (segFrame_store _ _ _ _)).set (by decide)

theorem segFrame_nextLive (i st : Nat) : SegFrame s (s.nextLive i st) := by
  unfold nextLive
  dsimp only
  split
  · exact ((Frame.refl ..).set (by decide)).seq (segFrame_beginLive _ _)
  · exact Frame.ite ((((Frame.refl ..).bump (by decide)).set (by decide)).seq (segFrame_beginLive _ _)) ((((Frame.refl ..).upd
      (frame_recd s _) (by decide)).set (by decide)).event (by decide))

theorem segFrame_recFree (segs : List Nat) : SegFrame s (s.recFree segs) := by
  unfold recFree
  extract_lets l u
  have hu : SegFrame s u := Frame.set (Frame.foldl (fun t i => segFrame_store t 9 _ _) l s) (by decide)
  exact Frame.ite (hu.seq (segFrame_nextLive u _ _)) hu

theorem segFrame_recRel (i : Nat) : SegFrame s (s.recRel i) :=
    Frame.ite ((Frame.refl ..).accessErr (by decide)) (segFrame_recFree s _)

end State

/-- A command that writes a word to REC_CMD. -/
theorem changes_recCmd {c : Instr} {path : Path} {data : Word} (he : ∀ s, exec c s = writeRow s path R.REC_CMD data) :
    Changes c [.bb, .box, .err, .freeCtr, .gate, .mem, .memErr, .recd, .resp, .sup]
      (accessRegs Pg.REC R.REC_CMD ++ errRegs ++ [R.ERR_INJ, R.ERR_POIS, R.REC_CNT, R.REC_STAT]) := by
  refine changes_row he (by decide) fun t w g ha => ?_
  rw [rule_recCmd ha]
  have hforce : SegFrame t (t.when (w.bit 0) recForce) := frame_when _ ((frame_recForce t).mono (by decide) (by decide))
  exact ((hforce.seq (frame_when (f := (·.recRel (w.get 8 4))) _ (segFrame_recRel _ _))).seq
    (frame_when (f := recRelAll) _ (segFrame_recFree _ _))).mono (by decide) (by decide)

/-! The station unit. -/

/-- The registers that sending a station frame, and a key exchange of the station, change. -/
def sendRegs : List Nat := R.STN_STAT :: (List.range 2).map R.STN_PTX

abbrev SendFrame (s t : State) : Prop := Frame [.freeCtr, .stn] sendRegs s t

namespace State
variable (s : State)

theorem sendFrame_emit {p : Nat} (hp : p < 2) (fr : List Byte) : SendFrame s (s.emit p fr) := by
  refine Frame.ite (Frame.refl ..) ?_
  have hcount : SendFrame s (s.count (F.STN_PTX_COUNT p)) :=
    (Frame.refl ..).count (List.mem_cons_of_mem _ (List.mem_map_of_mem (List.mem_range.mpr hp)))
  exact hcount.upd (frame_stn _ _) (by decide)

theorem lt_of_mem_stnPorts {p : Nat} (h : p ∈ s.stnPorts) : p < 2 := by
  have hp := (List.mem_filter.mp h).1
  split at hp <;> simp at hp <;> omega

theorem frame_foldl_mem {α : Type} {ps : List Part} {rs : List Nat} {f : State → α → State} {l : List α}
    (h : ∀ x ∈ l, ∀ t, Frame ps rs t (f t x)) (s : State) : Frame ps rs s (l.foldl f s) := by
  induction l generalizing s with
  | nil => exact Frame.refl ..
  | cons x l ih => exact (h x List.mem_cons_self s).seq (ih (fun y hy => h y (List.mem_cons_of_mem _ hy)) _)

theorem sendFrame_sendFrame (fr : List Byte) : SendFrame s (s.sendFrame fr) := by
  have hports (g : Nat → List Byte) (t : State) : SendFrame t (s.stnPorts.foldl (fun t p => t.emit p (g p)) t) :=
    frame_foldl_mem (fun _ hp t => sendFrame_emit t (lt_of_mem_stnPorts s hp) _) t
  exact Frame.ite (((Frame.refl ..).upd (frame_stn s _) (by decide)).seq (hports _ _)) (hports _ _)

theorem sendFrame_hwSend (fr : List Byte) : SendFrame s (s.hwSend fr) :=
  Frame.ite ((Frame.refl ..).upd (frame_stn s _) (by decide)) (sendFrame_sendFrame s fr)

theorem sendFrame_kxStart : SendFrame s s.kxStart := by
  have hdrawn : SendFrame s s.free.2.free.2 := ((Frame.refl ..).upd (frame_free s) (by decide)).upd (frame_free _) (by decide)
  exact ((hdrawn.set (by decide)).upd (frame_stn _ _) (by decide)).seq (sendFrame_hwSend _ _)

theorem frame_stnTag (seq : Nat) (bytes : List Byte) : Frame [.freeCtr] [] s (s.stnTag seq bytes).2 := by
  unfold stnTag
  split
  · exact Frame.refl ..
  · exact frame_free s

theorem sendFrame_fillTag (fr : List Byte) : SendFrame s (s.fillTag fr).2 := by
  have hseq (x : StnSt) : SendFrame s { s with stn := x } := (Frame.refl ..).upd (frame_stn s x) (by decide)
  exact (hseq _).upd (frame_stnTag _ _ _) (by decide)

theorem fetchFrame_touch (req a n : Nat) : FetchFrame s (s.touch req a n).2 := by
  have hwords (l : List Nat) (p : Bool × State) : FetchFrame p.2 (l.foldl
      (fun p i => let q := p.2.readWord req (a / 8 + i); (p.1 || q.1, q.2)) p).2 := by
    induction l generalizing p with
    | nil => exact Frame.refl ..
    | cons i l ih => exact (fetchFrame_readWord p.2 req _).seq (ih _)
  unfold touch
  split
  · exact Frame.refl ..
  · exact hwords _ (false, s)

/-- The registers that a posted frame can change. -/
def postRegs : List Nat := fetchRegs ++ sendRegs ++ [R.PG_EVT Pg.STN, R.STN_TXCNT, R.STN_TXPOST]

abbrev PostFrame (s t : State) : Prop := Frame (.stn :: storeParts) postRegs s t

theorem postFrame_of_sendFrame {s t : State} (h : SendFrame s t) : PostFrame s t :=
  h.mono (by decide) fun _ h => List.mem_append_left _ (List.mem_append_right _ h)

theorem postFrame_fetch (req a n : Nat) : PostFrame s (s.fetch req a n).2.2 :=
  (fetchFrame_touch s req a n).mono (fun _ h => List.mem_cons_of_mem _ h)
    fun _ h => List.mem_append_left _ (List.mem_append_left _ h)

theorem postFrame_txSend (i : Nat) : PostFrame s (s.txSend i) := by
  unfold txSend
  dsimp only
  have hfill {t : State} (h : PostFrame s t) (c : Prop) [Decidable c] (fr : List Byte) :
      PostFrame s (if c then t.fillTag fr else (fr, t)).2 := by
    split
    · exact h.seq (postFrame_of_sendFrame (sendFrame_fillTag t fr))
    · exact h
  have hsend {t : State} (h : PostFrame s t) (c d : Prop) [Decidable c] [Decidable d] (b : Bool) (fr : List Byte) :
      PostFrame s (if c then t.sendFrame fr else if d then t.emit (b2n b) fr else t) :=
    Frame.ite (h.seq (postFrame_of_sendFrame (sendFrame_sendFrame t fr)))
      (Frame.ite (h.seq (postFrame_of_sendFrame (sendFrame_emit t (by cases b <;> decide) fr))) h)
  have hsent {t : State} (h : PostFrame s t) (x : StnSt) (c : Bool) : PostFrame s
      (({ t with stn := x } : State).when c kxStart) :=
    (h.upd (frame_stn t x) (by decide)).when ((h.upd (frame_stn t x) (by decide)).seq (postFrame_of_sendFrame
        (sendFrame_kxStart _)))
  exact hsent (hsend (hfill ((postFrame_fetch s 12 _ 16).seq (postFrame_fetch _ 12 _ _)) _ _) _ _ _ _) _ _

theorem postFrame_txDrain (k : Nat) : PostFrame s (s.txDrain k) := by
  induction k generalizing s with
  | zero => exact Frame.refl ..
  | succ k ih =>
    unfold txDrain
    split
    · exact Frame.refl ..
    · dsimp only
      exact Frame.ite ((postFrame_txSend s _).seq (ih _))
        (Frame.ite (((((Frame.refl ..).bump (by decide)).event (by decide)).seq (postFrame_txSend _ _)).seq (ih _))
            (Frame.refl ..))

theorem postFrame_showHead : PostFrame s s.showHead := by
  unfold showHead
  split
  · exact (Frame.refl ..).set (by decide)
  · exact Frame.refl ..

theorem postFrame_txPost (i : Nat) : PostFrame s (s.txPost i) := by
  unfold txPost
  extract_lets idle _ _ u
  have hu : PostFrame s u := (Frame.refl ..).upd (frame_stn s _) (by decide)
  exact Frame.ite ((hu.seq (postFrame_txDrain u _)).seq (postFrame_showHead _)) (hu.seq (postFrame_showHead u))

end State

theorem changes_txPost (path : Path) (data : Word) :
    Changes (.txPost path data) [.bb, .box, .err, .freeCtr, .gate, .mem, .memErr, .recd, .resp, .stn, .sup]
      (accessRegs Pg.STN R.STN_TXPOST ++ errRegs ++ [R.ERR_POIS, R.STN_STAT, R.STN_TXCNT] ++ (List.range 2).map R.STN_PTX) := by
  refine changes_row (fun _ => rfl) (by decide) fun t w g ha => ?_
  simp +decide only [rule, hook, hookStn, ha, if_true, if_false]
  exact (frame_when (f := (·.txPost (w.get 0 5))) _ (postFrame_txPost t _)).mono (by decide) (by decide)

/-- The registers that a command of STN_CMD can change besides those of its access. -/
def stnCmdRegs : List Nat := rxRegs ++ [R.STN_FCNT, R.STN_FCNT2, R.STN_STAT, R.STN_STRM, R.STN_SVCNT, R.STN_TXCNT] ++
  (List.range 2).map R.STN_PTX

theorem State.frame_stnClear (s : State) : Frame [] stnCmdRegs s s.stnClear :=
  Frame.set (frame_foldl_mem (fun a ha t => (Frame.refl ..).setReg
    ((by decide : ∀ a ∈ [R.STN_PRX 0, R.STN_PRX 1, R.STN_PERR 0, R.STN_PERR 1, R.STN_PTX 0, R.STN_PTX 1, R.STN_PDUP 0,
      R.STN_PDUP 1, R.STN_FCNT, R.STN_FCNT2, R.STN_SVCNT, R.STN_TXCNT], a ∈ stnCmdRegs) a ha)) s) (by decide)

/-- A command that writes to STN_CMD. -/
theorem changes_stnCmd {c : Instr} {path : Path} {data : State → Word}
    (he : ∀ s, exec c s = writeRow s path R.STN_CMD (data s)) :
    Changes c [.freeCtr, .recd, .resp, .stn, .sup] (accessRegs Pg.STN R.STN_CMD ++
      rxRegs ++ [R.STN_FCNT, R.STN_FCNT2, R.STN_STAT, R.STN_STRM, R.STN_SVCNT, R.STN_TXCNT] ++ (List.range 2).map R.STN_PTX) := by
  refine changes_row he (by decide) fun t w g ha => ?_
  simp +decide only [rule, hook, hookStn, ha, if_true, if_false]
  have hfresh (u : State) : Frame [.freeCtr, .stn] stnCmdRegs u u.freshSent := (Frame.refl ..).upd (frame_stn u _) (by decide)
  have hkx : Frame [.freeCtr, .stn] stnCmdRegs t (t.when (w.bit 0 && t.stnOn) fun t => t.freshSent.kxStart) :=
    frame_when _ ((hfresh t).seq ((sendFrame_kxStart _).mono (by decide) (by decide)))
  exact (hkx.seq (frame_when (f := stnClear) _ ((frame_stnClear _).mono (by decide) (by decide)))).mono (by decide) (by decide)

end Sys2Proof.Machine
end

section
/-! PROOFS. The frame of a write of the berth table
(R330), which can release a berth with all that is asked of it, and the frames of
the commands that a register write gives, together. -/

namespace Sys2Proof.Machine

open State

/-- The registers that a write of the berth table can change. -/
def berthRegs : List Nat := [R.PG_EVT Pg.BERTH, R.SAFE_HDBLK, R.SCHG_CNT] ++ schRegs ++ (List.range 4).map R.TREE_MQ ++
  (List.range 4).map R.TREE_RA_STAT

abbrev BerthFrame (s t : State) : Prop :=
  Frame [.berths, .freeCtr, .ports, .rank, .recd, .safe, .sch, .stn] berthRegs s t

theorem mem_berthRegs_mq {p : Nat} (hp : p < 4) : R.TREE_MQ p ∈ berthRegs :=
  List.mem_append_left _ (List.mem_append_right _ (List.mem_map_of_mem (List.mem_range.mpr hp)))

theorem mem_berthRegs_stat {p : Nat} (hp : p < 4) : R.TREE_RA_STAT p ∈ berthRegs :=
  List.mem_append_right _ (List.mem_map_of_mem (List.mem_range.mpr hp))

namespace State
variable (s : State)

theorem berthFrame_deblockAnswered (i code : Nat) : BerthFrame s (s.deblockAnswered i code) := by
  have hclosed (x : SafeSt) : BerthFrame s { s with safe := x } := (Frame.refl ..).upd (frame_safe s x) (by decide)
  exact (hclosed _).when ((hclosed _).bump (by decide))

/-- An answer that brings no data. -/
theorem berthFrame_answer {p : Nat} (hp : p < 4) (src : MgmtFrom) (code index : Nat) :
    BerthFrame s (s.answer p src code index []) := by
  unfold answer
  split
  · exact Frame.refl ..
  · exact Frame.refl ..
  · have hfree (x : PortSt) : BerthFrame s (s.setPort p x) := (Frame.refl ..).upd (frame_setPort s p x) (by decide)
    exact (((hfree _).set (mem_berthRegs_stat hp)).set (mem_berthRegs_stat hp)).set (mem_berthRegs_stat hp)
  · split
    · exact (Frame.refl ..).upd (frame_stn s _) (by decide)
    · exact Frame.refl ..

theorem berthFrame_arrive (q flow arg : Nat) : BerthFrame s (s.arrive q flow arg) :=
  (frame_arrive s q flow arg).mono (by decide)
    fun _ h => List.mem_append_left _ (List.mem_append_left _ (List.mem_append_right _ h))

theorem berthFrame_hwDone (q : Nat) (p : Item → Bool) : BerthFrame s (s.hwDone q p) := by
  unfold hwDone
  split
  · exact (frame_complete s _).mono (by decide) (by decide)
  split
  · exact ((Frame.refl ..).upd (frame_setQueue s q _) (by decide)).upd (frame_freeSlot _ _) (by decide)
  · exact (Frame.refl ..).upd (frame_sch s _) (by decide)

theorem berthFrame_remoteAnswer {p : Nat} (hp : p < 4) (r : MgmtRec) : BerthFrame s (s.remoteAnswer p r) := by
  unfold remoteAnswer
  dsimp only
  split
  · exact Frame.refl ..
  · exact berthFrame_deblockAnswered s _ _
  · exact (berthFrame_answer s hp _ _ _).seq (berthFrame_arrive _ _ _ _)
  · exact (berthFrame_answer s hp _ _ _).seq (berthFrame_hwDone _ _ _)

theorem frame_refill (p : Nat) : Frame [.ports] [] s (s.refill p) :=
  (frame_setPort s p _).seq (Frame.foldl (fun t r => frame_mgmtQueue t p r) _ _)

theorem berthFrame_dropRecords {i : Nat} (hi : i / 256 < 4) : BerthFrame s (s.dropRecords i) := by
  have hport (x : PortSt) : BerthFrame s ((s.setPort (i / 256) x).refill (i / 256)) :=
    ((Frame.refl ..).upd (frame_setPort s _ x) (by decide)).upd (frame_refill _ _) (by decide)
  exact (hport _).seq (Frame.foldl (fun t r =>
    ((Frame.refl ..).bump (mem_berthRegs_mq hi)).seq (berthFrame_remoteAnswer _ hi r)) _ _)

theorem berthFrame_abandon (i : Nat) : BerthFrame s (s.abandon i) := by
  unfold abandon
  dsimp only
  split
  · exact Frame.refl ..
  · exact (((Frame.refl ..).upd (frame_setPort s _ _) (by decide)).upd (frame_refill _ _) (by decide)).upd
      (frame_setBerth _ _ _) (by decide)

theorem berthFrame_release {i : Nat} (hi : i / 256 < 4) : BerthFrame s (s.release i) :=
  ((((berthFrame_abandon s i).upd (frame_setPort _ _ _) (by decide)).seq (berthFrame_dropRecords _ hi)).upd
      (frame_setBerth _ _ _) (by decide)).upd
    (frame_rank _ _) (by decide)

theorem berthFrame_setBerth (i : Nat) (b : BerthSt) : BerthFrame s (s.setBerth i b) :=
    (Frame.refl ..).upd (frame_setBerth s i b) (by decide)

theorem berthFrame_berthWr (guard : Bool) : BerthFrame s (s.berthWr guard) := by
  have hi : s.get F.BERTH_SEL_INDEX / 256 < 4 := by
    have hlt : s.get F.BERTH_SEL_INDEX < 2 ^ 10 := getBits_lt _ _ _
    omega
  unfold berthWr
  extract_lets i p e0 id rslot rsv asg _ s1 b s2 s3 b' excess arm1 s4 arm s5
  have h1 : BerthFrame s s1 := berthFrame_setBerth s _ _
  have h2 : BerthFrame s s2 := h1.upd (frame_setBerth s1 _ _) (by decide)
  have h3 : BerthFrame s s3 := Frame.ite h1 (Frame.ite (h1.accessErr (by decide)) (Frame.ite (h2.upd (frame_setPort s2 _ _)
      (by decide)) h2))
  have h4 : BerthFrame s s4 := h3.when (h3.event (by decide))
  have h5 : BerthFrame s s5 := h4.seq (berthFrame_release s4 hi)
  exact Frame.ite h3 (Frame.ite (h3.accessErr (by decide)) (Frame.ite (h5.upd (frame_setBerth s5 _ _) (by decide)) (h4.upd
      (frame_setBerth s4 _ _) (by decide))))

end State

theorem changes_berthCmdWr (path : Path) : Changes
    (.berthCmdWr path) [.berths, .freeCtr, .ports, .rank, .recd, .resp, .safe, .sch,
    .stn, .sup] (accessRegs Pg.BERTH R.BERTH_CMD ++ [R.PG_EVT Pg.SCHG, R.PG_EVT Pg.SCHQ, R.SAFE_HDBLK, R.SCHG_CNT] ++
    (List.range 32).map R.SCHQ_CNT ++ ((List.range 4).flatMap fun i => (List.range 16).map (R.TREE_RA_DATA i)) ++
    (List.range 4).map R.TREE_MQ ++ (List.range 4).map R.TREE_RA_STAT) := by
  refine changes_fieldRow (fun _ => rfl) (by decide) fun t w g ha hbits => ?_
  have hrd : w.bit 0 = false := hbits 0 (by decide) (by decide)
  have hclr : w.bit 2 = false := hbits 2 (by decide) (by decide)
  rw [rule_berthCmd ha, hrd, hclr, when_false, when_false]
  exact (frame_when (f := (·.berthWr w.guard)) _ (berthFrame_berthWr t _)).mono (by decide) (by decide)

/-- Settles O46: a command given by a register write is a write of its register, which changes what every access can
(`frame_writeCmd`) and what the register's own rule does with the word (`State.rule`); a field of kind W reads 0, so that a field
written alone starts its own command only (`changes_fieldRow`). -/
theorem framesOfPlainRows : Obligations.FramesOfPlainRows := by
  unfold Obligations.FramesOfPlainRows
  refine ⟨changes_hostEnable, changes_releaseRequest, fun path _ data h => changes_treeRaGo path data h,
    fun path _ data h => changes_gpioFnWrite path data h, changes_uartTxWrite, changes_urxRead, changes_presenceClose,
    changes_otpProgram, changes_debugRelock, fun path _ req h => changes_lanePwrRequest path req h,
    fun path _ h => changes_eyeScanGo path h, fun path _ h => changes_prbsInject path h, fun path _ h => changes_prbsClear path h,
    changes_timeIncWrite, changes_timeCmdStep, changes_timeCmdSet, changes_timeNowRead, fun path _ h => changes_tsqPop path h,
    changes_enrolmentWindowOpen, changes_enrolmentWindowClose, changes_berthCmdRd, changes_berthCmdClrcnt,
    changes_protectiveCommand, changes_modeChangeGo, changes_rankCmdRd, changes_rankCmdWr, changes_rankCmdSetc,
    changes_rankCmdSetv, changes_programLoad, changes_sigdataWrite, changes_chainQueueWrite, changes_chainCmdRd, changes_rcuClear,
    fun path _ h => changes_injectorGo path h, fun path _ h => changes_injectorStop path h, changes_gateFclr,
    fun path _ data h => changes_tevArm path data h, fun path _ h => changes_tevDisarm path h, changes_schgTake,
    fun path _ h => changes_schqFlush path h, changes_memLockOpen, changes_memLockClose, changes_recForce, changes_bbRearm,
    changes_monSnap, changes_ltAdd, changes_ltLock, fun path _ data h => changes_clkDomWrite path data h, changes_attestationGo,
    changes_recordExport, changes_recordRestore, changes_berthCmdWr, changes_handoverGo, changes_handoverAbort,
    changes_freqResponseGo, fun _ => changes_hubCommand fun _ => rfl, fun _ => changes_hubCommand fun _ => rfl,
    fun _ => changes_hubCommand fun _ => rfl, fun _ => changes_hubCommand fun _ => rfl, changes_singleBerthDeblock,
    fun _ => changes_cellCommand fun _ => rfl, fun _ => changes_cellCommand fun _ => rfl, fun _ => changes_cellCommand fun _ =>
        rfl,
    changes_schedSubmit, changes_schgDone, changes_schgCancel, changes_errPop, changes_errAck, changes_errSwlog,
    fun _ _ => changes_recCmd fun _ => rfl, fun _ => changes_recCmd fun _ => rfl, fun _ => changes_stnCmd fun _ => rfl,
    fun _ => changes_stnCmd fun _ => rfl, changes_txPost⟩

end Sys2Proof.Machine
end
